-- ==== Sys2Proof/Word.lean ====
section
/-! DEFINITION. The word types of the Quinryn Control Space and the shapes in which the register map is written down
(R9, R12, R18). -/
namespace Sys2Proof

/-- A QCS register: 32 bits (R9). -/
abbrev Word := BitVec 32

/-- A byte. -/
abbrev Byte := BitVec 8

/-- A sparse table: a list of keys and values, rising by key where the model writes it. -/
abbrev Tab (α : Type) := List (Nat × α)

/-- The access codes of Table 0-5 (R12); RSV bits carry no field row. -/
inductive Acc where
  | rw | ro | w1c | w1s | wo | rc | rwl
  deriving DecidableEq, Repr

/-- A bit field of a register: its lowest bit and its width (R9). -/
structure Fld where
  lo : Nat
  width : Nat
  deriving DecidableEq, Repr

/-- A field of a register table: its place and its access code. -/
structure FieldRow where
  lo : Nat
  width : Nat
  acc : Acc
  deriving DecidableEq, Repr

/-- One row of a register table: the offset in the block instance, the dimensions (count, stride) of an array of
registers, outermost first, the fields, the value after reset by index list, and whether only instance 0 has it. -/
structure RegRow where
  off : Nat
  dims : List (Nat × Nat)
  fields : List FieldRow
  rst : List Nat → Nat
  only0 : Bool

/-- One row of the QCS map (Table 1-15): base, number of instances, stride, the NAME of its header, its registers. -/
structure BlockRow where
  base : Nat
  count : Nat
  stride : Nat
  name : Nat
  rows : List RegRow

/-- What a mechanism's stored tables say that the device lays its zones out by (R222): guard tracks, spare slots, and for
each surface q = 12k + h its tracks and rate bands as (rate in Mbit/s, tracks, reversed), and the health they store. -/
structure StoredTables where
  guardTrk : Nat
  spareN : Nat
  surfaces : List (List (Nat × Nat × Bool))
  grade : Nat
  cause : Nat
  widthTarget : Nat
  deriving DecidableEq, Repr, Inhabited

end Sys2Proof
end

