-- ==== Sys2Proof/Syntax.lean ====
section
/-! DEFINITION. The commands of the block: one constructor for every row of the opcode table, with its operands, and
the types its operands draw on. The comment of a constructor names the rule its row cites. -/
namespace Sys2Proof

/-- The master identities of Table 1-13 (R40); no other value is issued. -/
inductive Master where
  | hostA | hostB | bmc | ridge0 | ridge1 | ridge2 | ridge3 | partner | zoneSeq | debug
  deriving DecidableEq, Repr

/-- The width of a QCS access in bytes (R10). -/
inductive Width where
  | b1 | b2 | b4 | b8
  deriving DecidableEq, Repr

/-- A host port of the device: A is 0, B is 1 (R283). -/
inductive HPort where
  | a | b
  deriving DecidableEq, Repr

/-- A submission queue entry of an I/O command as the device fetches it (R264): CID, opcode, NSID, start LBA, LBAs
(0-based), FUA, Zone Send or Receive Action, Select All. -/
structure SqEntry where
  cid : BitVec 16
  opc : BitVec 8
  nsid : BitVec 32
  slba : BitVec 64
  nlb : BitVec 16
  fua : Bool
  zsa : BitVec 8
  selectAll : Bool
  deriving DecidableEq, Repr

/-- A tether flit: the header fields of Table 3-2 and the valid payload bytes; the rest of the payload is zero. -/
structure Flit where
  ftype : BitVec 4
  chan : BitVec 4
  flags : BitVec 8
  seq : BitVec 16
  tstamp : BitVec 32
  plen : BitVec 8
  cred : BitVec 8
  epoch : BitVec 16
  crc : BitVec 32
  payload : List Byte
  deriving DecidableEq, Repr

/-- A sector that a formatter instruction covers (R366, R150): its head lane, head, track and position, whether it is
written, the class its decode has (R117), and what its tag holds or must hold, from the zone sequencer: KIND, NSID, LBA,
AUX (Table 5-3). -/
structure SecWork where
  lane : BitVec 2
  head : BitVec 4
  track : BitVec 24
  pos : BitVec 16
  write : Bool
  cls : BitVec 2
  kind : BitVec 8
  nsid : BitVec 8
  lba : BitVec 40
  aux : BitVec 32
  deriving DecidableEq, Repr

/-- What the demodulator reads from the samples of one wedge of a head (R157, R158): SAM found in its window, the Gray-coded track
and the wedge number with their parity bits, the amplitudes of the two bursts, and Δt in 1/256 servo cycle. -/
structure WedgeFind where
  sam : Bool
  gray : BitVec 24
  wedge : BitVec 10
  par1 : Bool
  par2 : Bool
  ampA : BitVec 16
  ampB : BitVec 16
  dt : BitVec 24
  deriving DecidableEq, Repr

/-- A memory error that a read finds (R288): whether it lies in SRAM, its address (bank × 2 MiB + offset there), whether it is
uncorrectable, the failing symbol or bit, whether the partner's copy of the line is poisoned too, and the LBA whose data a line
of the write buffer holds. -/
structure MemErr where
  sram : Bool
  addr : BitVec 32
  ue : Bool
  pos : BitVec 8
  mirrorBad : Bool
  nsid : BitVec 8
  lba : BitVec 40
  deriving DecidableEq, Repr

/-- A frame of the mirror stream as the STANDBY receives it (R389, R391): write data with its key and the LBAs of it whose lines have
the poison mark (R289), a descriptor, the ledger
state (VUSED, VMAX, writers), a digest entry (CNTLID, SQID, CID, opcode, NSID, SLBA, NLB, status code type and status code),
its withdrawal, an extent release, and the discard of a key. -/
inductive MirrorFrame where
  | data (key : BitVec 64) (nsid : BitVec 8) (lba : BitVec 40) (data : List Nat) (bad : List (BitVec 16))
  | desc (nsid : BitVec 8) (zone : BitVec 32) (zstate : BitVec 4) (wp mwp wseq rmark : BitVec 64)
  | ledger (vused vmax writers : BitVec 32)
  | digest (cntlid sq cid : BitVec 16) (opc : BitVec 8) (nsid : BitVec 32) (slba : BitVec 64) (nlb : BitVec 16) (sct sc : BitVec 8)
  | withdraw (cntlid sq cid : BitVec 16)
  | release (nsid : BitVec 8) (lba : BitVec 40) (count : BitVec 32)
  | discard (key : BitVec 64)
  deriving DecidableEq, Repr

/-- A relay frame (Table 16-7): HOP, TYPE, IMG_ID, OFFSET, payload, CRC-32C. -/
structure RelayFrame where
  hop : BitVec 6
  kind : BitVec 2
  imgId : BitVec 32
  offset : BitVec 32
  payload : List Byte
  crc : BitVec 32
  deriving DecidableEq, Repr

/-- A running slot of the loop record (R393): engine, slot, MODE, OUT. -/
structure LoopSlot where
  engine : Fin 16
  slot : Fin 64
  mode : BitVec 2
  out : BitVec 32
  deriving DecidableEq, Repr

/-- A sequencer: a formatter's, or a zone sequencer (R364, R365). -/
inductive SeqRef where
  | f (i : Fin 64)
  | z (i : Fin 8)
  deriving DecidableEq, Repr

/-- The commands and events of the opcode table, in its order (log entry 10 says what the operands stand for). -/
inductive Instr where
  /-- REGISTER_WRITE, R12 -/
  | registerWrite (m : Master) (addr : Nat) (width : Width) (value : BitVec 64)
  /-- QCS_UNDEFINED_ACCESS, R16 -/
  | qcsUndefinedAccess (m : Master) (addr : Nat) (write : Bool)
  /-- MISALIGNED_QCS_ACCESS, R10 -/
  | misalignedQcsAccess (m : Master) (addr : Nat) (width : Width) (write : Bool)
  /-- WIDE_REGISTER_LOW_READ, R11 -/
  | wideRegisterLowRead (m : Master) (addr : Nat) (width : Width)
  /-- RC_FIELD_READ, R13 -/
  | rcFieldRead (m : Master) (addr : Nat) (width : Width)
  /-- EXPERT_CLAIM, R19 -/
  | expertClaim (m : Master) (addr : Nat)
  /-- EXPERT_RELEASE, R21 -/
  | expertRelease (m : Master) (addr : Nat)
  /-- COMPOSITE_RECOMPUTE, R33 -/
  | compositeRecompute (u : Fin 4095)
  /-- UNIT_POLICY_WRITE, R39 -/
  | unitPolicyWrite (m : Master) (u : Fin 4095) (policy : BitVec 4)
  /-- UNIT_WAKE_DEMAND, R31 -/
  | unitWakeDemand (u : Fin 4095)
  /-- UNIT_WAKE_COMPLETE, R28 -/
  | unitWakeComplete (u : Fin 4095)
  /-- UNIT_RETIRE, R28 -/
  | unitRetire (u : Fin 4095) (cause : BitVec 8)
  /-- TRUSS_DOWNLOAD, R64 -/
  | trussDownload (x : HPort) (cid : BitVec 16) (numd ofst : BitVec 32) (data : List Word)
  /-- TRUSS_COMMIT_VERIFY, R64 -/
  | trussCommitVerify (x : HPort) (cid : BitVec 16) (quiesceMs : BitVec 16)
  /-- TRUSS_COMMIT_LOAD_STORE, R64 -/
  | trussCommitLoadStore (x : HPort) (cid : BitVec 16) (quiesceMs : BitVec 16)
  /-- TRUSS_COMMIT_PATCH_STORE, R64 -/
  | trussCommitPatchStore (x : HPort) (cid : BitVec 16) (quiesceMs : BitVec 16)
  /-- TRUSS_COMMIT_LOAD, R64 -/
  | trussCommitLoad (x : HPort) (cid : BitVec 16) (quiesceMs : BitVec 16)
  /-- TRUSS_COMMIT_PATCH, R64 -/
  | trussCommitPatch (x : HPort) (cid : BitVec 16) (quiesceMs : BitVec 16)
  /-- TRUSS_QUIESCE_WAIT_END, R65 -/
  | trussQuiesceWaitEnd
  /-- TRUSS_VERIFY_DONE, R53 -/
  | trussVerifyDone
  /-- TRUSS_PARTNER_ANSWER, R63 -/
  | trussPartnerAnswer (accept : Bool)
  /-- TRUSS_PARTNER_TIMEOUT, R63 -/
  | trussPartnerTimeout
  /-- PEER_TRUSS_CHECK, R63 -/
  | peerTrussCheck (image : List Byte)
  /-- TRS_LD_VERIFY, R66 -/
  | trsLdVerify (m : Master)
  /-- TRS_LD_LOAD, R66 -/
  | trsLdLoad (m : Master)
  /-- TRS_LD_PATCH, R66 -/
  | trsLdPatch (m : Master)
  /-- TRS_SEQ_FLOOR_WRITE, R66 -/
  | trsSeqFloorWrite (m : Master) (value : Word)
  /-- TRS_KEY_REVOKE, R66 -/
  | trsKeyRevoke (m : Master) (slots : BitVec 4)
  /-- TRS_FENCE_SET, R59 -/
  | trsFenceSet (m : Master) (root : BitVec 12)
  /-- TRS_FENCE_RELEASE, R59 -/
  | trsFenceRelease (m : Master)
  /-- PRESENCE_EDGE, R91 -/
  | presenceEdge (p : Fin 32) (low : Bool)
  /-- PRESENCE_DEBOUNCE_END, R91 -/
  | presenceDebounceEnd (p : Fin 32)
  /-- TSB_RESPONSE, R87 -/
  | tsbResponse (p : Fin 32) (status : BitVec 8) (data : List Byte) (crcOk : Bool)
  /-- TSB_RESPONSE_TIMEOUT, R87 -/
  | tsbResponseTimeout (p : Fin 32)
  /-- TSB_ATTENTION, R88 -/
  | tsbAttention (p : Fin 32) (cause : BitVec 8)
  /-- TETHER_TRAINING_DONE, R91 -/
  | tetherTrainingDone (p : Fin 32) (upGood : BitVec 4) (dnGood : Bool)
  /-- TETHER_TRAINING_FAIL, R82 -/
  | tetherTrainingFail (p : Fin 32) (lane : Fin 5)
  /-- UPSTREAM_LANE_LOSS, R81 -/
  | upstreamLaneLoss (p : Fin 32) (lane : Fin 4)
  /-- DOWNSTREAM_LANE_LOSS, R81 -/
  | downstreamLaneLoss (p : Fin 32)
  /-- CREDIT_TIMEOUT, R79 -/
  | creditTimeout (p : Fin 32)
  /-- LANE_RETRAIN_DONE, R82 -/
  | laneRetrainDone (p : Fin 32) (upGood : BitVec 4) (dnGood : Bool)
  /-- LANE_RETRY_EPISODE, R82 -/
  | laneRetryEpisode (p : Fin 32) (lane : Fin 4)
  /-- SAMPLE_FLIT, R103 -/
  | sampleFlit (p : Fin 32) (f : Flit)
  /-- SERVO_FLIT, R157 -/
  | servoFlit (p : Fin 32) (f : Flit)
  /-- TELEM_FLIT, R70 -/
  | telemFlit (p : Fin 32) (f : Flit)
  /-- IDLE_FLIT, R70 -/
  | idleFlit (p : Fin 32) (f : Flit)
  /-- HEARTBEAT_PERIOD, R96 -/
  | heartbeatPeriod (p : Fin 32)
  /-- FEC_RETRAIN_CHECK, R99 -/
  | fecRetrainCheck (p : Fin 32) (lane : Fin 5) (corrected uncorrectable : BitVec 31)
  /-- TTH_CNT_CLR, R441 -/
  | tthCntClr (m : Master) (p : Fin 32)
  /-- TTH_RETRAIN, R91 -/
  | tthRetrain (m : Master) (p : Fin 32)
  /-- TTH_SB_ONLY_WRITE, R91 -/
  | tthSbOnlyWrite (m : Master) (p : Fin 32) (v : Bool)
  /-- TTH_PORT_DISABLE, R91 -/
  | tthPortDisable (m : Master) (p : Fin 32)
  /-- TTH_PORT_ENABLE, R91 -/
  | tthPortEnable (m : Master) (p : Fin 32)
  /-- TTH_WDOG_WRITE, R96 -/
  | tthWdogWrite (m : Master) (p : Fin 32) (us : BitVec 16)
  /-- TOKEN_ACQUIRE, R93 -/
  | tokenAcquire (m : Master) (p : Fin 32)
  /-- TOKEN_RELEASE, R93 -/
  | tokenRelease (m : Master) (p : Fin 32)
  /-- TOKEN_HANDOFF, R93 -/
  | tokenHandoff (m : Master) (p : Fin 32)
  /-- TSB_CMD_READ, R102 -/
  | tsbCmdRead (m : Master) (p : Fin 32) (len : BitVec 8) (addr : BitVec 16)
  /-- TSB_CMD_WRITE, R102 -/
  | tsbCmdWrite (m : Master) (p : Fin 32) (len : BitVec 8) (addr : BitVec 16)
  /-- FE_TSB_READ, R89 -/
  | feTsbRead (p : Fin 32) (side : Fin 2) (addr : BitVec 16) (len : BitVec 8) (crcOk : Bool)
  /-- FE_TSB_WRITE, R89 -/
  | feTsbWrite (p : Fin 32) (side : Fin 2) (addr : BitVec 16) (data : List Byte) (crcOk : Bool)
  /-- FE_TSB_HEARTBEAT, R87 -/
  | feTsbHeartbeat (p : Fin 32) (side : Fin 2) (addr : BitVec 16) (len : BitVec 8) (crcOk : Bool)
  /-- FE_ACQUIRE, R93 -/
  | feAcquire (p : Fin 32) (side : Fin 2)
  /-- FE_RELEASE, R93 -/
  | feRelease (p : Fin 32) (side : Fin 2)
  /-- FE_HANDOFF, R93 -/
  | feHandoff (p : Fin 32) (side : Fin 2)
  /-- FE_WATCHDOG_EXPIRE, R97 -/
  | feWatchdogExpire (p : Fin 32) (rpm : BitVec 16) (busPower : Bool)
  /-- FE_OTHER_WATCHDOG_EXPIRE, R96 -/
  | feOtherWatchdogExpire (p : Fin 32) (side : Fin 2)
  /-- FE_HB_FLIT, R96 -/
  | feHbFlit (p : Fin 32) (side : Fin 2) (f : Flit)
  /-- FE_CMD_FLIT, R94 -/
  | feCmdFlit (p : Fin 32) (side : Fin 2) (f : Flit)
  /-- FE_CMD_APPLY, R72 -/
  | feCmdApply (p : Fin 32)
  /-- FE_WRITE_FLIT, R80 -/
  | feWriteFlit (p : Fin 32) (side : Fin 2) (f : Flit) (late : Bool)
  /-- FE_WINH_WORD, R85 -/
  | feWinhWord (p : Fin 32) (side : Fin 2) (word : BitVec 12)
  /-- FE_WINH_BAD_WORD, R85 -/
  | feWinhBadWord (p : Fin 32) (side : Fin 2)
  /-- FE_WINH_SILENCE, R85 -/
  | feWinhSilence (p : Fin 32) (side : Fin 2)
  /-- FE_DOWNSTREAM_LOSS, R97 -/
  | feDownstreamLoss (p : Fin 32)
  /-- DL_PIN_SET, R106 -/
  | dlPinSet (m : Master) (a : Fin 64) (l : Fin 4) (i : Fin 2) (start : BitVec 13) (len : BitVec 14)
  /-- DL_PIN_RELEASE, R106 -/
  | dlPinRelease (m : Master) (a : Fin 64) (l : Fin 4) (i : Fin 2)
  /-- PIN_TIMEOUT, R106 -/
  | pinTimeout (a : Fin 64) (l : Fin 4) (i : Fin 2)
  /-- SYNC_DECISION, R141 -/
  | syncDecision (a : Fin 64) (l : Fin 4) (start : BitVec 17)
  /-- DECODE_JOB_DISPATCH, R117 -/
  | decodeJobDispatch (c : Fin 16)
  /-- DECODE_JOB_DONE, R118 -/
  | decodeJobDone (c : Fin 16)
  /-- CLUSTER_PARITY_ERROR, R119 -/
  | clusterParityError (c : Fin 16) (hour : BitVec 16)
  /-- CLUSTER_IDLE_POWEROFF, R120 -/
  | clusterIdlePoweroff (c : Fin 16)
  /-- DL_RETRY_GO, R121 -/
  | dlRetryGo (m : Master) (a : Fin 64) (l : Fin 4) (value : Word)
  /-- LANE_POWER_REQUEST, R123 -/
  | lanePowerRequest (a : Fin 64) (l : Fin 4)
  /-- LANE_POWER_READY, R124 -/
  | lanePowerReady (a : Fin 64) (l : Fin 4)
  /-- LANE_IDLE_POWEROFF, R123 -/
  | laneIdlePoweroff (a : Fin 64) (l : Fin 4)
  /-- LDC_SLOTS_READ, R116 -/
  | ldcSlotsRead (m : Master) (c : Fin 16)
  /-- LADDER_REREAD, R144 -/
  | ladderReread (a : Fin 64) (l : Fin 4) (start : BitVec 17)
  /-- TRACK_PARITY_RECONSTRUCT, R140 -/
  | trackParityReconstruct (a : Fin 64) (l : Fin 4) (read : List (BitVec 16 × BitVec 33024))
  /-- THATCH_RECONSTRUCT, R242 -/
  | thatchReconstruct (t : Fin 4) (nsid : BitVec 8) (lba : BitVec 40) (shares : List (BitVec 5 × BitVec 33024))
  /-- TRACK_PARITY_REBUILD_READ, R139 -/
  | trackParityRebuildRead (p : Fin 32) (q : BitVec 5) (track : BitVec 24)
  /-- SERVO_WEDGE, R157 -/
  | servoWedge (a : Fin 64) (l : Fin 4) (w : WedgeFind) (t : BitVec 48)
  /-- MISS_INHIBIT, R165 -/
  | missInhibit (a : Fin 64) (l : Fin 4)
  /-- INHIBIT_RELEASE, R165 -/
  | inhibitRelease (a : Fin 64) (l : Fin 4)
  /-- SERVO_LOST, R159 -/
  | servoLost (a : Fin 64)
  /-- SERVO_REACQUIRE, R159 -/
  | servoReacquire (a : Fin 64) (found : Bool)
  /-- SETTLED, R163 -/
  | settled (a : Fin 64)
  /-- MA_SATURATION, R162 -/
  | maSaturation (a : Fin 64) (l : Fin 4)
  /-- SHOCK_RECORD, R167 -/
  | shockRecord (p : Fin 32) (value : BitVec 16) (stamp : BitVec 32)
  /-- SHOCK_RECORD_TIMEOUT, R168 -/
  | shockRecordTimeout (a : Fin 64)
  /-- SHOCK_HOLD_EXPIRE, R164 -/
  | shockHoldExpire (a : Fin 64)
  /-- REWRITE_PASS, R171 -/
  | rewritePass (a : Fin 64)
  /-- SQUEEZE_READ, R172 -/
  | squeezeRead (a : Fin 64) (l : Fin 4) (failed : List (BitVec 16)) (nsid : BitVec 8) (lba : BitVec 40)
  /-- SW_INHIBIT_WRITE, R164 -/
  | swInhibitWrite (m : Master) (a : Fin 64) (mask : BitVec 4)
  /-- BRIDLE_TIMER_TICK, R179 -/
  | bridleTimerTick (e : Fin 16) (k : Fin 64) (t : BitVec 48)
  /-- BRIDLE_ITERATION_START, R180 -/
  | bridleIterationStart (e : Fin 16) (t : BitVec 48)
  /-- BRIDLE_ITERATION_END, R184 -/
  | bridleIterationEnd (e : Fin 16)
  /-- BRIDLE_OUTPUT, R181 -/
  | bridleOutput (e : Fin 16) (k : Fin 64)
  /-- BRIDLE_SWITCH_GO, R190 -/
  | bridleSwitchGo (m : Master) (e : Fin 16)
  /-- BRIDLE_SWITCH_IDLE_COPY, R190 -/
  | bridleSwitchIdleCopy (e : Fin 16) (k : Fin 64)
  /-- SPEED_STEP_GROUP_SWITCH, R192 -/
  | speedStepGroupSwitch (p : Fin 32)
  /-- SLOT_MODE_WRITE, R186 -/
  | slotModeWrite (m : Master) (e : Fin 16) (k : Fin 64) (mode : BitVec 2)
  /-- LIVE_COEF_WRITE, R188 -/
  | liveCoefWrite (m : Master) (e : Fin 16) (k : Fin 64) (i : Fin 16) (value : Word)
  /-- FOLLOWING_ERROR_ACTION, R193 -/
  | followingErrorAction (e : Fin 16) (k : Fin 64)
  /-- FOLLOWING_ERROR_END, R194 -/
  | followingErrorEnd (e : Fin 16) (k : Fin 64)
  /-- FE_CLEAR, R194 -/
  | feClear (m : Master) (e : Fin 16) (k : Fin 64)
  /-- BRIDLE_ENGINE_POWEROFF, R195 -/
  | bridleEnginePoweroff (e : Fin 16)
  /-- BRD_STAT_READ, R199 -/
  | brdStatRead (m : Master) (e : Fin 16)
  /-- ZC_RECORD, R202 -/
  | zcRecord (p : Fin 32) (index : BitVec 8) (stamp : BitVec 32)
  /-- COMMUTATION_STEP, R202 -/
  | commutationStep (p : Fin 32)
  /-- COMMUTATION_STEP_FAIL, R202 -/
  | commutationStepFail (p : Fin 32)
  /-- OBSERVER_LOSS, R212 -/
  | observerLoss (p : Fin 32)
  /-- SINE_UPDATE, R203 -/
  | sineUpdate (p : Fin 32) (observed : BitVec 10)
  /-- SPN_REQ_RUN, R204 -/
  | spnReqRun (m : Master) (p : Fin 32) (step : BitVec 2)
  /-- SPN_REQ_STOP, R204 -/
  | spnReqStop (m : Master) (p : Fin 32)
  /-- SPN_REQ_COAST, R315 -/
  | spnReqCoast (m : Master) (p : Fin 32)
  /-- SPN_STEP_WRITE, R208 -/
  | spnStepWrite (m : Master) (p : Fin 32) (step : BitVec 2)
  /-- SPINUP_ADMIT, R207 -/
  | spinupAdmit (p : Fin 32)
  /-- CATCH_LOCK, R204 -/
  | catchLock (p : Fin 32)
  /-- CATCH_NO_CROSSING, R204 -/
  | catchNoCrossing (p : Fin 32)
  /-- CATCH_IMPLAUSIBLE, R204 -/
  | catchImplausible (p : Fin 32)
  /-- ALIGN_DONE, R204 -/
  | alignDone (p : Fin 32)
  /-- RAMP_HANDOVER, R204 -/
  | rampHandover (p : Fin 32)
  /-- RAMP_TIMEOUT, R204 -/
  | rampTimeout (p : Fin 32)
  /-- SPINDLE_RUN_REACHED, R204 -/
  | spindleRunReached (p : Fin 32)
  /-- SHORT_END, R204 -/
  | shortEnd (p : Fin 32)
  /-- REGEN_ADMIT, R209 -/
  | regenAdmit (p : Fin 32)
  /-- SPEED_REF_SLEW_TICK, R208 -/
  | speedRefSlewTick (p : Fin 32)
  /-- BUS_RECORD, R209 -/
  | busRecord (p : Fin 32) (flags : BitVec 8) (volts : BitVec 16)
  /-- CHOPPER_FAULT, R210 -/
  | chopperFault (p : Fin 32)
  /-- REGEN_STOP_CLEAR, R210 -/
  | regenStopClear
  /-- COAST_WAIT_END, R212 -/
  | coastWaitEnd (p : Fin 32)
  /-- CATCH_WINDOW_EXPIRE, R212 -/
  | catchWindowExpire (p : Fin 32) (elapsedUs : BitVec 32)
  /-- HEAD_UNLOAD_DONE, R466 -/
  | headUnloadDone (p : Fin 32)
  /-- MON_RECORD, R215 -/
  | monRecord (p : Fin 32) (lane : Fin 8) (value : BitVec 16) (t : BitVec 48)
  /-- MON_TIMEOUT, R213 -/
  | monTimeout (p : Fin 32) (lane : Fin 8)
  /-- CLEARANCE_RECORD, R215 -/
  | clearanceRecord (p : Fin 32) (lane : Fin 8) (value : BitVec 16) (t : BitVec 48)
  /-- MECH_TEMP_RECORD, R351 -/
  | mechTempRecord (p : Fin 32) (index : BitVec 8) (temp : BitVec 16)
  /-- AST_CAL_GO, R216 -/
  | astCalGo (m : Master) (p : Fin 32) (q : BitVec 5) (b : BitVec 3)
  /-- ASSIST_CAL_DONE, R216 -/
  | assistCalDone (p : Fin 32) (widths : List (BitVec 16)) (mon : BitVec 16)
  /-- CHOP_SVC_CLR, R210 -/
  | chopSvcClr (m : Master) (p : Fin 32)
  /-- CHOP_SET, R219 -/
  | chopSet (m : Master) (p : Fin 32)
  /-- JOURNAL_TIMER, R232 -/
  | journalTimer (nsid : BitVec 8) (zone : BitVec 32)
  /-- JOURNAL_WRITE_DONE, R232 -/
  | journalWriteDone (p : Fin 32) (ok : Bool)
  /-- ACCUMULATOR_READBACK, R241 -/
  | accumulatorReadback (t : Fin 4) (uid : BitVec 12) (zone row : BitVec 32)
  /-- REBUILD_START, R243 -/
  | rebuildStart (m : Master) (t : Fin 4) (member : BitVec 5) (uid : BitVec 12)
  /-- REBUILD_STOP, R251 -/
  | rebuildStop (m : Master) (t : Fin 4)
  /-- REBUILD_DONE, R243 -/
  | rebuildDone (t : Fin 4) (rows : BitVec 31)
  /-- RELOCATION, R244 -/
  | relocation (p : Fin 32)
  /-- ZONE_LOCATE_GO, R252 -/
  | zoneLocateGo (m : Master) (nsid : BitVec 8)
  /-- CTX_SELECT, R250 -/
  | ctxSelect (m : Master) (index : BitVec 12)
  /-- ZMP_STAT_READ, R250 -/
  | zmpStatRead (m : Master)
  /-- PERST_ASSERT, R258 -/
  | perstAssert (x : HPort)
  /-- PERST_DEASSERT, R253 -/
  | perstDeassert (x : HPort) (bifur : Bool)
  /-- PCIE_LINK_UP, R339 -/
  | pcieLinkUp (x : HPort) (speed : BitVec 3) (width : BitVec 6)
  /-- SURPRISE_LINK_DOWN, R258 -/
  | surpriseLinkDown (x : HPort)
  /-- FUNCTION_LEVEL_RESET, R258 -/
  | functionLevelReset (x : HPort)
  /-- CC_EN_CLEAR, R258 -/
  | ccEnClear (x : HPort)
  /-- CC_EN_SET, R339 -/
  | ccEnSet (x : HPort)
  /-- SQ_DOORBELL_WRITE, R56 -/
  | sqDoorbellWrite (x : HPort) (qid tail : BitVec 16)
  /-- COMMAND_FETCH, R264 -/
  | commandFetch (x : HPort) (sqid : BitVec 16) (e : SqEntry)
  /-- LEDGER_ADMIT, R313 -/
  | ledgerAdmit
  /-- HOST_DATA_RECEIVED, R265 -/
  | hostDataReceived (x : HPort) (sqid cid : BitVec 16) (data : List Nat)
  /-- POISONED_COMPLETION, R257 -/
  | poisonedCompletion (x : HPort) (sqid cid : BitVec 16)
  /-- WRITE_DATA_TIMEOUT, R257 -/
  | writeDataTimeout (x : HPort) (sqid cid : BitVec 16)
  /-- MIRROR_ACK, R389 -/
  | mirrorAck (x : HPort) (sqid cid : BitVec 16)
  /-- COMMIT_POINT, R265 -/
  | commitPoint (x : HPort) (sqid cid : BitVec 16)
  /-- NVM_WRITE, R267 -/
  | nvmWrite (x : HPort) (sqid cid : BitVec 16)
  /-- NVM_READ, R268 -/
  | nvmRead (x : HPort) (sqid cid : BitVec 16) (errs : List MemErr)
  /-- NVM_FLUSH, R265 -/
  | nvmFlush (x : HPort) (sqid cid : BitVec 16)
  /-- NVM_WRITE_ZEROES, R265 -/
  | nvmWriteZeroes (x : HPort) (sqid cid : BitVec 16)
  /-- NVM_VERIFY, R265 -/
  | nvmVerify (x : HPort) (sqid cid : BitVec 16) (errs : List MemErr)
  /-- ZONE_APPEND, R267 -/
  | zoneAppend (x : HPort) (sqid cid : BitVec 16)
  /-- ZMS_OPEN, R231 -/
  | zmsOpen (x : HPort) (sqid cid : BitVec 16)
  /-- ZMS_CLOSE, R269 -/
  | zmsClose (x : HPort) (sqid cid : BitVec 16)
  /-- ZMS_FINISH, R269 -/
  | zmsFinish (x : HPort) (sqid cid : BitVec 16)
  /-- ZMS_RESET, R269 -/
  | zmsReset (x : HPort) (sqid cid : BitVec 16)
  /-- ZMS_OFFLINE, R269 -/
  | zmsOffline (x : HPort) (sqid cid : BitVec 16)
  /-- ZMS_SET_ZONE_DESC_EXT, R260 -/
  | zmsSetZoneDescExt (x : HPort) (sqid cid : BitVec 16)
  /-- ZMR_REPORT_ZONES, R260 -/
  | zmrReportZones (x : HPort) (sqid cid : BitVec 16) (option : BitVec 8)
  /-- ZMR_EXTENDED_REPORT_ZONES, R260 -/
  | zmrExtendedReportZones (x : HPort) (sqid cid : BitVec 16)
  /-- INVALID_OPCODE, R260 -/
  | invalidOpcode (x : HPort) (sqid cid : BitVec 16) (opc lid : BitVec 8)
  /-- CREATE_IO_SQ, R262 -/
  | createIoSq (x : HPort) (cid qid size cqid : BitVec 16) (prio : BitVec 2) (pc : Bool)
  /-- DELETE_IO_SQ, R262 -/
  | deleteIoSq (x : HPort) (cid qid : BitVec 16)
  /-- CREATE_IO_CQ, R262 -/
  | createIoCq (x : HPort) (cid qid size vec : BitVec 16) (ien pc : Bool)
  /-- DELETE_IO_CQ, R262 -/
  | deleteIoCq (x : HPort) (cid qid : BitVec 16)
  /-- IDENTIFY, R259 -/
  | identify (x : HPort) (cid : BitVec 16) (cns : BitVec 8) (nsid : BitVec 32)
  /-- ABORT, R270 -/
  | abort (x : HPort) (cid sqid acid : BitVec 16) (outstanding : BitVec 4)
  /-- ASYNC_EVENT_REQUEST, R422 -/
  | asyncEventRequest (x : HPort) (cid : BitVec 16)
  /-- KEEP_ALIVE, R260 -/
  | keepAlive (x : HPort) (cid : BitVec 16)
  /-- SET_FEATURES, R260 -/
  | setFeatures (x : HPort) (cid : BitVec 16) (fid : BitVec 8) (dw11 : Word) (sv : Bool)
  /-- GET_FEATURES, R260 -/
  | getFeatures (x : HPort) (cid : BitVec 16) (fid : BitVec 8) (dw11 : Word)
  /-- SET_FEAT_POWER_MGMT, R278 -/
  | setFeatPowerMgmt (x : HPort) (cid : BitVec 16) (dw11 : Word) (sv : Bool)
  /-- GET_FEAT_POWER_MGMT, R277 -/
  | getFeatPowerMgmt (x : HPort) (cid : BitVec 16)
  /-- POWER_STATE_ENTRY_DONE, R278 -/
  | powerStateEntryDone (partnerUp : Bool)
  /-- D3HOT_ENTRY, R278 -/
  | d3hotEntry (x : HPort)
  /-- FW_IMAGE_DOWNLOAD, R399 -/
  | fwImageDownload (x : HPort) (cid : BitVec 16) (numd ofst : BitVec 32) (data : List Word)
  /-- FW_COMMIT_CA0, R399 -/
  | fwCommitCa0 (x : HPort) (cid : BitVec 16) (fs : BitVec 3)
  /-- FW_COMMIT_CA1, R399 -/
  | fwCommitCa1 (x : HPort) (cid : BitVec 16) (fs : BitVec 3)
  /-- FW_COMMIT_CA2, R399 -/
  | fwCommitCa2 (x : HPort) (cid : BitVec 16) (fs : BitVec 3)
  /-- FW_COMMIT_CA3, R402 -/
  | fwCommitCa3 (x : HPort) (cid : BitVec 16) (fs : BitVec 3)
  /-- PAIR_UPDATE_STEP, R402 -/
  | pairUpdateStep (ok : Bool)
  /-- DEVICE_SELF_TEST_SHORT, R359 -/
  | deviceSelfTestShort (x : HPort) (cid : BitVec 16) (nsid : Word)
  /-- DEVICE_SELF_TEST_EXTENDED, R359 -/
  | deviceSelfTestExtended (x : HPort) (cid : BitVec 16) (nsid : Word)
  /-- DEVICE_SELF_TEST_ABORT, R360 -/
  | deviceSelfTestAbort (x : HPort) (cid : BitVec 16) (nsid : Word)
  /-- SELF_TEST_STEP_DONE, R359 -/
  | selfTestStepDone (ok ce : Bool)
  /-- LOG_ERROR_INFORMATION, R272 -/
  | logErrorInformation (x : HPort) (cid : BitVec 16) (ofst len : BitVec 32)
  /-- LOG_SMART_HEALTH, R260 -/
  | logSmartHealth (x : HPort) (cid : BitVec 16) (nsid ofst len : BitVec 32)
  /-- LOG_FIRMWARE_SLOT, R260 -/
  | logFirmwareSlot (x : HPort) (cid : BitVec 16) (ofst len : BitVec 32)
  /-- LOG_CHANGED_NAMESPACE_LIST, R275 -/
  | logChangedNamespaceList (x : HPort) (cid : BitVec 16) (rae : Bool) (ofst len : BitVec 32)
  /-- LOG_COMMANDS_SUPPORTED, R260 -/
  | logCommandsSupported (x : HPort) (cid : BitVec 16) (ofst len : BitVec 32)
  /-- LOG_DEVICE_SELF_TEST, R359 -/
  | logDeviceSelfTest (x : HPort) (cid : BitVec 16) (ofst len : BitVec 32)
  /-- LOG_ANA, R274 -/
  | logAna (x : HPort) (cid : BitVec 16) (ofst len : BitVec 32)
  /-- LOG_CHANGED_ZONE_LIST, R271 -/
  | logChangedZoneList (x : HPort) (cid : BitVec 16) (nsid : BitVec 32) (rae : Bool) (ofst len : BitVec 32)
  /-- LOG_TRUSS, R65 -/
  | logTruss (x : HPort) (cid : BitVec 16) (ofst len : BitVec 32)
  /-- LOG_UNIT_TABLE, R65 -/
  | logUnitTable (x : HPort) (cid : BitVec 16) (ofst len : BitVec 32)
  /-- LOG_EAVE_LAYOUT, R249 -/
  | logEaveLayout (x : HPort) (cid : BitVec 16) (ofst len : BitVec 32)
  /-- LOG_THATCH_STATUS, R249 -/
  | logThatchStatus (x : HPort) (cid : BitVec 16) (ofst len : BitVec 32)
  /-- LOG_LOST_RANGES, R249 -/
  | logLostRanges (x : HPort) (cid : BitVec 16) (ofst len : BitVec 32)
  /-- LOG_HOST_INTERFACE_STATS, R282 -/
  | logHostInterfaceStats (x : HPort) (cid : BitVec 16) (ofst len : BitVec 32)
  /-- LOG_MICROCODE_STATUS, R378 -/
  | logMicrocodeStatus (x : HPort) (cid : BitVec 16) (ofst len : BitVec 32)
  /-- LOG_EVENT_STATUS, R423 -/
  | logEventStatus (x : HPort) (cid : BitVec 16) (rae : Bool) (ofst len : BitVec 32)
  /-- LOG_TAIL_RECORDER, R423 -/
  | logTailRecorder (x : HPort) (cid : BitVec 16) (lsp : BitVec 7) (ofst len : BitVec 32)
  /-- LOG_TETHER_STATUS, R99 -/
  | logTetherStatus (x : HPort) (cid : BitVec 16) (ofst len : BitVec 32)
  /-- LOG_DETECTION_STATS, R127 -/
  | logDetectionStats (x : HPort) (cid : BitVec 16) (ofst len : BitVec 32)
  /-- LOG_SECTOR_RECOVERY, R152 -/
  | logSectorRecovery (x : HPort) (cid : BitVec 16) (ofst len : BitVec 32)
  /-- LOG_SERVO_WRITE_SAFETY, R176 -/
  | logServoWriteSafety (x : HPort) (cid : BitVec 16) (ofst len : BitVec 32)
  /-- LOG_BRIDLE_STATS, R198 -/
  | logBridleStats (x : HPort) (cid : BitVec 16) (ofst len : BitVec 32)
  /-- LOG_SPINDLE_ASSIST, R220 -/
  | logSpindleAssist (x : HPort) (cid : BitVec 16) (ofst len : BitVec 32)
  /-- LOG_ASSIST_WEAR, R220 -/
  | logAssistWear (x : HPort) (cid : BitVec 16) (ofst len : BitVec 32)
  /-- LOG_PARTNER_STATUS, R405 -/
  | logPartnerStatus (x : HPort) (cid : BitVec 16) (ofst len : BitVec 32)
  /-- LOG_ORPHANED_COMPLETIONS, R405 -/
  | logOrphanedCompletions (x : HPort) (cid : BitVec 16) (lsp : BitVec 7) (ofst len : BitVec 32)
  /-- LOG_UPDATE_RELAY, R405 -/
  | logUpdateRelay (x : HPort) (cid : BitVec 16) (ofst len : BitVec 32)
  /-- LOG_FLASH_STATUS, R438 -/
  | logFlashStatus (x : HPort) (cid : BitVec 16) (ofst len : BitVec 32)
  /-- LOG_MEMORY_ERROR, R305 -/
  | logMemoryError (x : HPort) (cid : BitVec 16) (ofst len : BitVec 32)
  /-- LOG_CACHE_STATS, R305 -/
  | logCacheStats (x : HPort) (cid : BitVec 16) (ofst len : BitVec 32)
  /-- LOG_RETIREMENT_TABLE, R305 -/
  | logRetirementTable (x : HPort) (cid : BitVec 16) (ofst len : BitVec 32)
  /-- LOG_BALLAST_STATUS, R320 -/
  | logBallastStatus (x : HPort) (cid : BitVec 16) (ofst len : BitVec 32)
  /-- LOG_BACKGROUND_STATUS, R362 -/
  | logBackgroundStatus (x : HPort) (cid : BitVec 16) (ofst len : BitVec 32)
  /-- LOG_THERMAL_STATUS, R362 -/
  | logThermalStatus (x : HPort) (cid : BitVec 16) (ofst len : BitVec 32)
  /-- LOG_POWER_MODES, R342 -/
  | logPowerModes (x : HPort) (cid : BitVec 16) (ofst len : BitVec 32)
  /-- SET_UNIT_POWER_POLICY, R280 -/
  | setUnitPowerPolicy (x : HPort) (cid : BitVec 16) (dw11 : Word) (sv : Bool)
  /-- GET_UNIT_POWER_POLICY, R280 -/
  | getUnitPowerPolicy (x : HPort) (cid : BitVec 16) (dw11 : Word)
  /-- SET_COMMAND_SLOT_RESERVATION, R281 -/
  | setCommandSlotReservation (x : HPort) (cid : BitVec 16) (dw11 : Word) (sv : Bool)
  /-- GET_COMMAND_SLOT_RESERVATION, R281 -/
  | getCommandSlotReservation (x : HPort) (cid : BitVec 16)
  /-- SET_ZONE_LAYOUT_CONTROL, R248 -/
  | setZoneLayoutControl (x : HPort) (cid : BitVec 16) (dw11 : Word) (sv : Bool)
  /-- GET_ZONE_LAYOUT_CONTROL, R248 -/
  | getZoneLayoutControl (x : HPort) (cid : BitVec 16)
  /-- SET_EVENT_ROUTING, R423 -/
  | setEventRouting (x : HPort) (cid : BitVec 16) (dw11 dw12 : Word) (sv : Bool)
  /-- GET_EVENT_ROUTING, R423 -/
  | getEventRouting (x : HPort) (cid : BitVec 16) (dw11 : Word)
  /-- SET_TAIL_SNAPSHOT_SELECT, R423 -/
  | setTailSnapshotSelect (x : HPort) (cid : BitVec 16) (dw11 dw12 : Word) (sv : Bool)
  /-- GET_TAIL_SNAPSHOT_SELECT, R423 -/
  | getTailSnapshotSelect (x : HPort) (cid : BitVec 16) (dw11 : Word)
  /-- SET_TETHER_PORT_DISABLE, R100 -/
  | setTetherPortDisable (x : HPort) (cid : BitVec 16) (p : Fin 32) (sv : Bool)
  /-- SET_TETHER_PORT_ENABLE, R100 -/
  | setTetherPortEnable (x : HPort) (cid : BitVec 16) (p : Fin 32) (sv : Bool)
  /-- SET_TETHER_PORT_RETRAIN, R100 -/
  | setTetherPortRetrain (x : HPort) (cid : BitVec 16) (p : Fin 32) (sv : Bool)
  /-- GET_TETHER_PORT_CONTROL, R100 -/
  | getTetherPortControl (x : HPort) (cid : BitVec 16) (p : Fin 32)
  /-- SET_DECODE_SCHEDULING, R126 -/
  | setDecodeScheduling (x : HPort) (cid : BitVec 16) (dw11 dw12 : Word) (sv : Bool)
  /-- GET_DECODE_SCHEDULING, R126 -/
  | getDecodeScheduling (x : HPort) (cid : BitVec 16)
  /-- SET_READ_RECOVERY_CONTROL, R151 -/
  | setReadRecoveryControl (x : HPort) (cid : BitVec 16) (dw11 : Word) (sv : Bool)
  /-- GET_READ_RECOVERY_CONTROL, R151 -/
  | getReadRecoveryControl (x : HPort) (cid : BitVec 16)
  /-- SET_WRITE_SAFETY_CONTROL, R175 -/
  | setWriteSafetyControl (x : HPort) (cid : BitVec 16) (dw11 dw12 : Word) (sv : Bool)
  /-- GET_WRITE_SAFETY_CONTROL, R175 -/
  | getWriteSafetyControl (x : HPort) (cid : BitVec 16)
  /-- SET_CONTROL_SET_OVERRIDE, R197 -/
  | setControlSetOverride (x : HPort) (cid : BitVec 16) (dw11 : Word) (sv : Bool)
  /-- GET_CONTROL_SET_OVERRIDE, R197 -/
  | getControlSetOverride (x : HPort) (cid : BitVec 16) (p : Fin 32)
  /-- SET_SPINDLE_RUN, R220 -/
  | setSpindleRun (x : HPort) (cid : BitVec 16) (p : Fin 32) (index : BitVec 2) (sv : Bool)
  /-- SET_SPINDLE_STOP, R220 -/
  | setSpindleStop (x : HPort) (cid : BitVec 16) (p : Fin 32) (sv : Bool)
  /-- SET_SPINDLE_RETURN_TO_POLICY, R220 -/
  | setSpindleReturnToPolicy (x : HPort) (cid : BitVec 16) (p : Fin 32) (sv : Bool)
  /-- GET_SPINDLE_CONTROL, R220 -/
  | getSpindleControl (x : HPort) (cid : BitVec 16) (p : Fin 32)
  /-- SET_PARTNER_CONTROL, R405 -/
  | setPartnerControl (x : HPort) (cid : BitVec 16) (dw11 : Word) (sv : Bool)
  /-- GET_PARTNER_CONTROL, R405 -/
  | getPartnerControl (x : HPort) (cid : BitVec 16)
  /-- SET_CACHE_CONTROL, R305 -/
  | setCacheControl (x : HPort) (cid : BitVec 16) (dw11 dw12 : Word) (sv : Bool)
  /-- GET_CACHE_CONTROL, R305 -/
  | getCacheControl (x : HPort) (cid : BitVec 16)
  /-- SET_BALLAST_CONTROL, R320 -/
  | setBallastControl (x : HPort) (cid : BitVec 16) (dw11 dw12 : Word) (sv : Bool)
  /-- GET_BALLAST_CONTROL, R320 -/
  | getBallastControl (x : HPort) (cid : BitVec 16)
  /-- SET_BACKGROUND_CONTROL, R362 -/
  | setBackgroundControl (x : HPort) (cid : BitVec 16) (dw11 dw12 : Word) (sv : Bool)
  /-- GET_BACKGROUND_CONTROL, R362 -/
  | getBackgroundControl (x : HPort) (cid : BitVec 16)
  /-- SET_THERMAL_CONTROL, R362 -/
  | setThermalControl (x : HPort) (cid : BitVec 16) (dw11 dw12 : Word) (sv : Bool)
  /-- GET_THERMAL_CONTROL, R362 -/
  | getThermalControl (x : HPort) (cid : BitVec 16)
  /-- SET_MODE_CONTROL, R342 -/
  | setModeControl (x : HPort) (cid : BitVec 16) (dw11 : Word) (sv : Bool)
  /-- GET_MODE_CONTROL, R342 -/
  | getModeControl (x : HPort) (cid : BitVec 16)
  /-- ZONE_LOCATE, R249 -/
  | zoneLocate (x : HPort) (cid : BitVec 16) (nsid : BitVec 32) (lba : BitVec 64)
  /-- TAIL_CONTROL_FREEZE, R423 -/
  | tailControlFreeze (x : HPort) (cid : BitVec 16) (r : Fin 8)
  /-- TAIL_CONTROL_THAW, R423 -/
  | tailControlThaw (x : HPort) (cid : BitVec 16) (r : Fin 8)
  /-- TAIL_CONTROL_CLEAR, R423 -/
  | tailControlClear (x : HPort) (cid : BitVec 16) (r : Fin 8)
  /-- SPINDLE_SERVICE_CLEAR, R220 -/
  | spindleServiceClear (x : HPort) (cid : BitVec 16) (p : Fin 32)
  /-- SPINDLE_SERVICE_TEST, R220 -/
  | spindleServiceTest (x : HPort) (cid : BitVec 16) (p : Fin 32) (index : BitVec 2)
  /-- SPINDLE_TEST_END, R220 -/
  | spindleTestEnd (p : Fin 32)
  /-- SPINDLE_SERVICE_CALIBRATE, R220 -/
  | spindleServiceCalibrate (x : HPort) (cid : BitVec 16) (p : Fin 32) (q : BitVec 5)
  /-- ROLE_HANDOVER, R405 -/
  | roleHandover (x : HPort) (cid : BitVec 16)
  /-- UPDATE_CONFIRM, R405 -/
  | updateConfirm (x : HPort) (cid : BitVec 16) (same : Bool)
  /-- PAGE_RETIRE, R305 -/
  | pageRetire (x : HPort) (cid : BitVec 16) (page : BitVec 20)
  /-- MEMORY_CHECK_SINGLE_BIT, R305 -/
  | memoryCheckSingleBit (x : HPort) (cid : BitVec 16) (rgn : BitVec 2)
  /-- MEMORY_CHECK_UNCORRECTABLE, R305 -/
  | memoryCheckUncorrectable (x : HPort) (cid : BitVec 16) (rgn : BitVec 2)
  /-- MEMORY_CHECK_POISON, R305 -/
  | memoryCheckPoison (x : HPort) (cid : BitVec 16) (rgn : BitVec 2)
  /-- MEMORY_CODE_STORE, R305 -/
  | memoryCodeStore (x : HPort) (cid : BitVec 16) (regions : BitVec 8) (banks0 banks1 : BitVec 32)
  /-- CALIBRATE_ACTUATOR, R362 -/
  | calibrateActuator (x : HPort) (cid : BitVec 16) (a : BitVec 6) (one : Bool) (h : BitVec 4)
  /-- FETCH_EN_WRITE, R284 -/
  | fetchEnWrite (m : Master) (value : BitVec 2)
  /-- HIF_SLOTS_READ, R283 -/
  | hifSlotsRead (m : Master)
  /-- DRAM_TEMP_SAMPLE, R290 -/
  | dramTempSample (temp : BitVec 16)
  /-- MEP_FLIP_ARM, R294 -/
  | mepFlipArm (m : Master) (value : Word)
  /-- PAGE_RETIRE_GO, R295 -/
  | pageRetireGo (m : Master) (page : BitVec 20)
  /-- PAGE_RETIRE_DONE, R295 -/
  | pageRetireDone
  /-- CELOG_ENTRY_FREE, R293 -/
  | celogEntryFree (m : Master) (i : Fin 64)
  /-- CELOG_CLEAR, R293 -/
  | celogClear (m : Master)
  /-- MEP_CODE_LOCK, R14 -/
  | mepCodeLock (m : Master)
  /-- CACHE_FILL_DONE, R297 -/
  | cacheFillDone (i : BitVec 16)
  /-- CACHE_WRITEBACK_DONE, R301 -/
  | cacheWritebackDone (i : BitVec 16)
  /-- PREFETCH_ISSUE, R302 -/
  | prefetchIssue (i : BitVec 8)
  /-- CACHE_DISABLE, R303 -/
  | cacheDisable (m : Master)
  /-- CACHE_DRAIN_DONE, R303 -/
  | cacheDrainDone
  /-- CACHE_ENABLE, R303 -/
  | cacheEnable (m : Master)
  /-- CACHE_INVALIDATE, R303 -/
  | cacheInvalidate (m : Master)
  /-- CACHE_INVALIDATE_DONE, R303 -/
  | cacheInvalidateDone
  /-- LEDGER_EVALUATION, R312 -/
  | ledgerEvaluation (code : BitVec 12)
  /-- SHELF_PFAIL_ASSERT, R316 -/
  | shelfPfailAssert
  /-- SAFE_STAGING_START, R316 -/
  | safeStagingStart
  /-- SAFE_STAGING_DONE, R316 -/
  | safeStagingDone
  /-- SHELF_PFAIL_DEASSERT, R317 -/
  | shelfPfailDeassert
  /-- SAFE_EXIT, R334 -/
  | safeExit
  /-- VAON_GOOD, R334 -/
  | vaonGood
  /-- XTAL_START, R322 -/
  | xtalStart
  /-- MAIN_PG_RISE, R334 -/
  | mainPgRise (pairPos : Bool)
  /-- MAIN_PG_FALL, R328 -/
  | mainPgFall
  /-- WATCH_WAKE_SOURCE, R327 -/
  | watchWakeSource (source : Fin 5)
  /-- PLL_UNLOCK, R323 -/
  | pllUnlock (k : Fin 17)
  /-- DOMAIN_POWER_GOOD, R329 -/
  | domainPowerGood (n : Fin 477)
  /-- DOMAIN_POWER_FAIL, R331 -/
  | domainPowerFail (n : Fin 477)
  /-- DOMAIN_HOLD_WRITE, R330 -/
  | domainHoldWrite (m : Master) (i : Fin 15) (value : Word)
  /-- DOMAIN_BLOCK_WRITE, R330 -/
  | domainBlockWrite (m : Master) (i : Fin 15) (value : Word)
  /-- MODE_CHOICE_WINDOW, R332 -/
  | modeChoiceWindow
  /-- MODE_FORCE_WRITE, R334 -/
  | modeForceWrite (m : Master) (v : BitVec 4)
  /-- MAINT_ENTRY, R334 -/
  | maintEntry
  /-- ENVELOPE_LIMIT, R333 -/
  | envelopeLimit (samples : List (BitVec 16))
  /-- PWR_MEAS_READ, R343 -/
  | pwrMeasRead (m : Master)
  /-- SYS_RESET, R454 -/
  | sysReset (pairPos : Bool)
  /-- SOFTWARE_RESET, R338 -/
  | softwareReset (m : Master) (value : Word)
  /-- RIDGE_WATCHDOG_EXPIRE, R338 -/
  | ridgeWatchdogExpire
  /-- WDOG_KICK, R341 -/
  | wdogKick (m : Master)
  /-- UPTIME_WRAP, R343 -/
  | uptimeWrap
  /-- VBAND_CHANGE, R452 -/
  | vbandChange (band : Fin 3)
  /-- VCORE_UNDERVOLTAGE, R452 -/
  | vcoreUndervoltage
  /-- DEBUG_ATTACH, R329 -/
  | debugAttach (attach : Bool)
  /-- ROM_IMAGE_CHECK, R401 -/
  | romImageCheck (res0 res1 : BitVec 3) (partner : List Byte)
  /-- PEER_IMAGE_SERVE, R401 -/
  | peerImageServe
  /-- DRAM_TRAINING_DONE, R291 -/
  | dramTrainingDone (chUp : BitVec 8)
  /-- ROLE_SETTLE_WINDOW_END, R382 -/
  | roleSettleWindowEnd
  /-- POWER_POLICY_EVALUATION, R336 -/
  | powerPolicyEvaluation (loads : List (BitVec 7))
  /-- TASK_CREDIT_TICK, R345 -/
  | taskCreditTick
  /-- ACTUATOR_COMMAND_BOUNDARY, R347 -/
  | actuatorCommandBoundary (a : Fin 64) (waiting : Bool) (used : BitVec 32) (revs : BitVec 8)
  /-- URGENT_SLOT_END, R348 -/
  | urgentSlotEnd (a : Fin 64) (dur : BitVec 32)
  /-- FETCH_PAUSE, R349 -/
  | fetchPause (x : HPort)
  /-- TASK_UNIT_SCRUB, R344 -/
  | taskUnitScrub (a : Fin 64) (ok : Bool)
  /-- TASK_UNIT_CAL, R344 -/
  | taskUnitCal (a : Fin 64) (pass : BitVec 2) (gain dt wref rref : BitVec 16) (widths : List (BitVec 16)) (mon : BitVec 16)
  /-- TASK_UNIT_MOVE, R238 -/
  | taskUnitMove (p : Fin 32) (ok : Bool)
  /-- TASK_UNIT_DESTAGE, R237 -/
  | taskUnitDestage (p : Fin 32) (ok : Bool)
  /-- TASK_UNIT_WEAR, R344 -/
  | taskUnitWear (p : Fin 32)
  /-- TASK_UNIT_PATROL, R344 -/
  | taskUnitPatrol (errs : List MemErr)
  /-- TASK_UNIT_FLASH, R436 -/
  | taskUnitFlash (differ ce : Bool)
  /-- TASK_UNIT_TELEM, R344 -/
  | taskUnitTelem
  /-- TEMP_SAMPLE, R351 -/
  | tempSample (temps : List (BitVec 16))
  /-- SENSOR_TIMEOUT, R351 -/
  | sensorTimeout (source : Fin 93)
  /-- DIE_TEMP_SAMPLE, R353 -/
  | dieTempSample (temps : List (BitVec 16))
  /-- THERMAL_TRIP, R353 -/
  | thermalTrip
  /-- MECH_B5_UNLOAD, R353 -/
  | mechB5Unload (p : Fin 32)
  /-- CALIBRATION_ITEM_DONE, R358 -/
  | calibrationItemDone (a : Fin 64) (pass : Bool) (v1 v2 : BitVec 16) (widths : List (BitVec 16))
  /-- CALQ_WRITE, R355 -/
  | calqWrite (m : Master) (hi : Bool) (value : Word)
  /-- NOP, R367 -/
  | nop (q : SeqRef)
  /-- RET, R370 -/
  | ret (q : SeqRef)
  /-- DISP, R370 -/
  | disp (q : SeqRef)
  /-- HALTPT, R375 -/
  | haltpt (q : SeqRef)
  /-- DONE, R370 -/
  | done (q : SeqRef)
  /-- LDI, R367 -/
  | ldi (q : SeqRef)
  /-- LDH, R367 -/
  | ldh (q : SeqRef)
  /-- ALU_ADD, R367 -/
  | aluAdd (q : SeqRef)
  /-- ALU_SUB, R367 -/
  | aluSub (q : SeqRef)
  /-- ALU_AND, R367 -/
  | aluAnd (q : SeqRef)
  /-- ALU_OR, R367 -/
  | aluOr (q : SeqRef)
  /-- ALU_XOR, R367 -/
  | aluXor (q : SeqRef)
  /-- ALU_MOV, R367 -/
  | aluMov (q : SeqRef)
  /-- ALU_INC, R367 -/
  | aluInc (q : SeqRef)
  /-- ALU_DEC, R367 -/
  | aluDec (q : SeqRef)
  /-- ALU_SHL, R367 -/
  | aluShl (q : SeqRef)
  /-- ALU_SHR, R367 -/
  | aluShr (q : SeqRef)
  /-- ALU_CMP, R367 -/
  | aluCmp (q : SeqRef)
  /-- ALU_TST, R367 -/
  | aluTst (q : SeqRef)
  /-- ALU_ADDC, R367 -/
  | aluAddc (q : SeqRef)
  /-- ALU_SUBC, R367 -/
  | aluSubc (q : SeqRef)
  /-- ALU_NOT, R367 -/
  | aluNot (q : SeqRef)
  /-- ALU_CLR, R367 -/
  | aluClr (q : SeqRef)
  /-- BRC, R368 -/
  | brc (q : SeqRef)
  /-- BRN, R368 -/
  | brn (q : SeqRef)
  /-- JMP, R370 -/
  | jmp (q : SeqRef)
  /-- CALL, R370 -/
  | call (q : SeqRef)
  /-- DLY, R369 -/
  | dly (q : SeqRef)
  /-- WAIT, R367 -/
  | wait (z : Fin 8)
  /-- WAIT_TIMEOUT, R367 -/
  | waitTimeout (z : Fin 8) (t : Fin 64)
  /-- MEM_LOAD, R367 -/
  | memLoad (q : SeqRef)
  /-- MEM_STORE, R367 -/
  | memStore (q : SeqRef)
  /-- SEND, R366 -/
  | send (z : Fin 8) (work : List SecWork)
  /-- ILLEGAL_MICROWORD, R376 -/
  | illegalMicroword (q : SeqRef) (parity : Bool)
  /-- PORT_LANES, R380 -/
  | portLanes (f : Fin 64)
  /-- PORT_WGATE, R380 -/
  | portWgate (f : Fin 64)
  /-- PORT_RDWIN, R380 -/
  | portRdwin (f : Fin 64)
  /-- PORT_WFLIT, R380 -/
  | portWflit (f : Fin 64)
  /-- PORT_PRECOMP, R380 -/
  | portPrecomp (f : Fin 64)
  /-- PORT_CNT0, R380 -/
  | portCnt0 (f : Fin 64)
  /-- PORT_CNT1, R380 -/
  | portCnt1 (f : Fin 64)
  /-- PORT_STATUS, R380 -/
  | portStatus (f : Fin 64)
  /-- PORT_RUNG, R380 -/
  | portRung (f : Fin 64)
  /-- PORT_ADMIT, R380 -/
  | portAdmit (z : Fin 8)
  /-- PORT_XFER, R380 -/
  | portXfer (z : Fin 8)
  /-- PORT_MIRROR, R380 -/
  | portMirror (z : Fin 8)
  /-- PORT_COMMIT, R380 -/
  | portCommit (z : Fin 8)
  /-- PORT_JOURNAL, R380 -/
  | portJournal (z : Fin 8)
  /-- PORT_ENCODE, R380 -/
  | portEncode (z : Fin 8) (t : Fin 4)
  /-- PORT_TIMER, R380 -/
  | portTimer (z : Fin 8)
  /-- OUT_UNLISTED_PORT, R380 -/
  | outUnlistedPort (q : SeqRef)
  /-- IN_SECT, R380 -/
  | inSect (f : Fin 64)
  /-- IN_TRACK, R380 -/
  | inTrack (f : Fin 64)
  /-- IN_RES, R380 -/
  | inRes (f : Fin 64)
  /-- IN_SYNC, R380 -/
  | inSync (f : Fin 64)
  /-- IN_INH, R380 -/
  | inInh (f : Fin 64)
  /-- IN_WEDGE, R380 -/
  | inWedge (f : Fin 64)
  /-- IN_CMD, R380 -/
  | inCmd (z : Fin 8)
  /-- IN_OPC, R380 -/
  | inOpc (z : Fin 8)
  /-- IN_SLBA_LO, R380 -/
  | inSlbaLo (z : Fin 8)
  /-- IN_SLBA_HI, R380 -/
  | inSlbaHi (z : Fin 8)
  /-- IN_NLB, R380 -/
  | inNlb (z : Fin 8)
  /-- IN_UNLISTED_PORT, R380 -/
  | inUnlistedPort (q : SeqRef)
  /-- ZONE_FLOW_START, R366 -/
  | zoneFlowStart (x : HPort) (sqid cid : BitVec 16)
  /-- F_HALT_WRITE, R375 -/
  | fHaltWrite (m : Master) (hi : Bool) (value : Word)
  /-- Z_HALT_WRITE, R375 -/
  | zHaltWrite (m : Master) (v : BitVec 8)
  /-- ZMAP_WRITE, R366 -/
  | zmapWrite (m : Master) (v : BitVec 24)
  /-- SEQUENCER_RESTART, R377 -/
  | sequencerRestart (m : Master) (q : SeqRef)
  /-- PATCH_RAM_WRITE, R375 -/
  | patchRamWrite (m : Master) (zone : Bool) (w : BitVec 11) (value : Word)
  /-- MATCH_REGISTER_WRITE, R375 -/
  | matchRegisterWrite (m : Master) (zone : Bool) (i : Fin 32) (value : Word)
  /-- PEER_HEARTBEAT_SEND, R383 -/
  | peerHeartbeatSend
  /-- PEER_HEARTBEAT_RECEIVE, R383 -/
  | peerHeartbeatReceive (role : BitVec 4) (health : BitVec 8)
  /-- RESYNC_DONE, R390 -/
  | resyncDone
  /-- PARTNER_JUDGEMENT, R384 -/
  | partnerJudgement
  /-- TAKEOVER_ACQUIRE_RETRY, R387 -/
  | takeoverAcquireRetry
  /-- OWNERSHIP_CONFLICT, R386 -/
  | ownershipConflict
  /-- MIRROR_STREAM_RECEIVE, R389 -/
  | mirrorStreamReceive (f : MirrorFrame)
  /-- STANDBY_SELFTEST_CYCLE, R392 -/
  | standbySelftestCycle (failed : List (Fin 477))
  /-- HANDOVER_START, R393 -/
  | handoverStart (m : Master)
  /-- HANDOVER_QUIET_DONE, R393 -/
  | handoverQuietDone
  /-- HANDOVER_SYNC_DONE, R393 -/
  | handoverSyncDone
  /-- LOOP_RECORD_RECEIVE, R393 -/
  | loopRecordReceive (slots : List LoopSlot) (spindles : List (BitVec 4 × BitVec 2))
  /-- HANDOVER_DONE, R393 -/
  | handoverDone (us : BitVec 24)
  /-- RELAY_CHUNK, R400 -/
  | relayChunk (f : RelayFrame)
  /-- RELAY_END, R400 -/
  | relayEnd (f : RelayFrame)
  /-- RELAY_STATUS, R400 -/
  | relayStatus (f : RelayFrame)
  /-- FW_KEY_REVOKE, R406 -/
  | fwKeyRevoke (m : Master) (slots : BitVec 2)
  /-- MBX_DATA_WRITE, R411 -/
  | mbxDataWrite (m : Master) (c : Fin 64) (w : Fin 16) (v : Word)
  /-- MBX_DB_SET, R410 -/
  | mbxDbSet (m : Master) (c : Fin 64) (bits : Word)
  /-- MBX_DB_CLEAR, R410 -/
  | mbxDbClear (m : Master) (c : Fin 64) (bits : Word)
  /-- MBX_BIND_WRITE, R408 -/
  | mbxBindWrite (m : Master) (c : Fin 64) (value : Word)
  /-- MBX_LOCK, R408 -/
  | mbxLock (m : Master)
  /-- MBX_PARTY_RST, R413 -/
  | mbxPartyRst (m : Master)
  /-- SMBUS_CLOCK_LOW_RESET, R413 -/
  | smbusClockLowReset
  /-- MCTP_MBX_READ, R407 -/
  | mctpMbxRead (msg : List Byte)
  /-- MCTP_MBX_WRITE, R407 -/
  | mctpMbxWrite (msg : List Byte)
  /-- MBX_QCS_READ, R415 -/
  | mbxQcsRead (c : Fin 64)
  /-- MBX_QCS_WRITE, R415 -/
  | mbxQcsWrite (c : Fin 64)
  /-- MBX_GET_FEATURE, R415 -/
  | mbxGetFeature (c : Fin 64)
  /-- MBX_SET_FEATURE, R415 -/
  | mbxSetFeature (c : Fin 64)
  /-- MBX_LOG_READ, R415 -/
  | mbxLogRead (c : Fin 64)
  /-- MBX_INVALID_COMMAND, R415 -/
  | mbxInvalidCommand (c : Fin 64)
  /-- EVENT_SOURCE_RISE, R416 -/
  | eventSourceRise (src : Fin 640)
  /-- EVT_PEND_CLEAR, R416 -/
  | evtPendClear (m : Master) (n : Fin 20) (mask : Word)
  /-- SMBUS_ALERT_RESPONSE, R417 -/
  | smbusAlertResponse
  /-- TAIL_FREEZE_WRITE, R421 -/
  | tailFreezeWrite (m : Master) (r : Fin 8) (v : Bool)
  /-- TAIL_CLEAR, R421 -/
  | tailClear (m : Master) (r : Fin 8) (freeze : Bool)
  /-- FLASH_PROGRAM, R431 -/
  | flashProgram (m : Master) (value : Word) (bad : Bool)
  /-- FLASH_ERASE, R433 -/
  | flashErase (m : Master) (value : Word)
  /-- FLASH_PAGE_READ, R429 -/
  | flashPageRead (m : Master) (value : Word) (ce ue weak : BitVec 16)
  /-- FLASH_PROGRAM_PULSE_DONE, R431 -/
  | flashProgramPulseDone (verified : Bool)
  /-- FLASH_ERASE_PULSE_DONE, R433 -/
  | flashErasePulseDone (verified : Bool)
  /-- CQ_HEAD_DOORBELL_WRITE, R265 -/
  | cqHeadDoorbellWrite (x : HPort) (qid head : BitVec 16)
  /-- SECTOR_START, R380 -/
  | sectorStart (a : Fin 64) (pos : BitVec 16)
  /-- VAON_LOSS, R454 -/
  | vaonLoss
  /-- PLL_LOCK, R324 -/
  | pllLock (k : Fin 17)
  /-- BRIDLE_CLOCK_STOP, R322 -/
  | bridleClockStop
  /-- THREAD_TIMER_EXPIRY, R380 -/
  | threadTimerExpiry (z : Fin 8) (t : Fin 64)
  /-- KEEP_ALIVE_TIMER_EXPIRY, R260 -/
  | keepAliveTimerExpiry (x : HPort)
  /-- D3HOT_EXIT, R278 -/
  | d3hotExit (x : HPort)
  deriving DecidableEq, Repr

end Sys2Proof
end

