-- ==== Sys2Proof/Decode.lean ====
section
/-! DEFINITION. Words of the opcode table: its rows give their commands no bits (every `fields` is empty), so no word spells a
command. -/
namespace Sys2Proof

/-- The command that a word of the opcode table spells: none, since no row gives bits. -/
def decodeTableWord (nbits w : Nat) : Option Instr :=
  match nbits, w with
  | _, _ => none

end Sys2Proof
end

