-- ==== Sys2Proof/Config.lean ====
section
/-! DEFINITION. What an implementation of the device fixes and the specification does not state: free values, the
contents of the two microcode ROMs, and the outcome of the cryptographic checks. Nothing here has a body. -/
namespace Sys2Proof.Config
open Sys2Proof

/-- The free values: the n-th value the model draws where the specification states none (log entry 6). -/
opaque freeNat : Nat → Nat

/-- Word `w` of formatter microcode ROM (log entry 7). -/
opaque fRom : Nat → Word

/-- Word `w` of zone sequencer microcode ROM (log entry 7). -/
opaque zRom : Nat → Word

/-- The public verification key of a key slot, a point of curve P-256 as x and y: the device key ladder holds it (log
entry 7). -/
opaque pubKey : Nat → Nat × Nat

/-- The family root K_FAM of the key ladder, 256 bits, and the fused SHA-256 of the public key of a firmware signature slot (R397, log
entry 7). -/
opaque kFam : Nat
opaque fwKeyHash : Nat → Nat

/-- The stored tables of the mechanism with a SERIAL (log entry 8). -/
opaque stored : List Nat → StoredTables

/-- The value the stored tables of the mechanism with a SERIAL give the register field at an address, by its lowest bit
(log entry 8). -/
opaque storedVal : List Nat → Nat → Nat → Nat

/-- The 64 bytes of the identity block that the front-end on a port shows on one of its sides (log entry 8). -/
opaque feIdent : Nat → Nat → List Nat

/-- Microcode subtraction leaves C = 1 on a borrow; otherwise C = 1 when there is none (log entry 27). -/
opaque borrowC : Bool

/-- The entry address of a zone flow by the command's opcode in zone ROM (R370, log entry 7). -/
opaque zEntry : Nat → Nat

/-- The coefficients of the interpolating filter, by phase of 64 and tap of 8, in 1/256 (log entry 44). -/
opaque interpTap : Nat → Nat → Int

/-- The low-pass reading of an equaliser's last outputs that the defect detector calls the baseline (log entry 44). -/
opaque lowPass : List Int → Int

/-- The amplitude in sample units that stands for 1.0 of a target, the phase detector's unit in 2⁻²⁰ samples, and the cost
that one LLR step stands for (log entry 44). -/
opaque tgtUnit : Int
opaque pdUnit : Int
opaque llrUnit : Int

/-- The calibrated envelope of a head of the mechanism with a SERIAL (log entry 44). -/
opaque envelope : List Nat → Nat → Nat

/-- The calibrated burst amplitude of a head of the mechanism with a SERIAL (R158, log entry 47). -/
opaque burstAmp : List Nat → Nat → Nat

/-- The LDPC codes (log entry 44): the bits that check row `i` of a code takes in, and parity bit `i` of information
bits. -/
opaque ldpcRow : Nat → Nat → List Nat
opaque ldpcParity : Nat → List Nat → Nat → Nat

end Sys2Proof.Config
end

