-- ==== Sys2Proof/Machine/Bits.lean ====
section
/-! DEFINITION. Bit fields of words, signed readings, sparse tables and small list operations that every block uses. -/
namespace Sys2Proof.Machine
open Sys2Proof

/-- The value of field `f` of `w`. -/
def getF (w : Word) (f : Fld) : Nat := w.toNat / 2 ^ f.lo % 2 ^ f.width

/-- `w` with field `f` set to `v` (its low bits). -/
def setF (w : Word) (f : Fld) (v : Nat) : Word :=
  BitVec.ofNat 32 (w.toNat - getF w f * 2 ^ f.lo + v % 2 ^ f.width * 2 ^ f.lo)

/-- Bit `i` of `w`. -/
def bitOf (w : Word) (i : Nat) : Bool := w.toNat / 2 ^ i % 2 = 1

/-- `w` with bit `i` set to `b`. -/
def setBit (w : Word) (i : Nat) (b : Bool) : Word := setF w ⟨i, 1⟩ (if b then 1 else 0)

/-- A Boolean as a bit. -/
def b2n (b : Bool) : Nat := if b then 1 else 0

/-- `n`, a number of `k` bits, read as two's complement. -/
def sgn (k n : Nat) : Int := if n % 2 ^ k < 2 ^ (k - 1) then (n % 2 ^ k : Nat) else (n % 2 ^ k : Nat) - (2 ^ k : Nat)

/-- An integer as `k` bits of two's complement. -/
def unsgn (k : Nat) (i : Int) : Nat := (i % (2 ^ k : Nat)).toNat

/-- `i` held between `lo` and `hi`. -/
def clampI (lo hi i : Int) : Int := if i < lo then lo else if hi < i then hi else i

/-- Saturating addition of `d` to `v` at the largest value of `k` bits. -/
def satAdd (k v d : Nat) : Nat := min (v + d) (2 ^ k - 1)

/-- Absolute value of an integer as a number. -/
def absI (i : Int) : Nat := i.natAbs

/-- The value at key `k` of a table, `d` where the table lists none. -/
def tabGet {α : Type} (d : α) : Tab α → Nat → α
  | [], _ => d
  | (j, v) :: t, k => if j = k then v else tabGet d t k

/-- The table with `v` at key `k`, keys kept rising. -/
def tabPut {α : Type} : Tab α → Nat → α → Tab α
  | [], k, v => [(k, v)]
  | (j, w) :: t, k, v => if k < j then (k, v) :: (j, w) :: t else if k = j then (k, v) :: t else (j, w) :: tabPut t k v

/-- The table without key `k`. -/
def tabDel {α : Type} : Tab α → Nat → Tab α
  | [], _ => []
  | (j, v) :: t, k => if j = k then tabDel t k else (j, v) :: tabDel t k

/-- The table with the value at key `k` changed by `f`; `d` stands where the table lists none. -/
def tabUpd {α : Type} (d : α) (t : Tab α) (k : Nat) (f : α → α) : Tab α := tabPut t k (f (tabGet d t k))

/-- The keys of a table are strictly rising. -/
def tabSorted {α : Type} : Tab α → Bool
  | [] => true
  | [_] => true
  | (j, _) :: (k, v) :: t => decide (j < k) && tabSorted ((k, v) :: t)

/-- The list with its entry `i` changed by `f`. -/
def updAt {α : Type} (l : List α) (i : Nat) (f : α → α) : List α := l.modify i f

/-- The numbers `a`, `a + 1`, …, `n` of them. -/
def rangeFrom (a : Nat) : Nat → List Nat
  | 0 => []
  | n + 1 => a :: rangeFrom (a + 1) n

/-- The sum of a list of numbers. -/
def sumN (l : List Nat) : Nat := l.foldl (· + ·) 0

/-- The largest of a list of numbers, 0 for none. -/
def maxN (l : List Nat) : Nat := l.foldl max 0

/-- Byte `i` of a word, byte 0 in bits 7:0 (R9). -/
def byteOf (w : Word) (i : Nat) : Nat := w.toNat / 256 ^ i % 256

/-- The little-endian number that a list of bytes spells. -/
def leNat : List Nat → Nat
  | [] => 0
  | b :: bs => b % 256 + 256 * leNat bs

/-- `n` bytes of the number `v`, little-endian. -/
def leBytes : Nat → Nat → List Nat
  | 0, _ => []
  | n + 1, v => v % 256 :: leBytes n (v / 256)

/-- The smallest number whose multiple of `d` reaches `n`; 0 when `d` is 0. -/
def ceilDiv (n d : Nat) : Nat := if d = 0 then 0 else (n + d - 1) / d

end Sys2Proof.Machine
end

