-- ==== Sys2Proof/Machine/RegMap.lean ====
section
/-! DEFINITION. The register map of the Quinryn Control Space (R42, R445): one address function for every
register of Table 20-2 and one named bit field for every named field of the register tables. -/
namespace Sys2Proof.Machine
open Sys2Proof

/-- BLOCK_ID of the block (instance) that begins at `base` (R18). -/
def blockId (base : Nat) : Nat := base
/-- BLOCK_XCLAIM of the block (instance) that begins at `base` (R18). -/
def xclaim (base : Nat) : Nat := base + 4
def XCLAIM_HOLDER : Fld := ⟨8, 8⟩
def XCLAIM_EXPERT : Fld := ⟨0, 1⟩
/-- The SAT bit of a 31-bit saturating counter register. -/
def fSAT : Fld := ⟨31, 1⟩
/-- The count of a 31-bit saturating counter register. -/
def fCNT : Fld := ⟨0, 31⟩
/-- Base of TRS (Table 1-15). -/
def baseTRS : Nat := 0x0000000
/-- Base of PWR (Table 1-15). -/
def basePWR : Nat := 0x0100000
/-- Base of BAL (Table 1-15). -/
def baseBAL : Nat := 0x0200000
/-- Base of EVT (Table 1-15). -/
def baseEVT : Nat := 0x0300000
/-- Base of TAIL (Table 1-15). -/
def baseTAIL : Nat := 0x0400000
/-- Base of MBX (Table 1-15). -/
def baseMBX : Nat := 0x0500000
/-- Base of FLS (Table 1-15). -/
def baseFLS : Nat := 0x0600000
/-- Base of THM (Table 1-15). -/
def baseTHM : Nat := 0x0700000
/-- Base of BGW (Table 1-15). -/
def baseBGW : Nat := 0x0800000
/-- Base of PRT (Table 1-15). -/
def basePRT : Nat := 0x0900000
/-- Base of HIF (Table 1-15). -/
def baseHIF : Nat := 0x0A00000
/-- Base of BUF (Table 1-15). -/
def baseBUF : Nat := 0x0C00000
/-- Base of CCH (Table 1-15). -/
def baseCCH : Nat := 0x0E00000
/-- Base of MEP (Table 1-15). -/
def baseMEP : Nat := 0x0F00000
/-- Base of instance p of TTH (Table 1-15). -/
def baseTTH (p : Nat) : Nat := 0x1000000 + 0x10000 * p
/-- Base of instance a of ACT (Table 1-15). -/
def baseACT (a : Nat) : Nat := 0x1400000 + 0x10000 * a
/-- Base of instance c of LDC (Table 1-15). -/
def baseLDC (c : Nat) : Nat := 0x140C000 + 0x40000 * c
/-- Base of instance e of BRD (Table 1-15). -/
def baseBRD (e : Nat) : Nat := 0x1800000 + 0x20000 * e
/-- Base of instance p of SPN (Table 1-15). -/
def baseSPN (p : Nat) : Nat := 0x1A00000 + 0x8000 * p
/-- Base of ZMP (Table 1-15). -/
def baseZMP : Nat := 0x1C00000
/-- Base of instance t of THT (Table 1-15). -/
def baseTHT (t : Nat) : Nat := 0x1E00000 + 0x80000 * t
/-- Base of MCS (Table 1-15). -/
def baseMCS : Nat := 0x2000000
/-- TRS_UEVT_SUM (Table 1-10). -/
def TRS_UEVT_SUM (n : Nat) : Nat := 0x007F000 + 0x4 * n
/-- TRS_UTAB_GEN (Table 1-10). -/
def TRS_UTAB_GEN : Nat := 0x007F200
/-- TRS_LD_CTRL (Table 2-6). -/
def TRS_LD_CTRL : Nat := 0x0000010
def TRS_LD_CTRL_CMD : Fld := ⟨0, 3⟩
/-- TRS_LD_LEN (Table 2-6). -/
def TRS_LD_LEN : Nat := 0x0000014
def TRS_LD_LEN_LEN : Fld := ⟨0, 19⟩
/-- TRS_LD_STAT (Table 2-6). -/
def TRS_LD_STAT : Nat := 0x0000018
def TRS_LD_STAT_BUSY : Fld := ⟨31, 1⟩
def TRS_LD_STAT_DONE : Fld := ⟨30, 1⟩
def TRS_LD_STAT_RESULT : Fld := ⟨16, 8⟩
def TRS_LD_STAT_WHERE : Fld := ⟨0, 16⟩
/-- TRS_RUN_SEQ (Table 2-6). -/
def TRS_RUN_SEQ : Nat := 0x000001C
/-- TRS_SEQ_FLOOR (Table 2-6). -/
def TRS_SEQ_FLOOR : Nat := 0x0000020
/-- TRS_KEY_STAT (Table 2-6). -/
def TRS_KEY_STAT : Nat := 0x0000024
def TRS_KEY_STAT_REVOKE : Fld := ⟨8, 4⟩
def TRS_KEY_STAT_VALID : Fld := ⟨0, 4⟩
/-- TRS_FENCE (Table 2-6). -/
def TRS_FENCE : Nat := 0x0000028
def TRS_FENCE_FENCE : Fld := ⟨31, 1⟩
def TRS_FENCE_ROOT : Fld := ⟨0, 12⟩
/-- TRS_QSTAT (Table 2-6). -/
def TRS_QSTAT : Nat := 0x000002C
def TRS_QSTAT_QUIESCED : Fld := ⟨31, 1⟩
def TRS_QSTAT_BLOCKER : Fld := ⟨28, 3⟩
def TRS_QSTAT_UNIT : Fld := ⟨0, 12⟩
/-- TRS_UNBOUND (Table 2-6). -/
def TRS_UNBOUND : Nat := 0x0000030
/-- TRS_BIND_WHY (Table 2-6). -/
def TRS_BIND_WHY (p : Nat) : Nat := 0x0000040 + 0x4 * p
def TRS_BIND_WHY_WHY : Fld := ⟨0, 4⟩
/-- TTH_CTRL (Table 3-9). -/
def TTH_CTRL (p : Nat) : Nat := 0x1000010 + 0x10000 * p
def TTH_CTRL_CNT_CLR : Fld := ⟨9, 1⟩
def TTH_CTRL_SB_ONLY : Fld := ⟨8, 1⟩
def TTH_CTRL_HB_EN : Fld := ⟨7, 1⟩
def TTH_CTRL_RETRAIN : Fld := ⟨6, 1⟩
def TTH_CTRL_DN_EN : Fld := ⟨5, 1⟩
def TTH_CTRL_UP_EN : Fld := ⟨1, 4⟩
def TTH_CTRL_PORT_EN : Fld := ⟨0, 1⟩
/-- TTH_LINK_STAT (Table 3-9). -/
def TTH_LINK_STAT (p : Nat) : Nat := 0x1000014 + 0x10000 * p
def TTH_LINK_STAT_STATE : Fld := ⟨28, 4⟩
def TTH_LINK_STAT_TRAINED : Fld := ⟨27, 1⟩
def TTH_LINK_STAT_PRSNT : Fld := ⟨26, 1⟩
def TTH_LINK_STAT_UP_GOOD : Fld := ⟨20, 4⟩
def TTH_LINK_STAT_DN_GOOD : Fld := ⟨19, 1⟩
def TTH_LINK_STAT_HL_MAX : Fld := ⟨8, 8⟩
def TTH_LINK_STAT_FAULT_WHY : Fld := ⟨4, 4⟩
def TTH_LINK_STAT_TRIES : Fld := ⟨0, 4⟩
/-- TTH_EVT (Table 3-9). -/
def TTH_EVT (p : Nat) : Nat := 0x1000018 + 0x10000 * p
def TTH_EVT_PCHG : Nat := 0
def TTH_EVT_STATE : Nat := 1
def TTH_EVT_LANE_LOSS : Nat := 2
def TTH_EVT_CREDIT_TO : Nat := 3
def TTH_EVT_FEC_UNC : Nat := 4
def TTH_EVT_CRC : Nat := 5
def TTH_EVT_TOKEN : Nat := 6
def TTH_EVT_WINH_FAULT : Nat := 7
def TTH_EVT_LOSS : Nat := 8
def TTH_EVT_ATTN : Nat := 9
def TTH_EVT_SAT : Nat := 10
/-- TTH_EVT_EN (Table 3-9). -/
def TTH_EVT_EN (p : Nat) : Nat := 0x100001C + 0x10000 * p
/-- TTH_CREDIT (Table 3-9). -/
def TTH_CREDIT (p : Nat) : Nat := 0x1000020 + 0x10000 * p
def TTH_CREDIT_LIMIT : Fld := ⟨8, 8⟩
def TTH_CREDIT_AVAIL : Fld := ⟨0, 8⟩
/-- TTH_HB (Table 3-9). -/
def TTH_HB (p : Nat) : Nat := 0x1000024 + 0x10000 * p
def TTH_HB_WDOG_US : Fld := ⟨16, 16⟩
def TTH_HB_HB_PER : Fld := ⟨0, 16⟩
/-- TTH_TOKEN (Table 3-9). -/
def TTH_TOKEN (p : Nat) : Nat := 0x1000028 + 0x10000 * p
def TTH_TOKEN_OWNER : Fld := ⟨22, 2⟩
def TTH_TOKEN_MINE : Fld := ⟨21, 1⟩
def TTH_TOKEN_FE_PORT : Fld := ⟨20, 1⟩
def TTH_TOKEN_CMD : Fld := ⟨18, 2⟩
def TTH_TOKEN_RESULT : Fld := ⟨16, 2⟩
def TTH_TOKEN_EPOCH : Fld := ⟨0, 16⟩
/-- TTH_WINH (Table 3-9). -/
def TTH_WINH (p : Nat) : Nat := 0x100002C + 0x10000 * p
def TTH_WINH_FORCE : Fld := ⟨8, 8⟩
def TTH_WINH_MASK : Fld := ⟨0, 8⟩
/-- TTH_TSB_CMD (Table 3-9). -/
def TTH_TSB_CMD (p : Nat) : Nat := 0x1000030 + 0x10000 * p
def TTH_TSB_CMD_GO : Fld := ⟨31, 1⟩
def TTH_TSB_CMD_CMD : Fld := ⟨24, 4⟩
def TTH_TSB_CMD_LEN : Fld := ⟨16, 8⟩
def TTH_TSB_CMD_ADDR : Fld := ⟨0, 16⟩
/-- TTH_TSB_STAT (Table 3-9). -/
def TTH_TSB_STAT (p : Nat) : Nat := 0x1000034 + 0x10000 * p
def TTH_TSB_STAT_RETRIES : Fld := ⟨8, 8⟩
def TTH_TSB_STAT_STATUS : Fld := ⟨0, 8⟩
/-- TTH_SIDEBAND (Table 3-9). -/
def TTH_SIDEBAND (p : Nat) : Nat := 0x1000038 + 0x10000 * p
def TTH_SIDEBAND_ATTN : Fld := ⟨2, 1⟩
def TTH_SIDEBAND_PCHG : Fld := ⟨1, 1⟩
def TTH_SIDEBAND_PRSNT : Fld := ⟨0, 1⟩
/-- TTH_WIT_PEER (Table 3-9). -/
def TTH_WIT_PEER (p : Nat) : Nat := 0x100003C + 0x10000 * p
/-- TTH_WIT_AGE (Table 3-9). -/
def TTH_WIT_AGE (p : Nat) : Nat := 0x1000040 + 0x10000 * p
def TTH_WIT_AGE_AGE : Fld := ⟨0, 16⟩
/-- TTH_FEC_CORR (Table 3-9). -/
def TTH_FEC_CORR (p : Nat) (i : Nat) : Nat := 0x1000050 + 0x10000 * p + 0x4 * i
/-- TTH_FEC_UNC (Table 3-9). -/
def TTH_FEC_UNC (p : Nat) : Nat := 0x1000064 + 0x10000 * p
/-- TTH_CRC_ERR (Table 3-9). -/
def TTH_CRC_ERR (p : Nat) : Nat := 0x1000068 + 0x10000 * p
/-- TTH_RETRAINS (Table 3-9). -/
def TTH_RETRAINS (p : Nat) : Nat := 0x100006C + 0x10000 * p
/-- TTH_LATE (Table 3-9). -/
def TTH_LATE (p : Nat) : Nat := 0x1000070 + 0x10000 * p
/-- TTH_TSB_DATA (Table 3-9). -/
def TTH_TSB_DATA (p : Nat) (n : Nat) : Nat := 0x1000100 + 0x10000 * p + 0x4 * n
/-- TTH_IDENT (Table 3-9). -/
def TTH_IDENT (p : Nat) (n : Nat) : Nat := 0x1000200 + 0x10000 * p + 0x4 * n
/-- ACT_DET_PWR (Table 4-4). -/
def ACT_DET_PWR (a : Nat) : Nat := 0x1400800 + 0x10000 * a
def ACT_DET_PWR_IDLE_US : Fld := ⟨16, 8⟩
def ACT_DET_PWR_READY : Fld := ⟨8, 4⟩
def ACT_DET_PWR_AUTO : Fld := ⟨4, 4⟩
def ACT_DET_PWR_ON : Fld := ⟨0, 4⟩
/-- ACT_DET_CFG (Table 4-4). -/
def ACT_DET_CFG (a : Nat) : Nat := 0x1400804 + 0x10000 * a
def ACT_DET_CFG_PIN_AUTO : Fld := ⟨24, 1⟩
def ACT_DET_CFG_ERAS_MAX : Fld := ⟨16, 8⟩
def ACT_DET_CFG_PIN_TO_US : Fld := ⟨0, 16⟩
/-- ACT_DET_EVT (Table 4-4). -/
def ACT_DET_EVT (a : Nat) : Nat := 0x1400808 + 0x10000 * a
def ACT_DET_EVT_FIRST_FAIL : Nat := 0
def ACT_DET_EVT_ERAS_OVF : Nat := 1
def ACT_DET_EVT_NO_SLOT : Nat := 2
def ACT_DET_EVT_MISS : Nat := 3
def ACT_DET_EVT_PIN_EXPIRE : Nat := 4
def ACT_DET_EVT_TA : Nat := 5
def ACT_DET_EVT_SAT : Nat := 6
/-- ACT_DET_EVT_EN (Table 4-4). -/
def ACT_DET_EVT_EN (a : Nat) : Nat := 0x140080C + 0x10000 * a
/-- ACT_TGT_LO (Table 4-4). -/
def ACT_TGT_LO (a : Nat) (t : Nat) : Nat := 0x1400840 + 0x10000 * a + 0x8 * t
/-- ACT_TGT_HI (Table 4-4). -/
def ACT_TGT_HI (a : Nat) (t : Nat) : Nat := 0x1400844 + 0x10000 * a + 0x8 * t
def ACT_TGT_HI_C4 : Fld := ⟨0, 8⟩
/-- ACT_DL_CTRL (Table 4-5). -/
def ACT_DL_CTRL (a : Nat) (l : Nat) : Nat := 0x1401000 + 0x10000 * a + 0x400 * l
def ACT_DL_CTRL_HEAD : Fld := ⟨24, 4⟩
def ACT_DL_CTRL_BAND : Fld := ⟨19, 5⟩
def ACT_DL_CTRL_TGT : Fld := ⟨16, 3⟩
def ACT_DL_CTRL_MU : Fld := ⟨12, 4⟩
def ACT_DL_CTRL_ADAPT : Fld := ⟨11, 1⟩
def ACT_DL_CTRL_SAVE : Fld := ⟨10, 1⟩
def ACT_DL_CTRL_DEF_EN : Fld := ⟨7, 3⟩
/-- ACT_DL_RATIO (Table 4-5). -/
def ACT_DL_RATIO (a : Nat) (l : Nat) : Nat := 0x1401004 + 0x10000 * a + 0x400 * l
def ACT_DL_RATIO_RATIO : Fld := ⟨0, 24⟩
/-- ACT_DL_TLOOP (Table 4-5). -/
def ACT_DL_TLOOP (a : Nat) (l : Nat) : Nat := 0x1401008 + 0x10000 * a + 0x400 * l
def ACT_DL_TLOOP_FOFS : Fld := ⟨16, 16⟩
def ACT_DL_TLOOP_KP : Fld := ⟨12, 4⟩
def ACT_DL_TLOOP_KI : Fld := ⟨8, 4⟩
/-- ACT_DL_DEF_THR (Table 4-5). -/
def ACT_DL_DEF_THR (a : Nat) (l : Nat) : Nat := 0x140100C + 0x10000 * a + 0x400 * l
def ACT_DL_DEF_THR_TA_THR : Fld := ⟨24, 8⟩
def ACT_DL_DEF_THR_DROP_THR : Fld := ⟨16, 8⟩
def ACT_DL_DEF_THR_BASE_THR : Fld := ⟨8, 8⟩
def ACT_DL_DEF_THR_GUARD : Fld := ⟨0, 8⟩
/-- ACT_DL_SM_CFG (Table 4-5). -/
def ACT_DL_SM_CFG (a : Nat) (l : Nat) : Nat := 0x1401010 + 0x10000 * a + 0x400 * l
def ACT_DL_SM_CFG_WIN2 : Fld := ⟨16, 8⟩
def ACT_DL_SM_CFG_TOL_RLX : Fld := ⟨8, 4⟩
def ACT_DL_SM_CFG_TOL : Fld := ⟨0, 4⟩
/-- ACT_DL_SM_STAT (Table 4-5). -/
def ACT_DL_SM_STAT (a : Nat) (l : Nat) : Nat := 0x1401014 + 0x10000 * a + 0x400 * l
def ACT_DL_SM_STAT_SM1_HIT : Fld := ⟨31, 1⟩
def ACT_DL_SM_STAT_SM2_HIT : Fld := ⟨30, 1⟩
def ACT_DL_SM_STAT_SM2_DELTA : Fld := ⟨16, 8⟩
def ACT_DL_SM_STAT_SM1_MIS : Fld := ⟨12, 4⟩
def ACT_DL_SM_STAT_SM2_MIS : Fld := ⟨8, 4⟩
/-- ACT_DL_STAT (Table 4-5). -/
def ACT_DL_STAT (a : Nat) (l : Nat) : Nat := 0x1401018 + 0x10000 * a + 0x400 * l
def ACT_DL_STAT_STATE : Fld := ⟨28, 4⟩
def ACT_DL_STAT_SLOTS : Fld := ⟨24, 4⟩
def ACT_DL_STAT_PINNED : Fld := ⟨16, 8⟩
def ACT_DL_STAT_MSE : Fld := ⟨0, 16⟩
/-- ACT_DL_CNT (Table 4-5). -/
def ACT_DL_CNT (a : Nat) (l : Nat) (i : Nat) : Nat := 0x1401040 + 0x10000 * a + 0x400 * l + 0x4 * i
/-- ACT_DL_TAP (Table 4-5). -/
def ACT_DL_TAP (a : Nat) (l : Nat) (n : Nat) : Nat := 0x1401080 + 0x10000 * a + 0x400 * l + 0x4 * n
def ACT_DL_TAP_VALUE : Fld := ⟨0, 10⟩
/-- ACT_DL_RETRY (Table 4-6). -/
def ACT_DL_RETRY (a : Nat) (l : Nat) : Nat := 0x1401020 + 0x10000 * a + 0x400 * l
def ACT_DL_RETRY_GO : Fld := ⟨31, 1⟩
def ACT_DL_RETRY_PIN : Fld := ⟨24, 1⟩
def ACT_DL_RETRY_OFFSET : Fld := ⟨20, 4⟩
def ACT_DL_RETRY_ANCHOR : Fld := ⟨19, 1⟩
def ACT_DL_RETRY_TGT : Fld := ⟨16, 3⟩
def ACT_DL_RETRY_ERAS_XTRA : Fld := ⟨15, 1⟩
def ACT_DL_RETRY_RELAX : Fld := ⟨14, 1⟩
def ACT_DL_RETRY_FREEZE : Fld := ⟨13, 1⟩
def ACT_DL_RETRY_PHASE : Fld := ⟨8, 5⟩
/-- ACT_DL_RETRY_STAT (Table 4-6). -/
def ACT_DL_RETRY_STAT (a : Nat) (l : Nat) : Nat := 0x1401024 + 0x10000 * a + 0x400 * l
def ACT_DL_RETRY_STAT_BUSY : Fld := ⟨31, 1⟩
def ACT_DL_RETRY_STAT_DONE : Fld := ⟨30, 1⟩
def ACT_DL_RETRY_STAT_RESULT : Fld := ⟨16, 8⟩
def ACT_DL_RETRY_STAT_ITER : Fld := ⟨8, 8⟩
/-- ACT_DL_PIN (Table 4-6). -/
def ACT_DL_PIN (a : Nat) (l : Nat) (i : Nat) : Nat := 0x1401028 + 0x10000 * a + 0x400 * l + 0x4 * i
def ACT_DL_PIN_VALID : Fld := ⟨31, 1⟩
def ACT_DL_PIN_REL : Fld := ⟨30, 1⟩
def ACT_DL_PIN_LEN : Fld := ⟨16, 14⟩
def ACT_DL_PIN_START : Fld := ⟨0, 13⟩
/-- LDC_CTRL (Table 4-7). -/
def LDC_CTRL (c : Nat) : Nat := 0x140C010 + 0x40000 * c
def LDC_CTRL_MAXIT : Fld := ⟨16, 6⟩
def LDC_CTRL_CLASS_EN : Fld := ⟨8, 4⟩
def LDC_CTRL_PWR_AUTO : Fld := ⟨1, 1⟩
def LDC_CTRL_EN : Fld := ⟨0, 1⟩
/-- LDC_WEIGHT (Table 4-7). -/
def LDC_WEIGHT (c : Nat) : Nat := 0x140C014 + 0x40000 * c
/-- LDC_STAT (Table 4-7). -/
def LDC_STAT (c : Nat) : Nat := 0x140C018 + 0x40000 * c
def LDC_STAT_BUSY : Fld := ⟨31, 1⟩
def LDC_STAT_PWR : Fld := ⟨30, 1⟩
def LDC_STAT_LANE : Fld := ⟨16, 8⟩
def LDC_STAT_ITER : Fld := ⟨8, 8⟩
def LDC_STAT_CLASS : Fld := ⟨0, 2⟩
/-- LDC_EVT (Table 4-7). -/
def LDC_EVT (c : Nat) : Nat := 0x140C01C + 0x40000 * c
def LDC_EVT_MEM_ERR : Nat := 0
def LDC_EVT_SAT : Nat := 1
/-- LDC_EVT_EN (Table 4-7). -/
def LDC_EVT_EN (c : Nat) : Nat := 0x140C020 + 0x40000 * c
/-- LDC_SLOTS (Table 4-7). -/
def LDC_SLOTS : Nat := 0x140C024
def LDC_SLOTS_FREE : Fld := ⟨16, 10⟩
def LDC_SLOTS_LOW : Fld := ⟨0, 10⟩
/-- LDC_QUEUE (Table 4-7). -/
def LDC_QUEUE : Nat := 0x140C028
/-- LDC_CW_OK (Table 4-7). -/
def LDC_CW_OK (c : Nat) : Nat := 0x140C030 + 0x40000 * c
/-- LDC_CW_FAIL (Table 4-7). -/
def LDC_CW_FAIL (c : Nat) : Nat := 0x140C034 + 0x40000 * c
/-- LDC_MEM_ERRS (Table 4-7). -/
def LDC_MEM_ERRS (c : Nat) : Nat := 0x140C038 + 0x40000 * c
/-- LDC_ITER_SUM_LO (Table 4-7). -/
def LDC_ITER_SUM_LO (c : Nat) : Nat := 0x140C040 + 0x40000 * c
/-- LDC_ITER_SUM_HI (Table 4-7). -/
def LDC_ITER_SUM_HI (c : Nat) : Nat := 0x140C044 + 0x40000 * c
/-- ACT_FMT_CTRL (Table 5-8). -/
def ACT_FMT_CTRL (a : Nat) : Nat := 0x1400200 + 0x10000 * a
def ACT_FMT_CTRL_RLX_WIN : Fld := ⟨24, 8⟩
def ACT_FMT_CTRL_SM1_WIN : Fld := ⟨16, 8⟩
def ACT_FMT_CTRL_DELTA_OK : Fld := ⟨12, 4⟩
def ACT_FMT_CTRL_REREAD_MAX : Fld := ⟨8, 4⟩
def ACT_FMT_CTRL_TP_RECON : Fld := ⟨2, 1⟩
def ACT_FMT_CTRL_THATCH_RECON : Fld := ⟨1, 1⟩
def ACT_FMT_CTRL_LADDER_EN : Fld := ⟨0, 1⟩
/-- ACT_FMT_EVT (Table 5-8). -/
def ACT_FMT_EVT (a : Nat) : Nat := 0x1400204 + 0x10000 * a
def ACT_FMT_EVT_SM1_MISS : Nat := 0
def ACT_FMT_EVT_SM1_FALSE : Nat := 1
def ACT_FMT_EVT_BOTH_MISS : Nat := 2
def ACT_FMT_EVT_RECOV_SAMPLE : Nat := 3
def ACT_FMT_EVT_RECOV_REREAD : Nat := 4
def ACT_FMT_EVT_RECOV_TP : Nat := 5
def ACT_FMT_EVT_UNRECOV : Nat := 6
def ACT_FMT_EVT_TAG_ERR : Nat := 7
def ACT_FMT_EVT_SAT : Nat := 8
/-- ACT_FMT_EVT_EN (Table 5-8). -/
def ACT_FMT_EVT_EN (a : Nat) : Nat := 0x1400208 + 0x10000 * a
/-- ACT_FMT_LAST (Table 5-8). -/
def ACT_FMT_LAST (a : Nat) : Nat := 0x140020C + 0x10000 * a
def ACT_FMT_LAST_STATUS : Fld := ⟨24, 8⟩
def ACT_FMT_LAST_HEAD : Fld := ⟨20, 4⟩
def ACT_FMT_LAST_RUNG : Fld := ⟨16, 4⟩
def ACT_FMT_LAST_SECTOR : Fld := ⟨0, 16⟩
/-- ACT_FMT_LAST_TRK (Table 5-8). -/
def ACT_FMT_LAST_TRK (a : Nat) : Nat := 0x1400210 + 0x10000 * a
/-- ACT_FMT_CNT (Table 5-8). -/
def ACT_FMT_CNT (a : Nat) (i : Nat) : Nat := 0x1400240 + 0x10000 * a + 0x4 * i
/-- ACT_SRV_CTRL (Table 6-4). -/
def ACT_SRV_CTRL (a : Nat) : Nat := 0x1400400 + 0x10000 * a
def ACT_SRV_CTRL_REWRITE_MAX : Fld := ⟨28, 4⟩
def ACT_SRV_CTRL_REL_N : Fld := ⟨24, 4⟩
def ACT_SRV_CTRL_SETTLE_N : Fld := ⟨20, 4⟩
def ACT_SRV_CTRL_MISS_TOL : Fld := ⟨16, 4⟩
def ACT_SRV_CTRL_MISS_LOST : Fld := ⟨8, 8⟩
/-- ACT_SRV_LIM (Table 6-4). -/
def ACT_SRV_LIM (a : Nat) : Nat := 0x1400404 + 0x10000 * a
def ACT_SRV_LIM_SQZ_LIM : Fld := ⟨24, 8⟩
def ACT_SRV_LIM_SETTLE_LIM : Fld := ⟨16, 8⟩
def ACT_SRV_LIM_WU_REL : Fld := ⟨8, 8⟩
def ACT_SRV_LIM_WU_LIM : Fld := ⟨0, 8⟩
/-- ACT_SRV_SHOCK (Table 6-4). -/
def ACT_SRV_SHOCK (a : Nat) : Nat := 0x1400408 + 0x10000 * a
def ACT_SRV_SHOCK_SHOCK_HOLD_US : Fld := ⟨16, 16⟩
def ACT_SRV_SHOCK_SHOCK_LIM : Fld := ⟨0, 16⟩
/-- ACT_SRV_STAT (Table 6-4). -/
def ACT_SRV_STAT (a : Nat) : Nat := 0x140040C + 0x10000 * a
def ACT_SRV_STAT_MODE : Fld := ⟨28, 4⟩
def ACT_SRV_STAT_FOLLOW : Fld := ⟨24, 4⟩
def ACT_SRV_STAT_REF : Fld := ⟨22, 2⟩
def ACT_SRV_STAT_WEDGE : Fld := ⟨10, 10⟩
def ACT_SRV_STAT_WU_MAX : Fld := ⟨0, 8⟩
/-- ACT_SRV_EVT (Table 6-4). -/
def ACT_SRV_EVT (a : Nat) : Nat := 0x1400410 + 0x10000 * a
def ACT_SRV_EVT_MISS : Nat := 0
def ACT_SRV_EVT_LOST : Nat := 1
def ACT_SRV_EVT_REACQ : Nat := 2
def ACT_SRV_EVT_MA_SAT : Nat := 3
def ACT_SRV_EVT_SETTLED : Nat := 4
def ACT_SRV_EVT_SAT : Nat := 5
/-- ACT_SRV_EVT_EN (Table 6-4). -/
def ACT_SRV_EVT_EN (a : Nat) : Nat := 0x1400414 + 0x10000 * a
/-- ACT_WS_INH (Table 6-4). -/
def ACT_WS_INH (a : Nat) : Nat := 0x1400418 + 0x10000 * a
def ACT_WS_INH_SW_INH : Fld := ⟨8, 4⟩
def ACT_WS_INH_PEND : Fld := ⟨4, 4⟩
def ACT_WS_INH_INH : Fld := ⟨0, 4⟩
/-- ACT_WS_EVT (Table 6-4). -/
def ACT_WS_EVT (a : Nat) : Nat := 0x140041C + 0x10000 * a
def ACT_WS_EVT_INHIBIT : Nat := 0
def ACT_WS_EVT_RELEASE : Nat := 1
def ACT_WS_EVT_REWRITE_DONE : Nat := 2
def ACT_WS_EVT_REWRITE_FAIL : Nat := 3
def ACT_WS_EVT_SHOCK : Nat := 4
def ACT_WS_EVT_SQUEEZE : Nat := 5
def ACT_WS_EVT_SAT : Nat := 6
/-- ACT_WS_EVT_EN (Table 6-4). -/
def ACT_WS_EVT_EN (a : Nat) : Nat := 0x1400420 + 0x10000 * a
/-- ACT_SL_POS (Table 6-5). -/
def ACT_SL_POS (a : Nat) (l : Nat) : Nat := 0x1400480 + 0x10000 * a + 0x20 * l
def ACT_SL_POS_TRACK : Fld := ⟨8, 24⟩
def ACT_SL_POS_FRAC : Fld := ⟨0, 8⟩
/-- ACT_SL_TGT (Table 6-5). -/
def ACT_SL_TGT (a : Nat) (l : Nat) : Nat := 0x1400484 + 0x10000 * a + 0x20 * l
def ACT_SL_TGT_TRACK : Fld := ⟨8, 24⟩
def ACT_SL_TGT_FRAC : Fld := ⟨0, 8⟩
/-- ACT_SL_CFG (Table 6-5). -/
def ACT_SL_CFG (a : Nat) (l : Nat) : Nat := 0x1400488 + 0x10000 * a + 0x20 * l
def ACT_SL_CFG_HEAD : Fld := ⟨28, 4⟩
def ACT_SL_CFG_WSIDE : Fld := ⟨27, 1⟩
def ACT_SL_CFG_VALID : Fld := ⟨26, 1⟩
/-- ACT_SL_PES (Table 6-5). -/
def ACT_SL_PES (a : Nat) (l : Nat) : Nat := 0x140048C + 0x10000 * a + 0x20 * l
def ACT_SL_PES_MA_CMD : Fld := ⟨16, 16⟩
def ACT_SL_PES_PES : Fld := ⟨0, 16⟩
/-- ACT_SL_INH (Table 6-5). -/
def ACT_SL_INH (a : Nat) (l : Nat) : Nat := 0x1400490 + 0x10000 * a + 0x20 * l
def ACT_SL_INH_CAUSE : Fld := ⟨24, 8⟩
def ACT_SL_INH_PEAK_W : Fld := ⟨16, 8⟩
def ACT_SL_INH_GOOD : Fld := ⟨8, 8⟩
def ACT_SL_INH_MISSES : Fld := ⟨0, 8⟩
/-- ACT_HD_OFS (Table 6-6). -/
def ACT_HD_OFS (a : Nat) (h : Nat) : Nat := 0x1400600 + 0x10000 * a + 0x8 * h
def ACT_HD_OFS_TRACKS : Fld := ⟨8, 24⟩
def ACT_HD_OFS_FRAC : Fld := ⟨0, 8⟩
/-- ACT_HD_MA (Table 6-6). -/
def ACT_HD_MA (a : Nat) (h : Nat) : Nat := 0x1400604 + 0x10000 * a + 0x8 * h
def ACT_HD_MA_MA_REACH : Fld := ⟨0, 16⟩
/-- ACT_WS_CNT (Table 6-6). -/
def ACT_WS_CNT (a : Nat) (i : Nat) : Nat := 0x1400700 + 0x10000 * a + 0x4 * i
/-- BRD_CTRL (Table 7-5). -/
def BRD_CTRL (e : Nat) : Nat := 0x1800010 + 0x20000 * e
def BRD_CTRL_PWR_AUTO : Fld := ⟨1, 1⟩
def BRD_CTRL_EN : Fld := ⟨0, 1⟩
/-- BRD_STAT (Table 7-5). -/
def BRD_STAT (e : Nat) : Nat := 0x1800014 + 0x20000 * e
def BRD_STAT_PWR : Fld := ⟨31, 1⟩
def BRD_STAT_LOAD : Fld := ⟨16, 8⟩
def BRD_STAT_PEAK_Q : Fld := ⟨8, 8⟩
def BRD_STAT_Q : Fld := ⟨0, 8⟩
/-- BRD_EVT (Table 7-5). -/
def BRD_EVT (e : Nat) : Nat := 0x1800018 + 0x20000 * e
def BRD_EVT_FE : Nat := 0
def BRD_EVT_OVERRUN : Nat := 1
def BRD_EVT_CREDIT_WAIT : Nat := 2
def BRD_EVT_SW_DONE : Nat := 3
def BRD_EVT_SW_ERR : Nat := 4
def BRD_EVT_BUMP : Nat := 5
def BRD_EVT_OUT_SAT : Nat := 6
def BRD_EVT_SAT : Nat := 7
/-- BRD_EVT_EN (Table 7-5). -/
def BRD_EVT_EN (e : Nat) : Nat := 0x180001C + 0x20000 * e
/-- BRD_SW_MASK_LO (Table 7-5). -/
def BRD_SW_MASK_LO (e : Nat) : Nat := 0x1800020 + 0x20000 * e
/-- BRD_SW_MASK_HI (Table 7-5). -/
def BRD_SW_MASK_HI (e : Nat) : Nat := 0x1800024 + 0x20000 * e
/-- BRD_SW_CTRL (Table 7-5). -/
def BRD_SW_CTRL (e : Nat) : Nat := 0x1800028 + 0x20000 * e
def BRD_SW_CTRL_GO : Fld := ⟨31, 1⟩
def BRD_SW_CTRL_PENDING : Fld := ⟨0, 7⟩
/-- BRD_OVERRUNS (Table 7-5). -/
def BRD_OVERRUNS (e : Nat) : Nat := 0x1800030 + 0x20000 * e
/-- BRD_CREDIT_WAITS (Table 7-5). -/
def BRD_CREDIT_WAITS (e : Nat) : Nat := 0x1800034 + 0x20000 * e
/-- BRD_FE_COUNT (Table 7-5). -/
def BRD_FE_COUNT (e : Nat) : Nat := 0x1800038 + 0x20000 * e
/-- BRD_ITERATIONS_LO (Table 7-5). -/
def BRD_ITERATIONS_LO (e : Nat) : Nat := 0x1800040 + 0x20000 * e
/-- BRD_ITERATIONS_HI (Table 7-5). -/
def BRD_ITERATIONS_HI (e : Nat) : Nat := 0x1800044 + 0x20000 * e
/-- BRD_SET_VALID (Table 7-5). -/
def BRD_SET_VALID (e : Nat) (w : Nat) : Nat := 0x1800100 + 0x20000 * e + 0x4 * w
/-- BRD_SL_CTRL (Table 7-6). -/
def BRD_SL_CTRL (e : Nat) (s : Nat) : Nat := 0x1801000 + 0x20000 * e + 0x40 * s
def BRD_SL_CTRL_KIND : Fld := ⟨28, 4⟩
def BRD_SL_CTRL_PRIO : Fld := ⟨23, 1⟩
def BRD_SL_CTRL_TRIG : Fld := ⟨18, 2⟩
def BRD_SL_CTRL_TRACK : Fld := ⟨17, 1⟩
def BRD_SL_CTRL_MODE : Fld := ⟨0, 2⟩
/-- BRD_SL_TIME (Table 7-6). -/
def BRD_SL_TIME (e : Nat) (s : Nat) : Nat := 0x1801004 + 0x20000 * e + 0x40 * s
def BRD_SL_TIME_PERIOD : Fld := ⟨16, 16⟩
def BRD_SL_TIME_PHASE : Fld := ⟨0, 16⟩
/-- BRD_SL_REF (Table 7-6). -/
def BRD_SL_REF (e : Nat) (s : Nat) : Nat := 0x1801008 + 0x20000 * e + 0x40 * s
/-- BRD_SL_MAN (Table 7-6). -/
def BRD_SL_MAN (e : Nat) (s : Nat) : Nat := 0x180100C + 0x20000 * e + 0x40 * s
/-- BRD_SL_OMAX (Table 7-6). -/
def BRD_SL_OMAX (e : Nat) (s : Nat) : Nat := 0x1801010 + 0x20000 * e + 0x40 * s
/-- BRD_SL_OMIN (Table 7-6). -/
def BRD_SL_OMIN (e : Nat) (s : Nat) : Nat := 0x1801014 + 0x20000 * e + 0x40 * s
/-- BRD_SL_FE (Table 7-6). -/
def BRD_SL_FE (e : Nat) (s : Nat) : Nat := 0x1801018 + 0x20000 * e + 0x40 * s
def BRD_SL_FE_FE_LIM : Fld := ⟨16, 16⟩
def BRD_SL_FE_FE_N : Fld := ⟨8, 8⟩
def BRD_SL_FE_FE_ACT : Fld := ⟨4, 2⟩
def BRD_SL_FE_FE_CLR : Fld := ⟨0, 1⟩
/-- BRD_SL_SET (Table 7-6). -/
def BRD_SL_SET (e : Nat) (s : Nat) : Nat := 0x180101C + 0x20000 * e + 0x40 * s
def BRD_SL_SET_SW_SET : Fld := ⟨8, 8⟩
def BRD_SL_SET_CUR_SET : Fld := ⟨0, 8⟩
/-- BRD_SL_STAT (Table 7-6). -/
def BRD_SL_STAT (e : Nat) (s : Nat) : Nat := 0x1801020 + 0x20000 * e + 0x40 * s
def BRD_SL_STAT_FE_ACTIVE : Fld := ⟨31, 1⟩
def BRD_SL_STAT_OVR : Fld := ⟨30, 1⟩
def BRD_SL_STAT_BUMP : Fld := ⟨29, 1⟩
def BRD_SL_STAT_OUT_SAT : Fld := ⟨28, 1⟩
def BRD_SL_STAT_SWERR : Fld := ⟨24, 4⟩
def BRD_SL_STAT_FE_CNT : Fld := ⟨16, 8⟩
def BRD_SL_STAT_FE_LIM_MAX : Fld := ⟨0, 16⟩
/-- BRD_SL_OUT (Table 7-6). -/
def BRD_SL_OUT (e : Nat) (s : Nat) : Nat := 0x1801024 + 0x20000 * e + 0x40 * s
/-- BRD_SL_INTEG (Table 7-6). -/
def BRD_SL_INTEG (e : Nat) (s : Nat) : Nat := 0x1801028 + 0x20000 * e + 0x40 * s
/-- BRD_SL_ERR (Table 7-6). -/
def BRD_SL_ERR (e : Nat) (s : Nat) : Nat := 0x180102C + 0x20000 * e + 0x40 * s
/-- BRD_SL_SAFE_OUT (Table 7-6). -/
def BRD_SL_SAFE_OUT (e : Nat) (s : Nat) : Nat := 0x1801030 + 0x20000 * e + 0x40 * s
/-- SPN_CTRL (Table 8-6). -/
def SPN_CTRL (p : Nat) : Nat := 0x1A00010 + 0x8000 * p
def SPN_CTRL_PAIR_EN : Fld := ⟨10, 1⟩
def SPN_CTRL_REGEN_EN : Fld := ⟨9, 1⟩
def SPN_CTRL_STEP : Fld := ⟨4, 2⟩
def SPN_CTRL_REQ : Fld := ⟨0, 2⟩
/-- SPN_STAT (Table 8-6). -/
def SPN_STAT (p : Nat) : Nat := 0x1A00014 + 0x8000 * p
def SPN_STAT_STATE : Fld := ⟨28, 4⟩
def SPN_STAT_DRIVE : Fld := ⟨25, 3⟩
def SPN_STAT_CSTEP : Fld := ⟨22, 3⟩
def SPN_STAT_SPEED_STEP : Fld := ⟨20, 2⟩
def SPN_STAT_OBS_LOCK : Fld := ⟨19, 1⟩
def SPN_STAT_PAIRED : Fld := ⟨18, 1⟩
def SPN_STAT_WR_INH : Fld := ⟨17, 1⟩
def SPN_STAT_TRIES : Fld := ⟨8, 8⟩
/-- SPN_SPEED (Table 8-6). -/
def SPN_SPEED (p : Nat) : Nat := 0x1A00018 + 0x8000 * p
/-- SPN_ZC (Table 8-6). -/
def SPN_ZC (p : Nat) : Nat := 0x1A0001C + 0x8000 * p
/-- SPN_MOTOR (Table 8-6). -/
def SPN_MOTOR (p : Nat) : Nat := 0x1A00020 + 0x8000 * p
def SPN_MOTOR_POLE_PAIRS : Fld := ⟨24, 8⟩
def SPN_MOTOR_KE : Fld := ⟨0, 16⟩
/-- SPN_START (Table 8-6). -/
def SPN_START (p : Nat) : Nat := 0x1A00024 + 0x8000 * p
def SPN_START_ALIGN_T : Fld := ⟨24, 8⟩
def SPN_START_RAMP_T : Fld := ⟨16, 8⟩
def SPN_START_HANDOVER : Fld := ⟨8, 8⟩
def SPN_START_START_TRIES : Fld := ⟨4, 4⟩
/-- SPN_START_AMP (Table 8-6). -/
def SPN_START_AMP (p : Nat) : Nat := 0x1A00028 + 0x8000 * p
def SPN_START_AMP_ALIGN_AMP : Fld := ⟨16, 16⟩
def SPN_START_AMP_RAMP_AMP : Fld := ⟨0, 16⟩
/-- SPN_RAMP (Table 8-6). -/
def SPN_RAMP (p : Nat) : Nat := 0x1A0002C + 0x8000 * p
def SPN_RAMP_RAMP_ACC : Fld := ⟨16, 16⟩
def SPN_RAMP_SLEW : Fld := ⟨0, 16⟩
/-- SPN_OBS (Table 8-6). -/
def SPN_OBS (p : Nat) : Nat := 0x1A00030 + 0x8000 * p
def SPN_OBS_ZC_TOL : Fld := ⟨24, 8⟩
def SPN_OBS_ZC_FAIL_N : Fld := ⟨20, 4⟩
def SPN_OBS_T_COAST : Fld := ⟨0, 16⟩
/-- SPN_LIM (Table 8-6). -/
def SPN_LIM (p : Nat) : Nat := 0x1A00034 + 0x8000 * p
def SPN_LIM_CATCH_MIN : Fld := ⟨16, 16⟩
def SPN_LIM_SPD_WTOL : Fld := ⟨8, 8⟩
/-- SPN_LIM2 (Table 8-6). -/
def SPN_LIM2 (p : Nat) : Nat := 0x1A00038 + 0x8000 * p
def SPN_LIM2_UNLOAD_MIN : Fld := ⟨16, 16⟩
def SPN_LIM2_REGEN_MIN : Fld := ⟨0, 16⟩
/-- SPN_BUS (Table 8-6). -/
def SPN_BUS (p : Nat) : Nat := 0x1A0003C + 0x8000 * p
def SPN_BUS_BUS_V : Fld := ⟨16, 16⟩
/-- SPN_CHOP (Table 8-6). -/
def SPN_CHOP (p : Nat) : Nat := 0x1A00040 + 0x8000 * p
def SPN_CHOP_RETIRED : Fld := ⟨31, 1⟩
def SPN_CHOP_SVC_CLR : Fld := ⟨30, 1⟩
def SPN_CHOP_SET : Fld := ⟨29, 1⟩
def SPN_CHOP_WHY : Fld := ⟨0, 8⟩
/-- SPN_EVT (Table 8-6). -/
def SPN_EVT (p : Nat) : Nat := 0x1A00044 + 0x8000 * p
def SPN_EVT_START_FAIL : Nat := 0
def SPN_EVT_OBS_LOST : Nat := 1
def SPN_EVT_CATCH_OK : Nat := 2
def SPN_EVT_CATCH_FAIL : Nat := 3
def SPN_EVT_CHOP_FAULT : Nat := 4
def SPN_EVT_BUS_HI : Nat := 5
def SPN_EVT_STEP_DONE : Nat := 6
def SPN_EVT_STATE : Nat := 7
def SPN_EVT_SAT : Nat := 8
/-- SPN_EVT_EN (Table 8-6). -/
def SPN_EVT_EN (p : Nat) : Nat := 0x1A00048 + 0x8000 * p
/-- SPN_CNT (Table 8-6). -/
def SPN_CNT (p : Nat) (i : Nat) : Nat := 0x1A00050 + 0x8000 * p + 0x4 * i
/-- SPN_ADV (Table 8-6). -/
def SPN_ADV (p : Nat) (i : Nat) : Nat := 0x1A00100 + 0x8000 * p + 0x4 * i
def SPN_ADV_ADV : Fld := ⟨0, 10⟩
/-- SPN_SINE (Table 8-6). -/
def SPN_SINE (p : Nat) (i : Nat) : Nat := 0x1A01000 + 0x8000 * p + 0x4 * i
def SPN_SINE_ODD : Fld := ⟨16, 16⟩
def SPN_SINE_EVEN : Fld := ⟨0, 16⟩
/-- SPN_SHELF_CTRL (Table 8-7). -/
def SPN_SHELF_CTRL : Nat := 0x1A03F00
def SPN_SHELF_CTRL_BRAKE_MAX : Fld := ⟨24, 8⟩
def SPN_SHELF_CTRL_SPINUP_MAX : Fld := ⟨16, 8⟩
def SPN_SHELF_CTRL_SPINUPS : Fld := ⟨8, 8⟩
def SPN_SHELF_CTRL_BRAKING : Fld := ⟨0, 8⟩
/-- SPN_SHELF_THR (Table 8-7). -/
def SPN_SHELF_THR : Nat := 0x1A03F04
def SPN_SHELF_THR_BUS_TRIP : Fld := ⟨16, 16⟩
def SPN_SHELF_THR_BUS_HI : Fld := ⟨0, 16⟩
/-- SPN_SHELF_BUS (Table 8-7). -/
def SPN_SHELF_BUS : Nat := 0x1A03F08
def SPN_SHELF_BUS_REGEN_STOP : Fld := ⟨31, 1⟩
def SPN_SHELF_BUS_BUS_OK : Fld := ⟨0, 16⟩
/-- AST_CTRL (Table 8-8). -/
def AST_CTRL (p : Nat) : Nat := 0x1A04010 + 0x8000 * p
def AST_CTRL_KIND : Fld := ⟨24, 2⟩
def AST_CTRL_EN : Fld := ⟨0, 24⟩
/-- AST_LIM (Table 8-8). -/
def AST_LIM (p : Nat) : Nat := 0x1A04014 + 0x8000 * p
def AST_LIM_DRIFT_WARN : Fld := ⟨24, 8⟩
def AST_LIM_DRIFT_LIM : Fld := ⟨16, 8⟩
def AST_LIM_VFY_LIM : Fld := ⟨8, 8⟩
/-- AST_EVT (Table 8-8). -/
def AST_EVT (p : Nat) : Nat := 0x1A04018 + 0x8000 * p
def AST_EVT_CAL_DONE : Nat := 0
def AST_EVT_CAL_FAIL : Nat := 1
def AST_EVT_DRIFT_WARN : Nat := 2
def AST_EVT_RETIRE : Nat := 3
def AST_EVT_MON_FAULT : Nat := 4
def AST_EVT_FE_ACTION : Nat := 5
def AST_EVT_SAT : Nat := 6
/-- AST_EVT_EN (Table 8-8). -/
def AST_EVT_EN (p : Nat) : Nat := 0x1A0401C + 0x8000 * p
/-- AST_CALCMD (Table 8-8). -/
def AST_CALCMD (p : Nat) : Nat := 0x1A04020 + 0x8000 * p
def AST_CALCMD_GO : Fld := ⟨31, 1⟩
def AST_CALCMD_Q : Fld := ⟨16, 5⟩
def AST_CALCMD_B : Fld := ⟨8, 3⟩
def AST_CALCMD_RESULT : Fld := ⟨0, 2⟩
/-- AST_CAL_W0 (Table 8-8). -/
def AST_CAL_W0 (p : Nat) (q : Nat) (b : Nat) : Nat := 0x1A04400 + 0x8000 * p + 0x60 * q + 0x10 * b
def AST_CAL_W0_DRIVE : Fld := ⟨0, 16⟩
/-- AST_CAL_W1 (Table 8-8). -/
def AST_CAL_W1 (p : Nat) (q : Nat) (b : Nat) : Nat := 0x1A04404 + 0x8000 * p + 0x60 * q + 0x10 * b
def AST_CAL_W1_MON_REF : Fld := ⟨0, 16⟩
/-- AST_CAL_W2 (Table 8-8). -/
def AST_CAL_W2 (p : Nat) (q : Nat) (b : Nat) : Nat := 0x1A04408 + 0x8000 * p + 0x60 * q + 0x10 * b
def AST_CAL_W2_FH_WREF : Fld := ⟨16, 16⟩
def AST_CAL_W2_FH_RREF : Fld := ⟨0, 16⟩
/-- AST_CAL_W3 (Table 8-8). -/
def AST_CAL_W3 (p : Nat) (q : Nat) (b : Nat) : Nat := 0x1A0440C + 0x8000 * p + 0x60 * q + 0x10 * b
def AST_CAL_W3_DRIVE0 : Fld := ⟨0, 16⟩
/-- AST_WEAR_W0 (Table 8-8). -/
def AST_WEAR_W0 (p : Nat) (q : Nat) : Nat := 0x1A05000 + 0x8000 * p + 0x10 * q
/-- AST_WEAR_W1 (Table 8-8). -/
def AST_WEAR_W1 (p : Nat) (q : Nat) : Nat := 0x1A05004 + 0x8000 * p + 0x10 * q
/-- AST_WEAR_W2 (Table 8-8). -/
def AST_WEAR_W2 (p : Nat) (q : Nat) : Nat := 0x1A05008 + 0x8000 * p + 0x10 * q
def AST_WEAR_W2_RETIRED : Fld := ⟨31, 1⟩
def AST_WEAR_W2_DRIFT : Fld := ⟨16, 8⟩
def AST_WEAR_W2_WEAR : Fld := ⟨8, 8⟩
def AST_WEAR_W2_VFY_RATE : Fld := ⟨0, 8⟩
/-- AST_WEAR_W3 (Table 8-8). -/
def AST_WEAR_W3 (p : Nat) (q : Nat) : Nat := 0x1A0500C + 0x8000 * p + 0x10 * q
/-- ZMP_CTRL (Table 9-4). -/
def ZMP_CTRL : Nat := 0x1C00010
def ZMP_CTRL_JRN_MS : Fld := ⟨16, 16⟩
def ZMP_CTRL_RELOC_EN : Fld := ⟨2, 1⟩
def ZMP_CTRL_CROSS_EN : Fld := ⟨1, 1⟩
def ZMP_CTRL_MOVER_EN : Fld := ⟨0, 1⟩
/-- ZMP_STAT (Table 9-4). -/
def ZMP_STAT : Nat := 0x1C00014
def ZMP_STAT_ACTIVE : Fld := ⟨16, 13⟩
def ZMP_STAT_PEAK : Fld := ⟨0, 13⟩
/-- ZMP_EVT (Table 9-4). -/
def ZMP_EVT : Nat := 0x1C00018
def ZMP_EVT_CTX_FULL : Nat := 0
def ZMP_EVT_EAVE_FULL : Nat := 1
def ZMP_EVT_SPARE_LOW : Nat := 2
def ZMP_EVT_SPARE_OUT : Nat := 3
def ZMP_EVT_LOST_RANGE : Nat := 4
def ZMP_EVT_WSEQ_WRAP : Nat := 5
def ZMP_EVT_RELOC : Nat := 6
def ZMP_EVT_JRN_ERR : Nat := 7
def ZMP_EVT_SAT : Nat := 8
/-- ZMP_EVT_EN (Table 9-4). -/
def ZMP_EVT_EN : Nat := 0x1C0001C
/-- ZMP_EAVE_TOT (Table 9-4). -/
def ZMP_EAVE_TOT : Nat := 0x1C00020
/-- ZMP_ACC (Table 9-4). -/
def ZMP_ACC : Nat := 0x1C00024
def ZMP_ACC_FREE : Fld := ⟨16, 16⟩
def ZMP_ACC_TOTAL : Fld := ⟨0, 16⟩
/-- ZMP_EAVE (Table 9-4). -/
def ZMP_EAVE (p : Nat) : Nat := 0x1C00100 + 0x4 * p
def ZMP_EAVE_FREE : Fld := ⟨16, 16⟩
def ZMP_EAVE_AWAY : Fld := ⟨0, 16⟩
/-- ZMP_SPARE (Table 9-4). -/
def ZMP_SPARE (p : Nat) : Nat := 0x1C00180 + 0x4 * p
def ZMP_SPARE_MIN_FREE : Fld := ⟨24, 8⟩
def ZMP_SPARE_USED : Fld := ⟨0, 24⟩
/-- ZMP_LOC_CMD (Table 9-4). -/
def ZMP_LOC_CMD : Nat := 0x1C00200
def ZMP_LOC_CMD_GO : Fld := ⟨31, 1⟩
def ZMP_LOC_CMD_RESULT : Fld := ⟨24, 2⟩
def ZMP_LOC_CMD_NSID : Fld := ⟨0, 8⟩
/-- ZMP_LOC_LBA_LO (Table 9-4). -/
def ZMP_LOC_LBA_LO : Nat := 0x1C00204
/-- ZMP_LOC_LBA_HI (Table 9-4). -/
def ZMP_LOC_LBA_HI : Nat := 0x1C00208
/-- ZMP_LOC_RES0 (Table 9-4). -/
def ZMP_LOC_RES0 : Nat := 0x1C0020C
def ZMP_LOC_RES0_PORT : Fld := ⟨27, 5⟩
def ZMP_LOC_RES0_K : Fld := ⟨26, 1⟩
def ZMP_LOC_RES0_HEAD : Fld := ⟨22, 4⟩
def ZMP_LOC_RES0_LANE : Fld := ⟨20, 2⟩
def ZMP_LOC_RES0_MEMBER : Fld := ⟨15, 5⟩
/-- ZMP_LOC_RES1 (Table 9-4). -/
def ZMP_LOC_RES1 : Nat := 0x1C00210
/-- ZMP_LOC_RES2 (Table 9-4). -/
def ZMP_LOC_RES2 : Nat := 0x1C00214
def ZMP_LOC_RES2_WHERE : Fld := ⟨30, 2⟩
def ZMP_LOC_RES2_SLOT : Fld := ⟨16, 14⟩
def ZMP_LOC_RES2_POS : Fld := ⟨0, 16⟩
/-- ZMP_CTX_SEL (Table 9-4). -/
def ZMP_CTX_SEL : Nat := 0x1C00300
def ZMP_CTX_SEL_INDEX : Fld := ⟨0, 12⟩
/-- ZMP_CTX (Table 9-4). -/
def ZMP_CTX (w : Nat) : Nat := 0x1C00320 + 0x4 * w
/-- ZMP_CNT (Table 9-4). -/
def ZMP_CNT (i : Nat) : Nat := 0x1C00400 + 0x4 * i
/-- THT_CTRL (Table 9-5). -/
def THT_CTRL (t : Nat) : Nat := 0x1E00010 + 0x80000 * t
def THT_CTRL_RB_SHARE : Fld := ⟨24, 8⟩
def THT_CTRL_RB_EN : Fld := ⟨1, 1⟩
def THT_CTRL_EN : Fld := ⟨0, 1⟩
/-- THT_STAT (Table 9-5). -/
def THT_STAT (t : Nat) : Nat := 0x1E00014 + 0x80000 * t
def THT_STAT_BUSY : Fld := ⟨31, 1⟩
def THT_STAT_JOB : Fld := ⟨28, 3⟩
def THT_STAT_UID : Fld := ⟨0, 12⟩
/-- THT_EVT (Table 9-5). -/
def THT_EVT (t : Nat) : Nat := 0x1E00018 + 0x80000 * t
def THT_EVT_RECON_FAIL : Nat := 0
def THT_EVT_RB_START : Nat := 1
def THT_EVT_RB_DONE : Nat := 2
def THT_EVT_RB_ABORT : Nat := 3
def THT_EVT_ACC_READBACK : Nat := 4
def THT_EVT_SAT : Nat := 5
/-- THT_EVT_EN (Table 9-5). -/
def THT_EVT_EN (t : Nat) : Nat := 0x1E0001C + 0x80000 * t
/-- THT_RB_CTRL (Table 9-5). -/
def THT_RB_CTRL (t : Nat) : Nat := 0x1E00020 + 0x80000 * t
def THT_RB_CTRL_GO : Fld := ⟨31, 1⟩
def THT_RB_CTRL_STOP : Fld := ⟨30, 1⟩
def THT_RB_CTRL_MEMBER : Fld := ⟨20, 5⟩
def THT_RB_CTRL_UID : Fld := ⟨0, 12⟩
/-- THT_RB_STAT (Table 9-5). -/
def THT_RB_STAT (t : Nat) : Nat := 0x1E00024 + 0x80000 * t
def THT_RB_STAT_BUSY : Fld := ⟨31, 1⟩
def THT_RB_STAT_DONE : Fld := ⟨30, 1⟩
def THT_RB_STAT_RESULT : Fld := ⟨24, 4⟩
/-- THT_RB_ZONE (Table 9-5). -/
def THT_RB_ZONE (t : Nat) : Nat := 0x1E00028 + 0x80000 * t
/-- THT_RB_TOTAL (Table 9-5). -/
def THT_RB_TOTAL (t : Nat) : Nat := 0x1E0002C + 0x80000 * t
/-- THT_CNT (Table 9-5). -/
def THT_CNT (t : Nat) (i : Nat) : Nat := 0x1E00030 + 0x80000 * t + 0x4 * i
/-- HIF_CTRL (Table 10-9). -/
def HIF_CTRL : Nat := 0x0A00010
def HIF_CTRL_QCS_OPEN : Fld := ⟨8, 2⟩
def HIF_CTRL_MIRROR_WAIT : Fld := ⟨4, 1⟩
def HIF_CTRL_FETCH_EN : Fld := ⟨0, 2⟩
/-- HIF_MODE (Table 10-9). -/
def HIF_MODE : Nat := 0x0A00014
def HIF_MODE_BIFUR : Fld := ⟨31, 1⟩
def HIF_MODE_PAIR_POS : Fld := ⟨30, 1⟩
/-- HIF_EVT (Table 10-9). -/
def HIF_EVT : Nat := 0x0A00018
def HIF_EVT_SLOTS_FULL : Nat := 0
def HIF_EVT_LEDGER_WAIT : Nat := 1
def HIF_EVT_MIRROR_WAIT : Nat := 2
def HIF_EVT_DEFER_FULL : Nat := 3
def HIF_EVT_POISON_TX : Nat := 4
def HIF_EVT_POISON_RX : Nat := 5
def HIF_EVT_LINK_DOWN_A : Nat := 6
def HIF_EVT_LINK_DOWN_B : Nat := 7
def HIF_EVT_ANA_CHANGE : Nat := 8
def HIF_EVT_SAT : Nat := 9
/-- HIF_EVT_EN (Table 10-9). -/
def HIF_EVT_EN : Nat := 0x0A0001C
/-- HIF_SLOTS (Table 10-9). -/
def HIF_SLOTS : Nat := 0x0A00020
def HIF_SLOTS_PEAK : Fld := ⟨16, 16⟩
def HIF_SLOTS_IN_FLIGHT : Fld := ⟨0, 15⟩
/-- HIF_SLOT_RES (Table 10-9). -/
def HIF_SLOT_RES : Nat := 0x0A00024
def HIF_SLOT_RES_RES_B : Fld := ⟨16, 14⟩
def HIF_SLOT_RES_RES_A : Fld := ⟨0, 14⟩
/-- HIF_DEFER (Table 10-9). -/
def HIF_DEFER : Nat := 0x0A00028
def HIF_DEFER_PENDING : Fld := ⟨0, 11⟩
/-- HIF_PWR (Table 10-9). -/
def HIF_PWR : Nat := 0x0A00030
def HIF_PWR_ENTERING : Fld := ⟨3, 1⟩
def HIF_PWR_PS_EFF : Fld := ⟨0, 3⟩
/-- HIF_PCI_ID (Table 10-9). -/
def HIF_PCI_ID : Nat := 0x0A00034
def HIF_PCI_ID_DID : Fld := ⟨16, 16⟩
def HIF_PCI_ID_VID : Fld := ⟨0, 16⟩
/-- HIF_PORT_STAT (Table 10-9). -/
def HIF_PORT_STAT (x : Nat) : Nat := 0x0A00100 + 0x100 * x
def HIF_PORT_STAT_LINK_UP : Fld := ⟨31, 1⟩
def HIF_PORT_STAT_SPEED : Fld := ⟨28, 3⟩
def HIF_PORT_STAT_WIDTH : Fld := ⟨22, 6⟩
def HIF_PORT_STAT_PS_REQ : Fld := ⟨16, 3⟩
def HIF_PORT_STAT_ANA : Fld := ⟨12, 4⟩
def HIF_PORT_STAT_CNTLID : Fld := ⟨0, 8⟩
/-- HIF_PORT_QUEUES (Table 10-9). -/
def HIF_PORT_QUEUES (x : Nat) : Nat := 0x0A00104 + 0x100 * x
def HIF_PORT_QUEUES_SQS : Fld := ⟨16, 10⟩
def HIF_PORT_QUEUES_CQS : Fld := ⟨0, 10⟩
/-- HIF_PORT_CNT (Table 10-9). -/
def HIF_PORT_CNT (x : Nat) (i : Nat) : Nat := 0x0A00110 + 0x100 * x + 0x4 * i
/-- BUF_STAT (Table 11-7). -/
def BUF_STAT : Nat := 0x0C00010
def BUF_STAT_BAND : Fld := ⟨24, 3⟩
def BUF_STAT_CH_UP : Fld := ⟨16, 8⟩
def BUF_STAT_TEMP : Fld := ⟨0, 16⟩
/-- BUF_DIRTY (Table 11-7). -/
def BUF_DIRTY : Nat := 0x0C00014
def BUF_DIRTY_MIB : Fld := ⟨0, 11⟩
/-- BUF_LAYOUT (Table 11-7). -/
def BUF_LAYOUT : Nat := 0x0C00018
def BUF_LAYOUT_RGN2_1G : Fld := ⟨0, 1⟩
/-- BUF_REFI (Table 11-7). -/
def BUF_REFI (b : Nat) : Nat := 0x0C00020 + 0x4 * b
def BUF_REFI_NS : Fld := ⟨0, 16⟩
/-- BUF_EVT (Table 11-7). -/
def BUF_EVT : Nat := 0x0C00040
def BUF_EVT_BAND : Nat := 0
def BUF_EVT_CH_FAIL : Nat := 1
def BUF_EVT_SAT : Nat := 2
/-- BUF_EVT_EN (Table 11-7). -/
def BUF_EVT_EN : Nat := 0x0C00044
/-- CCH_CTRL (Table 11-8). -/
def CCH_CTRL : Nat := 0x0E00010
def CCH_CTRL_INV : Fld := ⟨31, 1⟩
def CCH_CTRL_PF_EN : Fld := ⟨1, 1⟩
def CCH_CTRL_EN : Fld := ⟨0, 1⟩
/-- CCH_STAT (Table 11-8). -/
def CCH_STAT : Nat := 0x0E00014
def CCH_STAT_STATE : Fld := ⟨30, 2⟩
def CCH_STAT_INV_BUSY : Fld := ⟨29, 1⟩
def CCH_STAT_STALE : Fld := ⟨28, 1⟩
def CCH_STAT_DIRTY : Fld := ⟨0, 15⟩
/-- CCH_EVT (Table 11-8). -/
def CCH_EVT : Nat := 0x0E00018
def CCH_EVT_STALE : Nat := 0
def CCH_EVT_INV_DONE : Nat := 1
def CCH_EVT_DRAIN_DONE : Nat := 2
def CCH_EVT_WB_WAIT : Nat := 3
def CCH_EVT_SAT : Nat := 4
/-- CCH_EVT_EN (Table 11-8). -/
def CCH_EVT_EN : Nat := 0x0E0001C
/-- CCH_GEOM (Table 11-8). -/
def CCH_GEOM : Nat := 0x0E00020
def CCH_GEOM_SETS : Fld := ⟨16, 16⟩
def CCH_GEOM_WAYS : Fld := ⟨0, 16⟩
/-- CCH_WAYMASK (Table 11-8). -/
def CCH_WAYMASK (r : Nat) : Nat := 0x0E00040 + 0x4 * r
def CCH_WAYMASK_WAYS : Fld := ⟨0, 16⟩
/-- CCH_PF_CTRL (Table 11-8). -/
def CCH_PF_CTRL : Nat := 0x0E00060
def CCH_PF_CTRL_MAX_STRIDE : Fld := ⟨24, 8⟩
def CCH_PF_CTRL_DEPTH : Fld := ⟨16, 8⟩
def CCH_PF_CTRL_CONFIRM : Fld := ⟨12, 4⟩
/-- CCH_PF_STAT (Table 11-8). -/
def CCH_PF_STAT : Nat := 0x0E00064
def CCH_PF_STAT_ACTIVE : Fld := ⟨0, 9⟩
/-- CCH_CNT (Table 11-8). -/
def CCH_CNT (i : Nat) : Nat := 0x0E00100 + 0x4 * i
/-- MEP_CTRL (Table 11-9). -/
def MEP_CTRL : Nat := 0x0F00010
def MEP_CTRL_PATROL_H : Fld := ⟨8, 8⟩
def MEP_CTRL_PATROL_EN : Fld := ⟨1, 1⟩
def MEP_CTRL_LOCK : Fld := ⟨0, 1⟩
/-- MEP_EVT (Table 11-9). -/
def MEP_EVT : Nat := 0x0F00014
def MEP_EVT_CE : Nat := 0
def MEP_EVT_CE_OVF : Nat := 1
def MEP_EVT_UE : Nat := 2
def MEP_EVT_POISON : Nat := 3
def MEP_EVT_FLIP_FIRED : Nat := 4
def MEP_EVT_RET_DONE : Nat := 5
def MEP_EVT_RET_FULL : Nat := 6
def MEP_EVT_DEGRADED : Nat := 7
def MEP_EVT_SAT : Nat := 8
/-- MEP_EVT_EN (Table 11-9). -/
def MEP_EVT_EN : Nat := 0x0F00018
/-- MEP_RGN (Table 11-9). -/
def MEP_RGN (n : Nat) : Nat := 0x0F00020 + 0x4 * n
def MEP_RGN_STATE : Fld := ⟨30, 2⟩
def MEP_RGN_CODE : Fld := ⟨28, 2⟩
def MEP_RGN_RETIRED : Fld := ⟨0, 16⟩
/-- MEP_BANK_CODE (Table 11-9). -/
def MEP_BANK_CODE (j : Nat) : Nat := 0x0F00030 + 0x4 * j
/-- MEP_CE_TOTAL (Table 11-9). -/
def MEP_CE_TOTAL : Nat := 0x0F00040
/-- MEP_UE_TOTAL (Table 11-9). -/
def MEP_UE_TOTAL : Nat := 0x0F00044
/-- MEP_POISON_TOTAL (Table 11-9). -/
def MEP_POISON_TOTAL : Nat := 0x0F00048
/-- MEP_CELOG_STAT (Table 11-9). -/
def MEP_CELOG_STAT : Nat := 0x0F0004C
def MEP_CELOG_STAT_OVF : Fld := ⟨31, 1⟩
def MEP_CELOG_STAT_CLR : Fld := ⟨30, 1⟩
def MEP_CELOG_STAT_USED : Fld := ⟨0, 7⟩
/-- MEP_FLIP_CTRL (Table 11-9). -/
def MEP_FLIP_CTRL : Nat := 0x0F00080
def MEP_FLIP_CTRL_ARM : Fld := ⟨31, 1⟩
def MEP_FLIP_CTRL_FIRED : Fld := ⟨30, 1⟩
def MEP_FLIP_CTRL_SPACE : Fld := ⟨29, 1⟩
def MEP_FLIP_CTRL_ADDR_EN : Fld := ⟨28, 1⟩
def MEP_FLIP_CTRL_RGN : Fld := ⟨23, 5⟩
def MEP_FLIP_CTRL_WORD : Fld := ⟨20, 3⟩
def MEP_FLIP_CTRL_CHK : Fld := ⟨0, 8⟩
/-- MEP_FLIP_DATA_LO (Table 11-9). -/
def MEP_FLIP_DATA_LO : Nat := 0x0F00084
/-- MEP_FLIP_DATA_HI (Table 11-9). -/
def MEP_FLIP_DATA_HI : Nat := 0x0F00088
/-- MEP_FLIP_ADDR (Table 11-9). -/
def MEP_FLIP_ADDR : Nat := 0x0F0008C
def MEP_FLIP_ADDR_LINE : Fld := ⟨6, 26⟩
/-- MEP_RET_CMD (Table 11-9). -/
def MEP_RET_CMD : Nat := 0x0F00100
def MEP_RET_CMD_GO : Fld := ⟨31, 1⟩
def MEP_RET_CMD_PAGE : Fld := ⟨0, 20⟩
/-- MEP_RET_STAT (Table 11-9). -/
def MEP_RET_STAT : Nat := 0x0F00104
def MEP_RET_STAT_BUSY : Fld := ⟨31, 1⟩
def MEP_RET_STAT_DONE : Fld := ⟨30, 1⟩
def MEP_RET_STAT_RESULT : Fld := ⟨16, 8⟩
def MEP_RET_STAT_USED : Fld := ⟨0, 9⟩
/-- MEP_CELOG_W0 (Table 11-9). -/
def MEP_CELOG_W0 (i : Nat) : Nat := 0x0F01000 + 0x10 * i
def MEP_CELOG_W0_VALID : Fld := ⟨31, 1⟩
def MEP_CELOG_W0_SPACE : Fld := ⟨30, 1⟩
def MEP_CELOG_W0_UE : Fld := ⟨29, 1⟩
def MEP_CELOG_W0_RGN : Fld := ⟨24, 5⟩
def MEP_CELOG_W0_COUNT : Fld := ⟨16, 8⟩
def MEP_CELOG_W0_POS : Fld := ⟨8, 8⟩
def MEP_CELOG_W0_CHAN : Fld := ⟨0, 8⟩
/-- MEP_CELOG_W1 (Table 11-9). -/
def MEP_CELOG_W1 (i : Nat) : Nat := 0x0F01004 + 0x10 * i
/-- MEP_CELOG_W2 (Table 11-9). -/
def MEP_CELOG_W2 (i : Nat) : Nat := 0x0F01008 + 0x10 * i
/-- MEP_CELOG_W3 (Table 11-9). -/
def MEP_CELOG_W3 (i : Nat) : Nat := 0x0F0100C + 0x10 * i
/-- MEP_RET (Table 11-9). -/
def MEP_RET (i : Nat) : Nat := 0x0F02000 + 0x4 * i
def MEP_RET_VALID : Fld := ⟨31, 1⟩
def MEP_RET_PAGE : Fld := ⟨0, 20⟩
/-- BAL_CTRL (Table 12-4). -/
def BAL_CTRL : Nat := 0x0200010
def BAL_CTRL_SAFE_WRITERS : Fld := ⟨8, 4⟩
def BAL_CTRL_HOLD : Fld := ⟨0, 1⟩
/-- BAL_STAT (Table 12-4). -/
def BAL_STAT : Nat := 0x0200014
def BAL_STAT_SAFE : Fld := ⟨31, 1⟩
def BAL_STAT_PFAIL : Fld := ⟨30, 1⟩
def BAL_STAT_PHASE : Fld := ⟨24, 4⟩
def BAL_STAT_NW : Fld := ⟨20, 4⟩
def BAL_STAT_NS : Fld := ⟨8, 6⟩
def BAL_STAT_WAITERS : Fld := ⟨0, 8⟩
/-- BAL_VMAX (Table 12-4). -/
def BAL_VMAX : Nat := 0x0200018
/-- BAL_VUSED (Table 12-4). -/
def BAL_VUSED : Nat := 0x020001C
/-- BAL_WRITERS (Table 12-4). -/
def BAL_WRITERS : Nat := 0x0200020
/-- BAL_ECAP (Table 12-4). -/
def BAL_ECAP : Nat := 0x0200024
def BAL_ECAP_E_C : Fld := ⟨16, 16⟩
def BAL_ECAP_KSUM : Fld := ⟨0, 16⟩
/-- BAL_TDEST (Table 12-4). -/
def BAL_TDEST : Nat := 0x0200028
/-- BAL_CAP (Table 12-4). -/
def BAL_CAP : Nat := 0x0200030
def BAL_CAP_CAP_MF : Fld := ⟨16, 16⟩
def BAL_CAP_ETA_C : Fld := ⟨0, 16⟩
/-- BAL_VCAP (Table 12-4). -/
def BAL_VCAP : Nat := 0x0200034
def BAL_VCAP_VFLOOR : Fld := ⟨16, 16⟩
def BAL_VCAP_VCAP : Fld := ⟨0, 16⟩
/-- BAL_VSCALE (Table 12-4). -/
def BAL_VSCALE : Nat := 0x0200038
def BAL_VSCALE_SCALE : Fld := ⟨0, 16⟩
/-- BAL_PWR0 (Table 12-4). -/
def BAL_PWR0 : Nat := 0x0200040
def BAL_PWR0_P_CTRL : Fld := ⟨16, 16⟩
def BAL_PWR0_P_FE : Fld := ⟨0, 16⟩
/-- BAL_PWR1 (Table 12-4). -/
def BAL_PWR1 : Nat := 0x0200044
def BAL_PWR1_P_WRT : Fld := ⟨16, 16⟩
def BAL_PWR1_P_RGN : Fld := ⟨0, 16⟩
/-- BAL_TIME (Table 12-4). -/
def BAL_TIME : Nat := 0x0200048
def BAL_TIME_T_PREP : Fld := ⟨16, 16⟩
def BAL_TIME_T_PARK : Fld := ⟨0, 16⟩
/-- BAL_MARGIN (Table 12-4). -/
def BAL_MARGIN : Nat := 0x020004C
def BAL_MARGIN_E_RES : Fld := ⟨16, 16⟩
def BAL_MARGIN_ETA_R : Fld := ⟨0, 16⟩
/-- BAL_EVT (Table 12-4). -/
def BAL_EVT : Nat := 0x0200050
def BAL_EVT_WAIT : Nat := 0
def BAL_EVT_DEFICIT : Nat := 1
def BAL_EVT_STEP_HOLD : Nat := 2
def BAL_EVT_SAFE_ENTER : Nat := 3
def BAL_EVT_SAFE_DONE : Nat := 4
def BAL_EVT_WRITER_LOST : Nat := 5
def BAL_EVT_SHORTFALL : Nat := 6
def BAL_EVT_PFAIL_GONE : Nat := 7
def BAL_EVT_SAT : Nat := 8
/-- BAL_EVT_EN (Table 12-4). -/
def BAL_EVT_EN : Nat := 0x0200054
/-- BAL_CNT (Table 12-4). -/
def BAL_CNT (i : Nat) : Nat := 0x0200060 + 0x4 * i
/-- BAL_MECH_PHYS (Table 12-5). -/
def BAL_MECH_PHYS (p : Nat) : Nat := 0x0200100 + 0x10 * p
def BAL_MECH_PHYS_INERTIA : Fld := ⟨16, 16⟩
def BAL_MECH_PHYS_FLOOR : Fld := ⟨0, 16⟩
/-- BAL_MECH_PWR (Table 12-5). -/
def BAL_MECH_PWR (p : Nat) : Nat := 0x0200104 + 0x10 * p
def BAL_MECH_PWR_DRAG_MAX : Fld := ⟨16, 16⟩
def BAL_MECH_PWR_DRAG_FLOOR : Fld := ⟨0, 16⟩
/-- BAL_MECH_RATE (Table 12-5). -/
def BAL_MECH_RATE (p : Nat) : Nat := 0x0200108 + 0x10 * p
def BAL_MECH_RATE_RATE_W : Fld := ⟨16, 16⟩
def BAL_MECH_RATE_K_I : Fld := ⟨0, 16⟩
/-- BAL_MECH_STAT (Table 12-5). -/
def BAL_MECH_STAT (p : Nat) : Nat := 0x020010C + 0x10 * p
def BAL_MECH_STAT_COUNTED : Fld := ⟨31, 1⟩
def BAL_MECH_STAT_CAPABLE : Fld := ⟨30, 1⟩
def BAL_MECH_STAT_WRITER : Fld := ⟨29, 1⟩
def BAL_MECH_STAT_DONOR : Fld := ⟨28, 1⟩
def BAL_MECH_STAT_FREE : Fld := ⟨0, 16⟩
/-- PWR_MODE (Table 13-9). -/
def PWR_MODE : Nat := 0x0100010
def PWR_MODE_MODE : Fld := ⟨28, 4⟩
def PWR_MODE_PREV : Fld := ⟨24, 4⟩
def PWR_MODE_FORCE : Fld := ⟨20, 4⟩
def PWR_MODE_ENV : Fld := ⟨16, 4⟩
def PWR_MODE_CAUSE : Fld := ⟨0, 8⟩
/-- PWR_CFG (Table 13-9). -/
def PWR_CFG : Nat := 0x0100014
def PWR_CFG_SWEEP_IDLE : Fld := ⟨24, 8⟩
def PWR_CFG_WIN_N : Fld := ⟨20, 4⟩
def PWR_CFG_REB_AUTO : Fld := ⟨0, 1⟩
/-- PWR_MEAS (Table 13-9). -/
def PWR_MEAS : Nat := 0x0100018
def PWR_MEAS_PEAK : Fld := ⟨16, 16⟩
def PWR_MEAS_NOW : Fld := ⟨0, 16⟩
/-- PWR_CLK (Table 13-9). -/
def PWR_CLK : Nat := 0x010001C
def PWR_CLK_REF_OK : Fld := ⟨31, 1⟩
def PWR_CLK_XTAL_OK : Fld := ⟨30, 1⟩
def PWR_CLK_PEER : Fld := ⟨17, 1⟩
def PWR_CLK_DRAM : Fld := ⟨16, 1⟩
def PWR_CLK_TTH : Fld := ⟨8, 8⟩
def PWR_CLK_PCIE : Fld := ⟨4, 4⟩
def PWR_CLK_BRD : Fld := ⟨2, 1⟩
def PWR_CLK_DP : Fld := ⟨1, 1⟩
def PWR_CLK_CPU : Fld := ⟨0, 1⟩
/-- PWR_EVT (Table 13-9). -/
def PWR_EVT : Nat := 0x0100020
def PWR_EVT_MODE : Nat := 0
def PWR_EVT_ENV_LIMIT : Nat := 1
def PWR_EVT_DOM_FAULT : Nat := 2
def PWR_EVT_PLL_UNLOCK : Nat := 3
def PWR_EVT_WAKE_SEEN : Nat := 4
def PWR_EVT_UPTIME_WRAP : Nat := 5
def PWR_EVT_SAT : Nat := 6
/-- PWR_EVT_EN (Table 13-9). -/
def PWR_EVT_EN : Nat := 0x0100024
/-- PWR_WDOG (Table 13-9). -/
def PWR_WDOG : Nat := 0x0100028
def PWR_WDOG_TIMEOUT_MS : Fld := ⟨16, 16⟩
def PWR_WDOG_KICK : Fld := ⟨0, 1⟩
/-- PWR_RST (Table 13-9). -/
def PWR_RST : Nat := 0x010002C
def PWR_RST_KEY : Fld := ⟨16, 16⟩
def PWR_RST_GO : Fld := ⟨0, 1⟩
/-- PWR_UPTIME (Table 13-9). -/
def PWR_UPTIME : Nat := 0x0100030
/-- PWR_AON_STAT (Table 13-9). -/
def PWR_AON_STAT : Nat := 0x0100034
def PWR_AON_STAT_RST_CAUSE : Fld := ⟨28, 4⟩
def PWR_AON_STAT_WAKE_SRC : Fld := ⟨8, 5⟩
def PWR_AON_STAT_PFAIL_SEEN : Fld := ⟨0, 1⟩
/-- PWR_WAKE_EN (Table 13-9). -/
def PWR_WAKE_EN : Nat := 0x0100038
def PWR_WAKE_EN_WATCH_TLIM : Fld := ⟨24, 8⟩
def PWR_WAKE_EN_EN : Fld := ⟨0, 5⟩
/-- PWR_CNT (Table 13-9). -/
def PWR_CNT (i : Nat) : Nat := 0x0100040 + 0x4 * i
/-- PWR_DOM_STAT (Table 13-9). -/
def PWR_DOM_STAT (n : Nat) : Nat := 0x0100100 + 0x4 * n
/-- PWR_DOM_HOLD (Table 13-9). -/
def PWR_DOM_HOLD (n : Nat) : Nat := 0x0100140 + 0x4 * n
/-- PWR_DOM_BLOCK (Table 13-9). -/
def PWR_DOM_BLOCK (n : Nat) : Nat := 0x0100180 + 0x4 * n
/-- PWR_DOM_FAIL (Table 13-9). -/
def PWR_DOM_FAIL (n : Nat) : Nat := 0x01001C0 + 0x4 * n
/-- BGW_CTRL (Table 14-8). -/
def BGW_CTRL : Nat := 0x0800010
def BGW_CTRL_N_URG : Fld := ⟨24, 8⟩
def BGW_CTRL_FP_US : Fld := ⟨16, 8⟩
def BGW_CTRL_SHARE_EN : Fld := ⟨0, 1⟩
/-- BGW_STAT (Table 14-8). -/
def BGW_STAT : Nat := 0x0800014
def BGW_STAT_URGENT : Fld := ⟨24, 8⟩
def BGW_STAT_DUE : Fld := ⟨16, 8⟩
def BGW_STAT_RUNNING : Fld := ⟨8, 8⟩
/-- BGW_EVT (Table 14-8). -/
def BGW_EVT : Nat := 0x0800018
def BGW_EVT_URGENT : Nat := 0
def BGW_EVT_DUE : Nat := 1
def BGW_EVT_PASS_DONE : Nat := 2
def BGW_EVT_TASK_FAIL : Nat := 3
def BGW_EVT_AGE_UNKNOWN : Nat := 4
def BGW_EVT_SAT : Nat := 5
/-- BGW_EVT_EN (Table 14-8). -/
def BGW_EVT_EN : Nat := 0x080001C
/-- BGW_DST (Table 14-8). -/
def BGW_DST : Nat := 0x0800020
def BGW_DST_OP : Fld := ⟨28, 4⟩
def BGW_DST_STEP : Fld := ⟨20, 8⟩
def BGW_DST_RESULT : Fld := ⟨16, 4⟩
def BGW_DST_PERCENT : Fld := ⟨8, 8⟩
/-- BGW_CALQ_LO (Table 14-8). -/
def BGW_CALQ_LO : Nat := 0x0800028
/-- BGW_CALQ_HI (Table 14-8). -/
def BGW_CALQ_HI : Nat := 0x080002C
/-- BGW_CNT (Table 14-8). -/
def BGW_CNT (i : Nat) : Nat := 0x0800040 + 0x4 * i
/-- BGW_WEAR_W0 (Table 14-8). -/
def BGW_WEAR_W0 (a : Nat) : Nat := 0x0800800 + 0x10 * a
/-- BGW_WEAR_W1 (Table 14-8). -/
def BGW_WEAR_W1 (a : Nat) : Nat := 0x0800804 + 0x10 * a
def BGW_WEAR_W1_EMERG : Fld := ⟨16, 16⟩
def BGW_WEAR_W1_WEAR : Fld := ⟨8, 8⟩
/-- BGW_WEAR_W2 (Table 14-8). -/
def BGW_WEAR_W2 (a : Nat) : Nat := 0x0800808 + 0x10 * a
/-- BGW_TASK_CTRL (Table 14-9). -/
def BGW_TASK_CTRL (t : Nat) : Nat := 0x0801000 + 0x10 * t
def BGW_TASK_CTRL_KIND : Fld := ⟨28, 4⟩
def BGW_TASK_CTRL_STATE : Fld := ⟨26, 2⟩
def BGW_TASK_CTRL_RUN : Fld := ⟨25, 1⟩
def BGW_TASK_CTRL_FORCE_URG : Fld := ⟨24, 1⟩
def BGW_TASK_CTRL_WAKE_OK : Fld := ⟨23, 1⟩
def BGW_TASK_CTRL_EN : Fld := ⟨22, 1⟩
/-- BGW_TASK_PERIOD (Table 14-9). -/
def BGW_TASK_PERIOD (t : Nat) : Nat := 0x0801004 + 0x10 * t
/-- BGW_TASK_CREDIT (Table 14-9). -/
def BGW_TASK_CREDIT (t : Nat) : Nat := 0x0801008 + 0x10 * t
/-- BGW_TASK_PROG (Table 14-9). -/
def BGW_TASK_PROG (t : Nat) : Nat := 0x080100C + 0x10 * t
def BGW_TASK_PROG_GRACE_PCT : Fld := ⟨24, 8⟩
def BGW_TASK_PROG_UNITS : Fld := ⟨0, 24⟩
/-- THM_CTRL (Table 14-10). -/
def THM_CTRL : Nat := 0x0700010
def THM_CTRL_CAL_DT : Fld := ⟨24, 8⟩
def THM_CTRL_DIE_HOT : Fld := ⟨8, 16⟩
def THM_CTRL_AUTO_CAL : Fld := ⟨0, 1⟩
/-- THM_STAT (Table 14-10). -/
def THM_STAT : Nat := 0x0700014
def THM_STAT_DEV_BAND : Fld := ⟨28, 4⟩
def THM_STAT_DIE_MAX : Fld := ⟨0, 16⟩
/-- THM_EVT (Table 14-10). -/
def THM_EVT : Nat := 0x0700018
def THM_EVT_BAND_UP : Nat := 0
def THM_EVT_BAND_DOWN : Nat := 1
def THM_EVT_THROTTLE : Nat := 2
def THM_EVT_B5 : Nat := 3
def THM_EVT_CAL_TRIG : Nat := 4
def THM_EVT_CAL_FAIL : Nat := 5
def THM_EVT_SENSOR_FAULT : Nat := 6
def THM_EVT_DIE_HOT : Nat := 7
def THM_EVT_SAT : Nat := 8
/-- THM_EVT_EN (Table 14-10). -/
def THM_EVT_EN : Nat := 0x070001C
/-- THM_BAND_LIM (Table 14-10). -/
def THM_BAND_LIM (b : Nat) : Nat := 0x0700020 + 0x4 * b
def THM_BAND_LIM_EDGE : Fld := ⟨0, 16⟩
/-- THM_HYST (Table 14-10). -/
def THM_HYST : Nat := 0x0700034
def THM_HYST_HYST : Fld := ⟨0, 8⟩
/-- THM_THR_MAP (Table 14-10). -/
def THM_THR_MAP : Nat := 0x0700038
def THM_THR_MAP_MAP : Fld := ⟨0, 24⟩
/-- THM_THROTTLE (Table 14-10). -/
def THM_THROTTLE : Nat := 0x070003C
def THM_THROTTLE_FP_STEP : Fld := ⟨0, 8⟩
/-- THM_EXT (Table 14-10). -/
def THM_EXT (i : Nat) : Nat := 0x0700040 + 0x4 * i
def THM_EXT_VALID : Fld := ⟨31, 1⟩
def THM_EXT_ASSIGN : Fld := ⟨29, 2⟩
def THM_EXT_TEMP : Fld := ⟨0, 16⟩
/-- THM_DIE (Table 14-10). -/
def THM_DIE (s : Nat) : Nat := 0x0700080 + 0x4 * s
def THM_DIE_TEMP : Fld := ⟨0, 16⟩
/-- THM_MECH_W0 (Table 14-10). -/
def THM_MECH_W0 (p : Nat) : Nat := 0x0700100 + 0x8 * p
def THM_MECH_W0_BAND : Fld := ⟨28, 4⟩
def THM_MECH_W0_LEVEL : Fld := ⟨24, 4⟩
def THM_MECH_W0_TEMP : Fld := ⟨0, 16⟩
/-- THM_MECH_W1 (Table 14-10). -/
def THM_MECH_W1 (p : Nat) : Nat := 0x0700104 + 0x8 * p
def THM_MECH_W1_TEMP : Fld := ⟨0, 16⟩
/-- THM_ACT (Table 14-10). -/
def THM_ACT (a : Nat) : Nat := 0x0700200 + 0x4 * a
def THM_ACT_T_CAL : Fld := ⟨16, 16⟩
def THM_ACT_RESULT : Fld := ⟨14, 2⟩
/-- THM_CNT (Table 14-10). -/
def THM_CNT (i : Nat) : Nat := 0x0700300 + 0x4 * i
/-- THM_SRVCAL (Table 14-10). -/
def THM_SRVCAL (a : Nat) (h : Nat) : Nat := 0x0701000 + 0x40 * a + 0x4 * h
def THM_SRVCAL_K_H : Fld := ⟨16, 16⟩
def THM_SRVCAL_DT0 : Fld := ⟨0, 16⟩
/-- MCS_STAT (Table 15-7). -/
def MCS_STAT : Nat := 0x2000010
def MCS_STAT_ROM_VER_F : Fld := ⟨24, 8⟩
def MCS_STAT_ROM_VER_Z : Fld := ⟨16, 8⟩
def MCS_STAT_Z_HALTED : Fld := ⟨8, 8⟩
/-- MCS_ZCTRL (Table 15-7). -/
def MCS_ZCTRL : Nat := 0x2000014
def MCS_ZCTRL_Z_HALT : Fld := ⟨24, 8⟩
def MCS_ZCTRL_ZMAP : Fld := ⟨0, 24⟩
/-- MCS_EVT (Table 15-7). -/
def MCS_EVT : Nat := 0x2000018
def MCS_EVT_F_FAULT : Nat := 0
def MCS_EVT_Z_FAULT : Nat := 1
def MCS_EVT_PARITY : Nat := 2
def MCS_EVT_WR_REFUSED : Nat := 3
def MCS_EVT_RESTART : Nat := 4
def MCS_EVT_SAT : Nat := 5
/-- MCS_EVT_EN (Table 15-7). -/
def MCS_EVT_EN : Nat := 0x200001C
/-- MCS_F_HALT_LO (Table 15-7). -/
def MCS_F_HALT_LO : Nat := 0x2000020
/-- MCS_F_HALT_HI (Table 15-7). -/
def MCS_F_HALT_HI : Nat := 0x2000024
/-- MCS_F_HALTED_LO (Table 15-7). -/
def MCS_F_HALTED_LO : Nat := 0x2000028
/-- MCS_F_HALTED_HI (Table 15-7). -/
def MCS_F_HALTED_HI : Nat := 0x200002C
/-- MCS_FAULTS (Table 15-7). -/
def MCS_FAULTS : Nat := 0x2000030
/-- MCS_FMATCH (Table 15-7). -/
def MCS_FMATCH (i : Nat) : Nat := 0x2000100 + 0x4 * i
def MCS_FMATCH_VALID : Fld := ⟨31, 1⟩
def MCS_FMATCH_ROM_ADDR : Fld := ⟨16, 14⟩
def MCS_FMATCH_PATCH_ADDR : Fld := ⟨0, 16⟩
/-- MCS_ZMATCH (Table 15-7). -/
def MCS_ZMATCH (i : Nat) : Nat := 0x2000200 + 0x4 * i
def MCS_ZMATCH_VALID : Fld := ⟨31, 1⟩
def MCS_ZMATCH_ROM_ADDR : Fld := ⟨16, 15⟩
def MCS_ZMATCH_PATCH_ADDR : Fld := ⟨0, 16⟩
/-- MCS_FSEQ_W0 (Table 15-7). -/
def MCS_FSEQ_W0 (f : Nat) : Nat := 0x2001000 + 0x10 * f
def MCS_FSEQ_W0_STATE : Fld := ⟨28, 4⟩
def MCS_FSEQ_W0_FAULT : Fld := ⟨24, 4⟩
def MCS_FSEQ_W0_OP : Fld := ⟨16, 8⟩
def MCS_FSEQ_W0_PC : Fld := ⟨0, 16⟩
/-- MCS_FSEQ_W1 (Table 15-7). -/
def MCS_FSEQ_W1 (f : Nat) : Nat := 0x2001004 + 0x10 * f
def MCS_FSEQ_W1_SP : Fld := ⟨8, 3⟩
def MCS_FSEQ_W1_QDEPTH : Fld := ⟨0, 7⟩
/-- MCS_FSEQ_W2 (Table 15-7). -/
def MCS_FSEQ_W2 (f : Nat) : Nat := 0x2001008 + 0x10 * f
/-- MCS_FSEQ_W3 (Table 15-7). -/
def MCS_FSEQ_W3 (f : Nat) : Nat := 0x200100C + 0x10 * f
def MCS_FSEQ_W3_RESTART : Fld := ⟨0, 1⟩
/-- MCS_ZSEQ_W0 (Table 15-7). -/
def MCS_ZSEQ_W0 (z : Nat) : Nat := 0x2001400 + 0x10 * z
def MCS_ZSEQ_W0_STATE : Fld := ⟨28, 4⟩
def MCS_ZSEQ_W0_FAULT : Fld := ⟨24, 4⟩
def MCS_ZSEQ_W0_THREAD : Fld := ⟨16, 8⟩
def MCS_ZSEQ_W0_PC : Fld := ⟨0, 16⟩
/-- MCS_ZSEQ_W1 (Table 15-7). -/
def MCS_ZSEQ_W1 (z : Nat) : Nat := 0x2001404 + 0x10 * z
def MCS_ZSEQ_W1_WAITING : Fld := ⟨8, 7⟩
def MCS_ZSEQ_W1_BUSY : Fld := ⟨0, 7⟩
/-- MCS_ZSEQ_W2 (Table 15-7). -/
def MCS_ZSEQ_W2 (z : Nat) : Nat := 0x2001408 + 0x10 * z
/-- MCS_ZSEQ_W3 (Table 15-7). -/
def MCS_ZSEQ_W3 (z : Nat) : Nat := 0x200140C + 0x10 * z
def MCS_ZSEQ_W3_RESTART : Fld := ⟨0, 1⟩
/-- MCS_FROM (Table 15-7). -/
def MCS_FROM (w : Nat) : Nat := 0x2100000 + 0x4 * w
/-- MCS_FPRAM (Table 15-7). -/
def MCS_FPRAM (w : Nat) : Nat := 0x2110000 + 0x4 * w
/-- MCS_ZROM (Table 15-7). -/
def MCS_ZROM (w : Nat) : Nat := 0x2200000 + 0x4 * w
/-- MCS_ZPRAM (Table 15-7). -/
def MCS_ZPRAM (w : Nat) : Nat := 0x2220000 + 0x4 * w
/-- PRT_CTRL (Table 16-8). -/
def PRT_CTRL : Nat := 0x0900010
def PRT_CTRL_HO_GO : Fld := ⟨3, 1⟩
def PRT_CTRL_RELAY_FWD : Fld := ⟨2, 1⟩
def PRT_CTRL_MIRROR_EN : Fld := ⟨1, 1⟩
def PRT_CTRL_TAKEOVER_EN : Fld := ⟨0, 1⟩
/-- PRT_STAT (Table 16-8). -/
def PRT_STAT : Nat := 0x0900014
def PRT_STAT_ROLE : Fld := ⟨28, 4⟩
def PRT_STAT_PARTNER_ROLE : Fld := ⟨24, 4⟩
def PRT_STAT_PARTNER : Fld := ⟨22, 2⟩
def PRT_STAT_PEER_OK : Fld := ⟨21, 1⟩
def PRT_STAT_WIT_OK : Fld := ⟨20, 1⟩
def PRT_STAT_MIRROR_VALID : Fld := ⟨19, 1⟩
def PRT_STAT_UPDATING : Fld := ⟨18, 1⟩
def PRT_STAT_OWN_HEALTH : Fld := ⟨8, 8⟩
def PRT_STAT_PARTNER_HEALTH : Fld := ⟨0, 8⟩
/-- PRT_HB (Table 16-8). -/
def PRT_HB : Nat := 0x0900018
def PRT_HB_TIMEOUT_US : Fld := ⟨16, 16⟩
def PRT_HB_PEER_AGE : Fld := ⟨0, 16⟩
/-- PRT_EVT (Table 16-8). -/
def PRT_EVT : Nat := 0x090001C
def PRT_EVT_ROLE : Nat := 0
def PRT_EVT_PARTNER_FAILED : Nat := 1
def PRT_EVT_PEER_FAULT : Nat := 2
def PRT_EVT_WIT_FAULT : Nat := 3
def PRT_EVT_CONFLICT : Nat := 4
def PRT_EVT_TAKEOVER : Nat := 5
def PRT_EVT_HO_DONE : Nat := 6
def PRT_EVT_HO_FAIL : Nat := 7
def PRT_EVT_MIRROR_LOST : Nat := 8
def PRT_EVT_RESYNC_DONE : Nat := 9
def PRT_EVT_UPDATE_DONE : Nat := 10
def PRT_EVT_UPDATE_FAIL : Nat := 11
def PRT_EVT_BOOT_FALLBACK : Nat := 12
def PRT_EVT_RELAY_ERR : Nat := 13
def PRT_EVT_SAT : Nat := 14
/-- PRT_EVT_EN (Table 16-8). -/
def PRT_EVT_EN : Nat := 0x0900020
/-- PRT_MIRROR (Table 16-8). -/
def PRT_MIRROR : Nat := 0x0900024
def PRT_MIRROR_LAG : Fld := ⟨8, 24⟩
def PRT_MIRROR_RESYNC : Fld := ⟨0, 8⟩
/-- PRT_HO (Table 16-8). -/
def PRT_HO : Nat := 0x0900028
def PRT_HO_PHASE : Fld := ⟨28, 4⟩
def PRT_HO_RESULT : Fld := ⟨24, 4⟩
def PRT_HO_T_LAST : Fld := ⟨0, 24⟩
/-- PRT_FW (Table 16-8). -/
def PRT_FW : Nat := 0x0900030
def PRT_FW_ACTIVE_BANK : Fld := ⟨31, 1⟩
def PRT_FW_FALLBACK : Fld := ⟨30, 1⟩
def PRT_FW_BOOT_RESULT : Fld := ⟨27, 3⟩
def PRT_FW_SVN : Fld := ⟨0, 8⟩
/-- PRT_FW_VER_ACT (Table 16-8). -/
def PRT_FW_VER_ACT : Nat := 0x0900034
/-- PRT_FW_VER_INACT (Table 16-8). -/
def PRT_FW_VER_INACT : Nat := 0x0900038
/-- PRT_FW_FLOOR (Table 16-8). -/
def PRT_FW_FLOOR : Nat := 0x090003C
def PRT_FW_FLOOR_SVN_FLOOR : Fld := ⟨0, 8⟩
/-- PRT_KEY (Table 16-8). -/
def PRT_KEY : Nat := 0x0900040
def PRT_KEY_REVOKE : Fld := ⟨8, 2⟩
def PRT_KEY_VALID : Fld := ⟨0, 2⟩
/-- PRT_RLY (Table 16-8). -/
def PRT_RLY : Nat := 0x0900044
def PRT_RLY_IN_UP : Fld := ⟨31, 1⟩
def PRT_RLY_OUT_UP : Fld := ⟨30, 1⟩
def PRT_RLY_HOP : Fld := ⟨24, 6⟩
/-- PRT_CNT (Table 16-8). -/
def PRT_CNT (i : Nat) : Nat := 0x0900050 + 0x4 * i
/-- MBX_CTRL (Table 17-7). -/
def MBX_CTRL : Nat := 0x0500010
def MBX_CTRL_LOCK : Fld := ⟨0, 1⟩
/-- MBX_EVT (Table 17-7). -/
def MBX_EVT : Nat := 0x0500014
def MBX_EVT_COLL : Nat := 0
def MBX_EVT_ABORT : Nat := 1
def MBX_EVT_BIND_VIOL : Nat := 2
def MBX_EVT_SAT : Nat := 3
/-- MBX_EVT_EN (Table 17-7). -/
def MBX_EVT_EN : Nat := 0x0500018
/-- MBX_VIOLS (Table 17-7). -/
def MBX_VIOLS : Nat := 0x050001C
/-- MBX_PARTY_RST (Table 17-7). -/
def MBX_PARTY_RST : Nat := 0x0500020
def MBX_PARTY_RST_RST : Fld := ⟨0, 1⟩
/-- MBX_BIND (Table 17-7). -/
def MBX_BIND (c : Nat) : Nat := 0x0500100 + 0x4 * c
def MBX_BIND_SENDER : Fld := ⟨16, 8⟩
def MBX_BIND_RECEIVER : Fld := ⟨8, 8⟩
/-- MBX_CH_DATA (Table 17-7). -/
def MBX_CH_DATA (c : Nat) (w : Nat) : Nat := 0x0501000 + 0x100 * c + 0x4 * w
/-- MBX_CH_DB (Table 17-7). -/
def MBX_CH_DB (c : Nat) : Nat := 0x0501040 + 0x100 * c
/-- MBX_CH_DB_SET (Table 17-7). -/
def MBX_CH_DB_SET (c : Nat) : Nat := 0x0501044 + 0x100 * c
/-- MBX_CH_MASK (Table 17-7). -/
def MBX_CH_MASK (c : Nat) : Nat := 0x0501048 + 0x100 * c
/-- MBX_CH_STAT (Table 17-7). -/
def MBX_CH_STAT (c : Nat) : Nat := 0x050104C + 0x100 * c
def MBX_CH_STAT_FULL : Fld := ⟨31, 1⟩
def MBX_CH_STAT_COLL : Fld := ⟨30, 1⟩
def MBX_CH_STAT_ABT : Fld := ⟨29, 1⟩
def MBX_CH_STAT_ATTN : Fld := ⟨28, 1⟩
def MBX_CH_STAT_COLLISIONS : Fld := ⟨0, 16⟩
/-- MBX_CH_VEC (Table 17-7). -/
def MBX_CH_VEC (c : Nat) : Nat := 0x0501050 + 0x100 * c
def MBX_CH_VEC_SVEC : Fld := ⟨16, 11⟩
def MBX_CH_VEC_RVEC : Fld := ⟨0, 11⟩
/-- EVT_CTRL (Table 17-8). -/
def EVT_CTRL : Nat := 0x0300010
def EVT_CTRL_SMB_EN : Fld := ⟨1, 1⟩
def EVT_CTRL_EN : Fld := ⟨0, 1⟩
/-- EVT_EVT (Table 17-8). -/
def EVT_EVT : Nat := 0x0300014
def EVT_EVT_PEER_DROP : Nat := 0
def EVT_EVT_SAT : Nat := 1
/-- EVT_EVT_EN (Table 17-8). -/
def EVT_EVT_EN : Nat := 0x0300018
/-- EVT_RAW (Table 17-8). -/
def EVT_RAW (n : Nat) : Nat := 0x0300100 + 0x4 * n
/-- EVT_PEND (Table 17-8). -/
def EVT_PEND (n : Nat) : Nat := 0x0300180 + 0x4 * n
/-- EVT_CNT (Table 17-8). -/
def EVT_CNT (i : Nat) : Nat := 0x0300200 + 0x4 * i
/-- EVT_RT_W0 (Table 17-8). -/
def EVT_RT_W0 (s : Nat) : Nat := 0x0301000 + 0x8 * s
def EVT_RT_W0_TAIL : Fld := ⟨24, 8⟩
def EVT_RT_W0_CORE : Fld := ⟨20, 4⟩
def EVT_RT_W0_PEER : Fld := ⟨19, 1⟩
def EVT_RT_W0_SMB : Fld := ⟨18, 1⟩
def EVT_RT_W0_MSIB : Fld := ⟨17, 1⟩
def EVT_RT_W0_MSIA : Fld := ⟨16, 1⟩
/-- EVT_RT_W1 (Table 17-8). -/
def EVT_RT_W1 (s : Nat) : Nat := 0x0301004 + 0x8 * s
def EVT_RT_W1_VEC_B : Fld := ⟨16, 11⟩
def EVT_RT_W1_VEC_A : Fld := ⟨0, 11⟩
/-- TAIL_EVT (Table 17-9). -/
def TAIL_EVT : Nat := 0x0400010
def TAIL_EVT_FULL : Nat := 7
def TAIL_EVT_SAT : Nat := 8
/-- TAIL_EVT_EN (Table 17-9). -/
def TAIL_EVT_EN : Nat := 0x0400014
/-- TAIL_CTRL (Table 17-9). -/
def TAIL_CTRL (r : Nat) : Nat := 0x0401000 + 0x100 * r
def TAIL_CTRL_FREEZE : Fld := ⟨31, 1⟩
def TAIL_CTRL_CLR : Fld := ⟨30, 1⟩
/-- TAIL_STAT (Table 17-9). -/
def TAIL_STAT (r : Nat) : Nat := 0x0401004 + 0x100 * r
def TAIL_STAT_FULL : Fld := ⟨31, 1⟩
def TAIL_STAT_COUNT : Fld := ⟨0, 12⟩
/-- TAIL_DROPPED (Table 17-9). -/
def TAIL_DROPPED (r : Nat) : Nat := 0x0401008 + 0x100 * r
/-- TAIL_SEL (Table 17-9). -/
def TAIL_SEL (r : Nat) (i : Nat) : Nat := 0x0401010 + 0x100 * r + 0x4 * i
def TAIL_SEL_VALID : Fld := ⟨31, 1⟩
def TAIL_SEL_OFFS : Fld := ⟨2, 24⟩
/-- TAIL_RIDX (Table 17-9). -/
def TAIL_RIDX (r : Nat) : Nat := 0x0401040 + 0x100 * r
def TAIL_RIDX_INDEX : Fld := ⟨0, 11⟩
/-- TAIL_RDATA (Table 17-9). -/
def TAIL_RDATA (r : Nat) (w : Nat) : Nat := 0x0401080 + 0x100 * r + 0x4 * w
/-- FLS_RDCFG (Table 18-4). -/
def FLS_RDCFG : Nat := 0x0600010
def FLS_RDCFG_CLKSEL : Fld := ⟨8, 1⟩
def FLS_RDCFG_WS : Fld := ⟨0, 5⟩
/-- FLS_STAT (Table 18-4). -/
def FLS_STAT : Nat := 0x0600014
def FLS_STAT_BUSY : Fld := ⟨31, 1⟩
def FLS_STAT_DONE : Fld := ⟨30, 1⟩
def FLS_STAT_RESULT : Fld := ⟨24, 3⟩
def FLS_STAT_PULSES : Fld := ⟨20, 4⟩
def FLS_STAT_VBAND : Fld := ⟨18, 2⟩
def FLS_STAT_BLOCK : Fld := ⟨0, 9⟩
/-- FLS_CMD (Table 18-4). -/
def FLS_CMD : Nat := 0x0600018
def FLS_CMD_GO : Fld := ⟨31, 1⟩
def FLS_CMD_OP : Fld := ⟨28, 3⟩
def FLS_CMD_OVR : Fld := ⟨27, 1⟩
def FLS_CMD_MARGIN : Fld := ⟨25, 2⟩
def FLS_CMD_PAGE : Fld := ⟨0, 17⟩
/-- FLS_EVT (Table 18-4). -/
def FLS_EVT : Nat := 0x060001C
def FLS_EVT_DONE : Nat := 0
def FLS_EVT_FAIL : Nat := 1
def FLS_EVT_RETIRED : Nat := 2
def FLS_EVT_RD_CE : Nat := 3
def FLS_EVT_RD_UE : Nat := 4
def FLS_EVT_ECNT_SAT : Nat := 5
def FLS_EVT_FW_SHORT : Nat := 6
def FLS_EVT_SAT : Nat := 7
/-- FLS_EVT_EN (Table 18-4). -/
def FLS_EVT_EN : Nat := 0x0600020
/-- FLS_CNT (Table 18-4). -/
def FLS_CNT (i : Nat) : Nat := 0x0600040 + 0x4 * i
/-- FLS_PDATA (Table 18-4). -/
def FLS_PDATA (w : Nat) : Nat := 0x0600100 + 0x4 * w
/-- FLS_ECNT (Table 18-4). -/
def FLS_ECNT (b : Nat) : Nat := 0x0601000 + 0x4 * b
def FLS_ECNT_RETIRED : Fld := ⟨31, 1⟩
def FLS_ECNT_PMAX : Fld := ⟨26, 4⟩
def FLS_ECNT_COUNT : Fld := ⟨0, 24⟩
/-- TRS_DEVICE_ID (Table 0-2). -/
def TRS_DEVICE_ID : Nat := 0x0000008
def TRS_DEVICE_ID_PART : Fld := ⟨16, 16⟩
def TRS_DEVICE_ID_STEP : Fld := ⟨8, 8⟩
def TRS_DEVICE_ID_GRADE : Fld := ⟨4, 4⟩
/-- TRS_UNIT_FACE (Table 1-6). -/
def TRS_UNIT_FACE (u : Nat) : Nat := 0x0080000 + 0x20 * u
def TRS_UNIT_FACE_KIND : Fld := ⟨28, 4⟩
def TRS_UNIT_FACE_STATE : Fld := ⟨24, 4⟩
def TRS_UNIT_FACE_POLICY : Fld := ⟨12, 4⟩
def TRS_UNIT_FACE_EFF_POLICY : Fld := ⟨8, 4⟩
def TRS_UNIT_FACE_EVT : Fld := ⟨0, 1⟩
/-- TRS_UNIT_CAP (Table 1-5). -/
def TRS_UNIT_CAP (u : Nat) : Nat := 0x0080004 + 0x20 * u
/-- TRS_UNIT_ZSIZE (Table 1-5). -/
def TRS_UNIT_ZSIZE (u : Nat) : Nat := 0x0080008 + 0x20 * u
/-- TRS_UNIT_HEALTH (Table 1-7). -/
def TRS_UNIT_HEALTH (u : Nat) : Nat := 0x008000C + 0x20 * u
def TRS_UNIT_HEALTH_WEAR : Fld := ⟨24, 8⟩
def TRS_UNIT_HEALTH_CAUSE : Fld := ⟨16, 8⟩
def TRS_UNIT_HEALTH_UNAVAIL : Fld := ⟨8, 8⟩
def TRS_UNIT_HEALTH_GRADE : Fld := ⟨0, 2⟩
/-- TRS_UNIT_LINK (Table 1-8). -/
def TRS_UNIT_LINK (u : Nat) : Nat := 0x0080010 + 0x20 * u
def TRS_UNIT_LINK_PARENT : Fld := ⟨16, 12⟩
def TRS_UNIT_LINK_FIRST_CHILD : Fld := ⟨0, 12⟩
/-- TRS_UNIT_AUX (Table 1-9). -/
def TRS_UNIT_AUX (u : Nat) : Nat := 0x0080014 + 0x20 * u
def TRS_UNIT_AUX_NSID : Fld := ⟨24, 8⟩
def TRS_UNIT_AUX_DEPTH : Fld := ⟨16, 5⟩
def TRS_UNIT_AUX_NEXT_SIBLING : Fld := ⟨0, 12⟩
/-- TRS_UNIT_RSV0 (Table 1-5). -/
def TRS_UNIT_RSV0 (u : Nat) : Nat := 0x0080018 + 0x20 * u
/-- TRS_UNIT_RSV1 (Table 1-5). -/
def TRS_UNIT_RSV1 (u : Nat) : Nat := 0x008001C + 0x20 * u
/-- TRS_STAGE (Table 20-2). -/
def TRS_STAGE (w : Nat) : Nat := 0x0010000 + 0x4 * w
/-- ACT_LAD (Table 5-9). -/
def ACT_LAD (a : Nat) (r : Nat) : Nat := 0x1400300 + 0x10000 * a + 0x4 * r
def ACT_LAD_ACTION : Fld := ⟨28, 4⟩
def ACT_LAD_COND : Fld := ⟨24, 4⟩
def ACT_LAD_OFFSET : Fld := ⟨20, 4⟩
def ACT_LAD_ANCHOR : Fld := ⟨19, 1⟩
def ACT_LAD_TGT : Fld := ⟨16, 3⟩
def ACT_LAD_ERAS_XTRA : Fld := ⟨15, 1⟩
def ACT_LAD_RELAX : Fld := ⟨14, 1⟩
def ACT_LAD_FREEZE : Fld := ⟨13, 1⟩
def ACT_LAD_PHASE : Fld := ⟨8, 5⟩
def ACT_LAD_SWEEP : Fld := ⟨4, 4⟩
def ACT_LAD_TGT_TBL : Fld := ⟨3, 1⟩
def ACT_LAD_AUTO_ANC : Fld := ⟨2, 1⟩
/-- ACT_TAPTAB (R129). -/
def ACT_TAPTAB (a : Nat) (w : Nat) : Nat := 0x1404000 + 0x10000 * a + 0x4 * w
/-- BRD_COEF (R199). -/
def BRD_COEF (e : Nat) (s : Nat) (i : Nat) : Nat := 0x1804000 + 0x20000 * e + 0x40 * s + 0x4 * i
/-- BRD_STORE (R199). -/
def BRD_STORE (e : Nat) (q : Nat) (i : Nat) : Nat := 0x1808000 + 0x20000 * e + 0x40 * q + 0x4 * i

end Sys2Proof.Machine
end

