-- ==== Sys2Proof/Machine/RegTable.lean ====
section
/-! DEFINITION. The register tables of the spec as data: for every register its place, its fields with their access
codes (R12, Table 0-5) and its value after reset (R17). Where the Reset cell names something outside the spec
(fuses, flash, strap, pin, tables, identity) the value is the one assumption-log entry 3 names. -/
namespace Sys2Proof.Machine
open Sys2Proof

/-- Entry `i` of a list of numbers, 0 beyond its end. -/
def at_ (l : List Nat) (i : Nat) : Nat := l.getD i 0

/-- Priority of Bridle slot `s`: 0 for the wedge slots, 1 for the others (Table 7-1). -/
def brdPrio (s : Nat) : Nat := if s % 16 < 5 then 0 else if s % 16 < 13 then 1 else if s % 16 = 13 ∧ (s / 16) % 2 = 0 then 1 else 0

/-- KIND of Bridle slot `s` (Tables 7-1 and 7-6). -/
def brdKind (s : Nat) : Nat :=
  let m := s % 16
  if m = 0 then 0x0 else if m < 5 then 0x2 else if m < 9 then 0x4 else if m < 13 then 0x5
  else if m = 13 then (if (s / 16) % 2 = 0 then 0x3 else 0xF) else if m = 14 then 0xE else 0xF

/-- TRIG of Bridle slot `s`: 0 wedge, 1 TELEM, 2 timer (Table 7-1). -/
def brdTrig (s : Nat) : Nat :=
  let m := s % 16
  if m < 5 then 0 else if m < 13 then 1 else if m = 13 ∧ (s / 16) % 2 = 0 then 2 else 0

/-- Reset of SL[s]_CTRL: the role fields, TRACK = 1, MODE = OFF (Table 7-6). -/
def brdSlCtrlReset (s : Nat) : Nat := brdKind s * 2 ^ 28 + brdPrio s * 2 ^ 23 + brdTrig s * 2 ^ 18 + 2 ^ 17
/-- Reset of SL[s]_TIME: PERIOD 1,000; PHASE 2,400 on priority 0 and 8,000 on priority 1 (Table 7-6). -/
def brdSlTimeReset (s : Nat) : Nat := 1000 * 65536 + (if brdPrio s = 0 then 2400 else 8000)
/-- Reset of SL[s]_FE: FE_LIM 64 on priority-0 slots, else 0xFFFF; FE_N 4 (Table 7-6). -/
def brdSlFeReset (s : Nat) : Nat := (if brdPrio s = 0 then 64 else 0xFFFF) * 65536 + 4 * 256
/-- Reset of SL[s]_STAT: FE_LIM_MAX, 0xFFFF on priority-1 slots (Table 7-6); 64 on priority 0 is log entry 3. -/
def brdSlStatReset (s : Nat) : Nat := if brdPrio s = 0 then 64 else 0xFFFF
/-- Coefficient word `i` of a default set: both filter sections in bypass, b0 = 1.0 (R185); the rest is log entry 3. -/
def brdDefaultCoef (i : Nat) : Nat := if i = 6 ∨ i = 11 then 2 ^ 24 else 0

/-- KIND of background task `t` (Table 14-1). -/
def bgwKind (t : Nat) : Nat :=
  if t < 64 then 0 else if t < 128 then 1 else if t < 160 then 2 else if t < 192 then 3 else if t < 224 then 4
  else if t = 224 then 5 else if t = 225 then 6 else 7
def bgwTaskCtrlReset (t : Nat) : Nat :=
  let k := bgwKind t
  k * 2 ^ 28 + (if k = 0 ∨ k = 2 ∨ k = 3 then 2 ^ 23 else 0) + 2 ^ 22
def bgwTaskPeriodReset (t : Nat) : Nat := at_ [7776000, 2592000, 3600, 10, 86400, 24 * 3600, 86400, 60] (bgwKind t)
def bgwTaskProgReset (t : Nat) : Nat := at_ [25, 10, 100, 100, 100, 25, 100, 100] (bgwKind t) * 2 ^ 24

/-- PWR_DOM_STAT[n] after a device reset, in BOOT, by the "on while" column of Table 13-3. -/
def domStatReset (n : Nat) : Nat :=
  if n = 0 then 0xFFFFF89F else if n = 1 then 0xFFFFFFFF else if n = 2 then 0x7FF else if n = 13 then 0xF8000000
  else if n = 14 then 0x0807FFFF else 0

/-- round(32,767 × sin(2πj ÷ 1,024)) for j = 0–256, a quarter wave (Table 8-7), in rows of 32. -/
def sineQ0 : List Nat := [0, 201, 402, 603, 804, 1005, 1206, 1407, 1608, 1809, 2009, 2210, 2410, 2611, 2811, 3012, 3212, 3412, 3612, 3811, 4011, 4210, 4410, 4609, 4808, 5007, 5205, 5404, 5602, 5800, 5998, 6195]
def sineQ1 : List Nat := [6393, 6590, 6786, 6983, 7179, 7375, 7571, 7767, 7962, 8157, 8351, 8545, 8739, 8933, 9126, 9319, 9512, 9704, 9896, 10087, 10278, 10469, 10659, 10849, 11039, 11228, 11417, 11605, 11793, 11980, 12167, 12353]
def sineQ2 : List Nat := [12539, 12725, 12910, 13094, 13279, 13462, 13645, 13828, 14010, 14191, 14372, 14553, 14732, 14912, 15090, 15269, 15446, 15623, 15800, 15976, 16151, 16325, 16499, 16673, 16846, 17018, 17189, 17360, 17530, 17700, 17869, 18037]
def sineQ3 : List Nat := [18204, 18371, 18537, 18703, 18868, 19032, 19195, 19357, 19519, 19680, 19841, 20000, 20159, 20317, 20475, 20631, 20787, 20942, 21096, 21250, 21403, 21554, 21705, 21856, 22005, 22154, 22301, 22448, 22594, 22739, 22884, 23027]
def sineQ4 : List Nat := [23170, 23311, 23452, 23592, 23731, 23870, 24007, 24143, 24279, 24413, 24547, 24680, 24811, 24942, 25072, 25201, 25329, 25456, 25582, 25708, 25832, 25955, 26077, 26198, 26319, 26438, 26556, 26674, 26790, 26905, 27019, 27133]
def sineQ5 : List Nat := [27245, 27356, 27466, 27575, 27683, 27790, 27896, 28001, 28105, 28208, 28310, 28411, 28510, 28609, 28706, 28803, 28898, 28992, 29085, 29177, 29268, 29358, 29447, 29534, 29621, 29706, 29791, 29874, 29956, 30037, 30117, 30195]
def sineQ6 : List Nat := [30273, 30349, 30424, 30498, 30571, 30643, 30714, 30783, 30852, 30919, 30985, 31050, 31113, 31176, 31237, 31297, 31356, 31414, 31470, 31526, 31580, 31633, 31685, 31736, 31785, 31833, 31880, 31926, 31971, 32014, 32057, 32098]
def sineQ7 : List Nat := [32137, 32176, 32213, 32250, 32285, 32318, 32351, 32382, 32412, 32441, 32469, 32495, 32521, 32545, 32567, 32589, 32609, 32628, 32646, 32663, 32678, 32692, 32705, 32717, 32728, 32737, 32745, 32752, 32757, 32761, 32765, 32766]
def sineQ8 : List Nat := [32767]
def sineQ : List (List Nat) := [sineQ0, sineQ1, sineQ2, sineQ3, sineQ4, sineQ5, sineQ6, sineQ7, sineQ8]
/-- The quarter wave at `j` ≤ 256. -/
def sineQuarter (j : Nat) : Nat := (sineQ.getD (j / 32) []).getD (j % 32) 0
/-- Entry `j` of the default sine table as a 16-bit two's-complement number (Table 8-7). -/
def sineReset (j : Nat) : Nat :=
  let j := j % 1024
  if j ≤ 256 then sineQuarter j else if j ≤ 512 then sineQuarter (512 - j)
  else (65536 - (if j ≤ 768 then sineQuarter (j - 512) else sineQuarter (1024 - j))) % 65536


/-- The registers of TRS. -/
def rowsTRS : List RegRow := [
  -- TRS_UEVT_SUM
  ⟨0x7F000, [(128, 0x4)], [⟨0, 32, .ro⟩], fun _ => 0x0, false⟩,
  -- TRS_UTAB_GEN
  ⟨0x7F200, [], [⟨0, 32, .ro⟩], fun _ => 0x0, false⟩,
  -- TRS_LD_CTRL
  ⟨0x10, [], [⟨0, 3, .wo⟩], fun _ => 0x0, false⟩,
  -- TRS_LD_LEN
  ⟨0x14, [], [⟨0, 19, .rw⟩], fun _ => 0x0, false⟩,
  -- TRS_LD_STAT
  ⟨0x18, [], [⟨31, 1, .ro⟩, ⟨30, 1, .w1c⟩, ⟨16, 8, .ro⟩, ⟨0, 16, .ro⟩], fun _ => 0x0, false⟩,
  -- TRS_RUN_SEQ
  ⟨0x1C, [], [⟨0, 32, .ro⟩], fun _ => 0x0, false⟩,
  -- TRS_SEQ_FLOOR
  ⟨0x20, [], [⟨0, 32, .rw⟩], fun _ => 0x0, false⟩,
  -- TRS_KEY_STAT
  ⟨0x24, [], [⟨8, 4, .w1s⟩, ⟨0, 4, .ro⟩], fun _ => 0xF, false⟩,
  -- TRS_FENCE
  ⟨0x28, [], [⟨31, 1, .rw⟩, ⟨0, 12, .rw⟩], fun _ => 0xFFF, false⟩,
  -- TRS_QSTAT
  ⟨0x2C, [], [⟨31, 1, .ro⟩, ⟨28, 3, .ro⟩, ⟨0, 12, .ro⟩], fun _ => 0xFFF, false⟩,
  -- TRS_UNBOUND
  ⟨0x30, [], [⟨0, 32, .ro⟩], fun _ => 0x0, false⟩,
  -- TRS_BIND_WHY
  ⟨0x40, [(32, 0x4)], [⟨0, 4, .ro⟩], fun _ => 0x0, false⟩,
  -- TRS_DEVICE_ID
  ⟨0x8, [], [⟨16, 16, .ro⟩, ⟨8, 8, .ro⟩, ⟨4, 4, .ro⟩], fun _ => 0x3264A210, false⟩,
  -- TRS_UNIT_FACE
  ⟨0x80000, [(4096, 0x20)], [⟨28, 4, .ro⟩, ⟨24, 4, .ro⟩, ⟨12, 4, .rw⟩, ⟨8, 4, .ro⟩, ⟨0, 1, .w1c⟩], fun _ => 0xF000F000, false⟩,
  -- TRS_UNIT_CAP
  ⟨0x80004, [(4096, 0x20)], [⟨0, 32, .ro⟩], fun _ => 0x0, false⟩,
  -- TRS_UNIT_ZSIZE
  ⟨0x80008, [(4096, 0x20)], [⟨0, 32, .ro⟩], fun _ => 0x0, false⟩,
  -- TRS_UNIT_HEALTH
  ⟨0x8000C, [(4096, 0x20)], [⟨24, 8, .ro⟩, ⟨16, 8, .ro⟩, ⟨8, 8, .ro⟩, ⟨0, 2, .ro⟩], fun _ => 0x0, false⟩,
  -- TRS_UNIT_LINK
  ⟨0x80010, [(4096, 0x20)], [⟨16, 12, .ro⟩, ⟨0, 12, .ro⟩], fun _ => 0xFFF0FFF, false⟩,
  -- TRS_UNIT_AUX
  ⟨0x80014, [(4096, 0x20)], [⟨24, 8, .ro⟩, ⟨16, 5, .ro⟩, ⟨0, 12, .ro⟩], fun _ => 0xFFF, false⟩,
  -- TRS_UNIT_RSV0
  ⟨0x80018, [(4096, 0x20)], [], fun _ => 0x0, false⟩,
  -- TRS_UNIT_RSV1
  ⟨0x8001C, [(4096, 0x20)], [], fun _ => 0x0, false⟩,
  -- TRS_STAGE
  ⟨0x10000, [(65536, 0x4)], [⟨0, 32, .rw⟩], fun _ => 0x0, false⟩
]

/-- The registers of PWR. -/
def rowsPWR : List RegRow := [
  -- PWR_MODE
  ⟨0x10, [], [⟨28, 4, .ro⟩, ⟨24, 4, .ro⟩, ⟨20, 4, .rw⟩, ⟨16, 4, .ro⟩, ⟨0, 8, .ro⟩], fun _ => 0x10030000, false⟩,
  -- PWR_CFG
  ⟨0x14, [], [⟨24, 8, .rw⟩, ⟨20, 4, .rw⟩, ⟨0, 1, .rw⟩], fun _ => 0x6300001, false⟩,
  -- PWR_MEAS
  ⟨0x18, [], [⟨16, 16, .ro⟩, ⟨0, 16, .ro⟩], fun _ => 0x0, false⟩,
  -- PWR_CLK
  ⟨0x1C, [], [⟨31, 1, .ro⟩, ⟨30, 1, .ro⟩, ⟨17, 1, .ro⟩, ⟨16, 1, .ro⟩, ⟨8, 8, .ro⟩, ⟨4, 4, .ro⟩, ⟨2, 1, .ro⟩, ⟨1, 1, .ro⟩, ⟨0, 1, .ro⟩], fun _ => 0x0, false⟩,
  -- PWR_EVT
  ⟨0x20, [], [⟨0, 7, .w1c⟩], fun _ => 0x0, false⟩,
  -- PWR_EVT_EN
  ⟨0x24, [], [⟨0, 7, .rw⟩], fun _ => 0x7E, false⟩,
  -- PWR_WDOG
  ⟨0x28, [], [⟨16, 16, .rw⟩, ⟨0, 1, .wo⟩], fun _ => 0x1F40000, false⟩,
  -- PWR_RST
  ⟨0x2C, [], [⟨16, 16, .wo⟩, ⟨0, 1, .wo⟩], fun _ => 0x0, false⟩,
  -- PWR_UPTIME
  ⟨0x30, [], [⟨0, 32, .ro⟩], fun _ => 0x0, false⟩,
  -- PWR_AON_STAT
  ⟨0x34, [], [⟨28, 4, .ro⟩, ⟨8, 5, .w1c⟩, ⟨0, 1, .w1c⟩], fun _ => 0x0, false⟩,
  -- PWR_WAKE_EN
  ⟨0x38, [], [⟨24, 8, .rw⟩, ⟨0, 5, .rw⟩], fun _ => 0x4600001F, false⟩,
  -- PWR_CNT
  ⟨0x40, [(6, 0x4)], [⟨31, 1, .ro⟩, ⟨0, 31, .ro⟩], fun _ => 0x0, false⟩,
  -- PWR_DOM_STAT
  ⟨0x100, [(15, 0x4)], [⟨0, 32, .ro⟩], fun ix => domStatReset (ix.getD 0 0), false⟩,
  -- PWR_DOM_HOLD
  ⟨0x140, [(15, 0x4)], [⟨0, 32, .rw⟩], fun _ => 0x0, false⟩,
  -- PWR_DOM_BLOCK
  ⟨0x180, [(15, 0x4)], [⟨0, 32, .rw⟩], fun _ => 0x0, false⟩,
  -- PWR_DOM_FAIL
  ⟨0x1C0, [(15, 0x4)], [⟨0, 32, .ro⟩], fun _ => 0x0, false⟩
]

/-- The registers of BAL. -/
def rowsBAL : List RegRow := [
  -- BAL_CTRL
  ⟨0x10, [], [⟨8, 4, .rw⟩, ⟨0, 1, .rw⟩], fun _ => 0x200, false⟩,
  -- BAL_STAT
  ⟨0x14, [], [⟨31, 1, .ro⟩, ⟨30, 1, .ro⟩, ⟨24, 4, .ro⟩, ⟨20, 4, .ro⟩, ⟨8, 6, .ro⟩, ⟨0, 8, .ro⟩], fun _ => 0x0, false⟩,
  -- BAL_VMAX
  ⟨0x18, [], [⟨0, 32, .ro⟩], fun _ => 0x0, false⟩,
  -- BAL_VUSED
  ⟨0x1C, [], [⟨0, 32, .ro⟩], fun _ => 0x0, false⟩,
  -- BAL_WRITERS
  ⟨0x20, [], [⟨0, 32, .ro⟩], fun _ => 0x0, false⟩,
  -- BAL_ECAP
  ⟨0x24, [], [⟨16, 16, .ro⟩, ⟨0, 16, .ro⟩], fun _ => 0x0, false⟩,
  -- BAL_TDEST
  ⟨0x28, [], [⟨0, 32, .ro⟩], fun _ => 0x0, false⟩,
  -- BAL_CAP
  ⟨0x30, [], [⟨16, 16, .rw⟩, ⟨0, 16, .rw⟩], fun _ => 0x640384, false⟩,
  -- BAL_VCAP
  ⟨0x34, [], [⟨16, 16, .rw⟩, ⟨0, 16, .ro⟩], fun _ => 0x5140000, false⟩,
  -- BAL_VSCALE
  ⟨0x38, [], [⟨0, 16, .rw⟩], fun _ => 0x3E80, false⟩,
  -- BAL_PWR0
  ⟨0x40, [], [⟨16, 16, .rw⟩, ⟨0, 16, .rw⟩], fun _ => 0x3200028, false⟩,
  -- BAL_PWR1
  ⟨0x44, [], [⟨16, 16, .rw⟩, ⟨0, 16, .rw⟩], fun _ => 0xB404B0, false⟩,
  -- BAL_TIME
  ⟨0x48, [], [⟨16, 16, .rw⟩, ⟨0, 16, .rw⟩], fun _ => 0x1E00C8, false⟩,
  -- BAL_MARGIN
  ⟨0x4C, [], [⟨16, 16, .rw⟩, ⟨0, 16, .rw⟩], fun _ => 0xC802BC, false⟩,
  -- BAL_EVT
  ⟨0x50, [], [⟨0, 9, .w1c⟩], fun _ => 0x0, false⟩,
  -- BAL_EVT_EN
  ⟨0x54, [], [⟨0, 9, .rw⟩], fun _ => 0x1FE, false⟩,
  -- BAL_CNT
  ⟨0x60, [(5, 0x4)], [⟨31, 1, .ro⟩, ⟨0, 31, .ro⟩], fun _ => 0x0, false⟩,
  -- BAL_MECH_PHYS
  ⟨0x100, [(32, 0x10)], [⟨16, 16, .rw⟩, ⟨0, 16, .ro⟩], fun _ => 0x0, false⟩,
  -- BAL_MECH_PWR
  ⟨0x104, [(32, 0x10)], [⟨16, 16, .rw⟩, ⟨0, 16, .rw⟩], fun _ => 0x0, false⟩,
  -- BAL_MECH_RATE
  ⟨0x108, [(32, 0x10)], [⟨16, 16, .rw⟩, ⟨0, 16, .ro⟩], fun _ => 0x0, false⟩,
  -- BAL_MECH_STAT
  ⟨0x10C, [(32, 0x10)], [⟨31, 1, .ro⟩, ⟨30, 1, .ro⟩, ⟨29, 1, .ro⟩, ⟨28, 1, .ro⟩, ⟨0, 16, .ro⟩], fun _ => 0x0, false⟩
]

/-- The registers of EVT. -/
def rowsEVT : List RegRow := [
  -- EVT_CTRL
  ⟨0x10, [], [⟨1, 1, .rw⟩, ⟨0, 1, .rw⟩], fun _ => 0x3, false⟩,
  -- EVT_EVT
  ⟨0x14, [], [⟨0, 2, .w1c⟩], fun _ => 0x0, false⟩,
  -- EVT_EVT_EN
  ⟨0x18, [], [⟨0, 2, .rw⟩], fun _ => 0x3, false⟩,
  -- EVT_RAW
  ⟨0x100, [(20, 0x4)], [⟨0, 32, .ro⟩], fun _ => 0x0, false⟩,
  -- EVT_PEND
  ⟨0x180, [(20, 0x4)], [⟨0, 32, .w1c⟩], fun _ => 0x0, false⟩,
  -- EVT_CNT
  ⟨0x200, [(4, 0x4)], [⟨31, 1, .ro⟩, ⟨0, 31, .ro⟩], fun _ => 0x0, false⟩,
  -- EVT_RT_W0
  ⟨0x1000, [(640, 0x8)], [⟨24, 8, .rw⟩, ⟨20, 4, .rw⟩, ⟨19, 1, .rw⟩, ⟨18, 1, .rw⟩, ⟨17, 1, .rw⟩, ⟨16, 1, .rw⟩], fun _ => 0x0, false⟩,
  -- EVT_RT_W1
  ⟨0x1004, [(640, 0x8)], [⟨16, 11, .rw⟩, ⟨0, 11, .rw⟩], fun _ => 0x0, false⟩
]

/-- The registers of TAIL. -/
def rowsTAIL : List RegRow := [
  -- TAIL_EVT
  ⟨0x10, [], [⟨0, 9, .w1c⟩], fun _ => 0x0, false⟩,
  -- TAIL_EVT_EN
  ⟨0x14, [], [⟨0, 9, .rw⟩], fun _ => 0x1FF, false⟩,
  -- TAIL_CTRL
  ⟨0x1000, [(8, 0x100)], [⟨31, 1, .rw⟩, ⟨30, 1, .wo⟩], fun _ => 0x0, false⟩,
  -- TAIL_STAT
  ⟨0x1004, [(8, 0x100)], [⟨31, 1, .ro⟩, ⟨0, 12, .ro⟩], fun _ => 0x0, false⟩,
  -- TAIL_DROPPED
  ⟨0x1008, [(8, 0x100)], [⟨31, 1, .ro⟩, ⟨0, 31, .ro⟩], fun _ => 0x0, false⟩,
  -- TAIL_SEL
  ⟨0x1010, [(8, 0x100), (12, 0x4)], [⟨31, 1, .rw⟩, ⟨2, 24, .rw⟩], fun _ => 0x0, false⟩,
  -- TAIL_RIDX
  ⟨0x1040, [(8, 0x100)], [⟨0, 11, .rw⟩], fun _ => 0x0, false⟩,
  -- TAIL_RDATA
  ⟨0x1080, [(8, 0x100), (16, 0x4)], [⟨0, 32, .ro⟩], fun _ => 0x0, false⟩
]

/-- The registers of MBX. -/
def rowsMBX : List RegRow := [
  -- MBX_CTRL
  ⟨0x10, [], [⟨0, 1, .w1s⟩], fun _ => 0x0, false⟩,
  -- MBX_EVT
  ⟨0x14, [], [⟨0, 4, .w1c⟩], fun _ => 0x0, false⟩,
  -- MBX_EVT_EN
  ⟨0x18, [], [⟨0, 4, .rw⟩], fun _ => 0xE, false⟩,
  -- MBX_VIOLS
  ⟨0x1C, [], [⟨31, 1, .ro⟩, ⟨0, 31, .ro⟩], fun _ => 0x0, false⟩,
  -- MBX_PARTY_RST
  ⟨0x20, [], [⟨0, 1, .wo⟩], fun _ => 0x0, false⟩,
  -- MBX_BIND
  ⟨0x100, [(64, 0x4)], [⟨16, 8, .rwl⟩, ⟨8, 8, .rwl⟩], fun _ => 0xFFFF00, false⟩,
  -- MBX_CH_DATA
  ⟨0x1000, [(64, 0x100), (16, 0x4)], [⟨0, 32, .rw⟩], fun _ => 0x0, false⟩,
  -- MBX_CH_DB
  ⟨0x1040, [(64, 0x100)], [⟨0, 32, .w1c⟩], fun _ => 0x0, false⟩,
  -- MBX_CH_DB_SET
  ⟨0x1044, [(64, 0x100)], [⟨0, 32, .wo⟩], fun _ => 0x0, false⟩,
  -- MBX_CH_MASK
  ⟨0x1048, [(64, 0x100)], [⟨0, 32, .rw⟩], fun _ => 0xFFFFFFFF, false⟩,
  -- MBX_CH_STAT
  ⟨0x104C, [(64, 0x100)], [⟨31, 1, .ro⟩, ⟨30, 1, .w1c⟩, ⟨29, 1, .w1c⟩, ⟨28, 1, .ro⟩, ⟨0, 16, .ro⟩], fun _ => 0x0, false⟩,
  -- MBX_CH_VEC
  ⟨0x1050, [(64, 0x100)], [⟨16, 11, .rw⟩, ⟨0, 11, .rw⟩], fun _ => 0x0, false⟩
]

/-- The registers of FLS. -/
def rowsFLS : List RegRow := [
  -- FLS_RDCFG
  ⟨0x10, [], [⟨8, 1, .rw⟩, ⟨0, 5, .rw⟩], fun _ => 0x11F, false⟩,
  -- FLS_STAT
  ⟨0x14, [], [⟨31, 1, .ro⟩, ⟨30, 1, .w1c⟩, ⟨24, 3, .ro⟩, ⟨20, 4, .ro⟩, ⟨18, 2, .ro⟩, ⟨0, 9, .ro⟩], fun _ => 0x0, false⟩,
  -- FLS_CMD
  ⟨0x18, [], [⟨31, 1, .w1s⟩, ⟨28, 3, .rw⟩, ⟨27, 1, .rw⟩, ⟨25, 2, .rw⟩, ⟨0, 17, .rw⟩], fun _ => 0x0, false⟩,
  -- FLS_EVT
  ⟨0x1C, [], [⟨0, 8, .w1c⟩], fun _ => 0x0, false⟩,
  -- FLS_EVT_EN
  ⟨0x20, [], [⟨0, 8, .rw⟩], fun _ => 0xF6, false⟩,
  -- FLS_CNT
  ⟨0x40, [(7, 0x4)], [⟨31, 1, .ro⟩, ⟨0, 31, .ro⟩], fun _ => 0x0, false⟩,
  -- FLS_PDATA
  ⟨0x100, [(64, 0x4)], [⟨0, 32, .rw⟩], fun _ => 0x0, false⟩,
  -- FLS_ECNT
  ⟨0x1000, [(512, 0x4)], [⟨31, 1, .ro⟩, ⟨26, 4, .ro⟩, ⟨0, 24, .ro⟩], fun _ => 0x0, false⟩
]

/-- The registers of THM. -/
def rowsTHM : List RegRow := [
  -- THM_CTRL
  ⟨0x10, [], [⟨24, 8, .rw⟩, ⟨8, 16, .rw⟩, ⟨0, 1, .rw⟩], fun _ => 0x3C044C01, false⟩,
  -- THM_STAT
  ⟨0x14, [], [⟨28, 4, .ro⟩, ⟨0, 16, .ro⟩], fun _ => 0x30000000, false⟩,
  -- THM_EVT
  ⟨0x18, [], [⟨0, 9, .w1c⟩], fun _ => 0x0, false⟩,
  -- THM_EVT_EN
  ⟨0x1C, [], [⟨0, 9, .rw⟩], fun _ => 0x1FC, false⟩,
  -- THM_BAND_LIM
  ⟨0x20, [(5, 0x4)], [⟨0, 16, .rw⟩], fun ix => at_ [0x64, 0xFA, 0x190, 0x226, 0x28A] (ix.getD 0 0), false⟩,
  -- THM_HYST
  ⟨0x34, [], [⟨0, 8, .rw⟩], fun _ => 0x14, false⟩,
  -- THM_THR_MAP
  ⟨0x38, [], [⟨0, 24, .rw⟩], fun _ => 0x310000, false⟩,
  -- THM_THROTTLE
  ⟨0x3C, [], [⟨0, 8, .rw⟩], fun _ => 0x19, false⟩,
  -- THM_EXT
  ⟨0x40, [(12, 0x4)], [⟨31, 1, .ro⟩, ⟨29, 2, .rw⟩, ⟨0, 16, .ro⟩], fun _ => 0x20000000, false⟩,
  -- THM_DIE
  ⟨0x80, [(16, 0x4)], [⟨0, 16, .ro⟩], fun _ => 0x0, false⟩,
  -- THM_MECH_W0
  ⟨0x100, [(32, 0x8)], [⟨28, 4, .ro⟩, ⟨24, 4, .ro⟩, ⟨0, 16, .ro⟩], fun _ => 0x40000000, false⟩,
  -- THM_MECH_W1
  ⟨0x104, [(32, 0x8)], [⟨0, 16, .ro⟩], fun _ => 0x0, false⟩,
  -- THM_ACT
  ⟨0x200, [(64, 0x4)], [⟨16, 16, .ro⟩, ⟨14, 2, .ro⟩], fun _ => 0x0, false⟩,
  -- THM_CNT
  ⟨0x300, [(6, 0x4)], [⟨31, 1, .ro⟩, ⟨0, 31, .ro⟩], fun _ => 0x0, false⟩,
  -- THM_SRVCAL
  ⟨0x1000, [(64, 0x40), (12, 0x4)], [⟨16, 16, .rw⟩, ⟨0, 16, .rw⟩], fun _ => 0x0, false⟩
]

/-- The registers of BGW. -/
def rowsBGW : List RegRow := [
  -- BGW_CTRL
  ⟨0x10, [], [⟨24, 8, .rw⟩, ⟨16, 8, .rw⟩, ⟨0, 1, .rw⟩], fun _ => 0x8320001, false⟩,
  -- BGW_STAT
  ⟨0x14, [], [⟨24, 8, .ro⟩, ⟨16, 8, .ro⟩, ⟨8, 8, .ro⟩], fun _ => 0x0, false⟩,
  -- BGW_EVT
  ⟨0x18, [], [⟨0, 6, .w1c⟩], fun _ => 0x0, false⟩,
  -- BGW_EVT_EN
  ⟨0x1C, [], [⟨0, 6, .rw⟩], fun _ => 0x3D, false⟩,
  -- BGW_DST
  ⟨0x20, [], [⟨28, 4, .ro⟩, ⟨20, 8, .ro⟩, ⟨16, 4, .ro⟩, ⟨8, 8, .ro⟩], fun _ => 0x0, false⟩,
  -- BGW_CALQ_LO
  ⟨0x28, [], [⟨0, 32, .w1s⟩], fun _ => 0x0, false⟩,
  -- BGW_CALQ_HI
  ⟨0x2C, [], [⟨0, 32, .w1s⟩], fun _ => 0x0, false⟩,
  -- BGW_CNT
  ⟨0x40, [(6, 0x4)], [⟨31, 1, .ro⟩, ⟨0, 31, .ro⟩], fun _ => 0x0, false⟩,
  -- BGW_WEAR_W0
  ⟨0x800, [(64, 0x10)], [⟨31, 1, .ro⟩, ⟨0, 31, .ro⟩], fun _ => 0x0, false⟩,
  -- BGW_WEAR_W1
  ⟨0x804, [(64, 0x10)], [⟨16, 16, .ro⟩, ⟨8, 8, .ro⟩], fun _ => 0x0, false⟩,
  -- BGW_WEAR_W2
  ⟨0x808, [(64, 0x10)], [⟨0, 32, .ro⟩], fun _ => 0x0, false⟩,
  -- BGW_TASK_CTRL
  ⟨0x1000, [(227, 0x10)], [⟨28, 4, .ro⟩, ⟨26, 2, .ro⟩, ⟨25, 1, .ro⟩, ⟨24, 1, .rw⟩, ⟨23, 1, .rw⟩, ⟨22, 1, .rw⟩], fun ix => bgwTaskCtrlReset (ix.getD 0 0), false⟩,
  -- BGW_TASK_PERIOD
  ⟨0x1004, [(227, 0x10)], [⟨0, 32, .rw⟩], fun ix => bgwTaskPeriodReset (ix.getD 0 0), false⟩,
  -- BGW_TASK_CREDIT
  ⟨0x1008, [(227, 0x10)], [⟨0, 32, .ro⟩], fun ix => bgwTaskPeriodReset (ix.getD 0 0), false⟩,
  -- BGW_TASK_PROG
  ⟨0x100C, [(227, 0x10)], [⟨24, 8, .rw⟩, ⟨0, 24, .ro⟩], fun ix => bgwTaskProgReset (ix.getD 0 0), false⟩
]

/-- The registers of PRT. -/
def rowsPRT : List RegRow := [
  -- PRT_CTRL
  ⟨0x10, [], [⟨3, 1, .wo⟩, ⟨2, 1, .rw⟩, ⟨1, 1, .rw⟩, ⟨0, 1, .rw⟩], fun _ => 0x7, false⟩,
  -- PRT_STAT
  ⟨0x14, [], [⟨28, 4, .ro⟩, ⟨24, 4, .ro⟩, ⟨22, 2, .ro⟩, ⟨21, 1, .ro⟩, ⟨20, 1, .ro⟩, ⟨19, 1, .ro⟩, ⟨18, 1, .ro⟩, ⟨8, 8, .ro⟩, ⟨0, 8, .ro⟩], fun _ => 0x0, false⟩,
  -- PRT_HB
  ⟨0x18, [], [⟨16, 16, .rw⟩, ⟨0, 16, .ro⟩], fun _ => 0x3E80000, false⟩,
  -- PRT_EVT
  ⟨0x1C, [], [⟨0, 15, .w1c⟩], fun _ => 0x0, false⟩,
  -- PRT_EVT_EN
  ⟨0x20, [], [⟨0, 15, .rw⟩], fun _ => 0x7FFF, false⟩,
  -- PRT_MIRROR
  ⟨0x24, [], [⟨8, 24, .ro⟩, ⟨0, 8, .ro⟩], fun _ => 0x0, false⟩,
  -- PRT_HO
  ⟨0x28, [], [⟨28, 4, .ro⟩, ⟨24, 4, .ro⟩, ⟨0, 24, .ro⟩], fun _ => 0x0, false⟩,
  -- PRT_FW
  ⟨0x30, [], [⟨31, 1, .ro⟩, ⟨30, 1, .ro⟩, ⟨27, 3, .ro⟩, ⟨0, 8, .ro⟩], fun _ => 0x0, false⟩,
  -- PRT_FW_VER_ACT
  ⟨0x34, [], [⟨0, 32, .ro⟩], fun _ => 0x0, false⟩,
  -- PRT_FW_VER_INACT
  ⟨0x38, [], [⟨0, 32, .ro⟩], fun _ => 0x0, false⟩,
  -- PRT_FW_FLOOR
  ⟨0x3C, [], [⟨0, 8, .ro⟩], fun _ => 0x0, false⟩,
  -- PRT_KEY
  ⟨0x40, [], [⟨8, 2, .w1s⟩, ⟨0, 2, .ro⟩], fun _ => 0x3, false⟩,
  -- PRT_RLY
  ⟨0x44, [], [⟨31, 1, .ro⟩, ⟨30, 1, .ro⟩, ⟨24, 6, .ro⟩], fun _ => 0x0, false⟩,
  -- PRT_CNT
  ⟨0x50, [(8, 0x4)], [⟨31, 1, .ro⟩, ⟨0, 31, .ro⟩], fun _ => 0x0, false⟩
]

/-- The registers of HIF. -/
def rowsHIF : List RegRow := [
  -- HIF_CTRL
  ⟨0x10, [], [⟨8, 2, .ro⟩, ⟨4, 1, .rw⟩, ⟨0, 2, .rw⟩], fun _ => 0x13, false⟩,
  -- HIF_MODE
  ⟨0x14, [], [⟨31, 1, .ro⟩, ⟨30, 1, .ro⟩], fun _ => 0x80000000, false⟩,
  -- HIF_EVT
  ⟨0x18, [], [⟨0, 10, .w1c⟩], fun _ => 0x0, false⟩,
  -- HIF_EVT_EN
  ⟨0x1C, [], [⟨0, 10, .rw⟩], fun _ => 0x3F8, false⟩,
  -- HIF_SLOTS
  ⟨0x20, [], [⟨16, 16, .ro⟩, ⟨0, 15, .ro⟩], fun _ => 0x0, false⟩,
  -- HIF_SLOT_RES
  ⟨0x24, [], [⟨16, 14, .rw⟩, ⟨0, 14, .rw⟩], fun _ => 0x4000400, false⟩,
  -- HIF_DEFER
  ⟨0x28, [], [⟨0, 11, .ro⟩], fun _ => 0x0, false⟩,
  -- HIF_PWR
  ⟨0x30, [], [⟨3, 1, .ro⟩, ⟨0, 3, .ro⟩], fun _ => 0x0, false⟩,
  -- HIF_PCI_ID
  ⟨0x34, [], [⟨16, 16, .ro⟩, ⟨0, 16, .ro⟩], fun _ => 0x32640000, false⟩,
  -- HIF_PORT_STAT
  ⟨0x100, [(2, 0x100)], [⟨31, 1, .ro⟩, ⟨28, 3, .ro⟩, ⟨22, 6, .ro⟩, ⟨16, 3, .ro⟩, ⟨12, 4, .ro⟩, ⟨0, 8, .ro⟩], fun ix => 0x3000 + 1 + ix.getD 0 0, false⟩,
  -- HIF_PORT_QUEUES
  ⟨0x104, [(2, 0x100)], [⟨16, 10, .ro⟩, ⟨0, 10, .ro⟩], fun _ => 0x0, false⟩,
  -- HIF_PORT_CNT
  ⟨0x110, [(2, 0x100), (10, 0x4)], [⟨31, 1, .ro⟩, ⟨0, 31, .ro⟩], fun _ => 0x0, false⟩
]

/-- The registers of BUF. -/
def rowsBUF : List RegRow := [
  -- BUF_STAT
  ⟨0x10, [], [⟨24, 3, .ro⟩, ⟨16, 8, .ro⟩, ⟨0, 16, .ro⟩], fun _ => 0x0, false⟩,
  -- BUF_DIRTY
  ⟨0x14, [], [⟨0, 11, .ro⟩], fun _ => 0x0, false⟩,
  -- BUF_LAYOUT
  ⟨0x18, [], [⟨0, 1, .ro⟩], fun _ => 0x0, false⟩,
  -- BUF_REFI
  ⟨0x20, [(6, 0x4)], [⟨0, 16, .rw⟩], fun ix => at_ [0x1E78, 0x1E78, 0x1E78, 0xF3C, 0x79E, 0x79E] (ix.getD 0 0), false⟩,
  -- BUF_EVT
  ⟨0x40, [], [⟨0, 3, .w1c⟩], fun _ => 0x0, false⟩,
  -- BUF_EVT_EN
  ⟨0x44, [], [⟨0, 3, .rw⟩], fun _ => 0x6, false⟩
]

/-- The registers of CCH. -/
def rowsCCH : List RegRow := [
  -- CCH_CTRL
  ⟨0x10, [], [⟨31, 1, .wo⟩, ⟨1, 1, .rw⟩, ⟨0, 1, .rw⟩], fun _ => 0x2, false⟩,
  -- CCH_STAT
  ⟨0x14, [], [⟨30, 2, .ro⟩, ⟨29, 1, .ro⟩, ⟨28, 1, .ro⟩, ⟨0, 15, .ro⟩], fun _ => 0x0, false⟩,
  -- CCH_EVT
  ⟨0x18, [], [⟨0, 5, .w1c⟩], fun _ => 0x0, false⟩,
  -- CCH_EVT_EN
  ⟨0x1C, [], [⟨0, 5, .rw⟩], fun _ => 0x17, false⟩,
  -- CCH_GEOM
  ⟨0x20, [], [⟨16, 16, .ro⟩, ⟨0, 16, .ro⟩], fun _ => 0x400FFFF, false⟩,
  -- CCH_WAYMASK
  ⟨0x40, [(8, 0x4)], [⟨0, 16, .rw⟩], fun ix => at_ [0xFFFF, 0xFFFF, 0x0, 0xC000, 0xC000, 0x3000, 0x0, 0x0] (ix.getD 0 0), false⟩,
  -- CCH_PF_CTRL
  ⟨0x60, [], [⟨24, 8, .rw⟩, ⟨16, 8, .rw⟩, ⟨12, 4, .rw⟩], fun _ => 0x40082000, false⟩,
  -- CCH_PF_STAT
  ⟨0x64, [], [⟨0, 9, .ro⟩], fun _ => 0x0, false⟩,
  -- CCH_CNT
  ⟨0x100, [(10, 0x4)], [⟨31, 1, .ro⟩, ⟨0, 31, .ro⟩], fun _ => 0x0, false⟩
]

/-- The registers of MEP. -/
def rowsMEP : List RegRow := [
  -- MEP_CTRL
  ⟨0x10, [], [⟨8, 8, .rw⟩, ⟨1, 1, .rw⟩, ⟨0, 1, .w1s⟩], fun _ => 0x1802, false⟩,
  -- MEP_EVT
  ⟨0x14, [], [⟨0, 9, .w1c⟩], fun _ => 0x0, false⟩,
  -- MEP_EVT_EN
  ⟨0x18, [], [⟨0, 9, .rw⟩], fun _ => 0x1FE, false⟩,
  -- MEP_RGN
  ⟨0x20, [(4, 0x4)], [⟨30, 2, .ro⟩, ⟨28, 2, .rwl⟩, ⟨0, 16, .ro⟩], fun ix => at_ [0x0, 0x0, 0x10000000, 0x10000000] (ix.getD 0 0), false⟩,
  -- MEP_BANK_CODE
  ⟨0x30, [(2, 0x4)], [⟨0, 32, .rwl⟩], fun ix => at_ [0x5555AAAA, 0x0] (ix.getD 0 0), false⟩,
  -- MEP_CE_TOTAL
  ⟨0x40, [], [⟨31, 1, .ro⟩, ⟨0, 31, .ro⟩], fun _ => 0x0, false⟩,
  -- MEP_UE_TOTAL
  ⟨0x44, [], [⟨31, 1, .ro⟩, ⟨0, 31, .ro⟩], fun _ => 0x0, false⟩,
  -- MEP_POISON_TOTAL
  ⟨0x48, [], [⟨31, 1, .ro⟩, ⟨0, 31, .ro⟩], fun _ => 0x0, false⟩,
  -- MEP_CELOG_STAT
  ⟨0x4C, [], [⟨31, 1, .w1c⟩, ⟨30, 1, .wo⟩, ⟨0, 7, .ro⟩], fun _ => 0x0, false⟩,
  -- MEP_FLIP_CTRL
  ⟨0x80, [], [⟨31, 1, .w1s⟩, ⟨30, 1, .w1c⟩, ⟨29, 1, .rw⟩, ⟨28, 1, .rw⟩, ⟨23, 5, .rw⟩, ⟨20, 3, .rw⟩, ⟨0, 8, .rw⟩], fun _ => 0x0, false⟩,
  -- MEP_FLIP_DATA_LO
  ⟨0x84, [], [⟨0, 32, .rw⟩], fun _ => 0x0, false⟩,
  -- MEP_FLIP_DATA_HI
  ⟨0x88, [], [⟨0, 32, .rw⟩], fun _ => 0x0, false⟩,
  -- MEP_FLIP_ADDR
  ⟨0x8C, [], [⟨6, 26, .rw⟩], fun _ => 0x0, false⟩,
  -- MEP_RET_CMD
  ⟨0x100, [], [⟨31, 1, .w1s⟩, ⟨0, 20, .rw⟩], fun _ => 0x0, false⟩,
  -- MEP_RET_STAT
  ⟨0x104, [], [⟨31, 1, .ro⟩, ⟨30, 1, .w1c⟩, ⟨16, 8, .ro⟩, ⟨0, 9, .ro⟩], fun _ => 0x0, false⟩,
  -- MEP_CELOG_W0
  ⟨0x1000, [(64, 0x10)], [⟨31, 1, .w1c⟩, ⟨30, 1, .ro⟩, ⟨29, 1, .ro⟩, ⟨24, 5, .ro⟩, ⟨16, 8, .ro⟩, ⟨8, 8, .ro⟩, ⟨0, 8, .ro⟩], fun _ => 0x0, false⟩,
  -- MEP_CELOG_W1
  ⟨0x1004, [(64, 0x10)], [⟨0, 32, .ro⟩], fun _ => 0x0, false⟩,
  -- MEP_CELOG_W2
  ⟨0x1008, [(64, 0x10)], [⟨0, 32, .ro⟩], fun _ => 0x0, false⟩,
  -- MEP_CELOG_W3
  ⟨0x100C, [(64, 0x10)], [⟨0, 32, .ro⟩], fun _ => 0x0, false⟩,
  -- MEP_RET
  ⟨0x2000, [(256, 0x4)], [⟨31, 1, .ro⟩, ⟨0, 20, .ro⟩], fun _ => 0x0, false⟩
]

/-- The registers of TTH. -/
def rowsTTH : List RegRow := [
  -- TTH_CTRL
  ⟨0x10, [], [⟨9, 1, .wo⟩, ⟨8, 1, .rw⟩, ⟨7, 1, .rw⟩, ⟨6, 1, .wo⟩, ⟨5, 1, .rw⟩, ⟨1, 4, .rw⟩, ⟨0, 1, .rw⟩], fun _ => 0xBF, false⟩,
  -- TTH_LINK_STAT
  ⟨0x14, [], [⟨28, 4, .ro⟩, ⟨27, 1, .ro⟩, ⟨26, 1, .ro⟩, ⟨20, 4, .ro⟩, ⟨19, 1, .ro⟩, ⟨8, 8, .ro⟩, ⟨4, 4, .ro⟩, ⟨0, 4, .ro⟩], fun _ => 0x0, false⟩,
  -- TTH_EVT
  ⟨0x18, [], [⟨0, 11, .w1c⟩], fun _ => 0x0, false⟩,
  -- TTH_EVT_EN
  ⟨0x1C, [], [⟨0, 11, .rw⟩], fun _ => 0x7FF, false⟩,
  -- TTH_CREDIT
  ⟨0x20, [], [⟨8, 8, .ro⟩, ⟨0, 8, .ro⟩], fun _ => 0x0, false⟩,
  -- TTH_HB
  ⟨0x24, [], [⟨16, 16, .rw⟩, ⟨0, 16, .ro⟩], fun _ => 0x3E800C8, false⟩,
  -- TTH_TOKEN
  ⟨0x28, [], [⟨22, 2, .ro⟩, ⟨21, 1, .ro⟩, ⟨20, 1, .ro⟩, ⟨18, 2, .wo⟩, ⟨16, 2, .ro⟩, ⟨0, 16, .ro⟩], fun _ => 0x0, false⟩,
  -- TTH_WINH
  ⟨0x2C, [], [⟨8, 8, .rw⟩, ⟨0, 8, .ro⟩], fun _ => 0x0, false⟩,
  -- TTH_TSB_CMD
  ⟨0x30, [], [⟨31, 1, .w1s⟩, ⟨24, 4, .rw⟩, ⟨16, 8, .rw⟩, ⟨0, 16, .rw⟩], fun _ => 0x0, false⟩,
  -- TTH_TSB_STAT
  ⟨0x34, [], [⟨8, 8, .ro⟩, ⟨0, 8, .ro⟩], fun _ => 0x0, false⟩,
  -- TTH_SIDEBAND
  ⟨0x38, [], [⟨2, 1, .w1c⟩, ⟨1, 1, .w1c⟩, ⟨0, 1, .ro⟩], fun _ => 0x0, false⟩,
  -- TTH_WIT_PEER
  ⟨0x3C, [], [⟨0, 32, .ro⟩], fun _ => 0x0, false⟩,
  -- TTH_WIT_AGE
  ⟨0x40, [], [⟨0, 16, .ro⟩], fun _ => 0x0, false⟩,
  -- TTH_FEC_CORR
  ⟨0x50, [(5, 0x4)], [⟨31, 1, .ro⟩, ⟨0, 31, .ro⟩], fun _ => 0x0, false⟩,
  -- TTH_FEC_UNC
  ⟨0x64, [], [⟨31, 1, .ro⟩, ⟨0, 31, .ro⟩], fun _ => 0x0, false⟩,
  -- TTH_CRC_ERR
  ⟨0x68, [], [⟨31, 1, .ro⟩, ⟨0, 31, .ro⟩], fun _ => 0x0, false⟩,
  -- TTH_RETRAINS
  ⟨0x6C, [], [⟨31, 1, .ro⟩, ⟨0, 31, .ro⟩], fun _ => 0x0, false⟩,
  -- TTH_LATE
  ⟨0x70, [], [⟨31, 1, .ro⟩, ⟨0, 31, .ro⟩], fun _ => 0x0, false⟩,
  -- TTH_TSB_DATA
  ⟨0x100, [(8, 0x4)], [⟨0, 32, .rw⟩], fun _ => 0x0, false⟩,
  -- TTH_IDENT
  ⟨0x200, [(16, 0x4)], [⟨0, 32, .ro⟩], fun _ => 0x0, false⟩
]

/-- The registers of ACT. -/
def rowsACT : List RegRow := [
  -- ACT_DET_PWR
  ⟨0x800, [], [⟨16, 8, .rw⟩, ⟨8, 4, .ro⟩, ⟨4, 4, .rw⟩, ⟨0, 4, .rw⟩], fun _ => 0x1000F0, false⟩,
  -- ACT_DET_CFG
  ⟨0x804, [], [⟨24, 1, .rw⟩, ⟨16, 8, .rw⟩, ⟨0, 16, .rw⟩], fun _ => 0x11403E8, false⟩,
  -- ACT_DET_EVT
  ⟨0x808, [], [⟨0, 7, .w1c⟩], fun _ => 0x0, false⟩,
  -- ACT_DET_EVT_EN
  ⟨0x80C, [], [⟨0, 7, .rw⟩], fun _ => 0x5F, false⟩,
  -- ACT_TGT_LO
  ⟨0x840, [(8, 0x8)], [⟨0, 32, .rw⟩], fun ix => at_ [0x1010, 0x102010, 0xF0F01010, 0x40C1810, 0x2081410, 0x6141C10, 0x40C10, 0xA141810] (ix.getD 1 0), false⟩,
  -- ACT_TGT_HI
  ⟨0x844, [(8, 0x8)], [⟨0, 8, .rw⟩], fun ix => at_ [0x0, 0x0, 0x0, 0x0, 0x0, 0x0, 0x0, 0x2] (ix.getD 1 0), false⟩,
  -- ACT_DL_CTRL
  ⟨0x1000, [(4, 0x400)], [⟨24, 4, .rw⟩, ⟨19, 5, .rw⟩, ⟨16, 3, .rw⟩, ⟨12, 4, .rw⟩, ⟨11, 1, .rw⟩, ⟨10, 1, .rw⟩, ⟨7, 3, .rw⟩], fun _ => 0x9F80, false⟩,
  -- ACT_DL_RATIO
  ⟨0x1004, [(4, 0x400)], [⟨0, 24, .rw⟩], fun _ => 0x11999A, false⟩,
  -- ACT_DL_TLOOP
  ⟨0x1008, [(4, 0x400)], [⟨16, 16, .ro⟩, ⟨12, 4, .rw⟩, ⟨8, 4, .rw⟩], fun _ => 0x4900, false⟩,
  -- ACT_DL_DEF_THR
  ⟨0x100C, [(4, 0x400)], [⟨24, 8, .rw⟩, ⟨16, 8, .rw⟩, ⟨8, 8, .rw⟩, ⟨0, 8, .rw⟩], fun _ => 0xC600840, false⟩,
  -- ACT_DL_SM_CFG
  ⟨0x1010, [(4, 0x400)], [⟨16, 8, .rw⟩, ⟨8, 4, .rw⟩, ⟨0, 4, .rw⟩], fun _ => 0x80603, false⟩,
  -- ACT_DL_SM_STAT
  ⟨0x1014, [(4, 0x400)], [⟨31, 1, .ro⟩, ⟨30, 1, .ro⟩, ⟨16, 8, .ro⟩, ⟨12, 4, .ro⟩, ⟨8, 4, .ro⟩], fun _ => 0x0, false⟩,
  -- ACT_DL_STAT
  ⟨0x1018, [(4, 0x400)], [⟨28, 4, .ro⟩, ⟨24, 4, .ro⟩, ⟨16, 8, .ro⟩, ⟨0, 16, .ro⟩], fun _ => 0x0, false⟩,
  -- ACT_DL_CNT
  ⟨0x1040, [(4, 0x400), (6, 0x4)], [⟨31, 1, .ro⟩, ⟨0, 31, .ro⟩], fun _ => 0x0, false⟩,
  -- ACT_DL_TAP
  ⟨0x1080, [(4, 0x400), (16, 0x4)], [⟨0, 10, .ro⟩], fun _ => 0x0, false⟩,
  -- ACT_DL_RETRY
  ⟨0x1020, [(4, 0x400)], [⟨31, 1, .w1s⟩, ⟨24, 1, .rw⟩, ⟨20, 4, .rw⟩, ⟨19, 1, .rw⟩, ⟨16, 3, .rw⟩, ⟨15, 1, .rw⟩, ⟨14, 1, .rw⟩, ⟨13, 1, .rw⟩, ⟨8, 5, .rw⟩], fun _ => 0x0, false⟩,
  -- ACT_DL_RETRY_STAT
  ⟨0x1024, [(4, 0x400)], [⟨31, 1, .ro⟩, ⟨30, 1, .w1c⟩, ⟨16, 8, .ro⟩, ⟨8, 8, .ro⟩], fun _ => 0x0, false⟩,
  -- ACT_DL_PIN
  ⟨0x1028, [(4, 0x400), (2, 0x4)], [⟨31, 1, .w1s⟩, ⟨30, 1, .wo⟩, ⟨16, 14, .rw⟩, ⟨0, 13, .rw⟩], fun _ => 0x0, false⟩,
  -- ACT_FMT_CTRL
  ⟨0x200, [], [⟨24, 8, .rw⟩, ⟨16, 8, .rw⟩, ⟨12, 4, .rw⟩, ⟨8, 4, .rw⟩, ⟨2, 1, .rw⟩, ⟨1, 1, .rw⟩, ⟨0, 1, .rw⟩], fun _ => 0x60201207, false⟩,
  -- ACT_FMT_EVT
  ⟨0x204, [], [⟨0, 9, .w1c⟩], fun _ => 0x0, false⟩,
  -- ACT_FMT_EVT_EN
  ⟨0x208, [], [⟨0, 9, .rw⟩], fun _ => 0x1C4, false⟩,
  -- ACT_FMT_LAST
  ⟨0x20C, [], [⟨24, 8, .ro⟩, ⟨20, 4, .ro⟩, ⟨16, 4, .ro⟩, ⟨0, 16, .ro⟩], fun _ => 0x0, false⟩,
  -- ACT_FMT_LAST_TRK
  ⟨0x210, [], [⟨0, 32, .ro⟩], fun _ => 0x0, false⟩,
  -- ACT_FMT_CNT
  ⟨0x240, [(8, 0x4)], [⟨31, 1, .ro⟩, ⟨0, 31, .ro⟩], fun _ => 0x0, false⟩,
  -- ACT_SRV_CTRL
  ⟨0x400, [], [⟨28, 4, .rw⟩, ⟨24, 4, .rw⟩, ⟨20, 4, .rw⟩, ⟨16, 4, .rw⟩, ⟨8, 8, .rw⟩], fun _ => 0x32810800, false⟩,
  -- ACT_SRV_LIM
  ⟨0x404, [], [⟨24, 8, .rw⟩, ⟨16, 8, .rw⟩, ⟨8, 8, .rw⟩, ⟨0, 8, .rw⟩], fun _ => 0x30181820, false⟩,
  -- ACT_SRV_SHOCK
  ⟨0x408, [], [⟨16, 16, .rw⟩, ⟨0, 16, .rw⟩], fun _ => 0xC80019, false⟩,
  -- ACT_SRV_STAT
  ⟨0x40C, [], [⟨28, 4, .ro⟩, ⟨24, 4, .ro⟩, ⟨22, 2, .ro⟩, ⟨10, 10, .ro⟩, ⟨0, 8, .ro⟩], fun _ => 0x0, false⟩,
  -- ACT_SRV_EVT
  ⟨0x410, [], [⟨0, 6, .w1c⟩], fun _ => 0x0, false⟩,
  -- ACT_SRV_EVT_EN
  ⟨0x414, [], [⟨0, 6, .rw⟩], fun _ => 0x2A, false⟩,
  -- ACT_WS_INH
  ⟨0x418, [], [⟨8, 4, .rw⟩, ⟨4, 4, .ro⟩, ⟨0, 4, .ro⟩], fun _ => 0x0, false⟩,
  -- ACT_WS_EVT
  ⟨0x41C, [], [⟨0, 7, .w1c⟩], fun _ => 0x0, false⟩,
  -- ACT_WS_EVT_EN
  ⟨0x420, [], [⟨0, 7, .rw⟩], fun _ => 0x78, false⟩,
  -- ACT_SL_POS
  ⟨0x480, [(4, 0x20)], [⟨8, 24, .ro⟩, ⟨0, 8, .ro⟩], fun _ => 0x0, false⟩,
  -- ACT_SL_TGT
  ⟨0x484, [(4, 0x20)], [⟨8, 24, .rw⟩, ⟨0, 8, .rw⟩], fun _ => 0x0, false⟩,
  -- ACT_SL_CFG
  ⟨0x488, [(4, 0x20)], [⟨28, 4, .rw⟩, ⟨27, 1, .rw⟩, ⟨26, 1, .rw⟩], fun _ => 0x0, false⟩,
  -- ACT_SL_PES
  ⟨0x48C, [(4, 0x20)], [⟨16, 16, .ro⟩, ⟨0, 16, .ro⟩], fun _ => 0x0, false⟩,
  -- ACT_SL_INH
  ⟨0x490, [(4, 0x20)], [⟨24, 8, .ro⟩, ⟨16, 8, .ro⟩, ⟨8, 8, .ro⟩, ⟨0, 8, .ro⟩], fun _ => 0x0, false⟩,
  -- ACT_HD_OFS
  ⟨0x600, [(12, 0x8)], [⟨8, 24, .rw⟩, ⟨0, 8, .rw⟩], fun _ => 0x0, false⟩,
  -- ACT_HD_MA
  ⟨0x604, [(12, 0x8)], [⟨0, 16, .ro⟩], fun _ => 0x0, false⟩,
  -- ACT_WS_CNT
  ⟨0x700, [(10, 0x4)], [⟨31, 1, .ro⟩, ⟨0, 31, .ro⟩], fun _ => 0x0, false⟩,
  -- ACT_LAD
  ⟨0x300, [(16, 0x4)], [⟨28, 4, .rw⟩, ⟨24, 4, .rw⟩, ⟨20, 4, .rw⟩, ⟨19, 1, .rw⟩, ⟨16, 3, .rw⟩, ⟨15, 1, .rw⟩, ⟨14, 1, .rw⟩, ⟨13, 1, .rw⟩, ⟨8, 5, .rw⟩, ⟨4, 4, .rw⟩, ⟨3, 1, .rw⟩, ⟨2, 1, .rw⟩], fun ix => at_ [0x100000C, 0x1200403C, 0x800C, 0x38004, 0x58004, 0x78004, 0xA80C, 0xB00C, 0xB80C, 0x20000000, 0x30000000, 0x40000000, 0xF0000000, 0xF0000000, 0xF0000000, 0xF0000000] (ix.getD 1 0), false⟩,
  -- ACT_TAPTAB
  ⟨0x4000, [(384, 0x40), (8, 0x4)], [⟨16, 10, .rw⟩, ⟨0, 10, .rw⟩], fun _ => 0x0, false⟩,
  ⟨0x4020, [(384, 0x40), (2, 0x4)], [⟨0, 32, .rw⟩], fun _ => 0x0, false⟩,
  ⟨0x4028, [(384, 0x40)], [⟨0, 8, .rw⟩], fun _ => 0x0, false⟩,
  ⟨0x402C, [(384, 0x40), (2, 0x4)], [⟨0, 32, .rw⟩], fun _ => 0x0, false⟩,
  ⟨0x4034, [(384, 0x40), (3, 0x4)], [], fun _ => 0x0, false⟩
]

/-- The registers of LDC. -/
def rowsLDC : List RegRow := [
  -- LDC_CTRL
  ⟨0xC010, [], [⟨16, 6, .rw⟩, ⟨8, 4, .rw⟩, ⟨1, 1, .rw⟩, ⟨0, 1, .rw⟩], fun _ => 0x200F03, false⟩,
  -- LDC_WEIGHT
  ⟨0xC014, [], [⟨0, 32, .rw⟩], fun _ => 0x2020408, false⟩,
  -- LDC_STAT
  ⟨0xC018, [], [⟨31, 1, .ro⟩, ⟨30, 1, .ro⟩, ⟨16, 8, .ro⟩, ⟨8, 8, .ro⟩, ⟨0, 2, .ro⟩], fun _ => 0x0, false⟩,
  -- LDC_EVT
  ⟨0xC01C, [], [⟨0, 2, .w1c⟩], fun _ => 0x0, false⟩,
  -- LDC_EVT_EN
  ⟨0xC020, [], [⟨0, 2, .rw⟩], fun _ => 0x3, false⟩,
  -- LDC_SLOTS
  ⟨0xC024, [], [⟨16, 10, .ro⟩, ⟨0, 10, .ro⟩], fun _ => 0x2000200, false⟩,
  -- LDC_QUEUE
  ⟨0xC028, [], [⟨0, 32, .ro⟩], fun _ => 0x0, false⟩,
  -- LDC_CW_OK
  ⟨0xC030, [], [⟨31, 1, .ro⟩, ⟨0, 31, .ro⟩], fun _ => 0x0, false⟩,
  -- LDC_CW_FAIL
  ⟨0xC034, [], [⟨31, 1, .ro⟩, ⟨0, 31, .ro⟩], fun _ => 0x0, false⟩,
  -- LDC_MEM_ERRS
  ⟨0xC038, [], [⟨31, 1, .ro⟩, ⟨0, 31, .ro⟩], fun _ => 0x0, false⟩,
  -- LDC_ITER_SUM_LO
  ⟨0xC040, [], [⟨0, 32, .ro⟩], fun _ => 0x0, false⟩,
  -- LDC_ITER_SUM_HI
  ⟨0xC044, [], [⟨31, 1, .ro⟩, ⟨0, 31, .ro⟩], fun _ => 0x0, false⟩
]

/-- The registers of BRD. -/
def rowsBRD : List RegRow := [
  -- BRD_CTRL
  ⟨0x10, [], [⟨1, 1, .rw⟩, ⟨0, 1, .rw⟩], fun _ => 0x3, false⟩,
  -- BRD_STAT
  ⟨0x14, [], [⟨31, 1, .ro⟩, ⟨16, 8, .ro⟩, ⟨8, 8, .ro⟩, ⟨0, 8, .ro⟩], fun _ => 0x0, false⟩,
  -- BRD_EVT
  ⟨0x18, [], [⟨0, 8, .w1c⟩], fun _ => 0x0, false⟩,
  -- BRD_EVT_EN
  ⟨0x1C, [], [⟨0, 8, .rw⟩], fun _ => 0xBB, false⟩,
  -- BRD_SW_MASK_LO
  ⟨0x20, [], [⟨0, 32, .rw⟩], fun _ => 0x0, false⟩,
  -- BRD_SW_MASK_HI
  ⟨0x24, [], [⟨0, 32, .rw⟩], fun _ => 0x0, false⟩,
  -- BRD_SW_CTRL
  ⟨0x28, [], [⟨31, 1, .w1s⟩, ⟨0, 7, .ro⟩], fun _ => 0x0, false⟩,
  -- BRD_OVERRUNS
  ⟨0x30, [], [⟨31, 1, .ro⟩, ⟨0, 31, .ro⟩], fun _ => 0x0, false⟩,
  -- BRD_CREDIT_WAITS
  ⟨0x34, [], [⟨31, 1, .ro⟩, ⟨0, 31, .ro⟩], fun _ => 0x0, false⟩,
  -- BRD_FE_COUNT
  ⟨0x38, [], [⟨31, 1, .ro⟩, ⟨0, 31, .ro⟩], fun _ => 0x0, false⟩,
  -- BRD_ITERATIONS_LO
  ⟨0x40, [], [⟨0, 32, .ro⟩], fun _ => 0x0, false⟩,
  -- BRD_ITERATIONS_HI
  ⟨0x44, [], [⟨31, 1, .ro⟩, ⟨0, 31, .ro⟩], fun _ => 0x0, false⟩,
  -- BRD_SET_VALID
  ⟨0x100, [(48, 0x4)], [⟨0, 32, .rw⟩], fun ix => if ix.getD 1 0 % 8 = 7 then 0x80000000 else 0, false⟩,
  -- BRD_SL_CTRL
  ⟨0x1000, [(64, 0x40)], [⟨28, 4, .ro⟩, ⟨23, 1, .ro⟩, ⟨18, 2, .ro⟩, ⟨17, 1, .rw⟩, ⟨0, 2, .rw⟩], fun ix => brdSlCtrlReset (ix.getD 1 0), false⟩,
  -- BRD_SL_TIME
  ⟨0x1004, [(64, 0x40)], [⟨16, 16, .rw⟩, ⟨0, 16, .rw⟩], fun ix => brdSlTimeReset (ix.getD 1 0), false⟩,
  -- BRD_SL_REF
  ⟨0x1008, [(64, 0x40)], [⟨0, 32, .rw⟩], fun _ => 0x0, false⟩,
  -- BRD_SL_MAN
  ⟨0x100C, [(64, 0x40)], [⟨0, 32, .rw⟩], fun _ => 0x0, false⟩,
  -- BRD_SL_OMAX
  ⟨0x1010, [(64, 0x40)], [⟨0, 32, .rw⟩], fun _ => 0x7FFFFFFF, false⟩,
  -- BRD_SL_OMIN
  ⟨0x1014, [(64, 0x40)], [⟨0, 32, .rw⟩], fun _ => 0x80000000, false⟩,
  -- BRD_SL_FE
  ⟨0x1018, [(64, 0x40)], [⟨16, 16, .rw⟩, ⟨8, 8, .rw⟩, ⟨4, 2, .rw⟩, ⟨0, 1, .wo⟩], fun ix => brdSlFeReset (ix.getD 1 0), false⟩,
  -- BRD_SL_SET
  ⟨0x101C, [(64, 0x40)], [⟨8, 8, .rw⟩, ⟨0, 8, .ro⟩], fun _ => 0xFFFF, false⟩,
  -- BRD_SL_STAT
  ⟨0x1020, [(64, 0x40)], [⟨31, 1, .ro⟩, ⟨30, 1, .ro⟩, ⟨29, 1, .ro⟩, ⟨28, 1, .ro⟩, ⟨24, 4, .ro⟩, ⟨16, 8, .ro⟩, ⟨0, 16, .ro⟩], fun ix => brdSlStatReset (ix.getD 1 0), false⟩,
  -- BRD_SL_OUT
  ⟨0x1024, [(64, 0x40)], [⟨0, 32, .ro⟩], fun _ => 0x0, false⟩,
  -- BRD_SL_INTEG
  ⟨0x1028, [(64, 0x40)], [⟨0, 32, .ro⟩], fun _ => 0x0, false⟩,
  -- BRD_SL_ERR
  ⟨0x102C, [(64, 0x40)], [⟨0, 32, .ro⟩], fun _ => 0x0, false⟩,
  -- BRD_SL_SAFE_OUT
  ⟨0x1030, [(64, 0x40)], [⟨0, 32, .rw⟩], fun _ => 0x0, false⟩,
  -- BRD_COEF
  ⟨0x4000, [(64, 0x40), (16, 0x4)], [⟨0, 32, .rw⟩], fun ix => brdDefaultCoef (ix.getD 2 0), false⟩,
  -- BRD_STORE
  ⟨0x8000, [(1536, 0x40), (16, 0x4)], [⟨0, 32, .rw⟩], fun ix => if ix.getD 1 0 % 256 = 255 then brdDefaultCoef (ix.getD 2 0) else 0, false⟩
]

/-- The registers of SPN and AST. -/
def rowsSPN : List RegRow := [
  -- SPN_CTRL
  ⟨0x10, [], [⟨10, 1, .rw⟩, ⟨9, 1, .rw⟩, ⟨4, 2, .rw⟩, ⟨0, 2, .rw⟩], fun _ => 0x600, false⟩,
  -- SPN_STAT
  ⟨0x14, [], [⟨28, 4, .ro⟩, ⟨25, 3, .ro⟩, ⟨22, 3, .ro⟩, ⟨20, 2, .ro⟩, ⟨19, 1, .ro⟩, ⟨18, 1, .ro⟩, ⟨17, 1, .ro⟩, ⟨8, 8, .ro⟩], fun _ => 0x0, false⟩,
  -- SPN_SPEED
  ⟨0x18, [], [⟨0, 32, .ro⟩], fun _ => 0x0, false⟩,
  -- SPN_ZC
  ⟨0x1C, [], [⟨0, 32, .ro⟩], fun _ => 0x0, false⟩,
  -- SPN_MOTOR
  ⟨0x20, [], [⟨24, 8, .rw⟩, ⟨0, 16, .rw⟩], fun _ => 0x0, false⟩,
  -- SPN_START
  ⟨0x24, [], [⟨24, 8, .rw⟩, ⟨16, 8, .rw⟩, ⟨8, 8, .rw⟩, ⟨4, 4, .rw⟩], fun _ => 0x141E3C30, false⟩,
  -- SPN_START_AMP
  ⟨0x28, [], [⟨16, 16, .rw⟩, ⟨0, 16, .rw⟩], fun _ => 0x199A2666, false⟩,
  -- SPN_RAMP
  ⟨0x2C, [], [⟨16, 16, .rw⟩, ⟨0, 16, .rw⟩], fun _ => 0x258000A, false⟩,
  -- SPN_OBS
  ⟨0x30, [], [⟨24, 8, .rw⟩, ⟨20, 4, .rw⟩, ⟨0, 16, .rw⟩], fun _ => 0x193003E8, false⟩,
  -- SPN_LIM
  ⟨0x34, [], [⟨16, 16, .rw⟩, ⟨8, 8, .rw⟩], fun _ => 0x12C3200, false⟩,
  -- SPN_LIM2
  ⟨0x38, [], [⟨16, 16, .rw⟩, ⟨0, 16, .rw⟩], fun _ => 0x9600258, false⟩,
  -- SPN_BUS
  ⟨0x3C, [], [⟨16, 16, .ro⟩], fun _ => 0x0, false⟩,
  -- SPN_CHOP
  ⟨0x40, [], [⟨31, 1, .ro⟩, ⟨30, 1, .wo⟩, ⟨29, 1, .wo⟩, ⟨0, 8, .ro⟩], fun _ => 0x0, false⟩,
  -- SPN_EVT
  ⟨0x44, [], [⟨0, 9, .w1c⟩], fun _ => 0x0, false⟩,
  -- SPN_EVT_EN
  ⟨0x48, [], [⟨0, 9, .rw⟩], fun _ => 0x11F, false⟩,
  -- SPN_CNT
  ⟨0x50, [(8, 0x4)], [⟨31, 1, .ro⟩, ⟨0, 31, .ro⟩], fun _ => 0x0, false⟩,
  -- SPN_ADV
  ⟨0x100, [(32, 0x4)], [⟨0, 10, .rw⟩], fun _ => 0x0, false⟩,
  -- SPN_SINE
  ⟨0x1000, [(512, 0x4)], [⟨16, 16, .rw⟩, ⟨0, 16, .rw⟩], fun ix => sineReset (2 * ix.getD 1 0) + 65536 * sineReset (2 * ix.getD 1 0 + 1), false⟩,
  -- SPN_SHELF_CTRL
  ⟨0x3F00, [], [⟨24, 8, .rw⟩, ⟨16, 8, .rw⟩, ⟨8, 8, .ro⟩, ⟨0, 8, .ro⟩], fun _ => 0x4040000, true⟩,
  -- SPN_SHELF_THR
  ⟨0x3F04, [], [⟨16, 16, .rw⟩, ⟨0, 16, .rw⟩], fun _ => 0x5640528, true⟩,
  -- SPN_SHELF_BUS
  ⟨0x3F08, [], [⟨31, 1, .ro⟩, ⟨0, 16, .rw⟩], fun _ => 0x4EC, true⟩,
  -- AST_CTRL
  ⟨0x4010, [], [⟨24, 2, .ro⟩, ⟨0, 24, .rw⟩], fun _ => 0xFFFFFF, false⟩,
  -- AST_LIM
  ⟨0x4014, [], [⟨24, 8, .rw⟩, ⟨16, 8, .rw⟩, ⟨8, 8, .rw⟩], fun _ => 0xA191000, false⟩,
  -- AST_EVT
  ⟨0x4018, [], [⟨0, 7, .w1c⟩], fun _ => 0x0, false⟩,
  -- AST_EVT_EN
  ⟨0x401C, [], [⟨0, 7, .rw⟩], fun _ => 0x7E, false⟩,
  -- AST_CALCMD
  ⟨0x4020, [], [⟨31, 1, .w1s⟩, ⟨16, 5, .rw⟩, ⟨8, 3, .rw⟩, ⟨0, 2, .ro⟩], fun _ => 0x0, false⟩,
  -- AST_CAL_W0
  ⟨0x4400, [(24, 0x60), (6, 0x10)], [⟨0, 16, .rw⟩], fun _ => 0x0, false⟩,
  -- AST_CAL_W1
  ⟨0x4404, [(24, 0x60), (6, 0x10)], [⟨0, 16, .rw⟩], fun _ => 0x0, false⟩,
  -- AST_CAL_W2
  ⟨0x4408, [(24, 0x60), (6, 0x10)], [⟨16, 16, .rw⟩, ⟨0, 16, .rw⟩], fun _ => 0x0, false⟩,
  -- AST_CAL_W3
  ⟨0x440C, [(24, 0x60), (6, 0x10)], [⟨0, 16, .rw⟩], fun _ => 0x0, false⟩,
  -- AST_WEAR_W0
  ⟨0x5000, [(24, 0x10)], [⟨31, 1, .ro⟩, ⟨0, 31, .ro⟩], fun _ => 0x0, false⟩,
  -- AST_WEAR_W1
  ⟨0x5004, [(24, 0x10)], [⟨31, 1, .ro⟩, ⟨0, 31, .ro⟩], fun _ => 0x0, false⟩,
  -- AST_WEAR_W2
  ⟨0x5008, [(24, 0x10)], [⟨31, 1, .ro⟩, ⟨16, 8, .ro⟩, ⟨8, 8, .ro⟩, ⟨0, 8, .ro⟩], fun _ => 0x0, false⟩,
  -- AST_WEAR_W3
  ⟨0x500C, [(24, 0x10)], [⟨0, 32, .ro⟩], fun _ => 0x0, false⟩
]

/-- The registers of ZMP. -/
def rowsZMP : List RegRow := [
  -- ZMP_CTRL
  ⟨0x10, [], [⟨16, 16, .rw⟩, ⟨2, 1, .rw⟩, ⟨1, 1, .rw⟩, ⟨0, 1, .rw⟩], fun _ => 0x640007, false⟩,
  -- ZMP_STAT
  ⟨0x14, [], [⟨16, 13, .ro⟩, ⟨0, 13, .ro⟩], fun _ => 0x0, false⟩,
  -- ZMP_EVT
  ⟨0x18, [], [⟨0, 9, .w1c⟩], fun _ => 0x0, false⟩,
  -- ZMP_EVT_EN
  ⟨0x1C, [], [⟨0, 9, .rw⟩], fun _ => 0x1BF, false⟩,
  -- ZMP_EAVE_TOT
  ⟨0x20, [], [⟨0, 32, .ro⟩], fun _ => 0x0, false⟩,
  -- ZMP_ACC
  ⟨0x24, [], [⟨16, 16, .ro⟩, ⟨0, 16, .ro⟩], fun _ => 0x1000100, false⟩,
  -- ZMP_EAVE
  ⟨0x100, [(32, 0x4)], [⟨16, 16, .ro⟩, ⟨0, 16, .ro⟩], fun _ => 0x0, false⟩,
  -- ZMP_SPARE
  ⟨0x180, [(32, 0x4)], [⟨24, 8, .ro⟩, ⟨0, 24, .ro⟩], fun _ => 0x0, false⟩,
  -- ZMP_LOC_CMD
  ⟨0x200, [], [⟨31, 1, .w1s⟩, ⟨24, 2, .ro⟩, ⟨0, 8, .rw⟩], fun _ => 0x0, false⟩,
  -- ZMP_LOC_LBA_LO
  ⟨0x204, [], [⟨0, 32, .rw⟩], fun _ => 0x0, false⟩,
  -- ZMP_LOC_LBA_HI
  ⟨0x208, [], [⟨0, 8, .rw⟩], fun _ => 0x0, false⟩,
  -- ZMP_LOC_RES0
  ⟨0x20C, [], [⟨27, 5, .ro⟩, ⟨26, 1, .ro⟩, ⟨22, 4, .ro⟩, ⟨20, 2, .ro⟩, ⟨15, 5, .ro⟩], fun _ => 0x0, false⟩,
  -- ZMP_LOC_RES1
  ⟨0x210, [], [⟨0, 32, .ro⟩], fun _ => 0x0, false⟩,
  -- ZMP_LOC_RES2
  ⟨0x214, [], [⟨30, 2, .ro⟩, ⟨16, 14, .ro⟩, ⟨0, 16, .ro⟩], fun _ => 0x0, false⟩,
  -- ZMP_CTX_SEL
  ⟨0x300, [], [⟨0, 12, .rw⟩], fun _ => 0x0, false⟩,
  -- ZMP_CTX
  ⟨0x320, [(8, 0x4)], [⟨0, 32, .ro⟩], fun _ => 0x0, false⟩,
  -- ZMP_CNT
  ⟨0x400, [(8, 0x4)], [⟨31, 1, .ro⟩, ⟨0, 31, .ro⟩], fun _ => 0x0, false⟩
]

/-- The registers of THT. -/
def rowsTHT : List RegRow := [
  -- THT_CTRL
  ⟨0x10, [], [⟨24, 8, .rw⟩, ⟨1, 1, .rw⟩, ⟨0, 1, .rw⟩], fun _ => 0x32000003, false⟩,
  -- THT_STAT
  ⟨0x14, [], [⟨31, 1, .ro⟩, ⟨28, 3, .ro⟩, ⟨0, 12, .ro⟩], fun _ => 0xFFF, false⟩,
  -- THT_EVT
  ⟨0x18, [], [⟨0, 6, .w1c⟩], fun _ => 0x0, false⟩,
  -- THT_EVT_EN
  ⟨0x1C, [], [⟨0, 6, .rw⟩], fun _ => 0x2F, false⟩,
  -- THT_RB_CTRL
  ⟨0x20, [], [⟨31, 1, .w1s⟩, ⟨30, 1, .wo⟩, ⟨20, 5, .rw⟩, ⟨0, 12, .rw⟩], fun _ => 0xFFF, false⟩,
  -- THT_RB_STAT
  ⟨0x24, [], [⟨31, 1, .ro⟩, ⟨30, 1, .w1c⟩, ⟨24, 4, .ro⟩], fun _ => 0x0, false⟩,
  -- THT_RB_ZONE
  ⟨0x28, [], [⟨0, 32, .ro⟩], fun _ => 0x0, false⟩,
  -- THT_RB_TOTAL
  ⟨0x2C, [], [⟨0, 32, .ro⟩], fun _ => 0x0, false⟩,
  -- THT_CNT
  ⟨0x30, [(6, 0x4)], [⟨31, 1, .ro⟩, ⟨0, 31, .ro⟩], fun _ => 0x0, false⟩
]

/-- The registers of MCS. -/
def rowsMCS : List RegRow := [
  -- MCS_STAT
  ⟨0x10, [], [⟨24, 8, .ro⟩, ⟨16, 8, .ro⟩, ⟨8, 8, .ro⟩], fun _ => 0x1010000, false⟩,
  -- MCS_ZCTRL
  ⟨0x14, [], [⟨24, 8, .rw⟩, ⟨0, 24, .rw⟩], fun _ => 0xFAC688, false⟩,
  -- MCS_EVT
  ⟨0x18, [], [⟨0, 6, .w1c⟩], fun _ => 0x0, false⟩,
  -- MCS_EVT_EN
  ⟨0x1C, [], [⟨0, 6, .rw⟩], fun _ => 0x2F, false⟩,
  -- MCS_F_HALT_LO
  ⟨0x20, [], [⟨0, 32, .rw⟩], fun _ => 0x0, false⟩,
  -- MCS_F_HALT_HI
  ⟨0x24, [], [⟨0, 32, .rw⟩], fun _ => 0x0, false⟩,
  -- MCS_F_HALTED_LO
  ⟨0x28, [], [⟨0, 32, .ro⟩], fun _ => 0x0, false⟩,
  -- MCS_F_HALTED_HI
  ⟨0x2C, [], [⟨0, 32, .ro⟩], fun _ => 0x0, false⟩,
  -- MCS_FAULTS
  ⟨0x30, [], [⟨31, 1, .ro⟩, ⟨0, 31, .ro⟩], fun _ => 0x0, false⟩,
  -- MCS_FMATCH
  ⟨0x100, [(16, 0x4)], [⟨31, 1, .rw⟩, ⟨16, 14, .rw⟩, ⟨0, 16, .rw⟩], fun _ => 0x8000, false⟩,
  -- MCS_ZMATCH
  ⟨0x200, [(32, 0x4)], [⟨31, 1, .rw⟩, ⟨16, 15, .rw⟩, ⟨0, 16, .rw⟩], fun _ => 0x8000, false⟩,
  -- MCS_FSEQ_W0
  ⟨0x1000, [(64, 0x10)], [⟨28, 4, .ro⟩, ⟨24, 4, .ro⟩, ⟨16, 8, .ro⟩, ⟨0, 16, .ro⟩], fun _ => 0x10000100, false⟩,
  -- MCS_FSEQ_W1
  ⟨0x1004, [(64, 0x10)], [⟨8, 3, .ro⟩, ⟨0, 7, .ro⟩], fun _ => 0x0, false⟩,
  -- MCS_FSEQ_W2
  ⟨0x1008, [(64, 0x10)], [⟨31, 1, .ro⟩, ⟨0, 31, .ro⟩], fun _ => 0x0, false⟩,
  -- MCS_FSEQ_W3
  ⟨0x100C, [(64, 0x10)], [⟨0, 1, .wo⟩], fun _ => 0x0, false⟩,
  -- MCS_ZSEQ_W0
  ⟨0x1400, [(8, 0x10)], [⟨28, 4, .ro⟩, ⟨24, 4, .ro⟩, ⟨16, 8, .ro⟩, ⟨0, 16, .ro⟩], fun _ => 0x10000100, false⟩,
  -- MCS_ZSEQ_W1
  ⟨0x1404, [(8, 0x10)], [⟨8, 7, .ro⟩, ⟨0, 7, .ro⟩], fun _ => 0x0, false⟩,
  -- MCS_ZSEQ_W2
  ⟨0x1408, [(8, 0x10)], [⟨31, 1, .ro⟩, ⟨0, 31, .ro⟩], fun _ => 0x0, false⟩,
  -- MCS_ZSEQ_W3
  ⟨0x140C, [(8, 0x10)], [⟨0, 1, .wo⟩], fun _ => 0x0, false⟩,
  -- MCS_FROM
  ⟨0x100000, [(16384, 0x4)], [⟨0, 20, .ro⟩], fun _ => 0x0, false⟩,
  -- MCS_FPRAM
  ⟨0x110000, [(1024, 0x4)], [⟨0, 20, .rw⟩], fun _ => 0x0, false⟩,
  -- MCS_ZROM
  ⟨0x200000, [(32768, 0x4)], [⟨0, 20, .ro⟩], fun _ => 0x0, false⟩,
  -- MCS_ZPRAM
  ⟨0x220000, [(2048, 0x4)], [⟨0, 20, .rw⟩], fun _ => 0x0, false⟩
]

/-- A block of the QCS map: base, number of instances, stride, three name letters, register rows (Table 1-15).
DESIGN CHOICE: the name of TAIL, of four letters, is the three bytes T, A, L, 0x54414C (log entry 3). -/
def blocks : List BlockRow := [
  ⟨0x0000000, 1, 0x100000, 0x545253, rowsTRS⟩, ⟨0x0100000, 1, 0x100000, 0x505752, rowsPWR⟩,
  ⟨0x0200000, 1, 0x100000, 0x42414C, rowsBAL⟩, ⟨0x0300000, 1, 0x100000, 0x455654, rowsEVT⟩,
  ⟨0x0400000, 1, 0x100000, 0x54414C, rowsTAIL⟩, ⟨0x0500000, 1, 0x100000, 0x4D4258, rowsMBX⟩,
  ⟨0x0600000, 1, 0x100000, 0x464C53, rowsFLS⟩, ⟨0x0700000, 1, 0x100000, 0x54484D, rowsTHM⟩,
  ⟨0x0800000, 1, 0x100000, 0x424757, rowsBGW⟩, ⟨0x0900000, 1, 0x100000, 0x505254, rowsPRT⟩,
  ⟨0x0A00000, 1, 0x200000, 0x484946, rowsHIF⟩, ⟨0x0C00000, 1, 0x200000, 0x425546, rowsBUF⟩,
  ⟨0x0E00000, 1, 0x100000, 0x434348, rowsCCH⟩, ⟨0x0F00000, 1, 0x100000, 0x4D4550, rowsMEP⟩,
  ⟨0x1000000, 32, 0x10000, 0x545448, rowsTTH⟩, ⟨0x1400000, 64, 0x10000, 0x414354, rowsACT⟩,
  ⟨0x1800000, 16, 0x20000, 0x425244, rowsBRD⟩, ⟨0x1A00000, 32, 0x8000, 0x53504E, rowsSPN⟩,
  ⟨0x1C00000, 1, 0x200000, 0x5A4D50, rowsZMP⟩, ⟨0x1E00000, 4, 0x80000, 0x544854, rowsTHT⟩,
  ⟨0x2000000, 1, 0x800000, 0x4D4353, rowsMCS⟩]

/-- The header rows every block instance begins with (R18): BLOCK_ID with the name and VER 0x01, BLOCK_XCLAIM. -/
def headerRows (name : Nat) : List RegRow := [
  ⟨0x0, [], [⟨8, 24, .ro⟩, ⟨0, 8, .ro⟩], fun _ => name * 256 + 1, false⟩,
  ⟨0x4, [], [⟨8, 8, .ro⟩, ⟨0, 1, .rw⟩], fun _ => 0, false⟩]

/-- The index list of offset `d` in an array of the given dimensions, outermost first; none between elements. -/
def dimIndex : List (Nat × Nat) → Nat → Option (List Nat)
  | [], d => if d = 0 then some [] else none
  | (c, st) :: ds, d =>
    if d / st < c then (dimIndex ds (d % st)).map (d / st :: ·)
    else none

/-- The first row of a list that holds offset `off`, with its index list. -/
def rowAt (off : Nat) : List RegRow → Option (RegRow × List Nat)
  | [] => none
  | r :: rs =>
    if off < r.off then rowAt off rs
    else match dimIndex r.dims (off - r.off) with
      | some ix => some (r, ix)
      | none => rowAt off rs

/-- The block that holds address `a`: its row, the instance and the offset in the instance. -/
def blockAt (a : Nat) : List BlockRow → Option (BlockRow × Nat × Nat)
  | [] => none
  | b :: bs =>
    if b.base ≤ a ∧ a < b.base + b.count * b.stride
    then some (b, (a - b.base) / b.stride, (a - b.base) % b.stride)
    else blockAt a bs

/-- The row of the register at offset `off` of instance `i` of block `b`. Cluster c's window is in ACT[4c] from
offset 0xC000 on, with a header of its own (R128); the shelf registers of SPN are in instance 0 alone (R221). -/
def rowIn (b : BlockRow) (i off : Nat) : Option (RegRow × List Nat) :=
  let ix := if b.count = 1 then [] else [i]
  if b.base = 0x1400000 ∧ 0xC000 ≤ off then
    if i % 4 = 0 then
      (rowAt (off - 0xC000) (headerRows 0x4C4443) <|> rowAt off rowsLDC).map (fun r => (r.1, i / 4 :: r.2))
    else none
  else match rowAt off (headerRows b.name) <|> rowAt off b.rows with
    | some (r, js) => if r.only0 ∧ i ≠ 0 then none else some (r, ix ++ js)
    | none => none

/-- The register a word address names, with its index list; none for an offset R16 calls undefined. LDC_SLOTS and
LDC_QUEUE are the same register in every cluster window (Table 4-6). -/
def locate (a : Nat) : Option (RegRow × List Nat) :=
  if a % 4 ≠ 0 then none
  else match blockAt a blocks with
    | some (b, i, off) => rowIn b i off
    | none => none

/-- The one address a register is stored at: the windows of clusters 1–15 onto LDC_SLOTS and LDC_QUEUE share
cluster 0's. -/
def homeAddr (a : Nat) : Nat :=
  if 0x1400000 ≤ a ∧ a < 0x1800000 ∧ ((a - 0x1400000) % 0x40000 = 0xC024 ∨ (a - 0x1400000) % 0x40000 = 0xC028)
  then 0x1400000 + (a - 0x1400000) % 0x40000 else a

/-- The value of the register at `a` after device reset (R17); 0 where no register lies. -/
def resetWord (a : Nat) : Word :=
  match locate a with
  | some (r, ix) => BitVec.ofNat 32 (r.rst ix)
  | none => 0

/-- The base of the block instance that holds `a`, where its header and claim register lie (R18). -/
def instanceBase (a : Nat) : Nat :=
  match blockAt a blocks with
  | some (b, i, off) =>
    if b.base = 0x1400000 ∧ 0xC000 ≤ off then b.base + i * b.stride + 0xC000 else b.base + i * b.stride
  | none => 0

end Sys2Proof.Machine
end

