-- ==== Sys2Proof/Machine/State.lean ====
section
/-! DEFINITION. The state of the device: the register file of the Quinryn Control Space, the state the chapters give each
block beside its registers, what leaves the device, and the queue of commands. Plain data throughout. -/
namespace Sys2Proof.Machine
open Sys2Proof

/-- An EVT register of the device, by block and instance (R416). -/
inductive EvtBlk where
  | pwr | evt | tail | zmp | bgw | mcs | hif | buf | cch | mep | bal | thm | prt | mbx | fls
  | ldc (c : Nat) | tht (t : Nat) | tth (p : Nat) | det (a : Nat) | fmt (a : Nat) | srv (a : Nat) | ws (a : Nat)
  | brd (e : Nat) | spn (p : Nat) | ast (p : Nat)
  deriving DecidableEq, Repr

/-! ## What leaves the device -/

/-- A front-end command entry of a CMD flit (R72): CLASS, INDEX, VALUE. -/
structure CmdEntry where
  cls : Nat
  index : Nat
  value : Nat
  deriving DecidableEq, Repr

/-- What the device puts on its outer interfaces, or a front-end on the tether. The list `State.out` is the model's
own record of it, newest first (log entry 5). -/
inductive Out where
  /-- a QCS or mailbox read returns this word to the master -/
  | readData (m : Master) (addr : Nat) (w : Word)
  /-- a PCI Express access completes normally (R16) -/
  | pcieOk (m : Master)
  /-- MSI-X message with a vector on a port's function (R417) -/
  | msix (port vec : Nat)
  /-- INTA, which stands for vector 0 while MSI-X is disabled (Table 10-1) -/
  | inta (port : Nat)
  /-- an NVMe completion: port, submission queue, CID, Status Code Type, Status Code, Dword 0, Dword 1, and DNR where the
  specification gives it (Table 10-7) -/
  | cqe (port sq cid sct sc : Nat) (dw0 dw1 : Nat) (dnr : Option Bool)
  /-- completion of an Asynchronous Event Request: port, CID, event type, event information, log page (R422) -/
  | aer (port cid type info log : Nat)
  /-- data of a command returned to the host: port, CID, bytes or LBA contents as numbers -/
  | hostData (port cid : Nat) (data : List Nat)
  /-- a MemWr TLP of a command's read data sent with EP = 1: port, CID, LBA (R256) -/
  | poisonTlp (port cid lba : Nat)
  /-- a peer-link message naming an event source (R417) -/
  | peerEvent (src : Nat)
  /-- another peer-link frame, by kind and numbers -/
  | peer (kind : Nat) (args : List Nat)
  /-- a downstream flit: CMD, WRITE or HB (R70, R72, R80, R96) -/
  | flit (p : Nat) (f : Flit)
  /-- a TSB request as its bytes on the bus (R87) -/
  | tsbReq (p : Nat) (frame : List Nat)
  /-- a TSB response of a front-end as its bytes on the bus (R87) -/
  | tsbResp (p : Nat) (frame : List Nat)
  /-- the WINH word now sent on a port (R84) -/
  | winh (p word : Nat)
  /-- a report of a front-end in its telemetry, by kind -/
  | feReport (p kind : Nat)
  /-- a front-end's drive as applied: CLASS, INDEX, VALUE -/
  | feDrive (p cls index value : Nat)
  /-- WAKE_N or another device pin driven to a level -/
  | pin (which level : Nat)
  /-- an MCTP or SMBus answer to the baseboard controller -/
  | smbus (bytes : List Nat)
  /-- ATTN or abort notice of a mailbox channel to a party (R413) -/
  | mbxNotice (party chan : Nat) (abort : Bool) (vec : Nat)
  /-- the arbiter of a port stops fetching for so many µs (R349, R354) -/
  | fetchPause (port us : Nat)
  /-- a media operation asked of an actuator: kind, actuator, numbers -/
  | media (kind a : Nat) (args : List Nat)
  deriving DecidableEq, Repr

/-- A latched high word of a 64-bit register, per reading master (R11). -/
structure Latch where
  master : Nat
  addr : Nat
  value : Word
  deriving DecidableEq, Repr

/-! ## Events and recorders (chapter 17) -/

/-- A Tail record (Table 17-5). -/
structure TailRec where
  time : Nat
  sub : Nat
  source : Nat
  rep : Nat
  last : Nat
  snap : List Word
  deriving DecidableEq, Repr

/-- The event router's and recorders' own state. -/
structure EvtState where
  /-- records of recorder r, oldest first (R418) -/
  tails : Tab (List TailRec) := []
  /-- AEN routes of Feature 0xC8: (source, port) (R423) -/
  aen : List (Nat × Nat) := []
  /-- ports whose vendor notices are masked until log page 0xC8 is read (R422) -/
  vendorMasked : List Nat := []
  /-- outstanding Asynchronous Event Requests: (port, CID), oldest first (R422) -/
  aers : List (Nat × Nat) := []
  /-- events of a controller that wait for a request: (port, type, information, log page) (R422) -/
  held : List (Nat × Nat × Nat × Nat) := []
  /-- blocks whose statistics counters have saturated since they were last cleared (R440) -/
  satSeen : List EvtBlk := []
  /-- the master identity and the offset that went with the last event of source 3 (R16) -/
  undefBy : Option (Nat × Nat) := none
  deriving DecidableEq, Repr

/-! ## Truss (chapter 2) -/

/-- A UNIT record (R49, R50). -/
structure UnitRec where
  uid : Nat
  parent : Nat
  kind : Nat
  policy : Nat
  loc : Nat
  region : Nat
  template : Nat
  retired : Bool
  childBase : Nat
  deriving DecidableEq, Repr

/-- A SLOT_TEMPLATE record. -/
structure SlotTemplate where
  tid : Nat
  actuators : Nat
  heads : Nat
  courseW : Nat
  assist : Nat
  speedTbl : Nat
  bandTbl : Nat
  model : Nat
  modelMask : Nat
  capMinGb : Nat
  feFwMin : Nat
  deriving DecidableEq, Repr

/-- A REGION record. -/
structure RegionRec where
  rid : Nat
  code : Nat
  tp : Nat
  deriving DecidableEq, Repr

/-- An NSBIND record. -/
structure NsBind where
  nsid : Nat
  nstype : Nat
  uid : Nat
  ana : Nat
  ports : Nat
  convMib : Nat
  deriving DecidableEq, Repr

/-- A STEER record. -/
structure SteerRec where
  port : Nat
  first : Nat
  last : Nat
  uid : Nat
  deriving DecidableEq, Repr

/-- A POWER record. -/
structure PowerRec where
  pid : Nat
  pflags : Nat
  idleS : Nat
  minStep : Nat
  maxStep : Nat
  maxSpinup : Nat
  deriving DecidableEq, Repr

/-- An entry of a SPEED_TABLE. -/
structure SpeedEntry where
  rpm : Nat
  coefSet : Nat
  writeOk : Bool
  deriving DecidableEq, Repr

/-- An entry of a BAND_TABLE. -/
structure BandEntry where
  startFrac : Nat
  rate : Nat
  deriving DecidableEq, Repr

/-- A UCODE_PATCH record. -/
structure UcodePatch where
  target : Nat
  mtch : Nat
  romAddr : Nat
  patchAddr : Nat
  words : List Nat
  deriving DecidableEq, Repr

/-- The structure a truss image describes: the header values the device keeps and all records by type (R49). -/
structure Truss where
  seq : Nat := 0
  name : List Nat := []
  build : Nat := 0
  units : List UnitRec := []
  templates : List SlotTemplate := []
  regions : List RegionRec := []
  thatches : List (Nat × Nat) := []
  binds : List NsBind := []
  steers : List SteerRec := []
  powers : List PowerRec := []
  speeds : List (Nat × List SpeedEntry) := []
  bands : List (Nat × List BandEntry) := []
  bridles : List (Nat × Nat × List Nat) := []
  ucode : List UcodePatch := []
  limits : List (Nat × Nat) := []
  /-- QCS_EN and MI_QCS of the HOST_POLICY record, if any -/
  hostPolicy : Option (Nat × Nat) := none
  deriving DecidableEq, Repr

/-- A load the loader has in hand: 1 verify, 2 load, 3 patch; stored or not; the admin command that waits for it, as
(port, CID); whether the partner's answer is awaited (R63, R65). -/
structure LoadJob where
  what : Nat
  store : Bool
  cmd : Option (Nat × Nat)
  awaitPeer : Bool
  deriving DecidableEq, Repr

/-- The loader's own state beside its registers. -/
structure TrsState where
  /-- one past the highest byte a Truss Download wrote since the last one at offset 0 (R64) -/
  stagedLen : Nat := 0
  /-- the load that runs -/
  job : Option LoadJob := none
  /-- a Truss Commit that waits for quiescence (R65) -/
  waiting : Option LoadJob := none
  /-- the running structure -/
  run : Truss := {}
  /-- refusal code and WHERE of the last command (log page 0xC0) -/
  lastCode : Nat := 0
  lastWhere : Nat := 0
  /-- the two stored base copies and the stored patches, as file bytes (R61, R62) -/
  bases : List (List Nat) := []
  patches : List (List Nat) := []
  /-- the files whose loads made the running structure, the base first, stored or not (R63) -/
  runFiles : List (List Nat) := []
  /-- ports whose mechanism is bound -/
  bound : List Nat := []
  /-- presence changes that wait for a switch step to end (R60) -/
  presenceQ : List (Nat × Bool) := []
  deriving DecidableEq, Repr

/-- A unit's own condition beside its face (R28, R30, R32). -/
structure UnitAux where
  /-- the state of a fault of its own, or of its own retirement: FAILED 5 or RETIRED 6 -/
  own : Option Nat := none
  /-- the CAUSE of a fault of its own -/
  ownCause : Nat := 0
  /-- causes of the impairments of its own that last, newest first -/
  impair : List Nat := []
  /-- GRADEs that chapters set on the unit itself, with their CAUSEs, newest first; retirement keeps its CAUSE here -/
  grades : List (Nat × Nat) := []
  /-- a wake demand that stands -/
  wakeWanted : Bool := false
  /-- when media work last ended, PWR_UPTIME in ms (R336) -/
  lastWork : Nat := 0
  deriving DecidableEq, Repr

/-! ## Tether (chapter 3) -/

/-- A TSB request in hand, with what it is for: 0 identity, first half; 1 identity, second half; 2 token read;
3 ACQUIRE; 4 RELEASE; 5 HANDOFF; 6 watchdog write; 7 heartbeat; 8 witness write; 9 witness read; 10 status read;
11 status clear; 12 expert. -/
structure TsbReq where
  purpose : Nat
  cmd : Nat
  addr : Nat
  len : Nat
  data : List Nat
  tries : Nat
  deriving DecidableEq, Repr

/-- A tether port's state beside its registers. -/
structure TthPort where
  /-- the PRSNT_N pin reads low: a mechanism is fitted -/
  fitted : Bool := false
  /-- a presence debounce runs in a state other than DEBOUNCE (Table 3-8, rows "any") -/
  debounceHigh : Bool := false
  /-- the request on the bus and those that wait (R87) -/
  tsb : Option TsbReq := none
  tsbQ : List TsbReq := []
  /-- failed read attempts of the identity block in a row, and the first half read (R90) -/
  identTries : Nat := 0
  identHalf : List Nat := []
  /-- the SERIAL last accepted -/
  serial : List Nat := []
  identOk : Bool := false
  /-- tries of each lane in its episode: upstream 0–3, downstream 4 (R82) -/
  laneTries : List Nat := [0, 0, 0, 0, 0]
  /-- all lanes were lost since the identity was read (R90) -/
  reread : Bool := false
  /-- the CRED total last seen (R77), and SEQ of the next downstream flit of each FTYPE (R70) -/
  lastCred : Nat := 0
  seqs : Tab Nat := []
  /-- the downstream lane is to be retrained once the mechanism has no write in progress (R99) -/
  dnDue : Bool := false
  /-- CMD flits that wait for a credit -/
  waiting : List (List CmdEntry) := []
  /-- head lane streams: (head lane, upstream lane) (R73) -/
  streams : List (Nat × Nat) := []
  /-- counts of heartbeats and witnesses sent (R95, R96) -/
  hbCount : Nat := 0
  witCount : Nat := 0
  /-- ROLE and HEALTH of the partner's last witness (Table 3-6) -/
  witRole : Nat := 0
  witHealth : Nat := 0
  /-- the last telemetry payload (Table 3-5) -/
  telem : List Nat := []
  /-- the samples of the wedge a head lane's SERVO flits bring; none once one of them was discarded (R81, R157) -/
  servo : Tab (Option (List Nat)) := []
  deriving DecidableEq, Repr

/-- A CMD flit a front-end accepted and has not yet applied: epoch and entries (R72, R94). -/
structure FePend where
  epoch : Nat
  entries : List CmdEntry
  deriving DecidableEq, Repr

/-- A QF-220 front-end as the protocol shows it (chapter 3). -/
structure FrontEnd where
  /-- 0 none, 1 FE-0, 2 FE-1 -/
  owner : Nat := 0
  epoch : Nat := 0
  wdogUs : Nat := 1000
  /-- the watchdog of FE-0 and FE-1 runs -/
  run0 : Bool := false
  run1 : Bool := false
  /-- the port is in lane mode (R97) -/
  lane0 : Bool := false
  lane1 : Bool := false
  loss : Bool := false
  winhErr : Bool := false
  otherLost : Bool := false
  attnCause : Nat := 0
  /-- witnesses: COUNT, ROLE, HEALTH (Table 3-6) -/
  wit0 : Nat × Nat × Nat := (0, 0, 0)
  wit1 : Nat × Nat × Nat := (0, 0, 0)
  /-- good WINH words still needed before a mask applies (R85, R86) -/
  winhNeed : Nat := 2
  /-- the inhibit mask in force; with no owner all head lanes are inhibited (R86) -/
  inh : Nat := 0xFF
  pend : List FePend := []
  /-- head lanes with an accepted WRITE flit whose bits are not yet written -/
  wpend : List Nat := []
  /-- the drives as last applied: (CLASS × 16 + INDEX, VALUE) -/
  drives : Tab Nat := []
  /-- head lanes that WRITE flits drive, and head lanes whose assist drive entry is not 0, as bits; both are off at the head
  while its bit of `inh` is set (R85) -/
  writeGate : Nat := 0
  assistOn : Nat := 0
  /-- head lanes inhibited since the sector under way began, as bits: the head writes again from a later sector (R169) -/
  skip : Nat := 0xFF
  /-- loss actions: heads unloaded to the ramp, spindle coasting (R97) -/
  unloaded : Bool := true
  coasting : Bool := false
  deriving DecidableEq, Repr

/-! ## Zones, staged data and thatch groups (chapter 9) -/

/-- A zone descriptor with the deferred flag (R229, R271). WP and MWP are LBAs. -/
structure ZoneRec where
  zstate : Nat
  wp : Nat
  mwp : Nat
  wseq : Nat
  rmark : Nat
  deferred : Bool
  deriving DecidableEq, Repr

/-- A range of one zone: dirty data, a lost range, a deferred error or a rewrite (R234, R237, R271). -/
structure Ext where
  nsid : Nat
  zone : Nat
  lba : Nat
  count : Nat
  wseq : Nat
  deriving DecidableEq, Repr

/-- A staged extent: its ESEQ, its range, the ports of the mechanisms that hold a copy, and the REWRITE flag (R237). -/
structure Staged where
  eseq : Nat
  ext : Ext
  copies : List Nat
  rewrite : Bool
  /-- its sectors are home; it waits for the journal entry (R238) -/
  moved : Bool
  deriving DecidableEq, Repr

/-- A relocation entry: mechanism, head q = 12k + h, data slot, source unit, destination unit (R244). -/
structure Reloc where
  port : Nat
  head : Nat
  slot : Nat
  unit : Nat
  dest : Nat
  deriving DecidableEq, Repr

/-- A thatch row with an accumulator (R240, R241): its THATCH, zone and row; the information parts of the data sectors encoded, by
256 × member + sector of the unit; the parity of each sector of the unit, one list of bytes for each parity member, none once
the accumulator is discarded; and the parity sectors sent, by 256 × parity member + sector. -/
structure RowAcc where
  thatch : Nat
  zone : Nat
  row : Nat
  units : Tab (List Nat)
  par : Tab (List (List Nat))
  sent : List Nat
  deriving DecidableEq, Repr

/-- The band map of a surface (R222): start track of each data slot's rate band, and the positions of its tracks. -/
structure BandMap where
  /-- rate bands: first slot, number of slots, first slot's track, tracks a slot takes with its guard, positions -/
  runs : List (Nat × Nat × Nat × Nat × Nat)
  /-- data slots and spare slots -/
  dataSlots : Nat
  spareSlots : Nat
  deriving DecidableEq, Repr

/-- The zone sequencers' and thatch engines' state beside their registers. -/
structure ZmpState where
  /-- descriptors by NSID × 2^32 + zone; a zone not listed is Empty, never written -/
  zones : Tab ZoneRec := []
  /-- write contexts: index to zone key (R229) -/
  ctxs : Tab Nat := []
  /-- the data of each LBA by NSID × 2^40 + LBA, as one number; not listed reads as zeros (R268) -/
  lbas : Tab Nat := []
  /-- dirty extents of the buffer, oldest first -/
  dirty : List Ext := []
  /-- staged extents, oldest first -/
  staged : List Staged := []
  /-- ESEQ of the last record (R237) -/
  eseq : Nat := 0
  /-- JSEQ of each mechanism's ring (R232) -/
  jseq : Tab Nat := []
  /-- zones whose descriptor entry waits for JRN_MS (R232) -/
  jrnDue : List Nat := []
  /-- journal sectors being written, oldest first: (port, keys); a key is a zone's, or a relocation entry's from 2^64 on (R232) -/
  jrnBusy : List (Nat × List Nat) := []
  /-- the JSEQ of the sector of each ring that holds the latest entry of a key, by port (R232) -/
  jrnAt : Tab (Tab Nat) := []
  /-- ports to whose rings the device journals no more (R442) -/
  jrnFull : List Nat := []
  /-- the latest descriptor of each zone in the rings, by zone key (R232) -/
  jrnl : Tab ZoneRec := []
  /-- a ring and the JSEQ of its sector that holds a zone's latest entry -/
  jrnSeq : Tab (Nat × Nat) := []
  /-- what a device reset left to recover (R234): how far the media of each zone is written, as the descriptors were, and
  the dirty ranges that only the buffer held -/
  before : Tab ZoneRec := []
  gone : List Ext := []
  /-- the deferred list (R271) and the lost ranges (R249), oldest first -/
  deferred : List Ext := []
  lost : List Ext := []
  /-- relocation entries (R244) -/
  relocs : List Reloc := []
  /-- relocation entries whose journal sector is being written, oldest first (R244) -/
  relocBusy : List Reloc := []
  /-- units written in each spare slot of a surface, by 32 × port + q (R244) -/
  spareUsed : Tab (List Nat) := []
  /-- accumulators in use, most recently used first, and those discarded (R241) -/
  accs : List RowAcc := []
  accLost : List RowAcc := []
  /-- rebuild in hand per engine: zones left to rebuild, by zone key (R243) -/
  rebuild : Tab (List Nat) := []
  /-- rebuilds that wait for an engine: THATCH and member index (R243) -/
  rbQueue : List (Nat × Nat) := []
  /-- band maps by 32 × port + q (R222) -/
  maps : Tab BandMap := []
  /-- THATCH units whose CAP_ZONES is fixed (R225) -/
  fixedCap : List Nat := []
  deriving DecidableEq, Repr

/-! ## Host interface (chapter 10) -/

/-- An I/O command that holds a slot (R263). -/
structure Cmd where
  port : Nat
  sq : Nat
  cid : Nat
  opc : Nat
  nsid : Nat
  slba : Nat
  /-- LBAs, 1-based -/
  len : Nat
  fua : Bool
  /-- Zone Send or Receive Action, and Select All -/
  zsa : Nat
  all : Bool
  /-- place in the fetch order (R264) -/
  order : Nat
  /-- the zone sequencer its flow runs on (R366) -/
  zseq : Nat := 0
  /-- the command's own row has checked and started it -/
  started : Bool := false
  /-- it passed the ledger (R266) -/
  admitted : Bool := false
  /-- the write's data, or that all data has been transferred or checked -/
  data : List Nat := []
  xfer : Bool := false
  /-- the partner acknowledged the mirrored data (R389) -/
  mirrored : Bool := false
  /-- every copy is on the media, or home at 0x20 (Table 10-6) -/
  onMedia : Bool := false
  /-- a status it fails with at its commit point (R267) -/
  fail : Option (Nat × Nat) := none
  /-- it failed because its unit is FAILED: DNR is 1 (Table 10-7) -/
  gone : Bool := false
  /-- LEDGER_WAIT and MIRROR_WAIT were counted for it -/
  waitL : Bool := false
  waitM : Bool := false
  /-- LBA offsets that a write fetched later has replaced: for a Read with the data it is to return, for a write with the
  place of the first such write in the fetch order (R268) -/
  frozen : Tab Nat := []
  deriving DecidableEq, Repr

/-- An I/O submission queue: entries, its completion queue, tail doorbell and head, priority class. -/
structure Sq where
  size : Nat
  cq : Nat
  tail : Nat
  head : Nat
  prio : Nat
  deriving DecidableEq, Repr

/-- An I/O completion queue: entries, tail, head doorbell, vector and interrupt enable. -/
structure Cq where
  size : Nat
  tail : Nat
  head : Nat
  vec : Nat
  ien : Bool
  deriving DecidableEq, Repr

/-- One controller beside its HIF registers. -/
structure Ctl where
  /-- PERST_N is low -/
  perst : Bool := true
  enabled : Bool := false
  ready : Bool := false
  d3hot : Bool := false
  /-- MSI-X enabled: interrupts go as messages -/
  msix : Bool := true
  /-- Advanced Error Reporting: Poisoned TLP Received, logged as an advisory non-fatal error (R257) -/
  aerPoisoned : Bool := false
  sqs : Tab Sq := []
  cqs : Tab Cq := []
  /-- standard features by identifier, and by identifier × 2^16 + selector where a feature has one (R260) -/
  feats : Tab Nat := []
  /-- keep-alive timer: running (R260) -/
  kaRun : Bool := false
  /-- Changed Namespace List and Changed Zone List, oldest first (R271, R275) -/
  chgNs : List Nat := []
  chgZones : List (Nat × Nat) := []
  /-- a Set Features Power Management that waits for its entry, and those behind it: (CID, state) (R278) -/
  pmWait : List (Nat × Nat) := []
  deriving DecidableEq, Repr

/-- An Error Information entry: error count, SQ, CID, SCT, SC, NSID, LBA (R260). -/
structure ErrEntry where
  count : Nat
  port : Nat
  sq : Nat
  cid : Nat
  sct : Nat
  sc : Nat
  nsid : Nat
  lba : Nat
  deriving DecidableEq, Repr

/-- A Device Self-test operation: 0 none, 1 short, 2 extended; the step that runs; results, newest first (R359). -/
structure SelfTest where
  kind : Nat := 0
  step : Nat := 0
  abort : Bool := false
  failed : Nat := 0
  /-- the command that waits for its end: (port, CID) -/
  cmd : Option (Nat × Nat) := none
  results : List (Nat × Nat × Nat) := []
  deriving DecidableEq, Repr

/-- The host interface beside its registers. -/
structure HostState where
  ctlA : Ctl := {}
  ctlB : Ctl := {}
  /-- I/O commands that hold slots, in fetch order -/
  cmds : List Cmd := []
  order : Nat := 0
  /-- a port's stall on slots was reported (R263) -/
  stallA : Bool := false
  stallB : Bool := false
  errCount : Nat := 0
  errLog : List ErrEntry := []
  /-- ANA change count (R274) -/
  anaCount : Nat := 0
  /-- the last operational power state (R278) -/
  lastOp : Nat := 0
  /-- the port of an I/O command fetched while a non-operational state was being entered (R278) -/
  psWake : Option Nat := none
  selfTest : SelfTest := {}
  /-- dwords 11 and 12 of the last Set Features 0xD3 (R175) -/
  safety : Option (Word × Word) := none
  deriving DecidableEq, Repr

/-! ## Power (chapter 13) -/

/-- The power manager's state beside its registers. -/
structure PwrState where
  /-- domains asked for that have not reported power good (R329) -/
  wanted : List Nat := []
  /-- the mode steps 3 and 4 of the choice rule have in force, the choice that would replace it, and the windows in a row
  it has resulted for (R332) -/
  base : Nat := 3
  cand : Nat := 3
  candN : Nat := 0
  /-- PWR_UPTIME when an I/O command was last fetched; LBAs written and read in the window that runs -/
  lastIo : Nat := 0
  winW : Nat := 0
  winR : Nat := 0
  /-- samples of PWR_MEAS.NOW above the cap in a row; fetch pauses run (R333) -/
  above : Nat := 0
  pause : Bool := false
  /-- VAON is within its range (R454) -/
  vaon : Bool := true
  /-- MECH units whose wake was demanded, in the order of the demands (R337) -/
  wakes : List Nat := []
  /-- the device pulls WAKE_N low (R327) -/
  wakeLow : Bool := false
  /-- how far BOOT is: 0 the ROM runs, 1 the firmware has started, 2 DRAM is trained and the truss loaded (Table 13-8) -/
  bootStep : Nat := 0
  /-- Set Features 0xEE that waits for a change to or from MAINT: (port, CID) (R342) -/
  cmd : Option (Nat × Nat) := none
  /-- the debug port is attached (Table 13-3) -/
  debug : Bool := false
  deriving DecidableEq, Repr

/-! ## Detection and the formatter (chapters 4 and 5) -/

/-- A recovery ladder that runs, with the settings it started with (R143, R153). -/
structure Ladder where
  ctrl : Word
  rungs : List Word
  rung : Nat
  /-- the alignment offsets of this rung's retries, the one under way first (R142, R144) -/
  offs : List Int
  rereads : Nat
  /-- the rungs before this one run again on new samples; then the ladder goes on here (R144) -/
  replayTo : Option Nat
  /-- rungs of ACTION 0x0 and 0x1 are skipped -/
  noSample : Bool
  /-- the relaxed search of R142 was made -/
  relaxed : Bool
  /-- status the sector fails with: 0x08, 0x09, 0x0A -/
  failAs : Nat
  deriving DecidableEq, Repr

/-- A place on the media of a slice: detector lane n = 4a + l, head of the actuator, track, sector position. -/
structure SecPlace where
  lane : Nat
  head : Nat
  track : Nat
  pos : Nat
  deriving DecidableEq, Repr

/-- A sector that is read: detector lane n = 4a + l, where it lies, what its tag must say, how far it is. -/
structure Sector where
  id : Nat
  lane : Nat
  head : Nat
  track : Nat
  pos : Nat
  band : Nat
  code : Nat
  cls : Nat
  kind : Nat
  nsid : Nat
  lba : Nat
  /-- the zone's reset mark when the read started (R149) -/
  rmark : Nat
  /-- the sync decision of Table 5-5 -/
  dec : Nat
  /-- the place in the ring of its first sample by the servo timing -/
  start : Nat
  /-- bits from there to SM1 as predicted, and the shift of SM2 by a wedge (R136) -/
  p1 : Nat
  shift2 : Nat
  /-- the order in which its sync mark was found (R117), and reads that joined its ladder (R149) -/
  age : Nat
  joined : Nat
  /-- offsets tried without a mark with the checks their decodes left unsatisfied, in order (R142) -/
  tried : List (Int × Nat)
  /-- it holds an LLR slot, or waits for one with its samples pinned (R116) -/
  slot : Bool
  wantSlot : Bool
  /-- the index of its pin -/
  pin : Option Nat
  ladder : Option Ladder
  deriving DecidableEq, Repr

/-- A decode job (R117): its lane, class, sector (none for a retry by register), the cluster that runs it, clusters it
was abandoned on (R119); `age` is the order in which its sync mark was found. `what`: 0 first decode, 1 ladder retry,
2 retry by register, 3 re-read, 4 a retry whose pin has ended. -/
structure DecJob where
  order : Nat
  age : Nat
  lane : Nat
  cls : Nat
  what : Nat
  sec : Nat
  run : Option Nat
  avoid : List Nat
  deriving DecidableEq, Repr

/-- A retry under way (R121): the lane whose pin it works on, its sector, 0 for one by register, the pin, its descriptor in the
bits of Table 4-6, whether its target is the tap-table entry's, and the lane whose retry context runs it, none while it waits
for one (R122). -/
structure Retry where
  lane : Nat
  sec : Nat
  pin : Nat
  word : Nat
  tbl : Bool
  ctx : Option Nat
  deriving DecidableEq, Repr

/-- What a lane's live context works with since its read start (R109 to R112): head, band, RATIO, target and noise predictors, and
the mean squared error of the sector read last in this read. -/
structure LaneUse where
  head : Nat := 0
  band : Nat := 0
  ratio : Nat := 0x11999A
  tgt : List Int := []
  pred : List Int := []
  mse : Option Nat := none
  deriving DecidableEq, Repr

/-- A surface track that is being written (R139): its zone's key, the information parts of the sectors written, by position, and
the accumulator's columns, one list of 2,064 symbols for each parity position, none once lost. -/
structure TrackAcc where
  zone : Nat
  secs : Tab (List Nat)
  cols : Option (List (List Nat))
  deriving DecidableEq, Repr

/-- A sector that is to move to a spare unit (R147, R244): mechanism, head q, data slot, unit; it ended 0x23; its zone. -/
structure RelocReq where
  port : Nat
  q : Nat
  slot : Nat
  unit : Nat
  verifyFail : Bool
  nsid : Nat
  lba : Nat
  deriving DecidableEq, Repr

/-- The detection and formatter state beside the registers. -/
structure DetState where
  /-- samples of the sample buffers by lane × 2^17 + place in the ring, 64 for one erased with a flit, 65 for one a lane loss
  took (R103, R81, R122); the place each lane writes next, and the sample index its next flit is due to begin with -/
  ring : Tab Nat := []
  ringPos : Tab Nat := []
  stamp : Tab Nat := []
  /-- lanes whose last SAMPLE flit was discarded, its samples marked (Table 3-5) -/
  gapSeen : List Nat := []
  /-- lanes with a live stream -/
  live : List Nat := []
  /-- pins by lane × 2 + index, the one made last first (R104); the sectors whose samples they hold after those sectors have
  ended, by the same number, and the sectors to be read on a later revolution (R106) -/
  pins : List Nat := []
  pinSec : Tab SecPlace := []
  later : List SecPlace := []
  sectors : List Sector := []
  /-- what the lanes' live contexts work with, and the retries under way, oldest first (R107, R121) -/
  use : Tab LaneUse := []
  retries : List Retry := []
  /-- the LLRs of the slots, by sector, or 2^32 + lane for a retry by register (R116) -/
  llrs : Tab (List Int) := []
  /-- lanes that are powering down (R124) -/
  downing : List Nat := []
  jobs : List DecJob := []
  next : Nat := 1
  /-- weighted round robin credits of each cluster, by class, offset by 2^32 -/
  credits : Tab (List Int) := []
  /-- relocations reported by the formatters, oldest first -/
  relocQ : List RelocReq := []
  /-- tracks that are being written, by (32 × port + q) × 2^24 + track (R139) -/
  tracks : Tab TrackAcc := []
  /-- the failing status 0x08 to 0x0A that the last read of an LBA ended with, by LBA key (R148) -/
  failed : Tab Nat := []
  deriving DecidableEq, Repr

/-! ## Read cache and memory (chapter 11) -/

/-- A line of the read cache, in the frame 1,024 × way + set (R297): its key, the valid and dirty sub-blocks as bits, and
the data of each valid one. -/
structure CacheLine where
  nsid : Nat
  tag : Nat
  valid : Nat
  dirty : Nat
  data : Tab Nat
  /-- filled by a prefetch and not yet used -/
  pre : Bool
  deriving DecidableEq, Repr

/-- A fill under way (R298, R301): the frame it chose, none for the bypass buffer; the line's key, the sub-blocks it
brings, those invalidated since it began, whether the victim's dirty data is being written back, and whether a request
found the victim meanwhile; whether its victim was dirty; its place in the fetch order (R313). -/
structure CacheFill where
  frame : Option Nat
  nsid : Nat
  tag : Nat
  mask : Nat
  req : Nat
  gone : Nat
  wb : Bool
  hit : Bool
  pf : Bool
  old : Bool
  order : Nat
  deriving DecidableEq, Repr

/-- A stride detector (R302): requester, namespace, zone or GiB, the last start LBA, read length, the stride, its
repetitions, and the lines ahead it has asked for since its stride was confirmed. -/
structure StrideDet where
  req : Nat
  nsid : Nat
  zone : Nat
  last : Nat
  len : Nat
  stride : Int
  run : Nat
  ahead : Nat
  deriving DecidableEq, Repr

/-- The cache beside its registers. -/
structure CacheState where
  lines : Tab CacheLine := []
  /-- pseudo-LRU trees by set: bits 1 to 15, a 1 pointing to the upper half -/
  plru : Tab Nat := []
  fills : List CacheFill := []
  /-- detectors, most recently used first -/
  dets : List StrideDet := []
  /-- EN = 1 written while an invalidation runs -/
  enWait : Bool := false
  /-- place in the fetch order of a drain or an invalidation (R303, R313) -/
  drain : Nat := 0
  /-- Set Features 0xE0 that waits for STATE = OFF: (port, CID) -/
  cmd : Option (Nat × Nat) := none
  deriving DecidableEq, Repr

/-- A line of the write buffer (region 0) or of the cache data (region 3) that a flip altered, or that is poisoned (R289): what
lies in it, an LBA key or a sub-block position; its address; the XOR masks of a 64-bit word and of its check byte, and the word;
the poison mark; whether the partner's copy has the mark too; whether it was reported as a lost range (Table 11-5). -/
structure BadLine where
  rgn : Nat
  own : Nat
  addr : Nat
  mask : Nat
  chk : Nat
  word : Nat
  poison : Bool
  mirrorBad : Bool
  reported : Bool
  deriving DecidableEq, Repr

/-- The memories beside their registers. -/
structure MemState where
  bad : List BadLine := []
  /-- DRAM lines that a flip fired on: their uncorrectable errors retire no page (R304) -/
  flipLines : List Nat := []
  /-- the firmware keeps the page whose retirement runs in flash (R296) -/
  keep : Bool := false
  /-- sub-block positions of region 3 retired (R295): frame × 32 + sub-block -/
  subGone : List Nat := []
  /-- pages retired as flash keeps them for the next boot (R296) -/
  stored : List Nat := []
  /-- codes that Memory Code Store keeps for the next reset: regions, banks 0–15, banks 16–31 (R305) -/
  codes : Option (Nat × Nat × Nat) := none
  /-- Page Retire that waits for its copy: (port, CID) -/
  cmd : Option (Nat × Nat) := none
  deriving DecidableEq, Repr

/-! ## Servo and write safety (chapter 6) -/

/-- A written sector that waits for its final status (R170, R171): head lane, head, track, position, what it holds. -/
structure PendSec where
  lane : Nat
  head : Nat
  track : Nat
  pos : Nat
  kind : Nat
  nsid : Nat
  lba : Nat
  deriving DecidableEq, Repr

/-- The comparator of one head lane beside its registers (R164, R165). -/
structure ServoLane where
  lastPes : Int := 0
  /-- the target, K_h and Δt0 in use since the last seek (R157, R177, R358) -/
  tgt : Nat := 0
  kh : Nat := 0
  dt0 : Int := 0
  /-- the last two positions delivered, the newer first (R158) -/
  prev : List Int := []
  /-- a wedge since the last seek was within 2 × SETTLE_LIM: a read may begin (R163) -/
  readOk : Bool := false
  /-- the last good wedge since the last seek (R170) -/
  lastGood : Option Nat := none
  /-- the span of R170: the data bit it began at, and, once the inhibit is released, the data bit from which a sector may start
  (R169) -/
  span : Option Nat := none
  resume : Option Nat := none
  /-- the span stands under SW alone -/
  swOnly : Bool := false
  /-- positions of the sectors that late WRITE flits span (R80, R170) -/
  late : List Nat := []
  /-- the wedge number the demodulator expects next; none before the first -/
  expect : Option Nat := none
  /-- causes set at the wedge just decided -/
  setNow : Nat := 0
  /-- causes whose own condition holds -/
  src : Nat := 0
  /-- good wedges since each cause's own condition ended -/
  since : List Nat := [0, 0, 0, 0, 0, 0, 0, 0]
  /-- wedges in a row with the micro-actuator at its reach (R162) -/
  satCnt : Nat := 0
  /-- wedges in a row within SETTLE_LIM (R163) -/
  settle : Nat := 0
  /-- largest excursion to the written side since the last good wedge (R172) -/
  peak : Nat := 0
  /-- SQUEEZE was raised: the track of the excursion, and the data bits its span began and, once released, ended at (R172) -/
  squeezed : Option (Nat × Nat × Option Nat) := none
  deriving DecidableEq, Repr

/-- The slice's own state. -/
structure ServoSlice where
  /-- re-acquisitions tried (R159) -/
  tries : Nat := 0
  /-- sectors that wait for a rewrite, and passes made on these tracks -/
  pend : List PendSec := []
  passes : Nat := 0
  /-- sectors written whose status 0x20 waits for a good wedge after them (R170) -/
  wait : List PendSec := []
  /-- wedge 0 has ended on the reference head since the first pending sector or the last pass (R154) -/
  index : Bool := false
  /-- the actuator's heads are being unloaded -/
  unloading : Bool := false
  /-- SRV_CTRL, SRV_LIM and SRV_SHOCK as they were at the last wedge (R177) -/
  ctrl : Word := 0x32810800
  lim : Word := 0x30181820
  shock : Word := 0x00C80019
  /-- the mechanism's stored shock limit (R175) -/
  shockMax : Nat := 0xFFFF
  deriving DecidableEq, Repr

/-! ## Bridle engines (chapter 7) -/

/-- A loop slot beside its registers. Sums and states are in 2⁻¹⁶ units. -/
structure BrdSlot where
  input : Int := 0
  missed : Bool := false
  /-- a trigger waits for its iteration; the Bridle cycle its output is due at -/
  ready : Bool := false
  due : Nat := 0
  ePrev : Int := 0
  dPrev : Int := 0
  integ : Int := 0
  s11 : Int := 0
  s12 : Int := 0
  s21 : Int := 0
  s22 : Int := 0
  held : Bool := false
  /-- the next iteration presets (R187) -/
  preset : Bool := true
  /-- the mode in force; a MODE written takes effect at the next trigger (R186) -/
  mode : Nat := 0
  /-- a switch is armed (R190) -/
  armed : Bool := false
  /-- the trigger that waits came after the GO of the switch (R190) -/
  swNext : Bool := false
  /-- outputs that wait for their time, oldest first: value, due, late -/
  pend : List (Int × Nat × Bool) := []
  /-- iterations in a row within FE_LIM ÷ 2 (R194) -/
  feLow : Nat := 0
  /-- the FE_ACT in force while FE_ACTIVE -/
  feAct : Nat := 0
  deriving DecidableEq, Repr

/-- An iteration that runs: its slot, its end, and what it computed. -/
structure BrdIter where
  slot : Nat
  /-- the Bridle cycle its output is due at, and the one it ends at -/
  due : Nat
  endAt : Nat
  isSwitch : Bool
  e : Int
  out : Int
  next : BrdSlot
  bump : Bool
  outSat : Bool
  deriving DecidableEq, Repr

/-- An engine beside its registers. -/
structure BrdEng where
  run : Option BrdIter := none
  /-- starts of the iterations of the last 1 ms, newest first (LOAD) -/
  starts : List Nat := []
  deriving DecidableEq, Repr

/-- A speed-step change of a mechanism (R192, R208): 0 a running switch to end first, 1 the spindle slot's switch, 2 the ramp, 3 the
group switch. -/
structure StepChange where
  phase : Nat
  target : Nat
  faster : Bool
  deriving DecidableEq, Repr

/-! ## Spindle and assist (chapter 8) -/

/-- A spindle instance beside its registers. -/
structure SpnPort where
  /-- commutation step of the last crossing taken, and its time in 10 ns ticks -/
  lastStep : Option Nat := none
  lastT : Nat := 0
  /-- plausible crossings in a row, and failed steps in a row -/
  plaus : Nat := 0
  fails : Nat := 0
  /-- due time of the next step, 10 ns ticks (R202) -/
  dueT : Nat := 0
  /-- crossings in a row within SPD_WTOL of the step, and that the speed left it in RUN (R213) -/
  inTol : Nat := 0
  offTol : Bool := false
  /-- electrical angle in RAMP, 1/1,024 revolution × 6 × 10¹¹, and open-loop speed in 10⁻⁵ rpm (R203) -/
  theta : Nat := 0
  olSpeed : Nat := 0
  /-- a start, a stop or a coast that is requested and not yet done -/
  wantRun : Bool := false
  wantStop : Bool := false
  coast : Bool := false
  /-- after SHORT: ALIGN instead of STOPPED -/
  alignNext : Bool := false
  /-- heads are being unloaded (R466) -/
  parking : Bool := false
  step : Option StepChange := none
  /-- wedges in a row with the speed within 0.2 % of the step changed to (R192) -/
  near : Nat := 0
  /-- the braking mechanism a start is paired with; it does not count in SPINUPS until that brake ends (R207) -/
  pairOf : Option Nat := none
  /-- PWR_UPTIME when SPEED was last updated, and crossings watched in LOST after T_COAST (R307, R212) -/
  speedAt : Nat := 0
  watch : Bool := false
  /-- the heads of a mechanism with a chopper fault: its units go ASLEEP at STOPPED (R204) -/
  chopStop : Bool := false
  /-- a BUS record has arrived since binding; its chopper flag; records in a row above BUS_TRIP; halvings (R209, R210) -/
  busSeen : Bool := false
  chopFlt : Bool := false
  trips : Nat := 0
  halved : Nat := 0
  /-- lanes without a MON record while assist is on, and lanes whose assist drive is on (R213) -/
  monLost : List Nat := []
  assistOn : List Nat := []
  /-- head lanes whose head waits for its recalibration after an assist following-error action (Table 8-4) -/
  recal : List Nat := []
  /-- by head lane: wedges since the last following-error action of its fly-height slot (R219) -/
  flyQuiet : Tab Nat := []
  /-- assist-on time not yet in ON_TIME, by head q, in µs -/
  onUs : Tab Nat := []
  /-- calibration failures in a row by head q (R216); a calibration by the firmware that waits for its result -/
  calFails : Tab Nat := []
  /-- admin command that waits: (port, CID) of Spindle Service ACTION 2 -/
  testCmd : Option (Nat × Nat) := none
  /-- the firmware issued a spindle override (Feature 0xD5) -/
  override : Bool := false
  /-- a slower target step, the 1 s evaluations in a row it has been the target, and the second of the last (R336) -/
  polTarget : Nat := 0
  polCount : Nat := 0
  polSec : Nat := 0
  /-- SET of Feature 0xD4 when OVR = 1 -/
  setOvr : Option Nat := none
  /-- Set Features 0xD4 that waits for SW_DONE: (port, CID) -/
  ovrCmd : Option (Nat × Nat) := none
  /-- its group switch waits for a switch of the engine to end -/
  ovrWait : Bool := false
  /-- by head q: sectors written, and the numbers of those that ended with status 0x23, newest first (R217) -/
  vfy : Tab (Nat × List Nat) := []
  deriving DecidableEq, Repr

/-- Shelf-wide spindle state: waiting starts and faster steps in request order, mechanisms admitted to regenerate and
those that wait (R207, R209). -/
structure SpnShelf where
  waits : List Nat := []
  regen : List Nat := []
  regenQ : List Nat := []
  deriving DecidableEq, Repr

/-! ## Ballast energy ledger (chapter 12) -/

/-- What an evaluation of the ledger comes to (R310, R311): counted mechanisms, writers, donors, NW, VMAX in MiB, E_C and
ΣK in µJ, t at VMAX in ns. -/
structure LedgerPlan where
  counted : List Nat
  capable : List Nat
  writers : List Nat
  donors : List Nat
  nw : Nat
  vmax : Nat
  ec : Nat
  ksum : Nat
  tns : Nat
  deriving DecidableEq, Repr

/-- The ledger's own state. -/
structure BalState where
  /-- requests that would lower the counted energy and wait: (port, kind, argument); kind 0 slower step, 1 stop, 2 coast,
  3 REGEN_EN = 0 (R315) -/
  held : List (Nat × Nat × Nat) := []
  /-- VUSED exceeded VMAX at the last evaluation (R314) -/
  deficit : Bool := false
  /-- donors fixed at the entry of SAFE (R316) -/
  donors : List Nat := []
  /-- the shelf's power-failure pin has stayed high for 100 ms since SAFE ended -/
  gone : Bool := false
  deriving DecidableEq, Repr

/-! ## Flash store (chapter 18) -/

/-- A checkpoint slot (R233, R426): descriptors by zone key, the latest JSEQ of each ring, PWR_UPTIME, the task credits,
TRUNC, and that the device left LOBBY for WATCH cleanly after it (R328). -/
structure Ckpt where
  zones : Tab ZoneRec
  jseq : Tab Nat
  tails : Tab (Nat × Nat)
  uptime : Nat
  credits : List Word
  trunc : Bool
  clean : Bool
  deriving DecidableEq, Repr

/-- A program or erase that runs (R431, R433): its OP, its page, the bytes to program, the pulses applied, and that
VBAND reached 2 meanwhile. -/
structure FlsJob where
  op : Nat
  page : Nat
  data : List Nat
  pulses : Nat
  volt : Bool
  deriving DecidableEq, Repr

/-- What the flash keeps beside the tables other chapters hold; it survives every reset. -/
structure FlsState where
  /-- the program or erase that runs -/
  job : Option FlsJob := none
  /-- the checkpoint in the other slot -/
  older : Option Ckpt := none
  /-- blocks erased through the command register and not stored to since -/
  erased : List Nat := []
  /-- the newest checkpoint, the slot it is in, and that one is due but waits for the FLS claim (R437) -/
  ckpt : Option Ckpt := none
  slot : Nat := 0
  due : Bool := false
  /-- SERIALs of mechanisms whose chopper is retired (R219) -/
  choppers : List (List Nat) := []
  /-- calibration values and accounts kept by SERIAL: (offset of the register, its value) (R361) -/
  cal : List (List Nat × Tab Word) := []
  /-- pages written through the command register, 256 bytes each; a page not listed is erased, or holds the firmware's
  own data in the areas it uses -/
  pages : Tab (List Nat) := []
  /-- pages and blocks that an interrupted operation left torn (R437): (block, page or none) -/
  torn : List (Nat × Option Nat) := []
  /-- the thatch capacities of the table log, by unit (R225) -/
  caps : Tab Nat := []
  /-- SERIAL of the mechanism last bound to each MECH unit (R243) -/
  members : Tab (List Nat) := []
  /-- firmware images by bank, as bytes; a bank not listed holds the image the device was made with (R398) -/
  images : Tab (List Nat) := []
  /-- the inactive bank becomes active at the next device reset (R399) -/
  flipNext : Bool := false
  /-- the firmware's event log of boots, oldest first: RST_CAUSE and WAKE_SRC (R341) -/
  bootLog : List (Nat × Nat) := []
  /-- copies of stored formats kept until Update Confirm (R403), and the slot that holds the newest checkpoint of the old version
  (R425) -/
  oldCopies : Bool := false
  oldSlot : Nat := 0
  /-- the CRC of the slot written last failed, so that the other slot replaced it (R426) -/
  ckptBad : Bool := false
  /-- the replacement map: a retired block outside FW0 and FW1 and its SPARE block (R425, R435) -/
  remap : Tab Nat := []
  deriving DecidableEq, Repr

/-! ## Background work (chapter 14) -/

/-- A calibration of an actuator that runs (R356 to R358): heads left, the first being in its step or next, the item of
the step that runs (0 between steps), the temperature at the first step's start, the heads an item failed on, verify mode,
and the values the item would replace. -/
structure CalJob where
  act : Nat
  heads : List Nat
  item : Nat
  t0 : Nat
  failed : List Nat
  verify : Bool
  saved : List (Nat × Word)
  deriving DecidableEq, Repr

/-- Background work beside its registers. -/
structure BgwState where
  /-- WORK of each task whose pass has started (R345) -/
  work : Tab Nat := []
  /-- media tasks that run: (task, actuator) -/
  runs : List (Nat × Nat) := []
  jobs : List CalJob := []
  /-- failures in a row of item 1 and item 2 by 1024 × item + 12 × actuator + head (R358) -/
  fails : Tab Nat := []
  /-- what the pending calibrations are to cover: actuator, head or all, and the (port, CID) of a command that waits for
  it (R355, R362) -/
  asked : List (Nat × Option Nat × Option (Nat × Nat)) := []
  /-- PWR_UPTIME in seconds that the credits have been aged to (R464) -/
  agedTo : Nat := 0
  /-- PWR_UPTIME in ms of the last valid reading of each temperature source: 0 to 11 external, 12 + p the base of a mechanism,
  44 + d a die sensor, 60 + p the die of a front-end, 92 the DRAM die; the sources that are invalid for want of one (R351) -/
  readAt : Tab Nat := []
  lost : List Nat := []
  /-- actuator time in µs that the foreground is still to use before the next slot; revolutions with media work since the last
  idle ones, by actuator (R348, R354) -/
  owed : Tab Nat := []
  revs : Tab Nat := []
  /-- mechanisms since when in B5 (R353) -/
  b5Since : Tab Nat := []
  /-- mechanisms unloaded for heat, not woken until their band is B4 or lower (R353) -/
  hot : List Nat := []
  /-- actuators whose pending calibration the self-test alone asks for, in verify mode (R359) -/
  verify : List Nat := []
  /-- samples in a row with a die sensor at 125 °C (R353) -/
  dieTrip : Nat := 0
  deriving DecidableEq, Repr

/-! ## Partner, hand-over and update (chapter 16) -/

/-- A digest entry of a command (R391). -/
structure Digest where
  cntlid : Nat
  sq : Nat
  cid : Nat
  opc : Nat
  nsid : Nat
  slba : Nat
  nlb : Nat
  sct : Nat
  sc : Nat
  deriving DecidableEq, Repr

/-- The partner's side beside the PRT registers. -/
structure PrtState where
  /-- the partner was heard since boot, over the peer link or by a witness (Table 16-2) -/
  heard : Bool := false
  /-- count of peer heartbeats sent (R383) -/
  hbCount : Nat := 0
  /-- step 1 of R387 runs: tokens are acquired -/
  takeover : Bool := false
  /-- a hand-over was accepted and waits for the spindles (R393); the admin command that waits for its end -/
  hoWait : Bool := false
  hoCmd : Option (Nat × Nat) := none
  /-- SHELF_PFAIL_N fell in or after phase 3: SAFE follows the hand-over (Table 16-3) -/
  hoPfail : Bool := false
  /-- detector lanes 4a + l whose slice keeps SW_INH until a good wedge after a hand-over (R393) -/
  swHeld : List Nat := []
  /-- the last standby self-test cycle found no failure (R392) -/
  selfOk : Bool := false
  /-- the mirrored ledger state: VUSED, VMAX, writers (R389) -/
  ledger : Nat × Nat × Nat := (0, 0, 0)
  /-- digest entries not withdrawn, oldest first; orphaned completions after a takeover, with port 0's EPOCH (R391) -/
  digests : List Digest := []
  orphans : List Digest := []
  orphanEpoch : Nat := 0
  /-- a pair update: the stage of R402 that runs, 0 none, and the Firmware Commit that waits -/
  upStep : Nat := 0
  upCmd : Option (Nat × Nat) := none
  /-- the firmware staging area as dwords, and one past the highest byte written (R399) -/
  stage : Tab Nat := []
  stageLen : Nat := 0
  /-- images that arrive on the relay chain: IMG_ID and its chunks by offset; IMG_IDs originated here (R400) -/
  relay : Tab (Tab (List Nat)) := []
  origin : List Nat := []
  /-- the HOP of the first relay frame received, if one was -/
  hop : Option Nat := none
  /-- STATUS frames since the last Commit: hop, result, IMG_ID (R405) -/
  status : List (Nat × Nat × Nat) := []
  deriving DecidableEq, Repr

/-! ## Microcoded sequencers (chapter 15) -/

/-- An instruction in a formatter's queue: its two halves, and the zone sequencer and thread that sent it (R366). -/
structure FInstr where
  lo : Nat
  hi : Nat
  z : Nat
  t : Nat
  /-- the sectors it covers, with what their tags hold or must hold (R135, R150) -/
  work : List SecWork := []
  /-- lanes of a course that is worked on one head at a time, the present one first (R160) -/
  alone : List Nat := []
  deriving DecidableEq, Repr

/-- A WRITE flit that the formatter has prepared: head lane 0–3 of the slice, the write-clock bit index its first bit is due
at, FLAGS, and its bits as bytes (R70, R80, R130). -/
structure WFlit where
  lane : Nat
  tstamp : Nat
  flags : Nat
  data : List Nat
  deriving DecidableEq, Repr

/-- A formatter sequencer beside its MCS_FSEQ registers, which hold STATE, PC and the like (R364, Table 15-8). -/
structure FSeq where
  g : List Nat := [0, 0, 0, 0, 0, 0, 0, 0, 0, 0, 0, 0, 0, 0, 0, 0]
  zf : Bool := false
  cf : Bool := false
  nf : Bool := false
  /-- return stack, top first -/
  stack : List Nat := []
  /-- the scratch words that microcode has stored -/
  scratch : Tab Nat := []
  queue : List FInstr := []
  cur : Option FInstr := none
  /-- port LANES, counters 0 and 1 -/
  lanes : Nat := 0
  cnt0 : Nat := 0
  cnt1 : Nat := 0
  /-- sticky conditions that are latched (R368) -/
  latch : List Nat := []
  /-- decode results that wait: RESULT and lane; the last sync decision and its lane; the last sector start's position -/
  res : List (Nat × Nat) := []
  sync : Nat × Nat := (0, 0)
  sect : Nat := 0
  /-- a write gate change that waits for the next sector start: on or off, and its lanes; the lanes whose gate is on -/
  gatePend : Option (Bool × Nat) := none
  gate : Nat := 0
  /-- a read window that waits for the next sector start, and the lanes it is open on -/
  winPend : Option Nat := none
  window : Nat := 0
  /-- WRITE flits that wait for a credit, oldest first -/
  flitPend : List WFlit := []
  /-- by lane, the sector position its WRITE flits are at and how many of them were requested (Table 15-8, WFLIT) -/
  wcur : Tab (Nat × Nat) := []
  /-- the sector position of the last status 0x20, and PWR_UPTIME of the last fault (R376, R378) -/
  lastDone : Nat := 0
  lastFault : Option Nat := none
  deriving DecidableEq, Repr

/-- What a thread of a zone sequencer waits for (Table 15-3): a condition with its timeout in µs, or room in a queue. -/
inductive ZWait where
  | cond (c timeout : Nat)
  | room (a : Nat)
  deriving DecidableEq, Repr

/-- A thread of a zone sequencer (R365). -/
structure ZThread where
  /-- the place in the fetch order of its command, or the background task whose internal command it runs (R366); a thread with
  neither is free -/
  cmd : Option Nat := none
  task : Option Nat := none
  g : List Nat := [0, 0, 0, 0, 0, 0, 0, 0, 0, 0, 0, 0, 0, 0, 0, 0]
  zf : Bool := false
  cf : Bool := false
  nf : Bool := false
  stack : List Nat := []
  pc : Nat := 0x100
  wait : Option ZWait := none
  /-- it waits at HALTPT (Table 15-6) -/
  atHalt : Bool := false
  /-- formatter results for it: actuator, status, done (R366, R376) -/
  results : List (Nat × Nat × Bool) := []
  /-- words of its descriptor window that microcode has stored -/
  window : Tab Nat := []
  /-- its timer: running, expired -/
  timerRun : Bool := false
  timerExp : Bool := false
  /-- requests on ports that pend: (port, value) -/
  reqs : List (Nat × Nat) := []
  deriving DecidableEq, Repr

/-- A zone sequencer beside its MCS_ZSEQ registers: its threads and the one that issued last. -/
structure ZSeq where
  threads : Tab ZThread := []
  last : Nat := 63
  deriving DecidableEq, Repr

/-- The microcoded sequencers; LBAs whose sectors have reached status 0x20 while the buffer holds them dirty, by LBA key;
ZMAP as it was before a zone sequencer's fault (R378). -/
structure McsState where
  fseq : Tab FSeq := []
  zseq : Tab ZSeq := []
  home : List Nat := []
  zmap : Option Nat := none
  deriving DecidableEq, Repr

/-- The state of the device. A register of the Quinryn Control Space that `regs` does not list holds its reset value. -/
structure State where
  /-- the register file: strictly rising addresses, no entry equal to the register's reset value (R9, R17) -/
  regs : Tab Word := []
  /-- high words latched by low reads (R11) -/
  latches : List Latch := []
  /-- what has left the device, newest first (log entry 5) -/
  out : List Out := []
  /-- the model's own counter of free values drawn (log entry 6) -/
  free : Nat := 0
  evt : EvtState := {}
  trs : TrsState := {}
  units : Tab UnitAux := []
  tth : Tab TthPort := []
  fe : Tab FrontEnd := []
  zmp : ZmpState := {}
  host : HostState := {}
  pwr : PwrState := {}
  fls : FlsState := {}
  prt : PrtState := {}
  bgw : BgwState := {}
  det : DetState := {}
  lanes : Tab ServoLane := []
  slices : Tab ServoSlice := []
  slots : Tab BrdSlot := []
  engines : Tab BrdEng := []
  spn : Tab SpnPort := []
  shelf : SpnShelf := {}
  bal : BalState := {}
  cch : CacheState := {}
  mem : MemState := {}
  mcs : McsState := {}
  /-- the commands that wait, first in, first out -/
  pending : List Instr := []
  deriving DecidableEq, Repr

/-- No command of this model ends in a fault: the specification reports every error in a register, a status or an event. -/
inductive Fault where
  /-- raised by nothing; kept so that the type has a name for a stop the specification does not have (safe) -/
  | none
  deriving DecidableEq, Repr

/-- Why a command has no meaning. -/
inductive Refusal where
  /-- a row of the opcode table that has no meaning yet, by its mnemonic (safe) -/
  | notModelled (mnemonic : String)
  deriving DecidableEq, Repr

/-- What a command answers. -/
abbrev Res := Host.Outcome State Fault Refusal

/-- The device after device reset (R17): every register at its reset value, every queue empty (log entries 3 and 4). -/
def State.reset : State := {}

end Sys2Proof.Machine
end

