-- ==== Sys2Proof/Machine/Ops.lean ====
section
/-! DEFINITION. The named operations on the state: reading and writing registers and fields, what is sent, free values,
counters, and who holds a block. -/
namespace Sys2Proof.Machine
open Sys2Proof

/-- The identity a master carries (Table 1-13). -/
def masterId : Master → Nat
  | .hostA => 0x00 | .hostB => 0x01 | .bmc => 0x02 | .ridge0 => 0x08 | .ridge1 => 0x09 | .ridge2 => 0x0A
  | .ridge3 => 0x0B | .partner => 0x10 | .zoneSeq => 0x18 | .debug => 0x1F

/-- The master is a Ridge core. -/
def isRidge (m : Master) : Bool := decide (8 ≤ masterId m ∧ masterId m ≤ 11)

/-- The number of a host port. -/
def portId : HPort → Nat
  | .a => 0
  | .b => 1

/-- The register at address `a`: its entry, or its value after reset where the register file lists none (R17). -/
def rd (s : State) (a : Nat) : Word := tabGet (resetWord (homeAddr a)) s.regs (homeAddr a)

/-- The register file with `w` at address `a`, in canonical form: a value equal to the reset value is not listed. -/
def putReg (t : Tab Word) (a : Nat) (w : Word) : Tab Word := if w = resetWord a then tabDel t a else tabPut t a w

/-- Write the whole register at address `a`, as the device itself does. -/
def wr (s : State) (a : Nat) (w : Word) : State := { s with regs := putReg s.regs (homeAddr a) w }

/-- Write a number to a register. -/
def wrN (s : State) (a n : Nat) : State := wr s a (BitVec.ofNat 32 n)

/-- The register at `a` as a number. -/
def rdN (s : State) (a : Nat) : Nat := (rd s a).toNat

/-- Field `f` of the register at `a`. -/
def fget (s : State) (a : Nat) (f : Fld) : Nat := getF (rd s a) f

/-- Set field `f` of the register at `a`. -/
def fset (s : State) (a : Nat) (f : Fld) (v : Nat) : State := wr s a (setF (rd s a) f v)

/-- Whether a one-bit field reads 1. -/
def fbit (s : State) (a : Nat) (f : Fld) : Bool := fget s a f = 1

/-- Set a one-bit field. -/
def fsetb (s : State) (a : Nat) (f : Fld) (b : Bool) : State := fset s a f (b2n b)

/-- Add `d` to a field, holding at its largest value (R440, saturating field). -/
def fadd (s : State) (a : Nat) (f : Fld) (d : Nat) : State := fset s a f (satAdd f.width (fget s a f) d)

/-- Bit `i` of a register. -/
def rbit (s : State) (a i : Nat) : Bool := bitOf (rd s a) i

/-- Set bit `i` of a register. -/
def wbit (s : State) (a i : Nat) (b : Bool) : State := wr s a (setBit (rd s a) i b)

/-- A register of two words, the low word at `a` (R11). -/
def rd64 (s : State) (a : Nat) : Nat := rdN s a + 2 ^ 32 * rdN s (a + 4)

/-- Write a register of two words. -/
def wr64 (s : State) (a v : Nat) : State := wrN (wrN s a (v % 2 ^ 32)) (a + 4) (v / 2 ^ 32)

/-- Record what the device sends. -/
def emit (s : State) (o : Out) : State := { s with out := o :: s.out }

/-- Record several things sent, first first. -/
def emitAll (s : State) (os : List Out) : State := { s with out := os.reverse ++ s.out }

/-- The next free value (log entry 6). -/
def freeVal (s : State) : Nat := Config.freeNat s.free

/-- The state after a free value was drawn. -/
def drawn (s : State) : State := { s with free := s.free + 1 }

/-- Apply a change for every entry of a list, in order. -/
def forAll {α : Type} (l : List α) (s : State) (f : State → α → State) : State := l.foldl f s

/-- Apply a change when a condition holds. -/
def when (b : Bool) (s : State) (f : State → State) : State := if b then f s else s

/-- Add `d` to a 31-bit statistics counter (R440): it holds at its largest value and its SAT bit reads 1 there. -/
def cntRaw (s : State) (a d : Nat) : State :=
  let v := fget s a fCNT + d
  if v < 2 ^ 31 - 1 then fset s a fCNT v else wrN s a (2 ^ 32 - 1)

/-- A 31-bit statistics counter has saturated. -/
def cntFull (s : State) (a : Nat) : Bool := rbit s a 31

/-- The master holds the claim on the block instance at `base` (R19). -/
def holds (s : State) (base : Nat) (m : Master) : Bool :=
  fbit s (xclaim base) XCLAIM_EXPERT && decide (fget s (xclaim base) XCLAIM_HOLDER = masterId m)

/-- The block instance at `base` is under expert control (R19). -/
def claimed (s : State) (base : Nat) : Bool := fbit s (xclaim base) XCLAIM_EXPERT

/-- The field of the register at `a` that begins at bit `lo` is RW (R12). -/
def fieldRw (a lo : Nat) : Bool :=
  match locate a with
  | some (r, _) => r.fields.any fun f => f.lo == lo && f.acc == .rw
  | none => false

/-- The firmware sets a field; an RW field of a block that is claimed it leaves (R20). -/
def fwSet (s : State) (a : Nat) (f : Fld) (v : Nat) : State :=
  if claimed s (instanceBase a) && fieldRw a f.lo then s else fset s a f v

/-- Release the claim on the block at `base`, HOLDER kept (R21). -/
def release (s : State) (base : Nat) : State := fsetb s (xclaim base) XCLAIM_EXPERT false

/-- The bases of every block instance that has a header (R18, R128). -/
def allBases : List Nat :=
  [baseTRS, basePWR, baseBAL, baseEVT, baseTAIL, baseMBX, baseFLS, baseTHM, baseBGW, basePRT, baseHIF, baseBUF, baseCCH,
   baseMEP, baseZMP, baseMCS] ++ (rangeFrom 0 32).map baseTTH ++ (rangeFrom 0 64).map baseACT ++
  (rangeFrom 0 16).map baseLDC ++ (rangeFrom 0 16).map baseBRD ++ (rangeFrom 0 32).map baseSPN ++
  (rangeFrom 0 4).map baseTHT

/-- Release every claim that a master's identity holds (R21). -/
def releaseHeldBy (s : State) (id : Nat) : State :=
  forAll allBases s fun s b =>
    if fbit s (xclaim b) XCLAIM_EXPERT ∧ fget s (xclaim b) XCLAIM_HOLDER = id then release s b else s

/-- Release every claim (R21: entry to SAFE or HANDOVER). -/
def releaseAll (s : State) : State := forAll allBases s release

/-- Every register from address `lo` up to `hi` takes its reset value. -/
def clearRange (s : State) (lo hi : Nat) : State :=
  { s with regs := s.regs.filter fun r => !(decide (lo ≤ r.1) && decide (r.1 < hi)) }

/-- The partner is judged ALIVE (R384). -/
def partnerAlive (s : State) : Bool := fget s PRT_STAT PRT_STAT_PARTNER = 1

/-- The device is ACTIVE (Table 16-1). -/
def isActiveRole (s : State) : Bool := fget s PRT_STAT PRT_STAT_ROLE = 1

/-- PWR_UPTIME, in milliseconds (R464). -/
def uptime (s : State) : Nat := rdN s PWR_UPTIME

end Sys2Proof.Machine
end

