-- ==== Sys2Proof/Machine/UnitRead.lean ====
section
/-! DEFINITION. Reading the unit table, the running image and the zones: the tree, what a group derives from its members
(R30, R32), and what keeps a subtree from being quiesced (R58). Nothing here changes the state. -/
namespace Sys2Proof.Machine
open Sys2Proof

/-- KIND of a unit; 0xF for an unused entry (Table 1-6). -/
def uKind (s : State) (u : Nat) : Nat := fget s (TRS_UNIT_FACE u) TRS_UNIT_FACE_KIND

/-- STATE of a unit (Table 1-2). -/
def uState (s : State) (u : Nat) : Nat := fget s (TRS_UNIT_FACE u) TRS_UNIT_FACE_STATE

/-- GRADE of a unit (Table 1-7). -/
def uGrade (s : State) (u : Nat) : Nat := fget s (TRS_UNIT_HEALTH u) TRS_UNIT_HEALTH_GRADE

/-- CAUSE of a unit. -/
def uCause (s : State) (u : Nat) : Nat := fget s (TRS_UNIT_HEALTH u) TRS_UNIT_HEALTH_CAUSE

/-- The entry is used. -/
def uUsed (s : State) (u : Nat) : Bool := decide (u < 4095) && uKind s u != 0xF

/-- PARENT of a unit, 0xFFF for the root (Table 1-8). -/
def uParent (s : State) (u : Nat) : Nat := fget s (TRS_UNIT_LINK u) TRS_UNIT_LINK_PARENT

/-- What the device holds of a unit beside its table entry. -/
def uAux (s : State) (u : Nat) : UnitAux := tabGet {} s.units u

/-- The siblings from unit `u` on, in truss order; `n` bounds the walk. -/
def siblingsFrom (s : State) : Nat → Nat → List Nat
  | 0, _ => []
  | n + 1, u =>
    if u < 0xFFF then u :: siblingsFrom s n (fget s (TRS_UNIT_AUX u) TRS_UNIT_AUX_NEXT_SIBLING) else []

/-- The members of a unit in truss order (R25). -/
def members (s : State) (u : Nat) : List Nat := siblingsFrom s 4095 (fget s (TRS_UNIT_LINK u) TRS_UNIT_LINK_FIRST_CHILD)

/-- The subtree of a unit, depth first, each unit before its members; `n` bounds the depth. -/
def subtreeN (s : State) : Nat → Nat → List Nat
  | 0, u => [u]
  | n + 1, u => u :: (members s u).flatMap (subtreeN s n)

/-- The subtree under a unit, the unit first (R24: depth at most 15). -/
def subtree (s : State) (u : Nat) : List Nat := subtreeN s 15 u

/-- A unit and the units above it; `n` bounds the walk. -/
def pathUp (s : State) : Nat → Nat → List Nat
  | 0, _ => []
  | n + 1, u => if u < 0xFFF then u :: pathUp s n (uParent s u) else []

/-- A unit and its ancestors, the unit first. -/
def ancestors (s : State) (u : Nat) : List Nat := pathUp s 16 u

/-- Unit `u` lies in the subtree under `r`. -/
def inSubtree (s : State) (r u : Nat) : Bool := (ancestors s u).contains r

/-- The UNIT record a unit of the image has. -/
def unitRec (s : State) (u : Nat) : Option UnitRec := s.trs.run.units.find? fun r => r.uid == u

/-- The MECH unit of port `p`, if the tree has one. -/
def mechUnit (s : State) (p : Nat) : Option Nat :=
  (s.trs.run.units.find? fun r => r.kind == 3 && r.loc == p).map (·.uid)

/-- The MECH unit a unit is or lies in. -/
def mechOf (s : State) (u : Nat) : Option Nat := (ancestors s u).find? fun v => uKind s v == 3

/-- The port of the mechanism a unit is or lies in. -/
def portOf (s : State) (u : Nat) : Option Nat := (mechOf s u).bind fun v => (unitRec s v).map (·.loc)

/-- The MECH units a unit spans: those of its subtree, or the one it lies in. -/
def mechsOf (s : State) (u : Nat) : List Nat :=
  match mechOf s u with
  | some v => [v]
  | none => (subtree s u).filter fun v => uKind s v == 3

/-- The ports of the mechanisms a unit spans, in member order. -/
def portsOf (s : State) (u : Nat) : List Nat := (mechsOf s u).filterMap fun v => (unitRec s v).map (·.loc)

/-- The template of the mechanism on port `p`'s slot. -/
def templateOf (s : State) (p : Nat) : Option SlotTemplate :=
  (mechUnit s p).bind fun u => (unitRec s u).bind fun r => s.trs.run.templates.find? fun t => t.tid == r.template

/-- The widths of the courses of an actuator with `heads` heads and course width `w` (R51). -/
def courseWidths (heads w : Nat) : List Nat :=
  let r := heads % w
  List.replicate (heads / w) w ++ (if r / 4 % 2 = 1 then [4] else []) ++ (if r / 2 % 2 = 1 then [2] else []) ++
  (if r % 2 = 1 then [1] else [])

/-- The unit IDs generated for one actuator from `base` on: the ACT, then for each course its ID and its SURF IDs. -/
def actIds (base : Nat) (ws : List Nat) : Nat × List (Nat × List Nat) :=
  (base, (ws.foldl (fun (acc : Nat × List (Nat × List Nat)) w =>
    (acc.1 + 1 + w, acc.2 ++ [(acc.1, rangeFrom (acc.1 + 1) w)])) (base + 1, [])).2)

/-- The generated units of a MECH record, actuator by actuator (R51). -/
def genIds (base : Nat) (t : SlotTemplate) : List (Nat × List (Nat × List Nat)) :=
  let ws := courseWidths t.heads t.courseW
  (rangeFrom 0 t.actuators).map fun k => actIds (base + k * (1 + ws.length + t.heads)) ws

/-- The generated units of the mechanism on port `p`. -/
def genOf (s : State) (p : Nat) : List (Nat × List (Nat × List Nat)) :=
  match (mechUnit s p).bind (unitRec s), templateOf s p with
  | some r, some t => genIds r.childBase t
  | _, _ => []

/-- The ACT unit of actuator `a` = 2p + k (Table 1-14). -/
def actUnit (s : State) (a : Nat) : Option Nat := ((genOf s (a / 2))[a % 2]?).map (·.1)

/-- The SURF unit of head `h` of actuator `a`. -/
def surfUnit (s : State) (a h : Nat) : Option Nat :=
  ((genOf s (a / 2))[a % 2]?).bind fun x => (x.2.flatMap (·.2))[h]?

/-- The SURF units of the mechanism on port `p`. -/
def surfsOf (s : State) (p : Nat) : List Nat := (genOf s p).flatMap fun x => x.2.flatMap (·.2)

/-- A state that makes a member available (R30): not ABSENT, FAILED or RETIRED. -/
def availState (st : Nat) : Bool := !(st == 0 || st == 5 || st == 6)

/-- The units of a list that are available. -/
def available (s : State) (l : List Nat) : List Nat := l.filter fun u => availState (uState s u)

/-- m of a THATCH unit (R50). -/
def thatchM (s : State) (u : Nat) : Nat := tabGet 0 s.trs.run.thatches u

/-- The state a composite of kind `k` takes from the states of its members: the first row of Table 1-4 (R30). -/
def deriveState (k m : Nat) (sts : List Nat) : Nat :=
  let av := sts.filter availState
  let unav := sts.length - av.length
  if sts.all (· == 0) then 0
  else if k = 1 ∧ unav ≠ 0 then
    if sts.contains 0 then 0 else if sts.contains 5 then 5 else 6
  else if (k = 2 ∨ k = 3) ∧ av = [] then if sts.contains 5 then 5 else 6
  else if k = 4 ∧ m < unav then 5
  else if av ≠ [] ∧ av.all (· == 1) then 1
  else if av.any (fun x => x == 1 || x == 2) then 2
  else if unav ≠ 0 ∨ sts.contains 4 then 4
  else 3

/-- The state of a composite: a fault of its own, or what its members give, READY turning DEGRADED under an own
impairment (R28, R30). It is ABSENT when every member is; an own fault ends with that, an own retirement does not (R29). -/
def compositeState (s : State) (u : Nat) : Nat :=
  let sts := (members s u).map (uState s)
  let d := deriveState (uKind s u) (thatchM s u) sts
  match (uAux s u).own with
  | some x => if sts.all (· == 0) then 0 else x
  | none => if d = 3 ∧ (uAux s u).impair ≠ [] then 4 else d

/-- The member with the highest GRADE, the lowest index winning a tie (R32). -/
def worstMember (s : State) : List Nat → Option Nat
  | [] => none
  | u :: us =>
    match worstMember s us with
    | some v => if uGrade s u < uGrade s v then some v else some u
    | none => some u

/-- The health a composite in state `st` takes: GRADE and CAUSE (R32). -/
def compositeGrade (s : State) (u st : Nat) : Nat × Nat :=
  let ms := members s u
  let x := uAux s u
  let unav := ms.length - (available s ms).length
  let mine := (if x.own = some 5 then [(3, x.ownCause)] else []) ++ x.grades ++ x.impair.map fun c => (2, c)
  let own := maxN (mine.map (·.1))
  let ownCause := ((mine.find? fun g => g.1 == own).map (·.2)).getD 0
  let floor := if st = 5 then 3 else if unav ≠ 0 then 2 else 0
  let mem := (worstMember s ms).map (uGrade s) |>.getD 0
  let g := max own (max floor mem)
  let c := if g = 0 then 0 else if own = g then ownCause else if floor = g then 1
    else ((worstMember s ms).map (uCause s)).getD 0
  (g, c)

/-- The state a leaf wakes into: READY, or DEGRADED when its GRADE is at least 2 (Table 1-3). -/
def wokenState (s : State) (u : Nat) : Nat := if 2 ≤ uGrade s u then 4 else 3

/-- The fence covers unit `u` (R59). -/
def fenced (s : State) (u : Nat) : Bool :=
  fbit s TRS_FENCE TRS_FENCE_FENCE && inSubtree s (fget s TRS_FENCE TRS_FENCE_ROOT) u

/-- The policy that governs a unit as POLICY fields stand: its own, or its nearest ancestor's; 0 when the root inherits
(R35). -/
def effPolicy (s : State) (u : Nat) : Nat :=
  (((ancestors s u).map fun v => fget s (TRS_UNIT_FACE v) TRS_UNIT_FACE_POLICY).find? (· != 0xF)).getD 0

/-- EFF_POLICY: the policy in effect for a unit since the last evaluation (R35, Table 1-6). -/
def policyNow (s : State) (u : Nat) : Nat := fget s (TRS_UNIT_FACE u) TRS_UNIT_FACE_EFF_POLICY

/-- The effective region of a unit: its own, or its nearest ancestor's with one; 0 for an inheriting root (R50). DESIGN
CHOICE: where the image carries no REGION record 0, a root that inherits gives STRONG with no track parity (log entry 40). -/
def effRegion (s : State) (u : Nat) : Nat :=
  (((ancestors s u).filterMap fun v => (unitRec s v).map (·.region)).find? (· != 0xFF)).getD 0

/-- The POWER record in force for a unit: that of its policy at the last evaluation (R35). -/
def powerRec (s : State) (u : Nat) : PowerRec :=
  (s.trs.run.powers.find? fun r => r.pid == policyNow s u).getD ⟨policyNow s u, 0, 0, 0, 0, 1⟩

/-- A limit of Table 2-3: the image's value, or the default `d`. -/
def limitOf (s : State) (id d : Nat) : Nat := tabGet d s.trs.run.limits id
/-- The key of zone `z` of namespace `n`. -/
def zoneKey (n z : Nat) : Nat := n * 2 ^ 32 + z

/-- The binding of a namespace in the running image. -/
def nsBind (s : State) (n : Nat) : Option NsBind := s.trs.run.binds.find? fun b => b.nsid == n

/-- LBAs of a zone of unit `u` (R226). -/
def zoneLbas (s : State) (u : Nat) : Nat := rdN s (TRS_UNIT_ZSIZE u) * 256

/-- LBAs of a zone of namespace `n`; 1 where it has none, so that divisions are harmless. -/
def nsZl (s : State) (n : Nat) : Nat :=
  match nsBind s n with
  | some b => if b.nstype = 0 then max 1 (zoneLbas s b.uid) else 1
  | none => 1

/-- Zones of namespace `n`: CAP_ZONES of its unit (R27); none of a conventional one. -/
def nsZones (s : State) (n : Nat) : Nat :=
  match nsBind s n with
  | some b => if b.nstype = 0 then rdN s (TRS_UNIT_CAP b.uid) else 0
  | none => 0

/-- LBAs of namespace `n` (R259). -/
def nsLbas (s : State) (n : Nat) : Nat :=
  match nsBind s n with
  | some b => if b.nstype = 0 then nsZones s n * nsZl s n else b.convMib * 256
  | none => 0

/-- The namespace is zoned. -/
def nsZoned (s : State) (n : Nat) : Bool := (nsBind s n).any fun b => b.nstype == 0

/-- The zone of an LBA; 0 of a conventional namespace. -/
def zoneOf (s : State) (n lba : Nat) : Nat := if nsZoned s n then lba / nsZl s n else 0

/-- The descriptor of zone `z` of namespace `n`; one not listed is Empty (R229). -/
def getZone (s : State) (n z : Nat) : ZoneRec :=
  let st := z * nsZl s n
  tabGet ⟨1, st, st, 0, 0, false⟩ s.zmp.zones (zoneKey n z)

/-- ZSTATE of an active zone: Implicitly Opened, Explicitly Opened, Closed (R229). -/
def zActive (st : Nat) : Bool := st == 2 || st == 3 || st == 4

/-- ZSTATE of an open zone. -/
def zOpen (st : Nat) : Bool := st == 2 || st == 3

/-- The lowest context index that is free, if one is: the keys of the table rise. -/
def freeCtx : Tab Nat → Nat → Option Nat
  | [], i => if i < 4096 then some i else none
  | (j, _) :: t, i => if i < j then some i else freeCtx t (i + 1)

/-- Zone key `k` holds a context. -/
def hasCtx (s : State) (k : Nat) : Bool := s.zmp.ctxs.any fun x => x.2 == k

/-- MiB staged shelf-wide, each copy counted (Table 9-4): 256 LBAs to a MiB, rounded up. -/
def stagedMib (l : List Staged) : Nat := ceilDiv (sumN (l.map fun x => x.ext.count * x.copies.length)) 256

/-- The namespaces bound to a unit. -/
def nsOfUnit (s : State) (u : Nat) : List Nat := (s.trs.run.binds.filter fun b => b.uid == u).map (·.nsid)

/-- The zones of namespace `n` that have a descriptor listed. -/
def listedZones (s : State) (n : Nat) : List Nat :=
  (s.zmp.zones.filter fun x => x.1 / 2 ^ 32 == n).map fun x => x.1 % 2 ^ 32

/-- A zone of namespace `n` is open. -/
def anyZoneOpen (s : State) (n : Nat) : Bool := (listedZones s n).any fun z => zOpen (getZone s n z).zstate

/-- I/O commands in flight to namespace `n` (R263). -/
def inFlight (s : State) (n : Nat) : Bool := s.host.cmds.any fun c => c.nsid == n

/-- The actuators a unit is made of: both of a MECH, its own of an ACT, the one it lies on of a unit below. -/
def actsOfUnit (s : State) (u : Nat) : List Nat :=
  match mechOf s u with
  | none => []
  | some m =>
    match (unitRec s m).map (·.loc) with
    | none => []
    | some p => [2 * p, 2 * p + 1].filter fun a => u == m || (actUnit s a).any fun v => inSubtree s v u

/-- The rows of a zone that a rebuild has not brought back to member `i` of a THATCH: they count as erased (R243). -/
def rebuildErased (s : State) (u i key : Nat) : Bool :=
  (rangeFrom 0 4).any fun t => fbit s (THT_RB_STAT t) THT_RB_STAT_BUSY && decide (fget s (THT_RB_CTRL t) THT_RB_CTRL_UID = u) &&
    decide (fget s (THT_RB_CTRL t) THT_RB_CTRL_MEMBER = i) && (tabGet [] s.zmp.rebuild t).contains key

/-- A rebuild that runs reads and writes actuator `a`: it lies in the THATCH unit that an engine rebuilds (R243). -/
def rebuildsOn (s : State) (a : Nat) : Bool :=
  (rangeFrom 0 4).any fun t => fbit s (THT_RB_STAT t) THT_RB_STAT_BUSY &&
    (portsOf s (fget s (THT_RB_CTRL t) THT_RB_CTRL_UID)).contains (a / 2)

/-- A media operation or a background task runs on an actuator (R58): a task, a calibration, a sector that is read, a
formatter instruction, a journal or relocation entry being written, a rebuild. -/
def actBusy (s : State) (a : Nat) : Bool :=
  ([a, 64 + a, 128 + a / 2, 160 + a / 2, 192 + a / 2].any fun t => fbit s (BGW_TASK_CTRL t) BGW_TASK_CTRL_RUN) ||
    (s.bgw.jobs.any fun j => j.act == a) || (s.det.sectors.any fun x => x.lane / 4 == a) ||
    ((tabGet {} s.mcs.fseq a).cur.isSome || (tabGet {} s.mcs.fseq a).queue != []) ||
    (s.zmp.jrnBusy.any fun x => x.1 == a / 2) || (s.zmp.relocBusy.any fun r => r.port == a / 2) || rebuildsOn s a

/-- The condition of R58 that blocks unit `u`: 1 an open zone, 2 a command in flight, 3 busy; 0 none. -/
def blocker (s : State) (u : Nat) : Nat :=
  if (nsOfUnit s u).any (anyZoneOpen s) then 1
  else if (nsOfUnit s u).any (inFlight s) then 2
  else if uState s u = 2 ∨ (availState (uState s u) ∨ uState s u = 6) ∧ uState s u ≠ 1 ∧ (actsOfUnit s u).any (actBusy s) then 3
  else 0

/-- The first blocking unit of the subtree under `r` and its blocker, in depth-first order (R58). -/
def firstBlocker (s : State) (r : Nat) : Option (Nat × Nat) :=
  ((subtree s r).map fun u => (u, blocker s u)).find? fun x => x.2 != 0

/-- TRS_QSTAT: whether the fenced subtree meets R58, and the first blocking unit. -/
def qstatWord (s : State) : Word :=
  if fbit s TRS_FENCE TRS_FENCE_FENCE then
    match firstBlocker s (fget s TRS_FENCE TRS_FENCE_ROOT) with
    | none => setF (rd s TRS_QSTAT) TRS_QSTAT_QUIESCED 1
    | some x => setF (setF (rd s TRS_QSTAT) TRS_QSTAT_BLOCKER x.2) TRS_QSTAT_UNIT x.1
  else rd s TRS_QSTAT

/-- MODE (Table 13-4). -/
def mode (s : State) : Nat := fget s PWR_MODE PWR_MODE_MODE

end Sys2Proof.Machine
end

