-- ==== Sys2Proof/Machine/Peek.lean ====
section
/-! DEFINITION. The event sources of the device and their levels (R416), and what a register shows without a side
effect of the read (R419): most show the register file, some are derived from it. -/
namespace Sys2Proof.Machine
open Sys2Proof

/-- The address of a block's EVT register; its enable register follows at the next word. -/
def evtAddr : EvtBlk → Nat
  | .pwr => PWR_EVT | .evt => EVT_EVT | .tail => TAIL_EVT | .zmp => ZMP_EVT | .bgw => BGW_EVT | .mcs => MCS_EVT
  | .hif => HIF_EVT | .buf => BUF_EVT | .cch => CCH_EVT | .mep => MEP_EVT | .bal => BAL_EVT | .thm => THM_EVT
  | .prt => PRT_EVT | .mbx => MBX_EVT | .fls => FLS_EVT
  | .ldc c => LDC_EVT c | .tht t => THT_EVT t | .tth p => TTH_EVT p | .det a => ACT_DET_EVT a
  | .fmt a => ACT_FMT_EVT a | .srv a => ACT_SRV_EVT a | .ws a => ACT_WS_EVT a
  | .brd e => BRD_EVT e | .spn p => SPN_EVT p | .ast p => AST_EVT p

/-- The sources a block's EVT register feeds, each with the mask of its bits (the chapters' "the OR of"). -/
def evtSources : EvtBlk → List (Nat × Nat)
  | .pwr => [(8, 0x7F)] | .evt => [(9, 0x3)] | .tail => [(10, 0x1FF)] | .zmp => [(32, 0x1FF)] | .bgw => [(48, 0x3F)]
  | .mcs => [(56, 0x3F)] | .hif => [(512, 0x3FF)] | .buf => [(520, 0x7)] | .cch => [(521, 0x1F)]
  | .mep => [(522, 0x33), (523, 0x1CC)] | .bal => [(576, 0x7), (577, 0x1F8)] | .thm => [(578, 0xF), (579, 0x1F0)]
  | .prt => [(580, 0x3F), (581, 0x3C0), (582, 0x7C00)] | .mbx => [(583, 0xF)] | .fls => [(584, 0xFF)]
  | .ldc c => [(16 + c, 0x3)] | .tht t => [(40 + t, 0x3F)] | .tth p => [(64 + 2 * p, 0x7), (65 + 2 * p, 0x7F8)]
  | .det a => [(128 + 4 * a, 0x7F)] | .fmt a => [(129 + 4 * a, 0x1FF)] | .srv a => [(130 + 4 * a, 0x3F)]
  | .ws a => [(131 + 4 * a, 0x7F)]
  | .brd e => [(384 + 4 * e, 0x1), (385 + 4 * e, 0x6), (386 + 4 * e, 0x18), (387 + 4 * e, 0xE0)]
  | .spn p => [(448 + 2 * p, 0x1FF)] | .ast p => [(449 + 2 * p, 0x7F)]

/-- The block whose EVT register feeds source `n`; none for a source of another kind. -/
def evtBlkOf (n : Nat) : Option EvtBlk :=
  if n = 8 then some .pwr else if n = 9 then some .evt else if n = 10 then some .tail
  else if 16 ≤ n ∧ n < 32 then some (.ldc (n - 16)) else if n = 32 then some .zmp
  else if 40 ≤ n ∧ n < 44 then some (.tht (n - 40)) else if n = 48 then some .bgw else if n = 56 then some .mcs
  else if 64 ≤ n ∧ n < 128 then some (.tth ((n - 64) / 2))
  else if 128 ≤ n ∧ n < 384 then
    let a := (n - 128) / 4
    some (if n % 4 = 0 then .det a else if n % 4 = 1 then .fmt a else if n % 4 = 2 then .srv a else .ws a)
  else if 384 ≤ n ∧ n < 448 then some (.brd ((n - 384) / 4))
  else if 448 ≤ n ∧ n < 512 then some (if n % 2 = 0 then .spn ((n - 448) / 2) else .ast ((n - 449) / 2))
  else if n = 512 then some .hif else if n = 520 then some .buf else if n = 521 then some .cch
  else if n = 522 ∨ n = 523 then some .mep else if n = 576 ∨ n = 577 then some .bal
  else if n = 578 ∨ n = 579 then some .thm else if n = 580 ∨ n = 581 ∨ n = 582 then some .prt
  else if n = 583 then some .mbx else if n = 584 then some .fls else none

/-- The enabled bits of a block's EVT register that are set. -/
def evtActive (s : State) (b : EvtBlk) : Nat := ((rd s (evtAddr b)) &&& (rd s (evtAddr b + 4))).toNat

/-- A face word of the unit table with its EVT bit set is listed in the register file. -/
def anyUnitEvt (s : State) : Bool :=
  s.regs.any fun r => decide (0x80000 ≤ r.1 ∧ r.1 < 0x100000 ∧ r.1 % 32 = 0) && bitOf r.2 0

/-- Source `n` is asserted: a level source while its condition holds; a pulse source never between commands (R416). -/
def srcLevel (s : State) (n : Nat) : Bool :=
  if n = 4 then anyUnitEvt s
  else if n = 6 then fbit s TRS_LD_STAT TRS_LD_STAT_DONE
  else match evtBlkOf n with
    | some b => (evtSources b).any fun x => x.1 == n && decide (evtActive s b &&& x.2 ≠ 0)
    | none => false

/-- A word of 32 bits from a test of each bit. -/
def wordOfBits (f : Nat → Bool) : Word :=
  BitVec.ofNat 32 (sumN ((rangeFrom 0 32).map fun i => if f i then 2 ^ i else 0))

/-- The bytes of a Tail record (Table 17-5). -/
def tailRecBytes (r : TailRec) : List Nat :=
  leBytes 4 r.time ++ leBytes 4 r.sub ++ leBytes 2 r.source ++ leBytes 2 r.rep ++ leBytes 4 r.last ++
  (r.snap.flatMap fun w => leBytes 4 w.toNat)

/-- The records of recorder `r`, oldest first. -/
def tailRecs (s : State) (r : Nat) : List TailRec := tabGet [] s.evt.tails r

/-- TAIL[r]_RDATA[w]: word `w` of record RIDX, 0 at or beyond COUNT (Table 17-9). -/
def tailRdata (s : State) (r w : Nat) : Word :=
  match (tailRecs s r)[fget s (TAIL_RIDX r) TAIL_RIDX_INDEX]? with
  | some t => BitVec.ofNat 32 (leNat (((tailRecBytes t).drop (4 * w)).take 4))
  | none => 0

/-- The channel has attention: a doorbell that its mask lets through (R410). -/
def mbxAttn (s : State) (c : Nat) : Bool := ((rd s (MBX_CH_DB c)) &&& (rd s (MBX_CH_MASK c))) ≠ 0

/-- The channel is FULL: doorbell bit 0 is set (R410). -/
def mbxFull (s : State) (c : Nat) : Bool := rbit s (MBX_CH_DB c) 0

/-- Domain `n` reports power good (PWR_DOM_STAT). -/
def domOn (s : State) (n : Nat) : Bool := rbit s (PWR_DOM_STAT (n / 32)) (n % 32)

/-- The HEALTH byte (R392): an ACTIVE sends SELFTEST_OK = 1. -/
def healthByte (s : State) : Nat :=
  uGrade s 0 + 4 * fget s PRT_STAT PRT_STAT_MIRROR_VALID + 8 * b2n (isActiveRole s || s.prt.selfOk) +
  16 * fget s PRT_STAT PRT_STAT_UPDATING

/-- PWR_CLK: a SerDes PLL runs only while a domain of its group is on (Table 13-1). -/
def clkWord (s : State) : Word :=
  let w := rd s PWR_CLK
  let g := fun i => (rangeFrom 0 4).any fun j => domOn s (11 + 4 * i + j)
  let tth := sumN ((rangeFrom 0 8).map fun i => if bitOf w (8 + i) && g i then 2 ^ i else 0)
  let pcie := sumN ((rangeFrom 0 4).map fun i => if bitOf w (4 + i) && domOn s (1 + i) then 2 ^ i else 0)
  setF (setF (setF w PWR_CLK_TTH tth) PWR_CLK_PCIE pcie) PWR_CLK_PEER (b2n (bitOf w 17 && domOn s 474))

/-- Writes that wait for the ledger, as BAL_STAT shows them. -/
def balWaiters (s : State) : Nat :=
  min 255 (s.host.cmds.filter fun c => (c.opc == 0x01 || c.opc == 0x08 || c.opc == 0x7D) && c.started && !c.admitted &&
    c.fail.isNone).length

/-- LAG: KiB of write data sent to the partner and not yet acknowledged (Table 16-8). -/
def mirrorLag (s : State) : Nat :=
  if isActiveRole s && fbit s PRT_CTRL PRT_CTRL_MIRROR_EN && fbit s PRT_STAT PRT_STAT_PEER_OK then
    min (2 ^ 24 - 1) (sumN ((s.host.cmds.filter fun c => !c.data.isEmpty && !c.mirrored && c.fail.isNone).map fun c =>
      if c.opc == 0x01 || c.opc == 0x7D then 4 * c.len else 0))
  else 0

/-- A register of a tether port that its sideband logic serves while the link layer is off (R101). -/
def tthServed (p a : Nat) : Bool :=
  decide (a < TTH_CTRL p) || [TTH_CTRL p, TTH_LINK_STAT p, TTH_HB p, TTH_TOKEN p, TTH_TSB_CMD p, TTH_TSB_STAT p, TTH_SIDEBAND p,
    TTH_WIT_PEER p, TTH_WIT_AGE p].contains a || decide (TTH_TSB_DATA p 0 ≤ a)

/-- The register at `a` belongs to a tether port whose link layer is off and does not serve it (R101). -/
def tthOff (s : State) (a : Nat) : Bool :=
  decide (baseTTH 0 ≤ a ∧ a < baseTTH 32) &&
    (let p := (a - baseTTH 0) / 0x10000
     !domOn s (43 + p) && !tthServed p a)

/-- An SRAM bank of the sample buffers and LLR slots is on (Table 13-3): bank j of 0 to 7 with a detector lane of 32j to 32j + 31,
bank 8 + i with any detector lane, as far as slots are needed, 64 to a bank. -/
def sramOn (s : State) (j : Nat) : Bool :=
  if j < 8 then (rangeFrom (139 + 32 * j) 32).any (domOn s)
  else (rangeFrom 139 256).any (domOn s) && (j == 8 || decide (64 * (j - 8) < 512 - fget s LDC_SLOTS LDC_SLOTS_FREE))

/-- Word 13 of PWR_DOM_STAT: the SRAM banks 0 to 15 follow what they serve. -/
def sramDomains (s : State) : Word :=
  rd s (PWR_DOM_STAT 13) ||| BitVec.ofNat 32 (sumN ((rangeFrom 0 16).map fun j => if sramOn s j then 2 ^ (11 + j) else 0))

/-- Word `w` of the formatter ROM: the idle loop as R370 gives it, else what the ROM holds. -/
def fRomWord (w : Nat) : Nat :=
  if w = 0x100 then 0x03000 else if w = 0x101 then 0x54FFF else if w = 0x102 then 0x02000 else (Config.fRom w).toNat % 2 ^ 20

/-- Word `w` of the zone ROM. -/
def zRomWord (w : Nat) : Nat := (Config.zRom w).toNat % 2 ^ 20

/-- Formatter `f` is halted: requested, and stopped at its halt point or without power (Table 15-7, R380). -/
def fHalted (s : State) (f : Nat) : Bool :=
  rbit s (MCS_F_HALT_LO + 4 * (f / 32)) (f % 32) && (fget s (MCS_FSEQ_W0 f) MCS_FSEQ_W0_STATE == 2 || !domOn s (75 + f))

/-- What a read of the register at `a` shows, with no side effect: RAW, the event summary, the mailbox status, the Tail
read window, the quiesce status, the HEALTH byte, the mirror's lag, the clock status, the SRAM banks' domains, the ledger's waiters, the halted
formatters and the ROM windows are derived;
every other register is read from the file. -/
def peek (s : State) (a : Nat) : Word :=
  if EVT_RAW 0 ≤ a ∧ a < EVT_RAW 20 then wordOfBits fun i => srcLevel s (32 * ((a - EVT_RAW 0) / 4) + i)
  else if TRS_UEVT_SUM 0 ≤ a ∧ a < TRS_UEVT_SUM 128 then
    wordOfBits fun i => rbit s (TRS_UNIT_FACE (32 * ((a - TRS_UEVT_SUM 0) / 4) + i)) 0
  else if MBX_CH_STAT 0 ≤ a ∧ a ≤ MBX_CH_STAT 63 ∧ (a - MBX_CH_STAT 0) % 256 = 0 then
    let c := (a - MBX_CH_STAT 0) / 256
    setF (setF (rd s a) MBX_CH_STAT_FULL (b2n (mbxFull s c))) MBX_CH_STAT_ATTN (b2n (mbxAttn s c))
  else if TAIL_RDATA 0 0 ≤ a ∧ a ≤ TAIL_RDATA 7 15 ∧ (a - TAIL_RDATA 0 0) % 256 < 64 then
    tailRdata s ((a - TAIL_RDATA 0 0) / 256) ((a - TAIL_RDATA 0 0) % 256 / 4)
  else if a = TRS_QSTAT then qstatWord s
  else if a = PRT_STAT then setF (rd s a) PRT_STAT_OWN_HEALTH (healthByte s)
  else if a = PRT_MIRROR then setF (rd s a) PRT_MIRROR_LAG (mirrorLag s)
  else if a = PWR_CLK then clkWord s
  else if a = PWR_DOM_STAT 13 then sramDomains s
  else if a = BAL_STAT then setF (rd s a) BAL_STAT_WAITERS (balWaiters s)
  else if tthOff s a then 0
  else if MCS_FROM 0 ≤ a ∧ a ≤ MCS_FROM 16383 then BitVec.ofNat 32 (fRomWord ((a - MCS_FROM 0) / 4))
  else if MCS_ZROM 0 ≤ a ∧ a ≤ MCS_ZROM 32767 then BitVec.ofNat 32 (zRomWord ((a - MCS_ZROM 0) / 4))
  else if a = MCS_F_HALTED_LO ∨ a = MCS_F_HALTED_HI then wordOfBits fun i => fHalted s (32 * ((a - MCS_F_HALTED_LO) / 4) + i)
  else rd s a

/-- Whether a register lies at the word address `a` (R16). -/
def defined (a : Nat) : Bool := (locate a).isSome

end Sys2Proof.Machine
end

