-- ==== Sys2Proof/Machine/Events.lean ====
section
/-! DEFINITION. The event router and the Tail recorders (chapter 17), and the statistics counters with their SAT events
(R440, R441). -/
namespace Sys2Proof.Machine
open Sys2Proof

/-- The snapshot a recorder takes: the registers its SEL words choose, without a side effect of the read (R419). -/
def tailSnap (s : State) (r : Nat) : List Word :=
  (rangeFrom 0 12).map fun i =>
    if fbit s (TAIL_SEL r i) TAIL_SEL_VALID then peek s (4 * fget s (TAIL_SEL r i) TAIL_SEL_OFFS) else 0

/-- A counter of a block is increased; the block's SAT bit is set when its first counter saturates. The level of the
block's source is not looked at here. -/
def cntQuiet (s : State) (a d : Nat) (b : EvtBlk) (sat : Nat) : State :=
  let t := cntRaw s a d
  if cntFull t a && !t.evt.satSeen.contains b then
    wbit { t with evt := { t.evt with satSeen := b :: t.evt.satSeen } } (evtAddr b) sat true
  else t

/-- An occurrence that recorder `r` does not record (R420, R421). -/
def tailDrop (s : State) (r : Nat) : State := cntQuiet s (TAIL_DROPPED r) 1 .tail TAIL_EVT_SAT

/-- Put the records of a recorder in place, with COUNT and FULL of its status. -/
def tailSet (s : State) (r : Nat) (l : List TailRec) : State :=
  fset (fsetb { s with evt := { s.evt with tails := tabPut s.evt.tails r l } } (TAIL_STAT r) TAIL_STAT_FULL
    (decide (2048 ≤ l.length))) (TAIL_STAT r) TAIL_STAT_COUNT l.length

/-- A record of a source that recorder `r` appends, FULL when it is the last that fits (R419, R420). -/
def tailAppend (s : State) (src r : Nat) : State :=
  let l := tailRecs s r ++ [{ time := uptime s, sub := freeVal s % 1250000, source := src, rep := 0, last := uptime s, snap := tailSnap s r }]
  let s1 := tailSet (drawn s) r l
  if l.length = 2048 then wbit s1 TAIL_EVT r true else s1

/-- An occurrence of a source at recorder `r`: a repeat of the last record, a new record, or a drop (R419 to R421). -/
def tailRecord (s : State) (src r : Nat) : State :=
  if fbit s (TAIL_CTRL r) TAIL_CTRL_FREEZE then tailDrop s r
  else
    let l := tailRecs s r
    match l.getLast? with
    | some t =>
      if t.source = src ∧ t.snap = tailSnap s r then
        if t.rep < 65535 then tailSet s r (l.dropLast ++ [{ t with rep := t.rep + 1, last := uptime s }])
        else tailDrop s r
      else if 2048 ≤ l.length then tailDrop s r
      else tailAppend s src r
    | none => tailAppend s src r

/-- An event of a controller: an outstanding Asynchronous Event Request is completed with it, or it waits for one
(R422). -/
def aenPost (s : State) (port type info log : Nat) : State :=
  match s.evt.aers.find? (fun x => x.1 == port) with
  | some r =>
    emit { s with evt := { s.evt with aers := s.evt.aers.erase r } } (.aer port r.2 type info log)
  | none => { s with evt := { s.evt with held := s.evt.held ++ [(port, type, info, log)] } }

/-- The vendor notice of a source routed with AEN for a controller; one at a time until log page 0xC8 is read (R422).
The event information is a free value. -/
def aenNotice (s : State) (port : Nat) : State :=
  if s.evt.vendorMasked.contains port then s
  else aenPost (drawn { s with evt := { s.evt with vendorMasked := port :: s.evt.vendorMasked } }) port 7
    (freeVal s % 256) 0xC8

/-- An interrupt of a port's function: an MSI-X message, or, while MSI-X is disabled, INTA for vector 0 alone (Table 10-1). -/
def hostIrq (s : State) (port vec : Nat) : State :=
  if (if port = 0 then s.host.ctlA else s.host.ctlB).msix then emit s (.msix port vec)
  else if vec = 0 then emit s (.inta port) else s

/-- An MSI-X message of the router with its count (R417). -/
def routerMsix (s : State) (port vec : Nat) : State :=
  cntQuiet (hostIrq s port vec) (EVT_CNT 1) 1 .evt EVT_EVT_SAT

/-- The peer message of the router: sent and counted, or dropped and counted when the partner is not ALIVE (R417). -/
def routerPeer (s : State) (src : Nat) : State :=
  if partnerAlive s then cntQuiet (emit s (.peerEvent src)) (EVT_CNT 2) 1 .evt EVT_EVT_SAT
  else wbit (cntQuiet s (EVT_CNT 3) 1 .evt EVT_EVT_SAT) EVT_EVT EVT_EVT_PEER_DROP true

/-- PEND of source `src` is set: the count, and, while EN is 1, the messages, the notice, and the Tail records when the
setting is an occurrence (R416, R417, R422). -/
def pendSet (s : State) (src : Nat) (occurrence : Bool) : State :=
  let w0 := EVT_RT_W0 src
  let w1 := EVT_RT_W1 src
  let s := cntQuiet (wbit s (EVT_PEND (src / 32)) (src % 32) true) (EVT_CNT 0) 1 .evt EVT_EVT_SAT
  if fbit s EVT_CTRL EVT_CTRL_EN then
    let s := when (fbit s w0 EVT_RT_W0_MSIA) s fun s => routerMsix s 0 (fget s w1 EVT_RT_W1_VEC_A)
    let s := when (fbit s w0 EVT_RT_W0_MSIB) s fun s => routerMsix s 1 (fget s w1 EVT_RT_W1_VEC_B)
    let s := when (fbit s w0 EVT_RT_W0_PEER) s fun s => routerPeer s src
    let s := when (s.evt.aen.contains (src, 0)) s fun s => aenNotice s 0
    let s := when (s.evt.aen.contains (src, 1)) s fun s => aenNotice s 1
    when occurrence s fun s =>
      forAll (rangeFrom 0 8) s fun s r => if bitOf (rd s w0) (24 + r) then tailRecord s src r else s
  else s

/-- The router's own sources 9 and 10 rise when an action of the router set a bit of EVT_EVT or TAIL_EVT (R416): `old9`
and `old10` are their levels before. -/
def ownRise (s : State) (old9 old10 : Bool) : State :=
  let r9 := srcLevel s 9 && !old9
  let s := when r9 s fun s => pendSet s 9 true
  let r10 := srcLevel s 10 && !old10
  let s := when r10 s fun s => pendSet s 10 true
  when (srcLevel s 9 && !old9 && !r9) s fun s => pendSet s 9 true

/-- A rise or a pulse of source `src` (R416). -/
def sourceRise (s : State) (src : Nat) : State :=
  ownRise (pendSet s src true) (srcLevel s 9) (srcLevel s 10)

/-- After a change of a block's EVT or enable register: each of its sources whose level rose has an occurrence;
`old` gives the levels before. -/
def risesOf (s : State) (old : State) (b : EvtBlk) : State :=
  match b with
  | .evt => ownRise s (srcLevel old 9) (srcLevel s 10)
  | .tail => ownRise s (srcLevel s 9) (srcLevel old 10)
  | _ => forAll (evtSources b) s fun s x => if srcLevel s x.1 && !srcLevel old x.1 then sourceRise s x.1 else s

/-- A hardware set of bit `i` of a block's EVT register, with the rises that follow (R416). -/
def evtSet (s : State) (b : EvtBlk) (i : Nat) : State := risesOf (wbit s (evtAddr b) i true) s b

/-- A hardware set of several bits. -/
def evtSets (s : State) (b : EvtBlk) (is : List Nat) : State := forAll is s fun s i => evtSet s b i

/-- Write a block's EVT register (W1C) or its enable register, with the rises that an enable brings. -/
def evtWrite (s : State) (b : EvtBlk) (a : Nat) (w : Word) : State :=
  if a = evtAddr b then wr s a (rd s a &&& ~~~ w) else risesOf (wr s a w) s b

/-- A write of 1 clears PEND bits; a bit whose level source is still asserted is set again in the next cycle, and its
message paths act again, without a Tail record (R416). -/
def pendClear (s : State) (n : Nat) (w : Word) : State :=
  let hit := rd s (EVT_PEND n) &&& w
  let s := wr s (EVT_PEND n) (rd s (EVT_PEND n) &&& ~~~ w)
  forAll (rangeFrom 0 32) s fun s i =>
    if bitOf hit i && srcLevel s (32 * n + i) then
      ownRise (pendSet s (32 * n + i) false) (srcLevel s 9) (srcLevel s 10) else s

/-- A statistics counter of a block is increased by `d`: `a` its register, `sat` the block's SAT bit (R440). -/
def count (s : State) (a d : Nat) (b : EvtBlk) (sat : Nat) : State :=
  let t := cntQuiet s a d b sat
  risesOf t s b

/-- A 63-bit statistics counter of a block, its low word at `a` (R440). -/
def count64 (s : State) (a d : Nat) (b : EvtBlk) (sat : Nat) : State :=
  let v := rd64 s a % 2 ^ 63 + d
  if v < 2 ^ 63 - 1 then wr64 s a v
  else
    let t := wr64 s a (2 ^ 64 - 1)
    if t.evt.satSeen.contains b then t
    else evtSet { t with evt := { t.evt with satSeen := b :: t.evt.satSeen } } b sat

/-- Global event source 3: a QCS access that R16 describes, with the master identity and the offset. -/
def undefinedAccess (s : State) (m : Master) (addr : Nat) : State :=
  sourceRise { s with evt := { s.evt with undefBy := some (masterId m, addr) } } 3

/-- SMBALERT_N is asserted: by a pending source routed to SMB, while SMB_EN and EN are 1 (R417), or by ATTN or ABT of a
channel of the baseboard controller (Table 17-3). -/
def smbAlert (s : State) : Bool :=
  (fbit s EVT_CTRL EVT_CTRL_EN && fbit s EVT_CTRL EVT_CTRL_SMB_EN &&
    (rangeFrom 0 640).any fun n => rbit s (EVT_PEND (n / 32)) (n % 32) && fbit s (EVT_RT_W0 n) EVT_RT_W0_SMB) ||
  (rangeFrom 0 64).any fun c =>
    (decide (fget s (MBX_BIND c) MBX_BIND_RECEIVER = 2) && mbxAttn s c) ||
    (decide (fget s (MBX_BIND c) MBX_BIND_SENDER = 2) && fbit s (MBX_CH_STAT c) MBX_CH_STAT_ABT)

/-- The interrupt line of Ridge core `k` is asserted (R417, Table 17-3). -/
def coreLine (s : State) (k : Nat) : Bool :=
  (fbit s EVT_CTRL EVT_CTRL_EN &&
    (rangeFrom 0 640).any fun n => rbit s (EVT_PEND (n / 32)) (n % 32) && rbit s (EVT_RT_W0 n) (20 + k)) ||
  (rangeFrom 0 64).any fun c =>
    (decide (fget s (MBX_BIND c) MBX_BIND_RECEIVER = 8 + k) && mbxAttn s c) ||
    (decide (fget s (MBX_BIND c) MBX_BIND_SENDER = 8 + k) && fbit s (MBX_CH_STAT c) MBX_CH_STAT_ABT)

end Sys2Proof.Machine
end

