-- ==== Sys2Proof/Machine/UnitOps.lean ====
section
/-! DEFINITION. The unit table (chapter 1): the tree, the faces and their EVT bits, and how a group derives its face. -/
namespace Sys2Proof.Machine
open Sys2Proof

/-- Change what the device holds of a unit. -/
def setAux (s : State) (u : Nat) (f : UnitAux → UnitAux) : State := { s with units := tabUpd {} s.units u f }

/-- A unit's EVT bit is set; source 4 rises with the first such bit (R34, R37). -/
def unitEvt (s : State) (u : Nat) : State :=
  let t := fsetb s (TRS_UNIT_FACE u) TRS_UNIT_FACE_EVT true
  if anyUnitEvt s then t else sourceRise t 4

/-- Set STATE of a unit, with EVT at a change (R34). -/
def setUState (s : State) (u st : Nat) : State :=
  if uState s u = st then s else unitEvt (fset s (TRS_UNIT_FACE u) TRS_UNIT_FACE_STATE st) u

/-- Set GRADE and CAUSE of a unit, with EVT at a change of GRADE (R34). -/
def setUGrade (s : State) (u g c : Nat) : State :=
  let t := fset (fset s (TRS_UNIT_HEALTH u) TRS_UNIT_HEALTH_GRADE g) (TRS_UNIT_HEALTH u) TRS_UNIT_HEALTH_CAUSE c
  if uGrade s u = g then t else unitEvt t u

/-- Set CAP_ZONES of a unit, with EVT at a change (R34). -/
def setUCap (s : State) (u n : Nat) : State :=
  if rdN s (TRS_UNIT_CAP u) = n then s else unitEvt (wrN s (TRS_UNIT_CAP u) n) u

/-- The impairment that makes a composite DEGRADED whose members give READY: the most recent one's cause, while the GRADE
is the one an impairment gives (R30, log entry 41). -/
def impairCause (s : State) (u g : Nat) : Option Nat :=
  let d := deriveState (uKind s u) (thatchM s u) ((members s u).map (uState s))
  if (uAux s u).own.isNone && d == 3 && g == 2 then (uAux s u).impair.head? else none

/-- One recompute of a composite's face from the faces of its members (R30, R32, R33). -/
def recompute (s : State) (u : Nat) : State :=
  let ms := members s u
  let st := compositeState s u
  let gc := compositeGrade s u st
  let unav := ms.length - (available s ms).length
  let s1 := when (decide (st = 0) && decide ((uAux s u).own = some 5)) s fun s => setAux s u fun x => { x with own := none }
  let s2 := fset s1 (TRS_UNIT_HEALTH u) TRS_UNIT_HEALTH_UNAVAIL (min unav 255)
  let s3 := fset s2 (TRS_UNIT_HEALTH u) TRS_UNIT_HEALTH_WEAR
    (maxN (ms.map fun v => fget s (TRS_UNIT_HEALTH v) TRS_UNIT_HEALTH_WEAR))
  let s4 := if uGrade s u = gc.1 then s3 else setUGrade s3 u gc.1 gc.2
  let s5 := match impairCause s u gc.1 with
    | some c => fset s4 (TRS_UNIT_HEALTH u) TRS_UNIT_HEALTH_CAUSE c
    | none => s4
  setUState s5 u st

/-- An own impairment of a composite begins (R28). -/
def impair (s : State) (u cause : Nat) : State :=
  setAux s u fun x => { x with impair := cause :: x.impair.filter (· != cause) }

/-- An own impairment of a composite ends. -/
def unimpair (s : State) (u cause : Nat) : State := setAux s u fun x => { x with impair := x.impair.filter (· != cause) }

/-- A composite has a fault of its own: it is FAILED with its cause, from any state but ABSENT and RETIRED (R28). -/
def failOwn (s : State) (u cause : Nat) : State :=
  if uState s u = 0 ∨ uState s u = 6 then s
  else setUState (setUGrade (setAux s u fun x => { x with own := some 5, ownCause := cause }) u 3 cause) u 5

/-- A chapter sets a GRADE with its CAUSE on a composite unit, the root among them; the face follows (R32). -/
def gradeUnit (s : State) (u g cause : Nat) : State :=
  if (uAux s u).grades.contains (g, cause) then s
  else recompute (setAux s u fun x => { x with grades := (g, cause) :: x.grades.filter fun y => y.2 != cause }) u

/-- The GRADE a chapter set with a CAUSE ends. -/
def ungradeUnit (s : State) (u cause : Nat) : State :=
  if (uAux s u).grades.any fun y => y.2 == cause then
    recompute (setAux s u fun x => { x with grades := x.grades.filter fun y => y.2 != cause }) u
  else s

/-- The shelf root takes GRADE at least `g` with a CAUSE. -/
def rootGrade (s : State) (g cause : Nat) : State := gradeUnit s 0 g cause

/-- A leaf has a fault that leaves it serving: GRADE at least `g` with CAUSE, READY turning DEGRADED (Table 1-3). -/
def leafGrade (s : State) (u g cause : Nat) : State :=
  let s1 := if uGrade s u < g then setUGrade s u g cause else s
  if 2 ≤ g ∧ uState s1 u = 3 then setUState s1 u 4 else s1

/-- A leaf fails for good: FAILED from any state but ABSENT and RETIRED (Table 1-3). -/
def leafFail (s : State) (u cause : Nat) : State :=
  if uState s u = 0 ∨ uState s u = 6 then s else setUState (setUGrade s u 3 cause) u 5

/-- Every SURF of the mechanism on port `p` in one of the states `from` moves to state `st`. -/
def moveSurfs (s : State) (p : Nat) (fromSt : List Nat) (st : Nat) : State :=
  forAll (surfsOf s p) s fun s u => if fromSt.contains (uState s u) then setUState s u st else s

/-- Every unit of the mechanism on port `p` goes ABSENT with its leaves (Table 1-3, presence or all lanes lost); own
faults end with it (R29). -/
def mechAbsent (s : State) (p : Nat) : State :=
  let s1 := forAll (surfsOf s p) s fun s u => setUState s u 0
  match mechUnit s p with
  | some u => setAux s1 u fun x => { x with wakeWanted := false }
  | none => s1

/-- A unit that no mechanism unloaded for heat holds (R353). -/
def coolUnit (s : State) (v : Nat) : Bool := !(portOf s v).any s.bgw.hot.contains

/-- A demand on unit `u` reaches unit `v` of its subtree: every unit on the way is available, and no fence covers `v`
(R31, R59). -/
def demandReaches (s : State) (u v : Nat) : Bool :=
  ((ancestors s v).takeWhile (· != u)).all (fun w => availState (uState s w)) && availState (uState s u) && !fenced s v

/-- Spin-up of an available mechanism is asked of the power manager, once (R31, Table 1-3). -/
def demandMech (s : State) (v : Nat) : State :=
  if availState (uState s v) then
    let t := setAux s v fun x => { x with wakeWanted := true }
    if t.pwr.wakes.contains v then t else { t with pwr := { t.pwr with wakes := t.pwr.wakes ++ [v] } }
  else s

/-- A wake demand on a unit: every available ASLEEP leaf of its subtree goes WAKING, and spin-up is asked of the power
manager for each mechanism it spans (R31, Table 1-3). A fence holds it off (R59), and a
mechanism unloaded for heat is left alone (R353). -/
def wakeDemand (s : State) (u : Nat) : State :=
  let mechs := (mechsOf s u).filter fun v =>
    coolUnit s v && availState (uState s v) && !fenced s v && (demandReaches s u v || demandReaches s v u)
  let leaves := (subtree s u).filter fun v =>
    uKind s v == 0 && (mechOf s v).any mechs.contains && demandReaches s u v
  forAll mechs (forAll leaves s fun s v => if uState s v = 1 then setUState s v 2 else s) demandMech

end Sys2Proof.Machine
end

