-- ==== Sys2Proof/Machine/MemLine.lean ====
section
/-! DEFINITION. Lines of the memories: their codes, the flips that alter them, what a read of one finds, the error log, and the
firmware's page policy (R285 to R296, R304). -/
namespace Sys2Proof.Machine
open Sys2Proof

/-- Change the memories' state. -/
def setMem (s : State) (f : MemState → MemState) : State := { s with mem := f s.mem }

/-! ### Places (R285, R286) -/

/-- Code of a DRAM region (0), or of an SRAM bank (1): 0 STRONG, 1 STANDARD, 2 LIGHT (Table 11-3). -/
def memCode (s : State) (space rgn : Nat) : Nat :=
  if space = 0 then fget s (MEP_RGN rgn) MEP_RGN_CODE else rdN s (MEP_BANK_CODE (rgn / 16)) / 4 ^ (rgn % 16) % 4

/-- The first address of a DRAM region, or of an SRAM bank of 2 MiB. -/
def lineBase (s : State) (space rgn : Nat) : Nat :=
  if space = 1 then rgn * 2 ^ 21
  else if rgn = 0 then 0 else if rgn = 1 then 0x40000000 else if rgn = 2 then 0x50000000
  else if fbit s BUF_LAYOUT BUF_LAYOUT_RGN2_1G then 0x90000000 else 0x80000000

/-- The address after its last. -/
def lineEnd (s : State) (space rgn : Nat) : Nat :=
  if space = 1 then (rgn + 1) * 2 ^ 21 else if rgn = 3 then 2 ^ 32 else lineBase s 0 (rgn + 1)

/-- The DRAM region of a page (Table 11-2). -/
def pageRegion (s : State) (page : Nat) : Nat :=
  ((rangeFrom 0 4).filter fun r => decide (lineBase s 0 r ≤ page * 4096)).length - 1

/-- DRAM channel of a line address: 256-byte units over eight channels (R286); 0 for SRAM. -/
def lineChan (space addr : Nat) : Nat := if space = 0 then addr / 256 % 8 else 0

/-! ### What a code makes of an error (R288) -/

/-- The 16-bit symbols of an XOR mask that are not zero. -/
def symbols (mask : Nat) : Nat := ((rangeFrom 0 4).filter fun i => mask / 65536 ^ i % 65536 != 0).length

/-- Bits set in a number of `n` bits. -/
def popcount (n v : Nat) : Nat := ((rangeFrom 0 n).filter fun i => v / 2 ^ i % 2 = 1).length

/-- What a read of a line with an error finds (Table 11-3): 0 no error, 1 corrected, 2 uncorrectable; beyond what the code
corrects or detects, a free value decides. -/
def flipOutcome (code mask chk free : Nat) : Nat :=
  if mask = 0 ∧ chk = 0 then 0
  else if code = 2 then 2
  else if code = 1 then
    let n := popcount 64 mask + popcount 8 chk
    if n = 1 then 1 else if n = 2 then 2 else free % 3
  else
    let n := symbols mask + (if chk = 0 then 0 else 1)
    if n = 1 then 1 else if n ≤ 3 then 2 else free % 3

/-- POS of a corrected error: the symbol (STRONG) or the bit (STANDARD). -/
def flipPos (code mask chk word : Nat) : Nat :=
  if code = 0 then
    match (rangeFrom 0 4).find? fun i => mask / 65536 ^ i % 65536 != 0 with
    | some i => 4 * word + i
    | none => 32 + word / 2
  else
    match (rangeFrom 0 64).find? fun i => mask / 2 ^ i % 2 = 1 with
    | some i => i
    | none => 64 + ((rangeFrom 0 8).find? fun i => chk / 2 ^ i % 2 = 1).getD 0

/-! ### The error log (R293) -/

/-- Entries of the log in use. -/
def celogUsed (s : State) : Nat := ((rangeFrom 0 64).filter fun i => fbit s (MEP_CELOG_W0 i) MEP_CELOG_W0_VALID).length

/-- USED follows the entries. -/
def syncCelog (s : State) : State := fset s MEP_CELOG_STAT MEP_CELOG_STAT_USED (celogUsed s)

/-- The entry of a line address, if it has one (R293). -/
def celogFind (s : State) (space addr : Nat) : Option Nat :=
  (rangeFrom 0 64).find? fun i => fbit s (MEP_CELOG_W0 i) MEP_CELOG_W0_VALID &&
    fget s (MEP_CELOG_W0 i) MEP_CELOG_W0_SPACE == space && rdN s (MEP_CELOG_W1 i) == addr

/-- An entry of the log is freed. -/
def celogFree (s : State) (i : Nat) : State := syncCelog (fsetb s (MEP_CELOG_W0 i) MEP_CELOG_W0_VALID false)

/-- An error is logged and counted (R293): the entry of its line, or the lowest free one, or the overflow. -/
def memError (s : State) (space rgn addr pos : Nat) (ue : Bool) : State :=
  let s0 := count s (if ue then MEP_UE_TOTAL else MEP_CE_TOTAL) 1 .mep MEP_EVT_SAT
  let s1 := evtSet s0 .mep (if ue then MEP_EVT_UE else MEP_EVT_CE)
  match celogFind s1 space addr with
  | some i =>
    let s2 := wrN (fadd s1 (MEP_CELOG_W0 i) MEP_CELOG_W0_COUNT 1) (MEP_CELOG_W3 i) (uptime s1)
    if ue then fset (fsetb s2 (MEP_CELOG_W0 i) MEP_CELOG_W0_UE true) (MEP_CELOG_W0 i) MEP_CELOG_W0_POS 0xFF else s2
  | none =>
    match (rangeFrom 0 64).find? fun i => !fbit s1 (MEP_CELOG_W0 i) MEP_CELOG_W0_VALID with
    | some i =>
      let w := setF (setF (setF (setF 0 MEP_CELOG_W0_VALID 1) MEP_CELOG_W0_SPACE space) MEP_CELOG_W0_UE (b2n ue)) MEP_CELOG_W0_RGN rgn
      let w' := setF (setF (setF w MEP_CELOG_W0_COUNT 1) MEP_CELOG_W0_POS (if ue then 0xFF else pos)) MEP_CELOG_W0_CHAN
        (lineChan space addr)
      syncCelog (wrN (wrN (wrN (wr s1 (MEP_CELOG_W0 i) w') (MEP_CELOG_W1 i) addr) (MEP_CELOG_W2 i) (uptime s1))
        (MEP_CELOG_W3 i) (uptime s1))
    | none =>
      if fbit s1 MEP_CELOG_STAT MEP_CELOG_STAT_OVF then s1
      else evtSet (fsetb s1 MEP_CELOG_STAT MEP_CELOG_STAT_OVF true) .mep MEP_EVT_CE_OVF

/-! ### The page policy (R295, R304) -/

/-- A retirement of a page begins; `keep` tells that the firmware asked for it and keeps the page in flash (R296). -/
def retireStart (s : State) (page : Nat) (keep : Bool) : State :=
  setMem (fsetb (fset s MEP_RET_CMD MEP_RET_CMD_PAGE page) MEP_RET_STAT MEP_RET_STAT_BUSY true) fun m => { m with keep := keep }

/-- An entry of the log names a page to retire: its COUNT reached 4, or it is an uncorrectable error in regions 0 to 2 that
no flip caused (R304). -/
def celogBad (s : State) (i : Nat) : Bool :=
  let w := MEP_CELOG_W0 i
  fbit s w MEP_CELOG_W0_VALID && !fbit s w MEP_CELOG_W0_SPACE &&
    (decide (4 ≤ fget s w MEP_CELOG_W0_COUNT) ||
      fbit s w MEP_CELOG_W0_UE && decide (fget s w MEP_CELOG_W0_RGN ≤ 2) && !s.mem.flipLines.contains (rdN s (MEP_CELOG_W1 i)))

/-- The firmware retires the page of the first such entry (R304), unless MEP is claimed or a retirement runs. -/
def pagePolicy (s : State) : State :=
  if claimed s baseMEP || fbit s MEP_RET_STAT MEP_RET_STAT_BUSY then s
  else match (rangeFrom 0 64).find? (celogBad s) with
    | some i => retireStart s (rdN s (MEP_CELOG_W1 i) / 4096) true
    | none => s

/-! ### Flips (R294) -/

/-- The flip masks as armed: the 64-bit XOR mask, the check mask, the word. -/
def flipMasks (s : State) : Nat × Nat × Nat :=
  (rd64 s MEP_FLIP_DATA_LO, fget s MEP_FLIP_CTRL MEP_FLIP_CTRL_CHK, fget s MEP_FLIP_CTRL MEP_FLIP_CTRL_WORD)

/-- The armed flip fires on a write of the line at `addr` (R294). -/
def flipFire (s : State) (addr : Nat) : State :=
  let line := addr / 64 * 64
  let s1 := fsetb (fsetb s MEP_FLIP_CTRL MEP_FLIP_CTRL_ARM false) MEP_FLIP_CTRL MEP_FLIP_CTRL_FIRED true
  let s2 := if fbit s MEP_FLIP_CTRL MEP_FLIP_CTRL_SPACE then s1 else setMem s1 fun m => { m with flipLines := line :: m.flipLines }
  evtSet (wrN s2 MEP_FLIP_ADDR line) .mep MEP_EVT_FLIP_FIRED

/-- The line an armed flip fires on as the regions or banks `lo` to `hi` are written (R294). Where the specification gives the
4 KiB block written, `page` is its address; else the line is a free value, and with ADDR_EN so is whether it is the one named. -/
def flipHits (s : State) (space lo hi : Nat) (page : Option Nat) : Option Nat :=
  let a := rdN s MEP_FLIP_ADDR / 64 * 64
  let rgn := fget s MEP_FLIP_CTRL MEP_FLIP_CTRL_RGN
  if !fbit s MEP_FLIP_CTRL MEP_FLIP_CTRL_ARM || fget s MEP_FLIP_CTRL MEP_FLIP_CTRL_SPACE != space then none
  else if fbit s MEP_FLIP_CTRL MEP_FLIP_CTRL_ADDR_EN then
    match page with
    | some b => if a / 4096 = b / 4096 then some a else none
    | none =>
      if lineBase s space lo + (if space = 0 then 4096 else 0) ≤ a ∧ a < lineEnd s space hi ∧ freeVal s % 2 = 1 then some a else none
  else if rgn < lo ∨ hi < rgn then none
  else some (page.getD (let b := lineBase s space rgn + (if space = 0 then 4096 else 0)
    b + freeVal s % (lineEnd s space rgn - b) / 64 * 64))

/-- A line of a region or bank is written and read again at once, as its unit does: what the read finds of a flip (0 none, 1
corrected, 2 uncorrectable), and the line's address. -/
def flipNow (s : State) (space lo hi : Nat) (page : Option Nat) : State × Nat × Nat :=
  match flipHits s space lo hi page with
  | none => (if fbit s MEP_FLIP_CTRL MEP_FLIP_CTRL_ARM then drawn s else s, 0, 0)
  | some a =>
    let rgn := if space = 1 then a / 2 ^ 21 % 32 else pageRegion s (a / 4096)
    let m := flipMasks s
    let code := memCode s space rgn
    let r := flipOutcome code m.1 m.2.1 (freeVal s)
    let s1 := flipFire (drawn s) a
    (if r = 0 then s1 else memError s1 space rgn a (flipPos code m.1 m.2.1 m.2.2) (r == 2), r, a)

/-! ### Lines of the write buffer and of the cache data (R288, R289) -/

/-- Lines of what a region holds under a key are written anew: an error or poison of theirs is gone (R289), and an armed flip
may fire on one of them. -/
def lineWritten (s : State) (rgn own : Nat) (page : Option Nat) : State :=
  let s0 := setMem s fun m => { m with bad := m.bad.filter fun b => !(b.rgn == rgn && b.own == own) }
  let s1 := if fbit s0 MEP_FLIP_CTRL MEP_FLIP_CTRL_ARM then drawn s0 else s0
  match flipHits s0 0 rgn rgn page with
  | none => s1
  | some a =>
    let m := flipMasks s0
    setMem (flipFire s1 a) fun x => { x with bad := ⟨rgn, own, a, m.1, m.2.1, m.2.2, false, false, false⟩ :: x.bad }

/-- The altered or poisoned line under a key. -/
def badLine (s : State) (rgn own : Nat) : Option BadLine := s.mem.bad.find? fun b => b.rgn == rgn && b.own == own

/-- Change that line. -/
def setBad (s : State) (rgn own : Nat) (f : BadLine → BadLine) : State :=
  setMem s fun m => { m with bad := m.bad.map fun b => if b.rgn = rgn ∧ b.own = own then f b else b }

/-- It is good again. -/
def dropBad (s : State) (rgn own : Nat) : State :=
  setMem s fun m => { m with bad := m.bad.filter fun b => !(b.rgn == rgn && b.own == own) }

/-- A read of what a region holds under a key (R288, R289): a correctable error is logged and corrected in memory, an
uncorrectable one is logged and marked as poison, poison is counted. The answer tells whether the line has the mark. -/
def lineRead (s : State) (rgn own : Nat) : State × Bool :=
  match badLine s rgn own with
  | none => (s, false)
  | some b =>
    if b.poison then (evtSet (count s MEP_POISON_TOTAL 1 .mep MEP_EVT_SAT) .mep MEP_EVT_POISON, true)
    else
      let code := memCode s 0 rgn
      let r := flipOutcome code b.mask b.chk (freeVal s)
      let s1 := drawn s
      if r = 2 then (setBad (memError s1 0 rgn b.addr 0xFF true) rgn own fun b => { b with poison := true }, true)
      else
        let s2 := dropBad s1 rgn own
        (if r = 1 then memError s2 0 rgn b.addr (flipPos code b.mask b.chk b.word) false else s2, false)

/-- A line under a key has the poison mark. -/
def poisoned (s : State) (rgn own : Nat) : Bool := (badLine s rgn own).any (·.poison)

/-- A line is found with an error that no code corrects, or arrives with the mark: it is poisoned from then on. -/
def addPoison (s : State) (rgn own addr : Nat) (mirrorBad : Bool) : State :=
  setMem (dropBad s rgn own) fun m => { m with bad := ⟨rgn, own, addr, 0, 0, 0, true, mirrorBad, false⟩ :: m.bad }

/-- The key of the buffer lines of the `i`-th LBA of a write before its commit point; after it, they have the LBA's. -/
def openKey (order i : Nat) : Nat := 2 ^ 64 + order * 2 ^ 17 + i

end Sys2Proof.Machine
end

