-- ==== Sys2Proof/Machine/Place.lean ====
section
/-! DEFINITION. The identity and the stored tables of a mechanism, the band map of its surfaces (R222, R224), and the mapping of an
LBA to a head (R227). -/
namespace Sys2Proof.Machine
open Sys2Proof

/-- Byte `i` of the identity block copy of port `p` (R90). -/
def identByte (s : State) (p i : Nat) : Nat := byteOf (rd s (TTH_IDENT p (i / 4))) (i % 4)

/-- A little-endian field of the identity block (Table 3-7). -/
def identField (s : State) (p off size : Nat) : Nat := leNat ((rangeFrom off size).map (identByte s p))

/-- SERIAL of the mechanism on port `p`. -/
def identSerial (s : State) (p : Nat) : List Nat := (rangeFrom 20 16).map (identByte s p)

/-- The stored tables of the mechanism on port `p`. -/
def storedOf (s : State) (p : Nat) : StoredTables := Config.stored (identSerial s p)

/-- Sector length L(c) of code `c`: STRONG, STANDARD, LIGHT (Table 5-1). -/
def sectorBits (c : Nat) : Nat := if c = 0 then 39392 else if c = 1 then 38344 else 37160

/-- Sector positions S(b, c) on a track of a rate band (R137). -/
def trackPositions (rate c : Nat) : Nat :=
  (10 * (rate * 25000 / 3) - rate * 4096 - 256000) / (10 * (sectorBits c + 96))

/-- The rate bands of a surface as (rate, first track, tracks, reversed), from the mechanism's table. -/
def storedBands : List (Nat × Nat × Bool) → Nat → List (Nat × Nat × Nat × Bool)
  | [], _ => []
  | (r, n, v) :: l, t => (r, t, n, v) :: storedBands l (t + n)

/-- The rate bands of a surface of `T` tracks from a template's band table (R222). -/
def tableBands (T : Nat) (rev : Nat → Bool) : List BandEntry → List (Nat × Nat × Nat × Bool)
  | [] => []
  | e :: l =>
    let a := e.startFrac * T / 65536
    let b := match l with
      | f :: _ => f.startFrac * T / 65536
      | [] => T
    (e.rate, a, b - a, rev a) :: tableBands T rev l

/-- Whole tracks from `t` on that the eave zone takes: the fewest whose positions reach `need` (R222). -/
def eaveTracks : List (Nat × Nat × Nat × Bool) → Nat → Nat → Nat
  | [], _, t => t
  | (r, a, n, _) :: l, need, _ =>
    let per := trackPositions r 2
    let k := ceilDiv need per
    if k ≤ n then a + k else eaveTracks l (need - n * per) (a + n)

/-- The band slots of each rate band from track `lo` on: first slot, slots, first track, tracks per slot, positions
(R222). -/
def bandRuns (c tp guard lo : Nat) : List (Nat × Nat × Nat × Bool) → Nat → List (Nat × Nat × Nat × Nat × Nat)
  | [], _ => []
  | (r, a, n, _) :: l, slot =>
    let pos := trackPositions r c - tp
    let per := ceilDiv 65536 pos + guard
    let st := max a lo
    let k := if per = 0 then 0 else (a + n - st) / per
    (slot, k, st, per, pos) :: bandRuns c tp guard lo l (slot + k)

/-- The band map of surface q of the mechanism on port `p` under template `t` (R222). -/
def bandMap (s : State) (p q : Nat) (t : SlotTemplate) : BandMap :=
  let m := storedOf s p
  let own := (m.surfaces[q]?).getD []
  let total := sumN (own.map fun x => x.2.1)
  let sb := storedBands own 0
  let rev := fun tr => (sb.find? fun x => x.2.1 ≤ tr ∧ tr < x.2.1 + x.2.2.1).any fun x => x.2.2.2
  let bands := if t.bandTbl = 0xFF then sb
    else tableBands total rev (((s.trs.run.bands.find? fun b => b.1 == t.bandTbl).map (·.2)).getD [])
  let u := (mechUnit s p).getD 0
  let reg := s.trs.run.regions.find? fun r => r.rid == effRegion s u
  let code := (reg.map (·.code)).getD 0
  let tp := (reg.map (·.tp)).getD 0
  let lo := eaveTracks bands 524288 0 + m.guardTrk
  let runs := bandRuns code tp m.guardTrk lo bands 0
  let all := sumN (runs.map fun r => r.2.1)
  { runs := runs, dataSlots := all - m.spareN, spareSlots := min all m.spareN }

/-- The band map kept of surface q of port `p`. -/
def mapOf (s : State) (p q : Nat) : BandMap := tabGet ⟨[], 0, 0⟩ s.zmp.maps (32 * p + q)

/-- B_c of a course: the smallest number of data slots among its surfaces (R224). -/
def courseSlots (s : State) (p k h0 w : Nat) : Nat :=
  match (rangeFrom h0 w).map fun h => (mapOf s p (12 * k + h)).dataSlots with
  | [] => 0
  | x :: l => l.foldl min x

/-- The courses of actuator `k` of port `p`: first head, width, zones (R224). -/
def coursesOf (s : State) (p k : Nat) : List (Nat × Nat × Nat) :=
  match templateOf s p with
  | none => []
  | some t =>
    ((courseWidths t.heads t.courseW).foldl (fun (acc : Nat × List (Nat × Nat × Nat)) w =>
      (acc.1 + w, acc.2 ++ [(acc.1, w, courseSlots s p k acc.1 w / max 1 (t.courseW / w))])) (0, [])).2

/-! ### From LBA to head (R227) -/

/-- Where a zone of a unit that is no THATCH lies: the port, the actuator k, the first head and head lane of the heads it is striped
over, how many they are, the first data slot and the slots it takes on each (R224, R227). -/
structure FlatZone where
  port : Nat
  k : Nat
  head : Nat
  lane : Nat
  width : Nat
  slot : Nat
  slots : Nat
  deriving DecidableEq, Repr

/-- Zone `z` of a unit that is no THATCH (R224, R227). -/
def flatZone (s : State) (u z : Nat) : Option FlatZone :=
  (portOf s u).bind fun p =>
    (templateOf s p).bind fun t =>
      let g := genOf s p
      let nA := max 1 g.length
      -- the actuator and the course a unit below the MECH fixes
      let kFix := if uKind s u = 3 then none
        else (rangeFrom 0 g.length).find? fun k => ((g[k]?).map fun a =>
          a.1 == u || a.2.any fun c => c.1 == u || c.2.contains u).getD false
      let k := kFix.getD (z % nA)
      let j := if uKind s u = 3 then z / nA else z
      let cs := coursesOf s p k
      let cFix := if uKind s u = 1 ∨ uKind s u = 0 then
          (rangeFrom 0 cs.length).find? fun c => (((g[k]?).bind fun a => a.2[c]?).map fun x =>
            x.1 == u || x.2.contains u).getD false
        else none
      let before := fun c => sumN ((cs.take c).map fun x => x.2.2)
      let c := cFix.getD (((rangeFrom 0 cs.length).find? fun c => j < before (c + 1)).getD 0)
      let jc := if cFix.isSome then j else j - before c
      (cs[c]?).map fun cr =>
        if uKind s u = 0 then
          let h := (((g[k]?).bind fun a => a.2[c]?).map fun x => x.2.idxOf u).getD 0
          ⟨p, k, cr.1 + h, h, 1, t.courseW * jc, t.courseW⟩
        else
          let w := max 1 cr.2.1
          let n := max 1 (t.courseW / w)
          ⟨p, k, cr.1, 0, w, n * jc, n⟩

/-- The data members of a THATCH. -/
def dataMembers (s : State) (u : Nat) : Nat := (members s u).length - thatchM s u

/-- Where a byte offset of a zone lies: port, actuator k, head, head lane, data slot, data sector (R227). `n` bounds the
nesting of THATCH units. -/
def mapOffset (s : State) : Nat → Nat → Nat → Nat → Option (Nat × Nat × Nat × Nat × Nat × Nat)
  | 0, _, _, _ => none
  | fuel + 1, u, z, o =>
    if uKind s u = 4 then
      let n := dataMembers s u
      if n = 0 then none
      else
        let b := o / 1048576
        ((members s u)[b % n]?).bind fun v => mapOffset s fuel v z (b / n * 1048576 + o % 1048576)
    else
      (flatZone s u z).map fun f =>
        let b := o / 65536
        let q := b / f.width * 65536 + o % 65536
        (f.port, f.k, f.head + b % f.width, f.lane + b % f.width, f.slot + q / 268435456, q % 268435456 / 4096)

/-- The offset of the last sector of the course stripe row that a byte offset of a zone lies in (R228). -/
def rowLast (s : State) : Nat → Nat → Nat → Nat → Nat
  | 0, _, _, o => o
  | fuel + 1, u, z, o =>
    if uKind s u = 4 then
      let n := dataMembers s u
      if n = 0 then o
      else
        let b := o / 1048576
        match (members s u)[b % n]? with
        | none => o
        | some v =>
          let e := rowLast s fuel v z (b / n * 1048576 + o % 1048576)
          (e / 1048576 * n + b % n) * 1048576 + e % 1048576
    else match flatZone s u z with
      | none => o
      | some f => (o / (f.width * 65536) + 1) * (f.width * 65536) - 4096

/-- The slots a zone of a unit takes on every surface, parity members included: port, head q, first slot, slots. -/
def zoneSlots (s : State) : Nat → Nat → Nat → List (Nat × Nat × Nat × Nat)
  | 0, _, _ => []
  | fuel + 1, u, z =>
    if uKind s u = 4 then (members s u).flatMap fun v => zoneSlots s fuel v z
    else match flatZone s u z with
      | none => []
      | some f => (rangeFrom 0 f.width).map fun i => (f.port, 12 * f.k + f.head + i, f.slot, f.slots)

/-- B_c of the course that surface q of port `p` belongs to (R224). -/
def headSlots (s : State) (p q : Nat) : Nat :=
  match (coursesOf s p (q / 12)).find? fun c => decide (c.1 ≤ q % 12 ∧ q % 12 < c.1 + c.2.1) with
  | some c => courseSlots s p (q / 12) c.1 c.2.1
  | none => (mapOf s p q).dataSlots

/-- The spare slots of a surface: those of its map, and its data slots beyond B_c (R222, R224). -/
def spareSlotsOf (s : State) (p q : Nat) : Nat := (mapOf s p q).dataSlots + (mapOf s p q).spareSlots - headSlots s p q

/-- The rate bands of surface q of the mechanism on port `p` as (rate, first track, tracks, reversed): its template's table,
or its own. -/
def surfBands (s : State) (p q : Nat) : List (Nat × Nat × Nat × Bool) :=
  let own := ((storedOf s p).surfaces[q]?).getD []
  let total := sumN (own.map fun x => x.2.1)
  let sb := storedBands own 0
  let tbl : Nat := ((templateOf s p).map (·.bandTbl)).getD 0xFF
  if tbl = 0xFF then sb
  else tableBands total (fun tr => (sb.find? fun x => x.2.1 ≤ tr ∧ tr < x.2.1 + x.2.2.1).any fun x => x.2.2.2)
    (((s.trs.run.bands.find? fun b => b.1 == tbl).map (·.2)).getD [])

/-- The rate band of a track: its index, RATE_MBPS, and that its tracks are shingled towards lower numbers. -/
def bandAt (s : State) (p q track : Nat) : Nat × Nat × Bool :=
  let l := surfBands s p q
  match ((rangeFrom 0 l.length).zip l).find? fun x => x.2.2.1 ≤ track ∧ track < x.2.2.1 + x.2.2.2.1 with
  | some x => (x.1, x.2.1, x.2.2.2.2)
  | none => (0, 0, false)

/-- Data track `k` of the slot whose first track is `base` on a surface with `pos` positions a track: in ascending order, or in
descending order in a reversed rate band (R223). -/
def bandTrack (s : State) (p q base pos k : Nat) : Nat :=
  if (bandAt s p q base).2.2 then base + (ceilDiv 65536 (max 1 pos) - 1 - k) else base + k

/-- The track and the position on it of a data sector of a data slot on surface q of port `p` (R222, R227). -/
def slotTrack (s : State) (p q slot sector : Nat) : Nat × Nat :=
  match (mapOf s p q).runs.find? fun r => r.1 ≤ slot ∧ slot < r.1 + r.2.1 with
  | some r => (bandTrack s p q (r.2.2.1 + (slot - r.1) * r.2.2.2.1) r.2.2.2.2 (sector / max 1 r.2.2.2.2), sector % max 1 r.2.2.2.2)
  | none => (0, 0)

/-- The slot of the band map that spare slot `i` of a surface is: they follow the course's data slots (R224). -/
def spareSlot (s : State) (p q i : Nat) : Nat := headSlots s p q + i

end Sys2Proof.Machine
end

