-- ==== Sys2Proof/Machine/ZoneOps.lean ====
section
/-! DEFINITION. Zones: descriptors, contexts, the journal, and the mapping from an LBA to a head (chapter 9). -/
namespace Sys2Proof.Machine
open Sys2Proof

/-! ### The mirror (R389, Table 10-6) -/

/-- The partner is STANDBY and not judged failed (Table 10-6): its heartbeats arrive (R385), and it does not report GRADE
0b11 with MIRROR_VALID = 0 (R291). -/
def standbyThere (s : State) : Bool :=
  let p := fget s PRT_STAT PRT_STAT_PARTNER
  let h := fget s PRT_STAT PRT_STAT_PARTNER_HEALTH
  decide (fget s PRT_STAT PRT_STAT_PARTNER_ROLE = 2) && (p == 1 || (p == 2 && fbit s PRT_STAT PRT_STAT_PEER_OK)) &&
    !(h % 4 == 3 && h / 4 % 2 == 0)

/-- The mirror stream flows (R389). -/
def mirrorOn (s : State) : Bool := isActiveRole s && fbit s PRT_CTRL PRT_CTRL_MIRROR_EN && standbyThere s

/-- A frame of the mirror stream: 3 write data, 4 a descriptor, 5 the ledger state, 6 a digest entry, 7 its withdrawal,
8 an extent release. -/
def mirror (s : State) (kind : Nat) (args : List Nat) : State := if mirrorOn s then emit s (.peer kind args) else s

/-- The descriptor of a zone travels to the partner (R233, R389). -/
def mirrorZone (s : State) (n z : Nat) (r : ZoneRec) : State := mirror s 4 [n, z, r.zstate, r.wp, r.mwp, r.wseq, r.rmark]

/-- Put a descriptor; each change of it goes to the partner (R389). -/
def putZone (s : State) (n z : Nat) (r : ZoneRec) : State :=
  let t := { s with zmp := { s.zmp with zones := tabPut s.zmp.zones (zoneKey n z) r } }
  if { getZone s n z with deferred := r.deferred } = r then t else mirrorZone t n z r

/-- ACTIVE of ZMP_STAT follows the contexts, PEAK their highest number (Table 9-4). -/
def ctxSync (s : State) : State :=
  let n := s.zmp.ctxs.length
  let t := fset s ZMP_STAT ZMP_STAT_ACTIVE n
  if fget t ZMP_STAT ZMP_STAT_PEAK < n then fset t ZMP_STAT ZMP_STAT_PEAK n else t

/-- A context for zone key `k`, when one is free (R231). -/
def takeCtx (s : State) (k : Nat) : Option State :=
  if hasCtx s k then some s
  else (freeCtx s.zmp.ctxs 0).map fun i => ctxSync { s with zmp := { s.zmp with ctxs := tabPut s.zmp.ctxs i k } }

/-- Release the context of zone key `k`. -/
def dropCtx (s : State) (k : Nat) : State :=
  ctxSync { s with zmp := { s.zmp with ctxs := s.zmp.ctxs.filter fun x => x.2 != k } }

/-- The rings that take the entries of a unit's zones: of the first two available MECH units, or of the one (R232). -/
def journalPorts (s : State) (u : Nat) : List Nat :=
  (((mechsOf s u).filter fun v => availState (uState s v)).take 2).filterMap fun v => (unitRec s v).map (·.loc)

/-- A journal sector with the entries of its keys begins to be written to the ring of port `p` (R232); past the last JSEQ JRN_ERR is
raised and the ring is left out (R442). -/
def journalSector (s : State) (p : Nat) (keys : List Nat) : State :=
  let j := tabGet 0 s.zmp.jseq p
  if s.zmp.jrnFull.contains p then s
  else if 2 ^ 64 - 1 ≤ j then evtSet { s with zmp := { s.zmp with jrnFull := p :: s.zmp.jrnFull } } .zmp ZMP_EVT_JRN_ERR
  else emit { s with zmp := { s.zmp with
      jseq := tabPut s.zmp.jseq p (j + 1), jrnBusy := s.zmp.jrnBusy ++ [(p, keys)]
      jrnAt := tabUpd [] s.zmp.jrnAt p fun t => keys.foldl (fun t k => tabPut t k (j + 1)) t } }
    (.media 3 (2 * p) ((j + 1) :: keys))

/-- Sectors of a journal ring of 256 MiB. -/
def ringSectors : Nat := 65536

/-- Entries are journalled in the ring of port `p`, with every entry of the sector that the ring's head overwrites which is still the
latest for its key (R232); a sector holds 63 entries. -/
def journalKeys (s : State) (p : Nat) (keys : List Nat) : State :=
  let j := tabGet 0 s.zmp.jseq p
  let old := ((tabGet [] s.zmp.jrnAt p).filter fun x => decide (x.2 + ringSectors ≤ j + 1) && !keys.contains x.1).map (·.1)
  let all := keys ++ old
  let s1 := journalSector s p (all.take 63)
  if all.length ≤ 63 then s1 else journalSector s1 p (all.drop 63)

/-- The key of a relocation entry in a ring. -/
def relocKey (r : Reloc) : Nat := 2 ^ 64 + (r.head * 2 ^ 24 + r.slot) * 4096 + r.unit

/-- The entry of a zone goes to each ring that takes it (R232). -/
def journalZone (s : State) (n z : Nat) : State :=
  match nsBind s n with
  | none => s
  | some b =>
    let k := zoneKey n z
    let s0 := { s with zmp := { s.zmp with jrnDue := s.zmp.jrnDue.filter (· != k) } }
    forAll (journalPorts s b.uid) s0 fun s p => journalKeys s p [k]

/-- A WP or MWP change: a descriptor entry follows within JRN_MS (R232). -/
def journalLater (s : State) (n z : Nat) : State :=
  if s.zmp.jrnDue.contains (zoneKey n z) then s
  else { s with zmp := { s.zmp with jrnDue := s.zmp.jrnDue ++ [zoneKey n z] } }

/-- Set ZSTATE of a zone: the context goes with the active states, and the change is journalled (R229, R232). The
caller has taken a context for a zone that becomes active. -/
def setZState (s : State) (n z st : Nat) : State :=
  let r := getZone s n z
  if r.zstate = st then s
  else
    let s1 := putZone s n z { r with zstate := st }
    let s2 := if zActive st then s1 else dropCtx s1 (zoneKey n z)
    journalZone s2 n z

/-- The actuators of the mechanisms a unit spans, each by its port, in member order. -/
def spanActs (s : State) (u : Nat) : List Nat :=
  (portsOf s u).flatMap fun p => List.replicate (((templateOf s p).map (·.actuators)).getD 0) p

/-- MiB of conventional media on the mechanism of port `p` (R236): 4 MiB granules placed round-robin over the actuators,
on a THATCH held on the next m members too, elsewhere as two copies. -/
def convMibOn (s : State) (p : Nat) : Nat :=
  sumN ((s.trs.run.binds.filter fun b => b.nstype != 0).map fun b =>
    let acts := spanActs s b.uid
    let ports := portsOf s b.uid
    let n := b.convMib / 4
    let prim := fun q =>
      if acts = [] then 0
      else n / acts.length * (acts.filter (· == q)).length + ((acts.take (n % acts.length)).filter (· == q)).length
    if !ports.contains p then 0
    else if uKind s b.uid = 4 then
      let k := ports.length
      let i := ports.idxOf p
      4 * sumN ((rangeFrom 0 (thatchM s b.uid + 1)).map fun d => prim (ports.getD ((i + k - d % k) % k) 32))
    else 8 * prim p)

/-- Staging log space of the mechanism on port `p` in MiB (R235): its eave space less the journal ring and the conventional
media. -/
def logSpace (s : State) (p : Nat) : Nat :=
  if s.trs.bound.contains p then 2048 * (surfsOf s p).length - 256 - convMibOn s p else 0

/-- Sectors staged on port `p`: each copy with its record sector. -/
def stagedOn (s : State) (p : Nat) : Nat :=
  sumN (s.zmp.staged.map fun x => (x.copies.filter (· == p)).length * (x.ext.count + 1))

/-- The ESEQ at the tail of the staging log of actuator `k` of a mechanism: of its oldest staged extent, else of the next record. The first
copy on a mechanism lies on actuator 0 and a second one on actuator 1, by DESIGN CHOICE (log entry 48). -/
def logTail (s : State) (p k : Nat) : Nat :=
  let l := (s.zmp.staged.filter fun x => decide (k < (x.copies.filter (· == p)).length)).map (·.eseq)
  match l with
  | [] => s.zmp.eseq + 1
  | x :: l => l.foldl min x

/-- FREE and AWAY of a mechanism (Table 9-4). -/
def eaveSync (s : State) (p : Nat) : State :=
  let away := (s.zmp.staged.filter fun x =>
    ((nsBind s x.ext.nsid).map fun b => portsOf s b.uid).getD [] |>.contains p).filter fun x => !x.copies.contains p
  let s1 := fset s (ZMP_EAVE p) ZMP_EAVE_AWAY (min 0xFFFF (ceilDiv (sumN (away.map fun x => x.ext.count)) 256))
  fset s1 (ZMP_EAVE p) ZMP_EAVE_FREE (min 0xFFFF (logSpace s p - ceilDiv (stagedOn s p) 256))

/-- ZMP_EAVE_TOT, and FREE and AWAY of every mechanism, follow the staged extents (Table 9-4). -/
def stagedSync (s : State) : State :=
  forAll (rangeFrom 0 32) (wrN s ZMP_EAVE_TOT (stagedMib s.zmp.staged)) eaveSync

/-- Units written in each spare slot of a surface (R244). -/
def spareUnits (s : State) (p q : Nat) : List Nat :=
  let l := tabGet [] s.zmp.spareUsed (32 * p + q)
  (rangeFrom 0 (spareSlotsOf s p q)).map fun i => l.getD i 0

/-- Free spare slots of a surface. -/
def freeSpares (s : State) (p q : Nat) : Nat := ((spareUnits s p q).filter (· == 0)).length

/-- MIN_FREE and USED of a mechanism follow its band maps and relocations (Table 9-4). -/
def spareSync (s : State) (p : Nat) : State :=
  let free := (s.zmp.maps.filter fun x => x.1 / 32 == p).map fun x => freeSpares s p (x.1 % 32)
  let used := sumN ((s.zmp.spareUsed.filter fun x => x.1 / 32 == p).map fun x => sumN x.2)
  let s1 := fset s (ZMP_SPARE p) ZMP_SPARE_USED used
  fset s1 (ZMP_SPARE p) ZMP_SPARE_MIN_FREE (match free with | [] => 0 | x :: l => min 255 (l.foldl min x))

/-- The next free unit of a surface's spare slots: the slot being filled, else the first free one (R244). -/
def spareNext (s : State) (p q : Nat) : Option Nat :=
  let l := spareUnits s p q
  let at_ := fun i => l.getD i 0
  match (rangeFrom 0 l.length).find? fun i => decide (0 < at_ i ∧ at_ i < 4096) with
  | some i => some (4096 * i + at_ i)
  | none => ((rangeFrom 0 l.length).find? fun i => at_ i == 0).map fun i => 4096 * i

/-- Spare slots of a surface whose units are all released are reset (R244). -/
def spareReset (s : State) (p q : Nat) : State :=
  let live := fun i => (s.zmp.relocs ++ s.zmp.relocBusy).any fun r => r.port == p && r.head == q && r.dest / 4096 == i
  let l := spareUnits s p q
  let left := (rangeFrom 0 l.length).map fun i => if live i then l.getD i 0 else 0
  spareSync { s with zmp := { s.zmp with spareUsed := tabPut s.zmp.spareUsed (32 * p + q) left } } p

/-- Staged extents that satisfy a test are released (R238). -/
def releaseStaged (s : State) (f : Staged → Bool) : State :=
  stagedSync { s with zmp := { s.zmp with staged := s.zmp.staged.filter fun x => !f x } }

/-- The thatch group whose rows a namespace's unit is coded in. -/
def nsThatch (s : State) (n : Nat) : Option Nat :=
  (nsBind s n).bind fun b => (ancestors s b.uid ++ subtree s b.uid).find? fun v => uKind s v == 4

/-- An accumulator that is discarded: the row's sectors stay written (R241). -/
def lostAcc (a : RowAcc) : RowAcc := { a with par := [] }

/-- The relocation entries of a zone's slots are released, and the spare slots they leave empty reset (R244). -/
def releaseRelocs (s : State) (n z : Nat) : State :=
  let sl := ((nsBind s n).map fun b => zoneSlots s 16 b.uid z).getD []
  let mine := fun (r : Reloc) => sl.any fun x => x.1 == r.port && x.2.1 == r.head && decide (x.2.2.1 ≤ r.slot) && decide (r.slot < x.2.2.1 + x.2.2.2)
  let hit := (s.zmp.relocs ++ s.zmp.relocBusy).filter mine
  let s1 := { s with zmp := { s.zmp with
    relocs := s.zmp.relocs.filter fun r => !mine r
    relocBusy := s.zmp.relocBusy.filter fun r => !mine r
    jrnAt := s.zmp.jrnAt.map fun x => (x.1, x.2.filter fun y => !hit.any fun r => r.port == x.1 && relocKey r == y.1) } }
  forAll (hit.map fun r => (r.port, r.head)).eraseDups s1 fun s x => spareReset s x.1 x.2

/-- What the formatters and the engines hold of a zone is gone with it: open tracks, rows, LBAs that failed or came home. -/
def dropZoneWork (s : State) (n z : Nat) : State :=
  let lo := n * 2 ^ 40 + z * nsZl s n
  let th := nsThatch s n
  let other := fun (a : RowAcc) => !(th == some a.thatch && a.zone == z)
  let accs := s.zmp.accs.filter other
  fset { s with
    det := { s.det with
      tracks := s.det.tracks.filter fun t => t.2.zone != zoneKey n z
      failed := s.det.failed.filter fun x => !(decide (lo ≤ x.1) && decide (x.1 < lo + nsZl s n)) }
    mcs := { s.mcs with home := s.mcs.home.filter fun x => !(decide (lo ≤ x % 2 ^ 64) && decide (x % 2 ^ 64 < lo + nsZl s n)) }
    zmp := { s.zmp with accs := accs, accLost := s.zmp.accLost.filter other } } ZMP_ACC ZMP_ACC_FREE (256 - accs.length)

/-- Reset a zone: Empty, WP to its start, RMARK = WSEQ + 1, WSEQ kept, its staged extents released unmoved, its
relocation entries and buffered data dropped (R229, R230, R238, R244). -/
def resetZone (s : State) (n z : Nat) : State :=
  let r := getZone s n z
  let st := z * nsZl s n
  let lo := n * 2 ^ 40 + st
  let s1 := releaseRelocs (dropZoneWork (putZone s n z { r with zstate := 1, wp := st, mwp := st, rmark := r.wseq + 1 }) n z) n z
  let s2 := { dropCtx s1 (zoneKey n z) with
    zmp := { (dropCtx s1 (zoneKey n z)).zmp with
      dirty := s1.zmp.dirty.filter fun e => !(e.nsid == n && e.zone == z)
      lbas := s1.zmp.lbas.filter fun x => !(decide (lo ≤ x.1) && decide (x.1 < lo + nsZl s n)) }
    mem := { s1.mem with bad := s1.mem.bad.filter fun b => b.rgn != 0 || !(decide (lo ≤ b.own) && decide (b.own < lo + nsZl s n)) } }
  journalZone (releaseStaged s2 fun x => x.ext.nsid == n && x.ext.zone == z) n z

/-- The LBA after the last one of a zone that was written, on the media or in the buffer. -/
def zoneEnd (s : State) (n z : Nat) : Nat :=
  maxN ((getZone s n z).wp :: (s.zmp.dirty.filter fun e => e.nsid == n && e.zone == z).map fun e => e.lba + e.count)

/-- The LBA after the last one of the course stripe row that an LBA of a zoned namespace lies in (R228). -/
def rowEnd (s : State) (n lba : Nat) : Nat :=
  let zl := nsZl s n
  match nsBind s n with
  | some b => lba / zl * zl + rowLast s 16 b.uid (lba / zl) (lba % zl * 4096) / 4096 + 1
  | none => lba + 1

/-- Fill of a zone that is finished (R139, R228): the LBAs from its end to the end of the partial row, and the rest of every track that
is being written, with its parity. -/
def fillZone (s : State) (n z : Nat) : State :=
  let e := zoneEnd s n z
  let s1 := if e = z * nsZl s n then s
    else if rowEnd s n (e - 1) = e then s else emit s (.media 10 0 [n, z, e, rowEnd s n (e - 1)])
  emitAll s1 ((s.det.tracks.filter fun t => t.2.zone == zoneKey n z).map fun t =>
    let q := t.1 / 2 ^ 24 % 32
    .media 9 (2 * (t.1 / 2 ^ 29) + q / 12) [n, z, q, t.1 % 2 ^ 24])

/-- Finish a zone: partial rows and tracks are filled; Full, WP at its end (R139, R228, R269). -/
def finishZone (s : State) (n z : Nat) : State :=
  let s1 := fillZone s n z
  setZState (putZone s1 n z { getZone s1 n z with wp := (z + 1) * nsZl s1 n }) n z 0xE

end Sys2Proof.Machine
end

