-- ==== Sys2Proof/Machine/CacheOps.lean ====
section
/-! DEFINITION. The read cache's operations (R297 to R303): lookup, victims, fills, dirty sub-blocks, and how it follows
the commands that change data. -/
namespace Sys2Proof.Machine
open Sys2Proof

/-- Change the cache. -/
def setCch (s : State) (f : CacheState → CacheState) : State := { s with cch := f s.cch }

/-- The key of an LBA's data. -/
def lbaKey (n lba : Nat) : Nat := n * 2 ^ 40 + lba

/-- The data an LBA has in the buffer or on the media; zeros where nothing was written (R268). -/
def lbaData (s : State) (n lba : Nat) : Nat := tabGet 0 s.zmp.lbas (lbaKey n lba)

/-- STATE of the cache: 0 OFF, 1 DRAINING, 2 ON. -/
def cchState (s : State) : Nat := fget s CCH_STAT CCH_STAT_STATE

/-- The set of a line (R297). -/
def cacheSet (n tag : Nat) : Nat := (tag % 1024) ^^^ (tag / 1024 % 1024) ^^^ (n % 64)

/-- The available ways. -/
def cacheWays (s : State) : List Nat :=
  (rangeFrom 0 16).filter fun w => fget s CCH_GEOM CCH_GEOM_WAYS / 2 ^ w % 2 = 1

/-- The frame whose line has a key. -/
def cacheFind (s : State) (n tag : Nat) : Option Nat :=
  ((cacheWays s).map fun w => 1024 * w + cacheSet n tag).find? fun f =>
    s.cch.lines.any fun x => x.1 == f && x.2.nsid == n && x.2.tag == tag

/-- The line in a frame. -/
def cacheLine (s : State) (f : Nat) : Option CacheLine := (s.cch.lines.find? fun x => x.1 == f).map (·.2)

/-- DIRTY of the status: lines with a dirty sub-block. -/
def syncCache (s : State) : State := fset s CCH_STAT CCH_STAT_DIRTY (s.cch.lines.filter fun x => x.2.dirty != 0).length

/-- Put a line in its frame; one with no valid sub-block leaves it. -/
def setLine (s : State) (f : Nat) (l : CacheLine) : State :=
  syncCache (setCch s fun c => { c with lines := if l.valid = 0 then tabDel c.lines f else tabPut c.lines f l })

/-- A line is put in its frame, and its tag written to SRAM bank 16; a flip there that no code corrects invalidates it (Table
11-5). -/
def putLine (s : State) (f : Nat) (l : CacheLine) : State :=
  let r := flipNow (setLine s f l) 1 16 16 none
  if r.2.1 = 2 then setLine r.1 f { l with valid := 0, dirty := 0 } else r.1

/-- A sub-block's data is written to region 3; its address follows from its frame (R297). -/
def subWritten (s : State) (f i : Nat) : State := lineWritten s 3 (32 * f + i) (some (0x80000000 + (32 * f + i) * 4096))

/-- The sub-blocks a frame may hold: not the test page, not the retired positions (R287, R295). -/
def frameMask (s : State) (f : Nat) : Nat :=
  sumN ((rangeFrom 0 32).map fun i =>
    if s.mem.subGone.contains (32 * f + i) ∨ (i = 0 ∧ f = 1024 * (cacheWays s).headD 0) then 0 else 2 ^ i)

/-- The tree after a use of way `w`: each node on its path points the other way. -/
def plruTouch (t w : Nat) : Nat :=
  (rangeFrom 0 4).foldl (fun t d =>
    let node := 2 ^ d + w / 2 ^ (4 - d)
    let up := w / 2 ^ (3 - d) % 2
    let bit := t / 2 ^ node % 2
    t - bit * 2 ^ node + (1 - up) * 2 ^ node) t

/-- The way the tree points to among `ok`; a half with no candidate is passed over. -/
def plruPick (t : Nat) (ok : List Nat) : Option Nat :=
  let go := fun (node base size : Nat) =>
    let b := t / 2 ^ node % 2
    let half := size / 2
    let inHalf := fun x => ok.any fun w => decide (base + x * half ≤ w) && decide (w < base + x * half + half)
    let x := if inHalf b then b else 1 - b
    (2 * node + x, base + x * half, half)
  if ok = [] then none
  else
    let a := go 1 0 16
    let b := go a.1 a.2.1 a.2.2
    let c := go b.1 b.2.1 b.2.2
    let d := go c.1 c.2.1 c.2.2
    some d.2.1

/-- Use of a frame. -/
def cacheTouch (s : State) (f : Nat) : State :=
  setCch s fun c => { c with plru := tabUpd 0 c.plru (f % 1024) fun t => plruTouch t (f / 1024) }

/-- A frame that a fill has chosen. -/
def frameBusy (s : State) (f : Nat) : Bool := s.cch.fills.any fun x => x.frame == some f

/-- The frame a fill of requester `r` chooses in a set, other than `not` (R298): an invalid way, else by the tree; none
where its mask is zero. -/
def chooseFrame (s : State) (r set : Nat) (not : Option Nat) : Option Nat :=
  let mask := fget s (CCH_WAYMASK r) CCH_WAYMASK_WAYS
  let ok := (cacheWays s).filter fun w =>
    decide (mask / 2 ^ w % 2 = 1) && !frameBusy s (1024 * w + set) && not != some (1024 * w + set)
  match ok.find? fun w => (cacheLine s (1024 * w + set)).isNone with
  | some w => some (1024 * w + set)
  | none => (plruPick (tabGet 0 s.cch.plru set) ok).map fun w => 1024 * w + set

/-- Begin a fill of the sub-blocks `mask` of a line (R297, R298, R301). -/
def beginFill (s : State) (r n tag mask : Nat) (pf : Bool) (not : Option Nat) : State :=
  let fr := match cacheFind s n tag with
    | some f => some f
    | none => chooseFrame s r (cacheSet n tag) not
  let wb := match fr.bind (cacheLine s) with
    | some l => l.dirty != 0 && !(l.nsid == n && l.tag == tag)
    | none => false
  setCch s fun c => { c with fills := c.fills ++ [⟨fr, n, tag, mask, r, 0, wb, false, pf, wb, s.host.order⟩] }

/-- A request for a line that a fill has chosen as its victim (R301): a clean one is kept and the fill chooses another,
a dirty one stays after its write-back. -/
def victimHit (s : State) (f : Nat) : State :=
  match s.cch.fills.find? fun x => x.frame == some f with
  | none => s
  | some x =>
    if (cacheLine s f).any fun l => l.nsid == x.nsid && l.tag == x.tag then s
    else if x.wb then setCch s fun c => { c with fills := c.fills.map fun y => if y = x then { y with hit := true } else y }
    else
      let s1 := count (setCch s fun c => { c with fills := c.fills.erase x }) (CCH_CNT 6) 1 .cch CCH_EVT_SAT
      beginFill s1 x.req x.nsid x.tag x.mask x.pf (some f)

/-- A lookup of the sub-blocks `mask` of a line by requester `r` (R297): counted, the tree and a prefetched line marked as
used; the missing sub-blocks are asked for. -/
def cacheLookup (s : State) (r n tag mask : Nat) : State :=
  if cchState s = 0 then s
  else match cacheFind s n tag with
    | some f =>
      match cacheLine s f with
      | some l =>
        let miss := mask - (mask &&& l.valid)
        let s1 := cacheTouch (victimHit s f) f
        let s2 := if l.pre then count (putLine s1 f { l with pre := false }) (CCH_CNT 8) 1 .cch CCH_EVT_SAT else s1
        if miss = 0 then count s2 (CCH_CNT 0) 1 .cch CCH_EVT_SAT
        else beginFill (count s2 (CCH_CNT 1) 1 .cch CCH_EVT_SAT) r n tag miss false none
      | none => s
    | none => beginFill (count s (CCH_CNT 2) 1 .cch CCH_EVT_SAT) r n tag mask false none

/-- The data of an LBA as a read of the cache serves it: the line's, where it is valid and the cache is not OFF. -/
def cacheData (s : State) (n lba : Nat) : Option Nat :=
  if cchState s = 0 then none
  else (cacheFind s n (lba / 32)).bind fun f => (cacheLine s f).bind fun l =>
    if l.valid / 2 ^ (lba % 32) % 2 = 1 then some (tabGet 0 l.data (lba % 32)) else none

/-- An event that R300 would have applied while the cache is OFF: STALE. -/
def markStale (s : State) : State :=
  if fbit s CCH_STAT CCH_STAT_STALE then s else evtSet (fsetb s CCH_STAT CCH_STAT_STALE true) .cch CCH_EVT_STALE

/-- A write of an LBA commits (R300): its cached sub-block takes the data and is clean; a fill under way drops it. -/
def cacheWrite (s : State) (n lba v : Nat) : State :=
  let i := lba % 32
  let s1 := setCch s fun c =>
    { c with fills := c.fills.map fun x =>
        if x.nsid = n ∧ x.tag = lba / 32 ∧ x.gone / 2 ^ i % 2 = 0 then { x with gone := x.gone + 2 ^ i } else x }
  match cacheFind s1 n (lba / 32) with
  | some f =>
    match cacheLine s1 f with
    | some l =>
      if l.valid / 2 ^ i % 2 = 0 then s1
      else if cchState s1 = 0 then markStale s1
      else subWritten (putLine s1 f { l with dirty := l.dirty - l.dirty / 2 ^ i % 2 * 2 ^ i, data := tabPut l.data i v }) f i
    | none => s1
  | none => s1

/-- Every line of a test is invalidated, dirty sub-blocks included (R300); while the cache is OFF they stay, stale. -/
def cacheDrop (s : State) (hit : Nat → Nat → Bool) : State :=
  let any := s.cch.lines.any fun x => hit x.2.nsid x.2.tag
  let s1 := setCch s fun c => { c with fills := c.fills.map fun x => if hit x.nsid x.tag then { x with gone := x.mask } else x }
  if !any then s1
  else if cchState s1 = 0 then markStale s1
  else syncCache (setCch s1 fun c => { c with lines := c.lines.filter fun x => !hit x.2.nsid x.2.tag })

/-- The lines of a zone go (R300): Reset and Offline. -/
def cacheDropZone (s : State) (n z : Nat) : State :=
  let zl := nsZl s n
  cacheDrop s fun m tag => m == n && decide (z * zl < 32 * (tag + 1)) && decide (32 * tag < (z + 1) * zl)

/-- A sub-block of a line at or above an LBA is valid. -/
def reachesLba (l : CacheLine) (lba : Nat) : Bool := (rangeFrom 0 32).any fun i => decide (lba ≤ 32 * l.tag + i) && decide (l.valid / 2 ^ i % 2 = 1)

/-- The cache holds no sub-block of a zone at or above an LBA, its WP (R300). -/
def cacheTrim (s : State) (n z wp : Nat) : State :=
  let hit := s.cch.lines.filter fun x => x.2.nsid == n && decide (32 * x.2.tag < (z + 1) * nsZl s n) && reachesLba x.2 wp
  let s1 := setCch s fun c => { c with fills := c.fills.map fun x =>
    if x.nsid = n ∧ wp < 32 * (x.tag + 1) ∧ 32 * x.tag < (z + 1) * nsZl s n then { x with gone := x.mask } else x }
  if hit = [] then s1
  else if cchState s1 = 0 then markStale s1
  else
    forAll hit s1 fun s x =>
      let keep := 2 ^ min 32 (wp - 32 * x.2.tag)
      putLine s x.1 { x.2 with valid := x.2.valid % keep, dirty := x.2.dirty % keep }

/-- The lines of a namespace go (R300): its binding changed. -/
def cacheDropNs (s : State) (n : Nat) : State := cacheDrop s fun m _ => m == n

/-- Requester 3 or 4 installs data that is not yet in its mapped place: a dirty sub-block (R299). -/
def cacheInstall (s : State) (r n lba v : Nat) : State :=
  if cchState s = 0 then s
  else
    let i := lba % 32
    let fr := match cacheFind s n (lba / 32) with
      | some f => some f
      | none => (chooseFrame s r (cacheSet n (lba / 32)) none).bind fun f =>
          if (cacheLine s f).any fun l => l.dirty != 0 then none else some f
    match fr with
    | none => s
    | some f =>
      let l : CacheLine := match cacheLine s f with
        | some l => if l.nsid = n ∧ l.tag = lba / 32 then l else ⟨n, lba / 32, 0, 0, [], false⟩
        | none => ⟨n, lba / 32, 0, 0, [], false⟩
      let b := 2 ^ i
      if frameMask s f / b % 2 = 0 then s
      else cacheTouch (subWritten (putLine s f
        { l with valid := l.valid - l.valid / b % 2 * b + b, dirty := l.dirty - l.dirty / b % 2 * b + b, data := tabPut l.data i v }) f i) f

/-- Data that reached status 0x20 is clean in the cache (R299). -/
def cacheClean (s : State) (n lba : Nat) : State :=
  match cacheFind s n (lba / 32) with
  | some f =>
    match cacheLine s f with
    | some l => putLine s f { l with dirty := l.dirty - l.dirty / 2 ^ (lba % 32) % 2 * 2 ^ (lba % 32) }
    | none => s
  | none => s

/-- MAX_STRIDE in LBAs and CONFIRM in use (Table 11-8). -/
def maxStride (s : State) : Nat := 32 * max 1 (fget s CCH_PF_CTRL CCH_PF_CTRL_MAX_STRIDE)

/-- CONFIRM in use. -/
def pfConfirm (s : State) : Nat := max 1 (fget s CCH_PF_CTRL CCH_PF_CTRL_CONFIRM)

/-- A read of a stream (R302): its detector follows the stride, or a detector is taken; ACTIVE counts them. -/
def strideTrack (s : State) (r n zone slba len : Nat) : State :=
  if cchState s = 0 ∨ !fbit s CCH_CTRL CCH_CTRL_PF_EN then s
  else
    let mine := fun (d : StrideDet) => d.req == r && d.nsid == n && d.zone == zone
    let d : StrideDet := match s.cch.dets.find? mine with
      | some d =>
        let st : Int := (slba : Int) - (d.last : Int)
        if st = 0 ∨ maxStride s < absI st then { d with last := slba, len := len, stride := 0, run := 0, ahead := 0 }
        else if st = d.stride then { d with last := slba, len := len, run := d.run + 1, ahead := d.ahead - 1 }
        else { d with last := slba, len := len, stride := st, run := 1, ahead := 0 }
      | none => ⟨r, n, zone, slba, len, 0, 0, 0⟩
    let s1 := setCch s fun c => { c with dets := (d :: c.dets.filter fun x => !mine x).take 256 }
    fset s1 CCH_PF_STAT CCH_PF_STAT_ACTIVE s1.cch.dets.length

/-- The LBAs of a line's dirty sub-blocks. -/
def dirtyLbas (l : CacheLine) : List Nat :=
  ((rangeFrom 0 32).filter fun i => l.dirty / 2 ^ i % 2 = 1).map fun i => 32 * l.tag + i

end Sys2Proof.Machine
end

