-- ==== Sys2Proof/Machine/Codes.lean ====
section
/-! DEFINITION. The codes of the links and of the media: binary fields, Reed-Solomon codes over them, the CRC-16 of the
tether sideband, and the tether lane's FEC with its mapping to levels (R69, R87, R138, R240). -/
namespace Sys2Proof.Machine
open Sys2Proof

/-! ### Binary fields -/

/-- A field GF(2^bits): its number of bits, and its primitive polynomial with the leading term. -/
structure BinField where
  bits : Nat
  poly : Nat
  deriving DecidableEq, Repr

/-- GF(2¹⁰) of the tether FEC (R69), GF(2¹⁶) of track parity (R138), GF(2⁸) of thatch parity (R240). -/
def gf10 : BinField := ⟨10, 0x409⟩
def gf16 : BinField := ⟨16, 0x1100B⟩
def gf8 : BinField := ⟨8, 0x11D⟩

/-- An element times α. -/
def gfStep (f : BinField) (a : Nat) : Nat := if a < 2 ^ (f.bits - 1) then 2 * a else (2 * a) ^^^ f.poly

/-- The product of two elements over the lowest `n` bits of the second. -/
def gfMulN (f : BinField) : Nat → Nat → Nat → Nat
  | 0, _, _ => 0
  | n + 1, a, b => (if b % 2 = 1 then a else 0) ^^^ gfMulN f n (gfStep f a) (b / 2)

/-- The product of two elements. -/
def gfMul (f : BinField) (a b : Nat) : Nat := gfMulN f f.bits a b

/-- The power of an element to an exponent of `n` bits. -/
def gfPowN (f : BinField) : Nat → Nat → Nat → Nat
  | 0, _, _ => 1
  | n + 1, a, e => let r := gfPowN f n (gfMul f a a) (e / 2); if e % 2 = 1 then gfMul f a r else r

/-- The power of an element. -/
def gfPow (f : BinField) (a e : Nat) : Nat := gfPowN f 32 a e

/-- α to a power. -/
def gfAlpha (f : BinField) (e : Nat) : Nat := gfPow f 2 e

/-- The inverse of an element that is not zero. -/
def gfInv (f : BinField) (a : Nat) : Nat := gfPow f a (2 ^ f.bits - 2)

/-- The sum of a list of elements. -/
def gfSum (l : List Nat) : Nat := l.foldl (· ^^^ ·) 0

/-- A polynomial, lowest coefficient first, at a place. -/
def polyAt (f : BinField) : List Nat → Nat → Nat
  | [], _ => 0
  | c :: cs, x => c ^^^ gfMul f x (polyAt f cs x)

/-- A polynomial times x + r. -/
def polyRoot (f : BinField) (p : List Nat) (r : Nat) : List Nat :=
  (p.map (gfMul f r) ++ [0]).zipWith (· ^^^ ·) (0 :: p)

/-- The polynomial with the given roots. -/
def polyRoots (f : BinField) (rs : List Nat) : List Nat := rs.foldl (polyRoot f) [1]

/-! ### Reed-Solomon codes with roots α⁰ to α^(k − 1) -/

/-- The generator with `k` roots, lowest coefficient first. -/
def rsGen (f : BinField) (k : Nat) : List Nat := polyRoots f ((rangeFrom 0 k).map (gfAlpha f))

/-- The remainder register, highest coefficient first, after one more data symbol. -/
def rsFeed (f : BinField) (k : Nat) (reg : List Nat) (sym : Nat) : List Nat :=
  let t := sym ^^^ reg.headD 0
  (reg.drop 1 ++ [0]).zipWith (fun r g => r ^^^ gfMul f t g) ((rsGen f k).take k).reverse

/-- The `k` parity symbols of data symbols; a codeword's first symbol is its highest coefficient. -/
def rsParity (f : BinField) (k : Nat) (data : List Nat) : List Nat := data.foldl (rsFeed f k) (List.replicate k 0)

/-- Syndrome `i` of a codeword: its value at α^i. -/
def rsSyndrome (f : BinField) (w : List Nat) (i : Nat) : Nat := polyAt f w.reverse (gfAlpha f i)

/-- The `k` syndromes of a codeword. -/
def rsSyndromes (f : BinField) (k : Nat) (w : List Nat) : List Nat := (rangeFrom 0 k).map (rsSyndrome f w)

/-- The locator of place `j` of a codeword of `n` symbols. -/
def rsLocator (f : BinField) (n j : Nat) : Nat := gfAlpha f (n - 1 - j)

/-- The value of the error at locator `x` when the errors lie at the locators `xs`, by the first syndromes: the polynomial
with the other locators as roots picks it out. -/
def rsErrorAt (f : BinField) (syn xs : List Nat) (x : Nat) : Nat :=
  let l := polyRoots f (xs.filter (· != x))
  gfMul f (gfSum (l.zipWith (gfMul f) syn)) (gfInv f (polyAt f l x))

/-- The codeword with the symbols at the places `js` corrected by the syndromes. -/
def rsCorrect (f : BinField) (k : Nat) (w : List Nat) (js : List Nat) : List Nat :=
  let syn := rsSyndromes f k w
  let xs := js.map (rsLocator f w.length)
  js.foldl (fun v j => updAt v j fun a => a ^^^ rsErrorAt f syn xs (rsLocator f w.length j)) w

/-- Where the Berlekamp-Massey iteration stands: the locator polynomial, the one before the last change of length with its
discrepancy and age, and the length. -/
structure BmState where
  c : List Nat
  b : List Nat
  disc : Nat
  age : Nat
  len : Nat
  deriving DecidableEq, Repr

/-- Coefficient-wise sum of polynomials. -/
def polyAdd (a b : List Nat) : List Nat :=
  (rangeFrom 0 (max a.length b.length)).map fun i => a.getD i 0 ^^^ b.getD i 0

/-- One iteration on syndrome `n`. -/
def bmStep (f : BinField) (syn : List Nat) (x : BmState) (n : Nat) : BmState :=
  let d := gfSum ((rangeFrom 0 (x.len + 1)).map fun i => if i ≤ n then gfMul f (x.c.getD i 0) (syn.getD (n - i) 0) else 0)
  if d = 0 then { x with age := x.age + 1 }
  else
    let k := gfMul f d (gfInv f x.disc)
    let c := polyAdd x.c (List.replicate x.age 0 ++ x.b.map (gfMul f k))
    if 2 * x.len ≤ n then ⟨c, x.c, d, 1, n + 1 - x.len⟩ else { x with c := c, age := x.age + 1 }

/-- The error locator polynomial of syndromes, with its length. -/
def bmLocator (f : BinField) (syn : List Nat) : List Nat × Nat :=
  let x := (rangeFrom 0 syn.length).foldl (bmStep f syn) ⟨[1], [1], 1, 1, 0⟩
  (x.c, x.len)

/-- A codeword corrected of up to k ÷ 2 wrong symbols; none when it cannot be corrected. -/
def rsDecode (f : BinField) (k : Nat) (w : List Nat) : Option (List Nat) :=
  let m := bmLocator f (rsSyndromes f k w)
  let js := (rangeFrom 0 w.length).filter fun j => polyAt f m.1 (gfInv f (rsLocator f w.length j)) == 0
  if m.2 ≤ k / 2 ∧ js.length = m.2 then some (rsCorrect f k w js) else none

/-! ### The tether lane (R69) -/

/-- A number's `n` lowest bits, least significant first. -/
def lsbBits (n v : Nat) : List Nat := (rangeFrom 0 n).map fun i => v / 2 ^ i % 2

/-- The number that bits spell, least significant first. -/
def bitsNat : List Nat → Nat
  | [] => 0
  | b :: bs => b % 2 + 2 * bitsNat bs

/-- A list cut into `m` pieces of `n` entries. -/
def chunks {α : Type} (n : Nat) : Nat → List α → List (List α)
  | 0, _ => []
  | m + 1, l => l.take n :: chunks n m (l.drop n)

/-- Symbols of ten bits from bytes, first byte least significant bit first. -/
def fecSymbols (bytes : List Nat) : List Nat :=
  let bits := bytes.flatMap (lsbBits 8)
  (chunks 10 (bits.length / 10) bits).map bitsNat

/-- Every second entry of a list from place `i` on. -/
def everyOther {α : Type} (i : Nat) (l : List α) : List α :=
  ((rangeFrom 0 l.length).zip l).filterMap fun x => if x.1 % 2 = i then some x.2 else none

/-- The 272 symbols of a codeword pair in the order they are sent: 256 data symbols go alternately to the two codewords,
each takes its 8 parity symbols, and the pair is sent symbol by symbol in turn. -/
def fecPair (bytes : List Nat) : List Nat :=
  let syms := fecSymbols bytes
  let cw := fun i => let d := everyOther i syms; d ++ rsParity gf10 8 d
  ((cw 0).zip (cw 1)).flatMap fun x => [x.1, x.2]

/-- The PAM4 level of two bits, by Gray code. DESIGN CHOICE: the bit sent first is the upper bit of the level (log
entry 43). -/
def pam4 (b1 b0 : Nat) : Nat := if b1 % 2 = 0 then b0 % 2 else 3 - b0 % 2

/-- The levels of bits, two bits to a unit interval. -/
def pam4Levels : List Nat → List Nat
  | a :: b :: l => pam4 a b :: pam4Levels l
  | _ => []

/-- The 1,360 levels that carry the 320 bytes of flit data of a codeword pair. -/
def lanePair (bytes : List Nat) : List Nat := pam4Levels ((fecPair bytes).flatMap (lsbBits 10))

/-- The levels a lane sends for a flit stream, codeword pair by codeword pair; bytes that fill no pair wait. -/
def laneLevels (bytes : List Nat) : List Nat := (chunks 320 (bytes.length / 320) bytes).flatMap lanePair

/-- A codeword pair as received: its data bytes where both codewords can be corrected, and the symbols corrected. -/
def fecReceive (syms : List Nat) : Option (List Nat × Nat) :=
  (rsDecode gf10 8 (everyOther 0 syms)).bind fun a =>
    (rsDecode gf10 8 (everyOther 1 syms)).map fun b =>
      let sent := (a.zip b).flatMap fun x => [x.1, x.2]
      let bits := (sent.take 256).flatMap (lsbBits 10)
      ((chunks 8 320 bits).map bitsNat, ((sent.zip syms).filter fun x => x.1 != x.2).length)

/-! ### CRC-16 of the tether sideband (R87) -/

/-- The CRC-16 register after `n` more shifts of polynomial 0x1021. -/
def crc16Shift : Nat → Nat → Nat
  | 0, c => c
  | n + 1, c => crc16Shift n (if c < 0x8000 then 2 * c else (2 * c % 0x10000) ^^^ 0x1021)

/-- CRC-16 of bytes: polynomial 0x1021, initial value 0xFFFF, no reflection. -/
def crc16 (l : List Nat) : Nat := l.foldl (fun c b => crc16Shift 8 (c ^^^ b % 256 * 256)) 0xFFFF

end Sys2Proof.Machine
end

