-- ==== Sys2Proof/Machine/Dsp.lean ====
section
/-! DEFINITION. A detector lane's stages on a span of samples (R108 to R115), the sequence detector (R112), and the decode
of a codeword (R118, R131). Functions of data alone. Where the specification gives a stage its form and not its numbers, the
numbers are constants of Config without a body, or choices that log entry 44 lists. -/
namespace Sys2Proof.Machine
open Sys2Proof

/-! ### What a lane works with -/

/-- The settings of one detection: RATIO, the loop gains, the step of the equaliser, the taps, the target and the noise
predictors in use, what adapts, the defect detector's enables and thresholds, the head's calibrated envelope, and the
interpolator's start phase in 1/32 bit. -/
structure DetSet where
  ratio : Nat
  kp : Nat
  ki : Nat
  mu : Nat
  taps : List Int
  tgt : List Int
  pred : List Int
  adapt : Bool
  taOn : Bool
  dropOn : Bool
  baseOn : Bool
  taThr : Nat
  dropThr : Nat
  baseThr : Nat
  guard : Nat
  env : Nat
  phase : Nat
  deriving DecidableEq, Repr

/-- The defect detector between two bits: the open spans by kind with where they began (thermal asperity with the baseline
before it), bits in a row beyond BASE_THR, the spans closed so far, newest first, and the thermal asperities seen. -/
structure DefState where
  ta : Option (Nat × Int) := none
  drop : Option Nat := none
  base : Option Nat := none
  baseCnt : Nat := 0
  gap : Option Nat := none
  spans : List (Nat × Nat) := []
  tas : Nat := 0
  deriving DecidableEq, Repr

/-- A lane between two bits: the place of the next bit in 2⁻²⁰ samples, the tracked offset in 2⁻²⁰ samples a bit, the
interpolated samples, the taps in 2⁻²⁴, the equaliser's outputs, the hard decisions, and their targets, all newest first;
the sum of the squared errors; the defect detector. -/
structure DetLoop where
  place : Int
  ofs : Int := 0
  ys : List Int := []
  taps : List Int
  zs : List Int := []
  bits : List Nat := []
  ds : List Int := []
  sq : Nat := 0
  df : DefState := {}
  deriving DecidableEq, Repr

/-- What the stages leave of a span: the equaliser's outputs and hard decisions bit by bit, the erasure spans, thermal
asperities, the tracked offset in ppm, the mean squared error, and the taps. -/
structure Detected where
  zs : List Int
  bits : List Nat
  spans : List (Nat × Nat)
  tas : Nat
  fofs : Int
  mse : Nat
  taps : List Int
  deriving DecidableEq, Repr

/-! ### Timing recovery and equaliser (R109, R110) -/

/-- A channel bit as the medium magnetisation ±1. -/
def bitLevel (b : Nat) : Int := if b % 2 = 1 then 1 else -1

/-- The noiseless output of a target for bits, newest first, in sample units. -/
def targetOut (tgt : List Int) (bits : List Nat) : Int :=
  ((rangeFrom 0 5).map fun i => tgt.getD i 0 * bitLevel (bits.getD i 0)).foldl (· + ·) 0 * Config.tgtUnit / 16

/-- The interpolated sample at a place: an 8-tap filter of the phase the place falls in, of 64 (R109). -/
def interpolate (smp : List Int) (place : Int) : Int :=
  let i := (place / 2 ^ 20).toNat
  let ph := (place % 2 ^ 20 / 2 ^ 14).toNat
  ((rangeFrom 0 8).map fun j => Config.interpTap ph j * smp.getD (i + j - 3) 0).foldl (· + ·) 0 / 256

/-- The equaliser's output (R110): 16 taps on the interpolated samples, newest first. -/
def equalise (taps ys : List Int) : Int := ((taps.zip ys).map fun x => x.1 * x.2).foldl (· + ·) 0 / 2 ^ 24

/-- The hard decision: the bit whose target output, after the bits decided before it, lies nearer to the output. -/
def hardBit (tgt : List Int) (before : List Nat) (z : Int) : Nat :=
  if absI (z - targetOut tgt (1 :: before)) ≤ absI (z - targetOut tgt (0 :: before)) then 1 else 0

/-- The taps after one bit of sign-error LMS with step 2^−MU. -/
def lmsTaps (mu : Nat) (e : Int) (taps ys : List Int) : List Int :=
  let g : Int := if e < 0 then 1 else if 0 < e then -1 else 0
  taps.zipWith (fun t y => clampI (-(2 ^ 25)) (2 ^ 25 - 1) (t + g * y * 2 ^ 16 / 2 ^ mu)) (ys ++ List.replicate 16 0)

/-- The Mueller–Müller phase error of two successive outputs and their targets. -/
def phaseError (z d z1 d1 : Int) : Int := (d1 * z - d * z1) * Config.pdUnit

/-! ### Defects (R113) -/

/-- The baseline at a bit: a low-pass reading of the outputs up to it, newest first. -/
def baseline (zs : List Int) : Int := Config.lowPass (zs.take 64)

/-- The envelope over the last 128 bits. -/
def envelope (zs : List Int) : Nat := maxN ((zs.take 128).map absI)

/-- A kind's span opens, goes on or closes at bit `n`; a closed one is listed. -/
def spanStep (n : Nat) (isOn ends : Bool) (x : Option Nat) (l : List (Nat × Nat)) : Option Nat × List (Nat × Nat) :=
  match x with
  | none => (if isOn then some n else none, l)
  | some a => if ends then (none, (a, n) :: l) else (some a, l)

/-- The defect detector takes bit `n`, whose output is the newest of `zs`; `bad` tells that its sample was lost with a flit
(Table 4-2; full scale is 64). -/
def defectStep (p : DetSet) (n : Nat) (zs : List Int) (bad : Bool) (x : DefState) : DefState :=
  let b := baseline zs
  let taStart := p.taOn && decide (64 ≤ n) && decide ((p.taThr : Int) < b - baseline (zs.drop 64))
  let x1 := match x.ta with
    | none => if taStart then { x with ta := some (n, baseline (zs.drop 64)), tas := x.tas + 1 } else x
    | some a => if absI (b - a.2) * 2 ≤ p.taThr then { x with ta := none, spans := (a.1, n) :: x.spans } else x
  let low := p.dropOn && decide (128 ≤ n) && decide (envelope zs * 256 < p.dropThr * p.env)
  let r2 := spanStep n low (!low) x1.drop x1.spans
  let cnt := if p.baseThr < absI b then x.baseCnt + 1 else 0
  let r3 := spanStep n (p.baseOn && decide (512 < cnt)) (decide (absI b * 2 ≤ p.baseThr)) x1.base r2.2
  let r4 := spanStep n bad (!bad) x1.gap r3.2
  { x1 with drop := r2.1, base := r3.1, gap := r4.1, baseCnt := cnt, spans := r4.2 }

/-- Every span still open ends with bit `n`. -/
def closeSpans (n : Nat) (x : DefState) : List (Nat × Nat) :=
  ([x.ta.map (·.1), x.drop, x.base, x.gap].filterMap fun o => o.map fun a => (a, n)) ++ x.spans

/-- A span is put into a list that rises by its beginning. -/
def insertSpan (x : Nat × Nat) : List (Nat × Nat) → List (Nat × Nat)
  | [] => [x]
  | y :: l => if x.1 ≤ y.1 then x :: y :: l else y :: insertSpan x l

/-- Spans that overlap, or lie within `g` bits of each other, are one. -/
def mergeSpans (g : Nat) : Nat → List (Nat × Nat) → List (Nat × Nat)
  | 0, l => l
  | _, [] => []
  | _, [x] => [x]
  | k + 1, x :: y :: l => if y.1 ≤ x.2 + g then mergeSpans g k ((x.1, max x.2 y.2) :: l) else x :: mergeSpans g k (y :: l)

/-- At most 64 spans: a further one is merged into the 64th. -/
def capSpans (l : List (Nat × Nat)) : List (Nat × Nat) :=
  if l.length ≤ 64 then l
  else l.take 63 ++ [(((l[63]?).map (·.1)).getD 0, maxN ((l.drop 63).map (·.2)))]

/-- The erasure spans of a codeword: each kind's, widened by GUARD, merged, at most 64. -/
def erasureSpans (guard : Nat) (raw : List (Nat × Nat)) : List (Nat × Nat) :=
  let l := (raw.map fun x => (x.1 - guard, x.2 + guard)).foldr insertSpan []
  capSpans (mergeSpans guard l.length l)

/-- A bit lies in a span. -/
def erasedBit (spans : List (Nat × Nat)) (n : Nat) : Bool := spans.any fun x => decide (x.1 ≤ n) && decide (n ≤ x.2)

/-! ### The stages over a span -/

/-- One bit: interpolated, baseline-corrected in a thermal asperity, equalised and decided; the taps adapt on data bits
outside defects, and the loop moves on, its offset held within ±5,000 ppm of RATIO (R109, R110). -/
def detBit (p : DetSet) (smp : List Int) (bad : List Bool) (isData : Nat → Bool) (x : DetLoop) (n : Nat) : DetLoop :=
  let y0 := interpolate smp x.place
  let ys := (if x.df.ta.isSome then y0 - baseline x.zs else y0) :: x.ys.take 15
  let z := equalise x.taps ys
  let b := hardBit p.tgt x.bits z
  let d := targetOut p.tgt (b :: x.bits)
  let lost := bad.getD (x.place / 2 ^ 20).toNat false
  let zs := z :: x.zs
  let df := defectStep p n zs lost x.df
  let e := z - d
  let clear := df.ta.isNone && df.drop.isNone && df.base.isNone && !lost
  let taps := if p.adapt && isData n && clear then lmsTaps p.mu e x.taps ys else x.taps
  let pe := phaseError z d (x.zs.headD 0) (x.ds.headD 0)
  let lim : Int := p.ratio * 5000 / 1000000
  let ofs := clampI (-lim) lim (x.ofs + pe / 2 ^ p.ki)
  { place := x.place + p.ratio + ofs + pe / 2 ^ p.kp, ofs := ofs, ys := ys, taps := taps, zs := zs, bits := b :: x.bits,
    ds := d :: x.ds, sq := x.sq + absI e * absI e, df := df }

/-- The stages over `n` bits of samples, from zero frequency offset and the start phase. -/
def detect (p : DetSet) (smp : List Int) (bad : List Bool) (isData : Nat → Bool) (n : Nat) : Detected :=
  let x := (rangeFrom 0 n).foldl (detBit p smp bad isData)
    { place := p.phase * p.ratio / 32, taps := p.taps.map (· * 2 ^ 16) }
  { zs := x.zs.reverse, bits := x.bits.reverse, spans := erasureSpans p.guard (closeSpans n x.df), tas := x.df.tas,
    fofs := x.ofs * 1000000 / p.ratio, mse := x.sq / max 1 n, taps := x.taps.map (· / 2 ^ 16) }

/-! ### Sync marks (R115, Table 5-1) -/

/-- A number's `n` lowest bits, most significant first. -/
def msbBits (n v : Nat) : List Nat := (lsbBits n v).reverse

/-- The sync marks as bits. -/
def sm1Bits : List Nat := msbBits 40 0xE319C6A5F0
def sm2Bits : List Nat := msbBits 40 0x5BD20E8C37

/-- Mismatches of a mark at a place: bits that differ, and erased bits (R114). -/
def mismatches (d : Detected) (mark : List Nat) (i : Nat) : Nat :=
  (((rangeFrom 0 40).zip mark).filter fun x => d.bits.getD (i + x.1) 2 != x.2 || erasedBit d.spans (i + x.1)).length

/-- The first place of a window with at most `tol` mismatches. -/
def findFirst (d : Detected) (mark : List Nat) (at0 win tol : Nat) : Option Nat :=
  (rangeFrom (at0 - win) (at0 + win + 1 - (at0 - win))).find? fun i => decide (mismatches d mark i ≤ tol)

/-- The place of a window with the fewest mismatches, at most `tol`; the earliest of equals. -/
def findBest (d : Detected) (mark : List Nat) (at0 win tol : Nat) : Option Nat :=
  ((rangeFrom (at0 - win) (at0 + win + 1 - (at0 - win))).foldl (fun best i =>
    match best with
    | none => if mismatches d mark i ≤ tol then some i else none
    | some j => if mismatches d mark i < mismatches d mark j then some i else some j) none)

/-! ### The sequence detector (R112) -/

/-- A survivor's cost and its last two noise values. -/
structure Survivor where
  cost : Int
  n1 : Int
  n2 : Int
  deriving DecidableEq, Repr, Inhabited

/-- The bits of a branch from state `s` with bit `b`, newest first: a state is the last four bits, the newest lowest. -/
def branchBits (s b : Nat) : List Nat := b :: lsbBits 4 s

/-- The noise on a branch and its cost, with the two predictor taps of the branch's context, its two most recent bits. -/
def branchCost (tgt pred : List Int) (z : Int) (x : Survivor) (s b : Nat) : Int × Int :=
  let e := z - targetOut tgt (branchBits s b)
  let c := 2 * (s % 2) + b
  let r := e - (pred.getD (2 * c) 0 * x.n1 + pred.getD (2 * c + 1) 0 * x.n2) / 128
  (e, r * r)

/-- One forward step: the costs of the 32 branches, by 2 × state + bit, and the survivors of the 16 states. -/
def forwardStep (tgt pred : List Int) (z : Int) (l : List Survivor) : List Int × List Survivor :=
  let cost := fun s b => branchCost tgt pred z (l.getD s default) s b
  ((rangeFrom 0 32).map fun k => (cost (k / 2) (k % 2)).2,
   (rangeFrom 0 16).map fun t =>
     let b := t % 2
     let into := fun h => let s := t / 2 + 8 * h; ((l.getD s default).cost + (cost s b).2, (cost s b).1, (l.getD s default).n1)
     let u := if (into 1).1 < (into 0).1 then into 1 else into 0
     ⟨u.1, u.2.1, u.2.2⟩)

/-- The forward pass: at each bit the survivors before it and the branch costs, newest first. -/
def forwardPass (tgt pred : List Int) (zs : List Int) : List (List Survivor × List Int) :=
  (zs.foldl (fun (a : List Survivor × List (List Survivor × List Int)) z =>
    let r := forwardStep tgt pred z a.1
    (r.2, (a.1, r.1) :: a.2)) (List.replicate 16 ⟨0, 0, 0⟩, [])).2

/-- The least of a list of costs. -/
def minI : List Int → Int
  | [] => 0
  | x :: l => l.foldl min x

/-- The soft output of a bit: the least cost of a path with 1 less the least with 0, held to ±15. -/
def softBit (f : List Survivor × List Int) (back : List Int) : Int :=
  let best := fun b => minI ((rangeFrom 0 16).map fun s =>
    (f.1.getD s default).cost + f.2.getD (2 * s + b) 0 + back.getD ((2 * s + b) % 16) 0)
  clampI (-15) 15 ((best 1 - best 0) / Config.llrUnit)

/-- One backward step: the least cost from each state to the end. -/
def backwardStep (costs back : List Int) : List Int :=
  (rangeFrom 0 16).map fun s => min (costs.getD (2 * s) 0 + back.getD (2 * s % 16) 0) (costs.getD (2 * s + 1) 0 + back.getD ((2 * s + 1) % 16) 0)

/-- The LLRs of successive outputs, positive for 0 (R112). -/
def softDetect (tgt pred : List Int) (zs : List Int) : List Int :=
  ((forwardPass tgt pred zs).foldl (fun (a : List Int × List Int) f =>
    (backwardStep f.2 a.1, softBit f a.1 :: a.2)) (List.replicate 16 0, [])).2

/-- The LLRs of `len` bits from place `i` on; bits in an erasure span are 0. -/
def spanLlrs (p : DetSet) (d : Detected) (i len : Nat) : List Int :=
  ((softDetect p.tgt p.pred ((rangeFrom i len).map fun n => d.zs.getD n 0)).zip (rangeFrom i len)).map fun x =>
    if erasedBit d.spans x.2 then 0 else x.1

/-- Runs of 32 or more LLRs of at most 2 are erased (R121): the run a place lies in, counted both ways. -/
def weakRun (l : List Int) (n : Nat) : Nat :=
  let weak := fun (v : Int) => decide (absI v ≤ 2)
  ((l.drop n).takeWhile weak).length + ((l.take n).reverse.takeWhile weak).length

/-- ERAS_XTRA. -/
def extraErasures (l : List Int) : List Int :=
  (l.zip (rangeFrom 0 l.length)).map fun x => if absI x.1 ≤ 2 ∧ 32 ≤ weakRun l x.2 then 0 else x.1

/-! ### Codewords (R131, Table 5-2) -/

/-- Codeword bits N of a code, and its information bits K. -/
def codeBits (c : Nat) : Nat := if c = 0 then 37744 else if c = 1 then 36696 else 35512
def infoBits : Nat := 33024

/-- PRBS-31, x³¹ + x²⁸ + 1, from its register of 31 bits: `n` bits, the highest first out. -/
def prbs31 : Nat → Nat → List Nat
  | 0, _ => []
  | n + 1, r => r / 2 ^ 30 % 2 :: prbs31 n (r * 2 % 2 ^ 31 + (r / 2 ^ 30 + r / 2 ^ 27) % 2)

/-- The scrambling sequence of a codeword. -/
def scramble (n : Nat) : List Nat := prbs31 n 0x7FFFFFFF

/-- The codeword as written, of the 4,128 bytes of an information part: its bits, least significant first, then the parity
bits, scrambled. -/
def codeword (c : Nat) (info : List Nat) : List Nat :=
  let d := info.flatMap (lsbBits 8)
  let w := d ++ (rangeFrom 0 (codeBits c - infoBits)).map fun i => Config.ldpcParity c d i % 2
  (w.zip (scramble w.length)).map fun x => (x.1 + x.2) % 2

/-! ### Layered min-sum (R118) -/

/-- The check rows of a code, each the codeword bits it takes in. -/
def ldpcRows (c : Nat) : List (List Nat) := (rangeFrom 0 (codeBits c - infoBits)).map (Config.ldpcRow c)

/-- The hard decision of a value, positive for 0. -/
def hardOf (v : Int) : Nat := if v < 0 then 1 else 0

/-- Checks that values do not satisfy. -/
def unsatisfied (rows : List (List Nat)) (l : List Int) : Nat :=
  (rows.filter fun r => sumN (r.map fun i => hardOf (l.getD i 0)) % 2 = 1).length

/-- The message of a check to its place `k`: the sign of the others' product and the least of their magnitudes. -/
def checkMessage (q : List Int) (k : Nat) : Int :=
  let o := q.eraseIdx k
  let m : Nat := match o.map absI with
    | [] => 0
    | x :: l => l.foldl min x
  if (o.filter (· < 0)).length % 2 = 1 then -(m : Int) else m

/-- One layer: a check takes its old messages back and gives new ones. -/
def layer (row : List Nat) (old : List Int) (l : List Int) : List Int × List Int :=
  let q := (row.zip (old ++ List.replicate row.length 0)).map fun x => l.getD x.1 0 - x.2
  let new := (rangeFrom 0 row.length).map (checkMessage q)
  ((row.zip (q.zip new)).foldl (fun l x => updAt l x.1 fun _ => x.2.1 + x.2.2) l, new)

/-- One iteration over every layer. -/
def iterate1 (rows : List (List Nat)) (l : List Int) (ms : List (List Int)) : List Int × List (List Int) :=
  let r := (rows.zip (ms ++ List.replicate rows.length [])).foldl (fun (a : List Int × List (List Int)) x =>
    let y := layer x.1 x.2 a.1
    (y.1, y.2 :: a.2)) (l, [])
  (r.1, r.2.reverse)

/-- How a decode ends: zero syndrome, iterations, unsatisfied checks, and the information bits. -/
structure DecodeEnd where
  zero : Bool
  iter : Nat
  unsat : Nat
  info : List Nat
  deriving DecidableEq, Repr

/-- Up to `n` more iterations; it stops when the syndrome is zero. -/
def minSum (rows : List (List Nat)) : Nat → Nat → List Int → List (List Int) → DecodeEnd
  | 0, k, l, _ => ⟨unsatisfied rows l == 0, k, unsatisfied rows l, l.map hardOf⟩
  | n + 1, k, l, ms =>
    if k ≠ 0 ∧ unsatisfied rows l = 0 then ⟨true, k, 0, l.map hardOf⟩
    else let r := iterate1 rows l ms; minSum rows n (k + 1) r.1 r.2

/-- The decode of a slot's LLRs under a code, at most `maxit` iterations: the information part as bytes. -/
def ldpcDecode (c maxit : Nat) (llrs : List Int) : DecodeEnd :=
  let l := (llrs.zip (scramble (codeBits c))).map fun x => if x.2 = 1 then -x.1 else x.1
  let e := minSum (ldpcRows c) maxit 0 l []
  { e with info := (chunks 8 4128 e.info).map bitsNat }

end Sys2Proof.Machine
end

