-- ==== Sys2Proof/Machine/QcsAccess.lean ====
section
/-! DEFINITION. QCS accesses (chapter 0): undefined and misaligned accesses, low reads of wide registers, reads that clear,
and expert claims. -/
namespace Sys2Proof.Machine
open Sys2Proof

/-- The host port a master stands for. -/
def hostPort (m : Master) : Option Nat :=
  match m with
  | .hostA => some 0
  | .hostB => some 1
  | _ => none

/-- The master's accesses reach QCS: BAR2 of a host port is open by truss policy (R255). -/
def qcsOpen (s : State) (m : Master) : Bool :=
  match hostPort m with
  | some p => bitOf (rd s HIF_CTRL) (8 + p)
  | none => true

/-- The offset lies in the mailbox block, which a host also reaches through BAR4, whatever the truss policy (R407). -/
def mbxArea (addr : Nat) : Bool := decide (baseMBX ≤ addr ∧ addr < baseMBX + 0x100000)

/-- The master's access reaches the register at `addr`. -/
def qcsReach (s : State) (m : Master) (addr : Nat) : Bool := qcsOpen s m || mbxArea addr

/-- The channel of a mailbox channel register (Table 17-7). -/
def mbxChan (a : Nat) : Option Nat :=
  if MBX_CH_DATA 0 0 ≤ a ∧ a < MBX_CH_DATA 64 0 then some ((a - MBX_CH_DATA 0 0) / 256) else none

/-- The channel is bound to two parties (R408). -/
def mbxBound (s : State) (c : Nat) : Bool :=
  fget s (MBX_BIND c) MBX_BIND_SENDER != 0xFF && fget s (MBX_BIND c) MBX_BIND_RECEIVER != 0xFF

/-- The master is the channel's sender. -/
def mbxSender (s : State) (m : Master) (c : Nat) : Bool :=
  mbxBound s c && fget s (MBX_BIND c) MBX_BIND_SENDER == masterId m

/-- The master is the channel's receiver. -/
def mbxReceiver (s : State) (m : Master) (c : Nat) : Bool :=
  mbxBound s c && fget s (MBX_BIND c) MBX_BIND_RECEIVER == masterId m

/-- The master may read the register at `a`: a channel's registers are its parties' and debug's (R409). -/
def mbxMayRead (s : State) (m : Master) (a : Nat) : Bool :=
  match mbxChan a with
  | some c => m == .debug || mbxSender s m c || mbxReceiver s m c
  | none => true

/-- A violation of the rights of R409. -/
def mbxViol (s : State) : State := evtSet (count s MBX_VIOLS 1 .mbx MBX_EVT_SAT) .mbx MBX_EVT_BIND_VIOL

/-- The end of an access R16 describes: source 3, and a normal completion on PCI Express for a host. -/
def undefEnd (s : State) (m : Master) (addr : Nat) : State :=
  undefinedAccess (match hostPort m with | some _ => emit s (.pcieOk m) | none => s) m addr

/-- An access as R16 lays down: a read returns 0, a write is discarded, source 3 is raised. -/
def undefAccess (s : State) (m : Master) (addr : Nat) (write : Bool) : State :=
  undefEnd (if write then s else emit s (.readData m addr 0)) m addr

/-- A write of a register by a master, which reaches it only while QCS is open to the master (R16, R255). -/
def regWrite (s : State) (m : Master) (addr : Nat) (f : State → State) : State :=
  if qcsReach s m addr then f s else undefAccess s m addr true

/-- The access reaches no register: no block defines the offset, it lies from 0x0300_0000 up, or the port is closed. -/
def accessUndefined (s : State) (m : Master) (addr : Nat) : Bool :=
  !defined (addr / 4 * 4) || !qcsReach s m addr

/-- The alignment rules of R10 are kept. -/
def alignedFor (w : Width) (addr : Nat) : Bool :=
  match w with
  | .b1 => true
  | .b2 => addr % 2 = 0
  | .b4 => addr % 4 = 0
  | .b8 => addr % 4 = 0

/-- The low words of the registers that the tables name in a low and a high half (R11). -/
def isWideLow (a : Nat) : Bool :=
  (decide (0x1400000 ≤ a ∧ a < 0x1800000) &&
    (rangeFrom 0 64).any fun t => a == ACT_TGT_LO ((a - 0x1400000) / 0x10000) t) ||
  (rangeFrom 0 16).any (fun c => a == LDC_ITER_SUM_LO c || a == BRD_SW_MASK_LO c || a == BRD_ITERATIONS_LO c) ||
  [ZMP_LOC_LBA_LO, MEP_FLIP_DATA_LO, BGW_CALQ_LO, MCS_F_HALT_LO, MCS_F_HALTED_LO].contains a

/-- `a` is word 0 of entry `i` < `n` of an array of registers at `base`, `stride` bytes apart. -/
def entryLow (a base n stride : Nat) : Bool :=
  decide (base ≤ a ∧ a < base + n * stride) && decide ((a - base) % stride = 0)

/-- The higher words of the register whose low word lies at `a`: one for a register of two words, up to three for a
register that the tables give more words (R11). -/
def wideRest (a : Nat) : List Nat :=
  let spn := (a - 0x1A00000) % 0x8000
  if isWideLow a || entryLow a (EVT_RT_W0 0) 640 8 || entryLow a (THM_MECH_W0 0) 32 8 then [a + 4]
  else if entryLow a (BGW_WEAR_W0 0) 64 16 || entryLow a (MCS_FSEQ_W0 0) 64 16 || entryLow a (MCS_ZSEQ_W0 0) 8 16 then
    [a + 4, a + 8]
  else if entryLow a (MEP_CELOG_W0 0) 64 16 ||
      decide (0x1A00000 ≤ a ∧ a < 0x1B00000) && (entryLow spn 0x4400 144 16 || entryLow spn 0x5000 24 16) then
    [a + 4, a + 8, a + 12]
  else []

/-- Forget what a master's latch holds of the word at `a`. -/
def dropLatch (s : State) (m : Master) (a : Nat) : State :=
  { s with latches := s.latches.filter fun l => !(l.master == masterId m && l.addr == a) }

/-- Latch one higher word for a master; an older latch of the same word is replaced (R11). -/
def latchWord (s : State) (m : Master) (a : Nat) : State :=
  let t := dropLatch s m a
  { t with latches := ⟨masterId m, a, peek s a⟩ :: t.latches }

/-- The read of the low word at `a` latches the higher words of its register for the reading master (R11). -/
def latchHigh (s : State) (m : Master) (a : Nat) : State := forAll (wideRest a) s fun s b => latchWord s m b

/-- What a master reads at `a`: the latched word where it holds one, else the register (R11). A latched word serves the
first read of it after the read of the low word, or until the master writes it (log entry 39). -/
def readValue (s : State) (m : Master) (a : Nat) : Word :=
  match s.latches.find? (fun l => l.master == masterId m && l.addr == a) with
  | some l => l.value
  | none => peek s a

/-- Clear the RC fields of the register at `a` (R13). -/
def clearRC (s : State) (a : Nat) : State :=
  match locate a with
  | some (r, _) => forAll r.fields s fun s f => if f.acc = .rc then fset s a ⟨f.lo, f.width⟩ 0 else s
  | none => s

/-- The word a master's read of a register returns, and the state after: a read of a mailbox channel without the right to
it returns 0 and is a violation (R409). -/
def readWord (s : State) (m : Master) (a : Nat) : Word × State :=
  if mbxMayRead s m a then (readValue s m a, s) else (0, mbxViol s)

/-- A PEAK or LOW field restarts at the present value with a read of its register. -/
def restartPeak (s : State) (a : Nat) : State :=
  let h := homeAddr a
  if h = HIF_SLOTS then fset s h HIF_SLOTS_PEAK (fget s h HIF_SLOTS_IN_FLIGHT)
  else if h = PWR_MEAS then fset s h PWR_MEAS_PEAK (fget s h PWR_MEAS_NOW)
  else if h = ZMP_STAT then fset s h ZMP_STAT_PEAK (fget s h ZMP_STAT_ACTIVE)
  else if h = LDC_SLOTS then fset s h LDC_SLOTS_LOW (fget s h LDC_SLOTS_FREE)
  else if (rangeFrom 0 16).any fun e => h == BRD_STAT e then fset s h BRD_STAT_PEAK_Q (fget s h BRD_STAT_Q)
  else s

/-- A read of one word of QCS: an undefined or misaligned access (R16, R10); the latch of a wide register (R11), RC fields
that clear (R13), and PEAK and LOW fields that restart. -/
def fetchWord (s : State) (m : Master) (a : Nat) : Word × State :=
  if accessUndefined s m a || decide (a % 4 ≠ 0) then (0, undefinedAccess s m a)
  else
    let r := readWord s m a
    (r.1, restartPeak (clearRC (latchHigh (dropLatch r.2 m a) m a) a) a)

/-- A PCI Express access of a host completes normally. -/
def pcieDone (s : State) (m : Master) : State :=
  match hostPort m with
  | some _ => emit s (.pcieOk m)
  | none => s

/-- A 32-bit read of QCS with its answer to the master. -/
def regRead (s : State) (m : Master) (a : Nat) : State :=
  let r := fetchWord s m a
  pcieDone (emit r.2 (.readData m a r.1)) m

/-- The bytes that a read of `n` bytes at `a` takes from the register it lies in (R10). -/
def narrowPart (w : Word) (a n : Nat) : Word := BitVec.ofNat 32 (w.toNat / 256 ^ (a % 4) % 256 ^ n)

/-- A read of one or two bytes: the addressed bytes, with the side effects of a full read of the register (R10). -/
def narrowRead (s : State) (m : Master) (a n : Nat) : State :=
  let r := fetchWord s m (a / 4 * 4)
  pcieDone (emit r.2 (.readData m a (narrowPart r.1 a n))) m

/-- A read of QCS by its width (R10): a 64-bit read reads the register at its offset and then the next one; one that
breaks the alignment rules behaves as an access to an undefined offset. -/
def readAccess (s : State) (m : Master) (a : Nat) (w : Width) : State :=
  if !alignedFor w a then undefAccess s m a false
  else match w with
    | .b1 => narrowRead s m a 1
    | .b2 => narrowRead s m a 2
    | .b4 => regRead s m a
    | .b8 =>
      let r := fetchWord s m a
      regRead (emit r.2 (.readData m a r.1)) m (a + 4)

/-- QCS_UNDEFINED_ACCESS (R16). An access that does reach a register is no such event. -/
def execQcsUndefinedAccess (m : Master) (addr : Nat) (write : Bool) (s : State) : Res :=
  .next (if accessUndefined s m addr then undefAccess s m addr write else s)

/-- MISALIGNED_QCS_ACCESS (R10): behaves as an access to an undefined offset. -/
def execMisalignedQcsAccess (m : Master) (addr : Nat) (width : Width) (write : Bool) (s : State) : Res :=
  .next (if alignedFor width addr then s else undefAccess s m addr write)

/-- WIDE_REGISTER_LOW_READ (R11, R10). -/
def execWideRegisterLowRead (m : Master) (addr : Nat) (width : Width) (s : State) : Res := .next (readAccess s m addr width)

/-- RC_FIELD_READ (R13, R10): the fields are returned, then cleared. -/
def execRcFieldRead (m : Master) (addr : Nat) (width : Width) (s : State) : Res := .next (readAccess s m addr width)

/-- The block instance a BLOCK_XCLAIM register belongs to. -/
def xclaimBase (addr : Nat) : Option Nat :=
  if defined addr ∧ instanceBase addr + 4 = addr then some (instanceBase addr) else none

/-- A write of EXPERT to BLOCK_XCLAIM of the instance at `base` by `m` (R19, R21). -/
def writeXclaim (s : State) (m : Master) (base : Nat) (expert : Bool) : State :=
  if claimed s base then
    if fget s (xclaim base) XCLAIM_HOLDER = masterId m then fsetb s (xclaim base) XCLAIM_EXPERT expert else s
  else if expert then
    fsetb (fset s (xclaim base) XCLAIM_HOLDER (masterId m)) (xclaim base) XCLAIM_EXPERT true
  else s

/-- EXPERT_CLAIM (R19). -/
def execExpertClaim (m : Master) (addr : Nat) (s : State) : Res :=
  .next (if qcsReach s m addr then
      match xclaimBase addr with
      | some b => writeXclaim s m b true
      | none => s
    else undefAccess s m addr true)

end Sys2Proof.Machine
end

