-- ==== Sys2Proof/Machine/Units.lean ====
section
/-! DEFINITION. The commands and events of the unit table: recompute, policy, wake and retirement (chapter 1). -/
namespace Sys2Proof.Machine
open Sys2Proof

/-- COMPOSITE_RECOMPUTE (R30, R32, R33): one recompute of a composite; a leaf and an unused entry derive nothing. -/
def execCompositeRecompute (u : Fin 4095) (s : State) : Res :=
  .next (if uUsed s u ∧ uKind s u ≠ 0 then recompute s u else s)

/-- A master may write guarded fields of TRS: the holder while it is claimed, else the Ridge cores (R39, R66). -/
def trsMayWrite (s : State) (m : Master) : Bool := if claimed s baseTRS then holds s baseTRS m else isRidge m

/-- UNIT_POLICY_WRITE (R39): POLICY of a used entry by a permitted master; an unused entry keeps its reset values
(R36). -/
def execUnitPolicyWrite (m : Master) (u : Fin 4095) (policy : BitVec 4) (s : State) : Res :=
  .next (regWrite s m (TRS_UNIT_FACE u) fun s => if trsMayWrite s m ∧ uUsed s u then fset s (TRS_UNIT_FACE u) TRS_UNIT_FACE_POLICY policy.toNat else s)

/-- UNIT_WAKE_DEMAND (R31, Table 1-3). -/
def execUnitWakeDemand (u : Fin 4095) (s : State) : Res :=
  .next (if uUsed s u then wakeDemand s u else s)

/-- The spindle of port `p` runs (Table 8-6). -/
def spnRunning (s : State) (p : Nat) : Bool := fget s (SPN_STAT p) SPN_STAT_STATE = 5

/-- The heads of actuator `a` are loaded: its servo mode is neither UNLOADED nor LOADING (Table 6-6). -/
def headsLoaded (s : State) (a : Nat) : Bool := decide (2 ≤ fget s (ACT_SRV_STAT a) ACT_SRV_STAT_MODE)

/-- No calibration of actuator `a` is pending (R355). -/
def calCurrent (s : State) (a : Nat) : Bool := !bitOf (rd s (BGW_CALQ_LO + 4 * (a / 32))) (a % 32)

/-- The actuators of the mechanism on port `p` that its template gives it. -/
def actsOf (s : State) (p : Nat) : List Nat := (rangeFrom 0 (genOf s p).length).map fun k => 2 * p + k

/-- What a wake waits for on port `p`: speed, heads, calibration (Table 1-3). -/
def wakeDone (s : State) (p : Nat) : Bool :=
  spnRunning s p && (actsOf s p).all fun a => headsLoaded s a && calCurrent s a

/-- UNIT_WAKE_COMPLETE (Table 1-3): a WAKING leaf, or every WAKING leaf of a composite, goes READY or DEGRADED; what
waits for it can go on. -/
def execUnitWakeComplete (u : Fin 4095) (s : State) : Res :=
  .next (if uUsed s u ∧ (portsOf s u).all (wakeDone s) then
    let s1 := forAll ((subtree s u).filter fun v => uKind s v == 0) s fun s v =>
      if uState s v = 2 then setUState s v (wokenState s v) else s
    forAll (mechsOf s u) s1 fun s v => setAux s v fun x => { x with wakeWanted := false }
  else s)

/-- The open zones of the namespaces bound in a subtree are finished as full, Closed ones not (Table 1-3, RETIRED). -/
def finishZonesIn (s : State) (u : Nat) : State :=
  forAll ((subtree s u).flatMap (nsOfUnit s)) s fun s n =>
    forAll (listedZones s n) s fun s z => if zOpen (getZone s n z).zstate then finishZone s n z else s

/-- Retire a unit with a cause: a leaf or a composite, for good until a load covers it (R28, R29). -/
def retireUnit (s : State) (u cause : Nat) : State :=
  let st := uState s u
  if st = 3 ∨ st = 4 ∨ st = 1 ∨ st = 5 then
    let s1 := finishZonesIn s u
    let s2 := setAux s1 u fun x => { x with own := some 6, grades := (0, cause) :: x.grades }
    setUState (if cause = 0 then s2 else setUGrade s2 u (uGrade s2 u) cause) u 6
  else s

/-- UNIT_RETIRE (Table 1-3). -/
def execUnitRetire (u : Fin 4095) (cause : BitVec 8) (s : State) : Res :=
  .next (if uUsed s u then retireUnit s u cause.toNat else s)

end Sys2Proof.Machine
end

