-- ==== Sys2Proof/Machine/Bind.lean ====
section
/-! DEFINITION. Binding a mechanism to its slot (R54), the capacities that follow (R224, R225), and what its stored tables load. -/
namespace Sys2Proof.Machine
open Sys2Proof

/-- CAP_ZONES of every unit of the mechanism on port `p` from its band maps (R224). -/
def setMechCaps (s : State) (p : Nat) : State :=
  match templateOf s p, mechUnit s p with
  | some t, some mu =>
    let g := genOf s p
    let actCap := fun k => sumN ((coursesOf s p k).map fun c => c.2.2)
    let s1 := forAll (rangeFrom 0 g.length) s fun s k =>
      match g[k]? with
      | none => s
      | some a =>
        let s := setUCap s a.1 (actCap k)
        forAll ((coursesOf s p k).zip a.2) s fun s x =>
          let s := setUCap s x.2.1 x.1.2.2
          forAll x.2.2 s fun s u => setUCap s u (courseSlots s p k x.1.1 x.1.2.1 / max 1 t.courseW)
    let caps := (rangeFrom 0 g.length).map actCap
    setUCap s1 mu (match caps with | [] => 0 | x :: l => g.length * l.foldl min x)
  | _, _ => s

/-- The THATCH units above a unit take their CAP_ZONES once n of their members are bound: the smallest of them (R225). -/
def fixThatchCaps (s : State) (u : Nat) : State :=
  forAll (ancestors s u) s fun s v =>
    if uKind s v = 4 ∧ !s.zmp.fixedCap.contains v then
      let ms := members s v
      let n := ms.length - thatchM s v
      let caps := (ms.filter fun x => uState s x != 0 || decide (rdN s (TRS_UNIT_CAP x) ≠ 0)).map fun x => rdN s (TRS_UNIT_CAP x)
      let caps := caps.filter (· != 0)
      match caps with
      | [] => s
      | c :: l =>
        if n ≤ caps.length then
          setUCap { s with zmp := { s.zmp with fixedCap := v :: s.zmp.fixedCap } } v (l.foldl min c)
        else s
    else s

/-- The fastest entry of a template's speed table, in rpm. -/
def fastestRpm (s : State) (t : SlotTemplate) : Nat :=
  ((((s.trs.run.speeds.find? fun x => x.1 == t.speedTbl).map (·.2)).getD []).head?.map (·.rpm)).getD 0

/-- Why the mechanism on port `p` cannot bind: the codes of TRS_BIND_WHY; 0 when it binds (R54, R55, R59). -/
def bindWhy (s : State) (p : Nat) : Nat :=
  match mechUnit s p with
  | none => 1
  | some u =>
    if fenced s u then 9
    else match templateOf s p with
      | none => 1
      | some t =>
        if (identField s p 0 4 &&& t.modelMask) ≠ (t.model &&& t.modelMask) then 2
        else if identField s p 4 1 ≠ t.actuators ∨ identField s p 5 1 ≠ t.heads then 3
        else if identField s p 6 1 ≠ t.assist then 4
        else if identField s p 8 4 < t.capMinGb then 5
        else if identField s p 12 2 < t.feFwMin then 6
        else if identField s p 14 2 < fastestRpm s t then 7
        else 0

/-- The first word of a slice's tap-table entry of a head and band (R129). -/
def tapEntry (h b : Nat) : Nat := 16 * (32 * h + b)

/-- What a tap-table entry holds, by word and field: taps, predictor pairs, target index, mean squared error, write precompensation
(R129, R133). -/
def tapFields : List (Nat × Fld) :=
  ((rangeFrom 0 8).flatMap fun w => [(w, (⟨0, 10⟩ : Fld)), (w, ⟨16, 10⟩)]) ++
  [(8, ⟨0, 32⟩), (9, ⟨0, 32⟩), (10, ⟨0, 3⟩), (11, ⟨0, 32⟩), (12, ⟨0, 6⟩), (12, ⟨8, 6⟩), (12, ⟨16, 6⟩)]

/-- The registers of a slice's tap-table entry of a head and band. -/
def tapRegs (a h b : Nat) : List (Nat × Fld) := tapFields.map fun x => (ACT_TAPTAB a (tapEntry h b + x.1), x.2)

/-- The registers of a slice's tap table. -/
def tapTable (a : Nat) : List (Nat × Fld) := (rangeFrom 0 12).flatMap fun h => (rangeFrom 0 32).flatMap (tapRegs a h)

/-- The registers of port `p` that binding loads from the stored tables, by address and field (R125, R133, R174, R193, R219, R319,
R363). -/
def storedRegs (p : Nat) : List (Nat × Fld) :=
  [(SPN_MOTOR p, SPN_MOTOR_POLE_PAIRS), (SPN_MOTOR p, SPN_MOTOR_KE), (BAL_MECH_PHYS p, BAL_MECH_PHYS_INERTIA),
   (BAL_MECH_PWR p, BAL_MECH_PWR_DRAG_MAX), (BAL_MECH_PWR p, BAL_MECH_PWR_DRAG_FLOOR)] ++
  ((rangeFrom 0 32).map fun i => (SPN_ADV p i, SPN_ADV_ADV)) ++
  ([2 * p, 2 * p + 1].flatMap fun a =>
    [(ACT_SRV_STAT a, ACT_SRV_STAT_WU_MAX)] ++
    ((rangeFrom 0 12).flatMap fun h =>
      [(ACT_HD_OFS a h, ACT_HD_OFS_TRACKS), (ACT_HD_OFS a h, ACT_HD_OFS_FRAC), (ACT_HD_MA a h, ACT_HD_MA_MA_REACH)]) ++
    tapTable a ++ (BGW_WEAR_W2 a, ⟨0, 32⟩) :: ((rangeFrom 0 12).flatMap fun h => [(THM_SRVCAL a h, THM_SRVCAL_K_H), (THM_SRVCAL a h, THM_SRVCAL_DT0)]) ++
    ((rangeFrom 0 5).map fun r => (BRD_SL_STAT (a / 4) (16 * (a % 4) + r), BRD_SL_STAT_FE_LIM_MAX))) ++
  ((rangeFrom 0 24).flatMap fun q =>
    (AST_WEAR_W3 p q, (⟨0, 32⟩ : Fld)) :: (rangeFrom 0 6).flatMap fun b =>
      [(AST_CAL_W0 p q b, AST_CAL_W0_DRIVE), (AST_CAL_W1 p q b, AST_CAL_W1_MON_REF), (AST_CAL_W2 p q b, AST_CAL_W2_FH_WREF),
       (AST_CAL_W2 p q b, AST_CAL_W2_FH_RREF), (AST_CAL_W3 p q b, AST_CAL_W3_DRIVE0)])

/-- The heads h of actuator k of port `p` that its template gives it. -/
def headsOf (s : State) (p k : Nat) : List Nat :=
  rangeFrom 0 (match (genOf s p)[k]? with
    | some a => (a.2.flatMap (·.2)).length
    | none => 0)

/-- A head in service whose micro-actuator reach is below 384 leaves its MECH impaired with CAUSE 0x52 (R160). -/
def shortReach (s : State) (p : Nat) : Bool :=
  (rangeFrom 0 (genOf s p).length).any fun k =>
    (headsOf s p k).any fun h => decide (fget s (ACT_HD_MA (2 * p + k) h) ACT_HD_MA_MA_REACH < 384)

/-- RATE_W (R319): 75 % of the raw rate of eight heads on the eave tracks at the floor step, in MB/s, rounded down to
hundreds as the example of R319 does. -/
def rateW (s : State) (p : Nat) (t : SlotTemplate) : Nat :=
  let rpms := ((((s.trs.run.speeds.find? fun x => x.1 == t.speedTbl).map (·.2)).getD []).filter (·.writeOk)).map (·.rpm)
  let floor := match rpms with | [] => 0 | x :: l => l.foldl min x
  let rate := ((((storedOf s p).surfaces[0]?).getD []).head?.map (·.1)).getD 0
  min 65535 (8 * trackPositions rate 2 * 4096 * floor * 3 / 240000000 / 100 * 100)

/-- The registers of port `p` that the flash keeps by SERIAL (R361, R217, R125): calibration entries and wear accounts, burst gains,
head-load accounts, tap tables; each with its key there. -/
def calRegs (p : Nat) : List (Nat × Nat) :=
  ((rangeFrom 0 24).flatMap fun q =>
    [(16 * q, AST_WEAR_W0 p q), (16 * q + 1, AST_WEAR_W1 p q), (16 * q + 2, AST_WEAR_W2 p q)] ++
    (rangeFrom 0 6).flatMap fun b =>
      [(1024 + 32 * q + 4 * b, AST_CAL_W0 p q b), (1025 + 32 * q + 4 * b, AST_CAL_W1 p q b),
       (1026 + 32 * q + 4 * b, AST_CAL_W2 p q b), (1027 + 32 * q + 4 * b, AST_CAL_W3 p q b)]) ++
  [0, 1].flatMap fun k =>
    [(2048 + 32 * k, BGW_WEAR_W0 (2 * p + k)), (2049 + 32 * k, BGW_WEAR_W1 (2 * p + k))] ++
    ((rangeFrom 0 12).map fun h => (2050 + 32 * k + h, THM_SRVCAL (2 * p + k) h)) ++
    ((rangeFrom 0 6144).filter fun i => i % 16 < 13).map fun i => (8192 + 8192 * k + i, ACT_TAPTAB (2 * p + k) i)

/-- What the flash keeps of a mechanism takes the place of its stored tables when the SERIAL matches (R361); a chopper
retirement recorded against it is applied again by SET (R219). -/
def restoreCal (s : State) (p : Nat) : State :=
  let serial := identSerial s p
  let s1 := match s.fls.cal.find? fun x => x.1 == serial with
    | some x => forAll (calRegs p) s fun s r =>
        if claimed s (instanceBase r.2) && fieldRw r.2 0 then s else wr s r.2 (tabGet (rd s r.2) x.2 r.1)
    | none => s
  if s1.fls.choppers.contains serial then fset (fsetb s1 (SPN_CHOP p) SPN_CHOP_RETIRED true) (SPN_CHOP p) SPN_CHOP_WHY 3
  else s1

/-- The stored shock limit of a slice's mechanism, and the limit in force: the stored one, or the one Feature 0xD3 asked for (R174,
R175, R177). -/
def loadShock (s : State) (p a : Nat) : State :=
  let v := Config.storedVal (identSerial s p) (ACT_SRV_SHOCK a) ACT_SRV_SHOCK_SHOCK_LIM.lo % 65536
  fwSet { s with slices := tabUpd {} s.slices a fun x => { x with shockMax := v } } (ACT_SRV_SHOCK a) ACT_SRV_SHOCK_SHOCK_LIM
    ((s.host.safety.map fun d => getF d.2 ACT_SRV_SHOCK_SHOCK_LIM).getD v)

/-- RATE_W of a port from the speed table of its mechanism's template (R319). -/
def loadRate (s : State) (p : Nat) : State :=
  match templateOf s p with
  | some t => fset s (BAL_MECH_RATE p) BAL_MECH_RATE_RATE_W (rateW s p t)
  | none => s

/-- A mechanism whose microactuators reach less than a track is impaired with CAUSE 0x52 (R160). -/
def reachCheck (s : State) (p : Nat) : State :=
  match mechUnit s p with
  | some u => if shortReach s p then impair s u 0x52 else unimpair s u 0x52
  | none => s

/-- Load those registers from the stored tables of the mechanism, with the shock limits, the kind of assist, and the impairment of
a short reach; the firmware leaves the RW fields of a claimed block (R20). -/
def loadStored (s : State) (p : Nat) : State :=
  let s1 := forAll (storedRegs p) s fun s x => fwSet s x.1 x.2 (Config.storedVal (identSerial s p) x.1 x.2.lo)
  let s2 := forAll [2 * p, 2 * p + 1] s1 fun s a => loadShock s p a
  reachCheck (restoreCal (loadRate (fset s2 (AST_CTRL p) AST_CTRL_KIND (identField s2 p 6 1)) p) p) p

/-- The spindle of port `p` turns when its mechanism binds: the last speed the device has is not 0. -/
def spinning (s : State) (p : Nat) : Bool := decide (rdN s (SPN_SPEED p) ≠ 0)

/-- The mechanism on port `p` is no longer bound. -/
def unboundPort (s : State) (p : Nat) : State := { s with trs := { s.trs with bound := s.trs.bound.filter (· != p) } }

/-- Hold the mechanism on port `p` unbound with a reason, and raise source 7 (R54). -/
def holdUnbound (s : State) (p why : Nat) : State :=
  sourceRise (fset (wbit (unboundPort s p) TRS_UNBOUND p true) (TRS_BIND_WHY p) TRS_BIND_WHY_WHY why) 7

/-- Some bound namespace above or below a unit would exceed 2^40 LBAs (R54). -/
def bindTooLarge (s : State) (u : Nat) : Bool :=
  s.trs.run.binds.any fun b => (inSubtree s b.uid u || inSubtree s u b.uid) && decide (2 ^ 40 < nsLbas s b.nsid)

/-- A THATCH above the unit whose capacity is fixed at more than the unit holds (R225). -/
def bindTooSmall (s : State) (u : Nat) : Bool :=
  (ancestors s u).any fun v => uKind s v == 4 && s.zmp.fixedCap.contains v && decide (rdN s (TRS_UNIT_CAP u) < rdN s (TRS_UNIT_CAP v)) &&
    (members s v).contains u

/-- The GRADE and CAUSE the wear account of a head gives its SURF unit (R217): VFY_RATE, then DRIFT. -/
def wearGrade (s : State) (p q : Nat) : Nat × Nat :=
  if fget s (AST_LIM p) AST_LIM_VFY_LIM ≤ fget s (AST_WEAR_W2 p q) AST_WEAR_W2_VFY_RATE then (2, 0x62)
  else if fget s (AST_LIM p) AST_LIM_DRIFT_WARN ≤ fget s (AST_WEAR_W2 p q) AST_WEAR_W2_DRIFT then (1, 0x61)
  else (0, 0)

/-- The health a SURF has at binding: the stored tables' or the wear account's, whichever is worse (R28, R29). -/
def boundHealth (s : State) (p q : Nat) : Nat × Nat :=
  let m := storedOf s p
  let w := wearGrade s p q
  if m.grade < w.1 then w else (m.grade, m.cause)

/-- The head q = 12k + h of each SURF of the mechanism on port `p`. -/
def surfHeads (s : State) (p : Nat) : List (Nat × Nat) :=
  let g := genOf s p
  (rangeFrom 0 g.length).flatMap fun k =>
    match g[k]? with
    | some a =>
      let us := a.2.flatMap (·.2)
      (rangeFrom 0 us.length).filterMap fun h => (us[h]?).map fun u => (12 * k + h, u)
    | none => []

/-- Bind the mechanism on port `p`, or hold it unbound (R54, R28, R222, R224, R225). The units of `keep` keep the state
they have, and a unit that was retired is RETIRED again (R29). -/
def bindKeeping (s : State) (p : Nat) (keep : List Nat) : State :=
  let why := bindWhy s p
  match mechUnit s p, templateOf s p with
  | some u, some t =>
    if why ≠ 0 then holdUnbound s p why
    else
      let qs := (rangeFrom 0 t.actuators).flatMap fun k => (rangeFrom 0 t.heads).map fun h => 12 * k + h
      let s1 := forAll qs s fun s q =>
        { s with zmp := { s.zmp with maps := tabPut s.zmp.maps (32 * p + q) (bandMap s p q t) } }
      let s2 := fixThatchCaps (setMechCaps s1 p) u
      if bindTooSmall s2 u then holdUnbound s p 5
      else if bindTooLarge s2 u then holdUnbound s p 0xA
      else
        let s3 := fset (wbit s2 TRS_UNBOUND p false) (TRS_BIND_WHY p) TRS_BIND_WHY_WHY 0
        let s4 := loadStored { s3 with trs := { s3.trs with bound := p :: s3.trs.bound.filter (· != p) } } p
        let st := if spinning s4 p then 2 else 1
        forAll (surfHeads s4 p) (spareSync (eaveSync s4 p) p) fun s x =>
          if keep.contains x.2 then s
          else setUState (setUGrade s x.2 (boundHealth s p x.1).1 (boundHealth s p x.1).2) x.2
            (if (uAux s x.2).own = some 6 then 6 else st)
  | _, _ => holdUnbound s p (if why = 0 then 1 else why)

/-- Bind the mechanism on port `p` as newly found. -/
def bindPort (s : State) (p : Nat) : State := bindKeeping s p []

/-- The mechanism on port `p` is bound. -/
def isBound (s : State) (p : Nat) : Bool := s.trs.bound.contains p

/-- A port whose mechanism is discovered: UP or PARTIAL (Table 3-8). -/
def portUp (s : State) (p : Nat) : Bool :=
  let st := fget s (TTH_LINK_STAT p) TTH_LINK_STAT_STATE
  st == 5 || st == 6

/-- Bindings deferred by a fence run against the current tree (R60). -/
def bindDeferred (s : State) : State :=
  forAll (rangeFrom 0 32) s fun s p =>
    if portUp s p ∧ fget s (TRS_BIND_WHY p) TRS_BIND_WHY_WHY = 9 then bindPort s p else s

end Sys2Proof.Machine
end

