-- ==== Sys2Proof/Machine/MbxOps.lean ====
section
/-! DEFINITION. The mailbox channels' shared operations (R410, R411, R413): notices, attention, and a receiver's reset. -/
namespace Sys2Proof.Machine
open Sys2Proof

/-- A notice of a channel goes to a party by its path of Table 17-3: an MSI-X message with the vector, or INTA, on a host port's
function, a peer-link message, the debug port's status; the lines of the other parties follow the state (`smbAlert`, `coreLine`). -/
def mbxNotify (s : State) (party c vec : Nat) (abort : Bool) : State :=
  let t := emit s (.mbxNotice party c abort vec)
  if party ≤ 1 then hostIrq t party vec else t

/-- A change of a channel's doorbell or mask; a rise of ATTN is delivered to the receiver with RVEC (Table 17-3). -/
def mbxChange (s : State) (c : Nat) (f : State → State) : State :=
  let t := f s
  if mbxAttn t c ∧ !mbxAttn s c then
    mbxNotify t (fget t (MBX_BIND c) MBX_BIND_RECEIVER) c (fget t (MBX_CH_VEC c) MBX_CH_VEC_RVEC) false
  else t

/-- A channel is cleared by the reset of its receiver: ABT is set, and the abort notice goes to the sender (R413). -/
def mbxClear (s : State) (c : Nat) : State :=
  let s1 := forAll (rangeFrom 0 16) s fun s i => wrN s (MBX_CH_DATA c i) 0
  let s2 := wrN (wrN s1 (MBX_CH_DB c) 0) (MBX_CH_MASK c) 0xFFFFFFFF
  let s3 := fset (fsetb s2 (MBX_CH_STAT c) MBX_CH_STAT_COLL false) (MBX_CH_VEC c) MBX_CH_VEC_RVEC 0
  if fbit s3 (MBX_CH_STAT c) MBX_CH_STAT_ABT then s3
  else mbxNotify (fsetb s3 (MBX_CH_STAT c) MBX_CH_STAT_ABT true) (fget s3 (MBX_BIND c) MBX_BIND_SENDER) c
    (fget s3 (MBX_CH_VEC c) MBX_CH_VEC_SVEC) true

/-- A party is reset (R413): every channel it receives is cleared, and ABORT is raised. -/
def partyReset (s : State) (party : Nat) : State :=
  let cs := (rangeFrom 0 64).filter fun c => mbxBound s c && fget s (MBX_BIND c) MBX_BIND_RECEIVER == party
  if cs = [] then s else evtSet (forAll cs s mbxClear) .mbx MBX_EVT_ABORT

/-- A data word of a channel is written by its sender: over a full channel the write shows as a collision; while ABT is 1
it is ignored (R411, Table 17-2). -/
def mbxPut (s : State) (c w : Nat) (v : Word) : State :=
  if fbit s (MBX_CH_STAT c) MBX_CH_STAT_ABT then s
  else
    let s1 := wr s (MBX_CH_DATA c w) v
    if mbxFull s c then
      evtSet (fadd (fsetb s1 (MBX_CH_STAT c) MBX_CH_STAT_COLL true) (MBX_CH_STAT c) MBX_CH_STAT_COLLISIONS 1) .mbx MBX_EVT_COLL
    else s1

/-- Doorbell bits of a channel are set by its sender (R410); while ABT is 1 the ring is ignored (Table 17-2). -/
def mbxRing (s : State) (c : Nat) (bits : Word) : State :=
  if fbit s (MBX_CH_STAT c) MBX_CH_STAT_ABT then s
  else mbxChange s c fun s => wr s (MBX_CH_DB c) (rd s (MBX_CH_DB c) ||| bits)

/-- A Ridge core answers a request on channel `c` (R414): up to 64 bytes, the rest zero, and the message bit. The request
came on channel `c − 1`; where its receiver is not the sender of `c`, each write is a violation (R409). -/
def mbxAnswer (s : State) (c : Nat) (bytes : List Nat) : State :=
  if mbxBound s c && fget s (MBX_BIND c) MBX_BIND_SENDER == fget s (MBX_BIND (c - 1)) MBX_BIND_RECEIVER then
    mbxRing (forAll (rangeFrom 0 16) s fun s w =>
      mbxPut s c w (BitVec.ofNat 32 (leNat ((bytes.drop (4 * w)).take 4)))) c 1
  else forAll (rangeFrom 0 17) s fun s _ => mbxViol s

/-- MSTATUS of a mailbox answer from an NVMe status (R415). -/
def mStatus (sct sc : Nat) : Nat :=
  if sct = 0 ∧ sc = 0 then 0 else if sct = 0 ∧ sc = 0x02 then 2 else if sct = 0 ∧ sc = 0xC0 then 4
  else if sct = 0 ∧ sc = 0x0C then 5 else 6

end Sys2Proof.Machine
end

