-- ==== Sys2Proof/Machine/Complete.lean ====
section
/-! DEFINITION. Completions, the notices of a controller, and the Error Information log (chapter 10). -/
namespace Sys2Proof.Machine
open Sys2Proof

/-- A controller of the device: port A's or port B's. -/
def ctl (s : State) (x : Nat) : Ctl := if x = 0 then s.host.ctlA else s.host.ctlB

/-- Change a controller. -/
def setCtl (s : State) (x : Nat) (f : Ctl → Ctl) : State :=
  { s with host := if x = 0 then { s.host with ctlA := f s.host.ctlA } else { s.host with ctlB := f s.host.ctlB } }

/-- Port B exists: the device is not in x16 configuration (R253). -/
def portExists (s : State) (x : Nat) : Bool := x == 0 || fbit s HIF_MODE HIF_MODE_BIFUR

/-- An admin command is executed: its controller exists and is ready; from another none arrives. -/
def adminCmd (s : State) (x : HPort) (f : State → State) : State :=
  if portExists s (portId x) && (ctl s (portId x)).ready then f s else s

/-- The end of a command. On a port: a completion entry, counted (Table 10-9). For a mailbox request, which stands as port
256 + c with its answer's channel c and its MOPC + 256 × SEQ as the CID: the answer of R414, with Completion Dword 0, and
Dword 1 of Get Feature. -/
def completeDnr (s : State) (x sq cid sct sc dw0 dw1 : Nat) (dnr : Option Bool) : State :=
  if x < 256 then count (emit s (.cqe x sq cid sct sc dw0 dw1 dnr)) (HIF_PORT_CNT x 0) 1 .hif HIF_EVT_SAT
  else
    let data := if mStatus sct sc ≠ 0 then [] else leBytes 4 dw0 ++ (if cid % 256 = 3 then leBytes 4 dw1 else [])
    mbxAnswer s (x - 256) ([cid % 256, cid / 256 % 256, mStatus sct sc, 0] ++ data)

/-- DNR of a status (Table 10-7); none where the table leaves the status to the NVMe specifications. Of Unit Unavailable this
is the value for an ABSENT unit. -/
def dnrOf (sct sc : Nat) : Option Bool :=
  if [(0, 0xC0), (0, 0xC1), (0, 0x04), (0, 0x07), (1, 0xBD), (2, 0x80), (3, 0x02), (3, 0x03)].contains (sct, sc) then some false
  else if [(1, 0xBA), (1, 0xC0), (2, 0x81)].contains (sct, sc) then some true else none

/-- The end of a command, with the DNR that Table 10-7 gives its status. -/
def complete (s : State) (x sq cid sct sc dw0 dw1 : Nat) : State := completeDnr s x sq cid sct sc dw0 dw1 (dnrOf sct sc)

/-- An admin command completes with a status. -/
def adminEnd (s : State) (x cid sct sc : Nat) : State := complete s x 0 cid sct sc 0 0

/-- An admin command completes with success and Dword 0. -/
def adminOk (s : State) (x cid dw0 : Nat) : State := complete s x 0 cid 0 0 dw0 0

/-- Invalid Field in Command. -/
def invalidField (s : State) (x cid : Nat) : State := adminEnd s x cid 0 0x02

/-- Command Sequence Error. -/
def sequenceError (s : State) (x cid : Nat) : State := adminEnd s x cid 0 0x0C

/-- Expert Claim Held (Table 10-7). -/
def claimHeld (s : State) (x cid : Nat) : State := adminEnd s x cid 0 0xC0

/-- Data of an admin command goes to the host, and it completes. -/
def adminData (s : State) (x cid : Nat) (data : List Nat) : State := adminOk (emit s (.hostData x cid data)) x cid 0

/-- A controller that is enabled raises an event (R271, R274, R275). -/
def notice (s : State) (x type info log : Nat) : State := if (ctl s x).enabled then aenPost s x type info log else s

/-- A namespace is attached to the controller of port `x` (R259). -/
def attached (s : State) (x n : Nat) : Bool := (nsBind s n).any fun b => bitOf (BitVec.ofNat 32 b.ports) x

/-- Namespace Attribute Changed on every controller concerned (R275). -/
def nsChanged (s : State) (n : Nat) (ports : Nat) : State :=
  forAll [0, 1] s fun s x =>
    if bitOf (BitVec.ofNat 32 ports) x then
      notice (setCtl s x fun c => { c with chgNs := if c.chgNs.contains n then c.chgNs else c.chgNs ++ [n] }) x 2 0 4
    else s

/-- A zone joins the Changed Zone List with a Zone Descriptor Changed event (R271, R275). -/
def zoneChanged (s : State) (n z : Nat) (ports : Nat) : State :=
  forAll [0, 1] s fun s x =>
    if bitOf (BitVec.ofNat 32 ports) x then
      notice (setCtl s x fun c =>
        { c with chgZones := if c.chgZones.contains (n, z) then c.chgZones else c.chgZones ++ [(n, z)] }) x 2 0xEF 0xBF
    else s

/-- An entry of the Error Information log, the oldest replaced beyond 64 (R260). -/
def logError (s : State) (x sq cid sct sc n lba : Nat) : State :=
  let c := s.host.errCount + 1
  { s with host := { s.host with errCount := c, errLog := (⟨c, x, sq, cid, sct, sc, n, lba⟩ :: s.host.errLog).take 64 } }

/-- The PORTS of a namespace's binding; none when it is not bound. -/
def nsPorts (s : State) (n : Nat) : Nat := ((nsBind s n).map (·.ports)).getD 0

end Sys2Proof.Machine
end

