-- ==== Sys2Proof/Machine/MicroOps.lean ====
section
/-! DEFINITION. The microcoded sequencers' shared state changes (chapter 15): what hardware latches for a formatter, its
results, and its power domain. -/
namespace Sys2Proof.Machine
open Sys2Proof

/-- Formatter sequencer `f`. -/
def fseqOf (s : State) (f : Nat) : FSeq := tabGet {} s.mcs.fseq f

/-- Change a formatter sequencer. -/
def setFseq (s : State) (f : Nat) (g : FSeq → FSeq) : State :=
  { s with mcs := { s.mcs with fseq := tabUpd {} s.mcs.fseq f g } }

/-- A sticky condition of a formatter is latched (R368). -/
def latchCond (s : State) (f c : Nat) : State :=
  setFseq s f fun x => { x with latch := if x.latch.contains c then x.latch else c :: x.latch }

/-- A sync decision is made on lane l (Table 15-2, port SYNC): conditions SM1 and SM2. -/
def latchSync (s : State) (f l dec : Nat) : State :=
  setFseq (latchCond (latchCond s f 8) f 9) f fun x => { x with sync := (dec, l) }

/-- A decode result of lane l waits (port RES). -/
def latchRes (s : State) (f l result : Nat) : State :=
  setFseq (latchCond s f 14) f fun x => { x with res := x.res ++ [(result, l)] }

/-- Zone sequencer `z`, and its thread `t`. -/
def zseq (s : State) (z : Nat) : ZSeq := tabGet {} s.mcs.zseq z
def zthread (s : State) (z t : Nat) : ZThread := tabGet {} (zseq s z).threads t

/-- Change a zone sequencer, or a thread of it. -/
def setZseq (s : State) (z : Nat) (g : ZSeq → ZSeq) : State :=
  { s with mcs := { s.mcs with zseq := tabUpd {} s.mcs.zseq z g } }
def setThread (s : State) (z t : Nat) (g : ZThread → ZThread) : State :=
  setZseq s z fun x => { x with threads := tabUpd {} x.threads t g }

/-- A thread holds a command, the host's or a background task's (R366). -/
def threadBusy (x : ZThread) : Bool := x.cmd.isSome || x.task.isSome

/-- The threads of a zone sequencer that hold a command. -/
def busyThreads (s : State) (z : Nat) : List (Nat × ZThread) := (zseq s z).threads.filter fun x => threadBusy x.2

/-- A formatter's result returns to the thread that sent the instruction (R366). -/
def pushResult (s : State) (i : FInstr) (r : Nat × Nat × Bool) : State :=
  if (busyThreads s i.z).any fun x => x.1 == i.t then setThread s i.z i.t fun x => { x with results := x.results ++ [r] } else s

/-- STATE of a zone sequencer. -/
def zState (s : State) (z : Nat) : Nat := fget s (MCS_ZSEQ_W0 z) MCS_ZSEQ_W0_STATE

/-- A halt of zone sequencer `z` is requested. -/
def zHreq (s : State) (z : Nat) : Bool := bitOf (BitVec.ofNat 32 (fget s MCS_ZCTRL MCS_ZCTRL_Z_HALT)) z

/-- BUSY, WAITING, STATE and Z_HALTED follow the threads: halted once every thread is idle or waits at HALTPT while a halt
is requested (Table 15-6). -/
def zSync (s : State) (z : Nat) : State :=
  let b := busyThreads s z
  let s1 := fset (fset s (MCS_ZSEQ_W1 z) MCS_ZSEQ_W1_BUSY b.length) (MCS_ZSEQ_W1 z) MCS_ZSEQ_W1_WAITING
    (b.filter fun x => x.2.wait.isSome).length
  if zState s z = 3 then s1
  else
    let halted := zHreq s z && b.all fun x => x.2.atHalt
    let s2 := fset s1 (MCS_ZSEQ_W0 z) MCS_ZSEQ_W0_STATE (if halted then 2 else if b = [] then 1 else 0)
    wbit s2 MCS_STAT (8 + z) halted

/-- A match register of the zone store substitutes an address. -/
def zSubst (s : State) (pc : Nat) : Nat :=
  match (rangeFrom 0 32).find? fun i =>
      fbit s (MCS_ZMATCH i) MCS_ZMATCH_VALID && fget s (MCS_ZMATCH i) MCS_ZMATCH_ROM_ADDR == pc with
  | some i => fget s (MCS_ZMATCH i) MCS_ZMATCH_PATCH_ADDR
  | none => pc

/-- A command enters at the lowest free thread of its zone sequencer, at the idle address; none while the sequencer is halted or
faulted, or has no free thread (R366). -/
def flowEnter (s : State) (z : Nat) (x : ZThread) : Option State :=
  if 2 ≤ zState s z ∨ mode s = 0 then none
  else ((rangeFrom 0 64).find? fun t => !threadBusy (zthread s z t)).map fun t =>
    zSync (setThread s z t fun _ => { x with pc := zSubst s 0x100 }) z

/-- QDEPTH and SP follow the formatter. -/
def fSync (s : State) (f : Nat) : State :=
  fset (fset s (MCS_FSEQ_W1 f) MCS_FSEQ_W1_QDEPTH (fseqOf s f).queue.length) (MCS_FSEQ_W1 f) MCS_FSEQ_W1_SP (fseqOf s f).stack.length

/-- STATE of a formatter (Table 15-7). -/
def fState (s : State) (f : Nat) : Nat := fget s (MCS_FSEQ_W0 f) MCS_FSEQ_W0_STATE

/-- Domain 75 + f goes off: the sequencer is OFF (R364). -/
def fseqOff (s : State) (n : Nat) : State :=
  if 75 ≤ n ∧ n < 139 ∧ domOn s n then fset s (MCS_FSEQ_W0 (n - 75)) MCS_FSEQ_W0_STATE 4 else s

/-- Domain 75 + f comes on: the sequencer starts at the idle address with nothing in it (R364). -/
def fseqOn (s : State) (f : Nat) : State :=
  let s1 := { s with mcs := { s.mcs with fseq := tabDel s.mcs.fseq f } }
  wrN (wrN s1 (MCS_FSEQ_W0 f) 0x10000100) (MCS_FSEQ_W1 f) 0

end Sys2Proof.Machine
end

