-- ==== Sys2Proof/Machine/Crypto.lean ====
section
/-! DEFINITION. What signs a truss image (R48): SHA-256, and the verification of an ECDSA signature on curve P-256. The
four public keys are held by the device key ladder; the specification does not state them. -/
namespace Sys2Proof.Machine
open Sys2Proof

/-! ### SHA-256 -/

/-- The round constants of SHA-256. -/
def shaK : List Nat :=
  [0x428a2f98, 0x71374491, 0xb5c0fbcf, 0xe9b5dba5, 0x3956c25b, 0x59f111f1, 0x923f82a4, 0xab1c5ed5] ++
  [0xd807aa98, 0x12835b01, 0x243185be, 0x550c7dc3, 0x72be5d74, 0x80deb1fe, 0x9bdc06a7, 0xc19bf174] ++
  [0xe49b69c1, 0xefbe4786, 0x0fc19dc6, 0x240ca1cc, 0x2de92c6f, 0x4a7484aa, 0x5cb0a9dc, 0x76f988da] ++
  [0x983e5152, 0xa831c66d, 0xb00327c8, 0xbf597fc7, 0xc6e00bf3, 0xd5a79147, 0x06ca6351, 0x14292967] ++
  [0x27b70a85, 0x2e1b2138, 0x4d2c6dfc, 0x53380d13, 0x650a7354, 0x766a0abb, 0x81c2c92e, 0x92722c85] ++
  [0xa2bfe8a1, 0xa81a664b, 0xc24b8b70, 0xc76c51a3, 0xd192e819, 0xd6990624, 0xf40e3585, 0x106aa070] ++
  [0x19a4c116, 0x1e376c08, 0x2748774c, 0x34b0bcb5, 0x391c0cb3, 0x4ed8aa4a, 0x5b9cca4f, 0x682e6ff3] ++
  [0x748f82ee, 0x78a5636f, 0x84c87814, 0x8cc70208, 0x90befffa, 0xa4506ceb, 0xbef9a3f7, 0xc67178f2]

/-- A 32-bit word rotated right. -/
def rotr (n x : Nat) : Nat := (x >>> n ||| x <<< (32 - n)) % 2 ^ 32

/-- The big-endian number that a list of bytes spells. -/
def beNat (l : List Nat) : Nat := l.foldl (fun a b => 256 * a + b % 256) 0

/-- `n` bytes of the number `v`, big-endian. -/
def beBytes (n v : Nat) : List Nat := (leBytes n v).reverse

/-- The message schedule from its last sixteen words, newest first; `n` words are still to come. -/
def shaSchedule : Nat → List Nat → List Nat
  | 0, w => w
  | n + 1, w =>
    let a := w.getD 14 0
    let b := w.getD 1 0
    let s0 := rotr 7 a ^^^ rotr 18 a ^^^ a >>> 3
    let s1 := rotr 17 b ^^^ rotr 19 b ^^^ b >>> 10
    shaSchedule n ((w.getD 15 0 + s0 + w.getD 6 0 + s1) % 2 ^ 32 :: w)

/-- One round on the eight working variables, with a schedule word and its constant. -/
def shaRound (v : List Nat) (x : Nat × Nat) : List Nat :=
  let g := fun i => v.getD i 0
  let t1 := g 7 + (rotr 6 (g 4) ^^^ rotr 11 (g 4) ^^^ rotr 25 (g 4)) + ((g 4 &&& g 5) ^^^ ((2 ^ 32 - 1 - g 4) &&& g 6)) + x.1 + x.2
  let t2 := (rotr 2 (g 0) ^^^ rotr 13 (g 0) ^^^ rotr 22 (g 0)) + ((g 0 &&& g 1) ^^^ (g 0 &&& g 2) ^^^ (g 1 &&& g 2))
  [(t1 + t2) % 2 ^ 32, g 0, g 1, g 2, (g 3 + t1) % 2 ^ 32, g 4, g 5, g 6]

/-- The hash value after one block of 64 bytes. -/
def shaBlock (h blk : List Nat) : List Nat :=
  let w := (rangeFrom 0 16).map fun i => beNat ((blk.drop (4 * i)).take 4)
  let ws := (shaSchedule 48 w.reverse).reverse
  ((ws.zip shaK).foldl shaRound h).zipWith (fun a b => (a + b) % 2 ^ 32) h

/-- The hash value after `n` blocks of a padded message. -/
def shaBlocks : Nat → List Nat → List Nat → List Nat
  | 0, h, _ => h
  | n + 1, h, m => shaBlocks n (shaBlock h (m.take 64)) (m.drop 64)

/-- SHA-256 of a list of bytes, as 32 bytes. -/
def sha256 (m : List Nat) : List Nat :=
  let pad := (119 - m.length % 64) % 64
  let p := m ++ [0x80] ++ List.replicate pad 0 ++ beBytes 8 (8 * m.length)
  (shaBlocks (p.length / 64) [0x6a09e667, 0xbb67ae85, 0x3c6ef372, 0xa54ff53a, 0x510e527f, 0x9b05688c, 0x1f83d9ab, 0x5be0cd19]
    p).flatMap (beBytes 4)

/-! ### ECDSA on curve P-256 -/

/-- The prime of the field, the order of the base point, and the base point. -/
def p256P : Nat := 0xffffffff00000001000000000000000000000000ffffffffffffffffffffffff
def p256N : Nat := 0xffffffff00000000ffffffffffffffffbce6faada7179e84f3b9cac2fc632551
def p256G : Nat × Nat :=
  (0x6b17d1f2e12c4247f8bce6e563a440f277037d812deb33a0f4a13945d898c296,
   0x4fe342e2fe1a7f9b8ee7eb4a7c0f9e162bce33576b315ececbb6406837bf51f5)

/-- b to the power e modulo m, over the lowest `n` bits of e. -/
def powMod (m : Nat) : Nat → Nat → Nat → Nat
  | 0, _, _ => 1 % m
  | n + 1, b, e => let r := powMod m n (b * b % m) (e / 2); if e % 2 = 1 then b * r % m else r

/-- The inverse of a number modulo a prime of at most 256 bits. -/
def invMod (m a : Nat) : Nat := powMod m 256 (a % m) (m - 2)

/-- The sum of two points of the curve; none is the point at infinity. -/
def p256Add (a b : Option (Nat × Nat)) : Option (Nat × Nat) :=
  match a, b with
  | none, y => y
  | x, none => x
  | some x, some y =>
    let p := p256P
    if x.1 = y.1 ∧ (x.2 + y.2) % p = 0 then none
    else
      let l := if x = y then (3 * x.1 * x.1 + p - 3) * invMod p (2 * x.2) % p
        else (y.2 + p - x.2) * invMod p (y.1 + p - x.1) % p
      let x3 := (l * l + 2 * p - x.1 - y.1) % p
      some (x3, (l * (x.1 + p - x3) + p - x.2) % p)

/-- The multiple of a point by the lowest `n` bits of a number. -/
def p256Mul : Nat → Nat → Option (Nat × Nat) → Option (Nat × Nat)
  | 0, _, _ => none
  | n + 1, k, q => let r := p256Mul n (k / 2) (p256Add q q); if k % 2 = 1 then p256Add q r else r

/-- The signature r, s of a digest verifies under a public key. -/
def ecdsaOk (key : Nat × Nat) (digest r s : Nat) : Bool :=
  let n := p256N
  let w := invMod n s
  let x := p256Add (p256Mul 256 (digest * w % n) (some p256G)) (p256Mul 256 (r * w % n) (some key))
  decide (1 ≤ r ∧ r < n ∧ 1 ≤ s ∧ s < n) && x.any fun x => decide (x.1 % n = r)

/-- Whether a signature of 64 bytes, r then s, each big-endian, covers some bytes under the key of a slot (R48). -/
def sigOk (slot : Nat) (msg sig : List Nat) : Bool :=
  ecdsaOk (Config.pubKey slot) (beNat (sha256 msg)) (beNat (sig.take 32)) (beNat ((sig.drop 32).take 32))

end Sys2Proof.Machine
end

