-- ==== Sys2Proof/Machine/TrussImage.lean ====
section
/-! DEFINITION. The truss image: its bytes, its records, the structure they describe, and the checks of Table 2-4
(R44 to R52, R57, R373). A check answers none, or the refusal code and WHERE. -/
namespace Sys2Proof.Machine
open Sys2Proof

/-- One bit of the reflected CRC-32C register (R47). -/
def crcBit (c : Nat) : Nat := if c % 2 = 1 then (c / 2) ^^^ 0x82F63B78 else c / 2

/-- The CRC-32C register after one byte. -/
def crcByte (c b : Nat) : Nat :=
  crcBit (crcBit (crcBit (crcBit (crcBit (crcBit (crcBit (crcBit (c ^^^ (b % 256)))))))))

/-- CRC-32C of a list of bytes (R47). -/
def crc32c (l : List Nat) : Nat := (l.foldl crcByte 0xFFFFFFFF) ^^^ 0xFFFFFFFF

/-- Fields of a byte list at an offset. -/
def at1 (b : List Nat) (o : Nat) : Nat := b.getD o 0
def at2 (b : List Nat) (o : Nat) : Nat := leNat ((b.drop o).take 2)
def at4 (b : List Nat) (o : Nat) : Nat := leNat ((b.drop o).take 4)

/-- A numbered record: index, TYPE, value bytes. -/
abbrev Rec := Nat × Nat × List Nat

/-- The records that tile a byte list from index `i` on, and whether they tile it with zero padding (R46). -/
def parseRecs : Nat → Nat → List Nat → List Rec × Bool
  | 0, _, b => ([], b.isEmpty)
  | n + 1, i, b =>
    if b.isEmpty then ([], true)
    else
      let len := at2 b 2
      let padded := (len + 3) / 4 * 4
      if b.length < 4 + padded ∨ ((b.drop (4 + len)).take (padded - len)).any (· != 0) then ([], false)
      else
        let r := parseRecs n (i + 1) (b.drop (4 + padded))
        ((i, at2 b 0, (b.drop 4).take len) :: r.1, r.2)

/-- The first record a test finds bad, as a refusal. -/
def badRec (code : Nat) (rs : List Rec) (bad : Rec → Bool) : Option (Nat × Nat) := (rs.find? bad).map fun r => (code, r.1)

/-- Steps 1 to 5 of Table 2-4 on the file of `len` bytes; `kinds` are the KINDs the command takes. -/
def checkHeader (f : List Nat) (len : Nat) (kinds : List Nat) : Option (Nat × Nat) :=
  let img := at4 f 8
  let w := 0xFFFF
  if len < 140 ∨ len ≠ img + 68 ∨ 262144 < len then some (0x01, w)
  else if at4 f 0 ≠ 0x53525451 then some (0x02, w)
  else if at2 f 4 ≠ 1 ∨ at2 f 6 ≠ 0x40 then some (0x03, w)
  else if img % 4 ≠ 0 ∨ at2 f 0x1C ≠ 0x3264 ∨ !([1, 2].contains (at1 f 0x0C)) ∨ !kinds.contains (at1 f 0x0C) ∨
      at2 f 0x0E ≠ 0 ∨ at2 f 0x1E ≠ 0 ∨ ((f.drop 0x34).take 12).any (· != 0) ∨ 0x1000 ≤ at2 f 0x14 ∨
      at1 f 0x0C = 1 ∧ (at2 f 0x14 ≠ 0x0FFF ∨ at4 f 0x18 ≠ 0) then some (0x04, w)
  else if crc32c (f.take (img - 4)) ≠ at4 f (img - 4) then some (0x05, w)
  else none

/-- Steps 6 to 9 of Table 2-4: key, signature, rollback, base. -/
def checkKey (s : State) (f : List Nat) : Option (Nat × Nat) :=
  let img := at4 f 8
  let slot := at1 f 0x0D
  let sig := f.drop img
  let w := 0xFFFF
  if 3 < slot ∨ !rbit s TRS_KEY_STAT slot ∨ rbit s TRS_KEY_STAT (8 + slot) ∨ at1 sig 0 ≠ 1 ∨ at1 sig 1 ≠ slot ∨
      at2 sig 2 ≠ 0x40 then some (0x06, w)
  else if !sigOk slot (f.take img) ((sig.drop 4).take 64) then some (0x07, w)
  else if at1 f 0x0C = 1 ∧ at4 f 0x10 < rdN s TRS_SEQ_FLOOR ∨ at1 f 0x0C = 2 ∧ at4 f 0x10 ≤ rdN s TRS_RUN_SEQ then
    some (0x08, w)
  else if at1 f 0x0C = 2 ∧ at4 f 0x18 ≠ rdN s TRS_RUN_SEQ then some (0x09, w)
  else none

/-- TYPEs the device knows (Table 2-2). -/
def knownTypes : List Nat := [1, 2, 3, 4, 5, 6, 7, 8, 9, 0xA, 0xB, 0xC, 0xD, 0xFF]

/-- LEN is as Table 2-2 gives it. -/
def lenOk (r : Rec) : Bool :=
  let v := r.2.2
  let n := v.length
  match r.2.1 with
  | 1 => n == 12 | 2 => n == 24 | 3 => n == 4 | 4 => n == 4 | 5 => n == 12 | 6 => n == 8 | 7 => n == 8
  | 8 => n == 4 + 4 * at1 v 1 && decide (4 ≤ n) | 9 => n == 4 + 4 * at1 v 1 && decide (4 ≤ n)
  | 0xA => n == 4 + 4 * at1 v 2 && decide (4 ≤ n) | 0xB => n == 8 + 4 * at2 v 6 && decide (8 ≤ n)
  | 0xC => n % 8 == 0 | 0xD => n == 4 | 0xFF => n == 0
  | _ => true

/-- The 4-byte groups of a list of bytes. -/
def groups4 (b : List Nat) : List (List Nat) := (rangeFrom 0 (b.length / 4)).map fun i => (b.drop (4 * i)).take 4

/-- A list of numbers is strictly falling, non-increasing, or strictly rising. -/
def chain (ok : Nat → Nat → Bool) : List Nat → Bool
  | a :: b :: l => ok a b && chain ok (b :: l)
  | _ => true

/-- The range of a limit (Table 2-3). -/
def limitOk (id v : Nat) : Bool :=
  match id with
  | 1 => decide (1 ≤ v ∧ v ≤ 32) | 2 => decide (100 ≤ v ∧ v ≤ 10000) | 3 => decide (200 ≤ v ∧ v ≤ 10000)
  | 4 => decide (50 ≤ v ∧ v ≤ 10000) | 5 => decide (10 ≤ v ∧ v ≤ 200) | 6 => decide (2 ≤ v ∧ v ≤ 64)
  | _ => false

/-- |b0 + b1 + b2 − 1 − a1 − a2| ≤ 2^-20 of five coefficient words, in units of 2^-24 (R185). -/
def unityGain (c : List Nat) : Bool :=
  let g := fun i => sgn 32 (c.getD i 0)
  decide ((g 0 + g 1 + g 2 - 2 ^ 24 - g 3 - g 4).natAbs ≤ 16)

/-- The values of a record's fields are those of R50, R185 and Table 2-3. DEDUCED: CONV_MIB = 0 is a multiple of 4 and is taken
(log entry 42). -/
def fieldOk (r : Rec) : Bool :=
  let v := r.2.2
  let b := at1 v
  match r.2.1 with
  | 1 =>
    let kind := b 4
    decide (at2 v 0 < 0xFFF ∧ at2 v 2 ≤ 0xFFF ∧ (at2 v 2 = 0xFFF → at2 v 0 = 0) ∧ (kind = 3 ∨ kind = 4 ∨ kind = 5) ∧
      b 5 ≤ 0xF ∧ (if kind = 3 then b 6 ≤ 31 else b 6 = 0) ∧ (b 7 ≤ 15 ∨ b 7 = 0xFF) ∧
      (if kind = 3 then b 8 ≤ 31 else b 8 = 0xFF) ∧ b 9 ≤ 1 ∧ (kind = 3 ∨ at2 v 10 = 0xFFFF))
  | 2 => decide (b 0 ≤ 31 ∧ (b 1 = 1 ∨ b 1 = 2) ∧ 1 ≤ b 2 ∧ b 2 ≤ 12 ∧ (b 3 = 1 ∨ b 3 = 2 ∨ b 3 = 4) ∧ b 4 ≤ 2 ∧ b 5 ≤ 7 ∧
      (b 6 ≤ 7 ∨ b 6 = 0xFF))
  | 3 => decide (b 0 ≤ 15 ∧ b 1 ≤ 2 ∧ b 2 ≤ 8)
  | 4 => decide (1 ≤ b 2 ∧ b 2 ≤ 4)
  | 5 => decide (1 ≤ b 0 ∧ b 0 ≤ 64 ∧ b 1 ≤ 1 ∧ 1 ≤ b 4 ∧ b 4 ≤ 64 ∧ 1 ≤ b 5 ∧ b 5 ≤ 3 ∧
      (if b 1 = 0 then at4 v 8 = 0 else at4 v 8 % 4 = 0))
  | 6 => decide (b 0 ≤ 1 ∧ 1 ≤ at2 v 2 ∧ at2 v 2 ≤ at2 v 4 ∧ at2 v 4 ≤ 512)
  | 7 => decide (b 0 ≤ 0xE ∧ b 1 ≤ 3 ∧ b 5 ≤ b 4 ∧ b 4 ≤ 3 ∧ 1 ≤ b 6 ∧ b 6 ≤ 32)
  | 8 =>
    let e := groups4 (v.drop 4)
    decide (b 0 ≤ 7 ∧ 1 ≤ b 1 ∧ b 1 ≤ 4) && e.all (fun x => decide (at2 x 0 ≤ 7200 ∧ at1 x 3 ≤ 1)) &&
    chain (fun a c => decide (c < a)) (e.map fun x => at2 x 0)
  | 9 =>
    let e := groups4 (v.drop 4)
    decide (b 0 ≤ 7 ∧ 1 ≤ b 1 ∧ b 1 ≤ 32) && e.all (fun x => decide (at2 x 2 ≤ 6400)) &&
    decide ((e.map fun x => at2 x 0).headD 1 = 0) && chain (fun a c => decide (a < c)) (e.map fun x => at2 x 0) &&
    chain (fun a c => decide (c ≤ a)) (e.map fun x => at2 x 2)
  | 0xA =>
    let c := (groups4 (v.drop 4)).map leNat
    decide (b 0 ≤ 254 ∧ b 1 ≤ 5 ∧ b 2 = 16) && unityGain (c.drop 6) && unityGain (c.drop 11)
  | 0xB => decide (b 0 ≤ 1) && ((groups4 (v.drop 8)).map leNat).all (fun x => decide (x < 2 ^ 20))
  | 0xC => (rangeFrom 0 (v.length / 8)).all fun i => limitOk (at2 v (8 * i)) (at4 v (8 * i + 4))
  | 0xD => decide (b 0 ≤ 3 ∧ b 1 ≤ 1)
  | _ => true

/-- The IDs a record defines, as (name space, ID): those that no image may define twice (step 14). -/
def definedIds (r : Rec) : List (Nat × Nat) :=
  let v := r.2.2
  let b := at1 v
  match r.2.1 with
  | 1 => (1, at2 v 0) :: (if b 4 = 3 then [(0x100, b 6)] else [])
  | 2 => [(2, b 0)] | 3 => [(3, b 0)] | 4 => [(4, at2 v 0)] | 7 => [(7, b 0)] | 8 => [(8, b 0)] | 9 => [(9, b 0)]
  | 0xA => [(0xA, 8 * b 0 + b 1)]
  | 0xC => (rangeFrom 0 (v.length / 8)).map fun i => (0xC, at2 v (8 * i))
  | 0xD => [(0xD, 0)]
  | _ => []

/-- The first record that defines an ID a second time; `seen` are the IDs defined before it. -/
def firstDup : List (Nat × Nat) → List Rec → Option Nat
  | _, [] => none
  | seen, r :: rs =>
    let ids := definedIds r
    if ids.any seen.contains ∨ ids.eraseDups.length < ids.length then some r.1 else firstDup (ids ++ seen) rs

/-- Add a record's content to a structure. -/
def addRec (t : Truss) (r : Rec) : Truss :=
  let v := r.2.2
  let b := at1 v
  match r.2.1 with
  | 1 => { t with units := t.units ++ [⟨at2 v 0, at2 v 2, b 4, b 5, b 6, b 7, b 8, b 9 == 1, at2 v 10⟩] }
  | 2 => { t with templates := t.templates.filter (fun x => x.tid != b 0) ++
      [⟨b 0, b 1, b 2, b 3, b 4, b 5, b 6, at4 v 8, at4 v 12, at4 v 16, at2 v 20⟩] }
  | 3 => { t with regions := t.regions.filter (fun x => x.rid != b 0) ++ [⟨b 0, b 1, b 2⟩] }
  | 4 => { t with thatches := t.thatches.filter (fun x => x.1 != at2 v 0) ++ [(at2 v 0, b 2)] }
  | 5 => { t with binds := t.binds ++ [⟨b 0, b 1, at2 v 2, b 4, b 5, at4 v 8⟩] }
  | 6 => { t with steers := t.steers ++ [⟨b 0, at2 v 2, at2 v 4, at2 v 6⟩] }
  | 7 => { t with powers := t.powers.filter (fun x => x.pid != b 0) ++ [⟨b 0, b 1, at2 v 2, b 4, b 5, b 6⟩] }
  | 8 => { t with speeds := t.speeds.filter (fun x => x.1 != b 0) ++
      [(b 0, (groups4 (v.drop 4)).map fun x => ⟨at2 x 0, at1 x 2, at1 x 3 == 1⟩)] }
  | 9 => { t with bands := t.bands.filter (fun x => x.1 != b 0) ++
      [(b 0, (groups4 (v.drop 4)).map fun x => ⟨at2 x 0, at2 x 2⟩)] }
  | 0xA => { t with bridles := t.bridles.filter (fun x => !(x.1 == b 0 && x.2.1 == b 1)) ++
      [(b 0, b 1, (groups4 (v.drop 4)).map leNat)] }
  | 0xB => { t with ucode := t.ucode ++ [⟨b 0, b 1, at2 v 2, at2 v 4, (groups4 (v.drop 8)).map leNat⟩] }
  | 0xC => { t with limits := t.limits ++ (rangeFrom 0 (v.length / 8)).map fun i => (at2 v (8 * i), at4 v (8 * i + 4)) }
  | 0xD => { t with hostPolicy := some (b 0, b 1) }
  | _ => t

/-- Units of a structure below and including one, by the PARENT links of its UNIT records; records follow their
parents. -/
def recSubtree (t : Truss) (root : Nat) : List Nat :=
  t.units.foldl (fun acc u => if u.uid = root ∨ acc.contains u.parent then acc ++ [u.uid] else acc) []

/-- The template of a UNIT record. -/
def recTemplate (t : Truss) (u : UnitRec) : Option SlotTemplate :=
  if u.kind = 3 then t.templates.find? fun x => x.tid == u.template else none

/-- The units a UNIT record generates: (ID, parent, KIND), in order (R51). -/
def recGenerated (t : Truss) (u : UnitRec) : List (Nat × Nat × Nat) :=
  match recTemplate t u with
  | some m => (genIds u.childBase m).flatMap fun a =>
      (a.1, u.uid, 2) :: a.2.flatMap fun c => (c.1, a.1, 1) :: c.2.map fun h => (h, c.1, 0)
  | none => []

/-- Every unit of a structure: (ID, parent, KIND), records and generated units. -/
def allUnits (t : Truss) : List (Nat × Nat × Nat) :=
  t.units.flatMap fun u => (u.uid, u.parent, u.kind) :: recGenerated t u

/-- Every unit inside a patch root's subtree, generated units too. -/
def wholeSubtree (t : Truss) (root : Nat) : List Nat :=
  let us := recSubtree t root
  (t.units.filter fun u => us.contains u.uid).flatMap fun u => u.uid :: (recGenerated t u).map (·.1)

/-- The structure that an image's records give: a full image from nothing, a patch from the running structure with its
old subtree taken out (R57). A UID of the patch that is in use outside the subtree is the patch's here; step 22 refuses it. -/
def newTruss (run : Truss) (f : List Nat) (rs : List Rec) : Truss :=
  let root := at2 f 0x14
  let mine := (rs.filter fun r => r.2.1 == 1).map fun r => at2 r.2.2 0
  let base : Truss := if at1 f 0x0C = 1 then {} else
    let old := wholeSubtree run root
    { run with
      units := run.units.filter fun u => !old.contains u.uid && !mine.contains u.uid
      thatches := run.thatches.filter fun x => !old.contains x.1
      binds := run.binds.filter fun b => !old.contains b.uid
      steers := run.steers.filter fun x => !old.contains x.uid }
  let t := rs.foldl addRec base
  -- the units of a patch take the place of the old subtree in truss order
  let t := if at1 f 0x0C = 1 then t else
    let fresh := t.units.filter fun u => mine.contains u.uid
    if run.units.any fun u => u.uid == root then
      { t with units := (run.units.flatMap fun u =>
          if u.uid = root then fresh else if base.units.any (fun x => x.uid == u.uid) then [u] else []) }
    else t
  { t with seq := at4 f 0x10, name := (f.drop 0x20).take 16, build := at4 f 0x30 }

/-- The first UNIT-like record of the image whose unit fails a test on the new structure. -/
def badUnit (code : Nat) (rs : List Rec) (t : Truss) (bad : UnitRec → Bool) : Option (Nat × Nat) :=
  badRec code (rs.filter fun r => r.2.1 == 1) fun r => (t.units.find? fun u => u.uid == at2 r.2.2 0).any bad

/-- Step 15: every reference names something defined. -/
def checkRefs (t : Truss) (rs : List Rec) : Option (Nat × Nat) :=
  let uids := (allUnits t).map (·.1)
  let speedRefs := fun (e : List SpeedEntry) => e.all fun x => x.coefSet == 0xFF || t.bridles.any fun y => y.1 == x.coefSet
  badRec 0x10 rs fun r =>
    let v := r.2.2
    let b := at1 v
    match r.2.1 with
    | 1 =>
      !((b 4 != 3 || t.templates.any fun x => x.tid == b 8) && (b 7 == 0xFF || t.regions.any fun x => x.rid == b 7) &&
        (b 5 == 0xF || t.powers.any fun x => x.pid == b 5) && (at2 v 2 == 0xFFF || t.units.any fun x => x.uid == at2 v 2))
    | 2 => !((t.speeds.any fun x => x.1 == b 5) && (b 6 == 0xFF || t.bands.any fun x => x.1 == b 6))
    | 4 => !(t.units.any fun x => x.uid == at2 v 0 && x.kind == 4)
    | 5 => !uids.contains (at2 v 2)
    | 6 => !(t.binds.any fun x => x.uid == at2 v 6)
    | 8 => !((t.speeds.find? fun x => x.1 == b 0).any fun x => speedRefs x.2)
    | _ => false

/-- Depth of a unit of a structure; `n` bounds the walk. -/
def recDepth (t : Truss) : Nat → Nat → Nat
  | 0, _ => 16
  | n + 1, u =>
    match t.units.find? fun x => x.uid == u with
    | some r => if r.parent = 0xFFF then 0 else recDepth t n r.parent + 1
    | none => 16

/-- Step 16: the tree rules of R23 to R25. -/
def checkTree (t : Truss) (rs : List Rec) : Option (Nat × Nat) :=
  let kids := fun u => t.units.filter fun x => x.parent == u
  let before := fun (u : UnitRec) => (t.units.takeWhile fun x => x.uid != u.uid).any fun x => x.uid == u.parent
  match badUnit 0x11 rs t fun u =>
      !(u.uid == 0 && u.kind == 5 && u.parent == 0xFFF || u.uid != 0 && u.parent != 0xFFF && before u) ||
      (u.uid != 0 && !((t.units.find? fun x => x.uid == u.parent).any fun x => x.kind == 4 || x.kind == 5)) ||
      (u.kind == 4 && !(decide (3 ≤ (kids u.uid).length ∧ (kids u.uid).length ≤ 32))) ||
      (u.kind == 4 && !(t.thatches.any fun x => x.1 == u.uid)) ||
      (u.kind == 5 && (kids u.uid).isEmpty) ||
      decide (15 < recDepth t 16 u.uid + (if u.kind = 3 then 3 else 0)) with
  | some x => some x
  | none => if t.units.any fun u => u.uid == 0 then none else some (0x11, 0xFFFF)

/-- Step 17: generated IDs are at most 0xFFE and no other unit of the image has them. An ID of a patch that is in use outside
its subtree is a matter of step 22 (R57). -/
def checkIds (t : Truss) (rs : List Rec) : Option (Nat × Nat) :=
  let mine := (rs.filter fun r => r.2.1 == 1).map fun r => at2 r.2.2 0
  let ids := (allUnits { t with units := t.units.filter fun u => mine.contains u.uid }).map (·.1)
  badUnit 0x12 rs t fun u =>
    (recGenerated t u).any fun g => decide (0xFFE < g.1) || decide (1 < ids.count g.1)

/-- Zone size of a unit of a structure in MiB: COURSE_W × 256, or n × the member's (R224, R225); `n` bounds the nesting. -/
def recZsize (t : Truss) : Nat → Nat → Nat
  | 0, _ => 0
  | n + 1, u =>
    match t.units.find? fun x => x.uid == u with
    | some r =>
      if r.kind = 3 then ((recTemplate t r).map fun m => m.courseW * 256).getD 0
      else if r.kind = 4 then
        let ks := t.units.filter fun x => x.parent == u
        (ks.length - tabGet 0 t.thatches u) * recZsize t n ((ks.head?.map (·.uid)).getD 0xFFF)
      else 0
    | none =>
      match t.units.find? fun x => (recGenerated t x).any fun g => g.1 == u with
      | some r => ((recTemplate t r).map fun m => m.courseW * 256).getD 0
      | none => 0

/-- MECH records a unit spans. -/
def recMechs (t : Truss) (u : Nat) : List UnitRec :=
  let sub := recSubtree t u
  let inside := t.units.filter fun x => x.kind == 3 && sub.contains x.uid
  if inside ≠ [] then inside else t.units.filter fun x => (recGenerated t x).any fun g => g.1 == u

/-- Eave space in MiB left for conventional media on the unit of a binding (R236): 2 GiB a surface, less the journal ring
and 1 GiB of staging log an actuator. -/
def convSpace (t : Truss) (u : Nat) : Nat :=
  let kind := (((allUnits t).find? fun x => x.1 == u).map fun x => x.2.2).getD 0
  sumN ((recMechs t u).map fun r =>
    match recTemplate t r with
    | none => 0
    | some m =>
      let g := genIds r.childBase m
      if kind = 3 ∨ kind = 4 ∨ kind = 5 then m.actuators * (m.heads * 2048 - 1024) - 256
      else
        let k := ((rangeFrom 0 g.length).find? fun k => ((g[k]?).map fun a =>
          a.1 == u || a.2.any fun c => c.1 == u || c.2.contains u).getD false).getD 0
        let heads := ((g[k]?).map fun a =>
          if a.1 = u then m.heads else ((a.2.find? fun c => c.1 == u || c.2.contains u).map fun c =>
            if c.1 = u then c.2.length else 1).getD 0).getD 0
        heads * 2048 - 1024 - (if k = 0 then 256 else 0))

/-- Copies of a granule of a conventional namespace (R236). -/
def convCopies (t : Truss) (u : Nat) : Nat :=
  match t.units.find? fun x => x.uid == u with
  | some r => if r.kind = 4 then tabGet 0 t.thatches u + 1 else 2
  | none => 2

/-- A THATCH unit breaks step 18: members of two kinds or zone sizes, or fewer than two data members. -/
def badThatch (t : Truss) (u : UnitRec) : Bool :=
  u.kind == 4 &&
    let ks := t.units.filter fun x => x.parent == u.uid
    let m := tabGet 0 t.thatches u.uid
    !(((ks.all fun x => x.kind == 3) || (ks.all fun x => x.kind == 4)) && decide (m + 2 ≤ ks.length) &&
      ks.all fun x => recZsize t 16 x.uid == recZsize t 16 ((ks.head?.map (·.uid)).getD 0))

/-- The first UNIT record of an image: of a patch, where a unit or namespace outside it is at fault (log entry 42). -/
def firstUnitRec (rs : List Rec) : Nat := ((rs.find? fun r => r.2.1 == 1).map (·.1)).getD 0xFFFF

/-- Step 18: thatch geometry, of every THATCH of the new structure, and that conventional media fit (R236). -/
def checkGeometry (t : Truss) (rs : List Rec) : Option (Nat × Nat) :=
  match badUnit 0x13 rs t (badThatch t) <|> (if t.units.any (badThatch t) then some (0x13, firstUnitRec rs) else none) with
  | some x => some x
  | none =>
    badRec 0x13 (rs.filter fun r => r.2.1 == 5) fun r =>
      at1 r.2.2 1 == 1 && decide (convSpace t (at2 r.2.2 2) < convCopies t (at2 r.2.2 2) * at4 r.2.2 8)

/-- A unit and the units above it in a structure; `n` bounds the walk. -/
def recPath (us : List (Nat × Nat × Nat)) : Nat → Nat → List Nat
  | 0, _ => []
  | n + 1, u =>
    match us.find? fun x => x.1 == u with
    | some x => u :: recPath us n x.2.1
    | none => []

/-- Step 19: R27, distinct NSIDs, disjoint STEER ranges of a port. -/
def checkBinding (t : Truss) (rs : List Rec) : Option (Nat × Nat) :=
  let us := allUnits t
  let nested := fun a b => (recPath us 16 a).contains b || (recPath us 16 b).contains a
  match badRec 0x14 (rs.filter fun r => r.2.1 == 5) fun r =>
      let u := at2 r.2.2 2
      let n := at1 r.2.2 0
      (us.find? fun x => x.1 == u).any (fun x => x.2.2 == 5) || decide (1 < (t.binds.filter fun b => b.nsid == n).length) ||
      (t.binds.filter fun b => nested u b.uid).length != 1 || decide (64 < t.binds.length) with
  | some x => some x
  | none =>
    badRec 0x14 (rs.filter fun r => r.2.1 == 6) fun r =>
      let v := r.2.2
      (t.steers.filter fun x => x.port == at1 v 0 && decide (x.first ≤ at2 v 4) && decide (at2 v 2 ≤ x.last)).length != 1

/-- LBAs of a unit of a structure with each mechanism at its template's CAP_MIN_GB (step 20); `n` bounds the nesting. -/
def recLbas (t : Truss) : Nat → Nat → Nat
  | 0, _ => 0
  | n + 1, u =>
    match t.units.find? fun x => x.uid == u with
    | some r =>
      if r.kind = 3 then ((recTemplate t r).map fun m => m.capMinGb * 1000000000 / 4096).getD 0
      else
        let ks := t.units.filter fun x => x.parent == u
        sumN ((ks.take (ks.length - tabGet 0 t.thatches u)).map fun x => recLbas t n x.uid)
    | none =>
      match t.units.find? fun x => (recGenerated t x).any fun g => g.1 == u with
      | some r => ((recTemplate t r).map fun m => m.capMinGb * 1000000000 / 4096 / max 1 m.actuators).getD 0
      | none => 0

/-- Step 20: no namespace of the new structure larger than 2^40 LBAs. -/
def checkCapacity (t : Truss) (rs : List Rec) : Option (Nat × Nat) :=
  badRec 0x15 (rs.filter fun r => r.2.1 == 5) (fun r =>
    decide (2 ^ 40 < (if at1 r.2.2 1 = 0 then recLbas t 16 (at2 r.2.2 2) else at4 r.2.2 8 * 256))) <|>
  (if t.binds.any fun b => b.nstype == 0 && decide (2 ^ 40 < recLbas t 16 b.uid) then some (0x15, firstUnitRec rs) else none)

/-- Step 21: microcode ranges and overlaps (R373, R50). -/
def checkUcode (t : Truss) (rs : List Rec) : Option (Nat × Nat) :=
  let overlap := fun (x y : UcodePatch) => x.patchAddr < y.patchAddr + y.words.length ∧ y.patchAddr < x.patchAddr + x.words.length
  badRec 0x17 (rs.filter fun r => r.2.1 == 0xB) fun r =>
    let v := r.2.2
    let x : UcodePatch := ⟨at1 v 0, at1 v 1, at2 v 2, at2 v 4, (groups4 (v.drop 8)).map leNat⟩
    let f := x.target == 0
    let others := (t.ucode.filter fun y => y.target == x.target).erase x
    let ops := x.words.map fun w => w / 2 ^ 16
    !(decide (x.mtch < (if f then 16 else 32)) || x.mtch == 0xFF && x.romAddr == 0xFFFF) ||
    (x.mtch != 0xFF && decide ((if f then 0x4000 else 0x8000) ≤ x.romAddr)) ||
    x.words.isEmpty || decide (x.patchAddr < 0x8000) ||
    decide ((if f then 0x8400 else 0x8800) < x.patchAddr + x.words.length) ||
    ops.any (fun o => o == 0xF || f && (o == 0xC || o == 0xE)) ||
    others.any fun y => (y.mtch == x.mtch && x.mtch != 0xFF) || (y.romAddr == x.romAddr && x.mtch != 0xFF) || decide (overlap x y)

/-- The shared records of a structure under the name spaces of step 14, as data to compare. -/
def sharedOf (t : Truss) (k id : Nat) : List Nat :=
  match k with
  | 2 => (t.templates.filter fun x => x.tid == id).flatMap fun x =>
      [x.actuators, x.heads, x.courseW, x.assist, x.speedTbl, x.bandTbl, x.model, x.modelMask, x.capMinGb, x.feFwMin]
  | 3 => (t.regions.filter fun x => x.rid == id).flatMap fun x => [x.code, x.tp]
  | 7 => (t.powers.filter fun x => x.pid == id).flatMap fun x => [x.pflags, x.idleS, x.minStep, x.maxStep, x.maxSpinup]
  | 8 => (t.speeds.filter fun x => x.1 == id).flatMap fun x => x.2.flatMap fun e => [e.rpm, e.coefSet, b2n e.writeOk]
  | 9 => (t.bands.filter fun x => x.1 == id).flatMap fun x => x.2.flatMap fun e => [e.startFrac, e.rate]
  | 0xA => (t.bridles.filter fun x => 8 * x.1 + x.2.1 == id).flatMap fun x => x.2.2
  | _ => []

/-- A unit outside `sub` uses the shared record `id` of name space `k`; a root that inherits uses region 0 and policy 0 (R35,
R50). -/
def usedOutside (t : Truss) (sub : List Nat) (k id : Nat) : Bool :=
  (t.units.filter fun u => !sub.contains u.uid).any fun u =>
    let m := recTemplate t u
    let sp := (m.bind fun m => t.speeds.find? fun x => x.1 == m.speedTbl)
    match k with
    | 2 => u.kind == 3 && u.template == id
    | 3 => u.region == id || u.uid == 0 && u.region == 0xFF && id == 0
    | 7 => u.policy == id || u.uid == 0 && u.policy == 0xF && id == 0
    | 8 => m.any fun m => m.speedTbl == id
    | 9 => m.any fun m => m.bandTbl == id
    | 0xA => sp.any fun x => x.2.any fun e => e.coefSet == id / 8
    | _ => false

/-- A unit outside a patched subtree has policy `id` written to it (R35, R39). -/
def policyOutside (s : State) (outside : List Nat) (id : Nat) : Bool :=
  outside.any fun u =>
    let p := fget s (TRS_UNIT_FACE u) TRS_UNIT_FACE_POLICY
    p == id || u == 0 && p == 0xF && id == 0

/-- Step 22: the rules of a patch (R57). DESIGN CHOICE: a breach of the rule of PATCH_ROOT's own record is 0x18 with WHERE
0xFFFF (log entry 42). -/
def checkPatch (s : State) (f : List Nat) (t : Truss) (rs : List Rec) : Option (Nat × Nat) :=
  let run := s.trs.run
  let root := at2 f 0x14
  let old := wholeSubtree run root
  let outside := ((allUnits run).map (·.1)).filter fun u => !old.contains u
  let mine := (rs.filter fun r => r.2.1 == 1).map fun r => at2 r.2.2 0
  let inNew := recSubtree t root
  let fresh := wholeSubtree t root
  let rootOk := (run.units.find? fun u => u.uid == root).any fun o =>
    (t.units.find? fun u => u.uid == root).any fun n => mine.contains root && n.parent == o.parent && n.kind == o.kind
  match badRec 0x18 rs fun r => [0xB, 0xC, 0xD].contains r.2.1 with
  | some x => some x
  | none =>
    if !rootOk then some (0x18, 0xFFFF)
    else match badRec 0x18 (rs.filter fun r => r.2.1 == 1) fun r => !inNew.contains (at2 r.2.2 0) with
    | some x => some x
    | none =>
      match badRec 0x19 rs fun r =>
          let v := r.2.2
          match r.2.1 with
          | 1 =>
            outside.contains (at2 v 0) ||
            ((t.units.find? fun u => u.uid == at2 v 0).any fun u => (recGenerated t u).any fun g => outside.contains g.1) ||
            (at1 v 4 == 3 && run.units.any fun u => u.kind == 3 && u.loc == at1 v 6 && !old.contains u.uid)
          | 4 => outside.contains (at2 v 0) && tabGet 0 run.thatches (at2 v 0) != at1 v 2
          | _ => (definedIds r).any fun x =>
              (usedOutside run old x.1 x.2 || x.1 == 7 && policyOutside s outside x.2) && sharedOf run x.1 x.2 != [] && sharedOf run x.1 x.2 != sharedOf t x.1 x.2 with
      | some x => some x
      | none =>
        if (run.binds.filter fun b => old.contains b.uid).all fun b =>
            (t.binds.find? fun n => n.nsid == b.nsid).any fun n => fresh.contains n.uid &&
              recZsize t 16 n.uid == recZsize run 16 b.uid && decide (recLbas run 16 b.uid ≤ recLbas t 16 n.uid) &&
              n.nstype == b.nstype && decide (b.convMib ≤ n.convMib)
        then none else some (0x19, 0xFFFF)

/-- Steps 1 to 22 of Table 2-4 on a file of `len` bytes: a refusal, or the new structure (R52). -/
def checkImage (s : State) (f : List Nat) (len : Nat) (kinds : List Nat) : (Nat × Nat) ⊕ Truss :=
  match checkHeader f len kinds <|> checkKey s f with
  | some x => .inl x
  | none =>
    let img := at4 f 8
    let p := parseRecs 65536 0 ((f.take (img - 4)).drop 0x40)
    let rs := p.1.filter fun r => knownTypes.contains r.2.1
    let lastEnd := (p.1.getLast?.map fun r => r.2.1 == 0xFF).getD false
    let bounds : Option (Nat × Nat) :=
      if !p.2 then some (0x0B, p.1.length)
      else match badRec 0x0B p.1 (fun r => r.2.1 == 0xFF && decide (r.1 + 1 < p.1.length)) with
        | some x => some x
        | none => if !lastEnd || at2 f 0x16 != p.1.length then some (0x0B, 0xFFFF) else none
    let t := newTruss s.trs.run f rs
    match bounds <|> badRec 0x0C p.1 (fun r => decide (r.2.1 < 0x8000) && !knownTypes.contains r.2.1) <|>
        badRec 0x0D rs (fun r => !lenOk r) <|> badRec 0x0E rs (fun r => !fieldOk r) <|>
        (firstDup [] rs).map (fun i => (0x0F, i)) <|> checkRefs t rs <|> checkTree t rs <|> checkIds t rs <|>
        checkGeometry t rs <|> checkBinding t rs <|> checkCapacity t rs <|> checkUcode t rs <|>
        (if at1 f 0x0C = 2 then checkPatch s f t rs else none) with
    | some x => .inl x
    | none => .inr t

end Sys2Proof.Machine
end

