-- ==== Sys2Proof/Machine/TetherOps.lean ====
section
/-! DEFINITION. The tether port's operations (chapter 3): power domains, flits and their CRC, credits and sending, the TSB
queue, the write-inhibit word, and the port's state. -/
namespace Sys2Proof.Machine
open Sys2Proof

/-! ### Power domains (R329, R330) -/

/-- Domain `n` is blocked (R330). -/
def domBlocked (s : State) (n : Nat) : Bool := rbit s (PWR_DOM_BLOCK (n / 32)) (n % 32)

/-- Domain `n` failed to report power good; it is not requested again until device reset (R331). -/
def domFailed (s : State) (n : Nat) : Bool := rbit s (PWR_DOM_FAIL (n / 32)) (n % 32)

/-- One of the two crypto domains may be powered for an image check (R329 to R331). -/
def cryptoFree (s : State) : Bool := (rangeFrom 471 2).any fun n => !domBlocked s n && !domFailed s n

/-- A thatch engine's domain may be powered for a job (R329 to R331). -/
def engineFree (s : State) (t : Nat) : Bool := !domBlocked s (467 + t) && !domFailed s (467 + t)

/-- Ask for domain `n`: it comes on with DOMAIN_POWER_GOOD; a blocked one waits (R330), a failed one is not asked for
(R331). -/
def domRequest (s : State) (n : Nat) : State :=
  if domOn s n || s.pwr.wanted.contains n || domFailed s n then s else { s with pwr := { s.pwr with wanted := s.pwr.wanted ++ [n] } }

/-- Detector lanes or LDPC clusters the envelope allows on (Table 13-5): the first domain of the kind of domain `n`, how many
there are, and the limit. -/
def envLimit (s : State) (n : Nat) : Option (Nat × Nat × Nat) :=
  let e := fget s PWR_MODE PWR_MODE_ENV
  if 139 ≤ n ∧ n < 395 then some (139, 256, ([256, 128, 32, 0] : List Nat).getD e 0)
  else if 395 ≤ n ∧ n < 411 then some (395, 16, ([16, 10, 4, 0] : List Nat).getD e 0) else none

/-- The envelope holds a request for domain `n` back (R333). -/
def envHolds (s : State) (n : Nat) : Bool :=
  match envLimit s n with
  | some x => decide (x.2.2 ≤ ((rangeFrom x.1 x.2.1).filter (domOn s)).length)
  | none => false

/-- Give up domain `n`: it goes off unless it is held (R330). -/
def domRelease (s : State) (n : Nat) : State :=
  let s1 := { s with pwr := { s.pwr with wanted := s.pwr.wanted.filter (· != n) } }
  if rbit s (PWR_DOM_HOLD (n / 32)) (n % 32) && !domBlocked s n then s1
  else wbit (fseqOff s1 n) (PWR_DOM_STAT (n / 32)) (n % 32) false

/-- The PHY and link-layer domains of port `p` go off (Table 13-3). -/
def phyOff (s : State) (p : Nat) : State := domRelease (domRelease s (11 + p)) (43 + p)

/-- The PHY domain of port `p` is on, or comes on with training: the port's SB_ONLY is 0, PS4 is not in force, and the
domain has not failed (Table 13-3, Table 3-8). -/
def mayTrain (s : State) (p : Nat) : Bool :=
  !fbit s (TTH_CTRL p) TTH_CTRL_SB_ONLY && fget s HIF_PWR HIF_PWR_PS_EFF != 4 && !domFailed s (11 + p)

/-! ### Flits (R70, R71) -/

/-- The payload of a flit as its 240 bytes. -/
def flitPayload (f : Flit) : List Nat :=
  let b := (f.payload.map (·.toNat)).take (min 240 f.plen.toNat)
  b ++ List.replicate (240 - b.length) 0

/-- Header bytes 0 to 11 of a flit (Table 3-2). -/
def flitHeader (f : Flit) : List Nat :=
  [f.ftype.toNat * 16 + f.chan.toNat, f.flags.toNat] ++ leBytes 2 f.seq.toNat ++ leBytes 4 f.tstamp.toNat ++
  [f.plen.toNat, f.cred.toNat] ++ leBytes 2 f.epoch.toNat

/-- The flit's CRC holds and its PLEN is in range (R70, R71). -/
def flitGood (f : Flit) : Bool :=
  decide (f.plen.toNat ≤ 240) && f.crc.toNat == crc32c (flitHeader f ++ flitPayload f)

/-- The valid payload bytes (R71). -/
def flitBytes (f : Flit) : List Nat := (flitPayload f).take f.plen.toNat

/-! ### Ports -/

/-- A port's state beside its registers. -/
def tthOf (s : State) (p : Nat) : TthPort := tabGet {} s.tth p

/-- Change a port's state. -/
def setTth (s : State) (p : Nat) (f : TthPort → TthPort) : State := { s with tth := tabUpd {} s.tth p f }

/-- STATE of a port (Table 3-8). -/
def portState (s : State) (p : Nat) : Nat := fget s (TTH_LINK_STAT p) TTH_LINK_STAT_STATE

/-- The port's lanes carry flits: UP or PARTIAL. -/
def laneMode (s : State) (p : Nat) : Bool := portState s p == 5 || portState s p == 6

/-- Move a port to a state, TRAINED following it, with the STATE event at a change (Tables 3-8, 3-9). -/
def setPortState (s : State) (p st : Nat) : State :=
  if portState s p = st then s
  else
    let s1 := fset s (TTH_LINK_STAT p) TTH_LINK_STAT_STATE st
    evtSet (fsetb s1 (TTH_LINK_STAT p) TTH_LINK_STAT_TRAINED (st == 5 || st == 6)) (.tth p) TTH_EVT_STATE

/-- The token is this device's. -/
def tokenMine (s : State) (p : Nat) : Bool := fbit s (TTH_TOKEN p) TTH_TOKEN_MINE

/-- EPOCH of a port's token as last read. -/
def tokenEpoch (s : State) (p : Nat) : Nat := fget s (TTH_TOKEN p) TTH_TOKEN_EPOCH

/-- Count of set bits of a number of up to 32 bits. -/
def popCount (n : Nat) : Nat := sumN ((rangeFrom 0 32).map fun i => n / 2 ^ i % 2)

/-- UP_GOOD and DN_GOOD with HL_MAX, two head lanes for each good upstream lane (R73). -/
def setLanes (s : State) (p up : Nat) (dn : Bool) : State :=
  let s1 := fset (fsetb s (TTH_LINK_STAT p) TTH_LINK_STAT_DN_GOOD dn) (TTH_LINK_STAT p) TTH_LINK_STAT_UP_GOOD up
  fset s1 (TTH_LINK_STAT p) TTH_LINK_STAT_HL_MAX (2 * popCount up)

/-! ### Sending flits (R70) -/

/-- The next flit of a type that the device sends on port `p`, with its SEQ, the token epoch and its CRC (Table 3-2). -/
def mkFlit (s : State) (p ftype chan flags tstamp : Nat) (data : List Nat) : Flit :=
  let f : Flit :=
    { ftype := BitVec.ofNat 4 ftype, chan := BitVec.ofNat 4 chan, flags := BitVec.ofNat 8 flags
      seq := BitVec.ofNat 16 (tabGet 0 (tthOf s p).seqs ftype), tstamp := BitVec.ofNat 32 tstamp
      plen := BitVec.ofNat 8 data.length, cred := 0, epoch := BitVec.ofNat 16 (tokenEpoch s p), crc := 0
      payload := data.map (BitVec.ofNat 8) }
  { f with crc := BitVec.ofNat 32 (crc32c (flitHeader f ++ flitPayload f)) }

/-- Send a flit: SEQ of its type moves on. -/
def sendFlit (s : State) (p ftype chan flags tstamp : Nat) (data : List Nat) : State :=
  emit (setTth s p fun t => { t with seqs := tabUpd 0 t.seqs ftype fun n => (n + 1) % 65536 })
    (.flit p (mkFlit s p ftype chan flags tstamp data))

/-- A CMD entry as its 8 bytes (R72). -/
def entryBytes (e : CmdEntry) : List Nat := [e.cls % 256, e.index % 256, 0, 0] ++ leBytes 4 e.value

/-- The heartbeat flit with a count: payload byte 0 is the role code (Table 3-3). -/
def sendHb (s : State) (p count : Nat) : State := sendFlit s p 0xB 0 0 count [fget s PRT_STAT PRT_STAT_ROLE]

/-! ### Credits (R77) -/

/-- Credits held. -/
def avail (s : State) (p : Nat) : Nat := fget s (TTH_CREDIT p) TTH_CREDIT_AVAIL

/-- Send CMD flits that wait while credits last; `n` bounds the number. -/
def flushCmds : Nat → State → Nat → State
  | 0, s, _ => s
  | n + 1, s, p =>
    match (tthOf s p).waiting with
    | [] => s
    | e :: es =>
      if avail s p = 0 then s
      else
        let s1 := fset (setTth s p fun t => { t with waiting := es }) (TTH_CREDIT p) TTH_CREDIT_AVAIL (avail s p - 1)
        flushCmds n (sendFlit s1 p 9 0 0 0 (e.flatMap entryBytes)) p

/-- Send a CMD flit with entries; it waits for a credit while AVAIL is 0, and is not sent without lanes (R72, R77). -/
def sendCmd (s : State) (p : Nat) (entries : List CmdEntry) : State :=
  if laneMode s p then flushCmds 256 (setTth s p fun t => { t with waiting := t.waiting ++ [entries] }) p else s

/-- Send a WRITE flit that slice `a` has prepared, for a credit (R77). -/
def sendWrite (s : State) (a : Nat) (w : WFlit) : State :=
  let p := a / 2
  sendFlit (fset s (TTH_CREDIT p) TTH_CREDIT_AVAIL (avail s p - 1)) p 8 (4 * (a % 2) + w.lane) w.flags w.tstamp w.data

/-- The lanes of a mask. -/
def lanesOf (m : Nat) : List Nat := (rangeFrom 0 4).filter fun l => m / 2 ^ l % 2 = 1

/-- WRITE flits that wait go out while credits last (R77); `n` bounds the number. -/
def flushFlitsN : Nat → State → Nat → State
  | 0, s, _ => s
  | n + 1, s, f =>
    match (fseqOf s f).flitPend with
    | [] => s
    | w :: ws =>
      if !laneMode s (f / 2) ∨ avail s (f / 2) = 0 then s
      else flushFlitsN n (sendWrite (setFseq s f fun x => { x with flitPend := ws }) f w) f

/-- The WRITE flits of slice `f` that wait for credits go out (R77). -/
def flushFlits (s : State) (f : Nat) : State := flushFlitsN 64 s f

/-- WRITE or CMD flits of a port wait to be sent (R79). -/
def flitsWait (s : State) (p : Nat) : Bool :=
  !(tthOf s p).waiting.isEmpty || !(fseqOf s (2 * p)).flitPend.isEmpty || !(fseqOf s (2 * p + 1)).flitPend.isEmpty

/-- Credits come back: the difference of the CRED totals modulo 256 (R77). -/
def creditReturn (s : State) (p cred : Nat) : State :=
  let d := (cred + 256 - (tthOf s p).lastCred % 256) % 256
  let s1 := fset (setTth s p fun t => { t with lastCred := cred % 256 }) (TTH_CREDIT p) TTH_CREDIT_AVAIL
    (min (fget s (TTH_CREDIT p) TTH_CREDIT_LIMIT) (avail s p + d))
  flushFlits (flushFlits (flushCmds 256 s1 p) (2 * p)) (2 * p + 1)

/-- An upstream flit that is discarded: counted, with the CRC event (R70, R71, R81). -/
def flitDiscard (s : State) (p : Nat) : State :=
  evtSet (count s (TTH_CRC_ERR p) 1 (.tth p) TTH_EVT_SAT) (.tth p) TTH_EVT_CRC

/-- An upstream flit is taken: its CRC holds and its FTYPE is one of IDLE, SAMPLE, SERVO, TELEM (R70, R71). -/
def upTaken (f : Flit) : Bool := flitGood f && decide (f.ftype.toNat ≤ 3)

/-- A downstream flit of a type is taken by the front-end. -/
def flitTaken (f : Flit) (ty : Nat) : Bool := flitGood f && f.ftype.toNat == ty

/-! ### TSB (R87, R102) -/

/-- A request as its bytes: SYNC, CMD, ADDR, LEN, data, CRC-16 over what follows SYNC (R87). DESIGN CHOICE: ADDR and the
CRC go low byte first (log entry 43). -/
def tsbFrame (r : TsbReq) : List Nat :=
  let b := [r.cmd] ++ leBytes 2 r.addr ++ [r.len] ++ r.data
  [0x7E] ++ b ++ leBytes 2 (crc16 b)

/-- A response as its bytes: SYNC, STATUS, data, CRC-16 (R87). -/
def tsbAnswer (status : Nat) (data : List Nat) : List Nat := [0x7E, status] ++ data ++ leBytes 2 (crc16 (status :: data))

/-- Put a request on the bus, or behind those that wait. -/
def tsbSend (s : State) (p : Nat) (r : TsbReq) : State :=
  if (tthOf s p).tsb.isNone then
    emit (setTth s p fun t => { t with tsb := some r }) (.tsbReq p (tsbFrame r))
  else setTth s p fun t => { t with tsbQ := t.tsbQ ++ [r] }

/-- The next request that waits goes on the bus. -/
def tsbNext (s : State) (p : Nat) : State :=
  match (tthOf s p).tsbQ with
  | r :: q => emit (setTth s p fun t => { t with tsb := some r, tsbQ := q }) (.tsbReq p (tsbFrame r))
  | [] => setTth s p fun t => { t with tsb := none }

/-- A request of a purpose is on the bus or waits. -/
def tsbHas (s : State) (p purpose : Nat) : Bool :=
  (tthOf s p).tsb.any (fun r => r.purpose == purpose) || (tthOf s p).tsbQ.any fun r => r.purpose == purpose

/-- A READ of `len` bytes at `addr` for a purpose. -/
def tsbRead (s : State) (p purpose addr len : Nat) : State := tsbSend s p ⟨purpose, 1, addr, len, [], 0⟩

/-- A WRITE of bytes at `addr` for a purpose. -/
def tsbWrite (s : State) (p purpose addr : Nat) (data : List Nat) : State :=
  tsbSend s p ⟨purpose, 2, addr, data.length, data, 0⟩

/-- Begin reading the identity block (R90). -/
def identStart (s : State) (p : Nat) : State := tsbRead (setTth s p fun t => { t with identHalf := [] }) p 0 0 32

/-- Abort what is on the bus and what waits (Table 3-8). -/
def tsbAbort (s : State) (p : Nat) : State :=
  fsetb (setTth s p fun t => { t with tsb := none, tsbQ := [] }) (TTH_TSB_CMD p) TTH_TSB_CMD_GO false

/-- A token command of this device on a port: 1 ACQUIRE, 2 RELEASE, 3 HANDOFF (R93). -/
def tokenCmd (s : State) (p cmd : Nat) : State := tsbWrite s p (2 + cmd) 0x0200 [cmd]

/-- Write the watchdog time to the front-end (R96). -/
def wdogSend (s : State) (p : Nat) : State := tsbWrite s p 6 0x0210 (leBytes 2 (fget s (TTH_HB p) TTH_HB_WDOG_US))

/-- The sideband of a mechanism that has shown its identity can be used. -/
def sbUsable (s : State) (p : Nat) : Bool := decide (3 ≤ portState s p ∧ portState s p ≤ 7) && (tthOf s p).identOk

/-- HB_PER in 0.5 µs units for a watchdog time (R96). -/
def hbPer (us : Nat) : Nat := if us < 400 then us / 2 else 200

/-- WDOG_US is set, and sent to the front-end (R96); values out of range are ignored. -/
def setWdog (s : State) (p us : Nat) : State :=
  if 50 ≤ us ∧ us ≤ 10000 then
    let s1 := fset (fset s (TTH_HB p) TTH_HB_WDOG_US us) (TTH_HB p) TTH_HB_HB_PER (hbPer us)
    if sbUsable s1 p ∧ fget s (TTH_HB p) TTH_HB_WDOG_US ≠ us then wdogSend s1 p else s1
  else s

/-! ### The front-end on a port -/

/-- The front-end on a port. -/
def feOf (s : State) (p : Nat) : FrontEnd := tabGet {} s.fe p

/-- Change the front-end on a port. -/
def setFe (s : State) (p : Nat) (f : FrontEnd → FrontEnd) : State := { s with fe := tabUpd {} s.fe p f }

/-- The front-end port that is wired to this device (R93). -/
def feSide (s : State) (p : Nat) : Nat := fget s (TTH_TOKEN p) TTH_TOKEN_FE_PORT

/-- This device's port of the front-end is no longer in lane mode (R96). -/
def feLaneEnd (s : State) (p : Nat) : State :=
  setFe s p fun x => if feSide s p = 0 then { x with lane0 := false } else { x with lane1 := false }

/-! ### Write inhibit (R84) -/

/-- The WINH word of an inhibit mask (R84). -/
def winhWord (inh : Nat) : Nat :=
  0x800 + inh % 256 * 4 + popCount (inh / 16 % 16) % 2 * 2 + popCount (inh % 16) % 2

/-- The mask a port's words carry: MASK OR FORCE (R84). -/
def winhMask (s : State) (p : Nat) : Nat :=
  fget s (TTH_WINH p) TTH_WINH_MASK ||| fget s (TTH_WINH p) TTH_WINH_FORCE

/-- Change MASK of a port; the next word carries it (R84). -/
def setWinhMask (s : State) (p m : Nat) : State :=
  let t := fset s (TTH_WINH p) TTH_WINH_MASK m
  if winhMask t p = winhMask s p then t else emit t (.winh p (winhWord (winhMask t p)))

end Sys2Proof.Machine
end

