-- ==== Sys2Proof/Machine/Layout.lean ====
section
/-! DEFINITION. What lies on the media (chapter 5): the rate band and code of a track, the places of sectors and wedges on it,
the tag and the information part of a sector, its bits as written and the WRITE flits that carry them, and track parity. Heads
are q = 12k + h of a port. -/
namespace Sys2Proof.Machine
open Sys2Proof

/-! ### Tracks (R132, R136, R137, R222) -/

/-- The tracks of a surface that its eave zone takes: all below this one. Conventional media and the journal lie there. -/
def eaveEnd (s : State) (p q : Nat) : Nat := eaveTracks (surfBands s p q) 524288 0

/-- The region of the mechanism on port `p`. -/
def portRegion (s : State) (p : Nat) : Option RegionRec :=
  s.trs.run.regions.find? fun r => r.rid == effRegion s ((mechUnit s p).getD 0)

/-- The code of a track's sectors: LIGHT in the eave zone, else the effective region's (R132). -/
def trackCode (s : State) (p q track : Nat) : Nat :=
  if track < eaveEnd s p q then 2 else ((portRegion s p).map (·.code)).getD 0

/-- The track parity sectors of a track (R137). -/
def trackTp (s : State) (p q track : Nat) : Nat :=
  if track < eaveEnd s p q then 0 else ((portRegion s p).map (·.tp)).getD 0

/-- Channel bits of a track's data space, D(b) (R137). -/
def trackBits (rate : Nat) : Nat := rate * 25000 / 3 - rate * 2048 / 5

/-- The data bit that wedge `k` lies before, by DESIGN CHOICE the wedges being spaced evenly and rounded down (log entry 43). -/
def wedgeBit (d k : Nat) : Nat := k * d / 640

/-- The wedges of a track up to a data bit, and the place of the next one. -/
def wedgesTo (d m : Nat) : Nat := ((rangeFrom 1 639).filter fun k => wedgeBit d k ≤ m).length
def nextWedge (d m : Nat) : Nat := wedgeBit d (wedgesTo d m + 1)

/-- How far a sync mark that would start at data bit `m` starts later because a wedge would fall in it (R136). -/
def markShift (d m : Nat) : Nat := if nextWedge d m < m + 40 then nextWedge d m - m else 0

/-- The shifts of SM1 and SM2 of a sector that starts at data bit `m`. -/
def sectorShifts (d m : Nat) : Nat × Nat :=
  let s1 := markShift d (m + 1536)
  (s1, markShift d (m + 1536 + s1 + 16424))

/-- Bits of a sector with its shifts, preamble to postamble (R130, R136). -/
def sectorSpan (c d m : Nat) : Nat := sectorBits c + (sectorShifts d m).1 + (sectorShifts d m).2

/-- The data bit at which sector position `pos` of a track starts; 96 bits of splice follow each sector. -/
def sectorAt (c d : Nat) : Nat → Nat
  | 0 => 0
  | pos + 1 => sectorAt c d pos + sectorSpan c d (sectorAt c d pos) + 96

/-- A sector spans, at most, what R105 allows. -/
def sectorMost : Nat := 39718

/-! ### The tag and the information part (R131, R134) -/

/-- What a tag holds (Table 5-3). -/
structure SecTag where
  lba : Nat
  nsid : Nat
  kind : Nat
  zone : Nat
  wseq : Nat
  aux : Nat
  tagv : Nat
  code : Nat
  deriving DecidableEq, Repr

/-- Tag bytes 0 to 27. -/
def tagHead (t : SecTag) : List Nat :=
  leBytes 6 t.lba ++ [t.nsid % 256, t.kind % 256] ++ leBytes 4 t.zone ++ leBytes 8 t.wseq ++ leBytes 4 t.aux ++
  [t.tagv % 256, t.code % 256, 0, 0]

/-- The information part of a sector: 4,096 user bytes, the tag, and its CRC over both. -/
def infoPart (user : List Nat) (t : SecTag) : List Nat :=
  let b := user ++ tagHead t
  b ++ leBytes 4 (crc32c b)

/-- The tag of an information part. -/
def infoTag (i : List Nat) : SecTag :=
  let f := fun o n => leNat ((i.drop (4096 + o)).take n)
  ⟨f 0 6, f 6 1, f 7 1, f 8 4, f 12 8, f 20 4, f 24 1, f 25 1⟩

/-- Its CRC holds. -/
def infoCrc (i : List Nat) : Bool := leNat ((i.drop 4124).take 4) == crc32c (i.take 4124)

/-- Its user bytes as the number the model keeps of an LBA. -/
def infoUser (i : List Nat) : Nat := leNat (i.take 4096)

/-- The zone of an LBA as a tag names it: within the namespace; 0 for the internal kinds of NSID 0, and in
a conventional namespace (log entry 48). -/
def tagZone (s : State) (nsid lba : Nat) : Nat := if nsid = 0 then 0 else zoneOf s nsid lba

/-! ### The bits as written (R130) -/

/-- `n` bits of the preamble pattern 0b1100, the first one 1. -/
def preBits (n : Nat) : List Nat := (rangeFrom 0 n).map fun i => if i % 4 < 2 then 1 else 0

/-- The fields of a sector in order, with the bits between a shifted mark's place and the wedge filled. -/
def sectorStream (c : Nat) (shifts : Nat × Nat) (info : List Nat) : List Nat :=
  let w := codeword c info
  preBits 1536 ++ preBits shifts.1 ++ sm1Bits ++ w.take 16384 ++ preBits shifts.2 ++ sm2Bits ++ w.drop 16384 ++ preBits 32

/-- WRITE flits of a sector's bits: 1,920 bits each, the last with the rest. -/
def flitCount (bits : Nat) : Nat := ceilDiv bits 1920

/-- The write-clock bit at which data bit `m` of a track is due, counted from the index through the wedges, each
W(b) = RATE × 0.64 bits (log entry 43). -/
def writeClock (rate m : Nat) : Nat := m + wedgesTo (trackBits rate) m * (rate * 16 / 25)

/-- WRITE flit `i` of the sector at position `pos`, with its bits as bytes, least significant first, SOB on the first flit and
EOB on the last (R70, R130). -/
def sectorFlit (rate c pos lane i : Nat) (info : List Nat) : WFlit :=
  let d := trackBits rate
  let m := sectorAt c d pos
  let bits := sectorStream c (sectorShifts d m) info
  let n := flitCount bits.length
  let part := (bits.drop (1920 * i)).take 1920
  { lane := lane, tstamp := writeClock rate (m + 1920 * i) % 2 ^ 32, flags := b2n (i == 0) + 2 * b2n (i + 1 == n)
    data := (chunks 8 (ceilDiv part.length 8) part).map bitsNat }

/-! ### Track parity (R138 to R140) -/

/-- Symbol `j` of an information part. -/
def infoSymbol (i : List Nat) (j : Nat) : Nat := leNat ((i.drop (2 * j)).take 2)

/-- What a data symbol of value 1 at position `pos` adds to the TP parity symbols of a column of S positions. -/
def unitParity (S tp pos : Nat) : List Nat :=
  rsParity gf16 tp (List.replicate pos 0 ++ [1] ++ List.replicate (S - tp - 1 - pos) 0)

/-- An accumulator with no sector added. -/
def emptyCols (tp : Nat) : List (List Nat) := List.replicate tp (List.replicate 2064 0)

/-- A data sector is added to an accumulator. -/
def addSector (S tp pos : Nat) (info : List Nat) (cols : List (List Nat)) : List (List Nat) :=
  (cols.zip (unitParity S tp pos)).map fun c =>
    ((rangeFrom 0 2064).zip c.1).map fun x => x.2 ^^^ gfMul gf16 c.2 (infoSymbol info x.1)

/-- The accumulator of the data sectors written on a track. -/
def colsOf (S tp : Nat) (secs : Tab (List Nat)) : List (List Nat) :=
  secs.foldl (fun c x => if x.1 < S - tp then addSector S tp x.1 x.2 c else c) (emptyCols tp)

/-- A parity column as the information part of its sector. -/
def colBytes (col : List Nat) : List Nat := col.flatMap (leBytes 2)

/-- The sectors of a track reconstructed from those read, by position: up to TP are missing, and with fewer the unused
syndromes must be zero (R140). -/
def trackRebuild (S tp : Nat) (read : Tab (List Nat)) : Option (Tab (List Nat)) :=
  let miss := (rangeFrom 0 S).filter fun i => !read.any fun x => x.1 == i
  if tp < miss.length then none
  else
    let cols := (rangeFrom 0 2064).map fun j =>
      rsCorrect gf16 miss.length ((rangeFrom 0 S).map fun i => infoSymbol (tabGet [] read i) j) miss
    if cols.all fun w => (rsSyndromes gf16 tp w).all (· == 0) then
      some (miss.map fun i => (i, cols.flatMap fun w => leBytes 2 (w.getD i 0)))
    else none

/-- The key of a surface track. -/
def trackKey (p q track : Nat) : Nat := (32 * p + q) * 2 ^ 24 + track

/-! ### Thatch parity (R240) -/

/-- c(j, i), the weight of data member `i` in parity member n + j. -/
def thatchCoef (j i : Nat) : Nat := gfInv gf8 (j ^^^ (0x20 + i))

/-- A row of bytes times an element, added to another. -/
def mulAdd (c : Nat) (x acc : List Nat) : List Nat :=
  (rangeFrom 0 (max x.length acc.length)).map fun i => acc.getD i 0 ^^^ gfMul gf8 c (x.getD i 0)

/-- A unit of data member `i` is added to the m parity units of its row. -/
def thatchAdd (m i : Nat) (unit : List Nat) (acc : List (List Nat)) : List (List Nat) :=
  (rangeFrom 0 m).map fun j => mulAdd (thatchCoef j i) unit (acc.getD j [])

/-- An equation over missing units: their weights, and the bytes they come to. -/
abbrev UnitEq := List Nat × List Nat

/-- An equation scaled, and another less a multiple of it. -/
def eqScale (c : Nat) (e : UnitEq) : UnitEq := (e.1.map (gfMul gf8 c), e.2.map (gfMul gf8 c))
def eqSub (c : Nat) (e f : UnitEq) : UnitEq :=
  ((rangeFrom 0 f.1.length).map fun i => f.1.getD i 0 ^^^ gfMul gf8 c (e.1.getD i 0), mulAdd c e.2 f.2)

/-- Gauss-Jordan elimination: from unknown `k` on, `n` of them; none when an unknown is not determined. -/
def solveUnits : Nat → Nat → List UnitEq → List UnitEq → Option (List UnitEq)
  | 0, _, done, _ => some done
  | n + 1, k, done, rest =>
    match rest.find? fun e => e.1.getD k 0 != 0 with
    | none => none
    | some e =>
      let p := eqScale (gfInv gf8 (e.1.getD k 0)) e
      let clear := fun f => eqSub (f.1.getD k 0) p f
      solveUnits n (k + 1) (done.map clear ++ [p]) ((rest.erase e).map clear)

/-- Data unit `d` of a row from the units known by member index, n data members first: the parity units give an equation each
over the data units that are missing (R240, R242). -/
def thatchSolve (n d : Nat) (known : Tab (List Nat)) : Option (List Nat) :=
  let has := fun i => known.any fun x => x.1 == i
  let miss := (rangeFrom 0 n).filter fun i => !has i
  let par := known.filter fun x => n ≤ x.1
  let eqs : List UnitEq := par.map fun x =>
    (miss.map (thatchCoef (x.1 - n)),
     (known.filter fun y => y.1 < n).foldl (fun acc y => mulAdd (thatchCoef (x.1 - n) y.1) y.2 acc) x.2)
  if has d then some (tabGet [] known d)
  else (solveUnits miss.length 0 [] eqs).bind fun l => (l[miss.idxOf d]?).map (·.2)

end Sys2Proof.Machine
end

