-- ==== Sys2Proof/Machine/Detect.lean ====
section
/-! DEFINITION. The detector lanes of the logic die (chapter 4): sample buffers and pins, power, what a lane's live context works
with, LLR slots, decode jobs and the retry contexts. Lane n is 4a + l. -/
namespace Sys2Proof.Machine
open Sys2Proof

/-- Change the detection state. -/
def setDet (s : State) (f : DetState → DetState) : State := { s with det := f s.det }

/-- The detector lane of port `p`'s head lane `chan` (R103). -/
def laneOf (p chan : Nat) : Nat := 4 * (2 * p + chan / 4) + chan % 4

/-- The SRAM bank that holds a lane's sample buffer (R103). -/
def laneBank (n : Nat) : Nat := n / 32

/-- The lane's power domain is on. -/
def laneOn (s : State) (n : Nat) : Bool := domOn s (139 + n)

/-- The lane is powered and restored. -/
def laneReady (s : State) (n : Nat) : Bool := bitOf (rd s (ACT_DET_PWR (n / 4))) (8 + n % 4)

/-- A retry runs in the lane's retry context. -/
def laneRetry (s : State) (n : Nat) : Bool := s.det.retries.any fun r => r.ctx == some n

/-- STATE of a lane follows its power, live stream and retry context (Table 4-5). -/
def laneSync (s : State) (n : Nat) : State :=
  let live := s.det.live.contains n
  let st := if s.det.downing.contains n then 6
    else if laneReady s n then (if live && laneRetry s n then 5 else if laneRetry s n then 4 else if live then 3 else 2)
    else if s.pwr.wanted.contains (139 + n) || laneOn s n then 1 else 0
  fset s (ACT_DL_STAT (n / 4) (n % 4)) ACT_DL_STAT_STATE st

/-- Domain 75 + a is wanted (Table 13-3): the mechanism is bound with its spindle not STOPPED, heads are loaded, or a
detector lane of the slice is on or comes on. -/
def sliceWanted (s : State) (a : Nat) : Bool :=
  (isBound s (a / 2) && fget s (SPN_STAT (a / 2)) SPN_STAT_STATE != 0) || headsLoaded s a ||
    (rangeFrom 0 4).any fun l => laneOn s (4 * a + l) || s.pwr.wanted.contains (139 + 4 * a + l)

/-- Domain 75 + a follows what wants it. -/
def sliceSync (s : State) (a : Nat) : State :=
  if sliceWanted s a then domRequest s (75 + a)
  else if domOn s (75 + a) || s.pwr.wanted.contains (75 + a) then domRelease s (75 + a) else s

/-! ### Pins (R104, R106) -/

/-- The register of pin `i` of lane `n`. -/
def pinReg (n i : Nat) : Nat := ACT_DL_PIN (n / 4) (n % 4) i

/-- Pin `i` of lane `n` is held. -/
def pinHeld (s : State) (n i : Nat) : Bool := fbit s (pinReg n i) ACT_DL_PIN_VALID

/-- Length of a held pin in 8-byte units, 0 for none. -/
def pinLen (s : State) (n i : Nat) : Nat := if pinHeld s n i then fget s (pinReg n i) ACT_DL_PIN_LEN else 0

/-- Units the lane's pins hold. -/
def pinTotal (s : State) (n : Nat) : Nat := pinLen s n 0 + pinLen s n 1

/-- The units pins of the lane may hold (R104). -/
def pinLimit (s : State) (n : Nat) : Nat := if s.det.live.contains n then 4096 else 8192

/-- PINNED of the lane's status, in KiB. DESIGN CHOICE: rounded up (log entry 46). -/
def pinSync (s : State) (n : Nat) : State :=
  fset s (ACT_DL_STAT (n / 4) (n % 4)) ACT_DL_STAT_PINNED (ceilDiv (pinTotal s n) 128)

/-- A pin of `len` units may be made as pin `i` of lane `n`. -/
def pinFits (s : State) (n i len : Nat) : Bool :=
  decide (len ≠ 0) && decide (pinTotal s n - pinLen s n i + len ≤ pinLimit s n)

/-- Make pin `i` of lane `n`. -/
def makePin (s : State) (n i start len : Nat) : State :=
  let s1 := fset (fset (fsetb s (pinReg n i) ACT_DL_PIN_VALID true) (pinReg n i) ACT_DL_PIN_START start) (pinReg n i)
    ACT_DL_PIN_LEN len
  pinSync (setDet s1 fun d =>
    { d with pins := (2 * n + i) :: d.pins.filter (· != 2 * n + i), pinSec := tabDel d.pinSec (2 * n + i) }) n

/-- The lane's lowest free pin. DESIGN CHOICE: the specification names no order (log entry 46). -/
def freePin (s : State) (n : Nat) : Option Nat := [0, 1].find? fun i => !pinHeld s n i

/-! ### The sample ring (R103, R104) -/

/-- What place `i` of a lane's ring holds: a six-bit sample, 64 erased with a flit, 65 lost with a lane. A place that nothing
has written reads as erased (DESIGN CHOICE, log entry 46). -/
def ringAt (s : State) (n i : Nat) : Nat := tabGet 64 s.det.ring (131072 * n + i % 87381)

/-- `len` places of a lane's ring from place `i` on. -/
def ringSpan (s : State) (n i len : Nat) : List Nat := (rangeFrom i len).map (ringAt s n)

/-- A place in the ring past the pins it lies in (R104); a pin covers START to START + LEN in units of 64 bits. -/
def pastPins (s : State) (n : Nat) : Nat → Nat → Nat
  | 0, i => i
  | k + 1, i =>
    let hit := (rangeFrom 0 2).find? fun j => pinHeld s n j &&
      let st := fget s (pinReg n j) ACT_DL_PIN_START
      (6 * i / 64 + 8192 - st) % 8192 < pinLen s n j
    match hit with
    | some j => pastPins s n k (ceilDiv ((fget s (pinReg n j) ACT_DL_PIN_START + pinLen s n j) % 8192 * 64) 6 % 87381)
    | none => i

/-- One value goes into a lane's ring at the place it writes next. -/
def putSample (n : Nat) (s : State) (v : Nat) : State :=
  let i := pastPins s n 4 (tabGet 0 s.det.ringPos n)
  setDet s fun d =>
    { d with ring := tabPut d.ring (131072 * n + i) v, ringPos := tabPut d.ringPos n ((i + 1) % 87381) }

/-- Values go into a lane's ring, wrapping around its pins. -/
def putSamples (s : State) (n : Nat) (l : List Nat) : State := forAll l s (putSample n)

/-- The samples of a line of a lane's buffer, at a byte offset in its 64 KiB, are erased (Table 11-5, R113). -/
def eraseLine (s : State) (n off : Nat) : State :=
  let i := off * 8 / 6
  setDet s fun d => { d with ring := (rangeFrom i ((off * 8 + 511) / 6 + 1 - i)).foldl (fun r k => tabPut r (131072 * n + k % 87381) 64) d.ring }

/-- Samples are written to SRAM (R285): an armed flip may fire on their line, and what it makes uncorrectable is erased. -/
def samplesStored (s : State) (n from_ : Nat) : State :=
  let off := from_ * 6 / 8 / 64 * 64
  let f := flipNow s 1 (laneBank n) (laneBank n) (some (laneBank n * 2 ^ 21 + n % 32 * 65536 + off))
  if f.2.1 = 2 then eraseLine f.1 n (f.2.2 % 65536) else f.1

/-- The 320 samples of a discarded SAMPLE flit are an erasure span (Table 3-5). -/
def skipSamples (s : State) (n : Nat) : State :=
  setDet (putSamples s n (List.replicate 320 64)) fun d =>
    { d with gapSeen := if d.gapSeen.contains n then d.gapSeen else n :: d.gapSeen
             stamp := d.stamp.map fun x => if x.1 = n then (n, (x.2 + 320) % 2 ^ 32) else x }

/-- A good SAMPLE flit of a lane (R103): its samples in the order of TSTAMP, one behind the samples already in the ring at its own
place among them; GAP without a discarded flit before it marks 320 samples erased (Table 4-2). -/
def takeSamples (s : State) (n tstamp : Nat) (gap : Bool) (l : List Nat) : State :=
  let s1 := if gap && !s.det.gapSeen.contains n then putSamples s n (List.replicate 320 64) else s
  let due := tabGet tstamp s1.det.stamp n
  let back := (due + 2 ^ 32 - tstamp) % 2 ^ 32
  if 0 < back ∧ back < 87381 then
    let i := tabGet 0 s1.det.ringPos n + 87381 - back
    setDet s1 fun d => { d with ring := ((rangeFrom i l.length).zip l).foldl (fun r x => tabPut r (131072 * n + x.1 % 87381) x.2) d.ring }
  else
    setDet (putSamples s1 n l) fun d =>
      { d with stamp := tabPut d.stamp n ((tstamp + l.length) % 2 ^ 32), gapSeen := d.gapSeen.filter (· != n) }

/-! ### What a lane works with (R109 to R113, R129) -/

/-- The taps, target index and noise predictors of an entry. -/
def entryTaps (s : State) (a h b : Nat) : List Int :=
  (rangeFrom 0 16).map fun n => sgn 10 (rdN s (ACT_TAPTAB a (tapEntry h b + n / 2)) / 65536 ^ (n % 2))
def entryTgt (s : State) (a h b : Nat) : Nat := byteOf (rd s (ACT_TAPTAB a (tapEntry h b + 10))) 0 % 8
def entryPred (s : State) (a h b : Nat) : List Int :=
  (rangeFrom 0 8).map fun i => sgn 8 (byteOf (rd s (ACT_TAPTAB a (tapEntry h b + 8 + i / 4))) (i % 4))

/-- The coefficients C0 to C4 of a slice's target (R111). -/
def targetOf (s : State) (a t : Nat) : List Int :=
  ((rangeFrom 0 4).map fun i => sgn 8 (byteOf (rd s (ACT_TGT_LO a t)) i)) ++ [sgn 8 (fget s (ACT_TGT_HI a t) ACT_TGT_HI_C4)]

/-- A lane's taps. -/
def laneTaps (s : State) (a l : Nat) : List Int := (rangeFrom 0 16).map fun n => sgn 10 (fget s (ACT_DL_TAP a l n) ACT_DL_TAP_VALUE)

/-- Set them. -/
def setTaps (s : State) (a l : Nat) (ts : List Int) : State :=
  forAll (rangeFrom 0 16) s fun s n => fset s (ACT_DL_TAP a l n) ACT_DL_TAP_VALUE (unsgn 10 (ts.getD n 0))

/-- RATIO as a read start loads it: the sample rate, RATIO × channel rate, stays at 7.2 GS/s or less (R109, log entry 46). -/
def ratioFor (s : State) (n rate : Nat) : Nat :=
  let r := fget s (ACT_DL_RATIO (n / 4) (n % 4)) ACT_DL_RATIO_RATIO
  if rate = 0 then r else min r (7200 * 2 ^ 20 / rate)

/-- A lane restores its taps, target and predictors from the entry of CTRL's head and band (R110, R124). -/
def restoreLane (s : State) (n rate : Nat) : State :=
  let a := n / 4
  let l := n % 4
  let h := fget s (ACT_DL_CTRL a l) ACT_DL_CTRL_HEAD
  let b := fget s (ACT_DL_CTRL a l) ACT_DL_CTRL_BAND
  let u : LaneUse :=
    { head := h, band := b, ratio := ratioFor s n rate, tgt := targetOf s a (fget s (ACT_DL_CTRL a l) ACT_DL_CTRL_TGT)
      pred := entryPred s a h b }
  setDet (setTaps s a l (entryTaps s a h b)) fun d => { d with use := tabPut d.use n u }

/-- A read of a head and track starts on a lane (R109 to R111): under AUTO the formatter loads HEAD, BAND and TGT; the lane
restores from the entry they name. -/
def readOpen (s : State) (n head track : Nat) : State :=
  let a := n / 4
  let l := n % 4
  let x := bandAt s (n / 8) (12 * (a % 2) + head) track
  let s1 := if bitOf (rd s (ACT_DET_PWR a)) (4 + l) then
      fset (fset (fset s (ACT_DL_CTRL a l) ACT_DL_CTRL_HEAD head) (ACT_DL_CTRL a l) ACT_DL_CTRL_BAND x.1)
        (ACT_DL_CTRL a l) ACT_DL_CTRL_TGT (entryTgt s a head x.1)
    else s
  restoreLane s1 n x.2.1

/-- The end of a read (R110): with SAVE the adapted taps go back to the entry when the error is below the stored one. -/
def readClose (s : State) (n : Nat) : State :=
  let a := n / 4
  let l := n % 4
  let u := tabGet {} s.det.use n
  let e := tapEntry u.head u.band
  let s1 := setDet s fun d => { d with use := tabPut d.use n { u with mse := none } }
  match u.mse with
  | none => s1
  | some m =>
    if fbit s1 (ACT_DL_CTRL a l) ACT_DL_CTRL_SAVE ∧ m < rdN s1 (ACT_TAPTAB a (e + 11)) then
      wrN (forAll (rangeFrom 0 8) s1 fun s k =>
        wrN s (ACT_TAPTAB a (e + k)) (fget s (ACT_DL_TAP a l (2 * k)) ACT_DL_TAP_VALUE +
          65536 * fget s (ACT_DL_TAP a l (2 * k + 1)) ACT_DL_TAP_VALUE)) (ACT_TAPTAB a (e + 11)) (m % 2 ^ 32)
    else s1

/-- The settings of a detection on lane `n`: its loop gains, equaliser step, defect enables and thresholds, with the RATIO, taps,
target and predictors given (R109 to R113). -/
def detSettings (s : State) (n head ratio : Nat) (taps tgt pred : List Int) (adapt : Bool) (phase : Nat) : DetSet :=
  let a := n / 4
  let l := n % 4
  let en := fget s (ACT_DL_CTRL a l) ACT_DL_CTRL_DEF_EN
  { ratio := ratio, kp := fget s (ACT_DL_TLOOP a l) ACT_DL_TLOOP_KP, ki := fget s (ACT_DL_TLOOP a l) ACT_DL_TLOOP_KI
    mu := fget s (ACT_DL_CTRL a l) ACT_DL_CTRL_MU, taps := taps, tgt := tgt, pred := pred
    adapt := adapt && fbit s (ACT_DL_CTRL a l) ACT_DL_CTRL_ADAPT
    taOn := decide (4 ≤ en), dropOn := decide (en / 2 % 2 = 1), baseOn := decide (en % 2 = 1)
    taThr := fget s (ACT_DL_DEF_THR a l) ACT_DL_DEF_THR_TA_THR, dropThr := fget s (ACT_DL_DEF_THR a l) ACT_DL_DEF_THR_DROP_THR
    baseThr := fget s (ACT_DL_DEF_THR a l) ACT_DL_DEF_THR_BASE_THR, guard := fget s (ACT_DL_DEF_THR a l) ACT_DL_DEF_THR_GUARD
    env := Config.envelope (identSerial s (n / 8)) (12 * (a % 2) + head), phase := phase }

/-! ### Slots (R116) -/

/-- Lanes whose domain is on. -/
def poweredLanes (s : State) : List Nat := (rangeFrom 0 256).filter (laneOn s)

/-- SLOTS a lane holds. -/
def laneSlots (s : State) (n : Nat) : Nat := fget s (ACT_DL_STAT (n / 4) (n % 4)) ACT_DL_STAT_SLOTS

/-- Shared slots that are free: those no powered lane has in reserve. -/
def sharedFree (s : State) : Nat :=
  fget s LDC_SLOTS LDC_SLOTS_FREE - ((poweredLanes s).filter fun n => laneSlots s n == 0).length

/-- A lane may take a slot. -/
def slotFree (s : State) (n : Nat) : Bool :=
  decide (0 < fget s LDC_SLOTS LDC_SLOTS_FREE) &&
    (laneSlots s n == 0 || decide (laneSlots s n < 4) && decide (0 < sharedFree s))

/-- Take a slot: FREE falls, LOW with it. -/
def takeSlot (s : State) (n : Nat) : State :=
  let f := fget s LDC_SLOTS LDC_SLOTS_FREE - 1
  let s1 := fset (fset s LDC_SLOTS LDC_SLOTS_FREE f) LDC_SLOTS LDC_SLOTS_LOW (min f (fget s LDC_SLOTS LDC_SLOTS_LOW))
  fset s1 (ACT_DL_STAT (n / 4) (n % 4)) ACT_DL_STAT_SLOTS (laneSlots s n + 1)

/-- Free a slot of a lane. -/
def giveSlot (s : State) (n : Nat) : State :=
  fset (fset s LDC_SLOTS LDC_SLOTS_FREE (min 512 (fget s LDC_SLOTS LDC_SLOTS_FREE + 1))) (ACT_DL_STAT (n / 4) (n % 4))
    ACT_DL_STAT_SLOTS (laneSlots s n - 1)

/-- The key of the LLRs of a sector, or of a retry by register of a lane (sector 0). -/
def llrKey (sec lane : Nat) : Nat := if sec = 0 then 2 ^ 32 + lane else sec

/-- The LLRs of a line of a slot, at a byte offset in it, are read as 0 (Table 11-5); a slot holds its 5-bit LLRs one behind the
other (DEDUCED, log entry 51). -/
def zeroLlrs (s : State) (key off : Nat) : State :=
  let i := off * 8 / 5
  let j := (off * 8 + 511) / 5
  let l := tabGet [] s.det.llrs key
  setDet s fun d => { d with llrs := tabPut d.llrs key (l.zipIdx.map fun x => if i ≤ x.2 ∧ x.2 ≤ j then 0 else x.1) }

/-- LLRs go into the slot of a sector or of a lane's register retry; an armed flip may fire on one of the lines. -/
def putLlrs (s : State) (sec lane : Nat) (l : List Int) : State :=
  let s1 := setDet s fun d => { d with llrs := tabPut d.llrs (llrKey sec lane) l }
  let f := flipNow s1 1 8 15 none
  if f.2.1 = 2 then zeroLlrs f.1 (llrKey sec lane) (f.2.2 % 32768) else f.1

/-- They are gone. -/
def dropLlrs (s : State) (sec lane : Nat) : State := setDet s fun d => { d with llrs := tabDel d.llrs (llrKey sec lane) }

/-! ### Jobs (R117, R120) -/

/-- Cluster `c` is enabled. -/
def clusterEn (s : State) (c : Nat) : Bool := fbit s (LDC_CTRL c) LDC_CTRL_EN && !domFailed s (395 + c)

/-- Cluster `c` is powered. -/
def clusterOn (s : State) (c : Nat) : Bool := domOn s (395 + c)

/-- The jobs that wait for a cluster. -/
def waitingJobs (s : State) : List DecJob := s.det.jobs.filter fun j => j.run.isNone

/-- LDC_QUEUE shows the waiting jobs of each class (Table 4-7). -/
def queueSync (s : State) : State :=
  wrN s LDC_QUEUE (sumN ((rangeFrom 0 4).map fun k =>
    min 255 ((waitingJobs s).filter fun j => j.cls == k).length * 256 ^ k))

/-- The dispatcher powers up one more cluster while the jobs exceed four for each powered cluster (R120). -/
def clusterDemand (s : State) : State :=
  let on := (rangeFrom 0 16).filter (clusterOn s)
  if 4 * on.length < (waitingJobs s).length then
    match (rangeFrom 0 16).find? fun c => clusterEn s c && !clusterOn s c && !s.pwr.wanted.contains (395 + c) with
    | some c => domRequest s (395 + c)
    | none => s
  else s

/-- The list of jobs changes; LDC_QUEUE follows. -/
def setJobs (s : State) (f : List DecJob → List DecJob) : State := queueSync (setDet s fun d => { d with jobs := f d.jobs })

/-- A decode job begins to wait (R117). -/
def addJob (s : State) (age n cls what sec : Nat) : State :=
  clusterDemand (queueSync (setDet s fun d =>
    { d with jobs := d.jobs ++ [⟨d.next, age, n, cls, what, sec, none, []⟩], next := d.next + 1 }))

/-! ### Sectors -/

/-- A sector of which nothing but its place is known yet. -/
def blankSector (p : SecPlace) : Sector :=
  { id := 0, lane := p.lane, head := p.head, track := p.track, pos := p.pos, band := 0, code := 0, cls := 0, kind := 0, nsid := 0
    lba := 0, rmark := 0, dec := 1, start := 0, p1 := 1536, shift2 := 0, age := 0, joined := 0, tried := [], slot := false
    wantSlot := false, pin := none, ladder := none }

/-- Where a sector lies. -/
def secPlace (x : Sector) : SecPlace := ⟨x.lane, x.head, x.track, x.pos⟩

/-- The head q = 12k + h of its port that a sector lies under. -/
def sectorQ (x : Sector) : Nat := 12 * (x.lane / 4 % 2) + x.head

/-- Put back a sector. -/
def putSector (s : State) (x : Sector) : State :=
  setDet s fun d => { d with sectors := d.sectors.map fun y => if y.id = x.id then x else y }

/-- The sector with an ID. -/
def sectorOf (s : State) (id : Nat) : Option Sector := s.det.sectors.find? fun x => x.id == id

/-- Free the slot a sector holds, with its LLRs. -/
def dropSlot (s : State) (x : Sector) : State :=
  if x.slot then putSector (dropLlrs (giveSlot s x.lane) x.id x.lane) { x with slot := false, wantSlot := false }
  else putSector s { x with wantSlot := false }

/-- The samples that `bits` channel bits take at a RATIO. -/
def bitSamples (ratio bits : Nat) : Nat := ceilDiv (bits * ratio) (2 ^ 20)

/-- RATIO that a lane's samples were taken with. -/
def useRatio (s : State) (n : Nat) : Nat := (tabGet {} s.det.use n).ratio

/-- Bits of a sector, preamble to postamble, with its shifts. -/
def spanBits (x : Sector) : Nat := sectorBits x.code + (x.p1 - 1536) + x.shift2

/-- The pin that covers a sector's samples: its first unit and its length. -/
def sectorPin (s : State) (x : Sector) : Nat × Nat :=
  let first := x.start * 6 / 64
  (first % 8192, ceilDiv ((x.start + bitSamples (useRatio s x.lane) (spanBits x)) * 6) 64 - first)

/-- PIN_AUTO: pin the samples of a sector (R106, R116); not while the slice is claimed. -/
def autoPin (s : State) (x : Sector) : State :=
  let a := x.lane / 4
  let r := sectorPin s x
  if x.pin.isSome || !fbit s (ACT_DET_CFG a) ACT_DET_CFG_PIN_AUTO || claimed s (baseACT a) then s
  else match freePin s x.lane with
    | some i =>
      if pinFits s x.lane i r.2 then putSector (makePin s x.lane i r.1 r.2) { x with pin := some i } else s
    | none => s

/-! ### Retry contexts (R107, R121, R122) -/

/-- The lane whose retry context a retry on lane `n`'s pin may use now: the lane's own, else that of another ready lane of the slice
that has neither a live stream nor a retry. -/
def freeContext (s : State) (n : Nat) : Option Nat :=
  if laneReady s n && !laneRetry s n then some n
  else ((rangeFrom (n / 4 * 4) 4).filter (· != n)).find? fun m => laneReady s m && !s.det.live.contains m && !laneRetry s m

/-- A retry on lane `n`'s pin is asked for (R121): its descriptor, GO and BUSY; it waits for a context. -/
def retryBegin (s : State) (n sec pin word : Nat) (tbl : Bool) : State :=
  let a := n / 4
  let l := n % 4
  let s1 := wrN s (ACT_DL_RETRY a l) (2 ^ 31 + word % 2 ^ 25 / 256 * 256)
  setDet (fsetb s1 (ACT_DL_RETRY_STAT a l) ACT_DL_RETRY_STAT_BUSY true) fun d =>
    { d with retries := d.retries ++ [⟨n, sec, pin, word, tbl, none⟩] }

/-- The retry on lane `n`'s pin ends (R121): RESULT and ITER are written, BUSY falls, DONE is set; its context is free. -/
def retryClose (s : State) (n result iter : Nat) : State :=
  let a := n / 4
  let l := n % 4
  match s.det.retries.find? fun r => r.lane == n with
  | none => s
  | some r =>
    let s1 := fset (fset s (ACT_DL_RETRY_STAT a l) ACT_DL_RETRY_STAT_RESULT result) (ACT_DL_RETRY_STAT a l) ACT_DL_RETRY_STAT_ITER iter
    let s2 := fsetb (fsetb s1 (ACT_DL_RETRY_STAT a l) ACT_DL_RETRY_STAT_BUSY false) (ACT_DL_RETRY_STAT a l) ACT_DL_RETRY_STAT_DONE true
    let s3 := fsetb s2 (ACT_DL_RETRY a l) ACT_DL_RETRY_GO false
    let s4 := setDet s3 fun d => { d with retries := d.retries.filter fun x => x.lane != n }
    let s5 := if result = 0 then count s4 (ACT_DL_CNT a l 5) 1 (.det a) ACT_DET_EVT_SAT else s4
    laneSync (laneSync s5 (r.ctx.getD n)) n

/-- The job of a retry goes: a waiting one with its slot, a running one is left to its cluster (R104, R106). -/
def retryJobGone (s : State) (r : Retry) : State :=
  let mine := fun (j : DecJob) => decide (j.lane = r.lane) && decide (j.sec = r.sec) && (j.what == 1 || j.what == 2)
  if s.det.jobs.any fun j => mine j && j.run.isNone then
    let s1 := setJobs s fun l => l.filter fun j => !mine j
    match if r.sec = 0 then none else sectorOf s1 r.sec with
    | some x => dropSlot s1 x
    | none => dropLlrs (giveSlot s1 r.lane) r.sec r.lane
  else
    let s1 := setJobs s fun l => l.map fun j => if mine j then { j with what := 4 } else j
    match if r.sec = 0 then none else sectorOf s1 r.sec with
    | some x =>
      -- the slot goes with the running decode; without one the sector's slot is free
      if s1.det.jobs.any fun j => j.sec == x.id then putSector s1 { x with slot := false } else dropSlot s1 x
    | none => s1

/-- Pin `i` of lane `n` is no longer held; a retry bound to it ends with result 0x05 (R104, R122). -/
def clearPin (s : State) (n i : Nat) : State :=
  let s1 := setDet (fsetb s (pinReg n i) ACT_DL_PIN_VALID false) fun d =>
    { d with pins := d.pins.filter (· != 2 * n + i), pinSec := tabDel d.pinSec (2 * n + i) }
  pinSync (match s1.det.retries.find? fun r => r.lane == n && r.pin == i with
    | some r => retryClose (retryJobGone s1 r) n 5 0
    | none => s1) n

end Sys2Proof.Machine
end

