-- ==== Sys2Proof/Machine/WriteSafe.lean ====
section
/-! DEFINITION. Write safety (R164 to R170): the inhibit causes of each head lane, their release rule, INH, WINH and PEAK_W, and
the span of the track that an inhibit takes from a head. Slice a is 2p + k; head lane l of it is head lane 4k + l of port p. -/
namespace Sys2Proof.Machine
open Sys2Proof

/-- The comparator state of head lane `l` of slice `a`. -/
def slane (s : State) (a l : Nat) : ServoLane := tabGet {} s.lanes (4 * a + l)

/-- Change it. -/
def setSlane (s : State) (a l : Nat) (f : ServoLane → ServoLane) : State := { s with lanes := tabUpd {} s.lanes (4 * a + l) f }

/-- The slice's own state. -/
def slice (s : State) (a : Nat) : ServoSlice := tabGet {} s.slices a

/-- Change it. -/
def setSlice (s : State) (a : Nat) (f : ServoSlice → ServoSlice) : State := { s with slices := tabUpd {} s.slices a f }

/-- MODE of a slice (Table 6-4). -/
def srvMode (s : State) (a : Nat) : Nat := fget s (ACT_SRV_STAT a) ACT_SRV_STAT_MODE

/-- SRV_CTRL, SRV_LIM and SRV_SHOCK take effect at a wedge (R177). -/
def takeLimits (s : State) (a : Nat) : State :=
  setSlice s a fun x => { x with ctrl := rd s (ACT_SRV_CTRL a), lim := rd s (ACT_SRV_LIM a), shock := rd s (ACT_SRV_SHOCK a) }

/-- The limit WU_LIM in use: as written, not above WU_MAX (R177). -/
def wuLim (s : State) (a : Nat) : Nat :=
  min (getF (slice s a).lim ACT_SRV_LIM_WU_LIM) (fget s (ACT_SRV_STAT a) ACT_SRV_STAT_WU_MAX)

/-- WU_REL in use: not above WU_LIM (R177). -/
def wuRel (s : State) (a : Nat) : Nat := min (getF (slice s a).lim ACT_SRV_LIM_WU_REL) (wuLim s a)

/-- SETTLE_LIM and SQZ_LIM in use. -/
def settleLim (s : State) (a : Nat) : Nat := getF (slice s a).lim ACT_SRV_LIM_SETTLE_LIM
def sqzLim (s : State) (a : Nat) : Nat := getF (slice s a).lim ACT_SRV_LIM_SQZ_LIM

/-- MISS_TOL in use (Table 6-4). -/
def missTol (s : State) (a : Nat) : Nat := min 3 (getF (slice s a).ctrl ACT_SRV_CTRL_MISS_TOL)

/-- MISS_LOST in use. -/
def missLost (s : State) (a : Nat) : Nat := max 2 (getF (slice s a).ctrl ACT_SRV_CTRL_MISS_LOST)

/-- SETTLE_N in use. -/
def settleN (s : State) (a : Nat) : Nat := max 1 (getF (slice s a).ctrl ACT_SRV_CTRL_SETTLE_N)

/-- REL_N in use. -/
def relN (s : State) (a : Nat) : Nat := max 1 (getF (slice s a).ctrl ACT_SRV_CTRL_REL_N)

/-- REWRITE_MAX in use. -/
def rewriteMax (s : State) (a : Nat) : Nat := min 7 (getF (slice s a).ctrl ACT_SRV_CTRL_REWRITE_MAX)

/-- SHOCK_LIM in use: not above the mechanism's stored limit (R175). -/
def shockLim (s : State) (a : Nat) : Nat := min (getF (slice s a).shock ACT_SRV_SHOCK_SHOCK_LIM) (slice s a).shockMax

/-! ### The track under a head lane (R137, R169, R170) -/

/-- The head h a lane has, and the track of its target. -/
def laneHd (s : State) (a l : Nat) : Nat := fget s (ACT_SL_CFG a l) ACT_SL_CFG_HEAD % 12
def laneTrack (s : State) (a l : Nat) : Nat := (slane s a l).tgt / 256

/-- Rate, data bits of a track and code of the track under a head lane. -/
def laneRate (s : State) (a l : Nat) : Nat := (bandAt s (a / 2) (12 * (a % 2) + laneHd s a l) (laneTrack s a l)).2.1
def laneBits (s : State) (a l : Nat) : Nat := max 1 (trackBits (laneRate s a l))
def laneCode (s : State) (a l : Nat) : Nat := trackCode s (a / 2) (12 * (a % 2) + laneHd s a l) (laneTrack s a l)

/-- The data bits at which the sector at a position of that track starts and ends. -/
def secStart (s : State) (a l pos : Nat) : Nat := sectorAt (laneCode s a l) (laneBits s a l) pos
def secEnd (s : State) (a l pos : Nat) : Nat :=
  secStart s a l pos + sectorSpan (laneCode s a l) (laneBits s a l) (secStart s a l pos)

/-- Place `y` of a track of `d` bits comes after place `x`: it lies in the half revolution that follows it. -/
def placeAfter (d x y : Nat) : Bool := decide (0 < (y % d + d - x % d) % d) && decide (2 * ((y % d + d - x % d) % d) < d)

/-- The sector being written on a lane that the write-clock bit of a WRITE flit falls in (R80, R170). -/
def flitSector (s : State) (a l ts : Nat) : Option Nat :=
  let at_ := fun m => writeClock (laneRate s a l) m
  ((fseqOf s a).cur.bind fun i => i.work.find? fun w => w.write && w.lane.toNat == l &&
    decide (at_ (secStart s a l w.pos.toNat) ≤ ts) && decide (ts < at_ (secEnd s a l w.pos.toNat))).map (·.pos.toNat)

/-- A sector of a lane's track that starts at write-clock bit `ts` may be written: no inhibit stands, and one released was so at
least 1.0 µs before (R169). -/
def sectorFree (s : State) (a l ts : Nat) : Bool :=
  let x := slane s a l
  x.span.isNone || x.resume.any fun r =>
    let c := writeClock (laneRate s a l)
    ts == c r || placeAfter (max 1 (c (laneBits s a l))) (c r) ts

/-- Bits that pass a head of the lane in a time in ns at the spindle's present speed. -/
def bitsIn (s : State) (a l ns : Nat) : Nat := ceilDiv (laneRate s a l * rdN s (SPN_SPEED (a / 2)) * ns) 720000000

/-- The data bit at the end of wedge `n` of a lane's track. -/
def wedgeEnd (s : State) (a l n : Nat) : Nat := wedgeBit (laneBits s a l) n

/-- The active causes of a head lane. -/
def causes (s : State) (a l : Nat) : Nat := fget s (ACT_SL_INH a l) ACT_SL_INH_CAUSE

/-- INH and WINH follow the causes, with INHIBIT and RELEASE at the changes (R164). -/
def syncInh (s : State) (a : Nat) : State :=
  let old := fget s (ACT_WS_INH a) ACT_WS_INH_INH
  let new := sumN ((rangeFrom 0 4).map fun l => if causes s a l = 0 then 0 else 2 ^ l)
  if new = old then s
  else
    let p := a / 2
    let k := a % 2
    let m := fget s (TTH_WINH p) TTH_WINH_MASK
    let s1 := setWinhMask (fset s (ACT_WS_INH a) ACT_WS_INH_INH new) p (m - m / 16 ^ k % 16 * 16 ^ k + new * 16 ^ k)
    let s2 := if new &&& (15 - old) = 0 then s1 else evtSet s1 (.ws a) ACT_WS_EVT_INHIBIT
    if old &&& (15 - new) = 0 then s2 else evtSet s2 (.ws a) ACT_WS_EVT_RELEASE

/-- PEAK_W of an inhibit under causes 0 to 5, and SQUEEZE beyond SQZ_LIM (R172). -/
def recordPeak (s : State) (a l : Nat) : State :=
  let x := slane s a l
  if causes s a l &&& 0x3F = 0 then s
  else
    let s1 := fset s (ACT_SL_INH a l) ACT_SL_INH_PEAK_W (min 255 x.peak)
    if sqzLim s a < x.peak ∧ x.squeezed.isNone then
      evtSet (setSlane s1 a l fun x => { x with squeezed := some (laneTrack s a l, x.span.getD 0, none) }) (.ws a) ACT_WS_EVT_SQUEEZE
    else s1

/-- PEND of a slice follows its pending sectors (Table 6-4). -/
def syncPend (s : State) (a : Nat) : State :=
  fset s (ACT_WS_INH a) ACT_WS_INH_PEND (sumN ((rangeFrom 0 4).map fun l =>
    if (slice s a).pend.any fun x => x.lane == l then 2 ^ l else 0))

/-- A sector joins the pending ones; the first of them starts the wait for the index (R154, R171). -/
def addPend (s : State) (a : Nat) (x : PendSec) : State :=
  syncPend (setSlice s a fun y => { y with pend := y.pend ++ [x], index := y.index && !y.pend.isEmpty }) a

/-- An inhibit of a head lane begins or goes on under cause `c` (R170): its span runs from the end of the last good wedge, under SW
alone from the sector under way; the sectors written since then are pending. -/
def openSpan (s : State) (a l c : Nat) : State :=
  let x := slane s a l
  let d := laneBits s a l
  if x.span.isSome ∧ !(x.swOnly ∧ c ≠ 6) then setSlane s a l fun x => { x with resume := none }
  else if c = 6 then
    setSlane s a l fun x => { x with span := some (secStart s a l (fseqOf s a).sect + 1), resume := none, swOnly := true }
  else
    let b := (x.lastGood.map (wedgeEnd s a l)).getD (x.span.getD (secStart s a l (fseqOf s a).sect))
    let hit := fun (y : PendSec) => y.lane == l && (x.lastGood.isNone || placeAfter d b (secEnd s a l y.pos))
    let s1 := setSlane s a l fun x => { x with span := some b, resume := none, swOnly := false }
    forAll ((slice s a).wait.filter hit) (setSlice s1 a fun y => { y with wait := y.wait.filter fun z => !hit z }) fun s y => addPend s a y

/-- The inhibit of a head lane ends at data bit `b` of its track: a sector may start 1.0 µs later (R169). -/
def closeSpan (s : State) (a l b : Nat) : State :=
  let r := (b + bitsIn s a l 1000) % laneBits s a l
  setSlane s a l fun x => { x with resume := some r, squeezed := x.squeezed.map fun q => (q.1, q.2.1, some (q.2.2.getD r)) }

/-- Where a head lane is when an inhibit is released: the decision on the last wedge comes 193.6 ns after its end (R157, R166); the
release of SW alone falls at a free place of the sector under way. -/
def releasePlace (s : State) (a l c : Nat) : Nat :=
  if c = 6 then
    let m := secStart s a l (fseqOf s a).sect
    m + freeVal s % max 1 (secEnd s a l (fseqOf s a).sect - m)
  else wedgeEnd s a l (fget s (ACT_SRV_STAT a) ACT_SRV_STAT_WEDGE) + bitsIn s a l 194

/-- Cause `c` of a head lane is set: counted, recorded, and INH follows (Table 6-3). -/
def setCause (s : State) (a l c : Nat) : State :=
  let cs := causes s a l
  let s1 := setSlane s a l fun x => { x with setNow := x.setNow ||| 2 ^ c, since := x.since.set c 0 }
  if cs / 2 ^ c % 2 = 1 then recordPeak s1 a l
  else
    let s2 := fset (openSpan s1 a l c) (ACT_SL_INH a l) ACT_SL_INH_CAUSE (cs + 2 ^ c)
    let s3 := count s2 (ACT_WS_CNT a (min c 4)) 1 (.ws a) ACT_WS_EVT_SAT
    syncInh (recordPeak s3 a l) a

/-- Cause `c` of a head lane ends. -/
def clearCause (s : State) (a l c : Nat) : State :=
  let cs := causes s a l
  if cs / 2 ^ c % 2 = 1 then
    let s1 := fset s (ACT_SL_INH a l) ACT_SL_INH_CAUSE (cs - 2 ^ c)
    syncInh (if cs = 2 ^ c then closeSpan (drawn s1) a l (releasePlace s a l c) else s1) a
  else s

/-- The own condition of cause `c` holds on a head lane. -/
def srcOn (s : State) (a l c : Nat) : Bool := decide ((slane s a l).src / 2 ^ c % 2 = 1)

/-- The own condition of cause `c` begins or ends on a head lane; the cause is set with its begin, and after its end the
release rule follows (R165). -/
def setSrc (s : State) (a l c : Nat) (b : Bool) : State :=
  if srcOn s a l c = b then s
  else if b then setCause (setSlane s a l fun x => { x with src := x.src + 2 ^ c }) a l c
  else setSlane s a l fun x => { x with src := x.src - 2 ^ c, since := x.since.set c 0 }

/-- The micro-actuator command of a head lane, and the reach of its head. -/
def maCmd (s : State) (a l : Nat) : Int := sgn 16 (fget s (ACT_SL_PES a l) ACT_SL_PES_MA_CMD)

/-- MA_REACH of the head a lane has. -/
def maReach (s : State) (a l : Nat) : Nat :=
  fget s (ACT_HD_MA a (fget s (ACT_SL_CFG a l) ACT_SL_CFG_HEAD % 12)) ACT_HD_MA_MA_REACH

/-- Cause `c` may be released at the wedge just decided: its own condition has ended and REL_N good wedges followed; one
set at this wedge stays (R165). SW has no release rule. -/
def releasable (s : State) (a l c : Nat) : Bool :=
  let x := slane s a l
  decide (causes s a l / 2 ^ c % 2 = 1) && c != 6 && !srcOn s a l c && decide (x.setNow / 2 ^ c % 2 = 0) &&
    decide (relN s a ≤ x.since.getD c 0) && decide (relN s a ≤ fget s (ACT_SL_INH a l) ACT_SL_INH_GOOD) &&
    (c != 2 || decide (absI (maCmd s a l) < maReach s a l))

/-- Head lane 4k + l of port `p` streams: the port carries flits, the device holds its token, and the lane's stream runs (R73,
cause 7). -/
def lineOn (s : State) (p j : Nat) : Bool := laneMode s p && tokenMine s p && (tthOf s p).streams.any fun x => x.1 == j

/-- Cause 7 of the head lanes of a port follows its streams. -/
def syncLink (s : State) (p : Nat) : State :=
  forAll (rangeFrom 0 8) s fun s j => setSrc s (2 * p + j / 4) (j % 4) 7 (!lineOn s p j)

/-- A head lane follows (R156): it streams, its actuator is loaded, its target is valid; the reference head follows
whenever the actuator is loaded. -/
def following (s : State) (a l : Nat) : Bool :=
  decide (1 ≤ srvMode s a) && lineOn s (a / 2) (4 * (a % 2) + l) &&
    (fbit s (ACT_SL_CFG a l) ACT_SL_CFG_VALID || decide (fget s (ACT_SRV_STAT a) ACT_SRV_STAT_REF = l))

/-- The following head lanes of a slice. -/
def followers (s : State) (a : Nat) : List Nat := (rangeFrom 0 4).filter (following s a)

/-- FOLLOW of the status. -/
def syncFollow (s : State) (a : Nat) : State :=
  fset s (ACT_SRV_STAT a) ACT_SRV_STAT_FOLLOW (sumN ((followers s a).map fun l => 2 ^ l))

/-- Set MODE of a slice. -/
def setSrvMode (s : State) (a m : Nat) : State := syncFollow (fset s (ACT_SRV_STAT a) ACT_SRV_STAT_MODE m) a

/-! ### Targets and seeks (R160, R163, R177) -/

/-- A seek, or a head load, takes the targets and the servo calibration of the lanes into use (R177, Table 14-10); what the wedges of
the earlier tracks told is gone. -/
def takeTargets (s : State) (a : Nat) : State :=
  forAll (rangeFrom 0 4) s fun s l =>
    let r := THM_SRVCAL a (laneHd s a l)
    setSlane s a l fun x =>
      { x with tgt := rdN s (ACT_SL_TGT a l), kh := fget s r THM_SRVCAL_K_H, dt0 := sgn 16 (fget s r THM_SRVCAL_DT0), settle := 0
               readOk := false, lastGood := none, span := none, resume := none, swOnly := false, late := [] }

/-- HD_OFS of head `h` in whole tracks, rounded (R160). -/
def headTracks (s : State) (a h : Nat) : Int := (sgn 32 (rdN s (ACT_HD_OFS a h)) + 128) / 256

/-- A head that is never followed together with others (R160). -/
def shortHead (s : State) (a h : Nat) : Bool := decide (fget s (ACT_HD_MA a h) ACT_HD_MA_MA_REACH < 384)

/-- Written sectors of a slice are pending, or not yet known to be good (R171), or a track is to be read back (R172): the course stays
on its tracks. -/
def courseHeld (s : State) (a : Nat) : Bool :=
  !(slice s a).pend.isEmpty || !(slice s a).wait.isEmpty || (rangeFrom 0 4).any fun l => (slane s a l).squeezed.isSome

end Sys2Proof.Machine
end

