-- ==== Sys2Proof/Machine/SpinOps.lean ====
section
/-! DEFINITION. The spindle and assist instance's operations (chapter 8): cause 5, the spindle's state with its counts, the
drive entries, head unloads, and braking. -/
namespace Sys2Proof.Machine
open Sys2Proof

/-- The spindle instance beside its registers. -/
def spnOf (s : State) (p : Nat) : SpnPort := tabGet {} s.spn p

/-- Change it. -/
def setSpn (s : State) (p : Nat) (f : SpnPort → SpnPort) : State := { s with spn := tabUpd {} s.spn p f }

/-- STATE of a spindle (Table 8-6). -/
def spnState (s : State) (p : Nat) : Nat := fget s (SPN_STAT p) SPN_STAT_STATE

/-- The engine and the slot of role `r` of actuator `a` (R178). -/
def slotOf (a r : Nat) : Nat × Nat := (a / 4, 16 * (a % 4) + r)

/-- FE_ACTIVE of slot `r` of actuator `a`. -/
def feActive (s : State) (a r : Nat) : Bool :=
  fbit s (BRD_SL_STAT (slotOf a r).1 (slotOf a r).2) BRD_SL_STAT_FE_ACTIVE

/-- The entries of the speed table of the mechanism on port `p`. -/
def speedTable (s : State) (p : Nat) : List SpeedEntry :=
  ((templateOf s p).bind fun t => (s.trs.run.speeds.find? fun x => x.1 == t.speedTbl).map (·.2)).getD []

/-- Speed of entry `i` in 0.01 rpm, 0 where there is none. -/
def stepSpeed (s : State) (p i : Nat) : Nat := (((speedTable s p)[i]?).map fun e => e.rpm * 100).getD 0

/-- The spindle's measured speed, 0.01 rpm. -/
def speed (s : State) (p : Nat) : Nat := rdN s (SPN_SPEED p)

/-- The head q = 12k + h a head lane j = 4k + l has. -/
def laneHead (s : State) (p j : Nat) : Nat :=
  12 * (j / 4) + fget s (ACT_SL_CFG (2 * p + j / 4) (j % 4)) ACT_SL_CFG_HEAD % 12

/-- The states in which the commutator drives and a failed step counts. -/
def driven (st : Nat) : Bool := st == 4 || st == 5 || st == 6 || st == 11

/-- Cause 5 of head lane j of port `p` (Table 8-4). -/
def cause5 (s : State) (p j : Nat) : Bool :=
  let x := spnOf s p
  let st := spnState s p
  let a := 2 * p + j / 4
  let l := j % 4
  (st != 5 && st != 6) || (st == 5 && x.offTol) || feActive s (2 * p) 13 || feActive s a (5 + l) || x.recal.contains j ||
    feActive s a (9 + l) || x.monLost.contains j || fbit s (AST_WEAR_W2 p (laneHead s p j)) AST_WEAR_W2_RETIRED

/-- Cause 5 of every head lane of a port, and WR_INH, follow Table 8-4. -/
def sync5 (s : State) (p : Nat) : State :=
  let s1 := forAll (rangeFrom 0 8) s fun s j => setSrc s (2 * p + j / 4) (j % 4) 5 (cause5 s p j)
  fsetb s1 (SPN_STAT p) SPN_STAT_WR_INH
    ((rangeFrom 0 8).any fun j => bitOf (BitVec.ofNat 32 (causes s1 (2 * p + j / 4) (j % 4))) 5)

/-- Cause 4 of the head lanes of a slice (R194): the voice-coil slot's action on all, a micro-actuator slot's on its own. -/
def sync4 (s : State) (a : Nat) : State :=
  forAll (rangeFrom 0 4) s fun s l => setSrc s a l 4 (feActive s a 0 || feActive s a (1 + l))

/-- The mechanism counts in SPINUPS (R207). -/
def countsSpinup (s : State) (p : Nat) : Bool :=
  let st := spnState s p
  (decide (1 ≤ st ∧ st ≤ 4) && (spnOf s p).pairOf.isNone) || (st == 6 && (spnOf s p).step.any (·.faster))

/-- SPINUPS and BRAKING (Table 8-7). -/
def syncShelf (s : State) : State :=
  let n := ((rangeFrom 0 32).filter (countsSpinup s)).length
  let b := ((rangeFrom 0 32).filter fun p => spnState s p == 7).length
  fset (fset s SPN_SHELF_CTRL SPN_SHELF_CTRL_SPINUPS n) SPN_SHELF_CTRL SPN_SHELF_CTRL_BRAKING b

/-- A head-bound calibration of actuator `a` becomes pending (R355): its bit of BGW_CALQ, with CAL_TRIG as it is set. `ask`
names one head, and a command that asked; all heads otherwise. -/
def calPend (s : State) (a : Nat) (ask : Option (Option Nat × Option (Nat × Nat))) : State :=
  let r := BGW_CALQ_LO + 4 * (a / 32)
  let x := (a, (ask.bind (·.1)), (ask.bind (·.2)))
  let s1 := { s with bgw := { s.bgw with
    asked := if s.bgw.asked.contains x then s.bgw.asked else s.bgw.asked ++ [x]
    verify := s.bgw.verify.filter (· != a) } }
  if rbit s1 r (a % 32) then s1 else evtSet (wbit s1 r (a % 32) true) .thm THM_EVT_CAL_TRIG

/-- A brake of port `p` ended: a start paired with it counts from now on (R207). -/
def endPair (s : State) (p : Nat) : State :=
  forAll (rangeFrom 0 32) s fun s r =>
    if (spnOf s r).pairOf = some p then
      fsetb (fsetb (setSpn s r fun x => { x with pairOf := none }) (SPN_STAT r) SPN_STAT_PAIRED false) (SPN_STAT p)
        SPN_STAT_PAIRED false
    else s

/-- The spindle slot's set of MODE, MAN or REF by its instance (R204). -/
def spnSlotMode (s : State) (p mode man : Nat) : State :=
  let x := slotOf (2 * p) 13
  let s1 := fset s (BRD_SL_CTRL x.1 x.2) BRD_SL_CTRL_MODE mode
  if mode = 1 then wrN s1 (BRD_SL_MAN x.1 x.2) man else s1

/-- REF of the spindle slot, 0.01 rpm. -/
def spnSlotRef (s : State) (p ref : Nat) : State := wrN s (BRD_SL_REF (slotOf (2 * p) 13).1 (slotOf (2 * p) 13).2) ref

/-- In the states whose drive the loop gives, the instance sets the slot to AUTO again, whatever another master wrote (R204). -/
def slotFollows (s : State) (p st : Nat) : State := if driven st ∨ st = 7 then spnSlotMode s p 2 0 else s

/-- Move a spindle to a state (Table 8-3): the STATE event, the spindle slot's mode, the slice-control domain (R206), the shelf counts,
the braking admissions and cause 5 follow. -/
def setSpnState (s : State) (p st : Nat) : State :=
  let old := spnState s p
  if old = st then s
  else
    let s1 := evtSet (fset s (SPN_STAT p) SPN_STAT_STATE st) (.spn p) SPN_EVT_STATE
    let s2 := sliceSync (sliceSync (if st = 0 then wrN s1 (SPN_SPEED p) 0 else s1) (2 * p)) (2 * p + 1)
    let s3 := if old = 7 then endPair s2 p else s2
    let s4 := if 4 ≤ st ∧ st ≤ 7 then s3 else
      { s3 with shelf := { s3.shelf with regen := s3.shelf.regen.filter (· != p), regenQ := s3.shelf.regenQ.filter (· != p) } }
    let s5 := setSpn s4 p fun x => { x with inTol := 0, offTol := false, fails := if driven old && driven st then x.fails else 0 }
    sync5 (syncShelf (slotFollows s5 p st)) p

/-- OUT of the spindle slot. -/
def spnOut (s : State) (p : Nat) : Int := sgn 32 (rdN s (BRD_SL_OUT (slotOf (2 * p) 13).1 (slotOf (2 * p) 13).2))

/-- Send a spindle drive entry (Table 8-2), after the entries `more` of the same flit; one that waits for a credit is counted late
(R201). -/
def sendDrive (s : State) (p d v : Nat) (more : List CmdEntry := []) : State :=
  let s1 := fset s (SPN_STAT p) SPN_STAT_DRIVE d
  let s2 := if laneMode s p ∧ avail s p = 0 then count s1 (SPN_CNT p 7) 1 (.spn p) SPN_EVT_SAT else s1
  sendCmd s2 p (more ++ [⟨3, 0, d * 2 ^ 29 + v % 2 ^ 29⟩])

/-- A SIX entry at the step the commutator is at; EDGE is a free value. -/
def sendSix (s : State) (p : Nat) (more : List CmdEntry := []) : State :=
  let amp := min 65535 (spnOut s p).toNat
  sendDrive (drawn s) p 1 (fget s (SPN_STAT p) SPN_STAT_CSTEP * 2 ^ 26 + freeVal s % 1024 * 2 ^ 16 + amp) more

/-- Some front-end that has sent a BUS record since its binding shows its bus above BUS_HI (R209). -/
def busHigh (s : State) : Bool :=
  (rangeFrom 0 32).any fun p => (spnOf s p).busSeen &&
    decide (fget s SPN_SHELF_THR SPN_SHELF_THR_BUS_HI < fget s (SPN_BUS p) SPN_BUS_BUS_V)

/-- A mechanism may regenerate: REGEN_EN, no REGEN_STOP, its chopper in service, a BUS record seen, no bus too high. -/
def regenAllowed (s : State) (p : Nat) : Bool :=
  fbit s (SPN_CTRL p) SPN_CTRL_REGEN_EN && !fbit s SPN_SHELF_BUS SPN_SHELF_BUS_REGEN_STOP &&
    !fbit s (SPN_CHOP p) SPN_CHOP_RETIRED && (spnOf s p).busSeen && !busHigh s

/-- BRAKE_MAX in use. -/
def brakeMax (s : State) : Nat := max 1 (fget s SPN_SHELF_CTRL SPN_SHELF_CTRL_BRAKE_MAX)

/-- A REGEN entry: its current limit is at most |OUT| and such that P_RGN is not exceeded, a free value below that; it
is halved at each BUS record above BUS_HI (R209). -/
def sendRegen (s : State) (p : Nat) (more : List CmdEntry := []) : State :=
  let top := min 65535 (absI (spnOut s p)) / 2 ^ (spnOf s p).halved
  sendDrive (drawn s) p 3 (freeVal s % (top + 1)) more

/-- The mechanism neither regenerates nor waits to. -/
def leaveRegen (s : State) (p : Nat) : State :=
  { s with shelf := { s.shelf with regen := s.shelf.regen.filter (· != p), regenQ := s.shelf.regenQ.filter (· != p) } }

/-- A brake: BRAKE, or a step to a slower speed (R208). -/
def braking (s : State) (p : Nat) : Bool := spnState s p == 7 || (spnState s p == 6 && (spnOf s p).step.any fun c => !c.faster)

/-- The mechanism begins to regenerate or goes on with it, or coasts and waits its turn (R201, R209). -/
def askRegen (s : State) (p : Nat) (more : List CmdEntry := []) : State :=
  if s.shelf.regen.contains p ∧ fbit s (SPN_CTRL p) SPN_CTRL_REGEN_EN ∧ !fbit s (SPN_CHOP p) SPN_CHOP_RETIRED then sendRegen s p more
  else
    let s0 := { s with shelf := { s.shelf with regen := s.shelf.regen.filter (· != p) } }
    if regenAllowed s0 p ∧ s0.shelf.regen.length < brakeMax s0 then
      let s1 := { s0 with shelf := { s0.shelf with regen := s0.shelf.regen ++ [p], regenQ := s0.shelf.regenQ.filter (· != p) } }
      sendRegen (if braking s p then count s1 (SPN_CNT p 4) 1 (.spn p) SPN_EVT_SAT else s1) p more
    else
      let s1 := if s0.shelf.regenQ.contains p then s0 else { s0 with shelf := { s0.shelf with regenQ := s0.shelf.regenQ ++ [p] } }
      sendDrive s1 p 0 0 more

/-- The drive entry that OUT of the spindle slot asks for in a driven state (R201), in one flit with the entries `more`. -/
def driveOut (s : State) (p : Nat) (more : List CmdEntry := []) : State :=
  let st := spnState s p
  if st = 4 ∨ st = 5 ∨ st = 6 then
    if 0 ≤ spnOut s p then sendSix (leaveRegen s p) p more else askRegen s p more
  else if st = 7 then (if (spnOf s p).coast then sendDrive s p 0 0 more else askRegen s p more)
  else if more = [] then s else sendCmd s p more

/-- The heads of an actuator are ordered unloaded (R466); an emergency unload counts as ten head loads. -/
def unloadSlice (s : State) (a : Nat) (emergency : Bool) : State :=
  let s1 := if srvMode s a = 0 ∨ !emergency then s
    else count (fadd s (BGW_WEAR_W1 a) BGW_WEAR_W1_EMERG 1) (BGW_WEAR_W0 a) 9 .bgw BGW_EVT_SAT
  emit (setSlice s1 a fun x => { x with unloading := true }) (.media 4 a [b2n emergency])

/-- Heads of a mechanism are ordered unloaded: both actuators. -/
def unloadHeads (s : State) (p : Nat) (emergency : Bool) : State :=
  unloadSlice (unloadSlice (setSpn s p fun x => { x with parking := true }) (2 * p) emergency) (2 * p + 1) emergency

/-- Some head of the mechanism is loaded or being loaded. -/
def anyLoaded (s : State) (p : Nat) : Bool := srvMode s (2 * p) != 0 || srvMode s (2 * p + 1) != 0

/-- SHORT is sent; a short brake is counted; what follows it is noted. -/
def goShort (s : State) (p : Nat) (alignNext : Bool) : State :=
  let s1 := count (setSpnState (setSpn s p fun x => { x with alignNext := alignNext }) p 8) (SPN_CNT p 5) 1 (.spn p) SPN_EVT_SAT
  sendDrive s1 p 4 0

/-- BRAKE is entered (R209): a mechanism with a retired chopper brakes by SHORT. -/
def goBrake (s : State) (p : Nat) : State :=
  if fbit s (SPN_CHOP p) SPN_CHOP_RETIRED then goShort s p false
  else askRegen (spnSlotRef (setSpnState s p 7) p 0) p

/-- ALIGN is entered: DC current on step vector 0, the slot in MANUAL with ALIGN_AMP. -/
def goAlign (s : State) (p : Nat) : State :=
  let amp := fget s (SPN_START_AMP p) SPN_START_AMP_ALIGN_AMP
  sendDrive (fset (spnSlotMode (setSpnState s p 2) p 1 amp) (SPN_STAT p) SPN_STAT_CSTEP 0) p 5 amp

/-- CATCH is entered: COAST, crossings watched afresh; out of STOPPED the drive will start from RAMP_AMP (Table 8-3). -/
def goCatch (s : State) (p : Nat) : State :=
  let k := slotOf (2 * p) 13
  let s := if spnState s p = 0 then wrN s (BRD_SL_OUT k.1 k.2) (fget s (SPN_START_AMP p) SPN_START_AMP_RAMP_AMP) else s
  sendDrive (setSpnState (setSpn s p fun x => { x with plaus := 0, lastStep := none }) p 1) p 0 0

/-- ACCEL is entered: SIX from the measured step, the slot in AUTO with REF the step's speed; a step change that lost its rotor goes on
from the current REF (R218). -/
def goAccel (s : State) (p : Nat) : State :=
  let s0 := spnSlotMode (setSpnState s p 4) p 2 0
  let s1 := if (spnOf s p).step.isSome then s0 else spnSlotRef s0 p (stepSpeed s p (fget s (SPN_CTRL p) SPN_CTRL_STEP))
  let x := slotOf (2 * p) 13
  sendSix { s1 with slots := tabUpd {} s1.slots (64 * x.1 + x.2) fun b => { b with preset := true } } p

/-- STOPPED is reached. -/
def goStopped (s : State) (p : Nat) : State :=
  let s1 := setSpnState (setSpn s p fun x => { x with wantStop := false, coast := false, alignNext := false, step := none }) p 0
  spnSlotMode s1 p 0 0

/-- LOST is entered from an observer loss or with all lanes gone: OBS_LOCK falls, cause 5 stands on all lanes. -/
def goLost (s : State) (p : Nat) : State :=
  let again := fun x : SpnPort => { x with plaus := 0, lastStep := none, step := x.step.map fun c => { c with phase := 0 } }
  fsetb (setSpnState (setSpn s p again) p 9) (SPN_STAT p) SPN_STAT_OBS_LOCK false

/-- All lanes of a port are lost (R204): the spindle goes LOST and no drive entry is sent. -/
def spnLanesLost (s : State) (p : Nat) : State :=
  let st := spnState s p
  if st = 0 ∨ st = 12 then s else goLost s p

/-- Presence is lost: STOPPED, counters kept. -/
def spnGone (s : State) (p : Nat) : State :=
  let s1 := if spnState s p = 12 then fset s (SPN_STAT p) SPN_STAT_TRIES 0 else s
  let s2 := forAll [2 * p, 2 * p + 1] (goStopped s1 p) fun s a => setSlice s a fun x => { x with unloading := false }
  wrN (setSpn s2 p fun x => { x with busSeen := false, wantRun := false, parking := false, chopStop := false }) (SPN_BUS p) 0

end Sys2Proof.Machine
end

