-- ==== Sys2Proof/Machine/Bridle.lean ====
section
/-! DEFINITION. Bridle control engines (chapter 7): triggers, iterations, outputs, coefficient-set switches, modes and
following-error supervision. Times are in Bridle cycles. How a product is rounded is left open: each inexact one takes a
bit of a free value (log entry 13). -/
namespace Sys2Proof.Machine
open Sys2Proof

/-- Slot `k` of engine `e` beside its registers. -/
def bslot (s : State) (e k : Nat) : BrdSlot := tabGet {} s.slots (64 * e + k)

/-- Change it. -/
def setBslot (s : State) (e k : Nat) (f : BrdSlot → BrdSlot) : State := { s with slots := tabUpd {} s.slots (64 * e + k) f }

/-- An engine beside its registers. -/
def engine (s : State) (e : Nat) : BrdEng := tabGet {} s.engines e

/-- Change it. -/
def setEngine (s : State) (e : Nat) (f : BrdEng → BrdEng) : State := { s with engines := tabUpd {} s.engines e f }

/-- The actuator slot `k` of engine `e` serves (R178). -/
def slotAct (e k : Nat) : Nat := 4 * e + k / 16

/-- KIND of a slot's role (Tables 7-1, 7-6). -/
def slotKind (k : Nat) : Nat :=
  let r := k % 16
  if r = 0 then 0 else if r ≤ 4 then 2 else if r ≤ 8 then 4 else if r ≤ 12 then 5
  else if r = 13 ∧ k / 16 % 2 = 0 then 3 else if r = 14 then 0xE else 0xF

/-- The slot runs a loop. -/
def slotUsed (k : Nat) : Bool := decide (slotKind k < 6)

/-- Priority of a slot. -/
def slotPrio (k : Nat) : Nat := if k % 16 ≤ 4 then 0 else 1

/-- LOOP of a slot's coefficient sets (R185). -/
def slotLoop (k : Nat) : Nat := slotKind k

/-- MODE written in a slot's register. -/
def slotMode (s : State) (e k : Nat) : Nat := fget s (BRD_SL_CTRL e k) BRD_SL_CTRL_MODE

/-- FE_LIM in use (R193). -/
def feLim (s : State) (e k : Nat) : Nat :=
  let v := fget s (BRD_SL_FE e k) BRD_SL_FE_FE_LIM
  if slotPrio k = 0 then min v (fget s (BRD_SL_STAT e k) BRD_SL_STAT_FE_LIM_MAX) else v

/-- FE_N in use. -/
def feN (s : State) (e k : Nat) : Nat := max 1 (fget s (BRD_SL_FE e k) BRD_SL_FE_FE_N)

/-- Slots that are ready. -/
def readySlots (s : State) (e : Nat) : List Nat := (rangeFrom 0 64).filter fun k => (bslot s e k).ready

/-- Q and PEAK_Q of an engine. -/
def syncQ (s : State) (e : Nat) : State :=
  let q := (readySlots s e).length
  let s1 := fset s (BRD_STAT e) BRD_STAT_Q q
  if fget s (BRD_STAT e) BRD_STAT_PEAK_Q < q then fset s1 (BRD_STAT e) BRD_STAT_PEAK_Q q else s1

/-- An iteration dropped or late is counted (R180, R183). -/
def overrun (s : State) (e : Nat) : State :=
  evtSet (count s (BRD_OVERRUNS e) 1 (.brd e) BRD_EVT_SAT) (.brd e) BRD_EVT_OVERRUN

/-- The MODE written comes into force at a trigger, unless a switch is armed (R186, R191); entry into AUTO presets. -/
def takeMode (s : State) (e k : Nat) : State :=
  let x := bslot s e k
  if x.armed ∨ x.mode = slotMode s e k then s
  else setBslot s e k fun x => { x with mode := slotMode s e k, preset := x.preset || slotMode s e k == 2, held := false }

/-- The loops of an actuator whose servo is lost hold their last outputs (R159). -/
def loopHeld (s : State) (e k : Nat) : Bool := decide (k % 16 ≤ 12) && srvMode s (slotAct e k) == 5

/-- FE_ACT of the action that is active on a slot; 0 with none. -/
def actNow (s : State) (e k : Nat) : Nat := if fbit s (BRD_SL_STAT e k) BRD_SL_STAT_FE_ACTIVE then (bslot s e k).feAct else 0

/-- The slot iterates: its mode in force is AUTO or HOLD, and no SAFE action freezes it (R179). -/
def iterates (s : State) (e k : Nat) : Bool := decide (2 ≤ (bslot s e k).mode) && actNow s e k != 2

/-- A slot that no longer iterates: the trigger that waited and the law's outputs are dropped, with a value in their place or none. -/
def fixedOutput (s : State) (e k : Nat) (o : List (Int × Nat × Bool)) : State :=
  syncQ (setBslot s e k fun x => { x with ready := false, swNext := false, pend := o }) e

/-- A trigger of a slot at reference instant `t` with an input (R179 to R181, R186). `tdem` is in Bridle cycles. -/
def brdTrigger (s : State) (e k t tdem : Nat) (input : Int) (missed : Bool) : State :=
  let s1 := takeMode s e k
  let x := bslot s1 e k
  let due := t + max (fget s (BRD_SL_TIME e k) BRD_SL_TIME_PHASE) (tdem + 96)
  let kept := fun (r : Word) => (if (bslot s e k).mode = x.mode then x.pend else []) ++ [(sgn 32 r.toNat, due, false)]
  if loopHeld s e k then s
  else if x.mode = 0 then fixedOutput s1 e k []
  else if x.mode = 1 then fixedOutput s1 e k (kept (rd s1 (BRD_SL_MAN e k)))
  else if actNow s1 e k = 2 then fixedOutput s1 e k (kept (rd s1 (BRD_SL_SAFE_OUT e k)))
  else
    let s2 := if x.ready then overrun s1 e else s1
    syncQ (setBslot s2 e k fun x => { x with ready := true, due := due, input := input, missed := missed, swNext := x.armed }) e

/-- `num ÷ den`, rounded down, or up by bit `i` of the free value `n` where it is inexact. -/
def rnd (n i : Nat) (num den : Int) : Int := if num % den = 0 then num / den else num / den + (n / 2 ^ i % 2 : Nat)

/-- A sum kept in 48 bits (R184). -/
def sat48 (v : Int) : Int := clampI (-(2 ^ 47)) (2 ^ 47 - 1) v

/-- The state an iteration reaches: what the slot keeps, OUT, and that the preset or the output was clamped (R184, R187).
`c` are the coefficient words, `auto` that the law advances, `u` the last output, `lo` and `hi` the output limits. A preset that is
not clamped gives u itself where both sections have unity DC gain (R187). -/
def brdLaw (n : Nat) (c : Nat → Int) (x : BrdSlot) (auto : Bool) (e u lo hi : Int) : BrdSlot × Int × Bool × Bool :=
  let q := (2 ^ 24 : Int)
  let i16 := (2 ^ 16 : Int)
  let imax := c 5 * i16
  let p := sat48 (rnd n 0 (c 0 * e) 256)
  let ePrev := if x.preset then e else x.ePrev
  let dPrev := if x.preset then 0 else x.dPrev
  let d := if x.preset then 0 else sat48 (rnd n 1 (c 3 * dPrev) q + rnd n 2 (c 2 * (e - ePrev)) 256)
  let want := u * i16 - p - c 4 * i16
  let bump := x.preset && decide (imax < want ∨ want < -imax)
  let integ := if x.preset then clampI (-imax) imax want
    else if auto && !x.held then clampI (-imax) imax (sat48 (x.integ + rnd n 3 (c 1 * e) 256))
    else clampI (-imax) imax x.integ
  let s11 := if x.preset then sat48 (rnd n 4 ((c 7 + c 8 - c 9 - c 10) * u) 256) else x.s11
  let s12 := if x.preset then sat48 (rnd n 5 ((c 8 - c 10) * u) 256) else x.s12
  let s21 := if x.preset then sat48 (rnd n 6 ((c 12 + c 13 - c 14 - c 15) * u) 256) else x.s21
  let s22 := if x.preset then sat48 (rnd n 7 ((c 13 - c 15) * u) 256) else x.s22
  let v := sat48 (p + integ + d + c 4 * i16)
  let y1 := sat48 (rnd n 8 (c 6 * v) q + s11)
  let y2 := sat48 (rnd n 9 (c 11 * y1) q + s21)
  let unity := fun i => decide (absI (c i + c (i + 1) + c (i + 2) - 2 ^ 24 - c (i + 3) - c (i + 4)) ≤ 16)
  let y := if x.preset && !bump && unity 6 && unity 11 then u else rnd n 10 y2 i16
  let out := clampI lo hi y
  let next : BrdSlot := if auto then
      { x with
        ePrev := e, dPrev := d, integ := integ
        s11 := sat48 (rnd n 11 (c 7 * v - c 9 * y1) q + s12)
        s12 := sat48 (rnd n 12 (c 8 * v - c 10 * y1) q)
        s21 := sat48 (rnd n 13 (c 12 * y1 - c 14 * y2) q + s22)
        s22 := sat48 (rnd n 14 (c 13 * y1 - c 15 * y2) q)
        held := out != y, preset := false }
    else x
  (next, out, bump && auto, out != y)

/-- The coefficient words that a slot works with: its live ones; in SEEK the voice coil's are those of its seek bank (Table 7-1). -/
def liveCoef (s : State) (e k i : Nat) : Int :=
  sgn 32 (rdN s (BRD_COEF e (if slotKind k = 0 ∧ srvMode s (slotAct e k) = 2 then k + 14 else k) i))

/-- The output limits of a slot; on a micro-actuator not beyond its reach (R184). -/
def outLimits (s : State) (e k : Nat) : Int × Int :=
  let lo := sgn 32 (rdN s (BRD_SL_OMIN e k))
  let hi := sgn 32 (rdN s (BRD_SL_OMAX e k))
  if slotKind k = 2 then
    let r := (maReach s (slotAct e k) (k % 16 - 1) : Int)
    (max lo (-r), min hi r)
  else (lo, hi)

/-- The error input of a slot: its own on voice-coil and micro-actuator slots, REF minus the measured value else. -/
def slotErr (s : State) (e k : Nat) : Int :=
  let x := bslot s e k
  if slotPrio k = 0 then x.input else sgn 32 (rdN s (BRD_SL_REF e k)) - x.input

/-! ### Coefficient-set switch (R185, R190, R191) -/

/-- The set (SET, LOOP) is loaded. -/
def setLoaded (s : State) (e set loop : Nat) : Bool :=
  set == 255 || rbit s (BRD_SET_VALID e ((loop * 256 + set) / 32)) ((loop * 256 + set) % 32)

/-- The set a COEF_SET value selects for a loop: itself where it is defined, else the default. -/
def setChosen (s : State) (e set loop : Nat) : Nat := loop * 256 + (if setLoaded s e set loop then set else 255)

/-- A section of a set has unity DC gain: |b0 + b1 + b2 − 1 − a1 − a2| ≤ 2⁻²⁰. -/
def unityDc (s : State) (e idx base : Nat) : Bool :=
  let c := fun i => sgn 32 (rdN s (BRD_STORE e idx (base + i)))
  decide (absI (c 0 + c 1 + c 2 - 2 ^ 24 - c 3 - c 4) ≤ 16)

/-- A set in the store can be copied. -/
def setGood (s : State) (e idx : Nat) : Bool := unityDc s e idx 6 && unityDc s e idx 11

/-- Copy a set into the live coefficients of a slot. -/
def copySet (s : State) (e k idx : Nat) : State :=
  forAll (rangeFrom 0 16) s fun s i => wr s (BRD_COEF e k i) (rd s (BRD_STORE e idx i))

/-- The mask bit of slot `k` is set. -/
def masked (s : State) (e k : Nat) : Bool := rbit s (BRD_SW_MASK_LO e + 4 * (k / 32)) (k % 32)

/-- The slots a switch covers. -/
def switchSlots (s : State) (e : Nat) : List Nat := (rangeFrom 0 64).filter fun k => masked s e k && slotUsed k

/-- Cause 4 or cause 5 follows the actions of a slot (R194, R213). -/
def syncFe (s : State) (e k : Nat) : State :=
  if slotPrio k = 0 then sync4 s (slotAct e k) else sync5 s (slotAct e k / 2)

/-- A following-error action of kinds 1 to 3 is cleared (R194): HOLD and SAFE go back to AUTO with a preset. -/
def feClear (s : State) (e k : Nat) : State :=
  let x := bslot s e k
  if fbit s (BRD_SL_STAT e k) BRD_SL_STAT_FE_ACTIVE ∧ x.feAct ≠ 0 then
    let s1 := fset (fsetb s (BRD_SL_STAT e k) BRD_SL_STAT_FE_ACTIVE false) (BRD_SL_STAT e k) BRD_SL_STAT_FE_CNT 0
    syncFe (setBslot s1 e k fun x => { x with feAct := 0, feLow := 0, preset := x.preset || x.mode == 2 }) e k
  else s

/-- The firmware clears a following-error action of a slot, unless the engine is claimed (R219, R20). -/
def fwFeClear (s : State) (x : Nat × Nat) : State := if claimed s (baseBRD x.1) then s else feClear s x.1 x.2

/-- The step change of a mechanism goes on as a switch ends (R192, SPEED_STEP_COMPLETE); in a claimed engine the switches are the
expert's (R20). RUN clears a following-error action of the spindle slot (R219). -/
def stepSwitched (s : State) (e p : Nat) : State :=
  match (spnOf s p).step with
  | none => s
  | some c =>
    let own := claimed s (baseBRD e)
    if (c.phase = 1 ∨ (c.phase = 0 ∧ own)) ∧ masked s e (32 * (p % 2) + 13) then
      setSpn s p fun x => { x with step := some { c with phase := 2 } }
    else if (c.phase = 3 ∨ (c.phase = 2 ∧ own ∧ 16 ≤ (spnOf s p).near)) ∧ masked s e (32 * (p % 2)) then
      let s1 := fset (setSpn s p fun x => { x with step := none }) (SPN_STAT p) SPN_STAT_SPEED_STEP c.target
      let s2 := if spnState s1 p = 6 then fwFeClear (spnSlotRef (setSpnState s1 p 5) p (stepSpeed s p c.target)) (slotOf (2 * p) 13)
        else s1
      evtSet (syncShelf s2) (.spn p) SPN_EVT_STEP_DONE
    else s

/-- The last selected slot has switched: CUR_SET, GO and SW_DONE; an override command completes (R190, R197). -/
def switchDone (s : State) (e : Nat) : State :=
  let s1 := forAll (switchSlots s e) s fun s k =>
    if fget s (BRD_SL_STAT e k) BRD_SL_STAT_SWERR = 1 then s
    else fset s (BRD_SL_SET e k) BRD_SL_SET_CUR_SET (fget s (BRD_SL_SET e k) BRD_SL_SET_SW_SET)
  let s2 := evtSet (fsetb s1 (BRD_SW_CTRL e) BRD_SW_CTRL_GO false) (.brd e) BRD_EVT_SW_DONE
  forAll [2 * e, 2 * e + 1] s2 fun s p =>
    let s := stepSwitched s e p
    match (spnOf s p).ovrCmd with
    | some c => if masked s2 e (32 * (p % 2)) then adminOk (setSpn s p fun x => { x with ovrCmd := none }) c.1 c.2 0 else s
    | none => s

/-- The set of each loop that a slot is to switch to: its own, and for a voice-coil slot that of its seek bank. -/
def switchSet (s : State) (e k loop : Nat) : Nat := setChosen s e (fget s (BRD_SL_SET e k) BRD_SL_SET_SW_SET) loop

/-- They can be copied (Table 7-4). -/
def switchGood (s : State) (e k : Nat) : Bool :=
  setGood s e (switchSet s e k (slotLoop k)) && (slotKind k != 0 || setGood s e (switchSet s e k 1))

/-- A selected slot is copied: PENDING falls, and the last one ends the switch. -/
def switchCopy (s : State) (e k : Nat) : State :=
  let s1 := if switchGood s e k then
      let s1 := fset (copySet s e k (switchSet s e k (slotLoop k))) (BRD_SL_STAT e k) BRD_SL_STAT_SWERR 0
      if slotKind k = 0 then copySet s1 e (k + 14) (switchSet s e k 1) else s1
    else evtSet (fset s (BRD_SL_STAT e k) BRD_SL_STAT_SWERR 1) (.brd e) BRD_EVT_SW_ERR
  let s2 := setBslot s1 e k fun x => { x with armed := false, swNext := false }
  let n := fget s2 (BRD_SW_CTRL e) BRD_SW_CTRL_PENDING - 1
  let s3 := fset s2 (BRD_SW_CTRL e) BRD_SW_CTRL_PENDING n
  if n = 0 then switchDone s3 e else s3

/-- GO is written: every selected slot is armed (R190); with none selected the switch ends at once. -/
def switchGo (s : State) (e : Nat) : State :=
  if fbit s (BRD_SW_CTRL e) BRD_SW_CTRL_GO then s
  else
    let ks := switchSlots s e
    let s1 := forAll ks s fun s k => setBslot s e k fun x => { x with armed := true }
    let s2 := fset (fsetb s1 (BRD_SW_CTRL e) BRD_SW_CTRL_GO true) (BRD_SW_CTRL e) BRD_SW_CTRL_PENDING ks.length
    if ks = [] then switchDone s2 e else s2

/-! ### Commands and events -/

/-- BRIDLE_TIMER_TICK (R179): a PERIOD tick of a timer slot; its input is the measured speed. -/
def execBridleTimerTick (e : Fin 16) (k : Fin 64) (t : BitVec 48) (s : State) : Res :=
  .next (if slotKind k = 3 then
      brdTrigger s e k t.toNat 0 (speed s (slotAct e k / 2)) false
    else s)

/-- The ready slot that goes next: priority, earliest output, lowest number (R179, R180). -/
def nextReady (s : State) (e : Nat) : Option Nat :=
  ((readySlots s e).filter (iterates s e)).foldl (fun b k =>
    match b with
    | none => some k
    | some j =>
      if slotPrio k < slotPrio j then some k
      else if slotPrio j < slotPrio k then some j
      else if (bslot s e k).due < (bslot s e j).due then some k else some j) none

/-- An iteration of slot `k` starts (R180, R190, R191): a switch iteration copies its set, keeps OUT and presets with the new
coefficients; with a following-error action active, or where the set is refused, it is an iteration like any other. -/
def iterate (s : State) (e k t : Nat) : State :=
  let due := (bslot s e k).armed && (bslot s e k).swNext
  let sw := due && switchGood s e k && !fbit s (BRD_SL_STAT e k) BRD_SL_STAT_FE_ACTIVE
  let s0 := if due then switchCopy s e k else s
  let x := { bslot s0 e k with ready := false, preset := (bslot s0 e k).preset || sw }
  let u := sgn 32 (rdN s0 (BRD_SL_OUT e k))
  let auto := x.mode == 2 && actNow s0 e k != 1
  let er := slotErr s0 e k
  let lim := outLimits s0 e k
  let r := brdLaw (freeVal s0) (liveCoef s0 e k) x (auto || sw) er u lim.1 lim.2
  let hold := sw || !auto
  let starts := t :: (engine s e).starts.filter fun u => decide (t < u + 1000000)
  let it : BrdIter := ⟨k, x.due, t + 96, sw, er, if hold then u else r.2.1, r.1, r.2.2.1, !hold && r.2.2.2⟩
  let s1 := setEngine (setBslot (drawn s0) e k fun y => { y with ready := false, preset := false }) e fun _ => { run := some it, starts := starts }
  syncQ (fset s1 (BRD_STAT e) BRD_STAT_LOAD (min 255 (starts.length * 96 / 10000))) e

/-- BRIDLE_ITERATION_START (R180, R190): the engine is enabled, powered and idle. A switch iteration copies its set, keeps
OUT and presets with the new coefficients. -/
def execBridleIterationStart (e : Fin 16) (t : BitVec 48) (s : State) : Res :=
  .next (if !fbit s (BRD_CTRL e) BRD_CTRL_EN || !domOn s (411 + e) || (engine s e).run.isSome then s
  else match nextReady s e with
    | none => s
    | some k =>
      iterate s e k t.toNat)

/-- FE_CNT and the count within half the limit advance with an iteration in AUTO (R193, R194); a missed wedge leaves
both. -/
def feCount (s : State) (e k : Nat) (er : Int) : State :=
  let x := bslot s e k
  if x.missed ∨ x.mode ≠ 2 ∨ actNow s e k = 1 then s
  else
    let above := decide (feLim s e k < absI er)
    let low := decide (2 * absI er ≤ feLim s e k)
    let s1 := if above then fadd s (BRD_SL_STAT e k) BRD_SL_STAT_FE_CNT 1 else fset s (BRD_SL_STAT e k) BRD_SL_STAT_FE_CNT 0
    setBslot s1 e k fun x => { x with feLow := if low then x.feLow + 1 else 0 }

/-- An iteration ends: the law's result is in place, and its output waits for its time, or goes at once when it is late (R183, R184,
R187); a slot that has left AUTO and HOLD meanwhile drops it (R186). A preset asked for meanwhile stands. -/
def iterated (s : State) (e : Nat) (it : BrdIter) : State :=
  let k := it.slot
  let now := bslot s e k
  let s1 := setEngine s e fun x => { x with run := none }
  let s2 := setBslot s1 e k fun _ =>
    { it.next with ready := now.ready, due := now.due, input := now.input, missed := now.missed, mode := now.mode,
                   armed := now.armed, swNext := now.swNext, feLow := now.feLow, feAct := now.feAct,
                   preset := it.next.preset || now.preset
                   pend := if iterates s e k then now.pend ++ [(it.out, it.due, decide (it.due < it.endAt))] else now.pend }
  let s3 := wrN (wrN s2 (BRD_SL_ERR e k) (unsgn 32 it.e)) (BRD_SL_INTEG e k)
    (unsgn 32 (clampI (-(2 ^ 31)) (2 ^ 31 - 1) (it.next.integ / 65536)))
  let s4 := fsetb (fsetb s3 (BRD_SL_STAT e k) BRD_SL_STAT_BUMP it.bump) (BRD_SL_STAT e k) BRD_SL_STAT_OUT_SAT it.outSat
  let s5 := if it.bump then evtSet s4 (.brd e) BRD_EVT_BUMP else s4
  let s6 := if it.outSat then evtSet s5 (.brd e) BRD_EVT_OUT_SAT else s5
  feCount (count64 s6 (BRD_ITERATIONS_LO e) 1 (.brd e) BRD_EVT_SAT) e k it.e

/-- BRIDLE_ITERATION_END (R184, R187): the law's result is in place, and its output waits for its time. -/
def execBridleIterationEnd (e : Fin 16) (s : State) : Res :=
  .next (match (engine s e).run with
    | none => s
    | some it =>
      iterated s e it)

/-- The CMD entry of a slot's output (Table 7-1); the spindle slot's goes through its instance (R201). -/
def slotEntry (s : State) (e k : Nat) (v : Int) : CmdEntry :=
  let a := slotAct e k
  let ka := a % 2
  let r := k % 16
  let j := 4 * ka + (r - 1) % 4
  if r = 0 then ⟨1, ka, unsgn 32 v⟩
  else if r ≤ 4 then ⟨2, j, unsgn 32 v⟩
  else if r ≤ 8 then
    let en := (spnOf s (a / 2)).assistOn.contains j && rbit s (AST_CTRL (a / 2)) (laneHead s (a / 2) j)
    ⟨4, j, b2n en * 2 ^ 31 + (clampI 0 65535 v).toNat⟩
  else ⟨5, j, (clampI 0 65535 v).toNat⟩

/-- A slot's output goes out: OUT, the tracking of MAN, MA_CMD, and the wait for a credit (R181, R183, R186). -/
def outputTaken (s : State) (e k : Nat) (v : Int) : State :=
  let a := slotAct e k
  let s1 := wrN s (BRD_SL_OUT e k) (unsgn 32 v)
  let s2 := if slotMode s e k = 2 ∧ fbit s (BRD_SL_CTRL e k) BRD_SL_CTRL_TRACK then wrN s1 (BRD_SL_MAN e k) (unsgn 32 v) else s1
  let s3 := if slotKind k = 2 then
      fset s2 (ACT_SL_PES a (k % 16 - 1)) ACT_SL_PES_MA_CMD (unsgn 16 (clampI (-32768) 32767 v)) else s2
  if avail s (a / 2) = 0 then
    evtSet (count s3 (BRD_CREDIT_WAITS e) 1 (.brd e) BRD_EVT_SAT) (.brd e) BRD_EVT_CREDIT_WAIT
  else s3

/-- Outputs of slots of one port go in one CMD flit, the spindle's entry by its instance; on a port without lanes they are discarded
(R181, R183, R201). -/
def sendOutputs (s : State) (e p : Nat) (l : List (Nat × Int)) : State :=
  if !laneMode s p then s
  else
    let s1 := forAll l s fun s x => outputTaken s e x.1 x.2
    let es := (l.filter fun x => slotKind x.1 != 3).map fun x => slotEntry s1 e x.1 x.2
    if l.any fun x => slotKind x.1 == 3 then driveOut s1 p es else sendCmd s1 p es

/-- Send the output of one slot. -/
def sendOutput (s : State) (e k : Nat) (v : Int) : State := sendOutputs s e (slotAct e k / 2) [(k, v)]

/-- A slot sends nothing now: its loop is held (R159), or it is a wedge slot whose head lane does not follow (R186). -/
def slotSilent (s : State) (e k : Nat) : Bool :=
  let a := slotAct e k
  loopHeld s e k || (slotKind k == 0 && !following s a (fget s (ACT_SRV_STAT a) ACT_SRV_STAT_REF)) ||
    (slotKind k == 2 && !following s a (k % 16 - 1))

/-- The slots of a port whose next output is due in the same cycle as that of slot `k`, itself among them (R181). -/
def dueWith (s : State) (e k : Nat) (o : Int × Nat × Bool) : List (Nat × Int × Nat × Bool) :=
  ((rangeFrom (32 * (k / 32)) 32).filterMap fun j => (bslot s e j).pend.head?.map fun x => (j, x)).filter fun x =>
    x.1 == k || !o.2.2 && !x.2.2.2 && x.2.2.1 == o.2.1

/-- An output leaves the slot: OVR tells whether it was late, and a late one is counted (R183). -/
def outputGone (s : State) (e : Nat) (x : Nat × Int × Nat × Bool) : State :=
  let s1 := fsetb (setBslot s e x.1 fun y => { y with pend := y.pend.drop 1 }) (BRD_SL_STAT e x.1) BRD_SL_STAT_OVR x.2.2.2
  if x.2.2.2 then overrun s1 e else s1

/-- BRIDLE_OUTPUT (R181, R183): at PHASE after the reference instant, or at the end of a late iteration; the outputs of the port that are
due in the same cycle go in the same flit. -/
def execBridleOutput (e : Fin 16) (k : Fin 64) (s : State) : Res :=
  .next (match (bslot s e k).pend with
    | [] => s
    | o :: _ =>
      let l := dueWith s e k o
      sendOutputs (forAll l s fun s x => outputGone s e x) e (slotAct e k / 2)
        ((l.filter fun x => !slotSilent s e x.1).map fun x => (x.1, x.2.1)))

/-- BRIDLE_SWITCH_GO (R190). -/
def execBridleSwitchGo (m : Master) (e : Fin 16) (s : State) : Res :=
  .next (regWrite s m (BRD_SW_CTRL e) fun s => switchGo s e)

/-- A slot that could iterate gets triggers: wedges of a following lane, records of a port with lanes, its timer (Table 7-1). -/
def slotTriggered (s : State) (e k : Nat) : Bool :=
  fbit s (BRD_CTRL e) BRD_CTRL_EN && !slotSilent s e k && (slotKind k == 3 || laneMode s (slotAct e k / 2))

/-- BRIDLE_SWITCH_IDLE_COPY (R190, R191): a selected slot that does not iterate, or whose following-error action is active, with no
preset. -/
def execBridleSwitchIdleCopy (e : Fin 16) (k : Fin 64) (s : State) : Res :=
  .next (let stays := !iterates s e k || fbit s (BRD_SL_STAT e k) BRD_SL_STAT_FE_ACTIVE ||
        (!(bslot s e k).ready && !slotTriggered s e k)
    if (bslot s e k).armed && stays && (engine s e).run.isNone then switchCopy s e k else s)

/-- The used slots of the mechanism on port `p`, within its engine. -/
def mechSlots (p : Nat) : List Nat := (rangeFrom (32 * (p % 2)) 32).filter slotUsed

/-- A group switch of slots of one mechanism to a set. -/
def groupSwitch (s : State) (p set : Nat) (ks : List Nat) : State :=
  let e := p / 2
  let s1 := forAll ks s fun s k => fset s (BRD_SL_SET e k) BRD_SL_SET_SW_SET set
  let mask := fun h => sumN ((ks.filter fun k => k / 32 == h).map fun k => 2 ^ (k % 32))
  switchGo (wrN (wrN s1 (BRD_SW_MASK_LO e) (mask 0)) (BRD_SW_MASK_HI e) (mask 1)) e

/-- COEF_SET of a speed-table entry of port `p`, or the override of Feature 0xD4 (R197). -/
def coefSet (s : State) (p i : Nat) : Nat := (spnOf s p).setOvr.getD ((((speedTable s p)[i]?).map (·.coefSet)).getD 255)

/-- The measured speed of a mechanism is within ± 0.2 % of a step. -/
def speedNear (s : State) (p i : Nat) : Bool := decide (1000 * absI ((speed s p : Int) - stepSpeed s p i) ≤ 2 * stepSpeed s p i)

/-- Some slice of a mechanism decides wedges. -/
def wedgesSeen (s : State) (p : Nat) : Bool := !(followers s (2 * p)).isEmpty || !(followers s (2 * p + 1)).isEmpty

/-- A wedge of head lane `l` of slice `a` counts for the speed-step change of its mechanism (R192): one head lane speaks for all. -/
def stepWedge (s : State) (a l : Nat) : State :=
  let p := a / 2
  let first := (a % 2 == 0 || (followers s (2 * p)).isEmpty) && (followers s a).head? == some l
  match (spnOf s p).step with
  | some c =>
    if first ∧ c.phase = 2 then setSpn s p fun x => { x with near := if speedNear s p c.target then x.near + 1 else 0 } else s
  | none => s

/-- A switch runs in the engine of port `p`. -/
def switching (s : State) (p : Nat) : Bool := fbit s (BRD_SW_CTRL (p / 2)) BRD_SW_CTRL_GO

/-- Step 1 of R192: the spindle slot's switch, once the engine runs no other. -/
def stepSwitch (s : State) (p : Nat) : State :=
  match (spnOf s p).step with
  | some c =>
    if c.phase = 0 ∧ spnState s p = 6 ∧ !switching s p ∧ !claimed s (baseBRD (p / 2)) then
      groupSwitch (setSpn s p fun x => { x with step := some { c with phase := 1 } }) p (coefSet s p c.target) [32 * (p % 2) + 13]
    else s
  | none => s

/-- A wedge of a slice (R219): a fly-height slot whose action has seen no further one for a loaded revolution is cleared. -/
def flyWedge (s : State) (a l : Nat) : State :=
  if (followers s a).head? ≠ some l then s
  else forAll (rangeFrom 0 4) s fun s r =>
    if !feActive s a (9 + r) then s
    else
      let p := a / 2
      let j := 4 * (a % 2) + r
      let n := tabGet 0 (spnOf s p).flyQuiet j + 1
      let s1 := setSpn s p fun x => { x with flyQuiet := tabPut x.flyQuiet j n }
      if n < 640 then s1 else fwFeClear s1 (slotOf a (9 + r))

/-- SPEED_STEP_GROUP_SWITCH (R192 step 3): the speed has been near the new step for 16 wedges, by DESIGN CHOICE now where no head
follows (log entry 49); not while a switch runs. -/
def execSpeedStepGroupSwitch (p : Fin 32) (s : State) : Res :=
  .next (match (spnOf s p).step with
    | some c =>
      let held := if wedgesSeen s p then decide (16 ≤ (spnOf s p).near) else speedNear s p c.target
      if c.phase = 2 ∧ held ∧ !switching s p ∧ !claimed s (baseBRD (p / 2)) then
        groupSwitch (setSpn s p fun x => { x with step := some { c with phase := 3 } }) p (coefSet s p c.target)
          ((mechSlots p).filter fun k => slotKind k != 3)
      else s
    | none => s)

/-- Power of an engine is asked for once a slot leaves OFF (R195). -/
def enginePower (s : State) (e : Nat) : State := domRequest s (411 + e)

/-- SLOT_MODE_WRITE (R186, R199): ignored on unused and seek-bank slots. -/
def execSlotModeWrite (m : Master) (e : Fin 16) (k : Fin 64) (mode : BitVec 2) (s : State) : Res :=
  .next (regWrite s m (BRD_SL_CTRL e k) fun s =>
    if slotUsed k then
      let s1 := fset s (BRD_SL_CTRL e k) BRD_SL_CTRL_MODE mode.toNat
      if mode = 0 then s1 else enginePower s1 e
    else s)

/-- LIVE_COEF_WRITE (R188): refused with SWERR 2 while the slot's switch is armed. -/
def execLiveCoefWrite (m : Master) (e : Fin 16) (k : Fin 64) (i : Fin 16) (value : Word) (s : State) : Res :=
  .next (regWrite s m (BRD_COEF e k i) fun s =>
    let owner := if slotKind k = 0xE then k.val - 14 else k.val
    if (bslot s e owner).armed then
      evtSet (fset s (BRD_SL_STAT e owner) BRD_SL_STAT_SWERR 2) (.brd e) BRD_EVT_SW_ERR
    else wr s (BRD_COEF e k i) value)

/-- What a following error does (R193, R213): the event and the count; the outputs that wait are held for action 1, SAFE_OUT for action 2;
OFF for action 3; and the calibration of the head of an assist slot (R355). -/
def feAction (s : State) (e k : Nat) : State :=
  let st := BRD_SL_STAT e k
  let act := fget s (BRD_SL_FE e k) BRD_SL_FE_FE_ACT
  let s1 := fsetb (setBslot s e k fun x => { x with feAct := act, feLow := 0 }) st BRD_SL_STAT_FE_ACTIVE true
  let s2 := evtSet (count s1 (BRD_FE_COUNT e) 1 (.brd e) BRD_EVT_SAT) (.brd e) BRD_EVT_FE
  let s3 := if act = 3 then
      let s3 := sendOutput (fixedOutput s2 e k []) e k 0
      fset (setBslot s3 e k fun x => { x with mode := 0 }) (BRD_SL_CTRL e k) BRD_SL_CTRL_MODE 0
    else if act = 2 then
      fixedOutput s2 e k ((bslot s2 e k).pend.map fun o => (sgn 32 (rdN s2 (BRD_SL_SAFE_OUT e k)), o.2))
    else if act = 1 then
      setBslot s2 e k fun x => { x with pend := x.pend.map fun o => (sgn 32 (rdN s2 (BRD_SL_OUT e k)), o.2) }
    else s2
  let s4 := if slotKind k = 4 then
      let p := slotAct e k / 2
      let j := 4 * (slotAct e k % 2) + (k % 16 - 5)
      let s3 := if act = 0 then s3 else calPend s3 (slotAct e k) (some (some (laneHead s3 p j % 12), none))
      evtSet (setSpn s3 p fun x => { x with recal := if x.recal.contains j then x.recal else j :: x.recal }) (.ast p)
        AST_EVT_FE_ACTION
    else if slotKind k = 5 then
      let j := 4 * (slotAct e k % 2) + (k % 16 - 9)
      evtSet (setSpn s3 (slotAct e k / 2) fun x => { x with flyQuiet := tabDel x.flyQuiet j }) (.ast (slotAct e k / 2)) AST_EVT_FE_ACTION
    else s3
  syncFe s4 e k

/-- FOLLOWING_ERROR_ACTION (R193, R213): FE_CNT has reached FE_N in AUTO. -/
def execFollowingErrorAction (e : Fin 16) (k : Fin 64) (s : State) : Res :=
  .next (let st := BRD_SL_STAT e k
    if slotUsed k ∧ (bslot s e k).mode = 2 ∧ !fbit s st BRD_SL_STAT_FE_ACTIVE ∧ feN s e k ≤ fget s st BRD_SL_STAT_FE_CNT then
      feAction s e k
    else s)

/-- FOLLOWING_ERROR_END (R194): an EVENT action after FE_N iterations within FE_LIM ÷ 2; after one of an assist slot the
head is calibrated (R355). -/
def execFollowingErrorEnd (e : Fin 16) (k : Fin 64) (s : State) : Res :=
  .next (let x := bslot s e k
    if fbit s (BRD_SL_STAT e k) BRD_SL_STAT_FE_ACTIVE ∧ x.feAct = 0 ∧ feN s e k ≤ x.feLow then
      let s1 := syncFe (fset (fsetb s (BRD_SL_STAT e k) BRD_SL_STAT_FE_ACTIVE false) (BRD_SL_STAT e k) BRD_SL_STAT_FE_CNT 0) e k
      let j := 4 * (slotAct e k % 2) + (k % 16 - 5)
      if slotKind k = 4 then calPend s1 (slotAct e k) (some (some (laneHead s1 (slotAct e k / 2) j % 12), none)) else s1
    else s)

/-- FE_CLEAR (R194). -/
def execFeClear (m : Master) (e : Fin 16) (k : Fin 64) (s : State) : Res :=
  .next (regWrite s m (BRD_SL_FE e k) fun s => if slotUsed k then feClear s e k else s)

/-- BRIDLE_ENGINE_POWEROFF (R195): every slot OFF for 64 µs; slot states go, OUT reads 0. -/
def execBridleEnginePoweroff (e : Fin 16) (s : State) : Res :=
  .next (if fbit s (BRD_CTRL e) BRD_CTRL_PWR_AUTO ∧ (rangeFrom 0 64).all (fun k => slotMode s e k == 0) ∧ domOn s (411 + e) then
    let s1 := domRelease s (411 + e)
    if domOn s1 (411 + e) then s1
    else
      let s2 := setEngine (fset (fset (fsetb s1 (BRD_STAT e) BRD_STAT_PWR false) (BRD_STAT e) BRD_STAT_Q 0) (BRD_STAT e) BRD_STAT_LOAD 0) e (fun _ => {})
      forAll (rangeFrom 0 64) s2 fun s k => wrN (setBslot s e k fun x => { armed := x.armed }) (BRD_SL_OUT e k) 0
  else s)

/-- BRD_STAT_READ (R199): PEAK_Q restarts at the slots ready now. -/
def execBrdStatRead (m : Master) (e : Fin 16) (s : State) : Res := .next (regRead s m (BRD_STAT e))

end Sys2Proof.Machine
end

