-- ==== Sys2Proof/Machine/LedgerOps.lean ====
section
/-! DEFINITION. The ballast ledger's account (R307 to R311): which mechanisms count, their energies, and the largest volume
the plan covers. Energies are in µJ rounded down; sums are compared in 0.1 nJ (log entry 14). -/
namespace Sys2Proof.Machine
open Sys2Proof

/-- The device is in SAFE (Table 12-4). -/
def inSafe (s : State) : Bool := fbit s BAL_STAT BAL_STAT_SAFE

/-- The slowest speed of the table that allows writing, 0.01 rpm; 0 where none does (R307). -/
def floorSpeed (s : State) (p : Nat) : Nat :=
  match ((speedTable s p).filter (·.writeOk)).map fun e => e.rpm * 100 with
  | [] => 0
  | x :: l => l.foldl min x

/-- The speed a request leaves the mechanism at, where one is being judged (R315): its target, else the measured speed. -/
def judgedSpeed (s : State) (ov : Option (Nat × Nat)) (p : Nat) : Nat :=
  match ov with
  | some x => if x.1 = p then x.2 else speed s p
  | none => speed s p

/-- The mechanism on port `p` is counted (R307). -/
def counted (s : State) (ov : Option (Nat × Nat)) (p : Nat) : Bool :=
  let st := spnState s p
  isBound s p && tokenMine s p && portUp s p && (st == 4 || st == 5 || st == 6 || st == 7) &&
    decide (uptime s ≤ (spnOf s p).speedAt + 1) && decide (floorSpeed s p ≠ 0) &&
    decide (floorSpeed s p ≤ judgedSpeed s ov p) && !fbit s (SPN_CHOP p) SPN_CHOP_RETIRED &&
    fbit s (SPN_CTRL p) SPN_CTRL_REGEN_EN && decide (fget s (BAL_MECH_PHYS p) BAL_MECH_PHYS_INERTIA ≠ 0)

/-- The speed-table entry in force allows writing. -/
def stepWriteOk (s : State) (p : Nat) : Bool :=
  (((speedTable s p)[fget s (SPN_STAT p) SPN_STAT_SPEED_STEP]?).map (·.writeOk)).getD false

/-- A counted mechanism is writer-capable (R307). -/
def writerCapable (s : State) (ov : Option (Nat × Nat)) (p : Nat) : Bool :=
  let u := (mechUnit s p).getD 0xFFF
  counted s ov p && spnState s p == 5 && stepWriteOk s p && anyLoaded s p && (actsOf s p).all (headsLoaded s) && srvMode s (2 * p) != 5 && srvMode s (2 * p + 1) != 5 &&
    uState s u != 5 && uState s u != 6 && decide (fget s (BAL_MECH_RATE p) BAL_MECH_RATE_RATE_W ≠ 0) &&
    (match ov with
      | some x => x.1 != p || (speedTable s p).any fun e => e.writeOk && e.rpm * 100 == x.2
      | none => true)

/-- K of a counted mechanism in µJ (R308): ETA_R × ½ × I × (ω² − ω_f²). -/
def kinetic (s : State) (ov : Option (Nat × Nat)) (p : Nat) : Nat :=
  let v := judgedSpeed s ov p
  let f := floorSpeed s p
  fget s BAL_MARGIN BAL_MARGIN_ETA_R * fget s (BAL_MECH_PHYS p) BAL_MECH_PHYS_INERTIA * (v * v - f * f) * 9869604401 /
    180000000000000000000

/-- E_C in µJ (R308). -/
def capEnergy (s : State) : Nat :=
  let v := fget s BAL_VCAP BAL_VCAP_VCAP
  let f := fget s BAL_VCAP BAL_VCAP_VFLOOR
  fget s BAL_CAP BAL_CAP_ETA_C * fget s BAL_CAP BAL_CAP_CAP_MF * (v * v - f * f) / 20000

/-- SAFE_WRITERS in use. -/
def safeWriters (s : State) : Nat := min 8 (max 1 (fget s BAL_CTRL BAL_CTRL_SAFE_WRITERS))

/-- Insert a port into a list ordered by K, the lower port first on a tie. -/
def insertByK (k : Nat → Nat) (p : Nat) : List Nat → List Nat
  | [] => [p]
  | q :: l => if k p < k q then p :: q :: l else q :: insertByK k p l

/-- Ports by rising K. -/
def sortByK (k : Nat → Nat) (l : List Nat) : List Nat := l.foldl (fun acc p => insertByK k p acc) []

/-- A list of mechanisms without its member of largest K. -/
def dropLargest (k : Nat → Nat) (l : List Nat) : List Nat := (sortByK k l).dropLast

/-- The inequality of R311 at destage time `t` ns, in 0.1 nJ. -/
def covered (s : State) (k : Nat → Nat) (ec : Nat) (d' w' : List Nat) (p1 p2 t : Nat) : Bool :=
  let prgn := fget s BAL_PWR1 BAL_PWR1_P_RGN
  let tpark := fget s BAL_TIME BAL_TIME_T_PARK * 1000000
  let have_ := ec * 10000 + sumN (d'.map fun p => min (k p * 10000) (prgn * t)) +
    sumN (w'.map fun p => min (k p * 10000) (prgn * tpark))
  decide (fget s BAL_MARGIN BAL_MARGIN_E_RES * 1000000000 + p1 * t + p2 * tpark ≤ have_)

/-- The largest `v` below `lo + 2^n` with `f v`, where `f` holds up to a point; `lo` is known to do. -/
def largest (f : Nat → Bool) : Nat → Nat → Nat
  | 0, lo => lo
  | n + 1, lo => if f (lo + 2 ^ n) then largest f n (lo + 2 ^ n) else largest f n lo

/-- An evaluation of R310 and R311. -/
def ledgerPlan (s : State) (ov : Option (Nat × Nat)) : LedgerPlan :=
  let ports := rangeFrom 0 32
  let cs := ports.filter (counted s ov)
  let cap := ports.filter (writerCapable s ov)
  let k := kinetic s ov
  let nw := min (safeWriters s) cap.length
  let ws := (sortByK k cap).take nw
  let ds := cs.filter fun p => !ws.contains p
  let w' := if 2 ≤ nw then dropLargest k ws else ws
  let drag := sumN (cs.map fun p => if ws.contains p then fget s (BAL_MECH_PWR p) BAL_MECH_PWR_DRAG_MAX
    else fget s (BAL_MECH_PWR p) BAL_MECH_PWR_DRAG_FLOOR)
  let p2 := fget s BAL_PWR0 BAL_PWR0_P_CTRL + cs.length * fget s BAL_PWR0 BAL_PWR0_P_FE
  let p1 := p2 + nw * fget s BAL_PWR1 BAL_PWR1_P_WRT + drag
  let rate := sumN (ws.map fun p => fget s (BAL_MECH_RATE p) BAL_MECH_RATE_RATE_W)
  let tOf := fun v => fget s BAL_TIME BAL_TIME_T_PREP * 1000000 + ceilDiv (v * 1048576000) rate
  let ec := capEnergy s
  let ok := fun v => covered s k ec (dropLargest k ds) w' p1 p2 (tOf v)
  let logs := sumN (ws.map fun p => fget s (ZMP_EAVE p) ZMP_EAVE_FREE)
  let vmax := if nw = 0 ∨ !ok 0 then 0 else min logs (largest ok 22 0)
  { counted := cs, capable := cap, writers := ws, donors := ds, nw := nw, vmax := vmax, ec := ec,
    ksum := sumN (cs.map k), tns := if nw = 0 then 0 else tOf vmax }

/-- c of an extent (R237): m + 1 copies under a THATCH, else 2. -/
def copyCount (s : State) (nsid : Nat) : Nat :=
  match nsBind s nsid with
  | some b =>
    match (ancestors s b.uid ++ subtree s b.uid).find? fun u => uKind s u == 4 with
    | some th => thatchM s th + 1
    | none => 2
  | none => 2

/-- k of an extent for NW writers (R309). -/
def copiesCounted (c nw : Nat) : Nat := if nw = 0 then c else min c (2 * nw)

/-- VUSED in MiB for NW writers (R309): every extent that is admitted and not released. -/
def vusedFor (s : State) (nw : Nat) : Nat :=
  ceilDiv (sumN (s.zmp.dirty.map fun e => e.count * copiesCounted (copyCount s e.nsid) nw)) 256 + nw

/-- BAL_VUSED follows the admitted extents (R312). -/
def syncVused (s : State) : State := wrN s BAL_VUSED (vusedFor s (fget s BAL_STAT BAL_STAT_NW))

/-- A request that would lower the counted energy passes (R315). -/
def requestPasses (s : State) (p target : Nat) : Bool :=
  let pl := ledgerPlan s (some (p, target))
  decide (vusedFor s pl.nw ≤ pl.vmax)

/-- A request waits (R315): STEP_HOLD, counted. -/
def holdRequest (s : State) (p kind arg : Nat) : State :=
  let s1 := { s with bal := { s.bal with held := s.bal.held.filter (fun x => !(x.1 == p && x.2.1 == kind)) ++ [(p, kind, arg)] } }
  evtSet (count s1 (BAL_CNT 1) 1 .bal BAL_EVT_SAT) .bal BAL_EVT_STEP_HOLD

end Sys2Proof.Machine
end

