-- ==== Sys2Proof/Machine/Staging.lean ====
section
/-! DEFINITION. Dirty data and where it goes (chapter 9): extents, staging in the eave, moving home, journal release, deferred
errors and lost ranges. -/
namespace Sys2Proof.Machine
open Sys2Proof

/-- Change the zone sequencers' state. -/
def setZmp (s : State) (f : ZmpState → ZmpState) : State := { s with zmp := f s.zmp }

/-- The unit a namespace is bound to. -/
def nsUnit (s : State) (n : Nat) : Option Nat := (nsBind s n).map (·.uid)

/-- Where an LBA of a zoned namespace lies: port, k, head, head lane, data slot, data sector (R227). -/
def lbaHome (s : State) (n lba : Nat) : Option (Nat × Nat × Nat × Nat × Nat × Nat) :=
  (nsUnit s n).bind fun u => mapOffset s 16 u (lba / nsZl s n) (lba % nsZl s n * 4096)

/-- The ports that hold the 4 MiB granule of an LBA of a conventional namespace (R236): granules go round-robin over the actuators; on
a THATCH each is on m + 1 members, which are that member and those after it (DESIGN CHOICE, log entry 48). -/
def granPorts (s : State) (n lba : Nat) : List Nat :=
  match nsUnit s n with
  | none => []
  | some u =>
    let acts := spanActs s u
    match acts[lba / 1024 % max 1 acts.length]? with
    | none => []
    | some p =>
      let l := portsOf s u
      if uKind s u = 4 then (rangeFrom 0 (thatchM s u + 1)).map fun d => l.getD ((l.idxOf p + d) % max 1 l.length) p else [p]

/-- The ports of the mechanisms whose media hold an LBA at home. -/
def lbaPorts (s : State) (n lba : Nat) : List Nat :=
  if nsZoned s n then ((lbaHome s n lba).map (·.1)).toList else granPorts s n lba

/-- The port of the mechanism that is home to an extent. -/
def extHome (s : State) (e : Ext) : Option Nat := (lbaPorts s e.nsid e.lba).head?

/-- The places at home that a write of an LBA is written at (R236): every copy of a conventional namespace. -/
def homeCopies (s : State) (n : Nat) : Nat := if nsZoned s n then 1 else copyCount s n

/-- BUF_DIRTY in MiB, rounded up (Table 11-7), with VUSED, follow the admitted extents. -/
def syncDirty (s : State) : State :=
  fset (syncVused s) BUF_DIRTY BUF_DIRTY_MIB (min 1024 (ceilDiv (sumN (s.zmp.dirty.map (·.count))) 256))

/-- The marker that an admitted extent carries in place of its WSEQ until its command commits. -/
def uncommitted (order : Nat) : Nat := 2 ^ 64 + order

/-- The extent's command has passed its commit point. -/
def isCommitted (e : Ext) : Bool := decide (e.wseq < 2 ^ 64)

/-- The partner frees its copy of an extent that is released (R389). -/
def mirrorRelease (s : State) (e : Ext) : State := mirror s 8 (if isCommitted e then [e.nsid, e.lba, e.count] else [e.wseq])

/-- Extents that satisfy a test leave the buffer: the ledger releases them (R309), with the partner's copies, and what of them is home
counts no more. -/
def releaseDirty (s : State) (f : Ext → Bool) : State :=
  let gone := s.zmp.dirty.filter f
  let kept := fun (x : Nat) => !gone.any fun e =>
    decide (e.nsid * 2 ^ 40 + e.lba ≤ x % 2 ^ 64) && decide (x % 2 ^ 64 < e.nsid * 2 ^ 40 + e.lba + e.count)
  let t := forAll gone s mirrorRelease
  syncDirty { t with
    zmp := { s.zmp with dirty := s.zmp.dirty.filter fun e => !f e }
    mcs := { s.mcs with home := s.mcs.home.filter kept }
    mem := { s.mem with bad := s.mem.bad.filter fun b => b.rgn != 0 || b.reported || kept b.own || decide (2 ^ 64 ≤ b.own) } }

/-- FREE accumulators follow those in use. -/
def syncAcc (s : State) : State := fset s ZMP_ACC ZMP_ACC_FREE (256 - s.zmp.accs.length)

/-! ### Deferred errors and lost ranges (R271, R234) -/

/-- A deferred error of a zone (R271). -/
def deferError (s : State) (e : Ext) : State :=
  let r := getZone s e.nsid e.zone
  let s1 := putZone s e.nsid e.zone { r with deferred := true }
  let s2 := if s1.zmp.deferred.length < 1024 then
      let t := setZmp s1 fun z => { z with deferred := z.deferred ++ [e] }
      fset t HIF_DEFER HIF_DEFER_PENDING t.zmp.deferred.length
    else evtSet s1 .hif HIF_EVT_DEFER_FULL
  zoneChanged s2 e.nsid e.zone (nsPorts s e.nsid)

/-- A lost range (R234, R249): the zone goes Read Only with WP at the start of the gap. -/
def lostRange (s : State) (e : Ext) : State :=
  let r := getZone s e.nsid e.zone
  let s1 := if nsZoned s e.nsid then
      cacheTrim (setZState (putZone s e.nsid e.zone { r with wp := min r.wp e.lba, mwp := min r.mwp e.lba }) e.nsid e.zone 0xD)
        e.nsid e.zone (min r.wp e.lba)
    else s
  let s2 := evtSet (count s1 (ZMP_CNT 7) 1 .zmp ZMP_EVT_SAT) .zmp ZMP_EVT_LOST_RANGE
  let s3 := setZmp s2 fun z => { z with lost := if z.lost.length < 64 then z.lost ++ [e] else z.lost }
  deferError s3 e

/-! ### Staging (R237, R239) -/

/-- Ports in order of free staging log, most first, the lower port on a tie. -/
def byFree (s : State) (l : List Nat) : List Nat :=
  sortByK (fun p => 65535 - fget s (ZMP_EAVE p) ZMP_EAVE_FREE) l

/-- The mechanism spins: its spindle is in RUN. -/
def spins (s : State) (p : Nat) : Bool := isBound s p && spnState s p == 5

/-- A staging log has room for an extent and its record; none is chosen once ESEQ would pass its last value (R442). -/
def logRoom (s : State) (p n : Nat) : Bool := decide (s.zmp.eseq < 2 ^ 64 - 1) && decide (stagedOn s p + n + 1 ≤ 256 * logSpace s p)

/-- The mechanisms that take an extent's copies (R237): the home first, then the freest logs; further copies on distinct
actuators. Those without room, or in thermal band 5 (R353), are not chosen. -/
def copyPorts (s : State) (home : Option Nat) (n c : Nat) (avoid : List Nat) : List Nat :=
  let cross := fbit s ZMP_CTRL ZMP_CTRL_CROSS_EN
  let all := (rangeFrom 0 32).filter fun p => spins s p && decide (fget s (THM_MECH_W0 p) THM_MECH_W0_BAND ≠ 5) && logRoom s p n && (cross || home == some p)
  let first := match home with
    | some h => if all.contains h then [h] else []
    | none => []
  let rest := byFree s (all.filter fun p => !first.contains p)
  let once := (first ++ rest).filter fun p => !avoid.contains p
  let twice := (first ++ rest).filter fun p => (templateOf s p).any fun t => decide (2 ≤ t.actuators)
  (once ++ twice.filter fun p => (avoid.filter (· == p)).length < 2).take c

/-- A dirty extent is staged with `c` copies, or stays in the buffer when no log can take a copy (R237, R239). -/
def stageExtent (s : State) (e : Ext) (c : Nat) (rewrite : Bool) : State :=
  let home := extHome s e
  let full := (rangeFrom 0 32).any fun p => spins s p && !logRoom s p e.count
  let s0 := if full then evtSet s .zmp ZMP_EVT_EAVE_FULL else s
  let ps := copyPorts s0 home e.count c []
  if ps = [] then s0
  else
    let n := s0.zmp.eseq + 1
    let s1 := setZmp s0 fun z => { z with eseq := n, staged := z.staged ++ [⟨n, e, ps, rewrite, false⟩] }
    let s2 := emitAll s1 (ps.map fun p => .media 5 (2 * p) [n, e.nsid, e.lba, e.count])
    let s3 := stagedSync (count s2 (ZMP_CNT 0) 1 .zmp ZMP_EVT_SAT)
    if c ≤ ps.length then releaseDirty s3 (· == e) else s3

/-- A mechanism can be written: spindle in RUN at a step that allows writing, heads loaded (R237), below thermal band 5 (R353). -/
def portWritable (s : State) (p : Nat) : Bool :=
  spins s p && decide (fget s (THM_MECH_W0 p) THM_MECH_W0_BAND ≠ 5) && (((speedTable s p)[fget s (SPN_STAT p) SPN_STAT_SPEED_STEP]?).any (·.writeOk)) && (actsOf s p).all (headsLoaded s)

/-- The share that the mechanism on port `p` holds of a zone of a namespace on a THATCH is left for the rebuild: its member is
unavailable, or the rebuild has not reached the zone (R243, Table 9-3). -/
def shareLeft (s : State) (n z p : Nat) : Bool :=
  match nsThatch s n with
  | some th =>
    let i := (members s th).findIdx fun v => (portsOf s v).contains p
    ((members s th)[i]?).any fun v => !availState (uState s v) || rebuildErased s th i (zoneKey n z)
  | none => false

/-- The home of an extent can be written; where its member's share is left for the rebuild, the parity members can (R237, Table 9-3). -/
def homeWritable (s : State) (e : Ext) : Bool :=
  match extHome s e with
  | some p =>
    if shareLeft s e.nsid e.zone p then
      match nsThatch s e.nsid with
      | some th => ((members s th).drop (dataMembers s th)).any fun v => (portsOf s v).any (portWritable s)
      | none => false
    else portWritable s p
  | none => false

/-- MWP of a zone after an extent came home: the first LBA that is not home yet, or the end of what was written (R229). -/
def mwpAfter (s : State) (r : ZoneRec) (e : Ext) : Nat :=
  let l := (s.zmp.dirty ++ (s.zmp.staged.filter fun x => !x.moved).map (·.ext)).filter fun x => x.nsid == e.nsid && x.zone == e.zone && x != e
  max r.mwp (l.foldl (fun m x => min m x.lba) (max r.wp (e.lba + e.count)))

/-- Every sector of an extent has status 0x20 at home: MWP advances over what is home, and the change is journalled (R229, R232). -/
def extentHome (s : State) (e : Ext) : State :=
  let r := getZone s e.nsid e.zone
  let s1 := if nsZoned s e.nsid then
      journalLater (putZone s e.nsid e.zone { r with mwp := mwpAfter s r e }) e.nsid e.zone
    else s
  emit s1 (.media 6 0 [e.nsid, e.lba, e.count])

/-- Staged extents that are home and journalled, or whose zone was reset since, are released (R238). -/
def releaseMoved (s : State) (keys : List Nat) : State :=
  releaseStaged s fun x =>
    (x.moved && keys.contains (zoneKey x.ext.nsid x.ext.zone)) ||
      decide (x.ext.wseq < (getZone s x.ext.nsid x.ext.zone).rmark)

/-- The copies on a mechanism that is lost (Table 9-3): the surviving copies are staged again up to the copy count; an
extent with no copy left is a lost range. -/
def copiesLost (s : State) (p : Nat) : State :=
  let hit := s.zmp.staged.filter fun x => x.copies.contains p && !x.moved
  let s1 := setZmp s fun z => { z with staged := z.staged.map fun x => if x.moved then x else { x with copies := x.copies.filter (· != p) } }
  stagedSync (forAll hit s1 fun s x =>
    let left := x.copies.filter (· != p)
    if left = [] then lostRange (setZmp s fun z => { z with staged := z.staged.filter fun y => y.eseq != x.eseq }) x.ext
    else
      let more := copyPorts s (extHome s x.ext) x.ext.count (copyCount s x.ext.nsid - left.length) left
      setZmp s fun z => { z with staged := z.staged.map fun y => if y.eseq = x.eseq then { y with copies := left ++ more } else y })

/-! ### Rebuild (R243, R251) -/

/-- The zones a rebuild of a THATCH covers: active zones in context order, then the others that are not Empty. -/
def rebuildZones (s : State) (u : Nat) : List Nat :=
  let ns := (ancestors s u).flatMap (nsOfUnit s)
  let act := (s.zmp.ctxs.map (·.2)).filter fun k => ns.contains (k / 2 ^ 32)
  let rest := s.zmp.zones.filter fun x => ns.contains (x.1 / 2 ^ 32) && x.2.zstate != 1 && !act.contains x.1
  act ++ rest.map (·.1)

/-- A THATCH unit that some engine rebuilds. -/
def rebuilding (s : State) (u : Nat) : Bool :=
  (rangeFrom 0 4).any fun t => fbit s (THT_RB_STAT t) THT_RB_STAT_BUSY && decide (fget s (THT_RB_CTRL t) THT_RB_CTRL_UID = u)

/-- The MECH units of member `i` of a THATCH. -/
def memberMechs (s : State) (u i : Nat) : List Nat :=
  match (members s u)[i]? with
  | some v => mechsOf s v
  | none => []

/-- The member is bound: every mechanism of it. -/
def memberBound (s : State) (u i : Nat) : Bool :=
  let l := (memberMechs s u i).filterMap fun v => (unitRec s v).map (·.loc)
  !l.isEmpty && l.all (isBound s)

/-- A rebuild is asked for (R251): refused with RESULT 1, or started with the member's MECH under CAUSE 0x81. -/
def rebuildStart (s : State) (t u i : Nat) : State :=
  let s0 := fset (fset s (THT_RB_CTRL t) THT_RB_CTRL_UID u) (THT_RB_CTRL t) THT_RB_CTRL_MEMBER i
  if !uUsed s u ∨ uKind s u ≠ 4 ∨ !memberBound s u i ∨ rebuilding s u then
    fsetb (fset s0 (THT_RB_STAT t) THT_RB_STAT_RESULT 1) (THT_RB_STAT t) THT_RB_STAT_DONE true
  else
    let zs := rebuildZones s u
    let s1 := setZmp s0 fun z => { z with rebuild := tabPut z.rebuild t zs }
    let s2 := fset (fsetb s1 (THT_RB_STAT t) THT_RB_STAT_BUSY true) (THT_RB_STAT t) THT_RB_STAT_RESULT 0
    let s3 := wrN (wrN s2 (THT_RB_ZONE t) 0) (THT_RB_TOTAL t) zs.length
    let s4 := fset (fset (fsetb s3 (THT_STAT t) THT_STAT_BUSY true) (THT_STAT t) THT_STAT_JOB 3) (THT_STAT t) THT_STAT_UID u
    let s5 := forAll (memberMechs s u i) s4 fun s v => recompute (impair s v 0x81) v
    domRequest (evtSet s5 (.tht t) THT_EVT_RB_START) (467 + t)

/-- An engine on which the firmware may start a rebuild: idle, RB_EN = 1, not claimed (Table 9-5, R20). -/
def freeEngine (s : State) : Option Nat :=
  (rangeFrom 0 4).find? fun t => !fbit s (THT_RB_STAT t) THT_RB_STAT_BUSY && fbit s (THT_CTRL t) THT_CTRL_RB_EN && !claimed s (baseTHT t) && !domFailed s (467 + t)

/-- The firmware starts the first rebuild that waits for an engine, with the whole share in REBUILD mode (R243, R247). -/
def rebuildNext (s : State) : State :=
  match s.zmp.rbQueue, freeEngine s with
  | x :: l, some t =>
    let s1 := setZmp s fun z => { z with rbQueue := l }
    rebuildStart (if mode s = 7 then fset s1 (THT_CTRL t) THT_CTRL_RB_SHARE 100 else s1) t x.1 x.2
  | _, _ => s

/-- A rebuild of engine `t` ends with a result, and the engine goes off. -/
def rebuildEnd (s : State) (t result : Nat) : State :=
  let u := fget s (THT_RB_CTRL t) THT_RB_CTRL_UID
  let i := fget s (THT_RB_CTRL t) THT_RB_CTRL_MEMBER
  let s1 := setZmp s fun z => { z with rebuild := tabDel z.rebuild t }
  let s2 := fset (fsetb (fsetb s1 (THT_RB_STAT t) THT_RB_STAT_BUSY false) (THT_RB_STAT t) THT_RB_STAT_DONE true)
    (THT_RB_STAT t) THT_RB_STAT_RESULT result
  let s3 := fset (fset (fsetb s2 (THT_STAT t) THT_STAT_BUSY false) (THT_STAT t) THT_STAT_JOB 0) (THT_STAT t) THT_STAT_UID 0xFFF
  let s4 := forAll (memberMechs s u i) s3 fun s v => recompute (unimpair s v 0x81) v
  rebuildNext (evtSet (domRelease s4 (467 + t)) (.tht t) (if result = 0 then THT_EVT_RB_DONE else THT_EVT_RB_ABORT))

/-- Rebuilds whose target is gone end with result 4, and those of a THATCH with more than m members unavailable with 3 (R243). -/
def rebuildCheck (s : State) : State :=
  forAll (rangeFrom 0 4) s fun s t =>
    let u := fget s (THT_RB_CTRL t) THT_RB_CTRL_UID
    if !fbit s (THT_RB_STAT t) THT_RB_STAT_BUSY then s
    else if !memberBound s u (fget s (THT_RB_CTRL t) THT_RB_CTRL_MEMBER) then rebuildEnd s t 4
    else if thatchM s u < (members s u).length - (available s (members s u)).length then rebuildEnd s t 3
    else s

/-- A mechanism is bound to port `p`: where it is a member of a THATCH and its SERIAL is not that of the mechanism bound there before,
the firmware has the member rebuilt (R243). The SERIAL is kept in flash (DESIGN CHOICE, log entry 48). -/
def memberSerial (s : State) (p : Nat) : State :=
  match mechUnit s p with
  | none => s
  | some v =>
    let ser := identSerial s p
    let old := (s.fls.members.find? fun x => x.1 == v).map (·.2)
    let s1 := { s with fls := { s.fls with members := tabPut s.fls.members v ser } }
    if !isBound s p ∨ old.isNone ∨ old = some ser then s1
    else match (ancestors s v).find? fun u => uKind s u == 4 && (members s u).contains v with
      | some u => rebuildNext (setZmp s1 fun z => { z with rbQueue := z.rbQueue ++ [(u, (members s u).idxOf v)] })
      | none => s1

end Sys2Proof.Machine
end

