-- ==== Sys2Proof/Machine/HostOps.lean ====
section
/-! DEFINITION. The shared operations of the host interface (chapter 10): slots, the fetched commands, their commit point,
the controllers and their power states, and the mirror stream (R389). -/
namespace Sys2Proof.Machine
open Sys2Proof

/-! ### Slots and commands (R263, R264) -/

/-- The command of a port with a SQID and CID. -/
def findCmd (s : State) (x sq cid : Nat) : Option Cmd :=
  s.host.cmds.find? fun c => c.port == x && c.sq == sq && c.cid == cid

/-- Slots that the commands of a port hold. -/
def slotsOf (s : State) (x : Nat) : Nat := (s.host.cmds.filter fun c => c.port == x).length

/-- The reserved slots of a port. -/
def slotRes (s : State) (x : Nat) : Nat :=
  if x = 0 then fget s HIF_SLOT_RES HIF_SLOT_RES_RES_A else fget s HIF_SLOT_RES HIF_SLOT_RES_RES_B

/-- A port can draw a slot: of its reserve, or of the shared ones (R263). -/
def cmdSlotFree (s : State) (x : Nat) : Bool :=
  let above := fun y => slotsOf s y - slotRes s y
  decide (slotsOf s x < slotRes s x) || decide (above 0 + above 1 < 16384 - slotRes s 0 - slotRes s 1)

/-- IN_FLIGHT follows the commands, PEAK their highest number (Table 10-9). -/
def syncSlots (s : State) : State :=
  let n := s.host.cmds.length
  let t := fset s HIF_SLOTS HIF_SLOTS_IN_FLIGHT n
  if fget t HIF_SLOTS HIF_SLOTS_PEAK < n then fset t HIF_SLOTS HIF_SLOTS_PEAK n else t

/-- Change the commands. -/
def setCmds (s : State) (f : List Cmd → List Cmd) : State := syncSlots { s with host := { s.host with cmds := f s.host.cmds } }

/-- Change one command. -/
def setCmd (s : State) (c : Cmd) (f : Cmd → Cmd) : State :=
  { s with host := { s.host with cmds := s.host.cmds.map fun d => if d.order = c.order then f d else d } }

/-- The command writes LBAs: Write, Write Zeroes, Zone Append. -/
def isWrite (c : Cmd) : Bool := c.opc == 0x01 || c.opc == 0x08 || c.opc == 0x7D

/-- The command reads LBAs: Read, Verify. -/
def isRead (c : Cmd) : Bool := c.opc == 0x02 || c.opc == 0x0C

/-- The first zone a command touches; 0 of a conventional namespace. -/
def cmdZone (s : State) (c : Cmd) : Nat := zoneOf s c.nsid c.slba

/-- The commands fetched before `c` that have not passed their commit point or ended. -/
def earlier (s : State) (c : Cmd) : List Cmd := s.host.cmds.filter fun d => decide (d.order < c.order) && d.fail.isNone

/-- The command touches zone `z` of a namespace; a Zone Management Send with Select All touches every zone. -/
def touchesZone (s : State) (n z : Nat) (c : Cmd) : Bool :=
  let zl := nsZl s n
  c.nsid == n && ((c.opc == 0x79 && c.all) ||
    (decide (c.slba < (z + 1) * zl) && decide (z * zl < c.slba + max 1 c.len)))

/-- The pointer the next write of a zone must start at (R267). -/
def predicted (s : State) (c : Cmd) : Nat :=
  let z := cmdZone s c
  (getZone s c.nsid z).wp + sumN (((earlier s c).filter fun d => isWrite d && touchesZone s c.nsid z d).map (·.len))

/-- What a command buffered is discarded; the ledger releases it (R309), with its mirror copy (R270). -/
def discardData (s : State) (c : Cmd) : State :=
  let k := uncommitted c.order
  let lo := openKey c.order 0
  let s := setMem s fun m => { m with bad := m.bad.filter fun b => !(b.rgn == 0 && decide (lo ≤ b.own) && decide (b.own < lo + c.len)) }
  if s.zmp.dirty.any fun e => e.wseq == k then releaseDirty s fun e => e.wseq == k else s

/-- A command fails: its status is fixed, and its data discarded. -/
def failCmd (s : State) (c : Cmd) (sct sc : Nat) : State :=
  discardData (setCmd s c fun d => { d with started := true, fail := some (sct, sc) }) c

/-- The data of an LBA in canonical form: zeros are not listed. -/
def putLba (s : State) (n lba v : Nat) : State :=
  setZmp s fun z => { z with lbas := if v = 0 then tabDel z.lbas (lbaKey n lba) else tabPut z.lbas (lbaKey n lba) v }

/-- What the write of `c` to an LBA, from the value `was` to `v`, means for another command over it (R268). A Read fetched
before keeps the data it was to return; one fetched after, whose data a still later write has replaced, gets `v` unless a
write fetched between the two has passed its commit point. A write fetched before is superseded there. -/
def freezeCmd (c : Cmd) (lba was v : Nat) (d : Cmd) : Cmd :=
  let i := lba - d.slba
  let old := d.frozen.find? fun x => x.1 == i
  if d.nsid ≠ c.nsid ∨ lba < d.slba ∨ d.slba + d.len ≤ lba then d
  else if isRead d then
    if d.order < c.order then (if old.isNone then { d with frozen := tabPut d.frozen i was } else d)
    else if old.isSome ∧ !(c.frozen.any fun x => x.1 == lba - c.slba && decide (x.2 < d.order)) then
      { d with frozen := tabPut d.frozen i v }
    else d
  else if isWrite d ∧ d.order < c.order then
    { d with frozen := tabPut d.frozen i (min c.order ((old.map (·.2)).getD c.order)) }
  else d

/-- Every other command over an LBA takes note of the write of `c`. -/
def freezeCmds (s : State) (c : Cmd) (lba v : Nat) : State :=
  let l := s.host.cmds.map (freezeCmd c lba (lbaData s c.nsid lba) v)
  { s with host := { s.host with cmds := l } }

/-- The data of a write takes its place, in the buffer and the cache (R268, R300), but where a write fetched later has passed
its commit point; what was read of its LBAs before counts no more. -/
def placeData (s : State) (c : Cmd) (slba : Nat) : State :=
  let fresh := fun (x : Nat × Nat) => !(decide (lbaKey c.nsid slba ≤ x.1) && decide (x.1 < lbaKey c.nsid slba + c.len))
  forAll (rangeFrom 0 c.len) { s with det := { s.det with failed := s.det.failed.filter fresh } } fun s i =>
    let v := c.data.getD i 0
    let s1 := freezeCmds s c (slba + i) v
    if c.frozen.any fun x => x.1 == slba + i - c.slba then s1
    else cacheWrite (putLba s1 c.nsid (slba + i) v) c.nsid (slba + i) v

/-! ### Controllers (R258) -/

/-- Every command of a port that has not passed its commit point ends without a completion entry (R258). -/
def endCommands (s : State) (x : Nat) : State :=
  let s1 := forAll (s.host.cmds.filter fun c => c.port == x) s discardData
  setCmds s1 fun l => l.filter fun c => c.port != x

/-- The power state a controller requests: PS4 where it is disabled or its port is down (R277). -/
def psReq (s : State) (x : Nat) : Nat :=
  if (ctl s x).enabled && fbit s (HIF_PORT_STAT x) HIF_PORT_STAT_LINK_UP && !(ctl s x).d3hot then
    fget s (HIF_PORT_STAT x) HIF_PORT_STAT_PS_REQ
  else 4

/-- The state the device is to run at (R277). -/
def psTarget (s : State) : Nat := if portExists s 1 then min (psReq s 0) (psReq s 1) else psReq s 0

/-- ENTERING tells whether the state to run at differs from the one in force (R278). -/
def psSync (s : State) : State := fsetb s HIF_PWR HIF_PWR_ENTERING (decide (psTarget s ≠ fget s HIF_PWR HIF_PWR_PS_EFF))

/-- The Set Features Power Management of port `x` that waits completes, and the next one behind it sets the state it asks
for (R278). -/
def pmNext (s : State) (x : Nat) : State :=
  match (ctl s x).pmWait with
  | [] => s
  | c :: l =>
    let s1 := adminOk (setCtl s x fun k => { k with pmWait := l }) x c.1 0
    match l with
    | [] => s1
    | d :: _ => psSync (fset s1 (HIF_PORT_STAT x) HIF_PORT_STAT_PS_REQ d.2)

/-- While no transition runs, the commands that wait for one complete; in SAFE they wait on (Table 13-7). `n` bounds the
number of commands. -/
def pmSettle : Nat → State → State
  | 0, s => s
  | n + 1, s =>
    if fbit s HIF_PWR HIF_PWR_ENTERING || inSafe s then s
    else if !(ctl s 0).pmWait.isEmpty then pmSettle n (pmNext s 0)
    else if !(ctl s 1).pmWait.isEmpty then pmSettle n (pmNext s 1)
    else s

/-- A change of the state to run at begins a transition, or ends the wait for one (R278). -/
def psUpdate (s : State) : State :=
  pmSettle ((ctl s 0).pmWait.length + (ctl s 1).pmWait.length) (psSync s)

/-- Change background work's state. -/
def setBgw (s : State) (f : BgwState → BgwState) : State := { s with bgw := f s.bgw }

/-- The calibration steps of actuators are abandoned (Table 14-6): the saved values are restored, RESULT aborted; the
calibration stays pending. -/
def abandonCal (s : State) (acts : List Nat) : State :=
  let hit := s.bgw.jobs.filter fun j => acts.contains j.act
  forAll hit (setBgw s fun b => { b with jobs := b.jobs.filter fun j => !acts.contains j.act }) fun s j =>
    fset (forAll j.saved s fun s r => wr s r.1 r.2) (THM_ACT j.act) THM_ACT_RESULT 3

/-- The calibrations that the self-test alone asked for are given up. -/
def dropVerify (s : State) : State :=
  let s1 := abandonCal s s.bgw.verify
  forAll s1.bgw.verify (setBgw s1 fun b => { b with verify := [] }) fun s a => wbit s (BGW_CALQ_LO + 4 * (a / 32)) (a % 32) false

/-- A self-test operation ends with a result: log page 0x06, BGW_DST, the command's completion (R359, R360). -/
def selfTestEnd (s : State) (result seg : Nat) : State :=
  let x := s.host.selfTest
  if x.kind = 0 then s
  else
    let h := { s.host with selfTest := { kind := 0, step := 0, abort := false, failed := 0, cmd := none,
                                         results := ((x.kind, result, seg) :: x.results).take 20 } }
    let s1 := fset (fset (dropVerify { s with host := h }) BGW_DST BGW_DST_OP 0) BGW_DST BGW_DST_RESULT result
    let s2 := fset (fset s1 BGW_DST BGW_DST_STEP 0) BGW_DST BGW_DST_PERCENT 0
    match x.cmd with
    | none => s2
    | some c => if result = 0 ∨ result = 7 then adminOk s2 c.1 c.2 0 else adminEnd s2 c.1 c.2 0 0x07

/-- A command of the controller of port `x` that waits ends without a completion. -/
def dropCmd (x : Nat) (c : Option (Nat × Nat)) : Option (Nat × Nat) := c.filter fun y => y.1 != x

/-- The admin commands of a controller that wait for something end without a completion entry (R258). -/
def dropAdmin (s : State) (x : Nat) : State :=
  let j := fun (l : LoadJob) => { l with cmd := dropCmd x l.cmd }
  { s with
    trs := { s.trs with job := s.trs.job.map j, waiting := s.trs.waiting.filter fun l => l.cmd.all fun c => c.1 != x }
    pwr := { s.pwr with cmd := dropCmd x s.pwr.cmd }
    bgw := { s.bgw with asked := s.bgw.asked.map fun y => (y.1, y.2.1, dropCmd x y.2.2) }
    spn := s.spn.map fun y => (y.1, { y.2 with testCmd := dropCmd x y.2.testCmd, ovrCmd := dropCmd x y.2.ovrCmd })
    cch := { s.cch with cmd := dropCmd x s.cch.cmd }
    mem := { s.mem with cmd := dropCmd x s.mem.cmd }
    prt := { s.prt with hoCmd := dropCmd x s.prt.hoCmd, upCmd := dropCmd x s.prt.upCmd }
    host := { s.host with selfTest := { s.host.selfTest with cmd := dropCmd x s.host.selfTest.cmd } } }

/-- The controller of a port is reset (R258): its commands end, its queues and features are gone, and a self-test is
abandoned (R360). -/
def controllerReset (s : State) (x : Nat) : State :=
  let s1 := selfTestEnd (dropAdmin (endCommands s x) x) 2 s.host.selfTest.step
  let s2 := setCtl s1 x fun c => { perst := c.perst, d3hot := false, msix := true }
  let s3 := { s2 with evt := { s2.evt with
    aers := s2.evt.aers.filter fun r => r.1 != x
    held := s2.evt.held.filter fun r => r.1 != x
    vendorMasked := s2.evt.vendorMasked.filter fun r => r != x } }
  psUpdate (fset (wrN s3 (HIF_PORT_QUEUES x) 0) (HIF_PORT_STAT x) HIF_PORT_STAT_PS_REQ 0)

/-- The link of a port is down. -/
def linkDown (s : State) (x : Nat) : State :=
  let s1 := fsetb s (HIF_PORT_STAT x) HIF_PORT_STAT_LINK_UP false
  fset (fset s1 (HIF_PORT_STAT x) HIF_PORT_STAT_SPEED 0) (HIF_PORT_STAT x) HIF_PORT_STAT_WIDTH 0

/-- CSTS.RDY rises for every enabled controller once BOOT has ended (R339). -/
def raiseReady (s : State) : State :=
  if fget s PWR_MODE PWR_MODE_MODE < 2 then s
  else forAll [0, 1] s fun s x => setCtl s x fun c => { c with ready := c.enabled }

/-- An I/O command in a non-operational state: the device returns to the last operational one, and the controller reports
that; while such a state is being entered, the entry ends first (R278). -/
def ioWakesPower (s : State) (x : Nat) : State :=
  if fbit s HIF_PWR HIF_PWR_ENTERING then
    if 3 ≤ psTarget s then { s with host := { s.host with psWake := some x } } else s
  else if 3 ≤ fget s HIF_PWR HIF_PWR_PS_EFF then
    let s1 := fset s (HIF_PORT_STAT x) HIF_PORT_STAT_PS_REQ s.host.lastOp
    psUpdate (fset s1 HIF_PWR HIF_PWR_PS_EFF s.host.lastOp)
  else s

/-! ### Deferred errors (R272) -/

/-- The flagged zones a command touches. -/
def deferredZones (s : State) (c : Cmd) : List Nat :=
  if c.opc == 0x7A || c.opc == 0x00 then []
  else (listedZones s c.nsid).filter fun z => (getZone s c.nsid z).deferred && touchesZone s c.nsid z c

/-- The deferred errors of a command's zones are reported by it (R272): Write Fault, an Error Information entry with the
first failing LBA of the lowest zone, and the flags and entries cleared. -/
def reportDeferred (s : State) (c : Cmd) (zs : List Nat) : State :=
  let z0 := zs.foldl min (zs.headD 0)
  let e := (s.zmp.deferred.filter fun e => e.nsid == c.nsid && e.zone == z0).map (·.lba)
  let s1 := logError s c.port c.sq c.cid 2 0x80 c.nsid (e.foldl min (2 ^ 64 - 1))
  let s2 := forAll zs s1 fun s z => putZone s c.nsid z { getZone s c.nsid z with deferred := false }
  let s3 := setZmp s2 fun y => { y with deferred := y.deferred.filter fun e => !(e.nsid == c.nsid && zs.contains e.zone) }
  let s4 := count (fset s3 HIF_DEFER HIF_DEFER_PENDING s3.zmp.deferred.length) (HIF_PORT_CNT c.port 6) 1 .hif HIF_EVT_SAT
  failCmd s4 c 2 0x80

/-! ### Completion (R265) -/

/-- The completion queue of a command has a free entry, by the head the host's doorbell last gave. -/
def cqRoom (s : State) (x sq : Nat) : Option (Nat × Cq) :=
  let k := ctl s x
  match k.sqs.find? fun q => q.1 == sq with
  | none => none
  | some q =>
    match k.cqs.find? fun d => d.1 == q.2.cq with
    | none => none
    | some d => if (d.2.tail + 1) % (max 1 d.2.size) = d.2.head then none else some d

/-- The completion entry of a command is written: its slot is free, its interrupt goes out. -/
def postCqe (s : State) (c : Cmd) (q : Nat) (cq : Cq) (sct sc dw0 dw1 : Nat) : State :=
  let s1 := setCtl s c.port fun k => { k with cqs := tabPut k.cqs q { cq with tail := (cq.tail + 1) % (max 1 cq.size) } }
  let s2 := setCmds s1 fun l => l.filter fun d => d.order != c.order
  let s3 := completeDnr s2 c.port c.sq c.cid sct sc dw0 dw1 (if (sct, sc) = (0, 0xC1) then some c.gone else dnrOf sct sc)
  if cq.ien then hostIrq s3 c.port cq.vec else s3

end Sys2Proof.Machine
end

