-- ==== Sys2Proof/Machine/ModeOps.lean ====
section
/-! DEFINITION. The modes of the device (R332 to R335), the checkpoint it writes at each entry to LOBBY (R233, R426), and the
erases and programs of the firmware's own stores (R431, R433). -/
namespace Sys2Proof.Machine
open Sys2Proof

/-- Change the power manager's state. -/
def setPwr (s : State) (f : PwrState → PwrState) : State := { s with pwr := f s.pwr }

/-- Change the flash store. -/
def setFls (s : State) (f : FlsState → FlsState) : State := { s with fls := f s.fls }

/-! ### Flash (chapter 18) -/

/-- The erase counter of a block goes up as an erase starts (R433). -/
def eraseCount (s : State) (b : Nat) : State :=
  let n := fget s (FLS_ECNT b) FLS_ECNT_COUNT
  let s1 := fset (fset s (FLS_ECNT b) FLS_ECNT_PMAX 0) (FLS_ECNT b) FLS_ECNT_COUNT (min (n + 1) (2 ^ 24 - 1))
  let s2 := count s1 (FLS_CNT 2) 1 .fls FLS_EVT_SAT
  if n + 1 = 2 ^ 24 - 1 then evtSet s2 .fls FLS_EVT_ECNT_SAT else s2

/-- WEAR of the shelf root follows the highest erase count of an unretired block (R436). -/
def syncFlashWear (s : State) : State :=
  let m := maxN ((rangeFrom 0 512).map fun b =>
    if fbit s (FLS_ECNT b) FLS_ECNT_RETIRED then 0 else fget s (FLS_ECNT b) FLS_ECNT_COUNT)
  fset s (TRS_UNIT_HEALTH 0) TRS_UNIT_HEALTH_WEAR (min 255 (100 * m / 100000))

/-- Block `b` belongs to the firmware area of the active bank. -/
def activeFwBlock (s : State) (b : Nat) : Bool :=
  if fget s PRT_FW PRT_FW_ACTIVE_BANK = 0 then decide (b < 196) else decide (256 ≤ b ∧ b < 452)

/-- Block `b` holds the firmware's own data again. -/
def blockStored (s : State) (b : Nat) : State :=
  setFls s fun f =>
    { f with erased := f.erased.filter (· != b), pages := f.pages.filter (fun x => x.1 / 256 != b),
             torn := f.torn.filter fun x => x.1 != b }

/-- A block is retired (R435). -/
def flsRetired (s : State) (b : Nat) : Bool := fbit s (FLS_ECNT b) FLS_ECNT_RETIRED

/-- The block that serves for block `b`: itself, or its replacement where it is retired; none where it has none (R425). -/
def servingBlock (s : State) (b : Nat) : Option Nat :=
  if !flsRetired s b then some b
  else ((s.fls.remap.find? fun x => x.1 == b).map (·.2)).filter fun k => !flsRetired s k

/-- How many of the `n` blocks of an area from block `b` have none to serve for them (R435). -/
def areaShort (s : State) (b n : Nat) : Nat := ((rangeFrom b n).filter fun k => (servingBlock s k).isNone).length

/-- The firmware erases `n` blocks from block `b`, or what serves for them, and programs their pages. The pulses each program
takes are a free value. -/
def storeBlocks (s : State) (b n : Nat) : State :=
  syncFlashWear (forAll ((rangeFrom b n).filterMap (servingBlock s)) s fun s b =>
    let s1 := drawn (eraseCount (blockStored s b) b)
    let k := 1 + freeVal s % 12
    let s2 := count (count s1 (FLS_CNT 0) 256 .fls FLS_EVT_SAT) (FLS_CNT 1) (256 + freeVal s1 % (256 * k)) .fls FLS_EVT_SAT
    drawn (fset s2 (FLS_ECNT b) FLS_ECNT_PMAX k))

/-- The firmware programs `n` pages of a store it appends to. The pulses are a free value. -/
def programPages (s : State) (n : Nat) : State :=
  count (count (drawn s) (FLS_CNT 0) n .fls FLS_EVT_SAT) (FLS_CNT 1) (n + freeVal s % (11 * n + 1)) .fls FLS_EVT_SAT

/-- The descriptors a checkpoint holds: those that are not Empty with RMARK = 0, active, Read Only and Offline zones first,
then by NSID and zone, up to the limit (R233, R426). -/
def ckptZones (s : State) : List (Nat × ZoneRec) :=
  let all := s.zmp.zones.filter fun x => !(x.2.zstate == 1 && x.2.rmark == 0)
  let first := all.filter fun x => zActive x.2.zstate || x.2.zstate == 0xD || x.2.zstate == 0xF
  first ++ all.filter fun x => !(zActive x.2.zstate || x.2.zstate == 0xD || x.2.zstate == 0xF)

/-- Calibration values and accounts go to the flash with a checkpoint (R361), kept by the mechanism's SERIAL. -/
def storeCal (s : State) (p : Nat) : State :=
  let serial := identSerial s p
  setFls s fun f =>
    { f with cal := (serial, (calRegs p).map fun r => (r.1, rd s r.2)) :: f.cal.filter fun x => x.1 != serial }

/-- The slot a checkpoint goes to: the one that does not hold the newest one, nor, while old format copies are kept, the newest one of
the old version (R425). -/
def ckptSlot (s : State) : Nat :=
  if s.fls.oldCopies then 1 - s.fls.oldSlot else if s.fls.ckpt.isSome then 1 - s.fls.slot else s.fls.slot

/-- The descriptors that a slot holds: 57,216, fewer where blocks of it have no replacement (R426, R435). -/
def ckptRoom (s : State) (slot : Nat) : Nat :=
  (65536 * (28 - areaShort s (if slot = 0 then 228 else 460) 28) - 4096) / 32

/-- A checkpoint is written; while FLS is claimed it waits (R425, R437). -/
def checkpoint (s : State) : State :=
  if claimed s baseFLS then setFls s fun f => { f with due := true }
  else
    let slot := ckptSlot s
    let room := ckptRoom s slot
    let zs := ckptZones s
    let c : Ckpt :=
      { zones := (zs.take room).foldl (fun t x => tabPut t x.1 x.2) [], jseq := s.zmp.jseq
        tails := s.trs.bound.map fun p => (p, logTail s p 0, logTail s p 1), uptime := uptime s
        credits := (rangeFrom 0 227).map fun t => rd s (BGW_TASK_CREDIT t), trunc := decide (room < zs.length), clean := false }
    let s1 := storeBlocks s (if slot = 0 then 228 else 460) 28
    setFls (forAll s.trs.bound s1 storeCal) fun f =>
      { f with ckpt := some c, older := if slot = f.slot then f.older else f.ckpt, slot := slot, due := false, ckptBad := false }

/-- SPARE blocks that are free, in order. -/
def flashSpares (s : State) : List Nat :=
  (rangeFrom 488 24).filter fun b => !flsRetired s b && !s.fls.remap.any fun x => x.2 == b

/-- A block outside FW0 and FW1 is lost for want of a replacement (R435): a truss base copy with it. -/
def blockLost (s : State) (b : Nat) : State :=
  let s1 := rootGrade s 1 0xE1
  if 196 ≤ b ∧ b < 200 then { s1 with trs := { s1.trs with bases := updAt s1.trs.bases 0 fun _ => [] } }
  else if 452 ≤ b ∧ b < 456 then { s1 with trs := { s1.trs with bases := updAt s1.trs.bases 1 fun _ => [] } }
  else s1

/-- The firmware moves what the retired blocks of its areas hold to SPARE blocks and records the moves (R425, R435); not while FLS is
claimed. -/
def remapBlocks (s : State) : State :=
  if claimed s baseFLS then s
  else forAll ((rangeFrom 196 60 ++ rangeFrom 452 36).filter fun b => (servingBlock s b).isNone) s fun s b =>
    match flashSpares s with
    | k :: _ => storeBlocks (setFls s fun f => { f with remap := tabPut f.remap b k }) k 1
    | [] => blockLost s b

/-- The wait states the flash clock and the supply band need (Table 18-2); none is stated for VBAND 2. -/
def minWs (s : State) : Option Nat :=
  let v := fget s FLS_STAT FLS_STAT_VBAND
  if v = 2 ∨ v = 3 then none
  else if fbit s FLS_RDCFG FLS_RDCFG_CLKSEL then some 0 else if v = 0 then some 12 else some 17

/-- The firmware keeps WS at its Table 18-2 value (R438), unless FLS is claimed (R20). -/
def wsFollow (s : State) : State :=
  match minWs s with
  | some n => if claimed s baseFLS ∨ s.pwr.bootStep = 0 then s else fset s FLS_RDCFG FLS_RDCFG_WS n
  | none => s

/-- The firmware erases a chopper's retirement record once an expert has cleared the retirement and given the claim back
(R219, the procedure of chapter 8). -/
def choppersFollow (s : State) : State :=
  forAll s.trs.bound s fun s p =>
    if claimed s (baseSPN p) || fbit s (SPN_CHOP p) SPN_CHOP_RETIRED then s
    else setFls s fun f => { f with choppers := f.choppers.filter (· != identSerial s p) }

/-- When a claim has ended, the firmware resumes its policies of the store (R21): a checkpoint that waited for the claim is
written (R437), retired blocks are replaced (R435), and WS follows the supply band again (R438). -/
def claimsFreed (s : State) : State :=
  let t := remapBlocks s
  pagePolicy <| rebuildNext <| choppersFollow (wsFollow (if t.fls.due && !claimed t baseFLS then checkpoint t else t))

/-- Every claim a master holds is released (R21). -/
def releaseClaims (s : State) (id : Nat) : State := claimsFreed (releaseHeldBy s id)

/-! ### Modes (R332, R334) -/

/-- Envelope of a power state (Table 13-5). -/
def envOf (ps : Nat) : Nat := min ps 3

/-- ENV follows the power state in force; BOOT, WATCH and LOBBY have none. -/
def syncEnv (s : State) : State :=
  fset s PWR_MODE PWR_MODE_ENV (if mode s < 3 then 3 else envOf (fget s HIF_PWR HIF_PWR_PS_EFF))

/-- The parity accumulators of tracks and rows are lost, in SAFE and at a change of role (R139, R241). -/
def loseAccs (s : State) : State :=
  fset { s with
    det := { s.det with tracks := s.det.tracks.map fun t => (t.1, { t.2 with cols := none }) }
    zmp := { s.zmp with accs := [], accLost := s.zmp.accs.map lostAcc ++ s.zmp.accLost } } ZMP_ACC ZMP_ACC_FREE 256

/-- Every claim is released at the entry of SAFE and HANDOVER (R21), a checkpoint written at the entry of LOBBY (R233). -/
def modeEntry (s : State) (m : Nat) : State :=
  if m = 2 then checkpoint s
  else if m = 9 then claimsFreed (releaseAll s)
  else if m = 0xA then claimsFreed (releaseAll (loseAccs s))
  else s

/-- The device changes to mode `m` for a cause (Table 13-9). -/
def setMode (s : State) (m cause : Nat) : State :=
  if mode s = m then s
  else
    let s1 := fset (fset s PWR_MODE PWR_MODE_PREV (mode s)) PWR_MODE PWR_MODE_MODE m
    let s2 := syncEnv (fset s1 PWR_MODE PWR_MODE_CAUSE cause)
    modeEntry (evtSet (count s2 (PWR_CNT 0) 1 .pwr PWR_EVT_SAT) .pwr PWR_EVT_MODE) m

/-- R61's tree of the root alone holds. -/
def rootOnly (s : State) : Bool := decide (s.trs.run.units.length ≤ 1)

/-- A rebuild runs (R243). -/
def rebuildRuns (s : State) : Bool := s.zmp.rebuild != []

/-- FORCE. -/
def force (s : State) : Nat := fget s PWR_MODE PWR_MODE_FORCE

/-- SWEEP_IDLE in ms. -/
def sweepIdle (s : State) : Nat := max 1 (fget s PWR_CFG PWR_CFG_SWEEP_IDLE) * 10000

/-- A scrub or eave-moving task is DUE or URGENT (R332). -/
def sweepDue (s : State) : Bool :=
  (rangeFrom 0 64 ++ rangeFrom 128 32).any fun t => fget s (BGW_TASK_CTRL t) BGW_TASK_CTRL_STATE != 0

/-- Steps 1 and 2 of the choice rule, then what steps 3 and 4 have in force (R332). -/
def chosenMode (s : State) : Nat :=
  if rebuildRuns s ∧ fbit s PWR_CFG PWR_CFG_REB_AUTO then 7
  else if sweepIdle s ≤ uptime s - s.pwr.lastIo ∧ sweepDue s then 6
  else s.pwr.base

/-- The mode R332 lays down, with the CAUSE of a change to it; LOBBY is kept while SHELF_PFAIL_N stays asserted after BOOT
(Table 13-7). -/
def ruleMode (s : State) : Nat × Nat :=
  let ps := fget s HIF_PWR HIF_PWR_PS_EFF
  if rootOnly s then (2, 8)
  else if mode s = 2 ∧ fbit s BAL_STAT BAL_STAT_PFAIL then (2, 4)
  else if 3 ≤ ps then (2, 1)
  else if 1 ≤ ps then (3, 1)
  else if force s ≠ 0 ∧ force s ≠ 0xB ∧ (force s ≠ 7 ∨ rebuildRuns s) then (force s, 3)
  else (chosenMode s, 2)

/-- The device is in one of the modes that R332 chooses among. -/
def ruleApplies (s : State) : Bool := isActiveRole s && decide (2 ≤ mode s ∧ mode s ≤ 7)

/-- The mode follows R332, but for a transition of the power state under way (Table 13-7) and a wait for MAINT (Table 13-6). -/
def applyRule (s : State) : State :=
  if ruleApplies s ∧ !fbit s HIF_PWR HIF_PWR_ENTERING ∧ force s ≠ 0xB then setMode s (ruleMode s).1 (ruleMode s).2 else s

/-- The power state in force changes (R277): envelope and mode follow. -/
def setPs (s : State) (ps : Nat) : State :=
  let s1 := fset s HIF_PWR HIF_PWR_PS_EFF ps
  let s2 := if ps ≤ 2 then { s1 with host := { s1.host with lastOp := ps } } else s1
  applyRule (syncEnv s2)

/-- An I/O command is fetched: it ends SWEEP (R332), and brings the device back from a non-operational state (R278). -/
def ioFetched (s : State) (x : Nat) : State :=
  let s1 := setPwr s fun w => { w with lastIo := uptime s }
  let s2 := if mode s1 = 6 ∧ force s1 = 0 then applyRule s1 else s1
  let s3 := ioWakesPower s2 x
  if 3 ≤ fget s2 HIF_PWR HIF_PWR_PS_EFF ∧ !fbit s2 HIF_PWR HIF_PWR_ENTERING then applyRule (syncEnv s3) else s3

/-- The arbiter fetches I/O entries (R332, R334, R316): not in BOOT, SAFE or MAINT, nor while MAINT is awaited. -/
def fetchRuns (s : State) : Bool :=
  !(mode s == 0 || mode s == 1 || mode s == 0xA || mode s == 0xB) && force s != 0xB

end Sys2Proof.Machine
end

