-- ==== Sys2Proof/Machine/MemOps.lean ====
section
/-! DEFINITION. Where poison is found, and the outcome (R292, Table 11-5); the memory errors that a read finds (R288). -/
namespace Sys2Proof.Machine
open Sys2Proof

/-- A command's data is written to the write buffer (region 0), LBA by LBA; an armed flip may fire on it (R289, R294). -/
def bufferWritten (s : State) (c : Cmd) : State :=
  forAll (rangeFrom 0 c.len) s fun s i => lineWritten s 0 (openKey c.order i) none

/-- The mark of a write's lines goes on under the keys of its LBAs as it commits; older data of theirs is gone. -/
def settleLines (s : State) (c : Cmd) (lba : Nat) : State :=
  if s.mem.bad = [] then s
  else
    let old := fun (b : BadLine) => b.rgn == 0 && decide (lbaKey c.nsid lba ≤ b.own) && decide (b.own < lbaKey c.nsid lba + c.len)
    let lo := openKey c.order 0
    setMem s fun m =>
      { m with bad := (m.bad.filter fun b => !old b).map fun b =>
          if b.rgn = 0 ∧ lo ≤ b.own ∧ b.own < lo + c.len then { b with own := lbaKey c.nsid (lba + (b.own - lo)) } else b }

/-- A dirty LBA leaves the buffer. -/
def dropDirtyLba (s : State) (n lba : Nat) : State :=
  let cut := fun (e : Ext) =>
    if e.nsid = n ∧ isCommitted e ∧ e.lba ≤ lba ∧ lba < e.lba + e.count then
      (if e.lba < lba then [{ e with count := lba - e.lba }] else []) ++
        (if lba + 1 < e.lba + e.count then [{ e with lba := lba + 1, count := e.lba + e.count - (lba + 1) }] else [])
    else [e]
  syncDirty (setZmp s fun z => { z with dirty := z.dirty.flatMap cut })

/-- A poisoned line of the write buffer is met (Table 11-5): with a standby partner whose copy is good it is fetched from there
and rewritten; else its sector is a lost range, once. -/
def bufferPoison (s : State) (n lba : Nat) : State :=
  let key := lbaKey n lba
  match badLine s 0 key with
  | none => s
  | some b =>
    if b.reported then s
    else if standbyThere s ∧ fbit s PRT_STAT PRT_STAT_MIRROR_VALID ∧ !b.mirrorBad then dropBad (emit s (.peer 9 [n, lba])) 0 key
    else if nsZoned s n then
      lostRange (dropDirtyLba (setBad s 0 key fun b => { b with reported := true }) n lba) ⟨n, zoneOf s n lba, lba, 1, 0⟩
    else s

/-- A consumer reads an LBA in the write buffer (R288, R292). -/
def poisonRead (s : State) (n lba : Nat) : State :=
  let r := lineRead s 0 (lbaKey n lba)
  if r.2 then bufferPoison r.1 n lba else r.1

/-- The data of an extent is read from the buffer on its way to the media: no poisoned line gets there (R292). -/
def sweepExt (s : State) (e : Ext) : State :=
  let mine := s.mem.bad.filter fun b => b.rgn == 0 && decide (lbaKey e.nsid e.lba ≤ b.own) &&
    decide (b.own < lbaKey e.nsid e.lba + e.count)
  forAll mine s fun s b => poisonRead s e.nsid (b.own % 2 ^ 40)

/-- A cached LBA is read: a poisoned sub-block is invalidated; of a dirty one the data is discarded (Table 11-5). -/
def cachePoison (s : State) (n lba : Nat) : State :=
  match cacheFind s n (lba / 32) with
  | none => s
  | some f =>
    match cacheLine s f with
    | none => s
    | some l =>
      let b := 2 ^ (lba % 32)
      if l.valid / b % 2 = 0 then s
      else
        let r := lineRead s 3 (32 * f + lba % 32)
        if r.2 then
          dropBad (putLine r.1 f { l with valid := l.valid - l.valid / b % 2 * b, dirty := l.dirty - l.dirty / b % 2 * b }) 3
            (32 * f + lba % 32)
        else r.1

/-- The entry of a command lies in a poisoned line (Table 11-5): Internal Error, and the shelf root's CAUSE. -/
def cmdPoison (s : State) (c : Cmd) : State := rootGrade (failCmd s c 0 0x06) 3 0x92

/-- A line of SRAM with an error no code corrects, by its bank (Table 11-5). Which LLRs, frame, command or track lie in it is a
free value. -/
def sramPoison (s : State) (addr : Nat) : State :=
  let bank := addr / 2 ^ 21 % 32
  let k := freeVal s
  let s1 := drawn s
  if bank < 8 then eraseLine s (32 * bank + addr % 2 ^ 21 / 65536) (addr % 65536)
  else if bank < 16 then
    match s.det.llrs[k % max 1 s.det.llrs.length]? with
    | some x => zeroLlrs s1 x.1 (addr % 32768)
    | none => s
  else if bank = 16 then
    match s.cch.lines[k % max 1 s.cch.lines.length]? with
    | some x => putLine s1 x.1 { x.2 with valid := 0, dirty := 0 }
    | none => s
  else if bank < 24 then
    match s.host.cmds[k % max 1 s.host.cmds.length]? with
    | some c => if c.fail.isNone then cmdPoison s1 c else rootGrade s1 3 0x92
    | none => rootGrade s 3 0x92
  else if bank < 29 then
    match s.det.tracks[k % max 1 s.det.tracks.length]? with
    | some t => rootGrade (setDet s1 fun d => { d with tracks := tabPut d.tracks t.1 { t.2 with cols := none } }) 3 0x92
    | none => rootGrade s 3 0x92
  else rootGrade s 3 0x92

/-- A line of DRAM with an error that no code corrects, by its region (Table 11-5): a sector of the write buffer is poisoned, an
accumulator discarded (which one is a free value), a cache sub-block invalidated. A table entry of region 1 is rebuilt from the
journal at once (DESIGN CHOICE, log entry 51). -/
def dramPoison (s : State) (rgn addr n lba : Nat) (mirrorBad : Bool) : State :=
  if rgn = 0 then addPoison s 0 (lbaKey n lba) addr mirrorBad
  else if rgn = 2 then
    match s.zmp.accs[freeVal s % max 1 s.zmp.accs.length]? with
    | some a => syncAcc (setZmp (drawn s) fun z => { z with accs := z.accs.erase a, accLost := lostAcc a :: z.accLost })
    | none => s
  else if rgn = 3 then
    let sub := (addr - 0x80000000) / 4096
    let b := 2 ^ (sub % 32)
    match cacheLine s (sub / 32) with
    | some l => putLine s (sub / 32) { l with valid := l.valid - l.valid / b % 2 * b, dirty := l.dirty - l.dirty / b % 2 * b }
    | none => s
  else s

/-- A memory error that a read finds (R288, R293). -/
def foundError (s : State) (e : MemErr) : State :=
  let addr := e.addr.toNat / 64 * 64
  let rgn := if e.sram then addr / 2 ^ 21 % 32 else pageRegion s (addr / 4096)
  let s0 := if e.sram then s else setMem s fun m => { m with flipLines := m.flipLines.filter (· != addr) }
  let s1 := memError s0 (b2n e.sram) rgn addr e.pos.toNat e.ue
  if !e.ue then s1
  else if e.sram then sramPoison s1 addr
  else dramPoison s1 rgn addr e.nsid.toNat e.lba.toNat e.mirrorBad

/-- The memory errors that a read finds, with the firmware's page policy after them (R288, R304). -/
def foundErrors (s : State) (errs : List MemErr) : State := pagePolicy (forAll errs s foundError)

end Sys2Proof.Machine
end

