-- ==== Sys2Proof/Machine/Recovery.lean ====
section
/-! DEFINITION. What a formatter does with a sector that is read (chapter 5): its detection and sync decision, the tag check, retries,
the recovery ladder, track parity and thatch reconstruction, and the commands and events of the detector (chapters 4, 5). -/
namespace Sys2Proof.Machine
open Sys2Proof

/-! ### The tag and the end of a sector (R135, R148) -/

/-- The tag check of R135 on the information part that a sector decoded to: 0 passes, 1 CRC fails, 9 mismatch, 0xA stale. Parity
sectors (KIND 0xFE and 0xFF of a formatter's work) carry no tag (R138, R240). -/
def tagCheck (s : State) (x : Sector) (info : List Nat) : Nat :=
  let t := infoTag info
  if 0xFE ≤ x.kind then 0
  else if !infoCrc info then 1
  else if t.tagv ≠ 1 ∨ t.code ≠ x.code then 9
  else if t.kind ≠ x.kind ∨ t.nsid ≠ x.nsid ∨ t.lba ≠ x.lba ∨ t.zone ≠ tagZone s x.nsid x.lba then 9
  else if t.wseq < x.rmark then 0xA
  else 0

/-- Where a sector lies in its surface's slots: slot and 64 KiB unit (R222, R244); none outside the data slots. -/
def sectorUnit (s : State) (x : Sector) : Option RelocReq :=
  let p := x.lane / 8
  let q := sectorQ x
  ((mapOf s p q).runs.find? fun r => decide (r.2.2.1 ≤ x.track) && decide (x.track < r.2.2.1 + r.2.1 * r.2.2.2.1)).map
    fun r =>
      let k := (x.track - r.2.2.1) / max 1 r.2.2.2.1
      let base := r.2.2.1 + k * r.2.2.2.1
      let i := if (bandAt s p q base).2.2 then ceilDiv 65536 (max 1 r.2.2.2.2) - 1 - (x.track - base) else x.track - base
      let within := i * r.2.2.2.2 + x.pos
      ⟨p, q, r.1 + k, within / 16, false, x.nsid, x.lba⟩

/-- Report a sector for relocation (R147). -/
def reportReloc (s : State) (x : Sector) (verifyFail : Bool) : State :=
  match sectorUnit s x with
  | some r => setDet s fun d => { d with relocQ := d.relocQ ++ [{ r with verifyFail := verifyFail }] }
  | none => s

/-- The bit and the counter a final status sets (Table 5-8). -/
def endEvents (s : State) (a st : Nat) : State :=
  if st = 1 then evtSet (count s (ACT_FMT_CNT a 4) 1 (.fmt a) ACT_FMT_EVT_SAT) (.fmt a) ACT_FMT_EVT_RECOV_SAMPLE
  else if st = 2 then evtSet (count s (ACT_FMT_CNT a 5) 1 (.fmt a) ACT_FMT_EVT_SAT) (.fmt a) ACT_FMT_EVT_RECOV_REREAD
  else if st = 3 then evtSet (count s (ACT_FMT_CNT a 6) 1 (.fmt a) ACT_FMT_EVT_SAT) (.fmt a) ACT_FMT_EVT_RECOV_TP
  else if st = 8 ∨ st = 9 ∨ st = 0xA then
    evtSet (count s (ACT_FMT_CNT a 7) 1 (.fmt a) ACT_FMT_EVT_SAT) (.fmt a) ACT_FMT_EVT_UNRECOV
  else s

/-- The last failing status of a slice (Table 5-8). -/
def fmtLast (s : State) (a st head rung pos track : Nat) : State :=
  wrN (wrN s (ACT_FMT_LAST a) (st * 2 ^ 24 + head % 16 * 2 ^ 20 + rung % 16 * 2 ^ 16 + pos % 2 ^ 16)) (ACT_FMT_LAST_TRK a) track

/-- An LBA's data are newer in the buffer or the eave than on its track. -/
def newerData (s : State) (n lba : Nat) : Bool :=
  let mine := fun (e : Ext) => e.nsid == n && decide (e.lba ≤ lba) && decide (lba < e.lba + e.count)
  s.zmp.dirty.any mine || s.zmp.staged.any fun x => mine x.ext

/-- A sector of host data is delivered (R118, R135): its LBA no longer fails, and its data are those read. -/
def deliver (s : State) (x : Sector) (info : List Nat) : State :=
  let k := lbaKey x.nsid x.lba
  if x.nsid = 0 ∨ x.kind ≠ 0 then s
  else
    let s1 := setDet s fun d => { d with failed := tabDel d.failed k }
    let v := infoUser info
    if newerData s1 x.nsid x.lba then s1
    else { s1 with zmp := { s1.zmp with lbas := if v = 0 then tabDel s1.zmp.lbas k else tabPut s1.zmp.lbas k v } }

/-- A sector of host data failed: the status its LBA reads with (R148). -/
def readFailed (s : State) (x : Sector) (st : Nat) : State :=
  if x.nsid = 0 ∨ x.kind ≠ 0 ∨ newerData s x.nsid x.lba then s
  else setDet s fun d => { d with failed := tabPut d.failed (lbaKey x.nsid x.lba) st }

/-- The pin of a sector that ended (R106): its retry succeeded, or it is held on for the sector. -/
def endedPin (s : State) (x : Sector) (st : Nat) : State :=
  match x.pin with
  | none => s
  | some i =>
    if st = 0 ∨ st = 1 then clearPin s x.lane i
    else if st = 8 ∨ st = 9 ∨ st = 0xA then
      setDet s fun d => { d with pinSec := tabPut d.pinSec (2 * x.lane + i) (secPlace x) }
    else s

/-- The sector's read ends with a status (R148), delivered once for each read that joined it (R149): FMT_LAST, the events, its slot
and pin, its relocation. A sector of class 3 that ends 0x23 is reported as one whose verify failed. -/
def endSector (s : State) (x : Sector) (st : Nat) : State :=
  let a := x.lane / 4
  let rung := (x.ladder.map (·.rung)).getD 0
  let s0 := if s.det.retries.any fun r => r.sec == x.id then retryClose s x.lane 1 0 else s
  let s1 := endedPin (dropSlot s0 x) x st
  let s2 := setJobs (setDet s1 fun d => { d with sectors := d.sectors.filter fun y => y.id != x.id }) fun l =>
    l.filter fun j => !(j.sec == x.id && j.run.isNone)
  let s3 := if st = 0 then s2 else fmtLast s2 a st x.head rung x.pos x.track
  let s4 := endEvents s3 a st
  let s5 := if st = 2 ∨ st = 3 ∨ st = 4 then reportReloc s4 x false else if st = 0x23 then reportReloc s4 x true else s4
  let s6 := if st = 8 ∨ st = 9 ∨ st = 0xA then readFailed s5 x st else s5
  forAll (rangeFrom 0 (x.joined + 1)) s6 fun s _ => emit s (.media 2 a [st, x.lane, x.pos, x.nsid, x.lba])

/-! ### Detection of a sector (R108, R115, R141) -/

/-- A ring value as the sample it stands for. -/
def sampleVal (v : Nat) : Int := if v < 64 then (v : Int) - 32 else 0

/-- A bit of a sector lies in one of its data blocks, by the predicted places of its marks. -/
def isDataBit (x : Sector) (n : Nat) : Bool :=
  let d2 := x.p1 + 16424 + x.shift2 + 40
  (decide (x.p1 + 40 ≤ n) && decide (n < x.p1 + 16424)) || (decide (d2 ≤ n) && decide (n < d2 + codeBits x.code - 16384))

/-- The samples a detection of a sector works on, with some to spare for the loop. -/
def sectorRing (s : State) (x : Sector) (ratio : Nat) : List Nat :=
  ringSpan s x.lane x.start (bitSamples ratio (spanBits x) + 16)

/-- The stages over a sector's span of the ring. -/
def detectSector (s : State) (x : Sector) (p : DetSet) : Detected :=
  let r := sectorRing s x p.ratio
  detect p (r.map sampleVal) (r.map fun v => decide (64 ≤ v)) (isDataBit x) (spanBits x)

/-- What a search of the marks finds: the place of each, and the place SM2 was predicted at. -/
structure MarkFind where
  m1 : Option Nat
  m2 : Option Nat
  pred2 : Nat
  deriving DecidableEq, Repr

/-- The search of R115 and R141: SM1 within ± `win1` of its servo-predicted place, the first match; SM2 within ± `win2` of the place
predicted from SM1, or within ± `win1` of its own servo-predicted place, the best match. -/
def markSearch (d : Detected) (x : Sector) (win1 win2 tol : Nat) : MarkFind :=
  let f1 := findFirst d sm1Bits x.p1 win1 tol
  let p2 := f1.getD x.p1 + 16424 + x.shift2
  ⟨f1, findBest d sm2Bits p2 (if f1.isSome then win2 else win1) tol, p2⟩

/-- SM2_DELTA: the found place of SM2 less the predicted one. -/
def markDelta (f : MarkFind) : Int := match f.m2 with
  | some m => (m : Int) - f.pred2
  | none => 0

/-- The sync decision of Table 5-5, under DELTA_OK of a FMT_CTRL word. -/
def syncDecision (ctrl : Word) (f : MarkFind) : Nat :=
  match f.m1, f.m2 with
  | some _, some _ => if absI (markDelta f) ≤ getF ctrl ACT_FMT_CTRL_DELTA_OK then 1 else 2
  | some _, none => 3
  | none, some _ => 4
  | none, none => 5

/-- The starts of SM1 and SM2 that D1 and D2 are aligned from in each decision (Table 5-5). -/
def alignMarks (x : Sector) (dec : Nat) (f : MarkFind) : Nat × Nat :=
  let a1 := f.m1.getD x.p1
  let a2 := f.m2.getD (a1 + 16424 + x.shift2)
  if dec = 2 ∨ dec = 4 then (a2 - 16424 - x.shift2, a2) else (a1, a2)

/-- The LLRs of a codeword aligned at two mark starts. -/
def codewordLlrs (p : DetSet) (d : Detected) (c a1 a2 : Nat) : List Int :=
  spanLlrs p d (a1 + 40) 16384 ++ spanLlrs p d (a2 + 40) (codeBits c - 16384)

/-- The bits of a codeword that lie in erasure spans (R114). -/
def erasedCount (d : Detected) (c a1 a2 : Nat) : Nat :=
  (((rangeFrom (a1 + 40) 16384) ++ (rangeFrom (a2 + 40) (codeBits c - 16384))).filter (erasedBit d.spans)).length

/-- What a read of a sector leaves in the lane's registers: the adapted taps, FOFS, the error (R109, R110), SM_STAT (R115), and the
counters of codewords, erasure spans and thermal asperities (Table 4-5). A missed mark records no mismatches, and SM2_DELTA is
held to its 8 bits, and STAT.MSE, of 16 bits, to 0xFFFF (DESIGN CHOICE, log entry 46). -/
def laneRecord (s : State) (x : Sector) (d : Detected) (f : MarkFind) : State :=
  let a := x.lane / 4
  let l := x.lane % 4
  let s1 := setDet (setTaps s a l d.taps) fun t =>
    { t with use := tabUpd {} t.use x.lane fun u => { u with mse := some d.mse } }
  let s2 := fset (fset s1 (ACT_DL_TLOOP a l) ACT_DL_TLOOP_FOFS (unsgn 16 d.fofs)) (ACT_DL_STAT a l) ACT_DL_STAT_MSE (min 0xFFFF d.mse)
  let r := ACT_DL_SM_STAT a l
  let s3 := fsetb (fsetb s2 r ACT_DL_SM_STAT_SM1_HIT f.m1.isSome) r ACT_DL_SM_STAT_SM2_HIT f.m2.isSome
  let mis := fun (m : Option Nat) b => (m.map fun i => mismatches d b i).getD 0
  let s4 := fset (fset s3 r ACT_DL_SM_STAT_SM1_MIS (mis f.m1 sm1Bits)) r ACT_DL_SM_STAT_SM2_MIS (mis f.m2 sm2Bits)
  let s5 := count (fset s4 r ACT_DL_SM_STAT_SM2_DELTA (unsgn 8 (clampI (-128) 127 (markDelta f)))) (ACT_DL_CNT a l 0) 1 (.det a) ACT_DET_EVT_SAT
  let s6 := if d.spans = [] then s5 else count s5 (ACT_DL_CNT a l 2) d.spans.length (.det a) ACT_DET_EVT_SAT
  if d.tas = 0 then s6 else evtSet (count s6 (ACT_DL_CNT a l 3) d.tas (.det a) ACT_DET_EVT_SAT) (.det a) ACT_DET_EVT_TA

/-- The events and counters of a sync decision (Table 5-8), and what the formatter's microcode is shown of it. -/
def decisionRecord (s : State) (a l dec : Nat) : State :=
  let st := count s (ACT_FMT_CNT a 0) 1 (.fmt a) ACT_FMT_EVT_SAT
  latchSync (if dec = 2 then evtSet (count st (ACT_FMT_CNT a 2) 1 (.fmt a) ACT_FMT_EVT_SAT) (.fmt a) ACT_FMT_EVT_SM1_FALSE
    else if dec = 4 then evtSet (count st (ACT_FMT_CNT a 1) 1 (.fmt a) ACT_FMT_EVT_SAT) (.fmt a) ACT_FMT_EVT_SM1_MISS
    else if dec = 5 then evtSet (count st (ACT_FMT_CNT a 3) 1 (.fmt a) ACT_FMT_EVT_SAT) (.fmt a) ACT_FMT_EVT_BOTH_MISS
    else st) a l dec

/-- What the live context makes of a sector: the settings, the detection, the marks, the decision. -/
structure LiveRead where
  p : DetSet
  d : Detected
  f : MarkFind
  dec : Nat
  deriving DecidableEq, Repr

/-- A live read of a sector (R107 to R115, R141). -/
def liveRead (s : State) (x : Sector) (ctrl : Word) : LiveRead :=
  let a := x.lane / 4
  let l := x.lane % 4
  let u := tabGet {} s.det.use x.lane
  let p := detSettings s x.lane x.head u.ratio (laneTaps s a l) u.tgt u.pred true 0
  let d := detectSector s x p
  let f := markSearch d x (getF ctrl ACT_FMT_CTRL_SM1_WIN) (fget s (ACT_DL_SM_CFG a l) ACT_DL_SM_CFG_WIN2)
    (fget s (ACT_DL_SM_CFG a l) ACT_DL_SM_CFG_TOL)
  ⟨p, d, f, syncDecision ctrl f⟩

/-- Its LLRs as they go into the slot: in decisions 2 and 4 those of D2 alone, D1 being detected again (R141). -/
def liveLlrs (x : Sector) (r : LiveRead) : List Int :=
  let m := alignMarks x r.dec r.f
  let w := codewordLlrs r.p r.d x.code m.1 m.2
  if r.dec = 2 ∨ r.dec = 4 then List.replicate 16384 0 ++ w.drop 16384 else w

/-- The erased bits exceed ERAS_MAX (R114). -/
def erasOver (s : State) (x : Sector) (r : LiveRead) : Bool :=
  let m := alignMarks x r.dec r.f
  decide (x.cls = 0) &&
    decide (fget s (ACT_DET_CFG (x.lane / 4)) ACT_DET_CFG_ERAS_MAX * codeBits x.code < 256 * erasedCount r.d x.code m.1 m.2)

/-! ### One retry (R121, R122, R142) -/

/-- What a retry's detection comes to: RESULT 0x00 with the LLRs, or the result it ends with; and the sync decision after it. -/
structure RetryFind where
  result : Nat
  dec : Nat
  llrs : List Int
  deriving DecidableEq, Repr

/-- How a ladder's retry differs from one by register: AUTO_ANC, the relaxed search of R141 and R142 comes first, the offset of R142,
the LLRs kept in the slot, and the FMT_CTRL word in force. -/
structure RetryMode where
  ctrl : Word
  auto : Bool
  first : Bool
  off : Int
  kept : List Int
  deriving DecidableEq, Repr

/-- The search of a retry: relaxed in both marks (R142), in SM2 alone (R141), or as the descriptor says. -/
def retrySearch (s : State) (x : Sector) (m : RetryMode) (word : Nat) (d : Detected) : MarkFind :=
  let c := ACT_DL_SM_CFG (x.lane / 4) (x.lane % 4)
  let rlx := getF m.ctrl ACT_FMT_CTRL_RLX_WIN
  let tol := fget s c ACT_DL_SM_CFG_TOL
  let tolR := fget s c ACT_DL_SM_CFG_TOL_RLX
  if m.first ∧ x.dec = 5 then
    let f1 := findFirst d sm1Bits x.p1 rlx tolR
    ⟨f1, findBest d sm2Bits (x.p1 + 16424 + x.shift2) rlx tolR, f1.getD x.p1 + 16424 + x.shift2⟩
  else if m.first ∧ x.dec = 3 then
    let f1 := findFirst d sm1Bits x.p1 (getF m.ctrl ACT_FMT_CTRL_SM1_WIN) tol
    let p2 := f1.getD x.p1 + 16424 + x.shift2
    ⟨f1, findBest d sm2Bits p2 rlx tolR, p2⟩
  else if word / 2 ^ 14 % 2 = 1 then markSearch d x rlx (fget s c ACT_DL_SM_CFG_WIN2) tolR
  else markSearch d x (getF m.ctrl ACT_FMT_CTRL_SM1_WIN) (fget s c ACT_DL_SM_CFG_WIN2) tol

/-- A place a signed number of bits on. -/
def placeBy (i : Nat) (o : Int) : Nat := ((i : Int) + o).toNat

/-- The mark starts a retry aligns on, by its anchor (R121, R144): none when the anchor's mark is not found. -/
def retryAlign (x : Sector) (m : RetryMode) (word dec : Nat) (f : MarkFind) : Option (Nat × Nat) :=
  let o := m.off + sgn 4 (word / 2 ^ 20 % 16)
  let far := 16424 + x.shift2
  let sm2 := if m.auto then decide (dec = 2 ∨ dec = 4) else decide (word / 2 ^ 19 % 2 = 1)
  if m.auto ∧ dec = 5 then some (placeBy x.p1 o, placeBy x.p1 o + far)
  else if sm2 then f.m2.map fun i => (placeBy i o - far, placeBy i o)
  else f.m1.map fun i => (placeBy i o, match f.m2 with
    | some j => placeBy j o
    | none => placeBy i o + far)

/-- The detection of a retry (R121): the settings of its descriptor on the retained samples; RESULT 0x03 without its anchor, 0x06
where the anchor's samples were lost with a lane (R122). Its equaliser starts from the entry's taps. -/
def retryDetect (s : State) (x : Sector) (m : RetryMode) (word : Nat) (tbl : Bool) : RetryFind :=
  let a := x.lane / 4
  let tgt := if tbl then entryTgt s a x.head x.band else word / 2 ^ 16 % 8
  let p := detSettings s x.lane x.head (useRatio s x.lane) (entryTaps s a x.head x.band) (targetOf s a tgt) (entryPred s a x.head x.band)
    (word / 2 ^ 13 % 2 = 0) (word / 2 ^ 8 % 32)
  let d := detectSector s x p
  let f := retrySearch s x m word d
  let dec := if m.first ∧ (x.dec = 5 ∨ x.dec = 3) then syncDecision m.ctrl f else x.dec
  match retryAlign x m word dec f with
  | none => ⟨3, dec, []⟩
  | some al =>
    let anchor := if m.auto ∧ (dec = 2 ∨ dec = 4) ∨ !m.auto ∧ word / 2 ^ 19 % 2 = 1 then al.2 else al.1
    if ringAt s x.lane (x.start + bitSamples p.ratio anchor) = 65 then ⟨6, dec, []⟩
    else
      let w := codewordLlrs p d x.code al.1 al.2
      let w1 := if m.kept ≠ [] ∧ (dec = 2 ∨ dec = 4) then w.take 16384 ++ m.kept.drop 16384 else w
      ⟨0, dec, if word / 2 ^ 15 % 2 = 1 then extraErasures w1 else w1⟩

/-! ### The ladder (R143, R144) -/

/-- The word of the rung a ladder is at, and a field of it (Table 5-9). -/
def rungWord (l : Ladder) : Word := (l.rungs[l.rung]?).getD 0xF0000000
def rungF (l : Ladder) (f : Fld) : Nat := getF (rungWord l) f

/-- The condition of a rung matches the sync decision (R143). -/
def rungCond (l : Ladder) (dec : Nat) : Bool :=
  let c := rungF l ACT_LAD_COND
  c == 0 || c == 1 && (dec == 2 || dec == 3 || dec == 4) || c == 2 && dec == 5

/-- The accumulator of a sector's track while its parity is not yet written. -/
def openTrack (s : State) (x : Sector) : Option TrackAcc :=
  (s.det.tracks.find? fun t => t.1 == trackKey (x.lane / 8) (sectorQ x) x.track).map (·.2)

/-- The sector's track has parity that can serve (R140): its region gives some, and it is written, or the accumulator is held. -/
def hasTrackParity (s : State) (x : Sector) : Bool :=
  decide (trackTp s (x.lane / 8) (sectorQ x) x.track ≠ 0) && (openTrack s x).all fun t => t.cols.isSome

/-- The THATCH unit a lane's mechanism is a member of, if any. -/
def laneThatch (s : State) (n : Nat) : Option Nat :=
  (mechUnit s (n / 8)).bind fun u => (ancestors s u).find? fun v => uKind s v == 4

/-- The rung the ladder is at can run now. -/
def rungRuns (s : State) (x : Sector) (l : Ladder) : Bool :=
  let act := rungF l ACT_LAD_ACTION
  rungCond l x.dec &&
    (if act ≤ 1 then !l.noSample && !claimed s (baseACT (x.lane / 4)) && x.pin.isSome
     else if act = 2 then decide (l.rereads < min 7 (getF l.ctrl ACT_FMT_CTRL_REREAD_MAX)) && l.replayTo.isNone
     else if act = 3 then getF l.ctrl ACT_FMT_CTRL_TP_RECON == 1 && l.replayTo.isNone && hasTrackParity s x
     else if act = 4 then getF l.ctrl ACT_FMT_CTRL_THATCH_RECON == 1 && l.replayTo.isNone && (laneThatch s x.lane).isSome
     else false)

/-- The offsets 0, +1, −1, … of R142 up to ± `r`. -/
def sweepOffs (r : Nat) : List Int := 0 :: (rangeFrom 1 r).flatMap fun (i : Nat) => [(i : Int), -(i : Int)]

/-- The offset whose decode ended with the fewest unsatisfied checks, the earlier one on a tie (R142). -/
def bestOff (l : List (Int × Nat)) : Int :=
  match l with
  | [] => 0
  | x :: xs => (xs.foldl (fun b y => if y.2 < b.2 then y else b) x).1

/-- The offsets of a sample rung's retries: a sweep's; the seven of decision 5 on the first rung that applies; else the anchor itself,
in decision 5 the best offset found (R142, R144). -/
def rungOffs (x : Sector) (l : Ladder) : List Int :=
  if rungF l ACT_LAD_ACTION = 1 then sweepOffs (min 7 (max 1 (rungF l ACT_LAD_SWEEP)))
  else if x.dec = 5 then (if l.relaxed then [bestOff x.tried] else sweepOffs 3) else [0]

/-- The descriptor of a rung in the bits of Table 4-6. -/
def rungRetry (l : Ladder) (pin : Nat) : Nat := (rungWord l).toNat % 2 ^ 24 + pin * 2 ^ 24

/-- The sector a retry by register works on (R121): the one its pin was made for, else what the pin's samples hold by the lane's CTRL
(DESIGN CHOICE, log entry 46). -/
def registerSector (s : State) (n pin : Nat) : Sector :=
  let a := n / 4
  let start := ceilDiv (64 * fget s (pinReg n pin) ACT_DL_PIN_START) 6
  let own := s.det.sectors.find? fun x => x.lane == n && x.pin == some pin
  match own with
  | some x => { x with id := 0 }
  | none =>
    let pl := tabGet ⟨n, fget s (ACT_DL_CTRL a (n % 4)) ACT_DL_CTRL_HEAD, fget s (ACT_SL_TGT a (n % 4)) ACT_SL_TGT_TRACK, 0⟩ s.det.pinSec
      (2 * n + pin)
    let q := 12 * (a % 2) + pl.head
    let b := bandAt s (n / 8) q pl.track
    let c := trackCode s (n / 8) q pl.track
    let d := trackBits b.2.1
    let sh := if s.det.pinSec.any fun k => k.1 == 2 * n + pin then sectorShifts d (sectorAt c d pl.pos) else (0, 0)
    { blankSector pl with band := b.1, code := c, start := start, p1 := 1536 + sh.1, shift2 := sh.2, pin := some pin }

/-- A retry that waits takes a free context and a slot, and its decode job is queued; or it ends at once with a result. Without a free
context it waits on (R122). -/
def retryTry (s : State) (r : Retry) : State × Option Nat :=
  match freeContext s r.lane with
  | none => (s, none)
  | some c =>
    let reg := registerSector s r.lane r.pin
    let x := if r.sec = 0 then reg else (sectorOf s r.sec).getD reg
    let a := r.lane / 4
    let l := x.ladder
    let held := r.sec != 0 && x.slot
    if !(held || slotFree s r.lane) then (retryClose s r.lane 4 0, some 4)
    else
      let kept := if held then tabGet [] s.det.llrs (llrKey x.id x.lane) else []
      let m : RetryMode := match if r.sec = 0 then none else l with
        | some l => ⟨l.ctrl, rungF l ACT_LAD_AUTO_ANC == 1, !l.relaxed, l.offs.headD 0, kept⟩
        | none => ⟨rd s (ACT_FMT_CTRL a), false, false, 0, []⟩
      let f := retryDetect s x m r.word r.tbl
      let l' := l.map fun l =>
        { l with relaxed := true, offs := if x.dec = 5 ∧ f.dec ≠ 5 then l.offs.take 1 else l.offs }
      let s1 := if r.sec = 0 then s else putSector s { x with dec := f.dec, ladder := l' }
      if f.result ≠ 0 then (retryClose s1 r.lane f.result 0, some f.result)
      else
        let s2 := if held then s1 else takeSlot s1 r.lane
        let s3 := if r.sec = 0 then s2 else putSector s2 { x with dec := f.dec, ladder := l', slot := true }
        let s4 := setDet (putLlrs s3 r.sec r.lane f.llrs) fun d =>
          { d with retries := d.retries.map fun y => if y.lane = r.lane then { y with ctx := some c } else y }
        (addJob (laneSync s4 c) (if r.sec = 0 then s4.det.next else x.age) r.lane 1 (if r.sec = 0 then 2 else 1) r.sec, none)

/-- The rung under way failed with a retry's result: the next offset, or the next rung, past the sample rungs when the pin or the
lane is gone (R144). -/
def rungAfter (l : Ladder) (result : Nat) : Ladder :=
  if result = 5 ∨ result = 6 then { l with rung := l.rung + 1, offs := [], noSample := true }
  else if l.offs.length ≤ 1 then { l with rung := l.rung + 1, offs := [] }
  else { l with offs := l.offs.drop 1 }

/-- One retry of the ladder's sample rung (R144): the state after it and, once it has a result, the ladder that goes on. -/
def rungTry (s : State) (x : Sector) (l : Ladder) : State × Option Ladder :=
  let l' := if l.offs = [] then { l with offs := rungOffs x l } else l
  let i := x.pin.getD 0
  let tbl := rungF l ACT_LAD_TGT_TBL == 1
  let s1 := retryBegin (putSector s { x with ladder := some l' }) x.lane x.id i (rungRetry l i) tbl
  let r := retryTry s1 ⟨x.lane, x.id, i, rungRetry l i, tbl, none⟩
  (r.1, r.2.map fun res => rungAfter (((sectorOf r.1 x.id).bind (·.ladder)).getD l') res)

/-- What the ladder does at its rung: run it, skip it, or end the sector; `go` is how it goes on from there. A rung that waits for an
event leaves the ladder as it stands. -/
def ladderAct (go : State → Sector → Ladder → State) (s : State) (x : Sector) (l : Ladder) : State :=
  let act := rungF l ACT_LAD_ACTION
  if l.replayTo.any fun r => decide (r ≤ l.rung) then go s x { l with rung := l.replayTo.getD l.rung, offs := [], replayTo := none }
  else if 16 ≤ l.rung ∨ 5 ≤ act ∧ rungCond l x.dec then endSector s { x with ladder := some l } l.failAs
  else if !rungRuns s x l then go s x { l with rung := l.rung + 1, offs := [] }
  else if act ≤ 1 then
    let r := rungTry s x l
    match r.2 with
    | none => r.1
    | some l' => go r.1 ((sectorOf r.1 x.id).getD x) l'
  else putSector s { x with ladder := some l }

/-- Go on with the ladder from its rung; `n` bounds the rungs and retries looked at. -/
def ladderGo : Nat → State → Sector → Ladder → State
  | 0, s, x, l => endSector s { x with ladder := some l } l.failAs
  | n + 1, s, x, l => ladderAct (ladderGo n) s x l

/-- The bound of `ladderGo`: sixteen rungs of at most fifteen retries, twice over. -/
def ladderMost : Nat := 512

/-- The ladder of a slice starts on a sector (R143): a tag mismatch or a stale sector skips the sample rungs. -/
def ladderStart (s : State) (x : Sector) (failAs : Nat) : State :=
  let a := x.lane / 4
  if fbit s (ACT_FMT_CTRL a) ACT_FMT_CTRL_LADDER_EN then
    ladderGo ladderMost s x
      { ctrl := rd s (ACT_FMT_CTRL a), rungs := (rangeFrom 0 16).map fun r => rd s (ACT_LAD a r), rung := 0, offs := [],
        rereads := 0, replayTo := none, noSample := failAs != 8, relaxed := false, failAs := failAs }
  else endSector s x failAs

/-- The rung under way ended without success: the next one, past the sample rungs when the samples are gone. -/
def ladderNext (s : State) (x : Sector) (noSample : Bool) : State :=
  match x.ladder with
  | some l => ladderGo ladderMost s x { l with rung := l.rung + 1, offs := [], noSample := l.noSample || noSample }
  | none => endSector s x 8

/-- FIRST_FAIL of a class-0 decode that ended with another result than 0x00. -/
def firstFail (s : State) (n : Nat) : State :=
  evtSet (count s (ACT_DL_CNT (n / 4) (n % 4) 1) 1 (.det (n / 4)) ACT_DET_EVT_SAT) (.det (n / 4)) ACT_DET_EVT_FIRST_FAIL

/-- The first decode of a sector ended with a result other than 0x00 (R106, R143): the pin of a class-0 sector, and the ladder.
Decisions 2 and 4 keep the slot. A sector of class 3 has no ladder: it ends 0x23 (Table 5-7). -/
def firstFailed (s : State) (id : Nat) : State :=
  match sectorOf s id with
  | none => s
  | some x0 =>
    let s1 := if x0.cls = 0 then firstFail s x0.lane else s
    let s2 := if x0.dec = 2 ∨ x0.dec = 4 then s1 else dropSlot s1 x0
    match sectorOf s2 id with
    | none => s2
    | some x =>
      if x.cls = 3 then endSector s2 x 0x23
      else
        let s3 := if x.cls = 0 then autoPin s2 x else s2
        match sectorOf s3 id with
        | some y => ladderStart s3 y 8
        | none => s3

/-- A sector is dropped for want of a slot: result 0x04, counted in MISS (R116). -/
def missSector (s : State) (x : Sector) : State :=
  let a := x.lane / 4
  firstFailed (evtSet (count (latchRes s a (x.lane % 4) 4) (ACT_DL_CNT a (x.lane % 4) 4) 1 (.det a) ACT_DET_EVT_SAT) (.det a)
    ACT_DET_EVT_MISS) x.id

/-- A sector whose detection is queued for the retry context takes a slot (R116): its samples are detected again from the pin. -/
def queuedDetect (s : State) (x : Sector) : State :=
  let r := liveRead s x (rd s (ACT_FMT_CTRL (x.lane / 4)))
  let m := alignMarks x x.dec r.f
  let s1 := putLlrs (putSector (takeSlot s x.lane) { x with slot := true, wantSlot := false }) x.id x.lane
    (codewordLlrs r.p r.d x.code m.1 m.2)
  addJob s1 x.age x.lane x.cls 0 x.id

/-- What waits for a slot or a retry context takes one that has come free, oldest first (R116, R122). -/
def settleDet (s : State) : State :=
  let s1 := forAll (s.det.sectors.filter (·.wantSlot)) s fun s x =>
    if slotFree s x.lane && !laneRetry s x.lane then queuedDetect s x else s
  forAll (s1.det.retries.filter fun r => r.ctx.isNone) s1 fun s r =>
    let t := retryTry s r
    match t.2 with
    | none => t.1
    | some res =>
      match sectorOf t.1 r.sec with
      | some x => match x.ladder with
        | some l => ladderGo ladderMost t.1 x (rungAfter l res)
        | none => t.1
      | none => t.1

/-- A place joins those to be read on a later revolution (R106). -/
def readLater (s : State) (pl : SecPlace) : State :=
  setDet s fun d => { d with later := if d.later.contains pl then d.later else d.later ++ [pl] }

/-- A pin ends without success (R106, R144): the sector that holds it leaves its sample rungs, a queued one is dropped, and one whose
read has ended is scheduled for a later revolution. -/
def endPin (s : State) (n i : Nat) : State :=
  let pl := (s.det.pinSec.find? fun k => k.1 == 2 * n + i).map (·.2)
  let bound := s.det.retries.any fun r => r.lane == n && r.pin == i && r.sec != 0
  let s1 := clearPin s n i
  match s1.det.sectors.find? fun x => x.lane == n && x.pin == some i with
  | some x =>
    let x' := { x with pin := none }
    match x'.ladder with
    | some l =>
      if bound then ladderGo ladderMost (putSector s1 x') x' (rungAfter l 5)
      else putSector s1 { x' with ladder := some { l with noSample := true } }
    | none => if x'.wantSlot then missSector (putSector s1 { x' with wantSlot := false }) x' else putSector s1 x'
  | none => match pl with
    | some p => readLater s1 p
    | none => s1

/-- A pin ends in time or for room: PIN_EXPIRE (R104, R106). -/
def expirePin (s : State) (n i : Nat) : State := evtSet (endPin s n i) (.det (n / 4)) ACT_DET_EVT_PIN_EXPIRE

/-- A live stream starts on a lane (R104): the pin made last is released first until 32 KiB hold. -/
def liveStart (s : State) (n : Nat) : State :=
  let s1 := setDet s fun d => { d with live := if d.live.contains n then d.live else n :: d.live }
  let s2 := forAll (rangeFrom 0 2) s1 fun s _ =>
    if 4096 < pinTotal s n then
      match s.det.pins.find? fun k => k / 2 == n with
      | some k => expirePin s n (k % 2)
      | none => s
    else s
  laneSync s2 n

/-- A live stream ends on a lane: the read is over, and the lane may serve a retry of the slice (R110, R122). -/
def liveEnd (s : State) (n : Nat) : State :=
  settleDet (laneSync (setDet (readClose s n) fun d =>
    { d with live := d.live.filter (· != n), stamp := tabDel d.stamp n, gapSeen := d.gapSeen.filter (· != n) }) n)

/-! ### Commands and events of the detector -/

/-- DL_PIN_SET (R106): makes the pin unless it breaks R104 or R106; a pin that is held is left. -/
def execDlPinSet (m : Master) (a : Fin 64) (l : Fin 4) (i : Fin 2) (start : BitVec 13) (len : BitVec 14) (s : State) : Res :=
  .next (regWrite s m (ACT_DL_PIN a l i) fun s =>
    if !pinHeld s (4 * a + l) i && pinFits s (4 * a + l) i len.toNat then makePin s (4 * a + l) i start.toNat len.toNat else s)

/-- DL_PIN_RELEASE (R106): REL. -/
def execDlPinRelease (m : Master) (a : Fin 64) (l : Fin 4) (i : Fin 2) (s : State) : Res :=
  .next (regWrite s m (ACT_DL_PIN a l i) fun s => if pinHeld s (4 * a + l) i then settleDet (endPin s (4 * a + l) i) else s)

/-- PIN_TIMEOUT (R106): held for PIN_TO_US. -/
def execPinTimeout (a : Fin 64) (l : Fin 4) (i : Fin 2) (s : State) : Res :=
  .next (if pinHeld s (4 * a + l) i then settleDet (expirePin s (4 * a + l) i) else s)

/-- The sector that the running instruction of a slice has at SECT on a lane, to read or to write (R366, R380). -/
def workAt (s : State) (a l : Nat) (write : Bool) : Option SecWork :=
  let x := fseqOf s a
  x.cur.bind fun i => i.work.find? fun w =>
    w.lane.toNat == l && (i.alone.isEmpty || i.alone.headD 0 == l) && w.write == write && w.pos.toNat == x.sect

/-- The record of a sector newly read on lane `n` whose first sample lies at `start`: its code, band and shifts by its track
(R132, R136), what its tag must say by the zone sequencer (R135), the reset mark as it stands (R149). -/
def newSector (s : State) (n id : Nat) (w : SecWork) (start : Nat) : Sector :=
  let p := n / 8
  let q := 12 * (n / 4 % 2) + w.head.toNat
  let b := bandAt s p q w.track.toNat
  let c := trackCode s p q w.track.toNat
  let d := trackBits b.2.1
  let sh := sectorShifts d (sectorAt c d w.pos.toNat)
  { blankSector ⟨n, w.head.toNat, w.track.toNat, w.pos.toNat⟩ with
    id := id, band := b.1, code := c, cls := w.cls.toNat, kind := w.kind.toNat, nsid := w.nsid.toNat, lba := w.lba.toNat
    rmark := if w.nsid = 0 then 0 else (getZone s w.nsid.toNat (zoneOf s w.nsid.toNat w.lba.toNat)).rmark
    start := start, p1 := 1536 + sh.1, shift2 := sh.2, age := id }

/-- A codeword of a sector starts on a lane (R116): a slot with its LLRs, or a pin and the retry context, or a drop with 0x04. Then
its first decode is dispatched, or ends at once with 0x02 or 0x03 (R114, R141). -/
def codewordStart (s : State) (x : Sector) (r : LiveRead) : State :=
  let a := x.lane / 4
  let ovf := erasOver s x r
  let bad := ovf || r.dec == 2 || r.dec == 4 || r.dec == 5
  let s0 := if ovf then evtSet s (.det a) ACT_DET_EVT_ERAS_OVF else s
  let res := fun s => latchRes s a (x.lane % 4) (if ovf then 2 else 3)
  if slotFree s0 x.lane then
    let s1 := putLlrs (putSector (takeSlot s0 x.lane) { x with slot := true }) x.id x.lane (liveLlrs x r)
    if bad then firstFailed (res s1) x.id else addJob s1 x.age x.lane x.cls 0 x.id
  else
    let s1 := autoPin (evtSet s0 (.det a) ACT_DET_EVT_NO_SLOT) x
    match sectorOf s1 x.id with
    | none => s1
    | some y =>
      if y.pin.isNone then missSector s1 y
      else if bad then firstFailed (res s1) x.id
      else putSector s1 { y with wantSlot := true }

/-- A second read of a sector whose ladder runs joins it (R149). -/
def joins (s : State) (a : Nat) (w : SecWork) : Option Sector :=
  s.det.sectors.find? fun x => x.lane / 4 == a && x.head == w.head.toNat && x.track == w.track.toNat && x.pos == w.pos.toNat &&
    x.ladder.isSome

/-- A read of a sector on lane `n`: detected, its marks judged, its codeword started (R108 to R116, R141). -/
def readSector (s : State) (n : Nat) (w : SecWork) (start : Nat) : State :=
  let a := n / 4
  let id := s.det.next
  let x0 := newSector s n id w start
  let r := liveRead s x0 (rd s (ACT_FMT_CTRL a))
  let x := { x0 with dec := r.dec }
  let s1 := setDet (decisionRecord (laneRecord s x r.d r.f) a (n % 4) r.dec) fun d =>
    { d with sectors := d.sectors ++ [x], next := d.next + 1, later := d.later.filter (· != secPlace x) }
  settleDet (codewordStart s1 x r)

/-- SYNC_DECISION (R141, R115, R116): the sector that the running instruction reads on the lane, from its first sample on by the servo
timing; the lane is ready and live. -/
def execSyncDecision (a : Fin 64) (l : Fin 4) (start : BitVec 17) (s : State) : Res :=
  .next (let n := 4 * a.val + l.val
    match workAt s a l false with
    | none => s
    | some w =>
      if !laneReady s n || !s.det.live.contains n then s
      else match joins s a w with
        | some x => putSector s { x with joined := x.joined + 1 }
        | none => readSector s n w start.toNat)

/-- The waiting jobs cluster `c` may take. -/
def jobsFor (s : State) (c : Nat) : List DecJob :=
  (waitingJobs s).filter fun j => !j.avoid.contains c && bitOf (rd s (LDC_CTRL c)) (8 + j.cls)

/-- WEIGHT of class `k` of cluster `c`. -/
def weightOf (s : State) (c k : Nat) : Nat :=
  let w := fun i => byteOf (rd s (LDC_WEIGHT c)) i
  let mode := fget s PWR_MODE PWR_MODE_MODE
  if k = 0 ∧ mode = 5 then 2 * w 0 else if k = 2 ∧ mode = 6 then max (w 2) (w 0) else w k

/-- Smooth weighted round robin (R117): the classes pending gain their weights, the one with the most goes and pays the
sum; a class with weight 0 goes only when no other is pending. Returns the class and the new credits. -/
def pickClass (ws : List Nat) (cr : List Int) (pend : List Nat) : Nat × List Int :=
  let heavy := pend.filter fun k => ws.getD k 0 != 0
  match heavy with
  | [] => (pend.headD 0, cr)
  | k0 :: ks =>
    let cr1 := (rangeFrom 0 4).map fun k => if heavy.contains k then cr.getD k 0 + ws.getD k 0 else cr.getD k 0
    let best := ks.foldl (fun b k => if cr1.getD b 0 < cr1.getD k 0 then k else b) k0
    let total : Nat := sumN (heavy.map fun k => ws.getD k 0)
    (best, cr1.modify best fun v => v - (total : Int))

/-- The job whose sync mark was found first; of equals the one queued first (R117). -/
def oldestJob : List DecJob → Option DecJob
  | [] => none
  | j :: l => some (l.foldl (fun b k => if k.age < b.age then k else b) j)

/-- The waiting job that cluster `c` takes next, by the weights of the classes, and the credits after it (R117). -/
def pickJob (s : State) (c : Nat) : Option (DecJob × List Int) :=
  let js := jobsFor s c
  let pend := (rangeFrom 0 4).filter fun k => js.any fun j => j.cls == k
  let r := pickClass ((rangeFrom 0 4).map (weightOf s c)) (tabGet [0, 0, 0, 0] s.det.credits c) pend
  (oldestJob (js.filter fun j => j.cls == r.1)).map fun j => (j, r.2)

/-- Cluster `c` runs job `j`. -/
def runJob (s : State) (c : Nat) (j : DecJob) (credits : List Int) : State :=
  let s1 := setDet s fun d =>
    { d with
      credits := tabPut d.credits c credits
      jobs := d.jobs.map fun k => if k.order = j.order then { k with run := some c } else k }
  clusterDemand (queueSync (fset (fset (fset (fsetb s1 (LDC_STAT c) LDC_STAT_BUSY true) (LDC_STAT c) LDC_STAT_LANE (j.lane % 256))
    (LDC_STAT c) LDC_STAT_ITER 0) (LDC_STAT c) LDC_STAT_CLASS j.cls))

/-- DECODE_JOB_DISPATCH (R117): the cluster is enabled, powered and idle; the oldest job of the class chosen. -/
def execDecodeJobDispatch (c : Fin 16) (s : State) : Res :=
  .next (if !clusterEn s c || !clusterOn s c || fbit s (LDC_STAT c) LDC_STAT_BUSY then s
    else match pickJob s c with
      | none => s
      | some x => runJob s c x.1 x.2)

/-- A re-read's class-0 decode failed: the sample rungs before this one run again on the new samples (R144). -/
def rereadFailed (s : State) (id : Nat) (l : Ladder) : State :=
  match sectorOf s id with
  | none => s
  | some x0 =>
    let s1 := firstFail s x0.lane
    let s2 := if x0.dec = 2 ∨ x0.dec = 4 then s1 else dropSlot s1 x0
    let s3 := autoPin s2 ((sectorOf s2 id).getD x0)
    let x := (sectorOf s3 id).getD x0
    ladderGo ladderMost s3 x { l with rung := 0, offs := [], replayTo := some (l.rung + 1), relaxed := false }

/-- A retry's decode of a sector failed: what the decode left unsatisfied is kept in decision 5 (R142), and the ladder goes on; a tag
mismatch or a stale sector skips the sample rungs (R143). -/
def retryFailed (s : State) (x : Sector) (l : Ladder) (tag unsat : Nat) : State :=
  let mis := tag = 9 ∨ tag = 0xA
  let x1 := if x.dec = 5 then { x with tried := x.tried ++ [(l.offs.headD 0, unsat)] } else x
  let l1 := if mis then { l with failAs := tag, noSample := true, rung := l.rung + 1, offs := [] } else rungAfter l 1
  ladderGo ladderMost (putSector s x1) x1 l1

/-- A decode of a sector ended, `tag` the outcome of its tag check where it converged: what the formatter does next (R135, R143). -/
def sectorDecoded (s : State) (j : DecJob) (x : Sector) (e : DecodeEnd) (tag : Nat) : State :=
  let ok := e.zero && tag == 0
  let mis := e.zero && (tag == 9 || tag == 0xA)
  let st := if mis then evtSet s (.fmt (x.lane / 4)) ACT_FMT_EVT_TAG_ERR else s
  if j.what = 0 then
    if ok then endSector (deliver st x e.info) x 0
    else if mis then ladderStart (dropSlot st x) { x with slot := false } tag
    else firstFailed st x.id
  else
    let s0 := if j.what = 1 then retryClose st x.lane (if e.zero && tag != 1 then 0 else 1) e.iter else st
    match x.ladder with
    | none => endSector s0 x 8
    | some l =>
      if ok then endSector (deliver s0 x e.info) x (if l.rereads = 0 then 1 else 2)
      else
        let s1 := dropSlot s0 x
        let y := { x with slot := false }
        if j.what = 3 ∧ !mis then rereadFailed s1 x.id l
        else retryFailed s1 y l (if mis then tag else 1) e.unsat

/-- The end of the job that cluster `c` runs: its status and counters (R118, R119), and the job is gone. -/
def jobCounted (s : State) (c : Nat) (j : DecJob) (e : DecodeEnd) : State :=
  let s1 := fset (fsetb s (LDC_STAT c) LDC_STAT_BUSY false) (LDC_STAT c) LDC_STAT_ITER e.iter
  let s2 := count s1 (if e.zero then LDC_CW_OK c else LDC_CW_FAIL c) 1 (.ldc c) LDC_EVT_SAT
  let s3 := count64 s2 (LDC_ITER_SUM_LO c) e.iter (.ldc c) LDC_EVT_SAT
  setDet s3 fun d => { d with jobs := d.jobs.filter fun k => k.order != j.order }

/-- The code of the codeword that a job decodes. -/
def jobCode (s : State) (j : DecJob) : Nat :=
  if j.sec = 0 then
    (registerSector s j.lane (fget s (ACT_DL_RETRY (j.lane / 4) (j.lane % 4)) ACT_DL_RETRY_PIN)).code
  else ((sectorOf s j.sec).map (·.code)).getD 0

/-- A retry by register ends (R121): its slot is free, RESULT and ITER are written; a success releases its pin and delivers the
sector the pin was made for. -/
def registerDone (s : State) (n : Nat) (e : DecodeEnd) : State :=
  let i := fget s (ACT_DL_RETRY (n / 4) (n % 4)) ACT_DL_RETRY_PIN
  let ok := e.zero && infoCrc e.info
  let s1 := retryClose (dropLlrs (giveSlot s n) 0 n) n (if ok then 0 else 1) e.iter
  if ok then clearPin s1 n i else s1

/-- DECODE_JOB_DONE (R118, R135, R143): the cluster's decode of the slot's LLRs ends; the counters, the slot, and the next step of the
sector. -/
def execDecodeJobDone (c : Fin 16) (s : State) : Res :=
  .next (match s.det.jobs.find? fun j => j.run == some c.val with
    | none => s
    | some j =>
      let e := ldpcDecode (jobCode s j) (fget s (LDC_CTRL c) LDC_CTRL_MAXIT) (tabGet [] s.det.llrs (llrKey j.sec j.lane))
      let s1 := jobCounted s c j e
      settleDet (if j.what = 4 then dropLlrs (giveSlot s1 j.lane) j.sec j.lane
        else if j.what = 2 then registerDone s1 j.lane e
        else match sectorOf s1 j.sec with
          | none => s1
          | some x =>
            let tag := tagCheck s1 x e.info
            sectorDecoded (latchRes s1 (j.lane / 4) (j.lane % 4) (if e.zero && tag != 1 then 0 else 1)) j x e tag))

/-- CLUSTER_PARITY_ERROR (R119, R125): the job waits again for another cluster. `hour` is how many such errors the cluster
had within the hour, this one not counted; above 16 the firmware disables an unclaimed cluster and sets the root's CAUSE. -/
def execClusterParityError (c : Fin 16) (hour : BitVec 16) (s : State) : Res :=
  .next (match s.det.jobs.find? fun j => j.run == some c.val with
    | none => s
    | some j =>
      let s1 := evtSet (count (fsetb s (LDC_STAT c) LDC_STAT_BUSY false) (LDC_MEM_ERRS c) 1 (.ldc c) LDC_EVT_SAT) (.ldc c)
        LDC_EVT_MEM_ERR
      let s2 := setDet s1 fun d =>
        { d with jobs := d.jobs.map fun k => if k.order = j.order then { k with run := none, avoid := [c.val] } else k }
      let s3 := clusterDemand (queueSync s2)
      if 16 < hour.toNat + 1 then
        let s4 := if claimed s3 (baseLDC c) then s3 else fsetb s3 (LDC_CTRL c) LDC_CTRL_EN false
        fset s4 (TRS_UNIT_HEALTH 0) TRS_UNIT_HEALTH_CAUSE 0x41
      else s3)

/-- CLUSTER_IDLE_POWEROFF (R120): PWR_AUTO and, for 64 µs, no job that the cluster runs or may take. -/
def execClusterIdlePoweroff (c : Fin 16) (s : State) : Res :=
  .next (if fbit s (LDC_CTRL c) LDC_CTRL_PWR_AUTO && !fbit s (LDC_STAT c) LDC_STAT_BUSY && clusterOn s c &&
      (!clusterEn s c || (jobsFor s c).isEmpty) then
    let t := domRelease s (395 + c)
    clusterDemand (fsetb t (LDC_STAT c) LDC_STAT_PWR (clusterOn t c))
  else s)

/-- A write of GO (R121, R122): ignored while BUSY; without its pin the retry ends at once with 0x05. -/
def retryGo (s : State) (n : Nat) (value : Word) : State :=
  if fbit s (ACT_DL_RETRY_STAT (n / 4) (n % 4)) ACT_DL_RETRY_STAT_BUSY then s
  else
    let i := getF value ACT_DL_RETRY_PIN
    let s1 := retryBegin s n 0 i (value.toNat % 2 ^ 25) false
    if !pinHeld s1 n i then retryClose s1 n 5 0
    else (retryTry s1 ⟨n, 0, i, value.toNat % 2 ^ 25, false, none⟩).1

/-- DL_RETRY_GO (R121, R122). -/
def execDlRetryGo (m : Master) (a : Fin 64) (l : Fin 4) (value : Word) (s : State) : Res :=
  .next (regWrite s m (ACT_DL_RETRY a l) fun s => retryGo s (4 * a + l) value)

/-- LANE_POWER_REQUEST (R123, R124): by the formatter under AUTO, or by the lane's ON bit; a lane that is powering down with its domain
still on stays on. One beyond the envelope is counted (R333). -/
def execLanePowerRequest (a : Fin 64) (l : Fin 4) (s : State) : Res :=
  .next (let w := rd s (ACT_DET_PWR a)
    let i := 4 * a.val + l.val
    let n := 139 + i
    if !(bitOf w (4 + l) || bitOf w l) then s
    else if s.det.downing.contains i then laneSync (setDet s fun d => { d with downing := d.downing.filter (· != i) }) i
    else if domOn s n || s.pwr.wanted.contains n || domFailed s n then s
    else
      let s1 := if envHolds s n then count s (PWR_CNT 5) 1 .pwr PWR_EVT_SAT else s
      sliceSync (laneSync (domRequest s1 n) i) a)

/-- LANE_POWER_READY (R124): taps, predictors and target restored. -/
def execLanePowerReady (a : Fin 64) (l : Fin 4) (s : State) : Res :=
  .next (let n := 4 * a.val + l.val
    if laneOn s n && !s.det.downing.contains n && !laneReady s n then
      settleDet (laneSync (wbit (restoreLane s n 0) (ACT_DET_PWR a) (8 + l) true) n)
    else s)

/-- A lane holds no pin and no slot (R123). -/
def laneBare (s : State) (n : Nat) : Bool := !pinHeld s n 0 && !pinHeld s n 1 && laneSlots s n == 0

/-- A lane may turn off (R123): under AUTO idle, with no live stream and no retry besides; with AUTO 0 once ON is 0. -/
def laneMayOff (s : State) (n : Nat) : Bool :=
  let w := rd s (ACT_DET_PWR (n / 4))
  laneBare s n && (if bitOf w (4 + n % 4) then !s.det.live.contains n && !laneRetry s n else !bitOf w (n % 4))

/-- A lane that is off holds no state (R123, Table 4-3): its taps, loop, error and sync record. -/
def laneDiscard (s : State) (n : Nat) : State :=
  let a := n / 4
  let l := n % 4
  let s1 := setTaps (wbit s (ACT_DET_PWR a) (8 + l) false) a l []
  let s2 := wrN (fset (fset s1 (ACT_DL_TLOOP a l) ACT_DL_TLOOP_FOFS 0) (ACT_DL_STAT a l) ACT_DL_STAT_MSE 0) (ACT_DL_SM_STAT a l) 0
  setDet s2 fun d => { d with use := tabDel d.use n, live := d.live.filter (· != n) }

/-- The lane's domain is held on by the power block (R330). -/
def laneKept (s : State) (n : Nat) : Bool :=
  rbit s (PWR_DOM_HOLD ((139 + n) / 32)) ((139 + n) % 32) && !domBlocked s (139 + n)

/-- LANE_IDLE_POWEROFF (R123, R124): a lane that may turn off begins to power down, its state discarded; when the event comes again
for it the power-down ends and the domain goes off (DESIGN CHOICE, log entry 46). -/
def execLaneIdlePoweroff (a : Fin 64) (l : Fin 4) (s : State) : Res :=
  .next (let n := 4 * a.val + l.val
    if s.det.downing.contains n then
      sliceSync (laneSync (domRelease (setDet s fun d => { d with downing := d.downing.filter (· != n) }) (139 + n)) n) a
    else if laneMayOff s n && laneOn s n && !laneKept s n then
      laneSync (setDet (laneDiscard s n) fun d => { d with downing := n :: d.downing }) n
    else s)

/-- LDC_SLOTS_READ (R116): the read restarts LOW at FREE. -/
def execLdcSlotsRead (m : Master) (c : Fin 16) (s : State) : Res := .next (regRead s m (baseLDC c + 0x24))

/-! ### Recovery by other means -/

/-- The sector of a lane whose ladder stands at a rung of an action. -/
def ladderAt (s : State) (n act : Nat) : Option (Sector × Ladder) :=
  (s.det.sectors.find? fun x => x.lane == n && x.ladder.any fun l => rungF l ACT_LAD_ACTION == act && l.replayTo.isNone).bind
    fun x => x.ladder.map fun l => (x, l)

/-- LADDER_REREAD (R144): the sector is read again, on new samples from `start` on; not during a change of the speed step (R149). -/
def execLadderReread (a : Fin 64) (l : Fin 4) (start : BitVec 17) (s : State) : Res :=
  .next (let n := 4 * a.val + l.val
    match ladderAt s n 2 with
    | none => s
    | some xl =>
      if !laneReady s n || (tabGet {} s.spn (n / 8)).step.isSome then s
      else
        let l1 := { xl.2 with rereads := xl.2.rereads + 1, noSample := xl.2.failAs != 8 }
        let x0 := { xl.1 with pin := none, tried := [], start := start.toNat, ladder := some l1 }
        let r := liveRead s x0 xl.2.ctrl
        let x := { x0 with dec := r.dec }
        let s1 := decisionRecord (laneRecord (putSector s x) x r.d r.f) a l r.dec
        let ovf := erasOver s1 x r
        if ovf || r.dec == 2 || r.dec == 4 || r.dec == 5 || !(x.slot || slotFree s1 n) then settleDet (rereadFailed s1 x.id l1)
        else
          let s2 := if x.slot then s1 else putSector (takeSlot s1 n) { x with slot := true }
          addJob (putLlrs s2 x.id n (liveLlrs x r)) x.age n 0 3 x.id)

/-- The bytes of an information part. -/
def infoBytes (v : BitVec 33024) : List Nat := leBytes 4128 v.toNat

/-- A reconstructed data sector passes R135 at its place on the media (R140): its tag holds, and the LBA it names lies there. -/
def placeOk (s : State) (p q code track pos : Nat) (info : List Nat) : Bool :=
  let t := infoTag info
  let home := (nsBind s t.nsid).bind fun b => mapOffset s 16 b.uid (t.lba / nsZl s t.nsid) (t.lba % nsZl s t.nsid * 4096)
  infoCrc info && t.tagv == 1 && t.code == code && t.zone == tagZone s t.nsid t.lba &&
    decide ((getZone s t.nsid (zoneOf s t.nsid t.lba)).rmark ≤ t.wseq) &&
    (t.kind == 1 || t.kind == 0 && home.any fun h =>
      h.1 == p && 12 * h.2.1 + h.2.2.1 == q && slotTrack s p q h.2.2.2.2.1 h.2.2.2.2.2 == (track, pos))

/-- The sectors of a track that count as read: those read, and, while its parity is not yet written, zeros for the data sectors not
yet written and the accumulator for the parity (R138, R140). -/
def trackRead (s : State) (x : Sector) (S tp : Nat) (read : Tab (List Nat)) : Tab (List Nat) :=
  match openTrack s x with
  | none => read
  | some t =>
    let data := read.filter fun y => decide (y.1 < S - tp)
    let zero := ((rangeFrom 0 (S - tp)).filter fun i => !t.secs.any fun y => y.1 == i).map fun i => (i, List.replicate 4128 0)
    let par := ((rangeFrom 0 tp).zip (t.cols.getD [])).map fun c => (S - tp + c.1, colBytes c.2)
    (data.filter fun y => !zero.any fun z => z.1 == y.1) ++ zero ++ par

/-- The information part of the sector `x` rebuilt from its track (R140): `read` are the sectors that the revolution read. Up to TP
are missing; with fewer the unused syndromes must be zero, with TP every reconstructed data sector must pass R135. -/
def trackInfo (s : State) (x : Sector) (read : List (BitVec 16 × BitVec 33024)) : Option (List Nat) :=
  let p := x.lane / 8
  let q := sectorQ x
  let tp := trackTp s p q x.track
  let S := trackPositions (bandAt s p q x.track).2.1 x.code
  let got := trackRead s x S tp ((read.map fun y => (y.1.toNat, infoBytes y.2)).filter fun y => y.1 != x.pos)
  (trackRebuild S tp got).bind fun r =>
    let info := tabGet [] r x.pos
    let all := r.all fun y => decide (S - tp ≤ y.1) || y.1 == x.pos || placeOk s p q x.code x.track y.1 y.2
    if tagCheck s x info = 0 ∧ (r.length < tp ∨ all) then some info else none

/-- TRACK_PARITY_RECONSTRUCT (R140): the failing sector is rebuilt and delivered, or the ladder goes on. -/
def execTrackParityReconstruct (a : Fin 64) (l : Fin 4) (read : List (BitVec 16 × BitVec 33024)) (s : State) : Res :=
  .next (match ladderAt s (4 * a.val + l.val) 3 with
    | none => s
    | some xl =>
      settleDet (match trackInfo s xl.1 read with
        | none => ladderNext s xl.1 false
        | some info => endSector (deliver s xl.1 info) xl.1 3))

/-- A reconstruction of thatch engine `t` ends (Table 9-5). -/
def reconCount (s : State) (t : Nat) (ok : Bool) : State :=
  if ok then count s (THT_CNT t 1) 1 (.tht t) THT_EVT_SAT
  else evtSet (count s (THT_CNT t 2) 1 (.tht t) THT_EVT_SAT) (.tht t) THT_EVT_RECON_FAIL

/-- The information part of an LBA's data sector from the members of its THATCH that were read, by member index (R240, R242): n of
the other members, data members first, in member order; a data unit not yet written counts as zeros. -/
def thatchInfo (s : State) (th nsid lba : Nat) (shares : Tab (List Nat)) : Option (List Nat) :=
  let k := (members s th).length
  let n := k - thatchM s th
  let z := lba / nsZl s nsid
  let o := lba - z * nsZl s nsid
  let d := o / 256 % n
  let row := o / 256 / n
  let unitLba := fun i => z * nsZl s nsid + (row * n + i) * 256 + o % 256
  let zero := ((rangeFrom 0 n).filter fun i => i != d && decide (zoneEnd s nsid z ≤ unitLba i)).map fun i => (i, List.replicate 4128 0)
  let got := (rangeFrom 0 k).filterMap fun i =>
    if i = d ∨ (zero.any fun y => y.1 == i) ∨ rebuildErased s th i (zoneKey nsid z) then none else (shares.find? fun y => y.1 == i)
  let use := (zero ++ got).take n
  if n = 0 ∨ use.length < n then none else thatchSolve n d use

/-- THATCH_RECONSTRUCT (R242): `shares` are the information parts read from members at the sector's member offset; for a sector of a
ladder at rung 0x4, or one whose own member is unavailable. The sector is delivered only if it passes R135, else it ends 0x08. -/
def execThatchReconstruct (t : Fin 4) (nsid : BitVec 8) (lba : BitVec 40) (shares : List (BitVec 5 × BitVec 33024)) (s : State) : Res :=
  .next (let sh := shares.map fun y => (y.1.toNat, infoBytes y.2)
    if !engineFree s t then s else
    match s.det.sectors.find? fun x => x.nsid == nsid.toNat && x.lba == lba.toNat &&
      x.ladder.any fun l => rungF l ACT_LAD_ACTION == 4 && l.replayTo.isNone with
    | some x =>
      let info := (thatchInfo s ((laneThatch s x.lane).getD 0) x.nsid x.lba sh).getD []
      settleDet (if info ≠ [] ∧ tagCheck s x info = 0 then
          let s1 := endSector (deliver (reconCount s t true) x info) x 4
          cacheInstall s1 3 x.nsid x.lba (lbaData s1 x.nsid x.lba)
        else endSector (reconCount s t false) x 8)
    | none =>
      match (nsBind s nsid.toNat).map (·.uid) with
      | none => s
      | some u =>
        let th := ((subtree s u).find? fun v => uKind s v == 4).getD u
        let z := lba.toNat / nsZl s nsid.toNat
        let home := mapOffset s 16 u z (lba.toNat % nsZl s nsid.toNat * 4096)
        let code := (home.map fun h => trackCode s h.1 (12 * h.2.1 + h.2.2.1)
          (slotTrack s h.1 (12 * h.2.1 + h.2.2.1) h.2.2.2.2.1 h.2.2.2.2.2).1).getD 0
        let x : Sector := { blankSector ⟨0, 0, 0, 0⟩ with
          code := code, nsid := nsid.toNat, lba := lba.toNat, rmark := (getZone s nsid.toNat z).rmark }
        if uKind s th ≠ 4 then s
        else
          let info := (thatchInfo s th nsid.toNat lba.toNat sh).getD []
          let ok := decide (info ≠ [] ∧ tagCheck s x info = 0)
          let s1 := emit (reconCount s t ok) (.media 2 255 [if ok then 4 else 8, 0, 0, nsid.toNat, lba.toNat])
          if ok then
            let s2 := deliver s1 x info
            cacheInstall s2 3 nsid.toNat lba.toNat (lbaData s2 nsid.toNat lba.toNat)
          else readFailed s1 x 8)

/-- TRACK_PARITY_REBUILD_READ (R139): one revolution reads the written data sectors of a track whose accumulator was lost, and it is
there again. -/
def execTrackParityRebuildRead (p : Fin 32) (q : BitVec 5) (track : BitVec 24) (s : State) : Res :=
  .next (let k := trackKey p q.toNat track.toNat
    let tp := trackTp s p q.toNat track.toNat
    let S := trackPositions (bandAt s p q.toNat track.toNat).2.1 (trackCode s p q.toNat track.toNat)
    setDet s fun d =>
      { d with tracks := d.tracks.map fun t =>
          if t.1 = k ∧ t.2.cols.isNone then (t.1, { t.2 with cols := some (colsOf S tp t.2.secs) }) else t })

end Sys2Proof.Machine
end

