-- ==== Sys2Proof/Machine/Spindle.lean ====
section
/-! DEFINITION. Spindle motor and energy assist (chapter 8): commutation, the state table, speed steps, braking, lost
rotors, assist and fly-height records, calibration and wear. -/
namespace Sys2Proof.Machine
open Sys2Proof

/-! ### Commutation (R202, R203) -/

/-- The commutation step whose floating phase has a crossing of this phase and polarity: steps 0 to 5 float W, V, U, W, V,
U, falling on even steps and rising on odd ones (Table 8-2). -/
def crossingStep (index : Nat) : Option Nat :=
  let ph := index % 4
  let rising := index / 128 % 2
  (rangeFrom 0 6).find? fun k => [2, 1, 0, 2, 1, 0].getD k 3 == ph && k % 2 == rising

/-- ADV entry for a speed in 0.01 rpm (R202). -/
def advOf (s : State) (p v : Nat) : Nat := fget s (SPN_ADV p (min 31 (v / 24000))) SPN_ADV_ADV

/-- The speed that the spindle is judged against: the step in force, the one it accelerates to, or the REF at which a step change that
lost its rotor goes on (R218). -/
def judgedStep (s : State) (p : Nat) : Nat :=
  if spnState s p = 4 then
    if (spnOf s p).step.isSome then rdN s (BRD_SL_REF (slotOf (2 * p) 13).1 (slotOf (2 * p) 13).2)
    else stepSpeed s p (fget s (SPN_CTRL p) SPN_CTRL_STEP)
  else stepSpeed s p (fget s (SPN_STAT p) SPN_STAT_SPEED_STEP)

/-- Crossings within SPD_WTOL of the step are counted; in RUN the speed leaving it sets cause 5 until sixteen crossings
lie within it again (R213). -/
def tolerance (s : State) (p : Nat) : State :=
  let st := spnState s p
  if st ≠ 4 ∧ st ≠ 5 then s
  else
    let tgt := judgedStep s p
    let inside := decide (10000 * absI ((speed s p : Int) - tgt) ≤ fget s (SPN_LIM p) SPN_LIM_SPD_WTOL * tgt)
    let s1 := setSpn s p fun x =>
      let n := if inside then x.inTol + 1 else 0
      { x with inTol := n, offTol := if st != 5 then false else if inside then x.offTol && decide (n < 16) else true }
    sync5 s1 p

/-- A crossing that is plausible (R202): the next commutation time, Δt, the speed, and what the state takes from it. -/
def goodCrossing (s : State) (p k dt t : Nat) : State :=
  let pp := fget s (SPN_MOTOR p) SPN_MOTOR_POLE_PAIRS
  let v := if pp * dt = 0 then 0 else 100000000000 / (pp * dt)
  let due := t + dt / 2 - advOf s p v * 6 * dt / 1024
  let s1 := wrN (wrN s (SPN_ZC p) dt) (SPN_SPEED p) (min (2 ^ 32 - 1) v)
  let s2 := setSpn s1 p fun x =>
    { x with lastStep := some k, lastT := t, plaus := x.plaus + 1, fails := 0, dueT := due % 2 ^ 32, speedAt := uptime s }
  let s3 := fsetb s2 (SPN_STAT p) SPN_STAT_OBS_LOCK true
  if spnState s3 p = 7 ∧ v < fget s3 (SPN_LIM2 p) SPN_LIM2_REGEN_MIN * 100 then goShort s3 p false
  else tolerance s3 p

/-- A step fails: the commutator goes on open-loop at the predicted time (R202). -/
def stepFail (s : State) (p : Nat) : State :=
  let s1 := setSpn s p fun x => { x with fails := x.fails + 1, plaus := 0 }
  let s2 := fset s1 (SPN_STAT p) SPN_STAT_CSTEP ((fget s1 (SPN_STAT p) SPN_STAT_CSTEP + 1) % 6)
  if spnState s2 p = 11 then s2 else driveOut s2 p

/-- A time `dt` after the last plausible crossing lies within ±ZC_TOL percent of Δt of the time predicted for the n-th step (R202). -/
def inWindow (s : State) (p n dt prev : Nat) : Bool :=
  decide (100 * absI ((dt : Int) - n * prev) ≤ fget s (SPN_OBS p) SPN_OBS_ZC_TOL * prev)

/-- ZC_RECORD (R202): crossings are watched in every state but STOPPED and FAILED, and in LOST after T_COAST. An implausible crossing in
the window of a driven step fails it; one outside the window decides nothing. After failed steps Δt is the interval over the steps
it spans (log entry 50). -/
def execZcRecord (p : Fin 32) (index : BitVec 8) (stamp : BitVec 32) (s : State) : Res :=
  .next (let x := spnOf s p
    let st := spnState s p
    if st = 0 ∨ st = 12 ∨ (st = 9 ∧ !x.watch) then s
    else
      let t := stamp.toNat
      let k := crossingStep index.toNat
      let n : Nat := if driven st then x.fails + 1 else 1
      let dt : Nat := (t + 2 ^ 32 - x.lastT) % 2 ^ 32
      let prev : Nat := rdN s (SPN_ZC p)
      let fresh := x.plaus == 0 && !driven st && st != 7
      let timeOk := fresh || inWindow s p n dt prev
      match x.lastStep, k with
      | none, some k => setSpn s p fun x => { x with lastStep := some k, lastT := t }
      | some j, some k =>
        if k = (j + n) % 6 ∧ timeOk then
          let s1 := goodCrossing s p k (dt / n) t
          if driven (spnState s1 p) then fset s1 (SPN_STAT p) SPN_STAT_CSTEP k else s1
        else if driven st then (if timeOk then stepFail s p else s)
        else setSpn s p fun x => { x with plaus := 0, lastStep := some k, lastT := t }
      | _, none => if driven st then (if timeOk then stepFail s p else s) else setSpn s p fun x => { x with plaus := 0 })

/-- COMMUTATION_STEP (R202): at the due time the next SIX entry is sent. -/
def execCommutationStep (p : Fin 32) (s : State) : Res :=
  .next (let st := spnState s p
    if st = 4 ∨ st = 5 ∨ st = 6 then
      driveOut (fset s (SPN_STAT p) SPN_STAT_CSTEP ((fget s (SPN_STAT p) SPN_STAT_CSTEP + 1) % 6)) p
    else s)

/-- COMMUTATION_STEP_FAIL (R202): the window closed without a plausible crossing. -/
def execCommutationStepFail (p : Fin 32) (s : State) : Res :=
  .next (if driven (spnState s p) then stepFail s p else s)

/-- Entry j of the SINE table, signed. -/
def sineAt (s : State) (p j : Nat) : Int :=
  let w := SPN_SINE p (j % 1024 / 2)
  sgn 16 (if j % 2 = 0 then fget s w SPN_SINE_EVEN else fget s w SPN_SINE_ODD)

/-- A phase duty (R203). -/
def duty (s : State) (p : Nat) (amp : Int) (th : Nat) : Nat := (clampI 0 511 (256 + amp * sineAt s p th / 4194304)).toNat

/-- SINE_UPDATE (R203): θ advances open-loop in RAMP, held at HANDOVER speed once there, and follows the observer in TEST. -/
def execSineUpdate (p : Fin 32) (observed : BitVec 10) (s : State) : Res :=
  .next (let st := spnState s p
    if st ≠ 3 ∧ st ≠ 11 then s
    else
      let x := spnOf s p
      let top := fget s (SPN_START p) SPN_START_HANDOVER * 1000000
      let sp := min top (x.olSpeed + fget s (SPN_RAMP p) SPN_RAMP_RAMP_ACC)
      let turn := x.theta + sp * fget s (SPN_MOTOR p) SPN_MOTOR_POLE_PAIRS * 1024
      let th := if st = 3 then turn / 600000000000 % 1024 else observed.toNat
      let s1 := if st = 3 then setSpn s p fun x => { x with olSpeed := sp, theta := turn % 614400000000000 } else s
      let amp := spnOut s1 p
      sendDrive s1 p 2 (duty s1 p amp th * 2 ^ 18 + duty s1 p amp (th + 683) * 2 ^ 9 + duty s1 p amp (th + 341)))

/-! ### Speed steps (R207, R208) -/

/-- A course of the mechanism has sectors that wait for a rewrite (R173). -/
def rewritePending (s : State) (p : Nat) : Bool :=
  [2 * p, 2 * p + 1].any fun a => !(slice s a).pend.isEmpty || !(slice s a).wait.isEmpty

/-- A request of port `p` waits no more. -/
def leaveWaits (s : State) (p : Nat) : State := { s with shelf := { s.shelf with waits := s.shelf.waits.filter (· != p) } }

/-- Begin a step change, or replace the target of the one that runs (R208): STEP with REF at the step in force, and the switch of the
spindle slot first (R192), once a switch that runs has ended. -/
def beginStep (s : State) (p i : Nat) : State :=
  let faster := decide (speed s p < stepSpeed s p i)
  let old := spnState s p
  let s1 := setSpnState (setSpn (leaveWaits s p) p fun x => { x with step := some ⟨0, i, faster⟩, near := 0 }) p 6
  let s2 := if old = 5 then spnSlotRef s1 p (stepSpeed s p (fget s (SPN_STAT p) SPN_STAT_SPEED_STEP)) else s1
  stepSwitch (syncShelf s2) p

/-- Join the queue of starts and faster steps (R207). -/
def joinWaits (s : State) (p : Nat) : State :=
  if s.shelf.waits.contains p then s else { s with shelf := { s.shelf with waits := s.shelf.waits ++ [p] } }

/-- The step a spindle in RUN or STEP runs at or goes to. -/
def stepAimed (s : State) (p : Nat) : Nat := ((spnOf s p).step.map (·.target)).getD (fget s (SPN_STAT p) SPN_STAT_SPEED_STEP)

/-- A step change is asked for, or another target during STEP (R208): a slower one is checked by the ledger (R315), a faster one waits
for admission (R207); both wait for pending rewrites (R173), and for a hand-over that is to begin (R393). An index with no entry asks for nothing. -/
def askStep (s : State) (p i : Nat) : State :=
  let st := spnState s p
  if stepSpeed s p i = 0 then s
  else if st = 4 then (if (spnOf s p).step.isSome then setSpn s p fun x => { x with step := x.step.map fun c => { c with target := i } }
    else spnSlotRef s p (stepSpeed s p i))
  else if (st ≠ 5 ∧ st ≠ 6) ∨ stepAimed s p = i then s
  else if speed s p < stepSpeed s p i then joinWaits s p
  else if !requestPasses s p (stepSpeed s p i) then holdRequest s p 0 i
  else if rewritePending s p || s.prt.hoWait then joinWaits s p
  else beginStep s p i

/-- SPINUP_MAX in use. -/
def spinupMax (s : State) : Nat := max 1 (fget s SPN_SHELF_CTRL SPN_SHELF_CTRL_SPINUP_MAX)

/-- The effective policy of port `p`'s mechanism, and its MAX_SPINUP, are kept (R336): fewer than MAX_SPINUP mechanisms
of the same policy count. -/
def policyOpen (s : State) (p : Nat) : Bool :=
  match mechUnit s p with
  | none => true
  | some u =>
    let pid := policyNow s u
    let n := ((rangeFrom 0 32).filter fun r => countsSpinup s r && ((mechUnit s r).map (policyNow s)) == some pid).length
    decide (n < (powerRec s u).maxSpinup)

/-- The braking mechanism a waiting start may pair with (R207). -/
def pairFor (s : State) (p : Nat) : Option Nat :=
  if !fbit s (SPN_CTRL p) SPN_CTRL_PAIR_EN then none
  else (rangeFrom 0 32).find? fun b => b != p && spnState s b == 7 && fbit s (SPN_CTRL b) SPN_CTRL_PAIR_EN &&
    !(rangeFrom 0 32).any fun r => (spnOf s r).pairOf == some b

/-- A start is admitted: into CATCH, alone or paired with a brake (R207, Table 8-3). -/
def admitStart (s : State) (p : Nat) (pair : Option Nat) : State :=
  let s1 := setSpn (leaveWaits s p) p fun x => { x with wantRun := false, wantStop := false, coast := false, pairOf := pair }
  let s2 := match pair with
    | some b => fsetb (fsetb s1 (SPN_STAT p) SPN_STAT_PAIRED true) (SPN_STAT b) SPN_STAT_PAIRED true
    | none => s1
  let s3 := fset (count s2 (SPN_CNT p 0) 1 (.spn p) SPN_EVT_SAT) (SPN_STAT p) SPN_STAT_TRIES 0
  let x := slotOf (2 * p) 13
  goCatch (enginePower s3 x.1) p

/-- A waiting start or step of port `p` may be admitted: no earlier request that only SPINUP_MAX holds stands before it
(R207). -/
def firstInLine (s : State) (p : Nat) : Bool :=
  (s.shelf.waits.takeWhile (· != p)).all fun r =>
    !policyOpen s r || ((spnOf s r).wantRun && !portUp s r) || (4 < spnState s r && spnState s r < 7 && rewritePending s r) ||
      (spnOf s r).chopStop

/-- SPINUP_ADMIT (R207); a hand-over that is to begin holds starts and steps (R393). -/
def execSpinupAdmit (p : Fin 32) (s : State) : Res :=
  .next (if !s.shelf.waits.contains p.val || !firstInLine s p || inSafe s || s.prt.hoWait then s
    else
      let room := decide (fget s SPN_SHELF_CTRL SPN_SHELF_CTRL_SPINUPS < spinupMax s)
      let st := spnState s p
      let tgt := fget s (SPN_CTRL p) SPN_CTRL_STEP
      if (spnOf s p).wantRun ∧ (st = 0 ∨ st = 7 ∨ st = 8) then
        if portUp s p ∧ policyOpen s p ∧ !(spnOf s p).chopStop then
          if room then admitStart s p none
          else match pairFor s p with
            | some b => admitStart s p (some b)
            | none => s
        else s
      else if (st = 5 ∨ st = 6) ∧ stepAimed s p ≠ tgt then
        let faster := decide (speed s p < stepSpeed s p tgt)
        if rewritePending s p ∨ (faster ∧ !(countsSpinup s p || (room && policyOpen s p))) then s
        else if !faster ∧ !requestPasses s p (stepSpeed s p tgt) then holdRequest (leaveWaits s p) p 0 tgt
        else beginStep s p tgt
      else leaveWaits s p)

/-- A start request (R204, R207, R218). -/
def askRun (s : State) (p : Nat) : State :=
  let st := spnState s p
  let i := fget s (SPN_CTRL p) SPN_CTRL_STEP
  if st = 0 ∨ st = 7 ∨ st = 8 ∨ ((st = 9 ∨ st = 10) ∧ (spnOf s p).wantStop) then joinWaits (setSpn s p fun x => { x with wantRun := true, wantStop := false }) p
  else if st = 12 ∨ st = 11 then s
  else askStep (setSpn s p fun x => { x with wantStop := false }) p i

/-- SPN_REQ_RUN (R204): REQ = 1 with STEP. -/
def execSpnReqRun (m : Master) (p : Fin 32) (step : BitVec 2) (s : State) : Res :=
  .next (regWrite s m (SPN_CTRL p) fun s =>
    askRun (fset (fset s (SPN_CTRL p) SPN_CTRL_REQ 1) (SPN_CTRL p) SPN_CTRL_STEP step.toNat) p)

/-- SPN_STEP_WRITE (R208). -/
def execSpnStepWrite (m : Master) (p : Fin 32) (step : BitVec 2) (s : State) : Res :=
  .next (regWrite s m (SPN_CTRL p) fun s => askStep (fset s (SPN_CTRL p) SPN_CTRL_STEP step.toNat) p step.toNat)

/-! ### Stops (R204, R209, R315, R466) -/

/-- A stop goes ahead (R204, R218): heads are unloaded before the brake. -/
def doStop (s : State) (p : Nat) (coast : Bool) : State :=
  let st := spnState s p
  let s0 := setSpn (leaveWaits s p) p fun x => { x with wantRun := false, wantStop := true, coast := coast }
  if st = 4 ∨ st = 5 ∨ st = 6 then
    if anyLoaded s p then unloadHeads s0 p false
    else if coast then sendDrive (setSpnState s0 p 7) p 0 0 else goBrake s0 p
  else if st = 1 ∧ anyLoaded s p then unloadHeads s0 p false
  else if st = 1 ∨ st = 2 ∨ st = 3 then goShort s0 p false
  else if st = 9 then unloadHeads (setSpnState s0 p 10) p false
  else if st = 8 then setSpn s0 p fun x => { x with alignNext := false }
  else if st = 11 then goBrake s0 p
  else if st = 10 then s0
  else setSpn s0 p fun x => { x with wantStop := false, coast := false }

/-- A stop or coast request: it waits while the ledger's check fails (R315). -/
def askStop (s : State) (p : Nat) (coast : Bool) : State :=
  if requestPasses s p 0 then doStop s p coast else holdRequest s p (if coast then 2 else 1) 0

/-- SPN_REQ_STOP (R204). -/
def execSpnReqStop (m : Master) (p : Fin 32) (s : State) : Res :=
  .next (regWrite s m (SPN_CTRL p) fun s => askStop (fset s (SPN_CTRL p) SPN_CTRL_REQ 0) p false)

/-- SPN_REQ_COAST (R315). -/
def execSpnReqCoast (m : Master) (p : Fin 32) (s : State) : Res :=
  .next (regWrite s m (SPN_CTRL p) fun s => askStop (fset s (SPN_CTRL p) SPN_CTRL_REQ 2) p true)

/-- The slots of a mechanism's loops on one slice are set OFF as it unloads, or AUTO as it loads (R196). -/
def sliceSlots (s : State) (a mode : Nat) : State :=
  forAll [0, 1, 2, 3, 4, 9, 10, 11, 12] s fun s r =>
    let x := slotOf a r
    if claimed s (baseBRD x.1) then s else fset s (BRD_SL_CTRL x.1 x.2) BRD_SL_CTRL_MODE mode

/-- The heads of actuator `a` are off the platters: its mode, the head-load account, its slots. -/
def sliceUnloaded (s : State) (a : Nat) : State :=
  if !(slice s a).unloading then s
  else
    let t := setSlice s a fun x => { x with unloading := false }
    if srvMode t a = 0 then t else sliceSlots (setSrvMode (count t (BGW_WEAR_W0 a) 1 .bgw BGW_EVT_SAT) a 0) a 0

/-- A head unload has completed on port `p` (R466): the slices that unloaded, and what waited for it. -/
def headUnloaded (s : State) (p : Nat) : State :=
  let s1 := setSpn (sliceUnloaded (sliceUnloaded s (2 * p)) (2 * p + 1)) p fun x => { x with parking := false }
  if !(spnOf s p).parking then s1
  else
    let s2 := s1
    let st := spnState s2 p
    let x := spnOf s2 p
    if st = 10 ∨ (st = 1 ∧ x.wantStop) then goShort s2 p (!x.wantStop && !x.wantRun)
    else if x.wantStop ∧ (st = 4 ∨ st = 5 ∨ st = 6) then
      let s3 := moveSurfs s2 p [2, 3, 4] 1
      if x.coast then sendDrive (setSpnState s3 p 7) p 0 0 else goBrake s3 p
    else s2

/-! ### Starts and the catch (Table 8-3) -/

/-- CATCH_LOCK: twelve plausible crossings at or above CATCH_MIN. -/
def execCatchLock (p : Fin 32) (s : State) : Res :=
  .next (let st := spnState s p
    if (st = 1 ∨ (st = 9 ∧ (spnOf s p).watch)) ∧ 12 ≤ (spnOf s p).plaus ∧
        fget s (SPN_LIM p) SPN_LIM_CATCH_MIN * 100 ≤ speed s p then
      let s1 := fset s (SPN_STAT p) SPN_STAT_CSTEP ((spnOf s p).lastStep.getD 0)
      goAccel (evtSet (count s1 (SPN_CNT p 1) 1 (.spn p) SPN_EVT_SAT) (.spn p) SPN_EVT_CATCH_OK) p
    else s)

/-- CATCH_NO_CROSSING: none within 20 ms. -/
def execCatchNoCrossing (p : Fin 32) (s : State) : Res :=
  .next (if spnState s p = 1 ∧ (spnOf s p).lastStep.isNone then goAlign s p else s)

/-- CATCH_IMPLAUSIBLE: crossings that do not do for 20 ms. -/
def execCatchImplausible (p : Fin 32) (s : State) : Res :=
  .next (if spnState s p = 1 ∧ (spnOf s p).lastStep.isSome then goShort s p true else s)

/-- ALIGN_DONE: RAMP with open-loop SINE from step vector 0, the slot in MANUAL with RAMP_AMP. -/
def execAlignDone (p : Fin 32) (s : State) : Res :=
  .next (if spnState s p = 2 then
      let s1 := setSpn (setSpnState s p 3) p fun x => { x with theta := 0, olSpeed := 0, plaus := 0, lastStep := none }
      fset (spnSlotMode s1 p 1 (fget s (SPN_START_AMP p) SPN_START_AMP_RAMP_AMP)) (SPN_STAT p) SPN_STAT_DRIVE 2
    else s)

/-- RAMP_HANDOVER: HANDOVER speed and twelve plausible crossings; the slot enters AUTO from RAMP_AMP. -/
def execRampHandover (p : Fin 32) (s : State) : Res :=
  .next (let x := spnOf s p
    if spnState s p = 3 ∧ fget s (SPN_START p) SPN_START_HANDOVER * 1000000 ≤ x.olSpeed ∧ 12 ≤ x.plaus then
      let k := slotOf (2 * p) 13
      let s1 := wrN s (BRD_SL_OUT k.1 k.2) (fget s (SPN_START_AMP p) SPN_START_AMP_RAMP_AMP)
      goAccel (fset s1 (SPN_STAT p) SPN_STAT_CSTEP (x.lastStep.getD 0)) p
    else s)

/-- The spindle of port `p` goes FAILED (Tables 8-3, 1-3): START_FAIL; the WAKING leaves fail, and the MECH unit has a
fault of its own. Their cause code is a free value. -/
def spnFail (s : State) (p : Nat) : State :=
  let s1 := sendDrive (evtSet (setSpnState s p 12) (.spn p) SPN_EVT_START_FAIL) p 0 0
  let c := freeVal s1 % 256
  let s2 := forAll (surfsOf s1 p) (drawn s1) fun s u => if uState s u = 2 then leafFail s u c else s
  match mechUnit s2 p with
  | some u => setAux (failOwn s2 u c) u fun x => { x with wakeWanted := false }
  | none => s2

/-- RAMP_TIMEOUT: another try by SHORT and ALIGN, or FAILED after START_TRIES. -/
def execRampTimeout (p : Fin 32) (s : State) : Res :=
  .next (if spnState s p = 3 then
      let t := fget s (SPN_STAT p) SPN_STAT_TRIES + 1
      let s1 := fset s (SPN_STAT p) SPN_STAT_TRIES t
      if max 1 (fget s (SPN_START p) SPN_START_START_TRIES) ≤ t then spnFail s1 p
      else goShort (count s1 (SPN_CNT p 6) 1 (.spn p) SPN_EVT_SAT) p true
    else s)

/-- The temperature band of the mechanism on port `p`. -/
def mechBand (s : State) (p : Nat) : Nat := min 5 (fget s (THM_MECH_W0 p) THM_MECH_W0_BAND)

/-- The assist slot and the fly-height slot of head lane j = 4k + l of port `p`. -/
def assistSlot (p j : Nat) : Nat × Nat := slotOf (2 * p + j / 4) (5 + j % 4)
def flySlot (p j : Nat) : Nat × Nat := slotOf (2 * p + j / 4) (9 + j % 4)

/-- The REFs of a lane that does not write follow its head and the temperature band (R215). -/
def laneRefs (s : State) (p j : Nat) : State :=
  if (spnOf s p).assistOn.contains j then s
  else
    let q := laneHead s p j
    let b := mechBand s p
    let x := assistSlot p j
    let y := flySlot p j
    wrN (wrN s (BRD_SL_REF x.1 x.2) (fget s (AST_CAL_W1 p q b) AST_CAL_W1_MON_REF)) (BRD_SL_REF y.1 y.2) (fget s (AST_CAL_W2 p q b) AST_CAL_W2_FH_RREF)

/-- The same for every lane of a port. -/
def portRefs (s : State) (p : Nat) : State := forAll (rangeFrom 0 8) s fun s j => laneRefs s p j

/-- Heads are loaded once the spindle runs (Table 1-3, R196): the slices go to LOADING and their slots to AUTO. -/
def loadHeads (s : State) (p : Nat) : State :=
  forAll (actsOf s p) (portRefs s p) fun s a =>
    if srvMode s a = 0 then sliceSlots (setSrvMode (takeTargets (enginePower s (a / 4)) a) a 1) a 2 else s

/-- SPINDLE_RUN_REACHED: RUN; an interrupted step change begins again (R218), heads are loaded, and the firmware clears a
following-error action of the spindle slot (R219). -/
def execSpindleRunReached (p : Fin 32) (s : State) : Res :=
  .next (if spnState s p = 4 ∧ 16 ≤ (spnOf s p).inTol then
      let tgt := ((spnOf s p).step.map (·.target)).getD (fget s (SPN_CTRL p) SPN_CTRL_STEP)
      let s2 := fwFeClear (setSpnState s p 5) (slotOf (2 * p) 13)
      match (spnOf s p).step with
      | some _ =>
        let ref := rdN s (BRD_SL_REF (slotOf (2 * p) 13).1 (slotOf (2 * p) 13).2)
        loadHeads (spnSlotRef (beginStep s2 p tgt) p ref) p
      | none => loadHeads (spnSlotRef (fset s2 (SPN_STAT p) SPN_STAT_SPEED_STEP tgt) p (stepSpeed s p tgt)) p
    else s)

/-- SHORT_END: no crossing for 200 ms. A mechanism stopped by a chopper fault has its units ASLEEP (Table 1-3). -/
def execShortEnd (p : Fin 32) (s : State) : Res :=
  .next (if spnState s p = 8 then
      if (spnOf s p).alignNext then goAlign s p
      else
        let s1 := goStopped s p
        if (spnOf s p).chopStop then moveSurfs (setSpn s1 p fun x => { x with chopStop := false }) p [2, 3, 4] 1 else s1
    else s)

/-! ### Braking and the bus (R209, R210) -/

/-- REGEN_ADMIT (R209): the first in line, with fewer than BRAKE_MAX regenerating. -/
def execRegenAdmit (p : Fin 32) (s : State) : Res :=
  .next (if s.shelf.regenQ.head? = some p.val then driveOut s p else s)

/-- SPEED_REF_SLEW_TICK (R208): REF moves by at most SLEW; a step change that waited for a switch begins it. -/
def execSpeedRefSlewTick (p : Fin 32) (s : State) : Res :=
  .next (let s := stepSwitch s p
    match (spnOf s p).step with
    | some c =>
      if c.phase = 2 ∧ spnState s p = 6 then
        let k := slotOf (2 * p) 13
        let r := rdN s (BRD_SL_REF k.1 k.2)
        let d := fget s (SPN_RAMP p) SPN_RAMP_SLEW
        let t := stepSpeed s p c.target
        spnSlotRef s p (if r < t then min t (r + d) else max t (r - d))
      else s
    | none => s)

/-- A bus record is taken: the voltage, the chopper fault, the trips, and, while some bus is above BUS_HI, every running limit is halved
(R209, log entry 50). -/
def busTaken (s : State) (p flags v : Nat) : State :=
  let reg := s.shelf.regen.contains p
  let hi := decide (fget s SPN_SHELF_THR SPN_SHELF_THR_BUS_HI < v)
  let trip := reg && decide (fget s SPN_SHELF_THR SPN_SHELF_THR_BUS_TRIP < v)
  let s1 := fset s (SPN_BUS p) SPN_BUS_BUS_V v
  let s2 := setSpn s1 p fun x =>
    { x with busSeen := true, chopFlt := flags % 2 == 1, trips := if trip then x.trips + 1 else 0 }
  let s3 := forAll s2.shelf.regen s2 fun s r =>
    setSpn s r fun x => { x with halved := if busHigh s2 then x.halved + 1 else 0 }
  if hi then evtSet s3 (.spn p) SPN_EVT_BUS_HI else s3

/-- BUS_RECORD (R209, R210): BUS_V, the count above BUS_TRIP while regenerating, and above BUS_HI the event and the halved
limit. -/
def execBusRecord (p : Fin 32) (flags : BitVec 8) (volts : BitVec 16) (s : State) : Res :=
  .next (let t := busTaken s p flags.toNat volts.toNat
    if s.shelf.regen.contains p.val then sendRegen t p else t)

/-- A chopper fault (R210, R211): REGEN_STOP and COAST to every regenerating mechanism unless in SAFE, SHORT to this one
with its heads unloaded, and the retirement. -/
def chopperFault (s : State) (p : Nat) : State :=
  let x := spnOf s p
  let why := if x.chopFlt then 1 else 2
  let s0 := setSpn s p fun x => { x with chopFlt := false, trips := 0 }
  let s1 := if inSafe s then s0 else
    let t := forAll (s0.shelf.regen.filter (· != p)) (fsetb s0 SPN_SHELF_BUS SPN_SHELF_BUS_REGEN_STOP true) fun s r => sendDrive s r 0 0
    { t with shelf := { t.shelf with regen := [], regenQ := t.shelf.regen.filter (· != p) ++ t.shelf.regenQ.filter (· != p) } }
  let s2 := evtSet (fset (fsetb s1 (SPN_CHOP p) SPN_CHOP_RETIRED true) (SPN_CHOP p) SPN_CHOP_WHY why) (.spn p) SPN_EVT_CHOP_FAULT
  let s3 := { s2 with shelf := { s2.shelf with regen := s2.shelf.regen.filter (· != p), regenQ := s2.shelf.regenQ.filter (· != p) } }
  let slow := decide (speed s3 p < fget s3 (SPN_LIM2 p) SPN_LIM2_UNLOAD_MIN * 100)
  let s4 := if anyLoaded s3 p ∧ !(spnOf s3 p).parking then unloadHeads s3 p slow else s3
  goShort (setSpn s4 p fun x => { x with chopStop := true, step := none }) p false

/-- A chopper is found faulty (R210). -/
def chopperFaulty (s : State) (p : Nat) : Bool := (spnOf s p).chopFlt || decide (3 ≤ (spnOf s p).trips)

/-- REGEN_STOP_CLEAR (R210): every bus has stayed below BUS_OK for 100 ms; braking mechanisms regenerate again in request
order (R218). -/
def execRegenStopClear (s : State) : Res :=
  .next (if fbit s SPN_SHELF_BUS SPN_SHELF_BUS_REGEN_STOP ∧ (rangeFrom 0 32).all fun p => !(spnOf s p).busSeen ||
        decide (fget s (SPN_BUS p) SPN_BUS_BUS_V < fget s SPN_SHELF_BUS SPN_SHELF_BUS_BUS_OK) then
      let s1 := fsetb s SPN_SHELF_BUS SPN_SHELF_BUS_REGEN_STOP false
      forAll s1.shelf.regenQ s1 driveOut
    else s)

/-! ### The lost rotor (R212) -/

/-- The observer of port `p` has lost the rotor. -/
def observerLost (s : State) (p : Nat) : Bool :=
  driven (spnState s p) && decide (max 1 (fget s (SPN_OBS p) SPN_OBS_ZC_FAIL_N) ≤ (spnOf s p).fails)

/-- Observer loss: LOST, cause 5, COAST. -/
def observerLoss (s : State) (p : Nat) : State :=
  let s1 := evtSet (count (goLost s p) (SPN_CNT p 3) 1 (.spn p) SPN_EVT_SAT) (.spn p) SPN_EVT_OBS_LOST
  sendDrive (setSpn s1 p fun x => { x with watch := false }) p 0 0

/-- COAST_WAIT_END (R212): T_COAST over, crossings are watched. -/
def execCoastWaitEnd (p : Fin 32) (s : State) : Res :=
  .next (if spnState s p = 9 ∧ portUp s p then setSpn s p fun x => { x with watch := true, plaus := 0, lastStep := none } else s)

/-- The speed of a spindle that coasted for `us` µs from its last good speed (R465), 0.01 rpm. -/
def coastEstimate (s : State) (p us : Nat) : Nat :=
  let v := speed s p
  let top := maxN ((speedTable s p).map fun e => e.rpm * 100)
  let i := fget s (BAL_MECH_PHYS p) BAL_MECH_PHYS_INERTIA * (top * top * top)
  let d := fget s (BAL_MECH_PWR p) BAL_MECH_PWR_DRAG_MAX * us * v * 911891
  if i + d = 0 then v else v * i / (i + d)

/-- CATCH_WINDOW_EXPIRE (R212): CATCH_FAIL, and the heads are unloaded at any speed, as an emergency below UNLOAD_MIN. -/
def execCatchWindowExpire (p : Fin 32) (elapsedUs : BitVec 32) (s : State) : Res :=
  .next (if spnState s p = 9 ∧ portUp s p then
      let slow := decide (coastEstimate s p elapsedUs.toNat < fget s (SPN_LIM2 p) SPN_LIM2_UNLOAD_MIN * 100)
      let s1 := evtSet (count s (SPN_CNT p 2) 1 (.spn p) SPN_EVT_SAT) (.spn p) SPN_EVT_CATCH_FAIL
      unloadHeads (setSpnState s1 p 10) p slow
    else s)

/-! ### Assist and fly-height (R214 to R217) -/

/-- A write starts on a head lane (R215): the assist slot in MANUAL with the calibrated drive, its REF and the fly-height
REF from the entry of the head and band. -/
def assistStart (s : State) (p j : Nat) : State :=
  let q := laneHead s p j
  let b := mechBand s p
  let x := assistSlot p j
  let y := flySlot p j
  let s1 := setSpn s p fun z => { z with assistOn := if z.assistOn.contains j then z.assistOn else j :: z.assistOn }
  let s2 := wrN (fset s1 (BRD_SL_CTRL x.1 x.2) BRD_SL_CTRL_MODE 1) (BRD_SL_MAN x.1 x.2) (fget s1 (AST_CAL_W0 p q b) AST_CAL_W0_DRIVE)
  let s3 := wrN s2 (BRD_SL_REF x.1 x.2) (fget s1 (AST_CAL_W1 p q b) AST_CAL_W1_MON_REF)
  let s4 := wrN (enginePower s3 x.1) (BRD_SL_REF y.1 y.2) (fget s1 (AST_CAL_W2 p q b) AST_CAL_W2_FH_WREF)
  sendCmd s4 p [⟨4, j, b2n (rbit s4 (AST_CTRL p) q) * 2 ^ 31 + fget s1 (AST_CAL_W0 p q b) AST_CAL_W0_DRIVE⟩]

/-- A write ends on a head lane: MANUAL with MAN = 0, and the read clearance. -/
def assistEnd (s : State) (p j : Nat) : State :=
  let q := laneHead s p j
  let x := assistSlot p j
  let y := flySlot p j
  let s1 := setSpn s p fun z => { z with assistOn := z.assistOn.filter (· != j), monLost := z.monLost.filter (· != j) }
  let s2 := wrN (fset s1 (BRD_SL_CTRL x.1 x.2) BRD_SL_CTRL_MODE 1) (BRD_SL_MAN x.1 x.2) 0
  let s3 := wrN s2 (BRD_SL_REF y.1 y.2) (fget s2 (AST_CAL_W2 p q (mechBand s p)) AST_CAL_W2_FH_RREF)
  sync5 (sendCmd s3 p [⟨4, j, 0⟩]) p

/-- The SURF unit of head q = 12k + h of port `p`. -/
def surfOf (s : State) (p q : Nat) : Option Nat := surfUnit s (2 * p + q / 12) (q % 12)

/-- The assist of a head is retired (R217). -/
def retireAssist (s : State) (p q : Nat) : State :=
  if fbit s (AST_WEAR_W2 p q) AST_WEAR_W2_RETIRED then s
  else
    let s1 := wbit (fsetb s (AST_WEAR_W2 p q) AST_WEAR_W2_RETIRED true) (AST_CTRL p) q false
    let s2 := evtSet s1 (.ast p) AST_EVT_RETIRE
    let s3 := match surfOf s2 p q with
      | some u => retireUnit s2 u 0x63
      | none => s2
    sync5 s3 p

/-- DRIFT of head q (R217). -/
def driftOf (s : State) (p q : Nat) : Nat :=
  min 255 (maxN ((rangeFrom 0 6).map fun b =>
    let d0 := fget s (AST_CAL_W3 p q b) AST_CAL_W3_DRIVE0
    if d0 = 0 then 0 else 100 * (fget s (AST_CAL_W0 p q b) AST_CAL_W0_DRIVE - d0) / d0))

/-- The wear account of head q is brought up to date and acted on (R217). -/
def wearUpdate (s : State) (p q : Nat) : State :=
  let drift := driftOf s p q
  let lim := max 1 (fget s (AST_LIM p) AST_LIM_DRIFT_LIM)
  let budget := rdN s (AST_WEAR_W3 p q)
  let on := if budget = 0 then 0 else 100 * fget s (AST_WEAR_W0 p q) fCNT / budget
  let wear := min 255 (max on (100 * drift / lim))
  let old := fget s (AST_WEAR_W2 p q) AST_WEAR_W2_DRIFT
  let s1 := fset (fset s (AST_WEAR_W2 p q) AST_WEAR_W2_DRIFT drift) (AST_WEAR_W2 p q) AST_WEAR_W2_WEAR wear
  let s2 := match surfOf s1 p q with
    | some u => fset s1 (TRS_UNIT_HEALTH u) TRS_UNIT_HEALTH_WEAR (min wear (2 ^ TRS_UNIT_HEALTH_WEAR.width - 1))
    | none => s1
  let warn := fget s2 (AST_LIM p) AST_LIM_DRIFT_WARN
  let vlim := fget s2 (AST_LIM p) AST_LIM_VFY_LIM
  let vfy := fget s2 (AST_WEAR_W2 p q) AST_WEAR_W2_VFY_RATE
  let s3 := if warn ≤ drift then
      let t := if old < warn then evtSet s2 (.ast p) AST_EVT_DRIFT_WARN else s2
      match surfOf t p q with
      | some u => leafGrade t u 1 0x61
      | none => t
    else s2
  let s4 := if vlim ≤ vfy then
      match surfOf s3 p q with
      | some u => leafGrade s3 u 2 0x62
      | none => s3
    else s3
  if 100 ≤ wear ∨ 2 * vlim ≤ vfy then retireAssist s4 p q else s4

/-- A monitor record of a lane is taken: the loop goes to AUTO, the ON time and the wear are counted, and a lost monitor is
found again (R213, R215). -/
def monTaken (s : State) (p lane : Nat) : State :=
  let x := assistSlot p lane
  let on := (spnOf s p).assistOn.contains lane
  let q := laneHead s p lane
  let s1 := if on ∧ slotMode s x.1 x.2 = 1 then fset s (BRD_SL_CTRL x.1 x.2) BRD_SL_CTRL_MODE 2 else s
  let us := tabGet 0 (spnOf s1 p).onUs q + 10
  let s2 := if !on then s1
    else if us < 100000 then setSpn s1 p fun z => { z with onUs := tabPut z.onUs q us }
    else wearUpdate (count (setSpn s1 p fun z => { z with onUs := tabPut z.onUs q 0 }) (AST_WEAR_W0 p q) 1 (.ast p) AST_EVT_SAT) p q
  if (spnOf s2 p).monLost.contains lane then sync5 (setSpn s2 p fun z => { z with monLost := z.monLost.filter (· != lane) }) p
  else s2

/-- MON_RECORD (R215, R217): the lane's assist slot is fed, goes from MANUAL to AUTO at the first record of a write, and
ON_TIME gains 10 µs. -/
def execMonRecord (p : Fin 32) (lane : Fin 8) (value : BitVec 16) (t : BitVec 48) (s : State) : Res :=
  .next (let x := assistSlot p lane
    brdTrigger (monTaken s p lane) x.1 x.2 t.toNat 0 value.toNat false)

/-- MON_TIMEOUT (R213): no record for 30 µs while the drive is on. -/
def execMonTimeout (p : Fin 32) (lane : Fin 8) (s : State) : Res :=
  .next (if (spnOf s p).assistOn.contains lane.val ∧ !(spnOf s p).monLost.contains lane.val then
      sync5 (evtSet (setSpn s p fun z => { z with monLost := lane.val :: z.monLost }) (.ast p) AST_EVT_MON_FAULT) p
    else s)

/-- CLEARANCE_RECORD (R215). -/
def execClearanceRecord (p : Fin 32) (lane : Fin 8) (value : BitVec 16) (t : BitVec 48) (s : State) : Res :=
  .next (let y := flySlot p lane
    brdTrigger s y.1 y.2 t.toNat 0 value.toNat false)

/-- A calibration of entry (q, b) begins, or is refused with RESULT 3 (Table 8-8). -/
def calStart (s : State) (p q b : Nat) : State :=
  if fbit s (AST_CALCMD p) AST_CALCMD_GO then s
  else
    let s1 := fset (fset s (AST_CALCMD p) AST_CALCMD_Q q) (AST_CALCMD p) AST_CALCMD_B b
    if 23 < q ∨ 5 < b ∨ fbit s (AST_WEAR_W2 p (min q 23)) AST_WEAR_W2_RETIRED then fset s1 (AST_CALCMD p) AST_CALCMD_RESULT 3
    else fsetb (fset s1 (AST_CALCMD p) AST_CALCMD_RESULT 0) (AST_CALCMD p) AST_CALCMD_GO true

/-- AST_CAL_GO (R216). -/
def execAstCalGo (m : Master) (p : Fin 32) (q : BitVec 5) (b : BitVec 3) (s : State) : Res :=
  .next (regWrite s m (AST_CALCMD p) fun s => calStart s p q.toNat b.toNat)

/-- The head lanes whose head is q are recalibrated after an assist action: it is cleared (R219, Table 8-4). -/
def recalDone (s : State) (p q : Nat) : State :=
  forAll ((spnOf s p).recal.filter fun j => laneHead s p j == q) s fun s j =>
    let x := assistSlot p j
    let s1 := setSpn s p fun z => { z with recal := z.recal.filter (· != j) }
    sync5 (fwFeClear s1 x) p

/-- The writes of a calibration (R216): from drive `d`, each written width measured in turn; within ±2 % of the target the drive passes,
else it moves by 2 % towards the target (log entry 50). -/
def calSearch (target : Nat) : List Nat → Nat → Option Nat
  | [], _ => none
  | w :: l, d =>
    if 50 * absI ((w : Int) - target) ≤ target then some d
    else calSearch target l (if w < target then min 65535 (d + max 1 (d / 50)) else d - max 1 (d / 50))

/-- The drive that the calibration of an entry finds within 16 writes of the measured widths (R216). -/
def calDrive (s : State) (p q b : Nat) (widths : List (BitVec 16)) : Option Nat :=
  calSearch (storedOf s p).widthTarget ((widths.map (·.toNat)).take 16) (fget s (AST_CAL_W0 p q b) AST_CAL_W0_DRIVE)

/-- The end of a calibration: DRIVE, MON_REF and a first DRIVE0 on a pass; a second failure in a row retires the head's
assist (R216, R217). -/
def calEnd (s : State) (p : Nat) (found : Option Nat) (mon : Nat) : State :=
  let q := min 23 (fget s (AST_CALCMD p) AST_CALCMD_Q)
  let b := min 5 (fget s (AST_CALCMD p) AST_CALCMD_B)
  let s0 := fset (fsetb s (AST_CALCMD p) AST_CALCMD_GO false) (AST_CALCMD p) AST_CALCMD_RESULT (if found.isSome then 1 else 2)
  match found with
  | some drive =>
      let t := fset (fset s0 (AST_CAL_W0 p q b) AST_CAL_W0_DRIVE drive) (AST_CAL_W1 p q b) AST_CAL_W1_MON_REF mon
      let t := if fget t (AST_CAL_W3 p q b) AST_CAL_W3_DRIVE0 = 0 then fset t (AST_CAL_W3 p q b) AST_CAL_W3_DRIVE0 drive else t
      let t := setSpn (evtSet t (.ast p) AST_EVT_CAL_DONE) p fun z => { z with calFails := tabDel z.calFails q }
      recalDone (wearUpdate t p q) p q
  | none =>
      let n := tabGet 0 (spnOf s0 p).calFails q + 1
      let t := setSpn (evtSet s0 (.ast p) AST_EVT_CAL_FAIL) p fun z => { z with calFails := tabPut z.calFails q n }
      if 2 ≤ n then retireAssist t p q else t

/-- The calibration of the entry that AST_CALCMD names ends with these written widths, and the mean monitor value at the drive found. -/
def calWidths (s : State) (p : Nat) (widths : List (BitVec 16)) (mon : Nat) : State :=
  calEnd s p (calDrive s p (min 23 (fget s (AST_CALCMD p) AST_CALCMD_Q)) (min 5 (fget s (AST_CALCMD p) AST_CALCMD_B)) widths) mon

/-- ASSIST_CAL_DONE (R216). -/
def execAssistCalDone (p : Fin 32) (widths : List (BitVec 16)) (mon : BitVec 16) (s : State) : Res :=
  .next (if fbit s (AST_CALCMD p) AST_CALCMD_GO then calWidths s p widths mon.toNat else s)

/-- CHOP_SVC_CLR (R210): the retirement clears. -/
def execChopSvcClr (m : Master) (p : Fin 32) (s : State) : Res :=
  .next (regWrite s m (SPN_CHOP p) fun s =>
    fset (fsetb s (SPN_CHOP p) SPN_CHOP_RETIRED false) (SPN_CHOP p) SPN_CHOP_WHY 0)

/-- CHOP_SET (R219): RETIRED with WHY = 3. -/
def execChopSet (m : Master) (p : Fin 32) (s : State) : Res :=
  .next (regWrite s m (SPN_CHOP p) fun s =>
    fset (fsetb s (SPN_CHOP p) SPN_CHOP_RETIRED true) (SPN_CHOP p) SPN_CHOP_WHY 3)

end Sys2Proof.Machine
end

