-- ==== Sys2Proof/Machine/Course.lean ====
section
/-! DEFINITION. Courses (chapter 6): the final statuses of written sectors, rewrites, and the seek to a course's tracks. -/
namespace Sys2Proof.Machine
open Sys2Proof

/-! ### Sectors written (R148, R170, R171) -/

/-- The LBAs of an extent are home: clean in the cache (R299). -/
def cleanExt (s : State) (e : Ext) : State := forAll (rangeFrom 0 e.count) s fun s i => cacheClean s e.nsid (e.lba + i)

/-- Every LBA of an extent has status 0x20 at home, in each of its places, or its share is left for a rebuild. -/
def allHome (s : State) (e : Ext) : Bool :=
  (rangeFrom 0 e.count).all fun i =>
    (lbaPorts s e.nsid (e.lba + i)).any (shareLeft s e.nsid e.zone) || decide (homeCopies s e.nsid ≤ (s.mcs.home.filter fun x => x % 2 ^ 64 == lbaKey e.nsid (e.lba + i)).length)

/-- A sector has status 0x20 (R148, R229, R299, R309): a committed extent that is all home leaves the buffer; a command
whose sectors are all home may commit (Table 10-6). `place` tells the places of an LBA apart. -/
def sectorHome (s : State) (n lba place : Nat) : State :=
  let k := lbaKey n lba + place * 2 ^ 64
  let mine := fun (e : Ext) => e.nsid == n && decide (e.lba ≤ lba) && decide (lba < e.lba + e.count)
  let s1 := { s with mcs := { s.mcs with home := if s.mcs.home.contains k then s.mcs.home else k :: s.mcs.home } }
  if !s1.zmp.dirty.any mine then s
  else forAll (s1.zmp.dirty.filter mine) s1 fun s e =>
    if !allHome s e then s
    else if isCommitted e then
      cleanExt (extentHome (releaseDirty s (· == e)) e) e
    else
      let l := s.host.cmds.map fun (c : Cmd) => if uncommitted c.order = e.wseq then { c with onMedia := true } else c
      { s with host := { s.host with cmds := l } }

/-- A written sector as the relocation report takes it (R147). -/
def pendSector (a : Nat) (x : PendSec) : Sector :=
  { blankSector ⟨4 * a + x.lane, x.head, x.track, x.pos⟩ with kind := x.kind, nsid := x.nsid, lba := x.lba, dec := 0 }

/-- Head q = 12k + h of a written sector. -/
def pendHead (a : Nat) (x : PendSec) : Nat := 12 * (a % 2) + x.head

/-- A written sector of head q of port `p` has its final status: the account of VFY_RATE over the last 65,536 sectors
written (R217). -/
def vfyAccount (s : State) (p q : Nat) (ok : Bool) : State :=
  let x := tabGet (0, []) (spnOf s p).vfy q
  let n := x.1 + 1
  let fails := (if ok then x.2 else n :: x.2).filter fun i => decide (n < i + 65536)
  let s1 := setSpn s p fun z => { z with vfy := tabPut z.vfy q (n, fails) }
  let r := min 255 fails.length
  if fget s1 (AST_WEAR_W2 p q) AST_WEAR_W2_VFY_RATE = r then s1
  else wearUpdate (fset s1 (AST_WEAR_W2 p q) AST_WEAR_W2_VFY_RATE r) p q

/-- The final status of a written sector reaches the zone sequencer. -/
def tellWritten (s : State) (a st : Nat) (x : PendSec) : State := emit s (.media 2 a [st, 4 * a + x.lane, x.pos, x.nsid, x.lba])

/-- The place of a written sector, among those that hold one LBA. -/
def secPlaceNum (s : State) (a : Nat) (x : PendSec) : Nat := if nsZoned s x.nsid then 0 else (16 * a + x.head) * 2 ^ 24 + x.track

/-- A written sector ends with status 0x20. -/
def writtenOk (s : State) (a : Nat) (x : PendSec) : State :=
  let s1 := vfyAccount (tellWritten s a 0x20 x) (a / 2) (pendHead a x) true
  if x.kind = 0 ∧ x.nsid ≠ 0 then sectorHome s1 x.nsid x.lba (secPlaceNum s a x) else s1

/-- A written sector ends with status 0x23: FMT_LAST, the report for relocation, the wear account (R148, R171, R217). -/
def writtenFail (s : State) (a : Nat) (x : PendSec) : State :=
  vfyAccount (reportReloc (tellWritten (fmtLast s a 0x23 x.head 0 x.pos x.track) a 0x23 x) (pendSector a x) true) (a / 2) (pendHead a x) false

/-- Pending sectors of a slice end with status 0x23 (R171): counted, reported for relocation, off the list. -/
def endPending (s : State) (a : Nat) : State :=
  let l := (slice s a).pend
  if l = [] then s
  else
    let s1 := forAll l s fun s x => writtenFail s a x
    let s2 := count s1 (ACT_WS_CNT a 8) l.length (.ws a) ACT_WS_EVT_SAT
    evtSet (syncPend (setSlice s2 a fun x => { x with pend := [], passes := 0, index := false }) a) (.ws a) ACT_WS_EVT_REWRITE_FAIL

/-- With no rewrite pass left, or none allowed, pending sectors end as 0x23 at once (R171). -/
def noRewrites (s : State) (a : Nat) : State := if rewriteMax s a ≤ (slice s a).passes then endPending s a else s

/-- A slice on which no sector waits has made no pass for the next ones. -/
def passesOver (s : State) (a : Nat) : State :=
  setSlice s a fun x => if x.pend.isEmpty && x.wait.isEmpty then { x with passes := 0 } else x

/-- Sectors written on a lane that end before the end of good wedge `n` have status 0x20 (R170). -/
def wedgeConfirms (s : State) (a l n : Nat) : State :=
  let d := laneBits s a l
  let b := wedgeEnd s a l n
  let done := fun (x : PendSec) => x.lane == l && !placeAfter d b (secEnd s a l x.pos)
  passesOver (forAll ((slice s a).wait.filter done) (setSlice s a fun y => { y with wait := y.wait.filter fun x => !done x })
    fun s x => writtenOk s a x) a

/-- The status of a sector just written at a position of a lane's track: 0x21 when one of its bits falls in the span of an inhibit, 0x22
when a late WRITE flit spans it (R170, R80). DESIGN CHOICE: 0x21 where both hold (log entry 47). -/
def spanStatus (s : State) (a l pos : Nat) : Nat :=
  let x := slane s a l
  let d := laneBits s a l
  let m := secStart s a l pos
  let free := x.resume.any fun r => decide (m % d = r % d) || placeAfter d r m
  if x.span.any fun b => !free && placeAfter d b (secEnd s a l pos) then 0x21
  else if x.late.contains pos then 0x22 else 0x20

/-- A sector that starts where a head writes again ends the span of its inhibit (R169). -/
def spanOver (s : State) (a l pos : Nat) : State :=
  let d := laneBits s a l
  let m := secStart s a l pos
  setSlane s a l fun x =>
    if x.resume.any fun r => decide (m % d = r % d) || placeAfter d r m then { x with span := none, resume := none, swOnly := false } else x

/-- A status of a written sector that the formatter delivers (R148, R170, R171): 0x20 is final with a good wedge after the sector. -/
def writeStatus (s : State) (a l st : Nat) (w : SecWork) : State :=
  let x : PendSec := ⟨l, w.head.toNat, w.track.toNat, w.pos.toNat, w.kind.toNat, w.nsid.toNat, w.lba.toNat⟩
  let eff := if st = 0x20 then spanStatus s a l x.pos else st
  let s1 := spanOver s a l x.pos
  if eff = 0x20 then setSlice (setFseq s1 a fun y => { y with lastDone := x.pos }) a fun y => { y with wait := y.wait ++ [x] }
  else if eff = 0x23 then writtenFail s1 a x
  else noRewrites (addPend (fmtLast s1 a eff x.head 0 x.pos x.track) a x) a

/-- An LBA of an extent was written and has not yet its final status (R171): the data stay in the buffer. -/
def writePending (s : State) (e : Ext) : Bool :=
  let mine := fun (x : PendSec) => x.nsid == e.nsid && x.kind == 0 && decide (e.lba ≤ x.lba) && decide (x.lba < e.lba + e.count)
  s.slices.any fun t => t.2.pend.any mine || t.2.wait.any mine

/-! ### The seek to a course's tracks (R160, R163, R172, R174, R177) -/

/-- The first sector of an instruction on a lane. -/
def laneWork (i : FInstr) (l : Nat) : Option SecWork :=
  i.work.find? fun w => w.lane.toNat == l && (i.alone.isEmpty || i.alone.headD 0 == l)

/-- The lanes an instruction works on now. -/
def workLanes (i : FInstr) : List Nat := (rangeFrom 0 4).filter fun l => (laneWork i l).isSome

/-- The reference target of an instruction (R160): a head's track less its offset. -/
def refTarget (s : State) (a : Nat) (i : FInstr) : Option Int :=
  let ref := fget s (ACT_SRV_STAT a) ACT_SRV_STAT_REF
  ((laneWork i ref).or ((rangeFrom 0 4).findSome? (laneWork i))).map fun w => (w.track.toNat : Int) - headTracks s a w.head.toNat

/-- OFS of the heads comes from the mechanism's stored tables at each seek (R174). -/
def loadOfs (s : State) (a : Nat) : State :=
  forAll (rangeFrom 0 12) s fun s h =>
    forAll [ACT_HD_OFS_TRACKS, ACT_HD_OFS_FRAC] s fun s f =>
      fset s (ACT_HD_OFS a h) f (Config.storedVal (identSerial s (a / 2)) (ACT_HD_OFS a h) f.lo)

/-- The formatter loads the lanes for an instruction: head, target, written side by the shingle direction; the reference head, and no
other lane outside the course, follows with it (R160, R172, Table 6-5). -/
def loadTargets (s : State) (a : Nat) (i : FInstr) : State :=
  match refTarget s a i with
  | none => s
  | some r =>
    let ref := fget s (ACT_SRV_STAT a) ACT_SRV_STAT_REF
    forAll (rangeFrom 0 4) s fun s l =>
      let w := laneWork i l
      let h := (w.map (·.head.toNat)).getD (laneHd s a l)
      let t := (r + headTracks s a h).toNat
      if w.isNone ∧ l ≠ ref then fsetb s (ACT_SL_CFG a l) ACT_SL_CFG_VALID false
      else
        let s1 := fsetb (fset s (ACT_SL_CFG a l) ACT_SL_CFG_HEAD h) (ACT_SL_CFG a l) ACT_SL_CFG_VALID w.isSome
        let s2 := fsetb s1 (ACT_SL_CFG a l) ACT_SL_CFG_WSIDE (bandAt s (a / 2) (12 * (a % 2) + h) t).2.2
        laneRefs (wrN s2 (ACT_SL_TGT a l) (t * 256)) (a / 2) (4 * (a % 2) + l)

/-- The actuator is not yet on the tracks of an instruction. -/
def needsSeek (s : State) (a : Nat) (i : FInstr) : Bool :=
  let t := if claimed s (baseACT a) then s else loadTargets s a i
  (rangeFrom 0 4).any fun l => rdN t (ACT_SL_TGT a l) != (slane s a l).tgt ||
    (fbit t (ACT_SL_CFG a l) ACT_SL_CFG_VALID && laneHd t a l != laneHd s a l)

/-- A seek to the tracks of an instruction. -/
def seekTo (s : State) (a : Nat) (i : FInstr) : State :=
  let s1 := if claimed s (baseACT a) then s else loadTargets (loadOfs s a) a i
  let s2 := takeTargets s1 a
  sync5 (if srvMode s2 a = 3 ∨ srvMode s2 a = 4 then setSrvMode s2 a 2 else syncFollow s2 a) (a / 2)

/-- The lanes of an instruction that are worked on one after another, because a head of its course is never followed together with
others (R160). -/
def aloneLanes (s : State) (a : Nat) (i : FInstr) : List Nat :=
  let ls := (rangeFrom 0 4).filter fun l => i.work.any fun w => w.lane.toNat == l
  if 1 < ls.length ∧ i.work.any fun w => shortHead s a w.head.toNat then ls else []

end Sys2Proof.Machine
end

