-- ==== Sys2Proof/Machine/Servo.lean ====
section
/-! DEFINITION. Servo wedges, the comparator, shock, servo lost, rewrite passes and squeeze reads (chapter 6). -/
namespace Sys2Proof.Machine
open Sys2Proof

/-! ### The demodulator (R157, R158) -/

/-- The number that Gray code bits spell. -/
def grayNum (g : Nat) : Nat := (rangeFrom 0 24).foldl (fun b i => b ^^^ g / 2 ^ i) 0

/-- The number of ones among the low `n` bits is odd. -/
def oddOnes (n v : Nat) : Bool := decide (((rangeFrom 0 n).foldl (fun c i => c + v / 2 ^ i) 0) % 2 = 1)

/-- Head q = 12k + h of a head lane. -/
def laneQ (s : State) (a l : Nat) : Nat := 12 * (a % 2) + laneHd s a l

/-- The wedge's samples have arrived: its SERVO flits came, and none was discarded (R81). -/
def wedgeArrived (s : State) (a l : Nat) : Bool :=
  match tabGet none (tthOf s (a / 2)).servo (4 * (a % 2) + l) with
  | some samples => !samples.isEmpty
  | none => false

/-- Both parity bits are even over their fields (Table 6-1). -/
def wedgeParity (w : WedgeFind) : Bool :=
  oddOnes 24 w.gray.toNat == w.par1 && oddOnes 10 w.wedge.toNat == w.par2

/-- A burst is below one quarter of the head's calibrated amplitude. -/
def burstWeak (s : State) (a l : Nat) (w : WedgeFind) : Bool :=
  decide (4 * min w.ampA.toNat w.ampB.toNat < Config.burstAmp (identSerial s (a / 2)) (laneQ s a l))

/-- The position a wedge gives, in 1/256 track: the track and (Δt − Δt0) × K_h, with the calibration in use (R157, log entry 47). -/
def wedgePos (s : State) (a l : Nat) (w : WedgeFind) : Int :=
  let x := slane s a l
  256 * (grayNum w.gray.toNat : Int) + (sgn 24 w.dt.toNat - x.dt0) * x.kh / 4096

/-- The position predicted from the wedges before: the last two in line, by DESIGN CHOICE (log entry 47); none before the first. -/
def predictedPos (x : ServoLane) : Option Int :=
  match x.prev with
  | y :: z :: _ => some (2 * y - z)
  | [y] => some y
  | [] => none

/-- A wedge is missed (R158). -/
def wedgeMissed (s : State) (a l : Nat) (w : WedgeFind) : Bool :=
  let x := slane s a l
  !wedgeArrived s a l || !w.sam || !wedgeParity w || burstWeak s a l w || (x.expect.any fun n => decide (w.wedge.toNat ≠ n)) ||
    (predictedPos x).any fun y => decide (512 < absI (wedgePos s a l w - y))

/-- The position delivered: what the wedge gives, or the prediction for one that is missed. -/
def delivered (s : State) (a l : Nat) (w : WedgeFind) : Int :=
  if wedgeMissed s a l w then (predictedPos (slane s a l)).getD (rdN s (ACT_SL_POS a l)) else wedgePos s a l w

/-- PES of a position: its distance from the target in use, saturated (R157). -/
def pesOf (s : State) (a l : Nat) (pos : Int) : Int := clampI (-32767) 32767 (pos - (slane s a l).tgt)

/-- The micro-actuator has been at its reach for two wedges (R162). -/
def maSaturated (s : State) (a l : Nat) : Bool := decide (2 ≤ (slane s a l).satCnt)

/-- A wedge is good (R165). -/
def pesGood (s : State) (a l : Nat) (pes : Int) : Bool := decide (absI pes ≤ wuRel s a) && !maSaturated s a l

/-! ### The comparator (R163, R165, R172) -/

/-- A position in the register: 32 bits, not below track 0. -/
def posWord (pos : Int) : Nat := (clampI 0 (2 ^ 32 - 1) pos).toNat

/-- What the comparator does at a wedge `n` that is not missed (R165): POS, PES, the cause PES, GOOD, the settle count, the peak, and
what a good wedge says of the sectors written before it (R170). -/
def goodWedge (s : State) (a l n : Nat) (pos : Int) : State :=
  let pes := pesOf s a l pos
  let s1 := fset (wrN s (ACT_SL_POS a l) (posWord pos)) (ACT_SL_PES a l) ACT_SL_PES_PES (unsgn 16 pes)
  let s2 := fset s1 (ACT_SL_INH a l) ACT_SL_INH_MISSES 0
  let exc := (clampI 0 32767 (if fbit s (ACT_SL_CFG a l) ACT_SL_CFG_WSIDE then -pes else pes)).toNat
  let good := pesGood s a l pes
  let s3 := setSlane s2 a l fun x =>
    { x with
      lastPes := pes, settle := if absI pes ≤ settleLim s a then x.settle + 1 else 0, peak := max x.peak exc
      readOk := x.readOk || decide (absI pes ≤ 2 * settleLim s a)
      since := if good then x.since.map (· + 1) else x.since.map fun _ => 0 }
  let s4 := if good then fadd s3 (ACT_SL_INH a l) ACT_SL_INH_GOOD 1 else fset s3 (ACT_SL_INH a l) ACT_SL_INH_GOOD 0
  let s5 := if wuLim s a < absI pes then setCause s4 a l 0 else recordPeak s4 a l
  if good then wedgeConfirms (setSlane s5 a l fun x => { x with peak := 0, lastGood := some n }) a l n else s5

/-- What a missed wedge does: the predicted POS, MISSES, the count, GOOD to 0 (R158, R165). SRV_EVT.SAT marks its counter's
saturation, as WS_EVT.SAT does (log entry 47). -/
def missedWedge (s : State) (a l : Nat) (pos : Int) : State :=
  let s1 := fadd (wrN s (ACT_SL_POS a l) (posWord pos)) (ACT_SL_INH a l) ACT_SL_INH_MISSES 1
  let s2 := setSlane (fset s1 (ACT_SL_INH a l) ACT_SL_INH_GOOD 0) a l fun x =>
    { x with settle := 0, since := x.since.map fun _ => 0 }
  let s3 := count s2 (ACT_WS_CNT a 5) 1 (.ws a) ACT_WS_EVT_SAT
  let s4 := if !rbit s (ACT_WS_CNT a 5) 31 && rbit s3 (ACT_WS_CNT a 5) 31 then evtSet s3 (.srv a) ACT_SRV_EVT_SAT else s3
  evtSet s4 (.srv a) ACT_SRV_EVT_MISS

/-- The voice-coil input (R161): the mean of PES minus MA_CMD over the followers that did not miss; while seeking or
loading a free value. None when every follower misses. -/
def coilInput (s : State) (a : Nat) : Option Int :=
  let ls := (followers s a).filter fun l => fget s (ACT_SL_INH a l) ACT_SL_INH_MISSES == 0
  if srvMode s a = 1 ∨ srvMode s a = 2 then some (sgn 32 (freeVal s))
  else if ls = [] then none
  else
    let sum : Int := ls.foldl (fun acc l => acc + (slane s a l).lastPes - maCmd s a l) 0
    some (rnd (freeVal s) 0 sum ls.length)

/-- A head is found after a seek or a load: SETTLE, the settle counts afresh, the coil slot preset (R163). -/
def enterSettle (s : State) (a : Nat) : State :=
  let s1 := forAll (rangeFrom 0 4) (setSrvMode s a 3) fun s l => setSlane s a l fun x => { x with settle := 0 }
  let k := slotOf a 0
  setSlice (setBslot s1 k.1 k.2 fun b => { b with preset := true }) a fun x => { x with tries := 0 }

/-- SW_INH follows its register field: cause 6 of each head lane (Table 6-3). -/
def syncSw (s : State) (a : Nat) : State :=
  forAll (rangeFrom 0 4) s fun s l =>
    if bitOf (BitVec.ofNat 32 (fget s (ACT_WS_INH a) ACT_WS_INH_SW_INH)) l then setCause s a l 6 else clearCause s a l 6

/-- A good wedge of a lane after a hand-over (R393): with one on every following head the slice's SW_INH is cleared. -/
def hoGoodWedge (s : State) (a l : Nat) : State :=
  if !s.prt.swHeld.contains (4 * a + l) then s
  else
    let t := { s with prt := { s.prt with swHeld := s.prt.swHeld.filter (· != 4 * a + l) } }
    if (followers t a).all fun k => !t.prt.swHeld.contains (4 * a + k) then
      syncSw (fset { t with prt := { t.prt with swHeld := t.prt.swHeld.filter fun n => n / 4 != a } } (ACT_WS_INH a) ACT_WS_INH_SW_INH 0) a
    else t

/-- A seek or a load ends for the slice at this wedge: a load with any position found, a seek once the reference head is within two
tracks of its target, by DESIGN CHOICE (log entry 47). -/
def seekFound (s : State) (a l : Nat) (pes : Int) : Bool :=
  decide (srvMode s a = 1) ||
    (decide (srvMode s a = 2) && decide (fget s (ACT_SRV_STAT a) ACT_SRV_STAT_REF = l) && decide (absI pes ≤ 512))

/-- The index: the end of wedge 0, decoded on the reference head (R154). -/
def indexSeen (s : State) (a l n : Nat) (missed : Bool) : State :=
  if !missed ∧ n = 0 ∧ fget s (ACT_SRV_STAT a) ACT_SRV_STAT_REF = l then setSlice s a fun x => { x with index := true } else s

/-- What a wedge leaves for the next: the number expected, the positions delivered, the wedges at the reach; its samples are used. -/
def wedgeNoted (s : State) (a l : Nat) (w : WedgeFind) (missed : Bool) (pos : Int) : State :=
  let s1 := setSlane s a l fun x =>
    { x with
      setNow := 0, expect := if missed then x.expect.map fun n => (n + 1) % 640 else some ((w.wedge.toNat + 1) % 640)
      prev := if missed ∧ x.prev = [] then [] else pos :: x.prev.take 1
      satCnt := if maReach s a l ≤ absI (maCmd s a l) then x.satCnt + 1 else 0 }
  let s2 := setTth s1 (a / 2) fun x => { x with servo := tabPut x.servo (4 * (a % 2) + l) (some []) }
  if maReach s2 a l ≤ absI (maCmd s2 a l) then s2 else setSrc s2 a l 2 false

/-- A wedge of a following head is decided: its number, the saturation count, and a missed or a good wedge (R157, R158, R161,
R165). -/
def wedgeSeen (s : State) (a l : Nat) (w : WedgeFind) : State :=
  let s := takeLimits s a
  let missed := wedgeMissed s a l w
  let pos := delivered s a l w
  let n := if missed then (slane s a l).expect.getD w.wedge.toNat else w.wedge.toNat
  let s1 := wedgeNoted s a l w missed pos
  let s2 := indexSeen (latchCond (fset s1 (ACT_SRV_STAT a) ACT_SRV_STAT_WEDGE n) a 6) a l n missed
  let s3 := if missed then missedWedge s2 a l pos else hoGoodWedge (goodWedge s2 a l n pos) a l
  let s4 := if !missed ∧ seekFound s3 a l (pesOf s3 a l pos) then enterSettle s3 a else s3
  noRewrites (syncFollow s4 a) a

/-- A decided wedge triggers the micro-actuator slot with its PES, and the voice-coil slot where it is the reference head's
(R164, R179). -/
def wedgeTrigger (s : State) (a l t : Nat) (missed : Bool) : State :=
  let m := slotOf a (1 + l)
  let s6 := brdTrigger s m.1 m.2 t 39 (slane s a l).lastPes missed
  if fget s6 (ACT_SRV_STAT a) ACT_SRV_STAT_REF = l then
    let v := slotOf a 0
    let u := coilInput s6 a
    brdTrigger (drawn s6) v.1 v.2 t 39 (u.getD (bslot s6 v.1 v.2).input) u.isNone
  else s6

/-- SERVO_WEDGE (R157, R158, R161, R164, R165, R179): the wedge of a following head is decided; its micro-actuator slot is
triggered with its PES, the voice-coil slot with the reference head's wedge. -/
def execServoWedge (a : Fin 64) (l : Fin 4) (w : WedgeFind) (t : BitVec 48) (s : State) : Res :=
  .next (if !following s a l then s
    else flyWedge (stepWedge (wedgeTrigger (wedgeSeen s a l w) a l t.toNat (wedgeMissed (takeLimits s a) a l w)) a l) a l)

/-- MISS_INHIBIT (R165, cause 1): the wedge just decided was missed after MISS_TOL missed in a row, or after a PES beyond
WU_LIM ÷ 2. -/
def execMissInhibit (a : Fin 64) (l : Fin 4) (s : State) : Res :=
  .next (let n := fget s (ACT_SL_INH a l) ACT_SL_INH_MISSES
    if following s a l ∧ n ≠ 0 ∧ (missTol s a < n ∨ wuLim s a < 2 * absI (slane s a l).lastPes) ∧
        (slane s a l).setNow / 2 % 2 = 0 then noRewrites (setCause s a l 1) a
    else s)

/-- INHIBIT_RELEASE (R165): every cause whose own condition has ended and that saw REL_N good wedges since is released. -/
def execInhibitRelease (a : Fin 64) (l : Fin 4) (s : State) : Res :=
  .next (forAll (rangeFrom 0 8) s fun s c => if releasable s a l c then clearCause s a l c else s)

/-- Every following head has missed MISS_LOST wedges in a row (R159). -/
def allMissed (s : State) (a : Nat) : Bool :=
  let ls := followers s a
  !ls.isEmpty && ls.all fun l => decide (missLost s a ≤ fget s (ACT_SL_INH a l) ACT_SL_INH_MISSES)

/-- The actuator's loops drop what they have in hand and hold their last outputs. -/
def holdLoops (s : State) (a : Nat) : State :=
  syncQ (forAll (rangeFrom 0 13) s fun s r =>
    let k := slotOf a r
    setBslot s k.1 k.2 fun b => { b with ready := false, swNext := false, pend := [] }) (a / 4)

/-- SERVO_LOST (R159): LOST, every head inhibited as for missed wedges, the loops held. -/
def execServoLost (a : Fin 64) (s : State) : Res :=
  .next (if 2 ≤ srvMode s a ∧ srvMode s a ≠ 5 ∧ allMissed s a then
      let s1 := evtSet (setSrvMode s a 5) (.srv a) ACT_SRV_EVT_LOST
      let s2 := setSlice s1 a fun x => { x with tries := 0 }
      holdLoops (forAll (rangeFrom 0 4) s2 fun s l => setSrc s a l 1 true) a
    else s)

/-- The reference head is found again: its actuator seeks, and the wedges before tell nothing of those to come. -/
def servoFound (s : State) (a : Nat) : State :=
  let s1 := forAll (rangeFrom 0 4) (setSrvMode s a 2) fun s l =>
    setSlane (setSrc s a l 1 false) a l fun x => { x with expect := none, prev := [], settle := 0 }
  setSlice s1 a fun x => { x with tries := 0 }

/-- Three seeks failed: the actuator's heads are unloaded, its pending sectors end 0x23, its unit fails (R159, R173). -/
def servoFailed (s : State) (a : Nat) : State :=
  let s1 := endPending (unloadSlice s a false) a
  match actUnit s1 a with
  | some u => failOwn s1 u 0x51
  | none => s1

/-- SERVO_REACQUIRE (R159): a seek on the reference head; after three that fail the heads are unloaded and the ACT unit
fails with CAUSE 0x51; its pending sectors end 0x23 (R173). -/
def execServoReacquire (a : Fin 64) (found : Bool) (s : State) : Res :=
  .next (if srvMode s a ≠ 5 ∨ (slice s a).unloading then s
    else
      let s1 := evtSet s (.srv a) ACT_SRV_EVT_REACQ
      if found then servoFound s1 a
      else
        let n := (slice s1 a).tries + 1
        let s2 := setSlice s1 a fun x => { x with tries := n }
        if n < 3 then s2 else servoFailed s2 a)

/-- SETTLED (R163): every following head has been within SETTLE_LIM at SETTLE_N wedges in a row. -/
def execSettled (a : Fin 64) (s : State) : Res :=
  .next (let ls := followers s a
    if srvMode s a = 3 ∧ ls ≠ [] ∧ (ls.all fun l => decide (settleN s a ≤ (slane s a l).settle)) then
      evtSet (setSrvMode s a 4) (.srv a) ACT_SRV_EVT_SETTLED
    else s)

/-- MA_SATURATION (R162): at the reach for two wedges, MA_SAT and cause 2. -/
def execMaSaturation (a : Fin 64) (l : Fin 4) (s : State) : Res :=
  .next (if following s a l ∧ maSaturated s a l ∧ !srcOn s a l 2 then
      setSrc (evtSet s (.srv a) ACT_SRV_EVT_MA_SAT) a l 2 true
    else s)

/-- Cause 3 on every head lane of a slice, as for a record above SHOCK_LIM (R167, R168). -/
def shockSlice (s : State) (a : Nat) : State :=
  noRewrites (evtSet (forAll (rangeFrom 0 4) s fun s l => setSrc s a l 3 true) (.ws a) ACT_WS_EVT_SHOCK) a

/-- SHOCK_RECORD (R167, R168): both slices compare the record, each against its own SHOCK_LIM; 0xFFFF is above every
limit. -/
def execShockRecord (p : Fin 32) (value : BitVec 16) (_stamp : BitVec 32) (s : State) : Res :=
  .next (forAll [2 * p.val, 2 * p.val + 1] s fun s a =>
    if value.toNat = 0xFFFF ∨ shockLim s a < value.toNat then shockSlice s a else s)

/-- SHOCK_RECORD_TIMEOUT (R168): none for 10 µs while a head of the slice is loaded. -/
def execShockRecordTimeout (a : Fin 64) (s : State) : Res := .next (if srvMode s a = 0 then s else shockSlice s a)

/-- SHOCK_HOLD_EXPIRE (R164): the own condition of cause 3 ends; the release rule follows. -/
def execShockHoldExpire (a : Fin 64) (s : State) : Res :=
  .next (forAll (rangeFrom 0 4) s fun s l => setSrc s a l 3 false)

/-- A pending sector is written in a rewrite pass: its head is not inhibited (R171, R173). -/
def passWrites (s : State) (a : Nat) (x : PendSec) : Bool := causes s a x.lane == 0

/-- A rewrite pass is counted; the sectors it wrote wait for a good wedge as in any write, and the heads that wrote begin the track
afresh (R171). -/
def rewritten (s : State) (a : Nat) : State :=
  let l := (slice s a).pend
  let s1 := count (count s (ACT_WS_CNT a 7) 1 (.ws a) ACT_WS_EVT_SAT) (ACT_WS_CNT a 6) l.length (.ws a) ACT_WS_EVT_SAT
  let s2 := forAll (rangeFrom 0 4) s1 fun s k =>
    if causes s a k = 0 then setSlane s a k fun x => { x with span := none, resume := none, swOnly := false, late := [] } else s
  syncPend (setSlice s2 a fun x =>
    { x with pend := l.filter fun y => !passWrites s a y, wait := x.wait ++ l.filter (passWrites s a), passes := x.passes + 1
             index := false }) a

/-- REWRITE_PASS (R154, R171): at the index the pending sectors are written again; those of a head that is inhibited stay pending, and
after REWRITE_MAX passes they end 0x23. SAFE stops the passes (R173). -/
def execRewritePass (a : Fin 64) (s : State) : Res :=
  .next (let x := slice s a
    if x.pend = [] ∨ inSafe s ∨ srvMode s a ≠ 4 ∨ !x.index then s
    else if rewriteMax s a ≤ x.passes then endPending s a
    else
      let t := rewritten s a
      if (slice t a).pend = [] then evtSet t (.ws a) ACT_WS_EVT_REWRITE_DONE
      else noRewrites t a)

/-- Data bits `b` to `e` of a lane's track, widened by a wedge period on each side, take in bits of the sector at a position (R172). -/
def inSpan (s : State) (a l b e pos : Nat) : Bool :=
  let d := laneBits s a l
  let w := d / 640
  let from_ := b % d + d - w
  let len := (e % d + d - b % d) % d + 2 * w
  let o := (secStart s a l pos + 2 * d - from_) % d
  decide (d ≤ len) || decide (o < len) || decide (d < o + (secEnd s a l pos - secStart s a l pos))

/-- The track written before a lane's: the next one on the written side (R172). -/
def earlierTrack (s : State) (a l track : Nat) : Nat := if fbit s (ACT_SL_CFG a l) ACT_SL_CFG_WSIDE then track + 1 else track - 1

/-- SQUEEZE_READ (R172): once the inhibit has ended, the sectors of the earlier track over its span are read back, and those that fail
are reported. -/
def execSqueezeRead (a : Fin 64) (l : Fin 4) (failed : List (BitVec 16)) (nsid : BitVec 8) (lba : BitVec 40) (s : State) : Res :=
  .next (match (slane s a l).squeezed with
    | some (track, b, some e) =>
      let s1 := forAll (failed.filter fun i => inSpan s a l b e i.toNat) s fun s i =>
        let x : PendSec := ⟨l, laneHd s a l, earlierTrack s a l track, i.toNat, 0, nsid.toNat, lba.toNat + i.toNat⟩
        reportReloc s (pendSector a x) false
      setSlane (count s1 (ACT_WS_CNT a 9) 1 (.ws a) ACT_WS_EVT_SAT) a l fun x => { x with squeezed := none }
    | _ => s)

/-- SW_INHIBIT_WRITE (R164, Table 6-4). -/
def execSwInhibitWrite (m : Master) (a : Fin 64) (mask : BitVec 4) (s : State) : Res :=
  .next (regWrite s m (ACT_WS_INH a) fun s => noRewrites (syncSw (fset s (ACT_WS_INH a) ACT_WS_INH_SW_INH mask.toNat) a) a)

end Sys2Proof.Machine
end

