-- ==== Sys2Proof/Machine/Tether.lean ====
section
/-! DEFINITION. The tether (chapter 3): presence and discovery, training and lane loss, upstream flits, the ownership token,
heartbeats and witnesses, TSB transactions, and the port's registers. -/
namespace Sys2Proof.Machine
open Sys2Proof

/-! ### Port states (R91) -/

/-- PCHG is set: the latch and the event. -/
def pchg (s : State) (p : Nat) : State :=
  evtSet (fsetb s (TTH_SIDEBAND p) TTH_SIDEBAND_PCHG true) (.tth p) TTH_EVT_PCHG

/-- The debounced presence. -/
def setPrsnt (s : State) (p : Nat) (b : Bool) : State :=
  fsetb (fsetb s (TTH_LINK_STAT p) TTH_LINK_STAT_PRSNT b) (TTH_SIDEBAND p) TTH_SIDEBAND_PRSNT b

/-- TRIES shows the largest count of the episode (R82). -/
def syncTries (s : State) (p : Nat) : State :=
  fset s (TTH_LINK_STAT p) TTH_LINK_STAT_TRIES (min 15 (maxN (tthOf s p).laneTries))

/-- New episodes begin on every lane. -/
def newEpisodes (s : State) (p : Nat) : State := syncTries (setTth s p fun t => { t with laneTries := [0, 0, 0, 0, 0] }) p

/-- Cause 7 and FOLLOW of both slices follow the streams of a port (R156, R164). -/
def syncStreams (s : State) (p : Nat) : State := syncFollow (syncFollow (syncLink s p) (2 * p)) (2 * p + 1)

/-- The stream of a head lane of port `p` ends: samples of a live read that were in flight are erasures (Table 3-5), up to the longest
sector's (R105), and the read ends. -/
def streamEnd (s : State) (p j : Nat) : State :=
  let n := laneOf p j
  if s.det.live.contains n then liveEnd (putSamples s n (List.replicate 43690 65)) n else s

/-- Streams of a port end on the lanes `ls`; cause 7 follows. -/
def endStreams (s : State) (p : Nat) (ls : List Nat) : State :=
  let gone := (tthOf s p).streams.filter fun x => ls.contains x.2
  let s1 := setTth s p fun t =>
    { t with streams := t.streams.filter fun x => !ls.contains x.2
             servo := t.servo.filter fun x => !gone.any fun y => y.1 == x.1 }
  syncStreams (forAll gone s1 fun s x => streamEnd s p x.1) p

/-- The upstream lane a stream starts on: its home lane when good, else the lowest good lane with fewer than two (R73). -/
def streamLane (s : State) (p j : Nat) : Option Nat :=
  let good := fget s (TTH_LINK_STAT p) TTH_LINK_STAT_UP_GOOD
  let ok := fun l => decide (good / 2 ^ l % 2 = 1) && decide (((tthOf s p).streams.filter fun x => x.2 == l).length < 2)
  if ok (j / 2) then some (j / 2) else (rangeFrom 0 4).find? ok

/-- Streams that do not run start, lowest head lane first, as far as HL_MAX goes (R73); only the token's holder has any. -/
def startStreams (s : State) (p : Nat) : State :=
  if !tokenMine s p then syncStreams s p
  else syncStreams (forAll (rangeFrom 0 8) s fun s j =>
    if (tthOf s p).streams.any fun x => x.1 == j then s
    else match streamLane s p j with
      | some l => setTth s p fun t => { t with streams := t.streams ++ [(j, l)] }
      | none => s) p

/-- All lanes of a port are lost or given up (R83, R204): its units go ABSENT and its spindle LOST. -/
def allLanesLost (s : State) (p : Nat) : State :=
  spnLanesLost (rebuildCheck (mechAbsent (setTth s p fun t => { t with reread := true }) p)) p

/-- The lanes of a port go down with its PHY: its front-end's port leaves lane mode (R97). -/
def lanesDown (s : State) (p : Nat) : State := feLaneEnd (setLanes (endStreams s p [0, 1, 2, 3]) p 0 false) p

/-- FAULT (Table 3-8). -/
def goFault (s : State) (p why : Nat) : State :=
  setPortState (fset (phyOff (lanesDown (allLanesLost s p) p) p) (TTH_LINK_STAT p) TTH_LINK_STAT_FAULT_WHY why) p 9

/-- IDENT is entered: the identity is read. -/
def goIdent (s : State) (p : Nat) : State :=
  let s1 := fset (newEpisodes s p) (TTH_LINK_STAT p) TTH_LINK_STAT_FAULT_WHY 0
  identStart (setTth (setPortState s1 p 2) p fun t => { t with identTries := 0 }) p

/-- TRAIN is entered: the PHY and link-layer domains are asked for. -/
def goTrain (s : State) (p : Nat) : State := setPortState (newEpisodes (domRequest (domRequest s (11 + p)) (43 + p)) p) p 4

/-- SIDEBAND is entered from lane mode: heartbeats move to TSB, binding kept (Table 3-8); all lanes are lost (R83). -/
def goSideband (s : State) (p : Nat) : State :=
  let st := portState s p
  if st = 4 ∨ st = 5 ∨ st = 6 ∨ st = 7 then setPortState (phyOff (lanesDown (allLanesLost s p) p) p) p 3 else phyOff s p

/-- The PHY domain of a port has come on or gone off (Table 3-8). -/
def phyChanged (s : State) (p : Nat) : State :=
  if mayTrain s p then (if portState s p = 3 then goTrain s p else s) else goSideband s p

/-- The PHY domains follow the power state in force (Table 13-3). -/
def phySync (s : State) : State := forAll (rangeFrom 0 32) s phyChanged

/-- Another mechanism, or none, is on the port: its front-end powers up without an owner (R93), and what the port held of the old one
goes, but which of the front-end's ports the device is on. -/
def newFrontEnd (s : State) (p : Nat) : State :=
  let side := fget s (TTH_TOKEN p) TTH_TOKEN_FE_PORT
  let s1 := setTth (setFe s p fun _ => {}) p fun t => { t with waiting := [], telem := [], servo := [], dnDue := false }
  fset (wrN s1 (TTH_TOKEN p) 0) (TTH_TOKEN p) TTH_TOKEN_FE_PORT side

/-- The temperatures of a mechanism that is gone: it has no valid base reading and stands in B4 (R352). -/
def heatGone (s : State) (p : Nat) : State :=
  setBgw (fset s (THM_MECH_W0 p) THM_MECH_W0_BAND 4) fun b =>
    { b with readAt := tabDel (tabDel b.readAt (12 + p)) (60 + p), b5Since := tabDel b.b5Since p,
             hot := b.hot.filter (· != p), lost := b.lost.filter fun k => k != 12 + p && k != 60 + p }

/-- EMPTY is entered from a debounced high level: every trace of the mechanism goes (Table 3-8). -/
def goEmpty (s : State) (p : Nat) : State :=
  let s1 := phyOff (lanesDown (tsbAbort (pchg s p) p) p) p
  let s2 := setPrsnt (wrN (newFrontEnd s1 p) (TTH_TOKEN p) 0) p false
  let s3 := spnGone (mechAbsent s2 p) p
  let s4 := forAll [2 * p, 2 * p + 1] s3 fun s a => setSrvMode s a 0
  let s6 := fset (wbit (unboundPort s4 p) TRS_UNBOUND p false) (TRS_BIND_WHY p) TRS_BIND_WHY_WHY 0
  let s7 := match mechUnit s6 p with
    | some u => unimpair s6 u 0x31
    | none => s6
  setPortState (rebuildCheck <| copiesLost (setTth (heatGone s7 p) p fun t => { t with identOk := false, debounceHigh := false }) p) p 0

/-- PRSNT_N is low in EMPTY: DEBOUNCE, and OFF at once where the port is disabled. -/
def goDebounce (s : State) (p : Nat) : State :=
  let s1 := setPortState (pchg s p) p 1
  if fbit s1 (TTH_CTRL p) TTH_CTRL_PORT_EN then s1 else setPortState s1 p 8

/-- PRESENCE_EDGE (R91, R82, R325): PRSNT_N changes level; in WATCH only the always-on domain sees it. -/
def execPresenceEdge (p : Fin 32) (low : Bool) (s : State) : Res :=
  .next (if (tthOf s p).fitted = low then s
    else
      let s1 := setTth s p fun t => { t with fitted := low, debounceHigh := !low }
      let st := portState s1 p
      if mode s1 = 0 then s1
      else if st = 0 then (if low then goDebounce s1 p else s1)
      else if st = 1 then (if low then s1 else setPortState (pchg s1 p) p 0)
      else if st = 7 ∧ low then newEpisodes s1 p
      else if st = 9 ∧ low then goIdent s1 p
      else s1)

/-- PRESENCE_DEBOUNCE_END (R91, R325): the level has held for 32 slow cycles. -/
def execPresenceDebounceEnd (p : Fin 32) (s : State) : Res :=
  .next (let t := tthOf s p
    let st := portState s p
    if mode s = 0 then
      if fbit s (TTH_SIDEBAND p) TTH_SIDEBAND_PRSNT = t.fitted then s
      else fsetb (fsetb s (TTH_SIDEBAND p) TTH_SIDEBAND_PRSNT t.fitted) (TTH_SIDEBAND p) TTH_SIDEBAND_PCHG true
    else if st = 1 then (if t.fitted then goIdent (setPrsnt s p true) p else s)
    else if st = 8 then setPrsnt s p t.fitted
    else if st ≠ 0 ∧ t.debounceHigh ∧ !t.fitted then goEmpty s p
    else s)

/-! ### Binding and the way up (R54, R77, R83, R90) -/

/-- Acquire a bound mechanism's token while ACTIVE, else learn its owner (R99). -/
def wantToken (s : State) (p : Nat) : State :=
  if isActiveRole s && isBound s p && !tokenMine s p && !claimed s (baseTTH p) then tokenCmd s p 1 else tsbRead s p 2 0x0200 4

/-- Bind the mechanism of a port that enters UP or PARTIAL (R54, R91), and let a spindle that lost its lanes go on
(Table 8-3). Surfaces that are not ABSENT keep the state they have (R60). -/
def bindOnUp (s : State) (p : Nat) : State :=
  let keep := (surfsOf s p).filter fun u => uState s u != 0
  let s1 := if isBound s p && keep.length == (surfsOf s p).length then s else memberSerial (bindKeeping s p keep) p
  let s2 := if spnState s1 p = 9 then (if spinning s1 p then goCatch s1 p else goStopped s1 p) else s1
  wantToken s2 p

/-- The impairment of R83 follows the lanes of a port that is UP or PARTIAL. -/
def laneImpair (s : State) (p : Nat) : State :=
  match mechUnit s p with
  | some u => if portState s p = 6 then impair s u 0x31 else unimpair s u 0x31
  | none => s

/-- UP or PARTIAL by the lanes that are good. -/
def goUp (s : State) (p : Nat) : State :=
  let s1 := setPortState s p (if fget s (TTH_LINK_STAT p) TTH_LINK_STAT_UP_GOOD = 15 then 5 else 6)
  startStreams (laneImpair s1 p) p

/-- The way up from TRAIN or RETRAIN: the state, streams, and binding. -/
def enterUp (s : State) (p : Nat) : State := bindOnUp (goUp (setTth s p fun t => { t with reread := false }) p) p

/-- LIMIT and AVAIL are CREDIT_FLITS, no more than 255 (R77, R78). -/
def setCredits (s : State) (p : Nat) : State :=
  let n := min 255 (identField s p 16 2)
  fset (fset s (TTH_CREDIT p) TTH_CREDIT_LIMIT n) (TTH_CREDIT p) TTH_CREDIT_AVAIL n

/-- All lanes have trained: where the identity is to be read again, that comes first (R90). -/
def trained (s : State) (p : Nat) : State :=
  if (tthOf s p).reread then identStart (setTth s p fun t => { t with identTries := 0 }) p else enterUp s p

/-- The lanes that are good and enabled. -/
def enabledLanes (s : State) (p up : Nat) : Nat := up &&& fget s (TTH_CTRL p) TTH_CTRL_UP_EN

/-- The downstream lane counts as good only while it is enabled. -/
def enabledDown (s : State) (p : Nat) (dn : Bool) : Bool := dn && fbit s (TTH_CTRL p) TTH_CTRL_DN_EN

/-- TETHER_TRAINING_DONE (R91, R77, R78): the downstream and at least one upstream lane are good. -/
def execTetherTrainingDone (p : Fin 32) (upGood : BitVec 4) (dnGood : Bool) (s : State) : Res :=
  .next (let up := enabledLanes s p upGood.toNat
    if portState s p ≠ 4 ∨ up = 0 ∨ !enabledDown s p dnGood ∨ !domOn s (11 + p) ∨ !domOn s (43 + p) then s
    else if identField s p 16 2 < 32 then goFault s p 3
    else trained (setTth (setCredits (setLanes s p up true) p) p fun t => { t with lastCred := 0 }) p)

/-- TETHER_TRAINING_FAIL (R82): a try of a lane fails; after three of the downstream lane or of every upstream lane, FAULT,
unless PRSNT_N reads high. -/
def execTetherTrainingFail (p : Fin 32) (lane : Fin 5) (s : State) : Res :=
  .next (let st := portState s p
    if st ≠ 4 ∧ st ≠ 6 ∧ st ≠ 7 then s
    else
      let s1 := syncTries (setTth s p fun t => { t with laneTries := updAt t.laneTries lane (fun n => min 3 (n + 1)) }) p
      let tr := (tthOf s1 p).laneTries
      let dead := decide (3 ≤ tr.getD 4 0) || (rangeFrom 0 4).all fun l => decide (3 ≤ tr.getD l 0)
      if dead ∧ st ≠ 6 ∧ (tthOf s1 p).fitted then goFault s1 p 2 else s1)

/-- A lane is retrained: counted, in a new episode. -/
def retrainLane (s : State) (p lane : Nat) : State :=
  syncTries (setTth (count s (TTH_RETRAINS p) 1 (.tth p) TTH_EVT_SAT) p fun t =>
    { t with laneTries := updAt t.laneTries lane fun _ => 0 }) p

/-- UPSTREAM_LANE_LOSS (R81, R83): its streams end, the lane is retrained; with the last lane all are lost. -/
def execUpstreamLaneLoss (p : Fin 32) (lane : Fin 4) (s : State) : Res :=
  .next (let g := fget s (TTH_LINK_STAT p) TTH_LINK_STAT_UP_GOOD
    if !laneMode s p ∨ g / 2 ^ lane.val % 2 = 0 then s
    else
      let g' := g - 2 ^ lane.val
      let s1 := evtSet (retrainLane (setLanes s p g' true) p lane) (.tth p) TTH_EVT_LANE_LOSS
      if g' = 0 then endStreams (allLanesLost (setPortState s1 p 7) p) p [lane.val]
      else startStreams (laneImpair (setPortState (endStreams s1 p [lane.val]) p 6) p) p)

/-- The downstream lane is retrained (R81, R79): RETRAIN, and by R83 all lanes are lost. -/
def downLost (s : State) (p : Nat) : State :=
  let s1 := retrainLane (setLanes s p (fget s (TTH_LINK_STAT p) TTH_LINK_STAT_UP_GOOD) false) p 4
  syncStreams (allLanesLost (setPortState (setTth s1 p fun t => { t with dnDue := false }) p 7) p) p

/-- DOWNSTREAM_LANE_LOSS (R81). -/
def execDownstreamLaneLoss (p : Fin 32) (s : State) : Res :=
  .next (if laneMode s p then downLost (evtSet s (.tth p) TTH_EVT_LANE_LOSS) p else s)

/-- CREDIT_TIMEOUT (R79): no credit for 10 µs while WRITE or CMD flits wait. -/
def execCreditTimeout (p : Fin 32) (s : State) : Res :=
  .next (if laneMode s p ∧ avail s p = 0 ∧ flitsWait s p then downLost (evtSet s (.tth p) TTH_EVT_CREDIT_TO) p else s)

/-- LANE_RETRAIN_DONE (R82, R90): good lanes join; after a loss of all lanes the identity is read before the port goes
UP. A downstream lane that has trained again has its credits (R77, log entry 43). -/
def execLaneRetrainDone (p : Fin 32) (upGood : BitVec 4) (dnGood : Bool) (s : State) : Res :=
  .next (let st := portState s p
    let up := enabledLanes s p upGood.toNat
    let dn := enabledDown s p dnGood
    if up = 0 ∨ !dn then s
    else if st = 6 then goUp (setLanes s p (up ||| fget s (TTH_LINK_STAT p) TTH_LINK_STAT_UP_GOOD) true) p
    else if st = 7 then
      let s1 := setLanes s p up true
      trained (if fbit s (TTH_LINK_STAT p) TTH_LINK_STAT_DN_GOOD then s1 else setCredits s1 p) p
    else s)

/-- LANE_RETRY_EPISODE (R82): a failed upstream lane of a PARTIAL port is tried again. -/
def execLaneRetryEpisode (p : Fin 32) (lane : Fin 4) (s : State) : Res :=
  .next (if portState s p = 6 ∧ fget s (TTH_LINK_STAT p) TTH_LINK_STAT_UP_GOOD / 2 ^ lane.val % 2 = 0 ∧
      fget s (TTH_CTRL p) TTH_CTRL_UP_EN / 2 ^ lane.val % 2 = 1 then retrainLane s p lane else s)

/-! ### Upstream flits (R70, R73, R77, R81, R103) -/

/-- The six-bit samples of payload bytes, least significant bit first. -/
def unpackSamples (b : List Nat) : List Nat :=
  (rangeFrom 0 (b.length * 8 / 6)).map fun i => leNat ((b.drop (6 * i / 8)).take 2) / 2 ^ (6 * i % 8) % 64

/-- SERVO flits of a head lane bring the samples of a wedge: SOB begins it, and a discarded flit spoils it (Table 3-5). -/
def takeServo (s : State) (p : Nat) (f : Flit) : State :=
  let j := f.chan.toNat % 8
  let old := if f.flags.toNat % 2 = 1 then some [] else tabGet none (tthOf s p).servo j
  setTth s p fun t => { t with servo := tabPut t.servo j (old.map (· ++ unpackSamples (flitBytes f))) }

/-- What a good upstream flit does, by its FTYPE (Table 3-3): samples and wedges of a stream, and telemetry. -/
def flitEffect (s : State) (p : Nat) (f : Flit) : State :=
  let j := f.chan.toNat % 8
  if f.ftype.toNat = 1 then
    if lineOn s p j then
      samplesStored (takeSamples s (laneOf p j) f.tstamp.toNat (decide (f.flags.toNat / 4 % 2 = 1)) (unpackSamples (flitBytes f)))
        (laneOf p j) (tabGet 0 s.det.ringPos (laneOf p j))
    else s
  else if f.ftype.toNat = 2 then (if lineOn s p j then takeServo s p f else s)
  else if f.ftype.toNat = 3 then setTth s p fun t => { t with telem := flitBytes f }
  else s

/-- An upstream flit: its credits return, and it has its effect; one that is discarded is counted, with what its loss means (R70, R77,
R81). -/
def upFlit (s : State) (p : Nat) (f : Flit) (lost : State → State) : State :=
  if !laneMode s p then s
  else if upTaken f then flitEffect (creditReturn s p f.cred.toNat) p f
  else lost (flitDiscard s p)

/-- SAMPLE_FLIT (R103, R81): a discarded one of a stream is an erasure span. -/
def execSampleFlit (p : Fin 32) (f : Flit) (s : State) : Res :=
  .next (upFlit s p f fun s => if lineOn s p (f.chan.toNat % 8) then skipSamples s (laneOf p (f.chan.toNat % 8)) else s)

/-- SERVO_FLIT (R157, R158, R81): a discarded one makes its wedge a missed one. -/
def execServoFlit (p : Fin 32) (f : Flit) (s : State) : Res :=
  .next (upFlit s p f fun s => setTth s p fun t => { t with servo := tabPut t.servo (f.chan.toNat % 8) none })

/-- TELEM_FLIT (R70, R81): the payload is kept; a discarded flit leaves the previous one. -/
def execTelemFlit (p : Fin 32) (f : Flit) (s : State) : Res := .next (upFlit s p f id)

/-- IDLE_FLIT (R70): no payload; a credit return. -/
def execIdleFlit (p : Fin 32) (f : Flit) (s : State) : Res := .next (upFlit s p f id)

/-! ### Heartbeats and witnesses (R95, R96) -/

/-- A mechanism has a write in progress: a head lane's write gate is on, or WRITE flits wait (R99). -/
def portWriting (s : State) (p : Nat) : Bool :=
  [2 * p, 2 * p + 1].any fun a => (fseqOf s a).gate != 0 || !(fseqOf s a).flitPend.isEmpty

/-- The device's role code, and its HEALTH byte. -/
def ownRole (s : State) : Nat := fget s PRT_STAT PRT_STAT_ROLE
def ownHealth (s : State) : Nat := healthByte s

/-- The address of a witness by front-end port. -/
def witAddr (side : Nat) : Nat := if side = 0 then 0x0100 else 0x0110

/-- The witness is written and the partner's is read, unless the last ones still wait. -/
def witness (s : State) (p : Nat) : State :=
  if !sbUsable s p ∨ tsbHas s p 8 ∨ tsbHas s p 9 then s
  else
    let side := fget s (TTH_TOKEN p) TTH_TOKEN_FE_PORT
    let n := ((tthOf s p).witCount + 1) % 2 ^ 32
    let s1 := tsbWrite (setTth s p fun t => { t with witCount := n }) p 8 (witAddr side)
      (leBytes 4 n ++ [ownRole s, ownHealth s, 0, 0])
    tsbRead s1 p 9 (witAddr (1 - side)) 8

/-- HEARTBEAT_PERIOD (R95, R96): an HB flit, or a TSB HEARTBEAT in SIDEBAND, while HB_EN = 1; the witnesses; WIT_AGE. A retrain of the
downstream lane that waited for writes to end begins (R99). -/
def execHeartbeatPeriod (p : Fin 32) (s : State) : Res :=
  .next (let en := fbit s (TTH_CTRL p) TTH_CTRL_HB_EN
    let n := ((tthOf s p).hbCount + 1) % 2 ^ 32
    let s0 := if (tthOf s p).dnDue ∧ laneMode s p ∧ !portWriting s p then downLost s p else s
    let s1 := if en ∧ laneMode s0 p then sendHb (setTth s0 p fun t => { t with hbCount := n }) p n
      else if en ∧ portState s0 p = 3 ∧ !tsbHas s0 p 7 then
        tsbSend (setTth s0 p fun t => { t with hbCount := n }) p ⟨7, 3, 0x0300, 4, leBytes 4 n, 0⟩
      else s0
    witness (fadd s1 (TTH_WIT_AGE p) TTH_WIT_AGE_AGE 1) p)

/-- FEC_RETRAIN_CHECK (R81, R99): a lane's counts of a second; above 10⁶ the lane is retrained, the downstream lane not
during a write. -/
def execFecRetrainCheck (p : Fin 32) (lane : Fin 5) (corrected uncorrectable : BitVec 31) (s : State) : Res :=
  .next (let s1 := count s (TTH_FEC_CORR p lane) corrected.toNat (.tth p) TTH_EVT_SAT
    let s2 := if uncorrectable = 0 then s1
      else evtSet (count s1 (TTH_FEC_UNC p) uncorrectable.toNat (.tth p) TTH_EVT_SAT) (.tth p) TTH_EVT_FEC_UNC
    if corrected.toNat ≤ 1000000 ∨ !laneMode s2 p ∨ claimed s2 (baseTTH p) then s2
    else if lane.val = 4 then (if portWriting s2 p then setTth s2 p fun t => { t with dnDue := true } else downLost s2 p)
    else
      let g := fget s2 (TTH_LINK_STAT p) TTH_LINK_STAT_UP_GOOD
      if g / 2 ^ lane.val % 2 = 0 then s2
      else
        let s3 := retrainLane (setLanes s2 p (g - 2 ^ lane.val) true) p lane
        if g = 2 ^ lane.val then endStreams (allLanesLost (setPortState s3 p 7) p) p [lane.val]
        else startStreams (laneImpair (setPortState (endStreams s3 p [lane.val]) p 6) p) p)

/-! ### What ends on TSB (R87, R90, R92, R95, R98) -/

/-- The token as read: OWNER, MINE, EPOCH, with the event at a change; streams come to the holder only (R73). -/
def tokenRead (s : State) (p : Nat) (d : List Nat) : State :=
  let o := d.headD 0 % 4
  let ep := leNat ((d.drop 2).take 2)
  let mine := o == fget s (TTH_TOKEN p) TTH_TOKEN_FE_PORT + 1
  let old := (fget s (TTH_TOKEN p) TTH_TOKEN_OWNER, tokenMine s p, tokenEpoch s p)
  let s1 := fset (fsetb (fset s (TTH_TOKEN p) TTH_TOKEN_OWNER o) (TTH_TOKEN p) TTH_TOKEN_MINE mine) (TTH_TOKEN p) TTH_TOKEN_EPOCH ep
  let s2 := if mine && laneMode s1 p then startStreams s1 p else if mine then s1 else endStreams s1 p [0, 1, 2, 3]
  if old = (o, mine, ep) then s2 else evtSet s2 (.tth p) TTH_EVT_TOKEN

/-- LOSS is found set (R98): the event, the units WAKING, the token acquired again, the spindle to CATCH, LOSS cleared. -/
def lossFound (s : State) (p : Nat) : State :=
  let s1 := moveSurfs (evtSet s (.tth p) TTH_EVT_LOSS) p [3, 4] 2
  let s2 := if isActiveRole s1 && isBound s1 p && !claimed s1 (baseTTH p) then tokenCmd s1 p 1 else s1
  let s3 := forAll [2 * p, 2 * p + 1] s2 fun s a => if srvMode s a = 0 then s else sliceSlots (setSrvMode s a 0) a 0
  goCatch (enginePower s3 (p / 2)) p

/-- The status word of the front-end as read (Table 3-6). -/
def statusRead (s : State) (p : Nat) (d : List Nat) : State :=
  let b := d.headD 0
  let s1 := if b % 2 = 1 then lossFound s p else s
  if claimed s1 (baseTTH p) then s1
  else
    let s2 := fsetb s1 (TTH_SIDEBAND p) TTH_SIDEBAND_ATTN false
    if d.all (· == 0) then s2 else tsbWrite s2 p 11 0x0220 d

/-- A read attempt of the identity failed (R90); after three, FAULT and unbound with code 8. -/
def identFail (s : State) (p : Nat) : State :=
  let n := (tthOf s p).identTries + 1
  let s1 := setTth s p fun t => { t with identTries := n, identHalf := [] }
  if n < 3 then identStart s1 p
  else if portState s1 p = 2 ∨ portState s1 p = 4 ∨ portState s1 p = 7 then holdUnbound (goFault s1 p 1) p 8
  else s1

/-- A re-read SERIAL is another mechanism's (R90, R92): what the port held of the old one goes. -/
def newMechanism (s : State) (p : Nat) : State := spnGone (rebuildCheck (mechAbsent (unboundPort (newFrontEnd s p) p) p)) p

/-- The port goes on after its identity is accepted; a new mechanism on trained lanes states its own credits (R77, R78). -/
def identGo (s : State) (p : Nat) (fresh : Bool) : State :=
  let st := portState s p
  if st = 2 then (if mayTrain s p then goTrain s p else tsbRead (setPortState s p 3) p 2 0x0200 4)
  else if (st = 4 ∨ st = 7) ∧ fbit s (TTH_LINK_STAT p) TTH_LINK_STAT_DN_GOOD then
    if !fresh then enterUp s p
    else if identField s p 16 2 < 32 then goFault s p 3
    else enterUp (setTth (setCredits s p) p fun t => { t with lastCred := 0 }) p
  else s

/-- An identity block is accepted (R90): copied; a new SERIAL is a new mechanism; the port goes on. -/
def identAccept (s : State) (p : Nat) (b : List Nat) : State :=
  let ser := (b.drop 20).take 16
  let fresh := decide ((tthOf s p).serial ≠ ser)
  let s1 := forAll (rangeFrom 0 16) s fun s n => wrN s (TTH_IDENT p n) (leNat ((b.drop (4 * n)).take 4))
  let s2 := fset s1 (TTH_TOKEN p) TTH_TOKEN_FE_PORT (b.getD 19 0 % 2)
  let s3 := setTth s2 p fun t => { t with serial := ser, identOk := true, identTries := 0, identHalf := [], reread := false }
  identGo (if fresh then newMechanism s3 p else s3) p fresh

/-- The second half of an identity block has arrived. -/
def identSecond (s : State) (p : Nat) (d : List Nat) : State :=
  let b := (tthOf s p).identHalf ++ d
  if b.length = 64 ∧ at4 b 60 = crc32c (b.take 60) ∧ b.getD 18 0 = 1 then identAccept s p b else identFail s p

/-- The partner's witness as read (R95); the count found first does not yet tell that the partner lives. -/
def witnessRead (s : State) (p : Nat) (d : List Nat) : State :=
  let n := leNat (d.take 4)
  let s1 := setTth s p fun t => { t with witRole := d.getD 4 0, witHealth := d.getD 5 0 }
  if rdN s (TTH_WIT_PEER p) = n then s1
  else
    let s2 := fset (wrN s1 (TTH_WIT_PEER p) n) (TTH_WIT_AGE p) TTH_WIT_AGE_AGE 0
    if rdN s (TTH_WIT_PEER p) = 0 then s2 else { s2 with prt := { s2.prt with heard := true } }

/-- The data window of an expert's transaction takes the bytes read (R102). -/
def expertData (s : State) (p : Nat) (d : List Nat) : State :=
  forAll (rangeFrom 0 8) s fun s n =>
    if 4 * n < d.length then
      let keep := leBytes 4 (rdN s (TTH_TSB_DATA p n))
      let got := (d.drop (4 * n)).take 4
      wrN s (TTH_TSB_DATA p n) (leNat (got ++ keep.drop got.length))
    else s

/-- RESULT of a token command from the front-end's STATUS (Table 3-9); 0xFF is no answer. -/
def tokenResult (status : Nat) : Nat := if status = 0 then 0 else if status = 3 then 1 else if status = 4 then 2 else 3

/-- A token that has no owner is acquired again where this device is to hold it (R98, R99). -/
def tokenWanted (s : State) (p : Nat) : State :=
  if fget s (TTH_TOKEN p) TTH_TOKEN_OWNER = 0 ∧ isActiveRole s ∧ isBound s p ∧ !claimed s (baseTTH p) ∧ !tsbHas s p 3 then tokenCmd s p 1
  else s

/-- A transaction ends with a STATUS and data: what it was for (Tables 3-8, 3-9). -/
def tsbEnd (s : State) (p : Nat) (r : TsbReq) (status : Nat) (d : List Nat) : State :=
  let ok := decide (status = 0)
  if r.purpose = 0 then
    if ok ∧ d.length = 32 then tsbRead (setTth s p fun t => { t with identHalf := d }) p 1 0x20 32 else identFail s p
  else if r.purpose = 1 then (if ok then identSecond s p d else identFail s p)
  else if r.purpose = 2 then
    if ok then
      let had := tokenMine s p
      let s1 := tokenWanted (tokenRead s p d) p
      let s2 := if had ∧ !tokenMine s1 p then tsbRead s1 p 10 0x0220 4 else s1
      if tokenMine s2 p ∧ !had then tsbRead (wdogSend s2 p) p 10 0x0220 4 else s2
    else s
  else if r.purpose = 3 ∨ r.purpose = 4 ∨ r.purpose = 5 then
    tsbRead (fset s (TTH_TOKEN p) TTH_TOKEN_RESULT (tokenResult status)) p 2 0x0200 4
  else if r.purpose = 9 then (if ok then witnessRead s p d else s)
  else if r.purpose = 10 then (if ok then statusRead s p d else s)
  else if r.purpose = 12 then
    let s1 := fset (fset s (TTH_TSB_STAT p) TTH_TSB_STAT_STATUS status) (TTH_TSB_STAT p) TTH_TSB_STAT_RETRIES r.tries
    let s2 := fsetb s1 (TTH_TSB_CMD p) TTH_TSB_CMD_GO false
    if ok ∧ r.cmd = 1 then expertData s2 p (d.take r.len) else s2
  else s

/-- The transaction on the bus of a port ends; STATUS 0xFF, no answer, is shown for any (R87). -/
def tsbDone (s : State) (p status : Nat) (d : List Nat) : State :=
  match (tthOf s p).tsb with
  | some r =>
    let s1 := if status = 0xFF then
        fset (fset s (TTH_TSB_STAT p) TTH_TSB_STAT_STATUS 0xFF) (TTH_TSB_STAT p) TTH_TSB_STAT_RETRIES r.tries else s
    tsbEnd (tsbNext s1 p) p r status d
  | none => s

/-- The request on the bus of a port has no answer: three retries, then STATUS 0xFF (R87). -/
def tsbRetry (s : State) (p : Nat) : State :=
  match (tthOf s p).tsb with
  | some r =>
    if r.tries < 3 then emit (setTth s p fun t => { t with tsb := some { r with tries := r.tries + 1 } }) (.tsbReq p (tsbFrame r))
    else tsbDone s p 0xFF []
  | none => s

/-- TSB_RESPONSE_TIMEOUT (R87): none within 4 µs; three retries, then STATUS 0xFF. -/
def execTsbResponseTimeout (p : Fin 32) (s : State) : Res := .next (tsbRetry s p)

/-- TSB_ATTENTION (R88): latched; a request on the bus fails and is retried; the firmware reads the status word. -/
def execTsbAttention (p : Fin 32) (cause : BitVec 8) (s : State) : Res :=
  .next (let s0 := setFe s p fun x => { x with attnCause := x.attnCause ||| cause.toNat }
    let s2 := tsbRetry (evtSet (fsetb s0 (TTH_SIDEBAND p) TTH_SIDEBAND_ATTN true) (.tth p) TTH_EVT_ATTN) p
    if sbUsable s2 p && !claimed s2 (baseTTH p) && !tsbHas s2 p 10 then tsbRead s2 p 10 0x0220 4 else s2)

/-! ### The port's registers (Table 3-9, R102) -/

/-- Statistics counters of a block are cleared with their SAT bits (R441). -/
def clearCounts (s : State) (as : List Nat) (b : EvtBlk) : State :=
  let t := forAll as s fun s a => wrN s a 0
  { t with evt := { t.evt with satSeen := t.evt.satSeen.filter (· != b) } }

/-- CNT_CLR of a port: its counters and their SAT bits (R441). -/
def tthClear (s : State) (p : Nat) : State :=
  clearCounts s ((rangeFrom 0 5).map (TTH_FEC_CORR p) ++ [TTH_FEC_UNC p, TTH_CRC_ERR p, TTH_RETRAINS p, TTH_LATE p]) (.tth p)

/-- TTH_CNT_CLR (R441). -/
def execTthCntClr (m : Master) (p : Fin 32) (s : State) : Res := .next (regWrite s m (TTH_CTRL p) fun s => tthClear s p)

/-- All lanes of a port are retrained, or FAULT is left (Table 3-8). -/
def portRetrain (s : State) (p : Nat) : State :=
  let st := portState s p
  if st = 9 then goIdent s p
  else if st = 5 ∨ st = 6 then
    let s1 := endStreams (allLanesLost (setPortState (setLanes s p 0 false) p 7) p) p [0, 1, 2, 3]
    newEpisodes (count s1 (TTH_RETRAINS p) 5 (.tth p) TTH_EVT_SAT) p
  else if st = 4 ∨ st = 7 then newEpisodes (setLanes s p 0 false) p
  else s

/-- TTH_RETRAIN (R91). -/
def execTthRetrain (m : Master) (p : Fin 32) (s : State) : Res := .next (regWrite s m (TTH_CTRL p) fun s => portRetrain s p)

/-- TTH_SB_ONLY_WRITE (R91). -/
def execTthSbOnlyWrite (m : Master) (p : Fin 32) (v : Bool) (s : State) : Res :=
  .next (regWrite s m (TTH_CTRL p) fun s =>
    phyChanged (fsetb s (TTH_CTRL p) TTH_CTRL_SB_ONLY v) p)

/-- OFF is entered (Table 3-8). -/
def portDisable (s : State) (p : Nat) : State :=
  let s1 := fsetb s (TTH_CTRL p) TTH_CTRL_PORT_EN false
  if portState s1 p = 0 ∨ portState s1 p = 8 then s1
  else setPortState (phyOff (lanesDown (tsbAbort (allLanesLost s1 p) p) p) p) p 8

/-- OFF is left for EMPTY, then as PRSNT_N stands. -/
def portEnable (s : State) (p : Nat) : State :=
  let s1 := fsetb s (TTH_CTRL p) TTH_CTRL_PORT_EN true
  if portState s1 p = 8 then
    let s2 := setPortState s1 p 0
    if (tthOf s2 p).fitted then goDebounce s2 p else s2
  else s1

/-- TTH_PORT_DISABLE (R91). -/
def execTthPortDisable (m : Master) (p : Fin 32) (s : State) : Res := .next (regWrite s m (TTH_CTRL p) fun s => portDisable s p)

/-- TTH_PORT_ENABLE (R91). -/
def execTthPortEnable (m : Master) (p : Fin 32) (s : State) : Res := .next (regWrite s m (TTH_CTRL p) fun s => portEnable s p)

/-- TTH_WDOG_WRITE (R96). -/
def execTthWdogWrite (m : Master) (p : Fin 32) (us : BitVec 16) (s : State) : Res :=
  .next (regWrite s m (TTH_HB p) fun s => setWdog s p us.toNat)

/-- A token command by register: ignored while the port's TSB is busy (R102). -/
def tokenWrite (s : State) (p cmd : Nat) : State := if (tthOf s p).tsb.isSome then s else tokenCmd s p cmd

/-- TOKEN_ACQUIRE (R93). -/
def execTokenAcquire (m : Master) (p : Fin 32) (s : State) : Res := .next (regWrite s m (TTH_TOKEN p) fun s => tokenWrite s p 1)

/-- TOKEN_RELEASE (R93). -/
def execTokenRelease (m : Master) (p : Fin 32) (s : State) : Res := .next (regWrite s m (TTH_TOKEN p) fun s => tokenWrite s p 2)

/-- TOKEN_HANDOFF (R93). -/
def execTokenHandoff (m : Master) (p : Fin 32) (s : State) : Res := .next (regWrite s m (TTH_TOKEN p) fun s => tokenWrite s p 3)

/-- An expert's transaction (R102): ignored while TSB is busy; a length out of range is refused with STATUS 0xFE. -/
def tsbExpert (s : State) (p cmd len addr : Nat) : State :=
  if (tthOf s p).tsb.isSome then s
  else
    let r := TTH_TSB_CMD p
    let s1 := fset (fset (fset s r TTH_TSB_CMD_CMD cmd) r TTH_TSB_CMD_LEN len) r TTH_TSB_CMD_ADDR addr
    if len = 0 ∨ 32 < len ∨ (cmd ≠ 1 ∧ cmd ≠ 2) then fset (fsetb s1 r TTH_TSB_CMD_GO false) (TTH_TSB_STAT p) TTH_TSB_STAT_STATUS 0xFE
    else
      let d := if cmd = 2 then ((rangeFrom 0 8).flatMap fun n => leBytes 4 (rdN s (TTH_TSB_DATA p n))).take len else []
      tsbSend (fsetb s1 r TTH_TSB_CMD_GO true) p ⟨12, cmd, addr, len, d, 0⟩

/-- TSB_CMD_READ (R102). -/
def execTsbCmdRead (m : Master) (p : Fin 32) (len : BitVec 8) (addr : BitVec 16) (s : State) : Res :=
  .next (regWrite s m (TTH_TSB_CMD p) fun s => tsbExpert s p 1 len.toNat addr.toNat)

/-- TSB_CMD_WRITE (R102). -/
def execTsbCmdWrite (m : Master) (p : Fin 32) (len : BitVec 8) (addr : BitVec 16) (s : State) : Res :=
  .next (regWrite s m (TTH_TSB_CMD p) fun s => tsbExpert s p 2 len.toNat addr.toNat)

end Sys2Proof.Machine
end

