-- ==== Sys2Proof/Machine/Host.lean ====
section
/-! DEFINITION. The host interface: ports and controllers, fetch, the I/O commands and their commit point, queues, Identify,
Abort and events (chapter 10). Status codes that the chapter does not number are those of the NVMe specifications
(log entry 15). -/
namespace Sys2Proof.Machine
open Sys2Proof

/-! ### Ports and controllers (R253, R258) -/

/-- The domain of the host core of a port (Table 13-3). -/
def hostDom (x : Nat) : Nat := 5 + x

/-- PERST_ASSERT (R258, R413, R21). -/
def execPerstAssert (x : HPort) (s : State) : Res :=
  .next (let p := portId x
    let s1 := linkDown (controllerReset (setCtl s p fun c => { c with perst := true }) p) p
    psUpdate (partyReset (releaseClaims (domRelease s1 (hostDom p)) p) p))

/-- The configuration header of a port's function (Table 10-1): Device ID, Vendor ID, Subsystem Vendor ID, Subsystem ID,
Revision ID, which is STEP (R3), class code, Interrupt Pin, and the sizes of BAR0/1, BAR2/3 and BAR4/5. -/
def pciHeader (s : State) : List Nat :=
  let vid := fget s HIF_PCI_ID HIF_PCI_ID_VID
  [fget s HIF_PCI_ID HIF_PCI_ID_DID, vid, vid, 0x3264, fget s TRS_DEVICE_ID TRS_DEVICE_ID_STEP, 0x010802, 1, 2 ^ 17, 2 ^ 28, 2 ^ 20]

/-- What CAP holds of a controller: MQES, CQR, AMS and NSSRS (R262, R258); and its MSI-X vectors. -/
def ctlCapabilities : List Nat := [65535, 1, 1, 0, 2048]

/-- CNTLID of port B while it exists (R259); no identifier is reported for it in ×16 configuration (R253). -/
def syncCntlidB (s : State) : State :=
  fset s (HIF_PORT_STAT 1) HIF_PORT_STAT_CNTLID
    (if portExists s 1 then fget s (HIF_PORT_STAT 0) HIF_PORT_STAT_CNTLID + 1 else 0)

/-- PERST_DEASSERT (R253): HIF_BIFUR is sampled; in ×16 configuration port B does not exist. -/
def execPerstDeassert (x : HPort) (bifur : Bool) (s : State) : Res :=
  .next (let p := portId x
    let s1 := fsetb s HIF_MODE HIF_MODE_BIFUR bifur
    let s2 := syncCntlidB (if bifur then s1 else linkDown (controllerReset s1 1) 1)
    if portExists s2 p then domRequest (setCtl s2 p fun c => { c with perst := false }) (hostDom p) else s2)

/-- PCIE_LINK_UP (R253, R339): 32, 16 or 8 GT/s, down to ×1, up to ×16 or ×8. -/
def execPcieLinkUp (x : HPort) (speed : BitVec 3) (width : BitVec 6) (s : State) : Res :=
  .next (let p := portId x
    let wmax := if fbit s HIF_MODE HIF_MODE_BIFUR then 8 else 16
    let ok := decide (3 ≤ speed.toNat ∧ speed.toNat ≤ 5 ∧ 1 ≤ width.toNat ∧ width.toNat ≤ wmax)
    if ok && portExists s p && !(ctl s p).perst then
      let s1 := fset (fset s (HIF_PORT_STAT p) HIF_PORT_STAT_SPEED speed.toNat) (HIF_PORT_STAT p) HIF_PORT_STAT_WIDTH width.toNat
      psUpdate (fsetb s1 (HIF_PORT_STAT p) HIF_PORT_STAT_LINK_UP true)
    else s)

/-- A surprise link down (R258, R21, R413). -/
def surpriseDown (s : State) (p : Nat) : State :=
  let s1 := psUpdate (linkDown (controllerReset s p) p)
  evtSet (partyReset (releaseClaims s1 p) p) .hif (if p = 0 then HIF_EVT_LINK_DOWN_A else HIF_EVT_LINK_DOWN_B)

/-- SURPRISE_LINK_DOWN (R258). -/
def execSurpriseLinkDown (x : HPort) (s : State) : Res :=
  .next (if fbit s (HIF_PORT_STAT (portId x)) HIF_PORT_STAT_LINK_UP then surpriseDown s (portId x) else s)

/-- FUNCTION_LEVEL_RESET (R258, R413). -/
def execFunctionLevelReset (x : HPort) (s : State) : Res :=
  .next (if portExists s (portId x) then partyReset (controllerReset s (portId x)) (portId x) else s)

/-- CC_EN_CLEAR (R258). -/
def execCcEnClear (x : HPort) (s : State) : Res :=
  .next (if (ctl s (portId x)).enabled then controllerReset s (portId x) else s)

/-- CC_EN_SET (R339). -/
def execCcEnSet (x : HPort) (s : State) : Res :=
  .next (let p := portId x
    if portExists s p && fbit s (HIF_PORT_STAT p) HIF_PORT_STAT_LINK_UP && !(ctl s p).enabled then
      psUpdate (raiseReady (setCtl s p fun c => { c with enabled := true }))
    else s)

/-! ### Fetch (R56, R263, R264) -/

/-- The unit a queue of a port is steered to (R56). -/
def steered (s : State) (p qid : Nat) : Option Nat :=
  (s.trs.run.steers.find? fun r => r.port == p && decide (r.first ≤ qid ∧ qid ≤ r.last)).map (·.uid)

/-- SQ_DOORBELL_WRITE (R56): a doorbell of a steered queue wakes its unit. -/
def execSqDoorbellWrite (x : HPort) (qid tail : BitVec 16) (s : State) : Res :=
  .next (adminCmd s x fun s =>
    let p := portId x
    match (ctl s p).sqs.find? fun q => q.1 == qid.toNat with
    | none => s
    | some q =>
      let s1 := setCtl s p fun c => { c with sqs := tabPut c.sqs q.1 { q.2 with tail := tail.toNat % max 1 q.2.size } }
      match steered s1 p qid.toNat with
      | some u => if uState s1 u = 1 then wakeDemand s1 u else s1
      | none => s1)

/-- A port can draw no slot: SLOTS_FULL and the count once per stall (R263). -/
def slotStall (s : State) (p : Nat) : State :=
  if (if p = 0 then s.host.stallA else s.host.stallB) then s
  else
    let h := if p = 0 then { s.host with stallA := true } else { s.host with stallB := true }
    evtSet (count { s with host := h } (HIF_PORT_CNT p 5) 1 .hif HIF_EVT_SAT) .hif HIF_EVT_SLOTS_FULL

/-- The status an I/O command ends with by the asymmetric state of its port (R274). -/
def anaStatus (s : State) (p : Nat) : Option (Nat × Nat) :=
  match fget s (HIF_PORT_STAT p) HIF_PORT_STAT_ANA with
  | 0x1 => none
  | 0xF => some (3, 0x03)
  | _ => some (3, 0x02)

/-- The zone sequencer a flow runs on (R366): ZMAP of the zone index, or of the 4 MiB granule, modulo 8. -/
def zoneSeqOf (s : State) (n slba : Nat) : Nat :=
  let x := (if nsZoned s n then slba / nsZl s n else slba / 1024) % 8
  fget s MCS_ZCTRL MCS_ZCTRL_ZMAP / 8 ^ x % 8

/-- An entry enters a slot (R264): the asymmetric state and the deferred errors of its zones are looked at first. -/
def takeEntry (s : State) (p sq : Nat) (q : Sq) (e : SqEntry) : State :=
  let c : Cmd :=
    { port := p, sq := sq, cid := e.cid.toNat, opc := e.opc.toNat, nsid := e.nsid.toNat, slba := e.slba.toNat
      len := e.nlb.toNat + 1, fua := e.fua, zsa := e.zsa.toNat, all := e.selectAll, order := s.host.order
      zseq := zoneSeqOf s e.nsid.toNat e.slba.toNat }
  let s1 := setCtl s p fun k => { k with sqs := tabPut k.sqs sq { q with head := (q.head + 1) % max 1 q.size } }
  let h := { s1.host with order := s1.host.order + 1, cmds := s1.host.cmds ++ [c] }
  let s2 := syncSlots { s1 with host := if p = 0 then { h with stallA := false } else { h with stallB := false } }
  let s3 := phySync (ioFetched s2 p)
  let r := flipNow s3 1 17 23 none
  let s3 := if r.2.1 = 2 then cmdPoison r.1 c else r.1
  if r.2.1 = 2 then s3
  else match anaStatus s3 p with
  | some f => failCmd s3 c f.1 f.2
  | none =>
    match if attached s3 p c.nsid then deferredZones s3 c else [] with
    | [] => s3
    | zs => reportDeferred s3 c zs

/-- COMMAND_FETCH (R264): the entry at the head of a queue, while FETCH_EN of the port is 1 and a slot is free. -/
def execCommandFetch (x : HPort) (sqid : BitVec 16) (e : SqEntry) (s : State) : Res :=
  .next (adminCmd s x fun s =>
    let p := portId x
    match (ctl s p).sqs.find? fun q => q.1 == sqid.toNat with
    | none => s
    | some q =>
      if q.2.head = q.2.tail ∨ !fetchRuns s ∨ fget s HIF_CTRL HIF_CTRL_FETCH_EN / 2 ^ p % 2 = 0 then s
      else if !cmdSlotFree s p then slotStall s p
      else takeEntry s p sqid.toNat q.2 e)

/-! ### Running a fetched command -/

/-- A Zone Management Send fetched before `c` to one of its zones has not passed its commit point (R269). -/
def zmsAhead (s : State) (c : Cmd) : Bool :=
  (earlier s c).any fun d => d.opc == 0x79 && d.nsid == c.nsid &&
    (d.all || touchesZone s c.nsid (d.slba / nsZl s c.nsid) c)

/-- A fetched command with an opcode begins: attached (R259), not fenced (R59), no Zone Management Send ahead of it. -/
def runCmd (s : State) (x : HPort) (sqid cid : BitVec 16) (opc : Nat) (f : State → Cmd → State) : State :=
  match findCmd s (portId x) sqid.toNat cid.toNat with
  | none => s
  | some c =>
    if c.started ∨ c.fail.isSome ∨ c.opc ≠ opc then s
    else if !attached s c.port c.nsid then failCmd s c 0 0x0B
    else
      match nsUnit s c.nsid with
      | none => failCmd s c 0 0x0B
      | some u =>
        if fenced s u ∨ zmsAhead s c then s
        else if uState s u = 0 then failCmd s c 0 0xC1
        else if uState s u = 5 then failCmd (setCmd s c fun d => { d with gone := true }) c 0 0xC1
        else f s c

/-- Why a zone in a state takes no write. -/
def zoneRefuses (st : Nat) : Option (Nat × Nat) :=
  if st = 0xE then some (1, 0xB9) else if st = 0xD then some (1, 0xBA) else if st = 0xF then some (1, 0xBB) else none

/-- The range of a command fails before its zone is looked at: MDTS and ZASL bound the data transferred, so not Write Zeroes
and Verify (Table 10-3). -/
def rangeRefuses (s : State) (c : Cmd) : Option (Nat × Nat) :=
  if 512 < c.len ∧ c.opc ≠ 0x08 ∧ c.opc ≠ 0x0C then some (0, 0x02) else if nsLbas s c.nsid < c.slba + c.len then some (0, 0x80) else none

/-- The status a write fails with as it begins (R267, Table 10-7). -/
def writeRefuses (s : State) (c : Cmd) : Option (Nat × Nat) :=
  match rangeRefuses s c with
  | some f => some f
  | none =>
    if ((nsUnit s c.nsid).map (uState s)) = some 6 then some (1, 0xBA)
    else if !nsZoned s c.nsid then (if c.opc = 0x7D then some (0, 0x01) else none)
    else
      let z := cmdZone s c
      let zl := nsZl s c.nsid
      match zoneRefuses (getZone s c.nsid z).zstate with
      | some f => some f
      | none =>
        if c.opc = 0x7D then
          if c.slba ≠ z * zl then some (0, 0x02)
          else if (z + 1) * zl < predicted s c + c.len then some (1, 0xB8) else none
        else if c.slba ≠ predicted s c then some (1, 0xBC)
        else if (z + 1) * zl < c.slba + c.len then some (1, 0xB8) else none

/-- The zone of a write is opened, explicitly (3) or by the write (2), where it is not active or closed (R231). -/
def openZone (s : State) (n z st : Nat) : Option State :=
  let r := getZone s n z
  if r.zstate = st ∨ (r.zstate = 3 ∧ st = 2) then some s
  else (takeCtx s (zoneKey n z)).map fun s => setZState s n z st

/-- A status of a failed write is counted where it is Zone Invalid Write (Table 10-9). -/
def failWrite (s : State) (c : Cmd) (f : Nat × Nat) : State :=
  failCmd (if f = (1, 0xBC) then count s (HIF_PORT_CNT c.port 7) 1 .hif HIF_EVT_SAT else s) c f.1 f.2

/-- A write begins: its checks, the implicit open, then it waits for the ledger (R267, R231, R266). -/
def beginWrite (s : State) (c : Cmd) : State :=
  match writeRefuses s c with
  | some f => failWrite s c f
  | none =>
    if nsZoned s c.nsid then
      match openZone s c.nsid (cmdZone s c) 2 with
      | some t => setCmd t c fun d => { d with started := true }
      | none => failCmd (evtSet s .zmp ZMP_EVT_CTX_FULL) c 1 0xBD
    else setCmd s c fun d => { d with started := true }

/-- NVM_WRITE (R267). -/
def execNvmWrite (x : HPort) (sqid cid : BitVec 16) (s : State) : Res := .next (runCmd s x sqid cid 0x01 beginWrite)

/-- NVM_WRITE_ZEROES (R265): a write without host data. -/
def execNvmWriteZeroes (x : HPort) (sqid cid : BitVec 16) (s : State) : Res := .next (runCmd s x sqid cid 0x08 beginWrite)

/-- ZONE_APPEND (R267). -/
def execZoneAppend (x : HPort) (sqid cid : BitVec 16) (s : State) : Res := .next (runCmd s x sqid cid 0x7D beginWrite)

/-! ### Admission and data (R266, R313, R257, R389) -/

/-- The extent a write becomes when it is admitted; an append's place is the predicted one until its commit. -/
def writeExt (s : State) (c : Cmd) : Ext :=
  ⟨c.nsid, cmdZone s c, if c.opc = 0x7D then predicted s c else c.slba, c.len, uncommitted c.order⟩

/-- The ledger and region 0, but for its test page, have room for one more extent (R313, R287). -/
def admits (s : State) (e : Ext) : Bool :=
  let t := setZmp s fun z => { z with dirty := z.dirty ++ [e] }
  let nw := fget s BAL_STAT BAL_STAT_NW
  !fbit s BAL_CTRL BAL_CTRL_HOLD && !inSafe s && force s != 0xB && decide (1 ≤ nw) && decide (vusedFor t nw ≤ rdN s BAL_VMAX) &&
    decide (sumN (t.zmp.dirty.map (·.count)) ≤ 262143)

/-- The ledger admits a set of extents together. -/
def admitsAll (s : State) (es : List Ext) : Bool :=
  match es.reverse with
  | [] => true
  | e :: r => admits (setZmp s fun z => { z with dirty := z.dirty ++ r.reverse }) e

/-- The writes that wait for admission, in fetch order. -/
def ledgerWaiters (s : State) : List Cmd := s.host.cmds.filter fun c => isWrite c && c.started && !c.admitted && c.fail.isNone

/-- The extents of the writes that wait and were fetched before place `o` of the fetch order. -/
def writesAhead (s : State) (o : Nat) : List Ext := ((ledgerWaiters s).filter fun c => decide (c.order < o)).map (writeExt s)

/-- The extents of a line's dirty sub-blocks: they join the write buffer like a write's (R301). -/
def lineExts (s : State) (l : CacheLine) : List Ext :=
  (dirtyLbas l).map fun lba =>
    let z := zoneOf s l.nsid lba
    ⟨l.nsid, z, lba, 1, (getZone s l.nsid z).wseq⟩

/-- The extents of the write-backs of the cache that wait and whose eviction began at place `o` of the fetch order or before (R301,
R303, R313). -/
def writeBacksAhead (s : State) (o : Nat) : List Ext :=
  let victims := (s.cch.fills.filter fun x => x.wb && decide (x.order ≤ o)).filterMap (·.frame)
  let all := (cchState s = 1 ∨ fbit s CCH_STAT CCH_STAT_INV_BUSY) ∧ s.cch.drain ≤ o
  (s.cch.lines.filter fun x => x.2.dirty != 0 && (decide all || victims.contains x.1)).flatMap fun x => lineExts s x.2

/-- A write waits for the ledger, counted once per wait; with no writer its home is woken (R313). -/
def ledgerWait (s : State) (c : Cmd) : State :=
  if c.waitL then s
  else
    let s1 := setCmd s c fun d => { d with waitL := true }
    let s2 := evtSet (count s1 (BAL_CNT 0) 1 .bal BAL_EVT_SAT) .bal BAL_EVT_WAIT
    let s3 := evtSet (count s2 (HIF_PORT_CNT c.port 3) 1 .hif HIF_EVT_SAT) .hif HIF_EVT_LEDGER_WAIT
    if fget s3 BAL_STAT BAL_STAT_NW ≠ 0 then s3
    else match (lbaPorts s3 c.nsid c.slba).findSome? (mechUnit s3) with
      | some u => wakeDemand s3 u
      | none => s3

/-- LEDGER_ADMIT (R313): the first write in fetch order that waits is admitted, where the write-backs that began before it can be
too; otherwise it waits on and holds back every write behind it. -/
def execLedgerAdmit (s : State) : Res :=
  .next (match (ledgerWaiters s).head? with
    | none => s
    | some c =>
      let e := writeExt s c
      if admitsAll s (writeBacksAhead s c.order ++ [e]) then
        let s1 := syncDirty (setZmp s fun z => { z with dirty := z.dirty ++ [e] })
        setCmd s1 c fun d => { d with admitted := true, xfer := d.opc == 0x08 }
      else forAll (ledgerWaiters s) s ledgerWait)

/-- HOST_DATA_RECEIVED (R265, R389): the data of every LBA of an admitted write stands in the buffer and goes to the
partner. -/
def execHostDataReceived (x : HPort) (sqid cid : BitVec 16) (data : List Nat) (s : State) : Res :=
  .next (match findCmd s (portId x) sqid.toNat cid.toNat with
    | none => s
    | some c =>
      if (c.opc = 0x01 ∨ c.opc = 0x7D) ∧ c.admitted ∧ !c.xfer ∧ c.fail.isNone ∧ data.length = c.len then
        let s1 := setCmd s c fun d => { d with data := data, xfer := true }
        mirror (bufferWritten s1 c) 3 ([c.nsid, c.slba, c.len] ++ data)
      else s)

/-- The write data of a command is lost to poison, which AER logs, or to a timeout (R257). -/
def dataLost (s : State) (x : HPort) (sqid cid : BitVec 16) (poisoned : Bool) : State :=
  match findCmd s (portId x) sqid.toNat cid.toNat with
  | none => s
  | some c =>
    if isWrite c ∧ c.admitted ∧ !c.xfer ∧ c.fail.isNone then
      let s0 := setCtl s c.port fun k => { k with aerPoisoned := true }
      let s1 := if poisoned then evtSet (count s0 (HIF_PORT_CNT c.port 9) 1 .hif HIF_EVT_SAT) .hif HIF_EVT_POISON_RX else s
      failCmd s1 c 0 0x04
    else s

/-- POISONED_COMPLETION (R257). -/
def execPoisonedCompletion (x : HPort) (sqid cid : BitVec 16) (s : State) : Res := .next (dataLost s x sqid cid true)

/-- WRITE_DATA_TIMEOUT (R257): the same outcome; no poisoned TLP was received. -/
def execWriteDataTimeout (x : HPort) (sqid cid : BitVec 16) (s : State) : Res := .next (dataLost s x sqid cid false)

/-- MIRROR_ACK (R389). -/
def execMirrorAck (x : HPort) (sqid cid : BitVec 16) (s : State) : Res :=
  .next (match findCmd s (portId x) sqid.toNat cid.toNat with
    | some c => if isWrite c ∧ c.xfer ∧ mirrorOn s then setCmd s c fun d => { d with mirrored := true } else s
    | none => s)

/-! ### Reads (R268, R256, R292) -/

/-- An earlier-fetched write that overlaps a read has not passed its commit point (R268). -/
def overlapsEarlier (s : State) (c : Cmd) : Bool :=
  (earlier s c).any fun d => isWrite d && d.nsid == c.nsid &&
    (if d.opc == 0x7D then touchesZone s c.nsid (cmdZone s d) c && decide ((getZone s c.nsid (cmdZone s d)).wp < c.slba + c.len)
     else decide (d.slba < c.slba + c.len) && decide (c.slba < d.slba + d.len))

/-- An LBA holds written data: below its zone's WP, or of a conventional namespace. -/
def written (s : State) (n lba : Nat) : Bool := !nsZoned s n || decide (lba < (getZone s n (lba / nsZl s n)).wp)

/-- An LBA's data stands in the write buffer. -/
def buffered (s : State) (n lba : Nat) : Bool :=
  s.zmp.dirty.any fun e => e.nsid == n && isCommitted e && decide (e.lba ≤ lba) && decide (lba < e.lba + e.count)

/-- The data a read returns of its `i`-th LBA (R268). -/
def readLba (s : State) (c : Cmd) (i : Nat) : Nat :=
  let lba := c.slba + i
  match c.frozen.find? fun x => x.1 == i with
  | some x => x.2
  | none => if written s c.nsid lba then (cacheData s c.nsid lba).getD (lbaData s c.nsid lba) else 0

/-- The `i`-th LBA of a read comes from the media. -/
def fromMedia (s : State) (c : Cmd) (i : Nat) : Bool :=
  let lba := c.slba + i
  written s c.nsid lba && (cacheData s c.nsid lba).isNone && !buffered s c.nsid lba

/-- The media of an LBA can be read now: its unit serves, or the mechanism that holds it does (R336), or a staged copy's. -/
def mediaReady (s : State) (c : Cmd) (i : Nat) : Bool :=
  let serves := fun u => uState s u == 3 || uState s u == 4 || uState s u == 6
  let lba := c.slba + i
  (nsUnit s c.nsid).any serves ||
    ((lbaPorts s c.nsid lba).any fun p => (mechUnit s p).any serves) ||
    s.zmp.staged.any fun x => x.ext.nsid == c.nsid && decide (x.ext.lba ≤ lba) && decide (lba < x.ext.lba + x.ext.count) &&
      x.copies.any fun p => (mechUnit s p).any serves

/-- The cache is asked for the lines of a read, with the stride of its stream followed (R297, R302). -/
def cacheAsk (s : State) (c : Cmd) : State :=
  let zone := if nsZoned s c.nsid then cmdZone s c else c.slba / 262144
  let s1 := strideTrack s c.port c.nsid zone c.slba c.len
  forAll (rangeFrom (c.slba / 32) ((c.slba + c.len - 1) / 32 + 1 - c.slba / 32)) s1 fun s tag =>
    let mask := sumN ((rangeFrom 0 32).map fun i =>
      let lba := 32 * tag + i
      if c.slba ≤ lba ∧ lba < c.slba + c.len ∧ written s c.nsid lba then 2 ^ i else 0)
    if mask = 0 then s else cacheLookup s c.port c.nsid tag mask

/-- Poison in the buffer under a read is repaired or stays (R292). -/
def consumePoison (s : State) (c : Cmd) : State := forAll (rangeFrom 0 c.len) s fun s i => poisonRead s c.nsid (c.slba + i)

/-- The lines of a write that has not committed are read; the answer tells whether one is poisoned. -/
def openPoison (s : State) (c : Cmd) : State × Bool :=
  (rangeFrom 0 c.len).foldl (fun r i =>
    let x := lineRead r.1 0 (openKey c.order i)
    (x.1, r.2 || x.2)) (s, false)

/-- The `i`-th LBA of a read comes from the media, where its last read ended with 0x08 to 0x0A (Table 5-7). -/
def readBad (s : State) (c : Cmd) (i : Nat) : Bool :=
  fromMedia s c i && s.det.failed.any fun x => x.1 == lbaKey c.nsid (c.slba + i)

/-- The TLPs of a Read's data that carry poisoned LBAs go out with EP = 1, and are counted (R256); a Verify sends none. -/
def poisonSent (s : State) (c : Cmd) (is : List Nat) : State :=
  if c.opc ≠ 0x02 ∨ is = [] then s
  else
    let s1 := forAll is s fun s i => emit s (.poisonTlp c.port c.cid (c.slba + i))
    evtSet (count s1 (HIF_PORT_CNT c.port 8) is.length .hif HIF_EVT_SAT) .hif HIF_EVT_POISON_TX

/-- The data of a read has been transferred (Read) or checked (Verify), up to the first LBA that no recovery brings back (Table 5-7). -/
def readData (s : State) (c : Cmd) : State :=
  let sent := (rangeFrom 0 c.len).takeWhile fun i => !readBad s c i
  let data := sent.map (readLba s c)
  let s0 := if c.opc = 0x02 then cacheAsk s c else s
  let s1 := consumePoison s0 c
  let s2 := setPwr (if c.opc = 0x02 then emit s1 (.hostData c.port c.cid data) else s1) fun w => { w with winR := w.winR + c.len }
  let s3 := setCmd s2 c fun d => { d with started := true, xfer := true }
  let bad := sent.filter fun i => poisoned s3 0 (lbaKey c.nsid (c.slba + i))
  match bad.head? with
  | some i => failCmd (logError (poisonSent s3 c bad) c.port c.sq c.cid 2 0x81 c.nsid (c.slba + i)) c 2 0x81
  | none =>
    match (rangeFrom 0 c.len).find? (readBad s c) with
    | some i => failCmd (logError s3 c.port c.sq c.cid 2 0x81 c.nsid (c.slba + i)) c 2 0x81
    | none => s3

/-- A Read or Verify (R268): it waits for earlier overlapping writes and for its media, which it wakes, the mechanisms
of its home sectors first (R337). The memory errors `errs` are found as its lines are read (R288). -/
def beginRead (errs : List MemErr) (s : State) (c : Cmd) : State :=
  match rangeRefuses s c with
  | some f => failCmd s c f.1 f.2
  | none =>
    if nsZoned s c.nsid ∧ (rangeFrom (cmdZone s c) ((c.slba + c.len - 1) / nsZl s c.nsid + 1 - cmdZone s c)).any
        fun z => (getZone s c.nsid z).zstate == 0xF then failCmd s c 1 0xBB
    else if overlapsEarlier s c then s
    else
    let s := forAll (rangeFrom 0 c.len) (foundErrors s errs) fun s i => cachePoison s c.nsid (c.slba + i)
    if (rangeFrom 0 c.len).all fun i => !fromMedia s c i || mediaReady s c i then readData s c
    else
      let homes := ((rangeFrom 0 c.len).filter (fromMedia s c)).flatMap fun i => (lbaPorts s c.nsid (c.slba + i)).filterMap (mechUnit s)
      match nsUnit s c.nsid with
      | some u => wakeDemand (forAll homes.eraseDups s wakeDemand) u
      | none => s

/-- NVM_READ (R268). -/
def execNvmRead (x : HPort) (sqid cid : BitVec 16) (errs : List MemErr) (s : State) : Res :=
  .next (runCmd s x sqid cid 0x02 (beginRead errs))

/-- NVM_VERIFY (R265). -/
def execNvmVerify (x : HPort) (sqid cid : BitVec 16) (errs : List MemErr) (s : State) : Res :=
  .next (runCmd s x sqid cid 0x0C (beginRead errs))

/-- NVM_FLUSH (R265): its condition is that of Table 10-6. -/
def execNvmFlush (x : HPort) (sqid cid : BitVec 16) (s : State) : Res :=
  .next (runCmd s x sqid cid 0x00 fun s c => setCmd s c fun d => { d with started := true, xfer := true })

/-! ### Zone management (R269, R231) -/

/-- Earlier-fetched commands of a zone have not passed their commit points (R269). -/
def zoneBusy (s : State) (c : Cmd) (z : Nat) : Bool := (earlier s c).any (touchesZone s c.nsid z)

/-- A formatter writes a track of zone `z` of namespace `n` (Table 9-3). -/
def zoneWriting (s : State) (n z : Nat) : Bool :=
  (rangeFrom 0 64).any fun f => (fseqOf s f).cur.any fun i => i.work.any fun w =>
    w.write && w.nsid.toNat == n && decide (w.kind.toNat ≤ 1) && zoneOf s n w.lba.toNat == z

/-- A zone command waits: for earlier commands of its zone, and a reset for the track of the zone that is being written (Table 9-3). -/
def zmsHeld (s : State) (c : Cmd) (z : Nat) : Bool := zoneBusy s c z || (c.zsa == 4 && zoneWriting s c.nsid z)

/-- A Zone Management Send with an action: for its zone, or with Select All for every zone in one of the states `from`. The
action answers the state, or a status it fails with. -/
def runZms (s : State) (x : HPort) (sqid cid : BitVec 16) (zsa : Nat) (fromSt : List Nat)
    (f : State → Nat → Nat → State ⊕ (Nat × Nat)) : State :=
  match findCmd s (portId x) sqid.toNat cid.toNat with
  | none => s
  | some c0 =>
    if c0.zsa ≠ zsa then s
    else runCmd s x sqid cid 0x79 fun s c =>
      let fin := fun s => setCmd s c fun d => { d with started := true, xfer := true }
      if !nsZoned s c.nsid then failCmd s c 0 0x01
      else if c.all then
        let zs := (listedZones s c.nsid).filter fun z => fromSt.contains (getZone s c.nsid z).zstate
        if zs.any (zmsHeld s c) then s
        else fin (forAll zs s fun s z => match f s c.nsid z with
          | .inl t => t
          | .inr _ => s)
      else if nsLbas s c.nsid ≤ c.slba then failCmd s c 0 0x80
      else if c.slba % nsZl s c.nsid ≠ 0 then failCmd s c 0 0x02
      else if zmsHeld s c (cmdZone s c) then s
      else match f s c.nsid (cmdZone s c) with
        | .inl t => fin t
        | .inr e => failCmd (if e = (1, 0xBD) then evtSet s .zmp ZMP_EVT_CTX_FULL else s) c e.1 e.2

/-- Zone Management Send Open. -/
def zmsOpen (s : State) (n z : Nat) : State ⊕ (Nat × Nat) :=
  let st := (getZone s n z).zstate
  if ((nsUnit s n).map (uState s)) = some 6 ∨ st = 0xD then .inr (1, 0xBA)
  else if st = 0xE ∨ st = 0xF then .inr (1, 0xBF)
  else match openZone s n z 3 with
    | some t => .inl t
    | none => .inr (1, 0xBD)

/-- ZMS_OPEN (R231). -/
def execZmsOpen (x : HPort) (sqid cid : BitVec 16) (s : State) : Res := .next (runZms s x sqid cid 3 [4] zmsOpen)

/-- ZMS_CLOSE (R269). -/
def execZmsClose (x : HPort) (sqid cid : BitVec 16) (s : State) : Res :=
  .next (runZms s x sqid cid 1 [2, 3] fun s n z =>
    let st := (getZone s n z).zstate
    if zActive st then .inl (setZState s n z 4) else .inr (1, 0xBF))

/-- ZMS_FINISH (R269). -/
def execZmsFinish (x : HPort) (sqid cid : BitVec 16) (s : State) : Res :=
  .next (runZms s x sqid cid 2 [2, 3, 4] fun s n z =>
    let st := (getZone s n z).zstate
    if zActive st || st == 1 || st == 0xE then .inl (finishZone s n z) else .inr (1, 0xBF))

/-- ZMS_RESET (R269, R230, R300). -/
def execZmsReset (x : HPort) (sqid cid : BitVec 16) (s : State) : Res :=
  .next (runZms s x sqid cid 4 [2, 3, 4, 0xE] fun s n z =>
    let st := (getZone s n z).zstate
    if zActive st || st == 1 || st == 0xE then .inl (cacheDropZone (resetZone s n z) n z) else .inr (1, 0xBF))

/-- ZMS_OFFLINE (R269, R300). -/
def execZmsOffline (x : HPort) (sqid cid : BitVec 16) (s : State) : Res :=
  .next (runZms s x sqid cid 5 [0xD] fun s n z =>
    let st := (getZone s n z).zstate
    if st == 0xD || st == 0xF then .inl (cacheDropZone (setZState s n z 0xF) n z) else .inr (1, 0xBF))

/-- ZMS_SET_ZONE_DESC_EXT (R260). -/
def execZmsSetZoneDescExt (x : HPort) (sqid cid : BitVec 16) (s : State) : Res :=
  .next (match findCmd s (portId x) sqid.toNat cid.toNat with
    | some c => if c.opc = 0x79 ∧ c.zsa = 0x10 ∧ !c.started then failCmd s c 0 0x02 else s
    | none => s)

/-- A zone is in the set a Report Zones asks for: 0 all, then the states in order. -/
def reportable (opt st : Nat) : Bool := opt == 0 || [1, 2, 3, 4, 0xE, 0xD, 0xF][opt - 1]? == some st

/-- What Report Zones returns: the number of zones that the option asks for, and as many of their descriptors as fit (R260). -/
def zoneReport (s : State) (c : Cmd) (option : Nat) : List Nat :=
  let zl := nsZl s c.nsid
  let zs := (rangeFrom (cmdZone s c) (nsZones s c.nsid - cmdZone s c)).filter fun z =>
    reportable option (getZone s c.nsid z).zstate
  zs.length :: (zs.take (4 * c.len / 64 - 1)).flatMap fun z =>
    let r := getZone s c.nsid z
    [z, r.zstate, z * zl, zl, r.wp]

/-- ZMR_REPORT_ZONES (R260): the count, then (zone, ZSTATE, start, capacity, WP) of the zones from the start LBA that fit;
the length counts dwords, 64 bytes a descriptor after a header of 64. Deferred flags stay. -/
def execZmrReportZones (x : HPort) (sqid cid : BitVec 16) (option : BitVec 8) (s : State) : Res :=
  .next (runCmd s x sqid cid 0x7A fun s c =>
    if c.zsa ≠ 0 then s
    else if !nsZoned s c.nsid then failCmd s c 0 0x01
    else if nsLbas s c.nsid ≤ c.slba then failCmd s c 0 0x80
    else
      setCmd (emit s (.hostData c.port c.cid (zoneReport s c option.toNat))) c fun d => { d with started := true, xfer := true })

/-- ZMR_EXTENDED_REPORT_ZONES (R260). -/
def execZmrExtendedReportZones (x : HPort) (sqid cid : BitVec 16) (s : State) : Res :=
  .next (match findCmd s (portId x) sqid.toNat cid.toNat with
    | some c => if c.opc = 0x7A ∧ c.zsa = 1 ∧ !c.started then failCmd s c 0 0x02 else s
    | none => s)

/-! ### The commit point (R265, Table 10-6) -/

/-- The mirror condition of a write holds (Table 10-6). -/
def mirrorMet (s : State) (c : Cmd) : Bool := !fbit s HIF_CTRL HIF_CTRL_MIRROR_WAIT || !mirrorOn s || c.mirrored

/-- Every sector of a command is at 0x20 at home or staged in every copy (Table 10-6). -/
def onMediaNow (s : State) (c : Cmd) : Bool := c.onMedia || !(s.zmp.dirty.any fun e => e.wseq == uncommitted c.order)

/-- Every earlier-fetched write of a write's zone has passed its commit point or ended. -/
def firstOfZone (s : State) (c : Cmd) : Bool :=
  !((earlier s c).any fun d => isWrite d && touchesZone s c.nsid (cmdZone s c) d)

/-- The conditions of Table 10-6 but the mirror's. -/
def commitMet (s : State) (c : Cmd) : Bool :=
  if isWrite c then
    c.admitted && c.xfer &&
      (if nsZoned s c.nsid then firstOfZone s c && (!c.fua || onMediaNow s c) else onMediaNow s c)
  else if c.opc == 0x00 then
    c.xfer && !((earlier s c).any fun d => isWrite d && (d.nsid == c.nsid || c.nsid == 2 ^ 32 - 1))
  else if c.opc == 0x79 then
    c.xfer && !(s.zmp.jrnBusy.any fun b => b.2.any fun k =>
      k / 2 ^ 32 == c.nsid && (c.all || k % 2 ^ 32 == cmdZone s c))
  else c.xfer

/-- The digest entry of a command goes to the partner, and is withdrawn as its completion is written (R391). -/
def digest (s : State) (c : Cmd) (lba sct sc : Nat) : State :=
  let e := [fget s (HIF_PORT_STAT c.port) HIF_PORT_STAT_CNTLID, c.sq, c.cid, c.opc, c.nsid, lba, c.len, sct, sc]
  mirror (mirror s 6 e) 7 e

/-- The extents of a command take their place and their WSEQ. -/
def settleExts (s : State) (c : Cmd) (lba wseq : Nat) : State :=
  let k := uncommitted c.order
  let f := fun (e : Ext) => if e.wseq = k then { e with lba := lba, wseq := wseq } else e
  setZmp s fun z => { z with dirty := z.dirty.map f, staged := z.staged.map fun x => { x with ext := f x.ext } }

/-- What the commit of a zoned write comes to: its LBA, or the status it fails with (R267, R230). -/
def zonedCommit (s : State) (c : Cmd) : Nat ⊕ (Nat × Nat) :=
  let z := cmdZone s c
  let r := getZone s c.nsid z
  match zoneRefuses r.zstate with
  | some f => .inr f
  | none =>
    if c.opc ≠ 0x7D ∧ c.slba ≠ r.wp then .inr (1, 0xBC)
    else if (z + 1) * nsZl s c.nsid < r.wp + c.len then .inr (1, 0xB8)
    else if 2 ^ 64 - 1 ≤ r.wseq then .inr (1, 0xBA)
    else .inl r.wp

/-- The zone of a committed write: WP and WSEQ advance, and a zone at its end is Full (R267, R230). -/
def advanceZone (s : State) (c : Cmd) : State :=
  let z := cmdZone s c
  let r := getZone s c.nsid z
  let s1 := (flipNow (putZone s c.nsid z { r with wp := r.wp + c.len, wseq := r.wseq + 1 }) 0 1 1 none).1
  if r.wp + c.len = (z + 1) * nsZl s c.nsid then setZState s1 c.nsid z 0xE else journalLater s1 c.nsid z

/-- A write commits: its zone, its data, the account of the mode's window. -/
def commitWrite (s : State) (c : Cmd) (lba : Nat) : State :=
  let s1 := if nsZoned s c.nsid then
      settleExts (advanceZone s c) c lba ((getZone s c.nsid (cmdZone s c)).wseq + 1)
    else releaseDirty (settleExts s c lba 0) fun e => e.nsid == c.nsid && e.lba == lba && e.count == c.len
  setPwr (syncDirty (placeData (settleLines s1 c lba) c lba)) fun w => { w with winW := w.winW + c.len }

/-- A command ends with a status at its commit point. -/
def commitFail (s : State) (c : Cmd) (q : Nat) (cq : Cq) (f : Nat × Nat) : State :=
  let s1 := if f = (1, 0xBC) then count s (HIF_PORT_CNT c.port 7) 1 .hif HIF_EVT_SAT else s
  postCqe (digest (discardData s1 c) c c.slba f.1 f.2) c q cq f.1 f.2 0 0

/-- A command passes its commit point and its completion entry is written. -/
def commit (s : State) (c : Cmd) (q : Nat) (cq : Cq) : State :=
  if isWrite c then
    if nsZoned s c.nsid then
      match zonedCommit s c with
      | .inl lba =>
        let d := if c.opc = 0x7D then (lba % 2 ^ 32, lba / 2 ^ 32) else (0, 0)
        postCqe (digest (commitWrite s c lba) c lba 0 0) c q cq 0 0 d.1 d.2
      | .inr f =>
        let z := cmdZone s c
        let s1 := if f = (1, 0xBA) ∧ (getZone s c.nsid z).zstate ≠ 0xD then
            evtSet (setZState s c.nsid z 0xD) .zmp ZMP_EVT_WSEQ_WRAP else s
        commitFail s1 c q cq f
    else
      let r := openPoison s c
      let s1 := r.1
      if r.2 then commitFail s1 c q cq (0, 0x06)
      else postCqe (digest (commitWrite s1 c c.slba) c c.slba 0 0) c q cq 0 0 0 0
  else postCqe (digest s c c.slba 0 0) c q cq 0 0 0 0

/-- A write waits for the partner's acknowledgement alone, counted once (Table 10-9). -/
def mirrorWaits (s : State) (c : Cmd) : State :=
  if c.waitM then s
  else evtSet (count (setCmd s c fun d => { d with waitM := true }) (HIF_PORT_CNT c.port 4) 1 .hif HIF_EVT_SAT) .hif
    HIF_EVT_MIRROR_WAIT

/-- COMMIT_POINT (R265). -/
def execCommitPoint (x : HPort) (sqid cid : BitVec 16) (s : State) : Res :=
  .next (match findCmd s (portId x) sqid.toNat cid.toNat with
    | none => s
    | some c =>
      match cqRoom s c.port c.sq with
      | none => s
      | some (q, cq) =>
        match c.fail with
        | some f => postCqe (digest s c c.slba f.1 f.2) c q cq f.1 f.2 0 0
        | none =>
          if !c.started ∨ !commitMet s c then s
          else if isWrite c ∧ nsZoned s c.nsid ∧ !mirrorMet s c then mirrorWaits s c
          else commit s c q cq)

/-! ### Queues (R262) -/

/-- The counts of a port's I/O queues. -/
def syncQueues (s : State) (p : Nat) : State :=
  fset (fset s (HIF_PORT_QUEUES p) HIF_PORT_QUEUES_SQS (ctl s p).sqs.length) (HIF_PORT_QUEUES p) HIF_PORT_QUEUES_CQS (ctl s p).cqs.length

/-- A queue identifier of the 512 I/O queues. -/
def qidOk (qid : Nat) : Bool := decide (1 ≤ qid ∧ qid ≤ 512)

/-- CREATE_IO_SQ (R262): physically contiguous, on an existing completion queue. -/
def execCreateIoSq (x : HPort) (cid qid size cqid : BitVec 16) (prio : BitVec 2) (pc : Bool) (s : State) : Res :=
  .next (adminCmd s x fun s =>
    let p := portId x
    let q := qid.toNat
    if !qidOk q || (ctl s p).sqs.any fun y => y.1 == q then adminEnd s p cid.toNat 1 0x01
    else if size = 0 then adminEnd s p cid.toNat 1 0x02
    else if !pc then invalidField s p cid.toNat
    else if !((ctl s p).cqs.any fun y => y.1 == cqid.toNat) then adminEnd s p cid.toNat 1 0x00
    else adminOk (syncQueues (setCtl s p fun c =>
      { c with sqs := tabPut c.sqs q ⟨size.toNat + 1, cqid.toNat, 0, 0, prio.toNat⟩ }) p) p cid.toNat 0)

/-- DELETE_IO_SQ (R262): what it still holds ends without a completion. -/
def execDeleteIoSq (x : HPort) (cid qid : BitVec 16) (s : State) : Res :=
  .next (adminCmd s x fun s =>
    let p := portId x
    let q := qid.toNat
    if !((ctl s p).sqs.any fun y => y.1 == q) then adminEnd s p cid.toNat 1 0x01
    else
      let mine := fun (c : Cmd) => c.port == p && c.sq == q
      let s1 := setCmds (forAll (s.host.cmds.filter mine) s discardData) fun l => l.filter fun c => !mine c
      adminOk (syncQueues (setCtl s1 p fun c => { c with sqs := tabDel c.sqs q }) p) p cid.toNat 0)

/-- CREATE_IO_CQ (R262): one of 2,048 vectors. -/
def execCreateIoCq (x : HPort) (cid qid size vec : BitVec 16) (ien pc : Bool) (s : State) : Res :=
  .next (adminCmd s x fun s =>
    let p := portId x
    let q := qid.toNat
    if !qidOk q || (ctl s p).cqs.any fun y => y.1 == q then adminEnd s p cid.toNat 1 0x01
    else if size = 0 then adminEnd s p cid.toNat 1 0x02
    else if !pc then invalidField s p cid.toNat
    else if 2048 ≤ vec.toNat then adminEnd s p cid.toNat 1 0x08
    else adminOk (syncQueues (setCtl s p fun c =>
      { c with cqs := tabPut c.cqs q ⟨size.toNat + 1, 0, 0, vec.toNat, ien⟩ }) p) p cid.toNat 0)

/-- DELETE_IO_CQ (R262): not while a submission queue uses it. -/
def execDeleteIoCq (x : HPort) (cid qid : BitVec 16) (s : State) : Res :=
  .next (adminCmd s x fun s =>
    let p := portId x
    let q := qid.toNat
    if !((ctl s p).cqs.any fun y => y.1 == q) then adminEnd s p cid.toNat 1 0x01
    else if (ctl s p).sqs.any fun y => y.2.cq == q then adminEnd s p cid.toNat 1 0x0C
    else adminOk (syncQueues (setCtl s p fun c => { c with cqs := tabDel c.cqs q }) p) p cid.toNat 0)

/-! ### Other admin commands -/

/-- Admin opcodes that exist (Tables 10-4, 10-5, 11-6, 14-7 and the vendor commands of chapters 8, 16 and 17). -/
def adminOpcodes : List Nat :=
  [0x00, 0x01, 0x02, 0x04, 0x05, 0x06, 0x08, 0x09, 0x0A, 0x0C, 0x10, 0x11, 0x14, 0x18, 0xC0, 0xC1, 0xC2, 0xC8, 0xD5,
   0xD8, 0xD9, 0xE0, 0xE1, 0xE2, 0xE9]

/-- I/O opcodes that exist for a namespace (Table 10-4). -/
def ioOpcodes (s : State) (n : Nat) : List Nat :=
  [0x00, 0x01, 0x02, 0x08, 0x0C] ++ (if nsZoned s n then [0x79, 0x7A, 0x7D] else [])

/-- Log pages that exist (Tables 10-4 and 10-5). -/
def logPages : List Nat :=
  [0x01, 0x02, 0x03, 0x04, 0x05, 0x06, 0x0C, 0xBF, 0xC0, 0xC1, 0xC2, 0xC3, 0xC4, 0xC5, 0xC6, 0xC8, 0xC9, 0xD0, 0xD1, 0xD2, 0xD3,
   0xD4, 0xD5, 0xD6, 0xD8, 0xD9, 0xDA, 0xDB, 0xE0, 0xE1, 0xE2, 0xE8, 0xE9, 0xEA, 0xEE]

/-- INVALID_OPCODE (R260): an admin command, or a fetched I/O command, with an opcode that does not exist; and a Get Log
Page of an identifier that does not exist, which is an invalid field. -/
def execInvalidOpcode (x : HPort) (sqid cid : BitVec 16) (opc lid : BitVec 8) (s : State) : Res :=
  .next (if sqid = 0 then
      adminCmd s x fun s =>
        if opc = 0x02 ∧ !logPages.contains lid.toNat then invalidField s (portId x) cid.toNat
        else if adminOpcodes.contains opc.toNat then s else adminEnd s (portId x) cid.toNat 0 0x01
    else match findCmd s (portId x) sqid.toNat cid.toNat with
      | some c =>
        if c.started ∨ c.fail.isSome ∨ c.opc ≠ opc.toNat ∨ (ioOpcodes s c.nsid).contains c.opc then s else failCmd s c 0 0x01
      | none => s)

/-- The power state descriptors (Table 10-8): power in mW, operational, ENLAT and EXLAT in µs, of PS0 to PS4. -/
def powerStates : List Nat :=
  [132000, 1, 0, 0, 95000, 1, 1000, 1000, 48000, 1, 10000, 10000, 3500, 0, 2000000, 2000, 1800, 0, 2000000, 3500]

/-- MN (Table 10-3): "QUINRYN QN-3264", padded with spaces to 40 characters. -/
def modelNumber : List Nat :=
  [0x51, 0x55, 0x49, 0x4E, 0x52, 0x59, 0x4E, 0x20, 0x51, 0x4E, 0x2D, 0x33, 0x32, 0x36, 0x34] ++ List.replicate 25 0x20

/-- Identify Controller: the values of Table 10-3 in its order, the characters of MN first and CNTLID in its place, then EDSTT
(R359) and the power states (R276). FRMW has 2 slots, the first writable; LPA has Commands Supported and Effects and extended data. -/
def identifyController (s : State) (p : Nat) : List Nat :=
  modelNumber ++ [0x0B, 9, fget s (HIF_PORT_STAT p) HIF_PORT_STAT_CNTLID, 0x0014, 7, 15, 0x04, 0x06, 63, 4, 1, 10, 0x55, 64, 64,
    0x66, 0x44, 16384, 64, 0x0088, 0, 0, 30] ++ powerStates

/-- Identify Namespace (R259): LBAs, the bytes of data and of metadata of an LBA, end-to-end protection, the ANA group, and
for a zoned one ZSZE, ZCAP, MAR, MOR, the size of a descriptor extension, reads across zone boundaries, and ZASL. -/
def identifyNamespace (s : State) (n : Nat) : List Nat :=
  [nsLbas s n, 4096, 0, 0, ((nsBind s n).map (·.ana)).getD 0] ++
    (if nsZoned s n then [nsZl s n, nsZl s n, 4095, 4095, 0, 1, 9] else [])

/-- The namespaces attached to a port, ascending, above `n`. -/
def activeNs (s : State) (p n : Nat) : List Nat := (rangeFrom 1 64).filter fun m => decide (n < m) && attached s p m

/-- IDENTIFY (R259): CNS 0x00 or 0x05 namespace, 0x01 or 0x06 controller, 0x02 or 0x07 active namespaces. -/
def execIdentify (x : HPort) (cid : BitVec 16) (cns : BitVec 8) (nsid : BitVec 32) (s : State) : Res :=
  .next (adminCmd s x fun s =>
    let p := portId x
    let n := nsid.toNat
    match cns.toNat with
    | 0x00 | 0x05 =>
      if attached s p n then adminData s p cid.toNat (identifyNamespace s n) else adminEnd s p cid.toNat 0 0x0B
    | 0x01 | 0x06 => adminData s p cid.toNat (identifyController s p)
    | 0x02 | 0x07 => adminData s p cid.toNat (activeNs s p n)
    | _ => invalidField s p cid.toNat)

/-- The operation of a self-test is abandoned at the next step boundary (Table 14-6). -/
def abortSelfTest (s : State) : State :=
  { s with host := { s.host with selfTest := { s.host.selfTest with abort := true } } }

/-- ABORT (R270); `outstanding` Aborts of the controller are in hand. -/
def execAbort (x : HPort) (cid sqid acid : BitVec 16) (outstanding : BitVec 4) (s : State) : Res :=
  .next (adminCmd s x fun s =>
    let p := portId x
    let not := fun s => adminOk (count s (HIF_PORT_CNT p 2) 1 .hif HIF_EVT_SAT) p cid.toNat 1
    let yes := fun s => adminOk (count s (HIF_PORT_CNT p 1) 1 .hif HIF_EVT_SAT) p cid.toNat 0
    if 8 ≤ outstanding.toNat then adminEnd s p cid.toNat 1 0x03
    else if sqid = 0 then
      if s.evt.aers.contains (p, acid.toNat) then
        yes (adminEnd { s with evt := { s.evt with aers := s.evt.aers.erase (p, acid.toNat) } } p acid.toNat 0 0x07)
      else if s.host.selfTest.kind ≠ 0 ∧ s.host.selfTest.cmd = some (p, acid.toNat) then yes (abortSelfTest s)
      else not s
    else match findCmd s p sqid.toNat acid.toNat with
      | some c => if c.fail.isSome then not s else yes (failCmd s c 0 0x07)
      | none => not s)

/-- ASYNC_EVENT_REQUEST (R422): up to 16 are held; an event that waits completes it at once, a vendor notice not while EVT_CTRL.EN
is 0 (R417). -/
def execAsyncEventRequest (x : HPort) (cid : BitVec 16) (s : State) : Res :=
  .next (adminCmd s x fun s =>
    let p := portId x
    match s.evt.held.find? fun r => r.1 == p && (r.2.1 != 7 || fbit s EVT_CTRL EVT_CTRL_EN) with
    | some r => emit { s with evt := { s.evt with held := s.evt.held.erase r } } (.aer p cid.toNat r.2.1 r.2.2.1 r.2.2.2)
    | none =>
      if 16 ≤ (s.evt.aers.filter fun r => r.1 == p).length then adminEnd s p cid.toNat 1 0x05
      else { s with evt := { s.evt with aers := s.evt.aers ++ [(p, cid.toNat)] } })

/-- KEEP_ALIVE (R260): the timer starts anew. -/
def execKeepAlive (x : HPort) (cid : BitVec 16) (s : State) : Res :=
  .next (adminCmd s x fun s => adminOk (setCtl s (portId x) fun c => { c with kaRun := true }) (portId x) cid.toNat 0)

end Sys2Proof.Machine
end

