-- ==== Sys2Proof/Machine/Cache.lean ====
section
/-! DEFINITION. The read cache's commands (R297 to R303): fills, write-backs, prefetch, disabling, enabling, invalidation. -/
namespace Sys2Proof.Machine
open Sys2Proof

/-- The sub-blocks of a line that lie below WP (R300). -/
def writtenMask (s : State) (n tag mask : Nat) : Nat :=
  sumN ((rangeFrom 0 32).map fun i => if mask / 2 ^ i % 2 = 1 ∧ written s n (32 * tag + i) then 2 ^ i else 0)

/-- Missing sub-blocks arrive in a frame: a clean victim leaves it, the line takes them (R297, R300, R301). -/
def fillFrame (s : State) (x : CacheFill) (f : Nat) : State :=
  let same := (cacheLine s f).filter fun l => l.nsid == x.nsid && l.tag == x.tag
  let s1 := match cacheLine s f, same with
    | some v, none =>
      let t := if x.old then s else count s (CCH_CNT 4) 1 .cch CCH_EVT_SAT
      let t := if v.pre then count t (CCH_CNT 9) 1 .cch CCH_EVT_SAT else t
      putLine t f { v with valid := 0 }
    | _, _ => s
  let l := same.getD ⟨x.nsid, x.tag, 0, 0, [], x.pf⟩
  let new := writtenMask s x.nsid x.tag (x.mask - (x.mask &&& x.gone) &&& frameMask s f)
  let data := (rangeFrom 0 32).foldl (fun t i =>
    if new / 2 ^ i % 2 = 1 ∧ l.dirty / 2 ^ i % 2 = 0 then tabPut t i (lbaData s x.nsid (32 * x.tag + i)) else t) l.data
  let s2 := if same.isNone then count s1 (CCH_CNT 3) 1 .cch CCH_EVT_SAT else s1
  cacheTouch (forAll ((rangeFrom 0 32).filter fun i => decide (new / 2 ^ i % 2 = 1))
    (putLine s2 f { l with valid := l.valid ||| new, data := data }) fun s i => subWritten s f i) f

/-- CACHE_FILL_DONE (R297): the `i`-th fill under way ends, once its victim's write-back has. -/
def execCacheFillDone (i : BitVec 16) (s : State) : Res :=
  .next (match s.cch.fills[i.toNat]? with
    | none => s
    | some x =>
      if x.wb then s
      else
        let s1 := setCch s fun c => { c with fills := c.fills.eraseIdx i.toNat }
        match x.frame with
        | some f => if cchState s = 0 then s1 else fillFrame s1 x f
        | none => s1)

/-- A dirty line is written back: its copies are in the buffer, the line is clean. -/
def writeBack (s : State) (f : Nat) (l : CacheLine) : State :=
  let s1 := syncDirty (setZmp s fun z => { z with dirty := z.dirty ++ lineExts s l })
  count (putLine s1 f { l with dirty := 0 }) (CCH_CNT 5) 1 .cch CCH_EVT_SAT

/-- CACHE_WRITEBACK_DONE (R301): the write-back of a fill's dirty victim ends, or still waits for the ledger, behind the writes fetched
before its eviction began (R313); a victim asked for meanwhile stays, and the fill chooses another frame. -/
def execCacheWritebackDone (i : BitVec 16) (s : State) : Res :=
  .next (match s.cch.fills[i.toNat]? with
    | none => s
    | some x =>
      match x.frame.bind fun f => (cacheLine s f).map fun l => (f, l) with
      | none => setCch s fun c => { c with fills := c.fills.modify i.toNat fun y => { y with wb := false } }
      | some (f, l) =>
        if !x.wb then s
        else if !admitsAll s (writesAhead s x.order ++ lineExts s l) then evtSet s .cch CCH_EVT_WB_WAIT
        else
          let s1 := writeBack s f l
          if x.hit then
            let s2 := count (setCch s1 fun c => { c with fills := c.fills.eraseIdx i.toNat }) (CCH_CNT 6) 1 .cch CCH_EVT_SAT
            beginFill s2 x.req x.nsid x.tag x.mask x.pf (some f)
          else setCch s1 fun c => { c with fills := c.fills.modify i.toNat fun y => { y with wb := false } })

/-- The first LBA of the read that a detector expects next (R302); below 0, none. -/
def pfStart (d : StrideDet) : Int := (d.last : Int) + d.stride * ((d.ahead : Int) + 1)

/-- A detector may ask for its next read's lines (R302): the cache is on, prefetching is enabled, the detector is confirmed, the
read lies within the namespace and the depth, and the namespace's unit is awake. -/
def pfMay (s : State) (d : StrideDet) : Bool :=
  let awake := (nsUnit s d.nsid).any fun u => uState s u == 3 || uState s u == 4
  cchState s != 0 && fbit s CCH_CTRL CCH_CTRL_PF_EN && decide (pfConfirm s ≤ d.run) && decide (0 ≤ pfStart d) && awake &&
    decide ((d.ahead + 1) * ceilDiv d.len 32 ≤ fget s CCH_PF_CTRL CCH_PF_CTRL_DEPTH) &&
    decide ((pfStart d).toNat + d.len ≤ nsLbas s d.nsid)

/-- The lines of a detector's next read that miss are filled (R302); each counts as a prefetch. -/
def pfFill (s : State) (d : StrideDet) : State :=
  let a := (pfStart d).toNat
  let tags := rangeFrom (a / 32) ((a + d.len - 1) / 32 + 1 - a / 32)
  let want := fun tag => writtenMask s d.nsid tag (sumN ((rangeFrom 0 32).map fun j =>
    if a ≤ 32 * tag + j ∧ 32 * tag + j < a + d.len then 2 ^ j else 0))
  let miss := tags.filter fun tag => (cacheFind s d.nsid tag).isNone && want tag != 0 &&
    !(s.cch.fills.any fun x => x.nsid == d.nsid && x.tag == tag)
  count (forAll miss s fun s tag => beginFill s d.req d.nsid tag (want tag) true none) (CCH_CNT 7) miss.length .cch CCH_EVT_SAT

/-- PREFETCH_ISSUE (R302): the `i`-th detector, confirmed, asks for its next read's lines, within its limits. -/
def execPrefetchIssue (i : BitVec 8) (s : State) : Res :=
  .next (match s.cch.dets[i.toNat]? with
    | none => s
    | some d =>
      if pfMay s d then
        setCch (pfFill s d) fun c => { c with dets := c.dets.modify i.toNat fun y => { y with ahead := y.ahead + 1 } }
      else s)

/-- EN = 0 (R303): dirty lines drain first. -/
def cacheDisable (s : State) : State :=
  let s1 := fsetb (setCch s fun c => { c with enWait := false }) CCH_CTRL CCH_CTRL_EN false
  if cchState s1 = 2 then fset (setCch s1 fun c => { c with drain := s.host.order }) CCH_STAT CCH_STAT_STATE 1 else s1

/-- EN = 1 (R303): lookups resume over the lines as they stand; during an invalidation, at its end. -/
def cacheEnable (s : State) : State :=
  let s1 := fsetb s CCH_CTRL CCH_CTRL_EN true
  if fbit s1 CCH_STAT CCH_STAT_INV_BUSY then setCch s1 fun c => { c with enWait := true }
  else fset s1 CCH_STAT CCH_STAT_STATE 2

/-- INV = 1 (R303). -/
def cacheInvalidate (s : State) : State :=
  fsetb (if cchState s = 1 then s else setCch s fun c => { c with drain := s.host.order }) CCH_STAT CCH_STAT_INV_BUSY true

/-- CACHE_DISABLE (R303). -/
def execCacheDisable (m : Master) (s : State) : Res := .next (regWrite s m CCH_CTRL cacheDisable)

/-- CACHE_ENABLE (R303). -/
def execCacheEnable (m : Master) (s : State) : Res := .next (regWrite s m CCH_CTRL cacheEnable)

/-- CACHE_INVALIDATE (R303). -/
def execCacheInvalidate (m : Master) (s : State) : Res := .next (regWrite s m CCH_CTRL cacheInvalidate)

/-- Every dirty line is written back, or the ledger makes it wait. -/
def drainLines (s : State) : Option State :=
  let ds := s.cch.lines.filter fun x => x.2.dirty != 0
  if admitsAll s (writesAhead s s.cch.drain ++ ds.flatMap fun x => lineExts s x.2) then some (forAll ds s fun s x => writeBack s x.1 x.2) else none

/-- A Set Features 0xE0 that waited completes (R305). -/
def cacheCmdEnd (s : State) : State :=
  match s.cch.cmd with
  | some c => adminOk (setCch s fun k => { k with cmd := none }) c.1 c.2 0
  | none => s

/-- CACHE_DRAIN_DONE (R303). -/
def execCacheDrainDone (s : State) : Res :=
  .next (if cchState s ≠ 1 then s
    else match drainLines s with
      | none => evtSet s .cch CCH_EVT_WB_WAIT
      | some t => cacheCmdEnd (evtSet (fset t CCH_STAT CCH_STAT_STATE 0) .cch CCH_EVT_DRAIN_DONE))

/-- CACHE_INVALIDATE_DONE (R303). -/
def execCacheInvalidateDone (s : State) : Res :=
  .next (if !fbit s CCH_STAT CCH_STAT_INV_BUSY then s
    else match drainLines s with
      | none => evtSet s .cch CCH_EVT_WB_WAIT
      | some t =>
        let en := t.cch.enWait
        let s1 := syncCache (setCch t fun c =>
          { c with lines := [], fills := c.fills.map fun x => { x with gone := x.mask }, enWait := false })
        let s2 := evtSet (fsetb (fsetb s1 CCH_STAT CCH_STAT_STALE false) CCH_STAT CCH_STAT_INV_BUSY false) .cch CCH_EVT_INV_DONE
        if en then fset s2 CCH_STAT CCH_STAT_STATE 2 else s2)

end Sys2Proof.Machine
end

