-- ==== Sys2Proof/Machine/TaskOps.lean ====
section
/-! DEFINITION. Background tasks: credits and their states (R344 to R346). -/
namespace Sys2Proof.Machine
open Sys2Proof

/-- Tasks of Table 14-1. -/
def taskCount : Nat := 227

/-- STATE of a task: 0 IDLE, 1 DUE, 2 URGENT. -/
def taskState (s : State) (t : Nat) : Nat := fget s (BGW_TASK_CTRL t) BGW_TASK_CTRL_STATE

/-- KIND of a task. -/
def taskKind (s : State) (t : Nat) : Nat := fget s (BGW_TASK_CTRL t) BGW_TASK_CTRL_KIND

/-- PERIOD in use: 0 acts as 1 (Table 14-9). -/
def taskPeriod (s : State) (t : Nat) : Nat := max 1 (rdN s (BGW_TASK_PERIOD t))

/-- CREDIT in seconds. -/
def credit (s : State) (t : Nat) : Int := sgn 32 (rdN s (BGW_TASK_CREDIT t))

/-- Set CREDIT. -/
def setCredit (s : State) (t : Nat) (c : Int) : State := wrN s (BGW_TASK_CREDIT t) (unsgn 32 (max c (-2147483648)))

/-- The state R345 lays down for a task. -/
def nextTaskState (s : State) (t : Nat) : Nat :=
  let c := credit s t
  let forced := fbit s (BGW_TASK_CTRL t) BGW_TASK_CTRL_FORCE_URG
  let grace : Int := (fget s (BGW_TASK_PROG t) BGW_TASK_PROG_GRACE_PCT * taskPeriod s t : Nat)
  if taskState s t = 2 then (if 0 < c ∧ !forced then 0 else 2)
  else if forced ∨ 100 * c ≤ -grace then 2
  else if c ≤ 0 then 1 else 0

/-- The counts of BGW_STAT. -/
def syncTaskStat (s : State) : State :=
  let n := fun k => ((rangeFrom 0 taskCount).filter fun t => taskState s t == k).length
  let r := ((rangeFrom 0 taskCount).filter fun t => fbit s (BGW_TASK_CTRL t) BGW_TASK_CTRL_RUN).length
  fset (fset (fset s BGW_STAT BGW_STAT_URGENT (n 2)) BGW_STAT BGW_STAT_DUE (n 1)) BGW_STAT BGW_STAT_RUNNING r

/-- A task's state follows its credit; each entry to URGENT is raised and counted (R345). -/
def taskSync (s : State) (t : Nat) : State :=
  let st := nextTaskState s t
  if st = taskState s t then s
  else
    let s1 := syncTaskStat (fset s (BGW_TASK_CTRL t) BGW_TASK_CTRL_STATE st)
    if st = 2 then evtSet (count s1 (BGW_CNT 1) 1 .bgw BGW_EVT_SAT) .bgw BGW_EVT_URGENT
    else if st = 1 then evtSet s1 .bgw BGW_EVT_DUE else s1

/-- The firmware sets or clears FORCE_URG of the MOVE and DESTAGE tasks with a deficit (R314, R361), unless BGW is claimed. -/
def forceDestage (s : State) (on : Bool) : State :=
  if claimed s baseBGW then s
  else forAll (rangeFrom 128 64) s fun s t => taskSync (fsetb s (BGW_TASK_CTRL t) BGW_TASK_CTRL_FORCE_URG on) t

/-- A task stops running on every actuator. -/
def taskStop (s : State) (t : Nat) : State :=
  syncTaskStat (fsetb (setBgw s fun b => { b with runs := b.runs.filter fun x => x.1 != t }) (BGW_TASK_CTRL t) BGW_TASK_CTRL_RUN false)

/-- The media tasks that run stop after their sector (R347, R316 step 3). -/
def mediaTasksStop (s : State) : State :=
  forAll ((rangeFrom 0 224).filter fun t => fbit s (BGW_TASK_CTRL t) BGW_TASK_CTRL_RUN) s taskStop

end Sys2Proof.Machine
end

