-- ==== Sys2Proof/Machine/Zones.lean ====
section
/-! DEFINITION. The journal, accumulators, rebuilds, relocation, and the zone registers (chapter 9). -/
namespace Sys2Proof.Machine
open Sys2Proof

/-! ### The journal (R232, R238, R244) -/

/-- JOURNAL_TIMER (R232): JRN_MS after a change of WP or MWP. -/
def execJournalTimer (nsid : BitVec 8) (zone : BitVec 32) (s : State) : Res :=
  .next (if s.zmp.jrnDue.contains (zoneKey nsid.toNat zone.toNat) then journalZone s nsid.toNat zone.toNat else s)

/-- A relocation entry is in the ring of its port: the map directs reads to the new place (R244). -/
def relocJournalled (s : State) (p key : Nat) : State :=
  match s.zmp.relocBusy.find? fun r => r.port == p && relocKey r == key with
  | some r =>
    setZmp s fun z =>
      { z with relocBusy := z.relocBusy.erase r
               relocs := z.relocs.filter (fun x => !(x.port == r.port && x.head == r.head && x.slot == r.slot && x.unit == r.unit)) ++ [r] }
  | none => s

/-- The zone keys of a journal sector. -/
def zoneKeys (l : List Nat) : List Nat := l.filter fun k => decide (k < 2 ^ 64)

/-- A journal write that succeeded is counted, and the zones it wrote are recorded (R232). -/
def journalTaken (s : State) (x : Nat × List Nat) : State :=
  let t := count (setZmp s fun z => { z with jrnBusy := z.jrnBusy.erase x }) (ZMP_CNT 2) 1 .zmp ZMP_EVT_SAT
  let q := tabGet 0 s.zmp.jseq x.1 + 1 - (s.zmp.jrnBusy.filter fun y => y.1 == x.1).length
  setZmp t fun z => { z with jrnSeq := (zoneKeys x.2).foldl (fun l k => tabPut l k (x.1, q)) z.jrnSeq, jrnl := (zoneKeys x.2).foldl (fun l k => tabPut l k (getZone t (k / 2 ^ 32) (k % 2 ^ 32))) z.jrnl }

/-- JOURNAL_WRITE_DONE (R232, R238, R244): the oldest journal sector of a ring ends; a failed one moves on to the next ring sector with
JRN_ERR. -/
def execJournalWriteDone (p : Fin 32) (ok : Bool) (s : State) : Res :=
  .next (match s.zmp.jrnBusy.find? fun x => x.1 == p.val with
    | none => s
    | some x =>
      if ok then
        let t := forAll x.2 (journalTaken s x) fun s k => relocJournalled s p k
        if zoneKeys x.2 = [] then t else releaseMoved t (zoneKeys x.2)
      else evtSet (journalKeys (setZmp s fun z => { z with jrnBusy := z.jrnBusy.erase x }) p x.2) .zmp ZMP_EVT_JRN_ERR)

/-! ### Accumulators (R240, R241) -/

/-- The accumulator is that of a row. -/
def ofRow (th z row : Nat) (a : RowAcc) : Bool := a.thatch == th && a.zone == z && a.row == row

/-- A row's accumulator is the most recently used; with none free the one least recently used is discarded (R241), and so is
this one when a flip leaves its line in region 2 uncorrectable (Table 11-5). -/
def useAcc (s : State) (a : RowAcc) : State :=
  let r := flipNow s 0 2 2 none
  syncAcc (setZmp r.1 fun z =>
    let other := fun x => !ofRow a.thatch a.zone a.row x
    let l := (if r.2.1 = 2 then [] else [a]) ++ z.accs.filter other
    let lost := (if r.2.1 = 2 then [lostAcc a] else []) ++ (l.drop 256).map lostAcc
    { z with accs := l.take 256, accLost := lost ++ z.accLost.filter other })

/-- The accumulator of a row is free again. -/
def freeAcc (s : State) (th z row : Nat) : State :=
  syncAcc (setZmp s fun y =>
    { y with accs := y.accs.filter (fun x => !ofRow th z row x), accLost := y.accLost.filter fun x => !ofRow th z row x })

/-- The accumulator of a row was discarded. -/
def rowLost (s : State) (th z row : Nat) : Bool := s.zmp.accLost.any (ofRow th z row)

/-- The row's accumulator, empty for a row that has none yet. -/
def rowAcc (s : State) (th z row : Nat) : RowAcc := (s.zmp.accs.find? (ofRow th z row)).getD ⟨th, z, row, [], [], []⟩

/-- A data sector of member `i` at sector `x` of its unit is encoded, once (R240). -/
def rowAdd (m i x : Nat) (info : List Nat) (a : RowAcc) : RowAcc :=
  if a.units.any fun y => y.1 == 256 * i + x then a
  else { a with units := tabPut a.units (256 * i + x) info, par := tabUpd [] a.par x (thatchAdd m i info) }

/-- The accumulator of the sectors of a row that were written (R241). -/
def rowRead (m : Nat) (a : RowAcc) : RowAcc :=
  a.units.foldl (fun b y => rowAdd m (y.1 / 256) (y.1 % 256) y.2 b) { a with units := [], par := [] }

/-- ACCUMULATOR_READBACK (R241): a row whose accumulator was discarded is rebuilt from its written units, unless the engine may not be
powered (R330). -/
def execAccumulatorReadback (t : Fin 4) (uid : BitVec 12) (zone row : BitVec 32) (s : State) : Res :=
  .next (if !engineFree s t then s else match s.zmp.accLost.find? (ofRow uid.toNat zone.toNat row.toNat) with
    | some a =>
      let s1 := count (count (useAcc s (rowRead (thatchM s uid.toNat) a)) (THT_CNT t 4) 1 (.tht t) THT_EVT_SAT) (ZMP_CNT 5) 1 .zmp
        ZMP_EVT_SAT
      evtSet s1 (.tht t) THT_EVT_ACC_READBACK
    | none => s)

/-! ### Rebuild (R243, R251) -/

/-- REBUILD_START (R243): RB_CTRL.GO; while the engine rebuilds, a GO is ignored. -/
def execRebuildStart (m : Master) (t : Fin 4) (member : BitVec 5) (uid : BitVec 12) (s : State) : Res :=
  .next (regWrite s m (THT_RB_CTRL t) fun s =>
    if fbit s (THT_RB_STAT t) THT_RB_STAT_BUSY then s else rebuildStart s t uid.toNat member.toNat)

/-- REBUILD_STOP (R251): RESULT 2; progress is discarded. -/
def execRebuildStop (m : Master) (t : Fin 4) (s : State) : Res :=
  .next (regWrite s m (THT_RB_CTRL t) fun s =>
    if fbit s (THT_RB_STAT t) THT_RB_STAT_BUSY then rebuildEnd (wrN s (THT_RB_ZONE t) 0) t 2 else s)

/-- REBUILD_DONE (R243): complete, once the engine's domain is on (R329); or ended because the target is gone, or more than m members
are. -/
def execRebuildDone (t : Fin 4) (rows : BitVec 31) (s : State) : Res :=
  .next (if !fbit s (THT_RB_STAT t) THT_RB_STAT_BUSY then s
    else
      let u := fget s (THT_RB_CTRL t) THT_RB_CTRL_UID
      let ms := members s u
      let unav := ms.length - (available s ms).length
      if !memberBound s u (fget s (THT_RB_CTRL t) THT_RB_CTRL_MEMBER) then rebuildEnd s t 4
      else if thatchM s u < unav then rebuildEnd s t 3
      else if !domOn s (467 + t) then s
      else
        let n := rdN s (THT_RB_TOTAL t)
        let s1 := count (count (wrN s (THT_RB_ZONE t) n) (THT_CNT t 5) n (.tht t) THT_EVT_SAT) (THT_CNT t 3) rows.toNat (.tht t)
          THT_EVT_SAT
        rebuildEnd s1 t 0)

/-! ### Relocation (R244, R245) -/

/-- A unit that cannot be moved (R245): a recovered sector stays with SPARE_OUT, one that ended 0x23 leaves its zone Read
Only with a deferred error; the SURF has GRADE 2 with CAUSE 0x72. -/
def relocFail (s : State) (r : RelocReq) : State :=
  let s1 := match surfOf s r.port r.q with
    | some u => leafGrade s u 2 0x72
    | none => s
  if r.verifyFail then
    let z := zoneOf s1 r.nsid r.lba
    let s2 := if nsZoned s1 r.nsid then setZState s1 r.nsid z 0xD else s1
    deferError s2 ⟨r.nsid, z, r.lba, 1, 0⟩
  else evtSet s1 .zmp ZMP_EVT_SPARE_OUT

/-- A relocation to a free spare unit starts: the whole unit is written there, and its entry journalled (R244); SPARE_LOW with the
surface's last free spare slot (R245). -/
def relocStart (s : State) (r : RelocReq) (dest : Nat) : State :=
  let l := spareUnits s r.port r.q
  let e : Reloc := ⟨r.port, r.q, r.slot, r.unit, dest⟩
  let s1 := setZmp s fun z =>
    { z with spareUsed := tabPut z.spareUsed (32 * r.port + r.q) (updAt l (dest / 4096) (· + 1)), relocBusy := z.relocBusy ++ [e] }
  let s2 := journalKeys (spareSync (emit s1 (.media 7 (2 * r.port) [r.q, r.slot, r.unit, dest])) r.port) r.port [relocKey e]
  let s3 := if dest % 4096 = 0 ∧ freeSpares s2 r.port r.q = 0 then evtSet s2 .zmp ZMP_EVT_SPARE_LOW else s2
  evtSet (count s3 (ZMP_CNT 3) 1 .zmp ZMP_EVT_SAT) .zmp ZMP_EVT_RELOC

/-- RELOCATION (R244, R245): the oldest reported unit of a mechanism goes to the next free spare unit, with a journal entry
under way. -/
def execRelocation (p : Fin 32) (s : State) : Res :=
  .next (match s.det.relocQ.find? fun r => r.port == p.val with
    | none => s
    | some r =>
      let s0 := setDet s fun d => { d with relocQ := d.relocQ.erase r }
      match spareNext s r.port r.q with
      | some dest => if fbit s ZMP_CTRL ZMP_CTRL_RELOC_EN then relocStart s0 r dest else relocFail s0 r
      | none => relocFail s0 r)

/-! ### Locating an LBA (R227, R249, R252) -/

/-- The member index of the topmost THATCH of a namespace's unit that leads to the mechanism on port `p`; 0 for a flat
unit. -/
def topMember (s : State) (u p : Nat) : Nat :=
  match mechUnit s p with
  | none => 0
  | some v =>
    let path := (ancestors s v).filter (inSubtree s u)
    match (path.filter fun x => uKind s x == 4).getLast? with
    | some th => (members s th).findIdx fun x => inSubtree s x v
    | none => 0

/-- Where an LBA lies: RESULT, and the three result words (Table 9-4). -/
def locateLba (s : State) (n lba : Nat) : Nat × Word × Word × Word :=
  match nsBind s n with
  | none => (1, 0, 0, 0)
  | some b =>
    if b.nstype ≠ 0 then (3, 0, 0, 0)
    else if nsLbas s n ≤ lba then (2, 0, 0, 0)
    else match lbaHome s n lba with
      | none => (2, 0, 0, 0)
      | some (p, k, h, l, slot, sector) =>
        let q := 12 * k + h
        let moved := s.zmp.relocs.find? fun r => r.port == p && r.head == q && r.slot == slot && r.unit == sector / 16
        let at_ := match moved with
          | some r => slotTrack s p q (spareSlot s p q (r.dest / 4096)) (r.dest % 4096 * 16 + sector % 16)
          | none => slotTrack s p q slot sector
        let within := fun (e : Ext) => e.nsid == n && decide (e.lba ≤ lba) && decide (lba < e.lba + e.count)
        let wh := if s.zmp.dirty.any fun e => isCommitted e && within e then 1
          else if s.zmp.staged.any fun x => within x.ext then 2
          else if moved.isSome then 3 else 0
        let w0 := setF (setF (setF (setF (setF 0 ZMP_LOC_RES0_PORT p) ZMP_LOC_RES0_K k) ZMP_LOC_RES0_HEAD h) ZMP_LOC_RES0_LANE l)
          ZMP_LOC_RES0_MEMBER (topMember s b.uid p)
        let w2 := setF (setF (setF 0 ZMP_LOC_RES2_WHERE wh) ZMP_LOC_RES2_SLOT slot) ZMP_LOC_RES2_POS at_.2
        (0, w0, BitVec.ofNat 32 at_.1, w2)

/-- ZONE_LOCATE_GO (R252): LBA bits 39:0 and NSID of the registers; GO reads 0 again when the result stands. -/
def execZoneLocateGo (m : Master) (nsid : BitVec 8) (s : State) : Res :=
  .next (regWrite s m ZMP_LOC_CMD fun s =>
    let lba := rdN s ZMP_LOC_LBA_LO + 2 ^ 32 * (rdN s ZMP_LOC_LBA_HI % 256)
    let r := locateLba s nsid.toNat lba
    let s1 := fset (fset s ZMP_LOC_CMD ZMP_LOC_CMD_NSID nsid.toNat) ZMP_LOC_CMD ZMP_LOC_CMD_RESULT r.1
    if r.1 = 0 then wr (wr (wr s1 ZMP_LOC_RES0 r.2.1) ZMP_LOC_RES1 r.2.2.1) ZMP_LOC_RES2 r.2.2.2 else s1)

/-- The eight words of a context (Table 9-4); zero for one not in use. -/
def ctxWords (s : State) (i : Nat) : List Nat :=
  match s.zmp.ctxs.find? fun x => x.1 == i with
  | none => [0, 0, 0, 0, 0, 0, 0, 0]
  | some x =>
    let n := x.2 / 2 ^ 32
    let z := x.2 % 2 ^ 32
    let r := getZone s n z
    [2 ^ 31 + r.zstate % 8 * 2 ^ 28 + n % 256 * 2 ^ 16, z, r.wp % 2 ^ 32, r.wp / 2 ^ 32, r.mwp % 2 ^ 32, r.mwp / 2 ^ 32,
     r.wseq % 2 ^ 32, r.wseq / 2 ^ 32]

/-- CTX_SELECT (R250): one snapshot of the selected context. -/
def execCtxSelect (m : Master) (index : BitVec 12) (s : State) : Res :=
  .next (regWrite s m ZMP_CTX_SEL fun s =>
    let s1 := fset s ZMP_CTX_SEL ZMP_CTX_SEL_INDEX index.toNat
    forAll ((rangeFrom 0 8).zip (ctxWords s index.toNat)) s1 fun s x => wrN s (ZMP_CTX x.1) x.2)

/-- ZMP_STAT_READ (R250): PEAK is returned and restarts at ACTIVE. -/
def execZmpStatRead (m : Master) (s : State) : Res := .next (regRead s m ZMP_STAT)

end Sys2Proof.Machine
end

