-- ==== Sys2Proof/Machine/Features.lean ====
section
/-! DEFINITION. Features and the vendor commands that set registers of one block (Tables 10-4, 10-5, 11-6, 14-7, 17-6, and the
basic-level rules of the chapters). A feature's function takes the issuer as a number, a port or a mailbox answer channel
(`complete`). Where a command fails for more than one reason, the claim is reported first (log entry 16). -/
namespace Sys2Proof.Machine
open Sys2Proof

/-! ### Standard features (R260) -/

/-- Set Features of a port: SV = 1 fails as not saveable (R260). -/
def setFeat (s : State) (x : HPort) (cid : BitVec 16) (sv : Bool) (f : State → Nat → Nat → State) : State :=
  adminCmd s x fun s => if sv then adminEnd s (portId x) cid.toNat 1 0x0D else f s (portId x) cid.toNat

/-- Get Features of a port. -/
def getFeat (s : State) (x : HPort) (cid : BitVec 16) (f : State → Nat → Nat → State) : State :=
  adminCmd s x fun s => f s (portId x) cid.toNat

/-- Get Features answers Dword 0 and Dword 1. -/
def featValue (s : State) (x cid dw0 dw1 : Nat) : State := complete s x 0 cid 0 0 dw0 dw1

/-- The standard features without a row of their own (Table 10-4). -/
def plainFeatures : List Nat := [0x01, 0x04, 0x07, 0x08, 0x09, 0x0B, 0x0F]

/-- The features that have a row of their own. -/
def ownFeatures : List Nat :=
  [0x02, 0xC0, 0xC1, 0xC2, 0xC8, 0xC9, 0xD0, 0xD1, 0xD2, 0xD3, 0xD4, 0xD5, 0xD8, 0xE0, 0xE8, 0xE9, 0xEA, 0xEE]

/-- The key of a feature's value: the selector of Temperature Threshold and of Interrupt Vector Configuration is part. -/
def featKey (fid : Nat) (dw11 : Word) : Nat :=
  fid * 2 ^ 16 + (if fid = 0x04 then getF dw11 ⟨16, 6⟩ else if fid = 0x09 then getF dw11 ⟨0, 16⟩ else 0)

/-- The value a Set Features leaves. -/
def featData (fid : Nat) (dw11 : Word) : Nat :=
  if fid = 0x04 then getF dw11 ⟨0, 16⟩ else if fid = 0x09 then getF dw11 ⟨16, 1⟩ else dw11.toNat

/-- A standard feature is set; 512 queues of each kind are granted, and a keep-alive time starts the timer (R260, R262). -/
def setPlain (fid : Nat) (dw11 : Word) (s : State) (x cid : Nat) : State :=
  if fid = 0x07 then
    if getF dw11 ⟨0, 16⟩ = 65535 ∨ getF dw11 ⟨16, 16⟩ = 65535 then invalidField s x cid else adminOk s x cid 0x01FF01FF
  else if fid = 0x09 ∧ 2048 ≤ getF dw11 ⟨0, 16⟩ then invalidField s x cid
  else
    let s1 := setCtl s x fun c => { c with feats := tabPut c.feats (featKey fid dw11) (featData fid dw11) }
    let s2 := if fid = 0x0F then setCtl s1 x fun c => { c with kaRun := dw11 != 0 } else s1
    adminOk s2 x cid 0

/-- Tether Port Control and Spindle Control with ACTION 0 (R100, R220). -/
def setNoAction (fid : Nat) (dw11 : Word) (s : State) (x cid : Nat) : State :=
  let p := getF dw11 ⟨0, 5⟩
  if claimed s (if fid = 0xD0 then baseTTH p else baseSPN p) then claimHeld s x cid else adminOk s x cid 0

/-- SET_FEATURES (R260): an identifier that does not exist is an invalid field; those with a row of their own are theirs. -/
def execSetFeatures (x : HPort) (cid : BitVec 16) (fid : BitVec 8) (dw11 : Word) (sv : Bool) (s : State) : Res :=
  .next (if (fid = 0xD0 ∨ fid = 0xD5) ∧ getF dw11 ⟨8, 2⟩ = 0 then setFeat s x cid sv (setNoAction fid.toNat dw11)
    else if ownFeatures.contains fid.toNat then s
    else if plainFeatures.contains fid.toNat then setFeat s x cid sv (setPlain fid.toNat dw11)
    else adminCmd s x fun s => invalidField s (portId x) cid.toNat)

/-- GET_FEATURES (R260). -/
def execGetFeatures (x : HPort) (cid : BitVec 16) (fid : BitVec 8) (dw11 : Word) (s : State) : Res :=
  .next (if ownFeatures.contains fid.toNat then s
    else getFeat s x cid fun s p c =>
      if !plainFeatures.contains fid.toNat then invalidField s p c
      else if fid = 0x07 then featValue s p c 0x01FF01FF 0
      else
        let v := tabGet 0 (ctl s p).feats (featKey fid.toNat dw11)
        featValue s p c (if fid = 0x09 then getF dw11 ⟨0, 16⟩ + 2 ^ 16 * v else v) 0)

/-- KEEP_ALIVE_TIMER_EXPIRY (R260): the controller stops as on a controller reset (log entry 15). -/
def execKeepAliveTimerExpiry (x : HPort) (s : State) : Res :=
  .next (if (ctl s (portId x)).kaRun then controllerReset s (portId x) else s)

/-! ### Structure, units and host interface (R280, R281, R248) -/

/-- Feature 0xC0 set (R280). -/
def setC0 (dw11 : Word) (s : State) (x cid : Nat) : State :=
  let u := getF dw11 ⟨0, 12⟩
  if claimed s baseTRS then claimHeld s x cid
  else if !uUsed s u then invalidField s x cid
  else adminOk (fset s (TRS_UNIT_FACE u) TRS_UNIT_FACE_POLICY (getF dw11 ⟨12, 4⟩)) x cid 0

/-- Feature 0xC0 get: POLICY in bits 15:12, EFF_POLICY in bits 11:8. -/
def getC0 (dw11 : Word) (s : State) (x cid : Nat) : State :=
  let u := getF dw11 ⟨0, 12⟩
  if !uUsed s u then invalidField s x cid
  else featValue s x cid (fget s (TRS_UNIT_FACE u) TRS_UNIT_FACE_POLICY * 2 ^ 12 + policyNow s u % 16 * 2 ^ 8) 0

/-- SET_UNIT_POWER_POLICY (R280). -/
def execSetUnitPowerPolicy (x : HPort) (cid : BitVec 16) (dw11 : Word) (sv : Bool) (s : State) : Res :=
  .next (setFeat s x cid sv (setC0 dw11))

/-- GET_UNIT_POWER_POLICY (R280). -/
def execGetUnitPowerPolicy (x : HPort) (cid : BitVec 16) (dw11 : Word) (s : State) : Res := .next (getFeat s x cid (getC0 dw11))

/-- Feature 0xC1 set (R281). -/
def setC1 (dw11 : Word) (s : State) (x cid : Nat) : State :=
  let a := getF dw11 ⟨0, 14⟩
  let b := getF dw11 ⟨16, 14⟩
  if claimed s baseHIF then claimHeld s x cid
  else if 8192 < a ∨ 8192 < b then invalidField s x cid
  else adminOk (fset (fset s HIF_SLOT_RES HIF_SLOT_RES_RES_A a) HIF_SLOT_RES HIF_SLOT_RES_RES_B b) x cid 0

/-- Feature 0xC1 get. -/
def getC1 (s : State) (x cid : Nat) : State := featValue s x cid (slotRes s 0 + 2 ^ 16 * slotRes s 1) 0

/-- SET_COMMAND_SLOT_RESERVATION (R281). -/
def execSetCommandSlotReservation (x : HPort) (cid : BitVec 16) (dw11 : Word) (sv : Bool) (s : State) : Res :=
  .next (setFeat s x cid sv (setC1 dw11))

/-- GET_COMMAND_SLOT_RESERVATION (R281). -/
def execGetCommandSlotReservation (x : HPort) (cid : BitVec 16) (s : State) : Res := .next (getFeat s x cid getC1)

/-- Feature 0xC2 set (R248). -/
def setC2 (dw11 : Word) (s : State) (x cid : Nat) : State :=
  let jrn := getF dw11 ⟨0, 16⟩
  let share := getF dw11 ⟨24, 8⟩
  if claimed s baseZMP ∨ (rangeFrom 0 4).any fun t => claimed s (baseTHT t) then claimHeld s x cid
  else if jrn < 10 ∨ 10000 < jrn ∨ share < 1 ∨ 100 < share then invalidField s x cid
  else
    let s1 := fsetb (fset s ZMP_CTRL ZMP_CTRL_JRN_MS jrn) ZMP_CTRL ZMP_CTRL_CROSS_EN (bitOf dw11 16)
    adminOk (forAll (rangeFrom 0 4) s1 fun s t => fset s (THT_CTRL t) THT_CTRL_RB_SHARE share) x cid 0

/-- Feature 0xC2 get. -/
def getC2 (s : State) (x cid : Nat) : State :=
  featValue s x cid (fget s ZMP_CTRL ZMP_CTRL_JRN_MS + 2 ^ 16 * fget s ZMP_CTRL ZMP_CTRL_CROSS_EN +
    2 ^ 24 * fget s (THT_CTRL 0) THT_CTRL_RB_SHARE) 0

/-- SET_ZONE_LAYOUT_CONTROL (R248). -/
def execSetZoneLayoutControl (x : HPort) (cid : BitVec 16) (dw11 : Word) (sv : Bool) (s : State) : Res :=
  .next (setFeat s x cid sv (setC2 dw11))

/-- GET_ZONE_LAYOUT_CONTROL (R248). -/
def execGetZoneLayoutControl (x : HPort) (cid : BitVec 16) (s : State) : Res := .next (getFeat s x cid getC2)

/-! ### Events and Tail recorders (Table 17-6) -/

/-- R423: event source n is, or is not, reported as an asynchronous event on port x (A or B). -/
def routeAen (s : State) (n x : Nat) (on : Bool) : State :=
  if 1 < x then s
  else
    let rest := s.evt.aen.filter (· != (n, x))
    { s with evt := { s.evt with aen := if on then (n, x) :: rest else rest } }

/-- R423: event source n raises, or does not raise, vector v of port x (A or B). -/
def routeMsi (s : State) (n x : Nat) (on : Bool) (v : Nat) : State :=
  if x = 0 then fset (fsetb s (EVT_RT_W0 n) EVT_RT_W0_MSIA on) (EVT_RT_W1 n) EVT_RT_W1_VEC_A v
  else if x = 1 then fset (fsetb s (EVT_RT_W0 n) EVT_RT_W0_MSIB on) (EVT_RT_W1 n) EVT_RT_W1_VEC_B v
  else s

/-- Feature 0xC8 set: AEN, MSI and the vector are the issuing controller's. -/
def setC8 (dw11 dw12 : Word) (s : State) (x cid : Nat) : State :=
  let n := getF dw11 ⟨0, 10⟩
  if claimed s baseEVT then claimHeld s x cid
  else if 640 ≤ n then invalidField s x cid
  else
    let s1 := routeAen (fset s (EVT_RT_W0 n) EVT_RT_W0_TAIL (getF dw11 ⟨16, 8⟩)) n x (bitOf dw11 24)
    adminOk (routeMsi s1 n x (bitOf dw11 25) (getF dw12 ⟨0, 11⟩)) x cid 0

/-- Feature 0xC8 get. -/
def getC8 (dw11 : Word) (s : State) (x cid : Nat) : State :=
  let n := getF dw11 ⟨0, 10⟩
  if 640 ≤ n then invalidField s x cid
  else
    let msi := if x = 0 then fbit s (EVT_RT_W0 n) EVT_RT_W0_MSIA else x == 1 && fbit s (EVT_RT_W0 n) EVT_RT_W0_MSIB
    let vec := if x = 0 then fget s (EVT_RT_W1 n) EVT_RT_W1_VEC_A else if x = 1 then fget s (EVT_RT_W1 n) EVT_RT_W1_VEC_B else 0
    featValue s x cid (n + 2 ^ 16 * fget s (EVT_RT_W0 n) EVT_RT_W0_TAIL + 2 ^ 24 * b2n (s.evt.aen.contains (n, x)) +
      2 ^ 25 * b2n msi) vec

/-- SET_EVENT_ROUTING (R423). -/
def execSetEventRouting (x : HPort) (cid : BitVec 16) (dw11 dw12 : Word) (sv : Bool) (s : State) : Res :=
  .next (setFeat s x cid sv (setC8 dw11 dw12))

/-- GET_EVENT_ROUTING (R423). -/
def execGetEventRouting (x : HPort) (cid : BitVec 16) (dw11 : Word) (s : State) : Res := .next (getFeat s x cid (getC8 dw11))

/-- Feature 0xC9 set. -/
def setC9 (dw11 dw12 : Word) (s : State) (x cid : Nat) : State :=
  let r := getF dw11 ⟨0, 3⟩
  let i := getF dw11 ⟨8, 4⟩
  if claimed s baseTAIL then claimHeld s x cid
  else if 12 ≤ i then invalidField s x cid
  else adminOk (wr s (TAIL_SEL r i) (dw12 &&& 0x83FFFFFC)) x cid 0

/-- Feature 0xC9 get: the selection in Dword 1, as CDW12 gives it. -/
def getC9 (dw11 : Word) (s : State) (x cid : Nat) : State :=
  let i := getF dw11 ⟨8, 4⟩
  if 12 ≤ i then invalidField s x cid
  else featValue s x cid (dw11 &&& 0xF07).toNat (rdN s (TAIL_SEL (getF dw11 ⟨0, 3⟩) i))

/-- SET_TAIL_SNAPSHOT_SELECT (R423). -/
def execSetTailSnapshotSelect (x : HPort) (cid : BitVec 16) (dw11 dw12 : Word) (sv : Bool) (s : State) : Res :=
  .next (setFeat s x cid sv (setC9 dw11 dw12))

/-- GET_TAIL_SNAPSHOT_SELECT (R423). -/
def execGetTailSnapshotSelect (x : HPort) (cid : BitVec 16) (dw11 : Word) (s : State) : Res :=
  .next (getFeat s x cid (getC9 dw11))

/-- A recorder is emptied (R421); its selections and FREEZE stay. -/
def tailClear (s : State) (r : Nat) : State := wrN (tailSet s r []) (TAIL_DROPPED r) 0

/-- TAIL_CONTROL_FREEZE (R423): no claim refuses it. -/
def execTailControlFreeze (x : HPort) (cid : BitVec 16) (r : Fin 8) (s : State) : Res :=
  .next (adminCmd s x fun s => adminOk (fsetb s (TAIL_CTRL r) TAIL_CTRL_FREEZE true) (portId x) cid.toNat 0)

/-- TAIL_CONTROL_THAW (R423). -/
def execTailControlThaw (x : HPort) (cid : BitVec 16) (r : Fin 8) (s : State) : Res :=
  .next (adminCmd s x fun s => adminOk (fsetb s (TAIL_CTRL r) TAIL_CTRL_FREEZE false) (portId x) cid.toNat 0)

/-- TAIL_CONTROL_CLEAR (R423). -/
def execTailControlClear (x : HPort) (cid : BitVec 16) (r : Fin 8) (s : State) : Res :=
  .next (adminCmd s x fun s => adminOk (tailClear s r) (portId x) cid.toNat 0)

/-! ### Mechanisms (R100, R126, R151, R175, R197, R220) -/

/-- The MECH unit of a port is ABSENT or ASLEEP, or the port has none (R100). -/
def mechQuiet (s : State) (p : Nat) : Bool := (mechUnit s p).all fun u => uState s u == 0 || uState s u == 1

/-- Feature 0xD0 set (R100). -/
def setD0 (p action : Nat) (s : State) (x cid : Nat) : State :=
  if claimed s (baseTTH p) then claimHeld s x cid
  else if (action = 1 ∨ action = 3) ∧ !mechQuiet s p then sequenceError s x cid
  else
    adminOk (if action = 1 then portDisable s p else if action = 2 then portEnable s p
      else if action = 3 then portRetrain s p else s) x cid 0

/-- Feature 0xD0 get. -/
def getD0 (p : Nat) (s : State) (x cid : Nat) : State :=
  featValue s x cid (portState s p + 16 * fget s (TTH_TOKEN p) TTH_TOKEN_OWNER) 0

/-- SET_TETHER_PORT_DISABLE (R100). -/
def execSetTetherPortDisable (x : HPort) (cid : BitVec 16) (p : Fin 32) (sv : Bool) (s : State) : Res :=
  .next (setFeat s x cid sv (setD0 p 1))

/-- SET_TETHER_PORT_ENABLE (R100). -/
def execSetTetherPortEnable (x : HPort) (cid : BitVec 16) (p : Fin 32) (sv : Bool) (s : State) : Res :=
  .next (setFeat s x cid sv (setD0 p 2))

/-- SET_TETHER_PORT_RETRAIN (R100). -/
def execSetTetherPortRetrain (x : HPort) (cid : BitVec 16) (p : Fin 32) (sv : Bool) (s : State) : Res :=
  .next (setFeat s x cid sv (setD0 p 3))

/-- GET_TETHER_PORT_CONTROL (R100). -/
def execGetTetherPortControl (x : HPort) (cid : BitVec 16) (p : Fin 32) (s : State) : Res := .next (getFeat s x cid (getD0 p))

/-- An ACT instance is claimed. -/
def actClaimed (s : State) : Bool := (rangeFrom 0 64).any fun a => claimed s (baseACT a)

/-- Feature 0xD1 set (R126): all clusters, and PIN_TO_US of all slices. -/
def setD1 (dw11 dw12 : Word) (s : State) (x cid : Nat) : State :=
  let it := getF dw12 ⟨0, 6⟩
  let pin := getF dw12 ⟨8, 16⟩
  if actClaimed s ∨ (rangeFrom 0 16).any fun c => claimed s (baseLDC c) then claimHeld s x cid
  else if it = 0 ∨ pin < 100 ∨ 10000 < pin then invalidField s x cid
  else
    let s1 := forAll (rangeFrom 0 16) s fun s c => fset (wr s (LDC_WEIGHT c) dw11) (LDC_CTRL c) LDC_CTRL_MAXIT it
    adminOk (forAll (rangeFrom 0 64) s1 fun s a => fset s (ACT_DET_CFG a) ACT_DET_CFG_PIN_TO_US pin) x cid 0

/-- Feature 0xD1 get: the values of cluster 0 and slice 0. -/
def getD1 (s : State) (x cid : Nat) : State :=
  featValue s x cid (rdN s (LDC_WEIGHT 0)) (fget s (LDC_CTRL 0) LDC_CTRL_MAXIT + 2 ^ 8 * fget s (ACT_DET_CFG 0) ACT_DET_CFG_PIN_TO_US)

/-- SET_DECODE_SCHEDULING (R126). -/
def execSetDecodeScheduling (x : HPort) (cid : BitVec 16) (dw11 dw12 : Word) (sv : Bool) (s : State) : Res :=
  .next (setFeat s x cid sv (setD1 dw11 dw12))

/-- GET_DECODE_SCHEDULING (R126). -/
def execGetDecodeScheduling (x : HPort) (cid : BitVec 16) (s : State) : Res := .next (getFeat s x cid getD1)

/-- The ladder of a PRESET (R151): Table 5-6, or its rungs 0 to 2, track parity, thatch and end. -/
def presetLadder (preset : Nat) : List Nat :=
  if preset = 0 then (rangeFrom 0 16).map fun r => (resetWord (ACT_LAD 0 r)).toNat
  else ([0, 1, 2, 10, 11].map fun r => (resetWord (ACT_LAD 0 r)).toNat) ++ (rangeFrom 5 11).map fun _ => 0xF0000000

/-- Feature 0xD2 set (R151). -/
def setD2 (dw11 : Word) (s : State) (x cid : Nat) : State :=
  let n := getF dw11 ⟨0, 4⟩
  let preset := getF dw11 ⟨16, 2⟩
  if actClaimed s then claimHeld s x cid
  else if 7 < n ∨ 1 < preset then invalidField s x cid
  else
    adminOk (forAll (rangeFrom 0 64) s fun s a =>
      let r := ACT_FMT_CTRL a
      let s1 := fset s r ACT_FMT_CTRL_REREAD_MAX n
      let s2 := fsetb (fsetb s1 r ACT_FMT_CTRL_TP_RECON (bitOf dw11 8)) r ACT_FMT_CTRL_THATCH_RECON (bitOf dw11 9)
      forAll ((rangeFrom 0 16).zip (presetLadder preset)) s2 fun s y => wrN s (ACT_LAD a y.1) y.2) x cid 0

/-- Feature 0xD2 get: the values of slice 0. -/
def getD2 (s : State) (x cid : Nat) : State :=
  let r := ACT_FMT_CTRL 0
  let short := ((rangeFrom 0 16).map fun i => rdN s (ACT_LAD 0 i)) == presetLadder 1
  featValue s x cid (min 7 (fget s r ACT_FMT_CTRL_REREAD_MAX) + 2 ^ 8 * fget s r ACT_FMT_CTRL_TP_RECON +
    2 ^ 9 * fget s r ACT_FMT_CTRL_THATCH_RECON + 2 ^ 16 * b2n short) 0

/-- SET_READ_RECOVERY_CONTROL (R151). -/
def execSetReadRecoveryControl (x : HPort) (cid : BitVec 16) (dw11 : Word) (sv : Bool) (s : State) : Res :=
  .next (setFeat s x cid sv (setD2 dw11))

/-- GET_READ_RECOVERY_CONTROL (R151). -/
def execGetReadRecoveryControl (x : HPort) (cid : BitVec 16) (s : State) : Res := .next (getFeat s x cid getD2)

/-- Feature 0xD3 set (R175). -/
def setD3 (dw11 dw12 : Word) (s : State) (x cid : Nat) : State :=
  let lim := getF dw11 ⟨0, 8⟩
  let rel := getF dw11 ⟨8, 8⟩
  let rw := getF dw11 ⟨16, 4⟩
  let reln := getF dw11 ⟨20, 4⟩
  let shock := getF dw12 ⟨0, 16⟩
  let hold := getF dw12 ⟨16, 16⟩
  if actClaimed s then claimHeld s x cid
  else if lim < 8 ∨ rel < 4 ∨ lim < rel ∨ 7 < rw ∨ reln < 1 ∨ shock < 5 ∨ hold < 50 ∨ 5000 < hold then invalidField s x cid
  else
    adminOk (forAll (rangeFrom 0 64) { s with host := { s.host with safety := some (dw11, dw12) } } fun s a =>
      let s1 := fset (fset s (ACT_SRV_LIM a) ACT_SRV_LIM_WU_LIM lim) (ACT_SRV_LIM a) ACT_SRV_LIM_WU_REL rel
      let s2 := fset (fset s1 (ACT_SRV_CTRL a) ACT_SRV_CTRL_REWRITE_MAX rw) (ACT_SRV_CTRL a) ACT_SRV_CTRL_REL_N reln
      fset (fset s2 (ACT_SRV_SHOCK a) ACT_SRV_SHOCK_SHOCK_LIM shock) (ACT_SRV_SHOCK a) ACT_SRV_SHOCK_SHOCK_HOLD_US hold) x cid 0

/-- Feature 0xD3 get: the values requested (R175); before any request those the slices reset to (Table 6-4). -/
def getD3 (s : State) (x cid : Nat) : State :=
  let d := s.host.safety.getD (0x231820, 0xC80019)
  featValue s x cid (d.1.toNat % 2 ^ 24) d.2.toNat

/-- SET_WRITE_SAFETY_CONTROL (R175). -/
def execSetWriteSafetyControl (x : HPort) (cid : BitVec 16) (dw11 dw12 : Word) (sv : Bool) (s : State) : Res :=
  .next (setFeat s x cid sv (setD3 dw11 dw12))

/-- GET_WRITE_SAFETY_CONTROL (R175). -/
def execGetWriteSafetyControl (x : HPort) (cid : BitVec 16) (s : State) : Res := .next (getFeat s x cid getD3)

/-- The group switch of an override begins, once no switch runs in the engine (R197, R190). -/
def overrideSwitch (s : State) (p : Nat) : State :=
  let t := setSpn s p fun z => { z with ovrWait := false }
  groupSwitch t p (coefSet t p (fget t (SPN_STAT p) SPN_STAT_SPEED_STEP)) (mechSlots p)

/-- Feature 0xD4 set (R197): the completion follows SW_DONE. A second override of the mechanism while one waits is out of
sequence. -/
def setD4 (dw11 : Word) (s : State) (x cid : Nat) : State :=
  let p := getF dw11 ⟨0, 5⟩
  if claimed s (baseBRD (p / 2)) then claimHeld s x cid
  else if (spnOf s p).ovrCmd.isSome then sequenceError s x cid
  else
    let set := if bitOf dw11 23 then some (getF dw11 ⟨8, 8⟩) else none
    let s1 := setSpn s p fun z => { z with setOvr := set, ovrCmd := some (x, cid), ovrWait := true }
    if switching s1 p then s1 else overrideSwitch s1 p

/-- Feature 0xD4 get. -/
def getD4 (p : Nat) (s : State) (x cid : Nat) : State :=
  featValue s x cid (p + 2 ^ 8 * (coefSet s p (fget s (SPN_STAT p) SPN_STAT_SPEED_STEP) % 256) +
    2 ^ 23 * b2n (spnOf s p).setOvr.isSome) 0

/-- SET_CONTROL_SET_OVERRIDE (R197). -/
def execSetControlSetOverride (x : HPort) (cid : BitVec 16) (dw11 : Word) (sv : Bool) (s : State) : Res :=
  .next (setFeat s x cid sv (setD4 dw11))

/-- GET_CONTROL_SET_OVERRIDE (R197). -/
def execGetControlSetOverride (x : HPort) (cid : BitVec 16) (p : Fin 32) (s : State) : Res := .next (getFeat s x cid (getD4 p))

/-- A command to the MECH unit of a port is in flight (R220). -/
def mechInFlight (s : State) (p : Nat) : Bool :=
  s.host.cmds.any fun c => (nsUnit s c.nsid).any fun u => (portsOf s u).contains p

/-- Feature 0xD5 set (R220). -/
def setD5 (p action index : Nat) (s : State) (x cid : Nat) : State :=
  if claimed s (baseSPN p) then claimHeld s x cid
  else if action = 1 then
    if stepSpeed s p index = 0 then invalidField s x cid
    else
      let s1 := fset (fset s (SPN_CTRL p) SPN_CTRL_REQ 1) (SPN_CTRL p) SPN_CTRL_STEP index
      adminOk (askRun (setSpn s1 p fun z => { z with override := true }) p) x cid 0
  else if action = 2 then
    if mechInFlight s p then sequenceError s x cid
    else
      let s1 := setSpn (fset s (SPN_CTRL p) SPN_CTRL_REQ 0) p fun z => { z with override := true }
      adminOk (askStop s1 p false) x cid 0
  else if action = 3 then adminOk (setSpn s p fun z => { z with override := false }) x cid 0
  else adminOk s x cid 0

/-- Feature 0xD5 get. -/
def getD5 (p : Nat) (s : State) (x cid : Nat) : State :=
  featValue s x cid (spnState s p + 16 * fget s (SPN_STAT p) SPN_STAT_SPEED_STEP + 2 ^ 8 * b2n (spnOf s p).override) 0

/-- SET_SPINDLE_RUN (R220). -/
def execSetSpindleRun (x : HPort) (cid : BitVec 16) (p : Fin 32) (index : BitVec 2) (sv : Bool) (s : State) : Res :=
  .next (setFeat s x cid sv (setD5 p 1 index.toNat))

/-- SET_SPINDLE_STOP (R220). -/
def execSetSpindleStop (x : HPort) (cid : BitVec 16) (p : Fin 32) (sv : Bool) (s : State) : Res :=
  .next (setFeat s x cid sv (setD5 p 2 0))

/-- SET_SPINDLE_RETURN_TO_POLICY (R220). -/
def execSetSpindleReturnToPolicy (x : HPort) (cid : BitVec 16) (p : Fin 32) (sv : Bool) (s : State) : Res :=
  .next (setFeat s x cid sv (setD5 p 3 0))

/-- GET_SPINDLE_CONTROL (R220). -/
def execGetSpindleControl (x : HPort) (cid : BitVec 16) (p : Fin 32) (s : State) : Res := .next (getFeat s x cid (getD5 p))

/-- SPINDLE_SERVICE_CLEAR (R220): the chopper's retirement clears, in flash too (R219). -/
def execSpindleServiceClear (x : HPort) (cid : BitVec 16) (p : Fin 32) (s : State) : Res :=
  .next (adminCmd s x fun s =>
    if claimed s (baseSPN p) then claimHeld s (portId x) cid.toNat
    else
      let s1 := fset (fsetb s (SPN_CHOP p) SPN_CHOP_RETIRED false) (SPN_CHOP p) SPN_CHOP_WHY 0
      let ser := identSerial s p
      adminOk { s1 with fls := { s1.fls with choppers := s1.fls.choppers.filter (· != ser) } } (portId x) cid.toNat 0)

/-- SPINDLE_SERVICE_TEST (R220): the unit ASLEEP and the spindle STOPPED; SINE closed-loop at the requested step (Table
8-3). The command completes as TEST ends. -/
def execSpindleServiceTest (x : HPort) (cid : BitVec 16) (p : Fin 32) (index : BitVec 2) (s : State) : Res :=
  .next (adminCmd s x fun s =>
    if claimed s (baseSPN p) then claimHeld s (portId x) cid.toNat
    else if !((mechUnit s p).any fun u => uState s u == 1) || spnState s p != 0 then sequenceError s (portId x) cid.toNat
    else if stepSpeed s p index.toNat = 0 then invalidField s (portId x) cid.toNat
    else
      let s1 := setSpn (setSpnState (enginePower s (p / 2)) p 11) p fun z =>
        { z with testCmd := some (portId x, cid.toNat) }
      fset (spnSlotRef (spnSlotMode s1 p 2 0) p (stepSpeed s p index.toNat)) (SPN_STAT p) SPN_STAT_DRIVE 2)

/-- SPINDLE_TEST_END (R220): the duration has elapsed; the spindle brakes, and the command completes. -/
def execSpindleTestEnd (p : Fin 32) (s : State) : Res :=
  .next (if spnState s p = 11 then
      let s1 := goBrake (setSpn s p fun z => { z with testCmd := none, wantStop := true }) p
      match (spnOf s p).testCmd with
      | some c => adminOk s1 c.1 c.2 0
      | none => s1
    else s)

/-- SPINDLE_SERVICE_CALIBRATE (R220): a calibration of head q becomes pending (R355), and the command completes with it; a
head whose assist is retired fails at once. -/
def execSpindleServiceCalibrate (x : HPort) (cid : BitVec 16) (p : Fin 32) (q : BitVec 5) (s : State) : Res :=
  .next (adminCmd s x fun s =>
    if claimed s (baseSPN p) then claimHeld s (portId x) cid.toNat
    else if 23 < q.toNat then invalidField s (portId x) cid.toNat
    else if fbit s (AST_WEAR_W2 p q.toNat) AST_WEAR_W2_RETIRED then adminOk s (portId x) cid.toNat 0
    else calPend s (2 * p + q.toNat / 12) (some (some (q.toNat % 12), some (portId x, cid.toNat))))

/-- ZONE_LOCATE (R249): 16 bytes; what R252 refuses is an invalid field. -/
def execZoneLocate (x : HPort) (cid : BitVec 16) (nsid : BitVec 32) (lba : BitVec 64) (s : State) : Res :=
  .next (adminCmd s x fun s =>
    let r := locateLba s nsid.toNat lba.toNat
    if r.1 ≠ 0 then invalidField s (portId x) cid.toNat
    else adminData s (portId x) cid.toNat
      (leBytes 4 r.2.1.toNat ++ leBytes 4 r.2.2.1.toNat ++ leBytes 4 r.2.2.2.toNat ++ [0, 0, 0, 0]))

/-! ### Partner, cache, ballast, background and thermal features (R405, R305, R320, R362) -/

/-- Feature 0xD8 set (R405). -/
def setD8 (dw11 : Word) (s : State) (x cid : Nat) : State :=
  if claimed s basePRT then claimHeld s x cid
  else
    let s1 := fsetb s PRT_CTRL PRT_CTRL_TAKEOVER_EN (bitOf dw11 0)
    adminOk (fsetb s1 PRT_CTRL PRT_CTRL_RELAY_FWD (bitOf dw11 1)) x cid 0

/-- Feature 0xD8 get. -/
def getD8 (s : State) (x cid : Nat) : State :=
  featValue s x cid (fget s PRT_CTRL PRT_CTRL_TAKEOVER_EN + 2 * fget s PRT_CTRL PRT_CTRL_RELAY_FWD +
    16 * fget s PRT_STAT PRT_STAT_ROLE + 2 ^ 8 * fget s PRT_STAT PRT_STAT_PARTNER) 0

/-- SET_PARTNER_CONTROL (R405). -/
def execSetPartnerControl (x : HPort) (cid : BitVec 16) (dw11 : Word) (sv : Bool) (s : State) : Res :=
  .next (setFeat s x cid sv (setD8 dw11))

/-- GET_PARTNER_CONTROL (R405). -/
def execGetPartnerControl (x : HPort) (cid : BitVec 16) (s : State) : Res := .next (getFeat s x cid getD8)

/-- Feature 0xE0 set (R305): EN = 1 after OFF invalidates first; disabling completes when STATE = OFF. -/
def setE0 (dw11 dw12 : Word) (s : State) (x cid : Nat) : State :=
  let depth := getF dw11 ⟨8, 8⟩
  if claimed s baseCCH then claimHeld s x cid
  else if depth < 1 ∨ 64 < depth then invalidField s x cid
  else if s.cch.cmd.isSome then sequenceError s x cid
  else
    let s1 := fset (fsetb s CCH_CTRL CCH_CTRL_PF_EN (bitOf dw11 1)) CCH_PF_CTRL CCH_PF_CTRL_DEPTH depth
    let s2 := fset (fset s1 (CCH_WAYMASK 0) CCH_WAYMASK_WAYS (getF dw12 ⟨0, 16⟩)) (CCH_WAYMASK 1) CCH_WAYMASK_WAYS
      (getF dw12 ⟨16, 16⟩)
    if bitOf dw11 0 then
      adminOk (cacheEnable (if cchState s2 = 0 then cacheInvalidate s2 else s2)) x cid 0
    else
      let s3 := cacheDisable s2
      if cchState s3 = 0 then adminOk s3 x cid 0 else setCch s3 fun k => { k with cmd := some (x, cid) }

/-- Feature 0xE0 get. -/
def getE0 (s : State) (x cid : Nat) : State :=
  featValue s x cid (fget s CCH_CTRL CCH_CTRL_EN + 2 * fget s CCH_CTRL CCH_CTRL_PF_EN +
    2 ^ 8 * fget s CCH_PF_CTRL CCH_PF_CTRL_DEPTH)
    (fget s (CCH_WAYMASK 0) CCH_WAYMASK_WAYS + 2 ^ 16 * fget s (CCH_WAYMASK 1) CCH_WAYMASK_WAYS)

/-- SET_CACHE_CONTROL (R305). -/
def execSetCacheControl (x : HPort) (cid : BitVec 16) (dw11 dw12 : Word) (sv : Bool) (s : State) : Res :=
  .next (setFeat s x cid sv (setE0 dw11 dw12))

/-- GET_CACHE_CONTROL (R305). -/
def execGetCacheControl (x : HPort) (cid : BitVec 16) (s : State) : Res := .next (getFeat s x cid getE0)

/-- Feature 0xE8 set (R320). -/
def setE8 (dw11 dw12 : Word) (s : State) (x cid : Nat) : State :=
  let w := getF dw11 ⟨0, 4⟩
  let e := getF dw11 ⟨16, 16⟩
  let mf := getF dw12 ⟨0, 16⟩
  let v := getF dw12 ⟨16, 16⟩
  if claimed s baseBAL then claimHeld s x cid
  else if w < 1 ∨ 8 < w ∨ e < 100 ∨ 10000 < e ∨ mf < 1 ∨ v < 500 ∨ 6000 < v then invalidField s x cid
  else
    let s1 := fset (fset s BAL_CTRL BAL_CTRL_SAFE_WRITERS w) BAL_MARGIN BAL_MARGIN_E_RES e
    adminOk (fset (fset s1 BAL_CAP BAL_CAP_CAP_MF mf) BAL_VCAP BAL_VCAP_VFLOOR v) x cid 0

/-- Feature 0xE8 get. -/
def getE8 (s : State) (x cid : Nat) : State :=
  featValue s x cid (fget s BAL_CTRL BAL_CTRL_SAFE_WRITERS + 2 ^ 16 * fget s BAL_MARGIN BAL_MARGIN_E_RES)
    (fget s BAL_CAP BAL_CAP_CAP_MF + 2 ^ 16 * fget s BAL_VCAP BAL_VCAP_VFLOOR)

/-- SET_BALLAST_CONTROL (R320). -/
def execSetBallastControl (x : HPort) (cid : BitVec 16) (dw11 dw12 : Word) (sv : Bool) (s : State) : Res :=
  .next (setFeat s x cid sv (setE8 dw11 dw12))

/-- GET_BALLAST_CONTROL (R320). -/
def execGetBallastControl (x : HPort) (cid : BitVec 16) (s : State) : Res := .next (getFeat s x cid getE8)

/-- Feature 0xE9 set (R362). -/
def setE9 (dw11 dw12 : Word) (s : State) (x cid : Nat) : State :=
  let n := getF dw11 ⟨0, 7⟩
  let fp := getF dw11 ⟨8, 8⟩
  let days := getF dw12 ⟨0, 16⟩
  if claimed s baseBGW then claimHeld s x cid
  else if n < 2 ∨ 64 < n ∨ fp < 1 ∨ days < 1 ∨ 3650 < days then invalidField s x cid
  else
    let s1 := fset (fset s BGW_CTRL BGW_CTRL_N_URG n) BGW_CTRL BGW_CTRL_FP_US fp
    let s2 := forAll (rangeFrom 0 taskCount) s1 fun s t =>
      fsetb s (BGW_TASK_CTRL t) BGW_TASK_CTRL_EN (bitOf dw11 (16 + taskKind s t))
    adminOk (forAll (rangeFrom 0 64) s2 fun s t => wrN s (BGW_TASK_PERIOD t) (days * 86400)) x cid 0

/-- The first task of a KIND (Table 14-1). -/
def kindFirst (k : Nat) : Nat := [0, 64, 128, 160, 192, 224, 225, 226].getD k 0

/-- Feature 0xE9 get: the values of the first task of each KIND. -/
def getE9 (s : State) (x cid : Nat) : State :=
  let en := sumN ((rangeFrom 0 8).map fun k => 2 ^ k * fget s (BGW_TASK_CTRL (kindFirst k)) BGW_TASK_CTRL_EN)
  featValue s x cid (fget s BGW_CTRL BGW_CTRL_N_URG % 128 + 2 ^ 8 * fget s BGW_CTRL BGW_CTRL_FP_US + 2 ^ 16 * en)
    (taskPeriod s 0 / 86400 % 65536)

/-- SET_BACKGROUND_CONTROL (R362). -/
def execSetBackgroundControl (x : HPort) (cid : BitVec 16) (dw11 dw12 : Word) (sv : Bool) (s : State) : Res :=
  .next (setFeat s x cid sv (setE9 dw11 dw12))

/-- GET_BACKGROUND_CONTROL (R362). -/
def execGetBackgroundControl (x : HPort) (cid : BitVec 16) (s : State) : Res := .next (getFeat s x cid getE9)

/-- Feature 0xEA set (R362). -/
def setEA (dw11 dw12 : Word) (s : State) (x cid : Nat) : State :=
  let dt := getF dw11 ⟨0, 8⟩
  if claimed s baseTHM then claimHeld s x cid
  else if dt < 10 ∨ 200 < dt then invalidField s x cid
  else
    let s1 := fsetb (fset s THM_CTRL THM_CTRL_CAL_DT dt) THM_CTRL THM_CTRL_AUTO_CAL (bitOf dw11 8)
    adminOk (fset s1 THM_THR_MAP THM_THR_MAP_MAP (getF dw12 ⟨0, 24⟩)) x cid 0

/-- Feature 0xEA get. -/
def getEA (s : State) (x cid : Nat) : State :=
  featValue s x cid (fget s THM_CTRL THM_CTRL_CAL_DT + 2 ^ 8 * fget s THM_CTRL THM_CTRL_AUTO_CAL)
    (fget s THM_THR_MAP THM_THR_MAP_MAP)

/-- SET_THERMAL_CONTROL (R362). -/
def execSetThermalControl (x : HPort) (cid : BitVec 16) (dw11 dw12 : Word) (sv : Bool) (s : State) : Res :=
  .next (setFeat s x cid sv (setEA dw11 dw12))

/-- GET_THERMAL_CONTROL (R362). -/
def execGetThermalControl (x : HPort) (cid : BitVec 16) (s : State) : Res := .next (getFeat s x cid getEA)

/-! ### HIF registers (R284, R283) -/

/-- FETCH_EN_WRITE (R284). -/
def execFetchEnWrite (m : Master) (value : BitVec 2) (s : State) : Res :=
  .next (regWrite s m HIF_CTRL fun s => fset s HIF_CTRL HIF_CTRL_FETCH_EN value.toNat)

/-- HIF_SLOTS_READ (R283): PEAK is returned and restarts at IN_FLIGHT. -/
def execHifSlotsRead (m : Master) (s : State) : Res := .next (regRead s m HIF_SLOTS)

end Sys2Proof.Machine
end

