-- ==== Sys2Proof/Machine/EventCmds.lean ====
section
/-! DEFINITION. The event router's and the Tail recorders' own commands (R416, R417, R421), and the completion queues' head
doorbells (R265). -/
namespace Sys2Proof.Machine
open Sys2Proof

/-- EVENT_SOURCE_RISE (R416, R417): a pulse of source 3, 5, 6 or 7, or the rise of a level source that is asserted; a source
number that no chapter defines is never asserted. -/
def execEventSourceRise (src : Fin 640) (s : State) : Res :=
  .next (if [3, 5, 6, 7].contains src.val || srcLevel s src then sourceRise s src else s)

/-- EVT_PEND_CLEAR (R416). -/
def execEvtPendClear (m : Master) (n : Fin 20) (mask : Word) (s : State) : Res :=
  .next (regWrite s m (EVT_PEND n) fun s => pendClear s n mask)

/-- SMBUS_ALERT_RESPONSE (R417): while SMBALERT_N is asserted the device answers with its own address. -/
def execSmbusAlertResponse (s : State) : Res :=
  .next (if smbAlert s then emit (drawn s) (.smbus [freeVal s % 256]) else s)

/-- A write of TAIL[r]_CTRL: CLR, then FREEZE (R421). -/
def tailCtrlWrite (s : State) (r : Nat) (freeze clr : Bool) : State :=
  fsetb (if clr then tailClear s r else s) (TAIL_CTRL r) TAIL_CTRL_FREEZE freeze

/-- TAIL_FREEZE_WRITE (R421): by any master, whatever the claim. -/
def execTailFreezeWrite (m : Master) (r : Fin 8) (v : Bool) (s : State) : Res :=
  .next (regWrite s m (TAIL_CTRL r) fun s => tailCtrlWrite s r v false)

/-- TAIL_CLEAR (R421): CLR with FREEZE as the same word gives it. -/
def execTailClear (m : Master) (r : Fin 8) (freeze : Bool) (s : State) : Res :=
  .next (regWrite s m (TAIL_CTRL r) fun s => tailCtrlWrite s r freeze true)

/-- CQ_HEAD_DOORBELL_WRITE (R265): the entries up to the new head are free. -/
def execCqHeadDoorbellWrite (x : HPort) (qid head : BitVec 16) (s : State) : Res :=
  .next (adminCmd s x fun s =>
    match (ctl s (portId x)).cqs.find? fun q => q.1 == qid.toNat with
    | none => s
    | some q =>
      setCtl s (portId x) fun c => { c with cqs := tabPut c.cqs q.1 { q.2 with head := head.toNat % max 1 q.2.size } })

end Sys2Proof.Machine
end

