-- ==== Sys2Proof/Machine/PartnerOps.lean ====
section
/-! DEFINITION. The pair's shared operations (chapter 16): roles with their asymmetric states and modes, what a hand-over that
fails leaves, and the loss of the mirror. -/
namespace Sys2Proof.Machine
open Sys2Proof

/-- Change the partner's side. -/
def setPrt (s : State) (f : PrtState → PrtState) : State := { s with prt := f s.prt }

/-- The role of the device (Table 16-1). -/
def roleOf (s : State) : Nat := fget s PRT_STAT PRT_STAT_ROLE

/-- The role last heard from the partner. -/
def partnerRole (s : State) : Nat := fget s PRT_STAT PRT_STAT_PARTNER_ROLE

/-- PARTNER (Table 16-2). -/
def partnerIs (s : State) : Nat := fget s PRT_STAT PRT_STAT_PARTNER

/-- MIRROR_VALID. -/
def mirrorValid (s : State) : Bool := fbit s PRT_STAT PRT_STAT_MIRROR_VALID

/-- Set MIRROR_VALID. -/
def setMirrorValid (s : State) (b : Bool) : State := fsetb s PRT_STAT PRT_STAT_MIRROR_VALID b

/-- The asymmetric state of a role (R274). -/
def anaOf (role : Nat) : Nat := if role = 1 then 0x1 else if role = 3 ∨ role = 4 then 0xF else 0x3

/-- Both controllers take an asymmetric state; at a change each raises an ANA Change Notice (R274). -/
def setAna (s : State) (v : Nat) : State :=
  if (rangeFrom 0 2).all fun x => fget s (HIF_PORT_STAT x) HIF_PORT_STAT_ANA == v then s
  else
    let s1 := forAll [0, 1] s fun s x => fset s (HIF_PORT_STAT x) HIF_PORT_STAT_ANA v
    forAll [0, 1] { s1 with host := { s1.host with anaCount := s1.host.anaCount + 1 } } fun s x => notice s x 2 0x03 0x0C

/-- The mode of a role (Table 16-1): an ACTIVE device is in LOBBY and then follows the choice rule. -/
def roleMode (s : State) (r cause : Nat) : State :=
  if r = 1 then applyRule (setMode s 2 cause)
  else if r = 2 then setMode s 8 cause
  else if r = 3 ∨ r = 4 then setMode s 9 cause
  else s

/-- The device takes a role: register and event, the asymmetric states, the mode with its CAUSE. -/
def takeRole (s : State) (r cause : Nat) : State :=
  let s1 := if roleOf s = r then s else evtSet (fset (loseAccs s) PRT_STAT PRT_STAT_ROLE r) .prt PRT_EVT_ROLE
  roleMode (setAna s1 (anaOf r)) r cause

/-- A change of role after boot. -/
def setRole (s : State) (r : Nat) : State := takeRole s r 6

/-- The device serves alone or not (R384): the root's GRADE for it. -/
def syncAlone (s : State) : State :=
  if isActiveRole s && (partnerIs s == 0 || partnerIs s == 3) then rootGrade s 1 0xD2 else ungradeUnit s 0 0xD2

/-- The mirror cannot flow (R385): on an ACTIVE the root's GRADE and MIRROR_LOST, MIRROR_VALID falls. -/
def mirrorLost (s : State) : State :=
  let s1 := if isActiveRole s then rootGrade (evtSet s .prt PRT_EVT_MIRROR_LOST) 1 0xD1 else s
  fset (setMirrorValid s1 false) PRT_MIRROR PRT_MIRROR_RESYNC 0

/-- RESULT of a hand-over (Table 16-8). -/
def hoResult (s : State) (r : Nat) : State := fset s PRT_HO PRT_HO_RESULT r

/-- PHASE of a hand-over. -/
def hoPhase (s : State) (n : Nat) : State := fset s PRT_HO PRT_HO_PHASE n

/-- The Role Handover command that waits completes: with success, or with Internal Error and RESULT (R405). -/
def hoComplete (s : State) (result : Nat) : State :=
  match s.prt.hoCmd with
  | none => s
  | some c =>
    let s1 := setPrt s fun x => { x with hoCmd := none }
    if result = 0 then adminOk s1 c.1 c.2 0 else complete s1 c.1 0 c.2 0 0x06 result 0

/-- A pair update ends in failure (R402): UPDATE_FAIL, and Firmware Commit with Invalid Firmware Image where it still
waits. -/
def updateFail (s : State) : State :=
  let s1 := evtSet (fsetb s PRT_STAT PRT_STAT_UPDATING false) .prt PRT_EVT_UPDATE_FAIL
  let s2 := setPrt s1 fun x => { x with upStep := 0, upCmd := none }
  match s.prt.upCmd with
  | some c => adminEnd s2 c.1 c.2 1 0x07
  | none => s2

/-- A hand-over fails on the leaving device (Table 16-3): it returns to ACTIVE and Optimized; a pair update ends with it. -/
def handoverFail (s : State) (result : Nat) : State :=
  let s1 := hoPhase (hoResult (setPrt s fun x => { x with hoWait := false }) result) 0
  let s2 := hoComplete (evtSet s1 .prt PRT_EVT_HO_FAIL) result
  let s3 := if roleOf s2 = 3 then setRole s2 1 else s2
  if s3.prt.upStep = 5 then updateFail s3 else s3

end Sys2Proof.Machine
end

