-- ==== Sys2Proof/Machine/Ledger.lean ====
section
/-! DEFINITION. The ballast ledger: its evaluation and the requests it holds (R312 to R315), SAFE (R316, R317), and the
spindle events that touch it: a lost observer, a chopper fault, an unload that ends. -/
namespace Sys2Proof.Machine
open Sys2Proof

/-- Change the ledger's state. -/
def setBal (s : State) (f : BalState → BalState) : State := { s with bal := f s.bal }

/-- PHASE of SAFE (Table 12-4). -/
def safePhase (s : State) : Nat := fget s BAL_STAT BAL_STAT_PHASE

/-- The registers of a mechanism follow an evaluation (Table 12-5). -/
def putMech (pl : LedgerPlan) (s : State) (p : Nat) : State :=
  let c := pl.counted.contains p
  let k := if c then kinetic s none p / 100000 else 0
  let w := setF (setF (setF (setF (rd s (BAL_MECH_STAT p)) BAL_MECH_STAT_COUNTED (b2n c)) BAL_MECH_STAT_CAPABLE
    (b2n (pl.capable.contains p))) BAL_MECH_STAT_WRITER (b2n (pl.writers.contains p))) BAL_MECH_STAT_DONOR (b2n (pl.donors.contains p))
  let s1 := fset (wr s (BAL_MECH_STAT p) w) (BAL_MECH_STAT p) BAL_MECH_STAT_FREE (fget s (ZMP_EAVE p) ZMP_EAVE_FREE)
  fset (fset s1 (BAL_MECH_RATE p) BAL_MECH_RATE_K_I (min k 0xFFFF)) (BAL_MECH_PHYS p) BAL_MECH_PHYS_FLOOR (floorSpeed s p / 100)

/-- The registers of the shelf follow an evaluation (Table 12-4). -/
def putPlan (s : State) (pl : LedgerPlan) : State :=
  let s1 := fset (fset s BAL_STAT BAL_STAT_NW pl.nw) BAL_STAT BAL_STAT_NS pl.counted.length
  let s2 := wrN (wrN s1 BAL_VMAX pl.vmax) BAL_WRITERS (sumN (pl.writers.map fun p => 2 ^ p))
  let s3 := fset (fset s2 BAL_ECAP BAL_ECAP_E_C (min 0xFFFF (pl.ec / 100000))) BAL_ECAP BAL_ECAP_KSUM (min 0xFFFF (pl.ksum / 100000))
  forAll (rangeFrom 0 32) (wrN s3 BAL_TDEST (min (2 ^ 32 - 1) (pl.tns / 1000))) (putMech pl)

/-- DEFICIT begins or ends at an evaluation (R314). -/
def judgeDeficit (s : State) : State :=
  let low := decide (rdN s BAL_VMAX < rdN s BAL_VUSED)
  if low = s.bal.deficit then s
  else
    let s1 := setBal s fun b => { b with deficit := low }
    if low then
      forceDestage (rootGrade (evtSet (count s1 (BAL_CNT 4) 1 .bal BAL_EVT_SAT) .bal BAL_EVT_DEFICIT) 1 0xA1) true
    else forceDestage (ungradeUnit s1 0 0xA1) false

/-- A held request is checked again; it proceeds at the first evaluation that passes (R315). -/
def retryHeld (s : State) (x : Nat × Nat × Nat) : State :=
  let target := if x.2.1 = 0 then stepSpeed s x.1 x.2.2 else 0
  if !requestPasses s x.1 target then s
  else
    let s1 := setBal s fun b => { b with held := b.held.erase x }
    if x.2.1 = 0 then askStep s1 x.1 x.2.2
    else if x.2.1 = 3 then fsetb s1 (SPN_CTRL x.1) SPN_CTRL_REGEN_EN false
    else doStop s1 x.1 (x.2.1 == 2)

/-- One evaluation of the ledger (R312): in SAFE its sets stay fixed (R316). -/
def evaluate (s : State) : State :=
  if inSafe s then s
  else
    let s1 := judgeDeficit (syncVused (putPlan s (ledgerPlan s none)))
    let s2 := forAll s1.bal.held s1 retryHeld
    mirror s2 5 [rdN s2 BAL_VUSED, rdN s2 BAL_VMAX, rdN s2 BAL_WRITERS]

/-- The bank voltage in 10 mV that a code of the 12-bit converter of the pin BAL_VCAP gives: 2.500 V at 4,096, times VSCALE
(R460). -/
def bankVolts (s : State) (code : Nat) : Nat := min 0xFFFF ((code * (fget s BAL_VSCALE BAL_VSCALE_SCALE) + 8192) / 16384)

/-- LEDGER_EVALUATION (R312): with the bank voltage as last converted. -/
def execLedgerEvaluation (code : BitVec 12) (s : State) : Res :=
  .next (evaluate (fset s BAL_VCAP BAL_VCAP_VCAP (bankVolts s code.toNat)))

/-! ### SAFE (R316, R317) -/

/-- The ports whose register BAL_MECH_STAT has a bit set. -/
def balPorts (s : State) (f : Fld) : List Nat := (rangeFrom 0 32).filter fun p => fbit s (BAL_MECH_STAT p) f

/-- A donor brakes to its floor by REGEN, limited to P_RGN (R316 step 4). -/
def donorBrakes (s : State) (p : Nat) : State :=
  let i := (rangeFrom 0 4).find? fun i => decide (stepSpeed s p i = floorSpeed s p)
  let s1 := setSpnState (setSpn s p fun x => { x with step := some ⟨2, i.getD 0, false⟩ }) p 6
  let s2 := { s1 with shelf := { s1.shelf with regen := s1.shelf.regen.filter (· != p) ++ [p] } }
  sendRegen (spnSlotRef s2 p (floorSpeed s p)) p

/-- A start is abandoned at SHELF_PFAIL_N (R218): above REGEN_MIN the spindle regenerates, below it coasts and counts as STOPPED
(log entry 50). -/
def abandonStart (s : State) (p : Nat) : State :=
  if spnState s p < 1 ∨ 4 < spnState s p then s
  else if fget s (SPN_LIM2 p) SPN_LIM2_REGEN_MIN * 100 < speed s p then goBrake s p
  else goStopped (sendDrive s p 0 0) p

/-- A formatter ends its home writes after their current sector (R316 step 3): its write gate goes off at the next sector start, and the
writes in its queue return to their threads undone. -/
def homeWritesEnd (s : State) (f : Nat) : State :=
  let x := fseqOf s f
  let wr := fun (i : FInstr) => i.work.any (·.write)
  let s1 := setFseq s f fun y => { y with
    queue := y.queue.filter fun i => !wr i
    gatePend := if y.gate = 0 then y.gatePend.filter fun g => !g.1 else some (false, y.gate) }
  fSync (forAll (x.queue.filter wr) s1 fun s i => pushResult s i (f, 0, false)) f

/-- SAFE is entered by an ACTIVE device (R316 steps 1 to 4): the sets of the last evaluation stand, every claim is released,
the self-test and calibration steps are abandoned, media tasks and home writes end, and the donors brake. -/
def enterSafe (s : State) : State :=
  let s0 := selfTestEnd (abandonCal s (rangeFrom 0 64)) 5 s.host.selfTest.step
  let s1 := fset (fsetb (setMode s0 0xA 4) BAL_STAT BAL_STAT_SAFE true) BAL_STAT BAL_STAT_PHASE 1
  let s2 := evtSet (count s1 (BAL_CNT 2) 1 .bal BAL_EVT_SAT) .bal BAL_EVT_SAFE_ENTER
  let ds := balPorts s2 BAL_MECH_STAT_DONOR
  let s3 := forAll ds (setBal (forAll (rangeFrom 0 64) (mediaTasksStop s2) homeWritesEnd) fun b => { b with donors := ds }) donorBrakes
  forAll (rangeFrom 0 32) s3 abandonStart

/-- SHELF_PFAIL_N is taken as asserted (R316, Table 13-7, R395, R396). -/
def pfailAssert (s : State) : State :=
  let s1 := fsetb s BAL_STAT BAL_STAT_PFAIL true
  let m := mode s1
  let ph := fget s1 PRT_HO PRT_HO_PHASE
  if m < 2 then fsetb s1 PWR_AON_STAT PWR_AON_STAT_PFAIL_SEEN true
  else if m = 9 then
    if 3 ≤ ph then setPrt s1 fun x => { x with hoPfail := true }
    else if roleOf s1 = 3 then enterSafe (handoverFail s1 2)
    else setRole (hoPhase s1 0) 2
  else if !isActiveRole s1 ∨ inSafe s1 then s1
  else enterSafe s1

/-- The replacement writer keeps its step where that allows writing and its speed, or goes to the next lower one that does (R317). -/
def writerStep (s : State) (p : Nat) : State :=
  let ok := fun (i : Nat) => ((speedTable s p)[i]?).any fun e => e.writeOk && decide (e.rpm * 100 ≤ speed s p)
  match (rangeFrom 0 4).filter ok with
  | [] => s
  | i :: l =>
    let j := l.foldl (fun a b => if stepSpeed s p a < stepSpeed s p b then b else a) i
    spnSlotRef (setSpnState (setSpn s p fun x => { x with step := some ⟨2, j, false⟩ }) p 6) p (stepSpeed s p j)

/-- The mechanism chosen to write in place of the only lost writer (R317): the donor of highest speed at or above its floor
with heads loaded. -/
def lastWriter (s : State) : Option Nat :=
  let ok := s.bal.donors.filter fun p => decide (floorSpeed s p ≤ speed s p) && anyLoaded s p && isBound s p
  match ok with
  | [] => none
  | p :: l => some (l.foldl (fun a b => if speed s a < speed s b then b else a) p)

/-- A writer is lost in SAFE before its staging is done (R317). -/
def safeWriterLost (s : State) (p : Nat) : State :=
  if !inSafe s ∨ 3 ≤ safePhase s ∨ !fbit s (BAL_MECH_STAT p) BAL_MECH_STAT_WRITER then s
  else
    let s1 := fsetb (wbit s BAL_WRITERS p false) (BAL_MECH_STAT p) BAL_MECH_STAT_WRITER false
    let s2 := evtSet (count s1 (BAL_CNT 3) 1 .bal BAL_EVT_SAT) .bal BAL_EVT_WRITER_LOST
    if rdN s2 BAL_WRITERS ≠ 0 then s2
    else match lastWriter s2 with
      | none => s2
      | some q =>
        let s3 := fsetb (fsetb s2 (BAL_MECH_STAT q) BAL_MECH_STAT_DONOR false) (BAL_MECH_STAT q) BAL_MECH_STAT_WRITER true
        writerStep (setBal (wbit s3 BAL_WRITERS q true) fun b => { b with donors := b.donors.filter (· != q) }) q

/-- SAFE_STAGING_START (R316 step 5). -/
def execSafeStagingStart (s : State) : Res :=
  .next (if inSafe s ∧ safePhase s = 1 then fset s BAL_STAT BAL_STAT_PHASE 2 else s)

/-- The copies of an extent in SAFE: distinct writers first, then their other actuators in turn, as far as their logs have
room (R316). -/
def safeCopies (s : State) (n c : Nat) : List Nat :=
  let ws := (balPorts s BAL_MECH_STAT_WRITER).filter fun p => logRoom s p n
  ((rangeFrom 0 (2 * ws.length)).map fun i => ws.getD (i % max 1 ws.length) 0).take c

/-- An extent is staged by the writers, with the journal entry of its zone; with no copy it stays dirty. -/
def safeStage (s : State) (x : Ext × Nat) (rewrite : Bool) : State :=
  match safeCopies s x.1.count x.2 with
  | [] => s
  | ps =>
    let n := s.zmp.eseq + 1
    let s1 := setZmp s fun z => { z with eseq := n, staged := z.staged ++ [⟨n, x.1, ps, rewrite, false⟩] }
    let s2 := emitAll s1 (ps.map fun p => .media 5 (2 * p) [n, x.1.nsid, x.1.lba, x.1.count])
    let s3 := stagedSync (count s2 (ZMP_CNT 0) 1 .zmp ZMP_EVT_SAT)
    journalZone (releaseDirty s3 (· == x.1)) x.1.nsid x.1.zone

/-- Pending rewrite sectors as extents (R173). -/
def rewriteExts (s : State) : List Ext :=
  (rangeFrom 0 64).flatMap fun a => (((slice s a).pend ++ (slice s a).wait).filter fun x => x.kind == 0 && x.nsid != 0).map fun x =>
    let z := zoneOf s x.nsid x.lba
    ⟨x.nsid, z, x.lba, 1, (getZone s x.nsid z).wseq⟩

/-- An extent cut so that an LBA is a piece of its own. -/
def cutLba (lba : Nat) (e : Ext) : List Ext :=
  if e.lba ≤ lba ∧ lba < e.lba + e.count then
    (if e.lba < lba then [{ e with count := lba - e.lba }] else []) ++ { e with lba := lba, count := 1 } ::
      (if lba + 1 < e.lba + e.count then [{ e with lba := lba + 1, count := e.lba + e.count - (lba + 1) }] else [])
  else [e]

/-- The pieces of a dirty extent: each of its pending sectors is carried as a rewrite (R173), so it is a piece of its own. -/
def pendingPieces (s : State) (e : Ext) : List Ext :=
  if isCommitted e then
    ((rewriteExts s).filter fun r => r.nsid == e.nsid).foldl (fun l r => l.flatMap (cutLba r.lba)) [e]
  else [e]

/-- Every head of the counted mechanisms is parked: PHASE 4 and SAFE_DONE (R316 step 6). -/
def safeParkDone (s : State) : State :=
  if inSafe s ∧ safePhase s = 3 ∧ (balPorts s BAL_MECH_STAT_COUNTED).all fun p => !(spnOf s p).parking then
    evtSet (fset s BAL_STAT BAL_STAT_PHASE 4) .bal BAL_EVT_SAFE_DONE
  else s

/-- The rewrite passes stop: what was pending is carried by REWRITE extents, or stays dirty (R173). -/
def passesStop (s : State) : State :=
  forAll ((rangeFrom 0 64).filter fun a => !(slice s a).pend.isEmpty || !(slice s a).wait.isEmpty) s fun s a =>
    syncPend (setSlice s a fun x => { x with pend := [], wait := [], passes := 0, index := false }) a

/-- Steps 5 and 6 of SAFE (R316, R334): the copies of every committed extent are made, of pending sectors as REWRITE extents
(R173); what could not be placed is a shortfall; the mechanisms unload and brake. -/
def safeStaged (s : State) : State :=
  let each := fun (e : Ext) => (e, copiesCounted (copyCount s e.nsid) (fget s BAL_STAT BAL_STAT_NW))
  let s0 := setZmp s fun z => { z with dirty := z.dirty.flatMap (pendingPieces s) }
  let now := (s0.zmp.dirty.filter isCommitted).map each
  let s1 := forAll now s0 fun s x => safeStage s x (writePending s x.1)
  let left := now.any fun x => s1.zmp.dirty.contains x.1
  let s2 := if left then evtSet s1 .bal BAL_EVT_SHORTFALL else s1
  let s3 := fset (passesStop s2) BAL_STAT BAL_STAT_PHASE 3
  let s4 := forAll (balPorts s3 BAL_MECH_STAT_COUNTED) s3 fun s p =>
    let t := setSpn s p fun x => { x with wantStop := true, coast := false }
    if anyLoaded t p then unloadHeads t p false else goBrake t p
  safeParkDone s4

/-- SAFE_STAGING_DONE (R316 steps 5 and 6): extents with no copy staged show as SHORTFALL (R317); the counted mechanisms
unload, and brake once parked. -/
def execSafeStagingDone (s : State) : Res :=
  .next (if !inSafe s ∨ safePhase s ≠ 2 then s
    else safeStaged s)

/-- SHELF_PFAIL_ASSERT (R316). -/
def execShelfPfailAssert (s : State) : Res := .next (pfailAssert s)

/-- SHELF_PFAIL_DEASSERT (R317): SAFE runs on to PHASE 4. -/
def execShelfPfailDeassert (s : State) : Res :=
  .next (let s1 := fsetb s BAL_STAT BAL_STAT_PFAIL false
    if inSafe s1 then evtSet s1 .bal BAL_EVT_PFAIL_GONE else s1)

/-- SAFE_EXIT (R334): PHASE 4 and SHELF_PFAIL_N high for 100 ms; LOBBY, then by R332; what was asked of the power state
meanwhile applies (Table 13-7). -/
def execSafeExit (s : State) : Res :=
  .next (if !inSafe s ∨ safePhase s ≠ 4 ∨ fbit s BAL_STAT BAL_STAT_PFAIL then s
    else
      let s1 := fset (fsetb s BAL_STAT BAL_STAT_SAFE false) BAL_STAT BAL_STAT_PHASE 0
      let s2 := setMode (setBal s1 fun b => { b with donors := [] }) 2 5
      applyRule (psUpdate s2))

/-! ### Spindle events (R210, R212, R466) -/

/-- OBSERVER_LOSS (R212, R317). -/
def execObserverLoss (p : Fin 32) (s : State) : Res :=
  .next (if observerLost s p then safeWriterLost (observerLoss s p) p else s)

/-- CHOPPER_FAULT (R210, R219, R317): the firmware records the retirement in flash against the SERIAL. -/
def execChopperFault (p : Fin 32) (s : State) : Res :=
  .next (if chopperFaulty s p then
      let id := identSerial s p
      let s1 := setFls (chopperFault s p) fun f => { f with choppers := if f.choppers.contains id then f.choppers else id :: f.choppers }
      safeWriterLost s1 p
    else s)

/-- HEAD_UNLOAD_DONE (R466, R316). -/
def execHeadUnloadDone (p : Fin 32) (s : State) : Res := .next (safeParkDone (headUnloaded s p))

end Sys2Proof.Machine
end

