-- ==== Sys2Proof/Machine/Memory.lean ====
section
/-! DEFINITION. The memories' commands (R287 to R296, R304, R305): temperature, flips, retirement, the error log, codes. -/
namespace Sys2Proof.Machine
open Sys2Proof

/-- A temperature of 16 bits in 0.1 °C. -/
def tempOf (t : BitVec 16) : Int := sgn 16 t.toNat

/-- The band after a reading: up at once at a higher band's lower edge, down by one when below the current band's lower edge
by more than the hysteresis (R352). `edges` are the lower edges of bands 1, 2, …. -/
def bandOf (edges : List Int) (hyst : Int) (cur : Nat) (t : Int) : Nat :=
  let up := (edges.filter fun e => decide (e ≤ t)).length
  if cur < up then up
  else if cur = 0 then 0
  else if t < edges.getD (cur - 1) 0 - hyst then cur - 1 else cur

/-- DRAM_TEMP_SAMPLE (R290): the limits B0 to B5 and 2 °C of hysteresis. -/
def execDramTempSample (temp : BitVec 16) (s : State) : Res :=
  .next (let b := fget s BUF_STAT BUF_STAT_BAND
    let n := bandOf [100, 250, 400, 550, 650] 20 b (tempOf temp)
    let s1 := fset (fset s BUF_STAT BUF_STAT_TEMP temp.toNat) BUF_STAT BUF_STAT_BAND n
    if n = b then s1 else evtSet s1 .buf BUF_EVT_BAND)

/-- A write of MEP_FLIP_CTRL: W1C FIRED, the selection, and ARM set (R294). -/
def writeFlipCtrl (s : State) (w : Word) : State :=
  let fired := fbit s MEP_FLIP_CTRL MEP_FLIP_CTRL_FIRED && getF w MEP_FLIP_CTRL_FIRED != 1
  let arm := fbit s MEP_FLIP_CTRL MEP_FLIP_CTRL_ARM || getF w MEP_FLIP_CTRL_ARM == 1
  let w1 := setF (setF (w &&& 0x3FF000FF) MEP_FLIP_CTRL_FIRED (b2n fired)) MEP_FLIP_CTRL_ARM (b2n arm)
  wr s MEP_FLIP_CTRL w1

/-- The flip registers are written by the holder of the claim, or by the firmware where there is none (R294). -/
def flipWriter (s : State) (m : Master) : Bool := holds s baseMEP m || (!claimed s baseMEP && isRidge m)

/-- MEP_FLIP_ARM (R294): other writers' writes are discarded. -/
def execMepFlipArm (m : Master) (value : Word) (s : State) : Res :=
  .next (regWrite s m MEP_FLIP_CTRL fun s => if flipWriter s m then writeFlipCtrl s value else s)

/-! ### Page retirement (R295, R296) -/

/-- The test page of a region (R287). -/
def testPage (s : State) (rgn : Nat) : Nat :=
  if rgn = 0 then 0 else if rgn = 1 then 0x40000 else if rgn = 2 then 0x50000 else 0x80000 + 32 * 1024 * (cacheWays s).headD 0

/-- RESULT of a retirement request (Table 11-9). -/
def retireResult (s : State) (page : Nat) : Nat :=
  if (0x4FF00 ≤ page ∧ page < 0x50000) ∨ (rangeFrom 0 4).any fun r => testPage s r == page then 2
  else if pageRegion s page = 3 then (if s.mem.subGone.contains (page - 0x80000) then 3 else 4)
  else if (rangeFrom 0 256).any fun i => fbit s (MEP_RET i) MEP_RET_VALID && fget s (MEP_RET i) MEP_RET_PAGE == page then 3
  else if 256 ≤ fget s MEP_RET_STAT MEP_RET_STAT_USED then 1 else 0

/-- A retirement with its result takes effect. -/
def retireEffect (s : State) (page result : Nat) : State :=
  let r := pageRegion s page
  if result = 0 then
    let i := fget s MEP_RET_STAT MEP_RET_STAT_USED
    let s1 := fset (fsetb s (MEP_RET i) MEP_RET_VALID true) (MEP_RET i) MEP_RET_PAGE page
    fadd (fset s1 MEP_RET_STAT MEP_RET_STAT_USED (i + 1)) (MEP_RGN r) MEP_RGN_RETIRED 1
  else if result = 4 then
    let sub := page - 0x80000
    let s1 := setMem s fun m => { m with subGone := sub :: m.subGone }
    let f := sub / 32
    let b := 2 ^ (sub % 32)
    let s2 := match cacheLine s1 f with
      | some l => putLine s1 f { l with valid := l.valid - l.valid / b % 2 * b, dirty := l.dirty - l.dirty / b % 2 * b }
      | none => s1
    fadd s2 (MEP_RGN 3) MEP_RGN_RETIRED 1
  else if result = 1 then
    let s1 := fset s (MEP_RGN r) MEP_RGN_STATE 1
    rootGrade (evtSets s1 .mep [MEP_EVT_RET_FULL, MEP_EVT_DEGRADED]) 2 0x91
  else s

/-- PAGE_RETIRE_GO (R295): ignored while BUSY. -/
def execPageRetireGo (m : Master) (page : BitVec 20) (s : State) : Res :=
  .next (regWrite s m MEP_RET_CMD fun s => if fbit s MEP_RET_STAT MEP_RET_STAT_BUSY then s else retireStart s page.toNat false)

/-- The entries of the log in a page that the firmware retired are freed (R304). -/
def freePage (s : State) (page : Nat) : State :=
  forAll ((rangeFrom 0 64).filter fun i => fbit s (MEP_CELOG_W0 i) MEP_CELOG_W0_VALID && !fbit s (MEP_CELOG_W0 i) MEP_CELOG_W0_SPACE &&
    decide (rdN s (MEP_CELOG_W1 i) / 4096 = page)) s celogFree

/-- The firmware keeps a retired page that it or a Page Retire asked for in flash (R296), and frees its own entries; the command
that asked is answered; the next page of the policy follows (R304). -/
def retireAnswer (s : State) (page r : Nat) : State :=
  let ok := r == 0 || r == 4
  let s0 := if (s.mem.keep || s.mem.cmd.isSome) && ok then setMem (programPages s 1) fun m => { m with stored := m.stored ++ [page] } else s
  let s1 := if s.mem.keep then freePage s0 page else s0
  pagePolicy <| match s1.mem.cmd with
  | none => s1
  | some c =>
    let s1 := setMem s1 fun m => { m with cmd := none }
    if ok then adminOk s1 c.1 c.2 0 else complete s1 c.1 0 c.2 1 0xC1 r 0

/-- PAGE_RETIRE_DONE (R295, R296): the result; the firmware keeps the page of a Page Retire command in flash (R304). -/
def execPageRetireDone (s : State) : Res :=
  .next (if !fbit s MEP_RET_STAT MEP_RET_STAT_BUSY then s
    else
      let page := fget s MEP_RET_CMD MEP_RET_CMD_PAGE
      let r := retireResult s page
      let s1 := retireEffect s page r
      let s2 := fset (fsetb (fsetb s1 MEP_RET_STAT MEP_RET_STAT_BUSY false) MEP_RET_STAT MEP_RET_STAT_DONE true) MEP_RET_STAT
        MEP_RET_STAT_RESULT r
      retireAnswer (evtSet s2 .mep MEP_EVT_RET_DONE) page r)

/-- PAGE_RETIRE (R305): one at a time. -/
def execPageRetire (x : HPort) (cid : BitVec 16) (page : BitVec 20) (s : State) : Res :=
  .next (adminCmd s x fun s =>
    if claimed s baseMEP then claimHeld s (portId x) cid.toNat
    else if fbit s MEP_RET_STAT MEP_RET_STAT_BUSY then sequenceError s (portId x) cid.toNat
    else retireStart (setMem s fun m => { m with cmd := some (portId x, cid.toNat) }) page.toNat false)

/-! ### The error log (R293) -/

/-- CELOG_ENTRY_FREE (R293). -/
def execCelogEntryFree (m : Master) (i : Fin 64) (s : State) : Res :=
  .next (regWrite s m (MEP_CELOG_W0 i) fun s => celogFree s i)

/-- Every entry is freed and OVF cleared. -/
def celogClear (s : State) : State :=
  fsetb (forAll (rangeFrom 0 64) s celogFree) MEP_CELOG_STAT MEP_CELOG_STAT_OVF false

/-- CELOG_CLEAR (R293). -/
def execCelogClear (m : Master) (s : State) : Res := .next (regWrite s m MEP_CELOG_STAT celogClear)

/-- MEP_CODE_LOCK (R14). -/
def execMepCodeLock (m : Master) (s : State) : Res :=
  .next (regWrite s m MEP_CTRL fun s => fsetb s MEP_CTRL MEP_CTRL_LOCK true)

/-! ### The Memory Check Test and the code store (R294, R305) -/

/-- A flip on a region's test page, and the read of the line (R294): the state, and what the read found. -/
def flipTest (s : State) (rgn mask : Nat) : State × Nat :=
  let addr := testPage s rgn * 4096
  let s1 := wrN (wr64 s MEP_FLIP_DATA_LO mask) MEP_FLIP_ADDR addr
  let r := flipNow (wr s1 MEP_FLIP_CTRL (setF (setF (setF 0 MEP_FLIP_CTRL_ADDR_EN 1) MEP_FLIP_CTRL_RGN rgn) MEP_FLIP_CTRL_ARM 1))
    0 rgn rgn (some addr)
  (r.1, r.2.1)

/-- A Memory Check Test: refused while MEP is claimed; Dword 0 bit 0 tells whether the read found what R294 expects. -/
def memoryCheck (s : State) (x : HPort) (cid : BitVec 16) (f : State → State × Bool) : State :=
  adminCmd s x fun s =>
    if claimed s baseMEP then claimHeld s (portId x) cid.toNat
    else
      let r := f s
      adminOk r.1 (portId x) cid.toNat (b2n r.2)

/-- MEMORY_CHECK_SINGLE_BIT (R305): TEST 0; a corrected read, but an uncorrectable one under LIGHT. -/
def execMemoryCheckSingleBit (x : HPort) (cid : BitVec 16) (rgn : BitVec 2) (s : State) : Res :=
  .next (memoryCheck s x cid fun s =>
    let r := flipTest s rgn.toNat 1
    (r.1, r.2 == if memCode s 0 rgn.toNat = 2 then 2 else 1))

/-- MEMORY_CHECK_UNCORRECTABLE (R305): TEST 1, bits in two symbols of one word, which no code corrects. -/
def execMemoryCheckUncorrectable (x : HPort) (cid : BitVec 16) (rgn : BitVec 2) (s : State) : Res :=
  .next (memoryCheck s x cid fun s =>
    let r := flipTest s rgn.toNat 0x10001
    (r.1, r.2 == 2))

/-- MEMORY_CHECK_POISON (R305): TEST 2, a poisoned line is written to the test page and read (R289), and written anew. -/
def execMemoryCheckPoison (x : HPort) (cid : BitVec 16) (rgn : BitVec 2) (s : State) : Res :=
  .next (memoryCheck s x cid fun s =>
    let addr := testPage s rgn.toNat * 4096
    let r := lineRead (addPoison s rgn.toNat (2 ^ 128 + addr) addr false) rgn.toNat (2 ^ 128 + addr)
    (dropBad r.1 rgn.toNat (2 ^ 128 + addr), r.2))

/-- A word of two-bit codes holds no code 3. -/
def codesOk (n v : Nat) : Bool := (rangeFrom 0 n).all fun i => v / 4 ^ i % 4 != 3

/-- MEMORY_CODE_STORE (R305): kept in flash for the next reset; a claimed FLS refuses it too (Table 18-3). -/
def execMemoryCodeStore (x : HPort) (cid : BitVec 16) (regions : BitVec 8) (banks0 banks1 : BitVec 32) (s : State) : Res :=
  .next (adminCmd s x fun s =>
    if claimed s baseMEP || claimed s baseFLS then claimHeld s (portId x) cid.toNat
    else if !codesOk 4 regions.toNat || regions.toNat % 4 != 0 || !codesOk 16 banks0.toNat || !codesOk 16 banks1.toNat then
      invalidField s (portId x) cid.toNat
    else adminOk (programPages (setMem s fun m => { m with codes := some (regions.toNat, banks0.toNat, banks1.toNat) }) 2)
      (portId x) cid.toNat 0)

end Sys2Proof.Machine
end

