-- ==== Sys2Proof/Machine/Tasks.lean ====
section
/-! DEFINITION. Background work (chapter 14): credits, the choice at a command boundary, the work units of the tasks, the
calibration of heads, and the power manager's policies (R336). -/
namespace Sys2Proof.Machine
open Sys2Proof

/-! ### Passes and credit (R344, R345) -/

/-- Unit `u` lies on, or spans, actuator `a`. -/
def onActuator (s : State) (u a : Nat) : Bool :=
  match mechOf s u with
  | some _ => (actsOfUnit s u).contains a
  | none => (portsOf s u).contains (a / 2)

/-- The zones of the namespaces on actuator `a` that are not Empty, as [NSID, zone]. -/
def scrubList (s : State) (a : Nat) : List (List Nat) :=
  (s.trs.run.binds.filter fun b => b.nstype == 0 && onActuator s b.uid a).flatMap fun b =>
    ((listedZones s b.nsid).filter fun z => (getZone s b.nsid z).zstate != 1).map fun z => [b.nsid, z]

/-- Committed dirty extents homed on port `p`, oldest first. -/
def dirtyOn (s : State) (p : Nat) : List Ext := s.zmp.dirty.filter fun e => isCommitted e && extHome s e == some p

/-- Put an extent among others by namespace, zone and LBA. -/
def extInsert (x : Staged) : List Staged → List Staged
  | [] => [x]
  | y :: l =>
    if x.ext.nsid < y.ext.nsid ∨ (x.ext.nsid = y.ext.nsid ∧ x.ext.lba < y.ext.lba) then x :: y :: l else y :: extInsert x l

/-- Staged extents homed on port `p` that wait for the mover, lowest LBA first (R238). -/
def stagedFor (s : State) (p : Nat) : List Staged :=
  (s.zmp.staged.filter fun x => !x.moved && extHome s x.ext == some p).foldl (fun acc x => extInsert x acc) []

/-- Work units that task `t` has now (Table 14-1). -/
def taskUnits (s : State) (t : Nat) : Nat :=
  if t < 64 then (if isBound s (t / 2) then (scrubList s t).length else 0)
  else if t < 128 then (if isBound s ((t - 64) / 2) then (headsOf s ((t - 64) / 2) ((t - 64) % 2)).length else 0)
  else if t < 160 then ceilDiv (sumN ((stagedFor s (t - 128)).map (·.ext.count))) 256
  else if t < 192 then ceilDiv (sumN ((dirtyOn s (t - 160)).map (·.count))) 256
  else if t < 224 then (if isBound s (t - 192) then (surfsOf s (t - 192)).length else 0)
  else if t = 224 then 4096 else if t = 225 then 512 else s.trs.bound.length

/-- WORK of a task: fixed at pass start, else what it has. -/
def workOf (s : State) (t : Nat) : Nat := tabGet (taskUnits s t) s.bgw.work t

/-- A work unit of a task is done (R345): the credit rises, and the pass ends with its last unit. -/
def unitDone (s : State) (t : Nat) : State :=
  let w := max 1 (workOf s t)
  let n := fget s (BGW_TASK_PROG t) BGW_TASK_PROG_UNITS + 1
  if w ≤ n then
    let s1 := setBgw (fset s (BGW_TASK_PROG t) BGW_TASK_PROG_UNITS 0) fun b => { b with work := tabDel b.work t }
    let s2 := taskStop (setCredit s1 t (taskPeriod s1 t)) t
    taskSync (evtSet (count s2 (BGW_CNT 0) 1 .bgw BGW_EVT_SAT) .bgw BGW_EVT_PASS_DONE) t
  else
    let s1 := setBgw (fset s (BGW_TASK_PROG t) BGW_TASK_PROG_UNITS n) fun b => { b with work := tabPut b.work t w }
    taskSync (setCredit s1 t (min (credit s1 t + (max (taskPeriod s1 t / w) 1 : Nat)) (taskPeriod s1 t))) t

/-- The end of a work unit: done, or TASK_FAIL. -/
def unitEnd (s : State) (t : Nat) (ok : Bool) : State := if ok then unitDone s t else evtSet s .bgw BGW_EVT_TASK_FAIL

/-- A second passes for a task: one without work has no pass and a full credit. -/
def ageTask (s : State) (t : Nat) : State :=
  if taskUnits s t = 0 then
    let s1 := fset (setBgw s fun b => { b with work := tabDel b.work t }) (BGW_TASK_PROG t) BGW_TASK_PROG_UNITS 0
    taskSync (setCredit (taskStop s1 t) t (taskPeriod s t)) t
  else taskSync (setCredit s t (credit s t - 1)) t

/-- The firmware loads the PERIOD of PATROL from PATROL_H, of which 0 acts as 1 (R304, R361). -/
def patrolPeriod (s : State) : State :=
  if claimed s baseBGW then s else wrN s (BGW_TASK_PERIOD 224) (3600 * max 1 (fget s MEP_CTRL MEP_CTRL_PATROL_H))

/-- TASK_CREDIT_TICK (R345, R464): once for each second of PWR_UPTIME. -/
def execTaskCreditTick (s : State) : Res :=
  .next (let now := uptime s / 1000
    if now = s.bgw.agedTo then s
    else
      let s1 := forAll (rangeFrom 0 taskCount) (patrolPeriod s) ageTask
      setBgw s1 fun b => { b with agedTo := if now < b.agedTo then 0 else b.agedTo + 1 })

/-! ### Where tasks run (R347 to R349) -/

/-- The port of a media task's mechanism; the actuators it may run on. -/
def taskActs (t : Nat) : List Nat :=
  if t < 64 then [t] else if t < 128 then [t - 64] else if t < 160 then [2 * (t - 128), 2 * (t - 128) + 1]
  else if t < 192 then [2 * (t - 160), 2 * (t - 160) + 1] else [2 * (t - 192), 2 * (t - 192) + 1]

/-- The media tasks of actuator `a`. -/
def actTasks (a : Nat) : List Nat := [a, 64 + a, 128 + a / 2, 160 + a / 2, 192 + a / 2]

/-- Media tasks run in the modes SERVICE to REBUILD (R347). -/
def mediaMode (s : State) : Bool := decide (3 ≤ mode s ∧ mode s ≤ 7)

/-- The fence covers actuator `a`, or a unit of it (R59). -/
def actFenced (s : State) (a : Nat) : Bool :=
  (actUnit s a).any fun u => fenced s u ||
    (fbit s TRS_FENCE TRS_FENCE_FENCE && inSubtree s u (fget s TRS_FENCE TRS_FENCE_ROOT))

/-- Extents from the front of a list that make up 1 MiB, one at least. -/
def firstMib {α : Type} (size : α → Nat) : List α → Nat → List α
  | [], _ => []
  | x :: l, n => if 256 ≤ n + size x then [x] else x :: firstMib size l (n + size x)

/-- What the next unit of a task works on: SCRUB the zone of its place in the pass, CAL and WEAR the head, MOVE and DESTAGE
the extents of 1 MiB. -/
def unitPlace (s : State) (t : Nat) : List Nat :=
  let n := fget s (BGW_TASK_PROG t) BGW_TASK_PROG_UNITS
  if t < 64 then
    let l := scrubList s t
    if l = [] then [] else l.getD (n % l.length) []
  else if t < 128 then (headsOf s ((t - 64) / 2) ((t - 64) % 2)).drop n |>.take 1
  else if t < 160 then (firstMib (fun x : Staged => x.ext.count) (stagedFor s (t - 128)) 0).flatMap fun x => [x.ext.nsid, x.ext.lba, x.ext.count]
  else if t < 192 then (firstMib (fun e : Ext => e.count) (dirtyOn s (t - 160)) 0).flatMap fun e => [e.nsid, e.lba, e.count]
  else [n]

/-- The zone sequencer of a task's internal command, by the zone of its unit (R366); a unit without a zone enters none. -/
def taskSeq (s : State) (t : Nat) : Option Nat :=
  match unitPlace s t with
  | n :: x :: _ => if t < 64 then some (zoneSeqOf s n (x * nsZl s n)) else if 128 ≤ t ∧ t < 192 then some (zoneSeqOf s n x) else none
  | _ => none

/-- The flow of a task's internal command has begun. -/
def taskFlowing (s : State) (t : Nat) : Bool :=
  (rangeFrom 0 8).any fun z => (busyThreads s z).any fun x => x.2.task == some t

/-- A task enters as an internal command; none while its zone sequencer has no thread for it. -/
def taskEnter (s : State) (t : Nat) : Option State :=
  if taskFlowing s t then some s
  else match taskSeq s t with
    | none => some s
    | some z => flowEnter s z { task := some t }

/-- A task may start: enabled, with work, the mover not stopped (R238), a thread for its internal command (R366). -/
def taskReady (s : State) (t : Nat) : Bool :=
  fbit s (BGW_TASK_CTRL t) BGW_TASK_CTRL_EN && taskUnits s t != 0 &&
    (decide (t < 128 ∨ 160 ≤ t) || fbit s ZMP_CTRL ZMP_CTRL_MOVER_EN) && (taskEnter s t).isSome

/-- The actuator's unit is READY or DEGRADED with its spindle in RUN (R348), and no fence holds its tasks off (R59). -/
def actServes (s : State) (a : Nat) : Bool :=
  !actFenced s a && (actUnit s a).any (fun u => uState s u == 3 || uState s u == 4) && spnRunning s (a / 2) && tokenMine s (a / 2)

/-- Of two tasks the one with the lower credit, the lower index winning a tie. -/
def lowerCredit (s : State) (x t : Nat) : Nat := if credit s t < credit s x then t else x

/-- The task of lowest credit in a state (R347). -/
def pickTask (s : State) (a st : Nat) : Option Nat :=
  match (actTasks a).filter fun t => taskReady s t && taskState s t == st with
  | [] => none
  | t :: l => some (l.foldl (lowerCredit s) t)

/-- A task starts running on an actuator: the seek to its track, the settling, one revolution of its work, and the seek back
(R348). -/
def taskRun (s : State) (t a : Nat) : State :=
  let s1 := setBgw (emit ((taskEnter s t).getD s) (.media 11 a (t :: unitPlace s t))) fun b =>
    { b with runs := b.runs ++ [(t, a)], work := tabPut b.work t (workOf s t) }
  syncTaskStat (fsetb s1 (BGW_TASK_CTRL t) BGW_TASK_CTRL_RUN true)

/-- What ran on an actuator ends at its command boundary. -/
def actStop (s : State) (a : Nat) : State :=
  let hit := s.bgw.runs.filter fun x => x.2 == a
  let s1 := setBgw s fun b => { b with runs := b.runs.filter fun x => x.2 != a }
  syncTaskStat (forAll hit s1 fun s x =>
    if s.bgw.runs.any fun y => y.1 == x.1 then s else fsetb s (BGW_TASK_CTRL x.1) BGW_TASK_CTRL_RUN false)

/-- URGENT media tasks with WAKE_OK on an actuator whose unit is ASLEEP raise a wake demand, but in LOBBY (R348). -/
def urgentWake (s : State) (a : Nat) : State :=
  match actUnit s a with
  | some u =>
    if mediaMode s && (uState s u == 1) && !((mechUnit s (a / 2)).any fun v => (uAux s v).wakeWanted) &&
        (actTasks a).any fun t => taskReady s t && taskState s t == 2 && fbit s (BGW_TASK_CTRL t) BGW_TASK_CTRL_WAKE_OK then
      count (wakeDemand s u) (BGW_CNT 4) 1 .bgw BGW_EVT_SAT
    else s
  | none => s

/-- A calibration of actuator `a` is pending. -/
def calPending (s : State) (a : Nat) : Bool := rbit s (BGW_CALQ_LO + 4 * (a / 32)) (a % 32)

/-- The heads a pending calibration covers (R355): those asked for, or all. -/
def calHeads (s : State) (a : Nat) : List Nat :=
  let hs := headsOf s (a / 2) (a % 2)
  let ask := s.bgw.asked.filter fun x => x.1 == a
  if ask = [] ∨ ask.any (fun x => x.2.1.isNone) then hs else hs.filter fun h => ask.any fun x => x.2.1 == some h

/-- Base temperature of the mechanism of actuator `a`, as its 16 bits. -/
def baseTemp (s : State) (a : Nat) : Nat := fget s (THM_MECH_W0 (a / 2)) THM_MECH_W0_TEMP

/-- The registers an item replaces, with their values (Table 14-4). -/
def itemSaved (s : State) (a h item : Nat) : List (Nat × Word) :=
  let p := a / 2
  let q := 12 * (a % 2) + h
  let b := mechBand s p
  if item = 1 then [(THM_SRVCAL a h, rd s (THM_SRVCAL a h))]
  else if item = 2 then [(AST_CAL_W2 p q b, rd s (AST_CAL_W2 p q b))]
  else [(AST_CAL_W0 p q b, rd s (AST_CAL_W0 p q b)), (AST_CAL_W1 p q b, rd s (AST_CAL_W1 p q b))]

/-- An item of a step begins: the values it replaces are saved (R358); the assist item uses the calibration command (R216). -/
def itemStart (s : State) (j : CalJob) (item : Nat) : State :=
  let h := j.heads.headD 0
  let j1 := { j with item := item, saved := if j.verify then [] else itemSaved s j.act h item }
  let s1 := setBgw s fun b => { b with jobs := b.jobs.map fun x => if x.act = j.act then j1 else x }
  let s2 := emit s1 (.media 7 j.act [h, item])
  if item = 3 ∧ !j.verify then calStart s2 (j.act / 2) (12 * (j.act % 2) + h) (mechBand s2 (j.act / 2)) else s2

/-- The next step of a pending calibration starts (R356): the first one fixes the heads, the temperature and the mode. -/
def calStepStart (s : State) (a : Nat) : State :=
  match s.bgw.jobs.find? fun j => j.act == a with
  | some j => if j.item = 0 then itemStart s j 1 else s
  | none =>
    match calHeads s a with
    | [] => s
    | hs =>
      let j : CalJob := { act := a, heads := hs, item := 0, t0 := baseTemp s a, failed := [], verify := s.bgw.verify.contains a,
                          saved := [] }
      itemStart (setBgw s fun b => { b with jobs := b.jobs ++ [j] }) j 1

/-- A pending calibration can run: heads loaded, the spindle in RUN, not in SAFE; under a fence only to complete a wake
already begun (R59). -/
def calRuns (s : State) (a : Nat) : Bool :=
  (!actFenced s a || (actUnit s a).any fun u => uState s u == 2) && calPending s a && headsLoaded s a && spnRunning s (a / 2) && tokenMine s (a / 2) && !inSafe s && calHeads s a != []

/-- Throttle level of actuator `a` (R354): its mechanism's. -/
def actLevel (s : State) (a : Nat) : Nat := fget s (THM_MECH_W0 (a / 2)) THM_MECH_W0_LEVEL

/-- An URGENT slot may start (R348): the foreground has used its share, or waits for nothing; in SWEEP at any time. -/
def slotAllowed (s : State) (a : Nat) (waiting : Bool) : Bool :=
  mode s == 6 || fbit s BGW_CTRL BGW_CTRL_SHARE_EN && (tabGet 0 s.bgw.owed a == 0 || !waiting)

/-- The task that runs where no foreground command waits (R347): a DUE one, else an IDLE one. -/
def idleTask (s : State) (a : Nat) : State :=
  match (pickTask s a 1).orElse fun _ => pickTask s a 0 with
  | some t => taskRun s t a
  | none => s

/-- The item an actuator takes at its command boundary, in the order of R347. -/
def boundaryItem (s : State) (a : Nat) (waiting : Bool) : State :=
  if calRuns s a then calStepStart s a
  else if !mediaMode s || !actServes s a then s
  else
    match if slotAllowed s a waiting then pickTask s a 2 else none with
    | some t => count (taskRun s t a) (BGW_CNT 2) 1 .bgw BGW_EVT_SAT
    | none => if waiting then s else idleTask s a

/-- The foreground's use of an actuator since its last boundary, µs outside idle revolutions (R348, R354). -/
def foreground (s : State) (a used : Nat) : State :=
  setBgw s fun b => { b with owed := tabPut b.owed a (tabGet 0 b.owed a - used) }

/-- The idle revolutions that follow every four with media work (R354): counted, or none due. -/
def idleRevs (s : State) (a revs : Nat) : State × Bool :=
  let n := tabGet 0 s.bgw.revs a + revs
  let s1 := setBgw s fun b => { b with revs := tabPut b.revs a (n % 4) }
  if n < 4 ∨ actLevel s a = 0 then (s1, false)
  else (count s1 (THM_CNT 1) (n / 4 * actLevel s a) .thm THM_EVT_SAT, true)

/-- ACTUATOR_COMMAND_BOUNDARY (R347, R354, R356): whether foreground commands wait; the actuator time in µs that the
foreground has used since the last boundary, and the revolutions with media work since then. Where idle revolutions are due they
come first, and the item is taken at the boundary that follows them. -/
def execActuatorCommandBoundary (a : Fin 64) (waiting : Bool) (used : BitVec 32) (revs : BitVec 8) (s : State) : Res :=
  .next (let s1 := foreground (urgentWake (actStop s a) a) a used.toNat
    let r := idleRevs s1 a revs.toNat
    if r.2 then r.1 else boundaryItem r.1 a waiting)

/-- URGENT_SLOT_END (R348): the slot's revolution and the seek back are over; it took `dur` µs, and the foreground has N - 1
times that before the next slot. -/
def execUrgentSlotEnd (a : Fin 64) (dur : BitVec 32) (s : State) : Res :=
  .next (if s.bgw.runs.any fun x => x.2 == a.val && taskState s x.1 == 2 then
      setBgw (actStop s a) fun b => { b with owed := tabPut b.owed a ((fget s BGW_CTRL BGW_CTRL_N_URG - 1) * dur.toNat) }
    else s)

/-- A non-media task is URGENT. -/
def nonMediaUrgent (s : State) : Bool := [224, 225, 226].any fun t => taskState s t == 2

/-- Fetch throttle level in force (R353, R354, R333): the device band's, a hot die's, the envelope's. -/
def fetchLevel (s : State) : Nat :=
  let b := fget s THM_STAT THM_STAT_DEV_BAND
  let dev := if b = 5 then 3 else if b = 4 then 1 else 0
  let hot : Bool := decide (sgn 16 (fget s THM_CTRL THM_CTRL_DIE_HOT) ≤ sgn 16 (fget s THM_STAT THM_STAT_DIE_MAX))
  max dev (if hot || s.pwr.pause then 3 else 0)

/-- The pause that a non-media URGENT task takes from a port's fetching (R349); FP_US 0 acts as 1. -/
def sharePause (s : State) (x : Nat) : State :=
  if nonMediaUrgent s && fbit s BGW_CTRL BGW_CTRL_SHARE_EN then
    emit (count s (BGW_CNT 3) 1 .bgw BGW_EVT_SAT) (.fetchPause x (max 1 (fget s BGW_CTRL BGW_CTRL_FP_US)))
  else s

/-- The pause of the fetch throttle level (R354). -/
def heatPause (s : State) (x : Nat) : State :=
  if fetchLevel s = 0 then s
  else emit (count s (THM_CNT 2) 1 .thm THM_EVT_SAT) (.fetchPause x (fetchLevel s * fget s THM_THROTTLE THM_THROTTLE_FP_STEP))

/-- FETCH_PAUSE (R349, R354): a pause of fetching begins on a port; each reason for it is counted. -/
def execFetchPause (x : HPort) (s : State) : Res :=
  .next (if portExists s (portId x) then heatPause (sharePause s (portId x)) (portId x) else s)

/-! ### Calibration (R355 to R358) -/

/-- An item of a head succeeds: its values are stored (Table 14-4). -/
def itemStore (s : State) (a h item v1 v2 : Nat) : State :=
  let p := a / 2
  let q := 12 * (a % 2) + h
  if item = 1 then fwSet (fwSet s (THM_SRVCAL a h) THM_SRVCAL_K_H v1) (THM_SRVCAL a h) THM_SRVCAL_DT0 v2
  else
    let r := AST_CAL_W2 p q (mechBand s p)
    fwSet (fwSet s r AST_CAL_W2_FH_WREF v1) r AST_CAL_W2_FH_RREF v2

/-- A head's step that passed writes the head's tap-table entries: taps, predictors, target and write precompensation (R125, R133).
Table 14-4 names no item for them; the values are free (log entry 46). -/
def calTaps (s : State) (a h : Nat) : State :=
  drawn (forAll (rangeFrom 0 32) s fun s b =>
    forAll ((rangeFrom 0 tapFields.length).zip (tapRegs a h b)) s fun s x =>
      fwSet s x.2.1 x.2.2 (freeVal s / 2 ^ (32 * (32 * b + x.1))))

/-- An item of a head fails: RESULT, CAL_FAIL, and the second failure in a row of item 1 or 2 grades the surface (R358). -/
def itemFail (s : State) (a h item : Nat) : State :=
  let s1 := evtSet (fset s (THM_ACT a) THM_ACT_RESULT 2) .thm THM_EVT_CAL_FAIL
  if item = 3 then s1
  else
    let k := 1024 * item + 12 * a + h
    let n := tabGet 0 s1.bgw.fails k + 1
    let s2 := setBgw s1 fun b => { b with fails := tabPut b.fails k n }
    match surfUnit s2 a h with
    | some u => if 2 ≤ n then leafGrade s2 u 1 0x66 else s2
    | none => s2

/-- An item of a head passes. -/
def itemPass (s : State) (a h item v1 v2 : Nat) (verify : Bool) : State :=
  let s1 := setBgw s fun b => { b with fails := tabDel b.fails (1024 * item + 12 * a + h) }
  if verify ∨ item = 3 then s1 else itemStore s1 a h item v1 v2

/-- The heads of actuator `a` have assist, and head h's is not retired: its step has the third item. -/
def hasAssist (s : State) (a h : Nat) : Bool :=
  (templateOf s (a / 2)).any (fun t => t.assist != 0) && !fbit s (AST_WEAR_W2 (a / 2) (12 * (a % 2) + h)) AST_WEAR_W2_RETIRED

/-- The calibration of an actuator ends (R358): T_CAL, its bit, and the commands that asked; verify mode stores nothing
(R359). -/
def calFinish (s : State) (j : CalJob) : State :=
  let a := j.act
  let r := BGW_CALQ_LO + 4 * (a / 32)
  let waiting := s.bgw.asked.filter fun x => x.1 == a
  let s1 := setBgw s fun b =>
    { b with jobs := b.jobs.filter (fun x => x.act != a), asked := b.asked.filter (fun x => x.1 != a),
             verify := b.verify.filter (· != a) }
  let s2 := fset (wbit s1 r (a % 32) false) (THM_ACT a) THM_ACT_RESULT (if j.failed = [] then 1 else 2)
  let s3 := if j.verify then
      { s2 with host := { s2.host with selfTest := { s2.host.selfTest with
          failed := if j.failed = [] then s2.host.selfTest.failed else max 4 s2.host.selfTest.failed } } }
    else count (fset s2 (THM_ACT a) THM_ACT_T_CAL j.t0) (BGW_CNT 5) 1 .bgw BGW_EVT_SAT
  let s4 := forAll waiting s3 fun s x =>
    match x.2.2 with
    | some c =>
      let ok := match x.2.1 with
        | some h => !j.failed.contains h
        | none => j.failed == []
      adminOk s c.1 c.2 (b2n ok)
    | none => s
  let d := absI (sgn 16 (baseTemp s4 a) - sgn 16 j.t0)
  if !j.verify ∧ fget s4 THM_CTRL THM_CTRL_CAL_DT < d then calPend s4 a none else s4

/-- The step of a head ends: counted, and the calibration with its last head. -/
def calStepEnd (s : State) (j : CalJob) : State :=
  let bad := j.failed.contains (j.heads.headD 0)
  let s0 := if bad || j.verify then s else calTaps s j.act (j.heads.headD 0)
  let s1 := count s0 (THM_CNT 3) 1 .thm THM_EVT_SAT
  let s2 := if bad then count s1 (THM_CNT 4) 1 .thm THM_EVT_SAT else s1
  let j1 := { j with heads := j.heads.tail, item := 0, saved := [] }
  if j1.heads = [] then calFinish s2 j1
  else setBgw s2 fun b => { b with jobs := b.jobs.map fun x => if x.act = j.act then j1 else x }

/-- A calibration item of slice a ends (R358): its values are stored or undone, and the next item or head follows. -/
def calItemDone (s : State) (a : Fin 64) (j : CalJob) (good : Bool) (v1 v2 : BitVec 16) (widths : List (BitVec 16)) : State :=
  let h := j.heads.headD 0
  let found := calDrive s (a / 2) (12 * (a.val % 2) + h) (mechBand s (a / 2)) widths
  let pass := if j.item = 3 then found.isSome else good
  let s1 := if pass then itemPass s a h j.item v1.toNat v2.toNat j.verify
    else itemFail (forAll j.saved s fun s r => wr s r.1 r.2) a h j.item
  let s2 := if j.item = 3 ∧ !j.verify ∧ fbit s1 (AST_CALCMD (a / 2)) AST_CALCMD_GO then
    calEnd s1 (a / 2) found v2.toNat else s1
  let j1 := { j with failed := if pass ∨ j.failed.contains h then j.failed else h :: j.failed }
  if j.item < 2 ∨ (j.item = 2 ∧ hasAssist s2 a h) then itemStart s2 j1 (j.item + 1) else calStepEnd s2 j1

/-- CALIBRATION_ITEM_DONE (R357, R358): the item that runs on an actuator passes with the values found, or fails and the
saved values are restored; the written widths decide item 3 (R216). -/
def execCalibrationItemDone (a : Fin 64) (pass : Bool) (v1 v2 : BitVec 16) (widths : List (BitVec 16)) (s : State) : Res :=
  .next (match s.bgw.jobs.find? fun j => j.act == a.val with
    | none => s
    | some j =>
      if j.item = 0 then s
      else calItemDone s a j pass v1 v2 widths)

/-- CALIBRATE_ACTUATOR (R362): admin command 0xE9, the only request that raises a wake demand (R356); an actuator or head
that does not exist is out of range. -/
def execCalibrateActuator (x : HPort) (cid : BitVec 16) (a : BitVec 6) (one : Bool) (h : BitVec 4) (s : State) : Res :=
  .next (adminCmd s x fun s =>
    let hs := headsOf s (a.toNat / 2) (a.toNat % 2)
    if claimed s baseBGW then claimHeld s (portId x) cid.toNat
    else if hs = [] ∨ (one ∧ !hs.contains h.toNat) then invalidField s (portId x) cid.toNat
    else
      let s1 := calPend s a.toNat (some (if one then some h.toNat else none, some (portId x, cid.toNat)))
      match actUnit s1 a.toNat with
      | some u => wakeDemand s1 u
      | none => s1)

/-- A write of a word of BGW_CALQ (R355): each bit set makes a calibration pending. -/
def calqWrite (s : State) (hi : Bool) (w : Word) : State :=
  forAll (rangeFrom 0 32) s fun s i => if bitOf w i then calPend s (32 * b2n hi + i) none else s

/-- CALQ_WRITE (R355). -/
def execCalqWrite (m : Master) (hi : Bool) (value : Word) (s : State) : Res :=
  .next (regWrite s m (BGW_CALQ_LO + 4 * b2n hi) fun s => calqWrite s hi value)

/-! ### Work units (Table 14-1) -/

/-- A media task runs. -/
def taskRuns (s : State) (t : Nat) : Bool := fbit s (BGW_TASK_CTRL t) BGW_TASK_CTRL_RUN

/-- A non-media task may work: enabled, and the mode runs tasks (R347). -/
def coreTask (s : State) (t : Nat) : Bool :=
  fbit s (BGW_TASK_CTRL t) BGW_TASK_CTRL_EN && taskUnits s t != 0 && decide (2 ≤ mode s) && mode s != 0xB &&
    (t != 224 || fbit s MEP_CTRL MEP_CTRL_PATROL_EN)

/-- TASK_UNIT_SCRUB (R344): one zone was read with class-2 decodes. -/
def execTaskUnitScrub (a : Fin 64) (ok : Bool) (s : State) : Res := .next (if taskRuns s a then unitEnd s a ok else s)

/-- Item 1 or 2 of a CAL unit's head. -/
def unitItem (s : State) (a h item : Nat) (pass : Bool) (v1 v2 : Nat) : State :=
  if pass then itemPass s a h item v1 v2 false else itemFail s a h item

/-- TASK_UNIT_CAL (R344, R355): one head goes through Table 14-4 in the task's own time; the values found by each item. -/
def execTaskUnitCal (a : Fin 64) (pass : BitVec 2) (gain dt wref rref : BitVec 16) (widths : List (BitVec 16)) (mon : BitVec 16)
    (s : State) : Res :=
  .next (let t := 64 + a.val
    if !taskRuns s t then s
    else
      let hs := headsOf s (a / 2) (a % 2)
      let h := hs.getD (fget s (BGW_TASK_PROG t) BGW_TASK_PROG_UNITS % max 1 hs.length) 0
      let s1 := unitItem s a h 1 (pass.getLsbD 0) gain.toNat dt.toNat
      let s2 := unitItem s1 a h 2 (pass.getLsbD 1) wref.toNat rref.toNat
      let q := 12 * (a.val % 2) + h
      let found := calDrive s2 (a / 2) q (mechBand s2 (a / 2)) widths
      let s3 := if !hasAssist s2 a h then s2
        else
          let t := calStart s2 (a / 2) q (mechBand s2 (a / 2))
          calEnd (if found.isSome then t else itemFail t a h 3) (a / 2) found mon.toNat
      let s4 := count s3 (THM_CNT 3) 1 .thm THM_EVT_SAT
      let bad := pass.toNat % 4 != 3 || (hasAssist s a h && found.isNone)
      unitEnd (if bad then count s4 (THM_CNT 4) 1 .thm THM_EVT_SAT else s4) t true)

/-- A staged extent has been written home (R238): it waits for the journal entry with the new MWP. -/
def moveHome (s : State) (x : Staged) : State :=
  let s1 := setZmp s fun z => { z with staged := z.staged.map fun y => if y.eseq = x.eseq then { y with moved := true } else y }
  cleanExt (extentHome s1 x.ext) x.ext

/-- TASK_UNIT_MOVE (R238): 1 MiB of staged extents is written home in zone order, lowest LBA first; those written before
their zone's reset mark are released unmoved. In SAFE the mover stops with what it moved still staged (Table 9-3). -/
def execTaskUnitMove (p : Fin 32) (ok : Bool) (s : State) : Res :=
  .next (let t := 128 + p.val
    if !taskRuns s t || !fbit s ZMP_CTRL ZMP_CTRL_MOVER_EN then s
    else if !ok ∨ inSafe s then unitEnd s t false
    else
      let s1 := releaseMoved s []
      let xs := (firstMib (fun x : Staged => x.ext.count) (stagedFor s1 p) 0).filter fun x => homeWritable s1 x.ext
      unitEnd (forAll xs s1 moveHome) t true)

/-- A zone has staged data below an LBA that is not yet home: its tracks cannot be written in zone order from there. -/
def stagedBefore (s : State) (e : Ext) : Bool :=
  s.zmp.staged.any fun x => !x.moved && x.ext.nsid == e.nsid && x.ext.zone == e.zone && decide (x.ext.lba < e.lba)

/-- A dirty extent goes home directly, or is staged (R237); the mirror's copy is released with it (R389). Data with a sector that
waits for its final status stay in the buffer (R171, R173). -/
def destageExt (s : State) (e : Ext) : State :=
  if writePending s e then s
  else if homeWritable s e && !stagedBefore s e then
    cleanExt (extentHome (releaseDirty s (· == e)) e) e
  else stageExtent s e (copyCount s e.nsid) false

/-- A dirty extent is destaged, but for its poisoned lines (R292). -/
def destage (s : State) (e : Ext) : State :=
  let s1 := sweepExt s e
  forAll (s1.zmp.dirty.filter fun d => d.nsid == e.nsid && isCommitted d && decide (e.lba ≤ d.lba) &&
    decide (d.lba + d.count ≤ e.lba + e.count)) s1 destageExt

/-- TASK_UNIT_DESTAGE (R237): 1 MiB of dirty data, oldest first. -/
def execTaskUnitDestage (p : Fin 32) (ok : Bool) (s : State) : Res :=
  .next (let t := 160 + p.val
    if !taskRuns s t then s
    else if !ok then unitEnd s t false
    else unitEnd (forAll (firstMib (fun e : Ext => e.count) (dirtyOn s p) 0) s destage) t true)

/-- WEAR of a head-load account, and what 100 brings (R361). -/
def headWear (s : State) (a : Nat) : State :=
  let budget := rdN s (BGW_WEAR_W2 a)
  let w := if budget = 0 then 0 else min 255 (100 * fget s (BGW_WEAR_W0 a) fCNT / budget)
  let s1 := fset s (BGW_WEAR_W1 a) BGW_WEAR_W1_WEAR w
  match actUnit s1 a with
  | some u => if 100 ≤ w then gradeUnit s1 u 2 0x64 else s1
  | none => s1

/-- TASK_UNIT_WEAR (R344): one head's accounts are brought up to date. -/
def execTaskUnitWear (p : Fin 32) (s : State) : Res :=
  .next (let t := 192 + p.val
    if !taskRuns s t then s
    else
      let qs := (surfHeads s p).map (·.1)
      let q := qs.getD (fget s (BGW_TASK_PROG t) BGW_TASK_PROG_UNITS % max 1 qs.length) 0
      unitEnd (headWear (wearUpdate s p q) (2 * p + q / 12)) t true)

/-- TASK_UNIT_PATROL (R344, R288): 1 MiB of DRAM was read; the errors found. -/
def execTaskUnitPatrol (errs : List MemErr) (s : State) : Res :=
  .next (if coreTask s 224 then unitEnd (foundErrors s errs) 224 true else s)

/-- The margin check of a block (R436): a corrected normal read is counted; a block whose reads differ, or needed
correction, is rewritten, or of the active firmware area, reported. -/
def flashCheck (s : State) (b : Nat) (differ ce : Bool) : State :=
  let s1 := if ce then evtSet (count s (FLS_CNT 5) 1 .fls FLS_EVT_SAT) .fls FLS_EVT_RD_CE else s
  if !(differ || ce) then s1
  else if activeFwBlock s1 b then rootGrade s1 1 0xE2
  else if claimed s1 baseFLS then s1
  else storeBlocks s1 b 1

/-- TASK_UNIT_FLASH (R436). -/
def execTaskUnitFlash (differ ce : Bool) (s : State) : Res :=
  .next (if coreTask s 225 then
      unitEnd (flashCheck s (fget s (BGW_TASK_PROG 225) BGW_TASK_PROG_UNITS % 512) differ ce) 225 true
    else s)

/-- TASK_UNIT_TELEM (R344): the front-end status of one port is read over the side-band. -/
def execTaskUnitTelem (s : State) : Res :=
  .next (if coreTask s 226 then
      let ps := s.trs.bound
      let p := ps.getD (fget s (BGW_TASK_PROG 226) BGW_TASK_PROG_UNITS % max 1 ps.length) 0
      unitEnd (if sbUsable s p && !claimed s (baseTTH p) && !tsbHas s p 10 then tsbRead s p 10 0x0220 4 else s) 226 true
    else s)

/-! ### Policies (R336, R337) -/

/-- The firmware sets the policies of a mechanism: bound, its token held, no claim and no override. -/
def policyActs (s : State) (p : Nat) : Bool :=
  isBound s p && tokenMine s p && !claimed s (baseSPN p) && !(spnOf s p).override

/-- Queued reads on the mechanism of port `p` (R336). -/
def readsQueued (s : State) (p : Nat) : Bool :=
  s.host.cmds.any fun c => isRead c && (lbaPorts s c.nsid c.slba).contains p

/-- The step a policy targets for a load of `u` percent; in INGEST one that allows writing (Table 13-4). -/
def targetStep (s : State) (p u : Nat) (pr : PowerRec) : Nat :=
  if pr.pflags % 2 = 0 ∨ (mode s = 5 ∧ readsQueued s p) then pr.maxStep
  else
    let ok := (rangeFrom pr.maxStep (pr.minStep + 1 - pr.maxStep)).filter fun i =>
      decide (speed s p * u ≤ stepSpeed s p i * 80) && (mode s != 4 || ((speedTable s p)[i]?).any (·.writeOk))
    (ok.getLast?).getD pr.maxStep

/-- Ask for a step as SPN_CTRL records it. -/
def policyStep (s : State) (p i : Nat) : State :=
  if fget s (SPN_CTRL p) SPN_CTRL_STEP = i then s else askStep (fset s (SPN_CTRL p) SPN_CTRL_STEP i) p i

/-- The speed policy of a mechanism in RUN (R336): a faster step at once, a slower one after ten 1 s evaluations. -/
def speedPolicy (s : State) (p u : Nat) (pr : PowerRec) : State :=
  if spnState s p ≠ 5 then s
  else
    let t := targetStep s p u pr
    let cur := fget s (SPN_CTRL p) SPN_CTRL_STEP
    if stepSpeed s p t = 0 then s
    else if t ≤ cur then policyStep (setSpn s p fun x => { x with polCount := 0 }) p t
    else if (spnOf s p).polSec = uptime s / 1000 then s
    else
      let x := spnOf s p
      let n := if x.polTarget = t ∧ x.polCount ≠ 0 then x.polCount + 1 else 1
      let s1 := setSpn s p fun x => { x with polTarget := t, polCount := n, polSec := uptime s / 1000 }
      if 10 ≤ n then policyStep (setSpn s1 p fun x => { x with polCount := 0 }) p t else s1

/-- Surfaces of the mechanism serve, and none is waking (Table 1-3). -/
def servesNow (s : State) (p : Nat) : Bool :=
  let st := (surfsOf s p).map (uState s)
  st.any (fun x => x == 3 || x == 4) && !st.contains 2

/-- The sleep policy (R336): no media work for IDLE_S, no command in flight, no wake demand, no stop under way; an IDLE_S
of 0 never sleeps (R50). -/
def sleepPolicy (s : State) (p : Nat) (u : Nat) (pr : PowerRec) : State :=
  let idle := uptime s - (uAux s u).lastWork
  if pr.pflags / 2 % 2 = 1 ∧ pr.idleS ≠ 0 ∧ availState (uState s u) ∧ servesNow s p ∧ pr.idleS * 1000 ≤ idle ∧
      !(spnOf s p).wantStop ∧
      !(uAux s u).wakeWanted ∧ !mechInFlight s p ∧ !(s.bal.held.any fun h => h.1 == p) then
    askStop (fset s (SPN_CTRL p) SPN_CTRL_REQ 0) p false
  else s

/-- The policies of the mechanism on port `p`, with its load in percent. -/
def portPolicy (s : State) (p load : Nat) : State :=
  match mechUnit s p with
  | none => s
  | some u =>
    let s1 := if load = 0 then s else setAux s u fun x => { x with lastWork := uptime s }
    let pr := powerRec s1 u
    if policyActs s1 p then sleepPolicy (speedPolicy s1 p (min 100 load) pr) p u pr else s1

/-- A mechanism whose wake was demanded is asked to spin up, at the fastest step its policy has (R336, R337); the demand
stays in line while the policy's spin-ups are all taken. -/
def wakeSpin (s : State) (v : Nat) : State :=
  match (unitRec s v).map (·.loc) with
  | none => s
  | some p =>
    let done := { s with pwr := { s.pwr with wakes := s.pwr.wakes.filter (· != v) } }
    let st := spnState s p
    if !(uAux s v).wakeWanted then done
    else if st = 0 ∨ st = 7 ∨ st = 8 then
      if policyActs s p ∧ policyOpen s p then
        let i := (powerRec s v).maxStep
        askRun (fset (fset done (SPN_CTRL p) SPN_CTRL_REQ 1) (SPN_CTRL p) SPN_CTRL_STEP i) p
      else s
    else if st = 5 then loadHeads (setSpn done p fun x => { x with wantStop := false }) p
    else done

/-- EFF_POLICY of every unit follows the POLICY fields as they stand when an evaluation starts (R35). -/
def policiesTaken (s : State) : State :=
  forAll ((subtree s 0).filter (uUsed s)) s fun t u =>
    fset t (TRS_UNIT_FACE u) TRS_UNIT_FACE_EFF_POLICY (effPolicy s u)

/-- POWER_POLICY_EVALUATION (R35, R336): the effective policies are taken; then each mechanism is judged by its own, with its
load of the last second in percent. -/
def execPowerPolicyEvaluation (loads : List (BitVec 7)) (s0 : State) : Res :=
  .next (let s := policiesTaken s0
    if inSafe s ∨ mode s < 2 ∨ !isActiveRole s then s
    else
      let s1 := forAll (rangeFrom 0 32) s fun s p => portPolicy s p ((loads.map (·.toNat)).getD p 0)
      let s2 := forAll s1.pwr.wakes s1 wakeSpin
      forAll (rangeFrom 0 32) s2 fun s p => if (spnOf s p).ovrWait && !switching s p then overrideSwitch s p else s)

end Sys2Proof.Machine
end

