-- ==== Sys2Proof/Machine/Cipher.lean ====
section
/-! DEFINITION. What protects a firmware image (R397, R398): AES-256 in Galois/counter mode under a key that HMAC-SHA-256 derives from
the family root, and the signature over the header and the plaintext by a public key that the image carries. -/
namespace Sys2Proof.Machine
open Sys2Proof

/-! ### AES-256 -/

/-- Two lists of bytes, added. -/
def xorBytes (a b : List Nat) : List Nat := a.zipWith (· ^^^ ·) b

/-- The product of `a` and the lowest `n` bits of `b` in the field of AES. -/
def aesMul : Nat → Nat → Nat → Nat
  | 0, _, _ => 0
  | n + 1, a, b =>
    let d := if a < 128 then 2 * a else (2 * a) ^^^ 0x11B
    (if b % 2 = 1 then a else 0) ^^^ aesMul n d (b / 2)

/-- The power of an element whose exponent is 2ⁿ⁺¹ − 2: with n = 7 the inverse, and 0 of 0. -/
def aesPow : Nat → Nat → Nat
  | 0, _ => 1
  | n + 1, x => let q := aesMul 8 x x; aesMul 8 q (aesPow n q)

/-- The substitution of a byte. -/
def aesSub (x : Nat) : Nat :=
  let i := aesPow 7 x
  let rot := fun k => (i * 2 ^ k + i / 2 ^ (8 - k)) % 256
  i ^^^ rot 1 ^^^ rot 2 ^^^ rot 3 ^^^ rot 4 ^^^ 0x63

/-- The words of the key schedule, newest first, after `n` more of them; `i` is the number of the next one. -/
def aesExpand : Nat → Nat → List (List Nat) → List (List Nat)
  | 0, _, w => w
  | n + 1, i, w =>
    let t := w.headD []
    let t1 := if i % 8 = 0 then xorBytes ((t.drop 1 ++ t.take 1).map aesSub) [2 ^ (i / 8 - 1), 0, 0, 0]
      else if i % 8 = 4 then t.map aesSub else t
    aesExpand n (i + 1) (xorBytes (w.getD 7 []) t1 :: w)

/-- The fifteen round keys of a key of 32 bytes. -/
def aesKeys (key : List Nat) : List (List Nat) :=
  let w := (aesExpand 52 8 ((rangeFrom 0 8).map fun i => (key.drop (4 * i)).take 4).reverse).reverse
  (rangeFrom 0 15).map fun r => ((w.drop (4 * r)).take 4).flatten

/-- A block after the substitution and the shift of its rows. -/
def aesShift (b : List Nat) : List Nat :=
  let t := b.map aesSub
  (rangeFrom 0 16).map fun i => t.getD (i % 4 + 4 * ((i / 4 + i % 4) % 4)) 0

/-- A block after the mix of its columns. -/
def aesMix (b : List Nat) : List Nat :=
  (rangeFrom 0 16).map fun i =>
    let x := fun k => b.getD (i / 4 * 4 + (i + k) % 4) 0
    aesMul 2 (x 0) 2 ^^^ aesMul 2 (x 1) 3 ^^^ x 2 ^^^ x 3

/-- A block enciphered under the round keys. -/
def aesBlock (ks : List (List Nat)) (b : List Nat) : List Nat :=
  let mid := (ks.drop 1).dropLast.foldl (fun b k => xorBytes (aesMix (aesShift b)) k) (xorBytes b (ks.headD []))
  xorBytes (aesShift mid) (ks.getLastD [])

/-! ### Galois/counter mode -/

/-- `z` plus the product of `v` and the last `n` bits of `x` in GCM's field of 2¹²⁸ elements, the first bit of a block being the
coefficient of 1. -/
def ghashMul : Nat → Nat → Nat → Nat → Nat
  | 0, _, _, z => z
  | n + 1, x, v, z =>
    let z1 := if x / 2 ^ n % 2 = 1 then z ^^^ v else z
    ghashMul n x (if v % 2 = 1 then v / 2 ^^^ 0xE1 * 2 ^ 120 else v / 2) z1

/-- GHASH over `n` blocks of 16 bytes. -/
def ghash (h : Nat) : Nat → List Nat → Nat → Nat
  | 0, _, y => y
  | n + 1, m, y => ghash h n (m.drop 16) (ghashMul 128 (y ^^^ beNat (m.take 16)) h 0)

/-- Zeros up to a whole number of blocks. -/
def padBlock (m : List Nat) : List Nat := m ++ List.replicate ((16 - m.length % 16) % 16) 0

/-- The tag of a ciphertext with additional data, under a key and an IV of 12 bytes. -/
def gcmTag (key iv aad ct : List Nat) : List Nat :=
  let ks := aesKeys key
  let m := padBlock aad ++ padBlock ct ++ beBytes 8 (8 * aad.length) ++ beBytes 8 (8 * ct.length)
  let h := beNat (aesBlock ks (List.replicate 16 0))
  xorBytes (beBytes 16 (ghash h (m.length / 16) m 0)) (aesBlock ks (iv ++ [0, 0, 0, 1]))

/-- The plaintext of a ciphertext. -/
def gcmPlain (key iv ct : List Nat) : List Nat :=
  let ks := aesKeys key
  ((rangeFrom 0 ((ct.length + 15) / 16)).flatMap fun i =>
    xorBytes ((ct.drop (16 * i)).take 16) (aesBlock ks (iv ++ beBytes 4 (i + 2))))

/-! ### The key ladder and the signature of an image -/

/-- HMAC-SHA-256 under a key of at most 64 bytes. -/
def hmac (key m : List Nat) : List Nat :=
  let k := key ++ List.replicate (64 - key.length) 0
  sha256 (k.map (· ^^^ 0x5C) ++ sha256 (k.map (· ^^^ 0x36) ++ m))

/-- The image key (R397): HMAC-SHA-256(K_FAM, "QNFW" ‖ ENC_KEY_ID ‖ SVN). -/
def imageKey (encKeyId svn : Nat) : List Nat := hmac (beBytes 32 Config.kFam) [0x51, 0x4E, 0x46, 0x57, encKeyId, svn]

/-- The parts of an image (R398): header, ciphertext, GCM tag, signature block. -/
def fwHeader (f : List Nat) : List Nat := f.take 128
def fwBody (f : List Nat) : List Nat := (f.drop 128).take (f.length - 276)
def fwTag (f : List Nat) : List Nat := (f.drop (f.length - 148)).take 16
def fwSig (f : List Nat) : List Nat := f.drop (f.length - 132)

/-- The key of an image by its header's ENC_KEY_ID and SVN. -/
def fwKeyOf (f : List Nat) : List Nat := imageKey (f.getD 0x12 0) (f.getD 0x10 0)

/-- The GCM tag of an image holds, with NONCE as the IV and the header as additional data (R398). -/
def fwTagOk (f : List Nat) : Bool := gcmTag (fwKeyOf f) ((f.drop 0x1C).take 12) (fwHeader f) (fwBody f) == fwTag f

/-- The signature block of an image holds (R397, R398): ALG, KEY_SLOT and SIG_LEN, a public key with its fused hash, and a signature over
the header and the plaintext. -/
def fwSigOk (f : List Nat) : Bool :=
  let b := fwSig f
  let key := (b.drop 4).take 64
  let plain := gcmPlain (fwKeyOf f) ((f.drop 0x1C).take 12) (fwBody f)
  b.take 4 == [0x01, f.getD 0x11 0, 0x00, 0x80] && beNat (sha256 key) == Config.fwKeyHash (f.getD 0x11 0) &&
    ecdsaOk (beNat (key.take 32), beNat (key.drop 32)) (beNat (sha256 (fwHeader f ++ plain))) (beNat ((b.drop 68).take 32))
      (beNat ((b.drop 100).take 32))

end Sys2Proof.Machine
end

