-- ==== Sys2Proof/Machine/Thermal.lean ====
section
/-! DEFINITION. Temperature: readings, bands, throttle levels, the B5 unload and the die limits (R351 to R354). -/
namespace Sys2Proof.Machine
open Sys2Proof

/-- A reading in 0.1 °C is valid (R351): −40 °C to 150 °C. -/
def tempValid (t : Int) : Bool := decide (-400 ≤ t ∧ t ≤ 1500)

/-- A sensor fault is raised and counted. -/
def sensorFault (s : State) : State := evtSet (count s (THM_CNT 5) 1 .thm THM_EVT_SAT) .thm THM_EVT_SENSOR_FAULT

/-- The band edges in use (R352). -/
def bandEdges (s : State) : List Int := (rangeFrom 0 5).map fun b => sgn 16 (fget s (THM_BAND_LIM b) THM_BAND_LIM_EDGE)

/-- The band that follows `cur` at temperature `t`. -/
def nextBand (s : State) (cur : Nat) (t : Int) : Nat := bandOf (bandEdges s) (fget s THM_HYST THM_HYST_HYST) cur t

/-- The events and the count of a band change. -/
def bandEvents (s : State) (old new : Nat) : State :=
  if old = new then s
  else
    let s1 := evtSet (count s (THM_CNT 0) 1 .thm THM_EVT_SAT) .thm (if old < new then THM_EVT_BAND_UP else THM_EVT_BAND_DOWN)
    if new = 5 then evtSet s1 .thm THM_EVT_B5 else s1

/-- A die sensor is at or above DIE_HOT. -/
def dieHot (s : State) : Bool := decide (sgn 16 (fget s THM_CTRL THM_CTRL_DIE_HOT) ≤ sgn 16 (fget s THM_STAT THM_STAT_DIE_MAX))

/-- The throttle level of a mechanism (R353, R354): its band's, 3 in B5, at least 2 with a hot die. -/
def mechLevel (s : State) (p : Nat) : Nat :=
  let b := fget s (THM_MECH_W0 p) THM_MECH_W0_BAND
  let l := if b = 5 then 3 else min 3 (fget s THM_THR_MAP THM_THR_MAP_MAP / 16 ^ b % 16)
  if dieHot s then max 2 l else l

/-- The level in force of a mechanism follows; THROTTLE is raised as it rises. -/
def syncLevel (s : State) (p : Nat) : State :=
  let old := fget s (THM_MECH_W0 p) THM_MECH_W0_LEVEL
  let new := mechLevel s p
  let s1 := fset s (THM_MECH_W0 p) THM_MECH_W0_LEVEL new
  if old < new then evtSet s1 .thm THM_EVT_THROTTLE else s1

/-- A mechanism's band changes: since when it is in B5, and at B4 or lower its unload for heat is over (R353). -/
def setMechBand (s : State) (p b : Nat) : State :=
  let old := fget s (THM_MECH_W0 p) THM_MECH_W0_BAND
  let s1 := bandEvents (fset s (THM_MECH_W0 p) THM_MECH_W0_BAND b) old b
  let s2 := setBgw s1 fun x =>
    { x with b5Since := if b = 5 then (if x.b5Since.any fun y => y.1 == p then x.b5Since else tabPut x.b5Since p (uptime s1))
                        else tabDel x.b5Since p,
             hot := if b = 5 then x.hot else x.hot.filter (· != p) }
  let s3 := match mechUnit s2 p with
    | some u => if b = 5 then s2 else ungradeUnit s2 u 0xB1
    | none => s2
  syncLevel (portRefs s3 p) p

/-- A source gives a valid reading (R351). -/
def readNow (s : State) (k : Nat) : State :=
  setBgw s fun b => { b with readAt := tabPut b.readAt k (uptime s), lost := b.lost.filter (· != k) }

/-- The mechanism has a valid base reading. -/
def baseValid (s : State) (p : Nat) : Bool := (s.bgw.readAt.any fun x => x.1 == 12 + p) && !s.bgw.lost.contains (12 + p)

/-- The band of a mechanism follows its base reading; without one it is B4 (R352). -/
def mechTemp (s : State) (p : Nat) : State :=
  if baseValid s p then
    setMechBand s p (nextBand s (fget s (THM_MECH_W0 p) THM_MECH_W0_BAND) (sgn 16 (fget s (THM_MECH_W0 p) THM_MECH_W0_TEMP)))
  else setMechBand s p 4

/-- A temperature move beyond CAL_DT makes the calibrations of a mechanism pending (R355). -/
def calTrigger (s : State) (p : Nat) : State :=
  if !fbit s THM_CTRL THM_CTRL_AUTO_CAL || !isBound s p || !baseValid s p then s
  else forAll (actsOf s p) s fun s a =>
    let d := absI (sgn 16 (fget s (THM_MECH_W0 p) THM_MECH_W0_TEMP) - sgn 16 (fget s (THM_ACT a) THM_ACT_T_CAL))
    if fget s THM_CTRL THM_CTRL_CAL_DT < d ∧ !calPending s a then calPend s a none else s

/-- A reading of an external sensor; an invalid one is ignored (R351). -/
def extSample (s : State) (i : Nat) (t : BitVec 16) : State :=
  if tempValid (tempOf t) then readNow (fset (fsetb s (THM_EXT i) THM_EXT_VALID true) (THM_EXT i) THM_EXT_TEMP t.toNat) i
  else sensorFault s

/-- The valid inputs of the device band (R352). -/
def deviceInputs (s : State) : List Int :=
  ((rangeFrom 0 12).filter fun i => fbit s (THM_EXT i) THM_EXT_VALID && fget s (THM_EXT i) THM_EXT_ASSIGN == 1).map fun i =>
    sgn 16 (fget s (THM_EXT i) THM_EXT_TEMP)

/-- The device band follows its highest valid input; B3 without one. -/
def deviceBand (s : State) : State :=
  let old := fget s THM_STAT THM_STAT_DEV_BAND
  let new := match deviceInputs s with
    | [] => 3
    | t :: l => nextBand s old (l.foldl max t)
  bandEvents (fset s THM_STAT THM_STAT_DEV_BAND new) old new

/-- THROTTLE is raised as the fetch throttle level rises from what it was. -/
def fetchRise (old : Nat) (s : State) : State := if old < fetchLevel s then evtSet s .thm THM_EVT_THROTTLE else s

/-- TEMP_SAMPLE (R351 to R355): the readings of TD0 to TD7 and THM0 to THM3 in order, then every band. -/
def execTempSample (temps : List (BitVec 16)) (s : State) : Res :=
  .next (let s1 := forAll ((rangeFrom 0 12).zip temps) s fun s x => extSample s x.1 x.2
    forAll (rangeFrom 0 32) (fetchRise (fetchLevel s) (deviceBand s1)) fun s p => calTrigger (mechTemp s p) p)

/-- MECH_TEMP_RECORD (R351): telemetry record 0x25 of a bound mechanism: INDEX 0 front-end die, 1 mechanism base. -/
def execMechTempRecord (p : Fin 32) (index : BitVec 8) (temp : BitVec 16) (s : State) : Res :=
  .next (if index ≠ 0 ∧ index ≠ 1 then s
    else if !tempValid (tempOf temp) then sensorFault s
    else if index = 0 then readNow (fset s (THM_MECH_W1 p) THM_MECH_W1_TEMP temp.toNat) (60 + p)
    else
      let s1 := readNow (fset s (THM_MECH_W0 p) THM_MECH_W0_TEMP temp.toNat) (12 + p)
      match mechUnit s1 p with
      | some u => ungradeUnit s1 u 0xB3
      | none => s1)

/-- A source has given no reading for 1 s and is not invalid already (R351). A front-end's sensors count while its mechanism is
bound; the external ones, which WATCH reads every 8 s, outside WATCH. -/
def timedOut (s : State) (k : Nat) : Bool :=
  let there := if k < 12 then mode s != 0 else if k < 44 then isBound s (k - 12) else if 60 ≤ k ∧ k < 92 then isBound s (k - 60) else true
  there && !s.bgw.lost.contains k && decide (tabGet 0 s.bgw.readAt k + 1000 ≤ uptime s)

/-- A source is invalid from now on (R351, R352): the device band follows the others, a mechanism without its base reading is in
B4 and graded. -/
def sourceLost (s : State) (k : Nat) : State :=
  let s1 := setBgw (sensorFault s) fun b => { b with lost := k :: b.lost }
  if k < 12 then deviceBand (fsetb s1 (THM_EXT k) THM_EXT_VALID false)
  else if k < 44 then
    let s2 := setMechBand s1 (k - 12) 4
    match mechUnit s2 (k - 12) with
    | some u => gradeUnit s2 u 1 0xB3
    | none => s2
  else s1

/-- SENSOR_TIMEOUT (R351): of a source by its number: 0 to 11 an external sensor, 12 + p the base sensor of port p, 44 + d a die
sensor, 60 + p a front-end die, 92 the DRAM die. -/
def execSensorTimeout (source : Fin 93) (s : State) : Res := .next (if timedOut s source then sourceLost s source else s)

/-- The die sensors are read (R353): a reading out of range is a sensor fault and leaves the last one. -/
def dieRead (s : State) (temps : List (BitVec 16)) : State :=
  forAll ((rangeFrom 0 16).zip temps) s fun s x =>
    if tempValid (tempOf x.2) then readNow (fset s (THM_DIE x.1) THM_DIE_TEMP x.2.toNat) (44 + x.1) else sensorFault s

/-- The hottest reading of the die sensors that are not invalid. -/
def dieTop (s : State) : Int :=
  let ts := ((rangeFrom 0 16).filter fun i => !s.bgw.lost.contains (44 + i)).map fun i => sgn 16 (fget s (THM_DIE i) THM_DIE_TEMP)
  ts.foldl max (ts.headD 0)

/-- The shelf root is graded for a hot die. -/
def dieGraded (s : State) : Bool := (uAux s 0).grades.contains (1, 0xB2)

/-- DIE_MAX and the trip's count follow the hottest reading (R353); crossing the hot limit is graded and reported. -/
def dieJudge (s : State) : State :=
  let s1 := setBgw (fset s THM_STAT THM_STAT_DIE_MAX (unsgn 16 (dieTop s))) fun b =>
    { b with dieTrip := if 1250 ≤ dieTop s then b.dieTrip + 1 else 0 }
  if dieHot s1 = dieGraded s then s1
  else if dieHot s1 then rootGrade (evtSet s1 .thm THM_EVT_DIE_HOT) 1 0xB2 else ungradeUnit s1 0 0xB2

/-- DIE_TEMP_SAMPLE (R353): the sixteen die sensors; invalid readings are ignored. -/
def execDieTempSample (temps : List (BitVec 16)) (s : State) : Res :=
  .next (forAll (rangeFrom 0 32) (fetchRise (fetchLevel s) (dieJudge (dieRead s temps))) syncLevel)

/-- A media command runs on the mechanism of port `p`: a sector is read or a formatter instruction runs (R347, R353). -/
def mediaRuns (s : State) (p : Nat) : Bool :=
  (s.det.sectors.any fun x => x.lane / 8 == p) || (actsOf s p).any fun a => (fseqOf s a).cur.isSome

/-- A mechanism in thermal band 5 (R353): its calibrations are abandoned, it is unloaded and stopped, and graded 2. -/
def hotUnload (s : State) (p : Fin 32) : State :=
  let s1 := setBgw (abandonCal s [2 * p, 2 * p + 1]) fun b => { b with hot := p.val :: b.hot }
  let s2 := moveSurfs s1 p [2, 3, 4] 1
  let s3 := if requestPasses s2 p 0 then doStop s2 p false
    else holdRequest (if anyLoaded s2 p then unloadHeads s2 p false else s2) p 1 0
  match mechUnit s3 p with
  | some u => gradeUnit (setAux s3 u fun x => { x with wakeWanted := false }) u 2 0xB1
  | none => s3

/-- MECH_B5_UNLOAD (R353), at a command boundary: after 60 s in B5 or at 75 °C the heads are unloaded and the unit goes
ASLEEP; a calibration step is abandoned (Table 14-6), and the stop waits as R315 lays down. -/
def execMechB5Unload (p : Fin 32) (s : State) : Res :=
  .next (match s.bgw.b5Since.find? fun x => x.1 == p.val with
    | none => s
    | some x =>
      if s.bgw.hot.contains p.val || mediaRuns s p || (decide (uptime s < x.2 + 60000) &&
          decide (sgn 16 (fget s (THM_MECH_W0 p) THM_MECH_W0_TEMP) < 750)) then s
      else hotUnload s p)

end Sys2Proof.Machine
end

