-- ==== Sys2Proof/Machine/Truss.lean ====
section
/-! DEFINITION. Loading a truss image: staging, Truss Commit, the loader's commands, the switch, the partner's agreement,
the fence, and the loader's guarded registers (R53 to R66). -/
namespace Sys2Proof.Machine
open Sys2Proof

/-- The bytes of the staging window from offset 0. -/
def stagedBytes (s : State) (len : Nat) : List Nat :=
  ((rangeFrom 0 ((len + 3) / 4)).flatMap fun w => leBytes 4 (rdN s (TRS_STAGE w))).take len

/-- The staging window reads zero. -/
def zeroStage (s : State) : State := clearRange s (TRS_STAGE 0) (TRS_STAGE 65536)

/-- Place words in the staging window from word `w` on; what falls outside is dropped. -/
def placeWords (s : State) : Nat → List Word → State
  | _, [] => s
  | w, d :: ds => placeWords (if w < 65536 then wr s (TRS_STAGE w) d else s) (w + 1) ds

/-- The loader runs, or a Truss Commit waits. -/
def loaderBusy (s : State) : Bool := fbit s TRS_LD_STAT TRS_LD_STAT_BUSY || s.trs.waiting.isSome

/-! ### The switch -/

/-- The entry of a unit of structure `t` is written to the table; `was` tells that the entry held the unit before. The
EVT bits are settled at the end of the switch. -/
def writeEntry (t : Truss) (us : List (Nat × Nat × Nat)) (full : Bool) (s : State) (x : Nat × Nat × Nat) : State :=
  let u := x.1
  let was := uUsed s u && uKind s u == x.2.2
  let r := t.units.find? fun r => r.uid == u
  let kids := us.filter fun y => y.2.1 == u
  let sibs := (us.filter fun y => y.2.1 == x.2.1).dropWhile fun y => y.1 != u
  let depth := (recPath us 16 u).length - 1
  let nsid := ((t.binds.find? fun b => b.uid == u).map (·.nsid)).getD 0
  let s1 := if was then s else clearRange s (TRS_UNIT_FACE u) (TRS_UNIT_FACE (u + 1))
  let s2 := fset (fset s1 (TRS_UNIT_FACE u) TRS_UNIT_FACE_KIND x.2.2) (TRS_UNIT_FACE u) TRS_UNIT_FACE_POLICY
    ((r.map (·.policy)).getD 0xF)
  let s3 := wrN s2 (TRS_UNIT_ZSIZE u) (recZsize t 16 u)
  let s4 := if x.2.2 = 4 ∧ was ∧ !full then s3 else wrN s3 (TRS_UNIT_CAP u) 0
  let s5 := fset (fset s4 (TRS_UNIT_LINK u) TRS_UNIT_LINK_PARENT x.2.1) (TRS_UNIT_LINK u) TRS_UNIT_LINK_FIRST_CHILD
    ((kids.head?.map (·.1)).getD 0xFFF)
  let s6 := fset (fset (fset s5 (TRS_UNIT_AUX u) TRS_UNIT_AUX_NSID nsid) (TRS_UNIT_AUX u) TRS_UNIT_AUX_DEPTH depth)
    (TRS_UNIT_AUX u) TRS_UNIT_AUX_NEXT_SIBLING (((sibs.drop 1).head?.map (·.1)).getD 0xFFF)
  let dead := !was || uState s u == 5 || uState s u == 6 || (uAux s u).own.isSome
  let retired := r.any (·.retired)
  let s7 := setAux s6 u fun a =>
    { (if dead then {} else a) with own := if retired then some 6 else if dead then none else a.own }
  if retired then fset s7 (TRS_UNIT_FACE u) TRS_UNIT_FACE_STATE 6
  else if dead then fset s7 (TRS_UNIT_FACE u) TRS_UNIT_FACE_STATE 0 else s7

/-- Settle the EVT bits of the covered units after a switch: kept, set where the entry is new or its STATE, GRADE or
CAP_ZONES changed against the old state (R34); source 4 rises with the first. -/
def settleEvt (old s : State) (ids : List Nat) : State :=
  let t := forAll ids s fun s u =>
    let was := uUsed old u
    let e := fbit old (TRS_UNIT_FACE u) TRS_UNIT_FACE_EVT || !was || uState old u != uState s u ||
      uGrade old u != uGrade s u || rdN old (TRS_UNIT_CAP u) != rdN s (TRS_UNIT_CAP u)
    fsetb s (TRS_UNIT_FACE u) TRS_UNIT_FACE_EVT e
  if anyUnitEvt t && !anyUnitEvt old then sourceRise t 4 else t

/-- The region of a unit record: its own, or its nearest ancestor's with one; 0 of the root (R50); `n` bounds the walk. -/
def recRegion (t : Truss) : Nat → UnitRec → Nat
  | 0, _ => 0
  | n + 1, u =>
    if u.region ≠ 0xFF then u.region
    else match t.units.find? fun x => x.uid == u.parent with
      | some v => recRegion t n v
      | none => 0

/-- The records of a binding's subtree, whose content R57 compares: with the REGION each unit takes, inherited or not. -/
def bindContent (t : Truss) (b : NsBind) : List UnitRec × List (List Nat) × List (Nat × Nat) :=
  let us := recSubtree t b.uid
  let recs := t.units.filter fun u => us.contains u.uid || (recGenerated t u).any fun g => g.1 == b.uid
  (recs, recs.flatMap (fun u => [sharedOf t 2 u.template, sharedOf t 3 (recRegion t 16 u)]),
   t.thatches.filter fun x => us.contains x.1)

/-- Zones and notices of a namespace at a switch from structure `o` to `n` (R57, R275). -/
def switchNs (o n : Truss) (s : State) (b : NsBind) : State :=
  match n.binds.find? fun x => x.nsid == b.nsid with
  | none => nsChanged (cacheDropNs s b.nsid) b.nsid b.ports
  | some c =>
    let same := c.uid == b.uid && bindContent o b == bindContent n c
    let s1 := if same then s else
      forAll (listedZones s b.nsid) (cacheDropNs s b.nsid) fun s z => zoneChanged (resetZone s b.nsid z) b.nsid z c.ports
    if !same || c.ports != b.ports || c.convMib != b.convMib then nsChanged s1 b.nsid (b.ports ||| c.ports) else s1

/-- The firmware writes a block's registers, unless an expert holds the block (R20). -/
def unlessClaimed (base : Nat) (f : State → State) (s : State) : State := if claimed s base then s else f s

/-- The registers that truss limits load (R84, R207, R345, R351, R384), at each value or default of Table 2-3. -/
def applyLimits (s : State) : State :=
  let s1 := unlessClaimed (baseSPN 0) (fun s => fset s SPN_SHELF_CTRL SPN_SHELF_CTRL_SPINUP_MAX (limitOf s 1 4)) s
  let s2 := unlessClaimed basePRT (fun s => fset s PRT_HB PRT_HB_TIMEOUT_US (limitOf s 3 1000)) s1
  let s3 := forAll (rangeFrom 0 32) s2 fun s p => unlessClaimed (baseTTH p) (fun s => setWdog s p (limitOf s 4 1000)) s
  let s4 := unlessClaimed baseTHM (fun s => fset s THM_CTRL THM_CTRL_CAL_DT (limitOf s 5 60)) s3
  unlessClaimed baseBGW (fun s => fset s BGW_CTRL BGW_CTRL_N_URG (limitOf s 6 8)) s4

/-- The DRAM layout follows the largest M of a full image (R286): with 4, region 2 is 1 GiB and ways 0 and 1 are withdrawn;
a change empties the cache. -/
def applyLayout (s : State) : State :=
  let big := decide (maxN (s.trs.run.thatches.map (·.2)) = 4)
  if fbit s BUF_LAYOUT BUF_LAYOUT_RGN2_1G = big then s
  else
    let s1 := fset (fsetb s BUF_LAYOUT BUF_LAYOUT_RGN2_1G big) CCH_GEOM CCH_GEOM_WAYS (if big then 0xFFFC else 0xFFFF)
    syncCache (setCch s1 fun c => { c with lines := [], fills := c.fills.map fun x => { x with frame := none, wb := false } })

/-- The patches of a full image replace both stores' (R374): all patch RAM zero, every match register invalid, then the
records. -/
def applyUcode (s : State) : State :=
  let s1 := clearRange (clearRange s (MCS_FPRAM 0) (MCS_FPRAM 1024)) (MCS_ZPRAM 0) (MCS_ZPRAM 2048)
  let s2 := clearRange (clearRange s1 (MCS_FMATCH 0) (MCS_FMATCH 16)) (MCS_ZMATCH 0) (MCS_ZMATCH 32)
  forAll s.trs.run.ucode s2 fun s x =>
    let f := x.target == 0
    let s1 := forAll ((rangeFrom 0 x.words.length).zip x.words) s fun s w =>
      wrN s ((if f then MCS_FPRAM else MCS_ZPRAM) (x.patchAddr - 0x8000 + w.1)) w.2
    if x.mtch = 0xFF then s1
    else
      let a := (if f then MCS_FMATCH else MCS_ZMATCH) x.mtch
      wrN s1 a (2 ^ 31 + x.romAddr * 2 ^ 16 + x.patchAddr)

/-- The firmware loads the BRIDLE_SET records into the set store of every engine that is not claimed, and sets their
SET_VALID bits (R196). -/
def loadBridles (s : State) (t : Truss) : State :=
  forAll ((rangeFrom 0 16).filter fun e => !claimed s (baseBRD e)) s fun s e =>
    forAll t.bridles s fun s b =>
      let q := b.2.1 * 256 + b.1
      if q < 1536 then
        forAll ((rangeFrom 0 16).zip b.2.2) (wbit s (BRD_SET_VALID e (q / 32)) (q % 32) true) fun s x => wrN s (BRD_STORE e q x.1) x.2
      else s

/-- The switch to structure `t` in one step (R38, R29, R57, R60, R255): the table, the bindings, the faces, the zones, the
limits and patches of a full image, TRS_UTAB_GEN, the running sequence, and the release of the fence. -/
def trussSwitch (s0 : State) (t : Truss) (full : Bool) (root : Nat) : State :=
  let o := s0.trs.run
  let oldIds := if full then (allUnits o).map (·.1) else wholeSubtree o root
  let us := allUnits t
  let newIds := if full then us.map (·.1) else wholeSubtree t root
  let gone := oldIds.filter fun u => !newIds.contains u
  let ids := newIds
  let s1 := forAll gone s0 fun s u => setAux (clearRange s (TRS_UNIT_FACE u) (TRS_UNIT_FACE (u + 1))) u fun _ => {}
  let s2 := forAll (us.filter fun x => ids.contains x.1) s1 (writeEntry t us full)
  let s3 := fsetb { s2 with trs := { s2.trs with run := t } } TRS_FENCE TRS_FENCE_FENCE false
  let s4 := if full then { s3 with zmp := { s3.zmp with fixedCap := [] } } else s3
  -- bindings: mechanisms of covered slots keep their state where the unit keeps its entry; held ones are tried again
  let keep := ids.filter fun u => uUsed s0 u && uKind s0 u == uKind s4 u && availState (uState s0 u)
  let covered := fun p => (mechUnit s4 p).any ids.contains
  let s5 := forAll (rangeFrom 0 32) s4 fun s p =>
    if !portUp s p then (if covered p || (mechUnit s p).isNone then unboundPort s p else s)
    else if covered p || rbit s TRS_UNBOUND p || (isBound s p && (mechUnit s p).isNone) then
      let s := if fget s (SPN_STAT p) SPN_STAT_STATE = 12 ∧ covered p then fset s (SPN_STAT p) SPN_STAT_STATE 0 else s
      let s := forAll (surfHeads s p) (unboundPort s p) fun s x =>
        if keep.contains x.2 then s else fsetb s (AST_WEAR_W2 p x.1) AST_WEAR_W2_RETIRED false
      let r := memberSerial (bindKeeping s p keep) p
      if isBound r p then r else mechAbsent r p
    else s
  let order := (us.filter fun x => x.2.2 != 0 && ids.contains x.1).reverse.map (·.1)
  let s6 := forAll (order ++ (ancestors s5 root).filter fun u => !ids.contains u) s5 recompute
  let s7 := settleEvt s0 s6 (ids ++ (ancestors s5 root).filter fun u => !ids.contains u)
  let s8 := forAll (o.binds.filter fun b => oldIds.contains b.uid) s7 (switchNs o t)
  let s9 := if full then
      let q := (t.hostPolicy.map (·.1)).getD 0
      applyLayout (applyUcode (applyLimits (fset s8 HIF_CTRL HIF_CTRL_QCS_OPEN q)))
    else s8
  let gen := rdN s9 TRS_UTAB_GEN + 1
  let s10 := wrN (wrN (loadBridles s9 t) TRS_UTAB_GEN (gen % 2 ^ 32)) TRS_RUN_SEQ t.seq
  applyRule (bindDeferred (if gen = 2 ^ 32 then sourceRise s10 5 else s10))

/-- Store an image that has been loaded (R62): a full image as both base copies, the chain erased and the floor raised;
a patch at the end of the chain. -/
def trussStore (s : State) (f : List Nat) : State :=
  if at1 f 0x0C = 1 then
    let n := ceilDiv f.length 65536
    let s := forAll ((rangeFrom 200 16).filterMap (servingBlock s)) (storeBlocks (storeBlocks s 196 n) 452 n) eraseCount
    let copy := fun b => if areaShort s b 4 = 0 then f else []
    wrN { s with trs := { s.trs with bases := [copy 196, copy 452], patches := [] } } TRS_SEQ_FLOOR (max (rdN s TRS_SEQ_FLOOR) (at4 f 0x10))
  else { programPages s (ceilDiv f.length 256) with trs := { s.trs with patches := s.trs.patches ++ [f] } }

/-! ### The loader -/

/-- Release the fence: deferred bindings run (R59, R60). -/
def releaseFence (s : State) : State := bindDeferred (fsetb s TRS_FENCE TRS_FENCE_FENCE false)

/-- A loader command ends with a result (R64, R65, Table 2-6): BUSY falls, DONE is set with source 6, an admin command
completes, and after a refusal of a Truss Commit its fence is cleared. -/
def loadEnd (s : State) (code whr : Nat) : State :=
  let job := s.trs.job
  let lvl := srcLevel s 6
  let s1 := { s with trs := { s.trs with job := none, lastCode := code, lastWhere := whr } }
  let s2 := fset (fset (fsetb s1 TRS_LD_STAT TRS_LD_STAT_BUSY false) TRS_LD_STAT TRS_LD_STAT_RESULT code) TRS_LD_STAT
    TRS_LD_STAT_WHERE whr
  let s3 := fsetb s2 TRS_LD_STAT TRS_LD_STAT_DONE true
  let s4 := if lvl then s3 else sourceRise s3 6
  match job.bind (·.cmd) with
  | none => s4
  | some c =>
    let s5 := if code ≠ 0 ∧ (job.map (·.what)).getD 1 ≠ 1 then releaseFence s4 else s4
    if code = 0 then adminOk s5 c.1 c.2 0 else complete s5 c.1 0 c.2 1 0xC0 (code + whr * 2 ^ 16) 0

/-- The length of the image a job loads: what downloads wrote, or TRS_LD_LEN (R64). -/
def jobLen (s : State) (j : LoadJob) : Nat :=
  if j.cmd.isSome then s.trs.stagedLen else fget s TRS_LD_LEN TRS_LD_LEN_LEN

/-- KINDs a job takes (R64, R66). -/
def jobKinds (j : LoadJob) : List Nat := if j.what = 1 then [1, 2] else if j.what = 2 then [1] else [2]

/-- The subtree an image covers: the root, or PATCH_ROOT. -/
def imageRoot (f : List Nat) : Nat := if at1 f 0x0C = 1 then 0 else at2 f 0x14 % 4096

/-- The switch of a file's structure, which becomes the running one; the files of it are kept for the partner (R63). -/
def switchFile (s : State) (f : List Nat) (t : Truss) : State :=
  let full := decide (at1 f 0x0C = 1)
  let s1 := trussSwitch s t full (imageRoot f)
  { s1 with trs := { s1.trs with runFiles := if full then [f] else s1.trs.runFiles ++ [f] } }

/-- Step 23 and the switch: not quiesced is refused, else the structure is switched and stored (R58, R62). -/
def switchStep (s : State) (j : LoadJob) (f : List Nat) (t : Truss) : State :=
  match firstBlocker s (imageRoot f) with
  | some b => loadEnd s 0x1A b.1
  | none =>
    let s1 := switchFile s f t
    loadEnd (if j.store then trussStore s1 f else s1) 0 0

/-- Begin a loader command (R66); a Truss Commit that waits goes on waiting. -/
def startJob (s : State) (j : LoadJob) : State :=
  fsetb { s with trs := { s.trs with job := some j } } TRS_LD_STAT TRS_LD_STAT_BUSY true

/-- A commit that switches fences the root of its image and waits for quiescence (R59, R65). -/
def armSwitch (s : State) (j : LoadJob) : State :=
  let root := if j.what = 2 then 0 else leNat ((leBytes 4 (rdN s (TRS_STAGE 5))).take 2) % 4096
  fset (fsetb { s with trs := { s.trs with waiting := some j } } TRS_FENCE TRS_FENCE_FENCE true) TRS_FENCE TRS_FENCE_ROOT root

/-- A Truss Commit that finds the loader running ends with BUSY (0x1B), its fence cleared (R64, R65). DESIGN CHOICE: WHERE
is 0, for no record was looked at (log entry 42). -/
def commitBusy (s : State) (j : LoadJob) : State :=
  let s1 := { s with trs := { s.trs with lastCode := 0x1B, lastWhere := 0 } }
  match j.cmd with
  | some c => complete (releaseFence s1) c.1 0 c.2 1 0xC0 0x1B 0
  | none => s1

/-- A Truss Commit of a kind (R64, R65): refused while TRS is claimed or the loader runs; a load or patch sets the fence
and waits for quiescence, a verify starts at once. -/
def trussCommit (s : State) (x : HPort) (cid : BitVec 16) (what : Nat) (store : Bool) : State :=
  let j : LoadJob := ⟨what, store, some (portId x, cid.toNat), false⟩
  if claimed s baseTRS || (store && claimed s baseFLS) then claimHeld s (portId x) cid.toNat
  else if loaderBusy s then
    complete { s with trs := { s.trs with lastCode := 0x1B, lastWhere := 0 } } (portId x) 0 cid.toNat 1 0xC0 0x1B 0
  else if what = 1 then startJob s j
  else
    armSwitch s j

/-- TRUSS_DOWNLOAD (R64): NUMD is 0-based, OFST in dwords; offset 0 begins a new image. -/
def execTrussDownload (x : HPort) (cid : BitVec 16) (numd ofst : BitVec 32) (data : List Word) (s : State) : Res :=
  .next (adminCmd s x fun s =>
    let n := numd.toNat + 1
    if claimed s baseTRS then claimHeld s (portId x) cid.toNat
    else if 65536 < ofst.toNat + n then invalidField s (portId x) cid.toNat
    else
      let s1 := if ofst = 0 then { zeroStage s with trs := { s.trs with stagedLen := 0 } } else s
      let s2 := placeWords s1 ofst.toNat (data.take n)
      adminOk { s2 with trs := { s2.trs with stagedLen := max s2.trs.stagedLen (4 * (ofst.toNat + n)) } } (portId x)
        cid.toNat 0)

/-- TRUSS_COMMIT_VERIFY (R64): ACTION 0. -/
def execTrussCommitVerify (x : HPort) (cid : BitVec 16) (_quiesceMs : BitVec 16) (s : State) : Res :=
  .next (adminCmd s x fun s => trussCommit s x cid 1 false)

/-- TRUSS_COMMIT_LOAD_STORE (R64): ACTION 1. -/
def execTrussCommitLoadStore (x : HPort) (cid : BitVec 16) (_quiesceMs : BitVec 16) (s : State) : Res :=
  .next (adminCmd s x fun s => trussCommit s x cid 2 true)

/-- TRUSS_COMMIT_PATCH_STORE (R64): ACTION 2. -/
def execTrussCommitPatchStore (x : HPort) (cid : BitVec 16) (_quiesceMs : BitVec 16) (s : State) : Res :=
  .next (adminCmd s x fun s => trussCommit s x cid 3 true)

/-- TRUSS_COMMIT_LOAD (R64): ACTION 3. -/
def execTrussCommitLoad (x : HPort) (cid : BitVec 16) (_quiesceMs : BitVec 16) (s : State) : Res :=
  .next (adminCmd s x fun s => trussCommit s x cid 2 false)

/-- TRUSS_COMMIT_PATCH (R64): ACTION 4. -/
def execTrussCommitPatch (x : HPort) (cid : BitVec 16) (_quiesceMs : BitVec 16) (s : State) : Res :=
  .next (adminCmd s x fun s => trussCommit s x cid 3 false)

/-- TRUSS_QUIESCE_WAIT_END (R65): the commands in flight ended, or QUIESCE_MS expired; the load starts, or is refused as
BUSY when a command of the loader's registers runs meanwhile. -/
def execTrussQuiesceWaitEnd (s : State) : Res :=
  .next (match s.trs.waiting with
    | some j =>
      let s1 := { s with trs := { s.trs with waiting := none } }
      if fbit s TRS_LD_STAT TRS_LD_STAT_BUSY then commitBusy s1 j else startJob s1 j
    | none => s)

/-- A patch of `len` bytes does not fit in the space the chain has left, each patch padded to a page (R425, R435). -/
def chainFull (s : State) (len : Nat) : Bool :=
  decide (256 * (16 - areaShort s 200 16) < sumN (s.trs.patches.map fun f => ceilDiv f.length 256) + ceilDiv len 256)

/-- TRUSS_VERIFY_DONE (R52, R53, R62, R63): the checks to step 22, once a crypto domain may be powered for them (R329 to R331); then a
full chain, quiescence, and the partner or the switch. DESIGN CHOICE: WHERE of a full chain is 0xFFFF, for no record fails (log
entry 42). -/
def execTrussVerifyDone (s : State) : Res :=
  .next (match s.trs.job with
    | none => s
    | some j =>
      if j.awaitPeer || !cryptoFree s then s
      else
        let len := jobLen s j
        let f := stagedBytes s len
        match checkImage s f len (jobKinds j) with
        | .inl x => loadEnd s x.1 x.2
        | .inr t =>
          if j.what = 1 then loadEnd s 0 0
          else if j.store ∧ j.what = 3 ∧ (15 ≤ s.trs.patches.length ∨ chainFull s len) then loadEnd s 0x1D 0xFFFF
          else match firstBlocker s (imageRoot f) with
            | some b => loadEnd s 0x1A b.1
            | none =>
              if isActiveRole s ∧ partnerAlive s then
                emit { s with trs := { s.trs with job := some { j with awaitPeer := true } } } (.peer 1 f)
              else switchStep s j f t)

/-- The job that waits for the partner goes on to its switch. -/
def afterPartner (s : State) : State :=
  match s.trs.job with
  | none => s
  | some j =>
    if !j.awaitPeer then s
    else
      let len := jobLen s j
      let f := stagedBytes s len
      match checkImage s f len (jobKinds j) with
      | .inl x => loadEnd s x.1 x.2
      | .inr t => switchStep s j f t

/-- TRUSS_PARTNER_ANSWER (R63): accepted, both switch; refused, 0x1C PARTNER, by DESIGN CHOICE with WHERE 0xFFFF (log entry 42). -/
def execTrussPartnerAnswer (accept : Bool) (s : State) : Res :=
  .next (if (s.trs.job.map (·.awaitPeer)).getD false then
      if accept then afterPartner s else loadEnd s 0x1C 0xFFFF
    else s)

/-- TRUSS_PARTNER_TIMEOUT (R63): no answer within 10 ms, the ACTIVE device switches alone. -/
def execTrussPartnerTimeout (s : State) : Res := .next (afterPartner s)

/-- PEER_TRUSS_CHECK (R63): an image from the ACTIVE device is checked through step 22 and answered; accepted, this
device switches as the other does. -/
def execPeerTrussCheck (image : List Byte) (s : State) : Res :=
  .next (let f := image.map (·.toNat)
    if !cryptoFree s then s else
    match checkImage s f f.length [1, 2] with
    | .inl x => emit s (.peer 2 [x.1])
    | .inr t => switchFile (emit s (.peer 2 [0])) f t)

/-- A write of TRS_LD_CTRL.CMD by a permitted master (R66): ignored with RESULT 0x1B while the loader is busy. -/
def loaderCmd (s : State) (m : Master) (what : Nat) : State :=
  if !trsMayWrite s m then s
  else if fbit s TRS_LD_STAT TRS_LD_STAT_BUSY then fset s TRS_LD_STAT TRS_LD_STAT_RESULT 0x1B
  else startJob s ⟨what, false, none, false⟩

/-- TRS_LD_VERIFY (R66): CMD 0b001. -/
def execTrsLdVerify (m : Master) (s : State) : Res :=
  .next (regWrite s m TRS_LD_CTRL fun s => loaderCmd s m 1)

/-- TRS_LD_LOAD (R66): CMD 0b010. -/
def execTrsLdLoad (m : Master) (s : State) : Res :=
  .next (regWrite s m TRS_LD_CTRL fun s => loaderCmd s m 2)

/-- TRS_LD_PATCH (R66): CMD 0b011. -/
def execTrsLdPatch (m : Master) (s : State) : Res :=
  .next (regWrite s m TRS_LD_CTRL fun s => loaderCmd s m 3)

/-- TRS_SEQ_FLOOR_WRITE (Table 2-6): a value below the current one is ignored. -/
def execTrsSeqFloorWrite (m : Master) (value : Word) (s : State) : Res :=
  .next (regWrite s m TRS_SEQ_FLOOR fun s => if trsMayWrite s m ∧ rdN s TRS_SEQ_FLOOR ≤ value.toNat then wr s TRS_SEQ_FLOOR value else s)

/-- TRS_KEY_REVOKE (Table 2-6): a 1 revokes a key slot for good. -/
def execTrsKeyRevoke (m : Master) (slots : BitVec 4) (s : State) : Res :=
  .next (regWrite s m TRS_KEY_STAT fun s => if trsMayWrite s m then
      fset s TRS_KEY_STAT TRS_KEY_STAT_REVOKE (fget s TRS_KEY_STAT TRS_KEY_STAT_REVOKE ||| slots.toNat)
    else s)

/-- TRS_FENCE_SET (R59, R66). -/
def execTrsFenceSet (m : Master) (root : BitVec 12) (s : State) : Res :=
  .next (regWrite s m TRS_FENCE fun s => if trsMayWrite s m then
      fset (fsetb s TRS_FENCE TRS_FENCE_FENCE true) TRS_FENCE TRS_FENCE_ROOT root.toNat
    else s)

/-- TRS_FENCE_RELEASE (R59, R60): deferred bindings run; the waiting commands are held no longer. -/
def execTrsFenceRelease (m : Master) (s : State) : Res :=
  .next (regWrite s m TRS_FENCE fun s => if trsMayWrite s m then releaseFence s else s)

end Sys2Proof.Machine
end

