-- ==== Sys2Proof/Machine/Power.lean ====
section
/-! DEFINITION. Resets and boot (R325 to R328, R338, R339, R382, R401): what a device reset and WATCH leave, the ROM, DRAM
training with the boot load of the truss, and the settling of the role with the recovery of the zones (R234). -/
namespace Sys2Proof.Machine
open Sys2Proof

/-! ### Device reset and WATCH -/

/-- The register fields that a device reset leaves alone: those held by the always-on domain, the flash, the fuses, the
straps and the pins (R17). -/
def keptFields : List (Nat × Fld) :=
  [(PWR_UPTIME, ⟨0, 32⟩), (PWR_AON_STAT, ⟨0, 32⟩), (PWR_WAKE_EN, ⟨0, 32⟩), (PWR_CLK, PWR_CLK_XTAL_OK),
   (FLS_STAT, FLS_STAT_VBAND), (TRS_SEQ_FLOOR, ⟨0, 32⟩), (TRS_KEY_STAT, TRS_KEY_STAT_REVOKE), (PRT_FW, PRT_FW_ACTIVE_BANK),
   (PRT_FW, PRT_FW_SVN), (PRT_FW_VER_ACT, ⟨0, 32⟩), (PRT_FW_VER_INACT, ⟨0, 32⟩), (PRT_FW_FLOOR, PRT_FW_FLOOR_SVN_FLOOR),
   (PRT_KEY, PRT_KEY_REVOKE), (HIF_MODE, HIF_MODE_BIFUR), (HIF_MODE, HIF_MODE_PAIR_POS), (BAL_STAT, BAL_STAT_PFAIL)] ++
  ((rangeFrom 0 32).map fun p => (TTH_SIDEBAND p, (⟨0, 32⟩ : Fld))) ++
  ((rangeFrom 0 512).flatMap fun b => [(FLS_ECNT b, FLS_ECNT_COUNT), (FLS_ECNT b, FLS_ECNT_RETIRED)])

/-- The flash as a reset leaves it: an operation that ran leaves its page or block torn (R437), and the thatch capacities
are in the table log (R225). -/
def flashAfterReset (s : State) : FlsState :=
  { s.fls with
    due := false
    job := none
    torn := (s.fls.job.map fun j => (j.page / 256, if j.op = 1 then some j.page else none)).toList ++ s.fls.torn
    caps := s.zmp.fixedCap.foldl (fun t u => tabPut t u (rdN s (TRS_UNIT_CAP u))) [] }

/-- What is on the media, with what the buffer alone held (R234). -/
def mediaAfterReset (s : State) : ZmpState :=
  { lbas := s.zmp.lbas, staged := s.zmp.staged, eseq := s.zmp.eseq, jseq := s.zmp.jseq, jrnl := s.zmp.jrnl, jrnSeq := s.zmp.jrnSeq
    relocs := s.zmp.relocs, spareUsed := s.zmp.spareUsed, jrnAt := s.zmp.jrnAt
    accLost := s.zmp.accs.map lostAcc ++ s.zmp.accLost
    before := if s.zmp.zones = [] then s.zmp.before else s.zmp.zones
    gone := s.zmp.gone ++ if isActiveRole s then s.zmp.dirty else [] }

/-- The state a device reset leaves: every register at its reset value but the kept fields, every memory and engine at
rest; the front-ends, the flash and the media are as they were. -/
def afterReset (s : State) : State :=
  let t : State :=
    { out := s.out, free := s.free, pending := s.pending, fe := s.fe, fls := flashAfterReset s, zmp := mediaAfterReset s
      det := { tracks := s.det.tracks.map fun t => (t.1, { t.2 with cols := none }) }
      tth := s.tth.map fun x => (x.1, ({ fitted := x.2.fitted } : TthPort))
      mem := { stored := s.mem.stored, codes := s.mem.codes }
      trs := { bases := s.trs.bases, patches := s.trs.patches }
      host := { ctlA := { perst := s.host.ctlA.perst }, ctlB := { perst := s.host.ctlB.perst } }
      pwr := { vaon := s.pwr.vaon, wakeLow := s.pwr.wakeLow, debug := s.pwr.debug }
      prt := { upStep := if 7 ≤ s.prt.upStep then s.prt.upStep else 0 } }
  forAll keptFields t fun t x => fset t x.1 x.2 (fget s x.1 x.2)

/-- Slot 1 becomes the active bank at a device reset when a commit asked for it (R399). -/
def flipBank (s : State) : State :=
  let a := fget s PRT_FW PRT_FW_ACTIVE_BANK
  let img := (s.fls.images.find? fun x => x.1 == 1 - a).map (·.2)
  let s1 := wrN (wrN s PRT_FW_VER_ACT (rdN s PRT_FW_VER_INACT)) PRT_FW_VER_INACT (rdN s PRT_FW_VER_ACT)
  fset (fset s1 PRT_FW PRT_FW_ACTIVE_BANK (1 - a)) PRT_FW PRT_FW_SVN ((img.map fun f => at1 f 0x10).getD (fget s PRT_FW PRT_FW_SVN))

/-- The presence of the mechanisms is found as the device leaves reset (Table 3-8). -/
def findFitted (s : State) : State :=
  forAll (rangeFrom 0 32) s fun s p => if (tthOf s p).fitted then goDebounce s p else s

/-- A commit's flip of the banks takes place at a device reset (R399); the stored formats of the old version are kept (R403). -/
def resetBank (s : State) : State :=
  if s.fls.flipNext then
    flipBank (setFls s fun f => { f with flipNext := false, oldCopies := true, oldSlot := if f.oldCopies then f.oldSlot else f.slot })
  else s

/-- An older image boots again while the old copies are kept: it takes the newest checkpoint of its own version (R403, R425). -/
def oldFormats (s : State) : State :=
  if s.fls.oldCopies then
    setFls s fun f =>
      { f with oldCopies := false, ckpt := if f.slot = f.oldSlot then f.ckpt else f.older, slot := f.oldSlot
               older := if f.slot = f.oldSlot then f.older else none }
  else s

/-- The peer link is asked for as BOOT begins, and the debug domain where its port is attached (Table 13-3, log entry 53). -/
def firstDomains (s : State) : State :=
  let s1 := domRequest s 474
  if s.pwr.debug then domRequest s1 476 else s1

/-- A device reset with its cause (R338): the device is in BOOT, where the ROM runs. In WATCH there is nothing to reset. -/
def deviceReset (s : State) (cause : Nat) : State :=
  if mode s = 0 then s
  else
    let s1 := fset (afterReset s) PWR_AON_STAT PWR_AON_STAT_RST_CAUSE cause
    findFitted (count (resetBank (firstDomains s1)) (PWR_CNT 2) 1 .pwr PWR_EVT_SAT)

/-- WATCH: the always-on domain alone is on (R325, R328). -/
def enterWatch (s : State) (cause : Nat) : State :=
  let s1 := fset (fset (afterReset s) PWR_AON_STAT PWR_AON_STAT_RST_CAUSE cause) PWR_MODE PWR_MODE_MODE 0
  forAll (rangeFrom 0 15) s1 fun s n => wrN s (PWR_DOM_STAT n) (if n = 0 then 1 else 0)

/-- The entry to WATCH is clean (R328): LOBBY with both controllers in D3hot or down, or LOBBY after a SAFE that reached PHASE
4, with the checkpoint written. -/
def cleanEntry (s : State) : Bool :=
  let down := fun x => (ctl s x).d3hot || !fbit s (HIF_PORT_STAT x) HIF_PORT_STAT_LINK_UP || !portExists s x
  decide (mode s = 2) && !s.fls.due && (down 0 && down 1 || decide (fget s PWR_MODE PWR_MODE_PREV = 0xA))

/-- MAIN_PG falls (R328). -/
def mainLoss (s : State) : State :=
  if mode s = 0 then s
  else if cleanEntry s then enterWatch (setFls s fun f => { f with ckpt := f.ckpt.map fun c => { c with clean := true } }) 7
  else enterWatch s 2

/-- The always-on domain loses power: every value it holds is lost (R17), and the next start shows cause 0 (R454). -/
def aonLost (s : State) : State :=
  let s1 := enterWatch s 0
  let s2 := clearRange (clearRange s1 PWR_UPTIME (PWR_UPTIME + 4)) PWR_AON_STAT (PWR_WAKE_EN + 4)
  let s3 := fsetb (setPwr s2 fun w => { w with wakeLow := false }) PWR_CLK PWR_CLK_XTAL_OK false
  forAll (rangeFrom 0 32) s3 fun s p => fset s (TTH_SIDEBAND p) ⟨1, 2⟩ 0

/-- VAON_GOOD (R334, R325): the device is in WATCH with the always-on domain at its own reset values. -/
def execVaonGood (s : State) : Res := .next (setPwr (aonLost s) fun w => { w with vaon := true })

/-- VAON_LOSS (R454, R328). -/
def execVaonLoss (s : State) : Res := .next (setPwr (aonLost s) fun w => { w with vaon := false })

/-- XTAL_START (R322). -/
def execXtalStart (s : State) : Res := .next (if s.pwr.vaon then fsetb s PWR_CLK PWR_CLK_XTAL_OK true else s)

/-- PAIR_POS is sampled as the device reset ends (R338), and gives the controllers their CNTLID (R259). -/
def samplePair (s : State) (pairPos : Bool) : State :=
  let s1 := fsetb s HIF_MODE HIF_MODE_PAIR_POS pairPos
  let a := if pairPos then 3 else 1
  fset (fset s1 (HIF_PORT_STAT 0) HIF_PORT_STAT_CNTLID a) (HIF_PORT_STAT 1) HIF_PORT_STAT_CNTLID (if portExists s 1 then a + 1 else 0)

/-- The main supply is good (R334): BOOT begins with the domains of its reset values, the pair position sampled and the wake counted; a
main-supply loss was a device reset (R338). -/
def mainGood (s : State) (pairPos : Bool) : State :=
  let s0 := firstDomains (clearRange (fset s PWR_MODE PWR_MODE_MODE 1) (PWR_DOM_STAT 0) (PWR_DOM_STAT 15))
  let s1 := if fget s PWR_AON_STAT PWR_AON_STAT_RST_CAUSE = 2 then resetBank (count s0 (PWR_CNT 2) 1 .pwr PWR_EVT_SAT) else s0
  let s2 := count (setPwr (samplePair s1 pairPos) fun w => { w with wakeLow := false }) (PWR_CNT 1) 1 .pwr PWR_EVT_SAT
  let s3 := if fget s2 PWR_AON_STAT PWR_AON_STAT_WAKE_SRC ≠ 0 then evtSet s2 .pwr PWR_EVT_WAKE_SEEN else s2
  findFitted (if s.pwr.wakeLow then emit s3 (.pin 0 1) else s3)

/-- MAIN_PG_RISE (R334, R327, R338): WATCH ends and BOOT starts. -/
def execMainPgRise (pairPos : Bool) (s : State) : Res :=
  .next (if mode s ≠ 0 ∨ !s.pwr.vaon then s
    else mainGood s pairPos)

/-- MAIN_PG_FALL (R328). -/
def execMainPgFall (s : State) : Res := .next (mainLoss s)

/-- VCORE_UNDERVOLTAGE (R452): as MAIN_PG falling, with RST_CAUSE 2. -/
def execVcoreUndervoltage (s : State) : Res := .next (if mode s = 0 then s else enterWatch s 2)

/-- WATCH_WAKE_SOURCE (R327): an enabled source sets its bit and pulls WAKE_N low (pin 0). -/
def execWatchWakeSource (source : Fin 5) (s : State) : Res :=
  .next (if mode s ≠ 0 ∨ !s.pwr.vaon ∨ !bitOf (rd s PWR_WAKE_EN) source then s
    else
      let s1 := wbit s PWR_AON_STAT (8 + source) true
      if s.pwr.wakeLow then s1 else emit (setPwr s1 fun w => { w with wakeLow := true }) (.pin 0 0))

/-- SYS_RESET (R338, R454). -/
def execSysReset (pairPos : Bool) (s : State) : Res := .next (if mode s = 0 then s else samplePair (deviceReset s 1) pairPos)

/-- SOFTWARE_RESET (R338): PWR_RST with KEY = 0x7A5C and GO = 1 in the same write. -/
def execSoftwareReset (m : Master) (value : Word) (s : State) : Res :=
  .next (regWrite s m PWR_RST fun s =>
    if getF value PWR_RST_KEY = 0x7A5C ∧ getF value PWR_RST_GO = 1 then deviceReset s 3 else s)

/-- RIDGE_WATCHDOG_EXPIRE (R338). -/
def execRidgeWatchdogExpire (s : State) : Res := .next (deviceReset s 5)

/-- THERMAL_TRIP (R353): a die sensor has been at 125 °C for 1 ms. -/
def execThermalTrip (s : State) : Res := .next (if 2 ≤ s.bgw.dieTrip then deviceReset s 6 else s)

/-! ### The ROM (R401) -/

/-- The first of steps 1 to 6 of R401 that an image fails; 0 where it passes them. -/
def romSteps (s : State) (f : List Nat) : Nat :=
  let body := at4 f 0x08
  let steps := (f.drop 0x14).take (at1 f 0x13)
  if at4 f 0 ≠ 0x49574651 ∨ at2 f 4 ≠ 1 ∨ at2 f 6 ≠ 0x80 ∨ f.length ≠ 128 + body + 148 ∨ 12582912 < body then 1
  else if !steps.contains 0xA2 then 2
  else if 2 ≤ at1 f 0x11 ∨ !bitOf (rd s PRT_KEY) (at1 f 0x11) ∨ bitOf (rd s PRT_KEY) (8 + at1 f 0x11) then 3
  else if at1 f 0x10 < fget s PRT_FW_FLOOR PRT_FW_FLOOR_SVN_FLOOR then 4
  else if !fwTagOk f then 5
  else if !fwSigOk f then 6
  else 0

/-- The step a bank fails at: steps 1 to 6 from the image where the model holds it, step 7 as `given`. -/
def bankResult (s : State) (bank given : Nat) : Nat :=
  match s.fls.images.find? fun x => x.1 == bank with
  | some x => if romSteps s x.2 ≠ 0 then romSteps s x.2 else if given = 7 then 7 else 0
  | none => given

/-- The firmware starts on a bank: CLKSEL and WS for the supply band (R430), the version shown, Ridge cores 1 to 3 (Table 13-3), and a
pair update goes on. -/
def startFirmware (s : State) : State :=
  let ws := if fget s FLS_STAT FLS_STAT_VBAND = 0 then 12 else 17
  let s1 := fset (fset s FLS_RDCFG FLS_RDCFG_CLKSEL 0) FLS_RDCFG FLS_RDCFG_WS ws
  let s2 := match s1.fls.images.find? fun x => x.1 == fget s1 PRT_FW PRT_FW_ACTIVE_BANK with
    | some x => wrN (fset s1 PRT_FW PRT_FW_SVN (at1 x.2 0x10)) PRT_FW_VER_ACT (at4 x.2 0x0C)
    | none => s1
  let s3 := if 7 ≤ s2.prt.upStep then fsetb s2 PRT_STAT PRT_STAT_UPDATING true else s2
  setPwr (forAll [8, 9, 10] s3 domRequest) fun w => { w with bootStep := 1 }

/-- ROM_IMAGE_CHECK (R401): the steps each bank fails at (0 passes; step 7, and all steps of a bank the model holds no image of, are the
environment's), and the partner's image, empty where it does not answer: it is stored in the inactive bank and booted where it passes.
Without any the ROM waits. -/
def execRomImageCheck (res0 res1 : BitVec 3) (partner : List Byte) (s : State) : Res :=
  .next (if mode s ≠ 1 ∨ s.pwr.bootStep ≠ 0 then s
    else
      let a := fget s PRT_FW PRT_FW_ACTIVE_BANK
      let given := fun b => if b = 0 then res0.toNat else res1.toNat
      let r := bankResult s a (given a)
      let s1 := fset s PRT_FW PRT_FW_BOOT_RESULT r
      if r = 0 then startFirmware s1
      else if bankResult s (1 - a) (given (1 - a)) = 0 then
        startFirmware (evtSet (fsetb (oldFormats (flipBank s1)) PRT_FW PRT_FW_FALLBACK true) .prt PRT_EVT_BOOT_FALLBACK)
      else
        let f := partner.map (·.toNat)
        if f = [] then emit s1 (.peer 20 [])
        else
          let s2 := setFls s1 fun x => { x with images := tabPut x.images (1 - a) f }
          if romSteps s2 f = 0 then startFirmware (flipBank s2) else s2)

/-- PEER_IMAGE_SERVE (R401): the active image goes to a partner that asks for it, when the device holds it. -/
def execPeerImageServe (s : State) : Res :=
  .next (if s.pwr.bootStep = 0 ∨ mode s = 0 then s
    else match s.fls.images.find? fun x => x.1 == fget s PRT_FW PRT_FW_ACTIVE_BANK with
      | some x => emit s (.peer 21 x.2)
      | none => emit s (.peer 21 []))

/-! ### DRAM training and the boot load of the truss (R291, R304, R61) -/

/-- The codes kept in flash are set and locked, the stored pages retired again, and the cache, whose tags are invalid after reset,
is enabled (R304). -/
def bootMemory (s : State) : State :=
  let s1 := match s.mem.codes with
    | some c =>
      let t := forAll (rangeFrom 0 4) s fun s r => fset s (MEP_RGN r) MEP_RGN_CODE (c.1 / 4 ^ r % 4)
      wrN (wrN t (MEP_BANK_CODE 0) c.2.1) (MEP_BANK_CODE 1) c.2.2
    | none => s
  let s2 := fsetb s1 MEP_CTRL MEP_CTRL_LOCK true
  let s3 := forAll s2.mem.stored s2 fun s page => retireEffect s page (retireResult s page)
  if claimed s3 baseCCH then s3 else cacheEnable s3

/-- The tree of the root POOL alone (R61). -/
def rootTruss : Truss := { units := [⟨0, 0xFFF, 5, 0xF, 0, 0xFF, 0, false, 0⟩] }

/-- A stored piece is loaded at boot: the structure it gives, or its refusal code. -/
def bootPiece (s : State) (f : List Nat) (kind : Nat) : Nat ⊕ State :=
  match checkImage s f f.length [kind] with
  | .inl x => .inl x.1
  | .inr t => .inr (switchFile s f t)

/-- The base at boot: the first stored copy that is taken, else the root alone with source 6 and the refusal code (R61).
DESIGN CHOICE: with no copy stored at all there is no refusal, and the code is 0x00 (log entry 42). -/
def bootBase : List (List Nat) → Nat → State → State × Bool
  | [], code, s =>
    let s1 := trussSwitch { s with trs := { s.trs with lastCode := code } } rootTruss true 0
    (sourceRise (fset s1 TRS_LD_STAT TRS_LD_STAT_RESULT code) 6, false)
  | f :: fs, code, s =>
    match bootPiece s f 1 with
    | .inl c => bootBase fs c s
    | .inr t => (t, true)

/-- Put a stored patch among others by its IMG_SEQ. -/
def patchInsert (f : List Nat) : List (List Nat) → List (List Nat)
  | [] => [f]
  | g :: l => if at4 f 0x10 < at4 g 0x10 then f :: g :: l else g :: patchInsert f l

/-- Stored patches in IMG_SEQ order. -/
def patchOrder (l : List (List Nat)) : List (List Nat) := l.foldl (fun acc f => patchInsert f acc) []

/-- The stored patches in order; at the first refused one the rest are left, with source 6 (R61). -/
def bootPatches : List (List Nat) → State → State
  | [], s => s
  | f :: fs, s =>
    match bootPiece s f 2 with
    | .inl c => sourceRise (fset { s with trs := { s.trs with lastCode := c } } TRS_LD_STAT TRS_LD_STAT_RESULT c) 6
    | .inr t => bootPatches fs t

/-- The truss at boot, with the thatch capacities of the table log (R225). -/
def bootTruss (s : State) : State :=
  let b := bootBase s.trs.bases 0 s
  let s1 := if b.2 then bootPatches (patchOrder s.trs.patches) b.1 else b.1
  forAll s1.fls.caps s1 fun s x =>
    if uKind s x.1 = 4 then
      wrN (setZmp s fun z => { z with fixedCap := x.1 :: z.fixedCap.filter (· != x.1) }) (TRS_UNIT_CAP x.1) x.2
    else s

/-- DRAM_TRAINING_DONE (R291, R338): the channels that trained; then the codes, the retirements and the truss. -/
def execDramTrainingDone (chUp : BitVec 8) (s : State) : Res :=
  .next (if mode s ≠ 1 ∨ s.pwr.bootStep ≠ 1 then s
    else
      let s1 := fset (fsetb s PWR_CLK PWR_CLK_DRAM true) BUF_STAT BUF_STAT_CH_UP chUp.toNat
      let s2 := bootTruss (bootMemory s1)
      let s3 := if chUp.toNat = 255 then s2 else rootGrade (evtSet s2 .buf BUF_EVT_CH_FAIL) 3 0x93
      setPwr s3 fun w => { w with bootStep := 2 })

/-! ### The role (R382) and the recovery of the zones (R234, R346, R408) -/

/-- The end of the staged data contiguous from an LBA; `n` bounds the number of extents. -/
def contigEnd : Nat → List Staged → Nat → Nat → Nat
  | 0, _, _, w => w
  | k + 1, l, n, w =>
    match l.find? fun x => x.ext.nsid == n && decide (x.ext.lba ≤ w ∧ w < x.ext.lba + x.ext.count) with
    | some x => contigEnd k l n (x.ext.lba + x.ext.count)
    | none => w

/-- The latest entry of a zone in the rings is replayed (R234): its sector is newer than the checkpoint, or the checkpoint does not
limit the replay, as its descriptors were cut off or the CRC of the last one failed (R426). -/
def entryNewer (s : State) (k : Nat) : Bool :=
  match s.fls.ckpt, s.zmp.jrnSeq.find? fun x => x.1 == k with
  | some c, some x => c.trunc || s.fls.ckptBad || decide (tabGet 0 c.jseq x.2.1 < x.2.2)
  | _, _ => true

/-- A zone's descriptor after the replay of the journal over the checkpoint; one in neither is Empty. -/
def replayed (s : State) (k : Nat) : Option ZoneRec :=
  match if entryNewer s k then s.zmp.jrnl.find? fun x => x.1 == k else none with
  | some x => some x.2
  | none => (s.fls.ckpt.bind fun c => c.zones.find? fun x => x.1 == k).map (·.2)

/-- A zone is recovered (R234 steps 2 to 5): MWP is how far its media is written, WP the end of the data contiguous from
there, and what is missing below the journalled WP is a lost range; a zone that was finished misses only what the buffer held
(log entry 48). Data beyond the new WP is gone. -/
def recoverZone (s : State) (k : Nat) : State :=
  let n := k / 2 ^ 32
  let z := k % 2 ^ 32
  match replayed s k with
  | none => s
  | some r =>
    let was := (s.zmp.before.find? fun x => x.1 == k).map (·.2)
    let m := match was with
      | some b => if b.rmark = r.rmark then max r.mwp b.mwp else r.mwp
      | none => r.mwp
    let lost := s.zmp.gone.any fun e => e.nsid == n && e.zone == z && decide (m < e.lba + e.count)
    let w := if r.zstate = 1 ∨ (r.zstate = 0xE ∧ !lost) then r.wp else contigEnd s.zmp.staged.length s.zmp.staged n m
    let q := max r.wseq ((was.map (·.wseq)).getD 0)
    let s0 := if r.mwp < r.wp then count s (ZMP_CNT 6) 1 .zmp ZMP_EVT_SAT else s
    let s1 := putZone s0 n z { r with wp := w, mwp := m, wseq := q }
    let s2 := setZmp s1 fun y => { y with lbas := y.lbas.filter fun x =>
      !(decide (lbaKey n w ≤ x.1) && decide (x.1 < lbaKey n ((z + 1) * nsZl s n))) }
    let s3 := if zActive r.zstate then (takeCtx s2 k).getD s2 else s2
    if w < r.wp then lostRange s3 ⟨n, z, w, r.wp - w, r.wseq⟩ else s3

/-- Data of conventional namespaces that only the buffer held is gone: what such an LBA then reads as is a free value. -/
def recoverConv (s : State) : State :=
  forAll (s.zmp.gone.filter fun e => !nsZoned s e.nsid) s fun s e =>
    forAll (rangeFrom e.lba e.count) s fun s lba => putLba (drawn s) e.nsid lba (freeVal s)

/-- Every zone is recovered after a start without a partner to take state from (R234); after a clean entry to WATCH the
checkpoint stands as it is (R338). -/
def recoverZones (s : State) : State :=
  let ck := (s.fls.ckpt.map (·.zones)).getD []
  let s1 := match s.fls.ckpt with
    | some c =>
      if c.clean then
        forAll c.zones (setZmp s fun z => { z with zones := c.zones }) fun s x => if zActive x.2.zstate then (takeCtx s x.1).getD s else s
      else recoverConv (forAll ((ck.map (·.1)) ++ ((s.zmp.jrnl.map (·.1)).filter fun k => !ck.any fun x => x.1 == k)) s recoverZone)
    | none => recoverConv (forAll (s.zmp.jrnl.map (·.1)) s recoverZone)
  stagedSync (setZmp s1 fun z => { z with before := [], gone := [] })

/-- The task credits of the checkpoint, aged by the uptime since (R346). -/
def restoreCredits (s : State) : State :=
  let s1 := setBgw s fun b => { b with agedTo := uptime s / 1000 }
  let known := decide (fget s1 PWR_AON_STAT PWR_AON_STAT_RST_CAUSE ≠ 0)
  let s2 := match s1.fls.ckpt with
    | none => s1
    | some c =>
      let age := if known then (uptime s1 - c.uptime) / 1000 else 0
      forAll ((rangeFrom 0 taskCount).zip c.credits) s1 fun s x =>
        taskSync (setCredit s x.1 (sgn 32 x.2.toNat - (age : Nat))) x.1
  if known then s2
  else forAll (rangeFrom 0 128) (evtSet s2 .bgw BGW_EVT_AGE_UNKNOWN) fun s t => taskSync (setCredit s t 0) t

/-- The default binding of a mailbox channel (Table 17-1): SENDER and RECEIVER. -/
def defaultBind (c : Nat) : Nat × Nat :=
  let pr := fun (a b : Nat) => if c % 2 = 0 then (a, b) else (b, a)
  if c < 8 then pr 0x00 0x08 else if c < 16 then pr 0x01 0x08 else if c < 24 then pr 0x02 0x09
  else if c < 40 then pr 0x10 0x0A
  else if c < 48 then pr (0x08 + (c - 40) / 2) (0x08 + ((c - 40) / 2 + 1) % 4)
  else if c < 56 then pr 0x1F 0x0B else (0xFF, 0xFF)

/-- The bindings of Table 17-1 are written and locked (R408). -/
def bindMailboxes (s : State) : State :=
  if fbit s MBX_CTRL MBX_CTRL_LOCK then s
  else
    let s1 := forAll (rangeFrom 0 64) s fun s c =>
      fset (fset s (MBX_BIND c) MBX_BIND_SENDER (defaultBind c).1) (MBX_BIND c) MBX_BIND_RECEIVER (defaultBind c).2
    fsetb s1 MBX_CTRL MBX_CTRL_LOCK true

/-- Every source that a chapter defines is routed to Ridge core 0 and to Tail recorder 0, unless EVT is claimed (R422, R20). -/
def routeSources (s : State) : State :=
  if claimed s baseEVT then s
  else forAll ((rangeFrom 0 640).filter fun n => (evtBlkOf n).isSome || [3, 4, 5, 6, 7].contains n) s fun s n =>
    wbit (wbit s (EVT_RT_W0 n) 20 true) (EVT_RT_W0 n) 24 true

/-- The role after the settle window (R382): never ACTIVE with a channel that failed training (R291). -/
def settledRole (s : State) : Nat :=
  let h := partnerRole s
  if fget s BUF_STAT BUF_STAT_CH_UP ≠ 255 then 2
  else if s.prt.heard ∧ (h = 1 ∨ h = 3 ∨ h = 4) then 2
  else if !s.prt.heard ∨ h = 2 then 1
  else if fbit s HIF_MODE HIF_MODE_PAIR_POS then 2 else 1

/-- Role r settled (R382, R334): zones are recovered by an active device, boot ends and the mode of the role begins. -/
def roleSettled (s : State) (r : Nat) : State :=
  let s1 := restoreCredits (routeSources (bindMailboxes s))
  let s2 := if r = 1 then recoverZones s1 else setZmp s1 fun z => { z with before := [], gone := [] }
  let why := (fget s2 PWR_AON_STAT PWR_AON_STAT_RST_CAUSE, fget s2 PWR_AON_STAT PWR_AON_STAT_WAKE_SRC)
  let s2 := setFls s2 fun f => { f with bootLog := f.bootLog ++ [why] }
  let s3 := setPwr (wr s2 PWR_AON_STAT (rd s2 PWR_AON_STAT &&& 0xF0000000)) fun w => { w with lastIo := uptime s2 }
  let s4 := setFls s3 fun f => { f with ckpt := f.ckpt.map fun c => { c with clean := false } }
  let s5 := raiseReady (syncAlone (takeRole s4 r 7))
  let s6 := if r = 1 then forAll (rangeFrom 0 32) s5 fun s p => if sbUsable s p then wantToken s p else s else s5
  phySync (syncEnv (psUpdate s6))

/-- ROLE_SETTLE_WINDOW_END (R382, R234, R339, R341): the checkpoint is loaded, the role taken, and BOOT ends. An ACTIVE
device without a partner to take state from recovers its zones. -/
def execRoleSettleWindowEnd (s : State) : Res :=
  .next (if mode s ≠ 1 ∨ s.pwr.bootStep ≠ 2 then s
    else roleSettled s (settledRole s))

end Sys2Proof.Machine
end

