-- ==== Sys2Proof/Machine/Update.lean ====
section
/-! DEFINITION. Firmware images: the staging area, storing an image, the relay chain and the key slots (R398 to R400, R427), and
the planned hand-over up to HANDOVER (R393), which a pair update uses too. -/
namespace Sys2Proof.Machine
open Sys2Proof

/-! ### Images -/

/-- The inactive bank, slot 1 (R399). -/
def slot1 (s : State) : Nat := 1 - fget s PRT_FW PRT_FW_ACTIVE_BANK

/-- The image a bank holds, where the model holds one. -/
def imageOf (s : State) (bank : Nat) : Option (List Nat) := (s.fls.images.find? fun x => x.1 == bank).map (·.2)

/-- IMG_ID of an image: the CRC-32C of its header (Table 16-7). -/
def imgId (f : List Nat) : Nat := crc32c (f.take 128)

/-- The header check of a commit: MAGIC, FMT, HDR_LEN and lengths (R399). -/
def headerOk (f : List Nat) : Bool :=
  at4 f 0 == 0x49574651 && at2 f 4 == 1 && at2 f 6 == 0x80 && decide (at4 f 0x08 ≤ 12582912) &&
    f.length == 128 + at4 f 0x08 + 148

/-- Unretired blocks of the firmware area of a bank (R425, R427). -/
def areaBlocks (s : State) (bank : Nat) : List Nat :=
  (rangeFrom (256 * bank) 196).filter fun b => !fbit s (FLS_ECNT b) FLS_ECNT_RETIRED

/-- An image is stored in slot 1; where it does not fit FW_SHORT is raised and nothing is stored (R427). An image stored
there already is not stored again (R400). -/
def storeImage (s : State) (f : List Nat) : State × Bool :=
  let b := slot1 s
  if imageOf s b = some f then (s, true)
  else if (areaBlocks s b).length * 65536 < f.length then (evtSet s .fls FLS_EVT_FW_SHORT, false)
  else
    let s1 := forAll ((areaBlocks s b).take (ceilDiv f.length 65536)) s fun s k => storeBlocks s k 1
    (wrN (setFls s1 fun x => { x with images := tabPut x.images b f }) PRT_FW_VER_INACT (at4 f 0x0C), true)

/-! ### The relay chain (R400) -/

/-- The bytes of a relay frame that its CRC covers. -/
def relayBytes (f : RelayFrame) : List Nat :=
  [f.hop.toNat + 64 * f.kind.toNat] ++ leBytes 2 f.payload.length ++ leBytes 4 f.imgId.toNat ++ leBytes 4 f.offset.toNat ++
  f.payload.map (·.toNat)

/-- A frame as sent, HOP + 1. -/
def relaySend (s : State) (hop kind img off : Nat) (payload : List Nat) : State :=
  emit s (.peer 30 ([hop, kind, img, off] ++ payload))

/-- A frame is dropped and counted (R400). -/
def relayDrop (s : State) : State := evtSet (count s (PRT_CNT 7) 1 .prt PRT_EVT_SAT) .prt PRT_EVT_RELAY_ERR

/-- A frame is forwarded with HOP + 1 while RELAY_FWD = 1. -/
def relayForward (s : State) (f : RelayFrame) : State :=
  if fbit s PRT_CTRL PRT_CTRL_RELAY_FWD then
    count (relaySend s (f.hop.toNat + 1) f.kind.toNat f.imgId.toNat f.offset.toNat (f.payload.map (·.toNat))) (PRT_CNT 6) 1 .prt
      PRT_EVT_SAT
  else s

/-- A relay frame arrives: the link is up, and the first frame gives the device its hop ID. -/
def relayIn (s : State) (f : RelayFrame) : State :=
  let s1 := fsetb s PRT_RLY PRT_RLY_IN_UP true
  match s.prt.hop with
  | some _ => s1
  | none => fset (setPrt s1 fun x => { x with hop := some f.hop.toNat }) PRT_RLY PRT_RLY_HOP f.hop.toNat

/-- A frame is good: its CRC holds, its length is in range, and it does not arrive with HOP = 63. -/
def relayGood (f : RelayFrame) : Bool :=
  f.crc.toNat == crc32c (relayBytes f) && decide (f.payload.length ≤ 4096) && f.hop.toNat != 63

/-- A frame of a type is taken: bad ones and, but for STATUS, those that this device originated are dropped. -/
def relayTake (s : State) (f : RelayFrame) (kind : Nat) (g : State → State) : State :=
  if !relayGood f || f.kind.toNat != kind || (kind != 2 && s.prt.origin.contains f.imgId.toNat) then relayDrop s
  else g (relayIn s f)

/-- RELAY_CHUNK (R400): kept for its image, and forwarded as it has arrived. -/
def execRelayChunk (f : RelayFrame) (s : State) : Res :=
  .next (if mode s = 0 then s
    else relayTake s f 0 fun s =>
      let c := tabPut (tabGet [] s.prt.relay f.imgId.toNat) f.offset.toNat (f.payload.map (·.toNat))
      relayForward (setPrt s fun x => { x with relay := tabPut x.relay f.imgId.toNat c }) f)

/-- The image that the chunks of an IMG_ID make up from an offset to a length, where none is missing. -/
def joinChunks : Tab (List Nat) → Nat → Nat → Option (List Nat)
  | [], o, n => if o = n then some [] else none
  | (k, l) :: t, o, n => if k = o then (joinChunks t (o + l.length) n).map (l ++ ·) else none

/-- The result of an END: 0 stored, 1 chunk missing, 2 bank busy, 3 header (Table 16-7). -/
def relayStore (s : State) (img len : Nat) : State × Nat :=
  if ((imageOf s (slot1 s)).map imgId) = some img then (s, 0)
  else match joinChunks (tabGet [] s.prt.relay img) 0 len with
    | none => (s, 1)
    | some f =>
      if imgId f ≠ img ∨ !headerOk f then (s, 3)
      else if fbit s FLS_STAT FLS_STAT_BUSY ∨ claimed s baseFLS then (s, 2)
      else
        let r := storeImage s f
        if r.2 then (setPrt r.1 fun x => { x with relay := tabDel x.relay img }, 0) else (r.1, 2)

/-- RELAY_END (R400): the image is stored in the inactive bank, END is forwarded and a STATUS frame sent onward. -/
def execRelayEnd (f : RelayFrame) (s : State) : Res :=
  .next (if mode s = 0 then s
    else relayTake s f 1 fun s =>
      let r := relayStore s f.imgId.toNat f.offset.toNat
      let s1 := if r.2 = 0 then r.1 else evtSet r.1 .prt PRT_EVT_RELAY_ERR
      let hop := (s1.prt.hop).getD 0
      relaySend (relayForward s1 f) (hop + 1) 2 f.imgId.toNat 0 [hop, r.2, 0, 0])

/-- RELAY_STATUS (R400, R405): the origin keeps the first 64 since the last Commit; another device forwards it. -/
def execRelayStatus (f : RelayFrame) (s : State) : Res :=
  .next (if mode s = 0 then s
    else relayTake s f 2 fun s =>
      if s.prt.origin.contains f.imgId.toNat then
        let b := f.payload.map (·.toNat)
        setPrt s fun x => { x with status := (x.status ++ [(b.getD 0 0, b.getD 1 0, f.imgId.toNat)]).take 64 }
      else relayForward s f)

/-- FW_KEY_REVOKE (R406): permanent. -/
def execFwKeyRevoke (m : Master) (slots : BitVec 2) (s : State) : Res :=
  .next (regWrite s m PRT_KEY fun s => fset s PRT_KEY PRT_KEY_REVOKE (fget s PRT_KEY PRT_KEY_REVOKE ||| slots.toNat))

/-! ### Beginning a hand-over (R393) -/

/-- A spindle of a bound mechanism is in CATCH, ALIGN, RAMP, ACCEL, STEP or BRAKE. -/
def spindleMoving (s : State) : Bool := s.trs.bound.any fun p => [1, 2, 3, 4, 6, 7].contains (spnState s p)

/-- A planned hand-over may start. -/
def hoAllowed (s : State) : Bool :=
  isActiveRole s && partnerAlive s && decide (partnerRole s = 2) && mirrorValid s && mode s != 0xA && mode s != 0xB

/-- The leaving device enters HANDOVER: commands that have not passed their commit point end with ANA Transition. -/
def leaveBegin (s : State) : State :=
  let s1 := hoPhase (setPrt (setRole s 3) fun x => { x with hoWait := false }) 1
  emit (forAll (s1.host.cmds.filter fun c => c.fail.isNone) s1 fun s c => failCmd s c 3 0x03) (.peer 23 [])

/-- An accepted hand-over begins once no spindle moves; one that may no longer start fails. -/
def hoTry (s : State) : State :=
  if !s.prt.hoWait then s
  else if !hoAllowed s then handoverFail s 2
  else if spindleMoving s then s else leaveBegin s

/-- A hand-over is asked for, by an admin command or a write of HO_GO: refused with RESULT 1, or accepted. -/
def hoRequest (s : State) (cmd : Option (Nat × Nat)) : State :=
  if !hoAllowed s ∨ s.prt.hoWait then
    let s1 := hoResult s 1
    match cmd with
    | some c => sequenceError s1 c.1 c.2
    | none => s1
  else hoTry (setPrt (hoResult s 0) fun x => { x with hoWait := true, hoCmd := cmd })

/-! ### Firmware commands (R399, R402, R405) -/

/-- The staged image as bytes. -/
def stagedImage (s : State) : List Nat :=
  ((rangeFrom 0 (ceilDiv s.prt.stageLen 4)).flatMap fun i => leBytes 4 (tabGet 0 s.prt.stage i)).take s.prt.stageLen

/-- FW_IMAGE_DOWNLOAD (R399): NUMD is 0-based, OFST in dwords; offset 0 begins a new image. -/
def execFwImageDownload (x : HPort) (cid : BitVec 16) (numd ofst : BitVec 32) (data : List Word) (s : State) : Res :=
  .next (adminCmd s x fun s =>
    let n := numd.toNat + 1
    if 3145728 < ofst.toNat + n then invalidField s (portId x) cid.toNat
    else
      let s1 := if ofst = 0 then setPrt s fun y => { y with stage := [], stageLen := 0 } else s
      let put := ((rangeFrom ofst.toNat n).zip data).foldl (fun t d => tabPut t d.1 d.2.toNat) s1.prt.stage
      adminOk (setPrt s1 fun y => { y with stage := put, stageLen := max y.stageLen (4 * (ofst.toNat + n)) }) (portId x)
        cid.toNat 0)

/-- An image goes to the partner, and along the relay chain while RELAY_FWD = 1 (Table 16-6). -/
def sendImage (s : State) (f : List Nat) : State :=
  let s1 := emit s (.peer 24 f)
  if fbit s PRT_CTRL PRT_CTRL_RELAY_FWD then
    let chunks := (rangeFrom 0 (ceilDiv f.length 4096)).map fun i => (4096 * i, (f.drop (4096 * i)).take 4096)
    let s2 := forAll chunks s1 fun s c => relaySend s 0 0 (imgId f) c.1 c.2
    setPrt (relaySend s2 0 1 (imgId f) f.length []) fun x => { x with origin := imgId f :: x.origin.filter (· != imgId f) }
  else s1

/-- The partner of a pair update is a STANDBY that is ALIVE with MIRROR_VALID = 1 (R399). -/
def pairReady (s : State) : Bool := isActiveRole s && partnerAlive s && decide (partnerRole s = 2) && mirrorValid s

/-- Firmware Commit with CA 0 to 3 (Table 16-6). -/
def fwCommit (s : State) (x cid ca fs : Nat) : State :=
  let f := stagedImage s
  if claimed s baseFLS && ca ≠ 2 then claimHeld s x cid
  else if ca = 2 then adminOk (setFls s fun y => { y with flipNext := true }) x cid 0
  else if fs = 2 then adminEnd s x cid 1 0x06
  else if ca = 3 ∧ roleOf s = 2 then adminEnd s x cid 1 0x13
  else if ca = 3 ∧ (!pairReady s ∨ s.prt.upStep ≠ 0) then adminEnd s x cid 1 0x0B
  else if !headerOk f then adminEnd s x cid 1 0x07
  else
    let r := storeImage (setPrt s fun y => { y with status := [] }) f
    if !r.2 then adminEnd r.1 x cid 0 0x06
    else
      let s1 := sendImage r.1 f
      if ca = 0 then adminOk s1 x cid 0
      else if ca = 1 then adminOk (setFls s1 fun y => { y with flipNext := true }) x cid 0
      else setPrt s1 fun y => { y with upStep := 1, upCmd := some (x, cid) }

/-- FW_COMMIT_CA0 (R399). -/
def execFwCommitCa0 (x : HPort) (cid : BitVec 16) (fs : BitVec 3) (s : State) : Res :=
  .next (adminCmd s x fun s => fwCommit s (portId x) cid.toNat 0 fs.toNat)

/-- FW_COMMIT_CA1 (R399). -/
def execFwCommitCa1 (x : HPort) (cid : BitVec 16) (fs : BitVec 3) (s : State) : Res :=
  .next (adminCmd s x fun s => fwCommit s (portId x) cid.toNat 1 fs.toNat)

/-- FW_COMMIT_CA2 (R399). -/
def execFwCommitCa2 (x : HPort) (cid : BitVec 16) (fs : BitVec 3) (s : State) : Res :=
  .next (adminCmd s x fun s => fwCommit s (portId x) cid.toNat 2 fs.toNat)

/-- FW_COMMIT_CA3 (R399, R402). -/
def execFwCommitCa3 (x : HPort) (cid : BitVec 16) (fs : BitVec 3) (s : State) : Res :=
  .next (adminCmd s x fun s => fwCommit s (portId x) cid.toNat 3 fs.toNat)

/-- A pair update is done (R402). -/
def updateDone (s : State) : State :=
  evtSet (fsetb (setPrt s fun x => { x with upStep := 0 }) PRT_STAT PRT_STAT_UPDATING false) .prt PRT_EVT_UPDATE_DONE

/-- The device makes slot 1 its active bank and resets (R402 steps 2 and 6); `next` is the stage after it. -/
def updateReboot (s : State) (next : Nat) : State :=
  deviceReset (setFls (setPrt s fun x => { x with upStep := next }) fun f => { f with flipNext := true }) 3

/-- The stage of a pair update on the device the Firmware Commit came to (R402): 1 the partner confirms the image, 2 the
STANDBY has rejoined, 3 the mirror version is agreed and the resync done, with Firmware Commit completing, 5 the hand-over,
which its own end moves on, 6 this device reboots, 7 it has rejoined and resynced. -/
def updateOrigin (s : State) (n : Nat) (ok : Bool) : State :=
  if n = 1 then
    if ok then fsetb (setPrt (emit s (.peer 25 [])) fun x => { x with upStep := 2 }) PRT_STAT PRT_STAT_UPDATING true
    else updateFail s
  else if n = 2 then (if ok then setPrt s fun x => { x with upStep := 3 } else updateFail s)
  else if n = 3 then
    if !ok then updateFail s
    else if !mirrorValid s then s
    else
      let s1 := match s.prt.upCmd with
        | some c => adminOk (setPrt s fun x => { x with upCmd := none, upStep := 5 }) c.1 c.2 0
        | none => setPrt s fun x => { x with upStep := 5 }
      if hoAllowed s1 then hoTry (setPrt (hoResult s1 0) fun x => { x with hoWait := true }) else updateFail (hoResult s1 1)
  else if n = 6 then updateReboot s 7
  else if n = 7 then
    if mode s < 2 then s
    else if !ok ∨ fbit s PRT_FW PRT_FW_FALLBACK then rootGrade (updateFail s) 1 0xD3
    else if mirrorValid s then updateDone s else s
  else s

/-- PAIR_UPDATE_STEP (R402): a stage ends, well or not. On the partner's side: a STANDBY with the image in slot 1 reboots into
it; when the update fails it goes back to the old image; as the new ACTIVE it is done when the other has rejoined. -/
def execPairUpdateStep (ok : Bool) (s : State) : Res :=
  .next (let n := s.prt.upStep
    if n = 0 then
      if ok ∧ roleOf s = 2 ∧ partnerAlive s ∧ (imageOf s (slot1 s)).isSome then updateReboot s 8 else s
    else if n = 8 then
      if mode s < 2 then s
      else if !ok then
        if fbit s PRT_FW PRT_FW_FALLBACK ∨ roleOf s ≠ 2 then updateFail s else updateReboot s 0
      else if isActiveRole s ∧ mirrorValid s then updateDone s else s
    else updateOrigin s n ok)

/-- ROLE_HANDOVER (R405): admin 0xD8. -/
def execRoleHandover (x : HPort) (cid : BitVec 16) (s : State) : Res :=
  .next (adminCmd s x fun s =>
    if claimed s basePRT then claimHeld s (portId x) cid.toNat else hoRequest s (some (portId x, cid.toNat)))

/-- Update Confirm (R405): the old format copies go and SVN_FLOOR rises, on both devices. -/
def updateConfirm (s : State) (x cid : Nat) (same : Bool) : State :=
  if fbit s PRT_STAT PRT_STAT_UPDATING ∨ !same then sequenceError s x cid
  else
    let s1 := setFls s fun f => { f with oldCopies := false }
    let n := max (fget s1 PRT_FW_FLOOR PRT_FW_FLOOR_SVN_FLOOR) (fget s1 PRT_FW PRT_FW_SVN)
    adminOk (emit (fset s1 PRT_FW_FLOOR PRT_FW_FLOOR_SVN_FLOOR n) (.peer 26 [])) x cid 0

/-- UPDATE_CONFIRM (R405): admin 0xD9; whether the two devices run the same image is the environment's. -/
def execUpdateConfirm (x : HPort) (cid : BitVec 16) (same : Bool) (s : State) : Res :=
  .next (adminCmd s x fun s => updateConfirm s (portId x) cid.toNat same)

end Sys2Proof.Machine
end

