-- ==== Sys2Proof/Machine/Flash.lean ====
section
/-! DEFINITION. The flash array through its command register (chapter 18): page programs, block erases and page reads, wear
and retirement, the supply band (R452), and the release of a claim, which a waiting checkpoint follows (R437). -/
namespace Sys2Proof.Machine
open Sys2Proof

/-! ### The array -/

/-- An erased page. -/
def erasedPage : List Nat := List.replicate 256 0xFF

/-- What a page holds: bytes the command register put there, or the erased state of a block it erased; none where it holds
what the firmware or the maker left there, or is torn (R437). -/
def pageOf (s : State) (page : Nat) : Option (List Nat) :=
  if s.fls.torn.any fun x => x.1 == page / 256 && (x.2.isNone || x.2 == some page) then none
  else match s.fls.pages.find? fun x => x.1 == page with
    | some x => some x.2
    | none => if s.fls.erased.contains (page / 256) then some erasedPage else none

/-- FLS_PDATA as bytes. -/
def pdataBytes (s : State) : List Nat := (rangeFrom 0 64).flatMap fun w => leBytes 4 (rdN s (FLS_PDATA w))

/-- A bit of the new bytes would rise from 0 to 1 (R432). -/
def anyRise (old new : List Nat) : Bool := (old.zip new).any fun x => (x.1 ||| x.2) != x.1

/-- The page is programmed with bytes. -/
def putPage (s : State) (page : Nat) (data : List Nat) : State :=
  setFls s fun f => { f with pages := tabPut f.pages page data, torn := f.torn.filter fun x => x.2 != some page }

/-- A page, or the whole block, reads undefined. -/
def putTorn (s : State) (block : Nat) (page : Option Nat) : State :=
  setFls s fun f => { f with torn := (block, page) :: f.torn.filter (· != (block, page)) }

/-- A patch of the chain whose pages reach into block `b` is lost: patches follow each other, each padded to a page. -/
def losePatches (b : Nat) : List (List Nat) → Nat → List (List Nat)
  | [], _ => []
  | f :: l, at_ =>
    let n := ceilDiv f.length 256
    (if at_ / 256 ≤ b ∧ b ≤ (at_ + n - 1) / 256 ∧ n ≠ 0 then [] else f) :: losePatches b l (at_ + n)

/-- The calibration values of SERIALs that an erased block held are gone: which those are is a free value. -/
def loseCal (s : State) : State :=
  forAll s.fls.cal s fun s x =>
    let t := drawn s
    if freeVal s % 2 = 1 then setFls t fun f => { f with cal := f.cal.filter fun y => y.1 != x.1 } else t

/-- A copy of the table log has an erased block. -/
def tblErased (s : State) (first : Nat) : Bool := (rangeFrom first 4).any s.fls.erased.contains

/-- The blocks that a bank's image takes: from the area's first on, retired ones skipped (R425); the image the device was made with
takes the 193 of the largest (R427). -/
def fwBlocks (s : State) (bank : Nat) : List Nat :=
  (areaBlocks s bank).take (((imageOf s bank).map fun f => ceilDiv f.length 65536).getD 193)

/-- What the firmware keeps in an area is lost with a block of it that an expert erases (R425, R426). The table log is lost
with both its copies. -/
def areaLost (s : State) (k : Nat) : State :=
  let b := ((s.fls.remap.find? fun x => x.2 == k).map (·.1)).getD k
  let newest := if s.fls.slot = 0 then 228 ≤ b ∧ b < 256 else 460 ≤ b ∧ b < 488
  if b < 196 ∨ (256 ≤ b ∧ b < 452) then
    if (fwBlocks s (b / 256)).contains b then setFls s fun f => { f with images := tabPut f.images (b / 256) [] } else s
  else if 196 ≤ b ∧ b < 200 then { s with trs := { s.trs with bases := updAt s.trs.bases 0 fun _ => [] } }
  else if 452 ≤ b ∧ b < 456 then { s with trs := { s.trs with bases := updAt s.trs.bases 1 fun _ => [] } }
  else if 200 ≤ b ∧ b < 216 then { s with trs := { s.trs with patches := losePatches (b - 200) s.trs.patches 0 } }
  else if 220 ≤ b ∧ b < 228 then loseCal s
  else if (216 ≤ b ∧ b < 220) ∨ (456 ≤ b ∧ b < 460) then
    if tblErased s (if b < 256 then 456 else 216) then
      setMem (setFls s fun f => { f with caps := [], choppers := [] }) fun m => { m with codes := none, stored := [] }
    else s
  else if newest then
    setFls s fun f => { f with ckpt := f.older, older := none, slot := 1 - f.slot, ckptBad := true }
  else if (228 ≤ b ∧ b < 256) ∨ (460 ≤ b ∧ b < 488) then setFls s fun f => { f with older := none }
  else s

/-! ### Ends of operations -/

/-- An operation ends with a RESULT (R431, R433); the controller's domain goes off (Table 13-3). -/
def flashEnd (s : State) (result : Nat) : State :=
  let s1 := setFls (fsetb (fsetb (domRelease s 473) FLS_STAT FLS_STAT_BUSY false) FLS_CMD FLS_CMD_GO false) fun f => { f with job := none }
  let s2 := fsetb (fset s1 FLS_STAT FLS_STAT_RESULT result) FLS_STAT FLS_STAT_DONE true
  let s3 := evtSet s2 .fls FLS_EVT_DONE
  if result = 1 then evtSet s3 .fls FLS_EVT_FAIL else s3

/-- A block is retired on its first FAIL (R435): at basic level the firmware moves the area's contents to SPARE. -/
def retireBlock (s : State) (b : Nat) : State :=
  if fbit s (FLS_ECNT b) FLS_ECNT_RETIRED then s
  else
    let s1 := evtSet (syncFlashWear (fsetb s (FLS_ECNT b) FLS_ECNT_RETIRED true)) .fls FLS_EVT_RETIRED
    remapBlocks s1

/-! ### The command register (R431 to R434) -/

/-- The RW fields of a write of FLS_CMD; only the holder of the claim writes OVR (R432). -/
def cmdFields (s : State) (m : Master) (value : Word) : Word :=
  let old := rd s FLS_CMD
  let v := setF (setF (setF old FLS_CMD_OP (getF value FLS_CMD_OP)) FLS_CMD_MARGIN (getF value FLS_CMD_MARGIN)) FLS_CMD_PAGE
    (getF value FLS_CMD_PAGE)
  if holds s baseFLS m then setF v FLS_CMD_OVR (getF value FLS_CMD_OVR) else v

/-- An operation begins on a block: the controller's domain is asked for (Table 13-3); BLOCK and PULSES of the status. -/
def flashStart (s : State) (b : Nat) : State := fset (fset (domRequest s 473) FLS_STAT FLS_STAT_BLOCK b) FLS_STAT FLS_STAT_PULSES 0

/-- The refusal of a program or erase of block `b`: RETIRED, PROTECTED (R434) or VOLTAGE (R430); 0 for none. -/
def flashRefused (s : State) (b : Nat) : Nat :=
  if fbit s (FLS_ECNT b) FLS_ECNT_RETIRED then 4 else if activeFwBlock s b then 5
  else if fget s FLS_STAT FLS_STAT_VBAND = 2 then 6 else 0

/-- The check before a program's first pulse (R431, R432): RESULT 2 or 3, or 0. `bad` is what the check finds where the
page's content, or the rise of a check bit, is not known to the model (log entry 10). -/
def programCheck (s : State) (page : Nat) (bad : Bool) : Nat :=
  let new := pdataBytes s
  if fbit s FLS_CMD FLS_CMD_OVR then
    match pageOf s page with
    | some old => if anyRise old new || (bad && old != new && old != erasedPage) then 3 else 0
    | none => if bad then 3 else 0
  else
    match pageOf s page with
    | some old => if old = erasedPage then 0 else 2
    | none => if bad then 2 else 0

/-- A program or erase runs: BUSY, and the job. -/
def flashRun (s : State) (j : FlsJob) : State :=
  setFls (fsetb (fsetb s FLS_STAT FLS_STAT_BUSY true) FLS_CMD FLS_CMD_GO true) fun f => { f with job := some j }

/-- OP 1: a page program starts. -/
def programStart (s : State) (bad : Bool) : State :=
  let page := fget s FLS_CMD FLS_CMD_PAGE
  let s1 := flashStart s (page / 256)
  if flashRefused s1 (page / 256) ≠ 0 then flashEnd s1 (flashRefused s1 (page / 256))
  else if programCheck s1 page bad ≠ 0 then flashEnd s1 (programCheck s1 page bad)
  else flashRun s1 ⟨1, page, pdataBytes s1, 0, false⟩

/-- OP 2: a block erase starts; its counter goes up, and the block's content is gone. -/
def eraseStart (s : State) : State :=
  let page := fget s FLS_CMD FLS_CMD_PAGE
  let b := page / 256
  let s1 := flashStart s b
  if flashRefused s1 b ≠ 0 then flashEnd s1 (flashRefused s1 b)
  else flashRun (putTorn (areaLost (syncFlashWear (eraseCount s1 b)) b) b none) ⟨2, page, [], 0, false⟩

/-- The word `w` of the page buffer after a read: a free value where the page's content, or what the read makes of it, is not
fixed. -/
def pdataRead (s : State) (content : Option (List Nat)) (w : Nat) : State :=
  match content with
  | some l => wrN s (FLS_PDATA w) (leNat ((l.drop (4 * w)).take 4))
  | none => wrN (drawn s) (FLS_PDATA w) (freeVal s)

/-- OP 3: a page read with its MARGIN (R429, R430). Of the sixteen 128-bit words: those corrected, those uncorrectable, and
those that a margin read shows otherwise (log entry 10). -/
def pageRead (s : State) (ce ue weak : BitVec 16) : State :=
  let page := fget s FLS_CMD FLS_CMD_PAGE
  let margin := fget s FLS_CMD FLS_CMD_MARGIN
  let sure := margin != 3 && (match minWs s with
    | some n => decide (n ≤ fget s FLS_RDCFG FLS_RDCFG_WS)
    | none => false)
  let s1 := forAll (rangeFrom 0 64) (flashStart s (page / 256)) fun s w =>
    pdataRead s (if sure && !ue.getLsbD (w / 4) && !(margin != 0 && weak.getLsbD (w / 4)) then pageOf s page else none) w
  let nc := popcount 16 ce.toNat
  let nu := popcount 16 ue.toNat
  let s2 := if nc = 0 then s1 else evtSet (count s1 (FLS_CNT 5) nc .fls FLS_EVT_SAT) .fls FLS_EVT_RD_CE
  let s3 := if nu = 0 then s2 else evtSet (count s2 (FLS_CNT 6) nu .fls FLS_EVT_SAT) .fls FLS_EVT_RD_UE
  flashEnd s3 0

/-- A write of FLS_CMD: with GO = 1 while BUSY = 1 the GO is ignored (R437), other OPs are ignored; a command waits for good where the
controller's domain has failed (R331). -/
def flsCmdWrite (s : State) (m : Master) (value : Word) (bad : Bool) (ce ue weak : BitVec 16) : State :=
  let s1 := wr s FLS_CMD (cmdFields s m value)
  if getF value FLS_CMD_GO = 0 ∨ fbit s FLS_STAT FLS_STAT_BUSY ∨ domFailed s 473 then s1
  else match getF value FLS_CMD_OP with
    | 1 => programStart s1 bad
    | 2 => eraseStart s1
    | 3 => pageRead s1 ce ue weak
    | _ => s1

/-- The value of a write of FLS_CMD that starts an OP. -/
def goValue (value : Word) (op : Nat) : Word := setF (setF value FLS_CMD_OP op) FLS_CMD_GO 1

/-- FLASH_PROGRAM (R431, R432, R434). -/
def execFlashProgram (m : Master) (value : Word) (bad : Bool) (s : State) : Res :=
  .next (regWrite s m FLS_CMD fun s => flsCmdWrite s m (goValue value 1) bad 0 0 0)

/-- FLASH_ERASE (R433, R434). -/
def execFlashErase (m : Master) (value : Word) (s : State) : Res :=
  .next (regWrite s m FLS_CMD fun s => flsCmdWrite s m (goValue value 2) false 0 0 0)

/-- FLASH_PAGE_READ (R429). -/
def execFlashPageRead (m : Master) (value : Word) (ce ue weak : BitVec 16) (s : State) : Res :=
  .next (regWrite s m FLS_CMD fun s => flsCmdWrite s m (goValue value 3) false ce ue weak)

/-- A pulse of the operation that runs has ended: PULSES counts it. -/
def pulseCount (s : State) (j : FlsJob) : State :=
  fset (setFls s fun f => { f with job := some { j with pulses := j.pulses + 1 } }) FLS_STAT FLS_STAT_PULSES (j.pulses + 1)

/-- A program pulse and its verify end (R431): PMAX of the block follows. -/
def programPulse (s : State) (j : FlsJob) (verified : Bool) : State :=
  let b := j.page / 256
  let n := j.pulses + 1
  let s1 := count (pulseCount s j) (FLS_CNT 1) 1 .fls FLS_EVT_SAT
  let s2 := if fget s1 (FLS_ECNT b) FLS_ECNT_PMAX < n then fset s1 (FLS_ECNT b) FLS_ECNT_PMAX n else s1
  if j.volt then flashEnd (putTorn s2 b (some j.page)) 6
  else if verified then flashEnd (count (putPage s2 j.page j.data) (FLS_CNT 0) 1 .fls FLS_EVT_SAT) 0
  else if n < 12 then s2
  else retireBlock (flashEnd (count (putTorn s2 b (some j.page)) (FLS_CNT 3) 1 .fls FLS_EVT_SAT) 1) b

/-- An erase pulse and its verify end (R433). -/
def erasePulse (s : State) (j : FlsJob) (verified : Bool) : State :=
  let b := j.page / 256
  let s1 := pulseCount s j
  if j.volt then flashEnd s1 6
  else if verified then
    flashEnd (setFls s1 fun f =>
      { f with erased := b :: f.erased.filter (· != b), pages := f.pages.filter (fun x => x.1 / 256 != b),
               torn := f.torn.filter fun x => x.1 != b }) 0
  else if j.pulses + 1 < 8 then s1
  else retireBlock (flashEnd (count s1 (FLS_CNT 4) 1 .fls FLS_EVT_SAT) 1) b

/-- FLASH_PROGRAM_PULSE_DONE (R431). -/
def execFlashProgramPulseDone (verified : Bool) (s : State) : Res :=
  .next (match s.fls.job with
    | some j => if j.op = 1 then programPulse s j verified else s
    | none => s)

/-- FLASH_ERASE_PULSE_DONE (R433). -/
def execFlashErasePulseDone (verified : Bool) (s : State) : Res :=
  .next (match s.fls.job with
    | some j => if j.op = 2 then erasePulse s j verified else s
    | none => s)

/-! ### The supply band (R452, R438) -/

/-- VBAND_CHANGE (R452): the firmware keeps WS at the value of Table 18-2, unless FLS is claimed (R438, R20); an operation
that runs ends with its pulse when the band is 2 (Table 18-3). -/
def execVbandChange (band : Fin 3) (s : State) : Res :=
  .next (if mode s = 0 then fset s FLS_STAT FLS_STAT_VBAND band
    else
      let s1 := fset s FLS_STAT FLS_STAT_VBAND band
      let s2 := if band.val = 2 then
          setFls s1 fun f => { f with job := f.job.map fun j => { j with volt := true } } else s1
      wsFollow s2)

/-! ### The release of a claim (R21) -/

/-- EXPERT_RELEASE (R21): a checkpoint that waited for FLS is written (R437). -/
def execExpertRelease (m : Master) (addr : Nat) (s : State) : Res :=
  .next (if qcsReach s m addr then
      match xclaimBase addr with
      | some b => claimsFreed (writeXclaim s m b false)
      | none => s
    else undefAccess s m addr true)

end Sys2Proof.Machine
end

