-- ==== Sys2Proof/Machine/FrontEnd.lean ====
section
/-! DEFINITION. The QF-220 front-end as the protocol shows it: TSB answers, the ownership token, watchdogs, CMD and WRITE
flits, WINH, and the loss actions (R70 to R98). Side 0 is FE-0, side 1 FE-1. -/
namespace Sys2Proof.Machine
open Sys2Proof

/-- The front-end's answer on TSB. -/
def feAnswer (s : State) (p status : Nat) (data : List Nat) : State := emit s (.tsbResp p (tsbAnswer status data))

/-- The side owns the token. -/
def feOwns (x : FrontEnd) (side : Nat) : Bool := x.owner == side + 1

/-- The rows of Table 3-6: address, size. -/
def feRows : List (Nat × Nat) := [(0x0000, 64), (0x0100, 8), (0x0110, 8), (0x0200, 4), (0x0210, 2), (0x0220, 4)]

/-- The bytes of a witness: COUNT, ROLE, HEALTH, zero. -/
def witBytes (w : Nat × Nat × Nat) : List Nat := leBytes 4 w.1 ++ [w.2.1, w.2.2, 0, 0]

/-- The content of the row that begins at `base` as side `side` reads it (Table 3-6). -/
def feContent (x : FrontEnd) (p side base : Nat) : List Nat :=
  if base = 0x0000 then Config.feIdent p side
  else if base = 0x0100 then witBytes x.wit0
  else if base = 0x0110 then witBytes x.wit1
  else if base = 0x0200 then [x.owner, 0] ++ leBytes 2 x.epoch
  else if base = 0x0210 then leBytes 2 x.wdogUs
  else [b2n x.loss + 2 * b2n x.winhErr + 4 * b2n x.otherLost, x.attnCause, 0, 0]

/-- A front-end change of OWNER: EPOCH moves on, unapplied entries and unwritten bits of the old owner go, every head is
inhibited until two good words of the new owner, and none is written (R86, R93, R94). -/
def feOwner (x : FrontEnd) (o : Nat) : FrontEnd :=
  if x.owner = o then x
  else { x with owner := o, epoch := (x.epoch + 1) % 65536, pend := [], wpend := [], writeGate := 0, inh := 0xFF,
                skip := 0xFF, winhNeed := 2 }

/-- The watchdog of a side runs. -/
def feRun (x : FrontEnd) (side : Nat) (b : Bool) : FrontEnd := if side = 0 then { x with run0 := b } else { x with run1 := b }

/-- ACQUIRE from a side: granted when no owner, OK when it owns, BUSY otherwise (R93). -/
def feAcquire (s : State) (p side : Nat) : State :=
  let x := feOf s p
  if feOwns x side then feAnswer s p 0 []
  else if x.owner = 0 then feAnswer (setFe s p fun x => feRun (feOwner x (side + 1)) side true) p 0 []
  else feAnswer s p 4 []

/-- RELEASE from a side (R93). -/
def feRelease (s : State) (p side : Nat) : State :=
  if feOwns (feOf s p) side then feAnswer (setFe s p fun x => feOwner x 0) p 0 [] else feAnswer s p 3 []

/-- HANDOFF from a side (R93): the token moves to the other side and its watchdog is restarted. -/
def feHandoff (s : State) (p side : Nat) : State :=
  if feOwns (feOf s p) side then
    feAnswer (setFe s p fun x => feRun (feOwner x (2 - side)) (1 - side) true) p 0 []
  else feAnswer s p 3 []

/-- FE_TSB_READ (R87, R89): a READ within one row; BAD_ADDR elsewhere or past the row's end, BAD_CRC for a request whose CRC
fails. -/
def execFeTsbRead (p : Fin 32) (side : Fin 2) (addr : BitVec 16) (len : BitVec 8) (crcOk : Bool) (s : State) : Res :=
  .next (let a := addr.toNat
    let n := len.toNat
    if !crcOk then feAnswer s p 1 []
    else if n = 0 ∨ 32 < n then feAnswer s p 2 []
    else match feRows.find? fun r => r.1 ≤ a ∧ a < r.1 + r.2 with
      | some r =>
        if a + n ≤ r.1 + r.2 then feAnswer s p 0 (((feContent (feOf s p) p side r.1).drop (a - r.1)).take n)
        else feAnswer s p 2 []
      | none => feAnswer s p 2 [])

/-- FE_TSB_WRITE (R87, R89): the CRC, then permission, then address and length. A token byte the table does not list has an
open status. -/
def execFeTsbWrite (p : Fin 32) (side : Fin 2) (addr : BitVec 16) (data : List Byte) (crcOk : Bool) (s : State) : Res :=
  .next (let a := addr.toNat
    let d := data.map (·.toNat)
    let x := feOf s p
    if !crcOk then feAnswer s p 1 []
    else if d.length = 0 ∨ 32 < d.length then feAnswer s p 2 []
    else match feRows.find? fun r => r.1 ≤ a ∧ a < r.1 + r.2 with
      | none => feAnswer s p 2 []
      | some r =>
        if r.1 = 0x0000 ∨ r.1 = 0x0100 ∧ side.val ≠ 0 ∨ r.1 = 0x0110 ∧ side.val ≠ 1 ∨ r.1 = 0x0210 ∧ !feOwns x side then
          feAnswer s p 3 []
        else if a ≠ r.1 ∨ d.length ≠ (if r.1 = 0x0200 then 1 else r.2) then feAnswer s p 2 []
        else if r.1 = 0x0100 then
          feAnswer (setFe s p fun x => { x with wit0 := (leNat (d.take 4), d.getD 4 0, d.getD 5 0) }) p 0 []
        else if r.1 = 0x0110 then
          feAnswer (setFe s p fun x => { x with wit1 := (leNat (d.take 4), d.getD 4 0, d.getD 5 0) }) p 0 []
        else if r.1 = 0x0200 then
          (if d.headD 0 = 1 then feAcquire s p side else if d.headD 0 = 2 then feRelease s p side
            else if d.headD 0 = 3 then feHandoff s p side else feAnswer (drawn s) p (freeVal s % 5) [])
        else if r.1 = 0x0210 then
          (if 50 ≤ leNat d ∧ leNat d ≤ 10000 then feAnswer (setFe s p fun x => { x with wdogUs := leNat d }) p 0 []
            else feAnswer s p 2 [])
        else
          let w := leNat d
          feAnswer (setFe s p fun x =>
            { x with
              loss := x.loss && w % 2 == 0
              winhErr := x.winhErr && w / 2 % 2 == 0
              otherLost := x.otherLost && w / 4 % 2 == 0
              attnCause := x.attnCause &&& (255 - w / 256 % 256) }) p 0 [])

/-- A good heartbeat of a side: its watchdog is restarted (R96). -/
def feHeartbeat (s : State) (p side : Nat) : State := setFe s p fun x => feRun x side true

/-- FE_TSB_HEARTBEAT (R87): address 0x0300 and 4 bytes; in lane mode it restarts no watchdog. -/
def execFeTsbHeartbeat (p : Fin 32) (side : Fin 2) (addr : BitVec 16) (len : BitVec 8) (crcOk : Bool) (s : State) : Res :=
  .next (let x := feOf s p
    if !crcOk then feAnswer s p 1 []
    else if addr ≠ 0x0300 ∨ len ≠ 4 then feAnswer s p 2 []
    else if (if side.val = 0 then x.lane0 else x.lane1) then feAnswer s p 0 []
    else feAnswer (feHeartbeat s p side) p 0 [])

/-- FE_ACQUIRE (R93). -/
def execFeAcquire (p : Fin 32) (side : Fin 2) (s : State) : Res := .next (feAcquire s p side)

/-- FE_RELEASE (R93). -/
def execFeRelease (p : Fin 32) (side : Fin 2) (s : State) : Res := .next (feRelease s p side)

/-- FE_HANDOFF (R93, R86). -/
def execFeHandoff (p : Fin 32) (side : Fin 2) (s : State) : Res := .next (feHandoff s p side)

/-- FE_WATCHDOG_EXPIRE (R97): the owner's watchdog expires; the loss actions. The heads are unloaded from the back-EMF above
2,400 rpm and from the bus below; with neither they stay where they are. -/
def execFeWatchdogExpire (p : Fin 32) (rpm : BitVec 16) (busPower : Bool) (s : State) : Res :=
  .next (let x := feOf s p
    if x.owner = 0 ∨ !(if x.owner = 1 then x.run0 else x.run1) then s
    else
      setFe s p fun x =>
        { feRun (feOwner { x with lane0 := x.lane0 && x.owner != 1, lane1 := x.lane1 && x.owner != 2 } 0) (x.owner - 1) false with
          assistOn := 0, unloaded := x.unloaded || decide (2400 < rpm.toNat) || busPower, coasting := true, loss := true })

/-- A coasting spindle is short-braked below 1,200 rpm (R97). -/
def feShortBrake (x : FrontEnd) (rpm : Nat) : Bool := x.coasting && decide (rpm < 1200)

/-- FE_OTHER_WATCHDOG_EXPIRE (R96): the watchdog of a port without the token sets OTHER_LOST and is disarmed. -/
def execFeOtherWatchdogExpire (p : Fin 32) (side : Fin 2) (s : State) : Res :=
  .next (let x := feOf s p
    if feOwns x side ∨ !(if side.val = 0 then x.run0 else x.run1) then s
    else setFe s p fun x => { feRun x side false with otherLost := true })

/-- A good flit from a side shows that its port is in lane mode (R97). -/
def feLane (x : FrontEnd) (side : Nat) : FrontEnd := if side = 0 then { x with lane0 := true } else { x with lane1 := true }

/-- FE_HB_FLIT (R94, R96): accepted from both sides. -/
def execFeHbFlit (p : Fin 32) (side : Fin 2) (f : Flit) (s : State) : Res :=
  .next (if flitTaken f 0xB then feHeartbeat (setFe s p fun x => feLane x side) p side else s)

/-- The entries of a CMD flit's payload (R72). -/
def cmdEntries (b : List Nat) : List CmdEntry :=
  (rangeFrom 0 (b.length / 8)).map fun i => ⟨at1 b (8 * i), at1 b (8 * i + 1), at4 b (8 * i + 4)⟩

/-- FE_CMD_FLIT (R72, R94): accepted from the owner at the current EPOCH; else discarded and reported. -/
def execFeCmdFlit (p : Fin 32) (side : Fin 2) (f : Flit) (s : State) : Res :=
  .next (let x := feOf s p
    if !flitTaken f 9 then s
    else if feOwns x side ∧ f.epoch.toNat = x.epoch then
      setFe s p fun x => { feLane x side with pend := x.pend ++ [⟨x.epoch, cmdEntries (flitBytes f)⟩] }
    else emit (setFe s p fun x => feLane x side) (.feReport p 1))

/-- The VALUE a front-end takes an entry for: DRIVE 6 and 7 and STEP 6 and 7 of a spindle entry are COAST (R201), the reserved bits of
write precompensation 0 (R133), the reserved bits of an assist entry and a heater entry 0 (R214). -/
def feValue (cls v : Nat) : Nat :=
  if cls = 3 then
    let d := v / 2 ^ 29
    if 6 ≤ d ∨ ((d = 1 ∨ d = 5) ∧ 6 ≤ v / 2 ^ 26 % 8) then 0 else v
  else if cls = 4 then v / 2 ^ 31 * 2 ^ 31 + v % 2 ^ 16
  else if cls = 5 then v % 2 ^ 16
  else if cls = 6 then v % 64 + v / 2 ^ 8 % 64 * 2 ^ 8 + v / 2 ^ 16 % 64 * 2 ^ 16
  else v

/-- How much earlier a transition is written, in 1/64 of a channel bit, by a precompensation entry and whether the two bits before it
are transitions too (R133). -/
def precompShift (v : Nat) (one two : Bool) : Nat :=
  if one then (if two then v / 2 ^ 16 % 64 else v % 64) else if two then v / 2 ^ 8 % 64 else 0

/-- One entry is applied: an unlisted CLASS is reported, padding ignored (R72); a spindle or precompensation entry that is not applied
as sent is reported too (R133, R201). -/
def feApply (p : Nat) (s : State) (e : CmdEntry) : State :=
  if e.cls = 0 then s
  else if 6 < e.cls then emit s (.feReport p 2)
  else
    let v := feValue e.cls e.value
    let s1 := if (e.cls = 3 ∨ e.cls = 6) ∧ v ≠ e.value then emit s (.feReport p 5) else s
    emit (setFe s1 p fun x =>
      { x with
        drives := tabPut x.drives (e.cls * 16 + e.index % 16) v
        assistOn := if e.cls = 4 then x.assistOn - x.assistOn / 2 ^ (e.index % 8) % 2 * 2 ^ (e.index % 8) +
          v / 2 ^ 31 * 2 ^ (e.index % 8) else x.assistOn
        coasting := if e.cls = 3 then false else x.coasting }) (.feDrive p e.cls e.index v)

/-- FE_CMD_APPLY (R72): all entries of the oldest accepted CMD flit together. -/
def execFeCmdApply (p : Fin 32) (s : State) : Res :=
  .next (match (feOf s p).pend with
    | [] => s
    | c :: cs =>
      let s1 := setFe s p fun x => { x with pend := cs }
      if c.epoch = (feOf s p).epoch then forAll c.entries s1 (feApply p) else s1)

/-- Bits of a mask without those of another. -/
def maskOff (m n : Nat) : Nat := m &&& (0xFF - n % 256)

/-- Head lanes whose write current, or assist drive, the front-end has on: write gate on and not inhibited (R85), for assist with EN of its
entry too (R214); a head inhibited in a sector does not write the rest of it (R169). -/
def feWriting (x : FrontEnd) : Nat := maskOff x.writeGate (x.inh ||| x.skip)
def feAssisting (x : FrontEnd) : Nat := x.assistOn &&& feWriting x

/-- A WRITE flit of a head lane late or discarded at the front-end: write gate is held low there for its span; it is
reported and counted in LATE, and the sector it spans is to be written again (R80, R81, R170). -/
def feLate (s : State) (p chan ts : Nat) : State :=
  let j := chan % 8
  let a := 2 * p + j / 4
  let s1 := emit (setFe s p fun x => { x with writeGate := maskOff x.writeGate (2 ^ j) }) (.feReport p 3)
  let s2 := count s1 (TTH_LATE p) 1 (.tth p) TTH_EVT_SAT
  match flitSector s a (j % 4) ts with
  | some i => setSlane s2 a (j % 4) fun x => { x with late := if x.late.contains i then x.late else i :: x.late }
  | none => s2

/-- FE_WRITE_FLIT (R80, R94): from the owner at the current EPOCH its bits are due; late, write gate stays low for its
span. -/
def execFeWriteFlit (p : Fin 32) (side : Fin 2) (f : Flit) (late : Bool) (s : State) : Res :=
  .next (let x := feOf s p
    let j := f.chan.toNat % 8
    if !flitTaken f 8 then feLate s p j f.tstamp.toNat
    else if !(feOwns x side) ∨ f.epoch.toNat ≠ x.epoch then emit (setFe s p fun x => feLane x side) (.feReport p 1)
    else if late then feLate (setFe s p fun x => feLane x side) p j f.tstamp.toNat
    else
      let starts := decide (f.flags.toNat % 2 = 1) && decide (x.inh / 2 ^ j % 2 = 0) &&
        (side.val != feSide s p || sectorFree s (2 * p + j / 4) (j % 4) f.tstamp.toNat)
      setFe s p fun x =>
        { feLane x side with
          wpend := if x.wpend.contains j then x.wpend else x.wpend ++ [j]
          writeGate := x.writeGate ||| 2 ^ j
          skip := if starts then maskOff x.skip (2 ^ j) else x.skip })

/-- A WINH word is good: framing and both parity bits (R84, R85). -/
def winhGood (w : Nat) : Bool := w == winhWord (w / 4 % 256)

/-- The front-end inhibits all heads until two good words (R85); the device raises WINH_FAULT. -/
def winhBad (s : State) (p : Nat) : State :=
  evtSet (emit (setFe s p fun x =>
    { x with inh := 0xFF, skip := 0xFF, winhNeed := 2, winhErr := true }) (.feReport p 4))
    (.tth p) TTH_EVT_WINH_FAULT

/-- FE_WINH_WORD (R85, R86): a good word of the owner applies its mask, after a bad one the second in a row does; each head
lane of the mask has write current and assist drive off while its bit is 1 (`feWriting`, `feAssisting`). -/
def execFeWinhWord (p : Fin 32) (side : Fin 2) (word : BitVec 12) (s : State) : Res :=
  .next (let x := feOf s p
    if !feOwns x side then s
    else if !winhGood word.toNat then winhBad s p
    else
      let m := word.toNat / 4 % 256
      let need := x.winhNeed - 1
      setFe s p fun x =>
        { x with
          winhNeed := need
          inh := if need = 0 then m else x.inh
          skip := if need = 0 then x.skip ||| m else x.skip })

/-- FE_WINH_BAD_WORD (R85). -/
def execFeWinhBadWord (p : Fin 32) (side : Fin 2) (s : State) : Res :=
  .next (if feOwns (feOf s p) side then winhBad s p else s)

/-- FE_WINH_SILENCE (R85): no transition for two word times. -/
def execFeWinhSilence (p : Fin 32) (side : Fin 2) (s : State) : Res :=
  .next (if feOwns (feOf s p) side then winhBad s p else s)

/-- FE_DOWNSTREAM_LOSS (R97): write gate and assist off at once, the other drives held. -/
def execFeDownstreamLoss (p : Fin 32) (s : State) : Res :=
  .next (if (feOf s p).owner = 0 then s else setFe s p fun x => { x with writeGate := 0, assistOn := 0 })

end Sys2Proof.Machine
end

