-- ==== Sys2Proof/Machine/SelfTest.lean ====
section
/-! DEFINITION. Device Self-test (R359, R360, Table 14-5). -/
namespace Sys2Proof.Machine
open Sys2Proof

/-- Change the self-test. -/
def setTest (s : State) (f : SelfTest → SelfTest) : State :=
  { s with host := { s.host with selfTest := f s.host.selfTest } }

/-- The actuators that step 4 tests: those of READY and DEGRADED mechanisms that no calibration covers already. -/
def verifyActs (s : State) : List Nat :=
  (rangeFrom 0 64).filter fun a =>
    isBound s (a / 2) && (mechUnit s (a / 2)).any (fun u => uState s u == 3 || uState s u == 4) &&
      headsOf s (a / 2) (a % 2) != [] && !calPending s a

/-- Step 4 begins: its heads run as pending calibrations in verify mode (R359). -/
def verifyStart (s : State) : State :=
  let l := verifyActs s
  forAll l (setBgw s fun b => { b with verify := l }) fun s a => wbit s (BGW_CALQ_LO + 4 * (a / 32)) (a % 32) true

/-- The media operations of steps 3 and 5 (Table 14-5): the retained samples of the last sector of each powered lane are decoded;
one eave track per head of the mechanisms that serve is read with class-2 decodes. -/
def testMedia (s : State) (n : Nat) : State :=
  if n = 3 then emitAll s (((rangeFrom 0 256).filter (laneReady s)).map fun l => .media 12 (l / 4) [l])
  else if n = 5 then
    emitAll s ((rangeFrom 0 64).flatMap fun a =>
      if (mechUnit s (a / 2)).any fun u => uState s u == 3 || uState s u == 4 then
        (headsOf s (a / 2) (a % 2)).map fun h => .media 13 a [h]
      else [])
  else s

/-- A step begins: BGW_DST shows it; how far the operation is in percent is a free value. -/
def testStep (s : State) (n : Nat) : State :=
  let s1 := setTest s fun x => { x with step := n }
  let s2 := fset (fset (drawn s1) BGW_DST BGW_DST_STEP n) BGW_DST BGW_DST_PERCENT (freeVal s1 % 100)
  if n = 4 then verifyStart s2 else testMedia s2 n

/-- An operation starts: 1 short, 2 extended; a second one fails with Device Self-test in Progress (Table 14-6). -/
def testStart (s : State) (x cid kind : Nat) : State :=
  if s.host.selfTest.kind ≠ 0 then adminEnd s x cid 1 0x1D
  else
    let s1 := setTest s fun t => { t with kind := kind, abort := false, failed := 0, cmd := some (x, cid) }
    testStep (fset s1 BGW_DST BGW_DST_OP kind) 1

/-- DEVICE_SELF_TEST_SHORT (R359): it tests the whole device, whatever its NSID. -/
def execDeviceSelfTestShort (x : HPort) (cid : BitVec 16) (_nsid : Word) (s : State) : Res :=
  .next (adminCmd s x fun s => testStart s (portId x) cid.toNat 1)

/-- DEVICE_SELF_TEST_EXTENDED (R359). -/
def execDeviceSelfTestExtended (x : HPort) (cid : BitVec 16) (_nsid : Word) (s : State) : Res :=
  .next (adminCmd s x fun s => testStart s (portId x) cid.toNat 2)

/-- DEVICE_SELF_TEST_ABORT (R360): STC 0xF; honoured at the next step boundary. -/
def execDeviceSelfTestAbort (x : HPort) (cid : BitVec 16) (_nsid : Word) (s : State) : Res :=
  .next (adminCmd s x fun s =>
    adminOk (if s.host.selfTest.kind = 0 then s else abortSelfTest s) (portId x) cid.toNat 0)

/-- What a step does on the device: R294 with TEST 0 and 1 on each region's test page, the margin read-back of the active
image. -/
def stepEffect (s : State) (ok ce : Bool) : State :=
  match s.host.selfTest.step with
  | 1 => forAll (rangeFrom 0 4) s fun s r => (flipTest (flipTest s r 1).1 r 0x10001).1
  | 2 => flashCheck s (256 * fget s PRT_FW PRT_FW_ACTIVE_BANK) (!ok) ce
  | _ => s

/-- A verifying calibration still runs, or can run. -/
def verifyWaits (s : State) : Bool :=
  s.bgw.verify.any fun a => (actUnit s a).any fun u => uState s u == 3 || uState s u == 4

/-- The end of a step (R359, R360): a failure ends the operation with result 0x7 and the step, an abort with 0x1; the last
step with 0x0. -/
def stepEnd (s : State) (ok : Bool) : State :=
  let x := s.host.selfTest
  let bad := !ok || x.failed == x.step
  if bad then selfTestEnd s 7 x.step
  else if x.abort then selfTestEnd s 1 x.step
  else if x.step = (if x.kind = 1 then 3 else 5) then selfTestEnd s 0 0
  else testStep s (x.step + 1)

/-- SELF_TEST_STEP_DONE (R359): the step passed or failed; a corrected flash read in step 2. Step 4 lasts until its
calibrations have ended, and fails with one of them. -/
def execSelfTestStepDone (ok ce : Bool) (s : State) : Res :=
  .next (if s.host.selfTest.kind = 0 then s
    else if s.host.selfTest.step = 4 then
      if verifyWaits s then s else stepEnd (dropVerify s) true
    else stepEnd (stepEffect s ok ce) ok)

end Sys2Proof.Machine
end

