-- ==== Sys2Proof/Machine/Logs.lean ====
section
/-! DEFINITION. Get Log Page: the vendor pages byte for byte in their layouts, and the pages that NVMe lays out as the values
they hold (log entry 12). A page is read without a side effect on its registers. -/
namespace Sys2Proof.Machine
open Sys2Proof

/-! ### Layouts -/

/-- A register's four bytes. -/
def regBytes (s : State) (a : Nat) : List Nat := leBytes 4 (peek s a).toNat

/-- The bytes of several registers. -/
def regsBytes (s : State) (l : List Nat) : List Nat := l.flatMap (regBytes s)

/-- The bytes of `n` words from address `a` on. -/
def wordsBytes (s : State) (a n : Nat) : List Nat := (rangeFrom 0 n).flatMap fun i => regBytes s (a + 4 * i)

/-- Zero bytes. -/
def zeros (n : Nat) : List Nat := List.replicate n 0

/-- A list filled with zeros up to a length. -/
def padTo (n : Nat) (l : List Nat) : List Nat := (l ++ zeros (n - l.length)).take n

/-- Log page 0xC0 (R65). -/
def trussPage (s : State) : List Nat :=
  regBytes s TRS_RUN_SEQ ++ padTo 16 s.trs.run.name ++ regBytes s TRS_UTAB_GEN ++ [s.trs.patches.length % 256] ++
  [s.trs.lastCode % 256] ++ leBytes 2 s.trs.lastWhere ++ regBytes s TRS_UNBOUND ++
  (rangeFrom 0 32).map fun p => fget s (TRS_BIND_WHY p) TRS_BIND_WHY_WHY

/-- Log page 0xC1 (R65): the unit table. -/
def unitPage (s : State) : List Nat := wordsBytes s (TRS_UNIT_FACE 0) 32768

/-- Log page 0xC2 (R249). -/
def eavePage (s : State) : List Nat :=
  ((rangeFrom 0 32).flatMap fun p => regsBytes s [ZMP_EAVE p, ZMP_SPARE p] ++ zeros 8) ++
  regsBytes s [ZMP_STAT, ZMP_EVT, ZMP_EAVE_TOT, ZMP_ACC] ++ wordsBytes s (ZMP_CNT 0) 8 ++ zeros 16

/-- Log page 0xC3 (R249). -/
def thatchPage (s : State) : List Nat :=
  (rangeFrom 0 4).flatMap fun t =>
    regsBytes s [THT_RB_CTRL t, THT_RB_STAT t, THT_RB_ZONE t, THT_RB_TOTAL t] ++ wordsBytes s (THT_CNT t 0) 6 ++ zeros 8

/-- Log page 0xC4 (R249): up to 64 lost ranges in the order found. -/
def lostPage (s : State) : List Nat :=
  (s.zmp.lost.take 64).flatMap fun e => leBytes 4 e.nsid ++ leBytes 4 e.zone ++ leBytes 8 e.lba ++ leBytes 8 e.count

/-- Log page 0xC5 (R282). -/
def hostPage (s : State) : List Nat :=
  regsBytes s [HIF_CTRL, HIF_EVT, HIF_SLOTS, HIF_SLOT_RES, HIF_DEFER, HIF_PWR] ++ zeros 8 ++
  (rangeFrom 0 2).flatMap fun x =>
    if portExists s x then regsBytes s [HIF_PORT_STAT x, HIF_PORT_QUEUES x] ++ wordsBytes s (HIF_PORT_CNT x 0) 10 else zeros 48

/-- Log page 0xC6 (R378). -/
def mcsPage (s : State) : List Nat :=
  regsBytes s [MCS_STAT, MCS_ZCTRL, MCS_EVT, MCS_FAULTS] ++ wordsBytes s (MCS_FMATCH 0) 16 ++ wordsBytes s (MCS_ZMATCH 0) 32 ++
  ((rangeFrom 0 64).flatMap fun f => regsBytes s [MCS_FSEQ_W0 f, MCS_FSEQ_W1 f]) ++
  (rangeFrom 0 8).flatMap fun z => regsBytes s [MCS_ZSEQ_W0 z, MCS_ZSEQ_W1 z]

/-- Log page 0xC8 (R423). -/
def eventPage (s : State) : List Nat :=
  wordsBytes s (EVT_RAW 0) 20 ++ wordsBytes s (EVT_PEND 0) 20 ++ wordsBytes s (EVT_CNT 0) 4 ++ zeros 80

/-- Log page 0xC9 (R423): the recorder is frozen for the transfer. -/
def tailPage (s : State) (r : Nat) : List Nat :=
  let t := fsetb s (TAIL_CTRL r) TAIL_CTRL_FREEZE true
  padTo 131136 (regsBytes t [TAIL_CTRL r, TAIL_STAT r, TAIL_DROPPED r] ++ wordsBytes t (TAIL_SEL r 0) 12 ++ zeros 4 ++
    (tailRecs t r).flatMap tailRecBytes)

/-- Log page 0xD0 (R99). -/
def tetherPage (s : State) : List Nat :=
  (rangeFrom 0 32).flatMap fun p =>
    regsBytes s [TTH_LINK_STAT p, TTH_TOKEN p, TTH_CREDIT p] ++ wordsBytes s (TTH_FEC_CORR p 0) 8 ++ regBytes s (TTH_WIT_PEER p) ++
    padTo 16 ((identSerial s p).map (· % 256))

/-- Log page 0xD1 (R127). -/
def detPage (s : State) : List Nat :=
  ((rangeFrom 0 64).flatMap fun a =>
    ((rangeFrom 0 4).flatMap fun l => wordsBytes s (ACT_DL_CNT a l 0) 6) ++ regBytes s (ACT_DET_EVT a) ++ zeros 28) ++
  (rangeFrom 0 16).flatMap fun c =>
    regsBytes s [LDC_CW_OK c, LDC_CW_FAIL c, LDC_MEM_ERRS c, LDC_ITER_SUM_LO c, LDC_ITER_SUM_HI c, LDC_STAT c] ++ zeros 8

/-- Log page 0xD2 (R152). -/
def fmtPage (s : State) : List Nat :=
  (rangeFrom 0 64).flatMap fun a =>
    wordsBytes s (ACT_FMT_CNT a 0) 8 ++ regsBytes s [ACT_FMT_LAST a, ACT_FMT_LAST_TRK a, ACT_FMT_EVT a] ++ zeros 20

/-- SRV_LIM with the limits a slice uses (R175, R177). -/
def srvLimUsed (s : State) (a : Nat) : Word :=
  setF (setF (rd s (ACT_SRV_LIM a)) ACT_SRV_LIM_WU_LIM (wuLim s a)) ACT_SRV_LIM_WU_REL (wuRel s a)

/-- Log page 0xD3 (R176). -/
def servoPage (s : State) : List Nat :=
  (rangeFrom 0 64).flatMap fun a =>
    wordsBytes s (ACT_WS_CNT a 0) 10 ++ regBytes s (ACT_SRV_STAT a) ++ leBytes 4 (srvLimUsed s a).toNat ++
    regsBytes s [ACT_WS_INH a, ACT_SRV_EVT a, ACT_WS_EVT a] ++ zeros 4

/-- The FE_ACTIVE bits of an engine's slots, eight to a byte (R198). -/
def feBytes (s : State) (e : Nat) : List Nat :=
  (rangeFrom 0 8).map fun b =>
    sumN ((rangeFrom 0 8).map fun i => if fbit s (BRD_SL_STAT e (8 * b + i)) BRD_SL_STAT_FE_ACTIVE then 2 ^ i else 0)

/-- Log page 0xD4 (R198). -/
def bridlePage (s : State) : List Nat :=
  (rangeFrom 0 16).flatMap fun e =>
    regsBytes s [BRD_STAT e, BRD_EVT e, BRD_OVERRUNS e, BRD_CREDIT_WAITS e, BRD_FE_COUNT e, BRD_ITERATIONS_LO e,
      BRD_ITERATIONS_HI e] ++ feBytes s e ++ zeros 28

/-- Log page 0xD5 (R220). -/
def spindlePage (s : State) : List Nat :=
  (rangeFrom 0 32).flatMap fun p =>
    regsBytes s [SPN_STAT p, SPN_SPEED p, SPN_ZC p, SPN_BUS p, SPN_CHOP p, SPN_EVT p] ++ wordsBytes s (SPN_CNT p 0) 8 ++
    regBytes s (AST_EVT p) ++ zeros 4

/-- Log page 0xD6 (R220). -/
def wearPage (s : State) : List Nat :=
  (rangeFrom 0 32).flatMap fun p => (rangeFrom 0 24).flatMap fun q => wordsBytes s (AST_WEAR_W0 p q) 4

/-- Log page 0xD8 (R405). -/
def partnerPage (s : State) : List Nat := padTo 128 (wordsBytes s PRT_CTRL 14 ++ wordsBytes s (PRT_CNT 0) 8)

/-- An entry of log page 0xD9; the status as Status Code Type × 256 + Status Code. -/
def digestBytes (d : Digest) : List Nat :=
  leBytes 2 d.cntlid ++ leBytes 2 d.sq ++ leBytes 2 d.cid ++ [d.opc % 256, 0] ++ leBytes 4 d.nsid ++ leBytes 8 d.slba ++
  leBytes 4 d.nlb ++ leBytes 2 (d.sc + 256 * d.sct) ++ zeros 6

/-- Log page 0xD9 (R405, R391). -/
def orphanPage (s : State) : List Nat :=
  let l := s.prt.orphans.take 16384
  leBytes 4 l.length ++ leBytes 2 s.prt.orphanEpoch ++ zeros 26 ++ l.flatMap digestBytes

/-- Log page 0xDA (R405). -/
def updatePage (s : State) : List Nat :=
  padTo 576 (padTo 64 (regsBytes s [PRT_FW, PRT_FW_VER_ACT, PRT_FW_VER_INACT, PRT_FW_FLOOR, PRT_RLY, PRT_HO]) ++
    (s.prt.status.take 64).flatMap fun x => [x.1 % 256, x.2.1 % 256, 0, 0] ++ leBytes 4 x.2.2)

/-- Log page 0xDB (R438). -/
def flashPage (s : State) : List Nat :=
  regsBytes s [FLS_RDCFG, FLS_STAT, FLS_EVT] ++ wordsBytes s (FLS_CNT 0) 7 ++ zeros 24 ++ wordsBytes s (FLS_ECNT 0) 512

/-- Log page 0xE0 (R305). -/
def memErrPage (s : State) : List Nat :=
  regsBytes s [MEP_CE_TOTAL, MEP_UE_TOTAL, MEP_POISON_TOTAL, MEP_CELOG_STAT] ++ wordsBytes s (MEP_CELOG_W0 0) 256

/-- Log page 0xE1 (R305). -/
def cachePage (s : State) : List Nat :=
  regsBytes s [CCH_STAT, CCH_GEOM, CCH_PF_STAT] ++ wordsBytes s (CCH_CNT 0) 10 ++ regsBytes s [BUF_STAT, BUF_DIRTY] ++ zeros 4

/-- Log page 0xE2 (R305). -/
def retirePage (s : State) : List Nat := regBytes s MEP_RET_STAT ++ wordsBytes s (MEP_RGN 0) 4 ++ wordsBytes s (MEP_RET 0) 256

/-- Log page 0xE8 (R320): the words from BAL_CTRL to BAL_CNT[4], then the mechanisms. -/
def ballastPage (s : State) : List Nat :=
  padTo 128 (regsBytes s [BAL_CTRL, BAL_STAT, BAL_VMAX, BAL_VUSED, BAL_WRITERS, BAL_ECAP, BAL_TDEST, BAL_CAP, BAL_VCAP, BAL_VSCALE,
    BAL_PWR0, BAL_PWR1, BAL_TIME, BAL_MARGIN, BAL_EVT, BAL_EVT + 4] ++ wordsBytes s (BAL_CNT 0) 5) ++
  wordsBytes s (BAL_MECH_PHYS 0) 128

/-- Log page 0xE9 (R362). -/
def taskPage (s : State) : List Nat :=
  regsBytes s [BGW_CTRL, BGW_STAT, BGW_EVT, BGW_DST, BGW_CALQ_LO, BGW_CALQ_HI] ++ wordsBytes s (BGW_CNT 0) 6 ++ zeros 16 ++
  wordsBytes s (BGW_TASK_CTRL 0) 1024 ++ wordsBytes s (BGW_WEAR_W0 0) 256

/-- Log page 0xEA (R362). -/
def thermalPage (s : State) : List Nat :=
  padTo 128 (wordsBytes s THM_CTRL 12 ++ wordsBytes s (THM_CNT 0) 6) ++ wordsBytes s (THM_EXT 0) 12 ++ wordsBytes s (THM_DIE 0) 16 ++
  zeros 16 ++ wordsBytes s (THM_MECH_W0 0) 64 ++ wordsBytes s (THM_ACT 0) 64

/-- Log page 0xEE (R342). -/
def powerPage (s : State) : List Nat :=
  padTo 128 (wordsBytes s PWR_MODE 11 ++ wordsBytes s (PWR_CNT 0) 6) ++ wordsBytes s (PWR_DOM_STAT 0) 15 ++
  wordsBytes s (PWR_DOM_FAIL 0) 15 ++ zeros 8

/-- The vendor pages by identifier, with LSP (Table 10-5). -/
def vendorPage (s : State) (id lsp : Nat) : Option (List Nat) :=
  match id with
  | 0xC0 => some (trussPage s) | 0xC1 => some (unitPage s) | 0xC2 => some (eavePage s) | 0xC3 => some (thatchPage s)
  | 0xC4 => some (lostPage s) | 0xC5 => some (hostPage s) | 0xC6 => some (mcsPage s) | 0xC8 => some (eventPage s)
  | 0xC9 => some (tailPage s (lsp % 8)) | 0xD0 => some (tetherPage s) | 0xD1 => some (detPage s) | 0xD2 => some (fmtPage s)
  | 0xD3 => some (servoPage s) | 0xD4 => some (bridlePage s) | 0xD5 => some (spindlePage s) | 0xD6 => some (wearPage s)
  | 0xD8 => some (partnerPage s) | 0xD9 => some (orphanPage s) | 0xDA => some (updatePage s) | 0xDB => some (flashPage s)
  | 0xE0 => some (memErrPage s) | 0xE1 => some (cachePage s) | 0xE2 => some (retirePage s) | 0xE8 => some (ballastPage s)
  | 0xE9 => some (taskPage s) | 0xEA => some (thermalPage s) | 0xEE => some (powerPage s)
  | _ => none

/-! ### The command -/

/-- A page goes to the host from an offset on; an offset beyond the page is an invalid field. -/
def logData (s : State) (x cid ofst len : Nat) (page : List Nat) : State :=
  if page.length < ofst then invalidField s x cid else adminData s x cid ((page.drop ofst).take len)

/-- Get Log Page of a page that has no side effect. -/
def logPage (s : State) (x : HPort) (cid : BitVec 16) (ofst len : BitVec 32) (page : List Nat) : State :=
  adminCmd s x fun s => logData s (portId x) cid.toNat ofst.toNat len.toNat page

/-- LOG_TRUSS (R65): log page 0xC0. -/
def execLogTruss (x : HPort) (cid : BitVec 16) (ofst len : BitVec 32) (s : State) : Res :=
  .next (logPage s x cid ofst len (trussPage s))

/-- LOG_UNIT_TABLE (R65): log page 0xC1. -/
def execLogUnitTable (x : HPort) (cid : BitVec 16) (ofst len : BitVec 32) (s : State) : Res :=
  .next (logPage s x cid ofst len (unitPage s))

/-- LOG_EAVE_LAYOUT (R249): log page 0xC2. -/
def execLogEaveLayout (x : HPort) (cid : BitVec 16) (ofst len : BitVec 32) (s : State) : Res :=
  .next (logPage s x cid ofst len (eavePage s))

/-- LOG_THATCH_STATUS (R249): log page 0xC3. -/
def execLogThatchStatus (x : HPort) (cid : BitVec 16) (ofst len : BitVec 32) (s : State) : Res :=
  .next (logPage s x cid ofst len (thatchPage s))

/-- LOG_LOST_RANGES (R249): log page 0xC4. -/
def execLogLostRanges (x : HPort) (cid : BitVec 16) (ofst len : BitVec 32) (s : State) : Res :=
  .next (logPage s x cid ofst len (lostPage s))

/-- LOG_HOST_INTERFACE_STATS (R282): log page 0xC5. -/
def execLogHostInterfaceStats (x : HPort) (cid : BitVec 16) (ofst len : BitVec 32) (s : State) : Res :=
  .next (logPage s x cid ofst len (hostPage s))

/-- LOG_MICROCODE_STATUS (R378): log page 0xC6. -/
def execLogMicrocodeStatus (x : HPort) (cid : BitVec 16) (ofst len : BitVec 32) (s : State) : Res :=
  .next (logPage s x cid ofst len (mcsPage s))

/-- LOG_TETHER_STATUS (R99): log page 0xD0. -/
def execLogTetherStatus (x : HPort) (cid : BitVec 16) (ofst len : BitVec 32) (s : State) : Res :=
  .next (logPage s x cid ofst len (tetherPage s))

/-- LOG_DETECTION_STATS (R127): log page 0xD1. -/
def execLogDetectionStats (x : HPort) (cid : BitVec 16) (ofst len : BitVec 32) (s : State) : Res :=
  .next (logPage s x cid ofst len (detPage s))

/-- LOG_SECTOR_RECOVERY (R152): log page 0xD2. -/
def execLogSectorRecovery (x : HPort) (cid : BitVec 16) (ofst len : BitVec 32) (s : State) : Res :=
  .next (logPage s x cid ofst len (fmtPage s))

/-- LOG_SERVO_WRITE_SAFETY (R176): log page 0xD3. -/
def execLogServoWriteSafety (x : HPort) (cid : BitVec 16) (ofst len : BitVec 32) (s : State) : Res :=
  .next (logPage s x cid ofst len (servoPage s))

/-- LOG_BRIDLE_STATS (R198): log page 0xD4. -/
def execLogBridleStats (x : HPort) (cid : BitVec 16) (ofst len : BitVec 32) (s : State) : Res :=
  .next (logPage s x cid ofst len (bridlePage s))

/-- LOG_SPINDLE_ASSIST (R220): log page 0xD5. -/
def execLogSpindleAssist (x : HPort) (cid : BitVec 16) (ofst len : BitVec 32) (s : State) : Res :=
  .next (logPage s x cid ofst len (spindlePage s))

/-- LOG_ASSIST_WEAR (R220): log page 0xD6. -/
def execLogAssistWear (x : HPort) (cid : BitVec 16) (ofst len : BitVec 32) (s : State) : Res :=
  .next (logPage s x cid ofst len (wearPage s))

/-- LOG_PARTNER_STATUS (R405): log page 0xD8. -/
def execLogPartnerStatus (x : HPort) (cid : BitVec 16) (ofst len : BitVec 32) (s : State) : Res :=
  .next (logPage s x cid ofst len (partnerPage s))

/-- LOG_UPDATE_RELAY (R405): log page 0xDA. -/
def execLogUpdateRelay (x : HPort) (cid : BitVec 16) (ofst len : BitVec 32) (s : State) : Res :=
  .next (logPage s x cid ofst len (updatePage s))

/-- LOG_FLASH_STATUS (R438): log page 0xDB. -/
def execLogFlashStatus (x : HPort) (cid : BitVec 16) (ofst len : BitVec 32) (s : State) : Res :=
  .next (logPage s x cid ofst len (flashPage s))

/-- LOG_MEMORY_ERROR (R305): log page 0xE0. -/
def execLogMemoryError (x : HPort) (cid : BitVec 16) (ofst len : BitVec 32) (s : State) : Res :=
  .next (logPage s x cid ofst len (memErrPage s))

/-- LOG_CACHE_STATS (R305): log page 0xE1. -/
def execLogCacheStats (x : HPort) (cid : BitVec 16) (ofst len : BitVec 32) (s : State) : Res :=
  .next (logPage s x cid ofst len (cachePage s))

/-- LOG_RETIREMENT_TABLE (R305): log page 0xE2. -/
def execLogRetirementTable (x : HPort) (cid : BitVec 16) (ofst len : BitVec 32) (s : State) : Res :=
  .next (logPage s x cid ofst len (retirePage s))

/-- LOG_BALLAST_STATUS (R320): log page 0xE8. -/
def execLogBallastStatus (x : HPort) (cid : BitVec 16) (ofst len : BitVec 32) (s : State) : Res :=
  .next (logPage s x cid ofst len (ballastPage s))

/-- LOG_BACKGROUND_STATUS (R362): log page 0xE9. -/
def execLogBackgroundStatus (x : HPort) (cid : BitVec 16) (ofst len : BitVec 32) (s : State) : Res :=
  .next (logPage s x cid ofst len (taskPage s))

/-- LOG_THERMAL_STATUS (R362): log page 0xEA. -/
def execLogThermalStatus (x : HPort) (cid : BitVec 16) (ofst len : BitVec 32) (s : State) : Res :=
  .next (logPage s x cid ofst len (thermalPage s))

/-- LOG_POWER_MODES (R342): log page 0xEE. -/
def execLogPowerModes (x : HPort) (cid : BitVec 16) (ofst len : BitVec 32) (s : State) : Res :=
  .next (logPage s x cid ofst len (powerPage s))

/-! ### Pages with a side effect, and the pages NVMe lays out -/

/-- LOG_EVENT_STATUS (R423, R422): log page 0xC8; with RAE = 0 vendor notices of the controller are heard again. -/
def execLogEventStatus (x : HPort) (cid : BitVec 16) (rae : Bool) (ofst len : BitVec 32) (s : State) : Res :=
  .next (adminCmd s x fun s =>
    let t := logData s (portId x) cid.toNat ofst.toNat len.toNat (eventPage s)
    if rae || (eventPage s).length < ofst.toNat then t
    else { t with evt := { t.evt with vendorMasked := t.evt.vendorMasked.filter (· != portId x) } })

/-- LOG_TAIL_RECORDER (R423): log page 0xC9 of the recorder that LSP names; FREEZE is as it was afterwards. -/
def execLogTailRecorder (x : HPort) (cid : BitVec 16) (lsp : BitVec 7) (ofst len : BitVec 32) (s : State) : Res :=
  .next (logPage s x cid ofst len (tailPage s (lsp.toNat % 8)))

/-- LOG_ORPHANED_COMPLETIONS (R405): log page 0xD9; LSP bit 0 clears it after the read. -/
def execLogOrphanedCompletions (x : HPort) (cid : BitVec 16) (lsp : BitVec 7) (ofst len : BitVec 32) (s : State) : Res :=
  .next (adminCmd s x fun s =>
    let t := logData s (portId x) cid.toNat ofst.toNat len.toNat (orphanPage s)
    if lsp.getLsbD 0 && ofst.toNat ≤ (orphanPage s).length then { t with prt := { t.prt with orphans := [] } } else t)

/-- LOG_ERROR_INFORMATION (R272, R260): the entries, newest first. -/
def execLogErrorInformation (x : HPort) (cid : BitVec 16) (ofst len : BitVec 32) (s : State) : Res :=
  .next (logPage s x cid ofst len
    (s.host.errLog.flatMap fun e => [e.count, e.port, e.sq, e.cid, e.sct, e.sc, e.nsid, e.lba]))

/-- LOG_SMART_HEALTH (R260): for NSID 0xFFFF_FFFF only; the specification states no source of its 512 bytes, which are free
values. -/
def execLogSmartHealth (x : HPort) (cid : BitVec 16) (nsid ofst len : BitVec 32) (s : State) : Res :=
  .next (adminCmd s x fun s =>
    if nsid ≠ 0xFFFFFFFF then invalidField s (portId x) cid.toNat
    else logData { s with free := s.free + 512 } (portId x) cid.toNat ofst.toNat len.toNat
      ((rangeFrom 0 512).map fun i => Config.freeNat (s.free + i) % 256))

/-- LOG_FIRMWARE_SLOT (R260, R399): the running slot is 2; slot 1 becomes active at the next reset; both versions. -/
def execLogFirmwareSlot (x : HPort) (cid : BitVec 16) (ofst len : BitVec 32) (s : State) : Res :=
  .next (logPage s x cid ofst len [2, b2n s.fls.flipNext, rdN s PRT_FW_VER_INACT, rdN s PRT_FW_VER_ACT])

/-- LOG_CHANGED_NAMESPACE_LIST (R275): a read with RAE = 0 clears the list. -/
def execLogChangedNamespaceList (x : HPort) (cid : BitVec 16) (rae : Bool) (ofst len : BitVec 32) (s : State) : Res :=
  .next (adminCmd s x fun s =>
    let l := (ctl s (portId x)).chgNs
    let t := logData s (portId x) cid.toNat ofst.toNat len.toNat l
    if rae || l.length < ofst.toNat then t else setCtl t (portId x) fun c => { c with chgNs := [] })

/-- LOG_COMMANDS_SUPPORTED (R260): the admin opcodes and the I/O opcodes that exist. -/
def execLogCommandsSupported (x : HPort) (cid : BitVec 16) (ofst len : BitVec 32) (s : State) : Res :=
  .next (logPage s x cid ofst len (adminOpcodes ++ [0x00, 0x01, 0x02, 0x08, 0x0C, 0x79, 0x7A, 0x7D]))

/-- LOG_DEVICE_SELF_TEST (R359): the operation, the step as the segment number, the progress, and the results. -/
def execLogDeviceSelfTest (x : HPort) (cid : BitVec 16) (ofst len : BitVec 32) (s : State) : Res :=
  .next (logPage s x cid ofst len ([s.host.selfTest.kind, s.host.selfTest.step, fget s BGW_DST BGW_DST_PERCENT] ++
    s.host.selfTest.results.flatMap fun r => [r.1, r.2.1, r.2.2]))

/-- The ANA state of every group, from the role of the device (R274). -/
def anaState (s : State) : Nat := if isActiveRole s then 0x01 else if roleOf s = 3 then 0x0F else 0x03

/-- LOG_ANA (R274): the change count and, for each group of an attached namespace, its number, state and namespaces. -/
def execLogAna (x : HPort) (cid : BitVec 16) (ofst len : BitVec 32) (s : State) : Res :=
  .next (logPage s x cid ofst len (s.host.anaCount ::
    (s.trs.run.binds.filter fun b => attached s (portId x) b.nsid).flatMap fun b => [b.ana, anaState s, b.nsid]))

/-- LOG_CHANGED_ZONE_LIST (R271): the zones of a namespace; a read with RAE = 0 clears them. -/
def execLogChangedZoneList (x : HPort) (cid : BitVec 16) (nsid : BitVec 32) (rae : Bool) (ofst len : BitVec 32) (s : State) : Res :=
  .next (adminCmd s x fun s =>
    let l := ((ctl s (portId x)).chgZones.filter fun z => z.1 == nsid.toNat).map fun z => z.2 * nsZl s nsid.toNat
    let t := logData s (portId x) cid.toNat ofst.toNat len.toNat l
    if rae || l.length < ofst.toNat then t
    else setCtl t (portId x) fun c => { c with chgZones := c.chgZones.filter fun z => z.1 != nsid.toNat })

end Sys2Proof.Machine
end

