-- ==== Sys2Proof/Machine/Mailbox.lean ====
section
/-! DEFINITION. The mailbox channels as their parties reach them (chapter 17): the rights of R409, the bindings of R408,
and the resets of parties. -/
namespace Sys2Proof.Machine
open Sys2Proof

/-- The master may write `v` to the channel register at offset `o` of channel `c` (R409). A write of STAT is a clear of COLL
and of ABT by their bits; VEC holds a field of either party. -/
def mbxRight (s : State) (m : Master) (c o : Nat) (v : Word) : Bool :=
  if o < 0x40 ∨ o = 0x44 then mbxSender s m c
  else if o = 0x40 ∨ o = 0x48 then mbxReceiver s m c
  else if o = 0x4C then mbxSender s m c || (mbxReceiver s m c && !bitOf v 29)
  else mbxSender s m c || mbxReceiver s m c

/-- A permitted write of a channel register. -/
def mbxStore (s : State) (m : Master) (c o : Nat) (v : Word) : State :=
  if o < 0x40 then mbxPut s c (o / 4) v
  else if o = 0x40 then mbxChange s c fun s => wr s (MBX_CH_DB c) (rd s (MBX_CH_DB c) &&& ~~~ v)
  else if o = 0x44 then mbxRing s c v
  else if o = 0x48 then mbxChange s c fun s => wr s (MBX_CH_MASK c) v
  else if o = 0x4C then
    let s1 := if bitOf v 30 then fsetb s (MBX_CH_STAT c) MBX_CH_STAT_COLL false else s
    if bitOf v 29 then fsetb s1 (MBX_CH_STAT c) MBX_CH_STAT_ABT false else s1
  else
    let s1 := if mbxSender s m c then fset s (MBX_CH_VEC c) MBX_CH_VEC_SVEC (getF v MBX_CH_VEC_SVEC) else s
    if mbxReceiver s m c then fset s1 (MBX_CH_VEC c) MBX_CH_VEC_RVEC (getF v MBX_CH_VEC_RVEC) else s1

/-- A write of a channel register by a master: without the right to it, it is discarded as a violation (R409). -/
def mbxChWrite (s : State) (m : Master) (c o : Nat) (v : Word) : State :=
  if mbxRight s m c o v then mbxStore s m c o v else mbxViol s

/-- An identity of Table 1-13 that a binding may name, or 0xFF (R408). -/
def bindId (n : Nat) : Bool :=
  [0x00, 0x01, 0x02, 0x08, 0x09, 0x0A, 0x0B, 0x10, 0x1F, 0xFF].contains n

/-- The master may write bindings (R408). -/
def mayBind (m : Master) : Bool := isRidge m || m == .debug

/-- A write of MBX_BIND (R408): while unlocked, by a Ridge core or debug, naming two different identities or 0xFF. -/
def mbxBindWrite (s : State) (m : Master) (c : Nat) (v : Word) : State :=
  let x := getF v MBX_BIND_SENDER
  let y := getF v MBX_BIND_RECEIVER
  if !mayBind m || fbit s MBX_CTRL MBX_CTRL_LOCK || !bindId x || !bindId y || (x == y && x != 0xFF) then s
  else fset (fset s (MBX_BIND c) MBX_BIND_SENDER x) (MBX_BIND c) MBX_BIND_RECEIVER y

/-- MBX_DATA_WRITE (R411). -/
def execMbxDataWrite (m : Master) (c : Fin 64) (w : Fin 16) (v : Word) (s : State) : Res :=
  .next (mbxChWrite s m c (4 * w) v)

/-- MBX_DB_SET (R410). -/
def execMbxDbSet (m : Master) (c : Fin 64) (bits : Word) (s : State) : Res := .next (mbxChWrite s m c 0x44 bits)

/-- MBX_DB_CLEAR (R410). -/
def execMbxDbClear (m : Master) (c : Fin 64) (bits : Word) (s : State) : Res := .next (mbxChWrite s m c 0x40 bits)

/-- MBX_BIND_WRITE (R408). -/
def execMbxBindWrite (m : Master) (c : Fin 64) (value : Word) (s : State) : Res := .next (mbxBindWrite s m c value)

/-- MBX_LOCK (R408). -/
def execMbxLock (m : Master) (s : State) : Res :=
  .next (regWrite s m MBX_CTRL fun s => fsetb s MBX_CTRL MBX_CTRL_LOCK true)

/-- MBX_PARTY_RST (R413): the writer's own identity alone. -/
def execMbxPartyRst (m : Master) (s : State) : Res := .next (partyReset s (masterId m))

/-- SMBUS_CLOCK_LOW_RESET (Table 17-3). -/
def execSmbusClockLowReset (s : State) : Res := .next (partyReset s 0x02)

end Sys2Proof.Machine
end

