-- ==== Sys2Proof/Machine/Sectors.lean ====
section
/-! DEFINITION. The sectors a formatter writes and the windows it reads through (chapters 5, 6, 9): what a sector holds, the WRITE flits that
carry it, what a write waits for, and what a sector start opens. -/
namespace Sys2Proof.Machine
open Sys2Proof

/-! ### What a sector holds (R130, R134, R138, R232, R237, R240) -/

/-- The extent holds an LBA. -/
def holdsLba (n lba : Nat) (e : Ext) : Bool := e.nsid == n && decide (e.lba ≤ lba) && decide (lba < e.lba + e.count)

/-- The uncommitted extent of an LBA and its command (Table 10-6): the write last fetched. -/
def openWrite (s : State) (n lba : Nat) : Option (Ext × Cmd) :=
  (s.zmp.dirty.reverse.find? fun e => holdsLba n lba e && !isCommitted e).bind fun e =>
    (s.host.cmds.find? fun c => uncommitted c.order == e.wseq).map fun c => (e, c)

/-- The data of an LBA that is written to the media, and the WSEQ of its tag (R134, R230): of a command that has not committed, its data
and the WSEQ it will get; else the LBA's data, with the WSEQ of its extent in the buffer or the eave. -/
def writeSource (s : State) (n lba : Nat) : Nat × Nat :=
  let w := (getZone s n (zoneOf s n lba)).wseq
  match openWrite s n lba with
  | some (e, c) =>
    (c.data.getD (lba - e.lba) 0,
     if nsZoned s n then w + 1 + ((earlier s c).filter fun d => isWrite d && touchesZone s n (cmdZone s c) d).length else 0)
  | none =>
    let e := (s.zmp.dirty.find? (holdsLba n lba)).or ((s.zmp.staged.find? fun x => holdsLba n lba x.ext).map (·.ext))
    (lbaData s n lba, (e.map (·.wseq)).getD w)

/-- A journal entry of 64 bytes (Table 9-1): of a zone, or of a relocation. -/
def journalEntry (s : State) (p key : Nat) : List Nat :=
  if key < 2 ^ 64 then
    let n := key / 2 ^ 32
    let z := key % 2 ^ 32
    let r := getZone s n z
    [n % 256, r.zstate, 0, 0] ++ leBytes 4 z ++ leBytes 8 r.wp ++ leBytes 8 r.mwp ++ leBytes 8 r.wseq ++ leBytes 8 r.rmark ++
      List.replicate 24 0
  else
    let d := ((s.zmp.relocBusy ++ s.zmp.relocs).find? fun r => r.port == p && relocKey r == key).map (·.dest)
    [0xFF, 0, 0, 0] ++ leBytes 4 ((key - 2 ^ 64) / 4096) ++ leBytes 8 ((key - 2 ^ 64) % 4096) ++ leBytes 8 (d.getD 0) ++
      List.replicate 40 0

/-- The journal sectors being written to the ring of port `p`, by JSEQ: they are the last ones of the ring. -/
def ringBusy (s : State) (p : Nat) : Tab (List Nat) :=
  let l := (s.zmp.jrnBusy.filter fun x => x.1 == p).map (·.2)
  (rangeFrom (tabGet 0 s.zmp.jseq p + 1 - l.length) l.length).zip l

/-- Bytes, filled with zeros up to a length. -/
def zeroFill (n : Nat) (l : List Nat) : List Nat := l ++ List.replicate (n - l.length) 0

/-- The user bytes of the journal sector of a ring whose JSEQ has the low word `aux` (Table 9-1). -/
def journalBytes (s : State) (p aux : Nat) : List Nat :=
  match (ringBusy s p).find? fun x => x.1 % 2 ^ 32 == aux with
  | none => []
  | some (j, keys) =>
    zeroFill 64 (leBytes 4 0x4E524A51 ++ leBytes 2 keys.length ++ [0, 0] ++ leBytes 8 j ++ leBytes 8 (logTail s p 0) ++ leBytes 8 (logTail s p 1)) ++
      keys.flatMap (journalEntry s p)

/-- An extent of an eave record, of 32 bytes, with its COPY byte (Table 9-2). -/
def recordExtent (e : Ext) (rewrite : Bool) (copy : Nat) : List Nat :=
  zeroFill 32 ([e.nsid % 256, b2n rewrite] ++ leBytes 2 e.count ++ leBytes 4 e.zone ++ leBytes 6 e.lba ++ [copy, 0] ++ leBytes 8 e.wseq)

/-- An extent in pieces of at most 256 sectors. -/
def extPieces (e : Ext) : List Ext :=
  (rangeFrom 0 (ceilDiv e.count 256)).map fun i => { e with lba := e.lba + 256 * i, count := min 256 (e.count - 256 * i) }

/-- The index of the copy of a staged extent that slice `a` holds. -/
def copyIndex (x : Staged) (a : Nat) : Nat :=
  (((rangeFrom 0 x.copies.length).filter fun i => x.copies.getD i 32 == a / 2)[a % 2]?).getD (x.copies.idxOf (a / 2))

/-- The user bytes of the eave record on slice `a` whose ESEQ has the low word `aux` (Table 9-2). -/
def recordBytes (s : State) (a aux : Nat) : List Nat :=
  match s.zmp.staged.find? fun x => x.eseq % 2 ^ 32 == aux && x.copies.contains (a / 2) with
  | none => []
  | some x =>
    let l := extPieces x.ext
    zeroFill 64 (leBytes 4 0x56414551 ++ leBytes 2 l.length ++ [0, 0] ++ leBytes 8 x.eseq) ++
      l.flatMap fun e => recordExtent e x.rewrite (copyIndex x a % 16 * 16 + x.copies.length % 16)

/-- The user bytes of a sector that a formatter writes, and the WSEQ of its tag, by its KIND (Table 5-3). -/
def sectorUser (s : State) (a : Nat) (w : SecWork) : List Nat × Nat :=
  let src := writeSource s w.nsid.toNat w.lba.toNat
  if w.kind = 1 then (List.replicate 4096 0, (getZone s w.nsid.toNat (zoneOf s w.nsid.toNat w.lba.toNat)).wseq)
  else if w.kind = 2 then (zeroFill 4096 (journalBytes s (a / 2) w.aux.toNat), 0)
  else if w.kind = 4 then (zeroFill 4096 (recordBytes s a w.aux.toNat), 0)
  else (leBytes 4096 src.1, src.2)

/-- Head q of a sector's work, its rate band, its track's code, its track's positions and parity positions. -/
def workQ (a : Nat) (w : SecWork) : Nat := 12 * (a % 2) + w.head.toNat
def workBand (s : State) (a : Nat) (w : SecWork) : Nat × Nat × Bool := bandAt s (a / 2) (workQ a w) w.track.toNat
def workCode (s : State) (a : Nat) (w : SecWork) : Nat := trackCode s (a / 2) (workQ a w) w.track.toNat
def workTp (s : State) (a : Nat) (w : SecWork) : Nat := trackTp s (a / 2) (workQ a w) w.track.toNat
def workPositions (s : State) (a : Nat) (w : SecWork) : Nat := trackPositions (workBand s a w).2.1 (workCode s a w)
def workTrack (a : Nat) (w : SecWork) : Nat := trackKey (a / 2) (workQ a w) w.track.toNat

/-- The thatch row that a sector belongs to, and the sector's place in its unit: THATCH, zone, row, place. Parity sectors (KIND 0xFF of
a formatter's work) name the LBA of a data sector at their place. -/
def workRow (s : State) (w : SecWork) : Option (Nat × Nat × Nat × Nat) :=
  (nsThatch s w.nsid.toNat).map fun th =>
    let zl := nsZl s w.nsid.toNat
    let o := w.lba.toNat % zl
    (th, w.lba.toNat / zl, o / 256 / max 1 (dataMembers s th), o % 256)

/-- The information part of a parity sector of a thatch row: AUX is the parity member (R240). -/
def parityInfo (s : State) (w : SecWork) : List Nat :=
  match workRow s w with
  | none => []
  | some (th, z, row, x) => (tabGet [] (rowAcc s th z row).par x).getD w.aux.toNat []

/-- The information part of a sector that a formatter writes: user bytes and tag, or parity (KIND 0xFE of the track, 0xFF of the row). -/
def sectorInfo (s : State) (a : Nat) (w : SecWork) : List Nat :=
  if w.kind = 0xFE then
    let t := tabGet ⟨0, [], none⟩ s.det.tracks (workTrack a w)
    colBytes ((t.cols.getD []).getD (w.pos.toNat - (workPositions s a w - workTp s a w)) [])
  else if w.kind = 0xFF then parityInfo s w
  else
    let u := sectorUser s a w
    infoPart u.1
      { lba := w.lba.toNat, nsid := w.nsid.toNat, kind := w.kind.toNat, zone := tagZone s w.nsid.toNat w.lba.toNat
        wseq := u.2, aux := if w.kind = 0 ∨ w.kind = 1 then 0 else w.aux.toNat, tagv := 1, code := workCode s a w }

/-! ### What a write waits for (R139, R149, R163, R228, R241) -/

/-- The LBA up to which the data of a zone has arrived from WP on: committed, or in the buffer whole. -/
def arrivedEnd (s : State) (n z : Nat) : Nat :=
  s.zmp.dirty.foldl (fun e x =>
    let whole := isCommitted x || s.host.cmds.any fun c => uncommitted c.order == x.wseq && c.xfer
    if x.nsid = n ∧ x.zone = z ∧ x.lba ≤ e ∧ whole then max e (x.lba + x.count) else e) (getZone s n z).wp

/-- A ladder runs on a sector of a track that a write would overlap: the track itself, or in a band slot the one written before it
(R149, R223). -/
def overlapsLadder (s : State) (a : Nat) (w : SecWork) : Bool :=
  let q := workQ a w
  let t := w.track.toNat
  let before := if (workBand s a w).2.2 then t + 1 else t - 1
  s.det.sectors.any fun x => x.ladder.isSome && x.lane / 8 == a / 2 && sectorQ x == q &&
    (x.track == t || x.track == before && decide (eaveEnd s (a / 2) q ≤ t))

/-- The course stripe row of a data sector has not wholly arrived (R228). -/
def rowPartial (s : State) (w : SecWork) : Bool :=
  let n := w.nsid.toNat
  decide (w.kind = 0) && nsZoned s n && decide (arrivedEnd s n (zoneOf s n w.lba.toNat) < rowEnd s n w.lba.toNat)

/-- A data sector of a row is encoded. -/
def rowHas (s : State) (th n lba : Nat) (a : RowAcc) : Bool :=
  let o := lba % nsZl s n
  a.units.any fun y => y.1 == 256 * (o / 256 % max 1 (dataMembers s th)) + o % 256

/-- The accumulator of a thatch row does not yet hold every data sector of the row, in a zone that is Full every one in the buffer
(R240, R241). -/
def parityPartial (s : State) (w : SecWork) : Bool :=
  match workRow s w with
  | none => true
  | some (th, z, row, _) =>
    let m := w.nsid.toNat
    let n := dataMembers s th * 256
    let lo := z * nsZl s m + row * n
    let due := if (getZone s m z).zstate = 0xE then (rangeFrom lo n).filter fun lba => s.zmp.dirty.any (holdsLba m lba)
      else rangeFrom lo n
    rowLost s th z row || !due.all fun lba => rowHas s th m lba (rowAcc s th z row)

/-- A write of a sector waits: for a ladder it would overlap, for its track's parity accumulator, for its row to be complete, for the
row's accumulator to be rebuilt. -/
def workHeld (s : State) (a : Nat) (w : SecWork) : Bool :=
  overlapsLadder s a w || (s.det.tracks.any fun t => t.1 == workTrack a w && t.2.cols.isNone) || rowPartial s w ||
    (if w.kind = 0xFF then parityPartial s w
     else decide (w.kind = 0) && (workRow s w).any fun r => rowLost s r.1 r.2.1 r.2.2.1)

/-- A write cannot start on a lane: the slice does not follow (R163), the mechanism is in thermal band 5 (R353), or what it would
write waits. -/
def writeHeld (s : State) (a l : Nat) : Bool := decide (srvMode s a ≠ 4 ∨ fget s (THM_MECH_W0 (a / 2)) THM_MECH_W0_BAND = 5) || (workAt s a l true).any (workHeld s a)

/-! ### Flits of the sectors written (R80, R139, Table 15-8) -/

/-- A data sector is added to the parity of its track as it is sent, once; a track is open from its first sector on (R139). A flip
in SRAM banks 24 to 28 that no code corrects discards the accumulator (Table 11-5). -/
def addTrack (s : State) (a : Nat) (w : SecWork) (info : List Nat) : State :=
  let S := workPositions s a w
  let tp := workTp s a w
  let k := workTrack a w
  let pos := w.pos.toNat
  if tp = 0 ∨ S - tp ≤ pos then s
  else
    let d : TrackAcc := ⟨zoneKey w.nsid.toNat (zoneOf s w.nsid.toNat w.lba.toNat), [], some (emptyCols tp)⟩
    let t := tabGet d s.det.tracks k
    if t.secs.any fun x => x.1 == pos then s
    else
      let r := flipNow s 1 24 28 none
      let t1 : TrackAcc := { t with secs := tabPut t.secs pos info, cols := if r.2.1 = 2 then none else t.cols.map (addSector S tp pos info) }
      setDet (if r.2.1 = 2 then rootGrade r.1 3 0x92 else r.1) fun y => { y with tracks := tabPut y.tracks k t1 }

/-- A parity sector of a row was sent: with the last of them the row's accumulator is free (R241). -/
def paritySent (s : State) (w : SecWork) : State :=
  match workRow s w with
  | none => s
  | some (th, z, row, x) =>
    let a := rowAcc s th z row
    let k := 256 * w.aux.toNat + x
    let l := if a.sent.contains k then a.sent else k :: a.sent
    if 256 * thatchM s th ≤ l.length then freeAcc s th z row
    else setZmp s fun y => { y with accs := y.accs.map fun b => if ofRow th z row b then { b with sent := l } else b }

/-- A fill sector of a row is encoded as it is sent (R228, R240). -/
def fillEncoded (s : State) (w : SecWork) (info : List Nat) : State :=
  match workRow s w with
  | none => s
  | some (th, z, row, x) =>
    let o := w.lba.toNat % nsZl s w.nsid.toNat
    if s.zmp.accs.any (ofRow th z row) then
      useAcc s (rowAdd (thatchM s th) (o / 256 % max 1 (dataMembers s th)) x info (rowAcc s th z row))
    else s

/-- The last WRITE flit of a sector is prepared: its track's or its row's parity takes note. -/
def sectorSent (s : State) (a : Nat) (w : SecWork) (info : List Nat) : State :=
  if w.kind = 1 then addTrack (fillEncoded s w info) a w info
  else if w.kind = 0xFF then addTrack (paritySent s w) a w info
  else if w.kind = 0xFE then
    if w.pos.toNat + 1 = workPositions s a w then setDet s fun d => { d with tracks := tabDel d.tracks (workTrack a w) } else s
  else addTrack s a w info

/-- The next WRITE flit of a lane for the sector at a position, where the running instruction writes one there (Table 15-8). -/
def wantFlit (s : State) (a pos l : Nat) : State :=
  let x := fseqOf s a
  let on := x.gate / 2 ^ l % 2 = 1 ∨ x.gatePend.any fun g => g.1 && decide (g.2 / 2 ^ l % 2 = 1)
  match x.cur.bind fun i => i.work.find? fun w =>
      w.lane.toNat == l && (i.alone.isEmpty || i.alone.headD 0 == l) && w.write && w.pos.toNat == pos with
  | none => s
  | some w =>
    if !on ∨ workHeld s a w then s
    else
      let i := if (tabGet (65536, 0) x.wcur l).1 = pos then (tabGet (65536, 0) x.wcur l).2 else 0
      let c := workCode s a w
      let rate := (workBand s a w).2.1
      let d := trackBits rate
      let n := flitCount (sectorSpan c d (sectorAt c d pos))
      if n ≤ i then s
      else
        let info := sectorInfo s a w
        let s1 := setFseq s a fun y =>
          { y with flitPend := y.flitPend ++ [sectorFlit rate c pos l i info], wcur := tabPut y.wcur l (pos, i + 1) }
        if i + 1 = n then sectorSent s1 a w info else s1

/-! ### Sector starts (R163, R215, R380) -/

/-- The write gate of a lane opens: the assist starts with it; without a calibrated drive the head's calibration is
pending (R215, R216). -/
def gateOn (s : State) (f l : Nat) : State :=
  let p := f / 2
  let j := 4 * (f % 2) + l
  let q := laneHead s p j
  if hasAssist s f (q % 12) then
    let s1 := if fget s (AST_CAL_W0 p q (mechBand s p)) AST_CAL_W0_DRIVE = 0 then calPend s f (some (some (q % 12), none)) else s
    assistStart s1 p j
  else s

/-- It closes. -/
def gateOff (s : State) (f l : Nat) : State :=
  let p := f / 2
  let j := 4 * (f % 2) + l
  if (spnOf s p).assistOn.contains j then assistEnd s p j else s

/-- The running instruction leaves a lane out now, as one head at a time is worked on (R160). -/
def laneAside (s : State) (a l : Nat) : Bool :=
  (fseqOf s a).cur.any fun i => !i.alone.isEmpty && i.alone.headD 0 != l

/-- A lane mask of the lanes that satisfy a test. -/
def maskIf (m : Nat) (f : Nat → Bool) : Nat := sumN ((lanesOf m).map fun l => if f l then 2 ^ l else 0)

/-- Write gates change at a sector start: a gate whose write must wait opens at a later one. -/
def gateStart (s : State) (a : Nat) (on : Bool) (m : Nat) : State :=
  let wait := if on then maskIf m fun l => writeHeld s a l && !laneAside s a l else 0
  let now := maskIf m fun l => !on || !writeHeld s a l && !laneAside s a l
  let s1 := setFseq s a fun y =>
    { y with gatePend := if wait = 0 then none else some (on, wait), gate := if on then y.gate ||| now else y.gate &&& (15 - now) }
  if now = 0 then s1
  else forAll (lanesOf now) (emit s1 (.media 8 a [b2n on, now])) fun t l =>
    let was := (fseqOf s a).gate / 2 ^ l % 2 = 1
    if on then (if was then t else gateOn t a l) else (if was then gateOff t a l else t)

/-- The head and the track that a read window of a lane opens on: the running instruction's, else those the lane has. -/
def windowAt (s : State) (a l : Nat) : Nat × Nat :=
  match (fseqOf s a).cur.bind fun i => laneWork i l with
  | some w => (w.head.toNat, w.track.toNat)
  | none => (laneHd s a l, laneTrack s a l)

/-- Read windows open at a sector start (R163, R124): on lanes that are ready and within reach of their track; the others wait. -/
def windowStart (s : State) (a m : Nat) : State :=
  let can := fun l => laneReady s (4 * a + l) && (slane s a l).readOk
  let now := maskIf m fun l => can l && !laneAside s a l
  let wait := maskIf m fun l => !can l && !laneAside s a l
  forAll (lanesOf now) (setFseq s a fun y => { y with window := y.window ||| now, winPend := if wait = 0 then none else some wait })
    fun s l =>
      let h := windowAt s a l
      liveStart (readOpen s (4 * a + l) h.1 h.2) (4 * a + l)

end Sys2Proof.Machine
end

