-- ==== Sys2Proof/Machine/Microcode.lean ====
section
/-! DEFINITION. The microcoded sequencers (chapter 15). A row names the sequencer; the word it executes is the one the
sequencer fetches, and where that word is of another kind nothing happens (log entry 27). -/
namespace Sys2Proof.Machine
open Sys2Proof

/-! ### Words and registers (R367) -/

/-- The fields of a microword. -/
def mOp (w : Nat) : Nat := w / 2 ^ 16 % 16
def mD (w : Nat) : Nat := w / 2 ^ 12 % 16
def mS (w : Nat) : Nat := w / 2 ^ 8 % 16
def mT (w : Nat) : Nat := w / 2 ^ 4 % 16
def mImm (w : Nat) : Nat := w % 2 ^ 12
def mAddr (w : Nat) : Nat := w % 2 ^ 16

/-- A word is CTL with a SUB. -/
def isCtl (sub : Nat) (w : Nat) : Bool := mOp w == 0 && mD w == sub

/-- Registers and flags: G0–G15, Z, C, N. -/
abbrev MRegs := List Nat × Bool × Bool × Bool

/-- Register `i`. -/
def gGet (r : MRegs) (i : Nat) : Nat := r.1.getD i 0

/-- Set register `i`. -/
def gSet (i v : Nat) (r : MRegs) : MRegs := (updAt r.1 i fun _ => v, r.2)

/-- Apply a change to a formatter's registers. -/
def onF (h : MRegs → MRegs) (x : FSeq) : FSeq :=
  let r := h (x.g, x.zf, x.cf, x.nf)
  { x with g := r.1, zf := r.2.1, cf := r.2.2.1, nf := r.2.2.2 }

/-- Apply a change to a thread's registers. -/
def onZ (h : MRegs → MRegs) (x : ZThread) : ZThread :=
  let r := h (x.g, x.zf, x.cf, x.nf)
  { x with g := r.1, zf := r.2.1, cf := r.2.2.1, nf := r.2.2.2 }

/-- The value of an ALU function of `k` bits and the carry it leaves; a shift by the width or more is the free value. -/
def aluVal (k fn a b : Nat) (c : Bool) (free : Nat) : Nat × Bool :=
  let sub := fun x y => ((x + 2 ^ k - y % 2 ^ k) % 2 ^ k, if Config.borrowC then decide (x < y) else decide (y ≤ x))
  match fn with
  | 0 => ((a + b) % 2 ^ k, decide (2 ^ k ≤ a + b))
  | 1 => sub a b
  | 2 => (a &&& b, c)
  | 3 => (a ||| b, c)
  | 4 => (a ^^^ b, c)
  | 5 => (a, c)
  | 6 => ((a + 1) % 2 ^ k, decide (2 ^ k ≤ a + 1))
  | 7 => sub a 1
  | 8 => (if b < k then a * 2 ^ b % 2 ^ k else free % 2 ^ k, c)
  | 9 => (if b < k then a / 2 ^ b else free % 2 ^ k, c)
  | 0xA => sub a b
  | 0xB => (a &&& b, c)
  | 0xC => ((a + b + b2n c) % 2 ^ k, decide (2 ^ k ≤ a + b + b2n c))
  | 0xD => sub a (b + b2n (c == Config.borrowC))
  | 0xE => (2 ^ k - 1 - a, c)
  | _ => (0, c)

/-- An ALU word on registers of `k` bits (R367): CMP and TST write flags only. -/
def aluOp (k w free : Nat) (r : MRegs) : MRegs :=
  let fn := w % 16
  let v := aluVal k fn (gGet r (mS w)) (gGet r (mT w)) r.2.2.1 free
  let g := if fn = 0xA ∨ fn = 0xB then r.1 else updAt r.1 (mD w) fun _ => v.1
  (g, decide (v.1 = 0), v.2, decide (2 ^ (k - 1) ≤ v.1))

/-- LDH on registers of `k` bits: bits 23:12; a formatter has only 15:12 of them. -/
def ldh (k w : Nat) (r : MRegs) : MRegs :=
  let old := gGet r (mD w)
  gSet (mD w) ((old % 2 ^ 12 + mImm w * 2 ^ 12 + old / 2 ^ 24 * 2 ^ 24) % 2 ^ k) r

/-! ### Formatter sequencers: fetch, next address, faults (R364, R370, R371, R376) -/

/-- PC of a formatter. -/
def fPc (s : State) (f : Nat) : Nat := fget s (MCS_FSEQ_W0 f) MCS_FSEQ_W0_PC

/-- A formatter runs: powered, and neither halted nor faulted. -/
def fRuns (s : State) (f : Nat) : Bool := domOn s (75 + f) && decide (fState s f ≤ 1)

/-- The word at an address of the formatter store, none outside its ROM and patch RAM. -/
def fWord (s : State) (pc : Nat) : Option Nat :=
  if pc < 0x4000 then some (fRomWord pc)
  else if 0x8000 ≤ pc ∧ pc < 0x8400 then some (rdN s (MCS_FPRAM (pc - 0x8000)) % 2 ^ 20) else none

/-- A match register substitutes an address, the lowest index first (R372). -/
def fSubst (s : State) (pc : Nat) : Nat :=
  match (rangeFrom 0 16).find? fun i =>
      fbit s (MCS_FMATCH i) MCS_FMATCH_VALID && fget s (MCS_FMATCH i) MCS_FMATCH_ROM_ADDR == pc with
  | some i => fget s (MCS_FMATCH i) MCS_FMATCH_PATCH_ADDR
  | none => pc

/-- A sequencer's fault counts and shows in MCS (Table 15-7). -/
def mcsFault (s : State) (bit code : Nat) : State :=
  let s1 := evtSet (count s MCS_FAULTS 1 .mcs MCS_EVT_SAT) .mcs bit
  if code = 5 then evtSet s1 .mcs MCS_EVT_PARITY else s1

/-- A formatter's fault (R376): the running instruction comes back with the last sector it completed, a queued one with none; at basic level a second one within 1 s fails the ACT unit (R378). -/
def fFault (s : State) (f code : Nat) : State :=
  let x := fseqOf s f
  let s1 := fset (fset (fset s (MCS_FSEQ_W0 f) MCS_FSEQ_W0_STATE 3) (MCS_FSEQ_W0 f) MCS_FSEQ_W0_FAULT code) (MCS_FSEQ_W0 f)
    MCS_FSEQ_W0_OP 0
  let s2 := forAll x.queue (forAll x.cur.toList s1 fun s i => pushResult s i (f, x.lastDone, false)) fun s i => pushResult s i (f, 0, false)
  let s3 := fSync (setFseq s2 f fun y => { y with cur := none, queue := [], lastFault := some (uptime s) }) f
  let s4 := syncSw (fset s3 (ACT_WS_INH f) ACT_WS_INH_SW_INH 0xF) f
  let again := x.lastFault.any fun t => decide (uptime s < t + 1000)
  let s5 := match actUnit s4 f with
    | some u => if again && !claimed s baseMCS then failOwn s4 u 0xC2 else recompute (impair s4 u 0xC1) u
    | none => s4
  mcsFault s5 MCS_EVT_F_FAULT code

/-- The formatter's next word is at `pc` (Table 15-4): substituted, or a fault outside the store. -/
def fNext (s : State) (f pc : Nat) : State :=
  let p := fSubst s (pc % 2 ^ 16)
  let s1 := fSync (fset s (MCS_FSEQ_W0 f) MCS_FSEQ_W0_PC p) f
  if (fWord s p).isSome then s1 else fFault s1 f 2

/-- Run the word a formatter fetches, where it is of the kind `ok`. -/
def fRun (s : State) (f : Nat) (ok : Nat → Bool) (g : Nat → State) : State :=
  if fRuns s f then
    match fWord s (fPc s f) with
    | some w => if ok w then g w else s
    | none => fFault s f 2
  else s

/-! ### Zone sequencers: threads, next address, faults (R365, R376) -/

/-- The word at an address of the zone store. -/
def zWord (s : State) (pc : Nat) : Option Nat :=
  if pc < 0x8000 then some (zRomWord pc)
  else if pc < 0x8800 then some (rdN s (MCS_ZPRAM (pc - 0x8000)) % 2 ^ 20) else none

/-- ZMAP of residue `x`. -/
def zmapOf (m x : Nat) : Nat := m / 8 ^ x % 8

/-- The residues of a ZMAP value changed. -/
def zmapSet (m : Nat) (h : Nat → Nat → Nat) : Nat := sumN ((rangeFrom 0 8).map fun x => h x (zmapOf m x) % 8 * 8 ^ x)

/-- The firmware maps the residues of a faulted zone sequencer to the lowest-numbered one that runs (R378). -/
def mapAway (s : State) (z : Nat) : State :=
  if claimed s baseMCS then s
  else match (rangeFrom 0 8).find? fun y => y != z && decide (zState s y ≤ 1) with
    | none => s
    | some y =>
      let m := fget s MCS_ZCTRL MCS_ZCTRL_ZMAP
      let s1 := { s with mcs := { s.mcs with zmap := some (s.mcs.zmap.getD m) } }
      fset s1 MCS_ZCTRL MCS_ZCTRL_ZMAP (zmapSet m fun _ v => if v = z then y else v)

/-- They are mapped back after the restart. -/
def mapBack (s : State) (z : Nat) : State :=
  match s.mcs.zmap with
  | none => s
  | some old =>
    let m := fget s MCS_ZCTRL MCS_ZCTRL_ZMAP
    let s1 := fset s MCS_ZCTRL MCS_ZCTRL_ZMAP (zmapSet m fun x v => if zmapOf old x = z then z else v)
    if (rangeFrom 0 8).any fun y => zState s y == 3 then s1 else { s1 with mcs := { s1.mcs with zmap := none } }

/-- The command of a thread. -/
def cmdOfThread (s : State) (x : ZThread) : Option Cmd := x.cmd.bind fun o => s.host.cmds.find? fun c => c.order == o

/-- A zone sequencer's fault in thread `t` (R376). -/
def zFault (s : State) (z t code : Nat) : State :=
  let s1 := fset (fset s (MCS_ZSEQ_W0 z) MCS_ZSEQ_W0_STATE 3) (MCS_ZSEQ_W0 z) MCS_ZSEQ_W0_FAULT code
  let s2 := fset (fset s1 (MCS_ZSEQ_W0 z) MCS_ZSEQ_W0_THREAD t) (MCS_ZSEQ_W0 z) MCS_ZSEQ_W0_PC (zthread s z t).pc
  let s3 := forAll (busyThreads s z) s2 fun s x =>
    match cmdOfThread s x.2 with
    | some c => if c.fail.isNone then failCmd s c 0 0x06 else s
    | none => s
  mapAway (rootGrade (mcsFault (wbit s3 MCS_STAT (8 + z) false) MCS_EVT_Z_FAULT code) 1 0xC3) z

/-- The thread's next word is at `pc`. -/
def zNext (s : State) (z t pc : Nat) : State :=
  let p := zSubst s (pc % 2 ^ 16)
  let s1 := setThread s z t fun x => { x with pc := p }
  if (zWord s p).isSome then zSync s1 z else zFault s1 z t 2

/-- The journal write a thread asked for is done: no entry of its zone waits or is being written. -/
def jrnDone (s : State) (x : ZThread) : Bool :=
  match x.reqs.find? fun r => r.1 == 0x4C, cmdOfThread s x with
  | some r, some c =>
    let k := zoneKey c.nsid r.2
    !s.zmp.jrnDue.contains k && !s.zmp.jrnBusy.any fun b => b.2.contains k
  | _, _ => true

/-- A formatter's queue has room. -/
def qRoom (s : State) (a : Nat) : Bool := decide ((fseqOf s a).queue.length < 64)

/-- A condition of a zone thread (Table 15-2). -/
def zCond (s : State) (z t c : Nat) : Bool :=
  let x := zthread s z t
  let cmd := cmdOfThread s x
  match c with
  | 0 => true
  | 1 => x.zf
  | 2 => x.cf
  | 3 => x.nf
  | 4 => cmd.isSome || x.task.isSome
  | 5 => zHreq s z
  | 6 => qRoom s (x.g.getD 15 0 % 64)
  | 7 => !x.results.isEmpty
  | 8 => cmd.any (·.admitted)
  | 9 => cmd.any (mirrorMet s)
  | 10 => cmd.any (·.xfer)
  | 11 => x.timerExp
  | 12 => (freeCtx s.zmp.ctxs 0).isSome
  | 13 => jrnDone s x
  | 14 => cmd.any fun y => y.fail == some (0, 0x07)
  | _ => cmd.any (firstOfZone s)

/-- What a thread waits for holds. -/
def waitOver (s : State) (z t : Nat) : Bool :=
  match (zthread s z t).wait with
  | none => true
  | some (.cond c _) => zCond s z t c
  | some (.room a) => qRoom s a

/-- A thread can issue. -/
def zReady (s : State) (z t : Nat) : Bool :=
  let x := zthread s z t
  threadBusy x && !x.atHalt && waitOver s z t

/-- The thread that issues next: round-robin from the one after the last (R365). -/
def zPick (s : State) (z : Nat) : Option Nat :=
  if zState s z ≤ 1 ∧ mode s ≠ 0 then
    ((rangeFrom 1 64).map fun i => ((zseq s z).last + i) % 64).find? fun t => zReady s z t
  else none

/-- A formatter result that a thread has found is taken (DESIGN CHOICE, log entry 27). -/
def takeResult (s : State) (z t : Nat) : State := setThread s z t fun x => { x with results := x.results.drop 1 }

/-- Thread `t` issues its word. -/
def zIssue (s : State) (z t : Nat) : State :=
  let x := zthread s z t
  let s1 := match x.wait with
    | some (.cond 7 _) => takeResult s z t
    | _ => s
  let s2 := setThread (setZseq s1 z fun y => { y with last := t }) z t fun y => { y with wait := none }
  fset (fset s2 (MCS_ZSEQ_W0 z) MCS_ZSEQ_W0_THREAD t) (MCS_ZSEQ_W0 z) MCS_ZSEQ_W0_PC x.pc

/-- Run the word the next ready thread fetches, where it is of the kind `ok`. -/
def zRun (s : State) (z : Nat) (ok : Nat → Bool) (g : State → Nat → Nat → State) : State :=
  match zPick s z with
  | none => s
  | some t =>
    match zWord s (zthread s z t).pc with
    | some w => if ok w then g (zIssue s z t) t w else s
    | none => zFault s z t 2

/-! ### Control words -/

/-- A word that changes registers and flags alone. -/
def regWord (q : SeqRef) (ok : Nat → Bool) (h : Nat → Nat → Nat → MRegs → MRegs) (s : State) : State :=
  match q with
  | .f f => fRun s f ok fun w => fNext (setFseq s f (onF (h 16 w (freeVal s)))) f (fPc s f + 1)
  | .z z => zRun s z ok fun s t w =>
      zNext (setThread s z t (onZ (h 32 w (freeVal s)))) z t ((zthread s z t).pc + 1)

/-- NOP (R367). -/
def execNop (q : SeqRef) (s : State) : Res := .next (regWord q (isCtl 0) (fun _ _ _ r => r) s)

/-- RET (Table 15-4): PC from the stack; an empty one is a fault. -/
def execRet (q : SeqRef) (s : State) : Res :=
  .next (match q with
    | .f f => fRun s f (isCtl 1) fun _ =>
        match (fseqOf s f).stack with
        | [] => fFault s f 4
        | p :: l => fNext (setFseq s f fun x => { x with stack := l }) f p
    | .z z => zRun s z (isCtl 1) fun s t _ =>
        match (zthread s z t).stack with
        | [] => zFault s z t 4
        | p :: l => zNext (setThread s z t fun x => { x with stack := l }) z t p)

/-- DISP (R370): a formatter pops an instruction into G12–G15 and runs it, its actuator seeking to the instruction's tracks; while the
course is held on its present tracks (R171, R172) the word is held (log entry 47). A zone thread enters its flow. -/
def execDisp (q : SeqRef) (s : State) : Res :=
  .next (match q with
    | .f f => fRun s f (isCtl 2) fun _ =>
        match (fseqOf s f).queue with
        | [] => fNext s f (fPc s f + 1)
        | i0 :: l =>
          let i := { i0 with alone := if i0.alone.isEmpty then aloneLanes s f i0 else i0.alone }
          if courseHeld s f && needsSeek s f i then s
          else
          let op := i.lo / 256 % 256
          let s0 := if needsSeek s f i then seekTo s f i else s
          let s1 := setFseq s0 f fun x =>
            { x with g := x.g.take 12 ++ [i.lo % 2 ^ 16, i.lo / 2 ^ 16 % 2 ^ 16, i.hi % 2 ^ 16, i.hi / 2 ^ 16 % 2 ^ 16]
                     queue := l, cur := some i, lastDone := 0, wcur := [] }
          let s2 := fset (fset s1 (MCS_FSEQ_W0 f) MCS_FSEQ_W0_STATE 0) (MCS_FSEQ_W0 f) MCS_FSEQ_W0_OP op
          fNext (count s2 (MCS_FSEQ_W2 f) 1 .mcs MCS_EVT_SAT) f op
    | .z z => zRun s z (isCtl 2) fun s t _ =>
        match cmdOfThread s (zthread s z t) with
        | none => zNext s z t ((zthread s z t).pc + 1)
        | some c => zNext s z t (Config.zEntry c.opc))

/-- HALTPT (R375, Table 15-6). -/
def execHaltpt (q : SeqRef) (s : State) : Res :=
  .next (match q with
    | .f f => fRun s f (isCtl 3) fun _ =>
        if rbit s (MCS_F_HALT_LO + 4 * (f.val / 32)) (f.val % 32) then fset s (MCS_FSEQ_W0 f) MCS_FSEQ_W0_STATE 2
        else fNext s f (fPc s f + 1)
    | .z z => zRun s z (isCtl 3) fun s t _ =>
        if zHreq s z then zSync (setThread s z t fun x => { x with atHalt := true }) z
        else zNext s z t ((zthread s z t).pc + 1))

/-- The live streams of a formatter's read windows end with its instruction (DESIGN CHOICE, log entry 27). -/
def closeWindows (s : State) (f : Nat) : State :=
  let w := (fseqOf s f).window
  forAll (rangeFrom 0 4) (setFseq s f fun x => { x with window := 0 }) fun s l =>
    if w / 2 ^ l % 2 = 1 then liveEnd s (4 * f + l) else s

/-- DONE (R367, Table 15-4): the instruction's status in G0 returns to its thread, once the last head of a course worked on one head at a
time is done (R160); a flow ends and its thread is free. -/
def execDone (q : SeqRef) (s : State) : Res :=
  .next (match q with
    | .f f => fRun s f (isCtl 4) fun _ =>
        let x := fseqOf s f
        let s1 := match x.cur with
          | some i => if i.alone.length ≤ 1 then pushResult s i (f, x.g.getD 0 0, true)
            else setFseq s f fun y => { y with queue := { i with alone := i.alone.drop 1 } :: y.queue }
          | none => s
        let s2 := closeWindows (fSync (setFseq s1 f fun y => { y with cur := none }) f) f
        fNext (fset (fset s2 (MCS_FSEQ_W0 f) MCS_FSEQ_W0_STATE 1) (MCS_FSEQ_W0 f) MCS_FSEQ_W0_OP 0) f 0x100
    | .z z => zRun s z (isCtl 4) fun s t _ =>
        let s1 := setZseq s z fun x => { x with threads := tabDel x.threads t }
        zSync (count s1 (MCS_ZSEQ_W2 z) 1 .mcs MCS_EVT_SAT) z)

/-! ### Registers and arithmetic (R367) -/

/-- LDI. -/
def execLdi (q : SeqRef) (s : State) : Res :=
  .next (regWord q (fun w => mOp w == 1) (fun _ w _ => gSet (mD w) (mImm w)) s)

/-- LDH. -/
def execLdh (q : SeqRef) (s : State) : Res := .next (regWord q (fun w => mOp w == 2) (fun k w _ => ldh k w) s)

/-- An ALU word with function `fn`. -/
def aluWord (fn : Nat) (q : SeqRef) (s : State) : State :=
  regWord q (fun w => mOp w == 3 && w % 16 == fn) (fun k w v => aluOp k w v) s

/-- ALU ADD. -/
def execAluAdd (q : SeqRef) (s : State) : Res := .next (aluWord 0 q s)
/-- ALU SUB. -/
def execAluSub (q : SeqRef) (s : State) : Res := .next (aluWord 1 q s)
/-- ALU AND. -/
def execAluAnd (q : SeqRef) (s : State) : Res := .next (aluWord 2 q s)
/-- ALU OR. -/
def execAluOr (q : SeqRef) (s : State) : Res := .next (aluWord 3 q s)
/-- ALU XOR. -/
def execAluXor (q : SeqRef) (s : State) : Res := .next (aluWord 4 q s)
/-- ALU MOV: d = s. -/
def execAluMov (q : SeqRef) (s : State) : Res := .next (aluWord 5 q s)
/-- ALU INC: d = s + 1. -/
def execAluInc (q : SeqRef) (s : State) : Res := .next (aluWord 6 q s)
/-- ALU DEC: d = s − 1. -/
def execAluDec (q : SeqRef) (s : State) : Res := .next (aluWord 7 q s)
/-- ALU SHL: s shifted by t; by the width or more, a free value. -/
def execAluShl (q : SeqRef) (s : State) : Res := .next (drawn (aluWord 8 q s))
/-- ALU SHR. -/
def execAluShr (q : SeqRef) (s : State) : Res := .next (drawn (aluWord 9 q s))
/-- ALU CMP: flags of s − t. -/
def execAluCmp (q : SeqRef) (s : State) : Res := .next (aluWord 0xA q s)
/-- ALU TST: flags of s AND t. -/
def execAluTst (q : SeqRef) (s : State) : Res := .next (aluWord 0xB q s)
/-- ALU ADDC. -/
def execAluAddc (q : SeqRef) (s : State) : Res := .next (aluWord 0xC q s)
/-- ALU SUBC. -/
def execAluSubc (q : SeqRef) (s : State) : Res := .next (aluWord 0xD q s)
/-- ALU NOT. -/
def execAluNot (q : SeqRef) (s : State) : Res := .next (aluWord 0xE q s)
/-- ALU CLR. -/
def execAluClr (q : SeqRef) (s : State) : Res := .next (aluWord 0xF q s)

/-! ### Branches (R368, R370) -/

/-- The sticky conditions of the formatter store. -/
def fSticky (c : Nat) : Bool := decide (6 ≤ c ∧ c ≤ 9) || c == 14

/-- A condition of a formatter (Table 15-2). -/
def fCond (s : State) (f c : Nat) : Bool :=
  let x := fseqOf s f
  match c with
  | 0 => true
  | 1 => x.zf
  | 2 => x.cf
  | 3 => x.nf
  | 4 => !x.queue.isEmpty
  | 5 => rbit s (MCS_F_HALT_LO + 4 * (f / 32)) (f % 32)
  | 10 => x.cnt0 == 0
  | 11 => x.cnt1 == 0
  | 12 => decide (x.lanes &&& fget s (ACT_WS_INH f) ACT_WS_INH_INH ≠ 0)
  | 13 => decide (0 < avail s (f / 2))
  | 15 => claimed s (baseACT f)
  | c => x.latch.contains c

/-- The target of a branch at `pc`. -/
def brTarget (pc w : Nat) : Nat := unsgn 16 ((pc : Int) + sgn 12 (mImm w))

/-- BRC, or BRN when `neg`: a sticky condition found true is cleared; a result found is taken. -/
def branch (op : Nat) (neg : Bool) (q : SeqRef) (s : State) : State :=
  match q with
  | .f f => fRun s f (fun w => mOp w == op) fun w =>
      let c := mD w
      let b := fCond s f c
      let s1 := if b && fSticky c then setFseq s f fun x => { x with latch := x.latch.filter (· != c) } else s
      fNext s1 f (if b != neg then brTarget (fPc s f) w else fPc s f + 1)
  | .z z => zRun s z (fun w => mOp w == op) fun s t w =>
      let c := mD w
      let b := zCond s z t c
      let pc := (zthread s z t).pc
      zNext (if b && c == 7 then takeResult s z t else s) z t (if b != neg then brTarget pc w else pc + 1)

/-- BRC. -/
def execBrc (q : SeqRef) (s : State) : Res := .next (branch 4 false q s)

/-- BRN. -/
def execBrn (q : SeqRef) (s : State) : Res := .next (branch 5 true q s)

/-- JMP. -/
def execJmp (q : SeqRef) (s : State) : Res :=
  .next (match q with
    | .f f => fRun s f (fun w => mOp w == 6) fun w => fNext s f (mAddr w)
    | .z z => zRun s z (fun w => mOp w == 6) fun s t w => zNext s z t (mAddr w))

/-- CALL: beyond the stack's depth, 4 or 8, a fault (R370, Table 15-5). -/
def execCall (q : SeqRef) (s : State) : Res :=
  .next (match q with
    | .f f => fRun s f (fun w => mOp w == 7) fun w =>
        if 4 ≤ (fseqOf s f).stack.length then fFault s f 4
        else fNext (setFseq s f fun x => { x with stack := (fPc s f + 1) :: x.stack }) f (mAddr w)
    | .z z => zRun s z (fun w => mOp w == 7) fun s t w =>
        if 8 ≤ (zthread s z t).stack.length then zFault s z t 4
        else zNext (setThread s z t fun x => { x with stack := (x.pc + 1) :: x.stack }) z t (mAddr w))

/-- DLY: the word is held for n + 1 cycles; the model has no cycles (R369). -/
def execDly (q : SeqRef) (s : State) : Res := .next (regWord q (fun w => mOp w == 0xB) (fun _ _ _ r => r) s)

/-! ### Waiting, memory, SEND -/

/-- WAIT (R367, Table 15-3): the thread waits from here. -/
def execWait (z : Fin 8) (s : State) : Res :=
  .next (zRun s z (fun w => mOp w == 0xC) fun s t w =>
    zNext (setThread s z t fun x => { x with wait := some (.cond (mD w) (mImm w)) }) z t ((zthread s z t).pc + 1))

/-- WAIT_TIMEOUT: C = 1, and the thread is ready. -/
def execWaitTimeout (z : Fin 8) (t : Fin 64) (s : State) : Res :=
  .next (match (zthread s z t).wait with
    | some (.cond c n) =>
      if n ≠ 0 ∧ threadBusy (zthread s z t) ∧ !zCond s z t c then
        zSync (setThread s z t fun x => { x with wait := none, cf := true }) z
      else s
    | _ => s)

/-- MEM with L as given. -/
def isMem (l : Nat) (w : Nat) : Bool := mOp w == 0xD && w / 2 ^ 15 % 2 == l

/-- MEM_LOAD: of a word that microcode has not stored, a free value. -/
def execMemLoad (q : SeqRef) (s : State) : Res :=
  .next (drawn (match q with
    | .f f => fRun s f (isMem 1) fun w =>
        fNext (setFseq s f fun x => onF (gSet (w / 2 ^ 11 % 16) (tabGet (freeVal s % 2 ^ 16) x.scratch (w % 2 ^ 11))) x) f (fPc s f + 1)
    | .z z => zRun s z (isMem 1) fun s t w =>
        zNext (setThread s z t fun x => onZ (gSet (w / 2 ^ 11 % 16) (tabGet (freeVal s % 2 ^ 32) x.window (w % 2 ^ 11))) x) z t
          ((zthread s z t).pc + 1)))

/-- MEM_STORE. -/
def execMemStore (q : SeqRef) (s : State) : Res :=
  .next (match q with
    | .f f => fRun s f (isMem 0) fun w =>
        fNext (setFseq s f fun x => { x with scratch := tabPut x.scratch (w % 2 ^ 11) (x.g.getD (w / 2 ^ 11 % 16) 0) }) f (fPc s f + 1)
    | .z z => zRun s z (isMem 0) fun s t w =>
        zNext (setThread s z t fun x => { x with window := tabPut x.window (w % 2 ^ 11) (x.g.getD (w / 2 ^ 11 % 16) 0) }) z t
          ((zthread s z t).pc + 1))

/-- SEND (R366): one instruction into the queue of an actuator's formatter, or a wait while it is full. `work` tells the sectors that it
asks for, as the zone sequencer lays them out (R227, R235); the ROM's instruction format is not in the spec. -/
def execSend (z : Fin 8) (work : List SecWork) (s : State) : Res :=
  .next (drawn (zRun s z (fun w => mOp w == 0xE) fun s t w =>
    let a := w / 2 ^ 6 % 64
    let x := zthread s z t
    if qRoom s a then
      let i : FInstr := ⟨x.g.getD (mD w) 0, x.g.getD (mD w + 1) (freeVal s % 2 ^ 32), z, t, work, []⟩
      zNext (fSync (setFseq s a fun y => { y with queue := y.queue ++ [i] }) a) z t (x.pc + 1)
    else zSync (setThread s z t fun x => { x with wait := some (.room a) }) z))

/-- An illegal word of a store (Table 15-1). -/
def illegalWord (fmt : Bool) (w : Nat) : Bool :=
  (mOp w == 0 && decide (5 ≤ mD w)) || mOp w == 0xF || (fmt && (mOp w == 0xC || mOp w == 0xE))

/-- ILLEGAL_MICROWORD (R376): the word fetched fails its parity, or is illegal; at a dispatch entry of the formatter ROM
there is no instruction. -/
def execIllegalMicroword (q : SeqRef) (parity : Bool) (s : State) : Res :=
  .next (match q with
    | .f f => fRun s f (fun w => parity || illegalWord true w) fun _ =>
        fFault s f (if parity then 5 else if fPc s f < 0x100 then 3 else 1)
    | .z z => zRun s z (fun w => parity || illegalWord false w) fun s t _ => zFault s z t (if parity then 5 else 1))

/-! ### Datapath ports of the formatter (R380, Table 15-8) -/

/-- The port of an OUT or OUTI word and what it sends. -/
def outPort (r : List Nat) (w : Nat) : Option (Nat × Nat) :=
  if mOp w = 8 then some (w / 256 % 256, r.getD (mT w) 0)
  else if mOp w = 0xA then some (w / 256 % 256, w % 256) else none

/-- An OUT or OUTI word to a formatter port. -/
def fOut (s : State) (f port : Nat) (g : State → Nat → State) : State :=
  let r := (fseqOf s f).g
  fRun s f (fun w => (outPort r w).any fun o => o.1 == port) fun w =>
    fNext (g s (((outPort r w).map (·.2)).getD 0)) f (fPc s f + 1)

/-- PORT_LANES. -/
def execPortLanes (f : Fin 64) (s : State) : Res :=
  .next (fOut s f 0x00 fun s v => setFseq s f fun x => { x with lanes := v % 16 })

/-- PORT_WGATE: from the next sector start. -/
def execPortWgate (f : Fin 64) (s : State) : Res :=
  .next (fOut s f 0x01 fun s v => setFseq s f fun x => { x with gatePend := some (v % 2 == 1, x.lanes) })

/-- PORT_RDWIN: at the next sector start. -/
def execPortRdwin (f : Fin 64) (s : State) : Res :=
  .next (fOut s f 0x02 fun s _ => setFseq s f fun x => { x with winPend := some x.lanes })

/-- PORT_WFLIT: one WRITE flit of each lane; a request while one is pending is ignored. -/
def execPortWflit (f : Fin 64) (s : State) : Res :=
  .next (fOut s f 0x03 fun s v =>
    let t := flushFlits s f
    if !(fseqOf t f).flitPend.isEmpty then t
    else flushFlits (forAll (lanesOf (fseqOf t f).lanes) t fun s l => wantFlit s f (v % 2 ^ 16) l) f)

/-- The write precompensation VALUE of a head lane: bytes 48–51 of the entry of its head and of the rate band of its track (R133). -/
def precomp (s : State) (a l : Nat) : Nat :=
  let h := windowAt s a l
  rdN s (ACT_TAPTAB a (tapEntry h.1 (bandAt s (a / 2) (12 * (a % 2) + h.1) h.2).1 + 12))

/-- PORT_PRECOMP (R133). -/
def execPortPrecomp (f : Fin 64) (s : State) : Res :=
  .next (fOut s f 0x04 fun s _ =>
    forAll (lanesOf (fseqOf s f).lanes) s fun s l => sendCmd s (f / 2) [⟨6, 4 * (f.val % 2) + l, precomp s f l⟩])

/-- PORT_CNT0. -/
def execPortCnt0 (f : Fin 64) (s : State) : Res := .next (fOut s f 0x05 fun s v => setFseq s f fun x => { x with cnt0 := v })

/-- PORT_CNT1. -/
def execPortCnt1 (f : Fin 64) (s : State) : Res := .next (fOut s f 0x06 fun s v => setFseq s f fun x => { x with cnt1 := v })

/-- The sector being read on a lane. -/
def laneSector (s : State) (n : Nat) : Option Sector := s.det.sectors.find? fun x => x.lane == n

/-- PORT_STATUS (R148, Table 5-7): of the sector that the running instruction writes or reads at SECT of the lane; other values are no
status. -/
def execPortStatus (f : Fin 64) (s : State) : Res :=
  .next (fOut s f 0x07 fun s v =>
    let st := v % 256
    let l := v / 256 % 16
    if 4 ≤ l then s
    else if 0x20 ≤ st ∧ st ≤ 0x23 then
      match workAt s f l true with
      | some w => writeStatus s f l st w
      | none => s
    else if st ≤ 4 ∨ (8 ≤ st ∧ st ≤ 0xA) then
      match laneSector s (4 * f.val + l) with
      | some x => endSector s x st
      | none => s
    else s)

/-- PORT_RUNG (R143): the ladder of the lane's sector runs from a rung; a request is ignored while a rung still runs. -/
def execPortRung (f : Fin 64) (s : State) : Res :=
  .next (fOut s f 0x08 fun s v =>
    let l := v / 256 % 16
    match if l < 4 then laneSector s (4 * f.val + l) else none with
    | none => s
    | some x =>
      if x.ladder.isSome && s.det.jobs.any (fun j => j.sec == x.id) then s
      else
      let d : Ladder :=
        { ctrl := rd s (ACT_FMT_CTRL f), rungs := (rangeFrom 0 16).map fun r => rd s (ACT_LAD f r), rung := 0, offs := []
          rereads := 0, replayTo := none, noSample := false, relaxed := false, failAs := 8 }
      settleDet (ladderGo ladderMost s x { x.ladder.getD d with rung := v % 16, offs := [], replayTo := none }))

/-- An IN word of a formatter port. -/
def fIn (s : State) (f port : Nat) (g : State → Nat × State) : State :=
  fRun s f (fun w => mOp w == 9 && w / 16 % 256 == port) fun w =>
    let r := g s
    fNext (setFseq r.2 f (onF (gSet (mD w) (r.1 % 2 ^ 16)))) f (fPc s f + 1)

/-- IN_SECT. -/
def execInSect (f : Fin 64) (s : State) : Res := .next (fIn s f 0x10 fun s => ((fseqOf s f).sect, s))

/-- IN_TRACK: of the reference head. -/
def execInTrack (f : Fin 64) (s : State) : Res :=
  .next (fIn s f 0x11 fun s => (fget s (ACT_SL_POS f (fget s (ACT_SRV_STAT f) ACT_SRV_STAT_REF)) ACT_SL_POS_TRACK, s))

/-- IN_RES: the oldest decode result goes; RES stays while one is left. With none waiting the value is free. -/
def execInRes (f : Fin 64) (s : State) : Res :=
  .next (drawn (fIn s f 0x12 fun s =>
    let x := fseqOf s f
    match x.res with
    | [] => (freeVal s, s)
    | r :: l =>
      let lt := x.latch.filter (· != 14)
      (r.1 + 256 * r.2, setFseq s f fun y => { y with res := l, latch := if l = [] then lt else 14 :: lt })))

/-- IN_SYNC. -/
def execInSync (f : Fin 64) (s : State) : Res :=
  .next (fIn s f 0x13 fun s => ((fseqOf s f).sync.1 % 8 + 256 * (fseqOf s f).sync.2, s))

/-- IN_INH. -/
def execInInh (f : Fin 64) (s : State) : Res :=
  .next (fIn s f 0x14 fun s => (fget s (ACT_WS_INH f) ACT_WS_INH_INH + 16 * fget s (ACT_WS_INH f) ACT_WS_INH_PEND, s))

/-- IN_WEDGE. -/
def execInWedge (f : Fin 64) (s : State) : Res := .next (fIn s f 0x15 fun s => (fget s (ACT_SRV_STAT f) ACT_SRV_STAT_WEDGE, s))

/-- SECTOR_START (R380): condition SECT, the counters, the requests that wait for it. -/
def execSectorStart (a : Fin 64) (pos : BitVec 16) (s : State) : Res :=
  .next (if !domOn s (75 + a) then s
    else
      let x := fseqOf s a
      let s1 := setFseq (latchCond s a 7) a fun y =>
        { y with sect := pos.toNat, cnt0 := y.cnt0 - 1, cnt1 := y.cnt1 - 1, gatePend := none, winPend := none }
      let s2 := match x.gatePend with
        | none => s1
        | some g => gateStart s1 a g.1 g.2
      match x.winPend with
      | none => s2
      | some m => windowStart s2 a m)

/-! ### Datapath ports of the zone store -/

/-- The ports of ROM version 0x01. -/
def fOutPorts : List Nat := rangeFrom 0x00 9
def zOutPorts : List Nat := rangeFrom 0x48 7
def fInPorts : List Nat := rangeFrom 0x10 6
def zInPorts : List Nat := rangeFrom 0x40 5

/-- An OUT or OUTI word to a zone port. -/
def zOut (s : State) (z port : Nat) (g : State → Nat → Nat → State) : State :=
  match zPick s z with
  | none => s
  | some t =>
    let r := (zthread s z t).g
    zRun s z (fun w => (outPort r w).any fun o => o.1 == port) fun s t w =>
      zNext (g s t (((outPort r w).map (·.2)).getD 0)) z t ((zthread s z t).pc + 1)

/-- A request stands on a port: the port and its value. -/
def standing (s : State) (z t port : Nat) : Option Nat := ((zthread s z t).reqs.find? fun r => r.1 == port).map (·.2)

/-- A request on a port, ignored while an earlier one of the thread pends; `pend` tells whether it still does. -/
def request (s : State) (z t port v : Nat) (pend : Cmd → Bool) (g : State → Cmd → State) : State :=
  match cmdOfThread s (zthread s z t) with
  | none => s
  | some c =>
    if (standing s z t port).isSome && pend c then s
    else g (setThread s z t fun x => { x with reqs := (port, v) :: x.reqs.filter fun r => r.1 != port }) c

/-- PORT_ADMIT: admission follows from the ledger (R313). -/
def execPortAdmit (z : Fin 8) (s : State) : Res :=
  .next (zOut s z 0x48 fun s t v => request s z t 0x48 v (fun c => !c.admitted) fun s _ => s)

/-- PORT_XFER: the data follow from the host. -/
def execPortXfer (z : Fin 8) (s : State) : Res :=
  .next (zOut s z 0x49 fun s t v => request s z t 0x49 v (fun c => !c.xfer) fun s _ => s)

/-- PORT_MIRROR (R389): the command's data go to the partner; its acknowledgement is awaited. -/
def execPortMirror (z : Fin 8) (s : State) : Res :=
  .next (zOut s z 0x4A fun s t v => request s z t 0x4A v (fun c => !mirrorMet s c) fun s c =>
    if c.data.isEmpty || c.mirrored then s else mirror s 3 ([c.nsid, c.slba, c.len] ++ c.data))

/-- PORT_COMMIT (R265): the status in bits 15:0 is SCT × 256 + SC; other than 0 it is what the command fails with. -/
def execPortCommit (z : Fin 8) (s : State) : Res :=
  .next (zOut s z 0x4B fun s t v => request s z t 0x4B v (fun _ => true) fun s c =>
    if v % 2 ^ 16 = 0 ∨ c.fail.isSome then s else failCmd s c (v / 256 % 256) (v % 256))

/-- PORT_JOURNAL (R232). -/
def execPortJournal (z : Fin 8) (s : State) : Res :=
  .next (zOut s z 0x4C fun s t v =>
    let w := !jrnDone s (zthread s z t)
    request s z t 0x4C v (fun _ => w) fun s c => journalZone s c.nsid v)

/-- The LBAs of a command's data that lie in a row of its zone. -/
def rowLbas (s : State) (c : Cmd) (th row : Nat) : List Nat :=
  let n := dataMembers s th * 256
  let lo := cmdZone s c * nsZl s c.nsid + row * n
  let e := ((s.zmp.dirty.find? fun e => e.wseq == uncommitted c.order).map (·.lba)).getD c.slba
  (rangeFrom (max lo e) (min (lo + n) (e + c.len) - max lo e))

/-- A row takes an accumulator, and each data sector of the command in it is encoded (R240, R241); where the row's accumulator was
discarded the sectors wait for its read-back. -/
def encodeRow (s : State) (c : Cmd) (th row : Nat) : State :=
  let z := cmdZone s c
  let a0 := if rowLost s th z row then (s.zmp.accLost.find? (ofRow th z row)).getD (rowAcc s th z row) else rowAcc s th z row
  let sector := fun (a : RowAcc) (lba : Nat) =>
    let o := lba - z * nsZl s c.nsid
    let i := o / 256 % max 1 (dataMembers s th)
    let home := lbaHome s c.nsid lba
    let code := (home.map fun h => trackCode s h.1 (12 * h.2.1 + h.2.2.1)
      (slotTrack s h.1 (12 * h.2.1 + h.2.2.1) h.2.2.2.2.1 h.2.2.2.2.2).1).getD 0
    let src := writeSource s c.nsid lba
    rowAdd (thatchM s th) i (o % 256)
      (infoPart (leBytes 4096 src.1) ⟨lba, c.nsid, 0, z, src.2, 0, 1, code⟩) a
  let a1 := (rowLbas s c th row).foldl sector a0
  if rowLost s th z row then
    setZmp s fun y => { y with accLost := y.accLost.map fun b => if ofRow th z row b then lostAcc a1 else b }
  else useAcc s a1

/-- PORT_ENCODE (R241): the row is encoded with an accumulator, by engine `t`. -/
def execPortEncode (z : Fin 8) (t : Fin 4) (s : State) : Res :=
  .next (zOut s z 0x4D fun s k v =>
    match cmdOfThread s (zthread s z k) with
    | none => s
    | some c =>
      if !engineFree s t then s else
      match nsThatch s c.nsid with
      | some u => count (encodeRow s c u v) (THT_CNT t 0) 1 (.tht t) THT_EVT_SAT
      | none => s)

/-- PORT_TIMER. -/
def execPortTimer (z : Fin 8) (s : State) : Res :=
  .next (zOut s z 0x4E fun s t v =>
    setThread s z t fun x => { x with timerRun := true, timerExp := false, reqs := (0x4E, v) :: x.reqs.filter fun r => r.1 != 0x4E })

/-- OUT_UNLISTED_PORT (R380): ignored. -/
def execOutUnlistedPort (q : SeqRef) (s : State) : Res :=
  .next (regWord q (fun w =>
      (mOp w == 8 || mOp w == 0xA) &&
        !(match q with | .f _ => fOutPorts.contains (w / 256 % 256) | .z _ => zOutPorts.contains (w / 256 % 256)))
    (fun _ _ _ r => r) s)

/-- IN_UNLISTED_PORT (R380): 0. -/
def execInUnlistedPort (q : SeqRef) (s : State) : Res :=
  .next (regWord q (fun w =>
      mOp w == 9 && !(match q with | .f _ => fInPorts.contains (w / 16 % 256) | .z _ => zInPorts.contains (w / 16 % 256)))
    (fun _ w _ => gSet (mD w) 0) s)

/-- An IN word of a zone port; without a command the value is free. -/
def zIn (s : State) (z port : Nat) (g : Cmd → Nat) : State :=
  drawn (zRun s z (fun w => mOp w == 9 && w / 16 % 256 == port) fun s t w =>
    let v := match cmdOfThread s (zthread s z t) with
      | some c => g c
      | none => freeVal s
    zNext (setThread s z t (onZ (gSet (mD w) (v % 2 ^ 32)))) z t ((zthread s z t).pc + 1))

/-- IN_CMD: slots are numbered in the order they are taken, modulo 16,384 (DESIGN CHOICE, log entry 27). -/
def execInCmd (z : Fin 8) (s : State) : Res := .next (zIn s z 0x40 fun c => c.order % 16384)

/-- IN_OPC. -/
def execInOpc (z : Fin 8) (s : State) : Res :=
  .next (zIn s z 0x41 fun c =>
    c.opc % 256 + c.nsid % 256 * 2 ^ 8 + fget s (HIF_PORT_STAT c.port) HIF_PORT_STAT_CNTLID % 256 * 2 ^ 16)

/-- IN_SLBA_LO. -/
def execInSlbaLo (z : Fin 8) (s : State) : Res := .next (zIn s z 0x42 fun c => c.slba % 2 ^ 32)

/-- IN_SLBA_HI. -/
def execInSlbaHi (z : Fin 8) (s : State) : Res := .next (zIn s z 0x43 fun c => c.slba / 2 ^ 32)

/-- IN_NLB: 0-based. -/
def execInNlb (z : Fin 8) (s : State) : Res := .next (zIn s z 0x44 fun c => c.len - 1)

/-- ZONE_FLOW_START (R366): a fetched command that has no thread takes the lowest free one of its zone sequencer. -/
def execZoneFlowStart (x : HPort) (sqid cid : BitVec 16) (s : State) : Res :=
  .next (match findCmd s (portId x) sqid.toNat cid.toNat with
    | none => s
    | some c =>
      let z := c.zseq
      let has := (rangeFrom 0 8).any fun y => (busyThreads s y).any fun t => t.2.cmd == some c.order
      if has then s else (flowEnter s z { cmd := some c.order }).getD s)

/-- THREAD_TIMER_EXPIRY (R380). -/
def execThreadTimerExpiry (z : Fin 8) (t : Fin 64) (s : State) : Res :=
  .next (if (zthread s z t).timerRun then setThread s z t fun x => { x with timerRun := false, timerExp := true } else s)

/-! ### The registers of MCS (R375, R377, R379) -/

/-- The write reaches MCS: its claim is the master's (R379). -/
def mcsWrite (s : State) (m : Master) (addr : Nat) (f : State → State) : State :=
  regWrite s m addr fun s => if holds s baseMCS m then f s else s

/-- F_HALT_WRITE (R375): requests; a formatter whose request ends goes on from where it halted. -/
def execFHaltWrite (m : Master) (hi : Bool) (value : Word) (s : State) : Res :=
  .next (let h := b2n hi
    mcsWrite s m (MCS_F_HALT_LO + 4 * h) fun s =>
      forAll (rangeFrom (32 * h) 32) (wr s (MCS_F_HALT_LO + 4 * h) value) fun s f =>
        if fState s f = 2 ∧ !rbit s (MCS_F_HALT_LO + 4 * (f / 32)) (f % 32) then fset s (MCS_FSEQ_W0 f) MCS_FSEQ_W0_STATE 1 else s)

/-- Z_HALT_WRITE (R375). -/
def execZHaltWrite (m : Master) (v : BitVec 8) (s : State) : Res :=
  .next (mcsWrite s m MCS_ZCTRL fun s =>
    forAll (rangeFrom 0 8) (fset s MCS_ZCTRL MCS_ZCTRL_Z_HALT v.toNat) fun s z =>
      zSync (if zHreq s z then s
        else setZseq s z fun x => { x with threads := x.threads.map fun t => (t.1, { t.2 with atHalt := false }) }) z)

/-- ZMAP_WRITE (R366): for commands fetched from now on. -/
def execZmapWrite (m : Master) (v : BitVec 24) (s : State) : Res :=
  .next (mcsWrite s m MCS_ZCTRL fun s => { fset s MCS_ZCTRL MCS_ZCTRL_ZMAP v.toNat with mcs := { s.mcs with zmap := none } })

/-- A formatter restarts (R377): the queue is empty, the registers, flags and stack are clear; its ACT unit is whole. -/
def fRestart (s : State) (f : Nat) : State :=
  let s1 := setFseq s f fun x =>
    { x with g := List.replicate 16 0, zf := false, cf := false, nf := false, stack := [], queue := [], cur := none }
  let s2 := fSync (wrN s1 (MCS_FSEQ_W0 f) 0x10000100) f
  let s3 := match actUnit s2 f with
    | some u => if (uAux s2 u).impair.contains 0xC1 then recompute (unimpair s2 u 0xC1) u else s2
    | none => s2
  evtSet s3 .mcs MCS_EVT_RESTART

/-- A zone sequencer restarts (R377): its threads are free. -/
def zRestart (s : State) (z : Nat) : State :=
  let s1 := fset (fset (setZseq s z fun _ => {}) (MCS_ZSEQ_W0 z) MCS_ZSEQ_W0_STATE 1) (MCS_ZSEQ_W0 z) MCS_ZSEQ_W0_FAULT 0
  let s2 := zSync (fset s1 (MCS_ZSEQ_W0 z) MCS_ZSEQ_W0_PC 0x100) z
  let s3 := mapBack s2 z
  let s4 := if (rangeFrom 0 8).any fun y => zState s3 y == 3 then s3 else ungradeUnit s3 0 0xC3
  evtSet s4 .mcs MCS_EVT_RESTART

/-- The second fault of the formatter within 1 s was fatal: the firmware leaves it (R378). -/
def fFatal (s : State) (f : Nat) : Bool :=
  (actUnit s f).any fun u => uState s u == 5 && (uAux s u).ownCause == 0xC2

/-- SEQUENCER_RESTART (R377, R378): by the claim's holder, or by the firmware, which then clears SW_INH; ignored while the
sequencer runs. -/
def execSequencerRestart (m : Master) (q : SeqRef) (s : State) : Res :=
  .next (let own := isRidge m && !claimed s baseMCS
    match q with
    | .f f => regWrite s m (MCS_FSEQ_W3 f) fun s =>
        if (holds s baseMCS m || own && !fFatal s f) && (fState s f == 2 || fState s f == 3) then
          let t := fRestart s f
          if own && fState s f == 3 then syncSw (fset t (ACT_WS_INH f) ACT_WS_INH_SW_INH 0) f else t
        else s
    | .z z => regWrite s m (MCS_ZSEQ_W3 z) fun s =>
        if (holds s baseMCS m || own) && (zState s z == 2 || zState s z == 3) then zRestart s z else s)

/-- Every sequencer of a store reads HALTED (R375). -/
def storeHalted (s : State) (zone : Bool) : Bool :=
  if zone then fget s MCS_STAT MCS_STAT_Z_HALTED == 0xFF else (rangeFrom 0 64).all (fHalted s)

/-- A write that R375 guards. -/
def patchWrite (s : State) (m : Master) (zone : Bool) (addr : Nat) (f : State → State) : State :=
  mcsWrite s m addr fun s => if storeHalted s zone then f s else evtSet s .mcs MCS_EVT_WR_REFUSED

/-- PATCH_RAM_WRITE (R375). -/
def execPatchRamWrite (m : Master) (zone : Bool) (w : BitVec 11) (value : Word) (s : State) : Res :=
  .next (if zone then patchWrite s m zone (MCS_ZPRAM w.toNat) fun s => wrN s (MCS_ZPRAM w.toNat) (value.toNat % 2 ^ 20)
    else if w.toNat < 1024 then patchWrite s m zone (MCS_FPRAM w.toNat) fun s => wrN s (MCS_FPRAM w.toNat) (value.toNat % 2 ^ 20)
    else undefAccess s m (MCS_FPRAM w.toNat) true)

/-- MATCH_REGISTER_WRITE (R375, Table 15-7): a PATCH_ADDR outside the patch RAM leaves that field. -/
def execMatchRegisterWrite (m : Master) (zone : Bool) (i : Fin 32) (value : Word) (s : State) : Res :=
  .next (let pa := getF value MCS_FMATCH_PATCH_ADDR
    if zone then patchWrite s m zone (MCS_ZMATCH i) fun s =>
      let p := if 0x8000 ≤ pa ∧ pa < 0x8800 then pa else fget s (MCS_ZMATCH i) MCS_ZMATCH_PATCH_ADDR
      wrN s (MCS_ZMATCH i) (value.toNat / 2 ^ 16 * 2 ^ 16 + p)
    else if i.val < 16 then patchWrite s m zone (MCS_FMATCH i) fun s =>
      let p := if 0x8000 ≤ pa ∧ pa < 0x8400 then pa else fget s (MCS_FMATCH i) MCS_FMATCH_PATCH_ADDR
      wrN s (MCS_FMATCH i) (b2n (bitOf value 31) * 2 ^ 31 + getF value MCS_FMATCH_ROM_ADDR * 2 ^ 16 + p)
    else undefAccess s m (MCS_FMATCH i) true)

end Sys2Proof.Machine
end

