-- ==== Sys2Proof/Machine/Partner.lean ====
section
/-! DEFINITION. The partner (chapter 16): peer heartbeats and the judgement, takeover and conflicts, the mirror stream as the
STANDBY receives it, the standby self-test, and the phases of a hand-over. -/
namespace Sys2Proof.Machine
open Sys2Proof

/-! ### Takeover (R387, R388, R396) -/

/-- Ports whose mechanism is bound and whose token is not this device's. -/
def tokensMissing (s : State) : List Nat := (rangeFrom 0 32).filter fun p => isBound s p && !tokenMine s p

/-- MWP of every zone reaches the first LBA that is still dirty or staged, or WP (R234 step 4 over media that hold the
rest). -/
def advanceMwp (s : State) : State :=
  let k := (s.zmp.zones.filter fun x => decide (x.2.mwp < x.2.wp)).length
  setZmp (count s (ZMP_CNT 6) k .zmp ZMP_EVT_SAT) fun y => { y with zones := y.zones.map fun x =>
    let n := x.1 / 2 ^ 32
    let z := x.1 % 2 ^ 32
    let open_ := (y.dirty ++ y.staged.map (·.ext)).filter fun e => e.nsid == n && e.zone == z && decide (x.2.mwp ≤ e.lba)
    (x.1, { x.2 with mwp := max x.2.mwp (open_.foldl (fun m e => min m e.lba) x.2.wp) }) }

/-- The writers of the last mirrored ledger state are in force (R395, R396). -/
def mirrorWriters (s : State) : State :=
  let w := s.prt.ledger.2.2
  let s1 := fset (wrN s BAL_WRITERS w) BAL_STAT BAL_STAT_NW ((rangeFrom 0 32).filter fun p => w / 2 ^ p % 2 = 1).length
  forAll (rangeFrom 0 32) s1 fun s p => fsetb s (BAL_MECH_STAT p) BAL_MECH_STAT_WRITER (w / 2 ^ p % 2 = 1)

/-- The last token is held (R387 steps 2 to 4): the device is ACTIVE; what the mirror holds becomes live, or the zones are
recovered from its own checkpoint (R388); under SHELF_PFAIL_N it stages by the mirrored ledger's writers (R396). -/
def takeoverDone (s : State) : State :=
  let s1 := releaseClaims (setPrt s fun x => { x with takeover := false }) 0x10
  let s2 := if mirrorValid s1 then advanceMwp s1
    else recoverZones (setZmp s1 fun z => { z with before := z.zones, gone := [], dirty := [] })
  let s3 := setPrt s2 fun x => { x with orphans := x.digests, digests := [], orphanEpoch := tokenEpoch s2 0 }
  let s4 := setRole (evtSet (count s3 (PRT_CNT 0) 1 .prt PRT_EVT_SAT) .prt PRT_EVT_TAKEOVER) 1
  let s5 := syncVused (syncAlone (setMirrorValid s4 false))
  if fbit s5 BAL_STAT BAL_STAT_PFAIL then enterSafe (mirrorWriters s5) else s5

/-- A takeover that holds every token ends. -/
def takeoverCheck (s : State) : State := if s.prt.takeover ∧ tokensMissing s = [] then takeoverDone s else s

/-- ACQUIRE goes to every bound port whose token is another's and on whose bus none waits (R387 step 1). -/
def acquireAll (s : State) : State := forAll (tokensMissing s) s fun s p => if tsbHas s p 3 then s else tokenCmd s p 1

/-- A takeover begins (R387). -/
def startTakeover (s : State) : State :=
  if s.prt.takeover then s else takeoverCheck (acquireAll (setPrt s fun x => { x with takeover := true }))

/-- TAKEOVER_ACQUIRE_RETRY (R387): each 100 µs. -/
def execTakeoverAcquireRetry (s : State) : Res := .next (if s.prt.takeover then takeoverCheck (acquireAll s) else s)

/-- TSB_RESPONSE (R87): STATUS and data of the transaction on the bus; one whose CRC fails is no answer (log entry 43). -/
def execTsbResponse (p : Fin 32) (status : BitVec 8) (data : List Byte) (crcOk : Bool) (s : State) : Res :=
  .next (takeoverCheck (if crcOk then tsbDone s p status.toNat (data.map (·.toNat)) else tsbRetry s p))

/-- A port on which ACQUIRE returned BUSY and the partner's front-end port is OWNER (R386). -/
def busyElsewhere (s : State) (p : Nat) : Bool :=
  isBound s p && fget s (TTH_TOKEN p) TTH_TOKEN_RESULT == 2 &&
    fget s (TTH_TOKEN p) TTH_TOKEN_OWNER == 2 - fget s (TTH_TOKEN p) TTH_TOKEN_FE_PORT

/-- The device is in conflict (R386). -/
def inConflict (s : State) : Bool :=
  (rangeFrom 0 32).any (fun p => isBound s p && tokenMine s p) && (rangeFrom 0 32).any (busyElsewhere s)

/-- OWNERSHIP_CONFLICT (R386): the device that was STANDBY, or at boot the one with PAIR_POS = 1, releases its tokens and is
STANDBY; the other acquires them again. -/
def execOwnershipConflict (s : State) : Res :=
  .next (if !inConflict s then s
    else if s.prt.takeover ∨ roleOf s = 2 ∨ (roleOf s = 1 ∧ partnerRole s = 1 ∧ fbit s HIF_MODE HIF_MODE_PAIR_POS) then
      let mine := (rangeFrom 0 32).filter fun p => isBound s p && tokenMine s p
      let s1 := forAll mine (setPrt s fun x => { x with takeover := false }) fun s p => tokenCmd s p 2
      setRole (evtSet (count s1 (PRT_CNT 4) 1 .prt PRT_EVT_SAT) .prt PRT_EVT_CONFLICT) 2
    else acquireAll s)

/-! ### Heartbeats and the judgement (R383 to R385) -/

/-- PEER_HEARTBEAT_SEND (R383): count, role and HEALTH. -/
def execPeerHeartbeatSend (s : State) : Res :=
  .next (if mode s = 0 ∨ !domOn s 474 then s
    else
      let n := (s.prt.hbCount + 1) % 2 ^ 32
      emit (setPrt s fun x => { x with hbCount := n }) (.peer 22 [n, roleOf s, healthByte s]))

/-- The partner's HEALTH is GRADE 0b11 with MIRROR_VALID = 0 (R291). -/
def partnerBroken (s : State) : Bool :=
  let h := fget s PRT_STAT PRT_STAT_PARTNER_HEALTH
  h % 4 == 3 && h / 4 % 2 == 0

/-- The STANDBY follows the leaving device into HANDOVER, and back when that one returned to ACTIVE (R393, Table 16-3). -/
def followHandover (s : State) : State :=
  if roleOf s = 2 ∧ partnerRole s = 3 then hoPhase (hoResult (setRole s 4) 0) 1
  else if roleOf s = 4 ∧ partnerRole s = 1 ∧ fget s PRT_HO PRT_HO_PHASE < 3 then setRole (hoPhase s 0) 2
  else s

/-- The party 0x10 is reset: the partner is judged FAILED, or heard with role none after another role (Table 17-3); `old` is
the state before. -/
def partnerGone (s old : State) (failed : Bool) : State :=
  if failed || (partnerRole s == 0 && partnerRole old != 0) then partyReset s 0x10 else s

/-- PEER_HEARTBEAT_RECEIVE (R383, R291). -/
def execPeerHeartbeatReceive (role : BitVec 4) (health : BitVec 8) (s : State) : Res :=
  .next (if mode s = 0 ∨ !domOn s 474 then s
    else
      let was := partnerBroken s
      let s1 := fset (setPrt s fun x => { x with heard := true }) PRT_HB PRT_HB_PEER_AGE 0
      let s2 := fset (fset s1 PRT_STAT PRT_STAT_PARTNER_ROLE role.toNat) PRT_STAT PRT_STAT_PARTNER_HEALTH health.toNat
      let s3 := if partnerBroken s2 ∧ !was ∧ isActiveRole s2 then mirrorLost s2 else s2
      followHandover (partnerGone s3 s false))

/-- The ports whose witness path advances (R383). -/
def witnessPorts (s : State) : List Nat :=
  (rangeFrom 0 32).filter fun p => [3, 5, 6].contains (portState s p) &&
    decide (fget s (TTH_WIT_AGE p) TTH_WIT_AGE_AGE * 100 < fget s PRT_HB PRT_HB_TIMEOUT_US)

/-- PARTNER of Table 16-2. -/
def judgeWord (s : State) (peer wit : Bool) : Nat :=
  if !s.prt.heard then 0 else if peer && wit then 1 else if peer || wit then 2 else 3

/-- The events of a judgement that changed, and the training of the peer link at a path fault (Table 16-2). -/
def judgeEvents (s : State) (old new : Nat) (peer wit oldPeer oldWit : Bool) : State :=
  if new = 3 then (if old = 3 then s else evtSet s .prt PRT_EVT_PARTNER_FAILED)
  else if new = 2 ∧ !peer ∧ (old ≠ 2 ∨ oldPeer) then
    evtSet (count (emit s (.peer 14 [])) (PRT_CNT 2) 1 .prt PRT_EVT_SAT) .prt PRT_EVT_PEER_FAULT
  else if new = 2 ∧ !wit ∧ (old ≠ 2 ∨ oldWit) then evtSet (count s (PRT_CNT 3) 1 .prt PRT_EVT_SAT) .prt PRT_EVT_WIT_FAULT
  else s

/-- What a judgement brings to a hand-over (Table 16-3). -/
def judgeHandover (s : State) (new : Nat) (peer : Bool) : State :=
  let early := decide (fget s PRT_HO PRT_HO_PHASE < 3)
  if roleOf s = 3 then
    if new = 3 then (if early then handoverFail s 2 else startTakeover s)
    else if early ∧ !peer then handoverFail s 3 else s
  else if roleOf s = 4 then
    if new = 3 then startTakeover s else if early ∧ !peer then setRole (hoPhase s 0) 2 else s
  else s

/-- The partner's role and health as a witness gives them, while the peer link is silent. -/
def witnessView (s : State) : State :=
  match witnessPorts s with
  | p :: _ => fset (fset s PRT_STAT PRT_STAT_PARTNER_ROLE ((tthOf s p).witRole % 16)) PRT_STAT PRT_STAT_PARTNER_HEALTH (tthOf s p).witHealth
  | [] => s

/-- What a judgement means for the mirror. An ACTIVE that hears no heartbeats has none (R385); a STANDBY clears MIRROR_VALID at a path fault,
while with a partner judged FAILED it keeps the mirror it takes over with (DEDUCED, log entry 53). When the peer link carries heartbeats
again, a STANDBY's store is filled afresh by the resync (R390). -/
def judgeMirror (s : State) (op peer : Bool) (new : Nat) : State :=
  if isActiveRole s && !peer && (op || !(uAux s 0).grades.any fun y => y.2 == 0xD1) then mirrorLost s
  else if op && !peer && new == 2 then mirrorLost s
  else if peer && !op && decide (roleOf s = 2) && !mirrorValid s then
    syncDirty (setZmp s fun z => { z with dirty := [], zones := [], ctxs := [] })
  else s

/-- The partner is judged (R384): its age counts, the links and the witness give the word, and what follows from a change is done. -/
def judged (s : State) : State :=
  let old := partnerIs s
  let op := fbit s PRT_STAT PRT_STAT_PEER_OK
  let ow := fbit s PRT_STAT PRT_STAT_WIT_OK
  let s1 := fadd s PRT_HB PRT_HB_PEER_AGE 1
  let peer := s1.prt.heard && decide (fget s1 PRT_HB PRT_HB_PEER_AGE * 100 ≤ fget s1 PRT_HB PRT_HB_TIMEOUT_US)
  let wit := s1.prt.heard && !(witnessPorts s1).isEmpty
  let new := judgeWord s1 peer wit
  let s2 := fsetb (fsetb (fset s1 PRT_STAT PRT_STAT_PARTNER new) PRT_STAT PRT_STAT_PEER_OK peer) PRT_STAT PRT_STAT_WIT_OK wit
  let s3 := if !peer ∧ wit then witnessView s2 else s2
  let s4 := partnerGone (judgeEvents s3 old new peer wit op ow) s (new == 3 && old != 3)
  hoTry (judgeHandover (syncAlone (judgeMirror s4 op peer new)) new peer)

/-- A STANDBY device takes over (R385, R387): its partner is not heard or gone, it may, and it has its memory and a mode. -/
def mayTakeOver (s : State) : Bool :=
  decide (roleOf s = 2) && (partnerIs s == 0 || partnerIs s == 3) && fbit s PRT_CTRL PRT_CTRL_TAKEOVER_EN &&
    decide (fget s BUF_STAT BUF_STAT_CH_UP = 255) && decide (2 ≤ mode s)

/-- PARTNER_JUDGEMENT (R384, R385, R387, R395): PEER_AGE goes up, and the partner is judged. -/
def execPartnerJudgement (s : State) : Res :=
  .next (if mode s = 0 then s else if mayTakeOver (judged s) then startTakeover (judged s) else judged s)

/-- What a resync copies (R390): the committed dirty extents with their data, then every descriptor that is not Empty, with its context. -/
def resyncCopy (s : State) : State :=
  let s1 := forAll (s.zmp.dirty.filter isCommitted) s fun t e =>
    mirror t 3 ([e.nsid, e.lba, e.count] ++ (rangeFrom e.lba e.count).map (lbaData s e.nsid))
  forAll (s.zmp.zones.filter fun x => x.2.zstate != 1) s1 fun t x => mirrorZone t (x.1 / 2 ^ 32) (x.1 % 2 ^ 32) x.2

/-- RESYNC_DONE (R390): on an ACTIVE with a STANDBY that is there, and on that STANDBY. -/
def execResyncDone (s : State) : Res :=
  .next (let ok := (isActiveRole s && standbyThere s && fbit s PRT_CTRL PRT_CTRL_MIRROR_EN) ||
      (decide (roleOf s = 2) && partnerIs s != 0 && fbit s PRT_STAT PRT_STAT_PEER_OK && fget s BUF_STAT BUF_STAT_CH_UP == 255)
    if !ok ∨ mirrorValid s then s
    else
      let s1 := fset (setMirrorValid s true) PRT_MIRROR PRT_MIRROR_RESYNC 100
      let s2 := evtSet (count s1 (PRT_CNT 5) 1 .prt PRT_EVT_SAT) .prt PRT_EVT_RESYNC_DONE
      if isActiveRole s2 then
        emitAll (emit (ungradeUnit (resyncCopy s2) 0 0xD1) (.peer 13 [rdN s2 TRS_RUN_SEQ])) (s2.trs.runFiles.map (.peer 1)) else s2)

/-! ### The mirror stream (R389, R391) -/

/-- A mirrored descriptor takes its place, with its context (R229). -/
def mirrorDesc (s : State) (n z : Nat) (r : ZoneRec) : State :=
  let s1 := putZone s n z r
  if zActive r.zstate then (takeCtx s1 (zoneKey n z)).getD s1 else dropCtx s1 (zoneKey n z)

/-- One frame of the mirror stream is stored. -/
def mirrorFrame (s : State) (f : MirrorFrame) : State :=
  match f with
  | .data k n lba d marks =>
    let e : Ext := ⟨n.toNat, zoneOf s n.toNat lba.toNat, lba.toNat, d.length, k.toNat⟩
    let s0 := forAll ((rangeFrom lba.toNat d.length).zip d) s fun s x => putLba (dropBad s 0 (lbaKey n.toNat x.1)) n.toNat x.1 x.2
    let s1 := forAll (marks.filter fun i => decide (i.toNat < d.length)) s0 fun s i => addPoison s 0 (lbaKey n.toNat (lba.toNat + i.toNat)) 0 true
    emit (syncDirty (setZmp s1 fun z => { z with dirty := z.dirty ++ [e] })) (.peer 10 [k.toNat])
  | .desc n z st wp mwp wseq rmark =>
    mirrorDesc s n.toNat z.toNat ⟨st.toNat, wp.toNat, mwp.toNat, wseq.toNat, rmark.toNat, false⟩
  | .ledger u v w => setPrt s fun x => { x with ledger := (u.toNat, v.toNat, w.toNat) }
  | .digest c sq cid o n lba nlb sct sc =>
    let e : Digest := ⟨c.toNat, sq.toNat, cid.toNat, o.toNat, n.toNat, lba.toNat, nlb.toNat, sct.toNat, sc.toNat⟩
    setPrt s fun x => { x with digests := (x.digests ++ [e]).take 16384 }
  | .withdraw c sq cid => setPrt s fun x => { x with digests := x.digests.filter fun d =>
      !(d.cntlid == c.toNat && d.sq == sq.toNat && d.cid == cid.toNat) }
  | .release n lba c => releaseDirty s fun e => e.nsid == n.toNat && e.lba == lba.toNat && e.count == c.toNat
  | .discard k => releaseDirty s fun e => e.wseq == k.toNat

/-- MIRROR_STREAM_RECEIVE (R389): on a STANDBY, or an arriving device, whose DRAM trained (R291). -/
def execMirrorStreamReceive (f : MirrorFrame) (s : State) : Res :=
  .next (if (roleOf s = 2 ∨ roleOf s = 4) ∧ fget s BUF_STAT BUF_STAT_CH_UP = 255 then mirrorFrame s f else s)

/-! ### The standby self-test (R392) -/

/-- A domain is marked as failed (R331): it is off and asked for no more, and its port, if it is a PHY, goes on by side-band. -/
def domFault (s : State) (n : Nat) : State :=
  let s1 := { s with pwr := { s.pwr with wanted := s.pwr.wanted.filter (· != n) } }
  let s2 := wbit (wbit (fseqOff s1 n) (PWR_DOM_STAT (n / 32)) (n % 32) false) (PWR_DOM_FAIL (n / 32)) (n % 32) true
  let s3 := rootGrade (evtSet (count s2 (PWR_CNT 4) 1 .pwr PWR_EVT_SAT) .pwr PWR_EVT_DOM_FAULT) 1 0x95
  if 11 ≤ n ∧ n < 43 then phyChanged s3 (n - 11)
  else if 139 ≤ n ∧ n < 395 then laneSync s3 (n - 139)
  else if 395 ≤ n ∧ n < 411 then fsetb s3 (LDC_STAT (n - 395)) LDC_STAT_PWR false
  else if 411 ≤ n ∧ n < 427 then fsetb s3 (BRD_STAT (n - 411)) BRD_STAT_PWR false
  else s3

/-- STANDBY_SELFTEST_CYCLE (R392): a cycle ends with the domains of the blocks that failed. -/
def execStandbySelftestCycle (failed : List (Fin 477)) (s : State) : Res :=
  .next (if roleOf s ≠ 2 then s
    else setPrt (forAll ((failed.map (·.val)).filter fun n => !domFailed s n) s domFault) fun x => { x with selfOk := failed.isEmpty })

/-! ### The phases of a hand-over (R393) -/

/-- HANDOVER_START (R393, R406): a write of PRT_CTRL.HO_GO. -/
def execHandoverStart (m : Master) (s : State) : Res := .next (regWrite s m PRT_CTRL fun s => hoRequest s none)

/-- HANDOVER_QUIET_DONE (R393): phase 1 ends on either device. -/
def execHandoverQuietDone (s : State) : Res :=
  .next (if mode s = 9 ∧ fget s PRT_HO PRT_HO_PHASE = 1 then hoPhase s 2 else s)

/-- The loop record (R393): SL[s]_OUT and MODE of every running slot, spindle state and step of every mechanism. -/
def loopRecord (s : State) : List Nat :=
  ((rangeFrom 0 1024).flatMap fun i =>
    let e := i / 64
    let k := i % 64
    let m := fget s (BRD_SL_CTRL e k) BRD_SL_CTRL_MODE
    if m = 0 then [] else [i, m, rdN s (BRD_SL_OUT e k)]) ++
  (rangeFrom 0 32).flatMap fun p => [spnState s p, fget s (SPN_STAT p) SPN_STAT_SPEED_STEP]

/-- HANDOVER_SYNC_DONE (R393): the leaving device sends the loop record and hands off every token; the arriving one waits
for both. -/
def execHandoverSyncDone (s : State) : Res :=
  .next (if mode s ≠ 9 ∨ fget s PRT_HO PRT_HO_PHASE ≠ 2 then s
    else
      let s1 := hoPhase s 3
      if roleOf s ≠ 3 then s1
      else forAll ((rangeFrom 0 32).filter (tokenMine s1)) (emit s1 (.peer 12 (loopRecord s1))) fun s p => tokenCmd s p 3)

/-- A slot starts in its recorded MODE, to be preset to the recorded OUT (R393, R187). -/
def loopStart (s : State) (x : LoopSlot) : State :=
  let e := x.engine.val
  let k := x.slot.val
  let s1 := wrN (fset (enginePower s e) (BRD_SL_CTRL e k) BRD_SL_CTRL_MODE x.mode.toNat) (BRD_SL_OUT e k) x.out.toNat
  setBslot s1 e k fun y => { y with mode := x.mode.toNat, preset := true }

/-- The loop record is taken over by the arriving device (R393): phase 4, the loops start as the record says, the inhibits held. -/
def loopTaken (s : State) (slots : List LoopSlot) (spindles : List (BitVec 4 × BitVec 2)) : State :=
  let s1 := hoPhase (forAll (rangeFrom 0 64) s fun s a => syncSw (fset s (ACT_WS_INH a) ACT_WS_INH_SW_INH 15) a) 4
  let s2 := forAll slots s1 loopStart
  let s3 := forAll ((rangeFrom 0 32).zip spindles) s2 fun s x =>
    fset (fset s (SPN_STAT x.1) SPN_STAT_STATE x.2.1.toNat) (SPN_STAT x.1) SPN_STAT_SPEED_STEP x.2.2.toNat
  let follow := (rangeFrom 0 64).filter fun a => slots.any fun x => x.engine.val == a / 4 && x.slot.val == 16 * (a % 4) && x.mode != 0
  let s4 := forAll follow s3 fun s a => setSrvMode s a 4
  setPrt (syncShelf s4) fun x => { x with swHeld := rangeFrom 0 256 }

/-- LOOP_RECORD_RECEIVE (R393): the arriving device sets SW_INH on every slice and starts the recorded slots; spindles show
the recorded state and step, by port. -/
def execLoopRecordReceive (slots : List LoopSlot) (spindles : List (BitVec 4 × BitVec 2)) (s : State) : Res :=
  .next (if roleOf s ≠ 4 then s
    else loopTaken s slots spindles)

/-- A hand-over has succeeded (R393): phase 5, its time and result, and the roles changed over. -/
def hoEnded (s : State) (us : Nat) (arriving : Bool) : State :=
  let s1 := fset (hoPhase (hoResult s 0) 5) PRT_HO PRT_HO_T_LAST us
  let s2 := evtSet (count s1 (PRT_CNT 1) 1 .prt PRT_EVT_SAT) .prt PRT_EVT_HO_DONE
  setMirrorValid (setRole (setPrt s2 fun x => { x with hoPfail := false, hoWait := false }) (if arriving then 1 else 2)) true

/-- HANDOVER_DONE (R393): phase 5, after so many microseconds. The arriving device is ACTIVE with its tokens; the leaving one
is STANDBY with a valid mirror. A power failure since phase 3 then brings SAFE (Table 16-3). -/
def execHandoverDone (us : BitVec 24) (s : State) : Res :=
  .next (if mode s ≠ 9 ∨ fget s PRT_HO PRT_HO_PHASE < 3 then s
    else
      let s3 := hoEnded s us.toNat (roleOf s == 4)
      if roleOf s = 4 then
        let s4 := forAll (rangeFrom 0 32) (setPrt s3 fun x => { x with digests := [] }) fun s p => if sbUsable s p then wantToken s p else s
        let s5 := syncVused s4
        if fbit s5 BAL_STAT BAL_STAT_PFAIL then enterSafe (mirrorWriters s5) else s5
      else
        let s4 := hoComplete s3 0
        if s4.prt.upStep = 5 then setPrt s4 fun x => { x with upStep := 6 } else s4)

end Sys2Proof.Machine
end

