-- ==== Sys2Proof/Machine/PowerCmds.lean ====
section
/-! DEFINITION. Power domains, clocks, modes and power states as commands (chapter 13, R276 to R278, R342). -/
namespace Sys2Proof.Machine
open Sys2Proof

/-! ### Clocks (R322 to R324) -/

/-- The place of a PLL in PWR_CLK: 0 CPU, 1 datapath, 2 Bridle, 3 DRAM, 4 to 7 PCIe lane groups, 8 to 15 tether groups, 16 the
peer link. -/
def pllBit (k : Nat) : Nat := if k = 3 then 16 else if k < 16 then k else 17

/-- A Bridle domain is asked for or on, or a MECH unit is WAKING (Table 13-1). -/
def bridleWanted (s : State) : Bool :=
  (rangeFrom 411 16).any (fun n => domOn s n || s.pwr.wanted.contains n) ||
    (rangeFrom 0 32).any fun p => (mechUnit s p).any fun u => uState s u == 2

/-- What a PLL runs for (Table 13-1). -/
def pllWanted (s : State) (k : Nat) : Bool :=
  if k = 2 then bridleWanted s
  else if 4 ≤ k ∧ k < 8 then domOn s (k - 3)
  else if 8 ≤ k ∧ k < 16 then (rangeFrom 0 4).any fun j => domOn s (11 + 4 * (k - 8) + j)
  else if k = 16 then domOn s 474 else true

/-- PLL_LOCK (R322, R324): a PLL that runs reaches lock, with REFCLK present. -/
def execPllLock (k : Fin 17) (s : State) : Res :=
  .next (if mode s ≠ 0 ∧ pllWanted s k then fsetb (wbit s PWR_CLK (pllBit k) true) PWR_CLK PWR_CLK_REF_OK true else s)

/-- PLL_UNLOCK (R323): a device reset, or the loss of the ports of a SerDes PLL. -/
def execPllUnlock (k : Fin 17) (s : State) : Res :=
  .next (if mode s = 0 ∨ !bitOf (clkWord s) (pllBit k) then s
    else if k.val < 4 then deviceReset s 4
    else
      let s1 := evtSet (wbit s PWR_CLK (pllBit k) false) .pwr PWR_EVT_PLL_UNLOCK
      if k.val < 8 then
        let x := if fbit s1 HIF_MODE HIF_MODE_BIFUR ∧ 6 ≤ k.val then 1 else 0
        if fbit s1 (HIF_PORT_STAT x) HIF_PORT_STAT_LINK_UP then surpriseDown s1 x else s1
      else if k.val < 16 then
        forAll (rangeFrom (4 * (k.val - 8)) 4) s1 fun s p => if laneMode s p then portRetrain s p else s
      else
        let s2 := fset s1 PRT_HB PRT_HB_PEER_AGE 0xFFFF
        if fbit s2 PRT_STAT PRT_STAT_PEER_OK then mirrorLost (fsetb s2 PRT_STAT PRT_STAT_PEER_OK false) else s2)

/-- BRIDLE_CLOCK_STOP (R322): 1 ms after the last use. -/
def execBridleClockStop (s : State) : Res := .next (if bridleWanted s then s else fsetb s PWR_CLK PWR_CLK_BRD false)

/-! ### Power domains (R329 to R331) -/

/-- Domain n is on (R329): what it powers is marked powered. -/
def domUp (s : State) (n : Fin 477) : State :=
  let s1 := setPwr (wbit s (PWR_DOM_STAT (n / 32)) (n % 32) true) fun w => { w with wanted := w.wanted.filter (· != n.val) }
  if 139 ≤ n.val ∧ n.val < 395 then laneSync s1 (n - 139)
  else if 395 ≤ n.val ∧ n.val < 411 then fsetb s1 (LDC_STAT (n - 395)) LDC_STAT_PWR true
  else if 411 ≤ n.val ∧ n.val < 427 then fsetb s1 (BRD_STAT (n - 411)) BRD_STAT_PWR true
  else if 75 ≤ n.val ∧ n.val < 139 then fseqOn s1 (n - 75)
  else s1

/-- DOMAIN_POWER_GOOD (R329, R330, R333, R324): a domain that is asked for, not blocked and within the envelope is on; a Bridle
engine waits for its PLL. -/
def execDomainPowerGood (n : Fin 477) (s : State) : Res :=
  .next (if !s.pwr.wanted.contains n.val || domBlocked s n || envHolds s n ||
      (decide (411 ≤ n.val ∧ n.val < 427) && !fbit s PWR_CLK PWR_CLK_BRD) then s
    else domUp s n)

/-- DOMAIN_POWER_FAIL (R331). -/
def execDomainPowerFail (n : Fin 477) (s : State) : Res :=
  .next (if s.pwr.wanted.contains n.val && !domBlocked s n && !envHolds s n then domFault s n else s)

/-- The owner of domain `n` keeps it on now (Table 13-3); idle lanes, clusters and Bridle engines go off by their own commands. -/
def ownerWants (s : State) (n : Nat) : Bool :=
  if n = 5 ∨ n = 6 then portExists s (n - 5) && !(ctl s (n - 5)).perst
  else if 11 ≤ n ∧ n < 75 then mayTrain s ((n - 11) % 32) && portState s ((n - 11) % 32) != 8
  else if 75 ≤ n ∧ n < 139 then sliceWanted s (n - 75)
  else if 467 ≤ n ∧ n < 471 then fbit s (THT_RB_STAT (n - 467)) THT_RB_STAT_BUSY
  else if 471 ≤ n ∧ n < 474 then false
  else n != 476 || s.pwr.debug

/-- A word of HOLD is written: a domain newly held is asked for, and counts against the envelope as it comes on; one held no more goes
off where its owner does not keep it on. -/
def holdWrite (s : State) (i : Nat) (value : Word) : State :=
  let w := if i = 14 then value &&& 0x1FFFFFFF else value
  let was := rd s (PWR_DOM_HOLD i)
  forAll (rangeFrom 0 32) (wr s (PWR_DOM_HOLD i) w) fun s b =>
    let n := 32 * i + b
    if n = 0 ∨ 477 ≤ n ∨ bitOf w b = bitOf was b then s
    else if bitOf w b then
      let t := domRequest s n
      if 139 ≤ n ∧ n < 395 then laneSync t (n - 139) else t
    else if ownerWants s n then s else domRelease s n

/-- DOMAIN_HOLD_WRITE (R330). -/
def execDomainHoldWrite (m : Master) (i : Fin 15) (value : Word) (s : State) : Res :=
  .next (regWrite s m (PWR_DOM_HOLD i) fun s => holdWrite s i value)

/-- BLOCK is honoured for domain `n` (R330). -/
def blockable (n : Nat) : Bool := decide (139 ≤ n ∧ n ≤ 410 ∨ 467 ≤ n ∧ n ≤ 472 ∨ n = 476)

/-- DOMAIN_BLOCK_WRITE (R330): bits of other domains read 0. -/
def execDomainBlockWrite (m : Master) (i : Fin 15) (value : Word) (s : State) : Res :=
  .next (regWrite s m (PWR_DOM_BLOCK i) fun s =>
    wr s (PWR_DOM_BLOCK i) (value &&& wordOfBits fun b => blockable (32 * i + b)))

/-- DEBUG_ATTACH (R329): domain 476 is on while the debug port is attached; a detach resets the party 0x1F (Table 17-3). -/
def execDebugAttach (attach : Bool) (s : State) : Res :=
  .next (if mode s = 0 then s
    else
      let s1 := setPwr s fun w => { w with debug := attach }
      if attach then domRequest s1 476 else partyReset (domRelease s1 476) 0x1F)

/-! ### Modes (R332 to R335, R342) -/

/-- What step 3 or 4 of the choice rule gives for the window that ends. -/
def windowChoice (s : State) : Nat :=
  let w := s.pwr.winW
  let r := s.pwr.winR
  if w ≠ 0 ∧ 3 * r ≤ w then 4 else if r ≠ 0 ∧ 3 * w ≤ r then 5 else 3

/-- MODE_CHOICE_WINDOW (R332): a change of step 3 or 4 needs WIN_N windows in a row. -/
def execModeChoiceWindow (s : State) : Res :=
  .next (if mode s < 2 then s
    else
      let c := windowChoice s
      let n := max 1 (fget s PWR_CFG PWR_CFG_WIN_N)
      let k := if c = s.pwr.cand then s.pwr.candN + 1 else 1
      let done := decide (n ≤ k)
      applyRule (setPwr s fun w =>
        { w with winW := 0, winR := 0, cand := c, candN := min k 15, base := if done then c else w.base }))

/-- FORCE takes a value R342 allows; others are ignored (Table 13-9). -/
def forceOk (v : Nat) : Bool := v == 0 || decide (3 ≤ v ∧ v ≤ 7) || v == 0xB

/-- The Mode Control command that waits completes. -/
def modeCmdDone (s : State) : State :=
  match s.pwr.cmd with
  | none => s
  | some c => adminOk (setPwr s fun w => { w with cmd := none }) c.1 c.2 0

/-- FORCE is stored and acts where it can (R334, Table 13-7): MAINT is left for LOBBY and the choice rule; MAINT itself is
entered with MAINT_ENTRY. -/
def setForce (s : State) (v : Nat) : State :=
  let s1 := fset s PWR_MODE PWR_MODE_FORCE v
  if v = 0xB then s1
  else if mode s1 = 0xB then modeCmdDone (applyRule (setMode s1 2 3))
  else modeCmdDone (applyRule s1)

/-- MODE_FORCE_WRITE (R343). -/
def execModeForceWrite (m : Master) (v : BitVec 4) (s : State) : Res :=
  .next (regWrite s m PWR_MODE fun s => if forceOk v.toNat then setForce s v.toNat else s)

/-- MAINT_ENTRY (R334): from LOBBY or SERVICE to REBUILD once no extent is dirty. -/
def execMaintEntry (s : State) : Res :=
  .next (if force s = 0xB ∧ ruleApplies s ∧ !inSafe s ∧ s.zmp.dirty.isEmpty then modeCmdDone (setMode s 0xB 3) else s)

/-- Set Features 0xEE (R342). -/
def setEE (dw11 : Word) (s : State) (x cid : Nat) : State :=
  let v := getF dw11 ⟨0, 4⟩
  let idle := getF dw11 ⟨8, 8⟩
  let m := mode s
  if claimed s basePWR then claimHeld s x cid
  else if !forceOk v ∨ idle = 0 ∨ (v = 7 ∧ !rebuildRuns s) then invalidField s x cid
  else if m = 0xA ∨ m = 8 ∨ m = 9 then sequenceError (setForce s v) x cid
  else
    let s1 := fset (fset s PWR_CFG PWR_CFG_SWEEP_IDLE idle) PWR_CFG PWR_CFG_REB_AUTO (getF dw11 ⟨16, 1⟩)
    if v = 0xB then
      if m = 0xB then adminOk (setForce s1 v) x cid 0
      else setPwr (setForce (modeCmdDone s1) v) fun w => { w with cmd := some (x, cid) }
    else adminOk (setForce s1 v) x cid 0

/-- Get Features 0xEE. -/
def getEE (s : State) (x cid : Nat) : State :=
  featValue s x cid (force s + 16 * mode s + 2 ^ 8 * fget s PWR_CFG PWR_CFG_SWEEP_IDLE + 2 ^ 16 * fget s PWR_CFG PWR_CFG_REB_AUTO) 0

/-- SET_MODE_CONTROL (R342). -/
def execSetModeControl (x : HPort) (cid : BitVec 16) (dw11 : Word) (sv : Bool) (s : State) : Res :=
  .next (setFeat s x cid sv (setEE dw11))

/-- GET_MODE_CONTROL (R342). -/
def execGetModeControl (x : HPort) (cid : BitVec 16) (s : State) : Res := .next (getFeat s x cid getEE)

/-- The cap of the envelope in force, in 0.1 W (Table 13-5). -/
def envCap (s : State) : Nat :=
  if 4 ≤ fget s HIF_PWR HIF_PWR_PS_EFF then 18 else ([1320, 950, 480, 35] : List Nat).getD (fget s PWR_MODE PWR_MODE_ENV) 35

/-- A sample of the input power (R333): ten above the cap in a row raise ENV_LIMIT and begin fetch pauses, which end below
95 % of the cap. -/
def powerSample (s : State) (now : BitVec 16) : State :=
  let n := now.toNat
  let s1 := fset s PWR_MEAS PWR_MEAS_NOW n
  let s2 := if fget s1 PWR_MEAS PWR_MEAS_PEAK < n then fset s1 PWR_MEAS PWR_MEAS_PEAK n else s1
  let above := if envCap s2 < n then s2.pwr.above + 1 else 0
  let s3 := setPwr s2 fun w => { w with above := above % 10, pause := w.pause && decide (envCap s2 * 95 ≤ n * 100) }
  if above = 10 then
    evtSet (count (setPwr s3 fun w => { w with pause := true }) (PWR_CNT 3) 1 .pwr PWR_EVT_SAT) .pwr PWR_EVT_ENV_LIMIT
  else s3

/-- ENVELOPE_LIMIT (R333): samples of PWR_MEAS.NOW, one every 100 µs. -/
def execEnvelopeLimit (samples : List (BitVec 16)) (s : State) : Res :=
  .next (if mode s = 0 then s else forAll samples s powerSample)

/-- PWR_MEAS_READ (R343): PEAK restarts at NOW. -/
def execPwrMeasRead (m : Master) (s : State) : Res := .next (regRead s m PWR_MEAS)

/-- WDOG_KICK (R341): the watchdog's own count is time; its expiry is RIDGE_WATCHDOG_EXPIRE. -/
def execWdogKick (m : Master) (s : State) : Res := .next (regWrite s m PWR_WDOG fun s => s)

/-- PWR_UPTIME goes up by a millisecond; the wrap is raised outside WATCH (R343). -/
def uptimeTick (s : State) : State :=
  if !s.pwr.vaon then s
  else
    let n := uptime s + 1
    if n < 2 ^ 32 then wrN s PWR_UPTIME n
    else
      let t := wrN s PWR_UPTIME 0
      if mode t = 0 then t else evtSet t .pwr PWR_EVT_UPTIME_WRAP

/-- UPTIME_WRAP (R343): the millisecond in which PWR_UPTIME wraps. -/
def execUptimeWrap (s : State) : Res := .next (if uptime s = 2 ^ 32 - 1 then uptimeTick s else s)

/-! ### Power states (R276 to R278, R328) -/

/-- Set Features Power Management: PS in CDW11 bits 4:0 (R278). -/
def setPM (dw11 : Word) (s : State) (x cid : Nat) : State :=
  let ps := getF dw11 ⟨0, 5⟩
  if 4 < ps then invalidField s x cid
  else if !(ctl s x).pmWait.isEmpty then setCtl s x fun k => { k with pmWait := k.pmWait ++ [(cid, ps)] }
  else psUpdate (fset (setCtl s x fun k => { k with pmWait := [(cid, ps)] }) (HIF_PORT_STAT x) HIF_PORT_STAT_PS_REQ ps)

/-- SET_FEAT_POWER_MGMT (R278). -/
def execSetFeatPowerMgmt (x : HPort) (cid : BitVec 16) (dw11 : Word) (sv : Bool) (s : State) : Res :=
  .next (setFeat s x cid sv (setPM dw11))

/-- GET_FEAT_POWER_MGMT (R277): the state the controller requested. -/
def execGetFeatPowerMgmt (x : HPort) (cid : BitVec 16) (s : State) : Res :=
  .next (getFeat s x cid fun s x cid => featValue s x cid (fget s (HIF_PORT_STAT x) HIF_PORT_STAT_PS_REQ) 0)

/-- Both controllers are in D3hot or down (R278). -/
def bothDown (s : State) : Bool :=
  let down := fun x => (ctl s x).d3hot || !fbit s (HIF_PORT_STAT x) HIF_PORT_STAT_LINK_UP || !portExists s x
  down 0 && down 1

/-- Every mechanism is unloaded and its units go ASLEEP; spindles stop in the background (R276). A claimed spindle instance
is the holder's (R20). -/
def sleepAll (s : State) : State :=
  let ports := (rangeFrom 0 32).filter fun p => isBound s p && tokenMine s p && !claimed s (baseSPN p)
  setPwr (forAll ports s fun s p =>
    let s1 := match mechUnit s p with
      | some u => setAux s u fun x => { x with wakeWanted := false }
      | none => s
    let s2 := setSpn { s1 with shelf := { s1.shelf with waits := s1.shelf.waits.filter (· != p) } } p fun x => { x with wantRun := false }
    moveSurfs (askStop (fset s2 (SPN_CTRL p) SPN_CTRL_REQ 0) p false) p [2, 3, 4] 1) fun w => { w with wakes := [] }

/-- Held lanes and clusters beyond the envelope go off and wait (R330). -/
def envTrim (s : State) : State :=
  forAll (rangeFrom 139 272).reverse s fun s n =>
    match envLimit s n with
    | none => s
    | some x =>
      if domOn s n && rbit s (PWR_DOM_HOLD (n / 32)) (n % 32) &&
          decide (x.2.2 < ((rangeFrom x.1 x.2.1).filter (domOn s)).length) then
        let t := domRequest (wbit s (PWR_DOM_STAT (n / 32)) (n % 32) false) n
        if n < 395 then laneSync (wbit t (ACT_DET_PWR ((n - 139) / 4)) (8 + (n - 139) % 4) false) (n - 139)
        else fsetb t (LDC_STAT (n - 395)) LDC_STAT_PWR false
      else s

/-- The steps before a clean entry to WATCH (R328): the checkpoint, and RELEASE of every token held. -/
def prepareWatch (s : State) : State :=
  if !isActiveRole s ∨ mode s ≠ 2 then s
  else forAll ((rangeFrom 0 32).filter (tokenMine s)) (checkpoint s) fun s p => tokenCmd s p 2

/-- The state to run at is entered (R278): a non-operational one once nothing is dirty. An I/O command fetched meanwhile then
brings the last operational state back. -/
def psEnter (s : State) : State :=
  let t := psTarget s
  let s1 := if 3 ≤ t ∧ isActiveRole s then sleepAll s else s
  let s2 := envTrim (phySync (setPs s1 t))
  let s3 := applyRule (psUpdate s2)
  let s4 := if bothDown s3 then prepareWatch s3 else s3
  match s4.host.psWake with
  | none => s4
  | some x =>
    let s5 := fset { s4 with host := { s4.host with psWake := none } } (HIF_PORT_STAT x) HIF_PORT_STAT_PS_REQ s4.host.lastOp
    applyRule (psUpdate (phySync (setPs s5 s4.host.lastOp)))

/-- POWER_STATE_ENTRY_DONE (R278, R328): in SAFE it waits. With both controllers in D3hot an ACTIVE device whose partner's
controller is operational hands the role over first. -/
def execPowerStateEntryDone (partnerUp : Bool) (s : State) : Res :=
  .next (if !fbit s HIF_PWR HIF_PWR_ENTERING || inSafe s then s
    else if bothDown s ∧ partnerUp ∧ hoAllowed s then hoRequest s none
    else if 3 ≤ psTarget s ∧ isActiveRole s then
      let s1 := forAll (s.zmp.dirty.filter isCommitted) s destage
      if s1.zmp.dirty.isEmpty then psEnter s1 else s1
    else psEnter s)

/-- D3HOT_ENTRY (R278). -/
def execD3hotEntry (x : HPort) (s : State) : Res :=
  .next (let p := portId x
    if !portExists s p ∨ (ctl s p).d3hot ∨ !fbit s (HIF_PORT_STAT p) HIF_PORT_STAT_LINK_UP then s
    else
      let s1 := psUpdate (setCtl s p fun c => { c with d3hot := true })
      if bothDown s1 ∧ !fbit s1 HIF_PWR HIF_PWR_ENTERING ∧ s1.zmp.dirty.isEmpty then prepareWatch s1 else s1)

/-- D3HOT_EXIT (R278): the requested states count again, and an ACTIVE device acquires its tokens (R99). -/
def execD3hotExit (x : HPort) (s : State) : Res :=
  .next (let p := portId x
    if !(ctl s p).d3hot then s
    else
      let s1 := psUpdate (setCtl s p fun c => { c with d3hot := false })
      if isActiveRole s1 then
        forAll (rangeFrom 0 32) s1 fun s p => if isBound s p && sbUsable s p && !tokenMine s p then wantToken s p else s
      else s1)

end Sys2Proof.Machine
end

