-- ==== Sys2Proof/Machine/RegWrite.lean ====
section
/-! DEFINITION. Register writes (R10, R12): what a 32-bit write does by the access code of each field, the values the
register tables bar, and, block by block, the writes that act beyond their field. -/
namespace Sys2Proof.Machine
open Sys2Proof

/-! ### By access code -/

/-- What a write of `v` leaves in a field of `w` (Table 0-5). -/
def storeField (v w : Word) (f : FieldRow) : Word :=
  let g : Fld := ⟨f.lo, f.width⟩
  match f.acc with
  | .rw => setF w g (getF v g)
  | .rwl => setF w g (getF v g)
  | .w1c => w &&& ~~~ (setF 0 g (getF v g))
  | .w1s => w ||| setF 0 g (getF v g)
  | .ro => w
  | .wo => w
  | .rc => w

/-- The word a register holds after a write of `v`, by its fields' access codes; RSV bits stay 0 (R12, R15). -/
def storedWord (s : State) (a : Nat) (v : Word) : Word :=
  match locate a with
  | some (r, _) => r.fields.foldl (storeField v) (rd s a)
  | none => rd s a

/-- A field takes a value between `lo` and `hi` alone; another is ignored. -/
def keepIn (s : State) (a : Nat) (f : Fld) (lo hi : Nat) (w : Word) : Word :=
  if lo ≤ getF w f ∧ getF w f ≤ hi then w else setF w f (fget s a f)

/-- The fields of a register of a slice, by its offset, that bar values. -/
def actLimits (a : Nat) : List (Fld × Nat × Nat) :=
  let n := (a - baseACT 0) / 0x10000
  if a = ACT_DET_CFG n then [(ACT_DET_CFG_PIN_TO_US, 100, 10000)]
  else if (rangeFrom 0 4).any fun l => a == ACT_DL_RATIO n l then [(ACT_DL_RATIO_RATIO, 1101005, 1258291)]
  else if a = LDC_CTRL (n / 4) then [(LDC_CTRL_MAXIT, 1, 63)]
  else []

/-- The fields whose table says that values out of a range are ignored, with the range. -/
def limitsOf (a : Nat) : List (Fld × Nat × Nat) :=
  if baseACT 0 ≤ a ∧ a < baseACT 64 then actLimits a
  else if a = ZMP_CTRL then [(ZMP_CTRL_JRN_MS, 10, 10000)]
  else if (rangeFrom 0 4).any fun t => a == THT_CTRL t then [(THT_CTRL_RB_SHARE, 1, 100)]
  else if (rangeFrom 0 6).any fun b => a == BUF_REFI b then [(⟨0, 16⟩, 975, 7800)]
  else if a = CCH_PF_CTRL then [(CCH_PF_CTRL_DEPTH, 1, 64)]
  else if a = BAL_CAP then [(BAL_CAP_ETA_C, 0, 1000)]
  else if a = BAL_MARGIN then [(BAL_MARGIN_ETA_R, 0, 1000)]
  else if a = PWR_WDOG then [(PWR_WDOG_TIMEOUT_MS, 10, 10000)]
  else if a = BGW_CTRL then [(BGW_CTRL_N_URG, 2, 64)]
  else if (rangeFrom 0 256).any fun t => a == BGW_TASK_PROG t then [(BGW_TASK_PROG_GRACE_PCT, 1, 100)]
  else if a = THM_CTRL then [(THM_CTRL_CAL_DT, 10, 200), (THM_CTRL_DIE_HOT, 0, 1200)]
  else if a = PRT_HB then [(PRT_HB_TIMEOUT_US, 200, 10000)]
  else []

/-- The word a write leaves, values that the tables bar ignored. -/
def writtenWord (s : State) (a : Nat) (v : Word) : Word :=
  (limitsOf a).foldl (fun w x => keepIn s a x.1 x.2.1 x.2.2 w) (storedWord s a v)

/-- A plain write. -/
def plainWrite (s : State) (a : Nat) (v : Word) : State := wr s a (writtenWord s a v)

/-- The EVT registers of the block instance that holds `a`. -/
def evtBlksAt (a : Nat) : List EvtBlk :=
  if baseTTH 0 ≤ a ∧ a < baseTTH 32 then [.tth ((a - baseTTH 0) / 0x10000)]
  else if baseACT 0 ≤ a ∧ a < baseACT 64 then
    let n := (a - baseACT 0) / 0x10000
    [.det n, .fmt n, .srv n, .ws n, .ldc (n / 4)]
  else if baseBRD 0 ≤ a ∧ a < baseBRD 16 then [.brd ((a - baseBRD 0) / 0x20000)]
  else if baseSPN 0 ≤ a ∧ a < baseSPN 32 then [.spn ((a - baseSPN 0) / 0x8000), .ast ((a - baseSPN 0) / 0x8000)]
  else if baseTHT 0 ≤ a ∧ a < baseTHT 4 then [.tht ((a - baseTHT 0) / 0x80000)]
  else [.pwr, .evt, .tail, .zmp, .bgw, .mcs, .hif, .buf, .cch, .mep, .bal, .thm, .prt, .mbx, .fls]

/-- The enable register at `a`: its block. -/
def enableOf (a : Nat) : Option EvtBlk := (evtBlksAt a).find? fun b => evtAddr b + 4 == a

/-- A plain write; a write of an enable register can raise sources (R416). -/
def commonWrite (s : State) (a : Nat) (v : Word) : State :=
  match enableOf a with
  | some b => risesOf (plainWrite s a v) s b
  | none => plainWrite s a v

/-- The state of a command that goes on. -/
def after (r : Res) (s : State) : State :=
  match r with
  | .next t => t
  | .fault _ => s
  | .refused _ => s

/-! ### Block by block -/

/-- TRS: guarded fields (R39, R59, R66), and the EVT bit of a face, which any master clears. -/
def writeTrs (s : State) (m : Master) (a : Nat) (v : Word) : State :=
  if a = TRS_LD_CTRL then
    let c := getF v TRS_LD_CTRL_CMD
    if c = 1 ∨ c = 2 ∨ c = 3 then loaderCmd s m c else s
  else if TRS_UNIT_FACE 0 ≤ a ∧ a < TRS_UNIT_FACE 4096 ∧ (a - TRS_UNIT_FACE 0) % 32 = 0 then
    let u := (a - TRS_UNIT_FACE 0) / 32
    let s1 := if trsMayWrite s m && uUsed s u then fset s a TRS_UNIT_FACE_POLICY (getF v TRS_UNIT_FACE_POLICY) else s
    if bitOf v 0 then wbit s1 a 0 false else s1
  else if !trsMayWrite s m then s
  else if a = TRS_SEQ_FLOOR then if rdN s a ≤ v.toNat then wr s a v else s
  else if a = TRS_FENCE then
    let s1 := fset s a TRS_FENCE_ROOT (getF v TRS_FENCE_ROOT)
    if bitOf v 31 then fsetb s1 a TRS_FENCE_FENCE true else releaseFence s1
  else commonWrite s a v

/-- TTH: the link layer's registers while it is off ignore writes (R101); Table 3-9, R102. -/
def writeTth (s : State) (p a : Nat) (v : Word) : State :=
  if tthOff s a then s
  else if a = TTH_CTRL p then
    let was := rd s a
    let s1 := if bitOf v 9 then tthClear s p else s
    let s2 := fset (fset (fset s1 a TTH_CTRL_HB_EN (getF v TTH_CTRL_HB_EN)) a TTH_CTRL_DN_EN (getF v TTH_CTRL_DN_EN)) a
      TTH_CTRL_UP_EN (getF v TTH_CTRL_UP_EN)
    let s3 := if bitOf v 8 == bitOf was 8 then s2 else phyChanged (fsetb s2 a TTH_CTRL_SB_ONLY (bitOf v 8)) p
    let s4 := if bitOf v 0 == bitOf was 0 then s3 else if bitOf v 0 then portEnable s3 p else portDisable s3 p
    if bitOf v 6 then portRetrain s4 p else s4
  else if a = TTH_HB p then setWdog s p (getF v TTH_HB_WDOG_US)
  else if a = TTH_TOKEN p then
    let c := getF v TTH_TOKEN_CMD
    if c = 0 then s else tokenWrite s p c
  else if a = TTH_WINH p then
    let t := commonWrite s a v
    if winhMask t p = winhMask s p then t else emit t (.winh p (winhWord (winhMask t p)))
  else if a = TTH_TSB_CMD p then
    if bitOf v 31 then tsbExpert s p (getF v TTH_TSB_CMD_CMD) (getF v TTH_TSB_CMD_LEN) (getF v TTH_TSB_CMD_ADDR)
    else if (tthOf s p).tsb.isSome then s
    else commonWrite s a v
  else commonWrite s a v

/-- A write of ACT[a]_DL[l]_RETRY: GO with the descriptor; how the retry begins is free (log entry 10). -/
def writeRetry (s : State) (n l : Nat) (v : Word) : State :=
  if bitOf v 31 then
    retryGo s (4 * n + l) v
  else if fbit s (ACT_DL_RETRY_STAT n l) ACT_DL_RETRY_STAT_BUSY then s
  else commonWrite s (ACT_DL_RETRY n l) v

/-- A write of ACT[a]_DL[l]_PIN[i]: REL, then VALID (R106); START and LEN of a pin that is held stay. -/
def writePin (s : State) (n l i : Nat) (v : Word) : State :=
  let k := 4 * n + l
  let s1 := if bitOf v 30 && pinHeld s k i then settleDet (endPin s k i) else s
  let start := getF v ACT_DL_PIN_START
  let len := getF v ACT_DL_PIN_LEN
  if bitOf v 31 then (if !pinHeld s1 k i && pinFits s1 k i len then makePin s1 k i start len else s1)
  else if pinHeld s1 k i then s1
  else fset (fset s1 (ACT_DL_PIN n l i) ACT_DL_PIN_START start) (ACT_DL_PIN n l i) ACT_DL_PIN_LEN len

/-- ACT and LDC. -/
def writeAct (s : State) (m : Master) (n a : Nat) (v : Word) : State :=
  match (rangeFrom 0 4).find? fun l => a == ACT_DL_RETRY n l with
  | some l => writeRetry s n l v
  | none =>
  match (rangeFrom 0 8).find? fun j => a == ACT_DL_PIN n (j / 2) (j % 2) with
  | some j => writePin s n (j / 2) (j % 2) v
  | none =>
    if a = ACT_WS_INH n then noRewrites (syncSw (fset s a ACT_WS_INH_SW_INH (getF v ACT_WS_INH_SW_INH)) n) n
    else if (rangeFrom 0 4).any fun l => a == ACT_SL_CFG n l then portRefs (sync5 (syncFollow (commonWrite s a v) n) (n / 2)) (n / 2)
    else if a = LDC_CTRL (n / 4) then clusterDemand (commonWrite s a v)
    else commonWrite s a v

/-- BRD (R188, R190, R194, R199). -/
def writeBrd (s : State) (m : Master) (e a : Nat) (v : Word) : State :=
  let off := a - baseBRD e
  let k := (off - 0x1000) / 64
  if a = BRD_SW_CTRL e then (if bitOf v 31 then switchGo s e else s)
  else if 0x1000 ≤ off ∧ off < 0x2000 ∧ a = BRD_SL_CTRL e k then
    let s1 := fset s a BRD_SL_CTRL_TRACK (getF v BRD_SL_CTRL_TRACK)
    after (execSlotModeWrite m (Fin.ofNat 16 e) (Fin.ofNat 64 k) (BitVec.ofNat 2 (getF v BRD_SL_CTRL_MODE)) s1) s1
  else if 0x1000 ≤ off ∧ off < 0x2000 ∧ a = BRD_SL_FE e k then
    let s1 := commonWrite s a v
    if bitOf v 0 && slotUsed k then feClear s1 e k else s1
  else if 0x4000 ≤ off ∧ off < 0x5000 then
    after (execLiveCoefWrite m (Fin.ofNat 16 e) (Fin.ofNat 64 ((off - 0x4000) / 64)) (Fin.ofNat 16 ((off - 0x4000) % 64 / 4)) v s) s
  else commonWrite s a v

/-- A write of SPN[p]_CTRL: REGEN_EN = 0 waits like a stop while the ledger's check fails (R315); then STEP and REQ. -/
def writeSpnCtrl (s : State) (p : Nat) (v : Word) : State :=
  let a := SPN_CTRL p
  let s1 := fset (fset s a SPN_CTRL_PAIR_EN (getF v SPN_CTRL_PAIR_EN)) a SPN_CTRL_STEP (getF v SPN_CTRL_STEP)
  let s2 := if bitOf v 9 then fsetb s1 a SPN_CTRL_REGEN_EN true
    else if fbit s1 a SPN_CTRL_REGEN_EN && !requestPasses s1 p 0 then holdRequest s1 p 3 0
    else fsetb s1 a SPN_CTRL_REGEN_EN false
  let r := getF v SPN_CTRL_REQ
  let s3 := fset s2 a SPN_CTRL_REQ r
  if r = 1 then askRun s3 p else askStop s3 p (r == 2)

/-- SPN and AST. -/
def writeSpn (s : State) (p a : Nat) (v : Word) : State :=
  if a = SPN_CTRL p then writeSpnCtrl s p v
  else if a = SPN_CHOP p then
    let s1 := if bitOf v 30 then fset (fsetb s a SPN_CHOP_RETIRED false) a SPN_CHOP_WHY 0 else s
    if bitOf v 29 then fset (fsetb s1 a SPN_CHOP_RETIRED true) a SPN_CHOP_WHY 3 else s1
  else if a = AST_CTRL p then sync5 (commonWrite s a v) p
  else if a = AST_CALCMD p then
    if bitOf v 31 then calStart s p (getF v AST_CALCMD_Q) (getF v AST_CALCMD_B)
    else if fbit s a AST_CALCMD_GO then s
    else commonWrite s a v
  else commonWrite s a v

/-- ZMP. -/
def writeZmp (s : State) (m : Master) (a : Nat) (v : Word) : State :=
  if a = ZMP_LOC_CMD ∧ bitOf v 31 then after (execZoneLocateGo m (BitVec.ofNat 8 (getF v ZMP_LOC_CMD_NSID)) s) s
  else if a = ZMP_CTX_SEL then after (execCtxSelect m (BitVec.ofNat 12 (getF v ZMP_CTX_SEL_INDEX)) s) s
  else commonWrite s a v

/-- THT: STOP, then GO (R251). MEMBER and UID stand while a rebuild runs. -/
def writeTht (s : State) (t a : Nat) (v : Word) : State :=
  if a = THT_RB_CTRL t then
    let busy := fun (s : State) => fbit s (THT_RB_STAT t) THT_RB_STAT_BUSY
    let s1 := if bitOf v 30 && busy s then rebuildEnd (wrN s (THT_RB_ZONE t) 0) t 2 else s
    if busy s1 then s1
    else if bitOf v 31 then rebuildStart s1 t (getF v THT_RB_CTRL_UID) (getF v THT_RB_CTRL_MEMBER)
    else fset (fset s1 a THT_RB_CTRL_UID (getF v THT_RB_CTRL_UID)) a THT_RB_CTRL_MEMBER (getF v THT_RB_CTRL_MEMBER)
  else commonWrite s a v

/-- CCH: INV before EN (R303). -/
def writeCch (s : State) (a : Nat) (v : Word) : State :=
  if a = CCH_CTRL then
    let s1 := if bitOf v 31 then cacheInvalidate s else s
    let s2 := fset s1 a CCH_CTRL_PF_EN (getF v CCH_CTRL_PF_EN)
    if bitOf v 0 == fbit s a CCH_CTRL_EN then s2 else if bitOf v 0 then cacheEnable s2 else cacheDisable s2
  else commonWrite s a v

/-- A two-bit code field keeps its value where 3 is written, and, for region 0, where anything but 0 is (Table 11-9). -/
def codeWord (old v : Word) (los : List Nat) : Word :=
  los.foldl (fun w lo => if getF v ⟨lo, 2⟩ = 3 then w else setF w ⟨lo, 2⟩ (getF v ⟨lo, 2⟩)) old

/-- MEP. -/
def writeMep (s : State) (m : Master) (a : Nat) (v : Word) : State :=
  let locked := fbit s MEP_CTRL MEP_CTRL_LOCK
  if MEP_RGN 0 ≤ a ∧ a ≤ MEP_RGN 3 then
    if locked || (a == MEP_RGN 0 && getF v MEP_RGN_CODE != 0) then s else wr s a (codeWord (rd s a) v [28])
  else if a = MEP_BANK_CODE 0 ∨ a = MEP_BANK_CODE 1 then
    if locked then s else wr s a (codeWord (rd s a) v ((rangeFrom 0 16).map (2 * ·)))
  else if a = MEP_FLIP_CTRL then (if flipWriter s m then writeFlipCtrl s v else s)
  else if MEP_FLIP_CTRL < a ∧ a ≤ MEP_FLIP_ADDR then (if flipWriter s m then commonWrite s a v else s)
  else if a = MEP_RET_CMD then
    if fbit s MEP_RET_STAT MEP_RET_STAT_BUSY then s
    else if bitOf v 31 then retireStart s (getF v MEP_RET_CMD_PAGE) false else commonWrite s a v
  else if a = MEP_CELOG_STAT then
    let s1 := commonWrite s a v
    if bitOf v 30 then celogClear s1 else s1
  else if MEP_CELOG_W0 0 ≤ a ∧ a < MEP_CELOG_W0 64 then
    if (a - MEP_CELOG_W0 0) % 16 = 0 ∧ bitOf v 31 then celogFree s ((a - MEP_CELOG_W0 0) / 16) else s
  else commonWrite s a v

/-- PWR. -/
def writePwr (s : State) (a : Nat) (v : Word) : State :=
  if a = PWR_MODE then
    let f := getF v PWR_MODE_FORCE
    if forceOk f then setForce s f else s
  else if a = PWR_RST then
    if getF v PWR_RST_KEY = 0x7A5C ∧ getF v PWR_RST_GO = 1 then deviceReset s 3 else s
  else if PWR_DOM_HOLD 0 ≤ a ∧ a ≤ PWR_DOM_HOLD 14 then holdWrite s ((a - PWR_DOM_HOLD 0) / 4) v
  else if PWR_DOM_BLOCK 0 ≤ a ∧ a ≤ PWR_DOM_BLOCK 14 then
    wr s a (v &&& wordOfBits fun b => blockable (32 * ((a - PWR_DOM_BLOCK 0) / 4) + b))
  else commonWrite s a v

/-- BGW. -/
def writeBgw (s : State) (a : Nat) (v : Word) : State :=
  if a = BGW_CALQ_LO ∨ a = BGW_CALQ_HI then calqWrite s (a == BGW_CALQ_HI) v
  else if BGW_TASK_CTRL 0 ≤ a ∧ a < BGW_TASK_CTRL 256 then taskSync (commonWrite s a v) ((a - BGW_TASK_CTRL 0) / 16)
  else commonWrite s a v

/-- MCS: W1C bits by any master; RW fields, halt bits, RESTART and the windows by the claim's holder (R375, R377, R379). -/
def writeMcs (s : State) (m : Master) (a : Nat) (v : Word) : State :=
  if a = MCS_EVT then commonWrite s a v
  else if a = MCS_ZCTRL then
    after (execZmapWrite m (BitVec.ofNat 24 (getF v MCS_ZCTRL_ZMAP)) (after (execZHaltWrite m (BitVec.ofNat 8 (getF v MCS_ZCTRL_Z_HALT)) s) s)) s
  else if a = MCS_F_HALT_LO ∨ a = MCS_F_HALT_HI then after (execFHaltWrite m (a == MCS_F_HALT_HI) v s) s
  else if MCS_FMATCH 0 ≤ a ∧ a ≤ MCS_FMATCH 15 then
    after (execMatchRegisterWrite m false (Fin.ofNat 32 ((a - MCS_FMATCH 0) / 4)) v s) s
  else if MCS_ZMATCH 0 ≤ a ∧ a ≤ MCS_ZMATCH 31 then
    after (execMatchRegisterWrite m true (Fin.ofNat 32 ((a - MCS_ZMATCH 0) / 4)) v s) s
  else if MCS_FPRAM 0 ≤ a ∧ a ≤ MCS_FPRAM 1023 then
    after (execPatchRamWrite m false (BitVec.ofNat 11 ((a - MCS_FPRAM 0) / 4)) v s) s
  else if MCS_ZPRAM 0 ≤ a ∧ a ≤ MCS_ZPRAM 2047 then
    after (execPatchRamWrite m true (BitVec.ofNat 11 ((a - MCS_ZPRAM 0) / 4)) v s) s
  else match (rangeFrom 0 64).find? fun f => a == MCS_FSEQ_W3 f with
    | some f => if bitOf v 0 then after (execSequencerRestart m (.f (Fin.ofNat 64 f)) s) s else s
    | none =>
      match (rangeFrom 0 8).find? fun z => a == MCS_ZSEQ_W3 z with
      | some z => if bitOf v 0 then after (execSequencerRestart m (.z (Fin.ofNat 8 z)) s) s else s
      | none => if holds s baseMCS m then commonWrite s a v else s

/-- PRT (R389, R393, R406). -/
def writePrt (s : State) (a : Nat) (v : Word) : State :=
  if a = PRT_CTRL then
    let s1 := commonWrite s a v
    let s2 := if fbit s a PRT_CTRL_MIRROR_EN && !bitOf v 1 then mirrorLost s1 else s1
    if bitOf v 3 then hoRequest s2 none else s2
  else commonWrite s a v

/-- MBX: channels under R409, bindings under R408, PARTY_RST for the writer's identity. -/
def writeMbx (s : State) (m : Master) (a : Nat) (v : Word) : State :=
  match mbxChan a with
  | some c => mbxChWrite s m c (a % 256) v
  | none =>
    if MBX_BIND 0 ≤ a ∧ a ≤ MBX_BIND 63 then mbxBindWrite s m ((a - MBX_BIND 0) / 4) v
    else if a = MBX_PARTY_RST then (if bitOf v 0 then partyReset s (masterId m) else s)
    else commonWrite s a v

/-- FLS: what a page that is read, or a program, comes to is free (log entries 10 and 19). -/
def writeFls (s : State) (m : Master) (a : Nat) (v : Word) : State :=
  if a = FLS_CMD then
    let f := fun i => BitVec.ofNat 16 (Config.freeNat (s.free + i))
    flsCmdWrite { s with free := s.free + 4 } m v (bitOf (BitVec.ofNat 32 (Config.freeNat s.free)) 0) (f 1) (f 2) (f 3)
  else commonWrite s a v

/-! ### The write -/

/-- A 32-bit write of a defined register by a master (R10, R12). -/
def storeWord (s : State) (m : Master) (a : Nat) (v : Word) : State :=
  match xclaimBase a with
  | some b => if bitOf v 0 then writeXclaim s m b true else claimsFreed (writeXclaim s m b false)
  | none =>
    if a < 0x0100000 then writeTrs s m a v
    else if a < 0x0200000 then writePwr s a v
    else if a < 0x0300000 then commonWrite s a v
    else if a < 0x0400000 then
      (if EVT_PEND 0 ≤ a ∧ a ≤ EVT_PEND 19 then pendClear s ((a - EVT_PEND 0) / 4) v else commonWrite s a v)
    else if a < 0x0500000 then
      (match (rangeFrom 0 8).find? fun r => a == TAIL_CTRL r with
        | some r => tailCtrlWrite s r (bitOf v 31) (bitOf v 30)
        | none => commonWrite s a v)
    else if a < 0x0600000 then writeMbx s m a v
    else if a < 0x0700000 then writeFls s m a v
    else if a < 0x0800000 then commonWrite s a v
    else if a < 0x0900000 then writeBgw s a v
    else if a < 0x0A00000 then writePrt s a v
    else if a = HIF_SLOT_RES then
      (if 8192 < getF v HIF_SLOT_RES_RES_A ∨ 8192 < getF v HIF_SLOT_RES_RES_B then s else commonWrite s a v)
    else if a < 0x0E00000 then commonWrite s a v
    else if a < 0x0F00000 then writeCch s a v
    else if a < 0x1000000 then writeMep s m a v
    else if a < 0x1400000 then writeTth s ((a - baseTTH 0) / 0x10000) a v
    else if a < 0x1800000 then writeAct s m ((a - baseACT 0) / 0x10000) a v
    else if a < 0x1A00000 then writeBrd s m ((a - baseBRD 0) / 0x20000) a v
    else if a < 0x1C00000 then writeSpn s ((a - baseSPN 0) / 0x8000) a v
    else if a < 0x1E00000 then writeZmp s m a v
    else if a < 0x2000000 then writeTht s ((a - baseTHT 0) / 0x80000) a v
    else writeMcs s m a v

/-- A 32-bit write of QCS: an undefined offset discards it and raises source 3 (R16). -/
def writeWord (s : State) (m : Master) (a : Nat) (v : Word) : State :=
  if accessUndefined s m a || decide (a % 4 ≠ 0) then undefEnd s m a else storeWord (dropLatch s m a) m (homeAddr a) v

/-- REGISTER_WRITE (R10, R12, R15): a 64-bit write is two of 32 bits, the lower address first; a narrower one that reaches a
register is discarded. -/
def execRegisterWrite (m : Master) (addr : Nat) (width : Width) (value : BitVec 64) (s : State) : Res :=
  .next (if !alignedFor width addr then undefAccess s m addr true
    else match width with
      | .b1 => if accessUndefined s m addr then undefAccess s m addr true else s
      | .b2 => if accessUndefined s m addr then undefAccess s m addr true else s
      | .b4 => writeWord s m addr (value.setWidth 32)
      | .b8 => writeWord (writeWord s m addr (value.setWidth 32)) m (addr + 4) ((value >>> 32).setWidth 32))

end Sys2Proof.Machine
end

