-- ==== Sys2Proof/Machine/MbxCmds.lean ====
section
/-! DEFINITION. The baseboard controller's MCTP path to the mailboxes (R407), and the basic-level requests that a Ridge core
answers through them (R414, R415). -/
namespace Sys2Proof.Machine
open Sys2Proof

/-! ### MCTP messages (R407) -/

/-- The words of an MCTP read, each with the register's read rules. -/
def mctpRead (s : State) (ofst n : Nat) : List Word × State :=
  (rangeFrom 0 n).foldl (fun r i =>
    let x := fetchWord r.2 .bmc (baseMBX + ofst + 4 * i)
    (r.1 ++ [x.1], x.2)) ([], s)

/-- An MCTP message with its payload: operation byte, MBX offset, word count, data (R407). The statuses are looked for in
the order 0x01, 0x02, 0x04, 0x03 (log entry 28). -/
def mctpMessage (s : State) (msg : List Byte) : State :=
  let b := msg.map (·.toNat)
  let op := b.getD 0 0
  let ofst := leNat ((b.drop 1).take 4)
  let n := b.getD 5 0
  let data := b.drop 6
  let addrs := (rangeFrom 0 n).map fun i => baseMBX + ofst + 4 * i
  let word := fun i => BitVec.ofNat 32 (leNat ((data.drop (4 * i)).take 4))
  let answer := fun (s : State) (l : List Nat) => emit s (.smbus l)
  if (op ≠ 1 ∧ op ≠ 2) ∨ n = 0 ∨ 16 < n then answer s [1]
  else if ofst % 4 ≠ 0 ∨ 0x100000 < ofst + 4 * n then answer s [2]
  else if data.length ≠ (if op = 1 then 0 else 4 * n) then answer s [4]
  else if op = 1 then
    if addrs.all (mbxMayRead s .bmc) then
      let r := mctpRead s ofst n
      answer r.2 (0 :: r.1.flatMap fun w => leBytes 4 w.toNat)
    else answer (mbxViol s) [3]
  else
    let may := (rangeFrom 0 n).all fun i =>
      match mbxChan (baseMBX + ofst + 4 * i) with
      | some c => !defined (baseMBX + ofst + 4 * i) || mbxRight s .bmc c ((ofst + 4 * i) % 256) (word i)
      | none => true
    if may then answer (forAll (rangeFrom 0 n) s fun s i => writeWord s .bmc (baseMBX + ofst + 4 * i) (word i)) [0]
    else answer (mbxViol s) [3]

/-- MCTP_MBX_READ (R407): operation byte 0x01, or one that R407 does not list. -/
def execMctpMbxRead (msg : List Byte) (s : State) : Res :=
  .next (if msg.head? = some 0x02 then s else mctpMessage s msg)

/-- MCTP_MBX_WRITE (R407): operation byte 0x02. -/
def execMctpMbxWrite (msg : List Byte) (s : State) : Res :=
  .next (if msg.head? = some 0x02 then mctpMessage s msg else s)

/-! ### Requests (R414, R415) -/

/-- The 64 bytes of a channel's data words. -/
def mbxBytes (s : State) (c : Nat) : List Nat := (rangeFrom 0 16).flatMap fun w => leBytes 4 (rdN s (MBX_CH_DATA c w))

/-- The master of an identity. -/
def masterOf (n : Nat) : Option Master :=
  [Master.hostA, .hostB, .bmc, .ridge0, .ridge1, .ridge2, .ridge3, .partner, .zoneSeq, .debug].find? fun m => masterId m == n

/-- The Ridge core that receives on channel `c` takes the message there, if its MOPC is one of those asked for: it clears
the message bit, discards a message that COLL marks (R410), and acts on another. -/
def mbxTake (s : State) (c : Nat) (mopc : Nat → Bool) (f : State → Master → List Nat → State) : State :=
  let b := mbxBytes s c
  let r := fget s (MBX_BIND c) MBX_BIND_RECEIVER
  if c % 2 = 0 && mbxBound s c && decide (8 ≤ r ∧ r ≤ 11) && mbxFull s c && mopc (b.getD 0 0) then
    let t := mbxChange s c fun s => wbit s (MBX_CH_DB c) 0 false
    if fbit s (MBX_CH_STAT c) MBX_CH_STAT_COLL then fsetb t (MBX_CH_STAT c) MBX_CH_STAT_COLL false
    else match masterOf (fget s (MBX_BIND c) MBX_BIND_SENDER) with
      | some m => f t m b
      | none => t
  else s

/-- The answer to a request on channel `c` (R414). -/
def mbxReply (s : State) (c : Nat) (b : List Nat) (status : Nat) (data : List Nat) : State :=
  mbxAnswer s (c + 1) ([b.getD 0 0, b.getD 1 0, status, 0] ++ data)

/-- ARG0, ARG1 and word `i` of a request. -/
def argW (b : List Nat) (i : Nat) : Nat := leNat ((b.drop (4 * i)).take 4)

/-- Truss policy gives the requester QCS access (R50, R415). -/
def mbxQcs (s : State) (m : Master) : Bool :=
  match m with
  | .bmc => ((s.trs.run.hostPolicy.map (·.2)).getD 0) % 2 == 1
  | .partner => false
  | _ => qcsOpen s m

/-- MBX_QCS_READ (R415). -/
def execMbxQcsRead (c : Fin 64) (s : State) : Res :=
  .next (mbxTake s c (· == 1) fun s m b =>
    let n := argW b 2
    if !mbxQcs s m then mbxReply s c b 3 []
    else if n = 0 ∨ 15 < n then mbxReply s c b 2 []
    else
      let r := (rangeFrom 0 n).foldl (fun r i =>
        let x := fetchWord r.2 m (argW b 1 + 4 * i)
        (r.1 ++ leBytes 4 x.1.toNat, x.2)) (([] : List Nat), s)
      mbxReply r.2 c b 0 r.1)

/-- MBX_QCS_WRITE (R415). -/
def execMbxQcsWrite (c : Fin 64) (s : State) : Res :=
  .next (mbxTake s c (· == 2) fun s m b =>
    let n := argW b 2
    if !mbxQcs s m then mbxReply s c b 3 []
    else if n = 0 ∨ 13 < n then mbxReply s c b 2 []
    else
      let t := forAll (rangeFrom 0 n) s fun s i =>
        let a := argW b 1 + 4 * i
        if accessUndefined s m a || decide (a % 4 ≠ 0) then undefinedAccess s m a
        else storeWord (dropLatch s m a) m (homeAddr a) (BitVec.ofNat 32 (argW b (3 + i)))
      mbxReply t c b 0 [])

/-- Get Features of a vendor feature for issuer `x` (Table 10-5). -/
def getVendor (fid : Nat) (w : Word) (s : State) (x cid : Nat) : State :=
  match fid with
  | 0xC0 => getC0 w s x cid | 0xC1 => getC1 s x cid | 0xC2 => getC2 s x cid | 0xC8 => getC8 w s x cid
  | 0xC9 => getC9 w s x cid | 0xD0 => getD0 (getF w ⟨0, 5⟩) s x cid | 0xD1 => getD1 s x cid | 0xD2 => getD2 s x cid
  | 0xD3 => getD3 s x cid | 0xD4 => getD4 (getF w ⟨0, 5⟩) s x cid | 0xD5 => getD5 (getF w ⟨0, 5⟩) s x cid
  | 0xD8 => getD8 s x cid | 0xE0 => getE0 s x cid | 0xE8 => getE8 s x cid | 0xE9 => getE9 s x cid
  | 0xEA => getEA s x cid | 0xEE => getEE s x cid
  | _ => invalidField s x cid

/-- Set Features of a vendor feature for issuer `x` (Table 10-5). -/
def setVendor (fid : Nat) (w v : Word) (s : State) (x cid : Nat) : State :=
  match fid with
  | 0xC0 => setC0 w s x cid | 0xC1 => setC1 w s x cid | 0xC2 => setC2 w s x cid | 0xC8 => setC8 w v s x cid
  | 0xC9 => setC9 w v s x cid | 0xD0 => setD0 (getF w ⟨0, 5⟩) (getF w ⟨8, 2⟩) s x cid | 0xD1 => setD1 w v s x cid
  | 0xD2 => setD2 w s x cid | 0xD3 => setD3 w v s x cid | 0xD4 => setD4 w s x cid
  | 0xD5 => setD5 (getF w ⟨0, 5⟩) (getF w ⟨8, 2⟩) (getF w ⟨12, 2⟩) s x cid | 0xD8 => setD8 w s x cid
  | 0xE0 => setE0 w v s x cid | 0xE8 => setE8 w v s x cid | 0xE9 => setE9 w v s x cid | 0xEA => setEA w v s x cid
  | 0xEE => setEE w s x cid
  | _ => invalidField s x cid

/-- MOPC and SEQ of a request, as `complete` takes them. -/
def mbxCid (b : List Nat) : Nat := b.getD 0 0 + 256 * b.getD 1 0

/-- MBX_GET_FEATURE (R415). -/
def execMbxGetFeature (c : Fin 64) (s : State) : Res :=
  .next (mbxTake s c (· == 3) fun s _ b => getVendor (argW b 1) (BitVec.ofNat 32 (argW b 2)) s (256 + (c + 1)) (mbxCid b))

/-- MBX_SET_FEATURE (R415): it answers when the NVMe command would complete. -/
def execMbxSetFeature (c : Fin 64) (s : State) : Res :=
  .next (mbxTake s c (· == 4) fun s _ b =>
    setVendor (argW b 1) (BitVec.ofNat 32 (argW b 2)) (BitVec.ofNat 32 (argW b 3)) s (256 + (c + 1)) (mbxCid b))

/-- MBX_LOG_READ (R415): 56 bytes of the page, zero beyond its end. -/
def execMbxLogRead (c : Fin 64) (s : State) : Res :=
  .next (mbxTake s c (· == 5) fun s _ b =>
    let o := argW b 2
    match vendorPage s (argW b 1) 0 with
    | none => mbxReply s c b 2 []
    | some l => if o % 4 ≠ 0 ∨ l.length < o then mbxReply s c b 2 [] else mbxReply s c b 0 (padTo 56 (l.drop o)))

/-- MBX_INVALID_COMMAND (R415). -/
def execMbxInvalidCommand (c : Fin 64) (s : State) : Res :=
  .next (mbxTake s c (fun o => o == 0 || decide (5 < o)) fun s _ b => mbxReply s c b 1 [])

end Sys2Proof.Machine
end

