-- ==== Sys2Proof/Machine/Dispatch.lean ====
section
/-! DEFINITION. The effect of a command: one direct call of its meaning for each constructor. -/
namespace Sys2Proof.Machine
open Sys2Proof

def exec (i : Instr) (s : State) : Host.Outcome State Fault Refusal :=
  match i with
  | .registerWrite m addr width value => Sys2Proof.Machine.execRegisterWrite m addr width value s
  | .qcsUndefinedAccess m addr write => Sys2Proof.Machine.execQcsUndefinedAccess m addr write s
  | .misalignedQcsAccess m addr width write => Sys2Proof.Machine.execMisalignedQcsAccess m addr width write s
  | .wideRegisterLowRead m addr width => Sys2Proof.Machine.execWideRegisterLowRead m addr width s
  | .rcFieldRead m addr width => Sys2Proof.Machine.execRcFieldRead m addr width s
  | .expertClaim m addr => Sys2Proof.Machine.execExpertClaim m addr s
  | .expertRelease m addr => Sys2Proof.Machine.execExpertRelease m addr s
  | .compositeRecompute u => Sys2Proof.Machine.execCompositeRecompute u s
  | .unitPolicyWrite m u policy => Sys2Proof.Machine.execUnitPolicyWrite m u policy s
  | .unitWakeDemand u => Sys2Proof.Machine.execUnitWakeDemand u s
  | .unitWakeComplete u => Sys2Proof.Machine.execUnitWakeComplete u s
  | .unitRetire u cause => Sys2Proof.Machine.execUnitRetire u cause s
  | .trussDownload x cid numd ofst data => Sys2Proof.Machine.execTrussDownload x cid numd ofst data s
  | .trussCommitVerify x cid quiesceMs => Sys2Proof.Machine.execTrussCommitVerify x cid quiesceMs s
  | .trussCommitLoadStore x cid quiesceMs => Sys2Proof.Machine.execTrussCommitLoadStore x cid quiesceMs s
  | .trussCommitPatchStore x cid quiesceMs => Sys2Proof.Machine.execTrussCommitPatchStore x cid quiesceMs s
  | .trussCommitLoad x cid quiesceMs => Sys2Proof.Machine.execTrussCommitLoad x cid quiesceMs s
  | .trussCommitPatch x cid quiesceMs => Sys2Proof.Machine.execTrussCommitPatch x cid quiesceMs s
  | .trussQuiesceWaitEnd => Sys2Proof.Machine.execTrussQuiesceWaitEnd s
  | .trussVerifyDone => Sys2Proof.Machine.execTrussVerifyDone s
  | .trussPartnerAnswer accept => Sys2Proof.Machine.execTrussPartnerAnswer accept s
  | .trussPartnerTimeout => Sys2Proof.Machine.execTrussPartnerTimeout s
  | .peerTrussCheck image => Sys2Proof.Machine.execPeerTrussCheck image s
  | .trsLdVerify m => Sys2Proof.Machine.execTrsLdVerify m s
  | .trsLdLoad m => Sys2Proof.Machine.execTrsLdLoad m s
  | .trsLdPatch m => Sys2Proof.Machine.execTrsLdPatch m s
  | .trsSeqFloorWrite m value => Sys2Proof.Machine.execTrsSeqFloorWrite m value s
  | .trsKeyRevoke m slots => Sys2Proof.Machine.execTrsKeyRevoke m slots s
  | .trsFenceSet m root => Sys2Proof.Machine.execTrsFenceSet m root s
  | .trsFenceRelease m => Sys2Proof.Machine.execTrsFenceRelease m s
  | .presenceEdge p low => Sys2Proof.Machine.execPresenceEdge p low s
  | .presenceDebounceEnd p => Sys2Proof.Machine.execPresenceDebounceEnd p s
  | .tsbResponse p status data crcOk => Sys2Proof.Machine.execTsbResponse p status data crcOk s
  | .tsbResponseTimeout p => Sys2Proof.Machine.execTsbResponseTimeout p s
  | .tsbAttention p cause => Sys2Proof.Machine.execTsbAttention p cause s
  | .tetherTrainingDone p upGood dnGood => Sys2Proof.Machine.execTetherTrainingDone p upGood dnGood s
  | .tetherTrainingFail p lane => Sys2Proof.Machine.execTetherTrainingFail p lane s
  | .upstreamLaneLoss p lane => Sys2Proof.Machine.execUpstreamLaneLoss p lane s
  | .downstreamLaneLoss p => Sys2Proof.Machine.execDownstreamLaneLoss p s
  | .creditTimeout p => Sys2Proof.Machine.execCreditTimeout p s
  | .laneRetrainDone p upGood dnGood => Sys2Proof.Machine.execLaneRetrainDone p upGood dnGood s
  | .laneRetryEpisode p lane => Sys2Proof.Machine.execLaneRetryEpisode p lane s
  | .sampleFlit p f => Sys2Proof.Machine.execSampleFlit p f s
  | .servoFlit p f => Sys2Proof.Machine.execServoFlit p f s
  | .telemFlit p f => Sys2Proof.Machine.execTelemFlit p f s
  | .idleFlit p f => Sys2Proof.Machine.execIdleFlit p f s
  | .heartbeatPeriod p => Sys2Proof.Machine.execHeartbeatPeriod p s
  | .fecRetrainCheck p lane corrected uncorrectable => Sys2Proof.Machine.execFecRetrainCheck p lane corrected uncorrectable s
  | .tthCntClr m p => Sys2Proof.Machine.execTthCntClr m p s
  | .tthRetrain m p => Sys2Proof.Machine.execTthRetrain m p s
  | .tthSbOnlyWrite m p v => Sys2Proof.Machine.execTthSbOnlyWrite m p v s
  | .tthPortDisable m p => Sys2Proof.Machine.execTthPortDisable m p s
  | .tthPortEnable m p => Sys2Proof.Machine.execTthPortEnable m p s
  | .tthWdogWrite m p us => Sys2Proof.Machine.execTthWdogWrite m p us s
  | .tokenAcquire m p => Sys2Proof.Machine.execTokenAcquire m p s
  | .tokenRelease m p => Sys2Proof.Machine.execTokenRelease m p s
  | .tokenHandoff m p => Sys2Proof.Machine.execTokenHandoff m p s
  | .tsbCmdRead m p len addr => Sys2Proof.Machine.execTsbCmdRead m p len addr s
  | .tsbCmdWrite m p len addr => Sys2Proof.Machine.execTsbCmdWrite m p len addr s
  | .feTsbRead p side addr len crcOk => Sys2Proof.Machine.execFeTsbRead p side addr len crcOk s
  | .feTsbWrite p side addr data crcOk => Sys2Proof.Machine.execFeTsbWrite p side addr data crcOk s
  | .feTsbHeartbeat p side addr len crcOk => Sys2Proof.Machine.execFeTsbHeartbeat p side addr len crcOk s
  | .feAcquire p side => Sys2Proof.Machine.execFeAcquire p side s
  | .feRelease p side => Sys2Proof.Machine.execFeRelease p side s
  | .feHandoff p side => Sys2Proof.Machine.execFeHandoff p side s
  | .feWatchdogExpire p rpm busPower => Sys2Proof.Machine.execFeWatchdogExpire p rpm busPower s
  | .feOtherWatchdogExpire p side => Sys2Proof.Machine.execFeOtherWatchdogExpire p side s
  | .feHbFlit p side f => Sys2Proof.Machine.execFeHbFlit p side f s
  | .feCmdFlit p side f => Sys2Proof.Machine.execFeCmdFlit p side f s
  | .feCmdApply p => Sys2Proof.Machine.execFeCmdApply p s
  | .feWriteFlit p side f late => Sys2Proof.Machine.execFeWriteFlit p side f late s
  | .feWinhWord p side word => Sys2Proof.Machine.execFeWinhWord p side word s
  | .feWinhBadWord p side => Sys2Proof.Machine.execFeWinhBadWord p side s
  | .feWinhSilence p side => Sys2Proof.Machine.execFeWinhSilence p side s
  | .feDownstreamLoss p => Sys2Proof.Machine.execFeDownstreamLoss p s
  | .dlPinSet m a l idx start len => Sys2Proof.Machine.execDlPinSet m a l idx start len s
  | .dlPinRelease m a l idx => Sys2Proof.Machine.execDlPinRelease m a l idx s
  | .pinTimeout a l idx => Sys2Proof.Machine.execPinTimeout a l idx s
  | .syncDecision a l start => Sys2Proof.Machine.execSyncDecision a l start s
  | .decodeJobDispatch c => Sys2Proof.Machine.execDecodeJobDispatch c s
  | .decodeJobDone c => Sys2Proof.Machine.execDecodeJobDone c s
  | .clusterParityError c hour => Sys2Proof.Machine.execClusterParityError c hour s
  | .clusterIdlePoweroff c => Sys2Proof.Machine.execClusterIdlePoweroff c s
  | .dlRetryGo m a l value => Sys2Proof.Machine.execDlRetryGo m a l value s
  | .lanePowerRequest a l => Sys2Proof.Machine.execLanePowerRequest a l s
  | .lanePowerReady a l => Sys2Proof.Machine.execLanePowerReady a l s
  | .laneIdlePoweroff a l => Sys2Proof.Machine.execLaneIdlePoweroff a l s
  | .ldcSlotsRead m c => Sys2Proof.Machine.execLdcSlotsRead m c s
  | .ladderReread a l start => Sys2Proof.Machine.execLadderReread a l start s
  | .trackParityReconstruct a l read => Sys2Proof.Machine.execTrackParityReconstruct a l read s
  | .thatchReconstruct t nsid lba shares => Sys2Proof.Machine.execThatchReconstruct t nsid lba shares s
  | .trackParityRebuildRead p q track => Sys2Proof.Machine.execTrackParityRebuildRead p q track s
  | .servoWedge a l w t => Sys2Proof.Machine.execServoWedge a l w t s
  | .missInhibit a l => Sys2Proof.Machine.execMissInhibit a l s
  | .inhibitRelease a l => Sys2Proof.Machine.execInhibitRelease a l s
  | .servoLost a => Sys2Proof.Machine.execServoLost a s
  | .servoReacquire a found => Sys2Proof.Machine.execServoReacquire a found s
  | .settled a => Sys2Proof.Machine.execSettled a s
  | .maSaturation a l => Sys2Proof.Machine.execMaSaturation a l s
  | .shockRecord p value stamp => Sys2Proof.Machine.execShockRecord p value stamp s
  | .shockRecordTimeout a => Sys2Proof.Machine.execShockRecordTimeout a s
  | .shockHoldExpire a => Sys2Proof.Machine.execShockHoldExpire a s
  | .rewritePass a => Sys2Proof.Machine.execRewritePass a s
  | .squeezeRead a l failed nsid lba => Sys2Proof.Machine.execSqueezeRead a l failed nsid lba s
  | .swInhibitWrite m a mask => Sys2Proof.Machine.execSwInhibitWrite m a mask s
  | .bridleTimerTick e k t => Sys2Proof.Machine.execBridleTimerTick e k t s
  | .bridleIterationStart e t => Sys2Proof.Machine.execBridleIterationStart e t s
  | .bridleIterationEnd e => Sys2Proof.Machine.execBridleIterationEnd e s
  | .bridleOutput e k => Sys2Proof.Machine.execBridleOutput e k s
  | .bridleSwitchGo m e => Sys2Proof.Machine.execBridleSwitchGo m e s
  | .bridleSwitchIdleCopy e k => Sys2Proof.Machine.execBridleSwitchIdleCopy e k s
  | .speedStepGroupSwitch p => Sys2Proof.Machine.execSpeedStepGroupSwitch p s
  | .slotModeWrite m e k mode => Sys2Proof.Machine.execSlotModeWrite m e k mode s
  | .liveCoefWrite m e k idx value => Sys2Proof.Machine.execLiveCoefWrite m e k idx value s
  | .followingErrorAction e k => Sys2Proof.Machine.execFollowingErrorAction e k s
  | .followingErrorEnd e k => Sys2Proof.Machine.execFollowingErrorEnd e k s
  | .feClear m e k => Sys2Proof.Machine.execFeClear m e k s
  | .bridleEnginePoweroff e => Sys2Proof.Machine.execBridleEnginePoweroff e s
  | .brdStatRead m e => Sys2Proof.Machine.execBrdStatRead m e s
  | .zcRecord p index stamp => Sys2Proof.Machine.execZcRecord p index stamp s
  | .commutationStep p => Sys2Proof.Machine.execCommutationStep p s
  | .commutationStepFail p => Sys2Proof.Machine.execCommutationStepFail p s
  | .observerLoss p => Sys2Proof.Machine.execObserverLoss p s
  | .sineUpdate p observed => Sys2Proof.Machine.execSineUpdate p observed s
  | .spnReqRun m p step => Sys2Proof.Machine.execSpnReqRun m p step s
  | .spnReqStop m p => Sys2Proof.Machine.execSpnReqStop m p s
  | .spnReqCoast m p => Sys2Proof.Machine.execSpnReqCoast m p s
  | .spnStepWrite m p step => Sys2Proof.Machine.execSpnStepWrite m p step s
  | .spinupAdmit p => Sys2Proof.Machine.execSpinupAdmit p s
  | .catchLock p => Sys2Proof.Machine.execCatchLock p s
  | .catchNoCrossing p => Sys2Proof.Machine.execCatchNoCrossing p s
  | .catchImplausible p => Sys2Proof.Machine.execCatchImplausible p s
  | .alignDone p => Sys2Proof.Machine.execAlignDone p s
  | .rampHandover p => Sys2Proof.Machine.execRampHandover p s
  | .rampTimeout p => Sys2Proof.Machine.execRampTimeout p s
  | .spindleRunReached p => Sys2Proof.Machine.execSpindleRunReached p s
  | .shortEnd p => Sys2Proof.Machine.execShortEnd p s
  | .regenAdmit p => Sys2Proof.Machine.execRegenAdmit p s
  | .speedRefSlewTick p => Sys2Proof.Machine.execSpeedRefSlewTick p s
  | .busRecord p flags volts => Sys2Proof.Machine.execBusRecord p flags volts s
  | .chopperFault p => Sys2Proof.Machine.execChopperFault p s
  | .regenStopClear => Sys2Proof.Machine.execRegenStopClear s
  | .coastWaitEnd p => Sys2Proof.Machine.execCoastWaitEnd p s
  | .catchWindowExpire p elapsedUs => Sys2Proof.Machine.execCatchWindowExpire p elapsedUs s
  | .headUnloadDone p => Sys2Proof.Machine.execHeadUnloadDone p s
  | .monRecord p lane value t => Sys2Proof.Machine.execMonRecord p lane value t s
  | .monTimeout p lane => Sys2Proof.Machine.execMonTimeout p lane s
  | .clearanceRecord p lane value t => Sys2Proof.Machine.execClearanceRecord p lane value t s
  | .mechTempRecord p index temp => Sys2Proof.Machine.execMechTempRecord p index temp s
  | .astCalGo m p q b => Sys2Proof.Machine.execAstCalGo m p q b s
  | .assistCalDone p widths mon => Sys2Proof.Machine.execAssistCalDone p widths mon s
  | .chopSvcClr m p => Sys2Proof.Machine.execChopSvcClr m p s
  | .chopSet m p => Sys2Proof.Machine.execChopSet m p s
  | .journalTimer nsid zone => Sys2Proof.Machine.execJournalTimer nsid zone s
  | .journalWriteDone p ok => Sys2Proof.Machine.execJournalWriteDone p ok s
  | .accumulatorReadback t uid zone row => Sys2Proof.Machine.execAccumulatorReadback t uid zone row s
  | .rebuildStart m t member uid => Sys2Proof.Machine.execRebuildStart m t member uid s
  | .rebuildStop m t => Sys2Proof.Machine.execRebuildStop m t s
  | .rebuildDone t rows => Sys2Proof.Machine.execRebuildDone t rows s
  | .relocation p => Sys2Proof.Machine.execRelocation p s
  | .zoneLocateGo m nsid => Sys2Proof.Machine.execZoneLocateGo m nsid s
  | .ctxSelect m index => Sys2Proof.Machine.execCtxSelect m index s
  | .zmpStatRead m => Sys2Proof.Machine.execZmpStatRead m s
  | .perstAssert x => Sys2Proof.Machine.execPerstAssert x s
  | .perstDeassert x bifur => Sys2Proof.Machine.execPerstDeassert x bifur s
  | .pcieLinkUp x speed width => Sys2Proof.Machine.execPcieLinkUp x speed width s
  | .surpriseLinkDown x => Sys2Proof.Machine.execSurpriseLinkDown x s
  | .functionLevelReset x => Sys2Proof.Machine.execFunctionLevelReset x s
  | .ccEnClear x => Sys2Proof.Machine.execCcEnClear x s
  | .ccEnSet x => Sys2Proof.Machine.execCcEnSet x s
  | .sqDoorbellWrite x qid tail => Sys2Proof.Machine.execSqDoorbellWrite x qid tail s
  | .commandFetch x sqid e => Sys2Proof.Machine.execCommandFetch x sqid e s
  | .ledgerAdmit => Sys2Proof.Machine.execLedgerAdmit s
  | .hostDataReceived x sqid cid data => Sys2Proof.Machine.execHostDataReceived x sqid cid data s
  | .poisonedCompletion x sqid cid => Sys2Proof.Machine.execPoisonedCompletion x sqid cid s
  | .writeDataTimeout x sqid cid => Sys2Proof.Machine.execWriteDataTimeout x sqid cid s
  | .mirrorAck x sqid cid => Sys2Proof.Machine.execMirrorAck x sqid cid s
  | .commitPoint x sqid cid => Sys2Proof.Machine.execCommitPoint x sqid cid s
  | .nvmWrite x sqid cid => Sys2Proof.Machine.execNvmWrite x sqid cid s
  | .nvmRead x sqid cid errs => Sys2Proof.Machine.execNvmRead x sqid cid errs s
  | .nvmFlush x sqid cid => Sys2Proof.Machine.execNvmFlush x sqid cid s
  | .nvmWriteZeroes x sqid cid => Sys2Proof.Machine.execNvmWriteZeroes x sqid cid s
  | .nvmVerify x sqid cid errs => Sys2Proof.Machine.execNvmVerify x sqid cid errs s
  | .zoneAppend x sqid cid => Sys2Proof.Machine.execZoneAppend x sqid cid s
  | .zmsOpen x sqid cid => Sys2Proof.Machine.execZmsOpen x sqid cid s
  | .zmsClose x sqid cid => Sys2Proof.Machine.execZmsClose x sqid cid s
  | .zmsFinish x sqid cid => Sys2Proof.Machine.execZmsFinish x sqid cid s
  | .zmsReset x sqid cid => Sys2Proof.Machine.execZmsReset x sqid cid s
  | .zmsOffline x sqid cid => Sys2Proof.Machine.execZmsOffline x sqid cid s
  | .zmsSetZoneDescExt x sqid cid => Sys2Proof.Machine.execZmsSetZoneDescExt x sqid cid s
  | .zmrReportZones x sqid cid option => Sys2Proof.Machine.execZmrReportZones x sqid cid option s
  | .zmrExtendedReportZones x sqid cid => Sys2Proof.Machine.execZmrExtendedReportZones x sqid cid s
  | .invalidOpcode x sqid cid opc lid => Sys2Proof.Machine.execInvalidOpcode x sqid cid opc lid s
  | .createIoSq x cid qid size cqid prio pc => Sys2Proof.Machine.execCreateIoSq x cid qid size cqid prio pc s
  | .deleteIoSq x cid qid => Sys2Proof.Machine.execDeleteIoSq x cid qid s
  | .createIoCq x cid qid size vec ien pc => Sys2Proof.Machine.execCreateIoCq x cid qid size vec ien pc s
  | .deleteIoCq x cid qid => Sys2Proof.Machine.execDeleteIoCq x cid qid s
  | .identify x cid cns nsid => Sys2Proof.Machine.execIdentify x cid cns nsid s
  | .abort x cid sqid acid outstanding => Sys2Proof.Machine.execAbort x cid sqid acid outstanding s
  | .asyncEventRequest x cid => Sys2Proof.Machine.execAsyncEventRequest x cid s
  | .keepAlive x cid => Sys2Proof.Machine.execKeepAlive x cid s
  | .setFeatures x cid fid dw11 sv => Sys2Proof.Machine.execSetFeatures x cid fid dw11 sv s
  | .getFeatures x cid fid dw11 => Sys2Proof.Machine.execGetFeatures x cid fid dw11 s
  | .setFeatPowerMgmt x cid dw11 sv => Sys2Proof.Machine.execSetFeatPowerMgmt x cid dw11 sv s
  | .getFeatPowerMgmt x cid => Sys2Proof.Machine.execGetFeatPowerMgmt x cid s
  | .powerStateEntryDone partnerUp => Sys2Proof.Machine.execPowerStateEntryDone partnerUp s
  | .d3hotEntry x => Sys2Proof.Machine.execD3hotEntry x s
  | .fwImageDownload x cid numd ofst data => Sys2Proof.Machine.execFwImageDownload x cid numd ofst data s
  | .fwCommitCa0 x cid fs => Sys2Proof.Machine.execFwCommitCa0 x cid fs s
  | .fwCommitCa1 x cid fs => Sys2Proof.Machine.execFwCommitCa1 x cid fs s
  | .fwCommitCa2 x cid fs => Sys2Proof.Machine.execFwCommitCa2 x cid fs s
  | .fwCommitCa3 x cid fs => Sys2Proof.Machine.execFwCommitCa3 x cid fs s
  | .pairUpdateStep ok => Sys2Proof.Machine.execPairUpdateStep ok s
  | .deviceSelfTestShort x cid nsid => Sys2Proof.Machine.execDeviceSelfTestShort x cid nsid s
  | .deviceSelfTestExtended x cid nsid => Sys2Proof.Machine.execDeviceSelfTestExtended x cid nsid s
  | .deviceSelfTestAbort x cid nsid => Sys2Proof.Machine.execDeviceSelfTestAbort x cid nsid s
  | .selfTestStepDone ok ce => Sys2Proof.Machine.execSelfTestStepDone ok ce s
  | .logErrorInformation x cid ofst len => Sys2Proof.Machine.execLogErrorInformation x cid ofst len s
  | .logSmartHealth x cid nsid ofst len => Sys2Proof.Machine.execLogSmartHealth x cid nsid ofst len s
  | .logFirmwareSlot x cid ofst len => Sys2Proof.Machine.execLogFirmwareSlot x cid ofst len s
  | .logChangedNamespaceList x cid rae ofst len => Sys2Proof.Machine.execLogChangedNamespaceList x cid rae ofst len s
  | .logCommandsSupported x cid ofst len => Sys2Proof.Machine.execLogCommandsSupported x cid ofst len s
  | .logDeviceSelfTest x cid ofst len => Sys2Proof.Machine.execLogDeviceSelfTest x cid ofst len s
  | .logAna x cid ofst len => Sys2Proof.Machine.execLogAna x cid ofst len s
  | .logChangedZoneList x cid nsid rae ofst len => Sys2Proof.Machine.execLogChangedZoneList x cid nsid rae ofst len s
  | .logTruss x cid ofst len => Sys2Proof.Machine.execLogTruss x cid ofst len s
  | .logUnitTable x cid ofst len => Sys2Proof.Machine.execLogUnitTable x cid ofst len s
  | .logEaveLayout x cid ofst len => Sys2Proof.Machine.execLogEaveLayout x cid ofst len s
  | .logThatchStatus x cid ofst len => Sys2Proof.Machine.execLogThatchStatus x cid ofst len s
  | .logLostRanges x cid ofst len => Sys2Proof.Machine.execLogLostRanges x cid ofst len s
  | .logHostInterfaceStats x cid ofst len => Sys2Proof.Machine.execLogHostInterfaceStats x cid ofst len s
  | .logMicrocodeStatus x cid ofst len => Sys2Proof.Machine.execLogMicrocodeStatus x cid ofst len s
  | .logEventStatus x cid rae ofst len => Sys2Proof.Machine.execLogEventStatus x cid rae ofst len s
  | .logTailRecorder x cid lsp ofst len => Sys2Proof.Machine.execLogTailRecorder x cid lsp ofst len s
  | .logTetherStatus x cid ofst len => Sys2Proof.Machine.execLogTetherStatus x cid ofst len s
  | .logDetectionStats x cid ofst len => Sys2Proof.Machine.execLogDetectionStats x cid ofst len s
  | .logSectorRecovery x cid ofst len => Sys2Proof.Machine.execLogSectorRecovery x cid ofst len s
  | .logServoWriteSafety x cid ofst len => Sys2Proof.Machine.execLogServoWriteSafety x cid ofst len s
  | .logBridleStats x cid ofst len => Sys2Proof.Machine.execLogBridleStats x cid ofst len s
  | .logSpindleAssist x cid ofst len => Sys2Proof.Machine.execLogSpindleAssist x cid ofst len s
  | .logAssistWear x cid ofst len => Sys2Proof.Machine.execLogAssistWear x cid ofst len s
  | .logPartnerStatus x cid ofst len => Sys2Proof.Machine.execLogPartnerStatus x cid ofst len s
  | .logOrphanedCompletions x cid lsp ofst len => Sys2Proof.Machine.execLogOrphanedCompletions x cid lsp ofst len s
  | .logUpdateRelay x cid ofst len => Sys2Proof.Machine.execLogUpdateRelay x cid ofst len s
  | .logFlashStatus x cid ofst len => Sys2Proof.Machine.execLogFlashStatus x cid ofst len s
  | .logMemoryError x cid ofst len => Sys2Proof.Machine.execLogMemoryError x cid ofst len s
  | .logCacheStats x cid ofst len => Sys2Proof.Machine.execLogCacheStats x cid ofst len s
  | .logRetirementTable x cid ofst len => Sys2Proof.Machine.execLogRetirementTable x cid ofst len s
  | .logBallastStatus x cid ofst len => Sys2Proof.Machine.execLogBallastStatus x cid ofst len s
  | .logBackgroundStatus x cid ofst len => Sys2Proof.Machine.execLogBackgroundStatus x cid ofst len s
  | .logThermalStatus x cid ofst len => Sys2Proof.Machine.execLogThermalStatus x cid ofst len s
  | .logPowerModes x cid ofst len => Sys2Proof.Machine.execLogPowerModes x cid ofst len s
  | .setUnitPowerPolicy x cid dw11 sv => Sys2Proof.Machine.execSetUnitPowerPolicy x cid dw11 sv s
  | .getUnitPowerPolicy x cid dw11 => Sys2Proof.Machine.execGetUnitPowerPolicy x cid dw11 s
  | .setCommandSlotReservation x cid dw11 sv => Sys2Proof.Machine.execSetCommandSlotReservation x cid dw11 sv s
  | .getCommandSlotReservation x cid => Sys2Proof.Machine.execGetCommandSlotReservation x cid s
  | .setZoneLayoutControl x cid dw11 sv => Sys2Proof.Machine.execSetZoneLayoutControl x cid dw11 sv s
  | .getZoneLayoutControl x cid => Sys2Proof.Machine.execGetZoneLayoutControl x cid s
  | .setEventRouting x cid dw11 dw12 sv => Sys2Proof.Machine.execSetEventRouting x cid dw11 dw12 sv s
  | .getEventRouting x cid dw11 => Sys2Proof.Machine.execGetEventRouting x cid dw11 s
  | .setTailSnapshotSelect x cid dw11 dw12 sv => Sys2Proof.Machine.execSetTailSnapshotSelect x cid dw11 dw12 sv s
  | .getTailSnapshotSelect x cid dw11 => Sys2Proof.Machine.execGetTailSnapshotSelect x cid dw11 s
  | .setTetherPortDisable x cid p sv => Sys2Proof.Machine.execSetTetherPortDisable x cid p sv s
  | .setTetherPortEnable x cid p sv => Sys2Proof.Machine.execSetTetherPortEnable x cid p sv s
  | .setTetherPortRetrain x cid p sv => Sys2Proof.Machine.execSetTetherPortRetrain x cid p sv s
  | .getTetherPortControl x cid p => Sys2Proof.Machine.execGetTetherPortControl x cid p s
  | .setDecodeScheduling x cid dw11 dw12 sv => Sys2Proof.Machine.execSetDecodeScheduling x cid dw11 dw12 sv s
  | .getDecodeScheduling x cid => Sys2Proof.Machine.execGetDecodeScheduling x cid s
  | .setReadRecoveryControl x cid dw11 sv => Sys2Proof.Machine.execSetReadRecoveryControl x cid dw11 sv s
  | .getReadRecoveryControl x cid => Sys2Proof.Machine.execGetReadRecoveryControl x cid s
  | .setWriteSafetyControl x cid dw11 dw12 sv => Sys2Proof.Machine.execSetWriteSafetyControl x cid dw11 dw12 sv s
  | .getWriteSafetyControl x cid => Sys2Proof.Machine.execGetWriteSafetyControl x cid s
  | .setControlSetOverride x cid dw11 sv => Sys2Proof.Machine.execSetControlSetOverride x cid dw11 sv s
  | .getControlSetOverride x cid p => Sys2Proof.Machine.execGetControlSetOverride x cid p s
  | .setSpindleRun x cid p index sv => Sys2Proof.Machine.execSetSpindleRun x cid p index sv s
  | .setSpindleStop x cid p sv => Sys2Proof.Machine.execSetSpindleStop x cid p sv s
  | .setSpindleReturnToPolicy x cid p sv => Sys2Proof.Machine.execSetSpindleReturnToPolicy x cid p sv s
  | .getSpindleControl x cid p => Sys2Proof.Machine.execGetSpindleControl x cid p s
  | .setPartnerControl x cid dw11 sv => Sys2Proof.Machine.execSetPartnerControl x cid dw11 sv s
  | .getPartnerControl x cid => Sys2Proof.Machine.execGetPartnerControl x cid s
  | .setCacheControl x cid dw11 dw12 sv => Sys2Proof.Machine.execSetCacheControl x cid dw11 dw12 sv s
  | .getCacheControl x cid => Sys2Proof.Machine.execGetCacheControl x cid s
  | .setBallastControl x cid dw11 dw12 sv => Sys2Proof.Machine.execSetBallastControl x cid dw11 dw12 sv s
  | .getBallastControl x cid => Sys2Proof.Machine.execGetBallastControl x cid s
  | .setBackgroundControl x cid dw11 dw12 sv => Sys2Proof.Machine.execSetBackgroundControl x cid dw11 dw12 sv s
  | .getBackgroundControl x cid => Sys2Proof.Machine.execGetBackgroundControl x cid s
  | .setThermalControl x cid dw11 dw12 sv => Sys2Proof.Machine.execSetThermalControl x cid dw11 dw12 sv s
  | .getThermalControl x cid => Sys2Proof.Machine.execGetThermalControl x cid s
  | .setModeControl x cid dw11 sv => Sys2Proof.Machine.execSetModeControl x cid dw11 sv s
  | .getModeControl x cid => Sys2Proof.Machine.execGetModeControl x cid s
  | .zoneLocate x cid nsid lba => Sys2Proof.Machine.execZoneLocate x cid nsid lba s
  | .tailControlFreeze x cid r => Sys2Proof.Machine.execTailControlFreeze x cid r s
  | .tailControlThaw x cid r => Sys2Proof.Machine.execTailControlThaw x cid r s
  | .tailControlClear x cid r => Sys2Proof.Machine.execTailControlClear x cid r s
  | .spindleServiceClear x cid p => Sys2Proof.Machine.execSpindleServiceClear x cid p s
  | .spindleServiceTest x cid p index => Sys2Proof.Machine.execSpindleServiceTest x cid p index s
  | .spindleTestEnd p => Sys2Proof.Machine.execSpindleTestEnd p s
  | .spindleServiceCalibrate x cid p q => Sys2Proof.Machine.execSpindleServiceCalibrate x cid p q s
  | .roleHandover x cid => Sys2Proof.Machine.execRoleHandover x cid s
  | .updateConfirm x cid same => Sys2Proof.Machine.execUpdateConfirm x cid same s
  | .pageRetire x cid page => Sys2Proof.Machine.execPageRetire x cid page s
  | .memoryCheckSingleBit x cid rgn => Sys2Proof.Machine.execMemoryCheckSingleBit x cid rgn s
  | .memoryCheckUncorrectable x cid rgn => Sys2Proof.Machine.execMemoryCheckUncorrectable x cid rgn s
  | .memoryCheckPoison x cid rgn => Sys2Proof.Machine.execMemoryCheckPoison x cid rgn s
  | .memoryCodeStore x cid regions banks0 banks1 => Sys2Proof.Machine.execMemoryCodeStore x cid regions banks0 banks1 s
  | .calibrateActuator x cid a one h => Sys2Proof.Machine.execCalibrateActuator x cid a one h s
  | .fetchEnWrite m value => Sys2Proof.Machine.execFetchEnWrite m value s
  | .hifSlotsRead m => Sys2Proof.Machine.execHifSlotsRead m s
  | .dramTempSample temp => Sys2Proof.Machine.execDramTempSample temp s
  | .mepFlipArm m value => Sys2Proof.Machine.execMepFlipArm m value s
  | .pageRetireGo m page => Sys2Proof.Machine.execPageRetireGo m page s
  | .pageRetireDone => Sys2Proof.Machine.execPageRetireDone s
  | .celogEntryFree m idx => Sys2Proof.Machine.execCelogEntryFree m idx s
  | .celogClear m => Sys2Proof.Machine.execCelogClear m s
  | .mepCodeLock m => Sys2Proof.Machine.execMepCodeLock m s
  | .cacheFillDone idx => Sys2Proof.Machine.execCacheFillDone idx s
  | .cacheWritebackDone idx => Sys2Proof.Machine.execCacheWritebackDone idx s
  | .prefetchIssue idx => Sys2Proof.Machine.execPrefetchIssue idx s
  | .cacheDisable m => Sys2Proof.Machine.execCacheDisable m s
  | .cacheDrainDone => Sys2Proof.Machine.execCacheDrainDone s
  | .cacheEnable m => Sys2Proof.Machine.execCacheEnable m s
  | .cacheInvalidate m => Sys2Proof.Machine.execCacheInvalidate m s
  | .cacheInvalidateDone => Sys2Proof.Machine.execCacheInvalidateDone s
  | .ledgerEvaluation code => Sys2Proof.Machine.execLedgerEvaluation code s
  | .shelfPfailAssert => Sys2Proof.Machine.execShelfPfailAssert s
  | .safeStagingStart => Sys2Proof.Machine.execSafeStagingStart s
  | .safeStagingDone => Sys2Proof.Machine.execSafeStagingDone s
  | .shelfPfailDeassert => Sys2Proof.Machine.execShelfPfailDeassert s
  | .safeExit => Sys2Proof.Machine.execSafeExit s
  | .vaonGood => Sys2Proof.Machine.execVaonGood s
  | .xtalStart => Sys2Proof.Machine.execXtalStart s
  | .mainPgRise pairPos => Sys2Proof.Machine.execMainPgRise pairPos s
  | .mainPgFall => Sys2Proof.Machine.execMainPgFall s
  | .watchWakeSource source => Sys2Proof.Machine.execWatchWakeSource source s
  | .pllUnlock k => Sys2Proof.Machine.execPllUnlock k s
  | .domainPowerGood n => Sys2Proof.Machine.execDomainPowerGood n s
  | .domainPowerFail n => Sys2Proof.Machine.execDomainPowerFail n s
  | .domainHoldWrite m idx value => Sys2Proof.Machine.execDomainHoldWrite m idx value s
  | .domainBlockWrite m idx value => Sys2Proof.Machine.execDomainBlockWrite m idx value s
  | .modeChoiceWindow => Sys2Proof.Machine.execModeChoiceWindow s
  | .modeForceWrite m v => Sys2Proof.Machine.execModeForceWrite m v s
  | .maintEntry => Sys2Proof.Machine.execMaintEntry s
  | .envelopeLimit samples => Sys2Proof.Machine.execEnvelopeLimit samples s
  | .pwrMeasRead m => Sys2Proof.Machine.execPwrMeasRead m s
  | .sysReset pairPos => Sys2Proof.Machine.execSysReset pairPos s
  | .softwareReset m value => Sys2Proof.Machine.execSoftwareReset m value s
  | .ridgeWatchdogExpire => Sys2Proof.Machine.execRidgeWatchdogExpire s
  | .wdogKick m => Sys2Proof.Machine.execWdogKick m s
  | .uptimeWrap => Sys2Proof.Machine.execUptimeWrap s
  | .vbandChange band => Sys2Proof.Machine.execVbandChange band s
  | .vcoreUndervoltage => Sys2Proof.Machine.execVcoreUndervoltage s
  | .debugAttach attach => Sys2Proof.Machine.execDebugAttach attach s
  | .romImageCheck res0 res1 partner => Sys2Proof.Machine.execRomImageCheck res0 res1 partner s
  | .peerImageServe => Sys2Proof.Machine.execPeerImageServe s
  | .dramTrainingDone chUp => Sys2Proof.Machine.execDramTrainingDone chUp s
  | .roleSettleWindowEnd => Sys2Proof.Machine.execRoleSettleWindowEnd s
  | .powerPolicyEvaluation loads => Sys2Proof.Machine.execPowerPolicyEvaluation loads s
  | .taskCreditTick => Sys2Proof.Machine.execTaskCreditTick s
  | .actuatorCommandBoundary a waiting used revs => Sys2Proof.Machine.execActuatorCommandBoundary a waiting used revs s
  | .urgentSlotEnd a dur => Sys2Proof.Machine.execUrgentSlotEnd a dur s
  | .fetchPause x => Sys2Proof.Machine.execFetchPause x s
  | .taskUnitScrub a ok => Sys2Proof.Machine.execTaskUnitScrub a ok s
  | .taskUnitCal a pass gain dt wref rref widths mon => Sys2Proof.Machine.execTaskUnitCal a pass gain dt wref rref widths mon s
  | .taskUnitMove p ok => Sys2Proof.Machine.execTaskUnitMove p ok s
  | .taskUnitDestage p ok => Sys2Proof.Machine.execTaskUnitDestage p ok s
  | .taskUnitWear p => Sys2Proof.Machine.execTaskUnitWear p s
  | .taskUnitPatrol errs => Sys2Proof.Machine.execTaskUnitPatrol errs s
  | .taskUnitFlash differ ce => Sys2Proof.Machine.execTaskUnitFlash differ ce s
  | .taskUnitTelem => Sys2Proof.Machine.execTaskUnitTelem s
  | .tempSample temps => Sys2Proof.Machine.execTempSample temps s
  | .sensorTimeout source => Sys2Proof.Machine.execSensorTimeout source s
  | .dieTempSample temps => Sys2Proof.Machine.execDieTempSample temps s
  | .thermalTrip => Sys2Proof.Machine.execThermalTrip s
  | .mechB5Unload p => Sys2Proof.Machine.execMechB5Unload p s
  | .calibrationItemDone a pass v1 v2 widths => Sys2Proof.Machine.execCalibrationItemDone a pass v1 v2 widths s
  | .calqWrite m hi value => Sys2Proof.Machine.execCalqWrite m hi value s
  | .nop q => Sys2Proof.Machine.execNop q s
  | .ret q => Sys2Proof.Machine.execRet q s
  | .disp q => Sys2Proof.Machine.execDisp q s
  | .haltpt q => Sys2Proof.Machine.execHaltpt q s
  | .done q => Sys2Proof.Machine.execDone q s
  | .ldi q => Sys2Proof.Machine.execLdi q s
  | .ldh q => Sys2Proof.Machine.execLdh q s
  | .aluAdd q => Sys2Proof.Machine.execAluAdd q s
  | .aluSub q => Sys2Proof.Machine.execAluSub q s
  | .aluAnd q => Sys2Proof.Machine.execAluAnd q s
  | .aluOr q => Sys2Proof.Machine.execAluOr q s
  | .aluXor q => Sys2Proof.Machine.execAluXor q s
  | .aluMov q => Sys2Proof.Machine.execAluMov q s
  | .aluInc q => Sys2Proof.Machine.execAluInc q s
  | .aluDec q => Sys2Proof.Machine.execAluDec q s
  | .aluShl q => Sys2Proof.Machine.execAluShl q s
  | .aluShr q => Sys2Proof.Machine.execAluShr q s
  | .aluCmp q => Sys2Proof.Machine.execAluCmp q s
  | .aluTst q => Sys2Proof.Machine.execAluTst q s
  | .aluAddc q => Sys2Proof.Machine.execAluAddc q s
  | .aluSubc q => Sys2Proof.Machine.execAluSubc q s
  | .aluNot q => Sys2Proof.Machine.execAluNot q s
  | .aluClr q => Sys2Proof.Machine.execAluClr q s
  | .brc q => Sys2Proof.Machine.execBrc q s
  | .brn q => Sys2Proof.Machine.execBrn q s
  | .jmp q => Sys2Proof.Machine.execJmp q s
  | .call q => Sys2Proof.Machine.execCall q s
  | .dly q => Sys2Proof.Machine.execDly q s
  | .wait z => Sys2Proof.Machine.execWait z s
  | .waitTimeout z t => Sys2Proof.Machine.execWaitTimeout z t s
  | .memLoad q => Sys2Proof.Machine.execMemLoad q s
  | .memStore q => Sys2Proof.Machine.execMemStore q s
  | .send z work => Sys2Proof.Machine.execSend z work s
  | .illegalMicroword q parity => Sys2Proof.Machine.execIllegalMicroword q parity s
  | .portLanes f => Sys2Proof.Machine.execPortLanes f s
  | .portWgate f => Sys2Proof.Machine.execPortWgate f s
  | .portRdwin f => Sys2Proof.Machine.execPortRdwin f s
  | .portWflit f => Sys2Proof.Machine.execPortWflit f s
  | .portPrecomp f => Sys2Proof.Machine.execPortPrecomp f s
  | .portCnt0 f => Sys2Proof.Machine.execPortCnt0 f s
  | .portCnt1 f => Sys2Proof.Machine.execPortCnt1 f s
  | .portStatus f => Sys2Proof.Machine.execPortStatus f s
  | .portRung f => Sys2Proof.Machine.execPortRung f s
  | .portAdmit z => Sys2Proof.Machine.execPortAdmit z s
  | .portXfer z => Sys2Proof.Machine.execPortXfer z s
  | .portMirror z => Sys2Proof.Machine.execPortMirror z s
  | .portCommit z => Sys2Proof.Machine.execPortCommit z s
  | .portJournal z => Sys2Proof.Machine.execPortJournal z s
  | .portEncode z t => Sys2Proof.Machine.execPortEncode z t s
  | .portTimer z => Sys2Proof.Machine.execPortTimer z s
  | .outUnlistedPort q => Sys2Proof.Machine.execOutUnlistedPort q s
  | .inSect f => Sys2Proof.Machine.execInSect f s
  | .inTrack f => Sys2Proof.Machine.execInTrack f s
  | .inRes f => Sys2Proof.Machine.execInRes f s
  | .inSync f => Sys2Proof.Machine.execInSync f s
  | .inInh f => Sys2Proof.Machine.execInInh f s
  | .inWedge f => Sys2Proof.Machine.execInWedge f s
  | .inCmd z => Sys2Proof.Machine.execInCmd z s
  | .inOpc z => Sys2Proof.Machine.execInOpc z s
  | .inSlbaLo z => Sys2Proof.Machine.execInSlbaLo z s
  | .inSlbaHi z => Sys2Proof.Machine.execInSlbaHi z s
  | .inNlb z => Sys2Proof.Machine.execInNlb z s
  | .inUnlistedPort q => Sys2Proof.Machine.execInUnlistedPort q s
  | .zoneFlowStart x sqid cid => Sys2Proof.Machine.execZoneFlowStart x sqid cid s
  | .fHaltWrite m hi value => Sys2Proof.Machine.execFHaltWrite m hi value s
  | .zHaltWrite m v => Sys2Proof.Machine.execZHaltWrite m v s
  | .zmapWrite m v => Sys2Proof.Machine.execZmapWrite m v s
  | .sequencerRestart m q => Sys2Proof.Machine.execSequencerRestart m q s
  | .patchRamWrite m zone w value => Sys2Proof.Machine.execPatchRamWrite m zone w value s
  | .matchRegisterWrite m zone idx value => Sys2Proof.Machine.execMatchRegisterWrite m zone idx value s
  | .peerHeartbeatSend => Sys2Proof.Machine.execPeerHeartbeatSend s
  | .peerHeartbeatReceive role health => Sys2Proof.Machine.execPeerHeartbeatReceive role health s
  | .resyncDone => Sys2Proof.Machine.execResyncDone s
  | .partnerJudgement => Sys2Proof.Machine.execPartnerJudgement s
  | .takeoverAcquireRetry => Sys2Proof.Machine.execTakeoverAcquireRetry s
  | .ownershipConflict => Sys2Proof.Machine.execOwnershipConflict s
  | .mirrorStreamReceive f => Sys2Proof.Machine.execMirrorStreamReceive f s
  | .standbySelftestCycle failed => Sys2Proof.Machine.execStandbySelftestCycle failed s
  | .handoverStart m => Sys2Proof.Machine.execHandoverStart m s
  | .handoverQuietDone => Sys2Proof.Machine.execHandoverQuietDone s
  | .handoverSyncDone => Sys2Proof.Machine.execHandoverSyncDone s
  | .loopRecordReceive slots spindles => Sys2Proof.Machine.execLoopRecordReceive slots spindles s
  | .handoverDone us => Sys2Proof.Machine.execHandoverDone us s
  | .relayChunk f => Sys2Proof.Machine.execRelayChunk f s
  | .relayEnd f => Sys2Proof.Machine.execRelayEnd f s
  | .relayStatus f => Sys2Proof.Machine.execRelayStatus f s
  | .fwKeyRevoke m slots => Sys2Proof.Machine.execFwKeyRevoke m slots s
  | .mbxDataWrite m c w v => Sys2Proof.Machine.execMbxDataWrite m c w v s
  | .mbxDbSet m c bits => Sys2Proof.Machine.execMbxDbSet m c bits s
  | .mbxDbClear m c bits => Sys2Proof.Machine.execMbxDbClear m c bits s
  | .mbxBindWrite m c value => Sys2Proof.Machine.execMbxBindWrite m c value s
  | .mbxLock m => Sys2Proof.Machine.execMbxLock m s
  | .mbxPartyRst m => Sys2Proof.Machine.execMbxPartyRst m s
  | .smbusClockLowReset => Sys2Proof.Machine.execSmbusClockLowReset s
  | .mctpMbxRead msg => Sys2Proof.Machine.execMctpMbxRead msg s
  | .mctpMbxWrite msg => Sys2Proof.Machine.execMctpMbxWrite msg s
  | .mbxQcsRead c => Sys2Proof.Machine.execMbxQcsRead c s
  | .mbxQcsWrite c => Sys2Proof.Machine.execMbxQcsWrite c s
  | .mbxGetFeature c => Sys2Proof.Machine.execMbxGetFeature c s
  | .mbxSetFeature c => Sys2Proof.Machine.execMbxSetFeature c s
  | .mbxLogRead c => Sys2Proof.Machine.execMbxLogRead c s
  | .mbxInvalidCommand c => Sys2Proof.Machine.execMbxInvalidCommand c s
  | .eventSourceRise src => Sys2Proof.Machine.execEventSourceRise src s
  | .evtPendClear m n mask => Sys2Proof.Machine.execEvtPendClear m n mask s
  | .smbusAlertResponse => Sys2Proof.Machine.execSmbusAlertResponse s
  | .tailFreezeWrite m r v => Sys2Proof.Machine.execTailFreezeWrite m r v s
  | .tailClear m r freeze => Sys2Proof.Machine.execTailClear m r freeze s
  | .flashProgram m value bad => Sys2Proof.Machine.execFlashProgram m value bad s
  | .flashErase m value => Sys2Proof.Machine.execFlashErase m value s
  | .flashPageRead m value ce ue weak => Sys2Proof.Machine.execFlashPageRead m value ce ue weak s
  | .flashProgramPulseDone verified => Sys2Proof.Machine.execFlashProgramPulseDone verified s
  | .flashErasePulseDone verified => Sys2Proof.Machine.execFlashErasePulseDone verified s
  | .cqHeadDoorbellWrite x qid head => Sys2Proof.Machine.execCqHeadDoorbellWrite x qid head s
  | .sectorStart a pos => Sys2Proof.Machine.execSectorStart a pos s
  | .vaonLoss => Sys2Proof.Machine.execVaonLoss s
  | .pllLock k => Sys2Proof.Machine.execPllLock k s
  | .bridleClockStop => Sys2Proof.Machine.execBridleClockStop s
  | .threadTimerExpiry z t => Sys2Proof.Machine.execThreadTimerExpiry z t s
  | .keepAliveTimerExpiry x => Sys2Proof.Machine.execKeepAliveTimerExpiry x s
  | .d3hotExit x => Sys2Proof.Machine.execD3hotExit x s

end Sys2Proof.Machine
end

