-- ==== Sys2Proof/Machine/Step.lean ====
section
/-! DEFINITION. The step of the block: the command at the front of the queue runs with the queue's rest; on an empty queue a
millisecond of PWR_UPTIME passes. And the placing of a command that a word spells. -/
namespace Sys2Proof.Machine
open Sys2Proof

/-- One step (log entry 9). -/
def step (s : State) : Host.Outcome State Fault Refusal :=
  match s.pending with
  | [] => .next (uptimeTick s)
  | c :: rest => exec c { s with pending := rest }

/-- The state with the command that the word spells at the front of its queue; unchanged where it spells none. -/
def State.withFetchWord (s : State) (nbits w : Nat) : State :=
  match Sys2Proof.decodeTableWord nbits w with
  | some c => { s with pending := c :: s.pending }
  | none => s

end Sys2Proof.Machine
end

