-- ==== Sys2Proof/Safety.lean ====
section
/-! DEFINITION. What holds of every state the device can be in, as the statements use it: the register file's canonical
form, and the sizes that the specification gives the recorders, the Error Information log and the relay status list. -/
namespace Sys2Proof.Machine
open Sys2Proof

/-- The register file is in canonical form (log entry 1): addresses strictly rising, no entry equal to the value its
register has after reset. -/
def RegsWf (t : Tab Word) : Prop := t.Pairwise (fun x y => x.1 < y.1) ∧ ∀ x ∈ t, x.2 ≠ resetWord x.1

/-- The invariant of the device: the register file is canonical (R9, R17), a recorder holds at most 2,048 records (R418),
the Error Information log at most 64 entries (R260), and the relay status list at most 64 (R405). -/
structure Inv (s : State) : Prop where
  regs : RegsWf s.regs
  tails : ∀ x ∈ s.evt.tails, x.2.length ≤ 2048
  errLog : s.host.errLog.length ≤ 64
  status : s.prt.status.length ≤ 64

/-- In state `s` the command `c` answers a next state, and `P` holds of it. -/
def Does (c : Instr) (s : State) (P : State → Prop) : Prop := ∃ t, exec c s = .next t ∧ P t

/-- The registers of the event router and of the Tail recorders, which every event may change. -/
def routerReg (a : Nat) : Bool := decide (0x0300000 ≤ a) && decide (a < 0x0500000)

/-- From `s` to `t` no register changes but those at the addresses in `l`, and the router's and recorders'. -/
def RegsOnly (l : List Nat) (s t : State) : Prop :=
  ∀ a, homeAddr a ∉ l.map homeAddr → routerReg a = false → rd t a = rd s a

/-- From `s` to `t` nothing changes but registers, what was sent, the count of free values and the router's lists. -/
def RestSame (s t : State) : Prop := t = { s with regs := t.regs, out := t.out, free := t.free, evt := t.evt }

/-- The frame of a command: the registers in `l`, and what an event brings with it, and nothing else. -/
def Only (l : List Nat) (s t : State) : Prop := RegsOnly l s t ∧ RestSame s t ∧ s.out <:+ t.out

/-- The turn of the I/O command `c`, of opcode `opc`, has come: it is fetched on this queue and not yet started, its
namespace is attached to its controller, the namespace's unit is neither ABSENT nor FAILED nor fenced, and no Zone Management
Send of that zone is ahead of it (R59, R264, R269). -/
def Due (s : State) (x : HPort) (sqid cid : BitVec 16) (opc : Nat) (c : Cmd) : Bool :=
  findCmd s (portId x) sqid.toNat cid.toNat == some c && !c.started && c.fail.isNone && c.opc == opc &&
    attached s c.port c.nsid && !zmsAhead s c &&
    (nsUnit s c.nsid).any fun u => !fenced s u && uState s u != 0 && uState s u != 5

/-- A request of code `op` by master `m` waits in the even channel `c` for the firmware: the channel is bound, a Ridge core
receives, the message bit is set, and no collision spoils it (R414, R415). -/
def Asked (s : State) (c op : Nat) (m : Master) : Bool :=
  let r := fget s (MBX_BIND c) MBX_BIND_RECEIVER
  c % 2 == 0 && mbxBound s c && decide (8 ≤ r ∧ r ≤ 11) && mbxFull s c && (mbxBytes s c).getD 0 0 == op &&
    !fbit s (MBX_CH_STAT c) MBX_CH_STAT_COLL && masterOf (fget s (MBX_BIND c) MBX_BIND_SENDER) == some m

/-- `n` steps lead from `s` to `t`: no command of that run stops the device. -/
def RunTo (n : Nat) (s t : State) : Prop :=
  match n with
  | 0 => t = s
  | n + 1 => ∃ u, step s = .next u ∧ RunTo n u t

end Sys2Proof.Machine
end

