-- ==== Sys2Proof/Certificates/Slice0/Obligations.lean ====
section
/-! DEFINITION. The statements about the device: what a step is, the invariant, the frame of the router, five rules word for
word, and for every command of the opcode table the state in which its own effect leaves the device. -/
section
open Sys2Proof Sys2Proof.Machine

/-- O1. With a command at the front of the queue, a step is that command's effect on the state with the queue's rest. (From
00_scope.md.) -/
def Obligations.StepRunsTheFront : Prop :=
  ∀ (c : Instr) (l : List Instr) (s : State),
    step { s with pending := c :: l } = exec c { s with pending := l }

/-- O2. The model's choice (log entry 9): on an empty queue a step advances PWR_UPTIME by one millisecond, the counter wraps
to 0, and nothing happens while the always-on domain has no power. (From 13_power_clocks_modes.md, R464.) -/
def Obligations.EmptyQueueIdles : Prop :=
  ∀ s : State, s.pending = [] →
    (s.pwr.vaon = true → uptime s + 1 < 2 ^ 32 → step s = .next (wrN s PWR_UPTIME (uptime s + 1))) ∧
    (s.pwr.vaon = true → uptime s + 1 = 2 ^ 32 → mode s ≠ 0 → mode (wrN s PWR_UPTIME 0) ≠ 0 →
      step s = .next (evtSet (wrN s PWR_UPTIME 0) .pwr PWR_EVT_UPTIME_WRAP)) ∧
    (s.pwr.vaon = false → step s = .next s)

/-- O3. After reset the register file is canonical and the recorders, the Error Information log and the relay status list are
within their sizes; nothing waits and nothing has been sent. (From R17, R418, R260, R405.) -/
def Obligations.ResetHasInvariant : Prop :=
  Inv State.reset ∧ State.reset.pending = [] ∧ State.reset.out = []

/-- O4. From every state in which the register file is canonical, each recorder holds at most 2,048 records, the Error
Information log at most 64 entries and the relay status list at most 64, every step leads to such a state, whatever
command it runs. (From R9, R17, R260, R405, R418.) -/
def Obligations.StepKeepsInvariant : Prop :=
  ∀ s t : State, Inv s → step s = .next t → Inv t

/-- O5. Every command answers a next state in every state, leaves the queue alone, and only adds to what has left the device;
so a run of any length goes on, and a run as long as the queue leads to the end of the queue. (From R16, R260, R364.) -/
def Obligations.EveryCommandAnswers : Prop :=
  (∀ (c : Instr) (s : State), ∃ t, exec c s = .next t ∧ t.pending = s.pending ∧ s.out <:+ t.out) ∧
  (∀ (n : Nat) (s : State), ∃ t, RunTo n s t) ∧
  (∀ s : State, ∃ t, RunTo s.pending.length s t ∧ t.pending = [] ∧ s.out <:+ t.out)

/-- O6. Setting an event bit of a block sets that bit and changes no register but the block's event register and those of the
event router and the recorders, and nothing else of the device. (From R18, R416, R417, R419.) -/
def Obligations.EventsReachTheRouter : Prop :=
  ∀ (b : EvtBlk) (i : Nat) (s : State), (∀ x ∈ evtSources b, x.1 < 640) →
    Only [evtAddr b] s (evtSet s b i) ∧
    (b ≠ .evt → b ≠ .tail → i < 32 → bitOf (rd (evtSet s b i) (evtAddr b)) i = true)

/-- O7. The rise of a level source that is asserted, or a pulse of sources 3, 5, 6 and 7, sets the source's bit of EVT_PEND,
whether or not delivery is enabled; every pending bit stays; and no register outside the router and the recorders changes.
(From R416, R417, R419.) -/
def Obligations.RisesArePended : Prop :=
  ∀ (n : Fin 640) (s : State), srcLevel s n = true ∨ [3, 5, 6, 7].contains n.val = true →
    Does (.eventSourceRise n) s fun t => bitOf (rd t (EVT_PEND (n / 32))) (n % 32) = true ∧
      (∀ j k, j < 20 → bitOf (rd s (EVT_PEND j)) k = true → bitOf (rd t (EVT_PEND j)) k = true) ∧ Only [] s t

/-- O8. An access to an offset that no block defines, and one that is not aligned to its width, reads as 0 or is discarded,
raises source 3 with the master's identity and the offset, and changes no register but those of the event router and the
recorders. (From R10, R16, R42.) -/
def Obligations.UndefinedAccesses : Prop :=
  ∀ (m : Master) (a : Nat) (wd : Width) (s : State),
    (accessUndefined s m a = true → ∀ w, Does (.qcsUndefinedAccess m a w) s fun t =>
      Only [] s t ∧ bitOf (rd t (EVT_PEND 0)) 3 = true ∧ t.evt.undefBy = some (masterId m, a) ∧
        (w = false → (.readData m a 0 :: s.out) <:+ t.out)) ∧
    (alignedFor wd a = false → ∀ w, Does (.misalignedQcsAccess m a wd w) s fun t =>
      Only [] s t ∧ bitOf (rd t (EVT_PEND 0)) 3 = true ∧ t.evt.undefBy = some (masterId m, a) ∧
        (w = false → (.readData m a 0 :: s.out) <:+ t.out))

/-- O9. A write to a channel by a master that has no right to the register changes no register but MBX_VIOLS, MBX_EVT and
those of the event router and the recorders: no channel loses a word, a doorbell bit or a mask to it. (From R409.) -/
def Obligations.MailboxViolations : Prop :=
  ∀ (m : Master) (c : Fin 64) (s : State),
    (mbxSender s m c = false → ∀ (i : Fin 16) (v : Word),
      Does (.mbxDataWrite m c i v) s (Only [MBX_VIOLS, MBX_EVT] s) ∧ Does (.mbxDbSet m c v) s (Only [MBX_VIOLS, MBX_EVT] s)) ∧
    (mbxReceiver s m c = false → ∀ v : Word, Does (.mbxDbClear m c v) s (Only [MBX_VIOLS, MBX_EVT] s))

/-- O10. A Get Log Page of each page and a Get Features of each vendor feature completes in every state and changes no
register but the port's count of completions, and, where that count sets one, an event bit with what the router does with
it. (From R65, R249, R280, R281, R362, R423.) -/
def Obligations.ReadingChangesNoRegister : Prop :=
  (∀ (x : HPort) (cid : BitVec 16) (ofst len : BitVec 32) (s : State) (c : Instr),
      c ∈ [.logErrorInformation x cid ofst len,
        .logFirmwareSlot x cid ofst len,
        .logCommandsSupported x cid ofst len,
        .logDeviceSelfTest x cid ofst len,
        .logAna x cid ofst len,
        .logTruss x cid ofst len,
        .logUnitTable x cid ofst len,
        .logEaveLayout x cid ofst len,
        .logThatchStatus x cid ofst len,
        .logLostRanges x cid ofst len,
        .logHostInterfaceStats x cid ofst len,
        .logMicrocodeStatus x cid ofst len,
        .logTetherStatus x cid ofst len,
        .logDetectionStats x cid ofst len,
        .logSectorRecovery x cid ofst len,
        .logServoWriteSafety x cid ofst len,
        .logBridleStats x cid ofst len,
        .logSpindleAssist x cid ofst len,
        .logAssistWear x cid ofst len,
        .logPartnerStatus x cid ofst len,
        .logUpdateRelay x cid ofst len,
        .logFlashStatus x cid ofst len,
        .logMemoryError x cid ofst len,
        .logCacheStats x cid ofst len,
        .logRetirementTable x cid ofst len,
        .logBallastStatus x cid ofst len,
        .logBackgroundStatus x cid ofst len,
        .logThermalStatus x cid ofst len,
        .logPowerModes x cid ofst len] →
      Does c s (RegsOnly [HIF_PORT_CNT (portId x) 0, HIF_EVT] s)) ∧
  (∀ (x : HPort) (cid : BitVec 16) (nsid ofst len : BitVec 32) (s : State),
      Does (.logSmartHealth x cid nsid ofst len) s (RegsOnly [HIF_PORT_CNT (portId x) 0, HIF_EVT] s)) ∧
  (∀ (x : HPort) (cid : BitVec 16) (rae : Bool) (ofst len : BitVec 32) (s : State) (c : Instr),
      c ∈ [.logChangedNamespaceList x cid rae ofst len,
        .logEventStatus x cid rae ofst len] →
      Does c s (RegsOnly [HIF_PORT_CNT (portId x) 0, HIF_EVT] s)) ∧
  (∀ (x : HPort) (cid : BitVec 16) (nsid : BitVec 32) (rae : Bool) (ofst len : BitVec 32) (s : State),
      Does (.logChangedZoneList x cid nsid rae ofst len) s (RegsOnly [HIF_PORT_CNT (portId x) 0, HIF_EVT] s)) ∧
  (∀ (x : HPort) (cid : BitVec 16) (lsp : BitVec 7) (ofst len : BitVec 32) (s : State) (c : Instr),
      c ∈ [.logTailRecorder x cid lsp ofst len,
        .logOrphanedCompletions x cid lsp ofst len] →
      Does c s (RegsOnly [HIF_PORT_CNT (portId x) 0, HIF_EVT] s)) ∧
  (∀ (x : HPort) (cid : BitVec 16) (dw11 : Word) (s : State) (c : Instr),
      c ∈ [.getUnitPowerPolicy x cid dw11,
        .getEventRouting x cid dw11,
        .getTailSnapshotSelect x cid dw11] →
      Does c s (RegsOnly [HIF_PORT_CNT (portId x) 0, HIF_EVT] s)) ∧
  (∀ (x : HPort) (cid : BitVec 16) (s : State) (c : Instr),
      c ∈ [.getCommandSlotReservation x cid,
        .getZoneLayoutControl x cid,
        .getDecodeScheduling x cid,
        .getReadRecoveryControl x cid,
        .getWriteSafetyControl x cid,
        .getPartnerControl x cid,
        .getCacheControl x cid,
        .getBallastControl x cid,
        .getBackgroundControl x cid,
        .getThermalControl x cid,
        .getModeControl x cid] →
      Does c s (RegsOnly [HIF_PORT_CNT (portId x) 0, HIF_EVT] s)) ∧
  (∀ (x : HPort) (cid : BitVec 16) (p : Fin 32) (s : State) (c : Instr),
      c ∈ [.getTetherPortControl x cid p,
        .getControlSetOverride x cid p,
        .getSpindleControl x cid p] →
      Does c s (RegsOnly [HIF_PORT_CNT (portId x) 0, HIF_EVT] s))

/-- O11. When an occurrence has the source of the last record and the same snapshot, and the recorder is not frozen, the last
record's REPEAT is incremented and its LAST set, with no new record; once REPEAT is 65,535 the occurrence counts in
DROPPED; a full recorder makes no difference. (Formalises R420.) -/
def Obligations.RepeatRule : Prop :=
  ∀ (src r : Nat) (l : List TailRec) (x : TailRec) (s : State),
    fbit s (TAIL_CTRL r) TAIL_CTRL_FREEZE = false → tailRecs s r = l ++ [x] → x.source = src → x.snap = tailSnap s r →
      (x.rep < 65535 → tailRecord s src r = tailSet s r (l ++ [{ x with rep := x.rep + 1, last := uptime s }])) ∧
      (65535 ≤ x.rep → tailRecord s src r = cntQuiet s (TAIL_DROPPED r) 1 .tail TAIL_EVT_SAT)

/-- O12. A program or an erase started on a retired block ends at once with RESULT 4, one on a block of the firmware area of
the active bank with RESULT 5 (on a block that is both, the model answers 4: log entry 19), with no job left running; a
page read of such a block ends with RESULT 0 as of any other. The flash controller's power domain 473 has not failed:
while it has, a command waits (EventsTailsAndFlash states it, log entry 55). (Formalises R434.) -/
def Obligations.RetiredAndProtectedBlocks : Prop :=
  ∀ (m : Master) (v : Word) (s : State), qcsReach s m FLS_CMD = true → fbit s FLS_STAT FLS_STAT_BUSY = false →
    domFailed s 473 = false →
    (∀ (x : Bool) (n : Nat),
      (fbit s (FLS_ECNT (getF v FLS_CMD_PAGE / 256)) FLS_ECNT_RETIRED = true ∧ n = 4) ∨
      (fbit s (FLS_ECNT (getF v FLS_CMD_PAGE / 256)) FLS_ECNT_RETIRED = false ∧ n = 5 ∧
        (fget s PRT_FW PRT_FW_ACTIVE_BANK = 0 ∧ getF v FLS_CMD_PAGE / 256 < 196 ∨
          fget s PRT_FW PRT_FW_ACTIVE_BANK = 1 ∧ 256 ≤ getF v FLS_CMD_PAGE / 256 ∧ getF v FLS_CMD_PAGE / 256 < 452)) →
      ∀ c ∈ [.flashProgram m v x, .flashErase m v], Does c s fun t =>
        fget t FLS_STAT FLS_STAT_RESULT = n ∧ fbit t FLS_STAT FLS_STAT_BUSY = false ∧
          fbit t FLS_STAT FLS_STAT_DONE = true ∧ t.fls = { s.fls with job := none }) ∧
    (∀ ce ue weak : BitVec 16, Does (.flashPageRead m v ce ue weak) s fun t =>
        fget t FLS_STAT FLS_STAT_RESULT = 0 ∧ fbit t FLS_STAT FLS_STAT_BUSY = false ∧
          fbit t FLS_STAT FLS_STAT_DONE = true)

/-- O13. A good WRITE flit that is not late and a good CMD flit act only from the port that owns the front-end and with its
epoch: the write's head is written to and the command's entries wait; every other one is discarded, and reported in
telemetry; heartbeats count from both ports; a change of the owner discards the entries and the bits of accepted flits
that still wait. (Formalises R94.) -/
def Obligations.OwnerFlits : Prop :=
  ∀ (p : Fin 32) (side : Fin 2) (f : Flit) (s : State),
    let x := feOf s p
    (flitTaken f 8 = true → feOwns x side = true → f.epoch.toNat = x.epoch →
      Does (.feWriteFlit p side f false) s fun t => t = setFe s p fun x => { feLane x side with
        wpend := if x.wpend.contains (f.chan.toNat % 8) then x.wpend else x.wpend ++ [f.chan.toNat % 8]
        writeGate := x.writeGate ||| 2 ^ (f.chan.toNat % 8)
        skip := if decide (f.flags.toNat % 2 = 1) && decide ((feOf s p).inh / 2 ^ (f.chan.toNat % 8) % 2 = 0) &&
            (side.val != feSide s p || sectorFree s (2 * p + f.chan.toNat % 8 / 4) (f.chan.toNat % 8 % 4) f.tstamp.toNat)
          then maskOff x.skip (2 ^ (f.chan.toNat % 8)) else x.skip }) ∧
    (flitTaken f 9 = true → feOwns x side = true → f.epoch.toNat = x.epoch →
      Does (.feCmdFlit p side f) s fun t => t = setFe s p fun x => { feLane x side with
        pend := x.pend ++ [⟨x.epoch, cmdEntries (flitBytes f)⟩] }) ∧
    (feOwns x side = false ∨ f.epoch.toNat ≠ x.epoch → ∀ late,
      (flitTaken f 8 = true → Does (.feWriteFlit p side f late) s fun t =>
        t = emit (setFe s p fun x => feLane x side) (.feReport p 1)) ∧
      (flitTaken f 9 = true → Does (.feCmdFlit p side f) s fun t =>
        t = emit (setFe s p fun x => feLane x side) (.feReport p 1))) ∧
    (flitTaken f 0xB = true → Does (.feHbFlit p side f) s fun t =>
      t = setFe (setFe s p fun x => feLane x side) p fun x => feRun x side true) ∧
    (feOwns x side = true → ∀ c ∈ [.feRelease p side, .feHandoff p side], Does c s fun t =>
      (feOf t p).pend = [] ∧ (feOf t p).wpend = []) ∧
    (x.owner = 0 → Does (.feAcquire p side) s fun t => (feOf t p).pend = [] ∧ (feOf t p).wpend = [])

/-- O14. Training that would end, the downstream lane and an enabled upstream lane being good, ends in FAULT with FAULT_WHY 3
when the identity block states fewer than 32 credits; else training goes on with that number, and with 255 where it is
above 255. (Formalises R78.) -/
def Obligations.CreditBuffer : Prop :=
  ∀ (p : Fin 32) (up : BitVec 4) (s : State), portState s p = 4 → enabledLanes s p up.toNat ≠ 0 →
    fbit s (TTH_CTRL p) TTH_CTRL_DN_EN = true → domOn s (11 + p) = true → domOn s (43 + p) = true →
    (identField s p 16 2 < 32 → Does (.tetherTrainingDone p up true) s fun t =>
      portState t p = 9 ∧ fget t (TTH_LINK_STAT p) TTH_LINK_STAT_FAULT_WHY = 3) ∧
    (∀ n, 32 ≤ identField s p 16 2 → n = (if 255 < identField s p 16 2 then 255 else identField s p 16 2) →
      Does (.tetherTrainingDone p up true) s fun t =>
        t = trained (setTth (fset (fset (setLanes s p (enabledLanes s p up.toNat) true) (TTH_CREDIT p) TTH_CREDIT_LIMIT n)
          (TTH_CREDIT p) TTH_CREDIT_AVAIL n) p fun x => { x with lastCred := 0 }) p)

/-- O15. After reset the sixteen rungs of every actuator hold the ladder of Table 5-6. (Formalises R145.) -/
def Obligations.DefaultLadder : Prop :=
  ∀ (a : Fin 64) (r : Fin 16), rd State.reset (ACT_LAD a r) =
    [0x0100000C, 0x1200403C, 0x0000800C, 0x00038004, 0x00058004, 0x00078004, 0x0000A80C, 0x0000B00C, 0x0000B80C,
      0x20000000, 0x30000000, 0x40000000, 0xF0000000, 0xF0000000, 0xF0000000, 0xF0000000].getD r 0

/-- O16. A 32-bit write stores by the access codes of its register, a 64-bit write is its two words, low first, and a write of
one or two bytes is discarded; an access that reaches no register, and one that breaks the alignment rules, is answered as
R16 lays down; a read returns what the register shows and clears its RC fields, and the low word of a 64-bit register
latches the high word for the same master. Each clause concludes that the command answers a next state, under hypotheses
on the state and the operands alone. Completes: registerWrite, qcsUndefinedAccess, misalignedQcsAccess,
wideRegisterLowRead, rcFieldRead. (From R9, R10, R11, R12, R13, R16.) -/
def Obligations.RegisterAccess : Prop :=
  (∀ (m : Master) (a : Nat) (v : BitVec 64) (s : State), a % 4 = 0 → accessUndefined s m a = false →
    exec (.registerWrite m a .b4 v) s = .next (storeWord (dropLatch s m a) m (homeAddr a) (v.setWidth 32))) ∧
  (∀ (m : Master) (a : Nat) (v : BitVec 64) (s : State), accessUndefined s m a = false →
    exec (.registerWrite m a .b1 v) s = .next s) ∧
  (∀ (m : Master) (a : Nat) (v : BitVec 64) (s : State), a % 2 = 0 → accessUndefined s m a = false →
    exec (.registerWrite m a .b2 v) s = .next s) ∧
  (∀ (m : Master) (a : Nat) (v : BitVec 64) (s : State), a % 4 = 0 →
    exec (.registerWrite m a .b8 v) s = .next (writeWord (writeWord s m a (v.setWidth 32)) m (a + 4) ((v >>> 32).setWidth
    32))) ∧
  (∀ (m : Master) (a : Nat) (wr : Bool) (s : State), accessUndefined s m a = true →
    exec (.qcsUndefinedAccess m a wr) s = .next (undefEnd (if wr then s else emit s (.readData m a 0)) m a)) ∧
  (∀ (m : Master) (a : Nat) (w : Width) (wr : Bool) (s : State), alignedFor w a = false →
    exec (.misalignedQcsAccess m a w wr) s = .next (undefEnd (if wr then s else emit s (.readData m a 0)) m a)) ∧
  (∀ (m : Master) (a : Nat) (s : State), a % 4 = 0 → accessUndefined s m a = false → mbxMayRead s m a = true → hostPort m =
    none →
    exec (.wideRegisterLowRead m a .b4) s = .next (emit (restartPeak (clearRC (latchHigh (dropLatch s m a) m a) a) a)
    (.readData m a (readValue s m a)))) ∧
  (∀ (m : Master) (a : Nat) (s : State), a % 4 = 0 →
    exec (.wideRegisterLowRead m a .b8) s = .next (regRead (emit (fetchWord s m a).2 (.readData m a (fetchWord s m a).1)) m (a
    + 4))) ∧
  (∀ (m : Master) (a : Nat) (s : State), a % 2 = 0 → exec (.wideRegisterLowRead m a .b2) s = .next (narrowRead s m a 2)) ∧
  (∀ (m : Master) (a : Nat) (s : State), exec (.wideRegisterLowRead m a .b1) s = .next (narrowRead s m a 1)) ∧
  (∀ (m : Master) (a : Nat) (s : State), a % 4 = 0 → accessUndefined s m a = false → mbxMayRead s m a = true → hostPort m =
    none →
    exec (.rcFieldRead m a .b4) s = .next (emit (restartPeak (clearRC (latchHigh (dropLatch s m a) m a) a) a) (.readData m a
    (readValue s m a)))) ∧
  (∀ (m : Master) (a : Nat) (s : State), a % 4 = 0 →
    exec (.rcFieldRead m a .b8) s = .next (regRead (emit (fetchWord s m a).2 (.readData m a (fetchWord s m a).1)) m (a + 4))) ∧
  (∀ (m : Master) (a : Nat) (s : State), a % 2 = 0 → exec (.rcFieldRead m a .b2) s = .next (narrowRead s m a 2)) ∧
  (∀ (m : Master) (a : Nat) (s : State), exec (.rcFieldRead m a .b1) s = .next (narrowRead s m a 1))

/-- O17. A claim of an unclaimed block writes the master into HOLDER and sets EXPERT, in one step; a claim of a block that
another master holds changes nothing; the holder's release clears EXPERT and leaves HOLDER. Each clause concludes that the
command answers a next state, under hypotheses on the state and the operands alone. Completes: expertClaim, expertRelease.
(From R19, R21.) -/
def Obligations.ExpertClaims : Prop :=
  (∀ (m : Master) (a b : Nat) (s : State), qcsReach s m a = true → xclaimBase a = some b → claimed s b = false →
    exec (.expertClaim m a) s = .next (fsetb (fset s (xclaim b) XCLAIM_HOLDER (masterId m)) (xclaim b) XCLAIM_EXPERT true)) ∧
  (∀ (m : Master) (a b : Nat) (s : State), qcsReach s m a = true → xclaimBase a = some b → claimed s b = true → fget s (xclaim
    b) XCLAIM_HOLDER ≠ masterId m →
    exec (.expertClaim m a) s = .next s) ∧
  (∀ (m : Master) (a b : Nat) (s : State), qcsReach s m a = true → xclaimBase a = some b → claimed s b = true → fget s (xclaim
    b) XCLAIM_HOLDER = masterId m →
    exec (.expertRelease m a) s = .next (claimsFreed (fsetb s (xclaim b) XCLAIM_EXPERT false)))

/-- O18. A recompute gives a composite the state and grade that its members derive; the policy is written by a master that may
write the table; a wake demand moves the sleeping leaves and queues the mechanisms; the end of a wake gives the waking
leaves their state; a retirement finishes the unit's zones and sets state RETIRED with its cause. Each clause concludes
that the command answers a next state, under hypotheses on the state and the operands alone. Completes:
compositeRecompute, unitPolicyWrite, unitWakeDemand, unitWakeComplete, unitRetire. (From R28, R31, R33, R35, R36, R39.) -/
def Obligations.UnitCommands : Prop :=
  (∀ (u : Fin 4095) (s : State), uUsed s u = true → uKind s u ≠ 0 → exec (.compositeRecompute u) s = .next (recompute s u)) ∧
  (∀ (m : Master) (u : Fin 4095) (pol : BitVec 4) (s : State), qcsReach s m (TRS_UNIT_FACE u) = true → trsMayWrite s m = true
    → uUsed s u = true →
    exec (.unitPolicyWrite m u pol) s = .next (fset s (TRS_UNIT_FACE u) TRS_UNIT_FACE_POLICY pol.toNat)) ∧
  (∀ (u : Fin 4095) (s : State), uUsed s u = true → exec (.unitWakeDemand u) s = .next (
      let mechs := (mechsOf s u).filter fun v => coolUnit s v && availState (uState s v) && !fenced s v && (demandReaches s u
        v || demandReaches s v u)
      let leaves := (subtree s u).filter fun v => uKind s v == 0 && (mechOf s v).any mechs.contains && demandReaches s u v
      forAll mechs (forAll leaves s fun s v => if uState s v = 1 then setUState s v 2 else s) demandMech)) ∧
  (∀ (u : Fin 4095) (s : State), uUsed s u = true → (portsOf s u).all (wakeDone s) = true →
    exec (.unitWakeComplete u) s = .next (forAll (mechsOf s u) (forAll ((subtree s u).filter fun v => uKind s v == 0) s fun s
    v => if uState s v = 2 then setUState s v (wokenState s v) else s) fun s v => setAux s v fun x =>
    { x with wakeWanted := false })) ∧
  (∀ (u : Fin 4095) (c : BitVec 8) (s : State), uUsed s u = true → uState s u = 3 ∨ uState s u = 4 ∨ uState s u = 1 ∨ uState s
    u = 5 → uKind s u = 0 → c.toNat ≠ 0 →
    exec (.unitRetire u c) s = .next (
      let t := setAux (finishZonesIn s u) u fun x => { x with own := some 6, grades := (0, c.toNat) :: x.grades }
      setUState (setUGrade t u (uGrade t u) c.toNat) u 6)) ∧
  (∀ (u : Fin 4095) (c : BitVec 8) (s : State), uUsed s u = true → uState s u = 0 ∨ uState s u = 2 ∨ uState s u = 6 →
    exec (.unitRetire u c) s = .next s)

/-- O19. A download places its dwords in the staging area; a commit of action Verify starts the loader, one that switches
fences the image's root and waits for quiescence; the loader ends with the code and place of the first failing check; the
partner's refusal ends it with 0x1C; the loader commands of the register face start it; the floor only rises, a key slot
is revoked for good, and the fence is set and released by its owner. Each clause concludes that the command answers a next
state, under hypotheses on the state and the operands alone. Completes: trussDownload, trussCommitVerify,
trussCommitLoadStore, trussCommitPatchStore, trussCommitLoad, trussCommitPatch, trussQuiesceWaitEnd, trussVerifyDone,
trussPartnerAnswer, trussPartnerTimeout, peerTrussCheck, trsLdVerify, trsLdLoad, trsLdPatch, trsSeqFloorWrite,
trsKeyRevoke, trsFenceSet, trsFenceRelease. (From R53, R59, R63, R64, R65, R66.) -/
def Obligations.TrussCommands : Prop :=
  (∀ (x : HPort) (cid : BitVec 16) (n o : BitVec 32) (d : List Word) (s : State), portExists s (portId x) = true → (ctl s
    (portId x)).ready = true → claimed s baseTRS = false → o ≠ 0 → o.toNat + (n.toNat + 1) ≤ 65536 →
    exec (.trussDownload x cid n o d) s = .next (
      let t := placeWords s o.toNat (d.take (n.toNat + 1))
      adminOk { t with trs := { t.trs with stagedLen := max t.trs.stagedLen (4 * (o.toNat + (n.toNat + 1))) } } (portId x)
        cid.toNat 0)) ∧
  (∀ (x : HPort) (cid ms : BitVec 16) (s : State), portExists s (portId x) = true → (ctl s (portId x)).ready = true → claimed
    s baseTRS = false → loaderBusy s = false →
    exec (.trussCommitVerify x cid ms) s = .next (startJob s ⟨1, false, some (portId x, cid.toNat), false⟩)) ∧
  (∀ (x : HPort) (cid ms : BitVec 16) (s : State), portExists s (portId x) = true → (ctl s (portId x)).ready = true → claimed
    s baseTRS = false → loaderBusy s = false → claimed s baseFLS = false →
    exec (.trussCommitLoadStore x cid ms) s = .next (armSwitch s ⟨2, true, some (portId x, cid.toNat), false⟩)) ∧
  (∀ (x : HPort) (cid ms : BitVec 16) (s : State), portExists s (portId x) = true → (ctl s (portId x)).ready = true → claimed
    s baseTRS = false → loaderBusy s = false → claimed s baseFLS = false →
    exec (.trussCommitPatchStore x cid ms) s = .next (armSwitch s ⟨3, true, some (portId x, cid.toNat), false⟩)) ∧
  (∀ (x : HPort) (cid ms : BitVec 16) (s : State), portExists s (portId x) = true → (ctl s (portId x)).ready = true → claimed
    s baseTRS = false → loaderBusy s = false →
    exec (.trussCommitLoad x cid ms) s = .next (armSwitch s ⟨2, false, some (portId x, cid.toNat), false⟩)) ∧
  (∀ (x : HPort) (cid ms : BitVec 16) (s : State), portExists s (portId x) = true → (ctl s (portId x)).ready = true → claimed
    s baseTRS = false → loaderBusy s = false →
    exec (.trussCommitPatch x cid ms) s = .next (armSwitch s ⟨3, false, some (portId x, cid.toNat), false⟩)) ∧
  (∀ (j : LoadJob) (s : State), s.trs.waiting = some j → fbit s TRS_LD_STAT TRS_LD_STAT_BUSY = false →
    exec .trussQuiesceWaitEnd s = .next (startJob { s with trs := { s.trs with waiting := none } } j)) ∧
  (∀ (j : LoadJob) (s : State), s.trs.waiting = some j → fbit s TRS_LD_STAT TRS_LD_STAT_BUSY = true →
    exec .trussQuiesceWaitEnd s = .next (commitBusy { s with trs := { s.trs with waiting := none } } j)) ∧
  (∀ (j : LoadJob) (s : State), s.trs.job = some j → j.awaitPeer = false → j.what = 1 → cryptoFree s = true →
    exec .trussVerifyDone s = .next (Sum.elim (fun x => loadEnd s x.1 x.2) (fun _ => loadEnd s 0 0) (checkImage s (stagedBytes
    s (jobLen s j)) (jobLen s j) (jobKinds j)))) ∧
  (∀ (j : LoadJob) (s : State), s.trs.job = some j → j.awaitPeer = true →
    exec (.trussPartnerAnswer false) s = .next (loadEnd s 0x1C 0xFFFF)) ∧
  (∀ (j : LoadJob) (s : State), s.trs.job = some j → j.awaitPeer = true →
    exec (.trussPartnerAnswer true) s = .next (Sum.elim (fun x => loadEnd s x.1 x.2) (switchStep s j (stagedBytes s (jobLen s
    j))) (checkImage s (stagedBytes s (jobLen s j)) (jobLen s j) (jobKinds j)))) ∧
  (∀ (j : LoadJob) (s : State), s.trs.job = some j → j.awaitPeer = true →
    exec .trussPartnerTimeout s = .next (Sum.elim (fun x => loadEnd s x.1 x.2) (switchStep s j (stagedBytes s (jobLen s j)))
    (checkImage s (stagedBytes s (jobLen s j)) (jobLen s j) (jobKinds j)))) ∧
  (∀ (img : List Byte) (s : State), cryptoFree s = true →
    exec (.peerTrussCheck img) s = .next (Sum.elim (fun x => emit s (.peer 2 [x.1])) (fun t => switchFile (emit s (.peer 2
    [0])) (img.map (·.toNat)) t) (checkImage s (img.map (·.toNat)) (img.map (·.toNat)).length [1, 2]))) ∧
  (∀ (m : Master) (s : State), qcsReach s m (TRS_LD_CTRL) = true → trsMayWrite s m = true → fbit s TRS_LD_STAT
    TRS_LD_STAT_BUSY = false →
    exec (.trsLdVerify m) s = .next (startJob s ⟨1, false, none, false⟩)) ∧
  (∀ (m : Master) (s : State), qcsReach s m (TRS_LD_CTRL) = true → trsMayWrite s m = true → fbit s TRS_LD_STAT
    TRS_LD_STAT_BUSY = false →
    exec (.trsLdLoad m) s = .next (startJob s ⟨2, false, none, false⟩)) ∧
  (∀ (m : Master) (s : State), qcsReach s m (TRS_LD_CTRL) = true → trsMayWrite s m = true → fbit s TRS_LD_STAT
    TRS_LD_STAT_BUSY = false →
    exec (.trsLdPatch m) s = .next (startJob s ⟨3, false, none, false⟩)) ∧
  (∀ (m : Master) (v : Word) (s : State), qcsReach s m (TRS_SEQ_FLOOR) = true → trsMayWrite s m = true → rdN s TRS_SEQ_FLOOR ≤
    v.toNat →
    exec (.trsSeqFloorWrite m v) s = .next (wr s TRS_SEQ_FLOOR v)) ∧
  (∀ (m : Master) (v : Word) (s : State), qcsReach s m (TRS_SEQ_FLOOR) = true → trsMayWrite s m = true → v.toNat < rdN s
    TRS_SEQ_FLOOR →
    exec (.trsSeqFloorWrite m v) s = .next s) ∧
  (∀ (m : Master) (b : BitVec 4) (s : State), qcsReach s m (TRS_KEY_STAT) = true → trsMayWrite s m = true →
    exec (.trsKeyRevoke m b) s = .next (fset s TRS_KEY_STAT TRS_KEY_STAT_REVOKE (fget s TRS_KEY_STAT TRS_KEY_STAT_REVOKE |||
    b.toNat))) ∧
  (∀ (m : Master) (r : BitVec 12) (s : State), qcsReach s m (TRS_FENCE) = true → trsMayWrite s m = true →
    exec (.trsFenceSet m r) s = .next (fset (fsetb s TRS_FENCE TRS_FENCE_FENCE true) TRS_FENCE TRS_FENCE_ROOT r.toNat)) ∧
  (∀ (m : Master) (s : State), qcsReach s m (TRS_FENCE) = true → trsMayWrite s m = true →
    exec (.trsFenceRelease m) s = .next (bindDeferred (fsetb s TRS_FENCE TRS_FENCE_FENCE false)))

/-- O20. A presence edge starts or abandons the debounce, whose end starts the identity read of a fitted port and empties one
whose drive is gone; a sideband answer ends its request, an attention reads the cause; training ends in UP with the lanes
and credits of the front-end; a failed training counts a try on its lane. Each clause concludes that the command answers a
next state, under hypotheses on the state and the operands alone. Completes: presenceEdge, presenceDebounceEnd,
tsbResponse, tsbResponseTimeout, tsbAttention, tetherTrainingDone, tetherTrainingFail. (From R82, R87, R88, R91.) -/
def Obligations.PortLife : Prop :=
  (∀ (p : Fin 32) (low : Bool) (s : State), (tthOf s p).fitted = low → exec (.presenceEdge p low) s = .next s) ∧
  (∀ (p : Fin 32) (s : State), (tthOf s p).fitted = false → mode s ≠ 0 → portState s p = 0 →
    exec (.presenceEdge p true) s = .next (goDebounce (setTth s p fun t => { t with fitted := true, debounceHigh := false })
    p)) ∧
  (∀ (p : Fin 32) (s : State), mode s ≠ 0 → portState s p = 1 → (tthOf s p).fitted = true →
    exec (.presenceDebounceEnd p) s = .next (goIdent (setPrsnt s p true) p)) ∧
  (∀ (p : Fin 32) (s : State), mode s ≠ 0 → portState s p = 5 → (tthOf s p).debounceHigh = true → (tthOf s p).fitted = false →
    exec (.presenceDebounceEnd p) s = .next (goEmpty s p)) ∧
  (∀ (p : Fin 32) (c : BitVec 8) (d : List Byte) (r : TsbReq) (s : State), (tthOf s p).tsb = some r → c.toNat ≠ 0xFF →
    exec (.tsbResponse p c d true) s = .next (takeoverCheck (tsbEnd (tsbNext s p) p r c.toNat (d.map (·.toNat))))) ∧
  (∀ (p : Fin 32) (c : BitVec 8) (d : List Byte) (r : TsbReq) (s : State), (tthOf s p).tsb = some r → r.tries < 3 →
    exec (.tsbResponse p c d false) s = .next (takeoverCheck (emit (setTth s p fun t =>
    { t with tsb := some { r with tries := r.tries + 1 } }) (.tsbReq p (tsbFrame r))))) ∧
  (∀ (p : Fin 32) (r : TsbReq) (s : State), (tthOf s p).tsb = some r → r.tries < 3 →
    exec (.tsbResponseTimeout p) s = .next (emit (setTth s p fun t => { t with tsb := some { r with tries := r.tries + 1 } })
    (.tsbReq p (tsbFrame r)))) ∧
  (∀ (p : Fin 32) (r : TsbReq) (s : State), (tthOf s p).tsb = some r → 3 ≤ r.tries →
    exec (.tsbResponseTimeout p) s = .next (tsbDone s p 0xFF [])) ∧
  (∀ (p : Fin 32) (c : BitVec 8) (s : State), (tthOf s p).tsb = none → sbUsable s p = true → claimed s (baseTTH p) = false →
    tsbHas s p 10 = false →
    exec (.tsbAttention p c) s = .next (tsbRead (evtSet (fsetb (setFe s p fun x =>
    { x with attnCause := x.attnCause ||| c.toNat }) (TTH_SIDEBAND p) TTH_SIDEBAND_ATTN true) (.tth p) TTH_EVT_ATTN) p 10
    0x0220 4)) ∧
  (∀ (p : Fin 32) (up : BitVec 4) (s : State), portState s p = 4 → enabledLanes s p up.toNat ≠ 0 → enabledDown s p true = true
    → domOn s (11 + p) = true → domOn s (43 + p) = true → 32 ≤ identField s p 16 2 → (tthOf s p).reread = false →
    exec (.tetherTrainingDone p up true) s = .next (enterUp (setTth (setCredits (setLanes s p (enabledLanes s p up.toNat)
    true) p) p fun t => { t with lastCred := 0 }) p)) ∧
  (∀ (p : Fin 32) (up : BitVec 4) (s : State), portState s p = 4 → enabledLanes s p up.toNat ≠ 0 → enabledDown s p true = true
    → domOn s (11 + p) = true → domOn s (43 + p) = true → identField s p 16 2 < 32 →
    exec (.tetherTrainingDone p up true) s = .next (goFault s p 3)) ∧
  (∀ (p : Fin 32) (l : Fin 5) (s : State), portState s p = 6 →
    exec (.tetherTrainingFail p l) s = .next (syncTries (setTth s p fun t =>
    { t with laneTries := updAt t.laneTries l fun n => min 3 (n + 1) }) p))

/-- O21. An upstream lane lost leaves the good lanes, and the last one takes the port to RETRAIN; a downstream loss and a
credit timeout do so at once; a retraining done brings the port up with its lanes; a flit returns its credits, and its
samples, telemetry and servo words are taken where it is good; a heartbeat period sends the count and the role; the FEC
counters are counted. Each clause concludes that the command answers a next state, under hypotheses on the state and the
operands alone. Completes: upstreamLaneLoss, downstreamLaneLoss, creditTimeout, laneRetrainDone, laneRetryEpisode,
servoFlit, idleFlit, telemFlit, sampleFlit, heartbeatPeriod, fecRetrainCheck. (From R70, R79, R81, R82, R96, R99, R103.) -/
def Obligations.LinkCommands : Prop :=
  (∀ (p : Fin 32) (l : Fin 4) (s : State), laneMode s p = true → fget s (TTH_LINK_STAT p) TTH_LINK_STAT_UP_GOOD / 2 ^ l.val %
    2 = 1 → fget s (TTH_LINK_STAT p) TTH_LINK_STAT_UP_GOOD ≠ 2 ^ l.val →
    exec (.upstreamLaneLoss p l) s = .next (startStreams (laneImpair (setPortState (endStreams (evtSet (retrainLane (setLanes
    s p (fget s (TTH_LINK_STAT p) TTH_LINK_STAT_UP_GOOD - 2 ^ l.val) true) p l) (.tth p) TTH_EVT_LANE_LOSS) p [l.val]) p 6) p)
    p)) ∧
  (∀ (p : Fin 32) (l : Fin 4) (s : State), laneMode s p = true → fget s (TTH_LINK_STAT p) TTH_LINK_STAT_UP_GOOD = 2 ^ l.val →
    exec (.upstreamLaneLoss p l) s = .next (endStreams (allLanesLost (setPortState (evtSet (retrainLane (setLanes s p 0 true)
    p l) (.tth p) TTH_EVT_LANE_LOSS) p 7) p) p [l.val])) ∧
  (∀ (p : Fin 32) (s : State), laneMode s p = true →
    exec (.downstreamLaneLoss p) s = .next (downLost (evtSet s (.tth p) TTH_EVT_LANE_LOSS) p)) ∧
  (∀ (p : Fin 32) (s : State), laneMode s p = true → avail s p = 0 → flitsWait s p = true →
    exec (.creditTimeout p) s = .next (downLost (evtSet s (.tth p) TTH_EVT_CREDIT_TO) p)) ∧
  (∀ (p : Fin 32) (up : BitVec 4) (s : State), portState s p = 6 → enabledLanes s p up.toNat ≠ 0 → enabledDown s p true = true
    →
    exec (.laneRetrainDone p up true) s = .next (goUp (setLanes s p (enabledLanes s p up.toNat ||| fget s (TTH_LINK_STAT p)
    TTH_LINK_STAT_UP_GOOD) true) p)) ∧
  (∀ (p : Fin 32) (up : BitVec 4) (s : State), portState s p = 7 → enabledLanes s p up.toNat ≠ 0 → enabledDown s p true = true
    → (tthOf s p).reread = false →
    exec (.laneRetrainDone p up true) s = .next (enterUp (if fbit s (TTH_LINK_STAT p) TTH_LINK_STAT_DN_GOOD then setLanes s p
    (enabledLanes s p up.toNat) true else setCredits (setLanes s p (enabledLanes s p up.toNat) true) p) p)) ∧
  (∀ (p : Fin 32) (l : Fin 4) (s : State), portState s p = 6 → fget s (TTH_LINK_STAT p) TTH_LINK_STAT_UP_GOOD / 2 ^ l.val % 2
    = 0 → fget s (TTH_CTRL p) TTH_CTRL_UP_EN / 2 ^ l.val % 2 = 1 →
    exec (.laneRetryEpisode p l) s = .next (retrainLane s p l)) ∧
  (∀ (p : Fin 32) (f : Flit) (s : State), laneMode s p = true → flitTaken f 2 = true → lineOn (creditReturn s p f.cred.toNat)
    p (f.chan.toNat % 8) = true →
    exec (.servoFlit p f) s = .next (takeServo (creditReturn s p f.cred.toNat) p f)) ∧
  (∀ (p : Fin 32) (f : Flit) (s : State), laneMode s p = true → flitTaken f 0 = true →
    exec (.idleFlit p f) s = .next (creditReturn s p f.cred.toNat)) ∧
  (∀ (p : Fin 32) (f : Flit) (s : State), laneMode s p = true → upTaken f = false →
    exec (.servoFlit p f) s = .next (setTth (flitDiscard s p) p fun t =>
    { t with servo := tabPut t.servo (f.chan.toNat % 8) none })) ∧
  (∀ (p : Fin 32) (f : Flit) (s : State), laneMode s p = true → flitTaken f 3 = true →
    exec (.telemFlit p f) s = .next (setTth (creditReturn s p f.cred.toNat) p fun t => { t with telem := flitBytes f })) ∧
  (∀ (p : Fin 32) (f : Flit) (s : State), laneMode s p = true → flitTaken f 1 = true → lineOn (creditReturn s p f.cred.toNat)
    p (f.chan.toNat % 8) = true →
    exec (.sampleFlit p f) s = .next (
      let t := creditReturn s p f.cred.toNat
      samplesStored (takeSamples t (laneOf p (f.chan.toNat % 8)) f.tstamp.toNat (decide (f.flags.toNat / 4 % 2 = 1))
        (unpackSamples (flitBytes f))) (laneOf p (f.chan.toNat % 8)) (tabGet 0 t.det.ringPos (laneOf p (f.chan.toNat % 8))))) ∧
  (∀ (p : Fin 32) (s : State), fbit s (TTH_CTRL p) TTH_CTRL_HB_EN = true → laneMode s p = true → (tthOf s p).dnDue = false →
    exec (.heartbeatPeriod p) s = .next (witness (fadd (sendHb (setTth s p fun t =>
    { t with hbCount := ((tthOf s p).hbCount + 1) % 2 ^ 32 }) p (((tthOf s p).hbCount + 1) % 2 ^ 32)) (TTH_WIT_AGE p)
    TTH_WIT_AGE_AGE 1) p)) ∧
  (∀ (p : Fin 32) (l : Fin 5) (c : BitVec 31) (s : State), c.toNat ≤ 1000000 →
    exec (.fecRetrainCheck p l c 0) s = .next (count s (TTH_FEC_CORR p l) c.toNat (.tth p) TTH_EVT_SAT)) ∧
  (∀ (p : Fin 32) (l : Fin 5) (c u : BitVec 31) (s : State), c.toNat ≤ 1000000 → u ≠ 0 →
    exec (.fecRetrainCheck p l c u) s = .next (evtSet (count (count s (TTH_FEC_CORR p l) c.toNat (.tth p) TTH_EVT_SAT)
    (TTH_FEC_UNC p) u.toNat (.tth p) TTH_EVT_SAT) (.tth p) TTH_EVT_FEC_UNC))

/-- O22. CNT_CLR clears the port's counters; RETRAIN, SB_ONLY and PORT_EN move the port; the watchdog is written within its
bounds; a token command is one sideband write of the command code; the TSB command register sends one request and is
refused with 0xFE where its length is out of range. Each clause concludes that the command answers a next state, under
hypotheses on the state and the operands alone. Completes: tthCntClr, tthRetrain, tthSbOnlyWrite, tthPortDisable,
tthPortEnable, tthWdogWrite, tokenAcquire, tokenRelease, tokenHandoff, tsbCmdRead, tsbCmdWrite. (From R91, R93, R96, R102,
R441.) -/
def Obligations.PortRegisters : Prop :=
  (∀ (m : Master) (p : Fin 32) (s : State), qcsReach s m (TTH_CTRL p) = true →
    exec (.tthCntClr m p) s = .next (clearCounts s ((rangeFrom 0 5).map (TTH_FEC_CORR p) ++ [TTH_FEC_UNC p, TTH_CRC_ERR p,
    TTH_RETRAINS p, TTH_LATE p]) (.tth p))) ∧
  (∀ (m : Master) (p : Fin 32) (s : State), qcsReach s m (TTH_CTRL p) = true → portState s p = 9 →
    exec (.tthRetrain m p) s = .next (goIdent s p)) ∧
  (∀ (m : Master) (p : Fin 32) (s : State), qcsReach s m (TTH_CTRL p) = true → portState s p = 4 ∨ portState s p = 7 →
    exec (.tthRetrain m p) s = .next (newEpisodes (setLanes s p 0 false) p)) ∧
  (∀ (m : Master) (p : Fin 32) (s : State), qcsReach s m (TTH_CTRL p) = true → portState s p = 5 ∨ portState s p = 6 →
    exec (.tthRetrain m p) s = .next (newEpisodes (count (endStreams (allLanesLost (setPortState (setLanes s p 0 false) p 7)
    p) p [0, 1, 2, 3]) (TTH_RETRAINS p) 5 (.tth p) TTH_EVT_SAT) p)) ∧
  (∀ (m : Master) (p : Fin 32) (s : State), qcsReach s m (TTH_CTRL p) = true →
    exec (.tthSbOnlyWrite m p true) s = .next (goSideband (fsetb s (TTH_CTRL p) TTH_CTRL_SB_ONLY true) p)) ∧
  (∀ (m : Master) (p : Fin 32) (s : State), qcsReach s m (TTH_CTRL p) = true →
    exec (.tthSbOnlyWrite m p false) s = .next (phyChanged (fsetb s (TTH_CTRL p) TTH_CTRL_SB_ONLY false) p)) ∧
  (∀ (m : Master) (p : Fin 32) (s : State), qcsReach s m (TTH_CTRL p) = true →
    exec (.tthPortDisable m p) s = .next (portDisable s p)) ∧
  (∀ (m : Master) (p : Fin 32) (s : State), qcsReach s m (TTH_CTRL p) = true →
    exec (.tthPortEnable m p) s = .next (portEnable s p)) ∧
  (∀ (m : Master) (p : Fin 32) (v : BitVec 16) (s : State), qcsReach s m (TTH_HB p) = true → 50 ≤ v.toNat → v.toNat ≤ 10000 →
    sbUsable s p = false →
    exec (.tthWdogWrite m p v) s = .next (fset (fset s (TTH_HB p) TTH_HB_WDOG_US v.toNat) (TTH_HB p) TTH_HB_HB_PER (hbPer
    v.toNat))) ∧
  (∀ (m : Master) (p : Fin 32) (v : BitVec 16) (s : State), qcsReach s m (TTH_HB p) = true → v.toNat < 50 ∨ 10000 < v.toNat →
    exec (.tthWdogWrite m p v) s = .next s) ∧
  (∀ (m : Master) (p : Fin 32) (s : State), qcsReach s m (TTH_TOKEN p) = true → (tthOf s p).tsb = none →
    exec (.tokenAcquire m p) s = .next (tsbWrite s p 3 0x0200 [1])) ∧
  (∀ (m : Master) (p : Fin 32) (s : State), qcsReach s m (TTH_TOKEN p) = true → (tthOf s p).tsb = none →
    exec (.tokenRelease m p) s = .next (tsbWrite s p 4 0x0200 [2])) ∧
  (∀ (m : Master) (p : Fin 32) (s : State), qcsReach s m (TTH_TOKEN p) = true → (tthOf s p).tsb = none →
    exec (.tokenHandoff m p) s = .next (tsbWrite s p 5 0x0200 [3])) ∧
  (∀ (m : Master) (p : Fin 32) (n : BitVec 8) (a : BitVec 16) (s : State), qcsReach s m (TTH_TSB_CMD p) = true → (tthOf s
    p).tsb = none → n.toNat ≠ 0 → n.toNat ≤ 32 →
    exec (.tsbCmdRead m p n a) s = .next (tsbSend (fsetb (fset (fset (fset s (TTH_TSB_CMD p) TTH_TSB_CMD_CMD 1) (TTH_TSB_CMD
    p) TTH_TSB_CMD_LEN n.toNat) (TTH_TSB_CMD p) TTH_TSB_CMD_ADDR a.toNat) (TTH_TSB_CMD p) TTH_TSB_CMD_GO true) p ⟨12, 1,
    a.toNat, n.toNat, [], 0⟩)) ∧
  (∀ (m : Master) (p : Fin 32) (n : BitVec 8) (a : BitVec 16) (s : State), qcsReach s m (TTH_TSB_CMD p) = true → (tthOf s
    p).tsb = none → n.toNat ≠ 0 → n.toNat ≤ 32 →
    exec (.tsbCmdWrite m p n a) s = .next (tsbSend (fsetb (fset (fset (fset s (TTH_TSB_CMD p) TTH_TSB_CMD_CMD 2) (TTH_TSB_CMD
    p) TTH_TSB_CMD_LEN n.toNat) (TTH_TSB_CMD p) TTH_TSB_CMD_ADDR a.toNat) (TTH_TSB_CMD p) TTH_TSB_CMD_GO true) p ⟨12, 2,
    a.toNat, n.toNat, ((rangeFrom 0 8).flatMap fun k => leBytes 4 (rdN s (TTH_TSB_DATA p k))).take n.toNat, 0⟩)) ∧
  (∀ (m : Master) (p : Fin 32) (n : BitVec 8) (a : BitVec 16) (s : State), qcsReach s m (TTH_TSB_CMD p) = true → (tthOf s
    p).tsb = none → n.toNat = 0 ∨ 32 < n.toNat →
    exec (.tsbCmdRead m p n a) s = .next (fset (fsetb (fset (fset (fset s (TTH_TSB_CMD p) TTH_TSB_CMD_CMD 1) (TTH_TSB_CMD p)
    TTH_TSB_CMD_LEN n.toNat) (TTH_TSB_CMD p) TTH_TSB_CMD_ADDR a.toNat) (TTH_TSB_CMD p) TTH_TSB_CMD_GO false) (TTH_TSB_STAT p)
    TTH_TSB_STAT_STATUS 0xFE))

/-- O23. A read answers with the bytes of the one entry it lies in; a request of no length, or that leaves its entry, gets
status 2; a write where the side may not write gets status 3; the witness, watchdog and status entries take their writes;
the token is acquired when free, released and handed over by its owner; a heartbeat restarts the side's watchdog. Each
clause concludes that the command answers a next state, under hypotheses on the state and the operands alone. Completes:
feTsbRead, feTsbWrite, feTsbHeartbeat, feAcquire, feRelease, feHandoff. (From R87, R89, R93, R96, R97, R98.) -/
def Obligations.FrontEndSideband : Prop :=
  (∀ (p : Fin 32) (side : Fin 2) (a : BitVec 16) (n : BitVec 8) (r : Nat × Nat) (s : State), n.toNat ≠ 0 → n.toNat ≤ 32 →
    feRows.find? (fun r => r.1 ≤ a.toNat ∧ a.toNat < r.1 + r.2) = some r → a.toNat + n.toNat ≤ r.1 + r.2 →
    exec (.feTsbRead p side a n true) s = .next (feAnswer s p 0 (((feContent (feOf s p) p side r.1).drop (a.toNat - r.1)).take
    n.toNat))) ∧
  (∀ (p : Fin 32) (side : Fin 2) (a : BitVec 16) (n : BitVec 8) (s : State), n.toNat = 0 ∨ 32 < n.toNat →
    exec (.feTsbRead p side a n true) s = .next (feAnswer s p 2 [])) ∧
  (∀ (p : Fin 32) (side : Fin 2) (d : List Byte) (s : State), d.length = 2 → feOwns (feOf s p) side = true → 50 ≤ leNat (d.map
    (·.toNat)) → leNat (d.map (·.toNat)) ≤ 10000 →
    exec (.feTsbWrite p side 0x0210 d true) s = .next (feAnswer (setFe s p fun x =>
    { x with wdogUs := leNat (d.map (·.toNat)) }) p 0 [])) ∧
  (∀ (p : Fin 32) (side : Fin 2) (d : List Byte) (s : State), d.length = 2 → feOwns (feOf s p) side = false →
    exec (.feTsbWrite p side 0x0210 d true) s = .next (feAnswer s p 3 [])) ∧
  (∀ (p : Fin 32) (side : Fin 2) (a : BitVec 16) (n : BitVec 8) (s : State),
    exec (.feTsbRead p side a n false) s = .next (feAnswer s p 1 [])) ∧
  (∀ (p : Fin 32) (side : Fin 2) (a : BitVec 16) (d : List Byte) (s : State),
    exec (.feTsbWrite p side a d false) s = .next (feAnswer s p 1 [])) ∧
  (∀ (p : Fin 32) (side : Fin 2) (s : State), (feOf s p).lane0 = false → (feOf s p).lane1 = false →
    exec (.feTsbHeartbeat p side 0x0300 4 true) s = .next (feAnswer (feHeartbeat s p side) p 0 [])) ∧
  (∀ (p : Fin 32) (side : Fin 2) (a : BitVec 16) (n : BitVec 8) (s : State),
    exec (.feTsbHeartbeat p side a n false) s = .next (feAnswer s p 1 [])) ∧
  (∀ (p : Fin 32) (side : Fin 2) (s : State), (feOf s p).owner = 0 →
    exec (.feAcquire p side) s = .next (feAnswer (setFe s p fun x => feRun (feOwner x (side + 1)) side true) p 0 [])) ∧
  (∀ (p : Fin 32) (side : Fin 2) (s : State), (feOf s p).owner ≠ 0 → feOwns (feOf s p) side = false →
    exec (.feAcquire p side) s = .next (feAnswer s p 4 [])) ∧
  (∀ (p : Fin 32) (side : Fin 2) (s : State), feOwns (feOf s p) side = true →
    exec (.feRelease p side) s = .next (feAnswer (setFe s p fun x => feOwner x 0) p 0 [])) ∧
  (∀ (p : Fin 32) (side : Fin 2) (s : State), feOwns (feOf s p) side = false →
    exec (.feRelease p side) s = .next (feAnswer s p 3 [])) ∧
  (∀ (p : Fin 32) (side : Fin 2) (s : State), feOwns (feOf s p) side = true →
    exec (.feHandoff p side) s = .next (feAnswer (setFe s p fun x => feRun (feOwner x (2 - side)) (1 - side) true) p 0 []))

/-- O24. The owner's watchdog releases the token and takes the write gate, the assist, the load and the drive away; the other
side's only records the loss; a command flit of the owner with the epoch is queued and applied, another is reported; a
WRITE flit opens the gate of its head unless inhibited, and a late one is counted; a good inhibit word sets the mask after
two, and a bad word or silence inhibits all. Each clause concludes that the command answers a next state, under hypotheses
on the state and the operands alone. Completes: feWatchdogExpire, feOtherWatchdogExpire, feHbFlit, feCmdFlit, feCmdApply,
feWriteFlit, feWinhWord, feWinhBadWord, feWinhSilence, feDownstreamLoss. (From R72, R80, R85, R94, R96, R97.) -/
def Obligations.FrontEndSafety : Prop :=
  (∀ (p : Fin 32) (rpm : BitVec 16) (b : Bool) (s : State), (feOf s p).owner = 1 → (feOf s p).run0 = true →
    exec (.feWatchdogExpire p rpm b) s = .next (setFe s p fun x =>
    { feRun (feOwner { x with lane0 := x.lane0 && x.owner != 1, lane1 := x.lane1 && x.owner != 2 } 0) 0 false with assistOn := 0, unloaded := x.unloaded || decide (2400 < rpm.toNat) || b, coasting := true, loss := true })) ∧
  (∀ (p : Fin 32) (rpm : BitVec 16) (b : Bool) (s : State), (feOf s p).owner = 2 → (feOf s p).run1 = true →
    exec (.feWatchdogExpire p rpm b) s = .next (setFe s p fun x =>
    { feRun (feOwner { x with lane0 := x.lane0 && x.owner != 1, lane1 := x.lane1 && x.owner != 2 } 0) 1 false with assistOn := 0, unloaded := x.unloaded || decide (2400 < rpm.toNat) || b, coasting := true, loss := true })) ∧
  (∀ (p : Fin 32) (side : Fin 2) (s : State), feOwns (feOf s p) side = false → (if side.val = 0 then (feOf s p).run0 else
    (feOf s p).run1) = true →
    exec (.feOtherWatchdogExpire p side) s = .next (setFe s p fun x => { feRun x side false with otherLost := true })) ∧
  (∀ (p : Fin 32) (side : Fin 2) (f : Flit) (s : State), flitTaken f 0xB = true →
    exec (.feHbFlit p side f) s = .next (feHeartbeat (setFe s p fun x => feLane x side) p side)) ∧
  (∀ (p : Fin 32) (side : Fin 2) (f : Flit) (s : State), flitTaken f 9 = true → feOwns (feOf s p) side = true → f.epoch.toNat
    = (feOf s p).epoch →
    exec (.feCmdFlit p side f) s = .next (setFe s p fun x =>
    { feLane (feOf s p) side with pend := (feOf s p).pend ++ [⟨(feOf s p).epoch, cmdEntries (flitBytes f)⟩] })) ∧
  (∀ (p : Fin 32) (side : Fin 2) (f : Flit) (s : State), flitTaken f 9 = true → feOwns (feOf s p) side = false →
    exec (.feCmdFlit p side f) s = .next (emit (setFe s p fun x => feLane x side) (.feReport p 1))) ∧
  (∀ (p : Fin 32) (c : FePend) (cs : List FePend) (s : State), (feOf s p).pend = c :: cs → c.epoch = (feOf s p).epoch →
    exec (.feCmdApply p) s = .next (forAll c.entries (setFe s p fun x => { x with pend := cs }) (feApply p))) ∧
  (∀ (p : Fin 32) (side : Fin 2) (f : Flit) (s : State), flitTaken f 8 = true → feOwns (feOf s p) side = true → f.epoch.toNat
    = (feOf s p).epoch →
    exec (.feWriteFlit p side f true) s = .next (feLate (setFe s p fun x => feLane x side) p (f.chan.toNat % 8)
    f.tstamp.toNat)) ∧
  (∀ (p : Fin 32) (side : Fin 2) (f : Flit) (s : State), flitTaken f 8 = true → feOwns (feOf s p) side = true → f.epoch.toNat
    = (feOf s p).epoch → f.flags.toNat % 2 = 0 →
    exec (.feWriteFlit p side f false) s = .next (setFe s p fun x =>
    { feLane (feOf s p) side with wpend := if (feOf s p).wpend.contains (f.chan.toNat % 8) then (feOf s p).wpend else (feOf s p).wpend ++ [f.chan.toNat % 8], writeGate := (feOf s p).writeGate ||| 2 ^ (f.chan.toNat % 8), skip := (feOf s p).skip })) ∧
  (∀ (p : Fin 32) (side : Fin 2) (f : Flit) (l : Bool) (s : State), flitTaken f 8 = false →
    exec (.feWriteFlit p side f l) s = .next (feLate s p (f.chan.toNat % 8) f.tstamp.toNat)) ∧
  (∀ (p : Fin 32) (side : Fin 2) (f : Flit) (s : State), flitTaken f 8 = true → feOwns (feOf s p) side = false →
    exec (.feWriteFlit p side f false) s = .next (emit (setFe s p fun x => feLane x side) (.feReport p 1))) ∧
  (∀ (p : Fin 32) (side : Fin 2) (w : BitVec 12) (s : State), feOwns (feOf s p) side = true → winhGood w.toNat = true → (feOf
    s p).winhNeed = 2 →
    exec (.feWinhWord p side w) s = .next (setFe s p fun x => { x with winhNeed := 1, inh := x.inh, skip := x.skip })) ∧
  (∀ (p : Fin 32) (side : Fin 2) (w : BitVec 12) (s : State), feOwns (feOf s p) side = true → winhGood w.toNat = true → (feOf
    s p).winhNeed = 1 →
    exec (.feWinhWord p side w) s = .next (setFe s p fun x =>
    { x with winhNeed := 0, inh := w.toNat / 4 % 256, skip := x.skip ||| w.toNat / 4 % 256 })) ∧
  (∀ (p : Fin 32) (side : Fin 2) (w : BitVec 12) (s : State), feOwns (feOf s p) side = true → winhGood w.toNat = false →
    exec (.feWinhWord p side w) s = .next (winhBad s p)) ∧
  (∀ (p : Fin 32) (side : Fin 2) (s : State), feOwns (feOf s p) side = true →
    exec (.feWinhBadWord p side) s = .next (winhBad s p)) ∧
  (∀ (p : Fin 32) (side : Fin 2) (s : State), feOwns (feOf s p) side = true →
    exec (.feWinhSilence p side) s = .next (winhBad s p)) ∧
  (∀ (p : Fin 32) (s : State), (feOf s p).owner ≠ 0 →
    exec (.feDownstreamLoss p) s = .next (setFe s p fun x => { x with writeGate := 0, assistOn := 0 }))

/-- O25. A pin is made where it fits, and ended by its release or its timeout; a read of a sector joins a ladder that runs on
it, or detects its capture and decides its first codeword; a free cluster takes the job its weights choose, and its end is
counted and goes to the retry or the sector; a parity error sends the job to another cluster; an idle cluster and an idle
lane power off, a wanted lane powers on; a retry without its pin ends at once. Each clause concludes that the command
answers a next state, under hypotheses on the state and the operands alone. Completes: dlPinSet, dlPinRelease, pinTimeout,
syncDecision, decodeJobDispatch, decodeJobDone, clusterParityError, clusterIdlePoweroff, dlRetryGo, lanePowerRequest,
lanePowerReady, laneIdlePoweroff, ldcSlotsRead. (From R106, R109, R115, R117, R118, R119, R120, R121, R123, R124.) -/
def Obligations.DetectorLanes : Prop :=
  (∀ (m : Master) (a : Fin 64) (l : Fin 4) (i : Fin 2) (b : BitVec 13) (n : BitVec 14) (s : State), qcsReach s m (ACT_DL_PIN a
    l i) = true → pinHeld s (4 * a + l) i = false → pinFits s (4 * a + l) i n.toNat = true →
    exec (.dlPinSet m a l i b n) s = .next (makePin s (4 * a + l) i b.toNat n.toNat)) ∧
  (∀ (m : Master) (a : Fin 64) (l : Fin 4) (i : Fin 2) (b : BitVec 13) (n : BitVec 14) (s : State), qcsReach s m (ACT_DL_PIN a
    l i) = true → pinFits s (4 * a + l) i n.toNat = false →
    exec (.dlPinSet m a l i b n) s = .next s) ∧
  (∀ (m : Master) (a : Fin 64) (l : Fin 4) (i : Fin 2) (b : BitVec 13) (n : BitVec 14) (s : State), qcsReach s m (ACT_DL_PIN a
    l i) = true → pinHeld s (4 * a + l) i = true →
    exec (.dlPinSet m a l i b n) s = .next s) ∧
  (∀ (m : Master) (a : Fin 64) (l : Fin 4) (i : Fin 2) (s : State), qcsReach s m (ACT_DL_PIN a l i) = true → pinHeld s (4 * a
    + l) i = true →
    exec (.dlPinRelease m a l i) s = .next (settleDet (endPin s (4 * a + l) i))) ∧
  (∀ (a : Fin 64) (l : Fin 4) (i : Fin 2) (s : State), pinHeld s (4 * a + l) i = true →
    exec (.pinTimeout a l i) s = .next (settleDet (expirePin s (4 * a + l) i))) ∧
  (∀ (a : Fin 64) (l : Fin 4) (t : BitVec 17) (w : SecWork) (s : State), workAt s a l false = some w → laneReady s (4 * a + l)
    = true → s.det.live.contains (4 * a.val + l.val) = true → joins s a w = none →
    exec (.syncDecision a l t) s = .next (readSector s (4 * a + l) w t.toNat)) ∧
  (∀ (a : Fin 64) (l : Fin 4) (t : BitVec 17) (w : SecWork) (x : Sector) (s : State), workAt s a l false = some w → laneReady
    s (4 * a + l) = true → s.det.live.contains (4 * a.val + l.val) = true → joins s a w = some x →
    exec (.syncDecision a l t) s = .next (putSector s { x with joined := x.joined + 1 })) ∧
  (∀ (c : Fin 16) (j : DecJob) (cr : List Int) (s : State), clusterEn s c = true → clusterOn s c = true → fbit s (LDC_STAT c)
    LDC_STAT_BUSY = false → pickJob s c = some (j, cr) →
    exec (.decodeJobDispatch c) s = .next (runJob s c j cr)) ∧
  (∀ (c : Fin 16) (j : DecJob) (s : State), s.det.jobs.find? (fun j => j.run == some c.val) = some j → j.what = 2 →
    exec (.decodeJobDone c) s = .next (
      let e := ldpcDecode (jobCode s j) (fget s (LDC_CTRL c) LDC_CTRL_MAXIT) (tabGet [] s.det.llrs (llrKey j.sec j.lane))
      settleDet (registerDone (jobCounted s c j e) j.lane e))) ∧
  (∀ (c : Fin 16) (j : DecJob) (s : State), s.det.jobs.find? (fun j => j.run == some c.val) = some j → j.what = 4 →
    exec (.decodeJobDone c) s = .next (settleDet (dropLlrs (giveSlot (jobCounted s c j (ldpcDecode (jobCode s j) (fget s
    (LDC_CTRL c) LDC_CTRL_MAXIT) (tabGet [] s.det.llrs (llrKey j.sec j.lane)))) j.lane) j.sec j.lane))) ∧
  (∀ (c : Fin 16) (j : DecJob) (s : State), s.det.jobs.find? (fun j => j.run == some c.val) = some j → j.what ≠ 2 → j.what ≠ 4
    →
    exec (.decodeJobDone c) s = .next (
      let e := ldpcDecode (jobCode s j) (fget s (LDC_CTRL c) LDC_CTRL_MAXIT) (tabGet [] s.det.llrs (llrKey j.sec j.lane))
      let t := jobCounted s c j e
      settleDet ((sectorOf t j.sec).elim t fun x => sectorDecoded (latchRes t (j.lane / 4) (j.lane % 4) (if e.zero && tagCheck
        t x e.info != 1 then 0 else 1)) j x e (tagCheck t x e.info)))) ∧
  (∀ (c : Fin 16) (h : BitVec 16) (j : DecJob) (s : State), s.det.jobs.find? (fun j => j.run == some c.val) = some j → h.toNat
    < 16 →
    exec (.clusterParityError c h) s = .next (clusterDemand (queueSync (setDet (evtSet (count (fsetb s (LDC_STAT c)
    LDC_STAT_BUSY false) (LDC_MEM_ERRS c) 1 (.ldc c) LDC_EVT_SAT) (.ldc c) LDC_EVT_MEM_ERR) fun d =>
    { d with jobs := d.jobs.map fun k => if k.order = j.order then { k with run := none, avoid := [c.val] } else k })))) ∧
  (∀ (c : Fin 16) (s : State), fbit s (LDC_CTRL c) LDC_CTRL_PWR_AUTO = true → fbit s (LDC_STAT c) LDC_STAT_BUSY = false →
    clusterOn s c = true → clusterEn s c = false ∨ jobsFor s c = [] →
    exec (.clusterIdlePoweroff c) s = .next (clusterDemand (fsetb (domRelease s (395 + c)) (LDC_STAT c) LDC_STAT_PWR
    (clusterOn (domRelease s (395 + c)) c)))) ∧
  (∀ (m : Master) (a : Fin 64) (l : Fin 4) (v : Word) (s : State), qcsReach s m (ACT_DL_RETRY a l) = true → fbit s
    (ACT_DL_RETRY_STAT ((4 * a + l) / 4) ((4 * a + l) % 4)) ACT_DL_RETRY_STAT_BUSY = false → pinHeld (retryBegin s (4 * a + l)
    0 (getF v ACT_DL_RETRY_PIN) (v.toNat % 2 ^ 25) false) (4 * a + l) (getF v ACT_DL_RETRY_PIN) = false →
    exec (.dlRetryGo m a l v) s = .next (retryClose (retryBegin s (4 * a + l) 0 (getF v ACT_DL_RETRY_PIN) (v.toNat % 2 ^ 25)
    false) (4 * a + l) 5 0)) ∧
  (∀ (m : Master) (a : Fin 64) (l : Fin 4) (v : Word) (s : State), qcsReach s m (ACT_DL_RETRY a l) = true → fbit s
    (ACT_DL_RETRY_STAT ((4 * a + l) / 4) ((4 * a + l) % 4)) ACT_DL_RETRY_STAT_BUSY = false → pinHeld (retryBegin s (4 * a + l)
    0 (getF v ACT_DL_RETRY_PIN) (v.toNat % 2 ^ 25) false) (4 * a + l) (getF v ACT_DL_RETRY_PIN) = true →
    exec (.dlRetryGo m a l v) s = .next ((retryTry (retryBegin s (4 * a + l) 0 (getF v ACT_DL_RETRY_PIN) (v.toNat % 2 ^ 25)
    false) ⟨4 * a + l, 0, getF v ACT_DL_RETRY_PIN, v.toNat % 2 ^ 25, false, none⟩).1)) ∧
  (∀ (m : Master) (a : Fin 64) (l : Fin 4) (v : Word) (s : State), qcsReach s m (ACT_DL_RETRY a l) = true → fbit s
    (ACT_DL_RETRY_STAT ((4 * a + l) / 4) ((4 * a + l) % 4)) ACT_DL_RETRY_STAT_BUSY = true →
    exec (.dlRetryGo m a l v) s = .next s) ∧
  (∀ (a : Fin 64) (l : Fin 4) (s : State), bitOf (rd s (ACT_DET_PWR a)) (4 + l) = true → s.det.downing.contains (4 * a.val +
    l.val) = false → domOn s (139 + (4 * a + l)) = false → s.pwr.wanted.contains (139 + (4 * a.val + l.val)) = false →
    domFailed s (139 + (4 * a + l)) = false →
    exec (.lanePowerRequest a l) s = .next (sliceSync (laneSync (domRequest (if envHolds s (139 + (4 * a + l)) then count s
    (PWR_CNT 5) 1 .pwr PWR_EVT_SAT else s) (139 + (4 * a + l))) (4 * a + l)) a)) ∧
  (∀ (a : Fin 64) (l : Fin 4) (s : State), bitOf (rd s (ACT_DET_PWR a)) (4 + l) = true → s.det.downing.contains (4 * a.val +
    l.val) = true →
    exec (.lanePowerRequest a l) s = .next (laneSync (setDet s fun d =>
    { d with downing := d.downing.filter (· != 4 * a.val + l.val) }) (4 * a + l))) ∧
  (∀ (a : Fin 64) (l : Fin 4) (s : State), laneOn s (4 * a + l) = true → s.det.downing.contains (4 * a.val + l.val) = false →
    laneReady s (4 * a + l) = false →
    exec (.lanePowerReady a l) s = .next (settleDet (laneSync (wbit (restoreLane s (4 * a + l) 0) (ACT_DET_PWR a) (8 + l)
    true) (4 * a + l)))) ∧
  (∀ (a : Fin 64) (l : Fin 4) (s : State), s.det.downing.contains (4 * a.val + l.val) = true →
    exec (.laneIdlePoweroff a l) s = .next (sliceSync (laneSync (domRelease (setDet s fun d =>
    { d with downing := d.downing.filter (· != 4 * a.val + l.val) }) (139 + (4 * a + l))) (4 * a + l)) a)) ∧
  (∀ (a : Fin 64) (l : Fin 4) (s : State), s.det.downing.contains (4 * a.val + l.val) = false → laneMayOff s (4 * a + l) =
    true → laneOn s (4 * a + l) = true → laneKept s (4 * a + l) = false →
    exec (.laneIdlePoweroff a l) s = .next (laneSync (setDet (laneDiscard s (4 * a + l)) fun d =>
    { d with downing := (4 * a.val + l.val) :: d.downing }) (4 * a + l))) ∧
  (∀ (m : Master) (c : Fin 16) (s : State), accessUndefined s m (baseLDC c + 0x24) = false →
    exec (.ldcSlotsRead m c) s = .next (pcieDone (emit (restartPeak (clearRC (latchHigh (dropLatch s m (baseLDC c + 0x24)) m
    (baseLDC c + 0x24)) (baseLDC c + 0x24)) (baseLDC c + 0x24)) (.readData m (baseLDC c + 0x24) (readValue s m (baseLDC c +
    0x24)))) m))

/-- O26. A re-read of the ladder detects new samples and decodes them, or fails and runs the rungs before it again; track
parity delivers the sector it rebuilds from the track, or the ladder goes to the next rung; a Thatch reconstruction whose
sector passes its tag ends the sector with status 4 and fills the cache, another ends it with status 8; a rebuild read
gives a track being written its parity columns from the sectors it holds. Each clause concludes that the command answers a
next state, under hypotheses on the state and the operands alone. Completes: ladderReread, trackParityReconstruct,
thatchReconstruct, trackParityRebuildRead. (From R138, R139, R140, R144, R240, R242.) -/
def Obligations.Reconstruction : Prop :=
  (∀ (a : Fin 64) (l : Fin 4) (b : BitVec 17) (x : Sector) (q : Ladder) (s : State), ladderAt s (4 * a.val + l.val) 2 = some
    (x, q) → laneReady s (4 * a.val + l.val) = true → (tabGet {} s.spn ((4 * a.val + l.val) / 8)).step = none →
    exec (.ladderReread a l b) s = .next (
      let y :=
        { x with pin := none, tried := [], start := b.toNat, ladder := some { q with rereads := q.rereads + 1, noSample := q.failAs != 8 } }
      let r := liveRead s y q.ctrl
      let z := { y with dec := r.dec }
      let s1 := decisionRecord (laneRecord (putSector s z) z r.d r.f) a l r.dec
      if erasOver s1 z r || r.dec == 2 || r.dec == 4 || r.dec == 5 || !(z.slot || slotFree s1 (4 * a.val + l.val)) then
        settleDet (rereadFailed s1 z.id { q with rereads := q.rereads + 1, noSample := q.failAs != 8 }) else addJob (putLlrs
        (if z.slot then s1 else putSector (takeSlot s1 (4 * a.val + l.val)) { z with slot := true }) z.id (4 * a.val + l.val)
        (liveLlrs z r)) z.age (4 * a.val + l.val) 0 3 z.id)) ∧
  (∀ (a : Fin 64) (l : Fin 4) (r : List (BitVec 16 × BitVec 33024)) (x : Sector × Ladder) (s : State), ladderAt s (4 * a.val +
    l.val) 3 = some x →
    exec (.trackParityReconstruct a l r) s = .next (settleDet ((trackInfo s x.1 r).elim (ladderNext s x.1 false) fun info =>
    endSector (deliver s x.1 info) x.1 3))) ∧
  (∀ (t : Fin 4) (n : BitVec 8) (b : BitVec 40) (r : List (BitVec 5 × BitVec 33024)) (x : Sector) (s : State), engineFree s t
    = true → s.det.sectors.find? (fun x => x.nsid == n.toNat && x.lba == b.toNat && x.ladder.any fun l => rungF l
    ACT_LAD_ACTION == 4 && l.replayTo.isNone) = some x →
    exec (.thatchReconstruct t n b r) s = .next (
      let info := (thatchInfo s ((laneThatch s x.lane).getD 0) x.nsid x.lba (r.map fun y => (y.1.toNat, infoBytes y.2))).getD
        []
      let s1 := endSector (deliver (reconCount s t true) x info) x 4
      settleDet (if info ≠ [] ∧ tagCheck s x info = 0 then cacheInstall s1 3 x.nsid x.lba (lbaData s1 x.nsid x.lba) else
        endSector (reconCount s t false) x 8))) ∧
  (∀ (p : Fin 32) (q : BitVec 5) (n : BitVec 24) (s : State), exec (.trackParityRebuildRead p q n) s = .next (
      let S := trackPositions (bandAt s p q.toNat n.toNat).2.1 (trackCode s p q.toNat n.toNat)
      setDet s fun d =>
        { d with tracks := d.tracks.map fun t => if t.1 = trackKey p q.toNat n.toNat ∧ t.2.cols.isNone then (t.1, { t.2 with cols := some (colsOf S (trackTp s p q.toNat n.toNat) t.2.secs) }) else t }))

/-- O27. A wedge of a following head is decided and triggers the loops, except in LOST, where they hold; the inhibit causes
are set and released; the heads lost together go to LOST and are found again or counted; the settled followers go to
FOLLOW; a saturated micro-actuator and a shock are marked; the rewrite pass ends what it wrote and reads a squeezed track
again; the software inhibit is written. Each clause concludes that the command answers a next state, under hypotheses on
the state and the operands alone. Completes: servoWedge, missInhibit, inhibitRelease, servoLost, servoReacquire, settled,
maSaturation, shockRecord, shockRecordTimeout, shockHoldExpire, rewritePass, squeezeRead, swInhibitWrite. (From R157,
R159, R161, R162, R163, R164, R165, R167, R168, R171, R172, R179.) -/
def Obligations.ServoCommands : Prop :=
  (∀ (a : Fin 64) (l : Fin 4) (w : WedgeFind) (t : BitVec 48) (s : State), following s a l = true →
    exec (.servoWedge a l w t) s = .next (flyWedge (stepWedge (wedgeTrigger (wedgeSeen s a l w) a l t.toNat (wedgeMissed
    (takeLimits s a) a l w)) a l) a l)) ∧
  (∀ (a : Fin 64) (l : Fin 4) (s : State), following s a l = true → missTol s a < fget s (ACT_SL_INH a l) ACT_SL_INH_MISSES →
    (slane s a l).setNow = 0 →
    exec (.missInhibit a l) s = .next (noRewrites (setCause s a l 1) a)) ∧
  (∀ (a : Fin 64) (l : Fin 4) (s : State),
    exec (.inhibitRelease a l) s = .next (forAll (rangeFrom 0 8) s fun s c => if releasable s a l c then clearCause s a l c
    else s)) ∧
  (∀ (a : Fin 64) (s : State), 2 ≤ srvMode s a → srvMode s a ≠ 5 → allMissed s a = true →
    exec (.servoLost a) s = .next (holdLoops (forAll (rangeFrom 0 4) (setSlice (evtSet (setSrvMode s a 5) (.srv a)
    ACT_SRV_EVT_LOST) a fun x => { x with tries := 0 }) fun s l => setSrc s a l 1 true) a)) ∧
  (∀ (a : Fin 64) (s : State), srvMode s a = 5 → (slice s a).unloading = false →
    exec (.servoReacquire a true) s = .next (servoFound (evtSet s (.srv a) ACT_SRV_EVT_REACQ) a)) ∧
  (∀ (a : Fin 64) (s : State), srvMode s a = 5 → (slice s a).unloading = false → (slice (evtSet s (.srv a) ACT_SRV_EVT_REACQ)
    a).tries < 2 →
    exec (.servoReacquire a false) s = .next (setSlice (evtSet s (.srv a) ACT_SRV_EVT_REACQ) a fun x =>
    { x with tries := (slice (evtSet s (.srv a) ACT_SRV_EVT_REACQ) a).tries + 1 })) ∧
  (∀ (a : Fin 64) (s : State), srvMode s a = 3 → followers s a ≠ [] → (followers s a).all (fun l => decide (settleN s a ≤
    (slane s a l).settle)) = true →
    exec (.settled a) s = .next (evtSet (setSrvMode s a 4) (.srv a) ACT_SRV_EVT_SETTLED)) ∧
  (∀ (a : Fin 64) (l : Fin 4) (s : State), following s a l = true → maSaturated s a l = true → srcOn s a l 2 = false →
    exec (.maSaturation a l) s = .next (setSrc (evtSet s (.srv a) ACT_SRV_EVT_MA_SAT) a l 2 true)) ∧
  (∀ (p : Fin 32) (v : BitVec 16) (t : BitVec 32) (s : State), v.toNat = 0xFFFF →
    exec (.shockRecord p v t) s = .next (shockSlice (shockSlice s (2 * p)) (2 * p + 1))) ∧
  (∀ (a : Fin 64) (s : State), srvMode s a ≠ 0 → exec (.shockRecordTimeout a) s = .next (shockSlice s a)) ∧
  (∀ (a : Fin 64) (s : State), exec (.shockHoldExpire a) s = .next (forAll (rangeFrom 0 4) s fun s l => setSrc s a l 3 false)) ∧
  (∀ (a : Fin 64) (s : State), (slice s a).pend ≠ [] → inSafe s = false → srvMode s a = 4 → (slice s a).index = true →
    rewriteMax s a ≤ (slice s a).passes →
    exec (.rewritePass a) s = .next (endPending s a)) ∧
  (∀ (a : Fin 64) (s : State), (slice s a).pend ≠ [] → inSafe s = false → srvMode s a = 4 → (slice s a).index = true → (slice
    s a).passes < rewriteMax s a →
    exec (.rewritePass a) s = .next (if (slice (rewritten s a) a).pend = [] then evtSet (rewritten s a) (.ws a)
    ACT_WS_EVT_REWRITE_DONE else noRewrites (rewritten s a) a)) ∧
  (∀ (a : Fin 64) (l : Fin 4) (f : List (BitVec 16)) (n : BitVec 8) (b : BitVec 40) (k u v : Nat) (s : State), (slane s a
    l).squeezed = some (k, u, some v) →
    exec (.squeezeRead a l f n b) s = .next (setSlane (count (forAll (f.filter fun i => inSpan s a l u v i.toNat) s fun t i =>
    reportReloc t (pendSector a ⟨l, laneHd t a l, earlierTrack t a l k, i.toNat, 0, n.toNat, b.toNat + i.toNat⟩) false)
    (ACT_WS_CNT a 9) 1 (.ws a) ACT_WS_EVT_SAT) a l fun x => { x with squeezed := none })) ∧
  (∀ (m : Master) (a : Fin 64) (k : BitVec 4) (s : State), qcsReach s m (ACT_WS_INH a) = true →
    exec (.swInhibitWrite m a k) s = .next (noRewrites (syncSw (fset s (ACT_WS_INH a) ACT_WS_INH_SW_INH k.toNat) a) a))

/-- O28. The timer triggers the spindle slot with the speed; an idle engine starts the iteration of the ready slot first in
order, ends it, and sends its output at its time; a switch arms its slots and copies an idle one at once, and takes a
group at a speed step; the mode of a slot and a live coefficient are written; a following error acts, ends and is cleared;
an engine without slots powers off. Each clause concludes that the command answers a next state, under hypotheses on the
state and the operands alone. Completes: bridleTimerTick, bridleIterationStart, bridleIterationEnd, bridleOutput,
bridleSwitchGo, bridleSwitchIdleCopy, speedStepGroupSwitch, slotModeWrite, liveCoefWrite, followingErrorAction,
followingErrorEnd, feClear, bridleEnginePoweroff, brdStatRead. (From R179, R180, R181, R184, R186, R187, R188, R190, R192,
R193, R194, R195.) -/
def Obligations.BridleCommands : Prop :=
  (∀ (e : Fin 16) (k : Fin 64) (t : BitVec 48) (s : State), slotKind k = 3 →
    exec (.bridleTimerTick e k t) s = .next (brdTrigger s e k t.toNat 0 (speed s (slotAct e k / 2)) false)) ∧
  (∀ (e : Fin 16) (t : BitVec 48) (k : Nat) (s : State), fbit s (BRD_CTRL e) BRD_CTRL_EN = true → domOn s (411 + e) = true →
    (engine s e).run = none → nextReady s e = some k →
    exec (.bridleIterationStart e t) s = .next (iterate s e k t.toNat)) ∧
  (∀ (e : Fin 16) (i : BrdIter) (s : State), (engine s e).run = some i →
    exec (.bridleIterationEnd e) s = .next (iterated s e i)) ∧
  (∀ (e : Fin 16) (k : Fin 64) (o : Int × Nat × Bool) (l : List (Int × Nat × Bool)) (s : State), (bslot s e k).pend = o :: l →
    exec (.bridleOutput e k) s = .next (sendOutputs (forAll (dueWith s e k o) s fun s x => outputGone s e x) e (slotAct e k /
    2) (((dueWith s e k o).filter fun x => !slotSilent s e x.1).map fun x => (x.1, x.2.1)))) ∧
  (∀ (m : Master) (e : Fin 16) (s : State), qcsReach s m (BRD_SW_CTRL e) = true →
    exec (.bridleSwitchGo m e) s = .next (switchGo s e)) ∧
  (∀ (e : Fin 16) (k : Fin 64) (s : State), (bslot s e k).armed = true → iterates s e k = false ∨ fbit s (BRD_SL_STAT e k)
    BRD_SL_STAT_FE_ACTIVE = true ∨ ((bslot s e k).ready = false ∧ slotTriggered s e k = false) → (engine s e).run = none →
    exec (.bridleSwitchIdleCopy e k) s = .next (switchCopy s e k)) ∧
  (∀ (p : Fin 32) (c : StepChange) (s : State), (spnOf s p).step = some c → c.phase = 2 → (if wedgesSeen s p then decide (16 ≤
    (spnOf s p).near) else speedNear s p c.target) = true → switching s p = false → claimed s (baseBRD (p / 2)) = false →
    exec (.speedStepGroupSwitch p) s = .next (groupSwitch (setSpn s p fun x => { x with step := some { c with phase := 3 } })
    p (coefSet s p c.target) ((mechSlots p).filter fun k => slotKind k != 3))) ∧
  (∀ (m : Master) (e : Fin 16) (k : Fin 64) (s : State), qcsReach s m (BRD_SL_CTRL e k) = true → slotUsed k = true →
    exec (.slotModeWrite m e k 0) s = .next (fset s (BRD_SL_CTRL e k) BRD_SL_CTRL_MODE 0)) ∧
  (∀ (m : Master) (e : Fin 16) (k : Fin 64) (v : BitVec 2) (s : State), qcsReach s m (BRD_SL_CTRL e k) = true → slotUsed k =
    true → v ≠ 0 →
    exec (.slotModeWrite m e k v) s = .next (enginePower (fset s (BRD_SL_CTRL e k) BRD_SL_CTRL_MODE v.toNat) e)) ∧
  (∀ (m : Master) (e : Fin 16) (k : Fin 64) (i : Fin 16) (v : Word) (s : State), qcsReach s m (BRD_COEF e k i) = true →
    slotKind k ≠ 0xE → (bslot s e k).armed = false →
    exec (.liveCoefWrite m e k i v) s = .next (wr s (BRD_COEF e k i) v)) ∧
  (∀ (m : Master) (e : Fin 16) (k : Fin 64) (i : Fin 16) (v : Word) (s : State), qcsReach s m (BRD_COEF e k i) = true →
    slotKind k ≠ 0xE → (bslot s e k).armed = true →
    exec (.liveCoefWrite m e k i v) s = .next (evtSet (fset s (BRD_SL_STAT e k) BRD_SL_STAT_SWERR 2) (.brd e) BRD_EVT_SW_ERR)) ∧
  (∀ (e : Fin 16) (k : Fin 64) (s : State), slotUsed k = true → (bslot s e k).mode = 2 → fbit s (BRD_SL_STAT e k)
    BRD_SL_STAT_FE_ACTIVE = false → feN s e k ≤ fget s (BRD_SL_STAT e k) BRD_SL_STAT_FE_CNT →
    exec (.followingErrorAction e k) s = .next (feAction s e k)) ∧
  (∀ (e : Fin 16) (k : Fin 64) (s : State), fbit s (BRD_SL_STAT e k) BRD_SL_STAT_FE_ACTIVE = true → (bslot s e k).feAct = 0 →
    feN s e k ≤ (bslot s e k).feLow → slotKind k ≠ 4 →
    exec (.followingErrorEnd e k) s = .next (syncFe (fset (fsetb s (BRD_SL_STAT e k) BRD_SL_STAT_FE_ACTIVE false) (BRD_SL_STAT
    e k) BRD_SL_STAT_FE_CNT 0) e k)) ∧
  (∀ (m : Master) (e : Fin 16) (k : Fin 64) (s : State), qcsReach s m (BRD_SL_FE e k) = true → slotUsed k = true → fbit s
    (BRD_SL_STAT e k) BRD_SL_STAT_FE_ACTIVE = true → (bslot s e k).feAct ≠ 0 →
    exec (.feClear m e k) s = .next (syncFe (setBslot (fset (fsetb s (BRD_SL_STAT e k) BRD_SL_STAT_FE_ACTIVE false)
    (BRD_SL_STAT e k) BRD_SL_STAT_FE_CNT 0) e k fun x => { x with feAct := 0, feLow := 0, preset := x.preset || x.mode == 2 })
    e k)) ∧
  (∀ (e : Fin 16) (s : State), fbit s (BRD_CTRL e) BRD_CTRL_PWR_AUTO = true → (rangeFrom 0 64).all (fun k => slotMode s e k ==
    0) = true → domOn s (411 + e) = true → domOn (domRelease s (411 + e)) (411 + e) = false →
    exec (.bridleEnginePoweroff e) s = .next (forAll (rangeFrom 0 64) (setEngine (fset (fset (fsetb (domRelease s (411 + e))
    (BRD_STAT e) BRD_STAT_PWR false) (BRD_STAT e) BRD_STAT_Q 0) (BRD_STAT e) BRD_STAT_LOAD 0) e fun _ => {}) fun s k => wrN
    (setBslot s e k fun x => { armed := x.armed }) (BRD_SL_OUT e k) 0)) ∧
  (∀ (m : Master) (e : Fin 16) (s : State), accessUndefined s m (BRD_STAT e) = false →
    exec (.brdStatRead m e) s = .next (pcieDone (emit (restartPeak (clearRC (latchHigh (dropLatch s m (BRD_STAT e)) m
    (BRD_STAT e)) (BRD_STAT e)) (BRD_STAT e)) (.readData m (BRD_STAT e) (readValue s m (BRD_STAT e)))) m))

/-- O29. REQ and STEP are written and asked for; the first start in line is admitted when a spin-up is free; the chopper's
service bit clears and sets RETIRED with its reason. Each clause concludes that the command answers a next state, under
hypotheses on the state and the operands alone. Completes: spnReqRun, spnReqStop, spnReqCoast, spnStepWrite, spinupAdmit,
chopSvcClr, chopSet. (From R204, R207, R208, R210, R219, R315.) -/
def Obligations.SpindleRequests : Prop :=
  (∀ (m : Master) (p : Fin 32) (i : BitVec 2) (s : State), qcsReach s m (SPN_CTRL p) = true →
    exec (.spnReqRun m p i) s = .next (askRun (fset (fset s (SPN_CTRL p) SPN_CTRL_REQ 1) (SPN_CTRL p) SPN_CTRL_STEP i.toNat)
    p)) ∧
  (∀ (m : Master) (p : Fin 32) (s : State), qcsReach s m (SPN_CTRL p) = true → requestPasses (fset s (SPN_CTRL p) SPN_CTRL_REQ
    0) p 0 = true →
    exec (.spnReqStop m p) s = .next (doStop (fset s (SPN_CTRL p) SPN_CTRL_REQ 0) p false)) ∧
  (∀ (m : Master) (p : Fin 32) (s : State), qcsReach s m (SPN_CTRL p) = true → requestPasses (fset s (SPN_CTRL p) SPN_CTRL_REQ
    2) p 0 = true →
    exec (.spnReqCoast m p) s = .next (doStop (fset s (SPN_CTRL p) SPN_CTRL_REQ 2) p true)) ∧
  (∀ (m : Master) (p : Fin 32) (i : BitVec 2) (s : State), qcsReach s m (SPN_CTRL p) = true →
    exec (.spnStepWrite m p i) s = .next (askStep (fset s (SPN_CTRL p) SPN_CTRL_STEP i.toNat) p i.toNat)) ∧
  (∀ (p : Fin 32) (s : State), s.shelf.waits.contains p.val = true → firstInLine s p = true → inSafe s = false → s.prt.hoWait
    = false → (spnOf s p).wantRun = true → spnState s p = 0 → portUp s p = true → policyOpen s p = true → (spnOf s p).chopStop
    = false → fget s SPN_SHELF_CTRL SPN_SHELF_CTRL_SPINUPS < spinupMax s →
    exec (.spinupAdmit p) s = .next (admitStart s p none)) ∧
  (∀ (m : Master) (p : Fin 32) (s : State), qcsReach s m (SPN_CHOP p) = true →
    exec (.chopSvcClr m p) s = .next (fset (fsetb s (SPN_CHOP p) SPN_CHOP_RETIRED false) (SPN_CHOP p) SPN_CHOP_WHY 0)) ∧
  (∀ (m : Master) (p : Fin 32) (s : State), qcsReach s m (SPN_CHOP p) = true →
    exec (.chopSet m p) s = .next (fset (fsetb s (SPN_CHOP p) SPN_CHOP_RETIRED true) (SPN_CHOP p) SPN_CHOP_WHY 3))

/-- O30. Crossings advance the commutation and their loss fails a step; CATCH locks into ACCEL, or goes to ALIGN or SHORT;
ALIGN ends in RAMP, RAMP in ACCEL or in another try; ACCEL ends in RUN; SHORT ends in ALIGN or STOPPED; the reference
slews; a bus record is taken and a regenerating mechanism sends its share; a chopper fault, a lost observer and a coasting
mechanism are handled; the unloading of heads ends. Each clause concludes that the command answers a next state, under
hypotheses on the state and the operands alone. Completes: zcRecord, commutationStep, commutationStepFail, observerLoss,
sineUpdate, catchLock, catchNoCrossing, catchImplausible, alignDone, rampHandover, rampTimeout, spindleRunReached,
shortEnd, regenAdmit, speedRefSlewTick, busRecord, chopperFault, regenStopClear, coastWaitEnd, catchWindowExpire,
headUnloadDone. (From R202, R203, R204, R208, R209, R210, R212, R466.) -/
def Obligations.SpindleMotion : Prop :=
  (∀ (p : Fin 32) (i : BitVec 8) (t : BitVec 32) (k : Nat) (s : State), spnState s p = 4 → (spnOf s p).lastStep = none →
    crossingStep i.toNat = some k →
    exec (.zcRecord p i t) s = .next (setSpn s p fun x => { x with lastStep := some k, lastT := t.toNat })) ∧
  (∀ (p : Fin 32) (i : BitVec 8) (t : BitVec 32) (s : State), spnState s p = 4 → crossingStep i.toNat = none → inWindow s p
    ((spnOf s p).fails + 1) ((t.toNat + 2 ^ 32 - (spnOf s p).lastT) % 2 ^ 32) (rdN s (SPN_ZC p)) = true →
    exec (.zcRecord p i t) s = .next (stepFail s p)) ∧
  (∀ (p : Fin 32) (s : State), spnState s p = 4 ∨ spnState s p = 5 ∨ spnState s p = 6 →
    exec (.commutationStep p) s = .next (driveOut (fset s (SPN_STAT p) SPN_STAT_CSTEP ((fget s (SPN_STAT p) SPN_STAT_CSTEP +
    1) % 6)) p)) ∧
  (∀ (p : Fin 32) (s : State), driven (spnState s p) = true → exec (.commutationStepFail p) s = .next (stepFail s p)) ∧
  (∀ (p : Fin 32) (s : State), observerLost s p = true →
    exec (.observerLoss p) s = .next (safeWriterLost (observerLoss s p) p)) ∧
  (∀ (p : Fin 32) (o : BitVec 10) (s : State), spnState s p = 11 →
    exec (.sineUpdate p o) s = .next (sendDrive s p 2 (duty s p (spnOut s p) o.toNat * 2 ^ 18 + duty s p (spnOut s p) (o.toNat
    + 683) * 2 ^ 9 + duty s p (spnOut s p) (o.toNat + 341)))) ∧
  (∀ (p : Fin 32) (s : State), spnState s p = 1 → 12 ≤ (spnOf s p).plaus → fget s (SPN_LIM p) SPN_LIM_CATCH_MIN * 100 ≤ speed
    s p →
    exec (.catchLock p) s = .next (goAccel (evtSet (count (fset s (SPN_STAT p) SPN_STAT_CSTEP ((spnOf s p).lastStep.getD 0))
    (SPN_CNT p 1) 1 (.spn p) SPN_EVT_SAT) (.spn p) SPN_EVT_CATCH_OK) p)) ∧
  (∀ (p : Fin 32) (s : State), spnState s p = 1 → (spnOf s p).lastStep = none →
    exec (.catchNoCrossing p) s = .next (goAlign s p)) ∧
  (∀ (p : Fin 32) (k : Nat) (s : State), spnState s p = 1 → (spnOf s p).lastStep = some k →
    exec (.catchImplausible p) s = .next (goShort s p true)) ∧
  (∀ (p : Fin 32) (s : State), spnState s p = 2 →
    exec (.alignDone p) s = .next (fset (spnSlotMode (setSpn (setSpnState s p 3) p fun x =>
    { x with theta := 0, olSpeed := 0, plaus := 0, lastStep := none }) p 1 (fget s (SPN_START_AMP p) SPN_START_AMP_RAMP_AMP))
    (SPN_STAT p) SPN_STAT_DRIVE 2)) ∧
  (∀ (p : Fin 32) (s : State), spnState s p = 3 → fget s (SPN_START p) SPN_START_HANDOVER * 1000000 ≤ (spnOf s p).olSpeed → 12
    ≤ (spnOf s p).plaus →
    exec (.rampHandover p) s = .next (goAccel (fset (wrN s (BRD_SL_OUT (slotOf (2 * p) 13).1 (slotOf (2 * p) 13).2) (fget s
    (SPN_START_AMP p) SPN_START_AMP_RAMP_AMP)) (SPN_STAT p) SPN_STAT_CSTEP ((spnOf s p).lastStep.getD 0)) p)) ∧
  (∀ (p : Fin 32) (s : State), spnState s p = 3 → fget s (SPN_STAT p) SPN_STAT_TRIES + 1 < max 1 (fget s (SPN_START p)
    SPN_START_START_TRIES) →
    exec (.rampTimeout p) s = .next (goShort (count (fset s (SPN_STAT p) SPN_STAT_TRIES (fget s (SPN_STAT p) SPN_STAT_TRIES +
    1)) (SPN_CNT p 6) 1 (.spn p) SPN_EVT_SAT) p true)) ∧
  (∀ (p : Fin 32) (s : State), spnState s p = 4 → 16 ≤ (spnOf s p).inTol → (spnOf s p).step = none →
    exec (.spindleRunReached p) s = .next (loadHeads (spnSlotRef (fset (fwFeClear (setSpnState s p 5) (slotOf (2 * p) 13))
    (SPN_STAT p) SPN_STAT_SPEED_STEP (fget s (SPN_CTRL p) SPN_CTRL_STEP)) p (stepSpeed s p (fget s (SPN_CTRL p)
    SPN_CTRL_STEP))) p)) ∧
  (∀ (p : Fin 32) (s : State), spnState s p = 8 → (spnOf s p).alignNext = true → exec (.shortEnd p) s = .next (goAlign s p)) ∧
  (∀ (p : Fin 32) (s : State), spnState s p = 8 → (spnOf s p).alignNext = false → (spnOf s p).chopStop = false →
    exec (.shortEnd p) s = .next (goStopped s p)) ∧
  (∀ (p : Fin 32) (s : State), s.shelf.regenQ.head? = some p.val → exec (.regenAdmit p) s = .next (driveOut s p)) ∧
  (∀ (p : Fin 32) (c : StepChange) (s : State), (spnOf (stepSwitch s p) p).step = some c → c.phase = 2 → spnState (stepSwitch
    s p) p = 6 →
    exec (.speedRefSlewTick p) s = .next (
      let s := stepSwitch s p
      let r := rdN s (BRD_SL_REF (slotOf (2 * p) 13).1 (slotOf (2 * p) 13).2)
      let t := stepSpeed s p c.target
      spnSlotRef s p (if r < t then min t (r + fget s (SPN_RAMP p) SPN_RAMP_SLEW) else max t (r - fget s (SPN_RAMP p)
        SPN_RAMP_SLEW)))) ∧
  (∀ (p : Fin 32) (f : BitVec 8) (v : BitVec 16) (s : State), s.shelf.regen.contains p.val = false →
    exec (.busRecord p f v) s = .next (busTaken s p f.toNat v.toNat)) ∧
  (∀ (p : Fin 32) (f : BitVec 8) (v : BitVec 16) (s : State), s.shelf.regen.contains p.val = true →
    exec (.busRecord p f v) s = .next (sendRegen (busTaken s p f.toNat v.toNat) p)) ∧
  (∀ (p : Fin 32) (s : State), chopperFaulty s p = true →
    exec (.chopperFault p) s = .next (safeWriterLost (setFls (chopperFault s p) fun f =>
    { f with choppers := if f.choppers.contains (identSerial s p) then f.choppers else identSerial s p :: f.choppers }) p)) ∧
  (∀ (s : State), fbit s SPN_SHELF_BUS SPN_SHELF_BUS_REGEN_STOP = true → s.shelf.regenQ = [] → (rangeFrom 0 32).all (fun p =>
    !(spnOf s p).busSeen) = true →
    exec .regenStopClear s = .next (fsetb s SPN_SHELF_BUS SPN_SHELF_BUS_REGEN_STOP false)) ∧
  (∀ (p : Fin 32) (s : State), spnState s p = 9 → portUp s p = true →
    exec (.coastWaitEnd p) s = .next (setSpn s p fun x => { x with watch := true, plaus := 0, lastStep := none })) ∧
  (∀ (p : Fin 32) (us : BitVec 32) (s : State), spnState s p = 9 → portUp s p = true →
    exec (.catchWindowExpire p us) s = .next (unloadHeads (setSpnState (evtSet (count s (SPN_CNT p 2) 1 (.spn p) SPN_EVT_SAT)
    (.spn p) SPN_EVT_CATCH_FAIL) p 10) p (decide (coastEstimate s p us.toNat < fget s (SPN_LIM2 p) SPN_LIM2_UNLOAD_MIN *
    100)))) ∧
  (∀ (p : Fin 32) (s : State), exec (.headUnloadDone p) s = .next (safeParkDone (headUnloaded s p)))

/-- O31. A monitor record is taken and triggers its slot; a lost monitor and a clearance record are handled; a temperature
record is stored or is a sensor fault; a calibration command starts one calibration, and its end records a pass or counts
a failure. Each clause concludes that the command answers a next state, under hypotheses on the state and the operands
alone. Completes: monRecord, monTimeout, clearanceRecord, mechTempRecord, astCalGo, assistCalDone. (From R213, R215, R216,
R351.) -/
def Obligations.AssistCommands : Prop :=
  (∀ (p : Fin 32) (l : Fin 8) (v : BitVec 16) (t : BitVec 48) (s : State),
    exec (.monRecord p l v t) s = .next (brdTrigger (monTaken s p l) (assistSlot p l).1 (assistSlot p l).2 t.toNat 0 v.toNat
    false)) ∧
  (∀ (p : Fin 32) (l : Fin 8) (s : State), (spnOf s p).assistOn.contains l.val = true → (spnOf s p).monLost.contains l.val =
    false →
    exec (.monTimeout p l) s = .next (sync5 (evtSet (setSpn s p fun z => { z with monLost := l.val :: z.monLost }) (.ast p)
    AST_EVT_MON_FAULT) p)) ∧
  (∀ (p : Fin 32) (l : Fin 8) (v : BitVec 16) (t : BitVec 48) (s : State),
    exec (.clearanceRecord p l v t) s = .next (brdTrigger s (flySlot p l).1 (flySlot p l).2 t.toNat 0 v.toNat false)) ∧
  (∀ (p : Fin 32) (t : BitVec 16) (s : State), tempValid (tempOf t) = true →
    exec (.mechTempRecord p 0 t) s = .next (readNow (fset s (THM_MECH_W1 p) THM_MECH_W1_TEMP t.toNat) (60 + p))) ∧
  (∀ (p : Fin 32) (t : BitVec 16) (s : State), tempValid (tempOf t) = false →
    exec (.mechTempRecord p 1 t) s = .next (sensorFault s)) ∧
  (∀ (m : Master) (p : Fin 32) (q : BitVec 5) (b : BitVec 3) (s : State), qcsReach s m (AST_CALCMD p) = true → fbit s
    (AST_CALCMD p) AST_CALCMD_GO = false → q.toNat ≤ 23 → b.toNat ≤ 5 → fbit s (AST_WEAR_W2 p q.toNat) AST_WEAR_W2_RETIRED =
    false →
    exec (.astCalGo m p q b) s = .next (fsetb (fset (fset (fset s (AST_CALCMD p) AST_CALCMD_Q q.toNat) (AST_CALCMD p)
    AST_CALCMD_B b.toNat) (AST_CALCMD p) AST_CALCMD_RESULT 0) (AST_CALCMD p) AST_CALCMD_GO true)) ∧
  (∀ (p : Fin 32) (v : List (BitVec 16)) (n : BitVec 16) (s : State), fbit s (AST_CALCMD p) AST_CALCMD_GO = true →
    exec (.assistCalDone p v n) s = .next (calWidths s p v n.toNat))

/-- O32. A due zone is journalled and the write's end is recorded or noted as an error; an accumulator is read back once; a
rebuild starts, stops with result 2 and ends with result 0; a reported unit is relocated to the next spare; Zone Locate
and the context window answer in their registers. Each clause concludes that the command answers a next state, under
hypotheses on the state and the operands alone. Completes: journalTimer, journalWriteDone, accumulatorReadback,
rebuildStart, rebuildStop, rebuildDone, relocation, zoneLocateGo, ctxSelect, zmpStatRead. (From R232, R241, R243, R244,
R250, R251, R252.) -/
def Obligations.ZoneCommands : Prop :=
  (∀ (n : BitVec 8) (z : BitVec 32) (s : State), s.zmp.jrnDue.contains (zoneKey n.toNat z.toNat) = true →
    exec (.journalTimer n z) s = .next (journalZone s n.toNat z.toNat)) ∧
  (∀ (p : Fin 32) (x : Nat × List Nat) (s : State), s.zmp.jrnBusy.find? (fun x => x.1 == p.val) = some x →
    exec (.journalWriteDone p false) s = .next (evtSet (journalKeys (setZmp s fun z =>
    { z with jrnBusy := z.jrnBusy.erase x }) p x.2) .zmp ZMP_EVT_JRN_ERR)) ∧
  (∀ (p : Fin 32) (x : Nat × List Nat) (s : State), s.zmp.jrnBusy.find? (fun x => x.1 == p.val) = some x → zoneKeys x.2 ≠ [] →
    exec (.journalWriteDone p true) s = .next (releaseMoved (forAll x.2 (journalTaken s x) fun s k => relocJournalled s p k)
    (zoneKeys x.2))) ∧
  (∀ (p : Fin 32) (x : Nat × List Nat) (s : State), s.zmp.jrnBusy.find? (fun x => x.1 == p.val) = some x → zoneKeys x.2 = [] →
    exec (.journalWriteDone p true) s = .next (forAll x.2 (journalTaken s x) fun s k => relocJournalled s p k)) ∧
  (∀ (t : Fin 4) (u : BitVec 12) (z r : BitVec 32) (a : RowAcc) (s : State), engineFree s t = true → s.zmp.accLost.find?
    (ofRow u.toNat z.toNat r.toNat) = some a →
    exec (.accumulatorReadback t u z r) s = .next (evtSet (count (count (useAcc s (rowRead (thatchM s u.toNat) a)) (THT_CNT t
    4) 1 (.tht t) THT_EVT_SAT) (ZMP_CNT 5) 1 .zmp ZMP_EVT_SAT) (.tht t) THT_EVT_ACC_READBACK)) ∧
  (∀ (m : Master) (t : Fin 4) (i : BitVec 5) (u : BitVec 12) (s : State), qcsReach s m (THT_RB_CTRL t) = true → fbit s
    (THT_RB_STAT t) THT_RB_STAT_BUSY = false →
    exec (.rebuildStart m t i u) s = .next (rebuildStart s t u.toNat i.toNat)) ∧
  (∀ (m : Master) (t : Fin 4) (s : State), qcsReach s m (THT_RB_CTRL t) = true → fbit s (THT_RB_STAT t) THT_RB_STAT_BUSY =
    true →
    exec (.rebuildStop m t) s = .next (rebuildEnd (wrN s (THT_RB_ZONE t) 0) t 2)) ∧
  (∀ (t : Fin 4) (n : BitVec 31) (s : State), fbit s (THT_RB_STAT t) THT_RB_STAT_BUSY = true → memberBound s (fget s
    (THT_RB_CTRL t) THT_RB_CTRL_UID) (fget s (THT_RB_CTRL t) THT_RB_CTRL_MEMBER) = false →
    exec (.rebuildDone t n) s = .next (rebuildEnd s t 4)) ∧
  (∀ (t : Fin 4) (n : BitVec 31) (s : State), fbit s (THT_RB_STAT t) THT_RB_STAT_BUSY = true → memberBound s (fget s
    (THT_RB_CTRL t) THT_RB_CTRL_UID) (fget s (THT_RB_CTRL t) THT_RB_CTRL_MEMBER) = true → (members s (fget s (THT_RB_CTRL t)
    THT_RB_CTRL_UID)).length - (available s (members s (fget s (THT_RB_CTRL t) THT_RB_CTRL_UID))).length ≤ thatchM s (fget s
    (THT_RB_CTRL t) THT_RB_CTRL_UID) → domOn s (467 + t) = true →
    exec (.rebuildDone t n) s = .next (rebuildEnd (count (count (wrN s (THT_RB_ZONE t) (rdN s (THT_RB_TOTAL t))) (THT_CNT t 5)
    (rdN s (THT_RB_TOTAL t)) (.tht t) THT_EVT_SAT) (THT_CNT t 3) n.toNat (.tht t) THT_EVT_SAT) t 0)) ∧
  (∀ (p : Fin 32) (r : RelocReq) (d : Nat) (s : State), s.det.relocQ.find? (fun r => r.port == p.val) = some r → fbit s
    ZMP_CTRL ZMP_CTRL_RELOC_EN = true → spareNext s r.port r.q = some d →
    exec (.relocation p) s = .next (relocStart (setDet s fun d => { d with relocQ := d.relocQ.erase r }) r d)) ∧
  (∀ (p : Fin 32) (r : RelocReq) (d : Nat) (s : State), s.det.relocQ.find? (fun r => r.port == p.val) = some r → fbit s
    ZMP_CTRL ZMP_CTRL_RELOC_EN = false → spareNext s r.port r.q = some d →
    exec (.relocation p) s = .next (relocFail (setDet s fun d => { d with relocQ := d.relocQ.erase r }) r)) ∧
  (∀ (p : Fin 32) (r : RelocReq) (s : State), s.det.relocQ.find? (fun r => r.port == p.val) = some r → spareNext s r.port r.q
    = none →
    exec (.relocation p) s = .next (relocFail (setDet s fun d => { d with relocQ := d.relocQ.erase r }) r)) ∧
  (∀ (m : Master) (n : BitVec 8) (s : State), qcsReach s m (ZMP_LOC_CMD) = true → (locateLba s n.toNat (rdN s ZMP_LOC_LBA_LO +
    2 ^ 32 * (rdN s ZMP_LOC_LBA_HI % 256))).1 ≠ 0 →
    exec (.zoneLocateGo m n) s = .next (fset (fset s ZMP_LOC_CMD ZMP_LOC_CMD_NSID n.toNat) ZMP_LOC_CMD ZMP_LOC_CMD_RESULT
    (locateLba s n.toNat (rdN s ZMP_LOC_LBA_LO + 2 ^ 32 * (rdN s ZMP_LOC_LBA_HI % 256))).1)) ∧
  (∀ (m : Master) (i : BitVec 12) (s : State), qcsReach s m (ZMP_CTX_SEL) = true →
    exec (.ctxSelect m i) s = .next (forAll ((rangeFrom 0 8).zip (ctxWords s i.toNat)) (fset s ZMP_CTX_SEL ZMP_CTX_SEL_INDEX
    i.toNat) fun s x => wrN s (ZMP_CTX x.1) x.2)) ∧
  (∀ (m : Master) (s : State), accessUndefined s m ZMP_STAT = false → exec (.zmpStatRead m) s = .next (
      let t := clearRC (latchHigh (dropLatch s m ZMP_STAT) m ZMP_STAT) ZMP_STAT
      pcieDone (emit (fset t ZMP_STAT ZMP_STAT_PEAK (fget t ZMP_STAT ZMP_STAT_ACTIVE)) (.readData m ZMP_STAT (readValue s m
        ZMP_STAT))) m))

/-- O33. PERST takes the link down, resets the controller and releases the port's claims, and its end powers the port on; a
link-up is recorded with its speed and width; a surprise link-down, a function-level reset and CC.EN = 0 reset the
controller; CC.EN = 1 enables it. Each clause concludes that the command answers a next state, under hypotheses on the
state and the operands alone. Completes: perstAssert, perstDeassert, pcieLinkUp, surpriseLinkDown, functionLevelReset,
ccEnClear, ccEnSet. (From R253, R258, R339.) -/
def Obligations.HostLinks : Prop :=
  (∀ (x : HPort) (s : State),
    exec (.perstAssert x) s = .next (psUpdate (partyReset (releaseClaims (domRelease (linkDown (controllerReset (setCtl s
    (portId x) fun c => { c with perst := true }) (portId x)) (portId x)) (hostDom (portId x))) (portId x)) (portId x)))) ∧
  (∀ (x : HPort) (s : State), portExists (syncCntlidB (fsetb s HIF_MODE HIF_MODE_BIFUR true)) (portId x) = true →
    exec (.perstDeassert x true) s = .next (domRequest (setCtl (syncCntlidB (fsetb s HIF_MODE HIF_MODE_BIFUR true)) (portId x)
    fun c => { c with perst := false }) (hostDom (portId x)))) ∧
  (∀ (x : HPort) (v : BitVec 3) (n : BitVec 6) (s : State), 3 ≤ v.toNat → v.toNat ≤ 5 → 1 ≤ n.toNat → n.toNat ≤ 8 → portExists
    s (portId x) = true → (ctl s (portId x)).perst = false →
    exec (.pcieLinkUp x v n) s = .next (psUpdate (fsetb (fset (fset s (HIF_PORT_STAT (portId x)) HIF_PORT_STAT_SPEED v.toNat)
    (HIF_PORT_STAT (portId x)) HIF_PORT_STAT_WIDTH n.toNat) (HIF_PORT_STAT (portId x)) HIF_PORT_STAT_LINK_UP true))) ∧
  (∀ (x : HPort) (s : State), fbit s (HIF_PORT_STAT (portId x)) HIF_PORT_STAT_LINK_UP = true →
    exec (.surpriseLinkDown x) s = .next (surpriseDown s (portId x))) ∧
  (∀ (x : HPort) (s : State), portExists s (portId x) = true →
    exec (.functionLevelReset x) s = .next (partyReset (controllerReset s (portId x)) (portId x))) ∧
  (∀ (x : HPort) (s : State), (ctl s (portId x)).enabled = true →
    exec (.ccEnClear x) s = .next (controllerReset s (portId x))) ∧
  (∀ (x : HPort) (s : State), portExists s (portId x) = true → fbit s (HIF_PORT_STAT (portId x)) HIF_PORT_STAT_LINK_UP = true
    → (ctl s (portId x)).enabled = false →
    exec (.ccEnSet x) s = .next (psUpdate (raiseReady (setCtl s (portId x) fun c => { c with enabled := true }))))

/-- O34. A doorbell moves the tail and wakes a sleeping steered unit; a fetched entry becomes a command or stalls for a slot;
the ledger admits the oldest write or makes it wait; the write's data is taken and mirrored, or its loss fails it (a
poisoned completion also sets the AER state); the partner's acknowledgement is noted; at its commit point the command
completes. Each clause concludes that the command answers a next state, under hypotheses on the state and the operands
alone. Completes: sqDoorbellWrite, commandFetch, ledgerAdmit, hostDataReceived, poisonedCompletion, writeDataTimeout,
mirrorAck, commitPoint. (From R56, R257, R264, R265, R266, R389.) -/
def Obligations.HostFlow : Prop :=
  (∀ (x : HPort) (n v : BitVec 16) (q : Nat × Sq) (s : State), portExists s (portId x) = true → (ctl s (portId x)).ready =
    true → (ctl s (portId x)).sqs.find? (fun q => q.1 == n.toNat) = some q → steered (setCtl s (portId x) fun c =>
    { c with sqs := tabPut c.sqs q.1 { q.2 with tail := v.toNat % max 1 q.2.size } }) (portId x) n.toNat = none →
    exec (.sqDoorbellWrite x n v) s = .next (setCtl s (portId x) fun c =>
    { c with sqs := tabPut c.sqs q.1 { q.2 with tail := v.toNat % max 1 q.2.size } })) ∧
  (∀ (x : HPort) (n : BitVec 16) (e : SqEntry) (q : Nat × Sq) (s : State), portExists s (portId x) = true → (ctl s (portId
    x)).ready = true → (ctl s (portId x)).sqs.find? (fun q => q.1 == n.toNat) = some q → q.2.head ≠ q.2.tail → fetchRuns s =
    true → fget s HIF_CTRL HIF_CTRL_FETCH_EN / 2 ^ portId x % 2 = 1 → cmdSlotFree s (portId x) = true →
    exec (.commandFetch x n e) s = .next (takeEntry s (portId x) n.toNat q.2 e)) ∧
  (∀ (c : Cmd) (s : State), (ledgerWaiters s).head? = some c → admitsAll s (writeBacksAhead s c.order ++ [writeExt s c]) =
    true →
    exec .ledgerAdmit s = .next (setCmd (syncDirty (setZmp s fun z => { z with dirty := z.dirty ++ [writeExt s c] })) c fun d
    => { d with admitted := true, xfer := d.opc == 0x08 })) ∧
  (∀ (c : Cmd) (s : State), (ledgerWaiters s).head? = some c → admitsAll s (writeBacksAhead s c.order ++ [writeExt s c]) =
    false →
    exec .ledgerAdmit s = .next (forAll (ledgerWaiters s) s ledgerWait)) ∧
  (∀ (x : HPort) (q i : BitVec 16) (d : List Nat) (c : Cmd) (s : State), findCmd s (portId x) q.toNat i.toNat = some c → c.opc
    = 0x01 ∨ c.opc = 0x7D → c.admitted = true → c.xfer = false → c.fail = none → d.length = c.len →
    exec (.hostDataReceived x q i d) s = .next (mirror (bufferWritten (setCmd s c fun y => { y with data := d, xfer := true })
    c) 3 ([c.nsid, c.slba, c.len] ++ d))) ∧
  (∀ (x : HPort) (q i : BitVec 16) (c : Cmd) (s : State), findCmd s (portId x) q.toNat i.toNat = some c → isWrite c = true →
    c.admitted = true → c.xfer = false → c.fail = none →
    exec (.poisonedCompletion x q i) s = .next (failCmd (evtSet (count (setCtl s c.port fun k =>
    { k with aerPoisoned := true }) (HIF_PORT_CNT c.port 9) 1 .hif HIF_EVT_SAT) .hif HIF_EVT_POISON_RX) c 0 0x04)) ∧
  (∀ (x : HPort) (q i : BitVec 16) (c : Cmd) (s : State), findCmd s (portId x) q.toNat i.toNat = some c → isWrite c = true →
    c.admitted = true → c.xfer = false → c.fail = none →
    exec (.writeDataTimeout x q i) s = .next (failCmd s c 0 0x04)) ∧
  (∀ (x : HPort) (q i : BitVec 16) (c : Cmd) (s : State), findCmd s (portId x) q.toNat i.toNat = some c → isWrite c = true →
    c.xfer = true → mirrorOn s = true →
    exec (.mirrorAck x q i) s = .next (setCmd s c fun d => { d with mirrored := true })) ∧
  (∀ (x : HPort) (q i : BitVec 16) (c : Cmd) (r : Nat × Cq) (s : State), findCmd s (portId x) q.toNat i.toNat = some c →
    cqRoom s c.port c.sq = some r → c.fail = none → c.started = true → commitMet s c = true → isWrite c = false →
    exec (.commitPoint x q i) s = .next (postCqe (digest s c c.slba 0 0) c r.1 r.2 0 0 0 0)) ∧
  (∀ (x : HPort) (q i : BitVec 16) (c : Cmd) (r : Nat × Cq) (f : Nat × Nat) (s : State), findCmd s (portId x) q.toNat i.toNat
    = some c → cqRoom s c.port c.sq = some r → c.fail = some f →
    exec (.commitPoint x q i) s = .next (postCqe (digest s c c.slba f.1 f.2) c r.1 r.2 f.1 f.2 0 0))

/-- O35. A write that nothing refuses starts; one that is refused fails with the status of the refusal; a read or a verify
that may not start fails, and one whose data is there ends with its data; a flush starts at once. Each clause concludes
that the command answers a next state, under hypotheses on the state and the operands alone. Completes: nvmWrite,
nvmWriteZeroes, zoneAppend, nvmRead, nvmVerify, nvmFlush. (From R265, R267, R268.) -/
def Obligations.IoReadsAndWrites : Prop :=
  (∀ (x : HPort) (q i : BitVec 16) (c : Cmd) (s : State), Due s x q i 0x01 c = true → writeRefuses s c = none → nsZoned s
    c.nsid = false →
    exec (.nvmWrite x q i) s = .next (setCmd s c fun d => { d with started := true })) ∧
  (∀ (x : HPort) (q i : BitVec 16) (c : Cmd) (s : State), Due s x q i 0x01 c = true → writeRefuses s c = none → nsZoned s
    c.nsid = true → (getZone s c.nsid (cmdZone s c)).zstate = 2 →
    exec (.nvmWrite x q i) s = .next (setCmd s c fun d => { d with started := true })) ∧
  (∀ (x : HPort) (q i : BitVec 16) (c : Cmd) (f : Nat × Nat) (s : State), Due s x q i 0x01 c = true → writeRefuses s c = some
    f →
    exec (.nvmWrite x q i) s = .next (failWrite s c f)) ∧
  (∀ (x : HPort) (q i : BitVec 16) (c : Cmd) (s : State), Due s x q i 0x08 c = true → writeRefuses s c = none → nsZoned s
    c.nsid = false →
    exec (.nvmWriteZeroes x q i) s = .next (setCmd s c fun d => { d with started := true })) ∧
  (∀ (x : HPort) (q i : BitVec 16) (c : Cmd) (s : State), Due s x q i 0x7D c = true → writeRefuses s c = none → nsZoned s
    c.nsid = true → (getZone s c.nsid (cmdZone s c)).zstate = 2 →
    exec (.zoneAppend x q i) s = .next (setCmd s c fun d => { d with started := true })) ∧
  (∀ (x : HPort) (q i : BitVec 16) (l : List MemErr) (c : Cmd) (s : State), Due s x q i 0x02 c = true → rangeRefuses s c =
    none → nsZoned s c.nsid = false → overlapsEarlier s c = false → (rangeFrom 0 c.len).all (fun i => !fromMedia (forAll
    (rangeFrom 0 c.len) (foundErrors s l) fun s i => cachePoison s c.nsid (c.slba + i)) c i || mediaReady (forAll (rangeFrom 0
    c.len) (foundErrors s l) fun s i => cachePoison s c.nsid (c.slba + i)) c i) = true →
    exec (.nvmRead x q i l) s = .next (readData (forAll (rangeFrom 0 c.len) (foundErrors s l) fun s i => cachePoison s c.nsid
    (c.slba + i)) c)) ∧
  (∀ (x : HPort) (q i : BitVec 16) (l : List MemErr) (c : Cmd) (s : State), Due s x q i 0x0C c = true → rangeRefuses s c =
    none → nsZoned s c.nsid = false → overlapsEarlier s c = false → (rangeFrom 0 c.len).all (fun i => !fromMedia (forAll
    (rangeFrom 0 c.len) (foundErrors s l) fun s i => cachePoison s c.nsid (c.slba + i)) c i || mediaReady (forAll (rangeFrom 0
    c.len) (foundErrors s l) fun s i => cachePoison s c.nsid (c.slba + i)) c i) = true →
    exec (.nvmVerify x q i l) s = .next (readData (forAll (rangeFrom 0 c.len) (foundErrors s l) fun s i => cachePoison s
    c.nsid (c.slba + i)) c)) ∧
  (∀ (x : HPort) (q i : BitVec 16) (l : List MemErr) (c : Cmd) (f : Nat × Nat) (s : State), Due s x q i 0x02 c = true →
    rangeRefuses s c = some f →
    exec (.nvmRead x q i l) s = .next (failCmd s c f.1 f.2)) ∧
  (∀ (x : HPort) (q i : BitVec 16) (c : Cmd) (s : State), Due s x q i 0x00 c = true →
    exec (.nvmFlush x q i) s = .next (setCmd s c fun d => { d with started := true, xfer := true }))

/-- O36. Open takes a zone to its state, Close an active zone to Closed, Finish to Full, Reset to Empty, Offline to Offline;
Set Zone Descriptor Extension and Extended Report Zones fail as unsupported; Report Zones returns the zones that the
option asks for; an opcode that is not listed is refused. Each clause concludes that the command answers a next state,
under hypotheses on the state and the operands alone. Completes: zmsOpen, zmsClose, zmsFinish, zmsReset, zmsOffline,
zmsSetZoneDescExt, zmrExtendedReportZones, zmrReportZones, invalidOpcode. (From R231, R260, R269, R271.) -/
def Obligations.ZoneManagement : Prop :=
  (∀ (x : HPort) (q i : BitVec 16) (c : Cmd) (s : State), Due s x q i 0x79 c = true → findCmd s (portId x) q.toNat i.toNat =
    some c → c.zsa = 3 → nsZoned s c.nsid = true → c.all = false → c.slba < nsLbas s c.nsid → c.slba % nsZl s c.nsid = 0 →
    zmsHeld s c (cmdZone s c) = false → (getZone s c.nsid (cmdZone s c)).zstate = 3 ∧ (nsUnit s c.nsid).map (uState s) ≠ some
    6 →
    exec (.zmsOpen x q i) s = .next (setCmd (s) c fun d => { d with started := true, xfer := true })) ∧
  (∀ (x : HPort) (q i : BitVec 16) (c : Cmd) (s : State), Due s x q i 0x79 c = true → findCmd s (portId x) q.toNat i.toNat =
    some c → c.zsa = 1 → nsZoned s c.nsid = true → c.all = false → c.slba < nsLbas s c.nsid → c.slba % nsZl s c.nsid = 0 →
    zmsHeld s c (cmdZone s c) = false → zActive (getZone s c.nsid (cmdZone s c)).zstate = true →
    exec (.zmsClose x q i) s = .next (setCmd (setZState s c.nsid (cmdZone s c) 4) c fun d =>
    { d with started := true, xfer := true })) ∧
  (∀ (x : HPort) (q i : BitVec 16) (c : Cmd) (s : State), Due s x q i 0x79 c = true → findCmd s (portId x) q.toNat i.toNat =
    some c → c.zsa = 2 → nsZoned s c.nsid = true → c.all = false → c.slba < nsLbas s c.nsid → c.slba % nsZl s c.nsid = 0 →
    zmsHeld s c (cmdZone s c) = false → zActive (getZone s c.nsid (cmdZone s c)).zstate = true →
    exec (.zmsFinish x q i) s = .next (setCmd (finishZone s c.nsid (cmdZone s c)) c fun d =>
    { d with started := true, xfer := true })) ∧
  (∀ (x : HPort) (q i : BitVec 16) (c : Cmd) (s : State), Due s x q i 0x79 c = true → findCmd s (portId x) q.toNat i.toNat =
    some c → c.zsa = 4 → nsZoned s c.nsid = true → c.all = false → c.slba < nsLbas s c.nsid → c.slba % nsZl s c.nsid = 0 →
    zmsHeld s c (cmdZone s c) = false → zActive (getZone s c.nsid (cmdZone s c)).zstate = true →
    exec (.zmsReset x q i) s = .next (setCmd (cacheDropZone (resetZone s c.nsid (cmdZone s c)) c.nsid (cmdZone s c)) c fun d
    => { d with started := true, xfer := true })) ∧
  (∀ (x : HPort) (q i : BitVec 16) (c : Cmd) (s : State), Due s x q i 0x79 c = true → findCmd s (portId x) q.toNat i.toNat =
    some c → c.zsa = 5 → nsZoned s c.nsid = true → c.all = false → c.slba < nsLbas s c.nsid → c.slba % nsZl s c.nsid = 0 →
    zmsHeld s c (cmdZone s c) = false → (getZone s c.nsid (cmdZone s c)).zstate = 0xD →
    exec (.zmsOffline x q i) s = .next (setCmd (cacheDropZone (setZState s c.nsid (cmdZone s c) 0xF) c.nsid (cmdZone s c)) c
    fun d => { d with started := true, xfer := true })) ∧
  (∀ (x : HPort) (q i : BitVec 16) (c : Cmd) (s : State), findCmd s (portId x) q.toNat i.toNat = some c → c.opc = 0x79 → c.zsa
    = 0x10 → c.started = false →
    exec (.zmsSetZoneDescExt x q i) s = .next (failCmd s c 0 0x02)) ∧
  (∀ (x : HPort) (q i : BitVec 16) (c : Cmd) (s : State), findCmd s (portId x) q.toNat i.toNat = some c → c.opc = 0x7A → c.zsa
    = 1 → c.started = false →
    exec (.zmrExtendedReportZones x q i) s = .next (failCmd s c 0 0x02)) ∧
  (∀ (x : HPort) (q i : BitVec 16) (o : BitVec 8) (c : Cmd) (s : State), Due s x q i 0x7A c = true → c.zsa = 0 → nsZoned s
    c.nsid = true → c.slba < nsLbas s c.nsid →
    exec (.zmrReportZones x q i o) s = .next (setCmd (emit s (.hostData c.port c.cid (zoneReport s c o.toNat))) c fun d =>
    { d with started := true, xfer := true })) ∧
  (∀ (x : HPort) (i : BitVec 16) (o l : BitVec 8) (s : State), portExists s (portId x) = true → (ctl s (portId x)).ready =
    true → o ≠ 0x02 → adminOpcodes.contains o.toNat = false →
    exec (.invalidOpcode x 0 i o l) s = .next (adminEnd s (portId x) i.toNat 0 0x01))

/-- O37. A queue with a free and valid identifier is created with its size and attributes and one in use is refused; a queue
is deleted, with its commands; Identify returns the page asked for; Abort answers 1 for a command it does not find; an
event request waits, or takes an event that waits; Keep Alive starts the timer again. Each clause concludes that the
command answers a next state, under hypotheses on the state and the operands alone. Completes: createIoSq, deleteIoSq,
createIoCq, deleteIoCq, identify, abort, asyncEventRequest, keepAlive. (From R259, R260, R262, R270, R422.) -/
def Obligations.QueueCommands : Prop :=
  (∀ (x : HPort) (i q n c : BitVec 16) (p : BitVec 2) (s : State), portExists s (portId x) = true → (ctl s (portId x)).ready =
    true → qidOk q.toNat = true → (ctl s (portId x)).sqs.any (fun y => y.1 == q.toNat) = false → n ≠ 0 → (ctl s (portId
    x)).cqs.any (fun y => y.1 == c.toNat) = true →
    exec (.createIoSq x i q n c p true) s = .next (adminOk (syncQueues (setCtl s (portId x) fun k =>
    { k with sqs := tabPut k.sqs q.toNat ⟨n.toNat + 1, c.toNat, 0, 0, p.toNat⟩ }) (portId x)) (portId x) i.toNat 0)) ∧
  (∀ (x : HPort) (i q n c : BitVec 16) (p : BitVec 2) (b : Bool) (s : State), portExists s (portId x) = true → (ctl s (portId
    x)).ready = true → (ctl s (portId x)).sqs.any (fun y => y.1 == q.toNat) = true →
    exec (.createIoSq x i q n c p b) s = .next (adminEnd s (portId x) i.toNat 1 0x01)) ∧
  (∀ (x : HPort) (i q : BitVec 16) (s : State), portExists s (portId x) = true → (ctl s (portId x)).ready = true → (ctl s
    (portId x)).sqs.any (fun y => y.1 == q.toNat) = true →
    exec (.deleteIoSq x i q) s = .next (adminOk (syncQueues (setCtl (setCmds (forAll (s.host.cmds.filter fun c => c.port ==
    portId x && c.sq == q.toNat) s discardData) fun l => l.filter fun c => !(c.port == portId x && c.sq == q.toNat)) (portId
    x) fun c => { c with sqs := tabDel c.sqs q.toNat }) (portId x)) (portId x) i.toNat 0)) ∧
  (∀ (x : HPort) (i q n v : BitVec 16) (e : Bool) (s : State), portExists s (portId x) = true → (ctl s (portId x)).ready =
    true → qidOk q.toNat = true → (ctl s (portId x)).cqs.any (fun y => y.1 == q.toNat) = false → n ≠ 0 → v.toNat < 2048 →
    exec (.createIoCq x i q n v e true) s = .next (adminOk (syncQueues (setCtl s (portId x) fun k =>
    { k with cqs := tabPut k.cqs q.toNat ⟨n.toNat + 1, 0, 0, v.toNat, e⟩ }) (portId x)) (portId x) i.toNat 0)) ∧
  (∀ (x : HPort) (i q : BitVec 16) (s : State), portExists s (portId x) = true → (ctl s (portId x)).ready = true → (ctl s
    (portId x)).cqs.any (fun y => y.1 == q.toNat) = true → (ctl s (portId x)).sqs.any (fun y => y.2.cq == q.toNat) = false →
    exec (.deleteIoCq x i q) s = .next (adminOk (syncQueues (setCtl s (portId x) fun c =>
    { c with cqs := tabDel c.cqs q.toNat }) (portId x)) (portId x) i.toNat 0)) ∧
  (∀ (x : HPort) (i : BitVec 16) (n : BitVec 32) (s : State), portExists s (portId x) = true → (ctl s (portId x)).ready = true
    →
    exec (.identify x i 0x01 n) s = .next (adminData s (portId x) i.toNat (identifyController s (portId x)))) ∧
  (∀ (x : HPort) (i : BitVec 16) (n : BitVec 32) (s : State), portExists s (portId x) = true → (ctl s (portId x)).ready = true
    → attached s (portId x) n.toNat = false →
    exec (.identify x i 0x00 n) s = .next (adminEnd s (portId x) i.toNat 0 0x0B)) ∧
  (∀ (x : HPort) (i q j : BitVec 16) (n : BitVec 4) (s : State), portExists s (portId x) = true → (ctl s (portId x)).ready =
    true → n.toNat < 8 → q ≠ 0 → findCmd s (portId x) q.toNat j.toNat = none →
    exec (.abort x i q j n) s = .next (adminOk (count s (HIF_PORT_CNT (portId x) 2) 1 .hif HIF_EVT_SAT) (portId x) i.toNat 1)) ∧
  (∀ (x : HPort) (i q j : BitVec 16) (n : BitVec 4) (c : Cmd) (s : State), portExists s (portId x) = true → (ctl s (portId
    x)).ready = true → n.toNat < 8 → q ≠ 0 → findCmd s (portId x) q.toNat j.toNat = some c → c.fail = none →
    exec (.abort x i q j n) s = .next (adminOk (count (failCmd s c 0 0x07) (HIF_PORT_CNT (portId x) 1) 1 .hif HIF_EVT_SAT)
    (portId x) i.toNat 0)) ∧
  (∀ (x : HPort) (i : BitVec 16) (s : State), portExists s (portId x) = true → (ctl s (portId x)).ready = true →
    s.evt.held.find? (fun r => r.1 == portId x && (r.2.1 != 7 || fbit s EVT_CTRL EVT_CTRL_EN)) = none → (s.evt.aers.filter fun
    r => r.1 == portId x).length < 16 →
    exec (.asyncEventRequest x i) s = .next ({ s with evt := { s.evt with aers := s.evt.aers ++ [(portId x, i.toNat)] } })) ∧
  (∀ (x : HPort) (i : BitVec 16) (r : Nat × Nat × Nat × Nat) (s : State), portExists s (portId x) = true → (ctl s (portId
    x)).ready = true → s.evt.held.find? (fun r => r.1 == portId x && (r.2.1 != 7 || fbit s EVT_CTRL EVT_CTRL_EN)) = some r →
    exec (.asyncEventRequest x i) s = .next (emit { s with evt := { s.evt with held := s.evt.held.erase r } } (.aer (portId x)
    i.toNat r.2.1 r.2.2.1 r.2.2.2))) ∧
  (∀ (x : HPort) (i : BitVec 16) (s : State), portExists s (portId x) = true → (ctl s (portId x)).ready = true →
    exec (.keepAlive x i) s = .next (adminOk (setCtl s (portId x) fun c => { c with kaRun := true }) (portId x) i.toNat 0))

/-- O38. A standard feature is set and read back; a save is refused; a power state is requested and its entry is done; D3hot
counts as the deepest state; a firmware download is placed and each commit action does its part; a pair update and a self-
test go step by step. Each clause concludes that the command answers a next state, under hypotheses on the state and the
operands alone. Completes: setFeatures, getFeatures, setFeatPowerMgmt, getFeatPowerMgmt, powerStateEntryDone, d3hotEntry,
d3hotExit, fwImageDownload, fwCommitCa0, fwCommitCa1, fwCommitCa3, fwCommitCa2, pairUpdateStep, deviceSelfTestShort,
deviceSelfTestExtended, deviceSelfTestAbort, selfTestStepDone. (From R260, R277, R278, R359, R360, R399, R402.) -/
def Obligations.PowerStatesAndFirmware : Prop :=
  (∀ (x : HPort) (i : BitVec 16) (d : Word) (s : State), portExists s (portId x) = true → (ctl s (portId x)).ready = true →
    exec (.setFeatures x i 0x0B d false) s = .next (adminOk (setCtl s (portId x) fun c =>
    { c with feats := tabPut c.feats (featKey 0x0B d) (featData 0x0B d) }) (portId x) i.toNat 0)) ∧
  (∀ (x : HPort) (i : BitVec 16) (d : Word) (s : State), portExists s (portId x) = true → (ctl s (portId x)).ready = true →
    exec (.setFeatures x i 0x0B d true) s = .next (adminEnd s (portId x) i.toNat 1 0x0D)) ∧
  (∀ (x : HPort) (i : BitVec 16) (d : Word) (s : State), portExists s (portId x) = true → (ctl s (portId x)).ready = true →
    exec (.getFeatures x i 0x0B d) s = .next (featValue s (portId x) i.toNat (tabGet 0 (ctl s (portId x)).feats (featKey 0x0B
    d)) 0)) ∧
  (∀ (x : HPort) (i : BitVec 16) (d : Word) (s : State), portExists s (portId x) = true → (ctl s (portId x)).ready = true →
    getF d ⟨0, 5⟩ ≤ 4 → (ctl s (portId x)).pmWait = [] →
    exec (.setFeatPowerMgmt x i d false) s = .next (psUpdate (fset (setCtl s (portId x) fun k =>
    { k with pmWait := [(i.toNat, getF d ⟨0, 5⟩)] }) (HIF_PORT_STAT (portId x)) HIF_PORT_STAT_PS_REQ (getF d ⟨0, 5⟩)))) ∧
  (∀ (x : HPort) (i : BitVec 16) (s : State), portExists s (portId x) = true → (ctl s (portId x)).ready = true →
    exec (.getFeatPowerMgmt x i) s = .next (featValue s (portId x) i.toNat (fget s (HIF_PORT_STAT (portId x))
    HIF_PORT_STAT_PS_REQ) 0)) ∧
  (∀ (b : Bool) (s : State), fbit s HIF_PWR HIF_PWR_ENTERING = true → inSafe s = false → bothDown s = false → psTarget s < 3 →
    exec (.powerStateEntryDone b) s = .next (psEnter s)) ∧
  (∀ (x : HPort) (s : State), portExists s (portId x) = true → (ctl s (portId x)).d3hot = false → fbit s (HIF_PORT_STAT
    (portId x)) HIF_PORT_STAT_LINK_UP = true → bothDown (psUpdate (setCtl s (portId x) fun c => { c with d3hot := true })) =
    false →
    exec (.d3hotEntry x) s = .next (psUpdate (setCtl s (portId x) fun c => { c with d3hot := true }))) ∧
  (∀ (x : HPort) (s : State), (ctl s (portId x)).d3hot = true → isActiveRole (psUpdate (setCtl s (portId x) fun c =>
    { c with d3hot := false })) = false →
    exec (.d3hotExit x) s = .next (psUpdate (setCtl s (portId x) fun c => { c with d3hot := false }))) ∧
  (∀ (x : HPort) (s : State), (ctl s (portId x)).d3hot = true → isActiveRole (psUpdate (setCtl s (portId x) fun c =>
    { c with d3hot := false })) = true →
    exec (.d3hotExit x) s = .next (forAll (rangeFrom 0 32) (psUpdate (setCtl s (portId x) fun c => { c with d3hot := false }))
    fun s p => if isBound s p && sbUsable s p && !tokenMine s p then wantToken s p else s)) ∧
  (∀ (x : HPort) (i : BitVec 16) (n o : BitVec 32) (d : List Word) (s : State), portExists s (portId x) = true → (ctl s
    (portId x)).ready = true → o ≠ 0 → o.toNat + (n.toNat + 1) ≤ 3145728 →
    exec (.fwImageDownload x i n o d) s = .next (adminOk (setPrt s fun y =>
    { y with stage := ((rangeFrom o.toNat (n.toNat + 1)).zip d).foldl (fun t d => tabPut t d.1 d.2.toNat) s.prt.stage, stageLen := max y.stageLen (4 * (o.toNat + (n.toNat + 1))) })
    (portId x) i.toNat 0)) ∧
  (∀ (x : HPort) (i : BitVec 16) (f : BitVec 3) (s : State), portExists s (portId x) = true → (ctl s (portId x)).ready = true
    →
    exec (.fwCommitCa0 x i f) s = .next (fwCommit s (portId x) i.toNat 0 f.toNat)) ∧
  (∀ (x : HPort) (i : BitVec 16) (f : BitVec 3) (s : State), portExists s (portId x) = true → (ctl s (portId x)).ready = true
    →
    exec (.fwCommitCa1 x i f) s = .next (fwCommit s (portId x) i.toNat 1 f.toNat)) ∧
  (∀ (x : HPort) (i : BitVec 16) (f : BitVec 3) (s : State), portExists s (portId x) = true → (ctl s (portId x)).ready = true
    →
    exec (.fwCommitCa3 x i f) s = .next (fwCommit s (portId x) i.toNat 3 f.toNat)) ∧
  (∀ (x : HPort) (i : BitVec 16) (f : BitVec 3) (s : State), portExists s (portId x) = true → (ctl s (portId x)).ready = true
    →
    exec (.fwCommitCa2 x i f) s = .next (adminOk (setFls s fun y => { y with flipNext := true }) (portId x) i.toNat 0)) ∧
  (∀ (b : Bool) (s : State), s.prt.upStep ≠ 0 → s.prt.upStep ≠ 8 →
    exec (.pairUpdateStep b) s = .next (updateOrigin s s.prt.upStep b)) ∧
  (∀ (x : HPort) (i : BitVec 16) (n : Word) (s : State), portExists s (portId x) = true → (ctl s (portId x)).ready = true →
    s.host.selfTest.kind = 0 →
    exec (.deviceSelfTestShort x i n) s = .next (testStep (fset (setTest s fun t =>
    { t with kind := 1, abort := false, failed := 0, cmd := some (portId x, i.toNat) }) BGW_DST BGW_DST_OP 1) 1)) ∧
  (∀ (x : HPort) (i : BitVec 16) (n : Word) (s : State), portExists s (portId x) = true → (ctl s (portId x)).ready = true →
    s.host.selfTest.kind = 0 →
    exec (.deviceSelfTestExtended x i n) s = .next (testStep (fset (setTest s fun t =>
    { t with kind := 2, abort := false, failed := 0, cmd := some (portId x, i.toNat) }) BGW_DST BGW_DST_OP 2) 1)) ∧
  (∀ (x : HPort) (i : BitVec 16) (n : Word) (s : State), portExists s (portId x) = true → (ctl s (portId x)).ready = true →
    s.host.selfTest.kind ≠ 0 →
    exec (.deviceSelfTestShort x i n) s = .next (adminEnd s (portId x) i.toNat 1 0x1D)) ∧
  (∀ (x : HPort) (i : BitVec 16) (n : Word) (s : State), portExists s (portId x) = true → (ctl s (portId x)).ready = true →
    s.host.selfTest.kind ≠ 0 →
    exec (.deviceSelfTestAbort x i n) s = .next (adminOk (abortSelfTest s) (portId x) i.toNat 0)) ∧
  (∀ (b c : Bool) (s : State), s.host.selfTest.kind ≠ 0 → s.host.selfTest.step ≠ 4 →
    exec (.selfTestStepDone b c) s = .next (stepEnd (stepEffect s b c) b))

/-- O39. A Get Log Page from a ready controller answers the part asked for of the page that the state gives; a page longer
offset is Invalid Field; a Changed Namespace List, a Changed Zone List and an event page read without Retain empties its
list or takes its mask off. Each clause concludes that the command answers a next state, under hypotheses on the state and
the operands alone. Completes: logErrorInformation, logSmartHealth, logFirmwareSlot, logChangedNamespaceList,
logCommandsSupported, logDeviceSelfTest, logAna, logChangedZoneList, logTruss, logUnitTable, logEaveLayout,
logThatchStatus, logLostRanges, logHostInterfaceStats, logMicrocodeStatus, logEventStatus, logTailRecorder. (From R260,
R271, R272, R274, R275, R359, R65, R249, R282, R378, R423.) -/
def Obligations.ErrorAndHealthLogs : Prop :=
  (∀ (x : HPort) (i : BitVec 16) (o n : BitVec 32) (s : State), portExists s (portId x) = true → (ctl s (portId x)).ready =
    true →
    exec (.logErrorInformation x i o n) s = .next (logData s (portId x) i.toNat o.toNat n.toNat (s.host.errLog.flatMap fun e
    => [e.count, e.port, e.sq, e.cid, e.sct, e.sc, e.nsid, e.lba]))) ∧
  (∀ (x : HPort) (i : BitVec 16) (o n : BitVec 32) (s : State), portExists s (portId x) = true → (ctl s (portId x)).ready =
    true →
    exec (.logSmartHealth x i 0xFFFFFFFF o n) s = .next (logData { s with free := s.free + 512 } (portId x) i.toNat o.toNat
    n.toNat ((rangeFrom 0 512).map fun k => Config.freeNat (s.free + k) % 256))) ∧
  (∀ (x : HPort) (i : BitVec 16) (o n : BitVec 32) (ns : BitVec 32) (s : State), portExists s (portId x) = true → (ctl s
    (portId x)).ready = true → ns ≠ 0xFFFFFFFF →
    exec (.logSmartHealth x i ns o n) s = .next (invalidField s (portId x) i.toNat)) ∧
  (∀ (x : HPort) (i : BitVec 16) (o n : BitVec 32) (s : State), portExists s (portId x) = true → (ctl s (portId x)).ready =
    true →
    exec (.logFirmwareSlot x i o n) s = .next (logData s (portId x) i.toNat o.toNat n.toNat ([2, b2n s.fls.flipNext, rdN s
    PRT_FW_VER_INACT, rdN s PRT_FW_VER_ACT]))) ∧
  (∀ (x : HPort) (i : BitVec 16) (o n : BitVec 32) (s : State), portExists s (portId x) = true → (ctl s (portId x)).ready =
    true → o.toNat ≤ (ctl s (portId x)).chgNs.length →
    exec (.logChangedNamespaceList x i false o n) s = .next (setCtl (logData s (portId x) i.toNat o.toNat n.toNat ((ctl s
    (portId x)).chgNs)) (portId x) fun c => { c with chgNs := [] })) ∧
  (∀ (x : HPort) (i : BitVec 16) (o n : BitVec 32) (s : State), portExists s (portId x) = true → (ctl s (portId x)).ready =
    true → o.toNat ≤ (ctl s (portId x)).chgNs.length →
    exec (.logChangedNamespaceList x i true o n) s = .next (logData s (portId x) i.toNat o.toNat n.toNat ((ctl s (portId
    x)).chgNs))) ∧
  (∀ (x : HPort) (i : BitVec 16) (o n : BitVec 32) (s : State), portExists s (portId x) = true → (ctl s (portId x)).ready =
    true →
    exec (.logCommandsSupported x i o n) s = .next (logData s (portId x) i.toNat o.toNat n.toNat (adminOpcodes ++ [0x00, 0x01,
    0x02, 0x08, 0x0C, 0x79, 0x7A, 0x7D]))) ∧
  (∀ (x : HPort) (i : BitVec 16) (o n : BitVec 32) (s : State), portExists s (portId x) = true → (ctl s (portId x)).ready =
    true →
    exec (.logDeviceSelfTest x i o n) s = .next (logData s (portId x) i.toNat o.toNat n.toNat ([s.host.selfTest.kind,
    s.host.selfTest.step, fget s BGW_DST BGW_DST_PERCENT] ++ s.host.selfTest.results.flatMap fun r => [r.1, r.2.1, r.2.2]))) ∧
  (∀ (x : HPort) (i : BitVec 16) (o n : BitVec 32) (s : State), portExists s (portId x) = true → (ctl s (portId x)).ready =
    true →
    exec (.logAna x i o n) s = .next (logData s (portId x) i.toNat o.toNat n.toNat (s.host.anaCount :: (s.trs.run.binds.filter
    fun b => attached s (portId x) b.nsid).flatMap fun b => [b.ana, anaState s, b.nsid]))) ∧
  (∀ (x : HPort) (i : BitVec 16) (o n : BitVec 32) (ns : BitVec 32) (l : List Nat) (s : State), portExists s (portId x) = true
    → (ctl s (portId x)).ready = true → ((ctl s (portId x)).chgZones.filter fun z => z.1 == ns.toNat).map (fun z => z.2 * nsZl
    s ns.toNat) = l → o.toNat ≤ l.length →
    exec (.logChangedZoneList x i ns false o n) s = .next (setCtl (logData s (portId x) i.toNat o.toNat n.toNat (l)) (portId
    x) fun c => { c with chgZones := c.chgZones.filter fun z => z.1 != ns.toNat })) ∧
  (∀ (x : HPort) (i : BitVec 16) (o n : BitVec 32) (s : State), portExists s (portId x) = true → (ctl s (portId x)).ready =
    true →
    exec (.logTruss x i o n) s = .next (logData s (portId x) i.toNat o.toNat n.toNat (trussPage s))) ∧
  (∀ (x : HPort) (i : BitVec 16) (o n : BitVec 32) (s : State), portExists s (portId x) = true → (ctl s (portId x)).ready =
    true →
    exec (.logUnitTable x i o n) s = .next (logData s (portId x) i.toNat o.toNat n.toNat (unitPage s))) ∧
  (∀ (x : HPort) (i : BitVec 16) (o n : BitVec 32) (s : State), portExists s (portId x) = true → (ctl s (portId x)).ready =
    true →
    exec (.logEaveLayout x i o n) s = .next (logData s (portId x) i.toNat o.toNat n.toNat (eavePage s))) ∧
  (∀ (x : HPort) (i : BitVec 16) (o n : BitVec 32) (s : State), portExists s (portId x) = true → (ctl s (portId x)).ready =
    true →
    exec (.logThatchStatus x i o n) s = .next (logData s (portId x) i.toNat o.toNat n.toNat (thatchPage s))) ∧
  (∀ (x : HPort) (i : BitVec 16) (o n : BitVec 32) (s : State), portExists s (portId x) = true → (ctl s (portId x)).ready =
    true →
    exec (.logLostRanges x i o n) s = .next (logData s (portId x) i.toNat o.toNat n.toNat (lostPage s))) ∧
  (∀ (x : HPort) (i : BitVec 16) (o n : BitVec 32) (s : State), portExists s (portId x) = true → (ctl s (portId x)).ready =
    true →
    exec (.logHostInterfaceStats x i o n) s = .next (logData s (portId x) i.toNat o.toNat n.toNat (hostPage s))) ∧
  (∀ (x : HPort) (i : BitVec 16) (o n : BitVec 32) (s : State), portExists s (portId x) = true → (ctl s (portId x)).ready =
    true →
    exec (.logMicrocodeStatus x i o n) s = .next (logData s (portId x) i.toNat o.toNat n.toNat (mcsPage s))) ∧
  (∀ (x : HPort) (i : BitVec 16) (o n : BitVec 32) (s : State), portExists s (portId x) = true → (ctl s (portId x)).ready =
    true → o.toNat ≤ (eventPage s).length →
    exec (.logEventStatus x i false o n) s = .next
    ({ logData s (portId x) i.toNat o.toNat n.toNat (eventPage s) with evt := { (logData s (portId x) i.toNat o.toNat n.toNat (eventPage s)).evt with vendorMasked := (logData s (portId x) i.toNat o.toNat n.toNat (eventPage s)).evt.vendorMasked.filter (· != portId x) } })) ∧
  (∀ (x : HPort) (i : BitVec 16) (o n : BitVec 32) (k : BitVec 7) (s : State), portExists s (portId x) = true → (ctl s (portId
    x)).ready = true →
    exec (.logTailRecorder x i k o n) s = .next (logData s (portId x) i.toNat o.toNat n.toNat (tailPage s (k.toNat % 8))))

/-- O40. A Get Log Page of each of these pages from a ready controller answers the part asked for of the page that the state
gives; the orphaned-completions page empties its list when asked to. Each clause concludes that the command answers a next
state, under hypotheses on the state and the operands alone. Completes: logTetherStatus, logDetectionStats,
logSectorRecovery, logServoWriteSafety, logBridleStats, logSpindleAssist, logAssistWear, logPartnerStatus, logUpdateRelay,
logFlashStatus, logMemoryError, logCacheStats, logRetirementTable, logBallastStatus, logBackgroundStatus,
logThermalStatus, logPowerModes, logOrphanedCompletions. (From R99, R127, R152, R176, R198, R220, R405, R438, R305, R320,
R362, R342.) -/
def Obligations.SubsystemLogs : Prop :=
  (∀ (x : HPort) (i : BitVec 16) (o n : BitVec 32) (s : State), portExists s (portId x) = true → (ctl s (portId x)).ready =
    true →
    exec (.logTetherStatus x i o n) s = .next (logData s (portId x) i.toNat o.toNat n.toNat (tetherPage s))) ∧
  (∀ (x : HPort) (i : BitVec 16) (o n : BitVec 32) (s : State), portExists s (portId x) = true → (ctl s (portId x)).ready =
    true →
    exec (.logDetectionStats x i o n) s = .next (logData s (portId x) i.toNat o.toNat n.toNat (detPage s))) ∧
  (∀ (x : HPort) (i : BitVec 16) (o n : BitVec 32) (s : State), portExists s (portId x) = true → (ctl s (portId x)).ready =
    true →
    exec (.logSectorRecovery x i o n) s = .next (logData s (portId x) i.toNat o.toNat n.toNat (fmtPage s))) ∧
  (∀ (x : HPort) (i : BitVec 16) (o n : BitVec 32) (s : State), portExists s (portId x) = true → (ctl s (portId x)).ready =
    true →
    exec (.logServoWriteSafety x i o n) s = .next (logData s (portId x) i.toNat o.toNat n.toNat (servoPage s))) ∧
  (∀ (x : HPort) (i : BitVec 16) (o n : BitVec 32) (s : State), portExists s (portId x) = true → (ctl s (portId x)).ready =
    true →
    exec (.logBridleStats x i o n) s = .next (logData s (portId x) i.toNat o.toNat n.toNat (bridlePage s))) ∧
  (∀ (x : HPort) (i : BitVec 16) (o n : BitVec 32) (s : State), portExists s (portId x) = true → (ctl s (portId x)).ready =
    true →
    exec (.logSpindleAssist x i o n) s = .next (logData s (portId x) i.toNat o.toNat n.toNat (spindlePage s))) ∧
  (∀ (x : HPort) (i : BitVec 16) (o n : BitVec 32) (s : State), portExists s (portId x) = true → (ctl s (portId x)).ready =
    true →
    exec (.logAssistWear x i o n) s = .next (logData s (portId x) i.toNat o.toNat n.toNat (wearPage s))) ∧
  (∀ (x : HPort) (i : BitVec 16) (o n : BitVec 32) (s : State), portExists s (portId x) = true → (ctl s (portId x)).ready =
    true →
    exec (.logPartnerStatus x i o n) s = .next (logData s (portId x) i.toNat o.toNat n.toNat (partnerPage s))) ∧
  (∀ (x : HPort) (i : BitVec 16) (o n : BitVec 32) (s : State), portExists s (portId x) = true → (ctl s (portId x)).ready =
    true →
    exec (.logUpdateRelay x i o n) s = .next (logData s (portId x) i.toNat o.toNat n.toNat (updatePage s))) ∧
  (∀ (x : HPort) (i : BitVec 16) (o n : BitVec 32) (s : State), portExists s (portId x) = true → (ctl s (portId x)).ready =
    true →
    exec (.logFlashStatus x i o n) s = .next (logData s (portId x) i.toNat o.toNat n.toNat (flashPage s))) ∧
  (∀ (x : HPort) (i : BitVec 16) (o n : BitVec 32) (s : State), portExists s (portId x) = true → (ctl s (portId x)).ready =
    true →
    exec (.logMemoryError x i o n) s = .next (logData s (portId x) i.toNat o.toNat n.toNat (memErrPage s))) ∧
  (∀ (x : HPort) (i : BitVec 16) (o n : BitVec 32) (s : State), portExists s (portId x) = true → (ctl s (portId x)).ready =
    true →
    exec (.logCacheStats x i o n) s = .next (logData s (portId x) i.toNat o.toNat n.toNat (cachePage s))) ∧
  (∀ (x : HPort) (i : BitVec 16) (o n : BitVec 32) (s : State), portExists s (portId x) = true → (ctl s (portId x)).ready =
    true →
    exec (.logRetirementTable x i o n) s = .next (logData s (portId x) i.toNat o.toNat n.toNat (retirePage s))) ∧
  (∀ (x : HPort) (i : BitVec 16) (o n : BitVec 32) (s : State), portExists s (portId x) = true → (ctl s (portId x)).ready =
    true →
    exec (.logBallastStatus x i o n) s = .next (logData s (portId x) i.toNat o.toNat n.toNat (ballastPage s))) ∧
  (∀ (x : HPort) (i : BitVec 16) (o n : BitVec 32) (s : State), portExists s (portId x) = true → (ctl s (portId x)).ready =
    true →
    exec (.logBackgroundStatus x i o n) s = .next (logData s (portId x) i.toNat o.toNat n.toNat (taskPage s))) ∧
  (∀ (x : HPort) (i : BitVec 16) (o n : BitVec 32) (s : State), portExists s (portId x) = true → (ctl s (portId x)).ready =
    true →
    exec (.logThermalStatus x i o n) s = .next (logData s (portId x) i.toNat o.toNat n.toNat (thermalPage s))) ∧
  (∀ (x : HPort) (i : BitVec 16) (o n : BitVec 32) (s : State), portExists s (portId x) = true → (ctl s (portId x)).ready =
    true →
    exec (.logPowerModes x i o n) s = .next (logData s (portId x) i.toNat o.toNat n.toNat (powerPage s))) ∧
  (∀ (x : HPort) (i : BitVec 16) (o n : BitVec 32) (k : BitVec 7) (s : State), portExists s (portId x) = true → (ctl s (portId
    x)).ready = true → k.getLsbD 0 = true → o.toNat ≤ (orphanPage s).length →
    exec (.logOrphanedCompletions x i k o n) s = .next
    ({ logData s (portId x) i.toNat o.toNat n.toNat (orphanPage s) with prt := { (logData s (portId x) i.toNat o.toNat n.toNat (orphanPage s)).prt with orphans := [] } })) ∧
  (∀ (x : HPort) (i : BitVec 16) (o n : BitVec 32) (k : BitVec 7) (s : State), portExists s (portId x) = true → (ctl s (portId
    x)).ready = true → k.getLsbD 0 = false →
    exec (.logOrphanedCompletions x i k o n) s = .next (logData s (portId x) i.toNat o.toNat n.toNat (orphanPage s)))

/-- O41. With its fields in range, the registers it writes not under a claim and Save clear, each vendor Set Features writes
the fields it names and completes with success. Each clause concludes that the command answers a next state, under
hypotheses on the state and the operands alone. Completes: setUnitPowerPolicy, setCommandSlotReservation,
setZoneLayoutControl, setEventRouting, setTailSnapshotSelect, setDecodeScheduling, setReadRecoveryControl,
setWriteSafetyControl, setPartnerControl, setCacheControl, setBallastControl. (From R280, R281, R248, R423, R126, R151,
R175, R405, R305, R320.) -/
def Obligations.FeatureSettings : Prop :=
  (∀ (x : HPort) (i : BitVec 16) (d : Word) (s : State), portExists s (portId x) = true → (ctl s (portId x)).ready = true →
    claimed s baseTRS = false → uUsed s (getF d ⟨0, 12⟩) = true →
    exec (.setUnitPowerPolicy x i d false) s = .next (adminOk (fset s (TRS_UNIT_FACE (getF d ⟨0, 12⟩)) TRS_UNIT_FACE_POLICY
    (getF d ⟨12, 4⟩)) (portId x) i.toNat 0)) ∧
  (∀ (x : HPort) (i : BitVec 16) (d : Word) (s : State), portExists s (portId x) = true → (ctl s (portId x)).ready = true →
    claimed s baseTRS = false → uUsed s (getF d ⟨0, 12⟩) = false →
    exec (.setUnitPowerPolicy x i d false) s = .next (invalidField s (portId x) i.toNat)) ∧
  (∀ (x : HPort) (i : BitVec 16) (d : Word) (s : State), portExists s (portId x) = true → (ctl s (portId x)).ready = true →
    claimed s baseTRS = true →
    exec (.setUnitPowerPolicy x i d false) s = .next (claimHeld s (portId x) i.toNat)) ∧
  (∀ (x : HPort) (i : BitVec 16) (d : Word) (s : State), portExists s (portId x) = true → (ctl s (portId x)).ready = true →
    exec (.setUnitPowerPolicy x i d true) s = .next (adminEnd s (portId x) i.toNat 1 0x0D)) ∧
  (∀ (x : HPort) (i : BitVec 16) (d : Word) (s : State), portExists s (portId x) = true → (ctl s (portId x)).ready = true →
    claimed s baseHIF = false → getF d ⟨0, 14⟩ ≤ 8192 → getF d ⟨16, 14⟩ ≤ 8192 →
    exec (.setCommandSlotReservation x i d false) s = .next (adminOk (fset (fset s HIF_SLOT_RES HIF_SLOT_RES_RES_A (getF d ⟨0,
    14⟩)) HIF_SLOT_RES HIF_SLOT_RES_RES_B (getF d ⟨16, 14⟩)) (portId x) i.toNat 0)) ∧
  (∀ (x : HPort) (i : BitVec 16) (d : Word) (s : State), portExists s (portId x) = true → (ctl s (portId x)).ready = true →
    claimed s baseZMP = false → ((rangeFrom 0 4).any fun t => claimed s (baseTHT t)) = false → 10 ≤ getF d ⟨0, 16⟩ → getF d
    ⟨0, 16⟩ ≤ 10000 → 1 ≤ getF d ⟨24, 8⟩ → getF d ⟨24, 8⟩ ≤ 100 →
    exec (.setZoneLayoutControl x i d false) s = .next (adminOk (forAll (rangeFrom 0 4) (fsetb (fset s ZMP_CTRL
    ZMP_CTRL_JRN_MS (getF d ⟨0, 16⟩)) ZMP_CTRL ZMP_CTRL_CROSS_EN (bitOf d 16)) fun s t => fset s (THT_CTRL t)
    THT_CTRL_RB_SHARE (getF d ⟨24, 8⟩)) (portId x) i.toNat 0)) ∧
  (∀ (x : HPort) (i : BitVec 16) (d e : Word) (s : State), portExists s (portId x) = true → (ctl s (portId x)).ready = true →
    claimed s baseEVT = false → getF d ⟨0, 10⟩ < 640 →
    exec (.setEventRouting x i d e false) s = .next (adminOk (routeMsi (routeAen (fset s (EVT_RT_W0 (getF d ⟨0, 10⟩))
    EVT_RT_W0_TAIL (getF d ⟨16, 8⟩)) (getF d ⟨0, 10⟩) (portId x) (bitOf d 24)) (getF d ⟨0, 10⟩) (portId x) (bitOf d 25) (getF
    e ⟨0, 11⟩)) (portId x) i.toNat 0)) ∧
  (∀ (x : HPort) (i : BitVec 16) (d e : Word) (s : State), portExists s (portId x) = true → (ctl s (portId x)).ready = true →
    claimed s baseTAIL = false → getF d ⟨8, 4⟩ < 12 →
    exec (.setTailSnapshotSelect x i d e false) s = .next (adminOk (wr s (TAIL_SEL (getF d ⟨0, 3⟩) (getF d ⟨8, 4⟩)) (e &&&
    0x83FFFFFC)) (portId x) i.toNat 0)) ∧
  (∀ (x : HPort) (i : BitVec 16) (d e : Word) (s : State), portExists s (portId x) = true → (ctl s (portId x)).ready = true →
    actClaimed s = false → ((rangeFrom 0 16).any fun c => claimed s (baseLDC c)) = false → getF e ⟨0, 6⟩ ≠ 0 → 100 ≤ getF e
    ⟨8, 16⟩ → getF e ⟨8, 16⟩ ≤ 10000 →
    exec (.setDecodeScheduling x i d e false) s = .next (adminOk (forAll (rangeFrom 0 64) (forAll (rangeFrom 0 16) s fun s c
    => fset (wr s (LDC_WEIGHT c) d) (LDC_CTRL c) LDC_CTRL_MAXIT (getF e ⟨0, 6⟩)) fun s a => fset s (ACT_DET_CFG a)
    ACT_DET_CFG_PIN_TO_US (getF e ⟨8, 16⟩)) (portId x) i.toNat 0)) ∧
  (∀ (x : HPort) (i : BitVec 16) (d : Word) (s : State), portExists s (portId x) = true → (ctl s (portId x)).ready = true →
    actClaimed s = false → getF d ⟨0, 4⟩ ≤ 7 → getF d ⟨16, 2⟩ ≤ 1 →
    exec (.setReadRecoveryControl x i d false) s = .next (adminOk (forAll (rangeFrom 0 64) s fun s a => forAll ((rangeFrom 0
    16).zip (presetLadder (getF d ⟨16, 2⟩))) (fsetb (fsetb (fset s (ACT_FMT_CTRL a) ACT_FMT_CTRL_REREAD_MAX (getF d ⟨0, 4⟩))
    (ACT_FMT_CTRL a) ACT_FMT_CTRL_TP_RECON (bitOf d 8)) (ACT_FMT_CTRL a) ACT_FMT_CTRL_THATCH_RECON (bitOf d 9)) fun s y => wrN
    s (ACT_LAD a y.1) y.2) (portId x) i.toNat 0)) ∧
  (∀ (x : HPort) (i : BitVec 16) (d e : Word) (s : State), portExists s (portId x) = true → (ctl s (portId x)).ready = true →
    actClaimed s = false → 8 ≤ getF d ⟨0, 8⟩ → 4 ≤ getF d ⟨8, 8⟩ → getF d ⟨8, 8⟩ ≤ getF d ⟨0, 8⟩ → getF d ⟨16, 4⟩ ≤ 7 → 1 ≤
    getF d ⟨20, 4⟩ → 5 ≤ getF e ⟨0, 16⟩ → 50 ≤ getF e ⟨16, 16⟩ → getF e ⟨16, 16⟩ ≤ 5000 →
    exec (.setWriteSafetyControl x i d e false) s = .next (adminOk (forAll (rangeFrom 0 64)
    { s with host := { s.host with safety := some (d, e) } } fun s a => fset (fset (fset (fset (fset (fset s (ACT_SRV_LIM a)
    ACT_SRV_LIM_WU_LIM (getF d ⟨0, 8⟩)) (ACT_SRV_LIM a) ACT_SRV_LIM_WU_REL (getF d ⟨8, 8⟩)) (ACT_SRV_CTRL a)
    ACT_SRV_CTRL_REWRITE_MAX (getF d ⟨16, 4⟩)) (ACT_SRV_CTRL a) ACT_SRV_CTRL_REL_N (getF d ⟨20, 4⟩)) (ACT_SRV_SHOCK a)
    ACT_SRV_SHOCK_SHOCK_LIM (getF e ⟨0, 16⟩)) (ACT_SRV_SHOCK a) ACT_SRV_SHOCK_SHOCK_HOLD_US (getF e ⟨16, 16⟩)) (portId x)
    i.toNat 0)) ∧
  (∀ (x : HPort) (i : BitVec 16) (d : Word) (s : State), portExists s (portId x) = true → (ctl s (portId x)).ready = true →
    claimed s basePRT = false →
    exec (.setPartnerControl x i d false) s = .next (adminOk (fsetb (fsetb s PRT_CTRL PRT_CTRL_TAKEOVER_EN (bitOf d 0))
    PRT_CTRL PRT_CTRL_RELAY_FWD (bitOf d 1)) (portId x) i.toNat 0)) ∧
  (∀ (x : HPort) (i : BitVec 16) (d e : Word) (s : State), portExists s (portId x) = true → (ctl s (portId x)).ready = true →
    claimed s baseCCH = false → 1 ≤ getF d ⟨8, 8⟩ → getF d ⟨8, 8⟩ ≤ 64 → s.cch.cmd = none → bitOf d 0 = true → cchState (fset
    (fset (fset (fsetb s CCH_CTRL CCH_CTRL_PF_EN (bitOf d 1)) CCH_PF_CTRL CCH_PF_CTRL_DEPTH (getF d ⟨8, 8⟩)) (CCH_WAYMASK 0)
    CCH_WAYMASK_WAYS (getF e ⟨0, 16⟩)) (CCH_WAYMASK 1) CCH_WAYMASK_WAYS (getF e ⟨16, 16⟩)) = 1 →
    exec (.setCacheControl x i d e false) s = .next (adminOk (cacheEnable (fset (fset (fset (fsetb s CCH_CTRL CCH_CTRL_PF_EN
    (bitOf d 1)) CCH_PF_CTRL CCH_PF_CTRL_DEPTH (getF d ⟨8, 8⟩)) (CCH_WAYMASK 0) CCH_WAYMASK_WAYS (getF e ⟨0, 16⟩))
    (CCH_WAYMASK 1) CCH_WAYMASK_WAYS (getF e ⟨16, 16⟩))) (portId x) i.toNat 0)) ∧
  (∀ (x : HPort) (i : BitVec 16) (d e : Word) (s : State), portExists s (portId x) = true → (ctl s (portId x)).ready = true →
    claimed s baseBAL = false → 1 ≤ getF d ⟨0, 4⟩ → getF d ⟨0, 4⟩ ≤ 8 → 100 ≤ getF d ⟨16, 16⟩ → getF d ⟨16, 16⟩ ≤ 10000 → 1 ≤
    getF e ⟨0, 16⟩ → 500 ≤ getF e ⟨16, 16⟩ → getF e ⟨16, 16⟩ ≤ 6000 →
    exec (.setBallastControl x i d e false) s = .next (adminOk (fset (fset (fset (fset s BAL_CTRL BAL_CTRL_SAFE_WRITERS (getF
    d ⟨0, 4⟩)) BAL_MARGIN BAL_MARGIN_E_RES (getF d ⟨16, 16⟩)) BAL_CAP BAL_CAP_CAP_MF (getF e ⟨0, 16⟩)) BAL_VCAP
    BAL_VCAP_VFLOOR (getF e ⟨16, 16⟩)) (portId x) i.toNat 0))

/-- O42. A port is disabled, enabled or retrained, a control set is overridden, a spindle is run, stopped or given back to the
policy, and the task, heat and mode fields are written, with the fields in range and the block not under a claim; a
disable or a retrain of a mechanism that is not quiet is a Command Sequence Error. Each clause concludes that the command
answers a next state, under hypotheses on the state and the operands alone. Completes: setTetherPortDisable,
setTetherPortEnable, setTetherPortRetrain, setControlSetOverride, setSpindleRun, setSpindleStop, setSpindleReturnToPolicy,
setBackgroundControl, setThermalControl, setModeControl. (From R100, R197, R220, R362, R342.) -/
def Obligations.PortAndSpindleSettings : Prop :=
  (∀ (x : HPort) (i : BitVec 16) (p : Fin 32) (s : State), portExists s (portId x) = true → (ctl s (portId x)).ready = true →
    claimed s (baseTTH p) = false → mechQuiet s p = true →
    exec (.setTetherPortDisable x i p false) s = .next (adminOk (portDisable s p) (portId x) i.toNat 0)) ∧
  (∀ (x : HPort) (i : BitVec 16) (p : Fin 32) (s : State), portExists s (portId x) = true → (ctl s (portId x)).ready = true →
    claimed s (baseTTH p) = false → mechQuiet s p = false →
    exec (.setTetherPortDisable x i p false) s = .next (sequenceError s (portId x) i.toNat)) ∧
  (∀ (x : HPort) (i : BitVec 16) (p : Fin 32) (s : State), portExists s (portId x) = true → (ctl s (portId x)).ready = true →
    claimed s (baseTTH p) = false →
    exec (.setTetherPortEnable x i p false) s = .next (adminOk (portEnable s p) (portId x) i.toNat 0)) ∧
  (∀ (x : HPort) (i : BitVec 16) (p : Fin 32) (s : State), portExists s (portId x) = true → (ctl s (portId x)).ready = true →
    claimed s (baseTTH p) = false → mechQuiet s p = true →
    exec (.setTetherPortRetrain x i p false) s = .next (adminOk (portRetrain s p) (portId x) i.toNat 0)) ∧
  (∀ (x : HPort) (i : BitVec 16) (d : Word) (p : Nat) (s : State), portExists s (portId x) = true → (ctl s (portId x)).ready =
    true → getF d ⟨0, 5⟩ = p → claimed s (baseBRD (p / 2)) = false → (spnOf s p).ovrCmd = none → switching s p = true →
    exec (.setControlSetOverride x i d false) s = .next (setSpn s p fun z =>
    { z with setOvr := if bitOf d 23 then some (getF d ⟨8, 8⟩) else none, ovrCmd := some (portId x, i.toNat), ovrWait := true })) ∧
  (∀ (x : HPort) (i : BitVec 16) (d : Word) (p : Nat) (s : State), portExists s (portId x) = true → (ctl s (portId x)).ready =
    true → getF d ⟨0, 5⟩ = p → claimed s (baseBRD (p / 2)) = false → (spnOf s p).ovrCmd = none → switching s p = false →
    exec (.setControlSetOverride x i d false) s = .next (overrideSwitch (setSpn s p fun z =>
    { z with setOvr := if bitOf d 23 then some (getF d ⟨8, 8⟩) else none, ovrCmd := some (portId x, i.toNat), ovrWait := true })
    p)) ∧
  (∀ (x : HPort) (i : BitVec 16) (p : Fin 32) (n : BitVec 2) (s : State), portExists s (portId x) = true → (ctl s (portId
    x)).ready = true → claimed s (baseSPN p) = false → stepSpeed s p n.toNat ≠ 0 →
    exec (.setSpindleRun x i p n false) s = .next (adminOk (askRun (setSpn (fset (fset s (SPN_CTRL p) SPN_CTRL_REQ 1)
    (SPN_CTRL p) SPN_CTRL_STEP n.toNat) p fun z => { z with override := true }) p) (portId x) i.toNat 0)) ∧
  (∀ (x : HPort) (i : BitVec 16) (p : Fin 32) (s : State), portExists s (portId x) = true → (ctl s (portId x)).ready = true →
    claimed s (baseSPN p) = false → mechInFlight s p = false →
    exec (.setSpindleStop x i p false) s = .next (adminOk (askStop (setSpn (fset s (SPN_CTRL p) SPN_CTRL_REQ 0) p fun z =>
    { z with override := true }) p false) (portId x) i.toNat 0)) ∧
  (∀ (x : HPort) (i : BitVec 16) (p : Fin 32) (s : State), portExists s (portId x) = true → (ctl s (portId x)).ready = true →
    claimed s (baseSPN p) = false →
    exec (.setSpindleReturnToPolicy x i p false) s = .next (adminOk (setSpn s p fun z => { z with override := false }) (portId
    x) i.toNat 0)) ∧
  (∀ (x : HPort) (i : BitVec 16) (d e : Word) (s : State), portExists s (portId x) = true → (ctl s (portId x)).ready = true →
    claimed s baseBGW = false → 2 ≤ getF d ⟨0, 7⟩ → getF d ⟨0, 7⟩ ≤ 64 → 1 ≤ getF d ⟨8, 8⟩ → 1 ≤ getF e ⟨0, 16⟩ → getF e ⟨0,
    16⟩ ≤ 3650 →
    exec (.setBackgroundControl x i d e false) s = .next (adminOk (forAll (rangeFrom 0 64) (forAll (rangeFrom 0 taskCount)
    (fset (fset s BGW_CTRL BGW_CTRL_N_URG (getF d ⟨0, 7⟩)) BGW_CTRL BGW_CTRL_FP_US (getF d ⟨8, 8⟩)) fun s t => fsetb s
    (BGW_TASK_CTRL t) BGW_TASK_CTRL_EN (bitOf d (16 + taskKind s t))) fun s t => wrN s (BGW_TASK_PERIOD t) (getF e ⟨0, 16⟩ *
    86400)) (portId x) i.toNat 0)) ∧
  (∀ (x : HPort) (i : BitVec 16) (d e : Word) (s : State), portExists s (portId x) = true → (ctl s (portId x)).ready = true →
    claimed s baseTHM = false → 10 ≤ getF d ⟨0, 8⟩ → getF d ⟨0, 8⟩ ≤ 200 →
    exec (.setThermalControl x i d e false) s = .next (adminOk (fset (fsetb (fset s THM_CTRL THM_CTRL_CAL_DT (getF d ⟨0, 8⟩))
    THM_CTRL THM_CTRL_AUTO_CAL (bitOf d 8)) THM_THR_MAP THM_THR_MAP_MAP (getF e ⟨0, 24⟩)) (portId x) i.toNat 0)) ∧
  (∀ (x : HPort) (i : BitVec 16) (d : Word) (v m : Nat) (s : State), portExists s (portId x) = true → (ctl s (portId x)).ready
    = true → getF d ⟨0, 4⟩ = v → mode s = m → claimed s basePWR = false → forceOk v = true → getF d ⟨8, 8⟩ ≠ 0 → v ≠ 7 → m ≠
    0xA → m ≠ 8 → m ≠ 9 → v ≠ 0xB →
    exec (.setModeControl x i d false) s = .next (adminOk (setForce (fset (fset s PWR_CFG PWR_CFG_SWEEP_IDLE (getF d ⟨8, 8⟩))
    PWR_CFG PWR_CFG_REB_AUTO (getF d ⟨16, 1⟩)) v) (portId x) i.toNat 0)) ∧
  (∀ (x : HPort) (i : BitVec 16) (d : Word) (v m : Nat) (s : State), portExists s (portId x) = true → (ctl s (portId x)).ready
    = true → getF d ⟨0, 4⟩ = v → mode s = m → claimed s basePWR = false → forceOk v = true → getF d ⟨8, 8⟩ ≠ 0 → v ≠ 7 → m =
    0xA ∨ m = 8 ∨ m = 9 →
    exec (.setModeControl x i d false) s = .next (sequenceError (setForce s v) (portId x) i.toNat))

/-- O43. A Get Features from a ready controller completes with success and the feature's value in its dwords 0 and 1. Each
clause concludes that the command answers a next state, under hypotheses on the state and the operands alone. Completes:
getUnitPowerPolicy, getCommandSlotReservation, getZoneLayoutControl, getEventRouting, getTailSnapshotSelect,
getTetherPortControl, getDecodeScheduling, getReadRecoveryControl, getWriteSafetyControl, getControlSetOverride,
getSpindleControl, getPartnerControl, getCacheControl, getBallastControl, getBackgroundControl, getThermalControl,
getModeControl. (From R280, R281, R248, R423, R100, R126, R151, R175, R197, R405, R305, R362.) -/
def Obligations.FeatureReads : Prop :=
  (∀ (x : HPort) (i : BitVec 16) (d : Word) (s : State), portExists s (portId x) = true → (ctl s (portId x)).ready = true →
    uUsed s (getF d ⟨0, 12⟩) = true →
    exec (.getUnitPowerPolicy x i d) s = .next (featValue s (portId x) i.toNat (fget s (TRS_UNIT_FACE (getF d ⟨0, 12⟩))
    TRS_UNIT_FACE_POLICY * 2 ^ 12 + policyNow s (getF d ⟨0, 12⟩) % 16 * 2 ^ 8) 0)) ∧
  (∀ (x : HPort) (i : BitVec 16) (s : State), portExists s (portId x) = true → (ctl s (portId x)).ready = true →
    exec (.getCommandSlotReservation x i) s = .next (featValue s (portId x) i.toNat (slotRes s 0 + 2 ^ 16 * slotRes s 1) 0)) ∧
  (∀ (x : HPort) (i : BitVec 16) (s : State), portExists s (portId x) = true → (ctl s (portId x)).ready = true →
    exec (.getZoneLayoutControl x i) s = .next (featValue s (portId x) i.toNat (fget s ZMP_CTRL ZMP_CTRL_JRN_MS + 2 ^ 16 *
    fget s ZMP_CTRL ZMP_CTRL_CROSS_EN + 2 ^ 24 * fget s (THT_CTRL 0) THT_CTRL_RB_SHARE) 0)) ∧
  (∀ (i : BitVec 16) (d : Word) (s : State), portExists s (0) = true → (ctl s (0)).ready = true → getF d ⟨0, 10⟩ < 640 →
    exec (.getEventRouting .a i d) s = .next (featValue s 0 i.toNat (getF d ⟨0, 10⟩ + 2 ^ 16 * fget s (EVT_RT_W0 (getF d ⟨0,
    10⟩)) EVT_RT_W0_TAIL + 2 ^ 24 * b2n (s.evt.aen.contains (getF d ⟨0, 10⟩, 0)) + 2 ^ 25 * b2n (fbit s (EVT_RT_W0 (getF d ⟨0,
    10⟩)) EVT_RT_W0_MSIA)) (fget s (EVT_RT_W1 (getF d ⟨0, 10⟩)) EVT_RT_W1_VEC_A))) ∧
  (∀ (x : HPort) (i : BitVec 16) (d : Word) (s : State), portExists s (portId x) = true → (ctl s (portId x)).ready = true →
    getF d ⟨8, 4⟩ < 12 →
    exec (.getTailSnapshotSelect x i d) s = .next (featValue s (portId x) i.toNat (d &&& 0xF07).toNat (rdN s (TAIL_SEL (getF d
    ⟨0, 3⟩) (getF d ⟨8, 4⟩))))) ∧
  (∀ (x : HPort) (i : BitVec 16) (p : Fin 32) (s : State), portExists s (portId x) = true → (ctl s (portId x)).ready = true →
    exec (.getTetherPortControl x i p) s = .next (featValue s (portId x) i.toNat (portState s p + 16 * fget s (TTH_TOKEN p)
    TTH_TOKEN_OWNER) 0)) ∧
  (∀ (x : HPort) (i : BitVec 16) (s : State), portExists s (portId x) = true → (ctl s (portId x)).ready = true →
    exec (.getDecodeScheduling x i) s = .next (featValue s (portId x) i.toNat (rdN s (LDC_WEIGHT 0)) (fget s (LDC_CTRL 0)
    LDC_CTRL_MAXIT + 2 ^ 8 * fget s (ACT_DET_CFG 0) ACT_DET_CFG_PIN_TO_US))) ∧
  (∀ (x : HPort) (i : BitVec 16) (s : State), portExists s (portId x) = true → (ctl s (portId x)).ready = true →
    exec (.getReadRecoveryControl x i) s = .next (featValue s (portId x) i.toNat (min 7 (fget s (ACT_FMT_CTRL 0)
    ACT_FMT_CTRL_REREAD_MAX) + 2 ^ 8 * fget s (ACT_FMT_CTRL 0) ACT_FMT_CTRL_TP_RECON + 2 ^ 9 * fget s (ACT_FMT_CTRL 0)
    ACT_FMT_CTRL_THATCH_RECON + 2 ^ 16 * b2n (((rangeFrom 0 16).map fun k => rdN s (ACT_LAD 0 k)) == presetLadder 1)) 0)) ∧
  (∀ (x : HPort) (i : BitVec 16) (s : State), portExists s (portId x) = true → (ctl s (portId x)).ready = true →
    exec (.getWriteSafetyControl x i) s = .next (featValue s (portId x) i.toNat ((s.host.safety.getD (0x231820,
    0xC80019)).1.toNat % 2 ^ 24) (s.host.safety.getD (0x231820, 0xC80019)).2.toNat)) ∧
  (∀ (x : HPort) (i : BitVec 16) (p : Fin 32) (s : State), portExists s (portId x) = true → (ctl s (portId x)).ready = true →
    exec (.getControlSetOverride x i p) s = .next (featValue s (portId x) i.toNat (p + 2 ^ 8 * (coefSet s p (fget s (SPN_STAT
    p) SPN_STAT_SPEED_STEP) % 256) + 2 ^ 23 * b2n (spnOf s p).setOvr.isSome) 0)) ∧
  (∀ (x : HPort) (i : BitVec 16) (p : Fin 32) (s : State), portExists s (portId x) = true → (ctl s (portId x)).ready = true →
    exec (.getSpindleControl x i p) s = .next (featValue s (portId x) i.toNat (spnState s p + 16 * fget s (SPN_STAT p)
    SPN_STAT_SPEED_STEP + 2 ^ 8 * b2n (spnOf s p).override) 0)) ∧
  (∀ (x : HPort) (i : BitVec 16) (s : State), portExists s (portId x) = true → (ctl s (portId x)).ready = true →
    exec (.getPartnerControl x i) s = .next (featValue s (portId x) i.toNat (fget s PRT_CTRL PRT_CTRL_TAKEOVER_EN + 2 * fget s
    PRT_CTRL PRT_CTRL_RELAY_FWD + 16 * fget s PRT_STAT PRT_STAT_ROLE + 2 ^ 8 * fget s PRT_STAT PRT_STAT_PARTNER) 0)) ∧
  (∀ (x : HPort) (i : BitVec 16) (s : State), portExists s (portId x) = true → (ctl s (portId x)).ready = true →
    exec (.getCacheControl x i) s = .next (featValue s (portId x) i.toNat (fget s CCH_CTRL CCH_CTRL_EN + 2 * fget s CCH_CTRL
    CCH_CTRL_PF_EN + 2 ^ 8 * fget s CCH_PF_CTRL CCH_PF_CTRL_DEPTH) (fget s (CCH_WAYMASK 0) CCH_WAYMASK_WAYS + 2 ^ 16 * fget s
    (CCH_WAYMASK 1) CCH_WAYMASK_WAYS))) ∧
  (∀ (x : HPort) (i : BitVec 16) (s : State), portExists s (portId x) = true → (ctl s (portId x)).ready = true →
    exec (.getBallastControl x i) s = .next (featValue s (portId x) i.toNat (fget s BAL_CTRL BAL_CTRL_SAFE_WRITERS + 2 ^ 16 *
    fget s BAL_MARGIN BAL_MARGIN_E_RES) (fget s BAL_CAP BAL_CAP_CAP_MF + 2 ^ 16 * fget s BAL_VCAP BAL_VCAP_VFLOOR))) ∧
  (∀ (x : HPort) (i : BitVec 16) (s : State), portExists s (portId x) = true → (ctl s (portId x)).ready = true →
    exec (.getBackgroundControl x i) s = .next (featValue s (portId x) i.toNat (fget s BGW_CTRL BGW_CTRL_N_URG % 128 + 2 ^ 8 *
    fget s BGW_CTRL BGW_CTRL_FP_US + 2 ^ 16 * sumN ((rangeFrom 0 8).map fun k => 2 ^ k * fget s (BGW_TASK_CTRL (kindFirst k))
    BGW_TASK_CTRL_EN)) (taskPeriod s 0 / 86400 % 65536))) ∧
  (∀ (x : HPort) (i : BitVec 16) (s : State), portExists s (portId x) = true → (ctl s (portId x)).ready = true →
    exec (.getThermalControl x i) s = .next (featValue s (portId x) i.toNat (fget s THM_CTRL THM_CTRL_CAL_DT + 2 ^ 8 * fget s
    THM_CTRL THM_CTRL_AUTO_CAL) (fget s THM_THR_MAP THM_THR_MAP_MAP))) ∧
  (∀ (x : HPort) (i : BitVec 16) (s : State), portExists s (portId x) = true → (ctl s (portId x)).ready = true →
    exec (.getModeControl x i) s = .next (featValue s (portId x) i.toNat (force s + 16 * mode s + 2 ^ 8 * fget s PWR_CFG
    PWR_CFG_SWEEP_IDLE + 2 ^ 16 * fget s PWR_CFG PWR_CFG_REB_AUTO) 0))

/-- O44. Each of these commands from a ready controller, its block not under a claim and its fields in range, has its effect
and completes, or waits for what it started; a claimed block is answered with 0/0xC0. Each clause concludes that the
command answers a next state, under hypotheses on the state and the operands alone. Completes: zoneLocate,
tailControlFreeze, tailControlThaw, tailControlClear, spindleServiceClear, spindleServiceTest, spindleTestEnd,
spindleServiceCalibrate, roleHandover, updateConfirm, pageRetire, memoryCheckSingleBit, memoryCheckUncorrectable,
memoryCheckPoison, memoryCodeStore, calibrateActuator. (From R220, R249, R305, R362, R405, R423.) -/
def Obligations.ServiceCommands : Prop :=
  (∀ (x : HPort) (i : BitVec 16) (n : BitVec 32) (b : BitVec 64) (s : State), portExists s (portId x) = true → (ctl s (portId
    x)).ready = true → (locateLba s n.toNat b.toNat).1 = 0 →
    exec (.zoneLocate x i n b) s = .next (adminData s (portId x) i.toNat (leBytes 4 (locateLba s n.toNat b.toNat).2.1.toNat ++
    leBytes 4 (locateLba s n.toNat b.toNat).2.2.1.toNat ++ leBytes 4 (locateLba s n.toNat b.toNat).2.2.2.toNat ++ [0, 0, 0,
    0]))) ∧
  (∀ (x : HPort) (i : BitVec 16) (n : BitVec 32) (b : BitVec 64) (s : State), portExists s (portId x) = true → (ctl s (portId
    x)).ready = true → (locateLba s n.toNat b.toNat).1 ≠ 0 →
    exec (.zoneLocate x i n b) s = .next (invalidField s (portId x) i.toNat)) ∧
  (∀ (x : HPort) (i : BitVec 16) (r : Fin 8) (s : State), portExists s (portId x) = true → (ctl s (portId x)).ready = true →
    exec (.tailControlFreeze x i r) s = .next (adminOk (fsetb s (TAIL_CTRL r) TAIL_CTRL_FREEZE true) (portId x) i.toNat 0)) ∧
  (∀ (x : HPort) (i : BitVec 16) (r : Fin 8) (s : State), portExists s (portId x) = true → (ctl s (portId x)).ready = true →
    exec (.tailControlThaw x i r) s = .next (adminOk (fsetb s (TAIL_CTRL r) TAIL_CTRL_FREEZE false) (portId x) i.toNat 0)) ∧
  (∀ (x : HPort) (i : BitVec 16) (r : Fin 8) (s : State), portExists s (portId x) = true → (ctl s (portId x)).ready = true →
    exec (.tailControlClear x i r) s = .next (adminOk (wrN (tailSet s r []) (TAIL_DROPPED r) 0) (portId x) i.toNat 0)) ∧
  (∀ (x : HPort) (i : BitVec 16) (p : Fin 32) (s : State), portExists s (portId x) = true → (ctl s (portId x)).ready = true →
    claimed s (baseSPN p) = false →
    exec (.spindleServiceClear x i p) s = .next (adminOk (setFls (fset (fsetb s (SPN_CHOP p) SPN_CHOP_RETIRED false) (SPN_CHOP
    p) SPN_CHOP_WHY 0) fun f => { f with choppers := f.choppers.filter (· != identSerial s p) }) (portId x) i.toNat 0)) ∧
  (∀ (x : HPort) (i : BitVec 16) (p : Fin 32) (s : State), portExists s (portId x) = true → (ctl s (portId x)).ready = true →
    claimed s (baseSPN p) = true →
    exec (.spindleServiceClear x i p) s = .next (claimHeld s (portId x) i.toNat)) ∧
  (∀ (x : HPort) (i : BitVec 16) (p : Fin 32) (n : BitVec 2) (s : State), portExists s (portId x) = true → (ctl s (portId
    x)).ready = true → claimed s (baseSPN p) = false → (mechUnit s p).any (fun u => uState s u == 1) = true → spnState s p = 0
    → stepSpeed s p n.toNat ≠ 0 →
    exec (.spindleServiceTest x i p n) s = .next (fset (spnSlotRef (spnSlotMode (setSpn (setSpnState (enginePower s (p / 2)) p
    11) p fun z => { z with testCmd := some (portId x, i.toNat) }) p 2 0) p (stepSpeed s p n.toNat)) (SPN_STAT p)
    SPN_STAT_DRIVE 2)) ∧
  (∀ (p : Fin 32) (c : Nat × Nat) (s : State), spnState s p = 11 → (spnOf s p).testCmd = some c →
    exec (.spindleTestEnd p) s = .next (adminOk (goBrake (setSpn s p fun z => { z with testCmd := none, wantStop := true }) p)
    c.1 c.2 0)) ∧
  (∀ (x : HPort) (i : BitVec 16) (p : Fin 32) (q : BitVec 5) (s : State), portExists s (portId x) = true → (ctl s (portId
    x)).ready = true → claimed s (baseSPN p) = false → q.toNat ≤ 23 → fbit s (AST_WEAR_W2 p q.toNat) AST_WEAR_W2_RETIRED =
    false →
    exec (.spindleServiceCalibrate x i p q) s = .next (calPend s (2 * p + q.toNat / 12) (some (some (q.toNat % 12), some
    (portId x, i.toNat))))) ∧
  (∀ (x : HPort) (i : BitVec 16) (s : State), portExists s (portId x) = true → (ctl s (portId x)).ready = true → claimed s
    basePRT = false → hoAllowed s = true → s.prt.hoWait = false →
    exec (.roleHandover x i) s = .next (hoTry (setPrt (hoResult s 0) fun y =>
    { y with hoWait := true, hoCmd := some (portId x, i.toNat) }))) ∧
  (∀ (x : HPort) (i : BitVec 16) (s : State), portExists s (portId x) = true → (ctl s (portId x)).ready = true → fbit s
    PRT_STAT PRT_STAT_UPDATING = false →
    exec (.updateConfirm x i true) s = .next (adminOk (emit (fset (setFls s fun f => { f with oldCopies := false })
    PRT_FW_FLOOR PRT_FW_FLOOR_SVN_FLOOR (max (fget s PRT_FW_FLOOR PRT_FW_FLOOR_SVN_FLOOR) (fget s PRT_FW PRT_FW_SVN))) (.peer
    26 [])) (portId x) i.toNat 0)) ∧
  (∀ (x : HPort) (i : BitVec 16) (g : BitVec 20) (s : State), portExists s (portId x) = true → (ctl s (portId x)).ready = true
    → claimed s baseMEP = false → fbit s MEP_RET_STAT MEP_RET_STAT_BUSY = false →
    exec (.pageRetire x i g) s = .next (retireStart (setMem s fun y => { y with cmd := some (portId x, i.toNat) }) g.toNat
    false)) ∧
  (∀ (x : HPort) (i : BitVec 16) (r : BitVec 2) (s : State), portExists s (portId x) = true → (ctl s (portId x)).ready = true
    → claimed s baseMEP = false →
    exec (.memoryCheckSingleBit x i r) s = .next (adminOk ((flipTest s r.toNat 1).1) (portId x) i.toNat (b2n ((flipTest s
    r.toNat 1).2 == if memCode s 0 r.toNat = 2 then 2 else 1)))) ∧
  (∀ (x : HPort) (i : BitVec 16) (r : BitVec 2) (s : State), portExists s (portId x) = true → (ctl s (portId x)).ready = true
    → claimed s baseMEP = false →
    exec (.memoryCheckUncorrectable x i r) s = .next (adminOk ((flipTest s r.toNat 0x10001).1) (portId x) i.toNat (b2n
    ((flipTest s r.toNat 0x10001).2 == 2)))) ∧
  (∀ (x : HPort) (i : BitVec 16) (r : BitVec 2) (s : State), portExists s (portId x) = true → (ctl s (portId x)).ready = true
    → claimed s baseMEP = false →
    exec (.memoryCheckPoison x i r) s = .next (adminOk (dropBad (lineRead (addPoison s r.toNat (2 ^ 128 + testPage s r.toNat *
    4096) (testPage s r.toNat * 4096) false) r.toNat (2 ^ 128 + testPage s r.toNat * 4096)).1 r.toNat (2 ^ 128 + testPage s
    r.toNat * 4096)) (portId x) i.toNat (b2n ((lineRead (addPoison s r.toNat (2 ^ 128 + testPage s r.toNat * 4096) (testPage s
    r.toNat * 4096) false) r.toNat (2 ^ 128 + testPage s r.toNat * 4096)).2)))) ∧
  (∀ (x : HPort) (i : BitVec 16) (r : BitVec 8) (b c : BitVec 32) (s : State), portExists s (portId x) = true → (ctl s (portId
    x)).ready = true → claimed s baseMEP = false → claimed s baseFLS = false → codesOk 4 r.toNat = true → r.toNat % 4 = 0 →
    codesOk 16 b.toNat = true → codesOk 16 c.toNat = true →
    exec (.memoryCodeStore x i r b c) s = .next (adminOk (programPages (setMem s fun y =>
    { y with codes := some (r.toNat, b.toNat, c.toNat) }) 2) (portId x) i.toNat 0)) ∧
  (∀ (x : HPort) (i : BitVec 16) (a : BitVec 6) (b : Bool) (j : BitVec 4) (u : Nat) (s : State), portExists s (portId x) =
    true → (ctl s (portId x)).ready = true → claimed s baseBGW = false → headsOf s (a.toNat / 2) (a.toNat % 2) ≠ [] → (b =
    true → (headsOf s (a.toNat / 2) (a.toNat % 2)).contains j.toNat = true) → actUnit (calPend s a.toNat (some (if b then some
    j.toNat else none, some (portId x, i.toNat)))) a.toNat = some u →
    exec (.calibrateActuator x i a b j) s = .next (wakeDemand (calPend s a.toNat (some (if b then some j.toNat else none, some
    (portId x, i.toNat)))) u))

/-- O45. FETCH_EN is written and SLOTS read; a DRAM temperature is sampled; a flip is armed by a master that may; a page is
retired by its register and its end recorded; the error log's entries are freed; LOCK is set; a fill, a write-back, a
prefetch, a drain and an invalidation do their parts. Each clause concludes that the command answers a next state, under
hypotheses on the state and the operands alone. Completes: fetchEnWrite, hifSlotsRead, dramTempSample, mepFlipArm,
pageRetireGo, pageRetireDone, celogEntryFree, celogClear, mepCodeLock, cacheFillDone, cacheWritebackDone, prefetchIssue,
cacheDisable, cacheDrainDone, cacheEnable, cacheInvalidate, cacheInvalidateDone. (From R283, R284, R290, R293, R294, R295,
R297, R301, R302, R303, R14.) -/
def Obligations.MemoryAndCache : Prop :=
  (∀ (m : Master) (v : BitVec 2) (s : State), qcsReach s m (HIF_CTRL) = true →
    exec (.fetchEnWrite m v) s = .next (fset s HIF_CTRL HIF_CTRL_FETCH_EN v.toNat)) ∧
  (∀ (m : Master) (s : State), accessUndefined s m HIF_SLOTS = false → hostPort m = none →
    exec (.hifSlotsRead m) s = .next (emit (fset (clearRC (dropLatch s m HIF_SLOTS) HIF_SLOTS) HIF_SLOTS HIF_SLOTS_PEAK (fget
    (clearRC (dropLatch s m HIF_SLOTS) HIF_SLOTS) HIF_SLOTS HIF_SLOTS_IN_FLIGHT)) (.readData m HIF_SLOTS (readValue s m
    HIF_SLOTS)))) ∧
  (∀ (t : BitVec 16) (n : Nat) (s : State), bandOf [100, 250, 400, 550, 650] 20 (fget s BUF_STAT BUF_STAT_BAND) (tempOf t) = n
    → n ≠ fget s BUF_STAT BUF_STAT_BAND →
    exec (.dramTempSample t) s = .next (evtSet (fset (fset s BUF_STAT BUF_STAT_TEMP t.toNat) BUF_STAT BUF_STAT_BAND n) .buf
    BUF_EVT_BAND)) ∧
  (∀ (t : BitVec 16) (s : State), bandOf [100, 250, 400, 550, 650] 20 (fget s BUF_STAT BUF_STAT_BAND) (tempOf t) = fget s
    BUF_STAT BUF_STAT_BAND →
    exec (.dramTempSample t) s = .next (fset (fset s BUF_STAT BUF_STAT_TEMP t.toNat) BUF_STAT BUF_STAT_BAND (fget s BUF_STAT
    BUF_STAT_BAND))) ∧
  (∀ (m : Master) (v : Word) (s : State), qcsReach s m (MEP_FLIP_CTRL) = true → flipWriter s m = true →
    exec (.mepFlipArm m v) s = .next (writeFlipCtrl s v)) ∧
  (∀ (m : Master) (v : Word) (s : State), qcsReach s m (MEP_FLIP_CTRL) = true → flipWriter s m = false →
    exec (.mepFlipArm m v) s = .next s) ∧
  (∀ (m : Master) (g : BitVec 20) (s : State), qcsReach s m (MEP_RET_CMD) = true → fbit s MEP_RET_STAT MEP_RET_STAT_BUSY =
    false →
    exec (.pageRetireGo m g) s = .next (retireStart s g.toNat false)) ∧
  (∀ (r : Nat) (s : State), fbit s MEP_RET_STAT MEP_RET_STAT_BUSY = true → retireResult s (fget s MEP_RET_CMD
    MEP_RET_CMD_PAGE) = r →
    exec .pageRetireDone s = .next (retireAnswer (evtSet (fset (fsetb (fsetb (retireEffect s (fget s MEP_RET_CMD
    MEP_RET_CMD_PAGE) r) MEP_RET_STAT MEP_RET_STAT_BUSY false) MEP_RET_STAT MEP_RET_STAT_DONE true) MEP_RET_STAT
    MEP_RET_STAT_RESULT r) .mep MEP_EVT_RET_DONE) (fget s MEP_RET_CMD MEP_RET_CMD_PAGE) r)) ∧
  (∀ (m : Master) (i : Fin 64) (s : State), qcsReach s m (MEP_CELOG_W0 i) = true →
    exec (.celogEntryFree m i) s = .next (syncCelog (fsetb s (MEP_CELOG_W0 i) MEP_CELOG_W0_VALID false))) ∧
  (∀ (m : Master)  (s : State), qcsReach s m (MEP_CELOG_STAT) = true →
    exec (.celogClear m) s = .next (fsetb (forAll (rangeFrom 0 64) s celogFree) MEP_CELOG_STAT MEP_CELOG_STAT_OVF false)) ∧
  (∀ (m : Master)  (s : State), qcsReach s m (MEP_CTRL) = true →
    exec (.mepCodeLock m) s = .next (fsetb s MEP_CTRL MEP_CTRL_LOCK true)) ∧
  (∀ (i : BitVec 16) (x : CacheFill) (f : Nat) (s : State), s.cch.fills[i.toNat]? = some x → x.wb = false → x.frame = some f →
    cchState s ≠ 0 →
    exec (.cacheFillDone i) s = .next (fillFrame (setCch s fun c => { c with fills := c.fills.eraseIdx i.toNat }) x f)) ∧
  (∀ (i : BitVec 16) (x : CacheFill) (f : Nat) (l : CacheLine) (s : State), s.cch.fills[i.toNat]? = some x → x.wb = true →
    x.frame = some f → cacheLine s f = some l → admitsAll s (writesAhead s x.order ++ lineExts s l) = true → x.hit = false →
    exec (.cacheWritebackDone i) s = .next (setCch (writeBack s f l) fun c =>
    { c with fills := c.fills.modify i.toNat fun y => { y with wb := false } })) ∧
  (∀ (i : BitVec 16) (x : CacheFill) (f : Nat) (l : CacheLine) (s : State), s.cch.fills[i.toNat]? = some x → x.wb = true →
    x.frame = some f → cacheLine s f = some l → admitsAll s (writesAhead s x.order ++ lineExts s l) = false →
    exec (.cacheWritebackDone i) s = .next (evtSet s .cch CCH_EVT_WB_WAIT)) ∧
  (∀ (i : BitVec 8) (d : StrideDet) (s : State), s.cch.dets[i.toNat]? = some d → pfMay s d = true →
    exec (.prefetchIssue i) s = .next (setCch (pfFill s d) fun c =>
    { c with dets := c.dets.modify i.toNat fun y => { y with ahead := y.ahead + 1 } })) ∧
  (∀ (i : BitVec 8) (d : StrideDet) (s : State), s.cch.dets[i.toNat]? = some d → pfMay s d = false →
    exec (.prefetchIssue i) s = .next s) ∧
  (∀ (m : Master)  (s : State), qcsReach s m (CCH_CTRL) = true → exec (.cacheDisable m) s = .next (cacheDisable s)) ∧
  (∀ (t : State) (s : State), cchState s = 1 → drainLines s = some t →
    exec .cacheDrainDone s = .next (cacheCmdEnd (evtSet (fset t CCH_STAT CCH_STAT_STATE 0) .cch CCH_EVT_DRAIN_DONE))) ∧
  (∀ (s : State), cchState s = 1 → drainLines s = none → exec .cacheDrainDone s = .next (evtSet s .cch CCH_EVT_WB_WAIT)) ∧
  (∀ (m : Master)  (s : State), qcsReach s m (CCH_CTRL) = true → exec (.cacheEnable m) s = .next (cacheEnable s)) ∧
  (∀ (m : Master)  (s : State), qcsReach s m (CCH_CTRL) = true →
    exec (.cacheInvalidate m) s = .next (fsetb (if cchState s = 1 then s else setCch s fun c =>
    { c with drain := s.host.order }) CCH_STAT CCH_STAT_INV_BUSY true)) ∧
  (∀ (t : State) (s : State), fbit s CCH_STAT CCH_STAT_INV_BUSY = true → drainLines s = some t → t.cch.enWait = false →
    exec .cacheInvalidateDone s = .next (evtSet (fsetb (fsetb (syncCache (setCch t fun c =>
    { c with lines := [], fills := c.fills.map fun x => { x with gone := x.mask }, enWait := false })) CCH_STAT CCH_STAT_STALE
    false) CCH_STAT CCH_STAT_INV_BUSY false) .cch CCH_EVT_INV_DONE))

/-- O46. The ledger is evaluated with the capacitor voltage given; PFAIL is asserted and taken back; in SAFE staging starts
and ends in its phases; SAFE is left when PFAIL is gone and its last phase is over. Each clause concludes that the command
answers a next state, under hypotheses on the state and the operands alone. Completes: ledgerEvaluation, shelfPfailAssert,
safeStagingStart, safeStagingDone, shelfPfailDeassert, safeExit. (From R312, R316, R317, R334.) -/
def Obligations.LedgerAndSafe : Prop :=
  (∀ (v : BitVec 12) (s : State), inSafe (fset s BAL_VCAP BAL_VCAP_VCAP (bankVolts s v.toNat)) = false →
    Does (.ledgerEvaluation v) s fun t => ∃ r, r = forAll (judgeDeficit (syncVused (putPlan (fset s BAL_VCAP BAL_VCAP_VCAP
    (bankVolts s v.toNat)) (ledgerPlan (fset s BAL_VCAP BAL_VCAP_VCAP (bankVolts s v.toNat)) none)))).bal.held (judgeDeficit
    (syncVused (putPlan (fset s BAL_VCAP BAL_VCAP_VCAP (bankVolts s v.toNat)) (ledgerPlan (fset s BAL_VCAP BAL_VCAP_VCAP
    (bankVolts s v.toNat)) none)))) retryHeld ∧ t = mirror r 5 [rdN r BAL_VUSED, rdN r BAL_VMAX, rdN r BAL_WRITERS]) ∧
  (∀ (v : BitVec 12) (s : State), inSafe (fset s BAL_VCAP BAL_VCAP_VCAP (bankVolts s v.toNat)) = true →
    exec (.ledgerEvaluation v) s = .next (fset s BAL_VCAP BAL_VCAP_VCAP (bankVolts s v.toNat))) ∧
  (∀ (s : State), 2 ≤ mode s → mode s ≠ 9 → isActiveRole (fsetb s BAL_STAT BAL_STAT_PFAIL true) = true → inSafe (fsetb s
    BAL_STAT BAL_STAT_PFAIL true) = false → mode (fsetb s BAL_STAT BAL_STAT_PFAIL true) = mode s →
    exec .shelfPfailAssert s = .next (enterSafe (fsetb s BAL_STAT BAL_STAT_PFAIL true))) ∧
  (∀ (s : State), inSafe s = true → safePhase s = 1 → exec .safeStagingStart s = .next (fset s BAL_STAT BAL_STAT_PHASE 2)) ∧
  (∀ (s : State), inSafe s = true → safePhase s = 2 → exec .safeStagingDone s = .next (safeStaged s)) ∧
  (∀ (s : State), inSafe (fsetb s BAL_STAT BAL_STAT_PFAIL false) = true →
    exec .shelfPfailDeassert s = .next (evtSet (fsetb s BAL_STAT BAL_STAT_PFAIL false) .bal BAL_EVT_PFAIL_GONE)) ∧
  (∀ (s : State), inSafe (fsetb s BAL_STAT BAL_STAT_PFAIL false) = false →
    exec .shelfPfailDeassert s = .next (fsetb s BAL_STAT BAL_STAT_PFAIL false)) ∧
  (∀ (s : State), inSafe s = true → safePhase s = 4 → fbit s BAL_STAT BAL_STAT_PFAIL = false →
    exec .safeExit s = .next (applyRule (psUpdate (setMode (setBal (fset (fsetb s BAL_STAT BAL_STAT_SAFE false) BAL_STAT
    BAL_STAT_PHASE 0) fun b => { b with donors := [] }) 2 5)))) ∧
  (∀ (s : State), inSafe s = true → safePhase s ≠ 4 ∨ fbit s BAL_STAT BAL_STAT_PFAIL = true → exec .safeExit s = .next s)

/-- O47. The always-on supply, the crystal and the main supply come and go; an enabled wake source is recorded in WATCH and
pulls the wake pin; a lost clock resets the device or takes its links down; a domain asked for comes on or fails, unless
it is blocked or the envelope holds it; HOLD and BLOCK are written. Each clause concludes that the command answers a next
state, under hypotheses on the state and the operands alone. Completes: vaonGood, xtalStart, mainPgRise, mainPgFall,
watchWakeSource, pllUnlock, domainPowerGood, domainPowerFail, domainHoldWrite, domainBlockWrite, debugAttach. (From R322,
R323, R327, R328, R329, R330, R331, R333, R334.) -/
def Obligations.ClocksAndDomains : Prop :=
  (∀ (s : State), exec .vaonGood s = .next (setPwr (aonLost s) fun w => { w with vaon := true })) ∧
  (∀ (s : State), s.pwr.vaon = true → exec .xtalStart s = .next (fsetb s PWR_CLK PWR_CLK_XTAL_OK true)) ∧
  (∀ (b : Bool) (s : State), mode s = 0 → s.pwr.vaon = true → exec (.mainPgRise b) s = .next (mainGood s b)) ∧
  (∀ (s : State), mode s ≠ 0 → cleanEntry s = true →
    exec .mainPgFall s = .next (enterWatch (setFls s fun f => { f with ckpt := f.ckpt.map fun c => { c with clean := true } })
    7)) ∧
  (∀ (s : State), mode s ≠ 0 → cleanEntry s = false → exec .mainPgFall s = .next (enterWatch s 2)) ∧
  (∀ (c : Fin 5) (s : State), mode s = 0 → s.pwr.vaon = true → bitOf (rd s PWR_WAKE_EN) c = true → s.pwr.wakeLow = false →
    exec (.watchWakeSource c) s = .next (emit (setPwr (wbit s PWR_AON_STAT (8 + c) true) fun w => { w with wakeLow := true })
    (.pin 0 0))) ∧
  (∀ (c : Fin 5) (s : State), mode s = 0 → s.pwr.vaon = true → bitOf (rd s PWR_WAKE_EN) c = true → s.pwr.wakeLow = true →
    exec (.watchWakeSource c) s = .next (wbit s PWR_AON_STAT (8 + c) true)) ∧
  (∀ (k : Fin 17) (s : State), mode s ≠ 0 → bitOf (clkWord s) (pllBit k) = true → k.val < 4 →
    exec (.pllUnlock k) s = .next (deviceReset s 4)) ∧
  (∀ (k : Fin 17) (s : State), mode s ≠ 0 → bitOf (clkWord s) (pllBit k) = true → 8 ≤ k.val → k.val < 16 →
    exec (.pllUnlock k) s = .next (forAll (rangeFrom (4 * (k.val - 8)) 4) (evtSet (wbit s PWR_CLK (pllBit k) false) .pwr
    PWR_EVT_PLL_UNLOCK) fun s p => if laneMode s p then portRetrain s p else s)) ∧
  (∀ (n : Fin 477) (s : State), s.pwr.wanted.contains n.val = true → domBlocked s n = false → envHolds s n = false → n.val <
    411 ∨ 427 ≤ n.val ∨ fbit s PWR_CLK PWR_CLK_BRD = true →
    exec (.domainPowerGood n) s = .next (domUp s n)) ∧
  (∀ (n : Fin 477) (s : State), s.pwr.wanted.contains n.val = true → domBlocked s n = true ∨ envHolds s n = true →
    exec (.domainPowerGood n) s = .next s) ∧
  (∀ (n : Fin 477) (s : State), s.pwr.wanted.contains n.val = true → domBlocked s n = false → envHolds s n = false →
    exec (.domainPowerFail n) s = .next (domFault s n)) ∧
  (∀ (m : Master) (i : Fin 15) (v : Word) (s : State), qcsReach s m (PWR_DOM_HOLD i) = true →
    exec (.domainHoldWrite m i v) s = .next (holdWrite s i v)) ∧
  (∀ (m : Master) (i : Fin 15) (v : Word) (s : State), qcsReach s m (PWR_DOM_BLOCK i) = true →
    exec (.domainBlockWrite m i v) s = .next (wr s (PWR_DOM_BLOCK i) (v &&& wordOfBits fun b => blockable (32 * i + b)))) ∧
  (∀ (s : State), mode s ≠ 0 →
    exec (.debugAttach true) s = .next (domRequest (setPwr s fun w => { w with debug := true }) 476)) ∧
  (∀ (s : State), mode s ≠ 0 →
    exec (.debugAttach false) s = .next (partyReset (domRelease (setPwr s fun w => { w with debug := false }) 476) 0x1F))

/-- O48. A choice window in a mode takes its choice and applies the rule; FORCE is written and MAINT entered when nothing is
dirty; power samples are judged; each reset cause resets the device; the uptime counter and the core supply behave as
their rules say. Each clause concludes that the command answers a next state, under hypotheses on the state and the
operands alone. Completes: modeChoiceWindow, modeForceWrite, maintEntry, envelopeLimit, pwrMeasRead, sysReset,
softwareReset, ridgeWatchdogExpire, wdogKick, uptimeWrap, vbandChange, vcoreUndervoltage. (From R332, R333, R334, R338,
R341, R343, R452, R454.) -/
def Obligations.ModesAndResets : Prop :=
  (∀ (c n k : Nat) (s : State), 2 ≤ mode s → windowChoice s = c → max 1 (fget s PWR_CFG PWR_CFG_WIN_N) = n → (if c =
    s.pwr.cand then s.pwr.candN + 1 else 1) = k →
    exec .modeChoiceWindow s = .next (applyRule (setPwr s fun w =>
    { w with winW := 0, winR := 0, cand := c, candN := min k 15, base := if n ≤ k then c else w.base }))) ∧
  (∀ (m : Master) (v : BitVec 4) (s : State), qcsReach s m (PWR_MODE) = true → forceOk v.toNat = true →
    exec (.modeForceWrite m v) s = .next (setForce s v.toNat)) ∧
  (∀ (m : Master) (v : BitVec 4) (s : State), qcsReach s m (PWR_MODE) = true → forceOk v.toNat = false →
    exec (.modeForceWrite m v) s = .next s) ∧
  (∀ (s : State), force s = 0xB → ruleApplies s = true → inSafe s = false → s.zmp.dirty = [] →
    exec .maintEntry s = .next (modeCmdDone (setMode s 0xB 3))) ∧
  (∀ (l : List (BitVec 16)) (s : State), mode s ≠ 0 → exec (.envelopeLimit l) s = .next (forAll l s powerSample)) ∧
  (∀ (m : Master) (s : State), accessUndefined s m PWR_MEAS = false → hostPort m = none →
    exec (.pwrMeasRead m) s = .next (emit (fset (clearRC (dropLatch s m PWR_MEAS) PWR_MEAS) PWR_MEAS PWR_MEAS_PEAK (fget
    (clearRC (dropLatch s m PWR_MEAS) PWR_MEAS) PWR_MEAS PWR_MEAS_NOW)) (.readData m PWR_MEAS (readValue s m PWR_MEAS)))) ∧
  (∀ (b : Bool) (s : State), mode s ≠ 0 → exec (.sysReset b) s = .next (samplePair (deviceReset s 1) b)) ∧
  (∀ (m : Master) (v : Word) (s : State), qcsReach s m (PWR_RST) = true → getF v PWR_RST_KEY = 0x7A5C → getF v PWR_RST_GO = 1
    →
    exec (.softwareReset m v) s = .next (deviceReset s 3)) ∧
  (∀ (m : Master) (v : Word) (s : State), qcsReach s m (PWR_RST) = true → getF v PWR_RST_KEY ≠ 0x7A5C →
    exec (.softwareReset m v) s = .next s) ∧
  (∀ (s : State), exec .ridgeWatchdogExpire s = .next (deviceReset s 5)) ∧
  (∀ (m : Master)  (s : State), qcsReach s m (PWR_WDOG) = true → exec (.wdogKick m) s = .next s) ∧
  (∀ (s : State), uptime s = 2 ^ 32 - 1 → s.pwr.vaon = true → mode (wrN s PWR_UPTIME 0) ≠ 0 →
    exec .uptimeWrap s = .next (evtSet (wrN s PWR_UPTIME 0) .pwr PWR_EVT_UPTIME_WRAP)) ∧
  (∀ (b : Fin 3) (s : State), mode s = 0 → exec (.vbandChange b) s = .next (fset s FLS_STAT FLS_STAT_VBAND b)) ∧
  (∀ (b : Fin 3) (n : Nat) (s : State), mode s ≠ 0 → b.val ≠ 2 → minWs (fset s FLS_STAT FLS_STAT_VBAND b) = some n → claimed
    (fset s FLS_STAT FLS_STAT_VBAND b) baseFLS = false → s.pwr.bootStep ≠ 0 →
    exec (.vbandChange b) s = .next (fset (fset s FLS_STAT FLS_STAT_VBAND b) FLS_RDCFG FLS_RDCFG_WS n)) ∧
  (∀ (s : State), mode s ≠ 0 →
    exec (.vbandChange 2) s = .next (wsFollow (setFls (fset s FLS_STAT FLS_STAT_VBAND 2) fun f =>
    { f with job := f.job.map fun j => { j with volt := true } }))) ∧
  (∀ (s : State), mode s ≠ 0 → exec .vcoreUndervoltage s = .next (enterWatch s 2))

/-- O49. The boot takes the active bank when it passes, else the other, else asks the partner; the partner is served the
active image; the trained memory ends step 1 and the settled role step 2; the power policy is evaluated by an active
device in a mode. Each clause concludes that the command answers a next state, under hypotheses on the state and the
operands alone. Completes: romImageCheck, peerImageServe, dramTrainingDone, roleSettleWindowEnd, powerPolicyEvaluation.
(From R291, R382, R401, R336.) -/
def Obligations.BootSteps : Prop :=
  (∀ (a b : BitVec 3) (l : List Byte) (s : State), mode s = 1 → s.pwr.bootStep = 0 → bankResult s (fget s PRT_FW
    PRT_FW_ACTIVE_BANK) (if fget s PRT_FW PRT_FW_ACTIVE_BANK = 0 then a.toNat else b.toNat) = 0 →
    exec (.romImageCheck a b l) s = .next (startFirmware (fset s PRT_FW PRT_FW_BOOT_RESULT 0))) ∧
  (∀ (a b : BitVec 3) (l : List Byte) (s : State), mode s = 1 → s.pwr.bootStep = 0 → bankResult s (fget s PRT_FW
    PRT_FW_ACTIVE_BANK) (if fget s PRT_FW PRT_FW_ACTIVE_BANK = 0 then a.toNat else b.toNat) ≠ 0 → bankResult s (1 - fget s
    PRT_FW PRT_FW_ACTIVE_BANK) (if 1 - fget s PRT_FW PRT_FW_ACTIVE_BANK = 0 then a.toNat else b.toNat) = 0 →
    exec (.romImageCheck a b l) s = .next (startFirmware (evtSet (fsetb (oldFormats (flipBank (fset s PRT_FW
    PRT_FW_BOOT_RESULT (bankResult s (fget s PRT_FW PRT_FW_ACTIVE_BANK) (if fget s PRT_FW PRT_FW_ACTIVE_BANK = 0 then a.toNat
    else b.toNat))))) PRT_FW PRT_FW_FALLBACK true) .prt PRT_EVT_BOOT_FALLBACK))) ∧
  (∀ (a b : BitVec 3) (s : State), mode s = 1 → s.pwr.bootStep = 0 → bankResult s (fget s PRT_FW PRT_FW_ACTIVE_BANK) (if fget
    s PRT_FW PRT_FW_ACTIVE_BANK = 0 then a.toNat else b.toNat) ≠ 0 → bankResult s (1 - fget s PRT_FW PRT_FW_ACTIVE_BANK) (if 1
    - fget s PRT_FW PRT_FW_ACTIVE_BANK = 0 then a.toNat else b.toNat) ≠ 0 →
    exec (.romImageCheck a b []) s = .next (emit (fset s PRT_FW PRT_FW_BOOT_RESULT (bankResult s (fget s PRT_FW
    PRT_FW_ACTIVE_BANK) (if fget s PRT_FW PRT_FW_ACTIVE_BANK = 0 then a.toNat else b.toNat))) (.peer 20 []))) ∧
  (∀ (x : Nat × List Nat) (s : State), s.pwr.bootStep ≠ 0 → mode s ≠ 0 → s.fls.images.find? (fun x => x.1 == fget s PRT_FW
    PRT_FW_ACTIVE_BANK) = some x →
    exec .peerImageServe s = .next (emit s (.peer 21 x.2))) ∧
  (∀ (s : State), mode s = 1 → s.pwr.bootStep = 1 →
    exec (.dramTrainingDone 255) s = .next (setPwr (bootTruss (bootMemory (fset (fsetb s PWR_CLK PWR_CLK_DRAM true) BUF_STAT
    BUF_STAT_CH_UP 255))) fun v => { v with bootStep := 2 })) ∧
  (∀ (c : BitVec 8) (s : State), mode s = 1 → s.pwr.bootStep = 1 → c.toNat ≠ 255 →
    exec (.dramTrainingDone c) s = .next (setPwr (rootGrade (evtSet (bootTruss (bootMemory (fset (fsetb s PWR_CLK PWR_CLK_DRAM
    true) BUF_STAT BUF_STAT_CH_UP c.toNat))) .buf BUF_EVT_CH_FAIL) 3 0x93) fun v => { v with bootStep := 2 })) ∧
  (∀ (s : State), mode s = 1 → s.pwr.bootStep = 2 → exec .roleSettleWindowEnd s = .next (roleSettled s (settledRole s))) ∧
  (∀ (l : List (BitVec 7)) (r : State) (s : State), policiesTaken s = r → inSafe r = false → 2 ≤ mode r → isActiveRole r =
    true →
    exec (.powerPolicyEvaluation l) s = .next (
      let u := forAll (rangeFrom 0 32) r fun s p => portPolicy s p ((l.map (·.toNat)).getD p 0)
      forAll (rangeFrom 0 32) (forAll u.pwr.wakes u wakeSpin) fun s p => if (spnOf s p).ovrWait && !switching s p then
        overrideSwitch s p else s))

/-- O50. Credits age once a second; a boundary stops the tasks of its actuator and gives the next turn; an urgent slot ends; a
fetch pause is counted; each kind of task does a part of its work and counts it, or reports a failure. Each clause
concludes that the command answers a next state, under hypotheses on the state and the operands alone. Completes:
taskCreditTick, actuatorCommandBoundary, urgentSlotEnd, fetchPause, taskUnitScrub, taskUnitMove, taskUnitDestage,
taskUnitWear, taskUnitPatrol, taskUnitFlash, taskUnitTelem. (From R237, R238, R344, R345, R347, R348, R349, R436.) -/
def Obligations.TaskTurns : Prop :=
  (∀ (s : State), uptime s / 1000 ≠ s.bgw.agedTo →
    exec .taskCreditTick s = .next (setBgw (forAll (rangeFrom 0 taskCount) (patrolPeriod s) ageTask) fun b =>
    { b with agedTo := if uptime s / 1000 < b.agedTo then 0 else b.agedTo + 1 })) ∧
  (∀ (s : State), uptime s / 1000 = s.bgw.agedTo → exec .taskCreditTick s = .next s) ∧
  (∀ (a : Fin 64) (b : Bool) (c : BitVec 32) (d : BitVec 8) (r : State × Bool) (s : State), idleRevs (foreground (urgentWake
    (actStop s a) a) a c.toNat) a d.toNat = r → r.2 = false →
    exec (.actuatorCommandBoundary a b c d) s = .next (boundaryItem r.1 a b)) ∧
  (∀ (a : Fin 64) (b : Bool) (c : BitVec 32) (d : BitVec 8) (r : State × Bool) (s : State), idleRevs (foreground (urgentWake
    (actStop s a) a) a c.toNat) a d.toNat = r → r.2 = true →
    exec (.actuatorCommandBoundary a b c d) s = .next (r.1)) ∧
  (∀ (a : Fin 64) (d : BitVec 32) (s : State), s.bgw.runs.any (fun x => x.2 == a.val && taskState s x.1 == 2) = true →
    exec (.urgentSlotEnd a d) s = .next (setBgw (actStop s a) fun b =>
    { b with owed := tabPut b.owed a ((fget s BGW_CTRL BGW_CTRL_N_URG - 1) * d.toNat) })) ∧
  (∀ (x : HPort) (s : State), portExists s (portId x) = true → nonMediaUrgent s = true → fbit s BGW_CTRL BGW_CTRL_SHARE_EN =
    true →
    exec (.fetchPause x) s = .next (heatPause (emit (count s (BGW_CNT 3) 1 .bgw BGW_EVT_SAT) (.fetchPause (portId x) (max 1
    (fget s BGW_CTRL BGW_CTRL_FP_US)))) (portId x))) ∧
  (∀ (x : HPort) (s : State), portExists s (portId x) = true → nonMediaUrgent s = false →
    exec (.fetchPause x) s = .next (heatPause s (portId x))) ∧
  (∀ (a : Fin 64) (b : Bool) (s : State), taskRuns s a = true → exec (.taskUnitScrub a b) s = .next (unitEnd s a b)) ∧
  (∀ (p : Fin 32) (s : State), taskRuns s (128 + p.val) = true → fbit s ZMP_CTRL ZMP_CTRL_MOVER_EN = true → inSafe s = false →
    exec (.taskUnitMove p true) s = .next (unitEnd (forAll ((firstMib (fun x : Staged => x.ext.count) (stagedFor (releaseMoved
    s []) p) 0).filter fun x => homeWritable (releaseMoved s []) x.ext) (releaseMoved s []) moveHome) (128 + p.val) true)) ∧
  (∀ (p : Fin 32) (s : State), taskRuns s (160 + p.val) = true →
    exec (.taskUnitDestage p true) s = .next (unitEnd (forAll (firstMib (fun e : Ext => e.count) (dirtyOn s p) 0) s destage)
    (160 + p.val) true)) ∧
  (∀ (p : Fin 32) (s : State), taskRuns s (160 + p.val) = true →
    exec (.taskUnitDestage p false) s = .next (unitEnd s (160 + p.val) false)) ∧
  (∀ (p : Fin 32) (q : Nat) (s : State), taskRuns s (192 + p.val) = true → (((surfHeads s p).map (·.1)).getD (fget s
    (BGW_TASK_PROG (192 + p.val)) BGW_TASK_PROG_UNITS % max 1 ((surfHeads s p).map (·.1)).length) 0) = q →
    exec (.taskUnitWear p) s = .next (unitEnd (headWear (wearUpdate s p q) (2 * p + q / 12)) (192 + p.val) true)) ∧
  (∀ (l : List MemErr) (s : State), coreTask s 224 = true →
    exec (.taskUnitPatrol l) s = .next (unitEnd (foundErrors s l) 224 true)) ∧
  (∀ (a b : Bool) (s : State), coreTask s 225 = true →
    exec (.taskUnitFlash a b) s = .next (unitEnd (flashCheck s (fget s (BGW_TASK_PROG 225) BGW_TASK_PROG_UNITS % 512) a b) 225
    true)) ∧
  (∀ (p : Nat) (s : State), coreTask s 226 = true → s.trs.bound.getD (fget s (BGW_TASK_PROG 226) BGW_TASK_PROG_UNITS % max 1
    s.trs.bound.length) 0 = p → sbUsable s p = true → claimed s (baseTTH p) = false → tsbHas s p 10 = false →
    exec .taskUnitTelem s = .next (unitEnd (tsbRead s p 10 0x0220 4) 226 true))

/-- O51. Temperature samples set the band and may ask for a calibration; a sensor that times out is faulted; the die sensors
are judged and the trip resets the device; a mechanism in band 5 is unloaded; a calibration is done item by item and asked
for by its register. Each clause concludes that the command answers a next state, under hypotheses on the state and the
operands alone. Completes: tempSample, sensorTimeout, dieTempSample, thermalTrip, mechB5Unload, calibrationItemDone,
calqWrite, taskUnitCal. (From R344, R351, R353, R355, R357, R358.) -/
def Obligations.HeatAndCalibration : Prop :=
  (∀ (l : List (BitVec 16)) (s : State),
    exec (.tempSample l) s = .next (forAll (rangeFrom 0 32) (fetchRise (fetchLevel s) (deviceBand (forAll ((rangeFrom 0
    12).zip l) s fun s x => extSample s x.1 x.2))) fun s p => calTrigger (mechTemp s p) p)) ∧
  (∀ (k : Fin 93) (s : State), timedOut s k = true → exec (.sensorTimeout k) s = .next (sourceLost s k)) ∧
  (∀ (k : Fin 93) (s : State), timedOut s k = false → exec (.sensorTimeout k) s = .next s) ∧
  (∀ (l : List (BitVec 16)) (s : State),
    exec (.dieTempSample l) s = .next (forAll (rangeFrom 0 32) (fetchRise (fetchLevel s) (dieJudge (dieRead s l))) syncLevel)) ∧
  (∀ (s : State), 2 ≤ s.bgw.dieTrip → exec .thermalTrip s = .next (deviceReset s 6)) ∧
  (∀ (s : State), s.bgw.dieTrip < 2 → exec .thermalTrip s = .next s) ∧
  (∀ (p : Fin 32) (x : Nat × Nat) (s : State), s.bgw.b5Since.find? (fun x => x.1 == p.val) = some x → s.bgw.hot.contains p.val
    = false → mediaRuns s p = false → x.2 + 60000 ≤ uptime s ∨ 750 ≤ sgn 16 (fget s (THM_MECH_W0 p) THM_MECH_W0_TEMP) →
    exec (.mechB5Unload p) s = .next (hotUnload s p)) ∧
  (∀ (a : Fin 64) (b : Bool) (u v : BitVec 16) (l : List (BitVec 16)) (j : CalJob) (s : State), s.bgw.jobs.find? (fun j =>
    j.act == a.val) = some j → j.item ≠ 0 →
    exec (.calibrationItemDone a b u v l) s = .next (calItemDone s a j b u v l)) ∧
  (∀ (m : Master) (k : Bool) (v : Word) (s : State), qcsReach s m (BGW_CALQ_LO + 4 * b2n k) = true →
    exec (.calqWrite m k v) s = .next (forAll (rangeFrom 0 32) s fun s i => if bitOf v i then calPend s (32 * b2n k + i) none
    else s)) ∧
  (∀ (a : Fin 64) (b : BitVec 2) (g d e f : BitVec 16) (l : List (BitVec 16)) (m : BitVec 16) (j : Nat) (s : State), taskRuns
    s (64 + a.val) = true → (headsOf s (a / 2) (a % 2)).getD (fget s (BGW_TASK_PROG (64 + a.val)) BGW_TASK_PROG_UNITS % max 1
    (headsOf s (a / 2) (a % 2)).length) 0 = j →
    exec (.taskUnitCal a b g d e f l m) s = .next (
      let u := unitItem (unitItem s a j 1 (b.getLsbD 0) g.toNat d.toNat) a j 2 (b.getLsbD 1) e.toNat f.toNat
      let x := calDrive u (a / 2) (12 * (a.val % 2) + j) (mechBand u (a / 2)) l
      let z := calStart u (a / 2) (12 * (a.val % 2) + j) (mechBand u (a / 2))
      let r := count (if !hasAssist u a j then u else calEnd (if x.isSome then z else itemFail z a j 3) (a / 2) x m.toNat)
        (THM_CNT 3) 1 .thm THM_EVT_SAT
      unitEnd (if b.toNat % 4 != 3 || (hasAssist s a j && x.isNone) then count r (THM_CNT 4) 1 .thm THM_EVT_SAT else r) (64 +
        a.val) true))

/-- O52. A running formatter sequencer that reads an LDI, LDH or ALU word gives register d the value of the function and the
flags of it, and goes on to the next word. The sense of C after a subtraction is the model's free constant (log entry 27).
Each clause concludes that the command answers a next state, under hypotheses on the state and the operands alone.
Completes: ldi, ldh, aluAdd, aluSub, aluAnd, aluOr, aluXor, aluMov, aluInc, aluDec, aluShl, aluShr, aluCmp, aluTst,
aluAddc, aluSubc, aluNot, aluClr. (From R367.) -/
def Obligations.ArithmeticWords : Prop :=
  (∀ (f : Fin 64) (w : Nat) (s : State), fRuns s f = true → fWord s (fPc s f) = some w → mOp w = 1 →
    exec (.ldi (.f f)) s = .next (fNext (setFseq s f fun x => { x with g := x.g.modify (mD w) fun _ => mImm w }) f (fPc s f +
    1))) ∧
  (∀ (f : Fin 64) (w : Nat) (s : State), fRuns s f = true → fWord s (fPc s f) = some w → mOp w = 2 →
    exec (.ldh (.f f)) s = .next (fNext (setFseq s f fun x =>
    { x with g := x.g.modify (mD w) fun _ => (x.g.getD (mD w) 0 % 2 ^ 12 + mImm w * 2 ^ 12 + x.g.getD (mD w) 0 / 2 ^ 24 * 2 ^ 24) % 2 ^ 16 })
    f (fPc s f + 1))) ∧
  (∀ (f : Fin 64) (w : Nat) (s : State), fRuns s f = true → fWord s (fPc s f) = some w → mOp w = 3 → w % 16 = 0 →
    exec (.aluAdd (.f f)) s = .next (fNext (setFseq s f fun x =>
    { x with g := x.g.modify (mD w) fun _ => ((x.g.getD (mS w) 0 + x.g.getD (mT w) 0) % 2 ^ 16), zf := decide (((x.g.getD (mS w) 0 + x.g.getD (mT w) 0) % 2 ^ 16) = 0), cf := decide (2 ^ 16 ≤ x.g.getD (mS w) 0 + x.g.getD (mT w) 0), nf := decide (2 ^ 15 ≤ ((x.g.getD (mS w) 0 + x.g.getD (mT w) 0) % 2 ^ 16)) })
    f (fPc s f + 1))) ∧
  (∀ (f : Fin 64) (w : Nat) (s : State), fRuns s f = true → fWord s (fPc s f) = some w → mOp w = 3 → w % 16 = 1 →
    exec (.aluSub (.f f)) s = .next (fNext (setFseq s f fun x =>
    { x with g := x.g.modify (mD w) fun _ => ((x.g.getD (mS w) 0 + 2 ^ 16 - (x.g.getD (mT w) 0) % 2 ^ 16) % 2 ^ 16), zf := decide (((x.g.getD (mS w) 0 + 2 ^ 16 - (x.g.getD (mT w) 0) % 2 ^ 16) % 2 ^ 16) = 0), cf := if Config.borrowC then decide (x.g.getD (mS w) 0 < x.g.getD (mT w) 0) else decide (x.g.getD (mT w) 0 ≤ x.g.getD (mS w) 0), nf := decide (2 ^ 15 ≤ ((x.g.getD (mS w) 0 + 2 ^ 16 - (x.g.getD (mT w) 0) % 2 ^ 16) % 2 ^ 16)) })
    f (fPc s f + 1))) ∧
  (∀ (f : Fin 64) (w : Nat) (s : State), fRuns s f = true → fWord s (fPc s f) = some w → mOp w = 3 → w % 16 = 2 →
    exec (.aluAnd (.f f)) s = .next (fNext (setFseq s f fun x =>
    { x with g := x.g.modify (mD w) fun _ => (x.g.getD (mS w) 0 &&& x.g.getD (mT w) 0), zf := decide ((x.g.getD (mS w) 0 &&& x.g.getD (mT w) 0) = 0), cf := x.cf, nf := decide (2 ^ 15 ≤ (x.g.getD (mS w) 0 &&& x.g.getD (mT w) 0)) })
    f (fPc s f + 1))) ∧
  (∀ (f : Fin 64) (w : Nat) (s : State), fRuns s f = true → fWord s (fPc s f) = some w → mOp w = 3 → w % 16 = 3 →
    exec (.aluOr (.f f)) s = .next (fNext (setFseq s f fun x =>
    { x with g := x.g.modify (mD w) fun _ => (x.g.getD (mS w) 0 ||| x.g.getD (mT w) 0), zf := decide ((x.g.getD (mS w) 0 ||| x.g.getD (mT w) 0) = 0), cf := x.cf, nf := decide (2 ^ 15 ≤ (x.g.getD (mS w) 0 ||| x.g.getD (mT w) 0)) })
    f (fPc s f + 1))) ∧
  (∀ (f : Fin 64) (w : Nat) (s : State), fRuns s f = true → fWord s (fPc s f) = some w → mOp w = 3 → w % 16 = 4 →
    exec (.aluXor (.f f)) s = .next (fNext (setFseq s f fun x =>
    { x with g := x.g.modify (mD w) fun _ => (x.g.getD (mS w) 0 ^^^ x.g.getD (mT w) 0), zf := decide ((x.g.getD (mS w) 0 ^^^ x.g.getD (mT w) 0) = 0), cf := x.cf, nf := decide (2 ^ 15 ≤ (x.g.getD (mS w) 0 ^^^ x.g.getD (mT w) 0)) })
    f (fPc s f + 1))) ∧
  (∀ (f : Fin 64) (w : Nat) (s : State), fRuns s f = true → fWord s (fPc s f) = some w → mOp w = 3 → w % 16 = 5 →
    exec (.aluMov (.f f)) s = .next (fNext (setFseq s f fun x =>
    { x with g := x.g.modify (mD w) fun _ => (x.g.getD (mS w) 0), zf := decide ((x.g.getD (mS w) 0) = 0), cf := x.cf, nf := decide (2 ^ 15 ≤ (x.g.getD (mS w) 0)) })
    f (fPc s f + 1))) ∧
  (∀ (f : Fin 64) (w : Nat) (s : State), fRuns s f = true → fWord s (fPc s f) = some w → mOp w = 3 → w % 16 = 6 →
    exec (.aluInc (.f f)) s = .next (fNext (setFseq s f fun x =>
    { x with g := x.g.modify (mD w) fun _ => ((x.g.getD (mS w) 0 + 1) % 2 ^ 16), zf := decide (((x.g.getD (mS w) 0 + 1) % 2 ^ 16) = 0), cf := decide (2 ^ 16 ≤ x.g.getD (mS w) 0 + 1), nf := decide (2 ^ 15 ≤ ((x.g.getD (mS w) 0 + 1) % 2 ^ 16)) })
    f (fPc s f + 1))) ∧
  (∀ (f : Fin 64) (w : Nat) (s : State), fRuns s f = true → fWord s (fPc s f) = some w → mOp w = 3 → w % 16 = 7 →
    exec (.aluDec (.f f)) s = .next (fNext (setFseq s f fun x =>
    { x with g := x.g.modify (mD w) fun _ => ((x.g.getD (mS w) 0 + 2 ^ 16 - (1) % 2 ^ 16) % 2 ^ 16), zf := decide (((x.g.getD (mS w) 0 + 2 ^ 16 - (1) % 2 ^ 16) % 2 ^ 16) = 0), cf := if Config.borrowC then decide (x.g.getD (mS w) 0 < 1) else decide (1 ≤ x.g.getD (mS w) 0), nf := decide (2 ^ 15 ≤ ((x.g.getD (mS w) 0 + 2 ^ 16 - (1) % 2 ^ 16) % 2 ^ 16)) })
    f (fPc s f + 1))) ∧
  (∀ (f : Fin 64) (w : Nat) (s : State), fRuns s f = true → fWord s (fPc s f) = some w → mOp w = 3 → w % 16 = 8 →
    exec (.aluShl (.f f)) s = .next (drawn (fNext (setFseq s f fun x =>
    { x with g := x.g.modify (mD w) fun _ => (if x.g.getD (mT w) 0 < 16 then x.g.getD (mS w) 0 * 2 ^ x.g.getD (mT w) 0 % 2 ^ 16 else freeVal s % 2 ^ 16), zf := decide ((if x.g.getD (mT w) 0 < 16 then x.g.getD (mS w) 0 * 2 ^ x.g.getD (mT w) 0 % 2 ^ 16 else freeVal s % 2 ^ 16) = 0), cf := x.cf, nf := decide (2 ^ 15 ≤ (if x.g.getD (mT w) 0 < 16 then x.g.getD (mS w) 0 * 2 ^ x.g.getD (mT w) 0 % 2 ^ 16 else freeVal s % 2 ^ 16)) })
    f (fPc s f + 1)))) ∧
  (∀ (f : Fin 64) (w : Nat) (s : State), fRuns s f = true → fWord s (fPc s f) = some w → mOp w = 3 → w % 16 = 9 →
    exec (.aluShr (.f f)) s = .next (drawn (fNext (setFseq s f fun x =>
    { x with g := x.g.modify (mD w) fun _ => (if x.g.getD (mT w) 0 < 16 then x.g.getD (mS w) 0 / 2 ^ x.g.getD (mT w) 0 else freeVal s % 2 ^ 16), zf := decide ((if x.g.getD (mT w) 0 < 16 then x.g.getD (mS w) 0 / 2 ^ x.g.getD (mT w) 0 else freeVal s % 2 ^ 16) = 0), cf := x.cf, nf := decide (2 ^ 15 ≤ (if x.g.getD (mT w) 0 < 16 then x.g.getD (mS w) 0 / 2 ^ x.g.getD (mT w) 0 else freeVal s % 2 ^ 16)) })
    f (fPc s f + 1)))) ∧
  (∀ (f : Fin 64) (w : Nat) (s : State), fRuns s f = true → fWord s (fPc s f) = some w → mOp w = 3 → w % 16 = 10 →
    exec (.aluCmp (.f f)) s = .next (fNext (setFseq s f fun x =>
    { x with g := x.g, zf := decide (((x.g.getD (mS w) 0 + 2 ^ 16 - (x.g.getD (mT w) 0) % 2 ^ 16) % 2 ^ 16) = 0), cf := if Config.borrowC then decide (x.g.getD (mS w) 0 < x.g.getD (mT w) 0) else decide (x.g.getD (mT w) 0 ≤ x.g.getD (mS w) 0), nf := decide (2 ^ 15 ≤ ((x.g.getD (mS w) 0 + 2 ^ 16 - (x.g.getD (mT w) 0) % 2 ^ 16) % 2 ^ 16)) })
    f (fPc s f + 1))) ∧
  (∀ (f : Fin 64) (w : Nat) (s : State), fRuns s f = true → fWord s (fPc s f) = some w → mOp w = 3 → w % 16 = 11 →
    exec (.aluTst (.f f)) s = .next (fNext (setFseq s f fun x =>
    { x with g := x.g, zf := decide ((x.g.getD (mS w) 0 &&& x.g.getD (mT w) 0) = 0), cf := x.cf, nf := decide (2 ^ 15 ≤ (x.g.getD (mS w) 0 &&& x.g.getD (mT w) 0)) })
    f (fPc s f + 1))) ∧
  (∀ (f : Fin 64) (w : Nat) (s : State), fRuns s f = true → fWord s (fPc s f) = some w → mOp w = 3 → w % 16 = 12 →
    exec (.aluAddc (.f f)) s = .next (fNext (setFseq s f fun x =>
    { x with g := x.g.modify (mD w) fun _ => ((x.g.getD (mS w) 0 + x.g.getD (mT w) 0 + b2n x.cf) % 2 ^ 16), zf := decide (((x.g.getD (mS w) 0 + x.g.getD (mT w) 0 + b2n x.cf) % 2 ^ 16) = 0), cf := decide (2 ^ 16 ≤ x.g.getD (mS w) 0 + x.g.getD (mT w) 0 + b2n x.cf), nf := decide (2 ^ 15 ≤ ((x.g.getD (mS w) 0 + x.g.getD (mT w) 0 + b2n x.cf) % 2 ^ 16)) })
    f (fPc s f + 1))) ∧
  (∀ (f : Fin 64) (w : Nat) (s : State), fRuns s f = true → fWord s (fPc s f) = some w → mOp w = 3 → w % 16 = 13 →
    exec (.aluSubc (.f f)) s = .next (fNext (setFseq s f fun x =>
    { x with g := x.g.modify (mD w) fun _ => ((x.g.getD (mS w) 0 + 2 ^ 16 - (x.g.getD (mT w) 0 + b2n (x.cf == Config.borrowC)) % 2 ^ 16) % 2 ^ 16), zf := decide (((x.g.getD (mS w) 0 + 2 ^ 16 - (x.g.getD (mT w) 0 + b2n (x.cf == Config.borrowC)) % 2 ^ 16) % 2 ^ 16) = 0), cf := if Config.borrowC then decide (x.g.getD (mS w) 0 < (x.g.getD (mT w) 0 + b2n (x.cf == Config.borrowC))) else decide ((x.g.getD (mT w) 0 + b2n (x.cf == Config.borrowC)) ≤ x.g.getD (mS w) 0), nf := decide (2 ^ 15 ≤ ((x.g.getD (mS w) 0 + 2 ^ 16 - (x.g.getD (mT w) 0 + b2n (x.cf == Config.borrowC)) % 2 ^ 16) % 2 ^ 16)) })
    f (fPc s f + 1))) ∧
  (∀ (f : Fin 64) (w : Nat) (s : State), fRuns s f = true → fWord s (fPc s f) = some w → mOp w = 3 → w % 16 = 14 →
    exec (.aluNot (.f f)) s = .next (fNext (setFseq s f fun x =>
    { x with g := x.g.modify (mD w) fun _ => (2 ^ 16 - 1 - x.g.getD (mS w) 0), zf := decide ((2 ^ 16 - 1 - x.g.getD (mS w) 0) = 0), cf := x.cf, nf := decide (2 ^ 15 ≤ (2 ^ 16 - 1 - x.g.getD (mS w) 0)) })
    f (fPc s f + 1))) ∧
  (∀ (f : Fin 64) (w : Nat) (s : State), fRuns s f = true → fWord s (fPc s f) = some w → mOp w = 3 → w % 16 = 15 →
    exec (.aluClr (.f f)) s = .next (fNext (setFseq s f fun x =>
    { x with g := x.g.modify (mD w) fun _ => (0 : Nat), zf := decide ((0 : Nat) = 0), cf := x.cf, nf := decide (2 ^ 15 ≤ (0 : Nat)) })
    f (fPc s f + 1)))

/-- O53. A running sequencer that reads such a word does what the word says: it goes on, returns, takes its next instruction
or command, halts, ends, branches, jumps, calls, waits, or moves a word of its store; a word that is illegal or of bad
parity faults it. Each clause concludes that the command answers a next state, under hypotheses on the state and the
operands alone. Completes: nop, ret, disp, haltpt, done, brc, brn, jmp, call, dly, wait, waitTimeout, memLoad, memStore,
send, illegalMicroword. (From R366, R367, R368, R369, R370, R375, R376.) -/
def Obligations.ControlWords : Prop :=
  (∀ (f : Fin 64) (w : Nat) (s : State), fRuns s f = true → fWord s (fPc s f) = some w → mOp w = 0 → mD w = 0 →
    exec (.nop (.f f)) s = .next (fNext (setFseq s f (onF fun r => r)) f (fPc s f + 1))) ∧
  (∀ (f : Fin 64) (w : Nat) (p : Nat) (l : List Nat) (s : State), fRuns s f = true → fWord s (fPc s f) = some w → mOp w = 0 →
    mD w = 1 → (fseqOf s f).stack = p :: l →
    exec (.ret (.f f)) s = .next (fNext (setFseq s f fun x => { x with stack := l }) f p)) ∧
  (∀ (f : Fin 64) (w : Nat) (s : State), fRuns s f = true → fWord s (fPc s f) = some w → mOp w = 0 → mD w = 1 → (fseqOf s
    f).stack = [] →
    exec (.ret (.f f)) s = .next (fFault s f 4)) ∧
  (∀ (f : Fin 64) (w : Nat) (s : State), fRuns s f = true → fWord s (fPc s f) = some w → mOp w = 0 → mD w = 2 → (fseqOf s
    f).queue = [] →
    exec (.disp (.f f)) s = .next (fNext s f (fPc s f + 1))) ∧
  (∀ (f : Fin 64) (w : Nat) (i : FInstr) (j : FInstr) (l : List FInstr) (s : State), fRuns s f = true → fWord s (fPc s f) =
    some w → mOp w = 0 → mD w = 2 → (fseqOf s f).queue = i :: l →
    { i with alone := if i.alone.isEmpty then aloneLanes s f i else i.alone } = j → (courseHeld s f && needsSeek s f j) = true
    →
    exec (.disp (.f f)) s = .next s) ∧
  (∀ (f : Fin 64) (w : Nat) (i : FInstr) (j : FInstr) (l : List FInstr) (s : State), fRuns s f = true → fWord s (fPc s f) =
    some w → mOp w = 0 → mD w = 2 → (fseqOf s f).queue = i :: l →
    { i with alone := if i.alone.isEmpty then aloneLanes s f i else i.alone } = j → (courseHeld s f && needsSeek s f j) =
    false →
    exec (.disp (.f f)) s = .next (
      let u := setFseq (if needsSeek s f j then seekTo s f j else s) f fun x =>
        { x with g := x.g.take 12 ++ [i.lo % 2 ^ 16, i.lo / 2 ^ 16 % 2 ^ 16, i.hi % 2 ^ 16, i.hi / 2 ^ 16 % 2 ^ 16], queue := l, cur := some j, lastDone := 0, wcur := [] }
      fNext (count (fset (fset u (MCS_FSEQ_W0 f) MCS_FSEQ_W0_STATE 0) (MCS_FSEQ_W0 f) MCS_FSEQ_W0_OP (i.lo / 256 % 256))
        (MCS_FSEQ_W2 f) 1 .mcs MCS_EVT_SAT) f (i.lo / 256 % 256))) ∧
  (∀ (f : Fin 64) (w : Nat) (s : State), fRuns s f = true → fWord s (fPc s f) = some w → mOp w = 0 → mD w = 3 → rbit s
    (MCS_F_HALT_LO + 4 * (f.val / 32)) (f.val % 32) = true →
    exec (.haltpt (.f f)) s = .next (fset s (MCS_FSEQ_W0 f) MCS_FSEQ_W0_STATE 2)) ∧
  (∀ (f : Fin 64) (w : Nat) (s : State), fRuns s f = true → fWord s (fPc s f) = some w → mOp w = 0 → mD w = 3 → rbit s
    (MCS_F_HALT_LO + 4 * (f.val / 32)) (f.val % 32) = false →
    exec (.haltpt (.f f)) s = .next (fNext s f (fPc s f + 1))) ∧
  (∀ (f : Fin 64) (w : Nat) (i : FInstr) (s : State), fRuns s f = true → fWord s (fPc s f) = some w → mOp w = 0 → mD w = 4 →
    (fseqOf s f).cur = some i → i.alone.length ≤ 1 →
    exec (.done (.f f)) s = .next (fNext (fset (fset (closeWindows (fSync (setFseq (pushResult s i (f, (fseqOf s f).g.getD 0
    0, true)) f fun y => { y with cur := none }) f) f) (MCS_FSEQ_W0 f) MCS_FSEQ_W0_STATE 1) (MCS_FSEQ_W0 f) MCS_FSEQ_W0_OP 0)
    f 0x100)) ∧
  (∀ (f : Fin 64) (w : Nat) (i : FInstr) (s : State), fRuns s f = true → fWord s (fPc s f) = some w → mOp w = 0 → mD w = 4 →
    (fseqOf s f).cur = some i → 2 ≤ i.alone.length →
    exec (.done (.f f)) s = .next (
      let u := setFseq s f fun y => { y with queue := { i with alone := i.alone.drop 1 } :: y.queue }
      fNext (fset (fset (closeWindows (fSync (setFseq u f fun y => { y with cur := none }) f) f) (MCS_FSEQ_W0 f)
        MCS_FSEQ_W0_STATE 1) (MCS_FSEQ_W0 f) MCS_FSEQ_W0_OP 0) f 0x100)) ∧
  (∀ (f : Fin 64) (w : Nat) (s : State), fRuns s f = true → fWord s (fPc s f) = some w → mOp w = 4 → fSticky (mD w) = false →
    exec (.brc (.f f)) s = .next (fNext s f (if fCond s f (mD w) then brTarget (fPc s f) w else fPc s f + 1))) ∧
  (∀ (f : Fin 64) (w : Nat) (s : State), fRuns s f = true → fWord s (fPc s f) = some w → mOp w = 5 → fSticky (mD w) = false →
    exec (.brn (.f f)) s = .next (fNext s f (if fCond s f (mD w) then fPc s f + 1 else brTarget (fPc s f) w))) ∧
  (∀ (f : Fin 64) (w : Nat) (s : State), fRuns s f = true → fWord s (fPc s f) = some w → mOp w = 4 → fSticky (mD w) = true →
    fCond s f (mD w) = true →
    exec (.brc (.f f)) s = .next (fNext (setFseq s f fun x => { x with latch := x.latch.filter (· != mD w) }) f (brTarget (fPc
    s f) w))) ∧
  (∀ (f : Fin 64) (w : Nat) (s : State), fRuns s f = true → fWord s (fPc s f) = some w → mOp w = 6 →
    exec (.jmp (.f f)) s = .next (fNext s f (mAddr w))) ∧
  (∀ (f : Fin 64) (w : Nat) (s : State), fRuns s f = true → fWord s (fPc s f) = some w → mOp w = 7 → (fseqOf s f).stack.length
    < 4 →
    exec (.call (.f f)) s = .next (fNext (setFseq s f fun x => { x with stack := (fPc s f + 1) :: x.stack }) f (mAddr w))) ∧
  (∀ (f : Fin 64) (w : Nat) (s : State), fRuns s f = true → fWord s (fPc s f) = some w → mOp w = 7 → 4 ≤ (fseqOf s
    f).stack.length →
    exec (.call (.f f)) s = .next (fFault s f 4)) ∧
  (∀ (f : Fin 64) (w : Nat) (s : State), fRuns s f = true → fWord s (fPc s f) = some w → mOp w = 0xB →
    exec (.dly (.f f)) s = .next (fNext (setFseq s f (onF fun r => r)) f (fPc s f + 1))) ∧
  (∀ (z : Fin 8) (t w : Nat) (s : State), zPick s z = some t → zWord s (zthread s z t).pc = some w → mOp w = 0xC →
    exec (.wait z) s = .next (zNext (setThread (zIssue s z t) z t fun x => { x with wait := some (.cond (mD w) (mImm w)) }) z
    t ((zthread (zIssue s z t) z t).pc + 1))) ∧
  (∀ (z : Fin 8) (t : Fin 64) (c n : Nat) (s : State), (zthread s z t).wait = some (.cond c n) → n ≠ 0 → threadBusy (zthread s
    z t) = true → zCond s z t c = false →
    exec (.waitTimeout z t) s = .next (zSync (setThread s z t fun x => { x with wait := none, cf := true }) z)) ∧
  (∀ (f : Fin 64) (w : Nat) (s : State), fRuns s f = true → fWord s (fPc s f) = some w → mOp w = 0xD → w / 2 ^ 15 % 2 = 1 →
    exec (.memLoad (.f f)) s = .next (drawn (fNext (setFseq s f fun x => onF (gSet (w / 2 ^ 11 % 16) (tabGet (freeVal s % 2 ^
    16) x.scratch (w % 2 ^ 11))) x) f (fPc s f + 1)))) ∧
  (∀ (f : Fin 64) (w : Nat) (s : State), fRuns s f = true → fWord s (fPc s f) = some w → mOp w = 0xD → w / 2 ^ 15 % 2 = 0 →
    exec (.memStore (.f f)) s = .next (fNext (setFseq s f fun x =>
    { x with scratch := tabPut x.scratch (w % 2 ^ 11) (x.g.getD (w / 2 ^ 11 % 16) 0) }) f (fPc s f + 1))) ∧
  (∀ (z : Fin 8) (t w : Nat) (a : Nat) (l : List SecWork) (s : State), zPick s z = some t → zWord s (zthread s z t).pc = some
    w → mOp w = 0xE → w / 2 ^ 6 % 64 = a → qRoom (zIssue s z t) a = true →
    exec (.send z l) s = .next (drawn (zNext (fSync (setFseq (zIssue s z t) a fun y =>
    { y with queue := y.queue ++ [⟨(zthread (zIssue s z t) z t).g.getD (mD w) 0, (zthread (zIssue s z t) z t).g.getD (mD w + 1) (freeVal (zIssue s z t) % 2 ^ 32), z, t, l, []⟩] })
    a) z t ((zthread (zIssue s z t) z t).pc + 1)))) ∧
  (∀ (z : Fin 8) (t w : Nat) (a : Nat) (l : List SecWork) (s : State), zPick s z = some t → zWord s (zthread s z t).pc = some
    w → mOp w = 0xE → w / 2 ^ 6 % 64 = a → qRoom (zIssue s z t) a = false →
    exec (.send z l) s = .next (drawn (zSync (setThread (zIssue s z t) z t fun x => { x with wait := some (.room a) }) z))) ∧
  (∀ (f : Fin 64) (w : Nat) (s : State), fRuns s f = true → fWord s (fPc s f) = some w → illegalWord true w = true → 0x100 ≤
    fPc s f →
    exec (.illegalMicroword (.f f) false) s = .next (fFault s f 1)) ∧
  (∀ (f : Fin 64) (w : Nat) (s : State), fRuns s f = true → fWord s (fPc s f) = some w →
    exec (.illegalMicroword (.f f) true) s = .next (fFault s f 5)) ∧
  (∀ (z : Fin 8) (t w : Nat) (s : State), zPick s z = some t → zWord s (zthread s z t).pc = some w → mOp w = 6 →
    exec (.jmp (.z z)) s = .next (zNext (zIssue s z t) z t (mAddr w))) ∧
  (∀ (z : Fin 8) (t w : Nat) (s : State), zPick s z = some t → zWord s (zthread s z t).pc = some w → mOp w = 0 → mD w = 4 →
    exec (.done (.z z)) s = .next (zSync (count (setZseq (zIssue s z t) z fun x => { x with threads := tabDel x.threads t })
    (MCS_ZSEQ_W2 z) 1 .mcs MCS_EVT_SAT) z))

/-- O54. An OUT word has the effect of the port that it names with the value written; an IN word reads the value of the port
into register d; a request of a zone flow's port stands; a port that is not listed is ignored or reads 0. Each clause
concludes that the command answers a next state, under hypotheses on the state and the operands alone. Completes:
portLanes, portWgate, portRdwin, portWflit, portPrecomp, portCnt0, portCnt1, portStatus, portRung, portAdmit, portXfer,
portMirror, portCommit, portJournal, portEncode, portTimer, outUnlistedPort, inSect, inTrack, inRes, inSync, inInh,
inWedge, inCmd, inOpc, inSlbaLo, inSlbaHi, inNlb, inUnlistedPort. (From R380.) -/
def Obligations.PortWords : Prop :=
  (∀ (f : Fin 64) (w v : Nat) (s : State), fRuns s f = true → fWord s (fPc s f) = some w → outPort (fseqOf s f).g w = some
    (0x00, v) →
    exec (.portLanes f) s = .next (fNext (setFseq s f fun x => { x with lanes := v % 16 }) f (fPc s f + 1))) ∧
  (∀ (f : Fin 64) (w v : Nat) (s : State), fRuns s f = true → fWord s (fPc s f) = some w → outPort (fseqOf s f).g w = some
    (0x01, v) →
    exec (.portWgate f) s = .next (fNext (setFseq s f fun x => { x with gatePend := some (v % 2 == 1, x.lanes) }) f (fPc s f +
    1))) ∧
  (∀ (f : Fin 64) (w v : Nat) (s : State), fRuns s f = true → fWord s (fPc s f) = some w → outPort (fseqOf s f).g w = some
    (0x02, v) →
    exec (.portRdwin f) s = .next (fNext (setFseq s f fun x => { x with winPend := some x.lanes }) f (fPc s f + 1))) ∧
  (∀ (f : Fin 64) (w v : Nat) (s : State), fRuns s f = true → fWord s (fPc s f) = some w → outPort (fseqOf s f).g w = some
    (0x03, v) → (fseqOf (flushFlits s f) f).flitPend ≠ [] →
    exec (.portWflit f) s = .next (fNext (flushFlits s f) f (fPc s f + 1))) ∧
  (∀ (f : Fin 64) (w v : Nat) (s : State), fRuns s f = true → fWord s (fPc s f) = some w → outPort (fseqOf s f).g w = some
    (0x03, v) → (fseqOf (flushFlits s f) f).flitPend = [] →
    exec (.portWflit f) s = .next (fNext (flushFlits (forAll (lanesOf (fseqOf (flushFlits s f) f).lanes) (flushFlits s f) fun
    s l => wantFlit s f (v % 2 ^ 16) l) f) f (fPc s f + 1))) ∧
  (∀ (f : Fin 64) (w v : Nat) (s : State), fRuns s f = true → fWord s (fPc s f) = some w → outPort (fseqOf s f).g w = some
    (0x04, v) →
    exec (.portPrecomp f) s = .next (fNext (forAll (lanesOf (fseqOf s f).lanes) s fun s l => sendCmd s (f / 2) [⟨6, 4 * (f.val
    % 2) + l, precomp s f l⟩]) f (fPc s f + 1))) ∧
  (∀ (f : Fin 64) (w v : Nat) (s : State), fRuns s f = true → fWord s (fPc s f) = some w → outPort (fseqOf s f).g w = some
    (0x05, v) →
    exec (.portCnt0 f) s = .next (fNext (setFseq s f fun x => { x with cnt0 := v }) f (fPc s f + 1))) ∧
  (∀ (f : Fin 64) (w v : Nat) (s : State), fRuns s f = true → fWord s (fPc s f) = some w → outPort (fseqOf s f).g w = some
    (0x06, v) →
    exec (.portCnt1 f) s = .next (fNext (setFseq s f fun x => { x with cnt1 := v }) f (fPc s f + 1))) ∧
  (∀ (f : Fin 64) (w v : Nat) (x : SecWork) (s : State), fRuns s f = true → fWord s (fPc s f) = some w → outPort (fseqOf s
    f).g w = some (0x07, v) → v / 256 % 16 < 4 → 0x20 ≤ v % 256 → v % 256 ≤ 0x23 → workAt s f (v / 256 % 16) true = some x →
    exec (.portStatus f) s = .next (fNext (writeStatus s f (v / 256 % 16) (v % 256) x) f (fPc s f + 1))) ∧
  (∀ (f : Fin 64) (w v : Nat) (e : Sector) (s : State), fRuns s f = true → fWord s (fPc s f) = some w → outPort (fseqOf s f).g
    w = some (0x08, v) → v / 256 % 16 < 4 → laneSector s (4 * f.val + v / 256 % 16) = some e → (e.ladder.isSome &&
    s.det.jobs.any fun j => j.sec == e.id) = false →
    exec (.portRung f) s = .next (fNext (settleDet (ladderGo ladderMost s e
    { (e.ladder.getD { ctrl := rd s (ACT_FMT_CTRL f), rungs := (rangeFrom 0 16).map (fun r => rd s (ACT_LAD f r)), rung := 0, offs := [], rereads := 0, replayTo := none, noSample := false, relaxed := false, failAs := 8 }) with rung := v % 16, offs := [], replayTo := none }))
    f (fPc s f + 1))) ∧
  (∀ (z : Fin 8) (t w v : Nat) (c : Cmd) (s : State), zPick s z = some t → zWord s (zthread s z t).pc = some w → outPort
    (zthread s z t).g w = some (0x48, v) → cmdOfThread (zIssue s z t) (zthread (zIssue s z t) z t) = some c → (standing
    (zIssue s z t) z t 0x48).isSome = false →
    exec (.portAdmit z) s = .next (zNext (setThread (zIssue s z t) z t fun x =>
    { x with reqs := (0x48, v) :: x.reqs.filter fun r => r.1 != 0x48 }) z t ((zthread (zIssue s z t) z t).pc + 1))) ∧
  (∀ (z : Fin 8) (t w v : Nat) (c : Cmd) (s : State), zPick s z = some t → zWord s (zthread s z t).pc = some w → outPort
    (zthread s z t).g w = some (0x49, v) → cmdOfThread (zIssue s z t) (zthread (zIssue s z t) z t) = some c → (standing
    (zIssue s z t) z t 0x49).isSome = false →
    exec (.portXfer z) s = .next (zNext (setThread (zIssue s z t) z t fun x =>
    { x with reqs := (0x49, v) :: x.reqs.filter fun r => r.1 != 0x49 }) z t ((zthread (zIssue s z t) z t).pc + 1))) ∧
  (∀ (z : Fin 8) (t w v : Nat) (c : Cmd) (s : State), zPick s z = some t → zWord s (zthread s z t).pc = some w → outPort
    (zthread s z t).g w = some (0x4A, v) → cmdOfThread (zIssue s z t) (zthread (zIssue s z t) z t) = some c → (standing
    (zIssue s z t) z t 0x4A).isSome = false →
    exec (.portMirror z) s = .next (zNext (if c.data.isEmpty || c.mirrored then setThread (zIssue s z t) z t fun x =>
    { x with reqs := (0x4A, v) :: x.reqs.filter fun r => r.1 != 0x4A } else mirror (setThread (zIssue s z t) z t fun x =>
    { x with reqs := (0x4A, v) :: x.reqs.filter fun r => r.1 != 0x4A }) 3 ([c.nsid, c.slba, c.len] ++ c.data)) z t ((zthread
    (zIssue s z t) z t).pc + 1))) ∧
  (∀ (z : Fin 8) (t w v : Nat) (c : Cmd) (s : State), zPick s z = some t → zWord s (zthread s z t).pc = some w → outPort
    (zthread s z t).g w = some (0x4B, v) → cmdOfThread (zIssue s z t) (zthread (zIssue s z t) z t) = some c → (standing
    (zIssue s z t) z t 0x4B).isSome = false → v % 2 ^ 16 = 0 →
    exec (.portCommit z) s = .next (zNext (setThread (zIssue s z t) z t fun x =>
    { x with reqs := (0x4B, v) :: x.reqs.filter fun r => r.1 != 0x4B }) z t ((zthread (zIssue s z t) z t).pc + 1))) ∧
  (∀ (z : Fin 8) (t w v : Nat) (c : Cmd) (s : State), zPick s z = some t → zWord s (zthread s z t).pc = some w → outPort
    (zthread s z t).g w = some (0x4B, v) → cmdOfThread (zIssue s z t) (zthread (zIssue s z t) z t) = some c → (standing
    (zIssue s z t) z t 0x4B).isSome = false → v % 2 ^ 16 ≠ 0 → c.fail = none →
    exec (.portCommit z) s = .next (zNext (failCmd (setThread (zIssue s z t) z t fun x =>
    { x with reqs := (0x4B, v) :: x.reqs.filter fun r => r.1 != 0x4B }) c (v / 256 % 256) (v % 256)) z t ((zthread (zIssue s z
    t) z t).pc + 1))) ∧
  (∀ (z : Fin 8) (t w v : Nat) (c : Cmd) (s : State), zPick s z = some t → zWord s (zthread s z t).pc = some w → outPort
    (zthread s z t).g w = some (0x4C, v) → cmdOfThread (zIssue s z t) (zthread (zIssue s z t) z t) = some c → (standing
    (zIssue s z t) z t 0x4C).isSome = false →
    exec (.portJournal z) s = .next (zNext (journalZone (setThread (zIssue s z t) z t fun x =>
    { x with reqs := (0x4C, v) :: x.reqs.filter fun r => r.1 != 0x4C }) c.nsid v) z t ((zthread (zIssue s z t) z t).pc + 1))) ∧
  (∀ (z : Fin 8) (t w v : Nat) (k : Fin 4) (c : Cmd) (u : Nat) (s : State), zPick s z = some t → zWord s (zthread s z t).pc =
    some w → outPort (zthread s z t).g w = some (0x4D, v) → cmdOfThread (zIssue s z t) (zthread (zIssue s z t) z t) = some c →
    engineFree (zIssue s z t) k = true → nsThatch (zIssue s z t) c.nsid = some u →
    exec (.portEncode z k) s = .next (zNext (count (encodeRow (zIssue s z t) c u v) (THT_CNT k 0) 1 (.tht k) THT_EVT_SAT) z t
    ((zthread (zIssue s z t) z t).pc + 1))) ∧
  (∀ (z : Fin 8) (t w v : Nat) (s : State), zPick s z = some t → zWord s (zthread s z t).pc = some w → outPort (zthread s z
    t).g w = some (0x4E, v) →
    exec (.portTimer z) s = .next (zNext (setThread (zIssue s z t) z t fun x =>
    { x with timerRun := true, timerExp := false, reqs := (0x4E, v) :: x.reqs.filter fun r => r.1 != 0x4E }) z t ((zthread
    (zIssue s z t) z t).pc + 1))) ∧
  (∀ (f : Fin 64) (w : Nat) (s : State), fRuns s f = true → fWord s (fPc s f) = some w → mOp w = 8 ∨ mOp w = 0xA → w / 256 %
    256 ∉ fOutPorts →
    exec (.outUnlistedPort (.f f)) s = .next (fNext (setFseq s f (onF fun r => r)) f (fPc s f + 1))) ∧
  (∀ (f : Fin 64) (w : Nat) (s : State), fRuns s f = true → fWord s (fPc s f) = some w → mOp w = 9 → w / 16 % 256 = 0x10 →
    exec (.inSect f) s = .next (fNext (setFseq (s) f (onF (gSet (mD w) (((fseqOf s f).sect) % 2 ^ 16)))) f (fPc s f + 1))) ∧
  (∀ (f : Fin 64) (w : Nat) (s : State), fRuns s f = true → fWord s (fPc s f) = some w → mOp w = 9 → w / 16 % 256 = 0x11 →
    exec (.inTrack f) s = .next (fNext (setFseq (s) f (onF (gSet (mD w) ((fget s (ACT_SL_POS f (fget s (ACT_SRV_STAT f)
    ACT_SRV_STAT_REF)) ACT_SL_POS_TRACK) % 2 ^ 16)))) f (fPc s f + 1))) ∧
  (∀ (f : Fin 64) (w : Nat) (r : Nat × Nat) (l : List (Nat × Nat)) (s : State), fRuns s f = true → fWord s (fPc s f) = some w
    → mOp w = 9 → w / 16 % 256 = 0x12 → (fseqOf s f).res = r :: l →
    exec (.inRes f) s = .next (drawn (fNext (setFseq (setFseq s f fun y =>
    { y with res := l, latch := if l = [] then (fseqOf s f).latch.filter (· != 14) else 14 :: (fseqOf s f).latch.filter (· != 14) })
    f (onF (gSet (mD w) ((r.1 + 256 * r.2) % 2 ^ 16)))) f (fPc s f + 1)))) ∧
  (∀ (f : Fin 64) (w : Nat) (s : State), fRuns s f = true → fWord s (fPc s f) = some w → mOp w = 9 → w / 16 % 256 = 0x13 →
    exec (.inSync f) s = .next (fNext (setFseq (s) f (onF (gSet (mD w) (((fseqOf s f).sync.1 % 8 + 256 * (fseqOf s f).sync.2)
    % 2 ^ 16)))) f (fPc s f + 1))) ∧
  (∀ (f : Fin 64) (w : Nat) (s : State), fRuns s f = true → fWord s (fPc s f) = some w → mOp w = 9 → w / 16 % 256 = 0x14 →
    exec (.inInh f) s = .next (fNext (setFseq (s) f (onF (gSet (mD w) ((fget s (ACT_WS_INH f) ACT_WS_INH_INH + 16 * fget s
    (ACT_WS_INH f) ACT_WS_INH_PEND) % 2 ^ 16)))) f (fPc s f + 1))) ∧
  (∀ (f : Fin 64) (w : Nat) (s : State), fRuns s f = true → fWord s (fPc s f) = some w → mOp w = 9 → w / 16 % 256 = 0x15 →
    exec (.inWedge f) s = .next (fNext (setFseq (s) f (onF (gSet (mD w) ((fget s (ACT_SRV_STAT f) ACT_SRV_STAT_WEDGE) % 2 ^
    16)))) f (fPc s f + 1))) ∧
  (∀ (z : Fin 8) (t w : Nat) (c : Cmd) (s : State), zPick s z = some t → zWord s (zthread s z t).pc = some w → mOp w = 9 → w /
    16 % 256 = 0x40 → cmdOfThread (zIssue s z t) (zthread (zIssue s z t) z t) = some c →
    exec (.inCmd z) s = .next (drawn (zNext (setThread (zIssue s z t) z t (onZ (gSet (mD w) ((c.order % 16384) % 2 ^ 32)))) z
    t ((zthread (zIssue s z t) z t).pc + 1)))) ∧
  (∀ (z : Fin 8) (t w : Nat) (c : Cmd) (s : State), zPick s z = some t → zWord s (zthread s z t).pc = some w → mOp w = 9 → w /
    16 % 256 = 0x41 → cmdOfThread (zIssue s z t) (zthread (zIssue s z t) z t) = some c →
    exec (.inOpc z) s = .next (drawn (zNext (setThread (zIssue s z t) z t (onZ (gSet (mD w) ((c.opc % 256 + c.nsid % 256 * 2 ^
    8 + fget s (HIF_PORT_STAT c.port) HIF_PORT_STAT_CNTLID % 256 * 2 ^ 16) % 2 ^ 32)))) z t ((zthread (zIssue s z t) z t).pc +
    1)))) ∧
  (∀ (z : Fin 8) (t w : Nat) (c : Cmd) (s : State), zPick s z = some t → zWord s (zthread s z t).pc = some w → mOp w = 9 → w /
    16 % 256 = 0x42 → cmdOfThread (zIssue s z t) (zthread (zIssue s z t) z t) = some c →
    exec (.inSlbaLo z) s = .next (drawn (zNext (setThread (zIssue s z t) z t (onZ (gSet (mD w) ((c.slba % 2 ^ 32) % 2 ^ 32))))
    z t ((zthread (zIssue s z t) z t).pc + 1)))) ∧
  (∀ (z : Fin 8) (t w : Nat) (c : Cmd) (s : State), zPick s z = some t → zWord s (zthread s z t).pc = some w → mOp w = 9 → w /
    16 % 256 = 0x43 → cmdOfThread (zIssue s z t) (zthread (zIssue s z t) z t) = some c →
    exec (.inSlbaHi z) s = .next (drawn (zNext (setThread (zIssue s z t) z t (onZ (gSet (mD w) ((c.slba / 2 ^ 32) % 2 ^ 32))))
    z t ((zthread (zIssue s z t) z t).pc + 1)))) ∧
  (∀ (z : Fin 8) (t w : Nat) (c : Cmd) (s : State), zPick s z = some t → zWord s (zthread s z t).pc = some w → mOp w = 9 → w /
    16 % 256 = 0x44 → cmdOfThread (zIssue s z t) (zthread (zIssue s z t) z t) = some c →
    exec (.inNlb z) s = .next (drawn (zNext (setThread (zIssue s z t) z t (onZ (gSet (mD w) ((c.len - 1) % 2 ^ 32)))) z t
    ((zthread (zIssue s z t) z t).pc + 1)))) ∧
  (∀ (f : Fin 64) (w : Nat) (s : State), fRuns s f = true → fWord s (fPc s f) = some w → mOp w = 9 → w / 16 % 256 ∉ fInPorts →
    exec (.inUnlistedPort (.f f)) s = .next (fNext (setFseq s f (onF (gSet (mD w) 0))) f (fPc s f + 1)))

/-- O55. A zone flow starts on a free thread; halts and the zone map are written by the holder of the microcode block, who
alone may patch, and only while the store's sequencers are halted; a write otherwise changes nothing; a halted or faulted
sequencer is restarted. Each clause concludes that the command answers a next state, under hypotheses on the state and the
operands alone. Completes: zoneFlowStart, fHaltWrite, zHaltWrite, zmapWrite, sequencerRestart, patchRamWrite,
matchRegisterWrite. (From R366, R375, R377.) -/
def Obligations.SequencerControl : Prop :=
  (∀ (x : HPort) (q i : BitVec 16) (c : Cmd) (t : Nat) (s : State), findCmd s (portId x) q.toNat i.toNat = some c →
    ((rangeFrom 0 8).any fun y => (busyThreads s y).any fun t => t.2.cmd == some c.order) = false → zState s c.zseq < 2 → mode
    s ≠ 0 → (rangeFrom 0 64).find? (fun t => !threadBusy (zthread s c.zseq t)) = some t →
    exec (.zoneFlowStart x q i) s = .next (zSync (setThread s c.zseq t fun _ => { cmd := some c.order, pc := zSubst s 0x100 })
    c.zseq)) ∧
  (∀ (m : Master) (k : Bool) (v : Word) (s : State), qcsReach s m (MCS_F_HALT_LO + 4 * b2n k) = true → holds s baseMCS m =
    true →
    exec (.fHaltWrite m k v) s = .next (forAll (rangeFrom (32 * b2n k) 32) (wr s (MCS_F_HALT_LO + 4 * b2n k) v) fun s f => if
    fState s f = 2 ∧ !rbit s (MCS_F_HALT_LO + 4 * (f / 32)) (f % 32) then fset s (MCS_FSEQ_W0 f) MCS_FSEQ_W0_STATE 1 else s)) ∧
  (∀ (m : Master) (v : BitVec 8) (s : State), qcsReach s m (MCS_ZCTRL) = true → holds s baseMCS m = true →
    exec (.zHaltWrite m v) s = .next (forAll (rangeFrom 0 8) (fset s MCS_ZCTRL MCS_ZCTRL_Z_HALT v.toNat) fun s z => zSync (if
    zHreq s z then s else setZseq s z fun x =>
    { x with threads := x.threads.map fun t => (t.1, { t.2 with atHalt := false }) }) z)) ∧
  (∀ (m : Master) (v : BitVec 24) (s : State), qcsReach s m (MCS_ZCTRL) = true → holds s baseMCS m = true →
    exec (.zmapWrite m v) s = .next ({ fset s MCS_ZCTRL MCS_ZCTRL_ZMAP v.toNat with mcs := { s.mcs with zmap := none } })) ∧
  (∀ (m : Master) (v : BitVec 8) (s : State), qcsReach s m (MCS_ZCTRL) = true → holds s baseMCS m = false →
    exec (.zHaltWrite m v) s = .next s) ∧
  (∀ (m : Master) (f : Fin 64) (s : State), qcsReach s m (MCS_FSEQ_W3 f) = true → holds s baseMCS m = true → fState s f = 2 ∨
    fState s f = 3 → (isRidge m && !claimed s baseMCS) = false →
    exec (.sequencerRestart m (.f f)) s = .next (fRestart s f)) ∧
  (∀ (m : Master) (f : Fin 64) (s : State), qcsReach s m (MCS_FSEQ_W3 f) = true → fState s f ≠ 2 → fState s f ≠ 3 →
    exec (.sequencerRestart m (.f f)) s = .next s) ∧
  (∀ (m : Master) (z : Fin 8) (s : State), qcsReach s m (MCS_ZSEQ_W3 z) = true → holds s baseMCS m = true → zState s z = 2 ∨
    zState s z = 3 →
    exec (.sequencerRestart m (.z z)) s = .next (zRestart s z)) ∧
  (∀ (m : Master) (a : BitVec 11) (v : Word) (s : State), qcsReach s m (MCS_ZPRAM a.toNat) = true → holds s baseMCS m = true →
    storeHalted s true = true →
    exec (.patchRamWrite m true a v) s = .next (wrN s (MCS_ZPRAM a.toNat) (v.toNat % 2 ^ 20))) ∧
  (∀ (m : Master) (a : BitVec 11) (v : Word) (s : State), qcsReach s m (MCS_ZPRAM a.toNat) = true → holds s baseMCS m = true →
    storeHalted s true = false →
    exec (.patchRamWrite m true a v) s = .next (evtSet s .mcs MCS_EVT_WR_REFUSED)) ∧
  (∀ (m : Master) (a : BitVec 11) (v : Word) (s : State), a.toNat < 1024 → qcsReach s m (MCS_FPRAM a.toNat) = true → holds s
    baseMCS m = true → storeHalted s false = true →
    exec (.patchRamWrite m false a v) s = .next (wrN s (MCS_FPRAM a.toNat) (v.toNat % 2 ^ 20))) ∧
  (∀ (m : Master) (i : Fin 32) (v : Word) (s : State), qcsReach s m (MCS_ZMATCH i) = true → holds s baseMCS m = true →
    storeHalted s true = true → 0x8000 ≤ getF v MCS_FMATCH_PATCH_ADDR → getF v MCS_FMATCH_PATCH_ADDR < 0x8800 →
    exec (.matchRegisterWrite m true i v) s = .next (wrN s (MCS_ZMATCH i) (v.toNat / 2 ^ 16 * 2 ^ 16 + getF v
    MCS_FMATCH_PATCH_ADDR)))

/-- O56. Heartbeats are sent and received over the peer link; the partner is judged and may be taken over from; a conflict of
ownership is resolved; the mirror stream is taken and its resynchronisation ends; a hand-over goes through its phases;
relay frames are taken or dropped; a firmware key is revoked. Each clause concludes that the command answers a next state,
under hypotheses on the state and the operands alone. Completes: peerHeartbeatSend, peerHeartbeatReceive, resyncDone,
partnerJudgement, takeoverAcquireRetry, ownershipConflict, mirrorStreamReceive, standbySelftestCycle, handoverStart,
handoverQuietDone, handoverSyncDone, loopRecordReceive, handoverDone, relayChunk, relayEnd, relayStatus, fwKeyRevoke.
(From R383, R384, R385, R386, R387, R389, R390, R392, R393, R400, R406.) -/
def Obligations.PartnerCommands : Prop :=
  (∀ (s : State), mode s ≠ 0 → domOn s 474 = true →
    exec .peerHeartbeatSend s = .next (emit (setPrt s fun x => { x with hbCount := (s.prt.hbCount + 1) % 2 ^ 32 }) (.peer 22
    [(s.prt.hbCount + 1) % 2 ^ 32, roleOf s, healthByte s]))) ∧
  (∀ (a : BitVec 4) (j : BitVec 8) (s : State), mode s ≠ 0 → domOn s 474 = true → partnerBroken (fset (fset (fset (setPrt s
    fun x => { x with heard := true }) PRT_HB PRT_HB_PEER_AGE 0) PRT_STAT PRT_STAT_PARTNER_ROLE a.toNat) PRT_STAT
    PRT_STAT_PARTNER_HEALTH j.toNat) = false →
    exec (.peerHeartbeatReceive a j) s = .next (followHandover (partnerGone (fset (fset (fset (setPrt s fun x =>
    { x with heard := true }) PRT_HB PRT_HB_PEER_AGE 0) PRT_STAT PRT_STAT_PARTNER_ROLE a.toNat) PRT_STAT
    PRT_STAT_PARTNER_HEALTH j.toNat) s false))) ∧
  (∀ (u : State) (s : State), isActiveRole s = true → standbyThere s = true → fbit s PRT_CTRL PRT_CTRL_MIRROR_EN = true →
    mirrorValid s = false → evtSet (count (fset (setMirrorValid s true) PRT_MIRROR PRT_MIRROR_RESYNC 100) (PRT_CNT 5) 1 .prt
    PRT_EVT_SAT) .prt PRT_EVT_RESYNC_DONE = u →
    exec .resyncDone s = .next (if isActiveRole u then emitAll (emit (ungradeUnit (resyncCopy u) 0 0xD1) (.peer 13 [rdN u
    TRS_RUN_SEQ])) (u.trs.runFiles.map (.peer 1)) else u)) ∧
  (∀ (s : State), mode s ≠ 0 → mayTakeOver (judged s) = false → exec .partnerJudgement s = .next (judged s)) ∧
  (∀ (s : State), mode s ≠ 0 → mayTakeOver (judged s) = true → exec .partnerJudgement s = .next (startTakeover (judged s))) ∧
  (∀ (s : State), s.prt.takeover = true → exec .takeoverAcquireRetry s = .next (takeoverCheck (acquireAll s))) ∧
  (∀ (s : State), inConflict s = true → roleOf s = 2 →
    exec .ownershipConflict s = .next (setRole (evtSet (count (forAll ((rangeFrom 0 32).filter fun p => isBound s p &&
    tokenMine s p) (setPrt s fun x => { x with takeover := false }) fun s p => tokenCmd s p 2) (PRT_CNT 4) 1 .prt PRT_EVT_SAT)
    .prt PRT_EVT_CONFLICT) 2)) ∧
  (∀ (f : MirrorFrame) (s : State), roleOf s = 2 ∨ roleOf s = 4 → fget s BUF_STAT BUF_STAT_CH_UP = 255 →
    exec (.mirrorStreamReceive f) s = .next (mirrorFrame s f)) ∧
  (∀ (l : List (Fin 477)) (s : State), roleOf s = 2 →
    exec (.standbySelftestCycle l) s = .next (setPrt (forAll ((l.map (·.val)).filter fun n => !domFailed s n) s domFault) fun
    x => { x with selfOk := l.isEmpty })) ∧
  (∀ (m : Master)  (s : State), qcsReach s m (PRT_CTRL) = true → hoAllowed s = true → s.prt.hoWait = false →
    exec (.handoverStart m) s = .next (hoTry (setPrt (hoResult s 0) fun x => { x with hoWait := true, hoCmd := none }))) ∧
  (∀ (s : State), mode s = 9 → fget s PRT_HO PRT_HO_PHASE = 1 →
    exec .handoverQuietDone s = .next (fset s PRT_HO PRT_HO_PHASE 2)) ∧
  (∀ (s : State), mode s = 9 → fget s PRT_HO PRT_HO_PHASE = 2 → roleOf s = 3 →
    exec .handoverSyncDone s = .next (forAll ((rangeFrom 0 32).filter (tokenMine (hoPhase s 3))) (emit (hoPhase s 3) (.peer 12
    (loopRecord (hoPhase s 3)))) fun s p => tokenCmd s p 3)) ∧
  (∀ (l : List LoopSlot) (k : List (BitVec 4 × BitVec 2)) (s : State), roleOf s = 4 →
    exec (.loopRecordReceive l k) s = .next (loopTaken s l k)) ∧
  (∀ (u : BitVec 24) (s : State), mode s = 9 → 3 ≤ fget s PRT_HO PRT_HO_PHASE → roleOf s ≠ 4 → (hoComplete (hoEnded s u.toNat
    (roleOf s == 4)) 0).prt.upStep ≠ 5 →
    exec (.handoverDone u) s = .next (hoComplete (hoEnded s u.toNat (roleOf s == 4)) 0)) ∧
  (∀ (f : RelayFrame) (s : State), mode s ≠ 0 → relayGood f = true → f.kind.toNat = 0 → s.prt.origin.contains f.imgId.toNat =
    false →
    exec (.relayChunk f) s = .next (relayForward (setPrt (relayIn s f) fun x =>
    { x with relay := tabPut x.relay f.imgId.toNat (tabPut (tabGet [] (relayIn s f).prt.relay f.imgId.toNat) f.offset.toNat (f.payload.map (·.toNat))) })
    f)) ∧
  (∀ (f : RelayFrame) (s : State), mode s ≠ 0 → relayGood f = false → exec (.relayChunk f) s = .next (relayDrop s)) ∧
  (∀ (f : RelayFrame) (s : State), mode s ≠ 0 → relayGood f = true → f.kind.toNat = 1 → s.prt.origin.contains f.imgId.toNat =
    false →
    exec (.relayEnd f) s = .next (relaySend (relayForward (if (relayStore (relayIn s f) f.imgId.toNat f.offset.toNat).2 = 0
    then (relayStore (relayIn s f) f.imgId.toNat f.offset.toNat).1 else evtSet (relayStore (relayIn s f) f.imgId.toNat
    f.offset.toNat).1 .prt PRT_EVT_RELAY_ERR) f) ((if (relayStore (relayIn s f) f.imgId.toNat f.offset.toNat).2 = 0 then
    (relayStore (relayIn s f) f.imgId.toNat f.offset.toNat).1 else evtSet (relayStore (relayIn s f) f.imgId.toNat
    f.offset.toNat).1 .prt PRT_EVT_RELAY_ERR).prt.hop.getD 0 + 1) 2 f.imgId.toNat 0 [(if (relayStore (relayIn s f)
    f.imgId.toNat f.offset.toNat).2 = 0 then (relayStore (relayIn s f) f.imgId.toNat f.offset.toNat).1 else evtSet (relayStore
    (relayIn s f) f.imgId.toNat f.offset.toNat).1 .prt PRT_EVT_RELAY_ERR).prt.hop.getD 0, (relayStore (relayIn s f)
    f.imgId.toNat f.offset.toNat).2, 0, 0])) ∧
  (∀ (f : RelayFrame) (s : State), mode s ≠ 0 → relayGood f = true → f.kind.toNat = 2 → s.prt.origin.contains f.imgId.toNat =
    true → (relayIn s f).prt.origin.contains f.imgId.toNat = true →
    exec (.relayStatus f) s = .next (setPrt (relayIn s f) fun x =>
    { x with status := (x.status ++ [((f.payload.map (·.toNat)).getD 0 0, (f.payload.map (·.toNat)).getD 1 0, f.imgId.toNat)]).take 64 })) ∧
  (∀ (m : Master) (v : BitVec 2) (s : State), qcsReach s m (PRT_KEY) = true →
    exec (.fwKeyRevoke m v) s = .next (fset s PRT_KEY PRT_KEY_REVOKE (fget s PRT_KEY PRT_KEY_REVOKE ||| v.toNat)))

/-- O57. A sender's data word and its ring of the doorbell are stored and a receiver clears the doorbell; a master without the
right to the register counts a violation; a binding is written by a master that may; LOCK is set; a party's reset clears
what it received. Each clause concludes that the command answers a next state, under hypotheses on the state and the
operands alone. Completes: mbxDataWrite, mbxDbSet, mbxDbClear, mbxBindWrite, mbxLock, mbxPartyRst, smbusClockLowReset.
(From R408, R409, R410, R411, R413.) -/
def Obligations.MailboxRegisters : Prop :=
  (∀ (m : Master) (c : Fin 64) (i : Fin 16) (v : Word) (s : State), mbxSender s m c = true →
    exec (.mbxDataWrite m c i v) s = .next (mbxPut s c i v)) ∧
  (∀ (m : Master) (c : Fin 64) (i : Fin 16) (v : Word) (s : State), mbxSender s m c = false →
    exec (.mbxDataWrite m c i v) s = .next (mbxViol s)) ∧
  (∀ (m : Master) (c : Fin 64) (v : Word) (s : State), mbxSender s m c = true → fbit s (MBX_CH_STAT c) MBX_CH_STAT_ABT = false
    →
    exec (.mbxDbSet m c v) s = .next (mbxChange s c fun t => wr t (MBX_CH_DB c) (rd t (MBX_CH_DB c) ||| v))) ∧
  (∀ (m : Master) (c : Fin 64) (v : Word) (s : State), mbxReceiver s m c = true →
    exec (.mbxDbClear m c v) s = .next (mbxChange s c fun t => wr t (MBX_CH_DB c) (rd t (MBX_CH_DB c) &&& ~~~ v))) ∧
  (∀ (m : Master) (c : Fin 64) (v : Word) (s : State), mbxReceiver s m c = false →
    exec (.mbxDbClear m c v) s = .next (mbxViol s)) ∧
  (∀ (m : Master) (c : Fin 64) (v : Word) (s : State), mayBind m = true → fbit s MBX_CTRL MBX_CTRL_LOCK = false → bindId (getF
    v MBX_BIND_SENDER) = true → bindId (getF v MBX_BIND_RECEIVER) = true → getF v MBX_BIND_SENDER ≠ getF v MBX_BIND_RECEIVER →
    exec (.mbxBindWrite m c v) s = .next (fset (fset s (MBX_BIND c) MBX_BIND_SENDER (getF v MBX_BIND_SENDER)) (MBX_BIND c)
    MBX_BIND_RECEIVER (getF v MBX_BIND_RECEIVER))) ∧
  (∀ (m : Master) (c : Fin 64) (v : Word) (s : State), mayBind m = false ∨ fbit s MBX_CTRL MBX_CTRL_LOCK = true →
    exec (.mbxBindWrite m c v) s = .next s) ∧
  (∀ (m : Master)  (s : State), qcsReach s m (MBX_CTRL) = true →
    exec (.mbxLock m) s = .next (fsetb s MBX_CTRL MBX_CTRL_LOCK true)) ∧
  (∀ (m : Master) (l : List Nat) (s : State), (rangeFrom 0 64).filter (fun c => mbxBound s c && fget s (MBX_BIND c)
    MBX_BIND_RECEIVER == masterId m) = l → l ≠ [] →
    exec (.mbxPartyRst m) s = .next (evtSet (forAll l s mbxClear) .mbx MBX_EVT_ABORT)) ∧
  (∀ (l : List Nat) (s : State), (rangeFrom 0 64).filter (fun c => mbxBound s c && fget s (MBX_BIND c) MBX_BIND_RECEIVER == 2)
    = l → l ≠ [] →
    exec .smbusClockLowReset s = .next (evtSet (forAll l s mbxClear) .mbx MBX_EVT_ABORT))

/-- O58. The BMC's read and write messages are answered; a request that waits in a channel for the firmware has its message
bit cleared and is answered: with the words read or written, with the feature or the page, or with the status of an error.
Each clause concludes that the command answers a next state, under hypotheses on the state and the operands alone.
Completes: mctpMbxRead, mctpMbxWrite, mbxQcsRead, mbxQcsWrite, mbxGetFeature, mbxSetFeature, mbxLogRead,
mbxInvalidCommand. (From R407, R414, R415.) -/
def Obligations.MailboxMessages : Prop :=
  (∀ (l : List Byte) (s : State), l.head? ≠ some 0x02 → exec (.mctpMbxRead l) s = .next (mctpMessage s l)) ∧
  (∀ (l : List Byte) (s : State), l.head? = some 0x02 → exec (.mctpMbxWrite l) s = .next (mctpMessage s l)) ∧
  (∀ (c : Fin 64) (m : Master) (s : State), Asked s c 1 m = true → mbxQcs (mbxChange s c fun t => wbit t (MBX_CH_DB c) 0
    false) m = false →
    exec (.mbxQcsRead c) s = .next (mbxReply (mbxChange s c fun t => wbit t (MBX_CH_DB c) 0 false) c (mbxBytes s c) 3 [])) ∧
  (∀ (c : Fin 64) (m : Master) (s : State), Asked s c 1 m = true → mbxQcs (mbxChange s c fun t => wbit t (MBX_CH_DB c) 0
    false) m = true → 1 ≤ argW (mbxBytes s c) 2 → argW (mbxBytes s c) 2 ≤ 15 →
    exec (.mbxQcsRead c) s = .next (
      let r := (rangeFrom 0 (argW (mbxBytes s c) 2)).foldl (fun r i => (r.1 ++ leBytes 4 (fetchWord r.2 m (argW (mbxBytes s c)
        1 + 4 * i)).1.toNat, (fetchWord r.2 m (argW (mbxBytes s c) 1 + 4 * i)).2)) (([] : List Nat), (mbxChange s c fun t =>
        wbit t (MBX_CH_DB c) 0 false))
      mbxReply r.2 c (mbxBytes s c) 0 r.1)) ∧
  (∀ (c : Fin 64) (m : Master) (s : State), Asked s c 2 m = true → mbxQcs (mbxChange s c fun t => wbit t (MBX_CH_DB c) 0
    false) m = true → 1 ≤ argW (mbxBytes s c) 2 → argW (mbxBytes s c) 2 ≤ 13 →
    exec (.mbxQcsWrite c) s = .next (mbxReply (forAll (rangeFrom 0 (argW (mbxBytes s c) 2)) (mbxChange s c fun t => wbit t
    (MBX_CH_DB c) 0 false) fun t i => if accessUndefined t m (argW (mbxBytes s c) 1 + 4 * i) || decide ((argW (mbxBytes s c) 1
    + 4 * i) % 4 ≠ 0) then undefinedAccess t m (argW (mbxBytes s c) 1 + 4 * i) else storeWord (dropLatch t m (argW (mbxBytes s
    c) 1 + 4 * i)) m (homeAddr (argW (mbxBytes s c) 1 + 4 * i)) (BitVec.ofNat 32 (argW (mbxBytes s c) (3 + i)))) c (mbxBytes s
    c) 0 [])) ∧
  (∀ (c : Fin 64) (m : Master) (s : State), Asked s c 3 m = true →
    exec (.mbxGetFeature c) s = .next (getVendor (argW (mbxBytes s c) 1) (BitVec.ofNat 32 (argW (mbxBytes s c) 2)) (mbxChange
    s c fun t => wbit t (MBX_CH_DB c) 0 false) (256 + (c + 1)) (mbxCid (mbxBytes s c)))) ∧
  (∀ (c : Fin 64) (m : Master) (s : State), Asked s c 4 m = true →
    exec (.mbxSetFeature c) s = .next (setVendor (argW (mbxBytes s c) 1) (BitVec.ofNat 32 (argW (mbxBytes s c) 2))
    (BitVec.ofNat 32 (argW (mbxBytes s c) 3)) (mbxChange s c fun t => wbit t (MBX_CH_DB c) 0 false) (256 + (c + 1)) (mbxCid
    (mbxBytes s c)))) ∧
  (∀ (c : Fin 64) (m : Master) (l : List Nat) (s : State), Asked s c 5 m = true → vendorPage (mbxChange s c fun t => wbit t
    (MBX_CH_DB c) 0 false) (argW (mbxBytes s c) 1) 0 = some l → argW (mbxBytes s c) 2 % 4 = 0 → argW (mbxBytes s c) 2 ≤
    l.length →
    exec (.mbxLogRead c) s = .next (mbxReply (mbxChange s c fun t => wbit t (MBX_CH_DB c) 0 false) c (mbxBytes s c) 0 (padTo
    56 (l.drop (argW (mbxBytes s c) 2))))) ∧
  (∀ (c : Fin 64) (m : Master) (s : State), Asked s c 5 m = true → vendorPage (mbxChange s c fun t => wbit t (MBX_CH_DB c) 0
    false) (argW (mbxBytes s c) 1) 0 = none →
    exec (.mbxLogRead c) s = .next (mbxReply (mbxChange s c fun t => wbit t (MBX_CH_DB c) 0 false) c (mbxBytes s c) 2 [])) ∧
  (∀ (c : Fin 64) (m : Master) (s : State), Asked s c 6 m = true →
    exec (.mbxInvalidCommand c) s = .next (mbxReply (mbxChange s c fun t => wbit t (MBX_CH_DB c) 0 false) c (mbxBytes s c) 1
    []))

/-- O59. A source rises and pends; pending bits are cleared by a write; an alert is answered; a recorder is frozen and
cleared; a flash command starts its operation, or is ignored while one runs, and its pulses end it. Each clause concludes
that the command answers a next state, under hypotheses on the state and the operands alone. Completes: eventSourceRise,
evtPendClear, smbusAlertResponse, tailFreezeWrite, tailClear, flashProgram, flashErase, flashPageRead,
flashProgramPulseDone, flashErasePulseDone. (From R416, R417, R421, R429, R431, R433.) -/
def Obligations.EventsTailsAndFlash : Prop :=
  (∀ (n : Fin 640) (s : State), srcLevel s n = true ∨ [3, 5, 6, 7].contains n.val = true →
    exec (.eventSourceRise n) s = .next (sourceRise s n)) ∧
  (∀ (n : Fin 640) (s : State), srcLevel s n = false → [3, 5, 6, 7].contains n.val = false →
    exec (.eventSourceRise n) s = .next s) ∧
  (∀ (m : Master) (n : Fin 20) (v : Word) (s : State), qcsReach s m (EVT_PEND n) = true →
    exec (.evtPendClear m n v) s = .next (pendClear s n v)) ∧
  (∀ (s : State), smbAlert s = true → exec .smbusAlertResponse s = .next (emit (drawn s) (.smbus [freeVal s % 256]))) ∧
  (∀ (s : State), smbAlert s = false → exec .smbusAlertResponse s = .next s) ∧
  (∀ (m : Master) (r : Fin 8) (b : Bool) (s : State), qcsReach s m (TAIL_CTRL r) = true →
    exec (.tailFreezeWrite m r b) s = .next (fsetb s (TAIL_CTRL r) TAIL_CTRL_FREEZE b)) ∧
  (∀ (m : Master) (r : Fin 8) (b : Bool) (s : State), qcsReach s m (TAIL_CTRL r) = true →
    exec (.tailClear m r b) s = .next (fsetb (wrN (tailSet s r []) (TAIL_DROPPED r) 0) (TAIL_CTRL r) TAIL_CTRL_FREEZE b)) ∧
  (∀ (m : Master) (v : Word) (b : Bool) (s : State), qcsReach s m (FLS_CMD) = true → fbit s FLS_STAT FLS_STAT_BUSY = false →
    domFailed s 473 = false →
    exec (.flashProgram m v b) s = .next (programStart (wr s FLS_CMD (cmdFields s m (goValue v 1))) b)) ∧
  (∀ (m : Master) (v : Word) (s : State), qcsReach s m (FLS_CMD) = true → fbit s FLS_STAT FLS_STAT_BUSY = false → domFailed s
    473 = false →
    exec (.flashErase m v) s = .next (eraseStart (wr s FLS_CMD (cmdFields s m (goValue v 2))))) ∧
  (∀ (m : Master) (v : Word) (a b c : BitVec 16) (s : State), qcsReach s m (FLS_CMD) = true → fbit s FLS_STAT FLS_STAT_BUSY =
    false → domFailed s 473 = false →
    exec (.flashPageRead m v a b c) s = .next (pageRead (wr s FLS_CMD (cmdFields s m (goValue v 3))) a b c)) ∧
  (∀ (m : Master) (v : Word) (s : State), qcsReach s m (FLS_CMD) = true → fbit s FLS_STAT FLS_STAT_BUSY = true →
    exec (.flashErase m v) s = .next (wr s FLS_CMD (cmdFields s m (goValue v 2)))) ∧
  (∀ (m : Master) (v : Word) (s : State), qcsReach s m (FLS_CMD) = true → domFailed s 473 = true →
    exec (.flashErase m v) s = .next (wr s FLS_CMD (cmdFields s m (goValue v 2)))) ∧
  (∀ (j : FlsJob) (b : Bool) (s : State), s.fls.job = some j → j.op = 1 →
    exec (.flashProgramPulseDone b) s = .next (programPulse s j b)) ∧
  (∀ (j : FlsJob) (b : Bool) (s : State), s.fls.job = some j → j.op = 2 →
    exec (.flashErasePulseDone b) s = .next (erasePulse s j b))

/-- O60. A completion queue's head is taken modulo the queue's size; a sector start counts and opens what waits for it; the
always-on supply is lost; a clock that is wanted locks and the Bridle clock stops; a thread's timer and the Keep Alive
timer expire. Each clause concludes that the command answers a next state, under hypotheses on the state and the operands
alone. Completes: cqHeadDoorbellWrite, sectorStart, vaonLoss, pllLock, bridleClockStop, threadTimerExpiry,
keepAliveTimerExpiry. (From R260, R265, R322, R324, R380, R454.) -/
def Obligations.TimersAndClocks : Prop :=
  (∀ (x : HPort) (q j : BitVec 16) (y : Nat × Cq) (s : State), portExists s (portId x) = true → (ctl s (portId x)).ready =
    true → (ctl s (portId x)).cqs.find? (fun y => y.1 == q.toNat) = some y →
    exec (.cqHeadDoorbellWrite x q j) s = .next (setCtl s (portId x) fun c =>
    { c with cqs := tabPut c.cqs y.1 { y.2 with head := j.toNat % max 1 y.2.size } })) ∧
  (∀ (a : Fin 64) (v : BitVec 16) (s : State), domOn s (75 + a) = true → (fseqOf s a).gatePend = none → (fseqOf s a).winPend =
    none →
    exec (.sectorStart a v) s = .next (setFseq (latchCond s a 7) a fun y =>
    { y with sect := v.toNat, cnt0 := y.cnt0 - 1, cnt1 := y.cnt1 - 1, gatePend := none, winPend := none })) ∧
  (∀ (a : Fin 64) (v : BitVec 16) (s : State), domOn s (75 + a) = false → exec (.sectorStart a v) s = .next s) ∧
  (∀ (s : State), exec .vaonLoss s = .next (setPwr (aonLost s) fun y => { y with vaon := false })) ∧
  (∀ (k : Fin 17) (s : State), mode s ≠ 0 → pllWanted s k = true →
    exec (.pllLock k) s = .next (fsetb (wbit s PWR_CLK (pllBit k) true) PWR_CLK PWR_CLK_REF_OK true)) ∧
  (∀ (s : State), bridleWanted s = false → exec .bridleClockStop s = .next (fsetb s PWR_CLK PWR_CLK_BRD false)) ∧
  (∀ (s : State), bridleWanted s = true → exec .bridleClockStop s = .next s) ∧
  (∀ (z : Fin 8) (t : Fin 64) (s : State), (zthread s z t).timerRun = true →
    exec (.threadTimerExpiry z t) s = .next (setThread s z t fun x => { x with timerRun := false, timerExp := true })) ∧
  (∀ (x : HPort) (s : State), (ctl s (portId x)).kaRun = true →
    exec (.keepAliveTimerExpiry x) s = .next (controllerReset s (portId x))) ∧
  (∀ (x : HPort) (s : State), (ctl s (portId x)).kaRun = false → exec (.keepAliveTimerExpiry x) s = .next s)

end
end

