-- ==== Sys2Proof/Laws/Regs.lean ====
section
/-! SUPPORT. Reading a register, a field or a bit after a write of the same or of another one; table laws. -/
set_option Elab.async false
namespace Sys2Proof.Machine
open Sys2Proof

/-! ### Tables -/

theorem tabGet_put {α : Type} (d : α) (t : Tab α) (k j : Nat) (v : α) :
    tabGet d (tabPut t k v) j = if k = j then v else tabGet d t j := by
  induction t with
  | nil => rfl
  | cons x t ih =>
    obtain ⟨i, w⟩ := x
    simp only [tabPut]
    split
    · rfl
    · split
      · rename_i h
        subst h
        simp only [tabGet]
        split <;> rfl
      · simp only [tabGet, ih]
        split
        · rename_i h1 h2 h3
          rw [if_neg (fun e => h2 (e.trans h3.symm))]
        · rfl

theorem tabGet_del {α : Type} (d : α) (t : Tab α) (k j : Nat) :
    tabGet d (tabDel t k) j = if k = j then d else tabGet d t j := by
  induction t with
  | nil => simp [tabDel, tabGet]
  | cons x t ih =>
    obtain ⟨i, w⟩ := x
    simp only [tabDel]
    split
    · rename_i h
      subst h
      rw [ih]
      simp only [tabGet]
      split <;> rfl
    · simp only [tabGet, ih]
      split
      · rename_i h1 h2
        rw [if_neg (fun e => h1 (h2.trans e.symm))]
      · rfl

theorem tabGet_upd {α : Type} (d : α) (t : Tab α) (k j : Nat) (f : α → α) :
    tabGet d (tabUpd d t k f) j = if k = j then f (tabGet d t k) else tabGet d t j := tabGet_put ..

/-! ### Words and fields -/

theorem getF_lt (w : Word) (f : Fld) : getF w f < 2 ^ f.width := Nat.mod_lt _ (Nat.two_pow_pos _)

/-- What a setting of a field makes of the whole word as a number. -/
theorem setF_toNat {f : Fld} (hf : f.lo + f.width ≤ 32) (w : Word) (v : Nat) :
    (setF w f v).toNat = w.toNat % 2 ^ f.lo + 2 ^ f.lo * (v % 2 ^ f.width + 2 ^ f.width * (w.toNat / 2 ^ (f.lo + f.width))) := by
  have hA := Nat.two_pow_pos f.lo
  have hq : w.toNat / 2 ^ (f.lo + f.width) = w.toNat / 2 ^ f.lo / 2 ^ f.width := by rw [Nat.pow_add, Nat.div_div_eq_div_mul]
  have h1 : w.toNat = w.toNat % 2 ^ f.lo + 2 ^ f.lo * (w.toNat / 2 ^ f.lo) := (Nat.mod_add_div _ _).symm
  have h2 : w.toNat / 2 ^ f.lo = w.toNat / 2 ^ f.lo % 2 ^ f.width + 2 ^ f.width * (w.toNat / 2 ^ f.lo / 2 ^ f.width) :=
    (Nat.mod_add_div _ _).symm
  have key : w.toNat - getF w f * 2 ^ f.lo + v % 2 ^ f.width * 2 ^ f.lo =
      w.toNat % 2 ^ f.lo + 2 ^ f.lo * (v % 2 ^ f.width + 2 ^ f.width * (w.toNat / 2 ^ (f.lo + f.width))) := by
    unfold getF
    rw [hq]
    generalize hg : w.toNat / 2 ^ f.lo % 2 ^ f.width = g at h2 ⊢
    generalize w.toNat / 2 ^ f.lo / 2 ^ f.width = u at h2 ⊢
    rw [h2] at h1
    generalize w.toNat % 2 ^ f.lo = r at h1 ⊢
    rw [h1]
    generalize 2 ^ f.lo = A
    generalize 2 ^ f.width = B
    simp only [Nat.mul_add, Nat.mul_comm _ A]
    omega
  have hlt : w.toNat % 2 ^ f.lo + 2 ^ f.lo * (v % 2 ^ f.width + 2 ^ f.width * (w.toNat / 2 ^ (f.lo + f.width))) < 2 ^ 32 := by
    have hu : w.toNat / 2 ^ (f.lo + f.width) < 2 ^ (32 - (f.lo + f.width)) := by
      rw [Nat.div_lt_iff_lt_mul (Nat.two_pow_pos _), ← Nat.pow_add, Nat.sub_add_cancel hf]
      exact w.isLt
    have hr : w.toNat % 2 ^ f.lo < 2 ^ f.lo := Nat.mod_lt _ hA
    have hv : v % 2 ^ f.width < 2 ^ f.width := Nat.mod_lt _ (Nat.two_pow_pos _)
    have e : 2 ^ 32 = 2 ^ f.lo * (2 ^ f.width * 2 ^ (32 - (f.lo + f.width))) := by
      rw [← Nat.pow_add, ← Nat.pow_add]
      congr 1
      omega
    rw [e]
    generalize 2 ^ (32 - (f.lo + f.width)) = C at hu ⊢
    generalize w.toNat / 2 ^ (f.lo + f.width) = u at hu ⊢
    generalize 2 ^ f.width = B at hv ⊢
    generalize 2 ^ f.lo = A at hr ⊢
    generalize v % B = x at hv ⊢
    have h3 : x + B * u + 1 ≤ B * C := by
      have := Nat.mul_le_mul_left B (show u + 1 ≤ C from hu)
      rw [Nat.mul_add] at this
      omega
    have h4 := Nat.mul_le_mul_left A h3
    rw [Nat.mul_add] at h4
    omega
  rw [setF, key, BitVec.toNat_ofNat, Nat.mod_eq_of_lt hlt]

theorem getF_setF {f : Fld} (hf : f.lo + f.width ≤ 32) (w : Word) (v : Nat) : getF (setF w f v) f = v % 2 ^ f.width := by
  have hA := Nat.two_pow_pos f.lo
  rw [getF, setF_toNat hf, Nat.add_mul_div_left _ _ hA, Nat.div_eq_of_lt (Nat.mod_lt _ hA), Nat.zero_add,
    Nat.add_mul_mod_self_left, Nat.mod_mod]

theorem getF_setF_ne {f g : Fld} (hf : f.lo + f.width ≤ 32) (h : f.lo + f.width ≤ g.lo ∨ g.lo + g.width ≤ f.lo) (w : Word)
    (v : Nat) : getF (setF w f v) g = getF w g := by
  have hA := Nat.two_pow_pos f.lo
  rw [getF, getF, setF_toNat hf]
  rcases h with h | h
  · have e : 2 ^ g.lo = 2 ^ f.lo * 2 ^ f.width * 2 ^ (g.lo - (f.lo + f.width)) := by
      rw [← Nat.pow_add, ← Nat.pow_add, Nat.add_sub_cancel' h]
    have e2 : w.toNat / 2 ^ g.lo = w.toNat / 2 ^ (f.lo + f.width) / 2 ^ (g.lo - (f.lo + f.width)) := by
      rw [Nat.div_div_eq_div_mul, ← Nat.pow_add, Nat.add_sub_cancel' h]
    rw [e2, e, ← Nat.div_div_eq_div_mul, ← Nat.div_div_eq_div_mul, Nat.add_mul_div_left _ _ hA,
      Nat.div_eq_of_lt (Nat.mod_lt _ hA), Nat.zero_add, Nat.add_mul_div_left _ _ (Nat.two_pow_pos _),
      Nat.div_eq_of_lt (Nat.mod_lt _ (Nat.two_pow_pos _)), Nat.zero_add]
  · have low : ∀ x : Nat, x / 2 ^ g.lo % 2 ^ g.width = x % 2 ^ f.lo / 2 ^ g.lo % 2 ^ g.width := by
      intro x
      have e : 2 ^ f.lo = 2 ^ g.lo * (2 ^ g.width * 2 ^ (f.lo - (g.lo + g.width))) := by
        rw [← Nat.pow_add, ← Nat.pow_add]
        congr 1
        omega
      rw [e, Nat.mod_mul_right_div_self, Nat.mod_mul_right_mod]
    rw [low, low w.toNat, Nat.add_mul_mod_self_left, Nat.mod_mod]

theorem bitOf_setBit {i : Nat} (hi : i < 32) (w : Word) (b : Bool) : bitOf (setBit w i b) i = b := by
  have h := getF_setF (f := ⟨i, 1⟩) (show i + 1 ≤ 32 by omega) w (if b then 1 else 0)
  have e : bitOf (setBit w i b) i = decide (getF (setBit w i b) ⟨i, 1⟩ = 1) := rfl
  rw [e, setBit, h]
  cases b <;> rfl

theorem bitOf_setBit_ne {i j : Nat} (hi : i < 32) (h : i ≠ j) (w : Word) (b : Bool) : bitOf (setBit w i b) j = bitOf w j := by
  have e := getF_setF_ne (f := ⟨i, 1⟩) (g := ⟨j, 1⟩) (show i + 1 ≤ 32 by omega) (by show i + 1 ≤ j ∨ j + 1 ≤ i; omega) w
    (if b then 1 else 0)
  exact congrArg (fun x => decide (x = 1)) e

/-! ### Registers -/

theorem rd_wr (s : State) (a b : Nat) (w : Word) : rd (wr s a w) b = if homeAddr b = homeAddr a then w else rd s b := by
  unfold rd wr
  dsimp only [putReg]
  split
  · rename_i h
    rw [tabGet_del]
    by_cases e : homeAddr b = homeAddr a
    · rw [if_pos e.symm, if_pos e, e, h]
    · rw [if_neg (Ne.symm e), if_neg e]
  · rw [tabGet_put]
    by_cases e : homeAddr b = homeAddr a
    · rw [if_pos e.symm, if_pos e]
    · rw [if_neg (Ne.symm e), if_neg e]

theorem rd_wr_same (s : State) (a : Nat) (w : Word) : rd (wr s a w) a = w := by rw [rd_wr, if_pos rfl]

theorem rd_wr_ne {a b : Nat} (h : homeAddr b ≠ homeAddr a) (s : State) (w : Word) : rd (wr s a w) b = rd s b := by
  rw [rd_wr, if_neg h]

theorem fget_fset {f : Fld} (hf : f.lo + f.width ≤ 32) (s : State) (a v : Nat) : fget (fset s a f v) a f = v % 2 ^ f.width := by
  rw [fget, fset, rd_wr_same, getF_setF hf]

theorem fget_fset_field {f g : Fld} (hf : f.lo + f.width ≤ 32) (h : f.lo + f.width ≤ g.lo ∨ g.lo + g.width ≤ f.lo) (s : State)
    (a v : Nat) : fget (fset s a f v) a g = fget s a g := by
  rw [fget, fset, rd_wr_same, getF_setF_ne hf h, fget]

theorem fget_wr_ne {a b : Nat} (h : homeAddr b ≠ homeAddr a) (s : State) (w : Word) (g : Fld) :
    fget (wr s a w) b g = fget s b g := by
  rw [fget, rd_wr_ne h, fget]

theorem fget_fset_ne {a b : Nat} (h : homeAddr b ≠ homeAddr a) (s : State) (f g : Fld) (v : Nat) :
    fget (fset s a f v) b g = fget s b g := fget_wr_ne h ..

end Sys2Proof.Machine
end

