-- ==== Sys2Proof/Laws/Events.lean ====
section
/-! SUPPORT. The frame of the basic operations and of the event router: what an event or a counter changes. -/
set_option Elab.async false
namespace Sys2Proof.Machine
open Sys2Proof

variable {l : List Nat} {s t : State}

theorem Only.refl (l : List Nat) (s : State) : Only l s s := ⟨fun _ _ _ => rfl, rfl, List.suffix_rfl⟩

/-- One more change that touches registers of `l` or of the router only, and nothing beyond what an event changes. -/
theorem Only.step {u : State} (h : Only l s t) (hr : RegsOnly l t u)
    (he : u = { t with regs := u.regs, out := u.out, free := u.free, evt := u.evt }) (ho : t.out <:+ u.out) : Only l s u :=
  ⟨fun a ha hb => (hr a ha hb).trans (h.1 a ha hb),
    he.trans (congrArg (fun x : State => { x with regs := u.regs, out := u.out, free := u.free, evt := u.evt }) h.2.1),
    h.2.2.trans ho⟩

theorem Only.mono {m : List Nat} (h : Only l s t) (hm : ∀ a ∈ l, a ∈ m) : Only m s t :=
  ⟨fun a ha hb => h.1 a (fun hl => ha (by
    obtain ⟨x, hx, e⟩ := List.mem_map.1 hl
    exact List.mem_map.2 ⟨x, hm x hx, e⟩)) hb, h.2⟩

theorem Only.trans {u : State} (h : Only l s t) (g : Only l t u) : Only l s u := h.step g.1 g.2.1 g.2.2

theorem Only.wr {a : Nat} {w : Word} (ha : a ∈ l ∨ routerReg (homeAddr a) = true) (h : Only l s t) : Only l s (wr t a w) :=
  h.step (fun b hb hr => rd_wr_ne (fun e => by
    rcases ha with ha | ha
    · exact hb (e ▸ List.mem_map.2 ⟨a, ha, rfl⟩)
    · have hh : routerReg (homeAddr b) = false := by
        unfold homeAddr
        split
        · unfold routerReg
          simp only [Bool.and_eq_false_iff, decide_eq_false_iff_not]
          omega
        · exact hr
      rw [e, ha] at hh
      cases hh) _ _) rfl List.suffix_rfl

theorem Only.fset {a v : Nat} {f : Fld} (ha : a ∈ l ∨ routerReg (homeAddr a) = true) (h : Only l s t) : Only l s (fset t a f v) :=
  Only.wr ha h

theorem Only.fsetb {a : Nat} {f : Fld} {b : Bool} (ha : a ∈ l ∨ routerReg (homeAddr a) = true) (h : Only l s t) :
    Only l s (fsetb t a f b) := Only.wr ha h

theorem Only.fadd {a v : Nat} {f : Fld} (ha : a ∈ l ∨ routerReg (homeAddr a) = true) (h : Only l s t) : Only l s (fadd t a f v) :=
  Only.wr ha h

theorem Only.wbit {a i : Nat} {b : Bool} (ha : a ∈ l ∨ routerReg (homeAddr a) = true) (h : Only l s t) : Only l s (wbit t a i b) :=
  Only.wr ha h

theorem Only.wrN {a n : Nat} (ha : a ∈ l ∨ routerReg (homeAddr a) = true) (h : Only l s t) : Only l s (wrN t a n) := Only.wr ha h

theorem Only.wr64 {a n : Nat} (ha : a ∈ l) (hb : a + 4 ∈ l) (h : Only l s t) : Only l s (wr64 t a n) :=
  Only.wr (.inl hb) (Only.wr (.inl ha) h)

theorem Only.emit {o : Out} (h : Only l s t) : Only l s (emit t o) :=
  h.step (fun _ _ _ => rfl) rfl (List.suffix_cons _ _)

theorem Only.drawn (h : Only l s t) : Only l s (drawn t) := h.step (fun _ _ _ => rfl) rfl List.suffix_rfl

/-- A change of the router's own lists. -/
theorem Only.evtUpd {e : EvtState} (h : Only l s t) : Only l s { t with evt := e } :=
  h.step (fun _ _ _ => rfl) rfl List.suffix_rfl

theorem Only.ite {u : State} {c : Prop} [Decidable c] (h : Only l s t) (g : Only l s u) : Only l s (if c then t else u) := by
  split <;> assumption

theorem Only.when {b : Bool} {f : State → State} (h : Only l s t) (hf : ∀ u, Only l s u → Only l s (f u)) :
    Only l s (when b t f) := by
  unfold Machine.when
  exact Only.ite (hf _ h) h

theorem Only.forAll {α : Type} {xs : List α} {f : State → α → State} (h : Only l s t)
    (hf : ∀ u, ∀ x ∈ xs, Only l s u → Only l s (f u x)) : Only l s (forAll xs t f) := by
  unfold Machine.forAll
  induction xs generalizing t with
  | nil => exact h
  | cons x xs ih => exact ih (hf t x List.mem_cons_self h) fun u y hy => hf u y (List.mem_cons_of_mem _ hy)

theorem rangeFrom_bound {a n x : Nat} (h : x ∈ rangeFrom a n) : a ≤ x ∧ x < a + n := by
  induction n generalizing a with
  | zero => cases h
  | succ n ih =>
    rcases List.mem_cons.1 h with h | h
    · omega
    · have := ih h
      omega

/-! ### Counters and the router -/

/-- A place of the router or of the recorders. -/
theorem router_home {a : Nat} (h1 : 0x0300000 ≤ a) (h2 : a < 0x0500000) : routerReg (homeAddr a) = true := by
  have : homeAddr a = a := by
    unfold homeAddr
    exact if_neg (by omega)
  rw [this, routerReg]
  simp [h1, h2]

theorem Only.cntRaw {a d : Nat} (ha : a ∈ l ∨ routerReg (homeAddr a) = true) (h : Only l s t) : Only l s (cntRaw t a d) := by
  unfold Machine.cntRaw
  exact Only.ite (Only.fset ha h) (Only.wrN ha h)

theorem Only.cntQuiet {a d i : Nat} {b : EvtBlk} (ha : a ∈ l ∨ routerReg (homeAddr a) = true)
    (hb : evtAddr b ∈ l ∨ routerReg (homeAddr (evtAddr b)) = true) (h : Only l s t) : Only l s (cntQuiet t a d b i) := by
  unfold Machine.cntQuiet
  exact Only.ite (Only.wbit hb (Only.evtUpd (Only.cntRaw ha h))) (Only.cntRaw ha h)

theorem Only.tailDrop {r : Nat} (hr : r < 8) (h : Only l s t) : Only l s (tailDrop t r) := by
  refine Only.cntQuiet (.inr (router_home ?_ ?_)) (.inr (by decide)) h <;> unfold TAIL_DROPPED <;> omega

theorem Only.tailSet {r : Nat} {x : List TailRec} (hr : r < 8) (h : Only l s t) : Only l s (tailSet t r x) := by
  have g : routerReg (homeAddr (TAIL_STAT r)) = true := by apply router_home <;> unfold TAIL_STAT <;> omega
  exact Only.fset (.inr g) (Only.fsetb (.inr g) (Only.evtUpd h))

theorem Only.tailAppend {src r : Nat} (hr : r < 8) (h : Only l s t) : Only l s (tailAppend t src r) := by
  unfold Machine.tailAppend
  extract_lets x s1
  have g : Only l s s1 := Only.tailSet hr (Only.drawn h)
  clear_value s1
  exact Only.ite (Only.wbit (.inr (by decide)) g) g

theorem Only.tailRecord {src r : Nat} (hr : r < 8) (h : Only l s t) : Only l s (tailRecord t src r) := by
  unfold Machine.tailRecord
  refine Only.ite (Only.tailDrop hr h) ?_
  extract_lets x
  split
  · exact Only.ite (Only.ite (Only.tailSet hr h) (Only.tailDrop hr h)) (Only.ite (Only.tailDrop hr h) (Only.tailAppend hr h))
  · exact Only.tailAppend hr h

theorem Only.aenPost {p a b c : Nat} (h : Only l s t) : Only l s (aenPost t p a b c) := by
  unfold Machine.aenPost
  split
  · exact Only.emit (Only.evtUpd h)
  · exact Only.evtUpd h

theorem Only.aenNotice {p : Nat} (h : Only l s t) : Only l s (aenNotice t p) := by
  unfold Machine.aenNotice
  exact Only.ite h (Only.aenPost (Only.drawn (Only.evtUpd h)))

/-- A message or the line of a host port leaves the registers. -/
@[simp] theorem hostIrq_regs (p v : Nat) (s : State) : (hostIrq s p v).regs = s.regs := by
  unfold hostIrq
  repeat' split
  all_goals rfl

theorem Only.hostIrq {p v : Nat} (h : Only l s t) : Only l s (hostIrq t p v) :=
  Only.ite (Only.emit h) (Only.ite (Only.emit h) h)

theorem Only.routerMsix {p v : Nat} (h : Only l s t) : Only l s (routerMsix t p v) :=
  Only.cntQuiet (.inr (by decide)) (.inr (by decide)) (Only.hostIrq h)

theorem Only.routerPeer {n : Nat} (h : Only l s t) : Only l s (routerPeer t n) :=
  Only.ite (Only.cntQuiet (.inr (by decide)) (.inr (by decide)) (Only.emit h))
    (Only.wbit (.inr (by decide)) (Only.cntQuiet (.inr (by decide)) (.inr (by decide)) h))

theorem Only.pendSet {n : Nat} {o : Bool} (hn : n < 640) (h : Only l s t) : Only l s (pendSet t n o) := by
  unfold Machine.pendSet
  extract_lets w0 w1 s1 s2 s3 s4 s5 s6
  have hp : routerReg (homeAddr (EVT_PEND (n / 32))) = true := by apply router_home <;> unfold EVT_PEND <;> omega
  have h1 : Only l s s1 := Only.cntQuiet (.inr (by decide)) (.inr (by decide)) (Only.wbit (.inr hp) h)
  clear_value s1
  have h2 : Only l s s2 := Only.when h1 fun _ => Only.routerMsix
  clear_value s2
  have h3 : Only l s s3 := Only.when h2 fun _ => Only.routerMsix
  clear_value s3
  have h4 : Only l s s4 := Only.when h3 fun _ => Only.routerPeer
  clear_value s4
  have h5 : Only l s s5 := Only.when h4 fun _ => Only.aenNotice
  clear_value s5
  have h6 : Only l s s6 := Only.when h5 fun _ => Only.aenNotice
  clear_value s6
  refine Only.ite (Only.when h6 fun u hu => Only.forAll hu fun v r hr hv => ?_) h1
  exact Only.ite (Only.tailRecord (by have := (rangeFrom_bound hr).2; omega) hv) hv

theorem Only.ownRise {a b : Bool} (h : Only l s t) : Only l s (ownRise t a b) := by
  unfold Machine.ownRise
  extract_lets r9 s1 r10 s2
  have h1 : Only l s s1 := Only.when h fun _ => Only.pendSet (by decide)
  clear_value s1
  have h2 : Only l s s2 := Only.when h1 fun _ => Only.pendSet (by decide)
  clear_value s2
  exact Only.when h2 fun _ => Only.pendSet (by decide)

theorem Only.sourceRise {n : Nat} (hn : n < 640) (h : Only l s t) : Only l s (sourceRise t n) :=
  Only.ownRise (Only.pendSet hn h)

theorem Only.risesOf {old : State} {b : EvtBlk} (hb : ∀ x ∈ evtSources b, x.1 < 640) (h : Only l s t) :
    Only l s (risesOf t old b) := by
  unfold Machine.risesOf
  split
  · exact Only.ownRise h
  · exact Only.ownRise h
  · exact Only.forAll h fun u x hx hu => Only.ite (Only.sourceRise (hb x hx) hu) hu

/-- An event bit: the block's EVT register, and the router. -/
theorem Only.evtSet {b : EvtBlk} {i : Nat} (hb : ∀ x ∈ evtSources b, x.1 < 640)
    (ha : evtAddr b ∈ l ∨ routerReg (homeAddr (evtAddr b)) = true) (h : Only l s t) : Only l s (evtSet t b i) :=
  Only.risesOf hb (Only.wbit ha h)

/-- A statistics counter: its register, the block's EVT register, and the router. -/
theorem Only.count {b : EvtBlk} {a d i : Nat} (hb : ∀ x ∈ evtSources b, x.1 < 640)
    (ha : evtAddr b ∈ l ∨ routerReg (homeAddr (evtAddr b)) = true) (hc : a ∈ l ∨ routerReg (homeAddr a) = true)
    (h : Only l s t) : Only l s (count t a d b i) :=
  Only.risesOf hb (Only.cntQuiet hc ha h)

theorem Only.count64 {b : EvtBlk} {a d i : Nat} (hb : ∀ x ∈ evtSources b, x.1 < 640)
    (ha : evtAddr b ∈ l ∨ routerReg (homeAddr (evtAddr b)) = true) (hc : a ∈ l) (hd : a + 4 ∈ l)
    (h : Only l s t) : Only l s (count64 t a d b i) := by
  unfold Machine.count64
  exact Only.ite (Only.wr64 hc hd h) (Only.ite (Only.wr64 hc hd h) (Only.evtSet hb ha (Only.evtUpd (Only.wr64 hc hd h))))

/-- An event leaves every register outside the router but the block's EVT register. -/
theorem rd_evtSet {b : EvtBlk} {i a : Nat} (hb : ∀ x ∈ evtSources b, x.1 < 640) (ha : homeAddr a ≠ homeAddr (evtAddr b))
    (hr : routerReg a = false) (s : State) : rd (Machine.evtSet s b i) a = rd s a := by
  refine (Only.evtSet (l := [evtAddr b]) hb (.inl (List.mem_singleton.2 rfl)) (Only.refl _ s)).1 a ?_ hr
  simpa using ha

theorem fget_evtSet {b : EvtBlk} {i a : Nat} {f : Fld} (hb : ∀ x ∈ evtSources b, x.1 < 640)
    (ha : homeAddr a ≠ homeAddr (evtAddr b)) (hr : routerReg a = false) (s : State) :
    fget (Machine.evtSet s b i) a f = fget s a f := by
  unfold fget
  rw [rd_evtSet hb ha hr]

/-- An event leaves the flash store's part of the state. -/
theorem fls_evtSet {b : EvtBlk} {i : Nat} (hb : ∀ x ∈ evtSources b, x.1 < 640) (s : State) :
    (Machine.evtSet s b i).fls = s.fls := by
  rw [(Only.evtSet (l := [evtAddr b]) (i := i) hb (.inl (by simp)) (Only.refl _ s)).2.1]

/-- A count leaves every register outside the router but the counter and the block's EVT register. -/
theorem rd_count {b : EvtBlk} {c d i a : Nat} (hb : ∀ x ∈ evtSources b, x.1 < 640) (ha : homeAddr a ≠ homeAddr (evtAddr b))
    (hc : homeAddr a ≠ homeAddr c) (hr : routerReg a = false) (s : State) : rd (Machine.count s c d b i) a = rd s a := by
  refine (Only.count (l := [c, evtAddr b]) hb (.inl (by simp)) (.inl (by simp)) (Only.refl _ s)).1 a ?_ hr
  simpa using ⟨hc, ha⟩

/-! ### Admin commands -/

/-- The end of a command of a host port: the completion that leaves, and the port's count of them. -/
theorem Only.complete {x q c a b d e : Nat} (hx : x < 256) (h : Only l s t) (ha : HIF_PORT_CNT x 0 ∈ l) (hb : HIF_EVT ∈ l) :
    Only l s (complete t x q c a b d e) := by
  unfold Machine.complete Machine.completeDnr
  rw [if_pos hx]
  exact Only.count (by decide) (.inl hb) (.inl ha) (Only.emit h)

theorem portId_lt (x : HPort) : portId x < 256 := by cases x <;> decide

/-- A command that the controller does not take changes nothing; else its work decides. -/
theorem RegsOnly.adminCmd {x : HPort} {f : State → State} (h : RegsOnly l s (f s)) : RegsOnly l s (adminCmd s x f) := by
  unfold Machine.adminCmd
  split
  · exact h
  · exact fun _ _ _ => rfl

theorem RegsOnly.of_regs {u : State} (h : RegsOnly l s t) (e : u.regs = t.regs) : RegsOnly l s u := fun a ha hr => by
  unfold rd
  rw [e]
  exact h a ha hr

/-- A data transfer and its completion change the completion count of the port only. -/
theorem RegsOnly.logData {x : HPort} {c o n : Nat} {p : List Nat} :
    RegsOnly [HIF_PORT_CNT (portId x) 0, HIF_EVT] s (logData s (portId x) c o n p) := by
  unfold Machine.logData
  split
  · exact (Only.complete (portId_lt x) (Only.refl _ s) (by simp) (by simp)).1
  · exact (Only.complete (portId_lt x) (Only.emit (Only.refl _ s)) (by simp) (by simp)).1

theorem RegsOnly.featValue {x : HPort} {c a b : Nat} :
    RegsOnly [HIF_PORT_CNT (portId x) 0, HIF_EVT] s (featValue s (portId x) c a b) :=
  (Only.complete (portId_lt x) (Only.refl _ s) (by simp) (by simp)).1

theorem RegsOnly.adminEnd {x : HPort} {c a b : Nat} :
    RegsOnly [HIF_PORT_CNT (portId x) 0, HIF_EVT] s (adminEnd s (portId x) c a b) :=
  (Only.complete (portId_lt x) (Only.refl _ s) (by simp) (by simp)).1

/-! ### PEND -/

/-- Bit `i` of PEND word `n` is set. -/
def Pends (n i : Nat) (s : State) : Prop := bitOf (rd s (EVT_PEND n)) i = true

theorem Pends.wr {n i a : Nat} {w : Word} (ha : homeAddr (EVT_PEND n) ≠ homeAddr a) (h : Pends n i s) : Pends n i (wr s a w) := by
  unfold Pends
  rw [rd_wr_ne ha]
  exact h

theorem pend_home {n : Nat} (hn : n < 20) : homeAddr (EVT_PEND n) = 0x0300180 + 0x4 * n := by
  unfold homeAddr EVT_PEND
  exact if_neg (by omega)

/-- A register outside the PEND words. -/
theorem pend_ne {n a : Nat} (hn : n < 20) (ha : a < 0x0300180 ∨ 0x03001D0 ≤ a ∧ a < 0x1400000) : homeAddr (EVT_PEND n) ≠ homeAddr a := by
  have : homeAddr a = a := by
    unfold homeAddr
    exact if_neg (by omega)
  rw [pend_home hn, this]
  omega

/-- A PEND bit set leaves every other set. -/
theorem Pends.set {n i m j : Nat} (hn : n < 20) (hm : m < 20) (hj : j < 32) (h : Pends n i s) :
    Pends n i (wbit s (EVT_PEND m) j true) := by
  unfold Pends Machine.wbit
  by_cases e : n = m
  · subst e
    rw [rd_wr_same]
    by_cases e : j = i
    · subst e
      exact bitOf_setBit hj _ _
    · rw [bitOf_setBit_ne hj e]
      exact h
  · rw [rd_wr_ne (by rw [pend_home hn, pend_home hm]; omega)]
    exact h

theorem Pends.of_regs {n i : Nat} {u : State} (h : Pends n i s) (e : u.regs = s.regs) : Pends n i u := by
  unfold Pends rd at h ⊢
  rw [e]
  exact h

theorem Pends.ite {n i : Nat} {u v : State} {c : Prop} [Decidable c] (h : Pends n i u) (g : Pends n i v) :
    Pends n i (if c then u else v) := by
  split <;> assumption

theorem Pends.when {n i : Nat} {b : Bool} {f : State → State} (h : Pends n i s) (hf : ∀ u, Pends n i u → Pends n i (f u)) :
    Pends n i (when b s f) := by
  unfold Machine.when
  exact Pends.ite (hf _ h) h

theorem Pends.forAll {α : Type} {n i : Nat} {xs : List α} {f : State → α → State} (h : Pends n i s)
    (hf : ∀ u, ∀ x ∈ xs, Pends n i u → Pends n i (f u x)) : Pends n i (forAll xs s f) := by
  unfold Machine.forAll
  induction xs generalizing s with
  | nil => exact h
  | cons x xs ih => exact ih (hf s x List.mem_cons_self h) fun u y hy => hf u y (List.mem_cons_of_mem _ hy)

theorem Pends.cntQuiet {n i a d k : Nat} {b : EvtBlk} (hn : n < 20) (ha : a < 0x0300180 ∨ 0x03001D0 ≤ a ∧ a < 0x1400000)
    (hb : evtAddr b < 0x0300180 ∨ 0x03001D0 ≤ evtAddr b ∧ evtAddr b < 0x1400000) (h : Pends n i s) :
    Pends n i (cntQuiet s a d b k) := by
  have g : Pends n i (Machine.cntRaw s a d) := by
    unfold Machine.cntRaw
    exact Pends.ite (Pends.wr (pend_ne hn ha) h) (Pends.wr (pend_ne hn ha) h)
  unfold Machine.cntQuiet
  exact Pends.ite (Pends.wr (pend_ne hn hb) (g.of_regs rfl)) g

theorem Pends.tailSet {n i r : Nat} {l : List TailRec} (hn : n < 20) (hr : r < 8) (h : Pends n i s) : Pends n i (tailSet s r l) := by
  have e := pend_ne (n := n) (a := TAIL_STAT r) hn (by unfold TAIL_STAT; omega)
  exact Pends.wr e (Pends.wr e (h.of_regs rfl))

theorem Pends.tailAppend {n i src r : Nat} (hn : n < 20) (hr : r < 8) (h : Pends n i s) : Pends n i (tailAppend s src r) := by
  unfold Machine.tailAppend
  extract_lets x s1
  have g : Pends n i s1 := Pends.tailSet hn hr (h.of_regs rfl)
  clear_value s1
  exact Pends.ite (Pends.wr (pend_ne hn (by decide)) g) g

theorem Pends.tailRecord {n i src r : Nat} (hn : n < 20) (hr : r < 8) (h : Pends n i s) : Pends n i (tailRecord s src r) := by
  have hd : Pends n i (Machine.tailDrop s r) := Pends.cntQuiet hn (by unfold TAIL_DROPPED; omega) (by decide) h
  unfold Machine.tailRecord
  refine Pends.ite hd ?_
  extract_lets x
  split
  · exact Pends.ite (Pends.ite (Pends.tailSet hn hr h) hd) (Pends.ite hd (Pends.tailAppend hn hr h))
  · exact Pends.tailAppend hn hr h

theorem Pends.aenNotice {n i p : Nat} (h : Pends n i s) : Pends n i (aenNotice s p) := by
  unfold Machine.aenNotice Machine.aenPost
  refine Pends.ite h ?_
  split
  · exact h.of_regs rfl
  · exact h.of_regs rfl

/-- Setting PEND of a source leaves what was set. -/
theorem Pends.pendSet {n i src : Nat} {o : Bool} (hn : n < 20) (hs : src < 640) (h : Pends n i (wbit s (EVT_PEND (src / 32)) (src % 32) true)) :
    Pends n i (pendSet s src o) := by
  unfold Machine.pendSet
  extract_lets w0 w1 s1 s2 s3 s4 s5 s6
  have c : ∀ {a : Nat} {u : State}, a < 0x0300180 ∨ 0x03001D0 ≤ a ∧ a < 0x1400000 → Pends n i u →
      Pends n i (Machine.cntQuiet u a 1 .evt EVT_EVT_SAT) := fun ha hu => Pends.cntQuiet hn ha (by decide) hu
  have h1 : Pends n i s1 := c (by decide) h
  clear_value s1
  have h2 : Pends n i s2 := Pends.when h1 fun u hu => c (by decide) (hu.of_regs (hostIrq_regs ..))
  clear_value s2
  have h3 : Pends n i s3 := Pends.when h2 fun u hu => c (by decide) (hu.of_regs (hostIrq_regs ..))
  clear_value s3
  have h4 : Pends n i s4 := Pends.when h3 fun u hu =>
    Pends.ite (c (by decide) (hu.of_regs rfl)) (Pends.wr (pend_ne hn (by decide)) (c (by decide) hu))
  clear_value s4
  have h5 : Pends n i s5 := Pends.when h4 fun _ => Pends.aenNotice
  clear_value s5
  have h6 : Pends n i s6 := Pends.when h5 fun _ => Pends.aenNotice
  clear_value s6
  refine Pends.ite (Pends.when h6 fun u hu => Pends.forAll hu fun v r hr hv => ?_) h1
  exact Pends.ite (Pends.tailRecord hn (by have := (rangeFrom_bound hr).2; omega) hv) hv

theorem Pends.ownRise {n i : Nat} {a b : Bool} (hn : n < 20) (h : Pends n i s) : Pends n i (ownRise s a b) := by
  unfold Machine.ownRise
  extract_lets r9 s1 r10 s2
  have p : ∀ (u : State) (k : Nat), k < 32 → Pends n i u → Pends n i (Machine.pendSet u k true) := fun u k hk hu => by
    refine Pends.pendSet hn (by omega) ?_
    exact Pends.set hn (by omega) (by omega) hu
  have h1 : Pends n i s1 := Pends.when h fun u => p u 9 (by decide)
  clear_value s1
  have h2 : Pends n i s2 := Pends.when h1 fun u => p u 10 (by decide)
  clear_value s2
  exact Pends.when h2 fun u => p u 9 (by decide)

/-- A rise or pulse of a source sets its PEND bit (R416). -/
theorem sourceRise_pends {n : Nat} (hn : n < 640) : Pends (n / 32) (n % 32) (sourceRise s n) := by
  refine Pends.ownRise (by omega) (Pends.pendSet (by omega) hn ?_)
  unfold Pends Machine.wbit
  rw [rd_wr_same]
  exact bitOf_setBit (by omega) _ _

theorem sourceRise_keepsPend {n i src : Nat} (hn : n < 20) (hs : src < 640) (h : Pends n i s) : Pends n i (sourceRise s src) :=
  Pends.ownRise hn (Pends.pendSet hn hs (Pends.set hn (by omega) (by omega) h))

end Sys2Proof.Machine
end

