-- ==== Sys2Proof/Laws/Keeps.lean ====
section
/-! SUPPORT. What every operation of the device leaves: the queue as it is, what has left the device, and the invariant. -/
set_option Elab.async false
namespace Sys2Proof.Machine
open Sys2Proof

/-- From `s0` to `s` the queue stays, outputs are only added, and the invariant is kept. -/
structure Keeps (s0 s : State) : Prop where
  pending : s.pending = s0.pending
  out : s0.out <:+ s.out
  inv : Inv s0 → Inv s

theorem Keeps.refl (s : State) : Keeps s s := ⟨rfl, List.suffix_rfl, id⟩

theorem Keeps.trans {a b c : State} (h : Keeps a b) (g : Keeps b c) : Keeps a c :=
  ⟨g.pending.trans h.pending, h.out.trans g.out, fun i => g.inv (h.inv i)⟩

/-- A change of fields that the relation does not look at. -/
theorem Keeps.of_eq {s0 x y : State} (h : Keeps s0 x) (h1 : y.pending = x.pending) (h2 : y.out = x.out)
    (h3 : y.regs = x.regs) (h4 : y.evt.tails = x.evt.tails) (h5 : y.host.errLog = x.host.errLog)
    (h6 : y.prt.status = x.prt.status) : Keeps s0 y :=
  ⟨h1.trans h.pending, h2 ▸ h.out, fun i =>
    let j := h.inv i
    ⟨h3 ▸ j.regs, h4 ▸ j.tails, h5 ▸ j.errLog, h6 ▸ j.status⟩⟩

theorem Keeps.forAll {α : Type} {s0 s : State} {l : List α} {f : State → α → State} (h : Keeps s0 s)
    (hf : ∀ t x, Keeps s0 t → Keeps s0 (f t x)) : Keeps s0 (forAll l s f) := by
  unfold Machine.forAll
  induction l generalizing s with
  | nil => exact h
  | cons x l ih => exact ih (hf s x h)

theorem Keeps.when {b : Bool} {s0 s : State} {f : State → State} (h : Keeps s0 s)
    (hf : ∀ t, Keeps s0 t → Keeps s0 (f t)) : Keeps s0 (when b s f) := by
  unfold Machine.when
  split
  · exact hf s h
  · exact h

/-! ### Tables -/

theorem mem_tabPut {α : Type} {t : Tab α} {k : Nat} {v : α} {x : Nat × α} (h : x ∈ tabPut t k v) : x = (k, v) ∨ x ∈ t := by
  induction t with
  | nil => exact .inl (List.mem_singleton.1 h)
  | cons y t ih =>
    obtain ⟨j, w⟩ := y
    simp only [tabPut] at h
    split at h
    · simpa using h
    · split at h
      · rcases List.mem_cons.1 h with h | h
        · exact .inl h
        · exact .inr (List.mem_cons_of_mem _ h)
      · rcases List.mem_cons.1 h with h | h
        · exact .inr (h ▸ List.mem_cons_self)
        · exact (ih h).imp id (List.mem_cons_of_mem _)

theorem mem_tabDel {α : Type} {t : Tab α} {k : Nat} {x : Nat × α} (h : x ∈ tabDel t k) : x ∈ t := by
  induction t with
  | nil => exact h
  | cons y t ih =>
    obtain ⟨j, w⟩ := y
    simp only [tabDel] at h
    split at h
    · exact List.mem_cons_of_mem _ (ih h)
    · rcases List.mem_cons.1 h with h | h
      · exact h ▸ List.mem_cons_self
      · exact List.mem_cons_of_mem _ (ih h)

theorem tabPut_sorted {α : Type} {t : Tab α} {k : Nat} {v : α} (h : t.Pairwise (fun x y => x.1 < y.1)) :
    (tabPut t k v).Pairwise (fun x y => x.1 < y.1) := by
  induction t with
  | nil => exact List.pairwise_singleton _ _
  | cons y t ih =>
    obtain ⟨j, w⟩ := y
    rw [List.pairwise_cons] at h
    simp only [tabPut]
    split
    · rename_i hk
      rw [List.pairwise_cons]
      refine ⟨fun x hx => ?_, List.pairwise_cons.2 h⟩
      rcases List.mem_cons.1 hx with hx | hx
      · exact hx ▸ hk
      · exact Nat.lt_trans hk (h.1 x hx)
    · split
      · rename_i hk
        exact List.pairwise_cons.2 ⟨fun x hx => hk ▸ h.1 x hx, h.2⟩
      · rename_i h1 h2
        refine List.pairwise_cons.2 ⟨fun x hx => ?_, ih h.2⟩
        rcases mem_tabPut hx with hx | hx
        · exact hx ▸ (show j < k by omega)
        · exact h.1 x hx

theorem tabDel_sorted {α : Type} {t : Tab α} {k : Nat} (h : t.Pairwise (fun x y => x.1 < y.1)) :
    (tabDel t k).Pairwise (fun x y => x.1 < y.1) := by
  induction t with
  | nil => exact h
  | cons y t ih =>
    obtain ⟨j, w⟩ := y
    rw [List.pairwise_cons] at h
    simp only [tabDel]
    split
    · exact ih h.2
    · exact List.pairwise_cons.2 ⟨fun x hx => h.1 x (mem_tabDel hx), ih h.2⟩

/-- The register file stays canonical under a write. -/
theorem RegsWf.put {t : Tab Word} (h : RegsWf t) (a : Nat) (w : Word) : RegsWf (putReg t a w) := by
  unfold putReg
  split
  · exact ⟨tabDel_sorted h.1, fun x hx => h.2 x (mem_tabDel hx)⟩
  · rename_i hw
    refine ⟨tabPut_sorted h.1, fun x hx => ?_⟩
    rcases mem_tabPut hx with hx | hx
    · exact hx ▸ hw
    · exact h.2 x hx

theorem RegsWf.filter {t : Tab Word} (h : RegsWf t) (p : Nat × Word → Bool) : RegsWf (t.filter p) :=
  ⟨h.1.filter p, fun x hx => h.2 x (List.mem_filter.1 hx).1⟩

/-! ### The primitive operations -/

theorem wr_keeps {s0 s : State} {a : Nat} {w : Word} (h : Keeps s0 s) : Keeps s0 (wr s a w) :=
  ⟨h.pending, h.out, fun i =>
    let j := h.inv i
    ⟨j.regs.put _ _, j.tails, j.errLog, j.status⟩⟩

theorem emit_keeps {s0 s : State} {o : Out} (h : Keeps s0 s) : Keeps s0 (emit s o) :=
  ⟨h.pending, h.out.trans (List.suffix_cons _ _), fun i =>
    let j := h.inv i
    ⟨j.regs, j.tails, j.errLog, j.status⟩⟩

theorem emitAll_keeps {s0 s : State} {l : List Out} (h : Keeps s0 s) : Keeps s0 (emitAll s l) :=
  ⟨h.pending, h.out.trans (List.suffix_append _ _), fun i =>
    let j := h.inv i
    ⟨j.regs, j.tails, j.errLog, j.status⟩⟩

theorem clearRange_keeps {s0 s : State} {a b : Nat} (h : Keeps s0 s) : Keeps s0 (clearRange s a b) :=
  ⟨h.pending, h.out, fun i =>
    let j := h.inv i
    ⟨j.regs.filter _, j.tails, j.errLog, j.status⟩⟩

/-! ### Composing -/

theorem Keeps.ite {s0 a b : State} {c : Prop} [Decidable c] (ha : Keeps s0 a) (hb : Keeps s0 b) : Keeps s0 (if c then a else b) := by
  split <;> assumption
theorem Keeps.letS {s0 a b : State} (h : Keeps s0 a) (g : Keeps s0 a → Keeps s0 b) : Keeps s0 b := g h
theorem Keeps.foldl {α : Type} {s0 s : State} {l : List α} {f : State → α → State} (h : Keeps s0 s)
    (hf : ∀ t x, Keeps s0 t → Keeps s0 (f t x)) : Keeps s0 (l.foldl f s) := Keeps.forAll h hf
/-- A change of any fields but the registers, the outputs and the queue, that leaves the three bounded lists. -/
theorem Keeps.upd {s0 s : State} {latches free evt trs units tth fe zmp host pwr fls prt bgw det lanes slices slots engines spn
    shelf bal cch mem mcs} (h : Keeps s0 s) (h4 : evt.tails = s.evt.tails) (h5 : host.errLog = s.host.errLog)
    (h6 : prt.status = s.prt.status) : Keeps s0 ⟨s.regs, latches, s.out, free, evt, trs, units, tth, fe, zmp, host, pwr, fls, prt,
      bgw, det, lanes, slices, slots, engines, spn, shelf, bal, cch, mem, mcs, s.pending⟩ :=
  Keeps.of_eq h rfl rfl rfl h4 h5 h6

/-- A command answers a next state, and up to it the relation holds. -/
def Runs (s0 : State) (r : Res) : Prop := ∃ t, r = .next t ∧ Keeps s0 t

theorem Runs.next {s0 t : State} (h : Keeps s0 t) : Runs s0 (.next t) := ⟨t, rfl, h⟩

theorem Runs.ite {s0 : State} {a b : Res} {c : Prop} [Decidable c] (ha : Runs s0 a) (hb : Runs s0 b) : Runs s0 (if c then a else b) := by
  split <;> assumption

theorem Runs.letS {s0 a : State} {b : Res} (h : Keeps s0 a) (g : Keeps s0 a → Runs s0 b) : Runs s0 b := g h

/-- The state of a pair that an operation answers. -/
theorem Keeps.pair {α : Type} {s0 t : State} {p : State × α} {a : α} (h : Keeps s0 p.1) (e : p = (t, a)) : Keeps s0 t := by
  rw [e] at h
  exact h

/-- The first component of a pair. -/
theorem Keeps.mk1 {α : Type} {s0 t : State} {a : α} (h : Keeps s0 t) : Keeps s0 (t, a).1 := h

theorem tabGet_mem {α : Type} {d : α} {t : Tab α} {k : Nat} : tabGet d t k = d ∨ (k, tabGet d t k) ∈ t := by
  induction t with
  | nil => exact .inl rfl
  | cons x t ih =>
    obtain ⟨j, w⟩ := x
    unfold tabGet
    split
    · rename_i e
      exact .inr (e ▸ List.mem_cons_self)
    · exact ih.imp id (List.mem_cons_of_mem _)

end Sys2Proof.Machine
end

