-- ==== Sys2Proof/Laws/KeepsOps.lean ====
section
/-! SUPPORT. What every operation and every meaning leaves: the shared operations. One lemma for each, named after it: an operation keeps the
queue, only adds to what was sent and keeps the invariant; a meaning answers a next state that does. -/
set_option linter.tactic.unusedName false
set_option Elab.async false
namespace Sys2Proof.Machine
open Sys2Proof

theorem setBgw_keeps {s0 s : State} {f : BgwState → BgwState} (h : Keeps s0 s) : Keeps s0 (setBgw s f) := by
  unfold setBgw
  repeat' first
    | with_reducible assumption
    | with_reducible refine Keeps.upd ?_ rfl rfl rfl

theorem fset_keeps {s0 s : State} {a : Nat} {f : Fld} {v : Nat} (h : Keeps s0 s) : Keeps s0 (fset s a f v) := by
  unfold fset
  repeat' first
    | with_reducible assumption
    | with_reducible refine wr_keeps ?_

theorem abandonCal_keeps {s0 s : State} {acts : List Nat} (h : Keeps s0 s) : Keeps s0 (abandonCal s acts) := by
  unfold abandonCal
  repeat' first
    | with_reducible assumption
    | (extract_lets +onlyGivenNames x; first | (refine Keeps.letS (a := x) ?_ fun hx => ?_; rotate_left; clear_value x; revert x; rotate_left; unfold x; clear x) | (try unfold x; clear x))
    | with_reducible refine Keeps.forAll ?_ fun _ _ hy => ?_
    | with_reducible refine setBgw_keeps ?_
    | with_reducible refine fset_keeps ?_
    | with_reducible refine wr_keeps ?_

theorem wrN_keeps {s0 s : State} {a n : Nat} (h : Keeps s0 s) : Keeps s0 (wrN s a n) := by
  unfold wrN
  repeat' first
    | with_reducible assumption
    | with_reducible refine wr_keeps ?_

theorem cntRaw_keeps {s0 s : State} {a d : Nat} (h : Keeps s0 s) : Keeps s0 (cntRaw s a d) := by
  unfold cntRaw
  repeat' first
    | with_reducible assumption
    | (extract_lets +onlyGivenNames x; first | (refine Keeps.letS (a := x) ?_ fun hx => ?_; rotate_left; clear_value x; revert x; rotate_left; unfold x; clear x) | (try unfold x; clear x))
    | with_reducible refine fset_keeps ?_
    | with_reducible refine wrN_keeps ?_
    | with_reducible refine Keeps.ite ?_ ?_

theorem wbit_keeps {s0 s : State} {a i : Nat} {b : Bool} (h : Keeps s0 s) : Keeps s0 (wbit s a i b) := by
  unfold wbit
  repeat' first
    | with_reducible assumption
    | with_reducible refine wr_keeps ?_

theorem cntQuiet_keeps {s0 s : State} {a d : Nat} {b : EvtBlk} {sat : Nat} (h : Keeps s0 s) : Keeps s0 (cntQuiet s a d b sat) := by
  unfold cntQuiet
  repeat' first
    | with_reducible assumption
    | (extract_lets +onlyGivenNames x; first | (refine Keeps.letS (a := x) ?_ fun hx => ?_; rotate_left; clear_value x; revert x; rotate_left; unfold x; clear x) | (try unfold x; clear x))
    | intro _ _
    | with_reducible refine cntRaw_keeps ?_
    | with_reducible refine wbit_keeps ?_
    | with_reducible refine Keeps.ite ?_ ?_
    | with_reducible refine Keeps.upd ?_ rfl rfl rfl

theorem hostIrq_keeps {s0 s : State} {port vec : Nat} (h : Keeps s0 s) : Keeps s0 (hostIrq s port vec) := by
  unfold hostIrq
  repeat' first
    | with_reducible assumption
    | with_reducible refine emit_keeps ?_
    | with_reducible refine Keeps.ite ?_ ?_

theorem routerMsix_keeps {s0 s : State} {port vec : Nat} (h : Keeps s0 s) : Keeps s0 (routerMsix s port vec) := by
  unfold routerMsix
  repeat' first
    | with_reducible assumption
    | with_reducible refine cntQuiet_keeps ?_
    | with_reducible refine hostIrq_keeps ?_

theorem routerPeer_keeps {s0 s : State} {src : Nat} (h : Keeps s0 s) : Keeps s0 (routerPeer s src) := by
  unfold routerPeer
  repeat' first
    | with_reducible assumption
    | with_reducible refine cntQuiet_keeps ?_
    | with_reducible refine emit_keeps ?_
    | with_reducible refine wbit_keeps ?_
    | with_reducible refine Keeps.ite ?_ ?_

theorem aenPost_keeps {s0 s : State} {port type info log : Nat} (h : Keeps s0 s) : Keeps s0 (aenPost s port type info log) := by
  unfold aenPost
  repeat' first
    | with_reducible assumption
    | (extract_lets +onlyGivenNames x; first | (refine Keeps.letS (a := x) ?_ fun hx => ?_; rotate_left; clear_value x; revert x; rotate_left; unfold x; clear x) | (try unfold x; clear x))
    | with_reducible refine emit_keeps ?_
    | split
    | with_reducible refine Keeps.upd ?_ rfl rfl rfl

theorem drawn_keeps {s0 s : State} (h : Keeps s0 s) : Keeps s0 (drawn s) := by
  unfold drawn
  repeat' first
    | with_reducible assumption
    | with_reducible refine Keeps.upd ?_ rfl rfl rfl

theorem aenNotice_keeps {s0 s : State} {port : Nat} (h : Keeps s0 s) : Keeps s0 (aenNotice s port) := by
  unfold aenNotice
  repeat' first
    | with_reducible assumption
    | (extract_lets +onlyGivenNames x; first | (refine Keeps.letS (a := x) ?_ fun hx => ?_; rotate_left; clear_value x; revert x; rotate_left; unfold x; clear x) | (try unfold x; clear x))
    | with_reducible refine aenPost_keeps ?_
    | with_reducible refine drawn_keeps ?_
    | with_reducible refine Keeps.ite ?_ ?_
    | with_reducible refine Keeps.upd ?_ rfl rfl rfl

theorem tailDrop_keeps {s0 s : State} {r : Nat} (h : Keeps s0 s) : Keeps s0 (tailDrop s r) := by
  unfold tailDrop
  repeat' first
    | with_reducible assumption
    | with_reducible refine cntQuiet_keeps ?_

theorem fsetb_keeps {s0 s : State} {a : Nat} {f : Fld} {b : Bool} (h : Keeps s0 s) : Keeps s0 (fsetb s a f b) := by
  unfold fsetb
  repeat' first
    | with_reducible assumption
    | with_reducible refine fset_keeps ?_

theorem tailSet_keeps {s0 s : State} {r : Nat} {l : List TailRec} (hl : Inv s0 → l.length ≤ 2048) (h : Keeps s0 s) :
    Keeps s0 (tailSet s r l) := by
  unfold tailSet
  refine fset_keeps (fsetb_keeps ⟨h.pending, h.out, fun i => ?_⟩)
  refine ⟨(h.inv i).regs, fun x hx => ?_, (h.inv i).errLog, (h.inv i).status⟩
  rcases mem_tabPut hx with e | e
  · exact e ▸ hl i
  · exact (h.inv i).tails x e

theorem tailAppend_keeps {s0 s : State} {src r : Nat} (hl : Inv s0 → (tailRecs s r).length < 2048) (h : Keeps s0 s) :
    Keeps s0 (tailAppend s src r) := by
  unfold tailAppend
  extract_lets x s1
  have g : Keeps s0 s1 := tailSet_keeps (fun i => by
    have := hl i
    simp only [x, List.length_append, List.length_singleton]
    omega) (drawn_keeps h)
  clear_value s1
  exact Keeps.ite (wbit_keeps g) g

theorem tailRecord_keeps {s0 s : State} {src r : Nat} (h : Keeps s0 s) : Keeps s0 (tailRecord s src r) := by
  unfold tailRecord
  refine Keeps.ite (tailDrop_keeps h) ?_
  extract_lets l
  have hl : Inv s0 → l.length ≤ 2048 := fun i => by
    rcases tabGet_mem (d := []) (t := s.evt.tails) (k := r) with e | e
    · exact (show l = [] from e) ▸ Nat.zero_le _
    · exact (h.inv i).tails _ e
  split
  · rename_i t e
    have hp : l ≠ [] := by
      intro z
      rw [z] at e
      cases e
    refine Keeps.ite (Keeps.ite (tailSet_keeps (fun i => ?_) h) (tailDrop_keeps h)) ?_
    · have := hl i
      have := List.length_pos_iff.2 hp
      simp only [List.length_append, List.length_dropLast, List.length_singleton]
      omega
    · split
      · exact tailDrop_keeps h
      · exact tailAppend_keeps (fun _ => by show l.length < 2048; omega) h
  · rename_i e
    have hp : tailRecs s r = [] := List.getLast?_eq_none_iff.1 e
    exact tailAppend_keeps (fun _ => by rw [hp]; decide) h

theorem pendSet_keeps {s0 s : State} {src : Nat} {occurrence : Bool} (h : Keeps s0 s) : Keeps s0 (pendSet s src occurrence) := by
  unfold pendSet
  repeat' first
    | with_reducible assumption
    | (extract_lets +onlyGivenNames x; first | (refine Keeps.letS (a := x) ?_ fun hx => ?_; rotate_left; clear_value x; revert x; rotate_left; unfold x; clear x) | (try unfold x; clear x))
    | intro _ _
    | with_reducible refine cntQuiet_keeps ?_
    | with_reducible refine wbit_keeps ?_
    | with_reducible refine Keeps.when ?_ fun _ hy => ?_
    | with_reducible refine routerMsix_keeps ?_
    | with_reducible refine routerPeer_keeps ?_
    | with_reducible refine aenNotice_keeps ?_
    | with_reducible refine Keeps.forAll ?_ fun _ _ hy => ?_
    | with_reducible refine tailRecord_keeps ?_
    | with_reducible refine Keeps.ite ?_ ?_

theorem ownRise_keeps {s0 s : State} {old9 old10 : Bool} (h : Keeps s0 s) : Keeps s0 (ownRise s old9 old10) := by
  unfold ownRise
  repeat' first
    | with_reducible assumption
    | (extract_lets +onlyGivenNames x; first | (refine Keeps.letS (a := x) ?_ fun hx => ?_; rotate_left; clear_value x; revert x; rotate_left; unfold x; clear x) | (try unfold x; clear x))
    | intro _ _
    | with_reducible refine Keeps.when ?_ fun _ hy => ?_
    | with_reducible refine pendSet_keeps ?_

theorem sourceRise_keeps {s0 s : State} {src : Nat} (h : Keeps s0 s) : Keeps s0 (sourceRise s src) := by
  unfold sourceRise
  repeat' first
    | with_reducible assumption
    | with_reducible refine ownRise_keeps ?_
    | with_reducible refine pendSet_keeps ?_

theorem risesOf_keeps {s0 s old : State} {b : EvtBlk} (h : Keeps s0 s) : Keeps s0 (risesOf s old b) := by
  unfold risesOf
  repeat' first
    | with_reducible assumption
    | with_reducible refine ownRise_keeps ?_
    | with_reducible refine Keeps.forAll ?_ fun _ _ hy => ?_
    | with_reducible refine sourceRise_keeps ?_
    | with_reducible refine Keeps.ite ?_ ?_
    | split

theorem count_keeps {s0 s : State} {a d : Nat} {b : EvtBlk} {sat : Nat} (h : Keeps s0 s) : Keeps s0 (count s a d b sat) := by
  unfold count
  repeat' first
    | with_reducible assumption
    | (extract_lets +onlyGivenNames x; first | (refine Keeps.letS (a := x) ?_ fun hx => ?_; rotate_left; clear_value x; revert x; rotate_left; unfold x; clear x) | (try unfold x; clear x))
    | intro _ _
    | with_reducible refine cntQuiet_keeps ?_
    | with_reducible refine risesOf_keeps ?_

theorem evtSet_keeps {s0 s : State} {b : EvtBlk} {i : Nat} (h : Keeps s0 s) : Keeps s0 (evtSet s b i) := by
  unfold evtSet
  repeat' first
    | with_reducible assumption
    | with_reducible refine risesOf_keeps ?_
    | with_reducible refine wbit_keeps ?_

theorem domRequest_keeps {s0 s : State} {n : Nat} (h : Keeps s0 s) : Keeps s0 (domRequest s n) := by
  unfold domRequest
  repeat' first
    | with_reducible assumption
    | (extract_lets +onlyGivenNames x; first | (refine Keeps.letS (a := x) ?_ fun hx => ?_; rotate_left; clear_value x; revert x; rotate_left; unfold x; clear x) | (try unfold x; clear x))
    | with_reducible refine Keeps.ite ?_ ?_
    | with_reducible refine Keeps.upd ?_ rfl rfl rfl

theorem fseqOff_keeps {s0 s : State} {n : Nat} (h : Keeps s0 s) : Keeps s0 (fseqOff s n) := by
  unfold fseqOff
  repeat' first
    | with_reducible assumption
    | with_reducible refine fset_keeps ?_
    | with_reducible refine Keeps.ite ?_ ?_

theorem domRelease_keeps {s0 s : State} {n : Nat} (h : Keeps s0 s) : Keeps s0 (domRelease s n) := by
  unfold domRelease
  repeat' first
    | with_reducible assumption
    | (extract_lets +onlyGivenNames x; first | (refine Keeps.letS (a := x) ?_ fun hx => ?_; rotate_left; clear_value x; revert x; rotate_left; unfold x; clear x) | (try unfold x; clear x))
    | intro _ _
    | with_reducible refine wbit_keeps ?_
    | with_reducible refine fseqOff_keeps ?_
    | with_reducible refine Keeps.ite ?_ ?_
    | with_reducible refine Keeps.upd ?_ rfl rfl rfl

theorem sliceSync_keeps {s0 s : State} {a : Nat} (h : Keeps s0 s) : Keeps s0 (sliceSync s a) := by
  unfold sliceSync
  repeat' first
    | with_reducible assumption
    | with_reducible refine domRequest_keeps ?_
    | with_reducible refine domRelease_keeps ?_
    | with_reducible refine Keeps.ite ?_ ?_

theorem setSpn_keeps {s0 s : State} {p : Nat} {f : SpnPort → SpnPort} (h : Keeps s0 s) : Keeps s0 (setSpn s p f) := by
  unfold setSpn
  repeat' first
    | with_reducible assumption
    | with_reducible refine Keeps.upd ?_ rfl rfl rfl

theorem endPair_keeps {s0 s : State} {p : Nat} (h : Keeps s0 s) : Keeps s0 (endPair s p) := by
  unfold endPair
  repeat' first
    | with_reducible assumption
    | (extract_lets +onlyGivenNames x; first | (refine Keeps.letS (a := x) ?_ fun hx => ?_; rotate_left; clear_value x; revert x; rotate_left; unfold x; clear x) | (try unfold x; clear x))
    | with_reducible refine Keeps.forAll ?_ fun _ _ hy => ?_
    | with_reducible refine fsetb_keeps ?_
    | with_reducible refine setSpn_keeps ?_
    | with_reducible refine Keeps.ite ?_ ?_

theorem setSlane_keeps {s0 s : State} {a l : Nat} {f : ServoLane → ServoLane} (h : Keeps s0 s) : Keeps s0 (setSlane s a l f) := by
  unfold setSlane
  repeat' first
    | with_reducible assumption
    | with_reducible refine Keeps.upd ?_ rfl rfl rfl

theorem recordPeak_keeps {s0 s : State} {a l : Nat} (h : Keeps s0 s) : Keeps s0 (recordPeak s a l) := by
  unfold recordPeak
  repeat' first
    | with_reducible assumption
    | (extract_lets +onlyGivenNames x; first | (refine Keeps.letS (a := x) ?_ fun hx => ?_; rotate_left; clear_value x; revert x; rotate_left; unfold x; clear x) | (try unfold x; clear x))
    | intro _ _
    | with_reducible refine fset_keeps ?_
    | with_reducible refine evtSet_keeps ?_
    | with_reducible refine setSlane_keeps ?_
    | with_reducible refine Keeps.ite ?_ ?_

theorem setSlice_keeps {s0 s : State} {a : Nat} {f : ServoSlice → ServoSlice} (h : Keeps s0 s) : Keeps s0 (setSlice s a f) := by
  unfold setSlice
  repeat' first
    | with_reducible assumption
    | with_reducible refine Keeps.upd ?_ rfl rfl rfl

theorem syncPend_keeps {s0 s : State} {a : Nat} (h : Keeps s0 s) : Keeps s0 (syncPend s a) := by
  unfold syncPend
  repeat' first
    | with_reducible assumption
    | with_reducible refine fset_keeps ?_

theorem addPend_keeps {s0 s : State} {a : Nat} {x1 : PendSec} (h : Keeps s0 s) : Keeps s0 (addPend s a x1) := by
  unfold addPend
  repeat' first
    | with_reducible assumption
    | (extract_lets +onlyGivenNames x; first | (refine Keeps.letS (a := x) ?_ fun hx => ?_; rotate_left; clear_value x; revert x; rotate_left; unfold x; clear x) | (try unfold x; clear x))
    | with_reducible refine syncPend_keeps ?_
    | with_reducible refine setSlice_keeps ?_

theorem openSpan_keeps {s0 s : State} {a l c : Nat} (h : Keeps s0 s) : Keeps s0 (openSpan s a l c) := by
  unfold openSpan
  repeat' first
    | with_reducible assumption
    | (extract_lets +onlyGivenNames x; first | (refine Keeps.letS (a := x) ?_ fun hx => ?_; rotate_left; clear_value x; revert x; rotate_left; unfold x; clear x) | (try unfold x; clear x))
    | intro _ _
    | with_reducible refine setSlane_keeps ?_
    | with_reducible refine Keeps.forAll ?_ fun _ _ hy => ?_
    | with_reducible refine setSlice_keeps ?_
    | with_reducible refine addPend_keeps ?_
    | with_reducible refine Keeps.ite ?_ ?_

theorem setWinhMask_keeps {s0 s : State} {p m : Nat} (h : Keeps s0 s) : Keeps s0 (setWinhMask s p m) := by
  unfold setWinhMask
  repeat' first
    | with_reducible assumption
    | (extract_lets +onlyGivenNames x; first | (refine Keeps.letS (a := x) ?_ fun hx => ?_; rotate_left; clear_value x; revert x; rotate_left; unfold x; clear x) | (try unfold x; clear x))
    | intro _ _
    | with_reducible refine fset_keeps ?_
    | with_reducible refine emit_keeps ?_
    | with_reducible refine Keeps.ite ?_ ?_

theorem syncInh_keeps {s0 s : State} {a : Nat} (h : Keeps s0 s) : Keeps s0 (syncInh s a) := by
  unfold syncInh
  repeat' first
    | with_reducible assumption
    | (extract_lets +onlyGivenNames x; first | (refine Keeps.letS (a := x) ?_ fun hx => ?_; rotate_left; clear_value x; revert x; rotate_left; unfold x; clear x) | (try unfold x; clear x))
    | intro _ _
    | with_reducible refine setWinhMask_keeps ?_
    | with_reducible refine fset_keeps ?_
    | with_reducible refine evtSet_keeps ?_
    | with_reducible refine Keeps.ite ?_ ?_

theorem setCause_keeps {s0 s : State} {a l c : Nat} (h : Keeps s0 s) : Keeps s0 (setCause s a l c) := by
  unfold setCause
  repeat' first
    | with_reducible assumption
    | (extract_lets +onlyGivenNames x; first | (refine Keeps.letS (a := x) ?_ fun hx => ?_; rotate_left; clear_value x; revert x; rotate_left; unfold x; clear x) | (try unfold x; clear x))
    | intro _ _
    | with_reducible refine setSlane_keeps ?_
    | with_reducible refine recordPeak_keeps ?_
    | with_reducible refine fset_keeps ?_
    | with_reducible refine openSpan_keeps ?_
    | with_reducible refine count_keeps ?_
    | with_reducible refine syncInh_keeps ?_
    | with_reducible refine Keeps.ite ?_ ?_

theorem setSrc_keeps {s0 s : State} {a l c : Nat} {b : Bool} (h : Keeps s0 s) : Keeps s0 (setSrc s a l c b) := by
  unfold setSrc
  repeat' first
    | with_reducible assumption
    | (extract_lets +onlyGivenNames x; first | (refine Keeps.letS (a := x) ?_ fun hx => ?_; rotate_left; clear_value x; revert x; rotate_left; unfold x; clear x) | (try unfold x; clear x))
    | with_reducible refine setCause_keeps ?_
    | with_reducible refine setSlane_keeps ?_
    | with_reducible refine Keeps.ite ?_ ?_

theorem sync5_keeps {s0 s : State} {p : Nat} (h : Keeps s0 s) : Keeps s0 (sync5 s p) := by
  unfold sync5
  repeat' first
    | with_reducible assumption
    | (extract_lets +onlyGivenNames x; first | (refine Keeps.letS (a := x) ?_ fun hx => ?_; rotate_left; clear_value x; revert x; rotate_left; unfold x; clear x) | (try unfold x; clear x))
    | intro _ _
    | with_reducible refine Keeps.forAll ?_ fun _ _ hy => ?_
    | with_reducible refine setSrc_keeps ?_
    | with_reducible refine fsetb_keeps ?_

theorem syncShelf_keeps {s0 s : State} (h : Keeps s0 s) : Keeps s0 (syncShelf s) := by
  unfold syncShelf
  repeat' first
    | with_reducible assumption
    | (extract_lets +onlyGivenNames x; first | (refine Keeps.letS (a := x) ?_ fun hx => ?_; rotate_left; clear_value x; revert x; rotate_left; unfold x; clear x) | (try unfold x; clear x))
    | with_reducible refine fset_keeps ?_

theorem spnSlotMode_keeps {s0 s : State} {p mode man : Nat} (h : Keeps s0 s) : Keeps s0 (spnSlotMode s p mode man) := by
  unfold spnSlotMode
  repeat' first
    | with_reducible assumption
    | (extract_lets +onlyGivenNames x; first | (refine Keeps.letS (a := x) ?_ fun hx => ?_; rotate_left; clear_value x; revert x; rotate_left; unfold x; clear x) | (try unfold x; clear x))
    | intro _ _
    | with_reducible refine fset_keeps ?_
    | with_reducible refine wrN_keeps ?_
    | with_reducible refine Keeps.ite ?_ ?_

theorem slotFollows_keeps {s0 s : State} {p st : Nat} (h : Keeps s0 s) : Keeps s0 (slotFollows s p st) := by
  unfold slotFollows
  repeat' first
    | with_reducible assumption
    | with_reducible refine spnSlotMode_keeps ?_
    | with_reducible refine Keeps.ite ?_ ?_

theorem setSpnState_keeps {s0 s : State} {p st : Nat} (h : Keeps s0 s) : Keeps s0 (setSpnState s p st) := by
  unfold setSpnState
  repeat' first
    | with_reducible assumption
    | (extract_lets +onlyGivenNames x; first | (refine Keeps.letS (a := x) ?_ fun hx => ?_; rotate_left; clear_value x; revert x; rotate_left; unfold x; clear x) | (try unfold x; clear x))
    | intro _ _
    | with_reducible refine evtSet_keeps ?_
    | with_reducible refine fset_keeps ?_
    | with_reducible refine sliceSync_keeps ?_
    | with_reducible refine wrN_keeps ?_
    | with_reducible refine endPair_keeps ?_
    | with_reducible refine setSpn_keeps ?_
    | with_reducible refine sync5_keeps ?_
    | with_reducible refine syncShelf_keeps ?_
    | with_reducible refine slotFollows_keeps ?_
    | with_reducible refine Keeps.ite ?_ ?_
    | with_reducible refine Keeps.upd ?_ rfl rfl rfl

theorem setTth_keeps {s0 s : State} {p : Nat} {f : TthPort → TthPort} (h : Keeps s0 s) : Keeps s0 (setTth s p f) := by
  unfold setTth
  repeat' first
    | with_reducible assumption
    | with_reducible refine Keeps.upd ?_ rfl rfl rfl

theorem sendFlit_keeps {s0 s : State} {p ftype chan flags tstamp : Nat} {data : List Nat} (h : Keeps s0 s) : Keeps s0 (sendFlit s p ftype chan flags tstamp data) := by
  unfold sendFlit
  repeat' first
    | with_reducible assumption
    | (extract_lets +onlyGivenNames x; first | (refine Keeps.letS (a := x) ?_ fun hx => ?_; rotate_left; clear_value x; revert x; rotate_left; unfold x; clear x) | (try unfold x; clear x))
    | with_reducible refine emit_keeps ?_
    | with_reducible refine setTth_keeps ?_

theorem flushCmds_keeps {s0 : State} {n : Nat} {s : State} {p : Nat} (h : Keeps s0 s) : Keeps s0 (flushCmds n s p) := by
  induction n generalizing s with
  | zero => exact h
  | succ n ih =>
    unfold flushCmds
    split
    · exact h
    · exact Keeps.ite h (ih (sendFlit_keeps (fset_keeps (setTth_keeps h))))

theorem sendCmd_keeps {s0 s : State} {p : Nat} {entries : List CmdEntry} (h : Keeps s0 s) : Keeps s0 (sendCmd s p entries) := by
  unfold sendCmd
  repeat' first
    | with_reducible assumption
    | (extract_lets +onlyGivenNames x; first | (refine Keeps.letS (a := x) ?_ fun hx => ?_; rotate_left; clear_value x; revert x; rotate_left; unfold x; clear x) | (try unfold x; clear x))
    | with_reducible refine flushCmds_keeps ?_
    | with_reducible refine setTth_keeps ?_
    | with_reducible refine Keeps.ite ?_ ?_

theorem sendDrive_keeps {s0 s : State} {p d v : Nat} {more : optParam (List CmdEntry) []} (h : Keeps s0 s) : Keeps s0 (sendDrive s p d v more) := by
  unfold sendDrive
  repeat' first
    | with_reducible assumption
    | (extract_lets +onlyGivenNames x; first | (refine Keeps.letS (a := x) ?_ fun hx => ?_; rotate_left; clear_value x; revert x; rotate_left; unfold x; clear x) | (try unfold x; clear x))
    | intro _ _
    | with_reducible refine fset_keeps ?_
    | with_reducible refine count_keeps ?_
    | with_reducible refine sendCmd_keeps ?_
    | with_reducible refine Keeps.ite ?_ ?_

theorem goShort_keeps {s0 s : State} {p : Nat} {alignNext : Bool} (h : Keeps s0 s) : Keeps s0 (goShort s p alignNext) := by
  unfold goShort
  repeat' first
    | with_reducible assumption
    | (extract_lets +onlyGivenNames x; first | (refine Keeps.letS (a := x) ?_ fun hx => ?_; rotate_left; clear_value x; revert x; rotate_left; unfold x; clear x) | (try unfold x; clear x))
    | intro _ _
    | with_reducible refine count_keeps ?_
    | with_reducible refine setSpnState_keeps ?_
    | with_reducible refine setSpn_keeps ?_
    | with_reducible refine sendDrive_keeps ?_

theorem sendRegen_keeps {s0 s : State} {p : Nat} {more : optParam (List CmdEntry) []} (h : Keeps s0 s) : Keeps s0 (sendRegen s p more) := by
  unfold sendRegen
  repeat' first
    | with_reducible assumption
    | (extract_lets +onlyGivenNames x; first | (refine Keeps.letS (a := x) ?_ fun hx => ?_; rotate_left; clear_value x; revert x; rotate_left; unfold x; clear x) | (try unfold x; clear x))
    | with_reducible refine sendDrive_keeps ?_
    | with_reducible refine drawn_keeps ?_

theorem askRegen_keeps {s0 s : State} {p : Nat} {more : optParam (List CmdEntry) []} (h : Keeps s0 s) : Keeps s0 (askRegen s p more) := by
  unfold askRegen
  repeat' first
    | with_reducible assumption
    | (extract_lets +onlyGivenNames x; first | (refine Keeps.letS (a := x) ?_ fun hx => ?_; rotate_left; clear_value x; revert x; rotate_left; unfold x; clear x) | (try unfold x; clear x))
    | intro _ _
    | with_reducible refine sendRegen_keeps ?_
    | with_reducible refine count_keeps ?_
    | with_reducible refine sendDrive_keeps ?_
    | with_reducible refine Keeps.ite ?_ ?_
    | with_reducible refine Keeps.upd ?_ rfl rfl rfl

theorem spnSlotRef_keeps {s0 s : State} {p ref : Nat} (h : Keeps s0 s) : Keeps s0 (spnSlotRef s p ref) := by
  unfold spnSlotRef
  repeat' first
    | with_reducible assumption
    | with_reducible refine wrN_keeps ?_

theorem goBrake_keeps {s0 s : State} {p : Nat} (h : Keeps s0 s) : Keeps s0 (goBrake s p) := by
  unfold goBrake
  repeat' first
    | with_reducible assumption
    | with_reducible refine goShort_keeps ?_
    | with_reducible refine askRegen_keeps ?_
    | with_reducible refine spnSlotRef_keeps ?_
    | with_reducible refine setSpnState_keeps ?_
    | with_reducible refine Keeps.ite ?_ ?_

theorem goStopped_keeps {s0 s : State} {p : Nat} (h : Keeps s0 s) : Keeps s0 (goStopped s p) := by
  unfold goStopped
  repeat' first
    | with_reducible assumption
    | (extract_lets +onlyGivenNames x; first | (refine Keeps.letS (a := x) ?_ fun hx => ?_; rotate_left; clear_value x; revert x; rotate_left; unfold x; clear x) | (try unfold x; clear x))
    | intro _ _
    | with_reducible refine setSpnState_keeps ?_
    | with_reducible refine setSpn_keeps ?_
    | with_reducible refine spnSlotMode_keeps ?_

theorem tsbSend_keeps {s0 s : State} {p : Nat} {r : TsbReq} (h : Keeps s0 s) : Keeps s0 (tsbSend s p r) := by
  unfold tsbSend
  repeat' first
    | with_reducible assumption
    | (extract_lets +onlyGivenNames x; first | (refine Keeps.letS (a := x) ?_ fun hx => ?_; rotate_left; clear_value x; revert x; rotate_left; unfold x; clear x) | (try unfold x; clear x))
    | with_reducible refine emit_keeps ?_
    | with_reducible refine setTth_keeps ?_
    | with_reducible refine Keeps.ite ?_ ?_

theorem tsbWrite_keeps {s0 s : State} {p purpose addr : Nat} {data : List Nat} (h : Keeps s0 s) : Keeps s0 (tsbWrite s p purpose addr data) := by
  unfold tsbWrite
  repeat' first
    | with_reducible assumption
    | with_reducible refine tsbSend_keeps ?_

theorem tokenCmd_keeps {s0 s : State} {p cmd : Nat} (h : Keeps s0 s) : Keeps s0 (tokenCmd s p cmd) := by
  unfold tokenCmd
  repeat' first
    | with_reducible assumption
    | with_reducible refine tsbWrite_keeps ?_

theorem clusterDemand_keeps {s0 s : State} (h : Keeps s0 s) : Keeps s0 (clusterDemand s) := by
  unfold clusterDemand
  repeat' first
    | with_reducible assumption
    | (extract_lets +onlyGivenNames x; first | (refine Keeps.letS (a := x) ?_ fun hx => ?_; rotate_left; clear_value x; revert x; rotate_left; unfold x; clear x) | (try unfold x; clear x))
    | with_reducible refine domRequest_keeps ?_
    | with_reducible refine Keeps.ite ?_ ?_
    | split

theorem queueSync_keeps {s0 s : State} (h : Keeps s0 s) : Keeps s0 (queueSync s) := by
  unfold queueSync
  repeat' first
    | with_reducible assumption
    | with_reducible refine wrN_keeps ?_

theorem setDet_keeps {s0 s : State} {f : DetState → DetState} (h : Keeps s0 s) : Keeps s0 (setDet s f) := by
  unfold setDet
  repeat' first
    | with_reducible assumption
    | with_reducible refine Keeps.upd ?_ rfl rfl rfl

theorem addJob_keeps {s0 s : State} {age n cls what sec : Nat} (h : Keeps s0 s) : Keeps s0 (addJob s age n cls what sec) := by
  unfold addJob
  repeat' first
    | with_reducible assumption
    | (extract_lets +onlyGivenNames x; first | (refine Keeps.letS (a := x) ?_ fun hx => ?_; rotate_left; clear_value x; revert x; rotate_left; unfold x; clear x) | (try unfold x; clear x))
    | with_reducible refine clusterDemand_keeps ?_
    | with_reducible refine queueSync_keeps ?_
    | with_reducible refine setDet_keeps ?_

theorem setMem_keeps {s0 s : State} {f : MemState → MemState} (h : Keeps s0 s) : Keeps s0 (setMem s f) := by
  unfold setMem
  repeat' first
    | with_reducible assumption
    | with_reducible refine Keeps.upd ?_ rfl rfl rfl

theorem dropBad_keeps {s0 s : State} {rgn own : Nat} (h : Keeps s0 s) : Keeps s0 (dropBad s rgn own) := by
  unfold dropBad
  repeat' first
    | with_reducible assumption
    | with_reducible refine setMem_keeps ?_

theorem addPoison_keeps {s0 s : State} {rgn own addr : Nat} {mirrorBad : Bool} (h : Keeps s0 s) : Keeps s0 (addPoison s rgn own addr mirrorBad) := by
  unfold addPoison
  repeat' first
    | with_reducible assumption
    | (extract_lets +onlyGivenNames x; first | (refine Keeps.letS (a := x) ?_ fun hx => ?_; rotate_left; clear_value x; revert x; rotate_left; unfold x; clear x) | (try unfold x; clear x))
    | with_reducible refine setMem_keeps ?_
    | with_reducible refine dropBad_keeps ?_

theorem flipFire_keeps {s0 s : State} {addr : Nat} (h : Keeps s0 s) : Keeps s0 (flipFire s addr) := by
  unfold flipFire
  repeat' first
    | with_reducible assumption
    | (extract_lets +onlyGivenNames x; first | (refine Keeps.letS (a := x) ?_ fun hx => ?_; rotate_left; clear_value x; revert x; rotate_left; unfold x; clear x) | (try unfold x; clear x))
    | intro _ _
    | with_reducible refine fsetb_keeps ?_
    | with_reducible refine setMem_keeps ?_
    | with_reducible refine evtSet_keeps ?_
    | with_reducible refine wrN_keeps ?_
    | with_reducible refine Keeps.ite ?_ ?_

theorem fadd_keeps {s0 s : State} {a : Nat} {f : Fld} {d : Nat} (h : Keeps s0 s) : Keeps s0 (fadd s a f d) := by
  unfold fadd
  repeat' first
    | with_reducible assumption
    | with_reducible refine fset_keeps ?_

theorem syncCelog_keeps {s0 s : State} (h : Keeps s0 s) : Keeps s0 (syncCelog s) := by
  unfold syncCelog
  repeat' first
    | with_reducible assumption
    | with_reducible refine fset_keeps ?_

theorem memError_keeps {s0 s : State} {space rgn addr pos : Nat} {ue : Bool} (h : Keeps s0 s) : Keeps s0 (memError s space rgn addr pos ue) := by
  unfold memError
  repeat' first
    | with_reducible assumption
    | (extract_lets +onlyGivenNames x; first | (refine Keeps.letS (a := x) ?_ fun hx => ?_; rotate_left; clear_value x; revert x; rotate_left; unfold x; clear x) | (try unfold x; clear x))
    | intro _ _
    | with_reducible refine count_keeps ?_
    | with_reducible refine evtSet_keeps ?_
    | with_reducible refine wrN_keeps ?_
    | with_reducible refine fadd_keeps ?_
    | with_reducible refine fset_keeps ?_
    | with_reducible refine fsetb_keeps ?_
    | with_reducible refine syncCelog_keeps ?_
    | with_reducible refine wr_keeps ?_
    | with_reducible refine Keeps.ite ?_ ?_
    | split

theorem flipNow_keeps {s0 s : State} {space lo hi : Nat} {page : Option Nat} (h : Keeps s0 s) : Keeps s0 (flipNow s space lo hi page).1 := by
  unfold flipNow
  repeat' first
    | with_reducible assumption
    | split
    | dsimp only
    | (extract_lets +onlyGivenNames x; first | (refine Keeps.letS (a := x) ?_ fun hx => ?_; rotate_left; clear_value x; revert x; rotate_left; unfold x; clear x) | (try unfold x; clear x))
    | with_reducible refine drawn_keeps ?_
    | with_reducible refine flipFire_keeps ?_
    | with_reducible refine memError_keeps ?_

theorem setAux_keeps {s0 s : State} {u : Nat} {f : UnitAux → UnitAux} (h : Keeps s0 s) : Keeps s0 (setAux s u f) := by
  unfold setAux
  repeat' first
    | with_reducible assumption
    | with_reducible refine Keeps.upd ?_ rfl rfl rfl

theorem unitEvt_keeps {s0 s : State} {u : Nat} (h : Keeps s0 s) : Keeps s0 (unitEvt s u) := by
  unfold unitEvt
  repeat' first
    | with_reducible assumption
    | (extract_lets +onlyGivenNames x; first | (refine Keeps.letS (a := x) ?_ fun hx => ?_; rotate_left; clear_value x; revert x; rotate_left; unfold x; clear x) | (try unfold x; clear x))
    | intro _ _
    | with_reducible refine fsetb_keeps ?_
    | with_reducible refine sourceRise_keeps ?_
    | with_reducible refine Keeps.ite ?_ ?_

theorem setUGrade_keeps {s0 s : State} {u g c : Nat} (h : Keeps s0 s) : Keeps s0 (setUGrade s u g c) := by
  unfold setUGrade
  repeat' first
    | with_reducible assumption
    | (extract_lets +onlyGivenNames x; first | (refine Keeps.letS (a := x) ?_ fun hx => ?_; rotate_left; clear_value x; revert x; rotate_left; unfold x; clear x) | (try unfold x; clear x))
    | intro _ _
    | with_reducible refine fset_keeps ?_
    | with_reducible refine unitEvt_keeps ?_
    | with_reducible refine Keeps.ite ?_ ?_

theorem setUState_keeps {s0 s : State} {u st : Nat} (h : Keeps s0 s) : Keeps s0 (setUState s u st) := by
  unfold setUState
  repeat' first
    | with_reducible assumption
    | with_reducible refine unitEvt_keeps ?_
    | with_reducible refine fset_keeps ?_
    | with_reducible refine Keeps.ite ?_ ?_

theorem recompute_keeps {s0 s : State} {u : Nat} (h : Keeps s0 s) : Keeps s0 (recompute s u) := by
  unfold recompute
  repeat' first
    | with_reducible assumption
    | (extract_lets +onlyGivenNames x; first | (refine Keeps.letS (a := x) ?_ fun hx => ?_; rotate_left; clear_value x; revert x; rotate_left; unfold x; clear x) | (try unfold x; clear x))
    | intro _ _
    | with_reducible refine Keeps.when ?_ fun _ hy => ?_
    | with_reducible refine setAux_keeps ?_
    | with_reducible refine fset_keeps ?_
    | with_reducible refine setUGrade_keeps ?_
    | with_reducible refine setUState_keeps ?_
    | with_reducible refine Keeps.ite ?_ ?_
    | split

theorem gradeUnit_keeps {s0 s : State} {u g cause : Nat} (h : Keeps s0 s) : Keeps s0 (gradeUnit s u g cause) := by
  unfold gradeUnit
  repeat' first
    | with_reducible assumption
    | (extract_lets +onlyGivenNames x; first | (refine Keeps.letS (a := x) ?_ fun hx => ?_; rotate_left; clear_value x; revert x; rotate_left; unfold x; clear x) | (try unfold x; clear x))
    | with_reducible refine recompute_keeps ?_
    | with_reducible refine setAux_keeps ?_
    | with_reducible refine Keeps.ite ?_ ?_

theorem rootGrade_keeps {s0 s : State} {g cause : Nat} (h : Keeps s0 s) : Keeps s0 (rootGrade s g cause) := by
  unfold rootGrade
  repeat' first
    | with_reducible assumption
    | with_reducible refine gradeUnit_keeps ?_

theorem adminCmd_keeps {s0 s : State} {x1 : HPort} {f : State → State} (hf : ∀ y0, Keeps s0 y0 → Keeps s0 (f y0)) (h : Keeps s0 s) : Keeps s0 (adminCmd s x1 f) := by
  unfold adminCmd
  repeat' first
    | with_reducible assumption
    | with_reducible refine hf _ ?_
    | with_reducible refine Keeps.ite ?_ ?_

theorem mbxNotify_keeps {s0 s : State} {party c vec : Nat} {abort : Bool} (h : Keeps s0 s) : Keeps s0 (mbxNotify s party c vec abort) := by
  unfold mbxNotify
  repeat' first
    | with_reducible assumption
    | (extract_lets +onlyGivenNames x; first | (refine Keeps.letS (a := x) ?_ fun hx => ?_; rotate_left; clear_value x; revert x; rotate_left; unfold x; clear x) | (try unfold x; clear x))
    | intro _ _
    | with_reducible refine emit_keeps ?_
    | with_reducible refine hostIrq_keeps ?_
    | with_reducible refine Keeps.ite ?_ ?_

theorem mbxChange_keeps {s0 s : State} {c : Nat} {f : State → State} (hf : ∀ y0, Keeps s0 y0 → Keeps s0 (f y0)) (h : Keeps s0 s) : Keeps s0 (mbxChange s c f) := by
  unfold mbxChange
  repeat' first
    | with_reducible assumption
    | (extract_lets +onlyGivenNames x; first | (refine Keeps.letS (a := x) ?_ fun hx => ?_; rotate_left; clear_value x; revert x; rotate_left; unfold x; clear x) | (try unfold x; clear x))
    | intro _ _
    | with_reducible refine mbxNotify_keeps ?_
    | with_reducible refine hf _ ?_
    | with_reducible refine Keeps.ite ?_ ?_

theorem mbxRing_keeps {s0 s : State} {c : Nat} {bits : Word} (h : Keeps s0 s) : Keeps s0 (mbxRing s c bits) := by
  unfold mbxRing
  repeat' first
    | with_reducible assumption
    | with_reducible refine mbxChange_keeps (fun _ hy => ?_) ?_
    | with_reducible refine wr_keeps ?_
    | with_reducible refine Keeps.ite ?_ ?_

theorem mbxPut_keeps {s0 s : State} {c w : Nat} {v : Word} (h : Keeps s0 s) : Keeps s0 (mbxPut s c w v) := by
  unfold mbxPut
  repeat' first
    | with_reducible assumption
    | (extract_lets +onlyGivenNames x; first | (refine Keeps.letS (a := x) ?_ fun hx => ?_; rotate_left; clear_value x; revert x; rotate_left; unfold x; clear x) | (try unfold x; clear x))
    | intro _ _
    | with_reducible refine wr_keeps ?_
    | with_reducible refine evtSet_keeps ?_
    | with_reducible refine fadd_keeps ?_
    | with_reducible refine fsetb_keeps ?_
    | with_reducible refine Keeps.ite ?_ ?_

theorem mbxViol_keeps {s0 s : State} (h : Keeps s0 s) : Keeps s0 (mbxViol s) := by
  unfold mbxViol
  repeat' first
    | with_reducible assumption
    | with_reducible refine evtSet_keeps ?_
    | with_reducible refine count_keeps ?_

theorem mbxAnswer_keeps {s0 s : State} {c : Nat} {bytes : List Nat} (h : Keeps s0 s) : Keeps s0 (mbxAnswer s c bytes) := by
  unfold mbxAnswer
  repeat' first
    | with_reducible assumption
    | with_reducible refine mbxRing_keeps ?_
    | with_reducible refine Keeps.forAll ?_ fun _ _ hy => ?_
    | with_reducible refine mbxPut_keeps ?_
    | with_reducible refine mbxViol_keeps ?_
    | with_reducible refine Keeps.ite ?_ ?_

theorem completeDnr_keeps {s0 s : State} {x1 sq cid sct sc dw0 dw1 : Nat} {dnr : Option Bool} (h : Keeps s0 s) : Keeps s0 (completeDnr s x1 sq cid sct sc dw0 dw1 dnr) := by
  unfold completeDnr
  repeat' first
    | with_reducible assumption
    | (extract_lets +onlyGivenNames x; first | (refine Keeps.letS (a := x) ?_ fun hx => ?_; rotate_left; clear_value x; revert x; rotate_left; unfold x; clear x) | (try unfold x; clear x))
    | with_reducible refine count_keeps ?_
    | with_reducible refine emit_keeps ?_
    | with_reducible refine mbxAnswer_keeps ?_
    | with_reducible refine Keeps.ite ?_ ?_

theorem complete_keeps {s0 s : State} {x1 sq cid sct sc dw0 dw1 : Nat} (h : Keeps s0 s) : Keeps s0 (complete s x1 sq cid sct sc dw0 dw1) := by
  unfold complete
  repeat' first
    | with_reducible assumption
    | with_reducible refine completeDnr_keeps ?_

theorem adminOk_keeps {s0 s : State} {x1 cid dw0 : Nat} (h : Keeps s0 s) : Keeps s0 (adminOk s x1 cid dw0) := by
  unfold adminOk
  repeat' first
    | with_reducible assumption
    | with_reducible refine complete_keeps ?_

theorem adminData_keeps {s0 s : State} {x1 cid : Nat} {data : List Nat} (h : Keeps s0 s) : Keeps s0 (adminData s x1 cid data) := by
  unfold adminData
  repeat' first
    | with_reducible assumption
    | with_reducible refine adminOk_keeps ?_
    | with_reducible refine emit_keeps ?_

theorem adminEnd_keeps {s0 s : State} {x1 cid sct sc : Nat} (h : Keeps s0 s) : Keeps s0 (adminEnd s x1 cid sct sc) := by
  unfold adminEnd
  repeat' first
    | with_reducible assumption
    | with_reducible refine complete_keeps ?_

theorem goCatch_keeps {s0 s : State} {p : Nat} (h : Keeps s0 s) : Keeps s0 (goCatch s p) := by
  unfold goCatch
  repeat' first
    | with_reducible assumption
    | (extract_lets +onlyGivenNames x; first | (refine Keeps.letS (a := x) ?_ fun hx => ?_; rotate_left; clear_value x; revert x; rotate_left; unfold x; clear x) | (try unfold x; clear x))
    | intro _ _
    | with_reducible refine wrN_keeps ?_
    | with_reducible refine sendDrive_keeps ?_
    | with_reducible refine setSpnState_keeps ?_
    | with_reducible refine setSpn_keeps ?_
    | with_reducible refine Keeps.ite ?_ ?_

theorem enginePower_keeps {s0 s : State} {e : Nat} (h : Keeps s0 s) : Keeps s0 (enginePower s e) := by
  unfold enginePower
  repeat' first
    | with_reducible assumption
    | with_reducible refine domRequest_keeps ?_

theorem setZmp_keeps {s0 s : State} {f : ZmpState → ZmpState} (h : Keeps s0 s) : Keeps s0 (setZmp s f) := by
  unfold setZmp
  repeat' first
    | with_reducible assumption
    | with_reducible refine Keeps.upd ?_ rfl rfl rfl

theorem mirror_keeps {s0 s : State} {kind : Nat} {args : List Nat} (h : Keeps s0 s) : Keeps s0 (mirror s kind args) := by
  unfold mirror
  repeat' first
    | with_reducible assumption
    | with_reducible refine emit_keeps ?_
    | with_reducible refine Keeps.ite ?_ ?_

theorem mirrorZone_keeps {s0 s : State} {n z : Nat} {r : ZoneRec} (h : Keeps s0 s) : Keeps s0 (mirrorZone s n z r) := by
  unfold mirrorZone
  repeat' first
    | with_reducible assumption
    | with_reducible refine mirror_keeps ?_

theorem putZone_keeps {s0 s : State} {n z : Nat} {r : ZoneRec} (h : Keeps s0 s) : Keeps s0 (putZone s n z r) := by
  unfold putZone
  repeat' first
    | with_reducible assumption
    | (extract_lets +onlyGivenNames x; first | (refine Keeps.letS (a := x) ?_ fun hx => ?_; rotate_left; clear_value x; revert x; rotate_left; unfold x; clear x) | (try unfold x; clear x))
    | intro _ _
    | with_reducible refine mirrorZone_keeps ?_
    | with_reducible refine Keeps.ite ?_ ?_
    | with_reducible refine Keeps.upd ?_ rfl rfl rfl

theorem ctxSync_keeps {s0 s : State} (h : Keeps s0 s) : Keeps s0 (ctxSync s) := by
  unfold ctxSync
  repeat' first
    | with_reducible assumption
    | (extract_lets +onlyGivenNames x; first | (refine Keeps.letS (a := x) ?_ fun hx => ?_; rotate_left; clear_value x; revert x; rotate_left; unfold x; clear x) | (try unfold x; clear x))
    | intro _ _
    | with_reducible refine fset_keeps ?_
    | with_reducible refine Keeps.ite ?_ ?_

theorem dropCtx_keeps {s0 s : State} {k : Nat} (h : Keeps s0 s) : Keeps s0 (dropCtx s k) := by
  unfold dropCtx
  repeat' first
    | with_reducible assumption
    | (extract_lets +onlyGivenNames x; first | (refine Keeps.letS (a := x) ?_ fun hx => ?_; rotate_left; clear_value x; revert x; rotate_left; unfold x; clear x) | (try unfold x; clear x))
    | with_reducible refine ctxSync_keeps ?_
    | with_reducible refine Keeps.upd ?_ rfl rfl rfl

theorem journalSector_keeps {s0 s : State} {p : Nat} {keys : List Nat} (h : Keeps s0 s) : Keeps s0 (journalSector s p keys) := by
  unfold journalSector
  repeat' first
    | with_reducible assumption
    | (extract_lets +onlyGivenNames x; first | (refine Keeps.letS (a := x) ?_ fun hx => ?_; rotate_left; clear_value x; revert x; rotate_left; unfold x; clear x) | (try unfold x; clear x))
    | with_reducible refine evtSet_keeps ?_
    | with_reducible refine emit_keeps ?_
    | with_reducible refine Keeps.ite ?_ ?_
    | with_reducible refine Keeps.upd ?_ rfl rfl rfl

theorem journalKeys_keeps {s0 s : State} {p : Nat} {keys : List Nat} (h : Keeps s0 s) : Keeps s0 (journalKeys s p keys) := by
  unfold journalKeys
  repeat' first
    | with_reducible assumption
    | (extract_lets +onlyGivenNames x; first | (refine Keeps.letS (a := x) ?_ fun hx => ?_; rotate_left; clear_value x; revert x; rotate_left; unfold x; clear x) | (try unfold x; clear x))
    | intro _ _
    | with_reducible refine journalSector_keeps ?_
    | with_reducible refine Keeps.ite ?_ ?_

theorem journalZone_keeps {s0 s : State} {n z : Nat} (h : Keeps s0 s) : Keeps s0 (journalZone s n z) := by
  unfold journalZone
  repeat' first
    | with_reducible assumption
    | (extract_lets +onlyGivenNames x; first | (refine Keeps.letS (a := x) ?_ fun hx => ?_; rotate_left; clear_value x; revert x; rotate_left; unfold x; clear x) | (try unfold x; clear x))
    | intro _ _
    | with_reducible refine Keeps.forAll ?_ fun _ _ hy => ?_
    | with_reducible refine journalKeys_keeps ?_
    | split
    | with_reducible refine Keeps.upd ?_ rfl rfl rfl

theorem setZState_keeps {s0 s : State} {n z st : Nat} (h : Keeps s0 s) : Keeps s0 (setZState s n z st) := by
  unfold setZState
  repeat' first
    | with_reducible assumption
    | (extract_lets +onlyGivenNames x; first | (refine Keeps.letS (a := x) ?_ fun hx => ?_; rotate_left; clear_value x; revert x; rotate_left; unfold x; clear x) | (try unfold x; clear x))
    | intro _ _
    | with_reducible refine putZone_keeps ?_
    | with_reducible refine dropCtx_keeps ?_
    | with_reducible refine journalZone_keeps ?_
    | with_reducible refine Keeps.ite ?_ ?_

theorem journalLater_keeps {s0 s : State} {n z : Nat} (h : Keeps s0 s) : Keeps s0 (journalLater s n z) := by
  unfold journalLater
  repeat' first
    | with_reducible assumption
    | (extract_lets +onlyGivenNames x; first | (refine Keeps.letS (a := x) ?_ fun hx => ?_; rotate_left; clear_value x; revert x; rotate_left; unfold x; clear x) | (try unfold x; clear x))
    | with_reducible refine Keeps.ite ?_ ?_
    | with_reducible refine Keeps.upd ?_ rfl rfl rfl

theorem unboundPort_keeps {s0 s : State} {p : Nat} (h : Keeps s0 s) : Keeps s0 (unboundPort s p) := by
  unfold unboundPort
  repeat' first
    | with_reducible assumption
    | (extract_lets +onlyGivenNames x; first | (refine Keeps.letS (a := x) ?_ fun hx => ?_; rotate_left; clear_value x; revert x; rotate_left; unfold x; clear x) | (try unfold x; clear x))
    | with_reducible refine Keeps.upd ?_ rfl rfl rfl

theorem holdUnbound_keeps {s0 s : State} {p why : Nat} (h : Keeps s0 s) : Keeps s0 (holdUnbound s p why) := by
  unfold holdUnbound
  repeat' first
    | with_reducible assumption
    | with_reducible refine sourceRise_keeps ?_
    | with_reducible refine fset_keeps ?_
    | with_reducible refine wbit_keeps ?_
    | with_reducible refine unboundPort_keeps ?_

theorem setUCap_keeps {s0 s : State} {u n : Nat} (h : Keeps s0 s) : Keeps s0 (setUCap s u n) := by
  unfold setUCap
  repeat' first
    | with_reducible assumption
    | with_reducible refine unitEvt_keeps ?_
    | with_reducible refine wrN_keeps ?_
    | with_reducible refine Keeps.ite ?_ ?_

theorem fixThatchCaps_keeps {s0 s : State} {u : Nat} (h : Keeps s0 s) : Keeps s0 (fixThatchCaps s u) := by
  unfold fixThatchCaps
  repeat' first
    | with_reducible assumption
    | (extract_lets +onlyGivenNames x; first | (refine Keeps.letS (a := x) ?_ fun hx => ?_; rotate_left; clear_value x; revert x; rotate_left; unfold x; clear x) | (try unfold x; clear x))
    | with_reducible refine Keeps.forAll ?_ fun _ _ hy => ?_
    | with_reducible refine setUCap_keeps ?_
    | with_reducible refine Keeps.ite ?_ ?_
    | split
    | with_reducible refine Keeps.upd ?_ rfl rfl rfl

theorem setMechCaps_keeps {s0 s : State} {p : Nat} (h : Keeps s0 s) : Keeps s0 (setMechCaps s p) := by
  unfold setMechCaps
  repeat' first
    | with_reducible assumption
    | (extract_lets +onlyGivenNames x; first | (refine Keeps.letS (a := x) ?_ fun hx => ?_; rotate_left; clear_value x; revert x; rotate_left; unfold x; clear x) | (try unfold x; clear x))
    | intro _ _
    | with_reducible refine Keeps.forAll ?_ fun _ _ hy => ?_
    | with_reducible refine setUCap_keeps ?_
    | split

theorem fwSet_keeps {s0 s : State} {a : Nat} {f : Fld} {v : Nat} (h : Keeps s0 s) : Keeps s0 (fwSet s a f v) := by
  unfold fwSet
  repeat' first
    | with_reducible assumption
    | with_reducible refine fset_keeps ?_
    | with_reducible refine Keeps.ite ?_ ?_

theorem loadShock_keeps {s0 s : State} {p a : Nat} (h : Keeps s0 s) : Keeps s0 (loadShock s p a) := by
  unfold loadShock
  repeat' first
    | with_reducible assumption
    | (extract_lets +onlyGivenNames x; first | (refine Keeps.letS (a := x) ?_ fun hx => ?_; rotate_left; clear_value x; revert x; rotate_left; unfold x; clear x) | (try unfold x; clear x))
    | with_reducible refine fwSet_keeps ?_
    | with_reducible refine Keeps.upd ?_ rfl rfl rfl

theorem impair_keeps {s0 s : State} {u cause : Nat} (h : Keeps s0 s) : Keeps s0 (impair s u cause) := by
  unfold impair
  repeat' first
    | with_reducible assumption
    | with_reducible refine setAux_keeps ?_

theorem unimpair_keeps {s0 s : State} {u cause : Nat} (h : Keeps s0 s) : Keeps s0 (unimpair s u cause) := by
  unfold unimpair
  repeat' first
    | with_reducible assumption
    | with_reducible refine setAux_keeps ?_

theorem reachCheck_keeps {s0 s : State} {p : Nat} (h : Keeps s0 s) : Keeps s0 (reachCheck s p) := by
  unfold reachCheck
  repeat' first
    | with_reducible assumption
    | with_reducible refine impair_keeps ?_
    | with_reducible refine unimpair_keeps ?_
    | with_reducible refine Keeps.ite ?_ ?_
    | split

theorem restoreCal_keeps {s0 s : State} {p : Nat} (h : Keeps s0 s) : Keeps s0 (restoreCal s p) := by
  unfold restoreCal
  repeat' first
    | with_reducible assumption
    | (extract_lets +onlyGivenNames x; first | (refine Keeps.letS (a := x) ?_ fun hx => ?_; rotate_left; clear_value x; revert x; rotate_left; unfold x; clear x) | (try unfold x; clear x))
    | intro _ _
    | with_reducible refine Keeps.forAll ?_ fun _ _ hy => ?_
    | with_reducible refine wr_keeps ?_
    | with_reducible refine fset_keeps ?_
    | with_reducible refine fsetb_keeps ?_
    | with_reducible refine Keeps.ite ?_ ?_
    | split

theorem loadRate_keeps {s0 s : State} {p : Nat} (h : Keeps s0 s) : Keeps s0 (loadRate s p) := by
  unfold loadRate
  repeat' first
    | with_reducible assumption
    | with_reducible refine fset_keeps ?_
    | split

theorem loadStored_keeps {s0 s : State} {p : Nat} (h : Keeps s0 s) : Keeps s0 (loadStored s p) := by
  unfold loadStored
  repeat' first
    | with_reducible assumption
    | (extract_lets +onlyGivenNames x; first | (refine Keeps.letS (a := x) ?_ fun hx => ?_; rotate_left; clear_value x; revert x; rotate_left; unfold x; clear x) | (try unfold x; clear x))
    | intro _ _
    | with_reducible refine Keeps.forAll ?_ fun _ _ hy => ?_
    | with_reducible refine fwSet_keeps ?_
    | with_reducible refine loadShock_keeps ?_
    | with_reducible refine reachCheck_keeps ?_
    | with_reducible refine restoreCal_keeps ?_
    | with_reducible refine loadRate_keeps ?_
    | with_reducible refine fset_keeps ?_

theorem spareSync_keeps {s0 s : State} {p : Nat} (h : Keeps s0 s) : Keeps s0 (spareSync s p) := by
  unfold spareSync
  repeat' first
    | with_reducible assumption
    | (extract_lets +onlyGivenNames x; first | (refine Keeps.letS (a := x) ?_ fun hx => ?_; rotate_left; clear_value x; revert x; rotate_left; unfold x; clear x) | (try unfold x; clear x))
    | intro _ _
    | with_reducible refine fset_keeps ?_

theorem eaveSync_keeps {s0 s : State} {p : Nat} (h : Keeps s0 s) : Keeps s0 (eaveSync s p) := by
  unfold eaveSync
  repeat' first
    | with_reducible assumption
    | (extract_lets +onlyGivenNames x; first | (refine Keeps.letS (a := x) ?_ fun hx => ?_; rotate_left; clear_value x; revert x; rotate_left; unfold x; clear x) | (try unfold x; clear x))
    | intro _ _
    | with_reducible refine fset_keeps ?_

theorem bindKeeping_keeps {s0 s : State} {p : Nat} {keep : List Nat} (h : Keeps s0 s) : Keeps s0 (bindKeeping s p keep) := by
  unfold bindKeeping
  repeat' first
    | with_reducible assumption
    | (extract_lets +onlyGivenNames x; first | (refine Keeps.letS (a := x) ?_ fun hx => ?_; rotate_left; clear_value x; revert x; rotate_left; unfold x; clear x) | (try unfold x; clear x))
    | intro _ _
    | with_reducible refine holdUnbound_keeps ?_
    | with_reducible refine Keeps.forAll ?_ fun _ _ hy => ?_
    | with_reducible refine fixThatchCaps_keeps ?_
    | with_reducible refine setMechCaps_keeps ?_
    | with_reducible refine fset_keeps ?_
    | with_reducible refine wbit_keeps ?_
    | with_reducible refine loadStored_keeps ?_
    | with_reducible refine spareSync_keeps ?_
    | with_reducible refine eaveSync_keeps ?_
    | with_reducible refine setUState_keeps ?_
    | with_reducible refine setUGrade_keeps ?_
    | with_reducible refine Keeps.ite ?_ ?_
    | split
    | with_reducible refine Keeps.upd ?_ rfl rfl rfl

theorem bindPort_keeps {s0 s : State} {p : Nat} (h : Keeps s0 s) : Keeps s0 (bindPort s p) := by
  unfold bindPort
  repeat' first
    | with_reducible assumption
    | with_reducible refine bindKeeping_keeps ?_

theorem bindDeferred_keeps {s0 s : State} (h : Keeps s0 s) : Keeps s0 (bindDeferred s) := by
  unfold bindDeferred
  repeat' first
    | with_reducible assumption
    | with_reducible refine Keeps.forAll ?_ fun _ _ hy => ?_
    | with_reducible refine bindPort_keeps ?_
    | with_reducible refine Keeps.ite ?_ ?_

theorem rebuildStart_keeps {s0 s : State} {t1 u i : Nat} (h : Keeps s0 s) : Keeps s0 (rebuildStart s t1 u i) := by
  unfold rebuildStart
  repeat' first
    | with_reducible assumption
    | (extract_lets +onlyGivenNames x; first | (refine Keeps.letS (a := x) ?_ fun hx => ?_; rotate_left; clear_value x; revert x; rotate_left; unfold x; clear x) | (try unfold x; clear x))
    | intro _ _
    | with_reducible refine fset_keeps ?_
    | with_reducible refine fsetb_keeps ?_
    | with_reducible refine setZmp_keeps ?_
    | with_reducible refine wrN_keeps ?_
    | with_reducible refine Keeps.forAll ?_ fun _ _ hy => ?_
    | with_reducible refine recompute_keeps ?_
    | with_reducible refine impair_keeps ?_
    | with_reducible refine domRequest_keeps ?_
    | with_reducible refine evtSet_keeps ?_
    | with_reducible refine Keeps.ite ?_ ?_

theorem rebuildNext_keeps {s0 s : State} (h : Keeps s0 s) : Keeps s0 (rebuildNext s) := by
  unfold rebuildNext
  repeat' first
    | with_reducible assumption
    | (extract_lets +onlyGivenNames x; first | (refine Keeps.letS (a := x) ?_ fun hx => ?_; rotate_left; clear_value x; revert x; rotate_left; unfold x; clear x) | (try unfold x; clear x))
    | intro _ _
    | with_reducible refine setZmp_keeps ?_
    | with_reducible refine rebuildStart_keeps ?_
    | with_reducible refine fset_keeps ?_
    | with_reducible refine Keeps.ite ?_ ?_
    | split

theorem memberSerial_keeps {s0 s : State} {p : Nat} (h : Keeps s0 s) : Keeps s0 (memberSerial s p) := by
  unfold memberSerial
  repeat' first
    | with_reducible assumption
    | (extract_lets +onlyGivenNames x; first | (refine Keeps.letS (a := x) ?_ fun hx => ?_; rotate_left; clear_value x; revert x; rotate_left; unfold x; clear x) | (try unfold x; clear x))
    | intro _ _
    | with_reducible refine rebuildNext_keeps ?_
    | with_reducible refine setZmp_keeps ?_
    | with_reducible refine Keeps.ite ?_ ?_
    | split
    | with_reducible refine Keeps.upd ?_ rfl rfl rfl

theorem mechAbsent_keeps {s0 s : State} {p : Nat} (h : Keeps s0 s) : Keeps s0 (mechAbsent s p) := by
  unfold mechAbsent
  repeat' first
    | with_reducible assumption
    | (extract_lets +onlyGivenNames x; first | (refine Keeps.letS (a := x) ?_ fun hx => ?_; rotate_left; clear_value x; revert x; rotate_left; unfold x; clear x) | (try unfold x; clear x))
    | intro _ _
    | with_reducible refine Keeps.forAll ?_ fun _ _ hy => ?_
    | with_reducible refine setUState_keeps ?_
    | with_reducible refine setAux_keeps ?_
    | split

theorem notice_keeps {s0 s : State} {x1 type info log : Nat} (h : Keeps s0 s) : Keeps s0 (notice s x1 type info log) := by
  unfold notice
  repeat' first
    | with_reducible assumption
    | with_reducible refine aenPost_keeps ?_
    | with_reducible refine Keeps.ite ?_ ?_

theorem setCtl_keeps {s0 s : State} {x : Nat} {f : Ctl → Ctl} (h : Keeps s0 s) : Keeps s0 (setCtl s x f) := by
  unfold setCtl
  split <;> exact Keeps.upd h rfl rfl rfl

theorem nsChanged_keeps {s0 s : State} {n ports : Nat} (h : Keeps s0 s) : Keeps s0 (nsChanged s n ports) := by
  unfold nsChanged
  repeat' first
    | with_reducible assumption
    | (extract_lets +onlyGivenNames x; first | (refine Keeps.letS (a := x) ?_ fun hx => ?_; rotate_left; clear_value x; revert x; rotate_left; unfold x; clear x) | (try unfold x; clear x))
    | with_reducible refine Keeps.forAll ?_ fun _ _ hy => ?_
    | with_reducible refine notice_keeps ?_
    | with_reducible refine setCtl_keeps ?_
    | with_reducible refine Keeps.ite ?_ ?_

theorem setCch_keeps {s0 s : State} {f : CacheState → CacheState} (h : Keeps s0 s) : Keeps s0 (setCch s f) := by
  unfold setCch
  repeat' first
    | with_reducible assumption
    | with_reducible refine Keeps.upd ?_ rfl rfl rfl

theorem markStale_keeps {s0 s : State} (h : Keeps s0 s) : Keeps s0 (markStale s) := by
  unfold markStale
  repeat' first
    | with_reducible assumption
    | with_reducible refine evtSet_keeps ?_
    | with_reducible refine fsetb_keeps ?_
    | with_reducible refine Keeps.ite ?_ ?_

theorem syncCache_keeps {s0 s : State} (h : Keeps s0 s) : Keeps s0 (syncCache s) := by
  unfold syncCache
  repeat' first
    | with_reducible assumption
    | with_reducible refine fset_keeps ?_

theorem cacheDrop_keeps {s0 s : State} {hit : Nat → Nat → Bool} (h : Keeps s0 s) : Keeps s0 (cacheDrop s hit) := by
  unfold cacheDrop
  repeat' first
    | with_reducible assumption
    | (extract_lets +onlyGivenNames x; first | (refine Keeps.letS (a := x) ?_ fun hx => ?_; rotate_left; clear_value x; revert x; rotate_left; unfold x; clear x) | (try unfold x; clear x))
    | intro _ _
    | with_reducible refine setCch_keeps ?_
    | with_reducible refine markStale_keeps ?_
    | with_reducible refine syncCache_keeps ?_
    | with_reducible refine Keeps.ite ?_ ?_

theorem cacheDropNs_keeps {s0 s : State} {n : Nat} (h : Keeps s0 s) : Keeps s0 (cacheDropNs s n) := by
  unfold cacheDropNs
  repeat' first
    | with_reducible assumption
    | with_reducible refine cacheDrop_keeps ?_

theorem zoneChanged_keeps {s0 s : State} {n z ports : Nat} (h : Keeps s0 s) : Keeps s0 (zoneChanged s n z ports) := by
  unfold zoneChanged
  repeat' first
    | with_reducible assumption
    | (extract_lets +onlyGivenNames x; first | (refine Keeps.letS (a := x) ?_ fun hx => ?_; rotate_left; clear_value x; revert x; rotate_left; unfold x; clear x) | (try unfold x; clear x))
    | with_reducible refine Keeps.forAll ?_ fun _ _ hy => ?_
    | with_reducible refine notice_keeps ?_
    | with_reducible refine setCtl_keeps ?_
    | with_reducible refine Keeps.ite ?_ ?_

theorem spareReset_keeps {s0 s : State} {p q : Nat} (h : Keeps s0 s) : Keeps s0 (spareReset s p q) := by
  unfold spareReset
  repeat' first
    | with_reducible assumption
    | (extract_lets +onlyGivenNames x; first | (refine Keeps.letS (a := x) ?_ fun hx => ?_; rotate_left; clear_value x; revert x; rotate_left; unfold x; clear x) | (try unfold x; clear x))
    | with_reducible refine spareSync_keeps ?_
    | with_reducible refine Keeps.upd ?_ rfl rfl rfl

theorem releaseRelocs_keeps {s0 s : State} {n z : Nat} (h : Keeps s0 s) : Keeps s0 (releaseRelocs s n z) := by
  unfold releaseRelocs
  repeat' first
    | with_reducible assumption
    | (extract_lets +onlyGivenNames x; first | (refine Keeps.letS (a := x) ?_ fun hx => ?_; rotate_left; clear_value x; revert x; rotate_left; unfold x; clear x) | (try unfold x; clear x))
    | intro _ _
    | with_reducible refine Keeps.forAll ?_ fun _ _ hy => ?_
    | with_reducible refine spareReset_keeps ?_
    | with_reducible refine Keeps.upd ?_ rfl rfl rfl

theorem dropZoneWork_keeps {s0 s : State} {n z : Nat} (h : Keeps s0 s) : Keeps s0 (dropZoneWork s n z) := by
  unfold dropZoneWork
  repeat' first
    | with_reducible assumption
    | (extract_lets +onlyGivenNames x; first | (refine Keeps.letS (a := x) ?_ fun hx => ?_; rotate_left; clear_value x; revert x; rotate_left; unfold x; clear x) | (try unfold x; clear x))
    | with_reducible refine fset_keeps ?_
    | with_reducible refine Keeps.upd ?_ rfl rfl rfl

theorem stagedSync_keeps {s0 s : State} (h : Keeps s0 s) : Keeps s0 (stagedSync s) := by
  unfold stagedSync
  repeat' first
    | with_reducible assumption
    | with_reducible refine Keeps.forAll ?_ fun _ _ hy => ?_
    | with_reducible refine wrN_keeps ?_
    | with_reducible refine eaveSync_keeps ?_

theorem releaseStaged_keeps {s0 s : State} {f : Staged → Bool} (h : Keeps s0 s) : Keeps s0 (releaseStaged s f) := by
  unfold releaseStaged
  repeat' first
    | with_reducible assumption
    | (extract_lets +onlyGivenNames x; first | (refine Keeps.letS (a := x) ?_ fun hx => ?_; rotate_left; clear_value x; revert x; rotate_left; unfold x; clear x) | (try unfold x; clear x))
    | with_reducible refine stagedSync_keeps ?_
    | with_reducible refine Keeps.upd ?_ rfl rfl rfl

theorem resetZone_keeps {s0 s : State} {n z : Nat} (h : Keeps s0 s) : Keeps s0 (resetZone s n z) := by
  unfold resetZone
  repeat' first
    | with_reducible assumption
    | (extract_lets +onlyGivenNames x; first | (refine Keeps.letS (a := x) ?_ fun hx => ?_; rotate_left; clear_value x; revert x; rotate_left; unfold x; clear x) | (try unfold x; clear x))
    | intro _ _
    | with_reducible refine releaseRelocs_keeps ?_
    | with_reducible refine dropZoneWork_keeps ?_
    | with_reducible refine putZone_keeps ?_
    | with_reducible refine dropCtx_keeps ?_
    | with_reducible refine journalZone_keeps ?_
    | with_reducible refine releaseStaged_keeps ?_
    | with_reducible refine Keeps.upd ?_ rfl rfl rfl

theorem wdogSend_keeps {s0 s : State} {p : Nat} (h : Keeps s0 s) : Keeps s0 (wdogSend s p) := by
  unfold wdogSend
  repeat' first
    | with_reducible assumption
    | with_reducible refine tsbWrite_keeps ?_

theorem setWdog_keeps {s0 s : State} {p us : Nat} (h : Keeps s0 s) : Keeps s0 (setWdog s p us) := by
  unfold setWdog
  repeat' first
    | with_reducible assumption
    | (extract_lets +onlyGivenNames x; first | (refine Keeps.letS (a := x) ?_ fun hx => ?_; rotate_left; clear_value x; revert x; rotate_left; unfold x; clear x) | (try unfold x; clear x))
    | intro _ _
    | with_reducible refine fset_keeps ?_
    | with_reducible refine wdogSend_keeps ?_
    | with_reducible refine Keeps.ite ?_ ?_

theorem syncEnv_keeps {s0 s : State} (h : Keeps s0 s) : Keeps s0 (syncEnv s) := by
  unfold syncEnv
  repeat' first
    | with_reducible assumption
    | with_reducible refine fset_keeps ?_

theorem setFls_keeps {s0 s : State} {f : FlsState → FlsState} (h : Keeps s0 s) : Keeps s0 (setFls s f) := by
  unfold setFls
  repeat' first
    | with_reducible assumption
    | with_reducible refine Keeps.upd ?_ rfl rfl rfl

theorem syncFlashWear_keeps {s0 s : State} (h : Keeps s0 s) : Keeps s0 (syncFlashWear s) := by
  unfold syncFlashWear
  repeat' first
    | with_reducible assumption
    | (extract_lets +onlyGivenNames x; first | (refine Keeps.letS (a := x) ?_ fun hx => ?_; rotate_left; clear_value x; revert x; rotate_left; unfold x; clear x) | (try unfold x; clear x))
    | with_reducible refine fset_keeps ?_

theorem eraseCount_keeps {s0 s : State} {b : Nat} (h : Keeps s0 s) : Keeps s0 (eraseCount s b) := by
  unfold eraseCount
  repeat' first
    | with_reducible assumption
    | (extract_lets +onlyGivenNames x; first | (refine Keeps.letS (a := x) ?_ fun hx => ?_; rotate_left; clear_value x; revert x; rotate_left; unfold x; clear x) | (try unfold x; clear x))
    | intro _ _
    | with_reducible refine fset_keeps ?_
    | with_reducible refine count_keeps ?_
    | with_reducible refine evtSet_keeps ?_
    | with_reducible refine Keeps.ite ?_ ?_

theorem blockStored_keeps {s0 s : State} {b : Nat} (h : Keeps s0 s) : Keeps s0 (blockStored s b) := by
  unfold blockStored
  repeat' first
    | with_reducible assumption
    | with_reducible refine setFls_keeps ?_

theorem storeBlocks_keeps {s0 s : State} {b n : Nat} (h : Keeps s0 s) : Keeps s0 (storeBlocks s b n) := by
  unfold storeBlocks
  repeat' first
    | with_reducible assumption
    | (extract_lets +onlyGivenNames x; first | (refine Keeps.letS (a := x) ?_ fun hx => ?_; rotate_left; clear_value x; revert x; rotate_left; unfold x; clear x) | (try unfold x; clear x))
    | intro _ _
    | with_reducible refine syncFlashWear_keeps ?_
    | with_reducible refine Keeps.forAll ?_ fun _ _ hy => ?_
    | with_reducible refine drawn_keeps ?_
    | with_reducible refine eraseCount_keeps ?_
    | with_reducible refine blockStored_keeps ?_
    | with_reducible refine count_keeps ?_
    | with_reducible refine fset_keeps ?_

theorem storeCal_keeps {s0 s : State} {p : Nat} (h : Keeps s0 s) : Keeps s0 (storeCal s p) := by
  unfold storeCal
  repeat' first
    | with_reducible assumption
    | (extract_lets +onlyGivenNames x; first | (refine Keeps.letS (a := x) ?_ fun hx => ?_; rotate_left; clear_value x; revert x; rotate_left; unfold x; clear x) | (try unfold x; clear x))
    | with_reducible refine setFls_keeps ?_

theorem checkpoint_keeps {s0 s : State} (h : Keeps s0 s) : Keeps s0 (checkpoint s) := by
  unfold checkpoint
  repeat' first
    | with_reducible assumption
    | (extract_lets +onlyGivenNames x; first | (refine Keeps.letS (a := x) ?_ fun hx => ?_; rotate_left; clear_value x; revert x; rotate_left; unfold x; clear x) | (try unfold x; clear x))
    | intro _ _
    | with_reducible refine setFls_keeps ?_
    | with_reducible refine storeBlocks_keeps ?_
    | with_reducible refine Keeps.forAll ?_ fun _ _ hy => ?_
    | with_reducible refine storeCal_keeps ?_
    | with_reducible refine Keeps.ite ?_ ?_

theorem blockLost_keeps {s0 s : State} {b : Nat} (h : Keeps s0 s) : Keeps s0 (blockLost s b) := by
  unfold blockLost
  repeat' first
    | with_reducible assumption
    | (extract_lets +onlyGivenNames x; first | (refine Keeps.letS (a := x) ?_ fun hx => ?_; rotate_left; clear_value x; revert x; rotate_left; unfold x; clear x) | (try unfold x; clear x))
    | intro _ _
    | with_reducible refine rootGrade_keeps ?_
    | with_reducible refine Keeps.ite ?_ ?_
    | with_reducible refine Keeps.upd ?_ rfl rfl rfl

theorem remapBlocks_keeps {s0 s : State} (h : Keeps s0 s) : Keeps s0 (remapBlocks s) := by
  unfold remapBlocks
  repeat' first
    | with_reducible assumption
    | (extract_lets +onlyGivenNames x; first | (refine Keeps.letS (a := x) ?_ fun hx => ?_; rotate_left; clear_value x; revert x; rotate_left; unfold x; clear x) | (try unfold x; clear x))
    | with_reducible refine Keeps.forAll ?_ fun _ _ hy => ?_
    | with_reducible refine storeBlocks_keeps ?_
    | with_reducible refine setFls_keeps ?_
    | with_reducible refine blockLost_keeps ?_
    | with_reducible refine Keeps.ite ?_ ?_
    | split

theorem retireStart_keeps {s0 s : State} {page : Nat} {keep : Bool} (h : Keeps s0 s) : Keeps s0 (retireStart s page keep) := by
  unfold retireStart
  repeat' first
    | with_reducible assumption
    | (extract_lets +onlyGivenNames x; first | (refine Keeps.letS (a := x) ?_ fun hx => ?_; rotate_left; clear_value x; revert x; rotate_left; unfold x; clear x) | (try unfold x; clear x))
    | with_reducible refine setMem_keeps ?_
    | with_reducible refine fsetb_keeps ?_
    | with_reducible refine fset_keeps ?_

theorem pagePolicy_keeps {s0 s : State} (h : Keeps s0 s) : Keeps s0 (pagePolicy s) := by
  unfold pagePolicy
  repeat' first
    | with_reducible assumption
    | with_reducible refine retireStart_keeps ?_
    | with_reducible refine Keeps.ite ?_ ?_
    | split

theorem choppersFollow_keeps {s0 s : State} (h : Keeps s0 s) : Keeps s0 (choppersFollow s) := by
  unfold choppersFollow
  repeat' first
    | with_reducible assumption
    | (extract_lets +onlyGivenNames x; first | (refine Keeps.letS (a := x) ?_ fun hx => ?_; rotate_left; clear_value x; revert x; rotate_left; unfold x; clear x) | (try unfold x; clear x))
    | with_reducible refine Keeps.forAll ?_ fun _ _ hy => ?_
    | with_reducible refine setFls_keeps ?_
    | with_reducible refine Keeps.ite ?_ ?_

theorem wsFollow_keeps {s0 s : State} (h : Keeps s0 s) : Keeps s0 (wsFollow s) := by
  unfold wsFollow
  repeat' first
    | with_reducible assumption
    | with_reducible refine fset_keeps ?_
    | with_reducible refine Keeps.ite ?_ ?_
    | split

theorem claimsFreed_keeps {s0 s : State} (h : Keeps s0 s) : Keeps s0 (claimsFreed s) := by
  unfold claimsFreed
  repeat' first
    | with_reducible assumption
    | (extract_lets +onlyGivenNames x; first | (refine Keeps.letS (a := x) ?_ fun hx => ?_; rotate_left; clear_value x; revert x; rotate_left; unfold x; clear x) | (try unfold x; clear x))
    | intro _ _
    | with_reducible refine remapBlocks_keeps ?_
    | with_reducible refine pagePolicy_keeps ?_
    | with_reducible refine rebuildNext_keeps ?_
    | with_reducible refine choppersFollow_keeps ?_
    | with_reducible refine wsFollow_keeps ?_
    | with_reducible refine checkpoint_keeps ?_
    | with_reducible refine Keeps.ite ?_ ?_

theorem release_keeps {s0 s : State} {base : Nat} (h : Keeps s0 s) : Keeps s0 (release s base) := by
  unfold release
  repeat' first
    | with_reducible assumption
    | with_reducible refine fsetb_keeps ?_

theorem releaseAll_keeps {s0 s : State} (h : Keeps s0 s) : Keeps s0 (releaseAll s) := by
  unfold releaseAll
  repeat' first
    | with_reducible assumption
    | with_reducible refine Keeps.forAll ?_ fun _ _ hy => ?_
    | with_reducible refine release_keeps ?_

theorem loseAccs_keeps {s0 s : State} (h : Keeps s0 s) : Keeps s0 (loseAccs s) := by
  unfold loseAccs
  repeat' first
    | with_reducible assumption
    | (extract_lets +onlyGivenNames x; first | (refine Keeps.letS (a := x) ?_ fun hx => ?_; rotate_left; clear_value x; revert x; rotate_left; unfold x; clear x) | (try unfold x; clear x))
    | with_reducible refine fset_keeps ?_
    | with_reducible refine Keeps.upd ?_ rfl rfl rfl

theorem modeEntry_keeps {s0 s : State} {m : Nat} (h : Keeps s0 s) : Keeps s0 (modeEntry s m) := by
  unfold modeEntry
  repeat' first
    | with_reducible assumption
    | with_reducible refine checkpoint_keeps ?_
    | with_reducible refine claimsFreed_keeps ?_
    | with_reducible refine releaseAll_keeps ?_
    | with_reducible refine loseAccs_keeps ?_
    | with_reducible refine Keeps.ite ?_ ?_

theorem setMode_keeps {s0 s : State} {m cause : Nat} (h : Keeps s0 s) : Keeps s0 (setMode s m cause) := by
  unfold setMode
  repeat' first
    | with_reducible assumption
    | (extract_lets +onlyGivenNames x; first | (refine Keeps.letS (a := x) ?_ fun hx => ?_; rotate_left; clear_value x; revert x; rotate_left; unfold x; clear x) | (try unfold x; clear x))
    | intro _ _
    | with_reducible refine fset_keeps ?_
    | with_reducible refine syncEnv_keeps ?_
    | with_reducible refine modeEntry_keeps ?_
    | with_reducible refine evtSet_keeps ?_
    | with_reducible refine count_keeps ?_
    | with_reducible refine Keeps.ite ?_ ?_

theorem applyRule_keeps {s0 s : State} (h : Keeps s0 s) : Keeps s0 (applyRule s) := by
  unfold applyRule
  repeat' first
    | with_reducible assumption
    | with_reducible refine setMode_keeps ?_
    | with_reducible refine Keeps.ite ?_ ?_

theorem programPages_keeps {s0 s : State} {n : Nat} (h : Keeps s0 s) : Keeps s0 (programPages s n) := by
  unfold programPages
  repeat' first
    | with_reducible assumption
    | with_reducible refine count_keeps ?_
    | with_reducible refine drawn_keeps ?_

theorem goLost_keeps {s0 s : State} {p : Nat} (h : Keeps s0 s) : Keeps s0 (goLost s p) := by
  unfold goLost
  repeat' first
    | with_reducible assumption
    | (extract_lets +onlyGivenNames x; first | (refine Keeps.letS (a := x) ?_ fun hx => ?_; rotate_left; clear_value x; revert x; rotate_left; unfold x; clear x) | (try unfold x; clear x))
    | with_reducible refine fsetb_keeps ?_
    | with_reducible refine setSpnState_keeps ?_
    | with_reducible refine setSpn_keeps ?_

theorem spnLanesLost_keeps {s0 s : State} {p : Nat} (h : Keeps s0 s) : Keeps s0 (spnLanesLost s p) := by
  unfold spnLanesLost
  repeat' first
    | with_reducible assumption
    | (extract_lets +onlyGivenNames x; first | (refine Keeps.letS (a := x) ?_ fun hx => ?_; rotate_left; clear_value x; revert x; rotate_left; unfold x; clear x) | (try unfold x; clear x))
    | with_reducible refine goLost_keeps ?_
    | with_reducible refine Keeps.ite ?_ ?_

theorem rebuildEnd_keeps {s0 s : State} {t1 result : Nat} (h : Keeps s0 s) : Keeps s0 (rebuildEnd s t1 result) := by
  unfold rebuildEnd
  repeat' first
    | with_reducible assumption
    | (extract_lets +onlyGivenNames x; first | (refine Keeps.letS (a := x) ?_ fun hx => ?_; rotate_left; clear_value x; revert x; rotate_left; unfold x; clear x) | (try unfold x; clear x))
    | intro _ _
    | with_reducible refine setZmp_keeps ?_
    | with_reducible refine fset_keeps ?_
    | with_reducible refine fsetb_keeps ?_
    | with_reducible refine Keeps.forAll ?_ fun _ _ hy => ?_
    | with_reducible refine recompute_keeps ?_
    | with_reducible refine unimpair_keeps ?_
    | with_reducible refine rebuildNext_keeps ?_
    | with_reducible refine evtSet_keeps ?_
    | with_reducible refine domRelease_keeps ?_

theorem rebuildCheck_keeps {s0 s : State} (h : Keeps s0 s) : Keeps s0 (rebuildCheck s) := by
  unfold rebuildCheck
  repeat' first
    | with_reducible assumption
    | (extract_lets +onlyGivenNames x; first | (refine Keeps.letS (a := x) ?_ fun hx => ?_; rotate_left; clear_value x; revert x; rotate_left; unfold x; clear x) | (try unfold x; clear x))
    | with_reducible refine Keeps.forAll ?_ fun _ _ hy => ?_
    | with_reducible refine rebuildEnd_keeps ?_
    | with_reducible refine Keeps.ite ?_ ?_

theorem setZseq_keeps {s0 s : State} {z : Nat} {g : ZSeq → ZSeq} (h : Keeps s0 s) : Keeps s0 (setZseq s z g) := by
  unfold setZseq
  repeat' first
    | with_reducible assumption
    | (extract_lets +onlyGivenNames x; first | (refine Keeps.letS (a := x) ?_ fun hx => ?_; rotate_left; clear_value x; revert x; rotate_left; unfold x; clear x) | (try unfold x; clear x))
    | with_reducible refine Keeps.upd ?_ rfl rfl rfl

theorem setThread_keeps {s0 s : State} {z t1 : Nat} {g : ZThread → ZThread} (h : Keeps s0 s) : Keeps s0 (setThread s z t1 g) := by
  unfold setThread
  repeat' first
    | with_reducible assumption
    | with_reducible refine setZseq_keeps ?_

theorem pushResult_keeps {s0 s : State} {i : FInstr} {r : Nat × Nat × Bool} (h : Keeps s0 s) : Keeps s0 (pushResult s i r) := by
  unfold pushResult
  repeat' first
    | with_reducible assumption
    | (extract_lets +onlyGivenNames x; first | (refine Keeps.letS (a := x) ?_ fun hx => ?_; rotate_left; clear_value x; revert x; rotate_left; unfold x; clear x) | (try unfold x; clear x))
    | with_reducible refine setThread_keeps ?_
    | with_reducible refine Keeps.ite ?_ ?_

theorem fSync_keeps {s0 s : State} {f : Nat} (h : Keeps s0 s) : Keeps s0 (fSync s f) := by
  unfold fSync
  repeat' first
    | with_reducible assumption
    | with_reducible refine fset_keeps ?_

theorem setFseq_keeps {s0 s : State} {f : Nat} {g : FSeq → FSeq} (h : Keeps s0 s) : Keeps s0 (setFseq s f g) := by
  unfold setFseq
  repeat' first
    | with_reducible assumption
    | (extract_lets +onlyGivenNames x; first | (refine Keeps.letS (a := x) ?_ fun hx => ?_; rotate_left; clear_value x; revert x; rotate_left; unfold x; clear x) | (try unfold x; clear x))
    | with_reducible refine Keeps.upd ?_ rfl rfl rfl

theorem closeSpan_keeps {s0 s : State} {a l b : Nat} (h : Keeps s0 s) : Keeps s0 (closeSpan s a l b) := by
  unfold closeSpan
  repeat' first
    | with_reducible assumption
    | (extract_lets +onlyGivenNames x; first | (refine Keeps.letS (a := x) ?_ fun hx => ?_; rotate_left; clear_value x; revert x; rotate_left; unfold x; clear x) | (try unfold x; clear x))
    | with_reducible refine setSlane_keeps ?_

theorem clearCause_keeps {s0 s : State} {a l c : Nat} (h : Keeps s0 s) : Keeps s0 (clearCause s a l c) := by
  unfold clearCause
  repeat' first
    | with_reducible assumption
    | (extract_lets +onlyGivenNames x; first | (refine Keeps.letS (a := x) ?_ fun hx => ?_; rotate_left; clear_value x; revert x; rotate_left; unfold x; clear x) | (try unfold x; clear x))
    | intro _ _
    | with_reducible refine fset_keeps ?_
    | with_reducible refine syncInh_keeps ?_
    | with_reducible refine closeSpan_keeps ?_
    | with_reducible refine drawn_keeps ?_
    | with_reducible refine Keeps.ite ?_ ?_

theorem failOwn_keeps {s0 s : State} {u cause : Nat} (h : Keeps s0 s) : Keeps s0 (failOwn s u cause) := by
  unfold failOwn
  repeat' first
    | with_reducible assumption
    | (extract_lets +onlyGivenNames x; first | (refine Keeps.letS (a := x) ?_ fun hx => ?_; rotate_left; clear_value x; revert x; rotate_left; unfold x; clear x) | (try unfold x; clear x))
    | with_reducible refine setUState_keeps ?_
    | with_reducible refine setUGrade_keeps ?_
    | with_reducible refine setAux_keeps ?_
    | with_reducible refine Keeps.ite ?_ ?_

theorem mirrorRelease_keeps {s0 s : State} {e : Ext} (h : Keeps s0 s) : Keeps s0 (mirrorRelease s e) := by
  unfold mirrorRelease
  repeat' first
    | with_reducible assumption
    | with_reducible refine mirror_keeps ?_

theorem syncVused_keeps {s0 s : State} (h : Keeps s0 s) : Keeps s0 (syncVused s) := by
  unfold syncVused
  repeat' first
    | with_reducible assumption
    | with_reducible refine wrN_keeps ?_

theorem syncDirty_keeps {s0 s : State} (h : Keeps s0 s) : Keeps s0 (syncDirty s) := by
  unfold syncDirty
  repeat' first
    | with_reducible assumption
    | with_reducible refine fset_keeps ?_
    | with_reducible refine syncVused_keeps ?_

theorem releaseDirty_keeps {s0 s : State} {f : Ext → Bool} (h : Keeps s0 s) : Keeps s0 (releaseDirty s f) := by
  unfold releaseDirty
  repeat' first
    | with_reducible assumption
    | (extract_lets +onlyGivenNames x; first | (refine Keeps.letS (a := x) ?_ fun hx => ?_; rotate_left; clear_value x; revert x; rotate_left; unfold x; clear x) | (try unfold x; clear x))
    | intro _ _
    | with_reducible refine Keeps.forAll ?_ fun _ _ hy => ?_
    | with_reducible refine mirrorRelease_keeps ?_
    | with_reducible refine syncDirty_keeps ?_
    | with_reducible refine Keeps.upd ?_ rfl rfl rfl

theorem discardData_keeps {s0 s : State} {c : Cmd} (h : Keeps s0 s) : Keeps s0 (discardData s c) := by
  unfold discardData
  repeat' first
    | with_reducible assumption
    | (extract_lets +onlyGivenNames x; first | (refine Keeps.letS (a := x) ?_ fun hx => ?_; rotate_left; clear_value x; revert x; rotate_left; unfold x; clear x) | (try unfold x; clear x))
    | intro _ _
    | with_reducible refine setMem_keeps ?_
    | with_reducible refine releaseDirty_keeps ?_
    | with_reducible refine Keeps.ite ?_ ?_

theorem setCmd_keeps {s0 s : State} {c : Cmd} {f : Cmd → Cmd} (h : Keeps s0 s) : Keeps s0 (setCmd s c f) := by
  unfold setCmd
  repeat' first
    | with_reducible assumption
    | (extract_lets +onlyGivenNames x; first | (refine Keeps.letS (a := x) ?_ fun hx => ?_; rotate_left; clear_value x; revert x; rotate_left; unfold x; clear x) | (try unfold x; clear x))
    | with_reducible refine Keeps.upd ?_ rfl rfl rfl

theorem failCmd_keeps {s0 s : State} {c : Cmd} {sct sc : Nat} (h : Keeps s0 s) : Keeps s0 (failCmd s c sct sc) := by
  unfold failCmd
  repeat' first
    | with_reducible assumption
    | (extract_lets +onlyGivenNames x; first | (refine Keeps.letS (a := x) ?_ fun hx => ?_; rotate_left; clear_value x; revert x; rotate_left; unfold x; clear x) | (try unfold x; clear x))
    | with_reducible refine discardData_keeps ?_
    | with_reducible refine setCmd_keeps ?_

theorem zSync_keeps {s0 s : State} {z : Nat} (h : Keeps s0 s) : Keeps s0 (zSync s z) := by
  unfold zSync
  repeat' first
    | with_reducible assumption
    | (extract_lets +onlyGivenNames x; first | (refine Keeps.letS (a := x) ?_ fun hx => ?_; rotate_left; clear_value x; revert x; rotate_left; unfold x; clear x) | (try unfold x; clear x))
    | intro _ _
    | with_reducible refine fset_keeps ?_
    | with_reducible refine wbit_keeps ?_
    | with_reducible refine Keeps.ite ?_ ?_

theorem setPwr_keeps {s0 s : State} {f : PwrState → PwrState} (h : Keeps s0 s) : Keeps s0 (setPwr s f) := by
  unfold setPwr
  repeat' first
    | with_reducible assumption
    | with_reducible refine Keeps.upd ?_ rfl rfl rfl

theorem holdRequest_keeps {s0 s : State} {p kind arg : Nat} (h : Keeps s0 s) : Keeps s0 (holdRequest s p kind arg) := by
  unfold holdRequest
  repeat' first
    | with_reducible assumption
    | (extract_lets +onlyGivenNames x; first | (refine Keeps.letS (a := x) ?_ fun hx => ?_; rotate_left; clear_value x; revert x; rotate_left; unfold x; clear x) | (try unfold x; clear x))
    | intro _ _
    | with_reducible refine evtSet_keeps ?_
    | with_reducible refine count_keeps ?_
    | with_reducible refine Keeps.upd ?_ rfl rfl rfl

theorem setBslot_keeps {s0 s : State} {e k : Nat} {f : BrdSlot → BrdSlot} (h : Keeps s0 s) : Keeps s0 (setBslot s e k f) := by
  unfold setBslot
  repeat' first
    | with_reducible assumption
    | with_reducible refine Keeps.upd ?_ rfl rfl rfl

theorem sync4_keeps {s0 s : State} {a : Nat} (h : Keeps s0 s) : Keeps s0 (sync4 s a) := by
  unfold sync4
  repeat' first
    | with_reducible assumption
    | with_reducible refine Keeps.forAll ?_ fun _ _ hy => ?_
    | with_reducible refine setSrc_keeps ?_

theorem syncFe_keeps {s0 s : State} {e k : Nat} (h : Keeps s0 s) : Keeps s0 (syncFe s e k) := by
  unfold syncFe
  repeat' first
    | with_reducible assumption
    | with_reducible refine sync4_keeps ?_
    | with_reducible refine sync5_keeps ?_
    | with_reducible refine Keeps.ite ?_ ?_

theorem feClear_keeps {s0 s : State} {e k : Nat} (h : Keeps s0 s) : Keeps s0 (feClear s e k) := by
  unfold feClear
  repeat' first
    | with_reducible assumption
    | (extract_lets +onlyGivenNames x; first | (refine Keeps.letS (a := x) ?_ fun hx => ?_; rotate_left; clear_value x; revert x; rotate_left; unfold x; clear x) | (try unfold x; clear x))
    | intro _ _
    | with_reducible refine fset_keeps ?_
    | with_reducible refine fsetb_keeps ?_
    | with_reducible refine syncFe_keeps ?_
    | with_reducible refine setBslot_keeps ?_
    | with_reducible refine Keeps.ite ?_ ?_

theorem fwFeClear_keeps {s0 s : State} {x1 : Nat × Nat} (h : Keeps s0 s) : Keeps s0 (fwFeClear s x1) := by
  unfold fwFeClear
  repeat' first
    | with_reducible assumption
    | with_reducible refine feClear_keeps ?_
    | with_reducible refine Keeps.ite ?_ ?_

theorem stepSwitched_keeps {s0 s : State} {e p : Nat} (h : Keeps s0 s) : Keeps s0 (stepSwitched s e p) := by
  unfold stepSwitched
  repeat' first
    | with_reducible assumption
    | (extract_lets +onlyGivenNames x; first | (refine Keeps.letS (a := x) ?_ fun hx => ?_; rotate_left; clear_value x; revert x; rotate_left; unfold x; clear x) | (try unfold x; clear x))
    | intro _ _
    | with_reducible refine setSpn_keeps ?_
    | with_reducible refine fset_keeps ?_
    | with_reducible refine fwFeClear_keeps ?_
    | with_reducible refine spnSlotRef_keeps ?_
    | with_reducible refine setSpnState_keeps ?_
    | with_reducible refine evtSet_keeps ?_
    | with_reducible refine syncShelf_keeps ?_
    | with_reducible refine Keeps.ite ?_ ?_
    | split

theorem switchDone_keeps {s0 s : State} {e : Nat} (h : Keeps s0 s) : Keeps s0 (switchDone s e) := by
  unfold switchDone
  repeat' first
    | with_reducible assumption
    | (extract_lets +onlyGivenNames x; first | (refine Keeps.letS (a := x) ?_ fun hx => ?_; rotate_left; clear_value x; revert x; rotate_left; unfold x; clear x) | (try unfold x; clear x))
    | intro _ _
    | with_reducible refine Keeps.forAll ?_ fun _ _ hy => ?_
    | with_reducible refine fset_keeps ?_
    | with_reducible refine evtSet_keeps ?_
    | with_reducible refine fsetb_keeps ?_
    | with_reducible refine stepSwitched_keeps ?_
    | with_reducible refine adminOk_keeps ?_
    | with_reducible refine setSpn_keeps ?_
    | with_reducible refine Keeps.ite ?_ ?_
    | split

theorem switchGo_keeps {s0 s : State} {e : Nat} (h : Keeps s0 s) : Keeps s0 (switchGo s e) := by
  unfold switchGo
  repeat' first
    | with_reducible assumption
    | (extract_lets +onlyGivenNames x; first | (refine Keeps.letS (a := x) ?_ fun hx => ?_; rotate_left; clear_value x; revert x; rotate_left; unfold x; clear x) | (try unfold x; clear x))
    | intro _ _
    | with_reducible refine Keeps.forAll ?_ fun _ _ hy => ?_
    | with_reducible refine setBslot_keeps ?_
    | with_reducible refine fset_keeps ?_
    | with_reducible refine fsetb_keeps ?_
    | with_reducible refine switchDone_keeps ?_
    | with_reducible refine Keeps.ite ?_ ?_

theorem groupSwitch_keeps {s0 s : State} {p set : Nat} {ks : List Nat} (h : Keeps s0 s) : Keeps s0 (groupSwitch s p set ks) := by
  unfold groupSwitch
  repeat' first
    | with_reducible assumption
    | (extract_lets +onlyGivenNames x; first | (refine Keeps.letS (a := x) ?_ fun hx => ?_; rotate_left; clear_value x; revert x; rotate_left; unfold x; clear x) | (try unfold x; clear x))
    | intro _ _
    | with_reducible refine Keeps.forAll ?_ fun _ _ hy => ?_
    | with_reducible refine fset_keeps ?_
    | with_reducible refine switchGo_keeps ?_
    | with_reducible refine wrN_keeps ?_

theorem stepSwitch_keeps {s0 s : State} {p : Nat} (h : Keeps s0 s) : Keeps s0 (stepSwitch s p) := by
  unfold stepSwitch
  repeat' first
    | with_reducible assumption
    | (extract_lets +onlyGivenNames x; first | (refine Keeps.letS (a := x) ?_ fun hx => ?_; rotate_left; clear_value x; revert x; rotate_left; unfold x; clear x) | (try unfold x; clear x))
    | with_reducible refine groupSwitch_keeps ?_
    | with_reducible refine setSpn_keeps ?_
    | with_reducible refine Keeps.ite ?_ ?_
    | split

theorem unloadSlice_keeps {s0 s : State} {a : Nat} {emergency : Bool} (h : Keeps s0 s) : Keeps s0 (unloadSlice s a emergency) := by
  unfold unloadSlice
  repeat' first
    | with_reducible assumption
    | (extract_lets +onlyGivenNames x; first | (refine Keeps.letS (a := x) ?_ fun hx => ?_; rotate_left; clear_value x; revert x; rotate_left; unfold x; clear x) | (try unfold x; clear x))
    | intro _ _
    | with_reducible refine count_keeps ?_
    | with_reducible refine fadd_keeps ?_
    | with_reducible refine emit_keeps ?_
    | with_reducible refine setSlice_keeps ?_
    | with_reducible refine Keeps.ite ?_ ?_

theorem unloadHeads_keeps {s0 s : State} {p : Nat} {emergency : Bool} (h : Keeps s0 s) : Keeps s0 (unloadHeads s p emergency) := by
  unfold unloadHeads
  repeat' first
    | with_reducible assumption
    | (extract_lets +onlyGivenNames x; first | (refine Keeps.letS (a := x) ?_ fun hx => ?_; rotate_left; clear_value x; revert x; rotate_left; unfold x; clear x) | (try unfold x; clear x))
    | with_reducible refine unloadSlice_keeps ?_
    | with_reducible refine setSpn_keeps ?_

theorem putSector_keeps {s0 s : State} {x1 : Sector} (h : Keeps s0 s) : Keeps s0 (putSector s x1) := by
  unfold putSector
  repeat' first
    | with_reducible assumption
    | with_reducible refine setDet_keeps ?_

theorem pinSync_keeps {s0 s : State} {n : Nat} (h : Keeps s0 s) : Keeps s0 (pinSync s n) := by
  unfold pinSync
  repeat' first
    | with_reducible assumption
    | with_reducible refine fset_keeps ?_

theorem makePin_keeps {s0 s : State} {n i start len : Nat} (h : Keeps s0 s) : Keeps s0 (makePin s n i start len) := by
  unfold makePin
  repeat' first
    | with_reducible assumption
    | (extract_lets +onlyGivenNames x; first | (refine Keeps.letS (a := x) ?_ fun hx => ?_; rotate_left; clear_value x; revert x; rotate_left; unfold x; clear x) | (try unfold x; clear x))
    | intro _ _
    | with_reducible refine fset_keeps ?_
    | with_reducible refine fsetb_keeps ?_
    | with_reducible refine pinSync_keeps ?_
    | with_reducible refine setDet_keeps ?_

theorem autoPin_keeps {s0 s : State} {x1 : Sector} (h : Keeps s0 s) : Keeps s0 (autoPin s x1) := by
  unfold autoPin
  repeat' first
    | with_reducible assumption
    | (extract_lets +onlyGivenNames x; first | (refine Keeps.letS (a := x) ?_ fun hx => ?_; rotate_left; clear_value x; revert x; rotate_left; unfold x; clear x) | (try unfold x; clear x))
    | with_reducible refine putSector_keeps ?_
    | with_reducible refine makePin_keeps ?_
    | with_reducible refine Keeps.ite ?_ ?_
    | split

theorem beginFill_keeps {s0 s : State} {r n tag mask : Nat} {pf : Bool} {not : Option Nat} (h : Keeps s0 s) : Keeps s0 (beginFill s r n tag mask pf not) := by
  unfold beginFill
  repeat' first
    | with_reducible assumption
    | (extract_lets +onlyGivenNames x; first | (refine Keeps.letS (a := x) ?_ fun hx => ?_; rotate_left; clear_value x; revert x; rotate_left; unfold x; clear x) | (try unfold x; clear x))
    | with_reducible refine setCch_keeps ?_

theorem eraseLine_keeps {s0 s : State} {n off : Nat} (h : Keeps s0 s) : Keeps s0 (eraseLine s n off) := by
  unfold eraseLine
  repeat' first
    | with_reducible assumption
    | (extract_lets +onlyGivenNames x; first | (refine Keeps.letS (a := x) ?_ fun hx => ?_; rotate_left; clear_value x; revert x; rotate_left; unfold x; clear x) | (try unfold x; clear x))
    | with_reducible refine setDet_keeps ?_

theorem zeroLlrs_keeps {s0 s : State} {key off : Nat} (h : Keeps s0 s) : Keeps s0 (zeroLlrs s key off) := by
  unfold zeroLlrs
  repeat' first
    | with_reducible assumption
    | (extract_lets +onlyGivenNames x; first | (refine Keeps.letS (a := x) ?_ fun hx => ?_; rotate_left; clear_value x; revert x; rotate_left; unfold x; clear x) | (try unfold x; clear x))
    | with_reducible refine setDet_keeps ?_

theorem setLine_keeps {s0 s : State} {f : Nat} {l : CacheLine} (h : Keeps s0 s) : Keeps s0 (setLine s f l) := by
  unfold setLine
  repeat' first
    | with_reducible assumption
    | (extract_lets +onlyGivenNames x; first | (refine Keeps.letS (a := x) ?_ fun hx => ?_; rotate_left; clear_value x; revert x; rotate_left; unfold x; clear x) | (try unfold x; clear x))
    | with_reducible refine syncCache_keeps ?_
    | with_reducible refine setCch_keeps ?_

theorem putLine_keeps {s0 s : State} {f : Nat} {l : CacheLine} (h : Keeps s0 s) : Keeps s0 (putLine s f l) := by
  unfold putLine
  repeat' first
    | with_reducible assumption
    | (extract_lets +onlyGivenNames x; first | (refine Keeps.letS (a := x) ?_ fun hx => ?_; rotate_left; clear_value x; revert x; rotate_left; unfold x; clear x) | (try unfold x; clear x))
    | with_reducible refine flipNow_keeps ?_
    | with_reducible refine setLine_keeps ?_
    | with_reducible refine Keeps.ite ?_ ?_

theorem syncAcc_keeps {s0 s : State} (h : Keeps s0 s) : Keeps s0 (syncAcc s) := by
  unfold syncAcc
  repeat' first
    | with_reducible assumption
    | with_reducible refine fset_keeps ?_

theorem setBad_keeps {s0 s : State} {rgn own : Nat} {f : BadLine → BadLine} (h : Keeps s0 s) : Keeps s0 (setBad s rgn own f) := by
  unfold setBad
  repeat' first
    | with_reducible assumption
    | with_reducible refine setMem_keeps ?_

theorem lineRead_keeps {s0 s : State} {rgn own : Nat} (h : Keeps s0 s) : Keeps s0 (lineRead s rgn own).1 := by
  unfold lineRead
  repeat' first
    | with_reducible assumption
    | split
    | dsimp only
    | (extract_lets +onlyGivenNames x; first | (refine Keeps.letS (a := x) ?_ fun hx => ?_; rotate_left; clear_value x; revert x; rotate_left; unfold x; clear x) | (try unfold x; clear x))
    | with_reducible refine evtSet_keeps ?_
    | with_reducible refine count_keeps ?_
    | with_reducible refine drawn_keeps ?_
    | with_reducible refine setBad_keeps ?_
    | with_reducible refine memError_keeps ?_
    | with_reducible refine dropBad_keeps ?_

theorem strideTrack_keeps {s0 s : State} {r n zone slba len : Nat} (h : Keeps s0 s) : Keeps s0 (strideTrack s r n zone slba len) := by
  unfold strideTrack
  repeat' first
    | with_reducible assumption
    | (extract_lets +onlyGivenNames x; first | (refine Keeps.letS (a := x) ?_ fun hx => ?_; rotate_left; clear_value x; revert x; rotate_left; unfold x; clear x) | (try unfold x; clear x))
    | intro _ _
    | with_reducible refine setCch_keeps ?_
    | with_reducible refine fset_keeps ?_
    | with_reducible refine Keeps.ite ?_ ?_

theorem cacheTouch_keeps {s0 s : State} {f : Nat} (h : Keeps s0 s) : Keeps s0 (cacheTouch s f) := by
  unfold cacheTouch
  repeat' first
    | with_reducible assumption
    | with_reducible refine setCch_keeps ?_

theorem victimHit_keeps {s0 s : State} {f : Nat} (h : Keeps s0 s) : Keeps s0 (victimHit s f) := by
  unfold victimHit
  repeat' first
    | with_reducible assumption
    | (extract_lets +onlyGivenNames x; first | (refine Keeps.letS (a := x) ?_ fun hx => ?_; rotate_left; clear_value x; revert x; rotate_left; unfold x; clear x) | (try unfold x; clear x))
    | intro _ _
    | with_reducible refine setCch_keeps ?_
    | with_reducible refine count_keeps ?_
    | with_reducible refine beginFill_keeps ?_
    | with_reducible refine Keeps.ite ?_ ?_
    | split

theorem cacheLookup_keeps {s0 s : State} {r n tag mask : Nat} (h : Keeps s0 s) : Keeps s0 (cacheLookup s r n tag mask) := by
  unfold cacheLookup
  repeat' first
    | with_reducible assumption
    | (extract_lets +onlyGivenNames x; first | (refine Keeps.letS (a := x) ?_ fun hx => ?_; rotate_left; clear_value x; revert x; rotate_left; unfold x; clear x) | (try unfold x; clear x))
    | intro _ _
    | with_reducible refine cacheTouch_keeps ?_
    | with_reducible refine victimHit_keeps ?_
    | with_reducible refine count_keeps ?_
    | with_reducible refine putLine_keeps ?_
    | with_reducible refine beginFill_keeps ?_
    | with_reducible refine Keeps.ite ?_ ?_
    | split

theorem cacheTrim_keeps {s0 s : State} {n z wp : Nat} (h : Keeps s0 s) : Keeps s0 (cacheTrim s n z wp) := by
  unfold cacheTrim
  repeat' first
    | with_reducible assumption
    | (extract_lets +onlyGivenNames x; first | (refine Keeps.letS (a := x) ?_ fun hx => ?_; rotate_left; clear_value x; revert x; rotate_left; unfold x; clear x) | (try unfold x; clear x))
    | intro _ _
    | with_reducible refine setCch_keeps ?_
    | with_reducible refine markStale_keeps ?_
    | with_reducible refine Keeps.forAll ?_ fun _ _ hy => ?_
    | with_reducible refine putLine_keeps ?_
    | with_reducible refine Keeps.ite ?_ ?_

theorem deferError_keeps {s0 s : State} {e : Ext} (h : Keeps s0 s) : Keeps s0 (deferError s e) := by
  unfold deferError
  repeat' first
    | with_reducible assumption
    | (extract_lets +onlyGivenNames x; first | (refine Keeps.letS (a := x) ?_ fun hx => ?_; rotate_left; clear_value x; revert x; rotate_left; unfold x; clear x) | (try unfold x; clear x))
    | intro _ _
    | with_reducible refine putZone_keeps ?_
    | with_reducible refine setZmp_keeps ?_
    | with_reducible refine fset_keeps ?_
    | with_reducible refine evtSet_keeps ?_
    | with_reducible refine zoneChanged_keeps ?_
    | with_reducible refine Keeps.ite ?_ ?_

theorem lostRange_keeps {s0 s : State} {e : Ext} (h : Keeps s0 s) : Keeps s0 (lostRange s e) := by
  unfold lostRange
  repeat' first
    | with_reducible assumption
    | (extract_lets +onlyGivenNames x; first | (refine Keeps.letS (a := x) ?_ fun hx => ?_; rotate_left; clear_value x; revert x; rotate_left; unfold x; clear x) | (try unfold x; clear x))
    | intro _ _
    | with_reducible refine cacheTrim_keeps ?_
    | with_reducible refine setZState_keeps ?_
    | with_reducible refine putZone_keeps ?_
    | with_reducible refine evtSet_keeps ?_
    | with_reducible refine count_keeps ?_
    | with_reducible refine setZmp_keeps ?_
    | with_reducible refine deferError_keeps ?_
    | with_reducible refine Keeps.ite ?_ ?_

theorem logError_keeps {s0 s : State} {x sq cid sct sc n lba : Nat} (h : Keeps s0 s) :
    Keeps s0 (logError s x sq cid sct sc n lba) := by
  refine ⟨h.pending, h.out, fun i => ⟨(h.inv i).regs, (h.inv i).tails, ?_, (h.inv i).status⟩⟩
  simp only [logError, List.length_take]
  omega

theorem demandMech_keeps {s0 s : State} {v : Nat} (h : Keeps s0 s) : Keeps s0 (demandMech s v) := by
  unfold demandMech
  repeat' first
    | with_reducible assumption
    | (extract_lets +onlyGivenNames x; first | (refine Keeps.letS (a := x) ?_ fun hx => ?_; rotate_left; clear_value x; revert x; rotate_left; unfold x; clear x) | (try unfold x; clear x))
    | intro _ _
    | with_reducible refine setAux_keeps ?_
    | with_reducible refine Keeps.ite ?_ ?_
    | with_reducible refine Keeps.upd ?_ rfl rfl rfl

theorem wakeDemand_keeps {s0 s : State} {u : Nat} (h : Keeps s0 s) : Keeps s0 (wakeDemand s u) := by
  unfold wakeDemand
  repeat' first
    | with_reducible assumption
    | (extract_lets +onlyGivenNames x; first | (refine Keeps.letS (a := x) ?_ fun hx => ?_; rotate_left; clear_value x; revert x; rotate_left; unfold x; clear x) | (try unfold x; clear x))
    | with_reducible refine Keeps.forAll ?_ fun _ _ hy => ?_
    | with_reducible refine setUState_keeps ?_
    | with_reducible refine demandMech_keeps ?_
    | with_reducible refine Keeps.ite ?_ ?_

theorem takeCtx_keeps {s0 s t : State} {k : Nat} (e : takeCtx s k = some t) (h : Keeps s0 s) : Keeps s0 t := by
  unfold takeCtx at e
  split at e
  · exact Option.some.inj e ▸ h
  · obtain ⟨i, -, rfl⟩ := Option.map_eq_some_iff.1 e
    exact ctxSync_keeps (Keeps.upd h rfl rfl rfl)

theorem takeCtxD_keeps {s0 s d : State} {k : Nat} (h : Keeps s0 s) (hd : Keeps s0 d) : Keeps s0 ((takeCtx s k).getD d) := by
  cases e : takeCtx s k with
  | none => exact hd
  | some t => exact takeCtx_keeps e h

theorem tsbRead_keeps {s0 s : State} {p purpose addr len : Nat} (h : Keeps s0 s) : Keeps s0 (tsbRead s p purpose addr len) := by
  unfold tsbRead
  repeat' first
    | with_reducible assumption
    | with_reducible refine tsbSend_keeps ?_

theorem evtSets_keeps {s0 s : State} {b : EvtBlk} {is : List Nat} (h : Keeps s0 s) : Keeps s0 (evtSets s b is) := by
  unfold evtSets
  repeat' first
    | with_reducible assumption
    | with_reducible refine Keeps.forAll ?_ fun _ _ hy => ?_
    | with_reducible refine evtSet_keeps ?_

theorem flowEnterD_keeps {s0 s d : State} {z : Nat} {x : ZThread} (h : Keeps s0 s) (hd : Keeps s0 d) :
    Keeps s0 ((flowEnter s z x).getD d) := by
  unfold flowEnter
  split
  · exact hd
  · cases (rangeFrom 0 64).find? fun t => !threadBusy (zthread s z t) with
    | none => exact hd
    | some t => exact zSync_keeps (setThread_keeps h)

theorem takeMode_keeps {s0 s : State} {e k : Nat} (h : Keeps s0 s) : Keeps s0 (takeMode s e k) := by
  unfold takeMode
  repeat' first
    | with_reducible assumption
    | (extract_lets +onlyGivenNames x; first | (refine Keeps.letS (a := x) ?_ fun hx => ?_; rotate_left; clear_value x; revert x; rotate_left; unfold x; clear x) | (try unfold x; clear x))
    | with_reducible refine setBslot_keeps ?_
    | with_reducible refine Keeps.ite ?_ ?_

theorem syncQ_keeps {s0 s : State} {e : Nat} (h : Keeps s0 s) : Keeps s0 (syncQ s e) := by
  unfold syncQ
  repeat' first
    | with_reducible assumption
    | (extract_lets +onlyGivenNames x; first | (refine Keeps.letS (a := x) ?_ fun hx => ?_; rotate_left; clear_value x; revert x; rotate_left; unfold x; clear x) | (try unfold x; clear x))
    | intro _ _
    | with_reducible refine fset_keeps ?_
    | with_reducible refine Keeps.ite ?_ ?_

theorem fixedOutput_keeps {s0 s : State} {e k : Nat} {o : List (Int × Nat × Bool)} (h : Keeps s0 s) : Keeps s0 (fixedOutput s e k o) := by
  unfold fixedOutput
  repeat' first
    | with_reducible assumption
    | (extract_lets +onlyGivenNames x; first | (refine Keeps.letS (a := x) ?_ fun hx => ?_; rotate_left; clear_value x; revert x; rotate_left; unfold x; clear x) | (try unfold x; clear x))
    | with_reducible refine syncQ_keeps ?_
    | with_reducible refine setBslot_keeps ?_

theorem overrun_keeps {s0 s : State} {e : Nat} (h : Keeps s0 s) : Keeps s0 (overrun s e) := by
  unfold overrun
  repeat' first
    | with_reducible assumption
    | with_reducible refine evtSet_keeps ?_
    | with_reducible refine count_keeps ?_

theorem brdTrigger_keeps {s0 s : State} {e k t1 tdem : Nat} {input : Int} {missed : Bool} (h : Keeps s0 s) : Keeps s0 (brdTrigger s e k t1 tdem input missed) := by
  unfold brdTrigger
  repeat' first
    | with_reducible assumption
    | (extract_lets +onlyGivenNames x; first | (refine Keeps.letS (a := x) ?_ fun hx => ?_; rotate_left; clear_value x; revert x; rotate_left; unfold x; clear x) | (try unfold x; clear x))
    | intro _ _
    | with_reducible refine takeMode_keeps ?_
    | with_reducible refine fixedOutput_keeps ?_
    | with_reducible refine overrun_keeps ?_
    | with_reducible refine syncQ_keeps ?_
    | with_reducible refine setBslot_keeps ?_
    | with_reducible refine Keeps.ite ?_ ?_

theorem lineWritten_keeps {s0 s : State} {rgn own : Nat} {page : Option Nat} (h : Keeps s0 s) : Keeps s0 (lineWritten s rgn own page) := by
  unfold lineWritten
  repeat' first
    | with_reducible assumption
    | (extract_lets +onlyGivenNames x; first | (refine Keeps.letS (a := x) ?_ fun hx => ?_; rotate_left; clear_value x; revert x; rotate_left; unfold x; clear x) | (try unfold x; clear x))
    | intro _ _
    | with_reducible refine setMem_keeps ?_
    | with_reducible refine drawn_keeps ?_
    | with_reducible refine flipFire_keeps ?_
    | with_reducible refine Keeps.ite ?_ ?_
    | split

theorem cacheClean_keeps {s0 s : State} {n lba : Nat} (h : Keeps s0 s) : Keeps s0 (cacheClean s n lba) := by
  unfold cacheClean
  repeat' first
    | with_reducible assumption
    | with_reducible refine putLine_keeps ?_
    | split

theorem cacheDropZone_keeps {s0 s : State} {n z : Nat} (h : Keeps s0 s) : Keeps s0 (cacheDropZone s n z) := by
  unfold cacheDropZone
  repeat' first
    | with_reducible assumption
    | (extract_lets +onlyGivenNames x; first | (refine Keeps.letS (a := x) ?_ fun hx => ?_; rotate_left; clear_value x; revert x; rotate_left; unfold x; clear x) | (try unfold x; clear x))
    | with_reducible refine cacheDrop_keeps ?_

theorem subWritten_keeps {s0 s : State} {f i : Nat} (h : Keeps s0 s) : Keeps s0 (subWritten s f i) := by
  unfold subWritten
  repeat' first
    | with_reducible assumption
    | with_reducible refine lineWritten_keeps ?_

theorem cacheInstall_keeps {s0 s : State} {r n lba v : Nat} (h : Keeps s0 s) : Keeps s0 (cacheInstall s r n lba v) := by
  unfold cacheInstall
  repeat' first
    | with_reducible assumption
    | (extract_lets +onlyGivenNames x; first | (refine Keeps.letS (a := x) ?_ fun hx => ?_; rotate_left; clear_value x; revert x; rotate_left; unfold x; clear x) | (try unfold x; clear x))
    | with_reducible refine cacheTouch_keeps ?_
    | with_reducible refine subWritten_keeps ?_
    | with_reducible refine putLine_keeps ?_
    | with_reducible refine Keeps.ite ?_ ?_
    | split

theorem cacheWrite_keeps {s0 s : State} {n lba v : Nat} (h : Keeps s0 s) : Keeps s0 (cacheWrite s n lba v) := by
  unfold cacheWrite
  repeat' first
    | with_reducible assumption
    | (extract_lets +onlyGivenNames x; first | (refine Keeps.letS (a := x) ?_ fun hx => ?_; rotate_left; clear_value x; revert x; rotate_left; unfold x; clear x) | (try unfold x; clear x))
    | intro _ _
    | with_reducible refine setCch_keeps ?_
    | with_reducible refine markStale_keeps ?_
    | with_reducible refine subWritten_keeps ?_
    | with_reducible refine putLine_keeps ?_
    | with_reducible refine Keeps.ite ?_ ?_
    | split

theorem leafGrade_keeps {s0 s : State} {u g cause : Nat} (h : Keeps s0 s) : Keeps s0 (leafGrade s u g cause) := by
  unfold leafGrade
  repeat' first
    | with_reducible assumption
    | (extract_lets +onlyGivenNames x; first | (refine Keeps.letS (a := x) ?_ fun hx => ?_; rotate_left; clear_value x; revert x; rotate_left; unfold x; clear x) | (try unfold x; clear x))
    | intro _ _
    | with_reducible refine setUGrade_keeps ?_
    | with_reducible refine setUState_keeps ?_
    | with_reducible refine Keeps.ite ?_ ?_

theorem fillZone_keeps {s0 s : State} {n z : Nat} (h : Keeps s0 s) : Keeps s0 (fillZone s n z) := by
  unfold fillZone
  repeat' first
    | with_reducible assumption
    | (extract_lets +onlyGivenNames x; first | (refine Keeps.letS (a := x) ?_ fun hx => ?_; rotate_left; clear_value x; revert x; rotate_left; unfold x; clear x) | (try unfold x; clear x))
    | intro _ _
    | with_reducible refine emit_keeps ?_
    | with_reducible refine emitAll_keeps ?_
    | with_reducible refine Keeps.ite ?_ ?_

theorem finishZone_keeps {s0 s : State} {n z : Nat} (h : Keeps s0 s) : Keeps s0 (finishZone s n z) := by
  unfold finishZone
  repeat' first
    | with_reducible assumption
    | (extract_lets +onlyGivenNames x; first | (refine Keeps.letS (a := x) ?_ fun hx => ?_; rotate_left; clear_value x; revert x; rotate_left; unfold x; clear x) | (try unfold x; clear x))
    | intro _ _
    | with_reducible refine fillZone_keeps ?_
    | with_reducible refine setZState_keeps ?_
    | with_reducible refine putZone_keeps ?_

theorem finishZonesIn_keeps {s0 s : State} {u : Nat} (h : Keeps s0 s) : Keeps s0 (finishZonesIn s u) := by
  unfold finishZonesIn
  repeat' first
    | with_reducible assumption
    | with_reducible refine Keeps.forAll ?_ fun _ _ hy => ?_
    | with_reducible refine finishZone_keeps ?_
    | with_reducible refine Keeps.ite ?_ ?_

theorem retireUnit_keeps {s0 s : State} {u cause : Nat} (h : Keeps s0 s) : Keeps s0 (retireUnit s u cause) := by
  unfold retireUnit
  repeat' first
    | with_reducible assumption
    | (extract_lets +onlyGivenNames x; first | (refine Keeps.letS (a := x) ?_ fun hx => ?_; rotate_left; clear_value x; revert x; rotate_left; unfold x; clear x) | (try unfold x; clear x))
    | intro _ _
    | with_reducible refine finishZonesIn_keeps ?_
    | with_reducible refine setAux_keeps ?_
    | with_reducible refine setUState_keeps ?_
    | with_reducible refine setUGrade_keeps ?_
    | with_reducible refine Keeps.ite ?_ ?_

theorem calPend_keeps {s0 s : State} {a : Nat} {ask : Option (Option Nat × Option (Nat × Nat))} (h : Keeps s0 s) : Keeps s0 (calPend s a ask) := by
  unfold calPend
  repeat' first
    | with_reducible assumption
    | (extract_lets +onlyGivenNames x; first | (refine Keeps.letS (a := x) ?_ fun hx => ?_; rotate_left; clear_value x; revert x; rotate_left; unfold x; clear x) | (try unfold x; clear x))
    | intro _ _
    | with_reducible refine evtSet_keeps ?_
    | with_reducible refine wbit_keeps ?_
    | with_reducible refine Keeps.ite ?_ ?_
    | with_reducible refine Keeps.upd ?_ rfl rfl rfl

theorem celogFree_keeps {s0 s : State} {i : Nat} (h : Keeps s0 s) : Keeps s0 (celogFree s i) := by
  unfold celogFree
  repeat' first
    | with_reducible assumption
    | with_reducible refine syncCelog_keeps ?_
    | with_reducible refine fsetb_keeps ?_

theorem claimHeld_keeps {s0 s : State} {x1 cid : Nat} (h : Keeps s0 s) : Keeps s0 (claimHeld s x1 cid) := by
  unfold claimHeld
  repeat' first
    | with_reducible assumption
    | with_reducible refine adminEnd_keeps ?_

theorem laneSync_keeps {s0 s : State} {n : Nat} (h : Keeps s0 s) : Keeps s0 (laneSync s n) := by
  unfold laneSync
  repeat' first
    | with_reducible assumption
    | (extract_lets +onlyGivenNames x; first | (refine Keeps.letS (a := x) ?_ fun hx => ?_; rotate_left; clear_value x; revert x; rotate_left; unfold x; clear x) | (try unfold x; clear x))
    | with_reducible refine fset_keeps ?_

theorem retryClose_keeps {s0 s : State} {n result iter : Nat} (h : Keeps s0 s) : Keeps s0 (retryClose s n result iter) := by
  unfold retryClose
  repeat' first
    | with_reducible assumption
    | (extract_lets +onlyGivenNames x; first | (refine Keeps.letS (a := x) ?_ fun hx => ?_; rotate_left; clear_value x; revert x; rotate_left; unfold x; clear x) | (try unfold x; clear x))
    | intro _ _
    | with_reducible refine fset_keeps ?_
    | with_reducible refine fsetb_keeps ?_
    | with_reducible refine setDet_keeps ?_
    | with_reducible refine count_keeps ?_
    | with_reducible refine laneSync_keeps ?_
    | with_reducible refine Keeps.ite ?_ ?_
    | split

theorem setJobs_keeps {s0 s : State} {f : List DecJob → List DecJob} (h : Keeps s0 s) : Keeps s0 (setJobs s f) := by
  unfold setJobs
  repeat' first
    | with_reducible assumption
    | (extract_lets +onlyGivenNames x; first | (refine Keeps.letS (a := x) ?_ fun hx => ?_; rotate_left; clear_value x; revert x; rotate_left; unfold x; clear x) | (try unfold x; clear x))
    | with_reducible refine queueSync_keeps ?_
    | with_reducible refine setDet_keeps ?_

theorem dropLlrs_keeps {s0 s : State} {sec lane : Nat} (h : Keeps s0 s) : Keeps s0 (dropLlrs s sec lane) := by
  unfold dropLlrs
  repeat' first
    | with_reducible assumption
    | with_reducible refine setDet_keeps ?_

theorem giveSlot_keeps {s0 s : State} {n : Nat} (h : Keeps s0 s) : Keeps s0 (giveSlot s n) := by
  unfold giveSlot
  repeat' first
    | with_reducible assumption
    | with_reducible refine fset_keeps ?_

theorem dropSlot_keeps {s0 s : State} {x1 : Sector} (h : Keeps s0 s) : Keeps s0 (dropSlot s x1) := by
  unfold dropSlot
  repeat' first
    | with_reducible assumption
    | (extract_lets +onlyGivenNames x; first | (refine Keeps.letS (a := x) ?_ fun hx => ?_; rotate_left; clear_value x; revert x; rotate_left; unfold x; clear x) | (try unfold x; clear x))
    | with_reducible refine putSector_keeps ?_
    | with_reducible refine dropLlrs_keeps ?_
    | with_reducible refine giveSlot_keeps ?_
    | with_reducible refine Keeps.ite ?_ ?_

theorem retryJobGone_keeps {s0 s : State} {r : Retry} (h : Keeps s0 s) : Keeps s0 (retryJobGone s r) := by
  unfold retryJobGone
  repeat' first
    | with_reducible assumption
    | (extract_lets +onlyGivenNames x; first | (refine Keeps.letS (a := x) ?_ fun hx => ?_; rotate_left; clear_value x; revert x; rotate_left; unfold x; clear x) | (try unfold x; clear x))
    | intro _ _
    | with_reducible refine setJobs_keeps ?_
    | with_reducible refine dropSlot_keeps ?_
    | with_reducible refine dropLlrs_keeps ?_
    | with_reducible refine giveSlot_keeps ?_
    | with_reducible refine putSector_keeps ?_
    | with_reducible refine Keeps.ite ?_ ?_
    | split

theorem clearPin_keeps {s0 s : State} {n i : Nat} (h : Keeps s0 s) : Keeps s0 (clearPin s n i) := by
  unfold clearPin
  repeat' first
    | with_reducible assumption
    | (extract_lets +onlyGivenNames x; first | (refine Keeps.letS (a := x) ?_ fun hx => ?_; rotate_left; clear_value x; revert x; rotate_left; unfold x; clear x) | (try unfold x; clear x))
    | intro _ _
    | with_reducible refine setDet_keeps ?_
    | with_reducible refine fsetb_keeps ?_
    | with_reducible refine pinSync_keeps ?_
    | with_reducible refine retryClose_keeps ?_
    | with_reducible refine retryJobGone_keeps ?_
    | split

theorem clearRC_keeps {s0 s : State} {a : Nat} (h : Keeps s0 s) : Keeps s0 (clearRC s a) := by
  unfold clearRC
  repeat' first
    | with_reducible assumption
    | with_reducible refine Keeps.forAll ?_ fun _ _ hy => ?_
    | with_reducible refine fset_keeps ?_
    | with_reducible refine Keeps.ite ?_ ?_
    | split

theorem putLlrs_keeps {s0 s : State} {sec lane : Nat} {l : List Int} (h : Keeps s0 s) : Keeps s0 (putLlrs s sec lane l) := by
  unfold putLlrs
  repeat' first
    | with_reducible assumption
    | (extract_lets +onlyGivenNames x; first | (refine Keeps.letS (a := x) ?_ fun hx => ?_; rotate_left; clear_value x; revert x; rotate_left; unfold x; clear x) | (try unfold x; clear x))
    | intro _ _
    | with_reducible refine setDet_keeps ?_
    | with_reducible refine flipNow_keeps ?_
    | with_reducible refine zeroLlrs_keeps ?_
    | with_reducible refine Keeps.ite ?_ ?_

theorem takeSlot_keeps {s0 s : State} {n : Nat} (h : Keeps s0 s) : Keeps s0 (takeSlot s n) := by
  unfold takeSlot
  repeat' first
    | with_reducible assumption
    | (extract_lets +onlyGivenNames x; first | (refine Keeps.letS (a := x) ?_ fun hx => ?_; rotate_left; clear_value x; revert x; rotate_left; unfold x; clear x) | (try unfold x; clear x))
    | intro _ _
    | with_reducible refine fset_keeps ?_

theorem queuedDetect_keeps {s0 s : State} {x1 : Sector} (h : Keeps s0 s) : Keeps s0 (queuedDetect s x1) := by
  unfold queuedDetect
  repeat' first
    | with_reducible assumption
    | (extract_lets +onlyGivenNames x; first | (refine Keeps.letS (a := x) ?_ fun hx => ?_; rotate_left; clear_value x; revert x; rotate_left; unfold x; clear x) | (try unfold x; clear x))
    | intro _ _
    | with_reducible refine putLlrs_keeps ?_
    | with_reducible refine putSector_keeps ?_
    | with_reducible refine takeSlot_keeps ?_
    | with_reducible refine addJob_keeps ?_

theorem retryTry_keeps {s0 s : State} {r : Retry} (h : Keeps s0 s) : Keeps s0 (retryTry s r).1 := by
  unfold retryTry
  repeat' first
    | with_reducible assumption
    | split
    | dsimp only
    | (extract_lets +onlyGivenNames x; first | (refine Keeps.letS (a := x) ?_ fun hx => ?_; rotate_left; clear_value x; revert x; rotate_left; unfold x; clear x) | (try unfold x; clear x))
    | with_reducible refine retryClose_keeps ?_
    | with_reducible refine putSector_keeps ?_
    | with_reducible refine takeSlot_keeps ?_
    | with_reducible refine setDet_keeps ?_
    | with_reducible refine putLlrs_keeps ?_
    | with_reducible refine addJob_keeps ?_
    | with_reducible refine laneSync_keeps ?_

theorem endedPin_keeps {s0 s : State} {x1 : Sector} {st : Nat} (h : Keeps s0 s) : Keeps s0 (endedPin s x1 st) := by
  unfold endedPin
  repeat' first
    | with_reducible assumption
    | (extract_lets +onlyGivenNames x; first | (refine Keeps.letS (a := x) ?_ fun hx => ?_; rotate_left; clear_value x; revert x; rotate_left; unfold x; clear x) | (try unfold x; clear x))
    | with_reducible refine clearPin_keeps ?_
    | with_reducible refine setDet_keeps ?_
    | with_reducible refine Keeps.ite ?_ ?_
    | split

theorem fmtLast_keeps {s0 s : State} {a st head rung pos track : Nat} (h : Keeps s0 s) : Keeps s0 (fmtLast s a st head rung pos track) := by
  unfold fmtLast
  repeat' first
    | with_reducible assumption
    | with_reducible refine wrN_keeps ?_

theorem endEvents_keeps {s0 s : State} {a st : Nat} (h : Keeps s0 s) : Keeps s0 (endEvents s a st) := by
  unfold endEvents
  repeat' first
    | with_reducible assumption
    | with_reducible refine evtSet_keeps ?_
    | with_reducible refine count_keeps ?_
    | with_reducible refine Keeps.ite ?_ ?_

theorem reportReloc_keeps {s0 s : State} {x1 : Sector} {verifyFail : Bool} (h : Keeps s0 s) : Keeps s0 (reportReloc s x1 verifyFail) := by
  unfold reportReloc
  repeat' first
    | with_reducible assumption
    | with_reducible refine setDet_keeps ?_
    | split

theorem readFailed_keeps {s0 s : State} {x1 : Sector} {st : Nat} (h : Keeps s0 s) : Keeps s0 (readFailed s x1 st) := by
  unfold readFailed
  repeat' first
    | with_reducible assumption
    | (extract_lets +onlyGivenNames x; first | (refine Keeps.letS (a := x) ?_ fun hx => ?_; rotate_left; clear_value x; revert x; rotate_left; unfold x; clear x) | (try unfold x; clear x))
    | with_reducible refine setDet_keeps ?_
    | with_reducible refine Keeps.ite ?_ ?_

theorem endSector_keeps {s0 s : State} {x1 : Sector} {st : Nat} (h : Keeps s0 s) : Keeps s0 (endSector s x1 st) := by
  unfold endSector
  repeat' first
    | with_reducible assumption
    | (extract_lets +onlyGivenNames x; first | (refine Keeps.letS (a := x) ?_ fun hx => ?_; rotate_left; clear_value x; revert x; rotate_left; unfold x; clear x) | (try unfold x; clear x))
    | intro _ _
    | with_reducible refine retryClose_keeps ?_
    | with_reducible refine endedPin_keeps ?_
    | with_reducible refine dropSlot_keeps ?_
    | with_reducible refine setJobs_keeps ?_
    | with_reducible refine setDet_keeps ?_
    | with_reducible refine fmtLast_keeps ?_
    | with_reducible refine endEvents_keeps ?_
    | with_reducible refine reportReloc_keeps ?_
    | with_reducible refine readFailed_keeps ?_
    | with_reducible refine Keeps.forAll ?_ fun _ _ hy => ?_
    | with_reducible refine emit_keeps ?_
    | with_reducible refine Keeps.ite ?_ ?_

theorem retryBegin_keeps {s0 s : State} {n sec pin word : Nat} {tbl : Bool} (h : Keeps s0 s) : Keeps s0 (retryBegin s n sec pin word tbl) := by
  unfold retryBegin
  repeat' first
    | with_reducible assumption
    | (extract_lets +onlyGivenNames x; first | (refine Keeps.letS (a := x) ?_ fun hx => ?_; rotate_left; clear_value x; revert x; rotate_left; unfold x; clear x) | (try unfold x; clear x))
    | intro _ _
    | with_reducible refine wrN_keeps ?_
    | with_reducible refine setDet_keeps ?_
    | with_reducible refine fsetb_keeps ?_

theorem rungTry_keeps {s0 s : State} {x : Sector} {l : Ladder} (h : Keeps s0 s) : Keeps s0 (rungTry s x l).1 := by
  unfold rungTry
  with_reducible exact Keeps.mk1 (retryTry_keeps (retryBegin_keeps (putSector_keeps h)))

theorem ladderAct_keeps {s0 s : State} {x : Sector} {l : Ladder} {go : State → Sector → Ladder → State} (hf : ∀ t y k, Keeps s0 t → Keeps s0 (go t y k)) (h : Keeps s0 s) : Keeps s0 (ladderAct go s x l) := by
  unfold ladderAct
  extract_lets act r
  have g : Keeps s0 r.1 := by with_reducible exact rungTry_keeps h
  clear_value act r
  obtain ⟨t, o⟩ := r
  refine Keeps.ite (hf _ _ _ h) (Keeps.ite (endSector_keeps h) (Keeps.ite (hf _ _ _ h) (Keeps.ite ?_ (putSector_keeps h))))
  cases o with
  | none => exact g
  | some l' => exact hf _ _ _ g

theorem ladderGo_keeps {s0 : State} {n : Nat} {s : State} {x : Sector} {l : Ladder} (h : Keeps s0 s) :
    Keeps s0 (ladderGo n s x l) := by
  induction n generalizing s x l with
  | zero => exact endSector_keeps h
  | succ n ih => exact ladderAct_keeps (fun _ _ _ => ih) h

theorem settleDet_keeps {s0 s : State} (h : Keeps s0 s) : Keeps s0 (settleDet s) := by
  unfold settleDet
  repeat' first
    | with_reducible assumption
    | (extract_lets +onlyGivenNames x; first | (refine Keeps.letS (a := x) ?_ fun hx => ?_; rotate_left; clear_value x; revert x; rotate_left; unfold x; clear x) | (try unfold x; clear x))
    | intro _ _
    | with_reducible refine Keeps.forAll ?_ fun _ _ hy => ?_
    | with_reducible refine queuedDetect_keeps ?_
    | with_reducible refine retryTry_keeps ?_
    | with_reducible refine ladderGo_keeps ?_
    | with_reducible refine Keeps.ite ?_ ?_
    | split

theorem readClose_keeps {s0 s : State} {n : Nat} (h : Keeps s0 s) : Keeps s0 (readClose s n) := by
  unfold readClose
  repeat' first
    | with_reducible assumption
    | (extract_lets +onlyGivenNames x; first | (refine Keeps.letS (a := x) ?_ fun hx => ?_; rotate_left; clear_value x; revert x; rotate_left; unfold x; clear x) | (try unfold x; clear x))
    | intro _ _
    | with_reducible refine setDet_keeps ?_
    | with_reducible refine wrN_keeps ?_
    | with_reducible refine Keeps.forAll ?_ fun _ _ hy => ?_
    | with_reducible refine Keeps.ite ?_ ?_
    | split

theorem liveEnd_keeps {s0 s : State} {n : Nat} (h : Keeps s0 s) : Keeps s0 (liveEnd s n) := by
  unfold liveEnd
  repeat' first
    | with_reducible assumption
    | (extract_lets +onlyGivenNames x; first | (refine Keeps.letS (a := x) ?_ fun hx => ?_; rotate_left; clear_value x; revert x; rotate_left; unfold x; clear x) | (try unfold x; clear x))
    | with_reducible refine settleDet_keeps ?_
    | with_reducible refine laneSync_keeps ?_
    | with_reducible refine setDet_keeps ?_
    | with_reducible refine readClose_keeps ?_

theorem latchCond_keeps {s0 s : State} {f c : Nat} (h : Keeps s0 s) : Keeps s0 (latchCond s f c) := by
  unfold latchCond
  repeat' first
    | with_reducible assumption
    | with_reducible refine setFseq_keeps ?_

theorem latchRes_keeps {s0 s : State} {f l result : Nat} (h : Keeps s0 s) : Keeps s0 (latchRes s f l result) := by
  unfold latchRes
  repeat' first
    | with_reducible assumption
    | (extract_lets +onlyGivenNames x; first | (refine Keeps.letS (a := x) ?_ fun hx => ?_; rotate_left; clear_value x; revert x; rotate_left; unfold x; clear x) | (try unfold x; clear x))
    | with_reducible refine setFseq_keeps ?_
    | with_reducible refine latchCond_keeps ?_

theorem firstFail_keeps {s0 s : State} {n : Nat} (h : Keeps s0 s) : Keeps s0 (firstFail s n) := by
  unfold firstFail
  repeat' first
    | with_reducible assumption
    | with_reducible refine evtSet_keeps ?_
    | with_reducible refine count_keeps ?_

theorem ladderStart_keeps {s0 s : State} {x1 : Sector} {failAs : Nat} (h : Keeps s0 s) : Keeps s0 (ladderStart s x1 failAs) := by
  unfold ladderStart
  repeat' first
    | with_reducible assumption
    | (extract_lets +onlyGivenNames x; first | (refine Keeps.letS (a := x) ?_ fun hx => ?_; rotate_left; clear_value x; revert x; rotate_left; unfold x; clear x) | (try unfold x; clear x))
    | with_reducible refine ladderGo_keeps ?_
    | with_reducible refine endSector_keeps ?_
    | with_reducible refine Keeps.ite ?_ ?_

theorem firstFailed_keeps {s0 s : State} {id : Nat} (h : Keeps s0 s) : Keeps s0 (firstFailed s id) := by
  unfold firstFailed
  repeat' first
    | with_reducible assumption
    | (extract_lets +onlyGivenNames x; first | (refine Keeps.letS (a := x) ?_ fun hx => ?_; rotate_left; clear_value x; revert x; rotate_left; unfold x; clear x) | (try unfold x; clear x))
    | intro _ _
    | with_reducible refine firstFail_keeps ?_
    | with_reducible refine dropSlot_keeps ?_
    | with_reducible refine endSector_keeps ?_
    | with_reducible refine autoPin_keeps ?_
    | with_reducible refine ladderStart_keeps ?_
    | with_reducible refine Keeps.ite ?_ ?_
    | split

theorem missSector_keeps {s0 s : State} {x1 : Sector} (h : Keeps s0 s) : Keeps s0 (missSector s x1) := by
  unfold missSector
  repeat' first
    | with_reducible assumption
    | (extract_lets +onlyGivenNames x; first | (refine Keeps.letS (a := x) ?_ fun hx => ?_; rotate_left; clear_value x; revert x; rotate_left; unfold x; clear x) | (try unfold x; clear x))
    | with_reducible refine firstFailed_keeps ?_
    | with_reducible refine evtSet_keeps ?_
    | with_reducible refine count_keeps ?_
    | with_reducible refine latchRes_keeps ?_

theorem codewordStart_keeps {s0 s : State} {x1 : Sector} {r : LiveRead} (h : Keeps s0 s) : Keeps s0 (codewordStart s x1 r) := by
  unfold codewordStart
  repeat' first
    | with_reducible assumption
    | (extract_lets +onlyGivenNames x; first | (refine Keeps.letS (a := x) ?_ fun hx => ?_; rotate_left; clear_value x; revert x; rotate_left; unfold x; clear x) | (try unfold x; clear x))
    | intro _ _
    | with_reducible refine evtSet_keeps ?_
    | with_reducible refine latchRes_keeps ?_
    | with_reducible refine putLlrs_keeps ?_
    | with_reducible refine putSector_keeps ?_
    | with_reducible refine takeSlot_keeps ?_
    | with_reducible refine firstFailed_keeps ?_
    | with_reducible refine addJob_keeps ?_
    | with_reducible refine autoPin_keeps ?_
    | with_reducible refine missSector_keeps ?_
    | with_reducible refine Keeps.ite ?_ ?_
    | split

theorem syncSlots_keeps {s0 s : State} (h : Keeps s0 s) : Keeps s0 (syncSlots s) := by
  unfold syncSlots
  repeat' first
    | with_reducible assumption
    | (extract_lets +onlyGivenNames x; first | (refine Keeps.letS (a := x) ?_ fun hx => ?_; rotate_left; clear_value x; revert x; rotate_left; unfold x; clear x) | (try unfold x; clear x))
    | intro _ _
    | with_reducible refine fset_keeps ?_
    | with_reducible refine Keeps.ite ?_ ?_

theorem setCmds_keeps {s0 s : State} {f : List Cmd → List Cmd} (h : Keeps s0 s) : Keeps s0 (setCmds s f) := by
  unfold setCmds
  repeat' first
    | with_reducible assumption
    | (extract_lets +onlyGivenNames x; first | (refine Keeps.letS (a := x) ?_ fun hx => ?_; rotate_left; clear_value x; revert x; rotate_left; unfold x; clear x) | (try unfold x; clear x))
    | with_reducible refine syncSlots_keeps ?_
    | with_reducible refine Keeps.upd ?_ rfl rfl rfl

theorem postCqe_keeps {s0 s : State} {c : Cmd} {q : Nat} {cq : Cq} {sct sc dw0 dw1 : Nat} (h : Keeps s0 s) : Keeps s0 (postCqe s c q cq sct sc dw0 dw1) := by
  unfold postCqe
  repeat' first
    | with_reducible assumption
    | (extract_lets +onlyGivenNames x; first | (refine Keeps.letS (a := x) ?_ fun hx => ?_; rotate_left; clear_value x; revert x; rotate_left; unfold x; clear x) | (try unfold x; clear x))
    | intro _ _
    | with_reducible refine setCtl_keeps ?_
    | with_reducible refine setCmds_keeps ?_
    | with_reducible refine completeDnr_keeps ?_
    | with_reducible refine hostIrq_keeps ?_
    | with_reducible refine Keeps.ite ?_ ?_

theorem freezeCmds_keeps {s0 s : State} {c : Cmd} {lba v : Nat} (h : Keeps s0 s) : Keeps s0 (freezeCmds s c lba v) := by
  unfold freezeCmds
  repeat' first
    | with_reducible assumption
    | (extract_lets +onlyGivenNames x; first | (refine Keeps.letS (a := x) ?_ fun hx => ?_; rotate_left; clear_value x; revert x; rotate_left; unfold x; clear x) | (try unfold x; clear x))
    | with_reducible refine Keeps.upd ?_ rfl rfl rfl

theorem putLba_keeps {s0 s : State} {n lba v : Nat} (h : Keeps s0 s) : Keeps s0 (putLba s n lba v) := by
  unfold putLba
  repeat' first
    | with_reducible assumption
    | with_reducible refine setZmp_keeps ?_

theorem placeData_keeps {s0 s : State} {c : Cmd} {slba : Nat} (h : Keeps s0 s) : Keeps s0 (placeData s c slba) := by
  unfold placeData
  repeat' first
    | with_reducible assumption
    | (extract_lets +onlyGivenNames x; first | (refine Keeps.letS (a := x) ?_ fun hx => ?_; rotate_left; clear_value x; revert x; rotate_left; unfold x; clear x) | (try unfold x; clear x))
    | intro _ _
    | with_reducible refine Keeps.forAll ?_ fun _ _ hy => ?_
    | with_reducible refine freezeCmds_keeps ?_
    | with_reducible refine cacheWrite_keeps ?_
    | with_reducible refine putLba_keeps ?_
    | with_reducible refine Keeps.ite ?_ ?_
    | with_reducible refine Keeps.upd ?_ rfl rfl rfl

theorem dropVerify_keeps {s0 s : State} (h : Keeps s0 s) : Keeps s0 (dropVerify s) := by
  unfold dropVerify
  repeat' first
    | with_reducible assumption
    | (extract_lets +onlyGivenNames x; first | (refine Keeps.letS (a := x) ?_ fun hx => ?_; rotate_left; clear_value x; revert x; rotate_left; unfold x; clear x) | (try unfold x; clear x))
    | intro _ _
    | with_reducible refine abandonCal_keeps ?_
    | with_reducible refine Keeps.forAll ?_ fun _ _ hy => ?_
    | with_reducible refine setBgw_keeps ?_
    | with_reducible refine wbit_keeps ?_

theorem selfTestEnd_keeps {s0 s : State} {result seg : Nat} (h : Keeps s0 s) : Keeps s0 (selfTestEnd s result seg) := by
  unfold selfTestEnd
  repeat' first
    | with_reducible assumption
    | (extract_lets +onlyGivenNames x; first | (refine Keeps.letS (a := x) ?_ fun hx => ?_; rotate_left; clear_value x; revert x; rotate_left; unfold x; clear x) | (try unfold x; clear x))
    | intro _ _
    | with_reducible refine fset_keeps ?_
    | with_reducible refine dropVerify_keeps ?_
    | with_reducible refine adminOk_keeps ?_
    | with_reducible refine adminEnd_keeps ?_
    | with_reducible refine Keeps.ite ?_ ?_
    | split
    | with_reducible refine Keeps.upd ?_ rfl rfl rfl

theorem dropAdmin_keeps {s0 s : State} {x1 : Nat} (h : Keeps s0 s) : Keeps s0 (dropAdmin s x1) := by
  unfold dropAdmin
  repeat' first
    | with_reducible assumption
    | (extract_lets +onlyGivenNames x; first | (refine Keeps.letS (a := x) ?_ fun hx => ?_; rotate_left; clear_value x; revert x; rotate_left; unfold x; clear x) | (try unfold x; clear x))
    | with_reducible refine Keeps.upd ?_ rfl rfl rfl

theorem endCommands_keeps {s0 s : State} {x1 : Nat} (h : Keeps s0 s) : Keeps s0 (endCommands s x1) := by
  unfold endCommands
  repeat' first
    | with_reducible assumption
    | (extract_lets +onlyGivenNames x; first | (refine Keeps.letS (a := x) ?_ fun hx => ?_; rotate_left; clear_value x; revert x; rotate_left; unfold x; clear x) | (try unfold x; clear x))
    | intro _ _
    | with_reducible refine Keeps.forAll ?_ fun _ _ hy => ?_
    | with_reducible refine discardData_keeps ?_
    | with_reducible refine setCmds_keeps ?_

theorem psSync_keeps {s0 s : State} (h : Keeps s0 s) : Keeps s0 (psSync s) := by
  unfold psSync
  repeat' first
    | with_reducible assumption
    | with_reducible refine fsetb_keeps ?_

theorem pmNext_keeps {s0 s : State} {x1 : Nat} (h : Keeps s0 s) : Keeps s0 (pmNext s x1) := by
  unfold pmNext
  repeat' first
    | with_reducible assumption
    | (extract_lets +onlyGivenNames x; first | (refine Keeps.letS (a := x) ?_ fun hx => ?_; rotate_left; clear_value x; revert x; rotate_left; unfold x; clear x) | (try unfold x; clear x))
    | intro _ _
    | with_reducible refine adminOk_keeps ?_
    | with_reducible refine setCtl_keeps ?_
    | with_reducible refine psSync_keeps ?_
    | with_reducible refine fset_keeps ?_
    | split

theorem pmSettle_keeps {s0 : State} {n : Nat} {s : State} (h : Keeps s0 s) : Keeps s0 (pmSettle n s) := by
  induction n generalizing s with
  | zero => exact h
  | succ n ih =>
    unfold pmSettle
    exact Keeps.ite h (Keeps.ite (ih (pmNext_keeps h)) (Keeps.ite (ih (pmNext_keeps h)) h))

theorem psUpdate_keeps {s0 s : State} (h : Keeps s0 s) : Keeps s0 (psUpdate s) := by
  unfold psUpdate
  repeat' first
    | with_reducible assumption
    | with_reducible refine pmSettle_keeps ?_
    | with_reducible refine psSync_keeps ?_

theorem controllerReset_keeps {s0 s : State} {x1 : Nat} (h : Keeps s0 s) : Keeps s0 (controllerReset s x1) := by
  unfold controllerReset
  repeat' first
    | with_reducible assumption
    | (extract_lets +onlyGivenNames x; first | (refine Keeps.letS (a := x) ?_ fun hx => ?_; rotate_left; clear_value x; revert x; rotate_left; unfold x; clear x) | (try unfold x; clear x))
    | intro _ _
    | with_reducible refine selfTestEnd_keeps ?_
    | with_reducible refine dropAdmin_keeps ?_
    | with_reducible refine endCommands_keeps ?_
    | with_reducible refine setCtl_keeps ?_
    | with_reducible refine psUpdate_keeps ?_
    | with_reducible refine fset_keeps ?_
    | with_reducible refine wrN_keeps ?_
    | with_reducible refine Keeps.upd ?_ rfl rfl rfl

theorem copiesLost_keeps {s0 s : State} {p : Nat} (h : Keeps s0 s) : Keeps s0 (copiesLost s p) := by
  unfold copiesLost
  repeat' first
    | with_reducible assumption
    | (extract_lets +onlyGivenNames x; first | (refine Keeps.letS (a := x) ?_ fun hx => ?_; rotate_left; clear_value x; revert x; rotate_left; unfold x; clear x) | (try unfold x; clear x))
    | intro _ _
    | with_reducible refine setZmp_keeps ?_
    | with_reducible refine stagedSync_keeps ?_
    | with_reducible refine Keeps.forAll ?_ fun _ _ hy => ?_
    | with_reducible refine lostRange_keeps ?_
    | with_reducible refine Keeps.ite ?_ ?_

theorem copySet_keeps {s0 s : State} {e k idx : Nat} (h : Keeps s0 s) : Keeps s0 (copySet s e k idx) := by
  unfold copySet
  repeat' first
    | with_reducible assumption
    | with_reducible refine Keeps.forAll ?_ fun _ _ hy => ?_
    | with_reducible refine wr_keeps ?_

theorem wr64_keeps {s0 s : State} {a v : Nat} (h : Keeps s0 s) : Keeps s0 (wr64 s a v) := by
  unfold wr64
  repeat' first
    | with_reducible assumption
    | with_reducible refine wrN_keeps ?_

theorem count64_keeps {s0 s : State} {a d : Nat} {b : EvtBlk} {sat : Nat} (h : Keeps s0 s) : Keeps s0 (count64 s a d b sat) := by
  unfold count64
  repeat' first
    | with_reducible assumption
    | (extract_lets +onlyGivenNames x; first | (refine Keeps.letS (a := x) ?_ fun hx => ?_; rotate_left; clear_value x; revert x; rotate_left; unfold x; clear x) | (try unfold x; clear x))
    | intro _ _
    | with_reducible refine wr64_keeps ?_
    | with_reducible refine evtSet_keeps ?_
    | with_reducible refine Keeps.ite ?_ ?_
    | with_reducible refine Keeps.upd ?_ rfl rfl rfl

theorem sendWrite_keeps {s0 s : State} {a : Nat} {w : WFlit} (h : Keeps s0 s) : Keeps s0 (sendWrite s a w) := by
  unfold sendWrite
  repeat' first
    | with_reducible assumption
    | (extract_lets +onlyGivenNames x; first | (refine Keeps.letS (a := x) ?_ fun hx => ?_; rotate_left; clear_value x; revert x; rotate_left; unfold x; clear x) | (try unfold x; clear x))
    | with_reducible refine sendFlit_keeps ?_
    | with_reducible refine fset_keeps ?_

theorem flushFlitsN_keeps {s0 : State} {n : Nat} {s : State} {f : Nat} (h : Keeps s0 s) : Keeps s0 (flushFlitsN n s f) := by
  induction n generalizing s with
  | zero => exact h
  | succ n ih =>
    unfold flushFlitsN
    split
    · exact h
    · exact Keeps.ite h (ih (sendWrite_keeps (setFseq_keeps h)))

theorem flushFlits_keeps {s0 s : State} {f : Nat} (h : Keeps s0 s) : Keeps s0 (flushFlits s f) := by
  unfold flushFlits
  repeat' first
    | with_reducible assumption
    | with_reducible refine flushFlitsN_keeps ?_

theorem creditReturn_keeps {s0 s : State} {p cred : Nat} (h : Keeps s0 s) : Keeps s0 (creditReturn s p cred) := by
  unfold creditReturn
  repeat' first
    | with_reducible assumption
    | (extract_lets +onlyGivenNames x; first | (refine Keeps.letS (a := x) ?_ fun hx => ?_; rotate_left; clear_value x; revert x; rotate_left; unfold x; clear x) | (try unfold x; clear x))
    | intro _ _
    | with_reducible refine fset_keeps ?_
    | with_reducible refine setTth_keeps ?_
    | with_reducible refine flushFlits_keeps ?_
    | with_reducible refine flushCmds_keeps ?_

theorem latchSync_keeps {s0 s : State} {f l dec : Nat} (h : Keeps s0 s) : Keeps s0 (latchSync s f l dec) := by
  unfold latchSync
  repeat' first
    | with_reducible assumption
    | (extract_lets +onlyGivenNames x; first | (refine Keeps.letS (a := x) ?_ fun hx => ?_; rotate_left; clear_value x; revert x; rotate_left; unfold x; clear x) | (try unfold x; clear x))
    | with_reducible refine setFseq_keeps ?_
    | with_reducible refine latchCond_keeps ?_

theorem decisionRecord_keeps {s0 s : State} {a l dec : Nat} (h : Keeps s0 s) : Keeps s0 (decisionRecord s a l dec) := by
  unfold decisionRecord
  repeat' first
    | with_reducible assumption
    | (extract_lets +onlyGivenNames x; first | (refine Keeps.letS (a := x) ?_ fun hx => ?_; rotate_left; clear_value x; revert x; rotate_left; unfold x; clear x) | (try unfold x; clear x))
    | intro _ _
    | with_reducible refine count_keeps ?_
    | with_reducible refine latchSync_keeps ?_
    | with_reducible refine evtSet_keeps ?_
    | with_reducible refine Keeps.ite ?_ ?_

theorem deliver_keeps {s0 s : State} {x1 : Sector} {info : List Nat} (h : Keeps s0 s) : Keeps s0 (deliver s x1 info) := by
  unfold deliver
  repeat' first
    | with_reducible assumption
    | (extract_lets +onlyGivenNames x; first | (refine Keeps.letS (a := x) ?_ fun hx => ?_; rotate_left; clear_value x; revert x; rotate_left; unfold x; clear x) | (try unfold x; clear x))
    | intro _ _
    | with_reducible refine setDet_keeps ?_
    | with_reducible refine Keeps.ite ?_ ?_
    | with_reducible refine Keeps.upd ?_ rfl rfl rfl

theorem extentHome_keeps {s0 s : State} {e : Ext} (h : Keeps s0 s) : Keeps s0 (extentHome s e) := by
  unfold extentHome
  repeat' first
    | with_reducible assumption
    | (extract_lets +onlyGivenNames x; first | (refine Keeps.letS (a := x) ?_ fun hx => ?_; rotate_left; clear_value x; revert x; rotate_left; unfold x; clear x) | (try unfold x; clear x))
    | intro _ _
    | with_reducible refine journalLater_keeps ?_
    | with_reducible refine putZone_keeps ?_
    | with_reducible refine emit_keeps ?_
    | with_reducible refine Keeps.ite ?_ ?_

theorem stageExtent_keeps {s0 s : State} {e : Ext} {c : Nat} {rewrite : Bool} (h : Keeps s0 s) : Keeps s0 (stageExtent s e c rewrite) := by
  unfold stageExtent
  repeat' first
    | with_reducible assumption
    | (extract_lets +onlyGivenNames x; first | (refine Keeps.letS (a := x) ?_ fun hx => ?_; rotate_left; clear_value x; revert x; rotate_left; unfold x; clear x) | (try unfold x; clear x))
    | intro _ _
    | with_reducible refine evtSet_keeps ?_
    | with_reducible refine setZmp_keeps ?_
    | with_reducible refine emitAll_keeps ?_
    | with_reducible refine stagedSync_keeps ?_
    | with_reducible refine count_keeps ?_
    | with_reducible refine releaseDirty_keeps ?_
    | with_reducible refine Keeps.ite ?_ ?_

theorem setPortState_keeps {s0 s : State} {p st : Nat} (h : Keeps s0 s) : Keeps s0 (setPortState s p st) := by
  unfold setPortState
  repeat' first
    | with_reducible assumption
    | (extract_lets +onlyGivenNames x; first | (refine Keeps.letS (a := x) ?_ fun hx => ?_; rotate_left; clear_value x; revert x; rotate_left; unfold x; clear x) | (try unfold x; clear x))
    | intro _ _
    | with_reducible refine fset_keeps ?_
    | with_reducible refine evtSet_keeps ?_
    | with_reducible refine fsetb_keeps ?_
    | with_reducible refine Keeps.ite ?_ ?_

theorem ungradeUnit_keeps {s0 s : State} {u cause : Nat} (h : Keeps s0 s) : Keeps s0 (ungradeUnit s u cause) := by
  unfold ungradeUnit
  repeat' first
    | with_reducible assumption
    | (extract_lets +onlyGivenNames x; first | (refine Keeps.letS (a := x) ?_ fun hx => ?_; rotate_left; clear_value x; revert x; rotate_left; unfold x; clear x) | (try unfold x; clear x))
    | with_reducible refine recompute_keeps ?_
    | with_reducible refine setAux_keeps ?_
    | with_reducible refine Keeps.ite ?_ ?_

theorem phyOff_keeps {s0 s : State} {p : Nat} (h : Keeps s0 s) : Keeps s0 (phyOff s p) := by
  unfold phyOff
  repeat' first
    | with_reducible assumption
    | with_reducible refine domRelease_keeps ?_

theorem setFe_keeps {s0 s : State} {p : Nat} {f : FrontEnd → FrontEnd} (h : Keeps s0 s) : Keeps s0 (setFe s p f) := by
  unfold setFe
  repeat' first
    | with_reducible assumption
    | with_reducible refine Keeps.upd ?_ rfl rfl rfl

theorem feLaneEnd_keeps {s0 s : State} {p : Nat} (h : Keeps s0 s) : Keeps s0 (feLaneEnd s p) := by
  unfold feLaneEnd
  repeat' first
    | with_reducible assumption
    | with_reducible refine setFe_keeps ?_

theorem setLanes_keeps {s0 s : State} {p up : Nat} {dn : Bool} (h : Keeps s0 s) : Keeps s0 (setLanes s p up dn) := by
  unfold setLanes
  repeat' first
    | with_reducible assumption
    | (extract_lets +onlyGivenNames x; first | (refine Keeps.letS (a := x) ?_ fun hx => ?_; rotate_left; clear_value x; revert x; rotate_left; unfold x; clear x) | (try unfold x; clear x))
    | intro _ _
    | with_reducible refine fset_keeps ?_
    | with_reducible refine fsetb_keeps ?_

theorem syncFollow_keeps {s0 s : State} {a : Nat} (h : Keeps s0 s) : Keeps s0 (syncFollow s a) := by
  unfold syncFollow
  repeat' first
    | with_reducible assumption
    | with_reducible refine fset_keeps ?_

theorem syncLink_keeps {s0 s : State} {p : Nat} (h : Keeps s0 s) : Keeps s0 (syncLink s p) := by
  unfold syncLink
  repeat' first
    | with_reducible assumption
    | with_reducible refine Keeps.forAll ?_ fun _ _ hy => ?_
    | with_reducible refine setSrc_keeps ?_

theorem putSample_keeps {s0 : State} {n : Nat} {s : State} {v : Nat} (h : Keeps s0 s) : Keeps s0 (putSample n s v) := by
  unfold putSample
  repeat' first
    | with_reducible assumption
    | (extract_lets +onlyGivenNames x; first | (refine Keeps.letS (a := x) ?_ fun hx => ?_; rotate_left; clear_value x; revert x; rotate_left; unfold x; clear x) | (try unfold x; clear x))
    | with_reducible refine setDet_keeps ?_

theorem putSamples_keeps {s0 s : State} {n : Nat} {l : List Nat} (h : Keeps s0 s) : Keeps s0 (putSamples s n l) := by
  unfold putSamples
  repeat' first
    | with_reducible assumption
    | with_reducible refine Keeps.forAll ?_ fun _ _ hy => ?_
    | with_reducible refine putSample_keeps ?_

theorem fseqOn_keeps {s0 s : State} {f : Nat} (h : Keeps s0 s) : Keeps s0 (fseqOn s f) := by
  unfold fseqOn
  repeat' first
    | with_reducible assumption
    | (extract_lets +onlyGivenNames x; first | (refine Keeps.letS (a := x) ?_ fun hx => ?_; rotate_left; clear_value x; revert x; rotate_left; unfold x; clear x) | (try unfold x; clear x))
    | intro _ _
    | with_reducible refine wrN_keeps ?_
    | with_reducible refine Keeps.upd ?_ rfl rfl rfl

theorem sendSix_keeps {s0 s : State} {p : Nat} {more : optParam (List CmdEntry) []} (h : Keeps s0 s) : Keeps s0 (sendSix s p more) := by
  unfold sendSix
  repeat' first
    | with_reducible assumption
    | (extract_lets +onlyGivenNames x; first | (refine Keeps.letS (a := x) ?_ fun hx => ?_; rotate_left; clear_value x; revert x; rotate_left; unfold x; clear x) | (try unfold x; clear x))
    | with_reducible refine sendDrive_keeps ?_
    | with_reducible refine drawn_keeps ?_

theorem leaveRegen_keeps {s0 s : State} {p : Nat} (h : Keeps s0 s) : Keeps s0 (leaveRegen s p) := by
  unfold leaveRegen
  repeat' first
    | with_reducible assumption
    | (extract_lets +onlyGivenNames x; first | (refine Keeps.letS (a := x) ?_ fun hx => ?_; rotate_left; clear_value x; revert x; rotate_left; unfold x; clear x) | (try unfold x; clear x))
    | with_reducible refine Keeps.upd ?_ rfl rfl rfl

theorem driveOut_keeps {s0 s : State} {p : Nat} {more : optParam (List CmdEntry) []} (h : Keeps s0 s) : Keeps s0 (driveOut s p more) := by
  unfold driveOut
  repeat' first
    | with_reducible assumption
    | (extract_lets +onlyGivenNames x; first | (refine Keeps.letS (a := x) ?_ fun hx => ?_; rotate_left; clear_value x; revert x; rotate_left; unfold x; clear x) | (try unfold x; clear x))
    | with_reducible refine sendSix_keeps ?_
    | with_reducible refine leaveRegen_keeps ?_
    | with_reducible refine askRegen_keeps ?_
    | with_reducible refine sendDrive_keeps ?_
    | with_reducible refine sendCmd_keeps ?_
    | with_reducible refine Keeps.ite ?_ ?_

theorem dropLatch_keeps {s0 s : State} {m : Master} {a : Nat} (h : Keeps s0 s) : Keeps s0 (dropLatch s m a) := by
  unfold dropLatch
  repeat' first
    | with_reducible assumption
    | with_reducible refine Keeps.upd ?_ rfl rfl rfl

theorem readLater_keeps {s0 s : State} {pl : SecPlace} (h : Keeps s0 s) : Keeps s0 (readLater s pl) := by
  unfold readLater
  repeat' first
    | with_reducible assumption
    | with_reducible refine setDet_keeps ?_

theorem endPin_keeps {s0 s : State} {n i : Nat} (h : Keeps s0 s) : Keeps s0 (endPin s n i) := by
  unfold endPin
  repeat' first
    | with_reducible assumption
    | (extract_lets +onlyGivenNames x; first | (refine Keeps.letS (a := x) ?_ fun hx => ?_; rotate_left; clear_value x; revert x; rotate_left; unfold x; clear x) | (try unfold x; clear x))
    | intro _ _
    | with_reducible refine clearPin_keeps ?_
    | with_reducible refine ladderGo_keeps ?_
    | with_reducible refine putSector_keeps ?_
    | with_reducible refine missSector_keeps ?_
    | with_reducible refine readLater_keeps ?_
    | with_reducible refine Keeps.ite ?_ ?_
    | split

theorem setSrvMode_keeps {s0 s : State} {a m : Nat} (h : Keeps s0 s) : Keeps s0 (setSrvMode s a m) := by
  unfold setSrvMode
  repeat' first
    | with_reducible assumption
    | with_reducible refine syncFollow_keeps ?_
    | with_reducible refine fset_keeps ?_

theorem evtWrite_keeps {s0 s : State} {b : EvtBlk} {a : Nat} {w : Word} (h : Keeps s0 s) : Keeps s0 (evtWrite s b a w) := by
  unfold evtWrite
  repeat' first
    | with_reducible assumption
    | with_reducible refine wr_keeps ?_
    | with_reducible refine risesOf_keeps ?_
    | with_reducible refine Keeps.ite ?_ ?_

theorem undefinedAccess_keeps {s0 s : State} {m : Master} {addr : Nat} (h : Keeps s0 s) : Keeps s0 (undefinedAccess s m addr) := by
  unfold undefinedAccess
  repeat' first
    | with_reducible assumption
    | (extract_lets +onlyGivenNames x; first | (refine Keeps.letS (a := x) ?_ fun hx => ?_; rotate_left; clear_value x; revert x; rotate_left; unfold x; clear x) | (try unfold x; clear x))
    | with_reducible refine sourceRise_keeps ?_
    | with_reducible refine Keeps.upd ?_ rfl rfl rfl

theorem undefEnd_keeps {s0 s : State} {m : Master} {addr : Nat} (h : Keeps s0 s) : Keeps s0 (undefEnd s m addr) := by
  unfold undefEnd
  repeat' first
    | with_reducible assumption
    | (extract_lets +onlyGivenNames x; first | (refine Keeps.letS (a := x) ?_ fun hx => ?_; rotate_left; clear_value x; revert x; rotate_left; unfold x; clear x) | (try unfold x; clear x))
    | with_reducible refine undefinedAccess_keeps ?_
    | with_reducible refine emit_keeps ?_
    | split

theorem undefAccess_keeps {s0 s : State} {m : Master} {addr : Nat} {write : Bool} (h : Keeps s0 s) : Keeps s0 (undefAccess s m addr write) := by
  unfold undefAccess
  repeat' first
    | with_reducible assumption
    | with_reducible refine undefEnd_keeps ?_
    | with_reducible refine emit_keeps ?_
    | with_reducible refine Keeps.ite ?_ ?_

theorem regWrite_keeps {s0 s : State} {m : Master} {addr : Nat} {f : State → State} (hf : ∀ y0, Keeps s0 y0 → Keeps s0 (f y0)) (h : Keeps s0 s) : Keeps s0 (regWrite s m addr f) := by
  unfold regWrite
  repeat' first
    | with_reducible assumption
    | with_reducible refine undefAccess_keeps ?_
    | with_reducible refine hf _ ?_
    | with_reducible refine Keeps.ite ?_ ?_

theorem pcieDone_keeps {s0 s : State} {m : Master} (h : Keeps s0 s) : Keeps s0 (pcieDone s m) := by
  unfold pcieDone
  repeat' first
    | with_reducible assumption
    | with_reducible refine emit_keeps ?_
    | split

theorem restartPeak_keeps {s0 s : State} {a : Nat} (h : Keeps s0 s) : Keeps s0 (restartPeak s a) := by
  unfold restartPeak
  repeat' first
    | with_reducible assumption
    | (extract_lets +onlyGivenNames x; first | (refine Keeps.letS (a := x) ?_ fun hx => ?_; rotate_left; clear_value x; revert x; rotate_left; unfold x; clear x) | (try unfold x; clear x))
    | with_reducible refine fset_keeps ?_
    | with_reducible refine Keeps.ite ?_ ?_

theorem latchWord_keeps {s0 s : State} {m : Master} {a : Nat} (h : Keeps s0 s) : Keeps s0 (latchWord s m a) := by
  unfold latchWord
  repeat' first
    | with_reducible assumption
    | (extract_lets +onlyGivenNames x; first | (refine Keeps.letS (a := x) ?_ fun hx => ?_; rotate_left; clear_value x; revert x; rotate_left; unfold x; clear x) | (try unfold x; clear x))
    | intro _ _
    | with_reducible refine dropLatch_keeps ?_
    | with_reducible refine Keeps.upd ?_ rfl rfl rfl

theorem latchHigh_keeps {s0 s : State} {m : Master} {a : Nat} (h : Keeps s0 s) : Keeps s0 (latchHigh s m a) := by
  unfold latchHigh
  repeat' first
    | with_reducible assumption
    | with_reducible refine Keeps.forAll ?_ fun _ _ hy => ?_
    | with_reducible refine latchWord_keeps ?_

theorem readWord_keeps {s0 s : State} {m : Master} {a : Nat} (h : Keeps s0 s) : Keeps s0 (readWord s m a).2 := by
  unfold readWord
  split
  · exact h
  · exact mbxViol_keeps h

theorem fetchWord_keeps {s0 s : State} {m : Master} {a : Nat} (h : Keeps s0 s) : Keeps s0 (fetchWord s m a).2 := by
  simp only [fetchWord]
  split
  · exact undefinedAccess_keeps h
  · exact restartPeak_keeps (clearRC_keeps (latchHigh_keeps (dropLatch_keeps (readWord_keeps h))))

theorem regRead_keeps {s0 s : State} {m : Master} {a : Nat} (h : Keeps s0 s) : Keeps s0 (regRead s m a) :=
  pcieDone_keeps (emit_keeps (fetchWord_keeps h))

theorem execBrdStatRead_runs {s0 : State} {m : Master} {e : Fin 16} {s : State} (h : Keeps s0 s) : Runs s0 (execBrdStatRead m e s) := by
  unfold execBrdStatRead
  repeat' first
    | with_reducible assumption
    | with_reducible refine Runs.next ?_
    | with_reducible refine regRead_keeps ?_

theorem setEngine_keeps {s0 s : State} {e : Nat} {f : BrdEng → BrdEng} (h : Keeps s0 s) : Keeps s0 (setEngine s e f) := by
  unfold setEngine
  repeat' first
    | with_reducible assumption
    | with_reducible refine Keeps.upd ?_ rfl rfl rfl

theorem execBridleEnginePoweroff_runs {s0 : State} {e : Fin 16} {s : State} (h : Keeps s0 s) : Runs s0 (execBridleEnginePoweroff e s) := by
  unfold execBridleEnginePoweroff
  repeat' first
    | with_reducible assumption
    | (extract_lets +onlyGivenNames x; first | (refine Keeps.letS (a := x) ?_ fun hx => ?_; rotate_left; clear_value x; revert x; rotate_left; unfold x; clear x) | (try unfold x; clear x))
    | with_reducible refine Runs.next ?_
    | with_reducible refine domRelease_keeps ?_
    | with_reducible refine setEngine_keeps ?_
    | with_reducible refine fset_keeps ?_
    | with_reducible refine fsetb_keeps ?_
    | with_reducible refine Keeps.forAll ?_ fun _ _ hy => ?_
    | with_reducible refine wrN_keeps ?_
    | with_reducible refine setBslot_keeps ?_
    | with_reducible refine Keeps.ite ?_ ?_

theorem feCount_keeps {s0 s : State} {e k : Nat} {er : Int} (h : Keeps s0 s) : Keeps s0 (feCount s e k er) := by
  unfold feCount
  repeat' first
    | with_reducible assumption
    | (extract_lets +onlyGivenNames x; first | (refine Keeps.letS (a := x) ?_ fun hx => ?_; rotate_left; clear_value x; revert x; rotate_left; unfold x; clear x) | (try unfold x; clear x))
    | intro _ _
    | with_reducible refine fadd_keeps ?_
    | with_reducible refine fset_keeps ?_
    | with_reducible refine setBslot_keeps ?_
    | with_reducible refine Keeps.ite ?_ ?_

theorem iterated_keeps {s0 s : State} {e : Nat} {it : BrdIter} (h : Keeps s0 s) : Keeps s0 (iterated s e it) := by
  unfold iterated
  repeat' first
    | with_reducible assumption
    | (extract_lets +onlyGivenNames x; first | (refine Keeps.letS (a := x) ?_ fun hx => ?_; rotate_left; clear_value x; revert x; rotate_left; unfold x; clear x) | (try unfold x; clear x))
    | intro _ _
    | with_reducible refine setEngine_keeps ?_
    | with_reducible refine setBslot_keeps ?_
    | with_reducible refine wrN_keeps ?_
    | with_reducible refine fsetb_keeps ?_
    | with_reducible refine evtSet_keeps ?_
    | with_reducible refine feCount_keeps ?_
    | with_reducible refine count64_keeps ?_
    | with_reducible refine Keeps.ite ?_ ?_

theorem execBridleIterationEnd_runs {s0 : State} {e : Fin 16} {s : State} (h : Keeps s0 s) : Runs s0 (execBridleIterationEnd e s) := by
  unfold execBridleIterationEnd
  repeat' first
    | with_reducible assumption
    | with_reducible refine Runs.next ?_
    | with_reducible refine iterated_keeps ?_
    | split

theorem switchCopy_keeps {s0 s : State} {e k : Nat} (h : Keeps s0 s) : Keeps s0 (switchCopy s e k) := by
  unfold switchCopy
  repeat' first
    | with_reducible assumption
    | (extract_lets +onlyGivenNames x; first | (refine Keeps.letS (a := x) ?_ fun hx => ?_; rotate_left; clear_value x; revert x; rotate_left; unfold x; clear x) | (try unfold x; clear x))
    | intro _ _
    | with_reducible refine fset_keeps ?_
    | with_reducible refine copySet_keeps ?_
    | with_reducible refine evtSet_keeps ?_
    | with_reducible refine setBslot_keeps ?_
    | with_reducible refine switchDone_keeps ?_
    | with_reducible refine Keeps.ite ?_ ?_

theorem iterate_keeps {s0 s : State} {e k t1 : Nat} (h : Keeps s0 s) : Keeps s0 (iterate s e k t1) := by
  unfold iterate
  repeat' first
    | with_reducible assumption
    | (extract_lets +onlyGivenNames x; first | (refine Keeps.letS (a := x) ?_ fun hx => ?_; rotate_left; clear_value x; revert x; rotate_left; unfold x; clear x) | (try unfold x; clear x))
    | intro _ _
    | with_reducible refine switchCopy_keeps ?_
    | with_reducible refine setEngine_keeps ?_
    | with_reducible refine setBslot_keeps ?_
    | with_reducible refine drawn_keeps ?_
    | with_reducible refine syncQ_keeps ?_
    | with_reducible refine fset_keeps ?_
    | with_reducible refine Keeps.ite ?_ ?_

theorem execBridleIterationStart_runs {s0 : State} {e : Fin 16} {t1 : BitVec 48} {s : State} (h : Keeps s0 s) : Runs s0 (execBridleIterationStart e t1 s) := by
  unfold execBridleIterationStart
  repeat' first
    | with_reducible assumption
    | with_reducible refine Runs.next ?_
    | with_reducible refine iterate_keeps ?_
    | with_reducible refine Keeps.ite ?_ ?_
    | split

theorem outputTaken_keeps {s0 s : State} {e k : Nat} {v : Int} (h : Keeps s0 s) : Keeps s0 (outputTaken s e k v) := by
  unfold outputTaken
  repeat' first
    | with_reducible assumption
    | (extract_lets +onlyGivenNames x; first | (refine Keeps.letS (a := x) ?_ fun hx => ?_; rotate_left; clear_value x; revert x; rotate_left; unfold x; clear x) | (try unfold x; clear x))
    | intro _ _
    | with_reducible refine wrN_keeps ?_
    | with_reducible refine fset_keeps ?_
    | with_reducible refine evtSet_keeps ?_
    | with_reducible refine count_keeps ?_
    | with_reducible refine Keeps.ite ?_ ?_

theorem sendOutputs_keeps {s0 s : State} {e p : Nat} {l : List (Nat × Int)} (h : Keeps s0 s) : Keeps s0 (sendOutputs s e p l) := by
  unfold sendOutputs
  repeat' first
    | with_reducible assumption
    | (extract_lets +onlyGivenNames x; first | (refine Keeps.letS (a := x) ?_ fun hx => ?_; rotate_left; clear_value x; revert x; rotate_left; unfold x; clear x) | (try unfold x; clear x))
    | intro _ _
    | with_reducible refine Keeps.forAll ?_ fun _ _ hy => ?_
    | with_reducible refine outputTaken_keeps ?_
    | with_reducible refine driveOut_keeps ?_
    | with_reducible refine sendCmd_keeps ?_
    | with_reducible refine Keeps.ite ?_ ?_

theorem outputGone_keeps {s0 s : State} {e : Nat} {x1 : Nat × Int × Nat × Bool} (h : Keeps s0 s) : Keeps s0 (outputGone s e x1) := by
  unfold outputGone
  repeat' first
    | with_reducible assumption
    | (extract_lets +onlyGivenNames x; first | (refine Keeps.letS (a := x) ?_ fun hx => ?_; rotate_left; clear_value x; revert x; rotate_left; unfold x; clear x) | (try unfold x; clear x))
    | intro _ _
    | with_reducible refine fsetb_keeps ?_
    | with_reducible refine setBslot_keeps ?_
    | with_reducible refine overrun_keeps ?_
    | with_reducible refine Keeps.ite ?_ ?_

theorem execBridleOutput_runs {s0 : State} {e : Fin 16} {k : Fin 64} {s : State} (h : Keeps s0 s) : Runs s0 (execBridleOutput e k s) := by
  unfold execBridleOutput
  repeat' first
    | with_reducible assumption
    | (extract_lets +onlyGivenNames x; first | (refine Keeps.letS (a := x) ?_ fun hx => ?_; rotate_left; clear_value x; revert x; rotate_left; unfold x; clear x) | (try unfold x; clear x))
    | with_reducible refine Runs.next ?_
    | with_reducible refine sendOutputs_keeps ?_
    | with_reducible refine Keeps.forAll ?_ fun _ _ hy => ?_
    | with_reducible refine outputGone_keeps ?_
    | split

theorem execBridleSwitchGo_runs {s0 : State} {m : Master} {e : Fin 16} {s : State} (h : Keeps s0 s) : Runs s0 (execBridleSwitchGo m e s) := by
  unfold execBridleSwitchGo
  repeat' first
    | with_reducible assumption
    | with_reducible refine Runs.next ?_
    | with_reducible refine regWrite_keeps (fun _ hy => ?_) ?_
    | with_reducible refine switchGo_keeps ?_

theorem execBridleSwitchIdleCopy_runs {s0 : State} {e : Fin 16} {k : Fin 64} {s : State} (h : Keeps s0 s) : Runs s0 (execBridleSwitchIdleCopy e k s) := by
  unfold execBridleSwitchIdleCopy
  repeat' first
    | with_reducible assumption
    | (extract_lets +onlyGivenNames x; first | (refine Keeps.letS (a := x) ?_ fun hx => ?_; rotate_left; clear_value x; revert x; rotate_left; unfold x; clear x) | (try unfold x; clear x))
    | with_reducible refine Runs.next ?_
    | with_reducible refine switchCopy_keeps ?_
    | with_reducible refine Keeps.ite ?_ ?_

theorem execBridleTimerTick_runs {s0 : State} {e : Fin 16} {k : Fin 64} {t1 : BitVec 48} {s : State} (h : Keeps s0 s) : Runs s0 (execBridleTimerTick e k t1 s) := by
  unfold execBridleTimerTick
  repeat' first
    | with_reducible assumption
    | with_reducible refine Runs.next ?_
    | with_reducible refine brdTrigger_keeps ?_
    | with_reducible refine Keeps.ite ?_ ?_

theorem invalidField_keeps {s0 s : State} {x1 cid : Nat} (h : Keeps s0 s) : Keeps s0 (invalidField s x1 cid) := by
  unfold invalidField
  repeat' first
    | with_reducible assumption
    | with_reducible refine adminEnd_keeps ?_

theorem goAccel_keeps {s0 s : State} {p : Nat} (h : Keeps s0 s) : Keeps s0 (goAccel s p) := by
  unfold goAccel
  repeat' first
    | with_reducible assumption
    | (extract_lets +onlyGivenNames x; first | (refine Keeps.letS (a := x) ?_ fun hx => ?_; rotate_left; clear_value x; revert x; rotate_left; unfold x; clear x) | (try unfold x; clear x))
    | intro _ _
    | with_reducible refine spnSlotMode_keeps ?_
    | with_reducible refine setSpnState_keeps ?_
    | with_reducible refine spnSlotRef_keeps ?_
    | with_reducible refine sendSix_keeps ?_
    | with_reducible refine Keeps.ite ?_ ?_
    | with_reducible refine Keeps.upd ?_ rfl rfl rfl

theorem goAlign_keeps {s0 s : State} {p : Nat} (h : Keeps s0 s) : Keeps s0 (goAlign s p) := by
  unfold goAlign
  repeat' first
    | with_reducible assumption
    | (extract_lets +onlyGivenNames x; first | (refine Keeps.letS (a := x) ?_ fun hx => ?_; rotate_left; clear_value x; revert x; rotate_left; unfold x; clear x) | (try unfold x; clear x))
    | with_reducible refine sendDrive_keeps ?_
    | with_reducible refine fset_keeps ?_
    | with_reducible refine spnSlotMode_keeps ?_
    | with_reducible refine setSpnState_keeps ?_

theorem raiseReady_keeps {s0 s : State} (h : Keeps s0 s) : Keeps s0 (raiseReady s) := by
  unfold raiseReady
  repeat' first
    | with_reducible assumption
    | (extract_lets +onlyGivenNames x; first | (refine Keeps.letS (a := x) ?_ fun hx => ?_; rotate_left; clear_value x; revert x; rotate_left; unfold x; clear x) | (try unfold x; clear x))
    | with_reducible refine Keeps.forAll ?_ fun _ _ hy => ?_
    | with_reducible refine setCtl_keeps ?_
    | with_reducible refine Keeps.ite ?_ ?_

theorem execClusterIdlePoweroff_runs {s0 : State} {c : Fin 16} {s : State} (h : Keeps s0 s) : Runs s0 (execClusterIdlePoweroff c s) := by
  unfold execClusterIdlePoweroff
  repeat' first
    | with_reducible assumption
    | (extract_lets +onlyGivenNames x; first | (refine Keeps.letS (a := x) ?_ fun hx => ?_; rotate_left; clear_value x; revert x; rotate_left; unfold x; clear x) | (try unfold x; clear x))
    | with_reducible refine Runs.next ?_
    | with_reducible refine domRelease_keeps ?_
    | with_reducible refine clusterDemand_keeps ?_
    | with_reducible refine fsetb_keeps ?_
    | with_reducible refine Keeps.ite ?_ ?_

theorem execClusterParityError_runs {s0 : State} {c : Fin 16} {hour : BitVec 16} {s : State} (h : Keeps s0 s) : Runs s0 (execClusterParityError c hour s) := by
  unfold execClusterParityError
  repeat' first
    | with_reducible assumption
    | (extract_lets +onlyGivenNames x; first | (refine Keeps.letS (a := x) ?_ fun hx => ?_; rotate_left; clear_value x; revert x; rotate_left; unfold x; clear x) | (try unfold x; clear x))
    | intro _ _
    | with_reducible refine Runs.next ?_
    | with_reducible refine evtSet_keeps ?_
    | with_reducible refine count_keeps ?_
    | with_reducible refine fsetb_keeps ?_
    | with_reducible refine setDet_keeps ?_
    | with_reducible refine clusterDemand_keeps ?_
    | with_reducible refine queueSync_keeps ?_
    | with_reducible refine fset_keeps ?_
    | with_reducible refine Keeps.ite ?_ ?_
    | split

theorem ioWakesPower_keeps {s0 s : State} {x1 : Nat} (h : Keeps s0 s) : Keeps s0 (ioWakesPower s x1) := by
  unfold ioWakesPower
  repeat' first
    | with_reducible assumption
    | (extract_lets +onlyGivenNames x; first | (refine Keeps.letS (a := x) ?_ fun hx => ?_; rotate_left; clear_value x; revert x; rotate_left; unfold x; clear x) | (try unfold x; clear x))
    | intro _ _
    | with_reducible refine fset_keeps ?_
    | with_reducible refine psUpdate_keeps ?_
    | with_reducible refine Keeps.ite ?_ ?_
    | with_reducible refine Keeps.upd ?_ rfl rfl rfl

theorem ioFetched_keeps {s0 s : State} {x1 : Nat} (h : Keeps s0 s) : Keeps s0 (ioFetched s x1) := by
  unfold ioFetched
  repeat' first
    | with_reducible assumption
    | (extract_lets +onlyGivenNames x; first | (refine Keeps.letS (a := x) ?_ fun hx => ?_; rotate_left; clear_value x; revert x; rotate_left; unfold x; clear x) | (try unfold x; clear x))
    | intro _ _
    | with_reducible refine setPwr_keeps ?_
    | with_reducible refine applyRule_keeps ?_
    | with_reducible refine ioWakesPower_keeps ?_
    | with_reducible refine syncEnv_keeps ?_
    | with_reducible refine Keeps.ite ?_ ?_

theorem reportDeferred_keeps {s0 s : State} {c : Cmd} {zs : List Nat} (h : Keeps s0 s) : Keeps s0 (reportDeferred s c zs) := by
  unfold reportDeferred
  repeat' first
    | with_reducible assumption
    | (extract_lets +onlyGivenNames x; first | (refine Keeps.letS (a := x) ?_ fun hx => ?_; rotate_left; clear_value x; revert x; rotate_left; unfold x; clear x) | (try unfold x; clear x))
    | intro _ _
    | with_reducible refine logError_keeps ?_
    | with_reducible refine Keeps.forAll ?_ fun _ _ hy => ?_
    | with_reducible refine putZone_keeps ?_
    | with_reducible refine setZmp_keeps ?_
    | with_reducible refine count_keeps ?_
    | with_reducible refine fset_keeps ?_
    | with_reducible refine failCmd_keeps ?_

theorem execCompositeRecompute_runs {s0 : State} {u : Fin 4095} {s : State} (h : Keeps s0 s) : Runs s0 (execCompositeRecompute u s) := by
  unfold execCompositeRecompute
  repeat' first
    | with_reducible assumption
    | with_reducible refine Runs.next ?_
    | with_reducible refine recompute_keeps ?_
    | with_reducible refine Keeps.ite ?_ ?_

theorem mbxClear_keeps {s0 s : State} {c : Nat} (h : Keeps s0 s) : Keeps s0 (mbxClear s c) := by
  unfold mbxClear
  repeat' first
    | with_reducible assumption
    | (extract_lets +onlyGivenNames x; first | (refine Keeps.letS (a := x) ?_ fun hx => ?_; rotate_left; clear_value x; revert x; rotate_left; unfold x; clear x) | (try unfold x; clear x))
    | intro _ _
    | with_reducible refine Keeps.forAll ?_ fun _ _ hy => ?_
    | with_reducible refine wrN_keeps ?_
    | with_reducible refine fset_keeps ?_
    | with_reducible refine fsetb_keeps ?_
    | with_reducible refine mbxNotify_keeps ?_
    | with_reducible refine Keeps.ite ?_ ?_

theorem partyReset_keeps {s0 s : State} {party : Nat} (h : Keeps s0 s) : Keeps s0 (partyReset s party) := by
  unfold partyReset
  repeat' first
    | with_reducible assumption
    | (extract_lets +onlyGivenNames x; first | (refine Keeps.letS (a := x) ?_ fun hx => ?_; rotate_left; clear_value x; revert x; rotate_left; unfold x; clear x) | (try unfold x; clear x))
    | with_reducible refine evtSet_keeps ?_
    | with_reducible refine Keeps.forAll ?_ fun _ _ hy => ?_
    | with_reducible refine mbxClear_keeps ?_
    | with_reducible refine Keeps.ite ?_ ?_

theorem runJob_keeps {s0 s : State} {c : Nat} {j : DecJob} {credits : List Int} (h : Keeps s0 s) : Keeps s0 (runJob s c j credits) := by
  unfold runJob
  repeat' first
    | with_reducible assumption
    | (extract_lets +onlyGivenNames x; first | (refine Keeps.letS (a := x) ?_ fun hx => ?_; rotate_left; clear_value x; revert x; rotate_left; unfold x; clear x) | (try unfold x; clear x))
    | intro _ _
    | with_reducible refine setDet_keeps ?_
    | with_reducible refine clusterDemand_keeps ?_
    | with_reducible refine queueSync_keeps ?_
    | with_reducible refine fset_keeps ?_
    | with_reducible refine fsetb_keeps ?_

theorem execDecodeJobDispatch_runs {s0 : State} {c : Fin 16} {s : State} (h : Keeps s0 s) : Runs s0 (execDecodeJobDispatch c s) := by
  unfold execDecodeJobDispatch
  repeat' first
    | with_reducible assumption
    | with_reducible refine Runs.next ?_
    | with_reducible refine runJob_keeps ?_
    | with_reducible refine Keeps.ite ?_ ?_
    | split

theorem jobCounted_keeps {s0 s : State} {c : Nat} {j : DecJob} {e : DecodeEnd} (h : Keeps s0 s) : Keeps s0 (jobCounted s c j e) := by
  unfold jobCounted
  repeat' first
    | with_reducible assumption
    | (extract_lets +onlyGivenNames x; first | (refine Keeps.letS (a := x) ?_ fun hx => ?_; rotate_left; clear_value x; revert x; rotate_left; unfold x; clear x) | (try unfold x; clear x))
    | intro _ _
    | with_reducible refine fset_keeps ?_
    | with_reducible refine fsetb_keeps ?_
    | with_reducible refine count_keeps ?_
    | with_reducible refine count64_keeps ?_
    | with_reducible refine setDet_keeps ?_

theorem registerDone_keeps {s0 s : State} {n : Nat} {e : DecodeEnd} (h : Keeps s0 s) : Keeps s0 (registerDone s n e) := by
  unfold registerDone
  repeat' first
    | with_reducible assumption
    | (extract_lets +onlyGivenNames x; first | (refine Keeps.letS (a := x) ?_ fun hx => ?_; rotate_left; clear_value x; revert x; rotate_left; unfold x; clear x) | (try unfold x; clear x))
    | intro _ _
    | with_reducible refine retryClose_keeps ?_
    | with_reducible refine dropLlrs_keeps ?_
    | with_reducible refine giveSlot_keeps ?_
    | with_reducible refine clearPin_keeps ?_
    | with_reducible refine Keeps.ite ?_ ?_

theorem rereadFailed_keeps {s0 s : State} {id : Nat} {l : Ladder} (h : Keeps s0 s) : Keeps s0 (rereadFailed s id l) := by
  unfold rereadFailed
  repeat' first
    | with_reducible assumption
    | (extract_lets +onlyGivenNames x; first | (refine Keeps.letS (a := x) ?_ fun hx => ?_; rotate_left; clear_value x; revert x; rotate_left; unfold x; clear x) | (try unfold x; clear x))
    | intro _ _
    | with_reducible refine firstFail_keeps ?_
    | with_reducible refine dropSlot_keeps ?_
    | with_reducible refine autoPin_keeps ?_
    | with_reducible refine ladderGo_keeps ?_
    | with_reducible refine Keeps.ite ?_ ?_
    | split

theorem retryFailed_keeps {s0 s : State} {x1 : Sector} {l : Ladder} {tag unsat : Nat} (h : Keeps s0 s) : Keeps s0 (retryFailed s x1 l tag unsat) := by
  unfold retryFailed
  repeat' first
    | with_reducible assumption
    | (extract_lets +onlyGivenNames x; first | (refine Keeps.letS (a := x) ?_ fun hx => ?_; rotate_left; clear_value x; revert x; rotate_left; unfold x; clear x) | (try unfold x; clear x))
    | with_reducible refine ladderGo_keeps ?_
    | with_reducible refine putSector_keeps ?_

theorem sectorDecoded_keeps {s0 s : State} {j : DecJob} {x1 : Sector} {e : DecodeEnd} {tag : Nat} (h : Keeps s0 s) : Keeps s0 (sectorDecoded s j x1 e tag) := by
  unfold sectorDecoded
  repeat' first
    | with_reducible assumption
    | (extract_lets +onlyGivenNames x; first | (refine Keeps.letS (a := x) ?_ fun hx => ?_; rotate_left; clear_value x; revert x; rotate_left; unfold x; clear x) | (try unfold x; clear x))
    | intro _ _
    | with_reducible refine evtSet_keeps ?_
    | with_reducible refine endSector_keeps ?_
    | with_reducible refine deliver_keeps ?_
    | with_reducible refine ladderStart_keeps ?_
    | with_reducible refine dropSlot_keeps ?_
    | with_reducible refine firstFailed_keeps ?_
    | with_reducible refine retryClose_keeps ?_
    | with_reducible refine rereadFailed_keeps ?_
    | with_reducible refine retryFailed_keeps ?_
    | with_reducible refine Keeps.ite ?_ ?_
    | split

theorem execDecodeJobDone_runs {s0 : State} {c : Fin 16} {s : State} (h : Keeps s0 s) : Runs s0 (execDecodeJobDone c s) := by
  unfold execDecodeJobDone
  repeat' first
    | with_reducible assumption
    | (extract_lets +onlyGivenNames x; first | (refine Keeps.letS (a := x) ?_ fun hx => ?_; rotate_left; clear_value x; revert x; rotate_left; unfold x; clear x) | (try unfold x; clear x))
    | intro _ _
    | with_reducible refine Runs.next ?_
    | with_reducible refine jobCounted_keeps ?_
    | with_reducible refine settleDet_keeps ?_
    | with_reducible refine dropLlrs_keeps ?_
    | with_reducible refine giveSlot_keeps ?_
    | with_reducible refine registerDone_keeps ?_
    | with_reducible refine sectorDecoded_keeps ?_
    | with_reducible refine latchRes_keeps ?_
    | with_reducible refine Keeps.ite ?_ ?_
    | split

theorem takeTargets_keeps {s0 s : State} {a : Nat} (h : Keeps s0 s) : Keeps s0 (takeTargets s a) := by
  unfold takeTargets
  repeat' first
    | with_reducible assumption
    | (extract_lets +onlyGivenNames x; first | (refine Keeps.letS (a := x) ?_ fun hx => ?_; rotate_left; clear_value x; revert x; rotate_left; unfold x; clear x) | (try unfold x; clear x))
    | with_reducible refine Keeps.forAll ?_ fun _ _ hy => ?_
    | with_reducible refine setSlane_keeps ?_

theorem execDlPinRelease_runs {s0 : State} {m : Master} {a : Fin 64} {l : Fin 4} {i : Fin 2} {s : State} (h : Keeps s0 s) : Runs s0 (execDlPinRelease m a l i s) := by
  unfold execDlPinRelease
  repeat' first
    | with_reducible assumption
    | with_reducible refine Runs.next ?_
    | with_reducible refine regWrite_keeps (fun _ hy => ?_) ?_
    | with_reducible refine settleDet_keeps ?_
    | with_reducible refine endPin_keeps ?_
    | with_reducible refine Keeps.ite ?_ ?_

theorem execDlPinSet_runs {s0 : State} {m : Master} {a : Fin 64} {l : Fin 4} {i : Fin 2} {start : BitVec 13} {len : BitVec 14} {s : State} (h : Keeps s0 s) : Runs s0 (execDlPinSet m a l i start len s) := by
  unfold execDlPinSet
  repeat' first
    | with_reducible assumption
    | with_reducible refine Runs.next ?_
    | with_reducible refine regWrite_keeps (fun _ hy => ?_) ?_
    | with_reducible refine makePin_keeps ?_
    | with_reducible refine Keeps.ite ?_ ?_

theorem retryGo_keeps {s0 s : State} {n : Nat} {value : Word} (h : Keeps s0 s) : Keeps s0 (retryGo s n value) := by
  unfold retryGo
  repeat' first
    | with_reducible assumption
    | (extract_lets +onlyGivenNames x; first | (refine Keeps.letS (a := x) ?_ fun hx => ?_; rotate_left; clear_value x; revert x; rotate_left; unfold x; clear x) | (try unfold x; clear x))
    | intro _ _
    | with_reducible refine retryBegin_keeps ?_
    | with_reducible refine retryClose_keeps ?_
    | with_reducible refine retryTry_keeps ?_
    | with_reducible refine Keeps.ite ?_ ?_

theorem execDlRetryGo_runs {s0 : State} {m : Master} {a : Fin 64} {l : Fin 4} {value : Word} {s : State} (h : Keeps s0 s) : Runs s0 (execDlRetryGo m a l value s) := by
  unfold execDlRetryGo
  repeat' first
    | with_reducible assumption
    | with_reducible refine Runs.next ?_
    | with_reducible refine regWrite_keeps (fun _ hy => ?_) ?_
    | with_reducible refine retryGo_keeps ?_

theorem pendClear_keeps {s0 s : State} {n : Nat} {w : Word} (h : Keeps s0 s) : Keeps s0 (pendClear s n w) := by
  unfold pendClear
  repeat' first
    | with_reducible assumption
    | (extract_lets +onlyGivenNames x; first | (refine Keeps.letS (a := x) ?_ fun hx => ?_; rotate_left; clear_value x; revert x; rotate_left; unfold x; clear x) | (try unfold x; clear x))
    | intro _ _
    | with_reducible refine wr_keeps ?_
    | with_reducible refine Keeps.forAll ?_ fun _ _ hy => ?_
    | with_reducible refine ownRise_keeps ?_
    | with_reducible refine pendSet_keeps ?_
    | with_reducible refine Keeps.ite ?_ ?_

theorem writeXclaim_keeps {s0 s : State} {m : Master} {base : Nat} {expert : Bool} (h : Keeps s0 s) : Keeps s0 (writeXclaim s m base expert) := by
  unfold writeXclaim
  repeat' first
    | with_reducible assumption
    | with_reducible refine fsetb_keeps ?_
    | with_reducible refine fset_keeps ?_
    | with_reducible refine Keeps.ite ?_ ?_

theorem execExpertClaim_runs {s0 : State} {m : Master} {addr : Nat} {s : State} (h : Keeps s0 s) : Runs s0 (execExpertClaim m addr s) := by
  unfold execExpertClaim
  repeat' first
    | with_reducible assumption
    | with_reducible refine Runs.next ?_
    | with_reducible refine writeXclaim_keeps ?_
    | with_reducible refine undefAccess_keeps ?_
    | with_reducible refine Keeps.ite ?_ ?_
    | split

theorem feAnswer_keeps {s0 s : State} {p status : Nat} {data : List Nat} (h : Keeps s0 s) : Keeps s0 (feAnswer s p status data) := by
  unfold feAnswer
  repeat' first
    | with_reducible assumption
    | with_reducible refine emit_keeps ?_

theorem feAcquire_keeps {s0 s : State} {p side : Nat} (h : Keeps s0 s) : Keeps s0 (feAcquire s p side) := by
  unfold feAcquire
  repeat' first
    | with_reducible assumption
    | (extract_lets +onlyGivenNames x; first | (refine Keeps.letS (a := x) ?_ fun hx => ?_; rotate_left; clear_value x; revert x; rotate_left; unfold x; clear x) | (try unfold x; clear x))
    | with_reducible refine feAnswer_keeps ?_
    | with_reducible refine setFe_keeps ?_
    | with_reducible refine Keeps.ite ?_ ?_

theorem execFeAcquire_runs {s0 : State} {p : Fin 32} {side : Fin 2} {s : State} (h : Keeps s0 s) : Runs s0 (execFeAcquire p side s) := by
  unfold execFeAcquire
  repeat' first
    | with_reducible assumption
    | with_reducible refine Runs.next ?_
    | with_reducible refine feAcquire_keeps ?_

theorem execFeClear_runs {s0 : State} {m : Master} {e : Fin 16} {k : Fin 64} {s : State} (h : Keeps s0 s) : Runs s0 (execFeClear m e k s) := by
  unfold execFeClear
  repeat' first
    | with_reducible assumption
    | with_reducible refine Runs.next ?_
    | with_reducible refine regWrite_keeps (fun _ hy => ?_) ?_
    | with_reducible refine feClear_keeps ?_
    | with_reducible refine Keeps.ite ?_ ?_

theorem feApply_keeps {s0 : State} {p : Nat} {s : State} {e : CmdEntry} (h : Keeps s0 s) : Keeps s0 (feApply p s e) := by
  unfold feApply
  repeat' first
    | with_reducible assumption
    | (extract_lets +onlyGivenNames x; first | (refine Keeps.letS (a := x) ?_ fun hx => ?_; rotate_left; clear_value x; revert x; rotate_left; unfold x; clear x) | (try unfold x; clear x))
    | intro _ _
    | with_reducible refine emit_keeps ?_
    | with_reducible refine setFe_keeps ?_
    | with_reducible refine Keeps.ite ?_ ?_

theorem execFeCmdApply_runs {s0 : State} {p : Fin 32} {s : State} (h : Keeps s0 s) : Runs s0 (execFeCmdApply p s) := by
  unfold execFeCmdApply
  repeat' first
    | with_reducible assumption
    | (extract_lets +onlyGivenNames x; first | (refine Keeps.letS (a := x) ?_ fun hx => ?_; rotate_left; clear_value x; revert x; rotate_left; unfold x; clear x) | (try unfold x; clear x))
    | intro _ _
    | with_reducible refine Runs.next ?_
    | with_reducible refine setFe_keeps ?_
    | with_reducible refine Keeps.forAll ?_ fun _ _ hy => ?_
    | with_reducible refine feApply_keeps ?_
    | with_reducible refine Keeps.ite ?_ ?_
    | split

theorem execFeCmdFlit_runs {s0 : State} {p : Fin 32} {side : Fin 2} {f : Flit} {s : State} (h : Keeps s0 s) : Runs s0 (execFeCmdFlit p side f s) := by
  unfold execFeCmdFlit
  repeat' first
    | with_reducible assumption
    | (extract_lets +onlyGivenNames x; first | (refine Keeps.letS (a := x) ?_ fun hx => ?_; rotate_left; clear_value x; revert x; rotate_left; unfold x; clear x) | (try unfold x; clear x))
    | with_reducible refine Runs.next ?_
    | with_reducible refine setFe_keeps ?_
    | with_reducible refine emit_keeps ?_
    | with_reducible refine Keeps.ite ?_ ?_

theorem execFeDownstreamLoss_runs {s0 : State} {p : Fin 32} {s : State} (h : Keeps s0 s) : Runs s0 (execFeDownstreamLoss p s) := by
  unfold execFeDownstreamLoss
  repeat' first
    | with_reducible assumption
    | (extract_lets +onlyGivenNames x; first | (refine Keeps.letS (a := x) ?_ fun hx => ?_; rotate_left; clear_value x; revert x; rotate_left; unfold x; clear x) | (try unfold x; clear x))
    | with_reducible refine Runs.next ?_
    | with_reducible refine setFe_keeps ?_
    | with_reducible refine Keeps.ite ?_ ?_

theorem feHandoff_keeps {s0 s : State} {p side : Nat} (h : Keeps s0 s) : Keeps s0 (feHandoff s p side) := by
  unfold feHandoff
  repeat' first
    | with_reducible assumption
    | with_reducible refine feAnswer_keeps ?_
    | with_reducible refine setFe_keeps ?_
    | with_reducible refine Keeps.ite ?_ ?_

theorem execFeHandoff_runs {s0 : State} {p : Fin 32} {side : Fin 2} {s : State} (h : Keeps s0 s) : Runs s0 (execFeHandoff p side s) := by
  unfold execFeHandoff
  repeat' first
    | with_reducible assumption
    | with_reducible refine Runs.next ?_
    | with_reducible refine feHandoff_keeps ?_

theorem feHeartbeat_keeps {s0 s : State} {p side : Nat} (h : Keeps s0 s) : Keeps s0 (feHeartbeat s p side) := by
  unfold feHeartbeat
  repeat' first
    | with_reducible assumption
    | with_reducible refine setFe_keeps ?_

theorem execFeHbFlit_runs {s0 : State} {p : Fin 32} {side : Fin 2} {f : Flit} {s : State} (h : Keeps s0 s) : Runs s0 (execFeHbFlit p side f s) := by
  unfold execFeHbFlit
  repeat' first
    | with_reducible assumption
    | with_reducible refine Runs.next ?_
    | with_reducible refine feHeartbeat_keeps ?_
    | with_reducible refine setFe_keeps ?_
    | with_reducible refine Keeps.ite ?_ ?_

theorem execFeOtherWatchdogExpire_runs {s0 : State} {p : Fin 32} {side : Fin 2} {s : State} (h : Keeps s0 s) : Runs s0 (execFeOtherWatchdogExpire p side s) := by
  unfold execFeOtherWatchdogExpire
  repeat' first
    | with_reducible assumption
    | (extract_lets +onlyGivenNames x; first | (refine Keeps.letS (a := x) ?_ fun hx => ?_; rotate_left; clear_value x; revert x; rotate_left; unfold x; clear x) | (try unfold x; clear x))
    | with_reducible refine Runs.next ?_
    | with_reducible refine setFe_keeps ?_
    | with_reducible refine Keeps.ite ?_ ?_

theorem feRelease_keeps {s0 s : State} {p side : Nat} (h : Keeps s0 s) : Keeps s0 (feRelease s p side) := by
  unfold feRelease
  repeat' first
    | with_reducible assumption
    | with_reducible refine feAnswer_keeps ?_
    | with_reducible refine setFe_keeps ?_
    | with_reducible refine Keeps.ite ?_ ?_

theorem execFeRelease_runs {s0 : State} {p : Fin 32} {side : Fin 2} {s : State} (h : Keeps s0 s) : Runs s0 (execFeRelease p side s) := by
  unfold execFeRelease
  repeat' first
    | with_reducible assumption
    | with_reducible refine Runs.next ?_
    | with_reducible refine feRelease_keeps ?_

theorem execFeTsbHeartbeat_runs {s0 : State} {p : Fin 32} {side : Fin 2} {addr : BitVec 16} {len : BitVec 8} {crcOk : Bool} {s : State} (h : Keeps s0 s) : Runs s0 (execFeTsbHeartbeat p side addr len crcOk s) := by
  unfold execFeTsbHeartbeat
  repeat' first
    | with_reducible assumption
    | (extract_lets +onlyGivenNames x; first | (refine Keeps.letS (a := x) ?_ fun hx => ?_; rotate_left; clear_value x; revert x; rotate_left; unfold x; clear x) | (try unfold x; clear x))
    | with_reducible refine Runs.next ?_
    | with_reducible refine feAnswer_keeps ?_
    | with_reducible refine feHeartbeat_keeps ?_
    | with_reducible refine Keeps.ite ?_ ?_

theorem execFeTsbRead_runs {s0 : State} {p : Fin 32} {side : Fin 2} {addr : BitVec 16} {len : BitVec 8} {crcOk : Bool} {s : State} (h : Keeps s0 s) : Runs s0 (execFeTsbRead p side addr len crcOk s) := by
  unfold execFeTsbRead
  repeat' first
    | with_reducible assumption
    | (extract_lets +onlyGivenNames x; first | (refine Keeps.letS (a := x) ?_ fun hx => ?_; rotate_left; clear_value x; revert x; rotate_left; unfold x; clear x) | (try unfold x; clear x))
    | with_reducible refine Runs.next ?_
    | with_reducible refine feAnswer_keeps ?_
    | with_reducible refine Keeps.ite ?_ ?_
    | split

theorem execFeTsbWrite_runs {s0 : State} {p : Fin 32} {side : Fin 2} {addr : BitVec 16} {data : List Byte} {crcOk : Bool} {s : State} (h : Keeps s0 s) : Runs s0 (execFeTsbWrite p side addr data crcOk s) := by
  unfold execFeTsbWrite
  repeat' first
    | with_reducible assumption
    | (extract_lets +onlyGivenNames x; first | (refine Keeps.letS (a := x) ?_ fun hx => ?_; rotate_left; clear_value x; revert x; rotate_left; unfold x; clear x) | (try unfold x; clear x))
    | with_reducible refine Runs.next ?_
    | with_reducible refine feAnswer_keeps ?_
    | with_reducible refine setFe_keeps ?_
    | with_reducible refine feAcquire_keeps ?_
    | with_reducible refine feRelease_keeps ?_
    | with_reducible refine feHandoff_keeps ?_
    | with_reducible refine drawn_keeps ?_
    | with_reducible refine Keeps.ite ?_ ?_
    | split

theorem execFeWatchdogExpire_runs {s0 : State} {p : Fin 32} {rpm : BitVec 16} {busPower : Bool} {s : State} (h : Keeps s0 s) : Runs s0 (execFeWatchdogExpire p rpm busPower s) := by
  unfold execFeWatchdogExpire
  repeat' first
    | with_reducible assumption
    | (extract_lets +onlyGivenNames x; first | (refine Keeps.letS (a := x) ?_ fun hx => ?_; rotate_left; clear_value x; revert x; rotate_left; unfold x; clear x) | (try unfold x; clear x))
    | with_reducible refine Runs.next ?_
    | with_reducible refine setFe_keeps ?_
    | with_reducible refine Keeps.ite ?_ ?_

theorem winhBad_keeps {s0 s : State} {p : Nat} (h : Keeps s0 s) : Keeps s0 (winhBad s p) := by
  unfold winhBad
  repeat' first
    | with_reducible assumption
    | (extract_lets +onlyGivenNames x; first | (refine Keeps.letS (a := x) ?_ fun hx => ?_; rotate_left; clear_value x; revert x; rotate_left; unfold x; clear x) | (try unfold x; clear x))
    | with_reducible refine evtSet_keeps ?_
    | with_reducible refine emit_keeps ?_
    | with_reducible refine setFe_keeps ?_

theorem execFeWinhBadWord_runs {s0 : State} {p : Fin 32} {side : Fin 2} {s : State} (h : Keeps s0 s) : Runs s0 (execFeWinhBadWord p side s) := by
  unfold execFeWinhBadWord
  repeat' first
    | with_reducible assumption
    | with_reducible refine Runs.next ?_
    | with_reducible refine winhBad_keeps ?_
    | with_reducible refine Keeps.ite ?_ ?_

theorem execFeWinhSilence_runs {s0 : State} {p : Fin 32} {side : Fin 2} {s : State} (h : Keeps s0 s) : Runs s0 (execFeWinhSilence p side s) := by
  unfold execFeWinhSilence
  repeat' first
    | with_reducible assumption
    | with_reducible refine Runs.next ?_
    | with_reducible refine winhBad_keeps ?_
    | with_reducible refine Keeps.ite ?_ ?_

theorem execFeWinhWord_runs {s0 : State} {p : Fin 32} {side : Fin 2} {word : BitVec 12} {s : State} (h : Keeps s0 s) : Runs s0 (execFeWinhWord p side word s) := by
  unfold execFeWinhWord
  repeat' first
    | with_reducible assumption
    | (extract_lets +onlyGivenNames x; first | (refine Keeps.letS (a := x) ?_ fun hx => ?_; rotate_left; clear_value x; revert x; rotate_left; unfold x; clear x) | (try unfold x; clear x))
    | with_reducible refine Runs.next ?_
    | with_reducible refine winhBad_keeps ?_
    | with_reducible refine setFe_keeps ?_
    | with_reducible refine Keeps.ite ?_ ?_

theorem feLate_keeps {s0 s : State} {p chan ts : Nat} (h : Keeps s0 s) : Keeps s0 (feLate s p chan ts) := by
  unfold feLate
  repeat' first
    | with_reducible assumption
    | (extract_lets +onlyGivenNames x; first | (refine Keeps.letS (a := x) ?_ fun hx => ?_; rotate_left; clear_value x; revert x; rotate_left; unfold x; clear x) | (try unfold x; clear x))
    | intro _ _
    | with_reducible refine emit_keeps ?_
    | with_reducible refine setFe_keeps ?_
    | with_reducible refine count_keeps ?_
    | with_reducible refine setSlane_keeps ?_
    | split

theorem execFeWriteFlit_runs {s0 : State} {p : Fin 32} {side : Fin 2} {f : Flit} {late : Bool} {s : State} (h : Keeps s0 s) : Runs s0 (execFeWriteFlit p side f late s) := by
  unfold execFeWriteFlit
  repeat' first
    | with_reducible assumption
    | (extract_lets +onlyGivenNames x; first | (refine Keeps.letS (a := x) ?_ fun hx => ?_; rotate_left; clear_value x; revert x; rotate_left; unfold x; clear x) | (try unfold x; clear x))
    | with_reducible refine Runs.next ?_
    | with_reducible refine feLate_keeps ?_
    | with_reducible refine emit_keeps ?_
    | with_reducible refine setFe_keeps ?_
    | with_reducible refine Keeps.ite ?_ ?_

theorem sendOutput_keeps {s0 s : State} {e k : Nat} {v : Int} (h : Keeps s0 s) : Keeps s0 (sendOutput s e k v) := by
  unfold sendOutput
  repeat' first
    | with_reducible assumption
    | with_reducible refine sendOutputs_keeps ?_

theorem feAction_keeps {s0 s : State} {e k : Nat} (h : Keeps s0 s) : Keeps s0 (feAction s e k) := by
  unfold feAction
  repeat' first
    | with_reducible assumption
    | (extract_lets +onlyGivenNames x; first | (refine Keeps.letS (a := x) ?_ fun hx => ?_; rotate_left; clear_value x; revert x; rotate_left; unfold x; clear x) | (try unfold x; clear x))
    | intro _ _
    | with_reducible refine fsetb_keeps ?_
    | with_reducible refine setBslot_keeps ?_
    | with_reducible refine evtSet_keeps ?_
    | with_reducible refine count_keeps ?_
    | with_reducible refine sendOutput_keeps ?_
    | with_reducible refine fixedOutput_keeps ?_
    | with_reducible refine fset_keeps ?_
    | with_reducible refine calPend_keeps ?_
    | with_reducible refine setSpn_keeps ?_
    | with_reducible refine syncFe_keeps ?_
    | with_reducible refine Keeps.ite ?_ ?_

theorem execFollowingErrorAction_runs {s0 : State} {e : Fin 16} {k : Fin 64} {s : State} (h : Keeps s0 s) : Runs s0 (execFollowingErrorAction e k s) := by
  unfold execFollowingErrorAction
  repeat' first
    | with_reducible assumption
    | (extract_lets +onlyGivenNames x; first | (refine Keeps.letS (a := x) ?_ fun hx => ?_; rotate_left; clear_value x; revert x; rotate_left; unfold x; clear x) | (try unfold x; clear x))
    | with_reducible refine Runs.next ?_
    | with_reducible refine feAction_keeps ?_
    | with_reducible refine Keeps.ite ?_ ?_

theorem execFollowingErrorEnd_runs {s0 : State} {e : Fin 16} {k : Fin 64} {s : State} (h : Keeps s0 s) : Runs s0 (execFollowingErrorEnd e k s) := by
  unfold execFollowingErrorEnd
  repeat' first
    | with_reducible assumption
    | (extract_lets +onlyGivenNames x; first | (refine Keeps.letS (a := x) ?_ fun hx => ?_; rotate_left; clear_value x; revert x; rotate_left; unfold x; clear x) | (try unfold x; clear x))
    | with_reducible refine Runs.next ?_
    | with_reducible refine syncFe_keeps ?_
    | with_reducible refine fset_keeps ?_
    | with_reducible refine fsetb_keeps ?_
    | with_reducible refine calPend_keeps ?_
    | with_reducible refine Keeps.ite ?_ ?_

theorem sequenceError_keeps {s0 s : State} {x1 cid : Nat} (h : Keeps s0 s) : Keeps s0 (sequenceError s x1 cid) := by
  unfold sequenceError
  repeat' first
    | with_reducible assumption
    | with_reducible refine adminEnd_keeps ?_

theorem moveSurfs_keeps {s0 s : State} {p : Nat} {fromSt : List Nat} {st : Nat} (h : Keeps s0 s) : Keeps s0 (moveSurfs s p fromSt st) := by
  unfold moveSurfs
  repeat' first
    | with_reducible assumption
    | with_reducible refine Keeps.forAll ?_ fun _ _ hy => ?_
    | with_reducible refine setUState_keeps ?_
    | with_reducible refine Keeps.ite ?_ ?_

theorem sendHb_keeps {s0 s : State} {p count : Nat} (h : Keeps s0 s) : Keeps s0 (sendHb s p count) := by
  unfold sendHb
  repeat' first
    | with_reducible assumption
    | with_reducible refine sendFlit_keeps ?_

theorem samplesStored_keeps {s0 s : State} {n from_ : Nat} (h : Keeps s0 s) : Keeps s0 (samplesStored s n from_) := by
  unfold samplesStored
  repeat' first
    | with_reducible assumption
    | (extract_lets +onlyGivenNames x; first | (refine Keeps.letS (a := x) ?_ fun hx => ?_; rotate_left; clear_value x; revert x; rotate_left; unfold x; clear x) | (try unfold x; clear x))
    | with_reducible refine flipNow_keeps ?_
    | with_reducible refine eraseLine_keeps ?_
    | with_reducible refine Keeps.ite ?_ ?_

theorem takeSamples_keeps {s0 s : State} {n tstamp : Nat} {gap : Bool} {l : List Nat} (h : Keeps s0 s) : Keeps s0 (takeSamples s n tstamp gap l) := by
  unfold takeSamples
  repeat' first
    | with_reducible assumption
    | (extract_lets +onlyGivenNames x; first | (refine Keeps.letS (a := x) ?_ fun hx => ?_; rotate_left; clear_value x; revert x; rotate_left; unfold x; clear x) | (try unfold x; clear x))
    | intro _ _
    | with_reducible refine putSamples_keeps ?_
    | with_reducible refine setDet_keeps ?_
    | with_reducible refine Keeps.ite ?_ ?_

theorem flitDiscard_keeps {s0 s : State} {p : Nat} (h : Keeps s0 s) : Keeps s0 (flitDiscard s p) := by
  unfold flitDiscard
  repeat' first
    | with_reducible assumption
    | with_reducible refine evtSet_keeps ?_
    | with_reducible refine count_keeps ?_

theorem releaseMoved_keeps {s0 s : State} {keys : List Nat} (h : Keeps s0 s) : Keeps s0 (releaseMoved s keys) := by
  unfold releaseMoved
  repeat' first
    | with_reducible assumption
    | with_reducible refine releaseStaged_keeps ?_

theorem setTaps_keeps {s0 s : State} {a l : Nat} {ts : List Int} (h : Keeps s0 s) : Keeps s0 (setTaps s a l ts) := by
  unfold setTaps
  repeat' first
    | with_reducible assumption
    | with_reducible refine Keeps.forAll ?_ fun _ _ hy => ?_
    | with_reducible refine fset_keeps ?_

theorem laneRecord_keeps {s0 s : State} {x1 : Sector} {d : Detected} {f : MarkFind} (h : Keeps s0 s) : Keeps s0 (laneRecord s x1 d f) := by
  unfold laneRecord
  repeat' first
    | with_reducible assumption
    | (extract_lets +onlyGivenNames x; first | (refine Keeps.letS (a := x) ?_ fun hx => ?_; rotate_left; clear_value x; revert x; rotate_left; unfold x; clear x) | (try unfold x; clear x))
    | intro _ _
    | with_reducible refine setDet_keeps ?_
    | with_reducible refine setTaps_keeps ?_
    | with_reducible refine fset_keeps ?_
    | with_reducible refine fsetb_keeps ?_
    | with_reducible refine count_keeps ?_
    | with_reducible refine evtSet_keeps ?_
    | with_reducible refine Keeps.ite ?_ ?_

theorem execLadderReread_runs {s0 : State} {a : Fin 64} {l : Fin 4} {start : BitVec 17} {s : State} (h : Keeps s0 s) : Runs s0 (execLadderReread a l start s) := by
  unfold execLadderReread
  repeat' first
    | with_reducible assumption
    | (extract_lets +onlyGivenNames x; first | (refine Keeps.letS (a := x) ?_ fun hx => ?_; rotate_left; clear_value x; revert x; rotate_left; unfold x; clear x) | (try unfold x; clear x))
    | intro _ _
    | with_reducible refine Runs.next ?_
    | with_reducible refine decisionRecord_keeps ?_
    | with_reducible refine laneRecord_keeps ?_
    | with_reducible refine putSector_keeps ?_
    | with_reducible refine settleDet_keeps ?_
    | with_reducible refine rereadFailed_keeps ?_
    | with_reducible refine takeSlot_keeps ?_
    | with_reducible refine addJob_keeps ?_
    | with_reducible refine putLlrs_keeps ?_
    | with_reducible refine Keeps.ite ?_ ?_
    | split

theorem laneDiscard_keeps {s0 s : State} {n : Nat} (h : Keeps s0 s) : Keeps s0 (laneDiscard s n) := by
  unfold laneDiscard
  repeat' first
    | with_reducible assumption
    | (extract_lets +onlyGivenNames x; first | (refine Keeps.letS (a := x) ?_ fun hx => ?_; rotate_left; clear_value x; revert x; rotate_left; unfold x; clear x) | (try unfold x; clear x))
    | intro _ _
    | with_reducible refine setTaps_keeps ?_
    | with_reducible refine wbit_keeps ?_
    | with_reducible refine wrN_keeps ?_
    | with_reducible refine fset_keeps ?_
    | with_reducible refine setDet_keeps ?_

theorem execLaneIdlePoweroff_runs {s0 : State} {a : Fin 64} {l : Fin 4} {s : State} (h : Keeps s0 s) : Runs s0 (execLaneIdlePoweroff a l s) := by
  unfold execLaneIdlePoweroff
  repeat' first
    | with_reducible assumption
    | (extract_lets +onlyGivenNames x; first | (refine Keeps.letS (a := x) ?_ fun hx => ?_; rotate_left; clear_value x; revert x; rotate_left; unfold x; clear x) | (try unfold x; clear x))
    | with_reducible refine Runs.next ?_
    | with_reducible refine sliceSync_keeps ?_
    | with_reducible refine laneSync_keeps ?_
    | with_reducible refine domRelease_keeps ?_
    | with_reducible refine setDet_keeps ?_
    | with_reducible refine laneDiscard_keeps ?_
    | with_reducible refine Keeps.ite ?_ ?_

theorem restoreLane_keeps {s0 s : State} {n rate : Nat} (h : Keeps s0 s) : Keeps s0 (restoreLane s n rate) := by
  unfold restoreLane
  repeat' first
    | with_reducible assumption
    | (extract_lets +onlyGivenNames x; first | (refine Keeps.letS (a := x) ?_ fun hx => ?_; rotate_left; clear_value x; revert x; rotate_left; unfold x; clear x) | (try unfold x; clear x))
    | with_reducible refine setDet_keeps ?_
    | with_reducible refine setTaps_keeps ?_

theorem execLanePowerReady_runs {s0 : State} {a : Fin 64} {l : Fin 4} {s : State} (h : Keeps s0 s) : Runs s0 (execLanePowerReady a l s) := by
  unfold execLanePowerReady
  repeat' first
    | with_reducible assumption
    | (extract_lets +onlyGivenNames x; first | (refine Keeps.letS (a := x) ?_ fun hx => ?_; rotate_left; clear_value x; revert x; rotate_left; unfold x; clear x) | (try unfold x; clear x))
    | with_reducible refine Runs.next ?_
    | with_reducible refine settleDet_keeps ?_
    | with_reducible refine laneSync_keeps ?_
    | with_reducible refine wbit_keeps ?_
    | with_reducible refine restoreLane_keeps ?_
    | with_reducible refine Keeps.ite ?_ ?_

theorem execLanePowerRequest_runs {s0 : State} {a : Fin 64} {l : Fin 4} {s : State} (h : Keeps s0 s) : Runs s0 (execLanePowerRequest a l s) := by
  unfold execLanePowerRequest
  repeat' first
    | with_reducible assumption
    | (extract_lets +onlyGivenNames x; first | (refine Keeps.letS (a := x) ?_ fun hx => ?_; rotate_left; clear_value x; revert x; rotate_left; unfold x; clear x) | (try unfold x; clear x))
    | with_reducible refine Runs.next ?_
    | with_reducible refine laneSync_keeps ?_
    | with_reducible refine setDet_keeps ?_
    | with_reducible refine count_keeps ?_
    | with_reducible refine sliceSync_keeps ?_
    | with_reducible refine domRequest_keeps ?_
    | with_reducible refine Keeps.ite ?_ ?_

theorem identStart_keeps {s0 s : State} {p : Nat} (h : Keeps s0 s) : Keeps s0 (identStart s p) := by
  unfold identStart
  repeat' first
    | with_reducible assumption
    | (extract_lets +onlyGivenNames x; first | (refine Keeps.letS (a := x) ?_ fun hx => ?_; rotate_left; clear_value x; revert x; rotate_left; unfold x; clear x) | (try unfold x; clear x))
    | with_reducible refine tsbRead_keeps ?_
    | with_reducible refine setTth_keeps ?_

theorem execLdcSlotsRead_runs {s0 : State} {m : Master} {c : Fin 16} {s : State} (h : Keeps s0 s) : Runs s0 (execLdcSlotsRead m c s) := by
  unfold execLdcSlotsRead
  repeat' first
    | with_reducible assumption
    | with_reducible refine Runs.next ?_
    | with_reducible refine regRead_keeps ?_

theorem execLiveCoefWrite_runs {s0 : State} {m : Master} {e : Fin 16} {k : Fin 64} {i : Fin 16} {value : Word} {s : State} (h : Keeps s0 s) : Runs s0 (execLiveCoefWrite m e k i value s) := by
  unfold execLiveCoefWrite
  repeat' first
    | with_reducible assumption
    | (extract_lets +onlyGivenNames x; first | (refine Keeps.letS (a := x) ?_ fun hx => ?_; rotate_left; clear_value x; revert x; rotate_left; unfold x; clear x) | (try unfold x; clear x))
    | with_reducible refine Runs.next ?_
    | with_reducible refine regWrite_keeps (fun _ hy => ?_) ?_
    | with_reducible refine evtSet_keeps ?_
    | with_reducible refine fset_keeps ?_
    | with_reducible refine wr_keeps ?_
    | with_reducible refine Keeps.ite ?_ ?_

theorem tsbAbort_keeps {s0 s : State} {p : Nat} (h : Keeps s0 s) : Keeps s0 (tsbAbort s p) := by
  unfold tsbAbort
  repeat' first
    | with_reducible assumption
    | (extract_lets +onlyGivenNames x; first | (refine Keeps.letS (a := x) ?_ fun hx => ?_; rotate_left; clear_value x; revert x; rotate_left; unfold x; clear x) | (try unfold x; clear x))
    | with_reducible refine fsetb_keeps ?_
    | with_reducible refine setTth_keeps ?_

theorem execSlotModeWrite_runs {s0 : State} {m : Master} {e : Fin 16} {k : Fin 64} {mode : BitVec 2} {s : State} (h : Keeps s0 s) : Runs s0 (execSlotModeWrite m e k mode s) := by
  unfold execSlotModeWrite
  repeat' first
    | with_reducible assumption
    | (extract_lets +onlyGivenNames x; first | (refine Keeps.letS (a := x) ?_ fun hx => ?_; rotate_left; clear_value x; revert x; rotate_left; unfold x; clear x) | (try unfold x; clear x))
    | intro _ _
    | with_reducible refine Runs.next ?_
    | with_reducible refine regWrite_keeps (fun _ hy => ?_) ?_
    | with_reducible refine fset_keeps ?_
    | with_reducible refine enginePower_keeps ?_
    | with_reducible refine Keeps.ite ?_ ?_

theorem execMisalignedQcsAccess_runs {s0 : State} {m : Master} {addr : Nat} {width : Width} {write : Bool} {s : State} (h : Keeps s0 s) : Runs s0 (execMisalignedQcsAccess m addr width write s) := by
  unfold execMisalignedQcsAccess
  repeat' first
    | with_reducible assumption
    | with_reducible refine Runs.next ?_
    | with_reducible refine undefAccess_keeps ?_
    | with_reducible refine Keeps.ite ?_ ?_

theorem releaseHeldBy_keeps {s0 s : State} {id : Nat} (h : Keeps s0 s) : Keeps s0 (releaseHeldBy s id) := by
  unfold releaseHeldBy
  repeat' first
    | with_reducible assumption
    | with_reducible refine Keeps.forAll ?_ fun _ _ hy => ?_
    | with_reducible refine release_keeps ?_
    | with_reducible refine Keeps.ite ?_ ?_

theorem releaseClaims_keeps {s0 s : State} {id : Nat} (h : Keeps s0 s) : Keeps s0 (releaseClaims s id) := by
  unfold releaseClaims
  repeat' first
    | with_reducible assumption
    | with_reducible refine claimsFreed_keeps ?_
    | with_reducible refine releaseHeldBy_keeps ?_

theorem linkDown_keeps {s0 s : State} {x1 : Nat} (h : Keeps s0 s) : Keeps s0 (linkDown s x1) := by
  unfold linkDown
  repeat' first
    | with_reducible assumption
    | (extract_lets +onlyGivenNames x; first | (refine Keeps.letS (a := x) ?_ fun hx => ?_; rotate_left; clear_value x; revert x; rotate_left; unfold x; clear x) | (try unfold x; clear x))
    | intro _ _
    | with_reducible refine fsetb_keeps ?_
    | with_reducible refine fset_keeps ?_

theorem expirePin_keeps {s0 s : State} {n i : Nat} (h : Keeps s0 s) : Keeps s0 (expirePin s n i) := by
  unfold expirePin
  repeat' first
    | with_reducible assumption
    | with_reducible refine evtSet_keeps ?_
    | with_reducible refine endPin_keeps ?_

theorem execPinTimeout_runs {s0 : State} {a : Fin 64} {l : Fin 4} {i : Fin 2} {s : State} (h : Keeps s0 s) : Runs s0 (execPinTimeout a l i s) := by
  unfold execPinTimeout
  repeat' first
    | with_reducible assumption
    | with_reducible refine Runs.next ?_
    | with_reducible refine settleDet_keeps ?_
    | with_reducible refine expirePin_keeps ?_
    | with_reducible refine Keeps.ite ?_ ?_

theorem setPs_keeps {s0 s : State} {ps : Nat} (h : Keeps s0 s) : Keeps s0 (setPs s ps) := by
  unfold setPs
  repeat' first
    | with_reducible assumption
    | (extract_lets +onlyGivenNames x; first | (refine Keeps.letS (a := x) ?_ fun hx => ?_; rotate_left; clear_value x; revert x; rotate_left; unfold x; clear x) | (try unfold x; clear x))
    | intro _ _
    | with_reducible refine fset_keeps ?_
    | with_reducible refine applyRule_keeps ?_
    | with_reducible refine syncEnv_keeps ?_
    | with_reducible refine Keeps.ite ?_ ?_
    | with_reducible refine Keeps.upd ?_ rfl rfl rfl

theorem spnGone_keeps {s0 s : State} {p : Nat} (h : Keeps s0 s) : Keeps s0 (spnGone s p) := by
  unfold spnGone
  repeat' first
    | with_reducible assumption
    | (extract_lets +onlyGivenNames x; first | (refine Keeps.letS (a := x) ?_ fun hx => ?_; rotate_left; clear_value x; revert x; rotate_left; unfold x; clear x) | (try unfold x; clear x))
    | intro _ _
    | with_reducible refine fset_keeps ?_
    | with_reducible refine Keeps.forAll ?_ fun _ _ hy => ?_
    | with_reducible refine goStopped_keeps ?_
    | with_reducible refine setSlice_keeps ?_
    | with_reducible refine wrN_keeps ?_
    | with_reducible refine setSpn_keeps ?_
    | with_reducible refine Keeps.ite ?_ ?_

theorem execQcsUndefinedAccess_runs {s0 : State} {m : Master} {addr : Nat} {write : Bool} {s : State} (h : Keeps s0 s) : Runs s0 (execQcsUndefinedAccess m addr write s) := by
  unfold execQcsUndefinedAccess
  repeat' first
    | with_reducible assumption
    | with_reducible refine Runs.next ?_
    | with_reducible refine undefAccess_keeps ?_
    | with_reducible refine Keeps.ite ?_ ?_

theorem leafFail_keeps {s0 s : State} {u cause : Nat} (h : Keeps s0 s) : Keeps s0 (leafFail s u cause) := by
  unfold leafFail
  repeat' first
    | with_reducible assumption
    | with_reducible refine setUState_keeps ?_
    | with_reducible refine setUGrade_keeps ?_
    | with_reducible refine Keeps.ite ?_ ?_

theorem narrowRead_keeps {s0 s : State} {m : Master} {a n : Nat} (h : Keeps s0 s) : Keeps s0 (narrowRead s m a n) := by
  unfold narrowRead
  repeat' first
    | with_reducible assumption
    | (extract_lets +onlyGivenNames x; first | (refine Keeps.letS (a := x) ?_ fun hx => ?_; rotate_left; clear_value x; revert x; rotate_left; unfold x; clear x) | (try unfold x; clear x))
    | with_reducible refine fetchWord_keeps ?_
    | with_reducible refine pcieDone_keeps ?_
    | with_reducible refine emit_keeps ?_

theorem readAccess_keeps {s0 s : State} {m : Master} {a : Nat} {w : Width} (h : Keeps s0 s) : Keeps s0 (readAccess s m a w) := by
  unfold readAccess
  repeat' first
    | with_reducible assumption
    | (extract_lets +onlyGivenNames x; first | (refine Keeps.letS (a := x) ?_ fun hx => ?_; rotate_left; clear_value x; revert x; rotate_left; unfold x; clear x) | (try unfold x; clear x))
    | with_reducible refine undefAccess_keeps ?_
    | with_reducible refine narrowRead_keeps ?_
    | with_reducible refine regRead_keeps ?_
    | with_reducible refine fetchWord_keeps ?_
    | with_reducible refine emit_keeps ?_
    | with_reducible refine Keeps.ite ?_ ?_
    | split

theorem execRcFieldRead_runs {s0 : State} {m : Master} {addr : Nat} {width : Width} {s : State} (h : Keeps s0 s) : Runs s0 (execRcFieldRead m addr width s) := by
  unfold execRcFieldRead
  repeat' first
    | with_reducible assumption
    | with_reducible refine Runs.next ?_
    | with_reducible refine readAccess_keeps ?_

theorem skipSamples_keeps {s0 s : State} {n : Nat} (h : Keeps s0 s) : Keeps s0 (skipSamples s n) := by
  unfold skipSamples
  repeat' first
    | with_reducible assumption
    | (extract_lets +onlyGivenNames x; first | (refine Keeps.letS (a := x) ?_ fun hx => ?_; rotate_left; clear_value x; revert x; rotate_left; unfold x; clear x) | (try unfold x; clear x))
    | with_reducible refine setDet_keeps ?_
    | with_reducible refine putSamples_keeps ?_

theorem liveStart_keeps {s0 s : State} {n : Nat} (h : Keeps s0 s) : Keeps s0 (liveStart s n) := by
  unfold liveStart
  repeat' first
    | with_reducible assumption
    | (extract_lets +onlyGivenNames x; first | (refine Keeps.letS (a := x) ?_ fun hx => ?_; rotate_left; clear_value x; revert x; rotate_left; unfold x; clear x) | (try unfold x; clear x))
    | intro _ _
    | with_reducible refine setDet_keeps ?_
    | with_reducible refine Keeps.forAll ?_ fun _ _ hy => ?_
    | with_reducible refine expirePin_keeps ?_
    | with_reducible refine laneSync_keeps ?_
    | with_reducible refine Keeps.ite ?_ ?_
    | split

theorem readOpen_keeps {s0 s : State} {n head track : Nat} (h : Keeps s0 s) : Keeps s0 (readOpen s n head track) := by
  unfold readOpen
  repeat' first
    | with_reducible assumption
    | (extract_lets +onlyGivenNames x; first | (refine Keeps.letS (a := x) ?_ fun hx => ?_; rotate_left; clear_value x; revert x; rotate_left; unfold x; clear x) | (try unfold x; clear x))
    | intro _ _
    | with_reducible refine fset_keeps ?_
    | with_reducible refine restoreLane_keeps ?_
    | with_reducible refine Keeps.ite ?_ ?_

theorem flyWedge_keeps {s0 s : State} {a l : Nat} (h : Keeps s0 s) : Keeps s0 (flyWedge s a l) := by
  unfold flyWedge
  repeat' first
    | with_reducible assumption
    | (extract_lets +onlyGivenNames x; first | (refine Keeps.letS (a := x) ?_ fun hx => ?_; rotate_left; clear_value x; revert x; rotate_left; unfold x; clear x) | (try unfold x; clear x))
    | intro _ _
    | with_reducible refine Keeps.forAll ?_ fun _ _ hy => ?_
    | with_reducible refine setSpn_keeps ?_
    | with_reducible refine fwFeClear_keeps ?_
    | with_reducible refine Keeps.ite ?_ ?_

theorem stepWedge_keeps {s0 s : State} {a l : Nat} (h : Keeps s0 s) : Keeps s0 (stepWedge s a l) := by
  unfold stepWedge
  repeat' first
    | with_reducible assumption
    | (extract_lets +onlyGivenNames x; first | (refine Keeps.letS (a := x) ?_ fun hx => ?_; rotate_left; clear_value x; revert x; rotate_left; unfold x; clear x) | (try unfold x; clear x))
    | with_reducible refine setSpn_keeps ?_
    | with_reducible refine Keeps.ite ?_ ?_
    | split

theorem takeLimits_keeps {s0 s : State} {a : Nat} (h : Keeps s0 s) : Keeps s0 (takeLimits s a) := by
  unfold takeLimits
  repeat' first
    | with_reducible assumption
    | with_reducible refine setSlice_keeps ?_

theorem execSpeedStepGroupSwitch_runs {s0 : State} {p : Fin 32} {s : State} (h : Keeps s0 s) : Runs s0 (execSpeedStepGroupSwitch p s) := by
  unfold execSpeedStepGroupSwitch
  repeat' first
    | with_reducible assumption
    | (extract_lets +onlyGivenNames x; first | (refine Keeps.letS (a := x) ?_ fun hx => ?_; rotate_left; clear_value x; revert x; rotate_left; unfold x; clear x) | (try unfold x; clear x))
    | with_reducible refine Runs.next ?_
    | with_reducible refine groupSwitch_keeps ?_
    | with_reducible refine setSpn_keeps ?_
    | with_reducible refine Keeps.ite ?_ ?_
    | split

theorem readSector_keeps {s0 s : State} {n : Nat} {w : SecWork} {start : Nat} (h : Keeps s0 s) : Keeps s0 (readSector s n w start) := by
  unfold readSector
  repeat' first
    | with_reducible assumption
    | (extract_lets +onlyGivenNames x; first | (refine Keeps.letS (a := x) ?_ fun hx => ?_; rotate_left; clear_value x; revert x; rotate_left; unfold x; clear x) | (try unfold x; clear x))
    | intro _ _
    | with_reducible refine setDet_keeps ?_
    | with_reducible refine decisionRecord_keeps ?_
    | with_reducible refine laneRecord_keeps ?_
    | with_reducible refine settleDet_keeps ?_
    | with_reducible refine codewordStart_keeps ?_

theorem execSyncDecision_runs {s0 : State} {a : Fin 64} {l : Fin 4} {start : BitVec 17} {s : State} (h : Keeps s0 s) : Runs s0 (execSyncDecision a l start s) := by
  unfold execSyncDecision
  repeat' first
    | with_reducible assumption
    | (extract_lets +onlyGivenNames x; first | (refine Keeps.letS (a := x) ?_ fun hx => ?_; rotate_left; clear_value x; revert x; rotate_left; unfold x; clear x) | (try unfold x; clear x))
    | with_reducible refine Runs.next ?_
    | with_reducible refine putSector_keeps ?_
    | with_reducible refine readSector_keeps ?_
    | with_reducible refine Keeps.ite ?_ ?_
    | split

theorem reconCount_keeps {s0 s : State} {t1 : Nat} {ok : Bool} (h : Keeps s0 s) : Keeps s0 (reconCount s t1 ok) := by
  unfold reconCount
  repeat' first
    | with_reducible assumption
    | with_reducible refine count_keeps ?_
    | with_reducible refine evtSet_keeps ?_
    | with_reducible refine Keeps.ite ?_ ?_

theorem execThatchReconstruct_runs {s0 : State} {t1 : Fin 4} {nsid : BitVec 8} {lba : BitVec 40} {shares : List (BitVec 5 × BitVec 33024)} {s : State} (h : Keeps s0 s) : Runs s0 (execThatchReconstruct t1 nsid lba shares s) := by
  unfold execThatchReconstruct
  repeat' first
    | with_reducible assumption
    | (extract_lets +onlyGivenNames x; first | (refine Keeps.letS (a := x) ?_ fun hx => ?_; rotate_left; clear_value x; revert x; rotate_left; unfold x; clear x) | (try unfold x; clear x))
    | intro _ _
    | with_reducible refine Runs.next ?_
    | with_reducible refine settleDet_keeps ?_
    | with_reducible refine endSector_keeps ?_
    | with_reducible refine deliver_keeps ?_
    | with_reducible refine reconCount_keeps ?_
    | with_reducible refine cacheInstall_keeps ?_
    | with_reducible refine emit_keeps ?_
    | with_reducible refine readFailed_keeps ?_
    | with_reducible refine Keeps.ite ?_ ?_
    | split

theorem execTrackParityRebuildRead_runs {s0 : State} {p : Fin 32} {q : BitVec 5} {track : BitVec 24} {s : State} (h : Keeps s0 s) : Runs s0 (execTrackParityRebuildRead p q track s) := by
  unfold execTrackParityRebuildRead
  repeat' first
    | with_reducible assumption
    | (extract_lets +onlyGivenNames x; first | (refine Keeps.letS (a := x) ?_ fun hx => ?_; rotate_left; clear_value x; revert x; rotate_left; unfold x; clear x) | (try unfold x; clear x))
    | with_reducible refine Runs.next ?_
    | with_reducible refine setDet_keeps ?_

theorem ladderNext_keeps {s0 s : State} {x1 : Sector} {noSample : Bool} (h : Keeps s0 s) : Keeps s0 (ladderNext s x1 noSample) := by
  unfold ladderNext
  repeat' first
    | with_reducible assumption
    | with_reducible refine ladderGo_keeps ?_
    | with_reducible refine endSector_keeps ?_
    | split

theorem execTrackParityReconstruct_runs {s0 : State} {a : Fin 64} {l : Fin 4} {read : List (BitVec 16 × BitVec 33024)} {s : State} (h : Keeps s0 s) : Runs s0 (execTrackParityReconstruct a l read s) := by
  unfold execTrackParityReconstruct
  repeat' first
    | with_reducible assumption
    | with_reducible refine Runs.next ?_
    | with_reducible refine settleDet_keeps ?_
    | with_reducible refine ladderNext_keeps ?_
    | with_reducible refine endSector_keeps ?_
    | with_reducible refine deliver_keeps ?_
    | split

theorem tsbNext_keeps {s0 s : State} {p : Nat} (h : Keeps s0 s) : Keeps s0 (tsbNext s p) := by
  unfold tsbNext
  repeat' first
    | with_reducible assumption
    | (extract_lets +onlyGivenNames x; first | (refine Keeps.letS (a := x) ?_ fun hx => ?_; rotate_left; clear_value x; revert x; rotate_left; unfold x; clear x) | (try unfold x; clear x))
    | with_reducible refine emit_keeps ?_
    | with_reducible refine setTth_keeps ?_
    | split

theorem execUnitPolicyWrite_runs {s0 : State} {m : Master} {u : Fin 4095} {policy : BitVec 4} {s : State} (h : Keeps s0 s) : Runs s0 (execUnitPolicyWrite m u policy s) := by
  unfold execUnitPolicyWrite
  repeat' first
    | with_reducible assumption
    | with_reducible refine Runs.next ?_
    | with_reducible refine regWrite_keeps (fun _ hy => ?_) ?_
    | with_reducible refine fset_keeps ?_
    | with_reducible refine Keeps.ite ?_ ?_

theorem execUnitRetire_runs {s0 : State} {u : Fin 4095} {cause : BitVec 8} {s : State} (h : Keeps s0 s) : Runs s0 (execUnitRetire u cause s) := by
  unfold execUnitRetire
  repeat' first
    | with_reducible assumption
    | with_reducible refine Runs.next ?_
    | with_reducible refine retireUnit_keeps ?_
    | with_reducible refine Keeps.ite ?_ ?_

theorem execUnitWakeComplete_runs {s0 : State} {u : Fin 4095} {s : State} (h : Keeps s0 s) : Runs s0 (execUnitWakeComplete u s) := by
  unfold execUnitWakeComplete
  repeat' first
    | with_reducible assumption
    | (extract_lets +onlyGivenNames x; first | (refine Keeps.letS (a := x) ?_ fun hx => ?_; rotate_left; clear_value x; revert x; rotate_left; unfold x; clear x) | (try unfold x; clear x))
    | with_reducible refine Runs.next ?_
    | with_reducible refine Keeps.forAll ?_ fun _ _ hy => ?_
    | with_reducible refine setUState_keeps ?_
    | with_reducible refine setAux_keeps ?_
    | with_reducible refine Keeps.ite ?_ ?_

theorem execUnitWakeDemand_runs {s0 : State} {u : Fin 4095} {s : State} (h : Keeps s0 s) : Runs s0 (execUnitWakeDemand u s) := by
  unfold execUnitWakeDemand
  repeat' first
    | with_reducible assumption
    | with_reducible refine Runs.next ?_
    | with_reducible refine wakeDemand_keeps ?_
    | with_reducible refine Keeps.ite ?_ ?_

theorem execWideRegisterLowRead_runs {s0 : State} {m : Master} {addr : Nat} {width : Width} {s : State} (h : Keeps s0 s) : Runs s0 (execWideRegisterLowRead m addr width s) := by
  unfold execWideRegisterLowRead
  repeat' first
    | with_reducible assumption
    | with_reducible refine Runs.next ?_
    | with_reducible refine readAccess_keeps ?_

end Sys2Proof.Machine
end

