-- ==== Sys2Proof/Laws/KeepsDrive.lean ====
section
/-! SUPPORT. What every operation and every meaning leaves: the truss, the task and partner operations, the spindles, the servo, the tether and the zones. One lemma for each, named after it: an operation keeps the
queue, only adds to what was sent and keeps the invariant; a meaning answers a next state that does. -/
set_option linter.tactic.unusedName false
set_option Elab.async false
namespace Sys2Proof.Machine
open Sys2Proof

theorem syncTaskStat_keeps {s0 s : State} (h : Keeps s0 s) : Keeps s0 (syncTaskStat s) := by
  unfold syncTaskStat
  repeat' first
    | with_reducible assumption
    | (extract_lets +onlyGivenNames x; first | (refine Keeps.letS (a := x) ?_ fun hx => ?_; rotate_left; clear_value x; revert x; rotate_left; unfold x; clear x) | (try unfold x; clear x))
    | with_reducible refine fset_keeps ?_

theorem leaveWaits_keeps {s0 s : State} {p : Nat} (h : Keeps s0 s) : Keeps s0 (leaveWaits s p) := by
  unfold leaveWaits
  repeat' first
    | with_reducible assumption
    | (extract_lets +onlyGivenNames x; first | (refine Keeps.letS (a := x) ?_ fun hx => ?_; rotate_left; clear_value x; revert x; rotate_left; unfold x; clear x) | (try unfold x; clear x))
    | with_reducible refine Keeps.upd ?_ rfl rfl rfl

theorem admitStart_keeps {s0 s : State} {p : Nat} {pair : Option Nat} (h : Keeps s0 s) : Keeps s0 (admitStart s p pair) := by
  unfold admitStart
  repeat' first
    | with_reducible assumption
    | (extract_lets +onlyGivenNames x; first | (refine Keeps.letS (a := x) ?_ fun hx => ?_; rotate_left; clear_value x; revert x; rotate_left; unfold x; clear x) | (try unfold x; clear x))
    | intro _ _
    | with_reducible refine setSpn_keeps ?_
    | with_reducible refine leaveWaits_keeps ?_
    | with_reducible refine fsetb_keeps ?_
    | with_reducible refine fset_keeps ?_
    | with_reducible refine count_keeps ?_
    | with_reducible refine goCatch_keeps ?_
    | with_reducible refine enginePower_keeps ?_
    | split

theorem releaseFence_keeps {s0 s : State} (h : Keeps s0 s) : Keeps s0 (releaseFence s) := by
  unfold releaseFence
  repeat' first
    | with_reducible assumption
    | with_reducible refine bindDeferred_keeps ?_
    | with_reducible refine fsetb_keeps ?_

theorem loadEnd_keeps {s0 s : State} {code whr : Nat} (h : Keeps s0 s) : Keeps s0 (loadEnd s code whr) := by
  unfold loadEnd
  repeat' first
    | with_reducible assumption
    | (extract_lets +onlyGivenNames x; first | (refine Keeps.letS (a := x) ?_ fun hx => ?_; rotate_left; clear_value x; revert x; rotate_left; unfold x; clear x) | (try unfold x; clear x))
    | intro _ _
    | with_reducible refine fset_keeps ?_
    | with_reducible refine fsetb_keeps ?_
    | with_reducible refine sourceRise_keeps ?_
    | with_reducible refine releaseFence_keeps ?_
    | with_reducible refine adminOk_keeps ?_
    | with_reducible refine complete_keeps ?_
    | with_reducible refine Keeps.ite ?_ ?_
    | split
    | with_reducible refine Keeps.upd ?_ rfl rfl rfl

theorem writeEntry_keeps {s0 : State} {t1 : Truss} {us : List (Nat × Nat × Nat)} {full : Bool} {s : State} {x1 : Nat × Nat × Nat} (h : Keeps s0 s) : Keeps s0 (writeEntry t1 us full s x1) := by
  unfold writeEntry
  repeat' first
    | with_reducible assumption
    | (extract_lets +onlyGivenNames x; first | (refine Keeps.letS (a := x) ?_ fun hx => ?_; rotate_left; clear_value x; revert x; rotate_left; unfold x; clear x) | (try unfold x; clear x))
    | intro _ _
    | with_reducible refine clearRange_keeps ?_
    | with_reducible refine fset_keeps ?_
    | with_reducible refine wrN_keeps ?_
    | with_reducible refine setAux_keeps ?_
    | with_reducible refine Keeps.ite ?_ ?_

theorem settleEvt_keeps {s0 old s : State} {ids : List Nat} (h : Keeps s0 s) : Keeps s0 (settleEvt old s ids) := by
  unfold settleEvt
  refine Keeps.letS (a := forAll ids s fun s u => _) (Keeps.forAll h fun t u ht => ?_) fun hx => Keeps.ite (sourceRise_keeps hx) hx
  exact fsetb_keeps ht

theorem switchNs_keeps {s0 : State} {o n : Truss} {s : State} {b : NsBind} (h : Keeps s0 s) : Keeps s0 (switchNs o n s b) := by
  unfold switchNs
  repeat' first
    | with_reducible assumption
    | (extract_lets +onlyGivenNames x; first | (refine Keeps.letS (a := x) ?_ fun hx => ?_; rotate_left; clear_value x; revert x; rotate_left; unfold x; clear x) | (try unfold x; clear x))
    | intro _ _
    | with_reducible refine nsChanged_keeps ?_
    | with_reducible refine cacheDropNs_keeps ?_
    | with_reducible refine Keeps.forAll ?_ fun _ _ hy => ?_
    | with_reducible refine zoneChanged_keeps ?_
    | with_reducible refine resetZone_keeps ?_
    | with_reducible refine Keeps.ite ?_ ?_
    | split

theorem applyLayout_keeps {s0 s : State} (h : Keeps s0 s) : Keeps s0 (applyLayout s) := by
  unfold applyLayout
  repeat' first
    | with_reducible assumption
    | (extract_lets +onlyGivenNames x; first | (refine Keeps.letS (a := x) ?_ fun hx => ?_; rotate_left; clear_value x; revert x; rotate_left; unfold x; clear x) | (try unfold x; clear x))
    | intro _ _
    | with_reducible refine fset_keeps ?_
    | with_reducible refine fsetb_keeps ?_
    | with_reducible refine syncCache_keeps ?_
    | with_reducible refine setCch_keeps ?_
    | with_reducible refine Keeps.ite ?_ ?_

theorem applyUcode_keeps {s0 s : State} (h : Keeps s0 s) : Keeps s0 (applyUcode s) := by
  unfold applyUcode
  repeat' first
    | with_reducible assumption
    | (extract_lets +onlyGivenNames x; first | (refine Keeps.letS (a := x) ?_ fun hx => ?_; rotate_left; clear_value x; revert x; rotate_left; unfold x; clear x) | (try unfold x; clear x))
    | intro _ _
    | with_reducible refine clearRange_keeps ?_
    | with_reducible refine Keeps.forAll ?_ fun _ _ hy => ?_
    | with_reducible refine wrN_keeps ?_
    | with_reducible refine Keeps.ite ?_ ?_

theorem unlessClaimed_keeps {s0 : State} {base : Nat} {f : State → State} {s : State} (hf : ∀ y0, Keeps s0 y0 → Keeps s0 (f y0)) (h : Keeps s0 s) : Keeps s0 (unlessClaimed base f s) := by
  unfold unlessClaimed
  repeat' first
    | with_reducible assumption
    | with_reducible refine hf _ ?_
    | with_reducible refine Keeps.ite ?_ ?_

theorem applyLimits_keeps {s0 s : State} (h : Keeps s0 s) : Keeps s0 (applyLimits s) := by
  unfold applyLimits
  repeat' first
    | with_reducible assumption
    | (extract_lets +onlyGivenNames x; first | (refine Keeps.letS (a := x) ?_ fun hx => ?_; rotate_left; clear_value x; revert x; rotate_left; unfold x; clear x) | (try unfold x; clear x))
    | intro _ _
    | with_reducible refine unlessClaimed_keeps (fun _ hy => ?_) ?_
    | with_reducible refine fset_keeps ?_
    | with_reducible refine Keeps.forAll ?_ fun _ _ hy => ?_
    | with_reducible refine setWdog_keeps ?_

theorem loadBridles_keeps {s0 s : State} {t1 : Truss} (h : Keeps s0 s) : Keeps s0 (loadBridles s t1) := by
  unfold loadBridles
  repeat' first
    | with_reducible assumption
    | (extract_lets +onlyGivenNames x; first | (refine Keeps.letS (a := x) ?_ fun hx => ?_; rotate_left; clear_value x; revert x; rotate_left; unfold x; clear x) | (try unfold x; clear x))
    | with_reducible refine Keeps.forAll ?_ fun _ _ hy => ?_
    | with_reducible refine wbit_keeps ?_
    | with_reducible refine wrN_keeps ?_
    | with_reducible refine Keeps.ite ?_ ?_

theorem trussSwitch_keeps {s0 s01 : State} {t1 : Truss} {full : Bool} {root : Nat} (h : Keeps s0 s01) : Keeps s0 (trussSwitch s01 t1 full root) := by
  unfold trussSwitch
  repeat' first
    | with_reducible assumption
    | (extract_lets +onlyGivenNames x; first | (refine Keeps.letS (a := x) ?_ fun hx => ?_; rotate_left; clear_value x; revert x; rotate_left; unfold x; clear x) | (try unfold x; clear x))
    | intro _ _
    | with_reducible refine Keeps.forAll ?_ fun _ _ hy => ?_
    | with_reducible refine setAux_keeps ?_
    | with_reducible refine clearRange_keeps ?_
    | with_reducible refine writeEntry_keeps ?_
    | with_reducible refine fsetb_keeps ?_
    | with_reducible refine unboundPort_keeps ?_
    | with_reducible refine fset_keeps ?_
    | with_reducible refine memberSerial_keeps ?_
    | with_reducible refine bindKeeping_keeps ?_
    | with_reducible refine mechAbsent_keeps ?_
    | with_reducible refine recompute_keeps ?_
    | with_reducible refine settleEvt_keeps ?_
    | with_reducible refine switchNs_keeps ?_
    | with_reducible refine applyLayout_keeps ?_
    | with_reducible refine applyUcode_keeps ?_
    | with_reducible refine applyLimits_keeps ?_
    | with_reducible refine wrN_keeps ?_
    | with_reducible refine loadBridles_keeps ?_
    | with_reducible refine applyRule_keeps ?_
    | with_reducible refine bindDeferred_keeps ?_
    | with_reducible refine sourceRise_keeps ?_
    | with_reducible refine Keeps.ite ?_ ?_
    | with_reducible refine Keeps.upd ?_ rfl rfl rfl

theorem switchFile_keeps {s0 s : State} {f : List Nat} {t1 : Truss} (h : Keeps s0 s) : Keeps s0 (switchFile s f t1) := by
  unfold switchFile
  repeat' first
    | with_reducible assumption
    | (extract_lets +onlyGivenNames x; first | (refine Keeps.letS (a := x) ?_ fun hx => ?_; rotate_left; clear_value x; revert x; rotate_left; unfold x; clear x) | (try unfold x; clear x))
    | intro _ _
    | with_reducible refine trussSwitch_keeps ?_
    | with_reducible refine Keeps.upd ?_ rfl rfl rfl

theorem trussStore_keeps {s0 s : State} {f : List Nat} (h : Keeps s0 s) : Keeps s0 (trussStore s f) := by
  unfold trussStore
  repeat' first
    | with_reducible assumption
    | (extract_lets +onlyGivenNames x; first | (refine Keeps.letS (a := x) ?_ fun hx => ?_; rotate_left; clear_value x; revert x; rotate_left; unfold x; clear x) | (try unfold x; clear x))
    | intro _ _
    | with_reducible refine Keeps.forAll ?_ fun _ _ hy => ?_
    | with_reducible refine storeBlocks_keeps ?_
    | with_reducible refine eraseCount_keeps ?_
    | with_reducible refine wrN_keeps ?_
    | with_reducible refine programPages_keeps ?_
    | with_reducible refine Keeps.ite ?_ ?_
    | with_reducible refine Keeps.upd ?_ rfl rfl rfl

theorem switchStep_keeps {s0 s : State} {j : LoadJob} {f : List Nat} {t1 : Truss} (h : Keeps s0 s) : Keeps s0 (switchStep s j f t1) := by
  unfold switchStep
  repeat' first
    | with_reducible assumption
    | (extract_lets +onlyGivenNames x; first | (refine Keeps.letS (a := x) ?_ fun hx => ?_; rotate_left; clear_value x; revert x; rotate_left; unfold x; clear x) | (try unfold x; clear x))
    | intro _ _
    | with_reducible refine loadEnd_keeps ?_
    | with_reducible refine switchFile_keeps ?_
    | with_reducible refine trussStore_keeps ?_
    | with_reducible refine Keeps.ite ?_ ?_
    | split

theorem afterPartner_keeps {s0 s : State} (h : Keeps s0 s) : Keeps s0 (afterPartner s) := by
  unfold afterPartner
  repeat' first
    | with_reducible assumption
    | (extract_lets +onlyGivenNames x; first | (refine Keeps.letS (a := x) ?_ fun hx => ?_; rotate_left; clear_value x; revert x; rotate_left; unfold x; clear x) | (try unfold x; clear x))
    | with_reducible refine loadEnd_keeps ?_
    | with_reducible refine switchStep_keeps ?_
    | with_reducible refine Keeps.ite ?_ ?_
    | split

theorem taskSync_keeps {s0 s : State} {t1 : Nat} (h : Keeps s0 s) : Keeps s0 (taskSync s t1) := by
  unfold taskSync
  repeat' first
    | with_reducible assumption
    | (extract_lets +onlyGivenNames x; first | (refine Keeps.letS (a := x) ?_ fun hx => ?_; rotate_left; clear_value x; revert x; rotate_left; unfold x; clear x) | (try unfold x; clear x))
    | intro _ _
    | with_reducible refine syncTaskStat_keeps ?_
    | with_reducible refine fset_keeps ?_
    | with_reducible refine evtSet_keeps ?_
    | with_reducible refine count_keeps ?_
    | with_reducible refine Keeps.ite ?_ ?_

theorem setCredit_keeps {s0 s : State} {t1 : Nat} {c : Int} (h : Keeps s0 s) : Keeps s0 (setCredit s t1 c) := by
  unfold setCredit
  repeat' first
    | with_reducible assumption
    | with_reducible refine wrN_keeps ?_

theorem allLanesLost_keeps {s0 s : State} {p : Nat} (h : Keeps s0 s) : Keeps s0 (allLanesLost s p) := by
  unfold allLanesLost
  repeat' first
    | with_reducible assumption
    | (extract_lets +onlyGivenNames x; first | (refine Keeps.letS (a := x) ?_ fun hx => ?_; rotate_left; clear_value x; revert x; rotate_left; unfold x; clear x) | (try unfold x; clear x))
    | with_reducible refine spnLanesLost_keeps ?_
    | with_reducible refine rebuildCheck_keeps ?_
    | with_reducible refine mechAbsent_keeps ?_
    | with_reducible refine setTth_keeps ?_

theorem syncSw_keeps {s0 s : State} {a : Nat} (h : Keeps s0 s) : Keeps s0 (syncSw s a) := by
  unfold syncSw
  repeat' first
    | with_reducible assumption
    | with_reducible refine Keeps.forAll ?_ fun _ _ hy => ?_
    | with_reducible refine setCause_keeps ?_
    | with_reducible refine clearCause_keeps ?_
    | with_reducible refine Keeps.ite ?_ ?_

theorem armSwitch_keeps {s0 s : State} {j : LoadJob} (h : Keeps s0 s) : Keeps s0 (armSwitch s j) := by
  unfold armSwitch
  repeat' first
    | with_reducible assumption
    | (extract_lets +onlyGivenNames x; first | (refine Keeps.letS (a := x) ?_ fun hx => ?_; rotate_left; clear_value x; revert x; rotate_left; unfold x; clear x) | (try unfold x; clear x))
    | with_reducible refine fset_keeps ?_
    | with_reducible refine fsetb_keeps ?_
    | with_reducible refine Keeps.upd ?_ rfl rfl rfl

theorem joinWaits_keeps {s0 s : State} {p : Nat} (h : Keeps s0 s) : Keeps s0 (joinWaits s p) := by
  unfold joinWaits
  repeat' first
    | with_reducible assumption
    | (extract_lets +onlyGivenNames x; first | (refine Keeps.letS (a := x) ?_ fun hx => ?_; rotate_left; clear_value x; revert x; rotate_left; unfold x; clear x) | (try unfold x; clear x))
    | with_reducible refine Keeps.ite ?_ ?_
    | with_reducible refine Keeps.upd ?_ rfl rfl rfl

theorem beginStep_keeps {s0 s : State} {p i : Nat} (h : Keeps s0 s) : Keeps s0 (beginStep s p i) := by
  unfold beginStep
  repeat' first
    | with_reducible assumption
    | (extract_lets +onlyGivenNames x; first | (refine Keeps.letS (a := x) ?_ fun hx => ?_; rotate_left; clear_value x; revert x; rotate_left; unfold x; clear x) | (try unfold x; clear x))
    | intro _ _
    | with_reducible refine setSpnState_keeps ?_
    | with_reducible refine setSpn_keeps ?_
    | with_reducible refine leaveWaits_keeps ?_
    | with_reducible refine spnSlotRef_keeps ?_
    | with_reducible refine stepSwitch_keeps ?_
    | with_reducible refine syncShelf_keeps ?_
    | with_reducible refine Keeps.ite ?_ ?_

theorem askStep_keeps {s0 s : State} {p i : Nat} (h : Keeps s0 s) : Keeps s0 (askStep s p i) := by
  unfold askStep
  repeat' first
    | with_reducible assumption
    | (extract_lets +onlyGivenNames x; first | (refine Keeps.letS (a := x) ?_ fun hx => ?_; rotate_left; clear_value x; revert x; rotate_left; unfold x; clear x) | (try unfold x; clear x))
    | with_reducible refine setSpn_keeps ?_
    | with_reducible refine spnSlotRef_keeps ?_
    | with_reducible refine joinWaits_keeps ?_
    | with_reducible refine holdRequest_keeps ?_
    | with_reducible refine beginStep_keeps ?_
    | with_reducible refine Keeps.ite ?_ ?_

theorem askRun_keeps {s0 s : State} {p : Nat} (h : Keeps s0 s) : Keeps s0 (askRun s p) := by
  unfold askRun
  repeat' first
    | with_reducible assumption
    | (extract_lets +onlyGivenNames x; first | (refine Keeps.letS (a := x) ?_ fun hx => ?_; rotate_left; clear_value x; revert x; rotate_left; unfold x; clear x) | (try unfold x; clear x))
    | with_reducible refine joinWaits_keeps ?_
    | with_reducible refine setSpn_keeps ?_
    | with_reducible refine askStep_keeps ?_
    | with_reducible refine Keeps.ite ?_ ?_

theorem doStop_keeps {s0 s : State} {p : Nat} {coast : Bool} (h : Keeps s0 s) : Keeps s0 (doStop s p coast) := by
  unfold doStop
  repeat' first
    | with_reducible assumption
    | (extract_lets +onlyGivenNames x; first | (refine Keeps.letS (a := x) ?_ fun hx => ?_; rotate_left; clear_value x; revert x; rotate_left; unfold x; clear x) | (try unfold x; clear x))
    | intro _ _
    | with_reducible refine setSpn_keeps ?_
    | with_reducible refine leaveWaits_keeps ?_
    | with_reducible refine unloadHeads_keeps ?_
    | with_reducible refine sendDrive_keeps ?_
    | with_reducible refine setSpnState_keeps ?_
    | with_reducible refine goBrake_keeps ?_
    | with_reducible refine goShort_keeps ?_
    | with_reducible refine Keeps.ite ?_ ?_

theorem askStop_keeps {s0 s : State} {p : Nat} {coast : Bool} (h : Keeps s0 s) : Keeps s0 (askStop s p coast) := by
  unfold askStop
  repeat' first
    | with_reducible assumption
    | with_reducible refine doStop_keeps ?_
    | with_reducible refine holdRequest_keeps ?_
    | with_reducible refine Keeps.ite ?_ ?_

theorem assistEnd_keeps {s0 s : State} {p j : Nat} (h : Keeps s0 s) : Keeps s0 (assistEnd s p j) := by
  unfold assistEnd
  repeat' first
    | with_reducible assumption
    | (extract_lets +onlyGivenNames x; first | (refine Keeps.letS (a := x) ?_ fun hx => ?_; rotate_left; clear_value x; revert x; rotate_left; unfold x; clear x) | (try unfold x; clear x))
    | intro _ _
    | with_reducible refine setSpn_keeps ?_
    | with_reducible refine wrN_keeps ?_
    | with_reducible refine fset_keeps ?_
    | with_reducible refine sync5_keeps ?_
    | with_reducible refine sendCmd_keeps ?_

theorem assistStart_keeps {s0 s : State} {p j : Nat} (h : Keeps s0 s) : Keeps s0 (assistStart s p j) := by
  unfold assistStart
  repeat' first
    | with_reducible assumption
    | (extract_lets +onlyGivenNames x; first | (refine Keeps.letS (a := x) ?_ fun hx => ?_; rotate_left; clear_value x; revert x; rotate_left; unfold x; clear x) | (try unfold x; clear x))
    | intro _ _
    | with_reducible refine setSpn_keeps ?_
    | with_reducible refine wrN_keeps ?_
    | with_reducible refine fset_keeps ?_
    | with_reducible refine enginePower_keeps ?_
    | with_reducible refine sendCmd_keeps ?_

theorem cmdPoison_keeps {s0 s : State} {c : Cmd} (h : Keeps s0 s) : Keeps s0 (cmdPoison s c) := by
  unfold cmdPoison
  repeat' first
    | with_reducible assumption
    | with_reducible refine rootGrade_keeps ?_
    | with_reducible refine failCmd_keeps ?_

theorem sramPoison_keeps {s0 s : State} {addr : Nat} (h : Keeps s0 s) : Keeps s0 (sramPoison s addr) := by
  unfold sramPoison
  repeat' first
    | with_reducible assumption
    | (extract_lets +onlyGivenNames x; first | (refine Keeps.letS (a := x) ?_ fun hx => ?_; rotate_left; clear_value x; revert x; rotate_left; unfold x; clear x) | (try unfold x; clear x))
    | intro _ _
    | with_reducible refine drawn_keeps ?_
    | with_reducible refine eraseLine_keeps ?_
    | with_reducible refine zeroLlrs_keeps ?_
    | with_reducible refine putLine_keeps ?_
    | with_reducible refine cmdPoison_keeps ?_
    | with_reducible refine rootGrade_keeps ?_
    | with_reducible refine setDet_keeps ?_
    | with_reducible refine Keeps.ite ?_ ?_
    | split

theorem dramPoison_keeps {s0 s : State} {rgn addr n lba : Nat} {mirrorBad : Bool} (h : Keeps s0 s) : Keeps s0 (dramPoison s rgn addr n lba mirrorBad) := by
  unfold dramPoison
  repeat' first
    | with_reducible assumption
    | (extract_lets +onlyGivenNames x; first | (refine Keeps.letS (a := x) ?_ fun hx => ?_; rotate_left; clear_value x; revert x; rotate_left; unfold x; clear x) | (try unfold x; clear x))
    | with_reducible refine addPoison_keeps ?_
    | with_reducible refine syncAcc_keeps ?_
    | with_reducible refine setZmp_keeps ?_
    | with_reducible refine drawn_keeps ?_
    | with_reducible refine putLine_keeps ?_
    | with_reducible refine Keeps.ite ?_ ?_
    | split

theorem foundError_keeps {s0 s : State} {e : MemErr} (h : Keeps s0 s) : Keeps s0 (foundError s e) := by
  unfold foundError
  repeat' first
    | with_reducible assumption
    | (extract_lets +onlyGivenNames x; first | (refine Keeps.letS (a := x) ?_ fun hx => ?_; rotate_left; clear_value x; revert x; rotate_left; unfold x; clear x) | (try unfold x; clear x))
    | intro _ _
    | with_reducible refine setMem_keeps ?_
    | with_reducible refine memError_keeps ?_
    | with_reducible refine sramPoison_keeps ?_
    | with_reducible refine dramPoison_keeps ?_
    | with_reducible refine Keeps.ite ?_ ?_

theorem foundErrors_keeps {s0 s : State} {errs : List MemErr} (h : Keeps s0 s) : Keeps s0 (foundErrors s errs) := by
  unfold foundErrors
  repeat' first
    | with_reducible assumption
    | with_reducible refine pagePolicy_keeps ?_
    | with_reducible refine Keeps.forAll ?_ fun _ _ hy => ?_
    | with_reducible refine foundError_keeps ?_

theorem cachePoison_keeps {s0 s : State} {n lba : Nat} (h : Keeps s0 s) : Keeps s0 (cachePoison s n lba) := by
  unfold cachePoison
  repeat' first
    | with_reducible assumption
    | (extract_lets +onlyGivenNames x; first | (refine Keeps.letS (a := x) ?_ fun hx => ?_; rotate_left; clear_value x; revert x; rotate_left; unfold x; clear x) | (try unfold x; clear x))
    | with_reducible refine lineRead_keeps ?_
    | with_reducible refine dropBad_keeps ?_
    | with_reducible refine putLine_keeps ?_
    | with_reducible refine Keeps.ite ?_ ?_
    | split

theorem dropDirtyLba_keeps {s0 s : State} {n lba : Nat} (h : Keeps s0 s) : Keeps s0 (dropDirtyLba s n lba) := by
  unfold dropDirtyLba
  repeat' first
    | with_reducible assumption
    | (extract_lets +onlyGivenNames x; first | (refine Keeps.letS (a := x) ?_ fun hx => ?_; rotate_left; clear_value x; revert x; rotate_left; unfold x; clear x) | (try unfold x; clear x))
    | with_reducible refine syncDirty_keeps ?_
    | with_reducible refine setZmp_keeps ?_

theorem bufferPoison_keeps {s0 s : State} {n lba : Nat} (h : Keeps s0 s) : Keeps s0 (bufferPoison s n lba) := by
  unfold bufferPoison
  repeat' first
    | with_reducible assumption
    | (extract_lets +onlyGivenNames x; first | (refine Keeps.letS (a := x) ?_ fun hx => ?_; rotate_left; clear_value x; revert x; rotate_left; unfold x; clear x) | (try unfold x; clear x))
    | with_reducible refine dropBad_keeps ?_
    | with_reducible refine emit_keeps ?_
    | with_reducible refine lostRange_keeps ?_
    | with_reducible refine dropDirtyLba_keeps ?_
    | with_reducible refine setBad_keeps ?_
    | with_reducible refine Keeps.ite ?_ ?_
    | split

theorem poisonRead_keeps {s0 s : State} {n lba : Nat} (h : Keeps s0 s) : Keeps s0 (poisonRead s n lba) := by
  unfold poisonRead
  repeat' first
    | with_reducible assumption
    | (extract_lets +onlyGivenNames x; first | (refine Keeps.letS (a := x) ?_ fun hx => ?_; rotate_left; clear_value x; revert x; rotate_left; unfold x; clear x) | (try unfold x; clear x))
    | with_reducible refine lineRead_keeps ?_
    | with_reducible refine bufferPoison_keeps ?_
    | with_reducible refine Keeps.ite ?_ ?_

theorem wantToken_keeps {s0 s : State} {p : Nat} (h : Keeps s0 s) : Keeps s0 (wantToken s p) := by
  unfold wantToken
  repeat' first
    | with_reducible assumption
    | with_reducible refine tokenCmd_keeps ?_
    | with_reducible refine tsbRead_keeps ?_
    | with_reducible refine Keeps.ite ?_ ?_

theorem bindOnUp_keeps {s0 s : State} {p : Nat} (h : Keeps s0 s) : Keeps s0 (bindOnUp s p) := by
  unfold bindOnUp
  repeat' first
    | with_reducible assumption
    | (extract_lets +onlyGivenNames x; first | (refine Keeps.letS (a := x) ?_ fun hx => ?_; rotate_left; clear_value x; revert x; rotate_left; unfold x; clear x) | (try unfold x; clear x))
    | intro _ _
    | with_reducible refine memberSerial_keeps ?_
    | with_reducible refine bindKeeping_keeps ?_
    | with_reducible refine goCatch_keeps ?_
    | with_reducible refine goStopped_keeps ?_
    | with_reducible refine wantToken_keeps ?_
    | with_reducible refine Keeps.ite ?_ ?_

theorem calStart_keeps {s0 s : State} {p q b : Nat} (h : Keeps s0 s) : Keeps s0 (calStart s p q b) := by
  unfold calStart
  repeat' first
    | with_reducible assumption
    | (extract_lets +onlyGivenNames x; first | (refine Keeps.letS (a := x) ?_ fun hx => ?_; rotate_left; clear_value x; revert x; rotate_left; unfold x; clear x) | (try unfold x; clear x))
    | intro _ _
    | with_reducible refine fset_keeps ?_
    | with_reducible refine fsetb_keeps ?_
    | with_reducible refine Keeps.ite ?_ ?_

theorem bufferWritten_keeps {s0 s : State} {c : Cmd} (h : Keeps s0 s) : Keeps s0 (bufferWritten s c) := by
  unfold bufferWritten
  repeat' first
    | with_reducible assumption
    | with_reducible refine Keeps.forAll ?_ fun _ _ hy => ?_
    | with_reducible refine lineWritten_keeps ?_

theorem busTaken_keeps {s0 s : State} {p flags v : Nat} (h : Keeps s0 s) : Keeps s0 (busTaken s p flags v) := by
  unfold busTaken
  repeat' first
    | with_reducible assumption
    | (extract_lets +onlyGivenNames x; first | (refine Keeps.letS (a := x) ?_ fun hx => ?_; rotate_left; clear_value x; revert x; rotate_left; unfold x; clear x) | (try unfold x; clear x))
    | intro _ _
    | with_reducible refine fset_keeps ?_
    | with_reducible refine setSpn_keeps ?_
    | with_reducible refine Keeps.forAll ?_ fun _ _ hy => ?_
    | with_reducible refine evtSet_keeps ?_
    | with_reducible refine Keeps.ite ?_ ?_

theorem recalDone_keeps {s0 s : State} {p q : Nat} (h : Keeps s0 s) : Keeps s0 (recalDone s p q) := by
  unfold recalDone
  repeat' first
    | with_reducible assumption
    | (extract_lets +onlyGivenNames x; first | (refine Keeps.letS (a := x) ?_ fun hx => ?_; rotate_left; clear_value x; revert x; rotate_left; unfold x; clear x) | (try unfold x; clear x))
    | intro _ _
    | with_reducible refine Keeps.forAll ?_ fun _ _ hy => ?_
    | with_reducible refine setSpn_keeps ?_
    | with_reducible refine sync5_keeps ?_
    | with_reducible refine fwFeClear_keeps ?_

theorem retireAssist_keeps {s0 s : State} {p q : Nat} (h : Keeps s0 s) : Keeps s0 (retireAssist s p q) := by
  unfold retireAssist
  repeat' first
    | with_reducible assumption
    | (extract_lets +onlyGivenNames x; first | (refine Keeps.letS (a := x) ?_ fun hx => ?_; rotate_left; clear_value x; revert x; rotate_left; unfold x; clear x) | (try unfold x; clear x))
    | intro _ _
    | with_reducible refine wbit_keeps ?_
    | with_reducible refine fsetb_keeps ?_
    | with_reducible refine evtSet_keeps ?_
    | with_reducible refine retireUnit_keeps ?_
    | with_reducible refine sync5_keeps ?_
    | with_reducible refine Keeps.ite ?_ ?_
    | split

theorem wearUpdate_keeps {s0 s : State} {p q : Nat} (h : Keeps s0 s) : Keeps s0 (wearUpdate s p q) := by
  unfold wearUpdate
  repeat' first
    | with_reducible assumption
    | (extract_lets +onlyGivenNames x; first | (refine Keeps.letS (a := x) ?_ fun hx => ?_; rotate_left; clear_value x; revert x; rotate_left; unfold x; clear x) | (try unfold x; clear x))
    | intro _ _
    | with_reducible refine fset_keeps ?_
    | with_reducible refine evtSet_keeps ?_
    | with_reducible refine leafGrade_keeps ?_
    | with_reducible refine retireAssist_keeps ?_
    | with_reducible refine Keeps.ite ?_ ?_
    | split

theorem calEnd_keeps {s0 s : State} {p : Nat} {found : Option Nat} {mon : Nat} (h : Keeps s0 s) : Keeps s0 (calEnd s p found mon) := by
  unfold calEnd
  repeat' first
    | with_reducible assumption
    | (extract_lets +onlyGivenNames x; first | (refine Keeps.letS (a := x) ?_ fun hx => ?_; rotate_left; clear_value x; revert x; rotate_left; unfold x; clear x) | (try unfold x; clear x))
    | intro _ _
    | with_reducible refine fset_keeps ?_
    | with_reducible refine fsetb_keeps ?_
    | with_reducible refine setSpn_keeps ?_
    | with_reducible refine evtSet_keeps ?_
    | with_reducible refine recalDone_keeps ?_
    | with_reducible refine wearUpdate_keeps ?_
    | with_reducible refine retireAssist_keeps ?_
    | with_reducible refine Keeps.ite ?_ ?_
    | split

theorem calWidths_keeps {s0 s : State} {p : Nat} {widths : List (BitVec 16)} {mon : Nat} (h : Keeps s0 s) : Keeps s0 (calWidths s p widths mon) := by
  unfold calWidths
  repeat' first
    | with_reducible assumption
    | with_reducible refine calEnd_keeps ?_

theorem chopperFault_keeps {s0 s : State} {p : Nat} (h : Keeps s0 s) : Keeps s0 (chopperFault s p) := by
  unfold chopperFault
  repeat' first
    | with_reducible assumption
    | (extract_lets +onlyGivenNames x; first | (refine Keeps.letS (a := x) ?_ fun hx => ?_; rotate_left; clear_value x; revert x; rotate_left; unfold x; clear x) | (try unfold x; clear x))
    | intro _ _
    | with_reducible refine setSpn_keeps ?_
    | with_reducible refine Keeps.forAll ?_ fun _ _ hy => ?_
    | with_reducible refine fsetb_keeps ?_
    | with_reducible refine sendDrive_keeps ?_
    | with_reducible refine evtSet_keeps ?_
    | with_reducible refine fset_keeps ?_
    | with_reducible refine unloadHeads_keeps ?_
    | with_reducible refine goShort_keeps ?_
    | with_reducible refine Keeps.ite ?_ ?_
    | with_reducible refine Keeps.upd ?_ rfl rfl rfl

theorem cleanExt_keeps {s0 s : State} {e : Ext} (h : Keeps s0 s) : Keeps s0 (cleanExt s e) := by
  unfold cleanExt
  repeat' first
    | with_reducible assumption
    | with_reducible refine Keeps.forAll ?_ fun _ _ hy => ?_
    | with_reducible refine cacheClean_keeps ?_

theorem clearCounts_keeps {s0 s : State} {as : List Nat} {b : EvtBlk} (h : Keeps s0 s) : Keeps s0 (clearCounts s as b) := by
  unfold clearCounts
  repeat' first
    | with_reducible assumption
    | (extract_lets +onlyGivenNames x; first | (refine Keeps.letS (a := x) ?_ fun hx => ?_; rotate_left; clear_value x; revert x; rotate_left; unfold x; clear x) | (try unfold x; clear x))
    | intro _ _
    | with_reducible refine Keeps.forAll ?_ fun _ _ hy => ?_
    | with_reducible refine wrN_keeps ?_
    | with_reducible refine Keeps.upd ?_ rfl rfl rfl

theorem settleLines_keeps {s0 s : State} {c : Cmd} {lba : Nat} (h : Keeps s0 s) : Keeps s0 (settleLines s c lba) := by
  unfold settleLines
  repeat' first
    | with_reducible assumption
    | (extract_lets +onlyGivenNames x; first | (refine Keeps.letS (a := x) ?_ fun hx => ?_; rotate_left; clear_value x; revert x; rotate_left; unfold x; clear x) | (try unfold x; clear x))
    | with_reducible refine setMem_keeps ?_
    | with_reducible refine Keeps.ite ?_ ?_

theorem commitBusy_keeps {s0 s : State} {j : LoadJob} (h : Keeps s0 s) : Keeps s0 (commitBusy s j) := by
  unfold commitBusy
  repeat' first
    | with_reducible assumption
    | (extract_lets +onlyGivenNames x; first | (refine Keeps.letS (a := x) ?_ fun hx => ?_; rotate_left; clear_value x; revert x; rotate_left; unfold x; clear x) | (try unfold x; clear x))
    | intro _ _
    | with_reducible refine complete_keeps ?_
    | with_reducible refine releaseFence_keeps ?_
    | split
    | with_reducible refine Keeps.upd ?_ rfl rfl rfl

theorem sweepExt_keeps {s0 s : State} {e : Ext} (h : Keeps s0 s) : Keeps s0 (sweepExt s e) := by
  unfold sweepExt
  repeat' first
    | with_reducible assumption
    | (extract_lets +onlyGivenNames x; first | (refine Keeps.letS (a := x) ?_ fun hx => ?_; rotate_left; clear_value x; revert x; rotate_left; unfold x; clear x) | (try unfold x; clear x))
    | with_reducible refine Keeps.forAll ?_ fun _ _ hy => ?_
    | with_reducible refine poisonRead_keeps ?_

theorem pchg_keeps {s0 s : State} {p : Nat} (h : Keeps s0 s) : Keeps s0 (pchg s p) := by
  unfold pchg
  repeat' first
    | with_reducible assumption
    | with_reducible refine evtSet_keeps ?_
    | with_reducible refine fsetb_keeps ?_

theorem goDebounce_keeps {s0 s : State} {p : Nat} (h : Keeps s0 s) : Keeps s0 (goDebounce s p) := by
  unfold goDebounce
  repeat' first
    | with_reducible assumption
    | (extract_lets +onlyGivenNames x; first | (refine Keeps.letS (a := x) ?_ fun hx => ?_; rotate_left; clear_value x; revert x; rotate_left; unfold x; clear x) | (try unfold x; clear x))
    | intro _ _
    | with_reducible refine setPortState_keeps ?_
    | with_reducible refine pchg_keeps ?_
    | with_reducible refine Keeps.ite ?_ ?_

theorem syncTries_keeps {s0 s : State} {p : Nat} (h : Keeps s0 s) : Keeps s0 (syncTries s p) := by
  unfold syncTries
  repeat' first
    | with_reducible assumption
    | with_reducible refine fset_keeps ?_

theorem newEpisodes_keeps {s0 s : State} {p : Nat} (h : Keeps s0 s) : Keeps s0 (newEpisodes s p) := by
  unfold newEpisodes
  repeat' first
    | with_reducible assumption
    | (extract_lets +onlyGivenNames x; first | (refine Keeps.letS (a := x) ?_ fun hx => ?_; rotate_left; clear_value x; revert x; rotate_left; unfold x; clear x) | (try unfold x; clear x))
    | with_reducible refine syncTries_keeps ?_
    | with_reducible refine setTth_keeps ?_

theorem goTrain_keeps {s0 s : State} {p : Nat} (h : Keeps s0 s) : Keeps s0 (goTrain s p) := by
  unfold goTrain
  repeat' first
    | with_reducible assumption
    | with_reducible refine setPortState_keeps ?_
    | with_reducible refine newEpisodes_keeps ?_
    | with_reducible refine domRequest_keeps ?_

theorem syncStreams_keeps {s0 s : State} {p : Nat} (h : Keeps s0 s) : Keeps s0 (syncStreams s p) := by
  unfold syncStreams
  repeat' first
    | with_reducible assumption
    | with_reducible refine syncFollow_keeps ?_
    | with_reducible refine syncLink_keeps ?_

theorem streamEnd_keeps {s0 s : State} {p j : Nat} (h : Keeps s0 s) : Keeps s0 (streamEnd s p j) := by
  unfold streamEnd
  repeat' first
    | with_reducible assumption
    | (extract_lets +onlyGivenNames x; first | (refine Keeps.letS (a := x) ?_ fun hx => ?_; rotate_left; clear_value x; revert x; rotate_left; unfold x; clear x) | (try unfold x; clear x))
    | with_reducible refine liveEnd_keeps ?_
    | with_reducible refine putSamples_keeps ?_
    | with_reducible refine Keeps.ite ?_ ?_

theorem endStreams_keeps {s0 s : State} {p : Nat} {ls : List Nat} (h : Keeps s0 s) : Keeps s0 (endStreams s p ls) := by
  unfold endStreams
  repeat' first
    | with_reducible assumption
    | (extract_lets +onlyGivenNames x; first | (refine Keeps.letS (a := x) ?_ fun hx => ?_; rotate_left; clear_value x; revert x; rotate_left; unfold x; clear x) | (try unfold x; clear x))
    | intro _ _
    | with_reducible refine setTth_keeps ?_
    | with_reducible refine syncStreams_keeps ?_
    | with_reducible refine Keeps.forAll ?_ fun _ _ hy => ?_
    | with_reducible refine streamEnd_keeps ?_

theorem lanesDown_keeps {s0 s : State} {p : Nat} (h : Keeps s0 s) : Keeps s0 (lanesDown s p) := by
  unfold lanesDown
  repeat' first
    | with_reducible assumption
    | with_reducible refine feLaneEnd_keeps ?_
    | with_reducible refine setLanes_keeps ?_
    | with_reducible refine endStreams_keeps ?_

theorem goSideband_keeps {s0 s : State} {p : Nat} (h : Keeps s0 s) : Keeps s0 (goSideband s p) := by
  unfold goSideband
  repeat' first
    | with_reducible assumption
    | (extract_lets +onlyGivenNames x; first | (refine Keeps.letS (a := x) ?_ fun hx => ?_; rotate_left; clear_value x; revert x; rotate_left; unfold x; clear x) | (try unfold x; clear x))
    | with_reducible refine setPortState_keeps ?_
    | with_reducible refine phyOff_keeps ?_
    | with_reducible refine lanesDown_keeps ?_
    | with_reducible refine allLanesLost_keeps ?_
    | with_reducible refine Keeps.ite ?_ ?_

theorem phyChanged_keeps {s0 s : State} {p : Nat} (h : Keeps s0 s) : Keeps s0 (phyChanged s p) := by
  unfold phyChanged
  repeat' first
    | with_reducible assumption
    | with_reducible refine goTrain_keeps ?_
    | with_reducible refine goSideband_keeps ?_
    | with_reducible refine Keeps.ite ?_ ?_

theorem retrainLane_keeps {s0 s : State} {p lane : Nat} (h : Keeps s0 s) : Keeps s0 (retrainLane s p lane) := by
  unfold retrainLane
  repeat' first
    | with_reducible assumption
    | (extract_lets +onlyGivenNames x; first | (refine Keeps.letS (a := x) ?_ fun hx => ?_; rotate_left; clear_value x; revert x; rotate_left; unfold x; clear x) | (try unfold x; clear x))
    | with_reducible refine syncTries_keeps ?_
    | with_reducible refine setTth_keeps ?_
    | with_reducible refine count_keeps ?_

theorem downLost_keeps {s0 s : State} {p : Nat} (h : Keeps s0 s) : Keeps s0 (downLost s p) := by
  unfold downLost
  repeat' first
    | with_reducible assumption
    | (extract_lets +onlyGivenNames x; first | (refine Keeps.letS (a := x) ?_ fun hx => ?_; rotate_left; clear_value x; revert x; rotate_left; unfold x; clear x) | (try unfold x; clear x))
    | intro _ _
    | with_reducible refine retrainLane_keeps ?_
    | with_reducible refine setLanes_keeps ?_
    | with_reducible refine syncStreams_keeps ?_
    | with_reducible refine allLanesLost_keeps ?_
    | with_reducible refine setPortState_keeps ?_
    | with_reducible refine setTth_keeps ?_

theorem useAcc_keeps {s0 s : State} {a : RowAcc} (h : Keeps s0 s) : Keeps s0 (useAcc s a) := by
  unfold useAcc
  repeat' first
    | with_reducible assumption
    | (extract_lets +onlyGivenNames x; first | (refine Keeps.letS (a := x) ?_ fun hx => ?_; rotate_left; clear_value x; revert x; rotate_left; unfold x; clear x) | (try unfold x; clear x))
    | with_reducible refine flipNow_keeps ?_
    | with_reducible refine syncAcc_keeps ?_
    | with_reducible refine setZmp_keeps ?_

theorem vfyAccount_keeps {s0 s : State} {p q : Nat} {ok : Bool} (h : Keeps s0 s) : Keeps s0 (vfyAccount s p q ok) := by
  unfold vfyAccount
  repeat' first
    | with_reducible assumption
    | (extract_lets +onlyGivenNames x; first | (refine Keeps.letS (a := x) ?_ fun hx => ?_; rotate_left; clear_value x; revert x; rotate_left; unfold x; clear x) | (try unfold x; clear x))
    | intro _ _
    | with_reducible refine setSpn_keeps ?_
    | with_reducible refine wearUpdate_keeps ?_
    | with_reducible refine fset_keeps ?_
    | with_reducible refine Keeps.ite ?_ ?_

theorem tellWritten_keeps {s0 s : State} {a st : Nat} {x1 : PendSec} (h : Keeps s0 s) : Keeps s0 (tellWritten s a st x1) := by
  unfold tellWritten
  repeat' first
    | with_reducible assumption
    | with_reducible refine emit_keeps ?_

theorem writtenFail_keeps {s0 s : State} {a : Nat} {x1 : PendSec} (h : Keeps s0 s) : Keeps s0 (writtenFail s a x1) := by
  unfold writtenFail
  repeat' first
    | with_reducible assumption
    | with_reducible refine vfyAccount_keeps ?_
    | with_reducible refine reportReloc_keeps ?_
    | with_reducible refine tellWritten_keeps ?_
    | with_reducible refine fmtLast_keeps ?_

theorem endPending_keeps {s0 s : State} {a : Nat} (h : Keeps s0 s) : Keeps s0 (endPending s a) := by
  unfold endPending
  repeat' first
    | with_reducible assumption
    | (extract_lets +onlyGivenNames x; first | (refine Keeps.letS (a := x) ?_ fun hx => ?_; rotate_left; clear_value x; revert x; rotate_left; unfold x; clear x) | (try unfold x; clear x))
    | intro _ _
    | with_reducible refine Keeps.forAll ?_ fun _ _ hy => ?_
    | with_reducible refine writtenFail_keeps ?_
    | with_reducible refine count_keeps ?_
    | with_reducible refine evtSet_keeps ?_
    | with_reducible refine syncPend_keeps ?_
    | with_reducible refine setSlice_keeps ?_
    | with_reducible refine Keeps.ite ?_ ?_

theorem enterSettle_keeps {s0 s : State} {a : Nat} (h : Keeps s0 s) : Keeps s0 (enterSettle s a) := by
  unfold enterSettle
  repeat' first
    | with_reducible assumption
    | (extract_lets +onlyGivenNames x; first | (refine Keeps.letS (a := x) ?_ fun hx => ?_; rotate_left; clear_value x; revert x; rotate_left; unfold x; clear x) | (try unfold x; clear x))
    | intro _ _
    | with_reducible refine Keeps.forAll ?_ fun _ _ hy => ?_
    | with_reducible refine setSrvMode_keeps ?_
    | with_reducible refine setSlane_keeps ?_
    | with_reducible refine setSlice_keeps ?_
    | with_reducible refine setBslot_keeps ?_

theorem startStreams_keeps {s0 s : State} {p : Nat} (h : Keeps s0 s) : Keeps s0 (startStreams s p) := by
  unfold startStreams
  repeat' first
    | with_reducible assumption
    | (extract_lets +onlyGivenNames x; first | (refine Keeps.letS (a := x) ?_ fun hx => ?_; rotate_left; clear_value x; revert x; rotate_left; unfold x; clear x) | (try unfold x; clear x))
    | with_reducible refine syncStreams_keeps ?_
    | with_reducible refine Keeps.forAll ?_ fun _ _ hy => ?_
    | with_reducible refine setTth_keeps ?_
    | with_reducible refine Keeps.ite ?_ ?_
    | split

theorem laneImpair_keeps {s0 s : State} {p : Nat} (h : Keeps s0 s) : Keeps s0 (laneImpair s p) := by
  unfold laneImpair
  repeat' first
    | with_reducible assumption
    | with_reducible refine impair_keeps ?_
    | with_reducible refine unimpair_keeps ?_
    | with_reducible refine Keeps.ite ?_ ?_
    | split

theorem goUp_keeps {s0 s : State} {p : Nat} (h : Keeps s0 s) : Keeps s0 (goUp s p) := by
  unfold goUp
  repeat' first
    | with_reducible assumption
    | (extract_lets +onlyGivenNames x; first | (refine Keeps.letS (a := x) ?_ fun hx => ?_; rotate_left; clear_value x; revert x; rotate_left; unfold x; clear x) | (try unfold x; clear x))
    | intro _ _
    | with_reducible refine setPortState_keeps ?_
    | with_reducible refine startStreams_keeps ?_
    | with_reducible refine laneImpair_keeps ?_

theorem enterUp_keeps {s0 s : State} {p : Nat} (h : Keeps s0 s) : Keeps s0 (enterUp s p) := by
  unfold enterUp
  repeat' first
    | with_reducible assumption
    | (extract_lets +onlyGivenNames x; first | (refine Keeps.letS (a := x) ?_ fun hx => ?_; rotate_left; clear_value x; revert x; rotate_left; unfold x; clear x) | (try unfold x; clear x))
    | with_reducible refine bindOnUp_keeps ?_
    | with_reducible refine goUp_keeps ?_
    | with_reducible refine setTth_keeps ?_

theorem forceDestage_keeps {s0 s : State} {on : Bool} (h : Keeps s0 s) : Keeps s0 (forceDestage s on) := by
  unfold forceDestage
  repeat' first
    | with_reducible assumption
    | with_reducible refine Keeps.forAll ?_ fun _ _ hy => ?_
    | with_reducible refine taskSync_keeps ?_
    | with_reducible refine fsetb_keeps ?_
    | with_reducible refine Keeps.ite ?_ ?_

theorem execAccumulatorReadback_runs {s0 : State} {t1 : Fin 4} {uid : BitVec 12} {zone row : BitVec 32} {s : State} (h : Keeps s0 s) : Runs s0 (execAccumulatorReadback t1 uid zone row s) := by
  unfold execAccumulatorReadback
  repeat' first
    | with_reducible assumption
    | (extract_lets +onlyGivenNames x; first | (refine Keeps.letS (a := x) ?_ fun hx => ?_; rotate_left; clear_value x; revert x; rotate_left; unfold x; clear x) | (try unfold x; clear x))
    | intro _ _
    | with_reducible refine Runs.next ?_
    | with_reducible refine count_keeps ?_
    | with_reducible refine useAcc_keeps ?_
    | with_reducible refine evtSet_keeps ?_
    | with_reducible refine Keeps.ite ?_ ?_
    | split

theorem execAlignDone_runs {s0 : State} {p : Fin 32} {s : State} (h : Keeps s0 s) : Runs s0 (execAlignDone p s) := by
  unfold execAlignDone
  repeat' first
    | with_reducible assumption
    | (extract_lets +onlyGivenNames x; first | (refine Keeps.letS (a := x) ?_ fun hx => ?_; rotate_left; clear_value x; revert x; rotate_left; unfold x; clear x) | (try unfold x; clear x))
    | with_reducible refine Runs.next ?_
    | with_reducible refine setSpn_keeps ?_
    | with_reducible refine setSpnState_keeps ?_
    | with_reducible refine fset_keeps ?_
    | with_reducible refine spnSlotMode_keeps ?_
    | with_reducible refine Keeps.ite ?_ ?_

theorem execAssistCalDone_runs {s0 : State} {p : Fin 32} {widths : List (BitVec 16)} {mon : BitVec 16} {s : State} (h : Keeps s0 s) : Runs s0 (execAssistCalDone p widths mon s) := by
  unfold execAssistCalDone
  repeat' first
    | with_reducible assumption
    | with_reducible refine Runs.next ?_
    | with_reducible refine calWidths_keeps ?_
    | with_reducible refine Keeps.ite ?_ ?_

theorem execAstCalGo_runs {s0 : State} {m : Master} {p : Fin 32} {q : BitVec 5} {b : BitVec 3} {s : State} (h : Keeps s0 s) : Runs s0 (execAstCalGo m p q b s) := by
  unfold execAstCalGo
  repeat' first
    | with_reducible assumption
    | with_reducible refine Runs.next ?_
    | with_reducible refine regWrite_keeps (fun _ hy => ?_) ?_
    | with_reducible refine calStart_keeps ?_

theorem execBusRecord_runs {s0 : State} {p : Fin 32} {flags : BitVec 8} {volts : BitVec 16} {s : State} (h : Keeps s0 s) : Runs s0 (execBusRecord p flags volts s) := by
  unfold execBusRecord
  repeat' first
    | with_reducible assumption
    | (extract_lets +onlyGivenNames x; first | (refine Keeps.letS (a := x) ?_ fun hx => ?_; rotate_left; clear_value x; revert x; rotate_left; unfold x; clear x) | (try unfold x; clear x))
    | with_reducible refine Runs.next ?_
    | with_reducible refine busTaken_keeps ?_
    | with_reducible refine sendRegen_keeps ?_
    | with_reducible refine Keeps.ite ?_ ?_

theorem execCatchImplausible_runs {s0 : State} {p : Fin 32} {s : State} (h : Keeps s0 s) : Runs s0 (execCatchImplausible p s) := by
  unfold execCatchImplausible
  repeat' first
    | with_reducible assumption
    | with_reducible refine Runs.next ?_
    | with_reducible refine goShort_keeps ?_
    | with_reducible refine Keeps.ite ?_ ?_

theorem execCatchLock_runs {s0 : State} {p : Fin 32} {s : State} (h : Keeps s0 s) : Runs s0 (execCatchLock p s) := by
  unfold execCatchLock
  repeat' first
    | with_reducible assumption
    | (extract_lets +onlyGivenNames x; first | (refine Keeps.letS (a := x) ?_ fun hx => ?_; rotate_left; clear_value x; revert x; rotate_left; unfold x; clear x) | (try unfold x; clear x))
    | with_reducible refine Runs.next ?_
    | with_reducible refine fset_keeps ?_
    | with_reducible refine goAccel_keeps ?_
    | with_reducible refine evtSet_keeps ?_
    | with_reducible refine count_keeps ?_
    | with_reducible refine Keeps.ite ?_ ?_

theorem execCatchNoCrossing_runs {s0 : State} {p : Fin 32} {s : State} (h : Keeps s0 s) : Runs s0 (execCatchNoCrossing p s) := by
  unfold execCatchNoCrossing
  repeat' first
    | with_reducible assumption
    | with_reducible refine Runs.next ?_
    | with_reducible refine goAlign_keeps ?_
    | with_reducible refine Keeps.ite ?_ ?_

theorem execCatchWindowExpire_runs {s0 : State} {p : Fin 32} {elapsedUs : BitVec 32} {s : State} (h : Keeps s0 s) : Runs s0 (execCatchWindowExpire p elapsedUs s) := by
  unfold execCatchWindowExpire
  repeat' first
    | with_reducible assumption
    | (extract_lets +onlyGivenNames x; first | (refine Keeps.letS (a := x) ?_ fun hx => ?_; rotate_left; clear_value x; revert x; rotate_left; unfold x; clear x) | (try unfold x; clear x))
    | with_reducible refine Runs.next ?_
    | with_reducible refine evtSet_keeps ?_
    | with_reducible refine count_keeps ?_
    | with_reducible refine unloadHeads_keeps ?_
    | with_reducible refine setSpnState_keeps ?_
    | with_reducible refine Keeps.ite ?_ ?_

theorem execChopSet_runs {s0 : State} {m : Master} {p : Fin 32} {s : State} (h : Keeps s0 s) : Runs s0 (execChopSet m p s) := by
  unfold execChopSet
  repeat' first
    | with_reducible assumption
    | with_reducible refine Runs.next ?_
    | with_reducible refine regWrite_keeps (fun _ hy => ?_) ?_
    | with_reducible refine fset_keeps ?_
    | with_reducible refine fsetb_keeps ?_

theorem execChopSvcClr_runs {s0 : State} {m : Master} {p : Fin 32} {s : State} (h : Keeps s0 s) : Runs s0 (execChopSvcClr m p s) := by
  unfold execChopSvcClr
  repeat' first
    | with_reducible assumption
    | with_reducible refine Runs.next ?_
    | with_reducible refine regWrite_keeps (fun _ hy => ?_) ?_
    | with_reducible refine fset_keeps ?_
    | with_reducible refine fsetb_keeps ?_

theorem execClearanceRecord_runs {s0 : State} {p : Fin 32} {lane : Fin 8} {value : BitVec 16} {t1 : BitVec 48} {s : State} (h : Keeps s0 s) : Runs s0 (execClearanceRecord p lane value t1 s) := by
  unfold execClearanceRecord
  repeat' first
    | with_reducible assumption
    | (extract_lets +onlyGivenNames x; first | (refine Keeps.letS (a := x) ?_ fun hx => ?_; rotate_left; clear_value x; revert x; rotate_left; unfold x; clear x) | (try unfold x; clear x))
    | with_reducible refine Runs.next ?_
    | with_reducible refine brdTrigger_keeps ?_

theorem execCoastWaitEnd_runs {s0 : State} {p : Fin 32} {s : State} (h : Keeps s0 s) : Runs s0 (execCoastWaitEnd p s) := by
  unfold execCoastWaitEnd
  repeat' first
    | with_reducible assumption
    | (extract_lets +onlyGivenNames x; first | (refine Keeps.letS (a := x) ?_ fun hx => ?_; rotate_left; clear_value x; revert x; rotate_left; unfold x; clear x) | (try unfold x; clear x))
    | with_reducible refine Runs.next ?_
    | with_reducible refine setSpn_keeps ?_
    | with_reducible refine Keeps.ite ?_ ?_

theorem phySync_keeps {s0 s : State} (h : Keeps s0 s) : Keeps s0 (phySync s) := by
  unfold phySync
  repeat' first
    | with_reducible assumption
    | with_reducible refine Keeps.forAll ?_ fun _ _ hy => ?_
    | with_reducible refine phyChanged_keeps ?_

theorem execCommutationStep_runs {s0 : State} {p : Fin 32} {s : State} (h : Keeps s0 s) : Runs s0 (execCommutationStep p s) := by
  unfold execCommutationStep
  repeat' first
    | with_reducible assumption
    | (extract_lets +onlyGivenNames x; first | (refine Keeps.letS (a := x) ?_ fun hx => ?_; rotate_left; clear_value x; revert x; rotate_left; unfold x; clear x) | (try unfold x; clear x))
    | with_reducible refine Runs.next ?_
    | with_reducible refine driveOut_keeps ?_
    | with_reducible refine fset_keeps ?_
    | with_reducible refine Keeps.ite ?_ ?_

theorem stepFail_keeps {s0 s : State} {p : Nat} (h : Keeps s0 s) : Keeps s0 (stepFail s p) := by
  unfold stepFail
  repeat' first
    | with_reducible assumption
    | (extract_lets +onlyGivenNames x; first | (refine Keeps.letS (a := x) ?_ fun hx => ?_; rotate_left; clear_value x; revert x; rotate_left; unfold x; clear x) | (try unfold x; clear x))
    | intro _ _
    | with_reducible refine setSpn_keeps ?_
    | with_reducible refine fset_keeps ?_
    | with_reducible refine driveOut_keeps ?_
    | with_reducible refine Keeps.ite ?_ ?_

theorem execCommutationStepFail_runs {s0 : State} {p : Fin 32} {s : State} (h : Keeps s0 s) : Runs s0 (execCommutationStepFail p s) := by
  unfold execCommutationStepFail
  repeat' first
    | with_reducible assumption
    | with_reducible refine Runs.next ?_
    | with_reducible refine stepFail_keeps ?_
    | with_reducible refine Keeps.ite ?_ ?_

theorem execCreditTimeout_runs {s0 : State} {p : Fin 32} {s : State} (h : Keeps s0 s) : Runs s0 (execCreditTimeout p s) := by
  unfold execCreditTimeout
  repeat' first
    | with_reducible assumption
    | with_reducible refine Runs.next ?_
    | with_reducible refine downLost_keeps ?_
    | with_reducible refine evtSet_keeps ?_
    | with_reducible refine Keeps.ite ?_ ?_

theorem execCtxSelect_runs {s0 : State} {m : Master} {index : BitVec 12} {s : State} (h : Keeps s0 s) : Runs s0 (execCtxSelect m index s) := by
  unfold execCtxSelect
  repeat' first
    | with_reducible assumption
    | (extract_lets +onlyGivenNames x; first | (refine Keeps.letS (a := x) ?_ fun hx => ?_; rotate_left; clear_value x; revert x; rotate_left; unfold x; clear x) | (try unfold x; clear x))
    | intro _ _
    | with_reducible refine Runs.next ?_
    | with_reducible refine regWrite_keeps (fun _ hy => ?_) ?_
    | with_reducible refine fset_keeps ?_
    | with_reducible refine Keeps.forAll ?_ fun _ _ hy => ?_
    | with_reducible refine wrN_keeps ?_

theorem laneRefs_keeps {s0 s : State} {p j : Nat} (h : Keeps s0 s) : Keeps s0 (laneRefs s p j) := by
  unfold laneRefs
  repeat' first
    | with_reducible assumption
    | (extract_lets +onlyGivenNames x; first | (refine Keeps.letS (a := x) ?_ fun hx => ?_; rotate_left; clear_value x; revert x; rotate_left; unfold x; clear x) | (try unfold x; clear x))
    | with_reducible refine wrN_keeps ?_
    | with_reducible refine Keeps.ite ?_ ?_

theorem loadTargets_keeps {s0 s : State} {a : Nat} {i : FInstr} (h : Keeps s0 s) : Keeps s0 (loadTargets s a i) := by
  unfold loadTargets
  repeat' first
    | with_reducible assumption
    | (extract_lets +onlyGivenNames x; first | (refine Keeps.letS (a := x) ?_ fun hx => ?_; rotate_left; clear_value x; revert x; rotate_left; unfold x; clear x) | (try unfold x; clear x))
    | intro _ _
    | with_reducible refine Keeps.forAll ?_ fun _ _ hy => ?_
    | with_reducible refine fsetb_keeps ?_
    | with_reducible refine fset_keeps ?_
    | with_reducible refine laneRefs_keeps ?_
    | with_reducible refine wrN_keeps ?_
    | with_reducible refine Keeps.ite ?_ ?_
    | split

theorem loadOfs_keeps {s0 s : State} {a : Nat} (h : Keeps s0 s) : Keeps s0 (loadOfs s a) := by
  unfold loadOfs
  repeat' first
    | with_reducible assumption
    | with_reducible refine Keeps.forAll ?_ fun _ _ hy => ?_
    | with_reducible refine fset_keeps ?_

theorem seekTo_keeps {s0 s : State} {a : Nat} {i : FInstr} (h : Keeps s0 s) : Keeps s0 (seekTo s a i) := by
  unfold seekTo
  repeat' first
    | with_reducible assumption
    | (extract_lets +onlyGivenNames x; first | (refine Keeps.letS (a := x) ?_ fun hx => ?_; rotate_left; clear_value x; revert x; rotate_left; unfold x; clear x) | (try unfold x; clear x))
    | intro _ _
    | with_reducible refine loadTargets_keeps ?_
    | with_reducible refine loadOfs_keeps ?_
    | with_reducible refine takeTargets_keeps ?_
    | with_reducible refine sync5_keeps ?_
    | with_reducible refine setSrvMode_keeps ?_
    | with_reducible refine syncFollow_keeps ?_
    | with_reducible refine Keeps.ite ?_ ?_

theorem execDownstreamLaneLoss_runs {s0 : State} {p : Fin 32} {s : State} (h : Keeps s0 s) : Runs s0 (execDownstreamLaneLoss p s) := by
  unfold execDownstreamLaneLoss
  repeat' first
    | with_reducible assumption
    | with_reducible refine Runs.next ?_
    | with_reducible refine downLost_keeps ?_
    | with_reducible refine evtSet_keeps ?_
    | with_reducible refine Keeps.ite ?_ ?_

theorem execFecRetrainCheck_runs {s0 : State} {p : Fin 32} {lane : Fin 5} {corrected uncorrectable : BitVec 31} {s : State} (h : Keeps s0 s) : Runs s0 (execFecRetrainCheck p lane corrected uncorrectable s) := by
  unfold execFecRetrainCheck
  repeat' first
    | with_reducible assumption
    | (extract_lets +onlyGivenNames x; first | (refine Keeps.letS (a := x) ?_ fun hx => ?_; rotate_left; clear_value x; revert x; rotate_left; unfold x; clear x) | (try unfold x; clear x))
    | with_reducible refine Runs.next ?_
    | with_reducible refine count_keeps ?_
    | with_reducible refine evtSet_keeps ?_
    | with_reducible refine setTth_keeps ?_
    | with_reducible refine downLost_keeps ?_
    | with_reducible refine retrainLane_keeps ?_
    | with_reducible refine setLanes_keeps ?_
    | with_reducible refine endStreams_keeps ?_
    | with_reducible refine allLanesLost_keeps ?_
    | with_reducible refine setPortState_keeps ?_
    | with_reducible refine startStreams_keeps ?_
    | with_reducible refine laneImpair_keeps ?_
    | with_reducible refine Keeps.ite ?_ ?_

theorem setPrt_keeps {s0 s : State} {f : PrtState → PrtState} (hf : ∀ p, (f p).status = p.status) (h : Keeps s0 s) :
    Keeps s0 (setPrt s f) := Keeps.upd h rfl rfl (hf _)

theorem hoPhase_keeps {s0 s : State} {n : Nat} (h : Keeps s0 s) : Keeps s0 (hoPhase s n) := by
  unfold hoPhase
  repeat' first
    | with_reducible assumption
    | with_reducible refine fset_keeps ?_

theorem hoResult_keeps {s0 s : State} {r : Nat} (h : Keeps s0 s) : Keeps s0 (hoResult s r) := by
  unfold hoResult
  repeat' first
    | with_reducible assumption
    | with_reducible refine fset_keeps ?_

theorem setMirrorValid_keeps {s0 s : State} {b : Bool} (h : Keeps s0 s) : Keeps s0 (setMirrorValid s b) := by
  unfold setMirrorValid
  repeat' first
    | with_reducible assumption
    | with_reducible refine fsetb_keeps ?_

theorem roleMode_keeps {s0 s : State} {r cause : Nat} (h : Keeps s0 s) : Keeps s0 (roleMode s r cause) := by
  unfold roleMode
  repeat' first
    | with_reducible assumption
    | with_reducible refine applyRule_keeps ?_
    | with_reducible refine setMode_keeps ?_
    | with_reducible refine Keeps.ite ?_ ?_

theorem setAna_keeps {s0 s : State} {v : Nat} (h : Keeps s0 s) : Keeps s0 (setAna s v) := by
  unfold setAna
  repeat' first
    | with_reducible assumption
    | (extract_lets +onlyGivenNames x; first | (refine Keeps.letS (a := x) ?_ fun hx => ?_; rotate_left; clear_value x; revert x; rotate_left; unfold x; clear x) | (try unfold x; clear x))
    | intro _ _
    | with_reducible refine Keeps.forAll ?_ fun _ _ hy => ?_
    | with_reducible refine fset_keeps ?_
    | with_reducible refine notice_keeps ?_
    | with_reducible refine Keeps.ite ?_ ?_
    | with_reducible refine Keeps.upd ?_ rfl rfl rfl

theorem takeRole_keeps {s0 s : State} {r cause : Nat} (h : Keeps s0 s) : Keeps s0 (takeRole s r cause) := by
  unfold takeRole
  repeat' first
    | with_reducible assumption
    | (extract_lets +onlyGivenNames x; first | (refine Keeps.letS (a := x) ?_ fun hx => ?_; rotate_left; clear_value x; revert x; rotate_left; unfold x; clear x) | (try unfold x; clear x))
    | intro _ _
    | with_reducible refine evtSet_keeps ?_
    | with_reducible refine fset_keeps ?_
    | with_reducible refine loseAccs_keeps ?_
    | with_reducible refine roleMode_keeps ?_
    | with_reducible refine setAna_keeps ?_
    | with_reducible refine Keeps.ite ?_ ?_

theorem setRole_keeps {s0 s : State} {r : Nat} (h : Keeps s0 s) : Keeps s0 (setRole s r) := by
  unfold setRole
  repeat' first
    | with_reducible assumption
    | with_reducible refine takeRole_keeps ?_

theorem hoComplete_keeps {s0 s : State} {result : Nat} (h : Keeps s0 s) : Keeps s0 (hoComplete s result) := by
  unfold hoComplete
  repeat' first
    | with_reducible assumption
    | (extract_lets +onlyGivenNames x; first | (refine Keeps.letS (a := x) ?_ fun hx => ?_; rotate_left; clear_value x; revert x; rotate_left; unfold x; clear x) | (try unfold x; clear x))
    | intro _ _
    | with_reducible refine setPrt_keeps (fun _ => rfl) ?_
    | with_reducible refine adminOk_keeps ?_
    | with_reducible refine complete_keeps ?_
    | with_reducible refine Keeps.ite ?_ ?_
    | split

theorem updateFail_keeps {s0 s : State} (h : Keeps s0 s) : Keeps s0 (updateFail s) := by
  unfold updateFail
  repeat' first
    | with_reducible assumption
    | (extract_lets +onlyGivenNames x; first | (refine Keeps.letS (a := x) ?_ fun hx => ?_; rotate_left; clear_value x; revert x; rotate_left; unfold x; clear x) | (try unfold x; clear x))
    | intro _ _
    | with_reducible refine evtSet_keeps ?_
    | with_reducible refine fsetb_keeps ?_
    | with_reducible refine setPrt_keeps (fun _ => rfl) ?_
    | with_reducible refine adminEnd_keeps ?_
    | split

theorem handoverFail_keeps {s0 s : State} {result : Nat} (h : Keeps s0 s) : Keeps s0 (handoverFail s result) := by
  unfold handoverFail
  repeat' first
    | with_reducible assumption
    | (extract_lets +onlyGivenNames x; first | (refine Keeps.letS (a := x) ?_ fun hx => ?_; rotate_left; clear_value x; revert x; rotate_left; unfold x; clear x) | (try unfold x; clear x))
    | intro _ _
    | with_reducible refine hoPhase_keeps ?_
    | with_reducible refine hoResult_keeps ?_
    | with_reducible refine setPrt_keeps (fun _ => rfl) ?_
    | with_reducible refine hoComplete_keeps ?_
    | with_reducible refine evtSet_keeps ?_
    | with_reducible refine setRole_keeps ?_
    | with_reducible refine updateFail_keeps ?_
    | with_reducible refine Keeps.ite ?_ ?_

theorem sliceSlots_keeps {s0 s : State} {a mode : Nat} (h : Keeps s0 s) : Keeps s0 (sliceSlots s a mode) := by
  unfold sliceSlots
  repeat' first
    | with_reducible assumption
    | (extract_lets +onlyGivenNames x; first | (refine Keeps.letS (a := x) ?_ fun hx => ?_; rotate_left; clear_value x; revert x; rotate_left; unfold x; clear x) | (try unfold x; clear x))
    | with_reducible refine Keeps.forAll ?_ fun _ _ hy => ?_
    | with_reducible refine fset_keeps ?_
    | with_reducible refine Keeps.ite ?_ ?_

theorem sliceUnloaded_keeps {s0 s : State} {a : Nat} (h : Keeps s0 s) : Keeps s0 (sliceUnloaded s a) := by
  unfold sliceUnloaded
  repeat' first
    | with_reducible assumption
    | (extract_lets +onlyGivenNames x; first | (refine Keeps.letS (a := x) ?_ fun hx => ?_; rotate_left; clear_value x; revert x; rotate_left; unfold x; clear x) | (try unfold x; clear x))
    | intro _ _
    | with_reducible refine setSlice_keeps ?_
    | with_reducible refine sliceSlots_keeps ?_
    | with_reducible refine setSrvMode_keeps ?_
    | with_reducible refine count_keeps ?_
    | with_reducible refine Keeps.ite ?_ ?_

theorem headUnloaded_keeps {s0 s : State} {p : Nat} (h : Keeps s0 s) : Keeps s0 (headUnloaded s p) := by
  unfold headUnloaded
  repeat' first
    | with_reducible assumption
    | (extract_lets +onlyGivenNames x; first | (refine Keeps.letS (a := x) ?_ fun hx => ?_; rotate_left; clear_value x; revert x; rotate_left; unfold x; clear x) | (try unfold x; clear x))
    | intro _ _
    | with_reducible refine setSpn_keeps ?_
    | with_reducible refine sliceUnloaded_keeps ?_
    | with_reducible refine goShort_keeps ?_
    | with_reducible refine moveSurfs_keeps ?_
    | with_reducible refine sendDrive_keeps ?_
    | with_reducible refine setSpnState_keeps ?_
    | with_reducible refine goBrake_keeps ?_
    | with_reducible refine Keeps.ite ?_ ?_

theorem witness_keeps {s0 s : State} {p : Nat} (h : Keeps s0 s) : Keeps s0 (witness s p) := by
  unfold witness
  repeat' first
    | with_reducible assumption
    | (extract_lets +onlyGivenNames x; first | (refine Keeps.letS (a := x) ?_ fun hx => ?_; rotate_left; clear_value x; revert x; rotate_left; unfold x; clear x) | (try unfold x; clear x))
    | intro _ _
    | with_reducible refine tsbWrite_keeps ?_
    | with_reducible refine setTth_keeps ?_
    | with_reducible refine tsbRead_keeps ?_
    | with_reducible refine Keeps.ite ?_ ?_

theorem execHeartbeatPeriod_runs {s0 : State} {p : Fin 32} {s : State} (h : Keeps s0 s) : Runs s0 (execHeartbeatPeriod p s) := by
  unfold execHeartbeatPeriod
  repeat' first
    | with_reducible assumption
    | (extract_lets +onlyGivenNames x; first | (refine Keeps.letS (a := x) ?_ fun hx => ?_; rotate_left; clear_value x; revert x; rotate_left; unfold x; clear x) | (try unfold x; clear x))
    | with_reducible refine Runs.next ?_
    | with_reducible refine downLost_keeps ?_
    | with_reducible refine sendHb_keeps ?_
    | with_reducible refine setTth_keeps ?_
    | with_reducible refine tsbSend_keeps ?_
    | with_reducible refine witness_keeps ?_
    | with_reducible refine fadd_keeps ?_
    | with_reducible refine Keeps.ite ?_ ?_

theorem takeServo_keeps {s0 s : State} {p : Nat} {f : Flit} (h : Keeps s0 s) : Keeps s0 (takeServo s p f) := by
  unfold takeServo
  repeat' first
    | with_reducible assumption
    | (extract_lets +onlyGivenNames x; first | (refine Keeps.letS (a := x) ?_ fun hx => ?_; rotate_left; clear_value x; revert x; rotate_left; unfold x; clear x) | (try unfold x; clear x))
    | with_reducible refine setTth_keeps ?_

theorem flitEffect_keeps {s0 s : State} {p : Nat} {f : Flit} (h : Keeps s0 s) : Keeps s0 (flitEffect s p f) := by
  unfold flitEffect
  repeat' first
    | with_reducible assumption
    | (extract_lets +onlyGivenNames x; first | (refine Keeps.letS (a := x) ?_ fun hx => ?_; rotate_left; clear_value x; revert x; rotate_left; unfold x; clear x) | (try unfold x; clear x))
    | with_reducible refine samplesStored_keeps ?_
    | with_reducible refine takeSamples_keeps ?_
    | with_reducible refine takeServo_keeps ?_
    | with_reducible refine setTth_keeps ?_
    | with_reducible refine Keeps.ite ?_ ?_

theorem upFlit_keeps {s0 s : State} {p : Nat} {f : Flit} {lost : State → State} (hf : ∀ y0, Keeps s0 y0 → Keeps s0 (lost y0)) (h : Keeps s0 s) : Keeps s0 (upFlit s p f lost) := by
  unfold upFlit
  repeat' first
    | with_reducible assumption
    | with_reducible refine flitEffect_keeps ?_
    | with_reducible refine creditReturn_keeps ?_
    | with_reducible refine flitDiscard_keeps ?_
    | with_reducible refine hf _ ?_
    | with_reducible refine Keeps.ite ?_ ?_

theorem execIdleFlit_runs {s0 : State} {p : Fin 32} {f : Flit} {s : State} (h : Keeps s0 s) : Runs s0 (execIdleFlit p f s) :=
  Runs.next (upFlit_keeps (fun _ hy => hy) h)

theorem execInhibitRelease_runs {s0 : State} {a : Fin 64} {l : Fin 4} {s : State} (h : Keeps s0 s) : Runs s0 (execInhibitRelease a l s) := by
  unfold execInhibitRelease
  repeat' first
    | with_reducible assumption
    | with_reducible refine Runs.next ?_
    | with_reducible refine Keeps.forAll ?_ fun _ _ hy => ?_
    | with_reducible refine clearCause_keeps ?_
    | with_reducible refine Keeps.ite ?_ ?_

theorem execJournalTimer_runs {s0 : State} {nsid : BitVec 8} {zone : BitVec 32} {s : State} (h : Keeps s0 s) : Runs s0 (execJournalTimer nsid zone s) := by
  unfold execJournalTimer
  repeat' first
    | with_reducible assumption
    | with_reducible refine Runs.next ?_
    | with_reducible refine journalZone_keeps ?_
    | with_reducible refine Keeps.ite ?_ ?_

theorem journalTaken_keeps {s0 s : State} {x1 : Nat × List Nat} (h : Keeps s0 s) : Keeps s0 (journalTaken s x1) := by
  unfold journalTaken
  repeat' first
    | with_reducible assumption
    | (extract_lets +onlyGivenNames x; first | (refine Keeps.letS (a := x) ?_ fun hx => ?_; rotate_left; clear_value x; revert x; rotate_left; unfold x; clear x) | (try unfold x; clear x))
    | intro _ _
    | with_reducible refine count_keeps ?_
    | with_reducible refine setZmp_keeps ?_

theorem relocJournalled_keeps {s0 s : State} {p key : Nat} (h : Keeps s0 s) : Keeps s0 (relocJournalled s p key) := by
  unfold relocJournalled
  repeat' first
    | with_reducible assumption
    | with_reducible refine setZmp_keeps ?_
    | split

theorem execJournalWriteDone_runs {s0 : State} {p : Fin 32} {ok : Bool} {s : State} (h : Keeps s0 s) : Runs s0 (execJournalWriteDone p ok s) := by
  unfold execJournalWriteDone
  repeat' first
    | with_reducible assumption
    | (extract_lets +onlyGivenNames x; first | (refine Keeps.letS (a := x) ?_ fun hx => ?_; rotate_left; clear_value x; revert x; rotate_left; unfold x; clear x) | (try unfold x; clear x))
    | intro _ _
    | with_reducible refine Runs.next ?_
    | with_reducible refine Keeps.forAll ?_ fun _ _ hy => ?_
    | with_reducible refine journalTaken_keeps ?_
    | with_reducible refine relocJournalled_keeps ?_
    | with_reducible refine releaseMoved_keeps ?_
    | with_reducible refine evtSet_keeps ?_
    | with_reducible refine journalKeys_keeps ?_
    | with_reducible refine setZmp_keeps ?_
    | with_reducible refine Keeps.ite ?_ ?_
    | split

theorem trained_keeps {s0 s : State} {p : Nat} (h : Keeps s0 s) : Keeps s0 (trained s p) := by
  unfold trained
  repeat' first
    | with_reducible assumption
    | (extract_lets +onlyGivenNames x; first | (refine Keeps.letS (a := x) ?_ fun hx => ?_; rotate_left; clear_value x; revert x; rotate_left; unfold x; clear x) | (try unfold x; clear x))
    | with_reducible refine identStart_keeps ?_
    | with_reducible refine setTth_keeps ?_
    | with_reducible refine enterUp_keeps ?_
    | with_reducible refine Keeps.ite ?_ ?_

theorem setCredits_keeps {s0 s : State} {p : Nat} (h : Keeps s0 s) : Keeps s0 (setCredits s p) := by
  unfold setCredits
  repeat' first
    | with_reducible assumption
    | (extract_lets +onlyGivenNames x; first | (refine Keeps.letS (a := x) ?_ fun hx => ?_; rotate_left; clear_value x; revert x; rotate_left; unfold x; clear x) | (try unfold x; clear x))
    | with_reducible refine fset_keeps ?_

theorem execLaneRetrainDone_runs {s0 : State} {p : Fin 32} {upGood : BitVec 4} {dnGood : Bool} {s : State} (h : Keeps s0 s) : Runs s0 (execLaneRetrainDone p upGood dnGood s) := by
  unfold execLaneRetrainDone
  repeat' first
    | with_reducible assumption
    | (extract_lets +onlyGivenNames x; first | (refine Keeps.letS (a := x) ?_ fun hx => ?_; rotate_left; clear_value x; revert x; rotate_left; unfold x; clear x) | (try unfold x; clear x))
    | with_reducible refine Runs.next ?_
    | with_reducible refine goUp_keeps ?_
    | with_reducible refine setLanes_keeps ?_
    | with_reducible refine trained_keeps ?_
    | with_reducible refine setCredits_keeps ?_
    | with_reducible refine Keeps.ite ?_ ?_

theorem execLaneRetryEpisode_runs {s0 : State} {p : Fin 32} {lane : Fin 4} {s : State} (h : Keeps s0 s) : Runs s0 (execLaneRetryEpisode p lane s) := by
  unfold execLaneRetryEpisode
  repeat' first
    | with_reducible assumption
    | with_reducible refine Runs.next ?_
    | with_reducible refine retrainLane_keeps ?_
    | with_reducible refine Keeps.ite ?_ ?_

theorem execMaSaturation_runs {s0 : State} {a : Fin 64} {l : Fin 4} {s : State} (h : Keeps s0 s) : Runs s0 (execMaSaturation a l s) := by
  unfold execMaSaturation
  repeat' first
    | with_reducible assumption
    | with_reducible refine Runs.next ?_
    | with_reducible refine setSrc_keeps ?_
    | with_reducible refine evtSet_keeps ?_
    | with_reducible refine Keeps.ite ?_ ?_

theorem startJob_keeps {s0 s : State} {j : LoadJob} (h : Keeps s0 s) : Keeps s0 (startJob s j) := by
  unfold startJob
  repeat' first
    | with_reducible assumption
    | (extract_lets +onlyGivenNames x; first | (refine Keeps.letS (a := x) ?_ fun hx => ?_; rotate_left; clear_value x; revert x; rotate_left; unfold x; clear x) | (try unfold x; clear x))
    | with_reducible refine fsetb_keeps ?_
    | with_reducible refine Keeps.upd ?_ rfl rfl rfl

theorem loaderCmd_keeps {s0 s : State} {m : Master} {what : Nat} (h : Keeps s0 s) : Keeps s0 (loaderCmd s m what) := by
  unfold loaderCmd
  repeat' first
    | with_reducible assumption
    | with_reducible refine fset_keeps ?_
    | with_reducible refine startJob_keeps ?_
    | with_reducible refine Keeps.ite ?_ ?_

theorem mirrorLost_keeps {s0 s : State} (h : Keeps s0 s) : Keeps s0 (mirrorLost s) := by
  unfold mirrorLost
  repeat' first
    | with_reducible assumption
    | (extract_lets +onlyGivenNames x; first | (refine Keeps.letS (a := x) ?_ fun hx => ?_; rotate_left; clear_value x; revert x; rotate_left; unfold x; clear x) | (try unfold x; clear x))
    | intro _ _
    | with_reducible refine rootGrade_keeps ?_
    | with_reducible refine evtSet_keeps ?_
    | with_reducible refine fset_keeps ?_
    | with_reducible refine setMirrorValid_keeps ?_
    | with_reducible refine Keeps.ite ?_ ?_

theorem tthClear_keeps {s0 s : State} {p : Nat} (h : Keeps s0 s) : Keeps s0 (tthClear s p) := by
  unfold tthClear
  repeat' first
    | with_reducible assumption
    | with_reducible refine clearCounts_keeps ?_

theorem portEnable_keeps {s0 s : State} {p : Nat} (h : Keeps s0 s) : Keeps s0 (portEnable s p) := by
  unfold portEnable
  repeat' first
    | with_reducible assumption
    | (extract_lets +onlyGivenNames x; first | (refine Keeps.letS (a := x) ?_ fun hx => ?_; rotate_left; clear_value x; revert x; rotate_left; unfold x; clear x) | (try unfold x; clear x))
    | intro _ _
    | with_reducible refine fsetb_keeps ?_
    | with_reducible refine setPortState_keeps ?_
    | with_reducible refine goDebounce_keeps ?_
    | with_reducible refine Keeps.ite ?_ ?_

theorem portDisable_keeps {s0 s : State} {p : Nat} (h : Keeps s0 s) : Keeps s0 (portDisable s p) := by
  unfold portDisable
  repeat' first
    | with_reducible assumption
    | (extract_lets +onlyGivenNames x; first | (refine Keeps.letS (a := x) ?_ fun hx => ?_; rotate_left; clear_value x; revert x; rotate_left; unfold x; clear x) | (try unfold x; clear x))
    | intro _ _
    | with_reducible refine fsetb_keeps ?_
    | with_reducible refine setPortState_keeps ?_
    | with_reducible refine phyOff_keeps ?_
    | with_reducible refine lanesDown_keeps ?_
    | with_reducible refine tsbAbort_keeps ?_
    | with_reducible refine allLanesLost_keeps ?_
    | with_reducible refine Keeps.ite ?_ ?_

theorem goIdent_keeps {s0 s : State} {p : Nat} (h : Keeps s0 s) : Keeps s0 (goIdent s p) := by
  unfold goIdent
  repeat' first
    | with_reducible assumption
    | (extract_lets +onlyGivenNames x; first | (refine Keeps.letS (a := x) ?_ fun hx => ?_; rotate_left; clear_value x; revert x; rotate_left; unfold x; clear x) | (try unfold x; clear x))
    | intro _ _
    | with_reducible refine fset_keeps ?_
    | with_reducible refine newEpisodes_keeps ?_
    | with_reducible refine identStart_keeps ?_
    | with_reducible refine setTth_keeps ?_
    | with_reducible refine setPortState_keeps ?_

theorem portRetrain_keeps {s0 s : State} {p : Nat} (h : Keeps s0 s) : Keeps s0 (portRetrain s p) := by
  unfold portRetrain
  repeat' first
    | with_reducible assumption
    | (extract_lets +onlyGivenNames x; first | (refine Keeps.letS (a := x) ?_ fun hx => ?_; rotate_left; clear_value x; revert x; rotate_left; unfold x; clear x) | (try unfold x; clear x))
    | intro _ _
    | with_reducible refine goIdent_keeps ?_
    | with_reducible refine endStreams_keeps ?_
    | with_reducible refine allLanesLost_keeps ?_
    | with_reducible refine setPortState_keeps ?_
    | with_reducible refine setLanes_keeps ?_
    | with_reducible refine newEpisodes_keeps ?_
    | with_reducible refine count_keeps ?_
    | with_reducible refine Keeps.ite ?_ ?_

theorem tokenWrite_keeps {s0 s : State} {p cmd : Nat} (h : Keeps s0 s) : Keeps s0 (tokenWrite s p cmd) := by
  unfold tokenWrite
  repeat' first
    | with_reducible assumption
    | with_reducible refine tokenCmd_keeps ?_
    | with_reducible refine Keeps.ite ?_ ?_

theorem tsbExpert_keeps {s0 s : State} {p cmd len addr : Nat} (h : Keeps s0 s) : Keeps s0 (tsbExpert s p cmd len addr) := by
  unfold tsbExpert
  repeat' first
    | with_reducible assumption
    | (extract_lets +onlyGivenNames x; first | (refine Keeps.letS (a := x) ?_ fun hx => ?_; rotate_left; clear_value x; revert x; rotate_left; unfold x; clear x) | (try unfold x; clear x))
    | intro _ _
    | with_reducible refine fset_keeps ?_
    | with_reducible refine fsetb_keeps ?_
    | with_reducible refine tsbSend_keeps ?_
    | with_reducible refine Keeps.ite ?_ ?_

theorem noRewrites_keeps {s0 s : State} {a : Nat} (h : Keeps s0 s) : Keeps s0 (noRewrites s a) := by
  unfold noRewrites
  repeat' first
    | with_reducible assumption
    | with_reducible refine endPending_keeps ?_
    | with_reducible refine Keeps.ite ?_ ?_

theorem portRefs_keeps {s0 s : State} {p : Nat} (h : Keeps s0 s) : Keeps s0 (portRefs s p) := by
  unfold portRefs
  repeat' first
    | with_reducible assumption
    | with_reducible refine Keeps.forAll ?_ fun _ _ hy => ?_
    | with_reducible refine laneRefs_keeps ?_

theorem execZoneLocateGo_runs {s0 : State} {m : Master} {nsid : BitVec 8} {s : State} (h : Keeps s0 s) : Runs s0 (execZoneLocateGo m nsid s) := by
  unfold execZoneLocateGo
  repeat' first
    | with_reducible assumption
    | (extract_lets +onlyGivenNames x; first | (refine Keeps.letS (a := x) ?_ fun hx => ?_; rotate_left; clear_value x; revert x; rotate_left; unfold x; clear x) | (try unfold x; clear x))
    | intro _ _
    | with_reducible refine Runs.next ?_
    | with_reducible refine regWrite_keeps (fun _ hy => ?_) ?_
    | with_reducible refine fset_keeps ?_
    | with_reducible refine wr_keeps ?_
    | with_reducible refine Keeps.ite ?_ ?_

theorem execMissInhibit_runs {s0 : State} {a : Fin 64} {l : Fin 4} {s : State} (h : Keeps s0 s) : Runs s0 (execMissInhibit a l s) := by
  unfold execMissInhibit
  repeat' first
    | with_reducible assumption
    | (extract_lets +onlyGivenNames x; first | (refine Keeps.letS (a := x) ?_ fun hx => ?_; rotate_left; clear_value x; revert x; rotate_left; unfold x; clear x) | (try unfold x; clear x))
    | with_reducible refine Runs.next ?_
    | with_reducible refine noRewrites_keeps ?_
    | with_reducible refine setCause_keeps ?_
    | with_reducible refine Keeps.ite ?_ ?_

theorem monTaken_keeps {s0 s : State} {p lane : Nat} (h : Keeps s0 s) : Keeps s0 (monTaken s p lane) := by
  unfold monTaken
  repeat' first
    | with_reducible assumption
    | (extract_lets +onlyGivenNames x; first | (refine Keeps.letS (a := x) ?_ fun hx => ?_; rotate_left; clear_value x; revert x; rotate_left; unfold x; clear x) | (try unfold x; clear x))
    | intro _ _
    | with_reducible refine fset_keeps ?_
    | with_reducible refine setSpn_keeps ?_
    | with_reducible refine wearUpdate_keeps ?_
    | with_reducible refine count_keeps ?_
    | with_reducible refine sync5_keeps ?_
    | with_reducible refine Keeps.ite ?_ ?_

theorem execMonRecord_runs {s0 : State} {p : Fin 32} {lane : Fin 8} {value : BitVec 16} {t1 : BitVec 48} {s : State} (h : Keeps s0 s) : Runs s0 (execMonRecord p lane value t1 s) := by
  unfold execMonRecord
  repeat' first
    | with_reducible assumption
    | (extract_lets +onlyGivenNames x; first | (refine Keeps.letS (a := x) ?_ fun hx => ?_; rotate_left; clear_value x; revert x; rotate_left; unfold x; clear x) | (try unfold x; clear x))
    | with_reducible refine Runs.next ?_
    | with_reducible refine brdTrigger_keeps ?_
    | with_reducible refine monTaken_keeps ?_

theorem execMonTimeout_runs {s0 : State} {p : Fin 32} {lane : Fin 8} {s : State} (h : Keeps s0 s) : Runs s0 (execMonTimeout p lane s) := by
  unfold execMonTimeout
  repeat' first
    | with_reducible assumption
    | (extract_lets +onlyGivenNames x; first | (refine Keeps.letS (a := x) ?_ fun hx => ?_; rotate_left; clear_value x; revert x; rotate_left; unfold x; clear x) | (try unfold x; clear x))
    | with_reducible refine Runs.next ?_
    | with_reducible refine sync5_keeps ?_
    | with_reducible refine evtSet_keeps ?_
    | with_reducible refine setSpn_keeps ?_
    | with_reducible refine Keeps.ite ?_ ?_

theorem observerLoss_keeps {s0 s : State} {p : Nat} (h : Keeps s0 s) : Keeps s0 (observerLoss s p) := by
  unfold observerLoss
  repeat' first
    | with_reducible assumption
    | (extract_lets +onlyGivenNames x; first | (refine Keeps.letS (a := x) ?_ fun hx => ?_; rotate_left; clear_value x; revert x; rotate_left; unfold x; clear x) | (try unfold x; clear x))
    | intro _ _
    | with_reducible refine evtSet_keeps ?_
    | with_reducible refine count_keeps ?_
    | with_reducible refine goLost_keeps ?_
    | with_reducible refine sendDrive_keeps ?_
    | with_reducible refine setSpn_keeps ?_

theorem syncAlone_keeps {s0 s : State} (h : Keeps s0 s) : Keeps s0 (syncAlone s) := by
  unfold syncAlone
  repeat' first
    | with_reducible assumption
    | with_reducible refine rootGrade_keeps ?_
    | with_reducible refine ungradeUnit_keeps ?_
    | with_reducible refine Keeps.ite ?_ ?_

theorem execPeerTrussCheck_runs {s0 : State} {image : List Byte} {s : State} (h : Keeps s0 s) : Runs s0 (execPeerTrussCheck image s) := by
  unfold execPeerTrussCheck
  repeat' first
    | with_reducible assumption
    | (extract_lets +onlyGivenNames x; first | (refine Keeps.letS (a := x) ?_ fun hx => ?_; rotate_left; clear_value x; revert x; rotate_left; unfold x; clear x) | (try unfold x; clear x))
    | with_reducible refine Runs.next ?_
    | with_reducible refine emit_keeps ?_
    | with_reducible refine switchFile_keeps ?_
    | with_reducible refine Keeps.ite ?_ ?_
    | split

theorem spanOver_keeps {s0 s : State} {a l pos : Nat} (h : Keeps s0 s) : Keeps s0 (spanOver s a l pos) := by
  unfold spanOver
  repeat' first
    | with_reducible assumption
    | (extract_lets +onlyGivenNames x; first | (refine Keeps.letS (a := x) ?_ fun hx => ?_; rotate_left; clear_value x; revert x; rotate_left; unfold x; clear x) | (try unfold x; clear x))
    | with_reducible refine setSlane_keeps ?_

theorem writeStatus_keeps {s0 s : State} {a l st : Nat} {w : SecWork} (h : Keeps s0 s) : Keeps s0 (writeStatus s a l st w) := by
  unfold writeStatus
  repeat' first
    | with_reducible assumption
    | (extract_lets +onlyGivenNames x; first | (refine Keeps.letS (a := x) ?_ fun hx => ?_; rotate_left; clear_value x; revert x; rotate_left; unfold x; clear x) | (try unfold x; clear x))
    | intro _ _
    | with_reducible refine spanOver_keeps ?_
    | with_reducible refine setSlice_keeps ?_
    | with_reducible refine setFseq_keeps ?_
    | with_reducible refine writtenFail_keeps ?_
    | with_reducible refine noRewrites_keeps ?_
    | with_reducible refine addPend_keeps ?_
    | with_reducible refine fmtLast_keeps ?_
    | with_reducible refine Keeps.ite ?_ ?_

theorem freeAcc_keeps {s0 s : State} {th z row : Nat} (h : Keeps s0 s) : Keeps s0 (freeAcc s th z row) := by
  unfold freeAcc
  repeat' first
    | with_reducible assumption
    | (extract_lets +onlyGivenNames x; first | (refine Keeps.letS (a := x) ?_ fun hx => ?_; rotate_left; clear_value x; revert x; rotate_left; unfold x; clear x) | (try unfold x; clear x))
    | with_reducible refine syncAcc_keeps ?_
    | with_reducible refine setZmp_keeps ?_

theorem loadHeads_keeps {s0 s : State} {p : Nat} (h : Keeps s0 s) : Keeps s0 (loadHeads s p) := by
  unfold loadHeads
  repeat' first
    | with_reducible assumption
    | with_reducible refine Keeps.forAll ?_ fun _ _ hy => ?_
    | with_reducible refine portRefs_keeps ?_
    | with_reducible refine sliceSlots_keeps ?_
    | with_reducible refine setSrvMode_keeps ?_
    | with_reducible refine takeTargets_keeps ?_
    | with_reducible refine enginePower_keeps ?_
    | with_reducible refine Keeps.ite ?_ ?_

theorem setPrsnt_keeps {s0 s : State} {p : Nat} {b : Bool} (h : Keeps s0 s) : Keeps s0 (setPrsnt s p b) := by
  unfold setPrsnt
  repeat' first
    | with_reducible assumption
    | with_reducible refine fsetb_keeps ?_

theorem newFrontEnd_keeps {s0 s : State} {p : Nat} (h : Keeps s0 s) : Keeps s0 (newFrontEnd s p) := by
  unfold newFrontEnd
  repeat' first
    | with_reducible assumption
    | (extract_lets +onlyGivenNames x; first | (refine Keeps.letS (a := x) ?_ fun hx => ?_; rotate_left; clear_value x; revert x; rotate_left; unfold x; clear x) | (try unfold x; clear x))
    | intro _ _
    | with_reducible refine setTth_keeps ?_
    | with_reducible refine setFe_keeps ?_
    | with_reducible refine fset_keeps ?_
    | with_reducible refine wrN_keeps ?_

theorem heatGone_keeps {s0 s : State} {p : Nat} (h : Keeps s0 s) : Keeps s0 (heatGone s p) := by
  unfold heatGone
  repeat' first
    | with_reducible assumption
    | (extract_lets +onlyGivenNames x; first | (refine Keeps.letS (a := x) ?_ fun hx => ?_; rotate_left; clear_value x; revert x; rotate_left; unfold x; clear x) | (try unfold x; clear x))
    | with_reducible refine setBgw_keeps ?_
    | with_reducible refine fset_keeps ?_

theorem goEmpty_keeps {s0 s : State} {p : Nat} (h : Keeps s0 s) : Keeps s0 (goEmpty s p) := by
  unfold goEmpty
  repeat' first
    | with_reducible assumption
    | (extract_lets +onlyGivenNames x; first | (refine Keeps.letS (a := x) ?_ fun hx => ?_; rotate_left; clear_value x; revert x; rotate_left; unfold x; clear x) | (try unfold x; clear x))
    | intro _ _
    | with_reducible refine phyOff_keeps ?_
    | with_reducible refine lanesDown_keeps ?_
    | with_reducible refine tsbAbort_keeps ?_
    | with_reducible refine pchg_keeps ?_
    | with_reducible refine setPrsnt_keeps ?_
    | with_reducible refine wrN_keeps ?_
    | with_reducible refine newFrontEnd_keeps ?_
    | with_reducible refine spnGone_keeps ?_
    | with_reducible refine mechAbsent_keeps ?_
    | with_reducible refine Keeps.forAll ?_ fun _ _ hy => ?_
    | with_reducible refine setSrvMode_keeps ?_
    | with_reducible refine fset_keeps ?_
    | with_reducible refine wbit_keeps ?_
    | with_reducible refine unboundPort_keeps ?_
    | with_reducible refine unimpair_keeps ?_
    | with_reducible refine setPortState_keeps ?_
    | with_reducible refine rebuildCheck_keeps ?_
    | with_reducible refine copiesLost_keeps ?_
    | with_reducible refine setTth_keeps ?_
    | with_reducible refine heatGone_keeps ?_
    | split

theorem execPresenceDebounceEnd_runs {s0 : State} {p : Fin 32} {s : State} (h : Keeps s0 s) : Runs s0 (execPresenceDebounceEnd p s) := by
  unfold execPresenceDebounceEnd
  repeat' first
    | with_reducible assumption
    | (extract_lets +onlyGivenNames x; first | (refine Keeps.letS (a := x) ?_ fun hx => ?_; rotate_left; clear_value x; revert x; rotate_left; unfold x; clear x) | (try unfold x; clear x))
    | with_reducible refine Runs.next ?_
    | with_reducible refine fsetb_keeps ?_
    | with_reducible refine goIdent_keeps ?_
    | with_reducible refine setPrsnt_keeps ?_
    | with_reducible refine goEmpty_keeps ?_
    | with_reducible refine Keeps.ite ?_ ?_

theorem execPresenceEdge_runs {s0 : State} {p : Fin 32} {low : Bool} {s : State} (h : Keeps s0 s) : Runs s0 (execPresenceEdge p low s) := by
  unfold execPresenceEdge
  repeat' first
    | with_reducible assumption
    | (extract_lets +onlyGivenNames x; first | (refine Keeps.letS (a := x) ?_ fun hx => ?_; rotate_left; clear_value x; revert x; rotate_left; unfold x; clear x) | (try unfold x; clear x))
    | with_reducible refine Runs.next ?_
    | with_reducible refine setTth_keeps ?_
    | with_reducible refine goDebounce_keeps ?_
    | with_reducible refine setPortState_keeps ?_
    | with_reducible refine pchg_keeps ?_
    | with_reducible refine newEpisodes_keeps ?_
    | with_reducible refine goIdent_keeps ?_
    | with_reducible refine Keeps.ite ?_ ?_

theorem execRampHandover_runs {s0 : State} {p : Fin 32} {s : State} (h : Keeps s0 s) : Runs s0 (execRampHandover p s) := by
  unfold execRampHandover
  repeat' first
    | with_reducible assumption
    | (extract_lets +onlyGivenNames x; first | (refine Keeps.letS (a := x) ?_ fun hx => ?_; rotate_left; clear_value x; revert x; rotate_left; unfold x; clear x) | (try unfold x; clear x))
    | with_reducible refine Runs.next ?_
    | with_reducible refine wrN_keeps ?_
    | with_reducible refine goAccel_keeps ?_
    | with_reducible refine fset_keeps ?_
    | with_reducible refine Keeps.ite ?_ ?_

theorem spnFail_keeps {s0 s : State} {p : Nat} (h : Keeps s0 s) : Keeps s0 (spnFail s p) := by
  unfold spnFail
  repeat' first
    | with_reducible assumption
    | (extract_lets +onlyGivenNames x; first | (refine Keeps.letS (a := x) ?_ fun hx => ?_; rotate_left; clear_value x; revert x; rotate_left; unfold x; clear x) | (try unfold x; clear x))
    | intro _ _
    | with_reducible refine sendDrive_keeps ?_
    | with_reducible refine evtSet_keeps ?_
    | with_reducible refine setSpnState_keeps ?_
    | with_reducible refine Keeps.forAll ?_ fun _ _ hy => ?_
    | with_reducible refine drawn_keeps ?_
    | with_reducible refine leafFail_keeps ?_
    | with_reducible refine setAux_keeps ?_
    | with_reducible refine failOwn_keeps ?_
    | with_reducible refine Keeps.ite ?_ ?_
    | split

theorem execRampTimeout_runs {s0 : State} {p : Fin 32} {s : State} (h : Keeps s0 s) : Runs s0 (execRampTimeout p s) := by
  unfold execRampTimeout
  repeat' first
    | with_reducible assumption
    | (extract_lets +onlyGivenNames x; first | (refine Keeps.letS (a := x) ?_ fun hx => ?_; rotate_left; clear_value x; revert x; rotate_left; unfold x; clear x) | (try unfold x; clear x))
    | with_reducible refine Runs.next ?_
    | with_reducible refine fset_keeps ?_
    | with_reducible refine spnFail_keeps ?_
    | with_reducible refine goShort_keeps ?_
    | with_reducible refine count_keeps ?_
    | with_reducible refine Keeps.ite ?_ ?_

theorem execRebuildDone_runs {s0 : State} {t1 : Fin 4} {rows : BitVec 31} {s : State} (h : Keeps s0 s) : Runs s0 (execRebuildDone t1 rows s) := by
  unfold execRebuildDone
  repeat' first
    | with_reducible assumption
    | (extract_lets +onlyGivenNames x; first | (refine Keeps.letS (a := x) ?_ fun hx => ?_; rotate_left; clear_value x; revert x; rotate_left; unfold x; clear x) | (try unfold x; clear x))
    | with_reducible refine Runs.next ?_
    | with_reducible refine rebuildEnd_keeps ?_
    | with_reducible refine count_keeps ?_
    | with_reducible refine wrN_keeps ?_
    | with_reducible refine Keeps.ite ?_ ?_

theorem execRebuildStart_runs {s0 : State} {m : Master} {t1 : Fin 4} {member : BitVec 5} {uid : BitVec 12} {s : State} (h : Keeps s0 s) : Runs s0 (execRebuildStart m t1 member uid s) := by
  unfold execRebuildStart
  repeat' first
    | with_reducible assumption
    | with_reducible refine Runs.next ?_
    | with_reducible refine regWrite_keeps (fun _ hy => ?_) ?_
    | with_reducible refine rebuildStart_keeps ?_
    | with_reducible refine Keeps.ite ?_ ?_

theorem execRebuildStop_runs {s0 : State} {m : Master} {t1 : Fin 4} {s : State} (h : Keeps s0 s) : Runs s0 (execRebuildStop m t1 s) := by
  unfold execRebuildStop
  repeat' first
    | with_reducible assumption
    | with_reducible refine Runs.next ?_
    | with_reducible refine regWrite_keeps (fun _ hy => ?_) ?_
    | with_reducible refine rebuildEnd_keeps ?_
    | with_reducible refine wrN_keeps ?_
    | with_reducible refine Keeps.ite ?_ ?_

theorem execRegenAdmit_runs {s0 : State} {p : Fin 32} {s : State} (h : Keeps s0 s) : Runs s0 (execRegenAdmit p s) := by
  unfold execRegenAdmit
  repeat' first
    | with_reducible assumption
    | with_reducible refine Runs.next ?_
    | with_reducible refine driveOut_keeps ?_
    | with_reducible refine Keeps.ite ?_ ?_

theorem execRegenStopClear_runs {s0 s : State} (h : Keeps s0 s) : Runs s0 (execRegenStopClear s) := by
  unfold execRegenStopClear
  repeat' first
    | with_reducible assumption
    | (extract_lets +onlyGivenNames x; first | (refine Keeps.letS (a := x) ?_ fun hx => ?_; rotate_left; clear_value x; revert x; rotate_left; unfold x; clear x) | (try unfold x; clear x))
    | with_reducible refine Runs.next ?_
    | with_reducible refine fsetb_keeps ?_
    | with_reducible refine Keeps.forAll ?_ fun _ _ hy => ?_
    | with_reducible refine driveOut_keeps ?_
    | with_reducible refine Keeps.ite ?_ ?_

theorem relocStart_keeps {s0 s : State} {r : RelocReq} {dest : Nat} (h : Keeps s0 s) : Keeps s0 (relocStart s r dest) := by
  unfold relocStart
  repeat' first
    | with_reducible assumption
    | (extract_lets +onlyGivenNames x; first | (refine Keeps.letS (a := x) ?_ fun hx => ?_; rotate_left; clear_value x; revert x; rotate_left; unfold x; clear x) | (try unfold x; clear x))
    | intro _ _
    | with_reducible refine setZmp_keeps ?_
    | with_reducible refine journalKeys_keeps ?_
    | with_reducible refine spareSync_keeps ?_
    | with_reducible refine emit_keeps ?_
    | with_reducible refine evtSet_keeps ?_
    | with_reducible refine count_keeps ?_
    | with_reducible refine Keeps.ite ?_ ?_

theorem relocFail_keeps {s0 s : State} {r : RelocReq} (h : Keeps s0 s) : Keeps s0 (relocFail s r) := by
  unfold relocFail
  repeat' first
    | with_reducible assumption
    | (extract_lets +onlyGivenNames x; first | (refine Keeps.letS (a := x) ?_ fun hx => ?_; rotate_left; clear_value x; revert x; rotate_left; unfold x; clear x) | (try unfold x; clear x))
    | intro _ _
    | with_reducible refine leafGrade_keeps ?_
    | with_reducible refine setZState_keeps ?_
    | with_reducible refine deferError_keeps ?_
    | with_reducible refine evtSet_keeps ?_
    | with_reducible refine Keeps.ite ?_ ?_
    | split

theorem execRelocation_runs {s0 : State} {p : Fin 32} {s : State} (h : Keeps s0 s) : Runs s0 (execRelocation p s) := by
  unfold execRelocation
  repeat' first
    | with_reducible assumption
    | (extract_lets +onlyGivenNames x; first | (refine Keeps.letS (a := x) ?_ fun hx => ?_; rotate_left; clear_value x; revert x; rotate_left; unfold x; clear x) | (try unfold x; clear x))
    | intro _ _
    | with_reducible refine Runs.next ?_
    | with_reducible refine setDet_keeps ?_
    | with_reducible refine relocStart_keeps ?_
    | with_reducible refine relocFail_keeps ?_
    | with_reducible refine Keeps.ite ?_ ?_
    | split

theorem rewritten_keeps {s0 s : State} {a : Nat} (h : Keeps s0 s) : Keeps s0 (rewritten s a) := by
  unfold rewritten
  repeat' first
    | with_reducible assumption
    | (extract_lets +onlyGivenNames x; first | (refine Keeps.letS (a := x) ?_ fun hx => ?_; rotate_left; clear_value x; revert x; rotate_left; unfold x; clear x) | (try unfold x; clear x))
    | intro _ _
    | with_reducible refine count_keeps ?_
    | with_reducible refine Keeps.forAll ?_ fun _ _ hy => ?_
    | with_reducible refine setSlane_keeps ?_
    | with_reducible refine syncPend_keeps ?_
    | with_reducible refine setSlice_keeps ?_
    | with_reducible refine Keeps.ite ?_ ?_

theorem execRewritePass_runs {s0 : State} {a : Fin 64} {s : State} (h : Keeps s0 s) : Runs s0 (execRewritePass a s) := by
  unfold execRewritePass
  repeat' first
    | with_reducible assumption
    | (extract_lets +onlyGivenNames x; first | (refine Keeps.letS (a := x) ?_ fun hx => ?_; rotate_left; clear_value x; revert x; rotate_left; unfold x; clear x) | (try unfold x; clear x))
    | with_reducible refine Runs.next ?_
    | with_reducible refine endPending_keeps ?_
    | with_reducible refine rewritten_keeps ?_
    | with_reducible refine evtSet_keeps ?_
    | with_reducible refine noRewrites_keeps ?_
    | with_reducible refine Keeps.ite ?_ ?_

theorem execSampleFlit_runs {s0 : State} {p : Fin 32} {f : Flit} {s : State} (h : Keeps s0 s) : Runs s0 (execSampleFlit p f s) := by
  unfold execSampleFlit
  repeat' first
    | with_reducible assumption
    | with_reducible refine Runs.next ?_
    | with_reducible refine upFlit_keeps (fun _ hy => ?_) ?_
    | with_reducible refine skipSamples_keeps ?_
    | with_reducible refine Keeps.ite ?_ ?_

theorem execServoFlit_runs {s0 : State} {p : Fin 32} {f : Flit} {s : State} (h : Keeps s0 s) : Runs s0 (execServoFlit p f s) := by
  unfold execServoFlit
  repeat' first
    | with_reducible assumption
    | (extract_lets +onlyGivenNames x; first | (refine Keeps.letS (a := x) ?_ fun hx => ?_; rotate_left; clear_value x; revert x; rotate_left; unfold x; clear x) | (try unfold x; clear x))
    | with_reducible refine Runs.next ?_
    | with_reducible refine upFlit_keeps (fun _ hy => ?_) ?_
    | with_reducible refine setTth_keeps ?_

theorem holdLoops_keeps {s0 s : State} {a : Nat} (h : Keeps s0 s) : Keeps s0 (holdLoops s a) := by
  unfold holdLoops
  repeat' first
    | with_reducible assumption
    | (extract_lets +onlyGivenNames x; first | (refine Keeps.letS (a := x) ?_ fun hx => ?_; rotate_left; clear_value x; revert x; rotate_left; unfold x; clear x) | (try unfold x; clear x))
    | with_reducible refine syncQ_keeps ?_
    | with_reducible refine Keeps.forAll ?_ fun _ _ hy => ?_
    | with_reducible refine setBslot_keeps ?_

theorem execServoLost_runs {s0 : State} {a : Fin 64} {s : State} (h : Keeps s0 s) : Runs s0 (execServoLost a s) := by
  unfold execServoLost
  repeat' first
    | with_reducible assumption
    | (extract_lets +onlyGivenNames x; first | (refine Keeps.letS (a := x) ?_ fun hx => ?_; rotate_left; clear_value x; revert x; rotate_left; unfold x; clear x) | (try unfold x; clear x))
    | with_reducible refine Runs.next ?_
    | with_reducible refine evtSet_keeps ?_
    | with_reducible refine setSrvMode_keeps ?_
    | with_reducible refine setSlice_keeps ?_
    | with_reducible refine holdLoops_keeps ?_
    | with_reducible refine Keeps.forAll ?_ fun _ _ hy => ?_
    | with_reducible refine setSrc_keeps ?_
    | with_reducible refine Keeps.ite ?_ ?_

theorem servoFound_keeps {s0 s : State} {a : Nat} (h : Keeps s0 s) : Keeps s0 (servoFound s a) := by
  unfold servoFound
  repeat' first
    | with_reducible assumption
    | (extract_lets +onlyGivenNames x; first | (refine Keeps.letS (a := x) ?_ fun hx => ?_; rotate_left; clear_value x; revert x; rotate_left; unfold x; clear x) | (try unfold x; clear x))
    | intro _ _
    | with_reducible refine Keeps.forAll ?_ fun _ _ hy => ?_
    | with_reducible refine setSrvMode_keeps ?_
    | with_reducible refine setSlane_keeps ?_
    | with_reducible refine setSrc_keeps ?_
    | with_reducible refine setSlice_keeps ?_

theorem servoFailed_keeps {s0 s : State} {a : Nat} (h : Keeps s0 s) : Keeps s0 (servoFailed s a) := by
  unfold servoFailed
  repeat' first
    | with_reducible assumption
    | (extract_lets +onlyGivenNames x; first | (refine Keeps.letS (a := x) ?_ fun hx => ?_; rotate_left; clear_value x; revert x; rotate_left; unfold x; clear x) | (try unfold x; clear x))
    | intro _ _
    | with_reducible refine endPending_keeps ?_
    | with_reducible refine unloadSlice_keeps ?_
    | with_reducible refine failOwn_keeps ?_
    | split

theorem execServoReacquire_runs {s0 : State} {a : Fin 64} {found : Bool} {s : State} (h : Keeps s0 s) : Runs s0 (execServoReacquire a found s) := by
  unfold execServoReacquire
  repeat' first
    | with_reducible assumption
    | (extract_lets +onlyGivenNames x; first | (refine Keeps.letS (a := x) ?_ fun hx => ?_; rotate_left; clear_value x; revert x; rotate_left; unfold x; clear x) | (try unfold x; clear x))
    | with_reducible refine Runs.next ?_
    | with_reducible refine evtSet_keeps ?_
    | with_reducible refine servoFound_keeps ?_
    | with_reducible refine setSlice_keeps ?_
    | with_reducible refine servoFailed_keeps ?_
    | with_reducible refine Keeps.ite ?_ ?_

theorem wedgeTrigger_keeps {s0 s : State} {a l t1 : Nat} {missed : Bool} (h : Keeps s0 s) : Keeps s0 (wedgeTrigger s a l t1 missed) := by
  unfold wedgeTrigger
  repeat' first
    | with_reducible assumption
    | (extract_lets +onlyGivenNames x; first | (refine Keeps.letS (a := x) ?_ fun hx => ?_; rotate_left; clear_value x; revert x; rotate_left; unfold x; clear x) | (try unfold x; clear x))
    | intro _ _
    | with_reducible refine brdTrigger_keeps ?_
    | with_reducible refine drawn_keeps ?_
    | with_reducible refine Keeps.ite ?_ ?_

theorem wedgeNoted_keeps {s0 s : State} {a l : Nat} {w : WedgeFind} {missed : Bool} {pos : Int} (h : Keeps s0 s) : Keeps s0 (wedgeNoted s a l w missed pos) := by
  unfold wedgeNoted
  repeat' first
    | with_reducible assumption
    | (extract_lets +onlyGivenNames x; first | (refine Keeps.letS (a := x) ?_ fun hx => ?_; rotate_left; clear_value x; revert x; rotate_left; unfold x; clear x) | (try unfold x; clear x))
    | intro _ _
    | with_reducible refine setSlane_keeps ?_
    | with_reducible refine setTth_keeps ?_
    | with_reducible refine setSrc_keeps ?_
    | with_reducible refine Keeps.ite ?_ ?_

theorem indexSeen_keeps {s0 s : State} {a l n : Nat} {missed : Bool} (h : Keeps s0 s) : Keeps s0 (indexSeen s a l n missed) := by
  unfold indexSeen
  repeat' first
    | with_reducible assumption
    | (extract_lets +onlyGivenNames x; first | (refine Keeps.letS (a := x) ?_ fun hx => ?_; rotate_left; clear_value x; revert x; rotate_left; unfold x; clear x) | (try unfold x; clear x))
    | with_reducible refine setSlice_keeps ?_
    | with_reducible refine Keeps.ite ?_ ?_

theorem missedWedge_keeps {s0 s : State} {a l : Nat} {pos : Int} (h : Keeps s0 s) : Keeps s0 (missedWedge s a l pos) := by
  unfold missedWedge
  repeat' first
    | with_reducible assumption
    | (extract_lets +onlyGivenNames x; first | (refine Keeps.letS (a := x) ?_ fun hx => ?_; rotate_left; clear_value x; revert x; rotate_left; unfold x; clear x) | (try unfold x; clear x))
    | intro _ _
    | with_reducible refine fadd_keeps ?_
    | with_reducible refine wrN_keeps ?_
    | with_reducible refine setSlane_keeps ?_
    | with_reducible refine fset_keeps ?_
    | with_reducible refine count_keeps ?_
    | with_reducible refine evtSet_keeps ?_
    | with_reducible refine Keeps.ite ?_ ?_

theorem hoGoodWedge_keeps {s0 s : State} {a l : Nat} (h : Keeps s0 s) : Keeps s0 (hoGoodWedge s a l) := by
  unfold hoGoodWedge
  repeat' first
    | with_reducible assumption
    | (extract_lets +onlyGivenNames x; first | (refine Keeps.letS (a := x) ?_ fun hx => ?_; rotate_left; clear_value x; revert x; rotate_left; unfold x; clear x) | (try unfold x; clear x))
    | intro _ _
    | with_reducible refine syncSw_keeps ?_
    | with_reducible refine fset_keeps ?_
    | with_reducible refine Keeps.ite ?_ ?_
    | with_reducible refine Keeps.upd ?_ rfl rfl rfl

theorem passesOver_keeps {s0 s : State} {a : Nat} (h : Keeps s0 s) : Keeps s0 (passesOver s a) := by
  unfold passesOver
  repeat' first
    | with_reducible assumption
    | with_reducible refine setSlice_keeps ?_

theorem sectorHome_keeps {s0 s : State} {n lba place : Nat} (h : Keeps s0 s) : Keeps s0 (sectorHome s n lba place) := by
  unfold sectorHome
  repeat' first
    | with_reducible assumption
    | (extract_lets +onlyGivenNames x; first | (refine Keeps.letS (a := x) ?_ fun hx => ?_; rotate_left; clear_value x; revert x; rotate_left; unfold x; clear x) | (try unfold x; clear x))
    | intro _ _
    | with_reducible refine Keeps.forAll ?_ fun _ _ hy => ?_
    | with_reducible refine cleanExt_keeps ?_
    | with_reducible refine extentHome_keeps ?_
    | with_reducible refine releaseDirty_keeps ?_
    | with_reducible refine Keeps.ite ?_ ?_
    | with_reducible refine Keeps.upd ?_ rfl rfl rfl

theorem writtenOk_keeps {s0 s : State} {a : Nat} {x1 : PendSec} (h : Keeps s0 s) : Keeps s0 (writtenOk s a x1) := by
  unfold writtenOk
  repeat' first
    | with_reducible assumption
    | (extract_lets +onlyGivenNames x; first | (refine Keeps.letS (a := x) ?_ fun hx => ?_; rotate_left; clear_value x; revert x; rotate_left; unfold x; clear x) | (try unfold x; clear x))
    | intro _ _
    | with_reducible refine vfyAccount_keeps ?_
    | with_reducible refine tellWritten_keeps ?_
    | with_reducible refine sectorHome_keeps ?_
    | with_reducible refine Keeps.ite ?_ ?_

theorem wedgeConfirms_keeps {s0 s : State} {a l n : Nat} (h : Keeps s0 s) : Keeps s0 (wedgeConfirms s a l n) := by
  unfold wedgeConfirms
  repeat' first
    | with_reducible assumption
    | (extract_lets +onlyGivenNames x; first | (refine Keeps.letS (a := x) ?_ fun hx => ?_; rotate_left; clear_value x; revert x; rotate_left; unfold x; clear x) | (try unfold x; clear x))
    | with_reducible refine passesOver_keeps ?_
    | with_reducible refine Keeps.forAll ?_ fun _ _ hy => ?_
    | with_reducible refine setSlice_keeps ?_
    | with_reducible refine writtenOk_keeps ?_

theorem goodWedge_keeps {s0 s : State} {a l n : Nat} {pos : Int} (h : Keeps s0 s) : Keeps s0 (goodWedge s a l n pos) := by
  unfold goodWedge
  repeat' first
    | with_reducible assumption
    | (extract_lets +onlyGivenNames x; first | (refine Keeps.letS (a := x) ?_ fun hx => ?_; rotate_left; clear_value x; revert x; rotate_left; unfold x; clear x) | (try unfold x; clear x))
    | intro _ _
    | with_reducible refine fset_keeps ?_
    | with_reducible refine wrN_keeps ?_
    | with_reducible refine setSlane_keeps ?_
    | with_reducible refine fadd_keeps ?_
    | with_reducible refine setCause_keeps ?_
    | with_reducible refine recordPeak_keeps ?_
    | with_reducible refine wedgeConfirms_keeps ?_
    | with_reducible refine Keeps.ite ?_ ?_

theorem wedgeSeen_keeps {s0 s : State} {a l : Nat} {w : WedgeFind} (h : Keeps s0 s) : Keeps s0 (wedgeSeen s a l w) := by
  unfold wedgeSeen
  repeat' first
    | with_reducible assumption
    | (extract_lets +onlyGivenNames x; first | (refine Keeps.letS (a := x) ?_ fun hx => ?_; rotate_left; clear_value x; revert x; rotate_left; unfold x; clear x) | (try unfold x; clear x))
    | intro _ _
    | with_reducible refine takeLimits_keeps ?_
    | with_reducible refine wedgeNoted_keeps ?_
    | with_reducible refine indexSeen_keeps ?_
    | with_reducible refine latchCond_keeps ?_
    | with_reducible refine fset_keeps ?_
    | with_reducible refine missedWedge_keeps ?_
    | with_reducible refine hoGoodWedge_keeps ?_
    | with_reducible refine goodWedge_keeps ?_
    | with_reducible refine enterSettle_keeps ?_
    | with_reducible refine noRewrites_keeps ?_
    | with_reducible refine syncFollow_keeps ?_
    | with_reducible refine Keeps.ite ?_ ?_

theorem execServoWedge_runs {s0 : State} {a : Fin 64} {l : Fin 4} {w : WedgeFind} {t1 : BitVec 48} {s : State} (h : Keeps s0 s) : Runs s0 (execServoWedge a l w t1 s) := by
  unfold execServoWedge
  repeat' first
    | with_reducible assumption
    | with_reducible refine Runs.next ?_
    | with_reducible refine flyWedge_keeps ?_
    | with_reducible refine stepWedge_keeps ?_
    | with_reducible refine wedgeTrigger_keeps ?_
    | with_reducible refine wedgeSeen_keeps ?_
    | with_reducible refine Keeps.ite ?_ ?_

theorem execSettled_runs {s0 : State} {a : Fin 64} {s : State} (h : Keeps s0 s) : Runs s0 (execSettled a s) := by
  unfold execSettled
  repeat' first
    | with_reducible assumption
    | (extract_lets +onlyGivenNames x; first | (refine Keeps.letS (a := x) ?_ fun hx => ?_; rotate_left; clear_value x; revert x; rotate_left; unfold x; clear x) | (try unfold x; clear x))
    | with_reducible refine Runs.next ?_
    | with_reducible refine evtSet_keeps ?_
    | with_reducible refine setSrvMode_keeps ?_
    | with_reducible refine Keeps.ite ?_ ?_

theorem execShockHoldExpire_runs {s0 : State} {a : Fin 64} {s : State} (h : Keeps s0 s) : Runs s0 (execShockHoldExpire a s) := by
  unfold execShockHoldExpire
  repeat' first
    | with_reducible assumption
    | with_reducible refine Runs.next ?_
    | with_reducible refine Keeps.forAll ?_ fun _ _ hy => ?_
    | with_reducible refine setSrc_keeps ?_

theorem shockSlice_keeps {s0 s : State} {a : Nat} (h : Keeps s0 s) : Keeps s0 (shockSlice s a) := by
  unfold shockSlice
  repeat' first
    | with_reducible assumption
    | with_reducible refine noRewrites_keeps ?_
    | with_reducible refine evtSet_keeps ?_
    | with_reducible refine Keeps.forAll ?_ fun _ _ hy => ?_
    | with_reducible refine setSrc_keeps ?_

theorem execShockRecord_runs {s0 : State} {p : Fin 32} {value : BitVec 16} {a1 : BitVec 32} {s : State} (h : Keeps s0 s) : Runs s0 (execShockRecord p value a1 s) := by
  unfold execShockRecord
  repeat' first
    | with_reducible assumption
    | with_reducible refine Runs.next ?_
    | with_reducible refine Keeps.forAll ?_ fun _ _ hy => ?_
    | with_reducible refine shockSlice_keeps ?_
    | with_reducible refine Keeps.ite ?_ ?_

theorem execShockRecordTimeout_runs {s0 : State} {a : Fin 64} {s : State} (h : Keeps s0 s) : Runs s0 (execShockRecordTimeout a s) := by
  unfold execShockRecordTimeout
  repeat' first
    | with_reducible assumption
    | with_reducible refine Runs.next ?_
    | with_reducible refine shockSlice_keeps ?_
    | with_reducible refine Keeps.ite ?_ ?_

theorem execShortEnd_runs {s0 : State} {p : Fin 32} {s : State} (h : Keeps s0 s) : Runs s0 (execShortEnd p s) := by
  unfold execShortEnd
  repeat' first
    | with_reducible assumption
    | (extract_lets +onlyGivenNames x; first | (refine Keeps.letS (a := x) ?_ fun hx => ?_; rotate_left; clear_value x; revert x; rotate_left; unfold x; clear x) | (try unfold x; clear x))
    | with_reducible refine Runs.next ?_
    | with_reducible refine goAlign_keeps ?_
    | with_reducible refine goStopped_keeps ?_
    | with_reducible refine moveSurfs_keeps ?_
    | with_reducible refine setSpn_keeps ?_
    | with_reducible refine Keeps.ite ?_ ?_

theorem execSineUpdate_runs {s0 : State} {p : Fin 32} {observed : BitVec 10} {s : State} (h : Keeps s0 s) : Runs s0 (execSineUpdate p observed s) := by
  unfold execSineUpdate
  repeat' first
    | with_reducible assumption
    | (extract_lets +onlyGivenNames x; first | (refine Keeps.letS (a := x) ?_ fun hx => ?_; rotate_left; clear_value x; revert x; rotate_left; unfold x; clear x) | (try unfold x; clear x))
    | with_reducible refine Runs.next ?_
    | with_reducible refine setSpn_keeps ?_
    | with_reducible refine sendDrive_keeps ?_
    | with_reducible refine Keeps.ite ?_ ?_

theorem execSpeedRefSlewTick_runs {s0 : State} {p : Fin 32} {s : State} (h : Keeps s0 s) : Runs s0 (execSpeedRefSlewTick p s) := by
  unfold execSpeedRefSlewTick
  repeat' first
    | with_reducible assumption
    | (extract_lets +onlyGivenNames x; first | (refine Keeps.letS (a := x) ?_ fun hx => ?_; rotate_left; clear_value x; revert x; rotate_left; unfold x; clear x) | (try unfold x; clear x))
    | with_reducible refine Runs.next ?_
    | with_reducible refine stepSwitch_keeps ?_
    | with_reducible refine spnSlotRef_keeps ?_
    | with_reducible refine Keeps.ite ?_ ?_
    | split

theorem execSpindleRunReached_runs {s0 : State} {p : Fin 32} {s : State} (h : Keeps s0 s) : Runs s0 (execSpindleRunReached p s) := by
  unfold execSpindleRunReached
  repeat' first
    | with_reducible assumption
    | (extract_lets +onlyGivenNames x; first | (refine Keeps.letS (a := x) ?_ fun hx => ?_; rotate_left; clear_value x; revert x; rotate_left; unfold x; clear x) | (try unfold x; clear x))
    | with_reducible refine Runs.next ?_
    | with_reducible refine fwFeClear_keeps ?_
    | with_reducible refine setSpnState_keeps ?_
    | with_reducible refine loadHeads_keeps ?_
    | with_reducible refine spnSlotRef_keeps ?_
    | with_reducible refine beginStep_keeps ?_
    | with_reducible refine fset_keeps ?_
    | with_reducible refine Keeps.ite ?_ ?_
    | split

theorem execSpinupAdmit_runs {s0 : State} {p : Fin 32} {s : State} (h : Keeps s0 s) : Runs s0 (execSpinupAdmit p s) := by
  unfold execSpinupAdmit
  repeat' first
    | with_reducible assumption
    | (extract_lets +onlyGivenNames x; first | (refine Keeps.letS (a := x) ?_ fun hx => ?_; rotate_left; clear_value x; revert x; rotate_left; unfold x; clear x) | (try unfold x; clear x))
    | with_reducible refine Runs.next ?_
    | with_reducible refine admitStart_keeps ?_
    | with_reducible refine holdRequest_keeps ?_
    | with_reducible refine leaveWaits_keeps ?_
    | with_reducible refine beginStep_keeps ?_
    | with_reducible refine Keeps.ite ?_ ?_
    | split

theorem execSpnReqCoast_runs {s0 : State} {m : Master} {p : Fin 32} {s : State} (h : Keeps s0 s) : Runs s0 (execSpnReqCoast m p s) := by
  unfold execSpnReqCoast
  repeat' first
    | with_reducible assumption
    | with_reducible refine Runs.next ?_
    | with_reducible refine regWrite_keeps (fun _ hy => ?_) ?_
    | with_reducible refine askStop_keeps ?_
    | with_reducible refine fset_keeps ?_

theorem execSpnReqRun_runs {s0 : State} {m : Master} {p : Fin 32} {step : BitVec 2} {s : State} (h : Keeps s0 s) : Runs s0 (execSpnReqRun m p step s) := by
  unfold execSpnReqRun
  repeat' first
    | with_reducible assumption
    | with_reducible refine Runs.next ?_
    | with_reducible refine regWrite_keeps (fun _ hy => ?_) ?_
    | with_reducible refine askRun_keeps ?_
    | with_reducible refine fset_keeps ?_

theorem execSpnReqStop_runs {s0 : State} {m : Master} {p : Fin 32} {s : State} (h : Keeps s0 s) : Runs s0 (execSpnReqStop m p s) := by
  unfold execSpnReqStop
  repeat' first
    | with_reducible assumption
    | with_reducible refine Runs.next ?_
    | with_reducible refine regWrite_keeps (fun _ hy => ?_) ?_
    | with_reducible refine askStop_keeps ?_
    | with_reducible refine fset_keeps ?_

theorem execSpnStepWrite_runs {s0 : State} {m : Master} {p : Fin 32} {step : BitVec 2} {s : State} (h : Keeps s0 s) : Runs s0 (execSpnStepWrite m p step s) := by
  unfold execSpnStepWrite
  repeat' first
    | with_reducible assumption
    | with_reducible refine Runs.next ?_
    | with_reducible refine regWrite_keeps (fun _ hy => ?_) ?_
    | with_reducible refine askStep_keeps ?_
    | with_reducible refine fset_keeps ?_

theorem execSqueezeRead_runs {s0 : State} {a : Fin 64} {l : Fin 4} {failed : List (BitVec 16)} {nsid : BitVec 8} {lba : BitVec 40} {s : State} (h : Keeps s0 s) : Runs s0 (execSqueezeRead a l failed nsid lba s) := by
  unfold execSqueezeRead
  repeat' first
    | with_reducible assumption
    | (extract_lets +onlyGivenNames x; first | (refine Keeps.letS (a := x) ?_ fun hx => ?_; rotate_left; clear_value x; revert x; rotate_left; unfold x; clear x) | (try unfold x; clear x))
    | intro _ _
    | with_reducible refine Runs.next ?_
    | with_reducible refine Keeps.forAll ?_ fun _ _ hy => ?_
    | with_reducible refine reportReloc_keeps ?_
    | with_reducible refine setSlane_keeps ?_
    | with_reducible refine count_keeps ?_
    | split

theorem execSwInhibitWrite_runs {s0 : State} {m : Master} {a : Fin 64} {mask : BitVec 4} {s : State} (h : Keeps s0 s) : Runs s0 (execSwInhibitWrite m a mask s) := by
  unfold execSwInhibitWrite
  repeat' first
    | with_reducible assumption
    | with_reducible refine Runs.next ?_
    | with_reducible refine regWrite_keeps (fun _ hy => ?_) ?_
    | with_reducible refine noRewrites_keeps ?_
    | with_reducible refine syncSw_keeps ?_
    | with_reducible refine fset_keeps ?_

theorem execTelemFlit_runs {s0 : State} {p : Fin 32} {f : Flit} {s : State} (h : Keeps s0 s) : Runs s0 (execTelemFlit p f s) :=
  Runs.next (upFlit_keeps (fun _ hy => hy) h)

theorem goFault_keeps {s0 s : State} {p why : Nat} (h : Keeps s0 s) : Keeps s0 (goFault s p why) := by
  unfold goFault
  repeat' first
    | with_reducible assumption
    | with_reducible refine setPortState_keeps ?_
    | with_reducible refine fset_keeps ?_
    | with_reducible refine phyOff_keeps ?_
    | with_reducible refine lanesDown_keeps ?_
    | with_reducible refine allLanesLost_keeps ?_

theorem execTetherTrainingDone_runs {s0 : State} {p : Fin 32} {upGood : BitVec 4} {dnGood : Bool} {s : State} (h : Keeps s0 s) : Runs s0 (execTetherTrainingDone p upGood dnGood s) := by
  unfold execTetherTrainingDone
  repeat' first
    | with_reducible assumption
    | (extract_lets +onlyGivenNames x; first | (refine Keeps.letS (a := x) ?_ fun hx => ?_; rotate_left; clear_value x; revert x; rotate_left; unfold x; clear x) | (try unfold x; clear x))
    | with_reducible refine Runs.next ?_
    | with_reducible refine goFault_keeps ?_
    | with_reducible refine trained_keeps ?_
    | with_reducible refine setTth_keeps ?_
    | with_reducible refine setCredits_keeps ?_
    | with_reducible refine setLanes_keeps ?_
    | with_reducible refine Keeps.ite ?_ ?_

theorem execTetherTrainingFail_runs {s0 : State} {p : Fin 32} {lane : Fin 5} {s : State} (h : Keeps s0 s) : Runs s0 (execTetherTrainingFail p lane s) := by
  unfold execTetherTrainingFail
  repeat' first
    | with_reducible assumption
    | (extract_lets +onlyGivenNames x; first | (refine Keeps.letS (a := x) ?_ fun hx => ?_; rotate_left; clear_value x; revert x; rotate_left; unfold x; clear x) | (try unfold x; clear x))
    | with_reducible refine Runs.next ?_
    | with_reducible refine syncTries_keeps ?_
    | with_reducible refine setTth_keeps ?_
    | with_reducible refine goFault_keeps ?_
    | with_reducible refine Keeps.ite ?_ ?_

theorem execTokenAcquire_runs {s0 : State} {m : Master} {p : Fin 32} {s : State} (h : Keeps s0 s) : Runs s0 (execTokenAcquire m p s) := by
  unfold execTokenAcquire
  repeat' first
    | with_reducible assumption
    | with_reducible refine Runs.next ?_
    | with_reducible refine regWrite_keeps (fun _ hy => ?_) ?_
    | with_reducible refine tokenWrite_keeps ?_

theorem execTokenHandoff_runs {s0 : State} {m : Master} {p : Fin 32} {s : State} (h : Keeps s0 s) : Runs s0 (execTokenHandoff m p s) := by
  unfold execTokenHandoff
  repeat' first
    | with_reducible assumption
    | with_reducible refine Runs.next ?_
    | with_reducible refine regWrite_keeps (fun _ hy => ?_) ?_
    | with_reducible refine tokenWrite_keeps ?_

theorem execTokenRelease_runs {s0 : State} {m : Master} {p : Fin 32} {s : State} (h : Keeps s0 s) : Runs s0 (execTokenRelease m p s) := by
  unfold execTokenRelease
  repeat' first
    | with_reducible assumption
    | with_reducible refine Runs.next ?_
    | with_reducible refine regWrite_keeps (fun _ hy => ?_) ?_
    | with_reducible refine tokenWrite_keeps ?_

theorem execTrsFenceRelease_runs {s0 : State} {m : Master} {s : State} (h : Keeps s0 s) : Runs s0 (execTrsFenceRelease m s) := by
  unfold execTrsFenceRelease
  repeat' first
    | with_reducible assumption
    | with_reducible refine Runs.next ?_
    | with_reducible refine regWrite_keeps (fun _ hy => ?_) ?_
    | with_reducible refine releaseFence_keeps ?_
    | with_reducible refine Keeps.ite ?_ ?_

theorem execTrsFenceSet_runs {s0 : State} {m : Master} {root : BitVec 12} {s : State} (h : Keeps s0 s) : Runs s0 (execTrsFenceSet m root s) := by
  unfold execTrsFenceSet
  repeat' first
    | with_reducible assumption
    | with_reducible refine Runs.next ?_
    | with_reducible refine regWrite_keeps (fun _ hy => ?_) ?_
    | with_reducible refine fset_keeps ?_
    | with_reducible refine fsetb_keeps ?_
    | with_reducible refine Keeps.ite ?_ ?_

theorem execTrsKeyRevoke_runs {s0 : State} {m : Master} {slots : BitVec 4} {s : State} (h : Keeps s0 s) : Runs s0 (execTrsKeyRevoke m slots s) := by
  unfold execTrsKeyRevoke
  repeat' first
    | with_reducible assumption
    | with_reducible refine Runs.next ?_
    | with_reducible refine regWrite_keeps (fun _ hy => ?_) ?_
    | with_reducible refine fset_keeps ?_
    | with_reducible refine Keeps.ite ?_ ?_

theorem execTrsLdLoad_runs {s0 : State} {m : Master} {s : State} (h : Keeps s0 s) : Runs s0 (execTrsLdLoad m s) := by
  unfold execTrsLdLoad
  repeat' first
    | with_reducible assumption
    | with_reducible refine Runs.next ?_
    | with_reducible refine regWrite_keeps (fun _ hy => ?_) ?_
    | with_reducible refine loaderCmd_keeps ?_

theorem execTrsLdPatch_runs {s0 : State} {m : Master} {s : State} (h : Keeps s0 s) : Runs s0 (execTrsLdPatch m s) := by
  unfold execTrsLdPatch
  repeat' first
    | with_reducible assumption
    | with_reducible refine Runs.next ?_
    | with_reducible refine regWrite_keeps (fun _ hy => ?_) ?_
    | with_reducible refine loaderCmd_keeps ?_

theorem execTrsLdVerify_runs {s0 : State} {m : Master} {s : State} (h : Keeps s0 s) : Runs s0 (execTrsLdVerify m s) := by
  unfold execTrsLdVerify
  repeat' first
    | with_reducible assumption
    | with_reducible refine Runs.next ?_
    | with_reducible refine regWrite_keeps (fun _ hy => ?_) ?_
    | with_reducible refine loaderCmd_keeps ?_

theorem execTrsSeqFloorWrite_runs {s0 : State} {m : Master} {value : Word} {s : State} (h : Keeps s0 s) : Runs s0 (execTrsSeqFloorWrite m value s) := by
  unfold execTrsSeqFloorWrite
  repeat' first
    | with_reducible assumption
    | with_reducible refine Runs.next ?_
    | with_reducible refine regWrite_keeps (fun _ hy => ?_) ?_
    | with_reducible refine wr_keeps ?_
    | with_reducible refine Keeps.ite ?_ ?_

theorem trussCommit_keeps {s0 s : State} {x1 : HPort} {cid : BitVec 16} {what : Nat} {store : Bool} (h : Keeps s0 s) : Keeps s0 (trussCommit s x1 cid what store) := by
  unfold trussCommit
  repeat' first
    | with_reducible assumption
    | (extract_lets +onlyGivenNames x; first | (refine Keeps.letS (a := x) ?_ fun hx => ?_; rotate_left; clear_value x; revert x; rotate_left; unfold x; clear x) | (try unfold x; clear x))
    | with_reducible refine claimHeld_keeps ?_
    | with_reducible refine complete_keeps ?_
    | with_reducible refine startJob_keeps ?_
    | with_reducible refine armSwitch_keeps ?_
    | with_reducible refine Keeps.ite ?_ ?_
    | with_reducible refine Keeps.upd ?_ rfl rfl rfl

theorem execTrussCommitLoad_runs {s0 : State} {x1 : HPort} {cid a1 : BitVec 16} {s : State} (h : Keeps s0 s) : Runs s0 (execTrussCommitLoad x1 cid a1 s) := by
  unfold execTrussCommitLoad
  repeat' first
    | with_reducible assumption
    | with_reducible refine Runs.next ?_
    | with_reducible refine adminCmd_keeps (fun _ hy => ?_) ?_
    | with_reducible refine trussCommit_keeps ?_

theorem execTrussCommitLoadStore_runs {s0 : State} {x1 : HPort} {cid a1 : BitVec 16} {s : State} (h : Keeps s0 s) : Runs s0 (execTrussCommitLoadStore x1 cid a1 s) := by
  unfold execTrussCommitLoadStore
  repeat' first
    | with_reducible assumption
    | with_reducible refine Runs.next ?_
    | with_reducible refine adminCmd_keeps (fun _ hy => ?_) ?_
    | with_reducible refine trussCommit_keeps ?_

theorem execTrussCommitPatch_runs {s0 : State} {x1 : HPort} {cid a1 : BitVec 16} {s : State} (h : Keeps s0 s) : Runs s0 (execTrussCommitPatch x1 cid a1 s) := by
  unfold execTrussCommitPatch
  repeat' first
    | with_reducible assumption
    | with_reducible refine Runs.next ?_
    | with_reducible refine adminCmd_keeps (fun _ hy => ?_) ?_
    | with_reducible refine trussCommit_keeps ?_

theorem execTrussCommitPatchStore_runs {s0 : State} {x1 : HPort} {cid a1 : BitVec 16} {s : State} (h : Keeps s0 s) : Runs s0 (execTrussCommitPatchStore x1 cid a1 s) := by
  unfold execTrussCommitPatchStore
  repeat' first
    | with_reducible assumption
    | with_reducible refine Runs.next ?_
    | with_reducible refine adminCmd_keeps (fun _ hy => ?_) ?_
    | with_reducible refine trussCommit_keeps ?_

theorem execTrussCommitVerify_runs {s0 : State} {x1 : HPort} {cid a1 : BitVec 16} {s : State} (h : Keeps s0 s) : Runs s0 (execTrussCommitVerify x1 cid a1 s) := by
  unfold execTrussCommitVerify
  repeat' first
    | with_reducible assumption
    | with_reducible refine Runs.next ?_
    | with_reducible refine adminCmd_keeps (fun _ hy => ?_) ?_
    | with_reducible refine trussCommit_keeps ?_

theorem zeroStage_keeps {s0 s : State} (h : Keeps s0 s) : Keeps s0 (zeroStage s) := by
  unfold zeroStage
  repeat' first
    | with_reducible assumption
    | with_reducible refine clearRange_keeps ?_

theorem placeWords_keeps {s0 s : State} {w : Nat} {l : List Word} (h : Keeps s0 s) : Keeps s0 (placeWords s w l) := by
  induction l generalizing s w with
  | nil => exact h
  | cons d ds ih => exact ih (Keeps.ite (wr_keeps h) h)

theorem execTrussDownload_runs {s0 : State} {x1 : HPort} {cid : BitVec 16} {numd ofst : BitVec 32} {data : List Word} {s : State} (h : Keeps s0 s) : Runs s0 (execTrussDownload x1 cid numd ofst data s) := by
  unfold execTrussDownload
  repeat' first
    | with_reducible assumption
    | (extract_lets +onlyGivenNames x; first | (refine Keeps.letS (a := x) ?_ fun hx => ?_; rotate_left; clear_value x; revert x; rotate_left; unfold x; clear x) | (try unfold x; clear x))
    | intro _ _
    | with_reducible refine Runs.next ?_
    | with_reducible refine adminCmd_keeps (fun _ hy => ?_) ?_
    | with_reducible refine claimHeld_keeps ?_
    | with_reducible refine invalidField_keeps ?_
    | with_reducible refine zeroStage_keeps ?_
    | with_reducible refine placeWords_keeps ?_
    | with_reducible refine adminOk_keeps ?_
    | with_reducible refine Keeps.ite ?_ ?_
    | with_reducible refine Keeps.upd ?_ rfl rfl rfl

theorem execTrussPartnerAnswer_runs {s0 : State} {accept : Bool} {s : State} (h : Keeps s0 s) : Runs s0 (execTrussPartnerAnswer accept s) := by
  unfold execTrussPartnerAnswer
  repeat' first
    | with_reducible assumption
    | with_reducible refine Runs.next ?_
    | with_reducible refine afterPartner_keeps ?_
    | with_reducible refine loadEnd_keeps ?_
    | with_reducible refine Keeps.ite ?_ ?_

theorem execTrussPartnerTimeout_runs {s0 s : State} (h : Keeps s0 s) : Runs s0 (execTrussPartnerTimeout s) := by
  unfold execTrussPartnerTimeout
  repeat' first
    | with_reducible assumption
    | with_reducible refine Runs.next ?_
    | with_reducible refine afterPartner_keeps ?_

theorem execTrussQuiesceWaitEnd_runs {s0 s : State} (h : Keeps s0 s) : Runs s0 (execTrussQuiesceWaitEnd s) := by
  unfold execTrussQuiesceWaitEnd
  repeat' first
    | with_reducible assumption
    | (extract_lets +onlyGivenNames x; first | (refine Keeps.letS (a := x) ?_ fun hx => ?_; rotate_left; clear_value x; revert x; rotate_left; unfold x; clear x) | (try unfold x; clear x))
    | with_reducible refine Runs.next ?_
    | with_reducible refine commitBusy_keeps ?_
    | with_reducible refine startJob_keeps ?_
    | with_reducible refine Keeps.ite ?_ ?_
    | split
    | with_reducible refine Keeps.upd ?_ rfl rfl rfl

theorem execTrussVerifyDone_runs {s0 s : State} (h : Keeps s0 s) : Runs s0 (execTrussVerifyDone s) := by
  unfold execTrussVerifyDone
  repeat' first
    | with_reducible assumption
    | (extract_lets +onlyGivenNames x; first | (refine Keeps.letS (a := x) ?_ fun hx => ?_; rotate_left; clear_value x; revert x; rotate_left; unfold x; clear x) | (try unfold x; clear x))
    | with_reducible refine Runs.next ?_
    | with_reducible refine loadEnd_keeps ?_
    | with_reducible refine emit_keeps ?_
    | with_reducible refine switchStep_keeps ?_
    | with_reducible refine Keeps.ite ?_ ?_
    | split
    | with_reducible refine Keeps.upd ?_ rfl rfl rfl

theorem identFail_keeps {s0 s : State} {p : Nat} (h : Keeps s0 s) : Keeps s0 (identFail s p) := by
  unfold identFail
  repeat' first
    | with_reducible assumption
    | (extract_lets +onlyGivenNames x; first | (refine Keeps.letS (a := x) ?_ fun hx => ?_; rotate_left; clear_value x; revert x; rotate_left; unfold x; clear x) | (try unfold x; clear x))
    | intro _ _
    | with_reducible refine setTth_keeps ?_
    | with_reducible refine identStart_keeps ?_
    | with_reducible refine holdUnbound_keeps ?_
    | with_reducible refine goFault_keeps ?_
    | with_reducible refine Keeps.ite ?_ ?_

theorem identGo_keeps {s0 s : State} {p : Nat} {fresh : Bool} (h : Keeps s0 s) : Keeps s0 (identGo s p fresh) := by
  unfold identGo
  repeat' first
    | with_reducible assumption
    | (extract_lets +onlyGivenNames x; first | (refine Keeps.letS (a := x) ?_ fun hx => ?_; rotate_left; clear_value x; revert x; rotate_left; unfold x; clear x) | (try unfold x; clear x))
    | with_reducible refine goTrain_keeps ?_
    | with_reducible refine tsbRead_keeps ?_
    | with_reducible refine setPortState_keeps ?_
    | with_reducible refine enterUp_keeps ?_
    | with_reducible refine goFault_keeps ?_
    | with_reducible refine setTth_keeps ?_
    | with_reducible refine setCredits_keeps ?_
    | with_reducible refine Keeps.ite ?_ ?_

theorem newMechanism_keeps {s0 s : State} {p : Nat} (h : Keeps s0 s) : Keeps s0 (newMechanism s p) := by
  unfold newMechanism
  repeat' first
    | with_reducible assumption
    | with_reducible refine spnGone_keeps ?_
    | with_reducible refine rebuildCheck_keeps ?_
    | with_reducible refine mechAbsent_keeps ?_
    | with_reducible refine unboundPort_keeps ?_
    | with_reducible refine newFrontEnd_keeps ?_

theorem identAccept_keeps {s0 s : State} {p : Nat} {b : List Nat} (h : Keeps s0 s) : Keeps s0 (identAccept s p b) := by
  unfold identAccept
  repeat' first
    | with_reducible assumption
    | (extract_lets +onlyGivenNames x; first | (refine Keeps.letS (a := x) ?_ fun hx => ?_; rotate_left; clear_value x; revert x; rotate_left; unfold x; clear x) | (try unfold x; clear x))
    | intro _ _
    | with_reducible refine Keeps.forAll ?_ fun _ _ hy => ?_
    | with_reducible refine wrN_keeps ?_
    | with_reducible refine fset_keeps ?_
    | with_reducible refine setTth_keeps ?_
    | with_reducible refine identGo_keeps ?_
    | with_reducible refine newMechanism_keeps ?_
    | with_reducible refine Keeps.ite ?_ ?_

theorem identSecond_keeps {s0 s : State} {p : Nat} {d : List Nat} (h : Keeps s0 s) : Keeps s0 (identSecond s p d) := by
  unfold identSecond
  repeat' first
    | with_reducible assumption
    | (extract_lets +onlyGivenNames x; first | (refine Keeps.letS (a := x) ?_ fun hx => ?_; rotate_left; clear_value x; revert x; rotate_left; unfold x; clear x) | (try unfold x; clear x))
    | with_reducible refine identAccept_keeps ?_
    | with_reducible refine identFail_keeps ?_
    | with_reducible refine Keeps.ite ?_ ?_

theorem tokenWanted_keeps {s0 s : State} {p : Nat} (h : Keeps s0 s) : Keeps s0 (tokenWanted s p) := by
  unfold tokenWanted
  repeat' first
    | with_reducible assumption
    | with_reducible refine tokenCmd_keeps ?_
    | with_reducible refine Keeps.ite ?_ ?_

theorem tokenRead_keeps {s0 s : State} {p : Nat} {d : List Nat} (h : Keeps s0 s) : Keeps s0 (tokenRead s p d) := by
  unfold tokenRead
  repeat' first
    | with_reducible assumption
    | (extract_lets +onlyGivenNames x; first | (refine Keeps.letS (a := x) ?_ fun hx => ?_; rotate_left; clear_value x; revert x; rotate_left; unfold x; clear x) | (try unfold x; clear x))
    | intro _ _
    | with_reducible refine fset_keeps ?_
    | with_reducible refine fsetb_keeps ?_
    | with_reducible refine startStreams_keeps ?_
    | with_reducible refine endStreams_keeps ?_
    | with_reducible refine evtSet_keeps ?_
    | with_reducible refine Keeps.ite ?_ ?_

theorem witnessRead_keeps {s0 s : State} {p : Nat} {d : List Nat} (h : Keeps s0 s) : Keeps s0 (witnessRead s p d) := by
  unfold witnessRead
  repeat' first
    | with_reducible assumption
    | (extract_lets +onlyGivenNames x; first | (refine Keeps.letS (a := x) ?_ fun hx => ?_; rotate_left; clear_value x; revert x; rotate_left; unfold x; clear x) | (try unfold x; clear x))
    | intro _ _
    | with_reducible refine setTth_keeps ?_
    | with_reducible refine fset_keeps ?_
    | with_reducible refine wrN_keeps ?_
    | with_reducible refine Keeps.ite ?_ ?_
    | with_reducible refine Keeps.upd ?_ rfl rfl rfl

theorem lossFound_keeps {s0 s : State} {p : Nat} (h : Keeps s0 s) : Keeps s0 (lossFound s p) := by
  unfold lossFound
  repeat' first
    | with_reducible assumption
    | (extract_lets +onlyGivenNames x; first | (refine Keeps.letS (a := x) ?_ fun hx => ?_; rotate_left; clear_value x; revert x; rotate_left; unfold x; clear x) | (try unfold x; clear x))
    | intro _ _
    | with_reducible refine moveSurfs_keeps ?_
    | with_reducible refine evtSet_keeps ?_
    | with_reducible refine tokenCmd_keeps ?_
    | with_reducible refine Keeps.forAll ?_ fun _ _ hy => ?_
    | with_reducible refine sliceSlots_keeps ?_
    | with_reducible refine setSrvMode_keeps ?_
    | with_reducible refine goCatch_keeps ?_
    | with_reducible refine enginePower_keeps ?_
    | with_reducible refine Keeps.ite ?_ ?_

theorem statusRead_keeps {s0 s : State} {p : Nat} {d : List Nat} (h : Keeps s0 s) : Keeps s0 (statusRead s p d) := by
  unfold statusRead
  repeat' first
    | with_reducible assumption
    | (extract_lets +onlyGivenNames x; first | (refine Keeps.letS (a := x) ?_ fun hx => ?_; rotate_left; clear_value x; revert x; rotate_left; unfold x; clear x) | (try unfold x; clear x))
    | intro _ _
    | with_reducible refine lossFound_keeps ?_
    | with_reducible refine fsetb_keeps ?_
    | with_reducible refine tsbWrite_keeps ?_
    | with_reducible refine Keeps.ite ?_ ?_

theorem expertData_keeps {s0 s : State} {p : Nat} {d : List Nat} (h : Keeps s0 s) : Keeps s0 (expertData s p d) := by
  unfold expertData
  repeat' first
    | with_reducible assumption
    | (extract_lets +onlyGivenNames x; first | (refine Keeps.letS (a := x) ?_ fun hx => ?_; rotate_left; clear_value x; revert x; rotate_left; unfold x; clear x) | (try unfold x; clear x))
    | with_reducible refine Keeps.forAll ?_ fun _ _ hy => ?_
    | with_reducible refine wrN_keeps ?_
    | with_reducible refine Keeps.ite ?_ ?_

theorem tsbEnd_keeps {s0 s : State} {p : Nat} {r : TsbReq} {status : Nat} {d : List Nat} (h : Keeps s0 s) : Keeps s0 (tsbEnd s p r status d) := by
  unfold tsbEnd
  repeat' first
    | with_reducible assumption
    | (extract_lets +onlyGivenNames x; first | (refine Keeps.letS (a := x) ?_ fun hx => ?_; rotate_left; clear_value x; revert x; rotate_left; unfold x; clear x) | (try unfold x; clear x))
    | intro _ _
    | with_reducible refine tsbRead_keeps ?_
    | with_reducible refine setTth_keeps ?_
    | with_reducible refine identFail_keeps ?_
    | with_reducible refine identSecond_keeps ?_
    | with_reducible refine tokenWanted_keeps ?_
    | with_reducible refine tokenRead_keeps ?_
    | with_reducible refine wdogSend_keeps ?_
    | with_reducible refine fset_keeps ?_
    | with_reducible refine witnessRead_keeps ?_
    | with_reducible refine statusRead_keeps ?_
    | with_reducible refine fsetb_keeps ?_
    | with_reducible refine expertData_keeps ?_
    | with_reducible refine Keeps.ite ?_ ?_

theorem tsbDone_keeps {s0 s : State} {p status : Nat} {d : List Nat} (h : Keeps s0 s) : Keeps s0 (tsbDone s p status d) := by
  unfold tsbDone
  repeat' first
    | with_reducible assumption
    | (extract_lets +onlyGivenNames x; first | (refine Keeps.letS (a := x) ?_ fun hx => ?_; rotate_left; clear_value x; revert x; rotate_left; unfold x; clear x) | (try unfold x; clear x))
    | intro _ _
    | with_reducible refine fset_keeps ?_
    | with_reducible refine tsbEnd_keeps ?_
    | with_reducible refine tsbNext_keeps ?_
    | with_reducible refine Keeps.ite ?_ ?_
    | split

theorem tsbRetry_keeps {s0 s : State} {p : Nat} (h : Keeps s0 s) : Keeps s0 (tsbRetry s p) := by
  unfold tsbRetry
  repeat' first
    | with_reducible assumption
    | (extract_lets +onlyGivenNames x; first | (refine Keeps.letS (a := x) ?_ fun hx => ?_; rotate_left; clear_value x; revert x; rotate_left; unfold x; clear x) | (try unfold x; clear x))
    | with_reducible refine emit_keeps ?_
    | with_reducible refine setTth_keeps ?_
    | with_reducible refine tsbDone_keeps ?_
    | with_reducible refine Keeps.ite ?_ ?_
    | split

theorem execTsbAttention_runs {s0 : State} {p : Fin 32} {cause : BitVec 8} {s : State} (h : Keeps s0 s) : Runs s0 (execTsbAttention p cause s) := by
  unfold execTsbAttention
  repeat' first
    | with_reducible assumption
    | (extract_lets +onlyGivenNames x; first | (refine Keeps.letS (a := x) ?_ fun hx => ?_; rotate_left; clear_value x; revert x; rotate_left; unfold x; clear x) | (try unfold x; clear x))
    | with_reducible refine Runs.next ?_
    | with_reducible refine setFe_keeps ?_
    | with_reducible refine tsbRetry_keeps ?_
    | with_reducible refine evtSet_keeps ?_
    | with_reducible refine fsetb_keeps ?_
    | with_reducible refine tsbRead_keeps ?_
    | with_reducible refine Keeps.ite ?_ ?_

theorem execTsbCmdRead_runs {s0 : State} {m : Master} {p : Fin 32} {len : BitVec 8} {addr : BitVec 16} {s : State} (h : Keeps s0 s) : Runs s0 (execTsbCmdRead m p len addr s) := by
  unfold execTsbCmdRead
  repeat' first
    | with_reducible assumption
    | with_reducible refine Runs.next ?_
    | with_reducible refine regWrite_keeps (fun _ hy => ?_) ?_
    | with_reducible refine tsbExpert_keeps ?_

theorem execTsbCmdWrite_runs {s0 : State} {m : Master} {p : Fin 32} {len : BitVec 8} {addr : BitVec 16} {s : State} (h : Keeps s0 s) : Runs s0 (execTsbCmdWrite m p len addr s) := by
  unfold execTsbCmdWrite
  repeat' first
    | with_reducible assumption
    | with_reducible refine Runs.next ?_
    | with_reducible refine regWrite_keeps (fun _ hy => ?_) ?_
    | with_reducible refine tsbExpert_keeps ?_

theorem execTsbResponseTimeout_runs {s0 : State} {p : Fin 32} {s : State} (h : Keeps s0 s) : Runs s0 (execTsbResponseTimeout p s) := by
  unfold execTsbResponseTimeout
  repeat' first
    | with_reducible assumption
    | with_reducible refine Runs.next ?_
    | with_reducible refine tsbRetry_keeps ?_

theorem execTthCntClr_runs {s0 : State} {m : Master} {p : Fin 32} {s : State} (h : Keeps s0 s) : Runs s0 (execTthCntClr m p s) := by
  unfold execTthCntClr
  repeat' first
    | with_reducible assumption
    | with_reducible refine Runs.next ?_
    | with_reducible refine regWrite_keeps (fun _ hy => ?_) ?_
    | with_reducible refine tthClear_keeps ?_

theorem execTthPortDisable_runs {s0 : State} {m : Master} {p : Fin 32} {s : State} (h : Keeps s0 s) : Runs s0 (execTthPortDisable m p s) := by
  unfold execTthPortDisable
  repeat' first
    | with_reducible assumption
    | with_reducible refine Runs.next ?_
    | with_reducible refine regWrite_keeps (fun _ hy => ?_) ?_
    | with_reducible refine portDisable_keeps ?_

theorem execTthPortEnable_runs {s0 : State} {m : Master} {p : Fin 32} {s : State} (h : Keeps s0 s) : Runs s0 (execTthPortEnable m p s) := by
  unfold execTthPortEnable
  repeat' first
    | with_reducible assumption
    | with_reducible refine Runs.next ?_
    | with_reducible refine regWrite_keeps (fun _ hy => ?_) ?_
    | with_reducible refine portEnable_keeps ?_

theorem execTthRetrain_runs {s0 : State} {m : Master} {p : Fin 32} {s : State} (h : Keeps s0 s) : Runs s0 (execTthRetrain m p s) := by
  unfold execTthRetrain
  repeat' first
    | with_reducible assumption
    | with_reducible refine Runs.next ?_
    | with_reducible refine regWrite_keeps (fun _ hy => ?_) ?_
    | with_reducible refine portRetrain_keeps ?_

theorem execTthSbOnlyWrite_runs {s0 : State} {m : Master} {p : Fin 32} {v : Bool} {s : State} (h : Keeps s0 s) : Runs s0 (execTthSbOnlyWrite m p v s) := by
  unfold execTthSbOnlyWrite
  repeat' first
    | with_reducible assumption
    | with_reducible refine Runs.next ?_
    | with_reducible refine regWrite_keeps (fun _ hy => ?_) ?_
    | with_reducible refine phyChanged_keeps ?_
    | with_reducible refine fsetb_keeps ?_

theorem execTthWdogWrite_runs {s0 : State} {m : Master} {p : Fin 32} {us : BitVec 16} {s : State} (h : Keeps s0 s) : Runs s0 (execTthWdogWrite m p us s) := by
  unfold execTthWdogWrite
  repeat' first
    | with_reducible assumption
    | with_reducible refine Runs.next ?_
    | with_reducible refine regWrite_keeps (fun _ hy => ?_) ?_
    | with_reducible refine setWdog_keeps ?_

theorem execUpstreamLaneLoss_runs {s0 : State} {p : Fin 32} {lane : Fin 4} {s : State} (h : Keeps s0 s) : Runs s0 (execUpstreamLaneLoss p lane s) := by
  unfold execUpstreamLaneLoss
  repeat' first
    | with_reducible assumption
    | (extract_lets +onlyGivenNames x; first | (refine Keeps.letS (a := x) ?_ fun hx => ?_; rotate_left; clear_value x; revert x; rotate_left; unfold x; clear x) | (try unfold x; clear x))
    | with_reducible refine Runs.next ?_
    | with_reducible refine evtSet_keeps ?_
    | with_reducible refine retrainLane_keeps ?_
    | with_reducible refine setLanes_keeps ?_
    | with_reducible refine endStreams_keeps ?_
    | with_reducible refine allLanesLost_keeps ?_
    | with_reducible refine setPortState_keeps ?_
    | with_reducible refine startStreams_keeps ?_
    | with_reducible refine laneImpair_keeps ?_
    | with_reducible refine Keeps.ite ?_ ?_

theorem tolerance_keeps {s0 s : State} {p : Nat} (h : Keeps s0 s) : Keeps s0 (tolerance s p) := by
  unfold tolerance
  repeat' first
    | with_reducible assumption
    | (extract_lets +onlyGivenNames x; first | (refine Keeps.letS (a := x) ?_ fun hx => ?_; rotate_left; clear_value x; revert x; rotate_left; unfold x; clear x) | (try unfold x; clear x))
    | intro _ _
    | with_reducible refine setSpn_keeps ?_
    | with_reducible refine sync5_keeps ?_
    | with_reducible refine Keeps.ite ?_ ?_

theorem goodCrossing_keeps {s0 s : State} {p k dt t1 : Nat} (h : Keeps s0 s) : Keeps s0 (goodCrossing s p k dt t1) := by
  unfold goodCrossing
  repeat' first
    | with_reducible assumption
    | (extract_lets +onlyGivenNames x; first | (refine Keeps.letS (a := x) ?_ fun hx => ?_; rotate_left; clear_value x; revert x; rotate_left; unfold x; clear x) | (try unfold x; clear x))
    | intro _ _
    | with_reducible refine wrN_keeps ?_
    | with_reducible refine setSpn_keeps ?_
    | with_reducible refine fsetb_keeps ?_
    | with_reducible refine goShort_keeps ?_
    | with_reducible refine tolerance_keeps ?_
    | with_reducible refine Keeps.ite ?_ ?_

theorem execZcRecord_runs {s0 : State} {p : Fin 32} {index : BitVec 8} {stamp : BitVec 32} {s : State} (h : Keeps s0 s) : Runs s0 (execZcRecord p index stamp s) := by
  unfold execZcRecord
  repeat' first
    | with_reducible assumption
    | (extract_lets +onlyGivenNames x; first | (refine Keeps.letS (a := x) ?_ fun hx => ?_; rotate_left; clear_value x; revert x; rotate_left; unfold x; clear x) | (try unfold x; clear x))
    | intro _ _
    | with_reducible refine Runs.next ?_
    | with_reducible refine setSpn_keeps ?_
    | with_reducible refine goodCrossing_keeps ?_
    | with_reducible refine fset_keeps ?_
    | with_reducible refine stepFail_keeps ?_
    | with_reducible refine Keeps.ite ?_ ?_
    | split

theorem execZmpStatRead_runs {s0 : State} {m : Master} {s : State} (h : Keeps s0 s) : Runs s0 (execZmpStatRead m s) := by
  unfold execZmpStatRead
  repeat' first
    | with_reducible assumption
    | with_reducible refine Runs.next ?_
    | with_reducible refine regRead_keeps ?_

theorem zmsIf_keeps {s0 t u : State} {b : Bool} {e : Nat × Nat} (h : Keeps s0 u) (g : (if b then Sum.inl u else Sum.inr e) = Sum.inl t) :
    Keeps s0 t := by
  split at g
  · cases g
    exact h
  · cases g

end Sys2Proof.Machine
end

