-- ==== Sys2Proof/Laws/KeepsHost.lean ====
section
/-! SUPPORT. What every operation and every meaning leaves: the host interface, the cache, the memory, the ledger, the features, the tasks and the thermal commands. One lemma for each, named after it: an operation keeps the
queue, only adds to what was sent and keeps the invariant; a meaning answers a next state that does. -/
set_option linter.tactic.unusedName false
set_option Elab.async false
namespace Sys2Proof.Machine
open Sys2Proof

theorem abandonStart_keeps {s0 s : State} {p : Nat} (h : Keeps s0 s) : Keeps s0 (abandonStart s p) := by
  unfold abandonStart
  repeat' first
    | with_reducible assumption
    | with_reducible refine goBrake_keeps ?_
    | with_reducible refine goStopped_keeps ?_
    | with_reducible refine sendDrive_keeps ?_
    | with_reducible refine Keeps.ite ?_ ?_

theorem abortSelfTest_keeps {s0 s : State} (h : Keeps s0 s) : Keeps s0 (abortSelfTest s) := by
  unfold abortSelfTest
  repeat' first
    | with_reducible assumption
    | (extract_lets +onlyGivenNames x; first | (refine Keeps.letS (a := x) ?_ fun hx => ?_; rotate_left; clear_value x; revert x; rotate_left; unfold x; clear x) | (try unfold x; clear x))
    | with_reducible refine Keeps.upd ?_ rfl rfl rfl

theorem actStop_keeps {s0 s : State} {a : Nat} (h : Keeps s0 s) : Keeps s0 (actStop s a) := by
  unfold actStop
  repeat' first
    | with_reducible assumption
    | (extract_lets +onlyGivenNames x; first | (refine Keeps.letS (a := x) ?_ fun hx => ?_; rotate_left; clear_value x; revert x; rotate_left; unfold x; clear x) | (try unfold x; clear x))
    | intro _ _
    | with_reducible refine setBgw_keeps ?_
    | with_reducible refine syncTaskStat_keeps ?_
    | with_reducible refine Keeps.forAll ?_ fun _ _ hy => ?_
    | with_reducible refine fsetb_keeps ?_
    | with_reducible refine Keeps.ite ?_ ?_

theorem advanceZone_keeps {s0 s : State} {c : Cmd} (h : Keeps s0 s) : Keeps s0 (advanceZone s c) := by
  unfold advanceZone
  repeat' first
    | with_reducible assumption
    | (extract_lets +onlyGivenNames x; first | (refine Keeps.letS (a := x) ?_ fun hx => ?_; rotate_left; clear_value x; revert x; rotate_left; unfold x; clear x) | (try unfold x; clear x))
    | intro _ _
    | with_reducible refine flipNow_keeps ?_
    | with_reducible refine putZone_keeps ?_
    | with_reducible refine setZState_keeps ?_
    | with_reducible refine journalLater_keeps ?_
    | with_reducible refine Keeps.ite ?_ ?_

theorem taskStop_keeps {s0 s : State} {t1 : Nat} (h : Keeps s0 s) : Keeps s0 (taskStop s t1) := by
  unfold taskStop
  repeat' first
    | with_reducible assumption
    | (extract_lets +onlyGivenNames x; first | (refine Keeps.letS (a := x) ?_ fun hx => ?_; rotate_left; clear_value x; revert x; rotate_left; unfold x; clear x) | (try unfold x; clear x))
    | with_reducible refine syncTaskStat_keeps ?_
    | with_reducible refine fsetb_keeps ?_
    | with_reducible refine setBgw_keeps ?_

theorem mediaTasksStop_keeps {s0 s : State} (h : Keeps s0 s) : Keeps s0 (mediaTasksStop s) := by
  unfold mediaTasksStop
  exact Keeps.forAll h fun _ _ hy => taskStop_keeps hy

theorem ageTask_keeps {s0 s : State} {t1 : Nat} (h : Keeps s0 s) : Keeps s0 (ageTask s t1) := by
  unfold ageTask
  repeat' first
    | with_reducible assumption
    | (extract_lets +onlyGivenNames x; first | (refine Keeps.letS (a := x) ?_ fun hx => ?_; rotate_left; clear_value x; revert x; rotate_left; unfold x; clear x) | (try unfold x; clear x))
    | intro _ _
    | with_reducible refine fset_keeps ?_
    | with_reducible refine setBgw_keeps ?_
    | with_reducible refine taskSync_keeps ?_
    | with_reducible refine setCredit_keeps ?_
    | with_reducible refine taskStop_keeps ?_
    | with_reducible refine Keeps.ite ?_ ?_

theorem bandEvents_keeps {s0 s : State} {old new : Nat} (h : Keeps s0 s) : Keeps s0 (bandEvents s old new) := by
  unfold bandEvents
  repeat' first
    | with_reducible assumption
    | (extract_lets +onlyGivenNames x; first | (refine Keeps.letS (a := x) ?_ fun hx => ?_; rotate_left; clear_value x; revert x; rotate_left; unfold x; clear x) | (try unfold x; clear x))
    | intro _ _
    | with_reducible refine evtSet_keeps ?_
    | with_reducible refine count_keeps ?_
    | with_reducible refine Keeps.ite ?_ ?_

theorem cacheAsk_keeps {s0 s : State} {c : Cmd} (h : Keeps s0 s) : Keeps s0 (cacheAsk s c) := by
  unfold cacheAsk
  repeat' first
    | with_reducible assumption
    | (extract_lets +onlyGivenNames x; first | (refine Keeps.letS (a := x) ?_ fun hx => ?_; rotate_left; clear_value x; revert x; rotate_left; unfold x; clear x) | (try unfold x; clear x))
    | intro _ _
    | with_reducible refine strideTrack_keeps ?_
    | with_reducible refine Keeps.forAll ?_ fun _ _ hy => ?_
    | with_reducible refine cacheLookup_keeps ?_
    | with_reducible refine Keeps.ite ?_ ?_

theorem consumePoison_keeps {s0 s : State} {c : Cmd} (h : Keeps s0 s) : Keeps s0 (consumePoison s c) := by
  unfold consumePoison
  repeat' first
    | with_reducible assumption
    | with_reducible refine Keeps.forAll ?_ fun _ _ hy => ?_
    | with_reducible refine poisonRead_keeps ?_

theorem poisonSent_keeps {s0 s : State} {c : Cmd} {is : List Nat} (h : Keeps s0 s) : Keeps s0 (poisonSent s c is) := by
  unfold poisonSent
  repeat' first
    | with_reducible assumption
    | (extract_lets +onlyGivenNames x; first | (refine Keeps.letS (a := x) ?_ fun hx => ?_; rotate_left; clear_value x; revert x; rotate_left; unfold x; clear x) | (try unfold x; clear x))
    | intro _ _
    | with_reducible refine Keeps.forAll ?_ fun _ _ hy => ?_
    | with_reducible refine emit_keeps ?_
    | with_reducible refine evtSet_keeps ?_
    | with_reducible refine count_keeps ?_
    | with_reducible refine Keeps.ite ?_ ?_

theorem readData_keeps {s0 s : State} {c : Cmd} (h : Keeps s0 s) : Keeps s0 (readData s c) := by
  unfold readData
  repeat' first
    | with_reducible assumption
    | (extract_lets +onlyGivenNames x; first | (refine Keeps.letS (a := x) ?_ fun hx => ?_; rotate_left; clear_value x; revert x; rotate_left; unfold x; clear x) | (try unfold x; clear x))
    | intro _ _
    | with_reducible refine cacheAsk_keeps ?_
    | with_reducible refine consumePoison_keeps ?_
    | with_reducible refine setPwr_keeps ?_
    | with_reducible refine emit_keeps ?_
    | with_reducible refine setCmd_keeps ?_
    | with_reducible refine failCmd_keeps ?_
    | with_reducible refine logError_keeps ?_
    | with_reducible refine poisonSent_keeps ?_
    | with_reducible refine Keeps.ite ?_ ?_
    | split

theorem beginRead_keeps {s0 : State} {errs : List MemErr} {s : State} {c : Cmd} (h : Keeps s0 s) : Keeps s0 (beginRead errs s c) := by
  unfold beginRead
  repeat' first
    | with_reducible assumption
    | (extract_lets +onlyGivenNames x; first | (refine Keeps.letS (a := x) ?_ fun hx => ?_; rotate_left; clear_value x; revert x; rotate_left; unfold x; clear x) | (try unfold x; clear x))
    | intro _ _
    | with_reducible refine failCmd_keeps ?_
    | with_reducible refine Keeps.forAll ?_ fun _ _ hy => ?_
    | with_reducible refine foundErrors_keeps ?_
    | with_reducible refine cachePoison_keeps ?_
    | with_reducible refine readData_keeps ?_
    | with_reducible refine wakeDemand_keeps ?_
    | with_reducible refine Keeps.ite ?_ ?_
    | split

theorem failWrite_keeps {s0 s : State} {c : Cmd} {f : Nat × Nat} (h : Keeps s0 s) : Keeps s0 (failWrite s c f) := by
  unfold failWrite
  repeat' first
    | with_reducible assumption
    | with_reducible refine failCmd_keeps ?_
    | with_reducible refine count_keeps ?_
    | with_reducible refine Keeps.ite ?_ ?_

theorem openZone_keeps {s0 s t : State} {n z st : Nat} (e : openZone s n z st = some t) (h : Keeps s0 s) : Keeps s0 t := by
  simp only [openZone] at e
  split at e
  · exact Option.some.inj e ▸ h
  · obtain ⟨i, hi, rfl⟩ := Option.map_eq_some_iff.1 e
    exact setZState_keeps (takeCtx_keeps hi h)

theorem beginWrite_keeps {s0 s : State} {c : Cmd} (h : Keeps s0 s) : Keeps s0 (beginWrite s c) := by
  unfold beginWrite
  split
  · exact failWrite_keeps h
  · refine Keeps.ite ?_ (setCmd_keeps h)
    split
    · rename_i e
      exact setCmd_keeps (openZone_keeps e h)
    · exact failCmd_keeps (evtSet_keeps h)

theorem retireEffect_keeps {s0 s : State} {page result : Nat} (h : Keeps s0 s) : Keeps s0 (retireEffect s page result) := by
  unfold retireEffect
  repeat' first
    | with_reducible assumption
    | (extract_lets +onlyGivenNames x; first | (refine Keeps.letS (a := x) ?_ fun hx => ?_; rotate_left; clear_value x; revert x; rotate_left; unfold x; clear x) | (try unfold x; clear x))
    | intro _ _
    | with_reducible refine fset_keeps ?_
    | with_reducible refine fsetb_keeps ?_
    | with_reducible refine fadd_keeps ?_
    | with_reducible refine setMem_keeps ?_
    | with_reducible refine putLine_keeps ?_
    | with_reducible refine rootGrade_keeps ?_
    | with_reducible refine evtSets_keeps ?_
    | with_reducible refine Keeps.ite ?_ ?_
    | split

theorem cacheEnable_keeps {s0 s : State} (h : Keeps s0 s) : Keeps s0 (cacheEnable s) := by
  unfold cacheEnable
  repeat' first
    | with_reducible assumption
    | (extract_lets +onlyGivenNames x; first | (refine Keeps.letS (a := x) ?_ fun hx => ?_; rotate_left; clear_value x; revert x; rotate_left; unfold x; clear x) | (try unfold x; clear x))
    | intro _ _
    | with_reducible refine fsetb_keeps ?_
    | with_reducible refine setCch_keeps ?_
    | with_reducible refine fset_keeps ?_
    | with_reducible refine Keeps.ite ?_ ?_

theorem itemStart_keeps {s0 s : State} {j : CalJob} {item : Nat} (h : Keeps s0 s) : Keeps s0 (itemStart s j item) := by
  unfold itemStart
  repeat' first
    | with_reducible assumption
    | (extract_lets +onlyGivenNames x; first | (refine Keeps.letS (a := x) ?_ fun hx => ?_; rotate_left; clear_value x; revert x; rotate_left; unfold x; clear x) | (try unfold x; clear x))
    | intro _ _
    | with_reducible refine setBgw_keeps ?_
    | with_reducible refine emit_keeps ?_
    | with_reducible refine calStart_keeps ?_
    | with_reducible refine Keeps.ite ?_ ?_

theorem calStepStart_keeps {s0 s : State} {a : Nat} (h : Keeps s0 s) : Keeps s0 (calStepStart s a) := by
  unfold calStepStart
  repeat' first
    | with_reducible assumption
    | (extract_lets +onlyGivenNames x; first | (refine Keeps.letS (a := x) ?_ fun hx => ?_; rotate_left; clear_value x; revert x; rotate_left; unfold x; clear x) | (try unfold x; clear x))
    | with_reducible refine itemStart_keeps ?_
    | with_reducible refine setBgw_keeps ?_
    | with_reducible refine Keeps.ite ?_ ?_
    | split

theorem taskEnterD_keeps {s0 s d : State} {t : Nat} (h : Keeps s0 s) (hd : Keeps s0 d) : Keeps s0 ((taskEnter s t).getD d) := by
  unfold taskEnter
  split
  · exact h
  · split
    · exact h
    · exact flowEnterD_keeps h hd

theorem taskRun_keeps {s0 s : State} {t1 a : Nat} (h : Keeps s0 s) : Keeps s0 (taskRun s t1 a) := by
  unfold taskRun
  repeat' first
    | with_reducible assumption
    | (extract_lets +onlyGivenNames x; first | (refine Keeps.letS (a := x) ?_ fun hx => ?_; rotate_left; clear_value x; revert x; rotate_left; unfold x; clear x) | (try unfold x; clear x))
    | intro _ _
    | with_reducible refine setBgw_keeps ?_
    | with_reducible refine emit_keeps ?_
    | with_reducible refine taskEnterD_keeps ?_ ?_
    | with_reducible refine syncTaskStat_keeps ?_
    | with_reducible refine fsetb_keeps ?_

theorem idleTask_keeps {s0 s : State} {a : Nat} (h : Keeps s0 s) : Keeps s0 (idleTask s a) := by
  unfold idleTask
  repeat' first
    | with_reducible assumption
    | with_reducible refine taskRun_keeps ?_
    | split

theorem boundaryItem_keeps {s0 s : State} {a : Nat} {waiting : Bool} (h : Keeps s0 s) : Keeps s0 (boundaryItem s a waiting) := by
  unfold boundaryItem
  repeat' first
    | with_reducible assumption
    | with_reducible refine calStepStart_keeps ?_
    | with_reducible refine count_keeps ?_
    | with_reducible refine taskRun_keeps ?_
    | with_reducible refine idleTask_keeps ?_
    | with_reducible refine Keeps.ite ?_ ?_
    | split

theorem cacheCmdEnd_keeps {s0 s : State} (h : Keeps s0 s) : Keeps s0 (cacheCmdEnd s) := by
  unfold cacheCmdEnd
  repeat' first
    | with_reducible assumption
    | (extract_lets +onlyGivenNames x; first | (refine Keeps.letS (a := x) ?_ fun hx => ?_; rotate_left; clear_value x; revert x; rotate_left; unfold x; clear x) | (try unfold x; clear x))
    | with_reducible refine adminOk_keeps ?_
    | with_reducible refine setCch_keeps ?_
    | split

theorem cacheDisable_keeps {s0 s : State} (h : Keeps s0 s) : Keeps s0 (cacheDisable s) := by
  unfold cacheDisable
  repeat' first
    | with_reducible assumption
    | (extract_lets +onlyGivenNames x; first | (refine Keeps.letS (a := x) ?_ fun hx => ?_; rotate_left; clear_value x; revert x; rotate_left; unfold x; clear x) | (try unfold x; clear x))
    | intro _ _
    | with_reducible refine fsetb_keeps ?_
    | with_reducible refine setCch_keeps ?_
    | with_reducible refine fset_keeps ?_
    | with_reducible refine Keeps.ite ?_ ?_

theorem cacheInvalidate_keeps {s0 s : State} (h : Keeps s0 s) : Keeps s0 (cacheInvalidate s) := by
  unfold cacheInvalidate
  repeat' first
    | with_reducible assumption
    | (extract_lets +onlyGivenNames x; first | (refine Keeps.letS (a := x) ?_ fun hx => ?_; rotate_left; clear_value x; revert x; rotate_left; unfold x; clear x) | (try unfold x; clear x))
    | with_reducible refine fsetb_keeps ?_
    | with_reducible refine setCch_keeps ?_
    | with_reducible refine Keeps.ite ?_ ?_

theorem calFinish_keeps {s0 s : State} {j : CalJob} (h : Keeps s0 s) : Keeps s0 (calFinish s j) := by
  unfold calFinish
  repeat' first
    | with_reducible assumption
    | (extract_lets +onlyGivenNames x; first | (refine Keeps.letS (a := x) ?_ fun hx => ?_; rotate_left; clear_value x; revert x; rotate_left; unfold x; clear x) | (try unfold x; clear x))
    | intro _ _
    | with_reducible refine setBgw_keeps ?_
    | with_reducible refine fset_keeps ?_
    | with_reducible refine wbit_keeps ?_
    | with_reducible refine count_keeps ?_
    | with_reducible refine Keeps.forAll ?_ fun _ _ hy => ?_
    | with_reducible refine adminOk_keeps ?_
    | with_reducible refine calPend_keeps ?_
    | with_reducible refine Keeps.ite ?_ ?_
    | split
    | with_reducible refine Keeps.upd ?_ rfl rfl rfl

theorem itemStore_keeps {s0 s : State} {a h1 item v1 v2 : Nat} (h : Keeps s0 s) : Keeps s0 (itemStore s a h1 item v1 v2) := by
  unfold itemStore
  repeat' first
    | with_reducible assumption
    | (extract_lets +onlyGivenNames x; first | (refine Keeps.letS (a := x) ?_ fun hx => ?_; rotate_left; clear_value x; revert x; rotate_left; unfold x; clear x) | (try unfold x; clear x))
    | with_reducible refine fwSet_keeps ?_
    | with_reducible refine Keeps.ite ?_ ?_

theorem itemPass_keeps {s0 s : State} {a h1 item v1 v2 : Nat} {verify : Bool} (h : Keeps s0 s) : Keeps s0 (itemPass s a h1 item v1 v2 verify) := by
  unfold itemPass
  repeat' first
    | with_reducible assumption
    | (extract_lets +onlyGivenNames x; first | (refine Keeps.letS (a := x) ?_ fun hx => ?_; rotate_left; clear_value x; revert x; rotate_left; unfold x; clear x) | (try unfold x; clear x))
    | intro _ _
    | with_reducible refine setBgw_keeps ?_
    | with_reducible refine itemStore_keeps ?_
    | with_reducible refine Keeps.ite ?_ ?_

theorem itemFail_keeps {s0 s : State} {a h1 item : Nat} (h : Keeps s0 s) : Keeps s0 (itemFail s a h1 item) := by
  unfold itemFail
  repeat' first
    | with_reducible assumption
    | (extract_lets +onlyGivenNames x; first | (refine Keeps.letS (a := x) ?_ fun hx => ?_; rotate_left; clear_value x; revert x; rotate_left; unfold x; clear x) | (try unfold x; clear x))
    | intro _ _
    | with_reducible refine evtSet_keeps ?_
    | with_reducible refine fset_keeps ?_
    | with_reducible refine setBgw_keeps ?_
    | with_reducible refine leafGrade_keeps ?_
    | with_reducible refine Keeps.ite ?_ ?_
    | split

theorem calTaps_keeps {s0 s : State} {a h1 : Nat} (h : Keeps s0 s) : Keeps s0 (calTaps s a h1) := by
  unfold calTaps
  repeat' first
    | with_reducible assumption
    | with_reducible refine drawn_keeps ?_
    | with_reducible refine Keeps.forAll ?_ fun _ _ hy => ?_
    | with_reducible refine fwSet_keeps ?_

theorem calStepEnd_keeps {s0 s : State} {j : CalJob} (h : Keeps s0 s) : Keeps s0 (calStepEnd s j) := by
  unfold calStepEnd
  repeat' first
    | with_reducible assumption
    | (extract_lets +onlyGivenNames x; first | (refine Keeps.letS (a := x) ?_ fun hx => ?_; rotate_left; clear_value x; revert x; rotate_left; unfold x; clear x) | (try unfold x; clear x))
    | intro _ _
    | with_reducible refine calTaps_keeps ?_
    | with_reducible refine count_keeps ?_
    | with_reducible refine calFinish_keeps ?_
    | with_reducible refine setBgw_keeps ?_
    | with_reducible refine Keeps.ite ?_ ?_

theorem calItemDone_keeps {s0 s : State} {a : Fin 64} {j : CalJob} {good : Bool} {v1 v2 : BitVec 16} {widths : List (BitVec 16)} (h : Keeps s0 s) : Keeps s0 (calItemDone s a j good v1 v2 widths) := by
  unfold calItemDone
  repeat' first
    | with_reducible assumption
    | (extract_lets +onlyGivenNames x; first | (refine Keeps.letS (a := x) ?_ fun hx => ?_; rotate_left; clear_value x; revert x; rotate_left; unfold x; clear x) | (try unfold x; clear x))
    | intro _ _
    | with_reducible refine itemPass_keeps ?_
    | with_reducible refine itemFail_keeps ?_
    | with_reducible refine Keeps.forAll ?_ fun _ _ hy => ?_
    | with_reducible refine wr_keeps ?_
    | with_reducible refine calEnd_keeps ?_
    | with_reducible refine itemStart_keeps ?_
    | with_reducible refine calStepEnd_keeps ?_
    | with_reducible refine Keeps.ite ?_ ?_

theorem calTrigger_keeps {s0 s : State} {p : Nat} (h : Keeps s0 s) : Keeps s0 (calTrigger s p) := by
  unfold calTrigger
  repeat' first
    | with_reducible assumption
    | (extract_lets +onlyGivenNames x; first | (refine Keeps.letS (a := x) ?_ fun hx => ?_; rotate_left; clear_value x; revert x; rotate_left; unfold x; clear x) | (try unfold x; clear x))
    | with_reducible refine Keeps.forAll ?_ fun _ _ hy => ?_
    | with_reducible refine calPend_keeps ?_
    | with_reducible refine Keeps.ite ?_ ?_

theorem calqWrite_keeps {s0 s : State} {hi : Bool} {w : Word} (h : Keeps s0 s) : Keeps s0 (calqWrite s hi w) := by
  unfold calqWrite
  repeat' first
    | with_reducible assumption
    | with_reducible refine Keeps.forAll ?_ fun _ _ hy => ?_
    | with_reducible refine calPend_keeps ?_
    | with_reducible refine Keeps.ite ?_ ?_

theorem celogClear_keeps {s0 s : State} (h : Keeps s0 s) : Keeps s0 (celogClear s) := by
  unfold celogClear
  repeat' first
    | with_reducible assumption
    | with_reducible refine fsetb_keeps ?_
    | with_reducible refine Keeps.forAll ?_ fun _ _ hy => ?_
    | with_reducible refine celogFree_keeps ?_

theorem digest_keeps {s0 s : State} {c : Cmd} {lba sct sc : Nat} (h : Keeps s0 s) : Keeps s0 (digest s c lba sct sc) := by
  unfold digest
  repeat' first
    | with_reducible assumption
    | (extract_lets +onlyGivenNames x; first | (refine Keeps.letS (a := x) ?_ fun hx => ?_; rotate_left; clear_value x; revert x; rotate_left; unfold x; clear x) | (try unfold x; clear x))
    | with_reducible refine mirror_keeps ?_

theorem settleExts_keeps {s0 s : State} {c : Cmd} {lba wseq : Nat} (h : Keeps s0 s) : Keeps s0 (settleExts s c lba wseq) := by
  unfold settleExts
  repeat' first
    | with_reducible assumption
    | (extract_lets +onlyGivenNames x; first | (refine Keeps.letS (a := x) ?_ fun hx => ?_; rotate_left; clear_value x; revert x; rotate_left; unfold x; clear x) | (try unfold x; clear x))
    | with_reducible refine setZmp_keeps ?_

theorem commitWrite_keeps {s0 s : State} {c : Cmd} {lba : Nat} (h : Keeps s0 s) : Keeps s0 (commitWrite s c lba) := by
  unfold commitWrite
  repeat' first
    | with_reducible assumption
    | (extract_lets +onlyGivenNames x; first | (refine Keeps.letS (a := x) ?_ fun hx => ?_; rotate_left; clear_value x; revert x; rotate_left; unfold x; clear x) | (try unfold x; clear x))
    | intro _ _
    | with_reducible refine settleExts_keeps ?_
    | with_reducible refine advanceZone_keeps ?_
    | with_reducible refine releaseDirty_keeps ?_
    | with_reducible refine setPwr_keeps ?_
    | with_reducible refine syncDirty_keeps ?_
    | with_reducible refine placeData_keeps ?_
    | with_reducible refine settleLines_keeps ?_
    | with_reducible refine Keeps.ite ?_ ?_

theorem commitFail_keeps {s0 s : State} {c : Cmd} {q : Nat} {cq : Cq} {f : Nat × Nat} (h : Keeps s0 s) : Keeps s0 (commitFail s c q cq f) := by
  unfold commitFail
  repeat' first
    | with_reducible assumption
    | (extract_lets +onlyGivenNames x; first | (refine Keeps.letS (a := x) ?_ fun hx => ?_; rotate_left; clear_value x; revert x; rotate_left; unfold x; clear x) | (try unfold x; clear x))
    | intro _ _
    | with_reducible refine count_keeps ?_
    | with_reducible refine postCqe_keeps ?_
    | with_reducible refine digest_keeps ?_
    | with_reducible refine discardData_keeps ?_
    | with_reducible refine Keeps.ite ?_ ?_

theorem openPoison_keeps {s0 s : State} {c : Cmd} (h : Keeps s0 s) : Keeps s0 (openPoison s c).1 := by
  unfold openPoison
  suffices g : ∀ (l : List Nat) (r : State × Bool), Keeps s0 r.1 → Keeps s0 (l.foldl (fun r i =>
      let x := lineRead r.1 0 (openKey c.order i)
      (x.1, r.2 || x.2)) r).1 from g _ _ h
  intro l
  induction l with
  | nil => exact fun _ hr => hr
  | cons i l ih => exact fun r hr => ih _ (lineRead_keeps hr)

theorem commit_keeps {s0 s : State} {c : Cmd} {q : Nat} {cq : Cq} (h : Keeps s0 s) : Keeps s0 (commit s c q cq) := by
  unfold commit
  repeat' first
    | with_reducible assumption
    | (extract_lets +onlyGivenNames x; first | (refine Keeps.letS (a := x) ?_ fun hx => ?_; rotate_left; clear_value x; revert x; rotate_left; unfold x; clear x) | (try unfold x; clear x))
    | intro _ _
    | with_reducible refine postCqe_keeps ?_
    | with_reducible refine digest_keeps ?_
    | with_reducible refine commitWrite_keeps ?_
    | with_reducible refine evtSet_keeps ?_
    | with_reducible refine setZState_keeps ?_
    | with_reducible refine commitFail_keeps ?_
    | with_reducible refine openPoison_keeps ?_
    | with_reducible refine Keeps.ite ?_ ?_
    | split

theorem dataLost_keeps {s0 s : State} {x1 : HPort} {sqid cid : BitVec 16} {poisoned : Bool} (h : Keeps s0 s) : Keeps s0 (dataLost s x1 sqid cid poisoned) := by
  unfold dataLost
  repeat' first
    | with_reducible assumption
    | (extract_lets +onlyGivenNames x; first | (refine Keeps.letS (a := x) ?_ fun hx => ?_; rotate_left; clear_value x; revert x; rotate_left; unfold x; clear x) | (try unfold x; clear x))
    | intro _ _
    | with_reducible refine setCtl_keeps ?_
    | with_reducible refine evtSet_keeps ?_
    | with_reducible refine count_keeps ?_
    | with_reducible refine failCmd_keeps ?_
    | with_reducible refine Keeps.ite ?_ ?_
    | split

theorem destageExt_keeps {s0 s : State} {e : Ext} (h : Keeps s0 s) : Keeps s0 (destageExt s e) := by
  unfold destageExt
  repeat' first
    | with_reducible assumption
    | with_reducible refine cleanExt_keeps ?_
    | with_reducible refine extentHome_keeps ?_
    | with_reducible refine releaseDirty_keeps ?_
    | with_reducible refine stageExtent_keeps ?_
    | with_reducible refine Keeps.ite ?_ ?_

theorem destage_keeps {s0 s : State} {e : Ext} (h : Keeps s0 s) : Keeps s0 (destage s e) := by
  unfold destage
  repeat' first
    | with_reducible assumption
    | (extract_lets +onlyGivenNames x; first | (refine Keeps.letS (a := x) ?_ fun hx => ?_; rotate_left; clear_value x; revert x; rotate_left; unfold x; clear x) | (try unfold x; clear x))
    | intro _ _
    | with_reducible refine sweepExt_keeps ?_
    | with_reducible refine Keeps.forAll ?_ fun _ _ hy => ?_
    | with_reducible refine destageExt_keeps ?_

theorem deviceBand_keeps {s0 s : State} (h : Keeps s0 s) : Keeps s0 (deviceBand s) := by
  unfold deviceBand
  repeat' first
    | with_reducible assumption
    | (extract_lets +onlyGivenNames x; first | (refine Keeps.letS (a := x) ?_ fun hx => ?_; rotate_left; clear_value x; revert x; rotate_left; unfold x; clear x) | (try unfold x; clear x))
    | with_reducible refine bandEvents_keeps ?_
    | with_reducible refine fset_keeps ?_

theorem dieJudge_keeps {s0 s : State} (h : Keeps s0 s) : Keeps s0 (dieJudge s) := by
  unfold dieJudge
  repeat' first
    | with_reducible assumption
    | (extract_lets +onlyGivenNames x; first | (refine Keeps.letS (a := x) ?_ fun hx => ?_; rotate_left; clear_value x; revert x; rotate_left; unfold x; clear x) | (try unfold x; clear x))
    | intro _ _
    | with_reducible refine setBgw_keeps ?_
    | with_reducible refine fset_keeps ?_
    | with_reducible refine rootGrade_keeps ?_
    | with_reducible refine evtSet_keeps ?_
    | with_reducible refine ungradeUnit_keeps ?_
    | with_reducible refine Keeps.ite ?_ ?_

theorem readNow_keeps {s0 s : State} {k : Nat} (h : Keeps s0 s) : Keeps s0 (readNow s k) := by
  unfold readNow
  repeat' first
    | with_reducible assumption
    | with_reducible refine setBgw_keeps ?_

theorem sensorFault_keeps {s0 s : State} (h : Keeps s0 s) : Keeps s0 (sensorFault s) := by
  unfold sensorFault
  repeat' first
    | with_reducible assumption
    | with_reducible refine evtSet_keeps ?_
    | with_reducible refine count_keeps ?_

theorem dieRead_keeps {s0 s : State} {temps : List (BitVec 16)} (h : Keeps s0 s) : Keeps s0 (dieRead s temps) := by
  unfold dieRead
  repeat' first
    | with_reducible assumption
    | with_reducible refine Keeps.forAll ?_ fun _ _ hy => ?_
    | with_reducible refine readNow_keeps ?_
    | with_reducible refine fset_keeps ?_
    | with_reducible refine sensorFault_keeps ?_
    | with_reducible refine Keeps.ite ?_ ?_

theorem donorBrakes_keeps {s0 s : State} {p : Nat} (h : Keeps s0 s) : Keeps s0 (donorBrakes s p) := by
  unfold donorBrakes
  repeat' first
    | with_reducible assumption
    | (extract_lets +onlyGivenNames x; first | (refine Keeps.letS (a := x) ?_ fun hx => ?_; rotate_left; clear_value x; revert x; rotate_left; unfold x; clear x) | (try unfold x; clear x))
    | intro _ _
    | with_reducible refine setSpnState_keeps ?_
    | with_reducible refine setSpn_keeps ?_
    | with_reducible refine sendRegen_keeps ?_
    | with_reducible refine spnSlotRef_keeps ?_
    | with_reducible refine Keeps.upd ?_ rfl rfl rfl

theorem writeBack_keeps {s0 s : State} {f : Nat} {l : CacheLine} (h : Keeps s0 s) : Keeps s0 (writeBack s f l) := by
  unfold writeBack
  repeat' first
    | with_reducible assumption
    | (extract_lets +onlyGivenNames x; first | (refine Keeps.letS (a := x) ?_ fun hx => ?_; rotate_left; clear_value x; revert x; rotate_left; unfold x; clear x) | (try unfold x; clear x))
    | intro _ _
    | with_reducible refine syncDirty_keeps ?_
    | with_reducible refine setZmp_keeps ?_
    | with_reducible refine count_keeps ?_
    | with_reducible refine putLine_keeps ?_

theorem drainLines_keeps {s0 s t : State} (e : drainLines s = some t) (h : Keeps s0 s) : Keeps s0 t := by
  simp only [drainLines] at e
  split at e
  · exact Option.some.inj e ▸ Keeps.forAll h fun _ _ hy => writeBack_keeps hy
  · cases e

theorem setBal_keeps {s0 s : State} {f : BalState → BalState} (h : Keeps s0 s) : Keeps s0 (setBal s f) := by
  unfold setBal
  repeat' first
    | with_reducible assumption
    | with_reducible refine Keeps.upd ?_ rfl rfl rfl

theorem homeWritesEnd_keeps {s0 s : State} {f : Nat} (h : Keeps s0 s) : Keeps s0 (homeWritesEnd s f) := by
  unfold homeWritesEnd
  repeat' first
    | with_reducible assumption
    | (extract_lets +onlyGivenNames x; first | (refine Keeps.letS (a := x) ?_ fun hx => ?_; rotate_left; clear_value x; revert x; rotate_left; unfold x; clear x) | (try unfold x; clear x))
    | intro _ _
    | with_reducible refine setFseq_keeps ?_
    | with_reducible refine fSync_keeps ?_
    | with_reducible refine Keeps.forAll ?_ fun _ _ hy => ?_
    | with_reducible refine pushResult_keeps ?_

theorem enterSafe_keeps {s0 s : State} (h : Keeps s0 s) : Keeps s0 (enterSafe s) := by
  unfold enterSafe
  repeat' first
    | with_reducible assumption
    | (extract_lets +onlyGivenNames x; first | (refine Keeps.letS (a := x) ?_ fun hx => ?_; rotate_left; clear_value x; revert x; rotate_left; unfold x; clear x) | (try unfold x; clear x))
    | intro _ _
    | with_reducible refine selfTestEnd_keeps ?_
    | with_reducible refine abandonCal_keeps ?_
    | with_reducible refine fset_keeps ?_
    | with_reducible refine fsetb_keeps ?_
    | with_reducible refine setMode_keeps ?_
    | with_reducible refine mediaTasksStop_keeps ?_
    | with_reducible refine evtSet_keeps ?_
    | with_reducible refine count_keeps ?_
    | with_reducible refine Keeps.forAll ?_ fun _ _ hy => ?_
    | with_reducible refine setBal_keeps ?_
    | with_reducible refine homeWritesEnd_keeps ?_
    | with_reducible refine donorBrakes_keeps ?_
    | with_reducible refine abandonStart_keeps ?_

theorem judgeDeficit_keeps {s0 s : State} (h : Keeps s0 s) : Keeps s0 (judgeDeficit s) := by
  unfold judgeDeficit
  repeat' first
    | with_reducible assumption
    | (extract_lets +onlyGivenNames x; first | (refine Keeps.letS (a := x) ?_ fun hx => ?_; rotate_left; clear_value x; revert x; rotate_left; unfold x; clear x) | (try unfold x; clear x))
    | intro _ _
    | with_reducible refine setBal_keeps ?_
    | with_reducible refine forceDestage_keeps ?_
    | with_reducible refine rootGrade_keeps ?_
    | with_reducible refine evtSet_keeps ?_
    | with_reducible refine count_keeps ?_
    | with_reducible refine ungradeUnit_keeps ?_
    | with_reducible refine Keeps.ite ?_ ?_

theorem putMech_keeps {s0 : State} {pl : LedgerPlan} {s : State} {p : Nat} (h : Keeps s0 s) : Keeps s0 (putMech pl s p) := by
  unfold putMech
  repeat' first
    | with_reducible assumption
    | (extract_lets +onlyGivenNames x; first | (refine Keeps.letS (a := x) ?_ fun hx => ?_; rotate_left; clear_value x; revert x; rotate_left; unfold x; clear x) | (try unfold x; clear x))
    | intro _ _
    | with_reducible refine fset_keeps ?_
    | with_reducible refine wr_keeps ?_

theorem putPlan_keeps {s0 s : State} {pl : LedgerPlan} (h : Keeps s0 s) : Keeps s0 (putPlan s pl) := by
  unfold putPlan
  repeat' first
    | with_reducible assumption
    | (extract_lets +onlyGivenNames x; first | (refine Keeps.letS (a := x) ?_ fun hx => ?_; rotate_left; clear_value x; revert x; rotate_left; unfold x; clear x) | (try unfold x; clear x))
    | intro _ _
    | with_reducible refine fset_keeps ?_
    | with_reducible refine wrN_keeps ?_
    | with_reducible refine Keeps.forAll ?_ fun _ _ hy => ?_
    | with_reducible refine putMech_keeps ?_

theorem retryHeld_keeps {s0 s : State} {x1 : Nat × Nat × Nat} (h : Keeps s0 s) : Keeps s0 (retryHeld s x1) := by
  unfold retryHeld
  repeat' first
    | with_reducible assumption
    | (extract_lets +onlyGivenNames x; first | (refine Keeps.letS (a := x) ?_ fun hx => ?_; rotate_left; clear_value x; revert x; rotate_left; unfold x; clear x) | (try unfold x; clear x))
    | intro _ _
    | with_reducible refine setBal_keeps ?_
    | with_reducible refine askStep_keeps ?_
    | with_reducible refine fsetb_keeps ?_
    | with_reducible refine doStop_keeps ?_
    | with_reducible refine Keeps.ite ?_ ?_

theorem evaluate_keeps {s0 s : State} (h : Keeps s0 s) : Keeps s0 (evaluate s) := by
  unfold evaluate
  repeat' first
    | with_reducible assumption
    | (extract_lets +onlyGivenNames x; first | (refine Keeps.letS (a := x) ?_ fun hx => ?_; rotate_left; clear_value x; revert x; rotate_left; unfold x; clear x) | (try unfold x; clear x))
    | intro _ _
    | with_reducible refine judgeDeficit_keeps ?_
    | with_reducible refine syncVused_keeps ?_
    | with_reducible refine putPlan_keeps ?_
    | with_reducible refine Keeps.forAll ?_ fun _ _ hy => ?_
    | with_reducible refine retryHeld_keeps ?_
    | with_reducible refine mirror_keeps ?_
    | with_reducible refine Keeps.ite ?_ ?_

theorem execAbort_runs {s0 : State} {x1 : HPort} {cid sqid acid : BitVec 16} {outstanding : BitVec 4} {s : State} (h : Keeps s0 s) : Runs s0 (execAbort x1 cid sqid acid outstanding s) := by
  unfold execAbort
  repeat' first
    | with_reducible assumption
    | (extract_lets +onlyGivenNames x; first | (refine Keeps.letS (a := x) ?_ fun hx => ?_; rotate_left; clear_value x; revert x; rotate_left; unfold x; clear x) | (try unfold x; clear x))
    | with_reducible refine Runs.next ?_
    | with_reducible refine adminCmd_keeps (fun _ hy => ?_) ?_
    | with_reducible refine adminOk_keeps ?_
    | with_reducible refine count_keeps ?_
    | with_reducible refine adminEnd_keeps ?_
    | with_reducible refine abortSelfTest_keeps ?_
    | with_reducible refine failCmd_keeps ?_
    | with_reducible refine Keeps.ite ?_ ?_
    | split
    | with_reducible refine Keeps.upd ?_ rfl rfl rfl

theorem foreground_keeps {s0 s : State} {a used : Nat} (h : Keeps s0 s) : Keeps s0 (foreground s a used) := by
  unfold foreground
  repeat' first
    | with_reducible assumption
    | with_reducible refine setBgw_keeps ?_

theorem urgentWake_keeps {s0 s : State} {a : Nat} (h : Keeps s0 s) : Keeps s0 (urgentWake s a) := by
  unfold urgentWake
  repeat' first
    | with_reducible assumption
    | with_reducible refine count_keeps ?_
    | with_reducible refine wakeDemand_keeps ?_
    | with_reducible refine Keeps.ite ?_ ?_
    | split

theorem idleRevs_keeps {s0 s : State} {a revs : Nat} (h : Keeps s0 s) : Keeps s0 (idleRevs s a revs).1 := by
  unfold idleRevs
  repeat' first
    | with_reducible assumption
    | split
    | dsimp only
    | (extract_lets +onlyGivenNames x; first | (refine Keeps.letS (a := x) ?_ fun hx => ?_; rotate_left; clear_value x; revert x; rotate_left; unfold x; clear x) | (try unfold x; clear x))
    | with_reducible refine setBgw_keeps ?_
    | with_reducible refine count_keeps ?_

theorem execActuatorCommandBoundary_runs {s0 : State} {a : Fin 64} {waiting : Bool} {used : BitVec 32} {revs : BitVec 8} {s : State} (h : Keeps s0 s) : Runs s0 (execActuatorCommandBoundary a waiting used revs s) := by
  unfold execActuatorCommandBoundary
  repeat' first
    | with_reducible assumption
    | (extract_lets +onlyGivenNames x; first | (refine Keeps.letS (a := x) ?_ fun hx => ?_; rotate_left; clear_value x; revert x; rotate_left; unfold x; clear x) | (try unfold x; clear x))
    | with_reducible refine Runs.next ?_
    | with_reducible refine foreground_keeps ?_
    | with_reducible refine urgentWake_keeps ?_
    | with_reducible refine actStop_keeps ?_
    | with_reducible refine idleRevs_keeps ?_
    | with_reducible refine boundaryItem_keeps ?_
    | with_reducible refine Keeps.ite ?_ ?_

theorem execAsyncEventRequest_runs {s0 : State} {x1 : HPort} {cid : BitVec 16} {s : State} (h : Keeps s0 s) : Runs s0 (execAsyncEventRequest x1 cid s) := by
  unfold execAsyncEventRequest
  repeat' first
    | with_reducible assumption
    | (extract_lets +onlyGivenNames x; first | (refine Keeps.letS (a := x) ?_ fun hx => ?_; rotate_left; clear_value x; revert x; rotate_left; unfold x; clear x) | (try unfold x; clear x))
    | with_reducible refine Runs.next ?_
    | with_reducible refine adminCmd_keeps (fun _ hy => ?_) ?_
    | with_reducible refine emit_keeps ?_
    | with_reducible refine adminEnd_keeps ?_
    | with_reducible refine Keeps.ite ?_ ?_
    | split
    | with_reducible refine Keeps.upd ?_ rfl rfl rfl

theorem execCacheDisable_runs {s0 : State} {m : Master} {s : State} (h : Keeps s0 s) : Runs s0 (execCacheDisable m s) := by
  unfold execCacheDisable
  repeat' first
    | with_reducible assumption
    | with_reducible refine Runs.next ?_
    | with_reducible refine regWrite_keeps (fun _ hy => ?_) ?_
    | with_reducible refine cacheDisable_keeps ?_

theorem execCacheDrainDone_runs {s0 s : State} (h : Keeps s0 s) : Runs s0 (execCacheDrainDone s) := by
  unfold execCacheDrainDone
  refine Runs.next (Keeps.ite h ?_)
  split
  · exact evtSet_keeps h
  · rename_i e
    exact cacheCmdEnd_keeps (evtSet_keeps (fset_keeps (drainLines_keeps e h)))

theorem execCacheEnable_runs {s0 : State} {m : Master} {s : State} (h : Keeps s0 s) : Runs s0 (execCacheEnable m s) := by
  unfold execCacheEnable
  repeat' first
    | with_reducible assumption
    | with_reducible refine Runs.next ?_
    | with_reducible refine regWrite_keeps (fun _ hy => ?_) ?_
    | with_reducible refine cacheEnable_keeps ?_

theorem fillFrame_keeps {s0 s : State} {x1 : CacheFill} {f : Nat} (h : Keeps s0 s) : Keeps s0 (fillFrame s x1 f) := by
  unfold fillFrame
  repeat' first
    | with_reducible assumption
    | (extract_lets +onlyGivenNames x; first | (refine Keeps.letS (a := x) ?_ fun hx => ?_; rotate_left; clear_value x; revert x; rotate_left; unfold x; clear x) | (try unfold x; clear x))
    | intro _ _
    | with_reducible refine count_keeps ?_
    | with_reducible refine putLine_keeps ?_
    | with_reducible refine cacheTouch_keeps ?_
    | with_reducible refine Keeps.forAll ?_ fun _ _ hy => ?_
    | with_reducible refine subWritten_keeps ?_
    | with_reducible refine Keeps.ite ?_ ?_
    | split

theorem execCacheFillDone_runs {s0 : State} {i : BitVec 16} {s : State} (h : Keeps s0 s) : Runs s0 (execCacheFillDone i s) := by
  unfold execCacheFillDone
  repeat' first
    | with_reducible assumption
    | (extract_lets +onlyGivenNames x; first | (refine Keeps.letS (a := x) ?_ fun hx => ?_; rotate_left; clear_value x; revert x; rotate_left; unfold x; clear x) | (try unfold x; clear x))
    | with_reducible refine Runs.next ?_
    | with_reducible refine setCch_keeps ?_
    | with_reducible refine fillFrame_keeps ?_
    | with_reducible refine Keeps.ite ?_ ?_
    | split

theorem execCacheInvalidate_runs {s0 : State} {m : Master} {s : State} (h : Keeps s0 s) : Runs s0 (execCacheInvalidate m s) := by
  unfold execCacheInvalidate
  repeat' first
    | with_reducible assumption
    | with_reducible refine Runs.next ?_
    | with_reducible refine regWrite_keeps (fun _ hy => ?_) ?_
    | with_reducible refine cacheInvalidate_keeps ?_

theorem execCacheInvalidateDone_runs {s0 s : State} (h : Keeps s0 s) : Runs s0 (execCacheInvalidateDone s) := by
  unfold execCacheInvalidateDone
  refine Runs.next (Keeps.ite h ?_)
  split
  · exact evtSet_keeps h
  · rename_i e
    have g : ∀ f, Keeps s0 (evtSet (fsetb (fsetb (syncCache (setCch _ f)) CCH_STAT CCH_STAT_STALE false) CCH_STAT
        CCH_STAT_INV_BUSY false) .cch CCH_EVT_INV_DONE) :=
      fun _ => evtSet_keeps (fsetb_keeps (fsetb_keeps (syncCache_keeps (setCch_keeps (drainLines_keeps e h)))))
    exact Keeps.ite (fset_keeps (g _)) (g _)

theorem execCacheWritebackDone_runs {s0 : State} {i : BitVec 16} {s : State} (h : Keeps s0 s) : Runs s0 (execCacheWritebackDone i s) := by
  unfold execCacheWritebackDone
  repeat' first
    | with_reducible assumption
    | (extract_lets +onlyGivenNames x; first | (refine Keeps.letS (a := x) ?_ fun hx => ?_; rotate_left; clear_value x; revert x; rotate_left; unfold x; clear x) | (try unfold x; clear x))
    | intro _ _
    | with_reducible refine Runs.next ?_
    | with_reducible refine setCch_keeps ?_
    | with_reducible refine evtSet_keeps ?_
    | with_reducible refine writeBack_keeps ?_
    | with_reducible refine count_keeps ?_
    | with_reducible refine beginFill_keeps ?_
    | with_reducible refine Keeps.ite ?_ ?_
    | split

theorem execCalibrateActuator_runs {s0 : State} {x1 : HPort} {cid : BitVec 16} {a : BitVec 6} {one : Bool} {h1 : BitVec 4} {s : State} (h : Keeps s0 s) : Runs s0 (execCalibrateActuator x1 cid a one h1 s) := by
  unfold execCalibrateActuator
  repeat' first
    | with_reducible assumption
    | (extract_lets +onlyGivenNames x; first | (refine Keeps.letS (a := x) ?_ fun hx => ?_; rotate_left; clear_value x; revert x; rotate_left; unfold x; clear x) | (try unfold x; clear x))
    | intro _ _
    | with_reducible refine Runs.next ?_
    | with_reducible refine adminCmd_keeps (fun _ hy => ?_) ?_
    | with_reducible refine claimHeld_keeps ?_
    | with_reducible refine invalidField_keeps ?_
    | with_reducible refine calPend_keeps ?_
    | with_reducible refine wakeDemand_keeps ?_
    | with_reducible refine Keeps.ite ?_ ?_
    | split

theorem execCalibrationItemDone_runs {s0 : State} {a : Fin 64} {pass : Bool} {v1 v2 : BitVec 16} {widths : List (BitVec 16)} {s : State} (h : Keeps s0 s) : Runs s0 (execCalibrationItemDone a pass v1 v2 widths s) := by
  unfold execCalibrationItemDone
  repeat' first
    | with_reducible assumption
    | with_reducible refine Runs.next ?_
    | with_reducible refine calItemDone_keeps ?_
    | with_reducible refine Keeps.ite ?_ ?_
    | split

theorem execCalqWrite_runs {s0 : State} {m : Master} {hi : Bool} {value : Word} {s : State} (h : Keeps s0 s) : Runs s0 (execCalqWrite m hi value s) := by
  unfold execCalqWrite
  repeat' first
    | with_reducible assumption
    | with_reducible refine Runs.next ?_
    | with_reducible refine regWrite_keeps (fun _ hy => ?_) ?_
    | with_reducible refine calqWrite_keeps ?_

theorem execCcEnClear_runs {s0 : State} {x1 : HPort} {s : State} (h : Keeps s0 s) : Runs s0 (execCcEnClear x1 s) := by
  unfold execCcEnClear
  repeat' first
    | with_reducible assumption
    | with_reducible refine Runs.next ?_
    | with_reducible refine controllerReset_keeps ?_
    | with_reducible refine Keeps.ite ?_ ?_

theorem execCcEnSet_runs {s0 : State} {x1 : HPort} {s : State} (h : Keeps s0 s) : Runs s0 (execCcEnSet x1 s) := by
  unfold execCcEnSet
  repeat' first
    | with_reducible assumption
    | (extract_lets +onlyGivenNames x; first | (refine Keeps.letS (a := x) ?_ fun hx => ?_; rotate_left; clear_value x; revert x; rotate_left; unfold x; clear x) | (try unfold x; clear x))
    | with_reducible refine Runs.next ?_
    | with_reducible refine psUpdate_keeps ?_
    | with_reducible refine raiseReady_keeps ?_
    | with_reducible refine setCtl_keeps ?_
    | with_reducible refine Keeps.ite ?_ ?_

theorem execCelogClear_runs {s0 : State} {m : Master} {s : State} (h : Keeps s0 s) : Runs s0 (execCelogClear m s) := by
  unfold execCelogClear
  repeat' first
    | with_reducible assumption
    | with_reducible refine Runs.next ?_
    | with_reducible refine regWrite_keeps (fun _ hy => ?_) ?_
    | with_reducible refine celogClear_keeps ?_

theorem execCelogEntryFree_runs {s0 : State} {m : Master} {i : Fin 64} {s : State} (h : Keeps s0 s) : Runs s0 (execCelogEntryFree m i s) := by
  unfold execCelogEntryFree
  repeat' first
    | with_reducible assumption
    | with_reducible refine Runs.next ?_
    | with_reducible refine regWrite_keeps (fun _ hy => ?_) ?_
    | with_reducible refine celogFree_keeps ?_

theorem writerStep_keeps {s0 s : State} {p : Nat} (h : Keeps s0 s) : Keeps s0 (writerStep s p) := by
  unfold writerStep
  repeat' first
    | with_reducible assumption
    | (extract_lets +onlyGivenNames x; first | (refine Keeps.letS (a := x) ?_ fun hx => ?_; rotate_left; clear_value x; revert x; rotate_left; unfold x; clear x) | (try unfold x; clear x))
    | with_reducible refine spnSlotRef_keeps ?_
    | with_reducible refine setSpnState_keeps ?_
    | with_reducible refine setSpn_keeps ?_
    | split

theorem safeWriterLost_keeps {s0 s : State} {p : Nat} (h : Keeps s0 s) : Keeps s0 (safeWriterLost s p) := by
  unfold safeWriterLost
  repeat' first
    | with_reducible assumption
    | (extract_lets +onlyGivenNames x; first | (refine Keeps.letS (a := x) ?_ fun hx => ?_; rotate_left; clear_value x; revert x; rotate_left; unfold x; clear x) | (try unfold x; clear x))
    | intro _ _
    | with_reducible refine fsetb_keeps ?_
    | with_reducible refine wbit_keeps ?_
    | with_reducible refine evtSet_keeps ?_
    | with_reducible refine count_keeps ?_
    | with_reducible refine writerStep_keeps ?_
    | with_reducible refine setBal_keeps ?_
    | with_reducible refine Keeps.ite ?_ ?_
    | split

theorem execChopperFault_runs {s0 : State} {p : Fin 32} {s : State} (h : Keeps s0 s) : Runs s0 (execChopperFault p s) := by
  unfold execChopperFault
  repeat' first
    | with_reducible assumption
    | (extract_lets +onlyGivenNames x; first | (refine Keeps.letS (a := x) ?_ fun hx => ?_; rotate_left; clear_value x; revert x; rotate_left; unfold x; clear x) | (try unfold x; clear x))
    | with_reducible refine Runs.next ?_
    | with_reducible refine setFls_keeps ?_
    | with_reducible refine chopperFault_keeps ?_
    | with_reducible refine safeWriterLost_keeps ?_
    | with_reducible refine Keeps.ite ?_ ?_

theorem slotStall_keeps {s0 s : State} {p : Nat} (h : Keeps s0 s) : Keeps s0 (slotStall s p) := by
  unfold slotStall
  refine Keeps.ite h (evtSet_keeps (count_keeps ?_))
  by_cases e : p = 0
  · simp only [if_pos e]
    exact Keeps.upd h rfl rfl rfl
  · simp only [if_neg e]
    exact Keeps.upd h rfl rfl rfl

theorem takeEntry_keeps {s0 s : State} {p sq : Nat} {q : Sq} {e : SqEntry} (h : Keeps s0 s) : Keeps s0 (takeEntry s p sq q e) := by
  unfold takeEntry
  repeat' first
    | with_reducible assumption
    | (extract_lets +onlyGivenNames x; first | (refine Keeps.letS (a := x) ?_ fun hx => ?_; rotate_left; clear_value x; revert x; rotate_left; unfold x; clear x) | (try unfold x; clear x))
    | intro _ _
    | with_reducible refine setCtl_keeps ?_
    | with_reducible refine syncSlots_keeps ?_
    | with_reducible refine phySync_keeps ?_
    | with_reducible refine ioFetched_keeps ?_
    | with_reducible refine flipNow_keeps ?_
    | with_reducible refine cmdPoison_keeps ?_
    | with_reducible refine failCmd_keeps ?_
    | with_reducible refine reportDeferred_keeps ?_
    | with_reducible refine Keeps.ite ?_ ?_
    | split
    | with_reducible refine Keeps.upd ?_ rfl rfl rfl

theorem execCommandFetch_runs {s0 : State} {x1 : HPort} {sqid : BitVec 16} {e : SqEntry} {s : State} (h : Keeps s0 s) : Runs s0 (execCommandFetch x1 sqid e s) := by
  unfold execCommandFetch
  repeat' first
    | with_reducible assumption
    | (extract_lets +onlyGivenNames x; first | (refine Keeps.letS (a := x) ?_ fun hx => ?_; rotate_left; clear_value x; revert x; rotate_left; unfold x; clear x) | (try unfold x; clear x))
    | with_reducible refine Runs.next ?_
    | with_reducible refine adminCmd_keeps (fun _ hy => ?_) ?_
    | with_reducible refine slotStall_keeps ?_
    | with_reducible refine takeEntry_keeps ?_
    | with_reducible refine Keeps.ite ?_ ?_
    | split

theorem mirrorWaits_keeps {s0 s : State} {c : Cmd} (h : Keeps s0 s) : Keeps s0 (mirrorWaits s c) := by
  unfold mirrorWaits
  repeat' first
    | with_reducible assumption
    | (extract_lets +onlyGivenNames x; first | (refine Keeps.letS (a := x) ?_ fun hx => ?_; rotate_left; clear_value x; revert x; rotate_left; unfold x; clear x) | (try unfold x; clear x))
    | with_reducible refine evtSet_keeps ?_
    | with_reducible refine count_keeps ?_
    | with_reducible refine setCmd_keeps ?_
    | with_reducible refine Keeps.ite ?_ ?_

theorem execCommitPoint_runs {s0 : State} {x1 : HPort} {sqid cid : BitVec 16} {s : State} (h : Keeps s0 s) : Runs s0 (execCommitPoint x1 sqid cid s) := by
  unfold execCommitPoint
  repeat' first
    | with_reducible assumption
    | with_reducible refine Runs.next ?_
    | with_reducible refine postCqe_keeps ?_
    | with_reducible refine digest_keeps ?_
    | with_reducible refine mirrorWaits_keeps ?_
    | with_reducible refine commit_keeps ?_
    | with_reducible refine Keeps.ite ?_ ?_
    | split

theorem syncQueues_keeps {s0 s : State} {p : Nat} (h : Keeps s0 s) : Keeps s0 (syncQueues s p) := by
  unfold syncQueues
  repeat' first
    | with_reducible assumption
    | with_reducible refine fset_keeps ?_

theorem execCreateIoCq_runs {s0 : State} {x1 : HPort} {cid qid size vec : BitVec 16} {ien pc : Bool} {s : State} (h : Keeps s0 s) : Runs s0 (execCreateIoCq x1 cid qid size vec ien pc s) := by
  unfold execCreateIoCq
  repeat' first
    | with_reducible assumption
    | (extract_lets +onlyGivenNames x; first | (refine Keeps.letS (a := x) ?_ fun hx => ?_; rotate_left; clear_value x; revert x; rotate_left; unfold x; clear x) | (try unfold x; clear x))
    | with_reducible refine Runs.next ?_
    | with_reducible refine adminCmd_keeps (fun _ hy => ?_) ?_
    | with_reducible refine adminEnd_keeps ?_
    | with_reducible refine invalidField_keeps ?_
    | with_reducible refine adminOk_keeps ?_
    | with_reducible refine syncQueues_keeps ?_
    | with_reducible refine setCtl_keeps ?_
    | with_reducible refine Keeps.ite ?_ ?_

theorem execCreateIoSq_runs {s0 : State} {x1 : HPort} {cid qid size cqid : BitVec 16} {prio : BitVec 2} {pc : Bool} {s : State} (h : Keeps s0 s) : Runs s0 (execCreateIoSq x1 cid qid size cqid prio pc s) := by
  unfold execCreateIoSq
  repeat' first
    | with_reducible assumption
    | (extract_lets +onlyGivenNames x; first | (refine Keeps.letS (a := x) ?_ fun hx => ?_; rotate_left; clear_value x; revert x; rotate_left; unfold x; clear x) | (try unfold x; clear x))
    | with_reducible refine Runs.next ?_
    | with_reducible refine adminCmd_keeps (fun _ hy => ?_) ?_
    | with_reducible refine adminEnd_keeps ?_
    | with_reducible refine invalidField_keeps ?_
    | with_reducible refine adminOk_keeps ?_
    | with_reducible refine syncQueues_keeps ?_
    | with_reducible refine setCtl_keeps ?_
    | with_reducible refine Keeps.ite ?_ ?_

theorem execDeleteIoCq_runs {s0 : State} {x1 : HPort} {cid qid : BitVec 16} {s : State} (h : Keeps s0 s) : Runs s0 (execDeleteIoCq x1 cid qid s) := by
  unfold execDeleteIoCq
  repeat' first
    | with_reducible assumption
    | (extract_lets +onlyGivenNames x; first | (refine Keeps.letS (a := x) ?_ fun hx => ?_; rotate_left; clear_value x; revert x; rotate_left; unfold x; clear x) | (try unfold x; clear x))
    | with_reducible refine Runs.next ?_
    | with_reducible refine adminCmd_keeps (fun _ hy => ?_) ?_
    | with_reducible refine adminEnd_keeps ?_
    | with_reducible refine adminOk_keeps ?_
    | with_reducible refine syncQueues_keeps ?_
    | with_reducible refine setCtl_keeps ?_
    | with_reducible refine Keeps.ite ?_ ?_

theorem execDeleteIoSq_runs {s0 : State} {x1 : HPort} {cid qid : BitVec 16} {s : State} (h : Keeps s0 s) : Runs s0 (execDeleteIoSq x1 cid qid s) := by
  unfold execDeleteIoSq
  repeat' first
    | with_reducible assumption
    | (extract_lets +onlyGivenNames x; first | (refine Keeps.letS (a := x) ?_ fun hx => ?_; rotate_left; clear_value x; revert x; rotate_left; unfold x; clear x) | (try unfold x; clear x))
    | intro _ _
    | with_reducible refine Runs.next ?_
    | with_reducible refine adminCmd_keeps (fun _ hy => ?_) ?_
    | with_reducible refine adminEnd_keeps ?_
    | with_reducible refine setCmds_keeps ?_
    | with_reducible refine Keeps.forAll ?_ fun _ _ hy => ?_
    | with_reducible refine discardData_keeps ?_
    | with_reducible refine adminOk_keeps ?_
    | with_reducible refine syncQueues_keeps ?_
    | with_reducible refine setCtl_keeps ?_
    | with_reducible refine Keeps.ite ?_ ?_

theorem fetchRise_keeps {s0 : State} {old : Nat} {s : State} (h : Keeps s0 s) : Keeps s0 (fetchRise old s) := by
  unfold fetchRise
  repeat' first
    | with_reducible assumption
    | with_reducible refine evtSet_keeps ?_
    | with_reducible refine Keeps.ite ?_ ?_

theorem syncLevel_keeps {s0 s : State} {p : Nat} (h : Keeps s0 s) : Keeps s0 (syncLevel s p) := by
  unfold syncLevel
  repeat' first
    | with_reducible assumption
    | (extract_lets +onlyGivenNames x; first | (refine Keeps.letS (a := x) ?_ fun hx => ?_; rotate_left; clear_value x; revert x; rotate_left; unfold x; clear x) | (try unfold x; clear x))
    | intro _ _
    | with_reducible refine fset_keeps ?_
    | with_reducible refine evtSet_keeps ?_
    | with_reducible refine Keeps.ite ?_ ?_

theorem execDieTempSample_runs {s0 : State} {temps : List (BitVec 16)} {s : State} (h : Keeps s0 s) : Runs s0 (execDieTempSample temps s) := by
  unfold execDieTempSample
  repeat' first
    | with_reducible assumption
    | with_reducible refine Runs.next ?_
    | with_reducible refine Keeps.forAll ?_ fun _ _ hy => ?_
    | with_reducible refine fetchRise_keeps ?_
    | with_reducible refine dieJudge_keeps ?_
    | with_reducible refine dieRead_keeps ?_
    | with_reducible refine syncLevel_keeps ?_

theorem execDramTempSample_runs {s0 : State} {temp : BitVec 16} {s : State} (h : Keeps s0 s) : Runs s0 (execDramTempSample temp s) := by
  unfold execDramTempSample
  repeat' first
    | with_reducible assumption
    | (extract_lets +onlyGivenNames x; first | (refine Keeps.letS (a := x) ?_ fun hx => ?_; rotate_left; clear_value x; revert x; rotate_left; unfold x; clear x) | (try unfold x; clear x))
    | with_reducible refine Runs.next ?_
    | with_reducible refine fset_keeps ?_
    | with_reducible refine evtSet_keeps ?_
    | with_reducible refine Keeps.ite ?_ ?_

theorem execFetchEnWrite_runs {s0 : State} {m : Master} {value : BitVec 2} {s : State} (h : Keeps s0 s) : Runs s0 (execFetchEnWrite m value s) := by
  unfold execFetchEnWrite
  repeat' first
    | with_reducible assumption
    | with_reducible refine Runs.next ?_
    | with_reducible refine regWrite_keeps (fun _ hy => ?_) ?_
    | with_reducible refine fset_keeps ?_

theorem heatPause_keeps {s0 s : State} {x1 : Nat} (h : Keeps s0 s) : Keeps s0 (heatPause s x1) := by
  unfold heatPause
  repeat' first
    | with_reducible assumption
    | with_reducible refine emit_keeps ?_
    | with_reducible refine count_keeps ?_
    | with_reducible refine Keeps.ite ?_ ?_

theorem sharePause_keeps {s0 s : State} {x1 : Nat} (h : Keeps s0 s) : Keeps s0 (sharePause s x1) := by
  unfold sharePause
  repeat' first
    | with_reducible assumption
    | with_reducible refine emit_keeps ?_
    | with_reducible refine count_keeps ?_
    | with_reducible refine Keeps.ite ?_ ?_

theorem execFetchPause_runs {s0 : State} {x1 : HPort} {s : State} (h : Keeps s0 s) : Runs s0 (execFetchPause x1 s) := by
  unfold execFetchPause
  repeat' first
    | with_reducible assumption
    | with_reducible refine Runs.next ?_
    | with_reducible refine heatPause_keeps ?_
    | with_reducible refine sharePause_keeps ?_
    | with_reducible refine Keeps.ite ?_ ?_

theorem execFunctionLevelReset_runs {s0 : State} {x1 : HPort} {s : State} (h : Keeps s0 s) : Runs s0 (execFunctionLevelReset x1 s) := by
  unfold execFunctionLevelReset
  repeat' first
    | with_reducible assumption
    | with_reducible refine Runs.next ?_
    | with_reducible refine partyReset_keeps ?_
    | with_reducible refine controllerReset_keeps ?_
    | with_reducible refine Keeps.ite ?_ ?_

theorem getFeat_keeps {s0 s : State} {x1 : HPort} {cid : BitVec 16} {f : State → Nat → Nat → State} (hf : ∀ y0 y1 y2, Keeps s0 y0 → Keeps s0 (f y0 y1 y2)) (h : Keeps s0 s) : Keeps s0 (getFeat s x1 cid f) := by
  unfold getFeat
  repeat' first
    | with_reducible assumption
    | with_reducible refine adminCmd_keeps (fun _ hy => ?_) ?_
    | with_reducible refine hf _ _ _ ?_

theorem featValue_keeps {s0 s : State} {x1 cid dw0 dw1 : Nat} (h : Keeps s0 s) : Keeps s0 (featValue s x1 cid dw0 dw1) := by
  unfold featValue
  repeat' first
    | with_reducible assumption
    | with_reducible refine complete_keeps ?_

theorem getE9_keeps {s0 s : State} {x1 cid : Nat} (h : Keeps s0 s) : Keeps s0 (getE9 s x1 cid) := by
  unfold getE9
  repeat' first
    | with_reducible assumption
    | (extract_lets +onlyGivenNames x; first | (refine Keeps.letS (a := x) ?_ fun hx => ?_; rotate_left; clear_value x; revert x; rotate_left; unfold x; clear x) | (try unfold x; clear x))
    | with_reducible refine featValue_keeps ?_

theorem execGetBackgroundControl_runs {s0 : State} {x1 : HPort} {cid : BitVec 16} {s : State} (h : Keeps s0 s) : Runs s0 (execGetBackgroundControl x1 cid s) := by
  unfold execGetBackgroundControl
  repeat' first
    | with_reducible assumption
    | with_reducible refine Runs.next ?_
    | with_reducible refine getFeat_keeps (fun _ _ _ hy => ?_) ?_
    | with_reducible refine getE9_keeps ?_

theorem getE8_keeps {s0 s : State} {x1 cid : Nat} (h : Keeps s0 s) : Keeps s0 (getE8 s x1 cid) := by
  unfold getE8
  repeat' first
    | with_reducible assumption
    | with_reducible refine featValue_keeps ?_

theorem execGetBallastControl_runs {s0 : State} {x1 : HPort} {cid : BitVec 16} {s : State} (h : Keeps s0 s) : Runs s0 (execGetBallastControl x1 cid s) := by
  unfold execGetBallastControl
  repeat' first
    | with_reducible assumption
    | with_reducible refine Runs.next ?_
    | with_reducible refine getFeat_keeps (fun _ _ _ hy => ?_) ?_
    | with_reducible refine getE8_keeps ?_

theorem getE0_keeps {s0 s : State} {x1 cid : Nat} (h : Keeps s0 s) : Keeps s0 (getE0 s x1 cid) := by
  unfold getE0
  repeat' first
    | with_reducible assumption
    | with_reducible refine featValue_keeps ?_

theorem execGetCacheControl_runs {s0 : State} {x1 : HPort} {cid : BitVec 16} {s : State} (h : Keeps s0 s) : Runs s0 (execGetCacheControl x1 cid s) := by
  unfold execGetCacheControl
  repeat' first
    | with_reducible assumption
    | with_reducible refine Runs.next ?_
    | with_reducible refine getFeat_keeps (fun _ _ _ hy => ?_) ?_
    | with_reducible refine getE0_keeps ?_

theorem getC1_keeps {s0 s : State} {x1 cid : Nat} (h : Keeps s0 s) : Keeps s0 (getC1 s x1 cid) := by
  unfold getC1
  repeat' first
    | with_reducible assumption
    | with_reducible refine featValue_keeps ?_

theorem execGetCommandSlotReservation_runs {s0 : State} {x1 : HPort} {cid : BitVec 16} {s : State} (h : Keeps s0 s) : Runs s0 (execGetCommandSlotReservation x1 cid s) := by
  unfold execGetCommandSlotReservation
  repeat' first
    | with_reducible assumption
    | with_reducible refine Runs.next ?_
    | with_reducible refine getFeat_keeps (fun _ _ _ hy => ?_) ?_
    | with_reducible refine getC1_keeps ?_

theorem getD4_keeps {s0 : State} {p : Nat} {s : State} {x1 cid : Nat} (h : Keeps s0 s) : Keeps s0 (getD4 p s x1 cid) := by
  unfold getD4
  repeat' first
    | with_reducible assumption
    | with_reducible refine featValue_keeps ?_

theorem execGetControlSetOverride_runs {s0 : State} {x1 : HPort} {cid : BitVec 16} {p : Fin 32} {s : State} (h : Keeps s0 s) : Runs s0 (execGetControlSetOverride x1 cid p s) := by
  unfold execGetControlSetOverride
  repeat' first
    | with_reducible assumption
    | with_reducible refine Runs.next ?_
    | with_reducible refine getFeat_keeps (fun _ _ _ hy => ?_) ?_
    | with_reducible refine getD4_keeps ?_

theorem getD1_keeps {s0 s : State} {x1 cid : Nat} (h : Keeps s0 s) : Keeps s0 (getD1 s x1 cid) := by
  unfold getD1
  repeat' first
    | with_reducible assumption
    | with_reducible refine featValue_keeps ?_

theorem execGetDecodeScheduling_runs {s0 : State} {x1 : HPort} {cid : BitVec 16} {s : State} (h : Keeps s0 s) : Runs s0 (execGetDecodeScheduling x1 cid s) := by
  unfold execGetDecodeScheduling
  repeat' first
    | with_reducible assumption
    | with_reducible refine Runs.next ?_
    | with_reducible refine getFeat_keeps (fun _ _ _ hy => ?_) ?_
    | with_reducible refine getD1_keeps ?_

theorem getC8_keeps {s0 : State} {dw11 : Word} {s : State} {x1 cid : Nat} (h : Keeps s0 s) : Keeps s0 (getC8 dw11 s x1 cid) := by
  unfold getC8
  repeat' first
    | with_reducible assumption
    | (extract_lets +onlyGivenNames x; first | (refine Keeps.letS (a := x) ?_ fun hx => ?_; rotate_left; clear_value x; revert x; rotate_left; unfold x; clear x) | (try unfold x; clear x))
    | with_reducible refine invalidField_keeps ?_
    | with_reducible refine featValue_keeps ?_
    | with_reducible refine Keeps.ite ?_ ?_

theorem execGetEventRouting_runs {s0 : State} {x1 : HPort} {cid : BitVec 16} {dw11 : Word} {s : State} (h : Keeps s0 s) : Runs s0 (execGetEventRouting x1 cid dw11 s) := by
  unfold execGetEventRouting
  repeat' first
    | with_reducible assumption
    | with_reducible refine Runs.next ?_
    | with_reducible refine getFeat_keeps (fun _ _ _ hy => ?_) ?_
    | with_reducible refine getC8_keeps ?_

theorem execGetFeatures_runs {s0 : State} {x1 : HPort} {cid : BitVec 16} {fid : BitVec 8} {dw11 : Word} {s : State} (h : Keeps s0 s) : Runs s0 (execGetFeatures x1 cid fid dw11 s) := by
  unfold execGetFeatures
  repeat' first
    | with_reducible assumption
    | (extract_lets +onlyGivenNames x; first | (refine Keeps.letS (a := x) ?_ fun hx => ?_; rotate_left; clear_value x; revert x; rotate_left; unfold x; clear x) | (try unfold x; clear x))
    | with_reducible refine Runs.next ?_
    | with_reducible refine getFeat_keeps (fun _ _ _ hy => ?_) ?_
    | with_reducible refine invalidField_keeps ?_
    | with_reducible refine featValue_keeps ?_
    | with_reducible refine Keeps.ite ?_ ?_

theorem getD8_keeps {s0 s : State} {x1 cid : Nat} (h : Keeps s0 s) : Keeps s0 (getD8 s x1 cid) := by
  unfold getD8
  repeat' first
    | with_reducible assumption
    | with_reducible refine featValue_keeps ?_

theorem execGetPartnerControl_runs {s0 : State} {x1 : HPort} {cid : BitVec 16} {s : State} (h : Keeps s0 s) : Runs s0 (execGetPartnerControl x1 cid s) := by
  unfold execGetPartnerControl
  repeat' first
    | with_reducible assumption
    | with_reducible refine Runs.next ?_
    | with_reducible refine getFeat_keeps (fun _ _ _ hy => ?_) ?_
    | with_reducible refine getD8_keeps ?_

theorem getD2_keeps {s0 s : State} {x1 cid : Nat} (h : Keeps s0 s) : Keeps s0 (getD2 s x1 cid) := by
  unfold getD2
  repeat' first
    | with_reducible assumption
    | (extract_lets +onlyGivenNames x; first | (refine Keeps.letS (a := x) ?_ fun hx => ?_; rotate_left; clear_value x; revert x; rotate_left; unfold x; clear x) | (try unfold x; clear x))
    | with_reducible refine featValue_keeps ?_

theorem execGetReadRecoveryControl_runs {s0 : State} {x1 : HPort} {cid : BitVec 16} {s : State} (h : Keeps s0 s) : Runs s0 (execGetReadRecoveryControl x1 cid s) := by
  unfold execGetReadRecoveryControl
  repeat' first
    | with_reducible assumption
    | with_reducible refine Runs.next ?_
    | with_reducible refine getFeat_keeps (fun _ _ _ hy => ?_) ?_
    | with_reducible refine getD2_keeps ?_

theorem getD5_keeps {s0 : State} {p : Nat} {s : State} {x1 cid : Nat} (h : Keeps s0 s) : Keeps s0 (getD5 p s x1 cid) := by
  unfold getD5
  repeat' first
    | with_reducible assumption
    | with_reducible refine featValue_keeps ?_

theorem execGetSpindleControl_runs {s0 : State} {x1 : HPort} {cid : BitVec 16} {p : Fin 32} {s : State} (h : Keeps s0 s) : Runs s0 (execGetSpindleControl x1 cid p s) := by
  unfold execGetSpindleControl
  repeat' first
    | with_reducible assumption
    | with_reducible refine Runs.next ?_
    | with_reducible refine getFeat_keeps (fun _ _ _ hy => ?_) ?_
    | with_reducible refine getD5_keeps ?_

theorem getC9_keeps {s0 : State} {dw11 : Word} {s : State} {x1 cid : Nat} (h : Keeps s0 s) : Keeps s0 (getC9 dw11 s x1 cid) := by
  unfold getC9
  repeat' first
    | with_reducible assumption
    | (extract_lets +onlyGivenNames x; first | (refine Keeps.letS (a := x) ?_ fun hx => ?_; rotate_left; clear_value x; revert x; rotate_left; unfold x; clear x) | (try unfold x; clear x))
    | with_reducible refine invalidField_keeps ?_
    | with_reducible refine featValue_keeps ?_
    | with_reducible refine Keeps.ite ?_ ?_

theorem execGetTailSnapshotSelect_runs {s0 : State} {x1 : HPort} {cid : BitVec 16} {dw11 : Word} {s : State} (h : Keeps s0 s) : Runs s0 (execGetTailSnapshotSelect x1 cid dw11 s) := by
  unfold execGetTailSnapshotSelect
  repeat' first
    | with_reducible assumption
    | with_reducible refine Runs.next ?_
    | with_reducible refine getFeat_keeps (fun _ _ _ hy => ?_) ?_
    | with_reducible refine getC9_keeps ?_

theorem getD0_keeps {s0 : State} {p : Nat} {s : State} {x1 cid : Nat} (h : Keeps s0 s) : Keeps s0 (getD0 p s x1 cid) := by
  unfold getD0
  repeat' first
    | with_reducible assumption
    | with_reducible refine featValue_keeps ?_

theorem execGetTetherPortControl_runs {s0 : State} {x1 : HPort} {cid : BitVec 16} {p : Fin 32} {s : State} (h : Keeps s0 s) : Runs s0 (execGetTetherPortControl x1 cid p s) := by
  unfold execGetTetherPortControl
  repeat' first
    | with_reducible assumption
    | with_reducible refine Runs.next ?_
    | with_reducible refine getFeat_keeps (fun _ _ _ hy => ?_) ?_
    | with_reducible refine getD0_keeps ?_

theorem getEA_keeps {s0 s : State} {x1 cid : Nat} (h : Keeps s0 s) : Keeps s0 (getEA s x1 cid) := by
  unfold getEA
  repeat' first
    | with_reducible assumption
    | with_reducible refine featValue_keeps ?_

theorem execGetThermalControl_runs {s0 : State} {x1 : HPort} {cid : BitVec 16} {s : State} (h : Keeps s0 s) : Runs s0 (execGetThermalControl x1 cid s) := by
  unfold execGetThermalControl
  repeat' first
    | with_reducible assumption
    | with_reducible refine Runs.next ?_
    | with_reducible refine getFeat_keeps (fun _ _ _ hy => ?_) ?_
    | with_reducible refine getEA_keeps ?_

theorem getC0_keeps {s0 : State} {dw11 : Word} {s : State} {x1 cid : Nat} (h : Keeps s0 s) : Keeps s0 (getC0 dw11 s x1 cid) := by
  unfold getC0
  repeat' first
    | with_reducible assumption
    | (extract_lets +onlyGivenNames x; first | (refine Keeps.letS (a := x) ?_ fun hx => ?_; rotate_left; clear_value x; revert x; rotate_left; unfold x; clear x) | (try unfold x; clear x))
    | with_reducible refine invalidField_keeps ?_
    | with_reducible refine featValue_keeps ?_
    | with_reducible refine Keeps.ite ?_ ?_

theorem execGetUnitPowerPolicy_runs {s0 : State} {x1 : HPort} {cid : BitVec 16} {dw11 : Word} {s : State} (h : Keeps s0 s) : Runs s0 (execGetUnitPowerPolicy x1 cid dw11 s) := by
  unfold execGetUnitPowerPolicy
  repeat' first
    | with_reducible assumption
    | with_reducible refine Runs.next ?_
    | with_reducible refine getFeat_keeps (fun _ _ _ hy => ?_) ?_
    | with_reducible refine getC0_keeps ?_

theorem getD3_keeps {s0 s : State} {x1 cid : Nat} (h : Keeps s0 s) : Keeps s0 (getD3 s x1 cid) := by
  unfold getD3
  repeat' first
    | with_reducible assumption
    | (extract_lets +onlyGivenNames x; first | (refine Keeps.letS (a := x) ?_ fun hx => ?_; rotate_left; clear_value x; revert x; rotate_left; unfold x; clear x) | (try unfold x; clear x))
    | with_reducible refine featValue_keeps ?_

theorem execGetWriteSafetyControl_runs {s0 : State} {x1 : HPort} {cid : BitVec 16} {s : State} (h : Keeps s0 s) : Runs s0 (execGetWriteSafetyControl x1 cid s) := by
  unfold execGetWriteSafetyControl
  repeat' first
    | with_reducible assumption
    | with_reducible refine Runs.next ?_
    | with_reducible refine getFeat_keeps (fun _ _ _ hy => ?_) ?_
    | with_reducible refine getD3_keeps ?_

theorem getC2_keeps {s0 s : State} {x1 cid : Nat} (h : Keeps s0 s) : Keeps s0 (getC2 s x1 cid) := by
  unfold getC2
  repeat' first
    | with_reducible assumption
    | with_reducible refine featValue_keeps ?_

theorem execGetZoneLayoutControl_runs {s0 : State} {x1 : HPort} {cid : BitVec 16} {s : State} (h : Keeps s0 s) : Runs s0 (execGetZoneLayoutControl x1 cid s) := by
  unfold execGetZoneLayoutControl
  repeat' first
    | with_reducible assumption
    | with_reducible refine Runs.next ?_
    | with_reducible refine getFeat_keeps (fun _ _ _ hy => ?_) ?_
    | with_reducible refine getC2_keeps ?_

theorem safeParkDone_keeps {s0 s : State} (h : Keeps s0 s) : Keeps s0 (safeParkDone s) := by
  unfold safeParkDone
  repeat' first
    | with_reducible assumption
    | with_reducible refine evtSet_keeps ?_
    | with_reducible refine fset_keeps ?_
    | with_reducible refine Keeps.ite ?_ ?_

theorem execHeadUnloadDone_runs {s0 : State} {p : Fin 32} {s : State} (h : Keeps s0 s) : Runs s0 (execHeadUnloadDone p s) := by
  unfold execHeadUnloadDone
  repeat' first
    | with_reducible assumption
    | with_reducible refine Runs.next ?_
    | with_reducible refine safeParkDone_keeps ?_
    | with_reducible refine headUnloaded_keeps ?_

theorem execHifSlotsRead_runs {s0 : State} {m : Master} {s : State} (h : Keeps s0 s) : Runs s0 (execHifSlotsRead m s) := by
  unfold execHifSlotsRead
  repeat' first
    | with_reducible assumption
    | with_reducible refine Runs.next ?_
    | with_reducible refine regRead_keeps ?_

theorem execHostDataReceived_runs {s0 : State} {x1 : HPort} {sqid cid : BitVec 16} {data : List Nat} {s : State} (h : Keeps s0 s) : Runs s0 (execHostDataReceived x1 sqid cid data s) := by
  unfold execHostDataReceived
  repeat' first
    | with_reducible assumption
    | (extract_lets +onlyGivenNames x; first | (refine Keeps.letS (a := x) ?_ fun hx => ?_; rotate_left; clear_value x; revert x; rotate_left; unfold x; clear x) | (try unfold x; clear x))
    | intro _ _
    | with_reducible refine Runs.next ?_
    | with_reducible refine setCmd_keeps ?_
    | with_reducible refine mirror_keeps ?_
    | with_reducible refine bufferWritten_keeps ?_
    | with_reducible refine Keeps.ite ?_ ?_
    | split

theorem execIdentify_runs {s0 : State} {x1 : HPort} {cid : BitVec 16} {cns : BitVec 8} {nsid : BitVec 32} {s : State} (h : Keeps s0 s) : Runs s0 (execIdentify x1 cid cns nsid s) := by
  unfold execIdentify
  repeat' first
    | with_reducible assumption
    | (extract_lets +onlyGivenNames x; first | (refine Keeps.letS (a := x) ?_ fun hx => ?_; rotate_left; clear_value x; revert x; rotate_left; unfold x; clear x) | (try unfold x; clear x))
    | with_reducible refine Runs.next ?_
    | with_reducible refine adminCmd_keeps (fun _ hy => ?_) ?_
    | with_reducible refine adminData_keeps ?_
    | with_reducible refine adminEnd_keeps ?_
    | with_reducible refine invalidField_keeps ?_
    | with_reducible refine Keeps.ite ?_ ?_
    | split

theorem execInvalidOpcode_runs {s0 : State} {x1 : HPort} {sqid cid : BitVec 16} {opc lid : BitVec 8} {s : State} (h : Keeps s0 s) : Runs s0 (execInvalidOpcode x1 sqid cid opc lid s) := by
  unfold execInvalidOpcode
  repeat' first
    | with_reducible assumption
    | with_reducible refine Runs.next ?_
    | with_reducible refine adminCmd_keeps (fun _ hy => ?_) ?_
    | with_reducible refine invalidField_keeps ?_
    | with_reducible refine adminEnd_keeps ?_
    | with_reducible refine failCmd_keeps ?_
    | with_reducible refine Keeps.ite ?_ ?_
    | split

theorem execKeepAlive_runs {s0 : State} {x1 : HPort} {cid : BitVec 16} {s : State} (h : Keeps s0 s) : Runs s0 (execKeepAlive x1 cid s) := by
  unfold execKeepAlive
  repeat' first
    | with_reducible assumption
    | (extract_lets +onlyGivenNames x; first | (refine Keeps.letS (a := x) ?_ fun hx => ?_; rotate_left; clear_value x; revert x; rotate_left; unfold x; clear x) | (try unfold x; clear x))
    | with_reducible refine Runs.next ?_
    | with_reducible refine adminCmd_keeps (fun _ hy => ?_) ?_
    | with_reducible refine adminOk_keeps ?_
    | with_reducible refine setCtl_keeps ?_

theorem execKeepAliveTimerExpiry_runs {s0 : State} {x1 : HPort} {s : State} (h : Keeps s0 s) : Runs s0 (execKeepAliveTimerExpiry x1 s) := by
  unfold execKeepAliveTimerExpiry
  repeat' first
    | with_reducible assumption
    | with_reducible refine Runs.next ?_
    | with_reducible refine controllerReset_keeps ?_
    | with_reducible refine Keeps.ite ?_ ?_

theorem ledgerWait_keeps {s0 s : State} {c : Cmd} (h : Keeps s0 s) : Keeps s0 (ledgerWait s c) := by
  unfold ledgerWait
  repeat' first
    | with_reducible assumption
    | (extract_lets +onlyGivenNames x; first | (refine Keeps.letS (a := x) ?_ fun hx => ?_; rotate_left; clear_value x; revert x; rotate_left; unfold x; clear x) | (try unfold x; clear x))
    | intro _ _
    | with_reducible refine setCmd_keeps ?_
    | with_reducible refine evtSet_keeps ?_
    | with_reducible refine count_keeps ?_
    | with_reducible refine wakeDemand_keeps ?_
    | with_reducible refine Keeps.ite ?_ ?_
    | split

theorem execLedgerAdmit_runs {s0 s : State} (h : Keeps s0 s) : Runs s0 (execLedgerAdmit s) := by
  unfold execLedgerAdmit
  repeat' first
    | with_reducible assumption
    | (extract_lets +onlyGivenNames x; first | (refine Keeps.letS (a := x) ?_ fun hx => ?_; rotate_left; clear_value x; revert x; rotate_left; unfold x; clear x) | (try unfold x; clear x))
    | intro _ _
    | with_reducible refine Runs.next ?_
    | with_reducible refine syncDirty_keeps ?_
    | with_reducible refine setZmp_keeps ?_
    | with_reducible refine setCmd_keeps ?_
    | with_reducible refine Keeps.forAll ?_ fun _ _ hy => ?_
    | with_reducible refine ledgerWait_keeps ?_
    | with_reducible refine Keeps.ite ?_ ?_
    | split

theorem execLedgerEvaluation_runs {s0 : State} {code : BitVec 12} {s : State} (h : Keeps s0 s) : Runs s0 (execLedgerEvaluation code s) := by
  unfold execLedgerEvaluation
  repeat' first
    | with_reducible assumption
    | with_reducible refine Runs.next ?_
    | with_reducible refine evaluate_keeps ?_
    | with_reducible refine fset_keeps ?_

theorem tailClear_keeps {s0 s : State} {r : Nat} (h : Keeps s0 s) : Keeps s0 (tailClear s r) := by
  unfold tailClear
  repeat' first
    | with_reducible assumption
    | with_reducible refine wrN_keeps ?_
    | with_reducible refine tailSet_keeps (by simp only [List.length_append, List.length_cons, List.length_nil, List.length_take, List.length_drop, List.length_tail]; omega) ?_

theorem writeFlipCtrl_keeps {s0 s : State} {w : Word} (h : Keeps s0 s) : Keeps s0 (writeFlipCtrl s w) := by
  unfold writeFlipCtrl
  repeat' first
    | with_reducible assumption
    | (extract_lets +onlyGivenNames x; first | (refine Keeps.letS (a := x) ?_ fun hx => ?_; rotate_left; clear_value x; revert x; rotate_left; unfold x; clear x) | (try unfold x; clear x))
    | with_reducible refine wr_keeps ?_

theorem setC0_keeps {s0 : State} {dw11 : Word} {s : State} {x1 cid : Nat} (h : Keeps s0 s) : Keeps s0 (setC0 dw11 s x1 cid) := by
  unfold setC0
  repeat' first
    | with_reducible assumption
    | (extract_lets +onlyGivenNames x; first | (refine Keeps.letS (a := x) ?_ fun hx => ?_; rotate_left; clear_value x; revert x; rotate_left; unfold x; clear x) | (try unfold x; clear x))
    | with_reducible refine claimHeld_keeps ?_
    | with_reducible refine invalidField_keeps ?_
    | with_reducible refine adminOk_keeps ?_
    | with_reducible refine fset_keeps ?_
    | with_reducible refine Keeps.ite ?_ ?_

theorem setC1_keeps {s0 : State} {dw11 : Word} {s : State} {x1 cid : Nat} (h : Keeps s0 s) : Keeps s0 (setC1 dw11 s x1 cid) := by
  unfold setC1
  repeat' first
    | with_reducible assumption
    | (extract_lets +onlyGivenNames x; first | (refine Keeps.letS (a := x) ?_ fun hx => ?_; rotate_left; clear_value x; revert x; rotate_left; unfold x; clear x) | (try unfold x; clear x))
    | with_reducible refine claimHeld_keeps ?_
    | with_reducible refine invalidField_keeps ?_
    | with_reducible refine adminOk_keeps ?_
    | with_reducible refine fset_keeps ?_
    | with_reducible refine Keeps.ite ?_ ?_

theorem setC2_keeps {s0 : State} {dw11 : Word} {s : State} {x1 cid : Nat} (h : Keeps s0 s) : Keeps s0 (setC2 dw11 s x1 cid) := by
  unfold setC2
  repeat' first
    | with_reducible assumption
    | (extract_lets +onlyGivenNames x; first | (refine Keeps.letS (a := x) ?_ fun hx => ?_; rotate_left; clear_value x; revert x; rotate_left; unfold x; clear x) | (try unfold x; clear x))
    | intro _ _
    | with_reducible refine claimHeld_keeps ?_
    | with_reducible refine invalidField_keeps ?_
    | with_reducible refine fsetb_keeps ?_
    | with_reducible refine fset_keeps ?_
    | with_reducible refine adminOk_keeps ?_
    | with_reducible refine Keeps.forAll ?_ fun _ _ hy => ?_
    | with_reducible refine Keeps.ite ?_ ?_

theorem routeAen_keeps {s0 s : State} {n x1 : Nat} {on : Bool} (h : Keeps s0 s) : Keeps s0 (routeAen s n x1 on) := by
  unfold routeAen
  repeat' first
    | with_reducible assumption
    | (extract_lets +onlyGivenNames x; first | (refine Keeps.letS (a := x) ?_ fun hx => ?_; rotate_left; clear_value x; revert x; rotate_left; unfold x; clear x) | (try unfold x; clear x))
    | with_reducible refine Keeps.ite ?_ ?_
    | with_reducible refine Keeps.upd ?_ rfl rfl rfl

theorem routeMsi_keeps {s0 s : State} {n x1 : Nat} {on : Bool} {v : Nat} (h : Keeps s0 s) : Keeps s0 (routeMsi s n x1 on v) := by
  unfold routeMsi
  repeat' first
    | with_reducible assumption
    | with_reducible refine fset_keeps ?_
    | with_reducible refine fsetb_keeps ?_
    | with_reducible refine Keeps.ite ?_ ?_

theorem setC8_keeps {s0 : State} {dw11 dw12 : Word} {s : State} {x1 cid : Nat} (h : Keeps s0 s) : Keeps s0 (setC8 dw11 dw12 s x1 cid) := by
  unfold setC8
  repeat' first
    | with_reducible assumption
    | (extract_lets +onlyGivenNames x; first | (refine Keeps.letS (a := x) ?_ fun hx => ?_; rotate_left; clear_value x; revert x; rotate_left; unfold x; clear x) | (try unfold x; clear x))
    | intro _ _
    | with_reducible refine claimHeld_keeps ?_
    | with_reducible refine invalidField_keeps ?_
    | with_reducible refine routeAen_keeps ?_
    | with_reducible refine fset_keeps ?_
    | with_reducible refine adminOk_keeps ?_
    | with_reducible refine routeMsi_keeps ?_
    | with_reducible refine Keeps.ite ?_ ?_

theorem setC9_keeps {s0 : State} {dw11 dw12 : Word} {s : State} {x1 cid : Nat} (h : Keeps s0 s) : Keeps s0 (setC9 dw11 dw12 s x1 cid) := by
  unfold setC9
  repeat' first
    | with_reducible assumption
    | (extract_lets +onlyGivenNames x; first | (refine Keeps.letS (a := x) ?_ fun hx => ?_; rotate_left; clear_value x; revert x; rotate_left; unfold x; clear x) | (try unfold x; clear x))
    | with_reducible refine claimHeld_keeps ?_
    | with_reducible refine invalidField_keeps ?_
    | with_reducible refine adminOk_keeps ?_
    | with_reducible refine wr_keeps ?_
    | with_reducible refine Keeps.ite ?_ ?_

theorem setD0_keeps {s0 : State} {p action : Nat} {s : State} {x1 cid : Nat} (h : Keeps s0 s) : Keeps s0 (setD0 p action s x1 cid) := by
  unfold setD0
  repeat' first
    | with_reducible assumption
    | with_reducible refine claimHeld_keeps ?_
    | with_reducible refine sequenceError_keeps ?_
    | with_reducible refine adminOk_keeps ?_
    | with_reducible refine portDisable_keeps ?_
    | with_reducible refine portEnable_keeps ?_
    | with_reducible refine portRetrain_keeps ?_
    | with_reducible refine Keeps.ite ?_ ?_

theorem setD1_keeps {s0 : State} {dw11 dw12 : Word} {s : State} {x1 cid : Nat} (h : Keeps s0 s) : Keeps s0 (setD1 dw11 dw12 s x1 cid) := by
  unfold setD1
  repeat' first
    | with_reducible assumption
    | (extract_lets +onlyGivenNames x; first | (refine Keeps.letS (a := x) ?_ fun hx => ?_; rotate_left; clear_value x; revert x; rotate_left; unfold x; clear x) | (try unfold x; clear x))
    | intro _ _
    | with_reducible refine claimHeld_keeps ?_
    | with_reducible refine invalidField_keeps ?_
    | with_reducible refine Keeps.forAll ?_ fun _ _ hy => ?_
    | with_reducible refine fset_keeps ?_
    | with_reducible refine wr_keeps ?_
    | with_reducible refine adminOk_keeps ?_
    | with_reducible refine Keeps.ite ?_ ?_

theorem setD2_keeps {s0 : State} {dw11 : Word} {s : State} {x1 cid : Nat} (h : Keeps s0 s) : Keeps s0 (setD2 dw11 s x1 cid) := by
  unfold setD2
  repeat' first
    | with_reducible assumption
    | (extract_lets +onlyGivenNames x; first | (refine Keeps.letS (a := x) ?_ fun hx => ?_; rotate_left; clear_value x; revert x; rotate_left; unfold x; clear x) | (try unfold x; clear x))
    | intro _ _
    | with_reducible refine claimHeld_keeps ?_
    | with_reducible refine invalidField_keeps ?_
    | with_reducible refine adminOk_keeps ?_
    | with_reducible refine Keeps.forAll ?_ fun _ _ hy => ?_
    | with_reducible refine fset_keeps ?_
    | with_reducible refine fsetb_keeps ?_
    | with_reducible refine wrN_keeps ?_
    | with_reducible refine Keeps.ite ?_ ?_

theorem setD3_keeps {s0 : State} {dw11 dw12 : Word} {s : State} {x1 cid : Nat} (h : Keeps s0 s) : Keeps s0 (setD3 dw11 dw12 s x1 cid) := by
  unfold setD3
  repeat' first
    | with_reducible assumption
    | (extract_lets +onlyGivenNames x; first | (refine Keeps.letS (a := x) ?_ fun hx => ?_; rotate_left; clear_value x; revert x; rotate_left; unfold x; clear x) | (try unfold x; clear x))
    | intro _ _
    | with_reducible refine claimHeld_keeps ?_
    | with_reducible refine invalidField_keeps ?_
    | with_reducible refine adminOk_keeps ?_
    | with_reducible refine Keeps.forAll ?_ fun _ _ hy => ?_
    | with_reducible refine fset_keeps ?_
    | with_reducible refine Keeps.ite ?_ ?_
    | with_reducible refine Keeps.upd ?_ rfl rfl rfl

theorem overrideSwitch_keeps {s0 s : State} {p : Nat} (h : Keeps s0 s) : Keeps s0 (overrideSwitch s p) := by
  unfold overrideSwitch
  repeat' first
    | with_reducible assumption
    | (extract_lets +onlyGivenNames x; first | (refine Keeps.letS (a := x) ?_ fun hx => ?_; rotate_left; clear_value x; revert x; rotate_left; unfold x; clear x) | (try unfold x; clear x))
    | intro _ _
    | with_reducible refine setSpn_keeps ?_
    | with_reducible refine groupSwitch_keeps ?_

theorem setD4_keeps {s0 : State} {dw11 : Word} {s : State} {x1 cid : Nat} (h : Keeps s0 s) : Keeps s0 (setD4 dw11 s x1 cid) := by
  unfold setD4
  repeat' first
    | with_reducible assumption
    | (extract_lets +onlyGivenNames x; first | (refine Keeps.letS (a := x) ?_ fun hx => ?_; rotate_left; clear_value x; revert x; rotate_left; unfold x; clear x) | (try unfold x; clear x))
    | intro _ _
    | with_reducible refine claimHeld_keeps ?_
    | with_reducible refine sequenceError_keeps ?_
    | with_reducible refine setSpn_keeps ?_
    | with_reducible refine overrideSwitch_keeps ?_
    | with_reducible refine Keeps.ite ?_ ?_

theorem setD5_keeps {s0 : State} {p action index : Nat} {s : State} {x1 cid : Nat} (h : Keeps s0 s) : Keeps s0 (setD5 p action index s x1 cid) := by
  unfold setD5
  repeat' first
    | with_reducible assumption
    | (extract_lets +onlyGivenNames x; first | (refine Keeps.letS (a := x) ?_ fun hx => ?_; rotate_left; clear_value x; revert x; rotate_left; unfold x; clear x) | (try unfold x; clear x))
    | intro _ _
    | with_reducible refine claimHeld_keeps ?_
    | with_reducible refine invalidField_keeps ?_
    | with_reducible refine fset_keeps ?_
    | with_reducible refine adminOk_keeps ?_
    | with_reducible refine askRun_keeps ?_
    | with_reducible refine setSpn_keeps ?_
    | with_reducible refine sequenceError_keeps ?_
    | with_reducible refine askStop_keeps ?_
    | with_reducible refine Keeps.ite ?_ ?_

theorem setD8_keeps {s0 : State} {dw11 : Word} {s : State} {x1 cid : Nat} (h : Keeps s0 s) : Keeps s0 (setD8 dw11 s x1 cid) := by
  unfold setD8
  repeat' first
    | with_reducible assumption
    | (extract_lets +onlyGivenNames x; first | (refine Keeps.letS (a := x) ?_ fun hx => ?_; rotate_left; clear_value x; revert x; rotate_left; unfold x; clear x) | (try unfold x; clear x))
    | intro _ _
    | with_reducible refine claimHeld_keeps ?_
    | with_reducible refine fsetb_keeps ?_
    | with_reducible refine adminOk_keeps ?_
    | with_reducible refine Keeps.ite ?_ ?_

theorem setE0_keeps {s0 : State} {dw11 dw12 : Word} {s : State} {x1 cid : Nat} (h : Keeps s0 s) : Keeps s0 (setE0 dw11 dw12 s x1 cid) := by
  unfold setE0
  repeat' first
    | with_reducible assumption
    | (extract_lets +onlyGivenNames x; first | (refine Keeps.letS (a := x) ?_ fun hx => ?_; rotate_left; clear_value x; revert x; rotate_left; unfold x; clear x) | (try unfold x; clear x))
    | intro _ _
    | with_reducible refine claimHeld_keeps ?_
    | with_reducible refine invalidField_keeps ?_
    | with_reducible refine sequenceError_keeps ?_
    | with_reducible refine fset_keeps ?_
    | with_reducible refine fsetb_keeps ?_
    | with_reducible refine adminOk_keeps ?_
    | with_reducible refine cacheEnable_keeps ?_
    | with_reducible refine cacheInvalidate_keeps ?_
    | with_reducible refine cacheDisable_keeps ?_
    | with_reducible refine setCch_keeps ?_
    | with_reducible refine Keeps.ite ?_ ?_

theorem setE8_keeps {s0 : State} {dw11 dw12 : Word} {s : State} {x1 cid : Nat} (h : Keeps s0 s) : Keeps s0 (setE8 dw11 dw12 s x1 cid) := by
  unfold setE8
  repeat' first
    | with_reducible assumption
    | (extract_lets +onlyGivenNames x; first | (refine Keeps.letS (a := x) ?_ fun hx => ?_; rotate_left; clear_value x; revert x; rotate_left; unfold x; clear x) | (try unfold x; clear x))
    | intro _ _
    | with_reducible refine claimHeld_keeps ?_
    | with_reducible refine invalidField_keeps ?_
    | with_reducible refine fset_keeps ?_
    | with_reducible refine adminOk_keeps ?_
    | with_reducible refine Keeps.ite ?_ ?_

theorem setE9_keeps {s0 : State} {dw11 dw12 : Word} {s : State} {x1 cid : Nat} (h : Keeps s0 s) : Keeps s0 (setE9 dw11 dw12 s x1 cid) := by
  unfold setE9
  repeat' first
    | with_reducible assumption
    | (extract_lets +onlyGivenNames x; first | (refine Keeps.letS (a := x) ?_ fun hx => ?_; rotate_left; clear_value x; revert x; rotate_left; unfold x; clear x) | (try unfold x; clear x))
    | intro _ _
    | with_reducible refine claimHeld_keeps ?_
    | with_reducible refine invalidField_keeps ?_
    | with_reducible refine fset_keeps ?_
    | with_reducible refine Keeps.forAll ?_ fun _ _ hy => ?_
    | with_reducible refine fsetb_keeps ?_
    | with_reducible refine adminOk_keeps ?_
    | with_reducible refine wrN_keeps ?_
    | with_reducible refine Keeps.ite ?_ ?_

theorem setEA_keeps {s0 : State} {dw11 dw12 : Word} {s : State} {x1 cid : Nat} (h : Keeps s0 s) : Keeps s0 (setEA dw11 dw12 s x1 cid) := by
  unfold setEA
  repeat' first
    | with_reducible assumption
    | (extract_lets +onlyGivenNames x; first | (refine Keeps.letS (a := x) ?_ fun hx => ?_; rotate_left; clear_value x; revert x; rotate_left; unfold x; clear x) | (try unfold x; clear x))
    | intro _ _
    | with_reducible refine claimHeld_keeps ?_
    | with_reducible refine invalidField_keeps ?_
    | with_reducible refine fsetb_keeps ?_
    | with_reducible refine fset_keeps ?_
    | with_reducible refine adminOk_keeps ?_
    | with_reducible refine Keeps.ite ?_ ?_

theorem hotUnload_keeps {s0 s : State} {p : Fin 32} (h : Keeps s0 s) : Keeps s0 (hotUnload s p) := by
  unfold hotUnload
  repeat' first
    | with_reducible assumption
    | (extract_lets +onlyGivenNames x; first | (refine Keeps.letS (a := x) ?_ fun hx => ?_; rotate_left; clear_value x; revert x; rotate_left; unfold x; clear x) | (try unfold x; clear x))
    | intro _ _
    | with_reducible refine setBgw_keeps ?_
    | with_reducible refine abandonCal_keeps ?_
    | with_reducible refine moveSurfs_keeps ?_
    | with_reducible refine doStop_keeps ?_
    | with_reducible refine holdRequest_keeps ?_
    | with_reducible refine unloadHeads_keeps ?_
    | with_reducible refine gradeUnit_keeps ?_
    | with_reducible refine setAux_keeps ?_
    | with_reducible refine Keeps.ite ?_ ?_
    | split

theorem execMechB5Unload_runs {s0 : State} {p : Fin 32} {s : State} (h : Keeps s0 s) : Runs s0 (execMechB5Unload p s) := by
  unfold execMechB5Unload
  repeat' first
    | with_reducible assumption
    | with_reducible refine Runs.next ?_
    | with_reducible refine hotUnload_keeps ?_
    | with_reducible refine Keeps.ite ?_ ?_
    | split

theorem execMechTempRecord_runs {s0 : State} {p : Fin 32} {index : BitVec 8} {temp : BitVec 16} {s : State} (h : Keeps s0 s) : Runs s0 (execMechTempRecord p index temp s) := by
  unfold execMechTempRecord
  repeat' first
    | with_reducible assumption
    | (extract_lets +onlyGivenNames x; first | (refine Keeps.letS (a := x) ?_ fun hx => ?_; rotate_left; clear_value x; revert x; rotate_left; unfold x; clear x) | (try unfold x; clear x))
    | with_reducible refine Runs.next ?_
    | with_reducible refine sensorFault_keeps ?_
    | with_reducible refine readNow_keeps ?_
    | with_reducible refine fset_keeps ?_
    | with_reducible refine ungradeUnit_keeps ?_
    | with_reducible refine Keeps.ite ?_ ?_
    | split

theorem memoryCheck_keeps {s0 s : State} {x1 : HPort} {cid : BitVec 16} {f : State → State × Bool} (hf : ∀ y, Keeps s0 y → Keeps s0 (f y).1) (h : Keeps s0 s) : Keeps s0 (memoryCheck s x1 cid f) := by
  unfold memoryCheck
  repeat' first
    | with_reducible assumption
    | (extract_lets +onlyGivenNames x; first | (refine Keeps.letS (a := x) ?_ fun hx => ?_; rotate_left; clear_value x; revert x; rotate_left; unfold x; clear x) | (try unfold x; clear x))
    | with_reducible refine adminCmd_keeps (fun _ hy => ?_) ?_
    | with_reducible refine claimHeld_keeps ?_
    | with_reducible refine adminOk_keeps ?_
    | with_reducible refine hf _ ?_
    | with_reducible refine Keeps.ite ?_ ?_

theorem execMemoryCheckPoison_runs {s0 s : State} {x : HPort} {cid : BitVec 16} {rgn : BitVec 2} (h : Keeps s0 s) :
    Runs s0 (execMemoryCheckPoison x cid rgn s) :=
  Runs.next (memoryCheck_keeps (fun _ hy => Keeps.mk1 (dropBad_keeps (lineRead_keeps (addPoison_keeps hy)))) h)

theorem flipTest_keeps {s0 s : State} {rgn mask : Nat} (h : Keeps s0 s) : Keeps s0 (flipTest s rgn mask).1 := by
  unfold flipTest
  with_reducible exact Keeps.mk1 (flipNow_keeps (wr_keeps (wrN_keeps (wr64_keeps h))))

theorem execMemoryCheckSingleBit_runs {s0 s : State} {x : HPort} {cid : BitVec 16} {rgn : BitVec 2} (h : Keeps s0 s) :
    Runs s0 (execMemoryCheckSingleBit x cid rgn s) :=
  Runs.next (memoryCheck_keeps (fun _ hy => Keeps.mk1 (flipTest_keeps hy)) h)

theorem execMemoryCheckUncorrectable_runs {s0 s : State} {x : HPort} {cid : BitVec 16} {rgn : BitVec 2} (h : Keeps s0 s) :
    Runs s0 (execMemoryCheckUncorrectable x cid rgn s) :=
  Runs.next (memoryCheck_keeps (fun _ hy => Keeps.mk1 (flipTest_keeps hy)) h)

theorem execMemoryCodeStore_runs {s0 : State} {x1 : HPort} {cid : BitVec 16} {regions : BitVec 8} {banks0 banks1 : BitVec 32} {s : State} (h : Keeps s0 s) : Runs s0 (execMemoryCodeStore x1 cid regions banks0 banks1 s) := by
  unfold execMemoryCodeStore
  repeat' first
    | with_reducible assumption
    | (extract_lets +onlyGivenNames x; first | (refine Keeps.letS (a := x) ?_ fun hx => ?_; rotate_left; clear_value x; revert x; rotate_left; unfold x; clear x) | (try unfold x; clear x))
    | with_reducible refine Runs.next ?_
    | with_reducible refine adminCmd_keeps (fun _ hy => ?_) ?_
    | with_reducible refine claimHeld_keeps ?_
    | with_reducible refine invalidField_keeps ?_
    | with_reducible refine adminOk_keeps ?_
    | with_reducible refine programPages_keeps ?_
    | with_reducible refine setMem_keeps ?_
    | with_reducible refine Keeps.ite ?_ ?_

theorem execMepCodeLock_runs {s0 : State} {m : Master} {s : State} (h : Keeps s0 s) : Runs s0 (execMepCodeLock m s) := by
  unfold execMepCodeLock
  repeat' first
    | with_reducible assumption
    | with_reducible refine Runs.next ?_
    | with_reducible refine regWrite_keeps (fun _ hy => ?_) ?_
    | with_reducible refine fsetb_keeps ?_

theorem execMepFlipArm_runs {s0 : State} {m : Master} {value : Word} {s : State} (h : Keeps s0 s) : Runs s0 (execMepFlipArm m value s) := by
  unfold execMepFlipArm
  repeat' first
    | with_reducible assumption
    | with_reducible refine Runs.next ?_
    | with_reducible refine regWrite_keeps (fun _ hy => ?_) ?_
    | with_reducible refine writeFlipCtrl_keeps ?_
    | with_reducible refine Keeps.ite ?_ ?_

theorem execMirrorAck_runs {s0 : State} {x1 : HPort} {sqid cid : BitVec 16} {s : State} (h : Keeps s0 s) : Runs s0 (execMirrorAck x1 sqid cid s) := by
  unfold execMirrorAck
  repeat' first
    | with_reducible assumption
    | (extract_lets +onlyGivenNames x; first | (refine Keeps.letS (a := x) ?_ fun hx => ?_; rotate_left; clear_value x; revert x; rotate_left; unfold x; clear x) | (try unfold x; clear x))
    | with_reducible refine Runs.next ?_
    | with_reducible refine setCmd_keeps ?_
    | with_reducible refine Keeps.ite ?_ ?_
    | split

theorem runCmd_keeps {s0 s : State} {x : HPort} {sqid cid : BitVec 16} {opc : Nat} {f : State → Cmd → State} (hf : ∀ t c, Keeps s0 t → Keeps s0 (f t c)) (h : Keeps s0 s) : Keeps s0 (runCmd s x sqid cid opc f) := by
  unfold runCmd
  split
  · exact h
  · refine Keeps.ite h (Keeps.ite (failCmd_keeps h) ?_)
    split
    · exact failCmd_keeps h
    · exact Keeps.ite h (Keeps.ite (failCmd_keeps h) (Keeps.ite (failCmd_keeps (setCmd_keeps h)) (hf _ _ h)))

theorem execNvmFlush_runs {s0 : State} {x1 : HPort} {sqid cid : BitVec 16} {s : State} (h : Keeps s0 s) : Runs s0 (execNvmFlush x1 sqid cid s) := by
  unfold execNvmFlush
  repeat' first
    | with_reducible assumption
    | (extract_lets +onlyGivenNames x; first | (refine Keeps.letS (a := x) ?_ fun hx => ?_; rotate_left; clear_value x; revert x; rotate_left; unfold x; clear x) | (try unfold x; clear x))
    | with_reducible refine Runs.next ?_
    | with_reducible refine runCmd_keeps (fun _ _ hy => ?_) ?_
    | with_reducible refine setCmd_keeps ?_

theorem execNvmRead_runs {s0 : State} {x1 : HPort} {sqid cid : BitVec 16} {errs : List MemErr} {s : State} (h : Keeps s0 s) : Runs s0 (execNvmRead x1 sqid cid errs s) := by
  unfold execNvmRead
  repeat' first
    | with_reducible assumption
    | with_reducible refine Runs.next ?_
    | with_reducible refine runCmd_keeps (fun _ _ hy => ?_) ?_
    | with_reducible refine beginRead_keeps ?_

theorem execNvmVerify_runs {s0 : State} {x1 : HPort} {sqid cid : BitVec 16} {errs : List MemErr} {s : State} (h : Keeps s0 s) : Runs s0 (execNvmVerify x1 sqid cid errs s) := by
  unfold execNvmVerify
  repeat' first
    | with_reducible assumption
    | with_reducible refine Runs.next ?_
    | with_reducible refine runCmd_keeps (fun _ _ hy => ?_) ?_
    | with_reducible refine beginRead_keeps ?_

theorem execNvmWrite_runs {s0 : State} {x1 : HPort} {sqid cid : BitVec 16} {s : State} (h : Keeps s0 s) : Runs s0 (execNvmWrite x1 sqid cid s) := by
  unfold execNvmWrite
  repeat' first
    | with_reducible assumption
    | with_reducible refine Runs.next ?_
    | with_reducible refine runCmd_keeps (fun _ _ hy => ?_) ?_
    | with_reducible refine beginWrite_keeps ?_

theorem execNvmWriteZeroes_runs {s0 : State} {x1 : HPort} {sqid cid : BitVec 16} {s : State} (h : Keeps s0 s) : Runs s0 (execNvmWriteZeroes x1 sqid cid s) := by
  unfold execNvmWriteZeroes
  repeat' first
    | with_reducible assumption
    | with_reducible refine Runs.next ?_
    | with_reducible refine runCmd_keeps (fun _ _ hy => ?_) ?_
    | with_reducible refine beginWrite_keeps ?_

theorem execObserverLoss_runs {s0 : State} {p : Fin 32} {s : State} (h : Keeps s0 s) : Runs s0 (execObserverLoss p s) := by
  unfold execObserverLoss
  repeat' first
    | with_reducible assumption
    | with_reducible refine Runs.next ?_
    | with_reducible refine safeWriterLost_keeps ?_
    | with_reducible refine observerLoss_keeps ?_
    | with_reducible refine Keeps.ite ?_ ?_

theorem execPageRetire_runs {s0 : State} {x1 : HPort} {cid : BitVec 16} {page : BitVec 20} {s : State} (h : Keeps s0 s) : Runs s0 (execPageRetire x1 cid page s) := by
  unfold execPageRetire
  repeat' first
    | with_reducible assumption
    | (extract_lets +onlyGivenNames x; first | (refine Keeps.letS (a := x) ?_ fun hx => ?_; rotate_left; clear_value x; revert x; rotate_left; unfold x; clear x) | (try unfold x; clear x))
    | with_reducible refine Runs.next ?_
    | with_reducible refine adminCmd_keeps (fun _ hy => ?_) ?_
    | with_reducible refine claimHeld_keeps ?_
    | with_reducible refine sequenceError_keeps ?_
    | with_reducible refine retireStart_keeps ?_
    | with_reducible refine setMem_keeps ?_
    | with_reducible refine Keeps.ite ?_ ?_

theorem freePage_keeps {s0 s : State} {page : Nat} (h : Keeps s0 s) : Keeps s0 (freePage s page) := by
  unfold freePage
  repeat' first
    | with_reducible assumption
    | with_reducible refine Keeps.forAll ?_ fun _ _ hy => ?_
    | with_reducible refine celogFree_keeps ?_

theorem retireAnswer_keeps {s0 s : State} {page r : Nat} (h : Keeps s0 s) : Keeps s0 (retireAnswer s page r) := by
  unfold retireAnswer
  repeat' first
    | with_reducible assumption
    | (extract_lets +onlyGivenNames x; first | (refine Keeps.letS (a := x) ?_ fun hx => ?_; rotate_left; clear_value x; revert x; rotate_left; unfold x; clear x) | (try unfold x; clear x))
    | intro _ _
    | with_reducible refine setMem_keeps ?_
    | with_reducible refine programPages_keeps ?_
    | with_reducible refine freePage_keeps ?_
    | with_reducible refine pagePolicy_keeps ?_
    | with_reducible refine adminOk_keeps ?_
    | with_reducible refine complete_keeps ?_
    | with_reducible refine Keeps.ite ?_ ?_
    | split

theorem execPageRetireDone_runs {s0 s : State} (h : Keeps s0 s) : Runs s0 (execPageRetireDone s) := by
  unfold execPageRetireDone
  repeat' first
    | with_reducible assumption
    | (extract_lets +onlyGivenNames x; first | (refine Keeps.letS (a := x) ?_ fun hx => ?_; rotate_left; clear_value x; revert x; rotate_left; unfold x; clear x) | (try unfold x; clear x))
    | with_reducible refine Runs.next ?_
    | with_reducible refine retireEffect_keeps ?_
    | with_reducible refine fset_keeps ?_
    | with_reducible refine fsetb_keeps ?_
    | with_reducible refine retireAnswer_keeps ?_
    | with_reducible refine evtSet_keeps ?_
    | with_reducible refine Keeps.ite ?_ ?_

theorem execPageRetireGo_runs {s0 : State} {m : Master} {page : BitVec 20} {s : State} (h : Keeps s0 s) : Runs s0 (execPageRetireGo m page s) := by
  unfold execPageRetireGo
  repeat' first
    | with_reducible assumption
    | with_reducible refine Runs.next ?_
    | with_reducible refine regWrite_keeps (fun _ hy => ?_) ?_
    | with_reducible refine retireStart_keeps ?_
    | with_reducible refine Keeps.ite ?_ ?_

theorem execPcieLinkUp_runs {s0 : State} {x1 : HPort} {speed : BitVec 3} {width : BitVec 6} {s : State} (h : Keeps s0 s) : Runs s0 (execPcieLinkUp x1 speed width s) := by
  unfold execPcieLinkUp
  repeat' first
    | with_reducible assumption
    | (extract_lets +onlyGivenNames x; first | (refine Keeps.letS (a := x) ?_ fun hx => ?_; rotate_left; clear_value x; revert x; rotate_left; unfold x; clear x) | (try unfold x; clear x))
    | with_reducible refine Runs.next ?_
    | with_reducible refine fset_keeps ?_
    | with_reducible refine psUpdate_keeps ?_
    | with_reducible refine fsetb_keeps ?_
    | with_reducible refine Keeps.ite ?_ ?_

theorem execPerstAssert_runs {s0 : State} {x1 : HPort} {s : State} (h : Keeps s0 s) : Runs s0 (execPerstAssert x1 s) := by
  unfold execPerstAssert
  repeat' first
    | with_reducible assumption
    | (extract_lets +onlyGivenNames x; first | (refine Keeps.letS (a := x) ?_ fun hx => ?_; rotate_left; clear_value x; revert x; rotate_left; unfold x; clear x) | (try unfold x; clear x))
    | with_reducible refine Runs.next ?_
    | with_reducible refine linkDown_keeps ?_
    | with_reducible refine controllerReset_keeps ?_
    | with_reducible refine setCtl_keeps ?_
    | with_reducible refine psUpdate_keeps ?_
    | with_reducible refine partyReset_keeps ?_
    | with_reducible refine releaseClaims_keeps ?_
    | with_reducible refine domRelease_keeps ?_

theorem syncCntlidB_keeps {s0 s : State} (h : Keeps s0 s) : Keeps s0 (syncCntlidB s) := by
  unfold syncCntlidB
  repeat' first
    | with_reducible assumption
    | with_reducible refine fset_keeps ?_

theorem execPerstDeassert_runs {s0 : State} {x1 : HPort} {bifur : Bool} {s : State} (h : Keeps s0 s) : Runs s0 (execPerstDeassert x1 bifur s) := by
  unfold execPerstDeassert
  repeat' first
    | with_reducible assumption
    | (extract_lets +onlyGivenNames x; first | (refine Keeps.letS (a := x) ?_ fun hx => ?_; rotate_left; clear_value x; revert x; rotate_left; unfold x; clear x) | (try unfold x; clear x))
    | with_reducible refine Runs.next ?_
    | with_reducible refine fsetb_keeps ?_
    | with_reducible refine syncCntlidB_keeps ?_
    | with_reducible refine linkDown_keeps ?_
    | with_reducible refine controllerReset_keeps ?_
    | with_reducible refine domRequest_keeps ?_
    | with_reducible refine setCtl_keeps ?_
    | with_reducible refine Keeps.ite ?_ ?_

theorem surpriseDown_keeps {s0 s : State} {p : Nat} (h : Keeps s0 s) : Keeps s0 (surpriseDown s p) := by
  unfold surpriseDown
  repeat' first
    | with_reducible assumption
    | (extract_lets +onlyGivenNames x; first | (refine Keeps.letS (a := x) ?_ fun hx => ?_; rotate_left; clear_value x; revert x; rotate_left; unfold x; clear x) | (try unfold x; clear x))
    | intro _ _
    | with_reducible refine psUpdate_keeps ?_
    | with_reducible refine linkDown_keeps ?_
    | with_reducible refine controllerReset_keeps ?_
    | with_reducible refine evtSet_keeps ?_
    | with_reducible refine partyReset_keeps ?_
    | with_reducible refine releaseClaims_keeps ?_

theorem execPoisonedCompletion_runs {s0 : State} {x1 : HPort} {sqid cid : BitVec 16} {s : State} (h : Keeps s0 s) : Runs s0 (execPoisonedCompletion x1 sqid cid s) := by
  unfold execPoisonedCompletion
  repeat' first
    | with_reducible assumption
    | with_reducible refine Runs.next ?_
    | with_reducible refine dataLost_keeps ?_

theorem policiesTaken_keeps {s0 s : State} (h : Keeps s0 s) : Keeps s0 (policiesTaken s) := by
  unfold policiesTaken
  repeat' first
    | with_reducible assumption
    | with_reducible refine Keeps.forAll ?_ fun _ _ hy => ?_
    | with_reducible refine fset_keeps ?_

theorem sleepPolicy_keeps {s0 s : State} {p u : Nat} {pr : PowerRec} (h : Keeps s0 s) : Keeps s0 (sleepPolicy s p u pr) := by
  unfold sleepPolicy
  repeat' first
    | with_reducible assumption
    | (extract_lets +onlyGivenNames x; first | (refine Keeps.letS (a := x) ?_ fun hx => ?_; rotate_left; clear_value x; revert x; rotate_left; unfold x; clear x) | (try unfold x; clear x))
    | with_reducible refine askStop_keeps ?_
    | with_reducible refine fset_keeps ?_
    | with_reducible refine Keeps.ite ?_ ?_

theorem policyStep_keeps {s0 s : State} {p i : Nat} (h : Keeps s0 s) : Keeps s0 (policyStep s p i) := by
  unfold policyStep
  repeat' first
    | with_reducible assumption
    | with_reducible refine askStep_keeps ?_
    | with_reducible refine fset_keeps ?_
    | with_reducible refine Keeps.ite ?_ ?_

theorem speedPolicy_keeps {s0 s : State} {p u : Nat} {pr : PowerRec} (h : Keeps s0 s) : Keeps s0 (speedPolicy s p u pr) := by
  unfold speedPolicy
  repeat' first
    | with_reducible assumption
    | (extract_lets +onlyGivenNames x; first | (refine Keeps.letS (a := x) ?_ fun hx => ?_; rotate_left; clear_value x; revert x; rotate_left; unfold x; clear x) | (try unfold x; clear x))
    | intro _ _
    | with_reducible refine policyStep_keeps ?_
    | with_reducible refine setSpn_keeps ?_
    | with_reducible refine Keeps.ite ?_ ?_

theorem portPolicy_keeps {s0 s : State} {p load : Nat} (h : Keeps s0 s) : Keeps s0 (portPolicy s p load) := by
  unfold portPolicy
  repeat' first
    | with_reducible assumption
    | (extract_lets +onlyGivenNames x; first | (refine Keeps.letS (a := x) ?_ fun hx => ?_; rotate_left; clear_value x; revert x; rotate_left; unfold x; clear x) | (try unfold x; clear x))
    | intro _ _
    | with_reducible refine setAux_keeps ?_
    | with_reducible refine sleepPolicy_keeps ?_
    | with_reducible refine speedPolicy_keeps ?_
    | with_reducible refine Keeps.ite ?_ ?_
    | split

theorem wakeSpin_keeps {s0 s : State} {v : Nat} (h : Keeps s0 s) : Keeps s0 (wakeSpin s v) := by
  unfold wakeSpin
  repeat' first
    | with_reducible assumption
    | (extract_lets +onlyGivenNames x; first | (refine Keeps.letS (a := x) ?_ fun hx => ?_; rotate_left; clear_value x; revert x; rotate_left; unfold x; clear x) | (try unfold x; clear x))
    | intro _ _
    | with_reducible refine askRun_keeps ?_
    | with_reducible refine fset_keeps ?_
    | with_reducible refine loadHeads_keeps ?_
    | with_reducible refine setSpn_keeps ?_
    | with_reducible refine Keeps.ite ?_ ?_
    | split
    | with_reducible refine Keeps.upd ?_ rfl rfl rfl

theorem execPowerPolicyEvaluation_runs {s0 : State} {loads : List (BitVec 7)} {s01 : State} (h : Keeps s0 s01) : Runs s0 (execPowerPolicyEvaluation loads s01) := by
  unfold execPowerPolicyEvaluation
  repeat' first
    | with_reducible assumption
    | (extract_lets +onlyGivenNames x; first | (refine Keeps.letS (a := x) ?_ fun hx => ?_; rotate_left; clear_value x; revert x; rotate_left; unfold x; clear x) | (try unfold x; clear x))
    | with_reducible refine Runs.next ?_
    | with_reducible refine policiesTaken_keeps ?_
    | with_reducible refine Keeps.forAll ?_ fun _ _ hy => ?_
    | with_reducible refine portPolicy_keeps ?_
    | with_reducible refine wakeSpin_keeps ?_
    | with_reducible refine overrideSwitch_keeps ?_
    | with_reducible refine Keeps.ite ?_ ?_

theorem pfFill_keeps {s0 s : State} {d : StrideDet} (h : Keeps s0 s) : Keeps s0 (pfFill s d) := by
  unfold pfFill
  repeat' first
    | with_reducible assumption
    | (extract_lets +onlyGivenNames x; first | (refine Keeps.letS (a := x) ?_ fun hx => ?_; rotate_left; clear_value x; revert x; rotate_left; unfold x; clear x) | (try unfold x; clear x))
    | with_reducible refine count_keeps ?_
    | with_reducible refine Keeps.forAll ?_ fun _ _ hy => ?_
    | with_reducible refine beginFill_keeps ?_

theorem execPrefetchIssue_runs {s0 : State} {i : BitVec 8} {s : State} (h : Keeps s0 s) : Runs s0 (execPrefetchIssue i s) := by
  unfold execPrefetchIssue
  repeat' first
    | with_reducible assumption
    | (extract_lets +onlyGivenNames x; first | (refine Keeps.letS (a := x) ?_ fun hx => ?_; rotate_left; clear_value x; revert x; rotate_left; unfold x; clear x) | (try unfold x; clear x))
    | with_reducible refine Runs.next ?_
    | with_reducible refine setCch_keeps ?_
    | with_reducible refine pfFill_keeps ?_
    | with_reducible refine Keeps.ite ?_ ?_
    | split

theorem execSafeExit_runs {s0 s : State} (h : Keeps s0 s) : Runs s0 (execSafeExit s) := by
  unfold execSafeExit
  repeat' first
    | with_reducible assumption
    | (extract_lets +onlyGivenNames x; first | (refine Keeps.letS (a := x) ?_ fun hx => ?_; rotate_left; clear_value x; revert x; rotate_left; unfold x; clear x) | (try unfold x; clear x))
    | with_reducible refine Runs.next ?_
    | with_reducible refine fset_keeps ?_
    | with_reducible refine fsetb_keeps ?_
    | with_reducible refine setMode_keeps ?_
    | with_reducible refine setBal_keeps ?_
    | with_reducible refine applyRule_keeps ?_
    | with_reducible refine psUpdate_keeps ?_
    | with_reducible refine Keeps.ite ?_ ?_

theorem safeStage_keeps {s0 s : State} {x1 : Ext × Nat} {rewrite : Bool} (h : Keeps s0 s) : Keeps s0 (safeStage s x1 rewrite) := by
  unfold safeStage
  repeat' first
    | with_reducible assumption
    | (extract_lets +onlyGivenNames x; first | (refine Keeps.letS (a := x) ?_ fun hx => ?_; rotate_left; clear_value x; revert x; rotate_left; unfold x; clear x) | (try unfold x; clear x))
    | intro _ _
    | with_reducible refine setZmp_keeps ?_
    | with_reducible refine emitAll_keeps ?_
    | with_reducible refine stagedSync_keeps ?_
    | with_reducible refine count_keeps ?_
    | with_reducible refine journalZone_keeps ?_
    | with_reducible refine releaseDirty_keeps ?_
    | split

theorem passesStop_keeps {s0 s : State} (h : Keeps s0 s) : Keeps s0 (passesStop s) := by
  unfold passesStop
  repeat' first
    | with_reducible assumption
    | with_reducible refine Keeps.forAll ?_ fun _ _ hy => ?_
    | with_reducible refine syncPend_keeps ?_
    | with_reducible refine setSlice_keeps ?_

theorem safeStaged_keeps {s0 s : State} (h : Keeps s0 s) : Keeps s0 (safeStaged s) := by
  unfold safeStaged
  repeat' first
    | with_reducible assumption
    | (extract_lets +onlyGivenNames x; first | (refine Keeps.letS (a := x) ?_ fun hx => ?_; rotate_left; clear_value x; revert x; rotate_left; unfold x; clear x) | (try unfold x; clear x))
    | intro _ _
    | with_reducible refine Keeps.forAll ?_ fun _ _ hy => ?_
    | with_reducible refine safeStage_keeps ?_
    | with_reducible refine passesStop_keeps ?_
    | with_reducible refine setZmp_keeps ?_
    | with_reducible refine evtSet_keeps ?_
    | with_reducible refine fset_keeps ?_
    | with_reducible refine setSpn_keeps ?_
    | with_reducible refine unloadHeads_keeps ?_
    | with_reducible refine goBrake_keeps ?_
    | with_reducible refine safeParkDone_keeps ?_
    | with_reducible refine Keeps.ite ?_ ?_

theorem execSafeStagingDone_runs {s0 s : State} (h : Keeps s0 s) : Runs s0 (execSafeStagingDone s) := by
  unfold execSafeStagingDone
  repeat' first
    | with_reducible assumption
    | with_reducible refine Runs.next ?_
    | with_reducible refine safeStaged_keeps ?_
    | with_reducible refine Keeps.ite ?_ ?_

theorem execSafeStagingStart_runs {s0 s : State} (h : Keeps s0 s) : Runs s0 (execSafeStagingStart s) := by
  unfold execSafeStagingStart
  repeat' first
    | with_reducible assumption
    | with_reducible refine Runs.next ?_
    | with_reducible refine fset_keeps ?_
    | with_reducible refine Keeps.ite ?_ ?_

theorem flashCheck_keeps {s0 s : State} {b : Nat} {differ ce : Bool} (h : Keeps s0 s) : Keeps s0 (flashCheck s b differ ce) := by
  unfold flashCheck
  repeat' first
    | with_reducible assumption
    | (extract_lets +onlyGivenNames x; first | (refine Keeps.letS (a := x) ?_ fun hx => ?_; rotate_left; clear_value x; revert x; rotate_left; unfold x; clear x) | (try unfold x; clear x))
    | intro _ _
    | with_reducible refine evtSet_keeps ?_
    | with_reducible refine count_keeps ?_
    | with_reducible refine rootGrade_keeps ?_
    | with_reducible refine storeBlocks_keeps ?_
    | with_reducible refine Keeps.ite ?_ ?_

theorem setMechBand_keeps {s0 s : State} {p b : Nat} (h : Keeps s0 s) : Keeps s0 (setMechBand s p b) := by
  unfold setMechBand
  repeat' first
    | with_reducible assumption
    | (extract_lets +onlyGivenNames x; first | (refine Keeps.letS (a := x) ?_ fun hx => ?_; rotate_left; clear_value x; revert x; rotate_left; unfold x; clear x) | (try unfold x; clear x))
    | intro _ _
    | with_reducible refine bandEvents_keeps ?_
    | with_reducible refine fset_keeps ?_
    | with_reducible refine setBgw_keeps ?_
    | with_reducible refine ungradeUnit_keeps ?_
    | with_reducible refine syncLevel_keeps ?_
    | with_reducible refine portRefs_keeps ?_
    | with_reducible refine Keeps.ite ?_ ?_
    | split

theorem sourceLost_keeps {s0 s : State} {k : Nat} (h : Keeps s0 s) : Keeps s0 (sourceLost s k) := by
  unfold sourceLost
  repeat' first
    | with_reducible assumption
    | (extract_lets +onlyGivenNames x; first | (refine Keeps.letS (a := x) ?_ fun hx => ?_; rotate_left; clear_value x; revert x; rotate_left; unfold x; clear x) | (try unfold x; clear x))
    | intro _ _
    | with_reducible refine setBgw_keeps ?_
    | with_reducible refine sensorFault_keeps ?_
    | with_reducible refine deviceBand_keeps ?_
    | with_reducible refine fsetb_keeps ?_
    | with_reducible refine setMechBand_keeps ?_
    | with_reducible refine gradeUnit_keeps ?_
    | with_reducible refine Keeps.ite ?_ ?_
    | split

theorem execSensorTimeout_runs {s0 : State} {source : Fin 93} {s : State} (h : Keeps s0 s) : Runs s0 (execSensorTimeout source s) := by
  unfold execSensorTimeout
  repeat' first
    | with_reducible assumption
    | with_reducible refine Runs.next ?_
    | with_reducible refine sourceLost_keeps ?_
    | with_reducible refine Keeps.ite ?_ ?_

theorem setFeat_keeps {s0 s : State} {x1 : HPort} {cid : BitVec 16} {sv : Bool} {f : State → Nat → Nat → State} (hf : ∀ y0 y1 y2, Keeps s0 y0 → Keeps s0 (f y0 y1 y2)) (h : Keeps s0 s) : Keeps s0 (setFeat s x1 cid sv f) := by
  unfold setFeat
  repeat' first
    | with_reducible assumption
    | with_reducible refine adminCmd_keeps (fun _ hy => ?_) ?_
    | with_reducible refine adminEnd_keeps ?_
    | with_reducible refine hf _ _ _ ?_
    | with_reducible refine Keeps.ite ?_ ?_

theorem execSetBackgroundControl_runs {s0 : State} {x1 : HPort} {cid : BitVec 16} {dw11 dw12 : Word} {sv : Bool} {s : State} (h : Keeps s0 s) : Runs s0 (execSetBackgroundControl x1 cid dw11 dw12 sv s) := by
  unfold execSetBackgroundControl
  repeat' first
    | with_reducible assumption
    | with_reducible refine Runs.next ?_
    | with_reducible refine setFeat_keeps (fun _ _ _ hy => ?_) ?_
    | with_reducible refine setE9_keeps ?_

theorem execSetBallastControl_runs {s0 : State} {x1 : HPort} {cid : BitVec 16} {dw11 dw12 : Word} {sv : Bool} {s : State} (h : Keeps s0 s) : Runs s0 (execSetBallastControl x1 cid dw11 dw12 sv s) := by
  unfold execSetBallastControl
  repeat' first
    | with_reducible assumption
    | with_reducible refine Runs.next ?_
    | with_reducible refine setFeat_keeps (fun _ _ _ hy => ?_) ?_
    | with_reducible refine setE8_keeps ?_

theorem execSetCacheControl_runs {s0 : State} {x1 : HPort} {cid : BitVec 16} {dw11 dw12 : Word} {sv : Bool} {s : State} (h : Keeps s0 s) : Runs s0 (execSetCacheControl x1 cid dw11 dw12 sv s) := by
  unfold execSetCacheControl
  repeat' first
    | with_reducible assumption
    | with_reducible refine Runs.next ?_
    | with_reducible refine setFeat_keeps (fun _ _ _ hy => ?_) ?_
    | with_reducible refine setE0_keeps ?_

theorem execSetCommandSlotReservation_runs {s0 : State} {x1 : HPort} {cid : BitVec 16} {dw11 : Word} {sv : Bool} {s : State} (h : Keeps s0 s) : Runs s0 (execSetCommandSlotReservation x1 cid dw11 sv s) := by
  unfold execSetCommandSlotReservation
  repeat' first
    | with_reducible assumption
    | with_reducible refine Runs.next ?_
    | with_reducible refine setFeat_keeps (fun _ _ _ hy => ?_) ?_
    | with_reducible refine setC1_keeps ?_

theorem execSetControlSetOverride_runs {s0 : State} {x1 : HPort} {cid : BitVec 16} {dw11 : Word} {sv : Bool} {s : State} (h : Keeps s0 s) : Runs s0 (execSetControlSetOverride x1 cid dw11 sv s) := by
  unfold execSetControlSetOverride
  repeat' first
    | with_reducible assumption
    | with_reducible refine Runs.next ?_
    | with_reducible refine setFeat_keeps (fun _ _ _ hy => ?_) ?_
    | with_reducible refine setD4_keeps ?_

theorem execSetDecodeScheduling_runs {s0 : State} {x1 : HPort} {cid : BitVec 16} {dw11 dw12 : Word} {sv : Bool} {s : State} (h : Keeps s0 s) : Runs s0 (execSetDecodeScheduling x1 cid dw11 dw12 sv s) := by
  unfold execSetDecodeScheduling
  repeat' first
    | with_reducible assumption
    | with_reducible refine Runs.next ?_
    | with_reducible refine setFeat_keeps (fun _ _ _ hy => ?_) ?_
    | with_reducible refine setD1_keeps ?_

theorem execSetEventRouting_runs {s0 : State} {x1 : HPort} {cid : BitVec 16} {dw11 dw12 : Word} {sv : Bool} {s : State} (h : Keeps s0 s) : Runs s0 (execSetEventRouting x1 cid dw11 dw12 sv s) := by
  unfold execSetEventRouting
  repeat' first
    | with_reducible assumption
    | with_reducible refine Runs.next ?_
    | with_reducible refine setFeat_keeps (fun _ _ _ hy => ?_) ?_
    | with_reducible refine setC8_keeps ?_

theorem setNoAction_keeps {s0 : State} {fid : Nat} {dw11 : Word} {s : State} {x1 cid : Nat} (h : Keeps s0 s) : Keeps s0 (setNoAction fid dw11 s x1 cid) := by
  unfold setNoAction
  repeat' first
    | with_reducible assumption
    | (extract_lets +onlyGivenNames x; first | (refine Keeps.letS (a := x) ?_ fun hx => ?_; rotate_left; clear_value x; revert x; rotate_left; unfold x; clear x) | (try unfold x; clear x))
    | with_reducible refine claimHeld_keeps ?_
    | with_reducible refine adminOk_keeps ?_
    | with_reducible refine Keeps.ite ?_ ?_

theorem setPlain_keeps {s0 : State} {fid : Nat} {dw11 : Word} {s : State} {x1 cid : Nat} (h : Keeps s0 s) : Keeps s0 (setPlain fid dw11 s x1 cid) := by
  unfold setPlain
  repeat' first
    | with_reducible assumption
    | (extract_lets +onlyGivenNames x; first | (refine Keeps.letS (a := x) ?_ fun hx => ?_; rotate_left; clear_value x; revert x; rotate_left; unfold x; clear x) | (try unfold x; clear x))
    | intro _ _
    | with_reducible refine invalidField_keeps ?_
    | with_reducible refine adminOk_keeps ?_
    | with_reducible refine setCtl_keeps ?_
    | with_reducible refine Keeps.ite ?_ ?_

theorem execSetFeatures_runs {s0 : State} {x1 : HPort} {cid : BitVec 16} {fid : BitVec 8} {dw11 : Word} {sv : Bool} {s : State} (h : Keeps s0 s) : Runs s0 (execSetFeatures x1 cid fid dw11 sv s) := by
  unfold execSetFeatures
  repeat' first
    | with_reducible assumption
    | with_reducible refine Runs.next ?_
    | with_reducible refine setFeat_keeps (fun _ _ _ hy => ?_) ?_
    | with_reducible refine setNoAction_keeps ?_
    | with_reducible refine setPlain_keeps ?_
    | with_reducible refine adminCmd_keeps (fun _ hy => ?_) ?_
    | with_reducible refine invalidField_keeps ?_
    | with_reducible refine Keeps.ite ?_ ?_

theorem execSetPartnerControl_runs {s0 : State} {x1 : HPort} {cid : BitVec 16} {dw11 : Word} {sv : Bool} {s : State} (h : Keeps s0 s) : Runs s0 (execSetPartnerControl x1 cid dw11 sv s) := by
  unfold execSetPartnerControl
  repeat' first
    | with_reducible assumption
    | with_reducible refine Runs.next ?_
    | with_reducible refine setFeat_keeps (fun _ _ _ hy => ?_) ?_
    | with_reducible refine setD8_keeps ?_

theorem execSetReadRecoveryControl_runs {s0 : State} {x1 : HPort} {cid : BitVec 16} {dw11 : Word} {sv : Bool} {s : State} (h : Keeps s0 s) : Runs s0 (execSetReadRecoveryControl x1 cid dw11 sv s) := by
  unfold execSetReadRecoveryControl
  repeat' first
    | with_reducible assumption
    | with_reducible refine Runs.next ?_
    | with_reducible refine setFeat_keeps (fun _ _ _ hy => ?_) ?_
    | with_reducible refine setD2_keeps ?_

theorem execSetSpindleReturnToPolicy_runs {s0 : State} {x1 : HPort} {cid : BitVec 16} {p : Fin 32} {sv : Bool} {s : State} (h : Keeps s0 s) : Runs s0 (execSetSpindleReturnToPolicy x1 cid p sv s) := by
  unfold execSetSpindleReturnToPolicy
  repeat' first
    | with_reducible assumption
    | with_reducible refine Runs.next ?_
    | with_reducible refine setFeat_keeps (fun _ _ _ hy => ?_) ?_
    | with_reducible refine setD5_keeps ?_

theorem execSetSpindleRun_runs {s0 : State} {x1 : HPort} {cid : BitVec 16} {p : Fin 32} {index : BitVec 2} {sv : Bool} {s : State} (h : Keeps s0 s) : Runs s0 (execSetSpindleRun x1 cid p index sv s) := by
  unfold execSetSpindleRun
  repeat' first
    | with_reducible assumption
    | with_reducible refine Runs.next ?_
    | with_reducible refine setFeat_keeps (fun _ _ _ hy => ?_) ?_
    | with_reducible refine setD5_keeps ?_

theorem execSetSpindleStop_runs {s0 : State} {x1 : HPort} {cid : BitVec 16} {p : Fin 32} {sv : Bool} {s : State} (h : Keeps s0 s) : Runs s0 (execSetSpindleStop x1 cid p sv s) := by
  unfold execSetSpindleStop
  repeat' first
    | with_reducible assumption
    | with_reducible refine Runs.next ?_
    | with_reducible refine setFeat_keeps (fun _ _ _ hy => ?_) ?_
    | with_reducible refine setD5_keeps ?_

theorem execSetTailSnapshotSelect_runs {s0 : State} {x1 : HPort} {cid : BitVec 16} {dw11 dw12 : Word} {sv : Bool} {s : State} (h : Keeps s0 s) : Runs s0 (execSetTailSnapshotSelect x1 cid dw11 dw12 sv s) := by
  unfold execSetTailSnapshotSelect
  repeat' first
    | with_reducible assumption
    | with_reducible refine Runs.next ?_
    | with_reducible refine setFeat_keeps (fun _ _ _ hy => ?_) ?_
    | with_reducible refine setC9_keeps ?_

theorem execSetTetherPortDisable_runs {s0 : State} {x1 : HPort} {cid : BitVec 16} {p : Fin 32} {sv : Bool} {s : State} (h : Keeps s0 s) : Runs s0 (execSetTetherPortDisable x1 cid p sv s) := by
  unfold execSetTetherPortDisable
  repeat' first
    | with_reducible assumption
    | with_reducible refine Runs.next ?_
    | with_reducible refine setFeat_keeps (fun _ _ _ hy => ?_) ?_
    | with_reducible refine setD0_keeps ?_

theorem execSetTetherPortEnable_runs {s0 : State} {x1 : HPort} {cid : BitVec 16} {p : Fin 32} {sv : Bool} {s : State} (h : Keeps s0 s) : Runs s0 (execSetTetherPortEnable x1 cid p sv s) := by
  unfold execSetTetherPortEnable
  repeat' first
    | with_reducible assumption
    | with_reducible refine Runs.next ?_
    | with_reducible refine setFeat_keeps (fun _ _ _ hy => ?_) ?_
    | with_reducible refine setD0_keeps ?_

theorem execSetTetherPortRetrain_runs {s0 : State} {x1 : HPort} {cid : BitVec 16} {p : Fin 32} {sv : Bool} {s : State} (h : Keeps s0 s) : Runs s0 (execSetTetherPortRetrain x1 cid p sv s) := by
  unfold execSetTetherPortRetrain
  repeat' first
    | with_reducible assumption
    | with_reducible refine Runs.next ?_
    | with_reducible refine setFeat_keeps (fun _ _ _ hy => ?_) ?_
    | with_reducible refine setD0_keeps ?_

theorem execSetThermalControl_runs {s0 : State} {x1 : HPort} {cid : BitVec 16} {dw11 dw12 : Word} {sv : Bool} {s : State} (h : Keeps s0 s) : Runs s0 (execSetThermalControl x1 cid dw11 dw12 sv s) := by
  unfold execSetThermalControl
  repeat' first
    | with_reducible assumption
    | with_reducible refine Runs.next ?_
    | with_reducible refine setFeat_keeps (fun _ _ _ hy => ?_) ?_
    | with_reducible refine setEA_keeps ?_

theorem execSetUnitPowerPolicy_runs {s0 : State} {x1 : HPort} {cid : BitVec 16} {dw11 : Word} {sv : Bool} {s : State} (h : Keeps s0 s) : Runs s0 (execSetUnitPowerPolicy x1 cid dw11 sv s) := by
  unfold execSetUnitPowerPolicy
  repeat' first
    | with_reducible assumption
    | with_reducible refine Runs.next ?_
    | with_reducible refine setFeat_keeps (fun _ _ _ hy => ?_) ?_
    | with_reducible refine setC0_keeps ?_

theorem execSetWriteSafetyControl_runs {s0 : State} {x1 : HPort} {cid : BitVec 16} {dw11 dw12 : Word} {sv : Bool} {s : State} (h : Keeps s0 s) : Runs s0 (execSetWriteSafetyControl x1 cid dw11 dw12 sv s) := by
  unfold execSetWriteSafetyControl
  repeat' first
    | with_reducible assumption
    | with_reducible refine Runs.next ?_
    | with_reducible refine setFeat_keeps (fun _ _ _ hy => ?_) ?_
    | with_reducible refine setD3_keeps ?_

theorem execSetZoneLayoutControl_runs {s0 : State} {x1 : HPort} {cid : BitVec 16} {dw11 : Word} {sv : Bool} {s : State} (h : Keeps s0 s) : Runs s0 (execSetZoneLayoutControl x1 cid dw11 sv s) := by
  unfold execSetZoneLayoutControl
  repeat' first
    | with_reducible assumption
    | with_reducible refine Runs.next ?_
    | with_reducible refine setFeat_keeps (fun _ _ _ hy => ?_) ?_
    | with_reducible refine setC2_keeps ?_

theorem pfailAssert_keeps {s0 s : State} (h : Keeps s0 s) : Keeps s0 (pfailAssert s) := by
  unfold pfailAssert
  repeat' first
    | with_reducible assumption
    | (extract_lets +onlyGivenNames x; first | (refine Keeps.letS (a := x) ?_ fun hx => ?_; rotate_left; clear_value x; revert x; rotate_left; unfold x; clear x) | (try unfold x; clear x))
    | intro _ _
    | with_reducible refine fsetb_keeps ?_
    | with_reducible refine setPrt_keeps (fun _ => rfl) ?_
    | with_reducible refine enterSafe_keeps ?_
    | with_reducible refine handoverFail_keeps ?_
    | with_reducible refine setRole_keeps ?_
    | with_reducible refine hoPhase_keeps ?_
    | with_reducible refine Keeps.ite ?_ ?_

theorem execShelfPfailAssert_runs {s0 s : State} (h : Keeps s0 s) : Runs s0 (execShelfPfailAssert s) := by
  unfold execShelfPfailAssert
  repeat' first
    | with_reducible assumption
    | with_reducible refine Runs.next ?_
    | with_reducible refine pfailAssert_keeps ?_

theorem execShelfPfailDeassert_runs {s0 s : State} (h : Keeps s0 s) : Runs s0 (execShelfPfailDeassert s) := by
  unfold execShelfPfailDeassert
  repeat' first
    | with_reducible assumption
    | (extract_lets +onlyGivenNames x; first | (refine Keeps.letS (a := x) ?_ fun hx => ?_; rotate_left; clear_value x; revert x; rotate_left; unfold x; clear x) | (try unfold x; clear x))
    | with_reducible refine Runs.next ?_
    | with_reducible refine fsetb_keeps ?_
    | with_reducible refine evtSet_keeps ?_
    | with_reducible refine Keeps.ite ?_ ?_

theorem execSpindleServiceCalibrate_runs {s0 : State} {x1 : HPort} {cid : BitVec 16} {p : Fin 32} {q : BitVec 5} {s : State} (h : Keeps s0 s) : Runs s0 (execSpindleServiceCalibrate x1 cid p q s) := by
  unfold execSpindleServiceCalibrate
  repeat' first
    | with_reducible assumption
    | with_reducible refine Runs.next ?_
    | with_reducible refine adminCmd_keeps (fun _ hy => ?_) ?_
    | with_reducible refine claimHeld_keeps ?_
    | with_reducible refine invalidField_keeps ?_
    | with_reducible refine adminOk_keeps ?_
    | with_reducible refine calPend_keeps ?_
    | with_reducible refine Keeps.ite ?_ ?_

theorem execSpindleServiceClear_runs {s0 : State} {x1 : HPort} {cid : BitVec 16} {p : Fin 32} {s : State} (h : Keeps s0 s) : Runs s0 (execSpindleServiceClear x1 cid p s) := by
  unfold execSpindleServiceClear
  repeat' first
    | with_reducible assumption
    | (extract_lets +onlyGivenNames x; first | (refine Keeps.letS (a := x) ?_ fun hx => ?_; rotate_left; clear_value x; revert x; rotate_left; unfold x; clear x) | (try unfold x; clear x))
    | intro _ _
    | with_reducible refine Runs.next ?_
    | with_reducible refine adminCmd_keeps (fun _ hy => ?_) ?_
    | with_reducible refine claimHeld_keeps ?_
    | with_reducible refine fset_keeps ?_
    | with_reducible refine fsetb_keeps ?_
    | with_reducible refine adminOk_keeps ?_
    | with_reducible refine Keeps.ite ?_ ?_
    | with_reducible refine Keeps.upd ?_ rfl rfl rfl

theorem execSpindleServiceTest_runs {s0 : State} {x1 : HPort} {cid : BitVec 16} {p : Fin 32} {index : BitVec 2} {s : State} (h : Keeps s0 s) : Runs s0 (execSpindleServiceTest x1 cid p index s) := by
  unfold execSpindleServiceTest
  repeat' first
    | with_reducible assumption
    | (extract_lets +onlyGivenNames x; first | (refine Keeps.letS (a := x) ?_ fun hx => ?_; rotate_left; clear_value x; revert x; rotate_left; unfold x; clear x) | (try unfold x; clear x))
    | intro _ _
    | with_reducible refine Runs.next ?_
    | with_reducible refine adminCmd_keeps (fun _ hy => ?_) ?_
    | with_reducible refine claimHeld_keeps ?_
    | with_reducible refine sequenceError_keeps ?_
    | with_reducible refine invalidField_keeps ?_
    | with_reducible refine setSpn_keeps ?_
    | with_reducible refine setSpnState_keeps ?_
    | with_reducible refine enginePower_keeps ?_
    | with_reducible refine fset_keeps ?_
    | with_reducible refine spnSlotRef_keeps ?_
    | with_reducible refine spnSlotMode_keeps ?_
    | with_reducible refine Keeps.ite ?_ ?_

theorem execSpindleTestEnd_runs {s0 : State} {p : Fin 32} {s : State} (h : Keeps s0 s) : Runs s0 (execSpindleTestEnd p s) := by
  unfold execSpindleTestEnd
  repeat' first
    | with_reducible assumption
    | (extract_lets +onlyGivenNames x; first | (refine Keeps.letS (a := x) ?_ fun hx => ?_; rotate_left; clear_value x; revert x; rotate_left; unfold x; clear x) | (try unfold x; clear x))
    | with_reducible refine Runs.next ?_
    | with_reducible refine goBrake_keeps ?_
    | with_reducible refine setSpn_keeps ?_
    | with_reducible refine adminOk_keeps ?_
    | with_reducible refine Keeps.ite ?_ ?_
    | split

theorem execSqDoorbellWrite_runs {s0 : State} {x1 : HPort} {qid tail : BitVec 16} {s : State} (h : Keeps s0 s) : Runs s0 (execSqDoorbellWrite x1 qid tail s) := by
  unfold execSqDoorbellWrite
  repeat' first
    | with_reducible assumption
    | (extract_lets +onlyGivenNames x; first | (refine Keeps.letS (a := x) ?_ fun hx => ?_; rotate_left; clear_value x; revert x; rotate_left; unfold x; clear x) | (try unfold x; clear x))
    | intro _ _
    | with_reducible refine Runs.next ?_
    | with_reducible refine adminCmd_keeps (fun _ hy => ?_) ?_
    | with_reducible refine setCtl_keeps ?_
    | with_reducible refine wakeDemand_keeps ?_
    | with_reducible refine Keeps.ite ?_ ?_
    | split

theorem execSurpriseLinkDown_runs {s0 : State} {x1 : HPort} {s : State} (h : Keeps s0 s) : Runs s0 (execSurpriseLinkDown x1 s) := by
  unfold execSurpriseLinkDown
  repeat' first
    | with_reducible assumption
    | with_reducible refine Runs.next ?_
    | with_reducible refine surpriseDown_keeps ?_
    | with_reducible refine Keeps.ite ?_ ?_

theorem execTailControlClear_runs {s0 : State} {x1 : HPort} {cid : BitVec 16} {r : Fin 8} {s : State} (h : Keeps s0 s) : Runs s0 (execTailControlClear x1 cid r s) := by
  unfold execTailControlClear
  repeat' first
    | with_reducible assumption
    | with_reducible refine Runs.next ?_
    | with_reducible refine adminCmd_keeps (fun _ hy => ?_) ?_
    | with_reducible refine adminOk_keeps ?_
    | with_reducible refine tailClear_keeps ?_

theorem execTailControlFreeze_runs {s0 : State} {x1 : HPort} {cid : BitVec 16} {r : Fin 8} {s : State} (h : Keeps s0 s) : Runs s0 (execTailControlFreeze x1 cid r s) := by
  unfold execTailControlFreeze
  repeat' first
    | with_reducible assumption
    | with_reducible refine Runs.next ?_
    | with_reducible refine adminCmd_keeps (fun _ hy => ?_) ?_
    | with_reducible refine adminOk_keeps ?_
    | with_reducible refine fsetb_keeps ?_

theorem execTailControlThaw_runs {s0 : State} {x1 : HPort} {cid : BitVec 16} {r : Fin 8} {s : State} (h : Keeps s0 s) : Runs s0 (execTailControlThaw x1 cid r s) := by
  unfold execTailControlThaw
  repeat' first
    | with_reducible assumption
    | with_reducible refine Runs.next ?_
    | with_reducible refine adminCmd_keeps (fun _ hy => ?_) ?_
    | with_reducible refine adminOk_keeps ?_
    | with_reducible refine fsetb_keeps ?_

theorem patrolPeriod_keeps {s0 s : State} (h : Keeps s0 s) : Keeps s0 (patrolPeriod s) := by
  unfold patrolPeriod
  repeat' first
    | with_reducible assumption
    | with_reducible refine wrN_keeps ?_
    | with_reducible refine Keeps.ite ?_ ?_

theorem execTaskCreditTick_runs {s0 s : State} (h : Keeps s0 s) : Runs s0 (execTaskCreditTick s) := by
  unfold execTaskCreditTick
  repeat' first
    | with_reducible assumption
    | (extract_lets +onlyGivenNames x; first | (refine Keeps.letS (a := x) ?_ fun hx => ?_; rotate_left; clear_value x; revert x; rotate_left; unfold x; clear x) | (try unfold x; clear x))
    | with_reducible refine Runs.next ?_
    | with_reducible refine Keeps.forAll ?_ fun _ _ hy => ?_
    | with_reducible refine patrolPeriod_keeps ?_
    | with_reducible refine ageTask_keeps ?_
    | with_reducible refine setBgw_keeps ?_
    | with_reducible refine Keeps.ite ?_ ?_

theorem unitItem_keeps {s0 s : State} {a h1 item : Nat} {pass : Bool} {v1 v2 : Nat} (h : Keeps s0 s) : Keeps s0 (unitItem s a h1 item pass v1 v2) := by
  unfold unitItem
  repeat' first
    | with_reducible assumption
    | with_reducible refine itemPass_keeps ?_
    | with_reducible refine itemFail_keeps ?_
    | with_reducible refine Keeps.ite ?_ ?_

theorem unitDone_keeps {s0 s : State} {t1 : Nat} (h : Keeps s0 s) : Keeps s0 (unitDone s t1) := by
  unfold unitDone
  repeat' first
    | with_reducible assumption
    | (extract_lets +onlyGivenNames x; first | (refine Keeps.letS (a := x) ?_ fun hx => ?_; rotate_left; clear_value x; revert x; rotate_left; unfold x; clear x) | (try unfold x; clear x))
    | intro _ _
    | with_reducible refine setBgw_keeps ?_
    | with_reducible refine fset_keeps ?_
    | with_reducible refine taskStop_keeps ?_
    | with_reducible refine setCredit_keeps ?_
    | with_reducible refine taskSync_keeps ?_
    | with_reducible refine evtSet_keeps ?_
    | with_reducible refine count_keeps ?_
    | with_reducible refine Keeps.ite ?_ ?_

theorem unitEnd_keeps {s0 s : State} {t1 : Nat} {ok : Bool} (h : Keeps s0 s) : Keeps s0 (unitEnd s t1 ok) := by
  unfold unitEnd
  repeat' first
    | with_reducible assumption
    | with_reducible refine unitDone_keeps ?_
    | with_reducible refine evtSet_keeps ?_
    | with_reducible refine Keeps.ite ?_ ?_

theorem execTaskUnitCal_runs {s0 : State} {a : Fin 64} {pass : BitVec 2} {gain dt wref rref : BitVec 16} {widths : List (BitVec 16)} {mon : BitVec 16} {s : State} (h : Keeps s0 s) : Runs s0 (execTaskUnitCal a pass gain dt wref rref widths mon s) := by
  unfold execTaskUnitCal
  repeat' first
    | with_reducible assumption
    | (extract_lets +onlyGivenNames x; first | (refine Keeps.letS (a := x) ?_ fun hx => ?_; rotate_left; clear_value x; revert x; rotate_left; unfold x; clear x) | (try unfold x; clear x))
    | with_reducible refine Runs.next ?_
    | with_reducible refine unitItem_keeps ?_
    | with_reducible refine calStart_keeps ?_
    | with_reducible refine calEnd_keeps ?_
    | with_reducible refine itemFail_keeps ?_
    | with_reducible refine count_keeps ?_
    | with_reducible refine unitEnd_keeps ?_
    | with_reducible refine Keeps.ite ?_ ?_

theorem execTaskUnitDestage_runs {s0 : State} {p : Fin 32} {ok : Bool} {s : State} (h : Keeps s0 s) : Runs s0 (execTaskUnitDestage p ok s) := by
  unfold execTaskUnitDestage
  repeat' first
    | with_reducible assumption
    | (extract_lets +onlyGivenNames x; first | (refine Keeps.letS (a := x) ?_ fun hx => ?_; rotate_left; clear_value x; revert x; rotate_left; unfold x; clear x) | (try unfold x; clear x))
    | with_reducible refine Runs.next ?_
    | with_reducible refine unitEnd_keeps ?_
    | with_reducible refine Keeps.forAll ?_ fun _ _ hy => ?_
    | with_reducible refine destage_keeps ?_
    | with_reducible refine Keeps.ite ?_ ?_

theorem execTaskUnitFlash_runs {s0 : State} {differ ce : Bool} {s : State} (h : Keeps s0 s) : Runs s0 (execTaskUnitFlash differ ce s) := by
  unfold execTaskUnitFlash
  repeat' first
    | with_reducible assumption
    | with_reducible refine Runs.next ?_
    | with_reducible refine unitEnd_keeps ?_
    | with_reducible refine flashCheck_keeps ?_
    | with_reducible refine Keeps.ite ?_ ?_

theorem moveHome_keeps {s0 s : State} {x1 : Staged} (h : Keeps s0 s) : Keeps s0 (moveHome s x1) := by
  unfold moveHome
  repeat' first
    | with_reducible assumption
    | (extract_lets +onlyGivenNames x; first | (refine Keeps.letS (a := x) ?_ fun hx => ?_; rotate_left; clear_value x; revert x; rotate_left; unfold x; clear x) | (try unfold x; clear x))
    | intro _ _
    | with_reducible refine setZmp_keeps ?_
    | with_reducible refine cleanExt_keeps ?_
    | with_reducible refine extentHome_keeps ?_

theorem execTaskUnitMove_runs {s0 : State} {p : Fin 32} {ok : Bool} {s : State} (h : Keeps s0 s) : Runs s0 (execTaskUnitMove p ok s) := by
  unfold execTaskUnitMove
  repeat' first
    | with_reducible assumption
    | (extract_lets +onlyGivenNames x; first | (refine Keeps.letS (a := x) ?_ fun hx => ?_; rotate_left; clear_value x; revert x; rotate_left; unfold x; clear x) | (try unfold x; clear x))
    | with_reducible refine Runs.next ?_
    | with_reducible refine unitEnd_keeps ?_
    | with_reducible refine releaseMoved_keeps ?_
    | with_reducible refine Keeps.forAll ?_ fun _ _ hy => ?_
    | with_reducible refine moveHome_keeps ?_
    | with_reducible refine Keeps.ite ?_ ?_

theorem execTaskUnitPatrol_runs {s0 : State} {errs : List MemErr} {s : State} (h : Keeps s0 s) : Runs s0 (execTaskUnitPatrol errs s) := by
  unfold execTaskUnitPatrol
  repeat' first
    | with_reducible assumption
    | with_reducible refine Runs.next ?_
    | with_reducible refine unitEnd_keeps ?_
    | with_reducible refine foundErrors_keeps ?_
    | with_reducible refine Keeps.ite ?_ ?_

theorem execTaskUnitScrub_runs {s0 : State} {a : Fin 64} {ok : Bool} {s : State} (h : Keeps s0 s) : Runs s0 (execTaskUnitScrub a ok s) := by
  unfold execTaskUnitScrub
  repeat' first
    | with_reducible assumption
    | with_reducible refine Runs.next ?_
    | with_reducible refine unitEnd_keeps ?_
    | with_reducible refine Keeps.ite ?_ ?_

theorem execTaskUnitTelem_runs {s0 s : State} (h : Keeps s0 s) : Runs s0 (execTaskUnitTelem s) := by
  unfold execTaskUnitTelem
  repeat' first
    | with_reducible assumption
    | (extract_lets +onlyGivenNames x; first | (refine Keeps.letS (a := x) ?_ fun hx => ?_; rotate_left; clear_value x; revert x; rotate_left; unfold x; clear x) | (try unfold x; clear x))
    | with_reducible refine Runs.next ?_
    | with_reducible refine unitEnd_keeps ?_
    | with_reducible refine tsbRead_keeps ?_
    | with_reducible refine Keeps.ite ?_ ?_

theorem headWear_keeps {s0 s : State} {a : Nat} (h : Keeps s0 s) : Keeps s0 (headWear s a) := by
  unfold headWear
  repeat' first
    | with_reducible assumption
    | (extract_lets +onlyGivenNames x; first | (refine Keeps.letS (a := x) ?_ fun hx => ?_; rotate_left; clear_value x; revert x; rotate_left; unfold x; clear x) | (try unfold x; clear x))
    | intro _ _
    | with_reducible refine fset_keeps ?_
    | with_reducible refine gradeUnit_keeps ?_
    | with_reducible refine Keeps.ite ?_ ?_
    | split

theorem execTaskUnitWear_runs {s0 : State} {p : Fin 32} {s : State} (h : Keeps s0 s) : Runs s0 (execTaskUnitWear p s) := by
  unfold execTaskUnitWear
  repeat' first
    | with_reducible assumption
    | (extract_lets +onlyGivenNames x; first | (refine Keeps.letS (a := x) ?_ fun hx => ?_; rotate_left; clear_value x; revert x; rotate_left; unfold x; clear x) | (try unfold x; clear x))
    | with_reducible refine Runs.next ?_
    | with_reducible refine unitEnd_keeps ?_
    | with_reducible refine headWear_keeps ?_
    | with_reducible refine wearUpdate_keeps ?_
    | with_reducible refine Keeps.ite ?_ ?_

theorem extSample_keeps {s0 s : State} {i : Nat} {t1 : BitVec 16} (h : Keeps s0 s) : Keeps s0 (extSample s i t1) := by
  unfold extSample
  repeat' first
    | with_reducible assumption
    | with_reducible refine readNow_keeps ?_
    | with_reducible refine fset_keeps ?_
    | with_reducible refine fsetb_keeps ?_
    | with_reducible refine sensorFault_keeps ?_
    | with_reducible refine Keeps.ite ?_ ?_

theorem mechTemp_keeps {s0 s : State} {p : Nat} (h : Keeps s0 s) : Keeps s0 (mechTemp s p) := by
  unfold mechTemp
  repeat' first
    | with_reducible assumption
    | with_reducible refine setMechBand_keeps ?_
    | with_reducible refine Keeps.ite ?_ ?_

theorem execTempSample_runs {s0 : State} {temps : List (BitVec 16)} {s : State} (h : Keeps s0 s) : Runs s0 (execTempSample temps s) := by
  unfold execTempSample
  repeat' first
    | with_reducible assumption
    | (extract_lets +onlyGivenNames x; first | (refine Keeps.letS (a := x) ?_ fun hx => ?_; rotate_left; clear_value x; revert x; rotate_left; unfold x; clear x) | (try unfold x; clear x))
    | with_reducible refine Runs.next ?_
    | with_reducible refine Keeps.forAll ?_ fun _ _ hy => ?_
    | with_reducible refine extSample_keeps ?_
    | with_reducible refine fetchRise_keeps ?_
    | with_reducible refine deviceBand_keeps ?_
    | with_reducible refine calTrigger_keeps ?_
    | with_reducible refine mechTemp_keeps ?_

theorem execUrgentSlotEnd_runs {s0 : State} {a : Fin 64} {dur : BitVec 32} {s : State} (h : Keeps s0 s) : Runs s0 (execUrgentSlotEnd a dur s) := by
  unfold execUrgentSlotEnd
  repeat' first
    | with_reducible assumption
    | (extract_lets +onlyGivenNames x; first | (refine Keeps.letS (a := x) ?_ fun hx => ?_; rotate_left; clear_value x; revert x; rotate_left; unfold x; clear x) | (try unfold x; clear x))
    | with_reducible refine Runs.next ?_
    | with_reducible refine setBgw_keeps ?_
    | with_reducible refine actStop_keeps ?_
    | with_reducible refine Keeps.ite ?_ ?_

theorem execWriteDataTimeout_runs {s0 : State} {x1 : HPort} {sqid cid : BitVec 16} {s : State} (h : Keeps s0 s) : Runs s0 (execWriteDataTimeout x1 sqid cid s) := by
  unfold execWriteDataTimeout
  repeat' first
    | with_reducible assumption
    | with_reducible refine Runs.next ?_
    | with_reducible refine dataLost_keeps ?_

theorem execZmrExtendedReportZones_runs {s0 : State} {x1 : HPort} {sqid cid : BitVec 16} {s : State} (h : Keeps s0 s) : Runs s0 (execZmrExtendedReportZones x1 sqid cid s) := by
  unfold execZmrExtendedReportZones
  repeat' first
    | with_reducible assumption
    | with_reducible refine Runs.next ?_
    | with_reducible refine failCmd_keeps ?_
    | with_reducible refine Keeps.ite ?_ ?_
    | split

theorem execZmrReportZones_runs {s0 : State} {x1 : HPort} {sqid cid : BitVec 16} {option : BitVec 8} {s : State} (h : Keeps s0 s) : Runs s0 (execZmrReportZones x1 sqid cid option s) := by
  unfold execZmrReportZones
  repeat' first
    | with_reducible assumption
    | (extract_lets +onlyGivenNames x; first | (refine Keeps.letS (a := x) ?_ fun hx => ?_; rotate_left; clear_value x; revert x; rotate_left; unfold x; clear x) | (try unfold x; clear x))
    | with_reducible refine Runs.next ?_
    | with_reducible refine runCmd_keeps (fun _ _ hy => ?_) ?_
    | with_reducible refine failCmd_keeps ?_
    | with_reducible refine setCmd_keeps ?_
    | with_reducible refine emit_keeps ?_
    | with_reducible refine Keeps.ite ?_ ?_

theorem runZms_keeps {s0 s : State} {x : HPort} {sqid cid : BitVec 16} {zsa : Nat} {l : List Nat} {f : State → Nat → Nat → State ⊕ (Nat × Nat)} (hf : ∀ t n z u, f t n z = .inl u → Keeps s0 t → Keeps s0 u)
    (h : Keeps s0 s) : Keeps s0 (runZms s x sqid cid zsa l f) := by
  unfold runZms
  split
  · exact h
  · refine Keeps.ite h (runCmd_keeps (fun t c ht => ?_) h)
    refine Keeps.ite (failCmd_keeps ht) (Keeps.ite (Keeps.ite ht (setCmd_keeps (Keeps.forAll ht fun u z hu => ?_)))
      (Keeps.ite (failCmd_keeps ht) (Keeps.ite (failCmd_keeps ht) (Keeps.ite ht ?_))))
    · split
      · rename_i e
        exact hf _ _ _ _ e hu
      · exact hu
    · split
      · rename_i e
        exact setCmd_keeps (hf _ _ _ _ e ht)
      · exact failCmd_keeps (Keeps.ite (evtSet_keeps ht) ht)

theorem execZmsClose_runs {s0 s : State} {x : HPort} {sqid cid : BitVec 16} (h : Keeps s0 s) : Runs s0 (execZmsClose x sqid cid s) :=
  Runs.next (runZms_keeps (fun _ _ _ _ e hy => zmsIf_keeps (setZState_keeps hy) e) h)

theorem execZmsFinish_runs {s0 s : State} {x : HPort} {sqid cid : BitVec 16} (h : Keeps s0 s) : Runs s0 (execZmsFinish x sqid cid s) :=
  Runs.next (runZms_keeps (fun _ _ _ _ e hy => zmsIf_keeps (finishZone_keeps hy) e) h)

theorem execZmsOffline_runs {s0 s : State} {x : HPort} {sqid cid : BitVec 16} (h : Keeps s0 s) : Runs s0 (execZmsOffline x sqid cid s) :=
  Runs.next (runZms_keeps (fun _ _ _ _ e hy => zmsIf_keeps (cacheDropZone_keeps (setZState_keeps hy)) e) h)

theorem zmsOpen_keeps {s0 s t : State} {n z : Nat} (e : zmsOpen s n z = .inl t) (h : Keeps s0 s) : Keeps s0 t := by
  simp only [zmsOpen] at e
  split at e
  · cases e
  · split at e
    · cases e
    · split at e
      · rename_i he
        cases e
        exact openZone_keeps he h
      · cases e

theorem execZmsOpen_runs {s0 s : State} {x : HPort} {sqid cid : BitVec 16} (h : Keeps s0 s) : Runs s0 (execZmsOpen x sqid cid s) :=
  Runs.next (runZms_keeps (fun _ _ _ _ e hy => zmsOpen_keeps e hy) h)

theorem execZmsReset_runs {s0 s : State} {x : HPort} {sqid cid : BitVec 16} (h : Keeps s0 s) : Runs s0 (execZmsReset x sqid cid s) :=
  Runs.next (runZms_keeps (fun _ _ _ _ e hy => zmsIf_keeps (cacheDropZone_keeps (resetZone_keeps hy)) e) h)

theorem execZmsSetZoneDescExt_runs {s0 : State} {x1 : HPort} {sqid cid : BitVec 16} {s : State} (h : Keeps s0 s) : Runs s0 (execZmsSetZoneDescExt x1 sqid cid s) := by
  unfold execZmsSetZoneDescExt
  repeat' first
    | with_reducible assumption
    | with_reducible refine Runs.next ?_
    | with_reducible refine failCmd_keeps ?_
    | with_reducible refine Keeps.ite ?_ ?_
    | split

theorem execZoneAppend_runs {s0 : State} {x1 : HPort} {sqid cid : BitVec 16} {s : State} (h : Keeps s0 s) : Runs s0 (execZoneAppend x1 sqid cid s) := by
  unfold execZoneAppend
  repeat' first
    | with_reducible assumption
    | with_reducible refine Runs.next ?_
    | with_reducible refine runCmd_keeps (fun _ _ hy => ?_) ?_
    | with_reducible refine beginWrite_keeps ?_

theorem execZoneLocate_runs {s0 : State} {x1 : HPort} {cid : BitVec 16} {nsid : BitVec 32} {lba : BitVec 64} {s : State} (h : Keeps s0 s) : Runs s0 (execZoneLocate x1 cid nsid lba s) := by
  unfold execZoneLocate
  repeat' first
    | with_reducible assumption
    | (extract_lets +onlyGivenNames x; first | (refine Keeps.letS (a := x) ?_ fun hx => ?_; rotate_left; clear_value x; revert x; rotate_left; unfold x; clear x) | (try unfold x; clear x))
    | with_reducible refine Runs.next ?_
    | with_reducible refine adminCmd_keeps (fun _ hy => ?_) ?_
    | with_reducible refine invalidField_keeps ?_
    | with_reducible refine adminData_keeps ?_
    | with_reducible refine Keeps.ite ?_ ?_

end Sys2Proof.Machine
end

