-- ==== Sys2Proof/Laws/KeepsSystem.lean ====
section
/-! SUPPORT. What every operation and every meaning leaves: power, update, partner and microcode. One lemma for each, named after it: an operation keeps the
queue, only adds to what was sent and keeps the invariant; a meaning answers a next state that does. -/
set_option linter.tactic.unusedName false
set_option Elab.async false
namespace Sys2Proof.Machine
open Sys2Proof

theorem acquireAll_keeps {s0 s : State} (h : Keeps s0 s) : Keeps s0 (acquireAll s) := by
  unfold acquireAll
  repeat' first
    | with_reducible assumption
    | with_reducible refine Keeps.forAll ?_ fun _ _ hy => ?_
    | with_reducible refine tokenCmd_keeps ?_
    | with_reducible refine Keeps.ite ?_ ?_

theorem addTrack_keeps {s0 s : State} {a : Nat} {w : SecWork} {info : List Nat} (h : Keeps s0 s) : Keeps s0 (addTrack s a w info) := by
  unfold addTrack
  repeat' first
    | with_reducible assumption
    | (extract_lets +onlyGivenNames x; first | (refine Keeps.letS (a := x) ?_ fun hx => ?_; rotate_left; clear_value x; revert x; rotate_left; unfold x; clear x) | (try unfold x; clear x))
    | with_reducible refine flipNow_keeps ?_
    | with_reducible refine setDet_keeps ?_
    | with_reducible refine rootGrade_keeps ?_
    | with_reducible refine Keeps.ite ?_ ?_

theorem advanceMwp_keeps {s0 s : State} (h : Keeps s0 s) : Keeps s0 (advanceMwp s) := by
  unfold advanceMwp
  repeat' first
    | with_reducible assumption
    | (extract_lets +onlyGivenNames x; first | (refine Keeps.letS (a := x) ?_ fun hx => ?_; rotate_left; clear_value x; revert x; rotate_left; unfold x; clear x) | (try unfold x; clear x))
    | with_reducible refine setZmp_keeps ?_
    | with_reducible refine count_keeps ?_

theorem afterReset_keeps {s0 s : State} (h : Keeps s0 s) : Keeps s0 (afterReset s) := by
  unfold afterReset
  refine Keeps.forAll ⟨h.pending, h.out, fun _ => ⟨⟨List.Pairwise.nil, ?_⟩, ?_, Nat.zero_le _, Nat.zero_le _⟩⟩ fun t x ht => fset_keeps ht
  · exact fun x hx => nomatch hx
  · exact fun x hx => nomatch hx

theorem mcsFault_keeps {s0 s : State} {bit code : Nat} (h : Keeps s0 s) : Keeps s0 (mcsFault s bit code) := by
  unfold mcsFault
  repeat' first
    | with_reducible assumption
    | (extract_lets +onlyGivenNames x; first | (refine Keeps.letS (a := x) ?_ fun hx => ?_; rotate_left; clear_value x; revert x; rotate_left; unfold x; clear x) | (try unfold x; clear x))
    | intro _ _
    | with_reducible refine evtSet_keeps ?_
    | with_reducible refine count_keeps ?_
    | with_reducible refine Keeps.ite ?_ ?_

theorem fFault_keeps {s0 s : State} {f code : Nat} (h : Keeps s0 s) : Keeps s0 (fFault s f code) := by
  unfold fFault
  repeat' first
    | with_reducible assumption
    | (extract_lets +onlyGivenNames x; first | (refine Keeps.letS (a := x) ?_ fun hx => ?_; rotate_left; clear_value x; revert x; rotate_left; unfold x; clear x) | (try unfold x; clear x))
    | intro _ _
    | with_reducible refine fset_keeps ?_
    | with_reducible refine Keeps.forAll ?_ fun _ _ hy => ?_
    | with_reducible refine pushResult_keeps ?_
    | with_reducible refine fSync_keeps ?_
    | with_reducible refine setFseq_keeps ?_
    | with_reducible refine syncSw_keeps ?_
    | with_reducible refine failOwn_keeps ?_
    | with_reducible refine recompute_keeps ?_
    | with_reducible refine impair_keeps ?_
    | with_reducible refine mcsFault_keeps ?_
    | with_reducible refine Keeps.ite ?_ ?_
    | split

theorem fRun_keeps {s0 s : State} {f : Nat} {ok : Nat → Bool} {g : Nat → State} (hf : ∀ y, Keeps s0 (g y)) (h : Keeps s0 s) :
    Keeps s0 (fRun s f ok g) := by
  unfold fRun
  refine Keeps.ite ?_ h
  split
  · exact Keeps.ite (hf _) h
  · exact fFault_keeps h

theorem fNext_keeps {s0 s : State} {f pc : Nat} (h : Keeps s0 s) : Keeps s0 (fNext s f pc) := by
  unfold fNext
  repeat' first
    | with_reducible assumption
    | (extract_lets +onlyGivenNames x; first | (refine Keeps.letS (a := x) ?_ fun hx => ?_; rotate_left; clear_value x; revert x; rotate_left; unfold x; clear x) | (try unfold x; clear x))
    | intro _ _
    | with_reducible refine fSync_keeps ?_
    | with_reducible refine fset_keeps ?_
    | with_reducible refine fFault_keeps ?_
    | with_reducible refine Keeps.ite ?_ ?_

theorem takeResult_keeps {s0 s : State} {z t1 : Nat} (h : Keeps s0 s) : Keeps s0 (takeResult s z t1) := by
  unfold takeResult
  repeat' first
    | with_reducible assumption
    | with_reducible refine setThread_keeps ?_

theorem zIssue_keeps {s0 s : State} {z t1 : Nat} (h : Keeps s0 s) : Keeps s0 (zIssue s z t1) := by
  unfold zIssue
  repeat' first
    | with_reducible assumption
    | (extract_lets +onlyGivenNames x; first | (refine Keeps.letS (a := x) ?_ fun hx => ?_; rotate_left; clear_value x; revert x; rotate_left; unfold x; clear x) | (try unfold x; clear x))
    | intro _ _
    | with_reducible refine takeResult_keeps ?_
    | with_reducible refine setThread_keeps ?_
    | with_reducible refine setZseq_keeps ?_
    | with_reducible refine fset_keeps ?_
    | split

theorem mapAway_keeps {s0 s : State} {z : Nat} (h : Keeps s0 s) : Keeps s0 (mapAway s z) := by
  unfold mapAway
  repeat' first
    | with_reducible assumption
    | (extract_lets +onlyGivenNames x; first | (refine Keeps.letS (a := x) ?_ fun hx => ?_; rotate_left; clear_value x; revert x; rotate_left; unfold x; clear x) | (try unfold x; clear x))
    | intro _ _
    | with_reducible refine fset_keeps ?_
    | with_reducible refine Keeps.ite ?_ ?_
    | split
    | with_reducible refine Keeps.upd ?_ rfl rfl rfl

theorem zFault_keeps {s0 s : State} {z t1 code : Nat} (h : Keeps s0 s) : Keeps s0 (zFault s z t1 code) := by
  unfold zFault
  repeat' first
    | with_reducible assumption
    | (extract_lets +onlyGivenNames x; first | (refine Keeps.letS (a := x) ?_ fun hx => ?_; rotate_left; clear_value x; revert x; rotate_left; unfold x; clear x) | (try unfold x; clear x))
    | intro _ _
    | with_reducible refine fset_keeps ?_
    | with_reducible refine Keeps.forAll ?_ fun _ _ hy => ?_
    | with_reducible refine failCmd_keeps ?_
    | with_reducible refine mapAway_keeps ?_
    | with_reducible refine rootGrade_keeps ?_
    | with_reducible refine mcsFault_keeps ?_
    | with_reducible refine wbit_keeps ?_
    | with_reducible refine Keeps.ite ?_ ?_
    | split

theorem zRun_keeps {s0 s : State} {z : Nat} {ok : Nat → Bool} {g : State → Nat → Nat → State} (hf : ∀ y0 y1 y2, Keeps s0 y0 → Keeps s0 (g y0 y1 y2)) (h : Keeps s0 s) : Keeps s0 (zRun s z ok g) := by
  unfold zRun
  repeat' first
    | with_reducible assumption
    | with_reducible refine zIssue_keeps ?_
    | with_reducible refine zFault_keeps ?_
    | with_reducible refine hf _ _ _ ?_
    | with_reducible refine Keeps.ite ?_ ?_
    | split

theorem zNext_keeps {s0 s : State} {z t1 pc : Nat} (h : Keeps s0 s) : Keeps s0 (zNext s z t1 pc) := by
  unfold zNext
  repeat' first
    | with_reducible assumption
    | (extract_lets +onlyGivenNames x; first | (refine Keeps.letS (a := x) ?_ fun hx => ?_; rotate_left; clear_value x; revert x; rotate_left; unfold x; clear x) | (try unfold x; clear x))
    | intro _ _
    | with_reducible refine setThread_keeps ?_
    | with_reducible refine zSync_keeps ?_
    | with_reducible refine zFault_keeps ?_
    | with_reducible refine Keeps.ite ?_ ?_

theorem regWord_keeps {s0 : State} {q : SeqRef} {ok : Nat → Bool} {h1 : Nat → Nat → Nat → MRegs → MRegs} {s : State} (h : Keeps s0 s) : Keeps s0 (regWord q ok h1 s) := by
  unfold regWord
  repeat' first
    | with_reducible assumption
    | with_reducible refine fRun_keeps (fun _ => ?_) ?_
    | with_reducible refine fNext_keeps ?_
    | with_reducible refine setFseq_keeps ?_
    | with_reducible refine zRun_keeps (fun _ _ _ hy => ?_) ?_
    | with_reducible refine zNext_keeps ?_
    | with_reducible refine setThread_keeps ?_
    | split

theorem aluWord_keeps {s0 : State} {fn : Nat} {q : SeqRef} {s : State} (h : Keeps s0 s) : Keeps s0 (aluWord fn q s) := by
  unfold aluWord
  repeat' first
    | with_reducible assumption
    | with_reducible refine regWord_keeps ?_

theorem enterWatch_keeps {s0 s : State} {cause : Nat} (h : Keeps s0 s) : Keeps s0 (enterWatch s cause) := by
  unfold enterWatch
  repeat' first
    | with_reducible assumption
    | (extract_lets +onlyGivenNames x; first | (refine Keeps.letS (a := x) ?_ fun hx => ?_; rotate_left; clear_value x; revert x; rotate_left; unfold x; clear x) | (try unfold x; clear x))
    | intro _ _
    | with_reducible refine fset_keeps ?_
    | with_reducible refine afterReset_keeps ?_
    | with_reducible refine Keeps.forAll ?_ fun _ _ hy => ?_
    | with_reducible refine wrN_keeps ?_

theorem aonLost_keeps {s0 s : State} (h : Keeps s0 s) : Keeps s0 (aonLost s) := by
  unfold aonLost
  repeat' first
    | with_reducible assumption
    | (extract_lets +onlyGivenNames x; first | (refine Keeps.letS (a := x) ?_ fun hx => ?_; rotate_left; clear_value x; revert x; rotate_left; unfold x; clear x) | (try unfold x; clear x))
    | intro _ _
    | with_reducible refine enterWatch_keeps ?_
    | with_reducible refine clearRange_keeps ?_
    | with_reducible refine fsetb_keeps ?_
    | with_reducible refine setPwr_keeps ?_
    | with_reducible refine Keeps.forAll ?_ fun _ _ hy => ?_
    | with_reducible refine fset_keeps ?_

theorem bindMailboxes_keeps {s0 s : State} (h : Keeps s0 s) : Keeps s0 (bindMailboxes s) := by
  unfold bindMailboxes
  repeat' first
    | with_reducible assumption
    | (extract_lets +onlyGivenNames x; first | (refine Keeps.letS (a := x) ?_ fun hx => ?_; rotate_left; clear_value x; revert x; rotate_left; unfold x; clear x) | (try unfold x; clear x))
    | intro _ _
    | with_reducible refine Keeps.forAll ?_ fun _ _ hy => ?_
    | with_reducible refine fset_keeps ?_
    | with_reducible refine fsetb_keeps ?_
    | with_reducible refine Keeps.ite ?_ ?_

theorem bootPiece_keeps {s0 s t : State} {f : List Nat} {kind : Nat} (e : bootPiece s f kind = .inr t) (h : Keeps s0 s) :
    Keeps s0 t := by
  unfold bootPiece at e
  split at e
  · cases e
  · cases e
    exact switchFile_keeps h

theorem bootBase_keeps {s0 s : State} {l : List (List Nat)} {code : Nat} (h : Keeps s0 s) : Keeps s0 (bootBase l code s).1 := by
  induction l generalizing code with
  | nil => exact sourceRise_keeps (fset_keeps (trussSwitch_keeps (Keeps.upd h rfl rfl rfl)))
  | cons f fs ih =>
    unfold bootBase
    split
    · exact ih
    · rename_i e
      exact bootPiece_keeps e h

theorem bootMemory_keeps {s0 s : State} (h : Keeps s0 s) : Keeps s0 (bootMemory s) := by
  unfold bootMemory
  repeat' first
    | with_reducible assumption
    | (extract_lets +onlyGivenNames x; first | (refine Keeps.letS (a := x) ?_ fun hx => ?_; rotate_left; clear_value x; revert x; rotate_left; unfold x; clear x) | (try unfold x; clear x))
    | intro _ _
    | with_reducible refine Keeps.forAll ?_ fun _ _ hy => ?_
    | with_reducible refine fset_keeps ?_
    | with_reducible refine wrN_keeps ?_
    | with_reducible refine fsetb_keeps ?_
    | with_reducible refine retireEffect_keeps ?_
    | with_reducible refine cacheEnable_keeps ?_
    | with_reducible refine Keeps.ite ?_ ?_
    | split

theorem bootPatches_keeps {s0 s : State} {l : List (List Nat)} (h : Keeps s0 s) : Keeps s0 (bootPatches l s) := by
  induction l generalizing s with
  | nil => exact h
  | cons f fs ih =>
    unfold bootPatches
    split
    · exact sourceRise_keeps (fset_keeps (Keeps.upd h rfl rfl rfl))
    · rename_i e
      exact ih (bootPiece_keeps e h)

theorem bootTruss_keeps {s0 s : State} (h : Keeps s0 s) : Keeps s0 (bootTruss s) := by
  unfold bootTruss
  repeat' first
    | with_reducible assumption
    | (extract_lets +onlyGivenNames x; first | (refine Keeps.letS (a := x) ?_ fun hx => ?_; rotate_left; clear_value x; revert x; rotate_left; unfold x; clear x) | (try unfold x; clear x))
    | intro _ _
    | with_reducible refine bootBase_keeps ?_
    | with_reducible refine bootPatches_keeps ?_
    | with_reducible refine Keeps.forAll ?_ fun _ _ hy => ?_
    | with_reducible refine wrN_keeps ?_
    | with_reducible refine setZmp_keeps ?_
    | with_reducible refine Keeps.ite ?_ ?_

theorem branch_keeps {s0 s : State} {op : Nat} {neg : Bool} {q : SeqRef} (h : Keeps s0 s) : Keeps s0 (branch op neg q s) := by
  unfold branch
  split
  · exact fRun_keeps (fun _ => fNext_keeps (Keeps.ite (setFseq_keeps h) h)) h
  · exact zRun_keeps (fun _ _ _ ht => zNext_keeps (Keeps.ite (takeResult_keeps ht) ht)) h

theorem closeWindows_keeps {s0 s : State} {f : Nat} (h : Keeps s0 s) : Keeps s0 (closeWindows s f) := by
  unfold closeWindows
  repeat' first
    | with_reducible assumption
    | (extract_lets +onlyGivenNames x; first | (refine Keeps.letS (a := x) ?_ fun hx => ?_; rotate_left; clear_value x; revert x; rotate_left; unfold x; clear x) | (try unfold x; clear x))
    | with_reducible refine Keeps.forAll ?_ fun _ _ hy => ?_
    | with_reducible refine setFseq_keeps ?_
    | with_reducible refine liveEnd_keeps ?_
    | with_reducible refine Keeps.ite ?_ ?_

theorem findFitted_keeps {s0 s : State} (h : Keeps s0 s) : Keeps s0 (findFitted s) := by
  unfold findFitted
  repeat' first
    | with_reducible assumption
    | with_reducible refine Keeps.forAll ?_ fun _ _ hy => ?_
    | with_reducible refine goDebounce_keeps ?_
    | with_reducible refine Keeps.ite ?_ ?_

theorem flipBank_keeps {s0 s : State} (h : Keeps s0 s) : Keeps s0 (flipBank s) := by
  unfold flipBank
  repeat' first
    | with_reducible assumption
    | (extract_lets +onlyGivenNames x; first | (refine Keeps.letS (a := x) ?_ fun hx => ?_; rotate_left; clear_value x; revert x; rotate_left; unfold x; clear x) | (try unfold x; clear x))
    | intro _ _
    | with_reducible refine wrN_keeps ?_
    | with_reducible refine fset_keeps ?_

theorem resetBank_keeps {s0 s : State} (h : Keeps s0 s) : Keeps s0 (resetBank s) := by
  unfold resetBank
  repeat' first
    | with_reducible assumption
    | (extract_lets +onlyGivenNames x; first | (refine Keeps.letS (a := x) ?_ fun hx => ?_; rotate_left; clear_value x; revert x; rotate_left; unfold x; clear x) | (try unfold x; clear x))
    | with_reducible refine flipBank_keeps ?_
    | with_reducible refine setFls_keeps ?_
    | with_reducible refine Keeps.ite ?_ ?_

theorem firstDomains_keeps {s0 s : State} (h : Keeps s0 s) : Keeps s0 (firstDomains s) := by
  unfold firstDomains
  repeat' first
    | with_reducible assumption
    | (extract_lets +onlyGivenNames x; first | (refine Keeps.letS (a := x) ?_ fun hx => ?_; rotate_left; clear_value x; revert x; rotate_left; unfold x; clear x) | (try unfold x; clear x))
    | intro _ _
    | with_reducible refine domRequest_keeps ?_
    | with_reducible refine Keeps.ite ?_ ?_

theorem deviceReset_keeps {s0 s : State} {cause : Nat} (h : Keeps s0 s) : Keeps s0 (deviceReset s cause) := by
  unfold deviceReset
  repeat' first
    | with_reducible assumption
    | (extract_lets +onlyGivenNames x; first | (refine Keeps.letS (a := x) ?_ fun hx => ?_; rotate_left; clear_value x; revert x; rotate_left; unfold x; clear x) | (try unfold x; clear x))
    | intro _ _
    | with_reducible refine fset_keeps ?_
    | with_reducible refine afterReset_keeps ?_
    | with_reducible refine findFitted_keeps ?_
    | with_reducible refine count_keeps ?_
    | with_reducible refine resetBank_keeps ?_
    | with_reducible refine firstDomains_keeps ?_
    | with_reducible refine Keeps.ite ?_ ?_

theorem domFault_keeps {s0 s : State} {n : Nat} (h : Keeps s0 s) : Keeps s0 (domFault s n) := by
  unfold domFault
  repeat' first
    | with_reducible assumption
    | (extract_lets +onlyGivenNames x; first | (refine Keeps.letS (a := x) ?_ fun hx => ?_; rotate_left; clear_value x; revert x; rotate_left; unfold x; clear x) | (try unfold x; clear x))
    | intro _ _
    | with_reducible refine wbit_keeps ?_
    | with_reducible refine fseqOff_keeps ?_
    | with_reducible refine rootGrade_keeps ?_
    | with_reducible refine evtSet_keeps ?_
    | with_reducible refine count_keeps ?_
    | with_reducible refine phyChanged_keeps ?_
    | with_reducible refine laneSync_keeps ?_
    | with_reducible refine fsetb_keeps ?_
    | with_reducible refine Keeps.ite ?_ ?_
    | with_reducible refine Keeps.upd ?_ rfl rfl rfl

theorem domUp_keeps {s0 s : State} {n : Fin 477} (h : Keeps s0 s) : Keeps s0 (domUp s n) := by
  unfold domUp
  repeat' first
    | with_reducible assumption
    | (extract_lets +onlyGivenNames x; first | (refine Keeps.letS (a := x) ?_ fun hx => ?_; rotate_left; clear_value x; revert x; rotate_left; unfold x; clear x) | (try unfold x; clear x))
    | intro _ _
    | with_reducible refine setPwr_keeps ?_
    | with_reducible refine wbit_keeps ?_
    | with_reducible refine laneSync_keeps ?_
    | with_reducible refine fsetb_keeps ?_
    | with_reducible refine fseqOn_keeps ?_
    | with_reducible refine Keeps.ite ?_ ?_

theorem encodeRow_keeps {s0 s : State} {c : Cmd} {th row : Nat} (h : Keeps s0 s) : Keeps s0 (encodeRow s c th row) := by
  unfold encodeRow
  repeat' first
    | with_reducible assumption
    | (extract_lets +onlyGivenNames x; first | (refine Keeps.letS (a := x) ?_ fun hx => ?_; rotate_left; clear_value x; revert x; rotate_left; unfold x; clear x) | (try unfold x; clear x))
    | with_reducible refine setZmp_keeps ?_
    | with_reducible refine useAcc_keeps ?_
    | with_reducible refine Keeps.ite ?_ ?_

theorem envTrim_keeps {s0 s : State} (h : Keeps s0 s) : Keeps s0 (envTrim s) := by
  unfold envTrim
  repeat' first
    | with_reducible assumption
    | (extract_lets +onlyGivenNames x; first | (refine Keeps.letS (a := x) ?_ fun hx => ?_; rotate_left; clear_value x; revert x; rotate_left; unfold x; clear x) | (try unfold x; clear x))
    | intro _ _
    | with_reducible refine Keeps.forAll ?_ fun _ _ hy => ?_
    | with_reducible refine domRequest_keeps ?_
    | with_reducible refine wbit_keeps ?_
    | with_reducible refine laneSync_keeps ?_
    | with_reducible refine fsetb_keeps ?_
    | with_reducible refine Keeps.ite ?_ ?_
    | split

theorem execAluAdd_runs {s0 : State} {q : SeqRef} {s : State} (h : Keeps s0 s) : Runs s0 (execAluAdd q s) := by
  unfold execAluAdd
  repeat' first
    | with_reducible assumption
    | with_reducible refine Runs.next ?_
    | with_reducible refine aluWord_keeps ?_

theorem execAluAddc_runs {s0 : State} {q : SeqRef} {s : State} (h : Keeps s0 s) : Runs s0 (execAluAddc q s) := by
  unfold execAluAddc
  repeat' first
    | with_reducible assumption
    | (extract_lets +onlyGivenNames x; first | (refine Keeps.letS (a := x) ?_ fun hx => ?_; rotate_left; clear_value x; revert x; rotate_left; unfold x; clear x) | (try unfold x; clear x))
    | with_reducible refine Runs.next ?_
    | with_reducible refine aluWord_keeps ?_

theorem execAluAnd_runs {s0 : State} {q : SeqRef} {s : State} (h : Keeps s0 s) : Runs s0 (execAluAnd q s) := by
  unfold execAluAnd
  repeat' first
    | with_reducible assumption
    | (extract_lets +onlyGivenNames x; first | (refine Keeps.letS (a := x) ?_ fun hx => ?_; rotate_left; clear_value x; revert x; rotate_left; unfold x; clear x) | (try unfold x; clear x))
    | with_reducible refine Runs.next ?_
    | with_reducible refine aluWord_keeps ?_

theorem execAluClr_runs {s0 : State} {q : SeqRef} {s : State} (h : Keeps s0 s) : Runs s0 (execAluClr q s) := by
  unfold execAluClr
  repeat' first
    | with_reducible assumption
    | (extract_lets +onlyGivenNames x; first | (refine Keeps.letS (a := x) ?_ fun hx => ?_; rotate_left; clear_value x; revert x; rotate_left; unfold x; clear x) | (try unfold x; clear x))
    | with_reducible refine Runs.next ?_
    | with_reducible refine aluWord_keeps ?_

theorem execAluCmp_runs {s0 : State} {q : SeqRef} {s : State} (h : Keeps s0 s) : Runs s0 (execAluCmp q s) := by
  unfold execAluCmp
  repeat' first
    | with_reducible assumption
    | (extract_lets +onlyGivenNames x; first | (refine Keeps.letS (a := x) ?_ fun hx => ?_; rotate_left; clear_value x; revert x; rotate_left; unfold x; clear x) | (try unfold x; clear x))
    | with_reducible refine Runs.next ?_
    | with_reducible refine aluWord_keeps ?_

theorem execAluDec_runs {s0 : State} {q : SeqRef} {s : State} (h : Keeps s0 s) : Runs s0 (execAluDec q s) := by
  unfold execAluDec
  repeat' first
    | with_reducible assumption
    | (extract_lets +onlyGivenNames x; first | (refine Keeps.letS (a := x) ?_ fun hx => ?_; rotate_left; clear_value x; revert x; rotate_left; unfold x; clear x) | (try unfold x; clear x))
    | with_reducible refine Runs.next ?_
    | with_reducible refine aluWord_keeps ?_

theorem execAluInc_runs {s0 : State} {q : SeqRef} {s : State} (h : Keeps s0 s) : Runs s0 (execAluInc q s) := by
  unfold execAluInc
  repeat' first
    | with_reducible assumption
    | (extract_lets +onlyGivenNames x; first | (refine Keeps.letS (a := x) ?_ fun hx => ?_; rotate_left; clear_value x; revert x; rotate_left; unfold x; clear x) | (try unfold x; clear x))
    | with_reducible refine Runs.next ?_
    | with_reducible refine aluWord_keeps ?_

theorem execAluMov_runs {s0 : State} {q : SeqRef} {s : State} (h : Keeps s0 s) : Runs s0 (execAluMov q s) := by
  unfold execAluMov
  repeat' first
    | with_reducible assumption
    | (extract_lets +onlyGivenNames x; first | (refine Keeps.letS (a := x) ?_ fun hx => ?_; rotate_left; clear_value x; revert x; rotate_left; unfold x; clear x) | (try unfold x; clear x))
    | with_reducible refine Runs.next ?_
    | with_reducible refine aluWord_keeps ?_

theorem execAluNot_runs {s0 : State} {q : SeqRef} {s : State} (h : Keeps s0 s) : Runs s0 (execAluNot q s) := by
  unfold execAluNot
  repeat' first
    | with_reducible assumption
    | (extract_lets +onlyGivenNames x; first | (refine Keeps.letS (a := x) ?_ fun hx => ?_; rotate_left; clear_value x; revert x; rotate_left; unfold x; clear x) | (try unfold x; clear x))
    | with_reducible refine Runs.next ?_
    | with_reducible refine aluWord_keeps ?_

theorem execAluOr_runs {s0 : State} {q : SeqRef} {s : State} (h : Keeps s0 s) : Runs s0 (execAluOr q s) := by
  unfold execAluOr
  repeat' first
    | with_reducible assumption
    | (extract_lets +onlyGivenNames x; first | (refine Keeps.letS (a := x) ?_ fun hx => ?_; rotate_left; clear_value x; revert x; rotate_left; unfold x; clear x) | (try unfold x; clear x))
    | with_reducible refine Runs.next ?_
    | with_reducible refine aluWord_keeps ?_

theorem execAluShl_runs {s0 : State} {q : SeqRef} {s : State} (h : Keeps s0 s) : Runs s0 (execAluShl q s) := by
  unfold execAluShl
  repeat' first
    | with_reducible assumption
    | (extract_lets +onlyGivenNames x; first | (refine Keeps.letS (a := x) ?_ fun hx => ?_; rotate_left; clear_value x; revert x; rotate_left; unfold x; clear x) | (try unfold x; clear x))
    | with_reducible refine Runs.next ?_
    | with_reducible refine drawn_keeps ?_
    | with_reducible refine aluWord_keeps ?_

theorem execAluShr_runs {s0 : State} {q : SeqRef} {s : State} (h : Keeps s0 s) : Runs s0 (execAluShr q s) := by
  unfold execAluShr
  repeat' first
    | with_reducible assumption
    | (extract_lets +onlyGivenNames x; first | (refine Keeps.letS (a := x) ?_ fun hx => ?_; rotate_left; clear_value x; revert x; rotate_left; unfold x; clear x) | (try unfold x; clear x))
    | with_reducible refine Runs.next ?_
    | with_reducible refine drawn_keeps ?_
    | with_reducible refine aluWord_keeps ?_

theorem execAluSub_runs {s0 : State} {q : SeqRef} {s : State} (h : Keeps s0 s) : Runs s0 (execAluSub q s) := by
  unfold execAluSub
  repeat' first
    | with_reducible assumption
    | (extract_lets +onlyGivenNames x; first | (refine Keeps.letS (a := x) ?_ fun hx => ?_; rotate_left; clear_value x; revert x; rotate_left; unfold x; clear x) | (try unfold x; clear x))
    | with_reducible refine Runs.next ?_
    | with_reducible refine aluWord_keeps ?_

theorem execAluSubc_runs {s0 : State} {q : SeqRef} {s : State} (h : Keeps s0 s) : Runs s0 (execAluSubc q s) := by
  unfold execAluSubc
  repeat' first
    | with_reducible assumption
    | (extract_lets +onlyGivenNames x; first | (refine Keeps.letS (a := x) ?_ fun hx => ?_; rotate_left; clear_value x; revert x; rotate_left; unfold x; clear x) | (try unfold x; clear x))
    | with_reducible refine Runs.next ?_
    | with_reducible refine aluWord_keeps ?_

theorem execAluTst_runs {s0 : State} {q : SeqRef} {s : State} (h : Keeps s0 s) : Runs s0 (execAluTst q s) := by
  unfold execAluTst
  repeat' first
    | with_reducible assumption
    | (extract_lets +onlyGivenNames x; first | (refine Keeps.letS (a := x) ?_ fun hx => ?_; rotate_left; clear_value x; revert x; rotate_left; unfold x; clear x) | (try unfold x; clear x))
    | with_reducible refine Runs.next ?_
    | with_reducible refine aluWord_keeps ?_

theorem execAluXor_runs {s0 : State} {q : SeqRef} {s : State} (h : Keeps s0 s) : Runs s0 (execAluXor q s) := by
  unfold execAluXor
  repeat' first
    | with_reducible assumption
    | (extract_lets +onlyGivenNames x; first | (refine Keeps.letS (a := x) ?_ fun hx => ?_; rotate_left; clear_value x; revert x; rotate_left; unfold x; clear x) | (try unfold x; clear x))
    | with_reducible refine Runs.next ?_
    | with_reducible refine aluWord_keeps ?_

theorem execBrc_runs {s0 : State} {q : SeqRef} {s : State} (h : Keeps s0 s) : Runs s0 (execBrc q s) := by
  unfold execBrc
  repeat' first
    | with_reducible assumption
    | with_reducible refine Runs.next ?_
    | with_reducible refine branch_keeps ?_

theorem execBridleClockStop_runs {s0 s : State} (h : Keeps s0 s) : Runs s0 (execBridleClockStop s) := by
  unfold execBridleClockStop
  repeat' first
    | with_reducible assumption
    | with_reducible refine Runs.next ?_
    | with_reducible refine fsetb_keeps ?_
    | with_reducible refine Keeps.ite ?_ ?_

theorem execBrn_runs {s0 : State} {q : SeqRef} {s : State} (h : Keeps s0 s) : Runs s0 (execBrn q s) := by
  unfold execBrn
  repeat' first
    | with_reducible assumption
    | with_reducible refine Runs.next ?_
    | with_reducible refine branch_keeps ?_

theorem execCall_runs {s0 : State} {q : SeqRef} {s : State} (h : Keeps s0 s) : Runs s0 (execCall q s) := by
  unfold execCall
  repeat' first
    | with_reducible assumption
    | (extract_lets +onlyGivenNames x; first | (refine Keeps.letS (a := x) ?_ fun hx => ?_; rotate_left; clear_value x; revert x; rotate_left; unfold x; clear x) | (try unfold x; clear x))
    | with_reducible refine Runs.next ?_
    | with_reducible refine fRun_keeps (fun _ => ?_) ?_
    | with_reducible refine fFault_keeps ?_
    | with_reducible refine fNext_keeps ?_
    | with_reducible refine setFseq_keeps ?_
    | with_reducible refine zRun_keeps (fun _ _ _ hy => ?_) ?_
    | with_reducible refine zFault_keeps ?_
    | with_reducible refine zNext_keeps ?_
    | with_reducible refine setThread_keeps ?_
    | with_reducible refine Keeps.ite ?_ ?_
    | split

theorem prepareWatch_keeps {s0 s : State} (h : Keeps s0 s) : Keeps s0 (prepareWatch s) := by
  unfold prepareWatch
  repeat' first
    | with_reducible assumption
    | with_reducible refine Keeps.forAll ?_ fun _ _ hy => ?_
    | with_reducible refine checkpoint_keeps ?_
    | with_reducible refine tokenCmd_keeps ?_
    | with_reducible refine Keeps.ite ?_ ?_

theorem execD3hotEntry_runs {s0 : State} {x1 : HPort} {s : State} (h : Keeps s0 s) : Runs s0 (execD3hotEntry x1 s) := by
  unfold execD3hotEntry
  repeat' first
    | with_reducible assumption
    | (extract_lets +onlyGivenNames x; first | (refine Keeps.letS (a := x) ?_ fun hx => ?_; rotate_left; clear_value x; revert x; rotate_left; unfold x; clear x) | (try unfold x; clear x))
    | with_reducible refine Runs.next ?_
    | with_reducible refine psUpdate_keeps ?_
    | with_reducible refine setCtl_keeps ?_
    | with_reducible refine prepareWatch_keeps ?_
    | with_reducible refine Keeps.ite ?_ ?_

theorem execD3hotExit_runs {s0 : State} {x1 : HPort} {s : State} (h : Keeps s0 s) : Runs s0 (execD3hotExit x1 s) := by
  unfold execD3hotExit
  repeat' first
    | with_reducible assumption
    | (extract_lets +onlyGivenNames x; first | (refine Keeps.letS (a := x) ?_ fun hx => ?_; rotate_left; clear_value x; revert x; rotate_left; unfold x; clear x) | (try unfold x; clear x))
    | with_reducible refine Runs.next ?_
    | with_reducible refine psUpdate_keeps ?_
    | with_reducible refine setCtl_keeps ?_
    | with_reducible refine Keeps.forAll ?_ fun _ _ hy => ?_
    | with_reducible refine wantToken_keeps ?_
    | with_reducible refine Keeps.ite ?_ ?_

theorem execDebugAttach_runs {s0 : State} {attach : Bool} {s : State} (h : Keeps s0 s) : Runs s0 (execDebugAttach attach s) := by
  unfold execDebugAttach
  repeat' first
    | with_reducible assumption
    | (extract_lets +onlyGivenNames x; first | (refine Keeps.letS (a := x) ?_ fun hx => ?_; rotate_left; clear_value x; revert x; rotate_left; unfold x; clear x) | (try unfold x; clear x))
    | with_reducible refine Runs.next ?_
    | with_reducible refine setPwr_keeps ?_
    | with_reducible refine domRequest_keeps ?_
    | with_reducible refine partyReset_keeps ?_
    | with_reducible refine domRelease_keeps ?_
    | with_reducible refine Keeps.ite ?_ ?_

theorem execDisp_runs {s0 : State} {q : SeqRef} {s : State} (h : Keeps s0 s) : Runs s0 (execDisp q s) := by
  unfold execDisp
  repeat' first
    | with_reducible assumption
    | (extract_lets +onlyGivenNames x; first | (refine Keeps.letS (a := x) ?_ fun hx => ?_; rotate_left; clear_value x; revert x; rotate_left; unfold x; clear x) | (try unfold x; clear x))
    | intro _ _
    | with_reducible refine Runs.next ?_
    | with_reducible refine fRun_keeps (fun _ => ?_) ?_
    | with_reducible refine fNext_keeps ?_
    | with_reducible refine seekTo_keeps ?_
    | with_reducible refine setFseq_keeps ?_
    | with_reducible refine fset_keeps ?_
    | with_reducible refine count_keeps ?_
    | with_reducible refine zRun_keeps (fun _ _ _ hy => ?_) ?_
    | with_reducible refine zNext_keeps ?_
    | with_reducible refine Keeps.ite ?_ ?_
    | split

theorem execDly_runs {s0 : State} {q : SeqRef} {s : State} (h : Keeps s0 s) : Runs s0 (execDly q s) := by
  unfold execDly
  repeat' first
    | with_reducible assumption
    | with_reducible refine Runs.next ?_
    | with_reducible refine regWord_keeps ?_

theorem execDomainBlockWrite_runs {s0 : State} {m : Master} {i : Fin 15} {value : Word} {s : State} (h : Keeps s0 s) : Runs s0 (execDomainBlockWrite m i value s) := by
  unfold execDomainBlockWrite
  repeat' first
    | with_reducible assumption
    | with_reducible refine Runs.next ?_
    | with_reducible refine regWrite_keeps (fun _ hy => ?_) ?_
    | with_reducible refine wr_keeps ?_

theorem holdWrite_keeps {s0 s : State} {i : Nat} {value : Word} (h : Keeps s0 s) : Keeps s0 (holdWrite s i value) := by
  unfold holdWrite
  repeat' first
    | with_reducible assumption
    | (extract_lets +onlyGivenNames x; first | (refine Keeps.letS (a := x) ?_ fun hx => ?_; rotate_left; clear_value x; revert x; rotate_left; unfold x; clear x) | (try unfold x; clear x))
    | intro _ _
    | with_reducible refine Keeps.forAll ?_ fun _ _ hy => ?_
    | with_reducible refine wr_keeps ?_
    | with_reducible refine domRequest_keeps ?_
    | with_reducible refine laneSync_keeps ?_
    | with_reducible refine domRelease_keeps ?_
    | with_reducible refine Keeps.ite ?_ ?_

theorem execDomainHoldWrite_runs {s0 : State} {m : Master} {i : Fin 15} {value : Word} {s : State} (h : Keeps s0 s) : Runs s0 (execDomainHoldWrite m i value s) := by
  unfold execDomainHoldWrite
  repeat' first
    | with_reducible assumption
    | with_reducible refine Runs.next ?_
    | with_reducible refine regWrite_keeps (fun _ hy => ?_) ?_
    | with_reducible refine holdWrite_keeps ?_

theorem execDomainPowerFail_runs {s0 : State} {n : Fin 477} {s : State} (h : Keeps s0 s) : Runs s0 (execDomainPowerFail n s) := by
  unfold execDomainPowerFail
  repeat' first
    | with_reducible assumption
    | with_reducible refine Runs.next ?_
    | with_reducible refine domFault_keeps ?_
    | with_reducible refine Keeps.ite ?_ ?_

theorem execDomainPowerGood_runs {s0 : State} {n : Fin 477} {s : State} (h : Keeps s0 s) : Runs s0 (execDomainPowerGood n s) := by
  unfold execDomainPowerGood
  repeat' first
    | with_reducible assumption
    | with_reducible refine Runs.next ?_
    | with_reducible refine domUp_keeps ?_
    | with_reducible refine Keeps.ite ?_ ?_

theorem execDone_runs {s0 : State} {q : SeqRef} {s : State} (h : Keeps s0 s) : Runs s0 (execDone q s) := by
  unfold execDone
  repeat' first
    | with_reducible assumption
    | (extract_lets +onlyGivenNames x; first | (refine Keeps.letS (a := x) ?_ fun hx => ?_; rotate_left; clear_value x; revert x; rotate_left; unfold x; clear x) | (try unfold x; clear x))
    | intro _ _
    | with_reducible refine Runs.next ?_
    | with_reducible refine fRun_keeps (fun _ => ?_) ?_
    | with_reducible refine pushResult_keeps ?_
    | with_reducible refine setFseq_keeps ?_
    | with_reducible refine closeWindows_keeps ?_
    | with_reducible refine fSync_keeps ?_
    | with_reducible refine fNext_keeps ?_
    | with_reducible refine fset_keeps ?_
    | with_reducible refine zRun_keeps (fun _ _ _ hy => ?_) ?_
    | with_reducible refine setZseq_keeps ?_
    | with_reducible refine zSync_keeps ?_
    | with_reducible refine count_keeps ?_
    | with_reducible refine Keeps.ite ?_ ?_
    | split

theorem execDramTrainingDone_runs {s0 : State} {chUp : BitVec 8} {s : State} (h : Keeps s0 s) : Runs s0 (execDramTrainingDone chUp s) := by
  unfold execDramTrainingDone
  repeat' first
    | with_reducible assumption
    | (extract_lets +onlyGivenNames x; first | (refine Keeps.letS (a := x) ?_ fun hx => ?_; rotate_left; clear_value x; revert x; rotate_left; unfold x; clear x) | (try unfold x; clear x))
    | with_reducible refine Runs.next ?_
    | with_reducible refine fset_keeps ?_
    | with_reducible refine fsetb_keeps ?_
    | with_reducible refine bootTruss_keeps ?_
    | with_reducible refine bootMemory_keeps ?_
    | with_reducible refine rootGrade_keeps ?_
    | with_reducible refine evtSet_keeps ?_
    | with_reducible refine setPwr_keeps ?_
    | with_reducible refine Keeps.ite ?_ ?_

theorem powerSample_keeps {s0 s : State} {now : BitVec 16} (h : Keeps s0 s) : Keeps s0 (powerSample s now) := by
  unfold powerSample
  repeat' first
    | with_reducible assumption
    | (extract_lets +onlyGivenNames x; first | (refine Keeps.letS (a := x) ?_ fun hx => ?_; rotate_left; clear_value x; revert x; rotate_left; unfold x; clear x) | (try unfold x; clear x))
    | intro _ _
    | with_reducible refine fset_keeps ?_
    | with_reducible refine setPwr_keeps ?_
    | with_reducible refine evtSet_keeps ?_
    | with_reducible refine count_keeps ?_
    | with_reducible refine Keeps.ite ?_ ?_

theorem execEnvelopeLimit_runs {s0 : State} {samples : List (BitVec 16)} {s : State} (h : Keeps s0 s) : Runs s0 (execEnvelopeLimit samples s) := by
  unfold execEnvelopeLimit
  repeat' first
    | with_reducible assumption
    | with_reducible refine Runs.next ?_
    | with_reducible refine Keeps.forAll ?_ fun _ _ hy => ?_
    | with_reducible refine powerSample_keeps ?_
    | with_reducible refine Keeps.ite ?_ ?_

theorem mcsWrite_keeps {s0 s : State} {m : Master} {addr : Nat} {f : State → State} (hf : ∀ y0, Keeps s0 y0 → Keeps s0 (f y0)) (h : Keeps s0 s) : Keeps s0 (mcsWrite s m addr f) := by
  unfold mcsWrite
  repeat' first
    | with_reducible assumption
    | with_reducible refine regWrite_keeps (fun _ hy => ?_) ?_
    | with_reducible refine hf _ ?_
    | with_reducible refine Keeps.ite ?_ ?_

theorem execFHaltWrite_runs {s0 : State} {m : Master} {hi : Bool} {value : Word} {s : State} (h : Keeps s0 s) : Runs s0 (execFHaltWrite m hi value s) := by
  unfold execFHaltWrite
  repeat' first
    | with_reducible assumption
    | (extract_lets +onlyGivenNames x; first | (refine Keeps.letS (a := x) ?_ fun hx => ?_; rotate_left; clear_value x; revert x; rotate_left; unfold x; clear x) | (try unfold x; clear x))
    | with_reducible refine Runs.next ?_
    | with_reducible refine mcsWrite_keeps (fun _ hy => ?_) ?_
    | with_reducible refine Keeps.forAll ?_ fun _ _ hy => ?_
    | with_reducible refine wr_keeps ?_
    | with_reducible refine fset_keeps ?_
    | with_reducible refine Keeps.ite ?_ ?_

theorem storeImage_keeps {s0 s : State} {f : List Nat} (h : Keeps s0 s) : Keeps s0 (storeImage s f).1 := by
  unfold storeImage
  dsimp only
  split
  · exact h
  · split
    · exact evtSet_keeps (b := .fls) (i := FLS_EVT_FW_SHORT) h
    · exact wrN_keeps (setFls_keeps (Keeps.forAll h fun _ _ hy => storeBlocks_keeps hy))

theorem relaySend_keeps {s0 s : State} {hop kind img off : Nat} {payload : List Nat} (h : Keeps s0 s) : Keeps s0 (relaySend s hop kind img off payload) := by
  unfold relaySend
  repeat' first
    | with_reducible assumption
    | with_reducible refine emit_keeps ?_

theorem sendImage_keeps {s0 s : State} {f : List Nat} (h : Keeps s0 s) : Keeps s0 (sendImage s f) := by
  unfold sendImage
  repeat' first
    | with_reducible assumption
    | (extract_lets +onlyGivenNames x; first | (refine Keeps.letS (a := x) ?_ fun hx => ?_; rotate_left; clear_value x; revert x; rotate_left; unfold x; clear x) | (try unfold x; clear x))
    | intro _ _
    | with_reducible refine emit_keeps ?_
    | with_reducible refine Keeps.forAll ?_ fun _ _ hy => ?_
    | with_reducible refine relaySend_keeps ?_
    | with_reducible refine setPrt_keeps (fun _ => rfl) ?_
    | with_reducible refine Keeps.ite ?_ ?_

theorem fwCommit_keeps {s0 s : State} {x cid ca fs : Nat} (h : Keeps s0 s) : Keeps s0 (fwCommit s x cid ca fs) := by
  simp only [fwCommit]
  have g : Keeps s0 (setPrt s fun y => { y with status := [] }) :=
    ⟨h.pending, h.out, fun i => ⟨(h.inv i).regs, (h.inv i).tails, (h.inv i).errLog, Nat.zero_le _⟩⟩
  have g' := storeImage_keeps (f := stagedImage s) g
  have g2 := sendImage_keeps (f := stagedImage s) g'
  refine Keeps.ite (claimHeld_keeps h) (Keeps.ite (adminOk_keeps (setFls_keeps h)) (Keeps.ite (adminEnd_keeps h)
    (Keeps.ite (adminEnd_keeps h) (Keeps.ite (adminEnd_keeps h) (Keeps.ite (adminEnd_keeps h) (Keeps.ite (adminEnd_keeps g')
    (Keeps.ite (adminOk_keeps g2) (Keeps.ite (adminOk_keeps (setFls_keeps g2)) (setPrt_keeps (fun _ => rfl) g2)))))))))

theorem execFwCommitCa0_runs {s0 : State} {x1 : HPort} {cid : BitVec 16} {fs : BitVec 3} {s : State} (h : Keeps s0 s) : Runs s0 (execFwCommitCa0 x1 cid fs s) := by
  unfold execFwCommitCa0
  repeat' first
    | with_reducible assumption
    | with_reducible refine Runs.next ?_
    | with_reducible refine adminCmd_keeps (fun _ hy => ?_) ?_
    | with_reducible refine fwCommit_keeps ?_

theorem execFwCommitCa1_runs {s0 : State} {x1 : HPort} {cid : BitVec 16} {fs : BitVec 3} {s : State} (h : Keeps s0 s) : Runs s0 (execFwCommitCa1 x1 cid fs s) := by
  unfold execFwCommitCa1
  repeat' first
    | with_reducible assumption
    | with_reducible refine Runs.next ?_
    | with_reducible refine adminCmd_keeps (fun _ hy => ?_) ?_
    | with_reducible refine fwCommit_keeps ?_

theorem execFwCommitCa2_runs {s0 : State} {x1 : HPort} {cid : BitVec 16} {fs : BitVec 3} {s : State} (h : Keeps s0 s) : Runs s0 (execFwCommitCa2 x1 cid fs s) := by
  unfold execFwCommitCa2
  repeat' first
    | with_reducible assumption
    | with_reducible refine Runs.next ?_
    | with_reducible refine adminCmd_keeps (fun _ hy => ?_) ?_
    | with_reducible refine fwCommit_keeps ?_

theorem execFwCommitCa3_runs {s0 : State} {x1 : HPort} {cid : BitVec 16} {fs : BitVec 3} {s : State} (h : Keeps s0 s) : Runs s0 (execFwCommitCa3 x1 cid fs s) := by
  unfold execFwCommitCa3
  repeat' first
    | with_reducible assumption
    | with_reducible refine Runs.next ?_
    | with_reducible refine adminCmd_keeps (fun _ hy => ?_) ?_
    | with_reducible refine fwCommit_keeps ?_

theorem execFwImageDownload_runs {s0 : State} {x1 : HPort} {cid : BitVec 16} {numd ofst : BitVec 32} {data : List Word} {s : State} (h : Keeps s0 s) : Runs s0 (execFwImageDownload x1 cid numd ofst data s) := by
  unfold execFwImageDownload
  repeat' first
    | with_reducible assumption
    | (extract_lets +onlyGivenNames x; first | (refine Keeps.letS (a := x) ?_ fun hx => ?_; rotate_left; clear_value x; revert x; rotate_left; unfold x; clear x) | (try unfold x; clear x))
    | intro _ _
    | with_reducible refine Runs.next ?_
    | with_reducible refine adminCmd_keeps (fun _ hy => ?_) ?_
    | with_reducible refine invalidField_keeps ?_
    | with_reducible refine setPrt_keeps (fun _ => rfl) ?_
    | with_reducible refine adminOk_keeps ?_
    | with_reducible refine Keeps.ite ?_ ?_

theorem execFwKeyRevoke_runs {s0 : State} {m : Master} {slots : BitVec 2} {s : State} (h : Keeps s0 s) : Runs s0 (execFwKeyRevoke m slots s) := by
  unfold execFwKeyRevoke
  repeat' first
    | with_reducible assumption
    | with_reducible refine Runs.next ?_
    | with_reducible refine regWrite_keeps (fun _ hy => ?_) ?_
    | with_reducible refine fset_keeps ?_

theorem execGetFeatPowerMgmt_runs {s0 : State} {x1 : HPort} {cid : BitVec 16} {s : State} (h : Keeps s0 s) : Runs s0 (execGetFeatPowerMgmt x1 cid s) := by
  unfold execGetFeatPowerMgmt
  repeat' first
    | with_reducible assumption
    | with_reducible refine Runs.next ?_
    | with_reducible refine getFeat_keeps (fun _ _ _ hy => ?_) ?_
    | with_reducible refine featValue_keeps ?_

theorem getEE_keeps {s0 s : State} {x1 cid : Nat} (h : Keeps s0 s) : Keeps s0 (getEE s x1 cid) := by
  unfold getEE
  repeat' first
    | with_reducible assumption
    | with_reducible refine featValue_keeps ?_

theorem execGetModeControl_runs {s0 : State} {x1 : HPort} {cid : BitVec 16} {s : State} (h : Keeps s0 s) : Runs s0 (execGetModeControl x1 cid s) := by
  unfold execGetModeControl
  repeat' first
    | with_reducible assumption
    | with_reducible refine Runs.next ?_
    | with_reducible refine getFeat_keeps (fun _ _ _ hy => ?_) ?_
    | with_reducible refine getEE_keeps ?_

theorem execHaltpt_runs {s0 : State} {q : SeqRef} {s : State} (h : Keeps s0 s) : Runs s0 (execHaltpt q s) := by
  unfold execHaltpt
  repeat' first
    | with_reducible assumption
    | (extract_lets +onlyGivenNames x; first | (refine Keeps.letS (a := x) ?_ fun hx => ?_; rotate_left; clear_value x; revert x; rotate_left; unfold x; clear x) | (try unfold x; clear x))
    | with_reducible refine Runs.next ?_
    | with_reducible refine fRun_keeps (fun _ => ?_) ?_
    | with_reducible refine fset_keeps ?_
    | with_reducible refine fNext_keeps ?_
    | with_reducible refine zRun_keeps (fun _ _ _ hy => ?_) ?_
    | with_reducible refine zSync_keeps ?_
    | with_reducible refine setThread_keeps ?_
    | with_reducible refine zNext_keeps ?_
    | with_reducible refine Keeps.ite ?_ ?_
    | split

theorem hoEnded_keeps {s0 s : State} {us : Nat} {arriving : Bool} (h : Keeps s0 s) : Keeps s0 (hoEnded s us arriving) := by
  unfold hoEnded
  repeat' first
    | with_reducible assumption
    | (extract_lets +onlyGivenNames x; first | (refine Keeps.letS (a := x) ?_ fun hx => ?_; rotate_left; clear_value x; revert x; rotate_left; unfold x; clear x) | (try unfold x; clear x))
    | intro _ _
    | with_reducible refine fset_keeps ?_
    | with_reducible refine hoPhase_keeps ?_
    | with_reducible refine hoResult_keeps ?_
    | with_reducible refine evtSet_keeps ?_
    | with_reducible refine count_keeps ?_
    | with_reducible refine setMirrorValid_keeps ?_
    | with_reducible refine setRole_keeps ?_
    | with_reducible refine setPrt_keeps (fun _ => rfl) ?_

theorem mirrorWriters_keeps {s0 s : State} (h : Keeps s0 s) : Keeps s0 (mirrorWriters s) := by
  unfold mirrorWriters
  repeat' first
    | with_reducible assumption
    | (extract_lets +onlyGivenNames x; first | (refine Keeps.letS (a := x) ?_ fun hx => ?_; rotate_left; clear_value x; revert x; rotate_left; unfold x; clear x) | (try unfold x; clear x))
    | intro _ _
    | with_reducible refine fset_keeps ?_
    | with_reducible refine wrN_keeps ?_
    | with_reducible refine Keeps.forAll ?_ fun _ _ hy => ?_
    | with_reducible refine fsetb_keeps ?_

theorem execHandoverDone_runs {s0 : State} {us : BitVec 24} {s : State} (h : Keeps s0 s) : Runs s0 (execHandoverDone us s) := by
  unfold execHandoverDone
  repeat' first
    | with_reducible assumption
    | (extract_lets +onlyGivenNames x; first | (refine Keeps.letS (a := x) ?_ fun hx => ?_; rotate_left; clear_value x; revert x; rotate_left; unfold x; clear x) | (try unfold x; clear x))
    | with_reducible refine Runs.next ?_
    | with_reducible refine hoEnded_keeps ?_
    | with_reducible refine Keeps.forAll ?_ fun _ _ hy => ?_
    | with_reducible refine setPrt_keeps (fun _ => rfl) ?_
    | with_reducible refine wantToken_keeps ?_
    | with_reducible refine syncVused_keeps ?_
    | with_reducible refine enterSafe_keeps ?_
    | with_reducible refine mirrorWriters_keeps ?_
    | with_reducible refine hoComplete_keeps ?_
    | with_reducible refine Keeps.ite ?_ ?_

theorem execHandoverQuietDone_runs {s0 s : State} (h : Keeps s0 s) : Runs s0 (execHandoverQuietDone s) := by
  unfold execHandoverQuietDone
  repeat' first
    | with_reducible assumption
    | with_reducible refine Runs.next ?_
    | with_reducible refine hoPhase_keeps ?_
    | with_reducible refine Keeps.ite ?_ ?_

theorem leaveBegin_keeps {s0 s : State} (h : Keeps s0 s) : Keeps s0 (leaveBegin s) := by
  unfold leaveBegin
  repeat' first
    | with_reducible assumption
    | (extract_lets +onlyGivenNames x; first | (refine Keeps.letS (a := x) ?_ fun hx => ?_; rotate_left; clear_value x; revert x; rotate_left; unfold x; clear x) | (try unfold x; clear x))
    | intro _ _
    | with_reducible refine hoPhase_keeps ?_
    | with_reducible refine setPrt_keeps (fun _ => rfl) ?_
    | with_reducible refine setRole_keeps ?_
    | with_reducible refine emit_keeps ?_
    | with_reducible refine Keeps.forAll ?_ fun _ _ hy => ?_
    | with_reducible refine failCmd_keeps ?_

theorem hoTry_keeps {s0 s : State} (h : Keeps s0 s) : Keeps s0 (hoTry s) := by
  unfold hoTry
  repeat' first
    | with_reducible assumption
    | with_reducible refine handoverFail_keeps ?_
    | with_reducible refine leaveBegin_keeps ?_
    | with_reducible refine Keeps.ite ?_ ?_

theorem hoRequest_keeps {s0 s : State} {cmd : Option (Nat × Nat)} (h : Keeps s0 s) : Keeps s0 (hoRequest s cmd) := by
  unfold hoRequest
  repeat' first
    | with_reducible assumption
    | (extract_lets +onlyGivenNames x; first | (refine Keeps.letS (a := x) ?_ fun hx => ?_; rotate_left; clear_value x; revert x; rotate_left; unfold x; clear x) | (try unfold x; clear x))
    | intro _ _
    | with_reducible refine hoResult_keeps ?_
    | with_reducible refine sequenceError_keeps ?_
    | with_reducible refine hoTry_keeps ?_
    | with_reducible refine setPrt_keeps (fun _ => rfl) ?_
    | with_reducible refine Keeps.ite ?_ ?_
    | split

theorem execHandoverStart_runs {s0 : State} {m : Master} {s : State} (h : Keeps s0 s) : Runs s0 (execHandoverStart m s) := by
  unfold execHandoverStart
  repeat' first
    | with_reducible assumption
    | with_reducible refine Runs.next ?_
    | with_reducible refine regWrite_keeps (fun _ hy => ?_) ?_
    | with_reducible refine hoRequest_keeps ?_

theorem execHandoverSyncDone_runs {s0 s : State} (h : Keeps s0 s) : Runs s0 (execHandoverSyncDone s) := by
  unfold execHandoverSyncDone
  repeat' first
    | with_reducible assumption
    | (extract_lets +onlyGivenNames x; first | (refine Keeps.letS (a := x) ?_ fun hx => ?_; rotate_left; clear_value x; revert x; rotate_left; unfold x; clear x) | (try unfold x; clear x))
    | with_reducible refine Runs.next ?_
    | with_reducible refine hoPhase_keeps ?_
    | with_reducible refine Keeps.forAll ?_ fun _ _ hy => ?_
    | with_reducible refine emit_keeps ?_
    | with_reducible refine tokenCmd_keeps ?_
    | with_reducible refine Keeps.ite ?_ ?_

theorem execIllegalMicroword_runs {s0 : State} {q : SeqRef} {parity : Bool} {s : State} (h : Keeps s0 s) : Runs s0 (execIllegalMicroword q parity s) := by
  unfold execIllegalMicroword
  repeat' first
    | with_reducible assumption
    | with_reducible refine Runs.next ?_
    | with_reducible refine fRun_keeps (fun _ => ?_) ?_
    | with_reducible refine fFault_keeps ?_
    | with_reducible refine zRun_keeps (fun _ _ _ hy => ?_) ?_
    | with_reducible refine zFault_keeps ?_
    | split

theorem zIn_keeps {s0 s : State} {z port : Nat} {g : Cmd → Nat} (h : Keeps s0 s) : Keeps s0 (zIn s z port g) := by
  unfold zIn
  repeat' first
    | with_reducible assumption
    | (extract_lets +onlyGivenNames x; first | (refine Keeps.letS (a := x) ?_ fun hx => ?_; rotate_left; clear_value x; revert x; rotate_left; unfold x; clear x) | (try unfold x; clear x))
    | with_reducible refine drawn_keeps ?_
    | with_reducible refine zRun_keeps (fun _ _ _ hy => ?_) ?_
    | with_reducible refine zNext_keeps ?_
    | with_reducible refine setThread_keeps ?_

theorem execInCmd_runs {s0 : State} {z : Fin 8} {s : State} (h : Keeps s0 s) : Runs s0 (execInCmd z s) := by
  unfold execInCmd
  repeat' first
    | with_reducible assumption
    | with_reducible refine Runs.next ?_
    | with_reducible refine zIn_keeps ?_

theorem fIn_keeps {s0 s : State} {f port : Nat} {g : State → Nat × State} (hf : Keeps s0 (g s).2) (h : Keeps s0 s) :
    Keeps s0 (fIn s f port g) := fRun_keeps (fun _ => fNext_keeps (setFseq_keeps hf)) h

theorem execInInh_runs {s0 : State} {f : Fin 64} {s : State} (h : Keeps s0 s) : Runs s0 (execInInh f s) := by
  unfold execInInh
  repeat' first
    | with_reducible assumption
    | with_reducible refine Runs.next ?_
    | with_reducible refine fIn_keeps ?_ ?_

theorem execInNlb_runs {s0 : State} {z : Fin 8} {s : State} (h : Keeps s0 s) : Runs s0 (execInNlb z s) := by
  unfold execInNlb
  repeat' first
    | with_reducible assumption
    | with_reducible refine Runs.next ?_
    | with_reducible refine zIn_keeps ?_

theorem execInOpc_runs {s0 : State} {z : Fin 8} {s : State} (h : Keeps s0 s) : Runs s0 (execInOpc z s) := by
  unfold execInOpc
  repeat' first
    | with_reducible assumption
    | with_reducible refine Runs.next ?_
    | with_reducible refine zIn_keeps ?_

theorem execInRes_runs {s0 : State} {f : Fin 64} {s : State} (h : Keeps s0 s) : Runs s0 (execInRes f s) := by
  unfold execInRes
  repeat' first
    | with_reducible assumption
    | (extract_lets +onlyGivenNames x; first | (refine Keeps.letS (a := x) ?_ fun hx => ?_; rotate_left; clear_value x; revert x; rotate_left; unfold x; clear x) | (try unfold x; clear x))
    | with_reducible refine Runs.next ?_
    | with_reducible refine drawn_keeps ?_
    | with_reducible refine fIn_keeps ?_ ?_
    | with_reducible refine setFseq_keeps ?_
    | split

theorem execInSect_runs {s0 : State} {f : Fin 64} {s : State} (h : Keeps s0 s) : Runs s0 (execInSect f s) := by
  unfold execInSect
  repeat' first
    | with_reducible assumption
    | with_reducible refine Runs.next ?_
    | with_reducible refine fIn_keeps ?_ ?_

theorem execInSlbaHi_runs {s0 : State} {z : Fin 8} {s : State} (h : Keeps s0 s) : Runs s0 (execInSlbaHi z s) := by
  unfold execInSlbaHi
  repeat' first
    | with_reducible assumption
    | with_reducible refine Runs.next ?_
    | with_reducible refine zIn_keeps ?_

theorem execInSlbaLo_runs {s0 : State} {z : Fin 8} {s : State} (h : Keeps s0 s) : Runs s0 (execInSlbaLo z s) := by
  unfold execInSlbaLo
  repeat' first
    | with_reducible assumption
    | with_reducible refine Runs.next ?_
    | with_reducible refine zIn_keeps ?_

theorem execInSync_runs {s0 : State} {f : Fin 64} {s : State} (h : Keeps s0 s) : Runs s0 (execInSync f s) := by
  unfold execInSync
  repeat' first
    | with_reducible assumption
    | with_reducible refine Runs.next ?_
    | with_reducible refine fIn_keeps ?_ ?_

theorem execInTrack_runs {s0 : State} {f : Fin 64} {s : State} (h : Keeps s0 s) : Runs s0 (execInTrack f s) := by
  unfold execInTrack
  repeat' first
    | with_reducible assumption
    | with_reducible refine Runs.next ?_
    | with_reducible refine fIn_keeps ?_ ?_

theorem execInUnlistedPort_runs {s0 : State} {q : SeqRef} {s : State} (h : Keeps s0 s) : Runs s0 (execInUnlistedPort q s) := by
  unfold execInUnlistedPort
  repeat' first
    | with_reducible assumption
    | (extract_lets +onlyGivenNames x; first | (refine Keeps.letS (a := x) ?_ fun hx => ?_; rotate_left; clear_value x; revert x; rotate_left; unfold x; clear x) | (try unfold x; clear x))
    | with_reducible refine Runs.next ?_
    | with_reducible refine regWord_keeps ?_

theorem execInWedge_runs {s0 : State} {f : Fin 64} {s : State} (h : Keeps s0 s) : Runs s0 (execInWedge f s) := by
  unfold execInWedge
  repeat' first
    | with_reducible assumption
    | with_reducible refine Runs.next ?_
    | with_reducible refine fIn_keeps ?_ ?_

theorem execJmp_runs {s0 : State} {q : SeqRef} {s : State} (h : Keeps s0 s) : Runs s0 (execJmp q s) := by
  unfold execJmp
  repeat' first
    | with_reducible assumption
    | with_reducible refine Runs.next ?_
    | with_reducible refine fRun_keeps (fun _ => ?_) ?_
    | with_reducible refine fNext_keeps ?_
    | with_reducible refine zRun_keeps (fun _ _ _ hy => ?_) ?_
    | with_reducible refine zNext_keeps ?_
    | split

theorem execLdh_runs {s0 : State} {q : SeqRef} {s : State} (h : Keeps s0 s) : Runs s0 (execLdh q s) := by
  unfold execLdh
  repeat' first
    | with_reducible assumption
    | with_reducible refine Runs.next ?_
    | with_reducible refine regWord_keeps ?_

theorem execLdi_runs {s0 : State} {q : SeqRef} {s : State} (h : Keeps s0 s) : Runs s0 (execLdi q s) := by
  unfold execLdi
  repeat' first
    | with_reducible assumption
    | with_reducible refine Runs.next ?_
    | with_reducible refine regWord_keeps ?_

theorem loopStart_keeps {s0 s : State} {x1 : LoopSlot} (h : Keeps s0 s) : Keeps s0 (loopStart s x1) := by
  unfold loopStart
  repeat' first
    | with_reducible assumption
    | (extract_lets +onlyGivenNames x; first | (refine Keeps.letS (a := x) ?_ fun hx => ?_; rotate_left; clear_value x; revert x; rotate_left; unfold x; clear x) | (try unfold x; clear x))
    | intro _ _
    | with_reducible refine wrN_keeps ?_
    | with_reducible refine fset_keeps ?_
    | with_reducible refine enginePower_keeps ?_
    | with_reducible refine setBslot_keeps ?_

theorem loopTaken_keeps {s0 s : State} {slots : List LoopSlot} {spindles : List (BitVec 4 × BitVec 2)} (h : Keeps s0 s) : Keeps s0 (loopTaken s slots spindles) := by
  unfold loopTaken
  repeat' first
    | with_reducible assumption
    | (extract_lets +onlyGivenNames x; first | (refine Keeps.letS (a := x) ?_ fun hx => ?_; rotate_left; clear_value x; revert x; rotate_left; unfold x; clear x) | (try unfold x; clear x))
    | intro _ _
    | with_reducible refine hoPhase_keeps ?_
    | with_reducible refine Keeps.forAll ?_ fun _ _ hy => ?_
    | with_reducible refine syncSw_keeps ?_
    | with_reducible refine fset_keeps ?_
    | with_reducible refine loopStart_keeps ?_
    | with_reducible refine setSrvMode_keeps ?_
    | with_reducible refine setPrt_keeps (fun _ => rfl) ?_
    | with_reducible refine syncShelf_keeps ?_

theorem execLoopRecordReceive_runs {s0 : State} {slots : List LoopSlot} {spindles : List (BitVec 4 × BitVec 2)} {s : State} (h : Keeps s0 s) : Runs s0 (execLoopRecordReceive slots spindles s) := by
  unfold execLoopRecordReceive
  repeat' first
    | with_reducible assumption
    | with_reducible refine Runs.next ?_
    | with_reducible refine loopTaken_keeps ?_
    | with_reducible refine Keeps.ite ?_ ?_

theorem mainLoss_keeps {s0 s : State} (h : Keeps s0 s) : Keeps s0 (mainLoss s) := by
  unfold mainLoss
  repeat' first
    | with_reducible assumption
    | (extract_lets +onlyGivenNames x; first | (refine Keeps.letS (a := x) ?_ fun hx => ?_; rotate_left; clear_value x; revert x; rotate_left; unfold x; clear x) | (try unfold x; clear x))
    | with_reducible refine enterWatch_keeps ?_
    | with_reducible refine setFls_keeps ?_
    | with_reducible refine Keeps.ite ?_ ?_

theorem execMainPgFall_runs {s0 s : State} (h : Keeps s0 s) : Runs s0 (execMainPgFall s) := by
  unfold execMainPgFall
  repeat' first
    | with_reducible assumption
    | with_reducible refine Runs.next ?_
    | with_reducible refine mainLoss_keeps ?_

theorem samplePair_keeps {s0 s : State} {pairPos : Bool} (h : Keeps s0 s) : Keeps s0 (samplePair s pairPos) := by
  unfold samplePair
  repeat' first
    | with_reducible assumption
    | (extract_lets +onlyGivenNames x; first | (refine Keeps.letS (a := x) ?_ fun hx => ?_; rotate_left; clear_value x; revert x; rotate_left; unfold x; clear x) | (try unfold x; clear x))
    | intro _ _
    | with_reducible refine fsetb_keeps ?_
    | with_reducible refine fset_keeps ?_

theorem mainGood_keeps {s0 s : State} {pairPos : Bool} (h : Keeps s0 s) : Keeps s0 (mainGood s pairPos) := by
  unfold mainGood
  repeat' first
    | with_reducible assumption
    | (extract_lets +onlyGivenNames x; first | (refine Keeps.letS (a := x) ?_ fun hx => ?_; rotate_left; clear_value x; revert x; rotate_left; unfold x; clear x) | (try unfold x; clear x))
    | intro _ _
    | with_reducible refine firstDomains_keeps ?_
    | with_reducible refine clearRange_keeps ?_
    | with_reducible refine fset_keeps ?_
    | with_reducible refine resetBank_keeps ?_
    | with_reducible refine count_keeps ?_
    | with_reducible refine setPwr_keeps ?_
    | with_reducible refine samplePair_keeps ?_
    | with_reducible refine evtSet_keeps ?_
    | with_reducible refine findFitted_keeps ?_
    | with_reducible refine emit_keeps ?_
    | with_reducible refine Keeps.ite ?_ ?_

theorem execMainPgRise_runs {s0 : State} {pairPos : Bool} {s : State} (h : Keeps s0 s) : Runs s0 (execMainPgRise pairPos s) := by
  unfold execMainPgRise
  repeat' first
    | with_reducible assumption
    | with_reducible refine Runs.next ?_
    | with_reducible refine mainGood_keeps ?_
    | with_reducible refine Keeps.ite ?_ ?_

theorem modeCmdDone_keeps {s0 s : State} (h : Keeps s0 s) : Keeps s0 (modeCmdDone s) := by
  unfold modeCmdDone
  repeat' first
    | with_reducible assumption
    | (extract_lets +onlyGivenNames x; first | (refine Keeps.letS (a := x) ?_ fun hx => ?_; rotate_left; clear_value x; revert x; rotate_left; unfold x; clear x) | (try unfold x; clear x))
    | with_reducible refine adminOk_keeps ?_
    | with_reducible refine setPwr_keeps ?_
    | split

theorem execMaintEntry_runs {s0 s : State} (h : Keeps s0 s) : Runs s0 (execMaintEntry s) := by
  unfold execMaintEntry
  repeat' first
    | with_reducible assumption
    | with_reducible refine Runs.next ?_
    | with_reducible refine modeCmdDone_keeps ?_
    | with_reducible refine setMode_keeps ?_
    | with_reducible refine Keeps.ite ?_ ?_

theorem patchWrite_keeps {s0 s : State} {m : Master} {zone : Bool} {addr : Nat} {f : State → State} (hf : ∀ y0, Keeps s0 y0 → Keeps s0 (f y0)) (h : Keeps s0 s) : Keeps s0 (patchWrite s m zone addr f) := by
  unfold patchWrite
  repeat' first
    | with_reducible assumption
    | with_reducible refine mcsWrite_keeps (fun _ hy => ?_) ?_
    | with_reducible refine evtSet_keeps ?_
    | with_reducible refine hf _ ?_
    | with_reducible refine Keeps.ite ?_ ?_

theorem execMatchRegisterWrite_runs {s0 : State} {m : Master} {zone : Bool} {i : Fin 32} {value : Word} {s : State} (h : Keeps s0 s) : Runs s0 (execMatchRegisterWrite m zone i value s) := by
  unfold execMatchRegisterWrite
  repeat' first
    | with_reducible assumption
    | (extract_lets +onlyGivenNames x; first | (refine Keeps.letS (a := x) ?_ fun hx => ?_; rotate_left; clear_value x; revert x; rotate_left; unfold x; clear x) | (try unfold x; clear x))
    | with_reducible refine Runs.next ?_
    | with_reducible refine patchWrite_keeps (fun _ hy => ?_) ?_
    | with_reducible refine wrN_keeps ?_
    | with_reducible refine undefAccess_keeps ?_
    | with_reducible refine Keeps.ite ?_ ?_

theorem setForce_keeps {s0 s : State} {v : Nat} (h : Keeps s0 s) : Keeps s0 (setForce s v) := by
  unfold setForce
  repeat' first
    | with_reducible assumption
    | (extract_lets +onlyGivenNames x; first | (refine Keeps.letS (a := x) ?_ fun hx => ?_; rotate_left; clear_value x; revert x; rotate_left; unfold x; clear x) | (try unfold x; clear x))
    | intro _ _
    | with_reducible refine fset_keeps ?_
    | with_reducible refine modeCmdDone_keeps ?_
    | with_reducible refine applyRule_keeps ?_
    | with_reducible refine setMode_keeps ?_
    | with_reducible refine Keeps.ite ?_ ?_

theorem execZmapWrite_runs {s0 : State} {m : Master} {v : BitVec 24} {s : State} (h : Keeps s0 s) : Runs s0 (execZmapWrite m v s) := by
  unfold execZmapWrite
  repeat' first
    | with_reducible assumption
    | (extract_lets +onlyGivenNames x; first | (refine Keeps.letS (a := x) ?_ fun hx => ?_; rotate_left; clear_value x; revert x; rotate_left; unfold x; clear x) | (try unfold x; clear x))
    | intro _ _
    | with_reducible refine Runs.next ?_
    | with_reducible refine mcsWrite_keeps (fun _ hy => ?_) ?_
    | with_reducible refine fset_keeps ?_
    | with_reducible refine Keeps.upd ?_ rfl rfl rfl

theorem execZHaltWrite_runs {s0 : State} {m : Master} {v : BitVec 8} {s : State} (h : Keeps s0 s) : Runs s0 (execZHaltWrite m v s) := by
  unfold execZHaltWrite
  repeat' first
    | with_reducible assumption
    | (extract_lets +onlyGivenNames x; first | (refine Keeps.letS (a := x) ?_ fun hx => ?_; rotate_left; clear_value x; revert x; rotate_left; unfold x; clear x) | (try unfold x; clear x))
    | with_reducible refine Runs.next ?_
    | with_reducible refine mcsWrite_keeps (fun _ hy => ?_) ?_
    | with_reducible refine Keeps.forAll ?_ fun _ _ hy => ?_
    | with_reducible refine fset_keeps ?_
    | with_reducible refine zSync_keeps ?_
    | with_reducible refine setZseq_keeps ?_
    | with_reducible refine Keeps.ite ?_ ?_

theorem execPatchRamWrite_runs {s0 : State} {m : Master} {zone : Bool} {w : BitVec 11} {value : Word} {s : State} (h : Keeps s0 s) : Runs s0 (execPatchRamWrite m zone w value s) := by
  unfold execPatchRamWrite
  repeat' first
    | with_reducible assumption
    | with_reducible refine Runs.next ?_
    | with_reducible refine patchWrite_keeps (fun _ hy => ?_) ?_
    | with_reducible refine wrN_keeps ?_
    | with_reducible refine undefAccess_keeps ?_
    | with_reducible refine Keeps.ite ?_ ?_

theorem fRestart_keeps {s0 s : State} {f : Nat} (h : Keeps s0 s) : Keeps s0 (fRestart s f) := by
  unfold fRestart
  repeat' first
    | with_reducible assumption
    | (extract_lets +onlyGivenNames x; first | (refine Keeps.letS (a := x) ?_ fun hx => ?_; rotate_left; clear_value x; revert x; rotate_left; unfold x; clear x) | (try unfold x; clear x))
    | intro _ _
    | with_reducible refine setFseq_keeps ?_
    | with_reducible refine fSync_keeps ?_
    | with_reducible refine wrN_keeps ?_
    | with_reducible refine recompute_keeps ?_
    | with_reducible refine unimpair_keeps ?_
    | with_reducible refine evtSet_keeps ?_
    | with_reducible refine Keeps.ite ?_ ?_
    | split

theorem mapBack_keeps {s0 s : State} {z : Nat} (h : Keeps s0 s) : Keeps s0 (mapBack s z) := by
  unfold mapBack
  repeat' first
    | with_reducible assumption
    | (extract_lets +onlyGivenNames x; first | (refine Keeps.letS (a := x) ?_ fun hx => ?_; rotate_left; clear_value x; revert x; rotate_left; unfold x; clear x) | (try unfold x; clear x))
    | intro _ _
    | with_reducible refine fset_keeps ?_
    | with_reducible refine Keeps.ite ?_ ?_
    | split
    | with_reducible refine Keeps.upd ?_ rfl rfl rfl

theorem zRestart_keeps {s0 s : State} {z : Nat} (h : Keeps s0 s) : Keeps s0 (zRestart s z) := by
  unfold zRestart
  repeat' first
    | with_reducible assumption
    | (extract_lets +onlyGivenNames x; first | (refine Keeps.letS (a := x) ?_ fun hx => ?_; rotate_left; clear_value x; revert x; rotate_left; unfold x; clear x) | (try unfold x; clear x))
    | intro _ _
    | with_reducible refine fset_keeps ?_
    | with_reducible refine setZseq_keeps ?_
    | with_reducible refine zSync_keeps ?_
    | with_reducible refine mapBack_keeps ?_
    | with_reducible refine ungradeUnit_keeps ?_
    | with_reducible refine evtSet_keeps ?_
    | with_reducible refine Keeps.ite ?_ ?_

theorem execSequencerRestart_runs {s0 : State} {m : Master} {q : SeqRef} {s : State} (h : Keeps s0 s) : Runs s0 (execSequencerRestart m q s) := by
  unfold execSequencerRestart
  repeat' first
    | with_reducible assumption
    | (extract_lets +onlyGivenNames x; first | (refine Keeps.letS (a := x) ?_ fun hx => ?_; rotate_left; clear_value x; revert x; rotate_left; unfold x; clear x) | (try unfold x; clear x))
    | intro _ _
    | with_reducible refine Runs.next ?_
    | with_reducible refine regWrite_keeps (fun _ hy => ?_) ?_
    | with_reducible refine fRestart_keeps ?_
    | with_reducible refine syncSw_keeps ?_
    | with_reducible refine fset_keeps ?_
    | with_reducible refine zRestart_keeps ?_
    | with_reducible refine Keeps.ite ?_ ?_
    | split

theorem setEE_keeps {s0 : State} {dw11 : Word} {s : State} {x1 cid : Nat} (h : Keeps s0 s) : Keeps s0 (setEE dw11 s x1 cid) := by
  unfold setEE
  repeat' first
    | with_reducible assumption
    | (extract_lets +onlyGivenNames x; first | (refine Keeps.letS (a := x) ?_ fun hx => ?_; rotate_left; clear_value x; revert x; rotate_left; unfold x; clear x) | (try unfold x; clear x))
    | intro _ _
    | with_reducible refine claimHeld_keeps ?_
    | with_reducible refine invalidField_keeps ?_
    | with_reducible refine sequenceError_keeps ?_
    | with_reducible refine setForce_keeps ?_
    | with_reducible refine fset_keeps ?_
    | with_reducible refine adminOk_keeps ?_
    | with_reducible refine setPwr_keeps ?_
    | with_reducible refine modeCmdDone_keeps ?_
    | with_reducible refine Keeps.ite ?_ ?_

theorem execMemLoad_runs {s0 : State} {q : SeqRef} {s : State} (h : Keeps s0 s) : Runs s0 (execMemLoad q s) := by
  unfold execMemLoad
  repeat' first
    | with_reducible assumption
    | with_reducible refine Runs.next ?_
    | with_reducible refine drawn_keeps ?_
    | with_reducible refine fRun_keeps (fun _ => ?_) ?_
    | with_reducible refine fNext_keeps ?_
    | with_reducible refine setFseq_keeps ?_
    | with_reducible refine zRun_keeps (fun _ _ _ hy => ?_) ?_
    | with_reducible refine zNext_keeps ?_
    | with_reducible refine setThread_keeps ?_
    | split

theorem execMemStore_runs {s0 : State} {q : SeqRef} {s : State} (h : Keeps s0 s) : Runs s0 (execMemStore q s) := by
  unfold execMemStore
  repeat' first
    | with_reducible assumption
    | (extract_lets +onlyGivenNames x; first | (refine Keeps.letS (a := x) ?_ fun hx => ?_; rotate_left; clear_value x; revert x; rotate_left; unfold x; clear x) | (try unfold x; clear x))
    | with_reducible refine Runs.next ?_
    | with_reducible refine fRun_keeps (fun _ => ?_) ?_
    | with_reducible refine fNext_keeps ?_
    | with_reducible refine setFseq_keeps ?_
    | with_reducible refine zRun_keeps (fun _ _ _ hy => ?_) ?_
    | with_reducible refine zNext_keeps ?_
    | with_reducible refine setThread_keeps ?_
    | split

theorem mirrorDesc_keeps {s0 s : State} {n z : Nat} {r : ZoneRec} (h : Keeps s0 s) : Keeps s0 (mirrorDesc s n z r) := by
  unfold mirrorDesc
  exact Keeps.ite (takeCtxD_keeps (putZone_keeps h) (putZone_keeps h)) (dropCtx_keeps (putZone_keeps h))

theorem mirrorFrame_keeps {s0 s : State} {f : MirrorFrame} (h : Keeps s0 s) : Keeps s0 (mirrorFrame s f) := by
  unfold mirrorFrame
  repeat' first
    | with_reducible assumption
    | (extract_lets +onlyGivenNames x; first | (refine Keeps.letS (a := x) ?_ fun hx => ?_; rotate_left; clear_value x; revert x; rotate_left; unfold x; clear x) | (try unfold x; clear x))
    | intro _ _
    | with_reducible refine Keeps.forAll ?_ fun _ _ hy => ?_
    | with_reducible refine putLba_keeps ?_
    | with_reducible refine dropBad_keeps ?_
    | with_reducible refine addPoison_keeps ?_
    | with_reducible refine emit_keeps ?_
    | with_reducible refine syncDirty_keeps ?_
    | with_reducible refine setZmp_keeps ?_
    | with_reducible refine mirrorDesc_keeps ?_
    | with_reducible refine setPrt_keeps (fun _ => rfl) ?_
    | with_reducible refine releaseDirty_keeps ?_
    | split

theorem execMirrorStreamReceive_runs {s0 : State} {f : MirrorFrame} {s : State} (h : Keeps s0 s) : Runs s0 (execMirrorStreamReceive f s) := by
  unfold execMirrorStreamReceive
  repeat' first
    | with_reducible assumption
    | with_reducible refine Runs.next ?_
    | with_reducible refine mirrorFrame_keeps ?_
    | with_reducible refine Keeps.ite ?_ ?_

theorem execModeChoiceWindow_runs {s0 s : State} (h : Keeps s0 s) : Runs s0 (execModeChoiceWindow s) := by
  unfold execModeChoiceWindow
  repeat' first
    | with_reducible assumption
    | (extract_lets +onlyGivenNames x; first | (refine Keeps.letS (a := x) ?_ fun hx => ?_; rotate_left; clear_value x; revert x; rotate_left; unfold x; clear x) | (try unfold x; clear x))
    | with_reducible refine Runs.next ?_
    | with_reducible refine applyRule_keeps ?_
    | with_reducible refine setPwr_keeps ?_
    | with_reducible refine Keeps.ite ?_ ?_

theorem execModeForceWrite_runs {s0 : State} {m : Master} {v : BitVec 4} {s : State} (h : Keeps s0 s) : Runs s0 (execModeForceWrite m v s) := by
  unfold execModeForceWrite
  repeat' first
    | with_reducible assumption
    | with_reducible refine Runs.next ?_
    | with_reducible refine regWrite_keeps (fun _ hy => ?_) ?_
    | with_reducible refine setForce_keeps ?_
    | with_reducible refine Keeps.ite ?_ ?_

theorem execNop_runs {s0 : State} {q : SeqRef} {s : State} (h : Keeps s0 s) : Runs s0 (execNop q s) := by
  unfold execNop
  repeat' first
    | with_reducible assumption
    | with_reducible refine Runs.next ?_
    | with_reducible refine regWord_keeps ?_

theorem execOutUnlistedPort_runs {s0 : State} {q : SeqRef} {s : State} (h : Keeps s0 s) : Runs s0 (execOutUnlistedPort q s) := by
  unfold execOutUnlistedPort
  repeat' first
    | with_reducible assumption
    | (extract_lets +onlyGivenNames x; first | (refine Keeps.letS (a := x) ?_ fun hx => ?_; rotate_left; clear_value x; revert x; rotate_left; unfold x; clear x) | (try unfold x; clear x))
    | with_reducible refine Runs.next ?_
    | with_reducible refine regWord_keeps ?_

theorem execOwnershipConflict_runs {s0 s : State} (h : Keeps s0 s) : Runs s0 (execOwnershipConflict s) := by
  unfold execOwnershipConflict
  repeat' first
    | with_reducible assumption
    | (extract_lets +onlyGivenNames x; first | (refine Keeps.letS (a := x) ?_ fun hx => ?_; rotate_left; clear_value x; revert x; rotate_left; unfold x; clear x) | (try unfold x; clear x))
    | with_reducible refine Runs.next ?_
    | with_reducible refine Keeps.forAll ?_ fun _ _ hy => ?_
    | with_reducible refine setPrt_keeps (fun _ => rfl) ?_
    | with_reducible refine tokenCmd_keeps ?_
    | with_reducible refine setRole_keeps ?_
    | with_reducible refine evtSet_keeps ?_
    | with_reducible refine count_keeps ?_
    | with_reducible refine acquireAll_keeps ?_
    | with_reducible refine Keeps.ite ?_ ?_

theorem updateReboot_keeps {s0 s : State} {next : Nat} (h : Keeps s0 s) : Keeps s0 (updateReboot s next) := by
  unfold updateReboot
  repeat' first
    | with_reducible assumption
    | (extract_lets +onlyGivenNames x; first | (refine Keeps.letS (a := x) ?_ fun hx => ?_; rotate_left; clear_value x; revert x; rotate_left; unfold x; clear x) | (try unfold x; clear x))
    | with_reducible refine deviceReset_keeps ?_
    | with_reducible refine setFls_keeps ?_
    | with_reducible refine setPrt_keeps (fun _ => rfl) ?_

theorem updateDone_keeps {s0 s : State} (h : Keeps s0 s) : Keeps s0 (updateDone s) := by
  unfold updateDone
  repeat' first
    | with_reducible assumption
    | (extract_lets +onlyGivenNames x; first | (refine Keeps.letS (a := x) ?_ fun hx => ?_; rotate_left; clear_value x; revert x; rotate_left; unfold x; clear x) | (try unfold x; clear x))
    | with_reducible refine evtSet_keeps ?_
    | with_reducible refine fsetb_keeps ?_
    | with_reducible refine setPrt_keeps (fun _ => rfl) ?_

theorem updateOrigin_keeps {s0 s : State} {n : Nat} {ok : Bool} (h : Keeps s0 s) : Keeps s0 (updateOrigin s n ok) := by
  unfold updateOrigin
  repeat' first
    | with_reducible assumption
    | (extract_lets +onlyGivenNames x; first | (refine Keeps.letS (a := x) ?_ fun hx => ?_; rotate_left; clear_value x; revert x; rotate_left; unfold x; clear x) | (try unfold x; clear x))
    | intro _ _
    | with_reducible refine fsetb_keeps ?_
    | with_reducible refine setPrt_keeps (fun _ => rfl) ?_
    | with_reducible refine emit_keeps ?_
    | with_reducible refine updateFail_keeps ?_
    | with_reducible refine adminOk_keeps ?_
    | with_reducible refine hoTry_keeps ?_
    | with_reducible refine hoResult_keeps ?_
    | with_reducible refine updateReboot_keeps ?_
    | with_reducible refine rootGrade_keeps ?_
    | with_reducible refine updateDone_keeps ?_
    | with_reducible refine Keeps.ite ?_ ?_
    | split

theorem execPairUpdateStep_runs {s0 : State} {ok : Bool} {s : State} (h : Keeps s0 s) : Runs s0 (execPairUpdateStep ok s) := by
  unfold execPairUpdateStep
  repeat' first
    | with_reducible assumption
    | (extract_lets +onlyGivenNames x; first | (refine Keeps.letS (a := x) ?_ fun hx => ?_; rotate_left; clear_value x; revert x; rotate_left; unfold x; clear x) | (try unfold x; clear x))
    | with_reducible refine Runs.next ?_
    | with_reducible refine updateReboot_keeps ?_
    | with_reducible refine updateFail_keeps ?_
    | with_reducible refine updateDone_keeps ?_
    | with_reducible refine updateOrigin_keeps ?_
    | with_reducible refine Keeps.ite ?_ ?_

theorem witnessView_keeps {s0 s : State} (h : Keeps s0 s) : Keeps s0 (witnessView s) := by
  unfold witnessView
  repeat' first
    | with_reducible assumption
    | with_reducible refine fset_keeps ?_
    | split

theorem partnerGone_keeps {s0 s old : State} {failed : Bool} (h : Keeps s0 s) : Keeps s0 (partnerGone s old failed) := by
  unfold partnerGone
  repeat' first
    | with_reducible assumption
    | with_reducible refine partyReset_keeps ?_
    | with_reducible refine Keeps.ite ?_ ?_

theorem judgeEvents_keeps {s0 s : State} {old new : Nat} {peer wit oldPeer oldWit : Bool} (h : Keeps s0 s) : Keeps s0 (judgeEvents s old new peer wit oldPeer oldWit) := by
  unfold judgeEvents
  repeat' first
    | with_reducible assumption
    | with_reducible refine evtSet_keeps ?_
    | with_reducible refine emit_keeps ?_
    | with_reducible refine count_keeps ?_
    | with_reducible refine Keeps.ite ?_ ?_

theorem recoverConv_keeps {s0 s : State} (h : Keeps s0 s) : Keeps s0 (recoverConv s) := by
  unfold recoverConv
  repeat' first
    | with_reducible assumption
    | with_reducible refine Keeps.forAll ?_ fun _ _ hy => ?_
    | with_reducible refine putLba_keeps ?_
    | with_reducible refine drawn_keeps ?_

theorem recoverZone_keeps {s0 s : State} {k : Nat} (h : Keeps s0 s) : Keeps s0 (recoverZone s k) := by
  simp only [recoverZone]
  split
  · exact h
  · rename_i r _
    have c : Keeps s0 (if r.mwp < r.wp then count s (ZMP_CNT 6) 1 .zmp ZMP_EVT_SAT else s) := Keeps.ite (count_keeps h) h
    generalize (if r.mwp < r.wp then count s (ZMP_CNT 6) 1 .zmp ZMP_EVT_SAT else s) = u at c ⊢
    have g := fun a b r f => setZmp_keeps (s0 := s0) (f := f) (putZone_keeps (n := a) (z := b) (r := r) c)
    exact Keeps.ite (lostRange_keeps (Keeps.ite (takeCtxD_keeps (g ..) (g ..)) (g ..))) (Keeps.ite (takeCtxD_keeps (g ..) (g ..)) (g ..))

theorem recoverZones_keeps {s0 s : State} (h : Keeps s0 s) : Keeps s0 (recoverZones s) := by
  simp only [recoverZones]
  refine stagedSync_keeps (setZmp_keeps ?_)
  split
  · refine Keeps.ite (Keeps.forAll (setZmp_keeps h) fun t x ht => ?_) ?_
    · exact Keeps.ite (takeCtxD_keeps ht ht) ht
    · exact recoverConv_keeps (Keeps.forAll h fun _ _ ht => recoverZone_keeps ht)
  · exact recoverConv_keeps (Keeps.forAll h fun _ _ ht => recoverZone_keeps ht)

theorem takeoverDone_keeps {s0 s : State} (h : Keeps s0 s) : Keeps s0 (takeoverDone s) := by
  unfold takeoverDone
  repeat' first
    | with_reducible assumption
    | (extract_lets +onlyGivenNames x; first | (refine Keeps.letS (a := x) ?_ fun hx => ?_; rotate_left; clear_value x; revert x; rotate_left; unfold x; clear x) | (try unfold x; clear x))
    | intro _ _
    | with_reducible refine releaseClaims_keeps ?_
    | with_reducible refine setPrt_keeps (fun _ => rfl) ?_
    | with_reducible refine advanceMwp_keeps ?_
    | with_reducible refine recoverZones_keeps ?_
    | with_reducible refine setZmp_keeps ?_
    | with_reducible refine setRole_keeps ?_
    | with_reducible refine evtSet_keeps ?_
    | with_reducible refine count_keeps ?_
    | with_reducible refine syncVused_keeps ?_
    | with_reducible refine syncAlone_keeps ?_
    | with_reducible refine setMirrorValid_keeps ?_
    | with_reducible refine enterSafe_keeps ?_
    | with_reducible refine mirrorWriters_keeps ?_
    | with_reducible refine Keeps.ite ?_ ?_

theorem takeoverCheck_keeps {s0 s : State} (h : Keeps s0 s) : Keeps s0 (takeoverCheck s) := by
  unfold takeoverCheck
  repeat' first
    | with_reducible assumption
    | with_reducible refine takeoverDone_keeps ?_
    | with_reducible refine Keeps.ite ?_ ?_

theorem startTakeover_keeps {s0 s : State} (h : Keeps s0 s) : Keeps s0 (startTakeover s) := by
  unfold startTakeover
  repeat' first
    | with_reducible assumption
    | (extract_lets +onlyGivenNames x; first | (refine Keeps.letS (a := x) ?_ fun hx => ?_; rotate_left; clear_value x; revert x; rotate_left; unfold x; clear x) | (try unfold x; clear x))
    | with_reducible refine takeoverCheck_keeps ?_
    | with_reducible refine acquireAll_keeps ?_
    | with_reducible refine setPrt_keeps (fun _ => rfl) ?_
    | with_reducible refine Keeps.ite ?_ ?_

theorem judgeHandover_keeps {s0 s : State} {new : Nat} {peer : Bool} (h : Keeps s0 s) : Keeps s0 (judgeHandover s new peer) := by
  unfold judgeHandover
  repeat' first
    | with_reducible assumption
    | (extract_lets +onlyGivenNames x; first | (refine Keeps.letS (a := x) ?_ fun hx => ?_; rotate_left; clear_value x; revert x; rotate_left; unfold x; clear x) | (try unfold x; clear x))
    | with_reducible refine handoverFail_keeps ?_
    | with_reducible refine startTakeover_keeps ?_
    | with_reducible refine setRole_keeps ?_
    | with_reducible refine hoPhase_keeps ?_
    | with_reducible refine Keeps.ite ?_ ?_

theorem judgeMirror_keeps {s0 s : State} {op peer : Bool} {new : Nat} (h : Keeps s0 s) : Keeps s0 (judgeMirror s op peer new) := by
  unfold judgeMirror
  repeat' first
    | with_reducible assumption
    | (extract_lets +onlyGivenNames x; first | (refine Keeps.letS (a := x) ?_ fun hx => ?_; rotate_left; clear_value x; revert x; rotate_left; unfold x; clear x) | (try unfold x; clear x))
    | with_reducible refine mirrorLost_keeps ?_
    | with_reducible refine syncDirty_keeps ?_
    | with_reducible refine setZmp_keeps ?_
    | with_reducible refine Keeps.ite ?_ ?_

theorem judged_keeps {s0 s : State} (h : Keeps s0 s) : Keeps s0 (judged s) := by
  unfold judged
  repeat' first
    | with_reducible assumption
    | (extract_lets +onlyGivenNames x; first | (refine Keeps.letS (a := x) ?_ fun hx => ?_; rotate_left; clear_value x; revert x; rotate_left; unfold x; clear x) | (try unfold x; clear x))
    | intro _ _
    | with_reducible refine fadd_keeps ?_
    | with_reducible refine fsetb_keeps ?_
    | with_reducible refine fset_keeps ?_
    | with_reducible refine witnessView_keeps ?_
    | with_reducible refine partnerGone_keeps ?_
    | with_reducible refine judgeEvents_keeps ?_
    | with_reducible refine hoTry_keeps ?_
    | with_reducible refine judgeHandover_keeps ?_
    | with_reducible refine syncAlone_keeps ?_
    | with_reducible refine judgeMirror_keeps ?_
    | with_reducible refine Keeps.ite ?_ ?_

theorem execPartnerJudgement_runs {s0 s : State} (h : Keeps s0 s) : Runs s0 (execPartnerJudgement s) := by
  unfold execPartnerJudgement
  repeat' first
    | with_reducible assumption
    | with_reducible refine Runs.next ?_
    | with_reducible refine judged_keeps ?_
    | with_reducible refine startTakeover_keeps ?_
    | with_reducible refine Keeps.ite ?_ ?_

theorem followHandover_keeps {s0 s : State} (h : Keeps s0 s) : Keeps s0 (followHandover s) := by
  unfold followHandover
  repeat' first
    | with_reducible assumption
    | with_reducible refine hoPhase_keeps ?_
    | with_reducible refine hoResult_keeps ?_
    | with_reducible refine setRole_keeps ?_
    | with_reducible refine Keeps.ite ?_ ?_

theorem execPeerHeartbeatReceive_runs {s0 : State} {role : BitVec 4} {health : BitVec 8} {s : State} (h : Keeps s0 s) : Runs s0 (execPeerHeartbeatReceive role health s) := by
  unfold execPeerHeartbeatReceive
  repeat' first
    | with_reducible assumption
    | (extract_lets +onlyGivenNames x; first | (refine Keeps.letS (a := x) ?_ fun hx => ?_; rotate_left; clear_value x; revert x; rotate_left; unfold x; clear x) | (try unfold x; clear x))
    | with_reducible refine Runs.next ?_
    | with_reducible refine fset_keeps ?_
    | with_reducible refine setPrt_keeps (fun _ => rfl) ?_
    | with_reducible refine mirrorLost_keeps ?_
    | with_reducible refine followHandover_keeps ?_
    | with_reducible refine partnerGone_keeps ?_
    | with_reducible refine Keeps.ite ?_ ?_

theorem execPeerHeartbeatSend_runs {s0 s : State} (h : Keeps s0 s) : Runs s0 (execPeerHeartbeatSend s) := by
  unfold execPeerHeartbeatSend
  repeat' first
    | with_reducible assumption
    | (extract_lets +onlyGivenNames x; first | (refine Keeps.letS (a := x) ?_ fun hx => ?_; rotate_left; clear_value x; revert x; rotate_left; unfold x; clear x) | (try unfold x; clear x))
    | with_reducible refine Runs.next ?_
    | with_reducible refine emit_keeps ?_
    | with_reducible refine setPrt_keeps (fun _ => rfl) ?_
    | with_reducible refine Keeps.ite ?_ ?_

theorem execPeerImageServe_runs {s0 s : State} (h : Keeps s0 s) : Runs s0 (execPeerImageServe s) := by
  unfold execPeerImageServe
  repeat' first
    | with_reducible assumption
    | with_reducible refine Runs.next ?_
    | with_reducible refine emit_keeps ?_
    | with_reducible refine Keeps.ite ?_ ?_
    | split

theorem execPllLock_runs {s0 : State} {k : Fin 17} {s : State} (h : Keeps s0 s) : Runs s0 (execPllLock k s) := by
  unfold execPllLock
  repeat' first
    | with_reducible assumption
    | with_reducible refine Runs.next ?_
    | with_reducible refine fsetb_keeps ?_
    | with_reducible refine wbit_keeps ?_
    | with_reducible refine Keeps.ite ?_ ?_

theorem execPllUnlock_runs {s0 : State} {k : Fin 17} {s : State} (h : Keeps s0 s) : Runs s0 (execPllUnlock k s) := by
  unfold execPllUnlock
  repeat' first
    | with_reducible assumption
    | (extract_lets +onlyGivenNames x; first | (refine Keeps.letS (a := x) ?_ fun hx => ?_; rotate_left; clear_value x; revert x; rotate_left; unfold x; clear x) | (try unfold x; clear x))
    | with_reducible refine Runs.next ?_
    | with_reducible refine deviceReset_keeps ?_
    | with_reducible refine evtSet_keeps ?_
    | with_reducible refine wbit_keeps ?_
    | with_reducible refine surpriseDown_keeps ?_
    | with_reducible refine Keeps.forAll ?_ fun _ _ hy => ?_
    | with_reducible refine portRetrain_keeps ?_
    | with_reducible refine fset_keeps ?_
    | with_reducible refine mirrorLost_keeps ?_
    | with_reducible refine fsetb_keeps ?_
    | with_reducible refine Keeps.ite ?_ ?_

theorem zOut_keeps {s0 s : State} {z port : Nat} {g : State → Nat → Nat → State} (hf : ∀ t a b, Keeps s0 t → Keeps s0 (g t a b)) (h : Keeps s0 s) : Keeps s0 (zOut s z port g) := by
  unfold zOut
  split
  · exact h
  · exact zRun_keeps (fun _ _ _ ht => zNext_keeps (hf _ _ _ ht)) h

theorem request_keeps {s0 s : State} {z t1 port v : Nat} {pend : Cmd → Bool} {g : State → Cmd → State} (hf : ∀ y0 y1, Keeps s0 y0 → Keeps s0 (g y0 y1)) (h : Keeps s0 s) : Keeps s0 (request s z t1 port v pend g) := by
  unfold request
  repeat' first
    | with_reducible assumption
    | (extract_lets +onlyGivenNames x; first | (refine Keeps.letS (a := x) ?_ fun hx => ?_; rotate_left; clear_value x; revert x; rotate_left; unfold x; clear x) | (try unfold x; clear x))
    | with_reducible refine setThread_keeps ?_
    | with_reducible refine hf _ _ ?_
    | with_reducible refine Keeps.ite ?_ ?_
    | split

theorem execPortAdmit_runs {s0 : State} {z : Fin 8} {s : State} (h : Keeps s0 s) : Runs s0 (execPortAdmit z s) := by
  unfold execPortAdmit
  repeat' first
    | with_reducible assumption
    | with_reducible refine Runs.next ?_
    | with_reducible refine zOut_keeps (fun _ _ _ hy => ?_) ?_
    | with_reducible refine request_keeps (fun _ _ hy => ?_) ?_

theorem fOut_keeps {s0 s : State} {f port : Nat} {g : State → Nat → State} (hf : ∀ y0 y1, Keeps s0 y0 → Keeps s0 (g y0 y1)) (h : Keeps s0 s) : Keeps s0 (fOut s f port g) := by
  unfold fOut
  repeat' first
    | with_reducible assumption
    | (extract_lets +onlyGivenNames x; first | (refine Keeps.letS (a := x) ?_ fun hx => ?_; rotate_left; clear_value x; revert x; rotate_left; unfold x; clear x) | (try unfold x; clear x))
    | with_reducible refine fRun_keeps (fun _ => ?_) ?_
    | with_reducible refine fNext_keeps ?_
    | with_reducible refine hf _ _ ?_

theorem execPortCnt0_runs {s0 : State} {f : Fin 64} {s : State} (h : Keeps s0 s) : Runs s0 (execPortCnt0 f s) := by
  unfold execPortCnt0
  repeat' first
    | with_reducible assumption
    | (extract_lets +onlyGivenNames x; first | (refine Keeps.letS (a := x) ?_ fun hx => ?_; rotate_left; clear_value x; revert x; rotate_left; unfold x; clear x) | (try unfold x; clear x))
    | with_reducible refine Runs.next ?_
    | with_reducible refine fOut_keeps (fun _ _ hy => ?_) ?_
    | with_reducible refine setFseq_keeps ?_

theorem execPortCnt1_runs {s0 : State} {f : Fin 64} {s : State} (h : Keeps s0 s) : Runs s0 (execPortCnt1 f s) := by
  unfold execPortCnt1
  repeat' first
    | with_reducible assumption
    | (extract_lets +onlyGivenNames x; first | (refine Keeps.letS (a := x) ?_ fun hx => ?_; rotate_left; clear_value x; revert x; rotate_left; unfold x; clear x) | (try unfold x; clear x))
    | with_reducible refine Runs.next ?_
    | with_reducible refine fOut_keeps (fun _ _ hy => ?_) ?_
    | with_reducible refine setFseq_keeps ?_

theorem execPortCommit_runs {s0 : State} {z : Fin 8} {s : State} (h : Keeps s0 s) : Runs s0 (execPortCommit z s) := by
  unfold execPortCommit
  repeat' first
    | with_reducible assumption
    | with_reducible refine Runs.next ?_
    | with_reducible refine zOut_keeps (fun _ _ _ hy => ?_) ?_
    | with_reducible refine request_keeps (fun _ _ hy => ?_) ?_
    | with_reducible refine failCmd_keeps ?_
    | with_reducible refine Keeps.ite ?_ ?_

theorem execPortEncode_runs {s0 : State} {z : Fin 8} {t1 : Fin 4} {s : State} (h : Keeps s0 s) : Runs s0 (execPortEncode z t1 s) := by
  unfold execPortEncode
  repeat' first
    | with_reducible assumption
    | with_reducible refine Runs.next ?_
    | with_reducible refine zOut_keeps (fun _ _ _ hy => ?_) ?_
    | with_reducible refine count_keeps ?_
    | with_reducible refine encodeRow_keeps ?_
    | with_reducible refine Keeps.ite ?_ ?_
    | split

theorem execPortJournal_runs {s0 : State} {z : Fin 8} {s : State} (h : Keeps s0 s) : Runs s0 (execPortJournal z s) := by
  unfold execPortJournal
  repeat' first
    | with_reducible assumption
    | (extract_lets +onlyGivenNames x; first | (refine Keeps.letS (a := x) ?_ fun hx => ?_; rotate_left; clear_value x; revert x; rotate_left; unfold x; clear x) | (try unfold x; clear x))
    | with_reducible refine Runs.next ?_
    | with_reducible refine zOut_keeps (fun _ _ _ hy => ?_) ?_
    | with_reducible refine request_keeps (fun _ _ hy => ?_) ?_
    | with_reducible refine journalZone_keeps ?_

theorem execPortLanes_runs {s0 : State} {f : Fin 64} {s : State} (h : Keeps s0 s) : Runs s0 (execPortLanes f s) := by
  unfold execPortLanes
  repeat' first
    | with_reducible assumption
    | (extract_lets +onlyGivenNames x; first | (refine Keeps.letS (a := x) ?_ fun hx => ?_; rotate_left; clear_value x; revert x; rotate_left; unfold x; clear x) | (try unfold x; clear x))
    | with_reducible refine Runs.next ?_
    | with_reducible refine fOut_keeps (fun _ _ hy => ?_) ?_
    | with_reducible refine setFseq_keeps ?_

theorem execPortMirror_runs {s0 : State} {z : Fin 8} {s : State} (h : Keeps s0 s) : Runs s0 (execPortMirror z s) := by
  unfold execPortMirror
  repeat' first
    | with_reducible assumption
    | with_reducible refine Runs.next ?_
    | with_reducible refine zOut_keeps (fun _ _ _ hy => ?_) ?_
    | with_reducible refine request_keeps (fun _ _ hy => ?_) ?_
    | with_reducible refine mirror_keeps ?_
    | with_reducible refine Keeps.ite ?_ ?_

theorem execPortPrecomp_runs {s0 : State} {f : Fin 64} {s : State} (h : Keeps s0 s) : Runs s0 (execPortPrecomp f s) := by
  unfold execPortPrecomp
  repeat' first
    | with_reducible assumption
    | with_reducible refine Runs.next ?_
    | with_reducible refine fOut_keeps (fun _ _ hy => ?_) ?_
    | with_reducible refine Keeps.forAll ?_ fun _ _ hy => ?_
    | with_reducible refine sendCmd_keeps ?_

theorem execPortRdwin_runs {s0 : State} {f : Fin 64} {s : State} (h : Keeps s0 s) : Runs s0 (execPortRdwin f s) := by
  unfold execPortRdwin
  repeat' first
    | with_reducible assumption
    | (extract_lets +onlyGivenNames x; first | (refine Keeps.letS (a := x) ?_ fun hx => ?_; rotate_left; clear_value x; revert x; rotate_left; unfold x; clear x) | (try unfold x; clear x))
    | with_reducible refine Runs.next ?_
    | with_reducible refine fOut_keeps (fun _ _ hy => ?_) ?_
    | with_reducible refine setFseq_keeps ?_

theorem execPortRung_runs {s0 : State} {f : Fin 64} {s : State} (h : Keeps s0 s) : Runs s0 (execPortRung f s) := by
  unfold execPortRung
  repeat' first
    | with_reducible assumption
    | (extract_lets +onlyGivenNames x; first | (refine Keeps.letS (a := x) ?_ fun hx => ?_; rotate_left; clear_value x; revert x; rotate_left; unfold x; clear x) | (try unfold x; clear x))
    | with_reducible refine Runs.next ?_
    | with_reducible refine fOut_keeps (fun _ _ hy => ?_) ?_
    | with_reducible refine settleDet_keeps ?_
    | with_reducible refine ladderGo_keeps ?_
    | with_reducible refine Keeps.ite ?_ ?_
    | split

theorem execPortStatus_runs {s0 : State} {f : Fin 64} {s : State} (h : Keeps s0 s) : Runs s0 (execPortStatus f s) := by
  unfold execPortStatus
  repeat' first
    | with_reducible assumption
    | (extract_lets +onlyGivenNames x; first | (refine Keeps.letS (a := x) ?_ fun hx => ?_; rotate_left; clear_value x; revert x; rotate_left; unfold x; clear x) | (try unfold x; clear x))
    | with_reducible refine Runs.next ?_
    | with_reducible refine fOut_keeps (fun _ _ hy => ?_) ?_
    | with_reducible refine writeStatus_keeps ?_
    | with_reducible refine endSector_keeps ?_
    | with_reducible refine Keeps.ite ?_ ?_
    | split

theorem execPortTimer_runs {s0 : State} {z : Fin 8} {s : State} (h : Keeps s0 s) : Runs s0 (execPortTimer z s) := by
  unfold execPortTimer
  repeat' first
    | with_reducible assumption
    | (extract_lets +onlyGivenNames x; first | (refine Keeps.letS (a := x) ?_ fun hx => ?_; rotate_left; clear_value x; revert x; rotate_left; unfold x; clear x) | (try unfold x; clear x))
    | with_reducible refine Runs.next ?_
    | with_reducible refine zOut_keeps (fun _ _ _ hy => ?_) ?_
    | with_reducible refine setThread_keeps ?_

theorem fillEncoded_keeps {s0 s : State} {w : SecWork} {info : List Nat} (h : Keeps s0 s) : Keeps s0 (fillEncoded s w info) := by
  unfold fillEncoded
  repeat' first
    | with_reducible assumption
    | (extract_lets +onlyGivenNames x; first | (refine Keeps.letS (a := x) ?_ fun hx => ?_; rotate_left; clear_value x; revert x; rotate_left; unfold x; clear x) | (try unfold x; clear x))
    | with_reducible refine useAcc_keeps ?_
    | with_reducible refine Keeps.ite ?_ ?_
    | split

theorem paritySent_keeps {s0 s : State} {w : SecWork} (h : Keeps s0 s) : Keeps s0 (paritySent s w) := by
  unfold paritySent
  repeat' first
    | with_reducible assumption
    | (extract_lets +onlyGivenNames x; first | (refine Keeps.letS (a := x) ?_ fun hx => ?_; rotate_left; clear_value x; revert x; rotate_left; unfold x; clear x) | (try unfold x; clear x))
    | with_reducible refine freeAcc_keeps ?_
    | with_reducible refine setZmp_keeps ?_
    | with_reducible refine Keeps.ite ?_ ?_
    | split

theorem sectorSent_keeps {s0 s : State} {a : Nat} {w : SecWork} {info : List Nat} (h : Keeps s0 s) : Keeps s0 (sectorSent s a w info) := by
  unfold sectorSent
  repeat' first
    | with_reducible assumption
    | (extract_lets +onlyGivenNames x; first | (refine Keeps.letS (a := x) ?_ fun hx => ?_; rotate_left; clear_value x; revert x; rotate_left; unfold x; clear x) | (try unfold x; clear x))
    | with_reducible refine addTrack_keeps ?_
    | with_reducible refine fillEncoded_keeps ?_
    | with_reducible refine paritySent_keeps ?_
    | with_reducible refine setDet_keeps ?_
    | with_reducible refine Keeps.ite ?_ ?_

theorem wantFlit_keeps {s0 s : State} {a pos l : Nat} (h : Keeps s0 s) : Keeps s0 (wantFlit s a pos l) := by
  unfold wantFlit
  repeat' first
    | with_reducible assumption
    | (extract_lets +onlyGivenNames x; first | (refine Keeps.letS (a := x) ?_ fun hx => ?_; rotate_left; clear_value x; revert x; rotate_left; unfold x; clear x) | (try unfold x; clear x))
    | intro _ _
    | with_reducible refine setFseq_keeps ?_
    | with_reducible refine sectorSent_keeps ?_
    | with_reducible refine Keeps.ite ?_ ?_
    | split

theorem execPortWflit_runs {s0 : State} {f : Fin 64} {s : State} (h : Keeps s0 s) : Runs s0 (execPortWflit f s) := by
  unfold execPortWflit
  repeat' first
    | with_reducible assumption
    | (extract_lets +onlyGivenNames x; first | (refine Keeps.letS (a := x) ?_ fun hx => ?_; rotate_left; clear_value x; revert x; rotate_left; unfold x; clear x) | (try unfold x; clear x))
    | intro _ _
    | with_reducible refine Runs.next ?_
    | with_reducible refine fOut_keeps (fun _ _ hy => ?_) ?_
    | with_reducible refine flushFlits_keeps ?_
    | with_reducible refine Keeps.forAll ?_ fun _ _ hy => ?_
    | with_reducible refine wantFlit_keeps ?_
    | with_reducible refine Keeps.ite ?_ ?_

theorem execPortWgate_runs {s0 : State} {f : Fin 64} {s : State} (h : Keeps s0 s) : Runs s0 (execPortWgate f s) := by
  unfold execPortWgate
  repeat' first
    | with_reducible assumption
    | (extract_lets +onlyGivenNames x; first | (refine Keeps.letS (a := x) ?_ fun hx => ?_; rotate_left; clear_value x; revert x; rotate_left; unfold x; clear x) | (try unfold x; clear x))
    | with_reducible refine Runs.next ?_
    | with_reducible refine fOut_keeps (fun _ _ hy => ?_) ?_
    | with_reducible refine setFseq_keeps ?_

theorem execPortXfer_runs {s0 : State} {z : Fin 8} {s : State} (h : Keeps s0 s) : Runs s0 (execPortXfer z s) := by
  unfold execPortXfer
  repeat' first
    | with_reducible assumption
    | with_reducible refine Runs.next ?_
    | with_reducible refine zOut_keeps (fun _ _ _ hy => ?_) ?_
    | with_reducible refine request_keeps (fun _ _ hy => ?_) ?_

theorem sleepAll_keeps {s0 s : State} (h : Keeps s0 s) : Keeps s0 (sleepAll s) := by
  unfold sleepAll
  repeat' first
    | with_reducible assumption
    | (extract_lets +onlyGivenNames x; first | (refine Keeps.letS (a := x) ?_ fun hx => ?_; rotate_left; clear_value x; revert x; rotate_left; unfold x; clear x) | (try unfold x; clear x))
    | intro _ _
    | with_reducible refine setPwr_keeps ?_
    | with_reducible refine Keeps.forAll ?_ fun _ _ hy => ?_
    | with_reducible refine setAux_keeps ?_
    | with_reducible refine setSpn_keeps ?_
    | with_reducible refine moveSurfs_keeps ?_
    | with_reducible refine askStop_keeps ?_
    | with_reducible refine fset_keeps ?_
    | split
    | with_reducible refine Keeps.upd ?_ rfl rfl rfl

theorem psEnter_keeps {s0 s : State} (h : Keeps s0 s) : Keeps s0 (psEnter s) := by
  unfold psEnter
  repeat' first
    | with_reducible assumption
    | (extract_lets +onlyGivenNames x; first | (refine Keeps.letS (a := x) ?_ fun hx => ?_; rotate_left; clear_value x; revert x; rotate_left; unfold x; clear x) | (try unfold x; clear x))
    | intro _ _
    | with_reducible refine sleepAll_keeps ?_
    | with_reducible refine envTrim_keeps ?_
    | with_reducible refine phySync_keeps ?_
    | with_reducible refine setPs_keeps ?_
    | with_reducible refine applyRule_keeps ?_
    | with_reducible refine psUpdate_keeps ?_
    | with_reducible refine prepareWatch_keeps ?_
    | with_reducible refine fset_keeps ?_
    | with_reducible refine Keeps.ite ?_ ?_
    | split
    | with_reducible refine Keeps.upd ?_ rfl rfl rfl

theorem execPowerStateEntryDone_runs {s0 : State} {partnerUp : Bool} {s : State} (h : Keeps s0 s) : Runs s0 (execPowerStateEntryDone partnerUp s) := by
  unfold execPowerStateEntryDone
  repeat' first
    | with_reducible assumption
    | (extract_lets +onlyGivenNames x; first | (refine Keeps.letS (a := x) ?_ fun hx => ?_; rotate_left; clear_value x; revert x; rotate_left; unfold x; clear x) | (try unfold x; clear x))
    | with_reducible refine Runs.next ?_
    | with_reducible refine hoRequest_keeps ?_
    | with_reducible refine Keeps.forAll ?_ fun _ _ hy => ?_
    | with_reducible refine destage_keeps ?_
    | with_reducible refine psEnter_keeps ?_
    | with_reducible refine Keeps.ite ?_ ?_

theorem execPwrMeasRead_runs {s0 : State} {m : Master} {s : State} (h : Keeps s0 s) : Runs s0 (execPwrMeasRead m s) := by
  unfold execPwrMeasRead
  repeat' first
    | with_reducible assumption
    | with_reducible refine Runs.next ?_
    | with_reducible refine regRead_keeps ?_

theorem relayDrop_keeps {s0 s : State} (h : Keeps s0 s) : Keeps s0 (relayDrop s) := by
  unfold relayDrop
  repeat' first
    | with_reducible assumption
    | with_reducible refine evtSet_keeps ?_
    | with_reducible refine count_keeps ?_

theorem relayIn_keeps {s0 s : State} {f : RelayFrame} (h : Keeps s0 s) : Keeps s0 (relayIn s f) := by
  unfold relayIn
  repeat' first
    | with_reducible assumption
    | (extract_lets +onlyGivenNames x; first | (refine Keeps.letS (a := x) ?_ fun hx => ?_; rotate_left; clear_value x; revert x; rotate_left; unfold x; clear x) | (try unfold x; clear x))
    | intro _ _
    | with_reducible refine fsetb_keeps ?_
    | with_reducible refine fset_keeps ?_
    | with_reducible refine setPrt_keeps (fun _ => rfl) ?_
    | split

theorem relayTake_keeps {s0 s : State} {f : RelayFrame} {kind : Nat} {g : State → State} (hf : ∀ y0, Keeps s0 y0 → Keeps s0 (g y0)) (h : Keeps s0 s) : Keeps s0 (relayTake s f kind g) := by
  unfold relayTake
  repeat' first
    | with_reducible assumption
    | with_reducible refine relayDrop_keeps ?_
    | with_reducible refine relayIn_keeps ?_
    | with_reducible refine hf _ ?_
    | with_reducible refine Keeps.ite ?_ ?_

theorem relayForward_keeps {s0 s : State} {f : RelayFrame} (h : Keeps s0 s) : Keeps s0 (relayForward s f) := by
  unfold relayForward
  repeat' first
    | with_reducible assumption
    | with_reducible refine count_keeps ?_
    | with_reducible refine relaySend_keeps ?_
    | with_reducible refine Keeps.ite ?_ ?_

theorem execRelayChunk_runs {s0 : State} {f : RelayFrame} {s : State} (h : Keeps s0 s) : Runs s0 (execRelayChunk f s) := by
  unfold execRelayChunk
  repeat' first
    | with_reducible assumption
    | (extract_lets +onlyGivenNames x; first | (refine Keeps.letS (a := x) ?_ fun hx => ?_; rotate_left; clear_value x; revert x; rotate_left; unfold x; clear x) | (try unfold x; clear x))
    | with_reducible refine Runs.next ?_
    | with_reducible refine relayTake_keeps (fun _ hy => ?_) ?_
    | with_reducible refine relayForward_keeps ?_
    | with_reducible refine setPrt_keeps (fun _ => rfl) ?_
    | with_reducible refine Keeps.ite ?_ ?_

theorem relayStore_keeps {s0 s : State} {img len : Nat} (h : Keeps s0 s) : Keeps s0 (relayStore s img len).1 := by
  simp only [relayStore]
  split
  · exact h
  · split
    · exact h
    · split
      · exact h
      · split
        · exact h
        · split
          · refine setPrt_keeps (f := fun x => { x with relay := tabDel x.relay img }) (fun _ => rfl) ?_
            exact storeImage_keeps h
          · exact storeImage_keeps h

theorem execRelayEnd_runs {s0 : State} {f : RelayFrame} {s : State} (h : Keeps s0 s) : Runs s0 (execRelayEnd f s) := by
  unfold execRelayEnd
  repeat' first
    | with_reducible assumption
    | (extract_lets +onlyGivenNames x; first | (refine Keeps.letS (a := x) ?_ fun hx => ?_; rotate_left; clear_value x; revert x; rotate_left; unfold x; clear x) | (try unfold x; clear x))
    | intro _ _
    | with_reducible refine Runs.next ?_
    | with_reducible refine relayTake_keeps (fun _ hy => ?_) ?_
    | with_reducible refine relayStore_keeps ?_
    | with_reducible refine evtSet_keeps ?_
    | with_reducible refine relaySend_keeps ?_
    | with_reducible refine relayForward_keeps ?_
    | with_reducible refine Keeps.ite ?_ ?_

theorem execRelayStatus_runs {s0 s : State} {f : RelayFrame} (h : Keeps s0 s) : Runs s0 (execRelayStatus f s) := by
  unfold execRelayStatus
  refine Runs.next (Keeps.ite h (relayTake_keeps (fun t ht => Keeps.ite ?_ (relayForward_keeps ht)) h))
  exact ⟨ht.pending, ht.out, fun i => ⟨(ht.inv i).regs, (ht.inv i).tails, (ht.inv i).errLog, by
    simp only [setPrt, List.length_take]; omega⟩⟩

theorem resyncCopy_keeps {s0 s : State} (h : Keeps s0 s) : Keeps s0 (resyncCopy s) := by
  unfold resyncCopy
  repeat' first
    | with_reducible assumption
    | (extract_lets +onlyGivenNames x; first | (refine Keeps.letS (a := x) ?_ fun hx => ?_; rotate_left; clear_value x; revert x; rotate_left; unfold x; clear x) | (try unfold x; clear x))
    | intro _ _
    | with_reducible refine Keeps.forAll ?_ fun _ _ hy => ?_
    | with_reducible refine mirror_keeps ?_
    | with_reducible refine mirrorZone_keeps ?_

theorem execResyncDone_runs {s0 s : State} (h : Keeps s0 s) : Runs s0 (execResyncDone s) := by
  unfold execResyncDone
  repeat' first
    | with_reducible assumption
    | (extract_lets +onlyGivenNames x; first | (refine Keeps.letS (a := x) ?_ fun hx => ?_; rotate_left; clear_value x; revert x; rotate_left; unfold x; clear x) | (try unfold x; clear x))
    | with_reducible refine Runs.next ?_
    | with_reducible refine fset_keeps ?_
    | with_reducible refine setMirrorValid_keeps ?_
    | with_reducible refine evtSet_keeps ?_
    | with_reducible refine count_keeps ?_
    | with_reducible refine emitAll_keeps ?_
    | with_reducible refine emit_keeps ?_
    | with_reducible refine ungradeUnit_keeps ?_
    | with_reducible refine resyncCopy_keeps ?_
    | with_reducible refine Keeps.ite ?_ ?_

theorem execRet_runs {s0 : State} {q : SeqRef} {s : State} (h : Keeps s0 s) : Runs s0 (execRet q s) := by
  unfold execRet
  repeat' first
    | with_reducible assumption
    | (extract_lets +onlyGivenNames x; first | (refine Keeps.letS (a := x) ?_ fun hx => ?_; rotate_left; clear_value x; revert x; rotate_left; unfold x; clear x) | (try unfold x; clear x))
    | with_reducible refine Runs.next ?_
    | with_reducible refine fRun_keeps (fun _ => ?_) ?_
    | with_reducible refine fFault_keeps ?_
    | with_reducible refine fNext_keeps ?_
    | with_reducible refine setFseq_keeps ?_
    | with_reducible refine zRun_keeps (fun _ _ _ hy => ?_) ?_
    | with_reducible refine zFault_keeps ?_
    | with_reducible refine zNext_keeps ?_
    | with_reducible refine setThread_keeps ?_
    | split

theorem execRidgeWatchdogExpire_runs {s0 s : State} (h : Keeps s0 s) : Runs s0 (execRidgeWatchdogExpire s) := by
  unfold execRidgeWatchdogExpire
  repeat' first
    | with_reducible assumption
    | with_reducible refine Runs.next ?_
    | with_reducible refine deviceReset_keeps ?_

theorem execRoleHandover_runs {s0 : State} {x1 : HPort} {cid : BitVec 16} {s : State} (h : Keeps s0 s) : Runs s0 (execRoleHandover x1 cid s) := by
  unfold execRoleHandover
  repeat' first
    | with_reducible assumption
    | with_reducible refine Runs.next ?_
    | with_reducible refine adminCmd_keeps (fun _ hy => ?_) ?_
    | with_reducible refine claimHeld_keeps ?_
    | with_reducible refine hoRequest_keeps ?_
    | with_reducible refine Keeps.ite ?_ ?_

theorem restoreCredits_keeps {s0 s : State} (h : Keeps s0 s) : Keeps s0 (restoreCredits s) := by
  unfold restoreCredits
  repeat' first
    | with_reducible assumption
    | (extract_lets +onlyGivenNames x; first | (refine Keeps.letS (a := x) ?_ fun hx => ?_; rotate_left; clear_value x; revert x; rotate_left; unfold x; clear x) | (try unfold x; clear x))
    | intro _ _
    | with_reducible refine setBgw_keeps ?_
    | with_reducible refine Keeps.forAll ?_ fun _ _ hy => ?_
    | with_reducible refine taskSync_keeps ?_
    | with_reducible refine setCredit_keeps ?_
    | with_reducible refine evtSet_keeps ?_
    | with_reducible refine Keeps.ite ?_ ?_
    | split

theorem routeSources_keeps {s0 s : State} (h : Keeps s0 s) : Keeps s0 (routeSources s) := by
  unfold routeSources
  repeat' first
    | with_reducible assumption
    | with_reducible refine Keeps.forAll ?_ fun _ _ hy => ?_
    | with_reducible refine wbit_keeps ?_
    | with_reducible refine Keeps.ite ?_ ?_

theorem roleSettled_keeps {s0 s : State} {r : Nat} (h : Keeps s0 s) : Keeps s0 (roleSettled s r) := by
  unfold roleSettled
  repeat' first
    | with_reducible assumption
    | (extract_lets +onlyGivenNames x; first | (refine Keeps.letS (a := x) ?_ fun hx => ?_; rotate_left; clear_value x; revert x; rotate_left; unfold x; clear x) | (try unfold x; clear x))
    | intro _ _
    | with_reducible refine restoreCredits_keeps ?_
    | with_reducible refine routeSources_keeps ?_
    | with_reducible refine bindMailboxes_keeps ?_
    | with_reducible refine recoverZones_keeps ?_
    | with_reducible refine setZmp_keeps ?_
    | with_reducible refine setFls_keeps ?_
    | with_reducible refine setPwr_keeps ?_
    | with_reducible refine wr_keeps ?_
    | with_reducible refine raiseReady_keeps ?_
    | with_reducible refine syncAlone_keeps ?_
    | with_reducible refine takeRole_keeps ?_
    | with_reducible refine Keeps.forAll ?_ fun _ _ hy => ?_
    | with_reducible refine wantToken_keeps ?_
    | with_reducible refine phySync_keeps ?_
    | with_reducible refine syncEnv_keeps ?_
    | with_reducible refine psUpdate_keeps ?_
    | with_reducible refine Keeps.ite ?_ ?_

theorem execRoleSettleWindowEnd_runs {s0 s : State} (h : Keeps s0 s) : Runs s0 (execRoleSettleWindowEnd s) := by
  unfold execRoleSettleWindowEnd
  repeat' first
    | with_reducible assumption
    | with_reducible refine Runs.next ?_
    | with_reducible refine roleSettled_keeps ?_
    | with_reducible refine Keeps.ite ?_ ?_

theorem startFirmware_keeps {s0 s : State} (h : Keeps s0 s) : Keeps s0 (startFirmware s) := by
  unfold startFirmware
  repeat' first
    | with_reducible assumption
    | (extract_lets +onlyGivenNames x; first | (refine Keeps.letS (a := x) ?_ fun hx => ?_; rotate_left; clear_value x; revert x; rotate_left; unfold x; clear x) | (try unfold x; clear x))
    | intro _ _
    | with_reducible refine fset_keeps ?_
    | with_reducible refine wrN_keeps ?_
    | with_reducible refine fsetb_keeps ?_
    | with_reducible refine setPwr_keeps ?_
    | with_reducible refine Keeps.forAll ?_ fun _ _ hy => ?_
    | with_reducible refine domRequest_keeps ?_
    | with_reducible refine Keeps.ite ?_ ?_
    | split

theorem oldFormats_keeps {s0 s : State} (h : Keeps s0 s) : Keeps s0 (oldFormats s) := by
  unfold oldFormats
  repeat' first
    | with_reducible assumption
    | (extract_lets +onlyGivenNames x; first | (refine Keeps.letS (a := x) ?_ fun hx => ?_; rotate_left; clear_value x; revert x; rotate_left; unfold x; clear x) | (try unfold x; clear x))
    | with_reducible refine setFls_keeps ?_
    | with_reducible refine Keeps.ite ?_ ?_

theorem execRomImageCheck_runs {s0 : State} {res0 res1 : BitVec 3} {partner : List Byte} {s : State} (h : Keeps s0 s) : Runs s0 (execRomImageCheck res0 res1 partner s) := by
  unfold execRomImageCheck
  repeat' first
    | with_reducible assumption
    | (extract_lets +onlyGivenNames x; first | (refine Keeps.letS (a := x) ?_ fun hx => ?_; rotate_left; clear_value x; revert x; rotate_left; unfold x; clear x) | (try unfold x; clear x))
    | with_reducible refine Runs.next ?_
    | with_reducible refine fset_keeps ?_
    | with_reducible refine startFirmware_keeps ?_
    | with_reducible refine evtSet_keeps ?_
    | with_reducible refine fsetb_keeps ?_
    | with_reducible refine oldFormats_keeps ?_
    | with_reducible refine flipBank_keeps ?_
    | with_reducible refine emit_keeps ?_
    | with_reducible refine setFls_keeps ?_
    | with_reducible refine Keeps.ite ?_ ?_

theorem gateOn_keeps {s0 s : State} {f l : Nat} (h : Keeps s0 s) : Keeps s0 (gateOn s f l) := by
  unfold gateOn
  repeat' first
    | with_reducible assumption
    | (extract_lets +onlyGivenNames x; first | (refine Keeps.letS (a := x) ?_ fun hx => ?_; rotate_left; clear_value x; revert x; rotate_left; unfold x; clear x) | (try unfold x; clear x))
    | intro _ _
    | with_reducible refine calPend_keeps ?_
    | with_reducible refine assistStart_keeps ?_
    | with_reducible refine Keeps.ite ?_ ?_

theorem gateOff_keeps {s0 s : State} {f l : Nat} (h : Keeps s0 s) : Keeps s0 (gateOff s f l) := by
  unfold gateOff
  repeat' first
    | with_reducible assumption
    | (extract_lets +onlyGivenNames x; first | (refine Keeps.letS (a := x) ?_ fun hx => ?_; rotate_left; clear_value x; revert x; rotate_left; unfold x; clear x) | (try unfold x; clear x))
    | with_reducible refine assistEnd_keeps ?_
    | with_reducible refine Keeps.ite ?_ ?_

theorem gateStart_keeps {s0 s : State} {a : Nat} {on : Bool} {m : Nat} (h : Keeps s0 s) : Keeps s0 (gateStart s a on m) := by
  unfold gateStart
  repeat' first
    | with_reducible assumption
    | (extract_lets +onlyGivenNames x; first | (refine Keeps.letS (a := x) ?_ fun hx => ?_; rotate_left; clear_value x; revert x; rotate_left; unfold x; clear x) | (try unfold x; clear x))
    | intro _ _
    | with_reducible refine setFseq_keeps ?_
    | with_reducible refine Keeps.forAll ?_ fun _ _ hy => ?_
    | with_reducible refine emit_keeps ?_
    | with_reducible refine gateOn_keeps ?_
    | with_reducible refine gateOff_keeps ?_
    | with_reducible refine Keeps.ite ?_ ?_

theorem windowStart_keeps {s0 s : State} {a m : Nat} (h : Keeps s0 s) : Keeps s0 (windowStart s a m) := by
  unfold windowStart
  repeat' first
    | with_reducible assumption
    | (extract_lets +onlyGivenNames x; first | (refine Keeps.letS (a := x) ?_ fun hx => ?_; rotate_left; clear_value x; revert x; rotate_left; unfold x; clear x) | (try unfold x; clear x))
    | with_reducible refine Keeps.forAll ?_ fun _ _ hy => ?_
    | with_reducible refine setFseq_keeps ?_
    | with_reducible refine liveStart_keeps ?_
    | with_reducible refine readOpen_keeps ?_

theorem execSectorStart_runs {s0 : State} {a : Fin 64} {pos : BitVec 16} {s : State} (h : Keeps s0 s) : Runs s0 (execSectorStart a pos s) := by
  unfold execSectorStart
  repeat' first
    | with_reducible assumption
    | (extract_lets +onlyGivenNames x; first | (refine Keeps.letS (a := x) ?_ fun hx => ?_; rotate_left; clear_value x; revert x; rotate_left; unfold x; clear x) | (try unfold x; clear x))
    | with_reducible refine Runs.next ?_
    | with_reducible refine setFseq_keeps ?_
    | with_reducible refine latchCond_keeps ?_
    | with_reducible refine gateStart_keeps ?_
    | with_reducible refine windowStart_keeps ?_
    | with_reducible refine Keeps.ite ?_ ?_
    | split

theorem execSend_runs {s0 : State} {z : Fin 8} {work : List SecWork} {s : State} (h : Keeps s0 s) : Runs s0 (execSend z work s) := by
  unfold execSend
  repeat' first
    | with_reducible assumption
    | (extract_lets +onlyGivenNames x; first | (refine Keeps.letS (a := x) ?_ fun hx => ?_; rotate_left; clear_value x; revert x; rotate_left; unfold x; clear x) | (try unfold x; clear x))
    | with_reducible refine Runs.next ?_
    | with_reducible refine drawn_keeps ?_
    | with_reducible refine zRun_keeps (fun _ _ _ hy => ?_) ?_
    | with_reducible refine zNext_keeps ?_
    | with_reducible refine fSync_keeps ?_
    | with_reducible refine setFseq_keeps ?_
    | with_reducible refine zSync_keeps ?_
    | with_reducible refine setThread_keeps ?_
    | with_reducible refine Keeps.ite ?_ ?_

theorem setPM_keeps {s0 : State} {dw11 : Word} {s : State} {x1 cid : Nat} (h : Keeps s0 s) : Keeps s0 (setPM dw11 s x1 cid) := by
  unfold setPM
  repeat' first
    | with_reducible assumption
    | (extract_lets +onlyGivenNames x; first | (refine Keeps.letS (a := x) ?_ fun hx => ?_; rotate_left; clear_value x; revert x; rotate_left; unfold x; clear x) | (try unfold x; clear x))
    | with_reducible refine invalidField_keeps ?_
    | with_reducible refine setCtl_keeps ?_
    | with_reducible refine psUpdate_keeps ?_
    | with_reducible refine fset_keeps ?_
    | with_reducible refine Keeps.ite ?_ ?_

theorem execSetFeatPowerMgmt_runs {s0 : State} {x1 : HPort} {cid : BitVec 16} {dw11 : Word} {sv : Bool} {s : State} (h : Keeps s0 s) : Runs s0 (execSetFeatPowerMgmt x1 cid dw11 sv s) := by
  unfold execSetFeatPowerMgmt
  repeat' first
    | with_reducible assumption
    | with_reducible refine Runs.next ?_
    | with_reducible refine setFeat_keeps (fun _ _ _ hy => ?_) ?_
    | with_reducible refine setPM_keeps ?_

theorem execSetModeControl_runs {s0 : State} {x1 : HPort} {cid : BitVec 16} {dw11 : Word} {sv : Bool} {s : State} (h : Keeps s0 s) : Runs s0 (execSetModeControl x1 cid dw11 sv s) := by
  unfold execSetModeControl
  repeat' first
    | with_reducible assumption
    | with_reducible refine Runs.next ?_
    | with_reducible refine setFeat_keeps (fun _ _ _ hy => ?_) ?_
    | with_reducible refine setEE_keeps ?_

theorem execSoftwareReset_runs {s0 : State} {m : Master} {value : Word} {s : State} (h : Keeps s0 s) : Runs s0 (execSoftwareReset m value s) := by
  unfold execSoftwareReset
  repeat' first
    | with_reducible assumption
    | with_reducible refine Runs.next ?_
    | with_reducible refine regWrite_keeps (fun _ hy => ?_) ?_
    | with_reducible refine deviceReset_keeps ?_
    | with_reducible refine Keeps.ite ?_ ?_

theorem execStandbySelftestCycle_runs {s0 : State} {failed : List (Fin 477)} {s : State} (h : Keeps s0 s) : Runs s0 (execStandbySelftestCycle failed s) := by
  unfold execStandbySelftestCycle
  repeat' first
    | with_reducible assumption
    | (extract_lets +onlyGivenNames x; first | (refine Keeps.letS (a := x) ?_ fun hx => ?_; rotate_left; clear_value x; revert x; rotate_left; unfold x; clear x) | (try unfold x; clear x))
    | with_reducible refine Runs.next ?_
    | with_reducible refine setPrt_keeps (fun _ => rfl) ?_
    | with_reducible refine Keeps.forAll ?_ fun _ _ hy => ?_
    | with_reducible refine domFault_keeps ?_
    | with_reducible refine Keeps.ite ?_ ?_

theorem execSysReset_runs {s0 : State} {pairPos : Bool} {s : State} (h : Keeps s0 s) : Runs s0 (execSysReset pairPos s) := by
  unfold execSysReset
  repeat' first
    | with_reducible assumption
    | with_reducible refine Runs.next ?_
    | with_reducible refine samplePair_keeps ?_
    | with_reducible refine deviceReset_keeps ?_
    | with_reducible refine Keeps.ite ?_ ?_

theorem execTakeoverAcquireRetry_runs {s0 s : State} (h : Keeps s0 s) : Runs s0 (execTakeoverAcquireRetry s) := by
  unfold execTakeoverAcquireRetry
  repeat' first
    | with_reducible assumption
    | with_reducible refine Runs.next ?_
    | with_reducible refine takeoverCheck_keeps ?_
    | with_reducible refine acquireAll_keeps ?_
    | with_reducible refine Keeps.ite ?_ ?_

theorem execThermalTrip_runs {s0 s : State} (h : Keeps s0 s) : Runs s0 (execThermalTrip s) := by
  unfold execThermalTrip
  repeat' first
    | with_reducible assumption
    | with_reducible refine Runs.next ?_
    | with_reducible refine deviceReset_keeps ?_
    | with_reducible refine Keeps.ite ?_ ?_

theorem execThreadTimerExpiry_runs {s0 : State} {z : Fin 8} {t1 : Fin 64} {s : State} (h : Keeps s0 s) : Runs s0 (execThreadTimerExpiry z t1 s) := by
  unfold execThreadTimerExpiry
  repeat' first
    | with_reducible assumption
    | (extract_lets +onlyGivenNames x; first | (refine Keeps.letS (a := x) ?_ fun hx => ?_; rotate_left; clear_value x; revert x; rotate_left; unfold x; clear x) | (try unfold x; clear x))
    | with_reducible refine Runs.next ?_
    | with_reducible refine setThread_keeps ?_
    | with_reducible refine Keeps.ite ?_ ?_

theorem execTsbResponse_runs {s0 : State} {p : Fin 32} {status : BitVec 8} {data : List Byte} {crcOk : Bool} {s : State} (h : Keeps s0 s) : Runs s0 (execTsbResponse p status data crcOk s) := by
  unfold execTsbResponse
  repeat' first
    | with_reducible assumption
    | with_reducible refine Runs.next ?_
    | with_reducible refine takeoverCheck_keeps ?_
    | with_reducible refine tsbDone_keeps ?_
    | with_reducible refine tsbRetry_keeps ?_
    | with_reducible refine Keeps.ite ?_ ?_

theorem updateConfirm_keeps {s0 s : State} {x1 cid : Nat} {same : Bool} (h : Keeps s0 s) : Keeps s0 (updateConfirm s x1 cid same) := by
  unfold updateConfirm
  repeat' first
    | with_reducible assumption
    | (extract_lets +onlyGivenNames x; first | (refine Keeps.letS (a := x) ?_ fun hx => ?_; rotate_left; clear_value x; revert x; rotate_left; unfold x; clear x) | (try unfold x; clear x))
    | intro _ _
    | with_reducible refine sequenceError_keeps ?_
    | with_reducible refine setFls_keeps ?_
    | with_reducible refine adminOk_keeps ?_
    | with_reducible refine emit_keeps ?_
    | with_reducible refine fset_keeps ?_
    | with_reducible refine Keeps.ite ?_ ?_

theorem execUpdateConfirm_runs {s0 : State} {x1 : HPort} {cid : BitVec 16} {same : Bool} {s : State} (h : Keeps s0 s) : Runs s0 (execUpdateConfirm x1 cid same s) := by
  unfold execUpdateConfirm
  repeat' first
    | with_reducible assumption
    | with_reducible refine Runs.next ?_
    | with_reducible refine adminCmd_keeps (fun _ hy => ?_) ?_
    | with_reducible refine updateConfirm_keeps ?_

theorem uptimeTick_keeps {s0 s : State} (h : Keeps s0 s) : Keeps s0 (uptimeTick s) := by
  unfold uptimeTick
  repeat' first
    | with_reducible assumption
    | (extract_lets +onlyGivenNames x; first | (refine Keeps.letS (a := x) ?_ fun hx => ?_; rotate_left; clear_value x; revert x; rotate_left; unfold x; clear x) | (try unfold x; clear x))
    | intro _ _
    | with_reducible refine wrN_keeps ?_
    | with_reducible refine evtSet_keeps ?_
    | with_reducible refine Keeps.ite ?_ ?_

theorem execUptimeWrap_runs {s0 s : State} (h : Keeps s0 s) : Runs s0 (execUptimeWrap s) := by
  unfold execUptimeWrap
  repeat' first
    | with_reducible assumption
    | with_reducible refine Runs.next ?_
    | with_reducible refine uptimeTick_keeps ?_
    | with_reducible refine Keeps.ite ?_ ?_

theorem execVaonGood_runs {s0 s : State} (h : Keeps s0 s) : Runs s0 (execVaonGood s) := by
  unfold execVaonGood
  repeat' first
    | with_reducible assumption
    | (extract_lets +onlyGivenNames x; first | (refine Keeps.letS (a := x) ?_ fun hx => ?_; rotate_left; clear_value x; revert x; rotate_left; unfold x; clear x) | (try unfold x; clear x))
    | with_reducible refine Runs.next ?_
    | with_reducible refine setPwr_keeps ?_
    | with_reducible refine aonLost_keeps ?_

theorem execVaonLoss_runs {s0 s : State} (h : Keeps s0 s) : Runs s0 (execVaonLoss s) := by
  unfold execVaonLoss
  repeat' first
    | with_reducible assumption
    | (extract_lets +onlyGivenNames x; first | (refine Keeps.letS (a := x) ?_ fun hx => ?_; rotate_left; clear_value x; revert x; rotate_left; unfold x; clear x) | (try unfold x; clear x))
    | with_reducible refine Runs.next ?_
    | with_reducible refine setPwr_keeps ?_
    | with_reducible refine aonLost_keeps ?_

theorem execVcoreUndervoltage_runs {s0 s : State} (h : Keeps s0 s) : Runs s0 (execVcoreUndervoltage s) := by
  unfold execVcoreUndervoltage
  repeat' first
    | with_reducible assumption
    | with_reducible refine Runs.next ?_
    | with_reducible refine enterWatch_keeps ?_
    | with_reducible refine Keeps.ite ?_ ?_

theorem execWait_runs {s0 : State} {z : Fin 8} {s : State} (h : Keeps s0 s) : Runs s0 (execWait z s) := by
  unfold execWait
  repeat' first
    | with_reducible assumption
    | (extract_lets +onlyGivenNames x; first | (refine Keeps.letS (a := x) ?_ fun hx => ?_; rotate_left; clear_value x; revert x; rotate_left; unfold x; clear x) | (try unfold x; clear x))
    | with_reducible refine Runs.next ?_
    | with_reducible refine zRun_keeps (fun _ _ _ hy => ?_) ?_
    | with_reducible refine zNext_keeps ?_
    | with_reducible refine setThread_keeps ?_

theorem execWaitTimeout_runs {s0 : State} {z : Fin 8} {t1 : Fin 64} {s : State} (h : Keeps s0 s) : Runs s0 (execWaitTimeout z t1 s) := by
  unfold execWaitTimeout
  repeat' first
    | with_reducible assumption
    | (extract_lets +onlyGivenNames x; first | (refine Keeps.letS (a := x) ?_ fun hx => ?_; rotate_left; clear_value x; revert x; rotate_left; unfold x; clear x) | (try unfold x; clear x))
    | with_reducible refine Runs.next ?_
    | with_reducible refine zSync_keeps ?_
    | with_reducible refine setThread_keeps ?_
    | with_reducible refine Keeps.ite ?_ ?_
    | split

theorem execWatchWakeSource_runs {s0 : State} {source : Fin 5} {s : State} (h : Keeps s0 s) : Runs s0 (execWatchWakeSource source s) := by
  unfold execWatchWakeSource
  repeat' first
    | with_reducible assumption
    | (extract_lets +onlyGivenNames x; first | (refine Keeps.letS (a := x) ?_ fun hx => ?_; rotate_left; clear_value x; revert x; rotate_left; unfold x; clear x) | (try unfold x; clear x))
    | with_reducible refine Runs.next ?_
    | with_reducible refine wbit_keeps ?_
    | with_reducible refine emit_keeps ?_
    | with_reducible refine setPwr_keeps ?_
    | with_reducible refine Keeps.ite ?_ ?_

theorem execWdogKick_runs {s0 : State} {m : Master} {s : State} (h : Keeps s0 s) : Runs s0 (execWdogKick m s) := by
  unfold execWdogKick
  repeat' first
    | with_reducible assumption
    | with_reducible refine Runs.next ?_
    | with_reducible refine regWrite_keeps (fun _ hy => ?_) ?_

theorem execXtalStart_runs {s0 s : State} (h : Keeps s0 s) : Runs s0 (execXtalStart s) := by
  unfold execXtalStart
  repeat' first
    | with_reducible assumption
    | with_reducible refine Runs.next ?_
    | with_reducible refine fsetb_keeps ?_
    | with_reducible refine Keeps.ite ?_ ?_

theorem execZoneFlowStart_runs {s0 : State} {x1 : HPort} {sqid cid : BitVec 16} {s : State} (h : Keeps s0 s) : Runs s0 (execZoneFlowStart x1 sqid cid s) := by
  unfold execZoneFlowStart
  repeat' first
    | with_reducible assumption
    | (extract_lets +onlyGivenNames x; first | (refine Keeps.letS (a := x) ?_ fun hx => ?_; rotate_left; clear_value x; revert x; rotate_left; unfold x; clear x) | (try unfold x; clear x))
    | with_reducible refine Runs.next ?_
    | with_reducible refine flowEnterD_keeps ?_ ?_
    | with_reducible refine Keeps.ite ?_ ?_
    | split

end Sys2Proof.Machine
end

