-- ==== Sys2Proof/Laws/KeepsAccess.lean ====
section
/-! SUPPORT. What every operation and every meaning leaves: the flash, the self-tests, the log pages, the mailboxes, the events and the register writes. One lemma for each, named after it: an operation keeps the
queue, only adds to what was sent and keeps the invariant; a meaning answers a next state that does. -/
set_option linter.tactic.unusedName false
set_option Elab.async false
namespace Sys2Proof.Machine
open Sys2Proof

theorem after_keeps {s0 s : State} {r : Res} (hr : Runs s0 r) : Keeps s0 (after r s) := by
  obtain ⟨t, rfl, h⟩ := hr
  exact h

theorem loseCal_keeps {s0 s : State} (h : Keeps s0 s) : Keeps s0 (loseCal s) := by
  unfold loseCal
  repeat' first
    | with_reducible assumption
    | (extract_lets +onlyGivenNames x; first | (refine Keeps.letS (a := x) ?_ fun hx => ?_; rotate_left; clear_value x; revert x; rotate_left; unfold x; clear x) | (try unfold x; clear x))
    | intro _ _
    | with_reducible refine Keeps.forAll ?_ fun _ _ hy => ?_
    | with_reducible refine drawn_keeps ?_
    | with_reducible refine setFls_keeps ?_
    | with_reducible refine Keeps.ite ?_ ?_

theorem areaLost_keeps {s0 s : State} {k : Nat} (h : Keeps s0 s) : Keeps s0 (areaLost s k) := by
  unfold areaLost
  repeat' first
    | with_reducible assumption
    | (extract_lets +onlyGivenNames x; first | (refine Keeps.letS (a := x) ?_ fun hx => ?_; rotate_left; clear_value x; revert x; rotate_left; unfold x; clear x) | (try unfold x; clear x))
    | with_reducible refine setFls_keeps ?_
    | with_reducible refine loseCal_keeps ?_
    | with_reducible refine setMem_keeps ?_
    | with_reducible refine Keeps.ite ?_ ?_
    | with_reducible refine Keeps.upd ?_ rfl rfl rfl

theorem plainWrite_keeps {s0 s : State} {a : Nat} {v : Word} (h : Keeps s0 s) : Keeps s0 (plainWrite s a v) := by
  unfold plainWrite
  repeat' first
    | with_reducible assumption
    | with_reducible refine wr_keeps ?_

theorem commonWrite_keeps {s0 s : State} {a : Nat} {v : Word} (h : Keeps s0 s) : Keeps s0 (commonWrite s a v) := by
  unfold commonWrite
  repeat' first
    | with_reducible assumption
    | with_reducible refine risesOf_keeps ?_
    | with_reducible refine plainWrite_keeps ?_
    | split

theorem pulseCount_keeps {s0 s : State} {j : FlsJob} (h : Keeps s0 s) : Keeps s0 (pulseCount s j) := by
  unfold pulseCount
  repeat' first
    | with_reducible assumption
    | (extract_lets +onlyGivenNames x; first | (refine Keeps.letS (a := x) ?_ fun hx => ?_; rotate_left; clear_value x; revert x; rotate_left; unfold x; clear x) | (try unfold x; clear x))
    | with_reducible refine fset_keeps ?_
    | with_reducible refine setFls_keeps ?_

theorem flashEnd_keeps {s0 s : State} {result : Nat} (h : Keeps s0 s) : Keeps s0 (flashEnd s result) := by
  unfold flashEnd
  repeat' first
    | with_reducible assumption
    | (extract_lets +onlyGivenNames x; first | (refine Keeps.letS (a := x) ?_ fun hx => ?_; rotate_left; clear_value x; revert x; rotate_left; unfold x; clear x) | (try unfold x; clear x))
    | intro _ _
    | with_reducible refine setFls_keeps ?_
    | with_reducible refine fsetb_keeps ?_
    | with_reducible refine domRelease_keeps ?_
    | with_reducible refine fset_keeps ?_
    | with_reducible refine evtSet_keeps ?_
    | with_reducible refine Keeps.ite ?_ ?_

theorem retireBlock_keeps {s0 s : State} {b : Nat} (h : Keeps s0 s) : Keeps s0 (retireBlock s b) := by
  unfold retireBlock
  repeat' first
    | with_reducible assumption
    | (extract_lets +onlyGivenNames x; first | (refine Keeps.letS (a := x) ?_ fun hx => ?_; rotate_left; clear_value x; revert x; rotate_left; unfold x; clear x) | (try unfold x; clear x))
    | intro _ _
    | with_reducible refine evtSet_keeps ?_
    | with_reducible refine syncFlashWear_keeps ?_
    | with_reducible refine fsetb_keeps ?_
    | with_reducible refine remapBlocks_keeps ?_
    | with_reducible refine Keeps.ite ?_ ?_

theorem erasePulse_keeps {s0 s : State} {j : FlsJob} {verified : Bool} (h : Keeps s0 s) : Keeps s0 (erasePulse s j verified) := by
  unfold erasePulse
  repeat' first
    | with_reducible assumption
    | (extract_lets +onlyGivenNames x; first | (refine Keeps.letS (a := x) ?_ fun hx => ?_; rotate_left; clear_value x; revert x; rotate_left; unfold x; clear x) | (try unfold x; clear x))
    | intro _ _
    | with_reducible refine pulseCount_keeps ?_
    | with_reducible refine flashEnd_keeps ?_
    | with_reducible refine setFls_keeps ?_
    | with_reducible refine retireBlock_keeps ?_
    | with_reducible refine count_keeps ?_
    | with_reducible refine Keeps.ite ?_ ?_

theorem flashStart_keeps {s0 s : State} {b : Nat} (h : Keeps s0 s) : Keeps s0 (flashStart s b) := by
  unfold flashStart
  repeat' first
    | with_reducible assumption
    | with_reducible refine fset_keeps ?_
    | with_reducible refine domRequest_keeps ?_

theorem flashRun_keeps {s0 s : State} {j : FlsJob} (h : Keeps s0 s) : Keeps s0 (flashRun s j) := by
  unfold flashRun
  repeat' first
    | with_reducible assumption
    | (extract_lets +onlyGivenNames x; first | (refine Keeps.letS (a := x) ?_ fun hx => ?_; rotate_left; clear_value x; revert x; rotate_left; unfold x; clear x) | (try unfold x; clear x))
    | with_reducible refine setFls_keeps ?_
    | with_reducible refine fsetb_keeps ?_

theorem putTorn_keeps {s0 s : State} {block : Nat} {page : Option Nat} (h : Keeps s0 s) : Keeps s0 (putTorn s block page) := by
  unfold putTorn
  repeat' first
    | with_reducible assumption
    | with_reducible refine setFls_keeps ?_

theorem eraseStart_keeps {s0 s : State} (h : Keeps s0 s) : Keeps s0 (eraseStart s) := by
  unfold eraseStart
  repeat' first
    | with_reducible assumption
    | (extract_lets +onlyGivenNames x; first | (refine Keeps.letS (a := x) ?_ fun hx => ?_; rotate_left; clear_value x; revert x; rotate_left; unfold x; clear x) | (try unfold x; clear x))
    | intro _ _
    | with_reducible refine flashStart_keeps ?_
    | with_reducible refine flashEnd_keeps ?_
    | with_reducible refine flashRun_keeps ?_
    | with_reducible refine putTorn_keeps ?_
    | with_reducible refine areaLost_keeps ?_
    | with_reducible refine syncFlashWear_keeps ?_
    | with_reducible refine eraseCount_keeps ?_
    | with_reducible refine Keeps.ite ?_ ?_

theorem execCqHeadDoorbellWrite_runs {s0 : State} {x1 : HPort} {qid head : BitVec 16} {s : State} (h : Keeps s0 s) : Runs s0 (execCqHeadDoorbellWrite x1 qid head s) := by
  unfold execCqHeadDoorbellWrite
  repeat' first
    | with_reducible assumption
    | (extract_lets +onlyGivenNames x; first | (refine Keeps.letS (a := x) ?_ fun hx => ?_; rotate_left; clear_value x; revert x; rotate_left; unfold x; clear x) | (try unfold x; clear x))
    | with_reducible refine Runs.next ?_
    | with_reducible refine adminCmd_keeps (fun _ hy => ?_) ?_
    | with_reducible refine setCtl_keeps ?_
    | split

theorem execDeviceSelfTestAbort_runs {s0 : State} {x1 : HPort} {cid : BitVec 16} {a1 : Word} {s : State} (h : Keeps s0 s) : Runs s0 (execDeviceSelfTestAbort x1 cid a1 s) := by
  unfold execDeviceSelfTestAbort
  repeat' first
    | with_reducible assumption
    | with_reducible refine Runs.next ?_
    | with_reducible refine adminCmd_keeps (fun _ hy => ?_) ?_
    | with_reducible refine adminOk_keeps ?_
    | with_reducible refine abortSelfTest_keeps ?_
    | with_reducible refine Keeps.ite ?_ ?_

theorem setTest_keeps {s0 s : State} {f : SelfTest → SelfTest} (h : Keeps s0 s) : Keeps s0 (setTest s f) := by
  unfold setTest
  repeat' first
    | with_reducible assumption
    | (extract_lets +onlyGivenNames x; first | (refine Keeps.letS (a := x) ?_ fun hx => ?_; rotate_left; clear_value x; revert x; rotate_left; unfold x; clear x) | (try unfold x; clear x))
    | with_reducible refine Keeps.upd ?_ rfl rfl rfl

theorem verifyStart_keeps {s0 s : State} (h : Keeps s0 s) : Keeps s0 (verifyStart s) := by
  unfold verifyStart
  repeat' first
    | with_reducible assumption
    | (extract_lets +onlyGivenNames x; first | (refine Keeps.letS (a := x) ?_ fun hx => ?_; rotate_left; clear_value x; revert x; rotate_left; unfold x; clear x) | (try unfold x; clear x))
    | with_reducible refine Keeps.forAll ?_ fun _ _ hy => ?_
    | with_reducible refine setBgw_keeps ?_
    | with_reducible refine wbit_keeps ?_

theorem testMedia_keeps {s0 s : State} {n : Nat} (h : Keeps s0 s) : Keeps s0 (testMedia s n) := by
  unfold testMedia
  repeat' first
    | with_reducible assumption
    | with_reducible refine emitAll_keeps ?_
    | with_reducible refine Keeps.ite ?_ ?_

theorem testStep_keeps {s0 s : State} {n : Nat} (h : Keeps s0 s) : Keeps s0 (testStep s n) := by
  unfold testStep
  repeat' first
    | with_reducible assumption
    | (extract_lets +onlyGivenNames x; first | (refine Keeps.letS (a := x) ?_ fun hx => ?_; rotate_left; clear_value x; revert x; rotate_left; unfold x; clear x) | (try unfold x; clear x))
    | intro _ _
    | with_reducible refine setTest_keeps ?_
    | with_reducible refine fset_keeps ?_
    | with_reducible refine drawn_keeps ?_
    | with_reducible refine verifyStart_keeps ?_
    | with_reducible refine testMedia_keeps ?_
    | with_reducible refine Keeps.ite ?_ ?_

theorem testStart_keeps {s0 s : State} {x1 cid kind : Nat} (h : Keeps s0 s) : Keeps s0 (testStart s x1 cid kind) := by
  unfold testStart
  repeat' first
    | with_reducible assumption
    | (extract_lets +onlyGivenNames x; first | (refine Keeps.letS (a := x) ?_ fun hx => ?_; rotate_left; clear_value x; revert x; rotate_left; unfold x; clear x) | (try unfold x; clear x))
    | intro _ _
    | with_reducible refine adminEnd_keeps ?_
    | with_reducible refine setTest_keeps ?_
    | with_reducible refine testStep_keeps ?_
    | with_reducible refine fset_keeps ?_
    | with_reducible refine Keeps.ite ?_ ?_

theorem execDeviceSelfTestExtended_runs {s0 : State} {x1 : HPort} {cid : BitVec 16} {a1 : Word} {s : State} (h : Keeps s0 s) : Runs s0 (execDeviceSelfTestExtended x1 cid a1 s) := by
  unfold execDeviceSelfTestExtended
  repeat' first
    | with_reducible assumption
    | with_reducible refine Runs.next ?_
    | with_reducible refine adminCmd_keeps (fun _ hy => ?_) ?_
    | with_reducible refine testStart_keeps ?_

theorem execDeviceSelfTestShort_runs {s0 : State} {x1 : HPort} {cid : BitVec 16} {a1 : Word} {s : State} (h : Keeps s0 s) : Runs s0 (execDeviceSelfTestShort x1 cid a1 s) := by
  unfold execDeviceSelfTestShort
  repeat' first
    | with_reducible assumption
    | with_reducible refine Runs.next ?_
    | with_reducible refine adminCmd_keeps (fun _ hy => ?_) ?_
    | with_reducible refine testStart_keeps ?_

theorem execEventSourceRise_runs {s0 : State} {src : Fin 640} {s : State} (h : Keeps s0 s) : Runs s0 (execEventSourceRise src s) := by
  unfold execEventSourceRise
  repeat' first
    | with_reducible assumption
    | with_reducible refine Runs.next ?_
    | with_reducible refine sourceRise_keeps ?_
    | with_reducible refine Keeps.ite ?_ ?_

theorem execEvtPendClear_runs {s0 : State} {m : Master} {n : Fin 20} {mask : Word} {s : State} (h : Keeps s0 s) : Runs s0 (execEvtPendClear m n mask s) := by
  unfold execEvtPendClear
  repeat' first
    | with_reducible assumption
    | with_reducible refine Runs.next ?_
    | with_reducible refine regWrite_keeps (fun _ hy => ?_) ?_
    | with_reducible refine pendClear_keeps ?_

theorem execExpertRelease_runs {s0 : State} {m : Master} {addr : Nat} {s : State} (h : Keeps s0 s) : Runs s0 (execExpertRelease m addr s) := by
  unfold execExpertRelease
  repeat' first
    | with_reducible assumption
    | with_reducible refine Runs.next ?_
    | with_reducible refine claimsFreed_keeps ?_
    | with_reducible refine writeXclaim_keeps ?_
    | with_reducible refine undefAccess_keeps ?_
    | with_reducible refine Keeps.ite ?_ ?_
    | split

theorem programStart_keeps {s0 s : State} {bad : Bool} (h : Keeps s0 s) : Keeps s0 (programStart s bad) := by
  unfold programStart
  repeat' first
    | with_reducible assumption
    | (extract_lets +onlyGivenNames x; first | (refine Keeps.letS (a := x) ?_ fun hx => ?_; rotate_left; clear_value x; revert x; rotate_left; unfold x; clear x) | (try unfold x; clear x))
    | intro _ _
    | with_reducible refine flashStart_keeps ?_
    | with_reducible refine flashEnd_keeps ?_
    | with_reducible refine flashRun_keeps ?_
    | with_reducible refine Keeps.ite ?_ ?_

theorem pdataRead_keeps {s0 s : State} {content : Option (List Nat)} {w : Nat} (h : Keeps s0 s) : Keeps s0 (pdataRead s content w) := by
  unfold pdataRead
  repeat' first
    | with_reducible assumption
    | with_reducible refine wrN_keeps ?_
    | with_reducible refine drawn_keeps ?_
    | split

theorem pageRead_keeps {s0 s : State} {ce ue weak : BitVec 16} (h : Keeps s0 s) : Keeps s0 (pageRead s ce ue weak) := by
  unfold pageRead
  repeat' first
    | with_reducible assumption
    | (extract_lets +onlyGivenNames x; first | (refine Keeps.letS (a := x) ?_ fun hx => ?_; rotate_left; clear_value x; revert x; rotate_left; unfold x; clear x) | (try unfold x; clear x))
    | intro _ _
    | with_reducible refine Keeps.forAll ?_ fun _ _ hy => ?_
    | with_reducible refine flashStart_keeps ?_
    | with_reducible refine pdataRead_keeps ?_
    | with_reducible refine evtSet_keeps ?_
    | with_reducible refine count_keeps ?_
    | with_reducible refine flashEnd_keeps ?_
    | with_reducible refine Keeps.ite ?_ ?_

theorem flsCmdWrite_keeps {s0 s : State} {m : Master} {value : Word} {bad : Bool} {ce ue weak : BitVec 16} (h : Keeps s0 s) : Keeps s0 (flsCmdWrite s m value bad ce ue weak) := by
  unfold flsCmdWrite
  repeat' first
    | with_reducible assumption
    | (extract_lets +onlyGivenNames x; first | (refine Keeps.letS (a := x) ?_ fun hx => ?_; rotate_left; clear_value x; revert x; rotate_left; unfold x; clear x) | (try unfold x; clear x))
    | intro _ _
    | with_reducible refine wr_keeps ?_
    | with_reducible refine programStart_keeps ?_
    | with_reducible refine eraseStart_keeps ?_
    | with_reducible refine pageRead_keeps ?_
    | with_reducible refine Keeps.ite ?_ ?_
    | split

theorem execFlashErase_runs {s0 : State} {m : Master} {value : Word} {s : State} (h : Keeps s0 s) : Runs s0 (execFlashErase m value s) := by
  unfold execFlashErase
  repeat' first
    | with_reducible assumption
    | with_reducible refine Runs.next ?_
    | with_reducible refine regWrite_keeps (fun _ hy => ?_) ?_
    | with_reducible refine flsCmdWrite_keeps ?_

theorem execFlashErasePulseDone_runs {s0 : State} {verified : Bool} {s : State} (h : Keeps s0 s) : Runs s0 (execFlashErasePulseDone verified s) := by
  unfold execFlashErasePulseDone
  repeat' first
    | with_reducible assumption
    | with_reducible refine Runs.next ?_
    | with_reducible refine erasePulse_keeps ?_
    | with_reducible refine Keeps.ite ?_ ?_
    | split

theorem execFlashPageRead_runs {s0 : State} {m : Master} {value : Word} {ce ue weak : BitVec 16} {s : State} (h : Keeps s0 s) : Runs s0 (execFlashPageRead m value ce ue weak s) := by
  unfold execFlashPageRead
  repeat' first
    | with_reducible assumption
    | with_reducible refine Runs.next ?_
    | with_reducible refine regWrite_keeps (fun _ hy => ?_) ?_
    | with_reducible refine flsCmdWrite_keeps ?_

theorem execFlashProgram_runs {s0 : State} {m : Master} {value : Word} {bad : Bool} {s : State} (h : Keeps s0 s) : Runs s0 (execFlashProgram m value bad s) := by
  unfold execFlashProgram
  repeat' first
    | with_reducible assumption
    | with_reducible refine Runs.next ?_
    | with_reducible refine regWrite_keeps (fun _ hy => ?_) ?_
    | with_reducible refine flsCmdWrite_keeps ?_

theorem putPage_keeps {s0 s : State} {page : Nat} {data : List Nat} (h : Keeps s0 s) : Keeps s0 (putPage s page data) := by
  unfold putPage
  repeat' first
    | with_reducible assumption
    | with_reducible refine setFls_keeps ?_

theorem programPulse_keeps {s0 s : State} {j : FlsJob} {verified : Bool} (h : Keeps s0 s) : Keeps s0 (programPulse s j verified) := by
  unfold programPulse
  repeat' first
    | with_reducible assumption
    | (extract_lets +onlyGivenNames x; first | (refine Keeps.letS (a := x) ?_ fun hx => ?_; rotate_left; clear_value x; revert x; rotate_left; unfold x; clear x) | (try unfold x; clear x))
    | intro _ _
    | with_reducible refine count_keeps ?_
    | with_reducible refine pulseCount_keeps ?_
    | with_reducible refine fset_keeps ?_
    | with_reducible refine flashEnd_keeps ?_
    | with_reducible refine putTorn_keeps ?_
    | with_reducible refine putPage_keeps ?_
    | with_reducible refine retireBlock_keeps ?_
    | with_reducible refine Keeps.ite ?_ ?_

theorem execFlashProgramPulseDone_runs {s0 : State} {verified : Bool} {s : State} (h : Keeps s0 s) : Runs s0 (execFlashProgramPulseDone verified s) := by
  unfold execFlashProgramPulseDone
  repeat' first
    | with_reducible assumption
    | with_reducible refine Runs.next ?_
    | with_reducible refine programPulse_keeps ?_
    | with_reducible refine Keeps.ite ?_ ?_
    | split

theorem logData_keeps {s0 s : State} {x1 cid ofst len : Nat} {page : List Nat} (h : Keeps s0 s) : Keeps s0 (logData s x1 cid ofst len page) := by
  unfold logData
  repeat' first
    | with_reducible assumption
    | with_reducible refine invalidField_keeps ?_
    | with_reducible refine adminData_keeps ?_
    | with_reducible refine Keeps.ite ?_ ?_

theorem logPage_keeps {s0 s : State} {x1 : HPort} {cid : BitVec 16} {ofst len : BitVec 32} {page : List Nat} (h : Keeps s0 s) : Keeps s0 (logPage s x1 cid ofst len page) := by
  unfold logPage
  repeat' first
    | with_reducible assumption
    | with_reducible refine adminCmd_keeps (fun _ hy => ?_) ?_
    | with_reducible refine logData_keeps ?_

theorem execLogAna_runs {s0 : State} {x1 : HPort} {cid : BitVec 16} {ofst len : BitVec 32} {s : State} (h : Keeps s0 s) : Runs s0 (execLogAna x1 cid ofst len s) := by
  unfold execLogAna
  repeat' first
    | with_reducible assumption
    | with_reducible refine Runs.next ?_
    | with_reducible refine logPage_keeps ?_

theorem execLogAssistWear_runs {s0 : State} {x1 : HPort} {cid : BitVec 16} {ofst len : BitVec 32} {s : State} (h : Keeps s0 s) : Runs s0 (execLogAssistWear x1 cid ofst len s) := by
  unfold execLogAssistWear
  repeat' first
    | with_reducible assumption
    | with_reducible refine Runs.next ?_
    | with_reducible refine logPage_keeps ?_

theorem execLogBackgroundStatus_runs {s0 : State} {x1 : HPort} {cid : BitVec 16} {ofst len : BitVec 32} {s : State} (h : Keeps s0 s) : Runs s0 (execLogBackgroundStatus x1 cid ofst len s) := by
  unfold execLogBackgroundStatus
  repeat' first
    | with_reducible assumption
    | with_reducible refine Runs.next ?_
    | with_reducible refine logPage_keeps ?_

theorem execLogBallastStatus_runs {s0 : State} {x1 : HPort} {cid : BitVec 16} {ofst len : BitVec 32} {s : State} (h : Keeps s0 s) : Runs s0 (execLogBallastStatus x1 cid ofst len s) := by
  unfold execLogBallastStatus
  repeat' first
    | with_reducible assumption
    | with_reducible refine Runs.next ?_
    | with_reducible refine logPage_keeps ?_

theorem execLogBridleStats_runs {s0 : State} {x1 : HPort} {cid : BitVec 16} {ofst len : BitVec 32} {s : State} (h : Keeps s0 s) : Runs s0 (execLogBridleStats x1 cid ofst len s) := by
  unfold execLogBridleStats
  repeat' first
    | with_reducible assumption
    | with_reducible refine Runs.next ?_
    | with_reducible refine logPage_keeps ?_

theorem execLogCacheStats_runs {s0 : State} {x1 : HPort} {cid : BitVec 16} {ofst len : BitVec 32} {s : State} (h : Keeps s0 s) : Runs s0 (execLogCacheStats x1 cid ofst len s) := by
  unfold execLogCacheStats
  repeat' first
    | with_reducible assumption
    | with_reducible refine Runs.next ?_
    | with_reducible refine logPage_keeps ?_

theorem execLogChangedNamespaceList_runs {s0 : State} {x1 : HPort} {cid : BitVec 16} {rae : Bool} {ofst len : BitVec 32} {s : State} (h : Keeps s0 s) : Runs s0 (execLogChangedNamespaceList x1 cid rae ofst len s) := by
  unfold execLogChangedNamespaceList
  repeat' first
    | with_reducible assumption
    | (extract_lets +onlyGivenNames x; first | (refine Keeps.letS (a := x) ?_ fun hx => ?_; rotate_left; clear_value x; revert x; rotate_left; unfold x; clear x) | (try unfold x; clear x))
    | intro _ _
    | with_reducible refine Runs.next ?_
    | with_reducible refine adminCmd_keeps (fun _ hy => ?_) ?_
    | with_reducible refine logData_keeps ?_
    | with_reducible refine setCtl_keeps ?_
    | with_reducible refine Keeps.ite ?_ ?_

theorem execLogChangedZoneList_runs {s0 : State} {x1 : HPort} {cid : BitVec 16} {nsid : BitVec 32} {rae : Bool} {ofst len : BitVec 32} {s : State} (h : Keeps s0 s) : Runs s0 (execLogChangedZoneList x1 cid nsid rae ofst len s) := by
  unfold execLogChangedZoneList
  repeat' first
    | with_reducible assumption
    | (extract_lets +onlyGivenNames x; first | (refine Keeps.letS (a := x) ?_ fun hx => ?_; rotate_left; clear_value x; revert x; rotate_left; unfold x; clear x) | (try unfold x; clear x))
    | intro _ _
    | with_reducible refine Runs.next ?_
    | with_reducible refine adminCmd_keeps (fun _ hy => ?_) ?_
    | with_reducible refine logData_keeps ?_
    | with_reducible refine setCtl_keeps ?_
    | with_reducible refine Keeps.ite ?_ ?_

theorem execLogCommandsSupported_runs {s0 : State} {x1 : HPort} {cid : BitVec 16} {ofst len : BitVec 32} {s : State} (h : Keeps s0 s) : Runs s0 (execLogCommandsSupported x1 cid ofst len s) := by
  unfold execLogCommandsSupported
  repeat' first
    | with_reducible assumption
    | with_reducible refine Runs.next ?_
    | with_reducible refine logPage_keeps ?_

theorem execLogDetectionStats_runs {s0 : State} {x1 : HPort} {cid : BitVec 16} {ofst len : BitVec 32} {s : State} (h : Keeps s0 s) : Runs s0 (execLogDetectionStats x1 cid ofst len s) := by
  unfold execLogDetectionStats
  repeat' first
    | with_reducible assumption
    | with_reducible refine Runs.next ?_
    | with_reducible refine logPage_keeps ?_

theorem execLogDeviceSelfTest_runs {s0 : State} {x1 : HPort} {cid : BitVec 16} {ofst len : BitVec 32} {s : State} (h : Keeps s0 s) : Runs s0 (execLogDeviceSelfTest x1 cid ofst len s) := by
  unfold execLogDeviceSelfTest
  repeat' first
    | with_reducible assumption
    | with_reducible refine Runs.next ?_
    | with_reducible refine logPage_keeps ?_

theorem execLogEaveLayout_runs {s0 : State} {x1 : HPort} {cid : BitVec 16} {ofst len : BitVec 32} {s : State} (h : Keeps s0 s) : Runs s0 (execLogEaveLayout x1 cid ofst len s) := by
  unfold execLogEaveLayout
  repeat' first
    | with_reducible assumption
    | with_reducible refine Runs.next ?_
    | with_reducible refine logPage_keeps ?_

theorem execLogErrorInformation_runs {s0 : State} {x1 : HPort} {cid : BitVec 16} {ofst len : BitVec 32} {s : State} (h : Keeps s0 s) : Runs s0 (execLogErrorInformation x1 cid ofst len s) := by
  unfold execLogErrorInformation
  repeat' first
    | with_reducible assumption
    | with_reducible refine Runs.next ?_
    | with_reducible refine logPage_keeps ?_

theorem execLogEventStatus_runs {s0 : State} {x1 : HPort} {cid : BitVec 16} {rae : Bool} {ofst len : BitVec 32} {s : State} (h : Keeps s0 s) : Runs s0 (execLogEventStatus x1 cid rae ofst len s) := by
  unfold execLogEventStatus
  repeat' first
    | with_reducible assumption
    | (extract_lets +onlyGivenNames x; first | (refine Keeps.letS (a := x) ?_ fun hx => ?_; rotate_left; clear_value x; revert x; rotate_left; unfold x; clear x) | (try unfold x; clear x))
    | intro _ _
    | with_reducible refine Runs.next ?_
    | with_reducible refine adminCmd_keeps (fun _ hy => ?_) ?_
    | with_reducible refine logData_keeps ?_
    | with_reducible refine Keeps.ite ?_ ?_
    | with_reducible refine Keeps.upd ?_ rfl rfl rfl

theorem execLogFirmwareSlot_runs {s0 : State} {x1 : HPort} {cid : BitVec 16} {ofst len : BitVec 32} {s : State} (h : Keeps s0 s) : Runs s0 (execLogFirmwareSlot x1 cid ofst len s) := by
  unfold execLogFirmwareSlot
  repeat' first
    | with_reducible assumption
    | with_reducible refine Runs.next ?_
    | with_reducible refine logPage_keeps ?_

theorem execLogFlashStatus_runs {s0 : State} {x1 : HPort} {cid : BitVec 16} {ofst len : BitVec 32} {s : State} (h : Keeps s0 s) : Runs s0 (execLogFlashStatus x1 cid ofst len s) := by
  unfold execLogFlashStatus
  repeat' first
    | with_reducible assumption
    | with_reducible refine Runs.next ?_
    | with_reducible refine logPage_keeps ?_

theorem execLogHostInterfaceStats_runs {s0 : State} {x1 : HPort} {cid : BitVec 16} {ofst len : BitVec 32} {s : State} (h : Keeps s0 s) : Runs s0 (execLogHostInterfaceStats x1 cid ofst len s) := by
  unfold execLogHostInterfaceStats
  repeat' first
    | with_reducible assumption
    | with_reducible refine Runs.next ?_
    | with_reducible refine logPage_keeps ?_

theorem execLogLostRanges_runs {s0 : State} {x1 : HPort} {cid : BitVec 16} {ofst len : BitVec 32} {s : State} (h : Keeps s0 s) : Runs s0 (execLogLostRanges x1 cid ofst len s) := by
  unfold execLogLostRanges
  repeat' first
    | with_reducible assumption
    | with_reducible refine Runs.next ?_
    | with_reducible refine logPage_keeps ?_

theorem execLogMemoryError_runs {s0 : State} {x1 : HPort} {cid : BitVec 16} {ofst len : BitVec 32} {s : State} (h : Keeps s0 s) : Runs s0 (execLogMemoryError x1 cid ofst len s) := by
  unfold execLogMemoryError
  repeat' first
    | with_reducible assumption
    | with_reducible refine Runs.next ?_
    | with_reducible refine logPage_keeps ?_

theorem execLogMicrocodeStatus_runs {s0 : State} {x1 : HPort} {cid : BitVec 16} {ofst len : BitVec 32} {s : State} (h : Keeps s0 s) : Runs s0 (execLogMicrocodeStatus x1 cid ofst len s) := by
  unfold execLogMicrocodeStatus
  repeat' first
    | with_reducible assumption
    | with_reducible refine Runs.next ?_
    | with_reducible refine logPage_keeps ?_

theorem execLogOrphanedCompletions_runs {s0 : State} {x1 : HPort} {cid : BitVec 16} {lsp : BitVec 7} {ofst len : BitVec 32} {s : State} (h : Keeps s0 s) : Runs s0 (execLogOrphanedCompletions x1 cid lsp ofst len s) := by
  unfold execLogOrphanedCompletions
  repeat' first
    | with_reducible assumption
    | (extract_lets +onlyGivenNames x; first | (refine Keeps.letS (a := x) ?_ fun hx => ?_; rotate_left; clear_value x; revert x; rotate_left; unfold x; clear x) | (try unfold x; clear x))
    | intro _ _
    | with_reducible refine Runs.next ?_
    | with_reducible refine adminCmd_keeps (fun _ hy => ?_) ?_
    | with_reducible refine logData_keeps ?_
    | with_reducible refine Keeps.ite ?_ ?_
    | with_reducible refine Keeps.upd ?_ rfl rfl rfl

theorem execLogPartnerStatus_runs {s0 : State} {x1 : HPort} {cid : BitVec 16} {ofst len : BitVec 32} {s : State} (h : Keeps s0 s) : Runs s0 (execLogPartnerStatus x1 cid ofst len s) := by
  unfold execLogPartnerStatus
  repeat' first
    | with_reducible assumption
    | with_reducible refine Runs.next ?_
    | with_reducible refine logPage_keeps ?_

theorem execLogPowerModes_runs {s0 : State} {x1 : HPort} {cid : BitVec 16} {ofst len : BitVec 32} {s : State} (h : Keeps s0 s) : Runs s0 (execLogPowerModes x1 cid ofst len s) := by
  unfold execLogPowerModes
  repeat' first
    | with_reducible assumption
    | with_reducible refine Runs.next ?_
    | with_reducible refine logPage_keeps ?_

theorem execLogRetirementTable_runs {s0 : State} {x1 : HPort} {cid : BitVec 16} {ofst len : BitVec 32} {s : State} (h : Keeps s0 s) : Runs s0 (execLogRetirementTable x1 cid ofst len s) := by
  unfold execLogRetirementTable
  repeat' first
    | with_reducible assumption
    | with_reducible refine Runs.next ?_
    | with_reducible refine logPage_keeps ?_

theorem execLogSectorRecovery_runs {s0 : State} {x1 : HPort} {cid : BitVec 16} {ofst len : BitVec 32} {s : State} (h : Keeps s0 s) : Runs s0 (execLogSectorRecovery x1 cid ofst len s) := by
  unfold execLogSectorRecovery
  repeat' first
    | with_reducible assumption
    | with_reducible refine Runs.next ?_
    | with_reducible refine logPage_keeps ?_

theorem execLogServoWriteSafety_runs {s0 : State} {x1 : HPort} {cid : BitVec 16} {ofst len : BitVec 32} {s : State} (h : Keeps s0 s) : Runs s0 (execLogServoWriteSafety x1 cid ofst len s) := by
  unfold execLogServoWriteSafety
  repeat' first
    | with_reducible assumption
    | with_reducible refine Runs.next ?_
    | with_reducible refine logPage_keeps ?_

theorem execLogSmartHealth_runs {s0 : State} {x1 : HPort} {cid : BitVec 16} {nsid ofst len : BitVec 32} {s : State} (h : Keeps s0 s) : Runs s0 (execLogSmartHealth x1 cid nsid ofst len s) := by
  unfold execLogSmartHealth
  repeat' first
    | with_reducible assumption
    | (extract_lets +onlyGivenNames x; first | (refine Keeps.letS (a := x) ?_ fun hx => ?_; rotate_left; clear_value x; revert x; rotate_left; unfold x; clear x) | (try unfold x; clear x))
    | with_reducible refine Runs.next ?_
    | with_reducible refine adminCmd_keeps (fun _ hy => ?_) ?_
    | with_reducible refine invalidField_keeps ?_
    | with_reducible refine logData_keeps ?_
    | with_reducible refine Keeps.ite ?_ ?_
    | with_reducible refine Keeps.upd ?_ rfl rfl rfl

theorem execLogSpindleAssist_runs {s0 : State} {x1 : HPort} {cid : BitVec 16} {ofst len : BitVec 32} {s : State} (h : Keeps s0 s) : Runs s0 (execLogSpindleAssist x1 cid ofst len s) := by
  unfold execLogSpindleAssist
  repeat' first
    | with_reducible assumption
    | with_reducible refine Runs.next ?_
    | with_reducible refine logPage_keeps ?_

theorem execLogTailRecorder_runs {s0 : State} {x1 : HPort} {cid : BitVec 16} {lsp : BitVec 7} {ofst len : BitVec 32} {s : State} (h : Keeps s0 s) : Runs s0 (execLogTailRecorder x1 cid lsp ofst len s) := by
  unfold execLogTailRecorder
  repeat' first
    | with_reducible assumption
    | with_reducible refine Runs.next ?_
    | with_reducible refine logPage_keeps ?_

theorem execLogTetherStatus_runs {s0 : State} {x1 : HPort} {cid : BitVec 16} {ofst len : BitVec 32} {s : State} (h : Keeps s0 s) : Runs s0 (execLogTetherStatus x1 cid ofst len s) := by
  unfold execLogTetherStatus
  repeat' first
    | with_reducible assumption
    | with_reducible refine Runs.next ?_
    | with_reducible refine logPage_keeps ?_

theorem execLogThatchStatus_runs {s0 : State} {x1 : HPort} {cid : BitVec 16} {ofst len : BitVec 32} {s : State} (h : Keeps s0 s) : Runs s0 (execLogThatchStatus x1 cid ofst len s) := by
  unfold execLogThatchStatus
  repeat' first
    | with_reducible assumption
    | with_reducible refine Runs.next ?_
    | with_reducible refine logPage_keeps ?_

theorem execLogThermalStatus_runs {s0 : State} {x1 : HPort} {cid : BitVec 16} {ofst len : BitVec 32} {s : State} (h : Keeps s0 s) : Runs s0 (execLogThermalStatus x1 cid ofst len s) := by
  unfold execLogThermalStatus
  repeat' first
    | with_reducible assumption
    | with_reducible refine Runs.next ?_
    | with_reducible refine logPage_keeps ?_

theorem execLogTruss_runs {s0 : State} {x1 : HPort} {cid : BitVec 16} {ofst len : BitVec 32} {s : State} (h : Keeps s0 s) : Runs s0 (execLogTruss x1 cid ofst len s) := by
  unfold execLogTruss
  repeat' first
    | with_reducible assumption
    | with_reducible refine Runs.next ?_
    | with_reducible refine logPage_keeps ?_

theorem execLogUnitTable_runs {s0 : State} {x1 : HPort} {cid : BitVec 16} {ofst len : BitVec 32} {s : State} (h : Keeps s0 s) : Runs s0 (execLogUnitTable x1 cid ofst len s) := by
  unfold execLogUnitTable
  repeat' first
    | with_reducible assumption
    | with_reducible refine Runs.next ?_
    | with_reducible refine logPage_keeps ?_

theorem execLogUpdateRelay_runs {s0 : State} {x1 : HPort} {cid : BitVec 16} {ofst len : BitVec 32} {s : State} (h : Keeps s0 s) : Runs s0 (execLogUpdateRelay x1 cid ofst len s) := by
  unfold execLogUpdateRelay
  repeat' first
    | with_reducible assumption
    | with_reducible refine Runs.next ?_
    | with_reducible refine logPage_keeps ?_

theorem mbxBindWrite_keeps {s0 s : State} {m : Master} {c : Nat} {v : Word} (h : Keeps s0 s) : Keeps s0 (mbxBindWrite s m c v) := by
  unfold mbxBindWrite
  repeat' first
    | with_reducible assumption
    | (extract_lets +onlyGivenNames x; first | (refine Keeps.letS (a := x) ?_ fun hx => ?_; rotate_left; clear_value x; revert x; rotate_left; unfold x; clear x) | (try unfold x; clear x))
    | with_reducible refine fset_keeps ?_
    | with_reducible refine Keeps.ite ?_ ?_

theorem execMbxBindWrite_runs {s0 : State} {m : Master} {c : Fin 64} {value : Word} {s : State} (h : Keeps s0 s) : Runs s0 (execMbxBindWrite m c value s) := by
  unfold execMbxBindWrite
  repeat' first
    | with_reducible assumption
    | with_reducible refine Runs.next ?_
    | with_reducible refine mbxBindWrite_keeps ?_

theorem mbxStore_keeps {s0 s : State} {m : Master} {c o : Nat} {v : Word} (h : Keeps s0 s) : Keeps s0 (mbxStore s m c o v) := by
  unfold mbxStore
  repeat' first
    | with_reducible assumption
    | (extract_lets +onlyGivenNames x; first | (refine Keeps.letS (a := x) ?_ fun hx => ?_; rotate_left; clear_value x; revert x; rotate_left; unfold x; clear x) | (try unfold x; clear x))
    | intro _ _
    | with_reducible refine mbxPut_keeps ?_
    | with_reducible refine mbxChange_keeps (fun _ hy => ?_) ?_
    | with_reducible refine wr_keeps ?_
    | with_reducible refine mbxRing_keeps ?_
    | with_reducible refine fsetb_keeps ?_
    | with_reducible refine fset_keeps ?_
    | with_reducible refine Keeps.ite ?_ ?_

theorem mbxChWrite_keeps {s0 s : State} {m : Master} {c o : Nat} {v : Word} (h : Keeps s0 s) : Keeps s0 (mbxChWrite s m c o v) := by
  unfold mbxChWrite
  repeat' first
    | with_reducible assumption
    | with_reducible refine mbxStore_keeps ?_
    | with_reducible refine mbxViol_keeps ?_
    | with_reducible refine Keeps.ite ?_ ?_

theorem execMbxDataWrite_runs {s0 : State} {m : Master} {c : Fin 64} {w : Fin 16} {v : Word} {s : State} (h : Keeps s0 s) : Runs s0 (execMbxDataWrite m c w v s) := by
  unfold execMbxDataWrite
  repeat' first
    | with_reducible assumption
    | with_reducible refine Runs.next ?_
    | with_reducible refine mbxChWrite_keeps ?_

theorem execMbxDbClear_runs {s0 : State} {m : Master} {c : Fin 64} {bits : Word} {s : State} (h : Keeps s0 s) : Runs s0 (execMbxDbClear m c bits s) := by
  unfold execMbxDbClear
  repeat' first
    | with_reducible assumption
    | with_reducible refine Runs.next ?_
    | with_reducible refine mbxChWrite_keeps ?_

theorem execMbxDbSet_runs {s0 : State} {m : Master} {c : Fin 64} {bits : Word} {s : State} (h : Keeps s0 s) : Runs s0 (execMbxDbSet m c bits s) := by
  unfold execMbxDbSet
  repeat' first
    | with_reducible assumption
    | with_reducible refine Runs.next ?_
    | with_reducible refine mbxChWrite_keeps ?_

theorem mbxTake_keeps {s0 s : State} {c : Nat} {mopc : Nat → Bool} {f : State → Master → List Nat → State} (hf : ∀ y0 y1 y2, Keeps s0 y0 → Keeps s0 (f y0 y1 y2)) (h : Keeps s0 s) : Keeps s0 (mbxTake s c mopc f) := by
  unfold mbxTake
  repeat' first
    | with_reducible assumption
    | (extract_lets +onlyGivenNames x; first | (refine Keeps.letS (a := x) ?_ fun hx => ?_; rotate_left; clear_value x; revert x; rotate_left; unfold x; clear x) | (try unfold x; clear x))
    | intro _ _
    | with_reducible refine mbxChange_keeps (fun _ hy => ?_) ?_
    | with_reducible refine wbit_keeps ?_
    | with_reducible refine fsetb_keeps ?_
    | with_reducible refine hf _ _ _ ?_
    | with_reducible refine Keeps.ite ?_ ?_
    | split

theorem getVendor_keeps {s0 : State} {fid : Nat} {w : Word} {s : State} {x1 cid : Nat} (h : Keeps s0 s) : Keeps s0 (getVendor fid w s x1 cid) := by
  unfold getVendor
  repeat' first
    | with_reducible assumption
    | with_reducible refine getC0_keeps ?_
    | with_reducible refine getC1_keeps ?_
    | with_reducible refine getC2_keeps ?_
    | with_reducible refine getC8_keeps ?_
    | with_reducible refine getC9_keeps ?_
    | with_reducible refine getD0_keeps ?_
    | with_reducible refine getD1_keeps ?_
    | with_reducible refine getD2_keeps ?_
    | with_reducible refine getD3_keeps ?_
    | with_reducible refine getD4_keeps ?_
    | with_reducible refine getD5_keeps ?_
    | with_reducible refine getD8_keeps ?_
    | with_reducible refine getE0_keeps ?_
    | with_reducible refine getE8_keeps ?_
    | with_reducible refine getE9_keeps ?_
    | with_reducible refine getEA_keeps ?_
    | with_reducible refine getEE_keeps ?_
    | with_reducible refine invalidField_keeps ?_
    | split

theorem execMbxGetFeature_runs {s0 : State} {c : Fin 64} {s : State} (h : Keeps s0 s) : Runs s0 (execMbxGetFeature c s) := by
  unfold execMbxGetFeature
  repeat' first
    | with_reducible assumption
    | with_reducible refine Runs.next ?_
    | with_reducible refine mbxTake_keeps (fun _ _ _ hy => ?_) ?_
    | with_reducible refine getVendor_keeps ?_

theorem mbxReply_keeps {s0 s : State} {c : Nat} {b : List Nat} {status : Nat} {data : List Nat} (h : Keeps s0 s) : Keeps s0 (mbxReply s c b status data) := by
  unfold mbxReply
  repeat' first
    | with_reducible assumption
    | with_reducible refine mbxAnswer_keeps ?_

theorem execMbxInvalidCommand_runs {s0 : State} {c : Fin 64} {s : State} (h : Keeps s0 s) : Runs s0 (execMbxInvalidCommand c s) := by
  unfold execMbxInvalidCommand
  repeat' first
    | with_reducible assumption
    | with_reducible refine Runs.next ?_
    | with_reducible refine mbxTake_keeps (fun _ _ _ hy => ?_) ?_
    | with_reducible refine mbxReply_keeps ?_

theorem execMbxLock_runs {s0 : State} {m : Master} {s : State} (h : Keeps s0 s) : Runs s0 (execMbxLock m s) := by
  unfold execMbxLock
  repeat' first
    | with_reducible assumption
    | with_reducible refine Runs.next ?_
    | with_reducible refine regWrite_keeps (fun _ hy => ?_) ?_
    | with_reducible refine fsetb_keeps ?_

theorem execMbxLogRead_runs {s0 : State} {c : Fin 64} {s : State} (h : Keeps s0 s) : Runs s0 (execMbxLogRead c s) := by
  unfold execMbxLogRead
  repeat' first
    | with_reducible assumption
    | (extract_lets +onlyGivenNames x; first | (refine Keeps.letS (a := x) ?_ fun hx => ?_; rotate_left; clear_value x; revert x; rotate_left; unfold x; clear x) | (try unfold x; clear x))
    | with_reducible refine Runs.next ?_
    | with_reducible refine mbxTake_keeps (fun _ _ _ hy => ?_) ?_
    | with_reducible refine mbxReply_keeps ?_
    | with_reducible refine Keeps.ite ?_ ?_
    | split

theorem execMbxPartyRst_runs {s0 : State} {m : Master} {s : State} (h : Keeps s0 s) : Runs s0 (execMbxPartyRst m s) := by
  unfold execMbxPartyRst
  repeat' first
    | with_reducible assumption
    | with_reducible refine Runs.next ?_
    | with_reducible refine partyReset_keeps ?_

theorem qcsRead_keeps {s0 : State} {m : Master} {a : Nat → Nat} {is : List Nat} {r : List Nat × State} (h : Keeps s0 r.2) :
    Keeps s0 (is.foldl (fun r i =>
      let x := fetchWord r.2 m (a i)
      (r.1 ++ leBytes 4 x.1.toNat, x.2)) r).2 := by
  induction is generalizing r with
  | nil => exact h
  | cons i is ih => exact ih (fetchWord_keeps h)

theorem execMbxQcsRead_runs {s0 s : State} {c : Fin 64} (h : Keeps s0 s) : Runs s0 (execMbxQcsRead c s) := by
  unfold execMbxQcsRead
  refine Runs.next (mbxTake_keeps (fun t m b ht => ?_) h)
  exact Keeps.ite (mbxReply_keeps ht) (Keeps.ite (mbxReply_keeps ht) (mbxReply_keeps (qcsRead_keeps ht)))

theorem writeTrs_keeps {s0 s : State} {m : Master} {a : Nat} {v : Word} (h : Keeps s0 s) : Keeps s0 (writeTrs s m a v) := by
  unfold writeTrs
  repeat' first
    | with_reducible assumption
    | (extract_lets +onlyGivenNames x; first | (refine Keeps.letS (a := x) ?_ fun hx => ?_; rotate_left; clear_value x; revert x; rotate_left; unfold x; clear x) | (try unfold x; clear x))
    | intro _ _
    | with_reducible refine loaderCmd_keeps ?_
    | with_reducible refine fset_keeps ?_
    | with_reducible refine wbit_keeps ?_
    | with_reducible refine wr_keeps ?_
    | with_reducible refine fsetb_keeps ?_
    | with_reducible refine releaseFence_keeps ?_
    | with_reducible refine commonWrite_keeps ?_
    | with_reducible refine Keeps.ite ?_ ?_

theorem writePwr_keeps {s0 s : State} {a : Nat} {v : Word} (h : Keeps s0 s) : Keeps s0 (writePwr s a v) := by
  unfold writePwr
  repeat' first
    | with_reducible assumption
    | (extract_lets +onlyGivenNames x; first | (refine Keeps.letS (a := x) ?_ fun hx => ?_; rotate_left; clear_value x; revert x; rotate_left; unfold x; clear x) | (try unfold x; clear x))
    | with_reducible refine setForce_keeps ?_
    | with_reducible refine deviceReset_keeps ?_
    | with_reducible refine holdWrite_keeps ?_
    | with_reducible refine wr_keeps ?_
    | with_reducible refine commonWrite_keeps ?_
    | with_reducible refine Keeps.ite ?_ ?_

theorem tailCtrlWrite_keeps {s0 s : State} {r : Nat} {freeze clr : Bool} (h : Keeps s0 s) : Keeps s0 (tailCtrlWrite s r freeze clr) := by
  unfold tailCtrlWrite
  repeat' first
    | with_reducible assumption
    | with_reducible refine fsetb_keeps ?_
    | with_reducible refine tailClear_keeps ?_
    | with_reducible refine Keeps.ite ?_ ?_

theorem writeMbx_keeps {s0 s : State} {m : Master} {a : Nat} {v : Word} (h : Keeps s0 s) : Keeps s0 (writeMbx s m a v) := by
  unfold writeMbx
  repeat' first
    | with_reducible assumption
    | with_reducible refine mbxChWrite_keeps ?_
    | with_reducible refine mbxBindWrite_keeps ?_
    | with_reducible refine partyReset_keeps ?_
    | with_reducible refine commonWrite_keeps ?_
    | with_reducible refine Keeps.ite ?_ ?_
    | split

theorem writeFls_keeps {s0 s : State} {m : Master} {a : Nat} {v : Word} (h : Keeps s0 s) : Keeps s0 (writeFls s m a v) := by
  unfold writeFls
  repeat' first
    | with_reducible assumption
    | (extract_lets +onlyGivenNames x; first | (refine Keeps.letS (a := x) ?_ fun hx => ?_; rotate_left; clear_value x; revert x; rotate_left; unfold x; clear x) | (try unfold x; clear x))
    | with_reducible refine flsCmdWrite_keeps ?_
    | with_reducible refine commonWrite_keeps ?_
    | with_reducible refine Keeps.ite ?_ ?_
    | with_reducible refine Keeps.upd ?_ rfl rfl rfl

theorem writeBgw_keeps {s0 s : State} {a : Nat} {v : Word} (h : Keeps s0 s) : Keeps s0 (writeBgw s a v) := by
  unfold writeBgw
  repeat' first
    | with_reducible assumption
    | with_reducible refine calqWrite_keeps ?_
    | with_reducible refine taskSync_keeps ?_
    | with_reducible refine commonWrite_keeps ?_
    | with_reducible refine Keeps.ite ?_ ?_

theorem writePrt_keeps {s0 s : State} {a : Nat} {v : Word} (h : Keeps s0 s) : Keeps s0 (writePrt s a v) := by
  unfold writePrt
  repeat' first
    | with_reducible assumption
    | (extract_lets +onlyGivenNames x; first | (refine Keeps.letS (a := x) ?_ fun hx => ?_; rotate_left; clear_value x; revert x; rotate_left; unfold x; clear x) | (try unfold x; clear x))
    | intro _ _
    | with_reducible refine commonWrite_keeps ?_
    | with_reducible refine mirrorLost_keeps ?_
    | with_reducible refine hoRequest_keeps ?_
    | with_reducible refine Keeps.ite ?_ ?_

theorem writeCch_keeps {s0 s : State} {a : Nat} {v : Word} (h : Keeps s0 s) : Keeps s0 (writeCch s a v) := by
  unfold writeCch
  repeat' first
    | with_reducible assumption
    | (extract_lets +onlyGivenNames x; first | (refine Keeps.letS (a := x) ?_ fun hx => ?_; rotate_left; clear_value x; revert x; rotate_left; unfold x; clear x) | (try unfold x; clear x))
    | intro _ _
    | with_reducible refine cacheInvalidate_keeps ?_
    | with_reducible refine fset_keeps ?_
    | with_reducible refine cacheEnable_keeps ?_
    | with_reducible refine cacheDisable_keeps ?_
    | with_reducible refine commonWrite_keeps ?_
    | with_reducible refine Keeps.ite ?_ ?_

theorem writeMep_keeps {s0 s : State} {m : Master} {a : Nat} {v : Word} (h : Keeps s0 s) : Keeps s0 (writeMep s m a v) := by
  unfold writeMep
  repeat' first
    | with_reducible assumption
    | (extract_lets +onlyGivenNames x; first | (refine Keeps.letS (a := x) ?_ fun hx => ?_; rotate_left; clear_value x; revert x; rotate_left; unfold x; clear x) | (try unfold x; clear x))
    | intro _ _
    | with_reducible refine wr_keeps ?_
    | with_reducible refine writeFlipCtrl_keeps ?_
    | with_reducible refine commonWrite_keeps ?_
    | with_reducible refine retireStart_keeps ?_
    | with_reducible refine celogClear_keeps ?_
    | with_reducible refine celogFree_keeps ?_
    | with_reducible refine Keeps.ite ?_ ?_

theorem writeTth_keeps {s0 s : State} {p a : Nat} {v : Word} (h : Keeps s0 s) : Keeps s0 (writeTth s p a v) := by
  unfold writeTth
  repeat' first
    | with_reducible assumption
    | (extract_lets +onlyGivenNames x; first | (refine Keeps.letS (a := x) ?_ fun hx => ?_; rotate_left; clear_value x; revert x; rotate_left; unfold x; clear x) | (try unfold x; clear x))
    | intro _ _
    | with_reducible refine tthClear_keeps ?_
    | with_reducible refine fset_keeps ?_
    | with_reducible refine phyChanged_keeps ?_
    | with_reducible refine fsetb_keeps ?_
    | with_reducible refine portEnable_keeps ?_
    | with_reducible refine portDisable_keeps ?_
    | with_reducible refine portRetrain_keeps ?_
    | with_reducible refine setWdog_keeps ?_
    | with_reducible refine tokenWrite_keeps ?_
    | with_reducible refine commonWrite_keeps ?_
    | with_reducible refine emit_keeps ?_
    | with_reducible refine tsbExpert_keeps ?_
    | with_reducible refine Keeps.ite ?_ ?_

theorem writeRetry_keeps {s0 s : State} {n l : Nat} {v : Word} (h : Keeps s0 s) : Keeps s0 (writeRetry s n l v) := by
  unfold writeRetry
  repeat' first
    | with_reducible assumption
    | with_reducible refine retryGo_keeps ?_
    | with_reducible refine commonWrite_keeps ?_
    | with_reducible refine Keeps.ite ?_ ?_

theorem writePin_keeps {s0 s : State} {n l i : Nat} {v : Word} (h : Keeps s0 s) : Keeps s0 (writePin s n l i v) := by
  unfold writePin
  repeat' first
    | with_reducible assumption
    | (extract_lets +onlyGivenNames x; first | (refine Keeps.letS (a := x) ?_ fun hx => ?_; rotate_left; clear_value x; revert x; rotate_left; unfold x; clear x) | (try unfold x; clear x))
    | intro _ _
    | with_reducible refine settleDet_keeps ?_
    | with_reducible refine endPin_keeps ?_
    | with_reducible refine makePin_keeps ?_
    | with_reducible refine fset_keeps ?_
    | with_reducible refine Keeps.ite ?_ ?_

theorem writeAct_keeps {s0 s : State} {m : Master} {n a : Nat} {v : Word} (h : Keeps s0 s) : Keeps s0 (writeAct s m n a v) := by
  unfold writeAct
  repeat' first
    | with_reducible assumption
    | with_reducible refine writeRetry_keeps ?_
    | with_reducible refine writePin_keeps ?_
    | with_reducible refine noRewrites_keeps ?_
    | with_reducible refine syncSw_keeps ?_
    | with_reducible refine fset_keeps ?_
    | with_reducible refine portRefs_keeps ?_
    | with_reducible refine sync5_keeps ?_
    | with_reducible refine syncFollow_keeps ?_
    | with_reducible refine commonWrite_keeps ?_
    | with_reducible refine clusterDemand_keeps ?_
    | with_reducible refine Keeps.ite ?_ ?_
    | split

theorem writeBrd_keeps {s0 s : State} {m : Master} {e a : Nat} {v : Word} (h : Keeps s0 s) : Keeps s0 (writeBrd s m e a v) := by
  unfold writeBrd
  repeat' first
    | with_reducible assumption
    | (extract_lets +onlyGivenNames x; first | (refine Keeps.letS (a := x) ?_ fun hx => ?_; rotate_left; clear_value x; revert x; rotate_left; unfold x; clear x) | (try unfold x; clear x))
    | intro _ _
    | with_reducible refine switchGo_keeps ?_
    | with_reducible refine fset_keeps ?_
    | with_reducible refine after_keeps ?_
    | with_reducible refine execSlotModeWrite_runs ?_
    | with_reducible refine commonWrite_keeps ?_
    | with_reducible refine feClear_keeps ?_
    | with_reducible refine execLiveCoefWrite_runs ?_
    | with_reducible refine Keeps.ite ?_ ?_

theorem writeSpnCtrl_keeps {s0 s : State} {p : Nat} {v : Word} (h : Keeps s0 s) : Keeps s0 (writeSpnCtrl s p v) := by
  unfold writeSpnCtrl
  repeat' first
    | with_reducible assumption
    | (extract_lets +onlyGivenNames x; first | (refine Keeps.letS (a := x) ?_ fun hx => ?_; rotate_left; clear_value x; revert x; rotate_left; unfold x; clear x) | (try unfold x; clear x))
    | intro _ _
    | with_reducible refine fset_keeps ?_
    | with_reducible refine fsetb_keeps ?_
    | with_reducible refine holdRequest_keeps ?_
    | with_reducible refine askRun_keeps ?_
    | with_reducible refine askStop_keeps ?_
    | with_reducible refine Keeps.ite ?_ ?_

theorem writeSpn_keeps {s0 s : State} {p a : Nat} {v : Word} (h : Keeps s0 s) : Keeps s0 (writeSpn s p a v) := by
  unfold writeSpn
  repeat' first
    | with_reducible assumption
    | (extract_lets +onlyGivenNames x; first | (refine Keeps.letS (a := x) ?_ fun hx => ?_; rotate_left; clear_value x; revert x; rotate_left; unfold x; clear x) | (try unfold x; clear x))
    | intro _ _
    | with_reducible refine writeSpnCtrl_keeps ?_
    | with_reducible refine fset_keeps ?_
    | with_reducible refine fsetb_keeps ?_
    | with_reducible refine sync5_keeps ?_
    | with_reducible refine commonWrite_keeps ?_
    | with_reducible refine calStart_keeps ?_
    | with_reducible refine Keeps.ite ?_ ?_

theorem writeZmp_keeps {s0 s : State} {m : Master} {a : Nat} {v : Word} (h : Keeps s0 s) : Keeps s0 (writeZmp s m a v) := by
  unfold writeZmp
  repeat' first
    | with_reducible assumption
    | with_reducible refine after_keeps ?_
    | with_reducible refine execZoneLocateGo_runs ?_
    | with_reducible refine execCtxSelect_runs ?_
    | with_reducible refine commonWrite_keeps ?_
    | with_reducible refine Keeps.ite ?_ ?_

theorem writeTht_keeps {s0 s : State} {t1 a : Nat} {v : Word} (h : Keeps s0 s) : Keeps s0 (writeTht s t1 a v) := by
  unfold writeTht
  repeat' first
    | with_reducible assumption
    | (extract_lets +onlyGivenNames x; first | (refine Keeps.letS (a := x) ?_ fun hx => ?_; rotate_left; clear_value x; revert x; rotate_left; unfold x; clear x) | (try unfold x; clear x))
    | intro _ _
    | with_reducible refine rebuildEnd_keeps ?_
    | with_reducible refine wrN_keeps ?_
    | with_reducible refine rebuildStart_keeps ?_
    | with_reducible refine fset_keeps ?_
    | with_reducible refine commonWrite_keeps ?_
    | with_reducible refine Keeps.ite ?_ ?_

theorem writeMcs_keeps {s0 s : State} {m : Master} {a : Nat} {v : Word} (h : Keeps s0 s) : Keeps s0 (writeMcs s m a v) := by
  unfold writeMcs
  repeat' first
    | with_reducible assumption
    | with_reducible refine commonWrite_keeps ?_
    | with_reducible refine after_keeps ?_
    | with_reducible refine execZmapWrite_runs ?_
    | with_reducible refine execZHaltWrite_runs ?_
    | with_reducible refine execFHaltWrite_runs ?_
    | with_reducible refine execMatchRegisterWrite_runs ?_
    | with_reducible refine execPatchRamWrite_runs ?_
    | with_reducible refine execSequencerRestart_runs ?_
    | with_reducible refine Keeps.ite ?_ ?_
    | split

theorem storeWord_keeps {s0 s : State} {m : Master} {a : Nat} {v : Word} (h : Keeps s0 s) : Keeps s0 (storeWord s m a v) := by
  unfold storeWord
  repeat' first
    | with_reducible assumption
    | with_reducible refine writeXclaim_keeps ?_
    | with_reducible refine claimsFreed_keeps ?_
    | with_reducible refine writeTrs_keeps ?_
    | with_reducible refine writePwr_keeps ?_
    | with_reducible refine commonWrite_keeps ?_
    | with_reducible refine pendClear_keeps ?_
    | with_reducible refine tailCtrlWrite_keeps ?_
    | with_reducible refine writeMbx_keeps ?_
    | with_reducible refine writeFls_keeps ?_
    | with_reducible refine writeBgw_keeps ?_
    | with_reducible refine writePrt_keeps ?_
    | with_reducible refine writeCch_keeps ?_
    | with_reducible refine writeMep_keeps ?_
    | with_reducible refine writeTth_keeps ?_
    | with_reducible refine writeAct_keeps ?_
    | with_reducible refine writeBrd_keeps ?_
    | with_reducible refine writeSpn_keeps ?_
    | with_reducible refine writeZmp_keeps ?_
    | with_reducible refine writeTht_keeps ?_
    | with_reducible refine writeMcs_keeps ?_
    | with_reducible refine Keeps.ite ?_ ?_
    | split

theorem execMbxQcsWrite_runs {s0 : State} {c : Fin 64} {s : State} (h : Keeps s0 s) : Runs s0 (execMbxQcsWrite c s) := by
  unfold execMbxQcsWrite
  repeat' first
    | with_reducible assumption
    | (extract_lets +onlyGivenNames x; first | (refine Keeps.letS (a := x) ?_ fun hx => ?_; rotate_left; clear_value x; revert x; rotate_left; unfold x; clear x) | (try unfold x; clear x))
    | intro _ _
    | with_reducible refine Runs.next ?_
    | with_reducible refine mbxTake_keeps (fun _ _ _ hy => ?_) ?_
    | with_reducible refine mbxReply_keeps ?_
    | with_reducible refine Keeps.forAll ?_ fun _ _ hy => ?_
    | with_reducible refine undefinedAccess_keeps ?_
    | with_reducible refine storeWord_keeps ?_
    | with_reducible refine dropLatch_keeps ?_
    | with_reducible refine Keeps.ite ?_ ?_

theorem setVendor_keeps {s0 : State} {fid : Nat} {w v : Word} {s : State} {x1 cid : Nat} (h : Keeps s0 s) : Keeps s0 (setVendor fid w v s x1 cid) := by
  unfold setVendor
  repeat' first
    | with_reducible assumption
    | with_reducible refine setC0_keeps ?_
    | with_reducible refine setC1_keeps ?_
    | with_reducible refine setC2_keeps ?_
    | with_reducible refine setC8_keeps ?_
    | with_reducible refine setC9_keeps ?_
    | with_reducible refine setD0_keeps ?_
    | with_reducible refine setD1_keeps ?_
    | with_reducible refine setD2_keeps ?_
    | with_reducible refine setD3_keeps ?_
    | with_reducible refine setD4_keeps ?_
    | with_reducible refine setD5_keeps ?_
    | with_reducible refine setD8_keeps ?_
    | with_reducible refine setE0_keeps ?_
    | with_reducible refine setE8_keeps ?_
    | with_reducible refine setE9_keeps ?_
    | with_reducible refine setEA_keeps ?_
    | with_reducible refine setEE_keeps ?_
    | with_reducible refine invalidField_keeps ?_
    | split

theorem execMbxSetFeature_runs {s0 : State} {c : Fin 64} {s : State} (h : Keeps s0 s) : Runs s0 (execMbxSetFeature c s) := by
  unfold execMbxSetFeature
  repeat' first
    | with_reducible assumption
    | with_reducible refine Runs.next ?_
    | with_reducible refine mbxTake_keeps (fun _ _ _ hy => ?_) ?_
    | with_reducible refine setVendor_keeps ?_

theorem mctpRead_keeps {s0 s : State} {ofst n : Nat} (h : Keeps s0 s) : Keeps s0 (mctpRead s ofst n).2 := by
  unfold mctpRead
  suffices g : ∀ (is : List Nat) (r : List Word × State), Keeps s0 r.2 → Keeps s0 (is.foldl (fun r i =>
      let x := fetchWord r.2 .bmc (baseMBX + ofst + 4 * i)
      (r.1 ++ [x.1], x.2)) r).2 from g _ _ h
  intro is
  induction is with
  | nil => exact fun _ hr => hr
  | cons i is ih => exact fun r hr => ih _ (fetchWord_keeps hr)

theorem writeWord_keeps {s0 s : State} {m : Master} {a : Nat} {v : Word} (h : Keeps s0 s) : Keeps s0 (writeWord s m a v) :=
  Keeps.ite (undefEnd_keeps h) (storeWord_keeps (dropLatch_keeps h))

theorem mctpMessage_keeps {s0 s : State} {msg : List Byte} (h : Keeps s0 s) : Keeps s0 (mctpMessage s msg) := by
  simp only [mctpMessage]
  refine Keeps.ite (emit_keeps h) (Keeps.ite (emit_keeps h) (Keeps.ite (emit_keeps h) (Keeps.ite (Keeps.ite ?_ ?_) (Keeps.ite ?_ ?_))))
  · exact emit_keeps (mctpRead_keeps h)
  · exact emit_keeps (mbxViol_keeps h)
  · exact emit_keeps (Keeps.forAll h fun _ _ ht => writeWord_keeps ht)
  · exact emit_keeps (mbxViol_keeps h)

theorem execMctpMbxRead_runs {s0 : State} {msg : List Byte} {s : State} (h : Keeps s0 s) : Runs s0 (execMctpMbxRead msg s) := by
  unfold execMctpMbxRead
  repeat' first
    | with_reducible assumption
    | with_reducible refine Runs.next ?_
    | with_reducible refine mctpMessage_keeps ?_
    | with_reducible refine Keeps.ite ?_ ?_

theorem execMctpMbxWrite_runs {s0 : State} {msg : List Byte} {s : State} (h : Keeps s0 s) : Runs s0 (execMctpMbxWrite msg s) := by
  unfold execMctpMbxWrite
  repeat' first
    | with_reducible assumption
    | with_reducible refine Runs.next ?_
    | with_reducible refine mctpMessage_keeps ?_
    | with_reducible refine Keeps.ite ?_ ?_

theorem execRegisterWrite_runs {s0 : State} {m : Master} {addr : Nat} {width : Width} {value : BitVec 64} {s : State} (h : Keeps s0 s) : Runs s0 (execRegisterWrite m addr width value s) := by
  unfold execRegisterWrite
  repeat' first
    | with_reducible assumption
    | with_reducible refine Runs.next ?_
    | with_reducible refine undefAccess_keeps ?_
    | with_reducible refine writeWord_keeps ?_
    | with_reducible refine Keeps.ite ?_ ?_
    | split

theorem stepEnd_keeps {s0 s : State} {ok : Bool} (h : Keeps s0 s) : Keeps s0 (stepEnd s ok) := by
  unfold stepEnd
  repeat' first
    | with_reducible assumption
    | (extract_lets +onlyGivenNames x; first | (refine Keeps.letS (a := x) ?_ fun hx => ?_; rotate_left; clear_value x; revert x; rotate_left; unfold x; clear x) | (try unfold x; clear x))
    | with_reducible refine selfTestEnd_keeps ?_
    | with_reducible refine testStep_keeps ?_
    | with_reducible refine Keeps.ite ?_ ?_

theorem stepEffect_keeps {s0 s : State} {ok ce : Bool} (h : Keeps s0 s) : Keeps s0 (stepEffect s ok ce) := by
  unfold stepEffect
  split
  · exact Keeps.forAll h fun _ _ hy => by with_reducible exact flipTest_keeps (flipTest_keeps hy)
  · exact flashCheck_keeps h
  · exact h

theorem execSelfTestStepDone_runs {s0 : State} {ok ce : Bool} {s : State} (h : Keeps s0 s) : Runs s0 (execSelfTestStepDone ok ce s) := by
  unfold execSelfTestStepDone
  repeat' first
    | with_reducible assumption
    | with_reducible refine Runs.next ?_
    | with_reducible refine stepEnd_keeps ?_
    | with_reducible refine dropVerify_keeps ?_
    | with_reducible refine stepEffect_keeps ?_
    | with_reducible refine Keeps.ite ?_ ?_

theorem execSmbusAlertResponse_runs {s0 s : State} (h : Keeps s0 s) : Runs s0 (execSmbusAlertResponse s) := by
  unfold execSmbusAlertResponse
  repeat' first
    | with_reducible assumption
    | with_reducible refine Runs.next ?_
    | with_reducible refine emit_keeps ?_
    | with_reducible refine drawn_keeps ?_
    | with_reducible refine Keeps.ite ?_ ?_

theorem execSmbusClockLowReset_runs {s0 s : State} (h : Keeps s0 s) : Runs s0 (execSmbusClockLowReset s) := by
  unfold execSmbusClockLowReset
  repeat' first
    | with_reducible assumption
    | with_reducible refine Runs.next ?_
    | with_reducible refine partyReset_keeps ?_

theorem execTailClear_runs {s0 : State} {m : Master} {r : Fin 8} {freeze : Bool} {s : State} (h : Keeps s0 s) : Runs s0 (execTailClear m r freeze s) := by
  unfold execTailClear
  repeat' first
    | with_reducible assumption
    | with_reducible refine Runs.next ?_
    | with_reducible refine regWrite_keeps (fun _ hy => ?_) ?_
    | with_reducible refine tailCtrlWrite_keeps ?_

theorem execTailFreezeWrite_runs {s0 : State} {m : Master} {r : Fin 8} {v : Bool} {s : State} (h : Keeps s0 s) : Runs s0 (execTailFreezeWrite m r v s) := by
  unfold execTailFreezeWrite
  repeat' first
    | with_reducible assumption
    | with_reducible refine Runs.next ?_
    | with_reducible refine regWrite_keeps (fun _ hy => ?_) ?_
    | with_reducible refine tailCtrlWrite_keeps ?_

theorem execVbandChange_runs {s0 : State} {band : Fin 3} {s : State} (h : Keeps s0 s) : Runs s0 (execVbandChange band s) := by
  unfold execVbandChange
  repeat' first
    | with_reducible assumption
    | (extract_lets +onlyGivenNames x; first | (refine Keeps.letS (a := x) ?_ fun hx => ?_; rotate_left; clear_value x; revert x; rotate_left; unfold x; clear x) | (try unfold x; clear x))
    | with_reducible refine Runs.next ?_
    | with_reducible refine fset_keeps ?_
    | with_reducible refine setFls_keeps ?_
    | with_reducible refine wsFollow_keeps ?_
    | with_reducible refine Keeps.ite ?_ ?_

end Sys2Proof.Machine
end

