-- ==== Sys2Proof/Laws/State.lean ====
section
/-! SUPPORT. One lemma for each field of the state and each basic update: what the update leaves in the field. -/
set_option Elab.async false
namespace Sys2Proof.Machine
open Sys2Proof

/-! ### Basic updates -/

@[simp] theorem wr_latches (s : State) (a : Nat) (w : Word) : (wr s a w).latches = s.latches := (rfl)
@[simp] theorem wr_out (s : State) (a : Nat) (w : Word) : (wr s a w).out = s.out := (rfl)
@[simp] theorem wr_free (s : State) (a : Nat) (w : Word) : (wr s a w).free = s.free := (rfl)
@[simp] theorem wr_evt (s : State) (a : Nat) (w : Word) : (wr s a w).evt = s.evt := (rfl)
@[simp] theorem wr_trs (s : State) (a : Nat) (w : Word) : (wr s a w).trs = s.trs := (rfl)
@[simp] theorem wr_units (s : State) (a : Nat) (w : Word) : (wr s a w).units = s.units := (rfl)
@[simp] theorem wr_tth (s : State) (a : Nat) (w : Word) : (wr s a w).tth = s.tth := (rfl)
@[simp] theorem wr_fe (s : State) (a : Nat) (w : Word) : (wr s a w).fe = s.fe := (rfl)
@[simp] theorem wr_zmp (s : State) (a : Nat) (w : Word) : (wr s a w).zmp = s.zmp := (rfl)
@[simp] theorem wr_host (s : State) (a : Nat) (w : Word) : (wr s a w).host = s.host := (rfl)
@[simp] theorem wr_pwr (s : State) (a : Nat) (w : Word) : (wr s a w).pwr = s.pwr := (rfl)
@[simp] theorem wr_fls (s : State) (a : Nat) (w : Word) : (wr s a w).fls = s.fls := (rfl)
@[simp] theorem wr_prt (s : State) (a : Nat) (w : Word) : (wr s a w).prt = s.prt := (rfl)
@[simp] theorem wr_bgw (s : State) (a : Nat) (w : Word) : (wr s a w).bgw = s.bgw := (rfl)
@[simp] theorem wr_det (s : State) (a : Nat) (w : Word) : (wr s a w).det = s.det := (rfl)
@[simp] theorem wr_lanes (s : State) (a : Nat) (w : Word) : (wr s a w).lanes = s.lanes := (rfl)
@[simp] theorem wr_slices (s : State) (a : Nat) (w : Word) : (wr s a w).slices = s.slices := (rfl)
@[simp] theorem wr_slots (s : State) (a : Nat) (w : Word) : (wr s a w).slots = s.slots := (rfl)
@[simp] theorem wr_engines (s : State) (a : Nat) (w : Word) : (wr s a w).engines = s.engines := (rfl)
@[simp] theorem wr_spn (s : State) (a : Nat) (w : Word) : (wr s a w).spn = s.spn := (rfl)
@[simp] theorem wr_shelf (s : State) (a : Nat) (w : Word) : (wr s a w).shelf = s.shelf := (rfl)
@[simp] theorem wr_bal (s : State) (a : Nat) (w : Word) : (wr s a w).bal = s.bal := (rfl)
@[simp] theorem wr_cch (s : State) (a : Nat) (w : Word) : (wr s a w).cch = s.cch := (rfl)
@[simp] theorem wr_mem (s : State) (a : Nat) (w : Word) : (wr s a w).mem = s.mem := (rfl)
@[simp] theorem wr_mcs (s : State) (a : Nat) (w : Word) : (wr s a w).mcs = s.mcs := (rfl)
@[simp] theorem wr_pending (s : State) (a : Nat) (w : Word) : (wr s a w).pending = s.pending := (rfl)
@[simp] theorem wrN_latches (s : State) (a n : Nat) : (wrN s a n).latches = s.latches := (rfl)
@[simp] theorem wrN_out (s : State) (a n : Nat) : (wrN s a n).out = s.out := (rfl)
@[simp] theorem wrN_free (s : State) (a n : Nat) : (wrN s a n).free = s.free := (rfl)
@[simp] theorem wrN_evt (s : State) (a n : Nat) : (wrN s a n).evt = s.evt := (rfl)
@[simp] theorem wrN_trs (s : State) (a n : Nat) : (wrN s a n).trs = s.trs := (rfl)
@[simp] theorem wrN_units (s : State) (a n : Nat) : (wrN s a n).units = s.units := (rfl)
@[simp] theorem wrN_tth (s : State) (a n : Nat) : (wrN s a n).tth = s.tth := (rfl)
@[simp] theorem wrN_fe (s : State) (a n : Nat) : (wrN s a n).fe = s.fe := (rfl)
@[simp] theorem wrN_zmp (s : State) (a n : Nat) : (wrN s a n).zmp = s.zmp := (rfl)
@[simp] theorem wrN_host (s : State) (a n : Nat) : (wrN s a n).host = s.host := (rfl)
@[simp] theorem wrN_pwr (s : State) (a n : Nat) : (wrN s a n).pwr = s.pwr := (rfl)
@[simp] theorem wrN_fls (s : State) (a n : Nat) : (wrN s a n).fls = s.fls := (rfl)
@[simp] theorem wrN_prt (s : State) (a n : Nat) : (wrN s a n).prt = s.prt := (rfl)
@[simp] theorem wrN_bgw (s : State) (a n : Nat) : (wrN s a n).bgw = s.bgw := (rfl)
@[simp] theorem wrN_det (s : State) (a n : Nat) : (wrN s a n).det = s.det := (rfl)
@[simp] theorem wrN_lanes (s : State) (a n : Nat) : (wrN s a n).lanes = s.lanes := (rfl)
@[simp] theorem wrN_slices (s : State) (a n : Nat) : (wrN s a n).slices = s.slices := (rfl)
@[simp] theorem wrN_slots (s : State) (a n : Nat) : (wrN s a n).slots = s.slots := (rfl)
@[simp] theorem wrN_engines (s : State) (a n : Nat) : (wrN s a n).engines = s.engines := (rfl)
@[simp] theorem wrN_spn (s : State) (a n : Nat) : (wrN s a n).spn = s.spn := (rfl)
@[simp] theorem wrN_shelf (s : State) (a n : Nat) : (wrN s a n).shelf = s.shelf := (rfl)
@[simp] theorem wrN_bal (s : State) (a n : Nat) : (wrN s a n).bal = s.bal := (rfl)
@[simp] theorem wrN_cch (s : State) (a n : Nat) : (wrN s a n).cch = s.cch := (rfl)
@[simp] theorem wrN_mem (s : State) (a n : Nat) : (wrN s a n).mem = s.mem := (rfl)
@[simp] theorem wrN_mcs (s : State) (a n : Nat) : (wrN s a n).mcs = s.mcs := (rfl)
@[simp] theorem wrN_pending (s : State) (a n : Nat) : (wrN s a n).pending = s.pending := (rfl)
@[simp] theorem fset_latches (s : State) (a : Nat) (f : Fld) (v : Nat) : (fset s a f v).latches = s.latches := (rfl)
@[simp] theorem fset_out (s : State) (a : Nat) (f : Fld) (v : Nat) : (fset s a f v).out = s.out := (rfl)
@[simp] theorem fset_free (s : State) (a : Nat) (f : Fld) (v : Nat) : (fset s a f v).free = s.free := (rfl)
@[simp] theorem fset_evt (s : State) (a : Nat) (f : Fld) (v : Nat) : (fset s a f v).evt = s.evt := (rfl)
@[simp] theorem fset_trs (s : State) (a : Nat) (f : Fld) (v : Nat) : (fset s a f v).trs = s.trs := (rfl)
@[simp] theorem fset_units (s : State) (a : Nat) (f : Fld) (v : Nat) : (fset s a f v).units = s.units := (rfl)
@[simp] theorem fset_tth (s : State) (a : Nat) (f : Fld) (v : Nat) : (fset s a f v).tth = s.tth := (rfl)
@[simp] theorem fset_fe (s : State) (a : Nat) (f : Fld) (v : Nat) : (fset s a f v).fe = s.fe := (rfl)
@[simp] theorem fset_zmp (s : State) (a : Nat) (f : Fld) (v : Nat) : (fset s a f v).zmp = s.zmp := (rfl)
@[simp] theorem fset_host (s : State) (a : Nat) (f : Fld) (v : Nat) : (fset s a f v).host = s.host := (rfl)
@[simp] theorem fset_pwr (s : State) (a : Nat) (f : Fld) (v : Nat) : (fset s a f v).pwr = s.pwr := (rfl)
@[simp] theorem fset_fls (s : State) (a : Nat) (f : Fld) (v : Nat) : (fset s a f v).fls = s.fls := (rfl)
@[simp] theorem fset_prt (s : State) (a : Nat) (f : Fld) (v : Nat) : (fset s a f v).prt = s.prt := (rfl)
@[simp] theorem fset_bgw (s : State) (a : Nat) (f : Fld) (v : Nat) : (fset s a f v).bgw = s.bgw := (rfl)
@[simp] theorem fset_det (s : State) (a : Nat) (f : Fld) (v : Nat) : (fset s a f v).det = s.det := (rfl)
@[simp] theorem fset_lanes (s : State) (a : Nat) (f : Fld) (v : Nat) : (fset s a f v).lanes = s.lanes := (rfl)
@[simp] theorem fset_slices (s : State) (a : Nat) (f : Fld) (v : Nat) : (fset s a f v).slices = s.slices := (rfl)
@[simp] theorem fset_slots (s : State) (a : Nat) (f : Fld) (v : Nat) : (fset s a f v).slots = s.slots := (rfl)
@[simp] theorem fset_engines (s : State) (a : Nat) (f : Fld) (v : Nat) : (fset s a f v).engines = s.engines := (rfl)
@[simp] theorem fset_spn (s : State) (a : Nat) (f : Fld) (v : Nat) : (fset s a f v).spn = s.spn := (rfl)
@[simp] theorem fset_shelf (s : State) (a : Nat) (f : Fld) (v : Nat) : (fset s a f v).shelf = s.shelf := (rfl)
@[simp] theorem fset_bal (s : State) (a : Nat) (f : Fld) (v : Nat) : (fset s a f v).bal = s.bal := (rfl)
@[simp] theorem fset_cch (s : State) (a : Nat) (f : Fld) (v : Nat) : (fset s a f v).cch = s.cch := (rfl)
@[simp] theorem fset_mem (s : State) (a : Nat) (f : Fld) (v : Nat) : (fset s a f v).mem = s.mem := (rfl)
@[simp] theorem fset_mcs (s : State) (a : Nat) (f : Fld) (v : Nat) : (fset s a f v).mcs = s.mcs := (rfl)
@[simp] theorem fset_pending (s : State) (a : Nat) (f : Fld) (v : Nat) : (fset s a f v).pending = s.pending := (rfl)
@[simp] theorem fsetb_latches (s : State) (a : Nat) (f : Fld) (b : Bool) : (fsetb s a f b).latches = s.latches := (rfl)
@[simp] theorem fsetb_out (s : State) (a : Nat) (f : Fld) (b : Bool) : (fsetb s a f b).out = s.out := (rfl)
@[simp] theorem fsetb_free (s : State) (a : Nat) (f : Fld) (b : Bool) : (fsetb s a f b).free = s.free := (rfl)
@[simp] theorem fsetb_evt (s : State) (a : Nat) (f : Fld) (b : Bool) : (fsetb s a f b).evt = s.evt := (rfl)
@[simp] theorem fsetb_trs (s : State) (a : Nat) (f : Fld) (b : Bool) : (fsetb s a f b).trs = s.trs := (rfl)
@[simp] theorem fsetb_units (s : State) (a : Nat) (f : Fld) (b : Bool) : (fsetb s a f b).units = s.units := (rfl)
@[simp] theorem fsetb_tth (s : State) (a : Nat) (f : Fld) (b : Bool) : (fsetb s a f b).tth = s.tth := (rfl)
@[simp] theorem fsetb_fe (s : State) (a : Nat) (f : Fld) (b : Bool) : (fsetb s a f b).fe = s.fe := (rfl)
@[simp] theorem fsetb_zmp (s : State) (a : Nat) (f : Fld) (b : Bool) : (fsetb s a f b).zmp = s.zmp := (rfl)
@[simp] theorem fsetb_host (s : State) (a : Nat) (f : Fld) (b : Bool) : (fsetb s a f b).host = s.host := (rfl)
@[simp] theorem fsetb_pwr (s : State) (a : Nat) (f : Fld) (b : Bool) : (fsetb s a f b).pwr = s.pwr := (rfl)
@[simp] theorem fsetb_fls (s : State) (a : Nat) (f : Fld) (b : Bool) : (fsetb s a f b).fls = s.fls := (rfl)
@[simp] theorem fsetb_prt (s : State) (a : Nat) (f : Fld) (b : Bool) : (fsetb s a f b).prt = s.prt := (rfl)
@[simp] theorem fsetb_bgw (s : State) (a : Nat) (f : Fld) (b : Bool) : (fsetb s a f b).bgw = s.bgw := (rfl)
@[simp] theorem fsetb_det (s : State) (a : Nat) (f : Fld) (b : Bool) : (fsetb s a f b).det = s.det := (rfl)
@[simp] theorem fsetb_lanes (s : State) (a : Nat) (f : Fld) (b : Bool) : (fsetb s a f b).lanes = s.lanes := (rfl)
@[simp] theorem fsetb_slices (s : State) (a : Nat) (f : Fld) (b : Bool) : (fsetb s a f b).slices = s.slices := (rfl)
@[simp] theorem fsetb_slots (s : State) (a : Nat) (f : Fld) (b : Bool) : (fsetb s a f b).slots = s.slots := (rfl)
@[simp] theorem fsetb_engines (s : State) (a : Nat) (f : Fld) (b : Bool) : (fsetb s a f b).engines = s.engines := (rfl)
@[simp] theorem fsetb_spn (s : State) (a : Nat) (f : Fld) (b : Bool) : (fsetb s a f b).spn = s.spn := (rfl)
@[simp] theorem fsetb_shelf (s : State) (a : Nat) (f : Fld) (b : Bool) : (fsetb s a f b).shelf = s.shelf := (rfl)
@[simp] theorem fsetb_bal (s : State) (a : Nat) (f : Fld) (b : Bool) : (fsetb s a f b).bal = s.bal := (rfl)
@[simp] theorem fsetb_cch (s : State) (a : Nat) (f : Fld) (b : Bool) : (fsetb s a f b).cch = s.cch := (rfl)
@[simp] theorem fsetb_mem (s : State) (a : Nat) (f : Fld) (b : Bool) : (fsetb s a f b).mem = s.mem := (rfl)
@[simp] theorem fsetb_mcs (s : State) (a : Nat) (f : Fld) (b : Bool) : (fsetb s a f b).mcs = s.mcs := (rfl)
@[simp] theorem fsetb_pending (s : State) (a : Nat) (f : Fld) (b : Bool) : (fsetb s a f b).pending = s.pending := (rfl)
@[simp] theorem fadd_latches (s : State) (a : Nat) (f : Fld) (d : Nat) : (fadd s a f d).latches = s.latches := (rfl)
@[simp] theorem fadd_out (s : State) (a : Nat) (f : Fld) (d : Nat) : (fadd s a f d).out = s.out := (rfl)
@[simp] theorem fadd_free (s : State) (a : Nat) (f : Fld) (d : Nat) : (fadd s a f d).free = s.free := (rfl)
@[simp] theorem fadd_evt (s : State) (a : Nat) (f : Fld) (d : Nat) : (fadd s a f d).evt = s.evt := (rfl)
@[simp] theorem fadd_trs (s : State) (a : Nat) (f : Fld) (d : Nat) : (fadd s a f d).trs = s.trs := (rfl)
@[simp] theorem fadd_units (s : State) (a : Nat) (f : Fld) (d : Nat) : (fadd s a f d).units = s.units := (rfl)
@[simp] theorem fadd_tth (s : State) (a : Nat) (f : Fld) (d : Nat) : (fadd s a f d).tth = s.tth := (rfl)
@[simp] theorem fadd_fe (s : State) (a : Nat) (f : Fld) (d : Nat) : (fadd s a f d).fe = s.fe := (rfl)
@[simp] theorem fadd_zmp (s : State) (a : Nat) (f : Fld) (d : Nat) : (fadd s a f d).zmp = s.zmp := (rfl)
@[simp] theorem fadd_host (s : State) (a : Nat) (f : Fld) (d : Nat) : (fadd s a f d).host = s.host := (rfl)
@[simp] theorem fadd_pwr (s : State) (a : Nat) (f : Fld) (d : Nat) : (fadd s a f d).pwr = s.pwr := (rfl)
@[simp] theorem fadd_fls (s : State) (a : Nat) (f : Fld) (d : Nat) : (fadd s a f d).fls = s.fls := (rfl)
@[simp] theorem fadd_prt (s : State) (a : Nat) (f : Fld) (d : Nat) : (fadd s a f d).prt = s.prt := (rfl)
@[simp] theorem fadd_bgw (s : State) (a : Nat) (f : Fld) (d : Nat) : (fadd s a f d).bgw = s.bgw := (rfl)
@[simp] theorem fadd_det (s : State) (a : Nat) (f : Fld) (d : Nat) : (fadd s a f d).det = s.det := (rfl)
@[simp] theorem fadd_lanes (s : State) (a : Nat) (f : Fld) (d : Nat) : (fadd s a f d).lanes = s.lanes := (rfl)
@[simp] theorem fadd_slices (s : State) (a : Nat) (f : Fld) (d : Nat) : (fadd s a f d).slices = s.slices := (rfl)
@[simp] theorem fadd_slots (s : State) (a : Nat) (f : Fld) (d : Nat) : (fadd s a f d).slots = s.slots := (rfl)
@[simp] theorem fadd_engines (s : State) (a : Nat) (f : Fld) (d : Nat) : (fadd s a f d).engines = s.engines := (rfl)
@[simp] theorem fadd_spn (s : State) (a : Nat) (f : Fld) (d : Nat) : (fadd s a f d).spn = s.spn := (rfl)
@[simp] theorem fadd_shelf (s : State) (a : Nat) (f : Fld) (d : Nat) : (fadd s a f d).shelf = s.shelf := (rfl)
@[simp] theorem fadd_bal (s : State) (a : Nat) (f : Fld) (d : Nat) : (fadd s a f d).bal = s.bal := (rfl)
@[simp] theorem fadd_cch (s : State) (a : Nat) (f : Fld) (d : Nat) : (fadd s a f d).cch = s.cch := (rfl)
@[simp] theorem fadd_mem (s : State) (a : Nat) (f : Fld) (d : Nat) : (fadd s a f d).mem = s.mem := (rfl)
@[simp] theorem fadd_mcs (s : State) (a : Nat) (f : Fld) (d : Nat) : (fadd s a f d).mcs = s.mcs := (rfl)
@[simp] theorem fadd_pending (s : State) (a : Nat) (f : Fld) (d : Nat) : (fadd s a f d).pending = s.pending := (rfl)
@[simp] theorem wbit_latches (s : State) (a i : Nat) (b : Bool) : (wbit s a i b).latches = s.latches := (rfl)
@[simp] theorem wbit_out (s : State) (a i : Nat) (b : Bool) : (wbit s a i b).out = s.out := (rfl)
@[simp] theorem wbit_free (s : State) (a i : Nat) (b : Bool) : (wbit s a i b).free = s.free := (rfl)
@[simp] theorem wbit_evt (s : State) (a i : Nat) (b : Bool) : (wbit s a i b).evt = s.evt := (rfl)
@[simp] theorem wbit_trs (s : State) (a i : Nat) (b : Bool) : (wbit s a i b).trs = s.trs := (rfl)
@[simp] theorem wbit_units (s : State) (a i : Nat) (b : Bool) : (wbit s a i b).units = s.units := (rfl)
@[simp] theorem wbit_tth (s : State) (a i : Nat) (b : Bool) : (wbit s a i b).tth = s.tth := (rfl)
@[simp] theorem wbit_fe (s : State) (a i : Nat) (b : Bool) : (wbit s a i b).fe = s.fe := (rfl)
@[simp] theorem wbit_zmp (s : State) (a i : Nat) (b : Bool) : (wbit s a i b).zmp = s.zmp := (rfl)
@[simp] theorem wbit_host (s : State) (a i : Nat) (b : Bool) : (wbit s a i b).host = s.host := (rfl)
@[simp] theorem wbit_pwr (s : State) (a i : Nat) (b : Bool) : (wbit s a i b).pwr = s.pwr := (rfl)
@[simp] theorem wbit_fls (s : State) (a i : Nat) (b : Bool) : (wbit s a i b).fls = s.fls := (rfl)
@[simp] theorem wbit_prt (s : State) (a i : Nat) (b : Bool) : (wbit s a i b).prt = s.prt := (rfl)
@[simp] theorem wbit_bgw (s : State) (a i : Nat) (b : Bool) : (wbit s a i b).bgw = s.bgw := (rfl)
@[simp] theorem wbit_det (s : State) (a i : Nat) (b : Bool) : (wbit s a i b).det = s.det := (rfl)
@[simp] theorem wbit_lanes (s : State) (a i : Nat) (b : Bool) : (wbit s a i b).lanes = s.lanes := (rfl)
@[simp] theorem wbit_slices (s : State) (a i : Nat) (b : Bool) : (wbit s a i b).slices = s.slices := (rfl)
@[simp] theorem wbit_slots (s : State) (a i : Nat) (b : Bool) : (wbit s a i b).slots = s.slots := (rfl)
@[simp] theorem wbit_engines (s : State) (a i : Nat) (b : Bool) : (wbit s a i b).engines = s.engines := (rfl)
@[simp] theorem wbit_spn (s : State) (a i : Nat) (b : Bool) : (wbit s a i b).spn = s.spn := (rfl)
@[simp] theorem wbit_shelf (s : State) (a i : Nat) (b : Bool) : (wbit s a i b).shelf = s.shelf := (rfl)
@[simp] theorem wbit_bal (s : State) (a i : Nat) (b : Bool) : (wbit s a i b).bal = s.bal := (rfl)
@[simp] theorem wbit_cch (s : State) (a i : Nat) (b : Bool) : (wbit s a i b).cch = s.cch := (rfl)
@[simp] theorem wbit_mem (s : State) (a i : Nat) (b : Bool) : (wbit s a i b).mem = s.mem := (rfl)
@[simp] theorem wbit_mcs (s : State) (a i : Nat) (b : Bool) : (wbit s a i b).mcs = s.mcs := (rfl)
@[simp] theorem wbit_pending (s : State) (a i : Nat) (b : Bool) : (wbit s a i b).pending = s.pending := (rfl)
@[simp] theorem wr64_latches (s : State) (a v : Nat) : (wr64 s a v).latches = s.latches := (rfl)
@[simp] theorem wr64_out (s : State) (a v : Nat) : (wr64 s a v).out = s.out := (rfl)
@[simp] theorem wr64_free (s : State) (a v : Nat) : (wr64 s a v).free = s.free := (rfl)
@[simp] theorem wr64_evt (s : State) (a v : Nat) : (wr64 s a v).evt = s.evt := (rfl)
@[simp] theorem wr64_trs (s : State) (a v : Nat) : (wr64 s a v).trs = s.trs := (rfl)
@[simp] theorem wr64_units (s : State) (a v : Nat) : (wr64 s a v).units = s.units := (rfl)
@[simp] theorem wr64_tth (s : State) (a v : Nat) : (wr64 s a v).tth = s.tth := (rfl)
@[simp] theorem wr64_fe (s : State) (a v : Nat) : (wr64 s a v).fe = s.fe := (rfl)
@[simp] theorem wr64_zmp (s : State) (a v : Nat) : (wr64 s a v).zmp = s.zmp := (rfl)
@[simp] theorem wr64_host (s : State) (a v : Nat) : (wr64 s a v).host = s.host := (rfl)
@[simp] theorem wr64_pwr (s : State) (a v : Nat) : (wr64 s a v).pwr = s.pwr := (rfl)
@[simp] theorem wr64_fls (s : State) (a v : Nat) : (wr64 s a v).fls = s.fls := (rfl)
@[simp] theorem wr64_prt (s : State) (a v : Nat) : (wr64 s a v).prt = s.prt := (rfl)
@[simp] theorem wr64_bgw (s : State) (a v : Nat) : (wr64 s a v).bgw = s.bgw := (rfl)
@[simp] theorem wr64_det (s : State) (a v : Nat) : (wr64 s a v).det = s.det := (rfl)
@[simp] theorem wr64_lanes (s : State) (a v : Nat) : (wr64 s a v).lanes = s.lanes := (rfl)
@[simp] theorem wr64_slices (s : State) (a v : Nat) : (wr64 s a v).slices = s.slices := (rfl)
@[simp] theorem wr64_slots (s : State) (a v : Nat) : (wr64 s a v).slots = s.slots := (rfl)
@[simp] theorem wr64_engines (s : State) (a v : Nat) : (wr64 s a v).engines = s.engines := (rfl)
@[simp] theorem wr64_spn (s : State) (a v : Nat) : (wr64 s a v).spn = s.spn := (rfl)
@[simp] theorem wr64_shelf (s : State) (a v : Nat) : (wr64 s a v).shelf = s.shelf := (rfl)
@[simp] theorem wr64_bal (s : State) (a v : Nat) : (wr64 s a v).bal = s.bal := (rfl)
@[simp] theorem wr64_cch (s : State) (a v : Nat) : (wr64 s a v).cch = s.cch := (rfl)
@[simp] theorem wr64_mem (s : State) (a v : Nat) : (wr64 s a v).mem = s.mem := (rfl)
@[simp] theorem wr64_mcs (s : State) (a v : Nat) : (wr64 s a v).mcs = s.mcs := (rfl)
@[simp] theorem wr64_pending (s : State) (a v : Nat) : (wr64 s a v).pending = s.pending := (rfl)
@[simp] theorem clearRange_latches (s : State) (a b : Nat) : (clearRange s a b).latches = s.latches := (rfl)
@[simp] theorem clearRange_out (s : State) (a b : Nat) : (clearRange s a b).out = s.out := (rfl)
@[simp] theorem clearRange_free (s : State) (a b : Nat) : (clearRange s a b).free = s.free := (rfl)
@[simp] theorem clearRange_evt (s : State) (a b : Nat) : (clearRange s a b).evt = s.evt := (rfl)
@[simp] theorem clearRange_trs (s : State) (a b : Nat) : (clearRange s a b).trs = s.trs := (rfl)
@[simp] theorem clearRange_units (s : State) (a b : Nat) : (clearRange s a b).units = s.units := (rfl)
@[simp] theorem clearRange_tth (s : State) (a b : Nat) : (clearRange s a b).tth = s.tth := (rfl)
@[simp] theorem clearRange_fe (s : State) (a b : Nat) : (clearRange s a b).fe = s.fe := (rfl)
@[simp] theorem clearRange_zmp (s : State) (a b : Nat) : (clearRange s a b).zmp = s.zmp := (rfl)
@[simp] theorem clearRange_host (s : State) (a b : Nat) : (clearRange s a b).host = s.host := (rfl)
@[simp] theorem clearRange_pwr (s : State) (a b : Nat) : (clearRange s a b).pwr = s.pwr := (rfl)
@[simp] theorem clearRange_fls (s : State) (a b : Nat) : (clearRange s a b).fls = s.fls := (rfl)
@[simp] theorem clearRange_prt (s : State) (a b : Nat) : (clearRange s a b).prt = s.prt := (rfl)
@[simp] theorem clearRange_bgw (s : State) (a b : Nat) : (clearRange s a b).bgw = s.bgw := (rfl)
@[simp] theorem clearRange_det (s : State) (a b : Nat) : (clearRange s a b).det = s.det := (rfl)
@[simp] theorem clearRange_lanes (s : State) (a b : Nat) : (clearRange s a b).lanes = s.lanes := (rfl)
@[simp] theorem clearRange_slices (s : State) (a b : Nat) : (clearRange s a b).slices = s.slices := (rfl)
@[simp] theorem clearRange_slots (s : State) (a b : Nat) : (clearRange s a b).slots = s.slots := (rfl)
@[simp] theorem clearRange_engines (s : State) (a b : Nat) : (clearRange s a b).engines = s.engines := (rfl)
@[simp] theorem clearRange_spn (s : State) (a b : Nat) : (clearRange s a b).spn = s.spn := (rfl)
@[simp] theorem clearRange_shelf (s : State) (a b : Nat) : (clearRange s a b).shelf = s.shelf := (rfl)
@[simp] theorem clearRange_bal (s : State) (a b : Nat) : (clearRange s a b).bal = s.bal := (rfl)
@[simp] theorem clearRange_cch (s : State) (a b : Nat) : (clearRange s a b).cch = s.cch := (rfl)
@[simp] theorem clearRange_mem (s : State) (a b : Nat) : (clearRange s a b).mem = s.mem := (rfl)
@[simp] theorem clearRange_mcs (s : State) (a b : Nat) : (clearRange s a b).mcs = s.mcs := (rfl)
@[simp] theorem clearRange_pending (s : State) (a b : Nat) : (clearRange s a b).pending = s.pending := (rfl)
@[simp] theorem emit_regs (s : State) (o : Out) : (emit s o).regs = s.regs := (rfl)
@[simp] theorem emit_latches (s : State) (o : Out) : (emit s o).latches = s.latches := (rfl)
@[simp] theorem emit_free (s : State) (o : Out) : (emit s o).free = s.free := (rfl)
@[simp] theorem emit_evt (s : State) (o : Out) : (emit s o).evt = s.evt := (rfl)
@[simp] theorem emit_trs (s : State) (o : Out) : (emit s o).trs = s.trs := (rfl)
@[simp] theorem emit_units (s : State) (o : Out) : (emit s o).units = s.units := (rfl)
@[simp] theorem emit_tth (s : State) (o : Out) : (emit s o).tth = s.tth := (rfl)
@[simp] theorem emit_fe (s : State) (o : Out) : (emit s o).fe = s.fe := (rfl)
@[simp] theorem emit_zmp (s : State) (o : Out) : (emit s o).zmp = s.zmp := (rfl)
@[simp] theorem emit_host (s : State) (o : Out) : (emit s o).host = s.host := (rfl)
@[simp] theorem emit_pwr (s : State) (o : Out) : (emit s o).pwr = s.pwr := (rfl)
@[simp] theorem emit_fls (s : State) (o : Out) : (emit s o).fls = s.fls := (rfl)
@[simp] theorem emit_prt (s : State) (o : Out) : (emit s o).prt = s.prt := (rfl)
@[simp] theorem emit_bgw (s : State) (o : Out) : (emit s o).bgw = s.bgw := (rfl)
@[simp] theorem emit_det (s : State) (o : Out) : (emit s o).det = s.det := (rfl)
@[simp] theorem emit_lanes (s : State) (o : Out) : (emit s o).lanes = s.lanes := (rfl)
@[simp] theorem emit_slices (s : State) (o : Out) : (emit s o).slices = s.slices := (rfl)
@[simp] theorem emit_slots (s : State) (o : Out) : (emit s o).slots = s.slots := (rfl)
@[simp] theorem emit_engines (s : State) (o : Out) : (emit s o).engines = s.engines := (rfl)
@[simp] theorem emit_spn (s : State) (o : Out) : (emit s o).spn = s.spn := (rfl)
@[simp] theorem emit_shelf (s : State) (o : Out) : (emit s o).shelf = s.shelf := (rfl)
@[simp] theorem emit_bal (s : State) (o : Out) : (emit s o).bal = s.bal := (rfl)
@[simp] theorem emit_cch (s : State) (o : Out) : (emit s o).cch = s.cch := (rfl)
@[simp] theorem emit_mem (s : State) (o : Out) : (emit s o).mem = s.mem := (rfl)
@[simp] theorem emit_mcs (s : State) (o : Out) : (emit s o).mcs = s.mcs := (rfl)
@[simp] theorem emit_pending (s : State) (o : Out) : (emit s o).pending = s.pending := (rfl)
@[simp] theorem emit_out (s : State) (o : Out) : (emit s o).out = o :: s.out := (rfl)
@[simp] theorem drawn_regs (s : State)  : (drawn s ).regs = s.regs := (rfl)
@[simp] theorem drawn_latches (s : State)  : (drawn s ).latches = s.latches := (rfl)
@[simp] theorem drawn_out (s : State)  : (drawn s ).out = s.out := (rfl)
@[simp] theorem drawn_evt (s : State)  : (drawn s ).evt = s.evt := (rfl)
@[simp] theorem drawn_trs (s : State)  : (drawn s ).trs = s.trs := (rfl)
@[simp] theorem drawn_units (s : State)  : (drawn s ).units = s.units := (rfl)
@[simp] theorem drawn_tth (s : State)  : (drawn s ).tth = s.tth := (rfl)
@[simp] theorem drawn_fe (s : State)  : (drawn s ).fe = s.fe := (rfl)
@[simp] theorem drawn_zmp (s : State)  : (drawn s ).zmp = s.zmp := (rfl)
@[simp] theorem drawn_host (s : State)  : (drawn s ).host = s.host := (rfl)
@[simp] theorem drawn_pwr (s : State)  : (drawn s ).pwr = s.pwr := (rfl)
@[simp] theorem drawn_fls (s : State)  : (drawn s ).fls = s.fls := (rfl)
@[simp] theorem drawn_prt (s : State)  : (drawn s ).prt = s.prt := (rfl)
@[simp] theorem drawn_bgw (s : State)  : (drawn s ).bgw = s.bgw := (rfl)
@[simp] theorem drawn_det (s : State)  : (drawn s ).det = s.det := (rfl)
@[simp] theorem drawn_lanes (s : State)  : (drawn s ).lanes = s.lanes := (rfl)
@[simp] theorem drawn_slices (s : State)  : (drawn s ).slices = s.slices := (rfl)
@[simp] theorem drawn_slots (s : State)  : (drawn s ).slots = s.slots := (rfl)
@[simp] theorem drawn_engines (s : State)  : (drawn s ).engines = s.engines := (rfl)
@[simp] theorem drawn_spn (s : State)  : (drawn s ).spn = s.spn := (rfl)
@[simp] theorem drawn_shelf (s : State)  : (drawn s ).shelf = s.shelf := (rfl)
@[simp] theorem drawn_bal (s : State)  : (drawn s ).bal = s.bal := (rfl)
@[simp] theorem drawn_cch (s : State)  : (drawn s ).cch = s.cch := (rfl)
@[simp] theorem drawn_mem (s : State)  : (drawn s ).mem = s.mem := (rfl)
@[simp] theorem drawn_mcs (s : State)  : (drawn s ).mcs = s.mcs := (rfl)
@[simp] theorem drawn_pending (s : State)  : (drawn s ).pending = s.pending := (rfl)
@[simp] theorem drawn_free (s : State) : (drawn s).free = s.free + 1 := (rfl)
@[simp] theorem setCch_regs (s : State) (g : CacheState → CacheState) : (setCch s g).regs = s.regs := (rfl)
@[simp] theorem setCch_latches (s : State) (g : CacheState → CacheState) : (setCch s g).latches = s.latches := (rfl)
@[simp] theorem setCch_out (s : State) (g : CacheState → CacheState) : (setCch s g).out = s.out := (rfl)
@[simp] theorem setCch_free (s : State) (g : CacheState → CacheState) : (setCch s g).free = s.free := (rfl)
@[simp] theorem setCch_evt (s : State) (g : CacheState → CacheState) : (setCch s g).evt = s.evt := (rfl)
@[simp] theorem setCch_trs (s : State) (g : CacheState → CacheState) : (setCch s g).trs = s.trs := (rfl)
@[simp] theorem setCch_units (s : State) (g : CacheState → CacheState) : (setCch s g).units = s.units := (rfl)
@[simp] theorem setCch_tth (s : State) (g : CacheState → CacheState) : (setCch s g).tth = s.tth := (rfl)
@[simp] theorem setCch_fe (s : State) (g : CacheState → CacheState) : (setCch s g).fe = s.fe := (rfl)
@[simp] theorem setCch_zmp (s : State) (g : CacheState → CacheState) : (setCch s g).zmp = s.zmp := (rfl)
@[simp] theorem setCch_host (s : State) (g : CacheState → CacheState) : (setCch s g).host = s.host := (rfl)
@[simp] theorem setCch_pwr (s : State) (g : CacheState → CacheState) : (setCch s g).pwr = s.pwr := (rfl)
@[simp] theorem setCch_fls (s : State) (g : CacheState → CacheState) : (setCch s g).fls = s.fls := (rfl)
@[simp] theorem setCch_prt (s : State) (g : CacheState → CacheState) : (setCch s g).prt = s.prt := (rfl)
@[simp] theorem setCch_bgw (s : State) (g : CacheState → CacheState) : (setCch s g).bgw = s.bgw := (rfl)
@[simp] theorem setCch_det (s : State) (g : CacheState → CacheState) : (setCch s g).det = s.det := (rfl)
@[simp] theorem setCch_lanes (s : State) (g : CacheState → CacheState) : (setCch s g).lanes = s.lanes := (rfl)
@[simp] theorem setCch_slices (s : State) (g : CacheState → CacheState) : (setCch s g).slices = s.slices := (rfl)
@[simp] theorem setCch_slots (s : State) (g : CacheState → CacheState) : (setCch s g).slots = s.slots := (rfl)
@[simp] theorem setCch_engines (s : State) (g : CacheState → CacheState) : (setCch s g).engines = s.engines := (rfl)
@[simp] theorem setCch_spn (s : State) (g : CacheState → CacheState) : (setCch s g).spn = s.spn := (rfl)
@[simp] theorem setCch_shelf (s : State) (g : CacheState → CacheState) : (setCch s g).shelf = s.shelf := (rfl)
@[simp] theorem setCch_bal (s : State) (g : CacheState → CacheState) : (setCch s g).bal = s.bal := (rfl)
@[simp] theorem setCch_mem (s : State) (g : CacheState → CacheState) : (setCch s g).mem = s.mem := (rfl)
@[simp] theorem setCch_mcs (s : State) (g : CacheState → CacheState) : (setCch s g).mcs = s.mcs := (rfl)
@[simp] theorem setCch_pending (s : State) (g : CacheState → CacheState) : (setCch s g).pending = s.pending := (rfl)
@[simp] theorem setCch_cch (s : State) (g : CacheState → CacheState) : (setCch s g).cch = g s.cch := (rfl)
@[simp] theorem setDet_regs (s : State) (g : DetState → DetState) : (setDet s g).regs = s.regs := (rfl)
@[simp] theorem setDet_latches (s : State) (g : DetState → DetState) : (setDet s g).latches = s.latches := (rfl)
@[simp] theorem setDet_out (s : State) (g : DetState → DetState) : (setDet s g).out = s.out := (rfl)
@[simp] theorem setDet_free (s : State) (g : DetState → DetState) : (setDet s g).free = s.free := (rfl)
@[simp] theorem setDet_evt (s : State) (g : DetState → DetState) : (setDet s g).evt = s.evt := (rfl)
@[simp] theorem setDet_trs (s : State) (g : DetState → DetState) : (setDet s g).trs = s.trs := (rfl)
@[simp] theorem setDet_units (s : State) (g : DetState → DetState) : (setDet s g).units = s.units := (rfl)
@[simp] theorem setDet_tth (s : State) (g : DetState → DetState) : (setDet s g).tth = s.tth := (rfl)
@[simp] theorem setDet_fe (s : State) (g : DetState → DetState) : (setDet s g).fe = s.fe := (rfl)
@[simp] theorem setDet_zmp (s : State) (g : DetState → DetState) : (setDet s g).zmp = s.zmp := (rfl)
@[simp] theorem setDet_host (s : State) (g : DetState → DetState) : (setDet s g).host = s.host := (rfl)
@[simp] theorem setDet_pwr (s : State) (g : DetState → DetState) : (setDet s g).pwr = s.pwr := (rfl)
@[simp] theorem setDet_fls (s : State) (g : DetState → DetState) : (setDet s g).fls = s.fls := (rfl)
@[simp] theorem setDet_prt (s : State) (g : DetState → DetState) : (setDet s g).prt = s.prt := (rfl)
@[simp] theorem setDet_bgw (s : State) (g : DetState → DetState) : (setDet s g).bgw = s.bgw := (rfl)
@[simp] theorem setDet_lanes (s : State) (g : DetState → DetState) : (setDet s g).lanes = s.lanes := (rfl)
@[simp] theorem setDet_slices (s : State) (g : DetState → DetState) : (setDet s g).slices = s.slices := (rfl)
@[simp] theorem setDet_slots (s : State) (g : DetState → DetState) : (setDet s g).slots = s.slots := (rfl)
@[simp] theorem setDet_engines (s : State) (g : DetState → DetState) : (setDet s g).engines = s.engines := (rfl)
@[simp] theorem setDet_spn (s : State) (g : DetState → DetState) : (setDet s g).spn = s.spn := (rfl)
@[simp] theorem setDet_shelf (s : State) (g : DetState → DetState) : (setDet s g).shelf = s.shelf := (rfl)
@[simp] theorem setDet_bal (s : State) (g : DetState → DetState) : (setDet s g).bal = s.bal := (rfl)
@[simp] theorem setDet_cch (s : State) (g : DetState → DetState) : (setDet s g).cch = s.cch := (rfl)
@[simp] theorem setDet_mem (s : State) (g : DetState → DetState) : (setDet s g).mem = s.mem := (rfl)
@[simp] theorem setDet_mcs (s : State) (g : DetState → DetState) : (setDet s g).mcs = s.mcs := (rfl)
@[simp] theorem setDet_pending (s : State) (g : DetState → DetState) : (setDet s g).pending = s.pending := (rfl)
@[simp] theorem setDet_det (s : State) (g : DetState → DetState) : (setDet s g).det = g s.det := (rfl)
@[simp] theorem setBgw_regs (s : State) (g : BgwState → BgwState) : (setBgw s g).regs = s.regs := (rfl)
@[simp] theorem setBgw_latches (s : State) (g : BgwState → BgwState) : (setBgw s g).latches = s.latches := (rfl)
@[simp] theorem setBgw_out (s : State) (g : BgwState → BgwState) : (setBgw s g).out = s.out := (rfl)
@[simp] theorem setBgw_free (s : State) (g : BgwState → BgwState) : (setBgw s g).free = s.free := (rfl)
@[simp] theorem setBgw_evt (s : State) (g : BgwState → BgwState) : (setBgw s g).evt = s.evt := (rfl)
@[simp] theorem setBgw_trs (s : State) (g : BgwState → BgwState) : (setBgw s g).trs = s.trs := (rfl)
@[simp] theorem setBgw_units (s : State) (g : BgwState → BgwState) : (setBgw s g).units = s.units := (rfl)
@[simp] theorem setBgw_tth (s : State) (g : BgwState → BgwState) : (setBgw s g).tth = s.tth := (rfl)
@[simp] theorem setBgw_fe (s : State) (g : BgwState → BgwState) : (setBgw s g).fe = s.fe := (rfl)
@[simp] theorem setBgw_zmp (s : State) (g : BgwState → BgwState) : (setBgw s g).zmp = s.zmp := (rfl)
@[simp] theorem setBgw_host (s : State) (g : BgwState → BgwState) : (setBgw s g).host = s.host := (rfl)
@[simp] theorem setBgw_pwr (s : State) (g : BgwState → BgwState) : (setBgw s g).pwr = s.pwr := (rfl)
@[simp] theorem setBgw_fls (s : State) (g : BgwState → BgwState) : (setBgw s g).fls = s.fls := (rfl)
@[simp] theorem setBgw_prt (s : State) (g : BgwState → BgwState) : (setBgw s g).prt = s.prt := (rfl)
@[simp] theorem setBgw_det (s : State) (g : BgwState → BgwState) : (setBgw s g).det = s.det := (rfl)
@[simp] theorem setBgw_lanes (s : State) (g : BgwState → BgwState) : (setBgw s g).lanes = s.lanes := (rfl)
@[simp] theorem setBgw_slices (s : State) (g : BgwState → BgwState) : (setBgw s g).slices = s.slices := (rfl)
@[simp] theorem setBgw_slots (s : State) (g : BgwState → BgwState) : (setBgw s g).slots = s.slots := (rfl)
@[simp] theorem setBgw_engines (s : State) (g : BgwState → BgwState) : (setBgw s g).engines = s.engines := (rfl)
@[simp] theorem setBgw_spn (s : State) (g : BgwState → BgwState) : (setBgw s g).spn = s.spn := (rfl)
@[simp] theorem setBgw_shelf (s : State) (g : BgwState → BgwState) : (setBgw s g).shelf = s.shelf := (rfl)
@[simp] theorem setBgw_bal (s : State) (g : BgwState → BgwState) : (setBgw s g).bal = s.bal := (rfl)
@[simp] theorem setBgw_cch (s : State) (g : BgwState → BgwState) : (setBgw s g).cch = s.cch := (rfl)
@[simp] theorem setBgw_mem (s : State) (g : BgwState → BgwState) : (setBgw s g).mem = s.mem := (rfl)
@[simp] theorem setBgw_mcs (s : State) (g : BgwState → BgwState) : (setBgw s g).mcs = s.mcs := (rfl)
@[simp] theorem setBgw_pending (s : State) (g : BgwState → BgwState) : (setBgw s g).pending = s.pending := (rfl)
@[simp] theorem setBgw_bgw (s : State) (g : BgwState → BgwState) : (setBgw s g).bgw = g s.bgw := (rfl)
@[simp] theorem setBal_regs (s : State) (g : BalState → BalState) : (setBal s g).regs = s.regs := (rfl)
@[simp] theorem setBal_latches (s : State) (g : BalState → BalState) : (setBal s g).latches = s.latches := (rfl)
@[simp] theorem setBal_out (s : State) (g : BalState → BalState) : (setBal s g).out = s.out := (rfl)
@[simp] theorem setBal_free (s : State) (g : BalState → BalState) : (setBal s g).free = s.free := (rfl)
@[simp] theorem setBal_evt (s : State) (g : BalState → BalState) : (setBal s g).evt = s.evt := (rfl)
@[simp] theorem setBal_trs (s : State) (g : BalState → BalState) : (setBal s g).trs = s.trs := (rfl)
@[simp] theorem setBal_units (s : State) (g : BalState → BalState) : (setBal s g).units = s.units := (rfl)
@[simp] theorem setBal_tth (s : State) (g : BalState → BalState) : (setBal s g).tth = s.tth := (rfl)
@[simp] theorem setBal_fe (s : State) (g : BalState → BalState) : (setBal s g).fe = s.fe := (rfl)
@[simp] theorem setBal_zmp (s : State) (g : BalState → BalState) : (setBal s g).zmp = s.zmp := (rfl)
@[simp] theorem setBal_host (s : State) (g : BalState → BalState) : (setBal s g).host = s.host := (rfl)
@[simp] theorem setBal_pwr (s : State) (g : BalState → BalState) : (setBal s g).pwr = s.pwr := (rfl)
@[simp] theorem setBal_fls (s : State) (g : BalState → BalState) : (setBal s g).fls = s.fls := (rfl)
@[simp] theorem setBal_prt (s : State) (g : BalState → BalState) : (setBal s g).prt = s.prt := (rfl)
@[simp] theorem setBal_bgw (s : State) (g : BalState → BalState) : (setBal s g).bgw = s.bgw := (rfl)
@[simp] theorem setBal_det (s : State) (g : BalState → BalState) : (setBal s g).det = s.det := (rfl)
@[simp] theorem setBal_lanes (s : State) (g : BalState → BalState) : (setBal s g).lanes = s.lanes := (rfl)
@[simp] theorem setBal_slices (s : State) (g : BalState → BalState) : (setBal s g).slices = s.slices := (rfl)
@[simp] theorem setBal_slots (s : State) (g : BalState → BalState) : (setBal s g).slots = s.slots := (rfl)
@[simp] theorem setBal_engines (s : State) (g : BalState → BalState) : (setBal s g).engines = s.engines := (rfl)
@[simp] theorem setBal_spn (s : State) (g : BalState → BalState) : (setBal s g).spn = s.spn := (rfl)
@[simp] theorem setBal_shelf (s : State) (g : BalState → BalState) : (setBal s g).shelf = s.shelf := (rfl)
@[simp] theorem setBal_cch (s : State) (g : BalState → BalState) : (setBal s g).cch = s.cch := (rfl)
@[simp] theorem setBal_mem (s : State) (g : BalState → BalState) : (setBal s g).mem = s.mem := (rfl)
@[simp] theorem setBal_mcs (s : State) (g : BalState → BalState) : (setBal s g).mcs = s.mcs := (rfl)
@[simp] theorem setBal_pending (s : State) (g : BalState → BalState) : (setBal s g).pending = s.pending := (rfl)
@[simp] theorem setBal_bal (s : State) (g : BalState → BalState) : (setBal s g).bal = g s.bal := (rfl)
@[simp] theorem setMem_regs (s : State) (g : MemState → MemState) : (setMem s g).regs = s.regs := (rfl)
@[simp] theorem setMem_latches (s : State) (g : MemState → MemState) : (setMem s g).latches = s.latches := (rfl)
@[simp] theorem setMem_out (s : State) (g : MemState → MemState) : (setMem s g).out = s.out := (rfl)
@[simp] theorem setMem_free (s : State) (g : MemState → MemState) : (setMem s g).free = s.free := (rfl)
@[simp] theorem setMem_evt (s : State) (g : MemState → MemState) : (setMem s g).evt = s.evt := (rfl)
@[simp] theorem setMem_trs (s : State) (g : MemState → MemState) : (setMem s g).trs = s.trs := (rfl)
@[simp] theorem setMem_units (s : State) (g : MemState → MemState) : (setMem s g).units = s.units := (rfl)
@[simp] theorem setMem_tth (s : State) (g : MemState → MemState) : (setMem s g).tth = s.tth := (rfl)
@[simp] theorem setMem_fe (s : State) (g : MemState → MemState) : (setMem s g).fe = s.fe := (rfl)
@[simp] theorem setMem_zmp (s : State) (g : MemState → MemState) : (setMem s g).zmp = s.zmp := (rfl)
@[simp] theorem setMem_host (s : State) (g : MemState → MemState) : (setMem s g).host = s.host := (rfl)
@[simp] theorem setMem_pwr (s : State) (g : MemState → MemState) : (setMem s g).pwr = s.pwr := (rfl)
@[simp] theorem setMem_fls (s : State) (g : MemState → MemState) : (setMem s g).fls = s.fls := (rfl)
@[simp] theorem setMem_prt (s : State) (g : MemState → MemState) : (setMem s g).prt = s.prt := (rfl)
@[simp] theorem setMem_bgw (s : State) (g : MemState → MemState) : (setMem s g).bgw = s.bgw := (rfl)
@[simp] theorem setMem_det (s : State) (g : MemState → MemState) : (setMem s g).det = s.det := (rfl)
@[simp] theorem setMem_lanes (s : State) (g : MemState → MemState) : (setMem s g).lanes = s.lanes := (rfl)
@[simp] theorem setMem_slices (s : State) (g : MemState → MemState) : (setMem s g).slices = s.slices := (rfl)
@[simp] theorem setMem_slots (s : State) (g : MemState → MemState) : (setMem s g).slots = s.slots := (rfl)
@[simp] theorem setMem_engines (s : State) (g : MemState → MemState) : (setMem s g).engines = s.engines := (rfl)
@[simp] theorem setMem_spn (s : State) (g : MemState → MemState) : (setMem s g).spn = s.spn := (rfl)
@[simp] theorem setMem_shelf (s : State) (g : MemState → MemState) : (setMem s g).shelf = s.shelf := (rfl)
@[simp] theorem setMem_bal (s : State) (g : MemState → MemState) : (setMem s g).bal = s.bal := (rfl)
@[simp] theorem setMem_cch (s : State) (g : MemState → MemState) : (setMem s g).cch = s.cch := (rfl)
@[simp] theorem setMem_mcs (s : State) (g : MemState → MemState) : (setMem s g).mcs = s.mcs := (rfl)
@[simp] theorem setMem_pending (s : State) (g : MemState → MemState) : (setMem s g).pending = s.pending := (rfl)
@[simp] theorem setMem_mem (s : State) (g : MemState → MemState) : (setMem s g).mem = g s.mem := (rfl)
@[simp] theorem setPwr_regs (s : State) (g : PwrState → PwrState) : (setPwr s g).regs = s.regs := (rfl)
@[simp] theorem setPwr_latches (s : State) (g : PwrState → PwrState) : (setPwr s g).latches = s.latches := (rfl)
@[simp] theorem setPwr_out (s : State) (g : PwrState → PwrState) : (setPwr s g).out = s.out := (rfl)
@[simp] theorem setPwr_free (s : State) (g : PwrState → PwrState) : (setPwr s g).free = s.free := (rfl)
@[simp] theorem setPwr_evt (s : State) (g : PwrState → PwrState) : (setPwr s g).evt = s.evt := (rfl)
@[simp] theorem setPwr_trs (s : State) (g : PwrState → PwrState) : (setPwr s g).trs = s.trs := (rfl)
@[simp] theorem setPwr_units (s : State) (g : PwrState → PwrState) : (setPwr s g).units = s.units := (rfl)
@[simp] theorem setPwr_tth (s : State) (g : PwrState → PwrState) : (setPwr s g).tth = s.tth := (rfl)
@[simp] theorem setPwr_fe (s : State) (g : PwrState → PwrState) : (setPwr s g).fe = s.fe := (rfl)
@[simp] theorem setPwr_zmp (s : State) (g : PwrState → PwrState) : (setPwr s g).zmp = s.zmp := (rfl)
@[simp] theorem setPwr_host (s : State) (g : PwrState → PwrState) : (setPwr s g).host = s.host := (rfl)
@[simp] theorem setPwr_fls (s : State) (g : PwrState → PwrState) : (setPwr s g).fls = s.fls := (rfl)
@[simp] theorem setPwr_prt (s : State) (g : PwrState → PwrState) : (setPwr s g).prt = s.prt := (rfl)
@[simp] theorem setPwr_bgw (s : State) (g : PwrState → PwrState) : (setPwr s g).bgw = s.bgw := (rfl)
@[simp] theorem setPwr_det (s : State) (g : PwrState → PwrState) : (setPwr s g).det = s.det := (rfl)
@[simp] theorem setPwr_lanes (s : State) (g : PwrState → PwrState) : (setPwr s g).lanes = s.lanes := (rfl)
@[simp] theorem setPwr_slices (s : State) (g : PwrState → PwrState) : (setPwr s g).slices = s.slices := (rfl)
@[simp] theorem setPwr_slots (s : State) (g : PwrState → PwrState) : (setPwr s g).slots = s.slots := (rfl)
@[simp] theorem setPwr_engines (s : State) (g : PwrState → PwrState) : (setPwr s g).engines = s.engines := (rfl)
@[simp] theorem setPwr_spn (s : State) (g : PwrState → PwrState) : (setPwr s g).spn = s.spn := (rfl)
@[simp] theorem setPwr_shelf (s : State) (g : PwrState → PwrState) : (setPwr s g).shelf = s.shelf := (rfl)
@[simp] theorem setPwr_bal (s : State) (g : PwrState → PwrState) : (setPwr s g).bal = s.bal := (rfl)
@[simp] theorem setPwr_cch (s : State) (g : PwrState → PwrState) : (setPwr s g).cch = s.cch := (rfl)
@[simp] theorem setPwr_mem (s : State) (g : PwrState → PwrState) : (setPwr s g).mem = s.mem := (rfl)
@[simp] theorem setPwr_mcs (s : State) (g : PwrState → PwrState) : (setPwr s g).mcs = s.mcs := (rfl)
@[simp] theorem setPwr_pending (s : State) (g : PwrState → PwrState) : (setPwr s g).pending = s.pending := (rfl)
@[simp] theorem setPwr_pwr (s : State) (g : PwrState → PwrState) : (setPwr s g).pwr = g s.pwr := (rfl)
@[simp] theorem setFls_regs (s : State) (g : FlsState → FlsState) : (setFls s g).regs = s.regs := (rfl)
@[simp] theorem setFls_latches (s : State) (g : FlsState → FlsState) : (setFls s g).latches = s.latches := (rfl)
@[simp] theorem setFls_out (s : State) (g : FlsState → FlsState) : (setFls s g).out = s.out := (rfl)
@[simp] theorem setFls_free (s : State) (g : FlsState → FlsState) : (setFls s g).free = s.free := (rfl)
@[simp] theorem setFls_evt (s : State) (g : FlsState → FlsState) : (setFls s g).evt = s.evt := (rfl)
@[simp] theorem setFls_trs (s : State) (g : FlsState → FlsState) : (setFls s g).trs = s.trs := (rfl)
@[simp] theorem setFls_units (s : State) (g : FlsState → FlsState) : (setFls s g).units = s.units := (rfl)
@[simp] theorem setFls_tth (s : State) (g : FlsState → FlsState) : (setFls s g).tth = s.tth := (rfl)
@[simp] theorem setFls_fe (s : State) (g : FlsState → FlsState) : (setFls s g).fe = s.fe := (rfl)
@[simp] theorem setFls_zmp (s : State) (g : FlsState → FlsState) : (setFls s g).zmp = s.zmp := (rfl)
@[simp] theorem setFls_host (s : State) (g : FlsState → FlsState) : (setFls s g).host = s.host := (rfl)
@[simp] theorem setFls_pwr (s : State) (g : FlsState → FlsState) : (setFls s g).pwr = s.pwr := (rfl)
@[simp] theorem setFls_prt (s : State) (g : FlsState → FlsState) : (setFls s g).prt = s.prt := (rfl)
@[simp] theorem setFls_bgw (s : State) (g : FlsState → FlsState) : (setFls s g).bgw = s.bgw := (rfl)
@[simp] theorem setFls_det (s : State) (g : FlsState → FlsState) : (setFls s g).det = s.det := (rfl)
@[simp] theorem setFls_lanes (s : State) (g : FlsState → FlsState) : (setFls s g).lanes = s.lanes := (rfl)
@[simp] theorem setFls_slices (s : State) (g : FlsState → FlsState) : (setFls s g).slices = s.slices := (rfl)
@[simp] theorem setFls_slots (s : State) (g : FlsState → FlsState) : (setFls s g).slots = s.slots := (rfl)
@[simp] theorem setFls_engines (s : State) (g : FlsState → FlsState) : (setFls s g).engines = s.engines := (rfl)
@[simp] theorem setFls_spn (s : State) (g : FlsState → FlsState) : (setFls s g).spn = s.spn := (rfl)
@[simp] theorem setFls_shelf (s : State) (g : FlsState → FlsState) : (setFls s g).shelf = s.shelf := (rfl)
@[simp] theorem setFls_bal (s : State) (g : FlsState → FlsState) : (setFls s g).bal = s.bal := (rfl)
@[simp] theorem setFls_cch (s : State) (g : FlsState → FlsState) : (setFls s g).cch = s.cch := (rfl)
@[simp] theorem setFls_mem (s : State) (g : FlsState → FlsState) : (setFls s g).mem = s.mem := (rfl)
@[simp] theorem setFls_mcs (s : State) (g : FlsState → FlsState) : (setFls s g).mcs = s.mcs := (rfl)
@[simp] theorem setFls_pending (s : State) (g : FlsState → FlsState) : (setFls s g).pending = s.pending := (rfl)
@[simp] theorem setFls_fls (s : State) (g : FlsState → FlsState) : (setFls s g).fls = g s.fls := (rfl)
@[simp] theorem setPrt_regs (s : State) (g : PrtState → PrtState) : (setPrt s g).regs = s.regs := (rfl)
@[simp] theorem setPrt_latches (s : State) (g : PrtState → PrtState) : (setPrt s g).latches = s.latches := (rfl)
@[simp] theorem setPrt_out (s : State) (g : PrtState → PrtState) : (setPrt s g).out = s.out := (rfl)
@[simp] theorem setPrt_free (s : State) (g : PrtState → PrtState) : (setPrt s g).free = s.free := (rfl)
@[simp] theorem setPrt_evt (s : State) (g : PrtState → PrtState) : (setPrt s g).evt = s.evt := (rfl)
@[simp] theorem setPrt_trs (s : State) (g : PrtState → PrtState) : (setPrt s g).trs = s.trs := (rfl)
@[simp] theorem setPrt_units (s : State) (g : PrtState → PrtState) : (setPrt s g).units = s.units := (rfl)
@[simp] theorem setPrt_tth (s : State) (g : PrtState → PrtState) : (setPrt s g).tth = s.tth := (rfl)
@[simp] theorem setPrt_fe (s : State) (g : PrtState → PrtState) : (setPrt s g).fe = s.fe := (rfl)
@[simp] theorem setPrt_zmp (s : State) (g : PrtState → PrtState) : (setPrt s g).zmp = s.zmp := (rfl)
@[simp] theorem setPrt_host (s : State) (g : PrtState → PrtState) : (setPrt s g).host = s.host := (rfl)
@[simp] theorem setPrt_pwr (s : State) (g : PrtState → PrtState) : (setPrt s g).pwr = s.pwr := (rfl)
@[simp] theorem setPrt_fls (s : State) (g : PrtState → PrtState) : (setPrt s g).fls = s.fls := (rfl)
@[simp] theorem setPrt_bgw (s : State) (g : PrtState → PrtState) : (setPrt s g).bgw = s.bgw := (rfl)
@[simp] theorem setPrt_det (s : State) (g : PrtState → PrtState) : (setPrt s g).det = s.det := (rfl)
@[simp] theorem setPrt_lanes (s : State) (g : PrtState → PrtState) : (setPrt s g).lanes = s.lanes := (rfl)
@[simp] theorem setPrt_slices (s : State) (g : PrtState → PrtState) : (setPrt s g).slices = s.slices := (rfl)
@[simp] theorem setPrt_slots (s : State) (g : PrtState → PrtState) : (setPrt s g).slots = s.slots := (rfl)
@[simp] theorem setPrt_engines (s : State) (g : PrtState → PrtState) : (setPrt s g).engines = s.engines := (rfl)
@[simp] theorem setPrt_spn (s : State) (g : PrtState → PrtState) : (setPrt s g).spn = s.spn := (rfl)
@[simp] theorem setPrt_shelf (s : State) (g : PrtState → PrtState) : (setPrt s g).shelf = s.shelf := (rfl)
@[simp] theorem setPrt_bal (s : State) (g : PrtState → PrtState) : (setPrt s g).bal = s.bal := (rfl)
@[simp] theorem setPrt_cch (s : State) (g : PrtState → PrtState) : (setPrt s g).cch = s.cch := (rfl)
@[simp] theorem setPrt_mem (s : State) (g : PrtState → PrtState) : (setPrt s g).mem = s.mem := (rfl)
@[simp] theorem setPrt_mcs (s : State) (g : PrtState → PrtState) : (setPrt s g).mcs = s.mcs := (rfl)
@[simp] theorem setPrt_pending (s : State) (g : PrtState → PrtState) : (setPrt s g).pending = s.pending := (rfl)
@[simp] theorem setPrt_prt (s : State) (g : PrtState → PrtState) : (setPrt s g).prt = g s.prt := (rfl)
@[simp] theorem setZmp_regs (s : State) (g : ZmpState → ZmpState) : (setZmp s g).regs = s.regs := (rfl)
@[simp] theorem setZmp_latches (s : State) (g : ZmpState → ZmpState) : (setZmp s g).latches = s.latches := (rfl)
@[simp] theorem setZmp_out (s : State) (g : ZmpState → ZmpState) : (setZmp s g).out = s.out := (rfl)
@[simp] theorem setZmp_free (s : State) (g : ZmpState → ZmpState) : (setZmp s g).free = s.free := (rfl)
@[simp] theorem setZmp_evt (s : State) (g : ZmpState → ZmpState) : (setZmp s g).evt = s.evt := (rfl)
@[simp] theorem setZmp_trs (s : State) (g : ZmpState → ZmpState) : (setZmp s g).trs = s.trs := (rfl)
@[simp] theorem setZmp_units (s : State) (g : ZmpState → ZmpState) : (setZmp s g).units = s.units := (rfl)
@[simp] theorem setZmp_tth (s : State) (g : ZmpState → ZmpState) : (setZmp s g).tth = s.tth := (rfl)
@[simp] theorem setZmp_fe (s : State) (g : ZmpState → ZmpState) : (setZmp s g).fe = s.fe := (rfl)
@[simp] theorem setZmp_host (s : State) (g : ZmpState → ZmpState) : (setZmp s g).host = s.host := (rfl)
@[simp] theorem setZmp_pwr (s : State) (g : ZmpState → ZmpState) : (setZmp s g).pwr = s.pwr := (rfl)
@[simp] theorem setZmp_fls (s : State) (g : ZmpState → ZmpState) : (setZmp s g).fls = s.fls := (rfl)
@[simp] theorem setZmp_prt (s : State) (g : ZmpState → ZmpState) : (setZmp s g).prt = s.prt := (rfl)
@[simp] theorem setZmp_bgw (s : State) (g : ZmpState → ZmpState) : (setZmp s g).bgw = s.bgw := (rfl)
@[simp] theorem setZmp_det (s : State) (g : ZmpState → ZmpState) : (setZmp s g).det = s.det := (rfl)
@[simp] theorem setZmp_lanes (s : State) (g : ZmpState → ZmpState) : (setZmp s g).lanes = s.lanes := (rfl)
@[simp] theorem setZmp_slices (s : State) (g : ZmpState → ZmpState) : (setZmp s g).slices = s.slices := (rfl)
@[simp] theorem setZmp_slots (s : State) (g : ZmpState → ZmpState) : (setZmp s g).slots = s.slots := (rfl)
@[simp] theorem setZmp_engines (s : State) (g : ZmpState → ZmpState) : (setZmp s g).engines = s.engines := (rfl)
@[simp] theorem setZmp_spn (s : State) (g : ZmpState → ZmpState) : (setZmp s g).spn = s.spn := (rfl)
@[simp] theorem setZmp_shelf (s : State) (g : ZmpState → ZmpState) : (setZmp s g).shelf = s.shelf := (rfl)
@[simp] theorem setZmp_bal (s : State) (g : ZmpState → ZmpState) : (setZmp s g).bal = s.bal := (rfl)
@[simp] theorem setZmp_cch (s : State) (g : ZmpState → ZmpState) : (setZmp s g).cch = s.cch := (rfl)
@[simp] theorem setZmp_mem (s : State) (g : ZmpState → ZmpState) : (setZmp s g).mem = s.mem := (rfl)
@[simp] theorem setZmp_mcs (s : State) (g : ZmpState → ZmpState) : (setZmp s g).mcs = s.mcs := (rfl)
@[simp] theorem setZmp_pending (s : State) (g : ZmpState → ZmpState) : (setZmp s g).pending = s.pending := (rfl)
@[simp] theorem setZmp_zmp (s : State) (g : ZmpState → ZmpState) : (setZmp s g).zmp = g s.zmp := (rfl)
@[simp] theorem setFe_regs (s : State) (p : Nat) (g : FrontEnd → FrontEnd) : (setFe s p g).regs = s.regs := (rfl)
@[simp] theorem setFe_latches (s : State) (p : Nat) (g : FrontEnd → FrontEnd) : (setFe s p g).latches = s.latches := (rfl)
@[simp] theorem setFe_out (s : State) (p : Nat) (g : FrontEnd → FrontEnd) : (setFe s p g).out = s.out := (rfl)
@[simp] theorem setFe_free (s : State) (p : Nat) (g : FrontEnd → FrontEnd) : (setFe s p g).free = s.free := (rfl)
@[simp] theorem setFe_evt (s : State) (p : Nat) (g : FrontEnd → FrontEnd) : (setFe s p g).evt = s.evt := (rfl)
@[simp] theorem setFe_trs (s : State) (p : Nat) (g : FrontEnd → FrontEnd) : (setFe s p g).trs = s.trs := (rfl)
@[simp] theorem setFe_units (s : State) (p : Nat) (g : FrontEnd → FrontEnd) : (setFe s p g).units = s.units := (rfl)
@[simp] theorem setFe_tth (s : State) (p : Nat) (g : FrontEnd → FrontEnd) : (setFe s p g).tth = s.tth := (rfl)
@[simp] theorem setFe_zmp (s : State) (p : Nat) (g : FrontEnd → FrontEnd) : (setFe s p g).zmp = s.zmp := (rfl)
@[simp] theorem setFe_host (s : State) (p : Nat) (g : FrontEnd → FrontEnd) : (setFe s p g).host = s.host := (rfl)
@[simp] theorem setFe_pwr (s : State) (p : Nat) (g : FrontEnd → FrontEnd) : (setFe s p g).pwr = s.pwr := (rfl)
@[simp] theorem setFe_fls (s : State) (p : Nat) (g : FrontEnd → FrontEnd) : (setFe s p g).fls = s.fls := (rfl)
@[simp] theorem setFe_prt (s : State) (p : Nat) (g : FrontEnd → FrontEnd) : (setFe s p g).prt = s.prt := (rfl)
@[simp] theorem setFe_bgw (s : State) (p : Nat) (g : FrontEnd → FrontEnd) : (setFe s p g).bgw = s.bgw := (rfl)
@[simp] theorem setFe_det (s : State) (p : Nat) (g : FrontEnd → FrontEnd) : (setFe s p g).det = s.det := (rfl)
@[simp] theorem setFe_lanes (s : State) (p : Nat) (g : FrontEnd → FrontEnd) : (setFe s p g).lanes = s.lanes := (rfl)
@[simp] theorem setFe_slices (s : State) (p : Nat) (g : FrontEnd → FrontEnd) : (setFe s p g).slices = s.slices := (rfl)
@[simp] theorem setFe_slots (s : State) (p : Nat) (g : FrontEnd → FrontEnd) : (setFe s p g).slots = s.slots := (rfl)
@[simp] theorem setFe_engines (s : State) (p : Nat) (g : FrontEnd → FrontEnd) : (setFe s p g).engines = s.engines := (rfl)
@[simp] theorem setFe_spn (s : State) (p : Nat) (g : FrontEnd → FrontEnd) : (setFe s p g).spn = s.spn := (rfl)
@[simp] theorem setFe_shelf (s : State) (p : Nat) (g : FrontEnd → FrontEnd) : (setFe s p g).shelf = s.shelf := (rfl)
@[simp] theorem setFe_bal (s : State) (p : Nat) (g : FrontEnd → FrontEnd) : (setFe s p g).bal = s.bal := (rfl)
@[simp] theorem setFe_cch (s : State) (p : Nat) (g : FrontEnd → FrontEnd) : (setFe s p g).cch = s.cch := (rfl)
@[simp] theorem setFe_mem (s : State) (p : Nat) (g : FrontEnd → FrontEnd) : (setFe s p g).mem = s.mem := (rfl)
@[simp] theorem setFe_mcs (s : State) (p : Nat) (g : FrontEnd → FrontEnd) : (setFe s p g).mcs = s.mcs := (rfl)
@[simp] theorem setFe_pending (s : State) (p : Nat) (g : FrontEnd → FrontEnd) : (setFe s p g).pending = s.pending := (rfl)
@[simp] theorem setTth_regs (s : State) (p : Nat) (g : TthPort → TthPort) : (setTth s p g).regs = s.regs := (rfl)
@[simp] theorem setTth_latches (s : State) (p : Nat) (g : TthPort → TthPort) : (setTth s p g).latches = s.latches := (rfl)
@[simp] theorem setTth_out (s : State) (p : Nat) (g : TthPort → TthPort) : (setTth s p g).out = s.out := (rfl)
@[simp] theorem setTth_free (s : State) (p : Nat) (g : TthPort → TthPort) : (setTth s p g).free = s.free := (rfl)
@[simp] theorem setTth_evt (s : State) (p : Nat) (g : TthPort → TthPort) : (setTth s p g).evt = s.evt := (rfl)
@[simp] theorem setTth_trs (s : State) (p : Nat) (g : TthPort → TthPort) : (setTth s p g).trs = s.trs := (rfl)
@[simp] theorem setTth_units (s : State) (p : Nat) (g : TthPort → TthPort) : (setTth s p g).units = s.units := (rfl)
@[simp] theorem setTth_fe (s : State) (p : Nat) (g : TthPort → TthPort) : (setTth s p g).fe = s.fe := (rfl)
@[simp] theorem setTth_zmp (s : State) (p : Nat) (g : TthPort → TthPort) : (setTth s p g).zmp = s.zmp := (rfl)
@[simp] theorem setTth_host (s : State) (p : Nat) (g : TthPort → TthPort) : (setTth s p g).host = s.host := (rfl)
@[simp] theorem setTth_pwr (s : State) (p : Nat) (g : TthPort → TthPort) : (setTth s p g).pwr = s.pwr := (rfl)
@[simp] theorem setTth_fls (s : State) (p : Nat) (g : TthPort → TthPort) : (setTth s p g).fls = s.fls := (rfl)
@[simp] theorem setTth_prt (s : State) (p : Nat) (g : TthPort → TthPort) : (setTth s p g).prt = s.prt := (rfl)
@[simp] theorem setTth_bgw (s : State) (p : Nat) (g : TthPort → TthPort) : (setTth s p g).bgw = s.bgw := (rfl)
@[simp] theorem setTth_det (s : State) (p : Nat) (g : TthPort → TthPort) : (setTth s p g).det = s.det := (rfl)
@[simp] theorem setTth_lanes (s : State) (p : Nat) (g : TthPort → TthPort) : (setTth s p g).lanes = s.lanes := (rfl)
@[simp] theorem setTth_slices (s : State) (p : Nat) (g : TthPort → TthPort) : (setTth s p g).slices = s.slices := (rfl)
@[simp] theorem setTth_slots (s : State) (p : Nat) (g : TthPort → TthPort) : (setTth s p g).slots = s.slots := (rfl)
@[simp] theorem setTth_engines (s : State) (p : Nat) (g : TthPort → TthPort) : (setTth s p g).engines = s.engines := (rfl)
@[simp] theorem setTth_spn (s : State) (p : Nat) (g : TthPort → TthPort) : (setTth s p g).spn = s.spn := (rfl)
@[simp] theorem setTth_shelf (s : State) (p : Nat) (g : TthPort → TthPort) : (setTth s p g).shelf = s.shelf := (rfl)
@[simp] theorem setTth_bal (s : State) (p : Nat) (g : TthPort → TthPort) : (setTth s p g).bal = s.bal := (rfl)
@[simp] theorem setTth_cch (s : State) (p : Nat) (g : TthPort → TthPort) : (setTth s p g).cch = s.cch := (rfl)
@[simp] theorem setTth_mem (s : State) (p : Nat) (g : TthPort → TthPort) : (setTth s p g).mem = s.mem := (rfl)
@[simp] theorem setTth_mcs (s : State) (p : Nat) (g : TthPort → TthPort) : (setTth s p g).mcs = s.mcs := (rfl)
@[simp] theorem setTth_pending (s : State) (p : Nat) (g : TthPort → TthPort) : (setTth s p g).pending = s.pending := (rfl)
@[simp] theorem setSpn_regs (s : State) (p : Nat) (g : SpnPort → SpnPort) : (setSpn s p g).regs = s.regs := (rfl)
@[simp] theorem setSpn_latches (s : State) (p : Nat) (g : SpnPort → SpnPort) : (setSpn s p g).latches = s.latches := (rfl)
@[simp] theorem setSpn_out (s : State) (p : Nat) (g : SpnPort → SpnPort) : (setSpn s p g).out = s.out := (rfl)
@[simp] theorem setSpn_free (s : State) (p : Nat) (g : SpnPort → SpnPort) : (setSpn s p g).free = s.free := (rfl)
@[simp] theorem setSpn_evt (s : State) (p : Nat) (g : SpnPort → SpnPort) : (setSpn s p g).evt = s.evt := (rfl)
@[simp] theorem setSpn_trs (s : State) (p : Nat) (g : SpnPort → SpnPort) : (setSpn s p g).trs = s.trs := (rfl)
@[simp] theorem setSpn_units (s : State) (p : Nat) (g : SpnPort → SpnPort) : (setSpn s p g).units = s.units := (rfl)
@[simp] theorem setSpn_tth (s : State) (p : Nat) (g : SpnPort → SpnPort) : (setSpn s p g).tth = s.tth := (rfl)
@[simp] theorem setSpn_fe (s : State) (p : Nat) (g : SpnPort → SpnPort) : (setSpn s p g).fe = s.fe := (rfl)
@[simp] theorem setSpn_zmp (s : State) (p : Nat) (g : SpnPort → SpnPort) : (setSpn s p g).zmp = s.zmp := (rfl)
@[simp] theorem setSpn_host (s : State) (p : Nat) (g : SpnPort → SpnPort) : (setSpn s p g).host = s.host := (rfl)
@[simp] theorem setSpn_pwr (s : State) (p : Nat) (g : SpnPort → SpnPort) : (setSpn s p g).pwr = s.pwr := (rfl)
@[simp] theorem setSpn_fls (s : State) (p : Nat) (g : SpnPort → SpnPort) : (setSpn s p g).fls = s.fls := (rfl)
@[simp] theorem setSpn_prt (s : State) (p : Nat) (g : SpnPort → SpnPort) : (setSpn s p g).prt = s.prt := (rfl)
@[simp] theorem setSpn_bgw (s : State) (p : Nat) (g : SpnPort → SpnPort) : (setSpn s p g).bgw = s.bgw := (rfl)
@[simp] theorem setSpn_det (s : State) (p : Nat) (g : SpnPort → SpnPort) : (setSpn s p g).det = s.det := (rfl)
@[simp] theorem setSpn_lanes (s : State) (p : Nat) (g : SpnPort → SpnPort) : (setSpn s p g).lanes = s.lanes := (rfl)
@[simp] theorem setSpn_slices (s : State) (p : Nat) (g : SpnPort → SpnPort) : (setSpn s p g).slices = s.slices := (rfl)
@[simp] theorem setSpn_slots (s : State) (p : Nat) (g : SpnPort → SpnPort) : (setSpn s p g).slots = s.slots := (rfl)
@[simp] theorem setSpn_engines (s : State) (p : Nat) (g : SpnPort → SpnPort) : (setSpn s p g).engines = s.engines := (rfl)
@[simp] theorem setSpn_shelf (s : State) (p : Nat) (g : SpnPort → SpnPort) : (setSpn s p g).shelf = s.shelf := (rfl)
@[simp] theorem setSpn_bal (s : State) (p : Nat) (g : SpnPort → SpnPort) : (setSpn s p g).bal = s.bal := (rfl)
@[simp] theorem setSpn_cch (s : State) (p : Nat) (g : SpnPort → SpnPort) : (setSpn s p g).cch = s.cch := (rfl)
@[simp] theorem setSpn_mem (s : State) (p : Nat) (g : SpnPort → SpnPort) : (setSpn s p g).mem = s.mem := (rfl)
@[simp] theorem setSpn_mcs (s : State) (p : Nat) (g : SpnPort → SpnPort) : (setSpn s p g).mcs = s.mcs := (rfl)
@[simp] theorem setSpn_pending (s : State) (p : Nat) (g : SpnPort → SpnPort) : (setSpn s p g).pending = s.pending := (rfl)
@[simp] theorem setAux_regs (s : State) (u : Nat) (g : UnitAux → UnitAux) : (setAux s u g).regs = s.regs := (rfl)
@[simp] theorem setAux_latches (s : State) (u : Nat) (g : UnitAux → UnitAux) : (setAux s u g).latches = s.latches := (rfl)
@[simp] theorem setAux_out (s : State) (u : Nat) (g : UnitAux → UnitAux) : (setAux s u g).out = s.out := (rfl)
@[simp] theorem setAux_free (s : State) (u : Nat) (g : UnitAux → UnitAux) : (setAux s u g).free = s.free := (rfl)
@[simp] theorem setAux_evt (s : State) (u : Nat) (g : UnitAux → UnitAux) : (setAux s u g).evt = s.evt := (rfl)
@[simp] theorem setAux_trs (s : State) (u : Nat) (g : UnitAux → UnitAux) : (setAux s u g).trs = s.trs := (rfl)
@[simp] theorem setAux_tth (s : State) (u : Nat) (g : UnitAux → UnitAux) : (setAux s u g).tth = s.tth := (rfl)
@[simp] theorem setAux_fe (s : State) (u : Nat) (g : UnitAux → UnitAux) : (setAux s u g).fe = s.fe := (rfl)
@[simp] theorem setAux_zmp (s : State) (u : Nat) (g : UnitAux → UnitAux) : (setAux s u g).zmp = s.zmp := (rfl)
@[simp] theorem setAux_host (s : State) (u : Nat) (g : UnitAux → UnitAux) : (setAux s u g).host = s.host := (rfl)
@[simp] theorem setAux_pwr (s : State) (u : Nat) (g : UnitAux → UnitAux) : (setAux s u g).pwr = s.pwr := (rfl)
@[simp] theorem setAux_fls (s : State) (u : Nat) (g : UnitAux → UnitAux) : (setAux s u g).fls = s.fls := (rfl)
@[simp] theorem setAux_prt (s : State) (u : Nat) (g : UnitAux → UnitAux) : (setAux s u g).prt = s.prt := (rfl)
@[simp] theorem setAux_bgw (s : State) (u : Nat) (g : UnitAux → UnitAux) : (setAux s u g).bgw = s.bgw := (rfl)
@[simp] theorem setAux_det (s : State) (u : Nat) (g : UnitAux → UnitAux) : (setAux s u g).det = s.det := (rfl)
@[simp] theorem setAux_lanes (s : State) (u : Nat) (g : UnitAux → UnitAux) : (setAux s u g).lanes = s.lanes := (rfl)
@[simp] theorem setAux_slices (s : State) (u : Nat) (g : UnitAux → UnitAux) : (setAux s u g).slices = s.slices := (rfl)
@[simp] theorem setAux_slots (s : State) (u : Nat) (g : UnitAux → UnitAux) : (setAux s u g).slots = s.slots := (rfl)
@[simp] theorem setAux_engines (s : State) (u : Nat) (g : UnitAux → UnitAux) : (setAux s u g).engines = s.engines := (rfl)
@[simp] theorem setAux_spn (s : State) (u : Nat) (g : UnitAux → UnitAux) : (setAux s u g).spn = s.spn := (rfl)
@[simp] theorem setAux_shelf (s : State) (u : Nat) (g : UnitAux → UnitAux) : (setAux s u g).shelf = s.shelf := (rfl)
@[simp] theorem setAux_bal (s : State) (u : Nat) (g : UnitAux → UnitAux) : (setAux s u g).bal = s.bal := (rfl)
@[simp] theorem setAux_cch (s : State) (u : Nat) (g : UnitAux → UnitAux) : (setAux s u g).cch = s.cch := (rfl)
@[simp] theorem setAux_mem (s : State) (u : Nat) (g : UnitAux → UnitAux) : (setAux s u g).mem = s.mem := (rfl)
@[simp] theorem setAux_mcs (s : State) (u : Nat) (g : UnitAux → UnitAux) : (setAux s u g).mcs = s.mcs := (rfl)
@[simp] theorem setAux_pending (s : State) (u : Nat) (g : UnitAux → UnitAux) : (setAux s u g).pending = s.pending := (rfl)
@[simp] theorem setSlice_regs (s : State) (a : Nat) (g : ServoSlice → ServoSlice) : (setSlice s a g).regs = s.regs := (rfl)
@[simp] theorem setSlice_latches (s : State) (a : Nat) (g : ServoSlice → ServoSlice) : (setSlice s a g).latches = s.latches := (rfl)
@[simp] theorem setSlice_out (s : State) (a : Nat) (g : ServoSlice → ServoSlice) : (setSlice s a g).out = s.out := (rfl)
@[simp] theorem setSlice_free (s : State) (a : Nat) (g : ServoSlice → ServoSlice) : (setSlice s a g).free = s.free := (rfl)
@[simp] theorem setSlice_evt (s : State) (a : Nat) (g : ServoSlice → ServoSlice) : (setSlice s a g).evt = s.evt := (rfl)
@[simp] theorem setSlice_trs (s : State) (a : Nat) (g : ServoSlice → ServoSlice) : (setSlice s a g).trs = s.trs := (rfl)
@[simp] theorem setSlice_units (s : State) (a : Nat) (g : ServoSlice → ServoSlice) : (setSlice s a g).units = s.units := (rfl)
@[simp] theorem setSlice_tth (s : State) (a : Nat) (g : ServoSlice → ServoSlice) : (setSlice s a g).tth = s.tth := (rfl)
@[simp] theorem setSlice_fe (s : State) (a : Nat) (g : ServoSlice → ServoSlice) : (setSlice s a g).fe = s.fe := (rfl)
@[simp] theorem setSlice_zmp (s : State) (a : Nat) (g : ServoSlice → ServoSlice) : (setSlice s a g).zmp = s.zmp := (rfl)
@[simp] theorem setSlice_host (s : State) (a : Nat) (g : ServoSlice → ServoSlice) : (setSlice s a g).host = s.host := (rfl)
@[simp] theorem setSlice_pwr (s : State) (a : Nat) (g : ServoSlice → ServoSlice) : (setSlice s a g).pwr = s.pwr := (rfl)
@[simp] theorem setSlice_fls (s : State) (a : Nat) (g : ServoSlice → ServoSlice) : (setSlice s a g).fls = s.fls := (rfl)
@[simp] theorem setSlice_prt (s : State) (a : Nat) (g : ServoSlice → ServoSlice) : (setSlice s a g).prt = s.prt := (rfl)
@[simp] theorem setSlice_bgw (s : State) (a : Nat) (g : ServoSlice → ServoSlice) : (setSlice s a g).bgw = s.bgw := (rfl)
@[simp] theorem setSlice_det (s : State) (a : Nat) (g : ServoSlice → ServoSlice) : (setSlice s a g).det = s.det := (rfl)
@[simp] theorem setSlice_lanes (s : State) (a : Nat) (g : ServoSlice → ServoSlice) : (setSlice s a g).lanes = s.lanes := (rfl)
@[simp] theorem setSlice_slots (s : State) (a : Nat) (g : ServoSlice → ServoSlice) : (setSlice s a g).slots = s.slots := (rfl)
@[simp] theorem setSlice_engines (s : State) (a : Nat) (g : ServoSlice → ServoSlice) : (setSlice s a g).engines = s.engines := (rfl)
@[simp] theorem setSlice_spn (s : State) (a : Nat) (g : ServoSlice → ServoSlice) : (setSlice s a g).spn = s.spn := (rfl)
@[simp] theorem setSlice_shelf (s : State) (a : Nat) (g : ServoSlice → ServoSlice) : (setSlice s a g).shelf = s.shelf := (rfl)
@[simp] theorem setSlice_bal (s : State) (a : Nat) (g : ServoSlice → ServoSlice) : (setSlice s a g).bal = s.bal := (rfl)
@[simp] theorem setSlice_cch (s : State) (a : Nat) (g : ServoSlice → ServoSlice) : (setSlice s a g).cch = s.cch := (rfl)
@[simp] theorem setSlice_mem (s : State) (a : Nat) (g : ServoSlice → ServoSlice) : (setSlice s a g).mem = s.mem := (rfl)
@[simp] theorem setSlice_mcs (s : State) (a : Nat) (g : ServoSlice → ServoSlice) : (setSlice s a g).mcs = s.mcs := (rfl)
@[simp] theorem setSlice_pending (s : State) (a : Nat) (g : ServoSlice → ServoSlice) : (setSlice s a g).pending = s.pending := (rfl)
@[simp] theorem setEngine_regs (s : State) (e : Nat) (g : BrdEng → BrdEng) : (setEngine s e g).regs = s.regs := (rfl)
@[simp] theorem setEngine_latches (s : State) (e : Nat) (g : BrdEng → BrdEng) : (setEngine s e g).latches = s.latches := (rfl)
@[simp] theorem setEngine_out (s : State) (e : Nat) (g : BrdEng → BrdEng) : (setEngine s e g).out = s.out := (rfl)
@[simp] theorem setEngine_free (s : State) (e : Nat) (g : BrdEng → BrdEng) : (setEngine s e g).free = s.free := (rfl)
@[simp] theorem setEngine_evt (s : State) (e : Nat) (g : BrdEng → BrdEng) : (setEngine s e g).evt = s.evt := (rfl)
@[simp] theorem setEngine_trs (s : State) (e : Nat) (g : BrdEng → BrdEng) : (setEngine s e g).trs = s.trs := (rfl)
@[simp] theorem setEngine_units (s : State) (e : Nat) (g : BrdEng → BrdEng) : (setEngine s e g).units = s.units := (rfl)
@[simp] theorem setEngine_tth (s : State) (e : Nat) (g : BrdEng → BrdEng) : (setEngine s e g).tth = s.tth := (rfl)
@[simp] theorem setEngine_fe (s : State) (e : Nat) (g : BrdEng → BrdEng) : (setEngine s e g).fe = s.fe := (rfl)
@[simp] theorem setEngine_zmp (s : State) (e : Nat) (g : BrdEng → BrdEng) : (setEngine s e g).zmp = s.zmp := (rfl)
@[simp] theorem setEngine_host (s : State) (e : Nat) (g : BrdEng → BrdEng) : (setEngine s e g).host = s.host := (rfl)
@[simp] theorem setEngine_pwr (s : State) (e : Nat) (g : BrdEng → BrdEng) : (setEngine s e g).pwr = s.pwr := (rfl)
@[simp] theorem setEngine_fls (s : State) (e : Nat) (g : BrdEng → BrdEng) : (setEngine s e g).fls = s.fls := (rfl)
@[simp] theorem setEngine_prt (s : State) (e : Nat) (g : BrdEng → BrdEng) : (setEngine s e g).prt = s.prt := (rfl)
@[simp] theorem setEngine_bgw (s : State) (e : Nat) (g : BrdEng → BrdEng) : (setEngine s e g).bgw = s.bgw := (rfl)
@[simp] theorem setEngine_det (s : State) (e : Nat) (g : BrdEng → BrdEng) : (setEngine s e g).det = s.det := (rfl)
@[simp] theorem setEngine_lanes (s : State) (e : Nat) (g : BrdEng → BrdEng) : (setEngine s e g).lanes = s.lanes := (rfl)
@[simp] theorem setEngine_slices (s : State) (e : Nat) (g : BrdEng → BrdEng) : (setEngine s e g).slices = s.slices := (rfl)
@[simp] theorem setEngine_slots (s : State) (e : Nat) (g : BrdEng → BrdEng) : (setEngine s e g).slots = s.slots := (rfl)
@[simp] theorem setEngine_spn (s : State) (e : Nat) (g : BrdEng → BrdEng) : (setEngine s e g).spn = s.spn := (rfl)
@[simp] theorem setEngine_shelf (s : State) (e : Nat) (g : BrdEng → BrdEng) : (setEngine s e g).shelf = s.shelf := (rfl)
@[simp] theorem setEngine_bal (s : State) (e : Nat) (g : BrdEng → BrdEng) : (setEngine s e g).bal = s.bal := (rfl)
@[simp] theorem setEngine_cch (s : State) (e : Nat) (g : BrdEng → BrdEng) : (setEngine s e g).cch = s.cch := (rfl)
@[simp] theorem setEngine_mem (s : State) (e : Nat) (g : BrdEng → BrdEng) : (setEngine s e g).mem = s.mem := (rfl)
@[simp] theorem setEngine_mcs (s : State) (e : Nat) (g : BrdEng → BrdEng) : (setEngine s e g).mcs = s.mcs := (rfl)
@[simp] theorem setEngine_pending (s : State) (e : Nat) (g : BrdEng → BrdEng) : (setEngine s e g).pending = s.pending := (rfl)
@[simp] theorem setSlane_regs (s : State) (a l : Nat) (g : ServoLane → ServoLane) : (setSlane s a l g).regs = s.regs := (rfl)
@[simp] theorem setSlane_latches (s : State) (a l : Nat) (g : ServoLane → ServoLane) : (setSlane s a l g).latches = s.latches := (rfl)
@[simp] theorem setSlane_out (s : State) (a l : Nat) (g : ServoLane → ServoLane) : (setSlane s a l g).out = s.out := (rfl)
@[simp] theorem setSlane_free (s : State) (a l : Nat) (g : ServoLane → ServoLane) : (setSlane s a l g).free = s.free := (rfl)
@[simp] theorem setSlane_evt (s : State) (a l : Nat) (g : ServoLane → ServoLane) : (setSlane s a l g).evt = s.evt := (rfl)
@[simp] theorem setSlane_trs (s : State) (a l : Nat) (g : ServoLane → ServoLane) : (setSlane s a l g).trs = s.trs := (rfl)
@[simp] theorem setSlane_units (s : State) (a l : Nat) (g : ServoLane → ServoLane) : (setSlane s a l g).units = s.units := (rfl)
@[simp] theorem setSlane_tth (s : State) (a l : Nat) (g : ServoLane → ServoLane) : (setSlane s a l g).tth = s.tth := (rfl)
@[simp] theorem setSlane_fe (s : State) (a l : Nat) (g : ServoLane → ServoLane) : (setSlane s a l g).fe = s.fe := (rfl)
@[simp] theorem setSlane_zmp (s : State) (a l : Nat) (g : ServoLane → ServoLane) : (setSlane s a l g).zmp = s.zmp := (rfl)
@[simp] theorem setSlane_host (s : State) (a l : Nat) (g : ServoLane → ServoLane) : (setSlane s a l g).host = s.host := (rfl)
@[simp] theorem setSlane_pwr (s : State) (a l : Nat) (g : ServoLane → ServoLane) : (setSlane s a l g).pwr = s.pwr := (rfl)
@[simp] theorem setSlane_fls (s : State) (a l : Nat) (g : ServoLane → ServoLane) : (setSlane s a l g).fls = s.fls := (rfl)
@[simp] theorem setSlane_prt (s : State) (a l : Nat) (g : ServoLane → ServoLane) : (setSlane s a l g).prt = s.prt := (rfl)
@[simp] theorem setSlane_bgw (s : State) (a l : Nat) (g : ServoLane → ServoLane) : (setSlane s a l g).bgw = s.bgw := (rfl)
@[simp] theorem setSlane_det (s : State) (a l : Nat) (g : ServoLane → ServoLane) : (setSlane s a l g).det = s.det := (rfl)
@[simp] theorem setSlane_slices (s : State) (a l : Nat) (g : ServoLane → ServoLane) : (setSlane s a l g).slices = s.slices := (rfl)
@[simp] theorem setSlane_slots (s : State) (a l : Nat) (g : ServoLane → ServoLane) : (setSlane s a l g).slots = s.slots := (rfl)
@[simp] theorem setSlane_engines (s : State) (a l : Nat) (g : ServoLane → ServoLane) : (setSlane s a l g).engines = s.engines := (rfl)
@[simp] theorem setSlane_spn (s : State) (a l : Nat) (g : ServoLane → ServoLane) : (setSlane s a l g).spn = s.spn := (rfl)
@[simp] theorem setSlane_shelf (s : State) (a l : Nat) (g : ServoLane → ServoLane) : (setSlane s a l g).shelf = s.shelf := (rfl)
@[simp] theorem setSlane_bal (s : State) (a l : Nat) (g : ServoLane → ServoLane) : (setSlane s a l g).bal = s.bal := (rfl)
@[simp] theorem setSlane_cch (s : State) (a l : Nat) (g : ServoLane → ServoLane) : (setSlane s a l g).cch = s.cch := (rfl)
@[simp] theorem setSlane_mem (s : State) (a l : Nat) (g : ServoLane → ServoLane) : (setSlane s a l g).mem = s.mem := (rfl)
@[simp] theorem setSlane_mcs (s : State) (a l : Nat) (g : ServoLane → ServoLane) : (setSlane s a l g).mcs = s.mcs := (rfl)
@[simp] theorem setSlane_pending (s : State) (a l : Nat) (g : ServoLane → ServoLane) : (setSlane s a l g).pending = s.pending := (rfl)
@[simp] theorem setBslot_regs (s : State) (e k : Nat) (g : BrdSlot → BrdSlot) : (setBslot s e k g).regs = s.regs := (rfl)
@[simp] theorem setBslot_latches (s : State) (e k : Nat) (g : BrdSlot → BrdSlot) : (setBslot s e k g).latches = s.latches := (rfl)
@[simp] theorem setBslot_out (s : State) (e k : Nat) (g : BrdSlot → BrdSlot) : (setBslot s e k g).out = s.out := (rfl)
@[simp] theorem setBslot_free (s : State) (e k : Nat) (g : BrdSlot → BrdSlot) : (setBslot s e k g).free = s.free := (rfl)
@[simp] theorem setBslot_evt (s : State) (e k : Nat) (g : BrdSlot → BrdSlot) : (setBslot s e k g).evt = s.evt := (rfl)
@[simp] theorem setBslot_trs (s : State) (e k : Nat) (g : BrdSlot → BrdSlot) : (setBslot s e k g).trs = s.trs := (rfl)
@[simp] theorem setBslot_units (s : State) (e k : Nat) (g : BrdSlot → BrdSlot) : (setBslot s e k g).units = s.units := (rfl)
@[simp] theorem setBslot_tth (s : State) (e k : Nat) (g : BrdSlot → BrdSlot) : (setBslot s e k g).tth = s.tth := (rfl)
@[simp] theorem setBslot_fe (s : State) (e k : Nat) (g : BrdSlot → BrdSlot) : (setBslot s e k g).fe = s.fe := (rfl)
@[simp] theorem setBslot_zmp (s : State) (e k : Nat) (g : BrdSlot → BrdSlot) : (setBslot s e k g).zmp = s.zmp := (rfl)
@[simp] theorem setBslot_host (s : State) (e k : Nat) (g : BrdSlot → BrdSlot) : (setBslot s e k g).host = s.host := (rfl)
@[simp] theorem setBslot_pwr (s : State) (e k : Nat) (g : BrdSlot → BrdSlot) : (setBslot s e k g).pwr = s.pwr := (rfl)
@[simp] theorem setBslot_fls (s : State) (e k : Nat) (g : BrdSlot → BrdSlot) : (setBslot s e k g).fls = s.fls := (rfl)
@[simp] theorem setBslot_prt (s : State) (e k : Nat) (g : BrdSlot → BrdSlot) : (setBslot s e k g).prt = s.prt := (rfl)
@[simp] theorem setBslot_bgw (s : State) (e k : Nat) (g : BrdSlot → BrdSlot) : (setBslot s e k g).bgw = s.bgw := (rfl)
@[simp] theorem setBslot_det (s : State) (e k : Nat) (g : BrdSlot → BrdSlot) : (setBslot s e k g).det = s.det := (rfl)
@[simp] theorem setBslot_lanes (s : State) (e k : Nat) (g : BrdSlot → BrdSlot) : (setBslot s e k g).lanes = s.lanes := (rfl)
@[simp] theorem setBslot_slices (s : State) (e k : Nat) (g : BrdSlot → BrdSlot) : (setBslot s e k g).slices = s.slices := (rfl)
@[simp] theorem setBslot_engines (s : State) (e k : Nat) (g : BrdSlot → BrdSlot) : (setBslot s e k g).engines = s.engines := (rfl)
@[simp] theorem setBslot_spn (s : State) (e k : Nat) (g : BrdSlot → BrdSlot) : (setBslot s e k g).spn = s.spn := (rfl)
@[simp] theorem setBslot_shelf (s : State) (e k : Nat) (g : BrdSlot → BrdSlot) : (setBslot s e k g).shelf = s.shelf := (rfl)
@[simp] theorem setBslot_bal (s : State) (e k : Nat) (g : BrdSlot → BrdSlot) : (setBslot s e k g).bal = s.bal := (rfl)
@[simp] theorem setBslot_cch (s : State) (e k : Nat) (g : BrdSlot → BrdSlot) : (setBslot s e k g).cch = s.cch := (rfl)
@[simp] theorem setBslot_mem (s : State) (e k : Nat) (g : BrdSlot → BrdSlot) : (setBslot s e k g).mem = s.mem := (rfl)
@[simp] theorem setBslot_mcs (s : State) (e k : Nat) (g : BrdSlot → BrdSlot) : (setBslot s e k g).mcs = s.mcs := (rfl)
@[simp] theorem setBslot_pending (s : State) (e k : Nat) (g : BrdSlot → BrdSlot) : (setBslot s e k g).pending = s.pending := (rfl)
@[simp] theorem setFseq_regs (s : State) (f : Nat) (g : FSeq → FSeq) : (setFseq s f g).regs = s.regs := (rfl)
@[simp] theorem setFseq_latches (s : State) (f : Nat) (g : FSeq → FSeq) : (setFseq s f g).latches = s.latches := (rfl)
@[simp] theorem setFseq_out (s : State) (f : Nat) (g : FSeq → FSeq) : (setFseq s f g).out = s.out := (rfl)
@[simp] theorem setFseq_free (s : State) (f : Nat) (g : FSeq → FSeq) : (setFseq s f g).free = s.free := (rfl)
@[simp] theorem setFseq_evt (s : State) (f : Nat) (g : FSeq → FSeq) : (setFseq s f g).evt = s.evt := (rfl)
@[simp] theorem setFseq_trs (s : State) (f : Nat) (g : FSeq → FSeq) : (setFseq s f g).trs = s.trs := (rfl)
@[simp] theorem setFseq_units (s : State) (f : Nat) (g : FSeq → FSeq) : (setFseq s f g).units = s.units := (rfl)
@[simp] theorem setFseq_tth (s : State) (f : Nat) (g : FSeq → FSeq) : (setFseq s f g).tth = s.tth := (rfl)
@[simp] theorem setFseq_fe (s : State) (f : Nat) (g : FSeq → FSeq) : (setFseq s f g).fe = s.fe := (rfl)
@[simp] theorem setFseq_zmp (s : State) (f : Nat) (g : FSeq → FSeq) : (setFseq s f g).zmp = s.zmp := (rfl)
@[simp] theorem setFseq_host (s : State) (f : Nat) (g : FSeq → FSeq) : (setFseq s f g).host = s.host := (rfl)
@[simp] theorem setFseq_pwr (s : State) (f : Nat) (g : FSeq → FSeq) : (setFseq s f g).pwr = s.pwr := (rfl)
@[simp] theorem setFseq_fls (s : State) (f : Nat) (g : FSeq → FSeq) : (setFseq s f g).fls = s.fls := (rfl)
@[simp] theorem setFseq_prt (s : State) (f : Nat) (g : FSeq → FSeq) : (setFseq s f g).prt = s.prt := (rfl)
@[simp] theorem setFseq_bgw (s : State) (f : Nat) (g : FSeq → FSeq) : (setFseq s f g).bgw = s.bgw := (rfl)
@[simp] theorem setFseq_det (s : State) (f : Nat) (g : FSeq → FSeq) : (setFseq s f g).det = s.det := (rfl)
@[simp] theorem setFseq_lanes (s : State) (f : Nat) (g : FSeq → FSeq) : (setFseq s f g).lanes = s.lanes := (rfl)
@[simp] theorem setFseq_slices (s : State) (f : Nat) (g : FSeq → FSeq) : (setFseq s f g).slices = s.slices := (rfl)
@[simp] theorem setFseq_slots (s : State) (f : Nat) (g : FSeq → FSeq) : (setFseq s f g).slots = s.slots := (rfl)
@[simp] theorem setFseq_engines (s : State) (f : Nat) (g : FSeq → FSeq) : (setFseq s f g).engines = s.engines := (rfl)
@[simp] theorem setFseq_spn (s : State) (f : Nat) (g : FSeq → FSeq) : (setFseq s f g).spn = s.spn := (rfl)
@[simp] theorem setFseq_shelf (s : State) (f : Nat) (g : FSeq → FSeq) : (setFseq s f g).shelf = s.shelf := (rfl)
@[simp] theorem setFseq_bal (s : State) (f : Nat) (g : FSeq → FSeq) : (setFseq s f g).bal = s.bal := (rfl)
@[simp] theorem setFseq_cch (s : State) (f : Nat) (g : FSeq → FSeq) : (setFseq s f g).cch = s.cch := (rfl)
@[simp] theorem setFseq_mem (s : State) (f : Nat) (g : FSeq → FSeq) : (setFseq s f g).mem = s.mem := (rfl)
@[simp] theorem setFseq_pending (s : State) (f : Nat) (g : FSeq → FSeq) : (setFseq s f g).pending = s.pending := (rfl)
@[simp] theorem setZseq_regs (s : State) (z : Nat) (g : ZSeq → ZSeq) : (setZseq s z g).regs = s.regs := (rfl)
@[simp] theorem setZseq_latches (s : State) (z : Nat) (g : ZSeq → ZSeq) : (setZseq s z g).latches = s.latches := (rfl)
@[simp] theorem setZseq_out (s : State) (z : Nat) (g : ZSeq → ZSeq) : (setZseq s z g).out = s.out := (rfl)
@[simp] theorem setZseq_free (s : State) (z : Nat) (g : ZSeq → ZSeq) : (setZseq s z g).free = s.free := (rfl)
@[simp] theorem setZseq_evt (s : State) (z : Nat) (g : ZSeq → ZSeq) : (setZseq s z g).evt = s.evt := (rfl)
@[simp] theorem setZseq_trs (s : State) (z : Nat) (g : ZSeq → ZSeq) : (setZseq s z g).trs = s.trs := (rfl)
@[simp] theorem setZseq_units (s : State) (z : Nat) (g : ZSeq → ZSeq) : (setZseq s z g).units = s.units := (rfl)
@[simp] theorem setZseq_tth (s : State) (z : Nat) (g : ZSeq → ZSeq) : (setZseq s z g).tth = s.tth := (rfl)
@[simp] theorem setZseq_fe (s : State) (z : Nat) (g : ZSeq → ZSeq) : (setZseq s z g).fe = s.fe := (rfl)
@[simp] theorem setZseq_zmp (s : State) (z : Nat) (g : ZSeq → ZSeq) : (setZseq s z g).zmp = s.zmp := (rfl)
@[simp] theorem setZseq_host (s : State) (z : Nat) (g : ZSeq → ZSeq) : (setZseq s z g).host = s.host := (rfl)
@[simp] theorem setZseq_pwr (s : State) (z : Nat) (g : ZSeq → ZSeq) : (setZseq s z g).pwr = s.pwr := (rfl)
@[simp] theorem setZseq_fls (s : State) (z : Nat) (g : ZSeq → ZSeq) : (setZseq s z g).fls = s.fls := (rfl)
@[simp] theorem setZseq_prt (s : State) (z : Nat) (g : ZSeq → ZSeq) : (setZseq s z g).prt = s.prt := (rfl)
@[simp] theorem setZseq_bgw (s : State) (z : Nat) (g : ZSeq → ZSeq) : (setZseq s z g).bgw = s.bgw := (rfl)
@[simp] theorem setZseq_det (s : State) (z : Nat) (g : ZSeq → ZSeq) : (setZseq s z g).det = s.det := (rfl)
@[simp] theorem setZseq_lanes (s : State) (z : Nat) (g : ZSeq → ZSeq) : (setZseq s z g).lanes = s.lanes := (rfl)
@[simp] theorem setZseq_slices (s : State) (z : Nat) (g : ZSeq → ZSeq) : (setZseq s z g).slices = s.slices := (rfl)
@[simp] theorem setZseq_slots (s : State) (z : Nat) (g : ZSeq → ZSeq) : (setZseq s z g).slots = s.slots := (rfl)
@[simp] theorem setZseq_engines (s : State) (z : Nat) (g : ZSeq → ZSeq) : (setZseq s z g).engines = s.engines := (rfl)
@[simp] theorem setZseq_spn (s : State) (z : Nat) (g : ZSeq → ZSeq) : (setZseq s z g).spn = s.spn := (rfl)
@[simp] theorem setZseq_shelf (s : State) (z : Nat) (g : ZSeq → ZSeq) : (setZseq s z g).shelf = s.shelf := (rfl)
@[simp] theorem setZseq_bal (s : State) (z : Nat) (g : ZSeq → ZSeq) : (setZseq s z g).bal = s.bal := (rfl)
@[simp] theorem setZseq_cch (s : State) (z : Nat) (g : ZSeq → ZSeq) : (setZseq s z g).cch = s.cch := (rfl)
@[simp] theorem setZseq_mem (s : State) (z : Nat) (g : ZSeq → ZSeq) : (setZseq s z g).mem = s.mem := (rfl)
@[simp] theorem setZseq_pending (s : State) (z : Nat) (g : ZSeq → ZSeq) : (setZseq s z g).pending = s.pending := (rfl)

/-! ### Events and counters: nothing beyond registers, outputs, free values and the router's lists -/

theorem RestSame.trans {s t u : State} (h : RestSame s t) (g : RestSame t u) : RestSame s u :=
  Eq.trans g (congrArg (fun x : State => { x with regs := u.regs, out := u.out, free := u.free, evt := u.evt }) h)

theorem RestSame.ite {s t u : State} {c : Prop} [Decidable c] (h : RestSame s t) (g : RestSame s u) :
    RestSame s (if c then t else u) := by
  split <;> assumption

theorem RestSame.when {s t : State} {b : Bool} {f : State → State} (h : RestSame s t) (hf : ∀ u, RestSame s u → RestSame s (f u)) :
    RestSame s (when b t f) := by
  unfold Machine.when
  exact RestSame.ite (hf _ h) h

theorem RestSame.forAll {α : Type} {s t : State} {xs : List α} {f : State → α → State} (h : RestSame s t)
    (hf : ∀ u x, RestSame s u → RestSame s (f u x)) : RestSame s (forAll xs t f) := by
  unfold Machine.forAll
  induction xs generalizing t with
  | nil => exact h
  | cons x xs ih => exact ih (hf t x h)

theorem cntQuiet_rest (s : State) (a d : Nat) (b : EvtBlk) (i : Nat) : RestSame s (cntQuiet s a d b i) := by
  have h : RestSame s (cntRaw s a d) := by
    unfold cntRaw
    exact RestSame.ite rfl rfl
  unfold cntQuiet
  exact RestSame.ite (RestSame.trans h rfl) h

theorem wbit_rest (s : State) (a i : Nat) (b : Bool) : RestSame s (wbit s a i b) := (rfl)

theorem drawn_rest (s : State) : RestSame s (drawn s) := (rfl)

theorem fieldPair_rest (s : State) (e : EvtState) (a : Nat) (f g : Fld) (b : Bool) (n : Nat) :
    RestSame s (fset (fsetb { s with evt := e } a g b) a f n) := (rfl)

theorem tailSet_rest (s : State) (r : Nat) (l : List TailRec) : RestSame s (tailSet s r l) := by
  unfold tailSet
  exact fieldPair_rest ..

theorem tailAppend_rest (s : State) (src r : Nat) : RestSame s (tailAppend s src r) := by
  unfold tailAppend
  extract_lets x s1
  have g : RestSame s s1 := RestSame.trans (drawn_rest s) (tailSet_rest ..)
  clear_value s1
  exact RestSame.ite (g.trans (wbit_rest ..)) g

theorem tailRecord_rest (s : State) (src r : Nat) : RestSame s (tailRecord s src r) := by
  have hd : RestSame s (tailDrop s r) := cntQuiet_rest ..
  have ht : ∀ (l : List TailRec), RestSame s (tailSet s r l) := fun l => tailSet_rest s r l
  have ha := tailAppend_rest s src r
  unfold tailRecord
  refine RestSame.ite hd ?_
  extract_lets x
  split
  · exact RestSame.ite (RestSame.ite (ht _) hd) (RestSame.ite hd ha)
  · exact ha

theorem aenNotice_rest (s : State) (p : Nat) : RestSame s (aenNotice s p) := by
  unfold aenNotice aenPost
  refine RestSame.ite rfl ?_
  split <;> rfl

theorem routerPeer_rest (s : State) (n : Nat) : RestSame s (routerPeer s n) :=
  RestSame.ite (RestSame.trans (t := emit s (.peerEvent n)) rfl (cntQuiet_rest ..)) (RestSame.trans (cntQuiet_rest ..) rfl)

theorem hostIrq_rest (s : State) (p v : Nat) : RestSame s (hostIrq s p v) :=
  RestSame.ite rfl (RestSame.ite rfl rfl)

theorem routerMsix_rest (s : State) (p v : Nat) : RestSame s (routerMsix s p v) :=
  RestSame.trans (hostIrq_rest ..) (cntQuiet_rest ..)

theorem pendSet_rest (s : State) (n : Nat) (o : Bool) : RestSame s (pendSet s n o) := by
  unfold pendSet
  extract_lets w0 w1 s1 s2 s3 s4 s5 s6
  have h1 : RestSame s s1 := RestSame.trans (t := wbit s (EVT_PEND (n / 32)) (n % 32) true) rfl (cntQuiet_rest ..)
  clear_value s1
  have h2 : RestSame s s2 := RestSame.when h1 fun _ hu => hu.trans (routerMsix_rest ..)
  clear_value s2
  have h3 : RestSame s s3 := RestSame.when h2 fun _ hu => hu.trans (routerMsix_rest ..)
  clear_value s3
  have h4 : RestSame s s4 := RestSame.when h3 fun _ hu => hu.trans (routerPeer_rest ..)
  clear_value s4
  have h5 : RestSame s s5 := RestSame.when h4 fun _ hu => hu.trans (aenNotice_rest ..)
  clear_value s5
  have h6 : RestSame s s6 := RestSame.when h5 fun _ hu => hu.trans (aenNotice_rest ..)
  clear_value s6
  exact RestSame.ite (RestSame.when h6 fun _ hu => RestSame.forAll hu fun _ _ hv =>
    RestSame.ite (hv.trans (tailRecord_rest ..)) hv) h1

theorem ownRise_rest (s : State) (a b : Bool) : RestSame s (ownRise s a b) := by
  unfold ownRise
  extract_lets r9 s1 r10 s2
  have h1 : RestSame s s1 := RestSame.when rfl fun _ hu => hu.trans (pendSet_rest ..)
  clear_value s1
  have h2 : RestSame s s2 := RestSame.when h1 fun _ hu => hu.trans (pendSet_rest ..)
  clear_value s2
  exact RestSame.when h2 fun _ hu => hu.trans (pendSet_rest ..)

theorem sourceRise_rest (s : State) (n : Nat) : RestSame s (sourceRise s n) := (pendSet_rest ..).trans (ownRise_rest ..)

theorem risesOf_rest (s old : State) (b : EvtBlk) : RestSame s (risesOf s old b) := by
  unfold risesOf
  split
  · exact ownRise_rest ..
  · exact ownRise_rest ..
  · exact RestSame.forAll rfl fun _ _ hu => RestSame.ite (hu.trans (sourceRise_rest ..)) hu

theorem evtSet_rest (s : State) (b : EvtBlk) (i : Nat) : RestSame s (evtSet s b i) :=
  RestSame.trans (t := wbit s (evtAddr b) i true) rfl (risesOf_rest ..)

theorem count_rest (s : State) (a d : Nat) (b : EvtBlk) (i : Nat) : RestSame s (count s a d b i) :=
  (cntQuiet_rest ..).trans (risesOf_rest ..)

theorem count64_rest (s : State) (a d : Nat) (b : EvtBlk) (i : Nat) : RestSame s (count64 s a d b i) := by
  unfold count64
  refine RestSame.ite rfl (RestSame.ite rfl (RestSame.trans ?_ (evtSet_rest ..)))
  rfl

theorem RestSame.latches {s t : State} (h : RestSame s t) : t.latches = s.latches := by
  unfold RestSame at h
  rw [h]

theorem RestSame.trs {s t : State} (h : RestSame s t) : t.trs = s.trs := by
  unfold RestSame at h
  rw [h]

theorem RestSame.units {s t : State} (h : RestSame s t) : t.units = s.units := by
  unfold RestSame at h
  rw [h]

theorem RestSame.tth {s t : State} (h : RestSame s t) : t.tth = s.tth := by
  unfold RestSame at h
  rw [h]

theorem RestSame.fe {s t : State} (h : RestSame s t) : t.fe = s.fe := by
  unfold RestSame at h
  rw [h]

theorem RestSame.zmp {s t : State} (h : RestSame s t) : t.zmp = s.zmp := by
  unfold RestSame at h
  rw [h]

theorem RestSame.host {s t : State} (h : RestSame s t) : t.host = s.host := by
  unfold RestSame at h
  rw [h]

theorem RestSame.pwr {s t : State} (h : RestSame s t) : t.pwr = s.pwr := by
  unfold RestSame at h
  rw [h]

theorem RestSame.fls {s t : State} (h : RestSame s t) : t.fls = s.fls := by
  unfold RestSame at h
  rw [h]

theorem RestSame.prt {s t : State} (h : RestSame s t) : t.prt = s.prt := by
  unfold RestSame at h
  rw [h]

theorem RestSame.bgw {s t : State} (h : RestSame s t) : t.bgw = s.bgw := by
  unfold RestSame at h
  rw [h]

theorem RestSame.det {s t : State} (h : RestSame s t) : t.det = s.det := by
  unfold RestSame at h
  rw [h]

theorem RestSame.lanes {s t : State} (h : RestSame s t) : t.lanes = s.lanes := by
  unfold RestSame at h
  rw [h]

theorem RestSame.slices {s t : State} (h : RestSame s t) : t.slices = s.slices := by
  unfold RestSame at h
  rw [h]

theorem RestSame.slots {s t : State} (h : RestSame s t) : t.slots = s.slots := by
  unfold RestSame at h
  rw [h]

theorem RestSame.engines {s t : State} (h : RestSame s t) : t.engines = s.engines := by
  unfold RestSame at h
  rw [h]

theorem RestSame.spn {s t : State} (h : RestSame s t) : t.spn = s.spn := by
  unfold RestSame at h
  rw [h]

theorem RestSame.shelf {s t : State} (h : RestSame s t) : t.shelf = s.shelf := by
  unfold RestSame at h
  rw [h]

theorem RestSame.bal {s t : State} (h : RestSame s t) : t.bal = s.bal := by
  unfold RestSame at h
  rw [h]

theorem RestSame.cch {s t : State} (h : RestSame s t) : t.cch = s.cch := by
  unfold RestSame at h
  rw [h]

theorem RestSame.mem {s t : State} (h : RestSame s t) : t.mem = s.mem := by
  unfold RestSame at h
  rw [h]

theorem RestSame.mcs {s t : State} (h : RestSame s t) : t.mcs = s.mcs := by
  unfold RestSame at h
  rw [h]

theorem RestSame.pending {s t : State} (h : RestSame s t) : t.pending = s.pending := by
  unfold RestSame at h
  rw [h]

/-! ### A record read after its update -/

theorem tabGet_upd_same {α : Type} (d : α) (t : Tab α) (k : Nat) (f : α → α) :
    tabGet d (tabUpd d t k f) k = f (tabGet d t k) := by rw [tabGet_upd, if_pos rfl]

@[simp] theorem tthOf_setTth (s : State) (p : Nat) (g : TthPort → TthPort) : tthOf (setTth s p g) p = g (tthOf s p) := tabGet_upd_same ..

@[simp] theorem feOf_setFe (s : State) (p : Nat) (g : FrontEnd → FrontEnd) : feOf (setFe s p g) p = g (feOf s p) := tabGet_upd_same ..

@[simp] theorem spnOf_setSpn (s : State) (p : Nat) (g : SpnPort → SpnPort) : spnOf (setSpn s p g) p = g (spnOf s p) := tabGet_upd_same ..

@[simp] theorem uAux_setAux (s : State) (p : Nat) (g : UnitAux → UnitAux) : uAux (setAux s p g) p = g (uAux s p) := tabGet_upd_same ..

@[simp] theorem slice_setSlice (s : State) (p : Nat) (g : ServoSlice → ServoSlice) : slice (setSlice s p g) p = g (slice s p) := tabGet_upd_same ..

@[simp] theorem engine_setEngine (s : State) (p : Nat) (g : BrdEng → BrdEng) : engine (setEngine s p g) p = g (engine s p) := tabGet_upd_same ..

@[simp] theorem fseqOf_setFseq (s : State) (p : Nat) (g : FSeq → FSeq) : fseqOf (setFseq s p g) p = g (fseqOf s p) := tabGet_upd_same ..

@[simp] theorem zseq_setZseq (s : State) (p : Nat) (g : ZSeq → ZSeq) : zseq (setZseq s p g) p = g (zseq s p) := tabGet_upd_same ..

@[simp] theorem slane_setSlane (s : State) (a l : Nat) (g : ServoLane → ServoLane) : slane (setSlane s a l g) a l = g (slane s a l) := tabGet_upd_same ..

@[simp] theorem bslot_setBslot (s : State) (a l : Nat) (g : BrdSlot → BrdSlot) : bslot (setBslot s a l g) a l = g (bslot s a l) := tabGet_upd_same ..


@[simp] theorem cntQuiet_latches (s : State) (a d : Nat) (b : EvtBlk) (i : Nat) : (cntQuiet s a d b i).latches = s.latches := RestSame.latches (cntQuiet_rest s a d b i)
@[simp] theorem cntQuiet_trs (s : State) (a d : Nat) (b : EvtBlk) (i : Nat) : (cntQuiet s a d b i).trs = s.trs := RestSame.trs (cntQuiet_rest s a d b i)
@[simp] theorem cntQuiet_units (s : State) (a d : Nat) (b : EvtBlk) (i : Nat) : (cntQuiet s a d b i).units = s.units := RestSame.units (cntQuiet_rest s a d b i)
@[simp] theorem cntQuiet_tth (s : State) (a d : Nat) (b : EvtBlk) (i : Nat) : (cntQuiet s a d b i).tth = s.tth := RestSame.tth (cntQuiet_rest s a d b i)
@[simp] theorem cntQuiet_fe (s : State) (a d : Nat) (b : EvtBlk) (i : Nat) : (cntQuiet s a d b i).fe = s.fe := RestSame.fe (cntQuiet_rest s a d b i)
@[simp] theorem cntQuiet_zmp (s : State) (a d : Nat) (b : EvtBlk) (i : Nat) : (cntQuiet s a d b i).zmp = s.zmp := RestSame.zmp (cntQuiet_rest s a d b i)
@[simp] theorem cntQuiet_host (s : State) (a d : Nat) (b : EvtBlk) (i : Nat) : (cntQuiet s a d b i).host = s.host := RestSame.host (cntQuiet_rest s a d b i)
@[simp] theorem cntQuiet_pwr (s : State) (a d : Nat) (b : EvtBlk) (i : Nat) : (cntQuiet s a d b i).pwr = s.pwr := RestSame.pwr (cntQuiet_rest s a d b i)
@[simp] theorem cntQuiet_fls (s : State) (a d : Nat) (b : EvtBlk) (i : Nat) : (cntQuiet s a d b i).fls = s.fls := RestSame.fls (cntQuiet_rest s a d b i)
@[simp] theorem cntQuiet_prt (s : State) (a d : Nat) (b : EvtBlk) (i : Nat) : (cntQuiet s a d b i).prt = s.prt := RestSame.prt (cntQuiet_rest s a d b i)
@[simp] theorem cntQuiet_bgw (s : State) (a d : Nat) (b : EvtBlk) (i : Nat) : (cntQuiet s a d b i).bgw = s.bgw := RestSame.bgw (cntQuiet_rest s a d b i)
@[simp] theorem cntQuiet_det (s : State) (a d : Nat) (b : EvtBlk) (i : Nat) : (cntQuiet s a d b i).det = s.det := RestSame.det (cntQuiet_rest s a d b i)
@[simp] theorem cntQuiet_lanes (s : State) (a d : Nat) (b : EvtBlk) (i : Nat) : (cntQuiet s a d b i).lanes = s.lanes := RestSame.lanes (cntQuiet_rest s a d b i)
@[simp] theorem cntQuiet_slices (s : State) (a d : Nat) (b : EvtBlk) (i : Nat) : (cntQuiet s a d b i).slices = s.slices := RestSame.slices (cntQuiet_rest s a d b i)
@[simp] theorem cntQuiet_slots (s : State) (a d : Nat) (b : EvtBlk) (i : Nat) : (cntQuiet s a d b i).slots = s.slots := RestSame.slots (cntQuiet_rest s a d b i)
@[simp] theorem cntQuiet_engines (s : State) (a d : Nat) (b : EvtBlk) (i : Nat) : (cntQuiet s a d b i).engines = s.engines := RestSame.engines (cntQuiet_rest s a d b i)
@[simp] theorem cntQuiet_spn (s : State) (a d : Nat) (b : EvtBlk) (i : Nat) : (cntQuiet s a d b i).spn = s.spn := RestSame.spn (cntQuiet_rest s a d b i)
@[simp] theorem cntQuiet_shelf (s : State) (a d : Nat) (b : EvtBlk) (i : Nat) : (cntQuiet s a d b i).shelf = s.shelf := RestSame.shelf (cntQuiet_rest s a d b i)
@[simp] theorem cntQuiet_bal (s : State) (a d : Nat) (b : EvtBlk) (i : Nat) : (cntQuiet s a d b i).bal = s.bal := RestSame.bal (cntQuiet_rest s a d b i)
@[simp] theorem cntQuiet_cch (s : State) (a d : Nat) (b : EvtBlk) (i : Nat) : (cntQuiet s a d b i).cch = s.cch := RestSame.cch (cntQuiet_rest s a d b i)
@[simp] theorem cntQuiet_mem (s : State) (a d : Nat) (b : EvtBlk) (i : Nat) : (cntQuiet s a d b i).mem = s.mem := RestSame.mem (cntQuiet_rest s a d b i)
@[simp] theorem cntQuiet_mcs (s : State) (a d : Nat) (b : EvtBlk) (i : Nat) : (cntQuiet s a d b i).mcs = s.mcs := RestSame.mcs (cntQuiet_rest s a d b i)
@[simp] theorem cntQuiet_pending (s : State) (a d : Nat) (b : EvtBlk) (i : Nat) : (cntQuiet s a d b i).pending = s.pending := RestSame.pending (cntQuiet_rest s a d b i)
@[simp] theorem count_latches (s : State) (a d : Nat) (b : EvtBlk) (i : Nat) : (count s a d b i).latches = s.latches := RestSame.latches (count_rest s a d b i)
@[simp] theorem count_trs (s : State) (a d : Nat) (b : EvtBlk) (i : Nat) : (count s a d b i).trs = s.trs := RestSame.trs (count_rest s a d b i)
@[simp] theorem count_units (s : State) (a d : Nat) (b : EvtBlk) (i : Nat) : (count s a d b i).units = s.units := RestSame.units (count_rest s a d b i)
@[simp] theorem count_tth (s : State) (a d : Nat) (b : EvtBlk) (i : Nat) : (count s a d b i).tth = s.tth := RestSame.tth (count_rest s a d b i)
@[simp] theorem count_fe (s : State) (a d : Nat) (b : EvtBlk) (i : Nat) : (count s a d b i).fe = s.fe := RestSame.fe (count_rest s a d b i)
@[simp] theorem count_zmp (s : State) (a d : Nat) (b : EvtBlk) (i : Nat) : (count s a d b i).zmp = s.zmp := RestSame.zmp (count_rest s a d b i)
@[simp] theorem count_host (s : State) (a d : Nat) (b : EvtBlk) (i : Nat) : (count s a d b i).host = s.host := RestSame.host (count_rest s a d b i)
@[simp] theorem count_pwr (s : State) (a d : Nat) (b : EvtBlk) (i : Nat) : (count s a d b i).pwr = s.pwr := RestSame.pwr (count_rest s a d b i)
@[simp] theorem count_fls (s : State) (a d : Nat) (b : EvtBlk) (i : Nat) : (count s a d b i).fls = s.fls := RestSame.fls (count_rest s a d b i)
@[simp] theorem count_prt (s : State) (a d : Nat) (b : EvtBlk) (i : Nat) : (count s a d b i).prt = s.prt := RestSame.prt (count_rest s a d b i)
@[simp] theorem count_bgw (s : State) (a d : Nat) (b : EvtBlk) (i : Nat) : (count s a d b i).bgw = s.bgw := RestSame.bgw (count_rest s a d b i)
@[simp] theorem count_det (s : State) (a d : Nat) (b : EvtBlk) (i : Nat) : (count s a d b i).det = s.det := RestSame.det (count_rest s a d b i)
@[simp] theorem count_lanes (s : State) (a d : Nat) (b : EvtBlk) (i : Nat) : (count s a d b i).lanes = s.lanes := RestSame.lanes (count_rest s a d b i)
@[simp] theorem count_slices (s : State) (a d : Nat) (b : EvtBlk) (i : Nat) : (count s a d b i).slices = s.slices := RestSame.slices (count_rest s a d b i)
@[simp] theorem count_slots (s : State) (a d : Nat) (b : EvtBlk) (i : Nat) : (count s a d b i).slots = s.slots := RestSame.slots (count_rest s a d b i)
@[simp] theorem count_engines (s : State) (a d : Nat) (b : EvtBlk) (i : Nat) : (count s a d b i).engines = s.engines := RestSame.engines (count_rest s a d b i)
@[simp] theorem count_spn (s : State) (a d : Nat) (b : EvtBlk) (i : Nat) : (count s a d b i).spn = s.spn := RestSame.spn (count_rest s a d b i)
@[simp] theorem count_shelf (s : State) (a d : Nat) (b : EvtBlk) (i : Nat) : (count s a d b i).shelf = s.shelf := RestSame.shelf (count_rest s a d b i)
@[simp] theorem count_bal (s : State) (a d : Nat) (b : EvtBlk) (i : Nat) : (count s a d b i).bal = s.bal := RestSame.bal (count_rest s a d b i)
@[simp] theorem count_cch (s : State) (a d : Nat) (b : EvtBlk) (i : Nat) : (count s a d b i).cch = s.cch := RestSame.cch (count_rest s a d b i)
@[simp] theorem count_mem (s : State) (a d : Nat) (b : EvtBlk) (i : Nat) : (count s a d b i).mem = s.mem := RestSame.mem (count_rest s a d b i)
@[simp] theorem count_mcs (s : State) (a d : Nat) (b : EvtBlk) (i : Nat) : (count s a d b i).mcs = s.mcs := RestSame.mcs (count_rest s a d b i)
@[simp] theorem count_pending (s : State) (a d : Nat) (b : EvtBlk) (i : Nat) : (count s a d b i).pending = s.pending := RestSame.pending (count_rest s a d b i)
@[simp] theorem evtSet_latches (s : State) (b : EvtBlk) (i : Nat) : (evtSet s b i).latches = s.latches := RestSame.latches (evtSet_rest s b i)
@[simp] theorem evtSet_trs (s : State) (b : EvtBlk) (i : Nat) : (evtSet s b i).trs = s.trs := RestSame.trs (evtSet_rest s b i)
@[simp] theorem evtSet_units (s : State) (b : EvtBlk) (i : Nat) : (evtSet s b i).units = s.units := RestSame.units (evtSet_rest s b i)
@[simp] theorem evtSet_tth (s : State) (b : EvtBlk) (i : Nat) : (evtSet s b i).tth = s.tth := RestSame.tth (evtSet_rest s b i)
@[simp] theorem evtSet_fe (s : State) (b : EvtBlk) (i : Nat) : (evtSet s b i).fe = s.fe := RestSame.fe (evtSet_rest s b i)
@[simp] theorem evtSet_zmp (s : State) (b : EvtBlk) (i : Nat) : (evtSet s b i).zmp = s.zmp := RestSame.zmp (evtSet_rest s b i)
@[simp] theorem evtSet_host (s : State) (b : EvtBlk) (i : Nat) : (evtSet s b i).host = s.host := RestSame.host (evtSet_rest s b i)
@[simp] theorem evtSet_pwr (s : State) (b : EvtBlk) (i : Nat) : (evtSet s b i).pwr = s.pwr := RestSame.pwr (evtSet_rest s b i)
@[simp] theorem evtSet_fls (s : State) (b : EvtBlk) (i : Nat) : (evtSet s b i).fls = s.fls := RestSame.fls (evtSet_rest s b i)
@[simp] theorem evtSet_prt (s : State) (b : EvtBlk) (i : Nat) : (evtSet s b i).prt = s.prt := RestSame.prt (evtSet_rest s b i)
@[simp] theorem evtSet_bgw (s : State) (b : EvtBlk) (i : Nat) : (evtSet s b i).bgw = s.bgw := RestSame.bgw (evtSet_rest s b i)
@[simp] theorem evtSet_det (s : State) (b : EvtBlk) (i : Nat) : (evtSet s b i).det = s.det := RestSame.det (evtSet_rest s b i)
@[simp] theorem evtSet_lanes (s : State) (b : EvtBlk) (i : Nat) : (evtSet s b i).lanes = s.lanes := RestSame.lanes (evtSet_rest s b i)
@[simp] theorem evtSet_slices (s : State) (b : EvtBlk) (i : Nat) : (evtSet s b i).slices = s.slices := RestSame.slices (evtSet_rest s b i)
@[simp] theorem evtSet_slots (s : State) (b : EvtBlk) (i : Nat) : (evtSet s b i).slots = s.slots := RestSame.slots (evtSet_rest s b i)
@[simp] theorem evtSet_engines (s : State) (b : EvtBlk) (i : Nat) : (evtSet s b i).engines = s.engines := RestSame.engines (evtSet_rest s b i)
@[simp] theorem evtSet_spn (s : State) (b : EvtBlk) (i : Nat) : (evtSet s b i).spn = s.spn := RestSame.spn (evtSet_rest s b i)
@[simp] theorem evtSet_shelf (s : State) (b : EvtBlk) (i : Nat) : (evtSet s b i).shelf = s.shelf := RestSame.shelf (evtSet_rest s b i)
@[simp] theorem evtSet_bal (s : State) (b : EvtBlk) (i : Nat) : (evtSet s b i).bal = s.bal := RestSame.bal (evtSet_rest s b i)
@[simp] theorem evtSet_cch (s : State) (b : EvtBlk) (i : Nat) : (evtSet s b i).cch = s.cch := RestSame.cch (evtSet_rest s b i)
@[simp] theorem evtSet_mem (s : State) (b : EvtBlk) (i : Nat) : (evtSet s b i).mem = s.mem := RestSame.mem (evtSet_rest s b i)
@[simp] theorem evtSet_mcs (s : State) (b : EvtBlk) (i : Nat) : (evtSet s b i).mcs = s.mcs := RestSame.mcs (evtSet_rest s b i)
@[simp] theorem evtSet_pending (s : State) (b : EvtBlk) (i : Nat) : (evtSet s b i).pending = s.pending := RestSame.pending (evtSet_rest s b i)
@[simp] theorem sourceRise_latches (s : State) (n : Nat) : (sourceRise s n).latches = s.latches := RestSame.latches (sourceRise_rest s n)
@[simp] theorem sourceRise_trs (s : State) (n : Nat) : (sourceRise s n).trs = s.trs := RestSame.trs (sourceRise_rest s n)
@[simp] theorem sourceRise_units (s : State) (n : Nat) : (sourceRise s n).units = s.units := RestSame.units (sourceRise_rest s n)
@[simp] theorem sourceRise_tth (s : State) (n : Nat) : (sourceRise s n).tth = s.tth := RestSame.tth (sourceRise_rest s n)
@[simp] theorem sourceRise_fe (s : State) (n : Nat) : (sourceRise s n).fe = s.fe := RestSame.fe (sourceRise_rest s n)
@[simp] theorem sourceRise_zmp (s : State) (n : Nat) : (sourceRise s n).zmp = s.zmp := RestSame.zmp (sourceRise_rest s n)
@[simp] theorem sourceRise_host (s : State) (n : Nat) : (sourceRise s n).host = s.host := RestSame.host (sourceRise_rest s n)
@[simp] theorem sourceRise_pwr (s : State) (n : Nat) : (sourceRise s n).pwr = s.pwr := RestSame.pwr (sourceRise_rest s n)
@[simp] theorem sourceRise_fls (s : State) (n : Nat) : (sourceRise s n).fls = s.fls := RestSame.fls (sourceRise_rest s n)
@[simp] theorem sourceRise_prt (s : State) (n : Nat) : (sourceRise s n).prt = s.prt := RestSame.prt (sourceRise_rest s n)
@[simp] theorem sourceRise_bgw (s : State) (n : Nat) : (sourceRise s n).bgw = s.bgw := RestSame.bgw (sourceRise_rest s n)
@[simp] theorem sourceRise_det (s : State) (n : Nat) : (sourceRise s n).det = s.det := RestSame.det (sourceRise_rest s n)
@[simp] theorem sourceRise_lanes (s : State) (n : Nat) : (sourceRise s n).lanes = s.lanes := RestSame.lanes (sourceRise_rest s n)
@[simp] theorem sourceRise_slices (s : State) (n : Nat) : (sourceRise s n).slices = s.slices := RestSame.slices (sourceRise_rest s n)
@[simp] theorem sourceRise_slots (s : State) (n : Nat) : (sourceRise s n).slots = s.slots := RestSame.slots (sourceRise_rest s n)
@[simp] theorem sourceRise_engines (s : State) (n : Nat) : (sourceRise s n).engines = s.engines := RestSame.engines (sourceRise_rest s n)
@[simp] theorem sourceRise_spn (s : State) (n : Nat) : (sourceRise s n).spn = s.spn := RestSame.spn (sourceRise_rest s n)
@[simp] theorem sourceRise_shelf (s : State) (n : Nat) : (sourceRise s n).shelf = s.shelf := RestSame.shelf (sourceRise_rest s n)
@[simp] theorem sourceRise_bal (s : State) (n : Nat) : (sourceRise s n).bal = s.bal := RestSame.bal (sourceRise_rest s n)
@[simp] theorem sourceRise_cch (s : State) (n : Nat) : (sourceRise s n).cch = s.cch := RestSame.cch (sourceRise_rest s n)
@[simp] theorem sourceRise_mem (s : State) (n : Nat) : (sourceRise s n).mem = s.mem := RestSame.mem (sourceRise_rest s n)
@[simp] theorem sourceRise_mcs (s : State) (n : Nat) : (sourceRise s n).mcs = s.mcs := RestSame.mcs (sourceRise_rest s n)
@[simp] theorem sourceRise_pending (s : State) (n : Nat) : (sourceRise s n).pending = s.pending := RestSame.pending (sourceRise_rest s n)
@[simp] theorem count64_latches (s : State) (a d : Nat) (b : EvtBlk) (i : Nat) : (count64 s a d b i).latches = s.latches := RestSame.latches (count64_rest s a d b i)
@[simp] theorem count64_trs (s : State) (a d : Nat) (b : EvtBlk) (i : Nat) : (count64 s a d b i).trs = s.trs := RestSame.trs (count64_rest s a d b i)
@[simp] theorem count64_units (s : State) (a d : Nat) (b : EvtBlk) (i : Nat) : (count64 s a d b i).units = s.units := RestSame.units (count64_rest s a d b i)
@[simp] theorem count64_tth (s : State) (a d : Nat) (b : EvtBlk) (i : Nat) : (count64 s a d b i).tth = s.tth := RestSame.tth (count64_rest s a d b i)
@[simp] theorem count64_fe (s : State) (a d : Nat) (b : EvtBlk) (i : Nat) : (count64 s a d b i).fe = s.fe := RestSame.fe (count64_rest s a d b i)
@[simp] theorem count64_zmp (s : State) (a d : Nat) (b : EvtBlk) (i : Nat) : (count64 s a d b i).zmp = s.zmp := RestSame.zmp (count64_rest s a d b i)
@[simp] theorem count64_host (s : State) (a d : Nat) (b : EvtBlk) (i : Nat) : (count64 s a d b i).host = s.host := RestSame.host (count64_rest s a d b i)
@[simp] theorem count64_pwr (s : State) (a d : Nat) (b : EvtBlk) (i : Nat) : (count64 s a d b i).pwr = s.pwr := RestSame.pwr (count64_rest s a d b i)
@[simp] theorem count64_fls (s : State) (a d : Nat) (b : EvtBlk) (i : Nat) : (count64 s a d b i).fls = s.fls := RestSame.fls (count64_rest s a d b i)
@[simp] theorem count64_prt (s : State) (a d : Nat) (b : EvtBlk) (i : Nat) : (count64 s a d b i).prt = s.prt := RestSame.prt (count64_rest s a d b i)
@[simp] theorem count64_bgw (s : State) (a d : Nat) (b : EvtBlk) (i : Nat) : (count64 s a d b i).bgw = s.bgw := RestSame.bgw (count64_rest s a d b i)
@[simp] theorem count64_det (s : State) (a d : Nat) (b : EvtBlk) (i : Nat) : (count64 s a d b i).det = s.det := RestSame.det (count64_rest s a d b i)
@[simp] theorem count64_lanes (s : State) (a d : Nat) (b : EvtBlk) (i : Nat) : (count64 s a d b i).lanes = s.lanes := RestSame.lanes (count64_rest s a d b i)
@[simp] theorem count64_slices (s : State) (a d : Nat) (b : EvtBlk) (i : Nat) : (count64 s a d b i).slices = s.slices := RestSame.slices (count64_rest s a d b i)
@[simp] theorem count64_slots (s : State) (a d : Nat) (b : EvtBlk) (i : Nat) : (count64 s a d b i).slots = s.slots := RestSame.slots (count64_rest s a d b i)
@[simp] theorem count64_engines (s : State) (a d : Nat) (b : EvtBlk) (i : Nat) : (count64 s a d b i).engines = s.engines := RestSame.engines (count64_rest s a d b i)
@[simp] theorem count64_spn (s : State) (a d : Nat) (b : EvtBlk) (i : Nat) : (count64 s a d b i).spn = s.spn := RestSame.spn (count64_rest s a d b i)
@[simp] theorem count64_shelf (s : State) (a d : Nat) (b : EvtBlk) (i : Nat) : (count64 s a d b i).shelf = s.shelf := RestSame.shelf (count64_rest s a d b i)
@[simp] theorem count64_bal (s : State) (a d : Nat) (b : EvtBlk) (i : Nat) : (count64 s a d b i).bal = s.bal := RestSame.bal (count64_rest s a d b i)
@[simp] theorem count64_cch (s : State) (a d : Nat) (b : EvtBlk) (i : Nat) : (count64 s a d b i).cch = s.cch := RestSame.cch (count64_rest s a d b i)
@[simp] theorem count64_mem (s : State) (a d : Nat) (b : EvtBlk) (i : Nat) : (count64 s a d b i).mem = s.mem := RestSame.mem (count64_rest s a d b i)
@[simp] theorem count64_mcs (s : State) (a d : Nat) (b : EvtBlk) (i : Nat) : (count64 s a d b i).mcs = s.mcs := RestSame.mcs (count64_rest s a d b i)
@[simp] theorem count64_pending (s : State) (a d : Nat) (b : EvtBlk) (i : Nat) : (count64 s a d b i).pending = s.pending := RestSame.pending (count64_rest s a d b i)

end Sys2Proof.Machine
end

