-- ==== Sys2Proof/Laws/Turns.lean ====
section
/-! SUPPORT. What the shared shapes of a command do when its turn has come: a register command that reaches its register, an
admin command of a ready controller, an I/O command that is due, a mailbox request that waits;
and what the end of a flash operation and a port's fault leave. -/
set_option Elab.async false
namespace Sys2Proof.Machine
open Sys2Proof

theorem regWrite_reach {s : State} {m : Master} {a : Nat} (h : qcsReach s m a = true) (f : State → State) :
    regWrite s m a f = f s := if_pos h

theorem regWrite_unreach {s : State} {m : Master} {a : Nat} (h : qcsReach s m a = false) (f : State → State) :
    regWrite s m a f = undefAccess s m a true := if_neg (by rw [h]; decide)

theorem adminCmd_ready {s : State} {x : HPort} (h1 : portExists s (portId x) = true) (h2 : (ctl s (portId x)).ready = true)
    (f : State → State) : adminCmd s x f = f s := if_pos (by rw [h1, h2]; rfl)

theorem memoryCheck_run {s : State} {x : HPort} {cid : BitVec 16} (h1 : portExists s (portId x) = true)
    (h2 : (ctl s (portId x)).ready = true) (h3 : claimed s baseMEP = false) (f : State → State × Bool) :
    memoryCheck s x cid f = adminOk (f s).1 (portId x) cid.toNat (b2n (f s).2) := by
  rw [memoryCheck, adminCmd_ready h1 h2, if_neg (by rw [h3]; decide)]

/-- The same for a test that compares what a read found with what it should find. -/
theorem memoryCheck_found {s : State} {x : HPort} {cid : BitVec 16} (h1 : portExists s (portId x) = true)
    (h2 : (ctl s (portId x)).ready = true) (h3 : claimed s baseMEP = false) (g : State → State × Nat) (k : State → Nat) :
    memoryCheck s x cid (fun s => ((g s).1, (g s).2 == k s)) = adminOk (g s).1 (portId x) cid.toNat (b2n ((g s).2 == k s)) :=
  memoryCheck_run h1 h2 h3 _

theorem runCmd_due {s : State} {x : HPort} {sqid cid : BitVec 16} {opc : Nat} {c : Cmd} (h : Due s x sqid cid opc c = true)
    (f : State → Cmd → State) : runCmd s x sqid cid opc f = f s c := by
  simp only [Due, Bool.and_eq_true, Bool.not_eq_true', beq_iff_eq, Option.isNone_iff_eq_none] at h
  obtain ⟨⟨⟨⟨⟨⟨h1, h2⟩, h3⟩, h4⟩, h5⟩, h6⟩, h7⟩ := h
  unfold runCmd
  cases hu : nsUnit s c.nsid with
  | none => rw [hu] at h7; cases h7
  | some u =>
    rw [hu] at h7
    simp only [Option.any_some, Bool.and_eq_true, Bool.not_eq_true', bne_iff_ne] at h7
    simp [h1, h2, h3, h4, h5, h6, hu, h7]

theorem mbxTake_asked {s : State} {c op : Nat} {m : Master} {mopc : Nat → Bool} (h : Asked s c op m = true)
    (ho : mopc op = true) (f : State → Master → List Nat → State) :
    mbxTake s c mopc f = f (mbxChange s c fun t => wbit t (MBX_CH_DB c) 0 false) m (mbxBytes s c) := by
  simp only [Asked, Bool.and_eq_true, Bool.not_eq_true', beq_iff_eq, decide_eq_true_eq] at h
  obtain ⟨⟨⟨⟨⟨⟨h1, h2⟩, h3⟩, h4⟩, h5⟩, h6⟩, h7⟩ := h
  subst h5
  unfold mbxTake
  simp [h1, h2, h3, h4, h6, h7, ho, -List.getD_eq_getElem?_getD]

/-- Letting a power domain go leaves the flash store. -/
@[simp] theorem domRelease_fls (s : State) (n : Nat) : (domRelease s n).fls = s.fls := by
  unfold domRelease
  dsimp only
  split
  · rfl
  · rw [wbit_fls]
    unfold fseqOff
    split
    · exact fset_fls ..
    · rfl

/-- A request for a power domain changes no register and leaves the flash store. -/
theorem domRequest_regs (s : State) (n : Nat) : (domRequest s n).regs = s.regs := by
  unfold domRequest
  split <;> rfl

theorem domRequest_fls (s : State) (n : Nat) : (domRequest s n).fls = s.fls := by
  unfold domRequest
  split <;> rfl

theorem fget_domRequest (s : State) (n a : Nat) (f : Fld) : fget (domRequest s n) a f = fget s a f := by
  unfold fget rd
  rw [domRequest_regs]

/-- A front-end's answer on the bus leaves the front-ends. -/
theorem feOf_feAnswer (s : State) (p st : Nat) (d : List Nat) (q : Nat) : feOf (feAnswer s p st d) q = feOf s q := rfl

theorem feRun_pend (x : FrontEnd) (side : Nat) (b : Bool) : (feRun x side b).pend = x.pend := by
  unfold feRun
  split <;> rfl

theorem feRun_wpend (x : FrontEnd) (side : Nat) (b : Bool) : (feRun x side b).wpend = x.wpend := by
  unfold feRun
  split <;> rfl

/-- The lanes of a port leave its identity block's CREDIT_FLITS. -/
theorem identField_setLanes (s : State) (p : Fin 32) (up : Nat) (dn : Bool) :
    identField (setLanes s p up dn) p 16 2 = identField s p 16 2 := by
  have h : ∀ i, i < 64 → identByte (setLanes s p up dn) p i = identByte s p i := by
    intro i hi
    have g : homeAddr (TTH_IDENT p (i / 4)) ≠ homeAddr (TTH_LINK_STAT p) := by
      have := p.2
      unfold homeAddr TTH_IDENT TTH_LINK_STAT
      rw [if_neg (by omega), if_neg (by omega)]
      omega
    unfold identByte setLanes fsetb fset
    rw [rd_wr_ne g, rd_wr_ne g, rd_wr_ne g]
  simp only [identField, rangeFrom, List.map_cons, List.map_nil, h 16 (by decide), h (16 + 1) (by decide)]

/-- The end of a flash operation: its result, DONE, and no job (R429, R433). -/
theorem flashEnd_facts (s : State) {r : Nat} (hr : r < 8) : fget (flashEnd s r) FLS_STAT FLS_STAT_RESULT = r ∧
    fbit (flashEnd s r) FLS_STAT FLS_STAT_BUSY = false ∧ fbit (flashEnd s r) FLS_STAT FLS_STAT_DONE = true ∧
    (flashEnd s r).fls = { s.fls with job := none } := by
  have key : ∀ f : Fld, fget (flashEnd s r) FLS_STAT f = fget (fsetb (fset (setFls (fsetb (fsetb (domRelease s 473) FLS_STAT FLS_STAT_BUSY false) FLS_CMD FLS_CMD_GO false) fun f => { f with job := none }) FLS_STAT FLS_STAT_RESULT r) FLS_STAT FLS_STAT_DONE true) FLS_STAT f := by
    intro f
    unfold flashEnd
    dsimp only
    split
    · rw [fget_evtSet (by decide) (by decide) (by decide), fget_evtSet (by decide) (by decide) (by decide)]
    · rw [fget_evtSet (by decide) (by decide) (by decide)]
  refine ⟨?_, ?_, ?_, ?_⟩
  · rw [key]; unfold fsetb; rw [fget_fset_field (by decide) (by decide), fget_fset (by decide)]; exact Nat.mod_eq_of_lt hr
  · unfold fbit; rw [key]; unfold fsetb
    rw [fget_fset_field (by decide) (by decide), fget_fset_field (by decide) (by decide)]
    have : ∀ u : State, fget (setFls u fun f => { f with job := none }) FLS_STAT FLS_STAT_BUSY = fget u FLS_STAT FLS_STAT_BUSY := fun u => by unfold fget rd; rw [setFls_regs]
    rw [this, fget_fset_ne (by decide), fget_fset (by decide)]
    decide
  · unfold fbit; rw [key]; unfold fsetb; rw [fget_fset (by decide)]; decide
  · unfold flashEnd; dsimp only
    split
    · rw [fls_evtSet (by decide), fls_evtSet (by decide)]; simp
    · rw [fls_evtSet (by decide)]; simp
/-- A port's way to FAULT leaves STATE and FAULT_WHY so (Table 3-8). -/
theorem goFault_facts (s : State) {p why : Nat} (hp : p < 32) (hw : why < 16) :
    portState (goFault s p why) p = 9 ∧ fget (goFault s p why) (TTH_LINK_STAT p) TTH_LINK_STAT_FAULT_WHY = why := by
  have hb : ∀ x ∈ evtSources (.tth p), x.1 < 640 := by
    intro x hx
    simp only [evtSources, List.mem_cons, List.not_mem_nil, or_false] at hx
    rcases hx with rfl | rfl <;> dsimp only <;> omega
  have h1 : homeAddr (TTH_LINK_STAT p) ≠ homeAddr (evtAddr (.tth p)) := by
    show homeAddr (TTH_LINK_STAT p) ≠ homeAddr (TTH_EVT p)
    unfold homeAddr TTH_LINK_STAT TTH_EVT
    rw [if_neg (by omega), if_neg (by omega)]
    omega
  have h2 : routerReg (TTH_LINK_STAT p) = false := by
    unfold routerReg TTH_LINK_STAT
    simp only [Bool.and_eq_false_iff, decide_eq_false_iff_not]
    omega
  unfold goFault
  generalize phyOff (lanesDown (allLanesLost s p) p) p = u
  have hu : fget (fset u (TTH_LINK_STAT p) TTH_LINK_STAT_FAULT_WHY why) (TTH_LINK_STAT p) TTH_LINK_STAT_FAULT_WHY = why := by
    rw [fget_fset (by decide)]
    exact Nat.mod_eq_of_lt hw
  unfold setPortState
  split
  · rename_i h
    exact ⟨h, hu⟩
  · dsimp only
    unfold portState
    rw [fget_evtSet hb h1 h2, fget_evtSet hb h1 h2]
    unfold fsetb
    rw [fget_fset_field (by decide) (by decide), fget_fset (by decide), fget_fset_field (by decide) (by decide),
      fget_fset_field (by decide) (by decide)]
    exact ⟨rfl, hu⟩

/-! ### A rise of a source keeps who made the last undefined access -/

theorem when_undefBy {b : Bool} {s : State} {f : State → State} (h : ∀ u, (f u).evt.undefBy = u.evt.undefBy) :
    (when b s f).evt.undefBy = s.evt.undefBy := by unfold when; split <;> simp [h]

theorem cntQuiet_undefBy (s : State) (a d : Nat) (b : EvtBlk) (i : Nat) : (cntQuiet s a d b i).evt.undefBy = s.evt.undefBy := by
  have h : (cntRaw s a d).evt = s.evt := by unfold cntRaw; dsimp only; split <;> rfl
  unfold cntQuiet; dsimp only; split <;> simp [h, wbit, wr]

theorem tailSet_undefBy (s : State) (r : Nat) (l : List TailRec) : (tailSet s r l).evt.undefBy = s.evt.undefBy := by
  simp only [tailSet, fset_evt, fsetb_evt]

theorem tailAppend_undefBy (s : State) (n r : Nat) : (tailAppend s n r).evt.undefBy = s.evt.undefBy := by
  unfold tailAppend
  generalize tailRecs s r ++ _ = l
  have h : (tailSet (drawn s) r l).evt.undefBy = s.evt.undefBy := tailSet_undefBy ..
  dsimp only
  split
  · rw [wbit_evt]; exact h
  · exact h

theorem tailRecord_undefBy (s : State) (n r : Nat) : (tailRecord s n r).evt.undefBy = s.evt.undefBy := by
  have h2 : (tailDrop s r).evt.undefBy = s.evt.undefBy := by
    unfold tailDrop
    exact cntQuiet_undefBy ..
  unfold tailRecord
  simp only [apply_ite (fun s : State => s.evt.undefBy), h2]
  split
  · rfl
  · split <;> simp only [apply_ite (fun s : State => s.evt.undefBy), tailSet_undefBy, tailAppend_undefBy, h2, ite_self]

theorem aenPost_undefBy (s : State) (p t i l : Nat) : (aenPost s p t i l).evt.undefBy = s.evt.undefBy := by
  unfold aenPost; split <;> rfl

theorem aenNotice_undefBy (s : State) (p : Nat) : (aenNotice s p).evt.undefBy = s.evt.undefBy := by
  unfold aenNotice; split
  · rfl
  · exact aenPost_undefBy ..

theorem hostIrq_undefBy (s : State) (p v : Nat) : (hostIrq s p v).evt.undefBy = s.evt.undefBy := by
  unfold hostIrq
  generalize (if p = 0 then s.host.ctlA else s.host.ctlB).msix = b
  cases b
  · show (if v = 0 then emit s (Out.inta p) else s).evt.undefBy = _
    split <;> rfl
  · rfl

theorem routerPeer_undefBy (s : State) (n : Nat) : (routerPeer s n).evt.undefBy = s.evt.undefBy := by
  unfold routerPeer; split
  · exact cntQuiet_undefBy ..
  · exact cntQuiet_undefBy ..

theorem pendSet_undefBy (s : State) (n : Nat) (o : Bool) : (pendSet s n o).evt.undefBy = s.evt.undefBy := by
  unfold pendSet; dsimp only; split
  · rw [when_undefBy, when_undefBy, when_undefBy, when_undefBy, when_undefBy, when_undefBy]
    · exact cntQuiet_undefBy ..
    · exact fun u => (cntQuiet_undefBy ..).trans (hostIrq_undefBy ..)
    · exact fun u => (cntQuiet_undefBy ..).trans (hostIrq_undefBy ..)
    · exact fun u => routerPeer_undefBy ..
    · exact fun u => aenNotice_undefBy ..
    · exact fun u => aenNotice_undefBy ..
    · intro u
      generalize rangeFrom 0 8 = l
      unfold forAll
      induction l generalizing u with
      | nil => rfl
      | cons r l ih => rw [List.foldl_cons, ih]; split <;> simp [tailRecord_undefBy]
  · exact cntQuiet_undefBy ..

theorem sourceRise_undefBy (s : State) (n : Nat) : (sourceRise s n).evt.undefBy = s.evt.undefBy := by
  unfold sourceRise ownRise
  rw [when_undefBy, when_undefBy, when_undefBy, pendSet_undefBy] <;> exact fun u => pendSet_undefBy ..

end Sys2Proof.Machine
end

