-- ==== Sys2Proof/WellFormed.lean ====
section
/-! DEFINITION. Which commands are well formed: the bounds that the specification gives an operand and that its type does not
already hold. -/
namespace Sys2Proof

/-- An address of the control space, which BAR2 lays out in 256 MiB (Table 10-1, R42). -/
def wfAddr (a : Nat) : Bool := decide (a < 2 ^ 28)

/-- A flit carries as many payload bytes as PLEN says, at most 240 (Table 3-2, R71). -/
def wfFlit (f : Flit) : Bool := f.payload.length == f.plen.toNat && decide (f.plen.toNat ≤ 240)

/-- A download carries NUMD + 1 dwords (NVMe's 0-based count, R260). -/
def wfDownload (numd : BitVec 32) (data : List Word) : Bool := data.length == numd.toNat + 1

/-- A relay frame carries at most 4,096 bytes (Table 16-7). -/
def wfRelay (f : RelayFrame) : Bool := decide (f.payload.length ≤ 4096)

/-- The check of a command's operands; a command whose operand types hold every bound is well formed. -/
def wellFormed : Instr → Bool
  | .registerWrite _ a _ _ => wfAddr a
  | .qcsUndefinedAccess _ a _ => wfAddr a
  | .misalignedQcsAccess _ a _ _ => wfAddr a
  | .wideRegisterLowRead _ a _ => wfAddr a
  | .rcFieldRead _ a _ => wfAddr a
  | .expertClaim _ a => wfAddr a
  | .expertRelease _ a => wfAddr a
  | .trussDownload _ _ n _ d => wfDownload n d
  | .fwImageDownload _ _ n _ d => wfDownload n d
  | .tsbResponse _ _ d _ => decide (d.length ≤ 32)
  | .feTsbWrite _ _ _ d _ => decide (d.length ≤ 32)
  | .sampleFlit _ f => wfFlit f
  | .servoFlit _ f => wfFlit f
  | .telemFlit _ f => wfFlit f
  | .idleFlit _ f => wfFlit f
  | .feHbFlit _ _ f => wfFlit f
  | .feCmdFlit _ _ f => wfFlit f
  | .feWriteFlit _ _ f _ => wfFlit f
  | .relayChunk f => wfRelay f
  | .relayEnd f => wfRelay f
  | .relayStatus f => wfRelay f
  | .hostDataReceived _ _ _ d => decide (d.length ≤ 65536)
  | .standbySelftestCycle l => decide l.Nodup
  | .envelopeLimit l => decide (l.length ≤ 10)
  | .powerPolicyEvaluation l => decide (l.length ≤ 32)
  | .tempSample l => decide (l.length ≤ 12)
  | .dieTempSample l => decide (l.length ≤ 16)
  | .mctpMbxRead l => !l.isEmpty
  | .mctpMbxWrite l => !l.isEmpty
  | _ => true

end Sys2Proof
end

