-- ==== Sys2Proof/Tests/Slice0.lean ====
section
/-! SUPPORT. Tests: the smoke tests of WellFormed, single steps against figures of the specification, and for every statement
with hypotheses a witness that meets them. -/
set_option Elab.async false
namespace Sys2Proof.Tests
open Sys2Proof Sys2Proof.Machine

/-! ### Small states -/

def rst : State := State.reset

/-- The state after reset with some fields of registers set. -/
def w (l : List (Nat × Fld × Nat)) (s : State := State.reset) : State := l.foldl (fun s x => fset s x.1 x.2.1 x.2.2) s

/-- The state after reset with the register file given. -/
def st (l : Tab Word) : State := { State.reset with regs := l }

/-- The always-on domain has power and its clock shows `n` milliseconds. -/
def powered (n : Nat) : State := wrN { rst with pwr := { rst.pwr with vaon := true } } PWR_UPTIME n

def unpowered : State := { rst with pwr := { rst.pwr with vaon := false } }

def recorded (n : Nat) : TailRec := { time := 0, sub := 0, source := 7, rep := n, last := 0, snap := tailSnap rst 2 }

/-- Recorder 2 holds one record. -/
def recording (n : Nat) : State := tailSet rst 2 [recorded n]

/-- A flit without payload of a type, with its CRC. -/
def flitOf : Nat → Flit
  | 8 => ⟨8, 0, 0, 0, 0, 0, 0, 0, 1342768075, []⟩
  | 9 => ⟨9, 0, 0, 0, 0, 0, 0, 0, 395310186, []⟩
  | _ => ⟨11, 0, 0, 0, 0, 0, 0, 0, 2558663464, []⟩

/-- Port 2 trains with a front-end of `n` credits. -/
def training (n : Nat) : State :=
  w [(TTH_LINK_STAT 2, TTH_LINK_STAT_STATE, 4), (TTH_CTRL 2, TTH_CTRL_UP_EN, 15), (TTH_CTRL 2, TTH_CTRL_DN_EN, 1),
    (PWR_DOM_STAT 0, ⟨13, 1⟩, 1), (PWR_DOM_STAT 1, ⟨13, 1⟩, 1), (TTH_IDENT 2 4, ⟨0, 16⟩, n)]

/-- A ladder whose one rung is given, and a sector that runs it. -/
def ladderOn (r : Word) : Ladder := ⟨0, [r], 0, [], 0, none, false, false, 8⟩

def sectorOn (r : Word) : Sector := { blankSector ⟨0, 0, 0, 0⟩ with slot := true, ladder := some (ladderOn r) }

/-! ### Ill-formed commands -/

theorem test_wf_register_write : wellFormed (.registerWrite .debug (2 ^ 28) .b4 0) = false := by decide
theorem test_wf_undefined : wellFormed (.qcsUndefinedAccess .bmc (2 ^ 28) true) = false := by decide
theorem test_wf_misaligned : wellFormed (.misalignedQcsAccess .bmc (2 ^ 28 + 2) .b4 true) = false := by decide
theorem test_wf_wide_read : wellFormed (.wideRegisterLowRead .bmc (2 ^ 28) .b4) = false := by decide
theorem test_wf_read : wellFormed (.rcFieldRead .bmc (2 ^ 28) .b1) = false := by decide
theorem test_wf_claim : wellFormed (.expertClaim .bmc (2 ^ 28 + 4)) = false := by decide
theorem test_wf_release : wellFormed (.expertRelease .bmc (2 ^ 28 + 4)) = false := by decide
theorem test_wf_truss_download : wellFormed (.trussDownload .a 1 0 0 []) = false := by decide
theorem test_wf_image_download : wellFormed (.fwImageDownload .a 1 1 0 [7]) = false := by decide
theorem test_wf_tsb_response : wellFormed (.tsbResponse 0 0 (List.replicate 33 0) true) = false := by decide
theorem test_wf_tsb_write : wellFormed (.feTsbWrite 0 0 0 (List.replicate 33 0) true) = false := by decide
theorem test_wf_sample_flit : wellFormed (.sampleFlit 0 ⟨1, 0, 0, 0, 0, 1, 0, 0, 0, []⟩) = false := by decide
theorem test_wf_servo_flit : wellFormed (.servoFlit 0 ⟨2, 0, 0, 0, 0, 0, 0, 0, 0, [1]⟩) = false := by decide
theorem test_wf_telem_flit : wellFormed (.telemFlit 0 ⟨3, 0, 0, 0, 0, 2, 0, 0, 0, [1]⟩) = false := by decide
theorem test_wf_idle_flit : wellFormed (.idleFlit 0 ⟨0, 0, 0, 0, 0, 0, 0, 0, 0, [1]⟩) = false := by decide
theorem test_wf_hb_flit : wellFormed (.feHbFlit 0 0 ⟨11, 0, 0, 0, 0, 5, 0, 0, 0, []⟩) = false := by decide
theorem test_wf_cmd_flit : wellFormed (.feCmdFlit 0 0 ⟨9, 0, 0, 0, 0, 8, 0, 0, 0, [1]⟩) = false := by decide
theorem test_wf_write_flit :
    wellFormed (.feWriteFlit 0 0 ⟨8, 0, 0, 0, 0, 241, 0, 0, 0, List.replicate 241 0⟩ false) = false := by
  rw [wellFormed, wfFlit, List.length_replicate]
  decide
theorem test_wf_relay_chunk : wfRelay ⟨0, 0, 0, 0, List.replicate 4097 0, 0⟩ = false := by
  rw [wfRelay, List.length_replicate]
  decide
theorem test_wf_relay_frames (f : RelayFrame) (h : wfRelay f = false) :
    wellFormed (.relayChunk f) = false ∧ wellFormed (.relayEnd f) = false ∧ wellFormed (.relayStatus f) = false := ⟨h, h, h⟩
theorem test_wf_host_data : wellFormed (.hostDataReceived .a 1 1 (List.replicate 65537 0)) = false := by
  rw [wellFormed, List.length_replicate]
  decide
theorem test_wf_temps : wellFormed (.tempSample (List.replicate 13 0)) = false ∧
    wellFormed (.dieTempSample (List.replicate 17 0)) = false := by decide
theorem test_wf_standby_test : wellFormed (.standbySelftestCycle [4, 4]) = false := by decide
theorem test_wf_envelope : wellFormed (.envelopeLimit (List.replicate 11 0)) = false := by decide
theorem test_wf_policy : wellFormed (.powerPolicyEvaluation (List.replicate 33 0)) = false := by decide
theorem test_wf_mctp : wellFormed (.mctpMbxRead []) = false ∧ wellFormed (.mctpMbxWrite []) = false := by decide

/-! ### Figures of the specification -/

/-- The name of block TTH (Table 0-6, its example). -/
theorem test_block_name : (rd rst 0x01060000).toNat / 256 = 0x545448 := by decide

/-- The addresses of the register index's example. -/
theorem test_addresses : ACT_DL_RETRY 13 2 = 0x014D1820 ∧ LDC_CTRL 3 = 0x014CC010 ∧ BRD_SL_SET 3 18 = 0x0186149C := by decide

/-- The entry of U:0x001 (the example of R36). -/
theorem test_unit_entry : TRS_UNIT_FACE 1 = 0x00080020 := by decide

/-- An unused entry shows no link to another unit (R36). -/
theorem test_unit_unused : fget rst (TRS_UNIT_FACE 77) TRS_UNIT_FACE_POLICY = 0xF ∧
    fget rst (TRS_UNIT_LINK 77) TRS_UNIT_LINK_PARENT = 0xFFF := by decide

/-- The WINH word of head lane 5, the idle word, and the word that inhibits all heads (the example of R85). -/
theorem test_winh : winhWord 0x20 = 0x882 ∧ winhWord 0 = 0x800 ∧ winhWord 0xFF = 0xBFC := by decide

/-- The set of LBA 19,584,647 of NSID 1 (the example of the cache). -/
theorem test_cache_set : cacheSet 1 (19584647 / 32) = 224 := by decide

/-- TTH[6]_LINK_STAT = 0x5CF8_0801 (the example of the mailboxes). -/
theorem test_link_stat :
    [TTH_LINK_STAT_STATE, TTH_LINK_STAT_TRAINED, TTH_LINK_STAT_PRSNT, TTH_LINK_STAT_UP_GOOD, TTH_LINK_STAT_DN_GOOD,
      TTH_LINK_STAT_HL_MAX, TTH_LINK_STAT_FAULT_WHY, TTH_LINK_STAT_TRIES].map (getF 0x5CF80801) = [5, 1, 1, 15, 1, 8, 0, 1] := by
  decide

/-- The words LDI G1, 5 and ALU DEC G1 (the example of the patch). -/
theorem test_micro_words : [mOp 0x11005, mD 0x11005, mImm 0x11005] = [1, 1, 5] ∧
    [mOp 0x31107, mD 0x31107, mS 0x31107, 0x31107 % 16] = [3, 1, 1, 7] := by decide

/-- The check value of CRC-32C, of the nine digits 1 to 9. -/
theorem test_crc32c : crc32c [0x31, 0x32, 0x33, 0x34, 0x35, 0x36, 0x37, 0x38, 0x39] = 0xE3069283 := by decide +kernel

/-- The check value of CRC-16/CCITT-FALSE, of the nine digits 1 to 9 (R87's polynomial). -/
theorem test_crc16 : crc16 [0x31, 0x32, 0x33, 0x34, 0x35, 0x36, 0x37, 0x38, 0x39] = 0x29B1 := by decide +kernel

/-- SHA-256 of "abc" (the standard's own example). -/
theorem test_sha256 : beNat (sha256 [0x61, 0x62, 0x63]) =
    0xBA7816BF8F01CFEA414140DE5DAE2223B00361A396177A9CB410FF61F20015AD := by decide +kernel

/-- The AES-256 example of its standard. -/
theorem test_aes : beNat (aesBlock (aesKeys (rangeFrom 0 32)) ((rangeFrom 0 16).map (· * 0x11))) =
    0x8EA2B7CA516745BFEAFC49904B496089 := by decide +kernel

/-- A codeword of the lane code, with one symbol wrong, is corrected (R69). -/
theorem test_lane_code :
    let d := rangeFrom 1 128
    let c := d ++ rsParity gf10 8 d
    rsDecode gf10 8 (c.set 5 777) = some c := by decide +kernel

/-! ### Single steps -/

/-- What a property says of the next state of a command run from `s`. -/
def after (c : Instr) (s : State) (p : State → Bool) : Bool :=
  match step { s with pending := [c] } with
  | .next t => p t && t.pending.isEmpty
  | _ => false

/-- A claim by Ridge core 0 is recorded (R19). -/
theorem test_claim : after (.expertClaim .ridge0 0x01820004) rst
    (fun t => claimed t 0x01820000 && holds t 0x01820000 .ridge0) = true := by decide +kernel

/-- A claim on a claimed block is ignored (R19). -/
theorem test_claim_again : after (.expertClaim .ridge1 0x01820004) (wr rst 0x01820004 0x0801)
    (fun t => holds t 0x01820000 .ridge0) = true := by decide +kernel

/-- The release (R21). -/
theorem test_release : after (.expertRelease .ridge0 0x01820004) (wr rst 0x01820004 0x0801)
    (fun t => !claimed t 0x01820000) = true := by decide +kernel

/-- A write to an offset from 0x0300_0000 up raises source 3 (R16). -/
theorem test_undefined : after (.qcsUndefinedAccess .ridge0 0x03000000 true) rst
    (fun t => bitOf (rd t (EVT_PEND 0)) 3) = true := by decide +kernel

/-- TTH[6]_CTRL.HB_EN is read-write (R12, Table 3-9). -/
theorem test_register_write : after (.registerWrite .ridge0 (TTH_CTRL 6) .b4 0) rst
    (fun t => fget t (TTH_CTRL 6) TTH_CTRL_HB_EN == 0) = true := by decide +kernel

/-- Channel 16 bound as Table 17-1 lays down: the baseboard controller sends, Ridge core 1 receives. -/
def bound (l : List (Nat × Fld × Nat)) : State := w ((MBX_BIND 16, MBX_BIND_SENDER, 2) :: (MBX_BIND 16, MBX_BIND_RECEIVER, 9) :: l)

/-- A data write to a full channel overwrites the word and sets COLL (R411). -/
theorem test_mailbox_collision :
    after (.mbxDataWrite .bmc 16 0 7) (bound [(MBX_CH_DB 16, ⟨0, 1⟩, 1)])
      (fun t => rd t (MBX_CH_DATA 16 0) == 7 && fbit t (MBX_CH_STAT 16) MBX_CH_STAT_COLL) = true := by decide +kernel

/-- A mailbox message bit is set by the sender's ring (R410). -/
theorem test_mailbox_ring : after (.mbxDbSet .bmc 16 1) (bound []) (fun t => rd t (MBX_CH_DB 16) == 1) = true := by decide +kernel

/-- The receiver of a channel may not ring it (R409). -/
theorem test_mailbox_right : after (.mbxDbSet .ridge1 16 1) (bound [])
    (fun t => rd t (MBX_CH_DB 16) == 0 && rdN t MBX_VIOLS == 1) = true := by decide +kernel

/-- A front-end with 31 credits fails training with FAULT_WHY 3 (R78). -/
theorem test_credits : after (.tetherTrainingDone 2 1 true) (training 31)
    (fun t => fget t (TTH_LINK_STAT 2) TTH_LINK_STAT_STATE == 9 &&
      fget t (TTH_LINK_STAT 2) TTH_LINK_STAT_FAULT_WHY == 3) = true := by decide +kernel

/-- An erase of a retired block ends with RESULT 4 (R434). -/
theorem test_retired_block : after (.flashErase .ridge0 0) (w [(FLS_ECNT 0, FLS_ECNT_RETIRED, 1)])
    (fun t => fget t FLS_STAT FLS_STAT_RESULT == 4) = true := by decide +kernel

/-- A program of the active bank's firmware area ends with RESULT 5 (R434). -/
theorem test_protected_block : after (.flashProgram .ridge0 0 false) rst
    (fun t => fget t FLS_STAT FLS_STAT_RESULT == 5) = true := by decide +kernel

/-- A write of an unclaimed unit's policy by a master other than a Ridge core is ignored (R39). -/
theorem test_policy_other : after (.unitPolicyWrite .debug 0 3) rst
    (fun t => fget t (TRS_UNIT_FACE 0) TRS_UNIT_FACE_POLICY == fget rst (TRS_UNIT_FACE 0) TRS_UNIT_FACE_POLICY) = true := by
  decide +kernel

/-- The hypotheses of `EmptyQueueIdles` are met. -/
theorem witness_EmptyQueueIdles :
    (∃ s : State, s.pending = [] ∧ s.pwr.vaon = true ∧ uptime s + 1 < 2 ^ 32) ∧
    (∃ s : State, s.pending = [] ∧ s.pwr.vaon = true ∧ uptime s + 1 = 2 ^ 32 ∧ mode s ≠ 0 ∧ mode (wrN s PWR_UPTIME 0) ≠ 0) ∧
    (∃ s : State, s.pending = [] ∧ s.pwr.vaon = false) :=
  ⟨⟨powered 3, by decide⟩, ⟨powered (2 ^ 32 - 1), by decide⟩, ⟨unpowered, by decide⟩⟩

/-- The hypotheses of `StepKeepsInvariant` are met. -/
theorem witness_StepKeepsInvariant : ∃ s t : State, Inv s ∧ step s = .next t :=
  ⟨rst, uptimeTick rst, ⟨⟨by decide, by decide⟩, by decide, by decide, by decide⟩, rfl⟩

/-- The hypotheses of `EventsReachTheRouter` are met. -/
theorem witness_EventsReachTheRouter :
    ∃ (b : EvtBlk) (i : Nat), (∀ x ∈ evtSources b, x.1 < 640) ∧ b ≠ .evt ∧ b ≠ .tail ∧ i < 32 :=
  ⟨.mbx, 31, by decide⟩

/-- The hypotheses of `RisesArePended` are met. -/
theorem witness_RisesArePended :
    ∃ (n : Fin 640) (s : State), srcLevel s n = true ∨ [3, 5, 6, 7].contains n.val = true :=
  ⟨7, rst, .inr (by decide)⟩

/-- The hypotheses of `UndefinedAccesses` are met. -/
theorem witness_UndefinedAccesses :
    (∃ (m : Master) (a : Nat) (s : State), accessUndefined s m a = true) ∧
    (∃ (wd : Width) (a : Nat), alignedFor wd a = false) :=
  ⟨⟨.ridge0, 0x03000000, rst, by decide⟩, ⟨.b4, 2, by decide⟩⟩

/-- The hypotheses of `MailboxViolations` are met. -/
theorem witness_MailboxViolations : ∃ (m : Master) (c : Fin 64) (s : State),
    mbxSender s m c = false ∧ mbxReceiver s m c = false :=
  ⟨.bmc, 63, rst, by decide⟩

/-- The hypotheses of `RepeatRule` are met. -/
theorem witness_RepeatRule :
    (∃ (src r : Nat) (l : List TailRec) (x : TailRec) (s : State), fbit s (TAIL_CTRL r) TAIL_CTRL_FREEZE = false ∧
      tailRecs s r = l ++ [x] ∧ x.source = src ∧ x.snap = tailSnap s r ∧ x.rep < 65535) ∧
    (∃ (src r : Nat) (l : List TailRec) (x : TailRec) (s : State), fbit s (TAIL_CTRL r) TAIL_CTRL_FREEZE = false ∧
      tailRecs s r = l ++ [x] ∧ x.source = src ∧ x.snap = tailSnap s r ∧ 65535 ≤ x.rep) :=
  ⟨⟨7, 2, [], recorded 65534, recording 65534, by decide⟩, ⟨7, 2, [], recorded 65535, recording 65535, by decide⟩⟩

/-- The hypotheses of `RetiredAndProtectedBlocks` are met. -/
theorem witness_RetiredAndProtectedBlocks :
    (∃ (m : Master) (v : Word) (s : State), qcsReach s m FLS_CMD = true ∧ fbit s FLS_STAT FLS_STAT_BUSY = false ∧ domFailed s 473 = false ∧
      fbit s (FLS_ECNT (getF v FLS_CMD_PAGE / 256)) FLS_ECNT_RETIRED = true) ∧
    (∃ (m : Master) (v : Word) (s : State), qcsReach s m FLS_CMD = true ∧ fbit s FLS_STAT FLS_STAT_BUSY = false ∧ domFailed s 473 = false ∧
      fbit s (FLS_ECNT (getF v FLS_CMD_PAGE / 256)) FLS_ECNT_RETIRED = false ∧ fget s PRT_FW PRT_FW_ACTIVE_BANK = 0 ∧
      getF v FLS_CMD_PAGE / 256 < 196) ∧
    (∃ (m : Master) (v : Word) (s : State), qcsReach s m FLS_CMD = true ∧ fbit s FLS_STAT FLS_STAT_BUSY = false ∧ domFailed s 473 = false ∧
      fbit s (FLS_ECNT (getF v FLS_CMD_PAGE / 256)) FLS_ECNT_RETIRED = false ∧ fget s PRT_FW PRT_FW_ACTIVE_BANK = 1 ∧
      256 ≤ getF v FLS_CMD_PAGE / 256 ∧ getF v FLS_CMD_PAGE / 256 < 452) :=
  ⟨⟨.ridge0, 0, w [(FLS_ECNT 0, FLS_ECNT_RETIRED, 1)], by decide⟩, ⟨.ridge0, setF 0 FLS_CMD_PAGE (195 * 256), rst, by decide⟩,
    ⟨.ridge0, setF 0 FLS_CMD_PAGE (256 * 256), w [(PRT_FW, PRT_FW_ACTIVE_BANK, 1)], by decide⟩⟩

/-- The hypotheses of `OwnerFlits` are met. -/
theorem witness_OwnerFlits :
    (∃ (p : Fin 32) (side : Fin 2) (f g : Flit) (s : State), flitTaken f 8 = true ∧ flitTaken g 9 = true ∧
      feOwns (feOf s p) side = true ∧ f.epoch.toNat = (feOf s p).epoch ∧ g.epoch.toNat = (feOf s p).epoch) ∧
    (∃ (p : Fin 32) (side : Fin 2) (f g h : Flit) (s : State), flitTaken f 8 = true ∧ flitTaken g 9 = true ∧
      flitTaken h 0xB = true ∧ feOwns (feOf s p) side = false) ∧
    (∃ (p : Fin 32) (f g : Flit) (s : State), flitTaken f 8 = true ∧ flitTaken g 9 = true ∧
      f.epoch.toNat ≠ (feOf s p).epoch ∧ g.epoch.toNat ≠ (feOf s p).epoch) :=
  ⟨⟨2, 0, flitOf 8, flitOf 9, { rst with fe := [(2, { owner := 1 })] }, by decide +kernel⟩,
    ⟨2, 1, flitOf 8, flitOf 9, flitOf 0xB, { rst with fe := [(2, { owner := 1 })] }, by decide +kernel⟩,
    ⟨2, flitOf 8, flitOf 9, { rst with fe := [(2, { owner := 1, epoch := 5 })] }, by decide +kernel⟩⟩

/-- The hypotheses of `CreditBuffer` are met. -/
theorem witness_CreditBuffer :
    (∃ (p : Fin 32) (up : BitVec 4) (s : State), portState s p = 4 ∧ enabledLanes s p up.toNat ≠ 0 ∧
      fbit s (TTH_CTRL p) TTH_CTRL_DN_EN = true ∧ domOn s (11 + p) = true ∧ domOn s (43 + p) = true ∧ identField s p 16 2 < 32) ∧
    (∃ (p : Fin 32) (up : BitVec 4) (s : State), portState s p = 4 ∧ enabledLanes s p up.toNat ≠ 0 ∧
      fbit s (TTH_CTRL p) TTH_CTRL_DN_EN = true ∧ domOn s (11 + p) = true ∧ domOn s (43 + p) = true ∧ identField s p 16 2 = 255) ∧
    (∃ (p : Fin 32) (up : BitVec 4) (s : State), portState s p = 4 ∧ enabledLanes s p up.toNat ≠ 0 ∧
      fbit s (TTH_CTRL p) TTH_CTRL_DN_EN = true ∧ domOn s (11 + p) = true ∧ domOn s (43 + p) = true ∧ 255 < identField s p 16 2) :=
  ⟨⟨2, 1, training 31, by decide⟩, ⟨2, 1, training 255, by decide⟩, ⟨2, 1, training 256, by decide⟩⟩

/-- The hypotheses of `RegisterAccess` are met. -/
theorem witness_RegisterAccess :
    (∃ (m : Master) (a : Nat) (v : BitVec 64) (s : State), a % 4 = 0 ∧ accessUndefined s m a = false) ∧
    (∃ (m : Master) (a : Nat) (v : BitVec 64) (s : State), accessUndefined s m a = false) ∧
    (∃ (m : Master) (a : Nat) (v : BitVec 64) (s : State), a % 2 = 0 ∧ accessUndefined s m a = false) ∧
    (∃ (m : Master) (a : Nat) (v : BitVec 64) (s : State), a % 4 = 0) ∧
    (∃ (m : Master) (a : Nat) (wr : Bool) (s : State), accessUndefined s m a = true) ∧
    (∃ (m : Master) (a : Nat) (w : Width) (wr : Bool) (s : State), alignedFor w a = false) ∧
    (∃ (m : Master) (a : Nat) (s : State), a % 4 = 0 ∧ accessUndefined s m a = false ∧ mbxMayRead s m a = true ∧ hostPort m =
      none) ∧
    (∃ (m : Master) (a : Nat) (s : State), a % 4 = 0) ∧
    (∃ (m : Master) (a : Nat) (s : State), a % 2 = 0) ∧
    (∃ (m : Master) (a : Nat) (s : State), a % 4 = 0 ∧ accessUndefined s m a = false ∧ mbxMayRead s m a = true ∧ hostPort m =
      none) ∧
    (∃ (m : Master) (a : Nat) (s : State), a % 4 = 0) ∧
    (∃ (m : Master) (a : Nat) (s : State), a % 2 = 0) :=
  ⟨⟨.ridge0, PWR_MODE, 0, rst, by decide⟩,
    ⟨.ridge0, PWR_MODE, 0, rst, by decide⟩,
    ⟨.ridge0, PWR_MODE, 0, rst, by decide⟩,
    ⟨.ridge0, PWR_MODE, 0, rst, by decide⟩,
    ⟨.ridge0, 0x3000000, true, rst, by decide⟩,
    ⟨.ridge0, 2, .b4, true, rst, by decide⟩,
    ⟨.ridge0, BGW_CALQ_LO, rst, by decide⟩,
    ⟨.ridge0, BGW_CALQ_LO, rst, by decide⟩,
    ⟨.ridge0, BGW_CALQ_LO, rst, by decide⟩,
    ⟨.ridge0, PWR_MODE, rst, by decide⟩,
    ⟨.ridge0, PWR_MODE, rst, by decide⟩,
    ⟨.ridge0, PWR_MODE, rst, by decide⟩⟩

/-- The hypotheses of `ExpertClaims` are met. -/
theorem witness_ExpertClaims :
    (∃ (m : Master) (a b : Nat) (s : State), qcsReach s m a = true ∧ xclaimBase a = some b ∧ claimed s b = false) ∧
    (∃ (m : Master) (a b : Nat) (s : State), qcsReach s m a = true ∧ xclaimBase a = some b ∧ claimed s b = true ∧ fget s
      (xclaim b) XCLAIM_HOLDER ≠ masterId m) ∧
    (∃ (m : Master) (a b : Nat) (s : State), qcsReach s m a = true ∧ xclaimBase a = some b ∧ claimed s b = true ∧ fget s
      (xclaim b) XCLAIM_HOLDER = masterId m) :=
  ⟨⟨.bmc, baseBGW + 4, baseBGW, rst, by decide⟩,
    ⟨.bmc, baseBGW + 4, baseBGW, w [(baseBGW + 4, XCLAIM_EXPERT, 1)], by decide⟩,
    ⟨.bmc, baseBGW + 4, baseBGW, w [(baseBGW + 4, XCLAIM_EXPERT, 1), (baseBGW + 4, XCLAIM_HOLDER, 2)], by decide⟩⟩

/-- The hypotheses of `UnitCommands` are met. -/
theorem witness_UnitCommands :
    (∃ (u : Fin 4095) (s : State), uUsed s u = true ∧ uKind s u ≠ 0) ∧
    (∃ (m : Master) (u : Fin 4095) (pol : BitVec 4) (s : State), qcsReach s m (TRS_UNIT_FACE u) = true ∧ trsMayWrite s m =
      true ∧ uUsed s u = true) ∧
    (∃ (u : Fin 4095) (s : State), uUsed s u = true) ∧
    (∃ (u : Fin 4095) (s : State), uUsed s u = true ∧ (portsOf s u).all (wakeDone s) = true) ∧
    (∃ (u : Fin 4095) (c : BitVec 8) (s : State), uUsed s u = true ∧ (uState s u = 3 ∨ uState s u = 4 ∨ uState s u = 1 ∨
      uState s u = 5) ∧ uKind s u = 0 ∧ c.toNat ≠ 0) ∧
    (∃ (u : Fin 4095) (c : BitVec 8) (s : State), uUsed s u = true ∧ (uState s u = 0 ∨ uState s u = 2 ∨ uState s u = 6)) :=
  ⟨⟨3, w [(TRS_UNIT_FACE 3, TRS_UNIT_FACE_KIND, 1), (TRS_UNIT_FACE 3, TRS_UNIT_FACE_STATE, 3)], by decide⟩,
    ⟨.ridge0, 3, 2, w [(TRS_UNIT_FACE 3, TRS_UNIT_FACE_KIND, 0), (TRS_UNIT_FACE 3, TRS_UNIT_FACE_STATE, 3)], by decide⟩,
    ⟨3, w [(TRS_UNIT_FACE 3, TRS_UNIT_FACE_KIND, 0), (TRS_UNIT_FACE 3, TRS_UNIT_FACE_STATE, 1)], by decide⟩,
    ⟨3, w [(TRS_UNIT_FACE 3, TRS_UNIT_FACE_KIND, 0), (TRS_UNIT_FACE 3, TRS_UNIT_FACE_STATE, 2)], by decide⟩,
    ⟨3, 7, w [(TRS_UNIT_FACE 3, TRS_UNIT_FACE_KIND, 0), (TRS_UNIT_FACE 3, TRS_UNIT_FACE_STATE, 3)], by decide⟩,
    ⟨3, 7, w [(TRS_UNIT_FACE 3, TRS_UNIT_FACE_KIND, 0), (TRS_UNIT_FACE 3, TRS_UNIT_FACE_STATE, 2)], by decide⟩⟩

/-- The hypotheses of `TrussCommands` are met. -/
theorem witness_TrussCommands :
    (∃ (x : HPort) (cid : BitVec 16) (n o : BitVec 32) (d : List Word) (s : State), portExists s (portId x) = true ∧ (ctl s
      (portId x)).ready = true ∧ claimed s baseTRS = false ∧ o ≠ 0 ∧ o.toNat + (n.toNat + 1) ≤ 65536) ∧
    (∃ (x : HPort) (cid ms : BitVec 16) (s : State), portExists s (portId x) = true ∧ (ctl s (portId x)).ready = true ∧
      claimed s baseTRS = false ∧ loaderBusy s = false) ∧
    (∃ (x : HPort) (cid ms : BitVec 16) (s : State), portExists s (portId x) = true ∧ (ctl s (portId x)).ready = true ∧
      claimed s baseTRS = false ∧ loaderBusy s = false ∧ claimed s baseFLS = false) ∧
    (∃ (x : HPort) (cid ms : BitVec 16) (s : State), portExists s (portId x) = true ∧ (ctl s (portId x)).ready = true ∧
      claimed s baseTRS = false ∧ loaderBusy s = false ∧ claimed s baseFLS = false) ∧
    (∃ (x : HPort) (cid ms : BitVec 16) (s : State), portExists s (portId x) = true ∧ (ctl s (portId x)).ready = true ∧
      claimed s baseTRS = false ∧ loaderBusy s = false) ∧
    (∃ (x : HPort) (cid ms : BitVec 16) (s : State), portExists s (portId x) = true ∧ (ctl s (portId x)).ready = true ∧
      claimed s baseTRS = false ∧ loaderBusy s = false) ∧
    (∃ (j : LoadJob) (s : State), s.trs.waiting = some j ∧ fbit s TRS_LD_STAT TRS_LD_STAT_BUSY = false) ∧
    (∃ (j : LoadJob) (s : State), s.trs.waiting = some j ∧ fbit s TRS_LD_STAT TRS_LD_STAT_BUSY = true) ∧
    (∃ (j : LoadJob) (s : State), s.trs.job = some j ∧ j.awaitPeer = false ∧ j.what = 1 ∧ cryptoFree s = true) ∧
    (∃ (j : LoadJob) (s : State), s.trs.job = some j ∧ j.awaitPeer = true) ∧
    (∃ (j : LoadJob) (s : State), s.trs.job = some j ∧ j.awaitPeer = true) ∧
    (∃ (j : LoadJob) (s : State), s.trs.job = some j ∧ j.awaitPeer = true) ∧
    (∃ (img : List Byte) (s : State), cryptoFree s = true) ∧
    (∃ (m : Master) (s : State), qcsReach s m (TRS_LD_CTRL) = true ∧ trsMayWrite s m = true ∧ fbit s TRS_LD_STAT
      TRS_LD_STAT_BUSY = false) ∧
    (∃ (m : Master) (s : State), qcsReach s m (TRS_LD_CTRL) = true ∧ trsMayWrite s m = true ∧ fbit s TRS_LD_STAT
      TRS_LD_STAT_BUSY = false) ∧
    (∃ (m : Master) (s : State), qcsReach s m (TRS_LD_CTRL) = true ∧ trsMayWrite s m = true ∧ fbit s TRS_LD_STAT
      TRS_LD_STAT_BUSY = false) ∧
    (∃ (m : Master) (v : Word) (s : State), qcsReach s m (TRS_SEQ_FLOOR) = true ∧ trsMayWrite s m = true ∧ rdN s TRS_SEQ_FLOOR
      ≤ v.toNat) ∧
    (∃ (m : Master) (v : Word) (s : State), qcsReach s m (TRS_SEQ_FLOOR) = true ∧ trsMayWrite s m = true ∧ v.toNat < rdN s
      TRS_SEQ_FLOOR) ∧
    (∃ (m : Master) (b : BitVec 4) (s : State), qcsReach s m (TRS_KEY_STAT) = true ∧ trsMayWrite s m = true) ∧
    (∃ (m : Master) (r : BitVec 12) (s : State), qcsReach s m (TRS_FENCE) = true ∧ trsMayWrite s m = true) ∧
    (∃ (m : Master) (s : State), qcsReach s m (TRS_FENCE) = true ∧ trsMayWrite s m = true) :=
  ⟨⟨.a, 1, 0, 1, [5], { rst with host := { rst.host with ctlA := { rst.host.ctlA with ready := true } } }, by decide⟩,
    ⟨.a, 1, 0, { rst with host := { rst.host with ctlA := { rst.host.ctlA with ready := true } } }, by decide⟩,
    ⟨.a, 1, 0, { rst with host := { rst.host with ctlA := { rst.host.ctlA with ready := true } } }, by decide⟩,
    ⟨.a, 1, 0, { rst with host := { rst.host with ctlA := { rst.host.ctlA with ready := true } } }, by decide⟩,
    ⟨.a, 1, 0, { rst with host := { rst.host with ctlA := { rst.host.ctlA with ready := true } } }, by decide⟩,
    ⟨.a, 1, 0, { rst with host := { rst.host with ctlA := { rst.host.ctlA with ready := true } } }, by decide⟩,
    ⟨⟨2, true, none, false⟩, { rst with trs := { rst.trs with waiting := some ⟨2, true, none, false⟩ } }, by decide⟩,
    ⟨⟨2, true, none, false⟩, { w [(TRS_LD_STAT, TRS_LD_STAT_BUSY, 1)] with trs := { rst.trs with waiting := some ⟨2, true, none, false⟩ } }, by decide⟩,
    ⟨⟨1, true, none, false⟩, { rst with trs := { rst.trs with job := some ⟨1, true, none, false⟩ } }, by decide⟩,
    ⟨⟨1, true, none, true⟩, { rst with trs := { rst.trs with job := some ⟨1, true, none, true⟩ } }, by decide⟩,
    ⟨⟨1, true, none, true⟩, { rst with trs := { rst.trs with job := some ⟨1, true, none, true⟩ } }, by decide⟩,
    ⟨⟨1, true, none, true⟩, { rst with trs := { rst.trs with job := some ⟨1, true, none, true⟩ } }, by decide⟩,
    ⟨[], rst, by decide⟩,
    ⟨.ridge0, rst, by decide⟩,
    ⟨.ridge0, rst, by decide⟩,
    ⟨.ridge0, rst, by decide⟩,
    ⟨.ridge0, 7, rst, by decide⟩,
    ⟨.ridge0, 7, wrN rst TRS_SEQ_FLOOR 9, by decide⟩,
    ⟨.ridge0, 7, rst, by decide⟩,
    ⟨.ridge0, 7, rst, by decide⟩,
    ⟨.ridge0, rst, by decide⟩⟩

/-- The hypotheses of `PortLife` are met. -/
theorem witness_PortLife :
    (∃ (p : Fin 32) (low : Bool) (s : State), (tthOf s p).fitted = low) ∧
    (∃ (p : Fin 32) (s : State), (tthOf s p).fitted = false ∧ mode s ≠ 0 ∧ portState s p = 0) ∧
    (∃ (p : Fin 32) (s : State), mode s ≠ 0 ∧ portState s p = 1 ∧ (tthOf s p).fitted = true) ∧
    (∃ (p : Fin 32) (s : State), mode s ≠ 0 ∧ portState s p = 5 ∧ (tthOf s p).debounceHigh = true ∧ (tthOf s p).fitted =
      false) ∧
    (∃ (p : Fin 32) (c : BitVec 8) (d : List Byte) (r : TsbReq) (s : State), (tthOf s p).tsb = some r ∧ c.toNat ≠ 0xFF) ∧
    (∃ (p : Fin 32) (c : BitVec 8) (d : List Byte) (r : TsbReq) (s : State), (tthOf s p).tsb = some r ∧ r.tries < 3) ∧
    (∃ (p : Fin 32) (r : TsbReq) (s : State), (tthOf s p).tsb = some r ∧ r.tries < 3) ∧
    (∃ (p : Fin 32) (r : TsbReq) (s : State), (tthOf s p).tsb = some r ∧ 3 ≤ r.tries) ∧
    (∃ (p : Fin 32) (c : BitVec 8) (s : State), (tthOf s p).tsb = none ∧ sbUsable s p = true ∧ claimed s (baseTTH p) = false ∧
      tsbHas s p 10 = false) ∧
    (∃ (p : Fin 32) (up : BitVec 4) (s : State), portState s p = 4 ∧ enabledLanes s p up.toNat ≠ 0 ∧ enabledDown s p true =
      true ∧ domOn s (11 + p) = true ∧ domOn s (43 + p) = true ∧ 32 ≤ identField s p 16 2 ∧ (tthOf s p).reread = false) ∧
    (∃ (p : Fin 32) (up : BitVec 4) (s : State), portState s p = 4 ∧ enabledLanes s p up.toNat ≠ 0 ∧ enabledDown s p true =
      true ∧ domOn s (11 + p) = true ∧ domOn s (43 + p) = true ∧ identField s p 16 2 < 32) ∧
    (∃ (p : Fin 32) (l : Fin 5) (s : State), portState s p = 6) :=
  ⟨⟨2, false, rst, by decide⟩,
    ⟨2, w [(PWR_MODE, PWR_MODE_MODE, 2)], by decide⟩,
    ⟨2, { w [(PWR_MODE, PWR_MODE_MODE, 2), (TTH_LINK_STAT 2, TTH_LINK_STAT_STATE, 1)] with tth := [(2, { tthOf rst 2 with fitted := true })] }, by decide⟩,
    ⟨2, { w [(PWR_MODE, PWR_MODE_MODE, 2), (TTH_LINK_STAT 2, TTH_LINK_STAT_STATE, 5)] with tth := [(2, { tthOf rst 2 with debounceHigh := true })] }, by decide⟩,
    ⟨2, 0, [], ⟨12, 1, 0, 4, [], 0⟩, { rst with tth := [(2, { tthOf rst 2 with tsb := some ⟨12, 1, 0, 4, [], 0⟩ })] }, by decide⟩,
    ⟨2, 0, [], ⟨12, 1, 0, 4, [], 0⟩, { rst with tth := [(2, { tthOf rst 2 with tsb := some ⟨12, 1, 0, 4, [], 0⟩ })] }, by decide⟩,
    ⟨2, ⟨12, 1, 0, 4, [], 0⟩, { rst with tth := [(2, { tthOf rst 2 with tsb := some ⟨12, 1, 0, 4, [], 0⟩ })] }, by decide⟩,
    ⟨2, ⟨12, 1, 0, 4, [], 3⟩, { rst with tth := [(2, { tthOf rst 2 with tsb := some ⟨12, 1, 0, 4, [], 3⟩ })] }, by decide⟩,
    ⟨2, 1, { w [(TTH_LINK_STAT 2, TTH_LINK_STAT_STATE, 3)] with tth := [(2, { tthOf rst 2 with identOk := true })] }, by decide⟩,
    ⟨2, 15, w [(TTH_LINK_STAT 2, TTH_LINK_STAT_STATE, 4), (TTH_CTRL 2, TTH_CTRL_UP_EN, 15), (TTH_CTRL 2, TTH_CTRL_DN_EN, 1), (PWR_DOM_STAT 0, ⟨13, 1⟩, 1), (PWR_DOM_STAT 1, ⟨13, 1⟩, 1), (TTH_IDENT 2 4, ⟨0, 8⟩, 64)], by decide⟩,
    ⟨2, 15, w [(TTH_LINK_STAT 2, TTH_LINK_STAT_STATE, 4), (TTH_CTRL 2, TTH_CTRL_UP_EN, 15), (TTH_CTRL 2, TTH_CTRL_DN_EN, 1), (PWR_DOM_STAT 0, ⟨13, 1⟩, 1), (PWR_DOM_STAT 1, ⟨13, 1⟩, 1)], by decide⟩,
    ⟨2, 1, w [(TTH_LINK_STAT 2, TTH_LINK_STAT_STATE, 6)], by decide⟩⟩

/-- The hypotheses of `LinkCommands` are met. -/
theorem witness_LinkCommands :
    (∃ (p : Fin 32) (l : Fin 4) (s : State), laneMode s p = true ∧ fget s (TTH_LINK_STAT p) TTH_LINK_STAT_UP_GOOD / 2 ^ l.val
      % 2 = 1 ∧ fget s (TTH_LINK_STAT p) TTH_LINK_STAT_UP_GOOD ≠ 2 ^ l.val) ∧
    (∃ (p : Fin 32) (l : Fin 4) (s : State), laneMode s p = true ∧ fget s (TTH_LINK_STAT p) TTH_LINK_STAT_UP_GOOD = 2 ^ l.val) ∧
    (∃ (p : Fin 32) (s : State), laneMode s p = true) ∧
    (∃ (p : Fin 32) (s : State), laneMode s p = true ∧ avail s p = 0 ∧ flitsWait s p = true) ∧
    (∃ (p : Fin 32) (up : BitVec 4) (s : State), portState s p = 6 ∧ enabledLanes s p up.toNat ≠ 0 ∧ enabledDown s p true =
      true) ∧
    (∃ (p : Fin 32) (up : BitVec 4) (s : State), portState s p = 7 ∧ enabledLanes s p up.toNat ≠ 0 ∧ enabledDown s p true =
      true ∧ (tthOf s p).reread = false) ∧
    (∃ (p : Fin 32) (l : Fin 4) (s : State), portState s p = 6 ∧ fget s (TTH_LINK_STAT p) TTH_LINK_STAT_UP_GOOD / 2 ^ l.val %
      2 = 0 ∧ fget s (TTH_CTRL p) TTH_CTRL_UP_EN / 2 ^ l.val % 2 = 1) ∧
    (∃ (p : Fin 32) (f : Flit) (s : State), laneMode s p = true ∧ flitTaken f 2 = true ∧ lineOn (creditReturn s p
      f.cred.toNat) p (f.chan.toNat % 8) = true) ∧
    (∃ (p : Fin 32) (f : Flit) (s : State), laneMode s p = true ∧ flitTaken f 0 = true) ∧
    (∃ (p : Fin 32) (f : Flit) (s : State), laneMode s p = true ∧ upTaken f = false) ∧
    (∃ (p : Fin 32) (f : Flit) (s : State), laneMode s p = true ∧ flitTaken f 3 = true) ∧
    (∃ (p : Fin 32) (f : Flit) (s : State), laneMode s p = true ∧ flitTaken f 1 = true ∧ lineOn (creditReturn s p
      f.cred.toNat) p (f.chan.toNat % 8) = true) ∧
    (∃ (p : Fin 32) (s : State), fbit s (TTH_CTRL p) TTH_CTRL_HB_EN = true ∧ laneMode s p = true ∧ (tthOf s p).dnDue = false) ∧
    (∃ (p : Fin 32) (l : Fin 5) (c : BitVec 31) (s : State), c.toNat ≤ 1000000) ∧
    (∃ (p : Fin 32) (l : Fin 5) (c u : BitVec 31) (s : State), c.toNat ≤ 1000000 ∧ u ≠ 0) :=
  ⟨⟨2, 1, w [(TTH_LINK_STAT 2, TTH_LINK_STAT_STATE, 5), (TTH_LINK_STAT 2, TTH_LINK_STAT_UP_GOOD, 15)], by decide⟩,
    ⟨2, 1, w [(TTH_LINK_STAT 2, TTH_LINK_STAT_STATE, 6), (TTH_LINK_STAT 2, TTH_LINK_STAT_UP_GOOD, 2)], by decide⟩,
    ⟨2, w [(TTH_LINK_STAT 2, TTH_LINK_STAT_STATE, 5)], by decide⟩,
    ⟨2, { w [(TTH_LINK_STAT 2, TTH_LINK_STAT_STATE, 5)] with tth := [(2, { tthOf rst 2 with waiting := [[]] })] }, by decide⟩,
    ⟨2, 15, w [(TTH_LINK_STAT 2, TTH_LINK_STAT_STATE, 6), (TTH_CTRL 2, TTH_CTRL_UP_EN, 15), (TTH_CTRL 2, TTH_CTRL_DN_EN, 1)], by decide⟩,
    ⟨2, 15, w [(TTH_LINK_STAT 2, TTH_LINK_STAT_STATE, 7), (TTH_CTRL 2, TTH_CTRL_UP_EN, 15), (TTH_CTRL 2, TTH_CTRL_DN_EN, 1)], by decide⟩,
    ⟨2, 1, w [(TTH_LINK_STAT 2, TTH_LINK_STAT_STATE, 6), (TTH_CTRL 2, TTH_CTRL_UP_EN, 15)], by decide⟩,
    ⟨2, ⟨2, 0, 0, 0, 0, 0, 0, 0, 3907763299, []⟩, { w [(TTH_LINK_STAT 2, TTH_LINK_STAT_STATE, 5), (TTH_TOKEN 2, TTH_TOKEN_MINE, 1)] with tth := [(2, { tthOf rst 2 with streams := [(0, 0)] })] }, by decide +kernel⟩,
    ⟨2, ⟨0, 0, 0, 0, 0, 0, 0, 0, 1743147809, []⟩, w [(TTH_LINK_STAT 2, TTH_LINK_STAT_STATE, 5)], by decide +kernel⟩,
    ⟨2, ⟨2, 0, 0, 0, 0, 0, 0, 0, 1743147809, []⟩, w [(TTH_LINK_STAT 2, TTH_LINK_STAT_STATE, 5)], by decide +kernel⟩,
    ⟨2, ⟨3, 0, 0, 0, 0, 0, 0, 0, 2943175618, []⟩, w [(TTH_LINK_STAT 2, TTH_LINK_STAT_STATE, 5)], by decide +kernel⟩,
    ⟨2, ⟨1, 0, 0, 0, 0, 0, 0, 0, 543204480, []⟩, { w [(TTH_LINK_STAT 2, TTH_LINK_STAT_STATE, 5), (TTH_TOKEN 2, TTH_TOKEN_MINE, 1)] with tth := [(2, { tthOf rst 2 with streams := [(0, 0)] })] }, by decide +kernel⟩,
    ⟨2, w [(TTH_LINK_STAT 2, TTH_LINK_STAT_STATE, 5), (TTH_CTRL 2, TTH_CTRL_HB_EN, 1)], by decide⟩,
    ⟨2, 1, 5, rst, by decide⟩,
    ⟨2, 1, 5, 1, rst, by decide⟩⟩

/-- The hypotheses of `PortRegisters` are met. -/
theorem witness_PortRegisters :
    (∃ (m : Master) (p : Fin 32) (s : State), qcsReach s m (TTH_CTRL p) = true) ∧
    (∃ (m : Master) (p : Fin 32) (s : State), qcsReach s m (TTH_CTRL p) = true ∧ portState s p = 9) ∧
    (∃ (m : Master) (p : Fin 32) (s : State), qcsReach s m (TTH_CTRL p) = true ∧ (portState s p = 4 ∨ portState s p = 7)) ∧
    (∃ (m : Master) (p : Fin 32) (s : State), qcsReach s m (TTH_CTRL p) = true ∧ (portState s p = 5 ∨ portState s p = 6)) ∧
    (∃ (m : Master) (p : Fin 32) (s : State), qcsReach s m (TTH_CTRL p) = true) ∧
    (∃ (m : Master) (p : Fin 32) (s : State), qcsReach s m (TTH_CTRL p) = true) ∧
    (∃ (m : Master) (p : Fin 32) (s : State), qcsReach s m (TTH_CTRL p) = true) ∧
    (∃ (m : Master) (p : Fin 32) (s : State), qcsReach s m (TTH_CTRL p) = true) ∧
    (∃ (m : Master) (p : Fin 32) (v : BitVec 16) (s : State), qcsReach s m (TTH_HB p) = true ∧ 50 ≤ v.toNat ∧ v.toNat ≤ 10000
      ∧ sbUsable s p = false) ∧
    (∃ (m : Master) (p : Fin 32) (v : BitVec 16) (s : State), qcsReach s m (TTH_HB p) = true ∧ (v.toNat < 50 ∨ 10000 <
      v.toNat)) ∧
    (∃ (m : Master) (p : Fin 32) (s : State), qcsReach s m (TTH_TOKEN p) = true ∧ (tthOf s p).tsb = none) ∧
    (∃ (m : Master) (p : Fin 32) (s : State), qcsReach s m (TTH_TOKEN p) = true ∧ (tthOf s p).tsb = none) ∧
    (∃ (m : Master) (p : Fin 32) (s : State), qcsReach s m (TTH_TOKEN p) = true ∧ (tthOf s p).tsb = none) ∧
    (∃ (m : Master) (p : Fin 32) (n : BitVec 8) (a : BitVec 16) (s : State), qcsReach s m (TTH_TSB_CMD p) = true ∧ (tthOf s
      p).tsb = none ∧ n.toNat ≠ 0 ∧ n.toNat ≤ 32) ∧
    (∃ (m : Master) (p : Fin 32) (n : BitVec 8) (a : BitVec 16) (s : State), qcsReach s m (TTH_TSB_CMD p) = true ∧ (tthOf s
      p).tsb = none ∧ n.toNat ≠ 0 ∧ n.toNat ≤ 32) ∧
    (∃ (m : Master) (p : Fin 32) (n : BitVec 8) (a : BitVec 16) (s : State), qcsReach s m (TTH_TSB_CMD p) = true ∧ (tthOf s
      p).tsb = none ∧ (n.toNat = 0 ∨ 32 < n.toNat)) :=
  ⟨⟨.ridge0, 2, rst, by decide⟩,
    ⟨.ridge0, 2, w [(TTH_LINK_STAT 2, TTH_LINK_STAT_STATE, 9)], by decide⟩,
    ⟨.ridge0, 2, w [(TTH_LINK_STAT 2, TTH_LINK_STAT_STATE, 4)], by decide⟩,
    ⟨.ridge0, 2, w [(TTH_LINK_STAT 2, TTH_LINK_STAT_STATE, 5)], by decide⟩,
    ⟨.ridge0, 2, w [(TTH_LINK_STAT 2, TTH_LINK_STAT_STATE, 5)], by decide⟩,
    ⟨.ridge0, 2, w [(TTH_LINK_STAT 2, TTH_LINK_STAT_STATE, 5)], by decide⟩,
    ⟨.ridge0, 2, rst, by decide⟩,
    ⟨.ridge0, 2, rst, by decide⟩,
    ⟨.ridge0, 2, 100, rst, by decide⟩,
    ⟨.ridge0, 2, 10, rst, by decide⟩,
    ⟨.ridge0, 2, rst, by decide⟩,
    ⟨.ridge0, 2, rst, by decide⟩,
    ⟨.ridge0, 2, rst, by decide⟩,
    ⟨.ridge0, 2, 4, 0, rst, by decide⟩,
    ⟨.ridge0, 2, 4, 0, rst, by decide⟩,
    ⟨.ridge0, 2, 0, 0, rst, by decide⟩⟩

/-- The hypotheses of `FrontEndSideband` are met. -/
theorem witness_FrontEndSideband :
    (∃ (p : Fin 32) (side : Fin 2) (a : BitVec 16) (n : BitVec 8) (r : Nat × Nat) (s : State), n.toNat ≠ 0 ∧ n.toNat ≤ 32 ∧
      feRows.find? (fun r => r.1 ≤ a.toNat ∧ a.toNat < r.1 + r.2) = some r ∧ a.toNat + n.toNat ≤ r.1 + r.2) ∧
    (∃ (p : Fin 32) (side : Fin 2) (a : BitVec 16) (n : BitVec 8) (s : State), (n.toNat = 0 ∨ 32 < n.toNat)) ∧
    (∃ (p : Fin 32) (side : Fin 2) (d : List Byte) (s : State), d.length = 2 ∧ feOwns (feOf s p) side = true ∧ 50 ≤ leNat
      (d.map (·.toNat)) ∧ leNat (d.map (·.toNat)) ≤ 10000) ∧
    (∃ (p : Fin 32) (side : Fin 2) (d : List Byte) (s : State), d.length = 2 ∧ feOwns (feOf s p) side = false) ∧
    (∃ (p : Fin 32) (side : Fin 2) (s : State), (feOf s p).lane0 = false ∧ (feOf s p).lane1 = false) ∧
    (∃ (p : Fin 32) (side : Fin 2) (s : State), (feOf s p).owner = 0) ∧
    (∃ (p : Fin 32) (side : Fin 2) (s : State), (feOf s p).owner ≠ 0 ∧ feOwns (feOf s p) side = false) ∧
    (∃ (p : Fin 32) (side : Fin 2) (s : State), feOwns (feOf s p) side = true) ∧
    (∃ (p : Fin 32) (side : Fin 2) (s : State), feOwns (feOf s p) side = false) ∧
    (∃ (p : Fin 32) (side : Fin 2) (s : State), feOwns (feOf s p) side = true) :=
  ⟨⟨2, 0, 0x210, 2, (0x210, 2), rst, by decide⟩,
    ⟨2, 0, 0x210, 0, rst, by decide⟩,
    ⟨2, 0, [100, 0], { rst with fe := [(2, { feOf rst 2 with owner := 1 })] }, by decide⟩,
    ⟨2, 0, [100, 0], rst, by decide⟩,
    ⟨2, 0, rst, by decide⟩,
    ⟨2, 0, rst, by decide⟩,
    ⟨2, 0, { rst with fe := [(2, { feOf rst 2 with owner := 2 })] }, by decide⟩,
    ⟨2, 0, { rst with fe := [(2, { feOf rst 2 with owner := 1 })] }, by decide⟩,
    ⟨2, 0, rst, by decide⟩,
    ⟨2, 0, { rst with fe := [(2, { feOf rst 2 with owner := 1 })] }, by decide⟩⟩

/-- The hypotheses of `FrontEndSafety` are met. -/
theorem witness_FrontEndSafety :
    (∃ (p : Fin 32) (rpm : BitVec 16) (b : Bool) (s : State), (feOf s p).owner = 1 ∧ (feOf s p).run0 = true) ∧
    (∃ (p : Fin 32) (rpm : BitVec 16) (b : Bool) (s : State), (feOf s p).owner = 2 ∧ (feOf s p).run1 = true) ∧
    (∃ (p : Fin 32) (side : Fin 2) (s : State), feOwns (feOf s p) side = false ∧ (if side.val = 0 then (feOf s p).run0 else
      (feOf s p).run1) = true) ∧
    (∃ (p : Fin 32) (side : Fin 2) (f : Flit) (s : State), flitTaken f 0xB = true) ∧
    (∃ (p : Fin 32) (side : Fin 2) (f : Flit) (s : State), flitTaken f 9 = true ∧ feOwns (feOf s p) side = true ∧
      f.epoch.toNat = (feOf s p).epoch) ∧
    (∃ (p : Fin 32) (side : Fin 2) (f : Flit) (s : State), flitTaken f 9 = true ∧ feOwns (feOf s p) side = false) ∧
    (∃ (p : Fin 32) (c : FePend) (cs : List FePend) (s : State), (feOf s p).pend = c :: cs ∧ c.epoch = (feOf s p).epoch) ∧
    (∃ (p : Fin 32) (side : Fin 2) (f : Flit) (s : State), flitTaken f 8 = true ∧ feOwns (feOf s p) side = true ∧
      f.epoch.toNat = (feOf s p).epoch) ∧
    (∃ (p : Fin 32) (side : Fin 2) (f : Flit) (s : State), flitTaken f 8 = true ∧ feOwns (feOf s p) side = true ∧
      f.epoch.toNat = (feOf s p).epoch ∧ f.flags.toNat % 2 = 0) ∧
    (∃ (p : Fin 32) (side : Fin 2) (f : Flit) (l : Bool) (s : State), flitTaken f 8 = false) ∧
    (∃ (p : Fin 32) (side : Fin 2) (f : Flit) (s : State), flitTaken f 8 = true ∧ feOwns (feOf s p) side = false) ∧
    (∃ (p : Fin 32) (side : Fin 2) (w : BitVec 12) (s : State), feOwns (feOf s p) side = true ∧ winhGood w.toNat = true ∧
      (feOf s p).winhNeed = 2) ∧
    (∃ (p : Fin 32) (side : Fin 2) (w : BitVec 12) (s : State), feOwns (feOf s p) side = true ∧ winhGood w.toNat = true ∧
      (feOf s p).winhNeed = 1) ∧
    (∃ (p : Fin 32) (side : Fin 2) (w : BitVec 12) (s : State), feOwns (feOf s p) side = true ∧ winhGood w.toNat = false) ∧
    (∃ (p : Fin 32) (side : Fin 2) (s : State), feOwns (feOf s p) side = true) ∧
    (∃ (p : Fin 32) (side : Fin 2) (s : State), feOwns (feOf s p) side = true) ∧
    (∃ (p : Fin 32) (s : State), (feOf s p).owner ≠ 0) :=
  ⟨⟨2, 3600, true, { rst with fe := [(2, { feOf rst 2 with owner := 1, run0 := true })] }, by decide⟩,
    ⟨2, 3600, true, { rst with fe := [(2, { feOf rst 2 with owner := 2, run1 := true })] }, by decide⟩,
    ⟨2, 0, { rst with fe := [(2, { feOf rst 2 with owner := 2, run0 := true })] }, by decide⟩,
    ⟨2, 0, ⟨11, 0, 0, 0, 0, 0, 0, 0, 2558663464, []⟩, rst, by decide +kernel⟩,
    ⟨2, 0, ⟨9, 0, 0, 0, 0, 0, 0, 0, 395310186, []⟩, { rst with fe := [(2, { feOf rst 2 with owner := 1 })] }, by decide +kernel⟩,
    ⟨2, 0, ⟨9, 0, 0, 0, 0, 0, 0, 0, 395310186, []⟩, rst, by decide +kernel⟩,
    ⟨2, ⟨0, []⟩, [], { rst with fe := [(2, { feOf rst 2 with pend := [⟨0, []⟩] })] }, by decide⟩,
    ⟨2, 0, ⟨8, 0, 0, 0, 0, 0, 0, 0, 1342768075, []⟩, { rst with fe := [(2, { feOf rst 2 with owner := 1 })] }, by decide +kernel⟩,
    ⟨2, 0, ⟨8, 0, 0, 0, 0, 0, 0, 0, 1342768075, []⟩, { rst with fe := [(2, { feOf rst 2 with owner := 1 })] }, by decide +kernel⟩,
    ⟨2, 0, ⟨7, 0, 0, 0, 0, 0, 0, 0, 1342768075, []⟩, false, rst, by decide +kernel⟩,
    ⟨2, 0, ⟨8, 0, 0, 0, 0, 0, 0, 0, 1342768075, []⟩, rst, by decide +kernel⟩,
    ⟨2, 0, 0x800, { rst with fe := [(2, { feOf rst 2 with owner := 1, winhNeed := 2 })] }, by decide⟩,
    ⟨2, 0, 0x800, { rst with fe := [(2, { feOf rst 2 with owner := 1, winhNeed := 1 })] }, by decide⟩,
    ⟨2, 0, 0x1, { rst with fe := [(2, { feOf rst 2 with owner := 1 })] }, by decide⟩,
    ⟨2, 0, { rst with fe := [(2, { feOf rst 2 with owner := 1 })] }, by decide⟩,
    ⟨2, 0, { rst with fe := [(2, { feOf rst 2 with owner := 1 })] }, by decide⟩,
    ⟨2, { rst with fe := [(2, { feOf rst 2 with owner := 1 })] }, by decide⟩⟩

/-- The hypotheses of `DetectorLanes` are met. -/
theorem witness_DetectorLanes :
    (∃ (m : Master) (a : Fin 64) (l : Fin 4) (i : Fin 2) (b : BitVec 13) (n : BitVec 14) (s : State), qcsReach s m (ACT_DL_PIN
      a l i) = true ∧ pinHeld s (4 * a + l) i = false ∧ pinFits s (4 * a + l) i n.toNat = true) ∧
    (∃ (m : Master) (a : Fin 64) (l : Fin 4) (i : Fin 2) (b : BitVec 13) (n : BitVec 14) (s : State), qcsReach s m (ACT_DL_PIN
      a l i) = true ∧ pinFits s (4 * a + l) i n.toNat = false) ∧
    (∃ (m : Master) (a : Fin 64) (l : Fin 4) (i : Fin 2) (b : BitVec 13) (n : BitVec 14) (s : State), qcsReach s m (ACT_DL_PIN
      a l i) = true ∧ pinHeld s (4 * a + l) i = true) ∧
    (∃ (m : Master) (a : Fin 64) (l : Fin 4) (i : Fin 2) (s : State), qcsReach s m (ACT_DL_PIN a l i) = true ∧ pinHeld s (4 *
      a + l) i = true) ∧
    (∃ (a : Fin 64) (l : Fin 4) (i : Fin 2) (s : State), pinHeld s (4 * a + l) i = true) ∧
    (∃ (a : Fin 64) (l : Fin 4) (t : BitVec 17) (w : SecWork) (s : State), workAt s a l false = some w ∧ laneReady s (4 * a +
      l) = true ∧ s.det.live.contains (4 * a.val + l.val) = true ∧ joins s a w = none) ∧
    (∃ (a : Fin 64) (l : Fin 4) (t : BitVec 17) (w : SecWork) (x : Sector) (s : State), workAt s a l false = some w ∧
      laneReady s (4 * a + l) = true ∧ s.det.live.contains (4 * a.val + l.val) = true ∧ joins s a w = some x) ∧
    (∃ (c : Fin 16) (j : DecJob) (cr : List Int) (s : State), clusterEn s c = true ∧ clusterOn s c = true ∧ fbit s (LDC_STAT
      c) LDC_STAT_BUSY = false ∧ pickJob s c = some (j, cr)) ∧
    (∃ (c : Fin 16) (j : DecJob) (s : State), s.det.jobs.find? (fun j => j.run == some c.val) = some j ∧ j.what = 2) ∧
    (∃ (c : Fin 16) (j : DecJob) (s : State), s.det.jobs.find? (fun j => j.run == some c.val) = some j ∧ j.what = 4) ∧
    (∃ (c : Fin 16) (j : DecJob) (s : State), s.det.jobs.find? (fun j => j.run == some c.val) = some j ∧ j.what ≠ 2 ∧ j.what ≠
      4) ∧
    (∃ (c : Fin 16) (h : BitVec 16) (j : DecJob) (s : State), s.det.jobs.find? (fun j => j.run == some c.val) = some j ∧
      h.toNat < 16) ∧
    (∃ (c : Fin 16) (s : State), fbit s (LDC_CTRL c) LDC_CTRL_PWR_AUTO = true ∧ fbit s (LDC_STAT c) LDC_STAT_BUSY = false ∧
      clusterOn s c = true ∧ (clusterEn s c = false ∨ jobsFor s c = [])) ∧
    (∃ (m : Master) (a : Fin 64) (l : Fin 4) (v : Word) (s : State), qcsReach s m (ACT_DL_RETRY a l) = true ∧ fbit s
      (ACT_DL_RETRY_STAT ((4 * a + l) / 4) ((4 * a + l) % 4)) ACT_DL_RETRY_STAT_BUSY = false ∧ pinHeld (retryBegin s (4 * a +
      l) 0 (getF v ACT_DL_RETRY_PIN) (v.toNat % 2 ^ 25) false) (4 * a + l) (getF v ACT_DL_RETRY_PIN) = false) ∧
    (∃ (m : Master) (a : Fin 64) (l : Fin 4) (v : Word) (s : State), qcsReach s m (ACT_DL_RETRY a l) = true ∧ fbit s
      (ACT_DL_RETRY_STAT ((4 * a + l) / 4) ((4 * a + l) % 4)) ACT_DL_RETRY_STAT_BUSY = false ∧ pinHeld (retryBegin s (4 * a +
      l) 0 (getF v ACT_DL_RETRY_PIN) (v.toNat % 2 ^ 25) false) (4 * a + l) (getF v ACT_DL_RETRY_PIN) = true) ∧
    (∃ (m : Master) (a : Fin 64) (l : Fin 4) (v : Word) (s : State), qcsReach s m (ACT_DL_RETRY a l) = true ∧ fbit s
      (ACT_DL_RETRY_STAT ((4 * a + l) / 4) ((4 * a + l) % 4)) ACT_DL_RETRY_STAT_BUSY = true) ∧
    (∃ (a : Fin 64) (l : Fin 4) (s : State), bitOf (rd s (ACT_DET_PWR a)) (4 + l) = true ∧ s.det.downing.contains (4 * a.val +
      l.val) = false ∧ domOn s (139 + (4 * a + l)) = false ∧ s.pwr.wanted.contains (139 + (4 * a.val + l.val)) = false ∧
      domFailed s (139 + (4 * a + l)) = false) ∧
    (∃ (a : Fin 64) (l : Fin 4) (s : State), bitOf (rd s (ACT_DET_PWR a)) (4 + l) = true ∧ s.det.downing.contains (4 * a.val +
      l.val) = true) ∧
    (∃ (a : Fin 64) (l : Fin 4) (s : State), laneOn s (4 * a + l) = true ∧ s.det.downing.contains (4 * a.val + l.val) = false
      ∧ laneReady s (4 * a + l) = false) ∧
    (∃ (a : Fin 64) (l : Fin 4) (s : State), s.det.downing.contains (4 * a.val + l.val) = true) ∧
    (∃ (a : Fin 64) (l : Fin 4) (s : State), s.det.downing.contains (4 * a.val + l.val) = false ∧ laneMayOff s (4 * a + l) =
      true ∧ laneOn s (4 * a + l) = true ∧ laneKept s (4 * a + l) = false) ∧
    (∃ (m : Master) (c : Fin 16) (s : State), accessUndefined s m (baseLDC c + 0x24) = false) :=
  ⟨⟨.ridge0, 0, 0, 0, 0, 128, w [(ACT_DL_CTRL 0 0, ⟨0, 1⟩, 1)], by decide⟩,
    ⟨.ridge0, 0, 0, 0, 0, 0, rst, by decide⟩,
    ⟨.ridge0, 0, 0, 0, 0, 0, w [(pinReg 0 0, ACT_DL_PIN_VALID, 1)], by decide⟩,
    ⟨.ridge0, 0, 0, 0, w [(pinReg 0 0, ACT_DL_PIN_VALID, 1)], by decide⟩,
    ⟨0, 0, 0, w [(pinReg 0 0, ACT_DL_PIN_VALID, 1)], by decide⟩,
    ⟨0, 0, 0, ⟨0, 0, 0, 0, false, 0, 0, 0, 0, 0⟩, { w [(ACT_DET_PWR 0, ⟨8, 1⟩, 1)] with det := { rst.det with live := [0] }, mcs := { rst.mcs with fseq := [(0, { cur := some { lo := 0, hi := 0, z := 0, t := 0, work := [⟨0, 0, 0, 0, false, 0, 0, 0, 0, 0⟩] } })] } }, by decide +kernel⟩,
    ⟨0, 0, 0, ⟨0, 0, 0, 0, false, 0, 0, 0, 0, 0⟩, sectorOn 0, { { w [(ACT_DET_PWR 0, ⟨8, 1⟩, 1)] with det := { rst.det with live := [0] }, mcs := { rst.mcs with fseq := [(0, { cur := some { lo := 0, hi := 0, z := 0, t := 0, work := [⟨0, 0, 0, 0, false, 0, 0, 0, 0, 0⟩] } })] } } with det := { rst.det with live := [0], sectors := [sectorOn 0] } }, by decide +kernel⟩,
    ⟨0, ⟨0, 0, 0, 0, 0, 0, none, []⟩, [0, 0, 0, 0], { w [(PWR_DOM_STAT 12, ⟨11, 1⟩, 1), (LDC_CTRL 0, LDC_CTRL_EN, 1), (LDC_CTRL 0, ⟨8, 4⟩, 15)] with det := { rst.det with jobs := [⟨0, 0, 0, 0, 0, 0, none, []⟩] } }, by decide⟩,
    ⟨0, ⟨0, 0, 0, 0, 2, 0, some 0, []⟩, { rst with det := { rst.det with jobs := [⟨0, 0, 0, 0, 2, 0, some 0, []⟩] } }, by decide⟩,
    ⟨0, ⟨0, 0, 0, 0, 4, 0, some 0, []⟩, { rst with det := { rst.det with jobs := [⟨0, 0, 0, 0, 4, 0, some 0, []⟩] } }, by decide⟩,
    ⟨0, ⟨0, 0, 0, 0, 0, 0, some 0, []⟩, { rst with det := { rst.det with jobs := [⟨0, 0, 0, 0, 0, 0, some 0, []⟩] } }, by decide⟩,
    ⟨0, 1, ⟨0, 0, 0, 0, 0, 0, some 0, []⟩, { rst with det := { rst.det with jobs := [⟨0, 0, 0, 0, 0, 0, some 0, []⟩] } }, by decide +kernel⟩,
    ⟨0, w [(PWR_DOM_STAT 12, ⟨11, 1⟩, 1), (LDC_CTRL 0, LDC_CTRL_PWR_AUTO, 1)], by decide⟩,
    ⟨.ridge0, 0, 0, 0, rst, by decide⟩,
    ⟨.ridge0, 0, 0, 0, w [(pinReg 0 0, ACT_DL_PIN_VALID, 1)], by decide⟩,
    ⟨.ridge0, 0, 0, 0, w [(ACT_DL_RETRY_STAT 0 0, ACT_DL_RETRY_STAT_BUSY, 1)], by decide⟩,
    ⟨0, 0, w [(ACT_DET_PWR 0, ⟨4, 1⟩, 1)], by decide⟩,
    ⟨0, 0, { w [(ACT_DET_PWR 0, ⟨4, 1⟩, 1)] with det := { rst.det with downing := [0] } }, by decide⟩,
    ⟨0, 0, w [(PWR_DOM_STAT 4, ⟨11, 1⟩, 1)], by decide⟩,
    ⟨0, 0, { rst with det := { rst.det with downing := [0] } }, by decide⟩,
    ⟨0, 0, w [(PWR_DOM_STAT 4, ⟨11, 1⟩, 1), (ACT_DET_PWR 0, ⟨4, 1⟩, 1)], by decide⟩,
    ⟨.ridge0, 0, rst, by decide⟩⟩

/-- The hypotheses of `Reconstruction` are met. -/
theorem witness_Reconstruction :
    (∃ (a : Fin 64) (l : Fin 4) (b : BitVec 17) (x : Sector) (q : Ladder) (s : State), ladderAt s (4 * a.val + l.val) 2 = some
      (x, q) ∧ laneReady s (4 * a.val + l.val) = true ∧ (tabGet {} s.spn ((4 * a.val + l.val) / 8)).step = none) ∧
    (∃ (a : Fin 64) (l : Fin 4) (r : List (BitVec 16 × BitVec 33024)) (x : Sector × Ladder) (s : State), ladderAt s (4 * a.val
      + l.val) 3 = some x) ∧
    (∃ (t : Fin 4) (n : BitVec 8) (b : BitVec 40) (r : List (BitVec 5 × BitVec 33024)) (x : Sector) (s : State), engineFree s
      t = true ∧ s.det.sectors.find? (fun x => x.nsid == n.toNat && x.lba == b.toNat && x.ladder.any fun l => rungF l
      ACT_LAD_ACTION == 4 && l.replayTo.isNone) = some x) :=
  ⟨⟨0, 0, 0, sectorOn 0x20000000, ladderOn 0x20000000, { w [(ACT_DET_PWR 0, ⟨8, 1⟩, 1)] with det := { rst.det with sectors := [sectorOn 0x20000000] } }, by decide +kernel⟩,
    ⟨0, 0, [], (sectorOn 0x30000000, ladderOn 0x30000000), { rst with det := { rst.det with sectors := [sectorOn 0x30000000] } }, by decide +kernel⟩,
    ⟨0, 0, 0, [], sectorOn 0x40000000, { rst with det := { rst.det with sectors := [sectorOn 0x40000000] } }, by decide +kernel⟩⟩

/-- The hypotheses of `ServoCommands` are met. -/
theorem witness_ServoCommands :
    (∃ (a : Fin 64) (l : Fin 4) (w : WedgeFind) (t : BitVec 48) (s : State), following s a l = true) ∧
    (∃ (a : Fin 64) (l : Fin 4) (s : State), following s a l = true ∧ missTol s a < fget s (ACT_SL_INH a l) ACT_SL_INH_MISSES
      ∧ (slane s a l).setNow = 0) ∧
    (∃ (a : Fin 64) (s : State), 2 ≤ srvMode s a ∧ srvMode s a ≠ 5 ∧ allMissed s a = true) ∧
    (∃ (a : Fin 64) (s : State), srvMode s a = 5 ∧ (slice s a).unloading = false) ∧
    (∃ (a : Fin 64) (s : State), srvMode s a = 5 ∧ (slice s a).unloading = false ∧ (slice (evtSet s (.srv a)
      ACT_SRV_EVT_REACQ) a).tries < 2) ∧
    (∃ (a : Fin 64) (s : State), srvMode s a = 3 ∧ followers s a ≠ [] ∧ (followers s a).all (fun l => decide (settleN s a ≤
      (slane s a l).settle)) = true) ∧
    (∃ (a : Fin 64) (l : Fin 4) (s : State), following s a l = true ∧ maSaturated s a l = true ∧ srcOn s a l 2 = false) ∧
    (∃ (p : Fin 32) (v : BitVec 16) (t : BitVec 32) (s : State), v.toNat = 0xFFFF) ∧
    (∃ (a : Fin 64) (s : State), srvMode s a ≠ 0) ∧
    (∃ (a : Fin 64) (s : State), (slice s a).pend ≠ [] ∧ inSafe s = false ∧ srvMode s a = 4 ∧ (slice s a).index = true ∧
      rewriteMax s a ≤ (slice s a).passes) ∧
    (∃ (a : Fin 64) (s : State), (slice s a).pend ≠ [] ∧ inSafe s = false ∧ srvMode s a = 4 ∧ (slice s a).index = true ∧
      (slice s a).passes < rewriteMax s a) ∧
    (∃ (a : Fin 64) (l : Fin 4) (f : List (BitVec 16)) (n : BitVec 8) (b : BitVec 40) (k u v : Nat) (s : State), (slane s a
      l).squeezed = some (k, u, some v)) ∧
    (∃ (m : Master) (a : Fin 64) (k : BitVec 4) (s : State), qcsReach s m (ACT_WS_INH a) = true) :=
  ⟨⟨0, 0, ⟨true, 0, 3, true, true, 0, 0, 0⟩, 0, { w [(TTH_LINK_STAT 0, TTH_LINK_STAT_STATE, 5), (TTH_TOKEN 0, TTH_TOKEN_MINE, 1), (ACT_SRV_STAT 0, ACT_SRV_STAT_MODE, 4)] with tth := [(0, { tthOf rst 0 with streams := [(0, 0)] })] }, by decide⟩,
    ⟨0, 0, { w [(TTH_LINK_STAT 0, TTH_LINK_STAT_STATE, 5), (TTH_TOKEN 0, TTH_TOKEN_MINE, 1), (ACT_SRV_STAT 0, ACT_SRV_STAT_MODE, 4), (ACT_SL_INH 0 0, ACT_SL_INH_MISSES, 9)] with tth := [(0, { tthOf rst 0 with streams := [(0, 0)] })] }, by decide⟩,
    ⟨0, { w [(TTH_LINK_STAT 0, TTH_LINK_STAT_STATE, 5), (TTH_TOKEN 0, TTH_TOKEN_MINE, 1), (ACT_SRV_STAT 0, ACT_SRV_STAT_MODE, 4), (ACT_SL_INH 0 0, ACT_SL_INH_MISSES, 200)] with tth := [(0, { tthOf rst 0 with streams := [(0, 0)] })] }, by decide⟩,
    ⟨0, { w [(TTH_LINK_STAT 0, TTH_LINK_STAT_STATE, 5), (TTH_TOKEN 0, TTH_TOKEN_MINE, 1), (ACT_SRV_STAT 0, ACT_SRV_STAT_MODE, 5)] with tth := [(0, { tthOf rst 0 with streams := [(0, 0)] })] }, by decide⟩,
    ⟨0, { w [(TTH_LINK_STAT 0, TTH_LINK_STAT_STATE, 5), (TTH_TOKEN 0, TTH_TOKEN_MINE, 1), (ACT_SRV_STAT 0, ACT_SRV_STAT_MODE, 5)] with tth := [(0, { tthOf rst 0 with streams := [(0, 0)] })] }, by decide⟩,
    ⟨0, { w [(TTH_LINK_STAT 0, TTH_LINK_STAT_STATE, 5), (TTH_TOKEN 0, TTH_TOKEN_MINE, 1), (ACT_SRV_STAT 0, ACT_SRV_STAT_MODE, 3)] with tth := [(0, { tthOf rst 0 with streams := [(0, 0)] })], lanes := [(0, { slane rst 0 0 with settle := 250 })] }, by decide⟩,
    ⟨0, 0, { w [(TTH_LINK_STAT 0, TTH_LINK_STAT_STATE, 5), (TTH_TOKEN 0, TTH_TOKEN_MINE, 1), (ACT_SRV_STAT 0, ACT_SRV_STAT_MODE, 4)] with tth := [(0, { tthOf rst 0 with streams := [(0, 0)] })], lanes := [(0, { slane rst 0 0 with satCnt := 2 })] }, by decide⟩,
    ⟨0, 0xFFFF, 0, rst, by decide⟩,
    ⟨0, { w [(TTH_LINK_STAT 0, TTH_LINK_STAT_STATE, 5), (TTH_TOKEN 0, TTH_TOKEN_MINE, 1), (ACT_SRV_STAT 0, ACT_SRV_STAT_MODE, 4)] with tth := [(0, { tthOf rst 0 with streams := [(0, 0)] })] }, by decide⟩,
    ⟨0, { w [(TTH_LINK_STAT 0, TTH_LINK_STAT_STATE, 5), (TTH_TOKEN 0, TTH_TOKEN_MINE, 1), (ACT_SRV_STAT 0, ACT_SRV_STAT_MODE, 4)] with tth := [(0, { tthOf rst 0 with streams := [(0, 0)] })], slices := [(0, { slice rst 0 with pend := [⟨0, 0, 0, 0, 0, 0, 0⟩], index := true, passes := 7 })] }, by decide⟩,
    ⟨0, { w [(TTH_LINK_STAT 0, TTH_LINK_STAT_STATE, 5), (TTH_TOKEN 0, TTH_TOKEN_MINE, 1), (ACT_SRV_STAT 0, ACT_SRV_STAT_MODE, 4)] with tth := [(0, { tthOf rst 0 with streams := [(0, 0)] })], slices := [(0, { slice rst 0 with pend := [⟨0, 0, 0, 0, 0, 0, 0⟩], index := true })] }, by decide⟩,
    ⟨0, 0, [], 1, 0, 5, 1, 2, { rst with lanes := [(0, { slane rst 0 0 with squeezed := some (5, 1, some 2) })] }, by decide⟩,
    ⟨.ridge0, 0, 3, rst, by decide⟩⟩

/-- The hypotheses of `BridleCommands` are met. -/
theorem witness_BridleCommands :
    (∃ (e : Fin 16) (k : Fin 64) (t : BitVec 48) (s : State), slotKind k = 3) ∧
    (∃ (e : Fin 16) (t : BitVec 48) (k : Nat) (s : State), fbit s (BRD_CTRL e) BRD_CTRL_EN = true ∧ domOn s (411 + e) = true ∧
      (engine s e).run = none ∧ nextReady s e = some k) ∧
    (∃ (e : Fin 16) (i : BrdIter) (s : State), (engine s e).run = some i) ∧
    (∃ (e : Fin 16) (k : Fin 64) (o : Int × Nat × Bool) (l : List (Int × Nat × Bool)) (s : State), (bslot s e k).pend = o ::
      l) ∧
    (∃ (m : Master) (e : Fin 16) (s : State), qcsReach s m (BRD_SW_CTRL e) = true) ∧
    (∃ (e : Fin 16) (k : Fin 64) (s : State), (bslot s e k).armed = true ∧ (iterates s e k = false ∨ fbit s (BRD_SL_STAT e k)
      BRD_SL_STAT_FE_ACTIVE = true ∨ ((bslot s e k).ready = false ∧ slotTriggered s e k = false)) ∧ (engine s e).run = none) ∧
    (∃ (p : Fin 32) (c : StepChange) (s : State), (spnOf s p).step = some c ∧ c.phase = 2 ∧ (if wedgesSeen s p then decide (16
      ≤ (spnOf s p).near) else speedNear s p c.target) = true ∧ switching s p = false ∧ claimed s (baseBRD (p / 2)) = false) ∧
    (∃ (m : Master) (e : Fin 16) (k : Fin 64) (s : State), qcsReach s m (BRD_SL_CTRL e k) = true ∧ slotUsed k = true) ∧
    (∃ (m : Master) (e : Fin 16) (k : Fin 64) (v : BitVec 2) (s : State), qcsReach s m (BRD_SL_CTRL e k) = true ∧ slotUsed k =
      true ∧ v ≠ 0) ∧
    (∃ (m : Master) (e : Fin 16) (k : Fin 64) (i : Fin 16) (v : Word) (s : State), qcsReach s m (BRD_COEF e k i) = true ∧
      slotKind k ≠ 0xE ∧ (bslot s e k).armed = false) ∧
    (∃ (m : Master) (e : Fin 16) (k : Fin 64) (i : Fin 16) (v : Word) (s : State), qcsReach s m (BRD_COEF e k i) = true ∧
      slotKind k ≠ 0xE ∧ (bslot s e k).armed = true) ∧
    (∃ (e : Fin 16) (k : Fin 64) (s : State), slotUsed k = true ∧ (bslot s e k).mode = 2 ∧ fbit s (BRD_SL_STAT e k)
      BRD_SL_STAT_FE_ACTIVE = false ∧ feN s e k ≤ fget s (BRD_SL_STAT e k) BRD_SL_STAT_FE_CNT) ∧
    (∃ (e : Fin 16) (k : Fin 64) (s : State), fbit s (BRD_SL_STAT e k) BRD_SL_STAT_FE_ACTIVE = true ∧ (bslot s e k).feAct = 0
      ∧ feN s e k ≤ (bslot s e k).feLow ∧ slotKind k ≠ 4) ∧
    (∃ (m : Master) (e : Fin 16) (k : Fin 64) (s : State), qcsReach s m (BRD_SL_FE e k) = true ∧ slotUsed k = true ∧ fbit s
      (BRD_SL_STAT e k) BRD_SL_STAT_FE_ACTIVE = true ∧ (bslot s e k).feAct ≠ 0) ∧
    (∃ (e : Fin 16) (s : State), fbit s (BRD_CTRL e) BRD_CTRL_PWR_AUTO = true ∧ (rangeFrom 0 64).all (fun k => slotMode s e k
      == 0) = true ∧ domOn s (411 + e) = true ∧ domOn (domRelease s (411 + e)) (411 + e) = false) ∧
    (∃ (m : Master) (e : Fin 16) (s : State), accessUndefined s m (BRD_STAT e) = false) :=
  ⟨⟨0, 13, 0, rst, by decide⟩,
    ⟨0, 0, 0, { w [(BRD_CTRL 0, BRD_CTRL_EN, 1), (PWR_DOM_STAT 12, ⟨27, 1⟩, 1)] with slots := [(0, { bslot rst 0 0 with ready := true, mode := 2 })] }, by decide⟩,
    ⟨0, ⟨0, 96, 192, false, 0, 5, bslot rst 0 0, false, false⟩, { rst with engines := [(0, { engine rst 0 with run := some ⟨0, 96, 192, false, 0, 5, bslot rst 0 0, false, false⟩ })] }, by decide⟩,
    ⟨0, 0, (5, 7, false), [], { rst with slots := [(0, { bslot rst 0 0 with pend := [(5, 7, false)] })] }, by decide⟩,
    ⟨.ridge0, 0, rst, by decide⟩,
    ⟨0, 0, { rst with slots := [(0, { bslot rst 0 0 with armed := true })] }, by decide⟩,
    ⟨0, ⟨2, 0, false⟩, { rst with spn := [(0, { spnOf rst 0 with step := some ⟨2, 0, false⟩ })] }, by decide⟩,
    ⟨.ridge0, 0, 0, rst, by decide⟩,
    ⟨.ridge0, 0, 0, 2, rst, by decide⟩,
    ⟨.ridge0, 0, 0, 0, 7, rst, by decide⟩,
    ⟨.ridge0, 0, 0, 0, 7, { rst with slots := [(0, { bslot rst 0 0 with armed := true })] }, by decide⟩,
    ⟨0, 0, { w [(BRD_SL_STAT 0 0, BRD_SL_STAT_FE_CNT, 255)] with slots := [(0, { bslot rst 0 0 with mode := 2 })] }, by decide⟩,
    ⟨0, 0, { w [(BRD_SL_STAT 0 0, BRD_SL_STAT_FE_ACTIVE, 1)] with slots := [(0, { bslot rst 0 0 with feLow := 300 })] }, by decide⟩,
    ⟨.ridge0, 0, 0, { w [(BRD_SL_STAT 0 0, BRD_SL_STAT_FE_ACTIVE, 1)] with slots := [(0, { bslot rst 0 0 with feAct := 3 })] }, by decide⟩,
    ⟨0, w [(BRD_CTRL 0, BRD_CTRL_PWR_AUTO, 1), (PWR_DOM_STAT 12, ⟨27, 1⟩, 1)], by decide⟩,
    ⟨.ridge0, 0, rst, by decide⟩⟩

/-- The hypotheses of `SpindleRequests` are met. -/
theorem witness_SpindleRequests :
    (∃ (m : Master) (p : Fin 32) (i : BitVec 2) (s : State), qcsReach s m (SPN_CTRL p) = true) ∧
    (∃ (m : Master) (p : Fin 32) (s : State), qcsReach s m (SPN_CTRL p) = true ∧ requestPasses (fset s (SPN_CTRL p)
      SPN_CTRL_REQ 0) p 0 = true) ∧
    (∃ (m : Master) (p : Fin 32) (s : State), qcsReach s m (SPN_CTRL p) = true ∧ requestPasses (fset s (SPN_CTRL p)
      SPN_CTRL_REQ 2) p 0 = true) ∧
    (∃ (m : Master) (p : Fin 32) (i : BitVec 2) (s : State), qcsReach s m (SPN_CTRL p) = true) ∧
    (∃ (p : Fin 32) (s : State), s.shelf.waits.contains p.val = true ∧ firstInLine s p = true ∧ inSafe s = false ∧
      s.prt.hoWait = false ∧ (spnOf s p).wantRun = true ∧ spnState s p = 0 ∧ portUp s p = true ∧ policyOpen s p = true ∧
      (spnOf s p).chopStop = false ∧ fget s SPN_SHELF_CTRL SPN_SHELF_CTRL_SPINUPS < spinupMax s) ∧
    (∃ (m : Master) (p : Fin 32) (s : State), qcsReach s m (SPN_CHOP p) = true) ∧
    (∃ (m : Master) (p : Fin 32) (s : State), qcsReach s m (SPN_CHOP p) = true) :=
  ⟨⟨.ridge0, 0, 1, rst, by decide⟩,
    ⟨.ridge0, 0, rst, by decide⟩,
    ⟨.ridge0, 0, rst, by decide⟩,
    ⟨.ridge0, 0, 1, rst, by decide⟩,
    ⟨0, { w [(SPN_STAT 0, SPN_STAT_STATE, 0), (TTH_LINK_STAT 0, TTH_LINK_STAT_STATE, 5)] with spn := [(0, { spnOf rst 0 with wantRun := true })], shelf := { rst.shelf with waits := [0] } }, by decide⟩,
    ⟨.ridge0, 0, rst, by decide⟩,
    ⟨.ridge0, 0, rst, by decide⟩⟩

/-- The hypotheses of `SpindleMotion` are met. -/
theorem witness_SpindleMotion :
    (∃ (p : Fin 32) (i : BitVec 8) (t : BitVec 32) (k : Nat) (s : State), spnState s p = 4 ∧ (spnOf s p).lastStep = none ∧
      crossingStep i.toNat = some k) ∧
    (∃ (p : Fin 32) (i : BitVec 8) (t : BitVec 32) (s : State), spnState s p = 4 ∧ crossingStep i.toNat = none ∧ inWindow s p
      ((spnOf s p).fails + 1) ((t.toNat + 2 ^ 32 - (spnOf s p).lastT) % 2 ^ 32) (rdN s (SPN_ZC p)) = true) ∧
    (∃ (p : Fin 32) (s : State), (spnState s p = 4 ∨ spnState s p = 5 ∨ spnState s p = 6)) ∧
    (∃ (p : Fin 32) (s : State), driven (spnState s p) = true) ∧
    (∃ (p : Fin 32) (s : State), observerLost s p = true) ∧
    (∃ (p : Fin 32) (o : BitVec 10) (s : State), spnState s p = 11) ∧
    (∃ (p : Fin 32) (s : State), spnState s p = 1 ∧ 12 ≤ (spnOf s p).plaus ∧ fget s (SPN_LIM p) SPN_LIM_CATCH_MIN * 100 ≤
      speed s p) ∧
    (∃ (p : Fin 32) (s : State), spnState s p = 1 ∧ (spnOf s p).lastStep = none) ∧
    (∃ (p : Fin 32) (k : Nat) (s : State), spnState s p = 1 ∧ (spnOf s p).lastStep = some k) ∧
    (∃ (p : Fin 32) (s : State), spnState s p = 2) ∧
    (∃ (p : Fin 32) (s : State), spnState s p = 3 ∧ fget s (SPN_START p) SPN_START_HANDOVER * 1000000 ≤ (spnOf s p).olSpeed ∧
      12 ≤ (spnOf s p).plaus) ∧
    (∃ (p : Fin 32) (s : State), spnState s p = 3 ∧ fget s (SPN_STAT p) SPN_STAT_TRIES + 1 < max 1 (fget s (SPN_START p)
      SPN_START_START_TRIES)) ∧
    (∃ (p : Fin 32) (s : State), spnState s p = 4 ∧ 16 ≤ (spnOf s p).inTol ∧ (spnOf s p).step = none) ∧
    (∃ (p : Fin 32) (s : State), spnState s p = 8 ∧ (spnOf s p).alignNext = true) ∧
    (∃ (p : Fin 32) (s : State), spnState s p = 8 ∧ (spnOf s p).alignNext = false ∧ (spnOf s p).chopStop = false) ∧
    (∃ (p : Fin 32) (s : State), s.shelf.regenQ.head? = some p.val) ∧
    (∃ (p : Fin 32) (c : StepChange) (s : State), (spnOf (stepSwitch s p) p).step = some c ∧ c.phase = 2 ∧ spnState
      (stepSwitch s p) p = 6) ∧
    (∃ (p : Fin 32) (f : BitVec 8) (v : BitVec 16) (s : State), s.shelf.regen.contains p.val = false) ∧
    (∃ (p : Fin 32) (f : BitVec 8) (v : BitVec 16) (s : State), s.shelf.regen.contains p.val = true) ∧
    (∃ (p : Fin 32) (s : State), chopperFaulty s p = true) ∧
    (∃ (s : State), fbit s SPN_SHELF_BUS SPN_SHELF_BUS_REGEN_STOP = true ∧ s.shelf.regenQ = [] ∧ (rangeFrom 0 32).all (fun p
      => !(spnOf s p).busSeen) = true) ∧
    (∃ (p : Fin 32) (s : State), spnState s p = 9 ∧ portUp s p = true) ∧
    (∃ (p : Fin 32) (us : BitVec 32) (s : State), spnState s p = 9 ∧ portUp s p = true) :=
  ⟨⟨0, 0, 0, 2, w [(SPN_STAT 0, SPN_STAT_STATE, 4)], by decide⟩,
    ⟨0, 255, 100, wrN (w [(SPN_STAT 0, SPN_STAT_STATE, 4)]) (SPN_ZC 0) 100, by decide⟩,
    ⟨0, w [(SPN_STAT 0, SPN_STAT_STATE, 4)], by decide⟩,
    ⟨0, w [(SPN_STAT 0, SPN_STAT_STATE, 4)], by decide⟩,
    ⟨0, { w [(SPN_STAT 0, SPN_STAT_STATE, 4)] with spn := [(0, { spnOf rst 0 with fails := 255 })] }, by decide⟩,
    ⟨0, 5, w [(SPN_STAT 0, SPN_STAT_STATE, 11)], by decide⟩,
    ⟨0, wrN ({ w [(SPN_STAT 0, SPN_STAT_STATE, 1)] with spn := [(0, { spnOf rst 0 with plaus := 12 })] }) (SPN_SPEED 0) 10000000, by decide⟩,
    ⟨0, w [(SPN_STAT 0, SPN_STAT_STATE, 1)], by decide⟩,
    ⟨0, 2, { w [(SPN_STAT 0, SPN_STAT_STATE, 1)] with spn := [(0, { spnOf rst 0 with lastStep := some 2 })] }, by decide⟩,
    ⟨0, w [(SPN_STAT 0, SPN_STAT_STATE, 2)], by decide⟩,
    ⟨0, { w [(SPN_STAT 0, SPN_STAT_STATE, 3)] with spn := [(0, { spnOf rst 0 with plaus := 12, olSpeed := 100000000000000 })] }, by decide⟩,
    ⟨0, w [(SPN_STAT 0, SPN_STAT_STATE, 3), (SPN_START 0, SPN_START_START_TRIES, 3)], by decide⟩,
    ⟨0, { w [(SPN_STAT 0, SPN_STAT_STATE, 4)] with spn := [(0, { spnOf rst 0 with inTol := 16 })] }, by decide⟩,
    ⟨0, { w [(SPN_STAT 0, SPN_STAT_STATE, 8)] with spn := [(0, { spnOf rst 0 with alignNext := true })] }, by decide⟩,
    ⟨0, w [(SPN_STAT 0, SPN_STAT_STATE, 8)], by decide⟩,
    ⟨0, { w [(SPN_STAT 0, SPN_STAT_STATE, 7)] with shelf := { rst.shelf with regenQ := [0] } }, by decide⟩,
    ⟨0, ⟨2, 0, false⟩, { w [(SPN_STAT 0, SPN_STAT_STATE, 6)] with spn := [(0, { spnOf rst 0 with step := some ⟨2, 0, false⟩ })] }, by decide⟩,
    ⟨0, 0, 100, rst, by decide⟩,
    ⟨0, 0, 100, { rst with shelf := { rst.shelf with regen := [0] } }, by decide⟩,
    ⟨0, { w [(SPN_STAT 0, SPN_STAT_STATE, 5)] with spn := [(0, { spnOf rst 0 with chopFlt := true })] }, by decide⟩,
    ⟨w [(SPN_SHELF_BUS, SPN_SHELF_BUS_REGEN_STOP, 1)], by decide⟩,
    ⟨0, w [(SPN_STAT 0, SPN_STAT_STATE, 9), (TTH_LINK_STAT 0, TTH_LINK_STAT_STATE, 5)], by decide⟩,
    ⟨0, 0, w [(SPN_STAT 0, SPN_STAT_STATE, 9), (TTH_LINK_STAT 0, TTH_LINK_STAT_STATE, 5)], by decide⟩⟩

/-- The hypotheses of `AssistCommands` are met. -/
theorem witness_AssistCommands :
    (∃ (p : Fin 32) (l : Fin 8) (s : State), (spnOf s p).assistOn.contains l.val = true ∧ (spnOf s p).monLost.contains l.val =
      false) ∧
    (∃ (p : Fin 32) (t : BitVec 16) (s : State), tempValid (tempOf t) = true) ∧
    (∃ (p : Fin 32) (t : BitVec 16) (s : State), tempValid (tempOf t) = false) ∧
    (∃ (m : Master) (p : Fin 32) (q : BitVec 5) (b : BitVec 3) (s : State), qcsReach s m (AST_CALCMD p) = true ∧ fbit s
      (AST_CALCMD p) AST_CALCMD_GO = false ∧ q.toNat ≤ 23 ∧ b.toNat ≤ 5 ∧ fbit s (AST_WEAR_W2 p q.toNat) AST_WEAR_W2_RETIRED =
      false) ∧
    (∃ (p : Fin 32) (v : List (BitVec 16)) (n : BitVec 16) (s : State), fbit s (AST_CALCMD p) AST_CALCMD_GO = true) :=
  ⟨⟨0, 0, { w [(SPN_STAT 0, SPN_STAT_STATE, 5)] with spn := [(0, { spnOf rst 0 with assistOn := [0] })] }, by decide⟩,
    ⟨0, 300, rst, by decide⟩,
    ⟨0, 0x7FFF, rst, by decide⟩,
    ⟨.ridge0, 0, 3, 2, rst, by decide⟩,
    ⟨0, [], 6, w [(AST_CALCMD 0, AST_CALCMD_GO, 1)], by decide⟩⟩

/-- The hypotheses of `ZoneCommands` are met. -/
theorem witness_ZoneCommands :
    (∃ (n : BitVec 8) (z : BitVec 32) (s : State), s.zmp.jrnDue.contains (zoneKey n.toNat z.toNat) = true) ∧
    (∃ (p : Fin 32) (x : Nat × List Nat) (s : State), s.zmp.jrnBusy.find? (fun x => x.1 == p.val) = some x) ∧
    (∃ (p : Fin 32) (x : Nat × List Nat) (s : State), s.zmp.jrnBusy.find? (fun x => x.1 == p.val) = some x ∧ zoneKeys x.2 ≠
      []) ∧
    (∃ (p : Fin 32) (x : Nat × List Nat) (s : State), s.zmp.jrnBusy.find? (fun x => x.1 == p.val) = some x ∧ zoneKeys x.2 =
      []) ∧
    (∃ (t : Fin 4) (u : BitVec 12) (z r : BitVec 32) (a : RowAcc) (s : State), engineFree s t = true ∧ s.zmp.accLost.find?
      (ofRow u.toNat z.toNat r.toNat) = some a) ∧
    (∃ (m : Master) (t : Fin 4) (i : BitVec 5) (u : BitVec 12) (s : State), qcsReach s m (THT_RB_CTRL t) = true ∧ fbit s
      (THT_RB_STAT t) THT_RB_STAT_BUSY = false) ∧
    (∃ (m : Master) (t : Fin 4) (s : State), qcsReach s m (THT_RB_CTRL t) = true ∧ fbit s (THT_RB_STAT t) THT_RB_STAT_BUSY =
      true) ∧
    (∃ (t : Fin 4) (n : BitVec 31) (s : State), fbit s (THT_RB_STAT t) THT_RB_STAT_BUSY = true ∧ memberBound s (fget s
      (THT_RB_CTRL t) THT_RB_CTRL_UID) (fget s (THT_RB_CTRL t) THT_RB_CTRL_MEMBER) = false) ∧
    (∃ (t : Fin 4) (n : BitVec 31) (s : State), fbit s (THT_RB_STAT t) THT_RB_STAT_BUSY = true ∧ memberBound s (fget s
      (THT_RB_CTRL t) THT_RB_CTRL_UID) (fget s (THT_RB_CTRL t) THT_RB_CTRL_MEMBER) = true ∧ (members s (fget s (THT_RB_CTRL t)
      THT_RB_CTRL_UID)).length - (available s (members s (fget s (THT_RB_CTRL t) THT_RB_CTRL_UID))).length ≤ thatchM s (fget s
      (THT_RB_CTRL t) THT_RB_CTRL_UID) ∧ domOn s (467 + t) = true) ∧
    (∃ (p : Fin 32) (r : RelocReq) (d : Nat) (s : State), s.det.relocQ.find? (fun r => r.port == p.val) = some r ∧ fbit s
      ZMP_CTRL ZMP_CTRL_RELOC_EN = true ∧ spareNext s r.port r.q = some d) ∧
    (∃ (p : Fin 32) (r : RelocReq) (d : Nat) (s : State), s.det.relocQ.find? (fun r => r.port == p.val) = some r ∧ fbit s
      ZMP_CTRL ZMP_CTRL_RELOC_EN = false ∧ spareNext s r.port r.q = some d) ∧
    (∃ (p : Fin 32) (r : RelocReq) (s : State), s.det.relocQ.find? (fun r => r.port == p.val) = some r ∧ spareNext s r.port
      r.q = none) ∧
    (∃ (m : Master) (n : BitVec 8) (s : State), qcsReach s m (ZMP_LOC_CMD) = true ∧ (locateLba s n.toNat (rdN s ZMP_LOC_LBA_LO
      + 2 ^ 32 * (rdN s ZMP_LOC_LBA_HI % 256))).1 ≠ 0) ∧
    (∃ (m : Master) (i : BitVec 12) (s : State), qcsReach s m (ZMP_CTX_SEL) = true) ∧
    (∃ (m : Master) (s : State), accessUndefined s m ZMP_STAT = false) :=
  ⟨⟨1, 0, { rst with zmp := { rst.zmp with jrnDue := [zoneKey 1 0] } }, by decide⟩,
    ⟨0, (0, []), { rst with zmp := { rst.zmp with jrnBusy := [(0, [])] } }, by decide⟩,
    ⟨0, (0, [5]), { rst with zmp := { rst.zmp with jrnBusy := [(0, [5])] } }, by decide⟩,
    ⟨0, (0, []), { rst with zmp := { rst.zmp with jrnBusy := [(0, [])] } }, by decide⟩,
    ⟨0, 1, 2, 3, ⟨1, 2, 3, [], [], []⟩, { rst with zmp := { rst.zmp with accLost := [⟨1, 2, 3, [], [], []⟩] } }, by decide⟩,
    ⟨.ridge0, 0, 1, 2, rst, by decide⟩,
    ⟨.ridge0, 0, w [(THT_RB_STAT 0, THT_RB_STAT_BUSY, 1)], by decide⟩,
    ⟨0, 1, w [(THT_RB_STAT 0, THT_RB_STAT_BUSY, 1)], by decide⟩,
    ⟨0, 1, { w [(PWR_DOM_STAT 14, ⟨19, 1⟩, 1), (THT_RB_STAT 0, THT_RB_STAT_BUSY, 1), (THT_RB_CTRL 0, THT_RB_CTRL_UID, 1), (TRS_UNIT_LINK 1, TRS_UNIT_LINK_FIRST_CHILD, 2), (TRS_UNIT_FACE 2, TRS_UNIT_FACE_KIND, 3), (TRS_UNIT_FACE 2, TRS_UNIT_FACE_STATE, 3)] with trs := { rst.trs with bound := [0], run := { rst.trs.run with units := [⟨2, 1, 3, 0, 0, 0, 0, false, 0⟩] } } }, by decide⟩,
    ⟨0, ⟨0, 1, 0, 0, false, 1, 0⟩, 0, { w [(ZMP_CTRL, ZMP_CTRL_RELOC_EN, 1)] with det := { rst.det with relocQ := [⟨0, 1, 0, 0, false, 1, 0⟩] }, zmp := { rst.zmp with maps := [(1, ⟨[], 1, 2⟩)] } }, by decide +kernel⟩,
    ⟨0, ⟨0, 1, 0, 0, false, 1, 0⟩, 0, { w [(ZMP_CTRL, ZMP_CTRL_RELOC_EN, 0)] with det := { rst.det with relocQ := [⟨0, 1, 0, 0, false, 1, 0⟩] }, zmp := { rst.zmp with maps := [(1, ⟨[], 1, 2⟩)] } }, by decide +kernel⟩,
    ⟨0, ⟨0, 1, 0, 0, false, 1, 0⟩, { rst with det := { rst.det with relocQ := [⟨0, 1, 0, 0, false, 1, 0⟩] } }, by decide +kernel⟩,
    ⟨.ridge0, 1, rst, by decide⟩,
    ⟨.ridge0, 3, rst, by decide⟩,
    ⟨.ridge0, rst, by decide⟩⟩

/-- The hypotheses of `HostLinks` are met. -/
theorem witness_HostLinks :
    (∃ (x : HPort) (s : State), portExists (syncCntlidB (fsetb s HIF_MODE HIF_MODE_BIFUR true)) (portId x) = true) ∧
    (∃ (x : HPort) (v : BitVec 3) (n : BitVec 6) (s : State), 3 ≤ v.toNat ∧ v.toNat ≤ 5 ∧ 1 ≤ n.toNat ∧ n.toNat ≤ 8 ∧
      portExists s (portId x) = true ∧ (ctl s (portId x)).perst = false) ∧
    (∃ (x : HPort) (s : State), fbit s (HIF_PORT_STAT (portId x)) HIF_PORT_STAT_LINK_UP = true) ∧
    (∃ (x : HPort) (s : State), portExists s (portId x) = true) ∧
    (∃ (x : HPort) (s : State), (ctl s (portId x)).enabled = true) ∧
    (∃ (x : HPort) (s : State), portExists s (portId x) = true ∧ fbit s (HIF_PORT_STAT (portId x)) HIF_PORT_STAT_LINK_UP =
      true ∧ (ctl s (portId x)).enabled = false) :=
  ⟨⟨.a, rst, by decide⟩,
    ⟨.a, 5, 8, { rst with host := { rst.host with ctlA := { rst.host.ctlA with ready := true, perst := false } } }, by decide⟩,
    ⟨.a, w [(HIF_PORT_STAT 0, HIF_PORT_STAT_LINK_UP, 1)], by decide⟩,
    ⟨.a, rst, by decide⟩,
    ⟨.a, { rst with host := { rst.host with ctlA := { rst.host.ctlA with ready := true, enabled := true } } }, by decide⟩,
    ⟨.a, w [(HIF_PORT_STAT 0, HIF_PORT_STAT_LINK_UP, 1)], by decide⟩⟩

/-- The hypotheses of `HostFlow` are met. -/
theorem witness_HostFlow :
    (∃ (x : HPort) (n v : BitVec 16) (q : Nat × Sq) (s : State), portExists s (portId x) = true ∧ (ctl s (portId x)).ready =
      true ∧ (ctl s (portId x)).sqs.find? (fun q => q.1 == n.toNat) = some q ∧ steered (setCtl s (portId x) fun c =>
      { c with sqs := tabPut c.sqs q.1 { q.2 with tail := v.toNat % max 1 q.2.size } }) (portId x) n.toNat = none) ∧
    (∃ (x : HPort) (n : BitVec 16) (e : SqEntry) (q : Nat × Sq) (s : State), portExists s (portId x) = true ∧ (ctl s (portId
      x)).ready = true ∧ (ctl s (portId x)).sqs.find? (fun q => q.1 == n.toNat) = some q ∧ q.2.head ≠ q.2.tail ∧ fetchRuns s =
      true ∧ fget s HIF_CTRL HIF_CTRL_FETCH_EN / 2 ^ portId x % 2 = 1 ∧ cmdSlotFree s (portId x) = true) ∧
    (∃ (c : Cmd) (s : State), (ledgerWaiters s).head? = some c ∧ admitsAll s (writeBacksAhead s c.order ++ [writeExt s c]) =
      true) ∧
    (∃ (c : Cmd) (s : State), (ledgerWaiters s).head? = some c ∧ admitsAll s (writeBacksAhead s c.order ++ [writeExt s c]) =
      false) ∧
    (∃ (x : HPort) (q i : BitVec 16) (d : List Nat) (c : Cmd) (s : State), findCmd s (portId x) q.toNat i.toNat = some c ∧
      (c.opc = 0x01 ∨ c.opc = 0x7D) ∧ c.admitted = true ∧ c.xfer = false ∧ c.fail = none ∧ d.length = c.len) ∧
    (∃ (x : HPort) (q i : BitVec 16) (c : Cmd) (s : State), findCmd s (portId x) q.toNat i.toNat = some c ∧ isWrite c = true ∧
      c.admitted = true ∧ c.xfer = false ∧ c.fail = none) ∧
    (∃ (x : HPort) (q i : BitVec 16) (c : Cmd) (s : State), findCmd s (portId x) q.toNat i.toNat = some c ∧ isWrite c = true ∧
      c.admitted = true ∧ c.xfer = false ∧ c.fail = none) ∧
    (∃ (x : HPort) (q i : BitVec 16) (c : Cmd) (s : State), findCmd s (portId x) q.toNat i.toNat = some c ∧ isWrite c = true ∧
      c.xfer = true ∧ mirrorOn s = true) ∧
    (∃ (x : HPort) (q i : BitVec 16) (c : Cmd) (r : Nat × Cq) (s : State), findCmd s (portId x) q.toNat i.toNat = some c ∧
      cqRoom s c.port c.sq = some r ∧ c.fail = none ∧ c.started = true ∧ commitMet s c = true ∧ isWrite c = false) ∧
    (∃ (x : HPort) (q i : BitVec 16) (c : Cmd) (r : Nat × Cq) (f : Nat × Nat) (s : State), findCmd s (portId x) q.toNat
      i.toNat = some c ∧ cqRoom s c.port c.sq = some r ∧ c.fail = some f) :=
  ⟨⟨.a, 1, 3, (1, ⟨8, 1, 0, 0, 0⟩), { rst with host := { rst.host with ctlA := { rst.host.ctlA with ready := true, sqs := [(1, ⟨8, 1, 0, 0, 0⟩)] } } }, by decide⟩,
    ⟨.a, 1, ⟨7, 2, 1, 0, 0, false, 0, false⟩, (1, ⟨8, 1, 1, 0, 0⟩), { w [(HIF_CTRL, HIF_CTRL_FETCH_EN, 3), (PWR_MODE, PWR_MODE_MODE, 3)] with host := { rst.host with ctlA := { rst.host.ctlA with ready := true, sqs := [(1, ⟨8, 1, 1, 0, 0⟩)] } } }, by decide⟩,
    ⟨⟨0, 1, 7, 1, 1, 0, 1, false, 0, false, 0, 0, true, false, [], false, false, false, none, false, false, false, []⟩, { w [(BAL_STAT, BAL_STAT_NW, 1), (BAL_VMAX, ⟨0, 32⟩, 100)] with host := { rst.host with ctlA := { rst.host.ctlA with ready := true }, cmds := [⟨0, 1, 7, 1, 1, 0, 1, false, 0, false, 0, 0, true, false, [], false, false, false, none, false, false, false, []⟩] } }, by decide⟩,
    ⟨⟨0, 1, 7, 1, 1, 0, 1, false, 0, false, 0, 0, true, false, [], false, false, false, none, false, false, false, []⟩, { rst with host := { rst.host with ctlA := { rst.host.ctlA with ready := true }, cmds := [⟨0, 1, 7, 1, 1, 0, 1, false, 0, false, 0, 0, true, false, [], false, false, false, none, false, false, false, []⟩] } }, by decide⟩,
    ⟨.a, 1, 7, [5], ⟨0, 1, 7, 1, 1, 0, 1, false, 0, false, 0, 0, true, true, [], false, false, false, none, false, false, false, []⟩, { rst with host := { rst.host with ctlA := { rst.host.ctlA with ready := true }, cmds := [⟨0, 1, 7, 1, 1, 0, 1, false, 0, false, 0, 0, true, true, [], false, false, false, none, false, false, false, []⟩] } }, by decide⟩,
    ⟨.a, 1, 7, ⟨0, 1, 7, 1, 1, 0, 1, false, 0, false, 0, 0, true, true, [], false, false, false, none, false, false, false, []⟩, { rst with host := { rst.host with ctlA := { rst.host.ctlA with ready := true }, cmds := [⟨0, 1, 7, 1, 1, 0, 1, false, 0, false, 0, 0, true, true, [], false, false, false, none, false, false, false, []⟩] } }, by decide⟩,
    ⟨.a, 1, 7, ⟨0, 1, 7, 1, 1, 0, 1, false, 0, false, 0, 0, true, true, [], false, false, false, none, false, false, false, []⟩, { rst with host := { rst.host with ctlA := { rst.host.ctlA with ready := true }, cmds := [⟨0, 1, 7, 1, 1, 0, 1, false, 0, false, 0, 0, true, true, [], false, false, false, none, false, false, false, []⟩] } }, by decide⟩,
    ⟨.a, 1, 7, ⟨0, 1, 7, 1, 1, 0, 1, false, 0, false, 0, 0, true, true, [], true, false, false, none, false, false, false, []⟩, { w [(PRT_STAT, PRT_STAT_ROLE, 1), (PRT_STAT, PRT_STAT_PARTNER_ROLE, 2), (PRT_STAT, PRT_STAT_PARTNER, 1), (PRT_CTRL, PRT_CTRL_MIRROR_EN, 1)] with host := { rst.host with ctlA := { rst.host.ctlA with ready := true }, cmds := [⟨0, 1, 7, 1, 1, 0, 1, false, 0, false, 0, 0, true, true, [], true, false, false, none, false, false, false, []⟩] } }, by decide⟩,
    ⟨.a, 1, 7, ⟨0, 1, 7, 2, 1, 0, 1, false, 0, false, 0, 0, true, true, [], true, false, false, none, false, false, false, []⟩, (1, ⟨8, 0, 0, 0, true⟩), { rst with host := { rst.host with ctlA := { rst.host.ctlA with ready := true, sqs := [(1, ⟨8, 1, 0, 0, 0⟩)], cqs := [(1, ⟨8, 0, 0, 0, true⟩)] }, cmds := [⟨0, 1, 7, 2, 1, 0, 1, false, 0, false, 0, 0, true, true, [], true, false, false, none, false, false, false, []⟩] } }, by decide⟩,
    ⟨.a, 1, 7, { (⟨0, 1, 7, 2, 1, 0, 1, false, 0, false, 0, 0, true, true, [], true, false, false, none, false, false, false, []⟩ : Cmd) with fail := some (0, 4) }, (1, ⟨8, 0, 0, 0, true⟩), (0, 4), { rst with host := { rst.host with ctlA := { rst.host.ctlA with ready := true, sqs := [(1, ⟨8, 1, 0, 0, 0⟩)], cqs := [(1, ⟨8, 0, 0, 0, true⟩)] }, cmds := [{ (⟨0, 1, 7, 2, 1, 0, 1, false, 0, false, 0, 0, true, true, [], true, false, false, none, false, false, false, []⟩ : Cmd) with fail := some (0, 4) }] } }, by decide⟩⟩

/-- The hypotheses of `IoReadsAndWrites` are met. -/
theorem witness_IoReadsAndWrites :
    (∃ (x : HPort) (q i : BitVec 16) (c : Cmd) (s : State), Due s x q i 0x01 c = true ∧ writeRefuses s c = none ∧ nsZoned s
      c.nsid = false) ∧
    (∃ (x : HPort) (q i : BitVec 16) (c : Cmd) (s : State), Due s x q i 0x01 c = true ∧ writeRefuses s c = none ∧ nsZoned s
      c.nsid = true ∧ (getZone s c.nsid (cmdZone s c)).zstate = 2) ∧
    (∃ (x : HPort) (q i : BitVec 16) (c : Cmd) (f : Nat × Nat) (s : State), Due s x q i 0x01 c = true ∧ writeRefuses s c =
      some f) ∧
    (∃ (x : HPort) (q i : BitVec 16) (c : Cmd) (s : State), Due s x q i 0x08 c = true ∧ writeRefuses s c = none ∧ nsZoned s
      c.nsid = false) ∧
    (∃ (x : HPort) (q i : BitVec 16) (c : Cmd) (s : State), Due s x q i 0x7D c = true ∧ writeRefuses s c = none ∧ nsZoned s
      c.nsid = true ∧ (getZone s c.nsid (cmdZone s c)).zstate = 2) ∧
    (∃ (x : HPort) (q i : BitVec 16) (l : List MemErr) (c : Cmd) (s : State), Due s x q i 0x02 c = true ∧ rangeRefuses s c =
      none ∧ nsZoned s c.nsid = false ∧ overlapsEarlier s c = false ∧ (rangeFrom 0 c.len).all (fun i => !fromMedia (forAll
      (rangeFrom 0 c.len) (foundErrors s l) fun s i => cachePoison s c.nsid (c.slba + i)) c i || mediaReady (forAll (rangeFrom
      0 c.len) (foundErrors s l) fun s i => cachePoison s c.nsid (c.slba + i)) c i) = true) ∧
    (∃ (x : HPort) (q i : BitVec 16) (l : List MemErr) (c : Cmd) (s : State), Due s x q i 0x0C c = true ∧ rangeRefuses s c =
      none ∧ nsZoned s c.nsid = false ∧ overlapsEarlier s c = false ∧ (rangeFrom 0 c.len).all (fun i => !fromMedia (forAll
      (rangeFrom 0 c.len) (foundErrors s l) fun s i => cachePoison s c.nsid (c.slba + i)) c i || mediaReady (forAll (rangeFrom
      0 c.len) (foundErrors s l) fun s i => cachePoison s c.nsid (c.slba + i)) c i) = true) ∧
    (∃ (x : HPort) (q i : BitVec 16) (l : List MemErr) (c : Cmd) (f : Nat × Nat) (s : State), Due s x q i 0x02 c = true ∧
      rangeRefuses s c = some f) ∧
    (∃ (x : HPort) (q i : BitVec 16) (c : Cmd) (s : State), Due s x q i 0x00 c = true) :=
  ⟨⟨.a, 1, 7, ⟨0, 1, 7, 0x01, 1, 0, 1, false, 0, false, 0, 0, false, false, [], false, false, false, none, false, false, false, []⟩, { w [(TRS_UNIT_FACE 3, TRS_UNIT_FACE_KIND, 0), (TRS_UNIT_FACE 3, TRS_UNIT_FACE_STATE, 3), (TRS_UNIT_CAP 3, ⟨0, 32⟩, 4)] with host := { rst.host with ctlA := { rst.host.ctlA with ready := true }, cmds := [⟨0, 1, 7, 0x01, 1, 0, 1, false, 0, false, 0, 0, false, false, [], false, false, false, none, false, false, false, []⟩] }, trs := { rst.trs with run := { rst.trs.run with binds := [⟨1, 1, 3, 0, 3, 1⟩] } } }, by decide +kernel⟩,
    ⟨.a, 1, 7, ⟨0, 1, 7, 0x01, 1, 0, 1, false, 0, false, 0, 0, false, false, [], false, false, false, none, false, false, false, []⟩, { w [(TRS_UNIT_FACE 3, TRS_UNIT_FACE_KIND, 0), (TRS_UNIT_FACE 3, TRS_UNIT_FACE_STATE, 3), (TRS_UNIT_CAP 3, ⟨0, 32⟩, 4)] with host := { rst.host with ctlA := { rst.host.ctlA with ready := true }, cmds := [⟨0, 1, 7, 0x01, 1, 0, 1, false, 0, false, 0, 0, false, false, [], false, false, false, none, false, false, false, []⟩] }, trs := { rst.trs with run := { rst.trs.run with binds := [⟨1, 0, 3, 0, 3, 1⟩] } }, zmp := { rst.zmp with zones := [(zoneKey 1 0, ⟨2, 0, 0, 0, 0, false⟩)] } }, by decide +kernel⟩,
    ⟨.a, 1, 7, ⟨0, 1, 7, 0x01, 1, 0, 1, false, 0, false, 0, 0, false, false, [], false, false, false, none, false, false, false, []⟩, (1, 0xB9), { w [(TRS_UNIT_FACE 3, TRS_UNIT_FACE_KIND, 0), (TRS_UNIT_FACE 3, TRS_UNIT_FACE_STATE, 3), (TRS_UNIT_CAP 3, ⟨0, 32⟩, 4)] with host := { rst.host with ctlA := { rst.host.ctlA with ready := true }, cmds := [⟨0, 1, 7, 0x01, 1, 0, 1, false, 0, false, 0, 0, false, false, [], false, false, false, none, false, false, false, []⟩] }, trs := { rst.trs with run := { rst.trs.run with binds := [⟨1, 0, 3, 0, 3, 1⟩] } }, zmp := { rst.zmp with zones := [(zoneKey 1 0, ⟨0xE, 0, 0, 0, 0, false⟩)] } }, by decide +kernel⟩,
    ⟨.a, 1, 7, ⟨0, 1, 7, 0x08, 1, 0, 1, false, 0, false, 0, 0, false, false, [], false, false, false, none, false, false, false, []⟩, { w [(TRS_UNIT_FACE 3, TRS_UNIT_FACE_KIND, 0), (TRS_UNIT_FACE 3, TRS_UNIT_FACE_STATE, 3), (TRS_UNIT_CAP 3, ⟨0, 32⟩, 4)] with host := { rst.host with ctlA := { rst.host.ctlA with ready := true }, cmds := [⟨0, 1, 7, 0x08, 1, 0, 1, false, 0, false, 0, 0, false, false, [], false, false, false, none, false, false, false, []⟩] }, trs := { rst.trs with run := { rst.trs.run with binds := [⟨1, 1, 3, 0, 3, 1⟩] } } }, by decide +kernel⟩,
    ⟨.a, 1, 7, ⟨0, 1, 7, 0x7D, 1, 0, 1, false, 0, false, 0, 0, false, false, [], false, false, false, none, false, false, false, []⟩, { w [(TRS_UNIT_FACE 3, TRS_UNIT_FACE_KIND, 0), (TRS_UNIT_FACE 3, TRS_UNIT_FACE_STATE, 3), (TRS_UNIT_CAP 3, ⟨0, 32⟩, 4)] with host := { rst.host with ctlA := { rst.host.ctlA with ready := true }, cmds := [⟨0, 1, 7, 0x7D, 1, 0, 1, false, 0, false, 0, 0, false, false, [], false, false, false, none, false, false, false, []⟩] }, trs := { rst.trs with run := { rst.trs.run with binds := [⟨1, 0, 3, 0, 3, 1⟩] } }, zmp := { rst.zmp with zones := [(zoneKey 1 0, ⟨2, 0, 0, 0, 0, false⟩)] } }, by decide +kernel⟩,
    ⟨.a, 1, 7, [], ⟨0, 1, 7, 0x02, 1, 0, 1, false, 0, false, 0, 0, false, false, [], false, false, false, none, false, false, false, []⟩, { w [(TRS_UNIT_FACE 3, TRS_UNIT_FACE_KIND, 0), (TRS_UNIT_FACE 3, TRS_UNIT_FACE_STATE, 3), (TRS_UNIT_CAP 3, ⟨0, 32⟩, 4)] with host := { rst.host with ctlA := { rst.host.ctlA with ready := true }, cmds := [⟨0, 1, 7, 0x02, 1, 0, 1, false, 0, false, 0, 0, false, false, [], false, false, false, none, false, false, false, []⟩] }, trs := { rst.trs with run := { rst.trs.run with binds := [⟨1, 1, 3, 0, 3, 1⟩] } } }, by decide +kernel⟩,
    ⟨.a, 1, 7, [], ⟨0, 1, 7, 0x0C, 1, 0, 1, false, 0, false, 0, 0, false, false, [], false, false, false, none, false, false, false, []⟩, { w [(TRS_UNIT_FACE 3, TRS_UNIT_FACE_KIND, 0), (TRS_UNIT_FACE 3, TRS_UNIT_FACE_STATE, 3), (TRS_UNIT_CAP 3, ⟨0, 32⟩, 4)] with host := { rst.host with ctlA := { rst.host.ctlA with ready := true }, cmds := [⟨0, 1, 7, 0x0C, 1, 0, 1, false, 0, false, 0, 0, false, false, [], false, false, false, none, false, false, false, []⟩] }, trs := { rst.trs with run := { rst.trs.run with binds := [⟨1, 1, 3, 0, 3, 1⟩] } } }, by decide +kernel⟩,
    ⟨.a, 1, 7, [], ⟨0, 1, 7, 0x02, 1, 0, 300, false, 0, false, 0, 0, false, false, [], false, false, false, none, false, false, false, []⟩, (0, 0x80), { w [(TRS_UNIT_FACE 3, TRS_UNIT_FACE_KIND, 0), (TRS_UNIT_FACE 3, TRS_UNIT_FACE_STATE, 3), (TRS_UNIT_CAP 3, ⟨0, 32⟩, 4)] with host := { rst.host with ctlA := { rst.host.ctlA with ready := true }, cmds := [⟨0, 1, 7, 0x02, 1, 0, 300, false, 0, false, 0, 0, false, false, [], false, false, false, none, false, false, false, []⟩] }, trs := { rst.trs with run := { rst.trs.run with binds := [⟨1, 1, 3, 0, 3, 1⟩] } } }, by decide +kernel⟩,
    ⟨.a, 1, 7, ⟨0, 1, 7, 0x00, 1, 0, 1, false, 0, false, 0, 0, false, false, [], false, false, false, none, false, false, false, []⟩, { w [(TRS_UNIT_FACE 3, TRS_UNIT_FACE_KIND, 0), (TRS_UNIT_FACE 3, TRS_UNIT_FACE_STATE, 3), (TRS_UNIT_CAP 3, ⟨0, 32⟩, 4)] with host := { rst.host with ctlA := { rst.host.ctlA with ready := true }, cmds := [⟨0, 1, 7, 0x00, 1, 0, 1, false, 0, false, 0, 0, false, false, [], false, false, false, none, false, false, false, []⟩] }, trs := { rst.trs with run := { rst.trs.run with binds := [⟨1, 1, 3, 0, 3, 1⟩] } } }, by decide +kernel⟩⟩

/-- The hypotheses of `ZoneManagement` are met. -/
theorem witness_ZoneManagement :
    (∃ (x : HPort) (q i : BitVec 16) (c : Cmd) (s : State), Due s x q i 0x79 c = true ∧ findCmd s (portId x) q.toNat i.toNat =
      some c ∧ c.zsa = 3 ∧ nsZoned s c.nsid = true ∧ c.all = false ∧ c.slba < nsLbas s c.nsid ∧ c.slba % nsZl s c.nsid = 0 ∧
      zmsHeld s c (cmdZone s c) = false ∧ (getZone s c.nsid (cmdZone s c)).zstate = 3 ∧ (nsUnit s c.nsid).map (uState s) ≠
      some 6) ∧
    (∃ (x : HPort) (q i : BitVec 16) (c : Cmd) (s : State), Due s x q i 0x79 c = true ∧ findCmd s (portId x) q.toNat i.toNat =
      some c ∧ c.zsa = 1 ∧ nsZoned s c.nsid = true ∧ c.all = false ∧ c.slba < nsLbas s c.nsid ∧ c.slba % nsZl s c.nsid = 0 ∧
      zmsHeld s c (cmdZone s c) = false ∧ zActive (getZone s c.nsid (cmdZone s c)).zstate = true) ∧
    (∃ (x : HPort) (q i : BitVec 16) (c : Cmd) (s : State), Due s x q i 0x79 c = true ∧ findCmd s (portId x) q.toNat i.toNat =
      some c ∧ c.zsa = 2 ∧ nsZoned s c.nsid = true ∧ c.all = false ∧ c.slba < nsLbas s c.nsid ∧ c.slba % nsZl s c.nsid = 0 ∧
      zmsHeld s c (cmdZone s c) = false ∧ zActive (getZone s c.nsid (cmdZone s c)).zstate = true) ∧
    (∃ (x : HPort) (q i : BitVec 16) (c : Cmd) (s : State), Due s x q i 0x79 c = true ∧ findCmd s (portId x) q.toNat i.toNat =
      some c ∧ c.zsa = 4 ∧ nsZoned s c.nsid = true ∧ c.all = false ∧ c.slba < nsLbas s c.nsid ∧ c.slba % nsZl s c.nsid = 0 ∧
      zmsHeld s c (cmdZone s c) = false ∧ zActive (getZone s c.nsid (cmdZone s c)).zstate = true) ∧
    (∃ (x : HPort) (q i : BitVec 16) (c : Cmd) (s : State), Due s x q i 0x79 c = true ∧ findCmd s (portId x) q.toNat i.toNat =
      some c ∧ c.zsa = 5 ∧ nsZoned s c.nsid = true ∧ c.all = false ∧ c.slba < nsLbas s c.nsid ∧ c.slba % nsZl s c.nsid = 0 ∧
      zmsHeld s c (cmdZone s c) = false ∧ (getZone s c.nsid (cmdZone s c)).zstate = 0xD) ∧
    (∃ (x : HPort) (q i : BitVec 16) (c : Cmd) (s : State), findCmd s (portId x) q.toNat i.toNat = some c ∧ c.opc = 0x79 ∧
      c.zsa = 0x10 ∧ c.started = false) ∧
    (∃ (x : HPort) (q i : BitVec 16) (c : Cmd) (s : State), findCmd s (portId x) q.toNat i.toNat = some c ∧ c.opc = 0x7A ∧
      c.zsa = 1 ∧ c.started = false) ∧
    (∃ (x : HPort) (q i : BitVec 16) (o : BitVec 8) (c : Cmd) (s : State), Due s x q i 0x7A c = true ∧ c.zsa = 0 ∧ nsZoned s
      c.nsid = true ∧ c.slba < nsLbas s c.nsid) ∧
    (∃ (x : HPort) (i : BitVec 16) (o l : BitVec 8) (s : State), portExists s (portId x) = true ∧ (ctl s (portId x)).ready =
      true ∧ o ≠ 0x02 ∧ adminOpcodes.contains o.toNat = false) :=
  ⟨⟨.a, 1, 7, ⟨0, 1, 7, 0x79, 1, 0, 1, false, 3, false, 0, 0, false, false, [], false, false, false, none, false, false, false, []⟩, { w [(TRS_UNIT_FACE 3, TRS_UNIT_FACE_KIND, 0), (TRS_UNIT_FACE 3, TRS_UNIT_FACE_STATE, 3), (TRS_UNIT_CAP 3, ⟨0, 32⟩, 4)] with host := { rst.host with ctlA := { rst.host.ctlA with ready := true }, cmds := [⟨0, 1, 7, 0x79, 1, 0, 1, false, 3, false, 0, 0, false, false, [], false, false, false, none, false, false, false, []⟩] }, trs := { rst.trs with run := { rst.trs.run with binds := [⟨1, 0, 3, 0, 3, 1⟩] } }, zmp := { rst.zmp with zones := [(zoneKey 1 0, ⟨3, 0, 0, 0, 0, false⟩)] } }, by decide +kernel⟩,
    ⟨.a, 1, 7, ⟨0, 1, 7, 0x79, 1, 0, 1, false, 1, false, 0, 0, false, false, [], false, false, false, none, false, false, false, []⟩, { w [(TRS_UNIT_FACE 3, TRS_UNIT_FACE_KIND, 0), (TRS_UNIT_FACE 3, TRS_UNIT_FACE_STATE, 3), (TRS_UNIT_CAP 3, ⟨0, 32⟩, 4)] with host := { rst.host with ctlA := { rst.host.ctlA with ready := true }, cmds := [⟨0, 1, 7, 0x79, 1, 0, 1, false, 1, false, 0, 0, false, false, [], false, false, false, none, false, false, false, []⟩] }, trs := { rst.trs with run := { rst.trs.run with binds := [⟨1, 0, 3, 0, 3, 1⟩] } }, zmp := { rst.zmp with zones := [(zoneKey 1 0, ⟨3, 0, 0, 0, 0, false⟩)] } }, by decide +kernel⟩,
    ⟨.a, 1, 7, ⟨0, 1, 7, 0x79, 1, 0, 1, false, 2, false, 0, 0, false, false, [], false, false, false, none, false, false, false, []⟩, { w [(TRS_UNIT_FACE 3, TRS_UNIT_FACE_KIND, 0), (TRS_UNIT_FACE 3, TRS_UNIT_FACE_STATE, 3), (TRS_UNIT_CAP 3, ⟨0, 32⟩, 4)] with host := { rst.host with ctlA := { rst.host.ctlA with ready := true }, cmds := [⟨0, 1, 7, 0x79, 1, 0, 1, false, 2, false, 0, 0, false, false, [], false, false, false, none, false, false, false, []⟩] }, trs := { rst.trs with run := { rst.trs.run with binds := [⟨1, 0, 3, 0, 3, 1⟩] } }, zmp := { rst.zmp with zones := [(zoneKey 1 0, ⟨3, 0, 0, 0, 0, false⟩)] } }, by decide +kernel⟩,
    ⟨.a, 1, 7, ⟨0, 1, 7, 0x79, 1, 0, 1, false, 4, false, 0, 0, false, false, [], false, false, false, none, false, false, false, []⟩, { w [(TRS_UNIT_FACE 3, TRS_UNIT_FACE_KIND, 0), (TRS_UNIT_FACE 3, TRS_UNIT_FACE_STATE, 3), (TRS_UNIT_CAP 3, ⟨0, 32⟩, 4)] with host := { rst.host with ctlA := { rst.host.ctlA with ready := true }, cmds := [⟨0, 1, 7, 0x79, 1, 0, 1, false, 4, false, 0, 0, false, false, [], false, false, false, none, false, false, false, []⟩] }, trs := { rst.trs with run := { rst.trs.run with binds := [⟨1, 0, 3, 0, 3, 1⟩] } }, zmp := { rst.zmp with zones := [(zoneKey 1 0, ⟨3, 0, 0, 0, 0, false⟩)] } }, by decide +kernel⟩,
    ⟨.a, 1, 7, ⟨0, 1, 7, 0x79, 1, 0, 1, false, 5, false, 0, 0, false, false, [], false, false, false, none, false, false, false, []⟩, { w [(TRS_UNIT_FACE 3, TRS_UNIT_FACE_KIND, 0), (TRS_UNIT_FACE 3, TRS_UNIT_FACE_STATE, 3), (TRS_UNIT_CAP 3, ⟨0, 32⟩, 4)] with host := { rst.host with ctlA := { rst.host.ctlA with ready := true }, cmds := [⟨0, 1, 7, 0x79, 1, 0, 1, false, 5, false, 0, 0, false, false, [], false, false, false, none, false, false, false, []⟩] }, trs := { rst.trs with run := { rst.trs.run with binds := [⟨1, 0, 3, 0, 3, 1⟩] } }, zmp := { rst.zmp with zones := [(zoneKey 1 0, ⟨0xD, 0, 0, 0, 0, false⟩)] } }, by decide +kernel⟩,
    ⟨.a, 1, 7, ⟨0, 1, 7, 0x79, 1, 0, 1, false, 16, false, 0, 0, false, false, [], false, false, false, none, false, false, false, []⟩, { w [(TRS_UNIT_FACE 3, TRS_UNIT_FACE_KIND, 0), (TRS_UNIT_FACE 3, TRS_UNIT_FACE_STATE, 3), (TRS_UNIT_CAP 3, ⟨0, 32⟩, 4)] with host := { rst.host with ctlA := { rst.host.ctlA with ready := true }, cmds := [⟨0, 1, 7, 0x79, 1, 0, 1, false, 16, false, 0, 0, false, false, [], false, false, false, none, false, false, false, []⟩] }, trs := { rst.trs with run := { rst.trs.run with binds := [⟨1, 0, 3, 0, 3, 1⟩] } } }, by decide +kernel⟩,
    ⟨.a, 1, 7, ⟨0, 1, 7, 0x7A, 1, 0, 1, false, 1, false, 0, 0, false, false, [], false, false, false, none, false, false, false, []⟩, { w [(TRS_UNIT_FACE 3, TRS_UNIT_FACE_KIND, 0), (TRS_UNIT_FACE 3, TRS_UNIT_FACE_STATE, 3), (TRS_UNIT_CAP 3, ⟨0, 32⟩, 4)] with host := { rst.host with ctlA := { rst.host.ctlA with ready := true }, cmds := [⟨0, 1, 7, 0x7A, 1, 0, 1, false, 1, false, 0, 0, false, false, [], false, false, false, none, false, false, false, []⟩] }, trs := { rst.trs with run := { rst.trs.run with binds := [⟨1, 0, 3, 0, 3, 1⟩] } } }, by decide +kernel⟩,
    ⟨.a, 1, 7, 0, ⟨0, 1, 7, 0x7A, 1, 0, 1, false, 0, false, 0, 0, false, false, [], false, false, false, none, false, false, false, []⟩, { w [(TRS_UNIT_FACE 3, TRS_UNIT_FACE_KIND, 0), (TRS_UNIT_FACE 3, TRS_UNIT_FACE_STATE, 3), (TRS_UNIT_CAP 3, ⟨0, 32⟩, 4)] with host := { rst.host with ctlA := { rst.host.ctlA with ready := true }, cmds := [⟨0, 1, 7, 0x7A, 1, 0, 1, false, 0, false, 0, 0, false, false, [], false, false, false, none, false, false, false, []⟩] }, trs := { rst.trs with run := { rst.trs.run with binds := [⟨1, 0, 3, 0, 3, 1⟩] } } }, by decide +kernel⟩,
    ⟨.a, 3, 0x5F, 0, { rst with host := { rst.host with ctlA := { rst.host.ctlA with ready := true } } }, by decide⟩⟩

/-- The hypotheses of `QueueCommands` are met. -/
theorem witness_QueueCommands :
    (∃ (x : HPort) (i q n c : BitVec 16) (p : BitVec 2) (s : State), portExists s (portId x) = true ∧ (ctl s (portId x)).ready
      = true ∧ qidOk q.toNat = true ∧ (ctl s (portId x)).sqs.any (fun y => y.1 == q.toNat) = false ∧ n ≠ 0 ∧ (ctl s (portId
      x)).cqs.any (fun y => y.1 == c.toNat) = true) ∧
    (∃ (x : HPort) (i q n c : BitVec 16) (p : BitVec 2) (b : Bool) (s : State), portExists s (portId x) = true ∧ (ctl s
      (portId x)).ready = true ∧ (ctl s (portId x)).sqs.any (fun y => y.1 == q.toNat) = true) ∧
    (∃ (x : HPort) (i q : BitVec 16) (s : State), portExists s (portId x) = true ∧ (ctl s (portId x)).ready = true ∧ (ctl s
      (portId x)).sqs.any (fun y => y.1 == q.toNat) = true) ∧
    (∃ (x : HPort) (i q n v : BitVec 16) (e : Bool) (s : State), portExists s (portId x) = true ∧ (ctl s (portId x)).ready =
      true ∧ qidOk q.toNat = true ∧ (ctl s (portId x)).cqs.any (fun y => y.1 == q.toNat) = false ∧ n ≠ 0 ∧ v.toNat < 2048) ∧
    (∃ (x : HPort) (i q : BitVec 16) (s : State), portExists s (portId x) = true ∧ (ctl s (portId x)).ready = true ∧ (ctl s
      (portId x)).cqs.any (fun y => y.1 == q.toNat) = true ∧ (ctl s (portId x)).sqs.any (fun y => y.2.cq == q.toNat) = false) ∧
    (∃ (x : HPort) (i : BitVec 16) (n : BitVec 32) (s : State), portExists s (portId x) = true ∧ (ctl s (portId x)).ready =
      true) ∧
    (∃ (x : HPort) (i : BitVec 16) (n : BitVec 32) (s : State), portExists s (portId x) = true ∧ (ctl s (portId x)).ready =
      true ∧ attached s (portId x) n.toNat = false) ∧
    (∃ (x : HPort) (i q j : BitVec 16) (n : BitVec 4) (s : State), portExists s (portId x) = true ∧ (ctl s (portId x)).ready =
      true ∧ n.toNat < 8 ∧ q ≠ 0 ∧ findCmd s (portId x) q.toNat j.toNat = none) ∧
    (∃ (x : HPort) (i q j : BitVec 16) (n : BitVec 4) (c : Cmd) (s : State), portExists s (portId x) = true ∧ (ctl s (portId
      x)).ready = true ∧ n.toNat < 8 ∧ q ≠ 0 ∧ findCmd s (portId x) q.toNat j.toNat = some c ∧ c.fail = none) ∧
    (∃ (x : HPort) (i : BitVec 16) (s : State), portExists s (portId x) = true ∧ (ctl s (portId x)).ready = true ∧
      s.evt.held.find? (fun r => r.1 == portId x && (r.2.1 != 7 || fbit s EVT_CTRL EVT_CTRL_EN)) = none ∧ (s.evt.aers.filter
      fun r => r.1 == portId x).length < 16) ∧
    (∃ (x : HPort) (i : BitVec 16) (r : Nat × Nat × Nat × Nat) (s : State), portExists s (portId x) = true ∧ (ctl s (portId
      x)).ready = true ∧ s.evt.held.find? (fun r => r.1 == portId x && (r.2.1 != 7 || fbit s EVT_CTRL EVT_CTRL_EN)) = some r) ∧
    (∃ (x : HPort) (i : BitVec 16) (s : State), portExists s (portId x) = true ∧ (ctl s (portId x)).ready = true) :=
  ⟨⟨.a, 3, 1, 7, 1, 0, { rst with host := { rst.host with ctlA := { rst.host.ctlA with ready := true, cqs := [(1, ⟨8, 0, 0, 0, true⟩)] } } }, by decide⟩,
    ⟨.a, 3, 1, 7, 1, 0, true, { rst with host := { rst.host with ctlA := { rst.host.ctlA with ready := true, sqs := [(1, ⟨8, 1, 0, 0, 0⟩)] } } }, by decide⟩,
    ⟨.a, 3, 1, { rst with host := { rst.host with ctlA := { rst.host.ctlA with ready := true, sqs := [(1, ⟨8, 1, 0, 0, 0⟩)] } } }, by decide⟩,
    ⟨.a, 3, 1, 7, 4, true, { rst with host := { rst.host with ctlA := { rst.host.ctlA with ready := true } } }, by decide⟩,
    ⟨.a, 3, 1, { rst with host := { rst.host with ctlA := { rst.host.ctlA with ready := true, cqs := [(1, ⟨8, 0, 0, 0, true⟩)] } } }, by decide⟩,
    ⟨.a, 3, 0, { rst with host := { rst.host with ctlA := { rst.host.ctlA with ready := true } } }, by decide⟩,
    ⟨.a, 3, 9, { rst with host := { rst.host with ctlA := { rst.host.ctlA with ready := true } } }, by decide⟩,
    ⟨.a, 3, 1, 4, 0, { rst with host := { rst.host with ctlA := { rst.host.ctlA with ready := true } } }, by decide⟩,
    ⟨.a, 3, 1, 7, 0, ⟨0, 1, 7, 2, 1, 0, 1, false, 0, false, 0, 0, false, false, [], false, false, false, none, false, false, false, []⟩, { rst with host := { rst.host with ctlA := { rst.host.ctlA with ready := true }, cmds := [⟨0, 1, 7, 2, 1, 0, 1, false, 0, false, 0, 0, false, false, [], false, false, false, none, false, false, false, []⟩] } }, by decide⟩,
    ⟨.a, 3, { rst with host := { rst.host with ctlA := { rst.host.ctlA with ready := true } } }, by decide⟩,
    ⟨.a, 3, (0, 7, 1, 0xC8), { rst with host := { rst.host with ctlA := { rst.host.ctlA with ready := true } }, evt := { rst.evt with held := [(0, 7, 1, 0xC8)] } }, by decide⟩,
    ⟨.a, 3, { rst with host := { rst.host with ctlA := { rst.host.ctlA with ready := true } } }, by decide⟩⟩

/-- The hypotheses of `PowerStatesAndFirmware` are met. -/
theorem witness_PowerStatesAndFirmware :
    (∃ (x : HPort) (i : BitVec 16) (d : Word) (s : State), portExists s (portId x) = true ∧ (ctl s (portId x)).ready = true) ∧
    (∃ (x : HPort) (i : BitVec 16) (d : Word) (s : State), portExists s (portId x) = true ∧ (ctl s (portId x)).ready = true) ∧
    (∃ (x : HPort) (i : BitVec 16) (d : Word) (s : State), portExists s (portId x) = true ∧ (ctl s (portId x)).ready = true) ∧
    (∃ (x : HPort) (i : BitVec 16) (d : Word) (s : State), portExists s (portId x) = true ∧ (ctl s (portId x)).ready = true ∧
      getF d ⟨0, 5⟩ ≤ 4 ∧ (ctl s (portId x)).pmWait = []) ∧
    (∃ (x : HPort) (i : BitVec 16) (s : State), portExists s (portId x) = true ∧ (ctl s (portId x)).ready = true) ∧
    (∃ (b : Bool) (s : State), fbit s HIF_PWR HIF_PWR_ENTERING = true ∧ inSafe s = false ∧ bothDown s = false ∧ psTarget s <
      3) ∧
    (∃ (x : HPort) (s : State), portExists s (portId x) = true ∧ (ctl s (portId x)).d3hot = false ∧ fbit s (HIF_PORT_STAT
      (portId x)) HIF_PORT_STAT_LINK_UP = true ∧ bothDown (psUpdate (setCtl s (portId x) fun c => { c with d3hot := true })) =
      false) ∧
    (∃ (x : HPort) (s : State), (ctl s (portId x)).d3hot = true ∧ isActiveRole (psUpdate (setCtl s (portId x) fun c =>
      { c with d3hot := false })) = false) ∧
    (∃ (x : HPort) (s : State), (ctl s (portId x)).d3hot = true ∧ isActiveRole (psUpdate (setCtl s (portId x) fun c =>
      { c with d3hot := false })) = true) ∧
    (∃ (x : HPort) (i : BitVec 16) (n o : BitVec 32) (d : List Word) (s : State), portExists s (portId x) = true ∧ (ctl s
      (portId x)).ready = true ∧ o ≠ 0 ∧ o.toNat + (n.toNat + 1) ≤ 3145728) ∧
    (∃ (x : HPort) (i : BitVec 16) (f : BitVec 3) (s : State), portExists s (portId x) = true ∧ (ctl s (portId x)).ready =
      true) ∧
    (∃ (x : HPort) (i : BitVec 16) (f : BitVec 3) (s : State), portExists s (portId x) = true ∧ (ctl s (portId x)).ready =
      true) ∧
    (∃ (x : HPort) (i : BitVec 16) (f : BitVec 3) (s : State), portExists s (portId x) = true ∧ (ctl s (portId x)).ready =
      true) ∧
    (∃ (x : HPort) (i : BitVec 16) (f : BitVec 3) (s : State), portExists s (portId x) = true ∧ (ctl s (portId x)).ready =
      true) ∧
    (∃ (b : Bool) (s : State), s.prt.upStep ≠ 0 ∧ s.prt.upStep ≠ 8) ∧
    (∃ (x : HPort) (i : BitVec 16) (n : Word) (s : State), portExists s (portId x) = true ∧ (ctl s (portId x)).ready = true ∧
      s.host.selfTest.kind = 0) ∧
    (∃ (x : HPort) (i : BitVec 16) (n : Word) (s : State), portExists s (portId x) = true ∧ (ctl s (portId x)).ready = true ∧
      s.host.selfTest.kind = 0) ∧
    (∃ (x : HPort) (i : BitVec 16) (n : Word) (s : State), portExists s (portId x) = true ∧ (ctl s (portId x)).ready = true ∧
      s.host.selfTest.kind ≠ 0) ∧
    (∃ (x : HPort) (i : BitVec 16) (n : Word) (s : State), portExists s (portId x) = true ∧ (ctl s (portId x)).ready = true ∧
      s.host.selfTest.kind ≠ 0) ∧
    (∃ (b c : Bool) (s : State), s.host.selfTest.kind ≠ 0 ∧ s.host.selfTest.step ≠ 4) :=
  ⟨⟨.a, 3, 5, { rst with host := { rst.host with ctlA := { rst.host.ctlA with ready := true } } }, by decide⟩,
    ⟨.a, 3, 5, { rst with host := { rst.host with ctlA := { rst.host.ctlA with ready := true } } }, by decide⟩,
    ⟨.a, 3, 0, { rst with host := { rst.host with ctlA := { rst.host.ctlA with ready := true } } }, by decide⟩,
    ⟨.a, 3, 2, { rst with host := { rst.host with ctlA := { rst.host.ctlA with ready := true } } }, by decide⟩,
    ⟨.a, 3, { rst with host := { rst.host with ctlA := { rst.host.ctlA with ready := true } } }, by decide⟩,
    ⟨true, { (w [(HIF_PWR, HIF_PWR_ENTERING, 1), (HIF_PORT_STAT 0, HIF_PORT_STAT_LINK_UP, 1), (HIF_MODE, HIF_MODE_BIFUR, 0)]) with host := { rst.host with ctlA := { rst.host.ctlA with ready := true, enabled := true } } }, by decide⟩,
    ⟨.a, w [(HIF_PORT_STAT 0, HIF_PORT_STAT_LINK_UP, 1), (HIF_PORT_STAT 1, HIF_PORT_STAT_LINK_UP, 1)], by decide +kernel⟩,
    ⟨.a, { rst with host := { rst.host with ctlA := { rst.host.ctlA with ready := true, d3hot := true } } }, by decide +kernel⟩,
    ⟨.a, { (w [(PRT_STAT, PRT_STAT_ROLE, 1)]) with host := { rst.host with ctlA := { rst.host.ctlA with ready := true, d3hot := true } } }, by decide +kernel⟩,
    ⟨.a, 3, 0, 1, [7], { rst with host := { rst.host with ctlA := { rst.host.ctlA with ready := true } } }, by decide⟩,
    ⟨.a, 3, 1, { rst with host := { rst.host with ctlA := { rst.host.ctlA with ready := true } } }, by decide⟩,
    ⟨.a, 3, 1, { rst with host := { rst.host with ctlA := { rst.host.ctlA with ready := true } } }, by decide⟩,
    ⟨.a, 3, 1, { rst with host := { rst.host with ctlA := { rst.host.ctlA with ready := true } } }, by decide⟩,
    ⟨.a, 3, 1, { rst with host := { rst.host with ctlA := { rst.host.ctlA with ready := true } } }, by decide⟩,
    ⟨true, { rst with prt := { rst.prt with upStep := 1 } }, by decide⟩,
    ⟨.a, 3, 1, { rst with host := { rst.host with ctlA := { rst.host.ctlA with ready := true } } }, by decide⟩,
    ⟨.a, 3, 1, { rst with host := { rst.host with ctlA := { rst.host.ctlA with ready := true } } }, by decide⟩,
    ⟨.a, 3, 1, { rst with host := { rst.host with ctlA := { rst.host.ctlA with ready := true }, selfTest := { rst.host.selfTest with kind := 2 } } }, by decide⟩,
    ⟨.a, 3, 1, { rst with host := { rst.host with ctlA := { rst.host.ctlA with ready := true }, selfTest := { rst.host.selfTest with kind := 2 } } }, by decide⟩,
    ⟨true, false, { rst with host := { rst.host with selfTest := { rst.host.selfTest with kind := 2, step := 1 } } }, by decide⟩⟩

/-- The hypotheses of `ErrorAndHealthLogs` are met. -/
theorem witness_ErrorAndHealthLogs :
    (∃ (x : HPort) (i : BitVec 16) (o n : BitVec 32) (s : State), portExists s (portId x) = true ∧ (ctl s (portId x)).ready =
      true) ∧
    (∃ (x : HPort) (i : BitVec 16) (o n : BitVec 32) (s : State), portExists s (portId x) = true ∧ (ctl s (portId x)).ready =
      true) ∧
    (∃ (x : HPort) (i : BitVec 16) (o n : BitVec 32) (ns : BitVec 32) (s : State), portExists s (portId x) = true ∧ (ctl s
      (portId x)).ready = true ∧ ns ≠ 0xFFFFFFFF) ∧
    (∃ (x : HPort) (i : BitVec 16) (o n : BitVec 32) (s : State), portExists s (portId x) = true ∧ (ctl s (portId x)).ready =
      true) ∧
    (∃ (x : HPort) (i : BitVec 16) (o n : BitVec 32) (s : State), portExists s (portId x) = true ∧ (ctl s (portId x)).ready =
      true ∧ o.toNat ≤ (ctl s (portId x)).chgNs.length) ∧
    (∃ (x : HPort) (i : BitVec 16) (o n : BitVec 32) (s : State), portExists s (portId x) = true ∧ (ctl s (portId x)).ready =
      true ∧ o.toNat ≤ (ctl s (portId x)).chgNs.length) ∧
    (∃ (x : HPort) (i : BitVec 16) (o n : BitVec 32) (s : State), portExists s (portId x) = true ∧ (ctl s (portId x)).ready =
      true) ∧
    (∃ (x : HPort) (i : BitVec 16) (o n : BitVec 32) (s : State), portExists s (portId x) = true ∧ (ctl s (portId x)).ready =
      true) ∧
    (∃ (x : HPort) (i : BitVec 16) (o n : BitVec 32) (s : State), portExists s (portId x) = true ∧ (ctl s (portId x)).ready =
      true) ∧
    (∃ (x : HPort) (i : BitVec 16) (o n : BitVec 32) (ns : BitVec 32) (l : List Nat) (s : State), portExists s (portId x) =
      true ∧ (ctl s (portId x)).ready = true ∧ ((ctl s (portId x)).chgZones.filter fun z => z.1 == ns.toNat).map (fun z => z.2
      * nsZl s ns.toNat) = l ∧ o.toNat ≤ l.length) ∧
    (∃ (x : HPort) (i : BitVec 16) (o n : BitVec 32) (s : State), portExists s (portId x) = true ∧ (ctl s (portId x)).ready =
      true) ∧
    (∃ (x : HPort) (i : BitVec 16) (o n : BitVec 32) (s : State), portExists s (portId x) = true ∧ (ctl s (portId x)).ready =
      true) ∧
    (∃ (x : HPort) (i : BitVec 16) (o n : BitVec 32) (s : State), portExists s (portId x) = true ∧ (ctl s (portId x)).ready =
      true) ∧
    (∃ (x : HPort) (i : BitVec 16) (o n : BitVec 32) (s : State), portExists s (portId x) = true ∧ (ctl s (portId x)).ready =
      true) ∧
    (∃ (x : HPort) (i : BitVec 16) (o n : BitVec 32) (s : State), portExists s (portId x) = true ∧ (ctl s (portId x)).ready =
      true) ∧
    (∃ (x : HPort) (i : BitVec 16) (o n : BitVec 32) (s : State), portExists s (portId x) = true ∧ (ctl s (portId x)).ready =
      true) ∧
    (∃ (x : HPort) (i : BitVec 16) (o n : BitVec 32) (s : State), portExists s (portId x) = true ∧ (ctl s (portId x)).ready =
      true) ∧
    (∃ (x : HPort) (i : BitVec 16) (o n : BitVec 32) (s : State), portExists s (portId x) = true ∧ (ctl s (portId x)).ready =
      true ∧ o.toNat ≤ (eventPage s).length) ∧
    (∃ (x : HPort) (i : BitVec 16) (o n : BitVec 32) (k : BitVec 7) (s : State), portExists s (portId x) = true ∧ (ctl s
      (portId x)).ready = true) :=
  ⟨⟨.a, 3, 0, 8, { rst with host := { rst.host with ctlA := { rst.host.ctlA with ready := true } } }, by decide⟩,
    ⟨.a, 3, 0, 8, { rst with host := { rst.host with ctlA := { rst.host.ctlA with ready := true } } }, by decide⟩,
    ⟨.a, 3, 0, 8, 1, { rst with host := { rst.host with ctlA := { rst.host.ctlA with ready := true } } }, by decide⟩,
    ⟨.a, 3, 0, 8, { rst with host := { rst.host with ctlA := { rst.host.ctlA with ready := true } } }, by decide⟩,
    ⟨.a, 3, 0, 8, { rst with host := { rst.host with ctlA := { rst.host.ctlA with ready := true, chgNs := [1, 2] } } }, by decide⟩,
    ⟨.a, 3, 0, 8, { rst with host := { rst.host with ctlA := { rst.host.ctlA with ready := true, chgNs := [1, 2] } } }, by decide⟩,
    ⟨.a, 3, 0, 8, { rst with host := { rst.host with ctlA := { rst.host.ctlA with ready := true } } }, by decide⟩,
    ⟨.a, 3, 0, 8, { rst with host := { rst.host with ctlA := { rst.host.ctlA with ready := true } } }, by decide⟩,
    ⟨.a, 3, 0, 8, { rst with host := { rst.host with ctlA := { rst.host.ctlA with ready := true } } }, by decide⟩,
    ⟨.a, 3, 0, 8, 9, [], { rst with host := { rst.host with ctlA := { rst.host.ctlA with ready := true } } }, by decide⟩,
    ⟨.a, 3, 0, 8, { rst with host := { rst.host with ctlA := { rst.host.ctlA with ready := true } } }, by decide⟩,
    ⟨.a, 3, 0, 8, { rst with host := { rst.host with ctlA := { rst.host.ctlA with ready := true } } }, by decide⟩,
    ⟨.a, 3, 0, 8, { rst with host := { rst.host with ctlA := { rst.host.ctlA with ready := true } } }, by decide⟩,
    ⟨.a, 3, 0, 8, { rst with host := { rst.host with ctlA := { rst.host.ctlA with ready := true } } }, by decide⟩,
    ⟨.a, 3, 0, 8, { rst with host := { rst.host with ctlA := { rst.host.ctlA with ready := true } } }, by decide⟩,
    ⟨.a, 3, 0, 8, { rst with host := { rst.host with ctlA := { rst.host.ctlA with ready := true } } }, by decide⟩,
    ⟨.a, 3, 0, 8, { rst with host := { rst.host with ctlA := { rst.host.ctlA with ready := true } } }, by decide⟩,
    ⟨.a, 3, 0, 8, { rst with host := { rst.host with ctlA := { rst.host.ctlA with ready := true } } }, by decide +kernel⟩,
    ⟨.a, 3, 0, 8, 1, { rst with host := { rst.host with ctlA := { rst.host.ctlA with ready := true } } }, by decide⟩⟩

/-- The hypotheses of `SubsystemLogs` are met. -/
theorem witness_SubsystemLogs :
    (∃ (x : HPort) (i : BitVec 16) (o n : BitVec 32) (s : State), portExists s (portId x) = true ∧ (ctl s (portId x)).ready =
      true) ∧
    (∃ (x : HPort) (i : BitVec 16) (o n : BitVec 32) (s : State), portExists s (portId x) = true ∧ (ctl s (portId x)).ready =
      true) ∧
    (∃ (x : HPort) (i : BitVec 16) (o n : BitVec 32) (s : State), portExists s (portId x) = true ∧ (ctl s (portId x)).ready =
      true) ∧
    (∃ (x : HPort) (i : BitVec 16) (o n : BitVec 32) (s : State), portExists s (portId x) = true ∧ (ctl s (portId x)).ready =
      true) ∧
    (∃ (x : HPort) (i : BitVec 16) (o n : BitVec 32) (s : State), portExists s (portId x) = true ∧ (ctl s (portId x)).ready =
      true) ∧
    (∃ (x : HPort) (i : BitVec 16) (o n : BitVec 32) (s : State), portExists s (portId x) = true ∧ (ctl s (portId x)).ready =
      true) ∧
    (∃ (x : HPort) (i : BitVec 16) (o n : BitVec 32) (s : State), portExists s (portId x) = true ∧ (ctl s (portId x)).ready =
      true) ∧
    (∃ (x : HPort) (i : BitVec 16) (o n : BitVec 32) (s : State), portExists s (portId x) = true ∧ (ctl s (portId x)).ready =
      true) ∧
    (∃ (x : HPort) (i : BitVec 16) (o n : BitVec 32) (s : State), portExists s (portId x) = true ∧ (ctl s (portId x)).ready =
      true) ∧
    (∃ (x : HPort) (i : BitVec 16) (o n : BitVec 32) (s : State), portExists s (portId x) = true ∧ (ctl s (portId x)).ready =
      true) ∧
    (∃ (x : HPort) (i : BitVec 16) (o n : BitVec 32) (s : State), portExists s (portId x) = true ∧ (ctl s (portId x)).ready =
      true) ∧
    (∃ (x : HPort) (i : BitVec 16) (o n : BitVec 32) (s : State), portExists s (portId x) = true ∧ (ctl s (portId x)).ready =
      true) ∧
    (∃ (x : HPort) (i : BitVec 16) (o n : BitVec 32) (s : State), portExists s (portId x) = true ∧ (ctl s (portId x)).ready =
      true) ∧
    (∃ (x : HPort) (i : BitVec 16) (o n : BitVec 32) (s : State), portExists s (portId x) = true ∧ (ctl s (portId x)).ready =
      true) ∧
    (∃ (x : HPort) (i : BitVec 16) (o n : BitVec 32) (s : State), portExists s (portId x) = true ∧ (ctl s (portId x)).ready =
      true) ∧
    (∃ (x : HPort) (i : BitVec 16) (o n : BitVec 32) (s : State), portExists s (portId x) = true ∧ (ctl s (portId x)).ready =
      true) ∧
    (∃ (x : HPort) (i : BitVec 16) (o n : BitVec 32) (s : State), portExists s (portId x) = true ∧ (ctl s (portId x)).ready =
      true) ∧
    (∃ (x : HPort) (i : BitVec 16) (o n : BitVec 32) (k : BitVec 7) (s : State), portExists s (portId x) = true ∧ (ctl s
      (portId x)).ready = true ∧ k.getLsbD 0 = true ∧ o.toNat ≤ (orphanPage s).length) ∧
    (∃ (x : HPort) (i : BitVec 16) (o n : BitVec 32) (k : BitVec 7) (s : State), portExists s (portId x) = true ∧ (ctl s
      (portId x)).ready = true ∧ k.getLsbD 0 = false) :=
  ⟨⟨.a, 3, 0, 8, { rst with host := { rst.host with ctlA := { rst.host.ctlA with ready := true } } }, by decide⟩,
    ⟨.a, 3, 0, 8, { rst with host := { rst.host with ctlA := { rst.host.ctlA with ready := true } } }, by decide⟩,
    ⟨.a, 3, 0, 8, { rst with host := { rst.host with ctlA := { rst.host.ctlA with ready := true } } }, by decide⟩,
    ⟨.a, 3, 0, 8, { rst with host := { rst.host with ctlA := { rst.host.ctlA with ready := true } } }, by decide⟩,
    ⟨.a, 3, 0, 8, { rst with host := { rst.host with ctlA := { rst.host.ctlA with ready := true } } }, by decide⟩,
    ⟨.a, 3, 0, 8, { rst with host := { rst.host with ctlA := { rst.host.ctlA with ready := true } } }, by decide⟩,
    ⟨.a, 3, 0, 8, { rst with host := { rst.host with ctlA := { rst.host.ctlA with ready := true } } }, by decide⟩,
    ⟨.a, 3, 0, 8, { rst with host := { rst.host with ctlA := { rst.host.ctlA with ready := true } } }, by decide⟩,
    ⟨.a, 3, 0, 8, { rst with host := { rst.host with ctlA := { rst.host.ctlA with ready := true } } }, by decide⟩,
    ⟨.a, 3, 0, 8, { rst with host := { rst.host with ctlA := { rst.host.ctlA with ready := true } } }, by decide⟩,
    ⟨.a, 3, 0, 8, { rst with host := { rst.host with ctlA := { rst.host.ctlA with ready := true } } }, by decide⟩,
    ⟨.a, 3, 0, 8, { rst with host := { rst.host with ctlA := { rst.host.ctlA with ready := true } } }, by decide⟩,
    ⟨.a, 3, 0, 8, { rst with host := { rst.host with ctlA := { rst.host.ctlA with ready := true } } }, by decide⟩,
    ⟨.a, 3, 0, 8, { rst with host := { rst.host with ctlA := { rst.host.ctlA with ready := true } } }, by decide⟩,
    ⟨.a, 3, 0, 8, { rst with host := { rst.host with ctlA := { rst.host.ctlA with ready := true } } }, by decide⟩,
    ⟨.a, 3, 0, 8, { rst with host := { rst.host with ctlA := { rst.host.ctlA with ready := true } } }, by decide⟩,
    ⟨.a, 3, 0, 8, { rst with host := { rst.host with ctlA := { rst.host.ctlA with ready := true } } }, by decide⟩,
    ⟨.a, 3, 0, 8, 1, { rst with host := { rst.host with ctlA := { rst.host.ctlA with ready := true } } }, by decide⟩,
    ⟨.a, 3, 0, 8, 0, { rst with host := { rst.host with ctlA := { rst.host.ctlA with ready := true } } }, by decide⟩⟩

/-- The hypotheses of `FeatureSettings` are met. -/
theorem witness_FeatureSettings :
    (∃ (x : HPort) (i : BitVec 16) (d : Word) (s : State), portExists s (portId x) = true ∧ (ctl s (portId x)).ready = true ∧
      claimed s baseTRS = false ∧ uUsed s (getF d ⟨0, 12⟩) = true) ∧
    (∃ (x : HPort) (i : BitVec 16) (d : Word) (s : State), portExists s (portId x) = true ∧ (ctl s (portId x)).ready = true ∧
      claimed s baseTRS = false ∧ uUsed s (getF d ⟨0, 12⟩) = false) ∧
    (∃ (x : HPort) (i : BitVec 16) (d : Word) (s : State), portExists s (portId x) = true ∧ (ctl s (portId x)).ready = true ∧
      claimed s baseTRS = true) ∧
    (∃ (x : HPort) (i : BitVec 16) (d : Word) (s : State), portExists s (portId x) = true ∧ (ctl s (portId x)).ready = true) ∧
    (∃ (x : HPort) (i : BitVec 16) (d : Word) (s : State), portExists s (portId x) = true ∧ (ctl s (portId x)).ready = true ∧
      claimed s baseHIF = false ∧ getF d ⟨0, 14⟩ ≤ 8192 ∧ getF d ⟨16, 14⟩ ≤ 8192) ∧
    (∃ (x : HPort) (i : BitVec 16) (d : Word) (s : State), portExists s (portId x) = true ∧ (ctl s (portId x)).ready = true ∧
      claimed s baseZMP = false ∧ ((rangeFrom 0 4).any fun t => claimed s (baseTHT t)) = false ∧ 10 ≤ getF d ⟨0, 16⟩ ∧ getF d
      ⟨0, 16⟩ ≤ 10000 ∧ 1 ≤ getF d ⟨24, 8⟩ ∧ getF d ⟨24, 8⟩ ≤ 100) ∧
    (∃ (x : HPort) (i : BitVec 16) (d e : Word) (s : State), portExists s (portId x) = true ∧ (ctl s (portId x)).ready = true
      ∧ claimed s baseEVT = false ∧ getF d ⟨0, 10⟩ < 640) ∧
    (∃ (x : HPort) (i : BitVec 16) (d e : Word) (s : State), portExists s (portId x) = true ∧ (ctl s (portId x)).ready = true
      ∧ claimed s baseTAIL = false ∧ getF d ⟨8, 4⟩ < 12) ∧
    (∃ (x : HPort) (i : BitVec 16) (d e : Word) (s : State), portExists s (portId x) = true ∧ (ctl s (portId x)).ready = true
      ∧ actClaimed s = false ∧ ((rangeFrom 0 16).any fun c => claimed s (baseLDC c)) = false ∧ getF e ⟨0, 6⟩ ≠ 0 ∧ 100 ≤ getF
      e ⟨8, 16⟩ ∧ getF e ⟨8, 16⟩ ≤ 10000) ∧
    (∃ (x : HPort) (i : BitVec 16) (d : Word) (s : State), portExists s (portId x) = true ∧ (ctl s (portId x)).ready = true ∧
      actClaimed s = false ∧ getF d ⟨0, 4⟩ ≤ 7 ∧ getF d ⟨16, 2⟩ ≤ 1) ∧
    (∃ (x : HPort) (i : BitVec 16) (d e : Word) (s : State), portExists s (portId x) = true ∧ (ctl s (portId x)).ready = true
      ∧ actClaimed s = false ∧ 8 ≤ getF d ⟨0, 8⟩ ∧ 4 ≤ getF d ⟨8, 8⟩ ∧ getF d ⟨8, 8⟩ ≤ getF d ⟨0, 8⟩ ∧ getF d ⟨16, 4⟩ ≤ 7 ∧ 1
      ≤ getF d ⟨20, 4⟩ ∧ 5 ≤ getF e ⟨0, 16⟩ ∧ 50 ≤ getF e ⟨16, 16⟩ ∧ getF e ⟨16, 16⟩ ≤ 5000) ∧
    (∃ (x : HPort) (i : BitVec 16) (d : Word) (s : State), portExists s (portId x) = true ∧ (ctl s (portId x)).ready = true ∧
      claimed s basePRT = false) ∧
    (∃ (x : HPort) (i : BitVec 16) (d e : Word) (s : State), portExists s (portId x) = true ∧ (ctl s (portId x)).ready = true
      ∧ claimed s baseCCH = false ∧ 1 ≤ getF d ⟨8, 8⟩ ∧ getF d ⟨8, 8⟩ ≤ 64 ∧ s.cch.cmd = none ∧ bitOf d 0 = true ∧ cchState
      (fset (fset (fset (fsetb s CCH_CTRL CCH_CTRL_PF_EN (bitOf d 1)) CCH_PF_CTRL CCH_PF_CTRL_DEPTH (getF d ⟨8, 8⟩))
      (CCH_WAYMASK 0) CCH_WAYMASK_WAYS (getF e ⟨0, 16⟩)) (CCH_WAYMASK 1) CCH_WAYMASK_WAYS (getF e ⟨16, 16⟩)) = 1) ∧
    (∃ (x : HPort) (i : BitVec 16) (d e : Word) (s : State), portExists s (portId x) = true ∧ (ctl s (portId x)).ready = true
      ∧ claimed s baseBAL = false ∧ 1 ≤ getF d ⟨0, 4⟩ ∧ getF d ⟨0, 4⟩ ≤ 8 ∧ 100 ≤ getF d ⟨16, 16⟩ ∧ getF d ⟨16, 16⟩ ≤ 10000 ∧
      1 ≤ getF e ⟨0, 16⟩ ∧ 500 ≤ getF e ⟨16, 16⟩ ∧ getF e ⟨16, 16⟩ ≤ 6000) :=
  ⟨⟨.a, 3, 0x2000, { (w [(TRS_UNIT_FACE 0, TRS_UNIT_FACE_KIND, 0)]) with host := { rst.host with ctlA := { rst.host.ctlA with ready := true } } }, by decide⟩,
    ⟨.a, 3, 0x2000, { rst with host := { rst.host with ctlA := { rst.host.ctlA with ready := true } } }, by decide⟩,
    ⟨.a, 3, 0x2000, { (w [(xclaim baseTRS, XCLAIM_EXPERT, 1)]) with host := { rst.host with ctlA := { rst.host.ctlA with ready := true } } }, by decide⟩,
    ⟨.a, 3, 0x2000, { rst with host := { rst.host with ctlA := { rst.host.ctlA with ready := true } } }, by decide⟩,
    ⟨.a, 3, 0x02000100, { rst with host := { rst.host with ctlA := { rst.host.ctlA with ready := true } } }, by decide⟩,
    ⟨.a, 3, 0x0A000064, { rst with host := { rst.host with ctlA := { rst.host.ctlA with ready := true } } }, by decide⟩,
    ⟨.a, 3, 0x02010007, 4, { rst with host := { rst.host with ctlA := { rst.host.ctlA with ready := true } } }, by decide⟩,
    ⟨.a, 3, 0x102, 0x80000004, { rst with host := { rst.host with ctlA := { rst.host.ctlA with ready := true } } }, by decide⟩,
    ⟨.a, 3, 0x04030201, 0x3E810, { rst with host := { rst.host with ctlA := { rst.host.ctlA with ready := true } } }, by decide⟩,
    ⟨.a, 3, 0x303, { rst with host := { rst.host with ctlA := { rst.host.ctlA with ready := true } } }, by decide⟩,
    ⟨.a, 3, 0x330A10, 0x00640010, { rst with host := { rst.host with ctlA := { rst.host.ctlA with ready := true } } }, by decide⟩,
    ⟨.a, 3, 3, { rst with host := { rst.host with ctlA := { rst.host.ctlA with ready := true } } }, by decide⟩,
    ⟨.a, 3, 0x1001, 0xFFFFFFFF, { (w [(CCH_STAT, CCH_STAT_STATE, 1)]) with host := { rst.host with ctlA := { rst.host.ctlA with ready := true } } }, by decide⟩,
    ⟨.a, 3, 0x03E80004, 0x07D000FF, { rst with host := { rst.host with ctlA := { rst.host.ctlA with ready := true } } }, by decide⟩⟩

/-- The hypotheses of `PortAndSpindleSettings` are met. -/
theorem witness_PortAndSpindleSettings :
    (∃ (x : HPort) (i : BitVec 16) (p : Fin 32) (s : State), portExists s (portId x) = true ∧ (ctl s (portId x)).ready = true
      ∧ claimed s (baseTTH p) = false ∧ mechQuiet s p = true) ∧
    (∃ (x : HPort) (i : BitVec 16) (p : Fin 32) (s : State), portExists s (portId x) = true ∧ (ctl s (portId x)).ready = true
      ∧ claimed s (baseTTH p) = false ∧ mechQuiet s p = false) ∧
    (∃ (x : HPort) (i : BitVec 16) (p : Fin 32) (s : State), portExists s (portId x) = true ∧ (ctl s (portId x)).ready = true
      ∧ claimed s (baseTTH p) = false) ∧
    (∃ (x : HPort) (i : BitVec 16) (p : Fin 32) (s : State), portExists s (portId x) = true ∧ (ctl s (portId x)).ready = true
      ∧ claimed s (baseTTH p) = false ∧ mechQuiet s p = true) ∧
    (∃ (x : HPort) (i : BitVec 16) (d : Word) (p : Nat) (s : State), portExists s (portId x) = true ∧ (ctl s (portId x)).ready
      = true ∧ getF d ⟨0, 5⟩ = p ∧ claimed s (baseBRD (p / 2)) = false ∧ (spnOf s p).ovrCmd = none ∧ switching s p = true) ∧
    (∃ (x : HPort) (i : BitVec 16) (d : Word) (p : Nat) (s : State), portExists s (portId x) = true ∧ (ctl s (portId x)).ready
      = true ∧ getF d ⟨0, 5⟩ = p ∧ claimed s (baseBRD (p / 2)) = false ∧ (spnOf s p).ovrCmd = none ∧ switching s p = false) ∧
    (∃ (x : HPort) (i : BitVec 16) (p : Fin 32) (n : BitVec 2) (s : State), portExists s (portId x) = true ∧ (ctl s (portId
      x)).ready = true ∧ claimed s (baseSPN p) = false ∧ stepSpeed s p n.toNat ≠ 0) ∧
    (∃ (x : HPort) (i : BitVec 16) (p : Fin 32) (s : State), portExists s (portId x) = true ∧ (ctl s (portId x)).ready = true
      ∧ claimed s (baseSPN p) = false ∧ mechInFlight s p = false) ∧
    (∃ (x : HPort) (i : BitVec 16) (p : Fin 32) (s : State), portExists s (portId x) = true ∧ (ctl s (portId x)).ready = true
      ∧ claimed s (baseSPN p) = false) ∧
    (∃ (x : HPort) (i : BitVec 16) (d e : Word) (s : State), portExists s (portId x) = true ∧ (ctl s (portId x)).ready = true
      ∧ claimed s baseBGW = false ∧ 2 ≤ getF d ⟨0, 7⟩ ∧ getF d ⟨0, 7⟩ ≤ 64 ∧ 1 ≤ getF d ⟨8, 8⟩ ∧ 1 ≤ getF e ⟨0, 16⟩ ∧ getF e
      ⟨0, 16⟩ ≤ 3650) ∧
    (∃ (x : HPort) (i : BitVec 16) (d e : Word) (s : State), portExists s (portId x) = true ∧ (ctl s (portId x)).ready = true
      ∧ claimed s baseTHM = false ∧ 10 ≤ getF d ⟨0, 8⟩ ∧ getF d ⟨0, 8⟩ ≤ 200) ∧
    (∃ (x : HPort) (i : BitVec 16) (d : Word) (v m : Nat) (s : State), portExists s (portId x) = true ∧ (ctl s (portId
      x)).ready = true ∧ getF d ⟨0, 4⟩ = v ∧ mode s = m ∧ claimed s basePWR = false ∧ forceOk v = true ∧ getF d ⟨8, 8⟩ ≠ 0 ∧ v
      ≠ 7 ∧ m ≠ 0xA ∧ m ≠ 8 ∧ m ≠ 9 ∧ v ≠ 0xB) ∧
    (∃ (x : HPort) (i : BitVec 16) (d : Word) (v m : Nat) (s : State), portExists s (portId x) = true ∧ (ctl s (portId
      x)).ready = true ∧ getF d ⟨0, 4⟩ = v ∧ mode s = m ∧ claimed s basePWR = false ∧ forceOk v = true ∧ getF d ⟨8, 8⟩ ≠ 0 ∧ v
      ≠ 7 ∧ (m = 0xA ∨ m = 8 ∨ m = 9)) :=
  ⟨⟨.a, 3, 0, { rst with host := { rst.host with ctlA := { rst.host.ctlA with ready := true } } }, by decide⟩,
    ⟨.a, 3, 0, { ({ w [(TRS_UNIT_FACE 3, TRS_UNIT_FACE_KIND, 3), (TRS_UNIT_FACE 3, TRS_UNIT_FACE_STATE, 3)] with trs := { rst.trs with run := { rst.trs.run with units := [⟨3, 0, 3, 0, 0, 0, 0, false, 0⟩] } } }) with host := { rst.host with ctlA := { rst.host.ctlA with ready := true } } }, by decide⟩,
    ⟨.a, 3, 0, { rst with host := { rst.host with ctlA := { rst.host.ctlA with ready := true } } }, by decide⟩,
    ⟨.a, 3, 0, { rst with host := { rst.host with ctlA := { rst.host.ctlA with ready := true } } }, by decide⟩,
    ⟨.a, 3, 0x800203, 3, { (w [(BRD_SW_CTRL 1, BRD_SW_CTRL_GO, 1)]) with host := { rst.host with ctlA := { rst.host.ctlA with ready := true } } }, by decide⟩,
    ⟨.a, 3, 0x800203, 3, { rst with host := { rst.host with ctlA := { rst.host.ctlA with ready := true } } }, by decide⟩,
    ⟨.a, 3, 0, 0, { ({ rst with trs := { rst.trs with run := { rst.trs.run with units := [⟨3, 0, 3, 0, 0, 0, 0, false, 0⟩], templates := [⟨0, 1, 1, 0, 0, 1, 0, 0, 0, 0, 0⟩], speeds := [(1, [⟨7200, 0, true⟩])] } } }) with host := { rst.host with ctlA := { rst.host.ctlA with ready := true } } }, by decide⟩,
    ⟨.a, 3, 0, { rst with host := { rst.host with ctlA := { rst.host.ctlA with ready := true } } }, by decide⟩,
    ⟨.a, 3, 0, { rst with host := { rst.host with ctlA := { rst.host.ctlA with ready := true } } }, by decide⟩,
    ⟨.a, 3, 0xFF0A08, 30, { rst with host := { rst.host with ctlA := { rst.host.ctlA with ready := true } } }, by decide⟩,
    ⟨.a, 3, 0x132, 7, { rst with host := { rst.host with ctlA := { rst.host.ctlA with ready := true } } }, by decide⟩,
    ⟨.a, 3, 0x10304, 4, 1, { rst with host := { rst.host with ctlA := { rst.host.ctlA with ready := true } } }, by decide⟩,
    ⟨.a, 3, 0x10304, 4, 8, { (w [(PWR_MODE, PWR_MODE_MODE, 8)]) with host := { rst.host with ctlA := { rst.host.ctlA with ready := true } } }, by decide⟩⟩

/-- The hypotheses of `FeatureReads` are met. -/
theorem witness_FeatureReads :
    (∃ (x : HPort) (i : BitVec 16) (d : Word) (s : State), portExists s (portId x) = true ∧ (ctl s (portId x)).ready = true ∧
      uUsed s (getF d ⟨0, 12⟩) = true) ∧
    (∃ (x : HPort) (i : BitVec 16) (s : State), portExists s (portId x) = true ∧ (ctl s (portId x)).ready = true) ∧
    (∃ (x : HPort) (i : BitVec 16) (s : State), portExists s (portId x) = true ∧ (ctl s (portId x)).ready = true) ∧
    (∃ (i : BitVec 16) (d : Word) (s : State), portExists s (0) = true ∧ (ctl s (0)).ready = true ∧ getF d ⟨0, 10⟩ < 640) ∧
    (∃ (x : HPort) (i : BitVec 16) (d : Word) (s : State), portExists s (portId x) = true ∧ (ctl s (portId x)).ready = true ∧
      getF d ⟨8, 4⟩ < 12) ∧
    (∃ (x : HPort) (i : BitVec 16) (p : Fin 32) (s : State), portExists s (portId x) = true ∧ (ctl s (portId x)).ready = true) ∧
    (∃ (x : HPort) (i : BitVec 16) (s : State), portExists s (portId x) = true ∧ (ctl s (portId x)).ready = true) ∧
    (∃ (x : HPort) (i : BitVec 16) (s : State), portExists s (portId x) = true ∧ (ctl s (portId x)).ready = true) ∧
    (∃ (x : HPort) (i : BitVec 16) (s : State), portExists s (portId x) = true ∧ (ctl s (portId x)).ready = true) ∧
    (∃ (x : HPort) (i : BitVec 16) (p : Fin 32) (s : State), portExists s (portId x) = true ∧ (ctl s (portId x)).ready = true) ∧
    (∃ (x : HPort) (i : BitVec 16) (p : Fin 32) (s : State), portExists s (portId x) = true ∧ (ctl s (portId x)).ready = true) ∧
    (∃ (x : HPort) (i : BitVec 16) (s : State), portExists s (portId x) = true ∧ (ctl s (portId x)).ready = true) ∧
    (∃ (x : HPort) (i : BitVec 16) (s : State), portExists s (portId x) = true ∧ (ctl s (portId x)).ready = true) ∧
    (∃ (x : HPort) (i : BitVec 16) (s : State), portExists s (portId x) = true ∧ (ctl s (portId x)).ready = true) ∧
    (∃ (x : HPort) (i : BitVec 16) (s : State), portExists s (portId x) = true ∧ (ctl s (portId x)).ready = true) ∧
    (∃ (x : HPort) (i : BitVec 16) (s : State), portExists s (portId x) = true ∧ (ctl s (portId x)).ready = true) ∧
    (∃ (x : HPort) (i : BitVec 16) (s : State), portExists s (portId x) = true ∧ (ctl s (portId x)).ready = true) :=
  ⟨⟨.a, 3, 0, { (w [(TRS_UNIT_FACE 0, TRS_UNIT_FACE_KIND, 0)]) with host := { rst.host with ctlA := { rst.host.ctlA with ready := true } } }, by decide⟩,
    ⟨.a, 3, { rst with host := { rst.host with ctlA := { rst.host.ctlA with ready := true } } }, by decide⟩,
    ⟨.a, 3, { rst with host := { rst.host with ctlA := { rst.host.ctlA with ready := true } } }, by decide⟩,
    ⟨3, 7, { rst with host := { rst.host with ctlA := { rst.host.ctlA with ready := true } } }, by decide⟩,
    ⟨.a, 3, 0x102, { rst with host := { rst.host with ctlA := { rst.host.ctlA with ready := true } } }, by decide⟩,
    ⟨.a, 3, 4, { rst with host := { rst.host with ctlA := { rst.host.ctlA with ready := true } } }, by decide⟩,
    ⟨.a, 3, { rst with host := { rst.host with ctlA := { rst.host.ctlA with ready := true } } }, by decide⟩,
    ⟨.a, 3, { rst with host := { rst.host with ctlA := { rst.host.ctlA with ready := true } } }, by decide⟩,
    ⟨.a, 3, { rst with host := { rst.host with ctlA := { rst.host.ctlA with ready := true } } }, by decide⟩,
    ⟨.a, 3, 4, { rst with host := { rst.host with ctlA := { rst.host.ctlA with ready := true } } }, by decide⟩,
    ⟨.a, 3, 4, { rst with host := { rst.host with ctlA := { rst.host.ctlA with ready := true } } }, by decide⟩,
    ⟨.a, 3, { rst with host := { rst.host with ctlA := { rst.host.ctlA with ready := true } } }, by decide⟩,
    ⟨.a, 3, { rst with host := { rst.host with ctlA := { rst.host.ctlA with ready := true } } }, by decide⟩,
    ⟨.a, 3, { rst with host := { rst.host with ctlA := { rst.host.ctlA with ready := true } } }, by decide⟩,
    ⟨.a, 3, { rst with host := { rst.host with ctlA := { rst.host.ctlA with ready := true } } }, by decide⟩,
    ⟨.a, 3, { rst with host := { rst.host with ctlA := { rst.host.ctlA with ready := true } } }, by decide⟩,
    ⟨.a, 3, { rst with host := { rst.host with ctlA := { rst.host.ctlA with ready := true } } }, by decide⟩⟩

/-- The hypotheses of `ServiceCommands` are met. -/
theorem witness_ServiceCommands :
    (∃ (x : HPort) (i : BitVec 16) (n : BitVec 32) (b : BitVec 64) (s : State), portExists s (portId x) = true ∧ (ctl s
      (portId x)).ready = true ∧ (locateLba s n.toNat b.toNat).1 = 0) ∧
    (∃ (x : HPort) (i : BitVec 16) (n : BitVec 32) (b : BitVec 64) (s : State), portExists s (portId x) = true ∧ (ctl s
      (portId x)).ready = true ∧ (locateLba s n.toNat b.toNat).1 ≠ 0) ∧
    (∃ (x : HPort) (i : BitVec 16) (r : Fin 8) (s : State), portExists s (portId x) = true ∧ (ctl s (portId x)).ready = true) ∧
    (∃ (x : HPort) (i : BitVec 16) (r : Fin 8) (s : State), portExists s (portId x) = true ∧ (ctl s (portId x)).ready = true) ∧
    (∃ (x : HPort) (i : BitVec 16) (r : Fin 8) (s : State), portExists s (portId x) = true ∧ (ctl s (portId x)).ready = true) ∧
    (∃ (x : HPort) (i : BitVec 16) (p : Fin 32) (s : State), portExists s (portId x) = true ∧ (ctl s (portId x)).ready = true
      ∧ claimed s (baseSPN p) = false) ∧
    (∃ (x : HPort) (i : BitVec 16) (p : Fin 32) (s : State), portExists s (portId x) = true ∧ (ctl s (portId x)).ready = true
      ∧ claimed s (baseSPN p) = true) ∧
    (∃ (x : HPort) (i : BitVec 16) (p : Fin 32) (n : BitVec 2) (s : State), portExists s (portId x) = true ∧ (ctl s (portId
      x)).ready = true ∧ claimed s (baseSPN p) = false ∧ (mechUnit s p).any (fun u => uState s u == 1) = true ∧ spnState s p =
      0 ∧ stepSpeed s p n.toNat ≠ 0) ∧
    (∃ (p : Fin 32) (c : Nat × Nat) (s : State), spnState s p = 11 ∧ (spnOf s p).testCmd = some c) ∧
    (∃ (x : HPort) (i : BitVec 16) (p : Fin 32) (q : BitVec 5) (s : State), portExists s (portId x) = true ∧ (ctl s (portId
      x)).ready = true ∧ claimed s (baseSPN p) = false ∧ q.toNat ≤ 23 ∧ fbit s (AST_WEAR_W2 p q.toNat) AST_WEAR_W2_RETIRED =
      false) ∧
    (∃ (x : HPort) (i : BitVec 16) (s : State), portExists s (portId x) = true ∧ (ctl s (portId x)).ready = true ∧ claimed s
      basePRT = false ∧ hoAllowed s = true ∧ s.prt.hoWait = false) ∧
    (∃ (x : HPort) (i : BitVec 16) (s : State), portExists s (portId x) = true ∧ (ctl s (portId x)).ready = true ∧ fbit s
      PRT_STAT PRT_STAT_UPDATING = false) ∧
    (∃ (x : HPort) (i : BitVec 16) (g : BitVec 20) (s : State), portExists s (portId x) = true ∧ (ctl s (portId x)).ready =
      true ∧ claimed s baseMEP = false ∧ fbit s MEP_RET_STAT MEP_RET_STAT_BUSY = false) ∧
    (∃ (x : HPort) (i : BitVec 16) (r : BitVec 2) (s : State), portExists s (portId x) = true ∧ (ctl s (portId x)).ready =
      true ∧ claimed s baseMEP = false) ∧
    (∃ (x : HPort) (i : BitVec 16) (r : BitVec 2) (s : State), portExists s (portId x) = true ∧ (ctl s (portId x)).ready =
      true ∧ claimed s baseMEP = false) ∧
    (∃ (x : HPort) (i : BitVec 16) (r : BitVec 2) (s : State), portExists s (portId x) = true ∧ (ctl s (portId x)).ready =
      true ∧ claimed s baseMEP = false) ∧
    (∃ (x : HPort) (i : BitVec 16) (r : BitVec 8) (b c : BitVec 32) (s : State), portExists s (portId x) = true ∧ (ctl s
      (portId x)).ready = true ∧ claimed s baseMEP = false ∧ claimed s baseFLS = false ∧ codesOk 4 r.toNat = true ∧ r.toNat %
      4 = 0 ∧ codesOk 16 b.toNat = true ∧ codesOk 16 c.toNat = true) ∧
    (∃ (x : HPort) (i : BitVec 16) (a : BitVec 6) (b : Bool) (j : BitVec 4) (u : Nat) (s : State), portExists s (portId x) =
      true ∧ (ctl s (portId x)).ready = true ∧ claimed s baseBGW = false ∧ headsOf s (a.toNat / 2) (a.toNat % 2) ≠ [] ∧ (b =
      true → (headsOf s (a.toNat / 2) (a.toNat % 2)).contains j.toNat = true) ∧ actUnit (calPend s a.toNat (some (if b then
      some j.toNat else none, some (portId x, i.toNat)))) a.toNat = some u) :=
  ⟨⟨.a, 3, 1, 3, { ({ w [(TRS_UNIT_FACE 1, TRS_UNIT_FACE_KIND, 3), (TRS_UNIT_FACE 1, TRS_UNIT_FACE_STATE, 3), (TRS_UNIT_CAP 1, ⟨0, 32⟩, 4), (TRS_UNIT_ZSIZE 1, ⟨0, 32⟩, 1)] with trs := { rst.trs with run := { rst.trs.run with units := [⟨1, 0, 3, 0, 0, 0, 5, false, 10⟩], templates := [⟨5, 1, 1, 1, 0, 1, 0, 0, 0, 0, 0⟩], binds := [⟨1, 0, 1, 0, 3, 0⟩], speeds := [(1, [⟨7200, 0, true⟩])] } }, zmp := { rst.zmp with maps := [(0, ⟨[(0, 4, 100, 20, 8)], 4, 0⟩)] } }) with host := { rst.host with ctlA := { rst.host.ctlA with ready := true } } }, by decide +kernel⟩,
    ⟨.a, 3, 9, 0, { rst with host := { rst.host with ctlA := { rst.host.ctlA with ready := true } } }, by decide⟩,
    ⟨.a, 3, 2, { rst with host := { rst.host with ctlA := { rst.host.ctlA with ready := true } } }, by decide⟩,
    ⟨.a, 3, 2, { rst with host := { rst.host with ctlA := { rst.host.ctlA with ready := true } } }, by decide⟩,
    ⟨.a, 3, 2, { rst with host := { rst.host with ctlA := { rst.host.ctlA with ready := true } } }, by decide⟩,
    ⟨.a, 3, 2, { rst with host := { rst.host with ctlA := { rst.host.ctlA with ready := true } } }, by decide⟩,
    ⟨.a, 3, 0, { (w [(xclaim (baseSPN 0), XCLAIM_EXPERT, 1)]) with host := { rst.host with ctlA := { rst.host.ctlA with ready := true } } }, by decide⟩,
    ⟨.a, 3, 0, 0, { ({ w [(TRS_UNIT_FACE 3, TRS_UNIT_FACE_KIND, 3), (TRS_UNIT_FACE 3, TRS_UNIT_FACE_STATE, 1)] with trs := { rst.trs with run := { rst.trs.run with units := [⟨3, 0, 3, 0, 0, 0, 0, false, 0⟩], templates := [⟨0, 1, 1, 0, 0, 1, 0, 0, 0, 0, 0⟩], speeds := [(1, [⟨7200, 0, true⟩])] } } }) with host := { rst.host with ctlA := { rst.host.ctlA with ready := true } } }, by decide⟩,
    ⟨0, (0, 3), { w [(SPN_STAT 0, SPN_STAT_STATE, 11)] with spn := [(0, { spnOf rst 0 with testCmd := some (0, 3) })] }, by decide⟩,
    ⟨.a, 3, 0, 1, { rst with host := { rst.host with ctlA := { rst.host.ctlA with ready := true } } }, by decide⟩,
    ⟨.a, 3, { (w [(PRT_STAT, PRT_STAT_ROLE, 1), (PRT_STAT, PRT_STAT_PARTNER, 1), (PRT_STAT, PRT_STAT_PARTNER_ROLE, 2), (PRT_STAT, PRT_STAT_MIRROR_VALID, 1)]) with host := { rst.host with ctlA := { rst.host.ctlA with ready := true } } }, by decide⟩,
    ⟨.a, 3, { rst with host := { rst.host with ctlA := { rst.host.ctlA with ready := true } } }, by decide⟩,
    ⟨.a, 3, 5, { rst with host := { rst.host with ctlA := { rst.host.ctlA with ready := true } } }, by decide⟩,
    ⟨.a, 3, 0, { rst with host := { rst.host with ctlA := { rst.host.ctlA with ready := true } } }, by decide⟩,
    ⟨.a, 3, 0, { rst with host := { rst.host with ctlA := { rst.host.ctlA with ready := true } } }, by decide⟩,
    ⟨.a, 3, 0, { rst with host := { rst.host with ctlA := { rst.host.ctlA with ready := true } } }, by decide⟩,
    ⟨.a, 3, 0x24, 0, 0, { rst with host := { rst.host with ctlA := { rst.host.ctlA with ready := true } } }, by decide⟩,
    ⟨.a, 3, 0, true, 0, 10, { ({ w [(TRS_UNIT_FACE 1, TRS_UNIT_FACE_KIND, 3), (TRS_UNIT_FACE 1, TRS_UNIT_FACE_STATE, 3), (TRS_UNIT_CAP 1, ⟨0, 32⟩, 4), (TRS_UNIT_ZSIZE 1, ⟨0, 32⟩, 1)] with trs := { rst.trs with run := { rst.trs.run with units := [⟨1, 0, 3, 0, 0, 0, 5, false, 10⟩], templates := [⟨5, 1, 1, 1, 0, 1, 0, 0, 0, 0, 0⟩], binds := [⟨1, 0, 1, 0, 3, 0⟩], speeds := [(1, [⟨7200, 0, true⟩])] } }, zmp := { rst.zmp with maps := [(0, ⟨[(0, 4, 100, 20, 8)], 4, 0⟩)] } }) with host := { rst.host with ctlA := { rst.host.ctlA with ready := true } } }, by decide +kernel⟩⟩

/-- The hypotheses of `MemoryAndCache` are met. -/
theorem witness_MemoryAndCache :
    (∃ (m : Master) (v : BitVec 2) (s : State), qcsReach s m (HIF_CTRL) = true) ∧
    (∃ (m : Master) (s : State), accessUndefined s m HIF_SLOTS = false ∧ hostPort m = none) ∧
    (∃ (t : BitVec 16) (n : Nat) (s : State), bandOf [100, 250, 400, 550, 650] 20 (fget s BUF_STAT BUF_STAT_BAND) (tempOf t) =
      n ∧ n ≠ fget s BUF_STAT BUF_STAT_BAND) ∧
    (∃ (t : BitVec 16) (s : State), bandOf [100, 250, 400, 550, 650] 20 (fget s BUF_STAT BUF_STAT_BAND) (tempOf t) = fget s
      BUF_STAT BUF_STAT_BAND) ∧
    (∃ (m : Master) (v : Word) (s : State), qcsReach s m (MEP_FLIP_CTRL) = true ∧ flipWriter s m = true) ∧
    (∃ (m : Master) (v : Word) (s : State), qcsReach s m (MEP_FLIP_CTRL) = true ∧ flipWriter s m = false) ∧
    (∃ (m : Master) (g : BitVec 20) (s : State), qcsReach s m (MEP_RET_CMD) = true ∧ fbit s MEP_RET_STAT MEP_RET_STAT_BUSY =
      false) ∧
    (∃ (r : Nat) (s : State), fbit s MEP_RET_STAT MEP_RET_STAT_BUSY = true ∧ retireResult s (fget s MEP_RET_CMD
      MEP_RET_CMD_PAGE) = r) ∧
    (∃ (m : Master) (i : Fin 64) (s : State), qcsReach s m (MEP_CELOG_W0 i) = true) ∧
    (∃ (m : Master)  (s : State), qcsReach s m (MEP_CELOG_STAT) = true) ∧
    (∃ (m : Master)  (s : State), qcsReach s m (MEP_CTRL) = true) ∧
    (∃ (i : BitVec 16) (x : CacheFill) (f : Nat) (s : State), s.cch.fills[i.toNat]? = some x ∧ x.wb = false ∧ x.frame = some f
      ∧ cchState s ≠ 0) ∧
    (∃ (i : BitVec 16) (x : CacheFill) (f : Nat) (l : CacheLine) (s : State), s.cch.fills[i.toNat]? = some x ∧ x.wb = true ∧
      x.frame = some f ∧ cacheLine s f = some l ∧ admitsAll s (writesAhead s x.order ++ lineExts s l) = true ∧ x.hit = false) ∧
    (∃ (i : BitVec 16) (x : CacheFill) (f : Nat) (l : CacheLine) (s : State), s.cch.fills[i.toNat]? = some x ∧ x.wb = true ∧
      x.frame = some f ∧ cacheLine s f = some l ∧ admitsAll s (writesAhead s x.order ++ lineExts s l) = false) ∧
    (∃ (i : BitVec 8) (d : StrideDet) (s : State), s.cch.dets[i.toNat]? = some d ∧ pfMay s d = true) ∧
    (∃ (i : BitVec 8) (d : StrideDet) (s : State), s.cch.dets[i.toNat]? = some d ∧ pfMay s d = false) ∧
    (∃ (m : Master)  (s : State), qcsReach s m (CCH_CTRL) = true) ∧
    (∃ (t : State) (s : State), cchState s = 1 ∧ drainLines s = some t) ∧
    (∃ (s : State), cchState s = 1 ∧ drainLines s = none) ∧
    (∃ (m : Master)  (s : State), qcsReach s m (CCH_CTRL) = true) ∧
    (∃ (m : Master)  (s : State), qcsReach s m (CCH_CTRL) = true) ∧
    (∃ (t : State) (s : State), fbit s CCH_STAT CCH_STAT_INV_BUSY = true ∧ drainLines s = some t ∧ t.cch.enWait = false) :=
  ⟨⟨.ridge0, 1, rst, by decide⟩,
    ⟨.ridge0, rst, by decide⟩,
    ⟨300, 2, rst, by decide⟩,
    ⟨0, rst, by decide⟩,
    ⟨.ridge0, 1, rst, by decide⟩,
    ⟨.bmc, 1, rst, by decide⟩,
    ⟨.ridge0, 5, rst, by decide⟩,
    ⟨2, w [(MEP_RET_STAT, MEP_RET_STAT_BUSY, 1)], by decide +kernel⟩,
    ⟨.ridge0, 3, rst, by decide⟩,
    ⟨.ridge0, rst, by decide⟩,
    ⟨.ridge0, rst, by decide⟩,
    ⟨0, ⟨some 5, 1, 0, 1, 0, 0, false, false, false, false, 0⟩, 5, { w [(CCH_STAT, CCH_STAT_STATE, 2)] with cch := { rst.cch with fills := [⟨some 5, 1, 0, 1, 0, 0, false, false, false, false, 0⟩] } }, by decide⟩,
    ⟨0, ⟨some 5, 1, 0, 1, 0, 0, true, false, false, false, 0⟩, 5, ⟨1, 0, 1, 0, [], false⟩, { rst with cch := { rst.cch with fills := [⟨some 5, 1, 0, 1, 0, 0, true, false, false, false, 0⟩], lines := [(5, ⟨1, 0, 1, 0, [], false⟩)] } }, by decide +kernel⟩,
    ⟨0, ⟨some 5, 1, 0, 1, 0, 0, true, false, false, false, 0⟩, 5, ⟨1, 0, 1, 1, [], false⟩, { rst with cch := { rst.cch with fills := [⟨some 5, 1, 0, 1, 0, 0, true, false, false, false, 0⟩], lines := [(5, ⟨1, 0, 1, 1, [], false⟩)] } }, by decide +kernel⟩,
    ⟨0, ⟨0, 1, 0, 0, 32, 32, 4, 0⟩, { (w [(CCH_STAT, CCH_STAT_STATE, 2), (CCH_CTRL, CCH_CTRL_PF_EN, 1), (CCH_PF_CTRL, CCH_PF_CTRL_DEPTH, 16)] ({ w [(TRS_UNIT_FACE 1, TRS_UNIT_FACE_KIND, 3), (TRS_UNIT_FACE 1, TRS_UNIT_FACE_STATE, 3), (TRS_UNIT_CAP 1, ⟨0, 32⟩, 4), (TRS_UNIT_ZSIZE 1, ⟨0, 32⟩, 1)] with trs := { rst.trs with run := { rst.trs.run with units := [⟨1, 0, 3, 0, 0, 0, 5, false, 10⟩], templates := [⟨5, 1, 1, 1, 0, 1, 0, 0, 0, 0, 0⟩], binds := [⟨1, 0, 1, 0, 3, 0⟩], speeds := [(1, [⟨7200, 0, true⟩])] } }, zmp := { rst.zmp with maps := [(0, ⟨[(0, 4, 100, 20, 8)], 4, 0⟩)] } })) with cch := { rst.cch with dets := [⟨0, 1, 0, 0, 32, 32, 4, 0⟩] } }, by decide +kernel⟩,
    ⟨0, ⟨0, 1, 0, 0, 32, 32, 4, 0⟩, { rst with cch := { rst.cch with dets := [⟨0, 1, 0, 0, 32, 32, 4, 0⟩] } }, by decide +kernel⟩,
    ⟨.ridge0, rst, by decide⟩,
    ⟨w [(CCH_STAT, CCH_STAT_STATE, 1)], w [(CCH_STAT, CCH_STAT_STATE, 1)], by decide +kernel⟩,
    ⟨{ w [(CCH_STAT, CCH_STAT_STATE, 1)] with cch := { rst.cch with lines := [(5, ⟨1, 0, 1, 1, [], false⟩)] } }, by decide +kernel⟩,
    ⟨.ridge0, rst, by decide⟩,
    ⟨.ridge0, rst, by decide⟩,
    ⟨w [(CCH_STAT, CCH_STAT_INV_BUSY, 1)], w [(CCH_STAT, CCH_STAT_INV_BUSY, 1)], by decide +kernel⟩⟩

/-- The hypotheses of `LedgerAndSafe` are met. -/
theorem witness_LedgerAndSafe :
    (∃ (v : BitVec 12) (s : State), inSafe (fset s BAL_VCAP BAL_VCAP_VCAP (bankVolts s v.toNat)) = false) ∧
    (∃ (v : BitVec 12) (s : State), inSafe (fset s BAL_VCAP BAL_VCAP_VCAP (bankVolts s v.toNat)) = true) ∧
    (∃ (s : State), 2 ≤ mode s ∧ mode s ≠ 9 ∧ isActiveRole (fsetb s BAL_STAT BAL_STAT_PFAIL true) = true ∧ inSafe (fsetb s
      BAL_STAT BAL_STAT_PFAIL true) = false ∧ mode (fsetb s BAL_STAT BAL_STAT_PFAIL true) = mode s) ∧
    (∃ (s : State), inSafe s = true ∧ safePhase s = 1) ∧
    (∃ (s : State), inSafe s = true ∧ safePhase s = 2) ∧
    (∃ (s : State), inSafe (fsetb s BAL_STAT BAL_STAT_PFAIL false) = true) ∧
    (∃ (s : State), inSafe (fsetb s BAL_STAT BAL_STAT_PFAIL false) = false) ∧
    (∃ (s : State), inSafe s = true ∧ safePhase s = 4 ∧ fbit s BAL_STAT BAL_STAT_PFAIL = false) ∧
    (∃ (s : State), inSafe s = true ∧ (safePhase s ≠ 4 ∨ fbit s BAL_STAT BAL_STAT_PFAIL = true)) :=
  ⟨⟨5000, rst, by decide⟩,
    ⟨5000, w [(BAL_STAT, BAL_STAT_SAFE, 1)], by decide⟩,
    ⟨w [(PWR_MODE, PWR_MODE_MODE, 4), (PRT_STAT, PRT_STAT_ROLE, 1)], by decide⟩,
    ⟨w [(BAL_STAT, BAL_STAT_SAFE, 1), (BAL_STAT, BAL_STAT_PHASE, 1)], by decide⟩,
    ⟨w [(BAL_STAT, BAL_STAT_SAFE, 1), (BAL_STAT, BAL_STAT_PHASE, 2)], by decide⟩,
    ⟨w [(BAL_STAT, BAL_STAT_SAFE, 1)], by decide⟩,
    ⟨rst, by decide⟩,
    ⟨w [(BAL_STAT, BAL_STAT_SAFE, 1), (BAL_STAT, BAL_STAT_PHASE, 4)], by decide⟩,
    ⟨w [(BAL_STAT, BAL_STAT_SAFE, 1), (BAL_STAT, BAL_STAT_PHASE, 3)], by decide⟩⟩

/-- The hypotheses of `ClocksAndDomains` are met. -/
theorem witness_ClocksAndDomains :
    (∃ (s : State), s.pwr.vaon = true) ∧
    (∃ (b : Bool) (s : State), mode s = 0 ∧ s.pwr.vaon = true) ∧
    (∃ (s : State), mode s ≠ 0 ∧ cleanEntry s = true) ∧
    (∃ (s : State), mode s ≠ 0 ∧ cleanEntry s = false) ∧
    (∃ (c : Fin 5) (s : State), mode s = 0 ∧ s.pwr.vaon = true ∧ bitOf (rd s PWR_WAKE_EN) c = true ∧ s.pwr.wakeLow = false) ∧
    (∃ (c : Fin 5) (s : State), mode s = 0 ∧ s.pwr.vaon = true ∧ bitOf (rd s PWR_WAKE_EN) c = true ∧ s.pwr.wakeLow = true) ∧
    (∃ (k : Fin 17) (s : State), mode s ≠ 0 ∧ bitOf (clkWord s) (pllBit k) = true ∧ k.val < 4) ∧
    (∃ (k : Fin 17) (s : State), mode s ≠ 0 ∧ bitOf (clkWord s) (pllBit k) = true ∧ 8 ≤ k.val ∧ k.val < 16) ∧
    (∃ (n : Fin 477) (s : State), s.pwr.wanted.contains n.val = true ∧ domBlocked s n = false ∧ envHolds s n = false ∧ (n.val
      < 411 ∨ 427 ≤ n.val ∨ fbit s PWR_CLK PWR_CLK_BRD = true)) ∧
    (∃ (n : Fin 477) (s : State), s.pwr.wanted.contains n.val = true ∧ (domBlocked s n = true ∨ envHolds s n = true)) ∧
    (∃ (n : Fin 477) (s : State), s.pwr.wanted.contains n.val = true ∧ domBlocked s n = false ∧ envHolds s n = false) ∧
    (∃ (m : Master) (i : Fin 15) (v : Word) (s : State), qcsReach s m (PWR_DOM_HOLD i) = true) ∧
    (∃ (m : Master) (i : Fin 15) (v : Word) (s : State), qcsReach s m (PWR_DOM_BLOCK i) = true) ∧
    (∃ (s : State), mode s ≠ 0) ∧
    (∃ (s : State), mode s ≠ 0) :=
  ⟨⟨{ rst with pwr := { rst.pwr with vaon := true } }, by decide⟩,
    ⟨true, { w [(PWR_MODE, PWR_MODE_MODE, 0)] with pwr := { rst.pwr with vaon := true } }, by decide⟩,
    ⟨w [(PWR_MODE, PWR_MODE_MODE, 2), (PWR_MODE, PWR_MODE_PREV, 0xA)], by decide⟩,
    ⟨w [(PWR_MODE, PWR_MODE_MODE, 4)], by decide⟩,
    ⟨1, { w [(PWR_MODE, PWR_MODE_MODE, 0), (PWR_WAKE_EN, ⟨0, 5⟩, 31)] with pwr := { rst.pwr with vaon := true } }, by decide⟩,
    ⟨1, { w [(PWR_MODE, PWR_MODE_MODE, 0), (PWR_WAKE_EN, ⟨0, 5⟩, 31)] with pwr := { rst.pwr with vaon := true, wakeLow := true } }, by decide⟩,
    ⟨0, w [(PWR_MODE, PWR_MODE_MODE, 4), (PWR_CLK, ⟨0, 20⟩, 0xFFFFF)], by decide⟩,
    ⟨8, w [(PWR_MODE, PWR_MODE_MODE, 4), (PWR_CLK, ⟨0, 20⟩, 0xFFFFF), (PWR_DOM_STAT 0, ⟨11, 1⟩, 1)], by decide⟩,
    ⟨80, { rst with pwr := { rst.pwr with wanted := [80] } }, by decide⟩,
    ⟨140, { w [(PWR_DOM_BLOCK 4, ⟨12, 1⟩, 1)] with pwr := { rst.pwr with wanted := [140] } }, by decide⟩,
    ⟨80, { rst with pwr := { rst.pwr with wanted := [80] } }, by decide⟩,
    ⟨.ridge0, 3, 1, rst, by decide⟩,
    ⟨.ridge0, 3, 1, rst, by decide⟩,
    ⟨w [(PWR_MODE, PWR_MODE_MODE, 4)], by decide⟩,
    ⟨w [(PWR_MODE, PWR_MODE_MODE, 4)], by decide⟩⟩

/-- The hypotheses of `ModesAndResets` are met. -/
theorem witness_ModesAndResets :
    (∃ (c n k : Nat) (s : State), 2 ≤ mode s ∧ windowChoice s = c ∧ max 1 (fget s PWR_CFG PWR_CFG_WIN_N) = n ∧ (if c =
      s.pwr.cand then s.pwr.candN + 1 else 1) = k) ∧
    (∃ (m : Master) (v : BitVec 4) (s : State), qcsReach s m (PWR_MODE) = true ∧ forceOk v.toNat = true) ∧
    (∃ (m : Master) (v : BitVec 4) (s : State), qcsReach s m (PWR_MODE) = true ∧ forceOk v.toNat = false) ∧
    (∃ (s : State), force s = 0xB ∧ ruleApplies s = true ∧ inSafe s = false ∧ s.zmp.dirty = []) ∧
    (∃ (l : List (BitVec 16)) (s : State), mode s ≠ 0) ∧
    (∃ (m : Master) (s : State), accessUndefined s m PWR_MEAS = false ∧ hostPort m = none) ∧
    (∃ (b : Bool) (s : State), mode s ≠ 0) ∧
    (∃ (m : Master) (v : Word) (s : State), qcsReach s m (PWR_RST) = true ∧ getF v PWR_RST_KEY = 0x7A5C ∧ getF v PWR_RST_GO =
      1) ∧
    (∃ (m : Master) (v : Word) (s : State), qcsReach s m (PWR_RST) = true ∧ getF v PWR_RST_KEY ≠ 0x7A5C) ∧
    (∃ (m : Master)  (s : State), qcsReach s m (PWR_WDOG) = true) ∧
    (∃ (s : State), uptime s = 2 ^ 32 - 1 ∧ s.pwr.vaon = true ∧ mode (wrN s PWR_UPTIME 0) ≠ 0) ∧
    (∃ (b : Fin 3) (s : State), mode s = 0) ∧
    (∃ (b : Fin 3) (n : Nat) (s : State), mode s ≠ 0 ∧ b.val ≠ 2 ∧ minWs (fset s FLS_STAT FLS_STAT_VBAND b) = some n ∧ claimed
      (fset s FLS_STAT FLS_STAT_VBAND b) baseFLS = false ∧ s.pwr.bootStep ≠ 0) ∧
    (∃ (s : State), mode s ≠ 0) ∧
    (∃ (s : State), mode s ≠ 0) :=
  ⟨⟨3, 3, 1, w [(PWR_MODE, PWR_MODE_MODE, 4)], by decide⟩,
    ⟨.ridge0, 4, rst, by decide⟩,
    ⟨.ridge0, 1, rst, by decide⟩,
    ⟨w [(PWR_MODE, PWR_MODE_MODE, 4), (PWR_MODE, PWR_MODE_FORCE, 0xB), (PRT_STAT, PRT_STAT_ROLE, 1)], by decide⟩,
    ⟨[100], w [(PWR_MODE, PWR_MODE_MODE, 4)], by decide⟩,
    ⟨.ridge0, rst, by decide⟩,
    ⟨true, w [(PWR_MODE, PWR_MODE_MODE, 4)], by decide⟩,
    ⟨.ridge0, 0x7A5C0001, rst, by decide⟩,
    ⟨.ridge0, 1, rst, by decide⟩,
    ⟨.ridge0, rst, by decide⟩,
    ⟨{ w [(PWR_UPTIME, ⟨0, 32⟩, 0xFFFFFFFF), (PWR_MODE, PWR_MODE_MODE, 4)] with pwr := { rst.pwr with vaon := true } }, by decide⟩,
    ⟨1, w [(PWR_MODE, PWR_MODE_MODE, 0)], by decide⟩,
    ⟨1, 0, { w [(PWR_MODE, PWR_MODE_MODE, 4)] with pwr := { rst.pwr with bootStep := 3 } }, by decide⟩,
    ⟨w [(PWR_MODE, PWR_MODE_MODE, 4)], by decide⟩,
    ⟨w [(PWR_MODE, PWR_MODE_MODE, 4)], by decide⟩⟩

/-- The hypotheses of `BootSteps` are met. -/
theorem witness_BootSteps :
    (∃ (a b : BitVec 3) (l : List Byte) (s : State), mode s = 1 ∧ s.pwr.bootStep = 0 ∧ bankResult s (fget s PRT_FW
      PRT_FW_ACTIVE_BANK) (if fget s PRT_FW PRT_FW_ACTIVE_BANK = 0 then a.toNat else b.toNat) = 0) ∧
    (∃ (a b : BitVec 3) (l : List Byte) (s : State), mode s = 1 ∧ s.pwr.bootStep = 0 ∧ bankResult s (fget s PRT_FW
      PRT_FW_ACTIVE_BANK) (if fget s PRT_FW PRT_FW_ACTIVE_BANK = 0 then a.toNat else b.toNat) ≠ 0 ∧ bankResult s (1 - fget s
      PRT_FW PRT_FW_ACTIVE_BANK) (if 1 - fget s PRT_FW PRT_FW_ACTIVE_BANK = 0 then a.toNat else b.toNat) = 0) ∧
    (∃ (a b : BitVec 3) (s : State), mode s = 1 ∧ s.pwr.bootStep = 0 ∧ bankResult s (fget s PRT_FW PRT_FW_ACTIVE_BANK) (if
      fget s PRT_FW PRT_FW_ACTIVE_BANK = 0 then a.toNat else b.toNat) ≠ 0 ∧ bankResult s (1 - fget s PRT_FW
      PRT_FW_ACTIVE_BANK) (if 1 - fget s PRT_FW PRT_FW_ACTIVE_BANK = 0 then a.toNat else b.toNat) ≠ 0) ∧
    (∃ (x : Nat × List Nat) (s : State), s.pwr.bootStep ≠ 0 ∧ mode s ≠ 0 ∧ s.fls.images.find? (fun x => x.1 == fget s PRT_FW
      PRT_FW_ACTIVE_BANK) = some x) ∧
    (∃ (s : State), mode s = 1 ∧ s.pwr.bootStep = 1) ∧
    (∃ (c : BitVec 8) (s : State), mode s = 1 ∧ s.pwr.bootStep = 1 ∧ c.toNat ≠ 255) ∧
    (∃ (s : State), mode s = 1 ∧ s.pwr.bootStep = 2) ∧
    (∃ (l : List (BitVec 7)) (r : State) (s : State), policiesTaken s = r ∧ inSafe r = false ∧ 2 ≤ mode r ∧ isActiveRole r =
      true) :=
  ⟨⟨0, 3, [], { w [(PWR_MODE, PWR_MODE_MODE, 1)] with pwr := { rst.pwr with bootStep := 0 } }, by decide⟩,
    ⟨2, 0, [], { w [(PWR_MODE, PWR_MODE_MODE, 1)] with pwr := { rst.pwr with bootStep := 0 } }, by decide⟩,
    ⟨2, 2, { w [(PWR_MODE, PWR_MODE_MODE, 1)] with pwr := { rst.pwr with bootStep := 0 } }, by decide⟩,
    ⟨(0, [7]), { w [(PWR_MODE, PWR_MODE_MODE, 4)] with pwr := { rst.pwr with bootStep := 3 }, fls := { rst.fls with images := [(0, [7])] } }, by decide⟩,
    ⟨{ w [(PWR_MODE, PWR_MODE_MODE, 1)] with pwr := { rst.pwr with bootStep := 1 } }, by decide⟩,
    ⟨127, { w [(PWR_MODE, PWR_MODE_MODE, 1)] with pwr := { rst.pwr with bootStep := 1 } }, by decide⟩,
    ⟨{ w [(PWR_MODE, PWR_MODE_MODE, 1)] with pwr := { rst.pwr with bootStep := 2 } }, by decide⟩,
    ⟨[], policiesTaken (w [(PWR_MODE, PWR_MODE_MODE, 4), (PRT_STAT, PRT_STAT_ROLE, 1)]), w [(PWR_MODE, PWR_MODE_MODE, 4), (PRT_STAT, PRT_STAT_ROLE, 1)], by decide +kernel⟩⟩

/-- The hypotheses of `TaskTurns` are met. -/
theorem witness_TaskTurns :
    (∃ (s : State), uptime s / 1000 ≠ s.bgw.agedTo) ∧
    (∃ (s : State), uptime s / 1000 = s.bgw.agedTo) ∧
    (∃ (a : Fin 64) (b : Bool) (c : BitVec 32) (d : BitVec 8) (r : State × Bool) (s : State), idleRevs (foreground (urgentWake
      (actStop s a) a) a c.toNat) a d.toNat = r ∧ r.2 = false) ∧
    (∃ (a : Fin 64) (b : Bool) (c : BitVec 32) (d : BitVec 8) (r : State × Bool) (s : State), idleRevs (foreground (urgentWake
      (actStop s a) a) a c.toNat) a d.toNat = r ∧ r.2 = true) ∧
    (∃ (a : Fin 64) (d : BitVec 32) (s : State), s.bgw.runs.any (fun x => x.2 == a.val && taskState s x.1 == 2) = true) ∧
    (∃ (x : HPort) (s : State), portExists s (portId x) = true ∧ nonMediaUrgent s = true ∧ fbit s BGW_CTRL BGW_CTRL_SHARE_EN =
      true) ∧
    (∃ (x : HPort) (s : State), portExists s (portId x) = true ∧ nonMediaUrgent s = false) ∧
    (∃ (a : Fin 64) (b : Bool) (s : State), taskRuns s a = true) ∧
    (∃ (p : Fin 32) (s : State), taskRuns s (128 + p.val) = true ∧ fbit s ZMP_CTRL ZMP_CTRL_MOVER_EN = true ∧ inSafe s =
      false) ∧
    (∃ (p : Fin 32) (s : State), taskRuns s (160 + p.val) = true) ∧
    (∃ (p : Fin 32) (s : State), taskRuns s (160 + p.val) = true) ∧
    (∃ (p : Fin 32) (q : Nat) (s : State), taskRuns s (192 + p.val) = true ∧ (((surfHeads s p).map (·.1)).getD (fget s
      (BGW_TASK_PROG (192 + p.val)) BGW_TASK_PROG_UNITS % max 1 ((surfHeads s p).map (·.1)).length) 0) = q) ∧
    (∃ (l : List MemErr) (s : State), coreTask s 224 = true) ∧
    (∃ (a b : Bool) (s : State), coreTask s 225 = true) ∧
    (∃ (p : Nat) (s : State), coreTask s 226 = true ∧ s.trs.bound.getD (fget s (BGW_TASK_PROG 226) BGW_TASK_PROG_UNITS % max 1
      s.trs.bound.length) 0 = p ∧ sbUsable s p = true ∧ claimed s (baseTTH p) = false ∧ tsbHas s p 10 = false) :=
  ⟨⟨w [(PWR_UPTIME, ⟨0, 32⟩, 5000)], by decide⟩,
    ⟨rst, by decide⟩,
    ⟨0, true, 0, 0, idleRevs (foreground (urgentWake (actStop rst 0) 0) 0 0) 0 0, rst, by decide +kernel⟩,
    ⟨0, true, 0, 8, idleRevs (foreground (urgentWake (actStop (w [(THM_MECH_W0 0, THM_MECH_W0_LEVEL, 2)]) 0) 0) 0 0) 0 8, (w [(THM_MECH_W0 0, THM_MECH_W0_LEVEL, 2)]), by decide +kernel⟩,
    ⟨0, 9, { w [(BGW_TASK_CTRL 0, BGW_TASK_CTRL_STATE, 2)] with bgw := { rst.bgw with runs := [(0, 0)] } }, by decide⟩,
    ⟨.a, w [(BGW_TASK_CTRL 224, BGW_TASK_CTRL_STATE, 2), (BGW_CTRL, BGW_CTRL_SHARE_EN, 1)], by decide⟩,
    ⟨.a, rst, by decide⟩,
    ⟨0, true, w [(BGW_TASK_CTRL 0, BGW_TASK_CTRL_RUN, 1)], by decide⟩,
    ⟨0, w [(BGW_TASK_CTRL 128, BGW_TASK_CTRL_RUN, 1), (ZMP_CTRL, ZMP_CTRL_MOVER_EN, 1)], by decide⟩,
    ⟨0, w [(BGW_TASK_CTRL 160, BGW_TASK_CTRL_RUN, 1)], by decide⟩,
    ⟨0, w [(BGW_TASK_CTRL 160, BGW_TASK_CTRL_RUN, 1)], by decide⟩,
    ⟨0, 0, w [(BGW_TASK_CTRL 192, BGW_TASK_CTRL_RUN, 1)], by decide⟩,
    ⟨[], { w [(PWR_MODE, PWR_MODE_MODE, 4), (BGW_TASK_CTRL 224, BGW_TASK_CTRL_EN, 1)] with bgw := { rst.bgw with work := [(224, 5)] } }, by decide⟩,
    ⟨true, true, { w [(PWR_MODE, PWR_MODE_MODE, 4), (BGW_TASK_CTRL 225, BGW_TASK_CTRL_EN, 1)] with bgw := { rst.bgw with work := [(225, 5)] } }, by decide⟩,
    ⟨0, { w [(TTH_LINK_STAT 0, TTH_LINK_STAT_STATE, 5), (PWR_MODE, PWR_MODE_MODE, 4), (BGW_TASK_CTRL 226, BGW_TASK_CTRL_EN, 1)] with bgw := { rst.bgw with work := [(226, 5)] }, trs := { rst.trs with bound := [0] }, tth := [(0, { identOk := true })] }, by decide⟩⟩

/-- The hypotheses of `HeatAndCalibration` are met. -/
theorem witness_HeatAndCalibration :
    (∃ (k : Fin 93) (s : State), timedOut s k = true) ∧
    (∃ (k : Fin 93) (s : State), timedOut s k = false) ∧
    (∃ (s : State), 2 ≤ s.bgw.dieTrip) ∧
    (∃ (s : State), s.bgw.dieTrip < 2) ∧
    (∃ (p : Fin 32) (x : Nat × Nat) (s : State), s.bgw.b5Since.find? (fun x => x.1 == p.val) = some x ∧ s.bgw.hot.contains
      p.val = false ∧ mediaRuns s p = false ∧ (x.2 + 60000 ≤ uptime s ∨ 750 ≤ sgn 16 (fget s (THM_MECH_W0 p)
      THM_MECH_W0_TEMP))) ∧
    (∃ (a : Fin 64) (b : Bool) (u v : BitVec 16) (l : List (BitVec 16)) (j : CalJob) (s : State), s.bgw.jobs.find? (fun j =>
      j.act == a.val) = some j ∧ j.item ≠ 0) ∧
    (∃ (m : Master) (k : Bool) (v : Word) (s : State), qcsReach s m (BGW_CALQ_LO + 4 * b2n k) = true) ∧
    (∃ (a : Fin 64) (b : BitVec 2) (g d e f : BitVec 16) (l : List (BitVec 16)) (m : BitVec 16) (j : Nat) (s : State),
      taskRuns s (64 + a.val) = true ∧ (headsOf s (a / 2) (a % 2)).getD (fget s (BGW_TASK_PROG (64 + a.val))
      BGW_TASK_PROG_UNITS % max 1 (headsOf s (a / 2) (a % 2)).length) 0 = j) :=
  ⟨⟨1, { w [(PWR_UPTIME, ⟨0, 32⟩, 5000), (PWR_MODE, PWR_MODE_MODE, 4)] with bgw := { rst.bgw with readAt := [(1, 5)] } }, by decide⟩,
    ⟨1, rst, by decide⟩,
    ⟨{ rst with bgw := { rst.bgw with dieTrip := 2 } }, by decide⟩,
    ⟨{ rst with bgw := { rst.bgw with dieTrip := 1 } }, by decide⟩,
    ⟨0, (0, 5), { w [(PWR_UPTIME, ⟨0, 32⟩, 70000)] with bgw := { rst.bgw with b5Since := [(0, 5)] } }, by decide⟩,
    ⟨0, true, 1, 1, [], ⟨0, [0], 1, 0, [], false, []⟩, { rst with bgw := { rst.bgw with jobs := [⟨0, [0], 1, 0, [], false, []⟩] } }, by decide⟩,
    ⟨.ridge0, true, 1, rst, by decide⟩,
    ⟨0, 3, 1, 1, 1, 1, [], 0, 0, w [(BGW_TASK_CTRL 64, BGW_TASK_CTRL_RUN, 1)], by decide⟩⟩

/-- The hypotheses of `ArithmeticWords` are met. -/
theorem witness_ArithmeticWords :
    (∃ (f : Fin 64) (w : Nat) (s : State), fRuns s f = true ∧ fWord s (fPc s f) = some w ∧ mOp w = 1) ∧
    (∃ (f : Fin 64) (w : Nat) (s : State), fRuns s f = true ∧ fWord s (fPc s f) = some w ∧ mOp w = 2) ∧
    (∃ (f : Fin 64) (w : Nat) (s : State), fRuns s f = true ∧ fWord s (fPc s f) = some w ∧ mOp w = 3 ∧ w % 16 = 0) ∧
    (∃ (f : Fin 64) (w : Nat) (s : State), fRuns s f = true ∧ fWord s (fPc s f) = some w ∧ mOp w = 3 ∧ w % 16 = 1) ∧
    (∃ (f : Fin 64) (w : Nat) (s : State), fRuns s f = true ∧ fWord s (fPc s f) = some w ∧ mOp w = 3 ∧ w % 16 = 2) ∧
    (∃ (f : Fin 64) (w : Nat) (s : State), fRuns s f = true ∧ fWord s (fPc s f) = some w ∧ mOp w = 3 ∧ w % 16 = 3) ∧
    (∃ (f : Fin 64) (w : Nat) (s : State), fRuns s f = true ∧ fWord s (fPc s f) = some w ∧ mOp w = 3 ∧ w % 16 = 4) ∧
    (∃ (f : Fin 64) (w : Nat) (s : State), fRuns s f = true ∧ fWord s (fPc s f) = some w ∧ mOp w = 3 ∧ w % 16 = 5) ∧
    (∃ (f : Fin 64) (w : Nat) (s : State), fRuns s f = true ∧ fWord s (fPc s f) = some w ∧ mOp w = 3 ∧ w % 16 = 6) ∧
    (∃ (f : Fin 64) (w : Nat) (s : State), fRuns s f = true ∧ fWord s (fPc s f) = some w ∧ mOp w = 3 ∧ w % 16 = 7) ∧
    (∃ (f : Fin 64) (w : Nat) (s : State), fRuns s f = true ∧ fWord s (fPc s f) = some w ∧ mOp w = 3 ∧ w % 16 = 8) ∧
    (∃ (f : Fin 64) (w : Nat) (s : State), fRuns s f = true ∧ fWord s (fPc s f) = some w ∧ mOp w = 3 ∧ w % 16 = 9) ∧
    (∃ (f : Fin 64) (w : Nat) (s : State), fRuns s f = true ∧ fWord s (fPc s f) = some w ∧ mOp w = 3 ∧ w % 16 = 10) ∧
    (∃ (f : Fin 64) (w : Nat) (s : State), fRuns s f = true ∧ fWord s (fPc s f) = some w ∧ mOp w = 3 ∧ w % 16 = 11) ∧
    (∃ (f : Fin 64) (w : Nat) (s : State), fRuns s f = true ∧ fWord s (fPc s f) = some w ∧ mOp w = 3 ∧ w % 16 = 12) ∧
    (∃ (f : Fin 64) (w : Nat) (s : State), fRuns s f = true ∧ fWord s (fPc s f) = some w ∧ mOp w = 3 ∧ w % 16 = 13) ∧
    (∃ (f : Fin 64) (w : Nat) (s : State), fRuns s f = true ∧ fWord s (fPc s f) = some w ∧ mOp w = 3 ∧ w % 16 = 14) ∧
    (∃ (f : Fin 64) (w : Nat) (s : State), fRuns s f = true ∧ fWord s (fPc s f) = some w ∧ mOp w = 3 ∧ w % 16 = 15) :=
  ⟨⟨0, 0x11005, w [(PWR_DOM_STAT 2, ⟨11, 1⟩, 1), (MCS_FSEQ_W0 0, MCS_FSEQ_W0_PC, 0x8000), (MCS_FPRAM 0, ⟨0, 20⟩, 0x11005)], by decide⟩,
    ⟨0, 0x21005, w [(PWR_DOM_STAT 2, ⟨11, 1⟩, 1), (MCS_FSEQ_W0 0, MCS_FSEQ_W0_PC, 0x8000), (MCS_FPRAM 0, ⟨0, 20⟩, 0x21005)], by decide⟩,
    ⟨0, 0x31200, w [(PWR_DOM_STAT 2, ⟨11, 1⟩, 1), (MCS_FSEQ_W0 0, MCS_FSEQ_W0_PC, 0x8000), (MCS_FPRAM 0, ⟨0, 20⟩, 0x31200)], by decide⟩,
    ⟨0, 0x31201, w [(PWR_DOM_STAT 2, ⟨11, 1⟩, 1), (MCS_FSEQ_W0 0, MCS_FSEQ_W0_PC, 0x8000), (MCS_FPRAM 0, ⟨0, 20⟩, 0x31201)], by decide⟩,
    ⟨0, 0x31202, w [(PWR_DOM_STAT 2, ⟨11, 1⟩, 1), (MCS_FSEQ_W0 0, MCS_FSEQ_W0_PC, 0x8000), (MCS_FPRAM 0, ⟨0, 20⟩, 0x31202)], by decide⟩,
    ⟨0, 0x31203, w [(PWR_DOM_STAT 2, ⟨11, 1⟩, 1), (MCS_FSEQ_W0 0, MCS_FSEQ_W0_PC, 0x8000), (MCS_FPRAM 0, ⟨0, 20⟩, 0x31203)], by decide⟩,
    ⟨0, 0x31204, w [(PWR_DOM_STAT 2, ⟨11, 1⟩, 1), (MCS_FSEQ_W0 0, MCS_FSEQ_W0_PC, 0x8000), (MCS_FPRAM 0, ⟨0, 20⟩, 0x31204)], by decide⟩,
    ⟨0, 0x31205, w [(PWR_DOM_STAT 2, ⟨11, 1⟩, 1), (MCS_FSEQ_W0 0, MCS_FSEQ_W0_PC, 0x8000), (MCS_FPRAM 0, ⟨0, 20⟩, 0x31205)], by decide⟩,
    ⟨0, 0x31206, w [(PWR_DOM_STAT 2, ⟨11, 1⟩, 1), (MCS_FSEQ_W0 0, MCS_FSEQ_W0_PC, 0x8000), (MCS_FPRAM 0, ⟨0, 20⟩, 0x31206)], by decide⟩,
    ⟨0, 0x31207, w [(PWR_DOM_STAT 2, ⟨11, 1⟩, 1), (MCS_FSEQ_W0 0, MCS_FSEQ_W0_PC, 0x8000), (MCS_FPRAM 0, ⟨0, 20⟩, 0x31207)], by decide⟩,
    ⟨0, 0x31208, w [(PWR_DOM_STAT 2, ⟨11, 1⟩, 1), (MCS_FSEQ_W0 0, MCS_FSEQ_W0_PC, 0x8000), (MCS_FPRAM 0, ⟨0, 20⟩, 0x31208)], by decide⟩,
    ⟨0, 0x31209, w [(PWR_DOM_STAT 2, ⟨11, 1⟩, 1), (MCS_FSEQ_W0 0, MCS_FSEQ_W0_PC, 0x8000), (MCS_FPRAM 0, ⟨0, 20⟩, 0x31209)], by decide⟩,
    ⟨0, 0x3120A, w [(PWR_DOM_STAT 2, ⟨11, 1⟩, 1), (MCS_FSEQ_W0 0, MCS_FSEQ_W0_PC, 0x8000), (MCS_FPRAM 0, ⟨0, 20⟩, 0x3120A)], by decide⟩,
    ⟨0, 0x3120B, w [(PWR_DOM_STAT 2, ⟨11, 1⟩, 1), (MCS_FSEQ_W0 0, MCS_FSEQ_W0_PC, 0x8000), (MCS_FPRAM 0, ⟨0, 20⟩, 0x3120B)], by decide⟩,
    ⟨0, 0x3120C, w [(PWR_DOM_STAT 2, ⟨11, 1⟩, 1), (MCS_FSEQ_W0 0, MCS_FSEQ_W0_PC, 0x8000), (MCS_FPRAM 0, ⟨0, 20⟩, 0x3120C)], by decide⟩,
    ⟨0, 0x3120D, w [(PWR_DOM_STAT 2, ⟨11, 1⟩, 1), (MCS_FSEQ_W0 0, MCS_FSEQ_W0_PC, 0x8000), (MCS_FPRAM 0, ⟨0, 20⟩, 0x3120D)], by decide⟩,
    ⟨0, 0x3120E, w [(PWR_DOM_STAT 2, ⟨11, 1⟩, 1), (MCS_FSEQ_W0 0, MCS_FSEQ_W0_PC, 0x8000), (MCS_FPRAM 0, ⟨0, 20⟩, 0x3120E)], by decide⟩,
    ⟨0, 0x3120F, w [(PWR_DOM_STAT 2, ⟨11, 1⟩, 1), (MCS_FSEQ_W0 0, MCS_FSEQ_W0_PC, 0x8000), (MCS_FPRAM 0, ⟨0, 20⟩, 0x3120F)], by decide⟩⟩

/-- The hypotheses of `ControlWords` are met. -/
theorem witness_ControlWords :
    (∃ (f : Fin 64) (w : Nat) (s : State), fRuns s f = true ∧ fWord s (fPc s f) = some w ∧ mOp w = 0 ∧ mD w = 0) ∧
    (∃ (f : Fin 64) (w : Nat) (p : Nat) (l : List Nat) (s : State), fRuns s f = true ∧ fWord s (fPc s f) = some w ∧ mOp w = 0
      ∧ mD w = 1 ∧ (fseqOf s f).stack = p :: l) ∧
    (∃ (f : Fin 64) (w : Nat) (s : State), fRuns s f = true ∧ fWord s (fPc s f) = some w ∧ mOp w = 0 ∧ mD w = 1 ∧ (fseqOf s
      f).stack = []) ∧
    (∃ (f : Fin 64) (w : Nat) (s : State), fRuns s f = true ∧ fWord s (fPc s f) = some w ∧ mOp w = 0 ∧ mD w = 2 ∧ (fseqOf s
      f).queue = []) ∧
    (∃ (f : Fin 64) (w : Nat) (i : FInstr) (j : FInstr) (l : List FInstr) (s : State), fRuns s f = true ∧ fWord s (fPc s f) =
      some w ∧ mOp w = 0 ∧ mD w = 2 ∧ (fseqOf s f).queue = i :: l ∧
      { i with alone := if i.alone.isEmpty then aloneLanes s f i else i.alone } = j ∧ (courseHeld s f && needsSeek s f j) =
      true) ∧
    (∃ (f : Fin 64) (w : Nat) (i : FInstr) (j : FInstr) (l : List FInstr) (s : State), fRuns s f = true ∧ fWord s (fPc s f) =
      some w ∧ mOp w = 0 ∧ mD w = 2 ∧ (fseqOf s f).queue = i :: l ∧
      { i with alone := if i.alone.isEmpty then aloneLanes s f i else i.alone } = j ∧ (courseHeld s f && needsSeek s f j) =
      false) ∧
    (∃ (f : Fin 64) (w : Nat) (s : State), fRuns s f = true ∧ fWord s (fPc s f) = some w ∧ mOp w = 0 ∧ mD w = 3 ∧ rbit s
      (MCS_F_HALT_LO + 4 * (f.val / 32)) (f.val % 32) = true) ∧
    (∃ (f : Fin 64) (w : Nat) (s : State), fRuns s f = true ∧ fWord s (fPc s f) = some w ∧ mOp w = 0 ∧ mD w = 3 ∧ rbit s
      (MCS_F_HALT_LO + 4 * (f.val / 32)) (f.val % 32) = false) ∧
    (∃ (f : Fin 64) (w : Nat) (i : FInstr) (s : State), fRuns s f = true ∧ fWord s (fPc s f) = some w ∧ mOp w = 0 ∧ mD w = 4 ∧
      (fseqOf s f).cur = some i ∧ i.alone.length ≤ 1) ∧
    (∃ (f : Fin 64) (w : Nat) (i : FInstr) (s : State), fRuns s f = true ∧ fWord s (fPc s f) = some w ∧ mOp w = 0 ∧ mD w = 4 ∧
      (fseqOf s f).cur = some i ∧ 2 ≤ i.alone.length) ∧
    (∃ (f : Fin 64) (w : Nat) (s : State), fRuns s f = true ∧ fWord s (fPc s f) = some w ∧ mOp w = 4 ∧ fSticky (mD w) = false) ∧
    (∃ (f : Fin 64) (w : Nat) (s : State), fRuns s f = true ∧ fWord s (fPc s f) = some w ∧ mOp w = 5 ∧ fSticky (mD w) = false) ∧
    (∃ (f : Fin 64) (w : Nat) (s : State), fRuns s f = true ∧ fWord s (fPc s f) = some w ∧ mOp w = 4 ∧ fSticky (mD w) = true ∧
      fCond s f (mD w) = true) ∧
    (∃ (f : Fin 64) (w : Nat) (s : State), fRuns s f = true ∧ fWord s (fPc s f) = some w ∧ mOp w = 6) ∧
    (∃ (f : Fin 64) (w : Nat) (s : State), fRuns s f = true ∧ fWord s (fPc s f) = some w ∧ mOp w = 7 ∧ (fseqOf s
      f).stack.length < 4) ∧
    (∃ (f : Fin 64) (w : Nat) (s : State), fRuns s f = true ∧ fWord s (fPc s f) = some w ∧ mOp w = 7 ∧ 4 ≤ (fseqOf s
      f).stack.length) ∧
    (∃ (f : Fin 64) (w : Nat) (s : State), fRuns s f = true ∧ fWord s (fPc s f) = some w ∧ mOp w = 0xB) ∧
    (∃ (z : Fin 8) (t w : Nat) (s : State), zPick s z = some t ∧ zWord s (zthread s z t).pc = some w ∧ mOp w = 0xC) ∧
    (∃ (z : Fin 8) (t : Fin 64) (c n : Nat) (s : State), (zthread s z t).wait = some (.cond c n) ∧ n ≠ 0 ∧ threadBusy (zthread
      s z t) = true ∧ zCond s z t c = false) ∧
    (∃ (f : Fin 64) (w : Nat) (s : State), fRuns s f = true ∧ fWord s (fPc s f) = some w ∧ mOp w = 0xD ∧ w / 2 ^ 15 % 2 = 1) ∧
    (∃ (f : Fin 64) (w : Nat) (s : State), fRuns s f = true ∧ fWord s (fPc s f) = some w ∧ mOp w = 0xD ∧ w / 2 ^ 15 % 2 = 0) ∧
    (∃ (z : Fin 8) (t w : Nat) (a : Nat) (l : List SecWork) (s : State), zPick s z = some t ∧ zWord s (zthread s z t).pc =
      some w ∧ mOp w = 0xE ∧ w / 2 ^ 6 % 64 = a ∧ qRoom (zIssue s z t) a = true) ∧
    (∃ (z : Fin 8) (t w : Nat) (a : Nat) (l : List SecWork) (s : State), zPick s z = some t ∧ zWord s (zthread s z t).pc =
      some w ∧ mOp w = 0xE ∧ w / 2 ^ 6 % 64 = a ∧ qRoom (zIssue s z t) a = false) ∧
    (∃ (f : Fin 64) (w : Nat) (s : State), fRuns s f = true ∧ fWord s (fPc s f) = some w ∧ illegalWord true w = true ∧ 0x100 ≤
      fPc s f) ∧
    (∃ (f : Fin 64) (w : Nat) (s : State), fRuns s f = true ∧ fWord s (fPc s f) = some w) ∧
    (∃ (z : Fin 8) (t w : Nat) (s : State), zPick s z = some t ∧ zWord s (zthread s z t).pc = some w ∧ mOp w = 6) ∧
    (∃ (z : Fin 8) (t w : Nat) (s : State), zPick s z = some t ∧ zWord s (zthread s z t).pc = some w ∧ mOp w = 0 ∧ mD w = 4) :=
  ⟨⟨0, 0x00000, w [(PWR_DOM_STAT 2, ⟨11, 1⟩, 1), (MCS_FSEQ_W0 0, MCS_FSEQ_W0_PC, 0x8000), (MCS_FPRAM 0, ⟨0, 20⟩, 0x00000)], by decide⟩,
    ⟨0, 0x01000, 5, [], { w [(PWR_DOM_STAT 2, ⟨11, 1⟩, 1), (MCS_FSEQ_W0 0, MCS_FSEQ_W0_PC, 0x8000), (MCS_FPRAM 0, ⟨0, 20⟩, 0x01000)] with mcs := { rst.mcs with fseq := [(0, { stack := [5] })] } }, by decide⟩,
    ⟨0, 0x01000, w [(PWR_DOM_STAT 2, ⟨11, 1⟩, 1), (MCS_FSEQ_W0 0, MCS_FSEQ_W0_PC, 0x8000), (MCS_FPRAM 0, ⟨0, 20⟩, 0x01000)], by decide⟩,
    ⟨0, 0x02000, w [(PWR_DOM_STAT 2, ⟨11, 1⟩, 1), (MCS_FSEQ_W0 0, MCS_FSEQ_W0_PC, 0x8000), (MCS_FPRAM 0, ⟨0, 20⟩, 0x02000)], by decide⟩,
    ⟨0, 0x02000, ⟨256, 0, 0, 0, [], []⟩, ⟨256, 0, 0, 0, [], []⟩, [], { w [(PWR_DOM_STAT 2, ⟨11, 1⟩, 1), (MCS_FSEQ_W0 0, MCS_FSEQ_W0_PC, 0x8000), (MCS_FPRAM 0, ⟨0, 20⟩, 0x02000)] with slices := [(0, { slice rst 0 with wait := [⟨0, 0, 0, 0, 0, 0, 0⟩] })], lanes := [(0, { slane rst 0 0 with tgt := 99 })], mcs := { rst.mcs with fseq := [(0, { queue := [⟨256, 0, 0, 0, [], []⟩] })] } }, by decide⟩,
    ⟨0, 0x02000, ⟨256, 0, 0, 0, [], []⟩, ⟨256, 0, 0, 0, [], []⟩, [], { w [(PWR_DOM_STAT 2, ⟨11, 1⟩, 1), (MCS_FSEQ_W0 0, MCS_FSEQ_W0_PC, 0x8000), (MCS_FPRAM 0, ⟨0, 20⟩, 0x02000)] with mcs := { rst.mcs with fseq := [(0, { queue := [⟨256, 0, 0, 0, [], []⟩] })] } }, by decide⟩,
    ⟨0, 0x03000, w [(PWR_DOM_STAT 2, ⟨11, 1⟩, 1), (MCS_FSEQ_W0 0, MCS_FSEQ_W0_PC, 0x8000), (MCS_FPRAM 0, ⟨0, 20⟩, 0x03000), (MCS_F_HALT_LO, ⟨0, 1⟩, 1)], by decide⟩,
    ⟨0, 0x03000, w [(PWR_DOM_STAT 2, ⟨11, 1⟩, 1), (MCS_FSEQ_W0 0, MCS_FSEQ_W0_PC, 0x8000), (MCS_FPRAM 0, ⟨0, 20⟩, 0x03000)], by decide⟩,
    ⟨0, 0x04000, ⟨256, 0, 0, 0, [], []⟩, { w [(PWR_DOM_STAT 2, ⟨11, 1⟩, 1), (MCS_FSEQ_W0 0, MCS_FSEQ_W0_PC, 0x8000), (MCS_FPRAM 0, ⟨0, 20⟩, 0x04000)] with mcs := { rst.mcs with fseq := [(0, { cur := some ⟨256, 0, 0, 0, [], []⟩ })] } }, by decide⟩,
    ⟨0, 0x04000, ⟨256, 0, 0, 0, [], [0, 1]⟩, { w [(PWR_DOM_STAT 2, ⟨11, 1⟩, 1), (MCS_FSEQ_W0 0, MCS_FSEQ_W0_PC, 0x8000), (MCS_FPRAM 0, ⟨0, 20⟩, 0x04000)] with mcs := { rst.mcs with fseq := [(0, { cur := some ⟨256, 0, 0, 0, [], [0, 1]⟩ })] } }, by decide⟩,
    ⟨0, 0x40000, w [(PWR_DOM_STAT 2, ⟨11, 1⟩, 1), (MCS_FSEQ_W0 0, MCS_FSEQ_W0_PC, 0x8000), (MCS_FPRAM 0, ⟨0, 20⟩, 0x40000)], by decide⟩,
    ⟨0, 0x50000, w [(PWR_DOM_STAT 2, ⟨11, 1⟩, 1), (MCS_FSEQ_W0 0, MCS_FSEQ_W0_PC, 0x8000), (MCS_FPRAM 0, ⟨0, 20⟩, 0x50000)], by decide⟩,
    ⟨0, 0x46000, { w [(PWR_DOM_STAT 2, ⟨11, 1⟩, 1), (MCS_FSEQ_W0 0, MCS_FSEQ_W0_PC, 0x8000), (MCS_FPRAM 0, ⟨0, 20⟩, 0x46000)] with mcs := { rst.mcs with fseq := [(0, { latch := [6] })] } }, by decide⟩,
    ⟨0, 0x60100, w [(PWR_DOM_STAT 2, ⟨11, 1⟩, 1), (MCS_FSEQ_W0 0, MCS_FSEQ_W0_PC, 0x8000), (MCS_FPRAM 0, ⟨0, 20⟩, 0x60100)], by decide⟩,
    ⟨0, 0x70100, w [(PWR_DOM_STAT 2, ⟨11, 1⟩, 1), (MCS_FSEQ_W0 0, MCS_FSEQ_W0_PC, 0x8000), (MCS_FPRAM 0, ⟨0, 20⟩, 0x70100)], by decide⟩,
    ⟨0, 0x70100, { w [(PWR_DOM_STAT 2, ⟨11, 1⟩, 1), (MCS_FSEQ_W0 0, MCS_FSEQ_W0_PC, 0x8000), (MCS_FPRAM 0, ⟨0, 20⟩, 0x70100)] with mcs := { rst.mcs with fseq := [(0, { stack := [1, 2, 3, 4] })] } }, by decide⟩,
    ⟨0, 0xB0000, w [(PWR_DOM_STAT 2, ⟨11, 1⟩, 1), (MCS_FSEQ_W0 0, MCS_FSEQ_W0_PC, 0x8000), (MCS_FPRAM 0, ⟨0, 20⟩, 0xB0000)], by decide⟩,
    ⟨0, 0, 0xC4000, { w [(MCS_ZPRAM 0, ⟨0, 20⟩, 0xC4000)] with mcs := { rst.mcs with zseq := [(0, { threads := [(0, { cmd := some 5, pc := 0x8000 })] })] } }, by decide +kernel⟩,
    ⟨0, 0, 8, 9, { w [(MCS_ZPRAM 0, ⟨0, 20⟩, 0x00000)] with mcs := { rst.mcs with zseq := [(0, { threads := [(0, { cmd := some 5, pc := 0x8000, wait := some (.cond 8 9) })] })] } }, by decide +kernel⟩,
    ⟨0, 0xD8000, w [(PWR_DOM_STAT 2, ⟨11, 1⟩, 1), (MCS_FSEQ_W0 0, MCS_FSEQ_W0_PC, 0x8000), (MCS_FPRAM 0, ⟨0, 20⟩, 0xD8000)], by decide⟩,
    ⟨0, 0xD0000, w [(PWR_DOM_STAT 2, ⟨11, 1⟩, 1), (MCS_FSEQ_W0 0, MCS_FSEQ_W0_PC, 0x8000), (MCS_FPRAM 0, ⟨0, 20⟩, 0xD0000)], by decide⟩,
    ⟨0, 0, 0xE1040, 1, [], { w [(MCS_ZPRAM 0, ⟨0, 20⟩, 0xE1040)] with mcs := { rst.mcs with zseq := [(0, { threads := [(0, { cmd := some 5, pc := 0x8000 })] })] } }, by decide +kernel⟩,
    ⟨0, 0, 0xE1040, 1, [], { w [(MCS_ZPRAM 0, ⟨0, 20⟩, 0xE1040)] with mcs := { rst.mcs with fseq := [(1, { queue := List.replicate 64 ⟨0, 0, 0, 0, [], []⟩ })], zseq := [(0, { threads := [(0, { cmd := some 5, pc := 0x8000 })] })] } }, by decide +kernel⟩,
    ⟨0, 0xF0000, w [(PWR_DOM_STAT 2, ⟨11, 1⟩, 1), (MCS_FSEQ_W0 0, MCS_FSEQ_W0_PC, 0x8000), (MCS_FPRAM 0, ⟨0, 20⟩, 0xF0000)], by decide⟩,
    ⟨0, 0, w [(PWR_DOM_STAT 2, ⟨11, 1⟩, 1), (MCS_FSEQ_W0 0, MCS_FSEQ_W0_PC, 0x8000), (MCS_FPRAM 0, ⟨0, 20⟩, 0x00000)], by decide⟩,
    ⟨0, 0, 0x60100, { w [(MCS_ZPRAM 0, ⟨0, 20⟩, 0x60100)] with mcs := { rst.mcs with zseq := [(0, { threads := [(0, { cmd := some 5, pc := 0x8000 })] })] } }, by decide +kernel⟩,
    ⟨0, 0, 0x04000, { w [(MCS_ZPRAM 0, ⟨0, 20⟩, 0x04000)] with mcs := { rst.mcs with zseq := [(0, { threads := [(0, { cmd := some 5, pc := 0x8000 })] })] } }, by decide +kernel⟩⟩

/-- The hypotheses of `PortWords` are met. -/
theorem witness_PortWords :
    (∃ (f : Fin 64) (w v : Nat) (s : State), fRuns s f = true ∧ fWord s (fPc s f) = some w ∧ outPort (fseqOf s f).g w = some
      (0x00, v)) ∧
    (∃ (f : Fin 64) (w v : Nat) (s : State), fRuns s f = true ∧ fWord s (fPc s f) = some w ∧ outPort (fseqOf s f).g w = some
      (0x01, v)) ∧
    (∃ (f : Fin 64) (w v : Nat) (s : State), fRuns s f = true ∧ fWord s (fPc s f) = some w ∧ outPort (fseqOf s f).g w = some
      (0x02, v)) ∧
    (∃ (f : Fin 64) (w v : Nat) (s : State), fRuns s f = true ∧ fWord s (fPc s f) = some w ∧ outPort (fseqOf s f).g w = some
      (0x03, v) ∧ (fseqOf (flushFlits s f) f).flitPend ≠ []) ∧
    (∃ (f : Fin 64) (w v : Nat) (s : State), fRuns s f = true ∧ fWord s (fPc s f) = some w ∧ outPort (fseqOf s f).g w = some
      (0x03, v) ∧ (fseqOf (flushFlits s f) f).flitPend = []) ∧
    (∃ (f : Fin 64) (w v : Nat) (s : State), fRuns s f = true ∧ fWord s (fPc s f) = some w ∧ outPort (fseqOf s f).g w = some
      (0x04, v)) ∧
    (∃ (f : Fin 64) (w v : Nat) (s : State), fRuns s f = true ∧ fWord s (fPc s f) = some w ∧ outPort (fseqOf s f).g w = some
      (0x05, v)) ∧
    (∃ (f : Fin 64) (w v : Nat) (s : State), fRuns s f = true ∧ fWord s (fPc s f) = some w ∧ outPort (fseqOf s f).g w = some
      (0x06, v)) ∧
    (∃ (f : Fin 64) (w v : Nat) (x : SecWork) (s : State), fRuns s f = true ∧ fWord s (fPc s f) = some w ∧ outPort (fseqOf s
      f).g w = some (0x07, v) ∧ v / 256 % 16 < 4 ∧ 0x20 ≤ v % 256 ∧ v % 256 ≤ 0x23 ∧ workAt s f (v / 256 % 16) true = some x) ∧
    (∃ (f : Fin 64) (w v : Nat) (e : Sector) (s : State), fRuns s f = true ∧ fWord s (fPc s f) = some w ∧ outPort (fseqOf s
      f).g w = some (0x08, v) ∧ v / 256 % 16 < 4 ∧ laneSector s (4 * f.val + v / 256 % 16) = some e ∧ (e.ladder.isSome &&
      s.det.jobs.any fun j => j.sec == e.id) = false) ∧
    (∃ (z : Fin 8) (t w v : Nat) (c : Cmd) (s : State), zPick s z = some t ∧ zWord s (zthread s z t).pc = some w ∧ outPort
      (zthread s z t).g w = some (0x48, v) ∧ cmdOfThread (zIssue s z t) (zthread (zIssue s z t) z t) = some c ∧ (standing
      (zIssue s z t) z t 0x48).isSome = false) ∧
    (∃ (z : Fin 8) (t w v : Nat) (c : Cmd) (s : State), zPick s z = some t ∧ zWord s (zthread s z t).pc = some w ∧ outPort
      (zthread s z t).g w = some (0x49, v) ∧ cmdOfThread (zIssue s z t) (zthread (zIssue s z t) z t) = some c ∧ (standing
      (zIssue s z t) z t 0x49).isSome = false) ∧
    (∃ (z : Fin 8) (t w v : Nat) (c : Cmd) (s : State), zPick s z = some t ∧ zWord s (zthread s z t).pc = some w ∧ outPort
      (zthread s z t).g w = some (0x4A, v) ∧ cmdOfThread (zIssue s z t) (zthread (zIssue s z t) z t) = some c ∧ (standing
      (zIssue s z t) z t 0x4A).isSome = false) ∧
    (∃ (z : Fin 8) (t w v : Nat) (c : Cmd) (s : State), zPick s z = some t ∧ zWord s (zthread s z t).pc = some w ∧ outPort
      (zthread s z t).g w = some (0x4B, v) ∧ cmdOfThread (zIssue s z t) (zthread (zIssue s z t) z t) = some c ∧ (standing
      (zIssue s z t) z t 0x4B).isSome = false ∧ v % 2 ^ 16 = 0) ∧
    (∃ (z : Fin 8) (t w v : Nat) (c : Cmd) (s : State), zPick s z = some t ∧ zWord s (zthread s z t).pc = some w ∧ outPort
      (zthread s z t).g w = some (0x4B, v) ∧ cmdOfThread (zIssue s z t) (zthread (zIssue s z t) z t) = some c ∧ (standing
      (zIssue s z t) z t 0x4B).isSome = false ∧ v % 2 ^ 16 ≠ 0 ∧ c.fail = none) ∧
    (∃ (z : Fin 8) (t w v : Nat) (c : Cmd) (s : State), zPick s z = some t ∧ zWord s (zthread s z t).pc = some w ∧ outPort
      (zthread s z t).g w = some (0x4C, v) ∧ cmdOfThread (zIssue s z t) (zthread (zIssue s z t) z t) = some c ∧ (standing
      (zIssue s z t) z t 0x4C).isSome = false) ∧
    (∃ (z : Fin 8) (t w v : Nat) (k : Fin 4) (c : Cmd) (u : Nat) (s : State), zPick s z = some t ∧ zWord s (zthread s z t).pc
      = some w ∧ outPort (zthread s z t).g w = some (0x4D, v) ∧ cmdOfThread (zIssue s z t) (zthread (zIssue s z t) z t) = some
      c ∧ engineFree (zIssue s z t) k = true ∧ nsThatch (zIssue s z t) c.nsid = some u) ∧
    (∃ (z : Fin 8) (t w v : Nat) (s : State), zPick s z = some t ∧ zWord s (zthread s z t).pc = some w ∧ outPort (zthread s z
      t).g w = some (0x4E, v)) ∧
    (∃ (f : Fin 64) (w : Nat) (s : State), fRuns s f = true ∧ fWord s (fPc s f) = some w ∧ (mOp w = 8 ∨ mOp w = 0xA) ∧ w / 256
      % 256 ∉ fOutPorts) ∧
    (∃ (f : Fin 64) (w : Nat) (s : State), fRuns s f = true ∧ fWord s (fPc s f) = some w ∧ mOp w = 9 ∧ w / 16 % 256 = 0x10) ∧
    (∃ (f : Fin 64) (w : Nat) (s : State), fRuns s f = true ∧ fWord s (fPc s f) = some w ∧ mOp w = 9 ∧ w / 16 % 256 = 0x11) ∧
    (∃ (f : Fin 64) (w : Nat) (r : Nat × Nat) (l : List (Nat × Nat)) (s : State), fRuns s f = true ∧ fWord s (fPc s f) = some
      w ∧ mOp w = 9 ∧ w / 16 % 256 = 0x12 ∧ (fseqOf s f).res = r :: l) ∧
    (∃ (f : Fin 64) (w : Nat) (s : State), fRuns s f = true ∧ fWord s (fPc s f) = some w ∧ mOp w = 9 ∧ w / 16 % 256 = 0x13) ∧
    (∃ (f : Fin 64) (w : Nat) (s : State), fRuns s f = true ∧ fWord s (fPc s f) = some w ∧ mOp w = 9 ∧ w / 16 % 256 = 0x14) ∧
    (∃ (f : Fin 64) (w : Nat) (s : State), fRuns s f = true ∧ fWord s (fPc s f) = some w ∧ mOp w = 9 ∧ w / 16 % 256 = 0x15) ∧
    (∃ (z : Fin 8) (t w : Nat) (c : Cmd) (s : State), zPick s z = some t ∧ zWord s (zthread s z t).pc = some w ∧ mOp w = 9 ∧ w
      / 16 % 256 = 0x40 ∧ cmdOfThread (zIssue s z t) (zthread (zIssue s z t) z t) = some c) ∧
    (∃ (z : Fin 8) (t w : Nat) (c : Cmd) (s : State), zPick s z = some t ∧ zWord s (zthread s z t).pc = some w ∧ mOp w = 9 ∧ w
      / 16 % 256 = 0x41 ∧ cmdOfThread (zIssue s z t) (zthread (zIssue s z t) z t) = some c) ∧
    (∃ (z : Fin 8) (t w : Nat) (c : Cmd) (s : State), zPick s z = some t ∧ zWord s (zthread s z t).pc = some w ∧ mOp w = 9 ∧ w
      / 16 % 256 = 0x42 ∧ cmdOfThread (zIssue s z t) (zthread (zIssue s z t) z t) = some c) ∧
    (∃ (z : Fin 8) (t w : Nat) (c : Cmd) (s : State), zPick s z = some t ∧ zWord s (zthread s z t).pc = some w ∧ mOp w = 9 ∧ w
      / 16 % 256 = 0x43 ∧ cmdOfThread (zIssue s z t) (zthread (zIssue s z t) z t) = some c) ∧
    (∃ (z : Fin 8) (t w : Nat) (c : Cmd) (s : State), zPick s z = some t ∧ zWord s (zthread s z t).pc = some w ∧ mOp w = 9 ∧ w
      / 16 % 256 = 0x44 ∧ cmdOfThread (zIssue s z t) (zthread (zIssue s z t) z t) = some c) ∧
    (∃ (f : Fin 64) (w : Nat) (s : State), fRuns s f = true ∧ fWord s (fPc s f) = some w ∧ mOp w = 9 ∧ w / 16 % 256 ∉
      fInPorts) :=
  ⟨⟨0, 0xA0001, 1, w [(PWR_DOM_STAT 2, ⟨11, 1⟩, 1), (MCS_FSEQ_W0 0, MCS_FSEQ_W0_PC, 0x8000), (MCS_FPRAM 0, ⟨0, 20⟩, 0xA0001)], by decide⟩,
    ⟨0, 0xA0101, 1, w [(PWR_DOM_STAT 2, ⟨11, 1⟩, 1), (MCS_FSEQ_W0 0, MCS_FSEQ_W0_PC, 0x8000), (MCS_FPRAM 0, ⟨0, 20⟩, 0xA0101)], by decide⟩,
    ⟨0, 0xA0201, 1, w [(PWR_DOM_STAT 2, ⟨11, 1⟩, 1), (MCS_FSEQ_W0 0, MCS_FSEQ_W0_PC, 0x8000), (MCS_FPRAM 0, ⟨0, 20⟩, 0xA0201)], by decide⟩,
    ⟨0, 0xA0301, 1, { w [(PWR_DOM_STAT 2, ⟨11, 1⟩, 1), (MCS_FSEQ_W0 0, MCS_FSEQ_W0_PC, 0x8000), (MCS_FPRAM 0, ⟨0, 20⟩, 0xA0301)] with mcs := { rst.mcs with fseq := [(0, { gate := 1, flitPend := [⟨0, 0, 0, []⟩] })] } }, by decide⟩,
    ⟨0, 0xA0301, 1, w [(PWR_DOM_STAT 2, ⟨11, 1⟩, 1), (MCS_FSEQ_W0 0, MCS_FSEQ_W0_PC, 0x8000), (MCS_FPRAM 0, ⟨0, 20⟩, 0xA0301)], by decide⟩,
    ⟨0, 0xA0401, 1, w [(PWR_DOM_STAT 2, ⟨11, 1⟩, 1), (MCS_FSEQ_W0 0, MCS_FSEQ_W0_PC, 0x8000), (MCS_FPRAM 0, ⟨0, 20⟩, 0xA0401)], by decide⟩,
    ⟨0, 0xA0501, 1, w [(PWR_DOM_STAT 2, ⟨11, 1⟩, 1), (MCS_FSEQ_W0 0, MCS_FSEQ_W0_PC, 0x8000), (MCS_FPRAM 0, ⟨0, 20⟩, 0xA0501)], by decide⟩,
    ⟨0, 0xA0601, 1, w [(PWR_DOM_STAT 2, ⟨11, 1⟩, 1), (MCS_FSEQ_W0 0, MCS_FSEQ_W0_PC, 0x8000), (MCS_FPRAM 0, ⟨0, 20⟩, 0xA0601)], by decide⟩,
    ⟨0, 0xA0720, 0x20, ⟨0, 0, 0, 0, true, 0, 0, 0, 0, 0⟩, { w [(PWR_DOM_STAT 2, ⟨11, 1⟩, 1), (MCS_FSEQ_W0 0, MCS_FSEQ_W0_PC, 0x8000), (MCS_FPRAM 0, ⟨0, 20⟩, 0xA0720)] with mcs := { rst.mcs with fseq := [(0, { cur := some ⟨0, 0, 0, 0, [⟨0, 0, 0, 0, true, 0, 0, 0, 0, 0⟩], []⟩ })] } }, by decide⟩,
    ⟨0, 0xA0801, 1, sectorOn 0, { w [(PWR_DOM_STAT 2, ⟨11, 1⟩, 1), (MCS_FSEQ_W0 0, MCS_FSEQ_W0_PC, 0x8000), (MCS_FPRAM 0, ⟨0, 20⟩, 0xA0801)] with det := { rst.det with sectors := [sectorOn 0] } }, by decide⟩,
    ⟨0, 0, 0xA4801, 1, ⟨0, 1, 7, 2, 1, 0, 1, false, 0, false, 5, 0, false, false, [], false, false, false, none, false, false, false, []⟩, { w [(MCS_ZPRAM 0, ⟨0, 20⟩, 0xA4801)] with mcs := { rst.mcs with zseq := [(0, { threads := [(0, { cmd := some 5, pc := 0x8000 })] })] }, host := { rst.host with cmds := [⟨0, 1, 7, 2, 1, 0, 1, false, 0, false, 5, 0, false, false, [], false, false, false, none, false, false, false, []⟩] } }, by decide +kernel⟩,
    ⟨0, 0, 0xA4901, 1, ⟨0, 1, 7, 2, 1, 0, 1, false, 0, false, 5, 0, false, false, [], false, false, false, none, false, false, false, []⟩, { w [(MCS_ZPRAM 0, ⟨0, 20⟩, 0xA4901)] with mcs := { rst.mcs with zseq := [(0, { threads := [(0, { cmd := some 5, pc := 0x8000 })] })] }, host := { rst.host with cmds := [⟨0, 1, 7, 2, 1, 0, 1, false, 0, false, 5, 0, false, false, [], false, false, false, none, false, false, false, []⟩] } }, by decide +kernel⟩,
    ⟨0, 0, 0xA4A01, 1, ⟨0, 1, 7, 2, 1, 0, 1, false, 0, false, 5, 0, false, false, [], false, false, false, none, false, false, false, []⟩, { w [(MCS_ZPRAM 0, ⟨0, 20⟩, 0xA4A01)] with mcs := { rst.mcs with zseq := [(0, { threads := [(0, { cmd := some 5, pc := 0x8000 })] })] }, host := { rst.host with cmds := [⟨0, 1, 7, 2, 1, 0, 1, false, 0, false, 5, 0, false, false, [], false, false, false, none, false, false, false, []⟩] } }, by decide +kernel⟩,
    ⟨0, 0, 0xA4B00, 0, ⟨0, 1, 7, 2, 1, 0, 1, false, 0, false, 5, 0, false, false, [], false, false, false, none, false, false, false, []⟩, { w [(MCS_ZPRAM 0, ⟨0, 20⟩, 0xA4B00)] with mcs := { rst.mcs with zseq := [(0, { threads := [(0, { cmd := some 5, pc := 0x8000 })] })] }, host := { rst.host with cmds := [⟨0, 1, 7, 2, 1, 0, 1, false, 0, false, 5, 0, false, false, [], false, false, false, none, false, false, false, []⟩] } }, by decide +kernel⟩,
    ⟨0, 0, 0xA4B01, 1, ⟨0, 1, 7, 2, 1, 0, 1, false, 0, false, 5, 0, false, false, [], false, false, false, none, false, false, false, []⟩, { w [(MCS_ZPRAM 0, ⟨0, 20⟩, 0xA4B01)] with mcs := { rst.mcs with zseq := [(0, { threads := [(0, { cmd := some 5, pc := 0x8000 })] })] }, host := { rst.host with cmds := [⟨0, 1, 7, 2, 1, 0, 1, false, 0, false, 5, 0, false, false, [], false, false, false, none, false, false, false, []⟩] } }, by decide +kernel⟩,
    ⟨0, 0, 0xA4C01, 1, ⟨0, 1, 7, 2, 1, 0, 1, false, 0, false, 5, 0, false, false, [], false, false, false, none, false, false, false, []⟩, { w [(MCS_ZPRAM 0, ⟨0, 20⟩, 0xA4C01)] with mcs := { rst.mcs with zseq := [(0, { threads := [(0, { cmd := some 5, pc := 0x8000 })] })] }, host := { rst.host with cmds := [⟨0, 1, 7, 2, 1, 0, 1, false, 0, false, 5, 0, false, false, [], false, false, false, none, false, false, false, []⟩] } }, by decide +kernel⟩,
    ⟨0, 0, 0xA4D01, 1, 0, ⟨0, 1, 7, 2, 1, 0, 1, false, 0, false, 5, 0, false, false, [], false, false, false, none, false, false, false, []⟩, 3, { w [(TRS_UNIT_FACE 3, TRS_UNIT_FACE_KIND, 4), (MCS_ZPRAM 0, ⟨0, 20⟩, 0xA4D01)] with mcs := { rst.mcs with zseq := [(0, { threads := [(0, { cmd := some 5, pc := 0x8000 })] })] }, host := { rst.host with cmds := [⟨0, 1, 7, 2, 1, 0, 1, false, 0, false, 5, 0, false, false, [], false, false, false, none, false, false, false, []⟩] }, trs := { rst.trs with run := { rst.trs.run with binds := [⟨1, 0, 3, 0, 3, 0⟩] } } }, by decide +kernel⟩,
    ⟨0, 0, 0xA4E01, 1, { w [(MCS_ZPRAM 0, ⟨0, 20⟩, 0xA4E01)] with mcs := { rst.mcs with zseq := [(0, { threads := [(0, { cmd := some 5, pc := 0x8000 })] })] }, host := { rst.host with cmds := [⟨0, 1, 7, 2, 1, 0, 1, false, 0, false, 5, 0, false, false, [], false, false, false, none, false, false, false, []⟩] } }, by decide +kernel⟩,
    ⟨0, 0xA7001, w [(PWR_DOM_STAT 2, ⟨11, 1⟩, 1), (MCS_FSEQ_W0 0, MCS_FSEQ_W0_PC, 0x8000), (MCS_FPRAM 0, ⟨0, 20⟩, 0xA7001)], by decide⟩,
    ⟨0, 0x91100, w [(PWR_DOM_STAT 2, ⟨11, 1⟩, 1), (MCS_FSEQ_W0 0, MCS_FSEQ_W0_PC, 0x8000), (MCS_FPRAM 0, ⟨0, 20⟩, 0x91100)], by decide⟩,
    ⟨0, 0x91110, w [(PWR_DOM_STAT 2, ⟨11, 1⟩, 1), (MCS_FSEQ_W0 0, MCS_FSEQ_W0_PC, 0x8000), (MCS_FPRAM 0, ⟨0, 20⟩, 0x91110)], by decide⟩,
    ⟨0, 0x91120, (1, 2), [], { w [(PWR_DOM_STAT 2, ⟨11, 1⟩, 1), (MCS_FSEQ_W0 0, MCS_FSEQ_W0_PC, 0x8000), (MCS_FPRAM 0, ⟨0, 20⟩, 0x91120)] with mcs := { rst.mcs with fseq := [(0, { res := [(1, 2)] })] } }, by decide⟩,
    ⟨0, 0x91130, w [(PWR_DOM_STAT 2, ⟨11, 1⟩, 1), (MCS_FSEQ_W0 0, MCS_FSEQ_W0_PC, 0x8000), (MCS_FPRAM 0, ⟨0, 20⟩, 0x91130)], by decide⟩,
    ⟨0, 0x91140, w [(PWR_DOM_STAT 2, ⟨11, 1⟩, 1), (MCS_FSEQ_W0 0, MCS_FSEQ_W0_PC, 0x8000), (MCS_FPRAM 0, ⟨0, 20⟩, 0x91140)], by decide⟩,
    ⟨0, 0x91150, w [(PWR_DOM_STAT 2, ⟨11, 1⟩, 1), (MCS_FSEQ_W0 0, MCS_FSEQ_W0_PC, 0x8000), (MCS_FPRAM 0, ⟨0, 20⟩, 0x91150)], by decide⟩,
    ⟨0, 0, 0x91400, ⟨0, 1, 7, 2, 1, 0, 1, false, 0, false, 5, 0, false, false, [], false, false, false, none, false, false, false, []⟩, { w [(MCS_ZPRAM 0, ⟨0, 20⟩, 0x91400)] with mcs := { rst.mcs with zseq := [(0, { threads := [(0, { cmd := some 5, pc := 0x8000 })] })] }, host := { rst.host with cmds := [⟨0, 1, 7, 2, 1, 0, 1, false, 0, false, 5, 0, false, false, [], false, false, false, none, false, false, false, []⟩] } }, by decide +kernel⟩,
    ⟨0, 0, 0x91410, ⟨0, 1, 7, 2, 1, 0, 1, false, 0, false, 5, 0, false, false, [], false, false, false, none, false, false, false, []⟩, { w [(MCS_ZPRAM 0, ⟨0, 20⟩, 0x91410)] with mcs := { rst.mcs with zseq := [(0, { threads := [(0, { cmd := some 5, pc := 0x8000 })] })] }, host := { rst.host with cmds := [⟨0, 1, 7, 2, 1, 0, 1, false, 0, false, 5, 0, false, false, [], false, false, false, none, false, false, false, []⟩] } }, by decide +kernel⟩,
    ⟨0, 0, 0x91420, ⟨0, 1, 7, 2, 1, 0, 1, false, 0, false, 5, 0, false, false, [], false, false, false, none, false, false, false, []⟩, { w [(MCS_ZPRAM 0, ⟨0, 20⟩, 0x91420)] with mcs := { rst.mcs with zseq := [(0, { threads := [(0, { cmd := some 5, pc := 0x8000 })] })] }, host := { rst.host with cmds := [⟨0, 1, 7, 2, 1, 0, 1, false, 0, false, 5, 0, false, false, [], false, false, false, none, false, false, false, []⟩] } }, by decide +kernel⟩,
    ⟨0, 0, 0x91430, ⟨0, 1, 7, 2, 1, 0, 1, false, 0, false, 5, 0, false, false, [], false, false, false, none, false, false, false, []⟩, { w [(MCS_ZPRAM 0, ⟨0, 20⟩, 0x91430)] with mcs := { rst.mcs with zseq := [(0, { threads := [(0, { cmd := some 5, pc := 0x8000 })] })] }, host := { rst.host with cmds := [⟨0, 1, 7, 2, 1, 0, 1, false, 0, false, 5, 0, false, false, [], false, false, false, none, false, false, false, []⟩] } }, by decide +kernel⟩,
    ⟨0, 0, 0x91440, ⟨0, 1, 7, 2, 1, 0, 1, false, 0, false, 5, 0, false, false, [], false, false, false, none, false, false, false, []⟩, { w [(MCS_ZPRAM 0, ⟨0, 20⟩, 0x91440)] with mcs := { rst.mcs with zseq := [(0, { threads := [(0, { cmd := some 5, pc := 0x8000 })] })] }, host := { rst.host with cmds := [⟨0, 1, 7, 2, 1, 0, 1, false, 0, false, 5, 0, false, false, [], false, false, false, none, false, false, false, []⟩] } }, by decide +kernel⟩,
    ⟨0, 0x917F0, w [(PWR_DOM_STAT 2, ⟨11, 1⟩, 1), (MCS_FSEQ_W0 0, MCS_FSEQ_W0_PC, 0x8000), (MCS_FPRAM 0, ⟨0, 20⟩, 0x917F0)], by decide⟩⟩

/-- The hypotheses of `SequencerControl` are met. -/
theorem witness_SequencerControl :
    (∃ (x : HPort) (q i : BitVec 16) (c : Cmd) (t : Nat) (s : State), findCmd s (portId x) q.toNat i.toNat = some c ∧
      ((rangeFrom 0 8).any fun y => (busyThreads s y).any fun t => t.2.cmd == some c.order) = false ∧ zState s c.zseq < 2 ∧
      mode s ≠ 0 ∧ (rangeFrom 0 64).find? (fun t => !threadBusy (zthread s c.zseq t)) = some t) ∧
    (∃ (m : Master) (k : Bool) (v : Word) (s : State), qcsReach s m (MCS_F_HALT_LO + 4 * b2n k) = true ∧ holds s baseMCS m =
      true) ∧
    (∃ (m : Master) (v : BitVec 8) (s : State), qcsReach s m (MCS_ZCTRL) = true ∧ holds s baseMCS m = true) ∧
    (∃ (m : Master) (v : BitVec 24) (s : State), qcsReach s m (MCS_ZCTRL) = true ∧ holds s baseMCS m = true) ∧
    (∃ (m : Master) (v : BitVec 8) (s : State), qcsReach s m (MCS_ZCTRL) = true ∧ holds s baseMCS m = false) ∧
    (∃ (m : Master) (f : Fin 64) (s : State), qcsReach s m (MCS_FSEQ_W3 f) = true ∧ holds s baseMCS m = true ∧ (fState s f = 2
      ∨ fState s f = 3) ∧ (isRidge m && !claimed s baseMCS) = false) ∧
    (∃ (m : Master) (f : Fin 64) (s : State), qcsReach s m (MCS_FSEQ_W3 f) = true ∧ fState s f ≠ 2 ∧ fState s f ≠ 3) ∧
    (∃ (m : Master) (z : Fin 8) (s : State), qcsReach s m (MCS_ZSEQ_W3 z) = true ∧ holds s baseMCS m = true ∧ (zState s z = 2
      ∨ zState s z = 3)) ∧
    (∃ (m : Master) (a : BitVec 11) (v : Word) (s : State), qcsReach s m (MCS_ZPRAM a.toNat) = true ∧ holds s baseMCS m = true
      ∧ storeHalted s true = true) ∧
    (∃ (m : Master) (a : BitVec 11) (v : Word) (s : State), qcsReach s m (MCS_ZPRAM a.toNat) = true ∧ holds s baseMCS m = true
      ∧ storeHalted s true = false) ∧
    (∃ (m : Master) (a : BitVec 11) (v : Word) (s : State), a.toNat < 1024 ∧ qcsReach s m (MCS_FPRAM a.toNat) = true ∧ holds s
      baseMCS m = true ∧ storeHalted s false = true) ∧
    (∃ (m : Master) (i : Fin 32) (v : Word) (s : State), qcsReach s m (MCS_ZMATCH i) = true ∧ holds s baseMCS m = true ∧
      storeHalted s true = true ∧ 0x8000 ≤ getF v MCS_FMATCH_PATCH_ADDR ∧ getF v MCS_FMATCH_PATCH_ADDR < 0x8800) :=
  ⟨⟨.a, 1, 7, ⟨0, 1, 7, 2, 1, 0, 1, false, 0, false, 5, 0, false, false, [], false, false, false, none, false, false, false, []⟩, 0, { rst with host := { rst.host with cmds := [⟨0, 1, 7, 2, 1, 0, 1, false, 0, false, 5, 0, false, false, [], false, false, false, none, false, false, false, []⟩] } }, by decide +kernel⟩,
    ⟨.ridge0, true, 1, w [(xclaim baseMCS, XCLAIM_EXPERT, 1), (xclaim baseMCS, XCLAIM_HOLDER, 8)], by decide⟩,
    ⟨.ridge0, 1, w [(xclaim baseMCS, XCLAIM_EXPERT, 1), (xclaim baseMCS, XCLAIM_HOLDER, 8)], by decide⟩,
    ⟨.ridge0, 1, w [(xclaim baseMCS, XCLAIM_EXPERT, 1), (xclaim baseMCS, XCLAIM_HOLDER, 8)], by decide⟩,
    ⟨.ridge0, 1, rst, by decide⟩,
    ⟨.ridge0, 0, w [(xclaim baseMCS, XCLAIM_EXPERT, 1), (xclaim baseMCS, XCLAIM_HOLDER, 8), (MCS_FSEQ_W0 0, MCS_FSEQ_W0_STATE, 2)], by decide⟩,
    ⟨.ridge0, 0, rst, by decide⟩,
    ⟨.ridge0, 0, w [(xclaim baseMCS, XCLAIM_EXPERT, 1), (xclaim baseMCS, XCLAIM_HOLDER, 8), (MCS_ZSEQ_W0 0, MCS_ZSEQ_W0_STATE, 2)], by decide⟩,
    ⟨.ridge0, 3, 5, w [(xclaim baseMCS, XCLAIM_EXPERT, 1), (xclaim baseMCS, XCLAIM_HOLDER, 8), (MCS_STAT, MCS_STAT_Z_HALTED, 0xFF)], by decide⟩,
    ⟨.ridge0, 3, 5, w [(xclaim baseMCS, XCLAIM_EXPERT, 1), (xclaim baseMCS, XCLAIM_HOLDER, 8)], by decide⟩,
    ⟨.ridge0, 3, 5, forAll (rangeFrom 0 64) (w [(xclaim baseMCS, XCLAIM_EXPERT, 1), (xclaim baseMCS, XCLAIM_HOLDER, 8), (MCS_F_HALT_LO, ⟨0, 32⟩, 0xFFFFFFFF), (MCS_F_HALT_LO + 4, ⟨0, 32⟩, 0xFFFFFFFF)]) fun s f => fset s (MCS_FSEQ_W0 f) MCS_FSEQ_W0_STATE 2, by decide +kernel⟩,
    ⟨.ridge0, 3, 0x80008001, w [(xclaim baseMCS, XCLAIM_EXPERT, 1), (xclaim baseMCS, XCLAIM_HOLDER, 8), (MCS_STAT, MCS_STAT_Z_HALTED, 0xFF)], by decide⟩⟩

/-- The hypotheses of `PartnerCommands` are met. -/
theorem witness_PartnerCommands :
    (∃ (s : State), mode s ≠ 0 ∧ domOn s 474 = true) ∧
    (∃ (a : BitVec 4) (j : BitVec 8) (s : State), mode s ≠ 0 ∧ domOn s 474 = true ∧ partnerBroken (fset (fset (fset (setPrt s
      fun x => { x with heard := true }) PRT_HB PRT_HB_PEER_AGE 0) PRT_STAT PRT_STAT_PARTNER_ROLE a.toNat) PRT_STAT
      PRT_STAT_PARTNER_HEALTH j.toNat) = false) ∧
    (∃ (u : State) (s : State), isActiveRole s = true ∧ standbyThere s = true ∧ fbit s PRT_CTRL PRT_CTRL_MIRROR_EN = true ∧
      mirrorValid s = false ∧ evtSet (count (fset (setMirrorValid s true) PRT_MIRROR PRT_MIRROR_RESYNC 100) (PRT_CNT 5) 1 .prt
      PRT_EVT_SAT) .prt PRT_EVT_RESYNC_DONE = u) ∧
    (∃ (s : State), mode s ≠ 0 ∧ mayTakeOver (judged s) = false) ∧
    (∃ (s : State), mode s ≠ 0 ∧ mayTakeOver (judged s) = true) ∧
    (∃ (s : State), s.prt.takeover = true) ∧
    (∃ (s : State), inConflict s = true ∧ roleOf s = 2) ∧
    (∃ (f : MirrorFrame) (s : State), (roleOf s = 2 ∨ roleOf s = 4) ∧ fget s BUF_STAT BUF_STAT_CH_UP = 255) ∧
    (∃ (l : List (Fin 477)) (s : State), roleOf s = 2) ∧
    (∃ (m : Master)  (s : State), qcsReach s m (PRT_CTRL) = true ∧ hoAllowed s = true ∧ s.prt.hoWait = false) ∧
    (∃ (s : State), mode s = 9 ∧ fget s PRT_HO PRT_HO_PHASE = 1) ∧
    (∃ (s : State), mode s = 9 ∧ fget s PRT_HO PRT_HO_PHASE = 2 ∧ roleOf s = 3) ∧
    (∃ (l : List LoopSlot) (k : List (BitVec 4 × BitVec 2)) (s : State), roleOf s = 4) ∧
    (∃ (u : BitVec 24) (s : State), mode s = 9 ∧ 3 ≤ fget s PRT_HO PRT_HO_PHASE ∧ roleOf s ≠ 4 ∧ (hoComplete (hoEnded s
      u.toNat (roleOf s == 4)) 0).prt.upStep ≠ 5) ∧
    (∃ (f : RelayFrame) (s : State), mode s ≠ 0 ∧ relayGood f = true ∧ f.kind.toNat = 0 ∧ s.prt.origin.contains f.imgId.toNat
      = false) ∧
    (∃ (f : RelayFrame) (s : State), mode s ≠ 0 ∧ relayGood f = false) ∧
    (∃ (f : RelayFrame) (s : State), mode s ≠ 0 ∧ relayGood f = true ∧ f.kind.toNat = 1 ∧ s.prt.origin.contains f.imgId.toNat
      = false) ∧
    (∃ (f : RelayFrame) (s : State), mode s ≠ 0 ∧ relayGood f = true ∧ f.kind.toNat = 2 ∧ s.prt.origin.contains f.imgId.toNat
      = true ∧ (relayIn s f).prt.origin.contains f.imgId.toNat = true) ∧
    (∃ (m : Master) (v : BitVec 2) (s : State), qcsReach s m (PRT_KEY) = true) :=
  ⟨⟨w [(PWR_MODE, PWR_MODE_MODE, 4), (PWR_DOM_STAT 14, ⟨26, 1⟩, 1)], by decide⟩,
    ⟨1, 0, w [(PWR_MODE, PWR_MODE_MODE, 4), (PWR_DOM_STAT 14, ⟨26, 1⟩, 1)], by decide⟩,
    ⟨evtSet (count (fset (setMirrorValid (w [(PRT_STAT, PRT_STAT_ROLE, 1), (PRT_STAT, PRT_STAT_PARTNER, 1), (PRT_STAT, PRT_STAT_PARTNER_ROLE, 2), (PRT_CTRL, PRT_CTRL_MIRROR_EN, 1)]) true) PRT_MIRROR PRT_MIRROR_RESYNC 100) (PRT_CNT 5) 1 .prt PRT_EVT_SAT) .prt PRT_EVT_RESYNC_DONE, (w [(PRT_STAT, PRT_STAT_ROLE, 1), (PRT_STAT, PRT_STAT_PARTNER, 1), (PRT_STAT, PRT_STAT_PARTNER_ROLE, 2), (PRT_CTRL, PRT_CTRL_MIRROR_EN, 1)]), by decide +kernel⟩,
    ⟨w [(PWR_MODE, PWR_MODE_MODE, 4)], by decide +kernel⟩,
    ⟨w [(PWR_MODE, PWR_MODE_MODE, 4), (PRT_STAT, PRT_STAT_ROLE, 2), (PRT_CTRL, PRT_CTRL_TAKEOVER_EN, 1), (BUF_STAT, BUF_STAT_CH_UP, 255)], by decide +kernel⟩,
    ⟨{ rst with prt := { rst.prt with takeover := true } }, by decide⟩,
    ⟨{ w [(PRT_STAT, PRT_STAT_ROLE, 2), (TTH_TOKEN 0, TTH_TOKEN_MINE, 1), (TTH_TOKEN 1, TTH_TOKEN_RESULT, 2), (TTH_TOKEN 1, TTH_TOKEN_OWNER, 2)] with trs := { rst.trs with bound := [0, 1] } }, by decide +kernel⟩,
    ⟨.ledger 1 2 3, w [(PRT_STAT, PRT_STAT_ROLE, 2), (BUF_STAT, BUF_STAT_CH_UP, 255)], by decide⟩,
    ⟨[], w [(PRT_STAT, PRT_STAT_ROLE, 2)], by decide⟩,
    ⟨.ridge0, w [(PRT_STAT, PRT_STAT_ROLE, 1), (PRT_STAT, PRT_STAT_PARTNER, 1), (PRT_STAT, PRT_STAT_PARTNER_ROLE, 2), (PRT_STAT, PRT_STAT_MIRROR_VALID, 1)], by decide⟩,
    ⟨w [(PWR_MODE, PWR_MODE_MODE, 9), (PRT_HO, PRT_HO_PHASE, 1), (PRT_STAT, PRT_STAT_ROLE, 3)], by decide⟩,
    ⟨w [(PWR_MODE, PWR_MODE_MODE, 9), (PRT_HO, PRT_HO_PHASE, 2), (PRT_STAT, PRT_STAT_ROLE, 3)], by decide⟩,
    ⟨[], [], w [(PRT_STAT, PRT_STAT_ROLE, 4)], by decide⟩,
    ⟨5, w [(PWR_MODE, PWR_MODE_MODE, 9), (PRT_HO, PRT_HO_PHASE, 3), (PRT_STAT, PRT_STAT_ROLE, 3)], by decide +kernel⟩,
    ⟨⟨1, 0, 9, 0, [], 916928708⟩, w [(PWR_MODE, PWR_MODE_MODE, 4)], by decide +kernel⟩,
    ⟨⟨1, 0, 9, 0, [], 0⟩, w [(PWR_MODE, PWR_MODE_MODE, 4)], by decide +kernel⟩,
    ⟨⟨1, 1, 9, 0, [], 1158265745⟩, w [(PWR_MODE, PWR_MODE_MODE, 4)], by decide +kernel⟩,
    ⟨⟨1, 2, 9, 0, [], 3522838126⟩, { w [(PWR_MODE, PWR_MODE_MODE, 4)] with prt := { rst.prt with origin := [9] } }, by decide +kernel⟩,
    ⟨.ridge0, 1, rst, by decide⟩⟩

/-- The hypotheses of `MailboxRegisters` are met. -/
theorem witness_MailboxRegisters :
    (∃ (m : Master) (c : Fin 64) (i : Fin 16) (v : Word) (s : State), mbxSender s m c = true) ∧
    (∃ (m : Master) (c : Fin 64) (i : Fin 16) (v : Word) (s : State), mbxSender s m c = false) ∧
    (∃ (m : Master) (c : Fin 64) (v : Word) (s : State), mbxSender s m c = true ∧ fbit s (MBX_CH_STAT c) MBX_CH_STAT_ABT =
      false) ∧
    (∃ (m : Master) (c : Fin 64) (v : Word) (s : State), mbxReceiver s m c = true) ∧
    (∃ (m : Master) (c : Fin 64) (v : Word) (s : State), mbxReceiver s m c = false) ∧
    (∃ (m : Master) (c : Fin 64) (v : Word) (s : State), mayBind m = true ∧ fbit s MBX_CTRL MBX_CTRL_LOCK = false ∧ bindId
      (getF v MBX_BIND_SENDER) = true ∧ bindId (getF v MBX_BIND_RECEIVER) = true ∧ getF v MBX_BIND_SENDER ≠ getF v
      MBX_BIND_RECEIVER) ∧
    (∃ (m : Master) (c : Fin 64) (v : Word) (s : State), (mayBind m = false ∨ fbit s MBX_CTRL MBX_CTRL_LOCK = true)) ∧
    (∃ (m : Master)  (s : State), qcsReach s m (MBX_CTRL) = true) ∧
    (∃ (m : Master) (l : List Nat) (s : State), (rangeFrom 0 64).filter (fun c => mbxBound s c && fget s (MBX_BIND c)
      MBX_BIND_RECEIVER == masterId m) = l ∧ l ≠ []) ∧
    (∃ (l : List Nat) (s : State), (rangeFrom 0 64).filter (fun c => mbxBound s c && fget s (MBX_BIND c) MBX_BIND_RECEIVER ==
      2) = l ∧ l ≠ []) :=
  ⟨⟨.bmc, 0, 3, 7, w [(MBX_BIND 0, MBX_BIND_SENDER, 2), (MBX_BIND 0, MBX_BIND_RECEIVER, 8)], by decide⟩,
    ⟨.bmc, 0, 3, 7, rst, by decide⟩,
    ⟨.bmc, 0, 1, w [(MBX_BIND 0, MBX_BIND_SENDER, 2), (MBX_BIND 0, MBX_BIND_RECEIVER, 8)], by decide⟩,
    ⟨.ridge0, 0, 1, w [(MBX_BIND 0, MBX_BIND_SENDER, 2), (MBX_BIND 0, MBX_BIND_RECEIVER, 8)], by decide⟩,
    ⟨.ridge0, 0, 1, rst, by decide⟩,
    ⟨.ridge0, 3, 0x0802, rst, by decide⟩,
    ⟨.bmc, 3, 0x0802, rst, by decide⟩,
    ⟨.ridge0, rst, by decide⟩,
    ⟨.ridge0, [0], w [(MBX_BIND 0, MBX_BIND_SENDER, 2), (MBX_BIND 0, MBX_BIND_RECEIVER, 8)], by decide +kernel⟩,
    ⟨[0], w [(MBX_BIND 0, MBX_BIND_SENDER, 8), (MBX_BIND 0, MBX_BIND_RECEIVER, 2)], by decide +kernel⟩⟩

/-- The hypotheses of `MailboxMessages` are met. -/
theorem witness_MailboxMessages :
    (∃ (l : List Byte) (s : State), l.head? ≠ some 0x02) ∧
    (∃ (l : List Byte) (s : State), l.head? = some 0x02) ∧
    (∃ (c : Fin 64) (m : Master) (s : State), Asked s c 1 m = true ∧ mbxQcs (mbxChange s c fun t => wbit t (MBX_CH_DB c) 0
      false) m = false) ∧
    (∃ (c : Fin 64) (m : Master) (s : State), Asked s c 1 m = true ∧ mbxQcs (mbxChange s c fun t => wbit t (MBX_CH_DB c) 0
      false) m = true ∧ 1 ≤ argW (mbxBytes s c) 2 ∧ argW (mbxBytes s c) 2 ≤ 15) ∧
    (∃ (c : Fin 64) (m : Master) (s : State), Asked s c 2 m = true ∧ mbxQcs (mbxChange s c fun t => wbit t (MBX_CH_DB c) 0
      false) m = true ∧ 1 ≤ argW (mbxBytes s c) 2 ∧ argW (mbxBytes s c) 2 ≤ 13) ∧
    (∃ (c : Fin 64) (m : Master) (s : State), Asked s c 3 m = true) ∧
    (∃ (c : Fin 64) (m : Master) (s : State), Asked s c 4 m = true) ∧
    (∃ (c : Fin 64) (m : Master) (l : List Nat) (s : State), Asked s c 5 m = true ∧ vendorPage (mbxChange s c fun t => wbit t
      (MBX_CH_DB c) 0 false) (argW (mbxBytes s c) 1) 0 = some l ∧ argW (mbxBytes s c) 2 % 4 = 0 ∧ argW (mbxBytes s c) 2 ≤
      l.length) ∧
    (∃ (c : Fin 64) (m : Master) (s : State), Asked s c 5 m = true ∧ vendorPage (mbxChange s c fun t => wbit t (MBX_CH_DB c) 0
      false) (argW (mbxBytes s c) 1) 0 = none) ∧
    (∃ (c : Fin 64) (m : Master) (s : State), Asked s c 6 m = true) :=
  ⟨⟨[1], rst, by decide⟩,
    ⟨[2], rst, by decide⟩,
    ⟨0, .partner, w [(MBX_BIND 0, MBX_BIND_SENDER, 16), (MBX_BIND 0, MBX_BIND_RECEIVER, 8), (MBX_CH_DATA 0 0, ⟨0, 32⟩, 1), (MBX_CH_DATA 0 1, ⟨0, 32⟩, 0), (MBX_CH_DATA 0 2, ⟨0, 32⟩, 1), (MBX_CH_DATA 0 3, ⟨0, 32⟩, 0), (MBX_CH_DB 0, ⟨0, 1⟩, 1)], by decide +kernel⟩,
    ⟨0, .ridge0, w [(MBX_BIND 0, MBX_BIND_SENDER, 8), (MBX_BIND 0, MBX_BIND_RECEIVER, 8), (MBX_CH_DATA 0 0, ⟨0, 32⟩, 1), (MBX_CH_DATA 0 1, ⟨0, 32⟩, 0), (MBX_CH_DATA 0 2, ⟨0, 32⟩, 1), (MBX_CH_DATA 0 3, ⟨0, 32⟩, 0), (MBX_CH_DB 0, ⟨0, 1⟩, 1)], by decide +kernel⟩,
    ⟨0, .ridge0, w [(MBX_BIND 0, MBX_BIND_SENDER, 8), (MBX_BIND 0, MBX_BIND_RECEIVER, 8), (MBX_CH_DATA 0 0, ⟨0, 32⟩, 2), (MBX_CH_DATA 0 1, ⟨0, 32⟩, 0), (MBX_CH_DATA 0 2, ⟨0, 32⟩, 1), (MBX_CH_DATA 0 3, ⟨0, 32⟩, 0), (MBX_CH_DB 0, ⟨0, 1⟩, 1)], by decide +kernel⟩,
    ⟨0, .ridge0, w [(MBX_BIND 0, MBX_BIND_SENDER, 8), (MBX_BIND 0, MBX_BIND_RECEIVER, 8), (MBX_CH_DATA 0 0, ⟨0, 32⟩, 3), (MBX_CH_DATA 0 1, ⟨0, 32⟩, 238), (MBX_CH_DATA 0 2, ⟨0, 32⟩, 0), (MBX_CH_DATA 0 3, ⟨0, 32⟩, 0), (MBX_CH_DB 0, ⟨0, 1⟩, 1)], by decide +kernel⟩,
    ⟨0, .ridge0, w [(MBX_BIND 0, MBX_BIND_SENDER, 8), (MBX_BIND 0, MBX_BIND_RECEIVER, 8), (MBX_CH_DATA 0 0, ⟨0, 32⟩, 4), (MBX_CH_DATA 0 1, ⟨0, 32⟩, 238), (MBX_CH_DATA 0 2, ⟨0, 32⟩, 0), (MBX_CH_DATA 0 3, ⟨0, 32⟩, 0), (MBX_CH_DB 0, ⟨0, 1⟩, 1)], by decide +kernel⟩,
    ⟨0, .ridge0, [], w [(MBX_BIND 0, MBX_BIND_SENDER, 8), (MBX_BIND 0, MBX_BIND_RECEIVER, 8), (MBX_CH_DATA 0 0, ⟨0, 32⟩, 5), (MBX_CH_DATA 0 1, ⟨0, 32⟩, 196), (MBX_CH_DATA 0 2, ⟨0, 32⟩, 0), (MBX_CH_DATA 0 3, ⟨0, 32⟩, 0), (MBX_CH_DB 0, ⟨0, 1⟩, 1)], by decide +kernel⟩,
    ⟨0, .ridge0, w [(MBX_BIND 0, MBX_BIND_SENDER, 8), (MBX_BIND 0, MBX_BIND_RECEIVER, 8), (MBX_CH_DATA 0 0, ⟨0, 32⟩, 5), (MBX_CH_DATA 0 1, ⟨0, 32⟩, 1), (MBX_CH_DATA 0 2, ⟨0, 32⟩, 0), (MBX_CH_DATA 0 3, ⟨0, 32⟩, 0), (MBX_CH_DB 0, ⟨0, 1⟩, 1)], by decide +kernel⟩,
    ⟨0, .ridge0, w [(MBX_BIND 0, MBX_BIND_SENDER, 8), (MBX_BIND 0, MBX_BIND_RECEIVER, 8), (MBX_CH_DATA 0 0, ⟨0, 32⟩, 6), (MBX_CH_DATA 0 1, ⟨0, 32⟩, 0), (MBX_CH_DATA 0 2, ⟨0, 32⟩, 0), (MBX_CH_DATA 0 3, ⟨0, 32⟩, 0), (MBX_CH_DB 0, ⟨0, 1⟩, 1)], by decide +kernel⟩⟩

/-- The hypotheses of `EventsTailsAndFlash` are met. -/
theorem witness_EventsTailsAndFlash :
    (∃ (n : Fin 640) (s : State), (srcLevel s n = true ∨ [3, 5, 6, 7].contains n.val = true)) ∧
    (∃ (n : Fin 640) (s : State), srcLevel s n = false ∧ [3, 5, 6, 7].contains n.val = false) ∧
    (∃ (m : Master) (n : Fin 20) (v : Word) (s : State), qcsReach s m (EVT_PEND n) = true) ∧
    (∃ (s : State), smbAlert s = true) ∧
    (∃ (s : State), smbAlert s = false) ∧
    (∃ (m : Master) (r : Fin 8) (b : Bool) (s : State), qcsReach s m (TAIL_CTRL r) = true) ∧
    (∃ (m : Master) (r : Fin 8) (b : Bool) (s : State), qcsReach s m (TAIL_CTRL r) = true) ∧
    (∃ (m : Master) (v : Word) (b : Bool) (s : State), qcsReach s m (FLS_CMD) = true ∧ fbit s FLS_STAT FLS_STAT_BUSY = false ∧
      domFailed s 473 = false) ∧
    (∃ (m : Master) (v : Word) (s : State), qcsReach s m (FLS_CMD) = true ∧ fbit s FLS_STAT FLS_STAT_BUSY = false ∧ domFailed
      s 473 = false) ∧
    (∃ (m : Master) (v : Word) (a b c : BitVec 16) (s : State), qcsReach s m (FLS_CMD) = true ∧ fbit s FLS_STAT FLS_STAT_BUSY
      = false ∧ domFailed s 473 = false) ∧
    (∃ (m : Master) (v : Word) (s : State), qcsReach s m (FLS_CMD) = true ∧ fbit s FLS_STAT FLS_STAT_BUSY = true) ∧
    (∃ (m : Master) (v : Word) (s : State), qcsReach s m (FLS_CMD) = true ∧ domFailed s 473 = true) ∧
    (∃ (j : FlsJob) (b : Bool) (s : State), s.fls.job = some j ∧ j.op = 1) ∧
    (∃ (j : FlsJob) (b : Bool) (s : State), s.fls.job = some j ∧ j.op = 2) :=
  ⟨⟨3, rst, by decide⟩,
    ⟨100, rst, by decide⟩,
    ⟨.ridge0, 2, 1, rst, by decide⟩,
    ⟨w [(MBX_BIND 0, MBX_BIND_SENDER, 2), (MBX_CH_STAT 0, MBX_CH_STAT_ABT, 1)], by decide +kernel⟩,
    ⟨rst, by decide +kernel⟩,
    ⟨.ridge0, 2, true, rst, by decide⟩,
    ⟨.ridge0, 2, true, rst, by decide⟩,
    ⟨.ridge0, 5, false, rst, by decide⟩,
    ⟨.ridge0, 5, rst, by decide⟩,
    ⟨.ridge0, 5, 0, 0, 0, rst, by decide⟩,
    ⟨.ridge0, 5, w [(FLS_STAT, FLS_STAT_BUSY, 1)], by decide⟩,
    ⟨.ridge0, 5, w [(PWR_DOM_FAIL 14, ⟨25, 1⟩, 1)], by decide⟩,
    ⟨⟨1, 5, [], 0, false⟩, true, { rst with fls := { rst.fls with job := some ⟨1, 5, [], 0, false⟩ } }, by decide⟩,
    ⟨⟨2, 5, [], 0, false⟩, true, { rst with fls := { rst.fls with job := some ⟨2, 5, [], 0, false⟩ } }, by decide⟩⟩

/-- The hypotheses of `TimersAndClocks` are met. -/
theorem witness_TimersAndClocks :
    (∃ (x : HPort) (q j : BitVec 16) (y : Nat × Cq) (s : State), portExists s (portId x) = true ∧ (ctl s (portId x)).ready =
      true ∧ (ctl s (portId x)).cqs.find? (fun y => y.1 == q.toNat) = some y) ∧
    (∃ (a : Fin 64) (v : BitVec 16) (s : State), domOn s (75 + a) = true ∧ (fseqOf s a).gatePend = none ∧ (fseqOf s a).winPend
      = none) ∧
    (∃ (a : Fin 64) (v : BitVec 16) (s : State), domOn s (75 + a) = false) ∧
    (∃ (k : Fin 17) (s : State), mode s ≠ 0 ∧ pllWanted s k = true) ∧
    (∃ (s : State), bridleWanted s = false) ∧
    (∃ (s : State), bridleWanted s = true) ∧
    (∃ (z : Fin 8) (t : Fin 64) (s : State), (zthread s z t).timerRun = true) ∧
    (∃ (x : HPort) (s : State), (ctl s (portId x)).kaRun = true) ∧
    (∃ (x : HPort) (s : State), (ctl s (portId x)).kaRun = false) :=
  ⟨⟨.a, 1, 9, (1, ⟨8, 0, 0, 0, true⟩), { rst with host := { rst.host with ctlA := { rst.host.ctlA with ready := true, cqs := [(1, ⟨8, 0, 0, 0, true⟩)] } } }, by decide⟩,
    ⟨0, 3, w [(PWR_DOM_STAT 2, ⟨11, 1⟩, 1)], by decide⟩,
    ⟨0, 3, rst, by decide⟩,
    ⟨0, rst, by decide⟩,
    ⟨rst, by decide +kernel⟩,
    ⟨{ rst with pwr := { rst.pwr with wanted := [412] } }, by decide +kernel⟩,
    ⟨0, 0, { rst with mcs := { rst.mcs with zseq := [(0, { threads := [(0, { timerRun := true })] })] } }, by decide⟩,
    ⟨.a, { rst with host := { rst.host with ctlA := { rst.host.ctlA with ready := true, kaRun := true } } }, by decide⟩,
    ⟨.a, rst, by decide⟩⟩

end Sys2Proof.Tests
end

section
/-! The machine as a whole: every command keeps the queue, the outputs and the invariant, hence so does a step and a run. -/
namespace Sys2Proof.Machine
open Sys2Proof

/-! ### Commands -/

/-- Each command answers a next state that keeps the queue, the outputs and the invariant: the dispatch of `exec`, arm by
arm, with the law of that arm's meaning. The operand that nine meanings ignore is named, for it cannot be read off them. -/
theorem exec_runs {s0 s : State} (h : Keeps s0 s) : ∀ c : Instr, Runs s0 (exec c s)
  | .registerWrite .. => execRegisterWrite_runs h
  | .qcsUndefinedAccess .. => execQcsUndefinedAccess_runs h
  | .misalignedQcsAccess .. => execMisalignedQcsAccess_runs h
  | .wideRegisterLowRead .. => execWideRegisterLowRead_runs h
  | .rcFieldRead .. => execRcFieldRead_runs h
  | .expertClaim .. => execExpertClaim_runs h
  | .expertRelease .. => execExpertRelease_runs h
  | .compositeRecompute .. => execCompositeRecompute_runs h
  | .unitPolicyWrite .. => execUnitPolicyWrite_runs h
  | .unitWakeDemand .. => execUnitWakeDemand_runs h
  | .unitWakeComplete .. => execUnitWakeComplete_runs h
  | .unitRetire .. => execUnitRetire_runs h
  | .trussDownload .. => execTrussDownload_runs h
  | .trussCommitVerify _ _ x => execTrussCommitVerify_runs (a1 := x) h
  | .trussCommitLoadStore _ _ x => execTrussCommitLoadStore_runs (a1 := x) h
  | .trussCommitPatchStore _ _ x => execTrussCommitPatchStore_runs (a1 := x) h
  | .trussCommitLoad _ _ x => execTrussCommitLoad_runs (a1 := x) h
  | .trussCommitPatch _ _ x => execTrussCommitPatch_runs (a1 := x) h
  | .trussQuiesceWaitEnd => execTrussQuiesceWaitEnd_runs h
  | .trussVerifyDone => execTrussVerifyDone_runs h
  | .trussPartnerAnswer .. => execTrussPartnerAnswer_runs h
  | .trussPartnerTimeout => execTrussPartnerTimeout_runs h
  | .peerTrussCheck .. => execPeerTrussCheck_runs h
  | .trsLdVerify .. => execTrsLdVerify_runs h
  | .trsLdLoad .. => execTrsLdLoad_runs h
  | .trsLdPatch .. => execTrsLdPatch_runs h
  | .trsSeqFloorWrite .. => execTrsSeqFloorWrite_runs h
  | .trsKeyRevoke .. => execTrsKeyRevoke_runs h
  | .trsFenceSet .. => execTrsFenceSet_runs h
  | .trsFenceRelease .. => execTrsFenceRelease_runs h
  | .presenceEdge .. => execPresenceEdge_runs h
  | .presenceDebounceEnd .. => execPresenceDebounceEnd_runs h
  | .tsbResponse .. => execTsbResponse_runs h
  | .tsbResponseTimeout .. => execTsbResponseTimeout_runs h
  | .tsbAttention .. => execTsbAttention_runs h
  | .tetherTrainingDone .. => execTetherTrainingDone_runs h
  | .tetherTrainingFail .. => execTetherTrainingFail_runs h
  | .upstreamLaneLoss .. => execUpstreamLaneLoss_runs h
  | .downstreamLaneLoss .. => execDownstreamLaneLoss_runs h
  | .creditTimeout .. => execCreditTimeout_runs h
  | .laneRetrainDone .. => execLaneRetrainDone_runs h
  | .laneRetryEpisode .. => execLaneRetryEpisode_runs h
  | .sampleFlit .. => execSampleFlit_runs h
  | .servoFlit .. => execServoFlit_runs h
  | .telemFlit .. => execTelemFlit_runs h
  | .idleFlit .. => execIdleFlit_runs h
  | .heartbeatPeriod .. => execHeartbeatPeriod_runs h
  | .fecRetrainCheck .. => execFecRetrainCheck_runs h
  | .tthCntClr .. => execTthCntClr_runs h
  | .tthRetrain .. => execTthRetrain_runs h
  | .tthSbOnlyWrite .. => execTthSbOnlyWrite_runs h
  | .tthPortDisable .. => execTthPortDisable_runs h
  | .tthPortEnable .. => execTthPortEnable_runs h
  | .tthWdogWrite .. => execTthWdogWrite_runs h
  | .tokenAcquire .. => execTokenAcquire_runs h
  | .tokenRelease .. => execTokenRelease_runs h
  | .tokenHandoff .. => execTokenHandoff_runs h
  | .tsbCmdRead .. => execTsbCmdRead_runs h
  | .tsbCmdWrite .. => execTsbCmdWrite_runs h
  | .feTsbRead .. => execFeTsbRead_runs h
  | .feTsbWrite .. => execFeTsbWrite_runs h
  | .feTsbHeartbeat .. => execFeTsbHeartbeat_runs h
  | .feAcquire .. => execFeAcquire_runs h
  | .feRelease .. => execFeRelease_runs h
  | .feHandoff .. => execFeHandoff_runs h
  | .feWatchdogExpire .. => execFeWatchdogExpire_runs h
  | .feOtherWatchdogExpire .. => execFeOtherWatchdogExpire_runs h
  | .feHbFlit .. => execFeHbFlit_runs h
  | .feCmdFlit .. => execFeCmdFlit_runs h
  | .feCmdApply .. => execFeCmdApply_runs h
  | .feWriteFlit .. => execFeWriteFlit_runs h
  | .feWinhWord .. => execFeWinhWord_runs h
  | .feWinhBadWord .. => execFeWinhBadWord_runs h
  | .feWinhSilence .. => execFeWinhSilence_runs h
  | .feDownstreamLoss .. => execFeDownstreamLoss_runs h
  | .dlPinSet .. => execDlPinSet_runs h
  | .dlPinRelease .. => execDlPinRelease_runs h
  | .pinTimeout .. => execPinTimeout_runs h
  | .syncDecision .. => execSyncDecision_runs h
  | .decodeJobDispatch .. => execDecodeJobDispatch_runs h
  | .decodeJobDone .. => execDecodeJobDone_runs h
  | .clusterParityError .. => execClusterParityError_runs h
  | .clusterIdlePoweroff .. => execClusterIdlePoweroff_runs h
  | .dlRetryGo .. => execDlRetryGo_runs h
  | .lanePowerRequest .. => execLanePowerRequest_runs h
  | .lanePowerReady .. => execLanePowerReady_runs h
  | .laneIdlePoweroff .. => execLaneIdlePoweroff_runs h
  | .ldcSlotsRead .. => execLdcSlotsRead_runs h
  | .ladderReread .. => execLadderReread_runs h
  | .trackParityReconstruct .. => execTrackParityReconstruct_runs h
  | .thatchReconstruct .. => execThatchReconstruct_runs h
  | .trackParityRebuildRead .. => execTrackParityRebuildRead_runs h
  | .servoWedge .. => execServoWedge_runs h
  | .missInhibit .. => execMissInhibit_runs h
  | .inhibitRelease .. => execInhibitRelease_runs h
  | .servoLost .. => execServoLost_runs h
  | .servoReacquire .. => execServoReacquire_runs h
  | .settled .. => execSettled_runs h
  | .maSaturation .. => execMaSaturation_runs h
  | .shockRecord _ _ x => execShockRecord_runs (a1 := x) h
  | .shockRecordTimeout .. => execShockRecordTimeout_runs h
  | .shockHoldExpire .. => execShockHoldExpire_runs h
  | .rewritePass .. => execRewritePass_runs h
  | .squeezeRead .. => execSqueezeRead_runs h
  | .swInhibitWrite .. => execSwInhibitWrite_runs h
  | .bridleTimerTick .. => execBridleTimerTick_runs h
  | .bridleIterationStart .. => execBridleIterationStart_runs h
  | .bridleIterationEnd .. => execBridleIterationEnd_runs h
  | .bridleOutput .. => execBridleOutput_runs h
  | .bridleSwitchGo .. => execBridleSwitchGo_runs h
  | .bridleSwitchIdleCopy .. => execBridleSwitchIdleCopy_runs h
  | .speedStepGroupSwitch .. => execSpeedStepGroupSwitch_runs h
  | .slotModeWrite .. => execSlotModeWrite_runs h
  | .liveCoefWrite .. => execLiveCoefWrite_runs h
  | .followingErrorAction .. => execFollowingErrorAction_runs h
  | .followingErrorEnd .. => execFollowingErrorEnd_runs h
  | .feClear .. => execFeClear_runs h
  | .bridleEnginePoweroff .. => execBridleEnginePoweroff_runs h
  | .brdStatRead .. => execBrdStatRead_runs h
  | .zcRecord .. => execZcRecord_runs h
  | .commutationStep .. => execCommutationStep_runs h
  | .commutationStepFail .. => execCommutationStepFail_runs h
  | .observerLoss .. => execObserverLoss_runs h
  | .sineUpdate .. => execSineUpdate_runs h
  | .spnReqRun .. => execSpnReqRun_runs h
  | .spnReqStop .. => execSpnReqStop_runs h
  | .spnReqCoast .. => execSpnReqCoast_runs h
  | .spnStepWrite .. => execSpnStepWrite_runs h
  | .spinupAdmit .. => execSpinupAdmit_runs h
  | .catchLock .. => execCatchLock_runs h
  | .catchNoCrossing .. => execCatchNoCrossing_runs h
  | .catchImplausible .. => execCatchImplausible_runs h
  | .alignDone .. => execAlignDone_runs h
  | .rampHandover .. => execRampHandover_runs h
  | .rampTimeout .. => execRampTimeout_runs h
  | .spindleRunReached .. => execSpindleRunReached_runs h
  | .shortEnd .. => execShortEnd_runs h
  | .regenAdmit .. => execRegenAdmit_runs h
  | .speedRefSlewTick .. => execSpeedRefSlewTick_runs h
  | .busRecord .. => execBusRecord_runs h
  | .chopperFault .. => execChopperFault_runs h
  | .regenStopClear => execRegenStopClear_runs h
  | .coastWaitEnd .. => execCoastWaitEnd_runs h
  | .catchWindowExpire .. => execCatchWindowExpire_runs h
  | .headUnloadDone .. => execHeadUnloadDone_runs h
  | .monRecord .. => execMonRecord_runs h
  | .monTimeout .. => execMonTimeout_runs h
  | .clearanceRecord .. => execClearanceRecord_runs h
  | .mechTempRecord .. => execMechTempRecord_runs h
  | .astCalGo .. => execAstCalGo_runs h
  | .assistCalDone .. => execAssistCalDone_runs h
  | .chopSvcClr .. => execChopSvcClr_runs h
  | .chopSet .. => execChopSet_runs h
  | .journalTimer .. => execJournalTimer_runs h
  | .journalWriteDone .. => execJournalWriteDone_runs h
  | .accumulatorReadback .. => execAccumulatorReadback_runs h
  | .rebuildStart .. => execRebuildStart_runs h
  | .rebuildStop .. => execRebuildStop_runs h
  | .rebuildDone .. => execRebuildDone_runs h
  | .relocation .. => execRelocation_runs h
  | .zoneLocateGo .. => execZoneLocateGo_runs h
  | .ctxSelect .. => execCtxSelect_runs h
  | .zmpStatRead .. => execZmpStatRead_runs h
  | .perstAssert .. => execPerstAssert_runs h
  | .perstDeassert .. => execPerstDeassert_runs h
  | .pcieLinkUp .. => execPcieLinkUp_runs h
  | .surpriseLinkDown .. => execSurpriseLinkDown_runs h
  | .functionLevelReset .. => execFunctionLevelReset_runs h
  | .ccEnClear .. => execCcEnClear_runs h
  | .ccEnSet .. => execCcEnSet_runs h
  | .sqDoorbellWrite .. => execSqDoorbellWrite_runs h
  | .commandFetch .. => execCommandFetch_runs h
  | .ledgerAdmit => execLedgerAdmit_runs h
  | .hostDataReceived .. => execHostDataReceived_runs h
  | .poisonedCompletion .. => execPoisonedCompletion_runs h
  | .writeDataTimeout .. => execWriteDataTimeout_runs h
  | .mirrorAck .. => execMirrorAck_runs h
  | .commitPoint .. => execCommitPoint_runs h
  | .nvmWrite .. => execNvmWrite_runs h
  | .nvmRead .. => execNvmRead_runs h
  | .nvmFlush .. => execNvmFlush_runs h
  | .nvmWriteZeroes .. => execNvmWriteZeroes_runs h
  | .nvmVerify .. => execNvmVerify_runs h
  | .zoneAppend .. => execZoneAppend_runs h
  | .zmsOpen .. => execZmsOpen_runs h
  | .zmsClose .. => execZmsClose_runs h
  | .zmsFinish .. => execZmsFinish_runs h
  | .zmsReset .. => execZmsReset_runs h
  | .zmsOffline .. => execZmsOffline_runs h
  | .zmsSetZoneDescExt .. => execZmsSetZoneDescExt_runs h
  | .zmrReportZones .. => execZmrReportZones_runs h
  | .zmrExtendedReportZones .. => execZmrExtendedReportZones_runs h
  | .invalidOpcode .. => execInvalidOpcode_runs h
  | .createIoSq .. => execCreateIoSq_runs h
  | .deleteIoSq .. => execDeleteIoSq_runs h
  | .createIoCq .. => execCreateIoCq_runs h
  | .deleteIoCq .. => execDeleteIoCq_runs h
  | .identify .. => execIdentify_runs h
  | .abort .. => execAbort_runs h
  | .asyncEventRequest .. => execAsyncEventRequest_runs h
  | .keepAlive .. => execKeepAlive_runs h
  | .setFeatures .. => execSetFeatures_runs h
  | .getFeatures .. => execGetFeatures_runs h
  | .setFeatPowerMgmt .. => execSetFeatPowerMgmt_runs h
  | .getFeatPowerMgmt .. => execGetFeatPowerMgmt_runs h
  | .powerStateEntryDone .. => execPowerStateEntryDone_runs h
  | .d3hotEntry .. => execD3hotEntry_runs h
  | .fwImageDownload .. => execFwImageDownload_runs h
  | .fwCommitCa0 .. => execFwCommitCa0_runs h
  | .fwCommitCa1 .. => execFwCommitCa1_runs h
  | .fwCommitCa2 .. => execFwCommitCa2_runs h
  | .fwCommitCa3 .. => execFwCommitCa3_runs h
  | .pairUpdateStep .. => execPairUpdateStep_runs h
  | .deviceSelfTestShort _ _ x => execDeviceSelfTestShort_runs (a1 := x) h
  | .deviceSelfTestExtended _ _ x => execDeviceSelfTestExtended_runs (a1 := x) h
  | .deviceSelfTestAbort _ _ x => execDeviceSelfTestAbort_runs (a1 := x) h
  | .selfTestStepDone .. => execSelfTestStepDone_runs h
  | .logErrorInformation .. => execLogErrorInformation_runs h
  | .logSmartHealth .. => execLogSmartHealth_runs h
  | .logFirmwareSlot .. => execLogFirmwareSlot_runs h
  | .logChangedNamespaceList .. => execLogChangedNamespaceList_runs h
  | .logCommandsSupported .. => execLogCommandsSupported_runs h
  | .logDeviceSelfTest .. => execLogDeviceSelfTest_runs h
  | .logAna .. => execLogAna_runs h
  | .logChangedZoneList .. => execLogChangedZoneList_runs h
  | .logTruss .. => execLogTruss_runs h
  | .logUnitTable .. => execLogUnitTable_runs h
  | .logEaveLayout .. => execLogEaveLayout_runs h
  | .logThatchStatus .. => execLogThatchStatus_runs h
  | .logLostRanges .. => execLogLostRanges_runs h
  | .logHostInterfaceStats .. => execLogHostInterfaceStats_runs h
  | .logMicrocodeStatus .. => execLogMicrocodeStatus_runs h
  | .logEventStatus .. => execLogEventStatus_runs h
  | .logTailRecorder .. => execLogTailRecorder_runs h
  | .logTetherStatus .. => execLogTetherStatus_runs h
  | .logDetectionStats .. => execLogDetectionStats_runs h
  | .logSectorRecovery .. => execLogSectorRecovery_runs h
  | .logServoWriteSafety .. => execLogServoWriteSafety_runs h
  | .logBridleStats .. => execLogBridleStats_runs h
  | .logSpindleAssist .. => execLogSpindleAssist_runs h
  | .logAssistWear .. => execLogAssistWear_runs h
  | .logPartnerStatus .. => execLogPartnerStatus_runs h
  | .logOrphanedCompletions .. => execLogOrphanedCompletions_runs h
  | .logUpdateRelay .. => execLogUpdateRelay_runs h
  | .logFlashStatus .. => execLogFlashStatus_runs h
  | .logMemoryError .. => execLogMemoryError_runs h
  | .logCacheStats .. => execLogCacheStats_runs h
  | .logRetirementTable .. => execLogRetirementTable_runs h
  | .logBallastStatus .. => execLogBallastStatus_runs h
  | .logBackgroundStatus .. => execLogBackgroundStatus_runs h
  | .logThermalStatus .. => execLogThermalStatus_runs h
  | .logPowerModes .. => execLogPowerModes_runs h
  | .setUnitPowerPolicy .. => execSetUnitPowerPolicy_runs h
  | .getUnitPowerPolicy .. => execGetUnitPowerPolicy_runs h
  | .setCommandSlotReservation .. => execSetCommandSlotReservation_runs h
  | .getCommandSlotReservation .. => execGetCommandSlotReservation_runs h
  | .setZoneLayoutControl .. => execSetZoneLayoutControl_runs h
  | .getZoneLayoutControl .. => execGetZoneLayoutControl_runs h
  | .setEventRouting .. => execSetEventRouting_runs h
  | .getEventRouting .. => execGetEventRouting_runs h
  | .setTailSnapshotSelect .. => execSetTailSnapshotSelect_runs h
  | .getTailSnapshotSelect .. => execGetTailSnapshotSelect_runs h
  | .setTetherPortDisable .. => execSetTetherPortDisable_runs h
  | .setTetherPortEnable .. => execSetTetherPortEnable_runs h
  | .setTetherPortRetrain .. => execSetTetherPortRetrain_runs h
  | .getTetherPortControl .. => execGetTetherPortControl_runs h
  | .setDecodeScheduling .. => execSetDecodeScheduling_runs h
  | .getDecodeScheduling .. => execGetDecodeScheduling_runs h
  | .setReadRecoveryControl .. => execSetReadRecoveryControl_runs h
  | .getReadRecoveryControl .. => execGetReadRecoveryControl_runs h
  | .setWriteSafetyControl .. => execSetWriteSafetyControl_runs h
  | .getWriteSafetyControl .. => execGetWriteSafetyControl_runs h
  | .setControlSetOverride .. => execSetControlSetOverride_runs h
  | .getControlSetOverride .. => execGetControlSetOverride_runs h
  | .setSpindleRun .. => execSetSpindleRun_runs h
  | .setSpindleStop .. => execSetSpindleStop_runs h
  | .setSpindleReturnToPolicy .. => execSetSpindleReturnToPolicy_runs h
  | .getSpindleControl .. => execGetSpindleControl_runs h
  | .setPartnerControl .. => execSetPartnerControl_runs h
  | .getPartnerControl .. => execGetPartnerControl_runs h
  | .setCacheControl .. => execSetCacheControl_runs h
  | .getCacheControl .. => execGetCacheControl_runs h
  | .setBallastControl .. => execSetBallastControl_runs h
  | .getBallastControl .. => execGetBallastControl_runs h
  | .setBackgroundControl .. => execSetBackgroundControl_runs h
  | .getBackgroundControl .. => execGetBackgroundControl_runs h
  | .setThermalControl .. => execSetThermalControl_runs h
  | .getThermalControl .. => execGetThermalControl_runs h
  | .setModeControl .. => execSetModeControl_runs h
  | .getModeControl .. => execGetModeControl_runs h
  | .zoneLocate .. => execZoneLocate_runs h
  | .tailControlFreeze .. => execTailControlFreeze_runs h
  | .tailControlThaw .. => execTailControlThaw_runs h
  | .tailControlClear .. => execTailControlClear_runs h
  | .spindleServiceClear .. => execSpindleServiceClear_runs h
  | .spindleServiceTest .. => execSpindleServiceTest_runs h
  | .spindleTestEnd .. => execSpindleTestEnd_runs h
  | .spindleServiceCalibrate .. => execSpindleServiceCalibrate_runs h
  | .roleHandover .. => execRoleHandover_runs h
  | .updateConfirm .. => execUpdateConfirm_runs h
  | .pageRetire .. => execPageRetire_runs h
  | .memoryCheckSingleBit .. => execMemoryCheckSingleBit_runs h
  | .memoryCheckUncorrectable .. => execMemoryCheckUncorrectable_runs h
  | .memoryCheckPoison .. => execMemoryCheckPoison_runs h
  | .memoryCodeStore .. => execMemoryCodeStore_runs h
  | .calibrateActuator .. => execCalibrateActuator_runs h
  | .fetchEnWrite .. => execFetchEnWrite_runs h
  | .hifSlotsRead .. => execHifSlotsRead_runs h
  | .dramTempSample .. => execDramTempSample_runs h
  | .mepFlipArm .. => execMepFlipArm_runs h
  | .pageRetireGo .. => execPageRetireGo_runs h
  | .pageRetireDone => execPageRetireDone_runs h
  | .celogEntryFree .. => execCelogEntryFree_runs h
  | .celogClear .. => execCelogClear_runs h
  | .mepCodeLock .. => execMepCodeLock_runs h
  | .cacheFillDone .. => execCacheFillDone_runs h
  | .cacheWritebackDone .. => execCacheWritebackDone_runs h
  | .prefetchIssue .. => execPrefetchIssue_runs h
  | .cacheDisable .. => execCacheDisable_runs h
  | .cacheDrainDone => execCacheDrainDone_runs h
  | .cacheEnable .. => execCacheEnable_runs h
  | .cacheInvalidate .. => execCacheInvalidate_runs h
  | .cacheInvalidateDone => execCacheInvalidateDone_runs h
  | .ledgerEvaluation .. => execLedgerEvaluation_runs h
  | .shelfPfailAssert => execShelfPfailAssert_runs h
  | .safeStagingStart => execSafeStagingStart_runs h
  | .safeStagingDone => execSafeStagingDone_runs h
  | .shelfPfailDeassert => execShelfPfailDeassert_runs h
  | .safeExit => execSafeExit_runs h
  | .vaonGood => execVaonGood_runs h
  | .xtalStart => execXtalStart_runs h
  | .mainPgRise .. => execMainPgRise_runs h
  | .mainPgFall => execMainPgFall_runs h
  | .watchWakeSource .. => execWatchWakeSource_runs h
  | .pllUnlock .. => execPllUnlock_runs h
  | .domainPowerGood .. => execDomainPowerGood_runs h
  | .domainPowerFail .. => execDomainPowerFail_runs h
  | .domainHoldWrite .. => execDomainHoldWrite_runs h
  | .domainBlockWrite .. => execDomainBlockWrite_runs h
  | .modeChoiceWindow => execModeChoiceWindow_runs h
  | .modeForceWrite .. => execModeForceWrite_runs h
  | .maintEntry => execMaintEntry_runs h
  | .envelopeLimit .. => execEnvelopeLimit_runs h
  | .pwrMeasRead .. => execPwrMeasRead_runs h
  | .sysReset .. => execSysReset_runs h
  | .softwareReset .. => execSoftwareReset_runs h
  | .ridgeWatchdogExpire => execRidgeWatchdogExpire_runs h
  | .wdogKick .. => execWdogKick_runs h
  | .uptimeWrap => execUptimeWrap_runs h
  | .vbandChange .. => execVbandChange_runs h
  | .vcoreUndervoltage => execVcoreUndervoltage_runs h
  | .debugAttach .. => execDebugAttach_runs h
  | .romImageCheck .. => execRomImageCheck_runs h
  | .peerImageServe => execPeerImageServe_runs h
  | .dramTrainingDone .. => execDramTrainingDone_runs h
  | .roleSettleWindowEnd => execRoleSettleWindowEnd_runs h
  | .powerPolicyEvaluation .. => execPowerPolicyEvaluation_runs h
  | .taskCreditTick => execTaskCreditTick_runs h
  | .actuatorCommandBoundary .. => execActuatorCommandBoundary_runs h
  | .urgentSlotEnd .. => execUrgentSlotEnd_runs h
  | .fetchPause .. => execFetchPause_runs h
  | .taskUnitScrub .. => execTaskUnitScrub_runs h
  | .taskUnitCal .. => execTaskUnitCal_runs h
  | .taskUnitMove .. => execTaskUnitMove_runs h
  | .taskUnitDestage .. => execTaskUnitDestage_runs h
  | .taskUnitWear .. => execTaskUnitWear_runs h
  | .taskUnitPatrol .. => execTaskUnitPatrol_runs h
  | .taskUnitFlash .. => execTaskUnitFlash_runs h
  | .taskUnitTelem => execTaskUnitTelem_runs h
  | .tempSample .. => execTempSample_runs h
  | .sensorTimeout .. => execSensorTimeout_runs h
  | .dieTempSample .. => execDieTempSample_runs h
  | .thermalTrip => execThermalTrip_runs h
  | .mechB5Unload .. => execMechB5Unload_runs h
  | .calibrationItemDone .. => execCalibrationItemDone_runs h
  | .calqWrite .. => execCalqWrite_runs h
  | .nop .. => execNop_runs h
  | .ret .. => execRet_runs h
  | .disp .. => execDisp_runs h
  | .haltpt .. => execHaltpt_runs h
  | .done .. => execDone_runs h
  | .ldi .. => execLdi_runs h
  | .ldh .. => execLdh_runs h
  | .aluAdd .. => execAluAdd_runs h
  | .aluSub .. => execAluSub_runs h
  | .aluAnd .. => execAluAnd_runs h
  | .aluOr .. => execAluOr_runs h
  | .aluXor .. => execAluXor_runs h
  | .aluMov .. => execAluMov_runs h
  | .aluInc .. => execAluInc_runs h
  | .aluDec .. => execAluDec_runs h
  | .aluShl .. => execAluShl_runs h
  | .aluShr .. => execAluShr_runs h
  | .aluCmp .. => execAluCmp_runs h
  | .aluTst .. => execAluTst_runs h
  | .aluAddc .. => execAluAddc_runs h
  | .aluSubc .. => execAluSubc_runs h
  | .aluNot .. => execAluNot_runs h
  | .aluClr .. => execAluClr_runs h
  | .brc .. => execBrc_runs h
  | .brn .. => execBrn_runs h
  | .jmp .. => execJmp_runs h
  | .call .. => execCall_runs h
  | .dly .. => execDly_runs h
  | .wait .. => execWait_runs h
  | .waitTimeout .. => execWaitTimeout_runs h
  | .memLoad .. => execMemLoad_runs h
  | .memStore .. => execMemStore_runs h
  | .send .. => execSend_runs h
  | .illegalMicroword .. => execIllegalMicroword_runs h
  | .portLanes .. => execPortLanes_runs h
  | .portWgate .. => execPortWgate_runs h
  | .portRdwin .. => execPortRdwin_runs h
  | .portWflit .. => execPortWflit_runs h
  | .portPrecomp .. => execPortPrecomp_runs h
  | .portCnt0 .. => execPortCnt0_runs h
  | .portCnt1 .. => execPortCnt1_runs h
  | .portStatus .. => execPortStatus_runs h
  | .portRung .. => execPortRung_runs h
  | .portAdmit .. => execPortAdmit_runs h
  | .portXfer .. => execPortXfer_runs h
  | .portMirror .. => execPortMirror_runs h
  | .portCommit .. => execPortCommit_runs h
  | .portJournal .. => execPortJournal_runs h
  | .portEncode .. => execPortEncode_runs h
  | .portTimer .. => execPortTimer_runs h
  | .outUnlistedPort .. => execOutUnlistedPort_runs h
  | .inSect .. => execInSect_runs h
  | .inTrack .. => execInTrack_runs h
  | .inRes .. => execInRes_runs h
  | .inSync .. => execInSync_runs h
  | .inInh .. => execInInh_runs h
  | .inWedge .. => execInWedge_runs h
  | .inCmd .. => execInCmd_runs h
  | .inOpc .. => execInOpc_runs h
  | .inSlbaLo .. => execInSlbaLo_runs h
  | .inSlbaHi .. => execInSlbaHi_runs h
  | .inNlb .. => execInNlb_runs h
  | .inUnlistedPort .. => execInUnlistedPort_runs h
  | .zoneFlowStart .. => execZoneFlowStart_runs h
  | .fHaltWrite .. => execFHaltWrite_runs h
  | .zHaltWrite .. => execZHaltWrite_runs h
  | .zmapWrite .. => execZmapWrite_runs h
  | .sequencerRestart .. => execSequencerRestart_runs h
  | .patchRamWrite .. => execPatchRamWrite_runs h
  | .matchRegisterWrite .. => execMatchRegisterWrite_runs h
  | .peerHeartbeatSend => execPeerHeartbeatSend_runs h
  | .peerHeartbeatReceive .. => execPeerHeartbeatReceive_runs h
  | .resyncDone => execResyncDone_runs h
  | .partnerJudgement => execPartnerJudgement_runs h
  | .takeoverAcquireRetry => execTakeoverAcquireRetry_runs h
  | .ownershipConflict => execOwnershipConflict_runs h
  | .mirrorStreamReceive .. => execMirrorStreamReceive_runs h
  | .standbySelftestCycle .. => execStandbySelftestCycle_runs h
  | .handoverStart .. => execHandoverStart_runs h
  | .handoverQuietDone => execHandoverQuietDone_runs h
  | .handoverSyncDone => execHandoverSyncDone_runs h
  | .loopRecordReceive .. => execLoopRecordReceive_runs h
  | .handoverDone .. => execHandoverDone_runs h
  | .relayChunk .. => execRelayChunk_runs h
  | .relayEnd .. => execRelayEnd_runs h
  | .relayStatus .. => execRelayStatus_runs h
  | .fwKeyRevoke .. => execFwKeyRevoke_runs h
  | .mbxDataWrite .. => execMbxDataWrite_runs h
  | .mbxDbSet .. => execMbxDbSet_runs h
  | .mbxDbClear .. => execMbxDbClear_runs h
  | .mbxBindWrite .. => execMbxBindWrite_runs h
  | .mbxLock .. => execMbxLock_runs h
  | .mbxPartyRst .. => execMbxPartyRst_runs h
  | .smbusClockLowReset => execSmbusClockLowReset_runs h
  | .mctpMbxRead .. => execMctpMbxRead_runs h
  | .mctpMbxWrite .. => execMctpMbxWrite_runs h
  | .mbxQcsRead .. => execMbxQcsRead_runs h
  | .mbxQcsWrite .. => execMbxQcsWrite_runs h
  | .mbxGetFeature .. => execMbxGetFeature_runs h
  | .mbxSetFeature .. => execMbxSetFeature_runs h
  | .mbxLogRead .. => execMbxLogRead_runs h
  | .mbxInvalidCommand .. => execMbxInvalidCommand_runs h
  | .eventSourceRise .. => execEventSourceRise_runs h
  | .evtPendClear .. => execEvtPendClear_runs h
  | .smbusAlertResponse => execSmbusAlertResponse_runs h
  | .tailFreezeWrite .. => execTailFreezeWrite_runs h
  | .tailClear .. => execTailClear_runs h
  | .flashProgram .. => execFlashProgram_runs h
  | .flashErase .. => execFlashErase_runs h
  | .flashPageRead .. => execFlashPageRead_runs h
  | .flashProgramPulseDone .. => execFlashProgramPulseDone_runs h
  | .flashErasePulseDone .. => execFlashErasePulseDone_runs h
  | .cqHeadDoorbellWrite .. => execCqHeadDoorbellWrite_runs h
  | .sectorStart .. => execSectorStart_runs h
  | .vaonLoss => execVaonLoss_runs h
  | .pllLock .. => execPllLock_runs h
  | .bridleClockStop => execBridleClockStop_runs h
  | .threadTimerExpiry .. => execThreadTimerExpiry_runs h
  | .keepAliveTimerExpiry .. => execKeepAliveTimerExpiry_runs h
  | .d3hotExit .. => execD3hotExit_runs h

/-! ### Steps -/

/-- The state whose queue has lost its front. -/
def popped (s : State) : State := { s with pending := s.pending.tail }

/-- The invariant does not speak of the queue. -/
theorem Inv.popped {s : State} (h : Inv s) : Inv (popped s) := ⟨h.regs, h.tails, h.errLog, h.status⟩

/-- Every step answers a next state, which keeps what the state without the queue's front has. -/
theorem step_runs (s : State) : Runs (popped s) (step s) := by
  unfold step popped
  cases hq : s.pending with
  | nil =>
    have hs : ({ s with pending := [] } : State) = s := by rw [← hq]
    exact Runs.next (uptimeTick_keeps (by rw [List.tail_nil, hs]; exact Keeps.refl s))
  | cons c rest => exact exec_runs (Keeps.refl _) c

/-- A step that answers `t` keeps the invariant. -/
theorem step_keeps_inv {s t : State} (h : Inv s) (e : step s = .next t) : Inv t := by
  obtain ⟨u, hu, hk⟩ := step_runs s
  cases hu.symm.trans e
  exact hk.inv h.popped

/-- A run of any length goes on: `n` steps take `n` commands off the queue and only add outputs. -/
theorem runTo_drop (n : Nat) (s : State) : ∃ t, RunTo n s t ∧ t.pending = s.pending.drop n ∧ s.out <:+ t.out := by
  induction n generalizing s with
  | zero => exact ⟨s, rfl, rfl, List.suffix_rfl⟩
  | succ n ih =>
    obtain ⟨u, hu, hk⟩ := step_runs s
    obtain ⟨t, hrun, hpend, hout⟩ := ih u
    have hq : u.pending = s.pending.tail := hk.pending
    refine ⟨t, ⟨u, hu, hrun⟩, ?_, hk.out.trans hout⟩
    rw [hpend, hq, List.drop_tail]

/-- The empty register file is canonical. -/
theorem RegsWf.nil : RegsWf [] := ⟨List.Pairwise.nil, List.forall_mem_nil _⟩

/-- The device after reset meets the invariant: nothing is listed anywhere. -/
theorem inv_reset : Inv State.reset :=
  ⟨RegsWf.nil, List.forall_mem_nil _, Nat.zero_le _, Nat.zero_le _⟩

end Sys2Proof.Machine

open Sys2Proof Sys2Proof.Machine

/-- Settles O4, by the laws of all meanings and of the idle step. -/
theorem stepKeepsInvariant : Obligations.StepKeepsInvariant := by
  unfold Obligations.StepKeepsInvariant
  exact fun _ _ => step_keeps_inv

/-- Settles O5, by the laws of all meanings and induction on the length of the run. -/
theorem everyCommandAnswers : Obligations.EveryCommandAnswers := by
  unfold Obligations.EveryCommandAnswers
  refine ⟨fun c s => ?_, fun n s => ?_, fun s => ?_⟩
  · obtain ⟨t, ht, hk⟩ := exec_runs (Keeps.refl s) c
    exact ⟨t, ht, hk.pending, hk.out⟩
  · obtain ⟨t, ht, -⟩ := runTo_drop n s
    exact ⟨t, ht⟩
  · obtain ⟨t, ht, hpend, hout⟩ := runTo_drop s.pending.length s
    exact ⟨t, ht, hpend.trans List.drop_length, hout⟩

/-- Settles O3: the lists of the reset state are empty. -/
theorem resetHasInvariant : Obligations.ResetHasInvariant := by
  unfold Obligations.ResetHasInvariant
  exact ⟨inv_reset, rfl, rfl⟩

end

section
/-! Events and accesses that reach no register: what they leave, and the bits they set. -/
namespace Sys2Proof.Machine
open Sys2Proof

/-! ### Event registers -/

theorem routerReg_above {a : Nat} (h : 0x0500000 ≤ a) : routerReg a = false := by
  simp only [routerReg, decide_eq_false (Nat.not_lt.2 h), Bool.and_false]

/-- No EVT register but the router's and the recorders' own lies in their area. -/
theorem evtAddr_not_router {b : EvtBlk} (h1 : b ≠ .evt) (h2 : b ≠ .tail) : routerReg (evtAddr b) = false := by
  cases b with
  | evt => exact absurd rfl h1
  | tail => exact absurd rfl h2
  | pwr | zmp | bgw | mcs | hif | buf | cch | mep | bal | thm | prt | mbx | fls => decide
  | ldc | tht | tth | det | fmt | srv | ws | brd | spn | ast =>
    exact routerReg_above (Nat.le_add_right_of_le (by decide))

/-- The rises that an EVT change brings leave every register outside the router. -/
theorem rd_risesOf {b : EvtBlk} {a : Nat} (hb : ∀ x ∈ evtSources b, x.1 < 640) (hr : routerReg a = false) (s old : State) :
    rd (risesOf s old b) a = rd s a :=
  (Only.risesOf (l := []) hb (Only.refl [] s)).1 a List.not_mem_nil hr

/-- A hardware set of an event bit of a block outside the router sets it. -/
theorem evtSet_sets {b : EvtBlk} {i : Nat} (hb : ∀ x ∈ evtSources b, x.1 < 640) (h1 : b ≠ .evt) (h2 : b ≠ .tail)
    (hi : i < 32) (s : State) : bitOf (rd (evtSet s b i) (evtAddr b)) i = true := by
  rw [evtSet, rd_risesOf hb (evtAddr_not_router h1 h2), wbit, rd_wr_same]
  exact bitOf_setBit hi _ _

/-! ### Accesses that reach no register -/

/-- The end of an access of R16 touches the router and the recorders only. -/
theorem Only.undefEnd {l : List Nat} {s t : State} {m : Master} {a : Nat} (h : Only l s t) : Only l s (undefEnd t m a) := by
  unfold Machine.undefEnd undefinedAccess
  refine Only.sourceRise (by decide) (Only.evtUpd ?_)
  split
  · exact Only.emit h
  · exact h

/-- Source 3 is pending after the end of an access of R16. -/
theorem undefEnd_pends (s : State) (m : Master) (a : Nat) : bitOf (rd (undefEnd s m a) (EVT_PEND 0)) 3 = true :=
  sourceRise_pends (n := 3) (by decide)

/-- The end of an access of R16 records the master's identity and the offset. -/
theorem undefEnd_undefBy (s : State) (m : Master) (a : Nat) : (undefEnd s m a).evt.undefBy = some (masterId m, a) :=
  sourceRise_undefBy _ 3

/-- What R16 lays down of an access: its frame, source 3 with the master and the offset, and the 0 that a read returns. -/
def AnswersR16 (m : Master) (a : Nat) (w : Bool) (s t : State) : Prop :=
  Only [] s t ∧ bitOf (rd t (EVT_PEND 0)) 3 = true ∧ t.evt.undefBy = some (masterId m, a) ∧
    (w = false → (.readData m a 0 :: s.out) <:+ t.out)

theorem undefAccess_answers (m : Master) (a : Nat) (w : Bool) (s : State) : AnswersR16 m a w s (undefAccess s m a w) := by
  refine ⟨Only.undefEnd ?_, undefEnd_pends _ m a, undefEnd_undefBy _ m a, ?_⟩
  · exact Only.ite (Only.refl [] s) (Only.emit (Only.refl [] s))
  · rintro rfl
    exact (Only.undefEnd (Only.refl [] (emit s (.readData m a 0)))).2.2

theorem exec_qcsUndefinedAccess {s : State} {m : Master} {a : Nat} (h : accessUndefined s m a = true) (w : Bool) :
    exec (.qcsUndefinedAccess m a w) s = .next (undefAccess s m a w) :=
  congrArg Host.Outcome.next (if_pos h)

theorem exec_misalignedQcsAccess {m : Master} {a : Nat} {wd : Width} (h : alignedFor wd a = false) (w : Bool) (s : State) :
    exec (.misalignedQcsAccess m a wd w) s = .next (undefAccess s m a w) :=
  congrArg Host.Outcome.next (if_neg (by rw [h]; decide))

end Sys2Proof.Machine

open Sys2Proof Sys2Proof.Machine

/-- Settles O6: the frame of a hardware set, and the bit that the rises after it cannot reach. -/
theorem eventsReachTheRouter : Obligations.EventsReachTheRouter := by
  unfold Obligations.EventsReachTheRouter
  exact fun b i s hb => ⟨Only.evtSet hb (.inl List.mem_cons_self) (Only.refl _ s),
    fun h1 h2 hi => evtSet_sets hb h1 h2 hi s⟩

/-- Settles O8: both commands end as `undefAccess` does. -/
theorem undefinedAccesses : Obligations.UndefinedAccesses := by
  unfold Obligations.UndefinedAccesses
  exact fun m a _ s =>
    ⟨fun h w => ⟨_, exec_qcsUndefinedAccess h w, undefAccess_answers m a w s⟩,
      fun h w => ⟨_, exec_misalignedQcsAccess h w s, undefAccess_answers m a w s⟩⟩

end

section
/-! Accesses of the control space that reach a register, and expert claims. -/
namespace Sys2Proof.Machine
open Sys2Proof

variable {s : State} {m : Master} {a : Nat}

/-! ### Writes -/

theorem writeWord_reach (ha : a % 4 = 0) (h : accessUndefined s m a = false) (v : Word) :
    writeWord s m a v = storeWord (dropLatch s m a) m (homeAddr a) v :=
  if_neg (by simp [h, ha])

theorem execRegisterWrite_b1 (h : accessUndefined s m a = false) (v : BitVec 64) :
    execRegisterWrite m a .b1 v s = .next s :=
  congrArg Host.Outcome.next ((if_neg Bool.false_ne_true).trans (if_neg (by rw [h]; decide)))

theorem execRegisterWrite_b2 (ha : a % 2 = 0) (h : accessUndefined s m a = false) (v : BitVec 64) :
    execRegisterWrite m a .b2 v s = .next s :=
  congrArg Host.Outcome.next ((if_neg (by simp [alignedFor, ha])).trans (if_neg (by rw [h]; decide)))

theorem execRegisterWrite_b4 (ha : a % 4 = 0) (v : BitVec 64) :
    execRegisterWrite m a .b4 v s = .next (writeWord s m a (v.setWidth 32)) :=
  congrArg Host.Outcome.next (if_neg (by simp [alignedFor, ha]))

theorem execRegisterWrite_b8 (ha : a % 4 = 0) (v : BitVec 64) :
    execRegisterWrite m a .b8 v s =
      .next (writeWord (writeWord s m a (v.setWidth 32)) m (a + 4) ((v >>> 32).setWidth 32)) :=
  congrArg Host.Outcome.next (if_neg (by simp [alignedFor, ha]))

/-! ### Reads -/

/-- A word that a register answers: its value, with the latches, RC fields and PEAK fields that the read moves. -/
theorem fetchWord_reach (ha : a % 4 = 0) (h : accessUndefined s m a = false) (hm : mbxMayRead s m a = true) :
    fetchWord s m a = (readValue s m a, restartPeak (clearRC (latchHigh (dropLatch s m a) m a) a) a) := by
  unfold fetchWord readWord
  simp [h, ha, hm]

theorem pcieDone_inside (h : hostPort m = none) : pcieDone s m = s := by
  unfold pcieDone
  rw [h]

theorem regRead_reach (ha : a % 4 = 0) (h : accessUndefined s m a = false) (hm : mbxMayRead s m a = true)
    (hp : hostPort m = none) :
    regRead s m a = emit (restartPeak (clearRC (latchHigh (dropLatch s m a) m a) a) a) (.readData m a (readValue s m a)) := by
  unfold regRead
  rw [fetchWord_reach ha h hm]
  exact pcieDone_inside hp

theorem readAccess_b1 : readAccess s m a .b1 = narrowRead s m a 1 := rfl

theorem readAccess_b2 (ha : a % 2 = 0) : readAccess s m a .b2 = narrowRead s m a 2 :=
  if_neg (by simp [alignedFor, ha])

theorem readAccess_b4 (ha : a % 4 = 0) : readAccess s m a .b4 = regRead s m a :=
  if_neg (by simp [alignedFor, ha])

theorem readAccess_b8 (ha : a % 4 = 0) : readAccess s m a .b8 =
    regRead (emit (fetchWord s m a).2 (.readData m a (fetchWord s m a).1)) m (a + 4) :=
  if_neg (by simp [alignedFor, ha])

/-- The two read commands are the read of QCS by its width. -/
theorem exec_wideRegisterLowRead {w : Width} {t : State} (h : readAccess s m a w = t) :
    exec (.wideRegisterLowRead m a w) s = .next t := congrArg Host.Outcome.next h

theorem exec_rcFieldRead {w : Width} {t : State} (h : readAccess s m a w = t) :
    exec (.rcFieldRead m a w) s = .next t := congrArg Host.Outcome.next h

/-! ### Expert claims -/

variable {b : Nat}

theorem writeXclaim_unclaimed (h : claimed s b = false) : writeXclaim s m b true =
    fsetb (fset s (xclaim b) XCLAIM_HOLDER (masterId m)) (xclaim b) XCLAIM_EXPERT true := by
  simp [writeXclaim, h]

theorem writeXclaim_other (h : claimed s b = true) (hm : fget s (xclaim b) XCLAIM_HOLDER ≠ masterId m) (x : Bool) :
    writeXclaim s m b x = s := by
  simp [writeXclaim, h, hm]

theorem writeXclaim_holder (h : claimed s b = true) (hm : fget s (xclaim b) XCLAIM_HOLDER = masterId m) (x : Bool) :
    writeXclaim s m b x = fsetb s (xclaim b) XCLAIM_EXPERT x := by
  simp [writeXclaim, h, hm]

theorem exec_expertClaim (hr : qcsReach s m a = true) (hb : xclaimBase a = some b) :
    exec (.expertClaim m a) s = .next (writeXclaim s m b true) := by
  show execExpertClaim m a s = _
  simp [execExpertClaim, hr, hb]

theorem exec_expertRelease (hr : qcsReach s m a = true) (hb : xclaimBase a = some b) :
    exec (.expertRelease m a) s = .next (claimsFreed (writeXclaim s m b false)) := by
  show execExpertRelease m a s = _
  simp [execExpertRelease, hr, hb]

end Sys2Proof.Machine

open Sys2Proof Sys2Proof.Machine

/-- Settles O16: each width of a write and of a read, and `undefAccess` for what reaches no register. -/
theorem registerAccess : Obligations.RegisterAccess := by
  unfold Obligations.RegisterAccess
  exact ⟨fun m a v s ha h => (execRegisterWrite_b4 ha v).trans (congrArg Host.Outcome.next (writeWord_reach ha h _)),
    fun m a v s h => execRegisterWrite_b1 h v,
    fun m a v s ha h => execRegisterWrite_b2 ha h v, fun m a v s ha => execRegisterWrite_b8 ha v,
    fun m a w s h => exec_qcsUndefinedAccess h w, fun m a wd w s h => exec_misalignedQcsAccess h w s,
    fun m a s ha h hm hp => exec_wideRegisterLowRead ((readAccess_b4 ha).trans (regRead_reach ha h hm hp)),
    fun m a s ha => exec_wideRegisterLowRead (readAccess_b8 ha),
    fun m a s ha => exec_wideRegisterLowRead (readAccess_b2 ha),
    fun m a s => exec_wideRegisterLowRead readAccess_b1,
    fun m a s ha h hm hp => exec_rcFieldRead ((readAccess_b4 ha).trans (regRead_reach ha h hm hp)),
    fun m a s ha => exec_rcFieldRead (readAccess_b8 ha),
    fun m a s ha => exec_rcFieldRead (readAccess_b2 ha),
    fun m a s => exec_rcFieldRead readAccess_b1⟩

/-- Settles O17, by the three cases of a write of EXPERT. -/
theorem expertClaims : Obligations.ExpertClaims := by
  unfold Obligations.ExpertClaims
  refine ⟨fun m a b s hr hb hc => ?_, fun m a b s hr hb hc hm => ?_, fun m a b s hr hb hc hm => ?_⟩
  · rw [exec_expertClaim hr hb, writeXclaim_unclaimed hc]
  · rw [exec_expertClaim hr hb, writeXclaim_other hc hm]
  · rw [exec_expertRelease hr hb, writeXclaim_holder hc hm]

end

section
/-! The commands of the unit table: recompute, policy, wake and retirement (chapter 1). -/
namespace Sys2Proof.Machine
open Sys2Proof

variable {s : State} {u : Fin 4095}

/-! ### Recompute and policy -/

theorem exec_compositeRecompute (hu : uUsed s u = true) (hk : uKind s u ≠ 0) :
    exec (.compositeRecompute u) s = .next (recompute s u) :=
  congrArg Host.Outcome.next (if_pos ⟨hu, hk⟩)

theorem exec_unitPolicyWrite {m : Master} (hr : qcsReach s m (TRS_UNIT_FACE u) = true) (hm : trsMayWrite s m = true)
    (hu : uUsed s u = true) (pol : BitVec 4) :
    exec (.unitPolicyWrite m u pol) s = .next (fset s (TRS_UNIT_FACE u) TRS_UNIT_FACE_POLICY pol.toNat) :=
  congrArg Host.Outcome.next ((regWrite_reach hr _).trans (if_pos ⟨hm, hu⟩))

/-! ### Wakes -/

theorem exec_unitWakeDemand (hu : uUsed s u = true) : exec (.unitWakeDemand u) s = .next (wakeDemand s u) :=
  congrArg Host.Outcome.next (if_pos hu)

/-- The command once every port of the unit is awake: the WAKING leaves settle, then the mechanisms' requests end. -/
theorem exec_unitWakeComplete (hu : uUsed s u = true) (hw : (portsOf s u).all (wakeDone s) = true) :
    exec (.unitWakeComplete u) s = .next (forAll (mechsOf s u)
      (forAll ((subtree s u).filter fun v => uKind s v == 0) s fun s v =>
        if uState s v = 2 then setUState s v (wokenState s v) else s)
      fun s v => setAux s v fun x => { x with wakeWanted := false }) :=
  congrArg Host.Outcome.next (if_pos ⟨hu, hw⟩)

/-! ### Retirement -/

/-- From READY, DEGRADED, ASLEEP or FAILED a cause retires the unit (Table 1-3). -/
theorem retireUnit_retires {v c : Nat} (hv : uState s v = 3 ∨ uState s v = 4 ∨ uState s v = 1 ∨ uState s v = 5)
    (hc : c ≠ 0) : retireUnit s v c =
      let t := setAux (finishZonesIn s v) v fun x => { x with own := some 6, grades := (0, c) :: x.grades }
      setUState (setUGrade t v (uGrade t v) c) v 6 := by
  simp only [retireUnit, if_pos hv, if_neg hc]

/-- From ABSENT, WAKING or RETIRED there is no such transition (Table 1-3). -/
theorem retireUnit_stays {v : Nat} (hv : uState s v = 0 ∨ uState s v = 2 ∨ uState s v = 6) (c : Nat) :
    retireUnit s v c = s :=
  if_neg (by omega)

theorem exec_unitRetire (hu : uUsed s u = true) (c : BitVec 8) :
    exec (.unitRetire u c) s = .next (retireUnit s u c.toNat) :=
  congrArg Host.Outcome.next (if_pos hu)

end Sys2Proof.Machine

open Sys2Proof Sys2Proof.Machine

/-- Settles O18: one law per command, and a retirement by whether Table 1-3 has a transition from the unit's state. -/
theorem unitCommands : Obligations.UnitCommands := by
  unfold Obligations.UnitCommands
  refine ⟨fun u s => exec_compositeRecompute, fun m u pol s hr hm hu => exec_unitPolicyWrite hr hm hu pol,
    fun u s => exec_unitWakeDemand, fun u s => exec_unitWakeComplete,
    fun u c s hu hst _ hc => ?_, fun u c s hu hst => ?_⟩
  · rw [exec_unitRetire hu, retireUnit_retires hst hc]
  · rw [exec_unitRetire hu, retireUnit_stays hst]

end

section
/-! Get Log Page and Get Features: what a read leaves in the registers. -/
namespace Sys2Proof.Machine
open Sys2Proof

/-! ### The frame of a read -/

/-- From `s` to `t` no register changes but those a completion on port `x` counts in, and the router's and recorders'. -/
abbrev CompletionOnly (x : HPort) (s t : State) : Prop := RegsOnly [HIF_PORT_CNT (portId x) 0, HIF_EVT] s t

theorem RegsOnly.ite {l : List Nat} {s t u : State} {c : Prop} [Decidable c] (h : RegsOnly l s t) (g : RegsOnly l s u) :
    RegsOnly l s (if c then t else u) := by
  split <;> assumption

theorem setCtl_regs (s : State) (p : Nat) (f : Ctl → Ctl) : (setCtl s p f).regs = s.regs := rfl

variable {x : HPort} {cid : BitVec 16} {s : State} {c : Instr}

theorem CompletionOnly.logPage {ofst len : BitVec 32} {page : List Nat} :
    CompletionOnly x s (logPage s x cid ofst len page) :=
  RegsOnly.adminCmd RegsOnly.logData

/-! ### Commands of the shapes that a read has -/

/-- A command that transfers a page and does nothing else. -/
theorem does_of_logPage {ofst len : BitVec 32} {page : List Nat} (h : exec c s = .next (logPage s x cid ofst len page)) :
    Does c s (CompletionOnly x s) :=
  ⟨_, h, CompletionOnly.logPage⟩

/-- An admin command whose work keeps to the completion's registers. -/
theorem does_of_adminCmd {f : State → State} (h : exec c s = .next (adminCmd s x f)) (hf : CompletionOnly x s (f s)) :
    Does c s (CompletionOnly x s) :=
  ⟨_, h, RegsOnly.adminCmd hf⟩

/-- The same for Get Features. -/
theorem does_of_getFeat {f : State → Nat → Nat → State} (h : exec c s = .next (getFeat s x cid f))
    (hf : CompletionOnly x s (f s (portId x) cid.toNat)) : Does c s (CompletionOnly x s) :=
  does_of_adminCmd h hf

/-! ### Pages with a side effect beyond the registers -/

theorem does_logSmartHealth (nsid ofst len : BitVec 32) :
    Does (.logSmartHealth x cid nsid ofst len) s (CompletionOnly x s) :=
  does_of_adminCmd rfl (RegsOnly.ite RegsOnly.adminEnd (RegsOnly.logData (s := { s with free := s.free + 512 })))

theorem does_logChangedNamespaceList (rae : Bool) (ofst len : BitVec 32) :
    Does (.logChangedNamespaceList x cid rae ofst len) s (CompletionOnly x s) :=
  does_of_adminCmd rfl (RegsOnly.ite RegsOnly.logData (RegsOnly.logData.of_regs (setCtl_regs ..)))

theorem does_logEventStatus (rae : Bool) (ofst len : BitVec 32) :
    Does (.logEventStatus x cid rae ofst len) s (CompletionOnly x s) :=
  does_of_adminCmd rfl (RegsOnly.ite RegsOnly.logData (RegsOnly.logData.of_regs rfl))

theorem does_logChangedZoneList (nsid : BitVec 32) (rae : Bool) (ofst len : BitVec 32) :
    Does (.logChangedZoneList x cid nsid rae ofst len) s (CompletionOnly x s) :=
  does_of_adminCmd rfl (RegsOnly.ite RegsOnly.logData (RegsOnly.logData.of_regs (setCtl_regs ..)))

theorem does_logOrphanedCompletions (lsp : BitVec 7) (ofst len : BitVec 32) :
    Does (.logOrphanedCompletions x cid lsp ofst len) s (CompletionOnly x s) :=
  does_of_adminCmd rfl (RegsOnly.ite (RegsOnly.logData.of_regs rfl) RegsOnly.logData)

end Sys2Proof.Machine

open Sys2Proof Sys2Proof.Machine

/-- Settles O10: every read is an admin command that transfers a page or answers values, then completes. -/
theorem readingChangesNoRegister : Obligations.ReadingChangesNoRegister := by
  unfold Obligations.ReadingChangesNoRegister
  simp only [List.forall_mem_cons, List.not_mem_nil, false_implies, implies_true, and_true]
  refine ⟨fun x cid ofst len s => ?pages, fun x cid nsid ofst len s => does_logSmartHealth nsid ofst len,
    fun x cid rae ofst len s => ⟨does_logChangedNamespaceList rae ofst len, does_logEventStatus rae ofst len⟩,
    fun x cid nsid rae ofst len s => does_logChangedZoneList nsid rae ofst len,
    fun x cid lsp ofst len s => ⟨does_of_logPage rfl, does_logOrphanedCompletions lsp ofst len⟩,
    fun x cid dw11 s => ?selectedFeatures, fun x cid s => ?features, fun x cid p s => ?portFeatures⟩
  case pages => and_intros <;> exact does_of_logPage rfl
  case selectedFeatures => and_intros <;> exact does_of_getFeat rfl (RegsOnly.ite RegsOnly.adminEnd RegsOnly.featValue)
  case features => and_intros <;> exact does_of_getFeat rfl RegsOnly.featValue
  case portFeatures => and_intros <;> exact does_of_getFeat rfl RegsOnly.featValue

end

section
/-! Truss images: downloads, commits, the loader's steps, the partner's agreement, and the loader's registers (chapter 2). -/
namespace Sys2Proof.Machine
open Sys2Proof

variable {s : State} {x : HPort} {cid : BitVec 16} {m : Master} {j : LoadJob}

/-! ### Commands of a ready controller and of a register that is reached -/

/-- An admin command of a ready controller does its work. -/
theorem exec_adminCmd {c : Instr} {f : State → State} {t : State} (h : exec c s = .next (adminCmd s x f))
    (hp : portExists s (portId x) = true) (hr : (ctl s (portId x)).ready = true) (hf : f s = t) : exec c s = .next t := by
  rw [h, adminCmd_ready hp hr, hf]

/-- A register command that reaches its register does its work. -/
theorem exec_regWrite {c : Instr} {a : Nat} {f : State → State} {t : State} (h : exec c s = .next (regWrite s m a f))
    (hr : qcsReach s m a = true) (hf : f s = t) : exec c s = .next t := by
  rw [h, regWrite_reach hr, hf]

/-! ### Downloads -/

/-- A download past offset 0 that fits adds to the image in the staging window. -/
theorem exec_trussDownload_append {n o : BitVec 32} (hp : portExists s (portId x) = true)
    (hr : (ctl s (portId x)).ready = true) (hc : claimed s baseTRS = false) (ho : o ≠ 0)
    (hfit : o.toNat + (n.toNat + 1) ≤ 65536) (d : List Word) :
    exec (.trussDownload x cid n o d) s = .next (
      let t := placeWords s o.toNat (d.take (n.toNat + 1))
      adminOk { t with trs := { t.trs with stagedLen := max t.trs.stagedLen (4 * (o.toNat + (n.toNat + 1))) } } (portId x)
        cid.toNat 0) := by
  refine exec_adminCmd rfl hp hr ?_
  simp only [hc, Bool.false_eq_true, if_false, if_neg (Nat.not_lt.2 hfit), if_neg ho]

/-! ### Truss Commit -/

theorem trussCommit_verify (hc : claimed s baseTRS = false) (hb : loaderBusy s = false) :
    trussCommit s x cid 1 false = startJob s ⟨1, false, some (portId x, cid.toNat), false⟩ := by
  simp [trussCommit, hc, hb]

/-- A load or a patch, which claims of TRS do not refuse, nor one of FLS where it stores. -/
theorem trussCommit_switch {what : Nat} {store : Bool} (hw : what ≠ 1) (hc : claimed s baseTRS = false)
    (hs : (store && claimed s baseFLS) = false) (hb : loaderBusy s = false) :
    trussCommit s x cid what store = armSwitch s ⟨what, store, some (portId x, cid.toNat), false⟩ := by
  simp [trussCommit, hw, hc, hs, hb]

/-! ### The loader -/

theorem exec_trussQuiesceWaitEnd (h : s.trs.waiting = some j) :
    exec .trussQuiesceWaitEnd s = .next (
      if fbit s TRS_LD_STAT TRS_LD_STAT_BUSY then commitBusy { s with trs := { s.trs with waiting := none } } j
      else startJob { s with trs := { s.trs with waiting := none } } j) := by
  show execTrussQuiesceWaitEnd s = _
  simp only [execTrussQuiesceWaitEnd, h]

/-- A verification ends with what the checks find. -/
theorem exec_trussVerifyDone_verify (h : s.trs.job = some j) (ha : j.awaitPeer = false) (hw : j.what = 1)
    (hf : cryptoFree s = true) :
    exec .trussVerifyDone s = .next (Sum.elim (fun x => loadEnd s x.1 x.2) (fun _ => loadEnd s 0 0)
      (checkImage s (stagedBytes s (jobLen s j)) (jobLen s j) (jobKinds j))) := by
  show execTrussVerifyDone s = _
  simp only [execTrussVerifyDone, h, ha, hf, hw, Bool.not_true, Bool.or_false, Bool.false_eq_true, if_false, if_true]
  cases checkImage s (stagedBytes s (jobLen s j)) (jobLen s j) (jobKinds j) <;> rfl

/-! ### The partner -/

/-- The checks are made again at the partner's agreement, and the switch follows. -/
theorem afterPartner_waiting (h : s.trs.job = some j) (ha : j.awaitPeer = true) :
    afterPartner s = Sum.elim (fun x => loadEnd s x.1 x.2) (switchStep s j (stagedBytes s (jobLen s j)))
      (checkImage s (stagedBytes s (jobLen s j)) (jobLen s j) (jobKinds j)) := by
  simp only [afterPartner, h, ha, Bool.not_true, Bool.false_eq_true, if_false]
  cases checkImage s (stagedBytes s (jobLen s j)) (jobLen s j) (jobKinds j) <;> rfl

theorem exec_trussPartnerAnswer (h : s.trs.job = some j) (ha : j.awaitPeer = true) (accept : Bool) :
    exec (.trussPartnerAnswer accept) s = .next (if accept then afterPartner s else loadEnd s 0x1C 0xFFFF) :=
  congrArg Host.Outcome.next (if_pos (by simp [h, ha]))

theorem exec_peerTrussCheck (h : cryptoFree s = true) (img : List Byte) :
    exec (.peerTrussCheck img) s = .next (Sum.elim (fun x => emit s (.peer 2 [x.1]))
      (fun t => switchFile (emit s (.peer 2 [0])) (img.map (·.toNat)) t)
      (checkImage s (img.map (·.toNat)) (img.map (·.toNat)).length [1, 2])) := by
  show execPeerTrussCheck img s = _
  simp only [execPeerTrussCheck, h, Bool.not_true, Bool.false_eq_true, if_false]
  cases checkImage s (img.map (·.toNat)) (img.map (·.toNat)).length [1, 2] <;> rfl

/-! ### The loader's registers -/

/-- A write of CMD by a permitted master while the loader is idle. -/
theorem loaderCmd_starts (hm : trsMayWrite s m = true) (hb : fbit s TRS_LD_STAT TRS_LD_STAT_BUSY = false) (what : Nat) :
    loaderCmd s m what = startJob s ⟨what, false, none, false⟩ := by
  simp [loaderCmd, hm, hb]

theorem exec_trsSeqFloorWrite (hr : qcsReach s m TRS_SEQ_FLOOR = true) (hm : trsMayWrite s m = true) (v : Word) :
    exec (.trsSeqFloorWrite m v) s = .next (if rdN s TRS_SEQ_FLOOR ≤ v.toNat then wr s TRS_SEQ_FLOOR v else s) := by
  refine exec_regWrite rfl hr ?_
  simp only [hm, true_and]

end Sys2Proof.Machine

open Sys2Proof Sys2Proof.Machine

/-- Settles O19: each command by the law of the operation that its hypotheses select. -/
theorem trussCommands : Obligations.TrussCommands := by
  unfold Obligations.TrussCommands
  refine ⟨fun x cid n o d s hp hr hc ho hfit => exec_trussDownload_append hp hr hc ho hfit d,
    ?commitVerify, ?commitLoadStore, ?commitPatchStore, ?commitLoad, ?commitPatch, ?quiesced, ?quiescedBusy,
    fun j s => exec_trussVerifyDone_verify, ?refused, ?accepted, ?timeout, fun img s h => exec_peerTrussCheck h img,
    ?ldVerify, ?ldLoad, ?ldPatch, ?floorRises, ?floorStays, ?keyRevoke, ?fenceSet, ?fenceRelease⟩
  case commitVerify =>
    exact fun x cid ms s hp hr hc hb => exec_adminCmd rfl hp hr (trussCommit_verify hc hb)
  case commitLoadStore | commitPatchStore =>
    exact fun x cid ms s hp hr hc hb hf => exec_adminCmd rfl hp hr (trussCommit_switch (by decide) hc hf hb)
  case commitLoad | commitPatch =>
    exact fun x cid ms s hp hr hc hb => exec_adminCmd rfl hp hr (trussCommit_switch (by decide) hc rfl hb)
  case quiesced | quiescedBusy => exact fun j s h hb => (exec_trussQuiesceWaitEnd h).trans (by simp [hb])
  case refused => exact fun j s h ha => exec_trussPartnerAnswer h ha false
  case accepted =>
    exact fun j s h ha =>
      (exec_trussPartnerAnswer h ha true).trans (congrArg Host.Outcome.next (afterPartner_waiting h ha))
  case timeout => exact fun j s h ha => congrArg Host.Outcome.next (afterPartner_waiting h ha)
  case ldVerify | ldLoad | ldPatch =>
    exact fun m s hr hm hb => exec_regWrite rfl hr (loaderCmd_starts hm hb _)
  case floorRises => exact fun m v s hr hm h => (exec_trsSeqFloorWrite hr hm v).trans (by rw [if_pos h])
  case floorStays => exact fun m v s hr hm h => (exec_trsSeqFloorWrite hr hm v).trans (by rw [if_neg (Nat.not_le.2 h)])
  case keyRevoke | fenceSet =>
    exact fun m v s hr hm => exec_regWrite rfl hr (if_pos hm)
  case fenceRelease =>
    exact fun m s hr hm => exec_regWrite rfl hr (if_pos hm)

end

section
/-! How an I/O command flows: doorbell, fetch, admission, write data, acknowledgement and commit point (chapter 10). -/
namespace Sys2Proof.Machine
open Sys2Proof

variable {s : State} {x : HPort} {sqid cid : BitVec 16} {c : Cmd}

/-! ### Queues -/

/-- The state in which a doorbell leaves its queue: the tail is the value modulo the queue's size. -/
def rung (s : State) (p : Nat) (q : Nat × Sq) (v : Nat) : State :=
  setCtl s p fun c => { c with sqs := tabPut c.sqs q.1 { q.2 with tail := v % max 1 q.2.size } }

/-- A doorbell of a queue that no unit is steered to moves the tail and wakes nothing. -/
theorem exec_sqDoorbellWrite_unsteered {q : Nat × Sq} {v : BitVec 16} (hp : portExists s (portId x) = true)
    (hr : (ctl s (portId x)).ready = true) (hq : (ctl s (portId x)).sqs.find? (fun q => q.1 == sqid.toNat) = some q)
    (hu : steered (rung s (portId x) q v.toNat) (portId x) sqid.toNat = none) :
    exec (.sqDoorbellWrite x sqid v) s = .next (rung s (portId x) q v.toNat) := by
  refine exec_adminCmd rfl hp hr ?_
  unfold rung at hu ⊢
  simp only [hq, hu]

/-- A queue that is not empty gives its head entry while fetching runs, its port is enabled and a slot is free. -/
theorem exec_commandFetch_takes {q : Nat × Sq} (hp : portExists s (portId x) = true)
    (hr : (ctl s (portId x)).ready = true) (hq : (ctl s (portId x)).sqs.find? (fun q => q.1 == sqid.toNat) = some q)
    (hne : q.2.head ≠ q.2.tail) (hrun : fetchRuns s = true)
    (hen : fget s HIF_CTRL HIF_CTRL_FETCH_EN / 2 ^ portId x % 2 = 1) (hfree : cmdSlotFree s (portId x) = true)
    (e : SqEntry) : exec (.commandFetch x sqid e) s = .next (takeEntry s (portId x) sqid.toNat q.2 e) := by
  refine exec_adminCmd rfl hp hr ?_
  simp [hq, hne, hrun, hen, hfree]

/-! ### The ledger -/

/-- The ledger's answer to the first write that waits: with the write-backs ahead it fits, or every waiter waits on. -/
theorem exec_ledgerAdmit (h : (ledgerWaiters s).head? = some c) :
    exec .ledgerAdmit s = .next (
      if admitsAll s (writeBacksAhead s c.order ++ [writeExt s c]) then
        setCmd (syncDirty (setZmp s fun z => { z with dirty := z.dirty ++ [writeExt s c] })) c fun d =>
          { d with admitted := true, xfer := d.opc == 0x08 }
      else forAll (ledgerWaiters s) s ledgerWait) := by
  show execLedgerAdmit s = _
  simp only [execLedgerAdmit, h]

/-! ### Write data -/

section
variable (h : findCmd s (portId x) sqid.toNat cid.toNat = some c) (ha : c.admitted = true) (hx : c.xfer = false)
  (hf : c.fail = none)
include h ha hx hf

theorem exec_hostDataReceived_taken {d : List Nat} (ho : c.opc = 0x01 ∨ c.opc = 0x7D) (hd : d.length = c.len) :
    exec (.hostDataReceived x sqid cid d) s = .next (
      mirror (bufferWritten (setCmd s c fun y => { y with data := d, xfer := true }) c) 3
        ([c.nsid, c.slba, c.len] ++ d)) := by
  show execHostDataReceived x sqid cid d s = _
  simp only [execHostDataReceived, h]
  rw [if_pos (by simp [ho, ha, hx, hf, hd])]

/-- Data that an admitted write still waits for is lost: the write fails, and poison is logged first (R257). -/
theorem dataLost_waiting (hw : isWrite c = true) (poisoned : Bool) :
    dataLost s x sqid cid poisoned = failCmd (if poisoned then
        evtSet (count (setCtl s c.port fun k => { k with aerPoisoned := true }) (HIF_PORT_CNT c.port 9) 1 .hif HIF_EVT_SAT)
          .hif HIF_EVT_POISON_RX
      else s) c 0 0x04 := by
  simp only [dataLost, h]
  rw [if_pos (by simp [hw, ha, hx, hf])]

end

theorem exec_mirrorAck_noted (h : findCmd s (portId x) sqid.toNat cid.toNat = some c) (hw : isWrite c = true)
    (hx : c.xfer = true) (hm : mirrorOn s = true) :
    exec (.mirrorAck x sqid cid) s = .next (setCmd s c fun d => { d with mirrored := true }) := by
  show execMirrorAck x sqid cid s = _
  simp only [execMirrorAck, h]
  rw [if_pos ⟨hw, hx, hm⟩]

/-! ### The commit point -/

section
variable {r : Nat × Cq} (h : findCmd s (portId x) sqid.toNat cid.toNat = some c) (hq : cqRoom s c.port c.sq = some r)
include h hq

/-- A command that has failed completes with its status. -/
theorem exec_commitPoint_failed {f : Nat × Nat} (hf : c.fail = some f) :
    exec (.commitPoint x sqid cid) s = .next (postCqe (digest s c c.slba f.1 f.2) c r.1 r.2 f.1 f.2 0 0) := by
  show execCommitPoint x sqid cid s = _
  simp only [execCommitPoint, h, hq, hf]

/-- A command other than a write completes with success once the conditions of Table 10-6 hold. -/
theorem exec_commitPoint_met (hf : c.fail = none) (hs : c.started = true) (hm : commitMet s c = true)
    (hw : isWrite c = false) :
    exec (.commitPoint x sqid cid) s = .next (postCqe (digest s c c.slba 0 0) c r.1 r.2 0 0 0 0) := by
  show execCommitPoint x sqid cid s = _
  simp [execCommitPoint, h, hq, hf, hs, hm, hw, commit]

end

end Sys2Proof.Machine

open Sys2Proof Sys2Proof.Machine

/-- Settles O34: one law per command, the ledger and the loss of data by their two outcomes. -/
theorem hostFlow : Obligations.HostFlow := by
  unfold Obligations.HostFlow
  refine ⟨fun x n v q s => exec_sqDoorbellWrite_unsteered,
    fun x n e q s hp hr hq hne hrun hen hfree => exec_commandFetch_takes hp hr hq hne hrun hen hfree e,
    ?fits, ?waits, fun x q i d c s h ho ha hx hf hd => exec_hostDataReceived_taken h ha hx hf ho hd,
    ?poisoned, ?timedOut, fun x q i c s => exec_mirrorAck_noted,
    fun x q i c r s => exec_commitPoint_met, fun x q i c r f s h hq hf => exec_commitPoint_failed h hq hf⟩
  case fits => exact fun c s h ha => (exec_ledgerAdmit h).trans (by rw [if_pos ha])
  case waits => exact fun c s h ha => (exec_ledgerAdmit h).trans (by rw [if_neg (by rw [ha]; decide)])
  case poisoned =>
    exact fun x q i c s h hw ha hx hf => congrArg Host.Outcome.next (dataLost_waiting h ha hx hf hw true)
  case timedOut =>
    exact fun x q i c s h hw ha hx hf => congrArg Host.Outcome.next (dataLost_waiting h ha hx hf hw false)

end

section
/-! What the operations of a tether port read back after a write: its registers, its state and its front-end (chapter 3). -/
namespace Sys2Proof.Machine
open Sys2Proof

variable {s t : State} {p : Nat}

/-! ### Registers -/

/-- Below the windows of the LDC clusters every register is stored at its own address. -/
theorem homeAddr_below {a : Nat} (h : a < 0x1400000) : homeAddr a = a := if_neg (by omega)

/-- The event sources of a tether port are sources of the router. -/
theorem evtSources_tth (p : Fin 32) : ∀ x ∈ evtSources (.tth p), x.1 < 640 := by
  simp only [evtSources, List.forall_mem_cons, List.not_mem_nil, false_implies, implies_true, and_true]
  omega

/-- A bit that has just been set reads 1. -/
theorem fbit_fsetb_true {f : Fld} (hf : f.lo + f.width ≤ 32) (hw : f.width ≠ 0) (s : State) (a : Nat) :
    fbit (fsetb s a f true) a f = true := by
  unfold fbit fsetb
  rw [fget_fset hf]
  exact decide_eq_true (Nat.mod_eq_of_lt (Nat.one_lt_two_pow hw))

/-! ### A port's state and its front-end -/

@[simp] theorem portState_setTth (s : State) (p q : Nat) (g : TthPort → TthPort) :
    portState (setTth s p g) q = portState s q := rfl

@[simp] theorem mode_setTth (s : State) (p : Nat) (g : TthPort → TthPort) : mode (setTth s p g) = mode s := rfl

/-- Changes of a front-end that agree on it are the same change. -/
theorem setFe_congr {f g : FrontEnd → FrontEnd} (h : f (feOf s p) = g (feOf s p)) : setFe s p f = setFe s p g :=
  congrArg (fun x => { s with fe := tabPut s.fe p x }) h

theorem tsbHas_congr (ht : t.tth = s.tth) (n : Nat) : tsbHas t p n = tsbHas s p n := by
  unfold tsbHas tthOf
  rw [ht]

/-- Whether the sideband can be used rests on the port's STATE and on its state beside the registers. -/
theorem sbUsable_congr (ht : t.tth = s.tth) (hst : portState t p = portState s p) : sbUsable t p = sbUsable s p := by
  unfold sbUsable tthOf
  rw [ht, hst]

end Sys2Proof.Machine

end

section
/-! The life of a tether port: presence, the end of training, sideband answers and attention (R77, R78, R82, R87, R88, R91). -/
namespace Sys2Proof.Machine
open Sys2Proof

variable {s : State} {p : Fin 32}

/-! ### Presence -/

/-- The edge to low of an empty port. -/
theorem exec_presenceEdge_fits (hf : (tthOf s p).fitted = false) (hm : mode s ≠ 0) (hst : portState s p = 0) :
    exec (.presenceEdge p true) s =
      .next (goDebounce (setTth s p fun t => { t with fitted := true, debounceHigh := false }) p) := by
  show execPresenceEdge p true s = _
  simp [execPresenceEdge, hf, hm, hst]

theorem exec_presenceDebounceEnd_fitted (hm : mode s ≠ 0) (hst : portState s p = 1) (hf : (tthOf s p).fitted = true) :
    exec (.presenceDebounceEnd p) s = .next (goIdent (setPrsnt s p true) p) := by
  show execPresenceDebounceEnd p s = _
  simp [execPresenceDebounceEnd, hm, hst, hf]

theorem exec_presenceDebounceEnd_gone (hm : mode s ≠ 0) (hst : portState s p = 5)
    (hh : (tthOf s p).debounceHigh = true) (hf : (tthOf s p).fitted = false) :
    exec (.presenceDebounceEnd p) s = .next (goEmpty s p) := by
  show execPresenceDebounceEnd p s = _
  simp [execPresenceDebounceEnd, hm, hst, hh, hf]

/-! ### Training -/

/-- The end of training of a port whose lanes are good, by the credits that its identity block states (R78). -/
theorem exec_tetherTrainingDone {up : BitVec 4} (hst : portState s p = 4) (hup : enabledLanes s p up.toNat ≠ 0)
    (hdn : enabledDown s p true = true) (hphy : domOn s (11 + p) = true) (hlink : domOn s (43 + p) = true) :
    exec (.tetherTrainingDone p up true) s = .next (
      if identField s p 16 2 < 32 then goFault s p 3
      else trained (setTth (setCredits (setLanes s p (enabledLanes s p up.toNat) true) p) p fun t =>
        { t with lastCred := 0 }) p) :=
  congrArg Host.Outcome.next (if_neg (by simp [hst, hup, hdn, hphy, hlink]))

/-- The lanes do not touch the identity block, whose CREDIT_FLITS set the credits, 255 at the most (R77, R78). -/
theorem setCredits_setLanes {n : Nat} (hn : n = if 255 < identField s p 16 2 then 255 else identField s p 16 2)
    (up : Nat) (dn : Bool) : setCredits (setLanes s p up dn) p =
      fset (fset (setLanes s p up dn) (TTH_CREDIT p) TTH_CREDIT_LIMIT n) (TTH_CREDIT p) TTH_CREDIT_AVAIL n := by
  have hmin : n = min 255 (identField (setLanes s p up dn) p 16 2) := by
    rw [hn, identField_setLanes]
    split <;> omega
  rw [hmin]
  rfl

@[simp] theorem tthOf_setLanes (s : State) (p q up : Nat) (dn : Bool) : tthOf (setLanes s p up dn) q = tthOf s q := by
  simp [tthOf, setLanes]

@[simp] theorem tthOf_setCredits (s : State) (p q : Nat) : tthOf (setCredits s p) q = tthOf s q := by
  simp [tthOf, setCredits]

/-- A port whose identity is not to be read again goes up (R90). -/
theorem trained_known {q : Nat} (h : (tthOf s q).reread = false) : trained s q = enterUp s q := if_neg (by simp [h])

/-- In PARTIAL a failed try is counted, and FAULT does not follow (R82). -/
theorem exec_tetherTrainingFail_partial (hst : portState s p = 6) (l : Fin 5) :
    exec (.tetherTrainingFail p l) s = .next (syncTries (setTth s p fun t =>
      { t with laneTries := updAt t.laneTries l fun n => min 3 (n + 1) }) p) := by
  show execTetherTrainingFail p l s = _
  simp [execTetherTrainingFail, hst]

/-! ### Sideband transactions -/

theorem tsbDone_answered {q st : Nat} {r : TsbReq} (h : (tthOf s q).tsb = some r) (hst : st ≠ 0xFF) (d : List Nat) :
    tsbDone s q st d = tsbEnd (tsbNext s q) q r st d := by
  simp only [tsbDone, h, if_neg hst]

/-- A request without an answer is sent again three times, then ends with STATUS 0xFF (R87). -/
theorem tsbRetry_request {q : Nat} {r : TsbReq} (h : (tthOf s q).tsb = some r) : tsbRetry s q =
    if r.tries < 3 then
      emit (setTth s q fun t => { t with tsb := some { r with tries := r.tries + 1 } }) (.tsbReq q (tsbFrame r))
    else tsbDone s q 0xFF [] := by
  simp only [tsbRetry, h]

theorem tsbRetry_idle {q : Nat} (h : (tthOf s q).tsb = none) : tsbRetry s q = s := by
  simp only [tsbRetry, h]

/-! ### Attention -/

/-- An attention of port `p` with cause `c` is latched, at the front-end and in the port's registers, with its event. -/
def attnLatched (s : State) (p : Nat) (c : BitVec 8) : State :=
  evtSet (fsetb (setFe s p fun x => { x with attnCause := x.attnCause ||| c.toNat }) (TTH_SIDEBAND p) TTH_SIDEBAND_ATTN true)
    (.tth p) TTH_EVT_ATTN

theorem attnLatched_tth (s : State) (q : Nat) (c : BitVec 8) : (attnLatched s q c).tth = s.tth := by
  simp [attnLatched]

/-- The latch leaves the registers of port `p` but TTH_SIDEBAND and TTH_EVT. -/
theorem fget_attnLatched {a : Nat} (h1 : 0x0500000 ≤ a) (h2 : a < 0x1400000) (hs : a ≠ TTH_SIDEBAND p) (he : a ≠ TTH_EVT p)
    (c : BitVec 8) (f : Fld) : fget (attnLatched s p c) a f = fget s a f := by
  have hp : TTH_SIDEBAND p < 0x1400000 ∧ TTH_EVT p < 0x1400000 := by
    unfold TTH_SIDEBAND TTH_EVT
    omega
  have hside : homeAddr a ≠ homeAddr (TTH_SIDEBAND p) := by rwa [homeAddr_below h2, homeAddr_below hp.1]
  have hevt : homeAddr a ≠ homeAddr (evtAddr (.tth p)) := by
    show homeAddr a ≠ homeAddr (TTH_EVT p)
    rwa [homeAddr_below h2, homeAddr_below hp.2]
  unfold attnLatched fsetb
  rw [fget_evtSet (evtSources_tth p) hevt (routerReg_above h1), fget_fset_ne hside]
  rfl

theorem portState_attnLatched (c : BitVec 8) : portState (attnLatched s p c) p = portState s p := by
  unfold portState
  apply fget_attnLatched <;> simp only [TTH_LINK_STAT, TTH_SIDEBAND, TTH_EVT] <;> omega

theorem claimed_attnLatched (c : BitVec 8) : claimed (attnLatched s p c) (baseTTH p) = claimed s (baseTTH p) := by
  unfold claimed fbit
  rw [fget_attnLatched] <;> simp only [xclaim, baseTTH, TTH_SIDEBAND, TTH_EVT] <;> omega

/-- An attention on an idle sideband that can be used has its cause read, unless that read already waits (R88). -/
theorem exec_tsbAttention_idle {c : BitVec 8} (hb : (tthOf s p).tsb = none) (hu : sbUsable s p = true)
    (hc : claimed s (baseTTH p) = false) (hn : tsbHas s p 10 = false) :
    exec (.tsbAttention p c) s = .next (tsbRead (attnLatched s p c) p 10 0x0220 4) := by
  have htth := attnLatched_tth s p c
  have hidle : tsbRetry (attnLatched s p c) p = attnLatched s p c := tsbRetry_idle (by rwa [tthOf, htth])
  have hreads : (sbUsable (attnLatched s p c) p && !claimed (attnLatched s p c) (baseTTH p) &&
      !tsbHas (attnLatched s p c) p 10) = true := by
    rw [sbUsable_congr htth (portState_attnLatched c), claimed_attnLatched, tsbHas_congr htth, hu, hc, hn]
    rfl
  rw [← hidle] at hreads ⊢
  exact congrArg Host.Outcome.next (if_pos hreads)

end Sys2Proof.Machine

open Sys2Proof Sys2Proof.Machine

/-- Settles O14, by the two ends of training: FAULT by its own law, the credits by what the lanes leave of the identity. -/
theorem creditBuffer : Obligations.CreditBuffer := by
  unfold Obligations.CreditBuffer
  intro p up s hst hup hdn hphy hlink
  have hend := exec_tetherTrainingDone hst hup hdn hphy hlink
  refine ⟨fun hlow => ⟨_, by rw [hend, if_pos hlow], goFault_facts s p.isLt (by decide)⟩, fun n hok hn => ⟨_, hend, ?_⟩⟩
  rw [if_neg (Nat.not_lt.2 hok), setCredits_setLanes hn]

/-- Settles O20: presence by the port's state, training by its credits, the sideband by whether a request is on it. -/
theorem portLife : Obligations.PortLife := by
  unfold Obligations.PortLife
  refine ⟨fun p low s h => congrArg Host.Outcome.next (if_pos h), fun p s => exec_presenceEdge_fits,
    fun p s => exec_presenceDebounceEnd_fitted, fun p s => exec_presenceDebounceEnd_gone,
    ?answered, ?badAnswer, ?resent, ?unanswered, fun p c s => exec_tsbAttention_idle, ?trainedUp, ?trainedFault,
    fun p l s hst => exec_tetherTrainingFail_partial hst l⟩
  case answered =>
    exact fun p c d r s h hst => congrArg (fun t => Host.Outcome.next (takeoverCheck t)) (tsbDone_answered h hst _)
  case badAnswer =>
    exact fun p c d r s h hr =>
      congrArg (fun t => Host.Outcome.next (takeoverCheck t)) ((tsbRetry_request h).trans (if_pos hr))
  case resent => exact fun p r s h hr => congrArg Host.Outcome.next ((tsbRetry_request h).trans (if_pos hr))
  case unanswered =>
    exact fun p r s h hr => congrArg Host.Outcome.next ((tsbRetry_request h).trans (if_neg (Nat.not_lt.2 hr)))
  case trainedUp =>
    intro p up s hst hup hdn hphy hlink hok hr
    have hknown : (tthOf (setTth (setCredits (setLanes s p (enabledLanes s p up.toNat) true) p) p fun t =>
        { t with lastCred := 0 }) p).reread = false := by
      simpa using hr
    rw [exec_tetherTrainingDone hst hup hdn hphy hlink, if_neg (Nat.not_lt.2 hok), trained_known hknown]
  case trainedFault =>
    intro p up s hst hup hdn hphy hlink hlow
    rw [exec_tetherTrainingDone hst hup hdn hphy hlink, if_pos hlow]

end

section
/-! The front-end of a mechanism: its answers on the sideband, the token, flits, watchdogs and the write inhibit (R72, R80, R85
to R89, R93 to R98). -/
namespace Sys2Proof.Machine
open Sys2Proof

variable {s : State} {p : Fin 32} {side : Fin 2} {f : Flit} {x : FrontEnd}

/-! ### The token -/

/-- A front-end without an owner is neither side's. -/
theorem feOwns_unowned (h : x.owner = 0) (n : Nat) : feOwns x n = false := by
  simp [feOwns, h]

theorem owner_of_feOwns {n : Nat} (h : feOwns x n = true) : x.owner = n + 1 := by
  simpa [feOwns] using h

/-- A change of the owner discards the entries and the bits that still wait (R94). -/
theorem feOwner_discards {o : Nat} (h : x.owner ≠ o) : (feOwner x o).pend = [] ∧ (feOwner x o).wpend = [] := by
  simp only [feOwner, if_neg h, and_self]

theorem feRun_feOwner_discards {o : Nat} (h : x.owner ≠ o) (n : Nat) (b : Bool) :
    (feRun (feOwner x o) n b).pend = [] ∧ (feRun (feOwner x o) n b).wpend = [] := by
  rw [feRun_pend, feRun_wpend]
  exact feOwner_discards h

/-- A change of a front-end that discards what waits, then its answer, which changes nothing of it. -/
theorem feAnswer_setFe_discards {g : FrontEnd → FrontEnd} (h : (g (feOf s p)).pend = [] ∧ (g (feOf s p)).wpend = []) :
    (feOf (feAnswer (setFe s p g) p 0 []) p).pend = [] ∧ (feOf (feAnswer (setFe s p g) p 0 []) p).wpend = [] := by
  rw [feOf_feAnswer, feOf_setFe]
  exact h

theorem feAcquire_free (h : (feOf s p).owner = 0) :
    feAcquire s p side = feAnswer (setFe s p fun x => feRun (feOwner x (side + 1)) side true) p 0 [] := by
  simp only [feAcquire, feOwns_unowned h, h, Bool.false_eq_true, if_false, if_true]

theorem feAcquire_busy (h : (feOf s p).owner ≠ 0) (ho : feOwns (feOf s p) side = false) :
    feAcquire s p side = feAnswer s p 4 [] := by
  simp only [feAcquire, ho, h, Bool.false_eq_true, if_false]

/-! ### Flits -/

/-- A CMD flit that is not the owner's at its epoch is discarded and reported (R94). -/
theorem exec_feCmdFlit_foreign (hf : flitTaken f 9 = true)
    (ho : feOwns (feOf s p) side = false ∨ f.epoch.toNat ≠ (feOf s p).epoch) :
    exec (.feCmdFlit p side f) s = .next (emit (setFe s p fun x => feLane x side) (.feReport p 1)) := by
  show execFeCmdFlit p side f s = _
  rcases ho with ho | ho <;> simp [execFeCmdFlit, hf, ho]

/-- A CMD flit of the owner at its epoch waits to be applied (R72). -/
theorem exec_feCmdFlit_owner (hf : flitTaken f 9 = true) (ho : feOwns (feOf s p) side = true)
    (he : f.epoch.toNat = (feOf s p).epoch) :
    exec (.feCmdFlit p side f) s = .next (setFe s p fun x =>
      { feLane x side with pend := x.pend ++ [⟨x.epoch, cmdEntries (flitBytes f)⟩] }) := by
  show execFeCmdFlit p side f s = _
  simp [execFeCmdFlit, hf, ho, he]

/-- A WRITE flit that is not the owner's at its epoch is discarded and reported, late or not (R94). -/
theorem exec_feWriteFlit_foreign (hf : flitTaken f 8 = true)
    (ho : feOwns (feOf s p) side = false ∨ f.epoch.toNat ≠ (feOf s p).epoch) (late : Bool) :
    exec (.feWriteFlit p side f late) s = .next (emit (setFe s p fun x => feLane x side) (.feReport p 1)) := by
  show execFeWriteFlit p side f late s = _
  rcases ho with ho | ho <;> simp [execFeWriteFlit, hf, ho]

/-- A WRITE flit of the owner at its epoch: late, its span is not written; else its bits are due and its head's write gate opens,
and the first of a sector ends the head's skipping where nothing inhibits it (R80, R94, R169). -/
theorem exec_feWriteFlit_owner (hf : flitTaken f 8 = true) (ho : feOwns (feOf s p) side = true)
    (he : f.epoch.toNat = (feOf s p).epoch) (late : Bool) :
    exec (.feWriteFlit p side f late) s = .next (
      if late then feLate (setFe s p fun x => feLane x side) p (f.chan.toNat % 8) f.tstamp.toNat
      else setFe s p fun x => { feLane x side with
        wpend := if x.wpend.contains (f.chan.toNat % 8) then x.wpend else x.wpend ++ [f.chan.toNat % 8]
        writeGate := x.writeGate ||| 2 ^ (f.chan.toNat % 8)
        skip := if decide (f.flags.toNat % 2 = 1) && decide ((feOf s p).inh / 2 ^ (f.chan.toNat % 8) % 2 = 0) &&
            (side.val != feSide s p || sectorFree s (2 * p + f.chan.toNat % 8 / 4) (f.chan.toNat % 8 % 4) f.tstamp.toNat)
          then maskOff x.skip (2 ^ (f.chan.toNat % 8)) else x.skip }) := by
  show execFeWriteFlit p side f late s = _
  unfold execFeWriteFlit
  dsimp only
  rw [if_neg (by simp [hf]), if_neg (by simp [ho, he])]

/-- A good heartbeat flit of either side restarts that side's watchdog (R94, R96). -/
theorem exec_feHbFlit_good (hf : flitTaken f 0xB = true) :
    exec (.feHbFlit p side f) s = .next (feHeartbeat (setFe s p fun x => feLane x side) p side) :=
  congrArg Host.Outcome.next (if_pos hf)

/-- The oldest accepted CMD flit is applied while its epoch still is the front-end's (R72, R94). -/
theorem exec_feCmdApply_oldest {c : FePend} {cs : List FePend} (hq : (feOf s p).pend = c :: cs)
    (he : c.epoch = (feOf s p).epoch) :
    exec (.feCmdApply p) s = .next (forAll c.entries (setFe s p fun x => { x with pend := cs }) (feApply p)) := by
  show execFeCmdApply p s = _
  simp only [execFeCmdApply, hq, he, if_true]

/-! ### Sideband requests -/

/-- A READ that lies in a row of Table 3-6 answers its bytes (R87, R89). -/
theorem exec_feTsbRead_row {a : BitVec 16} {n : BitVec 8} {r : Nat × Nat} (hn : n.toNat ≠ 0) (hm : n.toNat ≤ 32)
    (hr : feRows.find? (fun r => r.1 ≤ a.toNat ∧ a.toNat < r.1 + r.2) = some r) (hfit : a.toNat + n.toNat ≤ r.1 + r.2) :
    exec (.feTsbRead p side a n true) s =
      .next (feAnswer s p 0 (((feContent (feOf s p) p side r.1).drop (a.toNat - r.1)).take n.toNat)) := by
  show execFeTsbRead p side a n true s = _
  simp only [execFeTsbRead, hn, Nat.not_lt.2 hm, hr, hfit, Bool.not_true, Bool.false_eq_true, or_self, if_false, if_true]

/-- A WRITE of the watchdog's row: the owner alone may, and the value is taken within the bounds of R96. -/
theorem exec_feTsbWrite_watchdog {d : List Byte} (hd : d.length = 2) :
    exec (.feTsbWrite p side 0x0210 d true) s = .next (
      if feOwns (feOf s p) side then
        if 50 ≤ leNat (d.map (·.toNat)) ∧ leNat (d.map (·.toNat)) ≤ 10000 then
          feAnswer (setFe s p fun x => { x with wdogUs := leNat (d.map (·.toNat)) }) p 0 []
        else feAnswer s p 2 []
      else feAnswer s p 3 []) := by
  show execFeTsbWrite p side 0x0210 d true s = _
  have hrow : feRows.find? (fun r => r.1 ≤ (0x0210 : BitVec 16).toNat ∧ (0x0210 : BitVec 16).toNat < r.1 + r.2) =
      some (0x0210, 2) := by decide
  simp only [execFeTsbWrite, hrow, List.length_map, hd]
  cases feOwns (feOf s p) side <;> simp

/-- A heartbeat on the sideband of a front-end of which no port is in lane mode (R87). -/
theorem exec_feTsbHeartbeat_sideband (h0 : (feOf s p).lane0 = false) (h1 : (feOf s p).lane1 = false) :
    exec (.feTsbHeartbeat p side 0x0300 4 true) s = .next (feAnswer (feHeartbeat s p side) p 0 []) := by
  show execFeTsbHeartbeat p side 0x0300 4 true s = _
  simp [execFeTsbHeartbeat, h0, h1]

/-! ### Watchdogs -/

/-- The loss actions of R97, when the watchdog of the owner runs out that runs on side `n`. -/
theorem exec_feWatchdogExpire_owner {n : Nat} (ho : (feOf s p).owner = n + 1)
    (hr : (if n = 0 then (feOf s p).run0 else (feOf s p).run1) = true) (rpm : BitVec 16) (bus : Bool) :
    exec (.feWatchdogExpire p rpm bus) s = .next (setFe s p fun x =>
      { feRun (feOwner { x with lane0 := x.lane0 && x.owner != 1, lane1 := x.lane1 && x.owner != 2 } 0) n false with
        assistOn := 0, unloaded := x.unloaded || decide (2400 < rpm.toNat) || bus, coasting := true, loss := true }) := by
  show execFeWatchdogExpire p rpm bus s = _
  unfold execFeWatchdogExpire
  dsimp only
  rw [if_neg (by simp [ho, hr])]
  exact congrArg Host.Outcome.next (setFe_congr (by rw [ho, Nat.add_sub_cancel]))

theorem exec_feOtherWatchdogExpire (ho : feOwns (feOf s p) side = false)
    (hr : (if side.val = 0 then (feOf s p).run0 else (feOf s p).run1) = true) :
    exec (.feOtherWatchdogExpire p side) s =
      .next (setFe s p fun x => { feRun x side false with otherLost := true }) :=
  congrArg Host.Outcome.next (if_neg (by rw [ho, hr]; decide))

/-! ### Write inhibit -/

/-- A good word of the owner counts, and its mask is applied once no further good word is needed (R85). -/
theorem exec_feWinhWord_good {w : BitVec 12} (ho : feOwns (feOf s p) side = true) (hw : winhGood w.toNat = true) :
    exec (.feWinhWord p side w) s = .next (setFe s p fun x => { x with
      winhNeed := (feOf s p).winhNeed - 1
      inh := if (feOf s p).winhNeed - 1 = 0 then w.toNat / 4 % 256 else x.inh
      skip := if (feOf s p).winhNeed - 1 = 0 then x.skip ||| w.toNat / 4 % 256 else x.skip }) := by
  show execFeWinhWord p side w s = _
  simp [execFeWinhWord, ho, hw]

theorem exec_feWinhWord_bad {w : BitVec 12} (ho : feOwns (feOf s p) side = true) (hw : winhGood w.toNat = false) :
    exec (.feWinhWord p side w) s = .next (winhBad s p) := by
  show execFeWinhWord p side w s = _
  simp [execFeWinhWord, ho, hw]

end Sys2Proof.Machine

open Sys2Proof Sys2Proof.Machine

/-- Settles O13: the flits by who sends them at which epoch, the token by what a change of the owner discards. -/
theorem ownerFlits : Obligations.OwnerFlits := by
  unfold Obligations.OwnerFlits
  intro p side f s x
  refine ⟨fun hf ho he => ⟨_, exec_feWriteFlit_owner hf ho he false, rfl⟩, fun hf ho he => ⟨_, exec_feCmdFlit_owner hf ho he, rfl⟩,
    fun ho late => ⟨fun hf => ⟨_, exec_feWriteFlit_foreign hf ho late, rfl⟩, fun hf => ⟨_, exec_feCmdFlit_foreign hf ho, rfl⟩⟩,
    fun hf => ⟨_, exec_feHbFlit_good hf, rfl⟩, ?givenAway, ?acquired⟩
  case givenAway =>
    intro ho
    have hown : (feOf s p).owner = side + 1 := owner_of_feOwns ho
    simp only [List.forall_mem_cons, List.not_mem_nil, false_implies, implies_true, and_true]
    exact ⟨⟨_, congrArg Host.Outcome.next (if_pos ho), feAnswer_setFe_discards (feOwner_discards (by omega))⟩,
      ⟨_, congrArg Host.Outcome.next (if_pos ho), feAnswer_setFe_discards (feRun_feOwner_discards (by omega) _ _)⟩⟩
  case acquired =>
    exact fun (hfree : (feOf s p).owner = 0) => ⟨_, congrArg Host.Outcome.next (feAcquire_free hfree),
      feAnswer_setFe_discards (feRun_feOwner_discards (by omega) _ _)⟩

/-- Settles O23: a request by its CRC, its length and its row, a token command by the owner. -/
theorem frontEndSideband : Obligations.FrontEndSideband := by
  unfold Obligations.FrontEndSideband
  refine ⟨fun p side a n r s => exec_feTsbRead_row, ?badLength, ?watchdog, ?watchdogForeign, ?readCrc, ?writeCrc,
    fun p side s => exec_feTsbHeartbeat_sideband, ?heartbeatCrc,
    fun p side s h => congrArg Host.Outcome.next (feAcquire_free h),
    fun p side s h ho => congrArg Host.Outcome.next (feAcquire_busy h ho), ?release, ?releaseForeign, ?handoff⟩
  case badLength => exact fun p side a n s h => congrArg Host.Outcome.next (if_pos h)
  case watchdog => exact fun p side d s hd ho hlo hhi => by rw [exec_feTsbWrite_watchdog hd, if_pos ho, if_pos ⟨hlo, hhi⟩]
  case watchdogForeign =>
    exact fun p side d s hd ho => by rw [exec_feTsbWrite_watchdog hd, ho, if_neg Bool.false_ne_true]
  case readCrc | writeCrc | heartbeatCrc => exact fun p side a n s => rfl
  case release | handoff => exact fun p side s ho => congrArg Host.Outcome.next (if_pos ho)
  case releaseForeign =>
    exact fun p side s ho => congrArg Host.Outcome.next (if_neg (by rw [ho]; exact Bool.false_ne_true))

/-- Settles O24: watchdogs by the side they run on, flits by who sends them at which epoch, inhibit words by whether they are
good. -/
theorem frontEndSafety : Obligations.FrontEndSafety := by
  unfold Obligations.FrontEndSafety
  refine ⟨?expire0, ?expire1, fun p side s => exec_feOtherWatchdogExpire, fun p side f s => exec_feHbFlit_good, ?cmdQueued,
    fun p side f s hf ho => exec_feCmdFlit_foreign hf (.inl ho), fun p c cs s => exec_feCmdApply_oldest, ?writeLate,
    ?writeOpens, ?writeBad, fun p side f s hf ho => exec_feWriteFlit_foreign hf (.inl ho) false, ?winhFirst, ?winhSecond,
    fun p side w s => exec_feWinhWord_bad, ?winhBadWord, ?winhSilence, ?downstream⟩
  case expire0 => exact fun p rpm b s ho hr => exec_feWatchdogExpire_owner (n := 0) ho hr rpm b
  case expire1 => exact fun p rpm b s ho hr => exec_feWatchdogExpire_owner (n := 1) ho hr rpm b
  case cmdQueued =>
    exact fun p side f s hf ho he =>
      (exec_feCmdFlit_owner hf ho he).trans (congrArg Host.Outcome.next (setFe_congr rfl))
  case writeLate => exact fun p side f s hf ho he => exec_feWriteFlit_owner hf ho he true
  case writeOpens =>
    intro p side f s hf ho he hstart
    rw [exec_feWriteFlit_owner hf ho he, if_neg Bool.false_ne_true]
    exact congrArg Host.Outcome.next (setFe_congr (by simp [hstart]))
  case writeBad =>
    exact fun p side f l s hf => congrArg Host.Outcome.next (if_pos (by rw [hf]; rfl))
  case winhFirst | winhSecond =>
    intro p side w s ho hw hneed
    rw [exec_feWinhWord_good ho hw, hneed]
    exact congrArg Host.Outcome.next (setFe_congr rfl)
  case winhBadWord | winhSilence => exact fun p side s ho => congrArg Host.Outcome.next (if_pos ho)
  case downstream => exact fun p s ho => congrArg Host.Outcome.next (if_neg ho)

end

section
/-! A link in lane mode: lanes lost and trained again, upstream flits, heartbeats and FEC (R70, R77, R79, R81, R82, R96, R103). -/
namespace Sys2Proof.Machine
open Sys2Proof

variable {s : State} {p : Fin 32} {f : Flit}

/-! ### Lanes -/

/-- A lane whose bit is the mask's only one leaves an empty mask, any other lane does not. -/
theorem mask_sub_eq_zero_iff {g l : Nat} (h : g / 2 ^ l % 2 = 1) : g - 2 ^ l = 0 ↔ g = 2 ^ l := by
  have hle : 2 ^ l ≤ g := Nat.le_of_not_lt fun hlt => by
    rw [Nat.div_eq_of_lt hlt] at h
    exact absurd h (by decide)
  omega

/-- A good upstream lane is lost: the last one takes the port to RETRAIN, another one to PARTIAL (R81, R83). -/
theorem exec_upstreamLaneLoss {l : Fin 4} {g : Nat} (hl : laneMode s p = true)
    (hg : fget s (TTH_LINK_STAT p) TTH_LINK_STAT_UP_GOOD = g) (hb : g / 2 ^ l.val % 2 = 1) :
    exec (.upstreamLaneLoss p l) s = .next (
      let t := evtSet (retrainLane (setLanes s p (g - 2 ^ l.val) true) p l) (.tth p) TTH_EVT_LANE_LOSS
      if g = 2 ^ l.val then endStreams (allLanesLost (setPortState t p 7) p) p [l.val]
      else startStreams (laneImpair (setPortState (endStreams t p [l.val]) p 6) p) p) := by
  show execUpstreamLaneLoss p l s = _
  simp only [execUpstreamLaneLoss, hl, hg, hb, mask_sub_eq_zero_iff hb, Bool.not_true, Bool.false_eq_true, false_or,
    if_neg Nat.one_ne_zero]

/-- Lanes of a PARTIAL port that have trained again join the good ones (R82). -/
theorem exec_laneRetrainDone_partial {up : BitVec 4} (hst : portState s p = 6) (hup : enabledLanes s p up.toNat ≠ 0)
    (hdn : enabledDown s p true = true) :
    exec (.laneRetrainDone p up true) s = .next (goUp (setLanes s p
      (enabledLanes s p up.toNat ||| fget s (TTH_LINK_STAT p) TTH_LINK_STAT_UP_GOOD) true) p) := by
  show execLaneRetrainDone p up true s = _
  simp [execLaneRetrainDone, hst, hup, hdn]

/-- The lanes of a port in RETRAIN that have trained again: a downstream lane that was lost has its credits again (R77). -/
theorem exec_laneRetrainDone_retrain {up : BitVec 4} (hst : portState s p = 7) (hup : enabledLanes s p up.toNat ≠ 0)
    (hdn : enabledDown s p true = true) :
    exec (.laneRetrainDone p up true) s = .next (trained (
      if fbit s (TTH_LINK_STAT p) TTH_LINK_STAT_DN_GOOD then setLanes s p (enabledLanes s p up.toNat) true
      else setCredits (setLanes s p (enabledLanes s p up.toNat) true) p) p) := by
  show execLaneRetrainDone p up true s = _
  simp [execLaneRetrainDone, hst, hup, hdn]

/-! ### Upstream flits -/

/-- A taken flit of one of the four upstream types is an upstream flit. -/
theorem upTaken_of_flitTaken {ty : Nat} (h : flitTaken f ty = true) (hty : ty ≤ 3) : upTaken f = true := by
  simp only [flitTaken, Bool.and_eq_true, beq_iff_eq] at h
  obtain ⟨hgood, rfl⟩ := h
  simp [upTaken, hgood, hty]

/-- In lane mode an upstream flit returns its credits and has the effect of its type. -/
theorem upFlit_taken {ty : Nat} (hl : laneMode s p = true) (h : flitTaken f ty = true) (hty : ty ≤ 3)
    (lost : State → State) : upFlit s p f lost = flitEffect (creditReturn s p f.cred.toNat) p f := by
  simp [upFlit, hl, upTaken_of_flitTaken h hty]

theorem upFlit_discarded (hl : laneMode s p = true) (h : upTaken f = false) (lost : State → State) :
    upFlit s p f lost = lost (flitDiscard s p) := by
  simp [upFlit, hl, h]

theorem ftype_of_flitTaken {ty : Nat} (h : flitTaken f ty = true) : f.ftype.toNat = ty := by
  simp only [flitTaken, Bool.and_eq_true, beq_iff_eq] at h
  exact h.2

theorem flitEffect_idle (h : f.ftype.toNat = 0) : flitEffect s p f = s := by
  simp [flitEffect, h]

theorem flitEffect_sample (h : f.ftype.toNat = 1) (ho : lineOn s p (f.chan.toNat % 8) = true) : flitEffect s p f =
    samplesStored (takeSamples s (laneOf p (f.chan.toNat % 8)) f.tstamp.toNat (decide (f.flags.toNat / 4 % 2 = 1))
      (unpackSamples (flitBytes f))) (laneOf p (f.chan.toNat % 8)) (tabGet 0 s.det.ringPos (laneOf p (f.chan.toNat % 8))) := by
  simp [flitEffect, h, ho]

theorem flitEffect_servo (h : f.ftype.toNat = 2) (ho : lineOn s p (f.chan.toNat % 8) = true) :
    flitEffect s p f = takeServo s p f := by
  simp [flitEffect, h, ho]

theorem flitEffect_telem (h : f.ftype.toNat = 3) :
    flitEffect s p f = setTth s p fun t => { t with telem := flitBytes f } := by
  simp [flitEffect, h]

/-- A command that is an upstream flit of a type, in lane mode, by what that type does once the credits have returned. -/
theorem exec_upFlit {c : Instr} {ty : Nat} {lost : State → State} {t : State} (h : exec c s = .next (upFlit s p f lost))
    (hl : laneMode s p = true) (hf : flitTaken f ty = true) (hty : ty ≤ 3)
    (he : f.ftype.toNat = ty → flitEffect (creditReturn s p f.cred.toNat) p f = t) : exec c s = .next t := by
  rw [h, upFlit_taken hl hf hty, he (ftype_of_flitTaken hf)]

/-! ### Heartbeats and FEC -/

/-- A heartbeat period in lane mode, with no retrain of the downstream lane that waits: the count goes out, WIT_AGE grows and
the witnesses follow (R95, R96). -/
theorem exec_heartbeatPeriod_lane (hen : fbit s (TTH_CTRL p) TTH_CTRL_HB_EN = true) (hl : laneMode s p = true)
    (hd : (tthOf s p).dnDue = false) :
    exec (.heartbeatPeriod p) s = .next (witness (fadd (sendHb (setTth s p fun t =>
      { t with hbCount := ((tthOf s p).hbCount + 1) % 2 ^ 32 }) p (((tthOf s p).hbCount + 1) % 2 ^ 32)) (TTH_WIT_AGE p)
      TTH_WIT_AGE_AGE 1) p) := by
  show execHeartbeatPeriod p s = _
  simp only [execHeartbeatPeriod, hen, hl, hd, Bool.false_eq_true, false_and, and_self, if_false, if_true]

/-- A second's FEC counts of a lane that stay within 10⁶ corrections are counted and no more (R81). -/
theorem exec_fecRetrainCheck_within {c : BitVec 31} (hc : c.toNat ≤ 1000000) (l : Fin 5) (u : BitVec 31) :
    exec (.fecRetrainCheck p l c u) s = .next (
      let t := count s (TTH_FEC_CORR p l) c.toNat (.tth p) TTH_EVT_SAT
      if u = 0 then t
      else evtSet (count t (TTH_FEC_UNC p) u.toNat (.tth p) TTH_EVT_SAT) (.tth p) TTH_EVT_FEC_UNC) :=
  congrArg Host.Outcome.next (if_pos (.inl hc))

end Sys2Proof.Machine

open Sys2Proof Sys2Proof.Machine

/-- Settles O21: lanes by which of them are left, flits by their type, counts by their bounds. -/
theorem linkCommands : Obligations.LinkCommands := by
  unfold Obligations.LinkCommands
  refine ⟨?laneLost, ?lastLaneLost, fun p s hl => congrArg Host.Outcome.next (if_pos hl),
    fun p s hl ha hw => congrArg Host.Outcome.next (if_pos ⟨hl, ha, hw⟩), fun p up s => exec_laneRetrainDone_partial,
    ?retrained, fun p l s hst hbad hen => congrArg Host.Outcome.next (if_pos ⟨hst, hbad, hen⟩),
    ?servo, ?idle, ?servoDiscarded, ?telem, ?sample, fun p s => exec_heartbeatPeriod_lane, ?fecCorrected, ?fecUncorrectable⟩
  case laneLost => exact fun p l s hl hb hne => (exec_upstreamLaneLoss hl rfl hb).trans (congrArg _ (if_neg hne))
  case lastLaneLost =>
    intro p l s hl hg
    rw [exec_upstreamLaneLoss hl hg (by rw [Nat.div_self (Nat.two_pow_pos _)]), Nat.sub_self]
    exact congrArg Host.Outcome.next (if_pos rfl)
  case retrained =>
    intro p up s hst hup hdn hr
    rw [exec_laneRetrainDone_retrain hst hup hdn, trained_known]
    split <;> simpa using hr
  case servo =>
    exact fun p f s hl hf ho => exec_upFlit rfl hl hf (by decide) fun hty => flitEffect_servo hty ho
  case idle => exact fun p f s hl hf => exec_upFlit rfl hl hf (by decide) flitEffect_idle
  case servoDiscarded => exact fun p f s hl hf => congrArg Host.Outcome.next (upFlit_discarded hl hf _)
  case telem => exact fun p f s hl hf => exec_upFlit rfl hl hf (by decide) flitEffect_telem
  case sample =>
    exact fun p f s hl hf ho => exec_upFlit rfl hl hf (by decide) fun hty => flitEffect_sample hty ho
  case fecCorrected => exact fun p l c s hc => exec_fecRetrainCheck_within hc l 0
  case fecUncorrectable =>
    exact fun p l c u s hc hu => (exec_fecRetrainCheck_within hc l u).trans (congrArg _ (if_neg hu))

end

section
/-! The registers of a tether port: counters, RETRAIN, SB_ONLY, PORT_EN, the watchdog time, token commands and the expert's
sideband (R91, R93, R96, R102, R441). -/
namespace Sys2Proof.Machine
open Sys2Proof

variable {s : State} {m : Master} {p : Fin 32}

/-! ### RETRAIN and SB_ONLY -/

theorem portRetrain_fault {q : Nat} (h : portState s q = 9) : portRetrain s q = goIdent s q := by
  simp [portRetrain, h]

theorem portRetrain_training {q : Nat} (h : portState s q = 4 ∨ portState s q = 7) :
    portRetrain s q = newEpisodes (setLanes s q 0 false) q := by
  rcases h with h | h <;> simp [portRetrain, h]

theorem portRetrain_lanes {q : Nat} (h : portState s q = 5 ∨ portState s q = 6) : portRetrain s q =
    newEpisodes (count (endStreams (allLanesLost (setPortState (setLanes s q 0 false) q 7) q) q [0, 1, 2, 3])
      (TTH_RETRAINS q) 5 (.tth q) TTH_EVT_SAT) q := by
  rcases h with h | h <;> simp [portRetrain, h]

/-- A port that has SB_ONLY set does not train: its PHY goes off. -/
theorem phyChanged_sbOnly {q : Nat} (h : fbit s (TTH_CTRL q) TTH_CTRL_SB_ONLY = true) : phyChanged s q = goSideband s q :=
  if_neg (by simp [mayTrain, h])

/-! ### The watchdog time -/

/-- TTH_HB is not TTH_LINK_STAT, so a write of it leaves whether the sideband can be used. -/
theorem sbUsable_fset_hb (s : State) (f : Fld) (v : Nat) : sbUsable (fset s (TTH_HB p) f v) p = sbUsable s p := by
  refine sbUsable_congr (fset_tth ..) (fget_fset_ne ?_ ..)
  rw [homeAddr_below, homeAddr_below] <;> simp only [TTH_LINK_STAT, TTH_HB] <;> omega

/-- Within its bounds the watchdog time is stored; without a sideband it is not sent on (R96). -/
theorem setWdog_stored {us : Nat} (hlo : 50 ≤ us) (hhi : us ≤ 10000) (hu : sbUsable s p = false) : setWdog s p us =
    fset (fset s (TTH_HB p) TTH_HB_WDOG_US us) (TTH_HB p) TTH_HB_HB_PER (hbPer us) := by
  simp only [setWdog, hlo, hhi, and_self, if_true, sbUsable_fset_hb, hu, Bool.false_eq_true, false_and, if_false]

theorem setWdog_ignored {q us : Nat} (h : us < 50 ∨ 10000 < us) : setWdog s q us = s := if_neg (by omega)

/-! ### The sideband -/

theorem tokenWrite_idle {q : Nat} (h : (tthOf s q).tsb = none) (cmd : Nat) : tokenWrite s q cmd = tokenCmd s q cmd :=
  if_neg (by rw [h]; decide)

/-- The fields of TTH_TSB_CMD as an expert's request leaves them. -/
def tsbCmdFields (s : State) (p cmd len addr : Nat) : State :=
  fset (fset (fset s (TTH_TSB_CMD p) TTH_TSB_CMD_CMD cmd) (TTH_TSB_CMD p) TTH_TSB_CMD_LEN len) (TTH_TSB_CMD p)
    TTH_TSB_CMD_ADDR addr

/-- An expert's READ or WRITE of up to 32 bytes on an idle sideband is sent (R102). -/
theorem tsbExpert_sent {q cmd len : Nat} (hb : (tthOf s q).tsb = none) (hcmd : cmd = 1 ∨ cmd = 2) (hlo : len ≠ 0)
    (hhi : len ≤ 32) (addr : Nat) : tsbExpert s q cmd len addr =
      tsbSend (fsetb (tsbCmdFields s q cmd len addr) (TTH_TSB_CMD q) TTH_TSB_CMD_GO true) q ⟨12, cmd, addr, len,
        if cmd = 2 then ((rangeFrom 0 8).flatMap fun n => leBytes 4 (rdN s (TTH_TSB_DATA q n))).take len else [], 0⟩ := by
  unfold tsbExpert
  rw [if_neg (by rw [hb]; decide), if_neg (by omega)]
  rfl

/-- One whose length is out of range is refused with STATUS 0xFE (R102). -/
theorem tsbExpert_refused {q len : Nat} (hb : (tthOf s q).tsb = none) (hlen : len = 0 ∨ 32 < len) (cmd addr : Nat) :
    tsbExpert s q cmd len addr = fset (fsetb (tsbCmdFields s q cmd len addr) (TTH_TSB_CMD q) TTH_TSB_CMD_GO false)
      (TTH_TSB_STAT q) TTH_TSB_STAT_STATUS 0xFE := by
  unfold tsbExpert
  rw [if_neg (by rw [hb]; decide), if_pos (by omega)]
  rfl

end Sys2Proof.Machine

open Sys2Proof Sys2Proof.Machine

/-- Settles O22: each command reaches its register, and the law of the operation behind it says the rest. -/
theorem portRegisters : Obligations.PortRegisters := by
  unfold Obligations.PortRegisters
  refine ⟨?clear, ?leaveFault, ?retrainTraining, ?retrainLanes, ?sbOnlySet, ?sbOnlyClear, ?disable, ?enable, ?wdog,
    ?wdogIgnored, ?acquire, ?release, ?handoff, ?read, ?write, ?refused⟩
  case clear | disable | enable => exact fun m p s hr => exec_regWrite rfl hr rfl
  case leaveFault => exact fun m p s hr hst => exec_regWrite rfl hr (portRetrain_fault hst)
  case retrainTraining => exact fun m p s hr hst => exec_regWrite rfl hr (portRetrain_training hst)
  case retrainLanes => exact fun m p s hr hst => exec_regWrite rfl hr (portRetrain_lanes hst)
  case sbOnlySet =>
    exact fun m p s hr => exec_regWrite rfl hr (phyChanged_sbOnly (fbit_fsetb_true (by decide) (by decide) _ _))
  case sbOnlyClear => exact fun m p s hr => exec_regWrite rfl hr rfl
  case wdog => exact fun m p v s hr hlo hhi hu => exec_regWrite rfl hr (setWdog_stored hlo hhi hu)
  case wdogIgnored => exact fun m p v s hr h => exec_regWrite rfl hr (setWdog_ignored h)
  case acquire | release | handoff => exact fun m p s hr hb => exec_regWrite rfl hr (tokenWrite_idle hb _)
  case read => exact fun m p n a s hr hb hlo hhi => exec_regWrite rfl hr (tsbExpert_sent hb (.inl rfl) hlo hhi _)
  case write => exact fun m p n a s hr hb hlo hhi => exec_regWrite rfl hr (tsbExpert_sent hb (.inr rfl) hlo hhi _)
  case refused => exact fun m p n a s hr hb hlen => exec_regWrite rfl hr (tsbExpert_refused hb hlen 1 _)

end

section
/-! Get Log Page of the links, channels, servo, spindles, partner, flash, memory, cache, ledger, tasks and modes. -/
namespace Sys2Proof.Machine
open Sys2Proof

variable {s : State} {x : HPort} {cid : BitVec 16}

/-- Get Log Page of a ready controller transfers the part of the page that is asked for. -/
theorem exec_logPage {c : Instr} {o n : BitVec 32} {page : List Nat} (h : exec c s = .next (logPage s x cid o n page))
    (hp : portExists s (portId x) = true) (hr : (ctl s (portId x)).ready = true) :
    exec c s = .next (logData s (portId x) cid.toNat o.toNat n.toNat page) :=
  exec_adminCmd h hp hr rfl

/-- The page of orphaned completions: LSP bit 0 empties the list after a read that is not refused (R405). -/
theorem exec_logOrphanedCompletions (hp : portExists s (portId x) = true) (hr : (ctl s (portId x)).ready = true)
    (k : BitVec 7) (o n : BitVec 32) : exec (.logOrphanedCompletions x cid k o n) s = .next (
      let t := logData s (portId x) cid.toNat o.toNat n.toNat (orphanPage s)
      if k.getLsbD 0 && o.toNat ≤ (orphanPage s).length then { t with prt := { t.prt with orphans := [] } } else t) :=
  exec_adminCmd rfl hp hr rfl

end Sys2Proof.Machine

open Sys2Proof Sys2Proof.Machine

/-- Settles O40: every page but the orphaned completions' is read without an effect. -/
theorem subsystemLogs : Obligations.SubsystemLogs := by
  unfold Obligations.SubsystemLogs
  refine ⟨?_, ?_, ?_, ?_, ?_, ?_, ?_, ?_, ?_, ?_, ?_, ?_, ?_, ?_, ?_, ?_, ?_, ?orphansEmptied, ?orphansKept⟩
  case orphansEmptied =>
    exact fun x i o n k s hp hr hk hfit =>
      (exec_logOrphanedCompletions hp hr k o n).trans (congrArg _ (if_pos (by rw [hk, decide_eq_true hfit]; rfl)))
  case orphansKept =>
    exact fun x i o n k s hp hr hk =>
      (exec_logOrphanedCompletions hp hr k o n).trans (congrArg _ (if_neg (by rw [hk]; exact Bool.false_ne_true)))
  all_goals exact fun x i o n s => exec_logPage rfl

end

section
/-! Set Features over ports, control sets, spindles, background tasks, heat and modes (R100, R197, R220, R342, R362). -/
namespace Sys2Proof.Machine
open Sys2Proof

variable {s : State} {x cid p : Nat}

/-- Set Features of a ready controller with Save clear does the feature's work. -/
theorem exec_setFeat {y : HPort} {i : BitVec 16} {c : Instr} {f : State → Nat → Nat → State} {t : State}
    (h : exec c s = .next (setFeat s y i false f)) (hp : portExists s (portId y) = true)
    (hr : (ctl s (portId y)).ready = true) (hf : f s (portId y) i.toNat = t) : exec c s = .next t :=
  exec_adminCmd h hp hr hf

/-! ### Ports -/

/-- A disable or a retrain needs a mechanism that is quiet (R100). -/
theorem setD0_unquiet {a : Nat} (hc : claimed s (baseTTH p) = false) (ha : a = 1 ∨ a = 3) (hq : mechQuiet s p = false) :
    setD0 p a s x cid = sequenceError s x cid := by
  simp [setD0, hc, ha, hq]

theorem setD0_disable (hc : claimed s (baseTTH p) = false) (hq : mechQuiet s p = true) :
    setD0 p 1 s x cid = adminOk (portDisable s p) x cid 0 := by
  simp [setD0, hc, hq]

theorem setD0_enable (hc : claimed s (baseTTH p) = false) : setD0 p 2 s x cid = adminOk (portEnable s p) x cid 0 := by
  simp [setD0, hc]

theorem setD0_retrain (hc : claimed s (baseTTH p) = false) (hq : mechQuiet s p = true) :
    setD0 p 3 s x cid = adminOk (portRetrain s p) x cid 0 := by
  simp [setD0, hc, hq]

/-! ### Control sets -/

/-- What an override leaves for the mechanism: the set it asks for, and the command that waits for the switch (R197). -/
def overrideAsked (s : State) (p : Nat) (d : Word) (x cid : Nat) : State :=
  setSpn s p fun z => { z with
    setOvr := if bitOf d 23 then some (getF d ⟨8, 8⟩) else none
    ovrCmd := some (x, cid)
    ovrWait := true }

/-- An override switches at once unless a switch runs in the engine, which it waits for (R197). -/
theorem setD4_accepted {d : Word} (hd : getF d ⟨0, 5⟩ = p) (hc : claimed s (baseBRD (p / 2)) = false)
    (hn : (spnOf s p).ovrCmd = none) : setD4 d s x cid =
      if switching s p then overrideAsked s p d x cid else overrideSwitch (overrideAsked s p d x cid) p := by
  subst hd
  simp only [setD4, hc, hn, Option.isSome_none, Bool.false_eq_true, if_false]
  rfl

/-! ### Spindles -/

theorem setD5_run {n : Nat} (hc : claimed s (baseSPN p) = false) (hn : stepSpeed s p n ≠ 0) : setD5 p 1 n s x cid =
    adminOk (askRun (setSpn (fset (fset s (SPN_CTRL p) SPN_CTRL_REQ 1) (SPN_CTRL p) SPN_CTRL_STEP n) p fun z =>
      { z with override := true }) p) x cid 0 := by
  simp [setD5, hc, hn]

theorem setD5_stop (hc : claimed s (baseSPN p) = false) (hf : mechInFlight s p = false) (n : Nat) : setD5 p 2 n s x cid =
    adminOk (askStop (setSpn (fset s (SPN_CTRL p) SPN_CTRL_REQ 0) p fun z => { z with override := true }) p false)
      x cid 0 := by
  simp [setD5, hc, hf]

theorem setD5_policy (hc : claimed s (baseSPN p) = false) (n : Nat) : setD5 p 3 n s x cid =
    adminOk (setSpn s p fun z => { z with override := false }) x cid 0 := by
  simp [setD5, hc]

/-! ### Tasks, heat and modes -/

/-- N_URG, FP_US, the KINDs' enables and the scrub period in days, each in its range (R362). -/
theorem setE9_inRange {d e : Word} (hc : claimed s baseBGW = false) (hn1 : 2 ≤ getF d ⟨0, 7⟩) (hn2 : getF d ⟨0, 7⟩ ≤ 64)
    (hf : 1 ≤ getF d ⟨8, 8⟩) (hd1 : 1 ≤ getF e ⟨0, 16⟩) (hd2 : getF e ⟨0, 16⟩ ≤ 3650) : setE9 d e s x cid =
      adminOk (forAll (rangeFrom 0 64) (forAll (rangeFrom 0 taskCount)
        (fset (fset s BGW_CTRL BGW_CTRL_N_URG (getF d ⟨0, 7⟩)) BGW_CTRL BGW_CTRL_FP_US (getF d ⟨8, 8⟩)) fun s t =>
          fsetb s (BGW_TASK_CTRL t) BGW_TASK_CTRL_EN (bitOf d (16 + taskKind s t))) fun s t =>
            wrN s (BGW_TASK_PERIOD t) (getF e ⟨0, 16⟩ * 86400)) x cid 0 := by
  unfold setE9
  dsimp only
  rw [if_neg (by rw [hc]; decide), if_neg (by omega)]

theorem setEA_inRange {d e : Word} (hc : claimed s baseTHM = false) (h1 : 10 ≤ getF d ⟨0, 8⟩) (h2 : getF d ⟨0, 8⟩ ≤ 200) :
    setEA d e s x cid = adminOk (fset (fsetb (fset s THM_CTRL THM_CTRL_CAL_DT (getF d ⟨0, 8⟩)) THM_CTRL
      THM_CTRL_AUTO_CAL (bitOf d 8)) THM_THR_MAP THM_THR_MAP_MAP (getF e ⟨0, 24⟩)) x cid 0 := by
  unfold setEA
  dsimp only
  rw [if_neg (by rw [hc]; decide), if_neg (by omega)]

section
variable {d : Word} {v : Nat} (hv : getF d ⟨0, 4⟩ = v) (hc : claimed s basePWR = false) (ho : forceOk v = true)
  (hi : getF d ⟨8, 8⟩ ≠ 0) (h7 : v ≠ 7)
include hv hc ho hi h7

/-- A forced mode other than MAINT is stored with SWEEP_IDLE and REB_AUTO, and the command completes (R342). -/
theorem setEE_stored (hm : ¬(mode s = 0xA ∨ mode s = 8 ∨ mode s = 9)) (hB : v ≠ 0xB) : setEE d s x cid =
    adminOk (setForce (fset (fset s PWR_CFG PWR_CFG_SWEEP_IDLE (getF d ⟨8, 8⟩)) PWR_CFG PWR_CFG_REB_AUTO (getF d ⟨16, 1⟩)) v)
      x cid 0 := by
  subst hv
  simp [setEE, hc, ho, hi, h7, hm, hB]

/-- In STANDBY, HANDOVER and SAFE the force is stored, and the command is out of sequence (R342). -/
theorem setEE_outOfSequence (hm : mode s = 0xA ∨ mode s = 8 ∨ mode s = 9) :
    setEE d s x cid = sequenceError (setForce s v) x cid := by
  subst hv
  simp [setEE, hc, ho, hi, h7, hm]

end

end Sys2Proof.Machine

open Sys2Proof Sys2Proof.Machine

/-- Settles O42: each command does its feature's work, by the action and the range of its fields. -/
theorem portAndSpindleSettings : Obligations.PortAndSpindleSettings := by
  unfold Obligations.PortAndSpindleSettings
  refine ⟨?disable, ?disableUnquiet, ?enable, ?retrain, ?overrideWaits, ?overrideSwitches, ?run, ?stop, ?policy, ?tasks,
    ?heat, ?mode, ?modeOutOfSequence⟩
  case disable => exact fun x i p s hp hr hc hq => exec_setFeat rfl hp hr (setD0_disable hc hq)
  case disableUnquiet => exact fun x i p s hp hr hc hq => exec_setFeat rfl hp hr (setD0_unquiet hc (.inl rfl) hq)
  case enable => exact fun x i p s hp hr hc => exec_setFeat rfl hp hr (setD0_enable hc)
  case retrain => exact fun x i p s hp hr hc hq => exec_setFeat rfl hp hr (setD0_retrain hc hq)
  case overrideWaits =>
    exact fun x i d p s hp hr hd hc hn hw => exec_setFeat rfl hp hr ((setD4_accepted hd hc hn).trans (if_pos hw))
  case overrideSwitches =>
    exact fun x i d p s hp hr hd hc hn hw =>
      exec_setFeat rfl hp hr ((setD4_accepted hd hc hn).trans (if_neg (by rw [hw]; exact Bool.false_ne_true)))
  case run => exact fun x i p n s hp hr hc hn => exec_setFeat rfl hp hr (setD5_run hc hn)
  case stop => exact fun x i p s hp hr hc hf => exec_setFeat rfl hp hr (setD5_stop hc hf 0)
  case policy => exact fun x i p s hp hr hc => exec_setFeat rfl hp hr (setD5_policy hc 0)
  case tasks =>
    exact fun x i d e s hp hr hc hn1 hn2 hf hd1 hd2 => exec_setFeat rfl hp hr (setE9_inRange hc hn1 hn2 hf hd1 hd2)
  case heat => exact fun x i d e s hp hr hc h1 h2 => exec_setFeat rfl hp hr (setEA_inRange hc h1 h2)
  case mode =>
    exact fun x i d v m s hp hr hv hm hc ho hi h7 hA h8 h9 hB =>
      exec_setFeat rfl hp hr (setEE_stored hv hc ho hi h7 (by omega) hB)
  case modeOutOfSequence =>
    exact fun x i d v m s hp hr hv hm hc ho hi h7 hbusy =>
      exec_setFeat rfl hp hr (setEE_outOfSequence hv hc ho hi h7 (hm ▸ hbusy))

end

section
/-! The detector lanes and the decoder clusters: pins, reads, decode jobs, retries and power (R106, R115 to R124, R141). -/
namespace Sys2Proof.Machine
open Sys2Proof

variable {s : State} {a : Fin 64} {l : Fin 4} {c : Fin 16} {j : DecJob}

/-! ### Pins and reads -/

/-- A pin that is reached is made where it is free and fits, and is left otherwise (R106). -/
theorem exec_dlPinSet_reach {m : Master} {i : Fin 2} (hr : qcsReach s m (ACT_DL_PIN a l i) = true) (b : BitVec 13)
    (n : BitVec 14) : exec (.dlPinSet m a l i b n) s = .next (
      if !pinHeld s (4 * a + l) i && pinFits s (4 * a + l) i n.toNat then makePin s (4 * a + l) i b.toNat n.toNat else s) :=
  exec_regWrite rfl hr rfl

/-- A sector to read on a ready and live lane joins the ladder that runs on it, or is read (R115, R149). -/
theorem exec_syncDecision_live {w : SecWork} (hw : workAt s a l false = some w) (hr : laneReady s (4 * a + l) = true)
    (hl : s.det.live.contains (4 * a.val + l.val) = true) (t : BitVec 17) : exec (.syncDecision a l t) s = .next (
      (joins s a w).elim (readSector s (4 * a + l) w t.toNat) fun x => putSector s { x with joined := x.joined + 1 }) := by
  show execSyncDecision a l t s = _
  simp only [execSyncDecision, hw, hr, hl, Bool.not_true, Bool.or_self, Bool.false_eq_true, if_false]
  cases joins s a w <;> rfl

/-! ### Decode jobs -/

/-- An idle cluster that is enabled and powered runs the job that its weights choose (R117). -/
theorem exec_decodeJobDispatch_idle {cr : List Int} (he : clusterEn s c = true) (ho : clusterOn s c = true)
    (hb : fbit s (LDC_STAT c) LDC_STAT_BUSY = false) (hj : pickJob s c = some (j, cr)) :
    exec (.decodeJobDispatch c) s = .next (runJob s c j cr) := by
  show execDecodeJobDispatch c s = _
  simp [execDecodeJobDispatch, he, ho, hb, hj]

/-- What cluster `c` makes of the LLRs of job `j`. -/
def jobDecode (s : State) (c : Nat) (j : DecJob) : DecodeEnd :=
  ldpcDecode (jobCode s j) (fget s (LDC_CTRL c) LDC_CTRL_MAXIT) (tabGet [] s.det.llrs (llrKey j.sec j.lane))

/-- The next step after the end `e` of job `j`, counted in `t`: a job whose retry is gone frees its slot, a retry by register
ends, and a sector that is still there goes on with RES latched (R121, R135, R143). -/
def jobEnd (t : State) (j : DecJob) (e : DecodeEnd) : State :=
  if j.what = 4 then dropLlrs (giveSlot t j.lane) j.sec j.lane
  else if j.what = 2 then registerDone t j.lane e
  else match sectorOf t j.sec with
    | none => t
    | some x =>
      sectorDecoded (latchRes t (j.lane / 4) (j.lane % 4) (if e.zero && tagCheck t x e.info != 1 then 0 else 1)) j x e
        (tagCheck t x e.info)

section
variable {t : State} {e : DecodeEnd}

theorem jobEnd_gone (h : j.what = 4) : jobEnd t j e = dropLlrs (giveSlot t j.lane) j.sec j.lane := if_pos h

theorem jobEnd_register (h : j.what = 2) : jobEnd t j e = registerDone t j.lane e := by
  rw [jobEnd, if_neg (by omega), if_pos h]

theorem jobEnd_sector (h2 : j.what ≠ 2) (h4 : j.what ≠ 4) : jobEnd t j e = (sectorOf t j.sec).elim t fun x =>
    sectorDecoded (latchRes t (j.lane / 4) (j.lane % 4) (if e.zero && tagCheck t x e.info != 1 then 0 else 1)) j x e
      (tagCheck t x e.info) := by
  rw [jobEnd, if_neg h4, if_neg h2]
  cases sectorOf t j.sec <;> rfl

end

/-- The job that a cluster runs ends: it is counted, and its next step follows (R118). -/
theorem exec_decodeJobDone_running (hj : s.det.jobs.find? (fun j => j.run == some c.val) = some j) :
    exec (.decodeJobDone c) s = .next (settleDet (jobEnd (jobCounted s c j (jobDecode s c j)) j (jobDecode s c j))) := by
  show execDecodeJobDone c s = _
  simp only [execDecodeJobDone, hj]
  rfl

/-- A parity error within the hour's limit: the cluster's error is counted, and its job waits for another cluster (R119). -/
theorem exec_clusterParityError_within {h : BitVec 16} (hj : s.det.jobs.find? (fun j => j.run == some c.val) = some j)
    (hh : h.toNat < 16) : exec (.clusterParityError c h) s = .next (
      clusterDemand (queueSync (setDet (evtSet (count (fsetb s (LDC_STAT c) LDC_STAT_BUSY false) (LDC_MEM_ERRS c) 1 (.ldc c)
        LDC_EVT_SAT) (.ldc c) LDC_EVT_MEM_ERR) fun d =>
          { d with jobs := d.jobs.map fun k =>
            if k.order = j.order then { k with run := none, avoid := [c.val] } else k }))) := by
  show execClusterParityError c h s = _
  simp only [execClusterParityError, hj, if_neg (show ¬16 < h.toNat + 1 by omega)]

/-! ### Retries -/

theorem retryGo_busy {n : Nat} (hb : fbit s (ACT_DL_RETRY_STAT (n / 4) (n % 4)) ACT_DL_RETRY_STAT_BUSY = true) (v : Word) :
    retryGo s n v = s := if_pos hb

/-- A retry that is not refused begins, and ends at once with 0x05 unless its pin is held (R121). -/
theorem retryGo_begins {n : Nat} (hb : fbit s (ACT_DL_RETRY_STAT (n / 4) (n % 4)) ACT_DL_RETRY_STAT_BUSY = false) (v : Word) :
    retryGo s n v =
      let i := getF v ACT_DL_RETRY_PIN
      let t := retryBegin s n 0 i (v.toNat % 2 ^ 25) false
      if !pinHeld t n i then retryClose t n 5 0 else (retryTry t ⟨n, 0, i, v.toNat % 2 ^ 25, false, none⟩).1 :=
  if_neg (by rw [hb]; exact Bool.false_ne_true)

/-! ### Power -/

/-- An idle cluster with PWR_AUTO that has no job to run lets its domain go (R120). -/
theorem exec_clusterIdlePoweroff_idle (ha : fbit s (LDC_CTRL c) LDC_CTRL_PWR_AUTO = true)
    (hb : fbit s (LDC_STAT c) LDC_STAT_BUSY = false) (ho : clusterOn s c = true)
    (hn : clusterEn s c = false ∨ jobsFor s c = []) : exec (.clusterIdlePoweroff c) s = .next (
      let t := domRelease s (395 + c)
      clusterDemand (fsetb t (LDC_STAT c) LDC_STAT_PWR (clusterOn t c))) := by
  refine congrArg Host.Outcome.next (if_pos ?_)
  simpa [ha, hb, ho] using hn

/-- A lane wanted under AUTO stays on if it powers down, else is asked for unless it is on, on its way or failed (R123). -/
theorem exec_lanePowerRequest_auto (hw : bitOf (rd s (ACT_DET_PWR a)) (4 + l) = true) :
    exec (.lanePowerRequest a l) s = .next (
      let i := 4 * a.val + l.val
      let n := 139 + i
      if s.det.downing.contains i then laneSync (setDet s fun d => { d with downing := d.downing.filter (· != i) }) i
      else if domOn s n || s.pwr.wanted.contains n || domFailed s n then s
      else sliceSync (laneSync (domRequest (if envHolds s n then count s (PWR_CNT 5) 1 .pwr PWR_EVT_SAT else s) n) i) a) :=
  congrArg Host.Outcome.next (if_neg (by simp [hw]))

/-! ### Reads of LDC_SLOTS -/

/-- Past the channels of the mailboxes every master may read what it reaches (R409). -/
theorem mbxMayRead_past {x : Nat} (h : MBX_CH_DATA 64 0 ≤ x) (s : State) (m : Master) : mbxMayRead s m x = true := by
  simp [mbxMayRead, mbxChan, Nat.not_lt.mpr h]

/-- A word that a register answers to any master; a host's access completes on PCI Express besides. -/
theorem regRead_answers {m : Master} {x : Nat} (hx : x % 4 = 0) (h : accessUndefined s m x = false)
    (hm : mbxMayRead s m x = true) : regRead s m x =
      pcieDone (emit (restartPeak (clearRC (latchHigh (dropLatch s m x) m x) x) x) (.readData m x (readValue s m x))) m := by
  rw [regRead, fetchWord_reach hx h hm]

end Sys2Proof.Machine

open Sys2Proof Sys2Proof.Machine

/-- Settles O25: pins by whether they are free and fit, jobs by what they are for, lanes by whether they power down. -/
theorem detectorLanes : Obligations.DetectorLanes := by
  unfold Obligations.DetectorLanes
  refine ⟨?pinMade, ?pinUnfit, ?pinTaken, ?pinReleased, ?pinTimedOut, ?sectorRead, ?sectorJoins,
    fun c j cr s => exec_decodeJobDispatch_idle, ?registerJob, ?goneJob, ?sectorJob,
    fun c h j s => exec_clusterParityError_within, fun c s => exec_clusterIdlePoweroff_idle, ?retryUnpinned, ?retryPinned,
    ?retryBusy, ?laneAsked, ?laneStays, ?laneRestored, ?laneGone, ?laneDowning, ?slotsRead⟩
  case pinMade =>
    exact fun m a l i b n s hr hh hf => (exec_dlPinSet_reach hr b n).trans (congrArg _ (if_pos (by rw [hh, hf]; rfl)))
  case pinUnfit =>
    exact fun m a l i b n s hr hf => (exec_dlPinSet_reach hr b n).trans (congrArg _ (if_neg (by simp [hf])))
  case pinTaken =>
    exact fun m a l i b n s hr hh => (exec_dlPinSet_reach hr b n).trans (congrArg _ (if_neg (by simp [hh])))
  case pinReleased => exact fun m a l i s hr hh => exec_regWrite rfl hr (if_pos hh)
  case pinTimedOut => exact fun a l i s hh => congrArg Host.Outcome.next (if_pos hh)
  case sectorRead => exact fun a l t w s hw hr hl hj => by rw [exec_syncDecision_live hw hr hl, hj]; rfl
  case sectorJoins => exact fun a l t w x s hw hr hl hj => by rw [exec_syncDecision_live hw hr hl, hj]; rfl
  case registerJob => exact fun c j s hj hw => by rw [exec_decodeJobDone_running hj, jobEnd_register hw]; rfl
  case goneJob => exact fun c j s hj hw => by rw [exec_decodeJobDone_running hj, jobEnd_gone hw]; rfl
  case sectorJob => exact fun c j s hj h2 h4 => by rw [exec_decodeJobDone_running hj, jobEnd_sector h2 h4]; rfl
  case retryUnpinned =>
    exact fun m a l v s hr hb hp => exec_regWrite rfl hr ((retryGo_begins hb v).trans (if_pos (by rw [hp]; rfl)))
  case retryPinned =>
    exact fun m a l v s hr hb hp => exec_regWrite rfl hr ((retryGo_begins hb v).trans (if_neg (by rw [hp]; decide)))
  case retryBusy => exact fun m a l v s hr hb => exec_regWrite rfl hr (retryGo_busy hb v)
  case laneAsked =>
    intro a l s hw hd ho hwant hf
    refine (exec_lanePowerRequest_auto hw).trans (congrArg _ ((if_neg (by rw [hd]; exact Bool.false_ne_true)).trans ?_))
    exact if_neg (by rw [ho, hwant, hf]; decide)
  case laneStays => exact fun a l s hw hd => (exec_lanePowerRequest_auto hw).trans (congrArg _ (if_pos hd))
  case laneRestored =>
    exact fun a l s ho hd hr => congrArg Host.Outcome.next (if_pos (by rw [ho, hd, hr]; rfl))
  case laneGone => exact fun a l s hd => congrArg Host.Outcome.next (if_pos hd)
  case laneDowning =>
    exact fun a l s hd hm ho hk => congrArg Host.Outcome.next
      ((if_neg (by rw [hd]; exact Bool.false_ne_true)).trans (if_pos (by rw [hm, ho, hk]; rfl)))
  case slotsRead =>
    intro m c s hu
    refine congrArg Host.Outcome.next (regRead_answers ?_ hu (mbxMayRead_past ?_ s m)) <;>
      simp only [baseLDC, MBX_CH_DATA] <;> omega

end

section
/-! The ladder of a slice: its rungs after reset, and the reconstructions that it waits for (R138 to R145, R240, R242). -/
namespace Sys2Proof.Machine
open Sys2Proof

/-! ### The registers of an actuator after reset -/

/-- The block of the actuators' registers (Table 1-15). -/
def actBlock : BlockRow := ⟨0x1400000, 64, 0x10000, 0x414354, rowsACT⟩

/-- A block that ends before the address does not hold it. -/
theorem blockAt_skip {x : Nat} {b : BlockRow} {bs : List BlockRow} (h : b.base + b.count * b.stride ≤ x) :
    blockAt x (b :: bs) = blockAt x bs := if_neg (by omega)

theorem blockAt_act (a : Fin 64) {off : Nat} (h : off < 0x10000) :
    blockAt (0x1400000 + 0x10000 * a + off) blocks = some (actBlock, a.val, off) := by
  have hi : (0x1400000 + 0x10000 * a.val + off - 0x1400000) / 0x10000 = a := by omega
  have ho : (0x1400000 + 0x10000 * a.val + off - 0x1400000) % 0x10000 = off := by omega
  unfold blocks
  iterate 15 rw [blockAt_skip (by dsimp only; omega)]
  rw [blockAt, if_pos (by dsimp only; omega), hi, ho]
  rfl

/-- Below the clusters' windows an actuator's register is stored at its own address, and holds its row's reset value. -/
theorem rd_reset_act (a : Fin 64) {off : Nat} (h4 : off % 4 = 0) (h : off < 0xC000) :
    rd State.reset (0x1400000 + 0x10000 * a + off) =
      (rowIn actBlock a off).elim 0 fun x => BitVec.ofNat 32 (x.1.rst x.2) := by
  have hhome : homeAddr (0x1400000 + 0x10000 * a.val + off) = 0x1400000 + 0x10000 * a + off := if_neg (by omega)
  show resetWord (homeAddr _) = _
  rw [hhome, resetWord, locate, if_neg (by omega), blockAt_act a (by omega)]
  dsimp only
  cases rowIn actBlock a off <;> rfl

/-- The ladder of Table 5-6. -/
def ladderTable : List Word :=
  [0x0100000C, 0x1200403C, 0x0000800C, 0x00038004, 0x00058004, 0x00078004, 0x0000A80C, 0x0000B00C, 0x0000B80C,
    0x20000000, 0x30000000, 0x40000000, 0xF0000000, 0xF0000000, 0xF0000000, 0xF0000000]

/-- The sixteen registers from 0x300 on of an actuator are the rungs of its ladder. -/
theorem rowIn_ladder (i : Nat) (r : Fin 16) :
    ∃ row, rowIn actBlock i (0x300 + 4 * r) = some (row, [i, r.val]) ∧
      BitVec.ofNat 32 (row.rst [i, r.val]) = ladderTable.getD r 0 := by
  match r with
  | 0 | 1 | 2 | 3 | 4 | 5 | 6 | 7 | 8 | 9 | 10 | 11 | 12 | 13 | 14 | 15 => exact ⟨_, rfl, rfl⟩
  | ⟨n + 16, hn⟩ => omega

end Sys2Proof.Machine

open Sys2Proof Sys2Proof.Machine

/-- Settles O15: a register after reset holds its row's reset value, and the rungs' rows hold the ladder. -/
theorem defaultLadder : Obligations.DefaultLadder := by
  unfold Obligations.DefaultLadder
  intro a r
  obtain ⟨row, hrow, hrst⟩ := rowIn_ladder a r
  have haddr : ACT_LAD a r = 0x1400000 + 0x10000 * a + (0x300 + 4 * r) := by
    unfold ACT_LAD
    omega
  rw [haddr, rd_reset_act a (by omega) (by omega), hrow]
  exact hrst

/-- Settles O26: the sector of each command is the one its hypotheses name, and a track's information part is rebuilt or not. -/
theorem reconstruction : Obligations.Reconstruction := by
  unfold Obligations.Reconstruction
  refine ⟨?reread, ?trackParity, ?thatch, fun p q n s => rfl⟩
  case reread =>
    intro a l b x q s hat hready hstep
    show execLadderReread a l b s = _
    simp only [execLadderReread, hat]
    exact congrArg Host.Outcome.next (if_neg (by simp [hready, hstep]))
  case trackParity =>
    intro a l r x s hat
    show execTrackParityReconstruct a l r s = _
    simp only [execTrackParityReconstruct, hat]
    cases trackInfo s x.1 r with
    | none => rfl
    | some info => rfl
  case thatch =>
    intro t n b r x s hfree hfind
    show execThatchReconstruct t n b r s = _
    simp only [execThatchReconstruct, hfree, hfind]
    rfl

end

section
/-! The servo: wedges, write inhibits, LOST, shock, rewrite passes and squeeze reads (R157 to R179). -/
namespace Sys2Proof.Machine
open Sys2Proof

variable {s : State} {a : Fin 64} {l : Fin 4}

/-! ### A head that follows -/

/-- More than MISS_TOL wedges missed in a row set cause 1, where no cause has been set since the last wedge (R165). -/
theorem exec_missInhibit_pastTol (hf : following s a l = true)
    (hn : missTol s a < fget s (ACT_SL_INH a l) ACT_SL_INH_MISSES) (hs : (slane s a l).setNow = 0) :
    exec (.missInhibit a l) s = .next (noRewrites (setCause s a l 1) a) :=
  congrArg Host.Outcome.next (if_pos ⟨hf, Nat.ne_zero_of_lt hn, .inl hn, by rw [hs]⟩)

/-- A head newly at its reach for two wedges is marked and gets cause 2 (R162). -/
theorem exec_maSaturation_newly (hf : following s a l = true) (hm : maSaturated s a l = true)
    (hc : srcOn s a l 2 = false) :
    exec (.maSaturation a l) s = .next (setSrc (evtSet s (.srv a) ACT_SRV_EVT_MA_SAT) a l 2 true) :=
  congrArg Host.Outcome.next (if_pos ⟨hf, hm, by rw [hc]; rfl⟩)

/-! ### LOST -/

/-- A seek on the reference head of an actuator in LOST that keeps its heads: found, counted, or the third that fails (R159). -/
theorem exec_servoReacquire_lost (hm : srvMode s a = 5) (hu : (slice s a).unloading = false) (found : Bool) :
    exec (.servoReacquire a found) s = .next (
      let t := evtSet s (.srv a) ACT_SRV_EVT_REACQ
      let n := (slice t a).tries + 1
      let u := setSlice t a fun x => { x with tries := n }
      if found then servoFound t a else if n < 3 then u else servoFailed u a) :=
  congrArg Host.Outcome.next (if_neg (by simp [hm, hu]))

/-! ### Shock -/

/-- A record of 0xFFFF is above the limits of both slices, the second's as the first's shock leaves it (R167). -/
theorem exec_shockRecord_max {p : Fin 32} {v : BitVec 16} (hv : v.toNat = 0xFFFF) (t : BitVec 32) :
    exec (.shockRecord p v t) s = .next (shockSlice (shockSlice s (2 * p)) (2 * p + 1)) := by
  refine congrArg Host.Outcome.next ?_
  simp only [forAll, List.foldl_cons, List.foldl_nil, hv, true_or, if_true]

/-! ### Rewrite passes -/

/-- At the index of a following actuator outside SAFE with sectors pending: the passes are used up and the sectors end, or a
pass is made, which is the last where it wrote all of them (R171, R173). -/
theorem exec_rewritePass_due (hp : (slice s a).pend ≠ []) (hs : inSafe s = false) (hm : srvMode s a = 4)
    (hi : (slice s a).index = true) :
    exec (.rewritePass a) s = .next (
      if rewriteMax s a ≤ (slice s a).passes then endPending s a
      else if (slice (rewritten s a) a).pend = [] then evtSet (rewritten s a) (.ws a) ACT_WS_EVT_REWRITE_DONE
      else noRewrites (rewritten s a) a) :=
  congrArg Host.Outcome.next (if_neg (by simp [hp, hs, hm, hi]))

/-! ### Squeeze reads -/

/-- Once the inhibit's span has its end, the failed sectors of the earlier track that it takes in are reported, and the
squeeze is over (R172). -/
theorem exec_squeezeRead_ended {k u v : Nat} (hq : (slane s a l).squeezed = some (k, u, some v)) (f : List (BitVec 16))
    (n : BitVec 8) (b : BitVec 40) :
    exec (.squeezeRead a l f n b) s = .next (
      setSlane (count (forAll (f.filter fun i => inSpan s a l u v i.toNat) s fun t i =>
        reportReloc t (pendSector a ⟨l, laneHd t a l, earlierTrack t a l k, i.toNat, 0, n.toNat, b.toNat + i.toNat⟩) false)
        (ACT_WS_CNT a 9) 1 (.ws a) ACT_WS_EVT_SAT) a l fun x => { x with squeezed := none }) := by
  show execSqueezeRead a l f n b s = _
  simp only [execSqueezeRead, hq]

end Sys2Proof.Machine

open Sys2Proof Sys2Proof.Machine

/-- Settles O27: the servo by what its heads and its mode are, a rewrite pass by whether one is left. -/
theorem servoCommands : Obligations.ServoCommands := by
  unfold Obligations.ServoCommands
  refine ⟨?wedge, fun a l s => exec_missInhibit_pastTol, fun a l s => rfl, ?lost, ?found, ?notFound, ?settled,
    fun a l s => exec_maSaturation_newly, fun p v t s hv => exec_shockRecord_max hv t, ?noRecord, fun a s => rfl,
    ?passesUsed, ?pass, fun a l f n b k u v s hq => exec_squeezeRead_ended hq f n b, ?swInhibit⟩
  case wedge => exact fun a l w t s hf => congrArg Host.Outcome.next (if_neg (by rw [hf]; decide))
  case lost => exact fun a s hload hlost hmiss => congrArg Host.Outcome.next (if_pos ⟨hload, hlost, hmiss⟩)
  case found => exact fun a s hm hu => exec_servoReacquire_lost hm hu true
  case notFound =>
    exact fun a s hm hu ht =>
      (exec_servoReacquire_lost hm hu false).trans (congrArg _ (if_pos (Nat.succ_lt_succ ht)))
  case settled => exact fun a s hm hne hall => congrArg Host.Outcome.next (if_pos ⟨hm, hne, hall⟩)
  case noRecord => exact fun a s hm => congrArg Host.Outcome.next (if_neg hm)
  case passesUsed =>
    exact fun a s hp hs hm hi hmax => (exec_rewritePass_due hp hs hm hi).trans (congrArg _ (if_pos hmax))
  case pass =>
    exact fun a s hp hs hm hi hleft =>
      (exec_rewritePass_due hp hs hm hi).trans (congrArg _ (if_neg (Nat.not_le.2 hleft)))
  case swInhibit => exact fun m a k s hr => exec_regWrite rfl hr rfl

end

section
/-! The Bridle engines: triggers, iterations and outputs, switches, the writes of a slot, and following errors (R179 to R195). -/
namespace Sys2Proof.Machine
open Sys2Proof

variable {s : State} {m : Master} {e : Fin 16} {k : Fin 64}

/-! ### Iterations and outputs -/

/-- An enabled, powered and idle engine starts the iteration of the ready slot that goes next (R179, R180). -/
theorem exec_bridleIterationStart_next {j : Nat} (hen : fbit s (BRD_CTRL e) BRD_CTRL_EN = true)
    (hon : domOn s (411 + e) = true) (hidle : (engine s e).run = none) (hj : nextReady s e = some j) (t : BitVec 48) :
    exec (.bridleIterationStart e t) s = .next (iterate s e j t.toNat) := by
  refine congrArg Host.Outcome.next ((if_neg (by simp [hen, hon, hidle])).trans ?_)
  rw [hj]

/-- The iteration that runs ends (R184). -/
theorem exec_bridleIterationEnd_running {i : BrdIter} (hi : (engine s e).run = some i) :
    exec (.bridleIterationEnd e) s = .next (iterated s e i) := by
  show execBridleIterationEnd e s = _
  simp only [execBridleIterationEnd, hi]

/-- A waiting output goes with those of its port that are due in the same cycle, in one flit without the silent slots (R181,
R183). -/
theorem exec_bridleOutput_waiting {o : Int × Nat × Bool} {l : List (Int × Nat × Bool)} (hp : (bslot s e k).pend = o :: l) :
    exec (.bridleOutput e k) s = .next (
      sendOutputs (forAll (dueWith s e k o) s fun s x => outputGone s e x) e (slotAct e k / 2)
        (((dueWith s e k o).filter fun x => !slotSilent s e x.1).map fun x => (x.1, x.2.1))) := by
  show execBridleOutput e k s = _
  simp only [execBridleOutput, hp]

/-! ### Switches -/

/-- An armed slot of an idle engine is copied at once where it does not iterate, has a following-error action, or gets no
trigger (R190, R191). -/
theorem exec_bridleSwitchIdleCopy_stays (ha : (bslot s e k).armed = true)
    (hstays : iterates s e k = false ∨ fbit s (BRD_SL_STAT e k) BRD_SL_STAT_FE_ACTIVE = true ∨
      ((bslot s e k).ready = false ∧ slotTriggered s e k = false)) (hidle : (engine s e).run = none) :
    exec (.bridleSwitchIdleCopy e k) s = .next (switchCopy s e k) := by
  refine congrArg Host.Outcome.next (if_pos ?_)
  rcases hstays with h | h | ⟨hready, htrig⟩
  · simp [ha, hidle, h]
  · simp [ha, hidle, h]
  · simp [ha, hidle, hready, htrig]

/-- A mechanism in phase 2 of a step change that has held the new speed takes its other slots' sets, where its engine neither
switches nor is claimed (R192 step 3; log entry 49). -/
theorem exec_speedStepGroupSwitch_held {p : Fin 32} {c : StepChange} (hc : (spnOf s p).step = some c) (h2 : c.phase = 2)
    (hheld : (if wedgesSeen s p then decide (16 ≤ (spnOf s p).near) else speedNear s p c.target) = true)
    (hsw : switching s p = false) (hcl : claimed s (baseBRD (p / 2)) = false) :
    exec (.speedStepGroupSwitch p) s = .next (
      groupSwitch (setSpn s p fun x => { x with step := some { c with phase := 3 } }) p (coefSet s p c.target)
        ((mechSlots p).filter fun k => slotKind k != 3)) := by
  show execSpeedStepGroupSwitch p s = _
  simp only [execSpeedStepGroupSwitch, hc]
  exact congrArg Host.Outcome.next (if_pos ⟨h2, hheld, by rw [hsw]; rfl, by rw [hcl]; rfl⟩)

/-! ### Writes of a slot -/

/-- MODE of a slot that runs a loop is stored, and any mode but OFF asks for the engine's power (R186, R195). -/
theorem exec_slotModeWrite_used (hr : qcsReach s m (BRD_SL_CTRL e k) = true) (hu : slotUsed k = true) (v : BitVec 2) :
    exec (.slotModeWrite m e k v) s = .next (
      let t := fset s (BRD_SL_CTRL e k) BRD_SL_CTRL_MODE v.toNat
      if v = 0 then t else enginePower t e) :=
  exec_regWrite rfl hr (if_pos hu)

/-- A live coefficient outside the seek banks is refused while its own slot's switch is armed (R188). -/
theorem exec_liveCoefWrite_own {i : Fin 16} (hr : qcsReach s m (BRD_COEF e k i) = true) (hk : slotKind k ≠ 0xE) (v : Word) :
    exec (.liveCoefWrite m e k i v) s = .next (
      if (bslot s e k).armed then evtSet (fset s (BRD_SL_STAT e k) BRD_SL_STAT_SWERR 2) (.brd e) BRD_EVT_SW_ERR
      else wr s (BRD_COEF e k i) v) :=
  exec_regWrite rfl hr (by simp only [if_neg hk])

/-! ### Following errors -/

/-- An EVENT action of a slot without an assist ends after FE_N iterations within half the limit, and leaves no calibration
(R194, R355). -/
theorem exec_followingErrorEnd_event (hf : fbit s (BRD_SL_STAT e k) BRD_SL_STAT_FE_ACTIVE = true)
    (ha : (bslot s e k).feAct = 0) (hn : feN s e k ≤ (bslot s e k).feLow) (hk : slotKind k ≠ 4) :
    exec (.followingErrorEnd e k) s = .next (
      syncFe (fset (fsetb s (BRD_SL_STAT e k) BRD_SL_STAT_FE_ACTIVE false) (BRD_SL_STAT e k) BRD_SL_STAT_FE_CNT 0) e k) :=
  congrArg Host.Outcome.next ((if_pos ⟨hf, ha, hn⟩).trans (if_neg hk))

/-- An action of kinds 1 to 3 is cleared, and a slot in AUTO presets (R194). -/
theorem feClear_active {e k : Nat} (hf : fbit s (BRD_SL_STAT e k) BRD_SL_STAT_FE_ACTIVE = true)
    (ha : (bslot s e k).feAct ≠ 0) : feClear s e k =
      syncFe (setBslot (fset (fsetb s (BRD_SL_STAT e k) BRD_SL_STAT_FE_ACTIVE false) (BRD_SL_STAT e k) BRD_SL_STAT_FE_CNT 0)
        e k fun x => { x with feAct := 0, feLow := 0, preset := x.preset || x.mode == 2 }) e k :=
  if_pos ⟨hf, ha⟩

/-! ### Power -/

/-- An engine with PWR_AUTO and every slot OFF whose domain goes off loses its slots' states but for what a switch armed, and
OUT reads 0 (R195). -/
theorem exec_bridleEnginePoweroff_off (ha : fbit s (BRD_CTRL e) BRD_CTRL_PWR_AUTO = true)
    (hoff : (rangeFrom 0 64).all (fun k => slotMode s e k == 0) = true) (hon : domOn s (411 + e) = true)
    (hgone : domOn (domRelease s (411 + e)) (411 + e) = false) :
    exec (.bridleEnginePoweroff e) s = .next (
      forAll (rangeFrom 0 64) (setEngine (fset (fset (fsetb (domRelease s (411 + e)) (BRD_STAT e) BRD_STAT_PWR false)
        (BRD_STAT e) BRD_STAT_Q 0) (BRD_STAT e) BRD_STAT_LOAD 0) e fun _ => {}) fun s k =>
          wrN (setBslot s e k fun x => { armed := x.armed }) (BRD_SL_OUT e k) 0) :=
  congrArg Host.Outcome.next ((if_pos ⟨ha, hoff, hon⟩).trans (if_neg (by rw [hgone]; exact Bool.false_ne_true)))

end Sys2Proof.Machine

open Sys2Proof Sys2Proof.Machine

/-- Settles O28: an engine by whether it is idle, a slot by its kind, its switch and its following-error action. -/
theorem bridleCommands : Obligations.BridleCommands := by
  unfold Obligations.BridleCommands
  refine ⟨?timer, fun e t k s hen hon hidle hk => exec_bridleIterationStart_next hen hon hidle hk t,
    fun e i s => exec_bridleIterationEnd_running, fun e k o l s => exec_bridleOutput_waiting, ?switchGo,
    fun e k s => exec_bridleSwitchIdleCopy_stays, fun p c s => exec_speedStepGroupSwitch_held, ?modeOff, ?modeOn,
    ?coefStored, ?coefRefused, ?feActs, fun e k s => exec_followingErrorEnd_event, ?feCleared,
    fun e s => exec_bridleEnginePoweroff_off, ?statRead⟩
  case timer => exact fun e k t s hk => congrArg Host.Outcome.next (if_pos hk)
  case switchGo => exact fun m e s hr => exec_regWrite rfl hr rfl
  case modeOff => exact fun m e k s hr hu => exec_slotModeWrite_used hr hu 0
  case modeOn =>
    exact fun m e k v s hr hu hv => (exec_slotModeWrite_used hr hu v).trans (congrArg _ (if_neg hv))
  case coefStored =>
    exact fun m e k i v s hr hk ha =>
      (exec_liveCoefWrite_own hr hk v).trans (congrArg _ (if_neg (by rw [ha]; exact Bool.false_ne_true)))
  case coefRefused =>
    exact fun m e k i v s hr hk ha => (exec_liveCoefWrite_own hr hk v).trans (congrArg _ (if_pos ha))
  case feActs =>
    exact fun e k s hu hm hf hn => congrArg Host.Outcome.next (if_pos ⟨hu, hm, by rw [hf]; rfl, hn⟩)
  case feCleared =>
    exact fun m e k s hr hu hf ha => exec_regWrite rfl hr ((if_pos hu).trans (feClear_active hf ha))
  case statRead =>
    intro m e s hu
    refine congrArg Host.Outcome.next (regRead_answers ?_ hu (mbxMayRead_past ?_ s m)) <;>
      simp only [BRD_STAT, MBX_CH_DATA] <;> omega

end

section
/-! What is asked of a spindle: REQ, the first start in line, and the chopper's service bit (R204 to R210, R219, R315). -/
namespace Sys2Proof.Machine
open Sys2Proof

variable {s : State} {p : Fin 32}

/-- A stop that leaves the ledger within its bound is done at once (R315). -/
theorem askStop_passes (h : requestPasses s p 0 = true) (coast : Bool) : askStop s p coast = doStop s p coast := if_pos h

/-- The first waiter in line, stopped and asked to run, with its port up and its policy open, starts without a pair while a
spin-up is free (R207). -/
theorem exec_spinupAdmit_roomForStart (hw : s.shelf.waits.contains p.val = true) (hf : firstInLine s p = true)
    (hs : inSafe s = false) (hh : s.prt.hoWait = false) (hr : (spnOf s p).wantRun = true) (hz : spnState s p = 0)
    (hu : portUp s p = true) (ho : policyOpen s p = true) (hc : (spnOf s p).chopStop = false)
    (hn : fget s SPN_SHELF_CTRL SPN_SHELF_CTRL_SPINUPS < spinupMax s) :
    exec (.spinupAdmit p) s = .next (admitStart s p none) := by
  have hturn : ¬(!s.shelf.waits.contains p.val || !firstInLine s p || inSafe s || s.prt.hoWait) = true := by
    rw [hw, hf, hs, hh]
    decide
  have hclear : (!(spnOf s p).chopStop) = true := by rw [hc]; rfl
  exact congrArg Host.Outcome.next ((if_neg hturn).trans ((if_pos ⟨hr, .inl hz⟩).trans
    ((if_pos ⟨hu, ho, hclear⟩).trans (if_pos (decide_eq_true hn)))))

end Sys2Proof.Machine

open Sys2Proof Sys2Proof.Machine

/-- Settles O29: the writes reach their registers, a stop passes the ledger, and the first start in line has room. -/
theorem spindleRequests : Obligations.SpindleRequests := by
  unfold Obligations.SpindleRequests
  refine ⟨?run, ?stop, ?coast, ?step, fun p s => exec_spinupAdmit_roomForStart, ?chopClear, ?chopSet⟩
  case run | step => exact fun m p i s hr => exec_regWrite rfl hr rfl
  case stop => exact fun m p s hr hq => exec_regWrite rfl hr (askStop_passes hq false)
  case coast => exact fun m p s hr hq => exec_regWrite rfl hr (askStop_passes hq true)
  case chopClear | chopSet => exact fun m p s hr => exec_regWrite rfl hr rfl

end

section
/-! How a spindle moves: crossings, the sine drive, RUN, the slewing reference and the regeneration stop (R202 to R212, R466). -/
namespace Sys2Proof.Machine
open Sys2Proof

variable {s : State} {p : Fin 32}

/-! ### Crossings -/

section
variable {i : BitVec 8} {t : BitVec 32} {k : Nat} (h4 : spnState s p = 4)
include h4

/-- In ACCEL with no crossing before it, a crossing has nothing to be judged by, and is kept as the last (R202). -/
theorem exec_zcRecord_first (hl : (spnOf s p).lastStep = none) (hk : crossingStep i.toNat = some k) :
    exec (.zcRecord p i t) s = .next (setSpn s p fun x => { x with lastStep := some k, lastT := t.toNat }) := by
  refine congrArg Host.Outcome.next ((if_neg (by omega)).trans ?_)
  simp only [hl, hk]

/-- A crossing inside the window that has no step's phase and polarity fails the step in ACCEL, whatever came before it
(R202). -/
theorem exec_zcRecord_noStep (hk : crossingStep i.toNat = none)
    (hw : inWindow s p ((spnOf s p).fails + 1) ((t.toNat + 2 ^ 32 - (spnOf s p).lastT) % 2 ^ 32) (rdN s (SPN_ZC p)) = true) :
    exec (.zcRecord p i t) s = .next (stepFail s p) := by
  have hd : driven (spnState s p) = true := by rw [h4]; rfl
  refine congrArg Host.Outcome.next ((if_neg (by omega)).trans ?_)
  cases hl : (spnOf s p).lastStep <;> simp only [hk, hd, hw, Bool.or_true, if_true]

end

/-! ### The sine drive -/

/-- A spindle under test is driven at the angle that its rotor is observed at (R203). -/
theorem exec_sineUpdate_test (h : spnState s p = 11) (o : BitVec 10) :
    exec (.sineUpdate p o) s = .next (sendDrive s p 2 (duty s p (spnOut s p) o.toNat * 2 ^ 18 +
      duty s p (spnOut s p) (o.toNat + 683) * 2 ^ 9 + duty s p (spnOut s p) (o.toNat + 341))) := by
  have h3 : ¬spnState s p = 3 := by omega
  refine congrArg Host.Outcome.next ((if_neg (by omega)).trans ?_)
  simp only [if_neg h3]

/-! ### RUN and speed steps -/

/-- ACCEL with no speed step under way ends in RUN at the asked step after 16 crossings within its tolerance (Table 8-3). -/
theorem exec_spindleRunReached_noStep (h4 : spnState s p = 4) (h16 : 16 ≤ (spnOf s p).inTol)
    (hn : (spnOf s p).step = none) :
    exec (.spindleRunReached p) s = .next (loadHeads (spnSlotRef (fset (fwFeClear (setSpnState s p 5) (slotOf (2 * p) 13))
      (SPN_STAT p) SPN_STAT_SPEED_STEP (fget s (SPN_CTRL p) SPN_CTRL_STEP)) p
      (stepSpeed s p (fget s (SPN_CTRL p) SPN_CTRL_STEP))) p) := by
  refine congrArg Host.Outcome.next ((if_pos ⟨h4, h16⟩).trans ?_)
  simp only [hn, Option.map_none, Option.getD_none]

/-- In phase 2 of a speed step the reference moves by SLEW towards the step's speed and stops there (R208 step 3). -/
theorem exec_speedRefSlewTick_slews {c : StepChange} (hc : (spnOf (stepSwitch s p) p).step = some c) (h2 : c.phase = 2)
    (h6 : spnState (stepSwitch s p) p = 6) :
    exec (.speedRefSlewTick p) s = .next (
      let s := stepSwitch s p
      let r := rdN s (BRD_SL_REF (slotOf (2 * p) 13).1 (slotOf (2 * p) 13).2)
      let t := stepSpeed s p c.target
      spnSlotRef s p (if r < t then min t (r + fget s (SPN_RAMP p) SPN_RAMP_SLEW)
        else max t (r - fget s (SPN_RAMP p) SPN_RAMP_SLEW))) := by
  show execSpeedRefSlewTick p s = _
  simp only [execSpeedRefSlewTick, hc]
  exact congrArg Host.Outcome.next (if_pos ⟨h2, h6⟩)

/-! ### Regeneration -/

/-- A front-end without a BUS record is left out of BUS_OK (R209), so where all are, REGEN_STOP clears (R210); with no
mechanism waiting to regenerate, nothing follows. -/
theorem exec_regenStopClear_noRecord (hstop : fbit s SPN_SHELF_BUS SPN_SHELF_BUS_REGEN_STOP = true)
    (hq : s.shelf.regenQ = []) (hbus : (rangeFrom 0 32).all (fun p => !(spnOf s p).busSeen) = true) :
    exec .regenStopClear s = .next (fsetb s SPN_SHELF_BUS SPN_SHELF_BUS_REGEN_STOP false) := by
  have hlow : (rangeFrom 0 32).all (fun p => !(spnOf s p).busSeen ||
      decide (fget s (SPN_BUS p) SPN_BUS_BUS_V < fget s SPN_SHELF_BUS SPN_SHELF_BUS_BUS_OK)) = true :=
    List.all_eq_true.2 fun q hmem => by rw [List.all_eq_true.1 hbus q hmem, Bool.true_or]
  refine congrArg Host.Outcome.next ((if_pos ⟨hstop, hlow⟩).trans ?_)
  simp only [forAll, fsetb_shelf, hq, List.foldl_nil]

end Sys2Proof.Machine

open Sys2Proof Sys2Proof.Machine

/-- Settles O30: each command by the state of the spindle that its hypotheses name. -/
theorem spindleMotion : Obligations.SpindleMotion := by
  unfold Obligations.SpindleMotion
  refine ⟨fun p i t k s => exec_zcRecord_first, fun p i t s => exec_zcRecord_noStep, ?commutation, ?stepFails,
    ?observerLost, fun p o s h => exec_sineUpdate_test h o, ?catchLocks, ?noCrossing, ?implausible, ?aligned, ?handover,
    ?rampAgain, fun p s => exec_spindleRunReached_noStep, ?shortAligns, ?shortStops, ?regenAdmitted,
    fun p c s => exec_speedRefSlewTick_slews, ?busIdle, ?busRegen, ?chopper, fun s => exec_regenStopClear_noRecord,
    ?coastEnds, ?windowEnds, fun p s => rfl⟩
  case commutation | stepFails | observerLost | aligned | regenAdmitted | chopper =>
    exact fun p s h => congrArg Host.Outcome.next (if_pos h)
  case catchLocks =>
    exact fun p s h1 h12 hmin => congrArg Host.Outcome.next (if_pos ⟨.inl h1, h12, hmin⟩)
  case noCrossing =>
    exact fun p s h1 hl => congrArg Host.Outcome.next (if_pos ⟨h1, Option.isNone_iff_eq_none.2 hl⟩)
  case implausible =>
    exact fun p k s h1 hl => congrArg Host.Outcome.next (if_pos ⟨h1, Option.isSome_of_eq_some hl⟩)
  case handover =>
    exact fun p s h3 hfast h12 => congrArg Host.Outcome.next (if_pos ⟨h3, hfast, h12⟩)
  case rampAgain =>
    exact fun p s h3 ht => congrArg Host.Outcome.next ((if_pos h3).trans (if_neg (Nat.not_le.2 ht)))
  case shortAligns => exact fun p s h8 ha => congrArg Host.Outcome.next ((if_pos h8).trans (if_pos ha))
  case shortStops =>
    exact fun p s h8 ha hc => congrArg Host.Outcome.next
      ((if_pos h8).trans ((if_neg (ne_true_of_eq_false ha)).trans (if_neg (ne_true_of_eq_false hc))))
  case busIdle => exact fun p f v s h => congrArg Host.Outcome.next (if_neg (ne_true_of_eq_false h))
  case busRegen => exact fun p f v s h => congrArg Host.Outcome.next (if_pos h)
  case coastEnds => exact fun p s h9 hu => congrArg Host.Outcome.next (if_pos ⟨h9, hu⟩)
  case windowEnds => exact fun p us s h9 hu => congrArg Host.Outcome.next (if_pos ⟨h9, hu⟩)

end

section
/-! The assist drives and the mechanism's temperature: records, the monitor, calibrations (R213, R215, R216, R351). -/
namespace Sys2Proof.Machine
open Sys2Proof

variable {s : State}

/-- A calibration starts for a head and a band that exist, where none runs and the head's assist is not retired (R216). -/
theorem calStart_inRange {p q b : Nat} (hg : fbit s (AST_CALCMD p) AST_CALCMD_GO = false) (hq : q ≤ 23) (hb : b ≤ 5)
    (hw : fbit s (AST_WEAR_W2 p q) AST_WEAR_W2_RETIRED = false) :
    calStart s p q b = fsetb (fset (fset (fset s (AST_CALCMD p) AST_CALCMD_Q q) (AST_CALCMD p) AST_CALCMD_B b)
      (AST_CALCMD p) AST_CALCMD_RESULT 0) (AST_CALCMD p) AST_CALCMD_GO true := by
  refine (if_neg (ne_true_of_eq_false hg)).trans (if_neg ?_)
  rw [Nat.min_eq_left hq, hw]
  simp only [Nat.not_lt.2 hq, Nat.not_lt.2 hb, Bool.false_eq_true, or_self, not_false_eq_true]

/-- Of the two temperatures of a mechanism, one outside the sensor's range is a sensor fault (R351). -/
theorem exec_mechTempRecord_invalid {p : Fin 32} {i : BitVec 8} {t : BitVec 16} (hi : i = 0 ∨ i = 1)
    (h : tempValid (tempOf t) = false) : exec (.mechTempRecord p i t) s = .next (sensorFault s) := by
  have hknown : ¬(i ≠ 0 ∧ i ≠ 1) := fun ⟨h0, h1⟩ => hi.elim h0 h1
  exact congrArg Host.Outcome.next ((if_neg hknown).trans (if_pos (by rw [h]; rfl)))

/-- The temperature of index 0 is stored in word 1 and read at once (R351). -/
theorem exec_mechTempRecord_zero {p : Fin 32} {t : BitVec 16} (h : tempValid (tempOf t) = true) :
    exec (.mechTempRecord p 0 t) s = .next (readNow (fset s (THM_MECH_W1 p) THM_MECH_W1_TEMP t.toNat) (60 + p)) :=
  congrArg Host.Outcome.next ((if_neg (by decide)).trans ((if_neg (by rw [h]; decide)).trans (if_pos rfl)))

end Sys2Proof.Machine

open Sys2Proof Sys2Proof.Machine

/-- Settles O31: records are taken as they come, a temperature by its range, a calibration by what lets it start. -/
theorem assistCommands : Obligations.AssistCommands := by
  unfold Obligations.AssistCommands
  refine ⟨fun p l v t s => rfl, ?monitorLost, fun p l v t s => rfl, fun p t s => exec_mechTempRecord_zero,
    fun p t s => exec_mechTempRecord_invalid (.inr rfl), ?calStarts, ?calEnds⟩
  case monitorLost =>
    exact fun p l s hon hlost => congrArg Host.Outcome.next (if_pos ⟨hon, by rw [hlost]; rfl⟩)
  case calStarts =>
    exact fun m p q b s hr hg hq hb hw => exec_regWrite rfl hr (calStart_inRange hg hq hb hw)
  case calEnds => exact fun p v n s hg => congrArg Host.Outcome.next (if_pos hg)

end

section
/-! Vendor admin commands over locations, recorders, spindles, roles, memory and calibration (R220, R249, R305, R362, R405,
R423). -/
namespace Sys2Proof.Machine
open Sys2Proof

variable {s : State} {x : HPort} {cid : BitVec 16}

/-- An admin command over a block that is not under a claim does what it does past the check of the claim. -/
theorem exec_adminCmd_unclaimed {c : Instr} {b : Nat} {f : State → State} {t : State}
    (h : exec c s = .next (adminCmd s x fun s => if claimed s b then claimHeld s (portId x) cid.toNat else f s))
    (hp : portExists s (portId x) = true) (hr : (ctl s (portId x)).ready = true) (hc : claimed s b = false)
    (hf : f s = t) : exec c s = .next t :=
  exec_adminCmd h hp hr ((if_neg (ne_true_of_eq_false hc)).trans hf)

/-! ### Spindle service -/

section
variable {p : Fin 32} {n : BitVec 2} {q : BitVec 5} (hp : portExists s (portId x) = true) (hr : (ctl s (portId x)).ready = true)
  (hc : claimed s (baseSPN p) = false)
include hp hr hc

/-- A stopped spindle of a mechanism whose unit is ASLEEP goes to TEST at the speed of a step that it has (R220). -/
theorem exec_spindleServiceTest_stopped (hu : (mechUnit s p).any (fun u => uState s u == 1) = true)
    (hz : spnState s p = 0) (hn : stepSpeed s p n.toNat ≠ 0) :
    exec (.spindleServiceTest x cid p n) s = .next (fset (spnSlotRef (spnSlotMode (setSpn
      (setSpnState (enginePower s (p / 2)) p 11) p fun z => { z with testCmd := some (portId x, cid.toNat) }) p 2 0) p
      (stepSpeed s p n.toNat)) (SPN_STAT p) SPN_STAT_DRIVE 2) := by
  refine exec_adminCmd_unclaimed rfl hp hr hc ((if_neg ?_).trans (if_neg hn))
  rw [hu, hz]
  decide

/-- A calibration of a head that exists, and whose assist is not retired, is pended for its actuator (R220). -/
theorem exec_spindleServiceCalibrate_pends (hq : q.toNat ≤ 23)
    (hw : fbit s (AST_WEAR_W2 p q.toNat) AST_WEAR_W2_RETIRED = false) :
    exec (.spindleServiceCalibrate x cid p q) s = .next
      (calPend s (2 * p + q.toNat / 12) (some (some (q.toNat % 12), some (portId x, cid.toNat)))) :=
  exec_adminCmd_unclaimed rfl hp hr hc ((if_neg (Nat.not_lt.2 hq)).trans (if_neg (ne_true_of_eq_false hw)))

end

/-- The end of a test brakes the spindle and completes the command that asked for it (R220). -/
theorem exec_spindleTestEnd_asked {p : Fin 32} {c : Nat × Nat} (h : spnState s p = 11)
    (hc : (spnOf s p).testCmd = some c) :
    exec (.spindleTestEnd p) s = .next
      (adminOk (goBrake (setSpn s p fun z => { z with testCmd := none, wantStop := true }) p) c.1 c.2 0) := by
  refine congrArg Host.Outcome.next ((if_pos h).trans ?_)
  simp only [hc]

/-! ### Roles and updates -/

/-- A hand-over that R393 allows, with none waiting, is noted with who asked for it and tried (R405). -/
theorem hoRequest_allowed (ha : hoAllowed s = true) (hw : s.prt.hoWait = false) (cmd : Option (Nat × Nat)) :
    hoRequest s cmd = hoTry (setPrt (hoResult s 0) fun y => { y with hoWait := true, hoCmd := cmd }) :=
  if_neg (by rw [ha, hw]; decide)

/-- Outside an update, with both devices on one image, the old copies are dropped and the floor is raised to the running
image (R405). -/
theorem updateConfirm_same (h : fbit s PRT_STAT PRT_STAT_UPDATING = false) (y c : Nat) :
    updateConfirm s y c true = adminOk (emit (fset (setFls s fun f => { f with oldCopies := false })
      PRT_FW_FLOOR PRT_FW_FLOOR_SVN_FLOOR (max (fget s PRT_FW_FLOOR PRT_FW_FLOOR_SVN_FLOOR) (fget s PRT_FW PRT_FW_SVN)))
      (.peer 26 [])) y c 0 :=
  if_neg (by rw [h]; decide)

/-! ### Memory codes -/

/-- Codes without a 3, and with region 0 STRONG, are stored in flash (R305). -/
theorem exec_memoryCodeStore_valid {r : BitVec 8} {b c : BitVec 32} (hp : portExists s (portId x) = true)
    (hr : (ctl s (portId x)).ready = true) (hm : claimed s baseMEP = false) (hf : claimed s baseFLS = false)
    (h4 : codesOk 4 r.toNat = true) (h0 : r.toNat % 4 = 0) (hb : codesOk 16 b.toNat = true)
    (hc : codesOk 16 c.toNat = true) :
    exec (.memoryCodeStore x cid r b c) s = .next (adminOk (programPages (setMem s fun y =>
      { y with codes := some (r.toNat, b.toNat, c.toNat) }) 2) (portId x) cid.toNat 0) := by
  refine exec_adminCmd rfl hp hr ((if_neg ?_).trans (if_neg ?_))
  · rw [hm, hf]; decide
  · rw [h4, h0, hb, hc]; decide

/-! ### Actuator calibration -/

/-- A calibration of an actuator's heads, or of one that it has, wakes the unit that the actuator belongs to (R362). -/
theorem exec_calibrateActuator_wakes {a : BitVec 6} {b : Bool} {j : BitVec 4} {u : Nat}
    (hp : portExists s (portId x) = true) (hr : (ctl s (portId x)).ready = true) (hc : claimed s baseBGW = false)
    (hne : headsOf s (a.toNat / 2) (a.toNat % 2) ≠ [])
    (hj : b = true → (headsOf s (a.toNat / 2) (a.toNat % 2)).contains j.toNat = true)
    (hu : actUnit (calPend s a.toNat (some (if b then some j.toNat else none, some (portId x, cid.toNat)))) a.toNat =
      some u) :
    exec (.calibrateActuator x cid a b j) s = .next (wakeDemand
      (calPend s a.toNat (some (if b then some j.toNat else none, some (portId x, cid.toNat)))) u) := by
  refine exec_adminCmd_unclaimed rfl hp hr hc ((if_neg ?_).trans ?_)
  · rintro (hnil | ⟨hb, hmiss⟩)
    · exact hne hnil
    · rw [hj hb] at hmiss
      exact Bool.false_ne_true hmiss
  · simp only [hu]

end Sys2Proof.Machine

open Sys2Proof Sys2Proof.Machine

/-- Settles O44: each command past the check of its block's claim, by the ranges of its fields. -/
theorem serviceCommands : Obligations.ServiceCommands := by
  unfold Obligations.ServiceCommands
  refine ⟨?located, ?notLocated, ?freeze, ?thaw, ?clear, ?chopperClear, ?chopperClaimed,
    fun x i p n s => exec_spindleServiceTest_stopped, fun p c s => exec_spindleTestEnd_asked,
    fun x i p q s => exec_spindleServiceCalibrate_pends, ?handover, ?confirm, ?retire, ?singleBit, ?uncorrectable,
    ?poison, fun x i r b c s => exec_memoryCodeStore_valid, fun x i a b j u s => exec_calibrateActuator_wakes⟩
  case located =>
    exact fun x i n b s hp hr hl => exec_adminCmd rfl hp hr (if_neg (not_not_intro hl))
  case notLocated => exact fun x i n b s hp hr hl => exec_adminCmd rfl hp hr (if_pos hl)
  case freeze | thaw | clear => exact fun x i r s hp hr => exec_adminCmd rfl hp hr rfl
  case chopperClear => exact fun x i p s hp hr hc => exec_adminCmd_unclaimed rfl hp hr hc rfl
  case chopperClaimed => exact fun x i p s hp hr hc => exec_adminCmd rfl hp hr (if_pos hc)
  case handover =>
    exact fun x i s hp hr hc ha hw => exec_adminCmd_unclaimed rfl hp hr hc (hoRequest_allowed ha hw _)
  case confirm => exact fun x i s hp hr h => exec_adminCmd rfl hp hr (updateConfirm_same h _ _)
  case retire =>
    exact fun x i g s hp hr hc hb => exec_adminCmd_unclaimed rfl hp hr hc (if_neg (ne_true_of_eq_false hb))
  case singleBit =>
    exact fun x i r s hp hr hc => congrArg Host.Outcome.next
      (memoryCheck_found hp hr hc (fun s => flipTest s r.toNat 1) fun s => if memCode s 0 r.toNat = 2 then 2 else 1)
  case uncorrectable =>
    exact fun x i r s hp hr hc => congrArg Host.Outcome.next
      (memoryCheck_found hp hr hc (fun s => flipTest s r.toNat 0x10001) fun _ => 2)
  case poison => exact fun x i r s hp hr hc => congrArg Host.Outcome.next (memoryCheck_run hp hr hc _)

end

section
/-! The zone manager's background and its registers: the journal, accumulators, rebuilds, relocation, and ZMP's windows
(R232, R241 to R252). -/
namespace Sys2Proof.Machine
open Sys2Proof

variable {s : State} {p : Fin 32} {t : Fin 4}

/-! ### The journal -/

/-- The oldest journal write of a ring ends: the zones and relocations that it wrote are recorded, and staged data whose zone
was written is released; or its entries move on to the next ring sector with an error (R232, R238, R244). -/
theorem exec_journalWriteDone_oldest {x : Nat × List Nat} (h : s.zmp.jrnBusy.find? (fun x => x.1 == p.val) = some x)
    (ok : Bool) : exec (.journalWriteDone p ok) s = .next (
      if ok then
        let u := forAll x.2 (journalTaken s x) fun s k => relocJournalled s p k
        if zoneKeys x.2 = [] then u else releaseMoved u (zoneKeys x.2)
      else evtSet (journalKeys (setZmp s fun z => { z with jrnBusy := z.jrnBusy.erase x }) p x.2) .zmp ZMP_EVT_JRN_ERR) := by
  show execJournalWriteDone p ok s = _
  simp only [execJournalWriteDone, h]

/-! ### Accumulators -/

/-- An engine that is free rebuilds a discarded accumulator from its row's written units, and the read is counted (R241). -/
theorem exec_accumulatorReadback_lost {u : BitVec 12} {z r : BitVec 32} {a : RowAcc} (hf : engineFree s t = true)
    (ha : s.zmp.accLost.find? (ofRow u.toNat z.toNat r.toNat) = some a) :
    exec (.accumulatorReadback t u z r) s = .next (evtSet (count (count (useAcc s (rowRead (thatchM s u.toNat) a))
      (THT_CNT t 4) 1 (.tht t) THT_EVT_SAT) (ZMP_CNT 5) 1 .zmp ZMP_EVT_SAT) (.tht t) THT_EVT_ACC_READBACK) := by
  show execAccumulatorReadback t u z r s = _
  simp only [execAccumulatorReadback, hf, ha, Bool.not_true, Bool.false_eq_true, if_false]

/-! ### Rebuild -/

section
variable (hb : fbit s (THT_RB_STAT t) THT_RB_STAT_BUSY = true)
include hb

/-- A rebuild whose target is no longer bound ends with result 4 (R243). -/
theorem exec_rebuildDone_unbound (hm : memberBound s (fget s (THT_RB_CTRL t) THT_RB_CTRL_UID)
    (fget s (THT_RB_CTRL t) THT_RB_CTRL_MEMBER) = false) (n : BitVec 31) :
    exec (.rebuildDone t n) s = .next (rebuildEnd s t 4) :=
  congrArg Host.Outcome.next ((if_neg (by rw [hb]; decide)).trans (if_pos (by rw [hm]; rfl)))

/-- A rebuild whose target is bound, with at most m members unavailable and the engine's domain on, is complete (R243). -/
theorem exec_rebuildDone_complete (hm : memberBound s (fget s (THT_RB_CTRL t) THT_RB_CTRL_UID)
      (fget s (THT_RB_CTRL t) THT_RB_CTRL_MEMBER) = true)
    (hk : (members s (fget s (THT_RB_CTRL t) THT_RB_CTRL_UID)).length -
      (available s (members s (fget s (THT_RB_CTRL t) THT_RB_CTRL_UID))).length ≤
        thatchM s (fget s (THT_RB_CTRL t) THT_RB_CTRL_UID)) (hd : domOn s (467 + t) = true) (n : BitVec 31) :
    exec (.rebuildDone t n) s = .next (rebuildEnd (count (count (wrN s (THT_RB_ZONE t) (rdN s (THT_RB_TOTAL t)))
      (THT_CNT t 5) (rdN s (THT_RB_TOTAL t)) (.tht t) THT_EVT_SAT) (THT_CNT t 3) n.toNat (.tht t) THT_EVT_SAT) t 0) :=
  congrArg Host.Outcome.next ((if_neg (by rw [hb]; decide)).trans ((if_neg (by rw [hm]; decide)).trans
    ((if_neg (Nat.not_lt.2 hk)).trans (if_neg (by rw [hd]; decide)))))

end

/-! ### Relocation -/

/-- The oldest reported unit of a mechanism goes to its surface's next spare unit, where there is one and relocation is
enabled (R244, R245). -/
theorem exec_relocation_oldest {r : RelocReq} (h : s.det.relocQ.find? (fun r => r.port == p.val) = some r) :
    exec (.relocation p) s = .next (
      let u := setDet s fun d => { d with relocQ := d.relocQ.erase r }
      (spareNext s r.port r.q).elim (relocFail u r) fun d =>
        if fbit s ZMP_CTRL ZMP_CTRL_RELOC_EN then relocStart u r d else relocFail u r) := by
  show execRelocation p s = _
  simp only [execRelocation, h]
  cases spareNext s r.port r.q <;> rfl

/-! ### Reads of ZMP_STAT -/

/-- PEAK of ZMP_STAT restarts at ACTIVE (R250). -/
theorem restartPeak_zmpStat (s : State) :
    restartPeak s ZMP_STAT = fset s ZMP_STAT ZMP_STAT_PEAK (fget s ZMP_STAT ZMP_STAT_ACTIVE) := by
  rw [restartPeak, if_neg (by decide), if_neg (by decide), if_pos (by decide)]
  rfl

end Sys2Proof.Machine

open Sys2Proof Sys2Proof.Machine

/-- Settles O32: the journal by the end of its write, a rebuild by its target, a relocation by the spare unit that it finds. -/
theorem zoneCommands : Obligations.ZoneCommands := by
  unfold Obligations.ZoneCommands
  refine ⟨fun n z s h => congrArg Host.Outcome.next (if_pos h), ?writeFailed, ?zonesWritten, ?noZoneWritten,
    fun t u z r a s => exec_accumulatorReadback_lost, ?rebuildStarts, ?rebuildStops,
    fun t n s hb hm => exec_rebuildDone_unbound hb hm n,
    fun t n s hb hm hk hd => exec_rebuildDone_complete hb hm hk hd n, ?moved, ?disabled, ?noSpare,
    fun m n s hr hl => exec_regWrite rfl hr (if_neg hl), fun m i s hr => exec_regWrite rfl hr rfl, ?statRead⟩
  case writeFailed => exact fun p x s h => by rw [exec_journalWriteDone_oldest h, if_neg Bool.false_ne_true]
  case zonesWritten => exact fun p x s h hk => by simp only [exec_journalWriteDone_oldest h, if_true, if_neg hk]
  case noZoneWritten => exact fun p x s h hk => by simp only [exec_journalWriteDone_oldest h, if_true, if_pos hk]
  case rebuildStarts => exact fun m t i u s hr hb => exec_regWrite rfl hr (if_neg (ne_true_of_eq_false hb))
  case rebuildStops => exact fun m t s hr hb => exec_regWrite rfl hr (if_pos hb)
  case moved => exact fun p r d s h he hs => by rw [exec_relocation_oldest h, hs, Option.elim_some, if_pos he]
  case disabled =>
    exact fun p r d s h he hs => by rw [exec_relocation_oldest h, hs, Option.elim_some, if_neg (ne_true_of_eq_false he)]
  case noSpare => exact fun p r s h hs => by rw [exec_relocation_oldest h, hs, Option.elim_none]
  case statRead =>
    intro m s hu
    refine congrArg Host.Outcome.next ((regRead_answers ?_ hu (mbxMayRead_past ?_ s m)).trans ?_)
    · decide
    · decide
    · rw [restartPeak_zmpStat]

end

section
/-! Zone management: the zone states that a Zone Management Send leads to, Report Zones, and opcodes that do not exist (R231,
R260, R269). -/
namespace Sys2Proof.Machine
open Sys2Proof

variable {s : State} {x : HPort} {q i : BitVec 16} {c : Cmd}

/-! ### Zone Management Send -/

/-- A zone action on one zone, whose LBA starts a zone of a zoned namespace and which no earlier command of the zone holds back:
the command goes on from the state that the action leads to (R269). -/
theorem exec_zms_oneZone {e : Instr} {k : Nat} {l : List Nat} {f : State → Nat → Nat → State ⊕ (Nat × Nat)} {t : State}
    (h : exec e s = .next (runZms s x q i k l f)) (hd : Due s x q i 0x79 c = true)
    (hc : findCmd s (portId x) q.toNat i.toNat = some c) (hk : c.zsa = k) (hz : nsZoned s c.nsid = true)
    (hall : c.all = false) (hlba : c.slba < nsLbas s c.nsid) (hstart : c.slba % nsZl s c.nsid = 0)
    (hheld : zmsHeld s c (cmdZone s c) = false) (hf : f s c.nsid (cmdZone s c) = .inl t) :
    exec e s = .next (setCmd t c fun d => { d with started := true, xfer := true }) := by
  rw [h, runZms]
  simp only [hc, hk, runCmd_due hd, hz, hall, Nat.not_le.2 hlba, hstart, hheld, hf, ne_eq, not_true_eq_false,
    Bool.not_true, Bool.false_eq_true, if_false]

/-- A zone already in the state asked for takes no context. -/
theorem openZone_same {n z st : Nat} (h : (getZone s n z).zstate = st) : openZone s n z st = some s := if_pos (.inl h)

/-- Open leaves an Explicitly Opened zone of a unit that is not RETIRED as it is (R231). -/
theorem zmsOpen_opened {n z : Nat} (h3 : (getZone s n z).zstate = 3) (hu : (nsUnit s n).map (uState s) ≠ some 6) :
    zmsOpen s n z = .inl s := by
  refine (if_neg ?_).trans ((if_neg ?_).trans ?_)
  · rw [h3]
    exact fun h => h.elim hu (by decide)
  · rw [h3]
    decide
  · rw [openZone_same h3]

theorem exec_zmsSetZoneDescExt_fails (hc : findCmd s (portId x) q.toNat i.toNat = some c) (ho : c.opc = 0x79)
    (hk : c.zsa = 0x10) (hs : c.started = false) : exec (.zmsSetZoneDescExt x q i) s = .next (failCmd s c 0 0x02) := by
  show execZmsSetZoneDescExt x q i s = _
  simp only [execZmsSetZoneDescExt, hc, ho, hk, hs, Bool.not_false, and_self, if_true]

/-! ### Zone Management Receive -/

theorem exec_zmrExtendedReportZones_fails (hc : findCmd s (portId x) q.toNat i.toNat = some c) (ho : c.opc = 0x7A)
    (hk : c.zsa = 1) (hs : c.started = false) : exec (.zmrExtendedReportZones x q i) s = .next (failCmd s c 0 0x02) := by
  show execZmrExtendedReportZones x q i s = _
  simp only [execZmrExtendedReportZones, hc, ho, hk, hs, Bool.not_false, and_self, if_true]

/-- Report Zones that is due transfers the report of a zoned namespace from an LBA that it has (R260). -/
theorem exec_zmrReportZones_due (hd : Due s x q i 0x7A c = true) (hk : c.zsa = 0) (hz : nsZoned s c.nsid = true)
    (hlba : c.slba < nsLbas s c.nsid) (o : BitVec 8) : exec (.zmrReportZones x q i o) s = .next
      (setCmd (emit s (.hostData c.port c.cid (zoneReport s c o.toNat))) c fun d =>
        { d with started := true, xfer := true }) := by
  refine congrArg Host.Outcome.next ((runCmd_due hd _).trans ?_)
  exact (if_neg (not_not_intro hk)).trans ((if_neg (by rw [hz]; decide)).trans (if_neg (Nat.not_le.2 hlba)))

/-! ### Opcodes that do not exist -/

/-- An admin opcode other than Get Log Page that no table lists is refused (R260). -/
theorem exec_invalidOpcode_unlisted {o : BitVec 8} (hp : portExists s (portId x) = true)
    (hr : (ctl s (portId x)).ready = true) (h2 : o ≠ 0x02) (ho : adminOpcodes.contains o.toNat = false) (l : BitVec 8) :
    exec (.invalidOpcode x 0 i o l) s = .next (adminEnd s (portId x) i.toNat 0 0x01) :=
  exec_adminCmd (congrArg Host.Outcome.next (if_pos rfl)) hp hr
    ((if_neg fun h => h2 h.1).trans (if_neg (ne_true_of_eq_false ho)))

end Sys2Proof.Machine

open Sys2Proof Sys2Proof.Machine

/-- Settles O36: each zone action by the state of its zone, a report and an opcode by the checks ahead of it. -/
theorem zoneManagement : Obligations.ZoneManagement := by
  unfold Obligations.ZoneManagement
  refine ⟨?opens, ?closes, ?finishes, ?resets, ?offlines, fun x q i c s => exec_zmsSetZoneDescExt_fails,
    fun x q i c s => exec_zmrExtendedReportZones_fails,
    fun x q i o c s hd hk hz hlba => exec_zmrReportZones_due hd hk hz hlba o,
    fun x i o l s hp hr h2 ho => exec_invalidOpcode_unlisted hp hr h2 ho l⟩
  case opens =>
    exact fun x q i c s hd hc hk hz hall hlba hstart hheld hst =>
      exec_zms_oneZone rfl hd hc hk hz hall hlba hstart hheld (zmsOpen_opened hst.1 hst.2)
  case closes =>
    exact fun x q i c s hd hc hk hz hall hlba hstart hheld hst =>
      exec_zms_oneZone rfl hd hc hk hz hall hlba hstart hheld (if_pos hst)
  case finishes | resets | offlines =>
    exact fun x q i c s hd hc hk hz hall hlba hstart hheld hst =>
      exec_zms_oneZone rfl hd hc hk hz hall hlba hstart hheld (if_pos (by rw [hst]; rfl))

end

section
/-! Background tasks: their credits, an actuator's boundaries and slots, the pause of fetching, and their units of work (R237,
R238, R344 to R349, R436). -/
namespace Sys2Proof.Machine
open Sys2Proof

variable {s : State}

/-! ### Turns -/

/-- Idle revolutions that are due after the actuator's tasks have stopped come before the item of its boundary (R347, R354). -/
theorem exec_actuatorCommandBoundary {a : Fin 64} {c : BitVec 32} {d : BitVec 8} {r : State × Bool}
    (h : idleRevs (foreground (urgentWake (actStop s a) a) a c.toNat) a d.toNat = r) (b : Bool) :
    exec (.actuatorCommandBoundary a b c d) s = .next (if r.2 then r.1 else boundaryItem r.1 a b) := by
  rw [← h]
  rfl

/-! ### Fetch pauses -/

theorem exec_fetchPause_exists {x : HPort} (hp : portExists s (portId x) = true) :
    exec (.fetchPause x) s = .next (heatPause (sharePause s (portId x)) (portId x)) :=
  congrArg Host.Outcome.next (if_pos hp)

/-- An URGENT non-media task takes its share of fetching while sharing is enabled (R349). -/
theorem sharePause_urgent (hu : nonMediaUrgent s = true) (he : fbit s BGW_CTRL BGW_CTRL_SHARE_EN = true) (y : Nat) :
    sharePause s y = emit (count s (BGW_CNT 3) 1 .bgw BGW_EVT_SAT)
      (.fetchPause y (max 1 (fget s BGW_CTRL BGW_CTRL_FP_US))) := if_pos (by rw [hu, he]; rfl)

theorem sharePause_none (hu : nonMediaUrgent s = false) (y : Nat) : sharePause s y = s :=
  if_neg (by rw [hu]; exact Bool.false_ne_true)

/-! ### Units of work -/

section
variable {p : Fin 32}

/-- Outside SAFE the mover writes home the staged extents of one MiB whose tracks can be written (R238). -/
theorem exec_taskUnitMove_runs (hr : taskRuns s (128 + p.val) = true) (hm : fbit s ZMP_CTRL ZMP_CTRL_MOVER_EN = true)
    (hs : inSafe s = false) : exec (.taskUnitMove p true) s = .next (
      let u := releaseMoved s []
      unitEnd (forAll ((firstMib (fun x : Staged => x.ext.count) (stagedFor u p) 0).filter fun x => homeWritable u x.ext)
        u moveHome) (128 + p.val) true) := by
  have hrun : ¬(!taskRuns s (128 + p.val) || !fbit s ZMP_CTRL ZMP_CTRL_MOVER_EN) = true := by rw [hr, hm]; decide
  exact congrArg Host.Outcome.next ((if_neg hrun).trans (if_neg (by rw [hs]; decide)))

/-- A unit of DESTAGE takes one MiB of dirty data, or fails (R237). -/
theorem exec_taskUnitDestage_runs (hr : taskRuns s (160 + p.val) = true) (ok : Bool) :
    exec (.taskUnitDestage p ok) s = .next (if !ok then unitEnd s (160 + p.val) false else
      unitEnd (forAll (firstMib (fun e : Ext => e.count) (dirtyOn s p) 0) s destage) (160 + p.val) true) := by
  have hrun : ¬(!taskRuns s (160 + p.val)) = true := by rw [hr]; decide
  exact congrArg Host.Outcome.next (if_neg hrun)

/-- A unit of WEAR takes the head whose place in the pass it has reached (R344). -/
theorem exec_taskUnitWear_runs {q : Nat} (hr : taskRuns s (192 + p.val) = true)
    (hq : ((surfHeads s p).map (·.1)).getD
      (fget s (BGW_TASK_PROG (192 + p.val)) BGW_TASK_PROG_UNITS % max 1 ((surfHeads s p).map (·.1)).length) 0 = q) :
    exec (.taskUnitWear p) s = .next (unitEnd (headWear (wearUpdate s p q) (2 * p + q / 12)) (192 + p.val) true) := by
  have hrun : ¬(!taskRuns s (192 + p.val)) = true := by rw [hr]; decide
  rw [← hq]
  exact congrArg Host.Outcome.next (if_neg hrun)

end

/-- A unit of TELEM reads the status of the front-end whose place in the pass it has reached, where the sideband is usable, not
claimed and not asked for that already (R344). -/
theorem exec_taskUnitTelem_reads {p : Nat} (hr : coreTask s 226 = true)
    (hp : s.trs.bound.getD (fget s (BGW_TASK_PROG 226) BGW_TASK_PROG_UNITS % max 1 s.trs.bound.length) 0 = p)
    (hu : sbUsable s p = true) (hc : claimed s (baseTTH p) = false) (hq : tsbHas s p 10 = false) :
    exec .taskUnitTelem s = .next (unitEnd (tsbRead s p 10 0x0220 4) 226 true) := by
  subst hp
  refine congrArg Host.Outcome.next ((if_pos hr).trans ?_)
  exact congrArg (unitEnd · 226 true) (if_pos (by rw [hu, hc, hq]; rfl))

end Sys2Proof.Machine

open Sys2Proof Sys2Proof.Machine

/-- Settles O50: credits by the seconds passed, a boundary by the idle revolutions due, a unit by whether its task runs. -/
theorem taskTurns : Obligations.TaskTurns := by
  unfold Obligations.TaskTurns
  refine ⟨fun s h => congrArg Host.Outcome.next (if_neg h), fun s h => congrArg Host.Outcome.next (if_pos h), ?itemTaken,
    ?idleFirst, fun a d s h => congrArg Host.Outcome.next (if_pos h), ?shared, ?unshared,
    fun a b s h => congrArg Host.Outcome.next (if_pos h), fun p s => exec_taskUnitMove_runs, ?destaged, ?destageFailed,
    fun p q s => exec_taskUnitWear_runs, fun l s h => congrArg Host.Outcome.next (if_pos h),
    fun a b s h => congrArg Host.Outcome.next (if_pos h), fun p s => exec_taskUnitTelem_reads⟩
  case itemTaken =>
    exact fun a b c d r s h h2 => (exec_actuatorCommandBoundary h b).trans (congrArg _ (if_neg (ne_true_of_eq_false h2)))
  case idleFirst => exact fun a b c d r s h h2 => (exec_actuatorCommandBoundary h b).trans (congrArg _ (if_pos h2))
  case shared => exact fun x s hp hu he => by rw [exec_fetchPause_exists hp, sharePause_urgent hu he]
  case unshared => exact fun x s hp hu => by rw [exec_fetchPause_exists hp, sharePause_none hu]
  case destaged => exact fun p s hr => exec_taskUnitDestage_runs hr true
  case destageFailed => exact fun p s hr => exec_taskUnitDestage_runs hr false

end

section
/-! The host ports: PERST, the link, and what resets and enables a controller (R253, R258, R339). -/
open Sys2Proof Sys2Proof.Machine

/-- Settles O33: each command by whether its port exists and is in the state that the command changes. -/
theorem hostLinks : Obligations.HostLinks := by
  unfold Obligations.HostLinks
  refine ⟨fun x s => rfl, ?perstEnds, ?linkUp, ?linkDown, ?functionReset, ?disable, ?enable⟩
  case perstEnds | linkDown | functionReset | disable => exact fun x s h => congrArg Host.Outcome.next (if_pos h)
  case linkUp =>
    intro x v n s hv hv' hn hn' hp hperst
    refine congrArg Host.Outcome.next (if_pos ?_)
    have hmax : n.toNat ≤ if fbit s HIF_MODE HIF_MODE_BIFUR then 8 else 16 := by split <;> omega
    rw [decide_eq_true ⟨hv, hv', hn, hmax⟩, hp, hperst]
    rfl
  case enable =>
    exact fun x s hp hl he => congrArg Host.Outcome.next (if_pos (by rw [hp, hl, he]; rfl))

end

section
/-! Reads, writes and flushes that are due: what a write or a read that begins comes to (R265, R267, R268). -/
namespace Sys2Proof.Machine
open Sys2Proof

variable {s : State} {c : Cmd}

/-- An I/O command that is due does its work. -/
theorem exec_runCmd {e : Instr} {x : HPort} {q i : BitVec 16} {k : Nat} {f : State → Cmd → State} {t : State}
    (h : exec e s = .next (runCmd s x q i k f)) (hd : Due s x q i k c = true) (hf : f s c = t) : exec e s = .next t := by
  rw [h, runCmd_due hd, hf]

/-! ### Writes -/

theorem beginWrite_refused {f : Nat × Nat} (h : writeRefuses s c = some f) : beginWrite s c = failWrite s c f := by
  simp only [beginWrite, h]

/-- A write to a namespace without zones starts. -/
theorem beginWrite_unzoned (h : writeRefuses s c = none) (hz : nsZoned s c.nsid = false) :
    beginWrite s c = setCmd s c fun d => { d with started := true } := by
  simp only [beginWrite, h, hz, Bool.false_eq_true, if_false]

/-- A write to a zone that is Implicitly Opened starts and leaves the zone as it is (R231). -/
theorem beginWrite_opened (h : writeRefuses s c = none) (hz : nsZoned s c.nsid = true)
    (ho : (getZone s c.nsid (cmdZone s c)).zstate = 2) :
    beginWrite s c = setCmd s c fun d => { d with started := true } := by
  simp only [beginWrite, h, hz, if_true, openZone_same ho]

/-! ### Reads -/

/-- The state in which a read finds its lines: memory errors and the poison of the cache met (R288, R292). -/
def linesFound (errs : List MemErr) (s : State) (c : Cmd) : State :=
  forAll (rangeFrom 0 c.len) (foundErrors s errs) fun s i => cachePoison s c.nsid (c.slba + i)

theorem beginRead_refused {f : Nat × Nat} (h : rangeRefuses s c = some f) (errs : List MemErr) :
    beginRead errs s c = failCmd s c f.1 f.2 := by
  simp only [beginRead, h]

/-- A read of a namespace without zones, with no earlier write over its range, whose media are ready ends with its data. -/
theorem beginRead_ready {errs : List MemErr} (h : rangeRefuses s c = none) (hz : nsZoned s c.nsid = false)
    (ho : overlapsEarlier s c = false)
    (hm : (rangeFrom 0 c.len).all (fun i => !fromMedia (linesFound errs s c) c i || mediaReady (linesFound errs s c) c i) =
      true) : beginRead errs s c = readData (linesFound errs s c) c := by
  unfold linesFound at hm ⊢
  simp only [beginRead, h, hz, ho, hm, Bool.false_eq_true, false_and, if_false, if_true]

end Sys2Proof.Machine

open Sys2Proof Sys2Proof.Machine

/-- Settles O35: a write by what refuses it and by its zone, a read by its range and its media. -/
theorem ioReadsAndWrites : Obligations.IoReadsAndWrites := by
  unfold Obligations.IoReadsAndWrites
  refine ⟨?write, ?writeZone, ?writeRefused, ?zeroes, ?append, ?read, ?verify, ?readRefused, ?flush⟩
  case write | zeroes => exact fun x q i c s hd hr hz => exec_runCmd rfl hd (beginWrite_unzoned hr hz)
  case writeZone | append => exact fun x q i c s hd hr hz ho => exec_runCmd rfl hd (beginWrite_opened hr hz ho)
  case writeRefused => exact fun x q i c f s hd hr => exec_runCmd rfl hd (beginWrite_refused hr)
  case read | verify => exact fun x q i l c s hd hr hz ho hm => exec_runCmd rfl hd (beginRead_ready hr hz ho hm)
  case readRefused => exact fun x q i l c f s hd hr => exec_runCmd rfl hd (beginRead_refused hr l)
  case flush => exact fun x q i c s hd => exec_runCmd rfl hd rfl

end

section
/-! Queues, Identify, Abort, Asynchronous Event Request and Keep Alive of a ready controller (R259, R260, R262, R270, R422). -/
namespace Sys2Proof.Machine
open Sys2Proof

variable {s : State} {x : HPort} {i : BitVec 16} (hp : portExists s (portId x) = true)
  (hr : (ctl s (portId x)).ready = true)
include hp hr

/-! ### Queues -/

section
variable {q n : BitVec 16}

/-- A submission queue with a free and valid identifier, of a completion queue that exists (R262). -/
theorem exec_createIoSq_free {c : BitVec 16} (hq : qidOk q.toNat = true)
    (hfree : (ctl s (portId x)).sqs.any (fun y => y.1 == q.toNat) = false) (hn : n ≠ 0)
    (hc : (ctl s (portId x)).cqs.any (fun y => y.1 == c.toNat) = true) (p : BitVec 2) :
    exec (.createIoSq x i q n c p true) s = .next (adminOk (syncQueues (setCtl s (portId x) fun k =>
      { k with sqs := tabPut k.sqs q.toNat ⟨n.toNat + 1, c.toNat, 0, 0, p.toNat⟩ }) (portId x)) (portId x) i.toNat 0) := by
  refine exec_adminCmd rfl hp hr ?_
  simp only [hq, hfree, hc, if_neg hn, Bool.not_true, Bool.or_self, Bool.false_eq_true, if_false]

theorem exec_createIoSq_inUse (huse : (ctl s (portId x)).sqs.any (fun y => y.1 == q.toNat) = true) (c : BitVec 16)
    (p : BitVec 2) (b : Bool) : exec (.createIoSq x i q n c p b) s = .next (adminEnd s (portId x) i.toNat 1 0x01) :=
  exec_adminCmd rfl hp hr (if_pos (by rw [huse, Bool.or_true]))

/-- A completion queue with a free and valid identifier and a vector below 2,048 (R262). -/
theorem exec_createIoCq_free {v : BitVec 16} (hq : qidOk q.toNat = true)
    (hfree : (ctl s (portId x)).cqs.any (fun y => y.1 == q.toNat) = false) (hn : n ≠ 0) (hv : v.toNat < 2048) (e : Bool) :
    exec (.createIoCq x i q n v e true) s = .next (adminOk (syncQueues (setCtl s (portId x) fun k =>
      { k with cqs := tabPut k.cqs q.toNat ⟨n.toNat + 1, 0, 0, v.toNat, e⟩ }) (portId x)) (portId x) i.toNat 0) := by
  refine exec_adminCmd rfl hp hr ?_
  simp only [hq, hfree, if_neg hn, if_neg (Nat.not_le.2 hv), Bool.not_true, Bool.or_self, Bool.false_eq_true, if_false]

/-- A completion queue that no submission queue uses (R262). -/
theorem exec_deleteIoCq_unused (hq : (ctl s (portId x)).cqs.any (fun y => y.1 == q.toNat) = true)
    (hu : (ctl s (portId x)).sqs.any (fun y => y.2.cq == q.toNat) = false) :
    exec (.deleteIoCq x i q) s = .next (adminOk (syncQueues (setCtl s (portId x) fun c =>
      { c with cqs := tabDel c.cqs q.toNat }) (portId x)) (portId x) i.toNat 0) :=
  exec_adminCmd rfl hp hr ((if_neg (by rw [hq]; decide)).trans (if_neg (ne_true_of_eq_false hu)))

end

/-! ### Abort -/

section
variable {q j : BitVec 16} {n : BitVec 4} (hn : n.toNat < 8) (hq : q ≠ 0)
include hn hq

/-- An Abort within the limit that finds no command answers 1 and is counted (R270). -/
theorem exec_abort_notFound (h : findCmd s (portId x) q.toNat j.toNat = none) : exec (.abort x i q j n) s = .next
    (adminOk (count s (HIF_PORT_CNT (portId x) 2) 1 .hif HIF_EVT_SAT) (portId x) i.toNat 1) := by
  refine exec_adminCmd rfl hp hr ((if_neg (Nat.not_le.2 hn)).trans ((if_neg hq).trans ?_))
  simp only [h]

/-- One that finds a command which has not failed aborts it, and answers 0 (R270). -/
theorem exec_abort_found {c : Cmd} (h : findCmd s (portId x) q.toNat j.toNat = some c) (hf : c.fail = none) :
    exec (.abort x i q j n) s = .next (adminOk
      (count (failCmd s c 0 0x07) (HIF_PORT_CNT (portId x) 1) 1 .hif HIF_EVT_SAT) (portId x) i.toNat 0) := by
  refine exec_adminCmd rfl hp hr ((if_neg (Nat.not_le.2 hn)).trans ((if_neg hq).trans ?_))
  simp only [h, hf, Option.isSome_none, Bool.false_eq_true, if_false]

end

/-! ### Asynchronous Event Request -/

/-- With no event held for the port, and fewer than 16 requests, the request waits (R422). -/
theorem exec_asyncEventRequest_waits
    (h : s.evt.held.find? (fun r => r.1 == portId x && (r.2.1 != 7 || fbit s EVT_CTRL EVT_CTRL_EN)) = none)
    (hl : (s.evt.aers.filter fun r => r.1 == portId x).length < 16) : exec (.asyncEventRequest x i) s =
      .next { s with evt := { s.evt with aers := s.evt.aers ++ [(portId x, i.toNat)] } } := by
  refine exec_adminCmd rfl hp hr ?_
  simp only [h, if_neg (Nat.not_le.2 hl)]

/-- The first event held for the port ends the request, and is held no more (R422). -/
theorem exec_asyncEventRequest_taken {r : Nat × Nat × Nat × Nat}
    (h : s.evt.held.find? (fun r => r.1 == portId x && (r.2.1 != 7 || fbit s EVT_CTRL EVT_CTRL_EN)) = some r) :
    exec (.asyncEventRequest x i) s = .next (emit { s with evt := { s.evt with held := s.evt.held.erase r } }
      (.aer (portId x) i.toNat r.2.1 r.2.2.1 r.2.2.2)) := by
  refine exec_adminCmd rfl hp hr ?_
  simp only [h]

end Sys2Proof.Machine

open Sys2Proof Sys2Proof.Machine

/-- Settles O37: a queue by its identifier, an Abort by the command it finds, an event request by the events that wait. -/
theorem queueCommands : Obligations.QueueCommands := by
  unfold Obligations.QueueCommands
  refine ⟨fun x i q n c p s hp hr hq hf hn hc => exec_createIoSq_free hp hr hq hf hn hc p,
    fun x i q n c p b s hp hr h => exec_createIoSq_inUse hp hr h c p b, ?sqDeleted,
    fun x i q n v e s hp hr hq hf hn hv => exec_createIoCq_free hp hr hq hf hn hv e,
    fun x i q s hp hr hq hu => exec_deleteIoCq_unused hp hr hq hu, ?controller, ?notAttached,
    fun x i q j n s hp hr hn hq => exec_abort_notFound hp hr hn hq,
    fun x i q j n c s hp hr hn hq => exec_abort_found hp hr hn hq,
    fun x i s => exec_asyncEventRequest_waits, fun x i r s hp hr h => exec_asyncEventRequest_taken hp hr h, ?keepAlive⟩
  case sqDeleted => exact fun x i q s hp hr h => exec_adminCmd rfl hp hr (if_neg (by rw [h]; decide))
  case controller => exact fun x i n s hp hr => exec_adminCmd rfl hp hr rfl
  case notAttached =>
    exact fun x i n s hp hr h => exec_adminCmd rfl hp hr (if_neg (ne_true_of_eq_false h))
  case keepAlive => exact fun x i s hp hr => exec_adminCmd rfl hp hr rfl

end

section
/-! Standard features, power states, firmware and self-tests (R260, R277, R278, R359, R360, R399, R402). -/
namespace Sys2Proof.Machine
open Sys2Proof

variable {s : State} {x : HPort} {i : BitVec 16}

/-- Get Features of a ready controller answers the feature's value. -/
theorem exec_getFeat {c : Instr} {f : State → Nat → Nat → State} {t : State} (h : exec c s = .next (getFeat s x i f))
    (hp : portExists s (portId x) = true) (hr : (ctl s (portId x)).ready = true) (hf : f s (portId x) i.toNat = t) :
    exec c s = .next t := exec_adminCmd h hp hr hf

/-! ### Standard features -/

section
variable {fid : BitVec 8} (hown : ownFeatures.contains fid.toNat = false) (hplain : plainFeatures.contains fid.toNat = true)
include hown hplain

theorem exec_setFeatures_plain (h0 : fid ≠ 0xD0) (h5 : fid ≠ 0xD5) (d : Word) (b : Bool) :
    exec (.setFeatures x i fid d b) s = .next (setFeat s x i b (setPlain fid.toNat d)) :=
  congrArg Host.Outcome.next ((if_neg fun h => h.1.elim h0 h5).trans ((if_neg (ne_true_of_eq_false hown)).trans
    (if_pos hplain)))

/-- A standard feature other than Number of Queues and Interrupt Vector Configuration answers what is stored of it. -/
theorem exec_getFeatures_stored (h7 : fid ≠ 0x07) (h9 : fid ≠ 0x09) (d : Word) (hp : portExists s (portId x) = true)
    (hr : (ctl s (portId x)).ready = true) : exec (.getFeatures x i fid d) s =
      .next (featValue s (portId x) i.toNat (tabGet 0 (ctl s (portId x)).feats (featKey fid.toNat d)) 0) := by
  refine exec_getFeat (congrArg Host.Outcome.next (if_neg (ne_true_of_eq_false hown))) hp hr ?_
  simp only [hplain, h7, h9, Bool.not_true, Bool.false_eq_true, if_false]

end

/-- A standard feature that changes nothing else is stored (R260). -/
theorem setPlain_stored {fid : Nat} (h7 : fid ≠ 0x07) (h9 : fid ≠ 0x09) (hF : fid ≠ 0x0F) (d : Word) (y c : Nat) :
    setPlain fid d s y c = adminOk (setCtl s y fun k =>
      { k with feats := tabPut k.feats (featKey fid d) (featData fid d) }) y c 0 := by
  simp only [setPlain, h7, h9, hF, false_and, if_false]

/-! ### Power states -/

/-- A request for a power state with none ahead of it takes effect at once (R278). -/
theorem setPM_first {d : Word} {y : Nat} (hd : getF d ⟨0, 5⟩ ≤ 4) (hw : (ctl s y).pmWait = []) (c : Nat) :
    setPM d s y c = psUpdate (fset (setCtl s y fun k => { k with pmWait := [(c, getF d ⟨0, 5⟩)] }) (HIF_PORT_STAT y)
      HIF_PORT_STAT_PS_REQ (getF d ⟨0, 5⟩)) :=
  (if_neg (Nat.not_lt.2 hd)).trans (if_neg (by rw [hw]; decide))

/-- Below power state 3, with a port up and outside SAFE, the entry that runs is done (R278). -/
theorem exec_powerStateEntryDone_shallow (he : fbit s HIF_PWR HIF_PWR_ENTERING = true) (hs : inSafe s = false)
    (hb : bothDown s = false) (ht : psTarget s < 3) (b : Bool) : exec (.powerStateEntryDone b) s = .next (psEnter s) := by
  refine congrArg Host.Outcome.next ((if_neg ?_).trans ((if_neg ?_).trans (if_neg fun h => Nat.not_le.2 ht h.1)))
  · rw [he, hs]; decide
  · rw [hb]; exact fun h => Bool.false_ne_true h.1

/-- D3hot of one port while the other is up (R278). -/
theorem exec_d3hotEntry_otherUp (hp : portExists s (portId x) = true) (hd : (ctl s (portId x)).d3hot = false)
    (hl : fbit s (HIF_PORT_STAT (portId x)) HIF_PORT_STAT_LINK_UP = true)
    (hb : bothDown (psUpdate (setCtl s (portId x) fun c => { c with d3hot := true })) = false) :
    exec (.d3hotEntry x) s = .next (psUpdate (setCtl s (portId x) fun c => { c with d3hot := true })) := by
  refine congrArg Host.Outcome.next ((if_neg ?_).trans (if_neg ?_))
  · rw [hp, hd, hl]; decide
  · rw [hb]; exact fun h => Bool.false_ne_true h.1

/-- D3hot left: in the ACTIVE role the tokens that are not held are wanted again (R278). -/
theorem exec_d3hotExit_leaves (hd : (ctl s (portId x)).d3hot = true) : exec (.d3hotExit x) s = .next (
    let u := psUpdate (setCtl s (portId x) fun c => { c with d3hot := false })
    if isActiveRole u then
      forAll (rangeFrom 0 32) u fun s p => if isBound s p && sbUsable s p && !tokenMine s p then wantToken s p else s
    else u) :=
  congrArg Host.Outcome.next (if_neg (by rw [hd]; decide))

/-! ### Firmware -/

/-- A download past offset 0 that fits is placed beside what the staging area holds (R399). -/
theorem exec_fwImageDownload_append {n o : BitVec 32} (hp : portExists s (portId x) = true)
    (hr : (ctl s (portId x)).ready = true) (ho : o ≠ 0) (hfit : o.toNat + (n.toNat + 1) ≤ 3145728) (d : List Word) :
    exec (.fwImageDownload x i n o d) s = .next (adminOk (setPrt s fun y => { y with
      stage := ((rangeFrom o.toNat (n.toNat + 1)).zip d).foldl (fun t d => tabPut t d.1 d.2.toNat) s.prt.stage
      stageLen := max y.stageLen (4 * (o.toNat + (n.toNat + 1))) }) (portId x) i.toNat 0) := by
  refine exec_adminCmd rfl hp hr ?_
  simp only [if_neg (Nat.not_lt.2 hfit), if_neg ho]

/-- Commit action 2 makes the other image the next one to boot, claims or none (R399). -/
theorem fwCommit_flip (y c fs : Nat) :
    fwCommit s y c 2 fs = adminOk (setFls s fun k => { k with flipNext := true }) y c 0 :=
  if_neg fun h => by simp at h

/-! ### Self-tests -/

theorem testStart_idle (h : s.host.selfTest.kind = 0) (y c k : Nat) : testStart s y c k =
    testStep (fset (setTest s fun t => { t with kind := k, abort := false, failed := 0, cmd := some (y, c) })
      BGW_DST BGW_DST_OP k) 1 := if_neg (not_not_intro h)

/-- A second self-test is refused while one runs (R360). -/
theorem testStart_running (h : s.host.selfTest.kind ≠ 0) (y c k : Nat) : testStart s y c k = adminEnd s y c 1 0x1D :=
  if_pos h

end Sys2Proof.Machine

open Sys2Proof Sys2Proof.Machine

/-- Settles O38: features by the kind of the feature, power states by the ports, an update and a self-test by their step. -/
theorem powerStatesAndFirmware : Obligations.PowerStatesAndFirmware := by
  unfold Obligations.PowerStatesAndFirmware
  refine ⟨?featureSet, ?saveRefused, ?featureRead, ?powerSet, ?powerRead, ?entryDone,
    fun x s => exec_d3hotEntry_otherUp, ?d3hotLeft, ?d3hotLeftActive,
    fun x i n o d s hp hr ho hfit => exec_fwImageDownload_append hp hr ho hfit d, ?commit0, ?commit1, ?commit3, ?commit2,
    ?update, ?short, ?extended, ?running, ?abort, ?stepDone⟩
  case featureSet =>
    exact fun x i d s hp hr => exec_setFeat (exec_setFeatures_plain (by decide) (by decide) (by decide) (by decide) d false)
      hp hr (setPlain_stored (by decide) (by decide) (by decide) d _ _)
  case saveRefused =>
    exact fun x i d s hp hr =>
      exec_adminCmd (exec_setFeatures_plain (by decide) (by decide) (by decide) (by decide) d true) hp hr rfl
  case featureRead =>
    exact fun x i d s hp hr => exec_getFeatures_stored (by decide) (by decide) (by decide) (by decide) d hp hr
  case powerSet => exact fun x i d s hp hr hd hw => exec_setFeat rfl hp hr (setPM_first hd hw _)
  case powerRead => exact fun x i s hp hr => exec_getFeat rfl hp hr rfl
  case entryDone => exact fun b s he hs hb ht => exec_powerStateEntryDone_shallow he hs hb ht b
  case d3hotLeft =>
    exact fun x s hd ha => (exec_d3hotExit_leaves hd).trans (congrArg _ (if_neg (ne_true_of_eq_false ha)))
  case d3hotLeftActive => exact fun x s hd ha => (exec_d3hotExit_leaves hd).trans (congrArg _ (if_pos ha))
  case commit0 | commit1 | commit3 => exact fun x i f s hp hr => exec_adminCmd rfl hp hr rfl
  case commit2 => exact fun x i f s hp hr => exec_adminCmd rfl hp hr (fwCommit_flip _ _ _)
  case update => exact fun b s h0 h8 => congrArg Host.Outcome.next ((if_neg h0).trans (if_neg h8))
  case short | extended => exact fun x i n s hp hr h => exec_adminCmd rfl hp hr (testStart_idle h _ _ _)
  case running => exact fun x i n s hp hr h => exec_adminCmd rfl hp hr (testStart_running h _ _ _)
  case abort =>
    exact fun x i n s hp hr h => exec_adminCmd rfl hp hr (congrArg (adminOk · (portId x) i.toNat 0) (if_neg h))
  case stepDone => exact fun b c s hk h4 => congrArg Host.Outcome.next ((if_neg hk).trans (if_neg h4))

end

section
/-! Get Log Page of the standard pages and of the truss, zones, host interface, microcode and events (R260, R271 to R275, R359,
R65, R249, R282, R378, R423). -/
namespace Sys2Proof.Machine
open Sys2Proof

variable {s : State} {x : HPort} {i : BitVec 16} (hp : portExists s (portId x) = true)
  (hr : (ctl s (portId x)).ready = true) (rae : Bool) (o n : BitVec 32)
include hp hr

/-- The Changed Namespace List is emptied by a read without Retain that is not refused (R275). -/
theorem exec_logChangedNamespaceList : exec (.logChangedNamespaceList x i rae o n) s = .next (
    let t := logData s (portId x) i.toNat o.toNat n.toNat (ctl s (portId x)).chgNs
    if rae || (ctl s (portId x)).chgNs.length < o.toNat then t
    else setCtl t (portId x) fun c => { c with chgNs := [] }) :=
  exec_adminCmd rfl hp hr rfl

/-- A namespace's part of the Changed Zone List, emptied likewise (R271, R275). -/
theorem exec_logChangedZoneList {ns : BitVec 32} {l : List Nat}
    (hl : ((ctl s (portId x)).chgZones.filter fun z => z.1 == ns.toNat).map (fun z => z.2 * nsZl s ns.toNat) = l) :
    exec (.logChangedZoneList x i ns rae o n) s = .next (
      let t := logData s (portId x) i.toNat o.toNat n.toNat l
      if rae || l.length < o.toNat then t
      else setCtl t (portId x) fun c => { c with chgZones := c.chgZones.filter fun z => z.1 != ns.toNat }) := by
  subst hl
  exact exec_adminCmd rfl hp hr rfl

/-- The event page: a read without Retain takes the mask of the vendor events off (R423). -/
theorem exec_logEventStatus : exec (.logEventStatus x i rae o n) s = .next (
    let t := logData s (portId x) i.toNat o.toNat n.toNat (eventPage s)
    if rae || (eventPage s).length < o.toNat then t
    else { t with evt := { t.evt with vendorMasked := t.evt.vendorMasked.filter (· != portId x) } }) :=
  exec_adminCmd rfl hp hr rfl

end Sys2Proof.Machine

open Sys2Proof Sys2Proof.Machine

/-- Settles O39: every page but SMART and those that a read empties or unmasks is read without an effect. -/
theorem errorAndHealthLogs : Obligations.ErrorAndHealthLogs := by
  unfold Obligations.ErrorAndHealthLogs
  have hfits {o n : Nat} (h : o ≤ n) : ¬(false || decide (n < o)) = true := by simpa using h
  refine ⟨?_, ?smart, ?smartOfNamespace, ?_, ?namespacesEmptied, ?namespacesKept, ?_, ?_, ?_, ?zonesEmptied, ?_, ?_, ?_, ?_,
    ?_, ?_, ?_, ?eventsUnmasked, ?tail⟩
  case smart => exact fun x i o n s hp hr => exec_adminCmd rfl hp hr (if_neg (not_not_intro rfl))
  case smartOfNamespace => exact fun x i o n ns s hp hr hns => exec_adminCmd rfl hp hr (if_pos hns)
  case namespacesEmptied =>
    exact fun x i o n s hp hr ho =>
      (exec_logChangedNamespaceList hp hr false o n).trans (congrArg _ (if_neg (hfits ho)))
  case namespacesKept =>
    exact fun x i o n s hp hr ho => (exec_logChangedNamespaceList hp hr true o n).trans (congrArg _ (if_pos rfl))
  case zonesEmptied =>
    exact fun x i o n ns l s hp hr hl ho =>
      (exec_logChangedZoneList hp hr false o n hl).trans (congrArg _ (if_neg (hfits ho)))
  case eventsUnmasked =>
    exact fun x i o n s hp hr ho => (exec_logEventStatus hp hr false o n).trans (congrArg _ (if_neg (hfits ho)))
  case tail => exact fun x i o n k s => exec_logPage rfl
  all_goals exact fun x i o n s => exec_logPage rfl

end

section
/-! Set Features over policy, slots, zones, events, decoding, recovery, write safety, the partner and the cache (R126, R151,
R175, R248, R280, R281, R305, R320, R405, R423). -/
namespace Sys2Proof.Machine
open Sys2Proof

variable {s : State} {x cid : Nat} {d e : Word}

/-! ### Unit policy -/

theorem setC0_claimed (hc : claimed s baseTRS = true) : setC0 d s x cid = claimHeld s x cid := if_pos hc

theorem setC0_used (hc : claimed s baseTRS = false) (hu : uUsed s (getF d ⟨0, 12⟩) = true) : setC0 d s x cid =
    adminOk (fset s (TRS_UNIT_FACE (getF d ⟨0, 12⟩)) TRS_UNIT_FACE_POLICY (getF d ⟨12, 4⟩)) x cid 0 :=
  (if_neg (ne_true_of_eq_false hc)).trans (if_neg (by rw [hu]; exact Bool.false_ne_true))

theorem setC0_unused (hc : claimed s baseTRS = false) (hu : uUsed s (getF d ⟨0, 12⟩) = false) :
    setC0 d s x cid = invalidField s x cid :=
  (if_neg (ne_true_of_eq_false hc)).trans (if_pos (by rw [hu]; rfl))

/-! ### Slots, zones, events and recorders -/

/-- Neither port's reservation is above 8,192 slots (R281). -/
theorem setC1_inRange (hc : claimed s baseHIF = false) (ha : getF d ⟨0, 14⟩ ≤ 8192) (hb : getF d ⟨16, 14⟩ ≤ 8192) :
    setC1 d s x cid = adminOk (fset (fset s HIF_SLOT_RES HIF_SLOT_RES_RES_A (getF d ⟨0, 14⟩)) HIF_SLOT_RES
      HIF_SLOT_RES_RES_B (getF d ⟨16, 14⟩)) x cid 0 :=
  (if_neg (ne_true_of_eq_false hc)).trans (if_neg (by omega))

/-- The journal's time in 10 to 10,000 ms and the rebuild's share in 1 to 100 % (R248). -/
theorem setC2_inRange (hz : claimed s baseZMP = false) (ht : ((rangeFrom 0 4).any fun t => claimed s (baseTHT t)) = false)
    (hj1 : 10 ≤ getF d ⟨0, 16⟩) (hj2 : getF d ⟨0, 16⟩ ≤ 10000) (hb1 : 1 ≤ getF d ⟨24, 8⟩) (hb2 : getF d ⟨24, 8⟩ ≤ 100) :
    setC2 d s x cid = adminOk (forAll (rangeFrom 0 4) (fsetb (fset s ZMP_CTRL ZMP_CTRL_JRN_MS (getF d ⟨0, 16⟩)) ZMP_CTRL
      ZMP_CTRL_CROSS_EN (bitOf d 16)) fun s t => fset s (THT_CTRL t) THT_CTRL_RB_SHARE (getF d ⟨24, 8⟩)) x cid 0 :=
  (if_neg (by rw [hz, ht]; decide)).trans (if_neg (by omega))

/-- An event's route, of a source that the router has (R423). -/
theorem setC8_inRange (hc : claimed s baseEVT = false) (hn : getF d ⟨0, 10⟩ < 640) : setC8 d e s x cid =
    adminOk (routeMsi (routeAen (fset s (EVT_RT_W0 (getF d ⟨0, 10⟩)) EVT_RT_W0_TAIL (getF d ⟨16, 8⟩)) (getF d ⟨0, 10⟩) x
      (bitOf d 24)) (getF d ⟨0, 10⟩) x (bitOf d 25) (getF e ⟨0, 11⟩)) x cid 0 :=
  (if_neg (ne_true_of_eq_false hc)).trans (if_neg (Nat.not_le.2 hn))

/-- A recorder's snapshot word, of the 12 that it has (R423). -/
theorem setC9_inRange (hc : claimed s baseTAIL = false) (hi : getF d ⟨8, 4⟩ < 12) : setC9 d e s x cid =
    adminOk (wr s (TAIL_SEL (getF d ⟨0, 3⟩) (getF d ⟨8, 4⟩)) (e &&& 0x83FFFFFC)) x cid 0 :=
  (if_neg (ne_true_of_eq_false hc)).trans (if_neg (Nat.not_le.2 hi))

/-! ### Decoding, recovery and write safety -/

section
variable (ha : actClaimed s = false)
include ha

/-- Every cluster takes the weights and MAXIT, every slice the time limit of a pin (R126). -/
theorem setD1_inRange (hl : ((rangeFrom 0 16).any fun c => claimed s (baseLDC c)) = false) (hit : getF e ⟨0, 6⟩ ≠ 0)
    (hp1 : 100 ≤ getF e ⟨8, 16⟩) (hp2 : getF e ⟨8, 16⟩ ≤ 10000) : setD1 d e s x cid =
      adminOk (forAll (rangeFrom 0 64) (forAll (rangeFrom 0 16) s fun s c =>
        fset (wr s (LDC_WEIGHT c) d) (LDC_CTRL c) LDC_CTRL_MAXIT (getF e ⟨0, 6⟩)) fun s a =>
          fset s (ACT_DET_CFG a) ACT_DET_CFG_PIN_TO_US (getF e ⟨8, 16⟩)) x cid 0 :=
  (if_neg (by rw [ha, hl]; decide)).trans (if_neg (by omega))

/-- Every slice takes the count of rereads, the recovery's bits and the preset's ladder (R151). -/
theorem setD2_inRange (hn : getF d ⟨0, 4⟩ ≤ 7) (hl : getF d ⟨16, 2⟩ ≤ 1) : setD2 d s x cid =
    adminOk (forAll (rangeFrom 0 64) s fun s a =>
      forAll ((rangeFrom 0 16).zip (presetLadder (getF d ⟨16, 2⟩))) (fsetb (fsetb (fset s (ACT_FMT_CTRL a)
        ACT_FMT_CTRL_REREAD_MAX (getF d ⟨0, 4⟩)) (ACT_FMT_CTRL a) ACT_FMT_CTRL_TP_RECON (bitOf d 8)) (ACT_FMT_CTRL a)
          ACT_FMT_CTRL_THATCH_RECON (bitOf d 9)) fun s y => wrN s (ACT_LAD a y.1) y.2) x cid 0 :=
  (if_neg (ne_true_of_eq_false ha)).trans (if_neg (by omega))

/-- Every slice takes the write limits, the rewrites and the shock limits, and the feature's words are kept (R175). -/
theorem setD3_inRange (h1 : 8 ≤ getF d ⟨0, 8⟩) (h2 : 4 ≤ getF d ⟨8, 8⟩) (h3 : getF d ⟨8, 8⟩ ≤ getF d ⟨0, 8⟩)
    (h4 : getF d ⟨16, 4⟩ ≤ 7) (h5 : 1 ≤ getF d ⟨20, 4⟩) (h6 : 5 ≤ getF e ⟨0, 16⟩) (h7 : 50 ≤ getF e ⟨16, 16⟩)
    (h8 : getF e ⟨16, 16⟩ ≤ 5000) : setD3 d e s x cid =
      adminOk (forAll (rangeFrom 0 64) { s with host := { s.host with safety := some (d, e) } } fun s a =>
        fset (fset (fset (fset (fset (fset s (ACT_SRV_LIM a) ACT_SRV_LIM_WU_LIM (getF d ⟨0, 8⟩)) (ACT_SRV_LIM a)
          ACT_SRV_LIM_WU_REL (getF d ⟨8, 8⟩)) (ACT_SRV_CTRL a) ACT_SRV_CTRL_REWRITE_MAX (getF d ⟨16, 4⟩)) (ACT_SRV_CTRL a)
          ACT_SRV_CTRL_REL_N (getF d ⟨20, 4⟩)) (ACT_SRV_SHOCK a) ACT_SRV_SHOCK_SHOCK_LIM (getF e ⟨0, 16⟩))
          (ACT_SRV_SHOCK a) ACT_SRV_SHOCK_SHOCK_HOLD_US (getF e ⟨16, 16⟩)) x cid 0 :=
  (if_neg (ne_true_of_eq_false ha)).trans (if_neg (by omega))

end

/-! ### Cache and ballast -/

/-- The state with the prefetch and way fields of the cache feature written (R305). -/
def cacheFields (d e : Word) (s : State) : State :=
  fset (fset (fset (fsetb s CCH_CTRL CCH_CTRL_PF_EN (bitOf d 1)) CCH_PF_CTRL CCH_PF_CTRL_DEPTH (getF d ⟨8, 8⟩))
    (CCH_WAYMASK 0) CCH_WAYMASK_WAYS (getF e ⟨0, 16⟩)) (CCH_WAYMASK 1) CCH_WAYMASK_WAYS (getF e ⟨16, 16⟩)

/-- A cache that is draining is enabled again without an invalidation first (R303, R305). -/
theorem setE0_enable_draining (hc : claimed s baseCCH = false) (hd1 : 1 ≤ getF d ⟨8, 8⟩) (hd2 : getF d ⟨8, 8⟩ ≤ 64)
    (hn : s.cch.cmd = none) (hen : bitOf d 0 = true) (hst : cchState (cacheFields d e s) = 1) :
    setE0 d e s x cid = adminOk (cacheEnable (cacheFields d e s)) x cid 0 := by
  refine (if_neg (ne_true_of_eq_false hc)).trans ((if_neg (by omega)).trans ((if_neg (by rw [hn]; decide)).trans
    ((if_pos hen).trans ?_)))
  exact congrArg (fun t => adminOk (cacheEnable t) x cid 0) (if_neg (by unfold cacheFields at hst; omega))

/-- SAFE_WRITERS, E_RES, CAP_MF and VFLOOR, each in its range (R320). -/
theorem setE8_inRange (hc : claimed s baseBAL = false) (h1 : 1 ≤ getF d ⟨0, 4⟩) (h2 : getF d ⟨0, 4⟩ ≤ 8)
    (h3 : 100 ≤ getF d ⟨16, 16⟩) (h4 : getF d ⟨16, 16⟩ ≤ 10000) (h5 : 1 ≤ getF e ⟨0, 16⟩) (h6 : 500 ≤ getF e ⟨16, 16⟩)
    (h7 : getF e ⟨16, 16⟩ ≤ 6000) : setE8 d e s x cid =
      adminOk (fset (fset (fset (fset s BAL_CTRL BAL_CTRL_SAFE_WRITERS (getF d ⟨0, 4⟩)) BAL_MARGIN BAL_MARGIN_E_RES
        (getF d ⟨16, 16⟩)) BAL_CAP BAL_CAP_CAP_MF (getF e ⟨0, 16⟩)) BAL_VCAP BAL_VCAP_VFLOOR (getF e ⟨16, 16⟩)) x cid 0 :=
  (if_neg (ne_true_of_eq_false hc)).trans (if_neg (by omega))

end Sys2Proof.Machine

open Sys2Proof Sys2Proof.Machine

/-- Settles O41: each command does its feature's work, with the block's claim and the fields' ranges checked first. -/
theorem featureSettings : Obligations.FeatureSettings := by
  unfold Obligations.FeatureSettings
  refine ⟨?policy, ?policyUnused, ?policyClaimed, ?saveRefused, ?slots, ?zones, ?routing, ?snapshot, ?decoding, ?recovery,
    ?safety, ?partner, ?cache, ?ballast⟩
  case policy => exact fun x i d s hp hr hc hu => exec_setFeat rfl hp hr (setC0_used hc hu)
  case policyUnused =>
    exact fun x i d s hp hr hc hu => exec_setFeat rfl hp hr (setC0_unused hc hu)
  case policyClaimed => exact fun x i d s hp hr hc => exec_setFeat rfl hp hr (setC0_claimed hc)
  case saveRefused => exact fun x i d s hp hr => exec_adminCmd rfl hp hr rfl
  case slots => exact fun x i d s hp hr hc ha hb => exec_setFeat rfl hp hr (setC1_inRange hc ha hb)
  case zones =>
    exact fun x i d s hp hr hz ht hj1 hj2 hb1 hb2 => exec_setFeat rfl hp hr (setC2_inRange hz ht hj1 hj2 hb1 hb2)
  case routing => exact fun x i d e s hp hr hc hn => exec_setFeat rfl hp hr (setC8_inRange hc hn)
  case snapshot => exact fun x i d e s hp hr hc hi => exec_setFeat rfl hp hr (setC9_inRange hc hi)
  case decoding =>
    exact fun x i d e s hp hr ha hl hit hp1 hp2 => exec_setFeat rfl hp hr (setD1_inRange ha hl hit hp1 hp2)
  case recovery => exact fun x i d s hp hr ha hn hl => exec_setFeat rfl hp hr (setD2_inRange ha hn hl)
  case safety =>
    exact fun x i d e s hp hr ha h1 h2 h3 h4 h5 h6 h7 h8 =>
      exec_setFeat rfl hp hr (setD3_inRange ha h1 h2 h3 h4 h5 h6 h7 h8)
  case partner =>
    exact fun x i d s hp hr hc => exec_setFeat rfl hp hr (if_neg (ne_true_of_eq_false hc))
  case cache =>
    exact fun x i d e s hp hr hc hd1 hd2 hn hen hst =>
      exec_setFeat rfl hp hr (setE0_enable_draining hc hd1 hd2 hn hen hst)
  case ballast =>
    exact fun x i d e s hp hr hc h1 h2 h3 h4 h5 h6 h7 =>
      exec_setFeat rfl hp hr (setE8_inRange hc h1 h2 h3 h4 h5 h6 h7)

end

section
/-! Get Features of the vendor features (R100, R126, R151, R175, R197, R248, R280, R281, R305, R362, R405, R423). -/
open Sys2Proof Sys2Proof.Machine

/-- Settles O43: every feature is read without a condition but the three that name a unit, an event source or a snapshot word,
which must be one that the device has. -/
theorem featureReads : Obligations.FeatureReads := by
  unfold Obligations.FeatureReads
  refine ⟨?policy, ?_, ?_, ?routing, ?snapshot, ?port, ?_, ?_, ?_, ?controlSet, ?spindle, ?_, ?_, ?_, ?_, ?_, ?_⟩
  case policy =>
    exact fun x i d s hp hr hu => exec_getFeat rfl hp hr (if_neg (by rw [hu]; exact Bool.false_ne_true))
  case routing =>
    exact fun i d s hp hr hn => exec_getFeat (x := .a) rfl hp hr (if_neg (Nat.not_le.2 hn))
  case snapshot => exact fun x i d s hp hr hi => exec_getFeat rfl hp hr (if_neg (Nat.not_le.2 hi))
  case port | controlSet | spindle => exact fun x i p s hp hr => exec_getFeat rfl hp hr rfl
  all_goals exact fun x i s hp hr => exec_getFeat rfl hp hr rfl

end

section
/-! Registers of the host interface and of memory protection, and the cache: fills, write-backs, prefetch, drain and
invalidation (R14, R283, R284, R290 to R303). -/
namespace Sys2Proof.Machine
open Sys2Proof

variable {s : State} {m : Master}

/-! ### The read of SLOTS -/

theorem latchHigh_slots : latchHigh s m HIF_SLOTS = s := by
  have h : wideRest HIF_SLOTS = [] := by decide
  unfold latchHigh
  rw [h]
  rfl

theorem restartPeak_slots :
    restartPeak s HIF_SLOTS = fset s HIF_SLOTS HIF_SLOTS_PEAK (fget s HIF_SLOTS HIF_SLOTS_IN_FLIGHT) := by
  have h : homeAddr HIF_SLOTS = HIF_SLOTS := homeAddr_below (by decide)
  simp only [restartPeak, h, if_true]

/-- A read of SLOTS from inside the device answers it and starts PEAK again at IN_FLIGHT (R283). -/
theorem exec_hifSlotsRead_inside (h : accessUndefined s m HIF_SLOTS = false) (hm : hostPort m = none) :
    exec (.hifSlotsRead m) s = .next (
      let u := clearRC (dropLatch s m HIF_SLOTS) HIF_SLOTS
      emit (fset u HIF_SLOTS HIF_SLOTS_PEAK (fget u HIF_SLOTS HIF_SLOTS_IN_FLIGHT))
        (.readData m HIF_SLOTS (readValue s m HIF_SLOTS))) := by
  refine congrArg Host.Outcome.next ((regRead_reach (by decide) h (mbxMayRead_past (by decide) s m) hm).trans ?_)
  rw [latchHigh_slots, restartPeak_slots]

/-! ### Memory protection -/

/-- A sample of the memory's temperature is noted with its band, and a new band is an event (R290). -/
theorem exec_dramTempSample {t : BitVec 16} {n : Nat}
    (h : bandOf [100, 250, 400, 550, 650] 20 (fget s BUF_STAT BUF_STAT_BAND) (tempOf t) = n) :
    exec (.dramTempSample t) s = .next (
      let u := fset (fset s BUF_STAT BUF_STAT_TEMP t.toNat) BUF_STAT BUF_STAT_BAND n
      if n = fget s BUF_STAT BUF_STAT_BAND then u else evtSet u .buf BUF_EVT_BAND) := by
  subst h
  rfl

/-- FLIP_CTRL, for the masters that may arm a flip (R294). -/
theorem exec_mepFlipArm_reach (hr : qcsReach s m MEP_FLIP_CTRL = true) (v : Word) :
    exec (.mepFlipArm m v) s = .next (if flipWriter s m then writeFlipCtrl s v else s) :=
  exec_regWrite rfl hr rfl

/-- The retirement that runs ends with its result (R295). -/
theorem exec_pageRetireDone_busy (hb : fbit s MEP_RET_STAT MEP_RET_STAT_BUSY = true) : exec .pageRetireDone s = .next (
    let page := fget s MEP_RET_CMD MEP_RET_CMD_PAGE
    let r := retireResult s page
    retireAnswer (evtSet (fset (fsetb (fsetb (retireEffect s page r) MEP_RET_STAT MEP_RET_STAT_BUSY false) MEP_RET_STAT
      MEP_RET_STAT_DONE true) MEP_RET_STAT MEP_RET_STAT_RESULT r) .mep MEP_EVT_RET_DONE) page r) :=
  congrArg Host.Outcome.next (if_neg (by rw [hb]; decide))

/-! ### Fills and prefetch -/

section
variable {i : BitVec 16} {x : CacheFill} {f : Nat} (hx : s.cch.fills[i.toNat]? = some x) (hf : x.frame = some f)
include hx hf

/-- A fill with a frame that waits for no write-back puts its data there, unless the cache is off (R301, R303). -/
theorem exec_cacheFillDone_frame (hw : x.wb = false) (hon : cchState s ≠ 0) : exec (.cacheFillDone i) s =
    .next (fillFrame (setCch s fun c => { c with fills := c.fills.eraseIdx i.toNat }) x f) := by
  show execCacheFillDone i s = _
  simp only [execCacheFillDone, hx, hw, hf, if_neg hon, Bool.false_eq_true, if_false]

section
variable {l : CacheLine} (hw : x.wb = true) (hl : cacheLine s f = some l)
include hw hl

/-- The dirty sub-blocks ahead of a fill are written back once the ledger admits them, and the fill goes on (R301). -/
theorem exec_cacheWritebackDone_admitted (ha : admitsAll s (writesAhead s x.order ++ lineExts s l) = true)
    (hh : x.hit = false) : exec (.cacheWritebackDone i) s = .next (setCch (writeBack s f l) fun c =>
      { c with fills := c.fills.modify i.toNat fun y => { y with wb := false } }) := by
  show execCacheWritebackDone i s = _
  simp only [execCacheWritebackDone, hx, hf, hl, hw, ha, hh, Option.bind_some, Option.map_some, Bool.not_true,
    Bool.false_eq_true, if_false]

theorem exec_cacheWritebackDone_waits (ha : admitsAll s (writesAhead s x.order ++ lineExts s l) = false) :
    exec (.cacheWritebackDone i) s = .next (evtSet s .cch CCH_EVT_WB_WAIT) := by
  show execCacheWritebackDone i s = _
  simp only [execCacheWritebackDone, hx, hf, hl, hw, ha, Option.bind_some, Option.map_some, Bool.not_true,
    Bool.not_false, Bool.false_eq_true, if_false, if_true]

end

end

/-- A stride detector issues its next prefetch where it may (R302). -/
theorem exec_prefetchIssue {i : BitVec 8} {d : StrideDet} (hd : s.cch.dets[i.toNat]? = some d) :
    exec (.prefetchIssue i) s = .next (if pfMay s d then
      setCch (pfFill s d) fun c => { c with dets := c.dets.modify i.toNat fun y => { y with ahead := y.ahead + 1 } }
      else s) := by
  show execPrefetchIssue i s = _
  simp only [execPrefetchIssue, hd]

/-! ### Drain and invalidation -/

/-- A drain ends with the cache off once its dirty lines are written back (R303). -/
theorem exec_cacheDrainDone_drained {t : State} (h : cchState s = 1) (ht : drainLines s = some t) :
    exec .cacheDrainDone s = .next
      (cacheCmdEnd (evtSet (fset t CCH_STAT CCH_STAT_STATE 0) .cch CCH_EVT_DRAIN_DONE)) := by
  refine congrArg Host.Outcome.next ((if_neg (not_not_intro h)).trans ?_)
  simp only [ht]

theorem exec_cacheDrainDone_waits (h : cchState s = 1) (ht : drainLines s = none) :
    exec .cacheDrainDone s = .next (evtSet s .cch CCH_EVT_WB_WAIT) := by
  refine congrArg Host.Outcome.next ((if_neg (not_not_intro h)).trans ?_)
  simp only [ht]

/-- An invalidation ends once the dirty lines are drained: no line is left, and fills under way bring nothing (R303). -/
theorem exec_cacheInvalidateDone_drained {t : State} (hb : fbit s CCH_STAT CCH_STAT_INV_BUSY = true)
    (ht : drainLines s = some t) (hen : t.cch.enWait = false) : exec .cacheInvalidateDone s = .next
      (evtSet (fsetb (fsetb (syncCache (setCch t fun c =>
        { c with lines := [], fills := c.fills.map fun x => { x with gone := x.mask }, enWait := false })) CCH_STAT
        CCH_STAT_STALE false) CCH_STAT CCH_STAT_INV_BUSY false) .cch CCH_EVT_INV_DONE) := by
  show execCacheInvalidateDone s = _
  simp only [execCacheInvalidateDone, hb, ht, hen, Bool.not_true, Bool.false_eq_true, if_false]

end Sys2Proof.Machine

open Sys2Proof Sys2Proof.Machine

/-- Settles O45: each register's write by what its value may do, the cache by its state, its fills and the ledger. -/
theorem memoryAndCache : Obligations.MemoryAndCache := by
  unfold Obligations.MemoryAndCache
  refine ⟨fun m v s hr => exec_regWrite rfl hr rfl, fun m s => exec_hifSlotsRead_inside, ?newBand, ?sameBand, ?flipArmed,
    ?flipRefused, ?retire, ?retired, ?entryFreed, ?logCleared, ?locked,
    fun i x f s hx hw hf hon => exec_cacheFillDone_frame hx hf hw hon,
    fun i x f l s hx hw hf hl ha hh => exec_cacheWritebackDone_admitted hx hf hw hl ha hh,
    fun i x f l s hx hw hf hl ha => exec_cacheWritebackDone_waits hx hf hw hl ha, ?prefetched, ?notPrefetched, ?disabled,
    fun t s => exec_cacheDrainDone_drained, fun s => exec_cacheDrainDone_waits, ?enabled, ?invalidated,
    fun t s => exec_cacheInvalidateDone_drained⟩
  case newBand => exact fun t n s h hn => (exec_dramTempSample h).trans (congrArg _ (if_neg hn))
  case sameBand => exact fun t s h => (exec_dramTempSample h).trans (congrArg _ (if_pos rfl))
  case flipArmed => exact fun m v s hr hf => (exec_mepFlipArm_reach hr v).trans (congrArg _ (if_pos hf))
  case flipRefused =>
    exact fun m v s hr hf => (exec_mepFlipArm_reach hr v).trans (congrArg _ (if_neg (ne_true_of_eq_false hf)))
  case retire => exact fun m g s hr hb => exec_regWrite rfl hr (if_neg (ne_true_of_eq_false hb))
  case retired =>
    intro r s hb hr
    subst hr
    exact exec_pageRetireDone_busy hb
  case entryFreed => exact fun m i s hr => exec_regWrite rfl hr rfl
  case logCleared | locked | disabled | enabled | invalidated => exact fun m s hr => exec_regWrite rfl hr rfl
  case prefetched => exact fun i d s hd hm => (exec_prefetchIssue hd).trans (congrArg _ (if_pos hm))
  case notPrefetched =>
    exact fun i d s hd hm => (exec_prefetchIssue hd).trans (congrArg _ (if_neg (ne_true_of_eq_false hm)))

end

section
/-! Doorbells of completion queues, sector starts, supplies, clocks and timers (R260, R265, R322, R324, R380, R454). -/
namespace Sys2Proof.Machine
open Sys2Proof

variable {s : State}

/-- A completion queue's head is the doorbell's value modulo the queue's size (R265). -/
theorem exec_cqHeadDoorbellWrite_found {x : HPort} {q j : BitVec 16} {y : Nat × Cq} (hp : portExists s (portId x) = true)
    (hr : (ctl s (portId x)).ready = true) (h : (ctl s (portId x)).cqs.find? (fun y => y.1 == q.toNat) = some y) :
    exec (.cqHeadDoorbellWrite x q j) s = .next (setCtl s (portId x) fun c =>
      { c with cqs := tabPut c.cqs y.1 { y.2 with head := j.toNat % max 1 y.2.size } }) := by
  refine exec_adminCmd rfl hp hr ?_
  simp only [h]

/-- A sector start with no gate and no window waiting counts, and is latched (R380). -/
theorem exec_sectorStart_counts {a : Fin 64} (hd : domOn s (75 + a) = true) (hg : (fseqOf s a).gatePend = none)
    (hw : (fseqOf s a).winPend = none) (v : BitVec 16) :
    exec (.sectorStart a v) s = .next (setFseq (latchCond s a 7) a fun y =>
      { y with sect := v.toNat, cnt0 := y.cnt0 - 1, cnt1 := y.cnt1 - 1, gatePend := none, winPend := none }) := by
  show execSectorStart a v s = _
  simp only [execSectorStart, hd, hg, hw, Bool.not_true, Bool.false_eq_true, if_false]

end Sys2Proof.Machine

open Sys2Proof Sys2Proof.Machine

/-- Settles O60: a start by the slice's power, a clock by whether it is wanted, a timer by whether it runs. -/
theorem timersAndClocks : Obligations.TimersAndClocks := by
  unfold Obligations.TimersAndClocks
  refine ⟨fun x q j y s => exec_cqHeadDoorbellWrite_found, fun a v s hd hg hw => exec_sectorStart_counts hd hg hw v,
    ?sliceOff, fun s => rfl, ?locked, ?stopped, ?wanted, ?threadExpired, ?hostExpired, ?hostStays⟩
  case sliceOff => exact fun a v s hd => congrArg Host.Outcome.next (if_pos (by rw [hd]; rfl))
  case locked => exact fun k s hm hw => congrArg Host.Outcome.next (if_pos ⟨hm, hw⟩)
  case stopped => exact fun s h => congrArg Host.Outcome.next (if_neg (ne_true_of_eq_false h))
  case wanted => exact fun s h => congrArg Host.Outcome.next (if_pos h)
  case threadExpired => exact fun z t s h => congrArg Host.Outcome.next (if_pos h)
  case hostExpired => exact fun x s h => congrArg Host.Outcome.next (if_pos h)
  case hostStays => exact fun x s h => congrArg Host.Outcome.next (if_neg (ne_true_of_eq_false h))

end

section
/-! Rises of event sources, accesses of the mailbox channels without the right to them, repeats of a Tail record, and the
step with a command and without one (R343, R409, R416, R417, R419, R420). -/
namespace Sys2Proof.Machine
open Sys2Proof

/-! ### Rises -/

/-- A pulse, or the rise of a level source that is asserted, is a rise in the router (R416, R417). -/
theorem exec_eventSourceRise_rises {n : Fin 640} {s : State} (h : srcLevel s n = true ∨ [3, 5, 6, 7].contains n.val = true) :
    exec (.eventSourceRise n) s = .next (sourceRise s n) :=
  congrArg Host.Outcome.next (if_pos (Bool.or_eq_true_iff.2 h.symm))

theorem exec_eventSourceRise_stays {n : Fin 640} {s : State} (h : srcLevel s n = false)
    (hp : [3, 5, 6, 7].contains n.val = false) : exec (.eventSourceRise n) s = .next s :=
  congrArg Host.Outcome.next (if_neg (by rw [h, hp]; exact Bool.false_ne_true))

/-! ### Mailbox violations -/

/-- A write of a channel register without the right to it is a violation and nothing else (R409). -/
theorem mbxChWrite_unentitled {s : State} {m : Master} {c o : Nat} {v : Word} (h : mbxRight s m c o v = false) :
    mbxChWrite s m c o v = mbxViol s := if_neg (ne_true_of_eq_false h)

theorem mbxChWrite_entitled {s : State} {m : Master} {c o : Nat} {v : Word} (h : mbxRight s m c o v = true) :
    mbxChWrite s m c o v = mbxStore s m c o v := if_pos h

/-- The data words and the ring of the doorbell are the sender's (R409). -/
theorem mbxRight_data (s : State) (m : Master) (c : Nat) (i : Fin 16) (v : Word) :
    mbxRight s m c (4 * i) v = mbxSender s m c := if_pos (.inl (by omega))

theorem mbxRight_ring (s : State) (m : Master) (c : Nat) (v : Word) : mbxRight s m c 0x44 v = mbxSender s m c := rfl

/-- The clear of the doorbell is the receiver's (R409). -/
theorem mbxRight_clear (s : State) (m : Master) (c : Nat) (v : Word) : mbxRight s m c 0x40 v = mbxReceiver s m c := rfl

section
variable {m : Master} {c : Fin 64} {s : State}

theorem exec_mbxDataWrite_unentitled (h : mbxSender s m c = false) (i : Fin 16) (v : Word) :
    exec (.mbxDataWrite m c i v) s = .next (mbxViol s) :=
  congrArg Host.Outcome.next (mbxChWrite_unentitled ((mbxRight_data s m c i v).trans h))

theorem exec_mbxDbSet_unentitled (h : mbxSender s m c = false) (v : Word) :
    exec (.mbxDbSet m c v) s = .next (mbxViol s) :=
  congrArg Host.Outcome.next (mbxChWrite_unentitled ((mbxRight_ring s m c v).trans h))

theorem exec_mbxDbClear_unentitled (h : mbxReceiver s m c = false) (v : Word) :
    exec (.mbxDbClear m c v) s = .next (mbxViol s) :=
  congrArg Host.Outcome.next (mbxChWrite_unentitled ((mbxRight_clear s m c v).trans h))

end

/-- A violation counts and is an event of the mailboxes, and touches nothing else (R409). -/
theorem Only.mbxViol (s : State) : Only [MBX_VIOLS, MBX_EVT] s (mbxViol s) := by
  unfold Machine.mbxViol
  exact Only.evtSet (by decide) (.inl (by decide)) (Only.count (by decide) (.inl (by decide)) (.inl (by decide)) (Only.refl _ s))

/-! ### Repeats -/

/-- An occurrence like the last record of a recorder that is not frozen (R420). -/
theorem tailRecord_repeat {s : State} {r : Nat} {l : List TailRec} {x : TailRec}
    (hf : fbit s (TAIL_CTRL r) TAIL_CTRL_FREEZE = false) (hl : tailRecs s r = l ++ [x]) (hx : x.snap = tailSnap s r) :
    tailRecord s x.source r = if x.rep < 65535 then tailSet s r (l ++ [{ x with rep := x.rep + 1, last := uptime s }])
      else tailDrop s r := by
  unfold tailRecord
  simp only [hf, hl, hx, List.getLast?_concat, List.dropLast_concat, Bool.false_eq_true, if_false, and_self, if_true]

/-! ### The idle step -/

section
variable {s : State}

theorem step_empty (h : s.pending = []) : step s = .next (uptimeTick s) := by
  unfold step
  rw [h]

theorem uptimeTick_unpowered (hv : s.pwr.vaon = false) : uptimeTick s = s := if_pos (by rw [hv]; rfl)

theorem uptimeTick_counts (hv : s.pwr.vaon = true) (h : uptime s + 1 < 2 ^ 32) :
    uptimeTick s = wrN s PWR_UPTIME (uptime s + 1) :=
  (if_neg (by rw [hv]; decide)).trans (if_pos h)

/-- The wrap is an event outside WATCH (R343). -/
theorem uptimeTick_wraps (hv : s.pwr.vaon = true) (h : uptime s + 1 = 2 ^ 32) (hm : mode (wrN s PWR_UPTIME 0) ≠ 0) :
    uptimeTick s = evtSet (wrN s PWR_UPTIME 0) .pwr PWR_EVT_UPTIME_WRAP :=
  (if_neg (by rw [hv]; decide)).trans ((if_neg (by omega)).trans (if_neg hm))

end

end Sys2Proof.Machine

open Sys2Proof Sys2Proof.Machine

/-- Settles O7: the frame of a rise, the bit that it sets, and the bits that it keeps. -/
theorem risesArePended : Obligations.RisesArePended := by
  unfold Obligations.RisesArePended
  exact fun n s h => ⟨_, exec_eventSourceRise_rises h, sourceRise_pends n.2,
    fun _ _ hj => sourceRise_keepsPend hj n.2, Only.sourceRise n.2 (Only.refl [] s)⟩

/-- Settles O9: each write ends as a violation, whose frame is that of its count and its event. -/
theorem mailboxViolations : Obligations.MailboxViolations := by
  unfold Obligations.MailboxViolations
  exact fun m c s => ⟨fun h i v => ⟨⟨_, exec_mbxDataWrite_unentitled h i v, Only.mbxViol s⟩,
    ⟨_, exec_mbxDbSet_unentitled h v, Only.mbxViol s⟩⟩, fun h v => ⟨_, exec_mbxDbClear_unentitled h v, Only.mbxViol s⟩⟩

/-- Settles O11, by whether the last record's REPEAT has room. -/
theorem repeatRule : Obligations.RepeatRule := by
  unfold Obligations.RepeatRule
  rintro src r l x s hf hl rfl hx
  exact ⟨fun h => (tailRecord_repeat hf hl hx).trans (if_pos h),
    fun h => (tailRecord_repeat hf hl hx).trans (if_neg (Nat.not_lt.2 h))⟩

/-- Settles O1: the step's own case of a queue with a front. -/
theorem stepRunsTheFront : Obligations.StepRunsTheFront := by
  unfold Obligations.StepRunsTheFront
  exact fun _ _ _ => rfl

/-- Settles O2, by whether the counter has power and room. -/
theorem emptyQueueIdles : Obligations.EmptyQueueIdles := by
  unfold Obligations.EmptyQueueIdles
  intro s hq
  rw [step_empty hq]
  exact ⟨fun hv h => congrArg _ (uptimeTick_counts hv h), fun hv h _ hm => congrArg _ (uptimeTick_wraps hv h hm),
    fun hv => congrArg _ (uptimeTick_unpowered hv)⟩

end

section
/-! The flash store's command register: operations that start, wait or are refused, and the ends of pulses (R331, R431 to
R434); event sources and recorders (R416, R417, R421). -/
namespace Sys2Proof.Machine
open Sys2Proof

variable {s : State} {m : Master} {v : Word}

/-! ### The value that starts an operation -/

theorem goValue_go (v : Word) (op : Nat) : getF (goValue v op) FLS_CMD_GO = 1 := getF_setF (by decide) ..

theorem goValue_op {op : Nat} (h : op < 8) (v : Word) : getF (goValue v op) FLS_CMD_OP = op := by
  rw [goValue, getF_setF_ne (by decide) (by decide), getF_setF (by decide)]
  exact Nat.mod_eq_of_lt h

theorem goValue_page (v : Word) (op : Nat) : getF (goValue v op) FLS_CMD_PAGE = getF v FLS_CMD_PAGE := by
  rw [goValue, getF_setF_ne (by decide) (by decide), getF_setF_ne (by decide) (by decide)]

/-- OVR, which only the holder of the claim writes, is no part of PAGE (R432). -/
theorem cmdFields_page (s : State) (m : Master) (v : Word) :
    getF (cmdFields s m v) FLS_CMD_PAGE = getF v FLS_CMD_PAGE := by
  have h (w : Word) : getF (setF w FLS_CMD_PAGE (getF v FLS_CMD_PAGE)) FLS_CMD_PAGE = getF v FLS_CMD_PAGE := by
    rw [getF_setF (by decide)]
    exact Nat.mod_eq_of_lt (getF_lt v FLS_CMD_PAGE)
  unfold cmdFields
  dsimp only
  split
  · rw [getF_setF_ne (by decide) (by decide), h]
  · exact h _

/-- The state with FLS_CMD written to start operation `op`. -/
def cmdWritten (s : State) (m : Master) (v : Word) (op : Nat) : State := wr s FLS_CMD (cmdFields s m (goValue v op))

theorem cmdWritten_page (s : State) (m : Master) (v : Word) (op : Nat) :
    fget (cmdWritten s m v op) FLS_CMD FLS_CMD_PAGE = getF v FLS_CMD_PAGE := by
  rw [cmdWritten, fget, rd_wr_same, cmdFields_page, goValue_page]

/-! ### Operations that start, and those that wait -/

section
variable (hb : fbit s FLS_STAT FLS_STAT_BUSY = false) (hd : domFailed s 473 = false) (bad : Bool) (ce ue weak : BitVec 16)
include hb hd

/-- With the controller idle and its domain good a GO is not held. -/
theorem flash_not_held (op : Nat) :
    ¬(getF (goValue v op) FLS_CMD_GO = 0 ∨ fbit s FLS_STAT FLS_STAT_BUSY = true ∨ domFailed s 473 = true) := by
  rw [goValue_go, hb, hd]
  decide

theorem flsCmdWrite_program : flsCmdWrite s m (goValue v 1) bad ce ue weak = programStart (cmdWritten s m v 1) bad := by
  simp only [flsCmdWrite, if_neg (flash_not_held hb hd 1), goValue_op (show 1 < 8 by decide), cmdWritten]

theorem flsCmdWrite_erase : flsCmdWrite s m (goValue v 2) bad ce ue weak = eraseStart (cmdWritten s m v 2) := by
  simp only [flsCmdWrite, if_neg (flash_not_held hb hd 2), goValue_op (show 2 < 8 by decide), cmdWritten]

theorem flsCmdWrite_read : flsCmdWrite s m (goValue v 3) bad ce ue weak = pageRead (cmdWritten s m v 3) ce ue weak := by
  simp only [flsCmdWrite, if_neg (flash_not_held hb hd 3), goValue_op (show 3 < 8 by decide), cmdWritten]

end

/-- A GO while an operation runs is ignored (R437), and one while the controller's domain has failed waits (R331). -/
theorem flsCmdWrite_held (h : fbit s FLS_STAT FLS_STAT_BUSY = true ∨ domFailed s 473 = true) (op : Nat) (bad : Bool)
    (ce ue weak : BitVec 16) : flsCmdWrite s m (goValue v op) bad ce ue weak = cmdWritten s m v op :=
  if_pos (.inr h)

section
variable (hr : qcsReach s m FLS_CMD = true)
include hr

section
variable (hb : fbit s FLS_STAT FLS_STAT_BUSY = false) (hd : domFailed s 473 = false)
include hb hd

theorem exec_flashProgram_starts (bad : Bool) :
    exec (.flashProgram m v bad) s = .next (programStart (cmdWritten s m v 1) bad) :=
  exec_regWrite rfl hr (flsCmdWrite_program hb hd bad 0 0 0)

theorem exec_flashErase_starts : exec (.flashErase m v) s = .next (eraseStart (cmdWritten s m v 2)) :=
  exec_regWrite rfl hr (flsCmdWrite_erase hb hd false 0 0 0)

theorem exec_flashPageRead_starts (ce ue weak : BitVec 16) :
    exec (.flashPageRead m v ce ue weak) s = .next (pageRead (cmdWritten s m v 3) ce ue weak) :=
  exec_regWrite rfl hr (flsCmdWrite_read hb hd false ce ue weak)

end

theorem exec_flashErase_held (h : fbit s FLS_STAT FLS_STAT_BUSY = true ∨ domFailed s 473 = true) :
    exec (.flashErase m v) s = .next (cmdWritten s m v 2) :=
  exec_regWrite rfl hr (flsCmdWrite_held h 2 false 0 0 0)

end

/-! ### Refusals -/

theorem flashRefused_retired {b : Nat} (h : fbit s (FLS_ECNT b) FLS_ECNT_RETIRED = true) : flashRefused s b = 4 := if_pos h

theorem flashRefused_protected {b : Nat} (hr : fbit s (FLS_ECNT b) FLS_ECNT_RETIRED = false)
    (hp : activeFwBlock s b = true) : flashRefused s b = 5 :=
  (if_neg (ne_true_of_eq_false hr)).trans (if_pos hp)

/-- A block of the firmware area of either bank, while that bank is the active one (R434). -/
theorem activeFwBlock_of_bank {b : Nat} (h : fget s PRT_FW PRT_FW_ACTIVE_BANK = 0 ∧ b < 196 ∨
    fget s PRT_FW PRT_FW_ACTIVE_BANK = 1 ∧ 256 ≤ b ∧ b < 452) : activeFwBlock s b = true := by
  unfold activeFwBlock
  rcases h with ⟨h0, hb⟩ | ⟨h1, hb⟩
  · rw [if_pos h0]
    exact decide_eq_true hb
  · rw [if_neg (by rw [h1]; decide)]
    exact decide_eq_true hb

/-- The start of an operation touches FLS_CMD and FLS_STAT only. -/
theorem fget_flashStart_cmdWritten {a : Nat} (hc : homeAddr a ≠ homeAddr FLS_CMD) (hs : homeAddr a ≠ homeAddr FLS_STAT)
    (op b : Nat) (f : Fld) : fget (flashStart (cmdWritten s m v op) b) a f = fget s a f := by
  rw [flashStart, fget_fset_ne hs, fget_fset_ne hs, fget_domRequest, cmdWritten, fget_wr_ne hc]

theorem flashStart_cmdWritten_fls (op b : Nat) : (flashStart (cmdWritten s m v op) b).fls = s.fls := by
  rw [flashStart, fset_fls, fset_fls, domRequest_fls, cmdWritten, wr_fls]

/-- What refuses a started operation on a retired block, or on one of the active bank's firmware area (R434). -/
theorem flashRefused_started {b n : Nat} (hb : b < 512)
    (h : (fbit s (FLS_ECNT b) FLS_ECNT_RETIRED = true ∧ n = 4) ∨
      (fbit s (FLS_ECNT b) FLS_ECNT_RETIRED = false ∧ n = 5 ∧ (fget s PRT_FW PRT_FW_ACTIVE_BANK = 0 ∧ b < 196 ∨
        fget s PRT_FW PRT_FW_ACTIVE_BANK = 1 ∧ 256 ≤ b ∧ b < 452)))
    (op : Nat) : flashRefused (flashStart (cmdWritten s m v op) b) b = n := by
  have he : homeAddr (FLS_ECNT b) = 0x0601000 + 0x4 * b := homeAddr_below (by unfold FLS_ECNT; omega)
  have hret : fbit (flashStart (cmdWritten s m v op) b) (FLS_ECNT b) FLS_ECNT_RETIRED =
      fbit s (FLS_ECNT b) FLS_ECNT_RETIRED := by
    have hc : homeAddr FLS_CMD = 0x0600018 := homeAddr_below (by decide)
    have hs : homeAddr FLS_STAT = 0x0600014 := homeAddr_below (by decide)
    rw [fbit, fbit, fget_flashStart_cmdWritten (by omega) (by omega)]
  rcases h with ⟨hr, rfl⟩ | ⟨hr, rfl, hbank⟩
  · exact flashRefused_retired (hret.trans hr)
  · refine flashRefused_protected (hret.trans hr) (activeFwBlock_of_bank ?_)
    rw [fget_flashStart_cmdWritten (by decide) (by decide)]
    exact hbank

theorem programStart_refused {n : Nat} (bad : Bool) (hn : n ≠ 0)
    (h : flashRefused (flashStart s (fget s FLS_CMD FLS_CMD_PAGE / 256)) (fget s FLS_CMD FLS_CMD_PAGE / 256) = n) :
    programStart s bad = flashEnd (flashStart s (fget s FLS_CMD FLS_CMD_PAGE / 256)) n := by
  subst h
  exact if_pos hn

theorem eraseStart_refused {n : Nat} (hn : n ≠ 0)
    (h : flashRefused (flashStart s (fget s FLS_CMD FLS_CMD_PAGE / 256)) (fget s FLS_CMD FLS_CMD_PAGE / 256) = n) :
    eraseStart s = flashEnd (flashStart s (fget s FLS_CMD FLS_CMD_PAGE / 256)) n := by
  subst h
  exact if_pos hn

/-- A page read ends at once with RESULT 0, whatever its block is (R429, R434). -/
theorem pageRead_ends (s : State) (ce ue weak : BitVec 16) : ∃ u, pageRead s ce ue weak = flashEnd u 0 := ⟨_, rfl⟩

/-! ### Recorders and pulses -/

theorem exec_flashProgramPulseDone_runs {j : FlsJob} (hj : s.fls.job = some j) (ho : j.op = 1) (b : Bool) :
    exec (.flashProgramPulseDone b) s = .next (programPulse s j b) := by
  show execFlashProgramPulseDone b s = _
  simp only [execFlashProgramPulseDone, hj, if_pos ho]

theorem exec_flashErasePulseDone_runs {j : FlsJob} (hj : s.fls.job = some j) (ho : j.op = 2) (b : Bool) :
    exec (.flashErasePulseDone b) s = .next (erasePulse s j b) := by
  show execFlashErasePulseDone b s = _
  simp only [execFlashErasePulseDone, hj, if_pos ho]

end Sys2Proof.Machine

open Sys2Proof Sys2Proof.Machine

/-- Settles O12: a refused operation ends with what refuses it, a read with 0. -/
theorem retiredAndProtectedBlocks : Obligations.RetiredAndProtectedBlocks := by
  unfold Obligations.RetiredAndProtectedBlocks
  intro m v s hr hb hd
  refine ⟨fun x n h => ?_, fun ce ue weak => ?_⟩
  · have hlt : getF v FLS_CMD_PAGE / 256 < 512 := Nat.div_lt_of_lt_mul (getF_lt v FLS_CMD_PAGE)
    have hn : n ≠ 0 ∧ n < 8 := by omega
    have hend (op : Nat) := flashEnd_facts (flashStart (cmdWritten s m v op) (getF v FLS_CMD_PAGE / 256)) hn.2
    simp only [flashStart_cmdWritten_fls] at hend
    have href := flashRefused_started (m := m) (v := v) hlt h
    refine List.forall_mem_cons.2 ⟨⟨_, exec_flashProgram_starts hr hb hd x, ?_⟩,
      List.forall_mem_singleton.2 ⟨_, exec_flashErase_starts hr hb hd, ?_⟩⟩
    · rw [programStart_refused x hn.1 (by rw [cmdWritten_page]; exact href 1), cmdWritten_page]
      exact hend 1
    · rw [eraseStart_refused hn.1 (by rw [cmdWritten_page]; exact href 2), cmdWritten_page]
      exact hend 2
  · obtain ⟨u, hu⟩ := pageRead_ends (cmdWritten s m v 3) ce ue weak
    obtain ⟨hres, hbusy, hdone, -⟩ := flashEnd_facts u (r := 0) (by decide)
    exact ⟨_, (exec_flashPageRead_starts hr hb hd ce ue weak).trans (congrArg _ hu), hres, hbusy, hdone⟩

/-- Settles O59: sources by their levels, the recorders' and the flash registers by their writes, pulses by the job they end. -/
theorem eventsTailsAndFlash : Obligations.EventsTailsAndFlash := by
  unfold Obligations.EventsTailsAndFlash
  refine ⟨fun n s => exec_eventSourceRise_rises, fun n s => exec_eventSourceRise_stays, fun m n v s hr => exec_regWrite rfl hr rfl,
    fun s h => congrArg Host.Outcome.next (if_pos h), fun s h => congrArg Host.Outcome.next (if_neg (ne_true_of_eq_false h)),
    fun m r b s hr => exec_regWrite rfl hr rfl, fun m r b s hr => exec_regWrite rfl hr rfl,
    fun m v b s hr hb hd => exec_flashProgram_starts hr hb hd b, fun m v s => exec_flashErase_starts,
    fun m v ce ue weak s hr hb hd => exec_flashPageRead_starts hr hb hd ce ue weak,
    fun m v s hr hb => exec_flashErase_held hr (.inl hb), fun m v s hr hd => exec_flashErase_held hr (.inr hd),
    fun j b s hj ho => exec_flashProgramPulseDone_runs hj ho b, fun j b s hj ho => exec_flashErasePulseDone_runs hj ho b⟩

end

section
/-! The mailbox channels' registers and the messages that a Ridge core takes from them (R407 to R415). -/
namespace Sys2Proof.Machine
open Sys2Proof

variable {s : State} {m : Master} {c : Fin 64} {v : Word}

/-! ### Channel registers -/

/-- A sender's data word is stored (R411). -/
theorem exec_mbxDataWrite_sender (h : mbxSender s m c = true) (i : Fin 16) (v : Word) :
    exec (.mbxDataWrite m c i v) s = .next (mbxPut s c i v) := by
  refine congrArg Host.Outcome.next ((mbxChWrite_entitled ((mbxRight_data s m c i v).trans h)).trans ((if_pos (by omega)).trans ?_))
  rw [Nat.mul_div_cancel_left _ (by decide)]

/-- A ring of a channel that shows no abort sets doorbell bits (R410). -/
theorem mbxRing_rings (h : fbit s (MBX_CH_STAT c) MBX_CH_STAT_ABT = false) (v : Word) :
    mbxRing s c v = mbxChange s c fun t => wr t (MBX_CH_DB c) (rd t (MBX_CH_DB c) ||| v) :=
  if_neg (ne_true_of_eq_false h)

theorem exec_mbxDbSet_sender (h : mbxSender s m c = true) (v : Word) : exec (.mbxDbSet m c v) s = .next (mbxRing s c v) :=
  congrArg Host.Outcome.next (mbxChWrite_entitled ((mbxRight_ring s m c v).trans h))

theorem exec_mbxDbClear_receiver (h : mbxReceiver s m c = true) (v : Word) : exec (.mbxDbClear m c v) s =
    .next (mbxChange s c fun t => wr t (MBX_CH_DB c) (rd t (MBX_CH_DB c) &&& ~~~ v)) :=
  congrArg Host.Outcome.next (mbxChWrite_entitled ((mbxRight_clear s m c v).trans h))

/-- An unlocked binding takes two different identities that it may name, from a master that may write it (R408). -/
theorem mbxBindWrite_binds (hm : mayBind m = true) (hl : fbit s MBX_CTRL MBX_CTRL_LOCK = false)
    (hx : bindId (getF v MBX_BIND_SENDER) = true) (hy : bindId (getF v MBX_BIND_RECEIVER) = true)
    (hne : getF v MBX_BIND_SENDER ≠ getF v MBX_BIND_RECEIVER) : mbxBindWrite s m c v =
      fset (fset s (MBX_BIND c) MBX_BIND_SENDER (getF v MBX_BIND_SENDER)) (MBX_BIND c) MBX_BIND_RECEIVER
        (getF v MBX_BIND_RECEIVER) :=
  if_neg (by simp [hm, hl, hx, hy, hne])

theorem mbxBindWrite_refused (h : mayBind m = false ∨ fbit s MBX_CTRL MBX_CTRL_LOCK = true) : mbxBindWrite s m c v = s := by
  refine if_pos ?_
  rcases h with h | h <;> simp [h]

/-- The reset of a party that receives on some channel (R413). -/
theorem partyReset_receives {party : Nat} {l : List Nat}
    (hl : ((rangeFrom 0 64).filter fun c => mbxBound s c && fget s (MBX_BIND c) MBX_BIND_RECEIVER == party) = l) (h : l ≠ []) :
    partyReset s party = evtSet (forAll l s mbxClear) .mbx MBX_EVT_ABORT := by
  subst hl
  exact if_neg h

/-! ### Requests -/

/-- A request that waits in a channel is acted on with its message bit cleared (R414). -/
theorem exec_mbxTake {e : Instr} {op : Nat} {mopc : Nat → Bool} {f : State → Master → List Nat → State} {t : State}
    (he : exec e s = .next (mbxTake s c mopc f)) (ha : Asked s c op m = true) (ho : mopc op = true)
    (hf : f (mbxChange s c fun t => wbit t (MBX_CH_DB c) 0 false) m (mbxBytes s c) = t) : exec e s = .next t := by
  rw [he, mbxTake_asked ha ho, hf]

end Sys2Proof.Machine

open Sys2Proof Sys2Proof.Machine

/-- Settles O57: channel registers by the right to them, bindings by who writes them, a reset by the channels it clears. -/
theorem mailboxRegisters : Obligations.MailboxRegisters := by
  unfold Obligations.MailboxRegisters
  refine ⟨fun m c i v s h => exec_mbxDataWrite_sender h i v, fun m c i v s h => exec_mbxDataWrite_unentitled h i v, ?ring,
    fun m c v s h => exec_mbxDbClear_receiver h v, fun m c v s h => exec_mbxDbClear_unentitled h v, ?bound, ?notBound,
    fun m s hr => exec_regWrite rfl hr rfl, ?party, ?clockLow⟩
  case ring => exact fun m c v s h ha => (exec_mbxDbSet_sender h v).trans (congrArg _ (mbxRing_rings ha v))
  case bound =>
    exact fun m c v s hm hl hx hy hne => congrArg Host.Outcome.next (mbxBindWrite_binds hm hl hx hy hne)
  case notBound => exact fun m c v s h => congrArg Host.Outcome.next (mbxBindWrite_refused h)
  case party => exact fun m l s hl h => congrArg Host.Outcome.next (partyReset_receives hl h)
  case clockLow => exact fun l s hl h => congrArg Host.Outcome.next (partyReset_receives hl h)

/-- Settles O58: an MCTP message by its operation byte, a request by its code, the right to QCS and the range it names. -/
theorem mailboxMessages : Obligations.MailboxMessages := by
  unfold Obligations.MailboxMessages
  refine ⟨fun l s h => congrArg Host.Outcome.next (if_neg h), fun l s h => congrArg Host.Outcome.next (if_pos h), ?closed, ?read,
    ?written, fun c m s ha => exec_mbxTake rfl ha rfl rfl, fun c m s ha => exec_mbxTake rfl ha rfl rfl, ?page, ?noPage,
    fun c m s ha => exec_mbxTake rfl ha rfl rfl⟩
  case closed => exact fun c m s ha hq => exec_mbxTake rfl ha rfl (if_pos (by rw [hq]; rfl))
  case read =>
    exact fun c m s ha hq h1 h15 =>
      exec_mbxTake rfl ha rfl ((if_neg (by rw [hq]; decide)).trans (if_neg (by omega)))
  case written =>
    exact fun c m s ha hq h1 h13 =>
      exec_mbxTake rfl ha rfl ((if_neg (by rw [hq]; decide)).trans (if_neg (by omega)))
  case page =>
    intro c m l s ha hp h4 hl
    refine exec_mbxTake rfl ha rfl ?_
    simp only [hp]
    exact if_neg (by omega)
  case noPage =>
    intro c m s ha hp
    refine exec_mbxTake rfl ha rfl ?_
    simp only [hp]

end

section
/-! The words of the sequencers: the word a formatter or a thread reads, and the arithmetic of a formatter (R365, R367). -/
namespace Sys2Proof.Machine
open Sys2Proof

variable {s : State} {w : Nat}

/-! ### The word that is read -/

/-- A running formatter executes the word at its PC, where it is of the kind asked for. -/
theorem fRun_reads {f : Nat} {ok : Nat → Bool} (hr : fRuns s f = true) (hw : fWord s (fPc s f) = some w) (hk : ok w = true)
    (g : Nat → State) : fRun s f ok g = g w := by
  unfold fRun
  simp only [hr, hw, hk, if_true]

/-- The thread whose turn it is issues the word at its PC, where it is of the kind asked for (R365). -/
theorem zRun_reads {z t : Nat} {ok : Nat → Bool} (ht : zPick s z = some t) (hw : zWord s (zthread s z t).pc = some w)
    (hk : ok w = true) (g : State → Nat → Nat → State) : zRun s z ok g = g (zIssue s z t) t w := by
  unfold zRun
  simp only [ht, hw, hk, if_true]

/-! ### Arithmetic -/

section
variable {f : Fin 64} (hr : fRuns s f = true) (hw : fWord s (fPc s f) = some w)
include hr hw

/-- A word that changes a formatter's registers and flags alone. -/
theorem regWord_reads {ok : Nat → Bool} (hk : ok w = true) (h : Nat → Nat → Nat → MRegs → MRegs) :
    regWord (.f f) ok h s = fNext (setFseq s f (onF (h 16 w (freeVal s)))) f (fPc s f + 1) :=
  fRun_reads hr hw hk _

theorem ldi_reads (ho : mOp w = 1) :
    exec (.ldi (.f f)) s = .next (fNext (setFseq s f (onF (gSet (mD w) (mImm w)))) f (fPc s f + 1)) :=
  congrArg Host.Outcome.next (regWord_reads (ok := fun w => mOp w == 1) hr hw (beq_iff_eq.2 ho) _)

theorem ldh_reads (ho : mOp w = 2) :
    exec (.ldh (.f f)) s = .next (fNext (setFseq s f (onF (ldh 16 w))) f (fPc s f + 1)) :=
  congrArg Host.Outcome.next (regWord_reads (ok := fun w => mOp w == 2) hr hw (beq_iff_eq.2 ho) fun k w _ => ldh k w)

variable {fn : Nat} (hop : mOp w = 3) (hfn : w % 16 = fn)
include hop hfn

theorem aluWord_reads : aluWord fn (.f f) s = fNext (setFseq s f (onF (aluOp 16 w (freeVal s)))) f (fPc s f + 1) :=
  regWord_reads hr hw (by rw [hop, hfn, beq_self_eq_true, beq_self_eq_true]; rfl) _

/-- An ALU word other than CMP and TST writes register d, and the flags of the value (R367). -/
theorem aluWord_writes (hd : fn ≠ 0xA ∧ fn ≠ 0xB) : aluWord fn (.f f) s = fNext (setFseq s f fun x =>
    let v := aluVal 16 fn (x.g.getD (mS w) 0) (x.g.getD (mT w) 0) x.cf (freeVal s)
    { x with g := x.g.modify (mD w) fun _ => v.1, zf := decide (v.1 = 0), cf := v.2, nf := decide (2 ^ 15 ≤ v.1) })
      f (fPc s f + 1) := by
  have h : ¬(fn = 0xA ∨ fn = 0xB) := by omega
  rw [aluWord_reads hr hw hop hfn]
  unfold onF aluOp
  simp only [hfn, if_neg h]
  rfl

/-- CMP and TST write flags only (R367). -/
theorem aluWord_compares (hd : fn = 0xA ∨ fn = 0xB) : aluWord fn (.f f) s = fNext (setFseq s f fun x =>
    let v := aluVal 16 fn (x.g.getD (mS w) 0) (x.g.getD (mT w) 0) x.cf (freeVal s)
    { x with zf := decide (v.1 = 0), cf := v.2, nf := decide (2 ^ 15 ≤ v.1) }) f (fPc s f + 1) := by
  rw [aluWord_reads hr hw hop hfn]
  unfold onF aluOp
  simp only [hfn, if_pos hd]
  rfl

end

end Sys2Proof.Machine

open Sys2Proof Sys2Proof.Machine

/-- Settles O52: every ALU word writes the value of its function and its flags, but for CMP and TST, which write flags alone. -/
theorem arithmeticWords : Obligations.ArithmeticWords := by
  unfold Obligations.ArithmeticWords
  refine ⟨fun f w s => ldi_reads, fun f w s => ldh_reads, ?_, ?_, ?_, ?_, ?_, ?_, ?_, ?_, ?shl, ?shr, ?cmp, ?tst, ?_, ?_, ?_, ?_⟩
  case cmp | tst =>
    exact fun f w s hr hw ho hf => congrArg Host.Outcome.next (aluWord_compares hr hw ho hf (by decide))
  case shl | shr =>
    exact fun f w s hr hw ho hf => congrArg (fun t => Host.Outcome.next (drawn t)) (aluWord_writes hr hw ho hf (by decide))
  all_goals
    exact fun f w s hr hw ho hf => congrArg Host.Outcome.next (aluWord_writes hr hw ho hf (by decide))

end

section
/-! The control, memory and flow words of the sequencers (R366 to R370, R375, R376). -/
namespace Sys2Proof.Machine
open Sys2Proof

variable {s : State} {w : Nat}

theorem isCtl_of {k : Nat} (ho : mOp w = 0) (hd : mD w = k) : isCtl k w = true := by
  rw [isCtl, ho, hd, beq_self_eq_true, beq_self_eq_true]
  rfl

theorem isMem_of {l : Nat} (ho : mOp w = 0xD) (hl : w / 2 ^ 15 % 2 = l) : isMem l w = true := by
  rw [isMem, ho, hl, beq_self_eq_true, beq_self_eq_true]
  rfl

/-- A command for a formatter's word does what the word that is read says. -/
theorem exec_fWord {e : Instr} {f : Nat} {ok : Nat → Bool} {g : Nat → State} {t : State}
    (he : exec e s = .next (fRun s f ok g)) (hr : fRuns s f = true) (hw : fWord s (fPc s f) = some w) (hk : ok w = true)
    (hg : g w = t) : exec e s = .next t := by
  rw [he, fRun_reads hr hw hk, hg]

/-- The same for a word of the thread whose turn it is. -/
theorem exec_zWord {e : Instr} {z t : Nat} {ok : Nat → Bool} {g : State → Nat → Nat → State} {u : State}
    (he : exec e s = .next (zRun s z ok g)) (ht : zPick s z = some t) (hw : zWord s (zthread s z t).pc = some w)
    (hk : ok w = true) (hg : g (zIssue s z t) t w = u) : exec e s = .next u := by
  rw [he, zRun_reads ht hw hk, hg]

/-- A command that draws a free value whatever its word makes of it. -/
theorem exec_fWord_drawn {e : Instr} {f : Nat} {ok : Nat → Bool} {g : Nat → State} {t : State}
    (he : exec e s = .next (drawn (fRun s f ok g))) (hr : fRuns s f = true) (hw : fWord s (fPc s f) = some w)
    (hk : ok w = true) (hg : g w = t) : exec e s = .next (drawn t) := by
  rw [he, fRun_reads hr hw hk, hg]

theorem exec_zWord_drawn {e : Instr} {z t : Nat} {ok : Nat → Bool} {g : State → Nat → Nat → State} {u : State}
    (he : exec e s = .next (drawn (zRun s z ok g))) (ht : zPick s z = some t) (hw : zWord s (zthread s z t).pc = some w)
    (hk : ok w = true) (hg : g (zIssue s z t) t w = u) : exec e s = .next (drawn u) := by
  rw [he, zRun_reads ht hw hk, hg]

/-- A command for a word that changes registers and flags alone. -/
theorem exec_regWord {e : Instr} {f : Fin 64} {ok : Nat → Bool} {h : Nat → Nat → Nat → MRegs → MRegs}
    (he : exec e s = .next (regWord (.f f) ok h s)) (hr : fRuns s f = true) (hw : fWord s (fPc s f) = some w)
    (hk : ok w = true) : exec e s = .next (fNext (setFseq s f (onF (h 16 w (freeVal s)))) f (fPc s f + 1)) :=
  exec_fWord he hr hw hk rfl

section
variable {f : Fin 64} {p : Nat} {l : List Nat} {i j : FInstr} {q : List FInstr} (hr : fRuns s f = true)
  (hw : fWord s (fPc s f) = some w)
include hr hw

/-! ### Returns and dispatch -/

theorem exec_ret_pops (ho : mOp w = 0) (hd : mD w = 1) (hst : (fseqOf s f).stack = p :: l) :
    exec (.ret (.f f)) s = .next (fNext (setFseq s f fun x => { x with stack := l }) f p) :=
  exec_fWord rfl hr hw (isCtl_of ho hd) (by simp only [hst])

/-- A return with an empty stack is a fault (Table 15-4). -/
theorem exec_ret_empty (ho : mOp w = 0) (hd : mD w = 1) (hst : (fseqOf s f).stack = []) :
    exec (.ret (.f f)) s = .next (fFault s f 4) :=
  exec_fWord rfl hr hw (isCtl_of ho hd) (by simp only [hst])

theorem exec_disp_idle (ho : mOp w = 0) (hd : mD w = 2) (hq : (fseqOf s f).queue = []) :
    exec (.disp (.f f)) s = .next (fNext s f (fPc s f + 1)) :=
  exec_fWord rfl hr hw (isCtl_of ho hd) (by simp only [hq])

section
variable (ho : mOp w = 0) (hd : mD w = 2) (hq : (fseqOf s f).queue = i :: q)
  (hj : { i with alone := if i.alone.isEmpty then aloneLanes s f i else i.alone } = j)
include ho hd hq hj

/-- While the course is held on its present tracks a dispatch that needs a seek is held (R171, R172). -/
theorem exec_disp_held (hc : (courseHeld s f && needsSeek s f j) = true) : exec (.disp (.f f)) s = .next s := by
  subst hj
  refine exec_fWord rfl hr hw (isCtl_of ho hd) ?_
  simp only [hq]
  exact if_pos hc

/-- A dispatch pops an instruction into G12 to G15 and seeks where the instruction's tracks ask for it (R370). -/
theorem exec_disp_pops (hc : (courseHeld s f && needsSeek s f j) = false) : exec (.disp (.f f)) s = .next (
    let u := setFseq (if needsSeek s f j then seekTo s f j else s) f fun x =>
      { x with g := x.g.take 12 ++ [i.lo % 2 ^ 16, i.lo / 2 ^ 16 % 2 ^ 16, i.hi % 2 ^ 16, i.hi / 2 ^ 16 % 2 ^ 16]
               queue := q, cur := some j, lastDone := 0, wcur := [] }
    fNext (count (fset (fset u (MCS_FSEQ_W0 f) MCS_FSEQ_W0_STATE 0) (MCS_FSEQ_W0 f) MCS_FSEQ_W0_OP (i.lo / 256 % 256))
      (MCS_FSEQ_W2 f) 1 .mcs MCS_EVT_SAT) f (i.lo / 256 % 256)) := by
  subst hj
  refine exec_fWord rfl hr hw (isCtl_of ho hd) ?_
  simp only [hq]
  exact if_neg (ne_true_of_eq_false hc)

end

/-! ### Halts and ends -/

theorem exec_haltpt_halts (ho : mOp w = 0) (hd : mD w = 3)
    (hh : rbit s (MCS_F_HALT_LO + 4 * (f.val / 32)) (f.val % 32) = true) :
    exec (.haltpt (.f f)) s = .next (fset s (MCS_FSEQ_W0 f) MCS_FSEQ_W0_STATE 2) :=
  exec_fWord rfl hr hw (isCtl_of ho hd) (if_pos hh)

theorem exec_haltpt_passes (ho : mOp w = 0) (hd : mD w = 3)
    (hh : rbit s (MCS_F_HALT_LO + 4 * (f.val / 32)) (f.val % 32) = false) :
    exec (.haltpt (.f f)) s = .next (fNext s f (fPc s f + 1)) :=
  exec_fWord rfl hr hw (isCtl_of ho hd) (if_neg (ne_true_of_eq_false hh))

/-- The state in which an instruction that ends leaves the formatter: no instruction, no window, at the idle address. -/
def doneAt (s : State) (f : Nat) : State :=
  fNext (fset (fset (closeWindows (fSync (setFseq s f fun y => { y with cur := none }) f) f) (MCS_FSEQ_W0 f)
    MCS_FSEQ_W0_STATE 1) (MCS_FSEQ_W0 f) MCS_FSEQ_W0_OP 0) f 0x100

/-- The instruction's last head is done: its status returns to its thread (R367). -/
theorem exec_done_last (ho : mOp w = 0) (hd : mD w = 4) (hc : (fseqOf s f).cur = some i)
    (ha : i.alone.length ≤ 1) :
    exec (.done (.f f)) s = .next (doneAt (pushResult s i (f, (fseqOf s f).g.getD 0 0, true)) f) :=
  exec_fWord rfl hr hw (isCtl_of ho hd) (by simp only [hc, if_pos ha, doneAt])

/-- A course that is worked on one head at a time goes back to the queue for its next head (R160). -/
theorem exec_done_nextHead (ho : mOp w = 0) (hd : mD w = 4) (hc : (fseqOf s f).cur = some i)
    (ha : 2 ≤ i.alone.length) : exec (.done (.f f)) s = .next (doneAt (setFseq s f fun y =>
      { y with queue := { i with alone := i.alone.drop 1 } :: y.queue }) f) :=
  exec_fWord rfl hr hw (isCtl_of ho hd) (by simp only [hc, if_neg (Nat.not_le.2 ha), doneAt])

/-! ### Branches -/

section
variable {op : Nat} (ho : mOp w = op)
include ho

/-- A branch on a condition that does not stick leaves the latches. -/
theorem branch_plain (hs : fSticky (mD w) = false) (neg : Bool) : branch op neg (.f f) s =
    fNext s f (if fCond s f (mD w) != neg then brTarget (fPc s f) w else fPc s f + 1) := by
  refine (fRun_reads (ok := fun w => mOp w == op) hr hw (beq_iff_eq.2 ho) _).trans ?_
  simp only [hs, Bool.and_false, Bool.false_eq_true, if_false]

/-- A sticky condition found true is cleared by the branch that it takes (R368). -/
theorem branch_sticky (hs : fSticky (mD w) = true) (hc : fCond s f (mD w) = true) : branch op false (.f f) s =
    fNext (setFseq s f fun x => { x with latch := x.latch.filter (· != mD w) }) f (brTarget (fPc s f) w) := by
  refine (fRun_reads (ok := fun w => mOp w == op) hr hw (beq_iff_eq.2 ho) _).trans ?_
  simp only [hs, hc, Bool.and_self, Bool.true_bne, Bool.not_false, if_true]

end

theorem exec_brc_plain (ho : mOp w = 4) (hs : fSticky (mD w) = false) : exec (.brc (.f f)) s =
    .next (fNext s f (if fCond s f (mD w) then brTarget (fPc s f) w else fPc s f + 1)) := by
  refine congrArg Host.Outcome.next ((branch_plain hr hw ho hs false).trans ?_)
  rw [Bool.bne_false]

theorem exec_brn_plain (ho : mOp w = 5) (hs : fSticky (mD w) = false) : exec (.brn (.f f)) s =
    .next (fNext s f (if fCond s f (mD w) then fPc s f + 1 else brTarget (fPc s f) w)) := by
  refine congrArg Host.Outcome.next ((branch_plain hr hw ho hs true).trans ?_)
  cases fCond s f (mD w) <;> rfl

/-- A call with room on the stack; beyond its depth of 4 it is a fault (R370). -/
theorem exec_call_pushes (ho : mOp w = 7) (hl : (fseqOf s f).stack.length < 4) : exec (.call (.f f)) s =
    .next (fNext (setFseq s f fun x => { x with stack := (fPc s f + 1) :: x.stack }) f (mAddr w)) :=
  exec_fWord rfl hr hw (beq_iff_eq.2 ho) (if_neg (Nat.not_le.2 hl))

theorem exec_call_overflows (ho : mOp w = 7) (hl : 4 ≤ (fseqOf s f).stack.length) :
    exec (.call (.f f)) s = .next (fFault s f 4) :=
  exec_fWord rfl hr hw (beq_iff_eq.2 ho) (if_pos hl)

/-! ### Memory and illegal words -/

theorem exec_memLoad_reads (ho : mOp w = 0xD) (hl : w / 2 ^ 15 % 2 = 1) : exec (.memLoad (.f f)) s =
    .next (drawn (fNext (setFseq s f fun x => onF (gSet (w / 2 ^ 11 % 16)
      (tabGet (freeVal s % 2 ^ 16) x.scratch (w % 2 ^ 11))) x) f (fPc s f + 1))) :=
  exec_fWord_drawn rfl hr hw (isMem_of ho hl) rfl

/-- An illegal word past the dispatch entries is fault 1, bad parity fault 5 (R376). -/
theorem exec_illegalMicroword_illegal (hi : illegalWord true w = true) (hp : 0x100 ≤ fPc s f) :
    exec (.illegalMicroword (.f f) false) s = .next (fFault s f 1) :=
  exec_fWord rfl hr hw hi (congrArg (fFault s f) (if_neg (Nat.not_lt.2 hp)))

end

/-! ### Threads -/

section
variable {z : Fin 8} {t a : Nat} {l : List SecWork} (ht : zPick s z = some t)
  (hw : zWord s (zthread s z t).pc = some w) (ho : mOp w = 0xE) (ha : w / 2 ^ 6 % 64 = a)
include ht hw ho ha

/-- An instruction goes into the queue of a formatter that has room (R366). -/
theorem exec_send_queues (hq : qRoom (zIssue s z t) a = true) : exec (.send z l) s =
    .next (drawn (zNext (fSync (setFseq (zIssue s z t) a fun y =>
      { y with queue := y.queue ++ [⟨(zthread (zIssue s z t) z t).g.getD (mD w) 0,
        (zthread (zIssue s z t) z t).g.getD (mD w + 1) (freeVal (zIssue s z t) % 2 ^ 32), z, t, l, []⟩] }) a) z t
          ((zthread (zIssue s z t) z t).pc + 1))) := by
  subst ha
  exact exec_zWord_drawn rfl ht hw (beq_iff_eq.2 ho) (if_pos hq)

/-- The thread waits while that queue is full. -/
theorem exec_send_waits (hq : qRoom (zIssue s z t) a = false) : exec (.send z l) s =
      .next (drawn (zSync (setThread (zIssue s z t) z t fun x => { x with wait := some (.room a) }) z)) := by
  subst ha
  exact exec_zWord_drawn rfl ht hw (beq_iff_eq.2 ho) (if_neg (ne_true_of_eq_false hq))

end

/-- A wait that runs out sets C, and the thread is ready (R367). -/
theorem exec_waitTimeout_expires {z : Fin 8} {t : Fin 64} {c n : Nat} (hwait : (zthread s z t).wait = some (.cond c n))
    (hn : n ≠ 0) (hb : threadBusy (zthread s z t) = true) (hc : zCond s z t c = false) :
    exec (.waitTimeout z t) s = .next (zSync (setThread s z t fun x => { x with wait := none, cf := true }) z) := by
  show execWaitTimeout z t s = _
  simp only [execWaitTimeout, hwait]
  exact congrArg Host.Outcome.next (if_pos ⟨hn, hb, by rw [hc]; rfl⟩)

end Sys2Proof.Machine

open Sys2Proof Sys2Proof.Machine

/-- Settles O53: each word by its kind, and a word with two ends by the stack, the queue, the halt or the condition. -/
theorem controlWords : Obligations.ControlWords := by
  unfold Obligations.ControlWords
  refine ⟨?nop, fun f w p l s => exec_ret_pops, fun f w s => exec_ret_empty, fun f w s => exec_disp_idle,
    fun f w i j l s => exec_disp_held, fun f w i j l s => exec_disp_pops, fun f w s => exec_haltpt_halts,
    fun f w s => exec_haltpt_passes, fun f w i s => exec_done_last, fun f w i s => exec_done_nextHead,
    fun f w s => exec_brc_plain, fun f w s => exec_brn_plain, ?sticky, ?jmp, fun f w s => exec_call_pushes,
    fun f w s => exec_call_overflows, ?dly, ?wait, fun z t c n s => exec_waitTimeout_expires, fun f w s => exec_memLoad_reads,
    ?store, fun z t w a l s => exec_send_queues, fun z t w a l s => exec_send_waits,
    fun f w s => exec_illegalMicroword_illegal, ?parity, ?zoneJmp, ?zoneDone⟩
  case nop => exact fun f w s hr hw ho hd => exec_regWord (h := fun _ _ _ r => r) rfl hr hw (isCtl_of ho hd)
  case sticky =>
    exact fun f w s hr hw ho hs hc => congrArg Host.Outcome.next (branch_sticky hr hw ho hs hc)
  case jmp => exact fun f w s hr hw ho => exec_fWord rfl hr hw (beq_iff_eq.2 ho) rfl
  case dly => exact fun f w s hr hw ho => exec_regWord (h := fun _ _ _ r => r) rfl hr hw (beq_iff_eq.2 ho)
  case wait => exact fun z t w s ht hw ho => exec_zWord rfl ht hw (beq_iff_eq.2 ho) rfl
  case store => exact fun f w s hr hw ho hl => exec_fWord rfl hr hw (isMem_of ho hl) rfl
  case parity => exact fun f w s hr hw => exec_fWord rfl hr hw rfl rfl
  case zoneJmp => exact fun z t w s ht hw ho => exec_zWord rfl ht hw (beq_iff_eq.2 ho) rfl
  case zoneDone => exact fun z t w s ht hw ho hd => exec_zWord rfl ht hw (isCtl_of ho hd) rfl

end

section
/-! The port words of the sequencers (R380, Tables 15-8). -/
namespace Sys2Proof.Machine
open Sys2Proof

variable {s : State} {w v : Nat}

/-! ### Formatter ports -/

theorem outPort_is {l : List Nat} {p : Nat} (h : outPort l w = some (p, v)) :
    ((outPort l w).any fun o => o.1 == p) = true := by
  rw [h]
  exact beq_self_eq_true p

section
variable {f : Fin 64} (hr : fRuns s f = true) (hw : fWord s (fPc s f) = some w)
include hr hw

/-- An OUT word to a formatter's port has the port's effect with the value sent. -/
theorem fOut_sends {p : Nat} (ho : outPort (fseqOf s f).g w = some (p, v)) (g : State → Nat → State) :
    fOut s f p g = fNext (g s v) f (fPc s f + 1) := by
  refine (fRun_reads (ok := fun w => (outPort (fseqOf s f).g w).any fun o => o.1 == p) hr hw (outPort_is ho) _).trans ?_
  simp only [ho, Option.map_some, Option.getD_some]

/-- The command for such a word. -/
theorem exec_fOut {e : Instr} {p : Nat} {g : State → Nat → State} {t : State} (he : exec e s = .next (fOut s f p g))
    (ho : outPort (fseqOf s f).g w = some (p, v)) (hg : g s v = t) : exec e s = .next (fNext t f (fPc s f + 1)) := by
  rw [he, fOut_sends hr hw ho, hg]

/-- An IN word of a formatter's port reads the port's value into register d. -/
theorem fIn_reads {p : Nat} (ho : mOp w = 9) (hp : w / 16 % 256 = p) (g : State → Nat × State) :
    fIn s f p g = fNext (setFseq (g s).2 f (onF (gSet (mD w) ((g s).1 % 2 ^ 16)))) f (fPc s f + 1) := by
  refine fRun_reads (ok := fun w => mOp w == 9 && w / 16 % 256 == p) hr hw ?_ _
  rw [ho, hp, beq_self_eq_true, beq_self_eq_true]
  rfl

theorem exec_fIn {e : Instr} {p : Nat} {g : State → Nat × State} {n : Nat} {t : State}
    (he : exec e s = .next (fIn s f p g)) (ho : mOp w = 9) (hp : w / 16 % 256 = p) (hg : g s = (n, t)) :
    exec e s = .next (fNext (setFseq t f (onF (gSet (mD w) (n % 2 ^ 16)))) f (fPc s f + 1)) := by
  rw [he, fIn_reads hr hw ho hp, hg]

/-- A request for WRITE flits while some of the last one pend is ignored. -/
theorem exec_portWflit_pends (ho : outPort (fseqOf s f).g w = some (0x03, v))
    (hp : (fseqOf (flushFlits s f) f).flitPend ≠ []) :
    exec (.portWflit f) s = .next (fNext (flushFlits s f) f (fPc s f + 1)) :=
  exec_fOut hr hw rfl ho (if_pos (by rw [Bool.not_eq_true', List.isEmpty_eq_false_iff]; exact hp))

/-- One WRITE flit of each lane is asked for (R380). -/
theorem exec_portWflit_asks (ho : outPort (fseqOf s f).g w = some (0x03, v))
    (hp : (fseqOf (flushFlits s f) f).flitPend = []) : exec (.portWflit f) s =
      .next (fNext (flushFlits (forAll (lanesOf (fseqOf (flushFlits s f) f).lanes) (flushFlits s f) fun s l =>
        wantFlit s f (v % 2 ^ 16) l) f) f (fPc s f + 1)) :=
  exec_fOut hr hw rfl ho (if_neg (by rw [hp]; decide))

/-- A final status of the sector that the instruction writes at SECT of a lane (R148). -/
theorem exec_portStatus_written {x : SecWork} (ho : outPort (fseqOf s f).g w = some (0x07, v)) (hl : v / 256 % 16 < 4)
    (h20 : 0x20 ≤ v % 256) (h23 : v % 256 ≤ 0x23) (hx : workAt s f (v / 256 % 16) true = some x) :
    exec (.portStatus f) s = .next (fNext (writeStatus s f (v / 256 % 16) (v % 256) x) f (fPc s f + 1)) := by
  refine exec_fOut hr hw rfl ho ((if_neg (Nat.not_le.2 hl)).trans ((if_pos ⟨h20, h23⟩).trans ?_))
  simp only [hx]

/-- The ladder of a lane's sector runs from the rung named, with none of its rungs still running (R143). -/
theorem exec_portRung_runs {x : Sector} (ho : outPort (fseqOf s f).g w = some (0x08, v)) (hl : v / 256 % 16 < 4)
    (hx : laneSector s (4 * f.val + v / 256 % 16) = some x)
    (hb : (x.ladder.isSome && s.det.jobs.any fun j => j.sec == x.id) = false) : exec (.portRung f) s =
      .next (fNext (settleDet (ladderGo ladderMost s x
        { (x.ladder.getD { ctrl := rd s (ACT_FMT_CTRL f), rungs := (rangeFrom 0 16).map (fun r => rd s (ACT_LAD f r)), rung := 0,
                           offs := [], rereads := 0, replayTo := none, noSample := false, relaxed := false, failAs := 8 })
          with rung := v % 16, offs := [], replayTo := none })) f (fPc s f + 1)) := by
  refine exec_fOut hr hw rfl ho ?_
  simp only [hl, hx, if_true]
  exact if_neg (ne_true_of_eq_false hb)

/-- The oldest decode result is read and goes; condition RES stays while one is left. -/
theorem exec_inRes_oldest {r : Nat × Nat} {l : List (Nat × Nat)} (ho : mOp w = 9) (hp : w / 16 % 256 = 0x12)
    (hq : (fseqOf s f).res = r :: l) : exec (.inRes f) s = .next (drawn (fNext (setFseq (setFseq s f fun y =>
      { y with res := l, latch := if l = [] then (fseqOf s f).latch.filter (· != 14)
                                  else 14 :: (fseqOf s f).latch.filter (· != 14) })
        f (onF (gSet (mD w) ((r.1 + 256 * r.2) % 2 ^ 16)))) f (fPc s f + 1))) := by
  refine congrArg (fun t => Host.Outcome.next (drawn t)) ((fIn_reads hr hw ho hp _).trans ?_)
  simp only [hq]

end

/-! ### Ports of the zone store -/

section
variable {z : Fin 8} {t : Nat} (ht : zPick s z = some t) (hw : zWord s (zthread s z t).pc = some w)
include ht hw

/-- An OUT word of the thread whose turn it is has the port's effect with the value sent. -/
theorem exec_zOut {e : Instr} {p : Nat} {g : State → Nat → Nat → State} {u : State} (he : exec e s = .next (zOut s z p g))
    (ho : outPort (zthread s z t).g w = some (p, v)) (hg : g (zIssue s z t) t v = u) :
    exec e s = .next (zNext u z t ((zthread (zIssue s z t) z t).pc + 1)) := by
  have h : zOut s z p g = zRun s z (fun w => (outPort (zthread s z t).g w).any fun o => o.1 == p) fun s' t' w =>
      zNext (g s' t' (((outPort (zthread s z t).g w).map (·.2)).getD 0)) z t' ((zthread s' z t').pc + 1) := by
    unfold zOut
    simp only [ht]
  rw [he, h, zRun_reads ht hw (outPort_is ho), ho, ← hg]
  rfl

/-- The state in which the request of value `v` on port `p` stands for thread `t`. -/
def requested (s : State) (z t p v : Nat) : State :=
  setThread s z t fun x => { x with reqs := (p, v) :: x.reqs.filter fun r => r.1 != p }

/-- A request on a port on which none of the thread's stands. -/
theorem exec_request {e : Instr} {p : Nat} {c : Cmd} {pend : State → Nat → Cmd → Bool} {g : Nat → State → Cmd → State}
    {u : State} (he : exec e s = .next (zOut s z p fun s t v => request s z t p v (pend s t) (g v)))
    (ho : outPort (zthread s z t).g w = some (p, v))
    (hc : cmdOfThread (zIssue s z t) (zthread (zIssue s z t) z t) = some c)
    (hs : (standing (zIssue s z t) z t p).isSome = false) (hg : g v (requested (zIssue s z t) z t p v) c = u) :
    exec e s = .next (zNext u z t ((zthread (zIssue s z t) z t).pc + 1)) := by
  refine exec_zOut ht hw he ho ?_
  unfold request
  simp only [hc, hs, Bool.false_and, Bool.false_eq_true, if_false]
  exact hg

/-- A row is encoded by an engine that is free (R241). -/
theorem exec_portEncode_encodes {k : Fin 4} {c : Cmd} {u : Nat} (ho : outPort (zthread s z t).g w = some (0x4D, v))
    (hc : cmdOfThread (zIssue s z t) (zthread (zIssue s z t) z t) = some c) (he : engineFree (zIssue s z t) k = true)
    (hu : nsThatch (zIssue s z t) c.nsid = some u) : exec (.portEncode z k) s =
      .next (zNext (count (encodeRow (zIssue s z t) c u v) (THT_CNT k 0) 1 (.tht k) THT_EVT_SAT) z t
        ((zthread (zIssue s z t) z t).pc + 1)) := by
  refine exec_zOut ht hw rfl ho ?_
  simp only [hc, he, hu, Bool.not_true, Bool.false_eq_true, if_false]

/-- An IN word of a thread that works for a command reads what the port gives of the command. -/
theorem exec_zIn {e : Instr} {p n : Nat} {c : Cmd} {g : Cmd → Nat} (h : exec e s = .next (zIn s z p g)) (ho : mOp w = 9)
    (hp : w / 16 % 256 = p) (hc : cmdOfThread (zIssue s z t) (zthread (zIssue s z t) z t) = some c) (hg : g c = n) :
    exec e s = .next (drawn (zNext (setThread (zIssue s z t) z t (onZ (gSet (mD w) (n % 2 ^ 32)))) z t
      ((zthread (zIssue s z t) z t).pc + 1))) := by
  subst hg
  refine exec_zWord_drawn h ht hw ?_ ?_
  · rw [ho, hp, beq_self_eq_true, beq_self_eq_true]
    rfl
  · simp only [hc]

end

end Sys2Proof.Machine

open Sys2Proof Sys2Proof.Machine

/-- Settles O54: a formatter's ports by what they do with the value, a thread's by the request that they stand for. -/
theorem portWords : Obligations.PortWords := by
  unfold Obligations.PortWords
  refine ⟨?_, ?_, ?_, ?flitsPend, ?flits, ?_, ?_, ?_, ?status, ?rung, ?admission, ?xfer, ?mirror, ?commit, ?commitFails, ?journal,
    ?encode, ?timer, ?unlistedOut, ?sect, ?track, ?res, ?sync, ?inh, ?wedge, ?_, ?_, ?_, ?_, ?_, ?unlistedIn⟩
  case flitsPend => exact fun f w v s => exec_portWflit_pends
  case flits => exact fun f w v s => exec_portWflit_asks
  case status => exact fun f w v x s hr hw ho hl h20 h23 hx => exec_portStatus_written hr hw ho hl h20 h23 hx
  case rung => exact fun f w v x s hr hw ho hl hx hb => exec_portRung_runs hr hw ho hl hx hb
  case admission | xfer | mirror | journal => exact fun z t w v c s ht hw ho hc hs => exec_request ht hw rfl ho hc hs rfl
  case commit =>
    exact fun z t w v c s ht hw ho hc hs h0 => exec_request ht hw rfl ho hc hs (if_pos (.inl h0))
  case commitFails =>
    exact fun z t w v c s ht hw ho hc hs h0 hf => exec_request ht hw rfl ho hc hs
      (if_neg (not_or.2 ⟨h0, by rw [hf]; decide⟩))
  case encode => exact fun z t w v k c u s ht hw ho hc he hu => exec_portEncode_encodes ht hw ho hc he hu
  case timer => exact fun z t w v s ht hw ho => exec_zOut ht hw rfl ho rfl
  case unlistedOut =>
    exact fun f w s hr hw ho hp => exec_regWord (h := fun _ _ _ r => r) rfl hr hw (by simpa [hp] using ho)
  case unlistedIn =>
    exact fun f w s hr hw ho hp => exec_regWord (h := fun _ w _ => gSet (mD w) 0) rfl hr hw (by simp [ho, hp])
  case sect | track | sync | inh | wedge =>
    exact fun f w s hr hw ho hp => exec_fIn hr hw rfl ho hp rfl
  case res => exact fun f w r l s hr hw ho hp hq => exec_inRes_oldest hr hw ho hp hq
  any_goals exact fun z t w c s ht hw ho hp hc => exec_zIn ht hw rfl ho hp hc rfl
  all_goals exact fun f w v s hr hw ho => exec_fOut hr hw rfl ho rfl

end

section
/-! Starting, halting, patching and restarting the sequencers (R366, R375, R377, R379). -/
namespace Sys2Proof.Machine
open Sys2Proof

variable {s : State} {m : Master}

/-- A fetched command that has no thread takes the lowest free one of its zone sequencer (R366). -/
theorem exec_zoneFlowStart_enters {x : HPort} {q i : BitVec 16} {c : Cmd} {t : Nat}
    (hc : findCmd s (portId x) q.toNat i.toNat = some c)
    (hn : ((rangeFrom 0 8).any fun y => (busyThreads s y).any fun t => t.2.cmd == some c.order) = false)
    (hz : zState s c.zseq < 2) (hm : mode s ≠ 0)
    (ht : (rangeFrom 0 64).find? (fun t => !threadBusy (zthread s c.zseq t)) = some t) :
    exec (.zoneFlowStart x q i) s =
      .next (zSync (setThread s c.zseq t fun _ => { cmd := some c.order, pc := zSubst s 0x100 }) c.zseq) := by
  have hbusy : ¬(2 ≤ zState s c.zseq ∨ mode s = 0) := by omega
  show execZoneFlowStart x q i s = _
  simp only [execZoneFlowStart, hc, hn, flowEnter, if_neg hbusy, ht, Option.map_some, Option.getD_some, Bool.false_eq_true,
    if_false]

/-! ### Writes of MCS -/

/-- A write of MCS acts for the holder of the claim (R379). -/
theorem exec_mcsWrite_holder {e : Instr} {a : Nat} {f : State → State} {t : State}
    (he : exec e s = .next (mcsWrite s m a f)) (hr : qcsReach s m a = true) (hh : holds s baseMCS m = true) (hf : f s = t) :
    exec e s = .next t :=
  exec_regWrite he hr ((if_pos hh).trans hf)

theorem exec_mcsWrite_other {e : Instr} {a : Nat} {f : State → State} (he : exec e s = .next (mcsWrite s m a f))
    (hr : qcsReach s m a = true) (hh : holds s baseMCS m = false) : exec e s = .next s :=
  exec_regWrite he hr (if_neg (ne_true_of_eq_false hh))

section
variable {e : Instr} {zone : Bool} {a : Nat} {f : State → State} (he : exec e s = .next (patchWrite s m zone a f))
  (hr : qcsReach s m a = true) (hh : holds s baseMCS m = true)
include he hr hh

/-- A patch acts while every sequencer of the store is halted, and is refused with an event otherwise (R375). -/
theorem exec_patchWrite_halted {t : State} (hz : storeHalted s zone = true) (hf : f s = t) : exec e s = .next t :=
  exec_mcsWrite_holder he hr hh ((if_pos hz).trans hf)

theorem exec_patchWrite_running (hz : storeHalted s zone = false) :
    exec e s = .next (evtSet s .mcs MCS_EVT_WR_REFUSED) :=
  exec_mcsWrite_holder he hr hh (if_neg (ne_true_of_eq_false hz))

end

theorem exec_patchRamWrite_zone (m : Master) (a : BitVec 11) (v : Word) (s : State) : exec (.patchRamWrite m true a v) s =
    .next (patchWrite s m true (MCS_ZPRAM a.toNat) fun s => wrN s (MCS_ZPRAM a.toNat) (v.toNat % 2 ^ 20)) :=
  congrArg Host.Outcome.next (if_pos rfl)

theorem exec_patchRamWrite_formatter {a : BitVec 11} (ha : a.toNat < 1024) (m : Master) (v : Word) (s : State) :
    exec (.patchRamWrite m false a v) s =
      .next (patchWrite s m false (MCS_FPRAM a.toNat) fun s => wrN s (MCS_FPRAM a.toNat) (v.toNat % 2 ^ 20)) :=
  congrArg Host.Outcome.next ((if_neg Bool.false_ne_true).trans (if_pos ha))

/-- A match register of the zone store takes a PATCH_ADDR inside the patch RAM (R375). -/
theorem exec_matchRegisterWrite_zone {i : Fin 32} {v : Word} (hr : qcsReach s m (MCS_ZMATCH i) = true)
    (hh : holds s baseMCS m = true) (hz : storeHalted s true = true) (hlo : 0x8000 ≤ getF v MCS_FMATCH_PATCH_ADDR)
    (hhi : getF v MCS_FMATCH_PATCH_ADDR < 0x8800) : exec (.matchRegisterWrite m true i v) s =
      .next (wrN s (MCS_ZMATCH i) (v.toNat / 2 ^ 16 * 2 ^ 16 + getF v MCS_FMATCH_PATCH_ADDR)) := by
  have he : exec (.matchRegisterWrite m true i v) s = .next (patchWrite s m true (MCS_ZMATCH i) fun s =>
      wrN s (MCS_ZMATCH i) (v.toNat / 2 ^ 16 * 2 ^ 16 +
        if 0x8000 ≤ getF v MCS_FMATCH_PATCH_ADDR ∧ getF v MCS_FMATCH_PATCH_ADDR < 0x8800 then getF v MCS_FMATCH_PATCH_ADDR
        else fget s (MCS_ZMATCH i) MCS_ZMATCH_PATCH_ADDR)) := congrArg Host.Outcome.next (if_pos rfl)
  exact exec_patchWrite_halted he hr hh hz (by rw [if_pos ⟨hlo, hhi⟩])

/-! ### Restarts -/

/-- The holder of the claim restarts a formatter that is halted or faulted (R377). -/
theorem exec_sequencerRestart_formatter {f : Fin 64} (hr : qcsReach s m (MCS_FSEQ_W3 f) = true)
    (hh : holds s baseMCS m = true) (hs : fState s f = 2 ∨ fState s f = 3) (ho : (isRidge m && !claimed s baseMCS) = false) :
    exec (.sequencerRestart m (.f f)) s = .next (fRestart s f) := by
  refine exec_regWrite rfl hr ((if_pos ?_).trans (if_neg ?_))
  · rcases hs with hs | hs <;> simp [hh, hs]
  · simp [ho]

/-- A restart of a formatter that runs is ignored (R377). -/
theorem exec_sequencerRestart_running {f : Fin 64} (hr : qcsReach s m (MCS_FSEQ_W3 f) = true) (h2 : fState s f ≠ 2)
    (h3 : fState s f ≠ 3) : exec (.sequencerRestart m (.f f)) s = .next s :=
  exec_regWrite rfl hr (if_neg (by simp [h2, h3]))

theorem exec_sequencerRestart_zone {z : Fin 8} (hr : qcsReach s m (MCS_ZSEQ_W3 z) = true) (hh : holds s baseMCS m = true)
    (hs : zState s z = 2 ∨ zState s z = 3) : exec (.sequencerRestart m (.z z)) s = .next (zRestart s z) := by
  refine exec_regWrite rfl hr (if_pos ?_)
  rcases hs with hs | hs <;> simp [hh, hs]

end Sys2Proof.Machine

open Sys2Proof Sys2Proof.Machine

/-- Settles O55: a write by who holds the claim and whether the store is halted, a restart by the sequencer's state. -/
theorem sequencerControl : Obligations.SequencerControl := by
  unfold Obligations.SequencerControl
  refine ⟨fun x q i c t s => exec_zoneFlowStart_enters, ?fHalt, ?zHalt, ?zmap, ?zHaltOther,
    fun m f s => exec_sequencerRestart_formatter, fun m f s => exec_sequencerRestart_running,
    fun m z s => exec_sequencerRestart_zone, ?patched, ?refused, ?patchedFormatter,
    fun m i v s => exec_matchRegisterWrite_zone⟩
  case fHalt => exact fun m k v s hr hh => exec_mcsWrite_holder rfl hr hh rfl
  case zHalt | zmap => exact fun m v s hr hh => exec_mcsWrite_holder rfl hr hh rfl
  case zHaltOther => exact fun m v s hr hh => exec_mcsWrite_other rfl hr hh
  case patched => exact fun m a v s hr hh hz => exec_patchWrite_halted (exec_patchRamWrite_zone m a v s) hr hh hz rfl
  case refused => exact fun m a v s hr hh hz => exec_patchWrite_running (exec_patchRamWrite_zone m a v s) hr hh hz
  case patchedFormatter =>
    exact fun m a v s ha hr hh hz => exec_patchWrite_halted (exec_patchRamWrite_formatter ha m v s) hr hh hz rfl

end

section
/-! Clocks, power domains, modes and resets (R322 to R343, R452, R454). -/
namespace Sys2Proof.Machine
open Sys2Proof

variable {s : State} {m : Master}

/-! ### Supplies and clocks -/

theorem exec_mainPgRise_good (hm : mode s = 0) (hv : s.pwr.vaon = true) (b : Bool) :
    exec (.mainPgRise b) s = .next (mainGood s b) :=
  congrArg Host.Outcome.next (if_neg (by simp [hm, hv]))

/-- A clean entry to WATCH marks the checkpoint so (R328). -/
theorem mainLoss_clean (hm : mode s ≠ 0) (hc : cleanEntry s = true) : mainLoss s =
    enterWatch (setFls s fun f => { f with ckpt := f.ckpt.map fun c => { c with clean := true } }) 7 :=
  (if_neg hm).trans (if_pos hc)

theorem mainLoss_unclean (hm : mode s ≠ 0) (hc : cleanEntry s = false) : mainLoss s = enterWatch s 2 :=
  (if_neg hm).trans (if_neg (ne_true_of_eq_false hc))

/-- An enabled wake source in WATCH is recorded, and the wake pin is pulled unless it is already (R328). -/
theorem exec_watchWakeSource_enabled {c : Fin 5} (hm : mode s = 0) (hv : s.pwr.vaon = true)
    (hw : bitOf (rd s PWR_WAKE_EN) c = true) : exec (.watchWakeSource c) s = .next (if s.pwr.wakeLow then
      wbit s PWR_AON_STAT (8 + c) true
      else emit (setPwr (wbit s PWR_AON_STAT (8 + c) true) fun w => { w with wakeLow := true }) (.pin 0 0)) :=
  congrArg Host.Outcome.next (if_neg (by simp [hm, hv, hw]))

/-- A PLL that loses lock outside WATCH (R323). -/
theorem pllUnlock_acts {k : Fin 17} (hm : mode s ≠ 0) (hb : bitOf (clkWord s) (pllBit k) = true) :
    ¬(mode s = 0 ∨ (!bitOf (clkWord s) (pllBit k)) = true) := by
  simp [hm, hb]

/-- A core PLL's loss resets the device (R323). -/
theorem exec_pllUnlock_core {k : Fin 17} (hm : mode s ≠ 0) (hb : bitOf (clkWord s) (pllBit k) = true) (hk : k.val < 4) :
    exec (.pllUnlock k) s = .next (deviceReset s 4) :=
  congrArg Host.Outcome.next ((if_neg (pllUnlock_acts hm hb)).trans (if_pos hk))

/-- A tether group's loss retrains its ports in lane mode (R323). -/
theorem exec_pllUnlock_tether {k : Fin 17} (hm : mode s ≠ 0) (hb : bitOf (clkWord s) (pllBit k) = true) (hlo : 8 ≤ k.val)
    (hhi : k.val < 16) : exec (.pllUnlock k) s = .next (forAll (rangeFrom (4 * (k.val - 8)) 4)
      (evtSet (wbit s PWR_CLK (pllBit k) false) .pwr PWR_EVT_PLL_UNLOCK) fun s p =>
        if laneMode s p then portRetrain s p else s) :=
  congrArg Host.Outcome.next ((if_neg (pllUnlock_acts hm hb)).trans ((if_neg (by omega)).trans ((if_neg (by omega)).trans
    (if_pos hhi))))

/-! ### Domains -/

/-- A domain that is blocked, or that the envelope holds, stays off (R330, R333). -/
theorem exec_domainPowerGood_stays {n : Fin 477} (h : domBlocked s n = true ∨ envHolds s n = true) :
    exec (.domainPowerGood n) s = .next s := by
  refine congrArg Host.Outcome.next (if_pos ?_)
  rcases h with h | h <;> simp [h]

section
variable {n : Fin 477} (hw : s.pwr.wanted.contains n.val = true)
include hw

theorem exec_domainPowerGood_up (hb : domBlocked s n = false) (he : envHolds s n = false)
    (hc : n.val < 411 ∨ 427 ≤ n.val ∨ fbit s PWR_CLK PWR_CLK_BRD = true) :
    exec (.domainPowerGood n) s = .next (domUp s n) := by
  have hclk : (decide (411 ≤ n.val ∧ n.val < 427) && !fbit s PWR_CLK PWR_CLK_BRD) = false := by
    refine Bool.and_eq_false_iff.2 ?_
    rcases hc with hc | hc | hc
    · exact .inl (decide_eq_false (by omega))
    · exact .inl (decide_eq_false (by omega))
    · exact .inr (congrArg (!·) hc)
  refine congrArg Host.Outcome.next (if_neg ?_)
  rw [hw, hb, he, hclk]
  decide

theorem exec_domainPowerFail_faults (hb : domBlocked s n = false) (he : envHolds s n = false) :
    exec (.domainPowerFail n) s = .next (domFault s n) :=
  congrArg Host.Outcome.next (if_pos (by rw [hw, hb, he]; rfl))

end

/-! ### Modes and the envelope -/

/-- FORCE takes the values that R342 allows, and ignores the others. -/
theorem exec_modeForceWrite_reach (hr : qcsReach s m PWR_MODE = true) (v : BitVec 4) :
    exec (.modeForceWrite m v) s = .next (if forceOk v.toNat then setForce s v.toNat else s) :=
  exec_regWrite rfl hr rfl

/-- MAINT is entered once nothing is dirty (R334). -/
theorem exec_maintEntry_enters (hf : force s = 0xB) (hr : ruleApplies s = true) (hs : inSafe s = false)
    (hd : s.zmp.dirty = []) : exec .maintEntry s = .next (modeCmdDone (setMode s 0xB 3)) :=
  congrArg Host.Outcome.next (if_pos ⟨hf, hr, by rw [hs]; rfl, by rw [hd]; rfl⟩)

theorem latchHigh_pwrMeas : latchHigh s m PWR_MEAS = s := by
  have h : wideRest PWR_MEAS = [] := by decide
  unfold latchHigh
  rw [h]
  rfl

theorem restartPeak_pwrMeas :
    restartPeak s PWR_MEAS = fset s PWR_MEAS PWR_MEAS_PEAK (fget s PWR_MEAS PWR_MEAS_NOW) := by
  rw [restartPeak, if_neg (by decide), if_pos (by decide)]
  rfl

/-- A register that belongs to no channel is read by every master (R409). -/
theorem mbxMayRead_noChannel {a : Nat} (h : mbxChan a = none) (s : State) (m : Master) : mbxMayRead s m a = true := by
  unfold mbxMayRead
  rw [h]

/-- A read of PWR_MEAS from inside the device starts PEAK again at NOW (R343). -/
theorem exec_pwrMeasRead_inside (h : accessUndefined s m PWR_MEAS = false) (hm : hostPort m = none) :
    exec (.pwrMeasRead m) s = .next (emit (fset (clearRC (dropLatch s m PWR_MEAS) PWR_MEAS) PWR_MEAS PWR_MEAS_PEAK
      (fget (clearRC (dropLatch s m PWR_MEAS) PWR_MEAS) PWR_MEAS PWR_MEAS_NOW)) (.readData m PWR_MEAS (readValue s m PWR_MEAS))) := by
  refine congrArg Host.Outcome.next ((regRead_reach (by decide) h (mbxMayRead_noChannel (by decide) s m) hm).trans ?_)
  rw [latchHigh_pwrMeas, restartPeak_pwrMeas]

/-! ### Resets and the supply band -/

/-- The key and GO together reset the device (R338). -/
theorem exec_softwareReset_keyed {v : Word} (hr : qcsReach s m PWR_RST = true) (hk : getF v PWR_RST_KEY = 0x7A5C)
    (hg : getF v PWR_RST_GO = 1) : exec (.softwareReset m v) s = .next (deviceReset s 3) :=
  exec_regWrite rfl hr (if_pos ⟨hk, hg⟩)

theorem exec_softwareReset_unkeyed {v : Word} (hr : qcsReach s m PWR_RST = true) (hk : getF v PWR_RST_KEY ≠ 0x7A5C) :
    exec (.softwareReset m v) s = .next s :=
  exec_regWrite rfl hr (if_neg fun h => hk h.1)

theorem exec_uptimeWrap_wraps (hu : uptime s = 2 ^ 32 - 1) (hv : s.pwr.vaon = true)
    (hm : mode (wrN s PWR_UPTIME 0) ≠ 0) :
    exec .uptimeWrap s = .next (evtSet (wrN s PWR_UPTIME 0) .pwr PWR_EVT_UPTIME_WRAP) :=
  congrArg Host.Outcome.next ((if_pos hu).trans (uptimeTick_wraps hv (by omega) hm))

/-- The flash controller's wait states follow the band, past step 0 of the boot and while no master claims it (R452). -/
theorem wsFollow_follows {n : Nat} (hn : minWs s = some n) (hc : claimed s baseFLS = false) (hb : s.pwr.bootStep ≠ 0) :
    wsFollow s = fset s FLS_RDCFG FLS_RDCFG_WS n := by
  unfold wsFollow
  simp only [hn]
  exact if_neg (by simp [hc, hb])

/-- Outside WATCH a band other than the lowest brings its wait states. -/
theorem exec_vbandChange_band {b : Fin 3} (hm : mode s ≠ 0) (hb : b.val ≠ 2) :
    exec (.vbandChange b) s = .next (wsFollow (fset s FLS_STAT FLS_STAT_VBAND b)) :=
  congrArg Host.Outcome.next ((if_neg hm).trans (congrArg wsFollow (if_neg hb)))

/-- The lowest band marks the operation that runs besides. -/
theorem exec_vbandChange_lowest (hm : mode s ≠ 0) : exec (.vbandChange 2) s = .next (wsFollow
    (setFls (fset s FLS_STAT FLS_STAT_VBAND 2) fun f => { f with job := f.job.map fun j => { j with volt := true } })) :=
  congrArg Host.Outcome.next ((if_neg hm).trans (congrArg wsFollow (if_pos rfl)))

end Sys2Proof.Machine

open Sys2Proof Sys2Proof.Machine

/-- Settles O47: supplies by the mode, a lost clock by what its PLL drives, a domain by what holds it. -/
theorem clocksAndDomains : Obligations.ClocksAndDomains := by
  unfold Obligations.ClocksAndDomains
  refine ⟨fun s => rfl, fun s hv => congrArg Host.Outcome.next (if_pos hv), fun b s hm hv => exec_mainPgRise_good hm hv b,
    fun s hm hc => congrArg Host.Outcome.next (mainLoss_clean hm hc),
    fun s hm hc => congrArg Host.Outcome.next (mainLoss_unclean hm hc), ?wakeNew, ?wakeAgain, fun k s => exec_pllUnlock_core,
    fun k s => exec_pllUnlock_tether, fun n s => exec_domainPowerGood_up, fun n s _ => exec_domainPowerGood_stays,
    fun n s => exec_domainPowerFail_faults, fun m i v s hr => exec_regWrite rfl hr rfl,
    fun m i v s hr => exec_regWrite rfl hr rfl, fun s hm => congrArg Host.Outcome.next (if_neg hm),
    fun s hm => congrArg Host.Outcome.next (if_neg hm)⟩
  case wakeNew =>
    exact fun c s hm hv hw hl => (exec_watchWakeSource_enabled hm hv hw).trans (congrArg _ (if_neg (ne_true_of_eq_false hl)))
  case wakeAgain =>
    exact fun c s hm hv hw hl => (exec_watchWakeSource_enabled hm hv hw).trans (congrArg _ (if_pos hl))

/-- Settles O48: a window by its choice, FORCE by its value, a reset by its cause, the supply band by the mode. -/
theorem modesAndResets : Obligations.ModesAndResets := by
  unfold Obligations.ModesAndResets
  refine ⟨?window, ?forced, ?notForced, fun s => exec_maintEntry_enters, fun l s hm => congrArg Host.Outcome.next (if_neg hm),
    fun m s => exec_pwrMeasRead_inside, fun b s hm => congrArg Host.Outcome.next (if_neg hm),
    fun m v s => exec_softwareReset_keyed, fun m v s => exec_softwareReset_unkeyed, fun s => rfl,
    fun m s hr => exec_regWrite rfl hr rfl, fun s => exec_uptimeWrap_wraps, fun b s hm => congrArg Host.Outcome.next (if_pos hm),
    ?band, fun s => exec_vbandChange_lowest, fun s hm => congrArg Host.Outcome.next (if_neg hm)⟩
  case window =>
    rintro c n k s hm rfl rfl rfl
    refine congrArg Host.Outcome.next ((if_neg (Nat.not_lt.2 hm)).trans ?_)
    simp only [decide_eq_true_eq]
  case forced => exact fun m v s hr hf => (exec_modeForceWrite_reach hr v).trans (congrArg _ (if_pos hf))
  case notForced =>
    exact fun m v s hr hf => (exec_modeForceWrite_reach hr v).trans (congrArg _ (if_neg (ne_true_of_eq_false hf)))
  case band =>
    exact fun b n s hm hb hn hc hs => (exec_vbandChange_band hm hb).trans (congrArg _ (wsFollow_follows hn hc (by rwa [fset_pwr])))

end

section
/-! The ballast ledger and SAFE (R312, R316, R317), the boot (R291, R382, R401), the power policy (R336), temperatures and
calibrations (R351 to R358). -/
namespace Sys2Proof.Machine
open Sys2Proof

variable {s : State}

/-! ### The ledger and SAFE -/

/-- Outside SAFE an evaluation renews the account, judges the deficit, tries the held requests again and is mirrored (R312). -/
theorem evaluate_renews (h : inSafe s = false) : evaluate s =
    let u := judgeDeficit (syncVused (putPlan s (ledgerPlan s none)))
    let r := forAll u.bal.held u retryHeld
    mirror r 5 [rdN r BAL_VUSED, rdN r BAL_VMAX, rdN r BAL_WRITERS] :=
  if_neg (ne_true_of_eq_false h)

/-- In SAFE the sets stay fixed (R316). -/
theorem evaluate_inSafe (h : inSafe s = true) : evaluate s = s := if_pos h

/-- The supply's warning brings an active device in a mode outside a hand-over to SAFE (R316). -/
theorem pfailAssert_active (h2 : 2 ≤ mode s) (h9 : mode s ≠ 9)
    (ha : isActiveRole (fsetb s BAL_STAT BAL_STAT_PFAIL true) = true)
    (hs : inSafe (fsetb s BAL_STAT BAL_STAT_PFAIL true) = false)
    (hm : mode (fsetb s BAL_STAT BAL_STAT_PFAIL true) = mode s) :
    pfailAssert s = enterSafe (fsetb s BAL_STAT BAL_STAT_PFAIL true) :=
  (if_neg (by rw [hm]; exact Nat.not_lt.2 h2)).trans ((if_neg (by rw [hm]; exact h9)).trans (if_neg (by rw [ha, hs]; decide)))

theorem exec_safeStagingDone_staged (hs : inSafe s = true) (hp : safePhase s = 2) :
    exec .safeStagingDone s = .next (safeStaged s) :=
  congrArg Host.Outcome.next (if_neg (by rw [hs, hp]; decide))

theorem exec_safeExit_leaves (hs : inSafe s = true) (hp : safePhase s = 4) (hf : fbit s BAL_STAT BAL_STAT_PFAIL = false) :
    exec .safeExit s = .next (applyRule (psUpdate (setMode (setBal (fset (fsetb s BAL_STAT BAL_STAT_SAFE false) BAL_STAT
      BAL_STAT_PHASE 0) fun b => { b with donors := [] }) 2 5))) :=
  congrArg Host.Outcome.next (if_neg (by rw [hs, hp, hf]; decide))

/-! ### The boot -/

section
variable (hm : mode s = 1)
include hm

/-- The boot is in mode BOOT at the step that a command ends. -/
theorem boot_at {n : Nat} (hb : s.pwr.bootStep = n) : ¬(mode s ≠ 1 ∨ s.pwr.bootStep ≠ n) := by
  simp [hm, hb]

/-- The result that the ROM's check of a bank gives, the bank's own result given with the command. -/
def romResult (s : State) (a b : BitVec 3) (bank : Nat) : Nat := bankResult s bank (if bank = 0 then a.toNat else b.toNat)

section
variable (hb : s.pwr.bootStep = 0) {a b : BitVec 3} {l : List Byte} {k : Nat} (hk : fget s PRT_FW PRT_FW_ACTIVE_BANK = k)
include hb hk

theorem exec_romImageCheck_active (h : romResult s a b k = 0) :
    exec (.romImageCheck a b l) s = .next (startFirmware (fset s PRT_FW PRT_FW_BOOT_RESULT 0)) := by
  subst hk
  refine congrArg Host.Outcome.next ((if_neg (boot_at hm hb)).trans ((if_pos h).trans ?_))
  exact congrArg (fun r => startFirmware (fset s PRT_FW PRT_FW_BOOT_RESULT r)) h

/-- The other bank is taken where the active one does not pass (R401). -/
theorem exec_romImageCheck_other (h : romResult s a b k ≠ 0) (ho : romResult s a b (1 - k) = 0) :
    exec (.romImageCheck a b l) s = .next (startFirmware (evtSet (fsetb (oldFormats (flipBank (fset s PRT_FW
      PRT_FW_BOOT_RESULT (romResult s a b k)))) PRT_FW PRT_FW_FALLBACK true) .prt PRT_EVT_BOOT_FALLBACK)) := by
  subst hk
  exact congrArg Host.Outcome.next ((if_neg (boot_at hm hb)).trans ((if_neg h).trans (if_pos ho)))

/-- With neither bank good, and no image from the partner yet, the partner is asked for one (R401). -/
theorem exec_romImageCheck_asks (h : romResult s a b k ≠ 0) (ho : romResult s a b (1 - k) ≠ 0) :
    exec (.romImageCheck a b []) s = .next (emit (fset s PRT_FW PRT_FW_BOOT_RESULT (romResult s a b k)) (.peer 20 [])) := by
  subst hk
  exact congrArg Host.Outcome.next ((if_neg (boot_at hm hb)).trans ((if_neg h).trans ((if_neg ho).trans (if_pos rfl))))

end

/-- Training ends step 1; a channel that did not train is an event and lowers the root's grade (R291). -/
theorem exec_dramTrainingDone_step (hb : s.pwr.bootStep = 1) (c : BitVec 8) : exec (.dramTrainingDone c) s = .next (
    let u := bootTruss (bootMemory (fset (fsetb s PWR_CLK PWR_CLK_DRAM true) BUF_STAT BUF_STAT_CH_UP c.toNat))
    setPwr (if c.toNat = 255 then u else rootGrade (evtSet u .buf BUF_EVT_CH_FAIL) 3 0x93) fun v =>
      { v with bootStep := 2 }) :=
  congrArg Host.Outcome.next (if_neg (boot_at hm hb))

theorem exec_roleSettleWindowEnd_settles (hb : s.pwr.bootStep = 2) :
    exec .roleSettleWindowEnd s = .next (roleSettled s (settledRole s)) :=
  congrArg Host.Outcome.next (if_neg (boot_at hm hb))

end

theorem exec_peerImageServe_serves {x : Nat × List Nat} (hb : s.pwr.bootStep ≠ 0) (hm : mode s ≠ 0)
    (hx : s.fls.images.find? (fun x => x.1 == fget s PRT_FW PRT_FW_ACTIVE_BANK) = some x) :
    exec .peerImageServe s = .next (emit s (.peer 21 x.2)) := by
  refine congrArg Host.Outcome.next ((if_neg (by simp [hb, hm])).trans ?_)
  simp only [hx]

/-! ### The power policy -/

/-- An active device in a mode and outside SAFE applies the ports' policies, wakes what waits and ends its overrides (R336). -/
theorem exec_powerPolicyEvaluation_acts {l : List (BitVec 7)} {r : State} (hr : policiesTaken s = r) (hs : inSafe r = false)
    (hm : 2 ≤ mode r) (ha : isActiveRole r = true) : exec (.powerPolicyEvaluation l) s = .next (
      let u := forAll (rangeFrom 0 32) r fun s p => portPolicy s p ((l.map (·.toNat)).getD p 0)
      forAll (rangeFrom 0 32) (forAll u.pwr.wakes u wakeSpin) fun s p => if (spnOf s p).ovrWait && !switching s p then
        overrideSwitch s p else s) := by
  subst hr
  exact congrArg Host.Outcome.next (if_neg (by simp [hs, ha]; omega))

/-! ### Temperatures and calibrations -/

/-- A mechanism long enough in band 5, or at 75.0 °C, is unloaded once its media tasks rest (R353). -/
theorem exec_mechB5Unload_unloads {p : Fin 32} {x : Nat × Nat}
    (hx : s.bgw.b5Since.find? (fun x => x.1 == p.val) = some x) (hh : s.bgw.hot.contains p.val = false)
    (hr : mediaRuns s p = false)
    (ht : x.2 + 60000 ≤ uptime s ∨ 750 ≤ sgn 16 (fget s (THM_MECH_W0 p) THM_MECH_W0_TEMP)) :
    exec (.mechB5Unload p) s = .next (hotUnload s p) := by
  have hlate : (decide (uptime s < x.2 + 60000) && decide (sgn 16 (fget s (THM_MECH_W0 p) THM_MECH_W0_TEMP) < 750)) = false := by
    rw [Bool.and_eq_false_iff, decide_eq_false_iff_not, decide_eq_false_iff_not]
    omega
  show execMechB5Unload p s = _
  simp only [execMechB5Unload, hx, hh, hr, hlate, Bool.or_self, Bool.false_eq_true, if_false]

theorem exec_calibrationItemDone_runs {a : Fin 64} {b : Bool} {u v : BitVec 16} {l : List (BitVec 16)} {j : CalJob}
    (hj : s.bgw.jobs.find? (fun j => j.act == a.val) = some j) (hi : j.item ≠ 0) :
    exec (.calibrationItemDone a b u v l) s = .next (calItemDone s a j b u v l) := by
  show execCalibrationItemDone a b u v l s = _
  simp only [execCalibrationItemDone, hj, if_neg hi]

end Sys2Proof.Machine

open Sys2Proof Sys2Proof.Machine

/-- Settles O46: the ledger and the supply's warning by whether the device is in SAFE, SAFE by its phase. -/
theorem ledgerAndSafe : Obligations.LedgerAndSafe := by
  unfold Obligations.LedgerAndSafe
  refine ⟨fun v s h => ⟨_, congrArg Host.Outcome.next (evaluate_renews h), _, rfl, rfl⟩,
    fun v s h => congrArg Host.Outcome.next (evaluate_inSafe h),
    fun s h2 h9 ha hs hm => congrArg Host.Outcome.next (pfailAssert_active h2 h9 ha hs hm),
    fun s hs hp => congrArg Host.Outcome.next (if_pos ⟨hs, hp⟩), fun s => exec_safeStagingDone_staged,
    fun s h => congrArg Host.Outcome.next (if_pos h), fun s h => congrArg Host.Outcome.next (if_neg (ne_true_of_eq_false h)),
    fun s => exec_safeExit_leaves, fun s hs h => congrArg Host.Outcome.next (if_pos (.inr h))⟩

/-- Settles O49: the ROM's check by the banks that pass, the steps of the boot by what ends them. -/
theorem bootSteps : Obligations.BootSteps := by
  unfold Obligations.BootSteps
  refine ⟨fun a b l s hm hb h => exec_romImageCheck_active hm hb rfl h,
    fun a b l s hm hb h ho => exec_romImageCheck_other hm hb rfl h ho,
    fun a b s hm hb h ho => exec_romImageCheck_asks hm hb rfl h ho, fun x s => exec_peerImageServe_serves, ?trained, ?partly,
    fun s => exec_roleSettleWindowEnd_settles, fun l r s => exec_powerPolicyEvaluation_acts⟩
  case trained => exact fun s hm hb => exec_dramTrainingDone_step hm hb 255
  case partly =>
    intro c s hm hb hc
    rw [exec_dramTrainingDone_step hm hb c]
    simp only [if_neg hc]

/-- Settles O51: samples as they come, a sensor and a trip by what is due, a calibration by the job that runs. -/
theorem heatAndCalibration : Obligations.HeatAndCalibration := by
  unfold Obligations.HeatAndCalibration
  refine ⟨fun l s => rfl, fun k s h => congrArg Host.Outcome.next (if_pos h),
    fun k s h => congrArg Host.Outcome.next (if_neg (ne_true_of_eq_false h)), fun l s => rfl,
    fun s h => congrArg Host.Outcome.next (if_pos h), fun s h => congrArg Host.Outcome.next (if_neg (Nat.not_le.2 h)),
    fun p x s => exec_mechB5Unload_unloads, fun a b u v l j s => exec_calibrationItemDone_runs,
    fun m k v s hr => exec_regWrite rfl hr rfl, ?unit⟩
  case unit =>
    rintro a b g d e f l m j s hr rfl
    exact congrArg Host.Outcome.next (if_neg (by rw [hr]; decide))

end

section
/-! The partner: heartbeats and the judgement, takeover and conflict, the mirror stream, the hand-over's phases, and the relay
chain (R383 to R393, R400, R406). -/
namespace Sys2Proof.Machine
open Sys2Proof

variable {s : State}

/-! ### Heartbeats and the judgement -/

/-- A mode and a powered peer link leave a heartbeat nothing that stops it (R383). -/
theorem peer_reachable (hm : mode s ≠ 0) (hd : domOn s 474 = true) : ¬(mode s = 0 ∨ (!domOn s 474) = true) := by
  simp [hm, hd]

theorem exec_peerHeartbeatSend_on (hm : mode s ≠ 0) (hd : domOn s 474 = true) :
    exec .peerHeartbeatSend s = .next (emit (setPrt s fun x => { x with hbCount := (s.prt.hbCount + 1) % 2 ^ 32 })
      (.peer 22 [(s.prt.hbCount + 1) % 2 ^ 32, roleOf s, healthByte s])) :=
  congrArg Host.Outcome.next (if_neg (peer_reachable hm hd))

/-- The partner's role and HEALTH as a heartbeat that has just arrived gives them (R383). -/
def heardFrom (s : State) (role health : Nat) : State :=
  fset (fset (fset (setPrt s fun x => { x with heard := true }) PRT_HB PRT_HB_PEER_AGE 0) PRT_STAT PRT_STAT_PARTNER_ROLE role)
    PRT_STAT PRT_STAT_PARTNER_HEALTH health

/-- A heartbeat of a partner whose HEALTH is not broken leaves the mirror valid (R291). -/
theorem exec_peerHeartbeatReceive_whole {role : BitVec 4} {health : BitVec 8} (hm : mode s ≠ 0) (hd : domOn s 474 = true)
    (hb : partnerBroken (heardFrom s role.toNat health.toNat) = false) :
    exec (.peerHeartbeatReceive role health) s =
      .next (followHandover (partnerGone (heardFrom s role.toNat health.toNat) s false)) :=
  congrArg Host.Outcome.next ((if_neg (peer_reachable hm hd)).trans
    (congrArg (fun t => followHandover (partnerGone t s false)) (if_neg fun h => ne_true_of_eq_false hb h.1)))

/-- A resynchronisation that an active device may end is over: MIRROR_VALID is set and counted (R390). -/
theorem exec_resyncDone_active (ha : isActiveRole s = true) (hs : standbyThere s = true)
    (he : fbit s PRT_CTRL PRT_CTRL_MIRROR_EN = true) (hv : mirrorValid s = false) :
    exec .resyncDone s = .next (
      let u := evtSet (count (fset (setMirrorValid s true) PRT_MIRROR PRT_MIRROR_RESYNC 100) (PRT_CNT 5) 1 .prt PRT_EVT_SAT) .prt
        PRT_EVT_RESYNC_DONE
      if isActiveRole u then
        emitAll (emit (ungradeUnit (resyncCopy u) 0 0xD1) (.peer 13 [rdN u TRS_RUN_SEQ])) (u.trs.runFiles.map (.peer 1))
      else u) :=
  congrArg Host.Outcome.next (if_neg (by rw [ha, hs, he, hv]; simp))

section
variable (hm : mode s ≠ 0)
include hm

theorem exec_partnerJudgement_stays (h : mayTakeOver (judged s) = false) : exec .partnerJudgement s = .next (judged s) :=
  congrArg Host.Outcome.next ((if_neg hm).trans (if_neg (ne_true_of_eq_false h)))

theorem exec_partnerJudgement_takesOver (h : mayTakeOver (judged s) = true) :
    exec .partnerJudgement s = .next (startTakeover (judged s)) :=
  congrArg Host.Outcome.next ((if_neg hm).trans (if_pos h))

end

/-! ### Takeover and conflict -/

theorem exec_takeoverAcquireRetry_running (h : s.prt.takeover = true) :
    exec .takeoverAcquireRetry s = .next (takeoverCheck (acquireAll s)) :=
  congrArg Host.Outcome.next (if_pos h)

/-- In a conflict the STANDBY releases its tokens and stays STANDBY (R386). -/
theorem exec_ownershipConflict_standby (hc : inConflict s = true) (hr : roleOf s = 2) :
    exec .ownershipConflict s = .next (setRole (evtSet (count (forAll ((rangeFrom 0 32).filter fun p =>
      isBound s p && tokenMine s p) (setPrt s fun x => { x with takeover := false }) fun s p => tokenCmd s p 2)
      (PRT_CNT 4) 1 .prt PRT_EVT_SAT) .prt PRT_EVT_CONFLICT) 2) :=
  congrArg Host.Outcome.next ((if_neg (by rw [hc]; decide)).trans (if_pos (.inr (.inl hr))))

/-! ### The mirror stream and the standby's self-test -/

theorem exec_mirrorStreamReceive_trained {f : MirrorFrame} (hr : roleOf s = 2 ∨ roleOf s = 4)
    (hd : fget s BUF_STAT BUF_STAT_CH_UP = 255) : exec (.mirrorStreamReceive f) s = .next (mirrorFrame s f) :=
  congrArg Host.Outcome.next (if_pos ⟨hr, hd⟩)

theorem exec_standbySelftestCycle_standby {l : List (Fin 477)} (hr : roleOf s = 2) :
    exec (.standbySelftestCycle l) s = .next (setPrt (forAll ((l.map (·.val)).filter fun n => !domFailed s n) s domFault)
      fun x => { x with selfOk := l.isEmpty }) :=
  congrArg Host.Outcome.next (if_neg (Classical.not_not.2 hr))

/-! ### The phases of a hand-over -/

theorem exec_handoverQuietDone_quiet (hm : mode s = 9) (hp : fget s PRT_HO PRT_HO_PHASE = 1) :
    exec .handoverQuietDone s = .next (fset s PRT_HO PRT_HO_PHASE 2) :=
  congrArg Host.Outcome.next (if_pos ⟨hm, hp⟩)

/-- The leaving device sends the loop record and hands its tokens off (R393). -/
theorem exec_handoverSyncDone_leaving (hm : mode s = 9) (hp : fget s PRT_HO PRT_HO_PHASE = 2) (hr : roleOf s = 3) :
    exec .handoverSyncDone s = .next (forAll ((rangeFrom 0 32).filter (tokenMine (hoPhase s 3))) (emit (hoPhase s 3) (.peer 12
      (loopRecord (hoPhase s 3)))) fun s p => tokenCmd s p 3) :=
  congrArg Host.Outcome.next ((if_neg fun h => h.elim (· hm) (· hp)).trans (if_neg (Classical.not_not.2 hr)))

theorem exec_loopRecordReceive_arriving {l : List LoopSlot} {k : List (BitVec 4 × BitVec 2)} (hr : roleOf s = 4) :
    exec (.loopRecordReceive l k) s = .next (loopTaken s l k) :=
  congrArg Host.Outcome.next (if_neg (Classical.not_not.2 hr))

/-- The leaving device completes the hand-over (R393); outside step 5 of an update nothing follows. -/
theorem exec_handoverDone_leaving {u : BitVec 24} (hm : mode s = 9) (hp : 3 ≤ fget s PRT_HO PRT_HO_PHASE) (hr : roleOf s ≠ 4)
    (hu : (hoComplete (hoEnded s u.toNat (roleOf s == 4)) 0).prt.upStep ≠ 5) :
    exec (.handoverDone u) s = .next (hoComplete (hoEnded s u.toNat (roleOf s == 4)) 0) :=
  congrArg Host.Outcome.next ((if_neg fun h => h.elim (· hm) (Nat.not_lt.2 hp)).trans ((if_neg hr).trans (if_neg hu)))

/-! ### The relay chain -/

section
variable {f : RelayFrame} {kind : Nat} {g : State → State}

/-- A bad relay frame is dropped, whatever its type (R400). -/
theorem relayTake_bad (hg : relayGood f = false) : relayTake s f kind g = relayDrop s :=
  if_pos (by rw [hg]; rfl)

/-- A good frame of the type asked for is taken, unless it is one that the device originated itself and no STATUS (R400). -/
theorem relayTake_good (hg : relayGood f = true) (hk : f.kind.toNat = kind)
    (ho : kind = 2 ∨ s.prt.origin.contains f.imgId.toNat = false) : relayTake s f kind g = g (relayIn s f) := by
  refine if_neg ?_
  rcases ho with rfl | ho
  · simp [hg, hk]
  · simp only [hg, hk, ho]; simp

end

end Sys2Proof.Machine

open Sys2Proof Sys2Proof.Machine

/-- Settles O56: each command in the state that the clause names, by the lemma about that state. -/
theorem partnerCommands : Obligations.PartnerCommands := by
  unfold Obligations.PartnerCommands
  refine ⟨?send, ?receive, ?resync, ?stays, ?takesOver, ?retry, ?conflict, ?mirror, ?selftest, ?start, ?quiet, ?sync, ?record,
    ?done, ?chunk, ?badChunk, ?relayEnd, ?status, ?revoke⟩
  case send => exact fun s => exec_peerHeartbeatSend_on
  case receive => exact fun a j s => exec_peerHeartbeatReceive_whole
  case resync =>
    intro u s ha hs he hv hu
    subst hu
    exact exec_resyncDone_active ha hs he hv
  case stays => exact fun s => exec_partnerJudgement_stays
  case takesOver => exact fun s => exec_partnerJudgement_takesOver
  case retry => exact fun s => exec_takeoverAcquireRetry_running
  case conflict => exact fun s => exec_ownershipConflict_standby
  case mirror => exact fun f s => exec_mirrorStreamReceive_trained
  case selftest => exact fun l s => exec_standbySelftestCycle_standby
  case start =>
    exact fun m s hr ha hw => exec_regWrite rfl hr (hoRequest_allowed ha hw none)
  case quiet => exact fun s => exec_handoverQuietDone_quiet
  case sync => exact fun s => exec_handoverSyncDone_leaving
  case record => exact fun l k s => exec_loopRecordReceive_arriving
  case done => exact fun u s => exec_handoverDone_leaving
  case chunk =>
    exact fun f s hm hg hk ho => congrArg Host.Outcome.next ((if_neg hm).trans (relayTake_good hg hk (.inr ho)))
  case badChunk => exact fun f s hm hg => congrArg Host.Outcome.next ((if_neg hm).trans (relayTake_bad hg))
  case relayEnd =>
    exact fun f s hm hg hk ho => congrArg Host.Outcome.next ((if_neg hm).trans (relayTake_good hg hk (.inr ho)))
  case status =>
    exact fun f s hm hg hk _ ho => congrArg Host.Outcome.next
      ((if_neg hm).trans ((relayTake_good hg hk (.inl rfl)).trans (if_pos ho)))
  case revoke => exact fun m v s hr => exec_regWrite rfl hr rfl

end
